-- ==== Sys2Proof/Word.lean ====
section
/-! DEFINITION. The word types of the model and the shape of its sparse tables. -/

namespace Sys2Proof

/-- One octet. -/
abbrev Byte := BitVec 8

/-- A 64-bit word of a header, a register or a host memory structure. -/
abbrev Word := BitVec 64

/-- A sparse table: keys in rising order; a key that is not listed has the table's default. -/
abbrev Tab (α : Type) := List (Nat × α)

end Sys2Proof
end

