-- ==== Sys2Proof/Syntax.lean ====
section
/-! DEFINITION. The commands of the block (one constructor per row of the operation table) and the data they carry. -/

namespace Sys2Proof

/-- Who makes a dictionary request: the path fixes the class (R42), and the writer is the holder of an apply set (R46). -/
inductive Writer where
  /-- The mailbox of the PF of host port `h`: class H. -/
  | mailbox (h : Nat)
  /-- A request relayed for VF `vf` of host port `h`: class T (R58). -/
  | tenant (h vf : Nat)
  /-- MCTP over I3C: class B. -/
  | mctp
  /-- FDP under key id `key`: class F. -/
  | fdp (key : Nat)
  /-- The in-band Shim channel from endpoint `ep`: class F. -/
  | shim (ep : Nat)
  deriving DecidableEq, Repr

/-- A native work entry: eight 64-bit words (R139). -/
structure Entry where
  w0 : Word := 0
  w1 : Word := 0
  w2 : Word := 0
  w3 : Word := 0
  w4 : Word := 0
  w5 : Word := 0
  w6 : Word := 0
  w7 : Word := 0
  deriving DecidableEq, Repr

/-- The all-zero entry. -/
def Entry.init : Entry := {}

/-- A Veneer work entry: four 64-bit words (R147). -/
structure VEntry where
  vw0 : Word := 0
  vw1 : Word := 0
  vw2 : Word := 0
  vw3 : Word := 0
  deriving DecidableEq, Repr

/-- A fabric packet without its link header and link CRC: the routing header (R81), the four words of the transport
header or shim payload (R89 to R94, R65), the payload in memory order, and the carried end check or shim check (R98). -/
structure Packet where
  vc : BitVec 5 := 0
  tc : BitVec 3 := 0
  len : BitVec 7 := 0
  hops : BitVec 4 := 0
  ord : Bool := false
  nmin : Bool := false
  ecn : Bool := false
  spec : Bool := false
  kind : BitVec 7 := 0
  dst : BitVec 17 := 0
  src : BitVec 17 := 0
  igrp : BitVec 10 := 0
  rsvd : BitVec 6 := 0
  injt : BitVec 48 := 0
  w0 : Word := 0
  w1 : Word := 0
  w2 : Word := 0
  w3 : Word := 0
  payload : List Byte := []
  check : Word := 0
  deriving DecidableEq, Repr

/-- The all-zero packet. -/
def Packet.init : Packet := {}

/-- An operation record of FDP and MCTP (R60). -/
structure OpRecord where
  op : Nat := 0
  status : Nat := 0
  param : BitVec 32 := 0
  offset : Nat := 0
  length : Nat := 0
  final : Bool := false
  data : List Byte := []
  deriving DecidableEq, Repr

/-- An MCTP packet over I3C (R63, R503): its start-of-message and end-of-message flags, whether its PEC is there and right,
and the part of the message it carries. -/
structure MctpPacket where
  som : Bool := false
  eom : Bool := false
  pecOk : Bool := true
  body : List Byte := []
  deriving DecidableEq, Repr

/-- A UDP datagram to port 4917: its payload octets (R59) and where it came from. -/
structure Datagram where
  bytes : List Byte := []
  source : Nat := 0
  deriving DecidableEq, Repr

/-- Configuration-space fields of a function that software writes (R100, R101, R108, R109, R175, R292). -/
inductive CfgBit where
  | busMaster | msixEnable | functionMask | atomicRequester | atsEnable | relaxedOrdering | maxPayload | maxReadRequest
  deriving DecidableEq, Repr

/-- A register that a host write names: a BAR0 offset with the width of the access, or a configuration-space bit. -/
inductive HostReg where
  /-- BAR0 offset; `wide` = a 64-bit access (a 32-bit access addresses one half, R106). -/
  | bar0 (offset : Nat) (wide : Bool)
  | config (bit : CfgBit)
  deriving DecidableEq, Repr

/-- A host read of a function's registers: a BAR0 offset with the width of the access, or a BAR2 offset (R104, R106, R110). -/
inductive BarRead where
  | bar0 (offset : Nat) (wide : Bool)
  | bar2 (offset : Nat)
  deriving DecidableEq, Repr

/-- The framed FIFO block of BAR0 that an access addresses (R111). -/
inductive FifoBlock where
  | transmit | receive | fault | trace
  deriving DecidableEq, Repr

/-- What a read of a queue's index block returns (R133). -/
inductive IndexRead where
  | ok (pi ci : BitVec 32)
  | failed
  deriving DecidableEq, Repr

/-- The indices of the control queue pair as found at its start (R129). -/
structure CtlIndices where
  sqPi : BitVec 32 := 0
  sqCi : BitVec 32 := 0
  cqPi : BitVec 32 := 0
  cqCi : BitVec 32 := 0
  deriving DecidableEq, Repr

/-- Which device read of a queue has failed (R133, R198). -/
inductive QueueRead where
  | indexBlock | ringEntry | contextArea
  deriving DecidableEq, Repr

/-- The bytes of a local source buffer as the host port read them, or a failed read (R292). -/
inductive SourceData where
  | bytes (b : List Byte)
  | failed
  deriving DecidableEq, Repr

/-- A context that may be absent from its cache (R196, R210, R291). -/
inductive CtxKey where
  | channel (key : Nat)
  | queue (h qn : Nat)
  | descriptor (ctx : Nat)
  | translation (index : Nat)
  deriving DecidableEq, Repr

/-- The first five words of a registration block as read (R286). -/
structure RegBlock where
  rb0 : Word := 0
  rb1 : Word := 0
  rb2 : Word := 0
  rb3 : Word := 0
  rb4 : Word := 0
  deriving DecidableEq, Repr

/-- A PCIe AtomicOp to a window (R301). -/
inductive PcieAtomic where
  | fetchAdd (bits : Nat) (operand : List Byte)
  | swap (bits : Nat) (operand : List Byte)
  | cas (bits : Nat) (compare new : List Byte)
  deriving DecidableEq, Repr

/-- How a host port read or AtomicOp for an arriving request ended (R175, R292). -/
inductive HostResult where
  | data (b : List Byte)
  | unsupported | aborted | timeout | poisoned
  deriving DecidableEq, Repr

/-- What the patrol scrub found at an address (R280). -/
inductive ScrubOutcome where
  | clean | corrected | uncorrectable
  deriving DecidableEq, Repr

/-- The kinds of lock a lane can lose (R420). -/
inductive LockKind where
  | bit | block | marker
  deriving DecidableEq, Repr

/-- A block of the port stream as the link layer and its lane macro exchange it (R365): data or control, its 32 bytes, and on receipt
the mark of an uncorrectable codeword (R416). -/
structure PortBlock where
  ctl : Bool := false
  bytes : List Byte := []
  bad : Bool := false
  deriving DecidableEq, Repr

/-- A 258-bit block of a lane after FEC decode, still scrambled: the sync header (first bit as [1]) and the 256 payload bits (first
bit as [0]) (R410, R413). -/
structure LaneBlock where
  header : BitVec 2 := 1
  payload : BitVec 256 := 0
  deriving DecidableEq, Repr

/-- A training block, bytes 1 to 31 (R393); `body` is bytes 9 to 31. -/
structure TrainBlock where
  tbtype : Nat := 0
  pmark : BitVec 16 := 0
  lpos : Nat := 0
  rates : Nat := 0
  widths : Nat := 0
  locked : Bool := false
  switch : Bool := false
  eqdone : Bool := false
  target : Nat := 0
  body : List Byte := []
  deriving DecidableEq, Repr

/-- The fields of a width-change or retrain message beside MSG (R402). -/
structure WidthMsg where
  tseq : Nat := 0
  chip : Nat := 0
  port : Nat := 0
  lanes : Nat := 0
  deriving DecidableEq, Repr

/-- A link control block: content bytes c0 to c61 by field (R369). -/
structure Lcb where
  kind : Byte := 0
  sop : Bool := false
  ackv : Bool := false
  nakv : Bool := false
  ackLsn : BitVec 12 := 0
  nakLsn : BitVec 12 := 0
  xoff : BitVec 23 := 0
  cgrp : Byte := 0
  freed : List (BitVec 16) := []
  item : List Byte := []
  lchk : BitVec 32 := 0
  deriving DecidableEq, Repr

/-- The two control blocks of an LCB as they arrive (R369, R371): 32 bytes each, whether they stand beside each other, and whether
either lies in an uncorrectable codeword. -/
structure LcbHalves where
  first : List Byte := []
  second : List Byte := []
  adjacent : Bool := true
  codewordBad : Bool := false
  deriving DecidableEq, Repr

/-- What marker lock finds on a lane (R412, R417, R419): PCOUNT and LPOS of the marker, how many ps it stands behind the marker of the
same PCOUNT on the other lane, whether the line carries precoding, and the last 58 scrambled payload bits up to that marker's end. -/
structure MarkerInfo where
  pcount : BitVec 32 := 0
  lpos : Nat := 0
  skew : Nat := 0
  precoded : Bool := false
  tail : BitVec 58 := 0
  deriving DecidableEq, Repr

/-- A time exchange item (R434). -/
structure TimeItem where
  tseq : Nat := 0
  eseq : Nat := 0
  valid : Bool := false
  root : Bool := false
  evalid : Bool := false
  depth : Nat := 0
  rootId : Nat := 0
  rootGen : BitVec 16 := 0
  ttx : Word := 0
  erx : Word := 0
  deriving DecidableEq, Repr

/-- The commands: one constructor per row of the operation table, in its order, each with what the step takes from outside. -/
inductive Instr where
  /-- READ (R57). -/
  | read (h : Nat) (relay : Bool) (vf : Nat) (param : BitVec 32)
  /-- WRITE (R57). -/
  | write (h : Nat) (relay : Bool) (vf : Nat) (param : BitVec 32)
  /-- DESCRIBE (R38). -/
  | describe (h : Nat) (relay : Bool) (vf : Nat) (param : BitVec 32)
  /-- READ_STAGED (R510). -/
  | readStaged (h : Nat) (relay : Bool) (vf : Nat) (param : BitVec 32)
  /-- MBX_UNKNOWN_OP (R56). -/
  | mbxUnknownOp (h : Nat) (op : Nat) (relay : Bool) (vf : Nat) (param : BitVec 32)
  /-- COLLIDE (R56). -/
  | collide (h : Nat)
  /-- FDP_REQUEST (R61). -/
  | fdpRequest (d : Datagram)
  /-- MCTP_REQUEST (R63). -/
  | mctpRequest (packets : List MctpPacket)
  /-- CHUNK_EXPIRY (R64). -/
  | chunkExpiry (path : Writer)
  /-- SHIM_DICTIONARY_REQUEST (R66). -/
  | shimDictionaryRequest (p : Packet)
  /-- COMMIT (R48). -/
  | commit (w : Writer) (setNo : Nat) (t : BitVec 64)
  /-- SET_TAKES_EFFECT (R49). -/
  | setTakesEffect (setNo : Nat)
  /-- DISCARD (R47). -/
  | discard (w : Writer) (setNo : Nat) (value : Nat)
  /-- HOLDER_TIMEOUT (R47). -/
  | holderTimeout (setNo : Nat)
  /-- SAVE (R51). -/
  | save (w : Writer) (value : Nat)
  /-- SAVE_COMPLETE (R51). -/
  | saveComplete (ok : Bool)
  /-- RESTORE_DEFAULTS (R53). -/
  | restoreDefaults (w : Writer) (value : Nat)
  /-- RESTORE_SAVED (R53). -/
  | restoreSaved (w : Writer) (value : Nat)
  /-- CALIBRATION_STORE (R70). -/
  | calibrationStore (w : Writer) (value : Nat)
  /-- CALIBRATION_STORE_COMPLETE (R70). -/
  | calibrationStoreComplete
  /-- CALIBRATION_IMAGE_WRITE (R71). -/
  | calibrationImageWrite (w : Writer) (image : List Byte)
  /-- REGISTER_WRITE (R106). -/
  | registerWrite (fn : Nat) (reg : HostReg) (value : BitVec 64)
  /-- HOST_LINK_TRAINED (R100). -/
  | hostLinkTrained (h : Nat) (width : Nat) (rate : Nat) (flit : Bool)
  /-- PERST_N_ASSERT (R484). -/
  | perstNAssert (h : Nat)
  /-- PERST_N_DEASSERT (R481). -/
  | perstNDeassert (h : Nat)
  /-- FUNCTION_LEVEL_RESET (R102). -/
  | functionLevelReset (fn : Nat)
  /-- FUNCTION_DISABLE (R199). -/
  | functionDisable (w : Writer) (fn : Nat)
  /-- FUNCTION_QUIESCED (R199). -/
  | functionQuiesced (fn : Nat)
  /-- FUNCTION_ENABLE (R102). -/
  | functionEnable (w : Writer) (fn : Nat)
  /-- FUNCTION_READY (R103). -/
  | functionReady (fn : Nat)
  /-- VF_ENABLE_CLEAR (R513). -/
  | vfEnableClear (h : Nat)
  /-- VF_ENABLE_SET (R513). -/
  | vfEnableSet (h : Nat) (numVfs : Nat)
  /-- VECTOR_UNMASK (R109). -/
  | vectorUnmask (fn : Nat) (vector : Nat)
  /-- COUNTER_PAGE_READ (R110). -/
  | counterPageRead (fn : Nat) (access : BarRead)
  /-- FF_DATA_READ (R117). -/
  | ffDataRead (h : Nat) (block : FifoBlock) (wide : Bool)
  /-- FF_DATA_UPPER_READ (R106). -/
  | ffDataUpperRead (h : Nat) (block : FifoBlock)
  /-- FF_DATA_WRITE (R115). -/
  | ffDataWrite (h : Nat) (block : FifoBlock) (wide : Bool) (value : BitVec 64)
  /-- FF_DATA_LOWER_WRITE (R106). -/
  | ffDataLowerWrite (h : Nat) (block : FifoBlock) (value : BitVec 32)
  /-- FF_COMMIT (R114). -/
  | ffCommit (h : Nat) (block : FifoBlock)
  /-- FF_ABORT (R114). -/
  | ffAbort (h : Nat) (block : FifoBlock)
  /-- FF_MARK (R118). -/
  | ffMark (h : Nat) (block : FifoBlock)
  /-- FF_REWIND (R118). -/
  | ffRewind (h : Nat) (block : FifoBlock)
  /-- FF_RELEASE (R119). -/
  | ffRelease (h : Nat) (block : FifoBlock) (p : BitVec 32)
  /-- RADISH_MARKER (R116). -/
  | radishMarker (fifo : Nat)
  /-- MGMT_TRANSMIT (R122). -/
  | mgmtTransmit (h : Nat)
  /-- SHIM_PACKET_DELIVERY (R123). -/
  | shimPacketDelivery (h : Nat) (p : Packet)
  /-- CONTROL_QP_ENABLE (R129). -/
  | controlQpEnable (w : Writer) (fn : Nat) (value : BitVec 32) (idx : CtlIndices)
  /-- CONTROL_QP_DISABLE (R129). -/
  | controlQpDisable (w : Writer) (fn : Nat) (value : BitVec 32)
  /-- RING (R137). -/
  | ring (fn : Nat) (off : Nat) (whole : Bool) (word : BitVec 64)
  /-- INVALIDATE (R148). -/
  | invalidate (fn : Nat) (off : Nat) (whole : Bool) (word : BitVec 64)
  /-- ARM (R138). -/
  | arm (fn : Nat) (off : Nat) (whole : Bool) (word : BitVec 64) (idx : IndexRead)
  /-- INDEX_BLOCK_READ_DONE (R133). -/
  | indexBlockReadDone (fn : Nat) (qn : Nat) (idx : IndexRead) (fetched : List Entry)
  /-- QUEUE_READ_TIMEOUT (R133). -/
  | queueReadTimeout (fn : Nat) (qn : Nat) (what : QueueRead)
  /-- SEND (R141). -/
  | send (h : Nat) (qn : Nat) (e : Entry) (data : SourceData)
  /-- TAGGED_SEND (R223). -/
  | taggedSend (h : Nat) (qn : Nat) (e : Entry) (data : SourceData)
  /-- WRITE_ENTRY (R142). -/
  | writeEntry (h : Nat) (qn : Nat) (e : Entry) (data : SourceData)
  /-- WRITE_WITH_NOTIFY (R142). -/
  | writeWithNotify (h : Nat) (qn : Nat) (e : Entry) (data : SourceData)
  /-- READ_ENTRY (R171). -/
  | readEntry (h : Nat) (qn : Nat) (e : Entry)
  /-- FETCH_ADD (R143). -/
  | fetchAdd (h : Nat) (qn : Nat) (e : Entry)
  /-- SWAP (R143). -/
  | swap (h : Nat) (qn : Nat) (e : Entry)
  /-- COMPARE_SWAP_8 (R143). -/
  | compareSwap8 (h : Nat) (qn : Nat) (e : Entry)
  /-- COMPARE_SWAP_16 (R143). -/
  | compareSwap16 (h : Nat) (qn : Nat) (e : Entry)
  /-- COUNT (R143). -/
  | count (h : Nat) (qn : Nat) (e : Entry)
  /-- NOP (R143). -/
  | nop (h : Nat) (qn : Nat) (e : Entry)
  /-- BARRIER (R269). -/
  | barrier (h : Nat) (qn : Nat) (e : Entry)
  /-- BROADCAST (R269). -/
  | broadcast (h : Nat) (qn : Nat) (e : Entry) (data : SourceData)
  /-- REDUCE (R266). -/
  | reduce (h : Nat) (qn : Nat) (e : Entry) (data : SourceData)
  /-- ALLREDUCE (R266). -/
  | allreduce (h : Nat) (qn : Nat) (e : Entry) (data : SourceData)
  /-- REDUCE_SCATTER (R268). -/
  | reduceScatter (h : Nat) (qn : Nat) (e : Entry) (data : SourceData)
  /-- CREATE (R145). -/
  | create (fn : Nat) (e : Entry) (qn : Nat) (idx : IndexRead)
  /-- DESTROY (R146). -/
  | destroy (fn : Nat) (e : Entry)
  /-- RESET (R146). -/
  | reset (fn : Nat) (e : Entry) (idx : IndexRead)
  /-- RECV (R222). -/
  | recv (h : Nat) (qn : Nat) (e : Entry)
  /-- TAGGED_RECV (R215). -/
  | taggedRecv (h : Nat) (qn : Nat) (e : Entry) (deferred : Bool)
  /-- VENEER_NOP (R147). -/
  | veneerNop (h : Nat) (qn : Nat) (v : VEntry)
  /-- VENEER_SEND (R147). -/
  | veneerSend (h : Nat) (qn : Nat) (v : VEntry) (data : SourceData)
  /-- VENEER_WRITE (R147). -/
  | veneerWrite (h : Nat) (qn : Nat) (v : VEntry) (data : SourceData)
  /-- VENEER_READ (R147). -/
  | veneerRead (h : Nat) (qn : Nat) (v : VEntry)
  /-- MALFORMED_ENTRY (R150). -/
  | malformedEntry (h : Nat) (qn : Nat) (e : Entry)
  /-- HELD_ENTRY (R242). -/
  | heldEntry (h : Nat) (qn : Nat) (e : Entry)
  /-- BACKLOG_DRAIN (R159). -/
  | backlogDrain (fn : Nat) (cqn : Nat) (ci : BitVec 32) (poisoned : Bool)
  /-- MESSAGE_REQUEST (R173). -/
  | messageRequest (h : Nat) (p : Packet) (miss : Option CtxKey)
  /-- WRITE_REQUEST (R172). -/
  | writeRequest (h : Nat) (p : Packet) (miss : Option CtxKey)
  /-- READ_REQUEST (R184). -/
  | readRequest (h : Nat) (p : Packet) (miss : Option CtxKey)
  /-- ATOMIC_REQUEST (R175). -/
  | atomicRequest (h : Nat) (p : Packet) (miss : Option CtxKey)
  /-- COUNT_REQUEST (R240). -/
  | countRequest (h : Nat) (p : Packet) (miss : Option CtxKey)
  /-- NOP_REQUEST (R220). -/
  | nopRequest (h : Nat) (p : Packet) (miss : Option CtxKey)
  /-- SYNC (R165). -/
  | sync (h : Nat) (p : Packet)
  /-- OFFER (R229). -/
  | offer (h : Nat) (p : Packet) (miss : Option CtxKey)
  /-- OFFER_CLOSE (R229). -/
  | offerClose (h : Nat) (p : Packet)
  /-- ACK (R179). -/
  | ack (h : Nat) (p : Packet)
  /-- BUSY_NAK (R197). -/
  | busyNak (h : Nat) (p : Packet)
  /-- ERROR (R176). -/
  | error (h : Nat) (p : Packet)
  /-- READ_DATA (R187). -/
  | readData (h : Nat) (p : Packet)
  /-- ATOMIC_RESULT (R187). -/
  | atomicResult (h : Nat) (p : Packet)
  /-- RETRANSMIT_TIMEOUT (R180). -/
  | retransmitTimeout (ch : Nat) (psn : BitVec 24)
  /-- BUSY_RESEND (R197). -/
  | busyResend (ch : Nat) (psn : BitVec 24)
  /-- ACK_DELAY (R177). -/
  | ackDelay (ch : Nat)
  /-- ERROR_STATE_EXPIRY (R167). -/
  | errorStateExpiry (ch : Nat)
  /-- ATOMIC_BLOCK_RETURN (R185). -/
  | atomicBlockReturn (ch : Nat)
  /-- CONTEXT_FETCH_DONE (R196). -/
  | contextFetchDone (ctx : CtxKey) (poisoned : Bool)
  /-- CONTEXT_FETCH_TIMEOUT (R198). -/
  | contextFetchTimeout (h : Nat) (qn : Nat)
  /-- CONTEXT_BIND (R204). -/
  | contextBind (w : Writer) (fn : Nat) (value : BitVec 64)
  /-- CONTEXT_UNBIND (R205). -/
  | contextUnbind (w : Writer) (fn : Nat) (value : BitVec 64)
  /-- EAGER_COPY_COMPLETE (R227). -/
  | eagerCopyComplete (id : Nat) (poisoned : Bool)
  /-- OFFER_RECORD_FREED (R232). -/
  | offerRecordFreed (id : Nat)
  /-- ALLOCATE (R238). -/
  | allocate (w : Writer) (fn : Nat) (ctr : Nat)
  /-- FREE (R238). -/
  | free (w : Writer) (fn : Nat) (ctr : Nat)
  /-- CONFIGURE (R238). -/
  | configure (w : Writer) (fn : Nat) (ctr : Nat) (arg : BitVec 44)
  /-- SET (R238). -/
  | set (w : Writer) (fn : Nat) (ctr : Nat) (arg : BitVec 44)
  /-- ADD (R238). -/
  | add (w : Writer) (fn : Nat) (ctr : Nat) (arg : BitVec 44)
  /-- HELD_ENTRY_READ_BACK (R244). -/
  | heldEntryReadBack (fn : Nat) (slot : Nat) (data : SourceData)
  /-- HELD_AREA_READ_TIMEOUT (R244). -/
  | heldAreaReadTimeout (fn : Nat) (slot : Nat)
  /-- COLLECTIVE_UP (R262). -/
  | collectiveUp (port : Nat) (p : Packet) (poisoned : Bool)
  /-- COLLECTIVE_DOWN (R268). -/
  | collectiveDown (port : Nat) (p : Packet)
  /-- COLLECTIVE_ABORT (R274). -/
  | collectiveAbort (port : Nat) (p : Packet)
  /-- COLLECTIVE_DONE (R269). -/
  | collectiveDone (port : Nat) (p : Packet)
  /-- SEGMENT_UP (R267). -/
  | segmentUp (slot : Nat) (cseq : BitVec 32) (seg : Nat) (poisoned : Bool)
  /-- COLLECTIVE_TIMEOUT (R273). -/
  | collectiveTimeout (slot : Nat) (cseq : BitVec 32)
  /-- REGISTER (R287). -/
  | register (w : Writer) (fn : Nat) (addr : BitVec 64)
  /-- REGISTER_COMPLETE (R287). -/
  | registerComplete (fn : Nat) (block : Option RegBlock) (pages : Option (List Nat))
  /-- DEREGISTER (R288). -/
  | deregister (fn : Nat) (block : Option RegBlock)
  /-- DEREGISTER_COMPLETE (R288). -/
  | deregisterComplete (fn : Nat)
  /-- ATS_INVALIDATE_REQUEST (R292). -/
  | atsInvalidateRequest (fn : Nat) (addr : Nat) (length : Nat)
  /-- ATS_INVALIDATE_COMPLETION (R292). -/
  | atsInvalidateCompletion (fn : Nat)
  /-- RETIRE (R282). -/
  | retire (w : Writer) (group : Nat)
  /-- CHANNEL_GROUP_FAILURE (R282). -/
  | channelGroupFailure (group : Nat)
  /-- RETIREMENT_COMPLETE (R282). -/
  | retirementComplete (group : Nat) (poisoned : List Nat)
  /-- BAR4_READ (R300). -/
  | bar4Read (fn : Nat) (id : Nat) (off : Nat) (len : Nat)
  /-- BAR4_WRITE (R298). -/
  | bar4Write (fn : Nat) (off : Nat) (bytes : List Byte)
  /-- BAR4_ATOMICOP (R301). -/
  | bar4Atomicop (fn : Nat) (id : Nat) (off : Nat) (op : PcieAtomic)
  /-- WRITE_GATHER_EXPIRY (R298). -/
  | writeGatherExpiry (h : Nat)
  /-- PREFETCH_EXPIRY (R302). -/
  | prefetchExpiry (h : Nat)
  /-- BRIDGE_TIMEOUT (R303). -/
  | bridgeTimeout (id : Nat)
  /-- CXL_MEM_READ (R308). -/
  | cxlMemRead (h : Nat) (addr : Nat)
  /-- CXL_MEM_WRITE (R307). -/
  | cxlMemWrite (h : Nat) (addr : Nat) (bytes : List (Option Byte))
  /-- PACKET_ROUTE (R314). -/
  | packetRoute (inp : Nat) (whole : Bool)
  /-- OUTPUT_START (R346). -/
  | outputStart (out : Nat)
  /-- FENCE_BROADCAST (R339). -/
  | fenceBroadcast (inp : Nat) (p : Packet)
  /-- THROTTLE_BROADCAST (R344). -/
  | throttleBroadcast (inp : Nat) (p : Packet)
  /-- BROADCAST_APPLY (R342). -/
  | broadcastApply
  /-- CLAMP_TABLE_WRITE (R340). -/
  | clampTableWrite (w : Writer) (row : Nat) (value : BitVec 64)
  /-- THROTTLE_EXPIRY (R345). -/
  | throttleExpiry (chip : Nat)
  /-- SPLINE_HINT_SEND (R324). -/
  | splineHintSend (port : Nat)
  /-- SPLINE_HINT_RECEIVE (R325). -/
  | splineHintReceive (port : Nat) (item : List Byte)
  /-- HINT_STALE (R325). -/
  | hintStale (port : Nat)
  /-- TOKEN_TICK (R356). -/
  | tokenTick (ticks : Nat)
  /-- GATE_ENTRY_CHANGE (R360). -/
  | gateEntryChange (port : Nat)
  /-- LINK_PACKET_RECEIVE (R373). -/
  | linkPacketReceive (port : Nat) (blocks : List PortBlock)
  /-- LCB_SEND (R372). -/
  | lcbSend (port : Nat)
  /-- LCB_RECEIVE (R369). -/
  | lcbReceive (port : Nat) (l : LcbHalves)
  /-- REPLAY_TIMEOUT (R377). -/
  | replayTimeout (port : Nat)
  /-- DEGRADATION_WINDOW (R386). -/
  | degradationWindow (port : Nat)
  /-- RESTORE_INTERVAL (R387). -/
  | restoreInterval (port : Nat)
  /-- CODEWORD_DECODE (R416). -/
  | codewordDecode (lane : Nat) (errors : Nat) (blocks : List LaneBlock) (fill : Int)
  /-- RECEIVER_DETECT (R395). -/
  | receiverDetect (port : Nat) (found : Nat)
  /-- PATTERN_BLOCK (R394). -/
  | patternBlock (port : Nat) (lpos : Nat) (b : TrainBlock)
  /-- EQUALISATION_REQUEST (R397). -/
  | equalisationRequest (port : Nat) (lpos : Nat) (b : TrainBlock)
  /-- EQUALISATION_RESPONSE (R397). -/
  | equalisationResponse (port : Nat) (lpos : Nat) (b : TrainBlock)
  /-- CAPABILITIES_BLOCK (R399). -/
  | capabilitiesBlock (port : Nat) (b : TrainBlock) (peerPassed : Bool)
  /-- BLOCK_LOCK (R418). -/
  | blockLock (lane : Nat) (headers : List Bool)
  /-- MARKER_LOCK (R419). -/
  | markerLock (lane : Nat) (m : MarkerInfo)
  /-- LOCK_LOSS (R420). -/
  | lockLoss (lane : Nat) (kind : LockKind)
  /-- TRAINING_TIMEOUT (R395). -/
  | trainingTimeout (port : Nat)
  /-- ATTEMPT_WAIT_END (R395). -/
  | attemptWaitEnd (port : Nat)
  /-- RETRAIN_EVENT_TIMEOUT (R400). -/
  | retrainEventTimeout (port : Nat)
  /-- PORT_RETRAIN (R405). -/
  | portRetrain (w : Writer) (port : Nat)
  /-- PORT_NARROW_LPOS0 (R403). -/
  | portNarrowLpos0 (w : Writer) (port : Nat)
  /-- PORT_NARROW_LPOS1 (R403). -/
  | portNarrowLpos1 (w : Writer) (port : Nat)
  /-- PORT_WIDEN (R404). -/
  | portWiden (w : Writer) (port : Nat)
  /-- WREQ (R403). -/
  | wreq (port : Nat) (m : WidthMsg)
  /-- WGRANT (R403). -/
  | wgrant (port : Nat) (m : WidthMsg)
  /-- WREFUSE (R403). -/
  | wrefuse (port : Nat) (m : WidthMsg)
  /-- WSWITCH (R403). -/
  | wswitch (port : Nat) (m : WidthMsg)
  /-- RREQ (R405). -/
  | rreq (port : Nat) (m : WidthMsg)
  /-- RACK (R405). -/
  | rack (port : Nat) (m : WidthMsg)
  /-- WREQ_TIMEOUT (R406). -/
  | wreqTimeout (port : Nat)
  /-- RACK_TIMEOUT (R405). -/
  | rackTimeout (port : Nat)
  /-- WSWITCH_LOCK_TIMEOUT (R406). -/
  | wswitchLockTimeout (port : Nat)
  /-- BIT_SLIP (R421). -/
  | bitSlip (w : Writer) (lane : Nat) (n : Nat)
  /-- CHECKER_SYNC (R429). -/
  | checkerSync (lane : Nat) (bits : Nat)
  /-- CHECKER_SYNC_LOSS (R429). -/
  | checkerSyncLoss (lane : Nat) (bits : Nat) (errors : Nat)
  /-- TIME_EXCHANGE_SEND (R434). -/
  | timeExchangeSend (port : Nat)
  /-- TIME_EXCHANGE_RECEIVE (R436). -/
  | timeExchangeReceive (port : Nat) (item : TimeItem)
  /-- PARENT_TIMEOUT (R438). -/
  | parentTimeout
  /-- HOLDOVER_EXPIRY (R438). -/
  | holdoverExpiry
  /-- SET_TIME (R437). -/
  | setTime (w : Writer) (t : BitVec 64)
  /-- PPS_EDGE (R439). -/
  | ppsEdge
  /-- PACE_WINDOW (R443). -/
  | paceWindow (raw : List Int)
  /-- AVS_LOOP (R444). -/
  | avsLoop
  /-- AVS_RESPONSE (R500). -/
  | avsResponse (good : Bool)
  /-- AVS_TIMEOUT (R500). -/
  | avsTimeout
  /-- THERMAL_WARNING (R446). -/
  | thermalWarning (raw : List Int)
  /-- THERMAL_TRIP (R509). -/
  | thermalTrip (raw : List Int)
  /-- SAMPLING_TICK (R448). -/
  | samplingTick (ticks : Nat)
  /-- STREAM_SAMPLE (R451). -/
  | streamSample (ci : BitVec 32)
  /-- FAULT_OCCURRENCE (R455). -/
  | faultOccurrence (unit : Nat) (cause : Nat) (skind : Nat) (subject : Nat)
  /-- HANDSHAKE_STALL (R464). -/
  | handshakeStall (unit : Nat)
  /-- BLOCK_RESET_COMPLETE (R484). -/
  | blockResetComplete (unit : Nat)
  /-- UNIT_RELEASE (R459). -/
  | unitRelease (w : Writer) (unit : Nat)
  /-- SOURCE_STATUS_CLEAR (R463). -/
  | sourceStatusClear (w : Writer) (unit : Nat) (cause : Nat) (value : BitVec 64)
  /-- KERF_WINDOW_CLOSE (R468). -/
  | kerfWindowClose
  /-- RECORD_TO_FIFO (R470). -/
  | recordToFifo
  /-- CLUSTER_RESTART (R485). -/
  | clusterRestart (w : Writer) (unit : Nat)
  /-- CLUSTER_RESTART_COMPLETE (R22). -/
  | clusterRestartComplete (unit : Nat)
  /-- POWER_ON (R484). -/
  | powerOn
  /-- RESET_N_ASSERT (R479). -/
  | resetNAssert
  /-- RESET_N_RELEASE (R479). -/
  | resetNRelease (grp : BitVec 10) (pos : BitVec 5)
  /-- STRAP_OVERRIDE_WRITE (R480). -/
  | strapOverrideWrite (value : BitVec 32)
  /-- BOOT_LOAD_COMPLETE (R478). -/
  | bootLoadComplete
  /-- JIG_SERVICE_UP (R479). -/
  | jigServiceUp
  /-- BEGIN (R487). -/
  | beginUpdate (w : Writer)
  /-- BEGIN_COMPLETE (R487). -/
  | beginComplete (ok : Bool)
  /-- UPDATE_BLOCK (R487). -/
  | updateBlock (w : Writer) (k : Nat) (bytes : List Byte)
  /-- UPDATE_BLOCK_COMPLETE (R487). -/
  | updateBlockComplete (ok : Bool)
  /-- VERIFY (R487). -/
  | verify (w : Writer)
  /-- VERIFY_COMPLETE (R487). -/
  | verifyComplete
  /-- SWITCH (R487). -/
  | switch (w : Writer)
  /-- SWITCH_COMPLETE (R476). -/
  | switchComplete (ok : Bool)
  /-- ACTIVATE (R487). -/
  | activate (w : Writer)
  /-- HBM_PATROL_SCRUB (R280). -/
  | hbmPatrolScrub (group : Nat) (addr : Nat) (outcome : ScrubOutcome)
  /-- THERMAL_WARNING_CLEAR (R446). -/
  | thermalWarningClear (raw : List Int)
  /-- DYNAMIC_ADDRESS_ASSIGNMENT (R63). -/
  | dynamicAddressAssignment (addr : Nat)
  /-- HOST_MEMORY_READ_COMPLETION (R175). -/
  | hostMemoryReadCompletion (id : Nat) (result : HostResult)
  /-- MATCH_ENTRY_READ_DONE (R235). -/
  | matchEntryReadDone (ctx : Nat) (poisoned : Bool)
  deriving DecidableEq, Repr

end Sys2Proof
end

