-- ==== Sys2Proof/Decode.lean ====
section
/-! DEFINITION. Which command a word spells: none, since no row of the operation table has bits. -/

namespace Sys2Proof

/-- The table gives its 225 rows no bits: a command is named, never encoded in a word, so no word spells one. -/
def decodeTableWord (_nbits _w : Nat) : Option Instr := none

end Sys2Proof
end

