-- ==== Sys2Proof/Config.lean ====
section
/-! DEFINITION. What the spec leaves open: constants without a body, about which nothing can be proved. -/

namespace Sys2Proof.Config

/-- The free values of the machine, by draw number: values the spec leaves open although the machine goes on, such as
the random numbers of R322. Every draw takes the next number of `Chip.free`. -/
opaque freeValue : Nat → Nat

/-- What a byte of HBM reads as that nothing has written since the `epoch`-th chip reset (R484: contents undefined). -/
opaque hbmPowerOn (epoch addr : Nat) : Byte

/-- HMAC-SHA-256 of a message under a key, 32 octets (R59): a published function that the spec does not restate. -/
opaque hmacSha256 (key message : List Byte) : BitVec 256

/-- SHA-384 of octets, 48 octets (R477): a published function that the spec does not restate. -/
opaque sha384 (message : List Byte) : BitVec 384

/-- ECDSA P-384 verification of a signature over a digest under a public key (R477). -/
opaque ecdsaP384 (publicKey : List Byte) (digest : BitVec 384) (signature : List Byte) : Bool

/-- The key hash fused at a key index 0 to 3 (R477). -/
opaque fusedKeyHash : Nat → BitVec 384

/-- Whether a key index is revoked by fuse (R477). -/
opaque keyRevoked : Nat → Bool

/-- The factory value of an element of area 02, by its 32-bit parameter number (R431, R445: "factory value"). -/
opaque factoryValue : Nat → Nat

/-- The built-in generic receiver and transmitter starting points and trims are stated where the spec states them; the
element number of a named unit counter within its unit, which the spec does not state (R448), is this function of the
counter's own index in the model. -/
opaque counterElement : Nat → Nat

/-- The ROWTYPE code that DESCRIBE reports for rows of S16, for which R38 lists no code. -/
opaque s16RowType : BitVec 4

/-- Whether octets have the layout of a calibration image (R71: the order and widths of its parts are not stated). -/
opaque calImageFormat : List Byte → Bool

/-- The die serial that a calibration image of right layout carries (R71). -/
opaque calImageSerial : List Byte → Word

/-- The octets of a calibration image that its CRC-32C covers, and the check itself (R71). -/
opaque calImageCheck : List Byte → Bool

/-- The value of an element of area 02 in a calibration image (R71). -/
opaque calImageValue : List Byte → Nat → Nat

/-- The calibration image that reading P02.001 gives for a serial and the values of area 02 (R71). -/
opaque calImageOf : Word → List (Nat × Nat) → List Byte

/-- The syndrome that DETAIL0 of a SECDED record carries (R467): it depends on the array, which the spec does not lay out. -/
opaque secdedSyndrome : Nat → BitVec 8

/-- The hash that places a context in a set of the context cache (R193): the spec does not give it. -/
opaque cacheSet : Nat → Nat

end Sys2Proof.Config
end

