-- ==== Sys2Proof/Machine/Tab.lean ====
section
/-! DEFINITION. Sparse tables: find, put, delete and update, all by structural recursion on the list of rows. -/

namespace Sys2Proof

variable {α : Type}

/-- The row of key `k`, if listed. -/
def Tab.get? : Tab α → Nat → Option α
  | [], _ => none
  | (k', v) :: r, k => if k = k' then some v else Tab.get? r k

/-- The row of key `k`, or the default. -/
def Tab.get (t : Tab α) (k : Nat) (d : α) : α := (Tab.get? t k).getD d

/-- Put a row at its place; a row with the same key is replaced. -/
def Tab.put : Tab α → Nat → α → Tab α
  | [], k, v => [(k, v)]
  | (k', v') :: r, k, v =>
    if k < k' then (k, v) :: (k', v') :: r else if k = k' then (k, v) :: r else (k', v') :: Tab.put r k v

/-- Remove every row of key `k`. -/
def Tab.del : Tab α → Nat → Tab α
  | [], _ => []
  | (k', v') :: r, k => if k = k' then Tab.del r k else (k', v') :: Tab.del r k

/-- Put a row, or remove it when it equals the default. -/
def Tab.set [DecidableEq α] (t : Tab α) (d : α) (k : Nat) (v : α) : Tab α :=
  if v = d then Tab.del t k else Tab.put t k v

/-- Update a row, starting from the default where it is not listed. -/
def Tab.upd (t : Tab α) (k : Nat) (d : α) (f : α → α) : Tab α := Tab.put t k (f (Tab.get t k d))

/-- Update a row if it is listed. -/
def Tab.adjust (t : Tab α) (k : Nat) (f : α → α) : Tab α :=
  match Tab.get? t k with
  | some v => Tab.put t k (f v)
  | none => t

/-- Keep the rows whose key and value satisfy a test. -/
def Tab.keep (t : Tab α) (p : Nat → α → Bool) : Tab α := t.filter fun r => p r.1 r.2

/-- Apply a function to every row. -/
def Tab.mapVals (t : Tab α) (f : Nat → α → α) : Tab α := t.map fun r => (r.1, f r.1 r.2)

/-- Rows in strictly rising order of their keys. -/
def Tab.sorted : Tab α → Bool
  | [] => true
  | [_] => true
  | (k, _) :: (k', v') :: r => k < k' && Tab.sorted ((k', v') :: r)

/-- Insert a number into a rising list without repeats. -/
def insertNat (k : Nat) : List Nat → List Nat
  | [] => [k]
  | x :: r => if k < x then k :: x :: r else if k = x then x :: r else x :: insertNat k r

/-- Remove the first element that satisfies a test. -/
def eraseFirst (p : α → Bool) : List α → List α
  | [] => []
  | x :: r => if p x then r else x :: eraseFirst p r

/-- Replace the first element that satisfies a test by another. -/
def replaceFirst (p : α → Bool) (y : α) : List α → List α
  | [] => []
  | x :: r => if p x then y :: r else x :: replaceFirst p y r

/-- Replace every element that satisfies a test. -/
def mapIf (p : α → Bool) (f : α → α) (l : List α) : List α := l.map fun x => if p x then f x else x

/-- Split a list into pieces of `n`, with `fuel` at least its length. -/
def chunksOf (n : Nat) : Nat → List α → List (List α)
  | 0, _ => []
  | _ + 1, [] => []
  | f + 1, l => l.take n :: chunksOf n f (l.drop n)

end Sys2Proof
end

