-- ==== Sys2Proof/Machine/Bits.lean ====
section
/-! DEFINITION. Bit fields, byte orders and the check codes. -/

namespace Sys2Proof

/-- The field of a number: `width` bits from bit `lo`. -/
def bits (x lo width : Nat) : Nat := x / 2 ^ lo % 2 ^ width

/-- One bit of a number. -/
def bitOf (x i : Nat) : Bool := x.testBit i

/-- A truth value as a number. -/
def natOfBool (b : Bool) : Nat := if b then 1 else 0

/-- The field [hi:lo] of a word. -/
def Word.field (w : Word) (hi lo : Nat) : Nat := bits w.toNat lo (hi + 1 - lo)

/-- Assemble a word from (value, lowest bit) pairs; each value must fit its field. -/
def mkWord : List (Nat × Nat) → Word
  | [] => 0
  | (v, lo) :: r => BitVec.ofNat 64 (v * 2 ^ lo) ||| mkWord r

/-- The low `n` bytes of a number, least significant first (host memory, R9's little-endian structures). -/
def bytesLE : Nat → Nat → List Byte
  | 0, _ => []
  | n + 1, x => BitVec.ofNat 8 x :: bytesLE n (x / 256)

/-- The low `n` bytes of a number, most significant first (fabric headers, R59, R63). -/
def bytesBE (n x : Nat) : List Byte := (bytesLE n x).reverse

/-- The number that bytes give, least significant first. -/
def natLE : List Byte → Nat
  | [] => 0
  | b :: r => b.toNat + 256 * natLE r

/-- The number that bytes give, most significant first. -/
def natBE (l : List Byte) : Nat := natLE l.reverse

/-- A word's eight bytes, most significant first. -/
def Word.be (w : Word) : List Byte := bytesBE 8 w.toNat

/-- A word's eight bytes, least significant first. -/
def Word.le (w : Word) : List Byte := bytesLE 8 w.toNat

/-- The 32-bit words of bytes are joined into 64-bit words, most significant byte first. -/
def wordsBE (l : List Byte) : List Word := (chunksOf 8 l.length l).map fun c => BitVec.ofNat 64 (natBE c)

/-- `n` zero bytes. -/
def zeros (n : Nat) : List Byte := List.replicate n 0

/-- `i` as a two's complement number of `w` bits. -/
def twos (w : Nat) (i : Int) : Nat := (i % (2 ^ w : Nat)).toNat

/-- The integer a two's complement number of `w` bits stands for. -/
def ofTwos (w x : Nat) : Int := if x % 2 ^ w < 2 ^ (w - 1) then (x % 2 ^ w : Nat) else (x % 2 ^ w : Nat) - (2 ^ w : Nat)

/-- Round up to a multiple. -/
def divUp (x n : Nat) : Nat := (x + n - 1) / n

/-- The positions below `n` whose bit is set in `x`. -/
def setBits (n x : Nat) : List Nat := (List.range n).filter fun i => x.testBit i

/-- The number with exactly the listed bits set. -/
def maskOf : List Nat → Nat
  | [] => 0
  | i :: r => 2 ^ i ||| maskOf r

/-- Eight steps of a reflected CRC over a register. -/
def crcReflected (poly : Nat) : Nat → Nat → Nat
  | 0, c => c
  | n + 1, c => crcReflected poly n (if c % 2 = 1 then (c / 2) ^^^ poly else c / 2)

/-- CRC-32C over bytes: polynomial 0x1EDC6F41 reflected, initial value and final exclusive-or all ones (R98). -/
def crc32c (l : List Byte) : BitVec 32 :=
  BitVec.ofNat 32 (l.foldl (fun c b => crcReflected 0x82F63B78 8 (c ^^^ b.toNat)) 0xFFFFFFFF ^^^ 0xFFFFFFFF)

/-- Eight steps of an unreflected CRC of `w` bits. -/
def crcPlain (w poly : Nat) : Nat → Nat → Nat
  | 0, c => c
  | n + 1, c => crcPlain w poly n (if c.testBit (w - 1) then (c * 2 % 2 ^ w) ^^^ poly else c * 2 % 2 ^ w)

/-- CRC-64 with the ECMA-182 polynomial, initial value and final exclusive-or all ones, no reflection (R98). -/
def crc64 (l : List Byte) : Word :=
  BitVec.ofNat 64 (l.foldl (fun c b => crcPlain 64 0x42F0E1EBA9EA3693 8 (c ^^^ b.toNat * 2 ^ 56)) 0xFFFFFFFFFFFFFFFF
    ^^^ 0xFFFFFFFFFFFFFFFF)

end Sys2Proof
end

