-- ==== Sys2Proof/Machine/State.lean ====
section
/-! DEFINITION. The state of the chip as plain data, its reset, and the reasons a step can stop. -/

namespace Sys2Proof.Machine

/-- The fitted variant (R1). -/
inductive Variant where
  | ik960 | ik940 | ik920
  deriving DecidableEq, Repr

/-- Where the chip stands between power and full service (R478, R479, R482, R483, R509). -/
inductive Phase where
  | held | booting | loaded | jig | full | recovery | tripped
  deriving DecidableEq, Repr

/-- State of an apply set (R68). -/
inductive SetPhase where
  | idle | staging | scheduled
  deriving DecidableEq, Repr

/-- The writing operations of the flash (R486). -/
inductive FlashOp where
  | save | calStore | erase | block | switch
  deriving DecidableEq, Repr

/-- Function states of P20.011 (R102). -/
inductive FnState where
  | absent | notReady | ready | draining | quiesced
  deriving DecidableEq, Repr

/-- The link of a host port (R100, R481). -/
inductive HostLink where
  | down | detect | disabled | up
  deriving DecidableEq, Repr

/-- Queue kinds (R145). -/
inductive QKind where
  | sq | rq | srq | cq | eq
  deriving DecidableEq, Repr

/-- Queue states of the index block (R131). -/
inductive QState where
  | active | error | destroyed
  deriving DecidableEq, Repr

/-- Send-half states (R168); `none` = no send half yet. -/
inductive SendState where
  | none | syncing | active | error | fenced
  deriving DecidableEq, Repr

/-- Operations of a load/store window (R298 to R302). -/
inductive BrKind where
  | read | posted | confirmed | atomic | speculative
  deriving DecidableEq, Repr

/-- Training states of P18.005 (R391), in code order. -/
inductive PState where
  | disabled | detect | pattern | lock | equalise | capabilities | active | held
  deriving DecidableEq, Repr

/-- Synchronisation states of P08.011 (R442), in code order. -/
inductive SyncState where
  | free | acquire | locked | holdover | lost | root
  deriving DecidableEq, Repr

/-- The named counters of the units; a counter is one of these at one unit number (R447, R448). -/
inductive Ctr where
  | malformed | levelOverflow | misroute | noRoute | hopLimit | ageLimit | fenceDiscard
  | bcastBad | bcastDuplicate | hintDiscard | staleHint
  | sent | replayed | accepted | nakSent | nakReceived | duplicate | outOfSequence | stomp
  | headerError | framingLoss | lcbError | unknownItem | poolOverrun | reserveOverrun | linkResetDiscard
  | gateOverrun (tc : Nat) | xoffCycles (vc : Nat) | poolOccupancy | reserveOccupancy (vc : Nat)
  | trainUnknown | treeDiscard | contextDiscard | matchDiscard | shimDiscard | absentPort | ecnMarked
  | endpointBad | badResponse | noChannel | aheadOfWindow | windowDiscard | specDropped
  | mgmtDiscard | cxlDiscard | ppsRejected | badPec
  | fecCorrected (lane : Nat) | fecUncorrectable (lane : Nat) | unknownControl (lane : Nat)
  deriving DecidableEq, Repr

/-- A named counter of a unit. -/
structure CounterId where
  unit : Nat
  ctr : Ctr
  deriving DecidableEq, Repr

/-- How a PCIe request to a window ends (R297, R303). -/
inductive PcieEnd where
  | success (b : List Byte)
  | poisoned (b : List Byte)
  | completerAbort
  | unsupported
  deriving DecidableEq, Repr

/-- What the transmitter of a lane puts on the line while its port is Disabled (R392, R428, R429). -/
inductive LineSignal where
  | idle
  /-- A generator pattern at a rate code; `half` = HALFPERIOD of a square wave. -/
  | pattern (code rate half : Nat)
  /-- The received symbols, retimed on the lane's recovered clock (far-end loop). -/
  | returned
  deriving DecidableEq, Repr

/-- What leaves the chip. -/
inductive Output where
  /-- A completion entry of a CQ of host port `h`, written at a bus address (R132, R151); cqn 0 = the control CQ of `fn`.
  Relaxed Ordering is never set on it (R101). -/
  | completion (h fn cqn : Nat) (addr : Nat) (words : List Word)
  /-- An event entry of an EQ, written at a bus address (R132, R155), without Relaxed Ordering (R101). -/
  | event (h fn eqn : Nat) (addr : Nat) (words : List Word)
  /-- The device's write of a 32-bit field of an index block of a function: byte offset within the block and value (R131),
  without Relaxed Ordering (R101). -/
  | indexWrite (h fn : Nat) (addr : Nat) (off : Nat) (value : BitVec 32)
  /-- A write to host memory; `ro` = with Relaxed Ordering, which only payload carries (R101). -/
  | dma (h fn : Nat) (addr : Nat) (bytes : List Byte) (ro : Bool)
  /-- A context written back to host memory (R195): a queue's context area, or on the IK-920 the area of the peer channels, named by
  the address the driver gave; the spec does not lay the context out. -/
  | contextWrite (h fn : Nat) (addr : Nat) (ctx : CtxKey)
  /-- A host memory read the chip issues: bytes at the bus addresses listed (R292). -/
  | hostRead (h fn id : Nat) (segments : List (Nat × Nat))
  /-- A PCIe AtomicOp the chip issues: opcode and operand bytes (R175). -/
  | hostAtomic (h fn id : Nat) (addr : Nat) (opcode : Nat) (operands : List Byte)
  /-- An MSI-X message (R108, R109). -/
  | msix (h fn vector : Nat) (addr data : Nat)
  /-- A packet on a fabric link with its link header and link CRC (R366, R367). -/
  | packet (port : Nat) (hdr : Word) (p : Packet) (crc : BitVec 32)
  /-- A link control block on a fabric link (R369). -/
  | lcb (port : Nat) (l : Lcb)
  /-- A training block on a lane (R393). -/
  | train (port lpos : Nat) (b : TrainBlock)
  /-- A block on the line of a lane: its sync header as data or control, its 32 bytes before scrambling, and the 129 PAM4 levels that
  carry it (R409, R410, R413, R424). -/
  | line (lane : Nat) (ctl : Bool) (bytes : List Byte) (levels : List Int)
  /-- The parity that ends a codeword on the line of a lane: 140 PAM4 levels (R414, R415). -/
  | parity (lane : Nat) (levels : List Int)
  /-- What the transmitter of a lane of a Disabled port changes to (R428, R429). -/
  | lineTest (lane : Nat) (signal : LineSignal)
  /-- Port blocks that a lane macro hands to the link layer or to training, in port order (R411, R416, R417). -/
  | received (port : Nat) (blocks : List PortBlock)
  /-- The dictionary status, value and value length of a request that a command row carries out by itself (R43). -/
  | dictReply (w : Writer) (status : Nat) (value : List Byte)
  /-- An FDP response datagram (R61). -/
  | fdpReply (dest : Nat) (bytes : List Byte)
  /-- An MCTP response as the packets it is split into (R63). -/
  | mctpReply (packets : List MctpPacket)
  /-- The value of a BAR0 read (R110, R117). -/
  | regRead (fn : Nat) (value : Word)
  /-- The end of a PCIe request to a window. -/
  | pcie (fn id : Nat) (how : PcieEnd)
  /-- CXL.mem read data, with poison (R308). -/
  | cxlData (h : Nat) (bytes : List Byte) (poison : Bool)
  /-- An AVSBus voltage write in mV (R444). -/
  | avsWrite (mv : Nat)
  /-- An ATS translation request (R292). -/
  | atsRequest (fn addr : Nat)
  /-- An ATS Invalidate Completion (R292). -/
  | atsDone (fn : Nat)
  /-- Request Retry Status to a configuration request that arrives before the Jig service is up (R481). -/
  | configRetry (fn : Nat)
  deriving DecidableEq, Repr

/-- The dictionary mailbox registers of one PF, BAR0 0x1000 to 0x1FFF (R56). -/
structure Mailbox where
  /-- MBX_CMD [55:48] OP, 8 bits (R56). -/
  cmdOp : Nat := 0
  /-- MBX_CMD [47] RELAY, 1 bit (R56). -/
  cmdRelay : Bool := false
  /-- MBX_CMD [39:32] VF, 8 bits (R56). -/
  cmdVf : Nat := 0
  /-- MBX_CMD [31:0] PARAM, 32 bits (R56). -/
  cmdParam : BitVec 32 := 0
  /-- MBX_CMD [63] GO, 1 bit: reads 1 while a request runs (R56). -/
  go : Bool := false
  /-- MBX_XFER [63] FINAL, 1 bit (R56). -/
  final : Bool := true
  /-- MBX_XFER [47:32] LENGTH, 16 bits (R56). -/
  xferLen : Nat := 0
  /-- MBX_XFER [31:0] OFFSET, 32 bits (R56). -/
  xferOff : Nat := 0
  /-- MBX_STATUS [55:48] DSTATUS, 8 bits (R56). -/
  dstatus : Nat := 0
  /-- MBX_STATUS [41] COLLIDE, 1 bit, W1C (R56). -/
  collide : Bool := false
  /-- MBX_STATUS [40] DONE, 1 bit (R56). -/
  done : Bool := false
  /-- MBX_STATUS [31:0] VALUE_LEN, 32 bits (R56). -/
  valueLen : Nat := 0
  /-- MBX_IRQ [11] ENABLE, 1 bit (R56). -/
  irqEnable : Bool := false
  /-- MBX_IRQ [10:0] VECTOR, 11 bits (R56). -/
  irqVector : Nat := 0
  /-- MBX_SEQ [31:0] SEQ, 32 bits (R56). -/
  seq : BitVec 32 := 0
  /-- MBX_DATA, 2,048 bytes, keyed by byte offset, bytes of 0 left out (R56). -/
  data : Tab Byte := []
  deriving DecidableEq, Repr

/-- Mailbox at its reset. -/
def Mailbox.init : Mailbox := {}

/-- A value whose chunks are held until the final one (R57, R64, R67). -/
structure HeldValue where
  /-- the path that holds it (a PF mailbox, FDP key id, MCTP, Shim endpoint) (R57, R64, R67). -/
  path : Writer := .mctp
  /-- the parameter number, 32 bits (R57). -/
  param : BitVec 32 := 0
  /-- the Shim TAG it accumulates under, 16 bits (0 on the other paths) (R67). -/
  tag : Nat := 0
  /-- the held bytes by offset (R57). -/
  bytes : Tab Byte := []
  /-- the VALUE_LEN of a Shim value (0 on the other paths) (R512). -/
  length : Nat := 0
  /-- the tick of the last chunk, ns (R64). -/
  last : Nat := 0
  deriving DecidableEq, Repr

/-- HeldValue at its reset. -/
def HeldValue.init : HeldValue := {}

/-- One of the apply sets 0x01 to 0xFF (R44 to R50). -/
structure ApplySet where
  /-- idle, staging or scheduled (P01.003[s]) (R46, R68). -/
  phase : SetPhase := .idle
  /-- the writer that holds the set (R46). -/
  holder : Option Writer := none
  /-- the tick of the holder's last staged write, ns (R47). -/
  lastStaged : Nat := 0
  /-- the commit time T of a scheduled set, 64 bits (R48). -/
  commitAt : BitVec 64 := 0
  deriving DecidableEq, Repr

/-- ApplySet at its reset. -/
def ApplySet.init : ApplySet := {}

/-- One entry of the Shim response cache (R67). -/
structure ShimReply where
  /-- the listed endpoint, 17 bits (R67). -/
  ep : Nat := 0
  /-- TAG, 16 bits (R67). -/
  tag : Nat := 0
  /-- CHUNK, 15 bits (R67). -/
  chunk : Nat := 0
  /-- the four words of the response's shim payload (R67). -/
  reply : List (BitVec 64) := []
  deriving DecidableEq, Repr

/-- ShimReply at its reset. -/
def ShimReply.init : ShimReply := {}

/-- The parameter dictionary (02_parameter_dictionary.md) beside the parameter values that units hold. -/
structure Dict where
  /-- every stored parameter value that differs from its default, by 32-bit number; the parameters and their widths are listed below (R38). -/
  active : Tab Nat := []
  /-- the staged values of the RWA parameters, by 32-bit number (R45). -/
  staged : Tab Nat := []
  /-- the apply sets that are not idle (R46). -/
  sets : Tab ApplySet := []
  /-- P01.004[s], 64 bits each (R48). -/
  lastResult : Tab (BitVec 64) := []
  /-- set 0x10 has been committed since reset (R483). -/
  committed10 : Bool := false
  /-- ID_ENDPOINT VALID: a chip id has been applied (R106). -/
  chipIdApplied : Bool := false
  /-- the four PF mailboxes (R56). -/
  mailboxes : Tab Mailbox := []
  /-- the held chunks of every path (R57, R64, R67). -/
  held : List HeldValue := []
  /-- P01.033, 32 bytes; none = unprovisioned (R68). -/
  fdpKey : Option (List Byte) := none
  /-- P01.035, 64 bits (R61). -/
  fdpLastSeq : BitVec 64 := 0
  /-- P01.036, 64 bits (R61). -/
  fdpRejected : BitVec 64 := 0
  /-- P01.041, 64 bits (R66). -/
  shimRejected : BitVec 64 := 0
  /-- the last 16 (TAG, CHUNK) responses of each listed endpoint, newest first (R67). -/
  shimCache : List ShimReply := []
  /-- the dynamic I3C address of the target, 7 bits (R63). -/
  i3cAddress : Option Nat := none
  /-- the tick of the last MCTP message, ns (R64). -/
  mctpFinalAt : Nat := 0
  deriving DecidableEq, Repr

/-- Dict at its reset. -/
def Dict.init : Dict := {}

/-- One dictionary bank of the flash (R51). -/
structure Bank where
  /-- 32 bits; 0 and 0xFFFF_FFFF mark an empty bank (P01.012) (R51). -/
  generation : Nat := 0
  /-- its CRC-32C is correct (R51). -/
  valid : Bool := false
  /-- parameter numbers and values recorded (R51). -/
  values : Tab Nat := []
  /-- the recorded P01.033 (R51). -/
  key : Option (List Byte) := none
  deriving DecidableEq, Repr

/-- Bank at its reset. -/
def Bank.init : Bank := {}

/-- One firmware slot of the flash (R477, R485). -/
structure FwSlot where
  /-- P38.010: 0 empty, 1 incomplete, 2 verified, 3 bad image (R485). -/
  state : Nat := 0
  /-- P38.011, 64 bits (R485). -/
  version : BitVec 64 := 0
  /-- it holds the image that the part was shipped with (R477). -/
  shipped : Bool := false
  /-- the 524,288-byte blocks written, by index 0 to 31 (R485). -/
  blocks : Tab (List Byte) := []
  deriving DecidableEq, Repr

/-- FwSlot at its reset. -/
def FwSlot.init : FwSlot := {}

/-- The quad-SPI flash and the writing operation that occupies it (R475, R486). -/
structure Flash where
  /-- bank 0 = A, 1 = B (R51). -/
  banks : Tab Bank := []
  /-- a save in progress: the bank number it writes and its snapshot (R51). -/
  saveJob : Option (Nat × Bank) := none
  /-- P01.011: 0 idle or done, 1 saving, 2 failed (R68). -/
  saveState : Nat := 0
  /-- the calibration area; none = its check fails (R70). -/
  calArea : Option (Tab Nat) := some []
  /-- a calibration store in progress: what it writes (R70). -/
  calJob : Option (Tab Nat) := none
  /-- P01.071: 0 valid, 1 storing, 2 invalid (R70). -/
  calState : Nat := 0
  /-- pointer record locations 0 and 1: the first 64 bytes of each, none = erased (R476). -/
  ptrs : Tab (List Byte) := []
  /-- firmware slots 0 = A, 1 = B (R475). -/
  slots : Tab FwSlot := [(0, { state := 2, shipped := true })]
  /-- the writing operation that occupies the flash (R486). -/
  op : Option FlashOp := none
  /-- the update block being written: its index and bytes (R487). -/
  blockJob : Option (Nat × List Byte) := none
  deriving DecidableEq, Repr

/-- Flash at its reset. -/
def Flash.init : Flash := {}

/-- Running firmware, clusters and update (R485, R487). -/
structure Firmware where
  /-- P38.002: 0 A, 1 B (R485). -/
  bootSlot : Nat := 0
  /-- P38.001: the slot that cluster i runs (0 A), i = 0 MGT to 5 TIM (R485). -/
  running : Tab Nat := []
  /-- P38.031: 0 running, 1 restarting, 2 held (R485). -/
  clusters : Tab Nat := []
  /-- P38.022 (R485). -/
  updateState : Nat := 0
  /-- P38.023, 8 bits (R485). -/
  updateResult : Nat := 0
  /-- the clusters that ACTIVATE has still to restart, in order (R487). -/
  activate : List Nat := []
  /-- a VERIFY runs (R487). -/
  verifying : Bool := false
  /-- the slot a SWITCH in progress names (R487). -/
  switchTo : Option Nat := none
  deriving DecidableEq, Repr

/-- Firmware at its reset. -/
def Firmware.init : Firmware := {}

/-- Power, reset, straps and boot (18_boot_reset_update.md). -/
structure Boot where
  /-- held in reset, booting, loaded, Jig service, full service, recovery service, tripped (R478, R479). -/
  phase : Phase := .booting
  /-- RESET_N is low (R479). -/
  resetLow : Bool := false
  /-- the latched chip id, 15 bits (GRP_ID x 32 + POS_ID) (R480). -/
  strapLatch : Nat := 0
  /-- strap override [31] (R480). -/
  overrideValid : Bool := false
  /-- strap override [14:0] (R480). -/
  overrideId : Nat := 0
  /-- THERMTRIP_N is asserted (R509). -/
  trippedPin : Bool := false
  /-- P30.F30, 64 bytes as eight words; [] reads zero (R473). -/
  lastFatal : List (BitVec 64) := []
  /-- a reaction-4 chip reset has been decided and not yet ended (FAULT_N) (R460). -/
  fatalReset : Bool := false
  /-- FAULT_N asserted by the recovery service (R478). -/
  faultInRecovery : Bool := false
  deriving DecidableEq, Repr

/-- Boot at its reset. -/
def Boot.init : Boot := {}

/-- A completion entry before it is laid out as CW0 to CW3 (R151). -/
structure Completion where
  /-- CW0 [63:32] (R151). -/
  wrid : BitVec 32 := 0
  /-- CW0 [31:24] (R153). -/
  status : BitVec 8 := 0
  /-- CW0 [23:0] (R151). -/
  qn : BitVec 24 := 0
  /-- CW1 [63:56] (R151). -/
  opcode : BitVec 8 := 0
  /-- CW1 [55] (R151). -/
  solicited : Bool := false
  /-- CW1 [54] (R151). -/
  immv : Bool := false
  /-- CW1 [47:0] (R151). -/
  time : BitVec 48 := 0
  /-- CW2 [63:32] (R151). -/
  length : BitVec 32 := 0
  /-- CW2 [31:0] (R151). -/
  peer : BitVec 32 := 0
  /-- CW3 (R152). -/
  result : BitVec 64 := 0
  deriving DecidableEq, Repr

/-- Completion at its reset. -/
def Completion.init : Completion := {}

/-- One PCIe function (1,024, by function index host x 256 + number). -/
structure Func where
  /-- P20.011: absent, not ready, ready, draining, quiesced (R102). -/
  state : FnState := .absent
  /-- the disable in progress was started by an FLR or by VF Enable (R102). -/
  flr : Bool := false
  /-- VF Enable was cleared while this VF had not yet quiesced (R513). -/
  vfGone : Bool := false
  /-- VF Enable was set again while this VF was draining (R513). -/
  vfBack : Bool := false
  /-- the tick at which its disable was accepted, ns (R199). -/
  disabledAt : Nat := 0
  /-- Bus Master Enable (configuration space) (R108). -/
  busMaster : Bool := false
  /-- MSI-X Enable (configuration space) (R108). -/
  msixEnable : Bool := false
  /-- MSI-X Function Mask (configuration space) (R108). -/
  functionMask : Bool := false
  /-- AtomicOp Requester Enable (configuration space) (R175). -/
  atomicRequester : Bool := false
  /-- ATS Enable (configuration space) (R292). -/
  atsEnable : Bool := false
  /-- Enable Relaxed Ordering (Device Control) (R101). -/
  relaxedOrdering : Bool := true
  /-- EV_ASYNC_EQ [31] VALID (R106). -/
  eqValid : Bool := false
  /-- EV_ASYNC_EQ [23:0] EQN (R106). -/
  eqn : Nat := 0
  /-- EV_URGENT [11] ENABLE (R106). -/
  urgentEnable : Bool := false
  /-- EV_URGENT [10:0] VECTOR (R106). -/
  urgentVector : Nat := 0
  /-- EV_FAULT [11] ENABLE (R106). -/
  faultEnable : Bool := false
  /-- EV_FAULT [10:0] VECTOR (R106). -/
  faultVector : Nat := 0
  /-- EV_SUMMARY [2] EVLOST, W1C (R107). -/
  evLost : Bool := false
  /-- EV_SUMMARY [1] FAULT, W1C (R461). -/
  evFault : Bool := false
  /-- EV_SUMMARY [0] URGENT, W1C (R108). -/
  evUrgent : Bool := false
  /-- the MSI-X table entries whose Mask bit is 0 (R109). -/
  unmasked : List Nat := []
  /-- the Message Address of each MSI-X table entry, 64 bits (R109). -/
  msixAddr : Tab Nat := []
  /-- the Message Data of each MSI-X table entry, 32 bits (R109). -/
  msixData : Tab Nat := []
  /-- the MSI-X vectors whose PBA bit is set (R109). -/
  pba : List Nat := []
  /-- producer index of the control SQ as read (R129). -/
  ctlSqPi : BitVec 32 := 0
  /-- consumer index of the control SQ (R129). -/
  ctlSqCi : BitVec 32 := 0
  /-- producer index of the control CQ (R129). -/
  ctlCqPi : BitVec 32 := 0
  /-- error cause of the control SQ, 0 = active (its STATE) (R131). -/
  ctlSqCause : Nat := 0
  /-- error cause of the control CQ, 0 = active (its STATE) (R131). -/
  ctlCqCause : Nat := 0
  /-- the control CQ is armed (R138). -/
  ctlArmed : Bool := false
  /-- bus addresses of the registration blocks accepted and not yet carried out, in order (R287). -/
  regionJobs : List Nat := []
  /-- a DEREGISTER whose transfers have not all finished: block address and old key (R288). -/
  deregJob : Option (Nat × Nat) := none
  /-- consumer index of the control CQ as read (R129). -/
  ctlCqCi : BitVec 32 := 0
  /-- the waiting ARM of the control CQ carries SOLONLY (R138). -/
  ctlSolOnly : Bool := false
  /-- the backlog of the control CQ, oldest first (R159). -/
  ctlBacklog : List Completion := []
  /-- the control CQ has taken a backlog from the region (R159). -/
  ctlBacklogged : Bool := false
  /-- Max Payload Size of Device Control, 128 bytes x 2^code, code 0 to 2 (R100). -/
  maxPayload : Nat := 0
  /-- Max Read Request Size of Device Control, 128 bytes x 2^code, code 0 to 5 (R100). -/
  maxReadRequest : Nat := 2
  deriving DecidableEq, Repr

/-- Func at its reset. -/
def Func.init : Func := {}

/-- One host port H0 to H3 (04_host_ports.md). -/
structure HostPort where
  /-- PERST_N of the port is asserted (R102). -/
  perst : Bool := false
  /-- down, detect, disabled, up (R100). -/
  link : HostLink := .down
  /-- trained width, lanes (R100). -/
  width : Nat := 0
  /-- P20.001 as latched at PERST_N (R102). -/
  mode : Nat := 1
  /-- P20.002 as latched at PERST_N (R102). -/
  maxWidth : Nat := 16
  /-- P20.003 as latched at PERST_N (TotalVFs) (R102). -/
  totalVfs : Nat := 255
  /-- P20.005 row of the PF as latched (R102). -/
  pagesPf : Nat := 64
  /-- P20.005 row of the VFs as latched (R102). -/
  pagesVf : Nat := 64
  /-- P20.006 row of the PF as latched (log2) (R102). -/
  bar4Pf : Nat := 28
  /-- P20.006 row of the VFs as latched (log2) (R102). -/
  bar4Vf : Nat := 22
  /-- VF Enable of the SR-IOV capability (R513). -/
  vfEnable : Bool := false
  /-- NumVFs, 16 bits (R513). -/
  numVfs : Nat := 0
  /-- CXL decoder 0 base, bytes of fabric memory (R306). -/
  cxlBase0 : Nat := 0
  /-- CXL decoder 0 size as reported (R306). -/
  cxlSize0 : Nat := 0
  /-- CXL decoder 1 base (R306). -/
  cxlBase1 : Nat := 0
  /-- CXL decoder 1 size as reported (R306). -/
  cxlSize1 : Nat := 0
  /-- decoders withdrawn by a retirement until the next PERST_N (R308). -/
  cxlWithdrawn : List Nat := []
  /-- trained rate in GT/s: 0 not trained, 16, 32 or 64 (R100). -/
  rate : Nat := 0
  /-- the link runs in FLIT mode (R100). -/
  flit : Bool := false
  deriving DecidableEq, Repr

/-- HostPort at its reset. -/
def HostPort.init : HostPort := {}

/-- A framed FIFO (R112 to R120). -/
structure Fifo where
  /-- the committed words from the release position to the tail, 64 bits each (R113). -/
  words : List (BitVec 64) := []
  /-- the release position (FF_RELEASE), 32 bits (R113). -/
  release : BitVec 32 := 0
  /-- the mark position less the release position (FF_MARKPOS) (R118). -/
  markOff : Nat := 0
  /-- the read position less the release position (FF_POS) (R113). -/
  readOff : Nat := 0
  /-- uncommitted words of the packet in progress (R114). -/
  pushed : List (BitVec 64) := []
  /-- the packet in progress has been dropped (R115). -/
  dropping : Bool := false
  /-- packets dropped and not yet in a marker, saturating at 0xFFFF_FFFF (R112). -/
  dropped : Nat := 0
  /-- packets written since the FIFO was emptied, 32 bits (COUNT of the next frame) (R112). -/
  frames : BitVec 32 := 0
  /-- the value last returned by FF_DATA (R117). -/
  lastRead : BitVec 64 := 0
  /-- the word last popped, whose upper half a 32-bit read returns (R106). -/
  lastPopped : BitVec 64 := 0
  /-- the value held by a 32-bit write of the lower half (R106). -/
  heldLower : Option (BitVec 32) := none
  /-- FF_STATUS [4] TXBAD, W1C (R122). -/
  txBad : Bool := false
  /-- FF_STATUS [3] LASTDROP (R114). -/
  lastDrop : Bool := false
  /-- FF_STATUS [2] BADCMD, W1C (R116). -/
  badCmd : Bool := false
  /-- FF_STATUS [1] BADREL, W1C (R118). -/
  badRel : Bool := false
  /-- FF_STATUS [0] UNDERRUN, W1C (R117). -/
  underrun : Bool := false
  /-- the data words at the release position whose frame word has been released (R119). -/
  lead : Nat := 0
  deriving DecidableEq, Repr

/-- Fifo at its reset. -/
def Fifo.init : Fifo := {}

/-- A created queue and its context (R125 to R160). -/
structure Queue where
  /-- SQ, RQ, SRQ, CQ or EQ (R145). -/
  kind : QKind := .sq
  /-- the owning function index, 10 bits (R125). -/
  fn : Nat := 0
  /-- log2 of the ring size, 4 to 22 (R145). -/
  logSize : Nat := 4
  /-- bus address of the ring, 64 bits (R145). -/
  ring : Nat := 0
  /-- bus address of the index block, 64 bits (R145). -/
  index : Nat := 0
  /-- bus address of the context area, 64 bits (R126). -/
  context : Nat := 0
  /-- the bound CQ, 24 bits (R145). -/
  cqn : Nat := 0
  /-- process index of an SQ, 15 bits (R145). -/
  sproc : Nat := 0
  /-- Veneer format (R145). -/
  veneer : Bool := false
  /-- class of a Veneer SQ, 2 bits (R145). -/
  vclass : Nat := 0
  /-- local key of every Veneer entry (R145). -/
  vlkey : BitVec 32 := 0
  /-- a vector is bound (R145). -/
  vecValid : Bool := false
  /-- MSI-X vector, 11 bits (R145). -/
  vector : Nat := 0
  /-- active, error or destroyed (index block STATE) (R131). -/
  state : QState := .active
  /-- cause of the error, 8 bits (R131). -/
  cause : Nat := 0
  /-- its function is being disabled (R199). -/
  draining : Bool := false
  /-- a DESTROY waits for the operations already consumed: its WRID (R146). -/
  destroying : Option (BitVec 32) := none
  /-- producer index (as read for SQ, RQ, SRQ; the device's for CQ, EQ) (R131). -/
  pi : BitVec 32 := 0
  /-- consumer index (the device's for SQ, RQ, SRQ; as read for CQ, EQ) (R131). -/
  ci : BitVec 32 := 0
  /-- the producer-index hint of the last RING (R137). -/
  hint : Option (BitVec 16) := none
  /-- the entries of the work entry cache, by index (R148). -/
  cached : List (BitVec 32 × Entry) := []
  /-- an ARM waits for the next entry (R138). -/
  armed : Bool := false
  /-- the waiting ARM carries SOLONLY (R138). -/
  solOnly : Bool := false
  /-- the backlog, oldest first (R159). -/
  backlog : List Completion := []
  /-- a backlog is taken from the region (R159). -/
  backlogged : Bool := false
  /-- completions lost and not yet reported by a 0x0C entry (R159). -/
  lost : Nat := 0
  /-- fetching from SQs bound to this CQ is stopped (R159). -/
  stopped : Bool := false
  /-- the consumed RECV entries that no message has taken, oldest first (R222). -/
  recvs : List Entry := []
  /-- SQ: entries consumed so far, the position of the next (R139). -/
  nextPos : Nat := 0
  /-- SQ: positions of the entries consumed, not held and not yet completed (R139). -/
  openPos : List Nat := []
  /-- SQ: entries that failed before injection and wait for earlier ones, by position (R190). -/
  failed : List (Nat × Completion) := []
  /-- unconsumed entries that the device has not fetched wait to be read and flushed (R151). -/
  flushing : Bool := false
  deriving DecidableEq, Repr

/-- Queue at its reset. -/
def Queue.init : Queue := {}

/-- An operation consumed and not completed on a peer channel (R170, R187, R188). -/
structure SendOp where
  /-- it has its MSGID and PSNs; otherwise it waits for the channel to be Active (R168). -/
  started : Bool := false
  /-- its MSGID (R170). -/
  msgid : BitVec 32 := 0
  /-- its first PSN (R170). -/
  firstPsn : BitVec 24 := 0
  /-- its packets not yet transmitted, in order (R170). -/
  unsent : List Packet := []
  /-- the function index (R161). -/
  fn : Nat := 0
  /-- the SQ, 24 bits; 0 = a hidden queue pair of a window or an offer (R161). -/
  qn : Nat := 0
  /-- its position in its SQ (R139). -/
  pos : Nat := 0
  /-- the bridge operation it belongs to (R295). -/
  window : Option Nat := none
  /-- the matched offer at this target that its READ or close WRITE serves (R229). -/
  toffer : Option Nat := none
  /-- the open offer of this sender that it announces (R228). -/
  soffer : Option Nat := none
  /-- WRID (R139). -/
  wrid : BitVec 32 := 0
  /-- SIGNAL (R139). -/
  signal : Bool := false
  /-- the opcode on the wire (R140). -/
  opcode : Nat := 0
  /-- the native opcode its completion reports (R151). -/
  report : Nat := 0
  /-- the destination endpoint (R161). -/
  dest : Nat := 0
  /-- bytes (R151). -/
  length : Nat := 0
  /-- its source data (R170). -/
  data : List Byte := []
  /-- W0 [47:0] of its packets (R90). -/
  lo : Nat := 0
  /-- W2 [31:0] of its packets (R90). -/
  lo2 : Nat := 0
  /-- W3 of its packets (R90). -/
  w3 : Word := 0
  /-- SOLICIT (R89). -/
  solicit : Bool := false
  /-- ORD (R174). -/
  ord : Bool := false
  /-- SPEC (R302). -/
  spec : Bool := false
  /-- READ: local key of the destination (R172). -/
  lkey : BitVec 32 := 0
  /-- READ: local address of this chunk's first byte (R172). -/
  laddr : Nat := 0
  /-- READ: response packets placed, by PIDX (R187). -/
  got : List Nat := []
  /-- the last chunk of its work entry (R171). -/
  lastChunk : Bool := true
  /-- the status decided, none while the operation runs (R176). -/
  status : Option Nat := none
  /-- prior value of an atomic (R152). -/
  result : BitVec 128 := 0
  /-- its function is disabled: no completion is written (R199). -/
  silent : Bool := false
  /-- bytes of its whole work entry: of all chunks of a READ (R151). -/
  total : Nat := 0
  /-- it has completed with 0x08 although packets of it are outstanding (R316). -/
  unrouted : Bool := false
  /-- the place in MSGID order of a released entry that has not been read back (R244). -/
  held : Bool := false
  /-- its data comes from the buffer that lkey and laddr name (R290). -/
  sourced : Bool := false
  deriving DecidableEq, Repr

/-- SendOp at its reset. -/
def SendOp.init : SendOp := {}

/-- An unretired request packet of a peer channel (R180). -/
structure OutPkt where
  /-- its PSN (R180). -/
  psn : BitVec 24 := 0
  /-- the packet as built (R180). -/
  pkt : Packet := Packet.init
  /-- the MSGID it belongs to (R180). -/
  msgid : BitVec 32 := 0
  /-- retransmission count (R180). -/
  k : Nat := 0
  /-- its retransmission deadline, tick in ns; none while stopped by a BUSY NAK (R180). -/
  deadline : Option Nat := none
  /-- busy count (R197). -/
  busy : Nat := 0
  /-- the tick of its resend after a BUSY NAK (R197). -/
  resendAt : Option Nat := none
  /-- a READ or atomic, which an ACK does not retire (R179). -/
  needsResp : Bool := false
  /-- packets it counts in the injection window (R191). -/
  weight : Nat := 1
  /-- the function that injected it; none = a SYNC (R359). -/
  fn : Option Nat := none
  deriving DecidableEq, Repr

/-- OutPkt at its reset. -/
def OutPkt.init : OutPkt := {}

/-- A message of a receive half that has packets recorded and has not completed (R165, R187). -/
structure RxMsg where
  /-- its MSGID (R187). -/
  msgid : BitVec 32 := 0
  /-- its OPCODE (R89). -/
  opcode : Nat := 0
  /-- its packets (R89). -/
  pcnt : Nat := 1
  /-- the PIDX values received (R187). -/
  got : List Nat := []
  /-- payload bytes of its last packet (R95). -/
  lastLen : Nat := 0
  /-- source identity, 32 bits (R215). -/
  src : Nat := 0
  /-- destination queue, 24 bits (R90). -/
  dqn : Nat := 0
  /-- matching context, 20 bits (R90). -/
  mctx : Nat := 0
  /-- match bits (R90). -/
  bits : BitVec 64 := 0
  /-- immediate (R91). -/
  imm : BitVec 32 := 0
  /-- SOLICIT (R89). -/
  solicit : Bool := false
  /-- the receive entry it took (R173). -/
  buffer : Option Entry := none
  /-- its packets go to the eager store (R225). -/
  stored : Bool := false
  /-- resolved by a NOP: later packets are discarded (R220). -/
  abandoned : Bool := false
  /-- status its receive completion will carry (R173). -/
  status : Nat := 0
  /-- complete for the order rule of R188 (R188). -/
  ended : Bool := false
  /-- its receive completion is written apart from R188 or not at all (R227). -/
  quiet : Bool := false
  deriving DecidableEq, Repr

/-- RxMsg at its reset. -/
def RxMsg.init : RxMsg := {}

/-- An entry of an atomic response cache (R185). -/
structure AtomicRec where
  /-- PSN (R185). -/
  psn : BitVec 24 := 0
  /-- prior value (R185). -/
  prior : BitVec 128 := 0
  /-- a COMPARE-SWAP 16, which takes two entries (R185). -/
  wide : Bool := false
  /-- the tick at which it executed, ns (R185). -/
  since : Nat := 0
  /-- the function whose memory it acted on; 1024 = fabric memory (R200). -/
  fn : Nat := 1024
  deriving DecidableEq, Repr

/-- AtomicRec at its reset. -/
def AtomicRec.init : AtomicRec := {}

/-- A peer channel (R162). -/
structure Chan where
  /-- send half: none, syncing, active, error or fenced (R168). -/
  sendState : SendState := .none
  /-- next PSN (R162). -/
  nextPsn : BitVec 24 := 0
  /-- next MSGID (R162). -/
  nextMsgid : BitVec 32 := 0
  /-- lowest unacknowledged PSN, as last computed (R162). -/
  una : BitVec 24 := 0
  /-- PSN of the SYNC being sent (R164). -/
  syncPsn : BitVec 24 := 0
  /-- the SYNC waits in the injection window (R191). -/
  syncDue : Bool := false
  /-- the tick of the entry to Error, ns (R167). -/
  errorAt : Nat := 0
  /-- its unretired request packets, in PSN order (R162). -/
  outstanding : List OutPkt := []
  /-- its operations, in MSGID order (R188). -/
  ops : List SendOp := []
  /-- the receive half exists (R166). -/
  recvOpen : Bool := false
  /-- PSN and MSGID of the last SYNC applied (R165). -/
  syncAt : Option (BitVec 24 × BitVec 32) := none
  /-- the receive half has received a SYNC (R166). -/
  synced : Bool := false
  /-- receive base (R162). -/
  base : BitVec 24 := 0
  /-- receive bitmap, bit d = PSN base + d (R162). -/
  bitmap : BitVec 1024 := 0
  /-- next MSGID to complete (R162). -/
  nextDone : BitVec 32 := 0
  /-- resolve pointer Q (R217). -/
  resolve : BitVec 32 := 0
  /-- messages with packets recorded and not completed, in MSGID order (R165). -/
  msgs : List RxMsg := []
  /-- MSGIDs ahead of Q that hold an order record (R218). -/
  recorded : List (BitVec 32) := []
  /-- PSNs accepted and not yet acknowledged (R177). -/
  unacked : List (BitVec 24) := []
  /-- the tick of the oldest of them, ns (R177). -/
  ackSince : Nat := 0
  /-- one of them carried ECN (R178). -/
  ackEcn : Bool := false
  /-- the atomic response cache, newest first (R185). -/
  atomics : List AtomicRec := []
  /-- the channel holds an atomic response block (R185). -/
  atomicBlock : Bool := false
  /-- ORD packets that wait for earlier PSNs (R174). -/
  ordWaiting : List Packet := []
  /-- a packet reached the retry limit while CON was down (R25). -/
  limitHit : Bool := false
  deriving DecidableEq, Repr

/-- Chan at its reset. -/
def Chan.init : Chan := {}

/-- Destination state of one chip id (R191, R345). -/
structure Dest where
  /-- the injection window W, packets (R191). -/
  window : Nat := 512
  /-- packets retired without ECNE since W last changed (R192). -/
  retired : Nat := 0
  /-- the tick of the last decrease, ns (R192). -/
  lastDecrease : Option Nat := none
  /-- the suspect mark (R169). -/
  suspect : Bool := false
  /-- the throttle's window ceiling (R345). -/
  cap : Option Nat := none
  /-- the tick at which the throttle expires, ns; none = until cleared (R345). -/
  capExpiry : Option Nat := none
  /-- manager row and BSEQ of the last throttle applied (R345). -/
  capFrom : Option (Nat × BitVec 16) := none
  deriving DecidableEq, Repr

/-- Dest at its reset. -/
def Dest.init : Dest := {}

/-- A host memory read or AtomicOp issued for an arriving request (R175, R184). -/
structure HostRead where
  /-- the model's own number of the read (R175). -/
  id : Nat := 0
  /-- host port (R175). -/
  host : Nat := 0
  /-- the request it answers (R175). -/
  pkt : Packet := Packet.init
  /-- the function whose memory it acts on (R175). -/
  fn : Nat := 0
  /-- the AtomicOp is of 128 bits (R175). -/
  wide : Bool := false
  /-- the region that it reads (R288). -/
  region : Nat := 0
  /-- the untranslated pages that it uses (R292). -/
  pages : List Nat := []
  deriving DecidableEq, Repr

/-- HostRead at its reset. -/
def HostRead.init : HostRead := {}

/-- Transport engines (06_transport.md). -/
structure Transport where
  /-- the peer channels, by local host port, remote endpoint and class (R161). -/
  chans : Tab Chan := []
  /-- destination state of each chip id (R191). -/
  dests : Tab Dest := []
  /-- the context miss buffer: packets parked for a context, in arrival order, with their host port (R196). -/
  parked : List (CtxKey × Nat × Packet) := []
  /-- host reads and AtomicOps in progress (R175). -/
  hostReads : List HostRead := []
  /-- the model's own number of the next host read (R175). -/
  nextRead : Nat := 0
  /-- the MODEL's own field: operations of windows and offers that have completed in the running step. -/
  finished : List SendOp := []
  /-- packets delivered by the router core to the host-side ports and not yet handled (R14). -/
  arrivals : List Packet := []
  /-- the queue and peer channel contexts in the context cache, most recently used first (R193). -/
  resident : List CtxKey := []
  /-- the queue contexts in the HBM victim cache, newest first (R195). -/
  victims : List CtxKey := []
  /-- contexts being fetched, each with the victim whose write-back has not finished (R195). -/
  evicting : List (CtxKey × CtxKey) := []
  deriving DecidableEq, Repr

/-- Transport at its reset. -/
def Transport.init : Transport := {}

/-- A bound matching context (R202, R209). -/
structure MCtx where
  /-- owner queue, 24 bits (R209). -/
  qn : Nat := 0
  /-- next posting sequence number, 64 bits (R214). -/
  nextSeq : BitVec 64 := 0
  deriving DecidableEq, Repr

/-- MCtx at its reset. -/
def MCtx.init : MCtx := {}

/-- A posted TAGGED RECV (R214). -/
structure Posted where
  /-- context: host port x 2^20 + MCTX (R214). -/
  ctx : Nat := 0
  /-- posting sequence, 64 bits (R214). -/
  seq : BitVec 64 := 0
  /-- its queue (R214). -/
  qn : Nat := 0
  /-- the receive entry (R144). -/
  entry : Entry := Entry.init
  deriving DecidableEq, Repr

/-- Posted at its reset. -/
def Posted.init : Posted := {}

/-- An unexpected or held message (R214, R218). -/
structure Unexp where
  /-- context key (R214). -/
  ctx : Nat := 0
  /-- its peer channel (R218). -/
  chan : Nat := 0
  /-- its MSGID (R218). -/
  msgid : BitVec 32 := 0
  /-- source identity (R214). -/
  src : BitVec 32 := 0
  /-- match bits (R214). -/
  bits : BitVec 64 := 0
  /-- ahead of Q: held and not yet released to matching (R218). -/
  held : Bool := false
  /-- an OFFER (R229). -/
  isOffer : Bool := false
  /-- offer key (R90). -/
  offerKey : BitVec 32 := 0
  /-- offset of the message, 48 bits (R90). -/
  offerOff : Nat := 0
  /-- length of the offer in bytes (R90). -/
  length : Nat := 0
  /-- packets (R89). -/
  pcnt : Nat := 1
  /-- SOLICIT (R89). -/
  solicit : Bool := false
  /-- payloads in the eager store, by PIDX (R213). -/
  data : Tab (List Byte) := []
  deriving DecidableEq, Repr

/-- Unexp at its reset. -/
def Unexp.init : Unexp := {}

/-- An open offer at its sender (R228, R229). -/
structure SOffer where
  /-- offer key index, region index 0xFF_0000 + index (R228). -/
  index : Nat := 0
  /-- generation (R229). -/
  gen : BitVec 8 := 0
  /-- its peer channel (R231). -/
  chan : Nat := 0
  /-- DEST endpoint (R228). -/
  dest : Nat := 0
  /-- function (R229). -/
  fn : Nat := 0
  /-- its SQ (R229). -/
  qn : Nat := 0
  /-- WRID (R229). -/
  wrid : BitVec 32 := 0
  /-- SIGNAL (R229). -/
  signal : Bool := false
  /-- LKEY (R228). -/
  lkey : BitVec 32 := 0
  /-- offset of the message in the region (R229). -/
  offset : Nat := 0
  /-- bytes (R229). -/
  length : Nat := 0
  /-- its position in its SQ (R139). -/
  pos : Nat := 0
  deriving DecidableEq, Repr

/-- SOffer at its reset. -/
def SOffer.init : SOffer := {}

/-- A matched offer at its target (R229). -/
structure TOffer where
  /-- the model's own number (R229). -/
  id : Nat := 0
  /-- the channel back to the sender (R229). -/
  chan : Nat := 0
  /-- offer key (R229). -/
  key : BitVec 32 := 0
  /-- offer offset (R229). -/
  offset : Nat := 0
  /-- offered length (R229). -/
  length : Nat := 0
  /-- bytes to take: min(LENGTH, buffer size) (R229). -/
  take : Nat := 0
  /-- it holds an offer record and its READ is issued (R232). -/
  reading : Bool := false
  /-- queue of the receive entry (R229). -/
  qn : Nat := 0
  /-- the receive entry (R229). -/
  entry : Entry := Entry.init
  /-- source identity (R229). -/
  src : BitVec 32 := 0
  /-- match bits (R229). -/
  bits : BitVec 64 := 0
  /-- SOLICIT (R229). -/
  solicit : Bool := false
  deriving DecidableEq, Repr

/-- TOffer at its reset. -/
def TOffer.init : TOffer := {}

/-- A copy of stored eager data into a matched buffer (R225, R227). -/
structure EagerCopy where
  /-- the model's own number (R227). -/
  id : Nat := 0
  /-- peer channel (R227). -/
  chan : Nat := 0
  /-- the message (R227). -/
  msg : Unexp := Unexp.init
  /-- queue of the receive entry (R227). -/
  qn : Nat := 0
  /-- the receive entry (R227). -/
  entry : Entry := Entry.init
  /-- every packet has been received (R227). -/
  whole : Bool := false
  deriving DecidableEq, Repr

/-- EagerCopy at its reset. -/
def EagerCopy.init : EagerCopy := {}

/-- The Mortise array (07_tag_matching.md). -/
structure Matching where
  /-- bound contexts (P22.020 counts them) (R202). -/
  ctxs : Tab MCtx := []
  /-- posted receives in posting order (P22.021) (R214). -/
  posted : List Posted := []
  /-- unexpected messages in release order, and held ones (P22.022) (R214). -/
  unexp : List Unexp := []
  /-- open offers at their sender (P22.024) (R229). -/
  sOffers : List SOffer := []
  /-- matched offers at their target (P22.024) (R229). -/
  tOffers : List TOffer := []
  /-- generation of each offer key index, 8 bits (R229). -/
  offerGen : Tab Nat := []
  /-- copies in progress (R227). -/
  copies : List EagerCopy := []
  /-- TAGGED RECVs and arrivals that wait on a read of an entry, bin or descriptor: queue and entry (R235). -/
  waiting : List (Nat × Entry) := []
  /-- the model's own number of the next offer or copy (R229). -/
  nextId : Nat := 0
  deriving DecidableEq, Repr

/-- Matching at its reset. -/
def Matching.init : Matching := {}

/-- A trigger counter (R236, R237). -/
structure TCtr where
  /-- owner function index, 10 bits (R237). -/
  owner : Nat := 0
  /-- SAT (R237). -/
  sat : Bool := false
  /-- VALUE, 48 bits (R236). -/
  value : BitVec 48 := 0
  /-- SOURCE, 4 bits (R239). -/
  source : Nat := 0
  /-- REMOTE (R239). -/
  remote : Bool := false
  /-- ALLSTATUS (R239). -/
  allStatus : Bool := false
  /-- SRCNUM, 24 bits (R239). -/
  srcNum : Nat := 0
  deriving DecidableEq, Repr

/-- TCtr at its reset. -/
def TCtr.init : TCtr := {}

/-- A held entry (R242, R243). -/
structure HeldEnt where
  /-- slot of the held area (R242). -/
  slot : Nat := 0
  /-- function (R242). -/
  fn : Nat := 0
  /-- SQ (R242). -/
  qn : Nat := 0
  /-- trigger counter (R242). -/
  ctr : Nat := 0
  /-- THRESH (R242). -/
  thresh : BitVec 48 := 0
  /-- the entry as copied (R242). -/
  entry : Entry := Entry.init
  /-- released and being read back (R244). -/
  released : Bool := false
  /-- its position in its SQ (R244). -/
  pos : Nat := 0
  /-- positions of the earlier entries of its SQ that its FENCE waits for (R244). -/
  waits : List Nat := []
  /-- its channel has taken notice of its release (R244). -/
  placed : Bool := false
  deriving DecidableEq, Repr

/-- HeldEnt at its reset. -/
def HeldEnt.init : HeldEnt := {}

/-- The trigger unit (08_triggered_work.md). -/
structure Trigger where
  /-- the owned counters (P23.100 to P23.10F, P23.200 to P23.20F) (R236). -/
  ctrs : Tab TCtr := []
  /-- the held entries in posting order (P23.021) (R243). -/
  held : List HeldEnt := []
  /-- held entries have been released or have gone in this step, and the channels do not know it yet (R244). -/
  due : Bool := false
  deriving DecidableEq, Repr

/-- Trigger at its reset. -/
def Trigger.init : Trigger := {}

/-- One element of a Marrow accumulator (R261). -/
structure MElem where
  /-- the exact sum as an integer multiple of the smallest subnormal, W bits (R261). -/
  a : Int := 0
  /-- NAN (R261). -/
  nan : Bool := false
  /-- PINF (R261). -/
  pinf : Bool := false
  /-- NINF (R261). -/
  ninf : Bool := false
  /-- NZ (R261). -/
  nz : Bool := false
  deriving DecidableEq, Repr

/-- MElem at its reset. -/
def MElem.init : MElem := {}

/-- A segment of a collective operation at a node (R266, R267). -/
structure CSeg where
  /-- contributors: fabric ports, and 60 for the local members (R266). -/
  contrib : List Nat := []
  /-- the combined raw data of a type without accumulator (R264). -/
  raw : List Byte := []
  /-- the Marrow accumulators (R262). -/
  acc : List MElem := []
  /-- elements received of each port's Marrow parts (R257). -/
  partsGot : Tab Nat := []
  /-- the segment has been sent up (R267). -/
  sentUp : Bool := false
  /-- its down packet has been received (R267). -/
  gotDown : Bool := false
  /-- payload bytes of each port's last Marrow part (R257). -/
  partsLen : Tab Nat := []
  deriving DecidableEq, Repr

/-- CSeg at its reset. -/
def CSeg.init : CSeg := {}

/-- A local member's entry of an operation (R255). -/
structure CPost where
  /-- host port (R247). -/
  host : Nat := 0
  /-- function (R247). -/
  fn : Nat := 0
  /-- SQ (R252). -/
  qn : Nat := 0
  /-- the entry (R252). -/
  entry : Entry := Entry.init
  /-- its operand bytes as read (R266). -/
  operand : List Byte := []
  /-- RANK (R247). -/
  rank : Nat := 0
  /-- result bytes written at this member (R270). -/
  written : Nat := 0
  /-- its status is decided and waits for earlier operations (R270). -/
  status : Option Nat := none
  /-- it has completed (R270). -/
  done : Bool := false
  /-- its position in its SQ (R139). -/
  pos : Nat := 0
  deriving DecidableEq, Repr

/-- CPost at its reset. -/
def CPost.init : CPost := {}

/-- An operation in flight on a membership (R255). -/
structure COp where
  /-- membership slot (R255). -/
  slot : Nat := 0
  /-- CSEQ (R255). -/
  cseq : BitVec 32 := 0
  /-- OPCODE (R253). -/
  opcode : Nat := 0
  /-- DTYPE (R253). -/
  dtype : Nat := 0
  /-- REDOP (R253). -/
  redop : Nat := 0
  /-- SCNT (R266). -/
  scnt : Nat := 1
  /-- LENGTH (R252). -/
  length : Nat := 0
  /-- ROOTRANK (R252). -/
  rootRank : Nat := 0
  /-- OPCODE, DTYPE, REDOP and SCNT are set by a first entry or packet (R255). -/
  known : Bool := false
  /-- local entries (R255). -/
  posts : List CPost := []
  /-- the tick of the first post or packet, ns; none = only later operations have begun (R273). -/
  startedAt : Option Nat := none
  /-- children whose up BARRIER or arrival has come (R269). -/
  upFrom : List Nat := []
  /-- the up BARRIER or arrival has been sent (R269). -/
  upSent : Bool := false
  /-- the arrival phase has reached the root (R269). -/
  downArrived : Bool := false
  /-- children whose DONE has come (R269). -/
  doneFrom : List Nat := []
  /-- DONE has been sent up (R269). -/
  doneSent : Bool := false
  /-- pruned child ports (R271). -/
  prunedPorts : List Nat := []
  /-- the PRUNED count last reported by each child (R258). -/
  prunedFrom : Tab Nat := []
  /-- the total pruned of the down BARRIER or DONE (R258). -/
  downTotal : Nat := 0
  /-- the down DONE has come, or the root has sent it (R269). -/
  doneDown : Bool := false
  /-- segments (R266). -/
  segs : Tab CSeg := []
  /-- status of its abort (R274). -/
  abort : Option Nat := none
  /-- an ABORT has gone up (R274). -/
  abortUp : Bool := false
  /-- an ABORT has gone down (R274). -/
  abortDown : Bool := false
  /-- status of an abort that waits for COL (R274). -/
  abortDue : Option Nat := none
  /-- the next segment whose down data the local members write (R266). -/
  nextWrite : Nat := 0
  deriving DecidableEq, Repr

/-- COp at its reset. -/
def COp.init : COp := {}

/-- The collective engines (09_collectives.md). -/
structure Collective where
  /-- next CSEQ of each membership (P24.040 [63:32]) (R255). -/
  nextCseq : Tab (BitVec 32) := []
  /-- operations in flight (P24.040 [7:0]) (R255). -/
  ops : List COp := []
  /-- abort records: membership, CSEQ, status (R275). -/
  aborts : List (Nat × BitVec 32 × Nat) := []
  /-- entries posted by each local member of each membership, modulo 2^32 (R255). -/
  postCount : Tab Nat := []
  /-- memberships a local member of which was disabled (R276). -/
  barred : List Nat := []
  /-- tree packets handed over by the router core and not yet handled, with their input port (R246). -/
  arrivals : List (Nat × Packet) := []
  /-- operations that a change of their row has ended: membership, CSEQ, tick (R250). -/
  stale : List (Nat × BitVec 32 × Nat) := []
  deriving DecidableEq, Repr

/-- Collective at its reset. -/
def Collective.init : Collective := {}

/-- A registered host region (R285, R286). -/
structure Region where
  /-- owner function (R285). -/
  fn : Nat := 0
  /-- RB0 [57:53]: LWRITE, RREAD, RWRITE, RATOMIC, SIDEFX (R286). -/
  flags : Nat := 0
  /-- log2 of the page size (R286). -/
  pageLog : Nat := 12
  /-- VA, 64 bits (R286). -/
  va : Nat := 0
  /-- LENGTH (R286). -/
  length : Nat := 0
  /-- PEER, 17 bits (R286). -/
  peer : Nat := 0
  /-- PMASK, 17 bits (R286). -/
  pmask : Nat := 0
  /-- the page list as copied to the translation tables (R287). -/
  pages : List Nat := []
  /-- a translation table entry was read poisoned: the region is invalid (R281). -/
  bad : Bool := false
  deriving DecidableEq, Repr

/-- Region at its reset. -/
def Region.init : Region := {}

/-- An HBM channel group (R278 to R283). -/
structure Group where
  /-- P28.010: 0 absent, 1 in service, 2 migrating, 3 retired (R283). -/
  state : Nat := 1
  /-- ticks of the corrected errors of the last hour, ns (R282). -/
  corrected : List Nat := []
  /-- the group no longer answers (R282). -/
  dead : Bool := false
  /-- it was retired when HBM was last laid out (R282). -/
  absentAtLayout : Bool := false
  deriving DecidableEq, Repr

/-- Group at its reset. -/
def Group.init : Group := {}

/-- HBM, keys and translation (10_memory_and_windows.md). -/
structure Mem where
  /-- the bytes of fabric memory that have been written, strictly rising addresses (R279). -/
  hbm : List Host.Cell := []
  /-- the MODEL's own field: how often the contents of HBM have become undefined (chip resets). -/
  epoch : Nat := 0
  /-- the poisoned 64-byte blocks of fabric memory, by block number (R280). -/
  poison : List Nat := []
  /-- fabric-memory slabs copied from a group that no longer answered: every block poisoned but the healed ones (R282). -/
  lostSlabs : List Nat := []
  /-- blocks of those slabs that a write has covered since (R280). -/
  healed : List Nat := []
  /-- P28.015, fabric memory size in bytes (IK-960 with the default regions) (R283). -/
  size : Nat := 171798691840
  /-- the channel groups that differ from in service (R283). -/
  groups : Tab Group := []
  /-- P28.001 as laid out at the last chip reset (R283). -/
  regionMiB : Tab Nat := []
  /-- registered host regions by index (P28.022, P28.023) (R285). -/
  regions : Tab Region := []
  /-- generation of each region index, 8 bits (R288). -/
  regionGen : Tab Nat := []
  /-- P28.033, 8 bits each (R293). -/
  exportGen : Tab Nat := []
  /-- the place, 384 x group + slab of the group, of each slab that a retirement has moved, by its number in the order of layout (R282). -/
  placed : Tab Nat := []
  /-- the new place of each slab that a retirement in progress moves (R282). -/
  moving : Tab Nat := []
  /-- cached ATS translations: function, untranslated and translated page address (R292). -/
  atsCache : List (Nat × Nat × Nat) := []
  /-- invalidations whose Completion is due: function, address and length (R292). -/
  atsPending : List (Nat × Nat × Nat) := []
  deriving DecidableEq, Repr

/-- Mem at its reset. -/
def Mem.init : Mem := {}

/-- An operation of a load/store window (R297 to R304). -/
structure BrOp where
  /-- the model's own number of the operation (R295). -/
  num : Nat := 0
  /-- the PCIe request it answers, for reads and AtomicOps (R303). -/
  id : Nat := 0
  /-- function (R295). -/
  fn : Nat := 0
  /-- window slot (R295). -/
  slot : Nat := 0
  /-- read, posted write, confirmed write, AtomicOp or speculative read (R298). -/
  kind : BrKind := .read
  /-- ENDPOINT of the window when the access was accepted (R295). -/
  ep : Nat := 0
  /-- KEY of the window then (R295). -/
  key : BitVec 32 := 0
  /-- CLASS of the window then (R295). -/
  cls : Nat := 0
  /-- target offset of its first byte (R297). -/
  target : Nat := 0
  /-- bytes at the target (R300). -/
  length : Nat := 0
  /-- for each byte of a host read, its place among those bytes (byte order, R297) (R297). -/
  pick : List Nat := []
  /-- write data, or atomic operands (R298). -/
  bytes : List Byte := []
  /-- native atomic opcode (R301). -/
  atomic : Nat := 0
  /-- handed to the transport engines (R300). -/
  sent : Bool := false
  /-- tick of the bridge timeout, ns (R303). -/
  deadline : Nat := 0
  /-- the bridge timeout has passed, or its lines are stale (R304). -/
  expired : Bool := false
  /-- READ DATA received, by PIDX (R300). -/
  data : Tab (List Byte) := []
  deriving DecidableEq, Repr

/-- BrOp at its reset. -/
def BrOp.init : BrOp := {}

/-- A write merge of a host port (R298). -/
structure Merge where
  /-- function (R298). -/
  fn : Nat := 0
  /-- window slot (R298). -/
  slot : Nat := 0
  /-- ENDPOINT (R295). -/
  ep : Nat := 0
  /-- KEY (R295). -/
  key : BitVec 32 := 0
  /-- CLASS (R295). -/
  cls : Nat := 0
  /-- target offset of its first byte (R298). -/
  target : Nat := 0
  /-- merged bytes (R298). -/
  bytes : List Byte := []
  /-- tick of its first write, ns (R298). -/
  since : Nat := 0
  deriving DecidableEq, Repr

/-- Merge at its reset. -/
def Merge.init : Merge := {}

/-- A line of a prefetch buffer (R302). -/
structure Line where
  /-- function (R302). -/
  fn : Nat := 0
  /-- window slot (R302). -/
  slot : Nat := 0
  /-- target offset of its first byte, a multiple of 64 (R302). -/
  target : Nat := 0
  /-- endpoint (R302). -/
  ep : Nat := 0
  /-- key (R302). -/
  key : BitVec 32 := 0
  /-- its 64 bytes (R302). -/
  bytes : List Byte := []
  /-- tick of arrival, ns (R302). -/
  since : Nat := 0
  deriving DecidableEq, Repr

/-- Line at its reset. -/
def Line.init : Line := {}

/-- A BAR4 read or AtomicOp that finds its host port without room (R305). -/
structure HostReq where
  /-- function (R305). -/
  fn : Nat := 0
  /-- the PCIe request (R305). -/
  id : Nat := 0
  /-- BAR4 offset (R305). -/
  off : Nat := 0
  /-- bytes (R305). -/
  len : Nat := 0
  /-- the AtomicOp; none = a read (R301). -/
  op : Option PcieAtomic := none
  deriving DecidableEq, Repr

/-- HostReq at its reset. -/
def HostReq.init : HostReq := {}

/-- The bridge (10_memory_and_windows.md). -/
structure Bridge where
  /-- open operations in the order accepted (R300). -/
  ops : List BrOp := []
  /-- the open write merge of each host port (R298). -/
  merges : Tab Merge := []
  /-- the prefetch buffers (R302). -/
  lines : List Line := []
  /-- P29.1C0 to P29.1FF: bit 0 WERR, bit 1 TOUT, by slot x 1,024 + function (R295). -/
  status : Tab Nat := []
  /-- the model's own number of the next posted operation (R303). -/
  nextId : Nat := 0
  /-- non-posted requests of hosts whose port holds 1,024 open ones already (R305). -/
  waiting : List HostReq := []
  deriving DecidableEq, Repr

/-- Bridge at its reset. -/
def Bridge.init : Bridge := {}

/-- A packet that an input has accepted and the router core has not routed (R314). -/
structure Arrival where
  /-- input port 0 to 63 (R314). -/
  inp : Nat := 0
  /-- the packet (R314). -/
  pkt : Packet := Packet.init
  /-- its cells lie in the shared pool of the input buffer (R381). -/
  pool : Bool := true
  /-- the model's own number of the arrival (R314). -/
  id : Nat := 0
  deriving DecidableEq, Repr

/-- Arrival at its reset. -/
def Arrival.init : Arrival := {}

/-- A packet queued for an output in an input buffer (R331). -/
structure Waiting where
  /-- input port 0 to 63 (R331). -/
  inp : Nat := 0
  /-- input VC (R331). -/
  vc : Nat := 0
  /-- output port 0 to 63 (R331). -/
  out : Nat := 0
  /-- the packet as it arrived, with NMIN and IGRP as routing wrote them (R331). -/
  pkt : Packet := Packet.init
  /-- the model's own number of the arrival it came from (R331). -/
  id : Nat := 0
  /-- a broadcast copy or a tree packet (R313). -/
  copy : Bool := false
  /-- all LEN cells are in the input buffer (R329). -/
  whole : Bool := true
  /-- it has started on its output and its end has not arrived: it cuts through (R329). -/
  started : Bool := false
  /-- its cells lie in the shared pool of the input buffer (R381). -/
  pool : Bool := true
  deriving DecidableEq, Repr

/-- Waiting at its reset. -/
def Waiting.init : Waiting := {}

/-- The scheduler of one output (R346 to R353). -/
structure OutSched where
  /-- the round-robin list of active classes (R352). -/
  active : List Nat := []
  /-- deficits in cells by class (R353). -/
  deficit : Tab Nat := []
  /-- the class whose visit is in progress (R353). -/
  visiting : Option Nat := none
  /-- the input last served in each class (R348). -/
  lastIn : Tab Nat := []
  /-- the packet sent last: its class, and at a fabric time the quarter bits of it still to go (R363). -/
  tail : Option (Nat × BitVec 64 × Nat) := none
  deriving DecidableEq, Repr

/-- OutSched at its reset. -/
def OutSched.init : OutSched := {}

/-- The last accepted Spline hint of a port (R325). -/
structure Hint where
  /-- 60 levels of 4 bits (R324). -/
  levels : List Nat := []
  /-- HSEQ, 8 bits (R324). -/
  hseq : Nat := 0
  /-- tick of arrival, ns (R325). -/
  seenAt : Nat := 0
  /-- this period of staleness has been counted (R325). -/
  staleCounted : Bool := false
  deriving DecidableEq, Repr

/-- Hint at its reset. -/
def Hint.init : Hint := {}

/-- The broadcast record of a manager row (R335). -/
structure BcastRec where
  /-- highest BSEQ accepted (R335). -/
  highest : Option (BitVec 16) := none
  /-- the BSEQs accepted among the 64 below it (R335). -/
  seen : List (BitVec 16) := []
  deriving DecidableEq, Repr

/-- BcastRec at its reset. -/
def BcastRec.init : BcastRec := {}

/-- The gate schedule in force at an output (R360, R364). -/
structure Gate where
  /-- gating is on (R360). -/
  enabled : Bool := false
  /-- entry in force (P1A.052) (R360). -/
  entry : Nat := 0
  /-- durations of the entries in force, ns (R360). -/
  durations : List Nat := []
  /-- OPEN masks of the entries in force (R360). -/
  opens : List Nat := []
  /-- fabric time at which the entry in force ends (R360). -/
  endsAt : BitVec 64 := 0
  /-- fabric time at which a newly committed schedule takes over (R364). -/
  next : Option (BitVec 64) := none
  /-- base of the schedule in force: cycles start at base + k × period (R360). -/
  base : BitVec 64 := 0
  deriving DecidableEq, Repr

/-- Gate at its reset. -/
def Gate.init : Gate := {}

/-- The router core (11_routing.md, 12_output_scheduling.md). -/
structure Router where
  /-- packets accepted by an input and not yet routed (R314). -/
  arrivals : List Arrival := []
  /-- the model's own number of the next arrival (R314). -/
  nextId : Nat := 0
  /-- packets queued for outputs, oldest first (R331). -/
  waiting : List Waiting := []
  /-- the 64 output schedulers (R346). -/
  scheds : Tab OutSched := []
  /-- tokens of the TC1 cap buckets, millibits (R351). -/
  tc1Tokens : Tab Int := []
  /-- P1A.050, millibits (R356). -/
  shapers : Tab Int := []
  /-- P1A.051, millibits (R356). -/
  policers : Tab Int := []
  /-- gate schedules in force (R360). -/
  gates : Tab Gate := []
  /-- hints received, by port (R325). -/
  hints : Tab Hint := []
  /-- HSEQ of the next hint sent, by port (R324). -/
  hintSeq : Tab Nat := []
  /-- broadcast records, by row of P01.040 (R335). -/
  bcasts : Tab BcastRec := []
  /-- the Clamp table: fenced chip ids, rising (P13.001, P13.002) (R338). -/
  fenced : List Nat := []
  /-- manager row and BSEQ of the last broadcast applied to each chip id (R340). -/
  remembered : Tab (Nat × BitVec 16) := []
  /-- broadcasts waiting for the FAB cluster with their manager row (P13.003) (R342). -/
  pending : List (Nat × Packet) := []
  /-- the route tables and the hint weight as installed when FAB stopped; none = FAB runs (R24). -/
  frozen : Option (Tab Nat) := none
  /-- writes of P13.001 that wait for FAB: row, value (R24). -/
  clampWrites : List (Nat × Nat) := []
  deriving DecidableEq, Repr

/-- Router at its reset. -/
def Router.init : Router := {}

/-- The receive side of a link (R373 to R383). -/
structure RxSide where
  /-- expected LSN E (R373). -/
  expect : BitVec 12 := 0
  /-- at least one packet accepted since entry to Active (R374). -/
  accepted : Bool := false
  /-- a NAK has been sent since the last packet accepted (R373). -/
  nakSent : Bool := false
  /-- a NAK for E is due in the next LCB (R374). -/
  nakDue : Bool := false
  /-- framing is lost until an LCB with SOP (R375). -/
  lost : Bool := false
  /-- shared-pool cells held, by VC (R381). -/
  poolUsed : Tab Nat := []
  /-- reserve cells held, by VC (R381). -/
  reserveUsed : Tab Nat := []
  /-- cumulative freed counts sent, by VC (R369). -/
  freed : Tab (BitVec 16) := []
  /-- XOFF map sent (R383). -/
  xoff : BitVec 23 := 0
  /-- the packet now arriving has been routed ahead of its end and discarded (R313). -/
  dropped : Bool := false
  /-- bytes of data blocks that no complete packet has taken yet, each with the mark of an uncorrectable codeword (R365). -/
  stream : List (Byte × Bool) := []
  deriving DecidableEq, Repr

/-- RxSide at its reset. -/
def RxSide.init : RxSide := {}

/-- A packet of the replay buffer (R376). -/
structure Sent where
  /-- LSN (R376). -/
  lsn : BitVec 12 := 0
  /-- the packet (R376). -/
  pkt : Packet := Packet.init
  /-- POOL of its first transmission (R382). -/
  pool : Bool := false
  /-- first sent stomped (R376). -/
  stomped : Bool := false
  /-- 32-byte units (R378). -/
  units : Nat := 0
  /-- it has started and its end has not been sent: a cut-through (R376). -/
  sending : Bool := false
  deriving DecidableEq, Repr

/-- Sent at its reset. -/
def Sent.init : Sent := {}

/-- The transmit side of a link (R376 to R380). -/
structure TxSide where
  /-- LSN of the next packet (R373). -/
  nextLsn : BitVec 12 := 0
  /-- the replay buffer, in LSN order (R376). -/
  replay : List Sent := []
  /-- CS, reserve cells sent by VC (R380). -/
  sentRes : Tab (BitVec 16) := []
  /-- CF, cumulative freed counts received by VC (R380). -/
  freedRes : Tab (BitVec 16) := []
  /-- XOFF map last received; all ones until the first valid LCB (R380). -/
  xoff : BitVec 23 := 0x7FFFFF
  /-- tick at which the oldest unacknowledged LSN last advanced, ns (R377). -/
  lastAdvance : Nat := 0
  /-- consecutive replays without advance (R377). -/
  replays : Nat := 0
  /-- credit group of the next LCB (R372). -/
  cgrp : Nat := 0
  /-- items waiting for an LCB: KIND and 32 bytes (R372). -/
  items : List (Nat × List Byte) := []
  /-- tick at which the next LCB is due, ns (R372). -/
  lcbNext : Nat := 0
  /-- bytes of the data block that is being filled (R365). -/
  left : List Byte := []
  /-- a replay waits for the end of the packet in progress (R375). -/
  replayDue : Bool := false
  deriving DecidableEq, Repr

/-- TxSide at its reset. -/
def TxSide.init : TxSide := {}

/-- The link layer of a fabric port (13_link_layer.md). -/
structure Link where
  /-- receive side (R373). -/
  rx : RxSide := RxSide.init
  /-- transmit side (R376). -/
  tx : TxSide := TxSide.init
  /-- valid NAKs received that start a replay, this window (R386). -/
  windowNaks : Nat := 0
  /-- consecutive windows above P19.010 (R386). -/
  badWindows : Nat := 0
  /-- tick at which the window began, ns (R386). -/
  windowAt : Nat := 0
  /-- uncorrectable codewords over those windows, by LPOS (R386). -/
  badWords : Tab Nat := []
  /-- tick since when the port runs at x1 because of R386 (R387). -/
  narrowedAt : Option Nat := none
  /-- the LPOS left out by R386 (R387). -/
  badLane : Nat := 0
  /-- the first window after a return to x2 (R387). -/
  watching : Bool := false
  deriving DecidableEq, Repr

/-- Link at its reset. -/
def Link.init : Link := {}

/-- A width change or retrain handshake of a port (R402 to R407). -/
structure Handshake where
  /-- MSG of the own outstanding request (1 WREQ, 5 RREQ) (R402). -/
  own : Option Nat := none
  /-- TSEQ, 8 bits (R402). -/
  tseq : Nat := 0
  /-- LANES requested (R402). -/
  lanes : Nat := 0
  /-- tick of the request, ns (R406). -/
  since : Nat := 0
  /-- attempts of the WREQ (R406). -/
  tries : Nat := 0
  /-- the REASON that its own cause will write (R395). -/
  reason : Nat := 9
  /-- tick of a WSWITCH whose lanes have not regained lock, ns (R406). -/
  switchAt : Option Nat := none
  /-- lanes after the change being switched to (R403). -/
  target : Nat := 0
  /-- the idle lane of a widening: 0 not training, 1 Pattern, 2 Lock, 3 Equalise (R404). -/
  idleStage : Nat := 0
  /-- tick of entry to that stage, ns (R404). -/
  idleSince : Nat := 0
  /-- this end is the requester of a granted change (R403). -/
  leading : Bool := false
  /-- the change asked for is the narrowing of R386 (R386). -/
  degrade : Bool := false
  /-- this end granted the change and waits for WSWITCH (R403). -/
  granted : Bool := false
  /-- the WSWITCH that goes out once no packet is in progress (R403). -/
  switchDue : Option WidthMsg := none
  deriving DecidableEq, Repr

/-- Handshake at its reset. -/
def Handshake.init : Handshake := {}

/-- Training state of a fabric port (14_link_training.md). -/
structure Port where
  /-- P18.005 STATE (R391). -/
  state : PState := .disabled
  /-- P18.005 RATE, rate code (R391). -/
  rate : Nat := 0
  /-- P18.005 LANES, bit per LPOS (R391). -/
  lanes : Nat := 0
  /-- P18.005 REV (R391). -/
  rev : Bool := false
  /-- P18.005 INV, bit per LPOS (R391). -/
  inv : Nat := 0
  /-- P18.005 JIGPEER (R391). -/
  jigPeer : Bool := false
  /-- P18.005 ATTEMPTS, 8 bits (R391). -/
  attempts : Nat := 0
  /-- P18.005 REASON, 8 bits (R391). -/
  reason : Nat := 0
  /-- P18.006, 32 bits (R390). -/
  learnt : Nat := 0
  /-- tick of entry to the state, ns (R395). -/
  since : Nat := 0
  /-- lanes with a receiver, bit per LPOS (R395). -/
  found : Nat := 0
  /-- lanes on which PMARK has been seen (R394). -/
  pmark : Nat := 0
  /-- lanes on which the peer reports LOCKED (R393). -/
  lockedRx : Nat := 0
  /-- RATES of the peer (R393). -/
  peerRates : Nat := 0
  /-- WIDTHS of the peer (R393). -/
  peerWidths : Nat := 0
  /-- TARGET received (R396). -/
  peerTarget : Nat := 0
  /-- die serial of the peer from its pattern blocks (R393). -/
  peerSerial : BitVec 64 := 0
  /-- fabric port of the peer from its pattern blocks (R393). -/
  peerPort : Nat := 0
  /-- lowering of TARGET by earlier attempts (R395). -/
  lowered : Nat := 0
  /-- TARGET proposed (R395). -/
  target : Nat := 0
  /-- the 16 blocks with SWITCH have been sent and the rate has changed (R396). -/
  switched : Bool := false
  /-- lanes on which EQDONE is sent (R397). -/
  eqOwn : Nat := 0
  /-- lanes on which EQDONE is received (R397). -/
  eqPeer : Nat := 0
  /-- the 1 s wait of Detect runs (R395). -/
  waiting : Bool := false
  /-- it has been Active since enable, chip reset or leaving the Jig service (R400). -/
  everActive : Bool := false
  /-- event 0x01 has been raised and no event since (R400). -/
  downSent : Bool := false
  /-- tick at which it left Active for a retrain, ns (R400). -/
  leftAt : Option Nat := none
  /-- rate code before the retrain (R400). -/
  wasRate : Nat := 0
  /-- lanes before the retrain (R400). -/
  wasLanes : Nat := 0
  /-- its cabling-mismatch condition (R75). -/
  cabling : Bool := false
  /-- its role-mismatch condition (R399). -/
  roleBad : Bool := false
  /-- its handshake (R402). -/
  hs : Handshake := Handshake.init
  /-- RATES of the own blocks in this training (R392). -/
  rates : Nat := 1
  /-- WIDTHS of the own blocks in this training (R392). -/
  widths : Nat := 1
  deriving DecidableEq, Repr

/-- Port at its reset. -/
def Port.init : Port := {}

/-- A serial lane (15_serial_lanes.md). -/
structure Lane where
  /-- P18.027 [63] (R430). -/
  bitLock : Bool := false
  /-- P18.027 [62] (R430). -/
  blockLock : Bool := false
  /-- P18.027 [61] (R430). -/
  markerLock : Bool := false
  /-- P18.027 [60] (R430). -/
  polInv : Bool := false
  /-- validity of the last 64 tested headers, newest first (P18.027 [55:48]) (R418). -/
  headers : List Bool := []
  /-- elastic buffer fill in slots (P18.027 [47:40]) (R423). -/
  fill : Nat := 16
  /-- rate code in use (P18.027 [39:38]) (R430). -/
  rate : Nat := 0
  /-- assumed phase, 0 to 5,439 (R418). -/
  phase : Nat := 0
  /-- consecutive valid headers since the last slip (R418). -/
  runHeaders : Nat := 0
  /-- consecutive expected markers missed (R420). -/
  markerMiss : Nat := 0
  /-- P18.028, four signed bytes (R425). -/
  coeffs : BitVec 32 := 0
  /-- preset in use, 255 = none (R397). -/
  preset : Nat := 255
  /-- RSEQ of the last request answered in this Equalise, 8 bits (R397). -/
  rseq : Option Nat := none
  /-- the answer given to it (R397). -/
  rstatus : Nat := 0
  /-- P18.029 ENABLE as it was at the last entry to Equalise (R427). -/
  overridden : Bool := false
  /-- RSEQ of the own last request (R397). -/
  ownRseq : Nat := 0
  /-- receiver peaking code, 0 to 31 (R426). -/
  peaking : Nat := 12
  /-- P18.023 [63] SYNC (R429). -/
  chkSync : Bool := false
  /-- P18.023 [47:0], saturating (R429). -/
  chkErrors : Nat := 0
  /-- P18.024, saturating (R429). -/
  chkBits : Nat := 0
  /-- consecutive matching bits while not in SYNC (R429). -/
  chkRun : Nat := 0
  /-- PCOUNT of the marker period being sent (R412). -/
  pcount : BitVec 32 := 0
  /-- number of the next block sent within its marker period, 0 to 16,383 (R414). -/
  slot : Nat := 0
  /-- the last 58 payload bits sent, the latest as bit 57 (R413). -/
  scramble : Nat := 0
  /-- bits of the codeword being sent, the first sent as bit 0 (R414). -/
  codeword : Nat := 0
  /-- the last symbol sent, 0 to 3 for −3 to +3 (R424). -/
  symbol : Nat := 0
  /-- the P18.030 row as it was at the last training (R424). -/
  precode : Bool := false
  /-- number of the next block received within its marker period (R419). -/
  rxSlot : Nat := 0
  /-- PCOUNT of the marker period being received (R417). -/
  rxPcount : BitVec 32 := 0
  /-- LPOS of the markers received (R417). -/
  rxLpos : Nat := 0
  /-- the last 58 payload bits received, the latest as bit 57 (R413). -/
  rxScramble : Nat := 0
  /-- port blocks that wait for their slot of the other lane: PCOUNT, slot, block (R417). -/
  rxQueue : List (BitVec 32 × Nat × PortBlock) := []
  /-- the twelve taps with which the decision-feedback equaliser starts (R426). -/
  dfe : List Int := List.replicate 12 0
  /-- the latest spans compared under SYNC, as bits and errors, newest first (R429). -/
  chkRecent : List (Nat × Nat) := []
  deriving DecidableEq, Repr

/-- Lane at its reset. -/
def Lane.init : Lane := {}

/-- What a port knows of its time neighbour (R434 to R436). -/
structure Peer where
  /-- the latest item received (R435). -/
  item : Option TimeItem := none
  /-- fabric time at which it arrived (R434). -/
  arrived : BitVec 64 := 0
  /-- tick at which it arrived, ns (R435). -/
  atTick : Nat := 0
  /-- TSEQ of the next item sent, 8 bits (R434). -/
  txSeq : Nat := 0
  /-- TTX of the items sent, by TSEQ, newest first (R436). -/
  sentAt : Tab (BitVec 64) := []
  /-- d of the last 16 measurements, counts (R436). -/
  delays : List Int := []
  deriving DecidableEq, Repr

/-- Peer at its reset. -/
def Peer.init : Peer := {}

/-- Fabric time and its servo (16_time_and_counters.md). -/
structure Timebase where
  /-- sampling ticks since chip reset, 1 ns each (R432). -/
  now : Nat := 0
  /-- fabric time, 64 bits of 0.25 ns (R432). -/
  time : BitVec 64 := 0
  /-- P08.011 STATE (R438). -/
  state : SyncState := .free
  /-- the state before Acquire (R438). -/
  prev : SyncState := .free
  /-- P08.011 DEPTH (R442). -/
  depth : Nat := 255
  /-- P08.011 ROOTGEN (R442). -/
  rootGen : BitVec 16 := 0
  /-- P08.011 ROOTID (R442). -/
  rootId : Nat := 0
  /-- P08.011 PARENT (R442). -/
  parent : Option Nat := none
  /-- the neighbours, by fabric port (R435). -/
  peers : Tab Peer := []
  /-- theta of the accepted measurements in Acquire, newest first (R438). -/
  measured : List Int := []
  /-- P08.012 (R441). -/
  lastOffset : Int := 0
  /-- P08.013, units of 10^-9 (R441). -/
  rateCorr : Int := 0
  /-- P08.014 (R441). -/
  delayAvg : Tab Nat := []
  /-- tick of the entry to Holdover, ns (R438). -/
  holdoverAt : Nat := 0
  /-- Locked has been reached since reset (R438). -/
  everLocked : Bool := false
  /-- fabric time lost, the condition of timebase cause 0x101 (R464). -/
  lostRaised : Bool := false
  /-- tick of the last accepted PPS edge, ns (R502). -/
  lastPps : Option Nat := none
  deriving DecidableEq, Repr

/-- Timebase at its reset. -/
def Timebase.init : Timebase := {}

/-- Pace monitors, AVS and sensors (16_time_and_counters.md). -/
structure Pace where
  /-- P08.040, Mhs/s of the last window (R445). -/
  pace : Tab Nat := []
  /-- monitors below the floor, the condition of cause 0x100 (R443). -/
  low : List Nat := []
  /-- P08.045, mV (R445). -/
  request : Nat := 860
  /-- an AVSBus write sent and not yet answered, mV (R500). -/
  wanted : Option Nat := none
  /-- P08.046, 0.1 degC (R445). -/
  temps : Tab Int := []
  /-- event 0x0A raised and not re-armed (R446). -/
  warned : Bool := false
  /-- monitors in block reset, left out of the AVS loop (R484). -/
  excluded : List Nat := []
  deriving DecidableEq, Repr

/-- Pace at its reset. -/
def Pace.init : Pace := {}

/-- The performance counter array (R447 to R451). -/
structure Counters where
  /-- event counters of the units that are not 0 (R447). -/
  events : List (CounterId × BitVec 64) := []
  /-- occupancy counters that are not 0 (R448). -/
  occupancy : List (CounterId × BitVec 64) := []
  /-- function counters P31.300 to P31.306, by kind x 1,024 + function (R449). -/
  functions : Tab (BitVec 64) := []
  /-- sticky overflow bits: 32-bit numbers of the overflow parameters that read 1 (R447). -/
  overflow : List Nat := []
  /-- P31.F16 (R450). -/
  streamDrops : BitVec 64 := 0
  /-- producer index of the host ring (R451). -/
  ringPi : BitVec 32 := 0
  /-- consumer index of the host ring as read (R451). -/
  ringCi : BitVec 32 := 0
  /-- the period, as length in µs and number, that was sampled last (R451). -/
  sampled : Option (Nat × Nat) := none
  deriving DecidableEq, Repr

/-- Counters at its reset. -/
def Counters.init : Counters := {}

/-- The status of a fault source (R462). -/
structure Source where
  /-- OCCUR, 32 bits, saturating (R462). -/
  occur : Nat := 0
  /-- HELD (R459). -/
  held : Bool := false
  /-- NOW (R462). -/
  now : Bool := false
  /-- PEND (R462). -/
  pend : Bool := false
  deriving DecidableEq, Repr

/-- Source at its reset. -/
def Source.init : Source := {}

/-- A fault record of the collector (R465). -/
structure Record where
  /-- FIRST (R465). -/
  first : BitVec 64 := 0
  /-- LAST (R465). -/
  last : BitVec 64 := 0
  /-- SOURCE, 27 bits (R465). -/
  source : Nat := 0
  /-- CLASS, 3 bits (R465). -/
  cls : Nat := 0
  /-- REACTION, 3 bits (R465). -/
  reaction : Nat := 0
  /-- SAT (R465). -/
  sat : Bool := false
  /-- PIN (R465). -/
  pin : Bool := false
  /-- CAUSE, 12 bits (R465). -/
  cause : Nat := 0
  /-- SKIND, 4 bits (R466). -/
  skind : Nat := 0
  /-- SUBJECT, 60 bits (R466). -/
  subject : Nat := 0
  /-- COUNT, 32 bits (R465). -/
  count : Nat := 1
  /-- RSEQ (R468). -/
  rseq : BitVec 32 := 0
  /-- DETAIL0 (R467). -/
  detail0 : BitVec 64 := 0
  /-- DETAIL1 (R467). -/
  detail1 : BitVec 64 := 0
  /-- tick at which it closes, ns (R468). -/
  closeAt : Nat := 0
  deriving DecidableEq, Repr

/-- Record at its reset. -/
def Record.init : Record := {}

/-- The fault collector (17_faults.md). -/
structure Faults where
  /-- status rows P30.100 to P30.1DF, by unit x 4,096 + cause (R462). -/
  sources : Tab Source := []
  /-- open records, oldest first (R468). -/
  openRecs : List Record := []
  /-- closed records waiting, in RSEQ order (R470). -/
  closedRecs : List Record := []
  /-- P30.F12 (R468). -/
  nextRseq : BitVec 32 := 0
  /-- P30.F11 (R469). -/
  unrecorded : BitVec 64 := 0
  /-- the unrecorded count held (R469). -/
  pendingUnrec : Nat := 0
  /-- time of the first unrecorded occurrence (R469). -/
  unrecFirst : BitVec 64 := 0
  /-- time of the last unrecorded occurrence (R469). -/
  unrecLast : BitVec 64 := 0
  /-- units in block reset (R458). -/
  inReset : List Nat := []
  /-- units held in block reset (R459). -/
  heldUnits : List Nat := []
  /-- block resets by reaction: unit and tick, newest first (R459). -/
  resets : List (Nat × Nat) := []
  /-- the MODEL's own field: units whose block reset has been decided in the running step and not yet carried out. -/
  due : List Nat := []
  /-- the MODEL's own field: a chip reset by reaction 4 has been decided in the running step. -/
  resetDue : Bool := false
  /-- units a handshake of which has stalled (R20). -/
  stalled : List Nat := []
  deriving DecidableEq, Repr

/-- Faults at its reset. -/
def Faults.init : Faults := {}

/-- The whole chip. -/
structure Chip where
  /-- the fitted variant, fixed by fusing (R1). -/
  variant : Variant := .ik960
  /-- P00.003, the die serial, fixed per die (R68). -/
  serial : BitVec 64 := 1
  /-- power, reset and straps (R479). -/
  boot : Boot := Boot.init
  /-- flash (R475). -/
  flash : Flash := Flash.init
  /-- firmware and clusters (R485). -/
  fw : Firmware := Firmware.init
  /-- dictionary (R38). -/
  dict : Dict := Dict.init
  /-- host ports 0 to 3 (R100). -/
  ports : Tab HostPort := []
  /-- functions by function index (R102). -/
  funcs : Tab Func := []
  /-- framed FIFOs: 0 to 3 transmit, 4 to 7 receive, 8 fault record, 9 trace capture (R112). -/
  fifos : Tab Fifo := []
  /-- queues by host port x 2^24 + number (R125). -/
  queues : Tab Queue := []
  /-- transport engines (R161). -/
  tr : Transport := Transport.init
  /-- matching engines (R202). -/
  mt : Matching := Matching.init
  /-- trigger unit (R236). -/
  tg : Trigger := Trigger.init
  /-- collective engines (R246). -/
  co : Collective := Collective.init
  /-- HBM and translation (R278). -/
  mem : Mem := Mem.init
  /-- bridge (R295). -/
  br : Bridge := Bridge.init
  /-- router core (R309). -/
  rt : Router := Router.init
  /-- link layer of fabric ports (R365). -/
  links : Tab Link := []
  /-- training of fabric ports (R390). -/
  train : Tab Port := []
  /-- serial lanes 0 to 119 (R408). -/
  lanes : Tab Lane := []
  /-- timebase (R432). -/
  tb : Timebase := Timebase.init
  /-- pace, AVS, sensors (R443). -/
  pace : Pace := Pace.init
  /-- counters (R447). -/
  ctr : Counters := Counters.init
  /-- fault collector (R452). -/
  flt : Faults := Faults.init
  /-- the MODEL's own field: the counter of free values drawn so far (not the spec's). -/
  free : Nat := 0
  /-- the MODEL's own field: what has left the chip, oldest first (not the spec's). -/
  out : List Output := []
  deriving DecidableEq, Repr

/-- Chip at its reset. -/
def Chip.init : Chip := {}

/-- The state: the chip, and the commands that wait for it, first in, first out. -/
structure State where
  /-- The chip. -/
  chip : Chip := {}
  /-- The queue of waiting commands. -/
  pending : List Instr := []
  deriving DecidableEq, Repr

/-- Right after the release of RESET_N at power-up: straps latched, boot under way (R479), nothing in the queue. -/
def State.reset : State := {}

/-- Why the machine stops. No meaning of this model answers with it; it is kept for a corrupted model state. Safe. -/
inductive Fault where
  /-- Raised by no command. Safe: the model would stop where the hardware goes on. -/
  | none
  deriving DecidableEq, Repr

/-- Why a command has no meaning. -/
inductive Refusal where
  /-- Raised by `exec` for a row that has no meaning yet. Safe: the model stops. -/
  | notModelled (mnemonic : String)
  deriving DecidableEq, Repr

end Sys2Proof.Machine
end

