-- ==== Sys2Proof/Machine/Params.lean ====
section
/-! DEFINITION. The catalogue of parameters: descriptors, defaults, presence and value checks (R3, R38, R448 and the
parameter tables of every chapter). -/

namespace Sys2Proof.Machine

/-! ### Variants and presence (R1, R3) -/

/-- Fabric ports present: F0 to F59, F35 or F23. -/
def Variant.fabricPorts : Variant → Nat
  | .ik960 => 60
  | .ik940 => 36
  | .ik920 => 24

/-- Host ports present. -/
def Variant.hostPorts : Variant → Nat
  | .ik960 => 4
  | .ik940 => 2
  | .ik920 => 1

/-- HBM stacks fitted; each has four channel groups. -/
def Variant.stacks : Variant → Nat
  | .ik960 => 4
  | .ik940 => 2
  | .ik920 => 0

/-- Matching engines present. -/
def Variant.matchEngines : Variant → Nat
  | .ik960 => 16
  | .ik940 => 8
  | .ik920 => 4

/-- Collective engines present. -/
def Variant.collEngines : Variant → Nat
  | .ik960 => 8
  | .ik940 => 0
  | .ik920 => 0

/-- P00.014: the export limit in bytes. -/
def Variant.exportLimit : Variant → Nat
  | .ik960 => 0x002800000000
  | .ik940 => 0x001000000000
  | .ik920 => 0

/-- P00.001. -/
def Variant.code : Variant → Nat
  | .ik960 => 1
  | .ik940 => 2
  | .ik920 => 3

/-- The unit numbers of the part (R78). -/
def unitNumber (u : Nat) : Bool :=
  u < 0x5E || (0x60 ≤ u && u < 0x88) || (0x90 ≤ u && u < 0x96) || (0xA0 ≤ u && u < 0xA4) || u == 0xB0 || u == 0xB1 ||
  (0xC0 ≤ u && u < 0xC3) || (0xD0 ≤ u && u < 0xE0)

/-- A unit that the fitted variant has (R1). -/
def unitPresent (v : Variant) (u : Nat) : Bool :=
  if u < 0x3C then u < v.fabricPorts
  else if u < 0x40 then u - 0x3C < v.hostPorts
  else if u < 0x5E then u - 0x40 < v.fabricPorts / 2
  else if 0x60 ≤ u && u < 0x70 then u - 0x60 < 4 * v.stacks
  else if 0x70 ≤ u && u < 0x80 then u - 0x70 < v.matchEngines
  else if 0x80 ≤ u && u < 0x88 then u - 0x80 < v.collEngines
  else unitNumber u

/-- Causes per unit (R452). -/
def causesOf (u : Nat) : Nat :=
  if u < 0x3C then 22 else if u < 0x40 then 48 else if u < 0x5E then 24
  else if 0x60 ≤ u && u < 0x70 then 16 else if 0x70 ≤ u && u < 0x80 then 12 else if 0x80 ≤ u && u < 0x88 then 16
  else if 0x90 ≤ u && u < 0x96 then 16 else if u = 0xA0 then 96 else if u = 0xA1 then 16 else if u = 0xA2 then 32
  else if u = 0xA3 then 64 else if u = 0xB0 then 32 else if u = 0xB1 then 24 else if u = 0xC0 then 24
  else if u = 0xC1 then 16 else if u = 0xC2 then 16 else if 0xD0 ≤ u && u < 0xE0 then 6 else 0

/-- A cause code that the unit has (R452): 0x001 to 0x004, and 0x100 to 0x100 + c − 5. -/
def isCause (u cause : Nat) : Bool :=
  (1 ≤ cause && cause ≤ 4) || (0x100 ≤ cause && cause < 0x100 + (causesOf u - 4))

/-- The sources present (P30.F01). -/
def sourcesPresent (v : Variant) : Nat :=
  ((List.range 0xE0).filter (unitPresent v)).foldl (fun n u => n + causesOf u) 0

/-- Counters per unit (R448). -/
def countersOf (u : Nat) : Nat :=
  if u < 0x3C then 192 else if u < 0x40 then 256 else if u < 0x5E then 64
  else if 0x60 ≤ u && u < 0x80 then 32 else if 0x80 ≤ u && u < 0x88 then 32
  else if 0x90 ≤ u && u < 0x96 then 16 else if u = 0xA0 then 512 else if u = 0xA1 then 16 else if u = 0xA2 then 64
  else if u = 0xA3 then 128 else if u = 0xB0 then 64 else if u = 0xB1 then 64 else if u = 0xC0 then 32
  else if u = 0xC1 then 32 else if u = 0xC2 then 16 else if 0xD0 ≤ u && u < 0xE0 then 4 else 0

/-- The counters present (P31.F00). -/
def countersPresent (v : Variant) : Nat :=
  ((List.range 0xE0).filter (unitPresent v)).foldl (fun n u => n + countersOf u) 0 + 7 * 256 * v.hostPorts

/-! ### Parameter numbers and descriptors (R38) -/

/-- A parameter's 32-bit number: area, object, element. -/
def pnum (area obj e : Nat) : Nat := area * 2 ^ 24 + obj * 2 ^ 12 + e

/-- The element of a number. -/
def pElem (n : Nat) : Nat := n % 4096

/-- The object of a number. -/
def pObj (n : Nat) : Nat := n / 4096 % 4096

/-- The area of a number. -/
def pArea (n : Nat) : Nat := n / 2 ^ 24 % 256

/-- Element types (R38), with S16 for rows that the tables call S16. -/
inductive PType where
  | u8 | u16 | u32 | u64 | s32 | s64 | bool | enum | bits32 | bits64 | time64 | ipv6 | blob | s16
  deriving DecidableEq, Repr

/-- The bytes of one element; a BLOB has its own lengths. -/
def PType.size : PType → Nat
  | .u8 | .bool | .enum => 1
  | .u16 | .s16 => 2
  | .u32 | .s32 | .bits32 => 4
  | .u64 | .s64 | .bits64 | .time64 => 8
  | .ipv6 => 16
  | .blob => 0

/-- The type code (R38); for S16 the code R38 does not list. -/
def PType.code : PType → Nat
  | .u8 => 1 | .u16 => 2 | .u32 => 3 | .u64 => 4 | .s32 => 5 | .s64 => 6 | .bool => 7 | .enum => 8
  | .bits32 => 9 | .bits64 => 10 | .time64 => 11 | .ipv6 => 12 | .blob => 14
  | .s16 => Config.s16RowType.toNat

/-- Access codes (R38). -/
inductive PAccess where
  | ro | rw | rwa | rwn | wo | w1c
  deriving DecidableEq, Repr

/-- The code of an access. -/
def PAccess.code : PAccess → Nat
  | .ro => 1 | .rw => 2 | .rwa => 3 | .rwn => 4 | .wo => 5 | .w1c => 6

/-- A descriptor but for the default. `writers` has bit 3 for F, 2 for B, 1 for H, 0 for T. -/
structure Desc where
  ty : PType
  access : PAccess
  writers : Nat := 0
  elements : Nat := 1
  table : Bool := false
  fscope : Bool := false
  set : Nat := 0
  saved : Bool := false
  deriving DecidableEq, Repr

/-- Writer sets. -/
def wF : Nat := 8
/-- Writers F and B. -/
def wFB : Nat := 12
/-- Writers F, B and H. -/
def wFBH : Nat := 14
/-- Writers F and H. -/
def wFH : Nat := 10
/-- Writers F, H and T. -/
def wFHT : Nat := 11
/-- Writers B and H. -/
def wBH : Nat := 6

/-- A read-only scalar. -/
def dRO (ty : PType) : Option Desc := some { ty := ty, access := .ro }
/-- A read-only table. -/
def dROT (ty : PType) (n : Nat) : Option Desc := some { ty := ty, access := .ro, elements := n, table := true }
/-- A command. -/
def dWO (ty : PType) (w n : Nat) : Option Desc := some { ty := ty, access := .wo, writers := w, elements := n }
/-- A saved scalar of access RWN. -/
def dRWN (ty : PType) (w : Nat) : Option Desc := some { ty := ty, access := .rwn, writers := w, saved := true }
/-- A saved table of access RWN. -/
def dRWNT (ty : PType) (w n : Nat) : Option Desc :=
  some { ty := ty, access := .rwn, writers := w, saved := true, elements := n, table := true }
/-- A saved scalar of an apply set. -/
def dRWA (ty : PType) (w set : Nat) : Option Desc :=
  some { ty := ty, access := .rwa, writers := w, saved := true, set := set }
/-- A saved table of an apply set. -/
def dRWAT (ty : PType) (w set n : Nat) : Option Desc :=
  some { ty := ty, access := .rwa, writers := w, saved := true, set := set, elements := n, table := true }
/-- A scalar of access RW. -/
def dRW (ty : PType) (w : Nat) : Option Desc := some { ty := ty, access := .rw, writers := w }
/-- A table of access RW. -/
def dRWT (ty : PType) (w n : Nat) : Option Desc :=
  some { ty := ty, access := .rw, writers := w, elements := n, table := true }
/-- A function-scoped table of access RW. -/
def dFn (ty : PType) (w : Nat) : Option Desc :=
  some { ty := ty, access := .rw, writers := w, elements := 1024, table := true, fscope := true }
/-- A saved function-scoped table of access RW (R203). -/
def dFnS (ty : PType) (w : Nat) : Option Desc :=
  some { ty := ty, access := .rw, writers := w, elements := 1024, table := true, fscope := true, saved := true }
/-- A function-scoped command. -/
def dFnWO (ty : PType) (w : Nat) : Option Desc :=
  some { ty := ty, access := .wo, writers := w, elements := 1024, fscope := true }

/-- Areas 00, 01 and 02 (R3, R68, R504, R431, R445). -/
def descLow (area obj : Nat) : Option Desc :=
  match area, obj with
  | 0x00, 0x001 => dRO .enum
  | 0x00, 0x002 => dRO .u8
  | 0x00, 0x003 => dRO .u64
  | 0x00, 0x004 => dRO .u32
  | 0x00, 0x010 => dRO .bits64
  | 0x00, 0x011 => dRO .bits32
  | 0x00, 0x012 => dRO .bits32
  | 0x00, 0x013 => dRO .bits32
  | 0x00, 0x014 => dRO .u64
  | 0x01, 0x001 => dWO .time64 wFBH 256
  | 0x01, 0x002 => dWO .bool wFBH 256
  | 0x01, 0x003 => some { ty := .enum, access := .ro, elements := 256 }
  | 0x01, 0x004 => some { ty := .u64, access := .ro, elements := 256 }
  | 0x01, 0x010 => dWO .bool wFBH 1
  | 0x01, 0x011 => dRO .enum
  | 0x01, 0x012 => some { ty := .u32, access := .ro, elements := 2 }
  | 0x01, 0x015 => dWO .bool wFBH 1
  | 0x01, 0x016 => dWO .bool wFBH 1
  | 0x01, 0x020 => dRWN .u32 wFBH
  | 0x01, 0x030 => dRWN .bool wBH
  | 0x01, 0x031 => dRWA .ipv6 wFBH 0x01
  | 0x01, 0x032 => dRWA .u8 wFBH 0x01
  | 0x01, 0x033 => dRWN .blob 4
  | 0x01, 0x034 => dRWN .u16 4
  | 0x01, 0x035 => dRO .u64
  | 0x01, 0x036 => dRO .u64
  | 0x01, 0x037 => dRWN .enum wBH
  | 0x01, 0x040 => dRWNT .u32 wFBH 16
  | 0x01, 0x041 => dRO .u64
  | 0x01, 0x070 => dWO .bool wFBH 1
  | 0x01, 0x071 => dRO .enum
  | 0x02, 0x001 => dRW .blob wFBH
  | 0x02, 0x010 => dRWT .u32 wFBH 120
  | 0x02, 0x011 => dRWT .u8 wFBH 120
  | 0x02, 0x020 => dRWT .s16 wFBH 16
  | 0x02, 0x021 => dRWT .s16 wFBH 16
  | _, _ => none

/-- Areas 08 to 1A (R441, R445, R73, R309, R319, R338, R390, R430, R385, R350). -/
def descFabric (area obj : Nat) : Option Desc :=
  match area, obj with
  | 0x08, 0x001 => dRWA .bool wF 0x08
  | 0x08, 0x002 => dRWA .bool wF 0x08
  | 0x08, 0x003 => dRWA .u32 wF 0x08
  | 0x08, 0x004 => dRWA .u32 wF 0x08
  | 0x08, 0x005 => dRWA .u32 wF 0x08
  | 0x08, 0x010 => dWO .time64 wF 1
  | 0x08, 0x011 => dRO .u64
  | 0x08, 0x012 => dRO .s32
  | 0x08, 0x013 => dRO .s32
  | 0x08, 0x014 => dROT .u32 60
  | 0x08, 0x040 => dROT .u32 16
  | 0x08, 0x041 => dRWA .u32 wFB 0x08
  | 0x08, 0x042 => dRWA .u32 wFB 0x08
  | 0x08, 0x043 => dRWA .u16 wFB 0x08
  | 0x08, 0x044 => dRWA .u16 wFB 0x08
  | 0x08, 0x045 => dRO .u16
  | 0x08, 0x046 => dROT .s16 16
  | 0x08, 0x047 => dRWA .u8 wFB 0x08
  | 0x10, 0x001 => dRWA .u16 wFB 0x10
  | 0x10, 0x002 => dRWA .u8 wF 0x10
  | 0x10, 0x010 => dRWAT .enum wF 0x10 60
  | 0x10, 0x011 => dRWAT .u32 wF 0x10 60
  | 0x10, 0x020 => dRO .u32
  | 0x11, 0x001 => dRWAT .u64 wF 0x11 1024
  | 0x11, 0x002 => dRWAT .u16 wF 0x11 32
  | 0x11, 0x003 => dRWAT .u8 wFB 0x11 4
  | 0x11, 0x010 => dRO .bits64
  | 0x12, 0x001 => dRWA .enum wF 0x12
  | 0x12, 0x002 => dRWA .u16 wF 0x12
  | 0x12, 0x003 => dRWA .u8 wF 0x12
  | 0x12, 0x004 => dRWA .u16 wF 0x12
  | 0x12, 0x005 => dRWA .u32 wF 0x12
  | 0x12, 0x010 => dRWAT .u16 wF 0x12 8
  | 0x13, 0x001 => dRWT .bits64 wFB 512
  | 0x13, 0x002 => dRO .u16
  | 0x13, 0x003 => dRO .u16
  | 0x18, 0x001 => dRWAT .bool wFB 0x18 60
  | 0x18, 0x002 => dRWAT .u8 wF 0x18 60
  | 0x18, 0x003 => dRWAT .u8 wF 0x18 60
  | 0x18, 0x004 => some { ty := .u8, access := .wo, writers := wFB, elements := 60, table := true }
  | 0x18, 0x005 => dROT .u32 60
  | 0x18, 0x006 => dROT .u32 60
  | 0x18, 0x020 => dRWT .enum wFB 120
  | 0x18, 0x021 => dRWT .u32 wFB 120
  | 0x18, 0x022 => dRWT .u32 wFB 120
  | 0x18, 0x023 => dROT .u64 120
  | 0x18, 0x024 => dROT .u64 120
  | 0x18, 0x025 => dRWT .bool wFB 120
  | 0x18, 0x026 => some { ty := .u16, access := .wo, writers := wFB, elements := 120, table := true }
  | 0x18, 0x027 => dROT .u64 120
  | 0x18, 0x028 => dROT .u32 120
  | 0x18, 0x029 => dRWNT .u64 wFB 120
  | 0x18, 0x030 => dRWAT .bool wF 0x18 120
  | 0x19, 0x001 => dRWAT .u32 wF 0x19 60
  | 0x19, 0x002 => dRWAT .u16 wF 0x19 23
  | 0x19, 0x003 => dRWA .u16 wF 0x19
  | 0x19, 0x004 => dRWA .u16 wF 0x19
  | 0x19, 0x005 => dRWA .u32 wF 0x19
  | 0x19, 0x010 => dRWA .u16 wF 0x19
  | 0x19, 0x011 => dRWA .u32 wF 0x19
  | 0x19, 0x012 => dRWA .u8 wF 0x19
  | 0x19, 0x013 => dRWAT .enum wF 0x19 60
  | 0x19, 0x014 => dRWA .u8 wF 0x19
  | 0x19, 0x015 => dRWA .u32 wF 0x19
  | 0x19, 0x020 => dROT .u16 60
  | 0x19, 0x021 => dROT .u16 60
  | 0x1A, 0x001 => dRWAT .u16 wF 0x1A 512
  | 0x1A, 0x002 => dRWAT .u8 wF 0x1A 60
  | 0x1A, 0x003 => dRWA .u16 wF 0x1A
  | 0x1A, 0x010 => dRWAT .u32 wF 0x1A 480
  | 0x1A, 0x011 => dRWAT .u32 wF 0x1A 480
  | 0x1A, 0x020 => some { ty := .u32, access := .rwa, writers := wFH, saved := true, set := 0x1A, elements := 1024, table := true, fscope := true }
  | 0x1A, 0x021 => some { ty := .u32, access := .rwa, writers := wFH, saved := true, set := 0x1A, elements := 1024, table := true, fscope := true }
  | 0x1A, 0x030 => dRWAT .u32 wF 0x1A 60
  | 0x1A, 0x031 => dRWAT .time64 wF 0x1A 60
  | 0x1A, 0x050 => dROT .s64 480
  | 0x1A, 0x051 => some { ty := .s64, access := .ro, elements := 1024, table := true, fscope := true }
  | 0x1A, 0x052 => dROT .u8 60
  | 0x1A, o => if 0x040 ≤ o ∧ o < 0x050 then dRWAT .u32 wF 0x1A 60 else none
  | _, _ => none

/-- Areas 20 to 24 (R102, R128, R182, R203, R237, R247). -/
def descHost (area obj : Nat) : Option Desc :=
  match area, obj with
  | 0x20, 0x001 => dRWNT .enum wBH 4
  | 0x20, 0x002 => dRWNT .u8 wBH 4
  | 0x20, 0x003 => dRWNT .u16 wBH 4
  | 0x20, 0x004 => dRWN .bits32 wFB
  | 0x20, 0x005 => dRWNT .u16 wBH 8
  | 0x20, 0x006 => dRWNT .u8 wBH 8
  | 0x20, 0x010 => dFn .bool wFH
  | 0x20, 0x011 => some { ty := .enum, access := .ro, elements := 1024, table := true, fscope := true }
  | 0x20, 0x012 => dFn .bool 2
  | 0x21, 0x001 => dFn .u64 wFHT
  | 0x21, 0x002 => dFn .u64 wFHT
  | 0x21, 0x003 => dFn .u64 wFHT
  | 0x21, 0x004 => dFn .u32 wFHT
  | 0x21, 0x010 => dFn .u32 wFH
  | 0x21, 0x011 => dFn .u32 wFH
  | 0x21, 0x012 => dFn .u16 wFH
  | 0x21, 0x020 => dRW .u8 wFH
  | 0x21, 0x021 => dRW .u8 wFH
  | 0x21, 0x030 => dRWA .u32 wFBH 0x21
  | 0x21, 0x031 => dRWA .u32 wFBH 0x21
  | 0x21, 0x032 => dRWA .u8 wFBH 0x21
  | 0x21, 0x033 => dRWA .u16 wFBH 0x21
  | 0x21, 0x034 => dRO .u32
  | 0x21, 0x035 => dRWA .u32 wFBH 0x21
  | 0x21, 0x036 => dRWA .u8 wFBH 0x21
  | 0x21, 0x037 => dRWA .u32 wFBH 0x21
  | 0x21, 0x040 => dRWA .u16 wFBH 0x21
  | 0x21, 0x041 => dRWA .u16 wFBH 0x21
  | 0x21, 0x042 => dRWA .u32 wFBH 0x21
  | 0x22, 0x001 => dRWA .u32 wFBH 0x22
  | 0x22, 0x010 => dFnWO .u64 wFHT
  | 0x22, 0x011 => dFnS .u32 wFH
  | 0x22, 0x012 => dFnS .u32 wFH
  | 0x22, 0x013 => dFnS .u32 wFH
  | 0x22, 0x014 => dFnS .u64 wFH
  | 0x22, 0x020 => dRO .u32
  | 0x22, 0x021 => dRO .u32
  | 0x22, 0x022 => dRO .u32
  | 0x22, 0x023 => dRO .u64
  | 0x22, 0x024 => dRO .u32
  | 0x23, 0x001 => dFn .u64 wFHT
  | 0x23, 0x002 => dFn .u8 wFHT
  | 0x23, 0x003 => dFn .u32 wFH
  | 0x23, 0x010 => dFnWO .u64 wFHT
  | 0x23, 0x020 => dRO .u32
  | 0x23, 0x021 => dRO .u32
  | 0x23, o => if (0x100 ≤ o ∧ o < 0x110) ∨ (0x200 ≤ o ∧ o < 0x210) then dROT .u64 4096 else none
  | 0x24, 0x001 => dRWA .u32 wF 0x24
  | 0x24, 0x010 => dRWAT .u32 wF 0x24 4096
  | 0x24, 0x011 => dRWAT .u8 wF 0x24 4096
  | 0x24, 0x012 => dRWAT .u32 wF 0x24 4096
  | 0x24, 0x013 => dRWAT .u16 wF 0x24 4096
  | 0x24, 0x030 => dROT .u32 4096
  | 0x24, 0x040 => dROT .u64 4096
  | 0x24, o => if (0x020 ≤ o ∧ o < 0x024) ∨ (0x100 ≤ o ∧ o < 0x13C) then dRWAT .u32 wF 0x24 4096 else none
  | _, _ => none

/-- Areas 28 to 38 (R283, R289, R293, R306, R295, R462, R448, R450, R485). P28.002 exists on the IK-920 only. -/
def descRest (v : Variant) (area obj : Nat) : Option Desc :=
  match area, obj with
  | 0x28, 0x001 => dRWNT .u32 wFBH 7
  | 0x28, 0x002 => if v = .ik920 then dRWT .u64 2 7 else none
  | 0x28, 0x010 => dROT .enum 16
  | 0x28, 0x011 => dWO .u8 wFBH 1
  | 0x28, 0x012 => dRWN .u32 wFBH
  | 0x28, 0x013 => dRWN .bool wFBH
  | 0x28, 0x014 => dRWN .u16 wFBH
  | 0x28, 0x015 => dRO .u64
  | 0x28, 0x020 => dFn .u64 wFH
  | 0x28, 0x021 => dFnWO .u64 wFHT
  | 0x28, 0x022 => dRO .u32
  | 0x28, 0x023 => dRO .u64
  | 0x28, 0x030 => dRWAT .u64 wFH 0x28 4096
  | 0x28, 0x031 => dRWAT .u64 wFH 0x28 4096
  | 0x28, 0x032 => dRWAT .u64 wFH 0x28 4096
  | 0x28, 0x033 => dROT .u8 4096
  | 0x28, 0x040 => dRWNT .u64 wFBH 8
  | 0x28, 0x041 => dRWNT .u64 wFBH 8
  | 0x29, 0x001 => dRWN .u32 wFBH
  | 0x29, 0x002 => dRWN .u32 wFBH
  | 0x29, 0x003 => dRWN .u16 wFBH
  | 0x29, o =>
    if 0x100 ≤ o ∧ o < 0x1C0 then dFn .u64 wFHT
    else if 0x1C0 ≤ o ∧ o < 0x200 then
      some { ty := .u64, access := .w1c, writers := wFHT, elements := 1024, table := true, fscope := true }
    else none
  | 0x30, 0xF00 => dRWN .u32 wFBH
  | 0x30, 0xF01 => dRO .u16
  | 0x30, 0xF02 => dRWN .bits32 wFBH
  | 0x30, 0xF03 => dRWN .u8 wFBH
  | 0x30, 0xF04 => dRWN .u32 wFBH
  | 0x30, 0xF05 => dWO .u16 wFBH 1
  | 0x30, 0xF10 => dRO .u32
  | 0x30, 0xF11 => dRO .u64
  | 0x30, 0xF12 => dRO .u32
  | 0x30, 0xF20 => dRWNT .u32 wFBH 4
  | 0x30, 0xF21 => dRWN .u8 wFBH
  | 0x30, 0xF30 => dRO .blob
  | 0x30, 0xF40 => dRO .bool
  | 0x30, o =>
    if o < 0x100 then if unitNumber o then dRWNT .u32 wFBH (0x100 + (causesOf o - 4)) else none
    else if o < 0x1E0 ∧ unitNumber (o - 0x100) then
      some { ty := .u64, access := .w1c, writers := wFBH, elements := 0x100 + (causesOf (o - 0x100) - 4), table := true }
    else none
  | 0x31, 0xF00 => dRO .u32
  | 0x31, 0xF10 => dRWAT .u64 wFBH 0x31 256
  | 0x31, 0xF11 => dRWA .u32 wFBH 0x31
  | 0x31, 0xF12 => dRWA .enum wFBH 0x31
  | 0x31, 0xF13 => dRWA .u64 wFBH 0x31
  | 0x31, 0xF14 => dRWA .u64 wFBH 0x31
  | 0x31, 0xF15 => dRWA .u8 wFBH 0x31
  | 0x31, 0xF16 => dRO .u64
  | 0x31, o =>
    if o < 0x100 then if unitNumber o then dROT .u64 (countersOf o) else none
    else if o < 0x200 then
      if unitNumber (o - 0x100) then
        some { ty := .u8, access := .w1c, writers := wFBH, elements := countersOf (o - 0x100), table := true }
      else none
    else if o < 0x300 then if unitNumber (o - 0x200) then dRWT .u32 wFBH (countersOf (o - 0x200)) else none
    else if o < 0x307 then some { ty := .u64, access := .ro, elements := 1024, table := true, fscope := true }
    else if 0x380 ≤ o ∧ o < 0x387 then
      some { ty := .u8, access := .w1c, writers := wFBH, elements := 1024, table := true, fscope := true }
    else none
  | 0x38, 0x001 => dROT .enum 6
  | 0x38, 0x002 => dRO .enum
  | 0x38, 0x003 => dRO .u32
  | 0x38, 0x010 => dROT .enum 2
  | 0x38, 0x011 => dROT .u64 2
  | 0x38, 0x020 => dWO .blob wFBH 32
  | 0x38, 0x021 => dWO .enum wFBH 1
  | 0x38, 0x022 => dRO .enum
  | 0x38, 0x023 => dRO .u8
  | 0x38, 0x030 => dWO .u16 wFBH 1
  | 0x38, 0x031 => dROT .enum 6
  | 0x38, 0x040 => some { ty := .bool, access := .rwa, writers := wFB, set := 0x38 }
  | _, _ => none

/-- The descriptor of an object, if there is such a parameter. -/
def desc (v : Variant) (area obj : Nat) : Option Desc :=
  if area < 0x08 then descLow area obj
  else if area < 0x20 then descFabric area obj
  else if area < 0x28 then descHost area obj
  else descRest v area obj

/-- Whether the element exists (R43 status 0x04): within the table, and no element 0 of the set commands (R68), and only
causes of the unit in the source rows (R462). -/
def elementExists (d : Desc) (area obj e : Nat) : Bool :=
  e < d.elements &&
  !(area == 0x01 && 1 ≤ obj && obj ≤ 4 && e == 0) &&
  !(area == 0x30 && obj < 0x1E0 && !isCause (obj % 0x100) e)

/-- The descriptor of a 32-bit number, if parameter and element exist. -/
def descOf (v : Variant) (n : Nat) : Option Desc :=
  match desc v (pArea n) (pObj n) with
  | none => none
  | some d => if elementExists d (pArea n) (pObj n) (pElem n) then some d else none

/-- Whether the element belongs to a present unit (R6). The chip-wide parameters of fabric memory, export entries and CXL ranges
(P28.012 to P28.015, P28.030 to P28.033, P28.040 and P28.041) are present on the IK-920 too, though it has no HBM (DESIGN CHOICE: R6
does not say that they belong to an absent unit). -/
def elementPresent (v : Variant) (d : Desc) (area obj e : Nat) : Bool :=
  if d.fscope then e / 256 < v.hostPorts
  else match area with
    | 0x24 => decide (0 < v.collEngines)
    | 0x10 => if obj = 0x010 ∨ obj = 0x011 then e < v.fabricPorts else true
    | 0x08 => if obj = 0x014 then e < v.fabricPorts else true
    | 0x02 => if obj = 0x010 ∨ obj = 0x011 then e / 2 < v.fabricPorts else true
    | 0x18 => if obj < 0x020 then e < v.fabricPorts else e / 2 < v.fabricPorts
    | 0x19 => if obj = 0x001 ∨ obj = 0x013 ∨ obj = 0x020 ∨ obj = 0x021 then e < v.fabricPorts else true
    | 0x1A =>
      if obj = 0x001 then if e / 8 < 60 then e / 8 < v.fabricPorts else e / 8 - 60 < v.hostPorts
      else if obj = 0x003 then true
      else if obj = 0x010 ∨ obj = 0x011 ∨ obj = 0x050 then e / 8 < v.fabricPorts
      else e < v.fabricPorts
    | 0x20 =>
      if obj ≤ 0x003 then e < v.hostPorts else if obj = 0x005 ∨ obj = 0x006 then e / 2 < v.hostPorts else true
    | 0x28 => if obj = 0x040 ∨ obj = 0x041 then e / 2 < v.hostPorts else true
    | 0x30 => if obj < 0x1E0 then unitPresent v (obj % 0x100) else true
    | 0x31 => if obj < 0x2E0 then unitPresent v (obj % 0x100) else true
    | _ => true

/-! ### Fault sources (R453 to R456, R464, R478, R500) -/

/-- Units without a block reset (R456). -/
def noBlockReset (u : Nat) : Bool :=
  u == 0xA0 || (0x70 ≤ u && u < 0x80) || u == 0xA2 || u == 0xA3 || u == 0xB0 || u == 0xA1 || u == 0xC0 || u == 0xC1

/-- What the catalogue fixes for a source: class, condition source, default reaction, default PIN. -/
structure SourceInfo where
  cls : Nat := 2
  cond : Bool := false
  reaction : Nat := 0
  pin : Bool := false
  deriving DecidableEq, Repr

/-- The catalogue of fault sources (R464), with MGT cause 0x103 (R478) and FAB cause 0x102 (R500). -/
def sourceInfo (u cause : Nat) : SourceInfo :=
  if cause = 1 then { cls := 0 }
  else if cause = 2 then { cls := 1 }
  else if cause = 3 ∨ cause = 4 then
    if noBlockReset u then { cls := 4, reaction := 4, pin := true } else { cls := 3, reaction := 3, pin := true }
  else if u < 0x3C then
    match cause with
    | 0x100 => { cond := true, reaction := 1 }
    | 0x101 => { cond := true }
    | 0x102 => { cls := 0 }
    | 0x103 => { cond := true, reaction := 1, pin := true }
    | 0x104 => { cond := true, reaction := 1, pin := true }
    | 0x105 => { reaction := 1 }
    | _ => {}
  else if u < 0x40 then
    match cause with
    | 0x100 => { cond := true, reaction := 1, pin := true }
    | 0x102 => { reaction := 1 }
    | 0x103 => { reaction := 1 }
    | _ => {}
  else if u < 0x5E then
    match cause with
    | 0x100 => { cls := 0 }
    | 0x102 => { cls := 3, cond := true, reaction := 3, pin := true }
    | _ => {}
  else if 0x60 ≤ u ∧ u < 0x70 then
    match cause with
    | 0x100 => { cls := 0 }
    | 0x101 => { cls := 1 }
    | 0x102 => { cond := true, reaction := 1, pin := true }
    | 0x103 => { cls := 3, reaction := 3, pin := true }
    | _ => {}
  else if 0x90 ≤ u ∧ u < 0x96 then
    if cause = 0x100 then { cls := 3, reaction := 3 }
    else if u = 0x90 ∧ cause = 0x101 then { cond := true, reaction := 1 }
    else if u = 0x90 ∧ cause = 0x103 then { reaction := 1 }
    else {}
  else if u = 0xA0 then if cause = 0x106 then { reaction := 1 } else {}
  else if u = 0xB0 then if cause = 0x100 ∨ cause = 0x101 then { reaction := 1 } else {}
  else if u = 0xC0 then
    if cause = 0x100 then { reaction := 1, pin := true } else if cause = 0x101 then { cond := true, reaction := 1 } else {}
  else if u = 0xC1 then if cause = 0x101 then { reaction := 1, pin := true } else {}
  else if 0xD0 ≤ u ∧ u < 0xE0 then
    if cause = 0x100 then { cond := true, reaction := 1, pin := true } else if cause = 0x101 then { cond := true } else {}
  else {}

/-- A control row as read: CLASS and COND beside the written ROUTE, PIN and REACTION (R462). -/
def controlRow (i : SourceInfo) (writable : Nat) : Nat :=
  i.cls * 2 ^ 9 + natOfBool i.cond * 2 ^ 8 + bits writable 4 2 * 2 ^ 4 + bits writable 0 3

/-- The default control row of a source; ROUTE is 0 for every source (R464). -/
def defaultControl (u cause : Nat) : Nat :=
  let i := sourceInfo u cause
  controlRow i (natOfBool i.pin * 2 ^ 4 + i.reaction)

/-- Reactions a class admits (R456); reaction 3 only where the unit has a block reset. -/
def reactionOk (u cls r : Nat) : Bool :=
  (match cls with
    | 0 => r ≤ 1
    | 1 => r ≤ 2
    | 2 => r ≤ 3
    | 3 => 2 ≤ r && r ≤ 4
    | _ => r == 4) && !(r == 3 && noBlockReset u)

/-! ### Defaults -/

/-- The default of an element. `strap` is the latched chip id (R73). -/
def pDefault (v : Variant) (serial : Word) (strap : Nat) (area obj e : Nat) : Nat :=
  match area, obj with
  | 0x00, 0x001 => v.code
  | 0x00, 0x002 => 0xB0
  | 0x00, 0x003 => serial.toNat
  | 0x00, 0x004 => 0x0000D3B1
  | 0x00, 0x010 => (2 ^ v.fabricPorts - 1) + (2 ^ v.hostPorts - 1) * 2 ^ 60
  | 0x00, 0x011 => 2 ^ v.stacks - 1
  | 0x00, 0x012 => 2 ^ v.matchEngines - 1
  | 0x00, 0x013 => 2 ^ v.collEngines - 1
  | 0x00, 0x014 => v.exportLimit
  | 0x01, 0x020 => 10000
  | 0x01, 0x030 => 1
  | 0x01, 0x032 => 64
  | 0x02, 0x001 => 0
  | 0x02, o => Config.factoryValue (pnum 0x02 o e)
  | 0x08, 0x004 => 400000
  | 0x08, 0x005 => 2000
  | 0x08, 0x041 => 2150
  | 0x08, 0x042 => 1800
  | 0x08, 0x043 => 700
  | 0x08, 0x044 => 860
  | 0x08, 0x045 => 860
  | 0x08, 0x047 => 95
  | 0x10, 0x001 => strap
  | 0x10, 0x002 => 32
  | 0x11, 0x003 => if e < v.hostPorts then 0x80 else 0
  | 0x12, 0x002 => 66
  | 0x12, 0x003 => 16
  | 0x12, 0x004 => 256
  | 0x12, 0x010 => if e < 2 then 0 else 1024
  | 0x18, 0x001 => 1
  | 0x18, 0x002 => 7
  | 0x18, 0x003 => 3
  | 0x19, 0x001 => 150000
  | 0x19, 0x002 => 8192
  | 0x19, 0x003 => 264
  | 0x19, 0x004 => 256
  | 0x19, 0x005 => 8000
  | 0x19, 0x010 => 100
  | 0x19, 0x011 => 1000
  | 0x19, 0x012 => 4
  | 0x19, 0x013 => 1
  | 0x19, 0x014 => 16
  | 0x19, 0x015 => 600
  | 0x19, 0x020 => 10388
  | 0x19, 0x021 => 4478
  | 0x1A, 0x001 => match e % 8 with | 2 => 264 | 3 => 264 | 4 => 132 | 5 => 132 | 6 => 33 | 7 => 33 | _ => 0
  | 0x1A, 0x002 => 50
  | 0x1A, 0x003 => 16
  | 0x1A, 0x011 => if e % 8 < 2 then 0 else 1024
  | 0x1A, 0x021 => 1024
  | 0x1A, 0x052 => 0xFF
  | 0x20, 0x001 => 1
  | 0x20, 0x002 => 16
  | 0x20, 0x003 => 255
  | 0x20, 0x005 => 64
  | 0x20, 0x006 => if e % 2 = 0 then 0x1C else 0x16
  | 0x20, 0x010 => 1
  | 0x21, 0x010 => if e % 256 = 0 then 1048576 else 65536
  | 0x21, 0x011 => if e % 256 = 0 then 65536 else 4096
  | 0x21, 0x012 => if e % 256 = 0 then 64 else 4
  | 0x21, 0x020 => 16
  | 0x21, 0x021 => 8
  | 0x21, 0x030 => 16
  | 0x21, 0x031 => 16000
  | 0x21, 0x032 => 7
  | 0x21, 0x033 => 64
  | 0x21, 0x034 => 4080
  | 0x21, 0x035 => 262144
  | 0x21, 0x036 => 16
  | 0x21, 0x037 => 2000
  | 0x21, 0x040 => 512
  | 0x21, 0x041 => 4
  | 0x21, 0x042 => 8000
  | 0x22, 0x001 => 8192
  | 0x22, 0x011 => if e % 256 = 0 then 262144 else 4096
  | 0x22, 0x012 => if e % 256 = 0 then 16777216 else 1048576
  | 0x22, 0x013 => if e % 256 = 0 then 16777216 else 1048576
  | 0x22, 0x014 => if e % 256 = 0 then 0x100000000 else 0x10000000
  | 0x23, 0x003 => if e % 256 = 0 then 16384 else 256
  | 0x24, 0x001 => 100
  | 0x24, 0x011 => 255
  | 0x24, 0x013 => 16
  | 0x28, 0x001 => match e with | 0 => 4096 | 1 => 1024 | 2 => 4096 | 3 => 4096 | 4 => 2048 | 5 => 1024 | 6 => 1024 | _ => 0
  | 0x28, 0x010 => if e < 4 * v.stacks then 1 else 0
  | 0x28, 0x012 => 4096
  | 0x28, 0x013 => 1
  | 0x28, 0x014 => 24
  | 0x29, 0x001 => 4000
  | 0x29, 0x002 => 10000
  | 0x29, 0x003 => 50
  | 0x30, 0xF00 => 1000
  | 0x30, 0xF01 => sourcesPresent v
  | 0x30, 0xF02 => 1
  | 0x30, 0xF03 => 3
  | 0x30, 0xF04 => 60
  | 0x30, 0xF21 => 2
  | 0x30, o => if o < 0x100 then defaultControl o e else 0
  | 0x31, 0xF00 => countersPresent v
  | 0x31, 0xF11 => 1000
  | 0x31, 0xF15 => 10
  | _, _ => 0

/-! ### Value checks (R9, R38, R45) -/

/-- Signed byte `i` (from the most significant) of a coefficient row. -/
def coeffByte (x i : Nat) : Int := ofTwos 8 (bits x (24 - 8 * i) 8)

/-- Coefficients within R425. -/
def coeffsOk (x : Nat) : Bool :=
  let a := coeffByte x 0; let b := coeffByte x 1; let m := coeffByte x 2; let d := coeffByte x 3
  0 ≤ a && a ≤ 8 && -24 ≤ b && b ≤ 0 && 24 ≤ m && m ≤ 63 && -24 ≤ d && d ≤ 0 &&
  a.natAbs + b.natAbs + m.natAbs + d.natAbs ≤ 63

/-- The bits of a value that its description does not give as zero or reserved (R9): the others are stored as zero. -/
def keepBits (area obj : Nat) (x : Nat) : Nat :=
  let m : Option Nat :=
    match area, obj with
    | 0x01, 0x040 => some 0x8001FFFF
    | 0x10, 0x001 => some 0x7FFF
    | 0x10, 0x011 => some 0x801FFFFF
    | 0x11, 0x001 => some 0xBF3FBF3FBF3FBF3F
    | 0x11, 0x002 => some 0xBFBF
    | 0x11, 0x003 => some 0x80
    | 0x18, 0x002 => some 0x07
    | 0x18, 0x003 => some 0x03
    | 0x18, 0x021 => some 0xFF000307
    | 0x18, 0x022 => some 0x80000007
    | 0x18, 0x029 => some 0x80000000FFFFFFFF
    | 0x20, 0x004 => some 0xF
    | 0x21, 0x004 => some 0xC7FF03FF
    | 0x22, 0x010 => some 0x80000FFFFFFFFFFF
    | 0x24, 0x010 => some 0x800FFFFF
    | 0x28, 0x020 => some 0x00FFFFFF00FFFFFF
    | 0x28, 0x032 => some (31 * 2 ^ 59 + 0x3FFFFFFFF * 2 ^ 17)
    | 0x30, 0xF02 => some 0xF
    | 0x30, 0xF20 => some 0x8001FFFF
    | 0x31, 0xF10 => some 0x80000000FFFFFFFF
    | 0x1A, 0x030 => some 0x801F0000
    | 0x1A, o => if 0x040 ≤ o ∧ o < 0x050 then some 0xFFFFFFFC else none
    | 0x24, o => if 0x020 ≤ o ∧ o < 0x024 then some 0x81FFFFFF else none
    | 0x29, o =>
      if 0x100 ≤ o ∧ o < 0x140 then some (2 ^ 63 + 0x1FFFF * 2 ^ 40 + 0xFFFFFFFF)
      else if 0x140 ≤ o ∧ o < 0x180 then some (0x3F * 2 ^ 58 + 0xFFFFFFF * 2 ^ 12)
      else if 0x180 ≤ o ∧ o < 0x1C0 then some (0x3F * 2 ^ 58 + 0xFFFFFFFFF * 2 ^ 12)
      else none
    | 0x30, o => if o < 0x100 then some 0x37 else none
    | _, _ => none
  match m with
  | some k => x &&& k
  | none => x

/-- Whether the value (already cut by `keepBits`) lies within the codes and limits of its description (R45), state apart. -/
def valueOk (d : Desc) (area obj e x : Nat) : Bool :=
  let between (lo hi : Nat) : Bool := lo ≤ x && x ≤ hi
  match area, obj with
  | 0x01, 0x020 => between 100 600000
  | 0x01, 0x032 => between 8 128
  | 0x01, 0x037 => x ≤ 1
  | 0x02, 0x010 => coeffsOk x
  | 0x02, 0x011 => x ≤ 31
  | 0x02, 0x020 => decide (-500 ≤ ofTwos 16 x ∧ ofTwos 16 x ≤ 500)
  | 0x02, 0x021 => decide (-100 ≤ ofTwos 16 x ∧ ofTwos 16 x ≤ 100)
  | 0x08, 0x003 => x ≤ 3999999999
  | 0x08, 0x004 => between 100 1000000
  | 0x08, 0x005 => between 250 16000
  | 0x08, 0x041 => between 1000 4000
  | 0x08, 0x042 => between 1000 4000
  | 0x08, 0x043 => between 620 860
  | 0x08, 0x044 => between 620 860
  | 0x08, 0x047 => between 60 110
  | 0x10, 0x002 => between 1 32
  | 0x10, 0x010 => x ≤ 2
  | 0x10, 0x011 => bits x 0 6 < 60
  | 0x12, 0x001 => x ≤ 2
  | 0x12, 0x002 => x ≤ 16384
  | 0x12, 0x003 => x ≤ 64
  | 0x12, 0x004 => between 16 4096
  | 0x12, 0x010 => 2 ≤ e && between 66 16384
  | 0x18, 0x002 => bitOf x 0
  | 0x18, 0x003 => x ≠ 0
  | 0x18, 0x004 => between 1 4
  | 0x18, 0x020 => x ≤ 3
  | 0x18, 0x021 =>
    bits x 8 2 ≠ 3 && bits x 0 3 ≤ 3 && bits x 24 8 ≤ 64 && (bits x 0 3 ≠ 3 || 1 ≤ bits x 24 8)
  | 0x18, 0x022 => bits x 0 3 == 1 || bits x 0 3 == 2
  | 0x18, 0x026 => between 1 5439
  | 0x18, 0x029 => coeffsOk (bits x 0 32)
  | 0x19, 0x001 => between 8192 150000
  | 0x19, 0x002 => between 66 14866
  | 0x19, 0x003 => x ≤ 4096
  | 0x19, 0x004 => between 128 1024
  | 0x19, 0x005 => between 1000 50000
  | 0x19, 0x010 => between 1 65535
  | 0x19, 0x011 => between 100 60000
  | 0x19, 0x012 => between 1 60
  | 0x19, 0x013 => x ≤ 2
  | 0x19, 0x014 => between 1 255
  | 0x19, 0x015 => x = 0 || between 10 86400
  | 0x1A, 0x001 => 2 ≤ e % 8 && between 1 16384
  | 0x1A, 0x002 => between 1 100
  | 0x1A, 0x003 => x ≤ 1000
  | 0x1A, 0x010 => 2 ≤ e % 8 && x ≤ 400000
  | 0x1A, 0x011 => 2 ≤ e % 8 && between 1 1048576
  | 0x1A, 0x020 => x ≤ 400000
  | 0x1A, 0x030 => 1 ≤ bits x 16 5 && bits x 16 5 ≤ 16
  | 0x1A, 0x021 => between 1 1048576
  | 0x20, 0x001 => x ≤ 2
  | 0x20, 0x002 => x = 8 || x = 16
  | 0x20, 0x003 => x ≤ 255
  | 0x20, 0x005 => between 1 4096
  | 0x20, 0x006 => 12 ≤ x && x ≤ (if e % 2 = 0 then 40 else 34)
  | 0x21, 0x001 => x % 4096 = 0
  | 0x21, 0x002 => x % 4096 = 0
  | 0x21, 0x003 => x % 64 = 0
  | 0x21, 0x004 => !bitOf x 31 || (4 ≤ bits x 5 5 && bits x 5 5 ≤ 10 && 4 ≤ bits x 0 5 && bits x 0 5 ≤ 10)
  | 0x21, 0x020 => between 1 16
  | 0x21, 0x021 => x ≤ 8
  | 0x21, 0x030 => between 4 1024
  | 0x21, 0x031 => between 1000 64000
  | 0x21, 0x032 => between 1 15
  | 0x21, 0x033 => between 1 1023
  | 0x21, 0x035 => between 4096 2147483648
  | 0x21, 0x036 => between 1 128
  | 0x21, 0x037 => between 100 100000
  | 0x21, 0x040 => between 16 4096
  | 0x21, 0x041 => between 1 512
  | 0x21, 0x042 => between 1000 1000000
  | 0x22, 0x001 => x ≤ 16384
  | 0x23, 0x001 => x % 4096 = 0
  | 0x23, 0x002 => x = 0 || between 4 20
  | 0x24, 0x001 => between 1 10000
  | 0x24, 0x011 => x < 60 || x = 255
  | 0x24, 0x012 => between 1 118912
  | 0x24, 0x013 => between 8 1024
  | 0x28, 0x001 => x % 32 = 0 && (match e with
      | 0 => between 1024 4096 | 1 => between 256 8192 | 2 => between 1024 16384 | 3 => between 256 16384
      | 4 => between 1024 16384 | 5 => between 32 4096 | _ => x ≤ 4096)
  | 0x28, 0x011 => x < 16
  | 0x28, 0x012 => between 16 1048576
  | 0x28, 0x014 => between 1 168
  | 0x28, 0x030 => x % 4096 = 0
  | 0x28, 0x031 => x % 4096 = 0 && 4096 ≤ x
  | 0x28, 0x040 => x % 2 ^ 28 = 0
  | 0x28, 0x041 => x % 2 ^ 28 = 0
  | 0x29, 0x001 => between 1000 50000
  | 0x29, 0x002 => x ≤ 1000000
  | 0x29, 0x003 => x ≤ 1000
  | 0x30, 0xF00 => between 10 1000000
  | 0x30, 0xF03 => between 1 255
  | 0x30, 0xF04 => between 1 86400
  | 0x30, 0xF21 => x ≤ 4
  | 0x31, 0xF11 => between 1 1000000
  | 0x31, 0xF12 => x ≤ 2
  | 0x31, 0xF13 => x % 4096 = 0
  | 0x31, 0xF14 => x % 64 = 0
  | 0x31, 0xF15 => between 4 22
  | 0x38, 0x021 => between 1 4
  | 0x38, 0x030 => between 0x90 0x95
  | 0x1A, o =>
    if 0x040 ≤ o ∧ o < 0x050 then 1 ≤ bits x 8 24 && bits x 8 24 ≤ 1000000 else true
  | 0x29, o => if 0x140 ≤ o ∧ o < 0x180 then 12 ≤ bits x 58 6 && bits x 58 6 ≤ 40 else true
  | 0x30, o => if o < 0x100 then reactionOk o (sourceInfo o e).cls (bits x 0 3) else true
  | _, _ => match d.ty with
    | .bool => x ≤ 1
    | _ => true

/-- The form in which a checked value is stored: a control row keeps the CLASS and COND of its source (R462). -/
def storedForm (area obj e x : Nat) : Nat := if area = 0x30 ∧ obj < 0x100 then controlRow (sourceInfo obj e) x else x

/-- Descriptor word 0 (R38). -/
def descWord0 (d : Desc) : Word :=
  mkWord [(if d.table then 0x0F else d.ty.code, 56), (d.access.code, 48), (d.writers, 44), (natOfBool d.saved, 43),
    (natOfBool d.fscope, 42), (d.set, 32), (d.elements, 16), (if d.table then d.ty.code else 0, 12)]

/-- Descriptor word 1: the default, right-aligned, of an element of 8 bytes or fewer. A command has none. -/
def descWord1 (v : Variant) (serial : Word) (strap : Nat) (d : Desc) (area obj e : Nat) : Word :=
  if d.ty = .blob ∨ d.ty = .ipv6 ∨ d.access = .wo then 0 else BitVec.ofNat 64 (pDefault v serial strap area obj e)

end Sys2Proof.Machine
end

