-- ==== Sys2Proof/Machine/Ops.lean ====
section
/-! DEFINITION. The named operations every unit shares: parameters, counters, output, interrupts, events, faults. -/

namespace Sys2Proof.Machine

/-! ### Service, chip id, clusters -/

/-- The Jig service or full service runs: hosts, links and paths are served (R479 step 8, R483). -/
def Chip.up (c : Chip) : Bool := c.boot.phase == .jig || c.boot.phase == .full

/-- Full service (R483). -/
def Chip.full (c : Chip) : Bool := c.boot.phase == .full

/-- Ticks of 1 ns since chip reset. -/
def Chip.now (c : Chip) : Nat := c.tb.now

/-- The stored value of a parameter element: the written one, or its default. -/
def Chip.param (c : Chip) (area obj e : Nat) : Nat :=
  (Tab.get? c.dict.active (pnum area obj e)).getD (pDefault c.variant c.serial c.boot.strapLatch area obj e)

/-- Store a parameter value; a value equal to the default is not listed. -/
def Chip.setParam (c : Chip) (area obj e x : Nat) : Chip :=
  { c with dict := { c.dict with
      active := Tab.set c.dict.active (pDefault c.variant c.serial c.boot.strapLatch area obj e) (pnum area obj e) x } }

/-- The chip's own chip id: P10.001 (R73). -/
def Chip.id (c : Chip) : Nat := c.param 0x10 0x001 0

/-- The working copy of calibration holds the generic values of a failed check (R70). -/
def Chip.calInvalid (c : Chip) : Bool := c.flash.calState == 2

/-- The endpoint address of a host port: chip id × 4 + port (R73). -/
def Chip.endpoint (c : Chip) (h : Nat) : Nat := c.id * 4 + h

/-- The source number of a unit (R13). -/
def Chip.source (c : Chip) (unit : Nat) : Nat := c.id * 4096 + unit

/-- Whether a processor cluster runs: 0 MGT, 1 FAB, 2 CON, 3 COL, 4 FLT, 5 TIM (R485). -/
def Chip.clusterUp (c : Chip) (i : Nat) : Bool := Tab.get c.fw.clusters i 0 == 0

/-- Whether a chip id is fenced (R338). -/
def Chip.fenced (c : Chip) (chip : Nat) : Bool := c.rt.fenced.contains chip

/-! ### Parts of the chip by number -/

/-- A function by index. -/
def Chip.fn (c : Chip) (i : Nat) : Func := Tab.get c.funcs i Func.init

/-- Update a function. -/
def Chip.updFn (c : Chip) (i : Nat) (f : Func → Func) : Chip := { c with funcs := Tab.upd c.funcs i Func.init f }

/-- A host port. -/
def Chip.port (c : Chip) (h : Nat) : HostPort := Tab.get c.ports h HostPort.init

/-- Update a host port. -/
def Chip.updPort (c : Chip) (h : Nat) (f : HostPort → HostPort) : Chip :=
  { c with ports := Tab.upd c.ports h HostPort.init f }

/-- The state of a function as P20.011 reads (R102): the PF of a present port is never absent. -/
def Chip.fnState (c : Chip) (i : Nat) : FnState :=
  match (c.fn i).state with
  | .absent => if i % 256 = 0 ∧ i / 256 < c.variant.hostPorts then .notReady else .absent
  | s => s

/-- The function is ready. -/
def Chip.fnReady (c : Chip) (i : Nat) : Bool := c.fnState i == .ready

/-- The function takes part in the PCIe link: neither absent nor gone with VF Enable (R513). -/
def Chip.fnExists (c : Chip) (i : Nat) : Bool := c.fnState i != .absent && !(c.fn i).vfGone

/-- Whether the function's queues take no more completions and events (R199 step 2). -/
def Chip.silentFn (c : Chip) (fn : Nat) : Bool := c.fnState fn == .draining || c.fnState fn == .quiesced

/-- A host port that the variant has. -/
def Chip.hasHost (c : Chip) (h : Nat) : Bool := h < c.variant.hostPorts

/-- A fabric port that the variant has. -/
def Chip.hasPort (c : Chip) (p : Nat) : Bool := p < c.variant.fabricPorts

/-- The key of a queue: host port and number (R125: one number space per host port). -/
def qKey (h qn : Nat) : Nat := h * 2 ^ 24 + qn

/-- A queue, if it exists. -/
def Chip.queue? (c : Chip) (h qn : Nat) : Option Queue := Tab.get? c.queues (qKey h qn)

/-- Put a queue. -/
def Chip.putQueue (c : Chip) (h qn : Nat) (q : Queue) : Chip := { c with queues := Tab.put c.queues (qKey h qn) q }

/-- The key of a peer channel: local host port, remote endpoint, request class (R161). -/
def chKey (h remote cls : Nat) : Nat := (h * 2 ^ 17 + remote) * 4 + cls
/-- The local host port of a channel. A key beyond the channels' belongs to a message kept over a SYNC (R221). -/
def chHost (k : Nat) : Nat := k / 2 ^ 19 % 4
/-- The remote endpoint of a channel. -/
def chRemote (k : Nat) : Nat := k / 4 % 2 ^ 17

/-- Update a queue if it exists. -/
def Chip.updQueue (c : Chip) (h qn : Nat) (f : Queue → Queue) : Chip :=
  { c with queues := Tab.adjust c.queues (qKey h qn) f }

/-- The unit is in block reset or held in it. -/
def Chip.unitStopped (c : Chip) (u : Nat) : Bool := c.flt.inReset.contains u || c.flt.heldUnits.contains u

/-! ### Output and free values -/

/-- The host port and the function whose memory an output reaches by DMA. An interrupt message names no function: of what a
function lacks, only MSI-X Enable and Bus Master Enable hold it back (R108, R109). -/
def Output.dmaOf : Output → Option (Nat × Option Nat)
  | .completion h fn _ _ _ => some (h, some fn)
  | .event h fn _ _ _ => some (h, some fn)
  | .indexWrite h fn _ _ _ => some (h, some fn)
  | .dma h fn _ _ _ => some (h, some fn)
  | .contextWrite h fn _ _ => some (h, some fn)
  | .hostRead h fn _ _ => some (h, some fn)
  | .hostAtomic h fn _ _ _ _ => some (h, some fn)
  | .msix h _ _ _ _ => some (h, none)
  | _ => none

/-- No DMA reaches the host port or the function: PERST_N is asserted, the port is in block reset, the function has ceased or it has quiesced
(R199 step 5, R484, R513). -/
def Chip.dmaStopped (c : Chip) (o : Output) : Bool :=
  match o.dmaOf with
  | none => false
  | some (h, fn) => (c.port h).perst || c.unitStopped (0x3C + h) || fn.elim false fun f => (c.fn f).vfGone || c.fnState f == .quiesced

/-- Something leaves the chip. -/
def Chip.emit (c : Chip) (o : Output) : Chip := if c.dmaStopped o then c else { c with out := c.out ++ [o] }

/-- The next free value. -/
def Chip.freeNow (c : Chip) : Nat := Config.freeValue c.free

/-- Advance to the next free value. -/
def Chip.drawn (c : Chip) : Chip := { c with free := c.free + 1 }

/-- `n` free values have been used. -/
def Chip.drawnBy (c : Chip) (n : Nat) : Chip := { c with free := c.free + n }

/-! ### Counters (R447 to R449) -/

/-- The model's own number of a named counter; the element is `Config.counterElement` of it. -/
def Ctr.index : Ctr → Nat
  | .malformed => 0 | .levelOverflow => 1 | .misroute => 2 | .noRoute => 3 | .hopLimit => 4 | .ageLimit => 5
  | .fenceDiscard => 6 | .bcastBad => 7 | .bcastDuplicate => 8 | .hintDiscard => 9 | .staleHint => 10
  | .sent => 11 | .replayed => 12 | .accepted => 13 | .nakSent => 14 | .nakReceived => 15 | .duplicate => 16
  | .outOfSequence => 17 | .stomp => 18 | .headerError => 19 | .framingLoss => 20 | .lcbError => 21
  | .unknownItem => 22 | .poolOverrun => 23 | .reserveOverrun => 24 | .linkResetDiscard => 25
  | .poolOccupancy => 26 | .trainUnknown => 27 | .treeDiscard => 28 | .contextDiscard => 29
  | .matchDiscard => 30 | .shimDiscard => 31 | .absentPort => 32 | .ecnMarked => 33
  | .endpointBad => 104 | .badResponse => 105 | .noChannel => 106 | .aheadOfWindow => 107 | .windowDiscard => 108 | .specDropped => 109
  | .mgmtDiscard => 110 | .cxlDiscard => 111 | .ppsRejected => 112 | .badPec => 113
  | .fecCorrected l => 120 + l | .fecUncorrectable l => 124 + l | .unknownControl l => 128 + l
  | .gateOverrun tc => 40 + tc | .xoffCycles vc => 50 + vc | .reserveOccupancy vc => 80 + vc

/-- The parameter number of a named counter's overflow bit (R448). -/
def overflowParam (id : CounterId) : Nat := pnum 0x31 (0x100 + id.unit) (Config.counterElement id.ctr.index)

/-- Add to a counter in a list; a counter that is not listed is 0. -/
def addCounter (id : CounterId) (n : BitVec 64) : List (CounterId × BitVec 64) → List (CounterId × BitVec 64)
  | [] => [(id, n)]
  | (i, v) :: r => if i = id then (i, v + n) :: r else (i, v) :: addCounter id n r

/-- The value of a counter in a list. -/
def getCounter (id : CounterId) : List (CounterId × BitVec 64) → BitVec 64
  | [] => 0
  | (i, v) :: r => if i = id then v else getCounter id r

/-- An event counter of a unit counts `n` (R447); passing 2^64 − 1 sets its sticky overflow bit. -/
def Chip.bump (c : Chip) (unit : Nat) (k : Ctr) (n : Nat := 1) : Chip :=
  if n = 0 then c
  else
    let id : CounterId := ⟨unit, k⟩
    let old := getCounter id c.ctr.events
    { c with ctr := { c.ctr with
        events := addCounter id (BitVec.ofNat 64 n) c.ctr.events
        overflow := if old.toNat + n < 2 ^ 64 then c.ctr.overflow else insertNat (overflowParam id) c.ctr.overflow } }

/-- A function counter of kind 0 to 6 counts `n` (R449). -/
def Chip.bumpFn (c : Chip) (kind fn : Nat) (n : Nat := 1) : Chip :=
  let k := kind * 1024 + fn
  let old := Tab.get c.ctr.functions k 0
  { c with ctr := { c.ctr with
      functions := Tab.set c.ctr.functions 0 k (old + BitVec.ofNat 64 n)
      overflow := if old.toNat + n < 2 ^ 64 then c.ctr.overflow else insertNat (pnum 0x31 (0x380 + kind) fn) c.ctr.overflow } }

/-! ### Interrupts and events -/

/-- Send an MSI-X message of a table entry. -/
def Chip.sendMsix (c : Chip) (fn v : Nat) : Chip :=
  let f := c.fn fn
  c.emit (.msix (fn / 256) fn v (Tab.get f.msixAddr v 0) (Tab.get f.msixData v 0))

/-- Signal a vector under PCIe masking (R109): lost without MSI-X Enable or Bus Master Enable, pending while masked. -/
def Chip.signal (c : Chip) (fn v : Nat) : Chip :=
  let f := c.fn fn
  if !f.msixEnable || !f.busMaster then c
  else if f.functionMask || !f.unmasked.contains v then c.updFn fn fun g => { g with pba := insertNat v g.pba }
  else c.sendMsix fn v

/-- The urgent vector of a PF (R108): sent although masked, no PBA bit; EV_SUMMARY URGENT always sets. -/
def Chip.urgent (c : Chip) (fn : Nat) : Chip :=
  let f := c.fn fn
  let c := c.updFn fn fun g => { g with evUrgent := true }
  if f.msixEnable && f.busMaster then c.sendMsix fn f.urgentVector else c

/-- The words of an event entry (R155). -/
def eventWords (code source : Nat) (time : Word) (qn detail : Nat) : List Word :=
  [mkWord [(code, 56), (source, 0)], time, mkWord [(qn, 0)], BitVec.ofNat 64 detail]

/-- An asynchronous event of a function found no valid EQ, or a full one (R107, R157). -/
def Chip.eventLost (c : Chip) (fn : Nat) : Chip :=
  (c.bumpFn 1 fn).updFn fn fun f => { f with evLost := true }

/-- The STATE word of an index block (R131). -/
def stateWord (s : QState) (cause : Nat) : BitVec 32 :=
  BitVec.ofNat 32 ((match s with | .active => 0 | .error => 1 | .destroyed => 2) * 2 ^ 24 + cause * 2 ^ 16)

/-- Put a queue in a state with a cause, and write STATE. -/
def Chip.setQState (c : Chip) (h qn : Nat) (s : QState) (cause : Nat) : Chip :=
  match c.queue? h qn with
  | none => c
  | some q => (c.putQueue h qn { q with state := s, cause := cause }).emit (.indexWrite h q.fn q.index 0x10 (stateWord s cause))

/-- An EQ goes to error (R158): STATE only. -/
def Chip.eqError (c : Chip) (h eqn cause : Nat) : Chip := c.setQState h eqn .error cause

/-- The bus address of the entry for an index of a ring (R132). -/
def slotAddr (ring logSize entry : Nat) (i : BitVec 32) : Nat := ring + i.toNat % 2 ^ logSize * entry

/-- More entries held than the ring has (R133). -/
def tooMany (logSize : Nat) (pi ci : BitVec 32) : Bool := decide (2 ^ logSize < (pi - ci).toNat)

/-- A ring is full (R132). -/
def ringFull (logSize : Nat) (pi ci : BitVec 32) : Bool := decide (2 ^ logSize ≤ (pi - ci).toNat)

/-- The CI that an index block holds when the device reads it for a full ring: host memory's, a free value (R157, R159). -/
def Chip.ciNow (c : Chip) : BitVec 32 := BitVec.ofNat 32 c.freeNow

/-- Write the next entry of an EQ: the entry, then PI; a waiting ARM signals (R138, R155). -/
def Chip.writeEvent (c : Chip) (h eqn : Nat) (q : Queue) (words : List Word) : Chip :=
  let c := c.emit (.event h q.fn eqn (slotAddr q.ring q.logSize 32 q.pi) words)
  let c := c.emit (.indexWrite h q.fn q.index 0 (q.pi + 1))
  let c := c.putQueue h eqn { q with pi := q.pi + 1, armed := false }
  if q.armed && q.vecValid then c.signal q.fn q.vector else c

/-- An asynchronous event goes to the EQ that EV_ASYNC_EQ of the function names (R107, R156 to R158);
while the function is being disabled it is dropped without trace (R199 step 2). An EQ that the last CI read shows full has
its CI read again: it may have room, still be full, or hold a bad consumer index (R133, R157, R158). -/
def Chip.postEvent (c : Chip) (fn code unit qn detail : Nat) : Chip :=
  let f := c.fn fn
  let h := fn / 256
  let words := eventWords code (c.source unit) c.tb.time qn detail
  if c.silentFn fn then c
  else match (if f.eqValid then c.queue? h f.eqn else none) with
  | none => c.eventLost fn
  | some q =>
    if q.kind ≠ .eq ∨ q.fn ≠ fn ∨ q.state ≠ .active then c.eventLost fn
    else if !ringFull q.logSize q.pi q.ci then c.writeEvent h f.eqn q words
    else
      let ci := c.ciNow
      let c := c.drawn
      if tooMany q.logSize q.pi ci then (c.eqError h f.eqn 3).eventLost fn
      else if ringFull q.logSize q.pi ci then (c.putQueue h f.eqn { q with ci := ci }).eventLost fn
      else c.writeEvent h f.eqn { q with ci := ci } words

/-- The host ports whose PF is enabled (R102: P20.010 of the PF is 1). -/
def Chip.enabledPFs (c : Chip) : List Nat :=
  (List.range c.variant.hostPorts).filter fun h => c.param 0x20 0x010 (h * 256) == 1

/-- An event to every enabled PF (R156). -/
def Chip.eventPFs (c : Chip) (code unit qn detail : Nat) : Chip :=
  c.enabledPFs.foldl (fun c h => c.postEvent (h * 256) code unit qn detail) c

/-! ### The fault collector (R452 to R473) -/

/-- The status key of a source. -/
def srcKey (unit cause : Nat) : Nat := unit * 4096 + cause

/-- A source's status. -/
def Chip.src (c : Chip) (unit cause : Nat) : Source := Tab.get c.flt.sources (srcKey unit cause) Source.init

/-- Store a source's status. -/
def Chip.setSrc (c : Chip) (unit cause : Nat) (s : Source) : Chip :=
  { c with flt := { c.flt with sources := Tab.set c.flt.sources Source.init (srcKey unit cause) s } }

/-- A source's control row (R462). -/
def Chip.control (c : Chip) (unit cause : Nat) : Nat := c.param 0x30 unit cause

/-- Order of records that close at the same instant: source number, then cause (R468). -/
def recBefore (a b : Record) : Bool :=
  a.closeAt < b.closeAt || (a.closeAt == b.closeAt &&
    (a.source < b.source || (a.source == b.source && (a.cause < b.cause || (a.cause == b.cause && a.first.toNat ≤ b.first.toNat)))))

/-- Insert into the closing order. -/
def insertRec (r : Record) : List Record → List Record
  | [] => [r]
  | x :: l => if recBefore r x then r :: x :: l else x :: insertRec r l

/-- Close a record: it takes the next RSEQ (R468). -/
def Faults.close (f : Faults) (r : Record) : Faults :=
  { f with closedRecs := f.closedRecs ++ [{ r with rseq := f.nextRseq }], nextRseq := f.nextRseq + 1 }

/-- Close every open record whose closing time has come (R468). -/
def Chip.kerfClose (c : Chip) : Chip :=
  let due := c.flt.openRecs.filter fun r => r.closeAt ≤ c.now
  let f := { c.flt with openRecs := c.flt.openRecs.filter fun r => c.now < r.closeAt }
  { c with flt := (due.foldr insertRec []).foldl Faults.close f }

/-- Record slots in use. -/
def Faults.used (f : Faults) : Nat := f.openRecs.length + f.closedRecs.length

/-- Close the record of the unrecorded occurrences in the kept slot, once a slot beside it is free (R469). -/
def Chip.closeUnrecorded (c : Chip) : Chip :=
  if c.flt.pendingUnrec = 0 ∨ c.flt.used ≥ 2047 then c
  else
    let ctl := c.control 0xC1 0x100
    let r : Record :=
      { first := c.flt.unrecFirst, last := c.flt.unrecLast, source := c.source 0xC1
        cls := bits ctl 9 3, reaction := bits ctl 0 3, pin := bitOf ctl 4, cause := 0x100
        count := c.flt.pendingUnrec, closeAt := c.now }
    { c with flt := { (c.flt.close r) with pendingUnrec := 0 } }

/-- Enter an occurrence in the collector: merge it, open a record, or count it as unrecorded (R468, R469). -/
def Chip.enterRecord (c : Chip) (unit cause skind subject : Nat) (d0 d1 : Word) : Chip :=
  let c := c.kerfClose
  let src := c.source unit
  let same (r : Record) : Bool := r.source == src && r.cause == cause && r.skind == skind && r.subject == subject
  match c.flt.openRecs.find? same with
  | some r =>
    let r' := { r with last := c.tb.time, count := r.count + 1, sat := r.count + 1 == 0xFFFFFFFF }
    if r'.sat then
      { c with flt := { c.flt with openRecs := eraseFirst same c.flt.openRecs }.close r' }
    else { c with flt := { c.flt with openRecs := mapIf same (fun _ => r') c.flt.openRecs } }
  | none =>
    if c.flt.used ≥ 2047 then
      { c with flt := { c.flt with
          unrecorded := c.flt.unrecorded + 1
          pendingUnrec := c.flt.pendingUnrec + 1
          unrecFirst := if c.flt.pendingUnrec = 0 then c.tb.time else c.flt.unrecFirst
          unrecLast := c.tb.time } }
    else
      let ctl := c.control unit cause
      let r : Record :=
        { first := c.tb.time, last := c.tb.time, source := src, cls := bits ctl 9 3, reaction := bits ctl 0 3
          pin := bitOf ctl 4, cause := cause, skind := skind, subject := subject, detail0 := d0, detail1 := d1
          closeAt := c.now + 1000 * c.param 0x30 0xF00 0 }
      { c with flt := { c.flt with openRecs := c.flt.openRecs ++ [r] } }

/-- DETAIL1 as the record shows it: transport causes 0x100 and 0x101 give the peer channels failed (R467). -/
def recDetail1 (r : Record) : Word :=
  if r.source % 4096 = 0xA3 ∧ (r.cause = 0x100 ∨ r.cause = 0x101) then BitVec.ofNat 64 r.count else r.detail1

/-- The eight words of a record (R465). -/
def recWords (r : Record) : List Word :=
  [r.first, r.last,
    mkWord [(r.source, 37), (r.cls, 34), (r.reaction, 31), (natOfBool r.sat, 30), (natOfBool r.pin, 29),
      (r.rseq.toNat % 4096, 16), (r.cause, 0)],
    mkWord [(r.skind, 60), (r.subject, 0)],
    mkWord [(r.count, 32), (r.rseq.toNat, 0)],
    r.detail0, recDetail1 r, 0]

/-- The unit of a source number. -/
def unitOfSource (n : Nat) : Nat := n % 4096

/-- Set HELD in the status rows of all sources of a unit (R459). -/
def Chip.setHeld (c : Chip) (unit : Nat) (on : Bool) : Chip :=
  (([1, 2, 3, 4] ++ (List.range (causesOf unit - 4)).map (0x100 + ·))).foldl
    (fun c k => c.setSrc unit k { c.src unit k with held := on }) c

/-- Block resets of the unit by reaction within P30.F04 seconds (R459). -/
def Chip.recentResets (c : Chip) (unit : Nat) : Nat :=
  (c.flt.resets.filter fun r => r.1 == unit && c.now < r.2 + 1000000000 * c.param 0x30 0xF04 0).length

/-- A source of reaction 1 signals EV_FAULT of each routed PF (R461). -/
def Chip.routeFault (c : Chip) : Chip :=
  (List.range c.variant.hostPorts).foldl
    (fun c h =>
      let f := c.fn (h * 256)
      if bitOf (c.param 0x30 0xF02 0) h && f.faultEnable then
        (c.updFn (h * 256) fun g => { g with evFault := true }).signal (h * 256) f.faultVector
      else c) c

/-- A source of reaction 2 signals the urgent vector of every PF that enables it (R455, R108). -/
def Chip.urgentAll (c : Chip) : Chip :=
  (List.range c.variant.hostPorts).foldl
    (fun c h => if (c.fn (h * 256)).urgentEnable then c.urgent (h * 256) else c) c

/-- Count an occurrence: OCCUR saturates, PEND sets (R462). -/
def Source.occurs (s : Source) : Source :=
  { s with occur := if s.occur < 0xFFFFFFFF then s.occur + 1 else s.occur, pend := true }

/-- The device-fault event of a source (R461). -/
def deviceFault (unit cause : Nat) : Nat := cause * 2 ^ 16 + unit

/-- Collector cause 0x101: a unit is held (R459). An event source of default reaction 1. -/
def Chip.unitHeldOccurs (c : Chip) (unit : Nat) : Chip :=
  let s := c.src 0xC1 0x101
  let c := (c.setSrc 0xC1 0x101 s.occurs).enterRecord 0xC1 0x101 11 unit 0 0
  let ctl := c.control 0xC1 0x101
  if s.pend then c
  else if bits ctl 0 3 = 1 then if bitOf ctl 5 then c.routeFault else c
  else if bits ctl 0 3 = 2 then c.urgentAll.eventPFs 0x09 0xC1 0 (deviceFault 0xC1 0x101)
  else c

/-- Reaction 3 (R455, R457, R459): the unit's block reset is decided, or the unit is held after too many. -/
def Chip.reaction3 (c : Chip) (unit cause : Nat) (pended : Bool) : Chip :=
  let c := if pended then c else c.eventPFs 0x09 unit 0 (deviceFault unit cause)
  if c.flt.inReset.contains unit || c.flt.heldUnits.contains unit then c
  else if c.recentResets unit ≥ c.param 0x30 0xF03 0 then
    let c := c.setHeld unit true
    let c := { c with flt := { c.flt with heldUnits := insertNat unit c.flt.heldUnits } }
    let c := if pended then c.eventPFs 0x09 unit 0 (deviceFault unit cause) else c
    let c := c.unitHeldOccurs unit
    { c with flt := { c.flt with due := c.flt.due ++ [unit] } }
  else
    { c with flt := { c.flt with
        inReset := insertNat unit c.flt.inReset
        due := c.flt.due ++ [unit]
        resets := (unit, c.now) :: c.flt.resets } }

/-- Reaction 4 (R455, R473): the record is closed as it stands, copied to P30.F30, and a chip reset is decided. An occurrence that no open
record has taken is copied with its own details (R469). -/
def Chip.reaction4 (c : Chip) (unit cause skind subject : Nat) (d0 d1 : Word) : Chip :=
  let src := c.source unit
  let same (r : Record) : Bool := r.source == src && r.cause == cause && r.skind == skind && r.subject == subject
  let c := match c.flt.openRecs.find? same with
    | some r =>
      { c with flt := ({ c.flt with openRecs := eraseFirst same c.flt.openRecs }).close r
               boot := { c.boot with lastFatal := recWords { r with rseq := c.flt.nextRseq } } }
    | none =>
      let ctl := c.control unit cause
      let r : Record :=
        { first := c.tb.time, last := c.tb.time, source := src, cls := bits ctl 9 3, reaction := bits ctl 0 3
          pin := bitOf ctl 4, cause := cause, skind := skind, subject := subject, detail0 := d0, detail1 := d1
          rseq := c.flt.nextRseq }
      { c with boot := { c.boot with lastFatal := recWords r } }
  { c with flt := { c.flt with resetDue := true }, boot := { c.boot with fatalReset := true } }

/-- What an occurrence's reaction does (R455, R457); `pended` says that PEND was already 1. -/
def Chip.react (c : Chip) (unit cause skind subject : Nat) (d0 d1 : Word) (pended : Bool) : Chip :=
  let ctl := c.control unit cause
  match bits ctl 0 3 with
  | 1 => if pended || !bitOf ctl 5 then c else c.routeFault
  | 2 => if pended then c else c.urgentAll.eventPFs 0x09 unit 0 (deviceFault unit cause)
  | 3 => c.reaction3 unit cause pended
  | 4 => c.reaction4 unit cause skind subject d0 d1
  | _ => c

/-- One occurrence of a source of a present unit (R455); a unit in block reset registers none of its own (R458). -/
def Chip.occurrence (c : Chip) (unit cause skind subject : Nat) (d0 d1 : Word) : Chip :=
  if !unitPresent c.variant unit || !isCause unit cause || c.flt.inReset.contains unit || c.flt.heldUnits.contains unit then c
  else
    let s := c.src unit cause
    let c := (c.setSrc unit cause s.occurs).enterRecord unit cause skind subject d0 d1
    c.react unit cause skind subject d0 d1 s.pend

/-- An event source occurs (R454). -/
def Chip.raise (c : Chip) (unit cause skind subject : Nat) (d0 : Word := 0) (d1 : Word := 0) : Chip :=
  c.occurrence unit cause skind subject d0 d1

/-- A condition source: its change from absent to present is one occurrence (R454). -/
def Chip.setCond (c : Chip) (unit cause : Nat) (on : Bool) (skind subject : Nat) (d0 : Word := 0) : Chip :=
  if !unitPresent c.variant unit then c
  else
    let s := c.src unit cause
    if on == s.now then c
    else
      let c' := c.setSrc unit cause { s with now := on }
      if on then c'.occurrence unit cause skind subject d0 0 else c'

/-- Whether some source with PIN 1 has PEND 1 (R460). -/
def Chip.pinned (c : Chip) : Bool :=
  c.flt.sources.any fun r => r.2.pend && bitOf (c.control (r.1 / 4096) (r.1 % 4096)) 4

/-- FAULT_N as the device drives it (R460, R478). -/
def Chip.faultN (c : Chip) : Bool := c.pinned || c.boot.fatalReset || c.boot.faultInRecovery

end Sys2Proof.Machine
end

