-- ==== Sys2Proof/Machine/Operands.lean ====
section
/-! DEFINITION. The fields of work entries and packets: every operand form the spec gives them, read and built. -/

namespace Sys2Proof

/-! ### Native work entries (R139 to R145) -/

/-- OPCODE (R140). -/
def Entry.opcode (e : Entry) : Nat := e.w0.field 63 56
/-- FENCE. -/
def Entry.fence (e : Entry) : Bool := e.w0.getLsbD 55
/-- SOLICIT. -/
def Entry.solicit (e : Entry) : Bool := e.w0.getLsbD 54
/-- SIGNAL. -/
def Entry.signal (e : Entry) : Bool := e.w0.getLsbD 53
/-- INLINE. -/
def Entry.isInline (e : Entry) : Bool := e.w0.getLsbD 52
/-- HELD. -/
def Entry.held (e : Entry) : Bool := e.w0.getLsbD 51
/-- CLASS, 0 to 3. -/
def Entry.cls (e : Entry) : Nat := e.w0.field 47 46
/-- DEST, the destination endpoint. -/
def Entry.dest (e : Entry) : Nat := e.w0.field 40 24
/-- DQN. -/
def Entry.dqn (e : Entry) : Nat := e.w0.field 23 0
/-- WRID. -/
def Entry.wrid (e : Entry) : BitVec 32 := BitVec.ofNat 32 (e.w1.field 63 32)
/-- LENGTH. -/
def Entry.length (e : Entry) : Nat := e.w1.field 31 0
/-- TCTR of a held entry. -/
def Entry.tctr (e : Entry) : Nat := e.w7.field 63 48
/-- THRESH of a held entry. -/
def Entry.thresh (e : Entry) : BitVec 48 := BitVec.ofNat 48 (e.w7.field 47 0)
/-- MCTX of a TAGGED SEND (R141). -/
def Entry.mctx (e : Entry) : Nat := e.w2.field 63 44
/-- MATCH of a TAGGED SEND. -/
def Entry.matchBits (e : Entry) : Word := e.w3
/-- LADDR of the message and write groups. -/
def Entry.laddr (e : Entry) : Nat := e.w4.toNat
/-- LKEY of the message and write groups. -/
def Entry.lkey (e : Entry) : BitVec 32 := BitVec.ofNat 32 (e.w5.field 63 32)
/-- ROFFSET (R142, R143). -/
def Entry.roffset (e : Entry) : Nat := e.w2.field 63 16
/-- RKEY of the write and read group. -/
def Entry.rkey (e : Entry) : BitVec 32 := BitVec.ofNat 32 (e.w3.field 63 32)
/-- IMM of WRITE-WITH-NOTIFY. -/
def Entry.imm (e : Entry) : BitVec 32 := BitVec.ofNat 32 (e.w3.field 31 0)
/-- RKEY of the atomic group (R143). -/
def Entry.akey (e : Entry) : BitVec 32 := BitVec.ofNat 32 (e.w1.field 31 0)
/-- The remote trigger counter of a COUNT. -/
def Entry.rctr (e : Entry) : Nat := e.w1.field 15 0
/-- The increment of a COUNT. -/
def Entry.inc (e : Entry) : Nat := e.w3.field 47 0
/-- The inline data: bytes 32 to 63, or to 55 of a held entry (R141). -/
def Entry.inlineData (e : Entry) : List Byte :=
  (e.w4.le ++ e.w5.le ++ e.w6.le ++ e.w7.le).take e.length
/-- The longest inline data (R141). -/
def Entry.inlineLimit (e : Entry) : Nat := if e.held then 24 else 32

/-- MCTX of a TAGGED RECV (R144). -/
def Entry.rMctx (e : Entry) : Nat := e.w0.field 47 28
/-- LADDR of a receive entry. -/
def Entry.rLaddr (e : Entry) : Nat := e.w2.toNat
/-- LKEY of a receive entry. -/
def Entry.rLkey (e : Entry) : BitVec 32 := BitVec.ofNat 32 (e.w3.field 63 32)
/-- SRCID of a receive entry. -/
def Entry.srcid (e : Entry) : BitVec 32 := BitVec.ofNat 32 (e.w3.field 31 0)
/-- MATCH of a receive entry. -/
def Entry.rMatch (e : Entry) : Word := e.w4
/-- IGNORE of a receive entry. -/
def Entry.ignore (e : Entry) : Word := e.w5
/-- SRCMASK of a receive entry. -/
def Entry.srcmask (e : Entry) : BitVec 32 := BitVec.ofNat 32 (e.w6.field 63 32)

/-- QTYPE of a CREATE (R145). -/
def Entry.qtype (e : Entry) : Nat := e.w0.field 47 40
/-- LOGSIZE of a CREATE. -/
def Entry.logsize (e : Entry) : Nat := e.w0.field 39 35
/-- VENEER of a CREATE. -/
def Entry.veneer (e : Entry) : Bool := e.w0.getLsbD 34
/-- CQN of a CREATE. -/
def Entry.cqn (e : Entry) : Nat := e.w1.field 23 0
/-- SPROC of a CREATE. -/
def Entry.sproc (e : Entry) : Nat := e.w5.field 63 49
/-- VCLASS of a CREATE. -/
def Entry.vclass (e : Entry) : Nat := e.w5.field 48 47
/-- VLKEY of a CREATE. -/
def Entry.vlkey (e : Entry) : BitVec 32 := BitVec.ofNat 32 (e.w5.field 31 0)
/-- VECVALID of a CREATE. -/
def Entry.vecValid (e : Entry) : Bool := e.w6.getLsbD 11
/-- VECTOR of a CREATE. -/
def Entry.vector (e : Entry) : Nat := e.w6.field 10 0

/-- The traffic class of CLASS: TC2, TC4 or TC6 (R139). -/
def classTC (cls : Nat) : Nat := 2 + 2 * cls

/-! ### Veneer entries (R147) -/

/-- OWN. -/
def VEntry.own (v : VEntry) : Bool := v.vw0.getLsbD 63
/-- VOP. -/
def VEntry.vop (v : VEntry) : Nat := v.vw0.field 62 56
/-- WRID. -/
def VEntry.wrid (v : VEntry) : BitVec 32 := BitVec.ofNat 32 (v.vw1.field 63 32)
/-- LENGTH. -/
def VEntry.length (v : VEntry) : Nat := v.vw1.field 31 0
/-- LOFFSET. -/
def VEntry.loffset (v : VEntry) : Nat := v.vw2.field 63 16

/-- The native opcode a VOP stands for; codes of no operation give 0, which is malformed. -/
def veneerOpcode (vop : Nat) : Nat :=
  match vop with
  | 0x00 => 0x41 | 0x01 => 0x01 | 0x08 => 0x10 | 0x10 => 0x20 | _ => 0

/-- The native entry of a Veneer entry under the queue's VCLASS and VLKEY. LADDR becomes the offset within the region of
VLKEY; `laddr` is the local address that this offset names. -/
def VEntry.native (v : VEntry) (vclass : Nat) (vlkey : BitVec 32) (laddr : Nat) : Entry :=
  { w0 := mkWord [(veneerOpcode v.vop, 56), (v.vw0.field 55 53, 53), (vclass, 46), (v.vw0.field 40 24, 24),
      (v.vw0.field 23 0, 0)]
    w1 := v.vw1
    w2 := mkWord [(v.vw3.field 31 0, 16)]
    w3 := mkWord [(v.vw3.field 63 32, 32)]
    w4 := BitVec.ofNat 64 laddr
    w5 := mkWord [(vlkey.toNat, 32)] }

/-! ### Packets: the routing header (R81) -/

/-- Routing header word 0. -/
def Packet.hdr0 (p : Packet) : Word :=
  mkWord [(p.vc.toNat, 59), (p.tc.toNat, 56), (p.len.toNat, 49), (p.hops.toNat, 45), (natOfBool p.ord, 44),
    (natOfBool p.nmin, 43), (natOfBool p.ecn, 42), (natOfBool p.spec, 41), (p.kind.toNat, 34), (p.dst.toNat, 17),
    (p.src.toNat, 0)]

/-- Routing header word 1. -/
def Packet.hdr1 (p : Packet) : Word := mkWord [(p.igrp.toNat, 54), (p.rsvd.toNat, 48), (p.injt.toNat, 0)]

/-- The destination chip id. -/
def Packet.dstChip (p : Packet) : Nat := p.dst.toNat / 4
/-- The destination host port. -/
def Packet.dstPort (p : Packet) : Nat := p.dst.toNat % 4
/-- The source chip id. -/
def Packet.srcChip (p : Packet) : Nat := p.src.toNat / 4
/-- A shim kind: carried in one cell with a shim check (R96). -/
def Packet.isShim (p : Packet) : Bool := 0x40 ≤ p.kind.toNat
/-- A broadcast kind (R85). -/
def Packet.isBroadcast (p : Packet) : Bool := p.kind.toNat == 0x50 || p.kind.toNat == 0x51
/-- A tree kind (R94). -/
def Packet.isTree (p : Packet) : Bool := p.kind.toNat == 0x10 || p.kind.toNat == 0x11

/-- The VC of a class at a level (R86); the tree classes are not levelled. -/
def vcOf (tc level kind : Nat) : Nat :=
  match tc with
  | 0 => level
  | 1 => if kind = 0x10 then 3 else 4
  | _ => 5 + 3 * (tc - 2) + level

/-- The class of a VC (R86). -/
def tcOfVc (vc : Nat) : Nat := if vc < 3 then 0 else if vc < 5 then 1 else 2 + (vc - 5) / 3

/-- The level of a VC of a levelled class. -/
def levelOfVc (vc : Nat) : Nat := if vc < 3 then vc else if vc < 5 then 0 else (vc - 5) % 3

/-- LEN from the payload length (R80). -/
def lenOf (shim : Bool) (n : Nat) : Nat := if shim then 1 else divUp (68 + n) 64

/-- The 32 bytes of transport header or shim payload. -/
def Packet.body (p : Packet) : List Byte := p.w0.be ++ p.w1.be ++ p.w2.be ++ p.w3.be

/-- The packet with VC, HOPS, NMIN, ECN and IGRP taken as zero, as its checks see it (R98). -/
def Packet.masked (p : Packet) : Packet := { p with vc := 0, hops := 0, nmin := false, ecn := false, igrp := 0 }

/-- The bytes the check covers (R98). -/
def Packet.checked (p : Packet) : List Byte := p.masked.hdr0.be ++ p.masked.hdr1.be ++ p.body ++ p.payload

/-- The check of the packet: shim check or end check (R96, R98). -/
def Packet.checkValue (p : Packet) : Word :=
  if p.isShim then BitVec.ofNat 64 (crc32c p.checked).toNat else crc64 p.checked

/-- The packet with its check computed. -/
def Packet.sealed (p : Packet) : Packet := { p with check := p.checkValue }

/-- The carried check is right. -/
def Packet.checkOk (p : Packet) : Bool := p.check == p.checkValue

/-- A packet as the injecting chip writes it (R82); INJT is written when it enters the router core. -/
def newPacket (tc kind dst src : Nat) (ord : Bool) (w0 w1 w2 w3 : Word) (payload : List Byte) : Packet :=
  ({ vc := BitVec.ofNat 5 (vcOf tc 0 kind), tc := BitVec.ofNat 3 tc
     len := BitVec.ofNat 7 (lenOf (decide (0x40 ≤ kind)) payload.length)
     ord := ord, kind := BitVec.ofNat 7 kind, dst := BitVec.ofNat 17 dst, src := BitVec.ofNat 17 src
     igrp := BitVec.ofNat 10 (dst / 128), w0 := w0, w1 := w1, w2 := w2, w3 := w3, payload := payload } : Packet)

/-! ### The transport header (R89 to R95) -/

/-- OPCODE. -/
def Packet.opcode (p : Packet) : Nat := p.w0.field 63 56
/-- LAST. -/
def Packet.last (p : Packet) : Bool := p.w0.getLsbD 55
/-- SOLICIT. -/
def Packet.solicit (p : Packet) : Bool := p.w0.getLsbD 54
/-- RETX. -/
def Packet.retx (p : Packet) : Bool := p.w0.getLsbD 53
/-- ECNE of a response. -/
def Packet.ecne (p : Packet) : Bool := p.w0.getLsbD 55
/-- PSN of a request. -/
def Packet.psn (p : Packet) : BitVec 24 := BitVec.ofNat 24 (p.w1.field 63 40)
/-- PIDX. -/
def Packet.pidx (p : Packet) : Nat := p.w1.field 39 20
/-- PCNT. -/
def Packet.pcnt (p : Packet) : Nat := p.w1.field 19 0
/-- MSGID. -/
def Packet.msgid (p : Packet) : BitVec 32 := BitVec.ofNat 32 (p.w2.field 63 32)
/-- MCTX of a message request. -/
def Packet.mctx (p : Packet) : Nat := p.w0.field 47 28
/-- SPROC of a message request. -/
def Packet.sproc (p : Packet) : Nat := p.w0.field 27 13
/-- DQN of a message request. -/
def Packet.dqn (p : Packet) : Nat := p.w2.field 23 0
/-- MATCH of a message request. -/
def Packet.matchBits (p : Packet) : Word := p.w3
/-- OFFSET of a write, read or atomic request. -/
def Packet.offset (p : Packet) : Nat := p.w0.field 47 0
/-- KEY. -/
def Packet.key (p : Packet) : BitVec 32 := BitVec.ofNat 32 (p.w2.field 31 0)
/-- IMM. -/
def Packet.imm (p : Packet) : BitVec 32 := BitVec.ofNat 32 (p.w3.field 63 32)
/-- DQN of a WRITE-WITH-NOTIFY. -/
def Packet.notifyQn (p : Packet) : Nat := p.w3.field 23 0
/-- The length of a READ: 0 stands for 2,147,483,648 (R91). -/
def Packet.readLen (p : Packet) : Nat := let n := p.w3.field 63 32; if n = 0 then 2147483648 else n
/-- INC of a COUNT. -/
def Packet.inc (p : Packet) : Nat := p.w3.field 47 0
/-- The trigger counter of a COUNT. -/
def Packet.counter (p : Packet) : Nat := p.w2.field 15 0
/-- RPSN of a response (R93). -/
def Packet.rpsn (p : Packet) : BitVec 24 := BitVec.ofNat 24 (p.w0.field 47 24)
/-- STATUS of an ERROR. -/
def Packet.status (p : Packet) : Nat := p.w0.field 7 0
/-- SBASE of an ACK. -/
def Packet.sbase (p : Packet) : BitVec 24 := BitVec.ofNat 24 (p.w1.field 63 40)
/-- SMAP of an ACK: bits 127 to 96 in W2, 95 to 32 in W3, 31 to 0 in the payload (R93). -/
def Packet.smap (p : Packet) : Nat :=
  p.w2.field 31 0 * 2 ^ 96 + p.w3.toNat * 2 ^ 32 + natBE (p.payload.take 4)
/-- The source identity of a message: SRC and SPROC (R90). -/
def Packet.identity (p : Packet) : BitVec 32 := BitVec.ofNat 32 (p.src.toNat * 2 ^ 15 + p.sproc)

/-- The opcodes allowed with a request kind (R85). -/
def kindAllows (kind opcode : Nat) : Bool :=
  match kind with
  | 0x01 => opcode == 1 || opcode == 2 || opcode == 3
  | 0x02 => opcode == 0x10 || opcode == 0x11
  | 0x03 => opcode == 0x20
  | 0x04 => 0x30 ≤ opcode && opcode ≤ 0x33
  | 0x05 => opcode == 0x40 || opcode == 0x41
  | 0x08 => opcode == 0x80 || opcode == 0x81
  | 0x09 => opcode == 0x82
  | 0x0A => opcode == 0x83
  | 0x0B => opcode == 0x84
  | _ => false

/-- The kind of a request opcode. -/
def kindOf (opcode : Nat) : Nat :=
  if opcode < 0x10 then 1 else if opcode < 0x20 then 2 else if opcode = 0x20 then 3 else if opcode < 0x40 then 4 else 5

/-- KIND is reserved, or not allowed with its TC (R85, R97). -/
def kindBad (kind tc vc : Nat) : Bool :=
  if 1 ≤ kind && kind ≤ 5 then !(tc == 2 || tc == 4 || tc == 6)
  else if 8 ≤ kind && kind ≤ 0x0B then !(tc == 3 || tc == 5 || tc == 7)
  else if kind == 0x10 then !(tc == 1 && vc == 3)
  else if kind == 0x11 then !(tc == 1 && vc == 4)
  else if (0x40 ≤ kind && kind ≤ 0x44) || kind == 0x50 || kind == 0x51 then tc != 0
  else true

/-- The payload a single-packet request opcode must have (R90, R92); none for the others. -/
def singlePayload (opcode : Nat) : Option Nat :=
  match opcode with
  | 0x03 => some 16
  | 0x20 => some 0
  | 0x30 => some 8
  | 0x31 => some 8
  | 0x32 => some 16
  | 0x33 => some 32
  | 0x40 => some 0
  | 0x41 => some 0
  | _ => none

/-- Packets of a message of L bytes (R95). -/
def packetsOf (len : Nat) : Nat := max 1 (divUp len 4096)

/-- The payload length of packet k of a message of L bytes (R95). -/
def payloadLen (len k : Nat) : Nat := if k + 1 < packetsOf len then 4096 else len - 4096 * (packetsOf len - 1)

/-- A malformed request (R99 step 3). -/
def Packet.malformed (p : Packet) : Bool :=
  !kindAllows p.kind.toNat p.opcode || p.pcnt == 0 || 524288 < p.pcnt || p.pcnt ≤ p.pidx ||
  (p.last != (p.pidx + 1 == p.pcnt)) || (p.pidx + 1 != p.pcnt && p.payload.length != 4096) ||
  4096 < p.payload.length ||
  (match singlePayload p.opcode with
    | some n => p.pcnt != 1 || p.payload.length != n
    | none => false)

/-- The words of a request header (R89); `lo` gives W0 [47:0], `lo2` W2 [31:0]. -/
def requestWords (opcode : Nat) (last solicit : Bool) (psn : BitVec 24) (pidx pcnt : Nat) (msgid : BitVec 32)
    (lo : Nat) (lo2 : Nat) (w3 : Word) : Word × Word × Word × Word :=
  (mkWord [(opcode, 56), (natOfBool last, 55), (natOfBool solicit, 54), (lo, 0)],
   mkWord [(psn.toNat, 40), (pidx, 20), (pcnt, 0)], mkWord [(msgid.toNat, 32), (lo2, 0)], w3)

/-- A response packet (R93): it travels one class above its request (R88). -/
def responsePacket (tc dst src opcode : Nat) (ecne : Bool) (rpsn : BitVec 24) (status : Nat) (w1 w2 w3 : Word)
    (payload : List Byte) : Packet :=
  let kind := match opcode with | 0x80 => 0x08 | 0x81 => 0x08 | 0x82 => 0x09 | 0x83 => 0x0A | _ => 0x0B
  newPacket tc kind dst src false (mkWord [(opcode, 56), (natOfBool ecne, 55), (rpsn.toNat, 24), (status, 0)]) w1 w2 w3
    payload

/-- The packet as retransmitted: RETX set (R89). -/
def Packet.withRetx (p : Packet) : Packet := { p with w0 := p.w0 ||| BitVec.ofNat 64 (2 ^ 53) }

/-! ### Tree packets (R94) -/

/-- TREE. -/
def Packet.tree (p : Packet) : Nat := p.w0.field 39 20
/-- FLAGS of a tree packet. -/
def Packet.flags (p : Packet) : Nat := p.w0.field 55 48
/-- DTYPE. -/
def Packet.dtype (p : Packet) : Nat := p.w0.field 47 44
/-- REDOP. -/
def Packet.redop (p : Packet) : Nat := p.w0.field 43 40
/-- CSEQ. -/
def Packet.cseq (p : Packet) : BitVec 32 := BitVec.ofNat 32 (p.w1.field 63 32)
/-- SEG. -/
def Packet.seg (p : Packet) : Nat := p.w1.field 31 14
/-- SCNT: 0 stands for 262,144. -/
def Packet.scnt (p : Packet) : Nat := let n := p.w2.field 63 46; if n = 0 then 262144 else n
/-- PRUNED. -/
def Packet.pruned (p : Packet) : Nat := p.w2.field 45 29

/-! ### The shim payload of a dictionary request (R65) -/

/-- OP. -/
def Packet.shimOp (p : Packet) : Nat := p.w0.field 63 56
/-- TAG. -/
def Packet.shimTag (p : Packet) : Nat := p.w0.field 47 32
/-- PARAM. -/
def Packet.shimParam (p : Packet) : BitVec 32 := BitVec.ofNat 32 (p.w0.field 31 0)
/-- FINAL. -/
def Packet.shimFinal (p : Packet) : Bool := p.w1.getLsbD 63
/-- CHUNK. -/
def Packet.shimChunk (p : Packet) : Nat := p.w1.field 62 48
/-- VALUE_LEN. -/
def Packet.shimLen (p : Packet) : Nat := p.w1.field 31 0
/-- The 16 data bytes. -/
def Packet.shimData (p : Packet) : List Byte := p.w2.be ++ p.w3.be

end Sys2Proof

namespace Sys2Proof.Machine

/-- A packet has been accepted by an input of the router core and waits to be routed (R314). -/
def Chip.arrive (c : Chip) (inp : Nat) (p : Packet) (pool : Bool) : Chip :=
  let a : Arrival := { inp := inp, pkt := p, pool := pool, id := c.rt.nextId }
  { c with rt := { c.rt with arrivals := c.rt.arrivals ++ [a], nextId := c.rt.nextId + 1 } }

/-- The packet with INJT written and its check computed (R82). -/
def Chip.stamped (c : Chip) (p : Packet) : Packet := ({ p with injt := BitVec.ofNat 48 c.tb.time.toNat } : Packet).sealed

/-- A packet enters the router core at the host-side port of `h` (R82): INJT is the fabric time of that moment. -/
def Chip.inject (c : Chip) (h : Nat) (p : Packet) : Chip := c.arrive (60 + h) (c.stamped p) true

/-- A shim packet that the chip itself originates: SRC is its H0 endpoint (R82). -/
def Chip.injectShim (c : Chip) (kind dst : Nat) (w0 w1 w2 w3 : Word) : Chip :=
  c.inject 0 (newPacket 0 kind dst (c.endpoint 0) false w0 w1 w2 w3 [])

end Sys2Proof.Machine
end

