-- ==== Sys2Proof/Machine/CodingOps.lean ====
section
/-! DEFINITION. The line coding of the serial lanes: scrambler, FEC framing, PAM4 symbols, markers, fillers, striping and deskew
(R409 to R417, R422, R424). -/

namespace Sys2Proof

/-! ### Scrambler (R413) -/

/-- The lengths of the pieces in which 256 payload bits are scrambled: no bit depends on one sent fewer than 39 bits earlier. -/
def scrambleCuts : List Nat := [39, 39, 39, 39, 39, 39, 22]

/-- Scramble payload bits, the first as bit 0, after the 58 bits sent before, the latest as bit 57: the bits sent, and the 58 latest
of them. -/
def scramblePieces : List Nat → Nat → Nat → Nat × Nat
  | [], h, _ => (0, h)
  | n :: r, h, d =>
    let o := (d ^^^ h ^^^ (h >>> 19)) % 2 ^ n
    let rest := scramblePieces r ((h + o * 2 ^ 58) / 2 ^ n) (d / 2 ^ n)
    (o + rest.1 * 2 ^ n, rest.2)

/-- Scramble the 256 payload bits of a block. -/
def scrambled (h d : Nat) : Nat × Nat := scramblePieces scrambleCuts h d

/-- Descramble the 256 payload bits of a block after the 58 received before: the bits, and the 58 latest received. -/
def descrambled (h r : Nat) : Nat × Nat :=
  let all := h + r * 2 ^ 58
  ((r ^^^ (all >>> 19) ^^^ all) % 2 ^ 256, all / 2 ^ 256)

/-! ### FEC (R415) -/

/-- g(x) without its highest term: 28 symbols of ten bits, the coefficient of x^i at bit 10 i. -/
def rsGenerator : Nat := 0x23fc1eda913c10677a7e0ad5d088c6bf82d2b5a19a53c783c4e369085c8ffcf3ac435e

/-- The highest bit of each of 28 symbols. -/
def rsTops : Nat := 512 * ((2 ^ 280 - 1) / 1023)

/-- 28 symbols, each multiplied by α in GF(2^10) with x^10 + x^3 + 1. -/
def rsTimesAlpha (v : Nat) : Nat :=
  let t := v &&& rsTops
  ((v ^^^ t) * 2) ^^^ (t / 512 * 9)

/-- 28 symbols, each multiplied by the symbol `f`, whose bits are taken from the highest one down. -/
def rsScale (v f : Nat) : Nat :=
  [9, 8, 7, 6, 5, 4, 3, 2, 1, 0].foldl (fun a i => if f.testBit i then rsTimesAlpha a ^^^ v else rsTimesAlpha a) 0

/-- One message symbol enters the remainder. -/
def rsStep (rem m : Nat) : Nat :=
  ((rem * 1024) % 2 ^ 280) ^^^ rsScale rsGenerator (m ^^^ (rem / 2 ^ 270))

/-- The remainder after `n` message symbols of ten bits, the first as the lowest bits. -/
def rsRemainder (bits : Nat) : Nat → Nat
  | 0 => 0
  | n + 1 => rsStep (rsRemainder bits n) (bits / 2 ^ (10 * n) % 1024)

/-- The parity as bits in the order sent: the symbol of highest degree first, each bit 0 first. -/
def rsParityBits (rem : Nat) : Nat :=
  (List.range 28).foldl (fun a i => a + rem / 2 ^ (10 * (27 - i)) % 1024 * 2 ^ (10 * i)) 0

/-- The parity of a codeword of 4 blocks, eight zero bits ahead of its bits, or of 20 blocks (R414, R415). -/
def fecParity (bits : Nat) (marker : Bool) : Nat :=
  rsParityBits (if marker then rsRemainder (bits * 256) 104 else rsRemainder bits 516)

/-! ### Symbols (R409, R424) -/

/-- A pair of bits, the first one more significant, as a symbol 0 to 3 for the levels −3, −1, +1 and +3. -/
def graySymbol (first second : Bool) : Nat := if first then (if second then 2 else 3) else natOfBool second

/-- The symbols of `n` pairs of bits, the first sent as bit 0. -/
def symbolsOf : Nat → Nat → List Nat
  | 0, _ => []
  | n + 1, b => graySymbol (b.testBit 0) (b.testBit 1) :: symbolsOf n (b / 4)

/-- 1/(1 + D) precoding modulo 4 after the symbol sent before. -/
def precoded (last : Nat) : List Nat → List Nat
  | [] => []
  | x :: r => let y := (x + 4 - last) % 4; y :: precoded y r

/-- The PAM4 level of a symbol. -/
def levelOf (x : Nat) : Int := 2 * (x : Int) - 3

/-! ### Test patterns (R429) -/

/-- The next bit of PRBS31 (code 1) or PRBS13Q (code 2) after the bits sent before, the latest as bit 0: as many bits back as the
polynomial's powers. -/
def prbsNext (code h : Nat) : Bool :=
  if code = 1 then h.testBit 27 ^^ h.testBit 30 else h.testBit 0 ^^ h.testBit 1 ^^ h.testBit 11 ^^ h.testBit 12

/-- The next `n` symbols of a PRBS: its bits in pairs under the Gray mapping. -/
def prbsSymbols (code : Nat) : Nat → Nat → List Nat
  | _, 0 => []
  | h, n + 1 =>
    let a := prbsNext code h
    let h := 2 * h + natOfBool a
    let b := prbsNext code h
    graySymbol a b :: prbsSymbols code ((2 * h + natOfBool b) % 2 ^ 31) n

/-- Symbol `i` of a square wave: HALFPERIOD symbols at +3, then as many at −3. -/
def squareSymbol (half i : Nat) : Nat := if i % (2 * max 1 half) < half then 3 else 0

/-- `n` symbols of a generator pattern: a PRBS goes on from its 31 bits `h`, a square wave from its start. -/
def patternSymbols (code half h n : Nat) : List Nat :=
  if code = 3 then (List.range n).map (squareSymbol half) else prbsSymbols code h n

/-! ### Blocks (R410 to R412, R414, R422) -/

/-- The bits of a block: header first bit first, then the scrambled payload (R410). -/
def blockBits (ctl : Bool) (payload : Nat) : Nat := (if ctl then 1 else 2) + 4 * payload

/-- A control block with nothing behind its type code. -/
def emptyControl (code : Byte) : PortBlock := { ctl := true, bytes := code :: zeros 31 }

/-- The alignment marker of a lane (R412). -/
def markerBlock (lane : Nat) (pcount : BitVec 32) : PortBlock :=
  { ctl := true, bytes := [0x4B, BitVec.ofNat 8 (lane % 2 * 128 + lane % 128)] ++ bytesBE 4 pcount.toNat ++ zeros 26 }

/-- The slots of a period that carry fillers (R422). -/
def fillerSlot (k : Nat) : Bool := k == 2048 || k == 6144 || k == 10240 || k == 14336

/-- Blocks of a period before the present codeword began, within it (R414). -/
def blockOfCodeword (slot : Nat) : Nat := if slot < 4 then slot else (slot - 4) % 20

/-- Blocks of the codeword in which a slot lies (R414). -/
def codewordSize (slot : Nat) : Nat := if slot < 4 then 4 else 20

/-- Blocks of a marker period. -/
def periodBlocks : Nat := 16384

/-- A control block type code that R411 lists. -/
def listedCode (b : Byte) : Bool := b == 0x1E || b == 0x2D || b == 0x4B || b == 0x55 || b == 0x66 || b == 0x78

/-- A block as its type code reads: while the polarity is undecided, a block whose code is the complement of a listed one is taken
with its polarity turned (R411, R394). -/
def PortBlock.read (b : PortBlock) (undecided : Bool) : PortBlock :=
  let code := b.bytes.headD 0
  if undecided && !listedCode code && listedCode (~~~code) then { b with ctl := true, bytes := b.bytes.map fun x => ~~~x } else b

/-- A control block of a type. -/
def PortBlock.isType (b : PortBlock) (code : Byte) : Bool := b.ctl && !b.bad && b.bytes.headD 0 == code

/-- A reserved control block (R411). -/
def PortBlock.reserved (b : PortBlock) : Bool := b.ctl && !b.bad && !listedCode (b.bytes.headD 0)

/-- A block that goes on to the link layer or to training; an uncorrectable one stands in its slot, marked (R411, R416). -/
def PortBlock.goesOn (b : PortBlock) : Bool := !(b.isType 0x2D || b.isType 0x4B || b.reserved)

end Sys2Proof

namespace Sys2Proof.Machine

/-- A lane. -/
def Chip.lane (c : Chip) (n : Nat) : Lane := Tab.get c.lanes n Lane.init

/-- Update a lane. -/
def Chip.updLane (c : Chip) (n : Nat) (f : Lane → Lane) : Chip := { c with lanes := Tab.upd c.lanes n Lane.init f }

/-- LPOS l of port p is lane 2p + l (R391). -/
def laneOf (p l : Nat) : Nat := 2 * p + l

/-- The lane macro unit of a lane (R408). -/
def macroOf (lane : Nat) : Nat := 0x40 + lane / 4

/-- The positions of a lane mask. -/
def lposOf (m : Nat) : List Nat := setBits 2 m

/-! ### Sending -/

/-- Symbols of bits as the lane sends them, precoded at rate code 2 where its row says so (R424). -/
def Lane.symbols (x : Lane) (n bits : Nat) : List Nat :=
  if x.precode && x.rate == 2 then precoded x.symbol (symbolsOf n bits) else symbolsOf n bits

/-- The lane after it has sent symbols. -/
def Lane.sentSymbols (x : Lane) (l : List Nat) : Lane := { x with symbol := l.getLastD x.symbol }

/-- The parity of a codeword that is complete goes out (R414). -/
def Chip.sendParity (c : Chip) (n : Nat) : Chip :=
  let x := c.lane n
  if blockOfCodeword x.slot + 1 ≠ codewordSize x.slot then c
  else
    let l := x.symbols 140 (fecParity x.codeword (decide (x.slot < 4)))
    (c.updLane n fun x => { (x.sentSymbols l) with codeword := 0 }).emit (.parity n (l.map levelOf))

/-- A block takes the next slot of a lane (R410, R413, R414). -/
def Chip.sendSlot (c : Chip) (n : Nat) (b : PortBlock) : Chip :=
  let x := c.lane n
  let s := scrambled x.scramble (natLE b.bytes % 2 ^ 256)
  let bits := blockBits b.ctl s.1
  let l := x.symbols 129 bits
  let c := (c.updLane n fun x =>
    { (x.sentSymbols l) with scramble := s.2, codeword := x.codeword + bits * 2 ^ (258 * blockOfCodeword x.slot) }).emit
      (.line n b.ctl b.bytes (l.map levelOf))
  (c.sendParity n).updLane n fun x =>
    if x.slot + 1 = periodBlocks then { x with slot := 0, pcount := x.pcount + 1 } else { x with slot := x.slot + 1 }

/-- A block goes out on a lane, behind the marker or filler that its period puts first (R412, R414, R422). -/
def Chip.sendLane (c : Chip) (n : Nat) (b : PortBlock) : Chip :=
  let x := c.lane n
  let c :=
    if x.slot = 0 then c.sendSlot n (markerBlock n x.pcount)
    else if fillerSlot x.slot then c.sendSlot n (emptyControl 0x2D)
    else c
  c.sendSlot n b

/-- The lane that the next port block goes to (R417): at x2 the lanes take turns, LPOS 0 first, so both stand at one slot after every
second block. -/
def Chip.nextLane (c : Chip) (p lanes : Nat) : Nat :=
  if lanes % 4 = 3 then
    (if (c.lane (laneOf p 0)).slot = (c.lane (laneOf p 1)).slot then laneOf p 0 else laneOf p 1)
  else laneOf p ((lposOf lanes).headD 0)

/-- Port blocks go out on the lanes in use (R417). -/
def Chip.sendPort (c : Chip) (p lanes : Nat) (l : List PortBlock) : Chip :=
  l.foldl (fun c b => c.sendLane (c.nextLane p lanes) b) c

/-- The transmitter of a lane leaves electrical idle: PCOUNT starts at 0, the scrambler anywhere (R412, R413), and precoding as its
P18.030 row says (R424, R430). -/
def Chip.startLane (c : Chip) (n : Nat) : Chip :=
  let v := c.freeNow
  c.drawn.updLane n fun x =>
    { x with
      pcount := 0, slot := 0, scramble := v % 2 ^ 58, codeword := 0, symbol := v / 2 ^ 58 % 4
      precode := c.param 0x18 0x030 n == 1 }

/-- The lanes of a port begin a marker period together (R417). The repeats and idle blocks before it have no count here, so its PCOUNT
and the scrambler's bits are free values (R412, R413). -/
def Chip.alignLanes (c : Chip) (p lanes : Nat) : Chip :=
  let v := c.freeNow
  (lposOf lanes).foldl (fun c l =>
    let w := c.freeNow
    c.drawn.updLane (laneOf p l) fun x =>
      { x with pcount := BitVec.ofNat 32 v, slot := 0, scramble := w % 2 ^ 58, codeword := 0, symbol := w / 2 ^ 58 % 4 }) c.drawn

/-! ### Receiving -/

/-- A block of a codeword, descrambled; one of an uncorrectable codeword, or with a header that is never sent, is marked (R413, R416). -/
def plainBlock (b : LaneBlock) (h : Nat) (bad : Bool) : PortBlock × Nat :=
  let d := descrambled h b.payload.toNat
  ({ ctl := b.header == 2, bytes := bytesLE 32 d.1, bad := bad || b.header == 0 || b.header == 3 }, d.2)

/-- The blocks of a codeword, descrambled and read, and the lane's last 58 payload bits behind them. -/
def readBlocks (undecided bad : Bool) (h : Nat) : List LaneBlock → List PortBlock × Nat
  | [] => ([], h)
  | b :: r =>
    let q := plainBlock b h bad
    let rest := readBlocks undecided bad q.2 r
    (q.1.read undecided :: rest.1, rest.2)

/-- The blocks take the next slots of the lane's period and wait there for the other lane (R417). -/
def Lane.takeBlocks (x : Lane) (l : List PortBlock) : Lane :=
  l.foldl (fun x b =>
    let x := { x with rxQueue := x.rxQueue ++ [(x.rxPcount, x.rxSlot, b)] }
    if x.rxSlot + 1 = periodBlocks then { x with rxSlot := 0, rxPcount := x.rxPcount + 1 } else { x with rxSlot := x.rxSlot + 1 }) x

/-- The block that stands in the same slot of the period of equal PCOUNT. -/
def partner? (l : List (BitVec 32 × Nat × PortBlock)) (a : BitVec 32 × Nat × PortBlock) : Option PortBlock :=
  (l.find? fun b => b.1 == a.1 && b.2.1 == a.2.1).map fun b => b.2.2

/-- The slots that stand on both lanes, in port order: the lane of LPOS 0 first (R417). -/
def mergeLanes (l0 l1 : List (BitVec 32 × Nat × PortBlock)) : List PortBlock :=
  l0.flatMap fun a => (partner? l1 a).elim [] fun b => [a.2.2, b]

/-- The blocks that the other lane has no partner for yet. -/
def unpaired (mine other : List (BitVec 32 × Nat × PortBlock)) : List (BitVec 32 × Nat × PortBlock) :=
  mine.filter fun a => (partner? other a).isNone

/-- Hand blocks to the link layer or to training, without markers, fillers and reserved ones (R411). -/
def Chip.handOn (c : Chip) (p : Nat) (l : List PortBlock) : Chip :=
  let l := l.filter PortBlock.goesOn
  if l.isEmpty then c else c.emit (.received p l)

/-- The waiting blocks go on (R417): those of the two lanes of a port at x2 slot by slot, those of any other lane by themselves. -/
def Chip.deskew (c : Chip) (p : Nat) (both : Bool) : Chip :=
  let x := c.lane (laneOf p 0)
  let y := c.lane (laneOf p 1)
  if both then
    ((c.updLane (laneOf p 0) fun l => { l with rxQueue := unpaired x.rxQueue y.rxQueue }).updLane (laneOf p 1) fun l =>
      { l with rxQueue := unpaired y.rxQueue x.rxQueue }).handOn p
        (if x.rxLpos = 0 then mergeLanes x.rxQueue y.rxQueue else mergeLanes y.rxQueue x.rxQueue)
  else
    (lposOf 3).foldl (fun c l =>
      (c.updLane (laneOf p l) fun x => { x with rxQueue := [] }).handOn p ((c.lane (laneOf p l)).rxQueue.map fun e => e.2.2)) c

end Sys2Proof.Machine
end

