-- ==== Sys2Proof/Machine/MemberOps.lean ====
section
/-! DEFINITION. Memberships of collective trees, the fields of a collective entry, and malformed ones (R247, R252 to R254). -/

namespace Sys2Proof

/-- DTYPE of a collective entry (R252). -/
def Entry.dtype (e : Entry) : Nat := e.w2.field 63 60
/-- REDOP of a collective entry. -/
def Entry.redop (e : Entry) : Nat := e.w2.field 59 56
/-- MSLOT. -/
def Entry.mslot (e : Entry) : Nat := e.w2.field 55 44
/-- ROOTRANK. -/
def Entry.rootRank (e : Entry) : Nat := e.w2.field 16 0
/-- SADDR. -/
def Entry.saddr (e : Entry) : Nat := e.w3.toNat
/-- SKEY. -/
def Entry.skey (e : Entry) : BitVec 32 := BitVec.ofNat 32 (e.w4.field 63 32)
/-- DADDR. -/
def Entry.daddr (e : Entry) : Nat := e.w5.toNat
/-- DKEY. -/
def Entry.dkey (e : Entry) : BitVec 32 := BitVec.ofNat 32 (e.w6.field 63 32)
/-- LENGTH of a collective entry: a BARRIER has none. -/
def Entry.collLength (e : Entry) : Nat := if e.opcode = 0x60 then 0 else e.length
/-- The inline operand: entry bytes 24 to 39. -/
def Entry.collInline (e : Entry) : List Byte := (e.w3.le ++ e.w4.le).take e.length

end Sys2Proof

namespace Sys2Proof.Machine

/-- A valid membership row. -/
def Chip.mValid (c : Chip) (m : Nat) : Bool := m < 4096 && 0 < c.variant.collEngines && bitOf (c.param 0x24 0x010 m) 31
/-- TREE of a row. -/
def Chip.mTree (c : Chip) (m : Nat) : Nat := bits (c.param 0x24 0x010 m) 0 20
/-- The parent port; none at the root. -/
def Chip.mParent (c : Chip) (m : Nat) : Option Nat := let p := c.param 0x24 0x011 m; if p = 255 then none else some p
/-- N. -/
def Chip.mSize (c : Chip) (m : Nat) : Nat := c.param 0x24 0x012 m
/-- The staging reservation in bytes. -/
def Chip.mReserve (c : Chip) (m : Nat) : Nat := 65536 * c.param 0x24 0x013 m
/-- The local member of a host port: function index and rank. -/
def Chip.mMember (c : Chip) (m h : Nat) : Option (Nat × Nat) :=
  let x := c.param 0x24 (0x020 + h) m
  if bitOf x 31 then some (h * 256 + bits x 17 8, bits x 0 17) else none
/-- The local members: host port, function index, rank. -/
def Chip.mLocals (c : Chip) (m : Nat) : List (Nat × Nat × Nat) :=
  (List.range 4).filterMap fun h => (c.mMember m h).map fun r => (h, r.1, r.2)
/-- The children: port and member count. -/
def Chip.mChildren (c : Chip) (m : Nat) : List (Nat × Nat) :=
  (List.range 60).filterMap fun p => let n := c.param 0x24 (0x100 + p) m; if n = 0 then none else some (p, n)
/-- P24.030: members below. -/
def Chip.mBelow (c : Chip) (m : Nat) : Nat := (c.mChildren m).foldl (fun n r => n + r.2) 0 + (c.mLocals m).length
/-- The slot of the valid row of a TREE. -/
def Chip.slotOfTree? (c : Chip) (tree : Nat) : Option Nat :=
  if c.variant.collEngines = 0 then none
  else (c.dict.active.find? fun r => r.1 / 4096 == 0x24010 && bitOf r.2 31 && bits r.2 0 20 == tree).map fun r => r.1 % 4096

/-- The bytes of an element of a DTYPE (R253). -/
def dtypeSize (t : Nat) : Nat := match t with | 0 => 4 | 1 => 8 | 2 => 4 | 3 => 8 | 4 => 2 | 5 => 2 | 6 => 4 | _ => 8

/-- A floating-point DTYPE. -/
def isFloat (t : Nat) : Bool := 4 ≤ t && t ≤ 7

/-- A reserved type or operator, or a pair that R253 marks malformed. -/
def badReduction (dtype redop : Nat) : Bool := 8 ≤ dtype || 6 ≤ redop || (isFloat dtype && 3 ≤ redop)

/-- The operation is a reduction. -/
def isReduction (op : Nat) : Bool := 0x62 ≤ op && op ≤ 0x64

/-- The operation adds Marrow accumulators. -/
def isMarrow (op dtype redop : Nat) : Bool := isReduction op && isFloat dtype && redop == 0

/-- The stage cost of a segment (R261, R267). -/
def stageCost (op dtype redop : Nat) : Nat :=
  if isMarrow op dtype redop then (match dtype with | 4 => 24 | 7 => 268 | _ => 80) * 1024 else 4096

/-- A collective entry is malformed beyond R150, or its segment costs more than the reservation (R253, R254, R267). -/
def Chip.collMalformed (c : Chip) (h fn : Nat) (e : Entry) : Bool :=
  let op := e.opcode
  let m := e.mslot
  if 0x64 < op then true
  else if c.variant.collEngines = 0 then false
  else
    (isReduction op && (badReduction e.dtype e.redop || e.length % dtypeSize e.dtype != 0)) ||
    1073741824 < e.length || (e.isInline && 16 < e.length) ||
    !c.mValid m || (c.mMember m h).elim true (fun r => r.1 != fn) ||
    ((op == 0x61 || op == 0x62) && c.mSize m ≤ e.rootRank) ||
    (op == 0x64 && e.length % (4096 * max 1 (c.mSize m)) != 0) ||
    (op != 0x60 && c.mReserve m < stageCost op e.dtype e.redop)

end Sys2Proof.Machine
end

