-- ==== Sys2Proof/Machine/Marrow.lean ====
section
/-! DEFINITION. Reduction arithmetic: raw operators, exact sums in Marrow accumulators, compressed elements (R253, R261 to R265). -/

namespace Sys2Proof.Machine

/-- The layout of a floating-point type: exponent bits and mantissa bits. -/
def floatForm (t : Nat) : Nat × Nat := match t with | 4 => (5, 10) | 5 => (8, 7) | 6 => (8, 23) | _ => (11, 52)

/-- The canonical NaN (R263). -/
def canonicalNan (t : Nat) : Nat := match t with | 4 => 0x7E00 | 5 => 0x7FC0 | 6 => 0x7FC00000 | _ => 0x7FF8000000000000

/-- W, D and the number of digits of a type (R261). -/
def marrowForm (t : Nat) : Nat × Nat × Nat :=
  match t with | 4 => (96, 16, 6) | 5 => (320, 16, 20) | 6 => (640, 32, 20) | _ => (4288, 64, 67)

/-- The head bytes of a compressed element. -/
def headBytes (t : Nat) : Nat := if t = 4 ∨ t = 5 then 2 else 4

/-- Sign, exponent and mantissa of a floating-point value. -/
def floatParts (t x : Nat) : Bool × Nat × Nat :=
  let (e, m) := floatForm t
  (x.testBit (e + m), bits x m e, bits x 0 m)

/-- A NaN. -/
def isNan (t x : Nat) : Bool := let (_, e, m) := floatParts t x; e == 2 ^ (floatForm t).1 - 1 && m != 0

/-- The Marrow value of one operand (R261). -/
def marrowOf (t x : Nat) : MElem :=
  let (s, e, m) := floatParts t x
  let mag := if e = 0 then m else (2 ^ (floatForm t).2 + m) * 2 ^ (e - 1)
  if e = 2 ^ (floatForm t).1 - 1 then { nan := m != 0, pinf := m == 0 && !s, ninf := m == 0 && s, nz := true }
  else { a := if s then -(mag : Int) else (mag : Int), nz := !(s && mag == 0) }

/-- Add two Marrow values: exact sum, flags OR-ed (R262). -/
def MElem.add (x y : MElem) : MElem :=
  { a := x.a + y.a, nan := x.nan || y.nan, pinf := x.pinf || y.pinf, ninf := x.ninf || y.ninf, nz := x.nz || y.nz }

/-- Round half to even of n / 2^s. -/
def roundShift (n s : Nat) : Nat :=
  let q := n / 2 ^ s
  let r := n % 2 ^ s
  if s = 0 then n else if 2 ^ (s - 1) < r ∨ (r = 2 ^ (s - 1) ∧ q % 2 = 1) then q + 1 else q

/-- The magnitude bits of n × 2^Lw rounded to nearest even, infinity above the largest finite value (R263). -/
def roundMagnitude (t n : Nat) : Nat :=
  let (e, m) := floatForm t
  let s := n.log2 + 1 - (m + 1)
  min (s * 2 ^ m + roundShift n s) ((2 ^ e - 1) * 2 ^ m)

/-- The root's result for one element (R263). -/
def marrowResult (t : Nat) (x : MElem) : Nat :=
  let (e, m) := floatForm t
  let sign := 2 ^ (e + m)
  let inf := (2 ^ e - 1) * 2 ^ m
  if x.nan || (x.pinf && x.ninf) then canonicalNan t
  else if x.pinf then inf
  else if x.ninf then sign + inf
  else if x.a = 0 then (if x.nz then 0 else sign)
  else (if x.a < 0 then sign else 0) + roundMagnitude t x.a.natAbs

/-- COUNT of a value whose digits below LOW are zero. -/
def digitCount (t : Nat) (a : Int) (low : Nat) : Nat :=
  let (w, d, n) := marrowForm t
  if a = 0 then 0
  else ((List.range n).find? fun k => ofTwos (d * (low + k + 1)) (twos w a) == a).elim n (· + 1)

/-- LOW of a value. -/
def lowDigit (t : Nat) (a : Int) : Nat :=
  let (w, d, n) := marrowForm t
  ((List.range n).find? fun i => bits (twos w a) (d * i) d != 0).getD 0

/-- The bytes of a compressed element (R262). -/
def packElem (t : Nat) (x : MElem) : List Byte :=
  let (w, d, _) := marrowForm t
  let low := lowDigit t x.a
  let n := digitCount t x.a low
  let flags := natOfBool x.nan * 8 + natOfBool x.pinf * 4 + natOfBool x.ninf * 2 + natOfBool x.nz
  let head := if headBytes t = 2 then flags * 2 ^ 12 + low * 2 ^ 7 + n * 2 ^ 2 else flags * 2 ^ 28 + low * 2 ^ 8 + n
  bytesLE (headBytes t) head ++ bytesLE (n * d / 8) (twos w x.a / 2 ^ (d * low))

/-- One compressed element at the front of bytes, with the rest; none where bytes are missing. -/
def unpackElem (t : Nat) (l : List Byte) : Option (MElem × List Byte) :=
  let (_, d, _) := marrowForm t
  let hb := headBytes t
  let head := natLE (l.take hb)
  let flags := if hb = 2 then bits head 12 4 else bits head 28 4
  let low := if hb = 2 then bits head 7 5 else bits head 8 8
  let n := if hb = 2 then bits head 2 5 else bits head 0 8
  let nb := n * d / 8
  if l.length < hb + nb then none
  else
    let v := if n = 0 then 0 else ofTwos (d * n) (natLE ((l.drop hb).take nb)) * (2 ^ (d * low) : Nat)
    some ({ a := v, nan := flags.testBit 3, pinf := flags.testBit 2, ninf := flags.testBit 1, nz := flags.testBit 0 },
      l.drop (hb + nb))

/-- `n` compressed elements. -/
def unpackElems (t : Nat) : Nat → List Byte → List MElem
  | 0, _ => []
  | n + 1, l => match unpackElem t l with
    | some (x, r) => x :: unpackElems t n r
    | none => []

/-- Pack elements into parts of at most 4,096 bytes, in order: (FIRST, ELEMS, bytes) (R257). -/
def packParts (t : Nat) : List MElem → Nat → Nat → Nat → List Byte → List (Nat × Nat × List Byte)
  | [], first, n, _, acc => if n = 0 then [] else [(first, n, acc)]
  | x :: r, first, n, at_, acc =>
    let b := packElem t x
    if n ≠ 0 ∧ 4088 < acc.length + b.length then (first, n, acc) :: packParts t r at_ 1 (at_ + 1) b
    else packParts t r first (n + 1) (at_ + 1) (acc ++ b)

/-- The part payloads of a segment. -/
def segmentParts (t : Nat) (l : List MElem) : List (List Byte) :=
  (packParts t l 0 0 0 []).map fun r => bytesLE 2 r.1 ++ bytesLE 2 r.2.1 ++ zeros 4 ++ r.2.2

/-- The elements of raw bytes. -/
def elems (t : Nat) (l : List Byte) : List Nat := (chunksOf (dtypeSize t) l.length l).map natLE

/-- The raw bytes of elements. -/
def elemBytes (t : Nat) (l : List Nat) : List Byte := l.flatMap fun x => bytesLE (dtypeSize t) x

/-- The order of floating-point values in min and max: −0 below +0, infinities at the ends (R265). -/
def floatKey (t x : Nat) : Int :=
  let (e, m) := floatForm t
  let mag : Int := (x % 2 ^ (e + m) : Nat)
  if x.testBit (e + m) then -mag - 1 else mag

/-- The order key of an element of any type. -/
def orderKey (t x : Nat) : Int :=
  match t with
  | 0 => ofTwos 32 x
  | 1 => ofTwos 64 x
  | 2 => (x : Int)
  | 3 => (x : Int)
  | _ => floatKey t x

/-- One raw operator on two elements (R253, R264, R265). -/
def combineElem (t redop x y : Nat) : Nat :=
  if isFloat t && (isNan t x || isNan t y) then canonicalNan t
  else match redop with
  | 0 => (x + y) % 2 ^ (8 * dtypeSize t)
  | 1 => if orderKey t y < orderKey t x then y else x
  | 2 => if orderKey t x < orderKey t y then y else x
  | 3 => x &&& y
  | 4 => x ||| y
  | _ => x ^^^ y

/-- Combine raw segments; an empty one is the neutral start. -/
def combineRaw (t redop : Nat) (a b : List Byte) : List Byte :=
  if a.isEmpty then (if isFloat t then elemBytes t ((elems t b).map fun x => if isNan t x then canonicalNan t else x) else b)
  else elemBytes t ((elems t a).zipWith (combineElem t redop) (elems t b))

/-- Add Marrow elements into an accumulator from element `first` on. -/
def addFrom : Nat → List MElem → List MElem → List MElem
  | 0, [], l => l
  | 0, a, [] => a
  | 0, x :: a, y :: l => x.add y :: addFrom 0 a l
  | k + 1, [], l => MElem.init :: addFrom k [] l
  | k + 1, x :: a, l => x :: addFrom k a l

end Sys2Proof.Machine
end

