-- ==== Sys2Proof/Machine/QueueOps.lean ====
section
/-! DEFINITION. Completions, their effect on trigger counters, CQ backlogs, and queues in error (R125 to R160, R236 to R245). -/

namespace Sys2Proof.Machine

/-! ### Trigger counters (R236 to R245) -/

/-- An owned trigger counter. -/
def Chip.tctr? (c : Chip) (n : Nat) : Option TCtr := Tab.get? c.tg.ctrs n

/-- A held entry is released (R243, R244): it takes its place among the entries of its SQ that have not completed, and a FENCE
of it waits for those consumed before it. -/
def Chip.openHeld (c : Chip) (e : HeldEnt) : Chip :=
  match c.queue? (e.fn / 256) e.qn with
  | none => c
  | some q =>
    let same (x : HeldEnt) : Bool := x.fn == e.fn && x.slot == e.slot
    let c := { c with tg := { c.tg with
      due := true
      held := mapIf same (fun x => { x with released := true, waits := q.openPos.filter (· < e.pos) }) c.tg.held } }
    c.putQueue (e.fn / 256) e.qn { q with openPos := q.openPos ++ [e.pos] }

/-- Release every entry held on the counter whose threshold VALUE has reached, in posting order (R243): from then on it is an
entry of its SQ like any other. -/
def Chip.trigRelease (c : Chip) (n : Nat) : Chip :=
  match c.tctr? n with
  | none => c
  | some t =>
    let due (e : HeldEnt) : Bool := e.ctr == n && decide (e.thresh.toNat ≤ t.value.toNat)
    let fresh := c.tg.held.filter fun e => due e && !e.released
    fresh.foldl Chip.openHeld c

/-- The largest VALUE. -/
def counterMax : Nat := 2 ^ 48 - 1

/-- Add to an owned counter (R241): a sum above 2^48 − 1 holds VALUE there, sets SAT and raises the saturation source. -/
def Chip.trigAdd (c : Chip) (n k : Nat) : Chip :=
  match c.tctr? n with
  | none => c
  | some t =>
    let sum := t.value.toNat + k
    let t' := if sum ≤ counterMax then { t with value := BitVec.ofNat 48 sum }
      else { t with value := BitVec.ofNat 48 counterMax, sat := true }
    let c := { c with tg := { c.tg with ctrs := Tab.put c.tg.ctrs n t' } }
    let c := if sum ≤ counterMax then c else c.raise 0xA1 0x100 11 0xA1
    c.trigRelease n

/-- What a decided completion is, as R239 sees it. -/
structure Decided where
  /-- The host port. -/
  h : Nat
  /-- The function that owns the queue. -/
  fn : Nat
  /-- The queue of the entry. -/
  qn : Nat
  /-- The CQ. -/
  cqn : Nat
  /-- A receive completion. -/
  recv : Bool
  /-- The matching context of a tagged message. -/
  ctx : Option Nat
  /-- The status. -/
  status : Nat
  deriving DecidableEq, Repr

/-- Whether a counter advances on a decided completion (R239). -/
def TCtr.matches (t : TCtr) (d : Decided) : Bool :=
  (t.allStatus || d.status == 0 || d.status == 0x0F) &&
  match t.source with
  | 1 => d.recv && t.owner == d.fn && t.srcNum == d.qn
  | 2 => d.recv && t.owner / 256 == d.h && d.ctx == some t.srcNum
  | 3 => t.owner == d.fn && t.srcNum == d.cqn
  | _ => false

/-- `k` decided completions of one kind advance every counter they match (R239). -/
def Chip.advance (c : Chip) (d : Decided) (k : Nat) : Chip :=
  (c.tg.ctrs.filter fun r => r.2.matches d).foldl (fun c r => c.trigAdd r.1 k) c

/-! ### Completion entries (R151 to R154) -/

/-- The four words of a completion entry. -/
def Completion.words (p : Completion) : List Word :=
  [mkWord [(p.wrid.toNat, 32), (p.status.toNat, 24), (p.qn.toNat, 0)],
   mkWord [(p.opcode.toNat, 56), (natOfBool p.solicited, 55), (natOfBool p.immv, 54), (p.time.toNat, 0)],
   mkWord [(p.length.toNat, 32), (p.peer.toNat, 0)], p.result]

/-- Write the next entry of a CQ: the entry, then PI; a waiting ARM signals (R138, R154). -/
def Chip.writeCqe (c : Chip) (h cqn : Nat) (q : Queue) (p : Completion) : Chip :=
  let c := c.emit (.completion h q.fn cqn (slotAddr q.ring q.logSize 32 q.pi) p.words)
  let c := c.emit (.indexWrite h q.fn q.index 0 (q.pi + 1))
  let hit := q.armed && (!q.solOnly || p.solicited || (p.status.toNat != 0 && p.status.toNat != 0x0F))
  let c := c.putQueue h cqn { q with pi := q.pi + 1, armed := q.armed && !hit }
  if hit && q.vecValid then c.signal q.fn q.vector else c

/-- The size of device region `i` in MiB, as laid out (R278). -/
def Chip.regionSize (c : Chip) (i : Nat) : Nat := Tab.get c.mem.regionMiB i (pDefault c.variant c.serial 0 0x28 0x001 i)

/-- The backlogs that the region holds: one of 2 MiB per CQ (R31). -/
def Chip.backlogsTotal (c : Chip) : Nat := c.regionSize 5 / 2

/-- The backlogs taken, those of control CQs among them. -/
def Chip.backlogsTaken (c : Chip) : Nat :=
  (c.queues.filter fun r => r.2.backlogged).length + (c.funcs.filter fun r => r.2.ctlBacklogged).length

/-- The queues bound to a CQ, as (number, queue). -/
def Chip.boundTo (c : Chip) (h cqn : Nat) : List (Nat × Queue) :=
  (c.queues.filter fun r => r.1 / 2 ^ 24 == h && r.2.cqn == cqn &&
    (r.2.kind == .sq || r.2.kind == .rq || r.2.kind == .srq)).map fun r => (r.1 % 2 ^ 24, r.2)

/-- Count completions of a CQ in error as lost (R159 step 4); a function that is being disabled loses them without trace (R199). -/
def Chip.loseCompletions (c : Chip) (h cqn : Nat) (d : Decided) (k : Nat) : Chip :=
  if c.silentFn d.fn then c
  else
    let c := c.advance d k
    (c.updQueue h cqn fun q => { q with lost := q.lost + k }).bumpFn 2 d.fn k

/-- The entries of a queue that software has posted and the device has not consumed. -/
def Queue.unconsumed (q : Queue) : Nat := (q.pi - q.ci).toNat

/-- The posted TAGGED RECVs of a queue, in posting order (R214). -/
def Chip.postedOf (c : Chip) (h qn : Nat) : List Posted := c.mt.posted.filter fun r => r.ctx / 2 ^ 20 == h && r.qn == qn

/-- The TAGGED RECVs of a queue that a match read still keeps waiting, in posting order (R235). -/
def Chip.waitingOf (c : Chip) (h qn : Nat) : List Entry := (c.mt.waiting.filter fun r => r.1 == qKey h qn).map (·.2)

/-- The TAGGED RECVs of a queue leave their lists, posted or waiting (R216, R235). -/
def Chip.dropPosted (c : Chip) (h qn : Nat) : Chip :=
  { c with mt := { c.mt with
      posted := c.mt.posted.filter fun r => !(r.ctx / 2 ^ 20 == h && r.qn == qn)
      waiting := c.mt.waiting.filter fun r => r.1 != qKey h qn } }

/-- Held entries leave the held area without running (R200, R244, R245). -/
def Chip.discardHeld (c : Chip) (p : HeldEnt → Bool) : Chip :=
  { c with tg := { c.tg with due := c.tg.due || c.tg.held.any p, held := c.tg.held.filter fun e => !p e } }

/-- One bound queue of a CQ in error goes to error with cause 4; its entries flush as lost completions (R159 step 4, R245). -/
def Chip.cqErrorBound (c : Chip) (h cqn qn : Nat) (q : Queue) : Chip :=
  if q.state ≠ .active then c
  else
    let heldHere := c.tg.held.filter fun e => e.fn == q.fn && e.qn == qn
    let k := q.unconsumed + heldHere.length + q.recvs.length + (c.postedOf h qn).length + (c.waitingOf h qn).length
    let c := c.setQState h qn .error 4
    let c := c.discardHeld fun e => e.fn == q.fn && e.qn == qn
    let c := (c.dropPosted h qn).updQueue h qn fun q => { q with ci := q.pi, cached := [], recvs := [], flushing := false }
    let c := if q.unconsumed = 0 then c else c.emit (.indexWrite h q.fn q.index 8 q.pi)
    c.loseCompletions h cqn { h := h, fn := q.fn, qn := qn, cqn := cqn, recv := q.kind != .sq, ctx := none, status := 9 } k

/-- A CQ goes to error (R133, R159, R160): event 0x06, STATE, and its bound queues follow. -/
def Chip.cqError (c : Chip) (h cqn cause : Nat) : Chip :=
  match c.queue? h cqn with
  | none => c
  | some q =>
    if q.state ≠ .active then c
    else
      let c := c.setQState h cqn .error cause
      let c := c.postEvent q.fn 0x06 0xA2 cqn cause
      (c.boundTo h cqn).foldl (fun c b => c.cqErrorBound h cqn b.1 b.2) c

/-- A completion for a CQ is lost and counted (R159 step 4). -/
def Chip.loseOne (c : Chip) (h cqn fn : Nat) : Chip :=
  (c.updQueue h cqn fun q => { q with lost := q.lost + 1 }).bumpFn 2 fn

/-- The largest backlog (R31). -/
def backlogMax : Nat := 65536

/-- A CQ that is full takes a backlog, or goes to error where none is free (R159 step 1, R160). -/
def Chip.takeBacklog (c : Chip) (h cqn : Nat) (q : Queue) (d : Decided) (p : Completion) : Chip :=
  if c.backlogsTaken ≥ c.backlogsTotal then (c.cqError h cqn 2).loseOne h cqn d.fn
  else (c.putQueue h cqn { q with backlogged := true, stopped := true, backlog := [p] }).postEvent q.fn 0x05 0xA2 cqn 0

/-- Deliver a decided completion to its CQ: ring, backlog or loss (R159, R160). A CQ that the last CI read shows full has its
CI read again first: it may have room, still be full, or hold a bad consumer index (R133). -/
def Chip.deliver (c : Chip) (h cqn : Nat) (d : Decided) (p : Completion) : Chip :=
  match c.queue? h cqn with
  | none => c
  | some q =>
    if q.state ≠ .active then c.loseOne h cqn d.fn
    else if q.backlogged then
      if backlogMax ≤ q.backlog.length then (c.cqError h cqn 1).loseOne h cqn d.fn
      else c.putQueue h cqn { q with backlog := q.backlog ++ [p] }
    else if !ringFull q.logSize q.pi q.ci then c.writeCqe h cqn q p
    else
      let ci := c.ciNow
      let c := c.drawn
      if tooMany q.logSize q.pi ci then (c.cqError h cqn 3).loseOne h cqn d.fn
      else if ringFull q.logSize q.pi ci then c.takeBacklog h cqn { q with ci := ci } d p
      else c.writeCqe h cqn { q with ci := ci } p

/-- A completion is decided: it counts (R239) and goes to its CQ, unless its function is being disabled (R199). -/
def Chip.complete (c : Chip) (d : Decided) (p : Completion) : Chip :=
  if c.silentFn d.fn then c
  else
    let p := { p with time := BitVec.ofNat 48 c.tb.time.toNat, status := BitVec.ofNat 8 d.status, qn := BitVec.ofNat 24 d.qn }
    (c.advance d 1).deliver d.h d.cqn d p

/-! ### Queues in error and flushed entries (R133, R145, R190, R245) -/

/-- PEER of a send completion: the destination endpoint (R151). A collective has none: its DEST field is reserved (R270). -/
def sendPeer (e : Entry) : BitVec 32 := if 0x60 ≤ e.opcode then 0 else BitVec.ofNat 32 (e.dest * 2 ^ 15)

/-- The completion of an entry that is flushed with 0x09 or refused as malformed. -/
def flushCompletion (recv : Bool) (e : Entry) : Completion :=
  { wrid := e.wrid, opcode := BitVec.ofNat 8 e.opcode, peer := if recv then 0 else sendPeer e }

/-- The completion of an entry whose read failed: WRID, OPCODE and PEER are not known (R133); free values. -/
def unreadCompletion (free : Nat) : Completion :=
  { wrid := BitVec.ofNat 32 free, opcode := BitVec.ofNat 8 (free / 2 ^ 32), peer := BitVec.ofNat 32 (free / 2 ^ 40) }

/-- The first four words of a ring entry as a Veneer entry. -/
def asVeneer (e : Entry) : VEntry := { vw0 := e.w0, vw1 := e.w1, vw2 := e.w2, vw3 := e.w3 }

/-- An entry of a queue in native form: a Veneer entry reports the native equivalent (R151). -/
def Queue.native (q : Queue) (e : Entry) : Entry :=
  if q.veneer then (asVeneer e).native q.vclass q.vlkey 0 else e

/-- The next unconsumed entry of a queue is flushed with a completion: CI first (R134), then status 0x09. -/
def Chip.flushOne (c : Chip) (h qn : Nat) (q : Queue) (p : Completion) : Chip :=
  let c := (c.putQueue h qn { q with ci := q.ci + 1, cached := q.cached.filter fun r => r.1 != q.ci }).emit
    (.indexWrite h q.fn q.index 8 (q.ci + 1))
  c.complete { h := h, fn := q.fn, qn := qn, cqn := q.cqn, recv := q.kind != .sq, ctx := none, status := 9 } p

/-- Flush unconsumed entries in order with 0x09, from the cache and then from the entries that a read has returned, which
stand from CI on at the start; the first entry that neither holds waits to be read (R133, R134, R146, R151). `fuel` is at
least the entries unconsumed. -/
def Chip.flushEntries (c : Chip) (h qn : Nat) (read : List Entry) : Nat → Chip
  | 0 => c
  | fuel + 1 =>
    match c.queue? h qn with
    | none => c
    | some q =>
      if q.unconsumed = 0 then c.putQueue h qn { q with cached := [], flushing := false }
      else match ((q.cached.find? fun r => r.1 == q.ci).map (·.2)).or read.head? with
        | none => c.putQueue h qn { q with flushing := true }
        | some e => (c.flushOne h qn q (flushCompletion (q.kind != .sq) (q.native e))).flushEntries h qn read.tail fuel

/-- Flush every unconsumed entry, as far as the device has fetched them; the rest follow as they are read (R145, R151). -/
def Chip.flushQueue (c : Chip) (h qn : Nat) : Chip :=
  c.flushEntries h qn [] ((c.queue? h qn).elim 0 fun q => q.unconsumed + 1)

/-- Entries that wait to be flushed have been read: `read` holds them from CI on. -/
def Chip.flushRead (c : Chip) (h qn : Nat) (read : List Entry) : Chip :=
  c.flushEntries h qn read ((c.queue? h qn).elim 0 fun q => q.unconsumed + 1)

/-- The read of entries that wait to be flushed has failed: they flush without their own words. -/
def Chip.flushUnread (c : Chip) (h qn : Nat) : Nat → Chip
  | 0 => c
  | fuel + 1 =>
    match c.queue? h qn with
    | none => c
    | some q =>
      if q.unconsumed = 0 then c.putQueue h qn { q with cached := [], flushing := false }
      else (c.drawn.flushOne h qn q (unreadCompletion c.freeNow)).flushUnread h qn fuel

/-- The held entries of an SQ complete with 0x09 in posting order (R245). -/
def Chip.flushHeld (c : Chip) (h fn qn : Nat) (cqn : Nat) : Chip :=
  let mine := c.tg.held.filter fun e => e.fn == fn && e.qn == qn
  let c := c.discardHeld fun e => e.fn == fn && e.qn == qn
  mine.foldl (fun c e => c.complete { h := h, fn := fn, qn := qn, cqn := cqn, recv := false, ctx := none, status := 9 }
    (flushCompletion false e.entry)) c

/-- The consumed receive entries that no message has taken complete with 0x09: the RECVs, then the posted TAGGED RECVs, then
those that a match read keeps waiting, each in posting order (R205, R206, R235). -/
def Chip.flushReceives (c : Chip) (h qn : Nat) : Chip :=
  match c.queue? h qn with
  | none => c
  | some q =>
    let l := q.recvs ++ (c.postedOf h qn).map (·.entry) ++ c.waitingOf h qn
    let c := (c.dropPosted h qn).putQueue h qn { q with recvs := [] }
    l.foldl (fun c e => c.complete { h := h, fn := q.fn, qn := qn, cqn := q.cqn, recv := true, ctx := none, status := 9 }
      (flushCompletion true e)) c

/-- An SQ, RQ or SRQ goes to error (R133, R190, R198, R244): event 0x07 with cause and status, STATE, flushes. -/
def Chip.queueError (c : Chip) (h qn cause status : Nat) : Chip :=
  match c.queue? h qn with
  | none => c
  | some q =>
    if q.state ≠ .active then c
    else
      let c := c.setQState h qn .error cause
      let c := if c.silentFn q.fn then c else c.postEvent q.fn 0x07 0xA2 qn (status * 256 + cause)
      ((c.flushHeld h q.fn qn q.cqn).flushReceives h qn).flushQueue h qn

/-- Completions of entries that failed before injection and whose earlier entries have all completed (R190). -/
def Chip.drainFailed (c : Chip) (h qn : Nat) : Nat → Chip
  | 0 => c
  | fuel + 1 =>
    match c.queue? h qn with
    | none => c
    | some q =>
      match q.failed.find? fun r => q.openPos.all fun o => r.1 ≤ o with
      | none => c
      | some (pos, p) =>
        let c := c.putQueue h qn { q with failed := eraseFirst (fun r => r.1 == pos) q.failed, openPos := q.openPos.erase pos }
        let c := c.complete { h := h, fn := q.fn, qn := qn, cqn := q.cqn, recv := false, ctx := none, status := p.status.toNat } p
        c.drainFailed h qn fuel

/-- An entry at a position of an SQ has completed: its position closes, and failures behind it may complete. -/
def Chip.closePos (c : Chip) (h qn pos : Nat) : Chip :=
  let c := c.updQueue h qn fun q => { q with openPos := q.openPos.erase pos }
  c.drainFailed h qn ((c.queue? h qn).elim 0 fun q => q.failed.length)

/-- An entry fails before injection (R190): it completes after every earlier entry of its SQ. The position is open. -/
def Chip.failEntry (c : Chip) (h qn pos : Nat) (e : Entry) (status : Nat) : Chip :=
  let p : Completion :=
    { wrid := e.wrid, status := BitVec.ofNat 8 status, opcode := BitVec.ofNat 8 e.opcode, peer := sendPeer e }
  let c := c.updQueue h qn fun q => { q with failed := q.failed ++ [(pos, p)] }
  c.drainFailed h qn ((c.queue? h qn).elim 0 fun q => q.failed.length)

/-! ### Taking entries (R134, R148, R159, R199) -/

/-- An operation of an SQ has packets that its channel may not start yet, so the SQ waits (R170, R191, R359). A channel that
is not Active keeps its operations itself (R168), but for the start of its SYNC. -/
def Chip.sqWaits (c : Chip) (h qn : Nat) : Bool :=
  c.tr.chans.any fun r => chHost r.1 == h && (r.2.sendState == .active || r.2.syncDue) &&
    r.2.ops.any fun o => o.qn == qn && !o.held && ((!o.started && o.status.isNone) || !o.unsent.isEmpty)

/-- The queue takes entries: active, not being destroyed, its function ready, its CQ not stopped, an SQ not waiting
(R159 step 2, R191, R199). -/
def Chip.fetches (c : Chip) (h qn : Nat) (q : Queue) : Bool :=
  q.state == .active && q.destroying.isNone && !q.draining && c.fnReady q.fn &&
  !(q.kind == .sq && (((c.queue? h q.cqn).elim false (·.stopped)) || c.sqWaits h qn))

/-- The next entry of a queue: its cached copy, or what host memory holds (R148). -/
def Queue.nextEntry (q : Queue) (e : Entry) : Entry := ((q.cached.find? fun r => r.1 == q.ci).map (·.2)).getD e

/-- Consume the next entry: CI advances and is written, the slot leaves the cache; an SQ entry opens its position. -/
def Chip.consume (c : Chip) (h qn : Nat) (q : Queue) : Chip :=
  (c.putQueue h qn { q with
      ci := q.ci + 1
      cached := q.cached.filter fun r => r.1 != q.ci
      nextPos := q.nextPos + 1
      openPos := if q.kind == .sq then q.openPos ++ [q.nextPos] else q.openPos }).emit (.indexWrite h q.fn q.index 8 (q.ci + 1))

/-- FENCE: every earlier entry of the SQ has completed, held ones apart (R139, R244). -/
def Queue.fenceOpen (q : Queue) : Bool := q.openPos.isEmpty && q.failed.isEmpty

/-- The SQ entry that a command names, if the device may consume it now: FENCE allows it, which holds back the start of an
entry and so not the consumption of one that is HELD (R139, R242). -/
def Chip.takeable (c : Chip) (h qn : Nat) (e : Entry) : Option (Queue × Entry) :=
  match c.queue? h qn with
  | none => none
  | some q =>
    let e := q.nextEntry e
    if q.kind == .sq && !q.veneer && c.fetches h qn q && q.unconsumed != 0 && (!e.fence || e.held || q.fenceOpen) then some (q, e)
    else none

/-- Bad CLASS, LENGTH or inline form of an SQ entry (R150). -/
def sqMalformed (e : Entry) : Bool :=
  let op := e.opcode
  let message := op == 1 || op == 2 || op == 0x10 || op == 0x11 || op == 0x20
  e.cls == 3 ||
  (message && (2147483648 < e.length || (e.isInline && e.inlineLimit < e.length))) ||
  (op == 0x20 && e.isInline) ||
  !(message || (0x30 ≤ op && op ≤ 0x33) || op == 0x40 || op == 0x41 || (0x60 ≤ op && op ≤ 0x64))

/-- An SQ entry of a function's queue is malformed (R150, R254). -/
def Chip.sqBad (c : Chip) (h fn : Nat) (e : Entry) : Bool := sqMalformed e || (0x60 ≤ e.opcode && c.collMalformed h fn e)

end Sys2Proof.Machine
end

