-- ==== Sys2Proof/Machine/MemOps.lean ====
section
/-! DEFINITION. HBM bytes and their poison, the layout of HBM, memory keys and translation (R278 to R294). -/

namespace Sys2Proof.Machine

/-! ### Bytes of fabric memory -/

/-- The listed byte at an address. -/
def cellGet? : List Host.Cell → Nat → Option Byte
  | [], _ => none
  | (a, b) :: r, k => if k = a then some b else cellGet? r k

/-- Put a byte at its place in the rising list. -/
def cellPut : List Host.Cell → Nat → Byte → List Host.Cell
  | [], k, v => [(k, v)]
  | (a, b) :: r, k, v =>
    if k < a then (k, v) :: (a, b) :: r else if k = a then (k, v) :: r else (a, b) :: cellPut r k v

/-- Addresses strictly rising. -/
def cellsRise : List Host.Cell → Bool
  | [] => true
  | [_] => true
  | (a, _) :: (a', b') :: r => a < a' && cellsRise ((a', b') :: r)

/-- The canonical form of fabric memory: the bytes that have been written, at strictly rising addresses. -/
def Memory.wf (m : List Host.Cell) : Bool := cellsRise m

/-- Write bytes from an address on. -/
def cellWrite (m : List Host.Cell) (a : Nat) : List Byte → List Host.Cell
  | [] => m
  | b :: r => cellWrite (cellPut m a b) (a + 1) r

/-- A byte of fabric memory: the one written last, or what HBM held at power-up. -/
def Mem.byte (m : Mem) (a : Nat) : Byte := (cellGet? m.hbm a).getD (Config.hbmPowerOn m.epoch a)

/-- Bytes of fabric memory. -/
def Mem.read (m : Mem) (a n : Nat) : List Byte := (List.range n).map fun i => m.byte (a + i)

/-- A range touches a poisoned 64-byte block (R281). -/
def Mem.poisoned (m : Mem) (a n : Nat) : Bool :=
  0 < n && (m.poison.any (fun b => a / 64 ≤ b && b ≤ (a + n - 1) / 64) ||
    (!m.lostSlabs.isEmpty && (List.range ((a + n - 1) / 64 + 1 - a / 64)).any fun i =>
      m.lostSlabs.contains ((a / 64 + i) / 524288) && !m.healed.contains (a / 64 + i)))

/-- The blocks that a write of `n` bytes covers whole (R280). -/
def coveredBlocks (a n : Nat) : List Nat := (List.range (n / 64)).map (divUp a 64 + ·) |>.filter fun b => 64 * b + 64 ≤ a + n

/-- Write bytes: a block all of whose 64 bytes are covered is no longer poisoned (R280). -/
def Mem.write (m : Mem) (a : Nat) (l : List Byte) : Mem :=
  { m with
    hbm := cellWrite m.hbm a l
    poison := m.poison.filter fun b => !(a ≤ 64 * b && 64 * b + 64 ≤ a + l.length)
    healed := (coveredBlocks a l.length).foldl (fun h b => if m.lostSlabs.contains (b / 524288) then insertNat b h else h) m.healed }

/-- Write fabric memory. -/
def Chip.hbmWrite (c : Chip) (a : Nat) (l : List Byte) : Chip := { c with mem := c.mem.write a l }

/-! ### The layout of HBM (R278, R279) -/

/-- 32 MiB. -/
def slabBytes : Nat := 33554432

/-- A channel group's record. -/
def Chip.group (c : Chip) (g : Nat) : Group := Tab.get c.mem.groups g Group.init

/-- P28.010: the state of a channel group. -/
def Chip.groupState (c : Chip) (g : Nat) : Nat := if g < 4 * c.variant.stacks then (c.group g).state else 0

/-- The channel groups in service when HBM was laid out: all but those retired by self-test at the chip reset. -/
def Chip.layoutGroups (c : Chip) : List Nat :=
  (List.range (4 * c.variant.stacks)).filter fun g => !(c.group g).absentAtLayout

/-- Slabs of the device regions. -/
def Chip.deviceSlabs (c : Chip) : Nat :=
  (List.range 7).foldl (fun n i => n + c.regionSize i / 32) 0

/-- The place of slab `n`, in the order of layout, device regions first: 384 times its channel group plus the slab of the group. It
is the one of the layout (R279) unless a retirement has moved the slab (R282). -/
def Chip.slabPlace (c : Chip) (n : Nat) : Nat :=
  match Tab.get? c.mem.placed n with
  | some p => p
  | none =>
    let gs := c.layoutGroups
    (gs[n % max 1 gs.length]?).getD 0 * 384 + n / max 1 gs.length

/-- The slab at a place. -/
def Chip.slabAt? (c : Chip) (p : Nat) : Option Nat :=
  match c.mem.placed.find? fun r => r.2 == p with
  | some r => some r.1
  | none => match c.layoutGroups.findIdx? (· == p / 384) with
    | none => none
    | some i =>
      let n := p % 384 * c.layoutGroups.length + i
      if (Tab.get? c.mem.placed n).isSome then none else some n

/-- The channel group and the byte offset within it, at a place of a slab. -/
def placeOf (p a : Nat) : Nat × Nat := (p / 384, p % 384 * slabBytes + a)

/-- The channel group and byte offset within it of fabric memory offset `o` (R279, R282). -/
def Chip.hbmPlace (c : Chip) (o : Nat) : Nat × Nat := placeOf (c.slabPlace (c.deviceSlabs + o / slabBytes)) (o % slabBytes)

/-- The fabric memory offset at a byte offset within slab `n`, where that slab is one of fabric memory. -/
def Chip.slabOffset? (c : Chip) (n a : Nat) : Option Nat :=
  let o := (n - c.deviceSlabs) * slabBytes + a
  if n < c.deviceSlabs ∨ c.mem.size ≤ o then none else some o

/-- The slab at a byte offset of a channel group, or the slab whose new place it is while a retirement copies it (R282). -/
def Chip.slabHere? (c : Chip) (g a : Nat) : Option Nat :=
  let p := g * 384 + a / slabBytes
  (c.slabAt? p).or ((c.mem.moving.find? fun r => r.2 == p).map (·.1))

/-- The fabric memory offset at a byte offset of a channel group, if fabric memory lies there or is being copied there. -/
def Chip.hbmOffset? (c : Chip) (g a : Nat) : Option Nat := (c.slabHere? g a).bind fun n => c.slabOffset? n (a % slabBytes)

/-- A slab is being copied. -/
def Chip.copying (c : Chip) (n : Nat) : Bool := (Tab.get? c.mem.moving n).isSome

/-- Fabric memory at layout: the smaller of the export limit and what the device regions leave (R30). -/
def layoutSize (v : Variant) (groups slabs : Nat) : Nat := min v.exportLimit ((groups * 384 - slabs) * slabBytes)

/-- The subject of an HBM address (R466, SKIND 6). -/
def hbmSubject (g a : Nat) : Nat := g * 2 ^ 40 + a

/-- A poisoned read in a device region (R281). Where the region's slabs lie is the device's own affair: the channel group
and the address are free values. -/
def Chip.poisonDevice (c : Chip) (holder : Nat) : Chip :=
  let gs := c.layoutGroups
  let f := c.freeNow
  let g := (gs[f % max 1 gs.length]?).getD 0
  c.drawn.raise (0x60 + g) 0x101 6 (hbmSubject g (f / 64 % (384 * slabBytes))) (BitVec.ofNat 64 holder)

/-- A poisoned read raises the channel group's deferred-error source (R281); `holder` is its row. While the slab is being copied, a
free value says whether the block read is the old one or the copy (R282 step 2). -/
def Chip.poisonRead (c : Chip) (o holder : Nat) : Chip :=
  let raised (c : Chip) (r : Nat × Nat) : Chip := c.raise (0x60 + r.1) 0x101 6 (hbmSubject r.1 r.2) (BitVec.ofNat 64 holder)
  match Tab.get? c.mem.moving (c.deviceSlabs + o / slabBytes) with
  | none => raised c (c.hbmPlace o)
  | some p => raised c.drawn (if c.freeNow % 2 = 0 then c.hbmPlace o else placeOf p (o % slabBytes))

/-! ### Keys (R284, R285, R290) -/

/-- The region index of a key. -/
def keyIndex (k : BitVec 32) : Nat := k.toNat / 256
/-- The generation of a key. -/
def keyGen (k : BitVec 32) : Nat := k.toNat % 256
/-- An export entry's region index. -/
def isExportIndex (i : Nat) : Bool := 0xFEF000 ≤ i && i ≤ 0xFEFFFF
/-- An offer key's region index. -/
def isOfferIndex (i : Nat) : Bool := 0xFF0000 ≤ i

/-- What a valid key names. -/
inductive KeyTarget where
  /-- Host region `index`. -/
  | region (index : Nat) (r : Region)
  /-- Export entry `n`: base, length and attributes. -/
  | exported (n base length attr : Nat)
  deriving DecidableEq, Repr

/-- The region-validity row (R290): the index is registered, or the entry valid, and the generation matches. -/
def Chip.keyTarget? (c : Chip) (k : BitVec 32) : Option KeyTarget :=
  let i := keyIndex k
  if i = 0 ∨ isOfferIndex i then none
  else if isExportIndex i then
    let n := i - 0xFEF000
    let attr := c.param 0x28 0x032 n
    if bitOf attr 63 && Tab.get c.mem.exportGen n 0 == keyGen k then
      some (.exported n (c.param 0x28 0x030 n) (c.param 0x28 0x031 n) attr)
    else none
  else match Tab.get? c.mem.regions i with
    | some r => if !r.bad && Tab.get c.mem.regionGen i 0 == keyGen k then some (.region i r) else none
    | none => none

/-- The peer filter (R285): (SRC xor PEER) and not PMASK = 0. -/
def peerPasses (src peer pmask : Nat) : Bool := (src ^^^ peer) &&& (0x1FFFF ^^^ pmask) == 0

/-- The rights of RB0 [57:53], as stored in `Region.flags`. -/
def Region.lwrite (r : Region) : Bool := r.flags.testBit 4
/-- RREAD. -/
def Region.rread (r : Region) : Bool := r.flags.testBit 3
/-- RWRITE. -/
def Region.rwrite (r : Region) : Bool := r.flags.testBit 2
/-- RATOMIC. -/
def Region.ratomic (r : Region) : Bool := r.flags.testBit 1
/-- SIDEFX. -/
def Region.sidefx (r : Region) : Bool := r.flags.testBit 0

/-- What a remote request asks of a key. -/
inductive Right where
  | read | write | atomic
  deriving DecidableEq, Repr

/-- The result of a key check: a refusal with its status, or the place. -/
inductive KeyCheck where
  | refused (status : Nat)
  /-- Host memory of a function: region index and offset within the region. -/
  | host (fn index off : Nat)
  /-- Fabric memory offset. -/
  | fabric (o : Nat)
  deriving DecidableEq, Repr

/-- The check of a local use (R290). For an export entry LADDR counts from byte 0 of the entry, the peer filter sees the
local endpoint, and RWRITE is the right of a local destination. -/
def Chip.localCheck (c : Chip) (fn : Nat) (k : BitVec 32) (addr len : Nat) (dest : Bool) : KeyCheck :=
  if isExportIndex (keyIndex k) && c.variant == .ik920 then .refused 0x02
  else match c.keyTarget? k with
    | none => .refused 0x02
    | some (.region i r) =>
      if r.fn ≠ fn then .refused 0x02
      else if dest && !r.lwrite then .refused 0x02
      else if addr < r.va ∨ r.va + r.length < addr + len then .refused 0x01
      else .host fn i (addr - r.va)
    | some (.exported _ base length attr) =>
      if !peerPasses (c.endpoint (fn / 256)) (bits attr 34 17) (bits attr 17 17) then .refused 0x02
      else if dest && !bitOf attr 61 then .refused 0x02
      else if length < addr + len then .refused 0x01
      else .fabric (base + addr)

/-- The check of a remote use at host port `h` from endpoint `src` (R290). -/
def Chip.remoteCheck (c : Chip) (h src : Nat) (k : BitVec 32) (right : Right) (off len : Nat) : KeyCheck :=
  if isExportIndex (keyIndex k) && c.variant == .ik920 then .refused 0x0B
  else match c.keyTarget? k with
    | none => .refused 0x03
    | some (.region i r) =>
      let ok := match right with | .read => r.rread | .write => r.rwrite | .atomic => r.ratomic
      if r.fn / 256 ≠ h ∨ !peerPasses src r.peer r.pmask ∨ !ok ∨ r.length < off + len then .refused 0x03
      else .host r.fn i off
    | some (.exported _ base length attr) =>
      let ok := match right with | .read => bitOf attr 62 | .write => bitOf attr 61 | .atomic => bitOf attr 60
      if !peerPasses src (bits attr 34 17) (bits attr 17 17) ∨ !ok ∨ length < off + len then .refused 0x03
      else .fabric (base + off)

/-- The function whose memory a key names, for R199 step 3. -/
def Chip.keyOwner? (c : Chip) (k : BitVec 32) : Option Nat :=
  match c.keyTarget? k with
  | some (.region _ r) => some r.fn
  | _ => none

/-- SIDEFX of what a key names (R294). -/
def Chip.keySidefx (c : Chip) (k : BitVec 32) : Bool :=
  match c.keyTarget? k with
  | some (.region _ r) => r.sidefx
  | some (.exported _ _ _ attr) => bitOf attr 59
  | none => false

/-! ### Translation (R286, R292) -/

/-- The bus address and run length at an offset of a region: no request crosses a page (R292). -/
def Region.at (r : Region) (off : Nat) : Nat × Nat :=
  let size := 2 ^ r.pageLog
  let x := r.va % size + off
  ((r.pages[x / size]?).getD 0 + x % size, size - x % size)

/-- The segments of a transfer, page by page; `fuel` is at least the pages touched. -/
def Region.segments (r : Region) : Nat → Nat → Nat → List (Nat × Nat)
  | 0, _, _ => []
  | fuel + 1, off, len =>
    if len = 0 then []
    else
      let (a, run) := r.at off
      let n := min run len
      (a, n) :: r.segments fuel (off + n) (len - n)

/-- The segments of `len` bytes at an offset. -/
def Region.run (r : Region) (off len : Nat) : List (Nat × Nat) := r.segments (len / 4096 + 2) off len

/-- The page of an untranslated address. -/
def pageOf (a : Nat) : Nat := a / 4096 * 4096

/-- The cached translation of a page. -/
def Chip.cachedPage? (c : Chip) (fn page : Nat) : Option Nat := (c.mem.atsCache.find? fun r => r.1 == fn && r.2.1 == page).map (·.2.2)

/-- Ask the host for the translation of a page and cache it, or raise the ATS fault where the host refuses it. What the host answers
lies outside the chip: a free value (R292). -/
def Chip.askPage (c : Chip) (fn page : Nat) : Chip × Option Nat :=
  let f := c.freeNow
  let c := (c.emit (.atsRequest fn page)).drawn
  let bus := f / 2 % 2 ^ 52 * 4096
  if f % 2 = 1 then (c.raise 0xB0 0x100 0 0, none)
  else ({ c with mem := { c.mem with atsCache := c.mem.atsCache ++ [(fn, page, bus)] } }, some bus)

/-- The segments with translated addresses, page by page; none once the host refuses one (R292). -/
def Chip.translateAll (c : Chip) (fn : Nat) : List (Nat × Nat) → Chip × Option (List (Nat × Nat))
  | [] => (c, some [])
  | (a, n) :: r =>
    let asked := match c.cachedPage? fn (pageOf a) with
      | some t => (c, some t)
      | none => c.askPage fn (pageOf a)
    match asked with
    | (c, none) => (c, none)
    | (c, some t) => match c.translateAll fn r with
      | (c, none) => (c, none)
      | (c, some l) => (c, some ((t + a % 4096, n) :: l))

/-- Cut segments at 4 KiB, the page of a translation. -/
def cut4k (l : List (Nat × Nat)) : List (Nat × Nat) :=
  l.flatMap fun s => (List.range ((s.1 % 4096 + s.2 + 4095) / 4096)).map fun i =>
    let lo := if i = 0 then s.1 else s.1 / 4096 * 4096 + i * 4096
    (lo, min (s.1 + s.2) (s.1 / 4096 * 4096 + (i + 1) * 4096) - lo)

/-- The bus addresses of a transfer: with ATS Enable translated, and none where the host refuses a translation; without it as the page
list gives them (R292). -/
def Chip.translate (c : Chip) (fn : Nat) (segs : List (Nat × Nat)) : Chip × Option (List (Nat × Nat)) :=
  if (c.fn fn).atsEnable then c.translateAll fn (cut4k segs) else (c, some segs)

/-- Write payload to bus addresses, segment by segment; where Relaxed Ordering is enabled the writes carry it (R101 allows
that; that they always do is a DESIGN CHOICE). -/
def Chip.dmaSegments (c : Chip) (h fn : Nat) : List (Nat × Nat) → List Byte → Chip
  | [], _ => c
  | (a, n) :: r, l => (c.emit (.dma h fn a (l.take n) (c.fn fn).relaxedOrdering)).dmaSegments h fn r (l.drop n)

/-- Write bytes where a key check placed them; the status where the check, or the host's translation of an address, refuses them.
`bad` is the status of the region-validity row: 0x02 for a local use, 0x03 for a remote one (R290, R292). -/
def Chip.place (c : Chip) (k : KeyCheck) (l : List Byte) (bad : Nat) : Chip × Option Nat :=
  match k with
  | .refused s => (c, some s)
  | .host fn i off =>
    match Tab.get? c.mem.regions i with
    | none => (c, some bad)
    | some r => match c.translate fn (r.run off l.length) with
      | (c, none) => (c, some bad)
      | (c, some segs) => (c.dmaSegments (fn / 256) fn segs l, none)
  | .fabric o => (c.hbmWrite o l, none)

/-- The bytes of a local source where a key check placed them, or the status of its failure (R281, R290, R292); none where the bytes
that the host port is said to have read are not as many. -/
def Chip.bytesAt (c : Chip) (k : KeyCheck) (n : Nat) (data : SourceData) : Chip × Option (Nat ⊕ List Byte) :=
  match k with
  | .refused s => (c, some (.inl s))
  | .fabric o => if c.mem.poisoned o n then (c.poisonRead o 7, some (.inl 4)) else (c, some (.inr (c.mem.read o n)))
  | .host fn i off =>
    match Tab.get? c.mem.regions i with
    | none => (c, some (.inl 2))
    | some r => match c.translate fn (r.run off n) with
      | (c, none) => (c, some (.inl 2))
      | (c, some _) => match data with
        | .failed => (c, some (.inl 2))
        | .bytes l => (c, if l.length = n then some (.inr l) else none)

end Sys2Proof.Machine
end

