-- ==== Sys2Proof/Machine/RouteTab.lean ====
section
/-! DEFINITION. Port roles, usable ports and the minimal candidates of the route tables (R309 to R316, R326, R482). -/

namespace Sys2Proof.Machine

/-- Local and global ports of the Jig service (R482). -/
def Variant.jigLocal : Variant → Nat
  | .ik960 | .ik940 => 31
  | .ik920 => 23
/-- Global ports of the Jig service. -/
def Variant.jigGlobal : Variant → Nat
  | .ik960 => 29
  | .ik940 => 5
  | .ik920 => 1
/-- Positions per group, S. -/
def Variant.jigS (v : Variant) : Nat := v.jigLocal + 1
/-- Groups, N. -/
def Variant.jigN (v : Variant) : Nat := v.jigS * v.jigGlobal + 1

/-- The latched group G (R482). -/
def Chip.jigG (c : Chip) : Nat := c.boot.strapLatch / 32
/-- The latched position P (R482). -/
def Chip.jigP (c : Chip) : Nat := c.boot.strapLatch % 32

/-- The role a fabric port has: P10.010 in full service, the canonical one in the Jig service, 0 where it stays Disabled
(R482): 0 unused, 1 local, 2 global. -/
def Chip.role (c : Chip) (p : Nat) : Nat :=
  if !c.hasPort p then 0
  else if c.full then c.param 0x10 0x010 p
  else
    let v := c.variant
    if v.jigS ≤ c.jigP then 0
    else if p < v.jigLocal then 1
    else if p < v.jigLocal + v.jigGlobal then if v.jigN ≤ c.jigG then 0 else 2
    else 0

/-- The canonical peer of a fabric port as (group, position); the position of a global port's peer is the one whose
own canonical port leads back (R482). -/
def Chip.jigPeer (c : Chip) (p : Nat) : Nat × Nat :=
  let v := c.variant
  if p < v.jigLocal then (c.jigG, (c.jigP + p + 1) % v.jigS)
  else
    let j := p - v.jigLocal
    let g := (c.jigG + v.jigGlobal * c.jigP + j + 1) % v.jigN
    let k := (c.jigG + v.jigN - g) % v.jigN
    (g, (k - 1) / v.jigGlobal)

/-- The canonical port of the peer that a fabric port arrives on. -/
def Chip.jigPeerPort (c : Chip) (p : Nat) : Nat :=
  let v := c.variant
  if p < v.jigLocal then v.jigLocal - 1 - p
  else
    let g := (c.jigPeer p).1
    let k := (c.jigG + v.jigN - g) % v.jigN
    v.jigLocal + (k - 1) % v.jigGlobal

/-- A fabric port's training state. -/
def Chip.tport (c : Chip) (p : Nat) : Port := Tab.get c.train p Port.init

/-- The learnt peer is the canonical one (R482). -/
def Chip.jigCanonical (c : Chip) (p : Nat) : Bool :=
  let l := (c.tport p).learnt
  let (g, q) := c.jigPeer p
  bitOf l 31 && bits l 6 15 == g * 32 + q && bits l 0 6 == c.jigPeerPort p

/-- A lane macro is stalled (R20): in block reset or held in it, with a handshake that has stalled, or with its transmit PLL
unlocked. -/
def Chip.macroStalled (c : Chip) (m : Nat) : Bool :=
  c.unitStopped (0x40 + m) || c.flt.stalled.contains (0x40 + m) || (c.src (0x40 + m) 0x102).now

/-- A fabric port is usable (R313): Active, and its lane macro not stalled, which counts as a port that is down (R20); in the Jig
service only towards its canonical peer (R482). -/
def Chip.usable (c : Chip) (p : Nat) : Bool :=
  (c.role p == 1 || c.role p == 2) && (c.tport p).state == .active && !c.macroStalled (p / 2) && (c.full || c.jigCanonical p)

/-- A routing value as FAB has installed it: while FAB is down, as it was when FAB stopped (R24). -/
def Chip.installed (c : Chip) (area obj e : Nat) : Nat :=
  match c.rt.frozen with
  | some t => (Tab.get? t (pnum area obj e)).getD (pDefault c.variant c.serial c.boot.strapLatch area obj e)
  | none => c.param area obj e

/-- FAB stops: the route tables and the hint weight stay as installed (R24). -/
def Chip.freezeRoutes (c : Chip) : Chip :=
  { c with rt := { c.rt with
      frozen := some (Tab.keep c.dict.active fun n _ => pArea n == 0x11 || (pArea n == 0x12 && pObj n == 0x003)) } }

/-- P11.010 (R309). -/
def Chip.usablePorts (c : Chip) : Nat :=
  maskOf ((List.range 60).filter c.usable ++
    ((List.range 4).filter fun h => bitOf (c.installed 0x11 0x003 h) 7).map (60 + ·))

/-- The host table lets a host port be reached (R318). -/
def Chip.hostEnabled (c : Chip) (h : Nat) : Bool := c.hasHost h && bitOf (c.installed 0x11 0x003 h) 7

/-- A candidate of the group table: port and FAR (R310). -/
structure Cand where
  port : Nat
  far : Nat
  deriving DecidableEq, Repr

/-- The valid candidates of a group table row, in slot order. -/
def groupCands (row : Nat) : List Cand :=
  ((List.range 4).filter fun i => bitOf row (63 - 16 * i)).map fun i =>
    { port := bits row (56 - 16 * i) 6, far := bits row (48 - 16 * i) 6 }

/-- The valid candidates of a position table row, in slot order (R311). -/
def positionCands (row : Nat) : List Cand :=
  (if bitOf row 15 then [{ port := bits row 8 6, far := 0 }] else []) ++
  (if bitOf row 7 then [{ port := bits row 0 6, far := 0 }] else [])

/-- The one canonical route of the Jig service to chip (g, q), as a port (R482). -/
def Chip.jigRoute (c : Chip) (g q : Nat) : Option Nat :=
  let v := c.variant
  if v.jigS ≤ q ∨ v.jigN ≤ g then none
  else if g = c.jigG then some ((q + v.jigS - c.jigP - 1) % v.jigS)
  else
    let k := (g + v.jigN - c.jigG % v.jigN) % v.jigN
    let pk := (k - 1) / v.jigGlobal
    let j := (k - 1) % v.jigGlobal
    if pk = c.jigP then some (v.jigLocal + j) else some ((pk + v.jigS - c.jigP - 1) % v.jigS)

/-- The chip's group and position as routing sees them: the latched ones in the Jig service. -/
def Chip.groupNo (c : Chip) : Nat := if c.full then c.id / 32 else c.jigG
/-- The chip's position. -/
def Chip.position (c : Chip) : Nat := if c.full then c.id % 32 else c.jigP

/-- The outcome of the table look-up of R314. -/
inductive Lookup where
  /-- Deliver to host-side port 60 + h. -/
  | host (h : Nat)
  /-- Two local hops in a row (R315). -/
  | misroute
  /-- The usable minimal candidates; empty = unroutable. -/
  | cands (l : List Cand)
  deriving DecidableEq, Repr

/-- The look-up of R314 for a packet at a level, arriving on input port `inp` (60 to 63 are host-side). -/
def Chip.lookup (c : Chip) (inp lvl : Nat) (p : Packet) : Lookup :=
  let g := p.dst.toNat / 128
  let q := p.dstChip % 32
  let target := if lvl = 0 then p.igrp.toNat else g
  let fromLocal := inp < 60 && c.role inp == 1
  if !c.full then
    if g = c.jigG ∧ q = c.jigP then .host p.dstPort
    else match c.jigRoute g q with
      | none => .cands []
      | some port =>
        if fromLocal && c.role port == 1 then if g = c.jigG then .misroute else .cands []
        else if c.usable port then .cands [{ port := port, far := 0 }] else .cands []
  else if target = c.groupNo then
    if q = c.position then .host p.dstPort
    else if fromLocal then .misroute
    else .cands ((positionCands (c.installed 0x11 0x002 q)).filter fun k => c.usable k.port)
  else
    let l := (groupCands (c.installed 0x11 0x001 target)).filter fun k => c.usable k.port
    .cands (if fromLocal then l.filter fun k => c.role k.port == 2 else l)

/-- Whether a packet injected here for an endpoint has a route over minimal candidates (R316). -/
def Chip.hasRoute (c : Chip) (dst : Nat) : Bool :=
  match c.lookup 60 0 { Packet.init with dst := BitVec.ofNat 17 dst, igrp := BitVec.ofNat 10 (dst / 128) } with
  | .host _ => true
  | .cands l => !l.isEmpty
  | .misroute => false

/-- The flow hash (R326). -/
def flowHash (p : Packet) (seed : Nat) : Nat :=
  (crc32c (bytesBE 3 p.src.toNat ++ bytesBE 3 p.dst.toNat ++ [BitVec.ofNat 8 p.tc.toNat, 0])).toNat ^^^ seed

end Sys2Proof.Machine
end

