-- ==== Sys2Proof/Machine/TransportOps.lean ====
section
/-! DEFINITION. The send halves of peer channels: operations, packets, windows, retirement, error (R161 to R192). -/

namespace Sys2Proof

/-- The weight of a request packet in the window: a READ counts its response packets (R191). -/
def Packet.windowWeight (p : Packet) : Nat := if p.opcode = 0x20 then packetsOf p.readLen else 1

end Sys2Proof

namespace Sys2Proof.Machine

/-! ### Channels -/


/-- The request traffic class of a channel. -/
def chTC (k : Nat) : Nat := classTC (k % 4)

/-- A peer channel, if it exists. -/
def Chip.chan? (c : Chip) (k : Nat) : Option Chan := Tab.get? c.tr.chans k

/-- Put a peer channel. -/
def Chip.putChan (c : Chip) (k : Nat) (x : Chan) : Chip := { c with tr := { c.tr with chans := Tab.put c.tr.chans k x } }

/-- Update a peer channel if it exists. -/
def Chip.updChan (c : Chip) (k : Nat) (f : Chan → Chan) : Chip :=
  { c with tr := { c.tr with chans := Tab.adjust c.tr.chans k f } }

/-! ### Destination state (R191, R192, R345) -/

/-- The destination state of a chip; a chip that enters the table starts at P21.040 (R192). -/
def Chip.dest (c : Chip) (chip : Nat) : Dest :=
  (Tab.get? c.tr.dests chip).getD { Dest.init with window := c.param 0x21 0x040 0 }

/-- Put the destination state of a chip. -/
def Chip.putDest (c : Chip) (chip : Nat) (d : Dest) : Chip := { c with tr := { c.tr with dests := Tab.put c.tr.dests chip d } }

/-- The outstanding count to a chip: unretired request packets, each READ by its response packets (R191). -/
def Chip.outstandingTo (c : Chip) (chip : Nat) : Nat :=
  c.tr.chans.foldl (fun n r => if chRemote r.1 / 4 = chip then r.2.outstanding.foldl (fun n o => n + o.weight) n else n) 0

/-- Transaction table slots in use: one per unacknowledged request packet (R170). -/
def Chip.slotsUsed (c : Chip) : Nat := c.tr.chans.foldl (fun n r => n + r.2.outstanding.length) 0

/-- The size of the transaction table (R170). -/
def transactionSlots : Nat := 262144

/-- ECNE or ECN from a chip: the window halves, at most once per P21.042 (R192). -/
def Chip.ecnFrom (c : Chip) (chip : Nat) : Chip :=
  let d := c.dest chip
  let due := match d.lastDecrease with
    | none => true
    | some t => t + c.param 0x21 0x042 0 ≤ c.now
  if due then
    c.putDest chip { d with window := max (c.param 0x21 0x041 0) (d.window / 2), lastDecrease := some c.now, retired := 0 }
  else c

/-- The window after `n` packets retired beyond those counted: W := min(top, W + 1) for every W of them; fuel at least `n`. -/
def growWindow (top : Nat) : Nat → Nat → Nat → Nat × Nat
  | 0, w, n => (w, n)
  | fuel + 1, w, n => if w ≤ n ∧ 0 < w then growWindow top fuel (min top (w + 1)) (n - w) else (w, n)

/-- `n` packets retired without ECNE: after every W of them the window grows by 1, up to P21.040 or the throttle's cap (R192,
R345). A READ counts its response packets as it does in the window, and a decrease starts the count again (DESIGN CHOICE: R192
says neither). -/
def Chip.retiredTo (c : Chip) (chip n : Nat) : Chip :=
  let d := c.dest chip
  let top := match d.cap with | some w => min w (c.param 0x21 0x040 0) | none => c.param 0x21 0x040 0
  let (w, left) := growWindow top (d.retired + n) d.window (d.retired + n)
  c.putDest chip { d with window := w, retired := left }

/-- A response from a chip clears its suspect mark (R169). -/
def Chip.heardFrom (c : Chip) (chip : Nat) : Chip :=
  if (c.dest chip).suspect then c.putDest chip { c.dest chip with suspect := false } else c

/-- Operations to a chip complete with 0x07: it is another chip, and it or the own chip is fenced (R341). -/
def Chip.fencedTo (c : Chip) (chip : Nat) : Bool := chip != c.id && (c.fenced chip || c.fenced c.id)

/-- The injection policer of a function: tokens in millibits; an untouched bucket is full (R356, R359). -/
def Chip.policer (c : Chip) (fn : Nat) : Int := (Tab.get? c.rt.policers fn).getD (c.param 0x1A 0x021 fn * 512000 : Nat)

/-- The policer lets the function start a packet (R359); rate 0 means not policed. -/
def Chip.policerOk (c : Chip) (fn : Nat) : Bool := c.param 0x1A 0x020 fn == 0 || 0 ≤ c.policer fn

/-- Debit the policer for a packet's cells. -/
def Chip.policerDebit (c : Chip) (fn cells : Nat) : Chip :=
  if c.param 0x1A 0x020 fn = 0 then c
  else { c with rt := { c.rt with policers := Tab.put c.rt.policers fn (c.policer fn - (cells * 512000 : Nat)) } }

/-! ### Timeouts (R180, R181) -/

/-- timeout(k) in ns. -/
def Chip.timeout (c : Chip) (k : Nat) : Nat := 1000 * min (c.param 0x21 0x030 0 * 2 ^ k) (c.param 0x21 0x031 0)

/-- T_R in µs, as P21.034 reports it (R181). -/
def Chip.retransmitTime (c : Chip) : Nat :=
  (List.range (c.param 0x21 0x032 0 + 1)).foldl (fun n k => n + min (c.param 0x21 0x030 0 * 2 ^ k) (c.param 0x21 0x031 0)) 0

/-- The packet age limit in ns (R333). -/
def Chip.ageLimit (c : Chip) : Nat := 1000 * c.param 0x08 0x005 0

/-! ### Transmission -/

/-- Count a request packet that a function's queues or windows inject (R449 kinds 3 and 4), and meter it (R359); a SYNC is no
function's. -/
def Chip.countInjected (c : Chip) (fn : Option Nat) (p : Packet) : Chip :=
  match fn with
  | none => c
  | some f => ((c.bumpFn 3 f).bumpFn 4 f p.payload.length).policerDebit f p.len.toNat

/-- Whether a packet of this weight may start now towards a chip (R191, R170). -/
def Chip.mayStart (c : Chip) (chip weight : Nat) : Bool :=
  c.outstandingTo chip + weight ≤ (c.dest chip).window && c.slotsUsed < transactionSlots

/-- A request packet leaves the transport engines, unless its destination has no route (R316). -/
def Chip.sendRequest (c : Chip) (k : Nat) (fn : Option Nat) (p : Packet) : Chip :=
  if c.hasRoute (chRemote k) then (c.countInjected fn p).inject (chHost k) p else c

/-- Put an unretired packet at its place in PSN order from `base`. -/
def insertOut (base : BitVec 24) (o : OutPkt) : List OutPkt → List OutPkt
  | [] => [o]
  | x :: l => if (o.psn - base).toNat < (x.psn - base).toNat then o :: x :: l else x :: insertOut base o l

/-- Send a request packet for the first time: a transaction slot, a deadline, the injection. -/
def Chip.transmit (c : Chip) (k : Nat) (fn : Option Nat) (p : Packet) : Chip :=
  let o : OutPkt :=
    { psn := p.psn, pkt := p, msgid := p.msgid, deadline := some (c.now + c.timeout 0)
      needsResp := p.opcode == 0x20 || (0x30 ≤ p.opcode && p.opcode ≤ 0x33), weight := p.windowWeight, fn := fn }
  let c := c.updChan k fun x => { x with outstanding := insertOut x.una o x.outstanding }
  c.sendRequest k fn p

/-- The PSNs of a channel that are not retired: outstanding, or given to an operation and not sent. -/
def Chan.openPsns (x : Chan) : List (BitVec 24) :=
  x.outstanding.map (·.psn) ++ x.ops.filterMap fun o => if o.started then o.unsent.head?.map Packet.psn else none

/-- The lowest unretired PSN, counting packets not yet sent. -/
def Chan.lowest (x : Chan) : BitVec 24 :=
  x.openPsns.foldl (fun a p => if (p - x.una).toNat < (a - x.una).toNat then p else a) x.nextPsn

/-- The packets of an operation with its PSNs and MSGID (R89 to R92, R95, R170). -/
def SendOp.packets (o : SendOp) (k src : Nat) (psn : BitVec 24) (m : BitVec 32) : List Packet :=
  let n := if o.opcode < 0x20 ∧ o.opcode ≠ 3 then packetsOf o.length else 1
  (List.range n).map fun i =>
    let (w0, w1, w2, w3) := requestWords o.opcode (i + 1 == n) o.solicit (psn + BitVec.ofNat 24 i) i n m o.lo o.lo2 o.w3
    { newPacket (chTC k) (kindOf o.opcode) (chRemote k) src o.ord w0 w1 w2 w3 ((o.data.drop (4096 * i)).take 4096) with spec := o.spec }

/-- The operation has not been started and waits to be. -/
def SendOp.waits (o : SendOp) : Bool := !o.started && o.status.isNone

/-- The operation of a channel that sends next: the first with packets left, else the first waiting one; the operations of a
function whose policer holds it do not hold up others (R359). -/
def Chip.nextOp (c : Chip) (x : Chan) : Option SendOp :=
  (x.ops.find? fun o => o.started && !o.unsent.isEmpty && c.policerOk o.fn).or (x.ops.find? fun o => o.waits && c.policerOk o.fn)

/-- Two operations belong to one work entry: chunks of a READ (R171). -/
def SendOp.sameEntry (a b : SendOp) : Bool := a.qn != 0 && a.fn == b.fn && a.qn == b.qn && a.pos == b.pos

/-- Start a waiting operation: it takes its MSGID and PSNs, and stands behind those that have theirs (R168, R170). The place of
a released entry takes a MSGID alone (R244). -/
def Chan.start (x : Chan) (k src : Nat) (o : SendOp) : Chan :=
  let ps := if o.held then [] else o.packets k src x.nextPsn x.nextMsgid
  let o' := { o with started := true, msgid := x.nextMsgid, firstPsn := x.nextPsn, unsent := ps }
  { x with
    ops := x.ops.filter (·.started) ++ o' :: eraseFirst (· == o) (x.ops.filter fun a => !a.started)
    nextPsn := x.nextPsn + BitVec.ofNat 24 ps.length, nextMsgid := x.nextMsgid + 1 }

/-- The key of the source is checked once more for each packet (R290): the status where it no longer holds. -/
def Chip.sourceCheck (c : Chip) (o : SendOp) (p : Packet) : Option Nat :=
  if !o.sourced ∨ o.status.isSome ∨ p.payload.isEmpty then none
  else match c.localCheck o.fn o.lkey (o.laddr + 4096 * p.pidx) p.payload.length false with
    | .refused s => some s
    | _ => none

/-- A packet that is not sent any more leaves its PSN to a NOP of its message. -/
def nopFor (k src : Nat) (p : Packet) : Packet :=
  let (w0, w1, w2, w3) := requestWords 0x41 true false p.psn 0 1 p.msgid 0 0 0
  newPacket (chTC k) 0x05 (chRemote k) src false w0 w1 w2 w3 []

/-- A key stops the remaining packets of a message (R290): it ends with the status, and the PSNs that its packets were given go
with NOPs of its MSGID, on which the receiver abandons it as under R220 (DESIGN CHOICE: no rule says what stands at those PSNs). -/
def Chan.stopOp (x : Chan) (k src : Nat) (o : SendOp) (status : Nat) : Chan :=
  { x with ops := mapIf (· == o)
                    (fun b => { b with status := some status, sourced := false, unsent := b.unsent.map (nopFor k src) }) x.ops }

/-- Transmit what the channel holds while the window, the table, the policers and the 1,024-PSN rule allow (R170, R191). -/
def Chip.pump (c : Chip) (k : Nat) : Nat → Chip
  | 0 => c
  | fuel + 1 =>
    match c.chan? k with
    | none => c
    | some x =>
      if x.sendState ≠ .active then c
      else match c.nextOp x with
        | none => c
        | some o =>
          if o.held then (c.putChan k (x.start k (c.endpoint (chHost k)) o)).pump k fuel
          else
          let y := if o.started then x else x.start k (c.endpoint (chHost k)) o
          match y.ops.find? fun a => a.started && !a.unsent.isEmpty && (a.msgid == o.msgid || !o.started) && c.policerOk a.fn with
          | none => c
          | some a => match a.unsent with
            | [] => c
            | p :: r =>
              if (p.psn - y.lowest).toNat < 1024 && c.mayStart (chRemote k / 4) p.windowWeight then
                match c.sourceCheck a p with
                | some s => (c.putChan k (y.stopOp k (c.endpoint (chHost k)) a s)).pump k fuel
                | none =>
                  let c := c.putChan k { y with ops := mapIf (· == a) (fun b => { b with unsent := r }) y.ops }
                  (c.transmit k (some a.fn) p).pump k fuel
              else c

/-- The SYNC of a channel: a NOP with SOLICIT (R164). -/
def syncPacket (k : Nat) (src : Nat) (psn : BitVec 24) (m : BitVec 32) : Packet :=
  let (w0, w1, w2, w3) := requestWords 0x41 true true psn 0 1 m 0 0 0
  newPacket (chTC k) 0x05 (chRemote k) src false w0 w1 w2 w3 []

/-- Send the SYNC that is due, if the window lets it start (R164, R191). -/
def Chip.sendSync (c : Chip) (k : Nat) : Chip :=
  match c.chan? k with
  | none => c
  | some x =>
    if x.sendState == .syncing && x.syncDue && c.mayStart (chRemote k / 4) 1 then
      let p := syncPacket k (c.endpoint (chHost k)) x.nextPsn x.nextMsgid
      let c := c.putChan k { x with
        syncPsn := x.nextPsn, syncDue := false, nextPsn := x.nextPsn + 1, nextMsgid := x.nextMsgid + 1 }
      c.transmit k none p
    else c

/-- Enter Syncing (R164, R167). -/
def Chip.startSync (c : Chip) (k : Nat) : Chip :=
  (c.updChan k fun x => { x with sendState := .syncing, syncDue := true }).sendSync k

/-- The packets of an operation. -/
def SendOp.count (o : SendOp) : Nat := if o.opcode < 0x20 ∧ o.opcode ≠ 3 then packetsOf o.length else 1

/-- Fuel that covers every packet a channel could still send. -/
def Chan.fuel (x : Chan) : Nat := x.ops.foldl (fun n o => n + (if o.started then o.unsent.length else o.count)) 1

/-! ### Completion at the requester (R187, R188, R190) -/

/-- A packet that a BUSY NAK has stopped for good: it is neither retransmitted nor resent (R197). -/
def OutPkt.dead (p : OutPkt) : Bool := p.deadline.isNone && p.resendAt.isNone

/-- An unretired packet that an operation still waits for. -/
def SendOp.waitsFor (o : SendOp) (p : OutPkt) : Bool := (p.psn - o.firstPsn).toNat < o.count && !p.dead

/-- An operation can be delivered: its status is decided and none of its packets is unsent or unretired (R176). -/
def SendOp.deliverable (o : SendOp) (x : Chan) : Bool :=
  o.status.isSome && o.unsent.isEmpty && (o.unrouted || !(o.started && x.outstanding.any o.waitsFor))

/-- The completion entry of a work entry's operation (R151, R152). LENGTH of an operation that failed after its
injection is a free value: the spec does not say how much was transferred. -/
def SendOp.completion (o : SendOp) (status free : Nat) : Completion :=
  let base : Completion :=
    { wrid := o.wrid, status := BitVec.ofNat 8 status, opcode := BitVec.ofNat 8 o.report
      length := BitVec.ofNat 32 (if status = 0 then o.total else free), peer := BitVec.ofNat 32 (o.dest * 2 ^ 15) }
  if status ≠ 0 then base
  else if o.opcode = 0x33 then
    { base with length := o.result.extractLsb' 32 32, peer := o.result.extractLsb' 0 32, result := o.result.extractLsb' 64 64 }
  else if 0x30 ≤ o.opcode ∧ o.opcode ≤ 0x32 then { base with result := o.result.extractLsb' 0 64 }
  else base

/-- The record and the key of an open offer go (R229 step 6). -/
def Chip.dropOffer (c : Chip) (index : Nat) : Chip :=
  { c with mt := { c.mt with
      sOffers := eraseFirst (fun o => o.index == index) c.mt.sOffers
      offerGen := Tab.put c.mt.offerGen index ((Tab.get c.mt.offerGen index 0 + 1) % 256) } }

/-- An open offer ends (R229 step 6, R231): its key goes, its record is free, the TAGGED SEND completes. -/
def Chip.endOffer (c : Chip) (index status length : Nat) : Chip :=
  match c.mt.sOffers.find? fun o => o.index == index with
  | none => c
  | some o =>
    let h := chHost o.chan
    let c := c.dropOffer index
    let cqn := (c.queue? h o.qn).elim 0 (·.cqn)
    let p : Completion :=
      { wrid := o.wrid, opcode := 0x02, length := BitVec.ofNat 32 length, peer := BitVec.ofNat 32 (o.dest * 2 ^ 15) }
    let c := if status ≠ 0 ∨ o.signal then
        c.complete { h := h, fn := o.fn, qn := o.qn, cqn := cqn, recv := false, ctx := none, status := status } p
      else c
    let c := c.closePos h o.qn o.pos
    if status = 0x05 ∨ status = 0x06 ∨ status = 0x11 then c.queueError h o.qn 3 status else c

/-- Complete one delivered operation. An OFFER message that succeeds leaves its offer open (R230). -/
def Chip.finishOp (c : Chip) (k : Nat) (o : SendOp) (status : Nat) : Chip :=
  let h := chHost k
  if o.held then c
  else if let some i := o.soffer then if status = 0 then c else (c.endOffer i status c.freeNow).drawn
  else if o.window.isSome ∨ o.toffer.isSome then
    { c with tr := { c.tr with finished := c.tr.finished ++ [{ o with status := some status }] } }
  else if !o.lastChunk then
    if status = 0 then c
    else c.updChan k fun x =>
      { x with ops := mapIf (fun a => a.sameEntry o && a.status.getD 0 == 0) (fun a => { a with status := some status }) x.ops }
  else if o.silent then c.closePos h o.qn o.pos
  else
    let free := c.freeNow
    let c := if status = 0 then c else c.drawn
    let cqn := (c.queue? h o.qn).elim 0 (·.cqn)
    let c := if status ≠ 0 ∨ o.signal then
        c.complete { h := h, fn := o.fn, qn := o.qn, cqn := cqn, recv := false, ctx := none, status := status } (o.completion status free)
      else c
    let c := c.closePos h o.qn o.pos
    if status = 0x05 ∨ status = 0x06 ∨ status = 0x11 then c.queueError h o.qn 3 status else c

/-- Deliver the completed operations at the head of a channel, in MSGID order (R188). -/
def Chip.deliverOps (c : Chip) (k : Nat) : Nat → Chip
  | 0 => c
  | fuel + 1 =>
    match c.chan? k with
    | none => c
    | some x =>
      match x.ops with
      | [] => c
      | o :: r =>
        if o.deliverable x then
          ((c.putChan k { x with ops := r }).finishOp k o (o.status.getD 0)).deliverOps k fuel
        else c

/-- Deliver what a channel can. -/
def Chip.deliverChan (c : Chip) (k : Nat) : Chip := c.deliverOps k ((c.chan? k).elim 0 fun x => x.ops.length)

/-- An operation that was never injected fails (R190): it completes after every earlier entry of its SQ. -/
def Chip.failUnsent (c : Chip) (k status : Nat) (o : SendOp) : Chip :=
  let h := chHost k
  if o.held then c
  else if o.window.isSome ∨ o.toffer.isSome then
    { c with tr := { c.tr with finished := c.tr.finished ++ [{ o with status := some status }] } }
  else if !o.lastChunk then c
  else
    let c := match o.soffer with | some i => c.dropOffer i | none => c
    if o.silent then c.closePos h o.qn o.pos
    else
      let p := o.completion status c.freeNow
      let c := c.drawn.updQueue h o.qn fun q => { q with failed := q.failed ++ [(o.pos, p)] }
      c.drainFailed h o.qn ((c.queue? h o.qn).elim 0 fun q => q.failed.length)

/-- Every waiting operation of a channel fails with a status and no packet is sent (R168, R190, R316). The chunks left of a READ
that has chunks on the way complete with them. -/
def Chip.failWaiting (c : Chip) (k status : Nat) : Chip :=
  match c.chan? k with
  | none => c
  | some x =>
    let begun (o : SendOp) : Bool := x.ops.any fun a => a.started && a.sameEntry o
    let gone := x.ops.filter fun o => o.waits && !begun o
    let c := c.putChan k { x with
      ops := (x.ops.filter fun o => !(o.waits && !begun o)).map fun o => if o.waits then { o with status := some status } else o }
    (gone.foldl (fun c o => c.failUnsent k status o) c).deliverChan k

/-- The destination of an Active channel has no route (R168, R316): its waiting operations complete with 0x08, and so do those
that would send or send again; their packets that are already on the way keep their slots and deadlines. -/
def Chip.noRoute (c : Chip) (k : Nat) (sending : SendOp → Bool) : Chip :=
  ((c.updChan k fun x =>
    { x with ops := x.ops.map fun o =>
               if o.started && o.status.isNone && sending o then { o with status := some 8, unrouted := true } else o }).failWaiting
    k 8).deliverChan k

/-- Start waiting operations and transmit. -/
def Chip.runChan (c : Chip) (k : Nat) : Chip :=
  match c.chan? k with
  | none => c
  | some x =>
    if x.sendState ≠ .active then c.sendSync k
    else
      let c := if x.ops.isEmpty || c.hasRoute (chRemote k) then c else c.noRoute k fun o => !o.unsent.isEmpty
      (c.pump k x.fuel).deliverChan k

/-- Run every channel towards a chip: a freed window lets the SQs that wait for it go on (R191). -/
def Chip.runChip (c : Chip) (chip : Nat) : Chip :=
  (c.tr.chans.filter fun r => chRemote r.1 / 4 == chip).foldl (fun c r => c.runChan r.1) c

/-- Deliver, then transmit what has become possible. -/
def Chip.advanceChan (c : Chip) (k : Nat) : Chip := (c.deliverChan k).runChip (chRemote k / 4)

/-- An operation whose packets are all retired succeeds, unless it waits for a response (R187). -/
def Chan.settleOps (x : Chan) : Chan :=
  { x with ops := x.ops.map fun o =>
      if o.started && !o.held && o.status.isNone && o.unsent.isEmpty && !(x.outstanding.any o.waitsFor) &&
        !(o.opcode == 0x20 || (0x30 ≤ o.opcode && o.opcode ≤ 0x33))
      then { o with status := some 0 } else o }

/-- Retire the unretired packets that a test selects (R179): slots free, the window learns of them. -/
def Chip.retire (c : Chip) (k : Nat) (p : OutPkt → Bool) (ecne : Bool) : Chip :=
  match c.chan? k with
  | none => c
  | some x =>
    let gone := x.outstanding.filter p
    let x := { x with outstanding := x.outstanding.filter fun o => !p o }
    let c := c.putChan k ({ x with una := x.lowest }).settleOps
    if gone.isEmpty ∨ ecne then c
    else c.retiredTo (chRemote k / 4) (gone.foldl (fun n o => n + o.weight) 0)

/-! ### The context cache (R193 to R196) -/

/-- A number of a context, for the choice of its set. -/
def ctxCode : CtxKey → Nat
  | .channel k => 2 * k
  | .queue h qn => 2 * qKey h qn + 1
  | .descriptor n => n
  | .translation i => i

/-- Ways of a set of the context cache (R193). -/
def cacheWays : Nat := 16

/-- Two contexts compete for the ways of one set: 2,048 sets hold the 32,768 queue contexts, 7,808 the 124,928 peer channels; which
set a context falls into is free (R193). -/
def sameSet : CtxKey → CtxKey → Bool
  | .channel a, .channel b => Config.cacheSet (ctxCode (.channel a)) % 7808 == Config.cacheSet (ctxCode (.channel b)) % 7808
  | .queue g a, .queue h b => Config.cacheSet (ctxCode (.queue g a)) % 2048 == Config.cacheSet (ctxCode (.queue h b)) % 2048
  | _, _ => false

/-- A context that is not evicted (R194). -/
def Chip.ctxPinned (c : Chip) : CtxKey → Bool
  | .channel k => (c.chan? k).elim false fun x => !x.outstanding.isEmpty || x.atomicBlock || x.ops.any fun o => o.started && o.opcode == 0x20
  | .queue h qn => (c.queue? h qn).elim false fun q => !q.cached.isEmpty
  | _ => false

/-- A set of the cache has a free way for a context. -/
def Chip.wayFree (c : Chip) (ctx : CtxKey) : Bool :=
  decide (c.tr.resident.length < cacheWays) || decide ((c.tr.resident.filter (sameSet ctx)).length < cacheWays)

/-- The ways of a context's set that may be evicted, most recently used first (R194). -/
def Chip.evictable (c : Chip) (ctx : CtxKey) : List CtxKey :=
  c.tr.resident.filter fun v => sameSet ctx v && !c.ctxPinned v && !(c.tr.evicting.any fun e => e.2 == v)

/-- A context is resident, or finds a way in its set (R194). -/
def Chip.hasWay (c : Chip) (ctx : CtxKey) : Bool := c.tr.resident.contains ctx || c.wayFree ctx || !(c.evictable ctx).isEmpty

/-- The victim of a set: CON's choice, a free value; while CON is down the least recently used way (R25, R193). -/
def Chip.victim? (c : Chip) (ctx : CtxKey) : Option CtxKey :=
  let l := c.evictable ctx
  if c.clusterUp 2 then l[c.freeNow % l.length]? else l.getLast?

/-- Queue contexts that the HBM victim cache holds. -/
def victimSlots : Nat := 2097152

/-- A context leaves the device for host memory: a queue's context area, or on the IK-920 the area of the peer channels (R37,
R126, R195). -/
def Chip.contextOut (c : Chip) (ctx : CtxKey) : Chip :=
  match ctx with
  | .queue h qn => (c.queue? h qn).elim c fun q => c.emit (.contextWrite h q.fn q.context ctx)
  | .channel _ => if c.variant == .ik920 then c.emit (.contextWrite 0 0 (c.param 0x28 0x002 0) ctx) else c
  | _ => c

/-- A victim is written back and leaves the cache (R195): a queue context to the victim cache, whose oldest entry leaves a full
one, or on the IK-920 to its context area directly. -/
def Chip.evict (c : Chip) (v : CtxKey) : Chip :=
  let c := { c with tr := { c.tr with resident := c.tr.resident.erase v, evicting := c.tr.evicting.filter fun e => e.2 != v } }
  match v, c.variant with
  | .queue _ _, .ik960 | .queue _ _, .ik940 =>
    let l := v :: c.tr.victims
    let c := { c with tr := { c.tr with victims := l.take victimSlots } }
    (l.drop victimSlots).foldl (fun c x => c.contextOut x) c
  | _, _ => c.contextOut v

/-- A context becomes resident as the most recently used one. -/
def Chip.install (c : Chip) (ctx : CtxKey) : Chip :=
  { c with tr := { c.tr with
      resident := ctx :: c.tr.resident.erase ctx, victims := c.tr.victims.erase ctx
      evicting := c.tr.evicting.filter fun e => e.1 != ctx && e.2 != ctx } }

/-- The device uses a context: it becomes resident, in a way that is free or whose victim goes, and a write-back of it that has
not finished is cancelled (R195). Where every way is pinned nothing changes. -/
def Chip.touch (c : Chip) (ctx : CtxKey) : Chip :=
  if c.tr.resident.contains ctx || c.wayFree ctx then c.install ctx
  else match c.victim? ctx with
    | some v => (c.drawn.evict v).install ctx
    | none => c

/-- The fetch of a missing context begins: where its set is full, the write-back of a victim does too (R195). -/
def Chip.beginFetch (c : Chip) (ctx : CtxKey) : Chip :=
  if c.wayFree ctx || c.tr.evicting.any fun e => e.1 == ctx then c
  else match c.victim? ctx with
    | some v => { c.drawn with tr := { c.tr with evicting := c.tr.evicting ++ [(ctx, v)] } }
    | none => c

/-- The fetch of a context has returned: its victim, if it still has one, leaves. -/
def Chip.endFetch (c : Chip) (ctx : CtxKey) : Chip :=
  match ctx with
  | .channel _ | .queue _ _ =>
    match c.tr.evicting.find? fun e => e.1 == ctx with
    | some e => (c.evict e.2).install ctx
    | none => c.touch ctx
  | _ => c

/-! ### Error and fence (R168, R169) -/

/-- The open offers of a channel whose OFFER message has completed: they precede the operations still on it (R231). -/
def Chip.openOffers (c : Chip) (k : Nat) (x : Chan) : List Nat :=
  (c.mt.sOffers.filter fun o => o.chan == k && !(x.ops.any fun a => a.soffer == some o.index)).map (·.index)

/-- Complete the started operations of a channel with a status, in MSGID order; those already decided keep theirs. The waiting
ones go on waiting, but for the chunks left of a READ that fails (R168, R169). -/
def Chip.failOps (c : Chip) (k status : Nat) : Chip :=
  match c.chan? k with
  | none => c
  | some x =>
    let ops := x.ops.filter (·.started)
    let c := (c.openOffers k x).foldl (fun c i => (c.endOffer i status c.freeNow).drawn) c
    let c := c.updChan k fun x =>
      { x with ops := x.ops.filter (fun o => !o.started), outstanding := [], syncDue := false, limitHit := false }
    (ops.foldl (fun c o => c.finishOp k o (o.status.getD status)) c).deliverChan k

/-- DETAIL of event 0x04 and of the transport records: class and remote endpoint (R156, R467). -/
def peerDetail (k : Nat) : Nat := chTC k * 2 ^ 61 + chRemote k

/-- A peer channel goes to Error (R169): its operations complete with 0x05, event 0x04 and the suspect mark. -/
def Chip.chanError (c : Chip) (k : Nat) : Chip :=
  match c.chan? k with
  | none => c
  | some x =>
    let chip := chRemote k / 4
    let failedFns := (x.ops.filter fun o => o.qn != 0 && o.started).map (·.fn) ++
      (c.mt.sOffers.filter fun o => (c.openOffers k x).contains o.index).map (·.fn)
    let suspect := (c.dest chip).suspect
    let c := c.updChan k fun x => { x with sendState := .error, errorAt := c.now }
    let c := c.failOps k 0x05
    let c := c.raise 0xA3 0x100 4 chip (BitVec.ofNat 64 (peerDetail k))
    let c := if suspect then c
      else (insertNat (chHost k * 256) (failedFns.foldl (fun l f => insertNat f l) [])).foldl
        (fun c f => if c.silentFn f then c else c.postEvent f 0x04 0xA3 0 (peerDetail k)) c
    c.putDest chip { c.dest chip with suspect := true }

/-- A fence on the destination of a channel: Fenced, its operations complete with 0x07 (R168). -/
def Chip.chanFence (c : Chip) (k : Nat) : Chip :=
  match c.chan? k with
  | none => c
  | some x =>
    if x.sendState == .syncing || x.sendState == .active || x.sendState == .error then
      ((c.updChan k fun x => { x with sendState := .fenced }).failOps k 0x07).failWaiting k 0x07
    else c

/-- The fence on the destination of a channel is removed: Error, and the packet age limit starts (R168, R343). -/
def Chip.chanUnfence (c : Chip) (k : Nat) : Chip :=
  c.updChan k fun x => if x.sendState == .fenced then { x with sendState := .error, errorAt := c.now } else x

/-! ### Starting an operation (R161, R163, R168, R316) -/

/-- The place that a released entry has taken for an operation (R244). -/
def Chan.place? (x : Chan) (o : SendOp) : Option SendOp := x.ops.find? fun a => a.held && a.sameEntry o

/-- A released entry that has been read back fills its place: it has its MSGID, and takes the next PSNs (R244). -/
def Chan.fill (x : Chan) (k src : Nat) (a o : SendOp) : Chan :=
  let ps := if a.started then o.packets k src x.nextPsn a.msgid else []
  let o' := { o with started := a.started, msgid := a.msgid, firstPsn := x.nextPsn, unsent := ps }
  { x with ops := replaceFirst (· == a) o' x.ops, nextPsn := x.nextPsn + BitVec.ofNat 24 ps.length }

/-- An operation stands in a channel: at the place its held entry has taken, or behind all others. -/
def Chan.join (x : Chan) (k src : Nat) (o : SendOp) : Chan :=
  match x.place? o with
  | some a => x.fill k src a o
  | none => { x with ops := x.ops ++ [o] }

/-- An operation joins its channel: the channel is created and synchronised as its state needs. -/
def Chip.enqueueOp (c : Chip) (k : Nat) (o : SendOp) : Chip :=
  let x := (c.chan? k).getD Chan.init
  let c := (c.putChan k (x.join k (c.endpoint (chHost k)) { o with total := max o.total o.length })).touch (.channel k)
  match x.sendState with
  | .none => c.startSync k
  | .error => if x.errorAt + c.ageLimit ≤ c.now then c.startSync k else c
  | _ => c.runChan k

/-- The channel can take an operation: it exists, be it by its receive half alone, or CON is up to create it, and its context is
resident or finds a way (R25, R163, R194). That a channel which exists by its receive half alone takes operations while CON is down is
a DESIGN CHOICE: R163 and R25 do not say whether its send half counts as a new channel. -/
def Chip.chanReady (c : Chip) (k : Nat) : Bool := (c.clusterUp 2 || (c.chan? k).isSome) && c.hasWay (.channel k)

/-- The status with which an operation to an endpoint fails before injection: fenced, or no route (R168, R341, R316). -/
def Chip.preFail (c : Chip) (dest : Nat) : Option Nat :=
  if c.fencedTo (dest / 4) then some 0x07 else if !c.hasRoute dest then some 0x08 else none

/-- The channel of an SQ entry (R161). -/
def entryChan (h : Nat) (e : Entry) : Nat := chKey h e.dest e.cls

/-- The messages that an entry sends: its chunks, of a READ (R171). -/
def Chip.messagesOf (c : Chip) (e : Entry) : Nat :=
  if e.opcode = 0x20 then divUp e.length (c.param 0x21 0x035 0) else 1

/-- A released entry takes the next MSGIDs of its channel where that is Active (R244); elsewhere it takes them when it is read
back and the channel has synchronised. A collective sends none. -/
def Chip.placeHeld (c : Chip) (e : HeldEnt) : Chip :=
  let k := entryChan (e.fn / 256) e.entry
  match c.chan? k with
  | none => c
  | some x =>
    if x.sendState ≠ .active ∨ 0x60 ≤ e.entry.opcode then c
    else
      let o : SendOp := { fn := e.fn, qn := e.qn, pos := e.pos, held := true, opcode := e.entry.opcode, dest := e.entry.dest }
      (c.putChan k { x with ops := x.ops ++ List.replicate (c.messagesOf e.entry) o }).runChan k

/-- A MSGID whose released entry does not run goes with a NOP, as that of a message that fails with 0x06 does (R220; DESIGN
CHOICE: no rule says it of a held entry, and a receiver would wait for the MSGID for ever). -/
def SendOp.asNop (o : SendOp) (k src : Nat) (psn : BitVec 24) : SendOp :=
  let n : SendOp := { fn := o.fn, opcode := 0x41, silent := true, status := none, started := true, msgid := o.msgid, firstPsn := psn }
  { n with unsent := n.packets k src psn o.msgid }

/-- The places of a channel whose held entries are gone: those with a MSGID become NOPs, the others leave. -/
def Chan.freePlaces (x : Chan) (k src : Nat) (gone : SendOp → Bool) : Chan :=
  let step (x : Chan) (o : SendOp) : Chan :=
    if !gone o then { x with ops := x.ops ++ [o] }
    else if !o.started then x
    else { x with ops := x.ops ++ [o.asNop k src x.nextPsn], nextPsn := x.nextPsn + 1 }
  x.ops.foldl step { x with ops := [] }

/-- The channels learn of held entries that have been released or have gone in this step (R244, R245). -/
def Chip.heldPlaces (c : Chip) : Chip :=
  if !c.tg.due then c
  else
    let fresh := c.tg.held.filter fun e => e.released && !e.placed
    let c := { c with tg := { c.tg with due := false, held := mapIf (·.released) (fun e => { e with placed := true }) c.tg.held } }
    let c := fresh.foldl Chip.placeHeld c
    let gone (o : SendOp) : Bool := o.held && !c.tg.held.any fun e => e.fn == o.fn && e.qn == o.qn && e.pos == o.pos
    (c.tr.chans.filter fun r => r.2.ops.any gone).foldl (fun c r =>
      (c.updChan r.1 fun x => x.freePlaces r.1 (c.endpoint (chHost r.1)) gone).runChan r.1) c

/-- Operations of one entry are put on the channel in order. -/
def Chip.enqueueOps (c : Chip) (k : Nat) (l : List SendOp) : Chip := l.foldl (fun c o => c.enqueueOp k o) c

/-- LENGTH as the wire carries it: 0 stands for 2,147,483,648 (R90, R91). -/
def wireLength (n : Nat) : Nat := n % 2147483648

/-- The chunks of a READ of `len` bytes at most `chunk` each, as (offset, length); fuel at least their number (R171). -/
def readChunks (chunk len : Nat) : Nat → Nat → List (Nat × Nat)
  | 0, _ => []
  | fuel + 1, off =>
    if len ≤ off + chunk then [(off, len - off)] else (off, chunk) :: readChunks chunk len fuel (off + chunk)

end Sys2Proof.Machine
end

