-- ==== Sys2Proof/Machine/LinkOps.lean ====
section
/-! DEFINITION. The link layer: headers, CRC, input buffers and credit, transmission, replay, LCBs (R365 to R389). -/

namespace Sys2Proof

/-- The end of a packet on the link before its link CRC: the shim check, or payload and end check (R79). -/
def Packet.tailBytes (p : Packet) : List Byte := if p.isShim then bytesBE 4 p.check.toNat else p.payload ++ p.check.be

/-- The bytes of a packet between its link header and its link CRC (R79). -/
def Packet.linkBody (p : Packet) : List Byte := p.hdr0.be ++ p.hdr1.be ++ p.body ++ p.tailBytes

/-- BYTES: link header and link CRC included (R366). -/
def Packet.linkBytes (p : Packet) : Nat := if p.isShim then 64 else 68 + p.payload.length

/-- The cells that the packet's bytes fill. -/
def Packet.cells (p : Packet) : Nat := lenOf p.isShim p.payload.length

/-- CRC-8 with polynomial 0x07 (R366). -/
def crc8 (l : List Byte) : Nat := l.foldl (fun c b => crcPlain 8 0x07 8 (c ^^^ b.toNat)) 0

/-- The link header (R366). -/
def linkHeader (lsn : BitVec 12) (nbytes : Nat) (pool rpl : Bool) : Word :=
  let w := mkWord [(0xA, 60), (lsn.toNat, 48), (nbytes, 35), (natOfBool pool, 34), (natOfBool rpl, 33)]
  w ||| BitVec.ofNat 64 (crc8 (w.be.take 7))

/-- A header error (R366). -/
def headerBad (w : Word) : Bool :=
  w.field 63 60 != 0xA || !(w.field 47 35 == 64 || (68 ≤ w.field 47 35 && w.field 47 35 ≤ 4164)) ||
  w.field 7 0 != crc8 (w.be.take 7)

/-- The LSN of a link header. -/
def headerLsn (w : Word) : BitVec 12 := BitVec.ofNat 12 (w.field 59 48)

/-- The link CRC (R367). -/
def linkCrc (hdr : Word) (p : Packet) : BitVec 32 := crc32c (hdr.be ++ p.linkBody)

/-- Words of a byte list, most significant byte first; bytes that are missing count as zero. -/
def wordAt (l : List Byte) (i : Nat) : Word := BitVec.ofNat 64 (natBE (((l.drop i) ++ zeros 8).take 8))

/-- The packet that link bytes 8 onward carry, up to the link CRC (R79, R81, R96): a shim packet where they are `shim` bytes of one
cell, else a transport packet with what follows its header as payload and end check. -/
def Packet.ofBytes (l : List Byte) (shim : Bool) : Packet :=
  let h := wordAt l 0
  let g := wordAt l 8
  let rest := l.drop 48
  let n := rest.length - 8
  { vc := BitVec.ofNat 5 (h.field 63 59), tc := BitVec.ofNat 3 (h.field 58 56), len := BitVec.ofNat 7 (h.field 55 49)
    hops := BitVec.ofNat 4 (h.field 48 45), ord := h.getLsbD 44, nmin := h.getLsbD 43, ecn := h.getLsbD 42, spec := h.getLsbD 41
    kind := BitVec.ofNat 7 (h.field 40 34), dst := BitVec.ofNat 17 (h.field 33 17), src := BitVec.ofNat 17 (h.field 16 0)
    igrp := BitVec.ofNat 10 (g.field 63 54), rsvd := BitVec.ofNat 6 (g.field 53 48), injt := BitVec.ofNat 48 (g.field 47 0)
    w0 := wordAt l 16, w1 := wordAt l 24, w2 := wordAt l 32, w3 := wordAt l 40
    payload := if shim then [] else rest.take n
    check := if shim then BitVec.ofNat 64 (natBE (rest.take 4)) else BitVec.ofNat 64 (natBE (rest.drop n)) }

/-- The packet with the bytes of LEN cells (R330): filled up with zero bytes, or cut; one that has them already stays as it is. -/
def Packet.filled (p : Packet) (len : Nat) : Packet :=
  if p.cells = len then p
  else
    let n := min 4096 (64 * len - 68)
    let tail := (p.tailBytes ++ zeros (n + 8)).take (n + 8)
    { p with payload := tail.take n, check := BitVec.ofNat 64 (natBE (tail.drop n)) }

/-- The freed counts of an LCB as bytes. -/
def freedBytes (l : List (BitVec 16)) : List Byte := ((l ++ List.replicate 8 0).take 8).flatMap fun (f : BitVec 16) => bytesBE 2 f.toNat

/-- The content bytes c0 to c57 of an LCB (R369). -/
def Lcb.content (l : Lcb) : List Byte :=
  [l.kind, BitVec.ofNat 8 (natOfBool l.sop * 128 + natOfBool l.ackv * 64 + natOfBool l.nakv * 32)] ++
  bytesBE 2 l.ackLsn.toNat ++ bytesBE 2 l.nakLsn.toNat ++ bytesBE 3 l.xoff.toNat ++ [l.cgrp] ++ freedBytes l.freed ++
  ((l.item ++ zeros 32).take 32)

/-- An LCB with LCHK computed. -/
def Lcb.sealed (l : Lcb) : Lcb := { l with lchk := crc32c l.content }

/-- The two control blocks of an LCB (R369, R411): type codes 0x55 and 0x66, then c0 to c30 and c31 to c61. -/
def Lcb.blocks (l : Lcb) : List PortBlock :=
  let b := l.content ++ bytesBE 4 l.lchk.toNat
  [{ ctl := true, bytes := 0x55 :: b.take 31 }, { ctl := true, bytes := 0x66 :: b.drop 31 }]

/-- The content bytes c0 to c61 that two halves carry. -/
def LcbHalves.content (h : LcbHalves) : List Byte := h.first.drop 1 ++ h.second.drop 1

/-- The fields of an LCB as they arrive; reserved bits are passed over (R369). -/
def LcbHalves.lcb (h : LcbHalves) : Lcb :=
  let b := h.content
  let cAt (i : Nat) : Byte := (b[i]?).getD 0
  let num (i n : Nat) : Nat := natBE ((b.drop i).take n)
  { kind := cAt 0, sop := (cAt 1).getLsbD 7, ackv := (cAt 1).getLsbD 6, nakv := (cAt 1).getLsbD 5
    ackLsn := BitVec.ofNat 12 (num 2 2), nakLsn := BitVec.ofNat 12 (num 4 2), xoff := BitVec.ofNat 23 (num 6 3), cgrp := cAt 9
    freed := (List.range 8).map fun i => BitVec.ofNat 16 (num (10 + 2 * i) 2)
    item := (b.drop 26).take 32, lchk := BitVec.ofNat 32 (num 58 4) }

/-- An LCB that is discarded whole (R371): LCHK, computed over the bytes as they came, is wrong, or its halves did not arrive beside
each other, or one lies in an uncorrectable codeword. -/
def LcbHalves.discarded (h : LcbHalves) : Bool :=
  !h.adjacent || h.codewordBad || h.first.headD 0 != 0x55 || h.second.headD 0 != 0x66 || h.lcb.lchk != crc32c (h.content.take 58)

end Sys2Proof

namespace Sys2Proof.Machine

/-! ### Ports and rates -/

/-- A fabric port's link layer. -/
def Chip.link (c : Chip) (p : Nat) : Link := Tab.get c.links p Link.init

/-- Update a link. -/
def Chip.updLink (c : Chip) (p : Nat) (f : Link → Link) : Chip := { c with links := Tab.upd c.links p Link.init f }

/-- Update the receive side of a link. -/
def Chip.updRx (c : Chip) (p : Nat) (f : RxSide → RxSide) : Chip := c.updLink p fun l => { l with rx := f l.rx }

/-- Update the transmit side of a link. -/
def Chip.updTx (c : Chip) (p : Nat) (f : TxSide → TxSide) : Chip := c.updLink p fun l => { l with tx := f l.tx }

/-- Update a port's training record. -/
def Chip.updPortT (c : Chip) (p : Nat) (f : Port → Port) : Chip := { c with train := Tab.upd c.train p Port.init f }

/-- A fabric port is Active (R395). -/
def Chip.portActive (c : Chip) (p : Nat) : Bool := c.hasPort p && (c.tport p).state == .active

/-- Lanes in use. -/
def Port.laneCount (t : Port) : Nat := (setBits 2 t.lanes).length

/-- The payload rate in Gb/s: 50, 100 or 200 per lane (R390). -/
def Port.payloadRate (t : Port) : Nat := t.laneCount * (50 * 2 ^ t.rate)

/-- A port's payload rate in Gb/s; host-side ports run at 400 Gb/s (the router's 64 ports of R16's table). -/
def Chip.rateOf (c : Chip) (p : Nat) : Nat := if p < 60 then (c.tport p).payloadRate else 400

/-- The port carries only the Shim channel: one of its ends reports JIG (R400). -/
def Chip.shimOnly (c : Chip) (p : Nat) : Bool := !c.full || (c.tport p).jigPeer

/-- The chip at the far end of a port: as learnt, or as expected where nothing has been learnt (R390, R73). -/
def Chip.neighbour? (c : Chip) (p : Nat) : Option Nat :=
  let l := (c.tport p).learnt
  let x := c.param 0x10 0x011 p
  if bitOf l 31 then some (bits l 6 15) else if bitOf x 31 then some (bits x 6 15) else none

/-! ### Input buffers (R381, R383) -/

/-- Cells of the reserve of a VC. -/
def reserveCells : Nat := 66
/-- Cells of the shared pool. -/
def poolCells : Nat := 14866

/-- Pool cells held by all VCs. -/
def RxSide.poolTotal (r : RxSide) : Nat := r.poolUsed.foldl (fun n x => n + x.2) 0

/-- H (R383). -/
def Chip.headroom (c : Chip) (p : Nat) : Nat := 2 * divUp (c.param 0x19 0x001 p) 68 + 66
/-- T (R383). -/
def Chip.xoffThreshold (c : Chip) (p : Nat) : Nat := poolCells - c.headroom p

/-- The XOFF bit of a VC after its present occupancy (R383). -/
def Chip.xoffBit (c : Chip) (p : Nat) (r : RxSide) (v : Nat) : Bool :=
  let t := c.xoffThreshold p
  let cap := c.param 0x19 0x002 v
  let hyst := c.param 0x19 0x003 0
  let used := Tab.get r.poolUsed v 0
  if t ≤ r.poolTotal || cap < used then true
  else if r.poolTotal + hyst < t && used + hyst < cap then false
  else r.xoff.getLsbD v

/-- The part of the buffer that a header names has room for the packet (R381). -/
def RxSide.room (r : RxSide) (vc n : Nat) (pool : Bool) : Bool :=
  if pool then r.poolTotal + n ≤ poolCells else Tab.get r.reserveUsed vc 0 + n ≤ reserveCells

/-! ### Transmission (R373, R376, R378, R380) -/

/-- Units of the replay buffer that a packet takes. -/
def replayUnits (p : Packet) : Nat := divUp p.linkBytes 32

/-- The reserve of a VC at the far end has room (R380). -/
def TxSide.reserveRoom (t : TxSide) (vc n : Nat) : Bool :=
  n ≤ reserveCells - (Tab.get t.sentRes vc 0 - Tab.get t.freedRes vc 0).toNat

/-- The link layer of a port reports room for a packet as it would leave (R328, R378, R380, R400). -/
def Chip.linkRoom (c : Chip) (port : Nat) (p : Packet) : Bool :=
  let t := (c.link port).tx
  c.portActive port && (p.tc == 0 || !c.shimOnly port) && t.replay.length < 2047 &&
  t.replay.foldl (fun n s => n + s.units) 0 + replayUnits p ≤ 6144 &&
  (!t.xoff.getLsbD p.vc.toNat || t.reserveRoom p.vc.toNat p.len.toNat)

/-- Fill data blocks with bytes of packets; full ones go out (R365). -/
def Chip.streamOut (c : Chip) (port : Nat) (l : List Byte) : Chip :=
  let all := (c.link port).tx.left ++ l
  let n := all.length / 32
  (c.updTx port fun t => { t with left := all.drop (32 * n) }).sendPort port (c.tport port).lanes
    ((List.range n).map fun i => { ctl := false, bytes := (all.drop (32 * i)).take 32 })

/-- Pad the data block that is being filled (R365). -/
def Chip.padBlock (c : Chip) (port : Nat) : Chip :=
  let n := (c.link port).tx.left.length
  if n = 0 then c else c.streamOut port (zeros (32 - n))

/-- A packet as it goes on the line (R366 to R368). -/
def Chip.sendLink (c : Chip) (port : Nat) (s : Sent) (rpl : Bool) : Chip :=
  let hdr := linkHeader s.lsn s.pkt.linkBytes s.pool rpl
  let crc := if s.stomped then linkCrc hdr s.pkt ^^^ 0xFFFFFFFF else linkCrc hdr s.pkt
  (c.emit (.packet port hdr s.pkt crc)).streamOut port (hdr.be ++ s.pkt.linkBody ++ bytesBE 4 crc.toNat)

/-- The link layer starts a packet: its LSN, its place in the replay buffer, its part of the far buffer and its credit (R373, R376,
R380). -/
def Chip.linkStart (c : Chip) (port : Nat) (p : Packet) : Chip :=
  let v := p.vc.toNat
  c.updTx port fun t =>
    let pool := !t.xoff.getLsbD v
    { t with
      nextLsn := t.nextLsn + 1
      replay := t.replay ++ [{ lsn := t.nextLsn, pkt := p, pool := pool, units := replayUnits p, sending := true }]
      sentRes := if pool then t.sentRes else Tab.set t.sentRes 0 v (Tab.get t.sentRes v 0 + BitVec.ofNat 16 p.len.toNat)
      lastAdvance := if t.replay.isEmpty then c.now else t.lastAdvance }

/-- One packet of a replay: RPL = 1, HCHK and the link CRC afresh, stomped again where it was (R376). -/
def Chip.resend (c : Chip) (port : Nat) (s : Sent) : Chip := (c.sendLink port s true).bump port .replayed

/-! ### LCBs (R369 to R372) -/

/-- Rank of an item kind: width-change message, then time exchange, then Spline hint (R372). -/
def itemRank (k : Nat) : Nat := match k with | 3 => 0 | 2 => 1 | _ => 2

/-- The waiting item of highest priority, the oldest of its kind. -/
def TxSide.nextItem (t : TxSide) : Option (Nat × List Byte) :=
  match t.items.find? fun i => itemRank i.1 == 0 with
  | some i => some i
  | none => match t.items.find? fun i => itemRank i.1 == 1 with
    | some i => some i
    | none => t.items.head?

/-- The item of a width-change or retrain message (R402). -/
def widthItem (msg tseq chip port lanes : Nat) : List Byte :=
  [BitVec.ofNat 8 msg, BitVec.ofNat 8 tseq] ++ bytesBE 2 chip ++ [BitVec.ofNat 8 port, BitVec.ofNat 8 lanes] ++ zeros 26

/-- Queue an item for the next LCBs. -/
def Chip.queueItem (c : Chip) (port kind : Nat) (item : List Byte) : Chip :=
  c.updTx port fun t => { t with items := t.items ++ [(kind, item)] }

/-- The own request of a port that is not answered yet: it stands in every LCB (R402). -/
def Chip.ownRequest (c : Chip) (port : Nat) : Option (List Byte) :=
  let h := (c.tport port).hs
  h.own.map fun m => widthItem m h.tseq c.id port (if m = 1 then h.lanes else 0)

/-- A packet of the port is on its way and its end is not sent yet. -/
def TxSide.inPacket (t : TxSide) : Bool := t.replay.any fun s => s.sending

/-- An LCB of a port as its state makes it; SOP = the next data block begins with a link header (R375). -/
def Chip.buildLcb (c : Chip) (port : Nat) : Lcb :=
  let l := c.link port
  let sop := l.tx.left.isEmpty && !l.tx.inPacket
  let queued := match l.tx.items.find? fun i => itemRank i.1 == 0 with
    | some i => some i
    | none => match c.ownRequest port with
      | some b => some (3, b)
      | none => l.tx.nextItem
  let (kind, item) := queued.getD (0, zeros 32)
  let vcs := (List.range 8).map fun i => 8 * l.tx.cgrp + i
  Lcb.sealed
    { kind := BitVec.ofNat 8 kind, sop := sop, ackv := l.rx.accepted, nakv := l.rx.nakDue
      ackLsn := if l.rx.accepted then l.rx.expect - 1 else 0, nakLsn := if l.rx.nakDue then l.rx.expect else 0
      xoff := l.rx.xoff, cgrp := BitVec.ofNat 8 l.tx.cgrp
      freed := vcs.map fun v => if v < 23 then Tab.get l.rx.freed v 0 else 0
      item := item }

/-- Remove the item that the LCB just built carries; an own request stays until it is answered. -/
def TxSide.itemSent (t : TxSide) (own : Bool) : TxSide :=
  match t.items.find? fun i => itemRank i.1 == 0 with
  | some i => { t with items := t.items.erase i }
  | none => if own then t else match t.nextItem with
    | some i => { t with items := t.items.erase i }
    | none => t

/-- A time exchange item takes its stamp TTX as the LCB is sent (R434). -/
def Chip.stampLcb (c : Chip) (l : Lcb) : Lcb :=
  if l.kind = 2 then Lcb.sealed { l with item := l.item.take 8 ++ Word.be c.tb.time ++ l.item.drop 16 } else l

/-- The timebase keeps the stamp of the item that the LCB carries (R436). -/
def Chip.noteStamp (c : Chip) (port : Nat) (l : Lcb) : Chip :=
  if l.kind = 2 then
    { c with tb := { c.tb with peers := Tab.upd c.tb.peers port Peer.init fun x => { x with sentAt := Tab.put x.sentAt (l.item.headD 0).toNat c.tb.time } } }
  else c

/-- Send an LCB (R372): the next one is due P19.004 later. -/
def Chip.sendLcb (c : Chip) (port : Nat) : Chip :=
  let l := c.stampLcb (c.buildLcb port)
  let c := c.noteStamp port l
  let nak := (c.link port).rx.nakDue
  let own := (c.ownRequest port).isSome
  let c := ((c.emit (.lcb port l)).sendPort port (c.tport port).lanes l.blocks).bump port .nakSent (natOfBool nak)
  let c := c.updRx port fun r => { r with nakDue := false }
  c.updTx port fun t => { (t.itemSent own) with cgrp := (t.cgrp + 1) % 3, lcbNext := c.now + c.param 0x19 0x004 0 }

/-- An LCB goes at the next block boundary, on an Active port (R372). -/
def Chip.lcbNow (c : Chip) (port : Nat) : Chip := if c.portActive port then c.sendLcb port else c

/-- LCB_SEND: the interval of P19.004 is over (R372). -/
def Chip.lcbInterval (c : Chip) (port : Nat) : Chip := if (c.link port).tx.lcbNext ≤ c.now then c.lcbNow port else c

/-- A NAK for E goes out in an LCB at once (R372, R374). -/
def Chip.nakDue (c : Chip) (port : Nat) : Chip :=
  (c.updRx port fun r => { r with nakDue := true, nakSent := true }).lcbNow port

/-- Decide the XOFF map again; a change goes out in two LCBs back to back (R372, R383). -/
def Chip.decideXoff (c : Chip) (p : Nat) : Chip :=
  let r := (c.link p).rx
  let m := BitVec.ofNat 23 (maskOf ((List.range 23).filter (c.xoffBit p r)))
  if m = r.xoff then c else ((c.updRx p fun r => { r with xoff := m }).lcbNow p).lcbNow p

/-- Take cells of the input buffer for an accepted packet. -/
def Chip.takeCells (c : Chip) (p vc n : Nat) (pool : Bool) : Chip :=
  (c.updRx p fun r =>
    if pool then { r with poolUsed := Tab.set r.poolUsed 0 vc (Tab.get r.poolUsed vc 0 + n) }
    else { r with reserveUsed := Tab.set r.reserveUsed 0 vc (Tab.get r.reserveUsed vc 0 + n) }).decideXoff p

/-- Free the cells of an accepted packet: reserve cells return credit (R381, R382). -/
def Chip.freeCells (c : Chip) (p vc n : Nat) (pool : Bool) : Chip :=
  if 60 ≤ p then c
  else
    (c.updRx p fun r =>
      if pool then { r with poolUsed := Tab.set r.poolUsed 0 vc (Tab.get r.poolUsed vc 0 - n) }
      else
        { r with
          reserveUsed := Tab.set r.reserveUsed 0 vc (Tab.get r.reserveUsed vc 0 - n)
          freed := Tab.set r.freed 0 vc (Tab.get r.freed vc 0 + BitVec.ofNat 16 n) }).decideXoff p

/-- Replay from the oldest unacknowledged packet (R375, R376): the block is padded and an LCB with SOP goes first. -/
def Chip.replayAll (c : Chip) (port : Nat) : Chip :=
  let l := (c.link port).tx.replay
  let c := (c.padBlock port).sendLcb port
  let c := l.foldl (fun c s => c.resend port s) c
  c.updTx port fun t => { t with replays := t.replays + 1, replayDue := false }

/-- A replay begins; where a packet is in progress, once that is complete (R375). -/
def Chip.startReplay (c : Chip) (port : Nat) : Chip :=
  if (c.link port).tx.inPacket then c.updTx port fun t => { t with replayDue := true } else c.replayAll port

/-- The end of the packet that a port started last has come (R373, R376): it goes out, stomped where its input found it bad (R368), and a
replay that waited for it follows. -/
def Chip.linkEnd (c : Chip) (port : Nat) (p : Packet) (stomped : Bool) : Chip :=
  match (c.link port).tx.replay.find? fun s => s.sending with
  | none => c
  | some s =>
    let s := { s with pkt := p, stomped := stomped, sending := false }
    let c := c.updTx port fun t => { t with replay := mapIf (fun x => x.sending) (fun _ => s) t.replay }
    let c := (c.sendLink port s false).bump port .sent
    if (c.link port).tx.replayDue then c.replayAll port else c

/-- Transmit a packet for the first time, whole. -/
def Chip.linkSend (c : Chip) (port : Nat) (p : Packet) : Chip := (c.linkStart port p).linkEnd port p false

/-- The oldest `n` packets of the replay buffer are acknowledged (R376, R377). -/
def Chip.ackOldest (c : Chip) (port n : Nat) : Chip :=
  if n = 0 then c
  else c.updTx port fun t => { t with replay := t.replay.drop n, replays := 0, lastAdvance := c.now }

/-- How many packets an LSN lies behind the oldest unacknowledged one. -/
def TxSide.distance (t : TxSide) (lsn : BitVec 12) : Nat :=
  match t.replay.head? with
  | some s => (lsn - s.lsn).toNat
  | none => (lsn - t.nextLsn).toNat

/-- A credit field: an older value is ignored (R380). -/
def TxSide.takeCredit (t : TxSide) (v : Nat) (f : BitVec 16) : TxSide :=
  let old := Tab.get t.freedRes v 0
  if 32768 ≤ (f - old).toNat then t else { t with freedRes := Tab.set t.freedRes 0 v f }

/-- The credit fields of an LCB. -/
def TxSide.takeCredits (t : TxSide) (l : Lcb) : TxSide :=
  (List.range 8).foldl (fun t i =>
    let v := 8 * l.cgrp.toNat + i
    if v < 23 then t.takeCredit v ((l.freed[i]?).getD 0) else t) t

/-! ### The handshake that starts a retrain (R405) -/

/-- Ask the peer for a retrain; REASON is the reason of the own cause. A retrain already asked for stays. -/
def Chip.startRetrain (c : Chip) (port reason : Nat) : Chip :=
  if !c.portActive port ∨ (c.tport port).hs.own = some 5 then c
  else c.updPortT port fun t =>
    { t with hs := { t.hs with own := some 5, tseq := (t.hs.tseq + 1) % 256, lanes := 0, since := c.now, tries := 1, reason := reason } }

/-- The FAB cluster runs; without it a link that is down stays down, and nothing is done about degradation (R24, R386). -/
def Chip.fabUp (c : Chip) : Bool := c.clusterUp 1

/-- Replays without advance have reached the limit: the link retrains with REASON 8, as Degradation states (R377, R386, R395). -/
def Chip.checkProgress (c : Chip) (port : Nat) : Chip :=
  if c.param 0x19 0x014 0 ≤ (c.link port).tx.replays ∧ c.fabUp then c.startRetrain port 8 else c

/-- A valid NAK that starts a replay (R376, R386). -/
def Chip.nakReplay (c : Chip) (port n : Nat) : Chip :=
  let c := (c.ackOldest port n).updLink port fun l => { l with windowNaks := l.windowNaks + 1 }
  (c.startReplay port).checkProgress port

/-- The NAK of an LCB (R376). -/
def Chip.takeNak (c : Chip) (port : Nat) (lsn : BitVec 12) : Chip :=
  let c := c.bump port .nakReceived
  let t := (c.link port).tx
  let n := t.distance lsn
  if n < t.replay.length then c.nakReplay port n else if n = t.replay.length then c.ackOldest port n else c

/-- The ACK of an LCB (R374, R376). -/
def Chip.takeAckLsn (c : Chip) (port : Nat) (lsn : BitVec 12) : Chip :=
  let t := (c.link port).tx
  let n := t.distance lsn
  if n < t.replay.length then c.ackOldest port (n + 1) else c

/-- An LCB arrives at an Active port (R369 to R371, R375, R376, R380). -/
def Chip.lcbReceive (c : Chip) (port : Nat) (h : LcbHalves) : Chip :=
  if !c.portActive port then c
  else if h.discarded then c.bump port .lcbError
  else
    let l := h.lcb
    let c := if 3 ≤ l.cgrp.toNat then c.bump port .lcbError else c.updTx port fun t => t.takeCredits l
    let c := c.updTx port fun t => { t with xoff := l.xoff }
    let c := if l.sop then c.updRx port fun r => { r with lost := false } else c
    let unknown := 4 ≤ l.kind.toNat || (l.kind == 3 && !(1 ≤ (l.item.headD 0).toNat && (l.item.headD 0).toNat ≤ 6))
    let c := if unknown then c.bump port .unknownItem else c
    let c := if l.ackv then c.takeAckLsn port l.ackLsn else c
    if l.nakv then c.takeNak port l.nakLsn else c

/-- The replay timeout (R377). -/
def Chip.replayTimeout (c : Chip) (port : Nat) : Chip :=
  let t := (c.link port).tx
  if c.portActive port && !t.replay.isEmpty && t.lastAdvance + c.param 0x19 0x005 0 ≤ c.now then
    ((c.startReplay port).updTx port fun t => { t with lastAdvance := c.now }).checkProgress port
  else c

end Sys2Proof.Machine
end

