-- ==== Sys2Proof/Machine/RouterOps.lean ====
section
/-! DEFINITION. The router core: routing, adaptive choice, hints, gates, shapers, output starts (R309 to R336, R346 to R364). -/

namespace Sys2Proof

/-- The packet's age in units of 0.25 ns at a fabric time (R84, R333). -/
def Packet.age (p : Packet) (time : Word) : Nat :=
  let a := (BitVec.ofNat 48 time.toNat - p.injt).toNat
  if 2 ^ 47 ≤ a then 0 else a

/-- The packet as it leaves on a fabric output: HOPS, and VC over a global port (R83, R87). -/
def Packet.leaving (p : Packet) (global : Bool) : Packet :=
  { p with hops := p.hops + 1, vc := if global && p.tc != 1 then p.vc + 1 else p.vc }

/-- The level of a packet (R86). -/
def Packet.level (p : Packet) : Nat := levelOfVc p.vc.toNat

/-- The header checks of R97 that the first cell of a packet decides. -/
def Packet.startFails (p : Packet) : Bool :=
  let vc := p.vc.toNat
  23 ≤ vc || tcOfVc vc != p.tc.toNat || kindBad p.kind.toNat p.tc.toNat vc || p.len.toNat == 0 || 66 < p.len.toNat ||
  (p.isShim && (p.len.toNat != 1 || !p.checkOk))

/-- The header checks of R97. -/
def Packet.headerFails (p : Packet) : Bool := p.startFails || p.len.toNat != p.cells

end Sys2Proof

namespace Sys2Proof.Machine

/-! ### Queues for outputs (R331) -/

/-- The unit of the router core. -/
def routerUnit : Nat := 0xA0

/-- A discard counted at a port, with the router core's source of the same kind (R87, R97, R315, R316, R332, R333). -/
def Chip.routerDrop (c : Chip) (port : Nat) (k : Ctr) (cause : Nat) : Chip := (c.bump port k).raise routerUnit cause 1 port

/-- Cells of TC2 to TC7 queued for an output (R321). -/
def Chip.queuedCells (c : Chip) (out : Nat) : Nat :=
  c.rt.waiting.foldl (fun n w => if w.out == out && 2 ≤ w.pkt.tc.toNat then n + w.pkt.len.toNat else n) 0

/-! ### The gate of an output (R360 to R364) -/

/-- The gate in force at an output. -/
def Chip.gate (c : Chip) (out : Nat) : Gate := Tab.get c.rt.gates out Gate.init

/-- Whether a class is open in an entry word's OPEN field, bits [7:2]. -/
def openIn (mask tc : Nat) : Bool := mask.testBit tc

/-- The gate is open for a class. -/
def Gate.isOpen (g : Gate) (tc : Nat) : Bool := !g.enabled || openIn ((g.opens[g.entry]?).getD 0) tc

/-- Gate control of an output, as the active parameters state it: ENABLE and ENTRIES. -/
def Chip.gateControl (c : Chip) (out : Nat) : Bool × Nat :=
  let x := c.param 0x1A 0x030 out
  (bitOf x 31, bits x 16 5)

/-- DURATION (in 0.25 ns) and OPEN of the entries of the active schedule. -/
def Chip.gateEntries (c : Chip) (out : Nat) : List (Nat × Nat) :=
  (List.range (c.gateControl out).2).map fun e =>
    let x := c.param 0x1A (0x040 + e) out
    (4 * bits x 8 24, bits x 0 8)

/-- The time from now to a fabric time, 0 once it has come, in 0.25 ns. -/
def untilTime (now t : Word) : Nat := if (now - t).toNat < 2 ^ 63 then 0 else (t - now).toNat

/-- The entries in force from now on, one cycle: (time left in 0.25 ns, OPEN). -/
def Gate.ahead (g : Gate) (time : Word) : List (Nat × Nat) :=
  let all := (g.durations.zip g.opens).map fun r => (4 * r.1, r.2)
  let now := (untilTime time g.endsAt, (g.opens[g.entry]?).getD 0)
  now :: (all.drop (g.entry + 1) ++ all.take g.entry)

/-- How long a class stays open along a list of entries, and whether it stays open through all of them. -/
def openAlong (tc : Nat) : List (Nat × Nat) → Nat × Bool
  | [] => (0, true)
  | (d, m) :: r => if openIn m tc then let (n, all) := openAlong tc r; (d + n, all) else (0, false)

/-- The time for which an open class stays open, in 0.25 ns; none = without limit (R361, R363, R364). -/
def Chip.windowLeft (c : Chip) (out tc : Nat) : Option Nat :=
  let g := c.gate out
  let now := c.tb.time
  let old : Nat × Bool := if g.enabled then openAlong tc (g.ahead now) else (0, true)
  match g.next with
  | none => if old.2 then none else some old.1
  | some t =>
    let switch := untilTime now t
    if !old.2 && old.1 < switch then some old.1
    else
      let (n, all) := openAlong tc (c.gateEntries out)
      if all then none else some (switch + n)

/-- The guard test of R363 for a packet on a fabric output. -/
def Chip.gateAllows (c : Chip) (out tc len : Nat) : Bool :=
  (c.gate out).isOpen tc &&
  match c.windowLeft out tc with
  | none => true
  | some w => let r := c.rateOf out; decide (len * 2048 + 4 * r * c.param 0x1A 0x003 0 ≤ w * r)

/-! ### Buckets (R351, R356 to R358) -/

/-- One cell in millibits. -/
def cellTokens : Nat := 512000

/-- Tokens of the TC1 cap bucket of an output; an untouched bucket is full. -/
def Chip.tc1Tokens (c : Chip) (out : Nat) : Int := (Tab.get? c.rt.tc1Tokens out).getD (264 * cellTokens : Nat)

/-- Tokens of the shaper of (output, class), P1A.050. -/
def Chip.shaper (c : Chip) (out tc : Nat) : Int :=
  (Tab.get? c.rt.shapers (out * 8 + tc)).getD (c.param 0x1A 0x011 (out * 8 + tc) * cellTokens : Nat)

/-- The shaper of a class allows a start. -/
def Chip.shaperOk (c : Chip) (out tc : Nat) : Bool := c.param 0x1A 0x010 (out * 8 + tc) == 0 || 0 ≤ c.shaper out tc

/-- Debit the shaper for a started packet. -/
def Chip.shaperDebit (c : Chip) (out tc len : Nat) : Chip :=
  if 60 ≤ out ∨ c.param 0x1A 0x010 (out * 8 + tc) = 0 then c
  else { c with rt := { c.rt with shapers := Tab.put c.rt.shapers (out * 8 + tc) (c.shaper out tc - (len * cellTokens : Nat)) } }

/-! ### The scheduler's list (R352) -/

/-- The scheduler of an output. -/
def Chip.sched (c : Chip) (out : Nat) : OutSched := Tab.get c.rt.scheds out OutSched.init

/-- Put the scheduler of an output. -/
def Chip.putSched (c : Chip) (out : Nat) (s : OutSched) : Chip := { c with rt := { c.rt with scheds := Tab.put c.rt.scheds out s } }

/-- A class is active at an output: a packet waits, its shaper allows it, its gate is open. -/
def Chip.classActive (c : Chip) (out tc : Nat) : Bool :=
  c.rt.waiting.any (fun w => w.out == out && w.pkt.tc.toNat == tc && !w.started) &&
  (60 ≤ out || (c.shaperOk out tc && (c.gate out).isOpen tc))

/-- Bring the round-robin list up to date: a class that stops leaves with its deficit, one that starts joins the tail. -/
def Chip.refreshOut (c : Chip) (out : Nat) : Chip :=
  let s := c.sched out
  let now := [2, 3, 4, 5, 6, 7].filter (c.classActive out)
  let kept := s.active.filter now.contains
  let list := kept ++ now.filter fun t => !kept.contains t
  if list = s.active then c
  else c.putSched out
    { s with
      active := list
      deficit := s.deficit.filter fun r => kept.contains r.1
      visiting := s.visiting.bind fun t => if kept.contains t then some t else none }

/-- A queued packet leaves its buffer: its cells are freed when no other copy of it waits (R331), and
its class may stop being active (R352). A packet whose end has not arrived has no cells taken yet; its end finds it discarded (R313). -/
def Chip.leaveBuffer (c : Chip) (w : Waiting) : Chip :=
  let c := ({ c with rt := { c.rt with waiting := eraseFirst (fun x => x.id == w.id && x.out == w.out) c.rt.waiting } } : Chip).refreshOut w.out
  if !w.whole || c.rt.waiting.any (fun x => x.id == w.id) then c else c.freeCells w.inp w.vc w.pkt.len.toNat w.pool

/-- Bring every output's list up to date. -/
def Chip.refreshAll (c : Chip) : Chip := (List.range 64).foldl Chip.refreshOut c

/-- A packet joins the queue of its output. -/
def Chip.enqueue (c : Chip) (w : Waiting) : Chip :=
  ({ c with rt := { c.rt with waiting := c.rt.waiting ++ [w] } }).refreshOut w.out

/-- A packet that the collective engine hands to a fabric output (R317): it enters at host-side port 60, as SRC says. -/
def Chip.enqueueTree (c : Chip) (out : Nat) (p : Packet) : Chip :=
  let w : Waiting := { inp := 60, vc := p.vc.toNat, out := out, pkt := c.stamped p, id := c.rt.nextId, copy := true }
  ({ c with rt := { c.rt with nextId := c.rt.nextId + 1 } }).enqueue w

/-! ### Adaptive choice (R320 to R326) -/

/-- The hint level of the peer's port, 0 where the hint is stale or absent (R321, R325). -/
def Chip.hintLevel (c : Chip) (port far : Nat) : Nat :=
  match Tab.get? c.rt.hints port with
  | some h => if h.seenAt + 4000 < c.now then 0 else (h.levels[far]?).getD 0
  | none => 0

/-- cost(c) (R321). `positional` = a position table candidate. -/
def Chip.cost (c : Chip) (positional : Bool) (k : Cand) : Nat :=
  let l := if positional || c.role k.port == 2 then 0 else c.hintLevel k.port k.far
  c.queuedCells k.port + c.installed 0x12 0x003 0 * l * c.param 0x12 0x004 0 / 16

/-- The candidate of lowest cost, in the lower slot among equals. -/
def Chip.cheapest (c : Chip) (positional : Bool) : List Cand → Option (Cand × Nat)
  | [] => none
  | k :: r =>
    let n := c.cost positional k
    match c.cheapest positional r with
    | some (k', n') => if n' < n then some (k', n') else some (k, n)
    | none => some (k, n)

/-- The usable candidates of a group, with the restriction of R314. -/
def Chip.groupUsable (c : Chip) (fromLocal : Bool) (g : Nat) : List Cand :=
  let l := (groupCands (c.installed 0x11 0x001 g)).filter fun k => c.usable k.port
  if fromLocal then l.filter fun k => c.role k.port == 2 else l

/-- The groups that a draw may give (R322). -/
def Chip.drawable (c : Chip) (dstGroup : Nat) : List Nat :=
  (List.range 1024).filter fun g => g != c.groupNo && g != dstGroup && !(groupCands (c.installed 0x11 0x001 g)).isEmpty

/-- One drawn group as a non-minimal route: group, candidate, Cnm (R322). -/
def Chip.drawnRoute (c : Chip) (fromLocal : Bool) (g : Nat) : Option (Nat × Cand × Nat) :=
  (c.cheapest false (c.groupUsable fromLocal g)).map fun r => (g, r.1, 2 * r.2 + c.param 0x12 0x002 0)

/-- The better of two draws: the lower Cnm, the first among equals (R323). -/
def betterDraw (a b : Option (Nat × Cand × Nat)) : Option (Nat × Cand × Nat) :=
  match a, b with
  | some x, some y => if y.2.2 < x.2.2 then some y else some x
  | some x, none => some x
  | none, y => y

/-- The draws of R322: two, or one, or none, by free values. -/
def Chip.draw (c : Chip) (fromLocal : Bool) (dstGroup : Nat) : Chip × Option (Nat × Cand × Nat) :=
  let gs := c.drawable dstGroup
  let pick (f : Nat) : Nat := (gs[f % max 1 gs.length]?).getD 0
  match gs.length with
  | 0 => (c, none)
  | 1 => (c.drawn, c.drawnRoute fromLocal (pick c.freeNow))
  | _ => (c.drawn.drawn, betterDraw (c.drawnRoute fromLocal (pick c.freeNow)) (c.drawnRoute fromLocal (pick c.drawn.freeNow)))

/-- The output chosen among candidates, and the group of a non-minimal route (R320 to R326). -/
def Chip.choose (c : Chip) (inp : Nat) (p : Packet) (l : List Cand) (positional : Bool) : Chip × Option (Nat × Option Nat) :=
  let mode := c.param 0x12 0x001 0
  if 2 ≤ p.tc.toNat && !p.ord && mode < 2 && c.full then
    match c.cheapest positional l with
    | none => (c, none)
    | some (k, cmin) =>
      if mode = 0 ∧ p.level = 0 ∧ !p.nmin then
        let (c', d) := c.draw (inp < 60 && c.role inp == 1) (p.dst.toNat / 128)
        match d with
        | some (g, k', n) => (c', some (if n < cmin then (k'.port, some g) else (k.port, none)))
        | none => (c', some (k.port, none))
      else (c, some (k.port, none))
  else (c, (l[flowHash p (c.param 0x12 0x005 0) % max 1 l.length]?).map fun k => (k.port, none))

/-! ### Routing (R314 to R318, R332, R333) -/

/-- What routing decides for a packet. -/
inductive Routed where
  /-- Queue it for an output, with NMIN and IGRP as written. -/
  | to (out : Nat) (p : Packet)
  /-- Discard it: the counter at the input port and the router core's cause. -/
  | drop (k : Ctr) (cause : Nat)
  /-- Hand it to a collective engine (R246). -/
  | tree
  /-- A broadcast: FENCE_BROADCAST and THROTTLE_BROADCAST copy it. -/
  | broadcast
  deriving DecidableEq, Repr

/-- The packet is above the age limit (R333). -/
def Chip.tooOld (c : Chip) (p : Packet) : Bool := 4 * c.ageLimit < p.age c.tb.time

/-- The checks of a fabric output that was chosen (R87, R332). -/
def Chip.checkOut (c : Chip) (out : Nat) (p : Packet) : Routed :=
  if p.hops == 8 then .drop .hopLimit 0x104
  else if c.role out == 2 && p.level == 2 && p.tc != 1 then .drop .levelOverflow 0x101
  else .to out p

/-- Route a packet by R314. -/
def Chip.routeByTables (c : Chip) (inp : Nat) (p : Packet) : Chip × Routed :=
  let target := if p.level = 0 ∧ p.tc ≠ 1 then p.igrp.toNat else p.dst.toNat / 128
  match c.lookup inp (if p.tc = 1 then 1 else p.level) p with
  | .host h => (c, .to (60 + h) p)
  | .misroute => (c, .drop .misroute 0x102)
  | .cands l =>
    let (c, r) := c.choose inp p l (target == c.groupNo)
    match r with
    | none => (c, .drop .noRoute 0x103)
    | some (out, none) => (c, c.checkOut out p)
    | some (out, some g) => (c, c.checkOut out { p with nmin := true, igrp := BitVec.ofNat 10 g })

/-- Route a packet that has passed its header checks. -/
def Chip.route (c : Chip) (inp : Nat) (p : Packet) : Chip × Routed :=
  if c.tooOld p then (c, .drop .ageLimit 0x105)
  else if p.isBroadcast then (c, .broadcast)
  else if p.isTree then
    if c.variant.collEngines = 0 ∧ p.dstChip ≠ c.id then c.routeByTables inp p
    else if c.variant.collEngines ≠ 0 ∧ p.dstChip = c.id then (c, .tree)
    else (c, .drop .noRoute 0x103)
  else c.routeByTables inp p

/-- Remove an arrival. -/
def Chip.dropArrival (c : Chip) (a : Arrival) : Chip :=
  { c with rt := { c.rt with arrivals := eraseFirst (fun x => x.id == a.id) c.rt.arrivals } }

/-- Free the input cells of an arrival. -/
def Chip.freeArrival (c : Chip) (a : Arrival) : Chip := c.freeCells a.inp a.pkt.vc.toNat a.pkt.len.toNat a.pool

/-- A request of the own transport engines finds no route at the router core: it does not leave the chip, and its operation completes
with 0x08 (R168, R316). None where the packet is no such request. -/
def Chip.ownUnrouted? (c : Chip) (a : Arrival) : Option Chip :=
  if a.inp < 60 then none
  else
    let k := chKey (a.inp - 60) a.pkt.dst.toNat ((a.pkt.tc.toNat - 2) / 2)
    match (c.chan? k).bind fun x => x.outstanding.find? fun o => o.psn == a.pkt.psn && o.pkt.kind == a.pkt.kind && o.pkt.tc == a.pkt.tc with
    | some o => some ((c.dropArrival a).noRoute k fun b => b.msgid == o.msgid && o.fn.isSome)
    | none => none

/-- Carry out what routing decided for an arrival. -/
def Chip.carryOut (c : Chip) (a : Arrival) (r : Routed) : Chip :=
  match r with
  | .drop .noRoute cause =>
    match c.ownUnrouted? a with
    | some c' => c'
    | none => ((c.dropArrival a).freeArrival a).routerDrop a.inp .noRoute cause
  | .to out p =>
    (c.dropArrival a).enqueue { inp := a.inp, vc := a.pkt.vc.toNat, out := out, pkt := p, id := a.id, pool := a.pool }
  | .drop k cause => ((c.dropArrival a).freeArrival a).routerDrop a.inp k cause
  | .tree =>
    let c := (c.dropArrival a).freeArrival a
    { c with co := { c.co with arrivals := c.co.arrivals ++ [(a.inp, a.pkt)] } }
  | .broadcast => c

/-- Route the oldest arrival of an input (R97, R314). -/
def Chip.routeArrival (c : Chip) (a : Arrival) : Chip :=
  if a.pkt.headerFails then c.carryOut a (.drop .malformed 0x100)
  else
    let (c, r) := c.route a.inp a.pkt
    c.carryOut a r

/-- The first arrival of an input. -/
def Chip.firstArrival? (c : Chip) (inp : Nat) : Option Arrival := c.rt.arrivals.find? fun a => a.inp == inp

/-- The packet that is arriving on a fabric port, once its first cell is there: the expected packet, with room in its part of the
buffer, as its header and BYTES promise it (R328, R329, R366, R373, R381). -/
def Chip.ahead? (c : Chip) (inp : Nat) : Option Packet :=
  let r := (c.link inp).rx
  let hdr := wordAt (r.stream.map (·.1)) 0
  let n := hdr.field 47 35
  let p := Packet.ofBytes ((((r.stream.map (·.1)).drop 8) ++ zeros n).take (n - 12)) (n == 64)
  if inp < 60 ∧ c.portActive inp ∧ !r.lost ∧ !r.dropped ∧ 64 ≤ r.stream.length ∧ (r.stream.take 64).all (fun b => !b.2) ∧ !headerBad hdr ∧
      headerLsn hdr = r.expect ∧ r.room p.vc.toNat p.len.toNat (hdr.getLsbD 34) ∧ p.isShim = (n == 64) then some p
  else none

/-- A packet whose end has not arrived is routed by its header, to cut through (R329). One that would be discarded waits
for its end. -/
def Chip.routeAhead (c : Chip) (inp : Nat) : Chip :=
  match c.ahead? inp with
  | none => c
  | some p =>
    if c.rt.waiting.any (fun w => w.inp == inp && !w.whole) ∨ (c.firstArrival? inp).isSome ∨ p.startFails then c
    else match c.route inp p with
      | (c', .to out q) =>
        ({ c' with rt := { c'.rt with nextId := c'.rt.nextId + 1 } }).enqueue
          { inp := inp, vc := p.vc.toNat, out := out, pkt := q.filled p.len.toNat, id := c'.rt.nextId, whole := false }
      | _ => c

/-- PACKET_ROUTE: the next packet of an input is header-checked and routed, one that has arrived whole or the one that is arriving. -/
def Chip.packetRoute (c : Chip) (inp : Nat) (whole : Bool) : Chip :=
  if whole then
    match c.firstArrival? inp with
    | some a => c.routeArrival a
    | none => c
  else c.routeAhead inp

/-! ### A port stops being usable (R313) -/

/-- A waiting packet is discarded; one that is still arriving is discarded as its bytes come (R313). -/
def Chip.discardWaiting (c : Chip) (w : Waiting) : Chip :=
  let c := c.leaveBuffer w
  if w.whole ∨ 60 ≤ w.inp then c else c.updRx w.inp fun r => { r with dropped := true }

/-- A waiting packet is routed again at its input, or discarded under R313 and R316. -/
def Chip.reroute (c : Chip) (w : Waiting) : Chip :=
  if w.copy || w.pkt.tc == 1 then (c.discardWaiting w).bump w.inp .noRoute
  else
    match c.routeByTables w.inp w.pkt with
    | (c, .to out p) =>
      (({ c with rt := { c.rt with waiting := eraseFirst (fun x => x.id == w.id && x.out == w.out) c.rt.waiting } } : Chip).refreshOut
        w.out).enqueue { w with out := out, pkt := p }
    | (c, .drop k cause) => (c.discardWaiting w).routerDrop w.inp k cause
    | (c, _) => c

/-- What a port had started to send when it stopped working stays in no replay buffer: it counts as discarded by a link reset (R388). -/
def Chip.dropSending (c : Chip) (port : Nat) : Chip :=
  let n := ((c.link port).tx.replay.filter fun s => s.sending).length
  (c.updTx port fun t => { t with replay := t.replay.filter fun s => !s.sending, left := [] }).bump port .linkResetDiscard n

/-- The packets that wait for a port which has stopped being usable; one that had started on it is lost with the link. -/
def Chip.rerouteAll (c : Chip) (port : Nat) : Chip :=
  let l := c.rt.waiting.filter fun w => w.out == port
  (l.foldl (fun c w => if w.started then c.discardWaiting w else c.reroute w) c).dropSending port

/-! ### Output starts (R328 to R334, R341, R346 to R358) -/

/-- No packet is being sent on the output. -/
def Chip.outFree (c : Chip) (out : Nat) : Bool := !(c.rt.waiting.any fun w => w.out == out && w.started)

/-- The packet as it would leave on its output. -/
def Chip.leavingForm (c : Chip) (w : Waiting) : Packet := if w.out < 60 then w.pkt.leaving (c.role w.out == 2) else w.pkt

/-- The heads of the input VC queues of an output (R331). -/
def Chip.heads (c : Chip) (out : Nat) : List Waiting :=
  (c.rt.waiting.filter fun w => w.out == out).foldl
    (fun l w => if l.any (fun x => x.inp == w.inp && x.vc == w.vc) then l else l ++ [w]) []

/-- A head that R328, R329, R358 and R363 let start. -/
def Chip.startable (c : Chip) (w : Waiting) : Bool :=
  let p := c.leavingForm w
  let tc := p.tc.toNat
  (w.whole || (w.inp < 60 && c.rateOf w.out ≤ c.rateOf w.inp)) &&
  (60 ≤ w.out || (c.linkRoom w.out p && (tc < 2 || (c.shaperOk w.out tc && c.gateAllows w.out tc p.len.toNat))))

/-- Rank among the heads of one class: level (or VC4 before VC3), then round robin over the inputs (R348). -/
def headRank (last : Nat) (w : Waiting) : Nat :=
  let v := w.pkt.vc.toNat
  let lvl := if v = 3 then 1 else if v = 4 then 0 else 2 - levelOfVc v
  lvl * 64 + (w.inp + 63 - last) % 64

/-- The head of lowest rank. -/
def bestHead (last : Nat) : List Waiting → Option Waiting
  | [] => none
  | w :: r => match bestHead last r with
    | some x => if headRank last x < headRank last w then some x else some w
    | none => some w

/-- The head that a class would start now (R348). -/
def Chip.headOf (c : Chip) (out tc : Nat) : Option Waiting :=
  bestHead (Tab.get (c.sched out).lastIn tc 63) ((c.heads out).filter fun w => w.pkt.tc.toNat == tc && c.startable w)

/-- Move a class to the tail of the list and end its visit. -/
def OutSched.endVisit (s : OutSched) (tc : Nat) : OutSched :=
  { s with active := s.active.filter (· != tc) ++ [tc], visiting := none }

/-- The packet that deficit round robin starts next (R353); `fuel` covers the visits that small quanta need. -/
def Chip.drr (c : Chip) (out : Nat) : Nat → Chip × Option Waiting
  | 0 => (c, none)
  | fuel + 1 =>
    let s := c.sched out
    match s.visiting with
    | some tc =>
      match c.headOf out tc with
      | some w =>
        let d := Tab.get s.deficit tc 0
        if w.pkt.len.toNat ≤ d then (c.putSched out { s with deficit := Tab.put s.deficit tc (d - w.pkt.len.toNat) }, some w)
        else (c.putSched out (s.endVisit tc)).drr out fuel
      | none => (c.putSched out (s.endVisit tc)).drr out fuel
    | none =>
      match s.active with
      | [] => (c, none)
      | tc :: _ =>
        if (c.headOf out tc).isNone then (c.putSched out (s.endVisit tc)).drr out fuel
        else
          let d := Tab.get s.deficit tc 0 + c.param 0x1A 0x001 (out * 8 + tc)
          (c.putSched out { s with deficit := Tab.put s.deficit tc d, visiting := some tc }).drr out fuel

/-- The packet that an output starts next, in the order of R346. The flag says that it debits the TC1 cap bucket. -/
def Chip.select (c : Chip) (out : Nat) : Chip × Option (Waiting × Bool) :=
  match c.headOf out 0 with
  | some w => (c, some (w, false))
  | none =>
    match (if 0 ≤ c.tc1Tokens out then c.headOf out 1 else none) with
    | some w => (c, some (w, true))
    | none =>
      let (c, r) := if [2, 3, 4, 5, 6, 7].any (fun t => (c.headOf out t).isSome) then c.drr out 1000 else (c, none)
      match r with
      | some w => (c, some (w, false))
      | none => (c, (c.headOf out 1).map fun w => (w, false))

/-- Give back the deficit that `drr` debited for a packet that was then discarded instead of started (R333). -/
def Chip.undebit (c : Chip) (w : Waiting) : Chip :=
  let tc := w.pkt.tc.toNat
  if tc < 2 then c
  else
    let s := c.sched w.out
    c.putSched w.out { s with deficit := Tab.put s.deficit tc (Tab.get s.deficit tc 0 + w.pkt.len.toNat) }

/-- The last hop or the delivery that a fence stops; traffic within the own chip goes on (R341). -/
def Chip.fenceStops (c : Chip) (w : Waiting) : Bool :=
  2 ≤ w.pkt.tc.toNat &&
  if w.out < 60 then c.neighbour? w.out == some w.pkt.dstChip && c.fenced w.pkt.dstChip else c.fenced w.pkt.srcChip && w.pkt.srcChip != c.id

/-- Cells queued for the output VC of a packet, the packet itself excluded (R334). -/
def Chip.vcOccupancy (c : Chip) (w : Waiting) : Nat :=
  c.rt.waiting.foldl (fun n x =>
    if x.out == w.out && (c.leavingForm x).vc == (c.leavingForm w).vc && x.id != w.id then n + x.pkt.len.toNat else n) 0

/-- A packet has left an output: to the link, or to the transport engines behind a host-side port. -/
def Chip.sendOut (c : Chip) (out : Nat) (p : Packet) : Chip :=
  if out < 60 then c.linkSend out p else { c with tr := { c.tr with arrivals := c.tr.arrivals ++ [p] } }

/-- A packet that has cut through ends on its output (R330, R368). -/
def Chip.endOut (c : Chip) (out : Nat) (p : Packet) (bad : Bool) : Chip :=
  if out < 60 then c.linkEnd out p bad else { c with tr := { c.tr with arrivals := c.tr.arrivals ++ [p] } }

/-- The packet now sent on a fabric output, for R363: its class and its quarter bits. -/
def Chip.noteTail (c : Chip) (out tc len : Nat) : Chip :=
  if 60 ≤ out then c else c.putSched out { c.sched out with tail := some (tc, c.tb.time, 2048 * len) }

/-- A packet starts on its output: debits, ECN, and its last input served (R334, R348, R351, R358). -/
def Chip.startPacket (c : Chip) (w : Waiting) (capped : Bool) : Chip :=
  let tc := w.pkt.tc.toNat
  let len := w.pkt.len.toNat
  let mark := 2 ≤ tc && c.param 0x12 0x010 tc < c.vcOccupancy w
  let w' := if mark then { w with pkt := { w.pkt with ecn := true } } else w
  let c := if mark then c.bump w.out .ecnMarked else c
  let c := if capped && w.out < 60 then
      { c with rt := { c.rt with tc1Tokens := Tab.put c.rt.tc1Tokens w.out (c.tc1Tokens w.out - (len * cellTokens : Nat)) } }
    else c
  let c := c.shaperDebit w.out tc len
  let s := c.sched w.out
  let c := c.putSched w.out { s with lastIn := Tab.put s.lastIn tc w.inp }
  if w.whole then ((c.leaveBuffer w).sendOut w.out (c.leavingForm w')).noteTail w.out tc len
  else
    let c := ({ c with rt := { c.rt with
        waiting := mapIf (fun x => x.id == w.id && x.out == w.out) (fun _ => { w' with started := true }) c.rt.waiting } }).refreshOut w.out
    if w.out < 60 then c.linkStart w.out (c.leavingForm w') else c

/-- OUTPUT_START: a free output starts its next packet; packets too old or fenced are discarded and the choice made again. -/
def Chip.outputStart (c : Chip) (out : Nat) : Nat → Chip
  | 0 => c
  | fuel + 1 =>
    if !c.outFree out then c
    else
      let c := c.refreshOut out
      match c.select out with
      | (_, none) => c
      | (c, some (w, capped)) =>
        if c.tooOld w.pkt then (((c.undebit w).discardWaiting w).routerDrop out .ageLimit 0x105).outputStart out fuel
        else if c.fenceStops w then (((c.undebit w).discardWaiting w).bump out .fenceDiscard).outputStart out fuel
        else c.startPacket w capped

/-! ### Hints (R324, R325) -/

/-- The hint payload of a chip (R324). -/
def Chip.hintItem (c : Chip) (hseq : Nat) : List Byte :=
  let lvl (p : Nat) : Nat :=
    if c.role p = 0 then 0 else min 15 (c.queuedCells p / max 1 (c.param 0x12 0x004 0))
  [BitVec.ofNat 8 c.position, BitVec.ofNat 8 hseq] ++ (List.range 30).map fun i => BitVec.ofNat 8 (lvl (2 * i) * 16 + lvl (2 * i + 1))

/-- A Spline hint is queued for the next LCB of an Active local port. -/
def Chip.hintSend (c : Chip) (port : Nat) : Chip :=
  if !c.portActive port || c.role port != 1 then c
  else
    let q := (Tab.get c.rt.hintSeq port 0 + 1) % 256
    ({ c with rt := { c.rt with hintSeq := Tab.put c.rt.hintSeq port q } }).queueItem port 1 (c.hintItem (Tab.get c.rt.hintSeq port 0))

/-- The 60 levels of a hint. -/
def hintLevels (item : List Byte) : List Nat :=
  (List.range 60).map fun p => let b := ((item[2 + p / 2]?).getD 0).toNat; if p % 2 = 0 then b / 16 else b % 16

/-- A hint arrives on a port. -/
def Chip.hintReceive (c : Chip) (port : Nat) (item : List Byte) : Chip :=
  let pos := (item.headD 0).toNat % 32
  let hseq := ((item[1]?).getD 0).toNat
  let fresh := (Tab.get? c.rt.hints port).elim true fun h => h.hseq != hseq
  if c.portActive port && c.role port == 1 && bits (c.tport port).learnt 6 5 == pos && fresh then
    { c with rt := { c.rt with
        hints := Tab.put c.rt.hints port { levels := hintLevels item, hseq := hseq, seenAt := c.now, staleCounted := false } } }
  else c.bump port .hintDiscard

/-- A port's hint has grown stale: the period counts once. -/
def Chip.hintStale (c : Chip) (port : Nat) : Chip :=
  match Tab.get? c.rt.hints port with
  | some h =>
    if h.seenAt + 4000 < c.now && !h.staleCounted then
      ({ c with rt := { c.rt with hints := Tab.put c.rt.hints port { h with staleCounted := true } } }).bump port .staleHint
    else c
  | none => c

/-! ### Ticks and gates -/

/-- A bucket gains tokens up to its depth (R356). -/
def fill (tokens gain depth : Int) : Int := if depth ≤ tokens then tokens else min depth (tokens + gain)

/-- TOKEN_TICK: every bucket that is not full gains its rate for each tick (R351, R356). -/
def Chip.tokenTick (c : Chip) (ticks : Nat) : Chip :=
  let tc1 := c.rt.tc1Tokens.map fun r =>
    (r.1, fill r.2 (ticks * (c.rateOf r.1 * 10 * c.param 0x1A 0x002 r.1) : Nat) (264 * cellTokens : Nat))
  let sh := c.rt.shapers.map fun r =>
    (r.1, fill r.2 (ticks * c.param 0x1A 0x010 r.1 : Nat) (c.param 0x1A 0x011 r.1 * cellTokens : Nat))
  let po := c.rt.policers.map fun r =>
    (r.1, fill r.2 (ticks * c.param 0x1A 0x020 r.1 : Nat) (c.param 0x1A 0x021 r.1 * cellTokens : Nat))
  let c := ({ c with rt := { c.rt with tc1Tokens := tc1, shapers := sh, policers := po } }).refreshAll
  c.tr.chans.foldl (fun c r => c.runChan r.1) c

/-- How far a fabric time is into the cycle that holds it: cycles start at base + k × period, for any integer k (R360). -/
def cyclePos (time base : Word) (period : Nat) : Nat :=
  let past := (time - base).toNat
  if past < 2 ^ 63 then past % max 1 period else (period - (2 ^ 64 - past) % max 1 period) % max 1 period

/-- The entry of a schedule at a place within its cycle, and the time left in it; durations in 0.25 ns. -/
def entryAt : List Nat → Nat → Nat × Nat
  | [], _ => (0, 0)
  | d :: r, pos => if pos < d ∨ r.isEmpty then (0, d - pos) else let (e, left) := entryAt r (pos - d); (e + 1, left)

/-- A schedule as it stands at a fabric time. -/
def gateAt (durations opens : List Nat) (base time : Word) (next : Option Word) : Gate :=
  let l := durations.map (4 * ·)
  let (e, left) := entryAt l (cyclePos time base (l.foldl (· + ·) 0))
  { enabled := true, entry := e, durations := durations, opens := opens, endsAt := time + BitVec.ofNat 64 left, next := next, base := base }

/-- The gate of an output as the active schedule runs at the present fabric time (R360). -/
def Chip.gateStart (c : Chip) (out : Nat) : Gate :=
  let l := c.gateEntries out
  gateAt (l.map (·.1 / 4)) (l.map (·.2)) (BitVec.ofNat 64 (c.param 0x1A 0x031 out)) c.tb.time none

/-- Quarter bits that a packet sent by an output still has to go, at the rate in force since then (R363). -/
def Chip.tailLeft (c : Chip) (out : Nat) : Option (Nat × Nat) :=
  (c.sched out).tail.map fun r => (r.1, r.2.2 - c.rateOf out * (c.tb.time - r.2.1).toNat)

/-- The rate of a port is about to change: what is left of its packet goes on at the new one (R363). -/
def Chip.reclock (c : Chip) (out : Nat) : Chip :=
  match c.tailLeft out with
  | some (tc, left) => c.putSched out { c.sched out with tail := some (tc, c.tb.time, left) }
  | none => c

/-- A packet that has started and outlasts its window counts a gate overrun (R363): one that cuts through and has not ended, or one
that went out whole and still takes its time. -/
def Chip.countOverruns (c : Chip) (out : Nat) (g : Gate) : Chip :=
  let closes (tc : Nat) : Bool := 2 ≤ tc && (c.gate out).isOpen tc && !g.isOpen tc
  let l := (c.rt.waiting.filter fun w => w.out == out && w.started).map fun w => w.pkt.tc.toNat
  let l := match c.tailLeft out with
    | some (tc, left) => if 0 < left then tc :: l else l
    | none => l
  (l.filter closes).foldl (fun c tc => c.bump out (.gateOverrun tc)) c

/-- Install a gate. -/
def Chip.setGate (c : Chip) (out : Nat) (g : Gate) : Chip :=
  let c := c.countOverruns out g
  ({ c with rt := { c.rt with gates := Tab.put c.rt.gates out g } }).refreshOut out

/-- A fabric time has come. -/
def Chip.reached (c : Chip) (t : Word) : Bool := (c.tb.time - t).toNat < 2 ^ 63

/-- GATE_ENTRY_CHANGE: a new schedule takes over at its cycle start, or the next entry begins (R360, R364). -/
def Chip.gateEntryChange (c : Chip) (out : Nat) : Chip :=
  let g := c.gate out
  if (g.next.map c.reached).getD false then c.setGate out (c.gateStart out)
  else if g.enabled && c.reached g.endsAt then
    let e := (g.entry + 1) % max 1 g.durations.length
    c.setGate out { g with entry := e, endsAt := g.endsAt + BitVec.ofNat 64 (4 * (g.durations[e]?).getD 0) }
  else c

/-- The first cycle start of the active schedule of an output at or after the present fabric time (R364). -/
def Chip.nextCycle (c : Chip) (out : Nat) : Word :=
  let period := (c.gateEntries out).foldl (fun n r => n + r.1) 0
  let pos := cyclePos c.tb.time (BitVec.ofNat 64 (c.param 0x1A 0x031 out)) period
  c.tb.time + BitVec.ofNat 64 ((period - pos) % max 1 period)

/-- A commit changed the gate schedule of an output (R364). -/
def Chip.gateCommitted (c : Chip) (out : Nat) : Chip :=
  if !(c.gateControl out).1 then c.setGate out Gate.init
  else c.setGate out { c.gate out with next := some (c.nextCycle out) }

/-- The gates run as the saved schedules say, from a reset on (R360). -/
def Chip.gatesAtReset (c : Chip) : Chip :=
  (List.range 60).foldl (fun c out => if (c.gateControl out).1 then c.setGate out (c.gateStart out) else c) c

/-- Fabric time has stepped: every schedule stands where its cycles put it at the new time (R360). -/
def Chip.gatesRetimed (c : Chip) : Chip :=
  c.rt.gates.foldl (fun c r =>
    let g := r.2
    let next := g.next.map fun _ => c.nextCycle r.1
    if g.enabled then c.setGate r.1 (gateAt g.durations g.opens g.base c.tb.time next)
    else if g.next.isSome then c.setGate r.1 { g with next := next }
    else c) c

end Sys2Proof.Machine
end

