-- ==== Sys2Proof/Machine/LinkRecv.lean ====
section
/-! DEFINITION. Packets arrive on a fabric link, and the link layer resets (R329, R330, R365, R368, R373 to R382, R388). -/

namespace Sys2Proof.Machine

/-- The packet in progress on an input: what was routed ahead of its end. -/
def Chip.inProgress (c : Chip) (port : Nat) : List Waiting := c.rt.waiting.filter fun w => w.inp == port && !w.whole

/-- A packet that has started leaves with the bytes of `p` as they came, ended as R330 says, and is counted (R97, R330). -/
def Chip.endSpoiled (c : Chip) (port : Nat) (w : Waiting) (p : Packet) : Chip :=
  let q := { c.leavingForm w with payload := p.payload, check := p.check }
  ((c.leaveBuffer w).endOut w.out (q.filled w.pkt.len.toNat) true).routerDrop port .malformed 0x100

/-- The packet in progress proves bad: what has started is stomped and counted, the rest is discarded by the link (R330, R368). -/
def Chip.abandonProgress (c : Chip) (port : Nat) (p : Packet) : Chip :=
  ((c.inProgress port).foldl (fun c w => if w.started then c.endSpoiled port w p else c.leaveBuffer w) c).updRx port fun r =>
    { r with dropped := false }

/-- The packet in progress has arrived whole: what has started leaves with its end, the rest goes on waiting; LEN must be the cells that
came (R97, R330). -/
def Chip.completeProgress (c : Chip) (port : Nat) (p : Packet) (pool : Bool) : Chip :=
  let free (c : Chip) : Chip := c.freeCells port p.vc.toNat p.len.toNat pool
  (c.inProgress port).foldl (fun c w =>
    if w.started then
      if p.cells = w.pkt.len.toNat then
        let q := { c.leavingForm w with payload := p.payload, check := p.check }
        free ((c.leaveBuffer w).endOut w.out q false)
      else free (c.endSpoiled port w p)
    else if p.cells = w.pkt.len.toNat then
      { c with rt := { c.rt with
          waiting := mapIf (fun x => x.id == w.id)
            (fun x => { x with whole := true, pool := pool, pkt := { x.pkt with payload := p.payload, check := p.check } }) c.rt.waiting } }
    else free ((c.leaveBuffer w).routerDrop port .malformed 0x100)) c

/-- Framing loss (R375): all data blocks are discarded until an LCB with SOP. -/
def Chip.framingLoss (c : Chip) (port : Nat) : Chip :=
  let c := ((c.bump port .headerError).bump port .framingLoss).updRx port fun r => { r with lost := true, stream := [] }
  if (c.link port).rx.nakSent then c else c.nakDue port

/-- The expected packet finds no room in the part of the buffer that its header names (R381). -/
def Chip.bufferOverrun (c : Chip) (port : Nat) (p : Packet) (pool : Bool) : Chip :=
  let c := (c.abandonProgress port p).bump port (if pool then .poolOverrun else .reserveOverrun)
  (c.raise port 0x105 1 port).nakDue port

/-- The expected packet is accepted: E advances (R373, R374). -/
def Chip.acceptLsn (c : Chip) (port : Nat) : Chip :=
  c.updRx port fun r => { r with expect := r.expect + 1, accepted := true, nakSent := false }

/-- An accepted packet with good bytes goes on into the router core (R373). One that was routed ahead goes on there; one that was
discarded there has its cells freed (R313); one whose BYTES do not fit its kind has not LEN cells (R97, R366). -/
def Chip.passOn (c : Chip) (port : Nat) (p : Packet) (short pool : Bool) : Chip :=
  let v := p.vc.toNat
  let n := p.len.toNat
  let c := ((c.acceptLsn port).bump port .accepted).takeCells port v n pool
  if (c.link port).rx.dropped then (c.updRx port fun r => { r with dropped := false }).freeCells port v n pool
  else if p.isShim ≠ short then (c.freeCells port v n pool).routerDrop port .malformed 0x100
  else if (c.inProgress port).isEmpty then c.arrive port p pool
  else c.completeProgress port p pool

/-- The expected packet has come (R373, last table): `good` = its link CRC is right, `stomped` = it is the complement, `bad` = some
byte lay in an uncorrectable codeword. -/
def Chip.expectedPacket (c : Chip) (port : Nat) (hdr : Word) (p : Packet) (crc right : BitVec 32) (bad : Bool) : Chip :=
  let pool := hdr.getLsbD 34
  let v := p.vc.toNat
  let n := p.len.toNat
  if !(c.link port).rx.room v n pool then c.bufferOverrun port p pool
  else if bad ∨ (crc ≠ right ∧ crc ≠ right ^^^ 0xFFFFFFFF) then (c.abandonProgress port p).nakDue port
  else if crc ≠ right then
    (((((c.acceptLsn port).bump port .stomp).abandonProgress port p).takeCells port v n pool).freeCells port v n pool)
  else c.passOn port p (hdr.field 47 35 == 64) pool

/-- The bytes of one packet have come, link header and link CRC included; the receiver examines it in the order of R373. -/
def Chip.linkPacket (c : Chip) (port : Nat) (raw : List (Byte × Bool)) : Chip :=
  let r := (c.link port).rx
  let b := raw.map (·.1)
  let hdr := wordAt b 0
  let d := (headerLsn hdr - r.expect).toNat
  if 2048 ≤ d then c.bump port .duplicate
  else if d ≠ 0 then
    let c := c.bump port .outOfSequence
    if r.nakSent then c else c.nakDue port
  else
    let n := b.length - 4
    c.expectedPacket port hdr (Packet.ofBytes ((b.take n).drop 8) (b.length == 64)) (BitVec.ofNat 32 (natBE (b.drop n))) (crc32c (b.take n))
      (raw.any fun x => x.2)

/-- Put the bytes that no complete packet has taken. -/
def Chip.setStream (c : Chip) (port : Nat) (l : List (Byte × Bool)) : Chip := c.updRx port fun r => { r with stream := l }

/-- Take packets from the bytes that have come (R365, R366, R379): 0x00 where a link header may begin skips to the next data block, a
header error, or a header in an uncorrectable codeword, loses the framing. -/
def Chip.takeStream (c : Chip) (port : Nat) : Nat → Chip
  | 0 => c
  | fuel + 1 =>
    let l := (c.link port).rx.stream
    let hdr := wordAt (l.map (·.1)) 0
    let n := hdr.field 47 35
    if l.isEmpty then c
    else if (l.headD (0, false)).1 = 0 then c.setStream port []
    else if l.length < 8 then c
    else if headerBad hdr ∨ (l.take 8).any (fun b => b.2) then c.framingLoss port
    else if l.length < n then c
    else ((c.setStream port (l.drop n)).linkPacket port (l.take n)).takeStream port fuel

/-- A data block arrives (R365, R375); a block holds the end of one packet and the beginning of another at most. -/
def Chip.dataBlock (c : Chip) (port : Nat) (b : PortBlock) : Chip :=
  let r := (c.link port).rx
  if !c.portActive port ∨ r.lost ∨ b.ctl then c
  else (c.setStream port (r.stream ++ b.bytes.map fun x => (x, b.bad))).takeStream port 2

/-- LINK_PACKET_RECEIVE: data blocks arrive on a fabric link. -/
def Chip.linkReceive (c : Chip) (port : Nat) (l : List PortBlock) : Chip := l.foldl (fun c b => c.dataBlock port b) c

/-! ### Reset of the link layer (R388) -/

/-- The packet that was arriving, as far as it came. -/
def Chip.arrivedPart (c : Chip) (port : Nat) : Packet :=
  let b := (c.link port).rx.stream.map (·.1)
  Packet.ofBytes ((b ++ zeros 64).drop 8) false

/-- The link layer resets: what was arriving ends there, the replay buffer is discarded and counted; cells of accepted packets stay taken
in the pool, and the XOFF map follows them (R383). -/
def Chip.linkReset (c : Chip) (port : Nat) : Chip :=
  let c := if (c.inProgress port).isEmpty then c else c.abandonProgress port (c.arrivedPart port)
  let l := c.link port
  let n := l.tx.replay.length
  let held : Tab Nat := (List.range 23).foldl (fun t v =>
    Tab.set t 0 v (Tab.get l.rx.poolUsed v 0 + Tab.get l.rx.reserveUsed v 0)) []
  let c := c.updLink port fun l =>
    { l with rx := { RxSide.init with poolUsed := held }, tx := TxSide.init, windowNaks := 0, badWindows := 0, badWords := [] }
  let c := { c with rt := { c.rt with
    arrivals := mapIf (fun a => a.inp == port) (fun a => { a with pool := true }) c.rt.arrivals
    waiting := mapIf (fun w => w.inp == port) (fun w => { w with pool := true }) c.rt.waiting } }
  (if n = 0 then c else (c.bump port .linkResetDiscard n).raise port 0x106 1 port).decideXoff port

end Sys2Proof.Machine
end

