-- ==== Sys2Proof/Machine/FifoOps.lean ====
section
/-! DEFINITION. The framed FIFOs: frames, positions, markers and the management packets (R111 to R124). -/

namespace Sys2Proof.Machine

/-- Capacity C of a FIFO: 0 to 3 transmit, 4 to 7 receive, 8 fault record, 9 trace capture. -/
def fifoCap (i : Nat) : Nat := if i < 8 then 2048 else if i = 8 then 36864 else 8192

/-- A FIFO. -/
def Chip.fifo (c : Chip) (i : Nat) : Fifo := Tab.get c.fifos i Fifo.init

/-- Put a FIFO. -/
def Chip.putFifo (c : Chip) (i : Nat) (f : Fifo) : Chip := { c with fifos := Tab.put c.fifos i f }

/-- The frame word of a packet of n words (R112). -/
def frameWord (n : Nat) (count : BitVec 32) : Word := mkWord [(0xF1, 56), (n, 32), (count.toNat, 0)]

/-- A Radish marker (R112). -/
def markerWord (dropped : Nat) : Word := mkWord [(0xD7, 56), (dropped, 0)]

/-- No packet is in progress. -/
def Fifo.quiet (f : Fifo) : Bool := f.pushed.isEmpty && !f.dropping

/-- Write the marker that is due, if one word is free, counting the held-back word (R116). -/
def Fifo.mark (f : Fifo) (cap : Nat) : Fifo :=
  if f.dropped ≠ 0 ∧ f.quiet ∧ f.words.length < cap + 1 then
    { f with words := f.words ++ [markerWord f.dropped], dropped := 0 }
  else f

/-- Push a word (R115): a packet that would not fit, or would exceed 64 words, is dropped. -/
def Fifo.push (f : Fifo) (cap : Nat) (w : Word) : Fifo :=
  if f.dropping then f
  else
    let f := f.mark cap
    if f.words.length + f.pushed.length + 2 ≤ cap ∧ f.pushed.length < 64 then { f with pushed := f.pushed ++ [w] }
    else { f with pushed := [], dropping := true }

/-- Commit the packet in progress (R114, R115). -/
def Fifo.commit (f : Fifo) : Fifo :=
  if f.dropping then
    { f with dropping := false, lastDrop := true, dropped := if f.dropped < 0xFFFFFFFF then f.dropped + 1 else f.dropped }
  else if f.pushed.isEmpty then f
  else
    { f with
      words := f.words ++ frameWord f.pushed.length f.frames :: f.pushed
      pushed := [], frames := f.frames + 1, lastDrop := false }

/-- Abort the packet in progress (R114, R115). -/
def Fifo.abort (f : Fifo) : Fifo := { f with pushed := [], dropping := false }

/-- Words pushed and committed as one packet by a producer of the chip itself. -/
def Fifo.packet (f : Fifo) (cap : Nat) (l : List Word) : Fifo := (l.foldl (fun f w => f.push cap w) f).commit

/-- Read FF_DATA (R117): the word popped, or the last value with UNDERRUN. -/
def Fifo.readData (f : Fifo) : Fifo × Word :=
  match f.words[f.readOff]? with
  | some w => ({ f with readOff := f.readOff + 1, lastRead := w, lastPopped := w }, w)
  | none => ({ f with underrun := true }, f.lastRead)

/-- MARK (R118). -/
def Fifo.setMark (f : Fifo) : Fifo := { f with markOff := f.readOff }

/-- REWIND (R118): the mark never lies before the release position, since a release raises it. -/
def Fifo.rewind (f : Fifo) : Fifo := { f with readOff := f.markOff }

/-- The words that follow the frame word of a FIFO: none behind a marker (R112). -/
def frameLen (w : Word) : Nat := if w.field 63 56 = 0xD7 then 0 else w.field 47 32

/-- The data words left of a packet whose frame word is released, once `n` more words are: `lead` before. -/
def leadAfter : Nat → Nat → List Word → Nat
  | lead, 0, _ => lead
  | _, _ + 1, [] => 0
  | 0, n + 1, w :: r => leadAfter (frameLen w) n r
  | lead + 1, n + 1, _ :: r => leadAfter lead n r

/-- A write of FF_RELEASE (R119). -/
def Fifo.free (f : Fifo) (p : BitVec 32) : Fifo :=
  let n := (p - f.release).toNat
  if n ≤ f.readOff then
    { f with
      words := f.words.drop n, release := p, readOff := f.readOff - n, markOff := f.markOff - n
      lead := leadAfter f.lead n f.words }
  else { f with badRel := true }

/-- FF_COUNT (consumer, producer). -/
def Fifo.count (f : Fifo) (consumer : Bool) : Nat := if consumer then f.words.length - f.readOff else f.words.length

/-- FF_STATUS as a side reads it. -/
def Fifo.status (f : Fifo) (cap : Nat) (consumer : Bool) : Word :=
  if consumer then mkWord [(cap, 32), (natOfBool f.badCmd, 2), (natOfBool f.badRel, 1), (natOfBool f.underrun, 0)]
  else mkWord [(cap, 32), (natOfBool !f.pushed.isEmpty, 5), (natOfBool f.txBad, 4), (natOfBool f.lastDrop, 3),
    (natOfBool f.badCmd, 2)]

/-! ### What a host sees (R111) -/

/-- P20.004 holds the bit of the port. -/
def Chip.fmRight (c : Chip) (h : Nat) : Bool := bitOf (c.param 0x20 0x004 0) h

/-- The FIFO that a block of the PF of host port `h` shows, if it shows one. -/
def Chip.fifoAt (c : Chip) (h : Nat) (b : FifoBlock) : Option Nat :=
  if !c.hasHost h || !c.fmRight h then none
  else match b with
    | .transmit => some h
    | .receive => some (4 + h)
    | .fault => if (List.range h).all fun i => !c.fmRight i then some 8 else none
    | .trace => if (List.range h).all fun i => !c.fmRight i then some 9 else none

/-- The host is the producer of a block. -/
def hostProduces : FifoBlock → Bool
  | .transmit => true
  | _ => false

/-- Act on the FIFO of a block, if it is visible. -/
def Chip.onFifo (c : Chip) (h : Nat) (b : FifoBlock) (f : Fifo → Fifo) : Chip :=
  match c.fifoAt h b with
  | none => c
  | some i => c.putFifo i (f (c.fifo i))

/-- A register of BAR0 is read: the value goes to the host; a 32-bit read returns one half. -/
def Chip.reply (c : Chip) (fn : Nat) (w : Word) : Chip := c.emit (.regRead fn w)

/-- FF_DATA read (R106, R117): whole, or its lower half. -/
def Chip.ffRead (c : Chip) (h : Nat) (b : FifoBlock) (wide : Bool) : Chip :=
  match c.fifoAt h b with
  | none => c.reply (h * 256) 0
  | some i =>
    if hostProduces b then c.reply (h * 256) 0
    else
      let (f, w) := (c.fifo i).readData
      (c.putFifo i f).reply (h * 256) (if wide then w else BitVec.ofNat 64 (w.field 31 0))

/-- The upper half of FF_DATA (R106): the word last popped, nothing moves. -/
def Chip.ffReadUpper (c : Chip) (h : Nat) (b : FifoBlock) : Chip :=
  match c.fifoAt h b with
  | none => c.reply (h * 256) 0
  | some i => c.reply (h * 256) (if hostProduces b then 0 else BitVec.ofNat 64 (Word.field (c.fifo i).lastPopped 63 32))

/-- FF_DATA written whole, or its upper half after the lower one (R106, R115). -/
def Chip.ffWrite (c : Chip) (h : Nat) (b : FifoBlock) (wide : Bool) (v : Word) : Chip :=
  if !hostProduces b then c
  else c.onFifo h b fun f =>
    let w := if wide then v else BitVec.ofNat 64 (v.field 31 0 * 2 ^ 32 + (f.heldLower.getD 0).toNat)
    { (f.push 2048 w) with heldLower := none }

/-- The lower half of FF_DATA written (R106): held. -/
def Chip.ffWriteLower (c : Chip) (h : Nat) (b : FifoBlock) (v : BitVec 32) : Chip :=
  if !hostProduces b then c else c.onFifo h b fun f => { f with heldLower := some v }

/-- An FF_CTRL command of the side `producer`: a bit of the other side's block sets BADCMD. -/
def Chip.ffControl (c : Chip) (h : Nat) (b : FifoBlock) (producer : Bool) (f : Fifo → Fifo) : Chip :=
  c.onFifo h b fun x => if hostProduces b == producer then f x else { x with badCmd := true }

/-- COMMIT. -/
def Chip.ffCommit (c : Chip) (h : Nat) (b : FifoBlock) : Chip :=
  c.ffControl h b true fun f => { f.commit with heldLower := none }
/-- ABORT. -/
def Chip.ffAbort (c : Chip) (h : Nat) (b : FifoBlock) : Chip :=
  c.ffControl h b true fun f => { f.abort with heldLower := none }
/-- MARK. -/
def Chip.ffMark (c : Chip) (h : Nat) (b : FifoBlock) : Chip := c.ffControl h b false Fifo.setMark
/-- REWIND. -/
def Chip.ffRewind (c : Chip) (h : Nat) (b : FifoBlock) : Chip := c.ffControl h b false Fifo.rewind

/-- FF_RELEASE written (R119). -/
def Chip.ffRelease (c : Chip) (h : Nat) (b : FifoBlock) (p : BitVec 32) : Chip :=
  if hostProduces b then c else c.onFifo h b fun f => f.free p

/-- FF_CTRL written with a value (R106): more than one bit sets BADCMD. -/
def Chip.ffCtrlWrite (c : Chip) (h : Nat) (b : FifoBlock) (v : Nat) : Chip :=
  match v % 16 with
  | 0 => c
  | 1 => c.ffCommit h b
  | 2 => c.ffAbort h b
  | 4 => c.ffMark h b
  | 8 => c.ffRewind h b
  | _ => c.onFifo h b fun f => { f with badCmd := true }

/-- FF_STATUS written: its W1C bits (R106). -/
def Chip.ffStatusWrite (c : Chip) (h : Nat) (b : FifoBlock) (v : Nat) : Chip :=
  c.onFifo h b fun f =>
    if hostProduces b then { f with txBad := f.txBad && !bitOf v 4, badCmd := f.badCmd && !bitOf v 2 }
    else { f with badCmd := f.badCmd && !bitOf v 2, badRel := f.badRel && !bitOf v 1, underrun := f.underrun && !bitOf v 0 }

/-- The marker of a FIFO is written (R116). -/
def Chip.radishMarker (c : Chip) (i : Nat) : Chip := c.putFifo i ((c.fifo i).mark (fifoCap i))

/-! ### Management packets (R121 to R124) -/

/-- Add to the management-discard counter of a port. -/
def Chip.mgmtDiscards (c : Chip) (h n : Nat) : Chip :=
  c.bump (60 + h) .mgmtDiscard n

/-- The packet of the six words that a host wrote (R122, R82, R96); the DST of a broadcast is not used (R85). -/
def mgmtPacket (src : Nat) (l : List Word) : Packet :=
  let kind := Word.field (l.getD 0 0) 40 34
  let dst := if kind = 0x50 ∨ kind = 0x51 then 0 else Word.field (l.getD 0 0) 33 17
  newPacket 0 kind dst src false (l.getD 2 0) (l.getD 3 0) (l.getD 4 0) (l.getD 5 0) []

/-- A transmit packet is malformed (R122). -/
def Chip.mgmtMalformed (c : Chip) (l : List Word) : Bool :=
  let kind := Word.field (l.getD 0 0) 40 34
  l.length != 6 || !(kind == 0x40 || kind == 0x42 || kind == 0x50 || kind == 0x51) ||
  ((kind == 0x40 || kind == 0x42) && !c.hasRoute (Word.field (l.getD 0 0) 33 17))

/-- Take the first `n` words of a FIFO off, as the chip's own consumer does. -/
def Fifo.take (f : Fifo) (n : Nat) : Fifo :=
  { f with words := f.words.drop n, release := f.release + BitVec.ofNat 32 n, readOff := f.readOff - n, markOff := f.markOff - n }

/-- The host port consumes the next frame of its transmit FIFO (R122). -/
def Chip.mgmtTransmit (c : Chip) (h : Nat) : Chip :=
  let f := c.fifo h
  match f.words with
  | [] => c
  | (w : Word) :: r =>
    if Word.field w 63 56 = 0xD7 then (c.putFifo h (f.take 1)).mgmtDiscards h (Word.field w 31 0)
    else
      let n := Word.field w 47 32
      let l := r.take n
      let c := c.putFifo h (f.take (n + 1))
      if c.mgmtMalformed l then (c.putFifo h { c.fifo h with txBad := true }).mgmtDiscards h 1
      else c.inject h (mgmtPacket (c.endpoint h) l)

/-- A shim packet reaches its host-side port (R123). -/
def Chip.shimDelivery (c : Chip) (h : Nat) (p : Packet) : Chip :=
  let c := { c with tr := { c.tr with arrivals := c.tr.arrivals.erase p } }
  if 0x41 ≤ p.kind.toNat && p.kind.toNat ≤ 0x44 && c.hostEnabled h && c.fmRight h && p.dst.toNat == c.endpoint h then
    c.putFifo (4 + h) ((c.fifo (4 + h)).packet 2048 [p.hdr0, p.hdr1, p.w0, p.w1, p.w2, p.w3])
  else c.bump (60 + h) .shimDiscard

/-- The packets that the committed words of a FIFO hold: frames, and the counts of markers (R124). -/
def framesIn : Nat → List Word → Nat
  | 0, _ => 0
  | _ + 1, [] => 0
  | fuel + 1, w :: r => if w.field 63 56 = 0xD7 then w.field 31 0 + framesIn fuel r else 1 + framesIn fuel (r.drop (w.field 47 32))

/-- What the emptying of a FIFO loses (R124): a packet whose frame word is released already is not counted. -/
def Fifo.losses (f : Fifo) : Nat :=
  framesIn f.words.length (f.words.drop f.lead) + (if f.quiet then 0 else 1) + f.dropped

/-- A FIFO after it has been emptied (R124, R106): positions, frame count and held halves start again; status bits stay. -/
def Fifo.emptied (f : Fifo) : Fifo :=
  { f with
    words := [], release := 0, markOff := 0, readOff := 0, lead := 0, pushed := [], dropping := false, dropped := 0, frames := 0
    lastPopped := 0, heldLower := none }

/-- Both management FIFOs of a port are emptied (R124). -/
def Chip.emptyMgmt (c : Chip) (h : Nat) : Chip :=
  let n := (c.fifo h).losses + (c.fifo (4 + h)).losses
  ((c.putFifo h (c.fifo h).emptied).putFifo (4 + h) (c.fifo (4 + h)).emptied).mgmtDiscards h n

end Sys2Proof.Machine
end

