-- ==== Sys2Proof/Machine/MemCtl.lean ====
section
/-! DEFINITION. Region commands, ATS, channel retirement, patrol scrub and CXL.mem (R280 to R293, R306 to R308, R514). -/

namespace Sys2Proof

/-- CMD of a registration block (R286). -/
def RegBlock.cmd (b : RegBlock) : Nat := b.rb0.field 63 60
/-- log2 of PAGESZ. -/
def RegBlock.pageLog (b : RegBlock) : Nat := match b.rb0.field 59 58 with | 0 => 12 | 1 => 16 | 2 => 21 | _ => 30
/-- INDEX. -/
def RegBlock.index (b : RegBlock) : Nat := b.rb0.field 23 0
/-- Page list entries: ⌈((VA mod PAGESZ) + LENGTH) / PAGESZ⌉. -/
def RegBlock.pageCount (b : RegBlock) : Nat := divUp (b.rb1.toNat % 2 ^ b.pageLog + b.rb2.toNat) (2 ^ b.pageLog)
/-- The region that a block describes. -/
def RegBlock.region (b : RegBlock) (fn : Nat) (pages : List Nat) : Machine.Region :=
  { fn := fn, flags := b.rb0.field 57 53, pageLog := b.pageLog, va := b.rb1.toNat, length := b.rb2.toNat
    peer := b.rb4.field 63 47, pmask := b.rb4.field 46 30, pages := pages }
/-- The fields of a REGISTER are good: LENGTH 1 to 4 TiB, PLIST 8-byte aligned (R286). -/
def RegBlock.fieldsOk (b : RegBlock) : Bool := 1 ≤ b.rb2.toNat && b.rb2.toNat ≤ 2 ^ 42 && b.rb3.toNat % 8 == 0

end Sys2Proof

namespace Sys2Proof.Machine

/-! ### Regions (R284 to R289, R514) -/

/-- P28.023: bytes registered, chip-wide. -/
def Chip.bytesRegistered (c : Chip) : Nat := c.mem.regions.foldl (fun n r => n + r.2.length) 0

/-- Page entries in the translation tables. -/
def Chip.pageEntries (c : Chip) : Nat := c.mem.regions.foldl (fun n r => n + r.2.pages.length) 0

/-- Page entries that the translation table region holds beside the region table. -/
def Chip.pageRoom (c : Chip) : Nat := (c.regionSize 4 * 2 ^ 20 - 512 * 2 ^ 20) / 8

/-- INDEX lies in the function's range and names a host region (R284, R289). -/
def Chip.indexOk (c : Chip) (fn i : Nat) : Bool :=
  let r := c.param 0x28 0x020 fn
  bits r 32 24 ≤ i && i < bits r 32 24 + bits r 0 24 && 1 ≤ i && i ≤ 0xFEEFFF

/-- The RESULT of a REGISTER: the first check of R514 that fails, 0 when all pass. -/
def Chip.registerResult (c : Chip) (fn : Nat) (b : RegBlock) (pages : Option (List Nat)) : Nat :=
  if b.cmd ≠ 1 ∨ !b.fieldsOk then 1
  else if !c.indexOk fn b.index then 2
  else if (Tab.get? c.mem.regions b.index).isSome then 3
  else if 16707583 ≤ c.mem.regions.length ∨ 2 ^ 42 < c.bytesRegistered + b.rb2.toNat then 4
  else if c.pageRoom < c.pageEntries + b.pageCount then 5
  else match pages with
    | none => 6
    | some l => if l.length ≠ b.pageCount then 6 else if l.any fun a => a % 2 ^ b.pageLog != 0 then 1 else 0

/-- RB7 is written last, with DONE (R286, R287). -/
def Chip.regDone (c : Chip) (fn addr result key : Nat) : Chip :=
  c.emit (.dma (fn / 256) fn (addr + 56) (Word.le (mkWord [(1, 63), (result, 48), (key, 0)])) false)

/-- RB7 of a command that changes nothing: the spec states no KEY there, so it is a free value. -/
def Chip.regFails (c : Chip) (fn addr result : Nat) : Chip := (c.regDone fn addr result (c.freeNow % 2 ^ 32)).drawn

/-- The function's next command ends. -/
def Chip.popRegion (c : Chip) (fn : Nat) : Chip := c.updFn fn fun f => { f with regionJobs := f.regionJobs.tail }

/-- The read of a registration block has failed (R287). -/
def Chip.regBlockFails (c : Chip) (fn : Nat) : Chip := (c.popRegion fn).raise 0xB0 0x101 12 fn

/-- REGISTER: a write of P28.021 (R287). -/
def Chip.regionCommand (c : Chip) (fn addr : Nat) : Chip × Nat :=
  if addr % 64 ≠ 0 then (c, 7) else (c.updFn fn fun f => { f with regionJobs := f.regionJobs ++ [addr] }, 0)

/-- The head of a function's region commands, once an earlier DEREGISTER is done. -/
def Chip.regionHead? (c : Chip) (fn : Nat) : Option Nat :=
  if (c.fn fn).deregJob.isSome then none else (c.fn fn).regionJobs.head?

/-- REGISTER_COMPLETE: the device has read the block and the page list of the function's next command (R287, R514). -/
def Chip.registerComplete (c : Chip) (fn : Nat) (block : Option RegBlock) (pages : Option (List Nat)) : Chip :=
  match c.regionHead? fn with
  | none => c
  | some addr =>
    match block with
    | none => c.regBlockFails fn
    | some b =>
      if b.cmd = 2 then c
      else
        let r := c.registerResult fn b pages
        let c := c.popRegion fn
        if r ≠ 0 then c.regFails fn addr r
        else
          let key := b.index * 256 + Tab.get c.mem.regionGen b.index 0
          let c := { c with mem := { c.mem with regions := Tab.put c.mem.regions b.index (b.region fn (pages.getD [])) } }
          c.regDone fn addr 0 key

/-- A key has become invalid: the offers on its region end with 0x02 (R231, R288). -/
def Chip.endKeyOffers (c : Chip) (key : Nat) : Chip :=
  (c.mt.sOffers.filter fun o => o.lkey.toNat == key).foldl (fun c o => (c.endOffer o.index 2 c.freeNow).drawn) c

/-- A page translation of a region could not be read: the region becomes invalid, as if its key were stale (R281, R231). -/
def Chip.regionBad (c : Chip) (i : Nat) : Chip :=
  let c := { c with mem := { c.mem with regions := Tab.adjust c.mem.regions i fun r => { r with bad := true } } }
  c.endKeyOffers (i * 256 + Tab.get c.mem.regionGen i 0)

/-- DEREGISTER: the generation rises at once, and the offers on the region end (R288, R514). -/
def Chip.deregister (c : Chip) (fn : Nat) (block : Option RegBlock) : Chip :=
  match c.regionHead? fn with
  | none => c
  | some addr =>
    match block with
    | none => c.regBlockFails fn
    | some b =>
      if b.cmd ≠ 2 then c
      else
        let c := c.popRegion fn
        if !c.indexOk fn b.index then c.regFails fn addr 2
        else match Tab.get? c.mem.regions b.index with
          | none => c.regFails fn addr 3
          | some _ =>
            let gen := Tab.get c.mem.regionGen b.index 0
            let key := b.index * 256 + gen
            let c := { c with mem := { c.mem with
              regions := Tab.del c.mem.regions b.index
              regionGen := Tab.set c.mem.regionGen 0 b.index ((gen + 1) % 256) } }
            let c := c.updFn fn fun f => { f with deregJob := some (addr, key) }
            c.endKeyOffers key

/-- DEREGISTER_COMPLETE: every transfer that passed its key check before has finished (R288). -/
def Chip.deregisterComplete (c : Chip) (fn : Nat) : Chip :=
  match (c.fn fn).deregJob with
  | none => c
  | some (addr, key) =>
    if c.tr.hostReads.any fun r => r.region == key / 256 then c
    else (c.updFn fn fun f => { f with deregJob := none }).regDone fn addr 0 key

/-! ### ATS (R292) -/

/-- A page of 4 KiB meets a range of addresses. -/
def pageMeets (addr len page : Nat) : Bool := decide (addr < page + 4096 ∧ page < addr + len)

/-- ATS_INVALIDATE_REQUEST: every matching cached translation is dropped. -/
def Chip.atsInvalidate (c : Chip) (fn addr len : Nat) : Chip :=
  { c with mem := { c.mem with
      atsCache := c.mem.atsCache.filter fun r => !(r.1 == fn && pageMeets addr len r.2.1)
      atsPending := c.mem.atsPending ++ [(fn, addr, len)] } }

/-- A host read or AtomicOp in progress uses a translation of the range. -/
def Chip.atsInUse (c : Chip) (fn addr len : Nat) : Bool :=
  c.tr.hostReads.any fun r => r.fn == fn && r.pages.any (pageMeets addr len)

/-- ATS_INVALIDATE_COMPLETION: the function's oldest invalidation ends once no transfer uses such a translation. -/
def Chip.atsComplete (c : Chip) (fn : Nat) : Chip :=
  match c.mem.atsPending.find? fun r => r.1 == fn with
  | none => c
  | some r =>
    if c.atsInUse fn r.2.1 r.2.2 then c
    else { c with mem := { c.mem with atsPending := c.mem.atsPending.erase r } }.emit (.atsDone fn)

/-! ### Retirement (R282) -/

/-- Update a channel group. -/
def Chip.updGroup (c : Chip) (g : Nat) (f : Group → Group) : Chip :=
  { c with mem := { c.mem with groups := Tab.upd c.mem.groups g Group.init f } }

/-- The unit of a channel group. -/
def groupUnit (g : Nat) : Nat := 0x60 + g

/-- Channel groups in service. -/
def Chip.inService (c : Chip) : List Nat := (List.range (4 * c.variant.stacks)).filter fun g => (c.group g).state == 1

/-- Slabs of fabric memory. -/
def Chip.fabricSlabs (c : Chip) : Nat := c.mem.size / slabBytes

/-- Slabs in use: those of the device regions, then those of fabric memory. -/
def Chip.slabsUsed (c : Chip) : Nat := c.deviceSlabs + c.fabricSlabs

/-- The slabs that lie in a group, or are being copied into it (R278, R282). -/
def Chip.slabsIn (c : Chip) (g : Nat) : List Nat :=
  (List.range c.slabsUsed).filter fun n => c.slabPlace n / 384 == g || (Tab.get? c.mem.moving n).elim false fun p => p / 384 == g

/-- Free slabs in a group. -/
def Chip.freeIn (c : Chip) (g : Nat) : Nat := 384 - (c.slabsIn g).length

/-- A place is free: no slab lies there or is being copied there. -/
def Chip.placeFree (c : Chip) (p : Nat) : Bool :=
  !(match c.slabAt? p with
    | some n => decide (n < c.slabsUsed)
    | none => false) && !(c.mem.moving.any fun r => r.2 == p)

/-- The slabs of a retiring group get new places, free ones of the groups in service; which, the device chooses: free values. -/
def Chip.giveNewPlaces (c : Chip) : List Nat → List Nat → Chip
  | [], _ => c
  | n :: r, free => match free[c.freeNow % max 1 free.length]? with
    | none => c
    | some p => Chip.giveNewPlaces { c.drawn with mem := { c.mem with moving := Tab.put c.mem.moving n p } } r (free.erase p)

/-- The generation of an export entry rises (R293). -/
def Chip.nextExportGen (c : Chip) (n : Nat) : Chip :=
  { c with mem := { c.mem with exportGen := Tab.set c.mem.exportGen 0 n ((Tab.get c.mem.exportGen n 0 + 1) % 256) } }

/-- The key of an export entry (R293). -/
def Chip.exportKey (c : Chip) (n : Nat) : Nat := (0xFEF000 + n) * 256 + Tab.get c.mem.exportGen n 0

/-- The attributes of an export entry that is no longer valid. -/
def exportOff (attr : Nat) : Nat := attr - 2 ^ 63

/-- One export entry that reaches beyond the fabric memory left ceases to be valid (R282, R308). -/
def Chip.withdrawExport (c : Chip) (size n : Nat) : Chip :=
  let attr := c.param 0x28 0x032 n
  if bitOf attr 63 && decide (size < c.param 0x28 0x030 n + c.param 0x28 0x031 n) then
    let key := c.exportKey n
    ((c.setParam 0x28 0x032 n (exportOff attr)).nextExportGen n).endKeyOffers key
  else c

/-- The CXL decoders of a host port that reach beyond the fabric memory left. -/
def HostPort.withdrawn (p : HostPort) (size : Nat) : List Nat :=
  let l := if p.cxlSize0 ≠ 0 ∧ size < p.cxlBase0 + p.cxlSize0 then insertNat 0 p.cxlWithdrawn else p.cxlWithdrawn
  if p.cxlSize1 ≠ 0 ∧ size < p.cxlBase1 + p.cxlSize1 then insertNat 1 l else l

/-- Export entries that reach beyond the fabric memory left are withdrawn. -/
def Chip.withdrawExports (c : Chip) (size : Nat) (l : List Nat) : Chip := l.foldl (fun c n => c.withdrawExport size n) c

/-- CXL ranges that reach beyond the fabric memory left are withdrawn. -/
def Chip.withdrawRanges (c : Chip) (size : Nat) (l : List Nat) : Chip :=
  l.foldl (fun c h => c.updPort h fun p => { p with cxlWithdrawn := p.withdrawn size }) c

/-- Export entries and CXL ranges that reach beyond the fabric memory are withdrawn (R282, R293). -/
def Chip.withdraw (c : Chip) : Chip :=
  (c.withdrawExports c.mem.size (List.range 4096)).withdrawRanges c.mem.size (List.range c.variant.hostPorts)

/-- Fabric memory becomes smaller: what lay beyond its end has no place any more. -/
def Chip.resize (c : Chip) (size : Nat) : Chip :=
  let c := { c with mem := { c.mem with size := size } }
  { c with mem := { c.mem with
    placed := Tab.keep c.mem.placed fun n _ => decide (n < c.slabsUsed)
    moving := Tab.keep c.mem.moving fun n _ => decide (n < c.slabsUsed) } }

/-- The free slab places of the groups in service. -/
def Chip.freePlaces (c : Chip) : List Nat :=
  c.inService.flatMap fun x => ((List.range 384).map (x * 384 + ·)).filter c.placeFree

/-- The free slabs of the groups in service. -/
def Chip.freeSlabs (c : Chip) : Nat := c.inService.foldl (fun n x => n + c.freeIn x) 0

/-- Fabric memory loses a channel group's 12 GiB less the free slabs of the groups in service. -/
def Chip.shrink (c : Chip) : Chip := c.resize (c.mem.size - (384 - c.freeSlabs) * slabBytes)

/-- The slabs of a group get new places. -/
def Chip.moveOut (c : Chip) (g : Nat) : Chip := c.giveNewPlaces (c.slabsIn g) c.freePlaces

/-- The group is migrating: fabric memory shrinks, and the group's slabs move (R282 steps 1 and 2). -/
def Chip.migrate (c : Chip) (g : Nat) : Chip := (c.updGroup g fun x => { x with state := 2 }).shrink.moveOut g

/-- Retirement begins, and what reaches beyond the new size is withdrawn (R282 step 1). -/
def Chip.beginRetire (c : Chip) (g : Nat) : Chip :=
  if c.groupState g ≠ 1 then c else (c.migrate g).withdraw.setCond (groupUnit g) 0x102 true 11 (groupUnit g)

/-- RETIRE: a write of P28.011; an absent or retired group is refused with 0x07 (R283). -/
def Chip.retireGroup (c : Chip) (g : Nat) : Chip × Nat :=
  if c.groupState g = 0 ∨ c.groupState g = 3 then (c, 7) else (c.beginRetire g, 0)

/-- CHANNEL_GROUP_FAILURE: the group's PHY has lost training or the group no longer answers (R282, R464). -/
def Chip.groupFails (c : Chip) (g : Nat) : Chip :=
  if c.groupState g = 0 ∨ c.groupState g = 3 then c
  else (((c.updGroup g fun x => { x with dead := true }).beginRetire g).raise (groupUnit g) 0x103 11 (groupUnit g))

/-- The fabric-memory slabs, of those given, by their number within fabric memory. -/
def Chip.fabricOf (c : Chip) (l : List Nat) : List Nat :=
  (l.filter fun n => decide (c.deviceSlabs ≤ n)).map (· - c.deviceSlabs)

/-- RETIREMENT_COMPLETE: the copies are done and stand for the slabs of the group; `poisoned` lists the fabric-memory blocks of these
whose copy failed its check. A group that no longer answered leaves every block of them poisoned. Event 0x0B, and a fault record
(R282 steps 2 and 3). -/
def Chip.retirementComplete (c : Chip) (g : Nat) (poisoned : List Nat) : Chip :=
  if c.groupState g ≠ 2 then c
  else
    let moved := c.mem.moving.filter fun r => c.slabPlace r.1 / 384 == g
    let slabs := c.fabricOf (moved.map (·.1))
    let lost := if (c.group g).dead then slabs else []
    let c := { c with mem := { c.mem with
      placed := moved.foldl (fun (t : Tab Nat) (r : Nat × Nat) => Tab.put t r.1 r.2) c.mem.placed
      moving := moved.foldl (fun (t : Tab Nat) (r : Nat × Nat) => Tab.del t r.1) c.mem.moving
      poison := (poisoned.filter fun b => slabs.contains (b / 524288)).foldl (fun l b => insertNat b l) c.mem.poison
      lostSlabs := lost.foldl (fun l k => insertNat k l) c.mem.lostSlabs
      healed := c.mem.healed.filter fun b => !lost.contains (b / 524288) } }
    ((c.updGroup g fun x => { x with state := 3 }).eventPFs 0x0B (groupUnit g) 0 g).raise (groupUnit g) 0x102 11 (groupUnit g)

/-! ### Patrol scrub (R280, R282) -/

/-- One hour in ns. -/
def hour : Nat := 3600000000000

/-- A group whose corrected errors within the last hour exceed P28.012 retires by itself, with P28.013 = 1 (R282). -/
def Chip.autoRetire (c : Chip) (g : Nat) : Chip :=
  let n := ((c.group g).corrected.filter fun t => decide (c.now < t + hour)).length
  if c.param 0x28 0x013 0 = 1 ∧ c.param 0x28 0x012 0 < n then c.beginRetire g else c

/-- A change of P28.012 or P28.013 is held against every group (R282). -/
def Chip.retireRuleChanged (c old : Chip) : Chip :=
  if c.param 0x28 0x012 0 = old.param 0x28 0x012 0 ∧ c.param 0x28 0x013 0 = old.param 0x28 0x013 0 then c
  else (List.range (4 * c.variant.stacks)).foldl Chip.autoRetire c

/-- A corrected error counts within the last hour (R282). -/
def Chip.correctedError (c : Chip) (g a : Nat) : Chip :=
  let c := c.raise (groupUnit g) 0x100 6 (hbmSubject g a)
  (c.updGroup g fun x => { x with corrected := c.now :: x.corrected.filter fun t => decide (c.now < t + hour) }).autoRetire g

/-- An uncorrectable word poisons its block of fabric memory. While its slab is being copied, a free value says whether the block that
the word belongs to is the one in use (R280, R282). -/
def Chip.uncorrectableWord (c : Chip) (g a : Nat) : Chip :=
  match c.hbmOffset? g a with
  | none => c.drawn.raise (groupUnit g) 0x101 6 (hbmSubject g a) (BitVec.ofNat 64 (c.freeNow % 7))
  | some o =>
    let idle := c.copying (c.deviceSlabs + o / slabBytes) && decide (c.freeNow % 2 = 1)
    let poison := if idle then c.mem.poison else insertNat (o / 64) c.mem.poison
    { c.drawn with mem := { c.mem with poison := poison } }.raise (groupUnit g) 0x101 6 (hbmSubject g a) 7

/-- HBM_PATROL_SCRUB: the scrub reads a word at a byte offset of a group, in service or migrating (R280). -/
def Chip.patrolScrub (c : Chip) (g a : Nat) (o : ScrubOutcome) : Chip :=
  if c.groupState g ≠ 1 ∧ c.groupState g ≠ 2 then c
  else match o with
    | .clean => c
    | .corrected => c.correctedError g a
    | .uncorrectable => c.uncorrectableWord g a

/-! ### Export entries (R293) -/

/-- A committed change of an entry that was valid raises its generation, and the offers on it end: the rows before and after. -/
def Chip.exportChanged (c : Chip) (old : Chip) : Chip :=
  (List.range 4096).foldl (fun c n =>
    let row (x : Chip) : Nat × Nat × Nat := (x.param 0x28 0x030 n, x.param 0x28 0x031 n, x.param 0x28 0x032 n)
    if bitOf (old.param 0x28 0x032 n) 63 && decide (row c ≠ row old) then
      (c.nextExportGen n).endKeyOffers (old.exportKey n)
    else c) c

/-! ### CXL.mem (R306 to R308) -/

/-- The decoder and fabric-memory offset of a device physical address (R306). -/
def HostPort.cxlPlace (p : HostPort) (d : Nat) : Option (Nat × Nat) :=
  if d < p.cxlSize0 then some (0, p.cxlBase0 + d)
  else if d - p.cxlSize0 < p.cxlSize1 then some (1, p.cxlBase1 + (d - p.cxlSize0))
  else none

/-- A host port serves CXL.mem: CXL mode, trained link, a variant with fabric memory (R306). -/
def Chip.cxlServes (c : Chip) (h : Nat) : Bool :=
  c.hasHost h && (c.port h).mode == 2 && (c.port h).link == .up && !(c.port h).perst && c.variant != .ik920

/-- Bytes that the spec leaves open, `n` of them. -/
def freeBytes (v n : Nat) : List Byte := (List.range n).map fun i => BitVec.ofNat 8 (v / 256 ^ i)

/-- CXL_MEM_READ of 64 bytes. -/
def Chip.cxlRead (c : Chip) (h d : Nat) : Chip :=
  if !c.cxlServes h ∨ d % 64 ≠ 0 then c
  else match (c.port h).cxlPlace d with
    | none => c
    | some (i, o) =>
      if (c.port h).cxlWithdrawn.contains i then (c.emit (.cxlData h (freeBytes c.freeNow 64) true)).drawn
      else if c.mem.poisoned o 64 then (c.poisonRead o 7).emit (.cxlData h (c.mem.read o 64) true)
      else c.emit (.cxlData h (c.mem.read o 64) false)

/-- The given bytes of a partial write, with their places. -/
def Chip.cxlBytes (c : Chip) (o : Nat) (l : List (Option Byte)) : Chip :=
  if l.all (·.isSome) then c.hbmWrite o (l.filterMap fun b => b)
  else l.zipIdx.foldl (fun c r => match r.1 with
    | some b => c.hbmWrite (o + r.2) [b]
    | none => c) c

/-- CXL_MEM_WRITE of a 64-byte line with byte enables. -/
def Chip.cxlWrite (c : Chip) (h d : Nat) (l : List (Option Byte)) : Chip :=
  if !c.cxlServes h ∨ d % 64 ≠ 0 ∨ l.length ≠ 64 then c
  else match (c.port h).cxlPlace d with
    | none => c
    | some (i, o) => if (c.port h).cxlWithdrawn.contains i then c.bump (60 + h) .cxlDiscard else c.cxlBytes o l

end Sys2Proof.Machine
end

