-- ==== Sys2Proof/Machine/MatchOps.lean ====
section
/-! DEFINITION. The Mortise array: contexts, the match rule, the eager store, offers at their target (R202 to R235). -/

namespace Sys2Proof.Machine

/-! ### Contexts and limits (R202, R203, R209, R211, R233) -/

/-- The key of a matching context: host port and MCTX (R202). -/
def ctxKey (h mctx : Nat) : Nat := h * 2 ^ 20 + mctx

/-- A bound context. -/
def Chip.mctx? (c : Chip) (ctx : Nat) : Option MCtx := Tab.get? c.mt.ctxs ctx

/-- The function that owns a context's queue. -/
def Chip.ctxFn (c : Chip) (ctx : Nat) : Nat :=
  (c.mctx? ctx).elim (ctx / 2 ^ 20 * 256) fun m => (c.queue? (ctx / 2 ^ 20) m.qn).elim (ctx / 2 ^ 20 * 256) (·.fn)

/-- The unit number of the engine that serves a context (R209). -/
def Chip.engineUnit (c : Chip) (ctx : Nat) : Nat := 0x70 + ctx % 2 ^ 20 % max 1 c.variant.matchEngines

/-- Entries that the overflow region holds beside the descriptors (R211). -/
def Chip.overflowEntries (c : Chip) : Nat := (c.regionSize 2 - 32) * 16384

/-- Overflow entries in use: posted receives and unexpected headers beyond their SRAM parts (R211, R212). -/
def Chip.overflowUsed (c : Chip) : Nat := (c.mt.posted.length - 65536) + (c.mt.unexp.length - 65536)

/-- A list part of `n` entries has room for one more, in SRAM or in the overflow region. -/
def Chip.listRoom (c : Chip) (n : Nat) : Bool := n < 65536 || (n < 67108864 && c.overflowUsed < c.overflowEntries)

/-- A TAGGED RECV of a function may be posted; those that wait on a match read count, since they will be (R233, R235). -/
def Chip.postedRoom (c : Chip) (fn : Nat) : Bool :=
  let waiting := (c.mt.waiting.filter fun r => (c.queue? (r.1 / 2 ^ 24) (r.1 % 2 ^ 24)).elim false fun q => q.fn == fn).length
  c.listRoom (c.mt.posted.length + c.mt.waiting.length) &&
  (c.mt.posted.filter fun r => c.ctxFn r.ctx == fn).length + waiting < c.param 0x22 0x012 fn

/-- A message of a function's context may become unexpected or held (R233). -/
def Chip.unexpRoom (c : Chip) (fn : Nat) : Bool :=
  c.listRoom c.mt.unexp.length &&
  (c.mt.unexp.filter fun u => c.ctxFn u.ctx == fn).length < c.param 0x22 0x013 fn

/-- Store units of a payload (R213). -/
def unitsOf (n : Nat) : Nat := divUp n 256

/-- Store units of a message. -/
def Unexp.units (u : Unexp) : Nat := u.data.foldl (fun n r => n + unitsOf r.2.length) 0

/-- The messages with data in the eager store: unexpected, held and being copied. -/
def Chip.storedMsgs (c : Chip) : List Unexp := c.mt.unexp ++ c.mt.copies.map (·.msg)

/-- P22.023: eager store in use, in bytes. -/
def Chip.storeUsed (c : Chip) : Nat := 256 * c.storedMsgs.foldl (fun n u => n + u.units) 0

/-- The eager store has room for `n` payload bytes of a function (R233). -/
def Chip.storeRoom (c : Chip) (fn n : Nat) : Bool :=
  c.storeUsed + 256 * unitsOf n ≤ c.regionSize 3 * 1048576 &&
  256 * (c.storedMsgs.filter fun u => c.ctxFn u.ctx == fn).foldl (fun n u => n + u.units) 0 + 256 * unitsOf n ≤
    c.param 0x22 0x014 fn

/-- Offer records in use (P22.024): open offers at their sender, matched offers that hold one at their target. -/
def Chip.offerRecords (c : Chip) : Nat := c.mt.sOffers.length + (c.mt.tOffers.filter (·.reading)).length

/-- Order records in use (R218). -/
def Chip.orderRecords (c : Chip) : Nat := c.tr.chans.foldl (fun n r => n + r.2.recorded.length) 0

/-! ### The match rule (R214, R215) -/

/-- A receive entry matches match bits and a source identity. -/
def recvAccepts (e : Entry) (bits : Word) (src : BitVec 32) : Bool :=
  (bits ^^^ e.rMatch) &&& ~~~e.ignore == 0 && (src ^^^ e.srcid) &&& ~~~e.srcmask == 0

/-- The posted receive that a message takes: of those that match, the lowest posting sequence. -/
def Chip.findPosted (c : Chip) (ctx : Nat) (bits : Word) (src : BitVec 32) : Option Posted :=
  c.mt.posted.find? fun r => r.ctx == ctx && recvAccepts r.entry bits src

/-- The unexpected message that a receive takes: of those that match, the one released earliest. -/
def Chip.findUnexp (c : Chip) (ctx : Nat) (e : Entry) : Option Unexp :=
  c.mt.unexp.find? fun u => u.ctx == ctx && !u.held && recvAccepts e u.bits u.src

/-- A posted receive leaves its lists. -/
def Chip.takePosted (c : Chip) (r : Posted) : Chip :=
  { c with mt := { c.mt with posted := eraseFirst (fun a => a.ctx == r.ctx && a.seq == r.seq) c.mt.posted } }

/-- An unexpected or held message leaves its lists. -/
def Chip.takeUnexp (c : Chip) (k : Nat) (m : BitVec 32) : Chip :=
  { c with mt := { c.mt with unexp := eraseFirst (fun u => u.chan == k && u.msgid == m) c.mt.unexp } }

/-- Update the copies of a message in progress. -/
def Chip.updCopies (c : Chip) (k : Nat) (m : BitVec 32) (f : EagerCopy → EagerCopy) : Chip :=
  { c with mt := { c.mt with copies := mapIf (fun y => y.chan == k && y.msg.msgid == m) f c.mt.copies } }

/-- The unexpected or held entry of a message. -/
def Chip.unexp? (c : Chip) (k : Nat) (m : BitVec 32) : Option Unexp :=
  c.mt.unexp.find? fun u => u.chan == k && u.msgid == m

/-! ### Messages of a receive half -/

/-- The record of a message of a receive half. -/
def Chan.msg? (x : Chan) (m : BitVec 32) : Option RxMsg := x.msgs.find? fun r => r.msgid == m

/-- Put a message record at its place in MSGID order from the next MSGID to complete. -/
def insertMsg (base : BitVec 32) (r : RxMsg) : List RxMsg → List RxMsg
  | [] => [r]
  | x :: l =>
    if x.msgid = r.msgid then r :: l
    else if (r.msgid - base).toNat < (x.msgid - base).toNat then r :: x :: l else x :: insertMsg base r l

/-- Put a message record on a channel. -/
def Chip.putMsg (c : Chip) (k : Nat) (r : RxMsg) : Chip :=
  c.updChan k fun x => { x with msgs := insertMsg x.nextDone r x.msgs }

/-- Update the record of a message, if it has one. -/
def Chip.updMsg (c : Chip) (k : Nat) (m : BitVec 32) (f : RxMsg → RxMsg) : Chip :=
  c.updChan k fun x => { x with msgs := mapIf (fun r => r.msgid == m) f x.msgs }

/-! ### Offers at their target (R229, R231, R232) -/

/-- The receive completion of a tagged message. -/
def taggedCompletion (e : Entry) (solicit : Bool) (len : Nat) (src : BitVec 32) (bits : Word) : Completion :=
  { wrid := e.wrid, opcode := 0xE1, solicited := solicit, length := BitVec.ofNat 32 len, peer := src, result := bits }

/-- A receive completion goes to the CQ of its queue. -/
def Chip.completeRecv (c : Chip) (h qn : Nat) (ctx : Option Nat) (status : Nat) (p : Completion) : Chip :=
  match c.queue? h qn with
  | none => c
  | some q => c.complete { h := h, fn := q.fn, qn := qn, cqn := q.cqn, recv := true, ctx := ctx, status := status } p

/-- A close: a zero-length WRITE to the offer key at the offset taken (R229 step 5), unless its destination cannot be reached. -/
def Chip.sendClose (c : Chip) (k fn id offset : Nat) (key : BitVec 32) : Chip :=
  if (c.preFail (chRemote k)).isSome then c
  else c.enqueueOp k { fn := fn, toffer := some id, opcode := 0x10, report := 0x10, dest := chRemote k, lo := offset, lo2 := key.toNat }

/-- The receive of a matched offer completes, and its record is free. -/
def Chip.endTOffer (c : Chip) (t : TOffer) (status len : Nat) : Chip :=
  let c := { c with mt := { c.mt with tOffers := eraseFirst (fun a => a.id == t.id) c.mt.tOffers } }
  c.completeRecv (chHost t.chan) t.qn (some t.entry.rMctx) status (taggedCompletion t.entry t.solicit len t.src t.bits)

/-- The bytes of a matched offer have been read: the close, then the receive completion (R229 step 5). -/
def Chip.closeTOffer (c : Chip) (t : TOffer) : Chip :=
  let fn := (c.queue? (chHost t.chan) t.qn).elim 0 (·.fn)
  (c.sendClose t.chan fn t.id (t.offset + t.take) t.key).endTOffer t (if t.take < t.length then 0x10 else 0) t.take

/-- The READ of a matched offer that holds its record (R229 step 3). -/
def Chip.readTOffer (c : Chip) (t : TOffer) : Chip :=
  let k := t.chan
  let fn := (c.queue? (chHost k) t.qn).elim 0 (·.fn)
  if t.take = 0 then c.closeTOffer t
  else match c.localCheck fn t.entry.rLkey t.entry.rLaddr t.take true with
    | .refused s => c.endTOffer t s 0
    | _ => match c.preFail (chRemote k) with
      | some s => c.endTOffer t s 0
      | none =>
        let chunk := c.param 0x21 0x035 0
        let l := readChunks chunk t.take (divUp t.take chunk) 0
        c.enqueueOps k (l.map fun r =>
          { fn := fn, toffer := some t.id, opcode := 0x20, report := 0x20, dest := chRemote k, length := r.2
            lo := t.offset + r.1, lo2 := t.key.toNat, w3 := mkWord [(wireLength r.2, 32)], lkey := t.entry.rLkey
            laddr := t.entry.rLaddr + r.1, lastChunk := r.1 + r.2 == t.take })

/-- A matched offer takes a record if one is free, and then reads (R232). -/
def Chip.beginTOffer (c : Chip) (t : TOffer) : Chip :=
  if t.reading || 65536 ≤ c.offerRecords then c
  else
    let t' := { t with reading := true }
    ({ c with mt := { c.mt with tOffers := mapIf (fun a => a.id == t.id) (fun _ => t') c.mt.tOffers } }).readTOffer t'

/-- An unexpected or arriving message and a receive entry have matched: an offer is read, stored data is copied. -/
def Chip.deliverStored (c : Chip) (u : Unexp) (qn : Nat) (e : Entry) : Chip :=
  let id := c.mt.nextId
  let c := { c with mt := { c.mt with nextId := id + 1 } }
  if u.isOffer then
    let t : TOffer :=
      { id := id, chan := u.chan, key := u.offerKey, offset := u.offerOff, length := u.length, take := min u.length e.length
        qn := qn, entry := e, src := u.src, bits := u.bits, solicit := u.solicit }
    ({ c with mt := { c.mt with tOffers := c.mt.tOffers ++ [t] } }).beginTOffer t
  else
    let k : EagerCopy := { id := id, chan := u.chan, msg := u, qn := qn, entry := e, whole := u.data.length == u.pcnt }
    ({ c with mt := { c.mt with copies := c.mt.copies ++ [k] } }).updMsg u.chan u.msgid
      fun r => { r with buffer := some e, quiet := true }

/-- A message is released to matching (R217): it takes the receive that matches, or joins the unexpected list at its end. -/
def Chip.releaseMsg (c : Chip) (u : Unexp) : Chip :=
  let c := c.takeUnexp u.chan u.msgid
  match c.findPosted u.ctx u.bits u.src with
  | some r => (c.takePosted r).deliverStored u r.qn r.entry
  | none => { c with mt := { c.mt with unexp := c.mt.unexp ++ [{ u with held := false }] } }

/-! ### Message order (R217, R218) -/

/-- Q passes its MSGID and every following one that is recorded; each held message among them is released. -/
def Chip.advanceQ (c : Chip) (k : Nat) : Nat → Chip
  | 0 => c
  | fuel + 1 =>
    match c.chan? k with
    | none => c
    | some x =>
      if x.recorded.contains x.resolve then
        let q := x.resolve
        let c := c.putChan k { x with resolve := q + 1, recorded := x.recorded.erase q }
        let c := match c.unexp? k q with
          | some u => if u.held then c.releaseMsg u else c
          | none => c
        c.advanceQ k fuel
      else c

/-- A message has reached the Mortise array with its first packet: Q passes it, or it takes an order record. -/
def Chip.resolveMsg (c : Chip) (k : Nat) (m : BitVec 32) : Chip :=
  match c.chan? k with
  | none => c
  | some x =>
    if m = x.resolve then (c.putChan k { x with resolve := x.resolve + 1 }).advanceQ k (x.recorded.length + 1)
    else if (m - x.resolve).toNat < 2 ^ 31 && !x.recorded.contains m then c.putChan k { x with recorded := x.recorded ++ [m] }
    else c

/-! ### Postings (R208, R209, R215, R235) -/

/-- A TAGGED RECV of a bound context takes its posting sequence, then a message or a place in the lists (R215). -/
def Chip.postTagged (c : Chip) (ctx : Nat) (m : MCtx) (e : Entry) : Chip :=
  let c := { c with mt := { c.mt with ctxs := Tab.put c.mt.ctxs ctx { m with nextSeq := m.nextSeq + 1 } } }
  match c.findUnexp ctx e with
  | some u => (c.takeUnexp u.chan u.msgid).deliverStored u m.qn e
  | none => { c with mt := { c.mt with posted := c.mt.posted ++ [{ ctx := ctx, seq := m.nextSeq, qn := m.qn, entry := e }] } }

/-- A TAGGED RECV reaches its engine (R208, R215). -/
def Chip.engineRecv (c : Chip) (h qn : Nat) (e : Entry) : Chip :=
  let ctx := ctxKey h e.rMctx
  match c.mctx? ctx with
  | some m => if m.qn = qn then c.postTagged ctx m e else c.completeRecv h qn none 2 (flushCompletion true e)
  | none => c.completeRecv h qn none 2 (flushCompletion true e)

/-- The context of a waiting TAGGED RECV. -/
def waitCtx (r : Nat × Entry) : Nat := ctxKey (r.1 / 2 ^ 24) r.2.rMctx

/-- The TAGGED RECVs that wait on a context's reads take effect, in order (R209, R235). -/
def Chip.matchReadDone (c : Chip) (ctx : Nat) : Chip :=
  let mine := c.mt.waiting.filter fun r => waitCtx r == ctx
  let c := { c with mt := { c.mt with waiting := c.mt.waiting.filter fun r => waitCtx r != ctx } }
  mine.foldl (fun c r => c.engineRecv (r.1 / 2 ^ 24) (r.1 % 2 ^ 24) r.2) c

/-! ### Unbinding (R205, R221) -/

/-- A message is discarded: its later packets are acknowledged and dropped, and it counts as complete (R220). -/
def Chip.abandonRecord (c : Chip) (k : Nat) (m : BitVec 32) : Chip :=
  c.updMsg k m fun r => { r with abandoned := true, ended := true, stored := false }

/-- An unexpected or held message of a context that is being unbound is discarded and counted; an offer is closed with
zero bytes taken (R205, R231). -/
def Chip.discardUnexp (c : Chip) (u : Unexp) : Chip :=
  let c := (c.takeUnexp u.chan u.msgid).bump (c.engineUnit u.ctx) .contextDiscard
  let c := c.abandonRecord u.chan u.msgid
  if u.isOffer then
    let id := c.mt.nextId
    ({ c with mt := { c.mt with nextId := id + 1 } }).sendClose u.chan (c.ctxFn u.ctx) id u.offerOff u.offerKey
  else c

/-- A context is unbound, after the postings that reached its engine earlier: posted receives complete with 0x09, messages are
discarded, the context goes (R205, R209). -/
def Chip.unbind (c : Chip) (ctx : Nat) : Chip :=
  match c.mctx? ctx with
  | none => c
  | some m =>
    let h := ctx / 2 ^ 20
    let c := c.matchReadDone ctx
    let mine := c.mt.posted.filter fun r => r.ctx == ctx
    let c := { c with mt := { c.mt with posted := c.mt.posted.filter fun r => r.ctx != ctx } }
    let c := mine.foldl (fun c r => c.completeRecv h m.qn none 9 (flushCompletion true r.entry)) c
    let c := (c.mt.unexp.filter fun u => u.ctx == ctx).foldl (fun c u => c.discardUnexp u) c
    { c with mt := { c.mt with ctxs := Tab.del c.mt.ctxs ctx } }

/-- A matching list entry or the descriptor of a context was read poisoned: the context is unbound and its queue goes to error
with cause 2 (R281). -/
def Chip.matchLost (c : Chip) (ctx : Nat) : Chip :=
  let c := c.poisonDevice 2
  match c.mctx? ctx with
  | some m => (c.unbind ctx).queueError (ctx / 2 ^ 20) m.qn 2 0
  | none => c

/-- Every context of a queue is unbound (R205). -/
def Chip.unbindQueue (c : Chip) (h qn : Nat) : Chip :=
  (c.mt.ctxs.filter fun r => r.1 / 2 ^ 20 == h && r.2.qn == qn).foldl (fun c r => c.unbind r.1) c

/-- The key under which a message kept over a SYNC stands: no channel's, and no other kept message's (R221). -/
def keptKey (k id : Nat) : Nat := k + (id + 1) * 2 ^ 21

/-- The complete messages of a channel that stay over a SYNC, unexpected or being copied, leave its MSGIDs (R221). -/
def Chip.keepMessages (c : Chip) (k : Nat) : Chip :=
  let id := c.mt.nextId
  let n := c.mt.unexp.length
  { c with mt := { c.mt with
      nextId := id + n + c.mt.copies.length
      unexp := c.mt.unexp.mapIdx fun i u => if u.chan = k then { u with chan := keptKey k (id + i) } else u
      copies := c.mt.copies.mapIdx fun i y =>
        if y.chan = k then { y with chan := keptKey k (id + n + i), msg := { y.msg with chan := keptKey k (id + n + i) } } else y } }

/-- The Mortise array at a SYNC of a channel (R221). -/
def Chip.syncMortise (c : Chip) (k : Nat) (m : BitVec 32) : Chip :=
  let gone (u : Unexp) : Bool := u.chan == k && (u.held || u.isOffer || u.data.length != u.pcnt)
  let counted := c.mt.unexp.filter fun u => gone u && !(u.isOffer && !u.held)
  let c := counted.foldl (fun c u => c.bump (c.engineUnit u.ctx) .matchDiscard) c
  let c := { c with mt := { c.mt with
    unexp := c.mt.unexp.filter fun u => !gone u
    copies := c.mt.copies.filter fun y => !(y.chan == k && !y.whole) } }
  (c.keepMessages k).updChan k fun x => { x with resolve := m + 1, recorded := [] }

/-- A NOP abandons the message of its MSGID (R220). -/
def Chip.abandonMsg (c : Chip) (k : Nat) (r : RxMsg) : Chip :=
  if r.abandoned then c
  else
    let c := match c.unexp? k r.msgid with
      | some u => (c.takeUnexp k r.msgid).bump (c.engineUnit u.ctx) .matchDiscard
      | none => c
    let c := { c with mt := { c.mt with
      copies := c.mt.copies.filter fun y => !(y.chan == k && y.msg.msgid == r.msgid && !y.whole) } }
    c.updMsg k r.msgid fun r => { r with abandoned := true, ended := true, stored := false, quiet := false, status := 6 }

/-! ### Binding (R204) -/

/-- CONTEXT_BIND: a write of P22.010 with BIND = 1 (R204). -/
def Chip.bindCtx (c : Chip) (fn qn mctx : Nat) : Chip × Nat :=
  let h := fn / 256
  let ctx := ctxKey h mctx
  match c.queue? h qn with
  | none => (c, 7)
  | some q =>
    if (q.kind == .rq || q.kind == .srq) && q.fn == fn && q.state == .active && q.destroying.isNone && (c.mctx? ctx).isNone &&
        c.mt.ctxs.length < 1048576 && (c.mt.ctxs.filter fun r => c.ctxFn r.1 == fn).length < c.param 0x22 0x011 fn then
      ({ c with mt := { c.mt with ctxs := Tab.put c.mt.ctxs ctx { qn := qn, nextSeq := 0 } } }, 0)
    else (c, 7)

/-- CONTEXT_UNBIND: a write of P22.010 with BIND = 0 (R204). -/
def Chip.unbindCtx (c : Chip) (fn qn mctx : Nat) : Chip × Nat :=
  let ctx := ctxKey (fn / 256) mctx
  match c.mctx? ctx with
  | none => (c, 7)
  | some m => if m.qn = qn ∧ c.ctxFn ctx = fn then (c.unbind ctx, 0) else (c, 7)

/-- A write of P22.010[fn] (R203); bits [62:44] of the value are ignored, like all that a description gives as zero (R9). -/
def Chip.contextCommand (c : Chip) (fn : Nat) (v : Nat) : Chip × Nat :=
  if bitOf v 63 then c.bindCtx fn (bits v 20 24) (bits v 0 20)
  else c.unbindCtx fn (bits v 20 24) (bits v 0 20)

/-- A copy from the eager store has finished (R225, R227): the data is in the buffer, the store units are free. -/
def Chip.copyComplete (c : Chip) (id : Nat) (poisoned : Bool) : Chip :=
  match c.mt.copies.find? fun y => y.id == id with
  | none => c
  | some y =>
    if !y.whole then c
    else
      let h := chHost y.chan
      let fn := (c.queue? h y.qn).elim 0 (·.fn)
      let e := y.entry
      let c := { c with mt := { c.mt with copies := eraseFirst (fun a => a.id == id) c.mt.copies } }
      let len := y.msg.length
      let (c, bad) := y.msg.data.foldl (fun (r : Chip × Option Nat) d =>
        let fits := min d.2.length (e.length - 4096 * d.1)
        if fits = 0 ∨ r.2.isSome then r
        else r.1.place (r.1.localCheck fn e.rLkey (e.rLaddr + 4096 * d.1) fits true) (d.2.take fits) 2) (c, none)
      let status := if poisoned then 4 else match bad with
        | some s => s
        | none => if e.length < len then 0x10 else 0
      let c := if poisoned then c.poisonDevice 3 else c
      c.completeRecv h y.qn (some e.rMctx) status
        (taggedCompletion e y.msg.solicit (min len e.length) y.msg.src y.msg.bits)

/-- An offer record frees for the matched offer `id` (R232). -/
def Chip.offerRecordFreed (c : Chip) (id : Nat) : Chip :=
  match c.mt.tOffers.find? fun t => t.id == id with
  | none => c
  | some t => c.beginTOffer t

end Sys2Proof.Machine
end

