-- ==== Sys2Proof/Machine/RespOps.lean ====
section
/-! DEFINITION. The receive halves of peer channels: arriving request packets, their placement, acknowledgement and
order (R77, R99, R163 to R166, R172 to R178, R183 to R189, R196 to R201, R207, R217 to R227, R240, R294). -/

namespace Sys2Proof.Machine

/-! ### Answers (R88, R93) -/

/-- A response to a request packet, in the class above it. -/
def Chip.answer (c : Chip) (h : Nat) (p : Packet) (opcode status : Nat) (w1 : Word) (payload : List Byte) : Chip :=
  let w2 : Word := if opcode = 0x81 then 0 else mkWord [(p.msgid.toNat, 32)]
  c.inject h (responsePacket (p.tc.toNat + 1) p.src.toNat p.dst.toNat opcode p.ecn p.psn status w1 w2 0 payload)

/-- ERROR with a status. -/
def Chip.answerError (c : Chip) (h : Nat) (p : Packet) (status : Nat) : Chip := c.answer h p 0x82 status 0 []

/-- BUSY NAK. -/
def Chip.answerBusy (c : Chip) (h : Nat) (p : Packet) : Chip := c.answer h p 0x81 0 0 []

/-- READ DATA for the bytes of a READ (R93, R95). -/
def Chip.answerData (c : Chip) (h : Nat) (p : Packet) (l : List Byte) : Chip :=
  let n := packetsOf l.length
  (List.range n).foldl (fun c i => c.answer h p 0x83 0 (mkWord [(i, 20), (n, 0)]) ((l.drop (4096 * i)).take 4096)) c

/-- ATOMIC RESULT with the prior value (R93). -/
def Chip.answerAtomic (c : Chip) (h : Nat) (p : Packet) (wide : Bool) (v : BitVec 128) : Chip :=
  c.answer h p 0x84 0 0 (bytesLE (if wide then 16 else 8) v.toNat)

/-- The ACK of one slice j of the bitmap (R178). The payload's four bytes hold SMAP [31:0] most significant byte first, as every
number in a packet (DESIGN CHOICE: R93 does not give their order). -/
def Chip.sendAck (c : Chip) (k : Nat) (x : Chan) (j : Nat) : Chip :=
  let sbase := x.base + BitVec.ofNat 24 (128 * j)
  let smap := x.bitmap.toNat / 2 ^ (128 * j) % 2 ^ 128
  let h := chHost k
  c.inject h (responsePacket (chTC k + 1) (chRemote k) (c.endpoint h) 0x80 x.ackEcn x.base 0
    (mkWord [(sbase.toNat, 40)]) (mkWord [(smap / 2 ^ 96, 0)]) (mkWord [(smap / 2 ^ 32 % 2 ^ 64, 0)]) (bytesBE 4 (smap % 2 ^ 32)))

/-- The slices that hold acknowledged packets ahead of the base; slice 0 where there are none (R178). -/
def Chan.ackSlices (x : Chan) : List Nat :=
  let l := (List.range 8).filter fun j => x.bitmap.toNat / 2 ^ (128 * j) % 2 ^ 128 != 0
  if l.isEmpty then [0] else l

/-- Acknowledge every packet accepted so far (R177, R178). -/
def Chip.ackNow (c : Chip) (k : Nat) : Chip :=
  match c.chan? k with
  | none => c
  | some x =>
    (x.ackSlices.foldl (fun c j => c.sendAck k x j) c).putChan k { x with unacked := [], ackEcn := false }

/-! ### Arrival: who owns what the packet names (R199 step 3) -/

/-- The open offer that an offer key names (R228). -/
def Chip.offer? (c : Chip) (key : BitVec 32) : Option SOffer :=
  c.mt.sOffers.find? fun o => 0xFF0000 + o.index == keyIndex key && o.gen.toNat == keyGen key

/-- The functions that own the queue, the context, the key or the counter that a request names. -/
def Chip.ownersOf (c : Chip) (h : Nat) (p : Packet) : List Nat :=
  let q (n : Nat) : List Nat := ((c.queue? h n).map (·.fn)).toList
  match p.kind.toNat with
  | 0x01 => q p.dqn ++ (if p.opcode = 1 then [] else if (c.mctx? (ctxKey h p.mctx)).isSome then [c.ctxFn (ctxKey h p.mctx)] else [])
  | 0x05 => if p.opcode = 0x40 then ((c.tctr? p.counter).map (·.owner)).toList else []
  | _ =>
    (if p.opcode = 0x11 then q p.notifyQn else []) ++
    (match c.offer? p.key with
      | some o => [o.fn]
      | none => match Tab.get? c.mem.regions (keyIndex p.key) with
        | some r => [r.fn]
        | none => [])

/-- A function that is draining, quiesced or has ceased: requests for it get ERROR 0x11 (R199, R513). -/
def Chip.goneFn (c : Chip) (fn : Nat) : Bool := c.silentFn fn || !c.fnExists fn

/-! ### What becomes of a request packet -/

/-- The verdict on a packet in the window. -/
inductive Verdict where
  /-- Accepted. -/
  | ok
  /-- Placed as far as it fits; ERROR 0x10 (R173). -/
  | short
  /-- Refused with an ERROR. -/
  | refused (status : Nat)
  /-- Not accepted: BUSY NAK. -/
  | busy
  deriving DecidableEq, Repr

/-- Place payload packet `i` of a message in its receive buffer (R172, R173): what fits, under the check of the buffer's key. -/
def Chip.placeRecv (c : Chip) (fn : Nat) (e : Entry) (i : Nat) (l : List Byte) : Chip × Option Nat × Bool :=
  let fits := min l.length (e.length - 4096 * i)
  let short := fits < l.length
  if fits = 0 then (c, none, short)
  else match c.localCheck fn e.rLkey (e.rLaddr + 4096 * i) fits true with
    | k => let (c, bad) := c.place k (l.take fits) 2; (c, bad, short)

/-- A packet of a message that has its receive entry. -/
def Chip.takeIntoBuffer (c : Chip) (h k : Nat) (p : Packet) (r : RxMsg) (e : Entry) : Chip × Verdict :=
  let fn := (c.queue? h r.dqn).elim 0 (·.fn)
  let (c, bad, short) := c.placeRecv fn e p.pidx p.payload
  let status := match bad with
    | some s => s
    | none => if short then 0x10 else r.status
  let c := c.putMsg k { r with status := status }
  let c := if r.stored && p.last then
      c.updCopies k r.msgid fun y => { y with msg := { y.msg with length := 4096 * p.pidx + p.payload.length } }
    else c
  (c, if short && !r.stored then .short else .ok)

/-- The record of a message at its first packet. -/
def newMsg (p : Packet) : RxMsg :=
  { msgid := p.msgid, opcode := p.opcode, pcnt := p.pcnt, src := p.identity.toNat, dqn := p.dqn, mctx := p.mctx
    bits := p.matchBits, solicit := p.solicit, imm := p.imm }

/-- Add a payload packet to the eager store (R213, R225). -/
def Unexp.store (u : Unexp) (p : Packet) : Unexp :=
  let n := if p.last && !u.isOffer then 4096 * p.pidx + p.payload.length else u.length
  { u with data := Tab.put u.data p.pidx p.payload, length := n }

/-- A packet for a message in the eager store, or on its way into its buffer (R225, R233). -/
def Chip.storePacket (c : Chip) (h k : Nat) (p : Packet) (r : RxMsg) : Chip × Verdict :=
  match c.unexp? k p.msgid with
  | none => (c, .ok)
  | some _ =>
    if !c.storeRoom (c.ctxFn (ctxKey h r.mctx)) p.payload.length then (c, .busy)
    else ({ c with mt := { c.mt with unexp := mapIf (fun a => a.chan == k && a.msgid == p.msgid) (fun a => a.store p) c.mt.unexp } }, .ok)

/-- The entry of an unexpected or held message (R214, R218, R229). -/
def newUnexp (h k : Nat) (p : Packet) (held : Bool) : Unexp :=
  let u : Unexp :=
    { ctx := ctxKey h p.mctx, chan := k, msgid := p.msgid, src := p.identity, bits := p.matchBits, held := held
      isOffer := p.opcode == 3, pcnt := p.pcnt, solicit := p.solicit }
  if p.opcode = 3 then
    let n := natBE ((p.payload.drop 12).take 4)
    { u with
      offerKey := BitVec.ofNat 32 (natBE (p.payload.take 4)), offerOff := natBE ((p.payload.drop 6).take 6)
      length := if n = 0 then 2147483648 else n }
  else u.store p

/-- An order record is needed and none is free (R218, R233). -/
def Chip.orderFull (c : Chip) (x : Chan) (m : BitVec 32) : Bool :=
  m != x.resolve && (m - x.resolve).toNat < 2 ^ 31 && !x.recorded.contains m && 131072 ≤ c.orderRecords

/-- The first packet of a SEND or WRITE-WITH-NOTIFY takes the oldest RECV entry of its queue (R173, R222). -/
def Chip.takeRecv (c : Chip) (h qn : Nat) : Option (Chip × Entry) :=
  match c.queue? h qn with
  | none => none
  | some q =>
    match q.recvs with
    | [] => none
    | e :: r => if (q.kind == .rq || q.kind == .srq) && q.state == .active && q.destroying.isNone then some (c.putQueue h qn { q with recvs := r }, e) else none

/-- The queue of a message request is an active RQ or SRQ of the host port, and owns the context (R207). -/
def Chip.messageRefused (c : Chip) (h : Nat) (p : Packet) : Bool :=
  (match c.queue? h p.dqn with
    | none => true
    | some q => !((q.kind == .rq || q.kind == .srq) && q.state == .active && q.destroying.isNone)) ||
  (p.opcode != 1 && ((c.mctx? (ctxKey h p.mctx)).elim true fun m => m.qn != p.dqn))

/-- The first packet of a SEND. -/
def Chip.firstSend (c : Chip) (h k : Nat) (p : Packet) : Chip × Verdict :=
  match c.takeRecv h p.dqn with
  | none => (c, .busy)
  | some (c, e) =>
    let r := { newMsg p with buffer := some e }
    (c.resolveMsg k p.msgid).takeIntoBuffer h k p r e

/-- The first packet of a TAGGED SEND or an OFFER (R217, R218, R224 to R226, R229). -/
def Chip.firstTagged (c : Chip) (h k : Nat) (x : Chan) (p : Packet) : Chip × Verdict :=
  let ctx := ctxKey h p.mctx
  let fn := c.ctxFn ctx
  let now := p.msgid == x.resolve
  match (if now then c.findPosted ctx p.matchBits p.identity else none) with
  | some t =>
    let c := c.takePosted t
    if p.opcode = 3 then
      let c := (c.putMsg k (newMsg p)).deliverStored (newUnexp h k p false) t.qn t.entry
      ((c.updMsg k p.msgid fun r => { r with buffer := none, quiet := true }).resolveMsg k p.msgid, .ok)
    else (c.resolveMsg k p.msgid).takeIntoBuffer h k p { newMsg p with buffer := some t.entry } t.entry
  | none =>
    if p.opcode = 2 && 4 < p.pcnt then ((c.putMsg k { newMsg p with status := 4 }).resolveMsg k p.msgid, .refused 4)
    else if !c.unexpRoom fn then (c, .busy)
    else if p.opcode = 2 && !c.storeRoom fn p.payload.length then (c, .busy)
    else
      let c := { c with mt := { c.mt with unexp := c.mt.unexp ++ [newUnexp h k p !now] } }
      ((c.putMsg k { newMsg p with stored := true, quiet := p.opcode == 3 }).resolveMsg k p.msgid, .ok)

/-- A later packet of a message is refused because its queue or context no longer takes it (R206, R207): what the eager store
holds of the message is discarded and counted. -/
def Chip.refuseLater (c : Chip) (k : Nat) (r : RxMsg) : Chip × Verdict :=
  let c := match (if r.stored then c.unexp? k r.msgid else none) with
    | some u => (c.takeUnexp k r.msgid).bump (c.engineUnit u.ctx) .matchDiscard
    | none => c
  (c.putMsg k { r with stored := false, status := if r.status = 0 then 4 else r.status }, .refused 4)

/-- A message request packet (R173, R206, R207, R217 to R227). -/
def Chip.takeMessage (c : Chip) (h k : Nat) (x : Chan) (p : Packet) : Chip × Verdict :=
  match x.msg? p.msgid with
  | some r =>
    if r.abandoned then (c, .ok)
    else if c.messageRefused h p then c.refuseLater k r
    else match r.buffer with
      | some e => c.takeIntoBuffer h k p r e
      | none => if r.stored then c.storePacket h k p r else (c, .refused (if r.status = 0 then 4 else r.status))
  | none =>
    if c.messageRefused h p then ((c.putMsg k { newMsg p with status := 4 }).resolveMsg k p.msgid, .refused 4)
    else if p.opcode = 1 then c.firstSend h k p
    else c.firstTagged h k x p

/-- The place of a WRITE packet: the key's, or none for the close of an offer (R172, R228, R290). -/
def Chip.writeCheck (c : Chip) (h : Nat) (p : Packet) : KeyCheck :=
  c.remoteCheck h p.src.toNat p.key .write (p.offset + 4096 * p.pidx) p.payload.length

/-- A close arrives: the open offer of its key, if the packet is a close of it (R228, R229 step 6). -/
def Chip.closeOf (c : Chip) (h : Nat) (p : Packet) : Option SOffer :=
  match c.offer? p.key with
  | none => none
  | some o =>
    if p.opcode = 0x10 ∧ p.payload = [] ∧ p.pcnt = 1 ∧ o.dest = p.src.toNat ∧ chHost o.chan = h ∧ o.offset ≤ p.offset ∧
        p.offset ≤ o.offset + o.length then some o else none

/-- A WRITE or WRITE-WITH-NOTIFY packet (R172, R173). -/
def Chip.takeWrite (c : Chip) (h k : Nat) (x : Chan) (p : Packet) : Chip × Verdict :=
  let r? := x.msg? p.msgid
  if (r?.elim false (·.abandoned)) then (c, .ok)
  else if isOfferIndex (keyIndex p.key) then
    match c.closeOf h p with
    | none => ((c.putMsg k (r?.getD { newMsg p with dqn := 0 })).resolveMsg k p.msgid, .refused 3)
    | some o =>
      let taken := p.offset - o.offset
      (((c.putMsg k { newMsg p with dqn := 0 }).resolveMsg k p.msgid).endOffer o.index (if taken < o.length then 0x10 else 0) taken, .ok)
  else
    let new : RxMsg := { newMsg p with dqn := if p.opcode = 0x11 then p.notifyQn else 0 }
    match c.place (c.writeCheck h p) p.payload 3 with
    | (c, some s) => ((c.putMsg k { r?.getD { new with dqn := p.notifyQn } with status := s }).resolveMsg k p.msgid, .refused s)
    | (placed, none) =>
      if p.opcode = 0x11 ∧ (r?.bind (·.buffer)).isNone then
        match placed.takeRecv h p.notifyQn with
        | none => (c, .busy)
        | some (c, e) => ((c.putMsg k { r?.getD new with buffer := some e, dqn := p.notifyQn }).resolveMsg k p.msgid, .ok)
      else match r? with
        | some _ => (placed, .ok)
        | none => ((placed.putMsg k new).resolveMsg k p.msgid, .ok)

/-- The place of a READ: an offer's view, or the key's (R228, R290). -/
def Chip.readCheck (c : Chip) (h : Nat) (p : Packet) : KeyCheck :=
  if isOfferIndex (keyIndex p.key) then
    match c.offer? p.key with
    | none => .refused 3
    | some o =>
      if o.dest ≠ p.src.toNat ∨ chHost o.chan ≠ h ∨ p.offset < o.offset ∨ o.offset + o.length < p.offset + p.readLen then .refused 3
      else match c.keyTarget? o.lkey with
        | some (.region i r) => if r.length < p.offset + p.readLen then .refused 3 else .host r.fn i p.offset
        | some (.exported _ base len _) => if len < p.offset + p.readLen then .refused 3 else .fabric (base + p.offset)
        | none => .refused 3
  else if p.spec && c.keySidefx p.key then
    match c.remoteCheck h p.src.toNat p.key .read p.offset p.readLen with
    | .refused s => .refused s
    | _ => .refused 3
  else c.remoteCheck h p.src.toNat p.key .read p.offset p.readLen

/-- The chip issues a host memory read or AtomicOp for a request, at an offset of a region; its end is HOST_MEMORY_READ_COMPLETION. A
translation that the host refuses fails it with 0x03 (R292). -/
def Chip.hostAccess (c : Chip) (h fn i off n : Nat) (p : Packet) : Chip × Verdict :=
  match Tab.get? c.mem.regions i with
  | none => (c, .refused 3)
  | some g =>
    let segs := g.run off n
    match c.translate fn segs with
    | (c, none) => (c, .refused 3)
    | (c, some bus) =>
      let id := c.tr.nextRead
      let r : HostRead :=
        { id := id, host := h, pkt := p, fn := fn, wide := p.opcode == 0x33, region := i, pages := (cut4k segs).map fun s => pageOf s.1 }
      let c := { c with tr := { c.tr with nextRead := id + 1, hostReads := c.tr.hostReads ++ [r] } }
      (if p.opcode = 0x20 then c.emit (.hostRead h fn id bus)
       else c.emit (.hostAtomic h fn id ((bus.head?.map (·.1)).getD 0) p.opcode p.payload), .ok)

/-- Execute a READ: its answer, or the host read that will give it (R184, R281, R290, R294). -/
def Chip.execRead (c : Chip) (h : Nat) (p : Packet) : Chip × Verdict :=
  match c.readCheck h p with
  | .refused s => (c, .refused s)
  | .fabric o =>
    if c.mem.poisoned o p.readLen then (c.poisonRead o 7, .refused 4)
    else (c.answerData h p (c.mem.read o p.readLen), .ok)
  | .host fn i off => c.hostAccess h fn i off p.readLen p

/-- The new value of an atomic's target and the operand width in bytes (R92). -/
def atomicNew (opcode : Nat) (prior : Nat) (l : List Byte) : Nat :=
  match opcode with
  | 0x30 => (prior + natLE l) % 2 ^ 64
  | 0x31 => natLE l
  | 0x32 => if prior = natLE (l.take 8) then natLE (l.drop 8) else prior
  | _ => if prior = natLE (l.take 16) then natLE (l.drop 16) else prior

/-- Atomic response blocks in use (R193). -/
def Chip.atomicBlocks (c : Chip) : Nat := (c.tr.chans.filter fun r => r.2.atomicBlock).length

/-- Keep the newest entries of the response cache that fit 16; a COMPARE-SWAP 16 takes two (R185). -/
def keepAtomics : Nat → List AtomicRec → List AtomicRec
  | _, [] => []
  | room, a :: l => let n := if a.wide then 2 else 1; if room < n then [] else a :: keepAtomics (room - n) l

/-- An atomic has executed with a prior value: it is cached, and answered (R185). -/
def Chip.atomicDone (c : Chip) (h k fn : Nat) (p : Packet) (prior : BitVec 128) : Chip :=
  let wide := p.opcode == 0x33
  let c := c.updChan k fun (x : Chan) =>
    { x with
      atomicBlock := true
      atomics := keepAtomics 16 (({ psn := p.psn, prior := prior, wide := wide, since := c.now, fn := fn } : AtomicRec) :: x.atomics) }
  c.answerAtomic h p wide prior

/-- The bytes an atomic acts on. -/
def atomicBytes (opcode : Nat) : Nat := if opcode = 0x33 then 16 else 8

/-- An atomic (R92, R175, R185, R186). -/
def Chip.takeAtomic (c : Chip) (h k : Nat) (x : Chan) (p : Packet) : Chip × Verdict :=
  let n := atomicBytes p.opcode
  if p.offset % n ≠ 0 then (c, .refused 4)
  else if isOfferIndex (keyIndex p.key) then (c, .refused 3)
  else match c.remoteCheck h p.src.toNat p.key .atomic p.offset n with
    | .refused s => (c, .refused s)
    | .fabric o =>
      if !x.atomicBlock && 4096 ≤ c.atomicBlocks then (c, .busy)
      else if c.mem.poisoned o n then (c.poisonRead o 7, .refused 4)
      else
        let prior := natLE (c.mem.read o n)
        ((c.hbmWrite o (bytesLE n (atomicNew p.opcode prior p.payload))).atomicDone h k 1024 p (BitVec.ofNat 128 prior), .ok)
    | .host fn i off =>
      if !x.atomicBlock && 4096 ≤ c.atomicBlocks then (c, .busy)
      else if !(c.fn fn).atomicRequester then (c, .refused 4)
      else match c.hostAccess h fn i off n p with
        | (c, .ok) => (c.updChan k fun x => { x with atomicBlock := true }, .ok)
        | r => r

/-- A COUNT (R240): its counter must be owned at this host port and have REMOTE. Both are tested when the COUNT arrives and not
again when its turn comes to be applied (DESIGN CHOICE: R240 does not say at which of the two). -/
def Chip.takeCount (c : Chip) (h : Nat) (p : Packet) : Verdict :=
  match c.tctr? p.counter with
  | some t => if t.owner / 256 = h ∧ t.remote then .ok else .refused 3
  | none => .refused 3

/-- The record of a message that has nothing to match, and Q passes it. -/
def Chip.plainMsg (c : Chip) (k : Nat) (p : Packet) (status : Nat) : Chip :=
  (c.putMsg k { newMsg p with dqn := 0, status := status, bits := BitVec.ofNat 64 p.counter, imm := BitVec.ofNat 32 p.inc
                              mctx := p.inc }).resolveMsg k p.msgid

/-- Dispatch a packet in the window, not a duplicate, to its kind. -/
def Chip.judge (c : Chip) (h k : Nat) (x : Chan) (p : Packet) : Chip × Verdict :=
  let fresh := (x.msg? p.msgid).isNone
  if fresh && 2 ^ 31 ≤ (p.msgid - x.nextDone).toNat then (c, .ok)
  else if (c.ownersOf h p).any c.goneFn then
    (if fresh then (c.putMsg k { newMsg p with dqn := 0, status := 0x11 }).resolveMsg k p.msgid else c, .refused 0x11)
  else if fresh && c.orderFull x p.msgid then (c, .busy)
  else match p.kind.toNat with
    | 0x01 => c.takeMessage h k x p
    | 0x02 => c.takeWrite h k x p
    | 0x03 => let (c', v) := c.execRead h p; (c'.plainMsg k p 0, v)
    | 0x04 => let (c', v) := c.takeAtomic h k x p; if v = .busy then (c, v) else (c'.plainMsg k p 0, v)
    | _ =>
      if p.opcode = 0x41 then
        match x.msg? p.msgid with
        | some r => (c.abandonMsg k r, .ok)
        | none => ((c.putMsg k { newMsg p with dqn := 0, abandoned := true, ended := true }).resolveMsg k p.msgid, .ok)
      else
        let v := c.takeCount h p
        (c.plainMsg k p (if v = .ok then 0 else 3), v)

/-! ### Completion in MSGID order (R187, R188) -/

/-- Bytes placed of a message: its packets received, up to the buffer (R151). -/
def RxMsg.placed (r : RxMsg) : Nat :=
  let n := r.got.foldl (fun n i => n + if i + 1 = r.pcnt then r.lastLen else 4096) 0
  match r.buffer with
  | some e => if r.opcode = 0x11 then n else min n e.length
  | none => n

/-- The completion or notification of a message whose turn has come (R151, R152, R188, R240). -/
def Chip.deliverMsg (c : Chip) (k : Nat) (r : RxMsg) : Chip :=
  let h := chHost k
  if r.opcode = 0x40 then if r.status = 0 && !r.abandoned then c.trigAdd (r.bits.toNat % 65536) r.mctx else c
  else match r.buffer with
    | none => c
    | some e =>
      if r.quiet then c
      else if r.opcode = 2 then
        c.completeRecv h r.dqn (some r.mctx) r.status (taggedCompletion e r.solicit r.placed (BitVec.ofNat 32 r.src) r.bits)
      else
        let notify := r.opcode == 0x11
        let free := c.freeNow
        let c := if notify then c.drawn else c
        c.completeRecv h r.dqn none r.status
          { wrid := e.wrid, opcode := 0xE0, solicited := r.solicit, immv := notify, length := BitVec.ofNat 32 r.placed
            peer := if notify then BitVec.ofNat 32 (chRemote k * 2 ^ 15 + free % 2 ^ 15) else BitVec.ofNat 32 r.src
            result := if notify then mkWord [(r.imm.toNat, 32)] else 0 }

/-- Deliver the ended messages at the head of a channel, in MSGID order. -/
def Chip.deliverMsgs (c : Chip) (k : Nat) : Nat → Chip
  | 0 => c
  | fuel + 1 =>
    match c.chan? k with
    | none => c
    | some x =>
      match x.msg? x.nextDone with
      | none => c
      | some r =>
        if r.ended then
          ((c.putChan k { x with msgs := eraseFirst (fun a => a.msgid == r.msgid) x.msgs, nextDone := x.nextDone + 1 }).deliverMsg k r).deliverMsgs k fuel
        else c

/-! ### The window (R162, R183) -/

/-- Move the base past every PSN received; fuel at least the window. -/
def Chan.slide (x : Chan) : Nat → Chan
  | 0 => x
  | fuel + 1 => if x.bitmap.getLsbD 0 then Chan.slide { x with base := x.base + 1, bitmap := x.bitmap >>> 1 } fuel else x

/-- A PSN of the window has been received. -/
def Chan.received (x : Chan) (psn : BitVec 24) : Chan :=
  Chan.slide { x with bitmap := x.bitmap ||| (1 <<< (psn - x.base).toNat) } 1024

/-- Count a request packet accepted for a function (R449 kinds 5 and 6). -/
def Chip.countAccepted (c : Chip) (owners : List Nat) (n : Nat) : Chip :=
  match owners with
  | [] => c
  | f :: _ => (c.bumpFn 5 f).bumpFn 6 f n

/-- A packet of a message is recorded; with its last one the message ends (R187). -/
def RxMsg.gotPacket (r : RxMsg) (p : Packet) : RxMsg :=
  let got := if r.got.contains p.pidx then r.got else insertNat p.pidx r.got
  { r with
    got := got, lastLen := if p.last then p.payload.length else r.lastLen
    ended := r.ended || got.length == r.pcnt }

/-- Every packet of a copied message has been received (R227). -/
def Chip.wholeCopies (c : Chip) (k : Nat) (m : BitVec 32) : Chip :=
  c.updCopies k m fun y => { y with whole := true }

/-- A packet in the window, not a duplicate: verdict, record, answer, completions, acknowledgement (R176, R177, R187). -/
def Chip.acceptPacket (c : Chip) (h k : Nat) (x : Chan) (p : Packet) : Chip :=
  let owners := c.ownersOf h p
  let (c', v) := c.judge h k x p
  if v = .busy then
    let c := c.answerBusy h p
    if p.retx then c.ackNow k else c
  else
    let good := v = .ok || v = .short
    let first := x.unacked.isEmpty
    let was := ((c'.chan? k).bind fun x => x.msg? p.msgid).elim true (·.ended)
    let c := c'.updChan k fun x =>
      let x := x.received p.psn
      if good then
        { x with unacked := x.unacked ++ [p.psn], ackSince := if first then c'.now else x.ackSince, ackEcn := x.ackEcn || p.ecn }
      else x
    let c := match v with
      | .refused s => c.answerError h p s
      | .short => c.answerError h p 0x10
      | _ => c
    let c := if good then c.countAccepted owners p.payload.length else c
    let c := c.updMsg k p.msgid fun r => if r.abandoned then r else r.gotPacket p
    let done := !was && (((c.chan? k).bind fun x => x.msg? p.msgid).elim false (·.ended)) || p.opcode == 0x41
    let c := if done then c.wholeCopies k p.msgid else c
    let c := c.deliverMsgs k ((c.chan? k).elim 0 fun x => x.msgs.length)
    let due := p.retx || done || (c.chan? k).elim false fun x => c.param 0x21 0x036 0 ≤ x.unacked.length
    if due then c.ackNow k else c

/-- ORD packets whose turn has come are accepted in PSN order (R174). -/
def Chip.unparkOrd (c : Chip) (h k : Nat) : Nat → Chip
  | 0 => c
  | fuel + 1 =>
    match c.chan? k with
    | none => c
    | some x =>
      match x.ordWaiting.find? fun p => p.psn == x.base with
      | none => c
      | some p =>
        let x := { x with ordWaiting := eraseFirst (fun q => q.psn == p.psn) x.ordWaiting }
        ((c.putChan k x).acceptPacket h k x p).unparkOrd h k fuel

/-- A duplicate request: acknowledged again; a READ executes again, an atomic is answered from the cache (R183 to R185). -/
def Chip.duplicate (c : Chip) (h k : Nat) (p : Packet) : Chip :=
  let c := (c.updChan k fun x => { x with ackEcn := x.ackEcn || p.ecn }).ackNow k
  if p.kind.toNat = 3 then
    if (c.ownersOf h p).any c.goneFn then c.answerError h p 0x11
    else match c.execRead h p with
      | (c, .refused s) => c.answerError h p s
      | (c, _) => c
  else if p.kind.toNat = 4 then
    if c.tr.hostReads.any fun r => r.host == h && r.pkt.src == p.src && r.pkt.tc == p.tc && r.pkt.psn == p.psn then c
    else match (c.chan? k).bind fun x => x.atomics.find? fun a => a.psn == p.psn with
      | some a => c.answerAtomic h p a.wide a.prior
      | none => c.answerError h p 4
  else c

/-! ### SYNC (R165, R221) -/

/-- A SYNC with PSN p and MSGID m: what is incomplete completes with 0x05, and the half starts again after it. -/
def Chip.takeSync (c : Chip) (k : Nat) (x : Chan) (p : Packet) : Chip :=
  let c := x.msgs.foldl (fun c r =>
    if r.ended then c.deliverMsg k r
    else
      let copied := c.mt.copies.any fun y => y.chan == k && y.msg.msgid == r.msgid && y.whole
      c.deliverMsg k { r with status := 5, quiet := copied || r.quiet && r.buffer.isNone }) c
  let c := c.syncMortise k p.msgid
  let c := c.updChan k fun x =>
    { x with
      msgs := [], bitmap := 0, base := p.psn + 1, nextDone := p.msgid + 1, synced := true, recvOpen := true
      syncAt := some (p.psn, p.msgid)
      ordWaiting := [], unacked := [], ackEcn := x.ackEcn || p.ecn }
  c.ackNow k

/-! ### Parking (R196) -/

/-- Cells that the context miss buffer holds. -/
def Chip.parkedCells (c : Chip) : Nat :=
  c.tr.parked.foldl (fun n r => n + r.2.2.len.toNat) 0 +
  c.tr.chans.foldl (fun n r => r.2.ordWaiting.foldl (fun n p => n + p.len.toNat) n) 0

/-- A packet parks for a context, or finds a limit and gets a BUSY NAK. -/
def Chip.park (c : Chip) (h : Nat) (ctx : CtxKey) (p : Packet) : Chip :=
  if 65536 < c.parkedCells + p.len.toNat || 64 ≤ (c.tr.parked.filter fun r => r.1 == ctx).length then c.answerBusy h p
  else ({ c with tr := { c.tr with parked := c.tr.parked ++ [(ctx, h, p)] } }).beginFetch ctx

/-! ### Arrival (R77, R99, R163, R166, R183) -/

/-- The channel key of an arriving request. -/
def reqKey (h : Nat) (p : Packet) : Nat := chKey h p.src.toNat ((p.tc.toNat - 2) / 2)

/-- The contexts of a queue that a request needs: the queue's and its CQ's (R196). -/
def Chip.queueNeeds (c : Chip) (h qn : Nat) : List CtxKey :=
  match c.queue? h qn with
  | none => []
  | some q => .queue h qn :: if (c.queue? h q.cqn).isSome then [.queue h q.cqn] else []

/-- The contexts that an arriving request needs, in the order in which they are looked up (R196, R210, R291). -/
def Chip.needs (c : Chip) (h k : Nat) (p : Packet) : List CtxKey :=
  .channel k ::
  match p.kind.toNat with
  | 0x01 => c.queueNeeds h p.dqn ++ if p.opcode = 1 then [] else [.descriptor (ctxKey h p.mctx)]
  | 0x02 => (if p.opcode = 0x11 then c.queueNeeds h p.notifyQn else []) ++ [.translation (keyIndex p.key)]
  | 0x05 => []
  | _ => [.translation (keyIndex p.key)]

/-- A context is missing: a channel's or a queue's where it is not resident; a descriptor or translation where the command says so
or earlier packets wait for it. -/
def Chip.isMissing (c : Chip) (miss : Option CtxKey) (ctx : CtxKey) : Bool :=
  match ctx with
  | .channel _ | .queue _ _ => !c.tr.resident.contains ctx
  | _ => miss == some ctx || c.tr.parked.any fun r => r.1 == ctx

/-- The context that an arriving request misses first, if any. -/
def Chip.missed? (c : Chip) (h k : Nat) (p : Packet) (miss : Option CtxKey) : Option CtxKey :=
  (c.needs h k p).find? (c.isMissing miss)

/-- The channel and queue contexts that a request uses. -/
def Chip.useContexts (c : Chip) (h k : Nat) (p : Packet) : Chip :=
  ((c.needs h k p).filter fun ctx => c.tr.resident.contains ctx).foldl (fun c ctx => c.touch ctx) c

/-- A SYNC: a NOP with SOLICIT, well formed (R164). -/
def isSync (p : Packet) : Bool := p.opcode == 0x41 && p.solicit && !p.malformed

/-- A malformed request: ERROR 0x04; its PSN, if it lies in the window, is acknowledged by it (R99, R176). -/
def Chip.takeMalformed (c : Chip) (h k : Nat) (x : Chan) (p : Packet) : Chip :=
  let d := (p.psn - x.base).toNat
  let c := c.answerError h p 4
  if d < 1024 && !x.bitmap.getLsbD d then
    let fresh := (x.msg? p.msgid).isNone && (p.msgid - x.nextDone).toNat < 2 ^ 31
    let c := if fresh then (c.putMsg k { newMsg p with dqn := 0 }).resolveMsg k p.msgid else c
    let c := (c.updChan k fun x => x.received p.psn).updMsg k p.msgid
      fun r => { r with ended := true, abandoned := true, status := if r.status = 0 then 4 else r.status }
    let c := c.deliverMsgs k ((c.chan? k).elim 0 fun x => x.msgs.length)
    let c := if p.retx || ((c.chan? k).bind fun x => x.msg? p.msgid).isNone then c.ackNow k else c
    c.unparkOrd h k (x.ordWaiting.length + 1)
  else if p.retx then c.ackNow k
  else c

/-- A request packet at its resident channel (R166, R174, R183). -/
def Chip.takeResident (c : Chip) (h k : Nat) (p : Packet) : Chip :=
  match c.chan? k with
  | none => c
  | some x =>
    let d := (p.psn - x.base).toNat
    if isSync p then
      if x.synced && x.syncAt == some (p.psn, p.msgid) then c.duplicate h k p
      else c.takeSync k x p
    else if !x.synced then c.bump 0xA3 .noChannel
    else if p.malformed then c.takeMalformed h k x p
    else if 2 ^ 23 ≤ d then c.duplicate h k p
    else if 1024 ≤ d then c.bump 0xA3 .aheadOfWindow
    else if x.bitmap.getLsbD d then c.duplicate h k p
    else if p.ord && d ≠ 0 then
      let c := if x.ordWaiting.any fun q => q.psn == p.psn then c
        else if 64 ≤ x.ordWaiting.length || 65536 < c.parkedCells + p.len.toNat then c.answerBusy h p
        else c.putChan k { x with ordWaiting := x.ordWaiting ++ [p] }
      if p.retx then c.ackNow k else c
    else (c.acceptPacket h k x p).unparkOrd h k (x.ordWaiting.length + 1)

/-- A transport packet that the router core delivered is taken off its port. -/
def Chip.taken (c : Chip) (p : Packet) : Chip := { c with tr := { c.tr with arrivals := c.tr.arrivals.erase p } }

/-- A request whose contexts are all present is handled at its channel. The matches of a context take effect in order: TAGGED
RECVs of the context that wait on a read take effect before a tagged message does (R209, R235). -/
def Chip.handleRequest (c : Chip) (h k : Nat) (p : Packet) : Chip :=
  let c := (c.useContexts h k p).updChan k fun x => { x with recvOpen := true }
  let c := if p.kind.toNat = 1 ∧ p.opcode ≠ 1 then c.matchReadDone (ctxKey h p.mctx) else c
  c.takeResident h k p

/-- An arriving request finds its contexts, or parks for the first that is missing (R163, R194, R196, R25). -/
def Chip.resolveRequest (c : Chip) (h : Nat) (p : Packet) (miss : Option CtxKey) : Chip :=
  let k := reqKey h p
  match c.chan? k with
  | none =>
    if !c.clusterUp 2 then c.bump 0xA3 .noChannel
    else if !c.hasWay (.channel k) then c.park h (.channel k) p
    else ((c.putChan k { Chan.init with recvOpen := true }).touch (.channel k)).takeResident h k p
  | some _ =>
    match c.missed? h k p miss with
    | some ctx => c.park h ctx p
    | none => c.handleRequest h k p

/-- An arriving request packet: end check, absent port, then its contexts (R99, R77, R318, R196). -/
def Chip.takeRequest (c : Chip) (h : Nat) (p : Packet) (miss : Option CtxKey) : Chip :=
  let c := c.taken p
  if !p.checkOk then c.bump 0xA3 .endpointBad
  else if !c.hostEnabled h then c.answerError h p 8
  else c.resolveRequest h p miss

/-- The packets parked for a context are handled in arrival order (R196); one that misses another context parks for that. -/
def Chip.unpark (c : Chip) (ctx : CtxKey) : Chip :=
  let mine := c.tr.parked.filter fun r => r.1 == ctx
  let c := { c with tr := { c.tr with parked := c.tr.parked.filter fun r => r.1 != ctx } }
  mine.foldl (fun c r => c.resolveRequest r.2.1 r.2.2 none) c

/-- The packets parked for a context are answered with BUSY NAK (R198). -/
def Chip.refuseParked (c : Chip) (ctx : CtxKey) : Chip :=
  let mine := c.tr.parked.filter fun r => r.1 == ctx
  let c := { c with tr := { c.tr with parked := c.tr.parked.filter fun r => r.1 != ctx } }
  mine.foldl (fun c r => c.answerBusy r.2.1 r.2.2) c

/-- A queue's context cannot be had: an SQ, RQ or SRQ goes to error with cause 2, a CQ or EQ with cause 4 (R133, R158, R198). -/
def Chip.contextLost (c : Chip) (h qn : Nat) : Chip :=
  match c.queue? h qn with
  | none => c
  | some q =>
    match q.kind with
    | .cq => c.cqError h qn 4
    | .eq => c.eqError h qn 4
    | _ => c.queueError h qn 2 0

/-- A context fetch has returned, perhaps poisoned (R195, R196, R281). -/
def Chip.contextFetched (c : Chip) (ctx : CtxKey) (poisoned : Bool) : Chip :=
  let c := c.endFetch ctx
  if !poisoned then c.unpark ctx
  else
    let c := match ctx with
      | .channel k => (c.poisonDevice 0).chanError k
      | .queue h qn => (c.poisonDevice 1).contextLost h qn
      | .descriptor n => c.matchLost n
      | .translation i => (c.poisonDevice 4).regionBad i
    c.unpark ctx

/-- A queue context fetch from host memory has not returned within 1 ms (R198): the context is neither resident nor in the victim
cache. -/
def Chip.contextTimeout (c : Chip) (h qn : Nat) : Chip :=
  let ctx : CtxKey := .queue h qn
  if c.tr.resident.contains ctx || c.tr.victims.contains ctx then c
  else
    let c := { c with tr := { c.tr with evicting := c.tr.evicting.filter fun e => e.1 != ctx } }
    (c.contextLost h qn).refuseParked ctx

/-- A host memory read or AtomicOp for a request has ended (R175, R292). -/
def Chip.hostReadEnded (c : Chip) (id : Nat) (res : HostResult) : Chip :=
  match c.tr.hostReads.find? fun r => r.id == id with
  | none => c
  | some r =>
    let c := { c with tr := { c.tr with hostReads := eraseFirst (fun a => a.id == id) c.tr.hostReads } }
    let p := r.pkt
    match res with
    | .data l =>
      if p.opcode = 0x20 then c.answerData r.host p l
      else c.atomicDone r.host (reqKey r.host p) r.fn p (BitVec.ofNat 128 (natLE l))
    | .poisoned => c.answerError r.host p 4
    | _ => c.answerError r.host p 3

end Sys2Proof.Machine
end

