-- ==== Sys2Proof/Machine/ReqOps.lean ====
section
/-! DEFINITION. The send halves of peer channels: arriving responses and the timers (R164, R167, R176 to R180, R187,
R192, R197, R198). -/

namespace Sys2Proof.Machine

/-! ### Arriving responses (R77, R93, R99) -/

/-- A response that breaks R93 whatever its request was (R99 step 4). -/
def responseBad (p : Packet) : Bool :=
  !kindAllows p.kind.toNat p.opcode ||
  (match p.opcode with
    | 0x80 => p.payload.length != 4
    | 0x81 => p.payload.length != 0
    | 0x82 => p.payload.length != 0 || !([3, 4, 8, 0x0B, 0x10, 0x11].contains p.status)
    | 0x84 => p.payload.length != 8 && p.payload.length != 16
    | _ => 4096 < p.payload.length)

/-- The channel whose request a response answers: one class below it (R88). -/
def respKey (h : Nat) (p : Packet) : Nat := chKey h p.src.toNat ((p.tc.toNat - 3) / 2)

/-- Count a discarded response. -/
def Chip.badResponse (c : Chip) : Chip := c.bump 0xA3 .badResponse

/-- The unretired request packet that a response refers to. -/
def Chan.out? (x : Chan) (psn : BitVec 24) : Option OutPkt := x.outstanding.find? fun o => o.psn == psn

/-- Update an unretired packet. -/
def Chip.updOut (c : Chip) (k : Nat) (psn : BitVec 24) (f : OutPkt → OutPkt) : Chip :=
  c.updChan k fun x => { x with outstanding := mapIf (fun o => o.psn == psn) f x.outstanding }

/-- Decide the status of the operation of a MSGID, if it has none yet (R176). -/
def Chip.decideOp (c : Chip) (k : Nat) (m : BitVec 32) (status : Nat) : Chip :=
  c.updChan k fun x =>
    { x with ops := mapIf (fun o => o.started && o.msgid == m && o.status.isNone) (fun o => { o with status := some status }) x.ops }

/-- Update the operation of a MSGID. -/
def Chip.updOp (c : Chip) (k : Nat) (m : BitVec 32) (f : SendOp → SendOp) : Chip :=
  c.updChan k fun x => { x with ops := mapIf (fun o => o.started && o.msgid == m) f x.ops }

/-- The operation of a MSGID. -/
def Chan.op? (x : Chan) (m : BitVec 32) : Option SendOp := x.ops.find? fun o => o.started && o.msgid == m

/-- What every valid response does: the suspect mark clears, ECNE and ECN close the window (R169, R192). -/
def Chip.hearResponse (c : Chip) (p : Packet) : Chip :=
  let c := c.heardFrom p.srcChip
  if p.ecne || (p.opcode == 0x83 && p.ecn) then c.ecnFrom p.srcChip else c

/-- An arriving response, up to the work of its kind. -/
def Chip.takeResponse (c : Chip) (h : Nat) (p : Packet) (f : Chip → Nat → Chan → Chip) : Chip :=
  let c := c.taken p
  if !p.checkOk then c.bump 0xA3 .endpointBad
  else if !c.hostEnabled h then c.badResponse
  else if responseBad p then c.badResponse
  else
    let c := c.hearResponse p
    let k := respKey h p
    match c.chan? k with
    | none => c
    | some x => if x.sendState == .syncing || x.sendState == .active then f c k x else c

/-- The PSNs an ACK names: below RPSN, or marked in SMAP (R179). -/
def ackNames (x : Chan) (p : Packet) (o : OutPkt) : Bool :=
  !o.needsResp &&
  ((o.psn - x.lowest).toNat < (p.rpsn - x.lowest).toNat ||
    (let d := (o.psn - p.sbase).toNat; d < 128 && p.smap.testBit d))

/-- ACK (R164, R179). -/
def Chip.takeAck (c : Chip) (h : Nat) (p : Packet) : Chip :=
  c.takeResponse h p fun c k x =>
    if x.sendState == .syncing then
      if !x.syncDue && p.rpsn == x.syncPsn + 1 then
        let c := c.retire k (fun o => o.psn == x.syncPsn) p.ecne
        ((c.updChan k fun x => { x with sendState := .active }).runChan k).advanceChan k
      else c
    else if (x.nextPsn - x.lowest).toNat < (p.rpsn - x.lowest).toNat then c
    else (c.retire k (ackNames x p) p.ecne).advanceChan k

/-- BUSY NAK (R197, R220): the packet waits 4 µs; beyond the limit its message completes with 0x06 and a NOP follows. -/
def Chip.takeBusy (c : Chip) (h : Nat) (p : Packet) : Chip :=
  c.takeResponse h p fun c k x =>
    match x.out? p.rpsn with
    | none => c
    | some o =>
      if o.dead then c
      else if o.busy + 1 ≤ c.param 0x21 0x033 0 ∨ x.sendState = .syncing then
        c.updOut k p.rpsn fun o => { o with busy := o.busy + 1, deadline := none, resendAt := some (c.now + 4000) }
      else
        let chip := chRemote k / 4
        let c := c.updOut k p.rpsn fun o => { o with busy := o.busy + 1, deadline := none, resendAt := none, weight := 0 }
        match x.op? o.msgid with
        | none => c
        | some a =>
          if a.status = some 6 then c.advanceChan k
          else
            let c := c.raise 0xA3 0x101 4 chip (BitVec.ofNat 64 (peerDetail k))
            let (w0, w1, w2, w3) := requestWords 0x41 true false x.nextPsn 0 1 a.msgid 0 0 0
            let nop := newPacket (chTC k) 0x05 (chRemote k) (c.endpoint (chHost k)) false w0 w1 w2 w3 []
            let c := c.updChan k fun x => { x with nextPsn := x.nextPsn + 1 }
            let c := c.updOp k a.msgid fun b => { b with unsent := b.unsent ++ [nop], status := some (b.status.getD 6) }
            (c.runChan k).advanceChan k

/-- ERROR (R176): the packet is retired, and the first status decides the message. -/
def Chip.takeError (c : Chip) (h : Nat) (p : Packet) : Chip :=
  c.takeResponse h p fun c k x =>
    if x.sendState == .syncing then c
    else ((c.decideOp k p.msgid p.status).retire k (fun o => o.psn == p.rpsn) p.ecne).advanceChan k

/-- Place READ DATA of an operation (R172, R187): in the local destination, or in the bridge's operation. -/
def Chip.placeRead (c : Chip) (k : Nat) (o : SendOp) (p : Packet) : Chip :=
  if c.goneFn o.fn then c
  else match o.window with
    | some id =>
      { c with br := { c.br with ops := mapIf (fun b => b.num == id) (fun b => { b with data := Tab.put b.data p.pidx p.payload }) c.br.ops } }
    | none => match c.place (c.localCheck o.fn o.lkey (o.laddr + 4096 * p.pidx) p.payload.length true) p.payload 2 with
      | (c, some s) => c.decideOp k o.msgid s
      | (c, none) => c

/-- READ DATA (R93, R184, R187). A packet whose PCNT is not the request's packet count, or whose PIDX is not below it, is discarded
and counted like the responses of R99 step 4 (DESIGN CHOICE: step 4 does not name it). -/
def Chip.takeReadData (c : Chip) (h : Nat) (p : Packet) : Chip :=
  c.takeResponse h p fun c k x =>
    match x.out? p.rpsn with
    | none => c
    | some out =>
      match x.op? out.msgid with
      | none => c
      | some o =>
        if out.pkt.opcode ≠ 0x20 then c
        else if p.pcnt ≠ packetsOf o.length ∨ p.pcnt ≤ p.pidx ∨ p.payload.length ≠ payloadLen o.length p.pidx then c.badResponse
        else if o.got.contains p.pidx then c
        else
          let c := c.placeRead k o p
          let c := c.updOp k o.msgid fun b => { b with got := insertNat p.pidx b.got }
          if o.got.length + 1 = p.pcnt then
            ((c.decideOp k o.msgid 0).retire k (fun a => a.psn == p.rpsn) p.ecne).advanceChan k
          else c

/-- ATOMIC RESULT (R93, R187). -/
def Chip.takeAtomicResult (c : Chip) (h : Nat) (p : Packet) : Chip :=
  c.takeResponse h p fun c k x =>
    match x.out? p.rpsn with
    | none => c
    | some out =>
      let op := out.pkt.opcode
      if op < 0x30 ∨ 0x33 < op then c
      else if p.payload.length ≠ atomicBytes op then c.badResponse
      else
        let c := c.updOp k out.msgid fun b => { b with result := BitVec.ofNat 128 (natLE p.payload) }
        ((c.decideOp k out.msgid 0).retire k (fun a => a.psn == p.rpsn) p.ecne).advanceChan k

/-! ### Timers -/

/-- Send an unretired packet again with RETX, its next deadline after `k` doublings (R180, R197). -/
def Chip.sendAgain (c : Chip) (ch : Nat) (x : Chan) (o : OutPkt) (n : Nat) : Chip :=
  let c := c.updOut ch o.psn fun o => { o with k := n, deadline := some (c.now + c.timeout n), resendAt := none }
  if x.sendState = .active ∧ !c.hasRoute (chRemote ch) then c.noRoute ch fun a => a.msgid == o.msgid
  else c.sendRequest ch o.fn o.pkt.withRetx

/-- A retransmission deadline passes (R180); a channel that reaches its retry limit while CON is down goes to error when CON returns
(R25). -/
def Chip.retransmitTimeout (c : Chip) (ch : Nat) (psn : BitVec 24) : Chip :=
  match c.chan? ch with
  | none => c
  | some x =>
    match x.out? psn with
    | none => c
    | some o =>
      if o.deadline.elim true fun t => c.now < t then c
      else if o.k + 1 ≤ c.param 0x21 0x032 0 then c.sendAgain ch x o (o.k + 1)
      else if c.clusterUp 2 then c.chanError ch
      else c.updChan ch fun x => { x with limitHit := true }

/-- The resend after a BUSY NAK (R197). -/
def Chip.busyResend (c : Chip) (ch : Nat) (psn : BitVec 24) : Chip :=
  match c.chan? ch with
  | none => c
  | some x =>
    match x.out? psn with
    | none => c
    | some o => if o.resendAt.elim true fun t => c.now < t then c else c.sendAgain ch x o o.k

/-- P21.037 has passed since the oldest packet not acknowledged (R177). -/
def Chip.ackDelay (c : Chip) (ch : Nat) : Chip :=
  match c.chan? ch with
  | none => c
  | some x => if x.unacked.isEmpty || c.now < x.ackSince + c.param 0x21 0x037 0 then c else c.ackNow ch

/-- A packet age limit after the entry to Error, a waiting operation makes the channel synchronise (R167, R168). -/
def Chip.errorExpiry (c : Chip) (ch : Nat) : Chip :=
  match c.chan? ch with
  | none => c
  | some x => if x.sendState == .error && x.errorAt + c.ageLimit ≤ c.now && !x.ops.isEmpty then c.startSync ch else c

/-- An atomic response block goes back when its newest entry is older than T_R plus the packet age limit (R185). -/
def Chip.atomicBlockReturn (c : Chip) (ch : Nat) : Chip :=
  match c.chan? ch with
  | none => c
  | some x =>
    let busy := c.tr.hostReads.any fun r => r.pkt.kind == 4 && reqKey r.host r.pkt == ch
    let old := match x.atomics.head? with
      | some a => a.since + 1000 * c.retransmitTime + c.ageLimit < c.now
      | none => true
    if x.atomicBlock && old && !busy then c.putChan ch { x with atomicBlock := false, atomics := [] } else c

/-- CON returns: channels that reached their retry limit meanwhile go to Error, whatever has arrived since (R25). -/
def Chip.conReturns (c : Chip) : Chip :=
  (c.tr.chans.filter fun r => r.2.limitHit && (r.2.sendState == .active || r.2.sendState == .syncing)).foldl
    (fun c r => c.chanError r.1) c

end Sys2Proof.Machine
end

