-- ==== Sys2Proof/Machine/WorkOps.lean ====
section
/-! DEFINITION. Work entries: how each one of an SQ, RQ or SRQ is consumed and started, held entries and the commands of
trigger counters (R139 to R150, R170, R171, R208, R222, R223, R228, R236 to R245). -/

namespace Sys2Proof.Machine

/-! ### The source of an entry (R141, R290, R292) -/

/-- The data of an entry's source buffer, or the status of its failure; none where the bytes that the host port is said
to have read are not the entry's length. No byte, no use of the key. -/
def Chip.sourceOf (c : Chip) (fn : Nat) (e : Entry) (data : SourceData) : Chip × Option (Nat ⊕ List Byte) :=
  if e.isInline then (c, some (.inr e.inlineData))
  else if e.length = 0 then (c, some (.inr []))
  else c.bytesAt (c.localCheck fn e.lkey e.laddr e.length false) e.length data

/-- A TAGGED SEND goes as an offer (R223). -/
def Chip.offered (c : Chip) (e : Entry) : Bool := e.opcode == 2 && !e.isInline && c.param 0x22 0x001 0 < e.length

/-- The free offer key of lowest index. -/
def Chip.freeOffer (c : Chip) : Nat :=
  ((List.range (c.mt.sOffers.length + 1)).find? fun i => !(c.mt.sOffers.any fun o => o.index == i)).getD 0

/-- The entry can be consumed now: its channel exists or can be created, its contexts find a way in the cache, the transaction
table has a slot, and an offer finds a record and a key (R25, R170, R194, R232). -/
def Chip.canStart (c : Chip) (h qn : Nat) (e : Entry) : Bool :=
  c.chanReady (entryChan h e) && c.hasWay (.queue h qn) && c.slotsUsed < transactionSlots && (!c.offered e || c.offerRecords < 65536)

/-- The common part of an entry's operation. -/
def opOf (fn qn pos : Nat) (e : Entry) : SendOp :=
  { fn := fn, qn := qn, pos := pos, wrid := e.wrid, signal := e.signal, opcode := e.opcode, report := e.opcode, dest := e.dest
    length := e.length, solicit := e.solicit && e.opcode < 0x20 }

/-- SEND, TAGGED SEND below the threshold, WRITE and WRITE-WITH-NOTIFY (R141, R142). -/
def dataOp (q : Queue) (o : SendOp) (e : Entry) (l : List Byte) : SendOp :=
  let o := { o with lkey := e.lkey, laddr := e.laddr, sourced := !e.isInline }
  match e.opcode with
  | 0x01 => { o with data := l, lo := q.sproc * 2 ^ 13, lo2 := e.dqn }
  | 0x02 => { o with data := l, lo := e.mctx * 2 ^ 28 + q.sproc * 2 ^ 13, lo2 := e.dqn, w3 := e.matchBits }
  | 0x10 => { o with data := l, lo := e.roffset, lo2 := e.rkey.toNat }
  | _ => { o with data := l, lo := e.roffset, lo2 := e.rkey.toNat, w3 := mkWord [(e.imm.toNat, 32), (e.dqn, 0)] }

/-- Atomics, COUNT and NOP (R143, R92). -/
def controlOp (o : SendOp) (e : Entry) : SendOp :=
  match e.opcode with
  | 0x30 => { o with data := e.w3.le, lo := e.roffset, lo2 := e.akey.toNat, length := 8 }
  | 0x31 => { o with data := e.w3.le, lo := e.roffset, lo2 := e.akey.toNat, length := 8 }
  | 0x32 => { o with data := e.w3.le ++ e.w4.le, lo := e.roffset, lo2 := e.akey.toNat, length := 8 }
  | 0x33 => { o with data := e.w3.le ++ e.w4.le ++ e.w5.le ++ e.w6.le, lo := e.roffset, lo2 := e.akey.toNat, length := 16 }
  | 0x40 => { o with lo2 := e.rctr, w3 := mkWord [(e.inc, 0)], length := 0 }
  | _ => { o with length := 0 }

/-- The chunks of a READ (R171). -/
def Chip.readOps (c : Chip) (o : SendOp) (e : Entry) : List SendOp :=
  let chunk := c.param 0x21 0x035 0
  (readChunks chunk e.length (divUp e.length chunk) 0).map fun r =>
    { o with
      length := r.2, total := e.length, lo := e.roffset + r.1, lo2 := e.rkey.toNat, w3 := mkWord [(wireLength r.2, 32)], lkey := e.lkey
      laddr := e.laddr + r.1, lastChunk := r.1 + r.2 == e.length }

/-- An operation that does nothing on the fabric completes with success. -/
def Chip.succeed (c : Chip) (h : Nat) (o : SendOp) : Chip := c.finishOp (chKey h o.dest 0) { o with lastChunk := true } 0

/-- A TAGGED SEND as an offer: the record, the key, the OFFER message (R228, R229 step 1). -/
def Chip.startOffer (c : Chip) (h : Nat) (q : Queue) (o : SendOp) (e : Entry) (off : Nat) : Chip :=
  let k := entryChan h e
  let i := c.freeOffer
  let gen := Tab.get c.mt.offerGen i 0
  let r : SOffer :=
    { index := i, gen := BitVec.ofNat 8 gen, chan := k, dest := e.dest, fn := o.fn, qn := o.qn, wrid := e.wrid, signal := e.signal
      lkey := e.lkey, offset := off, length := e.length, pos := o.pos }
  let payload := bytesBE 4 ((0xFF0000 + i) * 256 + gen) ++ [0, 0] ++ bytesBE 6 off ++ bytesBE 4 (wireLength e.length)
  ({ c with mt := { c.mt with sOffers := c.mt.sOffers ++ [r] } }).enqueueOp k
    { o with opcode := 3, soffer := some i, length := 16, data := payload, lo := e.mctx * 2 ^ 28 + q.sproc * 2 ^ 13, lo2 := e.dqn
             w3 := e.matchBits }

/-- Start a consumed entry of the message, write, read, atomic and control groups. -/
def Chip.startEntry (c : Chip) (h qn pos : Nat) (q : Queue) (e : Entry) (data : SourceData) : Chip :=
  let k := entryChan h e
  let o := opOf q.fn qn pos e
  match c.preFail e.dest with
  | some s => c.failEntry h qn pos e s
  | none =>
    if e.opcode = 0x20 then
      if e.length = 0 then c.succeed h o
      else match c.localCheck q.fn e.lkey e.laddr e.length true with
        | .refused s => c.failEntry h qn pos e s
        | _ => c.enqueueOps k (c.readOps o e)
    else if 0x30 ≤ e.opcode then c.enqueueOp k (controlOp o e)
    else if c.offered e then
      match c.localCheck q.fn e.lkey e.laddr e.length false with
      | .refused s => c.failEntry h qn pos e s
      | .host _ _ off => c.startOffer h q o e off
      | .fabric _ => c.startOffer h q o e e.laddr
    else match c.sourceOf q.fn e data with
      | (c, some (.inr l)) => c.enqueueOp k (dataOp q o e l)
      | (c, some (.inl s)) => c.failEntry h qn pos e s
      | (c, none) => c

/-- The operand of a command gives the bytes that the entry needs. -/
def Chip.sourceGiven (c : Chip) (fn : Nat) (e : Entry) (data : SourceData) : Bool :=
  e.opcode == 0x20 || 0x30 ≤ e.opcode || c.offered e || (c.sourceOf fn e data).2.isSome

/-! ### Commands on SQ entries -/

/-- A native entry of an SQ with opcode `op`, not held and not malformed, is consumed and started (R134, R139). -/
def Chip.takeNative (c : Chip) (h qn op : Nat) (e : Entry) (data : SourceData) : Chip :=
  match c.takeable h qn e with
  | none => c
  | some (q, e) =>
    if e.opcode ≠ op ∨ e.held ∨ sqMalformed e ∨ !c.canStart h qn e ∨ !c.sourceGiven q.fn e data then c
    else (c.consume h qn q).startEntry h qn q.nextPos q e data

/-- The local address that an offset within the region of a Veneer queue's key names (R147). -/
def Chip.veneerAddr (c : Chip) (q : Queue) (off : Nat) : Nat :=
  match c.keyTarget? q.vlkey with
  | some (.region _ r) => r.va + off
  | _ => off

/-- A Veneer entry is malformed (R147, R149, R150). -/
def veneerMalformed (q : Queue) (v : VEntry) : Bool :=
  !v.own || veneerOpcode v.vop == 0 || 2147483648 < v.length || q.vclass == 3

/-- A Veneer entry is consumed: OWN is written 0 as one byte, then CI (R147). -/
def Chip.consumeVeneer (c : Chip) (h qn : Nat) (q : Queue) (v : VEntry) : Chip :=
  (c.emit (.dma h q.fn (slotAddr q.ring q.logSize 32 q.ci + 7) [BitVec.ofNat 8 v.vop] false)).consume h qn q

/-- The Veneer SQ that a command names with its next entry, if the device may consume it now: its cached copy, fetched with
OWN = 1, or what a fresh fetch from host memory gives (R149). -/
def Chip.veneerReady (c : Chip) (h qn : Nat) (v : VEntry) : Option (Queue × VEntry) :=
  match c.queue? h qn with
  | none => none
  | some q =>
    let v := ((q.cached.find? fun r => r.1 == q.ci).map fun r => asVeneer r.2).getD v
    if q.kind == .sq && q.veneer && c.fetches h qn q && q.unconsumed != 0 && (!v.vw0.getLsbD 55 || q.fenceOpen) then some (q, v)
    else none

/-- A Veneer entry with the native opcode `op` is consumed and started (R147). -/
def Chip.takeVeneer (c : Chip) (h qn op : Nat) (v : VEntry) (data : SourceData) : Chip :=
  match c.veneerReady h qn v with
  | none => c
  | some (q, v) =>
    if veneerMalformed q v ∨ veneerOpcode v.vop ≠ op then c
    else
      let e := v.native q.vclass q.vlkey (c.veneerAddr q v.loffset)
      if !c.canStart h qn e ∨ !c.sourceGiven q.fn e data then c
      else (c.consumeVeneer h qn q v).startEntry h qn q.nextPos q e data

/-! ### Receive entries (R144, R208, R215, R222, R233, R235) -/

/-- A receive entry is malformed (R144, R150). -/
def recvMalformed (e : Entry) : Bool := !(e.opcode == 0xE0 || e.opcode == 0xE1) || e.held || 2147483648 < e.length

/-- The RQ or SRQ that a command names with its next entry, if the device may consume it. -/
def Chip.recvReady (c : Chip) (h qn : Nat) (e : Entry) : Option (Queue × Entry) :=
  match c.queue? h qn with
  | none => none
  | some q =>
    if (q.kind == .rq || q.kind == .srq) && c.fetches h qn q && q.unconsumed != 0 then some (q, q.nextEntry e) else none

/-- A RECV entry is consumed: it waits for a message (R222). -/
def Chip.takeRecvEntry (c : Chip) (h qn : Nat) (e : Entry) : Chip :=
  match c.recvReady h qn e with
  | none => c
  | some (q, e) =>
    if e.opcode ≠ 0xE0 ∨ recvMalformed e then c
    else (c.consume h qn q).updQueue h qn fun q => { q with recvs := q.recvs ++ [e] }

/-- A TAGGED RECV entry is consumed; it waits where its match needs a read, or an earlier one of the context does (R235). -/
def Chip.takeTaggedRecv (c : Chip) (h qn : Nat) (e : Entry) (deferred : Bool) : Chip :=
  match c.recvReady h qn e with
  | none => c
  | some (q, e) =>
    let ctx := ctxKey h e.rMctx
    let waits := deferred || c.mt.waiting.any fun r => waitCtx r == ctx
    let full := 64 ≤ (c.mt.waiting.filter fun r => c.engineUnit (waitCtx r) == c.engineUnit ctx).length
    let bound := (c.mctx? ctx).elim false fun m => m.qn == qn
    if e.opcode ≠ 0xE1 ∨ recvMalformed e ∨ (bound && !c.postedRoom q.fn) ∨ (waits && full) then c
    else
      let c := c.consume h qn q
      if waits then { c with mt := { c.mt with waiting := c.mt.waiting ++ [(qKey h qn, e)] } } else c.engineRecv h qn e

/-- A malformed entry is consumed and completes with 0x0A (R150). -/
def Chip.takeMalformedEntry (c : Chip) (h qn : Nat) (e : Entry) : Chip :=
  match c.queue? h qn with
  | none => c
  | some q =>
    match q.kind with
    | .sq =>
      if q.veneer then
        match c.veneerReady h qn (asVeneer e) with
        | none => c
        | some (q, v) =>
          if !veneerMalformed q v then c
          else (c.consumeVeneer h qn q v).failEntry h qn q.nextPos (v.native q.vclass q.vlkey 0) 0x0A
      else match c.takeable h qn e with
        | none => c
        | some (q, e) => if !c.sqBad h q.fn e then c else (c.consume h qn q).failEntry h qn q.nextPos e 0x0A
    | .rq | .srq =>
      match c.recvReady h qn e with
      | none => c
      | some (q, e) =>
        if !recvMalformed e then c
        else (c.consume h qn q).completeRecv h qn none 0x0A (flushCompletion true e)
    | _ => c

/-! ### Held entries (R242 to R245) -/

/-- Entries that a function holds. -/
def Chip.heldOf (c : Chip) (fn : Nat) : List HeldEnt := c.tg.held.filter fun e => e.fn == fn

/-- The held area of a function has a free slot, and the chip-wide total is not reached (R242). -/
def Chip.heldRoom (c : Chip) (fn : Nat) : Bool :=
  c.param 0x23 0x002 fn != 0 && (c.heldOf fn).length < 2 ^ c.param 0x23 0x002 fn && c.tg.held.length < 4194304

/-- The free slot that a held entry takes: the one of lowest number (DESIGN CHOICE: R242 does not say which). -/
def Chip.freeSlot (c : Chip) (fn : Nat) : Nat :=
  let l := c.heldOf fn
  ((List.range (l.length + 1)).find? fun i => !(l.any fun e => e.slot == i)).getD 0

/-- The 64 bytes of an entry as host memory holds them. -/
def Entry.bytes64 (e : Entry) : List Byte := e.w0.le ++ e.w1.le ++ e.w2.le ++ e.w3.le ++ e.w4.le ++ e.w5.le ++ e.w6.le ++ e.w7.le

/-- A held entry is consumed into the held area; it takes no place among the entries that a FENCE waits for until its release.
Without the counter it completes with 0x02 at once, whatever earlier entries still run (R242, R243, R244). -/
def Chip.takeHeld (c : Chip) (h qn : Nat) (e : Entry) : Chip :=
  match c.takeable h qn e with
  | none => c
  | some (q, e) =>
    if !e.held ∨ c.sqBad h q.fn e then c
    else if (c.tctr? e.tctr).elim true fun t => t.owner != q.fn then
      ((c.consume h qn q).complete { h := h, fn := q.fn, qn := qn, cqn := q.cqn, recv := false, ctx := none, status := 2 }
        (flushCompletion false e)).closePos h qn q.nextPos
    else if !c.heldRoom q.fn then c
    else
      let slot := c.freeSlot q.fn
      let c := (c.consume h qn q).closePos h qn q.nextPos
      let c := c.emit (.dma h q.fn (c.param 0x23 0x001 q.fn + 64 * slot) (Entry.bytes64 e) false)
      let r : HeldEnt := { slot := slot, fn := q.fn, qn := qn, ctr := e.tctr, thresh := e.thresh, entry := e, pos := q.nextPos }
      ({ c with tg := { c.tg with held := c.tg.held ++ [r] } }).trigRelease e.tctr

/-- The FENCE of a released entry is open: of the entries consumed before it that were not held at its release, all have
completed (R244). Entries released after it, whose MSGIDs are later, do not hold it (DEDUCED: else each could wait for the
other). -/
def Queue.fenceOpenFor (q : Queue) (r : HeldEnt) : Bool := r.waits.all fun p => !q.openPos.contains p

/-- A released entry leaves the held area (R244). -/
def Chip.unhold (c : Chip) (r : HeldEnt) : Chip :=
  { c with tg := { c.tg with due := true, held := c.tg.held.filter fun e => !(e.fn == r.fn && e.slot == r.slot) } }

/-- The released entry of a slot that may be read back now: first of its counter, its SQ active, FENCE open (R243, R244). -/
def Chip.readable (c : Chip) (fn slot : Nat) : Option (HeldEnt × Queue) :=
  match c.tg.held.find? fun e => e.fn == fn && e.slot == slot with
  | none => none
  | some r =>
    let first := (c.tg.held.find? fun e => e.ctr == r.ctr && e.released).elim false fun e => e.fn == fn && e.slot == slot
    match c.queue? (fn / 256) r.qn with
    | none => none
    | some q =>
      if r.released && first && q.state == .active && c.fnReady fn && (!r.entry.fence || q.fenceOpenFor r) then some (r, q) else none

/-! ### Counter commands (R238) -/

/-- A command on a trigger counter for function `fn` gives a dictionary status. -/
def Chip.ctrAllocate (c : Chip) (fn n : Nat) : Chip × Nat :=
  if (c.tctr? n).isSome ∨ c.param 0x23 0x003 fn ≤ (c.tg.ctrs.filter fun r => r.2.owner == fn).length ∨ 65536 ≤ n then (c, 7)
  else ({ c with tg := { c.tg with ctrs := Tab.put c.tg.ctrs n { TCtr.init with owner := fn } } }, 0)

/-- The counter that `fn` owns under a number. -/
def Chip.ownCtr? (c : Chip) (fn n : Nat) : Option TCtr := (c.tctr? n).bind fun t => if t.owner = fn then some t else none

/-- Put a counter. -/
def Chip.putCtr (c : Chip) (n : Nat) (t : TCtr) : Chip := { c with tg := { c.tg with ctrs := Tab.put c.tg.ctrs n t } }

/-- FREE: entries still held on the counter flush with 0x09 in posting order; the counter is unowned. -/
def Chip.ctrFree (c : Chip) (fn n : Nat) : Chip × Nat :=
  match c.ownCtr? fn n with
  | none => (c, 7)
  | some _ =>
    let mine := c.tg.held.filter fun e => e.ctr == n && !e.released
    let c := { c with tg := { c.tg with held := c.tg.held.filter fun e => !(e.ctr == n && !e.released) } }
    let c := mine.foldl (fun c e =>
      let cqn := (c.queue? (e.fn / 256) e.qn).elim 0 (·.cqn)
      c.complete { h := e.fn / 256, fn := e.fn, qn := e.qn, cqn := cqn, recv := false, ctx := none, status := 9 }
        (flushCompletion false e.entry)) c
    ({ c with tg := { c.tg with ctrs := Tab.del c.tg.ctrs n } }, 0)

/-- CONFIGURE: SOURCE, REMOTE, ALLSTATUS, SRCNUM; SOURCE 4 to 15 is refused. -/
def Chip.ctrConfigure (c : Chip) (fn n arg : Nat) : Chip × Nat :=
  match c.ownCtr? fn n with
  | none => (c, 7)
  | some t =>
    if 4 ≤ bits arg 40 4 then (c, 7)
    else (c.putCtr n { t with source := bits arg 40 4, remote := bitOf arg 39, allStatus := bitOf arg 38, srcNum := bits arg 0 24 }, 0)

/-- SET: VALUE := ARG, SAT clears, and entries are released (R238, R243). -/
def Chip.ctrSet (c : Chip) (fn n arg : Nat) : Chip × Nat :=
  match c.ownCtr? fn n with
  | none => (c, 7)
  | some t => ((c.putCtr n { t with value := BitVec.ofNat 48 arg, sat := false }).trigRelease n, 0)

/-- ADD (R238, R241). -/
def Chip.ctrAdd (c : Chip) (fn n arg : Nat) : Chip × Nat :=
  match c.ownCtr? fn n with
  | none => (c, 7)
  | some _ => (c.trigAdd n arg, 0)

/-- A write of P23.010[fn] (R238). -/
def Chip.ctrCommand (c : Chip) (fn v : Nat) : Chip × Nat :=
  let n := bits v 44 16
  let arg := bits v 0 44
  match bits v 60 4 with
  | 1 => c.ctrAllocate fn n
  | 2 => c.ctrFree fn n
  | 3 => c.ctrConfigure fn n arg
  | 4 => c.ctrSet fn n arg
  | 5 => c.ctrAdd fn n arg
  | _ => (c, 7)

end Sys2Proof.Machine
end

