-- ==== Sys2Proof/Machine/CollOps.lean ====
section
/-! DEFINITION. Collective operations at a node of their tree (R246 to R276). -/

namespace Sys2Proof.Machine

/-! ### Operations of a membership -/

/-- The open operations of a membership, in CSEQ order. -/
def Chip.collOps (c : Chip) (m : Nat) : List COp := c.co.ops.filter fun o => o.slot == m

/-- The next CSEQ of a membership. -/
def Chip.nextCseq (c : Chip) (m : Nat) : BitVec 32 := Tab.get c.co.nextCseq m 0

/-- The oldest CSEQ that has not ended at this chip. -/
def Chip.collBase (c : Chip) (m : Nat) : BitVec 32 := ((c.collOps m).head?.map (·.cseq)).getD (c.nextCseq m)

/-- An open operation. -/
def Chip.collOp? (c : Chip) (m : Nat) (s : BitVec 32) : Option COp := c.co.ops.find? fun o => o.slot == m && o.cseq == s

/-- The membership's oldest tree packet of one segment of an operation, ABORT apart, is the one that a port has handed over (R251):
an engine takes them in arrival order. -/
def Chip.oldestTree (c : Chip) (port : Nat) (p : Packet) : Bool :=
  (c.co.arrivals.find? fun a =>
    a.2.opcode != 0x68 && a.2.tree == p.tree && a.2.cseq == p.cseq && a.2.seg == p.seg && a.2.kind == p.kind) == some (port, p)

/-- Update an open operation. -/
def Chip.updColl (c : Chip) (m : Nat) (s : BitVec 32) (f : COp → COp) : Chip :=
  { c with co := { c.co with ops := mapIf (fun o => o.slot == m && o.cseq == s) f c.co.ops } }

/-- The CSEQ lies within the four that a membership may have open (R255, R260). -/
def Chip.inCollWindow (c : Chip) (m : Nat) (s : BitVec 32) : Bool := (s - c.collBase m).toNat < 4

/-- The CSEQ has ended at this chip. -/
def Chip.collEnded (c : Chip) (m : Nat) (s : BitVec 32) : Bool :=
  (c.collOp? m s).isNone && (s - c.collBase m).toNat < (c.nextCseq m - c.collBase m).toNat

/-- Open every operation up to a CSEQ of the window. -/
def Chip.openColl (c : Chip) (m : Nat) (s : BitVec 32) : Nat → Chip
  | 0 => c
  | fuel + 1 =>
    let n := c.nextCseq m
    if (s - n).toNat < 4 then
      ({ c with co := { c.co with
          ops := c.co.ops ++ [{ COp.init with slot := m, cseq := n }]
          nextCseq := Tab.put c.co.nextCseq m (n + 1) } }).openColl m s fuel
    else c

/-- The operation begins at this chip: its timer starts (R273). -/
def Chip.beginColl (c : Chip) (m : Nat) (s : BitVec 32) : Chip :=
  (c.openColl m s 4).updColl m s fun o => if o.startedAt.isNone then { o with startedAt := some c.now } else o

/-- The children that are not pruned: port and members. -/
def Chip.liveChildren (c : Chip) (o : COp) : List (Nat × Nat) := (c.mChildren o.slot).filter fun r => !o.prunedPorts.contains r.1

/-- Members pruned below, as PRUNED counts them (R258). -/
def Chip.prunedCount (c : Chip) (o : COp) : Nat :=
  (c.mChildren o.slot).foldl (fun n r => n + if o.prunedPorts.contains r.1 then r.2 else Tab.get o.prunedFrom r.1 0) 0

/-- Every local member has posted (R255). -/
def Chip.allPosted (c : Chip) (o : COp) : Bool := o.posts.length == (c.mLocals o.slot).length

/-- The engine of a segment (R251). -/
def collUnit (m seg : Nat) : Nat := 0x80 + (m + seg) % 8

/-! ### Tree packets (R94, R246, R256 to R259) -/

/-- A tree packet to a neighbour. A link that is not usable takes none: the operation's timeout decides (R271, R313). -/
def Chip.sendTree (c : Chip) (port : Nat) (up : Bool) (o : COp) (opcode flags seg pruned : Nat) (payload : List Byte) : Chip :=
  let p := newPacket 1 (if up then 0x10 else 0x11) ((c.neighbour? port).getD 0 * 4) (c.endpoint 0) false
    (mkWord [(opcode, 56), (flags, 48), (o.dtype, 44), (o.redop, 40), (c.mTree o.slot, 20)])
    (mkWord [(o.cseq.toNat, 32), (seg, 14)]) (mkWord [(o.scnt % 262144, 46), (pruned, 29)]) 0 payload
  if c.usable port then c.enqueueTree port p else c.bump 60 .noRoute

/-- A packet up, with the members pruned so far in the subtree (R258); nothing at the root. -/
def Chip.sendUp (c : Chip) (o : COp) (opcode flags seg : Nat) (payload : List Byte) : Chip :=
  match c.mParent o.slot with
  | some p => c.sendTree p true o opcode flags seg (c.prunedCount o) payload
  | none => c

/-- A packet down to every child that is not pruned. -/
def Chip.sendDown (c : Chip) (o : COp) (opcode flags seg pruned : Nat) (payload : List Byte) : Chip :=
  (c.liveChildren o).foldl (fun c r => c.sendTree r.1 false o opcode flags seg pruned payload) c

/-! ### Completion (R270) -/

/-- Decide the status of the local entries that have none yet and satisfy a test. -/
def COp.settleWith (o : COp) (p : CPost → Bool) (status : Nat) : COp :=
  { o with posts := mapIf (fun x => x.status.isNone && p x) (fun x => { x with status := some status }) o.posts }

/-- Write the completion entry of a local member. -/
def Chip.completePost (c : Chip) (o : COp) (x : CPost) (status : Nat) : Chip :=
  let cqn := (c.queue? x.host x.qn).elim 0 (·.cqn)
  let p : Completion :=
    { wrid := x.entry.wrid, opcode := BitVec.ofNat 8 x.entry.opcode, length := BitVec.ofNat 32 x.written
      result := if status = 0x0F then BitVec.ofNat 64 o.downTotal else 0 }
  let c := if status ≠ 0 ∨ x.entry.signal then
      c.complete { h := x.host, fn := x.fn, qn := x.qn, cqn := cqn, recv := false, ctx := none, status := status } p
    else c
  c.closePos x.host x.qn x.pos

/-- An earlier operation of the membership has not completed at this host port's member. -/
def Chip.earlierOpen (c : Chip) (o : COp) (h : Nat) : Bool :=
  (c.collOps o.slot).any fun a => (o.cseq - a.cseq).toNat != 0 && (o.cseq - a.cseq).toNat < 4 &&
    a.posts.any fun x => x.host == h && !x.done

/-- Complete the decided entries of one operation whose turn has come; COL writes those of BARRIER and BROADCAST (R269). -/
def Chip.flushPosts (c : Chip) (m : Nat) (s : BitVec 32) : Chip :=
  match c.collOp? m s with
  | none => c
  | some o =>
    if o.opcode ≤ 0x61 && !c.clusterUp 3 then c
    else o.posts.foldl (fun c x =>
      match x.status with
      | some st =>
        if x.done || c.earlierOpen o x.host then c
        else (c.updColl m s fun o =>
          { o with posts := mapIf (fun y => y.host == x.host) (fun y => { y with done := true }) o.posts }).completePost o x st
      | none => c) c

/-- The operation has ended at this chip. -/
def Chip.collFinished (c : Chip) (o : COp) : Bool :=
  o.posts.all (·.done) &&
  if o.abort.isSome then o.abortDown
  else
    c.allPosted o && o.known &&
    (if o.opcode = 0x60 then o.downArrived
     else if o.opcode = 0x61 then o.doneDown
     else o.segs.length == o.scnt && o.segs.all fun r => r.2.gotDown)

/-- Complete what can be completed on a membership, oldest operation first, and remove what has ended. -/
def Chip.settleColl (c : Chip) (m : Nat) : Chip :=
  let c := (c.collOps m).foldl (fun c o => c.flushPosts m o.cseq) c
  { c with co := { c.co with ops := c.co.ops.filter fun o => o.slot != m || !c.collFinished o } }

/-! ### Abort (R271 to R276) -/

/-- Keep the abort record of a CSEQ that some local member has still to post (R275). -/
def Chip.recordAbort (c : Chip) (o : COp) (status : Nat) : Chip :=
  if c.allPosted o then c else { c with co := { c.co with aborts := c.co.aborts ++ [(o.slot, o.cseq, status)] } }

/-- The payload of an ABORT. -/
def abortPayload (status : Nat) : List Byte := BitVec.ofNat 8 status :: zeros 7

/-- The chips of the neighbours that are fenced, seen through a port. -/
def Chip.portFenced (c : Chip) (port : Nat) : Bool := (c.neighbour? port).elim false c.fenced

/-- The chip of the membership's parent is fenced (R272). -/
def Chip.parentFenced (c : Chip) (m : Nat) : Bool := (c.mParent m).elim false c.portFenced

/-- COL aborts an operation at this chip: the ABORT goes up, unless the parent is fenced, and down (R272, R274). -/
def Chip.abortNow (c : Chip) (m : Nat) (s : BitVec 32) (status : Nat) : Chip :=
  match c.collOp? m s with
  | none => c
  | some o =>
    if o.abort.isSome then
      if o.abortDown then c
      else (c.sendDown o 0x68 0 0 0 (abortPayload (o.abort.getD status))).updColl m s fun o => { o with abortDown := true }
    else
      let c := if c.parentFenced m then c else c.sendUp o 0x68 0 0 (abortPayload status)
      let c := c.sendDown o 0x68 0 0 0 (abortPayload status)
      let c := c.recordAbort o status
      c.updColl m s fun o =>
        { o.settleWith (fun _ => true) status with
          abort := some status, abortDue := none, abortUp := true, abortDown := true, segs := [] }

/-- The chip aborts an operation itself: at once, or when COL returns, whose work it is (R26, R274). -/
def Chip.abortSelf (c : Chip) (m : Nat) (s : BitVec 32) (status : Nat) : Chip :=
  if c.clusterUp 3 then c.abortNow m s status
  else c.updColl m s fun o => { o with abortDue := some (o.abortDue.getD status) }

/-- The operation as its ABORT tells it where no entry or packet has yet: DTYPE, REDOP and SCNT go on unchanged (R94, R253). -/
def COp.asAbort (o : COp) (p : Packet) : COp := if o.known then o else { o with dtype := p.dtype, redop := p.redop, scnt := p.scnt }

/-- A status that an ABORT may bring into a completion entry; a code that R153 reserves, which no device of this kind sends, counts
as a remote operation error (R10; DESIGN CHOICE). -/
def abortStatus (p : Packet) : Nat := let s := (p.payload.headD 0).toNat; if 1 ≤ s ∧ s ≤ 0x11 then s else 0x04

/-- An ABORT arrives from a child (R274). -/
def Chip.abortFromChild (c : Chip) (m : Nat) (s : BitVec 32) (status : Nat) : Chip :=
  match c.collOp? m s with
  | none => c
  | some o =>
    if o.abort.isSome then c
    else
      let root := (c.mParent m).isNone
      let c := if root then c.sendDown o 0x68 0 0 0 (abortPayload status)
        else if c.parentFenced m then c else c.sendUp o 0x68 0 0 (abortPayload status)
      (c.recordAbort o status).updColl m s fun o =>
        { o.settleWith (fun _ => true) status with
          abort := some status, abortDue := none, abortUp := true, abortDown := root, segs := [] }

/-- An ABORT arrives from the parent (R274). -/
def Chip.abortFromParent (c : Chip) (m : Nat) (s : BitVec 32) (status : Nat) : Chip :=
  match c.collOp? m s with
  | none => c
  | some o =>
    if o.abortDown then c
    else
      let c := c.sendDown o 0x68 0 0 0 (abortPayload status)
      let c := if o.abort.isSome then c else c.recordAbort o status
      c.updColl m s fun o =>
        { o.settleWith (fun _ => true) status with
          abort := some (o.abort.getD status), abortDue := none, abortDown := true, segs := [] }

/-- What fences and a disabled member do to an open operation: COL's work (R26, R271, R272, R276). -/
def Chip.collFences (c : Chip) (m : Nat) (s : BitVec 32) : Chip :=
  match c.collOp? m s with
  | none => c
  | some o =>
    if !c.clusterUp 3 || o.startedAt.isNone || o.abort.isSome then c
    else if c.parentFenced m || c.co.barred.contains m then c.abortNow m s 0x0D
    else
      let dead := (c.liveChildren o).filter fun r => c.portFenced r.1
      if dead.isEmpty || !o.known then c
      else if isReduction o.opcode then
        (c.updColl m s fun o => { o with prunedPorts := o.prunedPorts ++ dead.map (·.1) }).abortNow m s 0x0D
      else c.updColl m s fun o => { o with prunedPorts := o.prunedPorts ++ dead.map (·.1) }

/-! ### Segments (R266 to R268) -/

/-- The local members' contribution to a segment. -/
def COp.localRaw (o : COp) (seg : Nat) : List Byte :=
  if o.opcode = 0x61 then ((o.posts.find? fun x => x.rank == o.rootRank).elim [] fun x => (x.operand.drop (4096 * seg)).take 4096)
  else o.posts.foldl (fun acc x => combineRaw o.dtype o.redop acc ((x.operand.drop (4096 * seg)).take 4096)) []

/-- The local members' Marrow contribution to a segment. -/
def COp.localAcc (o : COp) (seg : Nat) : List MElem :=
  o.posts.foldl (fun acc x => addFrom 0 acc ((elems o.dtype ((x.operand.drop (4096 * seg)).take 4096)).map (marrowOf o.dtype))) []

/-- The chip adds its local members' operands, once every one of them has posted (R255, R266). -/
def Chip.collContribute (c : Chip) (m : Nat) (s : BitVec 32) : Chip :=
  match c.collOp? m s with
  | none => c
  | some o =>
    let gives := isReduction o.opcode || (o.opcode == 0x61 && o.posts.any fun x => x.rank == o.rootRank)
    if o.abort.isSome || !o.known || o.posts.isEmpty || !c.allPosted o || !gives ||
        (Tab.get o.segs 0 CSeg.init).contrib.contains 60 then c
    else c.updColl m s fun o =>
      { o with segs := (List.range o.scnt).foldl (fun t i =>
          let g := Tab.get t i CSeg.init
          Tab.put t i (if isMarrow o.opcode o.dtype o.redop then
              { g with contrib := 60 :: g.contrib, acc := addFrom 0 g.acc (o.localAcc i) }
            else if o.opcode = 0x61 then { g with contrib := 60 :: g.contrib, raw := o.localRaw i }
            else { g with contrib := 60 :: g.contrib, raw := combineRaw o.dtype o.redop g.raw (o.localRaw i) })) o.segs }

/-- The largest compressed element of a type in bytes. -/
def maxElem (t : Nat) : Nat := let (_, d, n) := marrowForm t; headBytes t + n * d / 8

/-- Elements of a segment where its length is known: a full one, or the last one at a chip with a local entry. -/
def COp.segElems (o : COp) (seg : Nat) : Option Nat :=
  if seg + 1 < o.scnt then some (4096 / dtypeSize o.dtype)
  else if o.posts.isEmpty then none else some ((o.length - 4096 * seg) / dtypeSize o.dtype)

/-- The Marrow parts of a contributor show their end: the segment's length is known, it is full, or the last part leaves room for
one more element of any value (R257). -/
def COp.partsEnd (o : COp) (seg : Nat) (g : CSeg) (port : Nat) : Bool :=
  match Tab.get? g.partsGot port with
  | none => false
  | some n =>
    match o.segElems seg with
    | some k => decide (k ≤ n)
    | none => decide (4096 / dtypeSize o.dtype ≤ n) || decide (Tab.get g.partsLen port 0 + maxElem o.dtype ≤ 4096)

/-- A child has given its whole share of a segment: a raw packet, parts that show their end, or as many elements as another whose
parts do. -/
def COp.gave (o : COp) (seg : Nat) (g : CSeg) (port : Nat) : Bool :=
  g.contrib.contains port || o.partsEnd seg g port ||
  g.partsGot.any fun r => o.partsEnd seg g r.1 && Tab.get? g.partsGot port == some r.2

/-- Every contributor of a segment has given its share: one source for BROADCAST, all for a reduction. -/
def Chip.segComplete (c : Chip) (o : COp) (seg : Nat) (g : CSeg) : Bool :=
  if o.opcode = 0x61 then !g.contrib.isEmpty
  else (c.liveChildren o).all (fun r => o.gave seg g r.1) && ((c.mLocals o.slot).isEmpty || g.contrib.contains 60)

/-- At a chip without local members nothing tells whether the last segment ends where every child's parts now stand: all have given
equally many elements, in a last part that is nearly full. -/
def Chip.segMayEnd (c : Chip) (o : COp) (g : CSeg) : Bool :=
  isMarrow o.opcode o.dtype o.redop && (c.mLocals o.slot).isEmpty && !g.partsGot.isEmpty &&
  (c.liveChildren o).all fun r => Tab.get? g.partsGot r.1 == g.partsGot.head?.map (·.2)

/-- Where a member writes a down segment: its offset from DADDR (R268). -/
def COp.placeOf (o : COp) (n : Nat) (x : CPost) (seg : Nat) : Option Nat :=
  match o.opcode with
  | 0x61 => if x.rank = o.rootRank then none else some (4096 * seg)
  | 0x62 => if x.rank = o.rootRank then some (4096 * seg) else none
  | 0x63 => some (4096 * seg)
  | 0x64 => let b := max 1 (o.scnt / max 1 n); if x.rank = seg / b then some (4096 * (seg % b)) else none
  | _ => none

/-- What a member's result range gets where it overlaps its operand's range in another way than by the same address: bytes left
undefined, which are free values (R252). -/
def Chip.overlapped (c : Chip) (x : CPost) (k : KeyCheck) (data : List Byte) : List Byte :=
  let e := x.entry
  let mix (d s : Nat) : List Byte :=
    (List.range data.length).zipWith (fun i b => if s ≤ d + i ∧ d + i < s + e.length then BitVec.ofNat 8 (Config.freeValue (c.free + i)) else b) data
  if x.operand.isEmpty ∨ e.isInline ∨ (e.daddr = e.saddr ∧ e.dkey = e.skey) then data
  else match k, c.localCheck x.fn e.skey e.saddr e.length false with
    | .fabric d, .fabric s => mix d s
    | .host _ _ d, .host _ _ s => if keyIndex e.dkey = keyIndex e.skey then mix d s else data
    | _, _ => data

/-- Write a down segment at one local member; a key that fails ends its entry with 0x02 and the operation with 0x04. -/
def Chip.writeMember (c : Chip) (m : Nat) (s : BitVec 32) (o : COp) (x : CPost) (seg : Nat) (data : List Byte) : Chip :=
  match o.placeOf (c.mSize m) x seg with
  | none => c
  | some off =>
    if x.status.isSome ∨ data.isEmpty then c
    else
      let k := c.localCheck x.fn x.entry.dkey (x.entry.daddr + off) data.length true
      match (c.drawnBy data.length).place k (c.overlapped x k data) 2 with
      | (c, some _) => (c.updColl m s fun o => o.settleWith (fun y => y.host == x.host) 0x02).abortSelf m s 0x04
      | (c, none) => c.updColl m s fun o =>
          { o with posts := mapIf (fun y => y.host == x.host) (fun y => { y with written := y.written + data.length }) o.posts }

/-- Write the down segments that the local members need, in ascending order, as far as they have come (R266, R268). `fuel` is at
least the segments left. -/
def Chip.writeTurn (c : Chip) (m : Nat) (s : BitVec 32) : Nat → Chip
  | 0 => c
  | fuel + 1 =>
    match c.collOp? m s with
    | none => c
    | some o =>
      let seg := o.nextWrite
      let g := Tab.get o.segs seg CSeg.init
      let needed := o.posts.any fun x => (o.placeOf (c.mSize m) x seg).isSome
      if o.abort.isSome || o.scnt ≤ seg || !c.allPosted o || (needed && !g.gotDown) then c
      else
        let c := c.updColl m s fun o =>
          { o with nextWrite := seg + 1, segs := if g.gotDown then Tab.put o.segs seg { g with raw := [] } else o.segs }
        (o.posts.foldl (fun c x => c.writeMember m s o x seg g.raw) c).writeTurn m s fuel

/-- A down segment at this chip: replicated, kept for the local members, and its stage credit returned (R267, R268). -/
def Chip.downSegment (c : Chip) (m : Nat) (s : BitVec 32) (seg : Nat) (data : List Byte) : Chip :=
  match c.collOp? m s with
  | none => c
  | some o =>
    let c := c.sendDown o o.opcode (if data.isEmpty then 0 else 0x40) seg 0 data
    let keep := o.nextWrite ≤ seg && !(c.mLocals m).isEmpty
    (c.updColl m s fun o =>
      { o with segs := Tab.upd o.segs seg CSeg.init fun g =>
          { g with sentUp := true, gotDown := true, raw := if keep then data else [], acc := [], partsGot := [], partsLen := [] } }).writeTurn
      m s (o.scnt + 1)

/-- Every down segment has come, and the local members have those they need. -/
def Chip.collWhole (c : Chip) (o : COp) : Bool :=
  o.segs.length == o.scnt && (o.segs.all fun r => r.2.gotDown) && ((c.mLocals o.slot).isEmpty || o.nextWrite == o.scnt)

/-- The root's result for a complete segment (R263). -/
def COp.result (o : COp) (g : CSeg) : List Byte :=
  if isMarrow o.opcode o.dtype o.redop then elemBytes o.dtype (g.acc.map (marrowResult o.dtype)) else g.raw

/-- The root turns complete segments into down segments; BROADCAST waits for the arrival phase (R267 to R269). -/
def Chip.collRoot (c : Chip) (m : Nat) (s : BitVec 32) : Chip :=
  match c.collOp? m s with
  | none => c
  | some o =>
    if (c.mParent m).isSome || o.abort.isSome || !o.known || o.opcode == 0x60 || (o.opcode == 0x61 && !o.downArrived) ||
        !c.allPosted o then c
    else o.segs.foldl (fun c r =>
      if r.2.sentUp || !c.segComplete o r.1 r.2 then c else c.downSegment m s r.1 (o.result r.2)) c

/-! ### Arrival, DONE and the end of an operation (R269, R270) -/

/-- The up BARRIER or the arrival of a BROADCAST; at the root, the turn to the down phase. -/
def Chip.collArrive (c : Chip) (m : Nat) (s : BitVec 32) : Chip :=
  match c.collOp? m s with
  | none => c
  | some o =>
    let ready := c.allPosted o && (c.liveChildren o).all fun r => o.upFrom.contains r.1
    if o.abort.isSome || !o.known || 0x61 < o.opcode || o.upSent || !ready || (!o.posts.isEmpty && !c.clusterUp 3) then c
    else if (c.mParent m).isSome then
      (c.sendUp o o.opcode 0 0 []).updColl m s fun o => { o with upSent := true }
    else
      let total := c.prunedCount o
      let c := if o.opcode = 0x60 then c.sendDown o 0x60 0 0 total [] else c
      c.updColl m s fun o => { o with upSent := true, downArrived := true, downTotal := total }

/-- The status of a BARRIER or of a BROADCAST's source: success, or 0x0F when members were pruned. -/
def prunedStatus (total : Nat) : Nat := if total = 0 then 0 else 0x0F

/-- DONE of a BROADCAST: sent up when the chip's writes and its children's DONE are in; the root sends it down. -/
def Chip.collDone (c : Chip) (m : Nat) (s : BitVec 32) : Chip :=
  match c.collOp? m s with
  | none => c
  | some o =>
    let ready := c.collWhole o && (c.liveChildren o).all fun r => o.doneFrom.contains r.1
    if o.abort.isSome || o.opcode != 0x61 || !o.known || !ready || o.doneSent then c
    else if (c.mParent m).isSome then
      (c.sendUp o 0x69 0 0 []).updColl m s fun o => { o with doneSent := true }
    else
      let total := c.prunedCount o
      (c.sendDown o 0x69 0 0 total []).updColl m s fun o => { o with doneSent := true, doneDown := true, downTotal := total }

/-- Decide the local completions that the state of the operation allows; those of BARRIER and BROADCAST are COL's work, and an
abort that waits for COL comes first (R26, R269). -/
def Chip.collDecide (c : Chip) (m : Nat) (s : BitVec 32) : Chip :=
  match c.collOp? m s with
  | none => c
  | some o =>
    let whole := c.collWhole o
    if o.abort.isSome || o.abortDue.isSome || !o.known || (o.opcode ≤ 0x61 && !c.clusterUp 3) then c
    else if o.opcode = 0x60 then
      if o.downArrived then c.updColl m s fun o => o.settleWith (fun _ => true) (prunedStatus o.downTotal) else c
    else if o.opcode = 0x61 then
      let c := if whole then c.updColl m s fun o => o.settleWith (fun x => x.rank != o.rootRank) 0 else c
      if o.doneDown then c.updColl m s fun o => o.settleWith (fun x => x.rank == o.rootRank) (prunedStatus o.downTotal) else c
    else if whole then c.updColl m s fun o => o.settleWith (fun _ => true) 0
    else c

/-- Everything that the state of an operation now makes happen. -/
def Chip.collRun (c : Chip) (m : Nat) (s : BitVec 32) : Chip :=
  (((((((c.collFences m s).collContribute m s).collArrive m s).collRoot m s).collDone m s).collDecide m s)).settleColl m

/-- The same for every open operation: a fence, or COL, has come (R26, R271). -/
def Chip.collRunAll (c : Chip) : Chip := c.co.ops.foldl (fun c o => c.collRun o.slot o.cseq) c

/-! ### Posting (R252 to R255, R275) -/

/-- The CSEQ that a local member's next valid entry joins. -/
def Chip.postSeq (c : Chip) (m h : Nat) : BitVec 32 := BitVec.ofNat 32 (Tab.get c.co.postCount (m * 4 + h) 0)

/-- The entry may be consumed: at most 4 operations of the membership are in flight (R255). -/
def Chip.canPost (c : Chip) (h : Nat) (e : Entry) : Bool :=
  c.variant.collEngines == 0 || (c.co.aborts.any fun a => a.1 == e.mslot && a.2.1 == c.postSeq e.mslot h) ||
  c.inCollWindow e.mslot (c.postSeq e.mslot h)

/-- Whether a member reads its operand. -/
def Chip.readsOperand (c : Chip) (h : Nat) (e : Entry) : Bool :=
  isReduction e.opcode || (e.opcode == 0x61 && (c.mMember e.mslot h).elim false fun r => r.2 == e.rootRank)

/-- The length of a member's result range, 0 where it writes none (R252, R268). -/
def Chip.resultLength (c : Chip) (h : Nat) (e : Entry) : Nat :=
  let rank := (c.mMember e.mslot h).elim 0 (·.2)
  match e.opcode with
  | 0x61 => if rank = e.rootRank then 0 else e.length
  | 0x62 => if rank = e.rootRank then e.length else 0
  | 0x63 => e.length
  | 0x64 => e.length / max 1 (c.mSize e.mslot)
  | _ => 0

/-- The operand, or the failure of a key or of the read; none where the given bytes are not the operand's length. -/
def Chip.operandOf (c : Chip) (h fn : Nat) (e : Entry) (data : SourceData) : Chip × Option (Nat ⊕ List Byte) :=
  let n := c.resultLength h e
  let dstBad := n != 0 && (match c.localCheck fn e.dkey e.daddr n true with | .refused _ => true | _ => false)
  if dstBad then (c, some (.inl 2))
  else if !c.readsOperand h e ∨ e.length = 0 then (c, some (.inr []))
  else if e.isInline then (c, some (.inr e.collInline))
  else match c.localCheck fn e.skey e.saddr e.length false with
    | .refused _ => (c, some (.inl 2))
    | k => c.bytesAt k e.length data

/-- OPCODE, DTYPE, REDOP and SCNT of an operation agree with what an entry or a packet says; BARRIER and BROADCAST ignore the
type and the operator (R253, R255). -/
def COp.agrees (o : COp) (opcode dtype redop scnt : Nat) : Bool :=
  !o.known || (o.opcode == opcode && o.scnt == scnt && (opcode ≤ 0x61 || (o.dtype == dtype && o.redop == redop)))

/-- Fix OPCODE, DTYPE, REDOP and SCNT at the first entry or packet. -/
def COp.fix (o : COp) (opcode dtype redop scnt : Nat) : COp :=
  if o.known then o
  else { o with
    known := true, opcode := opcode, scnt := scnt
    dtype := if opcode ≤ 0x61 then 0 else dtype, redop := if opcode ≤ 0x61 then 0 else redop }

/-- DTYPE and REDOP that an entry's packets carry: BARRIER and BROADCAST carry 0. -/
def collTypes (e : Entry) : Nat × Nat := if isReduction e.opcode then (e.dtype, e.redop) else (0, 0)

/-- Drop the abort records that every local member has now posted (R275). -/
def Chip.dropAborts (c : Chip) (m : Nat) : Chip :=
  let posted (s : BitVec 32) : Bool := (c.mLocals m).all fun r => (c.postSeq m r.1 - s - 1).toNat < 2 ^ 31
  { c with co := { c.co with aborts := c.co.aborts.filter fun a => a.1 != m || !posted a.2.1 } }

/-- A CSEQ that a changed row has ended begins anew with its first local post. -/
def Chip.dropStale (c : Chip) (m : Nat) (s : BitVec 32) : Chip :=
  { c with co := { c.co with stale := c.co.stale.filter fun a => !(a.1 == m && a.2.1 == s) } }

/-- A consumed collective entry joins its operation (R255). -/
def Chip.startCollective (c : Chip) (h qn pos : Nat) (q : Queue) (e : Entry) (data : SourceData) : Chip :=
  if c.variant.collEngines = 0 then c.failEntry h qn pos e 0x0B
  else
    let m := e.mslot
    let s := c.postSeq m h
    let c := { c with co := { c.co with postCount := Tab.put c.co.postCount (m * 4 + h) ((s + 1).toNat) } }
    let x : CPost := { host := h, fn := q.fn, qn := qn, entry := e, rank := (c.mMember m h).elim 0 (·.2), pos := pos }
    match c.co.aborts.find? fun a => a.1 == m && a.2.1 == s with
    | some a => (c.completePost COp.init x a.2.2).dropAborts m
    | none =>
      let (t, r) := collTypes e
      let scnt := max 1 (divUp e.collLength 4096)
      let c := c.beginColl m s
      let o := (c.collOp? m s).getD COp.init
      let same := o.agrees e.opcode t r scnt && o.posts.all fun y =>
        y.entry.collLength == e.collLength && (isReduction e.opcode && e.opcode != 0x62 || e.opcode == 0x60 || y.entry.rootRank == e.rootRank)
      let (c, d) := c.operandOf h q.fn e data
      let x : CPost := match d with
        | some (.inr l) => { x with operand := l }
        | some (.inl st) => { x with status := some st }
        | none => x
      let c := c.updColl m s fun o =>
        { o.fix e.opcode t r scnt with
          posts := o.posts ++ [x], length := e.collLength
          rootRank := if e.opcode = 0x61 ∨ e.opcode = 0x62 then e.rootRank else o.rootRank }
      let c := if !same || x.status.isSome then c.abortSelf m s 0x04 else c
      (c.dropStale m s).collRun m s

/-- A collective entry of an SQ is consumed (R252 to R255). -/
def Chip.takeCollective (c : Chip) (h qn op : Nat) (e : Entry) (data : SourceData) : Chip :=
  match c.takeable h qn e with
  | none => c
  | some (q, e) =>
    if e.opcode ≠ op ∨ e.held ∨ c.sqBad h q.fn e ∨ !c.canPost h e ∨
        (c.variant.collEngines ≠ 0 ∧ (c.operandOf h q.fn e data).2.isNone) then c
    else (c.consume h qn q).startCollective h qn q.nextPos q e data

/-! ### Tree packets arrive (R249, R256, R258, R260, R262) -/

/-- Remove a handed-over tree packet. -/
def Chip.takeTree (c : Chip) (port : Nat) (p : Packet) : Chip := { c with co := { c.co with arrivals := c.co.arrivals.erase (port, p) } }

/-- A tree packet is discarded and counted; a mismatch also raises the engine's source (R249, R260). -/
def Chip.treeDiscard (c : Chip) (m : Nat) (p : Packet) (mismatch : Bool) : Chip :=
  let u := collUnit m p.seg
  let c := c.bump u .treeDiscard
  if mismatch then c.raise u 0x100 9 (p.tree * 4096 + m) else c

/-- The membership, if the packet's port is the child or the parent it must come from. -/
def Chip.treeSlot (c : Chip) (port : Nat) (p : Packet) : Option (Nat × Bool) :=
  (c.slotOfTree? p.tree).map fun m =>
    (m, if p.kind.toNat = 0x10 then (c.mChildren m).any (fun r => r.1 == port) else c.mParent m == some port)

/-- Codes that R256 and R253 reserve; BARRIER and BROADCAST ignore the type and the operator. -/
def Packet.treeReserved (p : Packet) : Bool :=
  !((0x60 ≤ p.opcode && p.opcode ≤ 0x64) || p.opcode == 0x68 || p.opcode == 0x69) ||
  (0x62 ≤ p.opcode && (8 ≤ p.dtype || 6 ≤ p.redop)) || (isReduction p.opcode && badReduction p.dtype p.redop)

/-- The packet belongs to an operation that a change of the row has ended (R250): one of its CSEQs, within a packet age limit of the
change, before a local member has posted the CSEQ anew (DESIGN CHOICE: the rule does not say how the late packets are told). -/
def Chip.isStale (c : Chip) (m : Nat) (s : BitVec 32) : Bool :=
  c.co.stale.any fun a => a.1 == m && a.2.1 == s && c.now < a.2.2 + c.ageLimit

/-- The packet belongs to an operation that has ended at this chip by an abort; an ABORT from the parent still passes where none
has gone down (R260, R274). -/
def Chip.abortEnded (c : Chip) (m : Nat) (p : Packet) : Bool :=
  (c.collOp? m p.cseq).elim false fun o => o.abort.isSome && (o.abortDown || p.opcode != 0x68 || p.kind.toNat != 0x11)

/-- The checks that every arriving tree packet passes first; the operation it belongs to then is open. -/
def Chip.admitTree (c : Chip) (port : Nat) (p : Packet) : Chip × Option Nat :=
  let c := c.takeTree port p
  match c.treeSlot port p with
  | none => (c.treeDiscard 0 p true, none)
  | some (m, right) =>
    if !right then (c.treeDiscard m p true, none)
    else if c.fenced p.srcChip || Packet.treeReserved p || !c.inCollWindow m p.cseq || c.collEnded m p.cseq ||
        c.isStale m p.cseq || c.abortEnded m p then
      (c.treeDiscard m p false, none)
    else (c.beginColl m p.cseq, some m)

/-- Add a child's contribution to a segment (R257, R262, R264). -/
def COp.addChild (o : COp) (port : Nat) (p : Packet) : COp :=
  let g := Tab.get o.segs p.seg CSeg.init
  if isMarrow o.opcode o.dtype o.redop && p.flags.testBit 7 then
    let first := natLE (p.payload.take 2)
    let n := natLE ((p.payload.drop 2).take 2)
    let g := { g with
      acc := addFrom first g.acc (unpackElems o.dtype n (p.payload.drop 8))
      partsGot := Tab.put g.partsGot port (Tab.get g.partsGot port 0 + n)
      partsLen := Tab.put g.partsLen port p.payload.length }
    { o with segs := Tab.put o.segs p.seg g }
  else
    let raw := if isReduction o.opcode then combineRaw o.dtype o.redop g.raw p.payload else p.payload
    { o with segs := Tab.put o.segs p.seg { g with raw := raw, contrib := port :: g.contrib } }

/-- The pruned members that a child has reported, which only grow in the course of an operation (R258). -/
def COp.tellPruned (o : COp) (port n : Nat) : COp := { o with prunedFrom := Tab.put o.prunedFrom port (max n (Tab.get o.prunedFrom port 0)) }

/-- An up packet of BARRIER, BROADCAST or a reduction takes its effect on an open operation. -/
def COp.takeUp (o : COp) (port : Nat) (p : Packet) : COp :=
  let o := (o.fix p.opcode p.dtype p.redop p.scnt).tellPruned port p.pruned
  if o.opcode ≤ 0x61 && !p.flags.testBit 6 then { o with upFrom := insertNat port o.upFrom }
  else
    let g := Tab.get o.segs p.seg CSeg.init
    if o.scnt ≤ p.seg ∨ g.sentUp ∨ o.gave p.seg g port then o
    else o.addChild port p

/-- COLLECTIVE_UP (R251, R262, R269); `poisoned` = the overflow area that held staged data of its operation is poisoned (R281). -/
def Chip.collectiveUp (c : Chip) (port : Nat) (p : Packet) (poisoned : Bool) : Chip :=
  if !c.oldestTree port p ∨ p.kind.toNat ≠ 0x10 ∨ p.opcode = 0x68 ∨ p.opcode = 0x69 then c
  else match c.admitTree port p with
    | (c, none) => c
    | (c, some m) =>
      let o := (c.collOp? m p.cseq).getD COp.init
      if !o.agrees p.opcode p.dtype p.redop p.scnt then (c.abortSelf m p.cseq 0x04).settleColl m
      else if poisoned && !o.segs.isEmpty then ((c.poisonDevice 6).abortSelf m p.cseq 0x04).settleColl m
      else (c.updColl m p.cseq fun o => o.takeUp port p).collRun m p.cseq

/-- COLLECTIVE_DOWN (R268, R269). -/
def Chip.collectiveDown (c : Chip) (port : Nat) (p : Packet) : Chip :=
  if !c.oldestTree port p ∨ p.kind.toNat ≠ 0x11 ∨ p.opcode = 0x68 ∨ p.opcode = 0x69 then c
  else match c.admitTree port p with
    | (c, none) => c
    | (c, some m) =>
      let s := p.cseq
      let o := (c.collOp? m s).getD COp.init
      if !o.agrees p.opcode p.dtype p.redop p.scnt then (c.abortSelf m s 0x04).settleColl m
      else
        let c := c.updColl m s fun o => o.fix p.opcode p.dtype p.redop p.scnt
        if p.opcode = 0x60 then
          let c := c.sendDown ((c.collOp? m s).getD COp.init) 0x60 0 0 p.pruned []
          (c.updColl m s fun o => { o with downArrived := true, downTotal := p.pruned }).collRun m s
        else if p.scnt ≤ p.seg then c
        else (c.downSegment m s p.seg p.payload).collRun m s

/-- COLLECTIVE_ABORT (R274): COL handles it. -/
def Chip.collectiveAbort (c : Chip) (port : Nat) (p : Packet) : Chip :=
  if !c.co.arrivals.contains (port, p) ∨ !p.isTree ∨ p.opcode ≠ 0x68 ∨ !c.clusterUp 3 then c
  else match c.admitTree port p with
    | (c, none) => c
    | (c, some m) =>
      let status := abortStatus p
      let c := c.updColl m p.cseq fun o => o.asAbort p
      (if p.kind.toNat = 0x10 then c.abortFromChild m p.cseq status else c.abortFromParent m p.cseq status).settleColl m

/-- COLLECTIVE_DONE (R269). -/
def Chip.collectiveDone (c : Chip) (port : Nat) (p : Packet) : Chip :=
  if !c.oldestTree port p ∨ !p.isTree ∨ p.opcode ≠ 0x69 then c
  else match c.admitTree port p with
    | (c, none) => c
    | (c, some m) =>
      let s := p.cseq
      let o := (c.collOp? m s).getD COp.init
      if !o.agrees 0x61 0 0 p.scnt then (c.abortSelf m s 0x04).settleColl m
      else if p.kind.toNat = 0x10 then
        (c.updColl m s fun o =>
          { (o.fix 0x61 0 0 p.scnt).tellPruned port p.pruned with doneFrom := insertNat port o.doneFrom }).collRun m s
      else
        let c := c.updColl m s fun o => o.fix 0x61 0 0 p.scnt
        let c := c.sendDown ((c.collOp? m s).getD COp.init) 0x69 0 0 p.pruned []
        (c.updColl m s fun o => { o with doneDown := true, downTotal := p.pruned }).collRun m s

/-! ### Sending up, timeouts, configuration (R250, R267, R273, R276) -/

/-- Stage costs of the segments of a membership that are up and not answered (R267). -/
def Chip.stageUsed (c : Chip) (m : Nat) : Nat :=
  (c.collOps m).foldl (fun n o =>
    n + (o.segs.filter fun r => r.2.sentUp && !r.2.gotDown).length * stageCost o.opcode o.dtype o.redop) 0

/-- The packets of a segment going up. A zero-byte BROADCAST segment keeps DATA, so that it differs from the arrival. -/
def Chip.sendSegment (c : Chip) (o : COp) (seg : Nat) (g : CSeg) : Chip :=
  if isMarrow o.opcode o.dtype o.redop && !g.acc.isEmpty then
    (segmentParts o.dtype g.acc).foldl (fun c b => c.sendUp o o.opcode 0xC0 seg b) c
  else c.sendUp o o.opcode (if g.raw.isEmpty && o.opcode != 0x61 then 0 else 0x40) seg g.raw

/-- SEGMENT_UP (R266, R267): a complete segment goes up. `poisoned` = the overflow area that held its staged data is poisoned
(R281). Where a chip without local members cannot see the end of the last segment, the command says that it has come, at the
root too (DESIGN CHOICE: no field of a packet gives the element count there). -/
def Chip.segmentUp (c : Chip) (m : Nat) (s : BitVec 32) (seg : Nat) (poisoned : Bool) : Chip :=
  match c.collOp? m s with
  | none => c
  | some o =>
    match Tab.get? o.segs seg with
    | none => c
    | some g =>
      let whole := c.segComplete o seg g || c.segMayEnd o g
      if o.abort.isSome || g.sentUp || !whole || (isReduction o.opcode && !c.allPosted o) then c
      else if poisoned then ((c.poisonDevice 6).abortSelf m s 0x04).settleColl m
      else if (c.mParent m).isNone then
        if isReduction o.opcode then (c.downSegment m s seg (o.result g)).collRun m s else c
      else if c.mReserve m < c.stageUsed m + stageCost o.opcode o.dtype o.redop then c
      else (c.sendSegment o seg g).updColl m s fun o =>
        { o with segs := Tab.put o.segs seg { g with sentUp := true, raw := [], acc := [], partsGot := [], partsLen := [] } }

/-- COLLECTIVE_TIMEOUT (R273): COL handles it. -/
def Chip.collectiveTimeout (c : Chip) (m : Nat) (s : BitVec 32) : Chip :=
  match c.collOp? m s with
  | none => c
  | some o =>
    let due := o.startedAt.elim false fun t => t + 1000000 * c.param 0x24 0x001 0 ≤ c.now
    let finishedHere := !(c.mLocals m).isEmpty && c.allPosted o && o.posts.all (·.done)
    if !c.clusterUp 3 || !due || (finishedHere && o.abort.isNone) then c
    else (c.abortNow m s 0x0E).settleColl m

/-- COL has returned: expired timers first, then the aborts that waited for it, then everything else (R26, R274). -/
def Chip.collResume (c : Chip) : Chip :=
  let c := c.co.ops.foldl (fun c o => c.collectiveTimeout o.slot o.cseq) c
  let c := c.co.ops.foldl (fun c o => match o.abortDue with
    | some s => (c.abortNow o.slot o.cseq s).settleColl o.slot
    | none => c) c
  c.collRunAll

/-- A commit has changed or invalidated a valid row (R250): its operations end at the local members with 0x0D. -/
def Chip.collRowChanged (c : Chip) (m : Nat) : Chip :=
  let l := c.collOps m
  let c := l.foldl (fun c o => o.posts.foldl (fun c x => if x.done then c else c.completePost o x 0x0D) c) c
  { c with co := { c.co with
      stale := c.co.stale.filter (fun a => a.1 != m || c.now < a.2.2 + c.ageLimit) ++ l.map fun o => (m, o.cseq, c.now)
      ops := c.co.ops.filter fun o => o.slot != m
      nextCseq := Tab.del c.co.nextCseq m
      aborts := c.co.aborts.filter fun a => a.1 != m
      postCount := Tab.keep c.co.postCount fun k _ => k / 4 != m
      barred := c.co.barred.filter (· != m) } }

/-- The function of a local member is disabled (R276): its entries go without completions, the membership is barred. -/
def Chip.collDisable (c : Chip) (fn : Nat) : Chip :=
  let h := fn / 256
  let ms := (List.range 4096).filter fun m => c.mValid m && (c.mMember m h).elim false fun r => r.1 == fn
  let mine := c.co.ops.filter fun o => o.posts.any fun x => x.fn == fn && !x.done
  let c := { c with co := { c.co with
    barred := ms.foldl (fun l m => insertNat m l) c.co.barred
    ops := c.co.ops.map fun o => { o with posts := mapIf (fun x => x.fn == fn) (fun x => { x with done := true }) o.posts } } }
  let c := mine.foldl (fun c o => o.posts.foldl (fun c x => if x.fn == fn && !x.done then c.closePos x.host x.qn x.pos else c) c) c
  ms.foldl (fun c m => (c.collOps m).foldl (fun c o => c.collRun m o.cseq) c) c

end Sys2Proof.Machine
end

