-- ==== Sys2Proof/Machine/FenceOps.lean ====
section
/-! DEFINITION. Fence and throttle broadcasts, the Clamp table, throttles (R335 to R345). -/

namespace Sys2Proof

/-- FOP or TOP of a broadcast (R339, R344). -/
def Packet.bcastOp (p : Packet) : Nat := p.w0.field 63 56
/-- BSEQ. -/
def Packet.bseq (p : Packet) : BitVec 16 := BitVec.ofNat 16 (p.w0.field 47 32)
/-- CHIP of a fence. -/
def Packet.fenceChip (p : Packet) : Nat := p.w0.field 14 0
/-- WCAP of a throttle: 0 is treated as 1. -/
def Packet.wcap (p : Packet) : Nat := max 1 (p.w0.field 31 16)
/-- DUR of a throttle in µs. -/
def Packet.dur (p : Packet) : Nat := p.w0.field 15 0
/-- GLO. -/
def Packet.glo (p : Packet) : Nat := p.w1.field 63 54
/-- GHI. -/
def Packet.ghi (p : Packet) : Nat := p.w1.field 53 44
/-- PMASK of a throttle. -/
def Packet.posMask (p : Packet) : Nat := p.w1.field 31 0

/-- The payload rules of a broadcast hold (R339, R344). -/
def Packet.bcastOk (p : Packet) : Bool :=
  (p.bcastOp == 1 || p.bcastOp == 2) && (p.kind == 0x50 || p.glo ≤ p.ghi)

end Sys2Proof

namespace Sys2Proof.Machine

/-! ### Arrival of a broadcast (R335, R336, R342) -/

/-- The lowest valid row of P01.040 that lists an endpoint. -/
def Chip.managerRow? (c : Chip) (ep : Nat) : Option Nat :=
  (List.range 16).find? fun r => bitOf (c.param 0x01 0x040 r) 31 && bits (c.param 0x01 0x040 r) 0 17 == ep

/-- The BSEQ is new for a manager row (R335). -/
def BcastRec.isNew (r : BcastRec) (s : BitVec 16) : Bool :=
  match r.highest with
  | none => true
  | some h =>
    let ahead := (s - h).toNat
    let behind := (h - s).toNat
    (1 ≤ ahead && ahead ≤ 32767) || (1 ≤ behind && behind ≤ 64 && !r.seen.contains s)

/-- Enter a new BSEQ in the record: the highest, and the 64 below it. -/
def BcastRec.enter (r : BcastRec) (s : BitVec 16) : BcastRec :=
  match r.highest with
  | none => { r with highest := some s }
  | some h =>
    let top := if 1 ≤ (s - h).toNat ∧ (s - h).toNat ≤ 32767 then s else h
    let all := if top = s then h :: r.seen else s :: r.seen
    { highest := some top, seen := all.filter fun x => (top - x).toNat ≤ 64 && x != top }

/-- The ports that receive a copy (R336). -/
def Chip.copyPorts (c : Chip) (inp : Nat) (p : Packet) : List Nat :=
  let ofRole (r : Nat) : List Nat := (List.range 60).filter fun q => c.usable q && c.role q == r
  if 60 ≤ inp then ofRole 1 ++ ofRole 2
  else if c.role inp = 1 then if p.src.toNat / 128 = c.groupNo then ofRole 2 else []
  else if p.src.toNat / 128 = c.groupNo then [] else ofRole 1

/-- One copy of a broadcast joins its port's queue, unless a hop or level limit stops it (R87, R332). -/
def Chip.copyTo (c : Chip) (a : Arrival) (out : Nat) : Chip :=
  match c.checkOut out a.pkt with
  | .to out p => c.enqueue { inp := a.inp, vc := a.pkt.vc.toNat, out := out, pkt := p, id := a.id, copy := true, pool := a.pool }
  | .drop k cause => c.routerDrop a.inp k cause
  | _ => c

/-- A new broadcast waits for the FAB cluster; beyond 256 it raises the overflow source (R342). -/
def Chip.awaitApply (c : Chip) (row : Nat) (p : Packet) : Chip :=
  if 256 ≤ c.rt.pending.length then c.raise routerUnit 0x106 11 routerUnit
  else { c with rt := { c.rt with pending := c.rt.pending ++ [(row, p)] } }

/-- A broadcast that has passed its checks is copied and acted on. -/
def Chip.spread (c : Chip) (a : Arrival) (row : Nat) : Chip :=
  let r := Tab.get c.rt.bcasts row BcastRec.init
  let c := { c with rt := { c.rt with bcasts := Tab.put c.rt.bcasts row (r.enter a.pkt.bseq) } }
  let c := (c.copyPorts a.inp a.pkt).foldl (fun c q => c.copyTo a q) c
  let c := if c.rt.waiting.any (fun w => w.id == a.id) then c else c.freeArrival a
  c.awaitApply row a.pkt

/-- FENCE_BROADCAST and THROTTLE_BROADCAST: the next packet of an input is a broadcast of the kind (R335). -/
def Chip.broadcastArrives (c : Chip) (inp : Nat) (p : Packet) (kind : Nat) : Chip :=
  match c.firstArrival? inp with
  | none => c
  | some a =>
    if a.pkt ≠ p ∨ p.headerFails ∨ p.kind.toNat ≠ kind then c
    else
      let c := c.dropArrival a
      if c.tooOld p then (c.freeArrival a).routerDrop inp .ageLimit 0x105
      else match c.managerRow? p.src.toNat with
        | none =>
          let c := c.freeArrival a
          { c with dict := { c.dict with shimRejected := c.dict.shimRejected + 1 } }
        | some row =>
          if !p.bcastOk then (c.freeArrival a).bump inp .bcastBad
          else if !(Tab.get c.rt.bcasts row BcastRec.init).isNew p.bseq then (c.freeArrival a).bump inp .bcastDuplicate
          else c.spread a row

/-! ### The Clamp table (R338 to R343) -/

/-- Peer channels whose destination has just become fenced. -/
def Chip.fenceChans (c : Chip) : Chip :=
  c.tr.chans.foldl (fun c r => if c.fencedTo (chRemote r.1 / 4) then c.chanFence r.1 else c) c

/-- Peer channels whose destination is no longer fenced (R343). -/
def Chip.unfenceChans (c : Chip) : Chip :=
  c.tr.chans.foldl (fun c r => if c.fencedTo (chRemote r.1 / 4) then c else c.chanUnfence r.1) c

/-- Set or clear the Clamp bit of a chip id, with all that follows (R341, R343). -/
def Chip.setFence (c : Chip) (chip : Nat) (on : Bool) : Chip :=
  if on == c.fenced chip then c
  else if on then
    (({ c with rt := { c.rt with fenced := insertNat chip c.rt.fenced } }).fenceChans).collRunAll
  else ({ c with rt := { c.rt with fenced := c.rt.fenced.filter (· != chip) } }).unfenceChans

/-- A BSEQ is older than the remembered one of the same manager row (R340). -/
def bseqOlder (last : Option (Nat × BitVec 16)) (row : Nat) (s : BitVec 16) : Bool :=
  last.elim false fun r => r.1 == row && 1 ≤ (r.2 - s).toNat && (r.2 - s).toNat ≤ 32767

/-- Apply a fence broadcast (R340). -/
def Chip.applyFence (c : Chip) (row : Nat) (p : Packet) : Chip :=
  let x := p.fenceChip
  if bseqOlder (Tab.get? c.rt.remembered x) row p.bseq then c
  else ({ c with rt := { c.rt with remembered := Tab.put c.rt.remembered x (row, p.bseq) } }).setFence x (p.bcastOp == 1)

/-! ### Throttles (R344, R345) -/

/-- A throttle acts on one destination entry. -/
def Chip.throttleDest (c : Chip) (row : Nat) (p : Packet) (chip : Nat) : Chip :=
  let d := c.dest chip
  if bseqOlder d.capFrom row p.bseq then c
  else if p.bcastOp = 1 then
    c.putDest chip { d with
      window := min d.window p.wcap, cap := some p.wcap, capFrom := some (row, p.bseq)
      capExpiry := if p.dur = 0 then none else some (c.now + 1000 * p.dur) }
  else c.putDest chip { d with cap := none, capExpiry := none, capFrom := some (row, p.bseq) }

/-- The chip ids that a throttle covers. -/
def throttled (p : Packet) : List Nat :=
  (List.range (p.ghi + 1 - p.glo)).flatMap fun g => (setBits 32 p.posMask).map fun q => (p.glo + g) * 32 + q

/-- Apply a throttle broadcast. -/
def Chip.applyThrottle (c : Chip) (row : Nat) (p : Packet) : Chip :=
  ((throttled p).foldl (fun c x => c.throttleDest row p x) c)

/-- BROADCAST_APPLY: FAB applies the oldest waiting broadcast (R342). -/
def Chip.broadcastApply (c : Chip) : Chip :=
  match c.rt.pending with
  | [] => c
  | (row, p) :: r =>
    if !c.clusterUp 1 then c
    else
      let c := { c with rt := { c.rt with pending := r } }
      if p.kind = 0x50 then c.applyFence row p else c.applyThrottle row p

/-- THROTTLE_EXPIRY: the cap of an entry whose duration has passed is removed (R345). -/
def Chip.throttleExpiry (c : Chip) (chip : Nat) : Chip :=
  match Tab.get? c.tr.dests chip with
  | some d => match d.capExpiry with
    | some t => if t ≤ c.now then c.putDest chip { d with cap := none, capExpiry := none } else c
    | none => c
  | none => c

/-- A write of row `row` of P13.001 is installed (R338, R340): it clears what the row's chip ids remember. -/
def Chip.installClamp (c : Chip) (row v : Nat) : Chip :=
  let c := { c with rt := { c.rt with remembered := Tab.keep c.rt.remembered fun k _ => k / 64 != row } }
  (List.range 64).foldl (fun c i => c.setFence (row * 64 + i) (v.testBit i)) c

/-- A write of row `row` of P13.001: always applied; while FAB is down the Clamp table stays as installed, and the write waits
(R24, R338, R342). -/
def Chip.writeClamp (c : Chip) (row v : Nat) : Chip :=
  if c.clusterUp 1 then c.installClamp row v
  else { c with rt := { c.rt with clampWrites := c.rt.clampWrites ++ [(row, v)] } }

/-- FAB returns: what waited to be installed is (R24). -/
def Chip.fabResume (c : Chip) : Chip :=
  let c' := { c with rt := { c.rt with frozen := none, clampWrites := [] } }
  c.rt.clampWrites.foldl (fun c r => c.installClamp r.1 r.2) c'

/-- A row of P13.001. -/
def Chip.clampRow (c : Chip) (row : Nat) : Nat := maskOf ((c.rt.fenced.filter fun x => x / 64 == row).map (· % 64))

end Sys2Proof.Machine
end

