-- ==== Sys2Proof/Machine/BridgeOps.lean ====
section
/-! DEFINITION. The bridge: load/store windows, write merging, prefetch, outcomes and timeouts (R295 to R305). -/

namespace Sys2Proof

/-- The native atomic of a PCIe AtomicOp: opcode, width in bytes and operands; none for a 32-bit one (R301). -/
def PcieAtomic.native? : PcieAtomic → Option (Nat × Nat × List Byte)
  | .fetchAdd b l => if b = 64 ∧ l.length = 8 then some (0x30, 8, l) else none
  | .swap b l => if b = 64 ∧ l.length = 8 then some (0x31, 8, l) else none
  | .cas b x n =>
    if b = 64 ∧ x.length = 8 ∧ n.length = 8 then some (0x32, 8, x ++ n)
    else if b = 128 ∧ x.length = 16 ∧ n.length = 16 then some (0x33, 16, x ++ n)
    else none

end Sys2Proof

namespace Sys2Proof.Machine

/-- The unit of the bridge. -/
def bridgeUnit : Nat := 0xB1

/-! ### Windows (R295 to R297) -/

/-- A window as its rows describe it. -/
structure Win where
  slot : Nat
  base : Nat
  size : Nat
  ep : Nat
  key : BitVec 32
  confirmed : Bool
  dinv : Bool
  prefetch : Bool
  cls : Nat
  toffset : Nat
  deriving DecidableEq, Repr

/-- The window slots of a function. -/
def slotsOf (fn : Nat) : Nat := if fn % 256 = 0 then 64 else 8

/-- The window of a slot, if it is valid. -/
def Chip.win? (c : Chip) (fn w : Nat) : Option Win :=
  let t := c.param 0x29 (0x100 + w) fn
  let p := c.param 0x29 (0x140 + w) fn
  let a := c.param 0x29 (0x180 + w) fn
  if bitOf t 63 then
    some { slot := w, base := bits p 12 28 * 4096, size := 2 ^ bits p 58 6, ep := bits t 40 17, key := BitVec.ofNat 32 (bits t 0 32)
           confirmed := bitOf a 63, dinv := bitOf a 62, prefetch := bitOf a 60, cls := bits a 58 2, toffset := bits a 12 36 * 4096 }
  else none

/-- The valid windows of a function. -/
def Chip.wins (c : Chip) (fn : Nat) : List Win := (List.range (slotsOf fn)).filterMap (c.win? fn)

/-- A window takes part in an access. -/
def Win.meets (w : Win) (off len : Nat) : Bool := w.base < off + len && off < w.base + w.size

/-- The one window in which all bytes of an access lie (R297). -/
def Chip.winAt (c : Chip) (fn off len : Nat) : Option Win :=
  match (c.wins fn).filter fun w => w.meets off len with
  | [w] => if w.base ≤ off ∧ off + len ≤ w.base + w.size ∧ 0 < len then some w else none
  | _ => none

/-- The target offset of a byte at BAR4 offset `a` (R297). -/
def Win.target (w : Win) (a : Nat) : Nat := w.toffset + if w.dinv then (a - w.base) ^^^ 7 else a - w.base

/-- The target offsets of an access, byte by byte. -/
def Win.targets (w : Win) (off len : Nat) : List Nat := (List.range len).map fun i => w.target (off + i)

/-! ### Status rows (R295, R303) -/

/-- P29.1C0 to P29.1FF. -/
def Chip.winStatus (c : Chip) (fn slot : Nat) : Nat := Tab.get c.br.status (slot * 1024 + fn) 0

/-- Set a bit of a window's status: 0 WERR, 1 TOUT. -/
def Chip.setWinStatus (c : Chip) (fn slot bit : Nat) : Chip :=
  { c with br := { c.br with status := Tab.put c.br.status (slot * 1024 + fn) (c.winStatus fn slot ||| 2 ^ bit) } }

/-- The subject of a window (R466, SKIND 7). -/
def winSubject (fn slot : Nat) : Nat := fn * 2 ^ 8 + slot

/-! ### Outcomes (R303) -/

/-- An operation is a host's non-posted request. -/
def BrOp.nonPosted (o : BrOp) : Bool := o.kind == .read || o.kind == .atomic

/-- An operation writes. -/
def BrOp.isWrite (o : BrOp) : Bool := o.kind == .posted || o.kind == .confirmed

/-- The bytes of a finished READ, in target order. -/
def BrOp.fetched (o : BrOp) : List Byte := o.data.flatMap (·.2)

/-- The bytes of a host read in the order of its addresses. -/
def BrOp.answer (o : BrOp) : List Byte := o.pick.map fun i => (o.fetched[i]?).getD 0

/-- A prefetched range arrives: whole lines of 64 bytes are kept, at most 1,024 per host port, the oldest dropped (R302). -/
def Chip.keepLines (c : Chip) (o : BrOp) : Chip :=
  let first := divUp o.target 64
  let n := (o.target + o.length) / 64 - first
  let l := o.fetched
  let new : List Line := (List.range n).map fun i =>
    { fn := o.fn, slot := o.slot, target := 64 * (first + i), ep := o.ep, key := o.key
      bytes := (l.drop (64 * (first + i) - o.target)).take 64, since := c.now }
  let h := o.fn / 256
  let mine := (c.br.lines.filter fun x => x.fn / 256 == h) ++ new
  { c with br := { c.br with lines := (c.br.lines.filter fun x => x.fn / 256 != h) ++ mine.drop (mine.length - 1024) } }

/-- A write of a window failed. -/
def Chip.winWriteError (c : Chip) (o : BrOp) : Chip :=
  (c.raise bridgeUnit 0x100 7 (winSubject o.fn o.slot)).setWinStatus o.fn o.slot 0

/-- WERR stands in a confirmed-mode window: its reads and AtomicOps complete with Completer Abort (R303). -/
def Chip.winBlocked (c : Chip) (fn slot : Nat) : Bool := bitOf (c.param 0x29 (0x180 + slot) fn) 63 && bitOf (c.winStatus fn slot) 0

/-- The outcome of an operation that the bridge still waits for (R302, R303). -/
def Chip.winOutcome (c : Chip) (o : BrOp) (status : Nat) : Chip :=
  if o.nonPosted && c.winBlocked o.fn o.slot then c.emit (.pcie o.fn o.id .completerAbort)
  else match o.kind with
  | .read =>
    if status = 0 then c.emit (.pcie o.fn o.id (.success o.answer))
    else if status = 4 then (c.emit (.pcie o.fn o.id (.poisoned (freeBytes c.freeNow o.pick.length)))).drawn
    else c.emit (.pcie o.fn o.id .completerAbort)
  | .atomic =>
    if status = 0 then c.emit (.pcie o.fn o.id (.success o.bytes)) else c.emit (.pcie o.fn o.id .completerAbort)
  | .speculative => if status = 0 then c.keepLines o else c.bump bridgeUnit .specDropped
  | _ => if status = 0 then c else c.winWriteError o

/-- Remove an operation. -/
def Chip.dropBrOp (c : Chip) (num : Nat) : Chip := { c with br := { c.br with ops := eraseFirst (fun o => o.num == num) c.br.ops } }

/-- An operation ends. The late outcome of a host's request that the bridge has timed out is a fault record only, and its data is
discarded (R303, R304). -/
def Chip.endBrOp (c : Chip) (o : BrOp) (status : Nat) : Chip :=
  let c := c.dropBrOp o.num
  if !o.expired then c.winOutcome o status
  else if o.nonPosted then c.raise bridgeUnit 0x101 7 (winSubject o.fn o.slot)
  else c

/-! ### Starting operations (R298 to R301) -/

/-- The operation of the transport engines that carries a window's operation. -/
def BrOp.op (o : BrOp) : SendOp :=
  let base : SendOp :=
    { fn := o.fn, window := some o.num, dest := o.ep, lo := o.target, lo2 := o.key.toNat, length := o.length }
  match o.kind with
  | .posted => { base with opcode := 0x10, report := 0x10, data := o.bytes, ord := true }
  | .confirmed => { base with opcode := 0x10, report := 0x10, data := o.bytes }
  | .atomic => { base with opcode := o.atomic, report := o.atomic, data := o.bytes }
  | .read => { base with opcode := 0x20, report := 0x20, w3 := mkWord [(o.length % 2 ^ 32, 32)] }
  | .speculative => { base with opcode := 0x20, report := 0x20, w3 := mkWord [(o.length % 2 ^ 32, 32)], spec := true }

/-- An earlier operation of the same window that must be acknowledged before this one starts (R299, R300). -/
def BrOp.blocks (a o : BrOp) : Bool :=
  a.fn == o.fn && a.slot == o.slot && (a.kind == .confirmed || (a.isWrite && !o.isWrite))

/-- The operations of a host port that are accepted before one. -/
def Chip.earlierOps (c : Chip) (num : Nat) : List BrOp := c.br.ops.filter fun o => decide (o.num < num)

/-- An operation may start now: no earlier one of its window stands in its way, and its channel exists or can be created (R25, R299,
R300). -/
def Chip.brReady (c : Chip) (o : BrOp) : Bool :=
  !((c.earlierOps o.num).any fun a => a.blocks o) &&
  !((c.earlierOps o.num).any fun a => a.kind == .posted && o.kind == .posted && !a.sent && a.fn / 256 == o.fn / 256 && a.ep == o.ep && a.cls == o.cls) &&
  c.chanReady (chKey (o.fn / 256) o.ep o.cls)

/-- Start one operation. A read or an AtomicOp that waited is not sent while WERR blocks its window (R303). -/
def Chip.startBrOp (c : Chip) (o : BrOp) : Chip :=
  if o.nonPosted && c.winBlocked o.fn o.slot then c.endBrOp o 0
  else match c.preFail o.ep with
  | some s => c.endBrOp o s
  | none =>
    let c := { c with br := { c.br with ops := mapIf (fun a => a.num == o.num) (fun a => { a with sent := true }) c.br.ops } }
    c.enqueueOp (chKey (o.fn / 256) o.ep o.cls) o.op

/-- Start what may start, in the order accepted. -/
def Chip.runBridge (c : Chip) : Chip :=
  (c.br.ops.map (·.num)).foldl (fun c n =>
    match c.br.ops.find? fun o => o.num == n with
    | some o => if !o.sent && c.brReady o then c.startBrOp o else c
    | none => c) c

/-- The outcome that the transport engines report for a window's operation. -/
def Chip.windowDone (c : Chip) (num status : Nat) (result : BitVec 128) : Chip :=
  match c.br.ops.find? fun o => o.num == num with
  | none => c
  | some o =>
    let o := if o.kind = .atomic then { o with bytes := bytesLE o.length result.toNat } else o
    (c.endBrOp o status).runBridge

/-- Accept an operation of a window. -/
def Chip.acceptBrOp (c : Chip) (o : BrOp) : Chip :=
  let o := { o with num := c.br.nextId, deadline := c.now + 1000 * c.param 0x29 0x001 0 }
  { c with br := { c.br with nextId := c.br.nextId + 1, ops := c.br.ops ++ [o] } }

/-- An operation of a window before its details. -/
def Win.op (w : Win) (fn : Nat) (kind : BrKind) (target len : Nat) : BrOp :=
  { fn := fn, slot := w.slot, kind := kind, ep := w.ep, key := w.key, cls := w.cls, target := target, length := len }

/-! ### Write merging (R298) -/

/-- Send a merge as one WRITE packet. -/
def Chip.sendMerge (c : Chip) (h : Nat) : Chip :=
  match Tab.get? c.br.merges h with
  | none => c
  | some m =>
    let c := { c with br := { c.br with merges := Tab.del c.br.merges h } }
    c.acceptBrOp { fn := m.fn, slot := m.slot, kind := .posted, ep := m.ep, key := m.key, cls := m.cls, target := m.target
                   length := m.bytes.length, bytes := m.bytes }

/-- Cut ascending bytes at the 4 KiB boundaries of the target; fuel at least the bytes. -/
def cutPages : Nat → Nat → List Byte → List (Nat × List Byte)
  | 0, _, _ => []
  | _ + 1, _, [] => []
  | fuel + 1, t, l =>
    let n := min l.length (4096 - t % 4096)
    (t, l.take n) :: cutPages fuel (t + n) (l.drop n)

/-- A posted run joins the open merge of the host port where it continues it within one target page, or begins a new one. -/
def Chip.mergeRun (c : Chip) (fn : Nat) (w : Win) (r : Nat × List Byte) : Chip :=
  let h := fn / 256
  let joins (m : Merge) : Bool :=
    m.fn == fn && m.slot == w.slot && m.ep == w.ep && m.key == w.key && m.target + m.bytes.length == r.1 && r.1 % 4096 != 0
  let fresh : Merge := { fn := fn, slot := w.slot, ep := w.ep, key := w.key, cls := w.cls, target := r.1, bytes := r.2, since := c.now }
  let put (c : Chip) (m : Merge) : Chip := { c with br := { c.br with merges := Tab.put c.br.merges h m } }
  let c := match Tab.get? c.br.merges h with
    | some m => if joins m then put c { m with bytes := m.bytes ++ r.2 } else put (c.sendMerge h) fresh
    | none => put c fresh
  if c.param 0x29 0x003 0 = 0 ∨ (r.1 + r.2.length) % 4096 = 0 then c.sendMerge h else c

/-- Insert a (target, byte) pair in rising order. -/
def insertByte (t : Nat) (b : Byte) : List (Nat × Byte) → List (Nat × Byte)
  | [] => [(t, b)]
  | (u, x) :: r => if t < u then (t, b) :: (u, x) :: r else (u, x) :: insertByte t b r

/-- Contiguous ascending runs. -/
def runsOf : List (Nat × Byte) → List (Nat × List Byte)
  | [] => []
  | (t, b) :: r => match runsOf r with
    | (u, l) :: q => if u = t + 1 then (t, b :: l) :: q else (t, [b]) :: (u, l) :: q
    | [] => [(t, [b])]

/-- The runs that a host write makes at the target, page by page. -/
def Win.runs (w : Win) (off : Nat) (l : List Byte) : List (Nat × List Byte) :=
  let pairs := ((w.targets off l.length).zip l).foldl (fun a r => insertByte r.1 r.2 a) []
  (runsOf pairs).flatMap fun r => cutPages r.2.length r.1 r.2

/-- Lines that a write of the host port overlaps at the same endpoint and key are dropped; a prefetch under way is stale (R302). -/
def Chip.dropOverlapped (c : Chip) (h ep : Nat) (key : BitVec 32) (runs : List (Nat × List Byte)) : Chip :=
  let meets (t n : Nat) : Bool := runs.any fun r => decide (r.1 < t + n ∧ t < r.1 + r.2.length)
  { c with br := { c.br with
      lines := c.br.lines.filter fun x => !(x.fn / 256 == h && x.ep == ep && x.key == key && meets x.target 64)
      ops := mapIf (fun o => o.kind == .speculative && o.fn / 256 == h && o.ep == ep && o.key == key && meets o.target o.length)
        (fun o => { o with expired := true }) c.br.ops } }

/-! ### Host accesses (R297 to R302) -/

/-- BAR4 is served: the function is ready (R103), its link is up. -/
def Chip.bar4Served (c : Chip) (fn : Nat) : Bool := c.hasHost (fn / 256) && c.fnReady fn

/-- BAR4_WRITE. -/
def Chip.bar4Write (c : Chip) (fn off : Nat) (l : List Byte) : Chip :=
  let h := fn / 256
  match (if c.bar4Served fn then c.winAt fn off l.length else none) with
  | none => if c.hasHost h then c.bump (60 + h) .windowDiscard else c
  | some w =>
    let runs := w.runs off l
    let c := c.dropOverlapped h w.ep w.key runs
    if w.confirmed then
      let c := c.sendMerge h
      (runs.foldl (fun c r => c.acceptBrOp { w.op fn .confirmed r.1 r.2.length with bytes := r.2 }) c).runBridge
    else (runs.foldl (fun c r => c.mergeRun fn w r) c).runBridge

/-- A kept line that holds a target byte now. -/
def Chip.lineByte (c : Chip) (fn slot t : Nat) : Option Byte :=
  match c.br.lines.find? fun x => x.fn == fn && x.slot == slot && x.target ≤ t && t < x.target + 64 && c.now < x.since + c.param 0x29 0x002 0 with
  | some x => x.bytes[t - x.target]?
  | none => none

/-- All bytes of a read, where they lie wholly in kept lines. -/
def Chip.fromLines (c : Chip) (fn : Nat) (w : Win) (off len : Nat) : Option (List Byte) :=
  (w.targets off len).foldr (fun t r => match c.lineByte fn w.slot t, r with
    | some b, some l => some (b :: l)
    | _, _ => none) (some [])

/-- The prefetch that the bridge may add after a read whose last target byte is `last` (R302): whether and how far is its own
choice, a free value, up to 512 bytes, the window's end and the target's 4 KiB boundary. -/
def Chip.addPrefetch (c : Chip) (fn : Nat) (w : Win) (last : Nat) : Chip :=
  if !w.prefetch ∨ c.param 0x29 0x002 0 = 0 then c
  else
    let t := last + 1
    let room := min 512 (min (w.toffset + w.size - t) ((4096 - t % 4096) % 4096))
    let n := c.freeNow % (room + 1)
    let c := c.drawn
    if n = 0 then c else c.acceptBrOp (w.op fn .speculative t n)

/-- A read of BAR4: it ends the open merge of the host port, whatever becomes of it (R298). -/
def Chip.readWindow (c : Chip) (fn id off len : Nat) : Chip :=
  let c := c.sendMerge (fn / 256)
  match (if c.bar4Served fn then c.winAt fn off len else none) with
  | none => (c.emit (.pcie fn id .unsupported)).runBridge
  | some w =>
    if c.winBlocked fn w.slot then (c.emit (.pcie fn id .completerAbort)).runBridge
    else match c.fromLines fn w off len with
      | some l => (c.emit (.pcie fn id (.success l))).runBridge
      | none =>
        let ts := w.targets off len
        let lo := ts.min?.getD 0
        let hi := ts.max?.getD 0
        let c := c.acceptBrOp { w.op fn .read lo (hi + 1 - lo) with id := id, pick := ts.map (· - lo) }
        (c.addPrefetch fn w hi).runBridge

/-- An AtomicOp to BAR4: it ends the open merge likewise. -/
def Chip.atomicWindow (c : Chip) (fn id off : Nat) (a : PcieAtomic) : Chip :=
  let c := c.sendMerge (fn / 256)
  match a.native? with
  | none => (c.emit (.pcie fn id .unsupported)).runBridge
  | some (op, n, l) =>
    match (if c.bar4Served fn then c.winAt fn off n else none) with
    | none => (c.emit (.pcie fn id .unsupported)).runBridge
    | some w =>
      if w.dinv then (c.emit (.pcie fn id .unsupported)).runBridge
      else if c.winBlocked fn w.slot then (c.emit (.pcie fn id .completerAbort)).runBridge
      else
        let t := w.target off
        let c := c.dropOverlapped (fn / 256) w.ep w.key [(t, l.take n)]
        (c.acceptBrOp { w.op fn .atomic t n with id := id, atomic := op, bytes := l }).runBridge

/-- The host port has room for one more open non-posted request: fewer than 1,024 accepted ones have not ended, and none waits before
(R305). -/
def Chip.hasCredit (c : Chip) (h : Nat) : Bool :=
  !(c.br.waiting.any fun r => r.fn / 256 == h) && (c.br.ops.filter fun a => a.nonPosted && !a.expired && a.fn / 256 == h).length < 1024

/-- A non-posted request of a host is carried out. -/
def Chip.hostRequest (c : Chip) (r : HostReq) : Chip :=
  match r.op with
  | none => c.readWindow r.fn r.id r.off r.len
  | some a => c.atomicWindow r.fn r.id r.off a

/-- It waits at the host, without credits, while the port has no room (R305). -/
def Chip.takeHostRequest (c : Chip) (r : HostReq) : Chip :=
  if c.hasCredit (r.fn / 256) then c.hostRequest r else { c with br := { c.br with waiting := c.br.waiting ++ [r] } }

/-- BAR4_READ. -/
def Chip.bar4Read (c : Chip) (fn id off len : Nat) : Chip := c.takeHostRequest { fn := fn, id := id, off := off, len := len }

/-- BAR4_ATOMICOP. -/
def Chip.bar4Atomic (c : Chip) (fn id off : Nat) (a : PcieAtomic) : Chip := c.takeHostRequest { fn := fn, id := id, off := off, op := some a }

/-- The requests that wait are taken up in order as far as there is room. -/
def Chip.hostCredits (c : Chip) : Chip :=
  let l := c.br.waiting
  l.foldl Chip.takeHostRequest { c with br := { c.br with waiting := [] } }

/-! ### Timers (R298, R302, R303) -/

/-- WRITE_GATHER_EXPIRY: a merge has waited for P29.003. -/
def Chip.gatherExpiry (c : Chip) (h : Nat) : Chip :=
  match Tab.get? c.br.merges h with
  | some m => if m.since + c.param 0x29 0x003 0 ≤ c.now then (c.sendMerge h).runBridge else c
  | none => c

/-- PREFETCH_EXPIRY: lines older than P29.002 are dropped. -/
def Chip.prefetchExpiry (c : Chip) (h : Nat) : Chip :=
  { c with br := { c.br with
      lines := c.br.lines.filter fun x => x.fn / 256 != h || decide (c.now < x.since + c.param 0x29 0x002 0) } }

/-- BRIDGE_TIMEOUT: no result within P29.001 (R303); an operation not yet sent never is. -/
def Chip.bridgeTimeout (c : Chip) (num : Nat) : Chip :=
  match c.br.ops.find? fun o => o.num == num with
  | none => c
  | some o =>
    if o.expired ∨ c.now < o.deadline then c
    else
      let c := if o.sent then { c with br := { c.br with ops := mapIf (fun a => a.num == num) (fun a => { a with expired := true }) c.br.ops } }
        else c.dropBrOp num
      let c := if o.kind = .speculative then c.bump bridgeUnit .specDropped else c.setWinStatus o.fn o.slot 1
      let c := if o.nonPosted then c.emit (.pcie o.fn o.id .completerAbort) else c
      let c := if o.isWrite then c.raise bridgeUnit 0x101 7 (winSubject o.fn o.slot) else c
      c.runBridge

/-! ### The window rows and functions -/

/-- Clearing VALID drops the window's prefetched data (R296). -/
def Chip.windowCleared (c : Chip) (fn slot : Nat) : Chip :=
  { c with br := { c.br with
      lines := c.br.lines.filter fun x => !(x.fn == fn && x.slot == slot)
      ops := mapIf (fun o => o.kind == .speculative && o.fn == fn && o.slot == slot) (fun o => { o with expired := true }) c.br.ops } }

/-- A write that sets VALID passes R296: the rows as they are, the target row as given. -/
def Chip.windowOk (c : Chip) (fn slot : Nat) : Bool :=
  let p := c.param 0x29 (0x140 + slot) fn
  let a := c.param 0x29 (0x180 + slot) fn
  let log := bits p 58 6
  let base := bits p 12 28 * 4096
  let bar := if fn % 256 = 0 then (c.port (fn / 256)).bar4Pf else (c.port (fn / 256)).bar4Vf
  slot < slotsOf fn && log ≤ bar && base % 2 ^ log == 0 &&
  !((c.wins fn).any fun w => w.slot != slot && w.base < base + 2 ^ log && base < w.base + w.size) &&
  (!bitOf a 60 || bitOf a 61) && bits a 58 2 != 3

/-- The bridge's block reset (R484): open requests end with Completer Abort, posted writes not yet carried are discarded. -/
def Chip.bridgeReset (c : Chip) : Chip :=
  let c := c.br.ops.foldl (fun c o => if o.nonPosted && !o.expired then c.emit (.pcie o.fn o.id .completerAbort) else c) c
  { c with br := { c.br with ops := [], merges := [], lines := [] } }

end Sys2Proof.Machine
end

