-- ==== Sys2Proof/Machine/CounterOps.lean ====
section
/-! DEFINITION. The performance counters: reads, occupancy, the sampling tick and streaming (R432, R447 to R451). -/

namespace Sys2Proof.Machine

/-- The value of a unit counter: object = unit, element as `Config.counterElement` numbers the named counters (R448). -/
def Chip.unitCounter (c : Chip) (unit e : Nat) : Word :=
  let hit (r : CounterId × Word) : Bool := r.1.unit == unit && Config.counterElement r.1.ctr.index == e
  (((c.ctr.events ++ c.ctr.occupancy).find? hit).map (·.2)).getD 0

/-- A function counter (R449). -/
def Chip.fnCounter (c : Chip) (kind fn : Nat) : Word := Tab.get c.ctr.functions (kind * 1024 + fn) 0

/-- A parameter number names a present counter (R448, R450). -/
def presentCounter (v : Variant) (n : Nat) : Bool :=
  pArea n == 0x31 &&
  (if pObj n < 0x0E0 then unitPresent v (pObj n) && decide (pElem n < countersOf (pObj n))
   else decide (0x300 ≤ pObj n ∧ pObj n < 0x307) && decide (pElem n / 256 < v.hostPorts))

/-- The value of a counter by its parameter number. -/
def Chip.counterOf (c : Chip) (n : Nat) : Word :=
  if pObj n < 0x0E0 then c.unitCounter (pObj n) (pElem n) else c.fnCounter (pObj n - 0x300) (pElem n)

/-! ### The sampling tick (R432, R448) -/

/-- The occupancies that the link chapter names, by counter and value in cells (R389). -/
def Chip.occupancies (c : Chip) : List (CounterId × Nat) :=
  c.links.flatMap fun l =>
    ((⟨l.1, Ctr.poolOccupancy⟩ : CounterId), l.2.rx.poolTotal) ::
      l.2.rx.reserveUsed.map fun r => ((⟨l.1, Ctr.reserveOccupancy r.1⟩ : CounterId), r.2)

/-- The threshold N of an occupancy counter (R448). -/
def Chip.threshold (c : Chip) (id : CounterId) : Nat := c.param 0x31 (0x200 + id.unit) (Config.counterElement id.ctr.index)

/-- An occupancy counter adds the ticks. -/
def Chip.occupancyTick (c : Chip) (id : CounterId) (ticks : Nat) : Chip :=
  let old := getCounter id c.ctr.occupancy
  { c with ctr := { c.ctr with
      occupancy := addCounter id (BitVec.ofNat 64 ticks) c.ctr.occupancy
      overflow := if old.toNat + ticks < 2 ^ 64 then c.ctr.overflow else insertNat (overflowParam id) c.ctr.overflow } }

/-- XOFF per VC counts the ticks of the map sent (R389). -/
def Chip.xoffTick (c : Chip) (ticks : Nat) : Chip :=
  c.links.foldl (fun c l => (setBits 23 l.2.rx.xoff.toNat).foldl (fun c v => c.bump l.1 (.xoffCycles v) ticks) c) c

/-- The timebase runs: power is on and the chip is not held in reset (R432). -/
def Chip.ticking (c : Chip) : Bool :=
  match c.boot.phase with
  | .held | .tripped => false
  | _ => true

/-- SAMPLING_TICK: time passes without any other step; fabric time advances 4 counts a tick. -/
def Chip.samplingTick (c : Chip) (ticks : Nat) : Chip :=
  if !c.ticking ∨ ticks = 0 then c
  else
    let c := c.occupancies.foldl (fun c r => if c.threshold r.1 < r.2 then c.occupancyTick r.1 ticks else c) (c.xoffTick ticks)
    { c with tb := { c.tb with now := c.tb.now + ticks, time := c.tb.time + BitVec.ofNat 64 (4 * ticks) } }

/-! ### Streaming (R450, R451) -/

/-- The host port whose PF reads the trace capture FIFO (R111). -/
def Chip.traceHost (c : Chip) : Option Nat := (List.range c.variant.hostPorts).find? fun h => c.fmRight h

/-- The valid rows of P31.F10: row and counter. -/
def Chip.streamRows (c : Chip) : List (Nat × Nat) :=
  (List.range 256).filterMap fun i =>
    let x := c.param 0x31 0xF10 i
    if bitOf x 63 then some (i, bits x 0 32) else none

/-- The two words that begin a part (R451). -/
def partHead (time : Word) (pseq part nparts first count : Nat) : List Word :=
  [time, mkWord [(pseq, 32), (part, 24), (nparts, 16), (first, 8), (count, 0)]]

/-- The number of the present period (R451). -/
def Chip.streamPeriod (c : Chip) : Nat := c.tb.time.toNat / (c.param 0x31 0xF11 0 * 4000)

/-- The parts of a period: every part's words. -/
def Chip.streamParts (c : Chip) (size : Nat) : List (List Word) :=
  let rows := c.streamRows
  let parts := chunksOf size rows.length rows
  let pseq := c.streamPeriod % 2 ^ 32
  parts.zipIdx.map fun (l, i) =>
    partHead c.tb.time pseq i parts.length ((l.head?.map (·.1)).getD 0) l.length ++ l.map fun r => c.counterOf r.2

/-- Entries or periods not delivered. -/
def Chip.streamDrop (c : Chip) (n : Nat) : Chip :=
  { c with ctr := { c.ctr with streamDrops := c.ctr.streamDrops + BitVec.ofNat 64 n } }

/-- One part as an entry of the host ring; full after CI has been read, it is dropped (R132, R451). -/
def Chip.ringEntry (c : Chip) (h : Nat) (l : List Word) : Chip :=
  let size := 2 ^ c.param 0x31 0xF15 0
  if size ≤ (c.ctr.ringPi - c.ctr.ringCi).toNat then c.streamDrop 1
  else
    let bytes := ((l ++ List.replicate 8 (0 : Word)).take 8).flatMap Word.le
    let c := c.emit (.dma h (h * 256) (c.param 0x31 0xF13 0 + 64 * (c.ctr.ringPi.toNat % size)) bytes false)
    let c := c.emit (.indexWrite h (h * 256) (c.param 0x31 0xF14 0) 0 (c.ctr.ringPi + 1))
    { c with ctr := { c.ctr with ringPi := c.ctr.ringPi + 1 } }

/-- STREAM_SAMPLE: a period's sampling tick, at most one in each period; `ci` is the host ring's consumer index as read. -/
def Chip.streamSample (c : Chip) (ci : BitVec 32) : Chip :=
  let now := (c.param 0x31 0xF11 0, c.streamPeriod)
  if !c.clusterUp 5 ∨ c.ctr.sampled = some now then c
  else
    let c := { c with ctr := { c.ctr with sampled := some now } }
    match c.param 0x31 0xF12 0 with
    | 1 => (c.streamParts 62).foldl (fun c l => c.putFifo 9 ((c.fifo 9).packet (fifoCap 9) l)) c
    | 2 =>
      let c := { c with ctr := { c.ctr with ringCi := ci } }
      match c.traceHost with
      | some h => (c.streamParts 6).foldl (fun c l => c.ringEntry h l) c
      | none => c.streamDrop (c.streamParts 6).length
    | _ => c

end Sys2Proof.Machine
end

