-- ==== Sys2Proof/Machine/FaultOps.lean ====
section
/-! DEFINITION. Faults as they are reported, cleared, recorded and sent on (R452 to R473). -/

namespace Sys2Proof.Machine

/-- The cause is one that the catalogue names for the unit (R464, R478, R500); the others have one fixed subject. -/
def namedCause (u cause : Nat) : Bool :=
  cause ≤ 4 ||
  (if u < 0x3C then cause ≤ 0x106
   else if u < 0x40 then cause ≤ 0x103
   else if u < 0x5E then cause ≤ 0x102
   else if u < 0x70 then cause ≤ 0x103
   else if 0x80 ≤ u && u < 0x88 then cause == 0x100
   else if u == 0x90 then cause ≤ 0x103
   else if u == 0x91 then cause == 0x100 || cause == 0x102
   else if u < 0x96 && 0x90 ≤ u then cause == 0x100
   else if u == 0xA0 then cause ≤ 0x106
   else if u == 0xA1 then cause == 0x100
   else if u == 0xA3 then cause ≤ 0x101
   else if u == 0xB0 || u == 0xB1 || u == 0xC0 || u == 0xC1 then cause ≤ 0x101
   else if 0xD0 ≤ u && u < 0xE0 then cause ≤ 0x101
   else false)

/-- DETAIL0 of an occurrence reported from outside (R467): a SECDED syndrome for causes 0x001 to 0x003. -/
def Chip.reportDetail (c : Chip) (cause : Nat) : Word :=
  if 1 ≤ cause ∧ cause ≤ 3 then BitVec.ofNat 64 (Config.secdedSyndrome c.free).toNat else 0

/-- The packets that wait for the two ports of a lane macro that has stalled go as from a port that is down (R20, R313). -/
def Chip.stallPorts (c : Chip) (unit : Nat) : Chip :=
  if 0x40 ≤ unit ∧ unit < 0x5E ∧ c.macroStalled (unit - 0x40) then
    (c.rerouteAll (2 * (unit - 0x40))).rerouteAll (2 * (unit - 0x40) + 1)
  else c

/-- FAULT_OCCURRENCE: a unit reports a source (R454, R455). For a condition source the condition becomes present. A record has no
SKIND of 13 to 15 (R10, R466). -/
def Chip.reportFault (c : Chip) (unit cause skind subject : Nat) : Chip :=
  if !c.ticking ∨ 13 ≤ skind then c
  else
    let named := namedCause unit cause
    let k := if named then skind else 11
    let s := if named then subject else unit
    let d := c.reportDetail cause
    let c := c.drawn
    if (sourceInfo unit cause).cond && isCause unit cause then (c.setCond unit cause true k s d).stallPorts unit
    else c.raise unit cause k s d

/-- HANDSHAKE_STALL: cause 0x004 of the unit (R464). The unit counts as stalled until its block reset or a chip reset (DESIGN CHOICE:
the spec does not say when a stall is over). -/
def Chip.stall (c : Chip) (unit : Nat) : Chip :=
  if c.ticking then
    (({ c with flt := { c.flt with stalled := insertNat unit c.flt.stalled } } : Chip).raise unit 4 11 unit).stallPorts unit
  else c

/-- A status row as it reads (R462). -/
def Source.word (s : Source) : Word :=
  mkWord [(s.occur, 32), (natOfBool s.held, 2), (natOfBool s.now, 1), (natOfBool s.pend, 0)]

/-- A write of a status row: PEND clears when written 1 while NOW is 0 (R463). -/
def Source.cleared (s : Source) (v : Nat) : Source := if bitOf v 0 && !s.now then { s with pend := false } else s

/-- SOURCE_STATUS_CLEAR of a cause of a present unit. -/
def Chip.clearStatus (c : Chip) (unit cause v : Nat) : Chip := c.setSrc unit cause ((c.src unit cause).cleared v)

/-! ### Records on their way out (R470, R471) -/

/-- The endpoints that records are sent to: the valid rows of P30.F20. -/
def Chip.recordTargets (c : Chip) : List Nat :=
  (List.range 4).filterMap fun i => let x := c.param 0x30 0xF20 i; if bitOf x 31 then some (bits x 0 17) else none

/-- The two halves of a record, sent once to an endpoint (R471). -/
def Chip.sendRecord (c : Chip) (dst : Nat) (l : List Word) : Chip :=
  let w (i : Nat) : Word := (l[i]?).getD 0
  (c.injectShim 0x43 dst (w 0) (w 1) (w 2) (w 3)).injectShim 0x44 dst (w 4) (w 5) (w 6) (w 7)

/-- RECORD_TO_FIFO: the FLT cluster takes the next closed record (R470); its slot becomes free (R469). -/
def Chip.recordOut (c : Chip) : Chip :=
  if !c.up || !c.clusterUp 4 then c
  else match c.flt.closedRecs with
    | [] => c
    | r :: rest =>
      let l := recWords r
      let c : Chip := { c with flt := { c.flt with closedRecs := rest } }
      let c := c.putFifo 8 ((c.fifo 8).packet (fifoCap 8) l)
      let c := if c.param 0x30 0xF21 0 ≤ r.cls then c.recordTargets.foldl (fun c d => c.sendRecord d l) c else c
      c.closeUnrecorded

/-- KERF_WINDOW_CLOSE: every record whose time has come closes (R468). -/
def Chip.closeRecords (c : Chip) : Chip := if c.ticking then c.kerfClose else c

/-! ### Block resets (R458, R459) -/

/-- The conditions of uncontained sources of a unit are gone after its block reset (R453). -/
def Chip.restoreUnit (c : Chip) (u : Nat) : Chip :=
  { c with flt := { c.flt with stalled := c.flt.stalled.erase u, sources := Tab.mapVals c.flt.sources fun k s =>
      if k / 4096 = u ∧ (sourceInfo u (k % 4096)).cls = 3 then { s with now := false } else s } }

/-- A unit leaves block reset; a processor cluster leaves it by its restart (R484). -/
def Chip.leaveReset (c : Chip) (u : Nat) : Chip :=
  ({ c with flt := { c.flt with inReset := c.flt.inReset.erase u } } : Chip).restoreUnit u

/-- BLOCK_RESET_COMPLETE of a unit that is not a cluster. -/
def Chip.resetComplete (c : Chip) (u : Nat) : Chip :=
  if c.flt.inReset.contains u then
    let c := c.leaveReset u
    if 0xD0 ≤ u ∧ u < 0xE0 then { c with pace := { c.pace with excluded := c.pace.excluded.erase (u - 0xD0) } } else c
  else c

/-- A held unit is released (P30.F05); a held cluster goes on with the restart that its block reset is. -/
def Chip.releaseUnit (c : Chip) (u : Nat) : Chip :=
  let c := c.setHeld u false
  let c : Chip := { c with flt := { c.flt with heldUnits := c.flt.heldUnits.erase u } }
  if 0x90 ≤ u ∧ u < 0x96 then
    { c with
      flt := { c.flt with inReset := insertNat u c.flt.inReset }
      fw := { c.fw with clusters := Tab.set c.fw.clusters 0 (u - 0x90) 1 } }
  else
    let c := c.restoreUnit u
    if 0xD0 ≤ u ∧ u < 0xE0 then { c with pace := { c.pace with excluded := c.pace.excluded.erase (u - 0xD0) } } else c

end Sys2Proof.Machine
end

