-- ==== Sys2Proof/Machine/LaneOps.lean ====
section
/-! DEFINITION. Serial lanes: hunting and lock, FEC counts, rate matching, equalisation, pattern checkers (R408 to R431). -/

namespace Sys2Proof

/-- The presets of R425 as rows laid out like P18.028. -/
def presetRows : List (List Int) :=
  [[0, 0, 63, 0], [0, 0, 55, -8], [0, 0, 47, -16], [0, -4, 51, -8], [0, -4, 43, -16], [0, -8, 47, -8],
   [0, -8, 39, -16], [2, -8, 45, -8], [2, -8, 37, -16], [4, -12, 39, -8], [0, -4, 59, 0]]

/-- Four taps laid out as P18.028. -/
def coeffRow (l : List Int) : Nat := natBE (l.map fun i => BitVec.ofNat 8 (twos 8 i))

/-- The row of a preset, if it has one (R425). -/
def presetRow? (n : Nat) : Option Nat := presetRows[n]?.map coeffRow

end Sys2Proof

namespace Sys2Proof.Machine

/-- A lane that the variant has (R408). -/
def Chip.hasLane (c : Chip) (n : Nat) : Bool := c.hasPort (n / 2)

/-- Both locks of R393's LOCKED. -/
def Lane.locked (x : Lane) : Bool := x.blockLock && x.markerLock

/-- Lanes of a port whose own receiver holds block and marker lock (R393). -/
def Chip.lockedLanes (c : Chip) (p : Nat) : Nat := maskOf ((lposOf 3).filter fun l => (c.lane (laneOf p l)).locked)

/-- Lanes of a port with block lock. -/
def Chip.blockLanes (c : Chip) (p : Nat) : Nat := maskOf ((lposOf 3).filter fun l => (c.lane (laneOf p l)).blockLock)

/-- The receiver starts hunting anew, at a line rate. -/
def Lane.hunting (x : Lane) (rate : Nat) : Lane :=
  { x with
    bitLock := false, blockLock := false, markerLock := false, headers := [], runHeaders := 0, markerMiss := 0, rxQueue := [], rate := rate }

/-- The generic transmitter starting point, preset 5 (R427). -/
def genericCoeffs : Nat := (presetRow? 5).getD 0

/-- The generic receiver peaking code (R426). -/
def genericPeaking : Nat := 12

/-- The receiver's starting point at an entry to Pattern, and the transmitter's as it leaves idle (R412, R413, R426). -/
def Chip.lanePattern (c : Chip) (n : Nat) : Chip :=
  let k := if c.calInvalid then genericPeaking else c.param 0x02 0x011 n
  (c.updLane n fun x => { x.hunting 0 with polInv := false, peaking := k, dfe := List.replicate 12 0, fill := 16 }).startLane n

/-- The transmitter's starting point at an entry to Equalise (R427). -/
def Chip.laneEqualise (c : Chip) (n : Nat) : Chip :=
  let o := c.param 0x18 0x029 n
  let keep := bitOf o 63
  let start := if keep then bits o 0 32 else if c.calInvalid then genericCoeffs else c.param 0x02 0x010 n
  c.updLane n fun x =>
    { x with coeffs := BitVec.ofNat 32 start, preset := if !keep && c.calInvalid then 5 else 255, rseq := none, rstatus := 0, overridden := keep }

/-! ### Lock (R418 to R421) -/

/-- Lock of a kind is lost; the lane hunts on (R420). -/
def Lane.lose (x : Lane) : LockKind → Lane
  | .bit => { x with bitLock := false, blockLock := false, markerLock := false, runHeaders := 0 }
  | .block => { x with blockLock := false, markerLock := false, runHeaders := 0 }
  | .marker => { x with markerLock := false, markerMiss := 0 }

/-- One tested header: an invalid one slips the phase, unless hunting is manual or lock is held, and restarts the count; 16 invalid
ones of the last 64 end block lock (R418, R420, R421). -/
def Lane.testHeader (manual : Bool) (x : Lane) (good : Bool) : Lane :=
  let x := { x with headers := (good :: x.headers).take 64 }
  if x.blockLock then (if 16 ≤ (x.headers.filter (· == false)).length then x.lose .block else x)
  else if good then { x with runHeaders := x.runHeaders + 1, blockLock := 64 ≤ x.runHeaders + 1, bitLock := x.bitLock || 64 ≤ x.runHeaders + 1 }
  else { x with runHeaders := 0, phase := if manual then x.phase else (x.phase + 1) % 5440 }

/-- Headers tested on a lane (R418). -/
def Chip.testHeaders (c : Chip) (n : Nat) (l : List Bool) : Chip :=
  let manual := c.param 0x18 0x025 n == 1
  c.updLane n fun x => l.foldl (Lane.testHeader manual) x

/-- A manual slip of the phase (R421). -/
def Chip.bitSlip (c : Chip) (n k : Nat) : Chip × Nat :=
  if c.param 0x18 0x025 n = 1 then (c.updLane n fun x => { x with phase := (x.phase + k) % 5440, runHeaders := 0 }, 0)
  else (c, 7)

/-! ### FEC and rate matching (R411, R416, R423) -/

/-- What the elastic buffer makes of its fill: none = overflow or underflow (R423). -/
def elastic (fill : Int) (filler : Bool) : Option Nat :=
  if fill < 0 ∨ 32 < fill then none
  else if 20 < fill then some (fill.toNat - natOfBool filler)
  else if fill < 12 then some (fill.toNat + 1)
  else some fill.toNat

/-- The counts of a codeword that FEC has decoded: `errors` symbol errors (R411, R416). -/
def Chip.countCodeword (c : Chip) (n errors : Nat) (blocks : List PortBlock) : Chip :=
  if errors ≤ 14 then
    (c.bump (macroOf n) (.fecCorrected (n % 4)) errors).bump (macroOf n) (.unknownControl (n % 4)) (blocks.filter PortBlock.reserved).length
  else
    let c := c.bump (macroOf n) (.fecUncorrectable (n % 4))
    let c := c.updLink (n / 2) fun l => { l with badWords := Tab.set l.badWords 0 (n % 2) (Tab.get l.badWords (n % 2) 0 + 1) }
    c.raise (macroOf n) 0x100 2 n

/-- The elastic buffer of a port follows a fill (R423): an overflow or underflow raises the macro's source, spoils the slots concerned and
brings the buffer back to 16; the flag says that it happened. -/
def Chip.elasticFill (c : Chip) (n : Nat) (fill : Int) (filler : Bool) : Chip × Bool :=
  let used := (c.tport (n / 2)).lanes ||| 2 ^ (n % 2)
  let setFill (c : Chip) (k : Nat) : Chip := (lposOf used).foldl (fun c l => c.updLane (laneOf (n / 2) l) fun x => { x with fill := k }) c
  match elastic fill filler with
  | some k => (setFill c k, false)
  | none => ((setFill c 16).raise (macroOf n) 0x101 11 (macroOf n), true)

/-- Expected markers missed in a row after a codeword (R420): one that begins a period must show the marker, uncorrupted. -/
def Lane.misses (x : Lane) (blocks : List PortBlock) : Nat :=
  if x.rxSlot ≠ 0 ∨ blocks.isEmpty then x.markerMiss
  else if (blocks.head?.map fun b => b.isType 0x4B).getD false then 0 else x.markerMiss + 1

/-- The blocks of a decoded codeword take their slots on the lane and go on from there (R411, R413, R416, R417). The lanes that
carry an Active port at x2 are aligned; a lane in training hands on its own blocks. -/
def Chip.takeCodeword (c : Chip) (n : Nat) (blocks : List PortBlock) (h : Nat) : Chip :=
  let p := n / 2
  let t := c.tport p
  let c := c.updLane n fun x =>
    let k := x.misses blocks
    ({ x with rxScramble := h, markerMiss := k } : Lane).takeBlocks blocks
  c.deskew p (t.state == .active && t.lanes == 3)

/-- A codeword is decoded (R416): `errors` symbol errors, the blocks it carries, and the fill that it brings about. -/
def Chip.codewordDecode (c : Chip) (n errors : Nat) (blocks : List LaneBlock) (fill : Int) : Chip :=
  if !c.hasLane n ∨ !(c.lane n).markerLock then c
  else
    let undecided := !bitOf (c.tport (n / 2)).pmark (n % 2)
    let r := readBlocks undecided (decide (14 < errors)) (c.lane n).rxScramble blocks
    let c := c.countCodeword n errors r.1
    let e := c.elasticFill n fill (r.1.any fun b => b.isType 0x2D)
    e.1.takeCodeword n (if e.2 then r.1.map fun b => { b with bad := true } else r.1) r.2

/-! ### Equalisation of the own transmitter (R397, R425, R427) -/

/-- Step per tap of a request, bytes 12 to 15, added to the coefficients; none when a result leaves R425. -/
def stepped (coeffs : Nat) (steps : List Byte) : Option Nat :=
  let taps := (List.range 4).map fun i => coeffByte coeffs i + ofTwos 8 ((steps[i]?).getD 0).toNat
  if taps.all (fun t => decide (-128 ≤ t ∧ t < 128)) && coeffsOk (coeffRow taps) then some (coeffRow taps) else none

/-- A request applied: the coefficients and the preset in use, or none where it is refused (R397, R425, R427). -/
def Lane.applyRequest (x : Lane) (body : List Byte) : Option (Nat × Nat) :=
  if x.overridden then none
  else match ((body[1]?).getD 0).toNat with
    | 0 => some (x.coeffs.toNat, x.preset)
    | 1 => (presetRow? ((body[2]?).getD 0).toNat).map fun r => (r, ((body[2]?).getD 0).toNat)
    | 2 => (stepped x.coeffs.toNat ((body.drop 3).take 4)).map fun r => (r, 255)
    | _ => none

/-- A request on a lane: a repeated RSEQ changes nothing more (R397). -/
def Lane.takeRequest (x : Lane) (body : List Byte) : Lane :=
  let q := ((body[0]?).getD 0).toNat
  if x.rseq = some q then x
  else match x.applyRequest body with
    | some (r, n) => { x with rseq := some q, rstatus := 0, coeffs := BitVec.ofNat 32 r, preset := n }
    | none => { x with rseq := some q, rstatus := 1 }

/-- The response body, bytes 9 to 31. -/
def Lane.response (x : Lane) : List Byte :=
  [BitVec.ofNat 8 (x.rseq.getD 0), BitVec.ofNat 8 x.rstatus, BitVec.ofNat 8 x.preset] ++ bytesBE 4 x.coeffs.toNat ++ zeros 16

/-! ### Loops and test patterns (R428, R429) -/

/-- What a lane of a Disabled port transmits: its own pattern, which only far-end loop replaces and near-end parallel loop keeps from
the line (R392, R428, R429). -/
def Chip.lineSignal (c : Chip) (n : Nat) : LineSignal :=
  let g := c.param 0x18 0x021 n
  match c.param 0x18 0x020 n with
  | 2 => .idle
  | 3 => .returned
  | _ => if bits g 0 3 = 0 then .idle else .pattern (bits g 0 3) (bits g 8 2) (bits g 24 8)

/-- The lane's line signal follows its loop and its generator. -/
def Chip.lineFollows (c : Chip) (n : Nat) : Chip :=
  if c.hasLane n && (c.tport (n / 2)).state == .disabled then c.emit (.lineTest n (c.lineSignal n)) else c

/-! ### Pattern checker (R429) -/

/-- The checker of a lane runs: ENABLE of P18.022, its port Disabled. -/
def Chip.checking (c : Chip) (n : Nat) : Bool :=
  c.hasLane n && bitOf (c.param 0x18 0x022 n) 31 && (c.tport (n / 2)).state == .disabled

/-- Errors among the latest `room` bits compared, as far as whole spans of (bits, errors) show. -/
def recentErrors : Nat → List (Nat × Nat) → Nat
  | _, [] => 0
  | room, (b, e) :: r => if b ≤ room then e + recentErrors (room - b) r else 0

/-- Count compared bits and errors, both saturating. -/
def Lane.compared (x : Lane) (nbits errors : Nat) : Lane :=
  { x with chkBits := min (x.chkBits + nbits) (2 ^ 64 - 1), chkErrors := min (x.chkErrors + errors) (2 ^ 48 - 1) }

/-- Matching bits arrive at the checker: SYNC after 1,024 consecutive ones; only bits under SYNC are counted. -/
def Chip.checkerSync (c : Chip) (n nbits : Nat) : Chip :=
  if !c.checking n then c
  else c.updLane n fun x =>
    if x.chkSync then { x.compared nbits 0 with chkRecent := ((nbits, 0) :: x.chkRecent).take 64 }
    else if 1024 ≤ x.chkRun + nbits then ({ x with chkSync := true, chkRun := 0 } : Lane).compared (x.chkRun + nbits - 1024) 0
    else { x with chkRun := x.chkRun + nbits }

/-- Compared bits drop SYNC: more than 256 errors lie within 4,096 bits of them. Of a span of more than 4,096 bits it is open where its
errors lie, a free value, unless they are too many to lie elsewhere. -/
def dropsSync (recent : List (Nat × Nat)) (nbits errors free : Nat) : Bool :=
  256 < recentErrors 4096 ((nbits, errors) :: recent) ||
  (4096 < nbits && 256 < errors && (256 * divUp nbits 4096 < errors || free % 2 == 1))

/-- Bits with errors arrive at the checker: more than 256 errors within 4,096 bits drop SYNC, and it seeds itself again. -/
def Chip.checkerLoss (c : Chip) (n nbits errors : Nat) : Chip :=
  if errors = 0 then c.checkerSync n nbits
  else if !c.checking n then c
  else
    let free := c.freeNow
    c.drawn.updLane n fun x =>
      if !x.chkSync then { x with chkRun := 0 }
      else
        let y := x.compared nbits errors
        if dropsSync x.chkRecent nbits errors free then { y with chkSync := false, chkRun := 0, chkRecent := [] }
        else { y with chkRecent := ((nbits, errors) :: x.chkRecent).take 64 }

/-- P18.023. -/
def Chip.checkerErrors (c : Chip) (n : Nat) : Nat := let x := c.lane n; natOfBool x.chkSync * 2 ^ 63 + x.chkErrors

/-- P18.027 (R430). -/
def Chip.laneStatus (c : Chip) (n : Nat) : Nat :=
  let x := c.lane n
  (mkWord [(natOfBool x.bitLock, 63), (natOfBool x.blockLock, 62), (natOfBool x.markerLock, 61), (natOfBool x.polInv, 60),
    ((x.headers.filter (· == true)).length, 48), (x.fill, 40), (x.rate, 38)]).toNat

/-- The settings that return to 0 when a lane's port leaves Disabled (R430). -/
def Chip.clearTests (c : Chip) (p : Nat) : Chip :=
  (lposOf 3).foldl (fun c l =>
    let n := laneOf p l
    let tested := c.lineSignal n != .idle
    let c := ((c.setParam 0x18 0x020 n 0).setParam 0x18 0x021 n 0).setParam 0x18 0x022 n 0
    if tested then c.emit (.lineTest n .idle) else c) c

end Sys2Proof.Machine
end

