-- ==== Sys2Proof/Machine/TrainOps.lean ====
section
/-! DEFINITION. Link training, width changes and retrains of the fabric ports (R390 to R407, R386, R387, R420). -/

namespace Sys2Proof

/-- A training block as an inverted line carries it (R394): every bit of bytes 1 to 31 is complemented. -/
def TrainBlock.flip (b : TrainBlock) : TrainBlock :=
  { tbtype := 255 - b.tbtype % 256, pmark := ~~~b.pmark, lpos := 255 - b.lpos % 256, rates := 255 - b.rates % 256
    widths := 255 - b.widths % 256, locked := !b.locked, switch := !b.switch, eqdone := !b.eqdone
    target := 255 - b.target % 256, body := b.body.map fun x => ~~~x }

/-- The 32 bytes of a training block (R393, R411). -/
def TrainBlock.bytes (b : TrainBlock) : List Byte :=
  [0x78, BitVec.ofNat 8 b.tbtype] ++ bytesBE 2 b.pmark.toNat ++
  [BitVec.ofNat 8 b.lpos, BitVec.ofNat 8 b.rates, BitVec.ofNat 8 b.widths,
    BitVec.ofNat 8 (natOfBool b.locked + 2 * natOfBool b.switch + 4 * natOfBool b.eqdone), BitVec.ofNat 8 b.target] ++
  (b.body ++ zeros 23).take 23

/-- A byte of the body, by its number within the block (9 to 31). -/
def TrainBlock.byte (b : TrainBlock) (i : Nat) : Nat := ((b.body[i - 9]?).getD 0).toNat

/-- Body bytes as a number, most significant byte first. -/
def TrainBlock.number (b : TrainBlock) (i n : Nat) : Nat := natBE ((b.body.drop (i - 9)).take n ++ zeros (n - ((b.body.drop (i - 9)).take n).length))

/-- The learnt peer of a capability block, laid out as P10.011. -/
def TrainBlock.learnt (b : TrainBlock) : Nat := 2 ^ 31 + b.number 9 2 % 2 ^ 15 * 2 ^ 6 + b.byte 11 % 64

/-- The highest code of a RATES mask that is not above a limit; code 0 is always there (R390). -/
def highestRate (mask limit : Nat) : Nat := if 2 ≤ limit ∧ mask.testBit 2 then 2 else if 1 ≤ limit ∧ mask.testBit 1 then 1 else 0

/-- A lane mask in the peer's numbering, through lane reversal (R394, R402). -/
def swapLanes (rev : Bool) (m : Nat) : Nat := if rev then bits m 1 1 + 2 * bits m 0 1 else m % 4

end Sys2Proof

namespace Sys2Proof.Machine

/-! ### What a port sends -/

/-- The RATES that a port's settings allow (R393, R401); a training keeps those it began with (R392). -/
def Chip.ratesOf (c : Chip) (p : Nat) : Nat := if c.full then c.param 0x18 0x002 p else 1

/-- The WIDTHS that a port's settings allow (R393, R401); a training keeps those it began with (R392). -/
def Chip.widthsOf (c : Chip) (p : Nat) : Nat := if c.full then c.param 0x18 0x003 p else 1

/-- The chip id that a port reports: P10.001, or the strap value in the Jig service (R398). -/
def Chip.reportedId (c : Chip) : Nat := if c.full then c.id else c.boot.strapLatch

/-- A port is to train (R395, R401, R482). -/
def Chip.portWanted (c : Chip) (p : Nat) : Bool :=
  c.up && (c.role p == 1 || c.role p == 2) && (!c.full || c.param 0x18 0x001 p == 1)

/-- A fabric port that cannot work because it or its lane macro is in block reset (R20). -/
def Chip.portStopped (c : Chip) (p : Nat) : Bool := c.unitStopped p || c.unitStopped (0x40 + p / 2)

/-- The common fields of a training block on a lane (R393). -/
def Chip.trainBlock (c : Chip) (p l tbtype : Nat) (body : List Byte) : TrainBlock :=
  let t := c.tport p
  { tbtype := tbtype, pmark := 0xA5C3, lpos := 128 * l, rates := t.rates, widths := t.widths
    locked := (c.lane (laneOf p l)).locked, eqdone := bitOf t.eqOwn l, target := t.target, body := body }

/-- The body of a pattern block (R393). -/
def Chip.patternBody (c : Chip) (p : Nat) : List Byte := (Word.be c.serial) ++ [BitVec.ofNat 8 p] ++ zeros 14

/-- Send a training block on a lane. -/
def Chip.sendTrain (c : Chip) (p l : Nat) (b : TrainBlock) : Chip :=
  (c.emit (.train p l b)).sendLane (laneOf p l) { ctl := true, bytes := b.bytes }

/-- Send a training block on each lane of a mask; a block repeats until the next one and is shown once. -/
def Chip.sendBlocks (c : Chip) (p mask tbtype : Nat) (body : List Byte) : Chip :=
  (lposOf mask).foldl (fun c l => c.sendTrain p l (c.trainBlock p l tbtype body)) c

/-- Send the 16 blocks with SWITCH set on every used lane (R396). -/
def Chip.sendSwitch (c : Chip) (p mask : Nat) : Chip :=
  (List.range 16).foldl (fun c _ =>
    (lposOf mask).foldl (fun c l => c.sendTrain p l { c.trainBlock p l 1 (c.patternBody p) with switch := true }) c) c

/-- The body of a capability block (R398). -/
def Chip.capBody (c : Chip) (p : Nat) : List Byte :=
  let synced := c.tb.state == .locked || c.tb.state == .holdover || c.tb.state == .root
  bytesBE 2 c.reportedId ++
  [BitVec.ofNat 8 p, BitVec.ofNat 8 (if c.full then c.role p else 0xFF), BitVec.ofNat 8 (natOfBool (!c.full) + 2 * natOfBool synced),
    BitVec.ofNat 8 c.variant.code, 0xB0] ++ (Word.be c.serial) ++ zeros 8

/-! ### Events (R400) -/

/-- DETAIL of port events (R156). -/
def Chip.portDetail (c : Chip) (p : Nat) : Nat := p + (c.tport p).laneCount * 2 ^ 8 + (c.tport p).payloadRate * 2 ^ 16

/-- A port event to every enabled PF. -/
def Chip.portEvent (c : Chip) (p code : Nat) : Chip :=
  c.eventPFs code p 0 (if code = 1 then p else c.portDetail p)

/-- 500 ms in ns. -/
def retrainLimit : Nat := 500000000

/-- RETRAIN_EVENT_TIMEOUT (R400). -/
def Chip.retrainEventTimeout (c : Chip) (p : Nat) : Chip :=
  let t := c.tport p
  match t.leftAt with
  | some a =>
    if t.everActive && !t.downSent && t.state != .active && a + retrainLimit ≤ c.now then
      (c.updPortT p fun t => { t with downSent := true }).portEvent p 1
    else c
  | none => c

/-! ### Leaving and entering states (R392, R395) -/

/-- The link layer resets and what waited for the port goes elsewhere (R313, R388). -/
def Chip.leaveActive (c : Chip) (p : Nat) : Chip :=
  ((c.linkReset p).rerouteAll p).setCond p 0x101 false 1 p

/-- The receivers of a port hunt anew at the base rate. -/
def Chip.huntAll (c : Chip) (p : Nat) : Chip :=
  (lposOf 3).foldl (fun c l => c.updLane (laneOf p l) fun x => x.hunting 0) c

/-- A transition to Detect with a failure (R395): from Active, the port leaves the link. -/
def Chip.toDetect (c : Chip) (p reason : Nat) : Chip :=
  let t := c.tport p
  let was := t.state == .active
  let attempts := min 255 (t.attempts + 1)
  let c := (c.reclock p).updPortT p fun t =>
    { t with
      state := .detect, since := c.now, attempts := attempts, reason := reason, lanes := 0, rate := 0
      lowered := if reason = 3 then t.lowered + 1 else t.lowered
      waiting := decide (8 ≤ attempts), switched := false, hs := Handshake.init
      leftAt := if was then some c.now else t.leftAt
      wasRate := if was then t.rate else t.wasRate
      wasLanes := if was then t.lanes else t.wasLanes }
  let c := c.huntAll p
  if was then
    ((c.updLink p fun l => { l with narrowedAt := none, watching := false }).leaveActive p).setCond p 0x100 true 1 p (BitVec.ofNat 64 reason)
  else c

/-- A transition to Disabled (R392): no REASON; event 0x01 if the port was Active, but not on leaving the Jig service. -/
def Chip.toDisabled (c : Chip) (p : Nat) (leavingJig : Bool) : Chip :=
  let t := c.tport p
  let was := t.state == .active
  let c := c.updPortT p fun t =>
    { t with
      state := .disabled, since := c.now, attempts := 0, lanes := 0, rate := 0, rev := false, inv := 0, jigPeer := false
      lowered := 0, waiting := false, switched := false, hs := Handshake.init, leftAt := none, everActive := false, downSent := false }
  let c := c.huntAll p
  let c := c.updLink p fun l => { l with narrowedAt := none, watching := false }
  let c := if was then c.leaveActive p else c
  if was && !leavingJig then (c.setCond p 0x100 true 1 p (BitVec.ofNat 64 t.reason)).portEvent p 1 else c

/-- A port leaves Disabled (R395, R430). -/
def Chip.fromDisabled (c : Chip) (p : Nat) : Chip :=
  (c.clearTests p).updPortT p fun t => { t with state := .detect, since := c.now }

/-- Every port follows its enable and role (R392, R395). -/
def Chip.portsFollow (c : Chip) (leavingJig : Bool) : Chip :=
  (List.range 60).foldl (fun c p =>
    if !c.hasPort p then c
    else if c.portWanted p then (if (c.tport p).state = .disabled then c.fromDisabled p else c)
    else if (c.tport p).state = .disabled then c else c.toDisabled p leavingJig) c

/-- Entry to Pattern with receivers on the lanes of a mask (R395, R426). -/
def Chip.toPattern (c : Chip) (p found : Nat) : Chip :=
  let c := (lposOf found).foldl (fun c l => c.lanePattern (laneOf p l)) c
  let c := c.updPortT p fun t => { t with rates := c.ratesOf p, widths := c.widthsOf p }
  let c := c.updPortT p fun t =>
    { t with
      state := .pattern, since := c.now, rate := 0, lanes := 0, found := found, pmark := 0, inv := 0, rev := false, lockedRx := 0
      target := highestRate t.rates 2 - t.lowered, switched := false, eqOwn := 0, eqPeer := 0, waiting := false }
  c.sendBlocks p found 1 (c.patternBody p)

/-- The receiver of a lane makes its next request, or is satisfied: what it asks for is its own adaptation, left open (R397). -/
def Chip.nextRequest (c : Chip) (p l : Nat) : Chip :=
  let v := c.freeNow
  let n := laneOf p l
  let c := c.drawn
  if v % 2 = 0 then
    let c := c.updPortT p fun t => { t with eqOwn := t.eqOwn ||| 2 ^ l }
    c.sendBlocks p (2 ^ l) 2 ([BitVec.ofNat 8 (c.lane n).ownRseq] ++ zeros 22)
  else
    let c := c.updLane n fun x => { x with ownRseq := (x.ownRseq + 1) % 256 }
    c.sendBlocks p (2 ^ l) 2 ([BitVec.ofNat 8 (c.lane n).ownRseq, BitVec.ofNat 8 (1 + v / 2 % 2), BitVec.ofNat 8 (v / 4 % 11)] ++ bytesBE 4 (v / 64) ++ zeros 16)

/-- Entry to Equalise on the lanes of a mask. -/
def Chip.startEqualise (c : Chip) (p mask : Nat) : Chip :=
  let c := (lposOf mask).foldl (fun c l => c.laneEqualise (laneOf p l)) c
  let c := c.updPortT p fun t => { t with eqOwn := t.eqOwn &&& (3 - mask), eqPeer := t.eqPeer &&& (3 - mask) }
  (lposOf mask).foldl (fun c l => c.nextRequest p l) c

/-- Entry to Equalise (R395). -/
def Chip.toEqualise (c : Chip) (p : Nat) : Chip :=
  (c.updPortT p fun t => { t with state := .equalise, since := c.now }).startEqualise p (c.tport p).lanes

/-- Entry to Capabilities (R395, R398). -/
def Chip.toCapabilities (c : Chip) (p : Nat) : Chip :=
  let c := c.updPortT p fun t => { t with state := .capabilities, since := c.now }
  c.sendBlocks p (c.tport p).lanes 4 (c.capBody p)

/-- The event with which a port becomes Active (R400), none at a first Active. -/
def Chip.activeEvent (c : Chip) (p : Nat) (t : Port) : Chip :=
  if !t.everActive then c
  else if t.downSent then c.portEvent p 3
  else
    let lower := (c.tport p).rate < t.wasRate || (c.tport p).laneCount < (setBits 2 t.wasLanes).length
    c.portEvent p (if lower then 2 else 3)

/-- Entry to Active (R388, R395, R400). -/
def Chip.toActive (c : Chip) (p : Nat) : Chip :=
  let c := c.retrainEventTimeout p
  let t := c.tport p
  let c := c.updPortT p fun t =>
    { t with
      state := .active, since := c.now, attempts := 0, lowered := 0, leftAt := none, downSent := false
      everActive := t.everActive || !(c.full && t.jigPeer) }
  let c := ((c.alignLanes p t.lanes).linkReset p).setCond p 0x100 false 1 p
  let c := c.updLink p fun l => { l with windowAt := c.now }
  c.activeEvent p t

/-! ### Choosing lanes and rate in Lock (R396) -/

/-- Lanes that are locked in both directions. -/
def Chip.bothWays (c : Chip) (p : Nat) : Nat := c.lockedLanes p &&& (c.tport p).lockedRx

/-- The one lane of a port whose ends cannot both use x2: LPOS 0 of the end with the lower serial, then the lower port. -/
def Chip.lonelyLane (c : Chip) (p : Nat) : Nat :=
  let t := c.tport p
  let own := c.serial.toNat < t.peerSerial.toNat || (c.serial.toNat == t.peerSerial.toNat && p < t.peerPort)
  if own then 1 else swapLanes t.rev 1

/-- Both ends allow a width: bit 1 is x2, bit 0 is x1 (R393). -/
def Chip.bothAllow (c : Chip) (p b : Nat) : Bool := bitOf (c.tport p).widths b && bitOf (c.tport p).peerWidths b

/-- The lanes chosen once both lanes are locked both ways. -/
def Chip.chosenLanes (c : Chip) (p : Nat) : Option Nat :=
  if c.bothWays p ≠ 3 then none
  else if c.bothAllow p 1 then some 3
  else if c.bothAllow p 0 then some (c.lonelyLane p)
  else none

/-- The agreed rate. -/
def Chip.agreedRate (c : Chip) (p : Nat) : Nat :=
  let t := c.tport p
  highestRate (t.rates &&& t.peerRates) (min t.target t.peerTarget)

/-- Go on with the chosen lanes: at the base rate to Equalise, otherwise through the rate switch into Lock again. -/
def Chip.withLanes (c : Chip) (p lanes : Nat) : Chip :=
  let r := c.agreedRate p
  let c := c.updPortT p fun t => { t with lanes := lanes }
  if r = 0 then c.toEqualise p
  else
    let c := c.sendSwitch p lanes
    let c := (lposOf lanes).foldl (fun c l => c.updLane (laneOf p l) fun x => x.hunting r) c
    c.updPortT p fun t => { t with rate := r, switched := true, lockedRx := 0, since := c.now }

/-! ### The idle lane of a widening (R404) -/

/-- The lane that is not in use. -/
def Port.idleLanes (t : Port) : Nat := 3 - t.lanes

/-- Queue a KIND 0x03 message. -/
def Chip.sendMsg (c : Chip) (p msg : Nat) (m : WidthMsg) : Chip := c.queueItem p 3 (widthItem msg m.tseq m.chip m.port m.lanes)

/-- WSWITCH goes out in two LCBs behind the packet in progress, the block padded (R403). -/
def Chip.sendSwitches (c : Chip) (p : Nat) (m : WidthMsg) : Chip :=
  ((((c.padBlock p).sendMsg p 4 m).lcbNow p).sendMsg p 4 m).lcbNow p

/-- The requester is to switch, once the packet in progress is complete (R403). -/
def Chip.leaderSwitch (c : Chip) (p : Nat) : Chip :=
  c.updPortT p fun t =>
    { t with hs := { t.hs with
        own := none, target := t.hs.lanes, idleStage := 0
        switchDue := some { tseq := t.hs.tseq, chip := c.reportedId, port := p, lanes := t.hs.lanes } } }

/-- A stage of the idle lane begins. -/
def Chip.idleTo (c : Chip) (p stage : Nat) : Chip :=
  c.updPortT p fun t => { t with hs := { t.hs with idleStage := stage, idleSince := c.now } }

/-- Both ends train the idle lane. -/
def Chip.startIdle (c : Chip) (p : Nat) : Chip :=
  let t := c.tport p
  let m := t.idleLanes
  let c := (lposOf m).foldl (fun c l => c.lanePattern (laneOf p l)) c
  let c := c.updPortT p fun t =>
    { t with pmark := t.pmark &&& t.lanes, lockedRx := t.lockedRx &&& t.lanes, inv := t.inv &&& t.lanes }
  (c.idleTo p 1).sendBlocks p m 1 (c.patternBody p)

/-- The idle lane goes on where its present stage is complete; complete in all, the requester switches. -/
def Chip.idleEval (c : Chip) (p : Nat) : Chip :=
  let t := c.tport p
  let m := t.idleLanes
  match t.hs.idleStage with
  | 1 =>
    if m &&& t.pmark = m ∧ m &&& c.blockLanes p = m then
      let c := if t.rate = 0 then c else (lposOf m).foldl (fun c l => c.updLane (laneOf p l) fun x => x.hunting t.rate) c
      c.idleTo p 2
    else c
  | 2 => if m &&& c.bothWays p = m then (c.idleTo p 3).startEqualise p m else c
  | 3 => if t.hs.leading ∧ m &&& t.eqOwn = m ∧ m &&& t.eqPeer = m then c.leaderSwitch p else c
  | _ => c

/-! ### Going on in training -/

/-- The port goes on where the conditions of its present state hold (R395); upward steps need the FAB cluster (R24). -/
def Chip.trainEval (c : Chip) (p : Nat) : Chip :=
  let t := c.tport p
  if !c.fabUp then c
  else match t.state with
  | .pattern =>
    if t.found ≠ 0 ∧ t.found &&& t.pmark = t.found ∧ t.found &&& c.blockLanes p = t.found then
      (c.updPortT p fun t => { t with state := .lock, since := c.now }).sendBlocks p t.found 1 (c.patternBody p)
    else c
  | .lock =>
    if t.switched then (if t.lanes &&& c.bothWays p = t.lanes then c.toEqualise p else c)
    else match c.chosenLanes p with
      | some l => c.withLanes p l
      | none => c
  | .equalise => if t.lanes &&& t.eqOwn = t.lanes ∧ t.lanes &&& t.eqPeer = t.lanes then c.toCapabilities p else c
  | .active =>
    if t.hs.switchAt.isSome ∧ !t.hs.leading ∧ t.lanes &&& c.lockedLanes p = t.lanes then
      c.updPortT p fun t => { t with hs := { t.hs with switchAt := none } }
    else c.idleEval p
  | _ => c

/-- RECEIVER_DETECT (R395): `found` is the mask of lanes with a receiver. -/
def Chip.receiverDetect (c : Chip) (p found : Nat) : Chip :=
  let t := c.tport p
  let found := found % 4
  if !c.hasPort p ∨ t.state ≠ .detect ∨ t.waiting ∨ !c.fabUp ∨ c.portStopped p then c
  else if found = 3 ∨ (found ≠ 0 ∧ bitOf (c.widthsOf p) 0) then c.toPattern p found
  else c.updPortT p fun t => { t with since := c.now }

/-- A lane on which training blocks matter now: a lane in training, or the idle lane of a widening. -/
def Port.trains (t : Port) (l : Nat) : Bool :=
  decide (l < 2) &&
  match t.state with
  | .pattern | .lock => bitOf t.found l
  | .equalise | .capabilities | .held => bitOf t.lanes l
  | .active => 1 ≤ t.hs.idleStage && bitOf t.idleLanes l
  | _ => false

/-- The fields every training block carries (R393, R396, R397). -/
def Chip.takeCommon (c : Chip) (p l : Nat) (b : TrainBlock) : Chip :=
  c.updPortT p fun t =>
    { t with
      lockedRx := if b.locked then t.lockedRx ||| 2 ^ l else t.lockedRx &&& (3 - 2 ^ l)
      eqPeer := if b.eqdone then t.eqPeer ||| 2 ^ l else t.eqPeer &&& (3 - 2 ^ l)
      peerRates := b.rates, peerWidths := b.widths, peerTarget := b.target }

/-- PATTERN_BLOCK (R393, R394, R396). Polarity and lane order are corrected in Pattern, and polarity in the Pattern of an idle lane. -/
def Chip.patternReceive (c : Chip) (p l : Nat) (b : TrainBlock) : Chip :=
  let t := c.tport p
  if !t.trains l then c
  else
    let correcting := t.state == .pattern || t.hs.idleStage == 1
    let inverted := correcting && b.pmark == 0x5A3C && !(c.lane (laneOf p l)).polInv
    let b := if inverted then b.flip else b
    if b.tbtype = 0 ∨ 4 < b.tbtype then c.bump p .trainUnknown
    else if b.pmark ≠ 0xA5C3 ∨ b.tbtype ≠ 1 then c
    else
      let c := if inverted then c.updLane (laneOf p l) fun x => { x with polInv := true } else c
      let c := c.updPortT p fun t =>
        { t with
          pmark := t.pmark ||| 2 ^ l
          inv := if inverted then t.inv ||| 2 ^ l else t.inv
          rev := if l = 0 ∧ t.state = .pattern then bitOf b.lpos 7 else t.rev
          peerSerial := BitVec.ofNat 64 (b.number 9 8)
          peerPort := b.byte 17 % 64 }
      (c.takeCommon p l b).trainEval p

/-- A block of another type is taken on a lane: ignored where TBTYPE is none of the four (R393). -/
def Chip.otherBlock (c : Chip) (p l tbtype : Nat) (b : TrainBlock) (f : Chip → Chip) : Chip :=
  if !(c.tport p).trains l then c
  else if b.tbtype = 0 ∨ 4 < b.tbtype then c.bump p .trainUnknown
  else if b.tbtype ≠ tbtype then c
  else f (c.takeCommon p l b)

/-- The lane is being equalised. -/
def Chip.equalising (c : Chip) (p : Nat) : Bool := (c.tport p).state == .equalise || (c.tport p).hs.idleStage == 3

/-- EQUALISATION_REQUEST (R397). -/
def Chip.eqRequest (c : Chip) (p l : Nat) (b : TrainBlock) : Chip :=
  c.otherBlock p l 2 b fun c =>
    if !c.equalising p then c
    else
      let c := c.updLane (laneOf p l) fun x => x.takeRequest b.body
      (c.sendBlocks p (2 ^ l) 3 (c.lane (laneOf p l)).response).trainEval p

/-- EQUALISATION_RESPONSE (R397): the answer to the outstanding request lets the receiver go on. -/
def Chip.eqResponse (c : Chip) (p l : Nat) (b : TrainBlock) : Chip :=
  c.otherBlock p l 3 b fun c =>
    let done := bitOf (c.tport p).eqOwn l
    let c := if c.equalising p && !done && b.byte 9 == (c.lane (laneOf p l)).ownRseq then c.nextRequest p l else c
    c.trainEval p

/-! ### Capabilities (R398, R399) -/

/-- R75 passes. -/
def Chip.cablingOk (c : Chip) (p : Nat) (b : TrainBlock) : Bool :=
  let x := c.param 0x10 0x011 p
  (!bitOf x 31 || x == b.learnt) && !(b.number 9 2 % 2 ^ 15 == c.reportedId && BitVec.ofNat 64 (b.number 16 8) != c.serial)

/-- The two ROLE values agree, where neither end has JIG set. -/
def Chip.roleOk (c : Chip) (p : Nat) (b : TrainBlock) : Bool := !c.full || bitOf (b.byte 13) 0 || b.byte 12 == c.role p

/-- The conditions of the cabling-mismatch and role-mismatch sources. -/
def Chip.mismatch (c : Chip) (p : Nat) (cabling role : Bool) : Chip :=
  let c := c.updPortT p fun t => { t with cabling := cabling, roleBad := role }
  (c.setCond p 0x103 cabling 1 p).setCond p 0x104 role 1 p

/-- CAPABILITIES_BLOCK (R399): `peerPassed` = the exchange passes at the far end too. A block that passes here begins the 2 ms without
a valid one anew (R395). -/
def Chip.capabilities (c : Chip) (p : Nat) (b : TrainBlock) (peerPassed : Bool) : Chip :=
  let t := c.tport p
  if t.state ≠ .capabilities ∧ t.state ≠ .held then c
  else if b.tbtype = 0 ∨ 4 < b.tbtype then c.bump p .trainUnknown
  else if b.tbtype ≠ 4 ∨ !c.fabUp then c
  else if !c.cablingOk p b then (c.updPortT p fun t => { t with state := .held, reason := 5 }).mismatch p true false
  else if !c.roleOk p b then (c.updPortT p fun t => { t with state := .held, reason := 6 }).mismatch p false true
  else
    let c := (c.updPortT p fun t => { t with learnt := b.learnt, jigPeer := bitOf (b.byte 13) 0, since := c.now }).mismatch p false false
    if t.state = .held then c.toCapabilities p else if peerPassed then c.toActive p else c

/-! ### Lock of lanes (R418 to R420) -/

/-- A lane has lost lock: a port that uses it goes to Detect (R395, R406, R420). -/
def Chip.afterLoss (c : Chip) (n : Nat) : Chip :=
  let t := c.tport (n / 2)
  let used := bitOf t.lanes (n % 2) && (t.state == .equalise || t.state == .capabilities || t.state == .held || t.state == .active)
  if used then c.toDetect (n / 2) 7 else c

/-- BLOCK_LOCK (R418): headers are tested; a port that waits in Detect enters Pattern at once (R395), and invalid headers end block
lock (R420). -/
def Chip.blockLock (c : Chip) (n : Nat) (headers : List Bool) : Chip :=
  if !c.hasLane n then c
  else
    let p := n / 2
    let was := c.lane n
    let c := c.testHeaders n headers
    let t := c.tport p
    if !was.blockLock && (c.lane n).blockLock && t.state == .detect && t.waiting && c.fabUp then c.toPattern p (t.found ||| 2 ^ (n % 2))
    else if was.locked && !(c.lane n).locked then c.afterLoss n
    else c.trainEval p

/-- The other lane of a lane's port. -/
def otherLane (n : Nat) : Nat := if n % 2 = 0 then n + 1 else n - 1

/-- Lanes whose markers stand more than 80 ns apart do not both lock (R417), and at rate code 2 neither does a lane whose peer precodes
otherwise (R424). -/
def Chip.mayLock (c : Chip) (n : Nat) (m : MarkerInfo) : Bool :=
  let x := c.lane n
  !((c.lane (otherLane n)).markerLock && decide (80000 < m.skew)) && (x.rate != 2 || x.precode == m.precoded)

/-- MARKER_LOCK (R419): the second marker has stood in its place, 16,384 blocks behind the first. The lane's period, slots and order are
known from there, and FEC decode goes on with the block behind it. -/
def Chip.markerLock (c : Chip) (n : Nat) (m : MarkerInfo) : Chip :=
  if !c.hasLane n ∨ !(c.lane n).blockLock ∨ !c.mayLock n m then c
  else
    let c := c.updLane n fun x =>
      { x with
        markerLock := true, markerMiss := 0, rxSlot := 4, rxPcount := m.pcount, rxLpos := m.lpos % 2, rxScramble := m.tail.toNat, rxQueue := [] }
    (c.updLane (otherLane n) fun x => { x with rxQueue := [] }).trainEval (n / 2)

/-- LOCK_LOSS (R420, R395, R406). -/
def Chip.lockLoss (c : Chip) (n : Nat) (kind : LockKind) : Chip :=
  if !c.hasLane n then c
  else
    let had := (c.lane n).locked
    let c := c.updLane n fun x => x.lose kind
    if had then c.afterLoss n else c

/-- CODEWORD_DECODE (R416): three expected markers missed in a row end the marker lock (R420). -/
def Chip.laneCodeword (c : Chip) (n errors : Nat) (blocks : List LaneBlock) (fill : Int) : Chip :=
  let c := c.codewordDecode n errors blocks fill
  if (c.lane n).markerLock ∧ 3 ≤ (c.lane n).markerMiss then c.lockLoss n .marker else c

/-! ### Timers (R395) -/

/-- The timeout of a state in ns. -/
def PState.limit : PState → Nat
  | .pattern => 10000000 | .lock => 20000000 | .equalise => 50000000 | .capabilities => 2000000 | _ => 0

/-- The timeout of a stage of the idle lane. -/
def idleLimit (stage : Nat) : Nat := if stage = 1 then 10000000 else if stage = 2 then 20000000 else 50000000

/-- The idle lane failed: the port stays at x1 (R404), and R387 governs the next attempt. -/
def Chip.idleFails (c : Chip) (p : Nat) : Chip :=
  (c.updPortT p fun t => { t with hs := { Handshake.init with tseq := t.hs.tseq } }).updLink p fun l =>
    { l with narrowedAt := l.narrowedAt.map fun _ => c.now }

/-- The Lock timeout: exactly one lane locked both ways goes on alone where both ends allow x1 (R396). -/
def Chip.lockTimeout (c : Chip) (p : Nat) : Chip :=
  let one := c.bothWays p
  if (one = 1 ∨ one = 2) ∧ c.bothAllow p 0 ∧ c.fabUp then
    if (c.tport p).switched then (c.updPortT p fun t => { t with lanes := one }).toEqualise p else c.withLanes p one
  else c.toDetect p 2

/-- TRAINING_TIMEOUT (R395, R396, R404). -/
def Chip.trainingTimeout (c : Chip) (p : Nat) : Chip :=
  let t := c.tport p
  let passed := decide (t.since + t.state.limit ≤ c.now)
  match t.state with
  | .pattern => if passed then c.toDetect p 1 else c
  | .lock => if passed then c.lockTimeout p else c
  | .equalise => if passed then c.toDetect p 3 else c
  | .capabilities => if passed then c.toDetect p 4 else c
  | .active => if t.hs.idleStage ≠ 0 ∧ t.hs.idleSince + idleLimit t.hs.idleStage ≤ c.now then c.idleFails p else c
  | _ => c

/-- ATTEMPT_WAIT_END: the 1 s wait in Detect is over (R395). -/
def Chip.attemptWaitEnd (c : Chip) (p : Nat) : Chip :=
  let t := c.tport p
  if t.state = .detect ∧ t.waiting ∧ t.since + 1000000000 ≤ c.now then c.updPortT p fun t => { t with waiting := false } else c

/-! ### Handshakes (R402 to R407) -/

/-- Ask for a width change. Nothing is asked for while a handshake runs. -/
def Chip.askWidth (c : Chip) (p lanes : Nat) (degrade : Bool) : Chip :=
  let h := (c.tport p).hs
  if !c.portActive p ∨ h.own.isSome ∨ h.switchAt.isSome ∨ h.idleStage ≠ 0 ∨ (c.tport p).lanes = lanes then c
  else c.updPortT p fun t =>
    { t with hs := { Handshake.init with own := some 1, tseq := (h.tseq + 1) % 256, lanes := lanes, since := c.now, tries := 1, degrade := degrade } }

/-- A command of P18.004 (R390): refused with 0x07 at a port that is not Active. -/
def Chip.portCommand (c : Chip) (p code : Nat) : Chip × Nat :=
  if !c.portActive p then (c, 7)
  else match code with
    | 1 => (c.startRetrain p 9, 0)
    | 2 => (if (c.tport p).lanes = 3 then c.askWidth p 1 false else c, 0)
    | 3 => (if (c.tport p).lanes = 3 then c.askWidth p 2 false else c, 0)
    | 4 => (c.askWidth p 3 false, 0)
    | _ => (c, 7)

/-- The change of width is complete: the lanes begin a marker period together (R403, R417), the events of R400, and what R386 and R387
keep of it. -/
def Chip.widthChanged (c : Chip) (p lanes : Nat) (degrade : Bool) : Chip :=
  let was := (c.tport p).lanes
  let c := ((c.reclock p).alignLanes p lanes).updPortT p fun t =>
    { t with lanes := lanes, hs := { Handshake.init with tseq := t.hs.tseq, switchAt := if lanes &&& c.lockedLanes p = lanes then none else some c.now } }
  let c :=
    if lanes = 3 then
      let back := (c.link p).narrowedAt.isSome
      (c.updLink p fun l => { l with narrowedAt := none, watching := back, windowAt := c.now, windowNaks := 0, badWindows := 0, badWords := [] }).setCond p 0x101 false 1 p
    else if degrade then
      (c.updLink p fun l => { l with narrowedAt := some c.now, badLane := if lanes = 1 then 1 else 0, watching := false }).setCond p 0x101 true 1 p
    else c
  if lanes = was then c else c.portEvent p (if lanes = 3 then 3 else 2)

/-- Whether a request that arrives is the follower's, to be ignored (R407): `msg` is 1 WREQ or 5 RREQ. -/
def Chip.leads (c : Chip) (p msg : Nat) (m : WidthMsg) : Bool :=
  match (c.tport p).hs.own with
  | none => false
  | some own =>
    if own ≠ msg then own == 5
    else c.reportedId < m.chip || (c.reportedId == m.chip && p < m.port)

/-- WREQ (R403, R404, R407). -/
def Chip.takeWreq (c : Chip) (p : Nat) (m : WidthMsg) : Chip :=
  if !c.portActive p ∨ c.leads p 1 m then c
  else
    let t := c.tport p
    let lanes := swapLanes t.rev m.lanes
    let ok := if lanes = 3 then bitOf t.widths 1 else bitOf t.widths 0
    let c := c.updPortT p fun t => { t with hs := { t.hs with own := none } }
    let answer : WidthMsg := { m with lanes := 0 }
    if lanes = 0 ∨ !ok then c.sendMsg p 3 answer
    else
      let c := c.sendMsg p 2 answer
      if lanes = t.lanes ∨ t.hs.granted then c
      else
        let c := c.updPortT p fun t => { t with hs := { t.hs with granted := true, leading := false, target := lanes } }
        if lanes = 3 then c.startIdle p else c

/-- WGRANT (R403, R404): the requester switches, after it has trained the idle lane for a widening. -/
def Chip.takeWgrant (c : Chip) (p : Nat) (m : WidthMsg) : Chip :=
  let h := (c.tport p).hs
  if !c.portActive p ∨ h.own ≠ some 1 ∨ h.tseq ≠ m.tseq then c
  else
    let c := c.updPortT p fun t => { t with hs := { t.hs with own := none, leading := true, target := h.lanes } }
    if h.lanes = 3 then c.startIdle p else c.leaderSwitch p

/-- WREFUSE ends the request (R403). -/
def Chip.takeWrefuse (c : Chip) (p : Nat) (m : WidthMsg) : Chip :=
  let h := (c.tport p).hs
  if !c.portActive p ∨ h.own ≠ some 1 ∨ h.tseq ≠ m.tseq then c else c.idleFails p

/-- WSWITCH (R403): the responder answers in its own direction; at the requester, the other direction has switched too. -/
def Chip.takeWswitch (c : Chip) (p : Nat) (m : WidthMsg) : Chip :=
  let t := c.tport p
  if !c.portActive p then c
  else if t.hs.granted then c.updPortT p fun t => { t with hs := { t.hs with switchDue := some m } }
  else if t.hs.leading ∧ t.hs.switchAt.isSome ∧ t.hs.tseq = m.tseq then c.widthChanged p t.hs.target t.hs.degrade
  else c

/-- A WSWITCH that waits goes out once no packet is in progress (R403): the requester then waits for the other direction, and the
responder has changed. -/
def Chip.switchWhenIdle (c : Chip) (p : Nat) : Chip :=
  let t := c.tport p
  match t.hs.switchDue with
  | none => c
  | some m =>
    if !c.portActive p ∨ (c.link p).tx.inPacket then c
    else
      let c := (c.updPortT p fun t => { t with hs := { t.hs with switchDue := none } }).sendSwitches p m
      if t.hs.granted then c.widthChanged p (swapLanes t.rev m.lanes) false
      else c.updPortT p fun t => { t with hs := { t.hs with switchAt := some c.now } }

/-- RREQ (R405, R407): RACK goes out and the port enters Detect. -/
def Chip.takeRreq (c : Chip) (p : Nat) (m : WidthMsg) : Chip :=
  if !c.portActive p ∨ c.leads p 5 m then c
  else
    let c := c.updTx p fun t => { t with items := [(3, widthItem 6 m.tseq m.chip m.port 0)] }
    (c.sendLcb p).toDetect p 9

/-- RACK (R405). -/
def Chip.takeRack (c : Chip) (p : Nat) (m : WidthMsg) : Chip :=
  let h := (c.tport p).hs
  if c.portActive p ∧ h.own = some 5 ∧ h.tseq = m.tseq then c.toDetect p h.reason else c

/-- The limit of R405 and R406: 100 µs. -/
def answerLimit : Nat := 100000

/-- WREQ_TIMEOUT (R406). -/
def Chip.wreqTimeout (c : Chip) (p : Nat) : Chip :=
  let h := (c.tport p).hs
  if !c.portActive p ∨ h.own ≠ some 1 ∨ c.now < h.since + answerLimit then c
  else if 10 ≤ h.tries then c.startRetrain p 11
  else c.updPortT p fun t => { t with hs := { t.hs with tseq := (h.tseq + 1) % 256, since := c.now, tries := h.tries + 1 } }

/-- RACK_TIMEOUT (R405). -/
def Chip.rackTimeout (c : Chip) (p : Nat) : Chip :=
  let h := (c.tport p).hs
  if !c.portActive p ∨ h.own ≠ some 5 ∨ c.now < h.since + answerLimit then c else c.toDetect p h.reason

/-- WSWITCH_LOCK_TIMEOUT (R406): used lanes without lock 1 ms after a WSWITCH retrain the port. -/
def Chip.wswitchTimeout (c : Chip) (p : Nat) : Chip :=
  let t := c.tport p
  match t.hs.switchAt with
  | some a =>
    if !c.portActive p ∨ c.now < a + 1000000 then c
    else if !t.hs.leading ∧ t.lanes &&& c.lockedLanes p = t.lanes then c.updPortT p fun t => { t with hs := { t.hs with switchAt := none } }
    else c.startRetrain p 11
  | none => c

/-! ### Degradation (R386, R387) -/

/-- The lane that holds more than three quarters of the uncorrectable codewords. -/
def worstLane (w : Tab Nat) : Option Nat :=
  let a := Tab.get w 0 0
  let b := Tab.get w 1 0
  if 3 * (a + b) < 4 * a then some 0 else if 3 * (a + b) < 4 * b then some 1 else none

/-- The action of P19.013. -/
def Chip.degrade (c : Chip) (p : Nat) : Chip :=
  match c.param 0x19 0x013 p with
  | 0 => c
  | 1 =>
    match (if (c.tport p).lanes = 3 then worstLane (c.link p).badWords else none) with
    | some l => c.askWidth p (3 - 2 ^ l) true
    | none => c.startRetrain p 10
  | _ => c.startRetrain p 10

/-- DEGRADATION_WINDOW: a window of P19.011 ends (R386, R387). -/
def Chip.degradationWindow (c : Chip) (p : Nat) : Chip :=
  let l := c.link p
  if !c.portActive p ∨ c.now < l.windowAt + 1000 * c.param 0x19 0x011 0 then c
  else
    let passed := decide (c.param 0x19 0x010 0 < l.windowNaks)
    let c := if passed then c.raise p 0x102 1 p else c
    let run := if passed then l.badWindows + 1 else 0
    let act := decide (c.param 0x19 0x012 0 ≤ run) && c.fabUp
    let again := passed && l.watching && c.fabUp
    let c := c.updLink p fun l =>
      { l with windowNaks := 0, windowAt := c.now, badWindows := run, badWords := if passed then l.badWords else [], watching := false }
    let c := if again then c.askWidth p (3 - 2 ^ l.badLane) true else if act then c.degrade p else c
    if act then c.updLink p fun l => { l with badWindows := 0, badWords := [] } else c

/-- RESTORE_INTERVAL: P19.015 at x1 because of R386 (R387). -/
def Chip.restoreInterval (c : Chip) (p : Nat) : Chip :=
  let s := c.param 0x19 0x015 0
  match (c.link p).narrowedAt with
  | some a => if s ≠ 0 ∧ a + 1000000000 * s ≤ c.now ∧ c.fabUp then c.askWidth p 3 false else c
  | none => c

/-! ### What is read, and what commits do (R391, R392) -/

/-- P18.005. -/
def PState.code : PState → Nat
  | .disabled => 0 | .detect => 1 | .pattern => 2 | .lock => 3 | .equalise => 4 | .capabilities => 5 | .active => 6 | .held => 7

/-- P18.005 (R391). -/
def Port.word (t : Port) : Nat :=
  (mkWord [(t.state.code, 28), (t.rate, 26), (t.lanes, 24), (natOfBool t.rev, 23), (t.inv % 4, 21), (natOfBool t.jigPeer, 20),
    (t.attempts, 8), (t.reason, 0)]).toNat

/-- A committed set 0x18 takes effect (R392). -/
def Chip.portSettings (c : Chip) : Chip :=
  let c := c.portsFollow false
  (List.range 60).foldl (fun c p =>
    let t := c.tport p
    if t.state = .active ∧ (!bitOf (c.ratesOf p) t.rate ∨ !bitOf (c.widthsOf p) (if t.lanes = 3 then 1 else 0)) then c.startRetrain p 12 else c) c

/-- A commit of set 0x10 lets held ports try again (R395). -/
def Chip.heldAgain (c : Chip) : Chip :=
  (List.range 60).foldl (fun c p => if (c.tport p).state = .held then c.toCapabilities p else c) c

/-- A port is held in Disabled by a block reset, or retrains after one (R484). -/
def Chip.blockRetrain (c : Chip) (p : Nat) : Chip :=
  match (c.tport p).state with
  | .disabled => c
  | .detect => c.updPortT p fun t => { t with reason := 13, since := c.now }
  | _ => c.toDetect p 13

end Sys2Proof.Machine
end

