-- ==== Sys2Proof/Machine/HostOps.lean ====
section
/-! DEFINITION. Host ports and functions: links, PERST_N, disable and quiescence, virtual functions, vectors and the counter
page (R100 to R110, R199 to R201, R306, R481, R484, R513). -/

namespace Sys2Proof.Machine

/-! ### Function disable (R199, R200) -/

/-- The contexts that a function owns through their queues. -/
def Chip.ctxsOf (c : Chip) (fn : Nat) : List Nat := (c.mt.ctxs.filter fun r => c.ctxFn r.1 == fn).map (·.1)

/-- The matching state of a function at its disable: receives go, stored messages are discarded and offers closed (R232). -/
def Chip.matchDisable (c : Chip) (fn : Nat) : Chip :=
  let own := c.ctxsOf fn
  let c := { c with mt := { c.mt with
      posted := c.mt.posted.filter fun r => !own.contains r.ctx
      waiting := c.mt.waiting.filter fun r => (c.queue? (r.1 / 2 ^ 24) (r.1 % 2 ^ 24)).elim true fun q => q.fn != fn } }
  (c.mt.unexp.filter fun u => own.contains u.ctx).foldl (fun c u => c.discardUnexp u) c

/-- Function disable is accepted (R199 steps 1 and 2): fetching stops, queues go to draining, held entries are discarded. -/
def Chip.disableFn (c : Chip) (fn : Nat) : Chip :=
  match c.fnState fn with
  | .absent | .draining | .quiesced => c
  | _ =>
    let c := c.updFn fn fun f => { f with state := .draining, disabledAt := c.now }
    let c := { c with
      queues := Tab.mapVals c.queues fun _ q => if q.fn = fn then { q with draining := true } else q
      tg := (c.discardHeld fun e => e.fn == fn).tg }
    (c.matchDisable fn).collDisable fn

/-- FUNCTION_LEVEL_RESET: the disable, which ends by itself while P20.010 is 1 (R102). -/
def Chip.levelReset (c : Chip) (fn : Nat) : Chip :=
  if !c.fnExists fn || c.fnState fn == .quiesced then c
  else (c.disableFn fn).updFn fn fun f => { f with flr := true }

/-- No transaction of a function remains (R199 step 5). -/
def Chip.fnIdle (c : Chip) (fn : Nat) : Bool :=
  let owns (k qn : Nat) : Bool := (c.queue? (chHost k) qn).elim false fun q => q.fn == fn
  !(c.tr.chans.any fun r => r.2.ops.any fun o => o.fn == fn) &&
  !(c.tr.hostReads.any fun r => r.fn == fn) &&
  !(c.br.ops.any fun o => o.fn == fn) && !(c.br.merges.any fun r => r.2.fn == fn) &&
  !(c.mt.copies.any fun y => owns y.chan y.qn) && !(c.mt.tOffers.any fun t => owns t.chan t.qn)

/-- The response cache of a channel without the entries of a function; an emptied block is released (R200). -/
def Chan.forgetFn (x : Chan) (fn : Nat) : Chan :=
  if x.atomics.any fun a => a.fn == fn then
    let l := x.atomics.filter fun a => a.fn != fn
    { x with atomics := l, atomicBlock := x.atomicBlock && !l.isEmpty }
  else x

/-- What quiescence releases (R200, R236): queues without completions, the control queue pair, contexts, atomic response
blocks, trigger counters, open offers and region commands. -/
def Chip.releaseFn (c : Chip) (fn : Nat) : Chip :=
  let own := c.ctxsOf fn
  let offers := (c.mt.sOffers.filter fun o => o.fn == fn).map (·.index)
  let c := c.setParam 0x21 0x004 fn (c.param 0x21 0x004 fn % 2 ^ 31)
  let c := c.updFn fn fun f =>
    { f with
      ctlSqPi := 0, ctlSqCi := 0, ctlCqPi := 0, ctlCqCi := 0, ctlSqCause := 0, ctlCqCause := 0, ctlArmed := false
      ctlBacklog := [], ctlBacklogged := false, regionJobs := [], deregJob := none }
  { c with
    queues := Tab.keep c.queues fun _ q => q.fn != fn
    tg := { c.tg with ctrs := Tab.keep c.tg.ctrs fun _ t => t.owner != fn }
    tr := { c.tr with chans := Tab.mapVals c.tr.chans fun _ x => x.forgetFn fn }
    mt := { c.mt with
      ctxs := Tab.keep c.mt.ctxs fun k _ => !own.contains k
      sOffers := c.mt.sOffers.filter fun o => o.fn != fn
      offerGen := offers.foldl (fun t i => Tab.put t i ((Tab.get t i 0 + 1) % 256)) c.mt.offerGen } }

/-- The state a function takes after quiescence (R102, R513). -/
def Chip.afterQuiesce (c : Chip) (fn : Nat) : FnState :=
  let f := c.fn fn
  if f.vfGone then .absent
  else if f.vfBack || (f.flr && c.param 0x20 0x010 fn == 1) then .notReady
  else .quiesced

/-- The policer bucket of a function starts full again when the function is enabled (R356). -/
def Chip.fillPolicer (c : Chip) (fn : Nat) : Chip := { c with rt := { c.rt with policers := Tab.del c.rt.policers fn } }

/-- Leave quiescence where nothing keeps the function there. -/
def Chip.leaveQuiesce (c : Chip) (fn : Nat) : Chip :=
  match c.afterQuiesce fn with
  | .absent => { c with funcs := Tab.del c.funcs fn }
  | .notReady => (c.fillPolicer fn).updFn fn fun f => { f with state := .notReady, flr := false, vfBack := false }
  | s => c.updFn fn fun f => { f with state := s, flr := false, vfBack := false }

/-- FUNCTION_QUIESCED (R199 steps 5 and 6): at least 1 ms after the disable, with no transaction left. -/
def Chip.quiesceFn (c : Chip) (fn : Nat) : Chip :=
  if c.fnState fn ≠ .draining ∨ !c.fnIdle fn ∨ c.now < (c.fn fn).disabledAt + 1000000 then c
  else
    let c := (c.updFn fn fun f => { f with state := .quiesced }).releaseFn fn
    (c.postEvent (fn / 256 * 256) 0x08 (0x3C + fn / 256) 0 fn).leaveQuiesce fn

/-- A write of 1 to P20.010 of a quiesced function (R102). -/
def Chip.enableFn (c : Chip) (fn : Nat) : Chip :=
  if (c.fn fn).state = .quiesced then (c.fillPolicer fn).updFn fn fun f => { f with state := .notReady, flr := false } else c

/-- The host memory areas of the IK-920 are provided (R37): rows 0 to 5 of P28.002. -/
def Chip.areasGiven (c : Chip) : Bool := c.variant != .ik920 || (List.range 6).all fun i => c.param 0x28 0x002 i != 0

/-- FUNCTION_READY: the data classes are open (R103). -/
def Chip.readyFn (c : Chip) (fn : Nat) : Chip :=
  if c.fnState fn = .notReady ∧ c.full ∧ c.areasGiven then c.updFn fn fun f => { f with state := .ready } else c

/-! ### Virtual functions (R513) -/

/-- A VF ceases: its configuration space, BAR registers and vectors go; a disable runs unless it has quiesced. -/
def Chip.endVf (c : Chip) (fn : Nat) : Chip :=
  match c.fnState fn with
  | .absent => c
  | .quiesced => { c with funcs := Tab.del c.funcs fn }
  | _ =>
    let c := c.disableFn fn
    let f := c.fn fn
    { c with funcs := Tab.put c.funcs fn { Func.init with state := f.state, disabledAt := f.disabledAt, vfGone := true } }

/-- The VFs of a host port end. -/
def Chip.endVfs (c : Chip) (h : Nat) : Chip :=
  ((List.range 255).foldl (fun c i => c.endVf (h * 256 + i + 1)) c).updPort h fun p => { p with vfEnable := false }

/-- VF_ENABLE_CLEAR. -/
def Chip.vfClear (c : Chip) (h : Nat) : Chip := if c.hasHost h && (c.port h).vfEnable then c.endVfs h else c

/-- A VF begins: not ready, or still draining until its quiescence. -/
def Chip.beginVf (c : Chip) (fn : Nat) : Chip :=
  if (c.fn fn).vfGone then c.updFn fn fun f => { f with vfGone := false, vfBack := true }
  else ({ c with funcs := Tab.put c.funcs fn { Func.init with state := .notReady } } : Chip).fillPolicer fn

/-- VF_ENABLE_SET with NumVFs, of which at most TotalVFs exist. -/
def Chip.vfSet (c : Chip) (h numVfs : Nat) : Chip :=
  let p := c.port h
  if !c.hasHost h || p.vfEnable || p.perst then c
  else
    let n := min numVfs p.totalVfs
    ((List.range n).foldl (fun c i => c.beginVf (h * 256 + i + 1)) c).updPort h fun p => { p with vfEnable := true, numVfs := n }

/-! ### The link of a host port (R100, R102, R306, R481, R484) -/

/-- The parameters that take effect at PERST_N (R102, R306). -/
def Chip.latchPort (c : Chip) (h : Nat) : Chip :=
  let x (o e : Nat) : Nat := c.param 0x20 o e
  c.updPort h fun p =>
    { p with
      mode := x 0x001 h, maxWidth := x 0x002 h, totalVfs := x 0x003 h
      pagesPf := x 0x005 (2 * h), pagesVf := x 0x005 (2 * h + 1), bar4Pf := x 0x006 (2 * h), bar4Vf := x 0x006 (2 * h + 1)
      cxlBase0 := c.param 0x28 0x040 (2 * h), cxlSize0 := c.param 0x28 0x041 (2 * h)
      cxlBase1 := c.param 0x28 0x040 (2 * h + 1), cxlSize1 := c.param 0x28 0x041 (2 * h + 1), cxlWithdrawn := [] }

/-- The windows of the functions of a host port are cleared (R484). -/
def Chip.clearWindows (c : Chip) (h : Nat) : Chip :=
  let mine (n : Nat) : Bool := pArea n == 0x29 && 0x100 ≤ pObj n && pObj n < 0x1C0 && pElem n / 256 == h
  { c with
    dict := { c.dict with active := Tab.keep c.dict.active fun n _ => !mine n }
    br := { c.br with
      status := Tab.keep c.br.status fun k _ => k % 1024 / 256 != h
      lines := c.br.lines.filter fun x => x.fn / 256 != h
      ops := mapIf (fun o => o.fn / 256 == h) (fun o => { o with expired := true }) c.br.ops } }

/-- The configuration space of a PF at its reset. -/
def Func.configReset (f : Func) : Func :=
  { f with
    busMaster := false, msixEnable := false, functionMask := false, atomicRequester := false, atsEnable := false
    relaxedOrdering := true, maxPayload := 0, maxReadRequest := 2 }

/-- A host port as PERST_N leaves it (R484): every function is disabled, windows, management FIFOs and configuration space
are reset, the link is down and the latched parameters change. -/
def Chip.perstPort (c : Chip) (h : Nat) : Chip :=
  let c := ((c.disableFn (h * 256)).updFn (h * 256) fun f => { f.configReset with flr := true }).endVfs h
  let c := ((c.clearWindows h).emptyMgmt h).latchPort h
  (c.updPort h fun p => { p with link := .down, width := 0, rate := 0, flit := false, numVfs := 0 }).setCond
    (0x3C + h) 0x100 false 1 (60 + h)

/-- PERST_N_ASSERT. -/
def Chip.perstAssert (c : Chip) (h : Nat) : Chip :=
  if !c.hasHost h || (c.port h).perst then c
  else if !c.up then c.updPort h fun p => { p with perst := true, link := .down }
  else (c.updPort h fun p => { p with perst := true }).perstPort h

/-- A CXL range that reaches beyond fabric memory is reported with size 0 (R306). -/
def Chip.checkRange (c : Chip) (h : Nat) (base size : HostPort → Nat) (drop : HostPort → HostPort) : Chip :=
  let p := c.port h
  if size p ≠ 0 ∧ c.mem.size < base p + size p then (c.updPort h drop).raise (0x3C + h) 0x102 1 (60 + h) else c

/-- Both CXL ranges of a port. -/
def Chip.checkRanges (c : Chip) (h : Nat) : Chip :=
  (c.checkRange h (·.cxlBase0) (·.cxlSize0) fun p => { p with cxlSize0 := 0 }).checkRange h (·.cxlBase1) (·.cxlSize1)
    fun p => { p with cxlSize1 := 0 }

/-- A host port begins to train, unless its mode is disabled. -/
def Chip.hostDetect (c : Chip) (h : Nat) : Chip :=
  (c.checkRanges h).updPort h fun p => { p with link := if p.mode = 0 then .down else .detect }

/-- PERST_N_DEASSERT: the port trains, from boot step 7 on (R481). -/
def Chip.perstDeassert (c : Chip) (h : Nat) : Chip :=
  if !c.hasHost h || !(c.port h).perst then c
  else
    let c := c.updPort h fun p => { p with perst := false }
    if c.up && !c.unitStopped (0x3C + h) then c.hostDetect h else c

/-- The rates that a host port supports, in GT/s (R100). -/
def hostRate (rate : Nat) : Bool := rate == 16 || rate == 32 || rate == 64

/-- FLIT mode is used where the partner supports it at the rate, and 64 GT/s knows no other (R100). -/
def flitMode (rate : Nat) (partner : Bool) : Bool := rate == 64 || partner

/-- HOST_LINK_TRAINED at a width and a rate, with a partner that supports FLIT mode at that rate or not (R100): a width
narrower than x8 is held in Disabled and raises the width source; a rate that the port does not support trains no link. -/
def Chip.hostTrained (c : Chip) (h width rate : Nat) (flit : Bool) : Chip :=
  let p := c.port h
  if !c.hasHost h || p.perst || c.unitStopped (0x3C + h) || !(p.link == .detect || p.link == .up) || !hostRate rate then c
  else
    let w := if 16 ≤ min width p.maxWidth then 16 else if 8 ≤ min width p.maxWidth then 8 else min width p.maxWidth
    let c := c.updPort h fun p => { p with width := w, rate := rate, flit := flitMode rate flit }
    if w < 8 then (c.updPort h fun p => { p with link := .disabled }).setCond (0x3C + h) 0x100 true 1 (60 + h)
    else (c.updPort h fun p => { p with link := .up }).setCond (0x3C + h) 0x100 false 1 (60 + h)

/-! ### Vectors (R108, R109) -/

/-- Pending messages that nothing masks any more are sent. -/
def Chip.sendPending (c : Chip) (fn : Nat) : Chip :=
  let f := c.fn fn
  if !f.msixEnable || !f.busMaster || f.functionMask then c
  else
    let ready := f.pba.filter fun v => f.unmasked.contains v
    ready.foldl (fun c v => (c.updFn fn fun g => { g with pba := g.pba.erase v }).sendMsix fn v) c

/-- The number of vectors of a function. -/
def vectorCount (fn : Nat) : Nat := if fn % 256 = 0 then 2048 else 64

/-- VECTOR_UNMASK: the Mask bit of a vector is cleared. -/
def Chip.unmask (c : Chip) (fn v : Nat) : Chip :=
  if !c.fnExists fn || vectorCount fn ≤ v then c
  else (c.updFn fn fun f => { f with unmasked := insertNat v f.unmasked }).sendPending fn

/-- The Mask bit of a vector is set. -/
def Chip.mask (c : Chip) (fn v : Nat) : Chip :=
  if !c.fnExists fn || vectorCount fn ≤ v then c else c.updFn fn fun f => { f with unmasked := f.unmasked.erase v }

/-! ### The counter page (R110, R449) -/

/-- The slot of the counter page at a BAR0 offset. -/
def Chip.counterSlot (c : Chip) (fn off : Nat) : Word :=
  let k := (off - 0x4000) / 8
  if 0x4000 ≤ off ∧ k < 7 then c.fnCounter k fn else 0

/-- What an access to a 64-bit register returns of it: all of it, or the addressed half (R106). -/
def halfOf (off : Nat) (wide : Bool) (w : Word) : Word :=
  if wide then w else if off / 4 % 2 = 0 then BitVec.ofNat 64 (w.field 31 0) else BitVec.ofNat 64 (w.field 63 32)

/-- A read of the counter page at a BAR0 offset 0x4000 to 0x7FFF: 64 bits, or the addressed half. -/
def Chip.counterPage (c : Chip) (fn off : Nat) (wide : Bool) : Chip :=
  if !c.fnExists fn ∨ off < 0x4000 ∨ 0x8000 ≤ off then c
  else if c.param 0x20 0x012 fn ≠ 1 then (c.reply fn 0).raise (0x3C + fn / 256) 0x101 12 fn
  else
    let w := c.counterSlot fn off
    c.reply fn (halfOf off wide w)

end Sys2Proof.Machine
end

