-- ==== Sys2Proof/Machine/TimeOps.lean ====
section
/-! DEFINITION. Fabric time and its servo, PPS, pace, AVS and the thermal warning (R432 to R446, R500, R502). -/

namespace Sys2Proof

/-- An item as bytes (R434). -/
def TimeItem.bytes (i : TimeItem) : List Byte :=
  [BitVec.ofNat 8 i.tseq, BitVec.ofNat 8 i.eseq,
    BitVec.ofNat 8 (natOfBool i.valid * 128 + natOfBool i.root * 64 + natOfBool i.evalid * 32), BitVec.ofNat 8 i.depth] ++
  bytesBE 2 (i.rootId % 2 ^ 15) ++ bytesBE 2 i.rootGen.toNat ++ Word.be i.ttx ++ Word.be i.erx ++ zeros 8

/-- A 64-bit difference read as signed. -/
def signedDiff (a b : Word) : Int := (a - b).toInt

/-- e of R439: the stamp less the phase, modulo 4,000,000,000 counts, into the range −2,000,000,000 to 1,999,999,999. -/
def ppsError (stamp phase : Nat) : Int :=
  let r : Int := ((stamp : Int) - phase) % 4000000000
  if r < 2000000000 then r else r - 4000000000

end Sys2Proof

namespace Sys2Proof.Machine

/-- The timebase unit. -/
def tbUnit : Nat := 0xC0

/-- The neighbour record of a port. -/
def Chip.peer (c : Chip) (p : Nat) : Peer := Tab.get c.tb.peers p Peer.init

/-- Update a neighbour record. -/
def Chip.updPeer (c : Chip) (p : Nat) (f : Peer → Peer) : Chip :=
  { c with tb := { c.tb with peers := Tab.upd c.tb.peers p Peer.init f } }

/-- The TIM cluster runs. -/
def Chip.timUp (c : Chip) : Bool := c.clusterUp 5

/-- The chip's own state makes its items VALID (R434). -/
def SyncState.valid : SyncState → Bool
  | .locked | .holdover | .root => true
  | _ => false

/-- P08.011 STATE. -/
def SyncState.code : SyncState → Nat
  | .free => 0 | .acquire => 1 | .locked => 2 | .holdover => 3 | .lost => 4 | .root => 5

/-- DEPTH as items carry it: 0xFF while the chip's own state does not make them VALID (R434). -/
def Chip.sentDepth (c : Chip) : Nat := if c.tb.state.valid then c.tb.depth else 255

/-! ### Items (R434) -/

/-- The item that a port sends now; its stamp TTX is written as the LCB leaves. -/
def Chip.ownItem (c : Chip) (p : Nat) : TimeItem :=
  let x := c.peer p
  let valid := c.tb.state.valid
  { tseq := x.txSeq, eseq := (x.item.map (·.tseq)).getD 0, valid := valid, root := c.tb.state == .root, evalid := x.item.isSome
    depth := c.sentDepth, rootId := c.tb.rootId, rootGen := c.tb.rootGen, ttx := c.tb.time, erx := x.arrived }

/-- TIME_EXCHANGE_SEND: the TIM cluster sends an item on an Active port. -/
def Chip.timeSend (c : Chip) (p : Nat) : Chip :=
  if !c.portActive p ∨ !c.timUp then c
  else
    let c := c.queueItem p 2 (c.ownItem p).bytes
    (c.updPeer p fun x => { x with txSeq := (x.txSeq + 1) % 256 }).sendLcb p

/-! ### Parent (R435) -/

/-- A port's latest item is current and offers a parent: VALID, not older than 32 µs, on an Active port. -/
def Chip.timeOffer (c : Chip) (p : Nat) : Option TimeItem :=
  match (c.peer p).item with
  | some i => if i.valid && c.portActive p && decide (c.now ≤ (c.peer p).atTick + 32000) then some i else none
  | none => none

/-- The parent, while its latest item is current and its port Active (R435). -/
def Chip.parentNow (c : Chip) : Option Nat := c.tb.parent.filter fun p => (c.timeOffer p).isSome

/-- P08.011 (R442). -/
def Chip.syncWord (c : Chip) : Nat :=
  (mkWord [(c.tb.state.code, 60), (c.sentDepth, 52), (c.tb.rootGen.toNat, 36), (c.tb.rootId, 20), (c.parentNow.getD 0, 14)]).toNat

/-- When a port ceased to offer a parent: 32 µs after its latest item, or as it left Active (R435). -/
def Chip.offerEnded (c : Chip) (p : Nat) : Nat :=
  let t := (c.peer p).atTick + 32000
  if c.portActive p then t else min t ((c.tport p).leftAt.getD c.now)

/-- Order of candidates: ROOTID, then DEPTH, then peer chip id; the lower port comes first by its place. -/
def Chip.beats (c : Chip) (a b : Nat × TimeItem) : Bool :=
  let chip (p : Nat) : Nat := (c.neighbour? p).getD 0
  a.2.rootId < b.2.rootId || (a.2.rootId == b.2.rootId && (a.2.depth < b.2.depth || (a.2.depth == b.2.depth && chip a.1 < chip b.1)))

/-- The parent of R435, if any port offers one. -/
def Chip.bestParent (c : Chip) : Option (Nat × TimeItem) :=
  (List.range 60).foldl (fun b p =>
    match c.timeOffer p with
    | none => b
    | some i => match b with
      | none => some (p, i)
      | some x => if c.beats (p, i) x then some (p, i) else some x) none

/-! ### State changes (R437, R438) -/

/-- The condition of timebase cause 0x101, fabric time lost. -/
def Chip.lostCond (c : Chip) (on : Bool) : Chip :=
  ({ c with tb := { c.tb with lostRaised := on } }).setCond tbUnit 0x101 on 11 tbUnit

/-- Entry to Lost: event 0x0C on every enabled PF, once. -/
def Chip.timeLost (c : Chip) : Chip :=
  (({ c with tb := { c.tb with state := .lost, depth := 255, parent := none, measured := [] } }).lostCond true).eventPFs 0x0C tbUnit 0 0

/-- A step of fabric time by `d` counts; stamps of items sent before it measure nothing any more, and gates follow (R360). -/
def Chip.timeStep (c : Chip) (d : Int) : Chip :=
  ({ c with tb := { c.tb with
      time := c.tb.time + BitVec.ofInt 64 d
      peers := Tab.mapVals c.tb.peers fun _ x => { x with sentAt := [] } } } : Chip).gatesRetimed

/-- The correction in use: the frequency error that the servo estimates is not stated, so only the bound of R436 holds. -/
def Chip.setRate (c : Chip) : Chip :=
  let v : Int := (c.freeNow % 1000001 : Nat) - 500000
  ({ c with tb := { c.tb with rateCorr := v } }).drawn

/-- Half of a difference of stamps; where half a count is left over, its rounding is a free value. -/
def Chip.halved (c : Chip) (x : Int) : Chip × Int :=
  if x % 2 = 0 then (c, x / 2) else (c.drawn, x / 2 + (c.freeNow % 2 : Nat))

/-- The chip follows a parent: parent, root, generation and depth (R435). -/
def Chip.follow (c : Chip) (p : Nat) (i : TimeItem) : Chip :=
  { c with tb := { c.tb with
      parent := some p, rootId := i.rootId, rootGen := i.rootGen, depth := min 254 (i.depth + 1) } }

/-- Into Acquire, from Free or Lost. -/
def Chip.acquire (c : Chip) (p : Nat) (i : TimeItem) : Chip :=
  let c := c.follow p i
  { c with tb := { c.tb with state := .acquire, prev := c.tb.state, measured := [] } }

/-- The parent is chosen again and the state follows; while TIM is down, a chip in Holdover stays there (R435, R438). -/
def Chip.chooseParent (c : Chip) : Chip :=
  match c.bestParent with
  | none => c
  | some (p, i) =>
    let moved := i.rootId != c.tb.rootId || i.rootGen != c.tb.rootGen
    match c.tb.state with
    | .root => c
    | .free | .lost => if c.timUp then c.acquire p i else c
    | .acquire =>
      if !c.timUp ∨ (c.tb.parent = some p ∧ !moved) then c
      else { c.follow p i with tb := { (c.follow p i).tb with measured := [] } }
    | .locked => if moved then c.timeLost else c.follow p i
    | .holdover =>
      if !c.timUp then c
      else if moved then c.timeLost
      else { c.follow p i with tb := { (c.follow p i).tb with state := .locked } }

/-! ### Measurement (R436) -/

/-- θ and d from the four stamps: t4 − t3 and t2 − t1. -/
def Chip.thetaDelay (c : Chip) (t1 t2 t3 t4 : Word) : Chip × Int × Int :=
  let a := signedDiff t4 t3
  let b := signedDiff t2 t1
  let r := c.halved (a - b)
  let r' := r.1.halved (a + b)
  (r'.1, r.2, r'.2)

/-- A measurement is accepted: a first one, or one within 8 ns of the running delay, the average of those kept. -/
def delayOk (kept : List Int) (d : Int) : Bool := kept.isEmpty || decide ((d * kept.length - kept.sum).natAbs ≤ 32 * kept.length)

/-- The delay enters the average over the last 16 measurements; where that is no whole number of counts, its rounding in P08.014 is a
free value. -/
def Chip.noteDelay (c : Chip) (p : Nat) (d : Int) : Chip :=
  let l := (d :: (c.peer p).delays).take 16
  let up : Nat := if l.sum % l.length = 0 then 0 else c.freeNow % 2
  let c := c.drawn.updPeer p fun x => { x with delays := l }
  { c with tb := { c.tb with delayAvg := Tab.set c.tb.delayAvg 0 p (l.sum / l.length + up).toNat } }

/-- What an accepted θ does (R436 to R438). -/
def Chip.takeTheta (c : Chip) (theta : Int) : Chip :=
  let c := { c with tb := { c.tb with lastOffset := theta } }
  match c.tb.state with
  | .acquire =>
    let l := theta :: c.tb.measured
    if l.length < 4 then { c with tb := { c.tb with measured := l } }
    else
      let c := (c.timeStep (-theta)).setRate
      ({ c with tb := { c.tb with state := .locked, measured := [], everLocked := true } }).lostCond false
  | .locked => if 4000 < theta.natAbs then c.timeLost else c.setRate
  | _ => c

/-- Measure against the parent with an item just received from it. -/
def Chip.measure (c : Chip) (p : Nat) (i : TimeItem) : Chip :=
  match Tab.get? (c.peer p).sentAt i.eseq with
  | none => c
  | some t1 =>
    let r := c.thetaDelay t1 i.erx i.ttx c.tb.time
    if delayOk (c.peer p).delays r.2.2 then ((r.1.noteDelay p r.2.2).takeTheta r.2.1) else r.1

/-- TIME_EXCHANGE_RECEIVE (R434 to R438). -/
def Chip.timeReceive (c : Chip) (p : Nat) (i : TimeItem) : Chip :=
  if !c.portActive p then c
  else
    let c := c.updPeer p fun x => { x with item := some i, arrived := c.tb.time, atTick := c.now }
    if c.tb.state = .root then
      if i.root && decide (i.rootId < c.id) then c.raise tbUnit 0x100 11 tbUnit else c
    else
      let c := c.chooseParent
      if c.timUp && c.tb.parent == some p && i.evalid && (c.tb.state == .acquire || c.tb.state == .locked) then c.measure p i else c

/-- PARENT_TIMEOUT: no parent for 32 µs (R438), counted from when the parent was one no longer (DEDUCED: an item is current for 32 µs,
and only then begins the time without a parent); where a neighbour offers one, it is chosen instead (R435). -/
def Chip.parentTimeout (c : Chip) : Chip :=
  match c.bestParent with
  | some _ => c.chooseParent
  | none =>
    match c.tb.parent with
    | none => c
    | some p =>
      if c.now < c.offerEnded p + 32000 then c
      else
        let c := { c with tb := { c.tb with parent := none } }
        match c.tb.state with
        | .acquire => { c with tb := { c.tb with state := c.tb.prev, depth := 255, measured := [] } }
        | .locked => { c with tb := { c.tb with state := .holdover, holdoverAt := c.now } }
        | _ => c

/-- The TIM cluster goes down (R28, R438). -/
def Chip.timDown (c : Chip) : Chip :=
  match c.tb.state with
  | .locked => { c with tb := { c.tb with state := .holdover, holdoverAt := c.now } }
  | .acquire => { c with tb := { c.tb with state := c.tb.prev, depth := 255, parent := none, measured := [] } }
  | _ => c

/-- The TIM cluster returns (R28, R438): where a neighbour offers a parent, a chip in Holdover is Locked again, and one in Free or
Lost acquires. -/
def Chip.timResume (c : Chip) : Chip := c.chooseParent

/-- HOLDOVER_EXPIRY: P08.004 has passed in Holdover (R438). -/
def Chip.holdoverExpiry (c : Chip) : Chip :=
  if c.tb.state = .holdover ∧ c.tb.holdoverAt + 1000 * c.param 0x08 0x004 0 ≤ c.now then c.timeLost else c

/-! ### The root (R437, R439, R502) -/

/-- A root steps: ROOTGEN advances. -/
def Chip.rootStep (c : Chip) (d : Int) : Chip :=
  let c := c.timeStep d
  { c with tb := { c.tb with rootGen := c.tb.rootGen + 1 } }

/-- SET_TIME: a write of P08.010; 0x07 on a chip that is not the root. -/
def Chip.setTime (c : Chip) (t : Word) : Chip × Nat :=
  if c.tb.state = .root then (c.rootStep (signedDiff t c.tb.time), 0) else (c, 7)

/-- P08.001 takes effect (R437, R438). -/
def Chip.rootSetting (c : Chip) : Chip :=
  let on := c.param 0x08 0x001 0 == 1
  if on && c.tb.state != .root then
    ({ c with tb := { c.tb with
        state := .root, depth := 0, parent := none, measured := [], rootId := c.id, rootGen := c.tb.rootGen + 1 } }).lostCond false
  else if !on && c.tb.state == .root then { c with tb := { c.tb with state := .free, depth := 255, parent := none } }
  else c

/-- PPS_EDGE (R439, R502): the stamp has an uncertainty of 1 ns, a free value. While TIM, which turns stamps into corrections, is
down, the edge corrects nothing (R28, R438). -/
def Chip.ppsEdge (c : Chip) : Chip :=
  if c.tb.state ≠ .root ∨ c.param 0x08 0x002 0 ≠ 1 then c
  else if (c.tb.lastPps.map fun t => decide (c.now < t + 500000000)).getD false then c.bump tbUnit .ppsRejected
  else
    let stamp := c.tb.time + BitVec.ofNat 64 (c.freeNow % 9) - 4
    let e := ppsError stamp.toNat (c.param 0x08 0x003 0)
    let c := ({ c with tb := { c.tb with lastPps := some c.now } }).drawn
    if !c.timUp then c
    else if 4000 < e.natAbs then c.rootStep (-e) else ({ c with tb := { c.tb with lastOffset := e } }).setRate

/-! ### Pace and AVS (R443 to R445, R500) -/

/-- A trim of area 02, signed; 0 while calibration is invalid (R446). -/
def Chip.trim (c : Chip) (obj i : Nat) : Int := if c.calInvalid then 0 else ofTwos 16 (c.param 0x02 obj i)

/-- PACE_WINDOW: the 16 raw counts of a 1 µs window. -/
def Chip.paceWindow (c : Chip) (raw : List Int) : Chip :=
  (List.range 16).foldl (fun c i =>
    let r := ((raw[i]?).getD 0 + c.trim 0x020 i).toNat
    let low := decide (r < c.param 0x08 0x042 0)
    let c := { c with pace := { c.pace with
      pace := Tab.set c.pace.pace 0 i r
      low := if low then insertNat i c.pace.low else c.pace.low.filter (· != i) } }
    c.setCond (0xD0 + i) 0x100 low 11 (0xD0 + i)) c

/-- The lowest reading of the monitors that take part (R444, R484). -/
def Chip.lowestPace (c : Chip) : Option Nat :=
  (((List.range 16).filter fun i => !c.pace.excluded.contains i).map fun i => Tab.get c.pace.pace i 0).min?

/-- The next request of the loop (R444). -/
def Chip.nextRequest? (c : Chip) : Option Nat :=
  c.lowestPace.map fun p =>
    let v := c.pace.request
    let target := c.param 0x08 0x041 0
    let v := if p < c.param 0x08 0x042 0 then v + 20 else if p + 25 < target then v + 5 else if target + 75 < p then v - 5 else v
    max (c.param 0x08 0x043 0) (min (c.param 0x08 0x044 0) v)

/-- The first request after power-up or a chip reset is P08.044, sent to the regulator (R444). -/
def Chip.firstRequest (c : Chip) : Chip :=
  let v := c.param 0x08 0x044 0
  { c with pace := { c.pace with wanted := some v } }.emit (.avsWrite v)

/-- AVS_LOOP (R444): the FAB cluster sends a voltage write where the request changes. -/
def Chip.avsLoop (c : Chip) : Chip :=
  if !c.clusterUp 1 then c
  else match c.nextRequest? with
    | none => c
    | some v =>
      if v = c.pace.request then c
      else { c with pace := { c.pace with wanted := some v } }.emit (.avsWrite v)

/-- An AVSBus write failed (R500): the request in force stays. -/
def Chip.avsFailed (c : Chip) : Chip :=
  match c.pace.wanted with
  | none => c
  | some _ => ({ c with pace := { c.pace with wanted := none } }).raise 0x91 0x102 0 0

/-- AVS_RESPONSE (R500). -/
def Chip.avsResponse (c : Chip) (good : Bool) : Chip :=
  match c.pace.wanted with
  | none => c
  | some v => if good then { c with pace := { c.pace with request := v, wanted := none } } else c.avsFailed

/-- P08.045: the last request sent. -/
def Chip.avsRequest (c : Chip) : Nat := c.pace.wanted.getD c.pace.request

/-! ### Thermal warning (R446) -/

/-- The 16 sensors as trimmed readings. -/
def Chip.senseTemps (c : Chip) (raw : List Int) : Chip :=
  { c with pace := { c.pace with
      temps := (List.range 16).map fun i => (i, (raw[i]?).getD 0 + c.trim 0x021 i) } }

/-- The highest reading with its sensor. -/
def Chip.hottest (c : Chip) : Option (Nat × Int) :=
  c.pace.temps.foldl (fun b r => match b with
    | none => some r
    | some x => if x.2 < r.2 then some r else b) none

/-- Every sensor has fallen below P08.047 − 5 °C: the event may come again. -/
def Chip.thermalRearm (c : Chip) : Chip :=
  let limit : Int := 10 * ((c.param 0x08 0x047 0 : Nat) - 5)
  if c.pace.temps.all fun r => decide (r.2 < limit) then
    let c := { c with pace := { c.pace with warned := false } }
    (List.range 16).foldl (fun c i => c.setCond (0xD0 + i) 0x101 false 11 (0xD0 + i)) c
  else c

/-- THERMAL_WARNING. -/
def Chip.thermalWarning (c : Chip) (raw : List Int) : Chip :=
  let c := (c.senseTemps raw).thermalRearm
  let limit : Int := 10 * c.param 0x08 0x047 0
  let hot := c.pace.temps.filter fun r => decide (limit ≤ r.2)
  let c := hot.foldl (fun c r => c.setCond (0xD0 + r.1) 0x101 true 11 (0xD0 + r.1)) c
  match c.hottest with
  | some (i, t) =>
    if limit ≤ t ∧ !c.pace.warned then
      ({ c with pace := { c.pace with warned := true } }).eventPFs 0x0A (0xD0 + i) 0 (twos 8 (t / 10))
    else c
  | none => c

/-- THERMAL_WARNING_CLEAR. -/
def Chip.thermalClear (c : Chip) (raw : List Int) : Chip := (c.senseTemps raw).thermalRearm

end Sys2Proof.Machine
end

