-- ==== Sys2Proof/Machine/BootOps.lean ====
section
/-! DEFINITION. Power, reset, boot, the processor clusters and the firmware update (R22 to R28, R52, R475 to R487, R509). -/

namespace Sys2Proof.Machine

/-! ### Pointer records and firmware slots (R476, R477) -/

/-- Some bytes of a pointer record as a number, least significant first (R476). -/
def ptrField (l : List Byte) (off n : Nat) : Nat := natLE ((l.drop off).take n)

/-- The generation of a pointer record. -/
def ptrGen (l : List Byte) : Nat := ptrField l 4 4

/-- A pointer record is valid: magic, slot and CRC-32C are correct (R476). -/
def ptrValid (l : List Byte) : Bool :=
  l.length == 64 && ptrField l 0 4 == 0x50544B49 && decide (ptrField l 8 1 ≤ 1) && ptrField l 60 4 == (crc32c (l.take 60)).toNat

/-- Bytes 0 to 59 of a pointer record (R476). -/
def ptrBody (generation slot : Nat) (version : Word) : List Byte :=
  bytesLE 4 0x50544B49 ++ bytesLE 4 generation ++ bytesLE 1 slot ++ zeros 7 ++ version.le ++ zeros 36

/-- A pointer record with its CRC (R476). -/
def ptrRecord (generation slot : Nat) (version : Word) : List Byte :=
  let body := ptrBody generation slot version
  body ++ bytesLE 4 (crc32c body).toNat

/-- The newest valid pointer record and its location. -/
def Flash.newestPtr (f : Flash) : Option (Nat × List Byte) :=
  let a := Tab.get f.ptrs 0 []
  let b := Tab.get f.ptrs 1 []
  match ptrValid a, ptrValid b with
  | true, true => if ptrGen b ≤ ptrGen a then some (0, a) else some (1, b)
  | true, false => some (0, a)
  | false, true => some (1, b)
  | false, false => none

/-- The boot slot that the pointer records name (R476). -/
def Flash.bootSlot (f : Flash) : Nat := (f.newestPtr.map fun r => ptrField r.2 8 1).getD 0

/-- P38.003. -/
def Flash.ptrGeneration (f : Flash) : Nat := (f.newestPtr.map fun r => ptrGen r.2).getD 0

/-- A firmware slot. -/
def Flash.slot (f : Flash) (i : Nat) : FwSlot := Tab.get f.slots i FwSlot.init

/-- Change a firmware slot. -/
def Flash.updSlot (f : Flash) (i : Nat) (g : FwSlot → FwSlot) : Flash := { f with slots := Tab.upd f.slots i FwSlot.init g }

/-- Bytes of one block of an update. -/
def blockBytes : Nat := 524288

/-- A byte of a slot; what no block has written is as erased. -/
def FwSlot.byte (s : FwSlot) (i : Nat) : Byte := ((Tab.get? s.blocks (i / blockBytes)).bind fun l => l[i % blockBytes]?).getD 0xFF

/-- Bytes of a slot. -/
def FwSlot.bytes (s : FwSlot) (a n : Nat) : List Byte := (List.range n).map fun i => s.byte (a + i)

/-- The image in a slot verifies (R477). -/
def FwSlot.verifies (s : FwSlot) : Bool :=
  s.shipped ||
  (natLE (s.bytes 0 4) == 0x474D4B49 && natLE (s.bytes 4 2) == 1 && decide (natLE (s.bytes 6 2) ≤ 3) &&
    decide (1 ≤ natLE (s.bytes 16 4)) && decide (natLE (s.bytes 16 4) ≤ 16773120) &&
    Config.sha384 (s.bytes 80 96) == Config.fusedKeyHash (natLE (s.bytes 6 2)) && !Config.keyRevoked (natLE (s.bytes 6 2)) &&
    Config.ecdsaP384 (s.bytes 80 96) (Config.sha384 (s.bytes 0 176)) (s.bytes 176 96) &&
    bytesBE 48 (Config.sha384 (s.bytes 4096 (natLE (s.bytes 16 4)))).toNat == s.bytes 32 48)

/-- The header version of an image. -/
def FwSlot.headerVersion (s : FwSlot) : Word := if s.shipped then s.version else BitVec.ofNat 64 (natLE (s.bytes 8 8))

/-- A slot after its verification (R485): verified, or a bad image. -/
def FwSlot.checked (s : FwSlot) : FwSlot :=
  if s.verifies then { s with state := 2, version := s.headerVersion } else { s with state := 3, version := 0 }

/-- A slot after the boot ROM has tried it in place of the boot slot (R478). One that no update has completed keeps its state where it
does not verify (DESIGN CHOICE: R485 has a code for each of the two). -/
def FwSlot.tried (s : FwSlot) : FwSlot := if s.verifies || 2 ≤ s.state then s.checked else s

/-- The slot that a restarting cluster is loaded from: the boot slot (R22, R484), but no slot whose image does not verify is executed
(R477), so after a boot from the other slot it is that one (DEDUCED). -/
def Flash.loadSlot (f : Flash) (boot : Nat) : Nat :=
  if (f.slot boot).state ≠ 2 ∧ (f.slot (1 - boot)).state = 2 then 1 - boot else boot

/-! ### What a chip reset leaves (R484) -/

/-- The flash after a reset has interrupted its writing operation and the update (R52, R70, R487). -/
def Flash.interrupted (f : Flash) (updateState : Nat) : Flash :=
  let f := match f.saveJob with
    | some (b, _) => { f with banks := Tab.put f.banks b Bank.init, saveJob := none }
    | none => f
  let f := match f.calJob with
    | some _ => { f with calArea := none, calJob := none }
    | none => f
  let f := if updateState = 0 ∨ updateState = 6 ∨ updateState = 7 then f
    else f.updSlot (1 - f.bootSlot) fun s => { s with state := 1, version := 0 }
  { f with op := none, blockJob := none, saveState := 0, calState := 0 }

/-- Retired channel groups are tested again; what their PHY finds is left open (R282). -/
def Chip.retested (c : Chip) : Tab Group :=
  (List.range (4 * c.variant.stacks)).filterMap fun g =>
    if (c.group g).state = 1 ∨ bitOf (Config.freeValue c.free) g then none
    else some (g, { state := 3, absentAtLayout := true })

/-- The chip at a chip reset: what survives it is the die, the flash, pins and latches (R484). -/
def Chip.reset (c : Chip) (b : Boot) : Chip :=
  { variant := c.variant, serial := c.serial, boot := b
    flash := c.flash.interrupted c.fw.updateState
    dict := { fdpLastSeq := c.dict.fdpLastSeq }
    ports := Tab.mapVals c.ports fun _ p => { perst := p.perst }
    mem := { epoch := c.mem.epoch + 1, groups := c.retested }
    free := c.free + 1, out := c.out }

/-- POWER_ON: power returns with RESET_N low; the strap override, P30.F30 and P01.035 are cleared (R480, R484). -/
def Chip.powerOn (c : Chip) : Chip :=
  let c := c.reset { phase := .held, resetLow := true }
  { c with dict := Dict.init }

/-- RESET_N_ASSERT. A tripped chip stays in reset until its power is cycled (R509). -/
def Chip.resetAssert (c : Chip) : Chip :=
  if c.boot.phase = .tripped then { c with boot := { c.boot with resetLow := true } }
  else c.reset { c.boot with phase := .held, resetLow := true, fatalReset := false, faultInRecovery := false }

/-- RESET_N_RELEASE: the straps are latched, or the override in their place (R480). -/
def Chip.resetRelease (c : Chip) (grp : BitVec 10) (pos : BitVec 5) : Chip :=
  let b := c.boot
  if b.phase = .held then
    { c with boot := { b with
        phase := .booting, resetLow := false
        strapLatch := if b.overrideValid then b.overrideId else grp.toNat * 32 + pos.toNat } }
  else { c with boot := { b with resetLow := false } }

/-- STRAP_OVERRIDE_WRITE: served while RESET_N is low (R480). -/
def Chip.strapOverride (c : Chip) (v : BitVec 32) : Chip :=
  if c.boot.resetLow then
    { c with boot := { c.boot with overrideValid := bitOf v.toNat 31, overrideId := bits v.toNat 0 15 } }
  else c

/-- A chip reset by reaction 4 (R455, R473, R479): the sequence runs again from step 2, the latch is kept. -/
def Chip.fatalResets (c : Chip) : Chip :=
  c.reset { c.boot with phase := .booting, fatalReset := false, faultInRecovery := false }

/-- THERMAL_TRIP: a sensor reaches the trip temperature, whatever the state of the chip (R509). -/
def Chip.thermalTrip (c : Chip) (raw : List Int) : Chip :=
  if raw.any fun t => 1150 ≤ t then
    let b := c.boot
    if b.phase = .tripped then c
    else c.reset { b with phase := .tripped, trippedPin := true, fatalReset := false, faultInRecovery := false }
  else c

/-- What the JTAG port reads as IDCODE on every variant of revision B0 (R506). The rest of the port is boundary scan of the standards. -/
def jtagIdcode : BitVec 32 := 0xB0960A53

/-! ### Boot (R52, R70, R478, R479) -/

/-- BOOT_LOAD_COMPLETE: the boot slot verifies, or the other one does, or the recovery service begins (R478). -/
def Chip.bootLoad (c : Chip) : Chip :=
  if c.boot.phase ≠ .booting then c
  else
    let b := c.flash.bootSlot
    let start (c : Chip) (s : Nat) : Chip :=
      { c with
        boot := { c.boot with phase := .loaded }
        fw := { c.fw with bootSlot := b, running := (List.range 6).map fun i => (i, s) } }
    let c : Chip := { c with flash := c.flash.updSlot b FwSlot.checked }
    if (c.flash.slot b).state = 2 then start c b
    else
      let c : Chip := { c with flash := c.flash.updSlot (1 - b) FwSlot.tried }
      if (c.flash.slot (1 - b)).state = 2 then (start c (1 - b)).raise 0x90 0x103 8 (pnum 0x38 0x002 0)
      else { c with boot := { c.boot with phase := .recovery, faultInRecovery := true }, fw := { c.fw with bootSlot := b } }

/-- The newest valid bank and its number (R51). -/
def Flash.newestBank (f : Flash) : Option (Nat × Bank) :=
  let ok (b : Bank) : Bool := b.valid && b.generation != 0 && b.generation != 0xFFFFFFFF
  let a := Tab.get f.banks 0 Bank.init
  let b := Tab.get f.banks 1 Bank.init
  match ok a, ok b with
  | true, true => if b.generation ≤ a.generation then some (0, a) else some (1, b)
  | true, false => some (0, a)
  | false, true => some (1, b)
  | false, false => none

/-- One value of a bank (R52): unknown numbers are ignored, an out-of-range value is logged and takes its default. -/
def Chip.loadValue (c : Chip) (n x : Nat) : Chip :=
  match descOf c.variant n with
  | none => c
  | some d =>
    if !d.saved || !elementPresent c.variant d (pArea n) (pObj n) (pElem n) then c
    else if valueOk d (pArea n) (pObj n) (pElem n) (keepBits (pArea n) (pObj n) x) then
      c.setParam (pArea n) (pObj n) (pElem n) (storedForm (pArea n) (pObj n) (pElem n) (keepBits (pArea n) (pObj n) x))
    else c.raise 0x90 0x102 8 n

/-- The bank's values and key are loaded over the defaults (R52). -/
def Chip.loadBank (c : Chip) : Chip :=
  match c.flash.newestBank with
  | none => c
  | some (_, b) =>
    let c := b.values.foldl (fun c r => c.loadValue r.1 r.2) c
    { c with dict := { c.dict with fdpKey := b.key } }

/-- The built-in generic starting points and trims become the working copy (R70, R426, R427, R446): preset 5, peaking 12, no trim. -/
def Chip.genericCal (c : Chip) : Chip :=
  let put (t : Tab Nat) (n obj x : Nat) : Tab Nat := (List.range n).foldl (fun t e => Tab.put t (pnum 0x02 obj e) x) t
  let t := put (put c.dict.active 120 0x010 genericCoeffs) 120 0x011 genericPeaking
  { c with dict := { c.dict with active := put (put t 16 0x020 0) 16 0x021 0 } }

/-- The calibration working copy is loaded; if its check fails, calibration is invalid and the generic values take its place
(R70). -/
def Chip.loadCalibration (c : Chip) : Chip :=
  match c.flash.calArea with
  | some t =>
    let c := t.foldl (fun c r => c.setParam (pArea r.1) (pObj r.1) (pElem r.1) r.2) c
    { c with flash := { c.flash with calState := 0 } }
  | none => (Chip.genericCal { c with flash := { c.flash with calState := 2 } }).setCond 0x90 0x101 true 11 0x90

/-- HBM is laid out (R279, R283). -/
def Chip.layOut (c : Chip) : Chip :=
  let c := { c with mem := { c.mem with regionMiB := (List.range 7).map fun i => (i, c.param 0x28 0x001 i) } }
  { c with mem := { c.mem with size := layoutSize c.variant c.layoutGroups.length c.deviceSlabs } }

/-- JIG_SERVICE_UP: bank, calibration and clusters are loaded, HBM laid out, and ports begin to train (R479 steps 6 to 8). -/
def Chip.jigUp (c : Chip) : Chip :=
  if c.boot.phase ≠ .loaded then c
  else
    let c := (c.loadBank.loadCalibration).layOut
    let c : Chip := { c with boot := { c.boot with phase := .jig } }
    let c := (c.firstRequest.portsFollow false).gatesAtReset
    (List.range c.variant.hostPorts).foldl (fun c h =>
      let c := c.latchPort h
      if (c.port h).perst then c else c.hostDetect h) c

/-- Full service begins (R483): roles and tables govern, ports retrain, functions become ready. -/
def Chip.fullService (c : Chip) : Chip :=
  let active := (List.range 60).filter fun p => (c.tport p).state == .active
  let c : Chip := { c with boot := { c.boot with phase := .full } }
  let c := c.portsFollow true
  let c := active.foldl (fun c p =>
    if c.portWanted p then (c.updPortT p fun t => { t with everActive := false }).startRetrain p 12 else c) c
  let c := (List.range 60).foldl (fun c p => c.updPortT p fun t => { t with everActive := false, downSent := false }) c
  ((List.range (256 * c.variant.hostPorts)).filter fun f => c.fnState f == .notReady).foldl (fun c f => c.readyFn f) c

/-! ### Processor clusters (R22 to R28) -/

/-- Staged values of a set. -/
def Chip.unstage (c : Chip) (s : Nat) : Chip :=
  { c with dict := { c.dict with
      sets := Tab.del c.dict.sets s
      staged := Tab.keep c.dict.staged fun n _ => ((descOf c.variant n).map (·.set)).getD 0 != s } }

/-- What goes when MGT stops (R23): held chunks, and every set that was not committed. -/
def Chip.mgtDown (c : Chip) : Chip :=
  let c := { c with dict := { c.dict with held := [] } }
  (c.dict.sets.filter fun r => r.2.phase == .staging).foldl (fun c r => c.unstage r.1) c

/-- A cluster stops, in the state given: 1 restarting, 2 held. -/
def Chip.clusterDown (c : Chip) (i st : Nat) : Chip :=
  let c := { c with fw := { c.fw with clusters := Tab.set c.fw.clusters 0 i st } }
  if i = 0 then c.mgtDown else if i = 1 then (if c.rt.frozen.isSome then c else c.freezeRoutes) else if i = 5 then c.timDown else c

/-- What waited for a cluster goes on when it returns (R24 to R26, R28). -/
def Chip.clusterResumes (c : Chip) (i : Nat) : Chip :=
  if i = 1 then c.fabResume else if i = 2 then c.conReturns.runBridge else if i = 3 then c.collResume
  else if i = 5 then c.timResume else c

/-- The next restart of ACTIVATE (R487). -/
def Chip.activateNext (c : Chip) : Chip :=
  match c.fw.activate with
  | [] => if c.fw.updateState = 7 then { c with fw := { c.fw with updateState := 0 } } else c
  | i :: _ => if c.clusterUp i then c.clusterDown i 1 else c

/-- CLUSTER_RESTART_COMPLETE (R22): the cluster runs the boot slot, event 0x0D is raised, deferred work goes on. -/
def Chip.clusterBack (c : Chip) (unit : Nat) : Chip :=
  let i := unit - 0x90
  if unit < 0x90 ∨ 0x96 ≤ unit ∨ Tab.get c.fw.clusters i 0 ≠ 1 then c
  else
    let c := c.leaveReset unit
    let c := { c with fw := { c.fw with
        clusters := Tab.set c.fw.clusters 0 i 0, running := Tab.put c.fw.running i (c.flash.loadSlot c.fw.bootSlot) } }
    let c := (c.eventPFs 0x0D unit 0 unit).clusterResumes i
    match c.fw.activate with
    | [] => c
    | j :: l => if j = i then Chip.activateNext { c with fw := { c.fw with activate := l } } else c

/-- A write of P38.030: the cluster restarts; one that is restarting or held is busy. -/
def Chip.restartCluster (c : Chip) (unit : Nat) : Chip × Nat :=
  if c.clusterUp (unit - 0x90) then (c.clusterDown (unit - 0x90) 1, 0) else (c, 3)

/-- A host port whose block reset has ended trains again (R484). -/
def Chip.unitReturns (c : Chip) (u : Nat) : Chip :=
  if 0x3C ≤ u ∧ u < 0x40 ∧ c.up ∧ !(c.port (u - 0x3C)).perst then c.hostDetect (u - 0x3C) else c

/-- BLOCK_RESET_COMPLETE of any unit; that of a cluster is its restart (R484). -/
def Chip.blockResetDone (c : Chip) (u : Nat) : Chip :=
  if 0x90 ≤ u ∧ u < 0x96 then c.clusterBack u
  else if c.flt.inReset.contains u then (c.resetComplete u).unitReturns u
  else c

/-- A held unit is released (R459). -/
def Chip.unitRelease (c : Chip) (u : Nat) : Chip := (c.releaseUnit u).unitReturns u

/-! ### Firmware update (R485 to R487) -/

/-- The slot that an update writes. -/
def Chip.otherSlot (c : Chip) : Nat := 1 - c.fw.bootSlot

/-- Set P38.022 and P38.023. -/
def Chip.update (c : Chip) (st result : Nat) : Chip := { c with fw := { c.fw with updateState := st, updateResult := result } }

/-- Some cluster runs the inactive slot. -/
def Chip.runsOther (c : Chip) : Bool :=
  c.boot.phase != .recovery && c.fw.running.any fun r => r.2 == c.otherSlot

/-- BEGIN. -/
def Chip.beginUpdate (c : Chip) : Chip × Nat :=
  let st := c.fw.updateState
  if c.runsOther ∨ st = 3 ∨ st = 7 then (c, 7)
  else if c.flash.op.isSome then (c, 3)
  else
    let c := { c with flash := { (c.flash.updSlot c.otherSlot fun _ => { state := 1 }) with op := some .erase } }
    (c.update 1 c.fw.updateResult, 0)

/-- BEGIN_COMPLETE. -/
def Chip.beginDone (c : Chip) (ok : Bool) : Chip :=
  if c.flash.op ≠ some .erase then c
  else
    let c := { c with flash := { c.flash with op := none } }
    if ok then c.update 2 0 else c.update 8 0x0C

/-- A write of P38.020[k] whose length is right. -/
def Chip.blockWrite (c : Chip) (k : Nat) (l : List Byte) : Chip × Nat :=
  if c.fw.updateState ≠ 2 then (c, 7)
  else if c.flash.op.isSome then (c, 3)
  else ({ c with flash := { c.flash with op := some .block, blockJob := some (k, l) } }, 0)

/-- UPDATE_BLOCK_COMPLETE. -/
def Chip.blockDone (c : Chip) (ok : Bool) : Chip :=
  match c.flash.blockJob with
  | none => c
  | some (k, l) =>
    let c := { c with flash := { c.flash with op := none, blockJob := none } }
    if ok then
      ({ c with flash := c.flash.updSlot c.otherSlot fun s => { s with blocks := Tab.put s.blocks k l } } : Chip).update c.fw.updateState 0
    else c.update 8 0x0C

/-- VERIFY. -/
def Chip.verifyUpdate (c : Chip) : Chip × Nat :=
  if c.fw.updateState ≠ 2 then (c, 7)
  else (({ c with fw := { c.fw with verifying := true } } : Chip).update 3 c.fw.updateResult, 0)

/-- VERIFY_COMPLETE (R477). -/
def Chip.verifyDone (c : Chip) : Chip :=
  if !c.fw.verifying then c
  else
    let c := { c with fw := { c.fw with verifying := false }, flash := c.flash.updSlot c.otherSlot FwSlot.checked }
    if (c.flash.slot c.otherSlot).state = 2 then c.update 4 0 else c.update 8 0x0D

/-- The pointer location that a switch writes: the one without the newest valid record (R476). -/
def Flash.switchLocation (f : Flash) : Nat := match f.newestPtr with | some (0, _) => 1 | _ => 0

/-- SWITCH: phase 1 erases the location without the newest valid record (R476). -/
def Chip.switchSlot (c : Chip) : Chip × Nat :=
  if c.fw.updateState ≠ 4 ∨ (c.flash.slot c.otherSlot).state ≠ 2 then (c, 7)
  else if c.flash.op.isSome then (c, 3)
  else if 0xFFFFFFFE ≤ c.flash.ptrGeneration then (c, 0x0C)
  else
    let f := c.flash
    let c := { c with
      flash := { f with ptrs := Tab.del f.ptrs f.switchLocation, op := some .switch }
      fw := { c.fw with switchTo := some c.otherSlot } }
    (c.update 5 c.fw.updateResult, 0)

/-- SWITCH_COMPLETE: the record and its CRC are written (R476), or the flash failed. -/
def Chip.switchDone (c : Chip) (ok : Bool) : Chip :=
  match c.fw.switchTo with
  | none => c
  | some s =>
    let f := c.flash
    let c := { c with flash := { f with op := none }, fw := { c.fw with switchTo := none } }
    if ok then
      ({ c with
        flash := { c.flash with ptrs := Tab.put f.ptrs f.switchLocation (ptrRecord (f.ptrGeneration + 1) s (f.slot s).version) }
        fw := { c.fw with bootSlot := s } } : Chip).update 6 0
    else c.update 8 0x0C

/-- ACTIVATE: FLT, TIM, COL, CON, FAB and then MGT restart, one at a time. -/
def Chip.activate (c : Chip) : Chip × Nat :=
  if c.fw.updateState ≠ 6 then (c, 7)
  else ((({ c with fw := { c.fw with activate := [4, 5, 3, 2, 1, 0] } } : Chip).update 7 0).activateNext, 0)

end Sys2Proof.Machine
end

