-- ==== Sys2Proof/Machine/QueueCtl.lean ====
section
/-! DEFINITION. Doorbells, index blocks, the control queue pair, and the life of a queue (R125 to R138, R145, R146, R157 to R160). -/

namespace Sys2Proof.Machine

/-! ### The control queue pair (R128, R129) -/

/-- P21.004 of a function. -/
def Chip.ctlSetup (c : Chip) (fn : Nat) : Nat := c.param 0x21 0x004 fn
/-- ENABLE of the control queue pair. -/
def Chip.ctlEnabled (c : Chip) (fn : Nat) : Bool := bitOf (c.ctlSetup fn) 31
/-- log2 of the control SQ size. -/
def Chip.ctlSqLog (c : Chip) (fn : Nat) : Nat := bits (c.ctlSetup fn) 0 5
/-- A vector is bound to the control CQ. -/
def Chip.ctlVec? (c : Chip) (fn : Nat) : Option Nat := if bitOf (c.ctlSetup fn) 30 then some (bits (c.ctlSetup fn) 16 11) else none
/-- Address of the control index blocks. -/
def Chip.ctlIndex (c : Chip) (fn : Nat) : Nat := c.param 0x21 0x003 fn

/-- log2 of the control CQ size. -/
def Chip.ctlCqLog (c : Chip) (fn : Nat) : Nat := bits (c.ctlSetup fn) 5 5

/-- Write a field of a control index block: the control SQ's, or the control CQ's 64 bytes on (R128, R131). -/
def Chip.ctlIndexWrite (c : Chip) (fn : Nat) (cq : Bool) (off : Nat) (v : BitVec 32) : Chip :=
  c.emit (.indexWrite (fn / 256) fn (c.ctlIndex fn + (if cq then 64 else 0)) off v)

/-- The control SQ goes to error: its cause and STATE (R131). -/
def Chip.ctlSqStops (c : Chip) (fn cause : Nat) : Chip :=
  (c.updFn fn fun f => { f with ctlSqCause := cause }).ctlIndexWrite fn false 0x10 (stateWord .error cause)

/-- The control SQ is bound to the control CQ and follows it to error with cause 4; the entries not consumed flush as lost
completions (R131, R159 step 4). -/
def Chip.ctlSqFollows (c : Chip) (fn : Nat) : Chip :=
  let f := c.fn fn
  if f.ctlSqCause ≠ 0 then c
  else
    let n := (f.ctlSqPi - f.ctlSqCi).toNat
    let c := (c.ctlSqStops fn 4).updFn fn fun f => { f with ctlSqCi := f.ctlSqPi }
    (if n = 0 then c else c.ctlIndexWrite fn false 8 f.ctlSqPi).bumpFn 2 fn n

/-- A control queue goes to error: its cause and STATE, event 0x07 or 0x06 with queue number 0; the control SQ follows its CQ
(R131, R133, R159 step 4). -/
def Chip.ctlError (c : Chip) (fn : Nat) (cq : Bool) (cause : Nat) : Chip :=
  if cq then
    if (c.fn fn).ctlCqCause ≠ 0 then c
    else
      let c := (c.updFn fn fun f => { f with ctlCqCause := cause }).ctlIndexWrite fn true 0x10 (stateWord .error cause)
      (c.postEvent fn 0x06 0xA2 0 cause).ctlSqFollows fn
  else if (c.fn fn).ctlSqCause ≠ 0 then c
  else (c.ctlSqStops fn cause).postEvent fn 0x07 0xA2 0 cause

/-- Write the next entry of the control CQ: the entry, then PI; a waiting ARM signals (R132, R138, R154). -/
def Chip.ctlCqe (c : Chip) (fn : Nat) (p : Completion) : Chip :=
  let f := c.fn fn
  let c := c.emit (.completion (fn / 256) fn 0 (slotAddr (c.param 0x21 0x002 fn) (c.ctlCqLog fn) 32 f.ctlCqPi) p.words)
  let c := c.ctlIndexWrite fn true 0 (f.ctlCqPi + 1)
  let hit := f.ctlArmed && (!f.ctlSolOnly || (p.status.toNat != 0 && p.status.toNat != 0x0F))
  let c := c.updFn fn fun f => { f with ctlCqPi := f.ctlCqPi + 1, ctlArmed := f.ctlArmed && !hit }
  match hit, c.ctlVec? fn with
  | true, some v => c.signal fn v
  | _, _ => c

/-- The control CQ is full: it takes a backlog, or goes to error where none is free (R159 step 1, R160). -/
def Chip.ctlTakeBacklog (c : Chip) (fn : Nat) (p : Completion) : Chip :=
  if c.backlogsTaken ≥ c.backlogsTotal then (c.ctlError fn true 2).bumpFn 2 fn
  else (c.updFn fn fun f => { f with ctlBacklogged := true, ctlBacklog := [p] }).postEvent fn 0x05 0xA2 0 0

/-- A completion of the control CQ: ring, backlog or loss, as for every CQ (R146, R159). It is no completion of a queue that
R239 names: its CQ has no number, so no trigger counter advances on it (DESIGN CHOICE). -/
def Chip.ctlComplete (c : Chip) (fn : Nat) (p : Completion) : Chip :=
  let f := c.fn fn
  if c.silentFn fn ∨ !c.ctlEnabled fn then c
  else if f.ctlCqCause ≠ 0 then c.bumpFn 2 fn
  else
    let p := { p with time := BitVec.ofNat 48 c.tb.time.toNat }
    if f.ctlBacklogged then
      if backlogMax ≤ f.ctlBacklog.length then (c.ctlError fn true 1).bumpFn 2 fn
      else c.updFn fn fun f => { f with ctlBacklog := f.ctlBacklog ++ [p] }
    else if !ringFull (c.ctlCqLog fn) f.ctlCqPi f.ctlCqCi then c.ctlCqe fn p
    else
      let ci := c.ciNow
      let log := c.ctlCqLog fn
      let c := c.drawn
      if tooMany log f.ctlCqPi ci then (c.ctlError fn true 3).bumpFn 2 fn
      else
        let c := c.updFn fn fun f => { f with ctlCqCi := ci }
        if ringFull log f.ctlCqPi ci then c.ctlTakeBacklog fn p else c.ctlCqe fn p

/-- The completion of a control entry: the queue number in CW2 [23:0], the reason of a failure in CW3 [7:0] (R146). -/
def ctlCompletion (e : Entry) (qn reason : Nat) : Completion :=
  { wrid := e.wrid, status := if reason = 0 then 0 else 0x0A, opcode := BitVec.ofNat 8 e.opcode, peer := BitVec.ofNat 32 qn
    result := BitVec.ofNat 64 reason }

/-- A control entry completes. -/
def Chip.ctlDone (c : Chip) (fn : Nat) (e : Entry) (qn reason : Nat) : Chip := c.ctlComplete fn (ctlCompletion e qn reason)

/-- A DESTROY of the function has not completed: later control entries wait, since they complete in order (R146). -/
def Chip.destroyPending (c : Chip) (fn : Nat) : Bool := c.queues.any fun r => r.2.fn == fn && r.2.destroying.isSome

/-- The control SQ of a function has an entry that the device may consume; a backlog of its CQ stops it (R159 step 2). -/
def Chip.ctlReady (c : Chip) (fn : Nat) : Bool :=
  let f := c.fn fn
  c.ctlEnabled fn && f.ctlSqCause == 0 && !f.ctlBacklogged && c.fnReady fn && f.ctlSqPi != f.ctlSqCi && !c.destroyPending fn

/-- Consume a control entry. -/
def Chip.ctlConsume (c : Chip) (fn : Nat) : Chip :=
  let ci := (c.fn fn).ctlSqCi + 1
  (c.updFn fn fun f => { f with ctlSqCi := ci }).ctlIndexWrite fn false 8 ci

/-- The control queue pair starts with both indices of its blocks as found (R129): STATE of both reads active (R131), and
indices that hold more entries than a ring put that queue in error (R133). -/
def Chip.ctlStart (c : Chip) (fn : Nat) (idx : CtlIndices) : Chip :=
  let c := c.updFn fn fun f =>
    { f with
      ctlSqPi := idx.sqPi, ctlSqCi := idx.sqCi, ctlCqPi := idx.cqPi, ctlCqCi := idx.cqCi, ctlArmed := false
      ctlSqCause := 0, ctlCqCause := 0, ctlBacklog := [], ctlBacklogged := false }
  let c := (c.ctlIndexWrite fn false 0x10 (stateWord .active 0)).ctlIndexWrite fn true 0x10 (stateWord .active 0)
  let c := if tooMany (c.ctlSqLog fn) idx.sqPi idx.sqCi then c.ctlError fn false 1 else c
  if tooMany (c.ctlCqLog fn) idx.cqPi idx.cqCi then c.ctlError fn true 3 else c

/-- The control queue pair stops (R129): the pending entries flush without completions, a backlog goes with them. -/
def Chip.ctlStop (c : Chip) (fn : Nat) : Chip :=
  c.updFn fn fun f => { f with ctlSqCi := f.ctlSqPi, ctlArmed := false, ctlBacklog := [], ctlBacklogged := false }

/-- A write of P21.004[fn] (R129); `idx` is what the index blocks hold when ENABLE is set. -/
def Chip.ctlSetupWrite (c : Chip) (fn v : Nat) (idx : CtlIndices) : Chip × Nat :=
  let old := c.ctlSetup fn
  if !bitOf v 31 then
    let c := c.setParam 0x21 0x004 fn v
    (if bitOf old 31 then c.ctlStop fn else c, 0)
  else if bitOf old 31 then (c, if v = old then 0 else 7)
  else if 4 ≤ bits v 0 5 && bits v 0 5 ≤ 10 && 4 ≤ bits v 5 5 && bits v 5 5 ≤ 10 then
    ((c.setParam 0x21 0x004 fn v).ctlStart fn idx, 0)
  else (c, 7)

/-! ### Backlogs (R159, R160) -/

/-- Move backlogged entries to the ring, oldest first, while it has room; an empty backlog is returned and fetching resumes. -/
def Chip.drainBacklog (c : Chip) (h cqn : Nat) : Nat → Chip
  | 0 => c
  | fuel + 1 =>
    match c.queue? h cqn with
    | none => c
    | some q =>
      match q.backlog with
      | [] => if q.backlogged then c.putQueue h cqn { q with backlogged := false, stopped := false } else c
      | p :: r =>
        if q.state ≠ .active ∨ 2 ^ q.logSize ≤ (q.pi - q.ci).toNat then c
        else (c.writeCqe h cqn { q with backlog := r } p).drainBacklog h cqn fuel

/-- The CI of a CQ or EQ as read: more than the ring size held is a bad consumer index (R133, R158). -/
def Chip.takeCi (c : Chip) (h qn : Nat) (q : Queue) (ci : BitVec 32) : Chip :=
  if tooMany q.logSize q.pi ci then if q.kind = .cq then c.cqError h qn 3 else c.eqError h qn 3
  else c.putQueue h qn { q with ci := ci }

/-- The backlog of a CQ in HBM is poisoned (R281): the CQ goes to error with cause 1 and the backlogged entries are lost. -/
def Chip.backlogPoisoned (c : Chip) (h cqn : Nat) (q : Queue) : Chip :=
  let n := q.backlog.length
  (((c.poisonDevice 5).cqError h cqn 1).updQueue h cqn fun q => { q with backlog := [], lost := q.lost + n }).bumpFn 2 q.fn n

/-- Move backlogged entries of the control CQ to its ring, oldest first; an empty backlog is returned. -/
def Chip.ctlDrain (c : Chip) (fn : Nat) : Nat → Chip
  | 0 => c
  | fuel + 1 =>
    let f := c.fn fn
    match f.ctlBacklog with
    | [] => c.updFn fn fun f => { f with ctlBacklogged := false }
    | p :: r =>
      if f.ctlCqCause ≠ 0 ∨ ringFull (c.ctlCqLog fn) f.ctlCqPi f.ctlCqCi then c
      else ((c.updFn fn fun f => { f with ctlBacklog := r }).ctlCqe fn p).ctlDrain fn fuel

/-- CI of the control CQ of a function with a backlog advances (R159 step 3), or its backlog is poisoned (R281). -/
def Chip.ctlBacklogDrain (c : Chip) (fn : Nat) (ci : BitVec 32) (poisoned : Bool) : Chip :=
  let f := c.fn fn
  if !f.ctlBacklogged ∨ f.ctlCqCause ≠ 0 then c
  else if poisoned then
    ((c.ctlError fn true 1).updFn fn fun f => { f with ctlBacklog := [] }).bumpFn 2 fn f.ctlBacklog.length
  else if tooMany (c.ctlCqLog fn) f.ctlCqPi ci then c.ctlError fn true 3
  else (c.updFn fn fun f => { f with ctlCqCi := ci }).ctlDrain fn (f.ctlBacklog.length + 1)

/-- CI of a CQ of a function with a backlog advances (R159 step 3); CQ 0 is the function's control CQ. The function is not
being disabled: its completions go nowhere then (R199 step 2). -/
def Chip.backlogDrain (c : Chip) (fn cqn : Nat) (ci : BitVec 32) (poisoned : Bool) : Chip :=
  let h := fn / 256
  if c.silentFn fn then c
  else if cqn = 0 then c.ctlBacklogDrain fn ci poisoned
  else match c.queue? h cqn with
  | none => c
  | some q =>
    if q.fn ≠ fn ∨ q.kind ≠ .cq ∨ q.state ≠ .active ∨ !q.backlogged then c
    else if poisoned then c.backlogPoisoned h cqn q
    else (c.takeCi h cqn q ci).drainBacklog h cqn (q.backlog.length + 1)

/-! ### Doorbells (R135 to R138, R148) -/

/-- A doorbell is discarded and counted (R136). -/
def Chip.discardDoorbell (c : Chip) (fn : Nat) : Chip := c.bumpFn 0 fn

/-- What a doorbell names. -/
inductive Named where
  | nothing
  | control
  | queue (q : Queue)
  deriving DecidableEq, Repr

/-- The queue that a doorbell of a function names, if the function owns it and it is not in error (R125, R136). -/
def Chip.named (c : Chip) (fn qn : Nat) (cq : Bool) : Named :=
  if qn = 0 then
    if c.ctlEnabled fn && (if cq then (c.fn fn).ctlCqCause == 0 else (c.fn fn).ctlSqCause == 0) then .control else .nothing
  else match c.queue? (fn / 256) qn with
    | some q => if q.fn = fn ∧ q.state = .active then .queue q else .nothing
    | none => .nothing

/-- SQ, RQ or SRQ. -/
def Queue.isWork (q : Queue) : Bool := q.kind == .sq || q.kind == .rq || q.kind == .srq

/-- OP of a doorbell word. -/
def dbOp (w : Word) : Nat := w.field 63 62
/-- FLAG of a doorbell word. -/
def dbFlag (w : Word) : Bool := w.getLsbD 61
/-- COUNT of a doorbell word. -/
def dbCount (w : Word) : Nat := w.field 60 56
/-- INDEX of a doorbell word. -/
def dbIndex (w : Word) : BitVec 16 := BitVec.ofNat 16 (w.field 55 40)
/-- QN of a doorbell word. -/
def dbQn (w : Word) : Nat := w.field 23 0

/-- The doorbell pages of a function (R102). -/
def Chip.doorbellPages (c : Chip) (fn : Nat) : Nat :=
  if fn % 256 = 0 then (c.port (fn / 256)).pagesPf else (c.port (fn / 256)).pagesVf

/-- A doorbell write at an offset of BAR2, whole where it is of exactly 8 bytes. A page beyond the configured count ignores it
(R104); a write in the wrong form, or to a function that is not ready, is discarded and counted (R136). A word of another OP
is another command. -/
def Chip.doorbell (c : Chip) (fn off : Nat) (whole : Bool) (w : Word) (op : Nat) (f : Chip → Chip) : Chip :=
  if !c.fnExists fn || c.doorbellPages fn ≤ off / 4096 then c
  else if !whole || off % 8 != 0 || dbOp w == 3 || !c.fnReady fn then c.discardDoorbell fn
  else if dbOp w = op then f c else c

/-- RING (R137): the device reads the index block; a hint lets it start earlier. -/
def Chip.ringQueue (c : Chip) (fn : Nat) (w : Word) (hinted : Bool) : Chip :=
  match c.named fn (dbQn w) false with
  | .nothing => c.discardDoorbell fn
  | .control => c
  | .queue q =>
    if q.isWork then c.putQueue (fn / 256) (dbQn w) { q with hint := if hinted then some (dbIndex w) else q.hint }
    else c.discardDoorbell fn

/-- INVALIDATE (R148): cached entries in the range are dropped; FLAG rings. -/
def Chip.invalidateQueue (c : Chip) (fn : Nat) (w : Word) : Chip :=
  if dbCount w = 0 ∨ 16 < dbCount w then c.discardDoorbell fn
  else match c.named fn (dbQn w) false with
    | .nothing => c.discardDoorbell fn
    | .control => c
    | .queue q =>
      if q.isWork then
        let hit (i : BitVec 32) : Bool := (BitVec.ofNat 16 i.toNat - dbIndex w).toNat < dbCount w
        c.putQueue (fn / 256) (dbQn w) { q with cached := q.cached.filter fun r => !hit r.1 }
      else c.discardDoorbell fn

/-- ARM (R138): the index block is read; an entry already there signals at once, otherwise the next one does. SOLONLY limits
what later triggers the vector; an entry that is already there signals whatever it is (DESIGN CHOICE). -/
def Chip.armQueue (c : Chip) (fn : Nat) (w : Word) (idx : IndexRead) : Chip :=
  let h := fn / 256
  match c.named fn (dbQn w) true with
  | .nothing => c.discardDoorbell fn
  | .control =>
    match c.ctlVec? fn with
    | none => c.discardDoorbell fn
    | some v =>
      match idx with
      | .failed => c.ctlError fn true 4
      | .ok _ ci =>
        let pi := (c.fn fn).ctlCqPi
        if tooMany (c.ctlCqLog fn) pi ci then c.ctlError fn true 3
        else
          let c := c.updFn fn fun f => { f with ctlCqCi := ci }
          if pi ≠ ci then c.signal fn v
          else c.updFn fn fun f => { f with ctlArmed := true, ctlSolOnly := dbFlag w }
  | .queue q =>
    if q.isWork || !q.vecValid then c.discardDoorbell fn
    else match idx with
      | .failed => if q.kind = .cq then c.cqError h (dbQn w) 4 else c.eqError h (dbQn w) 4
      | .ok _ ci =>
        let c := c.takeCi h (dbQn w) q ci
        match c.queue? h (dbQn w) with
        | none => c
        | some q =>
          if q.state ≠ .active then c
          else if q.pi ≠ q.ci then c.signal fn q.vector
          else c.putQueue h (dbQn w) { q with armed := true, solOnly := dbFlag w && q.kind == .cq }

/-! ### Index block reads (R133, R137, R148, R157, R158) -/

/-- The entries in the work entry cache (R148). -/
def Chip.cachedEntries (c : Chip) : Nat := c.queues.foldl (fun n r => n + r.2.cached.length) 0

/-- The entries that a queue may hold from CI on: those that PI covers, and P21.021 beyond it for Veneer (R137, R149). -/
def Chip.fetchDepth (c : Chip) (q : Queue) (pi : BitVec 32) : Nat :=
  (pi - q.ci).toNat + if q.veneer then c.param 0x21 0x021 0 else 0

/-- The entries of a fetch that are kept: at most P21.020 of an SQ from CI on and 32,768 chip-wide, cached copies first, none
beyond the depth; a Veneer entry fetched with OWN = 0 is never used (R148, R149). -/
def Chip.fetchInto (c : Chip) (q : Queue) (pi : BitVec 32) (l : List Entry) : List (BitVec 32 × Entry) :=
  let n := c.fetchDepth q pi
  let old := q.cached.filter fun r => (r.1 - q.ci).toNat < n
  if q.kind ≠ .sq then []
  else
    let all := l.mapIdx fun i e => (q.ci + BitVec.ofNat 32 i, e)
    let fresh := (all.take n).filter fun r => !(old.any fun o => o.1 == r.1) && (!q.veneer || r.2.w0.getLsbD 63)
    old ++ fresh.take (min (c.param 0x21 0x020 0 - old.length) (32768 - (c.cachedEntries - q.cached.length + old.length)))

/-- A queue of the function whose unconsumed entries wait to be read and flushed (R133, R146, R151). -/
def Chip.flushing (c : Chip) (fn qn : Nat) : Bool := (c.queue? (fn / 256) qn).elim false fun q => q.fn == fn && q.flushing

/-- The index block of a queue has been read, with ring entries from CI on (R133). A queue that flushes takes the entries
alone. -/
def Chip.indexRead (c : Chip) (fn qn : Nat) (idx : IndexRead) (fetched : List Entry) : Chip :=
  let h := fn / 256
  if c.flushing fn qn then c.flushRead h qn fetched
  else match c.named fn qn false with
  | .nothing => c
  | .control =>
    match idx with
    | .failed => c.ctlError fn false 2
    | .ok pi _ =>
      if tooMany (c.ctlSqLog fn) pi (c.fn fn).ctlSqCi then c.ctlError fn false 1
      else c.updFn fn fun f => { f with ctlSqPi := pi }
  | .queue q =>
    if q.isWork then
      match idx with
      | .failed => c.queueError h qn 2 0
      | .ok pi _ =>
        if tooMany q.logSize pi q.ci then c.queueError h qn 1 0
        else c.putQueue h qn { q with pi := pi, hint := none, cached := c.fetchInto q pi fetched }
    else match idx with
      | .failed => if q.kind = .cq then c.cqError h qn 4 else c.eqError h qn 4
      | .ok _ ci => c.takeCi h qn q ci

/-- A device read for a queue has failed or not returned within 1 ms (R133, R158, R198). The spec gives no cause for a failed
read of the context area of a CQ or an EQ: both take cause 4, as for the index block (DESIGN CHOICE). -/
def Chip.queueReadFails (c : Chip) (fn qn : Nat) (what : QueueRead) : Chip :=
  let h := fn / 256
  if c.flushing fn qn then
    if what = .ringEntry then c.flushUnread h qn ((c.queue? h qn).elim 0 fun q => q.unconsumed + 1) else c
  else match c.named fn qn false with
  | .nothing => c
  | .control => c.ctlError fn false 2
  | .queue q =>
    let c := match q.kind with
      | .cq => if what = .ringEntry then c else c.cqError h qn 4
      | .eq => if what = .ringEntry then c else c.eqError h qn 4
      | _ => c.queueError h qn 2 0
    if what = .contextArea then c.refuseParked (.queue h qn) else c

/-! ### CREATE, DESTROY, RESET (R127, R130, R145, R146) -/

/-- The kind that QTYPE names. -/
def kindOfQtype : Nat → Option QKind
  | 1 => some .sq | 2 => some .rq | 3 => some .srq | 4 => some .cq | 5 => some .eq | _ => none

/-- MSI-X vectors of a function (R100). -/
def vectorsOf (fn : Nat) : Nat := if fn % 256 = 0 then 2048 else 64

/-- Queues that pass a test. -/
def Chip.countQueues (c : Chip) (p : Queue → Bool) : Nat := (c.queues.filter fun r => p r.2).length

/-- A quota or chip-wide limit is reached (R127, R128, R130). -/
def Chip.overQuota (c : Chip) (fn : Nat) (k : QKind) : Bool :=
  16777216 ≤ c.queues.length || c.param 0x21 0x010 fn ≤ c.countQueues (·.fn == fn) ||
  (k == .cq && (1048576 ≤ c.countQueues (·.kind == .cq) || c.param 0x21 0x011 fn ≤ c.countQueues fun q => q.fn == fn && q.kind == .cq)) ||
  (k == .eq && (4096 ≤ c.countQueues (·.kind == .eq) || c.param 0x21 0x012 fn ≤ c.countQueues fun q => q.fn == fn && q.kind == .eq))

/-- The reason for which a CREATE fails, 0 if none (R145, R146). A VECTOR beyond the function's vectors and a CQN that names no
CQ are bad fields (DESIGN CHOICE: R145 does not say so). -/
def Chip.createReason (c : Chip) (fn : Nat) (e : Entry) : Nat :=
  match (if e.opcode = 0xC0 then kindOfQtype e.qtype else none) with
  | none => 1
  | some k =>
    let work := k == .sq || k == .rq || k == .srq
    if e.logsize < 4 || 22 < e.logsize || (e.veneer && k != .sq) || e.w2.toNat % 4096 != 0 || e.w3.toNat % 64 != 0 ||
        e.w4.toNat % 512 != 0 || (e.veneer && e.vclass == 3) || (!work && e.vecValid && vectorsOf fn ≤ e.vector) then 1
    else if c.overQuota fn k then 2
    else if work then
      match c.queue? (fn / 256) e.cqn with
      | none => 1
      | some q => if q.kind ≠ .cq then 1 else if q.fn ≠ fn then 3 else if q.state ≠ .active ∨ q.destroying.isSome then 4 else 0
    else 0

/-- The context of a created queue. -/
def newQueue (fn : Nat) (e : Entry) (k : QKind) (pi ci : BitVec 32) : Queue :=
  let work := k == .sq || k == .rq || k == .srq
  { kind := k, fn := fn, logSize := e.logsize, ring := e.w2.toNat, index := e.w3.toNat, context := e.w4.toNat
    cqn := if work then e.cqn else 0, sproc := e.sproc, veneer := e.veneer, vclass := e.vclass, vlkey := e.vlkey
    vecValid := !work && e.vecValid, vector := e.vector, pi := pi, ci := ci }

/-- The test of R133 on a queue that starts with indices from its block. -/
def Chip.checkIndices (c : Chip) (h qn : Nat) (idx : IndexRead) : Chip :=
  match c.queue? h qn with
  | none => c
  | some q =>
    let bad := match idx with | .failed => true | .ok pi ci => tooMany q.logSize pi ci
    if !bad then c
    else match q.kind with
      | .cq => c.cqError h qn (if idx = .failed then 4 else 3)
      | .eq => c.eqError h qn (if idx = .failed then 4 else 3)
      | _ => c.queueError h qn (if idx = .failed then 2 else 1) 0

/-- The indices of a read, zero where it failed. -/
def idxPi : IndexRead → BitVec 32 | .ok pi _ => pi | .failed => 0
/-- CI. -/
def idxCi : IndexRead → BitVec 32 | .ok _ ci => ci | .failed => 0

/-- CREATE is consumed; `qn` is the number the device assigns, `idx` what the new index block holds (R125, R145). -/
def Chip.createQueue (c : Chip) (fn : Nat) (e : Entry) (qn : Nat) (idx : IndexRead) : Chip :=
  let h := fn / 256
  if !c.ctlReady fn then c
  else
    let reason := c.createReason fn e
    if reason ≠ 0 then (c.ctlConsume fn).ctlDone fn e 0 reason
    else if qn = 0 ∨ 2 ^ 24 ≤ qn ∨ (c.queue? h qn).isSome then c
    else match kindOfQtype e.qtype with
      | none => c
      | some k =>
        let c := (c.ctlConsume fn).putQueue h qn (newQueue fn e k (idxPi idx) (idxCi idx))
        let c := c.emit (.indexWrite h fn e.w3.toNat 0x10 (stateWord .active 0))
        (c.checkIndices h qn idx).ctlDone fn e qn 0

/-- Nothing consumed from a queue is still under way, and no entry waits to be flushed: entries, postings, messages, copies
and offers that use it (R146). -/
def Chip.queueIdle (c : Chip) (h qn : Nat) (q : Queue) : Bool :=
  q.openPos.isEmpty && q.failed.isEmpty && !q.flushing && (c.waitingOf h qn).isEmpty &&
  !(c.tr.chans.any fun r => chHost r.1 == h && r.2.msgs.any fun m => m.buffer.isSome && !m.quiet && m.dqn == qn) &&
  !(c.mt.copies.any fun y => chHost y.chan == h && y.qn == qn) && !(c.mt.tOffers.any fun t => chHost t.chan == h && t.qn == qn)

/-- A queue is gone: STATE reads destroyed, the number is free. -/
def Chip.removeQueue (c : Chip) (h qn : Nat) : Chip :=
  let c := c.setQState h qn .destroyed 0
  { c with queues := Tab.del c.queues (qKey h qn) }

/-- A DESTROY whose queue has become idle completes (R146). -/
def Chip.finishDestroy (c : Chip) (h qn : Nat) : Chip :=
  match c.queue? h qn with
  | none => c
  | some q =>
    match q.destroying with
    | none => c
    | some wrid =>
      if c.queueIdle h qn q then
        (c.removeQueue h qn).ctlComplete q.fn { wrid := wrid, opcode := 0xC1, peer := BitVec.ofNat 32 qn }
      else c

/-- Every DESTROY that can complete does. -/
def Chip.finishDestroys (c : Chip) : Chip :=
  (c.queues.filter fun r => r.2.destroying.isSome).foldl (fun c r => c.finishDestroy (r.1 / 2 ^ 24) (r.1 % 2 ^ 24)) c

/-- DESTROY is consumed (R146): flushes, unbinding, then the completion once the queue is idle. A number that names no queue
fails with reason 3 (DESIGN CHOICE). -/
def Chip.destroyQueue (c : Chip) (fn : Nat) (e : Entry) : Chip :=
  let h := fn / 256
  let qn := e.dqn
  if !c.ctlReady fn then c
  else if e.opcode ≠ 0xC1 then (c.ctlConsume fn).ctlDone fn e qn 1
  else match c.queue? h qn with
    | none => (c.ctlConsume fn).ctlDone fn e qn 3
    | some q =>
      if q.fn ≠ fn then (c.ctlConsume fn).ctlDone fn e qn 3
      else if q.kind = .cq ∧ !(c.boundTo h qn).isEmpty then (c.ctlConsume fn).ctlDone fn e qn 5
      else
        let c := (c.ctlConsume fn).putQueue h qn { q with destroying := some e.wrid }
        let c := if q.isWork then (((c.flushHeld h fn qn q.cqn).unbindQueue h qn).flushReceives h qn).flushQueue h qn else c
        c.finishDestroy h qn

/-- RESET is consumed (R146): the queue is active with the indices of its block; a CQ resumes (R159 step 5, R160). It waits
while entries are still to be flushed. A number that names no queue fails with reason 3, and an index block that cannot be read
or a bound CQ that is not active with reason 4 (DESIGN CHOICE: R146 does not say which reason applies). -/
def Chip.resetQueue (c : Chip) (fn : Nat) (e : Entry) (idx : IndexRead) : Chip :=
  let h := fn / 256
  let qn := e.dqn
  if !c.ctlReady fn ∨ c.flushing fn qn then c
  else if e.opcode ≠ 0xC2 then (c.ctlConsume fn).ctlDone fn e qn 1
  else match c.queue? h qn with
    | none => (c.ctlConsume fn).ctlDone fn e qn 3
    | some q =>
      let cqBad := q.isWork && ((c.queue? h q.cqn).elim true fun x => x.state != .active)
      if q.fn ≠ fn then (c.ctlConsume fn).ctlDone fn e qn 3
      else if q.state ≠ .error ∨ cqBad ∨ idx = .failed then (c.ctlConsume fn).ctlDone fn e qn 4
      else
        let gap : List Completion :=
          if q.lost = 0 then []
          else [{ status := 0x0C, qn := BitVec.ofNat 24 qn, time := BitVec.ofNat 48 c.tb.time.toNat, result := BitVec.ofNat 64 q.lost }]
        let backlog := q.backlog ++ gap
        let q := if q.kind = .cq then
            { q with pi := idxPi idx, ci := idxCi idx, lost := 0, backlog := backlog
                     backlogged := q.backlogged || !backlog.isEmpty, stopped := q.stopped || !backlog.isEmpty }
          else if q.kind = .eq then { q with pi := idxPi idx, ci := idxCi idx }
          else { q with pi := idxPi idx, ci := idxCi idx, cached := [], hint := none }
        let c := ((c.ctlConsume fn).putQueue h qn q).setQState h qn .active 0
        let c := c.checkIndices h qn idx
        (c.drainBacklog h qn (backlog.length + 1)).ctlDone fn e qn 0

end Sys2Proof.Machine
end

