-- ==== Sys2Proof/Machine/Settle.lean ====
section
/-! DEFINITION. What a step carries out after its own effect: block resets and chip resets decided by a reaction, operations
that have ended for the bridge or an offer, queues whose destruction can end, and released entries that take their MSGIDs (R484,
R303, R229, R146, R244), width changes and data blocks that wait for the end of a packet (R365, R403). -/

namespace Sys2Proof.Machine

/-- A collective engine loses the segments it holds: their operations abort with 0x04 at this chip (R274, R484). -/
def Chip.engineReset (c : Chip) (u : Nat) : Chip :=
  let hit (o : COp) : Bool := o.segs.any fun r => collUnit o.slot r.1 == u
  (c.co.ops.filter hit).foldl (fun c o => (c.abortSelf o.slot o.cseq 4).settleColl o.slot) c

/-- The bridge's block reset (R484): each unsent posted write is discarded with a fault record. -/
def Chip.bridgeBlockReset (c : Chip) : Chip :=
  let unsent := (c.br.ops.filter fun o => o.isWrite && !o.sent).map fun o => winSubject o.fn o.slot
  let merged := c.br.merges.map fun r => winSubject r.2.fn r.2.slot
  let record (c : Chip) (s : Nat) : Chip :=
    (c.setSrc 0xB1 0x100 (c.src 0xB1 0x100).occurs).enterRecord 0xB1 0x100 7 s 0 0
  (unsent ++ merged).foldl record c.bridgeReset

/-- The block reset of a unit (R484). -/
def Chip.blockReset (c : Chip) (u : Nat) : Chip :=
  if u < 0x3C then (c.linkReset u).blockRetrain u
  else if u < 0x40 then c.perstPort (u - 0x3C)
  else if u < 0x5E then (c.blockRetrain (2 * (u - 0x40))).blockRetrain (2 * (u - 0x40) + 1)
  else if 0x60 ≤ u ∧ u < 0x70 then c.beginRetire (u - 0x60)
  else if 0x80 ≤ u ∧ u < 0x88 then c.engineReset u
  else if 0x90 ≤ u ∧ u < 0x96 then c.clusterDown (u - 0x90) (if c.flt.heldUnits.contains u then 2 else 1)
  else if u = 0xB1 then c.bridgeBlockReset
  else if 0xD0 ≤ u ∧ u < 0xE0 then { c with pace := { c.pace with excluded := insertNat (u - 0xD0) c.pace.excluded } }
  else c

/-- An operation of a window or of a matched offer has ended (R229, R232, R303). -/
def Chip.carriedEnd (c : Chip) (o : SendOp) : Chip :=
  let status := o.status.getD 0
  match o.window, o.toffer with
  | some n, _ => c.windowDone n status o.result
  | none, some i =>
    match c.mt.tOffers.find? fun t => t.id == i with
    | none => c
    | some t => if o.opcode ≠ 0x20 then c else if status ≠ 0 then c.endTOffer t status 0 else if o.lastChunk then c.closeTOffer t else c
  | none, none => c

/-- Carry out what has been decided, one thing after the other; a chip reset ends everything else (R458). -/
def Chip.carryOn (c : Chip) : Nat → Chip
  | 0 => c
  | fuel + 1 =>
    if c.flt.resetDue then c.fatalResets
    else match c.flt.due with
      | u :: l => (Chip.blockReset { c with flt := { c.flt with due := l } } u).carryOn fuel
      | [] => match c.tr.finished with
        | o :: l => (Chip.carriedEnd { c with tr := { c.tr with finished := l } } o).carryOn fuel
        | [] => c

/-- A data block that is being filled is padded where no packet is ready to follow in it (R365). -/
def Chip.padIdle (c : Chip) (p : Nat) : Chip :=
  if (c.link p).tx.left.isEmpty || (c.link p).tx.inPacket || (c.select p).2.isSome then c else c.padBlock p

/-- Every port: a width change that waited for the end of a packet goes on (R403), and data blocks that nothing follows in are padded. -/
def Chip.finishLinks (c : Chip) : Chip :=
  let c := c.train.foldl (fun c r => c.switchWhenIdle r.1) c
  c.links.foldl (fun c r => c.padIdle r.1) c

/-- What follows every effect within its step. -/
def Chip.settle (c : Chip) : Chip := ((c.carryOn 64).hostCredits.carryOn 64).finishDestroys.heldPlaces.finishLinks

/-- A meaning that acts while the Jig service or full service runs; otherwise there is nothing to act on. -/
def State.run (s : State) (f : Chip → Chip) : Host.Outcome State Fault Refusal :=
  .next { s with chip := if s.chip.up then (f s.chip).settle else s.chip }

/-- A meaning that looks at the phase of the chip itself. -/
def State.runAny (s : State) (f : Chip → Chip) : Host.Outcome State Fault Refusal := .next { s with chip := (f s.chip).settle }

end Sys2Proof.Machine
end

