-- ==== Sys2Proof/Machine/DictView.lean ====
section
/-! DEFINITION. What reading a parameter returns: the values that units hold beside the stored ones (R38, R41, R510 and the
parameter tables of every chapter). -/

namespace Sys2Proof.Machine

/-- Codes of P20.011. -/
def FnState.code : FnState → Nat
  | .absent => 0 | .notReady => 1 | .ready => 2 | .draining => 3 | .quiesced => 4

/-- Codes of P01.003. -/
def SetPhase.code : SetPhase → Nat
  | .idle => 0 | .staging => 1 | .scheduled => 2

/-- An apply set; one that is not listed is idle. -/
def Chip.applySet (c : Chip) (s : Nat) : ApplySet := Tab.get c.dict.sets s ApplySet.init

/-- P01.012: the generation of a bank, 0 when it is invalid. -/
def Bank.shown (b : Bank) : Nat := if b.valid && b.generation != 0xFFFFFFFF then b.generation else 0

/-- A counter state row, P23.100 to P23.10F. -/
def TCtr.stateWord (t : TCtr) : Nat := 2 ^ 63 + natOfBool t.sat * 2 ^ 62 + t.owner * 2 ^ 48 + t.value.toNat

/-- A counter source row, P23.200 to P23.20F. -/
def TCtr.sourceWord (t : TCtr) : Nat :=
  t.source * 2 ^ 60 + natOfBool t.remote * 2 ^ 59 + natOfBool t.allStatus * 2 ^ 58 + t.srcNum

/-- Values of areas 01 to 1A that units hold; none = the stored value. -/
def Chip.heldLow (c : Chip) (area obj e : Nat) : Option Nat :=
  match area, obj with
  | 0x01, 0x003 => some (c.applySet e).phase.code
  | 0x01, 0x004 => some (Tab.get c.dict.lastResult e 0).toNat
  | 0x01, 0x011 => some c.flash.saveState
  | 0x01, 0x012 => some (Tab.get c.flash.banks e Bank.init).shown
  | 0x01, 0x035 => some c.dict.fdpLastSeq.toNat
  | 0x01, 0x036 => some c.dict.fdpRejected.toNat
  | 0x01, 0x041 => some c.dict.shimRejected.toNat
  | 0x01, 0x071 => some c.flash.calState
  | 0x08, 0x011 => some c.syncWord
  | 0x08, 0x012 => some (twos 32 c.tb.lastOffset)
  | 0x08, 0x013 => some (twos 32 c.tb.rateCorr)
  | 0x08, 0x014 => some (Tab.get c.tb.delayAvg e 0)
  | 0x08, 0x040 => some (Tab.get c.pace.pace e 0)
  | 0x08, 0x045 => some c.avsRequest
  | 0x08, 0x046 => some (twos 16 (Tab.get c.pace.temps e 0))
  | 0x10, 0x020 => some (c.endpoint 0)
  | 0x11, 0x010 => some c.usablePorts
  | 0x13, 0x001 => some (c.clampRow e)
  | 0x13, 0x002 => some c.rt.fenced.length
  | 0x13, 0x003 => some c.rt.pending.length
  | 0x18, 0x005 => some (c.tport e).word
  | 0x18, 0x006 => some (c.tport e).learnt
  | 0x18, 0x023 => some (c.checkerErrors e)
  | 0x18, 0x024 => some (c.lane e).chkBits
  | 0x18, 0x027 => some (c.laneStatus e)
  | 0x18, 0x028 => some (c.lane e).coeffs.toNat
  | 0x19, 0x020 => some (c.xoffThreshold e)
  | 0x19, 0x021 => some (c.headroom e)
  | 0x1A, 0x050 => some (twos 64 (c.shaper (e / 8) (e % 8)))
  | 0x1A, 0x051 => some (twos 64 (c.policer e))
  | 0x1A, 0x052 => some (if (c.gate e).enabled then (c.gate e).entry else 0xFF)
  | _, _ => none

/-- Values of areas 20 to 29 that units hold. -/
def Chip.heldHost (c : Chip) (area obj e : Nat) : Option Nat :=
  match area, obj with
  | 0x20, 0x011 => some (c.fnState e).code
  | 0x21, 0x034 => some c.retransmitTime
  | 0x22, 0x020 => some c.mt.ctxs.length
  | 0x22, 0x021 => some c.mt.posted.length
  | 0x22, 0x022 => some c.mt.unexp.length
  | 0x22, 0x023 => some c.storeUsed
  | 0x22, 0x024 => some c.offerRecords
  | 0x23, 0x020 => some c.tg.ctrs.length
  | 0x23, 0x021 => some c.tg.held.length
  | 0x24, 0x030 => some (c.mBelow e)
  | 0x24, 0x040 => some ((c.nextCseq e).toNat * 2 ^ 32 + (c.collOps e).length)
  | 0x28, 0x010 => some (c.groupState e)
  | 0x28, 0x015 => some c.mem.size
  | 0x28, 0x022 => some c.mem.regions.length
  | 0x28, 0x023 => some c.bytesRegistered
  | 0x28, 0x033 => some (Tab.get c.mem.exportGen e 0)
  | 0x23, o =>
    if 0x100 ≤ o ∧ o < 0x110 then some (((c.tctr? ((o - 0x100) * 4096 + e)).map (·.stateWord)).getD 0)
    else if 0x200 ≤ o ∧ o < 0x210 then some (((c.tctr? ((o - 0x200) * 4096 + e)).map (·.sourceWord)).getD 0)
    else none
  | 0x29, o => if 0x1C0 ≤ o ∧ o < 0x200 then some (c.winStatus e (o - 0x1C0)) else none
  | _, _ => none

/-- Values of areas 30 to 38 that units hold. -/
def Chip.heldRest (c : Chip) (area obj e : Nat) : Option Nat :=
  match area, obj with
  | 0x30, 0xF10 => some (c.flt.openRecs.length * 2 ^ 16 + c.flt.closedRecs.length)
  | 0x30, 0xF11 => some c.flt.unrecorded.toNat
  | 0x30, 0xF12 => some c.flt.nextRseq.toNat
  | 0x30, 0xF40 => some (natOfBool c.faultN)
  | 0x31, 0xF16 => some c.ctr.streamDrops.toNat
  | 0x38, 0x001 => some (Tab.get c.fw.running e 0)
  | 0x38, 0x002 => some c.fw.bootSlot
  | 0x38, 0x003 => some c.flash.ptrGeneration
  | 0x38, 0x010 => some (c.flash.slot e).state
  | 0x38, 0x011 => some (if (c.flash.slot e).state = 2 then (c.flash.slot e).version.toNat else 0)
  | 0x38, 0x022 => some c.fw.updateState
  | 0x38, 0x023 => some c.fw.updateResult
  | 0x38, 0x031 => some (Tab.get c.fw.clusters e 0)
  | 0x30, o => if 0x100 ≤ o ∧ o < 0x1E0 then some (c.src (o - 0x100) e).word.toNat else none
  | 0x31, o =>
    if o < 0x100 then some (c.unitCounter o e).toNat
    else if o < 0x200 ∨ (0x380 ≤ o ∧ o < 0x387) then some (natOfBool (c.ctr.overflow.contains (pnum 0x31 o e)))
    else if 0x300 ≤ o ∧ o < 0x307 then some (c.fnCounter (o - 0x300) e).toNat
    else none
  | _, _ => none

/-- The current value of an element of at most 16 bytes. -/
def Chip.readNat (c : Chip) (area obj e : Nat) : Nat :=
  ((if area < 0x20 then c.heldLow area obj e else if area < 0x30 then c.heldHost area obj e else c.heldRest area obj e)).getD
    (c.param area obj e)

/-- The elements of area 02 beside the image (R431, R445). -/
def calNumbers : List Nat :=
  (List.range 120).map (pnum 0x02 0x010) ++ (List.range 120).map (pnum 0x02 0x011) ++
  (List.range 16).map (pnum 0x02 0x020) ++ (List.range 16).map (pnum 0x02 0x021)

/-- P02.001: the working copy as one image (R71). -/
def Chip.calImage (c : Chip) : List Byte :=
  Config.calImageOf c.serial (calNumbers.map fun n => (n, c.param (pArea n) (pObj n) (pElem n)))

/-- P30.F30: the 64 bytes of the last fatal record (R473). -/
def Chip.lastFatalBytes (c : Chip) : List Byte := ((c.boot.lastFatal.flatMap Word.le) ++ zeros 64).take 64

/-- The value of an element, numbers most significant byte first; with `staged`, the value it would take if its set took
effect now (R510). A WO parameter has a zero-length value. -/
def Chip.valueBytes (c : Chip) (d : Desc) (n : Nat) (staged : Bool) : List Byte :=
  if d.access = .wo then []
  else if n = pnum 0x02 0x001 0 then c.calImage
  else if n = pnum 0x30 0xF30 0 then c.lastFatalBytes
  else
    let now := c.readNat (pArea n) (pObj n) (pElem n)
    bytesBE d.ty.size (if staged && d.access == .rwa then Tab.get c.dict.staged n now else now)

/-- The two words of a descriptor as bytes, most significant first (R38). -/
def Chip.descriptor (c : Chip) (d : Desc) (n : Nat) : Word × Word :=
  (descWord0 d, descWord1 c.variant c.serial c.boot.strapLatch d (pArea n) (pObj n) (pElem n))

end Sys2Proof.Machine
end

