-- ==== Sys2Proof/Machine/SetOps.lean ====
section
/-! DEFINITION. Apply sets: the set-level checks of the subject chapters, and what the new values of a set do when they take
effect (R48, R49, R74, R182, R248, R293, R312, R357, R362, R385, R445, R450, R483). -/

namespace Sys2Proof.Machine

/-! ### Set-level checks: the parameter number that a refusal records -/

/-- The first element whose test fails, as the number of its parameter. -/
def failsAt (n : Nat) (area obj : Nat) (bad : Nat → Bool) : Option Nat :=
  ((List.range n).find? bad).map fun e => pnum area obj e

/-- A scalar check. -/
def failsIf (bad : Bool) (area obj : Nat) : Option Nat := if bad then some (pnum area obj 0) else none

/-- Ports of a role up to and with port `e`. -/
def Chip.rolesUpTo (c : Chip) (e r : Nat) : Nat := ((List.range (e + 1)).filter fun p => c.param 0x10 0x010 p == r).length

/-- Ports of role 1 or 2 up to and with port `e`. -/
def Chip.linksUpTo (c : Chip) (e : Nat) : Nat := c.rolesUpTo e 1 + c.rolesUpTo e 2

/-- A peer channel exists on the chip. -/
def Chip.hasChannels (c : Chip) : Bool := c.tr.chans.any fun r => r.2.sendState != .none || r.2.recvOpen

/-- Set 0x08 (R441, R445). -/
def Chip.check08 (c : Chip) : Option Nat :=
  failsIf (c.param 0x08 0x041 0 < c.param 0x08 0x042 0) 0x08 0x042 <|>
  failsIf (c.param 0x08 0x044 0 < c.param 0x08 0x043 0) 0x08 0x043

/-- Set 0x10 (R74): `old` is the chip before the commit. -/
def Chip.check10 (c old : Chip) : Option Nat :=
  failsAt 60 0x10 0x010 (fun e => 31 < c.rolesUpTo e 1 || 29 < c.rolesUpTo e 2) <|>
  failsAt 60 0x10 0x010 (fun e => c.variant.fabricPorts < c.linksUpTo e) <|>
  failsIf (c.param 0x10 0x002 0 ≤ c.id % 32) 0x10 0x001 <|>
  failsIf (c.id != old.id && old.hasChannels) 0x10 0x001

/-- A role in P10.010 that links carry. -/
def Chip.linked (c : Chip) (p : Nat) : Bool := c.param 0x10 0x010 p == 1 || c.param 0x10 0x010 p == 2

/-- Some number stands twice in a list. -/
def hasRepeat : List Nat → Bool
  | [] => false
  | x :: l => l.contains x || hasRepeat l

/-- Set 0x11 (R312). -/
def Chip.check11 (c : Chip) : Option Nat :=
  let g (e : Nat) : List Cand := groupCands (c.param 0x11 0x001 e)
  let q (e : Nat) : List Cand := positionCands (c.param 0x11 0x002 e)
  failsAt 1024 0x11 0x001 (fun e => (g e).any fun k => !c.linked k.port || 60 ≤ k.far) <|>
  failsAt 32 0x11 0x002 (fun e => (q e).any fun k => c.param 0x10 0x010 k.port != 1) <|>
  failsAt 1024 0x11 0x001 (fun e => hasRepeat ((g e).map (·.port))) <|>
  failsAt 32 0x11 0x002 (fun e => hasRepeat ((q e).map (·.port))) <|>
  failsAt 4 0x11 0x003 (fun h => bitOf (c.param 0x11 0x003 h) 7 && !c.hasHost h)

/-- Set 0x19 (R385): P19.005 lies above twice the round trip of every port. -/
def Chip.check19 (c : Chip) : Option Nat :=
  failsIf ((List.range c.variant.fabricPorts).any fun p => c.param 0x19 0x005 0 * 400 ≤ 16 * c.param 0x19 0x001 p) 0x19 0x005

/-- Gating is on at a port. -/
def Chip.gateOn (c : Chip) (p : Nat) : Bool := c.hasPort p && (c.gateControl p).1

/-- DURATION in ns and OPEN of the entries of a port's schedule. -/
def Chip.gateRows (c : Chip) (p : Nat) : List (Nat × Nat) := (c.gateEntries p).map fun r => (r.1 / 4, r.2)

/-- The lowest payload rate that area 18 allows, Gb/s. -/
def Chip.lowestRate (c : Chip) (p : Nat) : Nat := if bitOf (c.param 0x18 0x003 p) 0 then 50 else 100

/-- The length of the run of entries open for a class that begins the list, in ns. -/
def openRun (tc : Nat) : List (Nat × Nat) → Nat
  | [] => 0
  | (d, m) :: l => if m.testBit tc then d + openRun tc l else 0

/-- The first entry of a window of a class that is too short at rate `r` (R361, R362). -/
def shortWindow (l : List (Nat × Nat)) (r margin tc : Nat) : Option Nat :=
  (List.range l.length).find? fun i =>
    let turned := l.drop i ++ l.take i
    let isOpen := (turned.head?.map fun x => x.2.testBit tc).getD false
    let before := (turned.getLast?.map fun x => x.2.testBit tc).getD false
    isOpen && !before && decide (openRun tc turned * r < 66 * 512 + margin * r)

/-- The first too short window of a port, by class. -/
def Chip.gateShort (c : Chip) (p : Nat) : Option Nat :=
  ([2, 3, 4, 5, 6, 7] : List Nat).findSome? fun tc => shortWindow (c.gateRows p) (c.lowestRate p) (c.param 0x1A 0x003 0) tc

/-- Set 0x1A (R362). -/
def Chip.check1A (c : Chip) : Option Nat :=
  let ports := (List.range 60).filter c.gateOn
  let period (p : Nat) : Nat := (c.gateRows p).foldl (fun n r => n + r.1) 0
  let entries (p : Nat) : Nat := (c.gateControl p).2
  ((ports.find? fun p => entries p == 0 || 16 < entries p || 1000000 < period p).map fun p => pnum 0x1A 0x030 p) <|>
  ((ports.find? fun p => ([2, 3, 4, 5, 6, 7] : List Nat).any fun tc => !((c.gateRows p).any fun r => r.2.testBit tc)).map
    fun p => pnum 0x1A 0x040 p) <|>
  (ports.findSome? fun p => (c.gateShort p).map fun i => pnum 0x1A (0x040 + i) p)

/-- A power of two. -/
def isPow2 (x : Nat) : Bool := x != 0 && x &&& (x - 1) == 0

/-- Set 0x21 (R182). -/
def Chip.check21 (c : Chip) : Option Nat :=
  failsIf (c.param 0x21 0x031 0 < c.param 0x21 0x030 0) 0x21 0x031 <|>
  failsIf (c.param 0x21 0x040 0 < c.param 0x21 0x041 0) 0x21 0x041 <|>
  failsIf (!isPow2 (c.param 0x21 0x035 0)) 0x21 0x035

/-- The first valid row up to which the reservations pass the limit. -/
def Chip.overReserved (c : Chip) (limit : Nat) : List Nat → Nat → Option Nat
  | [], _ => none
  | m :: l, sum => if limit < sum + c.param 0x24 0x013 m then some m else c.overReserved limit l (sum + c.param 0x24 0x013 m)

/-- The staging that valid rows may reserve, in 64 KiB: 12 MiB and the overflow region (R248). -/
def Chip.stagingUnits (c : Chip) : Nat := 192 + 16 * c.regionSize 6

/-- A local RANK of row `m` at host port `h` is not below N, or stands twice in the row. -/
def Chip.badRank (c : Chip) (m h : Nat) : Bool :=
  match c.mMember m h with
  | none => false
  | some r => c.mSize m ≤ r.2 || ((List.range 4).any fun i => i != h && ((c.mMember m i).elim false fun x => x.2 == r.2))

/-- Set 0x24 (R248). -/
def Chip.check24 (c : Chip) : Option Nat :=
  let rows := (List.range 4096).filter c.mValid
  let first (obj : Nat) (bad : Nat → Bool) : Option Nat := (rows.find? bad).map fun m => pnum 0x24 obj m
  first 0x010 (fun m => rows.any fun k => k != m && c.mTree k == c.mTree m) <|>
  first 0x011 (fun m =>
    ((c.mParent m).elim false fun p => !c.linked p) || ((c.mChildren m).any fun r => !c.linked r.1) ||
    ((c.mParent m).elim false fun p => (c.mChildren m).any fun r => r.1 == p)) <|>
  first 0x100 (fun m => (c.mChildren m).isEmpty && (c.mLocals m).isEmpty) <|>
  first 0x030 (fun m => c.mSize m < c.mBelow m || ((c.mParent m).isNone && c.mBelow m != c.mSize m)) <|>
  (rows.findSome? fun m => ((List.range 4).find? (c.badRank m)).map fun h => pnum 0x24 (0x020 + h) m) <|>
  ((c.overReserved c.stagingUnits rows 0).map fun m => pnum 0x24 0x013 m)

/-- Set 0x28 (R293): no valid entry reaches beyond P28.015. -/
def Chip.check28 (c : Chip) : Option Nat :=
  failsAt 4096 0x28 0x030 fun n =>
    bitOf (c.param 0x28 0x032 n) 63 && decide (c.mem.size < c.param 0x28 0x030 n + c.param 0x28 0x031 n)

/-- Set 0x31 (R450). -/
def Chip.check31 (c : Chip) : Option Nat :=
  failsAt 256 0x31 0xF10 (fun i =>
    bitOf (c.param 0x31 0xF10 i) 63 && !presentCounter c.variant (bits (c.param 0x31 0xF10 i) 0 32)) <|>
  failsIf (c.param 0x31 0xF12 0 == 2 &&
    (c.param 0x31 0xF13 0 == 0 || c.param 0x31 0xF14 0 == 0 || c.traceHost.isNone)) 0x31 0xF12

/-- Set 0x38 (R483): the configuration has been applied, and on the IK-920 the host areas are provided. -/
def Chip.check38 (c : Chip) : Option Nat := failsIf (!c.dict.committed10 || !c.areasGiven) 0x38 0x040

/-- The set-level checks of a set, on the chip with the set's new values; `old` is the chip with the active ones. -/
def Chip.setCheck (c old : Chip) (s : Nat) : Option Nat :=
  match s with
  | 0x08 => c.check08
  | 0x10 => c.check10 old
  | 0x11 => c.check11
  | 0x19 => c.check19
  | 0x1A => c.check1A
  | 0x21 => c.check21
  | 0x24 => c.check24
  | 0x28 => c.check28
  | 0x31 => c.check31
  | 0x38 => c.check38
  | _ => none

/-! ### What the new values do -/

/-- Set 0x10 has taken effect (R74, R395): roles, learnt places and the chip id. -/
def Chip.effect10 (c old : Chip) : Chip :=
  let c := { c with
    dict := { c.dict with committed10 := true, chipIdApplied := true }
    tb := { c.tb with rootId := if c.tb.state == SyncState.root then c.id else c.tb.rootId } }
  let swapped (p : Nat) : Bool := c.linked p && old.linked p && c.param 0x10 0x010 p != old.param 0x10 0x010 p
  let c := c.portsFollow false
  let c := (List.range 60).foldl (fun c p => if c.full && swapped p then c.startRetrain p 12 else c) c
  c.heldAgain

/-- Tokens kept across a change of rate or burst (R357): debt stays, positive tokens fall to the new depth; at rate 0 they
are held. -/
def keptTokens (tokens : Int) (rate depth : Nat) : Int := if rate = 0 then tokens else min tokens (depth * cellTokens : Nat)

/-- Shapers whose rate or burst has changed keep their tokens. -/
def Chip.keepShapers (c old : Chip) : Chip :=
  (List.range 480).foldl (fun c i =>
    if c.param 0x1A 0x010 i == old.param 0x1A 0x010 i && c.param 0x1A 0x011 i == old.param 0x1A 0x011 i then c
    else { c with rt := { c.rt with
      shapers := Tab.put c.rt.shapers i (keptTokens (old.shaper (i / 8) (i % 8)) (c.param 0x1A 0x010 i) (c.param 0x1A 0x011 i)) } }) c

/-- Policers whose rate or burst has changed keep their tokens. -/
def Chip.keepPolicers (c old : Chip) : Chip :=
  (List.range 1024).foldl (fun c f =>
    if c.param 0x1A 0x020 f == old.param 0x1A 0x020 f && c.param 0x1A 0x021 f == old.param 0x1A 0x021 f then c
    else { c with rt := { c.rt with
      policers := Tab.put c.rt.policers f (min (old.policer f) (c.param 0x1A 0x021 f * cellTokens : Nat)) } }) c

/-- The gate parameters of a port. -/
def Chip.gateSetting (c : Chip) (p : Nat) : List Nat :=
  c.param 0x1A 0x030 p :: c.param 0x1A 0x031 p :: (List.range 16).map fun e => c.param 0x1A (0x040 + e) p

/-- A port whose gate setting has changed takes the new schedule (R364). -/
def Chip.gateFollow (c old : Chip) (p : Nat) : Chip := if c.gateSetting p == old.gateSetting p then c else c.gateCommitted p

/-- The ports whose gate settings have changed. -/
def Chip.gatesFollow (c old : Chip) (l : List Nat) : Chip := l.foldl (fun c p => c.gateFollow old p) c

/-- Set 0x1A has taken effect (R354, R357, R364). -/
def Chip.effect1A (c old : Chip) : Chip := (((c.keepShapers old).keepPolicers old).gatesFollow old (List.range 60)).refreshAll

/-- The membership row of a slot. -/
def Chip.memberRow (c : Chip) (m : Nat) : List Nat :=
  ([0x010, 0x011, 0x012, 0x013, 0x020, 0x021, 0x022, 0x023] ++ (List.range 60).map (0x100 + ·)).map fun o => c.param 0x24 o m

/-- Set 0x24 has taken effect (R250): the operations of changed or invalidated rows end. -/
def Chip.effect24 (c old : Chip) : Chip :=
  ((List.range 4096).filter fun m => old.mValid m && c.memberRow m != old.memberRow m).foldl (fun c m => c.collRowChanged m) c

/-- A set has taken effect: `c` has its new values, `old` is the chip before. -/
def Chip.setEffect (c old : Chip) (s : Nat) : Chip :=
  match s with
  | 0x08 => c.rootSetting
  | 0x10 => c.effect10 old
  | 0x18 => c.portSettings
  | 0x1A => c.effect1A old
  | 0x24 => c.effect24 old
  | 0x28 => c.exportChanged old
  | 0x38 => if c.full then c else c.fullService
  | _ => c

/-! ### Staging, commit and discard (R45 to R50) -/

/-- The apply set of a parameter number. -/
def Chip.setOf (c : Chip) (n : Nat) : Nat := ((descOf c.variant n).map (·.set)).getD 0

/-- The chip with the staged values of a set made active. -/
def Chip.withStaged (c : Chip) (s : Nat) : Chip :=
  (c.dict.staged.filter fun r => c.setOf r.1 == s).foldl (fun c r => c.setParam (pArea r.1) (pObj r.1) (pElem r.1) r.2) c

/-- Set `s` takes effect, all of its values at once (R50), and is idle. -/
def Chip.takeEffect (c : Chip) (s : Nat) : Chip := ((c.withStaged s).unstage s).setEffect c s

/-- Write P01.004[s]. -/
def Chip.putResult (c : Chip) (s : Nat) (r : Word) : Chip :=
  { c with dict := { c.dict with lastResult := Tab.set c.dict.lastResult 0 s r } }

/-- The value that a refusal records: the refusing parameter and status 0x07 (R48). -/
def refusal (n : Nat) : Word := BitVec.ofNat 64 (n * 2 ^ 32 + 0x07)

/-- Ten seconds in counts of 0.25 ns. -/
def tenSeconds : Nat := 40000000000

/-- A commit of set `s` at T by a writer that may commit it (R48, R483). -/
def Chip.commitSet (c : Chip) (s : Nat) (t : Word) : Chip × Nat :=
  let now := c.tb.time.toNat
  if (c.applySet s).phase ≠ .staging then (c, 0)
  else if now + tenSeconds < t.toNat then (c, 7)
  else if s = 0x38 ∧ Tab.get c.dict.staged (pnum 0x38 0x040 0) 0 = 0 then (c, 7)
  else match (c.withStaged s).setCheck c s with
    | some n => ((c.unstage s).putResult s (refusal n), 0x0A)
    | none =>
      let c := c.putResult s 0
      if t.toNat ≤ now then (c.takeEffect s, 0)
      else ({ c with dict := { c.dict with sets := Tab.upd c.dict.sets s ApplySet.init fun x => { x with phase := .scheduled, commitAt := t } } }, 0)

/-- A staged write of a checked value (R45, R46). -/
def Chip.stage (c : Chip) (w : Writer) (s n x : Nat) : Chip :=
  { c with dict := { c.dict with
      staged := Tab.put c.dict.staged n x
      sets := Tab.upd c.dict.sets s ApplySet.init fun a => { a with phase := .staging, holder := some w, lastStaged := c.now } } }

/-- SET_TAKES_EFFECT: fabric time has reached T, and no set of the same T with a lower number waits (R49). -/
def Chip.setDue (c : Chip) (s : Nat) : Chip :=
  let a := c.applySet s
  let earlier (r : Nat × ApplySet) : Bool := r.2.phase == .scheduled && r.2.commitAt == a.commitAt && decide (r.1 < s)
  if a.phase = .scheduled ∧ a.commitAt.toNat ≤ c.tb.time.toNat ∧ !c.dict.sets.any earlier then c.takeEffect s else c

/-- HOLDER_TIMEOUT: P01.020 has passed since the last staged write (R47). -/
def Chip.holderTimeout (c : Chip) (s : Nat) : Chip :=
  let a := c.applySet s
  if a.phase = .staging ∧ a.lastStaged + 1000000 * c.param 0x01 0x020 0 ≤ c.now then c.unstage s else c

end Sys2Proof.Machine
end

