-- ==== Sys2Proof/Machine/DictOps.lean ====
section
/-! DEFINITION. Reads and writes of the dictionary: the checks in the order of R511, and what a write of each parameter does
(R38 to R53, R70, R71 and the parameter tables of every chapter). -/

namespace Sys2Proof

/-- The class of a writer, as its bit in WRITERS: F 8, B 4, H 2, T 1 (R42). -/
def Writer.cls : Writer → Nat
  | .mailbox _ => 2
  | .tenant _ _ => 1
  | .mctp => 4
  | .fdp _ => 8
  | .shim _ => 8

/-- A class F writer. -/
def Writer.isF (w : Writer) : Bool := w.cls == 8

/-- The path that holds chunks for a writer: relayed requests share the mailbox of their PF. -/
def Writer.path : Writer → Writer
  | .tenant h _ => .mailbox h
  | w => w

end Sys2Proof

namespace Sys2Proof.Machine

/-! ### Who may read and write (R41, R511 steps 2 to 7) -/

/-- Objects that the recovery service serves: area 00, and P38.010 to P38.023 (R478). -/
def recoveryServes (n : Nat) : Bool := pArea n == 0x00 || (pArea n == 0x38 && 0x010 ≤ pObj n && pObj n ≤ 0x023)

/-- The descriptor that a request finds (R43 status 0x04, R478). -/
def Chip.findDesc (c : Chip) (n : Nat) : Option Desc :=
  if c.boot.phase == .recovery && !recoveryServes n then none else descOf c.variant n

/-- The T class may read area 00 and its own elements of function-scoped parameters, its function counters apart
(R41, R448). -/
def tReads (w : Writer) (d : Desc) (n : Nat) : Bool :=
  match w with
  | .tenant h vf =>
    pArea n == 0x00 ||
    (d.fscope && pElem n == h * 256 + vf && !(pArea n == 0x31 && 0x300 ≤ pObj n && pObj n < 0x307))
  | _ => true

/-- The relay check of MBX_CMD (R56): the VF exists. -/
def Chip.relayOk (c : Chip) (w : Writer) : Bool :=
  match w with
  | .tenant h vf => 1 ≤ vf && vf < 256 && c.fnExists (h * 256 + vf)
  | _ => true

/-- Unknown, absent and relay checks: the descriptor, or the status that refuses (R511 steps 2 to 4). -/
def Chip.reach (c : Chip) (w : Writer) (n : Nat) : Except Nat Desc :=
  match c.findDesc n with
  | none => .error 4
  | some d =>
    if !elementPresent c.variant d (pArea n) (pObj n) (pElem n) then .error 2
    else if !c.relayOk w then .error 5
    else .ok d

/-- A read may go ahead (R41): P01.033 never. -/
def Chip.reachRead (c : Chip) (w : Writer) (n : Nat) : Except Nat Desc :=
  match c.reach w n with
  | .error k => .error k
  | .ok d => if n = pnum 0x01 0x033 0 || !tReads w d n then .error 5 else .ok d

/-- A write may go ahead as far as access and class decide (R511 steps 2 to 6); P28.002 is for the PF of H0 alone. -/
def Chip.reachWrite (c : Chip) (w : Writer) (n : Nat) : Except Nat Desc :=
  match c.reach w n with
  | .error k => .error k
  | .ok d =>
    if !tReads w d n then .error 5
    else if d.access = .ro then .error 6
    else if d.writers &&& w.cls = 0 then .error 5
    else if pArea n = 0x28 ∧ pObj n = 0x002 ∧ w ≠ .mailbox 0 then .error 5
    else .ok d

/-- The sets that a restore commits: those with saved parameters (R53). -/
def savedSets : List Nat := [0x01, 0x08, 0x10, 0x11, 0x12, 0x18, 0x19, 0x1A, 0x21, 0x22, 0x24, 0x28, 0x31]

/-- The writer may not act on a set that another holds (R46, R47, R48). -/
def Chip.notHolder (c : Chip) (w : Writer) (s : Nat) : Bool := (c.applySet s).holder != some w && !w.isF

/-- Status 0x09 (R511 step 7): `x` is the value, where it has the length of the type. -/
def Chip.locked (c : Chip) (w : Writer) (d : Desc) (n : Nat) (x : Option Nat) : Bool :=
  let e := pElem n
  let ph (s : Nat) : SetPhase := (c.applySet s).phase
  if d.access = .rwa then
    ph d.set == .scheduled || (ph d.set == .staging && (c.applySet d.set).holder != some w)
  else if pArea n ≠ 0x01 then false
  else match pObj n with
    | 0x001 => ph e == .scheduled || (ph e == .staging && c.notHolder w e)
    | 0x002 => x == some 1 && ph e != .idle && c.notHolder w e
    | 0x015 => x == some 1 && savedSets.any fun s => ph s != .idle
    | 0x016 => x == some 1 && savedSets.any fun s => ph s != .idle
    | _ => false

/-! ### Value checks that depend on the state (R511 step 9) -/

/-- The counter of an element is an occupancy counter, which has a threshold (R389, R448). -/
def occupancyElement (unit e : Nat) : Bool :=
  unit < 60 && (e == Config.counterElement Ctr.poolOccupancy.index ||
    (List.range 23).any fun v => e == Config.counterElement (Ctr.reserveOccupancy v).index)

/-- Index ranges of P28.020: first and count. -/
def rangeOf (x : Nat) : Nat × Nat := (bits x 32 24, bits x 0 24)

/-- P28.020 may not change: regions are held, or another function's range overlaps (R289). -/
def Chip.rangeRefused (c : Chip) (fn x : Nat) : Bool :=
  let r := rangeOf x
  (c.mem.regions.any fun y => y.2.fn == fn) ||
  ((List.range 1024).any fun f => f != fn &&
    let o := rangeOf (c.param 0x28 0x020 f)
    decide (0 < r.2) && decide (0 < o.2) && decide (r.1 < o.1 + o.2) && decide (o.1 < r.1 + r.2))

/-- The target row of a window is refused (R296). -/
def Chip.targetRefused (c : Chip) (fn slot x : Nat) : Bool :=
  if bitOf (c.param 0x29 (0x100 + slot) fn) 63 then bitOf x 63 else bitOf x 63 && !c.windowOk fn slot

/-- The value is refused for what the chip holds. -/
def Chip.valueRefused (c : Chip) (area obj e x : Nat) : Bool :=
  match area, obj with
  | 0x18, 0x020 => (c.tport (e / 2)).state != .disabled
  | 0x18, 0x021 => (c.tport (e / 2)).state != .disabled
  | 0x18, 0x022 => (c.tport (e / 2)).state != .disabled
  | 0x21, 0x001 => c.ctlEnabled e
  | 0x21, 0x002 => c.ctlEnabled e
  | 0x21, 0x003 => c.ctlEnabled e
  | 0x23, 0x001 => c.tg.held.any fun h => h.fn == e
  | 0x23, 0x002 => c.tg.held.any fun h => h.fn == e
  | 0x28, 0x020 => c.rangeRefused e x
  | 0x28, 0x041 => 2 ^ 36 < x + c.param 0x28 0x041 (if e % 2 = 0 then e + 1 else e - 1)
  | 0x30, 0xF05 => !c.flt.heldUnits.contains x
  | 0x29, o =>
    if 0x100 ≤ o ∧ o < 0x140 then c.targetRefused e (o - 0x100) x
    else if 0x140 ≤ o ∧ o < 0x1C0 then bitOf (c.param 0x29 (0x100 + o % 0x40) e) 63
    else false
  | 0x31, o => 0x200 ≤ o && o < 0x300 && !occupancyElement (o - 0x200) e
  | _, _ => false

/-! ### Save, restore and calibration (R51, R53, R70, R71) -/

/-- A parameter number whose value a save stores. -/
def Chip.savedNumber (c : Chip) (n : Nat) : Bool := ((descOf c.variant n).map (·.saved)).getD false

/-- The snapshot of a save: every saved value that is not the default, and the chip id, whose default may change. -/
def Chip.snapshot (c : Chip) (generation : Nat) : Bank :=
  { generation := generation, valid := true
    values := Tab.put (Tab.keep c.dict.active fun n _ => c.savedNumber n) (pnum 0x10 0x001 0) c.id
    key := c.dict.fdpKey }

/-- The bank that a save writes: the one without the newest valid generation (R51). -/
def Flash.saveBank (f : Flash) : Nat := match f.newestBank with | some (0, _) => 1 | _ => 0

/-- SAVE. -/
def Chip.saveStart (c : Chip) : Chip × Nat :=
  let f := c.flash
  let g := (f.newestBank.map fun r => r.2.generation).getD 0
  if f.op.isSome then (c, 3)
  else if 0xFFFFFFFE ≤ g then (c, 0x0C)
  else ({ c with flash := { f with
      op := some .save, saveState := 1, saveJob := some (f.saveBank, c.snapshot (g + 1))
      banks := Tab.put f.banks f.saveBank Bank.init } }, 0)

/-- SAVE_COMPLETE. -/
def Chip.saveDone (c : Chip) (ok : Bool) : Chip :=
  match c.flash.saveJob with
  | none => c
  | some (b, x) =>
    let f := { c.flash with op := none, saveJob := none, saveState := if ok then 0 else 2 }
    { c with flash := if ok then { f with banks := Tab.put f.banks b x } else f }

/-- CALIBRATION_STORE: an invalid state stays invalid until the store completes (R70). -/
def Chip.calStore (c : Chip) : Chip × Nat :=
  let f := c.flash
  if f.op.isSome then (c, 3)
  else ({ c with flash := { f with
      op := some .calStore, calState := if f.calState = 2 then 2 else 1
      calJob := some (Tab.keep c.dict.active fun n _ => pArea n == 0x02) } }, 0)

/-- CALIBRATION_STORE_COMPLETE: the calibration fault's condition is gone. -/
def Chip.calStored (c : Chip) : Chip :=
  match c.flash.calJob with
  | none => c
  | some t =>
    ({ c with flash := { c.flash with op := none, calJob := none, calArea := some t, calState := 0 } }).setCond 0x90 0x101 false 11 0x90

/-- CALIBRATION_IMAGE_WRITE: the whole working copy, or 0x0B or 0x0D (R71). -/
def Chip.calImageWrite (c : Chip) (l : List Byte) : Chip × Nat :=
  if Config.calImageSerial l ≠ c.serial then (c, 0x0B)
  else if !Config.calImageFormat l || !Config.calImageCheck l then (c, 0x0D)
  else
    let width (n : Nat) : Nat := ((descOf c.variant n).map fun d => 8 * d.ty.size).getD 0
    (calNumbers.foldl (fun c n => c.setParam (pArea n) (pObj n) (pElem n) (Config.calImageValue l n % 2 ^ width n)) c, 0)

/-- Held chunks of FDP and MCTP are discarded (R64). -/
def Chip.dropFdpMctp (c : Chip) : Chip :=
  { c with dict := { c.dict with held := c.dict.held.filter fun h => match h.path with | .fdp _ => false | .mctp => false | _ => true } }

/-- The endpoint of a valid row of P01.040 (R66). -/
def Chip.listed (c : Chip) (ep : Nat) : Bool := (c.managerRow? ep).isSome

/-- What follows a change of stored values: a right withdrawn (R124), FDP identity (R64), managers no longer listed (R67), broadcast
records of changed rows (R335). -/
def Chip.followUps (c old : Chip) : Chip :=
  let c := (List.range 4).foldl (fun c h => if old.fmRight h && !c.fmRight h then c.emptyMgmt h else c) c
  let c := if c.param 0x01 0x034 0 ≠ old.param 0x01 0x034 0 ∨ c.dict.fdpKey ≠ old.dict.fdpKey then c.dropFdpMctp else c
  let c : Chip := { c with rt := { c.rt with bcasts := Tab.keep c.rt.bcasts fun row _ => c.param 0x01 0x040 row == old.param 0x01 0x040 row } }
  let c := { c with dict := { c.dict with shimCache := c.dict.shimCache.filter fun r => c.listed r.ep } }
  c.retireRuleChanged old

/-- A restore gives every saved parameter the value of the bank, or its default, and commits the affected sets as a whole;
a set-level check that fails refuses the restore (R53, R48). -/
def Chip.restore (c : Chip) (bank : Option Bank) : Chip × Nat :=
  let base : Chip := { c with dict := { c.dict with
    active := Tab.keep c.dict.active fun n _ => !c.savedNumber n
    fdpKey := bank.bind (·.key) } }
  let new := match bank with
    | none => base
    | some b => b.values.foldl (fun (c : Chip) (r : Nat × Nat) => c.loadValue r.1 r.2) base
  match savedSets.findSome? fun s => (new.setCheck c s).map fun n => (s, n) with
  | some (s, n) => (c.putResult s (refusal n), 0x0A)
  | none =>
    let new := savedSets.foldl (fun (x : Chip) s => (x.putResult s 0).setEffect c s) new
    (new.followUps c, 0)

/-! ### What a write does -/

/-- Three free indices for a control queue pair that is started by a path that does not read the index blocks' contents
from the command: what the blocks hold lies outside the chip. -/
def Chip.freeIndices (c : Chip) : Chip × CtlIndices :=
  let f (i : Nat) : BitVec 32 := BitVec.ofNat 32 (Config.freeValue (c.free + i))
  (c.drawn.drawn.drawn, { sqPi := f 0, sqCi := f 1, cqPi := f 2 })

/-- A write of P20.010 (R102). -/
def Chip.writeEnable (c : Chip) (fn x : Nat) : Chip :=
  let c := c.setParam 0x20 0x010 fn x
  if x = 0 then c.disableFn fn else c.enableFn fn

/-- Firmware update commands (R487). -/
def Chip.updateCommand (c : Chip) (x : Nat) : Chip × Nat :=
  match x with
  | 1 => c.beginUpdate
  | 2 => c.verifyUpdate
  | 3 => c.switchSlot
  | _ => c.activate

/-- A command of a WO parameter, its value within the range. -/
def Chip.command (c : Chip) (area obj e x : Nat) (l : List Byte) : Chip × Nat :=
  match area, obj with
  | 0x01, 0x001 => c.commitSet e (BitVec.ofNat 64 x)
  | 0x01, 0x002 => if x = 1 ∧ (c.applySet e).phase ≠ .idle then (c.unstage e, 0) else (c, 0)
  | 0x01, 0x010 => if x = 1 then c.saveStart else (c, 0)
  | 0x01, 0x015 => if x = 1 then c.restore none else (c, 0)
  | 0x01, 0x016 => if x = 1 then c.restore (c.flash.newestBank.map (·.2)) else (c, 0)
  | 0x01, 0x070 => if x = 1 then c.calStore else (c, 0)
  | 0x08, 0x010 => c.setTime (BitVec.ofNat 64 x)
  | 0x18, 0x004 => c.portCommand e x
  | 0x18, 0x026 => c.bitSlip e x
  | 0x22, 0x010 => c.contextCommand e x
  | 0x23, 0x010 => c.ctrCommand e x
  | 0x28, 0x011 => c.retireGroup x
  | 0x28, 0x021 => c.regionCommand e x
  | 0x30, 0xF05 => (c.unitRelease x, 0)
  | 0x38, 0x020 => c.blockWrite e l
  | 0x38, 0x021 => c.updateCommand x
  | 0x38, 0x030 => c.restartCluster x
  | _, _ => (c, 0)

/-- A write of status bits (R40). -/
def Chip.clearBits (c : Chip) (area obj e x : Nat) : Chip :=
  if area = 0x30 then c.clearStatus (obj - 0x100) e x
  else if area = 0x29 then
    let k := (obj - 0x1C0) * 1024 + e
    { c with br := { c.br with status := Tab.set c.br.status 0 k (Tab.get c.br.status k 0 &&& (3 - x % 4)) } }
  else if area = 0x31 ∧ bitOf x 0 then
    { c with ctr := { c.ctr with overflow := c.ctr.overflow.erase (pnum 0x31 obj e) } }
  else c

/-- The checker of a lane starts again (R430). -/
def Chip.checkerRestart (c : Chip) (n x : Nat) : Chip :=
  let c := c.setParam 0x18 0x022 n x
  if bitOf x 31 then c.updLane n fun y => { y with chkSync := false, chkErrors := 0, chkBits := 0, chkRun := 0, chkRecent := [] } else c

/-- A write of an RW or RWN parameter whose value stands, with its effect (R45 checks are done). -/
def Chip.store (c : Chip) (area obj e x : Nat) (idx : Option CtlIndices) : Chip × Nat :=
  match area, obj with
  | 0x13, 0x001 => (c.writeClamp e x, 0)
  | 0x18, 0x020 => ((c.setParam 0x18 0x020 e x).lineFollows e, 0)
  | 0x18, 0x021 => ((c.setParam 0x18 0x021 e x).lineFollows e, 0)
  | 0x18, 0x022 => (c.checkerRestart e x, 0)
  | 0x20, 0x010 => (c.writeEnable e x, 0)
  | 0x21, 0x004 => match idx with
    | some i => c.ctlSetupWrite e x i
    | none => let (c, i) := c.freeIndices; c.ctlSetupWrite e x i
  | _, _ =>
    let c' := (c.setParam area obj e (storedForm area obj e x)).followUps c
    if area = 0x29 ∧ 0x100 ≤ obj ∧ obj < 0x140 ∧ !bitOf x 63 then (c'.windowCleared e (obj - 0x100), 0) else (c', 0)

/-- P01.033 (R64, R68). -/
def Chip.writeKey (c : Chip) (l : List Byte) : Chip :=
  ({ c with dict := { c.dict with fdpKey := some l, fdpLastSeq := 0 } }).followUps c

/-- The length of a value fits its type (R512): a BLOB of stated length has exactly that. -/
def lengthOk (d : Desc) (n len : Nat) : Bool :=
  if d.ty ≠ .blob then len == d.ty.size
  else if n = pnum 0x01 0x033 0 then len == 32
  else if pArea n = 0x38 then len == 524288
  else 1 ≤ len && len ≤ 524288

/-- A write of octets to a BLOB. -/
def Chip.writeBlob (c : Chip) (n : Nat) (l : List Byte) : Chip × Nat :=
  if n = pnum 0x01 0x033 0 then (c.writeKey l, 0)
  else if n = pnum 0x02 0x001 0 then c.calImageWrite l
  else c.command (pArea n) (pObj n) (pElem n) 0 l

/-- A write of a number that passes type and length: range, then what its access says (R511 steps 9 to 11). -/
def Chip.writeNumber (c : Chip) (w : Writer) (d : Desc) (n x : Nat) (idx : Option CtlIndices) : Chip × Nat :=
  let area := pArea n; let obj := pObj n; let e := pElem n
  let x := keepBits area obj x
  if !valueOk d area obj e x || c.valueRefused area obj e x then (c, 7)
  else match d.access with
    | .rwa => (c.stage w d.set n x, 1)
    | .wo => c.command area obj e x []
    | .w1c => (c.clearBits area obj e x, 0)
    | _ => c.store area obj e x idx

/-- A write of a whole value, most significant byte first; `none` = its chunks do not complete a value (R511, R512). -/
def Chip.dictWrite (c : Chip) (w : Writer) (n : Nat) (v : Option (List Byte)) (idx : Option CtlIndices := none) : Chip × Nat :=
  match c.reachWrite w n with
  | .error k => (c, k)
  | .ok d =>
    let whole := v.bind fun l => if lengthOk d n l.length then some l else none
    if c.locked w d n (whole.map natBE) then (c, 9)
    else match whole with
      | none => (c, 8)
      | some l => if d.ty = .blob then c.writeBlob n l else c.writeNumber w d n (natBE l) idx

/-- A read: its status, and the whole value most significant byte first. -/
def Chip.dictRead (c : Chip) (w : Writer) (n : Nat) (staged : Bool) : Except Nat (Desc × List Byte) :=
  match c.reachRead w n with
  | .error k => .error k
  | .ok d => .ok (d, c.valueBytes d n staged)

/-- A DESCRIBE (R38, R41). -/
def Chip.dictDescribe (c : Chip) (w : Writer) (n : Nat) : Except Nat (Word × Word) :=
  match c.reach w n with
  | .error k => .error k
  | .ok d => .ok (c.descriptor d n)

end Sys2Proof.Machine
end

