-- ==== Sys2Proof/Machine/PathOps.lean ====
section
/-! DEFINITION. The four access paths into the dictionary: chunks, the mailbox, FDP, MCTP and the Shim channel
(R23, R54 to R67, R478, R503, R512). -/

namespace Sys2Proof.Machine

/-! ### Chunks (R57, R64, R67, R512) -/

/-- The MGT cluster serves requests (R23). -/
def Chip.mgtUp (c : Chip) : Bool := c.clusterUp 0

/-- What a path holds. -/
def Chip.heldAt (c : Chip) (p : Writer) : Option HeldValue := c.dict.held.find? fun h => decide (h.path = p)

/-- The held chunks of a path are discarded. -/
def Chip.dropHeld (c : Chip) (p : Writer) : Chip :=
  { c with dict := { c.dict with held := c.dict.held.filter fun h => !decide (h.path = p) } }

/-- A path whose chunks expire, and are discarded by another OP (R64). -/
def timedPath : Writer → Bool
  | .fdp _ => true
  | .mctp => true
  | _ => false

/-- P01.020 has passed since the last chunk (R64). -/
def Chip.chunksOld (c : Chip) (h : HeldValue) : Bool := timedPath h.path && decide (h.last + 1000000 * c.param 0x01 0x020 0 ≤ c.now)

/-- The held chunks of a path do not survive a request: another parameter, another OP, another TAG, or too late. -/
def Chip.chunksEnd (c : Chip) (h : HeldValue) (n : BitVec 32) (isWrite : Bool) (tag : Nat) : Bool :=
  h.param != n || h.tag != tag || (timedPath h.path && !isWrite) || c.chunksOld h

/-- A request arrives on a path. -/
def Chip.chunkRules (c : Chip) (p : Writer) (n : BitVec 32) (isWrite : Bool) (tag : Nat) : Chip :=
  match c.heldAt p with
  | none => c
  | some h => if c.chunksEnd h n isWrite tag then c.dropHeld p else c

/-- Bytes laid over held ones. -/
def layBytes (t : Tab Byte) (off : Nat) : List Byte → Tab Byte
  | [] => t
  | b :: l => layBytes (Tab.put t off b) (off + 1) l

/-- Hold a chunk (R57, R64, R67). A Shim chunk whose VALUE_LEN differs from the earlier ones leaves a value that no final
chunk completes (R512). -/
def Chip.holdChunk (c : Chip) (p : Writer) (n : BitVec 32) (off : Nat) (l : List Byte) (tag vlen : Nat) : Chip :=
  let h := (c.heldAt p).getD { HeldValue.init with path := p, param := n, tag := tag, length := vlen }
  let h := { h with bytes := layBytes h.bytes off l, last := c.now, length := if h.length = vlen then vlen else 2 ^ 32 }
  let c := c.dropHeld p
  { c with dict := { c.dict with held := h :: c.dict.held } }

/-- The whole value that held chunks and a final chunk make (R512): every byte is there, none lies beyond. -/
def wholeValue (t : Tab Byte) (off : Nat) (l : List Byte) : Option (List Byte) :=
  let total := off + l.length
  let t := layBytes t off l
  if (t.all fun r => decide (r.1 < total)) && t.length == total then some (t.map (·.2)) else none

/-- A value as a path carries it: numbers least significant byte first on the mailbox (R56), most significant first on the
others; addresses and octets as they are. -/
def pathOrder (le : Bool) (d : Desc) (l : List Byte) : List Byte :=
  if le && d.ty != .ipv6 && d.ty != .blob then l.reverse else l

/-- The VALUE_LEN of a Shim chunk equals the value length; the other paths carry none (R512). -/
def vlenFits (w : Writer) (length vlen : Nat) : Bool :=
  match w with
  | .shim _ => length == vlen
  | _ => true

/-- A WRITE on a path: a chunk is held, or the final one completes the value (R57, R64, R67, R512). A refusal other than
0x08 leaves what is held (R44). -/
def Chip.pathWrite (c : Chip) (w : Writer) (n : BitVec 32) (off : Nat) (l : List Byte) (fits final le : Bool) (tag vlen : Nat)
    (idx : Option CtlIndices := none) : Chip × Nat :=
  match c.reachWrite w n.toNat with
  | .error k => (c, k)
  | .ok d =>
    let h := (c.heldAt w.path).getD { HeldValue.init with length := vlen }
    if !final then if fits then (c.holdChunk w.path n off l tag vlen, 0) else (c, 8)
    else
      let whole :=
        if fits && h.length == vlen && vlenFits w (off + l.length) vlen then (wholeValue h.bytes off l).map (pathOrder le d) else none
      let (c, k) := c.dictWrite w n.toNat whole idx
      if k = 0 ∨ k = 1 ∨ k = 8 then (c.dropHeld w.path, k) else (c, k)

/-- The slice of a value that a READ asks for (R57, R64): 0x08 where it reaches beyond the value or the path's limit; a WO
parameter gives its zero-length value. -/
def slice (d : Desc) (l : List Byte) (off len limit : Nat) : Except Nat (List Byte) :=
  if d.access = .wo then .ok []
  else if limit < len ∨ l.length < off + len then .error 8
  else .ok ((l.drop off).take len)

/-- What a path answers: status, data, and total value length. -/
abbrev Answer := Nat × List Byte × Nat

/-- A READ or READ STAGED on a path. -/
def Chip.pathRead (c : Chip) (w : Writer) (n : BitVec 32) (staged le : Bool) (off len limit : Nat) : Answer :=
  match c.dictRead w n.toNat staged with
  | .error k => (k, [], 0)
  | .ok (d, l) =>
    match slice d (pathOrder le d l) off len limit with
    | .error k => (k, [], l.length)
    | .ok x => (0, x, l.length)

/-- A DESCRIBE on a path (R38): 16 bytes. -/
def Chip.pathDescribe (c : Chip) (w : Writer) (n : BitVec 32) (le : Bool) : Answer :=
  match c.dictDescribe w n.toNat with
  | .error k => (k, [], 0)
  | .ok (a, b) => (0, if le then a.le ++ b.le else a.be ++ b.be, 16)

/-- A READ, DESCRIBE or READ STAGED by its OP; any other OP is unknown (R56). -/
def Chip.pathAsk (c : Chip) (w : Writer) (op : Nat) (n : BitVec 32) (le : Bool) (off len limit : Nat) : Answer :=
  match op with
  | 1 => c.pathRead w n false le off len limit
  | 3 => c.pathDescribe w n le
  | 4 => c.pathRead w n true le off len limit
  | _ => (4, [], 0)

/-- CHUNK_EXPIRY. -/
def Chip.chunkExpiry (c : Chip) (p : Writer) : Chip :=
  match c.heldAt p with
  | none => c
  | some h => if c.chunksOld h then c.dropHeld p else c

/-! ### The mailbox (R54 to R58) -/

/-- The mailbox of a host port's PF. -/
def Chip.mailbox (c : Chip) (h : Nat) : Mailbox := Tab.get c.dict.mailboxes h Mailbox.init

/-- Change a mailbox. -/
def Chip.updMailbox (c : Chip) (h : Nat) (f : Mailbox → Mailbox) : Chip :=
  { c with dict := { c.dict with mailboxes := Tab.upd c.dict.mailboxes h Mailbox.init f } }

/-- Store bytes in MBX_DATA; bytes of 0 are not listed. -/
def mbxStore (t : Tab Byte) (off : Nat) : List Byte → Tab Byte
  | [] => t
  | b :: l => mbxStore (Tab.set t 0 off b) (off + 1) l

/-- Bytes 0 to n − 1 of MBX_DATA. -/
def Mailbox.bytes (m : Mailbox) (n : Nat) : List Byte := (List.range n).map fun i => Tab.get m.data i 0

/-- The request completes: result, status, DONE, SEQ and the vector (R56). -/
def Chip.mbxDone (c : Chip) (h : Nat) (a : Answer) : Chip :=
  let c := c.updMailbox h fun m =>
    { m with go := false, done := true, dstatus := a.1, valueLen := a.2.2, seq := m.seq + 1
             data := if a.1 = 0 then mbxStore m.data 0 a.2.1 else m.data }
  let m := c.mailbox h
  if m.irqEnable then c.signal (h * 256) m.irqVector else c

/-- The write that sets GO: the command's fields are stored, DONE clears, and the registers are captured (R56). -/
def Chip.mbxTake (c : Chip) (h op : Nat) (relay : Bool) (vf : Nat) (n : BitVec 32) : Chip :=
  c.updMailbox h fun m => { m with cmdOp := op, cmdRelay := relay, cmdVf := vf, cmdParam := n, go := true, done := false }

/-- A mailbox request (R57, R58): class H, or class T for the VF that RELAY names. -/
def Chip.mbxRequest (c : Chip) (h op : Nat) (relay : Bool) (vf : Nat) (n : BitVec 32) : Chip :=
  if !c.hasHost h then c
  else
    let c := c.mbxTake h op relay vf n
    let m := c.mailbox h
    let w : Writer := if relay then .tenant h vf else .mailbox h
    if !c.mgtUp then c.mbxDone h (3, [], 0)
    else
      let c := c.chunkRules (.mailbox h) n (op == 2) 0
      if op = 2 then
        let fits := decide (m.xferLen ≤ 2048)
        let (c, k) := c.pathWrite w n m.xferOff (m.bytes (min m.xferLen 2048)) fits m.final true 0 0
        c.mbxDone h (k, [], 0)
      else c.mbxDone h (c.pathAsk w op n true m.xferOff m.xferLen 2048)

/-- COLLIDE: GO written while a request runs (R56). -/
def Chip.mbxCollide (c : Chip) (h : Nat) : Chip :=
  if c.hasHost h then c.updMailbox h fun m => { m with collide := true } else c

/-! ### FDP (R59 to R62) -/

/-- A record whose OP asks for a value carries no data in a request (R60, R64). -/
def opAsks (op : Nat) : Bool := op == 1 || op == 3 || op == 4

/-- Padding to a multiple of 8 bytes (R60). -/
def padded (n : Nat) : Nat := divUp n 8 * 8

/-- One number of a record. -/
def fieldBE (l : List Byte) (off n : Nat) : Nat := natBE ((l.drop off).take n)

/-- The records of a request: exactly `n`, ending where the tag begins. -/
def fdpRecords : Nat → List Byte → Option (List OpRecord)
  | 0, l => if l.isEmpty then some [] else none
  | n + 1, l =>
    let op := fieldBE l 0 1
    let len := fieldBE l 12 2
    let dlen := if opAsks op then 0 else len
    if l.length < 16 + padded dlen ∨ 1024 < dlen then none
    else
      let r : OpRecord :=
        { op := op, param := BitVec.ofNat 32 (fieldBE l 4 4), offset := fieldBE l 8 4, length := len
          final := bitOf (fieldBE l 14 1) 0, data := (l.drop 16).take dlen }
      (fdpRecords n (l.drop (16 + padded dlen))).map (r :: ·)

/-- The records of a datagram of the form of R59 and R60 that is no response. -/
def fdpParse (l : List Byte) : Option (List OpRecord) :=
  let count := fieldBE l 6 2
  if 1452 < l.length ∨ l.length < 48 ∨ fieldBE l 0 2 ≠ 0x4644 ∨ fieldBE l 2 1 ≠ 1 ∨ bitOf (fieldBE l 3 1) 0 ∨ count < 1 ∨ 64 < count then none
  else fdpRecords count ((l.take (l.length - 32)).drop 16)

/-- The 32 octets of the authentication tag over the octets before it (R59). -/
def fdpTag (key body : List Byte) : List Byte := bytesBE 32 (Config.hmacSha256 key body).toNat

/-- What an accepted datagram carries: its key, key id, sequence number and records (R61). -/
def Chip.fdpAccept (c : Chip) (l : List Byte) : Option (List Byte × Nat × Word × List OpRecord) :=
  match fdpParse l, c.dict.fdpKey with
  | some rs, some key =>
    let seq : Word := BitVec.ofNat 64 (fieldBE l 8 8)
    if c.param 0x01 0x030 0 = 1 ∧ fieldBE l 4 2 = c.param 0x01 0x034 0 ∧ c.dict.fdpLastSeq.toNat < seq.toNat ∧
        fdpTag key (l.take (l.length - 32)) = l.drop (l.length - 32) then some (key, fieldBE l 4 2, seq, rs)
    else none
  | _, _ => none

/-- A record of a response. -/
def recordBytes (r : OpRecord) (status : Nat) (data : List Byte) : List Byte :=
  bytesBE 1 r.op ++ bytesBE 1 status ++ zeros 2 ++ bytesBE 4 r.param.toNat ++ bytesBE 4 r.offset ++ bytesBE 2 data.length ++
  bytesBE 1 (natOfBool r.final) ++ zeros 1 ++ data ++ zeros (padded data.length - data.length)

/-- One record of FDP or MCTP is executed (R64): its status and read data. -/
def Chip.runRecord (c : Chip) (w : Writer) (r : OpRecord) : Chip × Nat × List Byte :=
  let c := c.chunkRules w r.param (r.op == 2) 0
  if r.op = 2 then
    let fits := decide (r.length ≤ 1024) && decide (r.length ≤ r.data.length)
    let (c, k) := c.pathWrite w r.param r.offset (r.data.take r.length) fits r.final false 0 0
    (c, k, [])
  else
    let a := c.pathAsk w r.op r.param false r.offset r.length 1024
    (c, a.1, if a.1 = 0 then a.2.1 else [])

/-- Execute the records in order, each in the room that remains for read data (R61). -/
def Chip.fdpRun (c : Chip) (w : Writer) (room : Nat) : List OpRecord → Chip × List Byte
  | [] => (c, [])
  | r :: rs =>
    let (c', k, data) := c.runRecord w r
    let (c', k, data) := if room < padded data.length then (c.chunkRules w r.param false 0, 8, []) else (c', k, data)
    let (c'', rest) := c'.fdpRun w (room - padded data.length) rs
    (c'', recordBytes r k data ++ rest)

/-- Header, records and tag of a response (R59). -/
def fdpResponse (key : List Byte) (keyId count : Nat) (seq : Word) (records : List Byte) : List Byte :=
  let body := bytesBE 2 0x4644 ++ bytesBE 1 1 ++ bytesBE 1 1 ++ bytesBE 2 keyId ++ bytesBE 2 count ++ seq.be ++ records
  body ++ fdpTag key body

/-- FDP_REQUEST (R61, R23). -/
def Chip.fdpRequest (c : Chip) (d : Datagram) : Chip :=
  match c.fdpAccept d.bytes with
  | none => { c with dict := { c.dict with fdpRejected := c.dict.fdpRejected + 1 } }
  | some (key, keyId, seq, rs) =>
    if !c.mgtUp then
      c.emit (.fdpReply d.source (fdpResponse key keyId rs.length seq (rs.flatMap fun r => recordBytes r 3 [])))
    else
      let c := { c with dict := { c.dict with fdpLastSeq := seq } }
      let (c, l) := c.fdpRun (.fdp keyId) (1452 - 48 - 16 * rs.length) rs
      c.emit (.fdpReply d.source (fdpResponse key keyId rs.length seq l))

/-! ### MCTP (R63, R503) -/

/-- The MCTP vendor header (R63): the vendor-defined IANA message type 0x7F, then the enterprise number of P00.004, most
significant byte first as the binding gives it. -/
def mctpVendor : List Byte := 0x7F :: bytesBE 4 0x0000D3B1

/-- The MCTP baseline transmission unit (R63). -/
def mctpUnit : Nat := 64

/-- The message that packets make: the first alone starts it, the last alone ends it, and every packet but the last is full. -/
def mctpMessage : Bool → List MctpPacket → Option (List Byte)
  | _, [] => none
  | first, [p] => if p.som == first && p.eom && decide (p.body.length ≤ mctpUnit) then some p.body else none
  | first, p :: l =>
    if p.som == first && !p.eom && decide (p.body.length = mctpUnit) then (mctpMessage false l).map (p.body ++ ·) else none

/-- A message split into packets (R63); every packet that the device sends carries a PEC (R503). -/
def mctpSplit (l : List Byte) : List MctpPacket :=
  let parts := chunksOf mctpUnit l.length l
  (List.range parts.length).map fun i =>
    { som := i == 0, eom := i + 1 == parts.length, body := (parts[i]?).getD [] }

/-- The message of one operation record: vendor header, command and record (R63). -/
def mctpBody (cmd : Nat) (record : List Byte) : List Byte := mctpVendor ++ bytesBE 1 cmd ++ record

/-- The command and the record of a request message; the record is none where its data does not end with the message. -/
def mctpParse (l : List Byte) : Option (Nat × OpRecord × Bool) :=
  if l.take 5 = mctpVendor ∧ 6 ≤ l.length then
    let x := l.drop 6
    let r : OpRecord :=
      { op := fieldBE x 0 1, param := BitVec.ofNat 32 (fieldBE x 4 4), offset := fieldBE x 8 4, length := fieldBE x 12 2
        final := bitOf (fieldBE x 14 1) 0, data := (x.drop 16).take (fieldBE x 12 2) }
    some (fieldBE l 5 1, r, (fdpRecords 1 x).isSome)
  else none

/-- The device answers a request message with the completed record (R63). -/
def Chip.mctpAnswer (c : Chip) (r : OpRecord) (status : Nat) (data : List Byte) : Chip :=
  c.emit (.mctpReply (mctpSplit (mctpBody 0x81 (recordBytes r status data))))

/-- A request message: another command than 0x01 gets status 0x04, a record that does not fit its message 0x08. -/
def Chip.mctpTake (c : Chip) (l : List Byte) : Chip :=
  match mctpParse l with
  | none => c
  | some (cmd, r, fits) =>
    if !c.mgtUp then c.mctpAnswer r 3 []
    else if cmd ≠ 1 then c.mctpAnswer r 4 []
    else if !fits then c.mctpAnswer r 8 []
    else
      let (c, k, data) := c.runRecord .mctp r
      c.mctpAnswer r k data

/-- MCTP_REQUEST: packets with a wrong or missing PEC are discarded and counted (R503), and a message that misses one gets no
response; otherwise the packets make the message. -/
def Chip.mctpRequest (c : Chip) (l : List MctpPacket) : Chip :=
  if !c.up && c.boot.phase != .recovery then c
  else
    let bad := (l.filter fun p => !p.pecOk).length
    if bad ≠ 0 then c.bump 0xC2 .badPec bad
    else match mctpMessage true l with
    | none => c
    | some m => c.mctpTake m

/-- DYNAMIC_ADDRESS_ASSIGNMENT (R63, R503): while RESET_N is low only the static address is served. -/
def Chip.assignAddress (c : Chip) (addr : Nat) : Chip :=
  if c.boot.phase = .held ∨ c.boot.phase = .tripped then c else { c with dict := { c.dict with i3cAddress := some (addr % 128) } }

/-! ### The Shim channel (R65 to R67) -/

/-- A dictionary response. -/
def shimWords (p : Packet) (status vlen : Nat) (data : List Byte) : List Word :=
  let d := data ++ zeros (16 - data.length)
  [mkWord [(p.w0.field 63 56, 56), (status, 48), (p.w0.field 47 32, 32), (p.w0.field 31 0, 0)],
    mkWord [(natOfBool (p.w1.getLsbD 63), 63), (p.w1.field 62 48, 48), (vlen, 0)],
    BitVec.ofNat 64 (natBE (d.take 8)), BitVec.ofNat 64 (natBE ((d.drop 8).take 8))]

/-- Send a dictionary response to the endpoint that asked. -/
def Chip.shimAnswer (c : Chip) (p : Packet) (l : List Word) : Chip :=
  c.injectShim 0x41 p.src.toNat ((l[0]?).getD 0) ((l[1]?).getD 0) ((l[2]?).getD 0) ((l[3]?).getD 0)

/-- The cached answer of an endpoint to a (TAG, CHUNK) pair. -/
def Chip.shimCached (c : Chip) (p : Packet) : Option ShimReply :=
  c.dict.shimCache.find? fun r => r.ep == p.src.toNat && r.tag == p.w0.field 47 32 && r.chunk == p.w1.field 62 48

/-- Keep an answer: the newest 16 of each endpoint. -/
def Chip.shimKeep (c : Chip) (p : Packet) (l : List Word) : Chip :=
  let mine := (c.dict.shimCache.filter fun r => r.ep == p.src.toNat).take 15
  let others := c.dict.shimCache.filter fun r => r.ep != p.src.toNat
  let r : ShimReply := { ep := p.src.toNat, tag := p.w0.field 47 32, chunk := p.w1.field 62 48, reply := l }
  { c with dict := { c.dict with shimCache := (r :: mine) ++ others } }

/-- A Shim request is executed (R65, R67): chunk CHUNK stands at offset 16 × CHUNK. -/
def Chip.shimExecute (c : Chip) (p : Packet) : Chip × List Word :=
  let w : Writer := .shim p.src.toNat
  let op := p.w0.field 63 56
  let n : BitVec 32 := BitVec.ofNat 32 (p.w0.field 31 0)
  let tag := p.w0.field 47 32
  let off := 16 * p.w1.field 62 48
  let vlen := p.w1.field 31 0
  let c := c.chunkRules w n (op == 2) tag
  if op = 2 then
    let l := (p.w2.be ++ p.w3.be).take (vlen - off)
    let (c, k) := c.pathWrite w n off l (decide (off < vlen)) (p.w1.getLsbD 63) false tag vlen
    (c, shimWords p k vlen [])
  else if op = 3 then
    let a := c.pathAsk w 3 n false 0 16 16
    (c, shimWords p a.1 a.2.2 a.2.1)
  else
    let total := (c.pathAsk w op n false 0 0 16).2.2
    let len := if off < total then min 16 (total - off) else 1
    let a := c.pathAsk w op n false off len 16
    (c, shimWords p a.1 a.2.2 a.2.1)

/-- SHIM_DICTIONARY_REQUEST (R66, R67, R23). -/
def Chip.shimRequest (c : Chip) (p : Packet) : Chip :=
  let c := c.taken p
  if !c.listed p.src.toNat then { c with dict := { c.dict with shimRejected := c.dict.shimRejected + 1 } }
  else if !c.mgtUp then c.shimAnswer p (shimWords p 3 0 [])
  else match c.shimCached p with
    | some r => c.shimAnswer p r.reply
    | none =>
      let (c, l) := c.shimExecute p
      (c.shimKeep p l).shimAnswer p l

/-! ### A request that a command row names with its writer -/

/-- The path of a writer is served: full or Jig service, or MCTP in the recovery service (R478). -/
def Chip.serves (c : Chip) (w : Writer) : Bool :=
  match w with
  | .mailbox h => c.up && c.hasHost h
  | .tenant h _ => c.up && c.hasHost h
  | .mctp => c.up || c.boot.phase == .recovery
  | .fdp k => c.up && c.param 0x01 0x030 0 == 1 && c.dict.fdpKey.isSome && k == c.param 0x01 0x034 0
  | .shim ep => c.up && c.listed ep

/-- A request on a path that does not take it: a datagram or Shim request is discarded and counted (R61, R66). -/
def Chip.unserved (c : Chip) (w : Writer) : Chip :=
  if !c.up then c
  else match w with
    | .fdp _ => { c with dict := { c.dict with fdpRejected := c.dict.fdpRejected + 1 } }
    | .shim _ => { c with dict := { c.dict with shimRejected := c.dict.shimRejected + 1 } }
    | _ => c

/-- A whole value, most significant byte first, is written by a writer; the answer leaves as a reply. -/
def Chip.rowWrite (c : Chip) (w : Writer) (n : Nat) (l : List Byte) (idx : Option CtlIndices := none) : Chip :=
  if !c.serves w then c.unserved w
  else if !c.mgtUp then c.emit (.dictReply w 3 [])
  else
    let p : BitVec 32 := BitVec.ofNat 32 n
    let c := c.chunkRules w.path p true (((c.heldAt w.path).map (·.tag)).getD 0)
    let (c, k) := c.dictWrite w n (some l) idx
    let c := if k = 0 ∨ k = 1 ∨ k = 8 then c.dropHeld w.path else c
    c.emit (.dictReply w k [])

end Sys2Proof.Machine
end

