-- ==== Sys2Proof/Machine/Flags.lean ====
section
/-! DEFINITION. What each BAR0 register reads: status bits and flags put together from the state (R56, R106, R110, and the
register tables of the host ports chapter). -/

namespace Sys2Proof.Machine

/-- The function is a PF. -/
def isPf (fn : Nat) : Bool := fn % 256 == 0

/-- ID_DEVICE. -/
def Chip.idDevice (c : Chip) (fn : Nat) : Word :=
  mkWord [(c.readNat 0x00 0x001 0, 56), (c.readNat 0x00 0x002 0, 48), (1, 40), (fn, 16)]

/-- ID_ENDPOINT. -/
def Chip.idEndpoint (c : Chip) (fn : Nat) : Word := mkWord [(natOfBool c.dict.chipIdApplied, 63), (c.endpoint (fn / 256), 0)]

/-- FN_STATUS. -/
def Chip.fnStatus (c : Chip) (fn : Nat) : Word :=
  mkWord [((c.fnState fn).code, 4), (natOfBool (c.boot.phase == .jig), 3), (natOfBool (isPf fn && c.fmRight (fn / 256)), 2),
    (c.param 0x20 0x012 fn, 1), (natOfBool (c.fnReady fn), 0)]

/-- FN_RESOURCES. -/
def Chip.fnResources (c : Chip) (fn : Nat) : Word :=
  let p := c.port (fn / 256)
  if isPf fn then mkWord [(64, 40), (p.bar4Pf, 32), (p.pagesPf, 0)] else mkWord [(8, 40), (p.bar4Vf, 32), (p.pagesVf, 0)]

/-- MBX_CMD. -/
def Mailbox.cmdWord (m : Mailbox) : Word :=
  mkWord [(natOfBool m.go, 63), (m.cmdOp, 48), (natOfBool m.cmdRelay, 47), (m.cmdVf, 32), (m.cmdParam.toNat, 0)]

/-- MBX_XFER. -/
def Mailbox.xferWord (m : Mailbox) : Word := mkWord [(natOfBool m.final, 63), (m.xferLen, 32), (m.xferOff, 0)]

/-- MBX_STATUS. -/
def Mailbox.statusWord (m : Mailbox) : Word :=
  mkWord [(m.dstatus, 48), (natOfBool m.collide, 41), (natOfBool m.done, 40), (m.valueLen, 0)]

/-- Eight bytes of MBX_DATA as a little-endian word. -/
def Mailbox.dataWord (m : Mailbox) (i : Nat) : Word :=
  BitVec.ofNat 64 (natLE ((List.range 8).map fun k => Tab.get m.data (i + k) 0))

/-- The mailbox registers of a PF at a BAR0 offset 0x1000 to 0x1FFF (R56). -/
def Mailbox.word (m : Mailbox) (off : Nat) : Word :=
  match off with
  | 0x1000 => m.cmdWord
  | 0x1008 => m.xferWord
  | 0x1010 => m.statusWord
  | 0x1018 => mkWord [(natOfBool m.irqEnable, 11), (m.irqVector, 0)]
  | 0x1020 => mkWord [(m.seq.toNat, 0)]
  | _ => if 0x1800 ≤ off then m.dataWord (off - 0x1800) else 0

/-- The block of an offset 0x2000 to 0x2FFF. -/
def fifoBlockAt (off : Nat) : FifoBlock :=
  match (off - 0x2000) / 0x400 with
  | 0 => .transmit | 1 => .receive | 2 => .fault | _ => .trace

/-- The registers of a FIFO block as its side reads them, FF_DATA aside (R112 to R120). -/
def Fifo.word (f : Fifo) (cap : Nat) (producer : Bool) (off : Nat) : Word :=
  match off with
  | 0x08 => mkWord [(f.count (!producer), 0)]
  | 0x18 => mkWord [((if producer then f.release + BitVec.ofNat 32 f.words.length else f.release + BitVec.ofNat 32 f.readOff).toNat, 0)]
  | 0x20 => if producer then 0 else mkWord [((f.release + BitVec.ofNat 32 f.markOff).toNat, 0)]
  | 0x28 => if producer then 0 else mkWord [(f.release.toNat, 0)]
  | 0x30 => f.status cap (!producer)
  | _ => 0

/-- The framed FIFO registers of a PF at an offset 0x2000 to 0x2FFF (R111). -/
def Chip.fifoWord (c : Chip) (h off : Nat) : Word :=
  let b := fifoBlockAt off
  match c.fifoAt h b with
  | none => 0
  | some i => (c.fifo i).word (fifoCap i) (hostProduces b) ((off - 0x2000) % 0x400)

/-- Eight bytes of a pending bit array. -/
def pbaWord (pba : List Nat) (first : Nat) : Word :=
  BitVec.ofNat 64 (maskOf ((pba.filter fun v => first ≤ v && v < first + 64).map (· - first)))

/-- The event and interrupt registers of a function at an offset 0x3000 to 0x3FFF. -/
def Func.eventWord (f : Func) (fn off : Nat) : Word :=
  match off with
  | 0x3000 => mkWord [(natOfBool f.eqValid, 31), (f.eqn, 0)]
  | 0x3008 => if isPf fn then mkWord [(natOfBool f.urgentEnable, 11), (f.urgentVector, 0)] else 0
  | 0x3010 => if isPf fn then mkWord [(natOfBool f.faultEnable, 11), (f.faultVector, 0)] else 0
  | 0x3018 => mkWord [(natOfBool f.evLost, 2), (natOfBool f.evFault, 1), (natOfBool f.evUrgent, 0)]
  | _ => if isPf fn ∧ 0x3F00 ≤ off then pbaWord f.pba ((off - 0x3F00) * 8) else 0

/-- The MSI-X table and the PBA of a VF at an offset 0x8000 to 0xFFFF (R109). -/
def Func.msixWord (f : Func) (fn off : Nat) : Word :=
  let v := (off - 0x8000) / 16
  if v < vectorCount fn then
    if off % 16 = 0 then BitVec.ofNat 64 (Tab.get f.msixAddr v 0)
    else mkWord [(natOfBool (!f.unmasked.contains v), 32), (Tab.get f.msixData v 0, 0)]
  else if !isPf fn && off == 0xF000 then pbaWord f.pba 0
  else 0

/-- The identity and status registers at an offset 0x0000 to 0x0FFF. -/
def Chip.identityWord (c : Chip) (fn off : Nat) : Word :=
  match off with
  | 0x0000 => c.idDevice fn
  | 0x0008 => BitVec.ofNat 64 (c.readNat 0x00 0x003 0)
  | 0x0010 => c.idEndpoint fn
  | 0x0018 => c.fnStatus fn
  | 0x0020 => c.tb.time
  | 0x0028 => c.fnResources fn
  | _ => 0

/-- What the 64-bit register at an aligned BAR0 offset reads, FF_DATA aside: a read of that pops a word (R106). -/
def Chip.barWord (c : Chip) (fn off : Nat) : Word :=
  match off / 0x1000 with
  | 0 => c.identityWord fn off
  | 1 => if isPf fn then (c.mailbox (fn / 256)).word off else 0
  | 2 => if isPf fn then c.fifoWord (fn / 256) off else 0
  | 3 => (c.fn fn).eventWord fn off
  | k => if k < 8 then if c.param 0x20 0x012 fn = 1 then c.counterSlot fn off else 0
    else if k < 16 then (c.fn fn).msixWord fn off else 0

/-- The FIFO block whose FF_DATA a BAR0 offset addresses. -/
def ffDataAt (off : Nat) : Option FifoBlock :=
  if off / 0x1000 = 2 ∧ (off - 0x2000) % 0x400 / 8 = 0 then some (fifoBlockAt off) else none

/-- A read of BAR0 by a host (R106, R110, R117): the register or its addressed half; FF_DATA pops; a misaligned access addresses
no register and reads zero. -/
def Chip.bar0Read (c : Chip) (fn off : Nat) (wide : Bool) : Chip :=
  if off % (if wide then 8 else 4) ≠ 0 then c.reply fn 0
  else if 0x4000 ≤ off ∧ off < 0x8000 then c.counterPage fn off wide
  else match (if isPf fn then ffDataAt off else none) with
    | some b => if !wide && off / 4 % 2 == 1 then c.ffReadUpper (fn / 256) b else c.ffRead (fn / 256) b wide
    | none => c.reply fn (halfOf off wide (c.barWord fn (off / 8 * 8)))

/-- A host reads a register of a function; every read of BAR2 returns zero and has no effect (R104). -/
def Chip.barRead (c : Chip) (fn : Nat) (access : BarRead) : Chip :=
  if !c.fnExists fn then c
  else match access with
    | .bar0 off wide => c.bar0Read fn off wide
    | .bar2 _ => c.reply fn 0

end Sys2Proof.Machine
end

