-- ==== Sys2Proof/Machine/RegOps.lean ====
section
/-! DEFINITION. Host writes to BAR0 registers and to configuration-space bits (R56, R106 to R111). -/

namespace Sys2Proof.Machine

/-- The 64-bit value a write makes of a register that holds `old`: a 32-bit write replaces the addressed half (R106). -/
def mergedWrite (old : Word) (off : Nat) (wide : Bool) (v : Word) : Word :=
  if wide then v
  else if off / 4 % 2 = 0 then mkWord [(old.field 63 32, 32), (v.field 31 0, 0)]
  else mkWord [(v.field 31 0, 32), (old.field 31 0, 0)]

/-- The bits that a write sets in a W1C register: a 32-bit write touches the addressed half. -/
def clearedBy (off : Nat) (wide : Bool) (v : Word) : Nat := (mergedWrite 0 off wide v).toNat

/-- A write that reaches the upper half alone. -/
def upperOnly (off : Nat) (wide : Bool) : Bool := !wide && off / 4 % 2 == 1

/-- MBX_CMD written (R56, R106): with GO the request starts, else the fields are stored; a write of the upper half is ignored. -/
def Chip.mbxCmdWrite (c : Chip) (h off : Nat) (wide : Bool) (v : Word) : Chip :=
  if upperOnly off wide then c
  else
    let n : BitVec 32 := BitVec.ofNat 32 (v.field 31 0)
    if !wide then c.updMailbox h fun m => { m with cmdParam := n }
    else if v.getLsbD 63 then c.mbxRequest h (v.field 55 48) (v.getLsbD 47) (v.field 39 32) n
    else c.updMailbox h fun m => { m with cmdOp := v.field 55 48, cmdRelay := v.getLsbD 47, cmdVf := v.field 39 32, cmdParam := n }

/-- A mailbox register written at a BAR0 offset 0x1000 to 0x1FFF (R56). -/
def Chip.mbxWrite (c : Chip) (h off : Nat) (wide : Bool) (v : Word) : Chip :=
  let reg := off / 8 * 8
  let w := mergedWrite ((c.mailbox h).word reg) off wide v
  match reg with
  | 0x1000 => c.mbxCmdWrite h off wide v
  | 0x1008 => c.updMailbox h fun m => { m with final := w.getLsbD 63, xferLen := w.field 47 32, xferOff := w.field 31 0 }
  | 0x1010 => c.updMailbox h fun m => { m with collide := m.collide && !bitOf (clearedBy off wide v) 41 }
  | 0x1018 => c.updMailbox h fun m => { m with irqEnable := w.getLsbD 11, irqVector := w.field 10 0 }
  | _ => if 0x1800 ≤ reg then c.updMailbox h fun m => { m with data := mbxStore m.data (reg - 0x1800) w.le } else c

/-- The register at an offset of a FIFO block is written (R106, R111 to R120). -/
def Chip.fifoRegWrite (c : Chip) (h : Nat) (b : FifoBlock) (reg off : Nat) (wide : Bool) (v : Word) : Chip :=
  let lower : BitVec 32 := BitVec.ofNat 32 (v.field 31 0)
  match reg with
  | 0x00 =>
    if wide then c.ffWrite h b true v
    else if upperOnly off wide then c.ffWrite h b false v
    else c.ffWriteLower h b lower
  | 0x10 => if upperOnly off wide then c else c.ffCtrlWrite h b (v.field 31 0)
  | 0x28 => if upperOnly off wide then c else c.ffRelease h b lower
  | 0x30 => c.ffStatusWrite h b (clearedBy off wide v)
  | _ => c

/-- A FIFO register written at a BAR0 offset 0x2000 to 0x2FFF. -/
def Chip.fifoWrite (c : Chip) (h off : Nat) (wide : Bool) (v : Word) : Chip :=
  c.fifoRegWrite h (fifoBlockAt off) ((off - 0x2000) % 0x400 / 8 * 8) off wide v

/-- EV_ASYNC_EQ, EV_URGENT, EV_FAULT or EV_SUMMARY written (R106 to R108). -/
def Chip.eventWrite (c : Chip) (fn off : Nat) (wide : Bool) (v : Word) : Chip :=
  let reg := off / 8 * 8
  let w := mergedWrite ((c.fn fn).eventWord fn reg) off wide v
  let x := clearedBy off wide v
  match reg with
  | 0x3000 => c.updFn fn fun f => { f with eqValid := w.getLsbD 31, eqn := w.field 23 0 }
  | 0x3008 => if isPf fn then c.updFn fn fun f => { f with urgentEnable := w.getLsbD 11, urgentVector := w.field 10 0 } else c
  | 0x3010 => if isPf fn then c.updFn fn fun f => { f with faultEnable := w.getLsbD 11, faultVector := w.field 10 0 } else c
  | 0x3018 => c.updFn fn fun f =>
      { f with evLost := f.evLost && !bitOf x 2, evFault := f.evFault && !bitOf x 1, evUrgent := f.evUrgent && !bitOf x 0 }
  | _ => c

/-- An MSI-X table entry written (R109): address, data and the Mask bit, which may send a pending message. -/
def Chip.msixWrite (c : Chip) (fn off : Nat) (wide : Bool) (v : Word) : Chip :=
  let t := (off - 0x8000) / 16
  if vectorCount fn ≤ t then c
  else
    let w := mergedWrite ((c.fn fn).msixWord fn (off / 8 * 8)) off wide v
    if off / 8 % 2 = 0 then c.updFn fn fun f => { f with msixAddr := Tab.set f.msixAddr 0 t w.toNat }
    else
      let c := c.updFn fn fun f => { f with msixData := Tab.set f.msixData 0 t (w.field 31 0) }
      if w.getLsbD 32 then c.mask fn t else c.unmask fn t

/-- A BAR0 register written: every offset not defined, and every region that reads zero for the function, ignores it (R106). -/
def Chip.barWrite (c : Chip) (fn off : Nat) (wide : Bool) (v : Word) : Chip :=
  if off % (if wide then 8 else 4) ≠ 0 then c
  else match off / 0x1000 with
    | 1 => if isPf fn then c.mbxWrite (fn / 256) off wide v else c
    | 2 => if isPf fn then c.fifoWrite (fn / 256) off wide v else c
    | 3 => c.eventWrite fn off wide v
    | k => if 8 ≤ k ∧ k < 16 then c.msixWrite fn off wide v else c

/-- A code of Device Control that the function supports is stored; another is not (R100). -/
def supported (last old x : Nat) : Nat := if x ≤ last then x else old

/-- A configuration-space field written; a message that nothing holds back any more is sent (R109). -/
def Chip.configWrite (c : Chip) (fn : Nat) (b : CfgBit) (w : Word) : Chip :=
  let v := w.getLsbD 0
  match b with
  | .busMaster => (c.updFn fn fun f => { f with busMaster := v }).sendPending fn
  | .msixEnable => (c.updFn fn fun f => { f with msixEnable := v }).sendPending fn
  | .functionMask => (c.updFn fn fun f => { f with functionMask := v }).sendPending fn
  | .atomicRequester => c.updFn fn fun f => { f with atomicRequester := v }
  | .atsEnable => c.updFn fn fun f => { f with atsEnable := v }
  | .relaxedOrdering => c.updFn fn fun f => { f with relaxedOrdering := v }
  | .maxPayload => c.updFn fn fun f => { f with maxPayload := supported 2 f.maxPayload (w.field 2 0) }
  | .maxReadRequest => c.updFn fn fun f => { f with maxReadRequest := supported 5 f.maxReadRequest (w.field 2 0) }

/-- A register write before the Jig service is up: a configuration request receives Request Retry Status (R481). -/
def Chip.earlyWrite (c : Chip) (fn : Nat) (reg : HostReg) : Chip :=
  match reg with
  | .config _ =>
    if (c.boot.phase == .booting || c.boot.phase == .loaded) && c.hasHost (fn / 256) && !(c.port (fn / 256)).perst then
      c.emit (.configRetry fn)
    else c
  | .bar0 _ _ => c

/-- REGISTER_WRITE to a function that exists. -/
def Chip.registerWrite (c : Chip) (fn : Nat) (reg : HostReg) (v : Word) : Chip :=
  if !c.fnExists fn then c
  else match reg with
    | .bar0 off wide => c.barWrite fn off wide v
    | .config b => c.configWrite fn b v

end Sys2Proof.Machine
end

