-- ==== Sys2Proof/Machine/FamilyOps.lean ====
section
/-! DEFINITION. Small operations that the meanings share: a command row that is a write of one parameter, arriving requests
by their kind, and held entries read back. -/

namespace Sys2Proof.Machine

/-- A row that writes a number of `size` bytes to one parameter element; a number that does not fit is no value of it. -/
def Chip.numWrite (c : Chip) (w : Writer) (area obj e size x : Nat) (idx : Option CtlIndices := none) : Chip :=
  if e < 4096 ∧ x < 256 ^ size then c.rowWrite w (pnum area obj e) (bytesBE size x) idx else c

/-- A counter command (R238): P23.010[fn] with a command code, a counter and ARG. -/
def Chip.ctrWrite (c : Chip) (w : Writer) (fn cmd ctr arg : Nat) : Chip :=
  if ctr < 65536 then c.numWrite w 0x23 0x010 fn 8 (cmd * 2 ^ 60 + ctr * 2 ^ 44 + arg) else c

/-! ### Arriving requests by kind (R85) -/

/-- A message packet that is no OFFER. -/
def isMessage (p : Packet) : Bool := p.kind == 1 && p.opcode != 3
/-- An OFFER. -/
def isOffer (p : Packet) : Bool := p.kind == 1 && p.opcode == 3
/-- A WRITE packet. -/
def isWriteReq (p : Packet) : Bool := p.kind == 2
/-- A READ packet. -/
def isReadReq (p : Packet) : Bool := p.kind == 3
/-- An atomic request. -/
def isAtomicReq (p : Packet) : Bool := p.kind == 4
/-- A COUNT. -/
def isCountReq (p : Packet) : Bool := p.kind == 5 && p.opcode == 0x40
/-- Any other packet of the kind of COUNT and NOP that is no SYNC. -/
def isNopReq (p : Packet) : Bool := p.kind == 5 && p.opcode != 0x40 && !isSync p

/-- An arriving request of the kind that a row names; `miss` is a matching context's descriptor or a translation that its own cache
does not hold (R210, R291), while the model itself knows which channels and queues are resident. -/
def Chip.requestOf (c : Chip) (want : Packet → Bool) (h : Nat) (p : Packet) (miss : Option CtxKey) : Chip :=
  if want p then c.takeRequest h p miss else c

/-- OFFER_CLOSE: a zero-length WRITE to an offer key (R229 step 6). -/
def Chip.closeRequest (c : Chip) (h : Nat) (p : Packet) : Chip :=
  if p.kind == 2 && (c.closeOf h p).isSome then c.takeRequest h p none else c

/-! ### Held entries (R243, R244) -/

/-- A held entry is read back and starts like an entry of its SQ. -/
def Chip.heldReadBack (c : Chip) (fn slot : Nat) (data : SourceData) : Chip :=
  let h := fn / 256
  match c.readable fn slot with
  | none => c
  | some (r, q) =>
    let e := r.entry
    if 0x60 ≤ e.opcode then
      if c.canPost h e && (c.variant.collEngines == 0 || (c.operandOf h q.fn e data).2.isSome) then
        (c.unhold r).startCollective h r.qn r.pos q e data
      else c
    else if c.canStart h r.qn e && c.sourceGiven q.fn e data then (c.unhold r).startEntry h r.qn r.pos q e data
    else c

/-- The read of a held entry has failed: its SQ goes to error with cause 2 (R244). -/
def Chip.heldReadFails (c : Chip) (fn slot : Nat) : Chip :=
  match c.readable fn slot with
  | none => c
  | some (r, _) => c.queueError (fn / 256) r.qn 2 0

end Sys2Proof.Machine
end

