-- ==== Sys2Proof/Machine/Boot.lean ====
section
/-! DEFINITION. The meanings of the commands on power-up, reset and firmware update (R475 to R487), one definition each. -/

namespace Sys2Proof.Machine

/-- CLUSTER_RESTART (R485): P38.030 is written. -/
def execClusterRestart (w : Writer) (unit : Nat) (s : State) : Host.Outcome State Fault Refusal :=
  s.runAny fun c => c.numWrite w 0x38 0x030 0 2 unit

/-- CLUSTER_RESTART_COMPLETE (R22): the restart of a cluster ends. -/
def execClusterRestartComplete (unit : Nat) (s : State) : Host.Outcome State Fault Refusal :=
  s.runAny fun c => c.clusterBack unit

/-- POWER_ON (R484): power comes on with RESET_N low. -/
def execPowerOn (s : State) : Host.Outcome State Fault Refusal :=
  s.runAny fun c => c.powerOn

/-- RESET_N_ASSERT (R479): RESET_N goes low. -/
def execResetNAssert (s : State) : Host.Outcome State Fault Refusal :=
  s.runAny fun c => c.resetAssert

/-- RESET_N_RELEASE (R479): RESET_N goes high. -/
def execResetNRelease (grp : BitVec 10) (pos : BitVec 5) (s : State) : Host.Outcome State Fault Refusal :=
  s.runAny fun c => c.resetRelease grp pos

/-- STRAP_OVERRIDE_WRITE (R480): the strap override is written over the recovery path. -/
def execStrapOverrideWrite (value : BitVec 32) (s : State) : Host.Outcome State Fault Refusal :=
  s.runAny fun c => c.strapOverride value

/-- BOOT_LOAD_COMPLETE (R478): the boot load ends. -/
def execBootLoadComplete (s : State) : Host.Outcome State Fault Refusal :=
  s.runAny fun c => c.bootLoad

/-- JIG_SERVICE_UP (R479): the Jig service comes up. -/
def execJigServiceUp (s : State) : Host.Outcome State Fault Refusal :=
  s.runAny fun c => c.jigUp

/-- BEGIN (R487): P38.021 := BEGIN. -/
def execBeginUpdate (w : Writer) (s : State) : Host.Outcome State Fault Refusal :=
  s.runAny fun c => c.numWrite w 0x38 0x021 0 1 1

/-- BEGIN_COMPLETE (R487): the erasure of BEGIN ends. -/
def execBeginComplete (ok : Bool) (s : State) : Host.Outcome State Fault Refusal :=
  s.runAny fun c => c.beginDone ok

/-- UPDATE_BLOCK (R487): p38.020[k] is written. -/
def execUpdateBlock (w : Writer) (k : Nat) (bytes : List Byte) (s : State) : Host.Outcome State Fault Refusal :=
  s.runAny fun c => if k < 4096 then c.rowWrite w (pnum 0x38 0x020 k) bytes else c

/-- UPDATE_BLOCK_COMPLETE (R487): the write of an update block ends. -/
def execUpdateBlockComplete (ok : Bool) (s : State) : Host.Outcome State Fault Refusal :=
  s.runAny fun c => c.blockDone ok

/-- VERIFY (R487): P38.021 := VERIFY. -/
def execVerify (w : Writer) (s : State) : Host.Outcome State Fault Refusal :=
  s.runAny fun c => c.numWrite w 0x38 0x021 0 1 2

/-- VERIFY_COMPLETE (R487): the verification ends. -/
def execVerifyComplete (s : State) : Host.Outcome State Fault Refusal :=
  s.runAny fun c => c.verifyDone

/-- SWITCH (R487): P38.021 := SWITCH. -/
def execSwitch (w : Writer) (s : State) : Host.Outcome State Fault Refusal :=
  s.runAny fun c => c.numWrite w 0x38 0x021 0 1 3

/-- SWITCH_COMPLETE (R476): the pointer record of SWITCH is written. -/
def execSwitchComplete (ok : Bool) (s : State) : Host.Outcome State Fault Refusal :=
  s.runAny fun c => c.switchDone ok

/-- ACTIVATE (R487): P38.021 := ACTIVATE. -/
def execActivate (w : Writer) (s : State) : Host.Outcome State Fault Refusal :=
  s.runAny fun c => c.numWrite w 0x38 0x021 0 1 4

end Sys2Proof.Machine
end

