-- ==== Sys2Proof/Machine/Collective.lean ====
section
/-! DEFINITION. The meanings of the commands on collectives (R246 to R277), one definition each. -/

namespace Sys2Proof.Machine

/-- BARRIER (R269): an SQ entry with opcode 0x60. -/
def execBarrier (h : Nat) (qn : Nat) (e : Entry) (s : State) : Host.Outcome State Fault Refusal :=
  s.run fun c => c.takeCollective h qn 0x60 e (.bytes [])

/-- BROADCAST (R269): an SQ entry with opcode 0x61. -/
def execBroadcast (h : Nat) (qn : Nat) (e : Entry) (data : SourceData) (s : State) : Host.Outcome State Fault Refusal :=
  s.run fun c => c.takeCollective h qn 0x61 e data

/-- REDUCE (R266): an SQ entry with opcode 0x62. -/
def execReduce (h : Nat) (qn : Nat) (e : Entry) (data : SourceData) (s : State) : Host.Outcome State Fault Refusal :=
  s.run fun c => c.takeCollective h qn 0x62 e data

/-- ALLREDUCE (R266): an SQ entry with opcode 0x63. -/
def execAllreduce (h : Nat) (qn : Nat) (e : Entry) (data : SourceData) (s : State) : Host.Outcome State Fault Refusal :=
  s.run fun c => c.takeCollective h qn 0x63 e data

/-- REDUCE_SCATTER (R268): an SQ entry with opcode 0x64. -/
def execReduceScatter (h : Nat) (qn : Nat) (e : Entry) (data : SourceData) (s : State) : Host.Outcome State Fault Refusal :=
  s.run fun c => c.takeCollective h qn 0x64 e data

/-- COLLECTIVE_UP (R262): a COLLECTIVE UP packet. -/
def execCollectiveUp (port : Nat) (p : Packet) (poisoned : Bool) (s : State) : Host.Outcome State Fault Refusal :=
  s.run fun c => c.collectiveUp port p poisoned

/-- COLLECTIVE_DOWN (R268): a COLLECTIVE DOWN packet. -/
def execCollectiveDown (port : Nat) (p : Packet) (s : State) : Host.Outcome State Fault Refusal :=
  s.run fun c => c.collectiveDown port p

/-- COLLECTIVE_ABORT (R274): an ABORT packet on a tree. -/
def execCollectiveAbort (port : Nat) (p : Packet) (s : State) : Host.Outcome State Fault Refusal :=
  s.run fun c => c.collectiveAbort port p

/-- COLLECTIVE_DONE (R269): a DONE packet on a tree. -/
def execCollectiveDone (port : Nat) (p : Packet) (s : State) : Host.Outcome State Fault Refusal :=
  s.run fun c => c.collectiveDone port p

/-- SEGMENT_UP (R267): a complete segment goes up, or is the result at the root. -/
def execSegmentUp (slot : Nat) (cseq : BitVec 32) (seg : Nat) (poisoned : Bool) (s : State) : Host.Outcome State Fault Refusal :=
  s.run fun c => c.segmentUp slot cseq seg poisoned

/-- COLLECTIVE_TIMEOUT (R273): an operation reaches its time limit. -/
def execCollectiveTimeout (slot : Nat) (cseq : BitVec 32) (s : State) : Host.Outcome State Fault Refusal :=
  s.run fun c => c.collectiveTimeout slot cseq

end Sys2Proof.Machine
end

