-- ==== Sys2Proof/Machine/Dictionary.lean ====
section
/-! DEFINITION. The meanings of the commands on the parameter dictionary (R38 to R71), one definition each. -/

namespace Sys2Proof.Machine

/-- READ (R57): a mailbox request with OP READ. -/
def execRead (h : Nat) (relay : Bool) (vf : Nat) (param : BitVec 32) (s : State) : Host.Outcome State Fault Refusal :=
  s.run fun c => c.mbxRequest h 1 relay vf param

/-- WRITE (R57): a mailbox request with OP WRITE. -/
def execWrite (h : Nat) (relay : Bool) (vf : Nat) (param : BitVec 32) (s : State) : Host.Outcome State Fault Refusal :=
  s.run fun c => c.mbxRequest h 2 relay vf param

/-- DESCRIBE (R38): a mailbox request with OP DESCRIBE. -/
def execDescribe (h : Nat) (relay : Bool) (vf : Nat) (param : BitVec 32) (s : State) : Host.Outcome State Fault Refusal :=
  s.run fun c => c.mbxRequest h 3 relay vf param

/-- READ_STAGED (R510): a mailbox request with OP READ STAGED. -/
def execReadStaged (h : Nat) (relay : Bool) (vf : Nat) (param : BitVec 32) (s : State) : Host.Outcome State Fault Refusal :=
  s.run fun c => c.mbxRequest h 4 relay vf param

/-- MBX_UNKNOWN_OP (R56): a mailbox request with any other OP completes with status 0x04. -/
def execMbxUnknownOp (h : Nat) (op : Nat) (relay : Bool) (vf : Nat) (param : BitVec 32) (s : State) : Host.Outcome State Fault Refusal :=
  s.run fun c => if 1 ≤ op ∧ op ≤ 4 then c else c.mbxRequest h op relay vf param

/-- COLLIDE (R56): GO is written while a request runs. -/
def execCollide (h : Nat) (s : State) : Host.Outcome State Fault Refusal :=
  s.run fun c => c.mbxCollide h

/-- FDP_REQUEST (R61): a datagram on UDP port 4917. -/
def execFdpRequest (d : Datagram) (s : State) : Host.Outcome State Fault Refusal :=
  s.run fun c => c.fdpRequest d

/-- MCTP_REQUEST (R63): an MCTP message over I3C. -/
def execMctpRequest (packets : List MctpPacket) (s : State) : Host.Outcome State Fault Refusal :=
  s.runAny fun c => c.mctpRequest packets

/-- CHUNK_EXPIRY (R64): held chunks of a path reach their age limit. -/
def execChunkExpiry (path : Writer) (s : State) : Host.Outcome State Fault Refusal :=
  s.run fun c => c.chunkExpiry path

/-- SHIM_DICTIONARY_REQUEST (R66): an in-band dictionary request. -/
def execShimDictionaryRequest (p : Packet) (s : State) : Host.Outcome State Fault Refusal :=
  s.run fun c => c.shimRequest p

/-- COMMIT (R48): p01.001[setNo] is written. -/
def execCommit (w : Writer) (setNo : Nat) (t : BitVec 64) (s : State) : Host.Outcome State Fault Refusal :=
  s.runAny fun c => c.numWrite w 0x01 0x001 setNo 8 t.toNat

/-- SET_TAKES_EFFECT (R49): a scheduled set takes effect. -/
def execSetTakesEffect (setNo : Nat) (s : State) : Host.Outcome State Fault Refusal :=
  s.run fun c => c.setDue setNo

/-- DISCARD (R47): p01.002[setNo] is written. -/
def execDiscard (w : Writer) (setNo : Nat) (value : Nat) (s : State) : Host.Outcome State Fault Refusal :=
  s.runAny fun c => c.numWrite w 0x01 0x002 setNo 1 value

/-- HOLDER_TIMEOUT (R47): the holder of a staging set has been silent for P01.020. -/
def execHolderTimeout (setNo : Nat) (s : State) : Host.Outcome State Fault Refusal :=
  s.run fun c => c.holderTimeout setNo

/-- SAVE (R51): P01.010 is written. -/
def execSave (w : Writer) (value : Nat) (s : State) : Host.Outcome State Fault Refusal :=
  s.runAny fun c => c.numWrite w 0x01 0x010 0 1 value

/-- SAVE_COMPLETE (R51): the save in progress ends. -/
def execSaveComplete (ok : Bool) (s : State) : Host.Outcome State Fault Refusal :=
  s.runAny fun c => c.saveDone ok

/-- RESTORE_DEFAULTS (R53): P01.015 is written. -/
def execRestoreDefaults (w : Writer) (value : Nat) (s : State) : Host.Outcome State Fault Refusal :=
  s.runAny fun c => c.numWrite w 0x01 0x015 0 1 value

/-- RESTORE_SAVED (R53): P01.016 is written. -/
def execRestoreSaved (w : Writer) (value : Nat) (s : State) : Host.Outcome State Fault Refusal :=
  s.runAny fun c => c.numWrite w 0x01 0x016 0 1 value

/-- CALIBRATION_STORE (R70): P01.070 is written. -/
def execCalibrationStore (w : Writer) (value : Nat) (s : State) : Host.Outcome State Fault Refusal :=
  s.runAny fun c => c.numWrite w 0x01 0x070 0 1 value

/-- CALIBRATION_STORE_COMPLETE (R70): the calibration store in progress ends. -/
def execCalibrationStoreComplete (s : State) : Host.Outcome State Fault Refusal :=
  s.runAny fun c => c.calStored

/-- CALIBRATION_IMAGE_WRITE (R71): P02.001 is written. -/
def execCalibrationImageWrite (w : Writer) (image : List Byte) (s : State) : Host.Outcome State Fault Refusal :=
  s.runAny fun c => c.rowWrite w (pnum 0x02 0x001 0) image

/-- DYNAMIC_ADDRESS_ASSIGNMENT (R63): an I3C controller assigns an address. -/
def execDynamicAddressAssignment (addr : Nat) (s : State) : Host.Outcome State Fault Refusal :=
  s.runAny fun c => c.assignAddress addr

end Sys2Proof.Machine
end

