-- ==== Sys2Proof/Machine/Fault.lean ====
section
/-! DEFINITION. The meanings of the commands on fault collection and reaction (R452 to R474), one definition each. -/

namespace Sys2Proof.Machine

/-- FAULT_OCCURRENCE (R455): a unit reports a fault source. -/
def execFaultOccurrence (unit : Nat) (cause : Nat) (skind : Nat) (subject : Nat) (s : State) : Host.Outcome State Fault Refusal :=
  s.runAny fun c => c.reportFault unit cause skind subject

/-- HANDSHAKE_STALL (R464): a handshake of a unit stalls. -/
def execHandshakeStall (unit : Nat) (s : State) : Host.Outcome State Fault Refusal :=
  s.runAny fun c => c.stall unit

/-- BLOCK_RESET_COMPLETE (R484): the block reset of a unit ends. -/
def execBlockResetComplete (unit : Nat) (s : State) : Host.Outcome State Fault Refusal :=
  s.runAny fun c => c.blockResetDone unit

/-- UNIT_RELEASE (R459): P30.F05 is written. -/
def execUnitRelease (w : Writer) (unit : Nat) (s : State) : Host.Outcome State Fault Refusal :=
  s.runAny fun c => c.numWrite w 0x30 0xF05 0 2 unit

/-- SOURCE_STATUS_CLEAR (R463): a source's status row is written. -/
def execSourceStatusClear (w : Writer) (unit : Nat) (cause : Nat) (value : BitVec 64) (s : State) : Host.Outcome State Fault Refusal :=
  s.runAny fun c => if unit < 0xE00 then c.numWrite w 0x30 (0x100 + unit) cause 8 value.toNat else c

/-- KERF_WINDOW_CLOSE (R468): records whose window has passed close. -/
def execKerfWindowClose (s : State) : Host.Outcome State Fault Refusal :=
  s.runAny fun c => c.closeRecords

/-- RECORD_TO_FIFO (R470): the next closed record leaves. -/
def execRecordToFifo (s : State) : Host.Outcome State Fault Refusal :=
  s.runAny fun c => c.recordOut

end Sys2Proof.Machine
end

