-- ==== Sys2Proof/Machine/Fifo.lean ====
section
/-! DEFINITION. The meanings of the commands on the framed FIFOs (R111 to R124), one definition each. -/

namespace Sys2Proof.Machine

/-- FF_DATA_READ (R117): FF_DATA is read whole, or its lower half. -/
def execFfDataRead (h : Nat) (block : FifoBlock) (wide : Bool) (s : State) : Host.Outcome State Fault Refusal :=
  s.run fun c => c.ffRead h block wide

/-- FF_DATA_UPPER_READ (R106): the upper half of FF_DATA is read. -/
def execFfDataUpperRead (h : Nat) (block : FifoBlock) (s : State) : Host.Outcome State Fault Refusal :=
  s.run fun c => c.ffReadUpper h block

/-- FF_DATA_WRITE (R115): FF_DATA is written whole, or its upper half. -/
def execFfDataWrite (h : Nat) (block : FifoBlock) (wide : Bool) (value : BitVec 64) (s : State) : Host.Outcome State Fault Refusal :=
  s.run fun c => c.ffWrite h block wide value

/-- FF_DATA_LOWER_WRITE (R106): the lower half of FF_DATA is written. -/
def execFfDataLowerWrite (h : Nat) (block : FifoBlock) (value : BitVec 32) (s : State) : Host.Outcome State Fault Refusal :=
  s.run fun c => c.ffWriteLower h block value

/-- FF_COMMIT (R114): FF_CTRL COMMIT. -/
def execFfCommit (h : Nat) (block : FifoBlock) (s : State) : Host.Outcome State Fault Refusal :=
  s.run fun c => c.ffCommit h block

/-- FF_ABORT (R114): FF_CTRL ABORT. -/
def execFfAbort (h : Nat) (block : FifoBlock) (s : State) : Host.Outcome State Fault Refusal :=
  s.run fun c => c.ffAbort h block

/-- FF_MARK (R118): FF_CTRL MARK. -/
def execFfMark (h : Nat) (block : FifoBlock) (s : State) : Host.Outcome State Fault Refusal :=
  s.run fun c => c.ffMark h block

/-- FF_REWIND (R118): FF_CTRL REWIND. -/
def execFfRewind (h : Nat) (block : FifoBlock) (s : State) : Host.Outcome State Fault Refusal :=
  s.run fun c => c.ffRewind h block

/-- FF_RELEASE (R119): FF_RELEASE is written. -/
def execFfRelease (h : Nat) (block : FifoBlock) (p : BitVec 32) (s : State) : Host.Outcome State Fault Refusal :=
  s.run fun c => c.ffRelease h block p

/-- RADISH_MARKER (R116): the Radish marker that is due is written. -/
def execRadishMarker (fifo : Nat) (s : State) : Host.Outcome State Fault Refusal :=
  s.run fun c => c.radishMarker fifo

/-- MGMT_TRANSMIT (R122): a host port consumes the next frame of its transmit FIFO. -/
def execMgmtTransmit (h : Nat) (s : State) : Host.Outcome State Fault Refusal :=
  s.run fun c => if c.hasHost h then c.mgmtTransmit h else c

/-- SHIM_PACKET_DELIVERY (R123): a shim packet reaches a host-side port. -/
def execShimPacketDelivery (h : Nat) (p : Packet) (s : State) : Host.Outcome State Fault Refusal :=
  s.run fun c => c.shimDelivery h p

end Sys2Proof.Machine
end

