-- ==== Sys2Proof/Machine/HostPort.lean ====
section
/-! DEFINITION. The meanings of the commands on the host ports (R100 to R110, R199, R513), one definition each. -/

namespace Sys2Proof.Machine

/-- REGISTER_WRITE (R106): a host writes a register. -/
def execRegisterWrite (fn : Nat) (reg : HostReg) (value : BitVec 64) (s : State) : Host.Outcome State Fault Refusal :=
  s.runAny fun c => if c.up then c.registerWrite fn reg value else c.earlyWrite fn reg

/-- HOST_LINK_TRAINED (R100): the PCIe or CXL link of a host port has trained. -/
def execHostLinkTrained (h : Nat) (width : Nat) (rate : Nat) (flit : Bool) (s : State) : Host.Outcome State Fault Refusal :=
  s.run fun c => c.hostTrained h width rate flit

/-- PERST_N_ASSERT (R484): PERST_N of a host port asserts. -/
def execPerstNAssert (h : Nat) (s : State) : Host.Outcome State Fault Refusal :=
  s.runAny fun c => c.perstAssert h

/-- PERST_N_DEASSERT (R481): PERST_N of a host port deasserts. -/
def execPerstNDeassert (h : Nat) (s : State) : Host.Outcome State Fault Refusal :=
  s.runAny fun c => c.perstDeassert h

/-- FUNCTION_LEVEL_RESET (R102): an FLR reaches a function. -/
def execFunctionLevelReset (fn : Nat) (s : State) : Host.Outcome State Fault Refusal :=
  s.run fun c => c.levelReset fn

/-- FUNCTION_DISABLE (R199): p20.010[fn] := 0. -/
def execFunctionDisable (w : Writer) (fn : Nat) (s : State) : Host.Outcome State Fault Refusal :=
  s.runAny fun c => c.numWrite w 0x20 0x010 fn 1 0

/-- FUNCTION_QUIESCED (R199): a disable reaches quiescence. -/
def execFunctionQuiesced (fn : Nat) (s : State) : Host.Outcome State Fault Refusal :=
  s.run fun c => c.quiesceFn fn

/-- FUNCTION_ENABLE (R102): p20.010[fn] := 1. -/
def execFunctionEnable (w : Writer) (fn : Nat) (s : State) : Host.Outcome State Fault Refusal :=
  s.runAny fun c => c.numWrite w 0x20 0x010 fn 1 1

/-- FUNCTION_READY (R103): a function that is not ready becomes ready. -/
def execFunctionReady (fn : Nat) (s : State) : Host.Outcome State Fault Refusal :=
  s.run fun c => c.readyFn fn

/-- VF_ENABLE_CLEAR (R513): VF Enable is cleared. -/
def execVfEnableClear (h : Nat) (s : State) : Host.Outcome State Fault Refusal :=
  s.run fun c => c.vfClear h

/-- VF_ENABLE_SET (R513): VF Enable is set. -/
def execVfEnableSet (h : Nat) (numVfs : Nat) (s : State) : Host.Outcome State Fault Refusal :=
  s.run fun c => c.vfSet h numVfs

/-- VECTOR_UNMASK (R109): the Mask bit of a vector is cleared. -/
def execVectorUnmask (fn : Nat) (vector : Nat) (s : State) : Host.Outcome State Fault Refusal :=
  s.run fun c => c.unmask fn vector

/-- COUNTER_PAGE_READ (R104, R106, R110): a host reads the counter page or, the table having no other row of a register
read, any other register of the function (DESIGN CHOICE). -/
def execCounterPageRead (fn : Nat) (access : BarRead) (s : State) : Host.Outcome State Fault Refusal :=
  s.run fun c => c.barRead fn access

end Sys2Proof.Machine
end

