-- ==== Sys2Proof/Machine/Lanes.lean ====
section
/-! DEFINITION. The meanings of the commands on serial lanes (R408 to R431), one definition each. -/

namespace Sys2Proof.Machine

/-- CODEWORD_DECODE (R416): a codeword is decoded. -/
def execCodewordDecode (lane : Nat) (errors : Nat) (blocks : List LaneBlock) (fill : Int) (s : State) : Host.Outcome State Fault Refusal :=
  s.run fun c => c.laneCodeword lane errors blocks fill

/-- BLOCK_LOCK (R418): block lock is examined. -/
def execBlockLock (lane : Nat) (headers : List Bool) (s : State) : Host.Outcome State Fault Refusal :=
  s.run fun c => c.blockLock lane headers

/-- MARKER_LOCK (R419): marker lock is reached. -/
def execMarkerLock (lane : Nat) (m : MarkerInfo) (s : State) : Host.Outcome State Fault Refusal :=
  s.run fun c => c.markerLock lane m

/-- LOCK_LOSS (R420): a lane loses a lock. -/
def execLockLoss (lane : Nat) (kind : LockKind) (s : State) : Host.Outcome State Fault Refusal :=
  s.run fun c => c.lockLoss lane kind

/-- BIT_SLIP (R421): p18.026[lane] is written. -/
def execBitSlip (w : Writer) (lane : Nat) (n : Nat) (s : State) : Host.Outcome State Fault Refusal :=
  s.runAny fun c => c.numWrite w 0x18 0x026 lane 2 n

/-- CHECKER_SYNC (R429): the pattern checker synchronises. -/
def execCheckerSync (lane : Nat) (bits : Nat) (s : State) : Host.Outcome State Fault Refusal :=
  s.run fun c => c.checkerSync lane bits

/-- CHECKER_SYNC_LOSS (R429): the pattern checker loses synchronisation. -/
def execCheckerSyncLoss (lane : Nat) (bits : Nat) (errors : Nat) (s : State) : Host.Outcome State Fault Refusal :=
  s.run fun c => c.checkerLoss lane bits errors

end Sys2Proof.Machine
end

