-- ==== Sys2Proof/Machine/Link.lean ====
section
/-! DEFINITION. The meanings of the commands on the link layer (R365 to R389), one definition each. -/

namespace Sys2Proof.Machine

/-- LINK_PACKET_RECEIVE (R365, R373): data blocks arrive on a fabric link; each packet that they complete is examined. -/
def execLinkPacketReceive (port : Nat) (blocks : List PortBlock) (s : State) : Host.Outcome State Fault Refusal :=
  s.run fun c => c.linkReceive port blocks

/-- LCB_SEND (R372): a port sends an LCB. -/
def execLcbSend (port : Nat) (s : State) : Host.Outcome State Fault Refusal :=
  s.run fun c => c.lcbInterval port

/-- LCB_RECEIVE (R369): an LCB arrives. -/
def execLcbReceive (port : Nat) (l : LcbHalves) (s : State) : Host.Outcome State Fault Refusal :=
  s.run fun c => c.lcbReceive port l

/-- REPLAY_TIMEOUT (R377): the replay timeout of a port passes. -/
def execReplayTimeout (port : Nat) (s : State) : Host.Outcome State Fault Refusal :=
  s.run fun c => c.replayTimeout port

/-- DEGRADATION_WINDOW (R386): a degradation window of a port ends. -/
def execDegradationWindow (port : Nat) (s : State) : Host.Outcome State Fault Refusal :=
  s.run fun c => c.degradationWindow port

/-- RESTORE_INTERVAL (R387): the restore interval of a port ends. -/
def execRestoreInterval (port : Nat) (s : State) : Host.Outcome State Fault Refusal :=
  s.run fun c => c.restoreInterval port

end Sys2Proof.Machine
end

