-- ==== Sys2Proof/Machine/Match.lean ====
section
/-! DEFINITION. The meanings of the commands on matching contexts and copies (R202 to R235), one definition each. -/

namespace Sys2Proof.Machine

/-- CONTEXT_BIND (R204): p22.010[fn] is written with BIND 1. -/
def execContextBind (w : Writer) (fn : Nat) (value : BitVec 64) (s : State) : Host.Outcome State Fault Refusal :=
  s.runAny fun c => c.numWrite w 0x22 0x010 fn 8 (value.toNat % 2 ^ 63 + 2 ^ 63)

/-- CONTEXT_UNBIND (R205): p22.010[fn] is written with BIND 0. -/
def execContextUnbind (w : Writer) (fn : Nat) (value : BitVec 64) (s : State) : Host.Outcome State Fault Refusal :=
  s.runAny fun c => c.numWrite w 0x22 0x010 fn 8 (value.toNat % 2 ^ 63)

/-- EAGER_COPY_COMPLETE (R227): the copy of a stored message to its receive buffer ends. -/
def execEagerCopyComplete (id : Nat) (poisoned : Bool) (s : State) : Host.Outcome State Fault Refusal :=
  s.run fun c => c.copyComplete id poisoned

/-- OFFER_RECORD_FREED (R232): an offer record at the target is freed. -/
def execOfferRecordFreed (id : Nat) (s : State) : Host.Outcome State Fault Refusal :=
  s.run fun c => c.offerRecordFreed id

/-- MATCH_ENTRY_READ_DONE (R235, R281): the reads that TAGGED RECVs of a context wait for are done, or one of them was poisoned. -/
def execMatchEntryReadDone (ctx : Nat) (poisoned : Bool) (s : State) : Host.Outcome State Fault Refusal :=
  s.run fun c => if poisoned then c.matchLost ctx else c.matchReadDone ctx

end Sys2Proof.Machine
end

