-- ==== Sys2Proof/Machine/Memory.lean ====
section
/-! DEFINITION. The meanings of the commands on memory registration, HBM and CXL.mem (R278 to R293, R306 to R308), one definition each. -/

namespace Sys2Proof.Machine

/-- REGISTER (R287): p28.021[fn] is written. -/
def execRegister (w : Writer) (fn : Nat) (addr : BitVec 64) (s : State) : Host.Outcome State Fault Refusal :=
  s.runAny fun c => c.numWrite w 0x28 0x021 fn 8 addr.toNat

/-- REGISTER_COMPLETE (R287): a REGISTER command ends. -/
def execRegisterComplete (fn : Nat) (block : Option RegBlock) (pages : Option (List Nat)) (s : State) : Host.Outcome State Fault Refusal :=
  s.run fun c => c.registerComplete fn block pages

/-- DEREGISTER (R288): a DEREGISTER command is read. -/
def execDeregister (fn : Nat) (block : Option RegBlock) (s : State) : Host.Outcome State Fault Refusal :=
  s.run fun c => c.deregister fn block

/-- DEREGISTER_COMPLETE (R288): a DEREGISTER command ends. -/
def execDeregisterComplete (fn : Nat) (s : State) : Host.Outcome State Fault Refusal :=
  s.run fun c => c.deregisterComplete fn

/-- ATS_INVALIDATE_REQUEST (R292): an ATS Invalidate Request. -/
def execAtsInvalidateRequest (fn : Nat) (addr : Nat) (length : Nat) (s : State) : Host.Outcome State Fault Refusal :=
  s.run fun c => c.atsInvalidate fn addr length

/-- ATS_INVALIDATE_COMPLETION (R292): an ATS Invalidate Completion leaves. -/
def execAtsInvalidateCompletion (fn : Nat) (s : State) : Host.Outcome State Fault Refusal :=
  s.run fun c => c.atsComplete fn

/-- RETIRE (R282): P28.011 is written. -/
def execRetire (w : Writer) (group : Nat) (s : State) : Host.Outcome State Fault Refusal :=
  s.runAny fun c => c.numWrite w 0x28 0x011 0 1 group

/-- CHANNEL_GROUP_FAILURE (R282): a channel group fails. -/
def execChannelGroupFailure (group : Nat) (s : State) : Host.Outcome State Fault Refusal :=
  s.run fun c => c.groupFails group

/-- RETIREMENT_COMPLETE (R282): the retirement of a channel group ends. -/
def execRetirementComplete (group : Nat) (poisoned : List Nat) (s : State) : Host.Outcome State Fault Refusal :=
  s.run fun c => c.retirementComplete group poisoned

/-- CXL_MEM_READ (R308): a CXL.mem read. -/
def execCxlMemRead (h : Nat) (addr : Nat) (s : State) : Host.Outcome State Fault Refusal :=
  s.run fun c => c.cxlRead h addr

/-- CXL_MEM_WRITE (R307): a CXL.mem write. -/
def execCxlMemWrite (h : Nat) (addr : Nat) (bytes : List (Option Byte)) (s : State) : Host.Outcome State Fault Refusal :=
  s.run fun c => c.cxlWrite h addr bytes

/-- HBM_PATROL_SCRUB (R280): the patrol scrub reads a word. -/
def execHbmPatrolScrub (group : Nat) (addr : Nat) (outcome : ScrubOutcome) (s : State) : Host.Outcome State Fault Refusal :=
  s.run fun c => c.patrolScrub group addr outcome

end Sys2Proof.Machine
end

