-- ==== Sys2Proof/Machine/Queue.lean ====
section
/-! DEFINITION. The meanings of the commands on doorbells, index blocks and control entries (R125 to R138, R145, R146, R159), one definition each. -/

namespace Sys2Proof.Machine

/-- CONTROL_QP_ENABLE (R129): p21.004[fn] is written with ENABLE set. -/
def execControlQpEnable (w : Writer) (fn : Nat) (value : BitVec 32) (idx : CtlIndices) (s : State) : Host.Outcome State Fault Refusal :=
  s.runAny fun c => c.numWrite w 0x21 0x004 fn 4 (value.toNat % 2 ^ 31 + 2 ^ 31) (some idx)

/-- CONTROL_QP_DISABLE (R129): p21.004[fn] is written with ENABLE clear. -/
def execControlQpDisable (w : Writer) (fn : Nat) (value : BitVec 32) (s : State) : Host.Outcome State Fault Refusal :=
  s.runAny fun c => c.numWrite w 0x21 0x004 fn 4 (value.toNat % 2 ^ 31)

/-- RING (R137): a doorbell with OP 0. -/
def execRing (fn : Nat) (off : Nat) (whole : Bool) (word : BitVec 64) (s : State) : Host.Outcome State Fault Refusal :=
  s.run fun c => c.doorbell fn off whole word 0 fun c => c.ringQueue fn word (dbFlag word)

/-- INVALIDATE (R135, R148): a doorbell with OP 1. -/
def execInvalidate (fn : Nat) (off : Nat) (whole : Bool) (word : BitVec 64) (s : State) : Host.Outcome State Fault Refusal :=
  s.run fun c => c.doorbell fn off whole word 1 fun c => c.invalidateQueue fn word

/-- ARM (R135, R138): a doorbell with OP 2. -/
def execArm (fn : Nat) (off : Nat) (whole : Bool) (word : BitVec 64) (idx : IndexRead) (s : State) :
    Host.Outcome State Fault Refusal :=
  s.run fun c => c.doorbell fn off whole word 2 fun c => c.armQueue fn word idx

/-- INDEX_BLOCK_READ_DONE (R133): the read of a queue's index block returns. -/
def execIndexBlockReadDone (fn : Nat) (qn : Nat) (idx : IndexRead) (fetched : List Entry) (s : State) : Host.Outcome State Fault Refusal :=
  s.run fun c => c.indexRead fn qn idx fetched

/-- QUEUE_READ_TIMEOUT (R133): a device read for a queue has failed or not returned. -/
def execQueueReadTimeout (fn : Nat) (qn : Nat) (what : QueueRead) (s : State) : Host.Outcome State Fault Refusal :=
  s.run fun c => c.queueReadFails fn qn what

/-- CREATE (R145): a CREATE entry of a control SQ. -/
def execCreate (fn : Nat) (e : Entry) (qn : Nat) (idx : IndexRead) (s : State) : Host.Outcome State Fault Refusal :=
  s.run fun c => c.createQueue fn e qn idx

/-- DESTROY (R146): a DESTROY entry of a control SQ. -/
def execDestroy (fn : Nat) (e : Entry) (s : State) : Host.Outcome State Fault Refusal :=
  s.run fun c => c.destroyQueue fn e

/-- RESET (R146): a RESET entry of a control SQ. -/
def execReset (fn : Nat) (e : Entry) (idx : IndexRead) (s : State) : Host.Outcome State Fault Refusal :=
  s.run fun c => c.resetQueue fn e idx

/-- BACKLOG_DRAIN (R159): CI of a CQ with a backlog advances. -/
def execBacklogDrain (fn : Nat) (cqn : Nat) (ci : BitVec 32) (poisoned : Bool) (s : State) : Host.Outcome State Fault Refusal :=
  s.run fun c => c.backlogDrain fn cqn ci poisoned

end Sys2Proof.Machine
end

