-- ==== Sys2Proof/Machine/Requester.lean ====
section
/-! DEFINITION. The meanings of the commands on arriving responses and the deadlines of the send half (R165 to R194), one definition each. -/

namespace Sys2Proof.Machine

/-- ACK (R179): an ACK. -/
def execAck (h : Nat) (p : Packet) (s : State) : Host.Outcome State Fault Refusal :=
  s.run fun c => c.takeAck h p

/-- BUSY_NAK (R197): a BUSY NAK. -/
def execBusyNak (h : Nat) (p : Packet) (s : State) : Host.Outcome State Fault Refusal :=
  s.run fun c => c.takeBusy h p

/-- ERROR (R176): an ERROR. -/
def execError (h : Nat) (p : Packet) (s : State) : Host.Outcome State Fault Refusal :=
  s.run fun c => c.takeError h p

/-- READ_DATA (R187): READ DATA. -/
def execReadData (h : Nat) (p : Packet) (s : State) : Host.Outcome State Fault Refusal :=
  s.run fun c => c.takeReadData h p

/-- ATOMIC_RESULT (R187): an ATOMIC RESULT. -/
def execAtomicResult (h : Nat) (p : Packet) (s : State) : Host.Outcome State Fault Refusal :=
  s.run fun c => c.takeAtomicResult h p

/-- RETRANSMIT_TIMEOUT (R180): the retransmit deadline of a packet passes. -/
def execRetransmitTimeout (ch : Nat) (psn : BitVec 24) (s : State) : Host.Outcome State Fault Refusal :=
  s.run fun c => c.retransmitTimeout ch psn

/-- BUSY_RESEND (R197): 4 µs have passed since a BUSY NAK. -/
def execBusyResend (ch : Nat) (psn : BitVec 24) (s : State) : Host.Outcome State Fault Refusal :=
  s.run fun c => c.busyResend ch psn

/-- ACK_DELAY (R177): the ACK delay of a receive half passes. -/
def execAckDelay (ch : Nat) (s : State) : Host.Outcome State Fault Refusal :=
  s.run fun c => c.ackDelay ch

/-- ERROR_STATE_EXPIRY (R167): the Error state of a channel ends. -/
def execErrorStateExpiry (ch : Nat) (s : State) : Host.Outcome State Fault Refusal :=
  s.run fun c => c.errorExpiry ch

/-- ATOMIC_BLOCK_RETURN (R185): an idle atomic response block returns to the pool. -/
def execAtomicBlockReturn (ch : Nat) (s : State) : Host.Outcome State Fault Refusal :=
  s.run fun c => c.atomicBlockReturn ch

end Sys2Proof.Machine
end

