-- ==== Sys2Proof/Machine/Responder.lean ====
section
/-! DEFINITION. The meanings of the commands on arriving requests (R163 to R180, R196, R198, R228, R292), one definition each. -/

namespace Sys2Proof.Machine

/-- MESSAGE_REQUEST (R173): an arriving SEND or TAGGED SEND packet. -/
def execMessageRequest (h : Nat) (p : Packet) (miss : Option CtxKey) (s : State) : Host.Outcome State Fault Refusal :=
  s.run fun c => c.requestOf isMessage h p miss

/-- WRITE_REQUEST (R172): an arriving WRITE packet. -/
def execWriteRequest (h : Nat) (p : Packet) (miss : Option CtxKey) (s : State) : Host.Outcome State Fault Refusal :=
  s.run fun c => c.requestOf isWriteReq h p miss

/-- READ_REQUEST (R184): an arriving READ packet. -/
def execReadRequest (h : Nat) (p : Packet) (miss : Option CtxKey) (s : State) : Host.Outcome State Fault Refusal :=
  s.run fun c => c.requestOf isReadReq h p miss

/-- ATOMIC_REQUEST (R175): an arriving atomic packet. -/
def execAtomicRequest (h : Nat) (p : Packet) (miss : Option CtxKey) (s : State) : Host.Outcome State Fault Refusal :=
  s.run fun c => c.requestOf isAtomicReq h p miss

/-- COUNT_REQUEST (R240): an arriving COUNT packet. -/
def execCountRequest (h : Nat) (p : Packet) (miss : Option CtxKey) (s : State) : Host.Outcome State Fault Refusal :=
  s.run fun c => c.requestOf isCountReq h p miss

/-- NOP_REQUEST (R220): an arriving NOP packet. -/
def execNopRequest (h : Nat) (p : Packet) (miss : Option CtxKey) (s : State) : Host.Outcome State Fault Refusal :=
  s.run fun c => c.requestOf isNopReq h p miss

/-- SYNC (R165): an arriving SYNC. -/
def execSync (h : Nat) (p : Packet) (s : State) : Host.Outcome State Fault Refusal :=
  s.run fun c => c.requestOf isSync h p none

/-- OFFER (R229): an arriving OFFER packet. -/
def execOffer (h : Nat) (p : Packet) (miss : Option CtxKey) (s : State) : Host.Outcome State Fault Refusal :=
  s.run fun c => c.requestOf isOffer h p miss

/-- OFFER_CLOSE (R229): the close of an offer arrives. -/
def execOfferClose (h : Nat) (p : Packet) (s : State) : Host.Outcome State Fault Refusal :=
  s.run fun c => c.closeRequest h p

/-- CONTEXT_FETCH_DONE (R196): a context fetch has returned. -/
def execContextFetchDone (ctx : CtxKey) (poisoned : Bool) (s : State) : Host.Outcome State Fault Refusal :=
  s.run fun c => c.contextFetched ctx poisoned

/-- CONTEXT_FETCH_TIMEOUT (R198): a queue context fetch has not returned within 1 ms. -/
def execContextFetchTimeout (h : Nat) (qn : Nat) (s : State) : Host.Outcome State Fault Refusal :=
  s.run fun c => c.contextTimeout h qn

/-- HOST_MEMORY_READ_COMPLETION (R175): a host memory read or AtomicOp for a request has ended. -/
def execHostMemoryReadCompletion (id : Nat) (result : HostResult) (s : State) : Host.Outcome State Fault Refusal :=
  s.run fun c => c.hostReadEnded id result

end Sys2Proof.Machine
end

