-- ==== Sys2Proof/Machine/Routing.lean ====
section
/-! DEFINITION. The meanings of the commands on routing, broadcasts, hints, shaping and gates (R309 to R364), one definition each. -/

namespace Sys2Proof.Machine

/-- PACKET_ROUTE (R314): the next packet of an input is checked and routed. -/
def execPacketRoute (inp : Nat) (whole : Bool) (s : State) : Host.Outcome State Fault Refusal :=
  s.run fun c => c.packetRoute inp whole

/-- OUTPUT_START (R346): a free output starts its next packet. -/
def execOutputStart (out : Nat) (s : State) : Host.Outcome State Fault Refusal :=
  s.run fun c => c.outputStart out (c.rt.waiting.length + 1)

/-- FENCE_BROADCAST (R339): a fence broadcast arrives. -/
def execFenceBroadcast (inp : Nat) (p : Packet) (s : State) : Host.Outcome State Fault Refusal :=
  s.run fun c => c.broadcastArrives inp p 0x50

/-- THROTTLE_BROADCAST (R344): a throttle broadcast arrives. -/
def execThrottleBroadcast (inp : Nat) (p : Packet) (s : State) : Host.Outcome State Fault Refusal :=
  s.run fun c => c.broadcastArrives inp p 0x51

/-- BROADCAST_APPLY (R342): the oldest waiting broadcast takes effect. -/
def execBroadcastApply (s : State) : Host.Outcome State Fault Refusal :=
  s.run fun c => c.broadcastApply

/-- CLAMP_TABLE_WRITE (R340): p13.001[row] is written. -/
def execClampTableWrite (w : Writer) (row : Nat) (value : BitVec 64) (s : State) : Host.Outcome State Fault Refusal :=
  s.runAny fun c => c.numWrite w 0x13 0x001 row 8 value.toNat

/-- THROTTLE_EXPIRY (R345): the throttle of a destination ends. -/
def execThrottleExpiry (chip : Nat) (s : State) : Host.Outcome State Fault Refusal :=
  s.run fun c => c.throttleExpiry chip

/-- SPLINE_HINT_SEND (R324): a Spline hint is due on a port. -/
def execSplineHintSend (port : Nat) (s : State) : Host.Outcome State Fault Refusal :=
  s.run fun c => c.hintSend port

/-- SPLINE_HINT_RECEIVE (R325): a Spline hint arrives. -/
def execSplineHintReceive (port : Nat) (item : List Byte) (s : State) : Host.Outcome State Fault Refusal :=
  s.run fun c => c.hintReceive port item

/-- HINT_STALE (R325): a Spline hint has become stale. -/
def execHintStale (port : Nat) (s : State) : Host.Outcome State Fault Refusal :=
  s.run fun c => c.hintStale port

/-- TOKEN_TICK (R356): token buckets fill. -/
def execTokenTick (ticks : Nat) (s : State) : Host.Outcome State Fault Refusal :=
  s.run fun c => c.tokenTick ticks

/-- GATE_ENTRY_CHANGE (R360): a gate reaches its next entry. -/
def execGateEntryChange (port : Nat) (s : State) : Host.Outcome State Fault Refusal :=
  s.run fun c => c.gateEntryChange port

end Sys2Proof.Machine
end

