-- ==== Sys2Proof/Machine/Time.lean ====
section
/-! DEFINITION. The meanings of the commands on fabric time, pace, voltage, temperature and counters (R432 to R451), one definition each. -/

namespace Sys2Proof.Machine

/-- TIME_EXCHANGE_SEND (R434): a time exchange item is due. -/
def execTimeExchangeSend (port : Nat) (s : State) : Host.Outcome State Fault Refusal :=
  s.run fun c => c.timeSend port

/-- TIME_EXCHANGE_RECEIVE (R436): a time exchange item arrives. -/
def execTimeExchangeReceive (port : Nat) (item : TimeItem) (s : State) : Host.Outcome State Fault Refusal :=
  s.run fun c => c.timeReceive port item

/-- PARENT_TIMEOUT (R438): the parent has been silent. -/
def execParentTimeout (s : State) : Host.Outcome State Fault Refusal :=
  s.run fun c => c.parentTimeout

/-- HOLDOVER_EXPIRY (R438): the holdover limit is reached. -/
def execHoldoverExpiry (s : State) : Host.Outcome State Fault Refusal :=
  s.run fun c => c.holdoverExpiry

/-- SET_TIME (R437): P08.010 is written. -/
def execSetTime (w : Writer) (t : BitVec 64) (s : State) : Host.Outcome State Fault Refusal :=
  s.runAny fun c => c.numWrite w 0x08 0x010 0 8 t.toNat

/-- PPS_EDGE (R439): an edge of PPS_IN. -/
def execPpsEdge (s : State) : Host.Outcome State Fault Refusal :=
  s.run fun c => c.ppsEdge

/-- PACE_WINDOW (R443): a pace window ends. -/
def execPaceWindow (raw : List Int) (s : State) : Host.Outcome State Fault Refusal :=
  s.run fun c => c.paceWindow raw

/-- AVS_LOOP (R444): the voltage loop runs. -/
def execAvsLoop (s : State) : Host.Outcome State Fault Refusal :=
  s.run fun c => c.avsLoop

/-- AVS_RESPONSE (R500): the regulator answers. -/
def execAvsResponse (good : Bool) (s : State) : Host.Outcome State Fault Refusal :=
  s.run fun c => c.avsResponse good

/-- AVS_TIMEOUT (R500): the regulator does not answer. -/
def execAvsTimeout (s : State) : Host.Outcome State Fault Refusal :=
  s.run fun c => c.avsFailed

/-- THERMAL_WARNING (R446): a monitor is above the warning level. -/
def execThermalWarning (raw : List Int) (s : State) : Host.Outcome State Fault Refusal :=
  s.run fun c => c.thermalWarning raw

/-- THERMAL_TRIP (R509): a monitor is at the trip level. -/
def execThermalTrip (raw : List Int) (s : State) : Host.Outcome State Fault Refusal :=
  s.runAny fun c => c.thermalTrip raw

/-- SAMPLING_TICK (R448): time passes. -/
def execSamplingTick (ticks : Nat) (s : State) : Host.Outcome State Fault Refusal :=
  s.runAny fun c => c.samplingTick ticks

/-- STREAM_SAMPLE (R451): the streamed counters are sampled. -/
def execStreamSample (ci : BitVec 32) (s : State) : Host.Outcome State Fault Refusal :=
  s.run fun c => c.streamSample ci

/-- THERMAL_WARNING_CLEAR (R446): every monitor is below the clearing level. -/
def execThermalWarningClear (raw : List Int) (s : State) : Host.Outcome State Fault Refusal :=
  s.run fun c => c.thermalClear raw

end Sys2Proof.Machine
end

