-- ==== Sys2Proof/Machine/Training.lean ====
section
/-! DEFINITION. The meanings of the commands on link training and width changes (R390 to R407), one definition each. -/

namespace Sys2Proof.Machine

/-- RECEIVER_DETECT (R395): receiver detection ends. -/
def execReceiverDetect (port : Nat) (found : Nat) (s : State) : Host.Outcome State Fault Refusal :=
  s.run fun c => c.receiverDetect port found

/-- PATTERN_BLOCK (R394): a Pattern block arrives. -/
def execPatternBlock (port : Nat) (lpos : Nat) (b : TrainBlock) (s : State) : Host.Outcome State Fault Refusal :=
  s.run fun c => c.patternReceive port lpos b

/-- EQUALISATION_REQUEST (R397): an equalisation request arrives. -/
def execEqualisationRequest (port : Nat) (lpos : Nat) (b : TrainBlock) (s : State) : Host.Outcome State Fault Refusal :=
  s.run fun c => c.eqRequest port lpos b

/-- EQUALISATION_RESPONSE (R397): an equalisation response arrives. -/
def execEqualisationResponse (port : Nat) (lpos : Nat) (b : TrainBlock) (s : State) : Host.Outcome State Fault Refusal :=
  s.run fun c => c.eqResponse port lpos b

/-- CAPABILITIES_BLOCK (R399): a Capabilities block arrives. -/
def execCapabilitiesBlock (port : Nat) (b : TrainBlock) (peerPassed : Bool) (s : State) : Host.Outcome State Fault Refusal :=
  s.run fun c => c.capabilities port b peerPassed

/-- TRAINING_TIMEOUT (R395): the time limit of a training step passes. -/
def execTrainingTimeout (port : Nat) (s : State) : Host.Outcome State Fault Refusal :=
  s.run fun c => c.trainingTimeout port

/-- ATTEMPT_WAIT_END (R395): the wait between attempts ends. -/
def execAttemptWaitEnd (port : Nat) (s : State) : Host.Outcome State Fault Refusal :=
  s.run fun c => c.attemptWaitEnd port

/-- RETRAIN_EVENT_TIMEOUT (R400): a port has not come back within its event limit. -/
def execRetrainEventTimeout (port : Nat) (s : State) : Host.Outcome State Fault Refusal :=
  s.run fun c => c.retrainEventTimeout port

/-- PORT_RETRAIN (R405): p18.004[port] := 1. -/
def execPortRetrain (w : Writer) (port : Nat) (s : State) : Host.Outcome State Fault Refusal :=
  s.runAny fun c => c.numWrite w 0x18 0x004 port 1 1

/-- PORT_NARROW_LPOS0 (R403): p18.004[port] := 2. -/
def execPortNarrowLpos0 (w : Writer) (port : Nat) (s : State) : Host.Outcome State Fault Refusal :=
  s.runAny fun c => c.numWrite w 0x18 0x004 port 1 2

/-- PORT_NARROW_LPOS1 (R403): p18.004[port] := 3. -/
def execPortNarrowLpos1 (w : Writer) (port : Nat) (s : State) : Host.Outcome State Fault Refusal :=
  s.runAny fun c => c.numWrite w 0x18 0x004 port 1 3

/-- PORT_WIDEN (R404): p18.004[port] := 4. -/
def execPortWiden (w : Writer) (port : Nat) (s : State) : Host.Outcome State Fault Refusal :=
  s.runAny fun c => c.numWrite w 0x18 0x004 port 1 4

/-- WREQ (R403): a WREQ message arrives. -/
def execWreq (port : Nat) (m : WidthMsg) (s : State) : Host.Outcome State Fault Refusal :=
  s.run fun c => c.takeWreq port m

/-- WGRANT (R403): a WGRANT message arrives. -/
def execWgrant (port : Nat) (m : WidthMsg) (s : State) : Host.Outcome State Fault Refusal :=
  s.run fun c => c.takeWgrant port m

/-- WREFUSE (R403): a WREFUSE message arrives. -/
def execWrefuse (port : Nat) (m : WidthMsg) (s : State) : Host.Outcome State Fault Refusal :=
  s.run fun c => c.takeWrefuse port m

/-- WSWITCH (R403): a WSWITCH message arrives. -/
def execWswitch (port : Nat) (m : WidthMsg) (s : State) : Host.Outcome State Fault Refusal :=
  s.run fun c => c.takeWswitch port m

/-- RREQ (R405): a RREQ message arrives. -/
def execRreq (port : Nat) (m : WidthMsg) (s : State) : Host.Outcome State Fault Refusal :=
  s.run fun c => c.takeRreq port m

/-- RACK (R405): a RACK message arrives. -/
def execRack (port : Nat) (m : WidthMsg) (s : State) : Host.Outcome State Fault Refusal :=
  s.run fun c => c.takeRack port m

/-- WREQ_TIMEOUT (R406): a width request is not answered. -/
def execWreqTimeout (port : Nat) (s : State) : Host.Outcome State Fault Refusal :=
  s.run fun c => c.wreqTimeout port

/-- RACK_TIMEOUT (R405): a retrain request is not answered. -/
def execRackTimeout (port : Nat) (s : State) : Host.Outcome State Fault Refusal :=
  s.run fun c => c.rackTimeout port

/-- WSWITCH_LOCK_TIMEOUT (R406): lock does not return after a width switch. -/
def execWswitchLockTimeout (port : Nat) (s : State) : Host.Outcome State Fault Refusal :=
  s.run fun c => c.wswitchTimeout port

end Sys2Proof.Machine
end

