-- ==== Sys2Proof/Machine/Trigger.lean ====
section
/-! DEFINITION. The meanings of the commands on held entries and trigger counters (R236 to R245), one definition each. -/

namespace Sys2Proof.Machine

/-- HELD_ENTRY (R242): an SQ entry with HELD. -/
def execHeldEntry (h : Nat) (qn : Nat) (e : Entry) (s : State) : Host.Outcome State Fault Refusal :=
  s.run fun c => c.takeHeld h qn e

/-- ALLOCATE (R238): p23.010[fn] is written with command 1. -/
def execAllocate (w : Writer) (fn : Nat) (ctr : Nat) (s : State) : Host.Outcome State Fault Refusal :=
  s.runAny fun c => c.ctrWrite w fn 1 ctr 0

/-- FREE (R238): p23.010[fn] is written with command 2. -/
def execFree (w : Writer) (fn : Nat) (ctr : Nat) (s : State) : Host.Outcome State Fault Refusal :=
  s.runAny fun c => c.ctrWrite w fn 2 ctr 0

/-- CONFIGURE (R238): p23.010[fn] is written with command 3. -/
def execConfigure (w : Writer) (fn : Nat) (ctr : Nat) (arg : BitVec 44) (s : State) : Host.Outcome State Fault Refusal :=
  s.runAny fun c => c.ctrWrite w fn 3 ctr arg.toNat

/-- SET (R238): p23.010[fn] is written with command 4. -/
def execSet (w : Writer) (fn : Nat) (ctr : Nat) (arg : BitVec 44) (s : State) : Host.Outcome State Fault Refusal :=
  s.runAny fun c => c.ctrWrite w fn 4 ctr arg.toNat

/-- ADD (R238): p23.010[fn] is written with command 5. -/
def execAdd (w : Writer) (fn : Nat) (ctr : Nat) (arg : BitVec 44) (s : State) : Host.Outcome State Fault Refusal :=
  s.runAny fun c => c.ctrWrite w fn 5 ctr arg.toNat

/-- HELD_ENTRY_READ_BACK (R244): a released held entry is read back and started. -/
def execHeldEntryReadBack (fn : Nat) (slot : Nat) (data : SourceData) (s : State) : Host.Outcome State Fault Refusal :=
  s.run fun c => c.heldReadBack fn slot data

/-- HELD_AREA_READ_TIMEOUT (R244): the read of a held entry has failed. -/
def execHeldAreaReadTimeout (fn : Nat) (slot : Nat) (s : State) : Host.Outcome State Fault Refusal :=
  s.run fun c => c.heldReadFails fn slot

end Sys2Proof.Machine
end

