-- ==== Sys2Proof/Machine/Window.lean ====
section
/-! DEFINITION. The meanings of the commands on load/store windows (R294 to R305), one definition each. -/

namespace Sys2Proof.Machine

/-- BAR4_READ (R300): a BAR4 read. -/
def execBar4Read (fn : Nat) (id : Nat) (off : Nat) (len : Nat) (s : State) : Host.Outcome State Fault Refusal :=
  s.run fun c => c.bar4Read fn id off len

/-- BAR4_WRITE (R298): a BAR4 write. -/
def execBar4Write (fn : Nat) (off : Nat) (bytes : List Byte) (s : State) : Host.Outcome State Fault Refusal :=
  s.run fun c => c.bar4Write fn off bytes

/-- BAR4_ATOMICOP (R301): an AtomicOp to BAR4. -/
def execBar4Atomicop (fn : Nat) (id : Nat) (off : Nat) (op : PcieAtomic) (s : State) : Host.Outcome State Fault Refusal :=
  s.run fun c => c.bar4Atomic fn id off op

/-- WRITE_GATHER_EXPIRY (R298): the write gathering interval of a host port ends. -/
def execWriteGatherExpiry (h : Nat) (s : State) : Host.Outcome State Fault Refusal :=
  s.run fun c => c.gatherExpiry h

/-- PREFETCH_EXPIRY (R302): prefetched lines reach their age limit. -/
def execPrefetchExpiry (h : Nat) (s : State) : Host.Outcome State Fault Refusal :=
  s.run fun c => c.prefetchExpiry h

/-- BRIDGE_TIMEOUT (R303): a bridge operation reaches P29.040. -/
def execBridgeTimeout (id : Nat) (s : State) : Host.Outcome State Fault Refusal :=
  s.run fun c => c.bridgeTimeout id

end Sys2Proof.Machine
end

