-- ==== Sys2Proof/Machine/WorkEntry.lean ====
section
/-! DEFINITION. The meanings of the commands on work entries (R134, R139 to R144, R147 to R150), one definition each. -/

namespace Sys2Proof.Machine

/-- SEND (R141): an SQ entry with opcode 0x01. -/
def execSend (h : Nat) (qn : Nat) (e : Entry) (data : SourceData) (s : State) : Host.Outcome State Fault Refusal :=
  s.run fun c => c.takeNative h qn 0x01 e data

/-- TAGGED_SEND (R223): an SQ entry with opcode 0x02. -/
def execTaggedSend (h : Nat) (qn : Nat) (e : Entry) (data : SourceData) (s : State) : Host.Outcome State Fault Refusal :=
  s.run fun c => c.takeNative h qn 0x02 e data

/-- WRITE_ENTRY (R142): an SQ entry with opcode 0x10. -/
def execWriteEntry (h : Nat) (qn : Nat) (e : Entry) (data : SourceData) (s : State) : Host.Outcome State Fault Refusal :=
  s.run fun c => c.takeNative h qn 0x10 e data

/-- WRITE_WITH_NOTIFY (R142): an SQ entry with opcode 0x11. -/
def execWriteWithNotify (h : Nat) (qn : Nat) (e : Entry) (data : SourceData) (s : State) : Host.Outcome State Fault Refusal :=
  s.run fun c => c.takeNative h qn 0x11 e data

/-- READ_ENTRY (R171): an SQ entry with opcode 0x20. -/
def execReadEntry (h : Nat) (qn : Nat) (e : Entry) (s : State) : Host.Outcome State Fault Refusal :=
  s.run fun c => c.takeNative h qn 0x20 e (.bytes [])

/-- FETCH_ADD (R143): an SQ entry with opcode 0x30. -/
def execFetchAdd (h : Nat) (qn : Nat) (e : Entry) (s : State) : Host.Outcome State Fault Refusal :=
  s.run fun c => c.takeNative h qn 0x30 e (.bytes [])

/-- SWAP (R143): an SQ entry with opcode 0x31. -/
def execSwap (h : Nat) (qn : Nat) (e : Entry) (s : State) : Host.Outcome State Fault Refusal :=
  s.run fun c => c.takeNative h qn 0x31 e (.bytes [])

/-- COMPARE_SWAP_8 (R143): an SQ entry with opcode 0x32. -/
def execCompareSwap8 (h : Nat) (qn : Nat) (e : Entry) (s : State) : Host.Outcome State Fault Refusal :=
  s.run fun c => c.takeNative h qn 0x32 e (.bytes [])

/-- COMPARE_SWAP_16 (R143): an SQ entry with opcode 0x33. -/
def execCompareSwap16 (h : Nat) (qn : Nat) (e : Entry) (s : State) : Host.Outcome State Fault Refusal :=
  s.run fun c => c.takeNative h qn 0x33 e (.bytes [])

/-- COUNT (R143): an SQ entry with opcode 0x40. -/
def execCount (h : Nat) (qn : Nat) (e : Entry) (s : State) : Host.Outcome State Fault Refusal :=
  s.run fun c => c.takeNative h qn 0x40 e (.bytes [])

/-- NOP (R143): an SQ entry with opcode 0x41. -/
def execNop (h : Nat) (qn : Nat) (e : Entry) (s : State) : Host.Outcome State Fault Refusal :=
  s.run fun c => c.takeNative h qn 0x41 e (.bytes [])

/-- RECV (R222): a RECV entry. -/
def execRecv (h : Nat) (qn : Nat) (e : Entry) (s : State) : Host.Outcome State Fault Refusal :=
  s.run fun c => c.takeRecvEntry h qn e

/-- TAGGED_RECV (R215): a TAGGED RECV entry. -/
def execTaggedRecv (h : Nat) (qn : Nat) (e : Entry) (deferred : Bool) (s : State) : Host.Outcome State Fault Refusal :=
  s.run fun c => c.takeTaggedRecv h qn e deferred

/-- VENEER_NOP (R147): a Veneer NOP. -/
def execVeneerNop (h : Nat) (qn : Nat) (v : VEntry) (s : State) : Host.Outcome State Fault Refusal :=
  s.run fun c => c.takeVeneer h qn 0x41 v (.bytes [])

/-- VENEER_SEND (R147): a Veneer SEND. -/
def execVeneerSend (h : Nat) (qn : Nat) (v : VEntry) (data : SourceData) (s : State) : Host.Outcome State Fault Refusal :=
  s.run fun c => c.takeVeneer h qn 0x01 v data

/-- VENEER_WRITE (R147): a Veneer WRITE. -/
def execVeneerWrite (h : Nat) (qn : Nat) (v : VEntry) (data : SourceData) (s : State) : Host.Outcome State Fault Refusal :=
  s.run fun c => c.takeVeneer h qn 0x10 v data

/-- VENEER_READ (R147): a Veneer READ. -/
def execVeneerRead (h : Nat) (qn : Nat) (v : VEntry) (s : State) : Host.Outcome State Fault Refusal :=
  s.run fun c => c.takeVeneer h qn 0x20 v (.bytes [])

/-- MALFORMED_ENTRY (R150): an entry that R150 calls malformed. -/
def execMalformedEntry (h : Nat) (qn : Nat) (e : Entry) (s : State) : Host.Outcome State Fault Refusal :=
  s.run fun c => c.takeMalformedEntry h qn e

end Sys2Proof.Machine
end

