-- ==== Sys2Proof/Machine/Dispatch.lean ====
section
/-! DEFINITION. Which meaning each command has: one arm per constructor, each one direct call. -/

namespace Sys2Proof.Machine

/-- The effect of a command on everything but the queue. -/
def exec (i : Instr) (s : State) : Host.Outcome State Fault Refusal :=
  match i with
  | .read h relay vf param => Sys2Proof.Machine.execRead h relay vf param s
  | .write h relay vf param => Sys2Proof.Machine.execWrite h relay vf param s
  | .describe h relay vf param => Sys2Proof.Machine.execDescribe h relay vf param s
  | .readStaged h relay vf param => Sys2Proof.Machine.execReadStaged h relay vf param s
  | .mbxUnknownOp h op relay vf param => Sys2Proof.Machine.execMbxUnknownOp h op relay vf param s
  | .collide h => Sys2Proof.Machine.execCollide h s
  | .fdpRequest d => Sys2Proof.Machine.execFdpRequest d s
  | .mctpRequest packets => Sys2Proof.Machine.execMctpRequest packets s
  | .chunkExpiry path => Sys2Proof.Machine.execChunkExpiry path s
  | .shimDictionaryRequest p => Sys2Proof.Machine.execShimDictionaryRequest p s
  | .commit w setNo t => Sys2Proof.Machine.execCommit w setNo t s
  | .setTakesEffect setNo => Sys2Proof.Machine.execSetTakesEffect setNo s
  | .discard w setNo value => Sys2Proof.Machine.execDiscard w setNo value s
  | .holderTimeout setNo => Sys2Proof.Machine.execHolderTimeout setNo s
  | .save w value => Sys2Proof.Machine.execSave w value s
  | .saveComplete ok => Sys2Proof.Machine.execSaveComplete ok s
  | .restoreDefaults w value => Sys2Proof.Machine.execRestoreDefaults w value s
  | .restoreSaved w value => Sys2Proof.Machine.execRestoreSaved w value s
  | .calibrationStore w value => Sys2Proof.Machine.execCalibrationStore w value s
  | .calibrationStoreComplete => Sys2Proof.Machine.execCalibrationStoreComplete s
  | .calibrationImageWrite w image => Sys2Proof.Machine.execCalibrationImageWrite w image s
  | .registerWrite fn reg value => Sys2Proof.Machine.execRegisterWrite fn reg value s
  | .hostLinkTrained h width rate flit => Sys2Proof.Machine.execHostLinkTrained h width rate flit s
  | .perstNAssert h => Sys2Proof.Machine.execPerstNAssert h s
  | .perstNDeassert h => Sys2Proof.Machine.execPerstNDeassert h s
  | .functionLevelReset fn => Sys2Proof.Machine.execFunctionLevelReset fn s
  | .functionDisable w fn => Sys2Proof.Machine.execFunctionDisable w fn s
  | .functionQuiesced fn => Sys2Proof.Machine.execFunctionQuiesced fn s
  | .functionEnable w fn => Sys2Proof.Machine.execFunctionEnable w fn s
  | .functionReady fn => Sys2Proof.Machine.execFunctionReady fn s
  | .vfEnableClear h => Sys2Proof.Machine.execVfEnableClear h s
  | .vfEnableSet h numVfs => Sys2Proof.Machine.execVfEnableSet h numVfs s
  | .vectorUnmask fn vector => Sys2Proof.Machine.execVectorUnmask fn vector s
  | .counterPageRead fn access => Sys2Proof.Machine.execCounterPageRead fn access s
  | .ffDataRead h block wide => Sys2Proof.Machine.execFfDataRead h block wide s
  | .ffDataUpperRead h block => Sys2Proof.Machine.execFfDataUpperRead h block s
  | .ffDataWrite h block wide value => Sys2Proof.Machine.execFfDataWrite h block wide value s
  | .ffDataLowerWrite h block value => Sys2Proof.Machine.execFfDataLowerWrite h block value s
  | .ffCommit h block => Sys2Proof.Machine.execFfCommit h block s
  | .ffAbort h block => Sys2Proof.Machine.execFfAbort h block s
  | .ffMark h block => Sys2Proof.Machine.execFfMark h block s
  | .ffRewind h block => Sys2Proof.Machine.execFfRewind h block s
  | .ffRelease h block p => Sys2Proof.Machine.execFfRelease h block p s
  | .radishMarker fifo => Sys2Proof.Machine.execRadishMarker fifo s
  | .mgmtTransmit h => Sys2Proof.Machine.execMgmtTransmit h s
  | .shimPacketDelivery h p => Sys2Proof.Machine.execShimPacketDelivery h p s
  | .controlQpEnable w fn value idx => Sys2Proof.Machine.execControlQpEnable w fn value idx s
  | .controlQpDisable w fn value => Sys2Proof.Machine.execControlQpDisable w fn value s
  | .ring fn off whole word => Sys2Proof.Machine.execRing fn off whole word s
  | .invalidate fn off whole word => Sys2Proof.Machine.execInvalidate fn off whole word s
  | .arm fn off whole word idx => Sys2Proof.Machine.execArm fn off whole word idx s
  | .indexBlockReadDone fn qn idx fetched => Sys2Proof.Machine.execIndexBlockReadDone fn qn idx fetched s
  | .queueReadTimeout fn qn what => Sys2Proof.Machine.execQueueReadTimeout fn qn what s
  | .send h qn e data => Sys2Proof.Machine.execSend h qn e data s
  | .taggedSend h qn e data => Sys2Proof.Machine.execTaggedSend h qn e data s
  | .writeEntry h qn e data => Sys2Proof.Machine.execWriteEntry h qn e data s
  | .writeWithNotify h qn e data => Sys2Proof.Machine.execWriteWithNotify h qn e data s
  | .readEntry h qn e => Sys2Proof.Machine.execReadEntry h qn e s
  | .fetchAdd h qn e => Sys2Proof.Machine.execFetchAdd h qn e s
  | .swap h qn e => Sys2Proof.Machine.execSwap h qn e s
  | .compareSwap8 h qn e => Sys2Proof.Machine.execCompareSwap8 h qn e s
  | .compareSwap16 h qn e => Sys2Proof.Machine.execCompareSwap16 h qn e s
  | .count h qn e => Sys2Proof.Machine.execCount h qn e s
  | .nop h qn e => Sys2Proof.Machine.execNop h qn e s
  | .barrier h qn e => Sys2Proof.Machine.execBarrier h qn e s
  | .broadcast h qn e data => Sys2Proof.Machine.execBroadcast h qn e data s
  | .reduce h qn e data => Sys2Proof.Machine.execReduce h qn e data s
  | .allreduce h qn e data => Sys2Proof.Machine.execAllreduce h qn e data s
  | .reduceScatter h qn e data => Sys2Proof.Machine.execReduceScatter h qn e data s
  | .create fn e qn idx => Sys2Proof.Machine.execCreate fn e qn idx s
  | .destroy fn e => Sys2Proof.Machine.execDestroy fn e s
  | .reset fn e idx => Sys2Proof.Machine.execReset fn e idx s
  | .recv h qn e => Sys2Proof.Machine.execRecv h qn e s
  | .taggedRecv h qn e deferred => Sys2Proof.Machine.execTaggedRecv h qn e deferred s
  | .veneerNop h qn v => Sys2Proof.Machine.execVeneerNop h qn v s
  | .veneerSend h qn v data => Sys2Proof.Machine.execVeneerSend h qn v data s
  | .veneerWrite h qn v data => Sys2Proof.Machine.execVeneerWrite h qn v data s
  | .veneerRead h qn v => Sys2Proof.Machine.execVeneerRead h qn v s
  | .malformedEntry h qn e => Sys2Proof.Machine.execMalformedEntry h qn e s
  | .heldEntry h qn e => Sys2Proof.Machine.execHeldEntry h qn e s
  | .backlogDrain fn cqn ci poisoned => Sys2Proof.Machine.execBacklogDrain fn cqn ci poisoned s
  | .messageRequest h p miss => Sys2Proof.Machine.execMessageRequest h p miss s
  | .writeRequest h p miss => Sys2Proof.Machine.execWriteRequest h p miss s
  | .readRequest h p miss => Sys2Proof.Machine.execReadRequest h p miss s
  | .atomicRequest h p miss => Sys2Proof.Machine.execAtomicRequest h p miss s
  | .countRequest h p miss => Sys2Proof.Machine.execCountRequest h p miss s
  | .nopRequest h p miss => Sys2Proof.Machine.execNopRequest h p miss s
  | .sync h p => Sys2Proof.Machine.execSync h p s
  | .offer h p miss => Sys2Proof.Machine.execOffer h p miss s
  | .offerClose h p => Sys2Proof.Machine.execOfferClose h p s
  | .ack h p => Sys2Proof.Machine.execAck h p s
  | .busyNak h p => Sys2Proof.Machine.execBusyNak h p s
  | .error h p => Sys2Proof.Machine.execError h p s
  | .readData h p => Sys2Proof.Machine.execReadData h p s
  | .atomicResult h p => Sys2Proof.Machine.execAtomicResult h p s
  | .retransmitTimeout ch psn => Sys2Proof.Machine.execRetransmitTimeout ch psn s
  | .busyResend ch psn => Sys2Proof.Machine.execBusyResend ch psn s
  | .ackDelay ch => Sys2Proof.Machine.execAckDelay ch s
  | .errorStateExpiry ch => Sys2Proof.Machine.execErrorStateExpiry ch s
  | .atomicBlockReturn ch => Sys2Proof.Machine.execAtomicBlockReturn ch s
  | .contextFetchDone ctx poisoned => Sys2Proof.Machine.execContextFetchDone ctx poisoned s
  | .contextFetchTimeout h qn => Sys2Proof.Machine.execContextFetchTimeout h qn s
  | .contextBind w fn value => Sys2Proof.Machine.execContextBind w fn value s
  | .contextUnbind w fn value => Sys2Proof.Machine.execContextUnbind w fn value s
  | .eagerCopyComplete id poisoned => Sys2Proof.Machine.execEagerCopyComplete id poisoned s
  | .offerRecordFreed id => Sys2Proof.Machine.execOfferRecordFreed id s
  | .allocate w fn ctr => Sys2Proof.Machine.execAllocate w fn ctr s
  | .free w fn ctr => Sys2Proof.Machine.execFree w fn ctr s
  | .configure w fn ctr arg => Sys2Proof.Machine.execConfigure w fn ctr arg s
  | .set w fn ctr arg => Sys2Proof.Machine.execSet w fn ctr arg s
  | .add w fn ctr arg => Sys2Proof.Machine.execAdd w fn ctr arg s
  | .heldEntryReadBack fn slot data => Sys2Proof.Machine.execHeldEntryReadBack fn slot data s
  | .heldAreaReadTimeout fn slot => Sys2Proof.Machine.execHeldAreaReadTimeout fn slot s
  | .collectiveUp port p poisoned => Sys2Proof.Machine.execCollectiveUp port p poisoned s
  | .collectiveDown port p => Sys2Proof.Machine.execCollectiveDown port p s
  | .collectiveAbort port p => Sys2Proof.Machine.execCollectiveAbort port p s
  | .collectiveDone port p => Sys2Proof.Machine.execCollectiveDone port p s
  | .segmentUp slot cseq seg poisoned => Sys2Proof.Machine.execSegmentUp slot cseq seg poisoned s
  | .collectiveTimeout slot cseq => Sys2Proof.Machine.execCollectiveTimeout slot cseq s
  | .register w fn addr => Sys2Proof.Machine.execRegister w fn addr s
  | .registerComplete fn block pages => Sys2Proof.Machine.execRegisterComplete fn block pages s
  | .deregister fn block => Sys2Proof.Machine.execDeregister fn block s
  | .deregisterComplete fn => Sys2Proof.Machine.execDeregisterComplete fn s
  | .atsInvalidateRequest fn addr length => Sys2Proof.Machine.execAtsInvalidateRequest fn addr length s
  | .atsInvalidateCompletion fn => Sys2Proof.Machine.execAtsInvalidateCompletion fn s
  | .retire w group => Sys2Proof.Machine.execRetire w group s
  | .channelGroupFailure group => Sys2Proof.Machine.execChannelGroupFailure group s
  | .retirementComplete group poisoned => Sys2Proof.Machine.execRetirementComplete group poisoned s
  | .bar4Read fn id off len => Sys2Proof.Machine.execBar4Read fn id off len s
  | .bar4Write fn off bytes => Sys2Proof.Machine.execBar4Write fn off bytes s
  | .bar4Atomicop fn id off op => Sys2Proof.Machine.execBar4Atomicop fn id off op s
  | .writeGatherExpiry h => Sys2Proof.Machine.execWriteGatherExpiry h s
  | .prefetchExpiry h => Sys2Proof.Machine.execPrefetchExpiry h s
  | .bridgeTimeout id => Sys2Proof.Machine.execBridgeTimeout id s
  | .cxlMemRead h addr => Sys2Proof.Machine.execCxlMemRead h addr s
  | .cxlMemWrite h addr bytes => Sys2Proof.Machine.execCxlMemWrite h addr bytes s
  | .packetRoute inp whole => Sys2Proof.Machine.execPacketRoute inp whole s
  | .outputStart out => Sys2Proof.Machine.execOutputStart out s
  | .fenceBroadcast inp p => Sys2Proof.Machine.execFenceBroadcast inp p s
  | .throttleBroadcast inp p => Sys2Proof.Machine.execThrottleBroadcast inp p s
  | .broadcastApply => Sys2Proof.Machine.execBroadcastApply s
  | .clampTableWrite w row value => Sys2Proof.Machine.execClampTableWrite w row value s
  | .throttleExpiry chip => Sys2Proof.Machine.execThrottleExpiry chip s
  | .splineHintSend port => Sys2Proof.Machine.execSplineHintSend port s
  | .splineHintReceive port item => Sys2Proof.Machine.execSplineHintReceive port item s
  | .hintStale port => Sys2Proof.Machine.execHintStale port s
  | .tokenTick ticks => Sys2Proof.Machine.execTokenTick ticks s
  | .gateEntryChange port => Sys2Proof.Machine.execGateEntryChange port s
  | .linkPacketReceive port blocks => Sys2Proof.Machine.execLinkPacketReceive port blocks s
  | .lcbSend port => Sys2Proof.Machine.execLcbSend port s
  | .lcbReceive port l => Sys2Proof.Machine.execLcbReceive port l s
  | .replayTimeout port => Sys2Proof.Machine.execReplayTimeout port s
  | .degradationWindow port => Sys2Proof.Machine.execDegradationWindow port s
  | .restoreInterval port => Sys2Proof.Machine.execRestoreInterval port s
  | .codewordDecode lane errors blocks fill => Sys2Proof.Machine.execCodewordDecode lane errors blocks fill s
  | .receiverDetect port found => Sys2Proof.Machine.execReceiverDetect port found s
  | .patternBlock port lpos b => Sys2Proof.Machine.execPatternBlock port lpos b s
  | .equalisationRequest port lpos b => Sys2Proof.Machine.execEqualisationRequest port lpos b s
  | .equalisationResponse port lpos b => Sys2Proof.Machine.execEqualisationResponse port lpos b s
  | .capabilitiesBlock port b peerPassed => Sys2Proof.Machine.execCapabilitiesBlock port b peerPassed s
  | .blockLock lane headers => Sys2Proof.Machine.execBlockLock lane headers s
  | .markerLock lane m => Sys2Proof.Machine.execMarkerLock lane m s
  | .lockLoss lane kind => Sys2Proof.Machine.execLockLoss lane kind s
  | .trainingTimeout port => Sys2Proof.Machine.execTrainingTimeout port s
  | .attemptWaitEnd port => Sys2Proof.Machine.execAttemptWaitEnd port s
  | .retrainEventTimeout port => Sys2Proof.Machine.execRetrainEventTimeout port s
  | .portRetrain w port => Sys2Proof.Machine.execPortRetrain w port s
  | .portNarrowLpos0 w port => Sys2Proof.Machine.execPortNarrowLpos0 w port s
  | .portNarrowLpos1 w port => Sys2Proof.Machine.execPortNarrowLpos1 w port s
  | .portWiden w port => Sys2Proof.Machine.execPortWiden w port s
  | .wreq port m => Sys2Proof.Machine.execWreq port m s
  | .wgrant port m => Sys2Proof.Machine.execWgrant port m s
  | .wrefuse port m => Sys2Proof.Machine.execWrefuse port m s
  | .wswitch port m => Sys2Proof.Machine.execWswitch port m s
  | .rreq port m => Sys2Proof.Machine.execRreq port m s
  | .rack port m => Sys2Proof.Machine.execRack port m s
  | .wreqTimeout port => Sys2Proof.Machine.execWreqTimeout port s
  | .rackTimeout port => Sys2Proof.Machine.execRackTimeout port s
  | .wswitchLockTimeout port => Sys2Proof.Machine.execWswitchLockTimeout port s
  | .bitSlip w lane n => Sys2Proof.Machine.execBitSlip w lane n s
  | .checkerSync lane bits => Sys2Proof.Machine.execCheckerSync lane bits s
  | .checkerSyncLoss lane bits errors => Sys2Proof.Machine.execCheckerSyncLoss lane bits errors s
  | .timeExchangeSend port => Sys2Proof.Machine.execTimeExchangeSend port s
  | .timeExchangeReceive port item => Sys2Proof.Machine.execTimeExchangeReceive port item s
  | .parentTimeout => Sys2Proof.Machine.execParentTimeout s
  | .holdoverExpiry => Sys2Proof.Machine.execHoldoverExpiry s
  | .setTime w t => Sys2Proof.Machine.execSetTime w t s
  | .ppsEdge => Sys2Proof.Machine.execPpsEdge s
  | .paceWindow raw => Sys2Proof.Machine.execPaceWindow raw s
  | .avsLoop => Sys2Proof.Machine.execAvsLoop s
  | .avsResponse good => Sys2Proof.Machine.execAvsResponse good s
  | .avsTimeout => Sys2Proof.Machine.execAvsTimeout s
  | .thermalWarning raw => Sys2Proof.Machine.execThermalWarning raw s
  | .thermalTrip raw => Sys2Proof.Machine.execThermalTrip raw s
  | .samplingTick ticks => Sys2Proof.Machine.execSamplingTick ticks s
  | .streamSample ci => Sys2Proof.Machine.execStreamSample ci s
  | .faultOccurrence unit cause skind subject => Sys2Proof.Machine.execFaultOccurrence unit cause skind subject s
  | .handshakeStall unit => Sys2Proof.Machine.execHandshakeStall unit s
  | .blockResetComplete unit => Sys2Proof.Machine.execBlockResetComplete unit s
  | .unitRelease w unit => Sys2Proof.Machine.execUnitRelease w unit s
  | .sourceStatusClear w unit cause value => Sys2Proof.Machine.execSourceStatusClear w unit cause value s
  | .kerfWindowClose => Sys2Proof.Machine.execKerfWindowClose s
  | .recordToFifo => Sys2Proof.Machine.execRecordToFifo s
  | .clusterRestart w unit => Sys2Proof.Machine.execClusterRestart w unit s
  | .clusterRestartComplete unit => Sys2Proof.Machine.execClusterRestartComplete unit s
  | .powerOn => Sys2Proof.Machine.execPowerOn s
  | .resetNAssert => Sys2Proof.Machine.execResetNAssert s
  | .resetNRelease grp pos => Sys2Proof.Machine.execResetNRelease grp pos s
  | .strapOverrideWrite value => Sys2Proof.Machine.execStrapOverrideWrite value s
  | .bootLoadComplete => Sys2Proof.Machine.execBootLoadComplete s
  | .jigServiceUp => Sys2Proof.Machine.execJigServiceUp s
  | .beginUpdate w => Sys2Proof.Machine.execBeginUpdate w s
  | .beginComplete ok => Sys2Proof.Machine.execBeginComplete ok s
  | .updateBlock w k bytes => Sys2Proof.Machine.execUpdateBlock w k bytes s
  | .updateBlockComplete ok => Sys2Proof.Machine.execUpdateBlockComplete ok s
  | .verify w => Sys2Proof.Machine.execVerify w s
  | .verifyComplete => Sys2Proof.Machine.execVerifyComplete s
  | .switch w => Sys2Proof.Machine.execSwitch w s
  | .switchComplete ok => Sys2Proof.Machine.execSwitchComplete ok s
  | .activate w => Sys2Proof.Machine.execActivate w s
  | .hbmPatrolScrub group addr outcome => Sys2Proof.Machine.execHbmPatrolScrub group addr outcome s
  | .thermalWarningClear raw => Sys2Proof.Machine.execThermalWarningClear raw s
  | .dynamicAddressAssignment addr => Sys2Proof.Machine.execDynamicAddressAssignment addr s
  | .hostMemoryReadCompletion id result => Sys2Proof.Machine.execHostMemoryReadCompletion id result s
  | .matchEntryReadDone ctx poisoned => Sys2Proof.Machine.execMatchEntryReadDone ctx poisoned s

end Sys2Proof.Machine
end

