-- ==== Sys2Proof/Safety.lean ====
section
/-! DEFINITION. What the statements say of a state and of a command, in the model's own terms. -/

namespace Sys2Proof.Machine

/-- Fabric memory is in its canonical form: written bytes at strictly rising addresses. -/
abbrev State.memoryCanonical (s : State) : Prop := Memory.wf s.chip.mem.hbm = true

/-- The step with the command `i` at the front of the queue and the rest behind it. -/
def State.withFront (s : State) (i : Instr) : State := { s with pending := i :: s.pending }

/-- No link has bytes of a packet's end in a data block that is still being filled, and no port holds back a width change: nothing of
the links waits for the end of a packet (R365, R403). -/
def Chip.linksCalm (c : Chip) : Bool :=
  (c.links.all fun r => r.2.tx.left.isEmpty) && c.train.all fun r => r.2.hs.switchDue.isNone

/-- Nothing that an earlier effect has decided is still to be carried out: no reset, no ended operation to hand on, no released entry
without its MSGID, no host request beyond the limit, no queue whose destruction waits, nothing of the links. Between two commands
the block is calm unless something waits for work in progress. -/
def Chip.calm (c : Chip) : Bool :=
  !c.flt.resetDue && c.flt.due.isEmpty && c.tr.finished.isEmpty && !c.tg.due && c.br.waiting.isEmpty && c.linksCalm &&
  !c.queues.any fun r => r.2.destroying.isSome

/-- A service runs and nothing is still to be carried out: the state between two commands in which hosts and links are served. -/
abbrev State.serving (s : State) : Prop := s.chip.up = true ∧ s.chip.calm = true

/-- A service runs, and the effect `f` leaves nothing to carry out: what it decides has no reset, no end of an operation that another
one waits for, and nothing of the links in its train. -/
abbrev State.leaves (s : State) (f : Chip → Chip) : Prop := s.chip.up = true ∧ (f s.chip).calm = true

/-- What the block reset of the unit leaves, which has been decided first. -/
def Chip.afterReset (c : Chip) (u : Nat) : Chip := Chip.blockReset { c with flt := { c.flt with due := c.flt.due.tail } } u

/-- The reaction that the control row of a source names: 0 to 2 report, 3 resets the unit's block, 4 resets the chip (R455). -/
def Chip.reactionOf (c : Chip) (unit cause : Nat) : Nat := bits (c.control unit cause) 0 3

/-- The command completes: exec answers a next state, the waiting commands are as they were, and the chip is as `p` says. -/
def Completes (i : Instr) (s : State) (p : Chip → Prop) : Prop :=
  ∃ t : State, exec i s = .next t ∧ t.pending = s.pending ∧ p t.chip

/-- A writer's path is served, nothing waits on it, and access and class let it write the parameter (R511 steps 2 to 6). -/
def Chip.mayWrite (c : Chip) (w : Writer) (n : Nat) : Bool :=
  c.serves w && c.mgtUp && (c.heldAt w.path).isNone && (match c.reachWrite w n with | .ok _ => true | .error _ => false)

/-- The access of a numeric parameter of which `l` is a whole value, most significant byte first, that the writer may write now and that
is in its range; none where a check of R511 fails. -/
def Chip.passes (c : Chip) (w : Writer) (n : Nat) (l : List Byte) : Option PAccess :=
  match c.reachWrite w n with
  | .error _ => none
  | .ok d =>
    let x := keepBits (pArea n) (pObj n) (natBE l)
    if d.ty ≠ .blob ∧ lengthOk d n l.length ∧ c.locked w d n (some (natBE l)) = false ∧ valueOk d (pArea n) (pObj n) (pElem n) x ∧
        c.valueRefused (pArea n) (pObj n) (pElem n) x = false then some d.access
    else none

/-- The parameters outside the areas 13, 18, 20, 21, 28 and 29, in which some writes have effects beside the value. -/
def storesOnly (n : Nat) : Bool := !([0x13, 0x18, 0x20, 0x21, 0x28, 0x29] : List Nat).contains (pArea n)

/-- What a write of that value leaves: the value itself in an RW or RWN parameter, a staged one in an RWA parameter, and the status that
says which. -/
def Chip.hasWritten (d c : Chip) (w : Writer) (n : Nat) (l : List Byte) (a : PAccess) : Prop :=
  let x := keepBits (pArea n) (pObj n) (natBE l)
  if a = .rwa then
    Tab.get? d.dict.staged n = some x ∧ (d.applySet (d.setOf n)).phase = .staging ∧ (d.applySet (d.setOf n)).holder = some w ∧
    d.dict.active = c.dict.active
  else d.param (pArea n) (pObj n) (pElem n) = storedForm (pArea n) (pObj n) (pElem n) x ∧ d.dict.staged = c.dict.staged

/-- The status of such a write. -/
def writeStatus (a : PAccess) : Nat := if a = .rwa then 1 else 0

/-- A restore from a bank, or to the defaults, fails a set-level check (R53). -/
def Chip.restoreRefused (c : Chip) (bank : Option Bank) : Bool := (c.restore bank).2 != 0

/-- A function whose host port carries its DMA: PERST_N high, the unit in service, the function not a VF that has gone. -/
def Chip.hostServed (c : Chip) (fn : Nat) : Bool :=
  !(c.port (fn / 256)).perst && !c.unitStopped (0x3C + fn / 256) && !(c.fn fn).vfGone && c.fnState fn != .quiesced

/-- An index block read of a CQ or EQ that puts the queue in error: it failed, or CI leaves more entries than the ring holds (R133). -/
def idxSpoils (idx : IndexRead) (logSize : Nat) (pi : BitVec 32) : Bool :=
  match idx with
  | .ok _ ci => decide (2 ^ logSize < (pi - ci).toNat)
  | .failed => true

/-- A control entry may be consumed, and the control CQ has room in its ring for the completion. -/
def Chip.ctlRoom (c : Chip) (fn : Nat) : Bool :=
  c.ctlReady fn && c.hostServed fn && (c.fn fn).ctlCqCause == 0 && !ringFull (c.ctlCqLog fn) (c.fn fn).ctlCqPi (c.fn fn).ctlCqCi

/-- The control entry has been consumed and completed on the control CQ, with the queue number and the reason of R146. -/
def Chip.ctlAnswered (d c : Chip) (fn : Nat) (e : Entry) (qn reason : Nat) : Prop :=
  (d.fn fn).ctlSqCi = (c.fn fn).ctlSqCi + 1 ∧ (d.fn fn).ctlCqPi = (c.fn fn).ctlCqPi + 1 ∧
  .completion (fn / 256) fn 0 (slotAddr (c.param 0x21 0x002 fn) (c.ctlCqLog fn) 32 (c.fn fn).ctlCqPi)
    { ctlCompletion e qn reason with time := BitVec.ofNat 48 c.tb.time.toNat }.words ∈ d.out

/-- The operation stands on the channel: started or not, with whatever MSGID and PSNs the channel has given it. -/
def Chip.carries (c : Chip) (k : Nat) (o : SendOp) : Prop :=
  ∃ x a, c.chan? k = some x ∧ a ∈ x.ops ∧
    { a with started := o.started, msgid := o.msgid, firstPsn := o.firstPsn, unsent := o.unsent } = o

/-- The CQ is active and its ring has room for one more entry. -/
def Chip.cqRoom (c : Chip) (h cqn : Nat) (cq : Queue) : Bool :=
  c.queue? h cqn == some cq && cq.kind == .cq && cq.state == .active && !cq.backlogged && (cq.pi - cq.ci).toNat < 2 ^ cq.logSize

/-- The CQ has received one entry since. -/
def Chip.completedOn (c : Chip) (h cqn : Nat) (cq : Queue) : Prop := ∃ y, c.queue? h cqn = some y ∧ y.pi = cq.pi + 1

/-- No operation on the channel can end by itself: each is undecided and, once started, has sent its packets. -/
def Chip.chanOpen (c : Chip) (k : Nat) : Bool :=
  (c.chan? k).elim true fun x => x.ops.all fun o => o.status.isNone && (!o.started || o.unsent.isEmpty)

/-- On every channel each operation is undecided and sent, and each place of a released entry is that of an entry in a held area. -/
def Chip.chansQuiet (c : Chip) : Bool :=
  c.tr.chans.all fun r => r.2.ops.all fun o => o.started && o.status.isNone && o.unsent.isEmpty &&
    (!o.held || c.tg.held.any fun e => e.fn == o.fn && e.qn == o.qn && e.pos == o.pos)

/-- A service runs, and the effect `f` leaves nothing to carry out but the padding of data blocks on the lines. -/
abbrev State.leavesPadding (s : State) (f : Chip → Chip) : Prop :=
  s.chip.up = true ∧ Chip.calm { f s.chip with links := [] } = true

/-- A service runs, the channels are quiet, and the effect `f` leaves nothing to carry out but the places of held entries. -/
abbrev State.leavesPlaces (s : State) (f : Chip → Chip) : Prop :=
  s.chip.up = true ∧ s.chip.chansQuiet = true ∧
  Chip.calm { f s.chip with tg := { (f s.chip).tg with due := false } } = true

/-- Every failed entry of the SQ waits behind an earlier one that is open. -/
def Queue.failsWait (q : Queue) : Bool := q.failed.all fun r => q.openPos.any (· < r.1)

/-- No two entries stand in one slot of a held area. -/
abbrev Chip.slotsApart (c : Chip) : Prop := (c.tg.held.map fun e => (e.fn, e.slot)).Nodup

/-- What the held areas show: function, slot, entry and release of each entry. -/
def Chip.heldView (c : Chip) : List (Nat × Nat × Entry × Bool) := c.tg.held.map fun e => (e.fn, e.slot, e.entry, e.released)

/-- The same view with the entries of counter `n` released whose threshold `v` reaches. -/
def Chip.heldReached (c : Chip) (n v : Nat) : List (Nat × Nat × Entry × Bool) :=
  c.tg.held.map fun e =>
    (e.fn, e.slot, e.entry, e.released || (e.ctr == n && decide (e.thresh.toNat ≤ v) && (c.queue? (e.fn / 256) e.qn).isSome))

/-- The SQ entry has been consumed: CI and the position have advanced by one. -/
def Chip.took (d : Chip) (h qn : Nat) (q : Queue) : Prop :=
  ∃ q', d.queue? h qn = some q' ∧ q'.ci = q.ci + 1 ∧ q'.pi = q.pi ∧ q'.nextPos = q.nextPos + 1

/-- A completion of queue `qn` has been written as the next entry of the CQ `cq`, with its status and the time. -/
def Chip.tells (d c : Chip) (h qn cqn : Nat) (cq : Queue) (p : Completion) (status : Nat) : Prop :=
  .completion h cq.fn cqn (slotAddr cq.ring cq.logSize 32 cq.pi)
    { p with status := BitVec.ofNat 8 status, qn := BitVec.ofNat 24 qn, time := BitVec.ofNat 48 c.tb.time.toNat }.words ∈ d.out

/-- Such a completion, and no other on that CQ. -/
def Chip.wrote (d c : Chip) (h qn cqn : Nat) (cq : Queue) (p : Completion) (status : Nat) : Prop :=
  (∃ y, d.queue? h cqn = some y ∧ y.pi = cq.pi + 1) ∧ d.tells c h qn cqn cq p status

/-- The completion of an SQ entry that fails before injection. -/
def failedCompletion (e : Entry) (status : Nat) : Completion :=
  { wrid := e.wrid, status := BitVec.ofNat 8 status, opcode := BitVec.ofNat 8 e.opcode, peer := sendPeer e }

/-- An entry of an SQ that fails before injection (R190): while an earlier entry is open it waits behind it; with none open it
completes on its CQ, where that has room. -/
def Chip.failsEntry (d c : Chip) (h qn : Nat) (q : Queue) (e : Entry) (status : Nat) : Prop :=
  (q.failed = [] → (∃ o ∈ q.openPos, o < q.nextPos) →
    ∃ q', d.queue? h qn = some q' ∧ q'.ci = q.ci + 1 ∧ q'.failed = [(q.nextPos, failedCompletion e status)] ∧
      q'.openPos = q.openPos ++ [q.nextPos]) ∧
  (q.failed = [] → q.openPos = [] → ∀ cq, c.queue? h q.cqn = some cq → c.cqRoom h q.cqn cq = true → c.hostServed cq.fn = true →
    d.took h qn q ∧ d.wrote c h qn q.cqn cq (failedCompletion e status) status)

/-- The status of a refused key check. -/
def KeyCheck.refusal : KeyCheck → Option Nat
  | .refused st => some st
  | _ => none

/-- The status with which an SQ entry with the source data given fails before injection: its destination cannot be reached, or its
buffer is refused or unreadable (R168, R190, R290). -/
def Chip.entryFails (c : Chip) (fn : Nat) (e : Entry) (data : SourceData) : Option Nat :=
  (c.preFail e.dest).or
    (if e.opcode = 0x20 then if e.length = 0 then none else (c.localCheck fn e.lkey e.laddr e.length true).refusal
     else if 0x30 ≤ e.opcode then none
     else if c.offered e then (c.localCheck fn e.lkey e.laddr e.length false).refusal
     else (c.sourceOf fn e data).2.bind Sum.getLeft?)

/-- A response that the send half of its channel takes: checked, for an enabled host port, well formed, its channel `x`. -/
def Chip.hears (c : Chip) (h : Nat) (p : Packet) (x : Chan) : Bool :=
  p.checkOk && c.hostEnabled h && !responseBad p && c.chan? (respKey h p) == some x && (x.sendState == .syncing || x.sendState == .active)

/-- What every response that is heard leaves (R169, R192): it no longer waits, the suspect mark of its chip is clear, and where it carries
ECNE, or is READ DATA with ECN, the window of that chip has halved, at most once in P21.042. -/
def Chip.heard (c : Chip) (p : Packet) : Chip := (c.taken p).hearResponse p

/-- The operation `a` is the only one of the channel, sent and undecided; its SQ `q` has no failed entry, and the CQ `cq` has room for
its completion and is served. -/
def Chip.opAnswers (c : Chip) (k : Nat) (x : Chan) (a : SendOp) (q cq : Queue) : Bool :=
  x.ops == [a] && a.started && a.status.isNone && a.unsent.isEmpty && a.lastChunk && !a.silent && !a.held && a.soffer.isNone &&
  a.window.isNone && a.toffer.isNone && c.queue? (chHost k) a.qn == some q && q.kind == .sq && q.failed.isEmpty && !c.silentFn a.fn &&
  c.cqRoom (chHost k) q.cqn cq && c.hostServed cq.fn

/-- That operation has ended with a status: it has left the channel; with a failure, or where it signals, its completion is written, with
a free LENGTH where it failed (R151); with 0x05, 0x06 or 0x11 its SQ, if active, is in error (R190). -/
def Chip.opEnded (d c : Chip) (k : Nat) (a : SendOp) (q cq : Queue) (status : Nat) : Prop :=
  (∃ y, d.chan? k = some y ∧ y.ops = []) ∧
  (status ≠ 0 ∨ a.signal = true → ∃ n : Nat, d.tells c (chHost k) a.qn q.cqn cq (a.completion status n) status) ∧
  (status ∈ [0x05, 0x06, 0x11] → q.state = .active → ∃ q', d.queue? (chHost k) a.qn = some q' ∧ q'.state = .error)

/-- The writes of bytes to bus addresses, segment by segment. -/
def Chip.dmaWrites (c : Chip) (fn : Nat) : List (Nat × Nat) → List Byte → List Output
  | [], _ => []
  | (a, n) :: r, l => .dma (fn / 256) fn a (l.take n) (c.fn fn).relaxedOrdering :: c.dmaWrites fn r (l.drop n)

/-- The bytes stand where a key check has placed them: in fabric memory, every other byte of which is as it was, or written to the pages of
the region, fabric memory as it was, where the host port carries DMA of the function. -/
def Chip.placedAt (d c : Chip) (k : KeyCheck) (l : List Byte) : Prop :=
  match k with
  | .refused _ => d.mem.hbm = c.mem.hbm
  | .fabric a => d.mem.read a l.length = l ∧ ∀ b, (b < a ∨ a + l.length ≤ b) → d.mem.byte b = c.mem.byte b
  | .host fn i off =>
    d.mem.hbm = c.mem.hbm ∧ (c.hostServed fn = true → ∀ r, Tab.get? c.mem.regions i = some r →
      ∀ segs, (c.translate fn (r.run off l.length)).2 = some segs → ∀ o ∈ c.dmaWrites fn segs l, o ∈ d.out)

/-- A request packet that reaches the receive half `x` of its channel: checked, for an enabled host port, every context it needs at hand. -/
def Chip.reaches (c : Chip) (h : Nat) (p : Packet) (miss : Option CtxKey) (x : Chan) : Bool :=
  p.checkOk && c.hostEnabled h && c.chan? (reqKey h p) == some x && (c.missed? h (reqKey h p) p miss).isNone

/-- It is well formed, no SYNC, and comes to a half that has synchronised and has no ended message whose turn has come; no waiting TAGGED
RECV takes effect before it. -/
def Chip.reachesOpen (c : Chip) (h : Nat) (p : Packet) (miss : Option CtxKey) (x : Chan) : Bool :=
  c.reaches h p miss x && x.synced && !isSync p && !p.malformed && (x.msg? x.nextDone).all (fun r => !r.ended) &&
  (p.kind != 1 || p.opcode == 1 || c.mt.waiting.all fun r => waitCtx r != ctxKey h p.mctx)

/-- The PSN lies in the window of the half and has not been received. -/
def Chan.fresh (x : Chan) (p : Packet) : Bool := decide ((p.psn - x.base).toNat < 1024) && !x.bitmap.getLsbD (p.psn - x.base).toNat

/-- The half takes the packet now: in its window, not received, its turn if it is ordered, of a message that is neither over nor abandoned and
has an order record if it needs one, for no function that is going; and nothing else waits for just this packet. -/
def Chip.expects (c : Chip) (h : Nat) (p : Packet) (miss : Option CtxKey) (x : Chan) : Bool :=
  c.reachesOpen h p miss x && x.fresh p && (!p.ord || p.psn == x.base) &&
  ((x.msg? p.msgid).elim (decide ((p.msgid - x.nextDone).toNat < 2 ^ 31) && !c.orderFull x p.msgid) fun r => !r.abandoned) &&
  !((c.ownersOf h p).any c.goneFn) && x.ordWaiting.all (fun q => q.psn != (x.received p.psn).base) &&
  !(p.msgid == x.resolve && x.recorded.contains (x.resolve + 1))

/-- The receive half has taken the PSN of the packet into its window. -/
def Chip.recorded (c : Chip) (h : Nat) (p : Packet) (x : Chan) : Prop :=
  ∃ y, c.chan? (reqKey h p) = some y ∧ y.base = (x.received p.psn).base ∧ y.bitmap = (x.received p.psn).bitmap

/-- The window of the receive half is as it was. -/
def Chip.unrecorded (c : Chip) (h : Nat) (p : Packet) (x : Chan) : Prop :=
  ∃ y, c.chan? (reqKey h p) = some y ∧ y.base = x.base ∧ y.bitmap = x.bitmap

/-- Where a packet of a message goes into the buffer of a receive entry of function `fn`: the check of the buffer's key, and the bytes that fit. -/
def Chip.bufferPlace (c : Chip) (fn : Nat) (e : Entry) (p : Packet) : KeyCheck × List Byte :=
  let n := min p.payload.length (e.length - 4096 * p.pidx)
  (c.localCheck fn e.rLkey (e.rLaddr + 4096 * p.pidx) n true, p.payload.take n)

/-- The status that the placing gives the message: that of a buffer that is refused, 0x10 where not all fits, else 0. -/
def Chip.bufferStatus (c : Chip) (fn : Nat) (e : Entry) (p : Packet) : Nat :=
  let (k, l) := c.bufferPlace fn e p
  ((if l = [] then none else (c.place k l 2).2)).getD (if l.length < p.payload.length then 0x10 else 0)

/-- The bytes that fit have been placed in the buffer, unless it is refused; nothing else of fabric memory has changed. -/
def Chip.intoBuffer (d c : Chip) (fn : Nat) (e : Entry) (p : Packet) : Prop :=
  let (k, l) := c.bufferPlace fn e p
  if l = [] ∨ (c.place k l 2).2 ≠ none then d.mem.hbm = c.mem.hbm else d.placedAt c k l

/-- The packets that have entered the router core between two moments. -/
def Chip.entered (c old : Chip) : List Packet := (c.rt.arrivals.drop old.rt.arrivals.length).map (·.pkt)

/-- A response of a kind, with its status, to the request packet has entered the router core. -/
def Chip.answered (d c : Chip) (p : Packet) (op status : Nat) : Prop :=
  ∃ a ∈ d.entered c, a.opcode = op ∧ a.dst = p.src ∧ a.rpsn = p.psn ∧ a.status = status

/-- READ DATA with these bytes, packet by packet, has entered the router core. -/
def Chip.answeredData (d c : Chip) (p : Packet) (l : List Byte) : Prop :=
  ∀ i < packetsOf l.length, ∃ a ∈ d.entered c, a.opcode = 0x83 ∧ a.dst = p.src ∧ a.rpsn = p.psn ∧ a.pidx = i ∧
    a.payload = (l.drop (4096 * i)).take 4096

/-- No fence stands and no local member of the membership has been disabled. -/
def Chip.collQuiet (c : Chip) (m : Nat) : Bool := c.rt.fenced.isEmpty && !c.co.barred.contains m

/-- The operations of the membership have each its own CSEQ, none has ended, and a decided entry still open waits for its turn or for COL. -/
def Chip.collTidy (c : Chip) (m : Nat) : Bool :=
  decide ((c.collOps m).map (·.cseq)).Nodup && (c.collOps m).all fun a => !c.collFinished a && a.posts.all fun x =>
    x.done || x.status.isNone || c.earlierOpen a x.host || (decide (a.opcode ≤ 0x61) && !c.clusterUp 3)

/-- A port has handed over a tree packet whose turn it is, it passes every check on arrival, and the operation `o` of membership `m`, open or
just opened by it, takes it; no fence stands, no member is barred, and the membership is tidy. -/
def Chip.collTakes (c : Chip) (port : Nat) (p : Packet) (m : Nat) (o : COp) : Bool :=
  (c.oldestTree port p || p.opcode == 0x68 && c.co.arrivals.contains (port, p)) && (c.admitTree port p).2 == some m && c.collQuiet m && c.collTidy m &&
  match c.collOp? m p.cseq with
  | some a => a == o && a.startedAt.isSome && decide (4 ≤ (p.cseq - c.nextCseq m).toNat)
  | none => c.nextCseq m == p.cseq && o == { COp.init with slot := m, cseq := p.cseq, startedAt := some c.now }

/-- Nothing has come down for the operation and it is not aborted. -/
def COp.rising (o : COp) : Bool :=
  !o.downArrived && !o.doneDown && o.abort.isNone && o.abortDue.isNone && o.segs.all fun r => !r.2.gotDown

/-- The local entry `x` is the only one of the operation, undecided, of an SQ `q` whose CQ `cq` has room and is served. -/
def Chip.collPost (c : Chip) (o : COp) (x : CPost) (q cq : Queue) : Bool :=
  o.posts == [x] && x.status.isNone && !x.done && c.queue? x.host x.qn == some q && q.kind == .sq &&
  q.failed.isEmpty && !c.silentFn x.fn && c.cqRoom x.host q.cqn cq && c.hostServed cq.fn

/-- The completion of that entry with a status (R270): written where it fails or signals, with LENGTH the bytes written to it and RESULT the
pruned members where they are told. -/
def Chip.postTold (d c : Chip) (x : CPost) (q cq : Queue) (status pruned : Nat) : Prop :=
  status ≠ 0 ∨ x.entry.signal = true → d.wrote c x.host x.qn q.cqn cq
    { wrid := x.entry.wrid, opcode := BitVec.ofNat 8 x.entry.opcode, length := BitVec.ofNat 32 x.written
      result := if status = 0x0F then BitVec.ofNat 64 pruned else 0 } status

/-- A source of a unit that reports has occurred (R454). -/
def Chip.noted (d c : Chip) (u k : Nat) : Prop :=
  c.flt.inReset.contains u = false → c.flt.heldUnits.contains u = false → (d.src u k).pend = true

/-- RB7 of a registration block has been written, where the host port carries DMA of the function (R286, R287). -/
def Chip.rb7 (d c : Chip) (fn addr result key : Nat) : Prop :=
  c.hostServed fn = true → .dma (fn / 256) fn (addr + 56) (Word.le (mkWord [(1, 63), (result, 48), (key, 0)])) false ∈ d.out

/-- The bridge has nothing under way at a host port that fails before injection: its operations and its open merge all go
to destinations that no fence closes and a route reaches. -/
def Chip.bridgeClear (c : Chip) (h : Nat) : Bool :=
  (c.br.ops.all fun o => (c.preFail o.ep).isNone) && ((Tab.get? c.br.merges h).all fun m => (c.preFail m.ep).isNone)

/-- A key check has not refused the access. -/
def KeyCheck.allowed : KeyCheck → Bool
  | .refused _ => false
  | _ => true

end Sys2Proof.Machine
end

