-- ==== Sys2Proof/Certificates/Slice0/Obligations.lean ====
section
/-! DEFINITION. The statements for the provers, by family of commands. -/

open Sys2Proof Sys2Proof.Machine

/-! ### Steps, and what every step keeps -/

/-- With a command at the front of the queue, the step is exec of it on the state with the queue's rest (the form of a
block). -/
def Obligations.AStepRunsTheFrontCommand : Prop :=
  ∀ (s : State) (i : Instr), step (s.withFront i) = exec i s

/-- On an empty queue the block idles (log entry 1), and every command whatever answers a next state: no command stops the
block, none changes the waiting commands, and as many steps as commands wait take them all, first in, first out. -/
def Obligations.QueuedCommandsAllRun : Prop :=
  (∀ s : State, s.pending = [] → step s = .next s) ∧
  (∀ (s : State) (i : Instr), ∃ c : Chip, exec i s = .next ⟨c, s.pending⟩) ∧
  ∀ (l : List Instr) (c : Chip), ∃ d : Chip, core.run l.length (⟨c, l⟩ : State) = .next (⟨d, []⟩ : State)

/-- Fabric memory is in its canonical form at reset, and nothing is listed. -/
def Obligations.ResetMemoryIsCanonical : Prop :=
 State.reset.memoryCanonical ∧ State.reset.chip.mem.hbm = []

/-- Every step keeps fabric memory in its canonical form: written bytes at strictly rising addresses. -/
def Obligations.EveryStepKeepsMemoryCanonical : Prop :=
  ∀ s t : State, s.memoryCanonical → step s = .next t → t.memoryCanonical

/-- R1, R3, R510: no step changes which chip it is: the fused variant and serial number. -/
def Obligations.EveryStepKeepsTheFusedIdentity : Prop :=
  ∀ s t : State, step s = .next t → t.chip.variant = s.chip.variant ∧ t.chip.serial = s.chip.serial

/-- R484: at reset no function, queue, channel, link, held chunk, staged value or fault stands, no parameter has a written
value, and every parameter reads its default (the values that a log entry names are not stated here). -/
def Obligations.ResetLeavesDefaults : Prop :=
  State.reset.chip.funcs = [] ∧ State.reset.chip.queues = [] ∧ State.reset.chip.links = [] ∧ State.reset.chip.tr.chans = [] ∧
  State.reset.chip.dict.held = [] ∧ State.reset.chip.dict.staged = [] ∧ State.reset.chip.flt.sources = [] ∧
  State.reset.pending = [] ∧
  ∀ area obj e, State.reset.chip.param area obj e =
    pDefault State.reset.chip.variant State.reset.chip.serial State.reset.chip.boot.strapLatch area obj e

/-! ### Power, reset and boot -/

/-- R479, R480, R484, R509: power comes on with RESET_N low, no override and no last fatal record, and nothing of queues,
links and fabric memory is left; the die is the same. RESET_N low holds a chip that is not tripped in reset: queues, links,
fabric memory and written parameters are gone, the override and the last fatal record stay, and the banks stay where no save
is in progress. A tripped chip stays tripped. RESET_N high takes a chip that is held to the boot and latches the straps, or
the override in their place. While RESET_N is low an override is taken, and the latch does not follow it. -/
def Obligations.ResetPinsActFirst : Prop :=
  ∀ s : State,
    Completes .powerOn s (fun d =>
      d.boot.phase = .held ∧ d.boot.resetLow = true ∧ d.boot.overrideValid = false ∧ d.boot.lastFatal = [] ∧ d.dict = Dict.init ∧
      d.queues = [] ∧ d.links = [] ∧ d.mem.hbm = [] ∧ d.variant = s.chip.variant ∧ d.serial = s.chip.serial) ∧
    (s.chip.boot.phase ≠ .tripped →
      Completes .resetNAssert s fun d =>
        d.boot.phase = .held ∧ d.boot.resetLow = true ∧ d.boot.overrideId = s.chip.boot.overrideId ∧
        d.boot.lastFatal = s.chip.boot.lastFatal ∧ d.queues = [] ∧ d.links = [] ∧ d.mem.hbm = [] ∧ d.dict.active = [] ∧
        (s.chip.flash.saveJob = none → d.flash.banks = s.chip.flash.banks)) ∧
    (s.chip.calm = true → s.chip.boot.phase = .tripped →
      Completes .resetNAssert s fun d => d.boot.phase = .tripped ∧ d.boot.resetLow = true) ∧
    (∀ grp pos, s.chip.calm = true → s.chip.boot.phase = .held →
      Completes (.resetNRelease grp pos) s fun d =>
        d.boot.phase = .booting ∧ d.boot.resetLow = false ∧ d.mem = s.chip.mem ∧
        d.boot.strapLatch = (if s.chip.boot.overrideValid then s.chip.boot.overrideId else grp.toNat * 32 + pos.toNat)) ∧
    (∀ v, s.chip.calm = true → s.chip.boot.resetLow = true →
      Completes (.strapOverrideWrite v) s fun d =>
        d.boot.overrideValid = v.getLsbD 31 ∧ d.boot.overrideId = v.toNat % 32768 ∧ d.boot.strapLatch = s.chip.boot.strapLatch ∧
        d.boot.phase = s.chip.boot.phase)

/-- R478, R479, R483: on a calm chip that boots, the end of the load starts the boot slot on every cluster where it
verifies; else the other slot where that one verifies (stated where the reaction to the fault that it raises is 0 to 2), the
boot slot keeping its name; else the recovery service begins, with FAULT_N for it. From a loaded chip JIG_SERVICE_UP makes
the Jig service run, the regions of HBM at the sizes of P28.001, and fabric memory as it was, wherever that leaves nothing
to carry out (a fault of the loading whose reaction resets would). In the Jig service a commit of P38.040 whose T has come,
by its holder or class F, with set 10 committed and the host areas provided, begins full service, wherever that leaves
nothing to carry out. -/
def Obligations.BootReachesService : Prop :=
  ∀ s : State, s.chip.calm = true →
    let f := s.chip.flash
    let b := f.bootSlot
    (s.chip.boot.phase = .booting → (f.slot b).checked.state = 2 →
      Completes .bootLoadComplete s fun d =>
        d.boot.phase = .loaded ∧ d.fw.bootSlot = b ∧ d.fw.running = (List.range 6).map (fun i => (i, b)) ∧
        d.flash.slot b = (f.slot b).checked ∧ d.mem = s.chip.mem) ∧
    (s.chip.boot.phase = .booting → (f.slot b).checked.state ≠ 2 → (f.slot (1 - b)).checked.state = 2 →
      s.chip.reactionOf 0x90 0x103 ≤ 2 →
      Completes .bootLoadComplete s fun d =>
        d.boot.phase = .loaded ∧ d.fw.bootSlot = b ∧ d.fw.running = (List.range 6).map (fun i => (i, 1 - b)) ∧ d.mem = s.chip.mem) ∧
    (s.chip.boot.phase = .booting → (f.slot b).checked.state ≠ 2 → (f.slot (1 - b)).checked.state ≠ 2 →
      Completes .bootLoadComplete s fun d =>
        d.boot.phase = .recovery ∧ d.boot.faultInRecovery = true ∧ d.fw.bootSlot = b ∧ d.mem = s.chip.mem) ∧
    (s.chip.boot.phase = .loaded → s.chip.jigUp.calm = true →
      Completes .jigServiceUp s fun d =>
        d.boot.phase = .jig ∧ (∀ i, i < 7 → Tab.get d.mem.regionMiB i 0 = d.param 0x28 0x001 i) ∧ d.mem.hbm = s.chip.mem.hbm) ∧
    (∀ (w : Writer) (t : Word), s.chip.boot.phase = .jig → s.chip.mayWrite w (pnum 0x01 0x001 0x38) = true →
      (s.chip.applySet 0x38).phase = .staging → (s.chip.applySet 0x38).holder = some w ∨ w.isF = true →
      Tab.get? s.chip.dict.staged (pnum 0x38 0x040 0) = some 1 → s.chip.dict.committed10 = true → s.chip.areasGiven = true →
      t.toNat ≤ s.chip.tb.time.toNat → (s.chip.numWrite w 0x01 0x001 0x38 8 t.toNat).calm = true →
      Completes (.commit w 0x38 t) s fun d => d.boot.phase = .full ∧ d.mem.hbm = s.chip.mem.hbm)

/-- R22, R485, R487: on a calm chip a write of P38.030 restarts a running cluster: P38.031 of it reads 1, of every other one
as before, and the write is answered with status 0. When the restart ends, and that leaves nothing to carry out, the cluster
runs again, from the slot that a restarting cluster is loaded from (the boot slot, or the other one where only that one
verifies: log entry 118, DEDUCED); where ACTIVATE is under way at this cluster, the next one of its list, if it runs,
restarts. -/
def Obligations.ClustersRestart : Prop :=
  ∀ (s : State) (u : Nat), 0x90 ≤ u → u < 0x96 →
    (∀ w, s.chip.calm = true → s.chip.mayWrite w (pnum 0x38 0x030 0) = true → s.chip.clusterUp (u - 0x90) = true →
      Completes (.clusterRestart w u) s fun d =>
        Tab.get d.fw.clusters (u - 0x90) 0 = 1 ∧ d.out = s.chip.out ++ [.dictReply w 0 []] ∧ d.mem = s.chip.mem ∧
        ∀ i, i ≠ u - 0x90 → Tab.get d.fw.clusters i 0 = Tab.get s.chip.fw.clusters i 0) ∧
    (Tab.get s.chip.fw.clusters (u - 0x90) 0 = 1 → (s.chip.clusterBack u).calm = true → s.chip.fw.activate = [] →
      Completes (.clusterRestartComplete u) s fun d =>
        d.clusterUp (u - 0x90) = true ∧
        Tab.get? d.fw.running (u - 0x90) = some (s.chip.flash.loadSlot s.chip.fw.bootSlot) ∧ d.boot = s.chip.boot) ∧
    (∀ j l, Tab.get s.chip.fw.clusters (u - 0x90) 0 = 1 → (s.chip.clusterBack u).calm = true →
      s.chip.fw.activate = (u - 0x90) :: j :: l → j ≠ u - 0x90 → s.chip.clusterUp j = true →
      Completes (.clusterRestartComplete u) s fun d =>
        d.clusterUp (u - 0x90) = true ∧ Tab.get d.fw.clusters j 0 = 1 ∧ d.fw.activate = j :: l ∧
        Tab.get? d.fw.running (u - 0x90) = some (s.chip.flash.loadSlot s.chip.fw.bootSlot))

/-- R485, R487: on a calm chip, by a writer that may write P38.021 or P38.020. BEGIN, where no cluster runs the other slot,
no VERIFY or ACTIVATE is under way and no flash write, makes that slot incomplete and erases it, the banks staying; its end
frees the flash and leaves state 2 and result 0, or state 8 and 0x0C where the flash failed. In state 2 a block of 524,288
octets occupies the flash; its end puts it in the other slot, result 0, or leaves the slots and gives state 8 and 0x0C. In
state 2 VERIFY begins; its end gives state 4 where the image verifies, else 8. R476, R486, R487: on the same terms, in state
4 with the other slot verified, SWITCH erases the pointer location without the newest valid record, the chip's boot slot
staying; its end writes there a valid record of the next generation, which names that slot as the boot slot, and gives state
6, or, where the flash failed, changes no record and gives state 8. In state 6 ACTIVATE gives state 7 and restarts the
clusters one after the other, FLT first. -/
def Obligations.UpdatesFillAndNameTheOtherSlot : Prop :=
  (∀ (s : State) (w : Writer), s.chip.calm = true →
      (s.chip.mayWrite w (pnum 0x38 0x021 0) = true → s.chip.runsOther = false → s.chip.fw.updateState ≠ 3 → s.chip.fw.updateState ≠ 7 →
        s.chip.flash.op = none →
        Completes (.beginUpdate w) s fun d =>
          d.fw.updateState = 1 ∧ d.flash.op = some .erase ∧ d.flash.slot s.chip.otherSlot = { state := 1 } ∧
          d.flash.banks = s.chip.flash.banks ∧ d.out = s.chip.out ++ [.dictReply w 0 []]) ∧
      (∀ ok, s.chip.flash.op = some .erase →
        Completes (.beginComplete ok) s fun d =>
          d.flash.op = none ∧ d.fw.updateState = (if ok then 2 else 8) ∧ d.fw.updateResult = (if ok then 0 else 0x0C)) ∧
      (∀ (k : Nat) (l : List Byte), s.chip.mayWrite w (pnum 0x38 0x020 k) = true → k < 4096 → l.length = 524288 → s.chip.fw.updateState = 2 →
        s.chip.flash.op = none →
        Completes (.updateBlock w k l) s fun d =>
          d.flash.op = some .block ∧ d.flash.blockJob = some (k, l) ∧ d.flash.slots = s.chip.flash.slots ∧
          d.out = s.chip.out ++ [.dictReply w 0 []]) ∧
      (∀ k l, s.chip.flash.blockJob = some (k, l) →
        Completes (.updateBlockComplete true) s (fun d =>
          Tab.get? (d.flash.slot s.chip.otherSlot).blocks k = some l ∧ d.flash.op = none ∧ d.fw.updateResult = 0) ∧
        Completes (.updateBlockComplete false) s fun d =>
          d.flash.slots = s.chip.flash.slots ∧ d.flash.op = none ∧ d.fw.updateState = 8 ∧ d.fw.updateResult = 0x0C) ∧
      (s.chip.mayWrite w (pnum 0x38 0x021 0) = true → s.chip.fw.updateState = 2 →
        Completes (.verify w) s fun d =>
          d.fw.updateState = 3 ∧ d.fw.verifying = true ∧ d.flash = s.chip.flash ∧ d.out = s.chip.out ++ [.dictReply w 0 []]) ∧
      (s.chip.fw.verifying = true →
        Completes .verifyComplete s fun d =>
          d.flash.slot s.chip.otherSlot = (s.chip.flash.slot s.chip.otherSlot).checked ∧ d.fw.verifying = false ∧
          d.fw.updateState = (if (s.chip.flash.slot s.chip.otherSlot).checked.state = 2 then 4 else 8)))
  ∧ (∀ (s : State) (w : Writer), s.chip.calm = true →
      (s.chip.mayWrite w (pnum 0x38 0x021 0) = true → s.chip.fw.updateState = 4 → (s.chip.flash.slot s.chip.otherSlot).state = 2 →
        s.chip.flash.op = none → s.chip.flash.ptrGeneration < 0xFFFFFFFE →
        Completes (.switch w) s fun d =>
          d.fw.updateState = 5 ∧ d.flash.op = some .switch ∧ d.fw.switchTo = some s.chip.otherSlot ∧
          Tab.get? d.flash.ptrs s.chip.flash.switchLocation = none ∧ d.flash.bootSlot = s.chip.flash.bootSlot ∧
          d.flash.slots = s.chip.flash.slots ∧ d.out = s.chip.out ++ [.dictReply w 0 []]) ∧
      (∀ k, s.chip.fw.switchTo = some k → k ≤ 1 → s.chip.flash.ptrGeneration < 0xFFFFFFFE →
        Completes (.switchComplete true) s fun d =>
          ptrValid (Tab.get d.flash.ptrs s.chip.flash.switchLocation []) = true ∧ d.flash.bootSlot = k ∧ d.fw.bootSlot = k ∧ d.flash.ptrGeneration = s.chip.flash.ptrGeneration + 1 ∧
          d.flash.op = none ∧ d.fw.updateState = 6 ∧ d.flash.slots = s.chip.flash.slots) ∧
      (∀ k, s.chip.fw.switchTo = some k →
        Completes (.switchComplete false) s fun d =>
          d.flash.ptrs = s.chip.flash.ptrs ∧ d.fw.bootSlot = s.chip.fw.bootSlot ∧ d.flash.op = none ∧ d.fw.updateState = 8) ∧
      (s.chip.mayWrite w (pnum 0x38 0x021 0) = true → s.chip.fw.updateState = 6 → s.chip.clusterUp 4 = true →
        Completes (.activate w) s fun d =>
          d.fw.updateState = 7 ∧ d.fw.activate = [4, 5, 3, 2, 1, 0] ∧ Tab.get d.fw.clusters 4 0 = 1 ∧ d.flash = s.chip.flash ∧
          d.out = s.chip.out ++ [.dictReply w 0 []]))

/-! ### Faults -/

/-- R454, R455, R462, R464, R467, R468, R469: an occurrence of a source of a present unit that is in no block reset and not
held, of reaction 0 to 2, where it leaves nothing to carry out. It counts (saturating) and pends, and a condition source
becomes present (an absent one is the form stated). Records whose time has come close first. Then an open record of the same
source, cause and subject merges it, below the saturating count; where none does and fewer than 2,047 slots are used, a
record opens; else it is unrecorded. The record is stated of every unit but the lane macros, whose stalled ports drop and
reroute packets. SKIND and SUBJECT are as reported for a cause that the catalogue names, else 11 and the unit. A stalled
handshake is cause 0x004 of its unit, which counts as stalled from then on (the model's choice, log entry 115). -/
def Obligations.OccurrencesAreCountedAndRecorded : Prop :=
  ∀ (s : State) (u k : Nat), s.chip.ticking = true → unitPresent s.chip.variant u = true →
    isCause u k = true → s.chip.unitStopped u = false → s.chip.reactionOf u k ≤ 2 →
    let c := s.chip
    let standing := c.flt.openRecs.filter fun r => decide (c.now < r.closeAt)
    let same (skind subject : Nat) (r : Record) : Bool :=
      r.source == c.source u && r.cause == k && r.skind == skind && r.subject == subject
    let counted (d : Chip) : Prop :=
      (d.src u k).pend = true ∧
      (d.src u k).occur = (if (c.src u k).occur < 0xFFFFFFFF then (c.src u k).occur + 1 else (c.src u k).occur)
    let recorded (skind subject : Nat) (d : Chip) : Prop :=
      (standing.find? (same skind subject) = none → c.flt.used < 2047 →
        ∃ r, d.flt.openRecs = standing ++ [r] ∧ r.source = c.source u ∧ r.cause = k ∧ r.count = 1 ∧ r.skind = skind ∧
          r.subject = subject ∧ r.first = c.tb.time ∧ r.last = c.tb.time ∧ r.closeAt = c.now + 1000 * c.param 0x30 0xF00 0) ∧
      (standing.find? (same skind subject) = none → 2047 ≤ c.flt.used →
        d.flt.openRecs = standing ∧ d.flt.unrecorded = c.flt.unrecorded + 1) ∧
      (∀ r, standing.find? (same skind subject) = some r → r.count + 1 ≠ 0xFFFFFFFF →
        d.flt.openRecs = mapIf (same skind subject) (fun _ => { r with last := c.tb.time, count := r.count + 1, sat := false }) standing)
    (∀ skind subject, skind < 13 → (c.reportFault u k skind subject).calm = true →
      ((sourceInfo u k).cond = true → (c.src u k).now = false) →
      Completes (.faultOccurrence u k skind subject) s fun d =>
        counted d ∧ (d.src u k).now = ((c.src u k).now || (sourceInfo u k).cond) ∧
        (u < 0x40 ∨ 0x5E ≤ u →
          recorded (if namedCause u k then skind else 11) (if namedCause u k then subject else u) d ∧ d.dict = c.dict ∧
          d.mem = c.mem ∧ d.tb = c.tb)) ∧
    (k = 4 → (c.stall u).calm = true →
      Completes (.handshakeStall u) s fun d =>
        counted d ∧ u ∈ d.flt.stalled ∧ (u < 0x40 ∨ 0x5E ≤ u → recorded 11 u d ∧ d.dict = c.dict ∧ d.mem = c.mem))

/-- R455, R457, R459, R473, R484: an occurrence, of an event source or of an absent condition, in a present unit that is in
no block reset and not held. Of reaction 4, it resets the chip, which boots again with eight words in P30.F30, of a record
of that source and cause for an event source. Of reaction 3, on a calm chip where the unit's block reset leaves nothing to
carry out: the unit is in block reset, which is noted with its time, or, where it had P30.F03 of them within P30.F04
seconds, it is held instead, and its sources say so. -/
def Obligations.HeavyFaultsReset : Prop :=
  ∀ (s : State) (u k skind subject : Nat), s.chip.ticking = true → unitPresent s.chip.variant u = true →
    isCause u k = true → s.chip.unitStopped u = false → skind < 13 →
    ((sourceInfo u k).cond = true → (s.chip.src u k).now = false) →
    let after := (s.chip.reportFault u k skind subject).afterReset u
    (s.chip.reactionOf u k = 4 →
      Completes (.faultOccurrence u k skind subject) s fun d =>
        d.boot.phase = .booting ∧ d.boot.lastFatal.length = 8 ∧ d.boot.strapLatch = s.chip.boot.strapLatch ∧ d.queues = [] ∧
        d.links = [] ∧ d.flt = Faults.init ∧ d.mem.hbm = [] ∧
        ((sourceInfo u k).cond = false → ∃ r : Record, d.boot.lastFatal = recWords r ∧ r.source = s.chip.source u ∧ r.cause = k)) ∧
    (s.chip.reactionOf u k = 3 → s.chip.calm = true → after.calm = true → s.chip.recentResets u < s.chip.param 0x30 0xF03 0 →
      Completes (.faultOccurrence u k skind subject) s fun d =>
        u ∈ d.flt.inReset ∧ d.flt.resets = (u, s.chip.now) :: s.chip.flt.resets ∧ d.flt.heldUnits = s.chip.flt.heldUnits ∧
        (d.src u k).pend = true) ∧
    (s.chip.reactionOf u k = 3 → s.chip.calm = true → after.calm = true → s.chip.param 0x30 0xF03 0 ≤ s.chip.recentResets u →
      Completes (.faultOccurrence u k skind subject) s fun d =>
        u ∈ d.flt.heldUnits ∧ d.flt.inReset = s.chip.flt.inReset ∧ (d.src u k).held = true)

/-- R459, R462, R463, R484: by a writer that may write the row, on a calm chip in service, a write of a source's status row
clears PEND where bit 0 is 1 and the condition is absent, and changes neither the count nor the condition. A unit in block
reset leaves it when that ends, and a cluster that restarts runs again, where that leaves nothing to carry out. A write of
P30.F05 that names a held unit releases it: it is held no more, and a cluster restarts instead; one that names another unit
answers 0x07 and releases nothing. R465, R468 to R471: on a calm chip that is not in reset, every open record whose time has
come closes with an RSEQ of its own, counted on from the next one (a single one with that), and the others stay open. In
service, with FLT up, the oldest closed record leaves: it is put, as one packet of eight words, into the fault FIFO, and, at
or above the class of P30.F21, two packets of kinds 0x43 and 0x44 go to each endpoint of P30.F20, else none; where
unrecorded occurrences wait, their own record closes into the place that this frees. -/
def Obligations.SourcesClearAndRecordsLeave : Prop :=
  (∀ (s : State) (w : Writer) (u : Nat),
      (∀ k (v : Word), s.serving → s.chip.mayWrite w (pnum 0x30 (0x100 + u) k) = true → u < 0xE00 → k < 4096 →
        Completes (.sourceStatusClear w u k v) s fun d =>
          d.mem = s.chip.mem ∧ (d.src u k).pend = ((s.chip.src u k).pend && !(v.getLsbD 0 && !(s.chip.src u k).now)) ∧
          (d.src u k).occur = (s.chip.src u k).occur ∧ (d.src u k).now = (s.chip.src u k).now ∧
          d.out = s.chip.out ++ [.dictReply w 0 []]) ∧
      (u ∈ s.chip.flt.inReset → u < 0x90 ∨ 0x96 ≤ u → (s.chip.blockResetDone u).calm = true →
        Completes (.blockResetComplete u) s fun d =>
          d.flt.inReset = s.chip.flt.inReset.erase u ∧ d.flt.heldUnits = s.chip.flt.heldUnits ∧ d.mem = s.chip.mem) ∧
      (0x90 ≤ u → u < 0x96 → Tab.get s.chip.fw.clusters (u - 0x90) 0 = 1 → s.chip.fw.activate = [] →
        (s.chip.blockResetDone u).calm = true →
        Completes (.blockResetComplete u) s fun d =>
          d.clusterUp (u - 0x90) = true ∧ d.flt.inReset = s.chip.flt.inReset.erase u ∧ d.flt.heldUnits = s.chip.flt.heldUnits) ∧
      (s.chip.mayWrite w (pnum 0x30 0xF05 0) = true → s.chip.flt.heldUnits.contains u = true → u < 65536 →
        (s.chip.numWrite w 0x30 0xF05 0 2 u).calm = true →
        Completes (.unitRelease w u) s fun d =>
          d.flt.heldUnits = s.chip.flt.heldUnits.erase u ∧
          (0x90 ≤ u → u < 0x96 → Tab.get d.fw.clusters (u - 0x90) 0 = 1 ∧ u ∈ d.flt.inReset) ∧
          (u < 0x90 ∨ 0x96 ≤ u → d.flt.inReset = s.chip.flt.inReset) ∧ d.mem = s.chip.mem) ∧
      (s.serving → s.chip.mayWrite w (pnum 0x30 0xF05 0) = true → s.chip.flt.heldUnits.contains u = false → u < 65536 →
        Completes (.unitRelease w u) s fun d => d.flt = s.chip.flt ∧ d.out = s.chip.out ++ [.dictReply w 7 []]))
  ∧ (∀ s : State, s.chip.calm = true →
      (s.chip.ticking = true →
        Completes .kerfWindowClose s fun d =>
          let due := s.chip.flt.openRecs.filter fun r => decide (r.closeAt ≤ s.chip.now)
          d.mem = s.chip.mem ∧ d.flt.openRecs = s.chip.flt.openRecs.filter (fun r => decide (s.chip.now < r.closeAt)) ∧
          d.flt.closedRecs.length = s.chip.flt.closedRecs.length + due.length ∧
          d.flt.nextRseq = s.chip.flt.nextRseq + BitVec.ofNat 32 due.length ∧
          (∀ r ∈ due, ∃ x ∈ d.flt.closedRecs, ({ x with rseq := r.rseq } : Record) = r) ∧
          (∀ r, due = [r] → d.flt.closedRecs = s.chip.flt.closedRecs ++ [{ r with rseq := s.chip.flt.nextRseq }]) ∧
          d.flt.sources = s.chip.flt.sources) ∧
      (∀ r rest, s.chip.up = true → s.chip.clusterUp 4 = true → s.chip.flt.closedRecs = r :: rest → s.chip.flt.used ≤ 2047 →
        Completes .recordToFifo s fun d =>
          d.flt.openRecs = s.chip.flt.openRecs ∧ d.fifo 8 = (s.chip.fifo 8).packet (fifoCap 8) (recWords r) ∧
          (s.chip.flt.pendingUnrec = 0 → d.flt.closedRecs = rest) ∧
          (s.chip.flt.pendingUnrec ≠ 0 →
            ∃ x : Record, d.flt.closedRecs = rest ++ [x] ∧ x.cause = 0x100 ∧ x.count = s.chip.flt.pendingUnrec ∧ d.flt.pendingUnrec = 0) ∧
          (d.entered s.chip).map (fun p => (p.kind.toNat, p.dst.toNat)) =
            (if s.chip.param 0x30 0xF21 0 ≤ r.cls then s.chip.recordTargets.flatMap fun e => [(0x43, e), (0x44, e)] else []) ∧
          d.mem = s.chip.mem))

/-! ### The parameter dictionary -/

/-- R56, R57, R38, R510, R23: for a host port that is present, while a service runs and nothing is left to carry out. A
mailbox READ, DESCRIBE or READ STAGED, of the PF or relayed for a VF, completes in its mailbox: GO reads 0, DONE is set, SEQ
counts on, DSTATUS and VALUE_LEN are those of the answer, which on status 0 stands in MBX_DATA, and no parameter changes. A
request with any other OP but WRITE completes so with status 0x04. While the MGT cluster is down, each of them completes
with status 0x03. R56, R57, R511, R512: every mailbox WRITE that leaves nothing to carry out completes: GO 0, DONE 1, SEQ
plus 1. A whole value in MBX_DATA, with FINAL and offset 0, that passes every check of R511 for its writer (the PF, or the
VF that it relays for) is stored, or staged with status 0x01 where the parameter is RWA; an RW or RWN value is stated so
outside areas 13, 18, 20, 21, 28 and 29. Where the parameter or the writer is refused, DSTATUS says why and no parameter
changes. A chunk without FINAL of at most 2,048 bytes is held with status 0. A write of GO while a request runs sets COLLIDE
and changes nothing else of the mailbox, no parameter and no output. -/
def Obligations.MailboxRequestsComplete : Prop :=
  (∀ (s : State) (h vf : Nat) (relay : Bool) (param : BitVec 32), s.serving → s.chip.hasHost h = true →
      let m := s.chip.mailbox h
      let w : Writer := if relay then .tenant h vf else .mailbox h
      let ends (k n : Nat) (d : Chip) : Prop :=
        (d.mailbox h).go = false ∧ (d.mailbox h).done = true ∧ (d.mailbox h).dstatus = k ∧ (d.mailbox h).valueLen = n ∧
        (d.mailbox h).seq = m.seq + 1 ∧ d.dict.active = s.chip.dict.active ∧ d.mem = s.chip.mem
      let answered (op : Nat) (d : Chip) : Prop :=
        let a := s.chip.pathAsk w op param true m.xferOff m.xferLen 2048
        ends a.1 a.2.2 d ∧ (a.1 = 0 → (d.mailbox h).bytes a.2.1.length = a.2.1)
      (s.chip.mgtUp = true →
        Completes (.read h relay vf param) s (answered 1) ∧
        Completes (.describe h relay vf param) s (answered 3) ∧
        Completes (.readStaged h relay vf param) s (answered 4)) ∧
      (∀ op, s.chip.mgtUp = true → op = 0 ∨ 4 < op → Completes (.mbxUnknownOp h op relay vf param) s (ends 4 0)) ∧
      (s.chip.mgtUp = false →
        Completes (.read h relay vf param) s (ends 3 0) ∧
        Completes (.describe h relay vf param) s (ends 3 0) ∧
        Completes (.readStaged h relay vf param) s (ends 3 0)))
  ∧ (∀ (s : State) (h vf : Nat) (relay : Bool) (param : BitVec 32), s.chip.hasHost h = true →
      let m := s.chip.mailbox h
      let w : Writer := if relay then .tenant h vf else .mailbox h
      let ends (c : Chip) : Prop := (c.mailbox h).go = false ∧ (c.mailbox h).done = true ∧ (c.mailbox h).seq = m.seq + 1
      (s.leaves (fun c => c.mbxRequest h 2 relay vf param) → Completes (.write h relay vf param) s ends) ∧
      (∀ (d : Desc) (l : List Byte) (a : PAccess), s.serving → s.chip.mgtUp = true → s.chip.heldAt (.mailbox h) = none →
        descOf s.chip.variant param.toNat = some d → s.chip.passes w param.toNat l = some a →
        a = .rwa ∨ (a = .rw ∨ a = .rwn) ∧ storesOnly param.toNat = true →
        m.final = true → m.xferOff = 0 → m.xferLen = l.length → m.bytes l.length = pathOrder true d l →
        Completes (.write h relay vf param) s fun c =>
          ends c ∧ (c.mailbox h).dstatus = writeStatus a ∧ c.hasWritten s.chip w param.toNat l a ∧ c.mem = s.chip.mem) ∧
      (∀ k, s.serving → s.chip.mgtUp = true → s.chip.reachWrite w param.toNat = .error k →
        Completes (.write h relay vf param) s fun c =>
          ends c ∧ (c.mailbox h).dstatus = k ∧ c.dict.active = s.chip.dict.active ∧ c.dict.staged = s.chip.dict.staged ∧ c.mem = s.chip.mem) ∧
      (∀ d : Desc, s.serving → s.chip.mgtUp = true → s.chip.heldAt (.mailbox h) = none → s.chip.reachWrite w param.toNat = .ok d →
        m.final = false → m.xferLen ≤ 2048 →
        Completes (.write h relay vf param) s fun c =>
          ends c ∧ (c.mailbox h).dstatus = 0 ∧
          (∃ x, c.heldAt (.mailbox h) = some x ∧ x.param = param ∧ x.bytes = layBytes [] m.xferOff (m.bytes m.xferLen)) ∧
          c.dict.active = s.chip.dict.active ∧ c.dict.staged = s.chip.dict.staged ∧ c.mem = s.chip.mem) ∧
      (s.serving →
        Completes (.collide h) s fun c =>
          c.mailbox h = { m with collide := true } ∧ c.dict.active = s.chip.dict.active ∧ c.out = s.chip.out))

/-- R59 to R64, R23, R503: the sideband paths. A datagram that fails a check of R61 only counts. An accepted one with a
single record that asks (OP not WRITE), or that writes a whole value passing every check, is answered by one datagram with
that record, its sequence number is kept, and the value is stored (for RW and RWN outside areas 13, 18, 20, 21, 28, 29) or
staged; one with any records is answered by one datagram, after their effects, where these leave nothing to carry out; while
MGT is down every record answers 0x03 and nothing else happens. MCTP, in a service or the recovery service: a packet with a
wrong PEC counts, with no response; a whole message is answered with command 0x81 and its completed record: status 0x03
while MGT is down, 0x04 for another command than 0x01, 0x08 for a record that does not fit, else what the record's operation
gives, in the same two forms as a datagram's record, or in any form where it leaves nothing to carry out. R63, R64, R66,
R67, R23: held chunks of FDP and MCTP older than P01.020 are discarded and nothing else happens. The 7-bit address that an
I3C controller assigns is taken, unless RESET_N or a trip holds the chip. An in-band request from an endpoint that P01.040
does not list is discarded and counted, with no response and no other effect. From a listed one, where no cached answer has
its TAG and CHUNK: one that asks (OP not WRITE) is answered, and one whose value, whole in its one chunk, passes every check
is stored or staged (RW and RWN outside areas 13, 18, 20, 21, 28, 29); any one that leaves nothing to carry out is executed;
each time the answer is kept for its TAG and CHUNK. A cached answer, or 0x03 while MGT is down, is sent and nothing is
executed. The answer is one packet of kind 0 and opcode 0x41 to the endpoint that asked. -/
def Obligations.SidebandAndShimAnswer : Prop :=
  (∀ s : State,
      (∀ d : Datagram, s.serving → s.chip.fdpAccept d.bytes = none →
        Completes (.fdpRequest d) s fun c =>
          c = { s.chip with dict := { s.chip.dict with fdpRejected := s.chip.dict.fdpRejected + 1 } }) ∧
      (∀ (d : Datagram) key keyId seq rs, s.serving → s.chip.fdpAccept d.bytes = some (key, keyId, seq, rs) → s.chip.mgtUp = false →
        Completes (.fdpRequest d) s fun c =>
          c.dict = s.chip.dict ∧ c.out = s.chip.out ++
            [.fdpReply d.source (fdpResponse key keyId rs.length seq (rs.flatMap fun r => recordBytes r 3 []))]) ∧
      (∀ (d : Datagram) key keyId seq r, s.serving → s.chip.fdpAccept d.bytes = some (key, keyId, seq, [r]) → s.chip.mgtUp = true →
        r.op ≠ 2 →
        Completes (.fdpRequest d) s fun c =>
          let now : Chip := { s.chip with dict := { s.chip.dict with fdpLastSeq := seq } }
          let a := now.pathAsk (.fdp keyId) r.op r.param false r.offset r.length 1024
          c.dict.fdpLastSeq = seq ∧ c.dict.active = s.chip.dict.active ∧ c.mem = s.chip.mem ∧
          c.out = s.chip.out ++ [.fdpReply d.source
            (fdpResponse key keyId 1 seq (recordBytes r a.1 (if a.1 = 0 then a.2.1 else [])))]) ∧
      (∀ (d : Datagram) key keyId seq r a, s.serving → s.chip.fdpAccept d.bytes = some (key, keyId, seq, [r]) → s.chip.mgtUp = true →
        r.op = 2 → r.final = true → r.offset = 0 → r.length = r.data.length → s.chip.heldAt (.fdp keyId) = none →
        s.chip.passes (.fdp keyId) r.param.toNat r.data = some a → a = .rwa ∨ (a = .rw ∨ a = .rwn) ∧ storesOnly r.param.toNat = true →
        Completes (.fdpRequest d) s fun c =>
          c.hasWritten s.chip (.fdp keyId) r.param.toNat r.data a ∧ c.dict.fdpLastSeq = seq ∧ c.mem = s.chip.mem ∧
          c.out = s.chip.out ++ [.fdpReply d.source (fdpResponse key keyId 1 seq (recordBytes r (writeStatus a) []))]) ∧
      (∀ (d : Datagram) key keyId seq rs, s.leaves (fun c => c.fdpRequest d) →
        s.chip.fdpAccept d.bytes = some (key, keyId, seq, rs) → s.chip.mgtUp = true →
        Completes (.fdpRequest d) s fun c =>
          let now : Chip := { s.chip with dict := { s.chip.dict with fdpLastSeq := seq } }
          let x := now.fdpRun (.fdp keyId) (1452 - 48 - 16 * rs.length) rs
          c.dict = x.1.dict ∧ c.mem = x.1.mem ∧ c.out = x.1.out ++ [.fdpReply d.source (fdpResponse key keyId rs.length seq x.2)]) ∧
      (∀ l : List MctpPacket, s.chip.calm = true → s.chip.up = true ∨ s.chip.boot.phase = .recovery →
        let bad := (l.filter fun p => !p.pecOk).length
        let answer (r : OpRecord) (k : Nat) (x : List Byte) : Output := .mctpReply (mctpSplit (mctpBody 0x81 (recordBytes r k x)))
        (bad ≠ 0 →
          Completes (.mctpRequest l) s fun c =>
            getCounter ⟨0xC2, .badPec⟩ c.ctr.events = getCounter ⟨0xC2, .badPec⟩ s.chip.ctr.events + BitVec.ofNat 64 bad ∧
            c.out = s.chip.out ∧ c.dict = s.chip.dict) ∧
        (∀ m cmd r fits, bad = 0 → mctpMessage true l = some m → mctpParse m = some (cmd, r, fits) →
          s.chip.mgtUp = false ∨ cmd ≠ 1 ∨ fits = false →
          Completes (.mctpRequest l) s fun c =>
            c.dict = s.chip.dict ∧
            c.out = s.chip.out ++ [answer r (if s.chip.mgtUp = false then 3 else if cmd ≠ 1 then 4 else 8) []]) ∧
        (∀ m r, bad = 0 → mctpMessage true l = some m → mctpParse m = some (1, r, true) → s.chip.mgtUp = true → r.op ≠ 2 →
          Completes (.mctpRequest l) s fun c =>
            let a := s.chip.pathAsk .mctp r.op r.param false r.offset r.length 1024
            c.dict.active = s.chip.dict.active ∧ c.out = s.chip.out ++ [answer r a.1 (if a.1 = 0 then a.2.1 else [])]) ∧
        (∀ m r a, bad = 0 → mctpMessage true l = some m → mctpParse m = some (1, r, true) → s.chip.mgtUp = true → r.op = 2 →
          r.final = true → r.offset = 0 → s.chip.heldAt .mctp = none →
          s.chip.passes .mctp r.param.toNat r.data = some a → a = .rwa ∨ (a = .rw ∨ a = .rwn) ∧ storesOnly r.param.toNat = true →
          Completes (.mctpRequest l) s fun c =>
            c.hasWritten s.chip .mctp r.param.toNat r.data a ∧ c.out = s.chip.out ++ [answer r (writeStatus a) []]) ∧
        (∀ m r, bad = 0 → mctpMessage true l = some m → mctpParse m = some (1, r, true) → s.chip.mgtUp = true →
          (s.chip.mctpRequest l).calm = true →
          Completes (.mctpRequest l) s fun c =>
            let x := s.chip.runRecord .mctp r
            c.dict = x.1.dict ∧ c.mem = x.1.mem ∧ c.out = x.1.out ++ [answer r x.2.1 x.2.2])))
  ∧ (∀ s : State,
      (∀ (p : Writer) (x : HeldValue), s.serving → s.chip.heldAt p = some x → timedPath x.path = true →
        x.last + 1000000 * s.chip.param 0x01 0x020 0 ≤ s.chip.now →
        Completes (.chunkExpiry p) s fun c => c.heldAt p = none ∧ c.dict.active = s.chip.dict.active ∧ c.out = s.chip.out) ∧
      (∀ addr, s.chip.calm = true → s.chip.boot.phase ≠ .held → s.chip.boot.phase ≠ .tripped →
        Completes (.dynamicAddressAssignment addr) s fun c => c.out = s.chip.out ∧ c.dict.i3cAddress = some (addr % 128)) ∧
      ∀ p : Packet,
        let ep := p.src.toNat
        let w : Writer := .shim ep
        let n := p.shimParam.toNat
        let l := p.shimData.take p.shimLen
        let sent (x : List Word) (old c : Chip) : Prop :=
          ∃ q ∈ c.entered old, q.kind = 0x41 ∧ q.dst = p.src ∧ q.src.toNat = s.chip.endpoint 0 % 2 ^ 17 ∧ [q.w0, q.w1, q.w2, q.w3] = x
        (s.serving → s.chip.listed ep = false →
          Completes (.shimDictionaryRequest p) s fun c =>
            c = { s.chip with dict := { s.chip.dict with shimRejected := s.chip.dict.shimRejected + 1 }, tr := c.tr } ∧
            c.tr.arrivals = s.chip.tr.arrivals.erase p) ∧
        (s.serving → s.chip.listed ep = true → s.chip.mgtUp = false →
          Completes (.shimDictionaryRequest p) s fun c => c.dict = s.chip.dict ∧ sent (shimWords p 3 0 []) s.chip c) ∧
        (∀ r : ShimReply, s.serving → s.chip.listed ep = true → s.chip.mgtUp = true → s.chip.shimCached p = some r → r.reply.length = 4 →
          Completes (.shimDictionaryRequest p) s fun c => c.dict = s.chip.dict ∧ sent r.reply s.chip c) ∧
        (∀ a, s.serving → s.chip.listed ep = true → s.chip.mgtUp = true → s.chip.shimCached p = none → s.chip.heldAt w = none →
          p.shimOp = 2 → p.shimFinal = true → p.shimChunk = 0 → p.shimLen ≤ 16 →
          s.chip.passes w n l = some a → a = .rwa ∨ (a = .rw ∨ a = .rwn) ∧ storesOnly n = true →
          Completes (.shimDictionaryRequest p) s fun c =>
            c.hasWritten s.chip w n l a ∧ sent (shimWords p (writeStatus a) p.shimLen []) s.chip c ∧
            (c.shimCached p).map (·.reply) = some (shimWords p (writeStatus a) p.shimLen [])) ∧
        (s.leaves (fun c => c.shimRequest p) → s.chip.listed ep = true → s.chip.mgtUp = true → s.chip.shimCached p = none →
          Completes (.shimDictionaryRequest p) s fun c =>
            let x := (s.chip.taken p).shimExecute p
            (c.shimCached p).map (·.reply) = some x.2 ∧ c.dict.active = x.1.dict.active ∧ sent x.2 x.1 c ∧
            (p.shimOp ≠ 2 → c.dict.active = s.chip.dict.active)))

/-- R48, R49, R50: by a writer that may write P01.001[k], the holder of a staging set k or class F, with T no more than ten
seconds ahead (and, in set 38, a staged value other than 0). A commit that the checks of the set pass schedules it at a T in
the future, with status 0. At a T that has come, where that leaves nothing to carry out, the set is idle with result 0 and
every staged value of an RWA parameter of the set (staged once) is active. A commit that the checks fail discards the staged
values of the set, records the refusing parameter with status 0x07, and answers 0x0A, the active values staying. Of an idle
set, a commit by any such writer answers 0 and changes no set. R47, R49: a scheduled set whose T fabric time has reached,
with no set of the same T and a lower number before it, takes effect: where that leaves nothing to carry out it is idle and
every staged value of an RWA parameter of it (staged once) is active. By a writer that may write P01.002[k] and holds the
set or is of class F, a 1 discards a staging or scheduled set, the active values staying, with status 0, and any other value
changes no set. A staging set whose last staged write is P01.020 ago is discarded so. -/
def Obligations.SetsAreCommittedWholeOrDiscarded : Prop :=
  (∀ (s : State) (w : Writer) (k : Nat) (t : Word), s.chip.up = true → s.chip.mayWrite w (pnum 0x01 0x001 k) = true → k < 4096 →
      (s.chip.calm = true → (s.chip.applySet k).phase = .idle →
        Completes (.commit w k t) s fun c =>
          c.dict.sets = s.chip.dict.sets ∧ c.dict.staged = s.chip.dict.staged ∧ c.dict.active = s.chip.dict.active ∧
          c.out = s.chip.out ++ [.dictReply w 0 []]) ∧
      ((s.chip.applySet k).phase = .staging → (s.chip.applySet k).holder = some w ∨ w.isF = true →
        t.toNat ≤ s.chip.tb.time.toNat + tenSeconds → (k = 0x38 → Tab.get s.chip.dict.staged (pnum 0x38 0x040 0) 0 ≠ 0) →
        (s.chip.calm = true → (s.chip.withStaged k).setCheck s.chip k = none → s.chip.tb.time.toNat < t.toNat →
          Completes (.commit w k t) s fun c =>
            (c.applySet k).phase = .scheduled ∧ (c.applySet k).commitAt = t ∧ c.dict.active = s.chip.dict.active ∧
            c.out = s.chip.out ++ [.dictReply w 0 []]) ∧
        ((s.chip.withStaged k).setCheck s.chip k = none → t.toNat ≤ s.chip.tb.time.toNat →
          (s.chip.numWrite w 0x01 0x001 k 8 t.toNat).calm = true →
          Completes (.commit w k t) s fun c =>
            (c.applySet k).phase = .idle ∧ Tab.get c.dict.lastResult k 0 = 0 ∧
            ((s.chip.dict.staged.map fun r => r.1 % 2 ^ 32).Nodup →
              ∀ n x d, (n, x) ∈ s.chip.dict.staged → descOf s.chip.variant n = some d → d.set = k → d.access = .rwa →
                c.param (pArea n) (pObj n) (pElem n) = x)) ∧
        (∀ n, s.chip.calm = true → (s.chip.withStaged k).setCheck s.chip k = some n →
          Completes (.commit w k t) s fun c =>
            (c.applySet k).phase = .idle ∧ Tab.get c.dict.lastResult k 0 = refusal n ∧ c.dict.active = s.chip.dict.active ∧
            (∀ r ∈ c.dict.staged, s.chip.setOf r.1 ≠ k) ∧ c.out = s.chip.out ++ [.dictReply w 0x0A []])))
  ∧ (∀ (s : State) (k : Nat),
      let gone (c : Chip) : Prop :=
        (c.applySet k).phase = .idle ∧ (∀ r ∈ c.dict.staged, s.chip.setOf r.1 ≠ k) ∧ c.dict.active = s.chip.dict.active
      (s.leaves (fun c => c.setDue k) → (s.chip.applySet k).phase = .scheduled →
        (s.chip.applySet k).commitAt.toNat ≤ s.chip.tb.time.toNat →
        (∀ r ∈ s.chip.dict.sets, r.2.phase = .scheduled → r.2.commitAt = (s.chip.applySet k).commitAt → k ≤ r.1) →
        Completes (.setTakesEffect k) s fun c =>
          (c.applySet k).phase = .idle ∧
          ((s.chip.dict.staged.map fun r => r.1 % 2 ^ 32).Nodup →
            ∀ n x d, (n, x) ∈ s.chip.dict.staged → descOf s.chip.variant n = some d → d.set = k → d.access = .rwa →
              c.param (pArea n) (pObj n) (pElem n) = x)) ∧
      (∀ w, s.serving → s.chip.mayWrite w (pnum 0x01 0x002 k) = true → k < 4096 → (s.chip.applySet k).phase ≠ .idle →
        (s.chip.applySet k).holder = some w ∨ w.isF = true →
        Completes (.discard w k 1) s fun c => gone c ∧ c.out = s.chip.out ++ [.dictReply w 0 []]) ∧
      (∀ w v, s.serving → s.chip.mayWrite w (pnum 0x01 0x002 k) = true → v ≠ 1 →
        Completes (.discard w k v) s fun c => c.dict.sets = s.chip.dict.sets ∧ c.dict.staged = s.chip.dict.staged) ∧
      (s.serving → (s.chip.applySet k).phase = .staging →
        (s.chip.applySet k).lastStaged + 1000000 * s.chip.param 0x01 0x020 0 ≤ s.chip.now →
        Completes (.holderTimeout k) s gone))

/-- R51: by a writer that may write P01.010, on a calm chip in service. A 1, with no flash write under way and generations
left, starts a save: it occupies the flash, the bank that does not hold the newest valid generation is invalid, the other
stays, and a snapshot with the next generation is taken; with a flash write under way it answers 0x03, and no other value
starts anything. The end of a save leaves the snapshot in that bank and frees the flash; one that fails leaves the banks as
they are and P01.011 at 2 (log entry 23). R70, R71: by a writer that may write P01.070 or P02.001, on a calm chip in
service. A 1 with no flash write under way starts a calibration store of the working copy, the banks staying; with one under
way it answers 0x03; no other value starts anything. Its end leaves the stored area and a good state. An image of 1 to
524,288 octets of the right form and check made for this die replaces the working copy, element by element, with status 0;
one that fails its form or check answers 0x0D and one for another die 0x0B, which change nothing. -/
def Obligations.SavesAndCalibrationAreKept : Prop :=
  (∀ (s : State) (w : Writer), s.serving →
      (s.chip.mayWrite w (pnum 0x01 0x010 0) = true → s.chip.flash.op = none →
        ((s.chip.flash.newestBank.map fun r => r.2.generation).getD 0) < 0xFFFFFFFE →
        Completes (.save w 1) s fun c =>
          c.flash.op = some .save ∧ c.flash.saveState = 1 ∧ (Tab.get c.flash.banks s.chip.flash.saveBank Bank.init).valid = false ∧
          (∀ b, b ≠ s.chip.flash.saveBank → Tab.get? c.flash.banks b = Tab.get? s.chip.flash.banks b) ∧
          c.flash.saveJob = some (s.chip.flash.saveBank,
            s.chip.snapshot (((s.chip.flash.newestBank.map fun r => r.2.generation).getD 0) + 1)) ∧
          c.out = s.chip.out ++ [.dictReply w 0 []]) ∧
      (s.chip.mayWrite w (pnum 0x01 0x010 0) = true → s.chip.flash.op ≠ none →
        Completes (.save w 1) s fun c => c.flash = s.chip.flash ∧ c.out = s.chip.out ++ [.dictReply w 3 []]) ∧
      (∀ v, s.chip.mayWrite w (pnum 0x01 0x010 0) = true → v ≠ 1 → Completes (.save w v) s fun c => c.flash = s.chip.flash) ∧
      (∀ (b : Nat) (x : Bank), s.chip.flash.saveJob = some (b, x) →
        Completes (.saveComplete true) s fun c =>
          Tab.get? c.flash.banks b = some x ∧ c.flash.op = none ∧ c.flash.saveState = 0 ∧ c.flash.saveJob = none) ∧
      (∀ (b : Nat) (x : Bank), s.chip.flash.saveJob = some (b, x) →
        Completes (.saveComplete false) s fun c =>
          c.flash.banks = s.chip.flash.banks ∧ c.flash.op = none ∧ c.flash.saveState = 2 ∧ c.flash.saveJob = none))
  ∧ (∀ (s : State) (w : Writer), s.serving →
      (s.chip.mayWrite w (pnum 0x01 0x070 0) = true → s.chip.flash.op = none →
        Completes (.calibrationStore w 1) s fun c =>
          c.flash.op = some .calStore ∧ c.out = s.chip.out ++ [.dictReply w 0 []] ∧
          c.flash.calJob = some (Tab.keep s.chip.dict.active fun n _ => pArea n == 0x02) ∧ c.flash.banks = s.chip.flash.banks) ∧
      (s.chip.mayWrite w (pnum 0x01 0x070 0) = true → s.chip.flash.op ≠ none →
        Completes (.calibrationStore w 1) s fun c => c.flash = s.chip.flash ∧ c.out = s.chip.out ++ [.dictReply w 3 []]) ∧
      (∀ v, s.chip.mayWrite w (pnum 0x01 0x070 0) = true → v ≠ 1 →
        Completes (.calibrationStore w v) s fun c => c.flash = s.chip.flash) ∧
      (∀ t, s.chip.flash.calJob = some t →
        Completes .calibrationStoreComplete s fun c =>
          c.flash.calArea = some t ∧ c.flash.calState = 0 ∧ c.flash.op = none ∧ c.flash.calJob = none) ∧
      (∀ image, s.chip.mayWrite w (pnum 0x02 0x001 0) = true → 1 ≤ image.length → image.length ≤ 524288 →
        Config.calImageSerial image = s.chip.serial →
        Completes (.calibrationImageWrite w image) s fun c =>
          (if Config.calImageFormat image && Config.calImageCheck image then
            (∀ i, i < 120 →
              c.param 0x02 0x010 i = Config.calImageValue image (pnum 0x02 0x010 i) % 2 ^ 32 ∧
              c.param 0x02 0x011 i = Config.calImageValue image (pnum 0x02 0x011 i) % 2 ^ 8) ∧
            (∀ i, i < 16 →
              c.param 0x02 0x020 i = Config.calImageValue image (pnum 0x02 0x020 i) % 2 ^ 16 ∧
              c.param 0x02 0x021 i = Config.calImageValue image (pnum 0x02 0x021 i) % 2 ^ 16) ∧
            c.out = s.chip.out ++ [.dictReply w 0 []]
          else c.dict.active = s.chip.dict.active ∧ c.out = s.chip.out ++ [.dictReply w 0x0D []])) ∧
      (∀ image, s.chip.mayWrite w (pnum 0x02 0x001 0) = true → 1 ≤ image.length → image.length ≤ 524288 →
        Config.calImageSerial image ≠ s.chip.serial →
        Completes (.calibrationImageWrite w image) s fun c =>
          c.dict.active = s.chip.dict.active ∧ c.out = s.chip.out ++ [.dictReply w 0x0B []]))

/-- R53: by a writer that may write P01.015 or P01.016, with every set of saved parameters idle. A 1 that no set-level check
refuses, where that leaves nothing to carry out, records result 0 for every such set; after RESTORE_DEFAULTS, and after
RESTORE_SAVED with no valid bank, no saved parameter has a written value; after RESTORE_SAVED of a bank, one that the bank
does not name has none, and one that it names once, present, with a value in its range and no export attribute (P28.032),
has that value. A 1 that a check refuses answers 0x0A and changes no parameter; no other value does anything to parameters
or sets. -/
def Obligations.RestoresReplaceSavedValues : Prop :=
  ∀ (s : State) (w : Writer), s.chip.up = true → savedSets.all (fun k => (s.chip.applySet k).phase == .idle) = true →
    let bank := s.chip.flash.newestBank.map (·.2)
    let kept (c : Chip) : Prop := c.dict.active = s.chip.dict.active ∧ c.dict.sets = s.chip.dict.sets ∧ c.dict.staged = s.chip.dict.staged
    let done (b : Option Bank) (c : Chip) : Prop :=
      (∀ k ∈ savedSets, Tab.get c.dict.lastResult k 0 = 0) ∧
      (∀ n, s.chip.savedNumber n = true → (∀ x, b = some x → ∀ r ∈ x.values, r.1 % 2 ^ 32 ≠ n % 2 ^ 32) → Tab.get? c.dict.active n = none) ∧
      (∀ x n v d, b = some x → (x.values.map fun r => r.1 % 2 ^ 32).Nodup → (n, v) ∈ x.values →
        descOf s.chip.variant n = some d → d.saved = true → elementPresent s.chip.variant d (pArea n) (pObj n) (pElem n) = true →
        valueOk d (pArea n) (pObj n) (pElem n) (keepBits (pArea n) (pObj n) v) = true → pArea n ≠ 0x28 ∨ pObj n ≠ 0x032 →
        c.param (pArea n) (pObj n) (pElem n) = storedForm (pArea n) (pObj n) (pElem n) (keepBits (pArea n) (pObj n) v))
    (s.chip.mayWrite w (pnum 0x01 0x015 0) = true →
      (s.chip.restoreRefused none = false → (s.chip.restore none).1.calm = true →
        Completes (.restoreDefaults w 1) s (done none)) ∧
      (s.chip.calm = true → s.chip.restoreRefused none = true →
        Completes (.restoreDefaults w 1) s fun c => kept c ∧ c.out = s.chip.out ++ [.dictReply w 0x0A []]) ∧
      (∀ v, s.chip.calm = true → v ≠ 1 → Completes (.restoreDefaults w v) s kept)) ∧
    (s.chip.mayWrite w (pnum 0x01 0x016 0) = true →
      (s.chip.restoreRefused bank = false → (s.chip.restore bank).1.calm = true →
        Completes (.restoreSaved w 1) s (done bank)) ∧
      (s.chip.calm = true → s.chip.restoreRefused bank = true →
        Completes (.restoreSaved w 1) s fun c => kept c ∧ c.out = s.chip.out ++ [.dictReply w 0x0A []]) ∧
      (∀ v, s.chip.calm = true → v ≠ 1 → Completes (.restoreSaved w v) s kept))

/-! ### Host ports and functions -/

/-- R56, R106 to R109, R481: writes to a function that exists, in service, on a calm chip. EV_ASYNC_EQ, EV_URGENT and
EV_FAULT take what is written whole (the latter two in a PF); the bits of EV_SUMMARY clear where a 1 is written; address,
data and Mask bit of an MSI-X entry are kept; the bits of a configuration space are kept, and MPS and MRRS codes that are
supported. The identity registers ignore writes. A write of MBX_CMD that sets GO is the mailbox command of its OP; FF_DATA,
FF_CTRL and FF_RELEASE are the FIFO commands. While the chip boots, a configuration write gets Request Retry Status. R104,
R106, R109, R110, R449: unmasking a vector of a function that exists sends its pending message and clears its PBA bit, where
Enable and Bus Master Enable are 1, the function is not masked, PERST_N is high and its port in service, and no other
unmasked message is pending; with an enable 0 or the function masked nothing is sent. A host read gives the counter of its
slot of the counter page, whole or the addressed half; 0, with the port's fault 0x101, where P20.012 does not show the page;
of any other BAR0 register but FF_DATA (that of an FF_DATA is the FIFO command) its value; misaligned, 0. Reads of BAR2
return zero and have no effect; doorbell writes beyond the configured pages are ignored. -/
def Obligations.RegistersVectorsAndCountersAct : Prop :=
  ((∀ (s : State) (fn : Nat) (v : Word), s.serving → s.chip.fnExists fn = true →
      Completes (.registerWrite fn (.bar0 0x3000 true) v) s (fun c =>
        (c.fn fn).eqValid = v.getLsbD 31 ∧ (c.fn fn).eqn = v.field 23 0 ∧ c.dict = s.chip.dict ∧ c.out = s.chip.out) ∧
      (fn % 256 = 0 →
        Completes (.registerWrite fn (.bar0 0x3008 true) v) s (fun c =>
          (c.fn fn).urgentEnable = v.getLsbD 11 ∧ (c.fn fn).urgentVector = v.field 10 0 ∧ c.out = s.chip.out) ∧
        Completes (.registerWrite fn (.bar0 0x3010 true) v) s fun c =>
          (c.fn fn).faultEnable = v.getLsbD 11 ∧ (c.fn fn).faultVector = v.field 10 0 ∧ c.out = s.chip.out) ∧
      Completes (.registerWrite fn (.bar0 0x3018 true) v) s (fun c =>
        c.out = s.chip.out ∧ (c.fn fn).evLost = ((s.chip.fn fn).evLost && !v.getLsbD 2) ∧
        (c.fn fn).evFault = ((s.chip.fn fn).evFault && !v.getLsbD 1) ∧ (c.fn fn).evUrgent = ((s.chip.fn fn).evUrgent && !v.getLsbD 0)) ∧
      (∀ t, t < vectorCount fn → t < 2048 →
        Completes (.registerWrite fn (.bar0 (0x8000 + 16 * t) true) v) s (fun c =>
          Tab.get (c.fn fn).msixAddr t 0 = v.toNat ∧ c.out = s.chip.out) ∧
        Completes (.registerWrite fn (.bar0 (0x8008 + 16 * t) true) v) s fun c =>
          Tab.get (c.fn fn).msixData t 0 = v.field 31 0 ∧
          ((s.chip.fn fn).unmasked.Nodup → (c.fn fn).unmasked.contains t = !v.getLsbD 32)) ∧
      Completes (.registerWrite fn (.config .busMaster) v) s (fun c => (c.fn fn).busMaster = v.getLsbD 0) ∧
      Completes (.registerWrite fn (.config .msixEnable) v) s (fun c => (c.fn fn).msixEnable = v.getLsbD 0) ∧
      Completes (.registerWrite fn (.config .functionMask) v) s (fun c => (c.fn fn).functionMask = v.getLsbD 0) ∧
      Completes (.registerWrite fn (.config .atomicRequester) v) s (fun c =>
        (c.fn fn).atomicRequester = v.getLsbD 0 ∧ (c.fn fn).atsEnable = (s.chip.fn fn).atsEnable ∧ c.out = s.chip.out) ∧
      Completes (.registerWrite fn (.config .atsEnable) v) s (fun c => (c.fn fn).atsEnable = v.getLsbD 0 ∧ c.out = s.chip.out) ∧
      Completes (.registerWrite fn (.config .relaxedOrdering) v) s (fun c =>
        (c.fn fn).relaxedOrdering = v.getLsbD 0 ∧ c.out = s.chip.out) ∧
      (v.field 2 0 ≤ 2 → Completes (.registerWrite fn (.config .maxPayload) v) s fun c => (c.fn fn).maxPayload = v.field 2 0) ∧
      (v.field 2 0 ≤ 5 → Completes (.registerWrite fn (.config .maxReadRequest) v) s fun c => (c.fn fn).maxReadRequest = v.field 2 0) ∧
      (∀ off, off < 0x1000 → off % 8 = 0 → Completes (.registerWrite fn (.bar0 off true) v) s fun c => c = s.chip)) ∧
    (∀ (s : State) (fn : Nat) (b : CfgBit) (v : Word), s.chip.calm = true → s.chip.boot.phase = .booting ∨ s.chip.boot.phase = .loaded →
      s.chip.hasHost (fn / 256) = true → (s.chip.port (fn / 256)).perst = false →
      Completes (.registerWrite fn (.config b) v) s fun c => c = { s.chip with out := s.chip.out ++ [.configRetry fn] }) ∧
    ∀ (s : State) (h : Nat) (v : Word), s.chip.up = true → s.chip.fnExists (h * 256) = true →
      let write (off : Nat) := exec (.registerWrite (h * 256) (.bar0 off true) v) s
      let n := BitVec.ofNat 32 (v.field 31 0)
      (v.getLsbD 63 = true →
        (v.field 55 48 = 1 → write 0x1000 = exec (.read h (v.getLsbD 47) (v.field 39 32) n) s) ∧
        (v.field 55 48 = 2 → write 0x1000 = exec (.write h (v.getLsbD 47) (v.field 39 32) n) s) ∧
        (v.field 55 48 = 3 → write 0x1000 = exec (.describe h (v.getLsbD 47) (v.field 39 32) n) s) ∧
        (v.field 55 48 = 4 → write 0x1000 = exec (.readStaged h (v.getLsbD 47) (v.field 39 32) n) s)) ∧
      (∀ off, 0x2000 ≤ off → off < 0x3000 → off % 0x400 = 0 →
        write off = exec (.ffDataWrite h (fifoBlockAt off) true v) s ∧
        write (off + 0x28) = exec (.ffRelease h (fifoBlockAt off) n) s ∧
        (v.field 3 0 = 1 → write (off + 0x10) = exec (.ffCommit h (fifoBlockAt off)) s) ∧
        (v.field 3 0 = 2 → write (off + 0x10) = exec (.ffAbort h (fifoBlockAt off)) s) ∧
        (v.field 3 0 = 4 → write (off + 0x10) = exec (.ffMark h (fifoBlockAt off)) s) ∧
        (v.field 3 0 = 8 → write (off + 0x10) = exec (.ffRewind h (fifoBlockAt off)) s)))
  ∧ (∀ (s : State) (fn : Nat), s.chip.fnExists fn = true →
      let f := s.chip.fn fn
      let reads (w : Word) (c : Chip) : Prop := c = { s.chip with out := s.chip.out ++ [.regRead fn w] }
      let half (off : Nat) (w : Word) : Word :=
        if off % 8 = 0 then BitVec.ofNat 64 (w.field 31 0) else BitVec.ofNat 64 (w.field 63 32)
      (∀ v, s.serving → v < vectorCount fn → f.pba.Nodup → v ∈ f.pba → (∀ x ∈ f.pba, x ≠ v → x ∉ f.unmasked) → f.msixEnable = true → f.busMaster = true →
        f.functionMask = false → (s.chip.port (fn / 256)).perst = false → s.chip.unitStopped (0x3C + fn / 256) = false →
        Completes (.vectorUnmask fn v) s fun c =>
          (c.fn fn).pba = f.pba.erase v ∧ v ∈ (c.fn fn).unmasked ∧
          c.out = s.chip.out ++ [.msix (fn / 256) fn v (Tab.get f.msixAddr v 0) (Tab.get f.msixData v 0)]) ∧
      (∀ v, s.serving → v < vectorCount fn → f.msixEnable = false ∨ f.busMaster = false ∨ f.functionMask = true →
        Completes (.vectorUnmask fn v) s fun c => v ∈ (c.fn fn).unmasked ∧ (c.fn fn).pba = f.pba ∧ c.out = s.chip.out) ∧
      (∀ k, s.serving → k < 7 → s.chip.param 0x20 0x012 fn = 1 →
        Completes (.counterPageRead fn (.bar0 (0x4000 + 8 * k) true)) s (reads (s.chip.fnCounter k fn)) ∧
        Completes (.counterPageRead fn (.bar0 (0x4000 + 8 * k) false)) s (reads (half (8 * k) (s.chip.fnCounter k fn))) ∧
        Completes (.counterPageRead fn (.bar0 (0x4004 + 8 * k) false)) s (reads (half (4 + 8 * k) (s.chip.fnCounter k fn)))) ∧
      (∀ off wide, s.leaves (fun c => c.barRead fn (.bar0 off wide)) → 0x4000 ≤ off → off < 0x8000 → off % 8 = 0 →
        s.chip.param 0x20 0x012 fn ≠ 1 →
        Completes (.counterPageRead fn (.bar0 off wide)) s fun c =>
          c.mem = s.chip.mem ∧ (∃ l, c.out = s.chip.out ++ .regRead fn 0 :: l) ∧
          (unitPresent s.chip.variant (0x3C + fn / 256) = true → s.chip.unitStopped (0x3C + fn / 256) = false →
            (c.src (0x3C + fn / 256) 0x101).pend = true)) ∧
      (∀ off, s.serving → off < 0x4000 ∨ 0x8000 ≤ off → isPf fn = false ∨ ffDataAt off = none →
        (off % 8 = 0 → Completes (.counterPageRead fn (.bar0 off true)) s (reads (s.chip.barWord fn off))) ∧
        (off % 4 = 0 → Completes (.counterPageRead fn (.bar0 off false)) s (reads (half off (s.chip.barWord fn (off / 8 * 8)))))) ∧
      (∀ off, s.serving → off % 4 ≠ 0 →
        Completes (.counterPageRead fn (.bar0 off true)) s (reads 0) ∧ Completes (.counterPageRead fn (.bar0 off false)) s (reads 0)) ∧
      (∀ h off, s.chip.up = true → fn = h * 256 → 0x2000 ≤ off → off < 0x3000 → off % 0x400 = 0 →
        exec (.counterPageRead fn (.bar0 off true)) s = exec (.ffDataRead h (fifoBlockAt off) true) s ∧
        exec (.counterPageRead fn (.bar0 off false)) s = exec (.ffDataRead h (fifoBlockAt off) false) s ∧
        exec (.counterPageRead fn (.bar0 (off + 4) false)) s = exec (.ffDataUpperRead h (fifoBlockAt off)) s) ∧
      (∀ off, s.serving → Completes (.counterPageRead fn (.bar2 off)) s (reads 0)) ∧
      (∀ off whole w idx, s.serving → s.chip.doorbellPages fn ≤ off / 4096 →
        Completes (.ring fn off whole w) s (fun c => c = s.chip) ∧
        Completes (.invalidate fn off whole w) s (fun c => c = s.chip) ∧
        Completes (.arm fn off whole w idx) s fun c => c = s.chip))

/-- R100, R102, R481, R484: a host port of the chip. A link that trains at a rate of 16, 32 or 64 GT/s, PERST_N high and the
unit in service, is up at x16 or x8, with the rate and its FLIT mode (always at 64 GT/s); below x8 it is held in Disabled at
its width. PERST_N takes the link down, in a service disables the PF, resets its configuration space, and ends its VFs. When
PERST_N goes high, the port trains in a service unless its mode is disabled; earlier it waits. Where the effect goes beyond
the port, it is stated wherever it leaves nothing to carry out. R513: clearing VF Enable ends every VF of the port, wherever
that leaves nothing to carry out; setting it, with PERST_N high, makes VFs 1 to NumVFs, at most TotalVFs, exist: one that
had not gone is not ready at once, one still draining will be when it has quiesced. -/
def Obligations.HostLinksAndVfsFollow : Prop :=
  (∀ (s : State) (h : Nat), s.chip.hasHost h = true →
      let p := s.chip.port h
      (∀ width rate flit, s.leaves (fun c => c.hostTrained h width rate flit) → p.perst = false →
        s.chip.unitStopped (0x3C + h) = false → p.link = .detect ∨ p.link = .up → rate = 16 ∨ rate = 32 ∨ rate = 64 →
        (8 ≤ min width p.maxWidth →
          Completes (.hostLinkTrained h width rate flit) s fun c =>
            (c.port h).link = .up ∧ (c.port h).width = (if 16 ≤ min width p.maxWidth then 16 else 8) ∧ (c.port h).rate = rate ∧
            (c.port h).flit = (rate == 64 || flit) ∧ c.mem = s.chip.mem ∧ c.dict = s.chip.dict) ∧
        (min width p.maxWidth < 8 →
          Completes (.hostLinkTrained h width rate flit) s fun c =>
            (c.port h).link = .disabled ∧ (c.port h).width = min width p.maxWidth ∧ c.mem = s.chip.mem)) ∧
      (s.leaves (fun c => c.perstAssert h) → p.perst = false →
        Completes (.perstNAssert h) s fun c =>
          (c.port h).perst = true ∧ (c.port h).link = .down ∧ (c.port h).width = 0 ∧ (c.port h).vfEnable = false ∧
          (s.chip.fnState (h * 256) = .ready ∨ s.chip.fnState (h * 256) = .notReady → c.fnState (h * 256) = .draining) ∧
          (∀ i, i < 255 → c.fnExists (h * 256 + i + 1) = false) ∧ (c.fn (h * 256)).busMaster = false ∧ c.mem.hbm = s.chip.mem.hbm) ∧
      (s.chip.calm = true → s.chip.up = false → p.perst = false →
        Completes (.perstNAssert h) s fun c => (c.port h).perst = true ∧ (c.port h).link = .down ∧ c.mem = s.chip.mem) ∧
      (s.leaves (fun c => c.perstDeassert h) → p.perst = true → s.chip.unitStopped (0x3C + h) = false →
        Completes (.perstNDeassert h) s fun c =>
          (c.port h).perst = false ∧ (c.port h).link = (if p.mode = 0 then .down else .detect) ∧
          c.mem = s.chip.mem ∧ c.dict = s.chip.dict) ∧
      (s.chip.calm = true → s.chip.up = false → p.perst = true →
        Completes (.perstNDeassert h) s fun c => (c.port h).perst = false ∧ (c.port h).link = p.link ∧ c.mem = s.chip.mem))
  ∧ (∀ (s : State) (h : Nat), s.chip.hasHost h = true →
      (s.leaves (fun c => c.vfClear h) → (s.chip.port h).vfEnable = true →
        Completes (.vfEnableClear h) s fun c =>
          (c.port h).vfEnable = false ∧ (∀ i, i < 255 → c.fnExists (h * 256 + i + 1) = false) ∧ c.mem.hbm = s.chip.mem.hbm) ∧
      (∀ numVfs, s.serving → (s.chip.port h).vfEnable = false → (s.chip.port h).perst = false →
        Completes (.vfEnableSet h numVfs) s fun c =>
          (c.port h).vfEnable = true ∧ (c.port h).numVfs = min numVfs (s.chip.port h).totalVfs ∧
          (∀ i, i < min numVfs (s.chip.port h).totalVfs →
            (c.fn (h * 256 + i + 1)).vfGone = false ∧
            ((s.chip.fn (h * 256 + i + 1)).vfGone = false → (c.fn (h * 256 + i + 1)).state = .notReady) ∧
            ((s.chip.fn (h * 256 + i + 1)).vfGone = true → (c.fn (h * 256 + i + 1)).vfBack = true)) ∧
          c.mem = s.chip.mem ∧ c.out = s.chip.out))

/-- R102, R103, R199, R200: FLR, and a write of 0 to P20.010 by a writer that may write it, make a ready or not ready
function drain, wherever that leaves nothing to carry out: its queues drain, its held entries go, and the time is noted. 1
ms after that, with no transaction of it left, a draining function (no PF that has gone) quiesces: it is quiesced, not ready
again, or gone, as what disabled it says; it has no queue, counter or open offer. Enabled, a quiesced function is not ready,
with a full policer; in full service, with the host areas provided, one that is not ready becomes ready. -/
def Obligations.FunctionsDrainQuiesceAndReturn : Prop :=
  ∀ (s : State) (fn : Nat) (w : Writer),
    let drains (c : Chip) : Prop :=
      c.fnState fn = .draining ∧ (c.fn fn).disabledAt = s.chip.now ∧
      (∀ k q, Tab.get? c.queues k = some q → q.fn = fn → q.draining = true) ∧ (∀ e ∈ c.tg.held, e.fn ≠ fn) ∧
      c.mem.hbm = s.chip.mem.hbm
    let active := s.chip.fnState fn = .ready ∨ s.chip.fnState fn = .notReady
    (s.leaves (fun c => c.levelReset fn) → s.chip.fnExists fn = true → active →
      Completes (.functionLevelReset fn) s fun c => drains c ∧ (c.fn fn).flr = true) ∧
    (s.chip.mayWrite w (pnum 0x20 0x010 fn) = true → fn < 1024 → active → (s.chip.numWrite w 0x20 0x010 fn 1 0).calm = true →
      Completes (.functionDisable w fn) s fun c => drains c ∧ c.param 0x20 0x010 fn = 0) ∧
    (s.serving → s.chip.fnState fn = .draining → s.chip.fnIdle fn = true → (s.chip.fn fn).disabledAt + 1000000 ≤ s.chip.now →
      ((s.chip.fn fn).vfGone = true → fn % 256 ≠ 0) →
      Completes (.functionQuiesced fn) s fun c =>
        c.fnState fn = s.chip.afterQuiesce fn ∧ (∀ r ∈ c.queues, r.2.fn ≠ fn) ∧ (∀ r ∈ c.tg.ctrs, r.2.owner ≠ fn) ∧
        (∀ o ∈ c.mt.sOffers, o.fn ≠ fn) ∧ c.mem = s.chip.mem) ∧
    (s.serving → s.chip.mayWrite w (pnum 0x20 0x010 fn) = true → fn < 1024 → (s.chip.fn fn).state = .quiesced →
      Completes (.functionEnable w fn) s fun c =>
        (c.fn fn).state = .notReady ∧ c.param 0x20 0x010 fn = 1 ∧ Tab.get? c.rt.policers fn = none ∧ c.mem = s.chip.mem) ∧
    (s.serving → s.chip.fnState fn = .notReady → s.chip.full = true → s.chip.areasGiven = true →
      Completes (.functionReady fn) s fun c => c.fnReady fn = true ∧ c.out = s.chip.out ∧ c.mem = s.chip.mem)

/-! ### The framed FIFOs -/

/-- R106, R114 to R116: the transmit block of a host port that holds the right, in service, on a calm chip; g is its FIFO
once the marker that is due has been written where a word is free. A word written whole to FF_DATA, or its upper half after
the lower one (zero where none was written), joins the packet in progress where its words and a frame word then fit beside
the committed ones and it has fewer than 64; else the packet is dropped. While it is dropped, words are discarded. Each of
these uses up the held half. The lower half is held. In a block that the host only consumes, or that is not shown, such
writes change nothing. On the same terms, COMMIT makes the packet visible: its frame word (type, number of words, packets
before it) and its words join the committed words at once; ABORT discards the uncommitted words and counts nothing; with no
words pushed either has no effect but that of R106, that a held half is discarded. The COMMIT of a dropped packet counts it
(saturating) and sets LASTDROP, its ABORT counts nothing. In a consumer block either sets BADCMD alone. RADISH_MARKER of any
FIFO writes the marker of its dropped count behind the committed words, and the count starts again, where a word is free and
no packet is in progress; with nothing dropped it changes nothing in the FIFO. -/
def Obligations.FifoWritesAreFramed : Prop :=
  (∀ (s : State) (h : Nat), s.serving →
      (s.chip.fifoAt h .transmit = some h →
        let f := s.chip.fifo h
        let g := f.mark 2048
        let word (wide : Bool) (v : Word) : Word :=
          if wide then v else BitVec.ofNat 64 (v.field 31 0 * 2 ^ 32 + (f.heldLower.getD 0).toNat)
        (∀ wide v, f.dropping = false → g.words.length + g.pushed.length + 2 ≤ 2048 → g.pushed.length < 64 →
          Completes (.ffDataWrite h .transmit wide v) s fun c =>
            c.out = s.chip.out ∧ c.fifo h = { g with pushed := g.pushed ++ [word wide v], heldLower := none }) ∧
        (∀ wide v, f.dropping = false → 2048 < g.words.length + g.pushed.length + 2 ∨ 64 ≤ g.pushed.length →
          Completes (.ffDataWrite h .transmit wide v) s fun c =>
            c.out = s.chip.out ∧ c.fifo h = { g with pushed := [], dropping := true, heldLower := none }) ∧
        (∀ wide v, f.dropping = true →
          Completes (.ffDataWrite h .transmit wide v) s fun c => c.out = s.chip.out ∧ c.fifo h = { f with heldLower := none }) ∧
        (∀ low, Completes (.ffDataLowerWrite h .transmit low) s fun c =>
          c.out = s.chip.out ∧ c.fifo h = { f with heldLower := some low })) ∧
      (∀ b wide v low, s.chip.fifoAt h b = none ∨ hostProduces b = false →
        Completes (.ffDataWrite h b wide v) s (fun c => c = s.chip) ∧
        Completes (.ffDataLowerWrite h b low) s fun c => c = s.chip))
  ∧ (∀ (s : State) (h : Nat), s.serving →
      (s.chip.fifoAt h .transmit = some h →
        let f := s.chip.fifo h
        (f.dropping = false → f.pushed ≠ [] →
          Completes (.ffCommit h .transmit) s fun c =>
            c.out = s.chip.out ∧
            c.fifo h = { f with
              words := f.words ++ frameWord f.pushed.length f.frames :: f.pushed, pushed := [], frames := f.frames + 1
              lastDrop := false, heldLower := none }) ∧
        (f.dropping = false → f.pushed = [] →
          Completes (.ffCommit h .transmit) s (fun c => c.out = s.chip.out ∧ c.fifo h = { f with heldLower := none }) ∧
          Completes (.ffAbort h .transmit) s fun c => c.out = s.chip.out ∧ c.fifo h = { f with heldLower := none }) ∧
        (f.dropping = true →
          Completes (.ffCommit h .transmit) s fun c =>
            c.out = s.chip.out ∧
            c.fifo h = { f with
              dropping := false, lastDrop := true, dropped := if f.dropped < 0xFFFFFFFF then f.dropped + 1 else f.dropped
              heldLower := none }) ∧
        Completes (.ffAbort h .transmit) s (fun c =>
          c.out = s.chip.out ∧ c.fifo h = { f with pushed := [], dropping := false, heldLower := none })) ∧
      (∀ b i, s.chip.fifoAt h b = some i → hostProduces b = false →
        Completes (.ffCommit h b) s (fun c => c.out = s.chip.out ∧ c.fifo i = { s.chip.fifo i with badCmd := true }) ∧
        Completes (.ffAbort h b) s fun c => c.out = s.chip.out ∧ c.fifo i = { s.chip.fifo i with badCmd := true }) ∧
      (∀ i, (s.chip.fifo i).dropped ≠ 0 → (s.chip.fifo i).quiet = true → (s.chip.fifo i).words.length < fifoCap i + 1 →
        Completes (.radishMarker i) s fun c =>
          c.out = s.chip.out ∧
          c.fifo i = { s.chip.fifo i with words := (s.chip.fifo i).words ++ [markerWord (s.chip.fifo i).dropped], dropped := 0 }) ∧
      (∀ i, (s.chip.fifo i).dropped = 0 → Completes (.radishMarker i) s fun c => c.out = s.chip.out ∧ c.fifo i = s.chip.fifo i))

/-- R106, R117 to R119: a block that the host consumes, whole and 32-bit reads alike, in service, on a calm chip. A read of
FF_DATA gives the word at the read position, or its lower half, and advances it by 1; while FF_COUNT is 0 it returns the
last value returned, or its lower half, sets UNDERRUN, and leaves the read position. The upper half is that of the word last
popped, and nothing moves. MARK keeps the position, REWIND returns to the mark. A write of P to FF_RELEASE with P from the
release position to the read position, both included, frees the words before P and raises the mark to P if it lay before;
any other P sets BADREL and changes nothing else. In a block that the host produces, or that is not shown, FF_DATA reads
zero; in the former MARK and REWIND set BADCMD alone, and FF_RELEASE is ignored. R112, R122, R123: a host port of the chip
takes the next frame of its transmit FIFO. A packet that is not malformed enters the router core once, with the KIND of its
word 0, for 0x40 and 0x42 the DST of that word, the port's endpoint as SRC, and words 2 to 5; a malformed one is discarded,
sets TXBAD and counts 1; a marker counts its COUNT. A shim packet of kinds 0x41 to 0x44 for the endpoint of an enabled port
whose host holds the right goes to its receive FIFO as one packet of six words, behind what stands there where it fits; one
for a port without the right is discarded and counted. -/
def Obligations.FifoReadsMoveAndPacketsPass : Prop :=
  (∀ (s : State) (h : Nat) (b : FifoBlock), s.serving →
      (∀ i, s.chip.fifoAt h b = some i → hostProduces b = false →
        let f := s.chip.fifo i
        let part (wide : Bool) (w : Word) : Word := if wide then w else BitVec.ofNat 64 (w.field 31 0)
        (∀ wide w, f.words[f.readOff]? = some w →
          Completes (.ffDataRead h b wide) s fun c =>
            c.out = s.chip.out ++ [.regRead (h * 256) (part wide w)] ∧
            c.fifo i = { f with readOff := f.readOff + 1, lastRead := w, lastPopped := w }) ∧
        (∀ wide, f.count true = 0 →
          Completes (.ffDataRead h b wide) s fun c =>
            c.out = s.chip.out ++ [.regRead (h * 256) (part wide f.lastRead)] ∧ c.fifo i = { f with underrun := true }) ∧
        Completes (.ffDataUpperRead h b) s (fun c =>
          c.out = s.chip.out ++ [.regRead (h * 256) (BitVec.ofNat 64 (Word.field f.lastPopped 63 32))] ∧ c.fifos = s.chip.fifos) ∧
        Completes (.ffMark h b) s (fun c => c.out = s.chip.out ∧ c.fifo i = { f with markOff := f.readOff }) ∧
        Completes (.ffRewind h b) s (fun c => c.out = s.chip.out ∧ c.fifo i = { f with readOff := f.markOff }) ∧
        (∀ p : BitVec 32, (p - f.release).toNat ≤ f.readOff →
          Completes (.ffRelease h b p) s fun c =>
            c.out = s.chip.out ∧ (c.fifo i).release = p ∧ (c.fifo i).words = f.words.drop (p - f.release).toNat ∧
            (c.fifo i).release + BitVec.ofNat 32 (c.fifo i).readOff = f.release + BitVec.ofNat 32 f.readOff ∧
            (c.fifo i).markOff = f.markOff - (p - f.release).toNat ∧ (c.fifo i).badRel = f.badRel) ∧
        (∀ p : BitVec 32, f.readOff < (p - f.release).toNat →
          Completes (.ffRelease h b p) s fun c => c.out = s.chip.out ∧ c.fifo i = { f with badRel := true })) ∧
      (∀ wide, s.chip.fifoAt h b = none ∨ hostProduces b = true →
        Completes (.ffDataRead h b wide) s (fun c => c.out = s.chip.out ++ [.regRead (h * 256) 0] ∧ c.fifos = s.chip.fifos) ∧
        Completes (.ffDataUpperRead h b) s fun c => c.out = s.chip.out ++ [.regRead (h * 256) 0] ∧ c.fifos = s.chip.fifos) ∧
      (∀ i, s.chip.fifoAt h b = some i → hostProduces b = true →
        Completes (.ffMark h b) s (fun c => c.out = s.chip.out ∧ c.fifo i = { s.chip.fifo i with badCmd := true }) ∧
        Completes (.ffRewind h b) s (fun c => c.out = s.chip.out ∧ c.fifo i = { s.chip.fifo i with badCmd := true }) ∧
        ∀ p, Completes (.ffRelease h b p) s fun c => c = s.chip))
  ∧ (∀ (s : State) (h : Nat), s.serving → s.chip.hasHost h = true →
      let f := s.chip.fifo h
      let counter (k : Ctr) (c : Chip) : BitVec 64 := getCounter ⟨60 + h, k⟩ c.ctr.events
      (∀ (w : Word) (r : List Word), f.words = w :: r → w.field 63 56 ≠ 0xD7 →
        let l := r.take (w.field 47 32)
        (s.chip.mgmtMalformed l = true →
          Completes (.mgmtTransmit h) s fun c =>
            c.rt = s.chip.rt ∧ c.mem = s.chip.mem ∧ (c.fifo h).words = r.drop (w.field 47 32) ∧ (c.fifo h).txBad = true ∧
            counter .mgmtDiscard c = counter .mgmtDiscard s.chip + 1) ∧
        (s.chip.mgmtMalformed l = false →
          Completes (.mgmtTransmit h) s fun c =>
            c.mem = s.chip.mem ∧ c.ctr = s.chip.ctr ∧ (c.fifo h).words = r.drop (w.field 47 32) ∧ (c.fifo h).txBad = f.txBad ∧
            ∃ p, c.entered s.chip = [p] ∧ p.kind.toNat = Word.field (l.getD 0 0) 40 34 ∧
              (p.kind.toNat = 0x40 ∨ p.kind.toNat = 0x42 → p.dst.toNat = Word.field (l.getD 0 0) 33 17) ∧
              p.src.toNat = s.chip.endpoint h % 2 ^ 17 ∧ [p.w0, p.w1, p.w2, p.w3] = l.drop 2)) ∧
      (∀ (w : Word) (r : List Word), f.words = w :: r → w.field 63 56 = 0xD7 →
        Completes (.mgmtTransmit h) s fun c =>
          c.rt = s.chip.rt ∧ c.mem = s.chip.mem ∧ (c.fifo h).words = r ∧
          counter .mgmtDiscard c = counter .mgmtDiscard s.chip + BitVec.ofNat 64 (w.field 31 0)) ∧
      (∀ p : Packet, 0x41 ≤ p.kind.toNat → p.kind.toNat ≤ 0x44 → p.dst.toNat = s.chip.endpoint h →
        let l := [p.hdr0, p.hdr1, p.w0, p.w1, p.w2, p.w3]
        let g := s.chip.fifo (4 + h)
        (s.chip.hostEnabled h = true → s.chip.fmRight h = true →
          Completes (.shimPacketDelivery h p) s fun c =>
            c.mem = s.chip.mem ∧ c.out = s.chip.out ∧ c.ctr = s.chip.ctr ∧ c.fifo (4 + h) = g.packet 2048 l ∧
            (g.quiet = true → g.dropped = 0 → g.words.length + 7 ≤ 2048 → (c.fifo (4 + h)).words = g.words ++ frameWord 6 g.frames :: l)) ∧
        (s.chip.fmRight h = false →
          Completes (.shimPacketDelivery h p) s fun c =>
            c.mem = s.chip.mem ∧ c.out = s.chip.out ∧ c.fifos = s.chip.fifos ∧ counter .shimDiscard c = counter .shimDiscard s.chip + 1)))

/-! ### Doorbells, index blocks and control entries -/

/-- R128, R129, R131, R133: a write of P21.004 by a writer that may write it. One that sets ENABLE, with both sizes 4 to 10,
starts the control queue pair with the indices its blocks hold and no error, indices that hold more entries than a ring
apart, which put the control SQ in error with cause 1, or the control CQ with cause 3 and the control SQ behind it with
cause 4. Another size, and a change of the fields of an enabled pair, are refused with 0x07. One that clears it stores the
fields and stops the pair, whose entries up to SQ PI are not consumed any more. What may go beyond the pair is stated
wherever it leaves nothing to carry out. -/
def Obligations.ControlQueuePairsStartAndStop : Prop :=
  ∀ (s : State) (w : Writer) (fn : Nat) (v : BitVec 32), s.chip.mayWrite w (pnum 0x21 0x004 fn) = true → fn < 1024 →
    let sizes := 4 ≤ bits v.toNat 0 5 ∧ bits v.toNat 0 5 ≤ 10 ∧ 4 ≤ bits v.toNat 5 5 ∧ bits v.toNat 5 5 ≤ 10
    (∀ idx : CtlIndices, s.serving → s.chip.ctlEnabled fn = false → sizes →
      (idx.sqPi - idx.sqCi).toNat ≤ 2 ^ bits v.toNat 0 5 → (idx.cqPi - idx.cqCi).toNat ≤ 2 ^ bits v.toNat 5 5 →
      Completes (.controlQpEnable w fn v idx) s fun c =>
        c.ctlEnabled fn = true ∧ (c.fn fn).ctlSqPi = idx.sqPi ∧ (c.fn fn).ctlSqCi = idx.sqCi ∧ (c.fn fn).ctlCqPi = idx.cqPi ∧
        (c.fn fn).ctlCqCi = idx.cqCi ∧ (c.fn fn).ctlSqCause = 0 ∧ (c.fn fn).ctlCqCause = 0 ∧ c.queues = s.chip.queues ∧ c.mem = s.chip.mem) ∧
    (∀ idx : CtlIndices, s.leaves (fun c => c.numWrite w 0x21 0x004 fn 4 (v.toNat % 2 ^ 31 + 2 ^ 31) (some idx)) →
      s.chip.ctlEnabled fn = false → sizes →
      (2 ^ bits v.toNat 0 5 < (idx.sqPi - idx.sqCi).toNat →
        Completes (.controlQpEnable w fn v idx) s fun c => c.ctlEnabled fn = true ∧ (c.fn fn).ctlSqCause = 1) ∧
      ((idx.sqPi - idx.sqCi).toNat ≤ 2 ^ bits v.toNat 0 5 → 2 ^ bits v.toNat 5 5 < (idx.cqPi - idx.cqCi).toNat →
        Completes (.controlQpEnable w fn v idx) s fun c =>
          c.ctlEnabled fn = true ∧ (c.fn fn).ctlCqCause = 3 ∧ (c.fn fn).ctlSqCause = 4 ∧ (c.fn fn).ctlSqCi = idx.sqPi)) ∧
    (∀ idx : CtlIndices, s.serving →
      (if s.chip.ctlEnabled fn = true then s.chip.ctlSetup fn ≠ keepBits 0x21 0x004 (v.toNat % 2 ^ 31 + 2 ^ 31) else ¬sizes) →
      Completes (.controlQpEnable w fn v idx) s fun c =>
        c.dict.active = s.chip.dict.active ∧ c.fn fn = s.chip.fn fn ∧ c.out = s.chip.out ++ [.dictReply w 7 []] ∧ c.mem = s.chip.mem) ∧
    (s.serving →
      Completes (.controlQpDisable w fn v) s fun c =>
        c.ctlEnabled fn = false ∧ c.ctlSetup fn = keepBits 0x21 0x004 (v.toNat % 2 ^ 31) ∧
        (s.chip.ctlEnabled fn = true → (c.fn fn).ctlSqCi = (s.chip.fn fn).ctlSqPi ∧ (c.fn fn).ctlArmed = false) ∧
        (s.chip.ctlEnabled fn = false → c.fn fn = s.chip.fn fn) ∧ c.queues = s.chip.queues ∧ c.mem = s.chip.mem)

/-- R104, R135 to R138, R148: doorbells within the pages of a function that exists. One that is not a whole write of 8
aligned bytes, has OP 3, reaches a function that is not ready, or names no active queue of its kind is discarded and
counted. RING keeps the hint of its INDEX when FLAG says so. INVALIDATE with COUNT 1 to 16 drops the cached entries of its
range, with another COUNT it is discarded. ARM takes CI: if the queue is empty, the next entry (with SOLONLY, of a CQ, the
next solicited or failed one) signals; otherwise it signals at once (with SOLONLY too: the model's choice, log entry 72); a
bad CI or a failed read puts the queue in error with cause 3 or 4, stated wherever that leaves nothing to carry out. For the
control queue pair, RING and INVALIDATE change nothing but that its index block is read, and ARM does the same to the
control CQ, where it has a vector. -/
def Obligations.DoorbellsAct : Prop :=
  ∀ (s : State) (fn off : Nat) (word : Word), s.chip.fnExists fn = true → off / 4096 < s.chip.doorbellPages fn →
    let qn := dbQn word
    let h := fn / 256
    let counted (c : Chip) : Prop := c = s.chip.bumpFn 0 fn
    let proper := off % 8 = 0 ∧ s.chip.fnReady fn = true
    (∀ whole idx, s.serving → whole = false ∨ off % 8 ≠ 0 ∨ dbOp word = 3 ∨ s.chip.fnReady fn = false →
      Completes (.ring fn off whole word) s counted ∧ Completes (.invalidate fn off whole word) s counted ∧
      Completes (.arm fn off whole word idx) s counted) ∧
    (s.serving → proper → dbOp word = 0 →
      (∀ q, s.chip.named fn qn false = .queue q → q.isWork = true →
        Completes (.ring fn off true word) s fun c =>
          c = s.chip.putQueue h qn { q with hint := if dbFlag word then some (dbIndex word) else q.hint }) ∧
      (∀ q, s.chip.named fn qn false = .queue q → q.isWork = false → Completes (.ring fn off true word) s counted) ∧
      (s.chip.named fn qn false = .nothing → Completes (.ring fn off true word) s counted) ∧
      (s.chip.named fn qn false = .control → Completes (.ring fn off true word) s fun c => c = s.chip)) ∧
    (s.serving → proper → dbOp word = 1 →
      (dbCount word = 0 ∨ 16 < dbCount word → Completes (.invalidate fn off true word) s counted) ∧
      (1 ≤ dbCount word → dbCount word ≤ 16 →
        (∀ q, s.chip.named fn qn false = .queue q → q.isWork = true →
          Completes (.invalidate fn off true word) s fun c =>
            c.out = s.chip.out ∧ ∃ q', c.queue? h qn = some q' ∧ { q with cached := q'.cached } = q' ∧
              ∀ r, r ∈ q'.cached ↔ r ∈ q.cached ∧ dbCount word ≤ (BitVec.ofNat 16 r.1.toNat - dbIndex word).toNat) ∧
        (∀ q, s.chip.named fn qn false = .queue q → q.isWork = false → Completes (.invalidate fn off true word) s counted) ∧
        (s.chip.named fn qn false = .nothing → Completes (.invalidate fn off true word) s counted) ∧
        (s.chip.named fn qn false = .control → Completes (.invalidate fn off true word) s fun c => c = s.chip))) ∧
    (proper → dbOp word = 2 →
      (∀ idx, s.serving → s.chip.named fn qn true = .nothing → Completes (.arm fn off true word idx) s counted) ∧
      (∀ q idx, s.serving → s.chip.named fn qn true = .queue q → q.isWork = true ∨ q.vecValid = false →
        Completes (.arm fn off true word idx) s counted) ∧
      (∀ q pi ci, s.serving → s.chip.named fn qn true = .queue q → q.isWork = false → q.vecValid = true →
        (q.pi - ci).toNat ≤ 2 ^ q.logSize →
        (q.pi = ci → Completes (.arm fn off true word (.ok pi ci)) s fun c =>
          c.out = s.chip.out ∧
          c.queue? h qn = some { q with ci := ci, armed := true, solOnly := dbFlag word && q.kind == .cq }) ∧
        (q.pi ≠ ci → Completes (.arm fn off true word (.ok pi ci)) s fun c =>
          c = (s.chip.putQueue h qn { q with ci := ci }).signal fn q.vector)) ∧
      (∀ q idx, s.leaves (fun c => c.armQueue fn word idx) → s.chip.named fn qn true = .queue q → q.isWork = false → q.vecValid = true →
        idxSpoils idx q.logSize q.pi = true →
        Completes (.arm fn off true word idx) s fun c =>
          ∃ q', c.queue? h qn = some q' ∧ q'.state = .error ∧ q'.cause = if idx = .failed then 4 else 3) ∧
      (∀ idx, s.serving → s.chip.named fn qn true = .control → s.chip.ctlVec? fn = none →
        Completes (.arm fn off true word idx) s counted) ∧
      (∀ v pi ci, s.serving → s.chip.named fn qn true = .control → s.chip.ctlVec? fn = some v →
        ((s.chip.fn fn).ctlCqPi - ci).toNat ≤ 2 ^ s.chip.ctlCqLog fn →
        ((s.chip.fn fn).ctlCqPi = ci → Completes (.arm fn off true word (.ok pi ci)) s fun c =>
          c.out = s.chip.out ∧ (c.fn fn).ctlCqCi = ci ∧ (c.fn fn).ctlArmed = true ∧ (c.fn fn).ctlSolOnly = dbFlag word) ∧
        ((s.chip.fn fn).ctlCqPi ≠ ci → Completes (.arm fn off true word (.ok pi ci)) s fun c =>
          c = (s.chip.updFn fn fun f => { f with ctlCqCi := ci }).signal fn v)) ∧
      (∀ v idx, s.leaves (fun c => c.armQueue fn word idx) → s.chip.named fn qn true = .control → s.chip.ctlVec? fn = some v →
        idxSpoils idx (s.chip.ctlCqLog fn) (s.chip.fn fn).ctlCqPi = true →
        Completes (.arm fn off true word idx) s fun c => (c.fn fn).ctlCqCause = if idx = .failed then 4 else 3))

/-- R133, R137, R146, R148, R151, R158: an index block read takes PI of a work queue, with the entries fetched, or CI of a
CQ or EQ, that holds no more than the ring; one that holds more puts the queue in error with cause 1 (a CQ or EQ: 3), one
that fails with cause 2 (4). So it is for the control SQ. A device read for a work queue that fails puts it in error with
cause 2, one of the index block or context area of a CQ or EQ with cause 4 (for the context area the model's choice, log
entry 75), one of a ring entry leaves those alone. A queue whose entries wait to be read and flushed flushes those that
come; where they cannot be read, all. A number that names nothing changes nothing. What follows an error is stated wherever
it leaves nothing to carry out. R159, R281: when CI of a CQ with a backlog (of an active CQ, or with number 0 of the control
CQ) advances, as many backlogged completions as its ring has room for are written, oldest first; an empty backlog is
returned and fetching resumes. A CI that holds more than the ring puts the CQ in error with cause 3, a poisoned backlog with
cause 1, its completions counted as lost, stated wherever that leaves nothing to carry out. Of a function that is draining
or quiesced nothing is written (R199). -/
def Obligations.IndicesAreReadAndBacklogsDrain : Prop :=
  (∀ (s : State) (fn qn : Nat),
      let h := fn / 256
      let failed (q : Queue) (n : Nat) (c : Chip) : Prop := ∃ q', c.queue? h qn = some q' ∧ q'.state = .error ∧ q'.cause = n ∧ q'.kind = q.kind
      (∀ idx fetched what, s.serving → s.chip.flushing fn qn = false → s.chip.named fn qn false = .nothing →
        Completes (.indexBlockReadDone fn qn idx fetched) s (fun c => c = s.chip) ∧
        Completes (.queueReadTimeout fn qn what) s fun c => c = s.chip) ∧
      (∀ q, s.chip.flushing fn qn = false → s.chip.named fn qn false = .queue q →
        (∀ pi ci fetched, s.serving → q.isWork = true → (pi - q.ci).toNat ≤ 2 ^ q.logSize →
          Completes (.indexBlockReadDone fn qn (.ok pi ci) fetched) s fun c =>
            c = s.chip.putQueue h qn { q with pi := pi, hint := none, cached := s.chip.fetchInto q pi fetched }) ∧
        (∀ pi ci fetched, s.serving → q.isWork = false → (q.pi - ci).toNat ≤ 2 ^ q.logSize →
          Completes (.indexBlockReadDone fn qn (.ok pi ci) fetched) s fun c => c = s.chip.putQueue h qn { q with ci := ci }) ∧
        (∀ pi ci fetched, s.leaves (fun c => c.indexRead fn qn (.ok pi ci) fetched) →
          (if q.isWork then 2 ^ q.logSize < (pi - q.ci).toNat else 2 ^ q.logSize < (q.pi - ci).toNat) →
          Completes (.indexBlockReadDone fn qn (.ok pi ci) fetched) s (failed q (if q.isWork then 1 else 3))) ∧
        (∀ fetched, s.leaves (fun c => c.indexRead fn qn .failed fetched) →
          Completes (.indexBlockReadDone fn qn .failed fetched) s (failed q (if q.isWork then 2 else 4))) ∧
        (∀ what, s.leaves (fun c => c.queueReadFails fn qn what) →
          (q.isWork = true ∨ what ≠ .ringEntry → Completes (.queueReadTimeout fn qn what) s (failed q (if q.isWork then 2 else 4))) ∧
          (q.isWork = false → what = .ringEntry → Completes (.queueReadTimeout fn qn what) s fun c => c = s.chip))) ∧
      (s.chip.named fn qn false = .control →
        (∀ pi ci fetched, s.serving → (pi - (s.chip.fn fn).ctlSqCi).toNat ≤ 2 ^ s.chip.ctlSqLog fn →
          Completes (.indexBlockReadDone fn qn (.ok pi ci) fetched) s fun c =>
            c.out = s.chip.out ∧ (c.fn fn).ctlSqPi = pi ∧ c.queues = s.chip.queues) ∧
        (∀ pi ci fetched, s.leaves (fun c => c.indexRead fn qn (.ok pi ci) fetched) →
          2 ^ s.chip.ctlSqLog fn < (pi - (s.chip.fn fn).ctlSqCi).toNat →
          Completes (.indexBlockReadDone fn qn (.ok pi ci) fetched) s fun c => (c.fn fn).ctlSqCause = 1) ∧
        (∀ fetched, s.leaves (fun c => c.indexRead fn qn .failed fetched) →
          Completes (.indexBlockReadDone fn qn .failed fetched) s fun c => (c.fn fn).ctlSqCause = 2) ∧
        (∀ what, s.leaves (fun c => c.queueReadFails fn qn what) →
          Completes (.queueReadTimeout fn qn what) s fun c => (c.fn fn).ctlSqCause = 2)) ∧
      (∀ q, s.chip.queue? h qn = some q → q.fn = fn → q.flushing = true →
        (∀ idx fetched, s.leaves (fun c => c.indexRead fn qn idx fetched) → q.unconsumed ≤ fetched.length →
          Completes (.indexBlockReadDone fn qn idx fetched) s fun c =>
            ∃ q', c.queue? h qn = some q' ∧ q'.flushing = false ∧ q'.ci = q.pi ∧ q'.pi = q.pi) ∧
        (∀ what, s.leaves (fun c => c.queueReadFails fn qn what) →
          (what = .ringEntry → Completes (.queueReadTimeout fn qn what) s fun c =>
            ∃ q', c.queue? h qn = some q' ∧ q'.flushing = false ∧ q'.ci = q.pi ∧ q'.pi = q.pi) ∧
          (what ≠ .ringEntry → Completes (.queueReadTimeout fn qn what) s fun c => c = s.chip))))
  ∧ (∀ (s : State) (fn cqn : Nat) (ci : BitVec 32),
      let h := fn / 256
      let f := s.chip.fn fn
      (∀ poisoned, s.serving → s.chip.silentFn fn = true → Completes (.backlogDrain fn cqn ci poisoned) s fun c => c = s.chip) ∧
      (s.chip.silentFn fn = false →
        (∀ q, cqn ≠ 0 → s.chip.queue? h cqn = some q → q.fn = fn → q.kind = .cq → q.state = .active → q.backlogged = true →
          (s.serving → (q.pi - ci).toNat ≤ 2 ^ q.logSize →
            Completes (.backlogDrain fn cqn ci false) s fun c =>
              let n := min q.backlog.length (2 ^ q.logSize - (q.pi - ci).toNat)
              ∃ q', c.queue? h cqn = some q' ∧ q'.backlog = q.backlog.drop n ∧ q'.pi = q.pi + BitVec.ofNat 32 n ∧ q'.ci = ci ∧
                (n = q.backlog.length → q'.backlogged = false ∧ q'.stopped = false) ∧
                (n ≠ q.backlog.length → q'.backlogged = true ∧ q'.stopped = q.stopped)) ∧
          (s.leaves (fun c => c.backlogDrain fn cqn ci false) → 2 ^ q.logSize < (q.pi - ci).toNat →
            Completes (.backlogDrain fn cqn ci false) s fun c => ∃ q', c.queue? h cqn = some q' ∧ q'.state = .error ∧ q'.cause = 3) ∧
          (s.leaves (fun c => c.backlogDrain fn cqn ci true) →
            Completes (.backlogDrain fn cqn ci true) s fun c =>
              ∃ q', c.queue? h cqn = some q' ∧ q'.state = .error ∧ q'.cause = 1 ∧ q'.backlog = [])) ∧
        (cqn = 0 → f.ctlBacklogged = true → f.ctlCqCause = 0 →
          (s.serving → (f.ctlCqPi - ci).toNat ≤ 2 ^ s.chip.ctlCqLog fn →
            Completes (.backlogDrain fn cqn ci false) s fun c =>
              let n := min f.ctlBacklog.length (2 ^ s.chip.ctlCqLog fn - (f.ctlCqPi - ci).toNat)
              (c.fn fn).ctlBacklog = f.ctlBacklog.drop n ∧ (c.fn fn).ctlCqPi = f.ctlCqPi + BitVec.ofNat 32 n ∧
              (c.fn fn).ctlCqCi = ci ∧ (c.fn fn).ctlBacklogged = !(n == f.ctlBacklog.length)) ∧
          (s.leaves (fun c => c.backlogDrain fn cqn ci false) → 2 ^ s.chip.ctlCqLog fn < (f.ctlCqPi - ci).toNat →
            Completes (.backlogDrain fn cqn ci false) s fun c => (c.fn fn).ctlCqCause = 3) ∧
          (s.leaves (fun c => c.backlogDrain fn cqn ci true) →
            Completes (.backlogDrain fn cqn ci true) s fun c => (c.fn fn).ctlCqCause = 1 ∧ (c.fn fn).ctlBacklog = []))))

/-- R125, R145, R146: CREATE and RESET entries of a control SQ that has one to consume, the control CQ with room: the entry
is consumed and completed. A CREATE without reason to fail makes the queue with the indices its block holds (with more than
a ring holds, or a failed read, it is made and in error); one with a reason makes none and reports it (which fields are bad
is in part the model's choice: log entries 35 and 73). RESET makes a queue in error active with the indices of its block, a
work queue (its CQ active) with nothing cached, a CQ with its loss reported; another opcode fails with reason 1, another
function's or no queue with 3, a queue not in error, a CQ not active or a failed read with 4 (the last, and no queue, the
model's choice: log entry 74). The number a CREATE is given is free. Without an entry to consume nothing changes. What may
go beyond is stated wherever it leaves nothing to carry out. R146: DESTROY entries of a control SQ that has one to consume,
the control CQ with room: the entry is consumed. An idle CQ that no queue is bound to, an EQ, and an idle work queue with no
entry left are removed, and the entry is completed; a CQ with queues bound fails with reason 5, another function's queue or
none with 3 (none: the model's choice, log entry 74), another opcode with 1. A queue with SQ entries still open stays,
without taking more, until they have ended. Without an entry to consume nothing changes. -/
def Obligations.QueuesComeAndGo : Prop :=
  (∀ (s : State) (fn : Nat) (e : Entry),
      let h := fn / 256
      let old := s.chip
      (s.chip.ctlRoom fn = true →
        (∀ qn (pi ci : BitVec 32) k, s.chip.createReason fn e = 0 →
          kindOfQtype e.qtype = some k → qn ≠ 0 → qn < 2 ^ 24 → s.chip.queue? h qn = none →
          (s.serving → (pi - ci).toNat ≤ 2 ^ e.logsize →
            Completes (.create fn e qn (.ok pi ci)) s fun c =>
              c.mem = s.chip.mem ∧ c.queue? h qn = some (newQueue fn e k pi ci) ∧ c.ctlAnswered old fn e qn 0) ∧
          (s.leaves (fun c => c.createQueue fn e qn (.ok pi ci)) → 2 ^ e.logsize < (pi - ci).toNat →
            Completes (.create fn e qn (.ok pi ci)) s fun c => ∃ q', c.queue? h qn = some q' ∧ q'.state = .error ∧ q'.kind = k)) ∧
        (∀ qn k, s.leaves (fun c => c.createQueue fn e qn .failed) → s.chip.createReason fn e = 0 →
          kindOfQtype e.qtype = some k → qn ≠ 0 → qn < 2 ^ 24 → s.chip.queue? h qn = none →
          Completes (.create fn e qn .failed) s fun c => ∃ q', c.queue? h qn = some q' ∧ q'.state = .error ∧ q'.kind = k) ∧
        (∀ qn idx, s.serving → s.chip.createReason fn e ≠ 0 →
          Completes (.create fn e qn idx) s fun c =>
            c.queues = s.chip.queues ∧ c.ctlAnswered old fn e 0 (s.chip.createReason fn e) ∧ c.mem = s.chip.mem) ∧
        (s.chip.flushing fn e.dqn = false →
          (∀ idx, s.serving → e.opcode ≠ 0xC2 →
            Completes (.reset fn e idx) s fun c => c.queues = s.chip.queues ∧ c.ctlAnswered old fn e e.dqn 1) ∧
          (∀ idx, s.serving → e.opcode = 0xC2 → (∀ q, s.chip.queue? h e.dqn = some q → q.fn ≠ fn) →
            Completes (.reset fn e idx) s fun c => c.queues = s.chip.queues ∧ c.ctlAnswered old fn e e.dqn 3) ∧
          (∀ q, e.opcode = 0xC2 → s.chip.queue? h e.dqn = some q → q.fn = fn →
            (∀ idx : IndexRead, s.serving →
              q.state ≠ .error ∨ idx = .failed ∨ (q.isWork = true ∧ ∀ x, s.chip.queue? h q.cqn = some x → x.state ≠ .active) →
              Completes (.reset fn e idx) s fun c => c.queues = s.chip.queues ∧ c.ctlAnswered old fn e e.dqn 4) ∧
            (∀ cq (pi ci : BitVec 32), s.serving → q.isWork = true → q.state = .error → q.backlog = [] → q.backlogged = false →
              s.chip.queue? h q.cqn = some cq → cq.state = .active → (pi - ci).toNat ≤ 2 ^ q.logSize →
              Completes (.reset fn e (.ok pi ci)) s fun c =>
                c.queue? h e.dqn = some { q with pi := pi, ci := ci, cached := [], hint := none, state := .active, cause := 0 } ∧
                c.ctlAnswered old fn e e.dqn 0) ∧
            (∀ (pi ci : BitVec 32), s.serving → q.kind = .eq → q.state = .error → q.backlog = [] → q.backlogged = false →
              (pi - ci).toNat ≤ 2 ^ q.logSize →
              Completes (.reset fn e (.ok pi ci)) s fun c =>
                c.queue? h e.dqn = some { q with pi := pi, ci := ci, state := .active, cause := 0 } ∧ c.ctlAnswered old fn e e.dqn 0) ∧
            (∀ (pi ci : BitVec 32), s.serving → q.kind = .cq → q.state = .error →
              (pi - ci).toNat + q.backlog.length + 1 ≤ 2 ^ q.logSize →
              Completes (.reset fn e (.ok pi ci)) s fun c =>
                ∃ q', c.queue? h e.dqn = some q' ∧ q'.state = .active ∧ q'.cause = 0 ∧ q'.lost = 0 ∧ q'.backlog = [] ∧
                  q'.backlogged = false ∧ q'.ci = ci ∧
                  c.ctlAnswered old fn e e.dqn 0 ∧
                  q'.pi = pi + BitVec.ofNat 32 (q.backlog.length + if q.lost = 0 then 0 else 1))))) ∧
      (∀ qn idx, s.serving → s.chip.ctlReady fn = false →
        Completes (.create fn e qn idx) s (fun c => c = s.chip) ∧ Completes (.reset fn e idx) s fun c => c = s.chip))
  ∧ (∀ (s : State) (fn : Nat) (e : Entry),
      let h := fn / 256
      let old := s.chip
      (s.chip.ctlRoom fn = true →
        (s.serving → e.opcode ≠ 0xC1 →
          Completes (.destroy fn e) s fun c => c.queues = s.chip.queues ∧ c.ctlAnswered old fn e e.dqn 1) ∧
        (s.serving → e.opcode = 0xC1 → (∀ q, s.chip.queue? h e.dqn = some q → q.fn ≠ fn) →
          Completes (.destroy fn e) s fun c => c.queues = s.chip.queues ∧ c.ctlAnswered old fn e e.dqn 3) ∧
        (∀ q, e.opcode = 0xC1 → s.chip.queue? h e.dqn = some q → q.fn = fn →
          (s.serving → q.kind = .cq → s.chip.boundTo h e.dqn ≠ [] →
            Completes (.destroy fn e) s fun c => c.queues = s.chip.queues ∧ c.ctlAnswered old fn e e.dqn 5) ∧
          (s.serving → q.isWork = false → s.chip.queueIdle h e.dqn q = true → q.kind = .eq ∨ s.chip.boundTo h e.dqn = [] →
            Completes (.destroy fn e) s fun c =>
              c.queue? h e.dqn = none ∧ c.ctlAnswered old fn e e.dqn 0 ∧ c.mem = s.chip.mem) ∧
          (s.leaves (fun c => c.destroyQueue fn e) → q.isWork = true → s.chip.queueIdle h e.dqn q = true → q.unconsumed = 0 →
            Completes (.destroy fn e) s fun c => c.queue? h e.dqn = none ∧ (c.fn fn).ctlSqCi = (s.chip.fn fn).ctlSqCi + 1) ∧
          (s.leaves (fun c => { c.destroyQueue fn e with queues := c.queues }) → q.isWork = true → q.openPos ≠ [] →
            Completes (.destroy fn e) s fun c =>
              ∃ q', c.queue? h e.dqn = some q' ∧ q'.destroying = some e.wrid ∧ (c.fn fn).ctlSqCi = (s.chip.fn fn).ctlSqCi + 1))) ∧
      (s.serving → s.chip.ctlReady fn = false → Completes (.destroy fn e) s fun c => c = s.chip))

/-! ### Work entries -/

/-- R134, R139, R141, R142, R190: an SEND, TAGGED SEND (not so long that it goes as an offer), WRITE or WRITE-WITH-NOTIFY
entry that the device may consume, neither held nor malformed, its data (inline, or what the source buffer holds) at hand,
that may start on a channel on which nothing can end by itself. It is consumed: CI and the position advance; its operation,
with the entry's fields and the data, joins its channel. Where the destination is fenced or has no route, or the source is
refused, it fails instead: behind an open earlier entry it waits, else it completes with that status. Stated wherever that
leaves nothing to carry out. Of an SQ that may not consume one, nothing changes. R147, R149: a Veneer entry that the device
may consume, well formed, under the same conditions for its native form: it is consumed, OWN is written 0 in its ring slot
(as one byte), and the native form's operation joins the channel, or fails as a data entry does. A zero-length READ is left
out here. -/
def Obligations.DataAndVeneerEntriesStart : Prop :=
  (∀ (s : State) (h qn : Nat) (e : Entry) (data : SourceData),
      (∀ (e' : Entry) (q : Queue), s.leaves (fun c => c.takeNative h qn e'.opcode e data) → s.chip.takeable h qn e = some (q, e') →
        e'.held = false → sqMalformed e' = false → s.chip.canStart h qn e' = true → s.chip.sourceGiven q.fn e' data = true →
        s.chip.offered e' = false → s.chip.chanOpen (entryChan h e') = true →
        let outcome (c : Chip) : Prop :=
          c.mem.hbm = s.chip.mem.hbm ∧
          (∀ st, s.chip.entryFails q.fn e' data = some st → c.failsEntry s.chip h qn q e' st) ∧
          (s.chip.entryFails q.fn e' data = none → c.took h qn q ∧ ∃ l, (s.chip.sourceOf q.fn e' data).2 = some (.inr l) ∧
              c.carries (entryChan h e') { dataOp q (opOf q.fn qn q.nextPos e') e' l with total := e'.length })
        (e'.opcode = 0x01 → Completes (.send h qn e data) s outcome) ∧
        (e'.opcode = 0x02 → Completes (.taggedSend h qn e data) s outcome) ∧
        (e'.opcode = 0x10 → Completes (.writeEntry h qn e data) s outcome) ∧
        (e'.opcode = 0x11 → Completes (.writeWithNotify h qn e data) s outcome)) ∧
      (s.serving → s.chip.takeable h qn e = none →
        Completes (.send h qn e data) s (fun c => c = s.chip) ∧ Completes (.taggedSend h qn e data) s (fun c => c = s.chip) ∧
        Completes (.writeEntry h qn e data) s (fun c => c = s.chip) ∧ Completes (.writeWithNotify h qn e data) s fun c => c = s.chip))
  ∧ (∀ (s : State) (h qn : Nat) (v v' : VEntry) (q : Queue) (data : SourceData),
      s.leaves (fun c => c.takeVeneer h qn (veneerOpcode v'.vop) v data) → s.chip.veneerReady h qn v = some (q, v') →
      veneerMalformed q v' = false →
      let e := v'.native q.vclass q.vlkey (s.chip.veneerAddr q v'.loffset)
      s.chip.canStart h qn e = true → s.chip.sourceGiven q.fn e data = true → s.chip.chanOpen (entryChan h e) = true →
      let outcome (started : Chip → Prop) (c : Chip) : Prop :=
        c.mem.hbm = s.chip.mem.hbm ∧
        (s.chip.hostServed q.fn = true →
          .dma h q.fn (slotAddr q.ring q.logSize 32 q.ci + 7) [BitVec.ofNat 8 v'.vop] false ∈ c.out) ∧
        (∀ st, s.chip.entryFails q.fn e data = some st → c.failsEntry s.chip h qn q e st) ∧
        (s.chip.entryFails q.fn e data = none → c.took h qn q ∧ started c)
      let carried (c : Chip) : Prop := ∃ l, (s.chip.sourceOf q.fn e data).2 = some (.inr l) ∧
        c.carries (entryChan h e) { dataOp q (opOf q.fn qn q.nextPos e) e l with total := e.length }
      (v'.vop = 0x00 → data = .bytes [] →
        Completes (.veneerNop h qn v) s (outcome fun c => c.carries (entryChan h e) (controlOp (opOf q.fn qn q.nextPos e) e))) ∧
      (v'.vop = 0x01 → Completes (.veneerSend h qn v data) s (outcome carried)) ∧
      (v'.vop = 0x08 → Completes (.veneerWrite h qn v data) s (outcome carried)) ∧
      (v'.vop = 0x10 → data = .bytes [] → e.length ≠ 0 →
        Completes (.veneerRead h qn v) s (outcome fun c =>
          ∀ o ∈ s.chip.readOps (opOf q.fn qn q.nextPos e) e, c.carries (entryChan h e) { o with total := e.length })))

/-- R171, R223, R228, R229: under the same conditions, a TAGGED SEND above the eager threshold opens an offer of its length
with the free key of lowest index (the model's choice, log entry 87), its OFFER message on its channel; a READ puts one
operation per chunk on its channel, one of length 0 completes with success at once where it signals. Each fails as a data
entry does. -/
def Obligations.OffersAndReadsStart : Prop :=
  ∀ (s : State) (h qn : Nat) (e e' : Entry) (q : Queue) (data : SourceData),
    s.leaves (fun c => c.takeNative h qn e'.opcode e data) → s.chip.takeable h qn e = some (q, e') →
    e'.held = false → sqMalformed e' = false → s.chip.canStart h qn e' = true → s.chip.chanOpen (entryChan h e') = true →
    let fate := s.chip.entryFails q.fn e' data
    (e'.opcode = 0x02 → s.chip.offered e' = true →
      Completes (.taggedSend h qn e data) s fun c => c.mem.hbm = s.chip.mem.hbm ∧
        (∀ st, fate = some st → c.failsEntry s.chip h qn q e' st ∧ c.mt.sOffers = s.chip.mt.sOffers) ∧
        (fate = none → c.took h qn q ∧
            ∃ o ∈ c.mt.sOffers, o.index = s.chip.freeOffer ∧ o.qn = qn ∧ o.fn = q.fn ∧ o.wrid = e'.wrid ∧ o.length = e'.length ∧
              o.lkey = e'.lkey ∧ o.chan = entryChan h e' ∧ o.pos = q.nextPos ∧ o.signal = e'.signal)) ∧
    (e'.opcode = 0x20 → data = .bytes [] →
      Completes (.readEntry h qn e) s fun c => c.mem.hbm = s.chip.mem.hbm ∧
        (∀ st, fate = some st → c.failsEntry s.chip h qn q e' st) ∧
        (fate = none →
          (e'.length ≠ 0 → c.took h qn q ∧
            ∀ o ∈ s.chip.readOps (opOf q.fn qn q.nextPos e') e', c.carries (entryChan h e') { o with total := e'.length }) ∧
          (e'.length = 0 → e'.signal = false → q.failed = [] → c.took h qn q) ∧
          (e'.length = 0 → e'.signal = true → q.failed = [] → ∀ cq, s.chip.queue? h q.cqn = some cq →
            s.chip.cqRoom h q.cqn cq = true → s.chip.hostServed cq.fn = true →
            c.took h qn q ∧ c.wrote s.chip h qn q.cqn cq { wrid := e'.wrid, opcode := 0x20, peer := sendPeer e' } 0)))

/-- R143: under the same conditions, an atomic, a COUNT or a NOP is consumed and joins its channel with its operands; where
the destination is fenced or has no route, it fails as a data entry does. Of an SQ that may not consume one, nothing
changes; so for a READ. R144, R150, R208, R215, R222, R235: a RECV that the device may consume waits behind the earlier ones
of its queue; a TAGGED RECV, with room to post it, takes its posting sequence and its place in the lists where no message
awaits it and nothing delays it, or the stored message that awaits it is copied to its buffer; it waits where its reads, or
an earlier waiting one of its context, detain it and the engine has a place; with a context that is not bound to its queue
it completes with 0x02. A malformed entry is consumed and completes with 0x0A: one of an SQ, native or Veneer, as a failed
entry does, one of an RQ or SRQ at once. What completes is stated wherever it leaves nothing to carry out, and its CQ has
room. -/
def Obligations.ControlEntriesStartReceivesWait : Prop :=
  (∀ (s : State) (h qn : Nat) (e : Entry),
      (∀ (e' : Entry) (q : Queue), s.leaves (fun c => c.takeNative h qn e'.opcode e (.bytes [])) → s.chip.takeable h qn e = some (q, e') →
        e'.held = false → sqMalformed e' = false → s.chip.canStart h qn e' = true → s.chip.chanOpen (entryChan h e') = true →
        let outcome (c : Chip) : Prop :=
          c.mem.hbm = s.chip.mem.hbm ∧
          (∀ st, s.chip.preFail e'.dest = some st → c.failsEntry s.chip h qn q e' st) ∧
          (s.chip.preFail e'.dest = none → c.took h qn q ∧
              c.carries (entryChan h e')
                { controlOp (opOf q.fn qn q.nextPos e') e' with total := (controlOp (opOf q.fn qn q.nextPos e') e').length })
        (e'.opcode = 0x30 → Completes (.fetchAdd h qn e) s outcome) ∧ (e'.opcode = 0x31 → Completes (.swap h qn e) s outcome) ∧
        (e'.opcode = 0x32 → Completes (.compareSwap8 h qn e) s outcome) ∧
        (e'.opcode = 0x33 → Completes (.compareSwap16 h qn e) s outcome) ∧
        (e'.opcode = 0x40 → Completes (.count h qn e) s outcome) ∧ (e'.opcode = 0x41 → Completes (.nop h qn e) s outcome)) ∧
      (s.serving → s.chip.takeable h qn e = none →
        Completes (.readEntry h qn e) s (fun c => c = s.chip) ∧ Completes (.fetchAdd h qn e) s (fun c => c = s.chip) ∧
        Completes (.swap h qn e) s (fun c => c = s.chip) ∧ Completes (.compareSwap8 h qn e) s (fun c => c = s.chip) ∧
        Completes (.compareSwap16 h qn e) s (fun c => c = s.chip) ∧ Completes (.count h qn e) s (fun c => c = s.chip) ∧
        Completes (.nop h qn e) s fun c => c = s.chip))
  ∧ (∀ (s : State) (h qn : Nat) (e e' : Entry) (q : Queue),
      (s.chip.recvReady h qn e = some (q, e') → recvMalformed e' = false →
        (s.serving → e'.opcode = 0xE0 →
          Completes (.recv h qn e) s fun c =>
            c.mem = s.chip.mem ∧ c.tr = s.chip.tr ∧ ∃ q', c.queue? h qn = some q' ∧ q'.ci = q.ci + 1 ∧ q'.recvs = q.recvs ++ [e']) ∧
        (e'.opcode = 0xE1 →
          let ctx := ctxKey h e'.rMctx
          let bound := (s.chip.mctx? ctx).elim false fun m => m.qn == qn
          let detained := s.chip.mt.waiting.any fun r => waitCtx r == ctx
          (∀ deferred, s.serving → (bound = true → s.chip.postedRoom q.fn = true) → deferred = true ∨ detained = true →
            (s.chip.mt.waiting.filter fun r => s.chip.engineUnit (waitCtx r) == s.chip.engineUnit ctx).length < 64 →
            Completes (.taggedRecv h qn e deferred) s fun c =>
              c.mem = s.chip.mem ∧ c.mt.waiting = s.chip.mt.waiting ++ [(qKey h qn, e')] ∧
              c.mt.posted = s.chip.mt.posted ∧ ∃ q', c.queue? h qn = some q' ∧ q'.ci = q.ci + 1) ∧
          (∀ m : MCtx, s.serving → s.chip.mctx? ctx = some m → m.qn = qn → s.chip.postedRoom q.fn = true → detained = false →
            s.chip.findUnexp ctx e' = none →
            Completes (.taggedRecv h qn e false) s fun c =>
              c.mem = s.chip.mem ∧ c.mctx? ctx = some { m with nextSeq := m.nextSeq + 1 } ∧
              c.mt.posted = s.chip.mt.posted ++ [{ ctx := ctx, seq := m.nextSeq, qn := qn, entry := e' }] ∧
              ∃ q', c.queue? h qn = some q' ∧ q'.ci = q.ci + 1) ∧
          (∀ (m : MCtx) (u : Unexp), s.serving → s.chip.mctx? ctx = some m → m.qn = qn → s.chip.postedRoom q.fn = true → detained = false →
            s.chip.findUnexp ctx e' = some u → u.isOffer = false →
            Completes (.taggedRecv h qn e false) s fun c =>
              c.mem = s.chip.mem ∧ c.mt.posted = s.chip.mt.posted ∧
              c.mt.unexp = eraseFirst (fun x => x.chan == u.chan && x.msgid == u.msgid) s.chip.mt.unexp ∧
              (∃ y ∈ c.mt.copies, y.chan = u.chan ∧ y.msg = u ∧ y.qn = qn ∧ y.entry = e') ∧
              ∃ q', c.queue? h qn = some q' ∧ q'.ci = q.ci + 1) ∧
          (∀ cq, s.leaves (fun c => c.takeTaggedRecv h qn e false) → bound = false → detained = false →
            s.chip.cqRoom h q.cqn cq = true → s.chip.hostServed cq.fn = true →
            Completes (.taggedRecv h qn e false) s fun c =>
              c.mem = s.chip.mem ∧ c.wrote s.chip h qn q.cqn cq (flushCompletion true e') 2))) ∧
      (s.leaves (fun c => c.takeMalformedEntry h qn e) →
        (s.chip.takeable h qn e = some (q, e') → s.chip.sqBad h q.fn e' = true →
          Completes (.malformedEntry h qn e) s fun c => c.mem = s.chip.mem ∧ c.failsEntry s.chip h qn q e' 0x0A) ∧
        (∀ v : VEntry, s.chip.veneerReady h qn (asVeneer e) = some (q, v) → veneerMalformed q v = true →
          Completes (.malformedEntry h qn e) s fun c =>
            c.mem = s.chip.mem ∧ c.failsEntry s.chip h qn q (v.native q.vclass q.vlkey 0) 0x0A) ∧
        (∀ cq, s.chip.recvReady h qn e = some (q, e') → recvMalformed e' = true → s.chip.cqRoom h q.cqn cq = true →
          s.chip.hostServed cq.fn = true →
          Completes (.malformedEntry h qn e) s fun c =>
            c.mem = s.chip.mem ∧ c.wrote s.chip h qn q.cqn cq (flushCompletion true e') 0x0A ∧
            ∃ q', c.queue? h qn = some q' ∧ q'.ci = q.ci + 1)))

/-! ### Trigger counters and held entries -/

/-- R237, R238, R241, R243: commands on counter n for function fn by a writer that may give them. ALLOCATE gives an unowned
counter to a function below its limit, VALUE 0; CONFIGURE stores what the counter counts; SET and ADD change VALUE, an ADD
above 2^48 - 1 holds it there with SAT, and release the entries that it reaches, each whose SQ exists; FREE gives the
counter up, entries held on it and not released leave. An ALLOCATE of an owned counter or at the limit, a command of another
than the owner, and a SOURCE of 4 to 15 change nothing and report 0x07. No other counter changes, nor fabric memory. Where a
release or a completion can go further, it is stated wherever it leaves at most places for the released entries to take, no
two held entries in one slot. -/
def Obligations.CounterCommandsAct : Prop :=
  ∀ (s : State) (w : Writer) (fn n : Nat) (arg : BitVec 44),
    s.chip.mayWrite w (pnum 0x23 0x010 fn) = true → fn < 1024 → n < 65536 →
    let others (c : Chip) : Prop := (∀ m, m ≠ n → c.tctr? m = s.chip.tctr? m) ∧ c.mem = s.chip.mem
    let full := s.chip.param 0x23 0x003 fn ≤ (s.chip.tg.ctrs.filter fun r => r.2.owner == fn).length
    let refused (c : Chip) : Prop := c = { s.chip with out := s.chip.out ++ [.dictReply w 7 []] }
    let nothing (c : Chip) : Prop := c.tg.held = s.chip.tg.held ∧ c.queues = s.chip.queues ∧ c.tr = s.chip.tr
    (s.serving → s.chip.tctr? n = none → ¬full →
      Completes (.allocate w fn n) s fun c =>
        c.out = s.chip.out ++ [.dictReply w 0 []] ∧ c.tctr? n = some { owner := fn } ∧ nothing c ∧ others c) ∧
    (s.serving → (s.chip.tctr? n).isSome = true ∨ full → Completes (.allocate w fn n) s refused) ∧
    (s.serving → s.chip.ownCtr? fn n = none →
      Completes (.free w fn n) s refused ∧ Completes (.configure w fn n arg) s refused ∧
      Completes (.set w fn n arg) s refused ∧ Completes (.add w fn n arg) s refused) ∧
    (∀ t : TCtr, s.chip.tctr? n = some t → t.owner = fn →
      let reached (v : Nat) : Bool := s.chip.tg.held.any fun e => e.ctr == n && !e.released && decide (e.thresh.toNat ≤ v)
      let sum := t.value.toNat + arg.toNat
      (s.serving → arg.extractLsb' 40 4 < 4 → Completes (.configure w fn n arg) s fun c =>
        others c ∧ nothing c ∧
        c.tctr? n = some { t with source := (arg.extractLsb' 40 4).toNat, remote := arg.getLsbD 39
                                  allStatus := arg.getLsbD 38, srcNum := (arg.extractLsb' 0 24).toNat }) ∧
      (s.serving → 4 ≤ arg.extractLsb' 40 4 → Completes (.configure w fn n arg) s refused) ∧
      (s.serving → reached arg.toNat = false → Completes (.set w fn n arg) s fun c =>
        others c ∧ nothing c ∧ c.tctr? n = some { t with value := arg.setWidth 48, sat := false }) ∧
      (s.leavesPlaces (fun c => c.ctrWrite w fn 4 n arg.toNat) → s.chip.slotsApart →
        Completes (.set w fn n arg) s fun c =>
          others c ∧ c.tctr? n = some { t with value := arg.setWidth 48, sat := false } ∧ c.heldView = s.chip.heldReached n arg.toNat) ∧
      (s.serving → sum < 2 ^ 48 → reached sum = false → Completes (.add w fn n arg) s fun c =>
        others c ∧ nothing c ∧ c.tctr? n = some { t with value := t.value + arg.setWidth 48 }) ∧
      (s.leavesPlaces (fun c => c.ctrWrite w fn 5 n arg.toNat) → s.chip.slotsApart →
        Completes (.add w fn n arg) s fun c =>
          others c ∧ c.heldView = s.chip.heldReached n (min sum (2 ^ 48 - 1)) ∧
          c.tctr? n = some (if sum < 2 ^ 48 then { t with value := t.value + arg.setWidth 48 }
            else { t with value := BitVec.allOnes 48, sat := true })) ∧
      (s.serving → (s.chip.tg.held.any fun e => e.ctr == n && !e.released) = false → Completes (.free w fn n) s fun c =>
        others c ∧ nothing c ∧ c.tctr? n = none) ∧
      (s.leaves (fun c => c.ctrWrite w fn 2 n 0) → Completes (.free w fn n) s fun c =>
        c.mem = s.chip.mem ∧ c.tctr? n = none ∧ ∀ e ∈ c.tg.held, e.ctr = n → e.released = true))

/-- R242, R243, R244: an SQ entry with HELD that the device may consume, well formed: with its counter owned by its function
and room in the held area, it goes to the free slot of lowest number (the model's choice, log entry 90) of the area, and is
released at once where the counter has reached its threshold; without room it is not consumed; without the counter it
completes with 0x02 at once. A released entry that may be read back and start leaves the held area: its operation joins its
channel, with the MSGID its place has; an offer opens; a collective is posted; or it fails like an SQ entry, at once where
none before it is open. Where the read fails, its SQ goes to error with cause 2 and holds no entry more. One that may not be
read back changes nothing. Stated wherever the effect leaves at most places of held entries to settle. -/
def Obligations.HeldEntriesWaitAndStart : Prop :=
  ∀ (s : State),
    (∀ (h qn : Nat) (e : Entry), s.serving → s.chip.takeable h qn e = none → Completes (.heldEntry h qn e) s fun c => c = s.chip) ∧
    (∀ (h qn : Nat) (e e' : Entry) (q : Queue), s.chip.takeable h qn e = some (q, e') → e'.held = true → s.chip.sqBad h q.fn e' = false →
      (∀ t : TCtr, s.chip.tctr? e'.tctr = some t → t.owner = q.fn →
        (s.chip.heldRoom q.fn = true → q.failsWait = true →
          let stands (c : Chip) : Prop :=
            c.mem = s.chip.mem ∧ c.took h qn q ∧
            (s.chip.hostServed q.fn = true →
              .dma h q.fn (s.chip.param 0x23 0x001 q.fn + 64 * s.chip.freeSlot q.fn) (Entry.bytes64 e') false ∈ c.out) ∧
            ∃ r ∈ c.tg.held, r.fn = q.fn ∧ r.slot = s.chip.freeSlot q.fn ∧ r.qn = qn ∧ r.ctr = e'.tctr ∧ r.entry = e' ∧
              r.pos = q.nextPos ∧ r.released = decide (e'.thresh.toNat ≤ t.value.toNat)
          (s.serving → (s.chip.tg.held.any fun x => x.ctr == e'.tctr && !x.released && decide (x.thresh.toNat ≤ t.value.toNat)) = false →
            t.value.toNat < e'.thresh.toNat → Completes (.heldEntry h qn e) s fun c => c.tr = s.chip.tr ∧ stands c) ∧
          (s.leavesPlaces (fun c => c.takeHeld h qn e) → s.chip.slotsApart → Completes (.heldEntry h qn e) s stands)) ∧
        (s.serving → s.chip.heldRoom q.fn = false → Completes (.heldEntry h qn e) s fun c => c = s.chip)) ∧
      (∀ cq : Queue, s.leaves (fun c => c.takeHeld h qn e) → s.chip.ownCtr? q.fn e'.tctr = none → q.failsWait = true →
        s.chip.cqRoom h q.cqn cq = true → s.chip.hostServed cq.fn = true →
        Completes (.heldEntry h qn e) s fun c =>
          c.tg.held = s.chip.tg.held ∧ c.took h qn q ∧ c.wrote s.chip h qn q.cqn cq (flushCompletion false e') 2)) ∧
    (∀ (fn slot : Nat) (r : HeldEnt) (q : Queue) (data : SourceData), s.chip.readable fn slot = some (r, q) →
      s.leavesPlaces (fun c => c.heldReadBack fn slot data) → r.entry.opcode < 0x60 → s.chip.canStart (fn / 256) r.qn r.entry = true →
      s.chip.sourceGiven q.fn r.entry data = true →
      let h := fn / 256
      let k := entryChan h r.entry
      let o := opOf q.fn r.qn r.pos r.entry
      let gone (c : Chip) : Prop := ∀ e ∈ c.tg.held, ¬ (e.fn = fn ∧ e.slot = slot)
      (s.chip.entryFails q.fn r.entry data = none →
        (0x30 ≤ r.entry.opcode →
          Completes (.heldEntryReadBack fn slot data) s fun c =>
            gone c ∧ c.carries k { controlOp o r.entry with total := (controlOp o r.entry).length }) ∧
        (r.entry.opcode = 0x20 → r.entry.length ≠ 0 →
          Completes (.heldEntryReadBack fn slot data) s fun c =>
            gone c ∧ ∀ x ∈ s.chip.readOps o r.entry, c.carries k { x with total := r.entry.length }) ∧
        (r.entry.opcode < 0x20 → s.chip.offered r.entry = false →
          Completes (.heldEntryReadBack fn slot data) s fun c =>
            gone c ∧ ∃ l, (s.chip.sourceOf q.fn r.entry data).2 = some (.inr l) ∧
              c.carries k { dataOp q o r.entry l with total := r.entry.length }) ∧
        (s.chip.offered r.entry = true →
          Completes (.heldEntryReadBack fn slot data) s fun c =>
            gone c ∧ ∃ x ∈ c.mt.sOffers, x.index = s.chip.freeOffer ∧ x.qn = r.qn ∧ x.fn = q.fn ∧ x.pos = r.pos ∧
              x.length = r.entry.length)) ∧
      (∀ st (cq : Queue), s.chip.entryFails q.fn r.entry data = some st → q.failed = [] → q.openPos.all (r.pos ≤ ·) = true →
        s.chip.cqRoom h q.cqn cq = true → s.chip.hostServed cq.fn = true →
        Completes (.heldEntryReadBack fn slot data) s fun c =>
          gone c ∧ c.wrote s.chip h r.qn q.cqn cq (failedCompletion r.entry st) st)) ∧
    (∀ (fn slot : Nat) (r : HeldEnt) (q : Queue) (data : SourceData), s.chip.readable fn slot = some (r, q) →
      s.leavesPlaces (fun c => c.heldReadBack fn slot data) → 0x60 ≤ r.entry.opcode → s.chip.canPost (fn / 256) r.entry = true →
      s.chip.variant.collEngines = 0 ∨ (s.chip.operandOf (fn / 256) q.fn r.entry data).2.isSome = true →
      Completes (.heldEntryReadBack fn slot data) s fun c => ∀ e ∈ c.tg.held, ¬ (e.fn = fn ∧ e.slot = slot)) ∧
    (∀ (fn slot : Nat) (r : HeldEnt) (q : Queue), s.chip.readable fn slot = some (r, q) → s.leavesPlaces (fun c => c.heldReadFails fn slot) →
      Completes (.heldAreaReadTimeout fn slot) s fun c =>
        c.mem = s.chip.mem ∧ (∀ e ∈ c.tg.held, ¬ (e.fn = q.fn ∧ e.qn = r.qn)) ∧
        ∃ q', c.queue? (fn / 256) r.qn = some q' ∧ q'.state = .error ∧ q'.cause = 2) ∧
    (∀ (fn slot : Nat) (data : SourceData), s.serving → s.chip.readable fn slot = none →
      Completes (.heldEntryReadBack fn slot data) s (fun c => c = s.chip) ∧
      Completes (.heldAreaReadTimeout fn slot) s fun c => c = s.chip)

/-! ### Matching -/

/-- R9, R203 to R205, R209: commands on a matching context by a writer that may give them; bits 62 to 44 of the value are
ignored. A BIND to an active RQ or SRQ of the function that is not being destroyed, of a context that is not bound, below
both limits, binds it with posting sequence 0; any other is refused with 0x07. An UNBIND by the owner, of the queue it is
bound to, takes the postings that wait on it, then leaves no posted receive and no waiting one of it, and no unexpected
message (where no two share a channel and MSGID); any other is refused. Other contexts stay. -/
def Obligations.ContextsBindAndUnbind : Prop :=
  ∀ (s : State) (w : Writer) (fn : Nat) (v : BitVec 64), s.chip.mayWrite w (pnum 0x22 0x010 fn) = true → fn < 1024 →
    let h := fn / 256
    let qn := (v.extractLsb' 20 24).toNat
    let ctx := ctxKey h (v.extractLsb' 0 20).toNat
    let refused (c : Chip) : Prop := c = { s.chip with out := s.chip.out ++ [.dictReply w 7 []] }
    let fits (q : Queue) : Bool :=
      (q.kind == .rq || q.kind == .srq) && q.fn == fn && q.state == .active && q.destroying.isNone && (s.chip.mctx? ctx).isNone &&
      decide (s.chip.mt.ctxs.length < 2 ^ 20) &&
      decide ((s.chip.mt.ctxs.filter fun r => s.chip.ctxFn r.1 == fn).length < s.chip.param 0x22 0x011 fn)
    (∀ q : Queue, s.serving → s.chip.queue? h qn = some q → fits q = true →
      Completes (.contextBind w fn v) s fun c =>
        c.mctx? ctx = some { qn := qn, nextSeq := 0 } ∧ (∀ k, k ≠ ctx → c.mctx? k = s.chip.mctx? k) ∧ c.mem = s.chip.mem ∧
        c.mt.unexp = s.chip.mt.unexp ∧ c.mt.posted = s.chip.mt.posted ∧ c.queues = s.chip.queues) ∧
    (s.serving → (s.chip.queue? h qn).elim false fits = false → Completes (.contextBind w fn v) s refused) ∧
    (∀ m : MCtx, s.leaves (fun c => c.numWrite w 0x22 0x010 fn 8 (v.toNat % 2 ^ 63)) → s.chip.mctx? ctx = some m → m.qn = qn →
      s.chip.ctxFn ctx = fn →
      Completes (.contextUnbind w fn v) s fun c =>
        c.mctx? ctx = none ∧ (∀ k, k ≠ ctx → c.mctx? k = s.chip.mctx? k) ∧ (∀ r ∈ c.mt.posted, r.ctx ≠ ctx) ∧
        (∀ r ∈ c.mt.waiting, waitCtx r ≠ ctx) ∧ c.mem.hbm = s.chip.mem.hbm ∧
        ((s.chip.mt.unexp.map fun u => (u.chan, u.msgid)).Nodup → ∀ u ∈ c.mt.unexp, u.ctx ≠ ctx)) ∧
    (s.serving → (s.chip.mctx? ctx).elim true (fun m => m.qn != qn || s.chip.ctxFn ctx != fn) = true →
      Completes (.contextUnbind w fn v) s refused)

/-- R225, R227, R229, R232, R235, R281: the copy of a whole stored message ends and its receive completes: with 0x04 if it
was read poisoned; else the bytes of a message of one packet that its buffer in fabric memory has room for are there, and
the status says whether it was cut (0x10). A matched offer that waits takes a record that is free and reads its bytes in
chunks; with nothing to take it is closed; a refused buffer or a destination that cannot be reached ends it with that
status. The TAGGED RECVs whose reads are done leave the waiting list: one of a context bound to its queue that no message
awaits takes its posting sequence and its place; with its context not so bound it completes with 0x02; a poisoned list entry
unbinds the context and puts its queue in error with cause 2. Where nothing of the kind waits, nothing changes. Completions
are stated where the CQ has room; all where the effect leaves nothing to carry out. -/
def Obligations.MatchedMessagesGoOn : Prop :=
  ∀ (s : State),
    (∀ id poisoned, s.serving → (s.chip.mt.copies.find? (fun y => y.id == id)).elim false (·.whole) = false →
      Completes (.eagerCopyComplete id poisoned) s fun c => c = s.chip) ∧
    (∀ (id : Nat) (y : EagerCopy) (q cq : Queue), s.chip.mt.copies.find? (fun y => y.id == id) = some y → y.whole = true →
      let h := chHost y.chan
      let e := y.entry
      let told (len : Nat) : Completion := taggedCompletion e y.msg.solicit (min len e.length) y.msg.src y.msg.bits
      s.chip.queue? h y.qn = some q → s.chip.silentFn q.fn = false → s.chip.cqRoom h q.cqn cq = true → s.chip.hostServed cq.fn = true →
      (s.leaves (fun c => c.copyComplete id true) →
        Completes (.eagerCopyComplete id true) s fun c =>
          c.mt.copies = eraseFirst (fun a => a.id == id) s.chip.mt.copies ∧ c.wrote s.chip h y.qn q.cqn cq (told y.msg.length) 4) ∧
      (s.leaves (fun c => c.copyComplete id false) →
        (y.msg.data = [] →
          Completes (.eagerCopyComplete id false) s fun c =>
            c.mem = s.chip.mem ∧ c.mt.copies = eraseFirst (fun a => a.id == id) s.chip.mt.copies ∧
            c.wrote s.chip h y.qn q.cqn cq (told y.msg.length) (if e.length < y.msg.length then 0x10 else 0)) ∧
        (∀ l a, y.msg.data = [(0, l)] →
          let n := min l.length e.length
          0 < n → s.chip.localCheck q.fn e.rLkey e.rLaddr n true = .fabric a →
          Completes (.eagerCopyComplete id false) s fun c =>
            c.mt.copies = eraseFirst (fun a => a.id == id) s.chip.mt.copies ∧ c.mem.read a n = l.take n ∧
            (∀ b, (b < a ∨ a + n ≤ b) → c.mem.byte b = s.chip.mem.byte b) ∧
            c.wrote s.chip h y.qn q.cqn cq (told y.msg.length) (if e.length < y.msg.length then 0x10 else 0)))) ∧
    (∀ id, s.serving →
      (s.chip.mt.tOffers.find? (fun t => t.id == id)).elim true (fun t => t.reading) = true ∨ 65536 ≤ s.chip.offerRecords →
      Completes (.offerRecordFreed id) s fun c => c = s.chip) ∧
    (∀ (id : Nat) (t : TOffer) (q cq : Queue), s.leaves (fun c => c.offerRecordFreed id) →
      s.chip.mt.tOffers.find? (fun t => t.id == id) = some t → t.reading = false → s.chip.offerRecords < 65536 →
      let h := chHost t.chan
      let check := s.chip.localCheck q.fn t.entry.rLkey t.entry.rLaddr t.take true
      let far := s.chip.preFail (chRemote t.chan)
      s.chip.queue? h t.qn = some q →
      (t.take ≠ 0 → 0 < s.chip.param 0x21 0x035 0 → check.refusal = none → far = none →
        Completes (.offerRecordFreed id) s fun c =>
          c.mem.hbm = s.chip.mem.hbm ∧ { t with reading := true } ∈ c.mt.tOffers ∧
          ∃ y a, c.chan? t.chan = some y ∧ a ∈ y.ops ∧ a.toffer = some id ∧ a.opcode = 0x20 ∧ a.lo = t.offset ∧
            a.lo2 = t.key.toNat ∧ a.laddr = t.entry.rLaddr) ∧
      (∀ st, t.take ≠ 0 → check.refusal.or far = some st → s.chip.silentFn q.fn = false → s.chip.cqRoom h q.cqn cq = true →
        s.chip.hostServed cq.fn = true →
        Completes (.offerRecordFreed id) s fun c =>
          c.mem.hbm = s.chip.mem.hbm ∧ c.wrote s.chip h t.qn q.cqn cq (taggedCompletion t.entry t.solicit 0 t.src t.bits) st) ∧
      (t.take = 0 → s.chip.chanOpen t.chan = true → s.chip.silentFn q.fn = false → s.chip.cqRoom h q.cqn cq = true →
        s.chip.hostServed cq.fn = true →
        Completes (.offerRecordFreed id) s fun c =>
          c.mem.hbm = s.chip.mem.hbm ∧
          c.wrote s.chip h t.qn q.cqn cq (taggedCompletion t.entry t.solicit 0 t.src t.bits) (if 0 < t.length then 0x10 else 0))) ∧
    (∀ ctx, s.serving → (∀ r ∈ s.chip.mt.waiting, waitCtx r ≠ ctx) →
      Completes (.matchEntryReadDone ctx false) s fun c => c = s.chip) ∧
    (∀ ctx, s.leaves (fun c => c.matchReadDone ctx) →
      Completes (.matchEntryReadDone ctx false) s fun c => c.mem.hbm = s.chip.mem.hbm ∧ ∀ r ∈ c.mt.waiting, waitCtx r ≠ ctx) ∧
    (∀ (ctx : Nat) (r : Nat × Entry), s.chip.mt.waiting.filter (fun r => waitCtx r == ctx) = [r] →
      (∀ m : MCtx, s.serving → s.chip.mctx? ctx = some m → m.qn = r.1 % 2 ^ 24 → s.chip.findUnexp ctx r.2 = none →
        Completes (.matchEntryReadDone ctx false) s fun c =>
          c.mem = s.chip.mem ∧ c.mctx? ctx = some { m with nextSeq := m.nextSeq + 1 } ∧
          c.mt.posted = s.chip.mt.posted ++ [{ ctx := ctx, seq := m.nextSeq, qn := m.qn, entry := r.2 }]) ∧
      (∀ q cq : Queue, s.leaves (fun c => c.matchReadDone ctx) →
        (s.chip.mctx? ctx).elim true (fun m => m.qn != r.1 % 2 ^ 24) = true → s.chip.queue? (r.1 / 2 ^ 24) (r.1 % 2 ^ 24) = some q →
        s.chip.silentFn q.fn = false → s.chip.cqRoom (r.1 / 2 ^ 24) q.cqn cq = true → s.chip.hostServed cq.fn = true →
        Completes (.matchEntryReadDone ctx false) s fun c =>
          c.mt.posted = s.chip.mt.posted ∧
          c.wrote s.chip (r.1 / 2 ^ 24) (r.1 % 2 ^ 24) q.cqn cq (flushCompletion true r.2) 2)) ∧
    (∀ (ctx : Nat) (m : MCtx) (q : Queue), s.leaves (fun c => c.matchLost ctx) → s.chip.mctx? ctx = some m →
      s.chip.queue? (ctx / 2 ^ 20) m.qn = some q → q.state = .active →
      Completes (.matchEntryReadDone ctx true) s fun c =>
        c.mctx? ctx = none ∧ (∀ r ∈ c.mt.posted, r.ctx ≠ ctx) ∧
        ∃ q', c.queue? (ctx / 2 ^ 20) m.qn = some q' ∧ q'.state = .error)

/-! ### Responses and the deadlines of the send half -/

/-- R77, R99, R164, R169, R179, R192: a response of any of the five kinds that fails its check, comes to a host port that is
not enabled or breaks R93 is discarded and counted; one whose channel is absent, or neither Syncing nor Active, only clears
the suspect mark and tells the window. An ACK that names the SYNC (and is none of those) makes a Syncing channel Active; its
waiting operations, unless a key of their source is to be checked, go on, and with none of them it retires the SYNC. On an
Active channel an ACK up to the next PSN retires exactly the packets it names; an operation that is the only one there, and
waits for no response, ends with success. Any other ACK changes nothing more. Each where it leaves nothing to carry out;
retirement where every channel is quiet. -/
def Obligations.AcksRetireAndComplete : Prop :=
  ∀ (s : State) (h : Nat) (p : Packet),
    let k := respKey h p
    let five (q : Chip → Prop) : Prop :=
      Completes (.ack h p) s q ∧ Completes (.busyNak h p) s q ∧ Completes (.error h p) s q ∧ Completes (.readData h p) s q ∧
      Completes (.atomicResult h p) s q
    (s.serving → p.checkOk = false → five (fun c => c = (s.chip.taken p).bump 0xA3 .endpointBad)) ∧
    (s.serving → p.checkOk = true → s.chip.hostEnabled h = false ∨ responseBad p = true → five (fun c => c = (s.chip.taken p).bump 0xA3 .badResponse)) ∧
    (s.serving → p.checkOk = true → s.chip.hostEnabled h = true → responseBad p = false →
      (s.chip.chan? k).elim true (fun x => x.sendState != .syncing && x.sendState != .active) = true →
      five (fun c => c = s.chip.heard p ∧ (c.dest p.srcChip).suspect = false ∧
        (p.ecne = true → (s.chip.dest p.srcChip).lastDecrease = none →
          (c.dest p.srcChip).window = max (s.chip.param 0x21 0x041 0) ((s.chip.dest p.srcChip).window / 2)))) ∧
    (∀ x : Chan, s.chip.hears h p x = true →
      (x.sendState = .syncing → x.syncDue = false → p.rpsn = x.syncPsn + 1 → s.leaves (fun c => c.takeAck h p) →
        x.ops.all (fun a => !a.started && a.status.isNone && !a.sourced) = true → s.chip.hasRoute (chRemote k) = true →
        Completes (.ack h p) s fun c => c.mem.hbm = s.chip.mem.hbm ∧
          (∃ y, c.chan? k = some y ∧ y.sendState = .active ∧
            (x.ops = [] → y.outstanding = x.outstanding.filter fun o => o.psn != x.syncPsn)) ∧
          ∀ a ∈ x.ops, c.carries k a) ∧
      (s.serving → (x.sendState = .syncing ∧ (x.syncDue = true ∨ p.rpsn ≠ x.syncPsn + 1)) ∨
          (x.sendState = .active ∧ (x.nextPsn - x.lowest).toNat < (p.rpsn - x.lowest).toNat) →
        Completes (.ack h p) s fun c => c = s.chip.heard p) ∧
      (x.sendState = .active → (p.rpsn - x.lowest).toNat ≤ (x.nextPsn - x.lowest).toNat → s.leaves (fun c => c.takeAck h p) →
        s.chip.chansQuiet = true →
        Completes (.ack h p) s fun c => c.mem.hbm = s.chip.mem.hbm ∧
          ∃ y, c.chan? k = some y ∧ y.sendState = .active ∧ y.outstanding = x.outstanding.filter fun o => !ackNames x p o) ∧
      (∀ (a : SendOp) (q cq : Queue), x.sendState = .active → (p.rpsn - x.lowest).toNat ≤ (x.nextPsn - x.lowest).toNat →
        s.leaves (fun c => c.takeAck h p) → s.chip.chansQuiet = true → s.chip.opAnswers k x a q cq = true →
        a.opcode ≠ 0x20 → (a.opcode < 0x30 ∨ 0x33 < a.opcode) → x.outstanding.all (ackNames x p) = true →
        Completes (.ack h p) s fun c => c.mem.hbm = s.chip.mem.hbm ∧ c.opEnded s.chip k a q cq 0))

/-- R176, R190, R197, R220: a BUSY NAK within the limit, or on a Syncing channel, makes its packet wait 4 µs, unretired;
beyond the limit, on an Active channel, its operation (stated of the only one, with the only packet, that may send now) ends
with 0x06 and a NOP with its MSGID and the next PSN follows; one that refers to no packet, or to a stopped one, changes
nothing more. An ERROR on an Active channel retires its packet and decides its operation with its status; where every
channel is quiet no other packet goes, and an operation that is the only one ends with that status. On a Syncing channel it
changes nothing more. Each where it leaves nothing to carry out. R25, R167, R168, R169, R180, R197: a passed deadline sends
its packet again with RETX and the next deadline (where a route reaches the destination it enters the router; where none
does and the channel is Active, an operation that is the only one ends with 0x08); at the limit the channel goes to Error,
unretired packets go, its chip becomes suspect, and an operation that is the only one ends with 0x05; with CON down it goes
to Error when CON returns, which is noted. The resend of a packet that a BUSY NAK stopped goes like a retransmission, its
count unchanged. A channel in Error with waiting operations synchronises once the packet age limit has passed: it sends a
SYNC with the next PSN if it may start. What is not due changes nothing. Cascading effects are stated where they leave
nothing to carry out and every channel is quiet. -/
def Obligations.RefusalsAndDeadlinesSendAgain : Prop :=
  (∀ (s : State) (h : Nat) (p : Packet) (x : Chan), s.chip.hears h p x = true →
      let k := respKey h p
      let limit := s.chip.param 0x21 0x033 0
      (s.serving → (x.out? p.rpsn).elim true OutPkt.dead = true → Completes (.busyNak h p) s fun c => c = s.chip.heard p) ∧
      (∀ o : OutPkt, s.serving → x.out? p.rpsn = some o → o.dead = false → o.busy + 1 ≤ limit ∨ x.sendState = .syncing →
        Completes (.busyNak h p) s fun c =>
          c.mem = s.chip.mem ∧ c.queues = s.chip.queues ∧ c.out = s.chip.out ∧
          (let waits (o : OutPkt) : OutPkt := { o with busy := o.busy + 1, deadline := none, resendAt := some (s.chip.now + 4000) }
          c.chan? k = some { x with outstanding := mapIf (fun o => o.psn == p.rpsn) waits x.outstanding })) ∧
      (∀ (o : OutPkt) (a : SendOp) (q cq : Queue), s.leaves (fun c => c.takeBusy h p) → s.chip.chansQuiet = true → x.sendState = .active →
        x.outstanding = [o] → o.psn = p.rpsn → o.dead = false → limit < o.busy + 1 → s.chip.opAnswers k x a q cq = true →
        a.msgid = o.msgid → a.count ≤ (x.nextPsn - a.firstPsn).toNat → (x.nextPsn - x.lowest).toNat < 1024 →
        s.chip.hasRoute (chRemote k) = true → s.chip.policerOk a.fn = true →
        s.chip.slotsUsed < transactionSlots → s.chip.outstandingTo (chRemote k / 4) < ((s.chip.heard p).dest (chRemote k / 4)).window →
        Completes (.busyNak h p) s fun c =>
          c.mem.hbm = s.chip.mem.hbm ∧ c.opEnded s.chip k a q cq 0x06 ∧
          (∃ n ∈ c.entered s.chip, n.opcode = 0x41 ∧ n.msgid = a.msgid ∧ n.psn = x.nextPsn) ∧
          ∃ y, c.chan? k = some y ∧ y.nextPsn = x.nextPsn + 1) ∧
      (s.serving → x.sendState = .syncing → Completes (.error h p) s fun c => c = s.chip.heard p) ∧
      (s.leaves (fun c => c.takeError h p) → s.chip.chansQuiet = true → x.sendState = .active →
        Completes (.error h p) s fun c => c.mem.hbm = s.chip.mem.hbm ∧
          ∃ y, c.chan? k = some y ∧ y.outstanding = x.outstanding.filter (fun o => o.psn != p.rpsn) ∧
            ∀ a ∈ y.ops, a.msgid = p.msgid → a.status = some p.status) ∧
      (∀ (a : SendOp) (q cq : Queue), s.leaves (fun c => c.takeError h p) → s.chip.chansQuiet = true → x.sendState = .active →
        s.chip.opAnswers k x a q cq = true → a.msgid = p.msgid → x.outstanding.all (fun o => o.psn == p.rpsn) = true →
        p.opcode = 0x82 → Completes (.error h p) s fun c => c.mem.hbm = s.chip.mem.hbm ∧ c.opEnded s.chip k a q cq p.status))
  ∧ (∀ (s : State) (ch : Nat) (psn : BitVec 24),
      let due (f : OutPkt → Option Nat) : Bool :=
        (((s.chip.chan? ch).bind fun x => x.out? psn).bind f).elim false fun t => decide (t ≤ s.chip.now)
      (s.serving → due OutPkt.deadline = false → Completes (.retransmitTimeout ch psn) s fun c => c = s.chip) ∧
      (s.serving → due OutPkt.resendAt = false → Completes (.busyResend ch psn) s fun c => c = s.chip) ∧
      (s.serving →
        (s.chip.chan? ch).elim true (fun x => x.sendState != .error || x.ops.isEmpty || decide (s.chip.now < x.errorAt + s.chip.ageLimit)) = true →
        Completes (.errorStateExpiry ch) s fun c => c = s.chip) ∧
      (∀ (x : Chan) (o : OutPkt), s.chip.chan? ch = some x → x.out? psn = some o →
        let sent (n : Nat) (c : Chip) : Prop :=
          c.mem = s.chip.mem ∧ c.queues = s.chip.queues ∧
          (let later (o : OutPkt) : OutPkt := { o with k := n, deadline := some (s.chip.now + s.chip.timeout n), resendAt := none }
          c.chan? ch = some { x with outstanding := mapIf (fun o => o.psn == psn) later x.outstanding }) ∧
          (s.chip.hasRoute (chRemote ch) = true → c.entered s.chip = [s.chip.stamped o.pkt.withRetx])
        let ends (a : SendOp) (q cq : Queue) (c : Chip) : Prop :=
          c.mem.hbm = s.chip.mem.hbm ∧ c.entered s.chip = [] ∧ c.opEnded s.chip ch a q cq 0x08
        (due OutPkt.deadline = true → o.k + 1 ≤ s.chip.param 0x21 0x032 0 → s.serving →
          x.sendState ≠ .active ∨ s.chip.hasRoute (chRemote ch) = true →
          Completes (.retransmitTimeout ch psn) s (sent (o.k + 1))) ∧
        (due OutPkt.resendAt = true → s.serving → x.sendState ≠ .active ∨ s.chip.hasRoute (chRemote ch) = true →
          Completes (.busyResend ch psn) s (sent o.k)) ∧
        (∀ (a : SendOp) (q cq : Queue), s.chip.chansQuiet = true → x.sendState = .active → s.chip.hasRoute (chRemote ch) = false →
          s.chip.opAnswers ch x a q cq = true → a.msgid = o.msgid →
          (due OutPkt.deadline = true → o.k + 1 ≤ s.chip.param 0x21 0x032 0 → s.leaves (fun c => c.retransmitTimeout ch psn) →
            Completes (.retransmitTimeout ch psn) s (ends a q cq)) ∧
          (due OutPkt.resendAt = true → s.leaves (fun c => c.busyResend ch psn) →
            Completes (.busyResend ch psn) s (ends a q cq))) ∧
        (due OutPkt.deadline = true → s.chip.param 0x21 0x032 0 < o.k + 1 →
          (s.leaves (fun c => c.chanError ch) → s.chip.clusterUp 2 = true → s.chip.chansQuiet = true →
            Completes (.retransmitTimeout ch psn) s fun c =>
              c.mem.hbm = s.chip.mem.hbm ∧ (c.dest (chRemote ch / 4)).suspect = true ∧
              ∃ y, c.chan? ch = some y ∧ y.sendState = .error ∧ y.errorAt = s.chip.now ∧ y.outstanding = []) ∧
          (∀ (a : SendOp) (q cq : Queue), s.leaves (fun c => c.chanError ch) → s.chip.clusterUp 2 = true → s.chip.chansQuiet = true →
            s.chip.opAnswers ch x a q cq = true → s.chip.openOffers ch x = [] →
            Completes (.retransmitTimeout ch psn) s fun c => c.opEnded s.chip ch a q cq 0x05) ∧
          (s.serving → s.chip.clusterUp 2 = false →
            Completes (.retransmitTimeout ch psn) s fun c =>
              c.mem = s.chip.mem ∧ c.queues = s.chip.queues ∧ c.out = s.chip.out ∧ c.chan? ch = some { x with limitHit := true }))) ∧
      (∀ x : Chan, s.serving → s.chip.chan? ch = some x → x.sendState = .error → x.errorAt + s.chip.ageLimit ≤ s.chip.now → x.ops ≠ [] →
        Completes (.errorStateExpiry ch) s fun c => c.mem = s.chip.mem ∧ c.queues = s.chip.queues ∧
          (∃ y, c.chan? ch = some y ∧ y.sendState = .syncing ∧ y.ops = x.ops ∧
            (s.chip.mayStart (chRemote ch / 4) 1 = true → y.syncDue = false ∧ y.syncPsn = x.nextPsn ∧ y.nextPsn = x.nextPsn + 1)) ∧
          (s.chip.mayStart (chRemote ch / 4) 1 = true → s.chip.hasRoute (chRemote ch) = true →
            c.entered s.chip = [s.chip.stamped (syncPacket ch (s.chip.endpoint (chHost ch)) x.nextPsn x.nextMsgid)])))

/-- R93, R184, R187: READ DATA that its READ asked for, new, is placed in the local destination, in fabric memory or host
memory, or handed to the bridge for a window, or dropped for a function that has gone; a destination that is refused decides
the READ with that status; a packet index is noted, and before the last one no packet retires. With the last one the READ's
packet retires, and a READ that is the only operation of the channel ends (stated where nothing was refused). An ATOMIC
RESULT retires its atomic, and one that is the only operation ends with success. A response with the wrong count, index or
length is discarded and counted (count and index: the model's choice, log entry 82); one that refers to no such request, or
repeats, changes nothing more. The last packets and the results are stated where every channel is quiet and nothing is left
to carry out. R177, R178, R185: when the ACK delay has passed since the oldest packet not acknowledged, every packet
accepted so far is acknowledged, by one ACK for each slice that holds any, with the receive base; an atomic response block
whose newest entry is older than the rule gives, with no atomic of its channel in progress, returns with its entries. Where
that is not so, nothing changes. -/
def Obligations.ResponsesArePlacedDelaysPass : Prop :=
  (∀ (s : State) (h : Nat) (p : Packet) (x : Chan), s.chip.hears h p x = true →
      let k := respKey h p
      (s.serving → (x.out? p.rpsn).elim true (fun o => o.pkt.opcode != 0x20 || (x.op? o.msgid).isNone) = true →
        Completes (.readData h p) s fun c => c = s.chip.heard p) ∧
      (s.serving → (x.out? p.rpsn).elim true (fun o => decide (o.pkt.opcode < 0x30 ∨ 0x33 < o.pkt.opcode)) = true →
        Completes (.atomicResult h p) s fun c => c = s.chip.heard p) ∧
      (∀ (out : OutPkt) (o : SendOp), x.out? p.rpsn = some out → x.op? out.msgid = some o → out.pkt.opcode = 0x20 →
        let wrong : Bool := p.pcnt != packetsOf o.length || decide (p.pcnt ≤ p.pidx) || p.payload.length != payloadLen o.length p.pidx
        let check := s.chip.localCheck o.fn o.lkey (o.laddr + 4096 * p.pidx) p.payload.length true
        let bad := (s.chip.place check p.payload 2).2
        let put (c : Chip) : Prop :=
          if s.chip.goneFn o.fn = true then c.mem.hbm = s.chip.mem.hbm
          else match o.window with
            | some id => c.mem.hbm = s.chip.mem.hbm ∧
                c.br.ops = mapIf (fun b => b.num == id) (fun b => { b with data := Tab.put b.data p.pidx p.payload }) s.chip.br.ops
            | none => if bad = none then c.placedAt s.chip check p.payload else c.mem.hbm = s.chip.mem.hbm
        (s.serving → wrong = true → Completes (.readData h p) s fun c => c = (s.chip.heard p).badResponse) ∧
        (s.serving → wrong = false → p.pidx ∈ o.got → Completes (.readData h p) s fun c => c = s.chip.heard p) ∧
        (s.leaves (fun c => c.takeReadData h p) → wrong = false → p.pidx ∉ o.got → o.got.length + 1 ≠ p.pcnt →
          Completes (.readData h p) s fun c => put c ∧
            ∃ y o', c.chan? k = some y ∧ y.op? out.msgid = some o' ∧ p.pidx ∈ o'.got ∧ y.outstanding = x.outstanding ∧
              (o.status = none → o.window = none → s.chip.goneFn o.fn = false → o'.status = bad)) ∧
        (s.leaves (fun c => c.takeReadData h p) → wrong = false → p.pidx ∉ o.got → o.got.length + 1 = p.pcnt → s.chip.chansQuiet = true →
          o.window = none →
          Completes (.readData h p) s fun c => put c ∧
            ∃ y, c.chan? k = some y ∧ y.outstanding = x.outstanding.filter fun a => a.psn != p.rpsn) ∧
        (∀ q cq : Queue, s.leaves (fun c => c.takeReadData h p) → wrong = false → p.pidx ∉ o.got → o.got.length + 1 = p.pcnt →
          s.chip.chansQuiet = true → s.chip.goneFn o.fn = false → bad = none → s.chip.opAnswers k x o q cq = true → x.outstanding = [out] →
          Completes (.readData h p) s fun c => put c ∧ c.opEnded s.chip k o q cq 0)) ∧
      (∀ (out : OutPkt) (o : SendOp), x.out? p.rpsn = some out → x.op? out.msgid = some o → 0x30 ≤ out.pkt.opcode → out.pkt.opcode ≤ 0x33 →
        (s.serving → p.payload.length ≠ atomicBytes out.pkt.opcode →
          Completes (.atomicResult h p) s fun c => c = (s.chip.heard p).badResponse) ∧
        (s.leaves (fun c => c.takeAtomicResult h p) → p.payload.length = atomicBytes out.pkt.opcode → s.chip.chansQuiet = true →
          Completes (.atomicResult h p) s fun c => c.mem.hbm = s.chip.mem.hbm ∧
            ∃ y, c.chan? k = some y ∧ y.outstanding = x.outstanding.filter fun a => a.psn != p.rpsn) ∧
        (∀ q cq : Queue, s.leaves (fun c => c.takeAtomicResult h p) → p.payload.length = atomicBytes out.pkt.opcode →
          s.chip.chansQuiet = true → s.chip.opAnswers k x o q cq = true → x.outstanding = [out] →
          Completes (.atomicResult h p) s fun c => c.mem.hbm = s.chip.mem.hbm ∧
            c.opEnded s.chip k { o with result := BitVec.ofNat 128 (natLE p.payload) } q cq 0)))
  ∧ (∀ (s : State) (ch : Nat), s.serving →
      let waits (x : Chan) : Bool := !x.unacked.isEmpty && decide (x.ackSince + s.chip.param 0x21 0x037 0 ≤ s.chip.now)
      let idle (x : Chan) : Bool :=
        x.atomicBlock && x.atomics.head?.elim true (fun a => decide (a.since + 1000 * s.chip.retransmitTime + s.chip.ageLimit < s.chip.now)) &&
        s.chip.tr.hostReads.all (fun r => r.pkt.kind != 4 || reqKey r.host r.pkt != ch)
      (∀ x : Chan, s.chip.chan? ch = some x → waits x = true →
        Completes (.ackDelay ch) s fun c => c.chan? ch = some { x with unacked := [], ackEcn := false } ∧ c.mem = s.chip.mem ∧
          (c.entered s.chip).length = x.ackSlices.length ∧
          ∀ p ∈ c.entered s.chip, p.opcode = 0x80 ∧ p.rpsn = x.base ∧ p.ecne = x.ackEcn ∧ p.dst = BitVec.ofNat 17 (chRemote ch)) ∧
      ((s.chip.chan? ch).elim false waits = false → Completes (.ackDelay ch) s fun c => c = s.chip) ∧
      (∀ x : Chan, s.chip.chan? ch = some x → idle x = true →
        Completes (.atomicBlockReturn ch) s fun c =>
          c.chan? ch = some { x with atomicBlock := false, atomics := [] } ∧ c.mem = s.chip.mem ∧ c.queues = s.chip.queues) ∧
      ((s.chip.chan? ch).elim false idle = false → Completes (.atomicBlockReturn ch) s fun c => c = s.chip))

/-! ### Arriving requests -/

/-- R77, R99, R163, R166, R174, R176, R183, R196, R199, R318: what every kind of arriving request comes to before its own
effect. One that fails its check is discarded and counted; at a host port not enabled it gets ERROR 0x08; without a channel,
CON being down, it is counted; a context it misses parks it within the limits, else it gets BUSY NAK. Before a SYNC it is
counted; ahead of the window too; malformed it gets ERROR 0x04 and its new PSN is taken; an ordered one out of its turn
waits, within the limits; one for a function that is going gets ERROR 0x11; of a message that is over it is taken and
acknowledged; without a free order record it gets BUSY NAK; a duplicate is acknowledged again, and a READ of fabric memory
or an atomic answered again. A packet of another kind than the command's does nothing. Stated wherever that leaves nothing
to carry out. -/
def Obligations.RequestsAreAdmitted : Prop :=
  ∀ (s : State) (h : Nat) (p : Packet) (miss : Option CtxKey),
    let k := reqKey h p
    let any (q : Chip → Prop) : Prop :=
      (isMessage p = true → Completes (.messageRequest h p miss) s q) ∧ (isWriteReq p = true → Completes (.writeRequest h p miss) s q) ∧
      (isReadReq p = true → Completes (.readRequest h p miss) s q) ∧ (isAtomicReq p = true → Completes (.atomicRequest h p miss) s q) ∧
      (isCountReq p = true → Completes (.countRequest h p miss) s q) ∧ (isNopReq p = true → Completes (.nopRequest h p miss) s q) ∧
      (isOffer p = true → Completes (.offer h p miss) s q) ∧ (isSync p = true → miss = none → Completes (.sync h p) s q)
    let other (q : Chip → Prop) : Prop :=
      (isMessage p = false → Completes (.messageRequest h p miss) s q) ∧ (isWriteReq p = false → Completes (.writeRequest h p miss) s q) ∧
      (isReadReq p = false → Completes (.readRequest h p miss) s q) ∧ (isAtomicReq p = false → Completes (.atomicRequest h p miss) s q) ∧
      (isCountReq p = false → Completes (.countRequest h p miss) s q) ∧ (isNopReq p = false → Completes (.nopRequest h p miss) s q) ∧
      (isOffer p = false → Completes (.offer h p miss) s q) ∧ (isSync p = false → Completes (.sync h p) s q)
    let fits : Bool := decide (s.chip.parkedCells + p.len.toNat ≤ 65536)
    (s.serving → other (fun c => c = s.chip)) ∧
    (s.serving → p.checkOk = false → any (fun c => c = (s.chip.taken p).bump 0xA3 .endpointBad)) ∧
    (s.serving → p.checkOk = true → s.chip.hostEnabled h = false → any (fun c => c = (s.chip.taken p).answerError h p 8)) ∧
    (s.serving → p.checkOk = true → s.chip.hostEnabled h = true → s.chip.chan? k = none → s.chip.clusterUp 2 = false →
      any (fun c => c = (s.chip.taken p).bump 0xA3 .noChannel)) ∧
    (∀ (x : Chan) (ctx : CtxKey), s.leaves (fun c => c.takeRequest h p miss) → p.checkOk = true → s.chip.hostEnabled h = true →
      s.chip.chan? k = some x → s.chip.missed? h k p miss = some ctx →
      let room := fits && decide ((s.chip.tr.parked.filter fun r => r.1 == ctx).length < 64)
      any (fun c => c.mem = s.chip.mem ∧ c.queues = s.chip.queues ∧ c.unrecorded h p x ∧
        if room = true then c.tr.parked = s.chip.tr.parked ++ [(ctx, h, p)] ∧ c.entered s.chip = []
        else c.tr.parked = s.chip.tr.parked ∧ c.answered s.chip p 0x81 0)) ∧
    (∀ x : Chan, s.leaves (fun c => c.takeRequest h p miss) →
      let plain (q : Chip → Prop) : Prop := any (fun c => c.mem.hbm = s.chip.mem.hbm ∧ c.queues = s.chip.queues ∧ q c)
      (s.chip.reaches h p miss x = true → x.synced = false → isSync p = false →
        (p.kind != 1 || p.opcode == 1 || s.chip.mt.waiting.all fun r => waitCtx r != ctxKey h p.mctx) = true →
        plain (fun c => c.unrecorded h p x ∧ c.ctr = (s.chip.bump 0xA3 .noChannel).ctr)) ∧
      (s.chip.reaches h p miss x = true → x.synced = true → isSync p = false → p.malformed = true → x.ordWaiting = [] →
        any (fun c => c.mem.hbm = s.chip.mem.hbm ∧ c.answered s.chip p 0x82 4 ∧
          if x.fresh p = true then c.recorded h p x else c.unrecorded h p x)) ∧
      (s.chip.reachesOpen h p miss x = true → 1024 ≤ (p.psn - x.base).toNat → (p.psn - x.base).toNat < 2 ^ 23 →
        plain (fun c => c.unrecorded h p x ∧ c.ctr = (s.chip.bump 0xA3 .aheadOfWindow).ctr)) ∧
      (s.chip.reachesOpen h p miss x = true → x.fresh p = true → p.ord = true → p.psn ≠ x.base →
        plain (fun c => ∃ y, c.chan? k = some y ∧ y.base = x.base ∧ y.bitmap = x.bitmap ∧
          if (x.ordWaiting.any fun q => q.psn == p.psn) = true then y.ordWaiting = x.ordWaiting
          else if fits = true ∧ x.ordWaiting.length < 64 then y.ordWaiting = x.ordWaiting ++ [p]
          else y.ordWaiting = x.ordWaiting ∧ c.answered s.chip p 0x81 0)) ∧
      (s.chip.reachesOpen h p miss x = true → x.fresh p = true → (!p.ord || p.psn == x.base) = true → x.ordWaiting = [] →
        let new := (x.msg? p.msgid).isNone
        let past := 2 ^ 31 ≤ (p.msgid - x.nextDone).toNat
        (new = true → past → plain (fun c => c.recorded h p x)) ∧
        ((new = true → ¬past) → (s.chip.ownersOf h p).any s.chip.goneFn = true →
          any (fun c => c.mem.hbm = s.chip.mem.hbm ∧ c.recorded h p x ∧ c.answered s.chip p 0x82 0x11)) ∧
        (new = true → ¬past → (s.chip.ownersOf h p).any s.chip.goneFn = false → s.chip.orderFull x p.msgid = true →
          plain (fun c => c.unrecorded h p x ∧ c.answered s.chip p 0x81 0))) ∧
      (s.chip.reachesOpen h p miss x = true → (2 ^ 23 ≤ (p.psn - x.base).toNat ∨ x.fresh p = false ∧ (p.psn - x.base).toNat < 1024) →
        let again (c : Chip) : Prop :=
          c.mem.hbm = s.chip.mem.hbm ∧ c.queues = s.chip.queues ∧ c.unrecorded h p x ∧ ∃ a ∈ c.entered s.chip, a.opcode = 0x80 ∧ a.rpsn = x.base
        any again ∧
        (∀ o, p.kind = 3 → (s.chip.ownersOf h p).any s.chip.goneFn = false → s.chip.readCheck h p = .fabric o →
          s.chip.mem.poisoned o p.readLen = false →
          Completes (.readRequest h p miss) s fun c => again c ∧ c.answeredData s.chip p (s.chip.mem.read o p.readLen)) ∧
        (∀ a : AtomicRec, p.kind = 4 → s.chip.tr.hostReads = [] → x.atomics.find? (fun a => a.psn == p.psn) = some a →
          Completes (.atomicRequest h p miss) s fun c => again c ∧
            ∃ r ∈ c.entered s.chip, r.opcode = 0x84 ∧ r.dst = p.src ∧ r.rpsn = p.psn ∧
              r.payload = bytesLE (if a.wide = true then 16 else 8) a.prior.toNat)))

/-- R172, R175, R184, R185, R281, R290: a request that its receive half takes now. A WRITE packet is placed where its key
admits it, else gets ERROR with the status; a WRITE-WITH-NOTIFY that has no entry yet takes the oldest RECV of its queue, or
gets BUSY NAK where there is none. A READ of fabric memory is answered with its bytes, packet by packet; one of host memory
is read from there; poisoned, it gets ERROR 0x04; refused, ERROR with the status. An atomic on fabric memory stores the new
value that R92 computes, is cached and answered with the prior one; one on host memory goes there; misaligned or poisoned,
or where the function is not an AtomicOp requester, it gets ERROR 0x04, on an offer key 0x03, refused the status, and BUSY
NAK where no response block is free. Each packet that is not answered BUSY is recorded. Stated wherever it leaves nothing to
carry out. -/
def Obligations.MemoryRequestsAct : Prop :=
  ∀ (s : State) (h : Nat) (p : Packet) (miss : Option CtxKey) (x : Chan), s.leaves (fun c => c.takeRequest h p miss) →
    s.chip.expects h p miss x = true →
    let same (c : Chip) : Prop := c.mem.hbm = s.chip.mem.hbm
    let fails (st : Nat) (c : Chip) : Prop := same c ∧ c.recorded h p x ∧ c.answered s.chip p 0x82 st
    let busy (c : Chip) : Prop := same c ∧ c.unrecorded h p x ∧ c.answered s.chip p 0x81 0
    let host (fn i off n : Nat) (c : Chip) : Prop :=
      same c ∧ c.recorded h p x ∧ ∀ g segs, Tab.get? s.chip.mem.regions i = some g → (s.chip.translate fn (g.run off n)).2 = some segs →
        ∃ r ∈ c.tr.hostReads, r.id = s.chip.tr.nextRead ∧ r.pkt = p ∧ r.fn = fn ∧
          (s.chip.hostServed fn = true → fn / 256 = h →
            (if p.opcode = 0x20 then Output.hostRead h fn r.id segs
              else .hostAtomic h fn r.id ((segs.head?.map (·.1)).getD 0) p.opcode p.payload) ∈ c.out)
    (p.kind = 2 →
      let key := s.chip.writeCheck h p
      let bad := (s.chip.place key p.payload 3).2
      (isOfferIndex (keyIndex p.key) = true → s.chip.closeOf h p = none → Completes (.writeRequest h p miss) s (fails 3)) ∧
      (isOfferIndex (keyIndex p.key) = false →
        (∀ st, bad = some st → Completes (.writeRequest h p miss) s (fails st)) ∧
        (bad = none → p.opcode = 0x10 →
          Completes (.writeRequest h p miss) s fun c => c.recorded h p x ∧ c.placedAt s.chip key p.payload) ∧
        (∀ q : Queue, bad = none → p.opcode = 0x11 → ((x.msg? p.msgid).bind (·.buffer)).isNone = true →
          s.chip.queue? h p.notifyQn = some q → (q.kind == .rq || q.kind == .srq) = true → q.state = .active → q.destroying = none →
          (q.recvs = [] → Completes (.writeRequest h p miss) s busy) ∧
          (∀ e r, q.recvs = e :: r → (p.pcnt ≠ 1 ∨ p.msgid ≠ x.nextDone) →
            Completes (.writeRequest h p miss) s fun c => c.recorded h p x ∧ c.placedAt s.chip key p.payload ∧
              ∃ q', c.queue? h p.notifyQn = some q' ∧ q'.recvs = r) ∧
          (∀ e r cq, q.recvs = e :: r → p.pcnt = 1 → p.msgid = x.nextDone → x.msgs = [] → s.chip.cqRoom h q.cqn cq = true →
            s.chip.hostServed cq.fn = true → s.chip.silentFn q.fn = false →
            Completes (.writeRequest h p miss) s fun c => c.recorded h p x ∧ c.placedAt s.chip key p.payload ∧
              (∃ q', c.queue? h p.notifyQn = some q' ∧ q'.recvs = r) ∧
              ∃ n : Nat, c.tells s.chip h p.notifyQn q.cqn cq
                { wrid := e.wrid, opcode := 0xE0, solicited := p.solicit, immv := true, length := BitVec.ofNat 32 p.payload.length
                  peer := BitVec.ofNat 32 (p.src.toNat * 2 ^ 15 + n % 2 ^ 15), result := mkWord [(p.imm.toNat, 32)] } 0)))) ∧
    (p.kind = 3 →
      (∀ st, s.chip.readCheck h p = .refused st → Completes (.readRequest h p miss) s (fails st)) ∧
      (∀ o, s.chip.readCheck h p = .fabric o →
        (s.chip.mem.poisoned o p.readLen = true → Completes (.readRequest h p miss) s (fails 4)) ∧
        (s.chip.mem.poisoned o p.readLen = false →
          Completes (.readRequest h p miss) s fun c => same c ∧ c.recorded h p x ∧ c.answeredData s.chip p (s.chip.mem.read o p.readLen))) ∧
      (∀ fn i off, s.chip.readCheck h p = .host fn i off → Completes (.readRequest h p miss) s (host fn i off p.readLen))) ∧
    (p.kind = 4 →
      let n := atomicBytes p.opcode
      let key := s.chip.remoteCheck h p.src.toNat p.key .atomic p.offset n
      let full := !x.atomicBlock && decide (4096 ≤ s.chip.atomicBlocks)
      (p.offset % n ≠ 0 → Completes (.atomicRequest h p miss) s (fails 4)) ∧
      (p.offset % n = 0 → isOfferIndex (keyIndex p.key) = true → Completes (.atomicRequest h p miss) s (fails 3)) ∧
      (p.offset % n = 0 → isOfferIndex (keyIndex p.key) = false →
        (∀ st, key = .refused st → Completes (.atomicRequest h p miss) s (fails st)) ∧
        (key.allowed = true → full = true → Completes (.atomicRequest h p miss) s busy) ∧
        (∀ o, key = .fabric o → full = false → s.chip.mem.poisoned o n = true → Completes (.atomicRequest h p miss) s (fails 4)) ∧
        (∀ o, key = .fabric o → full = false → s.chip.mem.poisoned o n = false →
          let prior := natLE (s.chip.mem.read o n)
          Completes (.atomicRequest h p miss) s fun c => c.recorded h p x ∧
            c.mem.read o n = bytesLE n (atomicNew p.opcode prior p.payload) ∧
            (∀ b, (b < o ∨ o + n ≤ b) → c.mem.byte b = s.chip.mem.byte b) ∧
            (∃ y a, c.chan? (reqKey h p) = some y ∧ y.atomics.head? = some a ∧ y.atomicBlock = true ∧ a.psn = p.psn ∧
              a.prior = BitVec.ofNat 128 prior) ∧
            ∃ a ∈ c.entered s.chip, a.opcode = 0x84 ∧ a.dst = p.src ∧ a.rpsn = p.psn ∧ a.payload = bytesLE n prior) ∧
        (∀ fn i off, key = .host fn i off → full = false →
          ((s.chip.fn fn).atomicRequester = false → Completes (.atomicRequest h p miss) s (fails 4)) ∧
          ((s.chip.fn fn).atomicRequester = true → Completes (.atomicRequest h p miss) s (host fn i off n)))))

/-- R173, R206, R207, R213, R217, R218, R222, R224 to R226, R229, R233: a message packet that its receive half takes now.
Where its queue or context does not take it, it gets ERROR 0x04. The first packet of a SEND takes the oldest RECV of its
queue and is placed in its buffer, as far as it fits and the buffer is not refused (ERROR 0x10 where it does not fit), or
gets BUSY NAK where there is none; a SEND of one packet whose turn has come completes. A TAGGED SEND whose turn it is in
matching takes the posted receive that matches in the same way; an OFFER that one matches is read (stated where its buffer
and destination allow it); one that matches none, or whose turn it is not, joins the unexpected or held messages, gets ERROR
0x04 above four packets, or BUSY NAK where there is no room. Later packets go to the same buffer, or into the store. Stated
wherever it leaves nothing to carry out; completions where the CQ has room. -/
def Obligations.MessagesAreTaken : Prop :=
  ∀ (s : State) (h : Nat) (p : Packet) (miss : Option CtxKey) (x : Chan), s.leaves (fun c => c.takeRequest h p miss) →
    s.chip.expects h p miss x = true → p.kind = 1 →
    let k := reqKey h p
    let ctx := ctxKey h p.mctx
    let fn := s.chip.ctxFn ctx
    let comes (q : Chip → Prop) : Prop :=
      (p.opcode ≠ 3 → Completes (.messageRequest h p miss) s q) ∧ (p.opcode = 3 → Completes (.offer h p miss) s q)
    let busy (c : Chip) : Prop := c.mem.hbm = s.chip.mem.hbm ∧ c.unrecorded h p x ∧ c.mt.unexp = s.chip.mt.unexp ∧ c.answered s.chip p 0x81 0
    let fails (c : Chip) : Prop := c.mem.hbm = s.chip.mem.hbm ∧ c.recorded h p x ∧ c.answered s.chip p 0x82 4
    let ends := p.pcnt = 1 ∧ p.msgid = x.nextDone
    (s.chip.messageRefused h p = true → comes fails) ∧
    (∀ q : Queue, s.chip.messageRefused h p = false → s.chip.queue? h p.dqn = some q →
      let placed (e : Entry) (c : Chip) : Prop :=
        c.recorded h p x ∧ c.intoBuffer s.chip q.fn e p ∧ (s.chip.bufferStatus q.fn e p = 0x10 → c.answered s.chip p 0x82 0x10)
      let told (e : Entry) (cq : Queue) (c : Chip) : Prop :=
        let n := min p.payload.length e.length
        c.wrote s.chip h p.dqn q.cqn cq
          (if p.opcode = 1 then { wrid := e.wrid, opcode := 0xE0, solicited := p.solicit, length := BitVec.ofNat 32 n, peer := p.identity }
            else taggedCompletion e p.solicit n p.identity p.matchBits) (s.chip.bufferStatus q.fn e p)
      ((x.msg? p.msgid).isNone = true → p.opcode = 1 →
        (q.recvs = [] → Completes (.messageRequest h p miss) s busy) ∧
        (∀ e r, q.recvs = e :: r → ¬ends →
          Completes (.messageRequest h p miss) s fun c => placed e c ∧ ∃ q', c.queue? h p.dqn = some q' ∧ q'.recvs = r ∧ q'.ci = q.ci) ∧
        (∀ e r cq, q.recvs = e :: r → ends → x.msgs = [] → s.chip.cqRoom h q.cqn cq = true → s.chip.hostServed cq.fn = true →
          s.chip.silentFn q.fn = false →
          Completes (.messageRequest h p miss) s fun c => placed e c ∧ told e cq c ∧
            ∃ q', c.queue? h p.dqn = some q' ∧ q'.recvs = r ∧ q'.ci = q.ci)) ∧
      (∀ r : RxMsg, x.msg? p.msgid = some r →
        (∀ e, r.buffer = some e → r.dqn = p.dqn → r.stored = false →
          Completes (.messageRequest h p miss) s fun c => c.recorded h p x ∧ c.intoBuffer s.chip q.fn e p) ∧
        (∀ u, r.buffer = none → r.stored = true → r.mctx = p.mctx → p.opcode = 2 → s.chip.unexp? k p.msgid = some u →
          (s.chip.storeRoom fn p.payload.length = false → Completes (.messageRequest h p miss) s busy) ∧
          (s.chip.storeRoom fn p.payload.length = true →
            Completes (.messageRequest h p miss) s fun c => c.mem.hbm = s.chip.mem.hbm ∧ c.recorded h p x ∧
              u.store p ∈ c.mt.unexp ∧ c.mt.unexp.length = s.chip.mt.unexp.length))) ∧
      ((x.msg? p.msgid).isNone = true → p.opcode ≠ 1 →
        let match? := if p.msgid = x.resolve then s.chip.findPosted ctx p.matchBits p.identity else none
        (∀ t : Posted, match? = some t → p.opcode = 2 →
          let left (c : Chip) : Prop := placed t.entry c ∧ c.mt.posted = eraseFirst (fun a => a.ctx == t.ctx && a.seq == t.seq) s.chip.mt.posted
          (¬ends → Completes (.messageRequest h p miss) s left) ∧
          (∀ cq, ends → x.msgs = [] → s.chip.cqRoom h q.cqn cq = true → s.chip.hostServed cq.fn = true → s.chip.silentFn q.fn = false →
            Completes (.messageRequest h p miss) s fun c => left c ∧ told t.entry cq c)) ∧
        (∀ t : Posted, match? = some t → p.opcode = 3 → t.qn = p.dqn →
          let u := newUnexp h k p false
          let take := min u.length t.entry.length
          take ≠ 0 → 0 < s.chip.param 0x21 0x035 0 → s.chip.offerRecords < 65536 →
          (s.chip.localCheck q.fn t.entry.rLkey t.entry.rLaddr take true).allowed = true → s.chip.preFail (chRemote k) = none →
          Completes (.offer h p miss) s fun c => c.mem.hbm = s.chip.mem.hbm ∧ c.recorded h p x ∧
            c.mt.posted = eraseFirst (fun a => a.ctx == t.ctx && a.seq == t.seq) s.chip.mt.posted ∧
            ∃ y a, c.chan? k = some y ∧ a ∈ y.ops ∧ a.toffer = some s.chip.mt.nextId ∧ a.opcode = 0x20 ∧ a.lo = u.offerOff ∧
              a.lo2 = u.offerKey.toNat ∧ a.laddr = t.entry.rLaddr) ∧
        (match? = none →
          (p.opcode = 2 → 4 < p.pcnt → Completes (.messageRequest h p miss) s fails) ∧
          ((p.opcode = 2 → p.pcnt ≤ 4) → s.chip.unexpRoom fn = false ∨ (p.opcode = 2 ∧ s.chip.storeRoom fn p.payload.length = false) →
            comes busy) ∧
          ((p.opcode = 2 → p.pcnt ≤ 4 ∧ s.chip.storeRoom fn p.payload.length = true) → s.chip.unexpRoom fn = true →
            comes (fun c => c.mem.hbm = s.chip.mem.hbm ∧ c.recorded h p x ∧ c.mt.posted = s.chip.mt.posted ∧
              c.mt.unexp = s.chip.mt.unexp ++ [newUnexp h k p (p.msgid != x.resolve)])))))

/-- R187, R220, R228, R229, R240: a COUNT whose counter is owned at its host port and has REMOTE is recorded; when its turn
comes (without another test: the model's choice, log entry 88), its INC is added, up to the largest value with SAT, and the
entries held for values reached are released; any other COUNT gets ERROR 0x03 and adds nothing. A NOP whose turn it is
passes its MSGID, or abandons the message that has it, which ends with 0x06 (stated of one with a receive entry whose CQ has
room). The close of an open offer, by its receiver, ends it with the bytes taken and frees its key; no other WRITE is one.
Stated wherever nothing is left to carry out but the places of held entries. R163, R165: a SYNC with PSN p and MSGID m that
reaches an enabled host port and is no repetition creates the channel where there is none and CON is up, and starts its
receive half after it: base p + 1, an empty bitmap, next MSGID to complete and resolve pointer m + 1, no message; it is
acknowledged. A repetition of the last one applied is acknowledged again and changes nothing of the half. Stated where every
context is at hand or finds a way, and nothing is left to carry out. -/
def Obligations.CountsNopsSyncsAndClosesAct : Prop :=
  (∀ (s : State) (h : Nat) (p : Packet) (miss : Option CtxKey) (x : Chan), s.chip.expects h p miss x = true →
      let k := reqKey h p
      (p.kind = 5 → p.opcode = 0x40 → (x.msg? p.msgid).isNone = true →
        (∀ t : TCtr, s.chip.tctr? p.counter = some t → t.owner / 256 = h → t.remote = true →
          (p.msgid ≠ x.nextDone → s.leaves (fun c => c.takeRequest h p miss) →
            Completes (.countRequest h p miss) s fun c => c.recorded h p x ∧ c.mem = s.chip.mem ∧ c.tctr? p.counter = some t) ∧
          (p.msgid = x.nextDone → x.msgs = [] → s.leavesPlaces (fun c => c.takeRequest h p miss) →
            let sum := t.value.toNat + p.inc
            Completes (.countRequest h p miss) s fun c => c.recorded h p x ∧ c.mem = s.chip.mem ∧
              c.tctr? p.counter = some (if sum < 2 ^ 48 then { t with value := BitVec.ofNat 48 sum }
                else { t with value := BitVec.ofNat 48 (2 ^ 48 - 1), sat := true }) ∧
              c.heldView = s.chip.heldReached p.counter (min sum (2 ^ 48 - 1)))) ∧
        ((s.chip.tctr? p.counter).elim true (fun t => t.owner / 256 != h || !t.remote) = true → x.msgs = [] →
          s.leaves (fun c => c.takeRequest h p miss) →
          Completes (.countRequest h p miss) s fun c => c.recorded h p x ∧ c.mem = s.chip.mem ∧ c.tg = s.chip.tg ∧
            c.answered s.chip p 0x82 3)) ∧
      (p.kind = 5 → p.opcode = 0x41 → s.leaves (fun c => c.takeRequest h p miss) →
        (x.msgs = [] → p.msgid = x.nextDone → p.msgid = x.resolve →
          Completes (.nopRequest h p miss) s fun c => c.mem = s.chip.mem ∧ c.queues = s.chip.queues ∧ c.recorded h p x ∧
            ∃ y, c.chan? k = some y ∧ y.nextDone = x.nextDone + 1 ∧ y.resolve = x.resolve + 1 ∧ y.msgs = []) ∧
        (∀ (r : RxMsg) (e : Entry) (q cq : Queue), x.msgs = [r] → r.msgid = p.msgid → p.msgid = x.nextDone → r.opcode = 1 →
          r.buffer = some e → s.chip.queue? h r.dqn = some q → s.chip.silentFn q.fn = false → s.chip.cqRoom h q.cqn cq = true →
          s.chip.hostServed cq.fn = true →
          Completes (.nopRequest h p miss) s fun c => c.mem.hbm = s.chip.mem.hbm ∧ c.recorded h p x ∧
            (∃ y, c.chan? k = some y ∧ y.nextDone = x.nextDone + 1 ∧ y.msgs = []) ∧
            c.wrote s.chip h r.dqn q.cqn cq
              { wrid := e.wrid, opcode := 0xE0, solicited := r.solicit, length := BitVec.ofNat 32 r.placed, peer := BitVec.ofNat 32 r.src } 6)) ∧
      (p.kind = 2 → miss = none →
        (s.serving → s.chip.closeOf h p = none → Completes (.offerClose h p) s fun c => c = s.chip) ∧
        (∀ (o : SOffer) (q cq : Queue), s.chip.closeOf h p = some o → isOfferIndex (keyIndex p.key) = true →
          s.chip.mt.sOffers.find? (fun a => a.index == o.index) = some o → s.leaves (fun c => c.takeRequest h p none) →
          s.chip.queue? h o.qn = some q → q.kind = .sq → q.failed = [] → s.chip.silentFn o.fn = false → s.chip.cqRoom h q.cqn cq = true →
          s.chip.hostServed cq.fn = true → x.msgs = [] →
          let taken := p.offset - o.offset
          let short := decide (taken < o.length)
          Completes (.offerClose h p) s fun c => c.recorded h p x ∧ c.mem = s.chip.mem ∧
            c.mt.sOffers = eraseFirst (fun a => a.index == o.index) s.chip.mt.sOffers ∧
            Tab.get c.mt.offerGen o.index 0 = (Tab.get s.chip.mt.offerGen o.index 0 + 1) % 256 ∧
            (short = true ∨ o.signal = true → c.wrote s.chip h o.qn q.cqn cq
              { wrid := o.wrid, opcode := 0x02, length := BitVec.ofNat 32 taken, peer := BitVec.ofNat 32 (o.dest * 2 ^ 15) }
              (if short = true then 0x10 else 0)))))
  ∧ (∀ (s : State) (h : Nat) (p : Packet), s.leaves (fun c => c.takeRequest h p none) → p.checkOk = true → s.chip.hostEnabled h = true →
      isSync p = true →
      let k := reqKey h p
      let acked (c : Chip) (psn : BitVec 24) : Prop := ∃ a ∈ c.entered s.chip, a.opcode = 0x80 ∧ a.rpsn = psn
      ((match s.chip.chan? k with
          | none => s.chip.clusterUp 2 && s.chip.hasWay (.channel k)
          | some x => (s.chip.missed? h k p none).isNone && !(x.synced && x.syncAt == some (p.psn, p.msgid))) = true →
        Completes (.sync h p) s fun c => c.mem.hbm = s.chip.mem.hbm ∧ acked c (p.psn + 1) ∧
          ∃ y, c.chan? k = some y ∧ y.synced = true ∧ y.syncAt = some (p.psn, p.msgid) ∧ y.base = p.psn + 1 ∧ y.bitmap = 0 ∧
            y.nextDone = p.msgid + 1 ∧ y.resolve = p.msgid + 1 ∧ y.msgs = [] ∧ y.recorded = [] ∧ y.unacked = []) ∧
      (∀ x : Chan, s.chip.reaches h p none x = true → x.synced = true → x.syncAt = some (p.psn, p.msgid) →
        Completes (.sync h p) s fun c => c.mem = s.chip.mem ∧ c.queues = s.chip.queues ∧ acked c x.base ∧
          ∃ y, c.chan? k = some y ∧ y.base = x.base ∧ y.bitmap = x.bitmap ∧ y.nextDone = x.nextDone ∧ y.msgs = x.msgs))

/-- R133, R158, R169, R175, R196, R198, R281: when a context fetch returns, the packets parked for it are taken up (stated
for one WRITE that is then placed); where it was read poisoned, a channel goes to Error, a queue to error with cause 2, or 4
for a CQ or EQ, a matching context is unbound, a region is bad. A queue context that has not come within 1 ms, and is
neither resident nor in the victim cache, puts the queue in error likewise, and the packets parked for it get BUSY NAK; else
nothing changes. A host read or AtomicOp that ends is answered with its data (an atomic is cached), with ERROR 0x04 if
poisoned and with ERROR 0x03 otherwise; of an unknown one nothing changes. Stated wherever nothing is left to carry out. -/
def Obligations.FetchesAndHostReadsEnd : Prop :=
  ∀ (s : State),
    let kept (c : Chip) (ctx : CtxKey) : Prop := ∀ r ∈ s.chip.tr.parked, r.1 ≠ ctx → r ∈ c.tr.parked
    let lost (c : Chip) (h qn : Nat) (q : Queue) : Prop :=
      ∃ q', c.queue? h qn = some q' ∧ q'.state = .error ∧ q'.cause = if q.kind = .eq ∨ q.kind = .cq then 4 else 2
    (∀ ctx, s.leaves (fun c => c.contextFetched ctx false) → (∀ r ∈ s.chip.tr.parked, r.1 ≠ ctx) →
      Completes (.contextFetchDone ctx false) s fun c => c.mem = s.chip.mem ∧ c.queues = s.chip.queues ∧ c.tr.parked = s.chip.tr.parked) ∧
    (∀ (ctx : CtxKey) (h : Nat) (p : Packet) (x : Chan), s.leaves (fun c => c.contextFetched ctx false) →
      s.chip.tr.parked.filter (fun r => r.1 == ctx) = [(ctx, h, p)] →
      let d := { s.chip with tr := { s.chip.tr with parked := s.chip.tr.parked.filter fun r => r.1 != ctx } }.endFetch ctx
      d.expects h p none x = true → p.kind = 2 → p.opcode = 0x10 → isOfferIndex (keyIndex p.key) = false →
      (d.place (d.writeCheck h p) p.payload 3).2 = none →
      Completes (.contextFetchDone ctx false) s fun c => c.recorded h p x ∧
        c.tr.parked = s.chip.tr.parked.filter (fun r => r.1 != ctx) ∧ c.placedAt d (d.writeCheck h p) p.payload) ∧
    (∀ (k : Nat) (x : Chan), s.leaves (fun c => c.contextFetched (.channel k) true) → s.chip.chan? k = some x → s.chip.chansQuiet = true →
      (∀ r ∈ s.chip.tr.parked, r.1 ≠ .channel k) →
      Completes (.contextFetchDone (.channel k) true) s fun c => c.mem.hbm = s.chip.mem.hbm ∧
        ∃ y, c.chan? k = some y ∧ y.sendState = .error ∧ y.outstanding = []) ∧
    (∀ (h qn : Nat) (q : Queue), s.leaves (fun c => c.contextFetched (.queue h qn) true) → s.chip.queue? h qn = some q →
      q.state = .active → (∀ r ∈ s.chip.tr.parked, r.1 ≠ .queue h qn) →
      Completes (.contextFetchDone (.queue h qn) true) s fun c => c.mem.hbm = s.chip.mem.hbm ∧ lost c h qn q) ∧
    (∀ n, s.leaves (fun c => c.contextFetched (.descriptor n) true) → (∀ r ∈ s.chip.tr.parked, r.1 ≠ .descriptor n) →
      Completes (.contextFetchDone (.descriptor n) true) s fun c => c.mem.hbm = s.chip.mem.hbm ∧ c.mctx? n = none) ∧
    (∀ (i : Nat) (g : Region), s.leaves (fun c => c.contextFetched (.translation i) true) → Tab.get? s.chip.mem.regions i = some g →
      (∀ r ∈ s.chip.tr.parked, r.1 ≠ .translation i) →
      Completes (.contextFetchDone (.translation i) true) s fun c => c.mem.hbm = s.chip.mem.hbm ∧
        Tab.get? c.mem.regions i = some { g with bad := true }) ∧
    (∀ h qn, s.serving → (s.chip.tr.resident.contains (.queue h qn) || s.chip.tr.victims.contains (.queue h qn)) = true →
      Completes (.contextFetchTimeout h qn) s fun c => c = s.chip) ∧
    (∀ (h qn : Nat) (q : Queue), s.leaves (fun c => c.contextTimeout h qn) → s.chip.queue? h qn = some q → q.state = .active →
      (s.chip.tr.resident.contains (.queue h qn) || s.chip.tr.victims.contains (.queue h qn)) = false →
      Completes (.contextFetchTimeout h qn) s fun c => c.mem = s.chip.mem ∧ lost c h qn q ∧ kept c (.queue h qn) ∧
        ∀ r ∈ s.chip.tr.parked, r.1 = .queue h qn → c.answered s.chip r.2.2 0x81 0) ∧
    (∀ (id : Nat) (res : HostResult), s.serving → s.chip.tr.hostReads.find? (fun r => r.id == id) = none →
      Completes (.hostMemoryReadCompletion id res) s fun c => c = s.chip) ∧
    (∀ (id : Nat) (r : HostRead), s.serving → s.chip.tr.hostReads.find? (fun r => r.id == id) = some r →
      let ended (c : Chip) : Prop := c.tr.hostReads = eraseFirst (fun a => a.id == id) s.chip.tr.hostReads ∧ c.mem = s.chip.mem
      (∀ l : List Byte, r.pkt.opcode = 0x20 → Completes (.hostMemoryReadCompletion id (.data l)) s fun c => ended c ∧ c.answeredData s.chip r.pkt l) ∧
      (∀ l : List Byte, r.pkt.opcode ≠ 0x20 → Completes (.hostMemoryReadCompletion id (.data l)) s fun c => ended c ∧
        (∃ a ∈ c.entered s.chip, a.opcode = 0x84 ∧ a.dst = r.pkt.src ∧ a.rpsn = r.pkt.psn ∧
          a.payload = bytesLE (if r.pkt.opcode = 0x33 then 16 else 8) (natLE l)) ∧
        ∀ x, s.chip.chan? (reqKey r.host r.pkt) = some x →
          ∃ y a, c.chan? (reqKey r.host r.pkt) = some y ∧ y.atomics.head? = some a ∧ y.atomicBlock = true ∧ a.psn = r.pkt.psn) ∧
      (Completes (.hostMemoryReadCompletion id .poisoned) s fun c => ended c ∧ c.answered s.chip r.pkt 0x82 4) ∧
      (∀ res : HostResult, (match res with | .data _ => false | .poisoned => false | _ => true) = true →
        Completes (.hostMemoryReadCompletion id res) s fun c => ended c ∧ c.answered s.chip r.pkt 0x82 3))

/-! ### Collective operations -/

/-- R140, R253, R255, R266, R269, R275: a collective entry that its SQ may consume, well formed, not held, with at most four
operations of its membership in flight and its operand at hand. Without engines (IK-920) it fails with 0x0B; of a CSEQ with
a recorded abort it completes with that status. Else, with no fence and no barred member, it is consumed and joins its
operation, new or open and in agreement, with its operand (stated of a node below the root to which nothing has come down);
with a refused operand (0x02), or in disagreement (0x04), COL aborts the operation and the entry, the only one there,
completes. A BARRIER of a root with one member and no children completes. An entry that may not be consumed changes nothing.
Stated wherever nothing is left to carry out, completions where the CQ has room. -/
def Obligations.CollectiveEntriesJoin : Prop :=
  ∀ (s : State) (h qn : Nat) (e : Entry) (data : SourceData),
    let comes (op : Nat → Prop) (r : Chip → Prop) : Prop :=
      (op 0x60 → data = .bytes [] → Completes (.barrier h qn e) s r) ∧ (op 0x61 → Completes (.broadcast h qn e data) s r) ∧
      (op 0x62 → Completes (.reduce h qn e data) s r) ∧ (op 0x63 → Completes (.allreduce h qn e data) s r) ∧
      (op 0x64 → Completes (.reduceScatter h qn e data) s r)
    (s.serving → s.chip.takeable h qn e = none → comes (fun _ => True) (fun c => c = s.chip)) ∧
    (∀ (e' : Entry) (q : Queue), s.chip.takeable h qn e = some (q, e') →
      let m := e'.mslot
      let cseq := s.chip.postSeq m h
      let recorded := s.chip.co.aborts.find? fun a => a.1 == m && a.2.1 == cseq
      let fate := (s.chip.operandOf h q.fn e' data).2
      let scnt := max 1 (divUp e'.collLength 4096)
      let agrees (o : COp) : Bool := o.agrees e'.opcode (collTypes e').1 (collTypes e').2 scnt && o.posts.all fun y =>
        y.entry.collLength == e'.collLength && (isReduction e'.opcode && e'.opcode != 0x62 || e'.opcode == 0x60 || y.entry.rootRank == e'.rootRank)
      let x : CPost := { host := h, fn := q.fn, qn := qn, entry := e', rank := (s.chip.mMember m h).elim 0 (·.2), pos := q.nextPos }
      let may := !e'.held && !s.chip.sqBad h q.fn e' && s.chip.canPost h e' && (s.chip.variant.collEngines == 0 || fate.isSome)
      (s.serving → may = false → comes (fun n => e'.opcode = n) (fun c => c = s.chip)) ∧
      (s.leaves (fun c => c.takeCollective h qn e'.opcode e data) → may = true →
        (s.chip.variant.collEngines = 0 →
          comes (fun n => e'.opcode = n) (fun c => c.mem.hbm = s.chip.mem.hbm ∧ c.failsEntry s.chip h qn q e' 0x0B)) ∧
        (s.chip.variant.collEngines ≠ 0 →
          (∀ cq a, recorded = some a → a.2.2 ≠ 0 → s.chip.collPost { COp.init with posts := [x] } x q cq = true →
            comes (fun n => e'.opcode = n) (fun c => c.mem.hbm = s.chip.mem.hbm ∧ c.took h qn q ∧ c.postTold s.chip x q cq a.2.2 0)) ∧
          (∀ l, recorded = none → s.chip.collEnded m cseq = false → s.chip.collQuiet m = true → s.chip.collTidy m = true → (s.chip.mParent m).isSome = true → fate = some (.inr l) →
            (s.chip.collOp? m cseq).all (fun o => agrees o && o.rising) = true →
            comes (fun n => e'.opcode = n) (fun c => c.mem.hbm = s.chip.mem.hbm ∧ c.took h qn q ∧
              c.postSeq m h = cseq + 1 ∧ ∃ o y, c.collOp? m cseq = some o ∧ o.opcode = e'.opcode ∧ o.scnt = scnt ∧ y ∈ o.posts ∧
                y = { x with operand := l })) ∧
          (∀ cq, recorded = none → s.chip.collEnded m cseq = false → s.chip.clusterUp 3 = true → s.chip.fenced 0 = false → s.chip.rt.fenced = [] →
            s.chip.collPost { COp.init with posts := [x] } x q cq = true → s.chip.collOps m = (s.chip.collOp? m cseq).toList →
            (s.chip.collOp? m cseq).all (fun o => o.posts.isEmpty && o.rising) = true →
            let fail := match fate with
              | some (.inl st) => st
              | _ => 4
            fate = some (.inl fail) ∨ (s.chip.collOp? m cseq).all agrees = false →
            comes (fun n => e'.opcode = n) (fun c => c.mem.hbm = s.chip.mem.hbm ∧ c.took h qn q ∧ c.postTold s.chip x q cq fail 0)) ∧
          (∀ cq, recorded = none → s.chip.collQuiet m = true → s.chip.mParent m = none → s.chip.mChildren m = [] →
            (s.chip.mLocals m).length = 1 → s.chip.clusterUp 3 = true → s.chip.collOps m = [] → s.chip.nextCseq m = cseq →
            s.chip.collPost { COp.init with posts := [x] } x q cq = true → e'.opcode = 0x60 → data = .bytes [] →
            Completes (.barrier h qn e) s fun c => c.mem.hbm = s.chip.mem.hbm ∧ c.took h qn q ∧ c.postTold s.chip x q cq 0 0 ∧
              c.collOps m = []))))

/-- R249, R251, R256, R258, R260, R262, R264, R266, R267, R269, R274, R281: an up or DONE packet that a port has not handed
over as its segment's oldest, or of another kind, does nothing; one that fails a check on arrival is discarded and counted.
One in agreement that a quiet operation takes joins its arrivals, its segment or its DONEs, and waits while a local entry is
to come; with all local entries there, the last arrival of a BARRIER or BROADCAST goes up, and at the root that of a BARRIER
completes the only entry. In disagreement, or where staged data is poisoned, COL aborts the operation (stated where no entry
has come: it ends, and the abort is recorded where one is to come). A segment goes up when it is complete, the entries of a
reduction have come and the reservation has room, else nothing happens; poisoned, COL aborts; at a root without members a
reduction's segment goes down. Stated wherever nothing is left to carry out. R252, R260, R266, R268, R269, R270, R273, R274,
R276: what comes down for a known operation whose only local entry has joined, alone on its membership, COL being up and no
fence standing. A down BARRIER, or DONE for the source of a BROADCAST, completes the entry with success, or 0x0F and the
count of the pruned; an ABORT from the parent, and the operation timeout, end the operation and complete it with their
status; an ABORT from a child completes it and goes up, or ends the operation at the root. A down segment whose turn it is
is written where its entry's key places it, and completes the entry if it is the only one; one that the key refuses
completes the entry with 0x02 and aborts the operation; one that comes early is kept; of a member that needs none, nothing
is written. A packet not handed over, or of another kind, a timeout not due, and an ABORT with COL down do nothing. Stated
wherever nothing is left to carry out, completions where the CQ has room. -/
def Obligations.TreePacketsPassUpAndDown : Prop :=
  (∀ (s : State) (port m : Nat) (p : Packet) (o : COp),
      let kept (o' : COp) (c : Chip) : Prop := c.collOp? m p.cseq = some o' ∧ c.mem.hbm = s.chip.mem.hbm ∧ c.queues = s.chip.queues ∧
        c.co.arrivals = s.chip.co.arrivals.erase (port, p)
      let waits := !s.chip.allPosted o
      let relays := s.chip.allPosted o && (s.chip.mParent m).isSome && (o.posts.isEmpty || s.chip.clusterUp 3) &&
        ((Tab.get o.segs 0 CSeg.init).contrib.contains 60 ||
          o.posts.all fun x => p.opcode == 0x60 || (!isReduction p.opcode && x.rank != o.rootRank))
      let ended (cseq : BitVec 32) (c : Chip) : Prop := c.collOp? m cseq = none ∧ c.mem.hbm = s.chip.mem.hbm ∧
        (waits = true → (m, cseq, 4) ∈ c.co.aborts)
      let up := p.kind == 0x10 && p.opcode != 0x68 && p.opcode != 0x69
      let agreed := o.agrees p.opcode p.dtype p.redop p.scnt
      (s.serving → (s.chip.oldestTree port p && up) = false → Completes (.collectiveUp port p false) s fun c => c = s.chip) ∧
      (s.serving → (s.chip.oldestTree port p && p.isTree && p.opcode == 0x69) = false →
        Completes (.collectiveDone port p) s fun c => c = s.chip) ∧
      (s.leaves (fun c => (c.admitTree port p).1) → s.chip.oldestTree port p = true → (s.chip.admitTree port p).2 = none →
        let dropped (c : Chip) : Prop := c.co = { s.chip.co with arrivals := s.chip.co.arrivals.erase (port, p) } ∧ c.mem = s.chip.mem ∧
          c.ctr = (s.chip.bump (collUnit ((s.chip.treeSlot port p).elim 0 (·.1)) p.seg) .treeDiscard).ctr
        (up = true → Completes (.collectiveUp port p false) s dropped) ∧
        (p.isTree = true → p.opcode = 0x69 → Completes (.collectiveDone port p) s dropped)) ∧
      (s.chip.collTakes port p m o = true → o.rising = true →
        (s.leaves (fun c => c.collectiveUp port p false) → up = true → agreed = true → p.scnt ≠ 0 →
          (waits = true → Completes (.collectiveUp port p false) s (kept (o.takeUp port p))) ∧
          (relays = true →
            let o1 := o.takeUp port p
            let last := decide (o1.opcode ≤ 0x61) && !o1.upSent && (s.chip.liveChildren o1).all fun r => o1.upFrom.contains r.1
            Completes (.collectiveUp port p false) s (kept (if last then { o1 with upSent := true } else o1))) ∧
          (∀ (x : CPost) (q cq : Queue), p.opcode = 0x60 → s.chip.mParent m = none → s.chip.allPosted o = true → s.chip.clusterUp 3 = true →
            s.chip.collOps m = [o] → s.chip.collPost o x q cq = true → o.upSent = false →
            let o1 := o.takeUp port p
            ((s.chip.liveChildren o1).all fun r => o1.upFrom.contains r.1) = true →
            let n := s.chip.prunedCount o1
            Completes (.collectiveUp port p false) s fun c =>
              c.mem.hbm = s.chip.mem.hbm ∧ c.postTold s.chip x q cq (prunedStatus n) n ∧ c.collOps m = [])) ∧
        (∀ poisoned, s.leaves (fun c => c.collectiveUp port p poisoned) → up = true → agreed = false ∨ (poisoned = true ∧ o.segs ≠ []) →
          o.posts = [] → s.chip.clusterUp 3 = true → Completes (.collectiveUp port p poisoned) s (ended p.cseq)) ∧
        (s.leaves (fun c => c.collectiveDone port p) → p.kind = 0x10 → p.opcode = 0x69 → o.agrees 0x61 0 0 p.scnt = true →
          (waits || relays) = true → p.scnt ≠ 0 →
          Completes (.collectiveDone port p) s (kept (let o1 := (o.fix 0x61 0 0 p.scnt).tellPruned port p.pruned
            let last := relays && !o1.upSent && (s.chip.liveChildren o1).all fun r => o1.upFrom.contains r.1
            { o1 with doneFrom := insertNat port o1.doneFrom, upSent := o1.upSent || last }))) ∧
        (s.leaves (fun c => c.collectiveDone port p) → p.isTree = true → p.opcode = 0x69 → o.agrees 0x61 0 0 p.scnt = false → o.posts = [] →
          s.chip.clusterUp 3 = true → Completes (.collectiveDone port p) s (ended p.cseq))) ∧
      (∀ cseq seg poisoned,
        let ready (g : CSeg) : Bool := o.abort.isNone && !g.sentUp && (s.chip.segComplete o seg g || s.chip.segMayEnd o g) &&
          (!isReduction o.opcode || s.chip.allPosted o)
        let room := decide (s.chip.stageUsed m + stageCost o.opcode o.dtype o.redop ≤ s.chip.mReserve m)
        let root := (s.chip.mParent m).isNone
        (s.serving → s.chip.collOp? m cseq = none → Completes (.segmentUp m cseq seg poisoned) s fun c => c = s.chip) ∧
        (s.chip.collOp? m cseq = some o →
          (s.serving → Tab.get? o.segs seg = none → Completes (.segmentUp m cseq seg poisoned) s fun c => c = s.chip) ∧
          (∀ g, Tab.get? o.segs seg = some g →
            (s.serving → ready g = false ∨ (poisoned = false ∧ root = false ∧ room = false) ∨ (poisoned = false ∧ root = true ∧ isReduction o.opcode = false) →
              Completes (.segmentUp m cseq seg poisoned) s fun c => c = s.chip) ∧
            (s.leaves (fun c => c.segmentUp m cseq seg false) → ready g = true → root = false → room = true →
              Completes (.segmentUp m cseq seg false) s fun c => c.mem = s.chip.mem ∧ c.queues = s.chip.queues ∧
                c.collOp? m cseq =
                  some { o with segs := Tab.put o.segs seg { g with sentUp := true, raw := [], acc := [], partsGot := [], partsLen := [] } }) ∧
            (s.leaves (fun c => c.segmentUp m cseq seg true) → ready g = true → o.posts = [] → o.abortDue = none → s.chip.collTidy m = true → s.chip.clusterUp 3 = true →
              Completes (.segmentUp m cseq seg true) s (ended cseq)) ∧
            (s.leaves (fun c => c.segmentUp m cseq seg false) → ready g = true → root = true → isReduction o.opcode = true →
              s.chip.mLocals m = [] → o.posts = [] → s.chip.collQuiet m = true → s.chip.collTidy m = true → o.abortDue = none → o.segs.length < o.scnt →
              Completes (.segmentUp m cseq seg false) s fun c => c.mem = s.chip.mem ∧
                ∃ o' g', c.collOp? m cseq = some o' ∧ Tab.get? o'.segs seg = some g' ∧ g'.gotDown = true)))))
  ∧ (∀ (s : State) (port m : Nat) (p : Packet),
      let down := p.kind == 0x11 && p.opcode != 0x68 && p.opcode != 0x69
      (s.serving → (s.chip.oldestTree port p && down) = false → Completes (.collectiveDown port p) s fun c => c = s.chip) ∧
      (s.serving → (s.chip.co.arrivals.contains (port, p) && p.isTree && p.opcode == 0x68 && s.chip.clusterUp 3) = false →
        Completes (.collectiveAbort port p) s fun c => c = s.chip) ∧
      (∀ cseq, s.serving → ((s.chip.collOp? m cseq).elim true fun o => !s.chip.clusterUp 3 ||
          !(o.startedAt.elim false fun t => decide (t + 1000000 * s.chip.param 0x24 0x001 0 ≤ s.chip.now)) ||
          (!(s.chip.mLocals m).isEmpty && s.chip.allPosted o && o.posts.all (·.done) && o.abort.isNone)) = true →
        Completes (.collectiveTimeout m cseq) s fun c => c = s.chip) ∧
      (∀ (o : COp) (x : CPost) (q cq : Queue), s.chip.clusterUp 3 = true → s.chip.allPosted o = true → o.known = true →
        s.chip.collOps m = [o] → s.chip.collPost o x q cq = true → s.chip.rt.fenced = [] → o.rising = true →
        let told (st pruned : Nat) (c : Chip) : Prop := c.mem.hbm = s.chip.mem.hbm ∧ c.postTold s.chip x q cq st pruned
        let gone (c : Chip) : Prop := c.collOps m = []
        let st := abortStatus p
        let k := s.chip.localCheck x.fn x.entry.dkey (x.entry.daddr + (o.placeOf (s.chip.mSize m) x p.seg).getD 0) p.payload.length true
        let d := s.chip.drawnBy p.payload.length
        let bytes := s.chip.overlapped x k p.payload
        (∀ t : Nat, s.leaves (fun c => c.collectiveTimeout m o.cseq) → o.startedAt = some t →
          t + 1000000 * s.chip.param 0x24 0x001 0 ≤ s.chip.now →
          Completes (.collectiveTimeout m o.cseq) s fun c => told 0x0E 0 c ∧ gone c) ∧
        (s.chip.collTakes port p m o = true →
          (s.leaves (fun c => c.collectiveDown port p) → down = true → o.agrees p.opcode p.dtype p.redop p.scnt = true →
            (p.opcode = 0x60 → Completes (.collectiveDown port p) s fun c => told (prunedStatus p.pruned) p.pruned c ∧ gone c) ∧
            (p.opcode ≠ 0x60 → p.scnt ≤ p.seg → Completes (.collectiveDown port p) s fun c => c.mem.hbm = s.chip.mem.hbm ∧ c.collOps m = [o]) ∧
            (p.opcode ≠ 0x60 → p.seg < p.scnt → (s.chip.mParent m).isSome = true → o.nextWrite = p.seg →
              ((o.placeOf (s.chip.mSize m) x p.seg).isSome = true → p.payload ≠ [] →
                ((d.place k bytes 2).2 = none →
                  Completes (.collectiveDown port p) s (fun c => c.placedAt d k bytes) ∧
                  (p.scnt = 1 → o.segs.length ≤ 1 → (o.segs.all fun r => r.1 == 0) = true →
                    Completes (.collectiveDown port p) s fun c =>
                      c.postTold s.chip { x with written := x.written + p.payload.length } q cq 0 0)) ∧
                ((d.place k bytes 2).2 ≠ none → Completes (.collectiveDown port p) s fun c => told 2 0 c ∧ gone c)) ∧
              ((o.placeOf (s.chip.mSize m) x p.seg).isNone = true → Completes (.collectiveDown port p) s fun c => c.mem.hbm = s.chip.mem.hbm)) ∧
            (p.opcode ≠ 0x60 → p.seg < p.scnt → (s.chip.mParent m).isSome = true → o.nextWrite < p.seg →
              (o.placeOf (s.chip.mSize m) x o.nextWrite).isSome = true →
              (!isReduction p.opcode || (Tab.get o.segs 0 CSeg.init).contrib.contains 60) = true →
              Completes (.collectiveDown port p) s fun c => c.mem.hbm = s.chip.mem.hbm ∧
                ∃ o' g, c.collOp? m o.cseq = some o' ∧ Tab.get? o'.segs p.seg = some g ∧ g.gotDown = true ∧ g.raw = p.payload)) ∧
          (s.leaves (fun c => c.collectiveDown port p) → down = true → o.agrees p.opcode p.dtype p.redop p.scnt = false →
            Completes (.collectiveDown port p) s fun c => told 4 0 c ∧ gone c) ∧
          (s.leaves (fun c => c.collectiveDone port p) → p.kind = 0x11 → p.opcode = 0x69 → o.agrees 0x61 0 0 p.scnt = true →
            x.rank = o.rootRank → Completes (.collectiveDone port p) s fun c => told (prunedStatus p.pruned) p.pruned c ∧ gone c) ∧
          (s.leaves (fun c => c.collectiveAbort port p) → p.opcode = 0x68 →
            (p.kind = 0x11 → Completes (.collectiveAbort port p) s fun c => told st o.downTotal c ∧ gone c) ∧
            (p.kind = 0x10 → Completes (.collectiveAbort port p) s fun c => told st o.downTotal c ∧
              if (s.chip.mParent m).isNone then gone c
              else ∃ o', c.collOp? m o.cseq = some o' ∧ o'.abort = some st ∧ o'.abortDown = false)))))

/-! ### Regions, translation, channel groups and CXL.mem -/

/-- R231, R286, R287, R288, R292, R514: REGISTER keeps the bus address of a block in the order of the writes, where it is a
multiple of 64, else is answered with 0x07. A REGISTER block whose checks pass registers the region and answers RB7 with its
key; another, and a DEREGISTER of an index outside the range or not registered, changes no region and answers the result of
the first check that fails, with a KEY left free. A block that cannot be read raises the fault and ends the command.
DEREGISTER takes the region away, raises its generation and ends the offers on it, and completes when no host read of the
region is open. An ATS invalidation drops the matching translations and is answered when no host read uses such a page. A
block command that is not at the head of its function's commands, or of the other kind, and an end that is not due change
nothing. RB7 is written where the host port carries DMA of the function; the DEREGISTER is stated where it leaves nothing
else to carry out. -/
def Obligations.RegionsComeAndGo : Prop :=
  ∀ (s : State) (fn : Nat),
    let head := s.chip.regionHead? fn
    let next := s.chip.mem.atsPending.find? (fun r => r.1 == fn)
    let still (c : Chip) : Prop := c = s.chip
    let ended (c : Chip) : Prop := (c.fn fn).regionJobs = (s.chip.fn fn).regionJobs.tail
    (∀ w (addr : Word), s.serving → s.chip.mayWrite w (pnum 0x28 0x021 fn) = true → fn < 4096 →
      (addr.toNat % 64 = 0 → Completes (.register w fn addr) s fun c =>
        (c.fn fn).regionJobs = (s.chip.fn fn).regionJobs ++ [addr.toNat] ∧ c.mem = s.chip.mem ∧ c.queues = s.chip.queues ∧
        c.out = s.chip.out ++ [.dictReply w 0 []]) ∧
      (addr.toNat % 64 ≠ 0 → Completes (.register w fn addr) s fun c => c = { s.chip with out := s.chip.out ++ [.dictReply w 7 []] })) ∧
    (∀ (b : Option RegBlock) pages, s.serving →
      (head = none ∨ b.any (·.cmd == 2) = true → Completes (.registerComplete fn b pages) s still) ∧
      (head = none ∨ b.any (·.cmd != 2) = true → Completes (.deregister fn b) s still)) ∧
    (s.leaves (fun c => c.regBlockFails fn) → head.isSome = true →
      let failed (c : Chip) : Prop := ended c ∧ c.mem = s.chip.mem ∧ c.noted s.chip 0xB0 0x101
      (∀ pages, Completes (.registerComplete fn none pages) s failed) ∧ Completes (.deregister fn none) s failed) ∧
    (∀ addr (b : RegBlock), head = some addr →
      let gen := Tab.get s.chip.mem.regionGen b.index 0
      let key := b.index * 256 + gen
      (∀ pages, s.serving → b.cmd ≠ 2 →
        (∀ l, pages = some l → s.chip.registerResult fn b pages = 0 → Completes (.registerComplete fn (some b) pages) s fun c =>
          c.queues = s.chip.queues ∧ Tab.get? c.mem.regions b.index = some (b.region fn l) ∧
          (∀ i, i ≠ b.index → Tab.get? c.mem.regions i = Tab.get? s.chip.mem.regions i) ∧
          ended c ∧ c.mem.hbm = s.chip.mem.hbm ∧ c.rb7 s.chip fn addr 0 key) ∧
        (s.chip.registerResult fn b pages ≠ 0 → Completes (.registerComplete fn (some b) pages) s fun c =>
          c.mem = s.chip.mem ∧ ended c ∧ c.queues = s.chip.queues ∧
          ∃ k : Nat, c.rb7 s.chip fn addr (s.chip.registerResult fn b pages) k)) ∧
      (b.cmd = 2 →
        (s.serving → s.chip.indexOk fn b.index = false ∨ Tab.get? s.chip.mem.regions b.index = none → Completes (.deregister fn (some b)) s fun c =>
          c.mem = s.chip.mem ∧ ended c ∧ c.queues = s.chip.queues ∧
          ∃ k : Nat, c.rb7 s.chip fn addr (if s.chip.indexOk fn b.index then 3 else 2) k) ∧
        (s.leaves (fun c => c.deregister fn (some b)) → s.chip.indexOk fn b.index = true → (Tab.get? s.chip.mem.regions b.index).isSome = true →
          Completes (.deregister fn (some b)) s fun c =>
            Tab.get? c.mem.regions b.index = none ∧ (∀ i, i ≠ b.index → Tab.get? c.mem.regions i = Tab.get? s.chip.mem.regions i) ∧
            Tab.get c.mem.regionGen b.index 0 = (gen + 1) % 256 ∧ (c.fn fn).deregJob = some (addr, key) ∧ ended c ∧
            (∀ o ∈ c.mt.sOffers, o.lkey.toNat ≠ key) ∧ c.mem.hbm = s.chip.mem.hbm))) ∧
    (s.serving →
      ((s.chip.fn fn).deregJob = none → Completes (.deregisterComplete fn) s still) ∧
      (∀ addr key, (s.chip.fn fn).deregJob = some (addr, key) →
        let busy := s.chip.tr.hostReads.any fun r => r.region == key / 256
        (busy = true → Completes (.deregisterComplete fn) s still) ∧
        (busy = false → Completes (.deregisterComplete fn) s fun c => (c.fn fn).deregJob = none ∧ c.mem = s.chip.mem ∧
          c.queues = s.chip.queues ∧ c.rb7 s.chip fn addr 0 key)) ∧
      (∀ addr len, Completes (.atsInvalidateRequest fn addr len) s fun c =>
        c = { s.chip with mem := { s.chip.mem with
          atsPending := s.chip.mem.atsPending ++ [(fn, addr, len)]
          atsCache := s.chip.mem.atsCache.filter fun r => !(r.1 == fn && decide (addr < r.2.1 + 4096 ∧ r.2.1 < addr + len)) } }) ∧
      ((next.all (fun r => s.chip.atsInUse fn r.2.1 r.2.2) = true → Completes (.atsInvalidateCompletion fn) s still) ∧
        (∀ r, next = some r → s.chip.atsInUse fn r.2.1 r.2.2 = false → Completes (.atsInvalidateCompletion fn) s fun c =>
          c = { s.chip with mem := { s.chip.mem with atsPending := s.chip.mem.atsPending.erase r }, out := s.chip.out ++ [.atsDone fn] })))

/-- R280, R282, R283: RETIRE of a group in service, and its failure, make it migrating and shrink fabric memory by 12 GiB
less what the other groups in service can take; RETIRE of an absent or retired group is answered with 0x07, and that of a
migrating group with 0x00. When the copies are done the group is retired, its slabs lie at their new places, and the blocks
listed as failed, or all where the group no longer answered, are poisoned. The patrol scrub of a group in service or
migrating counts a corrected error, poisons the block of an uncorrectable word (of a slab being copied: or leaves it), and
does nothing on a clean word; a corrected error retires the group where P28.013 and P28.012 say so. Of another group it, the
failure and the completion do nothing. No byte of fabric memory changes. Stated wherever nothing is left to carry out. -/
def Obligations.ChannelGroupsRetire : Prop :=
  ∀ (s : State) (g : Nat),
    let others := s.chip.inService.filter (· != g)
    let outside := others.foldl (fun n x => n + s.chip.freeIn x) 0
    let state := s.chip.groupState g
    let still (c : Chip) : Prop := c = s.chip
    let begun (c : Chip) : Prop := c.groupState g = 2 ∧ c.mem.size = s.chip.mem.size - (384 - outside) * slabBytes ∧
      c.mem.hbm = s.chip.mem.hbm
    let gone := state = 0 ∨ state = 3
    (∀ w, g < 256 → s.chip.mayWrite w (pnum 0x28 0x011 0) = true →
      (s.leaves (fun c => c.beginRetire g) → state = 1 → Completes (.retire w g) s fun c => begun c ∧ .dictReply w 0 [] ∈ c.out) ∧
      (s.serving → state = 2 → Completes (.retire w g) s fun c => c.mem = s.chip.mem ∧ c.out = s.chip.out ++ [.dictReply w 0 []]) ∧
      (s.serving → gone → Completes (.retire w g) s fun c => c = { s.chip with out := s.chip.out ++ [.dictReply w 7 []] })) ∧
    (s.serving → gone → Completes (.channelGroupFailure g) s still) ∧
    (s.leaves (fun c => c.groupFails g) →
      let dies (c : Chip) : Prop := (c.group g).dead = true ∧ c.noted s.chip (0x60 + g) 0x103
      (state = 1 → Completes (.channelGroupFailure g) s fun c => begun c ∧ dies c) ∧
      (state = 2 → Completes (.channelGroupFailure g) s fun c => c.groupState g = 2 ∧ c.mem.size = s.chip.mem.size ∧
        c.mem.hbm = s.chip.mem.hbm ∧ dies c)) ∧
    (∀ l, (s.serving → state ≠ 2 → Completes (.retirementComplete g l) s still) ∧
      (s.leaves (fun c => c.retirementComplete g l) → state = 2 → (s.chip.mem.moving.map (·.1)).Nodup →
        Completes (.retirementComplete g l) s fun c => c.groupState g = 3 ∧ c.mem.hbm = s.chip.mem.hbm ∧ c.mem.size = s.chip.mem.size ∧
          c.noted s.chip (0x60 + g) 0x102 ∧
          ∀ r ∈ s.chip.mem.moving, s.chip.slabPlace r.1 / 384 = g → c.slabPlace r.1 = r.2 ∧
            (s.chip.deviceSlabs ≤ r.1 → (∀ b ∈ l, b / 524288 = r.1 - s.chip.deviceSlabs → b ∈ c.mem.poison) ∧
              ((s.chip.group g).dead = true → r.1 - s.chip.deviceSlabs ∈ c.mem.lostSlabs)))) ∧
    (∀ a,
      (∀ o : ScrubOutcome, s.serving → (state ≠ 1 ∧ state ≠ 2) ∨ o = .clean → Completes (.hbmPatrolScrub g a o) s still) ∧
      (state = 1 ∨ state = 2 →
        let recent := ((s.chip.group g).corrected.filter fun t => decide (s.chip.now < t + hour)).length
        let retires := decide (s.chip.param 0x28 0x013 0 = 1 ∧ s.chip.param 0x28 0x012 0 < recent + 1)
        (s.leaves (fun c => c.correctedError g a) → retires = false ∨ state = 2 → Completes (.hbmPatrolScrub g a .corrected) s fun c =>
          c.groupState g = state ∧ s.chip.now ∈ (c.group g).corrected ∧ c.mem.hbm = s.chip.mem.hbm ∧ c.mem.size = s.chip.mem.size ∧
          c.noted s.chip (0x60 + g) 0x100) ∧
        (s.leaves (fun c => c.correctedError g a) → retires = true → state = 1 → Completes (.hbmPatrolScrub g a .corrected) s begun) ∧
        (s.leaves (fun c => c.uncorrectableWord g a) → Completes (.hbmPatrolScrub g a .uncorrectable) s fun c =>
          c.groupState g = state ∧ c.mem.hbm = s.chip.mem.hbm ∧ c.noted s.chip (0x60 + g) 0x101 ∧
          ∀ o, s.chip.hbmOffset? g a = some o → o / 64 ∈ c.mem.poison ∨
            s.chip.copying (s.chip.deviceSlabs + o / slabBytes) = true ∧ c.mem.poison = s.chip.mem.poison)))

/-- R306, R307, R308: a CXL.mem read of a served port's range returns the 64 bytes of fabric memory, with poison where the
block is poisoned; a write stores exactly the bytes that it enables, and clears poison where it enables all 64 of an aligned
block. Of a withdrawn range a read returns 64 free bytes with poison and a write is discarded and counted. Neither acts
outside the ranges, off a 64-byte boundary, or at a port that serves no CXL.mem. Stated wherever nothing is left to carry
out. -/
def Obligations.CxlLinesAreReadAndWritten : Prop :=
  ∀ (s : State) (h d : Nat) (l : List (Option Byte)),
    let place := if s.chip.cxlServes h ∧ d % 64 = 0 then (s.chip.port h).cxlPlace d else none
    (s.serving →
      (place = none → Completes (.cxlMemRead h d) s fun c => c = s.chip) ∧
      (place = none ∨ l.length ≠ 64 → Completes (.cxlMemWrite h d l) s fun c => c = s.chip)) ∧
    (∀ i o, place = some (i, o) →
      (s.serving → i ∈ (s.chip.port h).cxlWithdrawn →
        (Completes (.cxlMemRead h d) s fun c => c.mem = s.chip.mem ∧ c.queues = s.chip.queues ∧
          (∃ b : List Byte, b.length = 64 ∧ c.out = s.chip.out ++ [.cxlData h b true])) ∧
        (l.length = 64 → Completes (.cxlMemWrite h d l) s fun c => c.mem = s.chip.mem ∧ c.out = s.chip.out ∧
          c.ctr = (s.chip.bump (60 + h) .cxlDiscard).ctr)) ∧
      (i ∉ (s.chip.port h).cxlWithdrawn →
        (s.leaves (fun c => c.cxlRead h d) → Completes (.cxlMemRead h d) s fun c =>
          .cxlData h (s.chip.mem.read o 64) (s.chip.mem.poisoned o 64) ∈ c.out ∧ c.mem = s.chip.mem) ∧
        (s.serving → l.length = 64 → Completes (.cxlMemWrite h d l) s fun c =>
          c.queues = s.chip.queues ∧ (∀ j < 64, c.mem.byte (o + j) = ((l[j]?).join).getD (s.chip.mem.byte (o + j))) ∧
          (∀ b, (b < o ∨ o + 64 ≤ b) → c.mem.byte b = s.chip.mem.byte b) ∧
          ((l.all (·.isSome)) = true → o % 64 = 0 → c.mem.poisoned o 64 = false))))

/-! ### Load/store windows -/

/-- R297 to R303, R305, host accesses to BAR4. A read that kept lines hold is answered from them; another of one valid
window becomes a READ at the targets of R297, with the deadline of P29.001, and an AtomicOp its native atomic, but where
WERR blocks a confirmed window, or nothing is under way and no route reaches the endpoint, Completer Abort answers; outside
one window, in a 32-bit form or an AtomicOp of a data-invariant window, Unsupported Request. Each ends the open merge of the
host port. Without room for a request it waits. A write outside one window is discarded and counted; in a confirmed window
each run becomes an operation, or sets WERR where nothing is under way and no route reaches; in a posted one every run lies
in an operation or the open merge, and a single run joins or begins that merge unless P29.003 is 0 or it ends a page; lines
that it overlaps are dropped. The gathering interval sends a merge that is due, the age limit drops lines, and the timeout
ends an operation that is due: TOUT, with Completer Abort for a request and a fault record for a write; a prefetch is
counted. Fabric memory stays. Stated wherever nothing is left to carry out, operations where no other of the bridge fails. -/
def Obligations.WindowAccessesBecomeOperations : Prop :=
  ∀ (s : State) (fn : Nat),
    let h := fn / 256
    let room := s.chip.hasCredit h
    let clear := s.chip.bridgeClear h
    let win (off len : Nat) : Option Win := if s.chip.bar4Served fn then s.chip.winAt fn off len else none
    let idle (w : Win) : Bool := s.chip.br.ops.isEmpty && (Tab.get? s.chip.br.merges h).isNone && s.chip.chanReady (chKey h w.ep w.cls)
    let deadline := s.chip.now + 1000 * s.chip.param 0x29 0x001 0
    let open? := Tab.get? s.chip.br.merges h
    let keeps (c : Chip) : Prop := c.mem = s.chip.mem ∧ c.queues = s.chip.queues
    let answers (id : Nat) (a : PcieEnd) (c : Chip) : Prop := keeps c ∧ Tab.get? c.br.merges h = none ∧ .pcie fn id a ∈ c.out
    (∀ id off len,
      (s.serving → room = false → Completes (.bar4Read fn id off len) s fun c =>
        c = { s.chip with br := { s.chip.br with waiting := [{ fn := fn, id := id, off := off, len := len }] } }) ∧
      (s.leaves (fun c => c.bar4Read fn id off len) → room = true →
        (win off len = none → Completes (.bar4Read fn id off len) s (answers id .unsupported)) ∧
        (∀ w, win off len = some w →
          (s.chip.winBlocked fn w.slot = true → Completes (.bar4Read fn id off len) s (answers id .completerAbort)) ∧
          (s.chip.winBlocked fn w.slot = false →
            (∀ l, s.chip.fromLines fn w off len = some l → Completes (.bar4Read fn id off len) s (answers id (.success l))) ∧
            (s.chip.fromLines fn w off len = none →
              (idle w = true → (s.chip.preFail w.ep).isSome = true → Completes (.bar4Read fn id off len) s (answers id .completerAbort)) ∧
              (clear = true → s.chip.preFail w.ep = none → Completes (.bar4Read fn id off len) s fun c =>
                keeps c ∧ Tab.get? c.br.merges h = none ∧ ∃ o ∈ c.br.ops, o.fn = fn ∧ o.slot = w.slot ∧ o.kind = .read ∧ o.id = id ∧
                  o.ep = w.ep ∧ o.key = w.key ∧ o.cls = w.cls ∧ o.target + o.length = ((w.targets off len).max?.getD 0) + 1 ∧
                  o.target = (w.targets off len).min?.getD 0 ∧ o.deadline = deadline)))))) ∧
    (∀ id off (a : PcieAtomic),
      (s.serving → room = false → Completes (.bar4Atomicop fn id off a) s fun c =>
        c = { s.chip with br := { s.chip.br with waiting := [{ fn := fn, id := id, off := off, op := some a }] } }) ∧
      (s.leaves (fun c => c.bar4Atomic fn id off a) → room = true →
        (a.native? = none → Completes (.bar4Atomicop fn id off a) s (answers id .unsupported)) ∧
        (∀ op n l, a.native? = some (op, n, l) →
          ((win off n).all (fun w => w.dinv) = true → Completes (.bar4Atomicop fn id off a) s (answers id .unsupported)) ∧
          (∀ w, win off n = some w → w.dinv = false →
            (s.chip.winBlocked fn w.slot = true → Completes (.bar4Atomicop fn id off a) s (answers id .completerAbort)) ∧
            (s.chip.winBlocked fn w.slot = false →
              (idle w = true → (s.chip.preFail w.ep).isSome = true → Completes (.bar4Atomicop fn id off a) s (answers id .completerAbort)) ∧
              (clear = true → s.chip.preFail w.ep = none → Completes (.bar4Atomicop fn id off a) s fun c =>
                keeps c ∧ Tab.get? c.br.merges h = none ∧ ∃ o ∈ c.br.ops, o.fn = fn ∧ o.slot = w.slot ∧ o.id = id ∧ o.kind = .atomic ∧
                  o.ep = w.ep ∧ o.key = w.key ∧ o.atomic = op ∧ o.bytes = l ∧ o.length = n ∧ o.target = w.target off ∧
                  o.deadline = deadline)))))) ∧
    (∀ off (l : List Byte),
      (s.serving → win off l.length = none → Completes (.bar4Write fn off l) s fun c =>
        c = if s.chip.hasHost h then s.chip.bump (60 + h) .windowDiscard else s.chip) ∧
      (s.leaves (fun c => c.bar4Write fn off l) → ∀ w, win off l.length = some w →
        let runs := w.runs off l
        let lines := (s.chip.dropOverlapped h w.ep w.key runs).br.lines
        (w.confirmed = true →
          (clear = true → s.chip.preFail w.ep = none → Completes (.bar4Write fn off l) s fun c =>
            keeps c ∧ c.br.lines = lines ∧ Tab.get? c.br.merges h = none ∧
            ∀ r ∈ runs, ∃ o ∈ c.br.ops, o.fn = fn ∧ o.slot = w.slot ∧ o.kind = .confirmed ∧ o.ep = w.ep ∧ o.key = w.key ∧
              o.target = r.1 ∧ o.bytes = r.2) ∧
          (idle w = true → (s.chip.preFail w.ep).isSome = true → runs ≠ [] → Completes (.bar4Write fn off l) s fun c =>
            c.winStatus fn w.slot = s.chip.winStatus fn w.slot ||| 1 ∧ c.br.lines = lines ∧ c.br.ops = [])) ∧
        (w.confirmed = false → clear = true → s.chip.preFail w.ep = none →
          Completes (.bar4Write fn off l) s (fun c =>
            keeps c ∧ c.br.lines = lines ∧ ∀ r ∈ runs,
              (∃ o ∈ c.br.ops, o.kind = .posted ∧ o.fn = fn ∧ o.ep = w.ep ∧ o.key = w.key ∧ o.target ≤ r.1 ∧
                (o.bytes.drop (r.1 - o.target)).take r.2.length = r.2) ∨
              (∃ m, Tab.get? c.br.merges h = some m ∧ m.fn = fn ∧ m.ep = w.ep ∧ m.key = w.key ∧ m.target ≤ r.1 ∧
                (m.bytes.drop (r.1 - m.target)).take r.2.length = r.2)) ∧
          (∀ r, runs = [r] → s.chip.param 0x29 0x003 0 ≠ 0 → (r.1 + r.2.length) % 4096 ≠ 0 →
            let joins (m : Merge) : Bool := m.fn == fn && m.slot == w.slot && m.ep == w.ep && m.key == w.key &&
              m.target + m.bytes.length == r.1 && r.1 % 4096 != 0
            Completes (.bar4Write fn off l) s fun c => Tab.get? c.br.merges h =
              match open? with
              | some m => if joins m then some { m with bytes := m.bytes ++ r.2 }
                  else some { fn := fn, slot := w.slot, ep := w.ep, key := w.key, cls := w.cls, target := r.1, bytes := r.2, since := s.chip.now }
              | none => some { fn := fn, slot := w.slot, ep := w.ep, key := w.key, cls := w.cls, target := r.1, bytes := r.2
                               since := s.chip.now })))) ∧
    (∀ (g : Nat),
      let m? := Tab.get? s.chip.br.merges g
      (s.serving → m?.all (fun m => decide (s.chip.now < m.since + s.chip.param 0x29 0x003 0)) = true →
        Completes (.writeGatherExpiry g) s fun c => c = s.chip) ∧
      (s.leaves (fun c => c.gatherExpiry g) → s.chip.bridgeClear g = true → ∀ m, m? = some m → m.since + s.chip.param 0x29 0x003 0 ≤ s.chip.now →
        Completes (.writeGatherExpiry g) s fun c => keeps c ∧ Tab.get? c.br.merges g = none ∧
          ∃ o ∈ c.br.ops, o.kind = .posted ∧ o.fn = m.fn ∧ o.slot = m.slot ∧ o.ep = m.ep ∧ o.key = m.key ∧ o.target = m.target ∧
            o.bytes = m.bytes) ∧
      (s.serving → Completes (.prefetchExpiry g) s fun c => c = { s.chip with br := { s.chip.br with
        lines := s.chip.br.lines.filter fun x => x.fn / 256 != g || decide (s.chip.now < x.since + s.chip.param 0x29 0x002 0) } })) ∧
    (∀ num,
      let o? := s.chip.br.ops.find? fun o => o.num == num
      (s.serving → o?.all (fun o => o.expired || decide (s.chip.now < o.deadline)) = true →
        Completes (.bridgeTimeout num) s fun c => c = s.chip) ∧
      (s.leaves (fun c => c.bridgeTimeout num) → clear = true → ∀ o, o? = some o → o.expired = false → o.deadline ≤ s.chip.now →
        (o.kind = .speculative → Completes (.bridgeTimeout num) s fun c =>
          keeps c ∧ c.br.status = s.chip.br.status ∧ getCounter ⟨0xB1, .specDropped⟩ c.ctr.events =
            getCounter ⟨0xB1, .specDropped⟩ (s.chip.bump 0xB1 .specDropped).ctr.events) ∧
        (o.kind ≠ .speculative → Completes (.bridgeTimeout num) s fun c =>
          keeps c ∧ c.winStatus o.fn o.slot = s.chip.winStatus o.fn o.slot ||| 2 ∧
          (o.nonPosted = true → .pcie o.fn o.id .completerAbort ∈ c.out) ∧ (o.isWrite = true → c.noted s.chip 0xB1 0x101))))

/-! ### The router core -/

/-- R83, R97, R168, R314, R316, R329, R331, R333, R334, R346, R348: PACKET_ROUTE takes the oldest whole arrival of an input.
One that fails a header check, or that routing discards, is counted at its input with the router core's source; but a
request of the own transport engines that finds no route ends its operation, the only one, with 0x08. A routed one leaves
for the queue of its output as routing has written it, one for the own chip for the host-side port; a tree packet goes to
the collective engines; a broadcast stays. The packet still arriving joins the queue of its output where routing finds one.
A free output starts the packet that its scheduler selects, with ECN where its class exceeds the mark: a whole one leaves by
the link's replay buffer or to the transport engines, another cuts through; one that is too old or fenced, the only one of
the output, is discarded and counted. With nothing to take or to start, and on a busy output, nothing happens. Stated
wherever nothing is left to carry out but padding on a line. -/
def Obligations.PacketsAreRoutedAndSent : Prop :=
  ∀ (s : State),
    let still (c : Chip) : Prop := c = s.chip
    let onto (w : Waiting) (c : Chip) : Prop := c.rt.waiting = s.chip.rt.waiting ++ [w] ∧ c.mem = s.chip.mem ∧ c.queues = s.chip.queues
    let once (port : Nat) (k : Ctr) (c : Chip) : Prop :=
      getCounter ⟨port, k⟩ c.ctr.events = getCounter ⟨port, k⟩ (s.chip.bump port k).ctr.events
    (∀ inp,
      (s.serving → s.chip.firstArrival? inp = none → Completes (.packetRoute inp true) s still) ∧
      (s.leaves (fun c => c.packetRoute inp true) → ∀ a, s.chip.firstArrival? inp = some a →
        let left (c : Chip) : Prop := c.rt.arrivals = eraseFirst (fun x => x.id == a.id) s.chip.rt.arrivals ∧ c.mem = s.chip.mem
        let dropped (k : Ctr) (cause : Nat) (c : Chip) : Prop := left c ∧ c.rt.waiting = s.chip.rt.waiting ∧ once inp k c ∧
          c.noted s.chip routerUnit cause
        (a.pkt.headerFails = true → Completes (.packetRoute inp true) s (dropped .malformed 0x100)) ∧
        (a.pkt.headerFails = false →
          let routed := (s.chip.route inp a.pkt).2
          let w : Waiting := { inp := a.inp, vc := a.pkt.vc.toNat, out := 0, pkt := a.pkt, id := a.id, pool := a.pool }
          (∀ out p, routed = .to out p →
            Completes (.packetRoute inp true) s fun c => left c ∧ onto { w with out := out, pkt := p } c) ∧
          (s.chip.full = true → a.pkt.dstChip = s.chip.id → (a.pkt.level ≠ 0 ∨ a.pkt.igrp.toNat = s.chip.id / 32) →
            a.pkt.tc.toNat ≠ 1 → s.chip.tooOld a.pkt = false → a.pkt.isBroadcast = false → a.pkt.isTree = false →
            Completes (.packetRoute inp true) s fun c => left c ∧ onto { w with out := 60 + a.pkt.dstPort } c) ∧
          (∀ k cause, routed = .drop k cause → k ≠ .noRoute ∨ (s.chip.ownUnrouted? a).isNone = true →
            Completes (.packetRoute inp true) s (dropped k cause)) ∧
          (∀ (cause : Nat) (k : Nat) (x : Chan) (o : OutPkt) (b : SendOp) (q cq : Queue), routed = .drop .noRoute cause → 60 ≤ inp →
            k = chKey (inp - 60) a.pkt.dst.toNat ((a.pkt.tc.toNat - 2) / 2) → s.chip.chan? k = some x →
            x.outstanding.find? (fun o => o.psn == a.pkt.psn && o.pkt.kind == a.pkt.kind && o.pkt.tc == a.pkt.tc) = some o →
            s.chip.opAnswers k x b q cq = true → b.msgid = o.msgid → o.fn.isSome = true → x.sendState = .active →
            Completes (.packetRoute inp true) s fun c => left c ∧ c.opEnded s.chip k b q cq 8) ∧
          (routed = .tree → Completes (.packetRoute inp true) s fun c => left c ∧ c.co.arrivals = s.chip.co.arrivals ++ [(inp, a.pkt)]) ∧
          (routed = .broadcast → Completes (.packetRoute inp true) s still))) ∧
      (s.serving →
        let ahead := if s.chip.rt.waiting.any (fun w => w.inp == inp && !w.whole) || (s.chip.firstArrival? inp).isSome then none
          else (s.chip.ahead? inp).filter fun p => !p.startFails
        (∀ p out (q : Packet), ahead = some p → (s.chip.route inp p).2 = .to out q → Completes (.packetRoute inp false) s
          (onto { inp := inp, vc := p.vc.toNat, out := out, pkt := q.filled p.len.toNat, id := s.chip.rt.nextId, whole := false })) ∧
        (ahead.all (fun p => match (s.chip.route inp p).2 with
            | .to _ _ => false
            | _ => true) = true → Completes (.packetRoute inp false) s still))) ∧
    (∀ out,
      let choice := ((s.chip.refreshOut out).select out).2
      (s.serving → s.chip.outFree out = false → Completes (.outputStart out) s still) ∧
      (s.serving → s.chip.outFree out = true → choice = none → Completes (.outputStart out) s fun c => c = s.chip.refreshOut out) ∧
      (∀ (w : Waiting) capped, s.leavesPadding (fun c => c.outputStart out (c.rt.waiting.length + 1)) → s.chip.outFree out = true →
        choice = some (w, capped) →
        let kept := eraseFirst (fun x => x.id == w.id && x.out == w.out) s.chip.rt.waiting
        (s.chip.rt.waiting.filter (fun x => x.out == out) = [w] →
          (s.chip.tooOld w.pkt = true → Completes (.outputStart out) s fun c =>
            c.rt.waiting = kept ∧ once out .ageLimit c ∧ c.noted s.chip routerUnit 0x105 ∧ c.mem = s.chip.mem) ∧
          (s.chip.tooOld w.pkt = false → s.chip.fenceStops w = true → Completes (.outputStart out) s fun c =>
            c.rt.waiting = kept ∧ once out .fenceDiscard c ∧ c.mem = s.chip.mem)) ∧
        (s.chip.tooOld w.pkt = false → s.chip.fenceStops w = false →
          let mark := decide (2 ≤ w.pkt.tc.toNat) && decide (s.chip.param 0x12 0x010 w.pkt.tc.toNat < s.chip.vcOccupancy w)
          let p := if mark then { w.pkt with ecn := true } else w.pkt
          let tx := (s.chip.link out).tx
          let sent (c : Chip) : Prop := ∃ x ∈ (c.link out).tx.replay, x.lsn = tx.nextLsn ∧
            x.pkt = p.leaving (s.chip.role out == 2) ∧ x.sending = !w.whole
          (w.whole = true → Completes (.outputStart out) s (fun c => c.rt.waiting = kept ∧ c.mem = s.chip.mem ∧ c.queues = s.chip.queues) ∧
            (60 ≤ out → Completes (.outputStart out) s fun c => c.tr.arrivals = s.chip.tr.arrivals ++ [p])) ∧
          (w.whole = false → Completes (.outputStart out) s fun c => c.mem = s.chip.mem ∧ c.queues = s.chip.queues ∧
            c.rt.waiting = mapIf (fun x => x.id == w.id && x.out == w.out) (fun _ => { w with pkt := p, started := true }) s.chip.rt.waiting) ∧
          (out < 60 → tx.replay.all (fun x => !x.sending) = true → Completes (.outputStart out) s sent))))

/-- R324, R325, R351, R356, R357, R360, R364: a hint is queued for the LCBs of an Active local port with the next HSEQ; a
fresh one of the port's peer is kept with its levels, any other is discarded and counted; one that has gone stale counts
once. A tick fills the buckets of the TC1 caps and the shapers by their rates up to their depths, and the policers of
functions without channels at work. A gate whose entry ends goes on to the next entry, and one whose new schedule is due to
that schedule. A command that is not due, and a hint of another port, change nothing. Ticks are stated where they leave
nothing to carry out. -/
def Obligations.HintsTokensAndGatesMove : Prop :=
  ∀ (s : State) (port : Nat),
    let localUp := s.chip.portActive port && s.chip.role port == 1
    let still (c : Chip) : Prop := c = s.chip
    (s.serving →
      (localUp = false → Completes (.splineHintSend port) s still) ∧
      (localUp = true → Completes (.splineHintSend port) s fun c =>
        let seq := Tab.get s.chip.rt.hintSeq port 0
        Tab.get c.rt.hintSeq port 0 = (seq + 1) % 256 ∧ c.rt.waiting = s.chip.rt.waiting ∧ c.mem = s.chip.mem ∧
        (c.link port).tx.items = (s.chip.link port).tx.items ++ [(1, s.chip.hintItem seq)]) ∧
      (∀ item : List Byte,
        let hseq := ((item[1]?).getD 0).toNat
        let taken := localUp && bits (s.chip.tport port).learnt 6 5 == (item.headD 0).toNat % 32 &&
          (Tab.get? s.chip.rt.hints port).all fun h => h.hseq != hseq
        (taken = true → Completes (.splineHintReceive port item) s fun c => c.rt.waiting = s.chip.rt.waiting ∧ c.mem = s.chip.mem ∧
          Tab.get? c.rt.hints port = some { levels := hintLevels item, hseq := hseq, seenAt := s.chip.now, staleCounted := false }) ∧
        (taken = false → Completes (.splineHintReceive port item) s fun c => c = s.chip.bump port .hintDiscard)) ∧
      (let hint := Tab.get? s.chip.rt.hints port
       (hint.all (fun h => h.staleCounted || decide (s.chip.now ≤ h.seenAt + 4000)) = true → Completes (.hintStale port) s still) ∧
       (∀ h : Hint, hint = some h → h.seenAt + 4000 < s.chip.now → h.staleCounted = false →
        Completes (.hintStale port) s fun c => Tab.get? c.rt.hints port = some { h with staleCounted := true } ∧
          c.ctr = (s.chip.bump port .staleHint).ctr ∧ c.mem = s.chip.mem)) ∧
      (let g := s.chip.gate port
       let due := (g.next.map s.chip.reached).getD false
       let e := (g.entry + 1) % max 1 g.durations.length
       let moved (g' : Gate) (c : Chip) : Prop := c.gate port = g' ∧ c.rt.waiting = s.chip.rt.waiting ∧ c.mem = s.chip.mem
       (due = false → (g.enabled && s.chip.reached g.endsAt) = false → Completes (.gateEntryChange port) s still) ∧
       (due = true → Completes (.gateEntryChange port) s (moved (s.chip.gateStart port))) ∧
       (due = false → g.enabled = true → s.chip.reached g.endsAt = true → Completes (.gateEntryChange port) s
        (moved { g with entry := e, endsAt := g.endsAt + BitVec.ofNat 64 (4 * (g.durations[e]?).getD 0) })))) ∧
    (∀ ticks, s.leaves (fun c => c.tokenTick ticks) → Completes (.tokenTick ticks) s fun c => c.mem = s.chip.mem ∧
      (∀ x, Tab.get? s.chip.rt.tc1Tokens port = some x → Tab.get? c.rt.tc1Tokens port =
        some (fill x (ticks * (s.chip.rateOf port * 10 * s.chip.param 0x1A 0x002 port) : Nat) (264 * cellTokens : Nat))) ∧
      (∀ x, Tab.get? s.chip.rt.shapers port = some x → Tab.get? c.rt.shapers port =
        some (fill x (ticks * s.chip.param 0x1A 0x010 port : Nat) (s.chip.param 0x1A 0x011 port * cellTokens : Nat))) ∧
      (s.chip.tr.chans = [] → ∀ x, Tab.get? s.chip.rt.policers port = some x → Tab.get? c.rt.policers port =
        some (fill x (ticks * s.chip.param 0x1A 0x020 port : Nat) (s.chip.param 0x1A 0x021 port * cellTokens : Nat))))

/-- R24, R87, R335, R336, R338, R340, R342, R344, R345: a fence or throttle broadcast that stands first at its input and is
new to its manager's row is copied to the ports R336 names, where no hop or level limit stops it, its BSEQ is entered and it
waits for FAB, unless 256 wait, which raises the overflow source; one too old, of no manager, with a bad payload, or no new
one is discarded and counted. FAB fences or unfences the chip, or sets or clears the caps of the chips that the mask names,
unless the broadcast is older than the last of its row; while FAB is down it waits. A Clamp row write sets exactly its 64
chips, at once or when FAB returns. A throttle ends when its duration has passed. Another packet, an empty queue and an
expiry that is not due change nothing. Stated wherever nothing is left to carry out. -/
def Obligations.BroadcastsAndFencesAct : Prop :=
  ∀ (s : State),
    let still (c : Chip) : Prop := c = s.chip
    (∀ inp (p : Packet),
      let here := (s.chip.firstArrival? inp).filter fun a => a.pkt == p && !p.headerFails
      let both (P : Nat → Prop) (r : Chip → Prop) : Prop :=
        (P 0x50 → Completes (.fenceBroadcast inp p) s r) ∧ (P 0x51 → Completes (.throttleBroadcast inp p) s r)
      (s.serving → both (fun k => here = none ∨ p.kind.toNat ≠ k) still) ∧
      (∀ a, here = some a → s.leaves (fun c => c.broadcastArrives inp p p.kind.toNat) →
        let acts (r : Chip → Prop) : Prop := both (fun k => p.kind.toNat = k) fun c =>
          c.rt.arrivals = eraseFirst (fun x => x.id == a.id) s.chip.rt.arrivals ∧ c.mem = s.chip.mem ∧ r c
        let lost (k : Ctr) (c : Chip) : Prop := c.rt.waiting = s.chip.rt.waiting ∧ c.rt.pending = s.chip.rt.pending ∧
          c.rt.bcasts = s.chip.rt.bcasts ∧ getCounter ⟨inp, k⟩ c.ctr.events = getCounter ⟨inp, k⟩ (s.chip.bump inp k).ctr.events
        (s.chip.tooOld p = true → acts (fun c => lost .ageLimit c ∧ c.noted s.chip routerUnit 0x105)) ∧
        (s.chip.tooOld p = false →
          (s.chip.managerRow? p.src.toNat = none → acts (fun c => c.rt.waiting = s.chip.rt.waiting ∧
            c.rt.pending = s.chip.rt.pending ∧ c.dict.shimRejected = s.chip.dict.shimRejected + 1)) ∧
          (∀ row, s.chip.managerRow? p.src.toNat = some row →
            let rec' := Tab.get s.chip.rt.bcasts row BcastRec.init
            (p.bcastOk = false → acts (lost .bcastBad)) ∧
            (p.bcastOk = true → rec'.isNew p.bseq = false → acts (lost .bcastDuplicate)) ∧
            (p.bcastOk = true → rec'.isNew p.bseq = true →
              acts (fun c => Tab.get c.rt.bcasts row BcastRec.init = rec'.enter p.bseq ∧
                (s.chip.rt.pending.length < 256 → c.rt.pending = s.chip.rt.pending ++ [(row, p)]) ∧
                (256 ≤ s.chip.rt.pending.length → c.rt.pending = s.chip.rt.pending ∧ c.noted s.chip routerUnit 0x106) ∧
                (p.hops ≠ 8 → ∀ q ∈ s.chip.copyPorts inp p, (s.chip.role q ≠ 2 ∨ p.level ≠ 2 ∨ p.tc = 1) →
                  ∃ w ∈ c.rt.waiting, w.out = q ∧ w.id = a.id ∧ w.pkt = p ∧ w.copy = true))))))) ∧
    (s.serving → s.chip.rt.pending = [] ∨ s.chip.clusterUp 1 = false → Completes .broadcastApply s still) ∧
    (∀ row p r, s.leaves (fun c => c.broadcastApply) → s.chip.rt.pending = (row, p) :: r → s.chip.clusterUp 1 = true →
      (p.kind = 0x50 →
        let x := p.fenceChip
        let older := bseqOlder (Tab.get? s.chip.rt.remembered x) row p.bseq
        Completes .broadcastApply s fun c => c.rt.pending = r ∧ (∀ y, y ≠ x → c.fenced y = s.chip.fenced y) ∧
          c.fenced x = (if older then s.chip.fenced x else p.bcastOp == 1) ∧
          (older = false → Tab.get? c.rt.remembered x = some (row, p.bseq)) ∧ (older = true → c.rt.remembered = s.chip.rt.remembered)) ∧
      (p.kind = 0x51 → Completes .broadcastApply s fun c => c.rt.pending = r ∧ c.rt.fenced = s.chip.rt.fenced ∧
        (∀ x, x ∉ throttled p → c.dest x = s.chip.dest x) ∧
        ∀ x ∈ throttled p, c.dest x =
          let d := s.chip.dest x
          if bseqOlder d.capFrom row p.bseq then d
          else if p.bcastOp = 1 then { d with window := min d.window p.wcap, cap := some p.wcap, capFrom := some (row, p.bseq)
                                              capExpiry := if p.dur = 0 then none else some (s.chip.now + 1000 * p.dur) }
          else { d with cap := none, capExpiry := none, capFrom := some (row, p.bseq) })) ∧
    (∀ w row (v : Word), s.chip.mayWrite w (pnum 0x13 0x001 row) = true → row < 512 →
      (s.leaves (fun c => c.writeClamp row v.toNat) → s.chip.clusterUp 1 = true → Completes (.clampTableWrite w row v) s fun c =>
        .dictReply w 0 [] ∈ c.out ∧ (∀ i < 64, c.fenced (row * 64 + i) = v.getLsbD i) ∧
        (∀ x, x / 64 ≠ row → c.fenced x = s.chip.fenced x) ∧ ∀ i < 64, Tab.get? c.rt.remembered (row * 64 + i) = none) ∧
      (s.serving → s.chip.clusterUp 1 = false → Completes (.clampTableWrite w row v) s fun c =>
        c.rt.fenced = s.chip.rt.fenced ∧ c.rt.clampWrites = s.chip.rt.clampWrites ++ [(row, v.toNat)] ∧
        c.out = s.chip.out ++ [.dictReply w 0 []])) ∧
    (∀ (chip : Nat),
      let d? := Tab.get? s.chip.tr.dests chip
      let due := (d?.bind (·.capExpiry)).elim false fun t => decide (t ≤ s.chip.now)
      (s.serving → due = false → Completes (.throttleExpiry chip) s still) ∧
      (s.serving → due = true → ∀ d, d? = some d → Completes (.throttleExpiry chip) s fun c =>
        c.dest chip = { d with cap := none, capExpiry := none } ∧ (∀ x, x ≠ chip → c.dest x = s.chip.dest x) ∧
        c.tr.chans = s.chip.tr.chans ∧ c.mem = s.chip.mem))

/-! ### Links and lanes -/

/-- R365, R366, R368, R369, R371 to R377, R379 to R381, R386, R387: a data block that completes a packet has it examined:
one behind or ahead of E, one without room, or one that came bad, goes no further, is counted and asks for a NAK where R373
says so; a stomped one only advances E; the expected sound one advances E and enters the router core, or ends the packet
that cuts through. A bad link header loses the framing; 0x00 skips the block; incomplete bytes wait. An LCB that is due
leaves with the port's state; an arriving one is discarded and counted where R371 says so; else its credit, its XOFF map,
SOP, its ACK and its NAK act, the NAK by a replay once no packet is in progress. The replay timeout replays too. A
degradation window that ends begins the next count, counts the bad windows and, at the limit, asks for the action of
P19.013; a port narrow for P19.015 asks for both lanes. What is not due, and a port that is not Active, change nothing.
Stated wherever nothing is left to carry out but padding on a line. -/
def Obligations.LinksCarryAndReplay : Prop :=
  ∀ (s : State) (port : Nat),
    let up := s.chip.portActive port
    let link := s.chip.link port
    let n0 := s.chip.out.length
    let still (c : Chip) : Prop := c = s.chip
    let once (k : Ctr) (c : Chip) : Prop := getCounter ⟨port, k⟩ c.ctr.events = getCounter ⟨port, k⟩ (s.chip.bump port k).ctr.events
    let naks (c : Chip) : Prop := (c.link port).rx.nakSent = true ∧ (c.out.drop n0).any (fun o => match o with
      | .lcb q l => q == port && l.nakv && l.nakLsn == link.rx.expect
      | _ => false) = true
    let again (l : List Sent) (c : Chip) : Prop := ∀ x ∈ l, (c.out.drop n0).any (fun o => match o with
      | .packet q _ p _ => q == port && p == x.pkt
      | _ => false) = true
    (∀ blocks : List PortBlock,
      let raw := link.rx.stream ++ blocks.flatMap fun b => b.bytes.map fun x => (x, b.bad)
      let bytes := raw.map (·.1)
      let hdr := wordAt bytes 0
      let n := hdr.field 47 35
      let sound := !headerBad hdr && !(raw.take 8).any (·.2)
      let data := blocks.all fun b => !b.ctl && b.bytes.length == 32
      let comes (r : Chip → Prop) : Prop := Completes (.linkPacketReceive port blocks) s fun c => c.mem = s.chip.mem ∧ r c
      let none' (c : Chip) : Prop := c.rt.arrivals = s.chip.rt.arrivals
      (s.serving → up = false ∨ link.rx.lost = true ∨ blocks.all (·.ctl) = true → Completes (.linkPacketReceive port blocks) s still) ∧
      (s.leavesPadding (fun c => c.linkReceive port blocks) → up = true → link.rx.lost = false → data = true →
        (blocks.length = 1 → link.rx.stream.length < 8 → sound = false → bytes.headD 0 ≠ 0 →
          comes (fun c => none' c ∧ (c.link port).rx.lost = true ∧ (c.link port).rx.stream = [] ∧ once .headerError c ∧ once .framingLoss c ∧
            (link.rx.nakSent = false → naks c))) ∧
        (blocks.length = 1 → link.rx.stream = [] → bytes.headD 0 = 0 → comes (fun c => none' c ∧ (c.link port).rx = link.rx)) ∧
        (sound = true → raw.length < n → comes (fun c => none' c ∧ (c.link port).rx = { link.rx with stream := raw })) ∧
        (sound = true → link.rx.stream.length < n → n ≤ raw.length → raw.length < n + 32 → (bytes.drop n).headD 0 = 0 →
          let p := Packet.ofBytes ((bytes.take (n - 4)).drop 8) (n == 64)
          let crc := BitVec.ofNat 32 (natBE ((bytes.take n).drop (n - 4)))
          let right := crc32c (bytes.take (n - 4))
          let marred := (raw.take n).any (·.2)
          let pool := hdr.getLsbD 34
          let d := (headerLsn hdr - link.rx.expect).toNat
          let room := link.rx.room p.vc.toNat p.len.toNat pool
          let kept (c : Chip) : Prop := none' c ∧ (c.link port).rx.expect = link.rx.expect
          let onward (c : Chip) : Prop := (c.link port).rx.expect = link.rx.expect + 1 ∧ (c.link port).rx.accepted = true ∧
            (c.link port).rx.nakSent = false ∧ (c.link port).rx.stream = []
          (2048 ≤ d → comes (fun c => none' c ∧ (c.link port).rx = { link.rx with stream := [] } ∧ once .duplicate c)) ∧
          (d ≠ 0 → d < 2048 → comes (fun c => kept c ∧ once .outOfSequence c ∧ (link.rx.nakSent = false → naks c))) ∧
          (d = 0 → room = false → comes (fun c => kept c ∧ naks c ∧ once (if pool then .poolOverrun else .reserveOverrun) c ∧ c.noted s.chip port 0x105)) ∧
          (d = 0 → room = true → marred = true ∨ (crc ≠ right ∧ crc ≠ ~~~right) → comes (fun c => kept c ∧ naks c)) ∧
          (d = 0 → room = true → marred = false → crc = ~~~right → comes (fun c => none' c ∧ onward c ∧ once .stomp c)) ∧
          (d = 0 → room = true → marred = false → crc = right →
            (link.rx.dropped = true → comes (fun c => none' c ∧ onward c ∧ once .accepted c ∧ (c.link port).rx.dropped = false)) ∧
            (link.rx.dropped = false → p.isShim ≠ (n == 64) →
              comes (fun c => none' c ∧ onward c ∧ once .accepted c ∧ once .malformed c ∧ c.noted s.chip routerUnit 0x100)) ∧
            (link.rx.dropped = false → p.isShim = (n == 64) →
              (s.chip.inProgress port = [] → comes (fun c => onward c ∧ once .accepted c ∧
                c.rt.arrivals = s.chip.rt.arrivals ++ [{ inp := port, pkt := p, pool := pool, id := s.chip.rt.nextId }])) ∧
              (∀ w : Waiting, s.chip.inProgress port = [w] → p.cells = w.pkt.len.toNat →
                let q := { s.chip.leavingForm w with payload := p.payload, check := p.check }
                (w.started = false → comes (fun c => none' c ∧ onward c ∧ once .accepted c ∧
                  c.rt.waiting = mapIf (fun x => x.id == w.id) (fun x =>
                    { x with whole := true, pool := pool, pkt := { x.pkt with payload := p.payload, check := p.check } }) s.chip.rt.waiting)) ∧
                (w.started = true → 60 ≤ w.out → comes (fun c => none' c ∧ onward c ∧ c.tr.arrivals = s.chip.tr.arrivals ++ [q])) ∧
                (w.started = true → w.out < 60 → (s.chip.link w.out).tx.inPacket = true → comes (fun c => none' c ∧ onward c ∧
                  (c.out.drop n0).any (fun o => match o with
                    | .packet r _ x _ => r == w.out && x == q
                    | _ => false) = true)))))))) ∧
    (s.serving →
      (up = false ∨ s.chip.now < link.tx.lcbNext → Completes (.lcbSend port) s still) ∧
      (up = true → link.tx.lcbNext ≤ s.chip.now → Completes (.lcbSend port) s fun c =>
        (c.link port).rx = { link.rx with nakDue := false } ∧ (c.link port).tx.cgrp = (link.tx.cgrp + 1) % 3 ∧
        (c.link port).tx.lcbNext = s.chip.now + s.chip.param 0x19 0x004 0 ∧ (c.link port).tx.replay = link.tx.replay ∧
        .lcb port (s.chip.stampLcb (s.chip.buildLcb port)) ∈ c.out.drop n0 ∧ c.mem = s.chip.mem)) ∧
    (∀ h : LcbHalves,
      (s.serving → up = false → Completes (.lcbReceive port h) s still) ∧
      (s.serving → up = true → h.discarded = true → Completes (.lcbReceive port h) s fun c => c = s.chip.bump port .lcbError) ∧
      (up = true → h.discarded = false →
        let l := h.lcb
        let d := link.tx.distance l.ackLsn
        let left := if l.ackv && decide (d < link.tx.replay.length) then link.tx.replay.drop (d + 1) else link.tx.replay
        let n := TxSide.distance { link.tx with replay := left } l.nakLsn
        let acts (r : Chip → Prop) : Prop := Completes (.lcbReceive port h) s fun c => r c ∧ c.mem = s.chip.mem ∧
          (c.link port).tx.xoff = l.xoff ∧ (c.link port).rx.lost = (link.rx.lost && !l.sop) ∧
          (c.link port).tx.freedRes = (if 3 ≤ l.cgrp.toNat then link.tx.freedRes else (link.tx.takeCredits l).freedRes) ∧
          (4 ≤ l.kind.toNat → once .unknownItem c) ∧ (3 ≤ l.cgrp.toNat → once .lcbError c)
        (s.serving → l.nakv = false → acts (fun c => (c.link port).tx.replay = left ∧ c.out = s.chip.out)) ∧
        (s.serving → l.nakv = true → left.length ≤ n → acts (fun c => (c.link port).tx.replay = (if n = left.length then [] else left) ∧
          c.out = s.chip.out ∧ once .nakReceived c)) ∧
        (s.leavesPadding (fun c => c.lcbReceive port h) → l.nakv = true → n < left.length → acts (fun c => (c.link port).tx.replay = left.drop n ∧ once .nakReceived c ∧
          (c.link port).windowNaks = link.windowNaks + 1 ∧ (c.link port).tx.replayDue = ((left.drop n).any (·.sending)) ∧
          ((left.drop n).any (·.sending) = false → again (left.drop n) c))))) ∧
    (let late := up && !link.tx.replay.isEmpty && decide (link.tx.lastAdvance + s.chip.param 0x19 0x005 0 ≤ s.chip.now)
     (s.serving → late = false → Completes (.replayTimeout port) s still) ∧
     (s.leavesPadding (fun c => c.replayTimeout port) → late = true → Completes (.replayTimeout port) s fun c =>
        (c.link port).tx.replay = link.tx.replay ∧ (c.link port).tx.lastAdvance = s.chip.now ∧ c.mem = s.chip.mem ∧
        (c.link port).tx.replayDue = link.tx.inPacket ∧ (link.tx.inPacket = false → again link.tx.replay c ∧
          (c.link port).tx.replays = link.tx.replays + 1))) ∧
    (let shut := up && decide (link.windowAt + 1000 * s.chip.param 0x19 0x011 0 ≤ s.chip.now)
     let passed := decide (s.chip.param 0x19 0x010 0 < link.windowNaks)
     let run := if passed then link.badWindows + 1 else 0
     let limit := decide (s.chip.param 0x19 0x012 0 ≤ run) && s.chip.fabUp
     let quick := passed && link.watching && s.chip.fabUp
     let t := s.chip.tport port
     let acts (r : Chip → Prop) : Prop := Completes (.degradationWindow port) s fun c => (c.link port).windowNaks = 0 ∧
       (c.link port).windowAt = s.chip.now ∧ (c.link port).badWindows = (if limit then 0 else run) ∧ (c.link port).watching = false ∧
       c.mem = s.chip.mem ∧ (passed = true → c.noted s.chip port 0x102) ∧ r c
     (s.serving → shut = false → Completes (.degradationWindow port) s still) ∧
     (s.leaves (fun c => c.degradationWindow port) → shut = true →
       (limit = false ∨ s.chip.param 0x19 0x013 port = 0 → quick = false → acts (fun c => c.train = s.chip.train)) ∧
       (quick = true → t.hs = Handshake.init → t.lanes ≠ 3 - 2 ^ link.badLane →
         acts (fun c => (c.tport port).hs.own = some 1 ∧ (c.tport port).hs.lanes = 3 - 2 ^ link.badLane)) ∧
       (limit = true → quick = false → t.hs.own ≠ some 5 → 2 ≤ s.chip.param 0x19 0x013 port ∨
           (s.chip.param 0x19 0x013 port = 1 ∧ (t.lanes ≠ 3 ∨ worstLane link.badWords = none)) →
         acts (fun c => (c.tport port).hs.own = some 5 ∧ (c.tport port).hs.reason = 10)) ∧
       (∀ l, limit = true → quick = false → t.hs = Handshake.init → s.chip.param 0x19 0x013 port = 1 → t.lanes = 3 →
         worstLane link.badWords = some l → acts (fun c => (c.tport port).hs.own = some 1 ∧ (c.tport port).hs.lanes = 3 - 2 ^ l)))) ∧
    (s.serving →
      let limit := s.chip.param 0x19 0x015 0
      let h := (s.chip.tport port).hs
      let ready := link.narrowedAt.elim false (fun a => decide (limit ≠ 0) && decide (a + 1000000000 * limit ≤ s.chip.now)) && s.chip.fabUp &&
        up && h.own.isNone && h.switchAt.isNone && h.idleStage == 0 && (s.chip.tport port).lanes != 3
      (ready = false → Completes (.restoreInterval port) s still) ∧
      (ready = true → Completes (.restoreInterval port) s fun c => (c.tport port).hs.own = some 1 ∧ (c.tport port).hs.lanes = 3 ∧
        (c.tport port).lanes = (s.chip.tport port).lanes ∧ c.mem = s.chip.mem))

/-- R411, R416 to R421, R423, R424, R429: a codeword on a lane with marker lock counts its errors, or that it could not be
corrected, and its blocks of reserved types; its blocks go on, slot by slot where the port runs at x2, and its fill sets the
elastic buffer, an overflow or underflow to 16 with the macro's source; the third marker missed in a row ends marker lock.
Tested headers make the lane's lock state: a port that waits in Detect enters Pattern at block lock, and Pattern goes on to
Lock. A second marker in place, within 80 ns of the other lane and with precoding alike at rate 2, locks the lane. A lock
lost where the port uses the lane takes the port to Detect with reason 7, elsewhere it changes the lane only. A slip moves
the phase where hunting is manual, else it is refused. The checker gains SYNC at 1,024 matching bits and loses it at more
than 256 errors in 4,096; where a longer span leaves that open, either. A lane that is absent, without the lock needed, or
not checking changes nothing. Stated wherever nothing is left to carry out. -/
def Obligations.LanesLockAndCount : Prop :=
  ∀ (s : State) (n : Nat),
    let here := s.chip.hasLane n
    let port := n / 2
    let lane := s.chip.lane n
    let t := s.chip.tport port
    let still (c : Chip) : Prop := c = s.chip
    let became (x : Lane) (c : Chip) : Prop := c.lane n = x ∧ c.train = s.chip.train ∧ c.mem = s.chip.mem
    let uses := bitOf t.lanes (n % 2) && (t.state == .equalise || t.state == .capabilities || t.state == .held || t.state == .active)
    let down (c : Chip) : Prop := (c.tport port).state = .detect ∧ (c.tport port).reason = 7 ∧ (c.tport port).attempts = min 255 (t.attempts + 1)
    let sits := !s.chip.fabUp || t.state == .disabled || t.state == .detect || t.state == .capabilities || t.state == .held
    let setsOff (u : Chip) (c : Chip) : Prop :=
      if t.found ≠ 0 ∧ t.found &&& t.pmark = t.found ∧ t.found &&& u.blockLanes port = t.found
      then (c.tport port).state = .lock ∧ (c.lane n).blockLock = (u.lane n).blockLock ∧ (c.lane n).markerLock = (u.lane n).markerLock else c.tport port = t ∧ c.lane n = u.lane n
    (∀ errors (blocks : List LaneBlock) (fill : Int),
      (s.serving → here = false ∨ lane.markerLock = false → Completes (.codewordDecode n errors blocks fill) s still) ∧
      (s.leaves (fun c => c.laneCodeword n errors blocks fill) → here = true → lane.markerLock = true →
        let read := readBlocks (!bitOf t.pmark (n % 2)) (decide (14 < errors)) lane.rxScramble blocks
        let fits := elastic fill (read.1.any fun b => b.isType 0x2D)
        let taken := if fits.isNone then read.1.map fun b => { b with bad := true } else read.1
        let miss := lane.misses taken
        let both := t.state == .active && t.lanes == 3
        let counted (k : Ctr) (m : Nat) (c : Chip) : Prop :=
          getCounter ⟨macroOf n, k⟩ c.ctr.events = getCounter ⟨macroOf n, k⟩ (s.chip.bump (macroOf n) k m).ctr.events
        let acts (r : Chip → Prop) : Prop := Completes (.codewordDecode n errors blocks fill) s r
        acts (fun c => (errors ≤ 14 → counted (.fecCorrected (n % 4)) errors c ∧
            counted (.unknownControl (n % 4)) (read.1.filter PortBlock.reserved).length c) ∧
          (14 < errors → counted (.fecUncorrectable (n % 4)) 1 c ∧ c.noted s.chip (macroOf n) 0x100) ∧
          (fits = none → c.noted s.chip (macroOf n) 0x101)) ∧
        (miss < 3 → acts (fun c => c.train = s.chip.train ∧ c.mem = s.chip.mem ∧ (c.lane n).markerLock = true ∧
          (c.lane n).markerMiss = miss ∧ (c.lane n).rxScramble = read.2 ∧ (c.lane n).fill = fits.getD 16)) ∧
        (miss < 3 → both = false → lane.rxQueue = [] → taken.filter PortBlock.goesOn ≠ [] →
          acts (fun c => .received port (taken.filter PortBlock.goesOn) ∈ c.out.drop s.chip.out.length ∧ (c.lane n).rxQueue = [])) ∧
        (miss < 3 → both = true → acts (fun c =>
          (c.lane n).rxQueue = unpaired (lane.takeBlocks taken).rxQueue (s.chip.lane (otherLane n)).rxQueue)) ∧
        (3 ≤ miss → acts (fun c => (c.lane n).markerLock = false ∧ ((lane.locked && uses) = true → down c))))) ∧
    (∀ headers : List Bool,
      let next := headers.foldl (Lane.testHeader (s.chip.param 0x18 0x025 n == 1)) lane
      let enters := !lane.blockLock && next.blockLock && t.state == .detect && t.waiting && s.chip.fabUp
      let loses := lane.locked && !next.locked
      let u := s.chip.updLane n fun _ => next
      let acts (r : Chip → Prop) : Prop := Completes (.blockLock n headers) s r
      (s.serving → here = false → acts still) ∧
      (s.leaves (fun c => c.blockLock n headers) → here = true →
        (enters = true → acts (fun c => (c.tport port).state = .pattern ∧ (c.tport port).found = t.found ||| 2 ^ (n % 2) ∧
          (c.tport port).waiting = false ∧ c.mem = s.chip.mem)) ∧
        (enters = false → loses = true → uses = true → acts down) ∧
        (enters = false → loses = true → uses = false → acts (became next)) ∧
        (enters = false → loses = false → sits = true → acts (became next)) ∧
        (enters = false → loses = false → sits = false → t.state = .pattern → acts (fun c => setsOff u c ∧ c.mem = s.chip.mem)) ∧
        (enters = false → loses = false → sits = false → t.state ≠ .pattern → acts (fun c => c = (s.chip.testHeaders n headers).trainEval port)))) ∧
    (∀ m : MarkerInfo,
      let gains : Lane := { lane with markerLock := true, markerMiss := 0, rxSlot := 4, rxPcount := m.pcount, rxLpos := m.lpos % 2, rxScramble := m.tail.toNat, rxQueue := [] }
      let other := otherLane n
      let may := here && lane.blockLock && !((s.chip.lane other).markerLock && decide (80000 < m.skew)) &&
        (lane.rate != 2 || lane.precode == m.precoded)
      let u := (s.chip.updLane n fun _ => gains).updLane other fun x => { x with rxQueue := [] }
      let acts (r : Chip → Prop) : Prop := Completes (.markerLock n m) s r
      (s.serving → may = false → acts still) ∧
      (s.serving → may = true →
        (sits = true → acts (fun c => became gains c ∧ (c.lane other).rxQueue = [])) ∧
        (sits = false → t.state = .pattern → acts (fun c => setsOff u c ∧ c.mem = s.chip.mem)) ∧
        (sits = false → t.state = .lock → t.switched = false →
          (u.chosenLanes port = none → acts (became gains)) ∧
          (∀ l, u.chosenLanes port = some l →
            (u.agreedRate port = 0 → acts (fun c => (c.tport port).state = .equalise ∧ (c.tport port).lanes = l ∧ c.mem = s.chip.mem)) ∧
            (u.agreedRate port ≠ 0 → acts (fun c => (c.tport port).state = .lock ∧ (c.tport port).lanes = l ∧ (c.tport port).switched = true ∧
              (c.tport port).rate = u.agreedRate port ∧ c.mem = s.chip.mem)))) ∧
        (sits = false → t.state = .lock → t.switched = true → acts (fun c => c.mem = s.chip.mem ∧
          if t.lanes &&& u.bothWays port = t.lanes then (c.tport port).state = .equalise else c.train = s.chip.train)) ∧
        (sits = false → t.state = .equalise ∨ t.state = .active → acts (fun c => c.mem = s.chip.mem ∧ (t.hs.idleStage ≠ 1 → (c.lane n).markerLock = true))))) ∧
    (∀ k : LockKind,
      let acts (r : Chip → Prop) : Prop := Completes (.lockLoss n k) s r
      (s.serving → here = false → acts still) ∧
      (s.serving → here = true → (lane.locked && uses) = false → acts (became (lane.lose k))) ∧
      (s.leaves (fun c => c.lockLoss n k) → here = true → (lane.locked && uses) = true → acts down)) ∧
    (∀ w k, s.chip.mayWrite w (pnum 0x18 0x026 n) = true → n < 120 →
      let manual := s.chip.param 0x18 0x025 n == 1
      (s.serving → 1 ≤ k → k < 5440 → manual = true → Completes (.bitSlip w n k) s fun c => .dictReply w 0 [] ∈ c.out ∧
        became { lane with phase := (lane.phase + k) % 5440, runHeaders := 0 } c) ∧
      (s.serving → k < 65536 → k = 0 ∨ 5440 ≤ k ∨ manual = false → Completes (.bitSlip w n k) s fun c => c = { s.chip with out := s.chip.out ++ [.dictReply w 7 []] })) ∧
    (s.serving →
      let checks := s.chip.checking n
      (∀ bits, let acts (r : Chip → Prop) : Prop := Completes (.checkerSync n bits) s r
        (checks = false → acts still) ∧
        (checks = true → lane.chkSync = true → acts (became { lane.compared bits 0 with chkRecent := ((bits, 0) :: lane.chkRecent).take 64 })) ∧
        (checks = true → lane.chkSync = false → lane.chkRun + bits < 1024 → acts (became { lane with chkRun := lane.chkRun + bits })) ∧
        (checks = true → lane.chkSync = false → 1024 ≤ lane.chkRun + bits → acts (became
          (Lane.compared { lane with chkSync := true, chkRun := 0 } (lane.chkRun + bits - 1024) 0)))) ∧
      (∀ bits errors, let acts (r : Chip → Prop) : Prop := Completes (.checkerSyncLoss n bits errors) s r
        let y := lane.compared bits errors
        let sure := decide (256 < recentErrors 4096 ((bits, errors) :: lane.chkRecent)) || (decide (4096 < bits) && decide (256 * divUp bits 4096 < errors))
        let free := decide (4096 < bits) && decide (256 < errors) && !sure
        let lost : Lane := { y with chkSync := false, chkRun := 0, chkRecent := [] }
        let kept : Lane := { y with chkRecent := ((bits, errors) :: lane.chkRecent).take 64 }
        (checks = false → acts still) ∧
        (errors = 0 → Completes (.checkerSyncLoss n bits errors) s fun c => Completes (.checkerSync n bits) s fun d => c = d) ∧
        (checks = true → errors ≠ 0 → lane.chkSync = false → acts (became { lane with chkRun := 0 })) ∧
        (checks = true → errors ≠ 0 → lane.chkSync = true → sure = true → acts (became lost)) ∧
        (checks = true → errors ≠ 0 → lane.chkSync = true → sure = false → free = false → acts (became kept)) ∧
        (checks = true → errors ≠ 0 → lane.chkSync = true → free = true → acts (fun c => became lost c ∨ became kept c))))

/-! ### Link training and width changes -/

/-- R392 to R400: a port that finds receivers in Detect enters Pattern with the rates and widths of this training and sends
its blocks. A pattern block on a lane in training corrects polarity and lane order and is taken up; requests are applied and
answered, responses let the receiver make its next request or be satisfied, and after each the port goes on exactly where
R395 and R404 let it. A Capabilities block that fails R75 or the role check holds the port with its reason; one that passes
makes it Active where it passes at both ends, and leads a held port to Capabilities again. A state that lasts too long
returns to Detect with its reason, Lock goes on with the one lane that is locked both ways where both ends allow x1, and the
training of an idle lane fails; the wait after eight attempts ends; 500 ms without Active mark the port as reported down.
Blocks of unknown types count; others that do not belong to the state, and what is not due, change nothing. Stated wherever
nothing is left to carry out. -/
def Obligations.PortsTrainByStates : Prop :=
  ∀ (s : State) (port : Nat),
    let t := s.chip.tport port
    let n0 := s.chip.out.length
    let still (c : Chip) : Prop := c = s.chip
    let sends (l k : Nat) (body : List Byte) (c : Chip) : Prop := (c.out.drop n0).any (fun o => match o with
      | .train p q b => p == port && q == l && b.tbtype == k && b.body == body
      | _ => false) = true
    let moves (u c : Chip) : Prop :=
      let x := u.tport port
      let y := c.tport port
      let m := x.idleLanes
      c.mem = s.chip.mem ∧
      if u.fabUp = false then y = x
      else if x.state = .pattern then
        if x.found ≠ 0 ∧ x.found &&& x.pmark = x.found ∧ x.found &&& u.blockLanes port = x.found
        then y = { x with state := .lock, since := s.chip.now } else y = x
      else if x.state = .lock then
        if x.switched = true then (if x.lanes &&& u.bothWays port = x.lanes then y.state = .equalise else y = x)
        else (u.chosenLanes port = none → y = x) ∧ ∀ l, u.chosenLanes port = some l → y.lanes = l ∧
          if u.agreedRate port = 0 then y.state = .equalise else y.state = .lock ∧ y.switched = true ∧ y.rate = u.agreedRate port
      else if x.state = .equalise then
        if x.lanes &&& x.eqOwn = x.lanes ∧ x.lanes &&& x.eqPeer = x.lanes then y.state = .capabilities else y = x
      else if x.state = .active then
        if x.hs.switchAt.isSome = true ∧ x.hs.leading = false ∧ x.lanes &&& u.lockedLanes port = x.lanes then y.hs.switchAt = none
        else if x.hs.idleStage = 1 then (if m &&& x.pmark = m ∧ m &&& u.blockLanes port = m then y.hs.idleStage = 2 else y = x)
        else if x.hs.idleStage = 2 then (if m &&& u.bothWays port = m then y.hs.idleStage = 3 else y = x)
        else if x.hs.idleStage = 3 then
          if x.hs.leading = true ∧ m &&& x.eqOwn = m ∧ m &&& x.eqPeer = m then y.hs.idleStage = 0 else y = x
        else y = x
      else y = x
    (∀ found,
      let f := found % 4
      let open' := s.chip.hasPort port && t.state == .detect && !t.waiting && s.chip.fabUp && !s.chip.portStopped port
      let goes := f == 3 || (f != 0 && bitOf (s.chip.widthsOf port) 0)
      (s.serving → open' = false → Completes (.receiverDetect port found) s still) ∧
      (s.serving → open' = true → goes = true → Completes (.receiverDetect port found) s fun c => c.mem = s.chip.mem ∧
        (let x := c.tport port
         x.state = .pattern ∧ x.found = f ∧ x.pmark = 0 ∧ x.since = s.chip.now ∧ x.rates = s.chip.ratesOf port ∧
          x.widths = s.chip.widthsOf port ∧ x.target = highestRate (s.chip.ratesOf port) 2 - t.lowered) ∧
        ∀ l < 2, bitOf f l = true → sends l 1 (s.chip.patternBody port) c) ∧
      (s.serving → open' = true → goes = false → Completes (.receiverDetect port found) s fun c =>
        c.tport port = { t with since := s.chip.now } ∧ c.mem = s.chip.mem)) ∧
    (∀ l (b : TrainBlock),
      let lane := s.chip.lane (laneOf port l)
      let known (x : TrainBlock) := decide (1 ≤ x.tbtype) && decide (x.tbtype ≤ 4)
      let common (x : Port) (b : TrainBlock) : Port := { x with lockedRx := if b.locked then x.lockedRx ||| 2 ^ l else x.lockedRx &&& (3 - 2 ^ l), eqPeer := if b.eqdone then x.eqPeer ||| 2 ^ l else x.eqPeer &&& (3 - 2 ^ l), peerRates := b.rates, peerWidths := b.widths, peerTarget := b.target }
      let trains := t.trains l
      let asks := s.chip.equalising port
      let met := s.chip.updPortT port fun x => common x b
      (s.serving → trains = false → Completes (.patternBlock port l b) s still ∧ Completes (.equalisationRequest port l b) s still ∧
        Completes (.equalisationResponse port l b) s still) ∧
      (s.serving → trains = true →
        let inverted := (t.state == .pattern || t.hs.idleStage == 1) && b.pmark == 0x5A3C && !lane.polInv
        let d := if inverted then b.flip else b
        let fits := d.pmark == 0xA5C3 && d.tbtype == 1
        (known d = false → Completes (.patternBlock port l b) s fun c => c = s.chip.bump port .trainUnknown) ∧
        (known d = true → fits = false → Completes (.patternBlock port l b) s still) ∧
        (fits = true → Completes (.patternBlock port l b) s fun c => moves ((s.chip.updLane (laneOf port l) fun x => { x with polInv := x.polInv || inverted }).updPortT port fun x =>
            common { x with pmark := x.pmark ||| 2 ^ l, inv := if inverted then x.inv ||| 2 ^ l else x.inv, rev := if l = 0 ∧ x.state = .pattern then bitOf d.lpos 7 else x.rev, peerSerial := BitVec.ofNat 64 (d.number 9 8), peerPort := d.byte 17 % 64 } d) c)) ∧
      (s.serving → trains = true → known b = false → Completes (.equalisationRequest port l b) s (fun c => c = s.chip.bump port .trainUnknown) ∧
        Completes (.equalisationResponse port l b) s fun c => c = s.chip.bump port .trainUnknown) ∧
      (s.serving → trains = true → known b = true →
        (b.tbtype ≠ 2 → Completes (.equalisationRequest port l b) s still) ∧ (b.tbtype ≠ 3 → Completes (.equalisationResponse port l b) s still)) ∧
      (s.serving → trains = true → b.tbtype = 2 →
        (asks = false → Completes (.equalisationRequest port l b) s fun c => c.tport port = common t b ∧ c.lanes = s.chip.lanes ∧ c.mem = s.chip.mem) ∧
        (asks = true → Completes (.equalisationRequest port l b) s fun c => sends l 3 (lane.takeRequest b.body).response c ∧
          (c.lane (laneOf port l)).rseq = (lane.takeRequest b.body).rseq ∧ (c.lane (laneOf port l)).coeffs = (lane.takeRequest b.body).coeffs ∧ moves met c)) ∧
      (s.serving → trains = true → b.tbtype = 3 →
        let wanted := asks && !bitOf t.eqOwn l && b.byte 9 == lane.ownRseq
        (wanted = false → Completes (.equalisationResponse port l b) s fun c => moves met c) ∧
        (wanted = true → Completes (.equalisationResponse port l b) s fun c => moves (met.updPortT port fun x => { x with eqOwn := x.eqOwn ||| 2 ^ l }) c ∨
          (moves met c ∧ (c.lane (laneOf port l)).ownRseq = (lane.ownRseq + 1) % 256)))) ∧
    (∀ (b : TrainBlock) passed,
      let waits := t.state == .capabilities || t.state == .held
      let known := decide (1 ≤ b.tbtype) && decide (b.tbtype ≤ 4)
      (s.serving → waits = false ∨ (known = true ∧ (b.tbtype ≠ 4 ∨ s.chip.fabUp = false)) → Completes (.capabilitiesBlock port b passed) s still) ∧
      (s.serving → waits = true → known = false → Completes (.capabilitiesBlock port b passed) s fun c => c = s.chip.bump port .trainUnknown) ∧
      (s.leaves (fun c => c.capabilities port b passed) → waits = true → b.tbtype = 4 → s.chip.fabUp = true →
        let takes := s.chip.cablingOk port b
        let agrees := s.chip.roleOk port b
        let holds (r : Nat) (c : Chip) : Prop := (c.tport port).state = .held ∧ (c.tport port).reason = r ∧ c.mem = s.chip.mem
        let learns (k : PState) (c : Chip) : Prop := (c.tport port).state = k ∧ (c.tport port).learnt = b.learnt ∧
          (c.tport port).jigPeer = bitOf (b.byte 13) 0 ∧ (c.tport port).cabling = false ∧ (c.tport port).roleBad = false ∧ c.mem = s.chip.mem
        (takes = false → Completes (.capabilitiesBlock port b passed) s fun c => holds 5 c ∧ (c.tport port).cabling = true) ∧
        (takes = true → agrees = false → Completes (.capabilitiesBlock port b passed) s fun c => holds 6 c ∧ (c.tport port).roleBad = true) ∧
        (takes = true → agrees = true → t.state = .held → Completes (.capabilitiesBlock port b passed) s (learns .capabilities)) ∧
        (takes = true → agrees = true → t.state = .capabilities → passed = false → Completes (.capabilitiesBlock port b passed) s fun c => learns .capabilities c ∧
          (c.tport port).since = s.chip.now) ∧
        (takes = true → agrees = true → t.state = .capabilities → passed = true → Completes (.capabilitiesBlock port b passed) s fun c =>
          learns .active c ∧ (c.tport port).attempts = 0 ∧ (c.link port).tx.replay = [] ∧ (c.link port).rx.expect = 0))) ∧
    (let late := decide (t.since + t.state.limit ≤ s.chip.now)
     let one := s.chip.bothWays port
     let alone := (one == 1 || one == 2) && s.chip.bothAllow port 0 && s.chip.fabUp
     let idle := t.hs.idleStage != 0 && decide (t.hs.idleSince + idleLimit t.hs.idleStage ≤ s.chip.now)
     let fails (r : Nat) (c : Chip) : Prop := (c.tport port).state = .detect ∧ (c.tport port).reason = r ∧
       (c.tport port).attempts = min 255 (t.attempts + 1) ∧ (c.tport port).waiting = decide (8 ≤ min 255 (t.attempts + 1)) ∧ c.mem = s.chip.mem
     (s.serving → (t.state = .active ∧ idle = false) ∨ (t.state ≠ .active ∧ late = false) ∨ t.state = .disabled ∨ t.state = .detect ∨ t.state = .held →
       Completes (.trainingTimeout port) s still) ∧
     (s.serving → late = true →
       (t.state = .pattern → Completes (.trainingTimeout port) s (fails 1)) ∧
       (t.state = .lock → alone = false → Completes (.trainingTimeout port) s (fails 2)) ∧
       (t.state = .lock → alone = true → Completes (.trainingTimeout port) s fun c => (c.tport port).lanes = one ∧ c.mem = s.chip.mem ∧
         if t.switched = true ∨ s.chip.agreedRate port = 0 then (c.tport port).state = .equalise
         else (c.tport port).switched = true ∧ (c.tport port).rate = s.chip.agreedRate port ∧ (c.tport port).state = .lock) ∧
       (t.state = .equalise → Completes (.trainingTimeout port) s (fails 3)) ∧
       (t.state = .capabilities → Completes (.trainingTimeout port) s (fails 4))) ∧
     (s.serving → t.state = .active → idle = true → Completes (.trainingTimeout port) s fun c =>
       c.tport port = { t with hs := { Handshake.init with tseq := t.hs.tseq } } ∧ c.mem = s.chip.mem ∧
       (c.link port).narrowedAt = (s.chip.link port).narrowedAt.map fun _ => s.chip.now)) ∧
    (let ends := t.state == .detect && t.waiting && decide (t.since + 1000000000 ≤ s.chip.now)
     (s.serving → ends = false → Completes (.attemptWaitEnd port) s still) ∧
     (s.serving → ends = true → Completes (.attemptWaitEnd port) s fun c => c.tport port = { t with waiting := false } ∧ c.mem = s.chip.mem)) ∧
    (let gone := t.leftAt.elim false (fun a => decide (a + 500000000 ≤ s.chip.now)) && t.everActive && !t.downSent && t.state != .active
     (s.serving → gone = false → Completes (.retrainEventTimeout port) s still) ∧
     (s.leaves (fun c => c.retrainEventTimeout port) → gone = true → Completes (.retrainEventTimeout port) s fun c =>
       c.tport port = { t with downSent := true } ∧ c.mem = s.chip.mem))

/-- R390, R402 to R407: at an Active port a command of P18.004 asks the peer for a retrain, or for a width that the port
does not have, where no handshake runs; where one runs or the width is there, only the answer is given; elsewhere it is
refused with 0x07. A WREQ that does not lose to the own request ends that request and is refused, or granted with the switch
to follow, and a widening trains the idle lane at both ends. A WGRANT of the own request, and a WSWITCH of a granted change,
are answered by a WSWITCH in two LCBs once no packet is in progress, and the width changes; a WREFUSE ends the request. RREQ
is acknowledged and takes the port to Detect, as a RACK and a retrain request without an answer do. A width request without
an answer is repeated, the tenth time the port retrains, as it does where lanes do not lock again after a switch. Messages
of other handshakes, what is not due, and a port that is not Active change nothing. Stated wherever nothing is left to carry
out. -/
def Obligations.WidthChangesAndRetrains : Prop :=
  ∀ (s : State) (port : Nat),
    let t := s.chip.tport port
    let up := s.chip.portActive port
    let n0 := s.chip.out.length
    let link := s.chip.link port
    let still (c : Chip) : Prop := c = s.chip
    let keeps (c : Chip) : Prop := c.mem = s.chip.mem ∧ (c.tport port).state = .active
    let asked (lanes : Nat) (c : Chip) : Prop := keeps c ∧ (c.tport port).lanes = t.lanes ∧
      (c.tport port).hs.own = some 1 ∧ (c.tport port).hs.lanes = lanes ∧ (c.tport port).hs.tseq = (t.hs.tseq + 1) % 256
    let retrains (r : Nat) (c : Chip) : Prop := keeps c ∧ (c.tport port).lanes = t.lanes ∧ (c.tport port).hs.own = some 5 ∧
      (c.tport port).hs.reason = r ∧ (c.tport port).hs.tseq = (t.hs.tseq + 1) % 256
    let detects (r : Nat) (c : Chip) : Prop := (c.tport port).state = .detect ∧ (c.tport port).reason = r
    let queued (msg : Nat) (m : WidthMsg) (c : Chip) : Prop := (c.link port).tx.items = link.tx.items ++ [(3, widthItem msg m.tseq m.chip m.port 0)]
    let lcbs (msg : Nat) (c : Chip) : Prop := (c.out.drop n0).any (fun o => match o with
      | .lcb p l => p == port && l.kind == 3 && l.item.headD 0 == BitVec.ofNat 8 msg
      | _ => false) = true
    (∀ w, s.serving → s.chip.mayWrite w (pnum 0x18 0x004 port) = true →
      let free := t.hs.own.isNone && t.hs.switchAt.isNone && t.hs.idleStage == 0
      let answered (c : Chip) : Prop := c.out = s.chip.out ++ [.dictReply w 0 []]
      let idle (c : Chip) : Prop := answered c ∧ c.tport port = t ∧ c.mem = s.chip.mem
      let refused (c : Chip) : Prop := c = { s.chip with out := s.chip.out ++ [.dictReply w 7 []] }
      (up = false → Completes (.portRetrain w port) s refused ∧ Completes (.portNarrowLpos0 w port) s refused ∧
        Completes (.portNarrowLpos1 w port) s refused ∧ Completes (.portWiden w port) s refused) ∧
      (up = true → t.hs.own ≠ some 5 → Completes (.portRetrain w port) s fun c => answered c ∧ retrains 9 c) ∧
      (up = true → t.hs.own = some 5 → Completes (.portRetrain w port) s idle) ∧
      (up = true → free = true → t.lanes = 3 → Completes (.portNarrowLpos0 w port) s (fun c => answered c ∧ asked 1 c) ∧
        Completes (.portNarrowLpos1 w port) s (fun c => answered c ∧ asked 2 c) ∧ Completes (.portWiden w port) s idle) ∧
      (up = true → free = true → t.lanes ≠ 3 → Completes (.portNarrowLpos0 w port) s idle ∧
        Completes (.portNarrowLpos1 w port) s idle ∧ Completes (.portWiden w port) s (fun c => answered c ∧ asked 3 c)) ∧
      (up = true → free = false → Completes (.portNarrowLpos0 w port) s idle ∧ Completes (.portNarrowLpos1 w port) s idle ∧
        Completes (.portWiden w port) s idle)) ∧
    (∀ m : WidthMsg,
      let lanes := swapLanes t.rev m.lanes
      let allowed := decide (lanes ≠ 0) && (if lanes = 3 then bitOf t.widths 1 else bitOf t.widths 0)
      let mine := t.hs.own == some 1 && t.hs.tseq == m.tseq
      let follows := !t.hs.granted && t.hs.leading && t.hs.switchAt.isSome && t.hs.tseq == m.tseq
      (s.serving → up = false → Completes (.wreq port m) s still ∧ Completes (.wgrant port m) s still ∧ Completes (.wrefuse port m) s still ∧
        Completes (.wswitch port m) s still ∧ Completes (.rreq port m) s still ∧ Completes (.rack port m) s still) ∧
      (s.serving → s.chip.leads port 1 m = true → Completes (.wreq port m) s still) ∧
      (s.serving → up = true → s.chip.leads port 1 m = false →
        (allowed = false → Completes (.wreq port m) s fun c => keeps c ∧ queued 3 m c ∧ c.tport port = { t with hs := { t.hs with own := none } }) ∧
        (allowed = true → lanes = t.lanes ∨ t.hs.granted = true → Completes (.wreq port m) s fun c => keeps c ∧ queued 2 m c ∧
          c.tport port = { t with hs := { t.hs with own := none } }) ∧
        (allowed = true → lanes ≠ t.lanes → t.hs.granted = false → Completes (.wreq port m) s fun c => keeps c ∧ queued 2 m c ∧
          (c.tport port).hs.own = none ∧ (c.tport port).hs.granted = true ∧ (c.tport port).hs.target = lanes ∧ (c.tport port).lanes = t.lanes ∧
          (lanes = 3 → (c.tport port).hs.idleStage = 1))) ∧
      (s.serving → mine = false → Completes (.wgrant port m) s still ∧ Completes (.wrefuse port m) s still) ∧
      (s.serving → up = true → mine = true →
        (Completes (.wrefuse port m) s fun c => keeps c ∧ c.tport port = { t with hs := { Handshake.init with tseq := t.hs.tseq } }) ∧
        (t.hs.lanes = 3 → Completes (.wgrant port m) s fun c => keeps c ∧ (c.tport port).hs.own = none ∧ (c.tport port).hs.leading = true ∧
          (c.tport port).hs.idleStage = 1 ∧ (c.tport port).lanes = t.lanes) ∧
        (t.hs.lanes ≠ 3 → t.hs.granted = false → link.tx.inPacket = false → Completes (.wgrant port m) s fun c => keeps c ∧ lcbs 4 c ∧
          (c.tport port).hs.own = none ∧ (c.tport port).hs.leading = true ∧ (c.tport port).hs.target = t.hs.lanes ∧
          (c.tport port).hs.switchAt = some s.chip.now ∧ (c.tport port).lanes = t.lanes) ∧
        (t.hs.lanes ≠ 3 → link.tx.inPacket = true → Completes (.wgrant port m) s fun c => keeps c ∧ (c.tport port).hs.own = none ∧
          (c.tport port).hs.switchDue.isSome = true ∧ (c.tport port).lanes = t.lanes)) ∧
      (s.serving → t.hs.granted = false → follows = false → Completes (.wswitch port m) s still) ∧
      (s.leaves (fun c => c.takeWswitch port m) → up = true → follows = true → Completes (.wswitch port m) s fun c => keeps c ∧
        (c.tport port).lanes = t.hs.target ∧ (c.tport port).hs.leading = false) ∧
      (s.serving → up = true → t.hs.granted = true →
        (link.tx.inPacket = false → Completes (.wswitch port m) s fun c => keeps c ∧ lcbs 4 c ∧ (c.tport port).lanes = lanes ∧
          (c.tport port).hs.granted = false) ∧
        (link.tx.inPacket = true → Completes (.wswitch port m) s fun c => keeps c ∧ (c.tport port).hs.switchDue = some m ∧ (c.tport port).lanes = t.lanes)) ∧
      (s.serving → s.chip.leads port 5 m = true → Completes (.rreq port m) s still) ∧
      (s.leaves (fun c => c.takeRreq port m) → up = true → s.chip.leads port 5 m = false → Completes (.rreq port m) s fun c => detects 9 c ∧ lcbs 6 c) ∧
      (s.serving → t.hs.own ≠ some 5 ∨ t.hs.tseq ≠ m.tseq → Completes (.rack port m) s still) ∧
      (s.leaves (fun c => c.takeRack port m) → up = true → t.hs.own = some 5 → t.hs.tseq = m.tseq → Completes (.rack port m) s (detects t.hs.reason))) ∧
    (let late := up && decide (t.hs.since + 100000 ≤ s.chip.now)
     (s.serving → late = false → Completes (.wreqTimeout port) s still ∧ Completes (.rackTimeout port) s still) ∧
     (s.serving → t.hs.own ≠ some 1 → Completes (.wreqTimeout port) s still) ∧
     (s.serving → t.hs.own ≠ some 5 → Completes (.rackTimeout port) s still) ∧
     (s.serving → late = true → t.hs.own = some 1 → t.hs.tries < 10 → Completes (.wreqTimeout port) s fun c => keeps c ∧
       c.tport port = { t with hs := { t.hs with tseq := (t.hs.tseq + 1) % 256, since := s.chip.now, tries := t.hs.tries + 1 } }) ∧
     (s.serving → late = true → t.hs.own = some 1 → 10 ≤ t.hs.tries → Completes (.wreqTimeout port) s (retrains 11)) ∧
     (s.leaves (fun c => c.rackTimeout port) → late = true → t.hs.own = some 5 → Completes (.rackTimeout port) s (detects t.hs.reason))) ∧
    (let due := up && t.hs.switchAt.elim false fun a => decide (a + 1000000 ≤ s.chip.now)
     let locked := !t.hs.leading && t.lanes &&& s.chip.lockedLanes port == t.lanes
     (s.serving → due = false ∨ (locked = false ∧ t.hs.own = some 5) → Completes (.wswitchLockTimeout port) s still) ∧
     (s.serving → due = true → locked = true → Completes (.wswitchLockTimeout port) s fun c => keeps c ∧
       c.tport port = { t with hs := { t.hs with switchAt := none } }) ∧
     (s.serving → due = true → locked = false → t.hs.own ≠ some 5 → Completes (.wswitchLockTimeout port) s (retrains 11)))

/-! ### Fabric time, pace, voltage and temperature -/

/-- R434 to R438: on an Active port with TIM running an item goes out in an LCB with the next TSEQ, and where the LCB
carries it, its stamp is kept. An item received on an Active port is kept with its arrival stamps. The root stays root and
notes a lower one. Any other chip chooses its parent again: with none offered, or TIM down outside Locked, its state stays;
Free and Lost acquire; Acquire begins anew with another parent or root; Locked goes on with the same root and generation, as
Holdover then does to Locked, and both are Lost with another. An item of the unchanged parent that answers a stamp with a
delay near the average measures the offset (stated where the halves are whole counts): the fourth in Acquire steps by it
into Locked; in Locked it becomes the last offset, or above 1 µs the chip is Lost. One with another delay, or without a
stamp, measures nothing. Stated wherever nothing is left to carry out. -/
def Obligations.TimeItemsAreSentAndTaken : Prop :=
  ∀ (s : State) (port : Nat),
    let up := s.chip.portActive port
    let tim := s.chip.timUp
    let peer := s.chip.peer port
    let still (c : Chip) : Prop := c = s.chip
    (s.serving → up = false ∨ tim = false → Completes (.timeExchangeSend port) s still) ∧
    (s.serving → up = true → tim = true → Completes (.timeExchangeSend port) s fun d =>
      (d.peer port).txSeq = (peer.txSeq + 1) % 256 ∧ d.tb.time = s.chip.tb.time ∧ d.mem = s.chip.mem ∧
      (d.out.drop s.chip.out.length).any (fun o => match o with
        | .lcb p _ => p == port
        | _ => false) = true ∧
      ((s.chip.link port).tx.items = [] → (s.chip.tport port).hs.own = none →
        Tab.get? (d.peer port).sentAt (peer.txSeq % 256) = some s.chip.tb.time ∧ (d.link port).tx.items = [])) ∧
    (∀ item : TimeItem,
      let u := s.chip.updPeer port fun x => { x with item := some item, arrived := s.chip.tb.time, atTick := s.chip.now }
      let state := s.chip.tb.state
      let takes (r : Chip → Prop) : Prop := Completes (.timeExchangeReceive port item) s fun d => r d ∧ d.mem = s.chip.mem ∧
        (d.peer port).item = some item ∧ (d.peer port).arrived = s.chip.tb.time ∧ (d.peer port).atTick = s.chip.now
      let stays (d : Chip) : Prop := d.tb = u.tb
      let lost (d : Chip) : Prop := d.tb.state = .lost ∧ d.tb.depth = 255 ∧ d.tb.parent = none ∧ d.tb.time = s.chip.tb.time
      let follows (p : Nat) (i : TimeItem) (d : Chip) : Prop := d.tb.parent = some p ∧ d.tb.depth = min 254 (i.depth + 1) ∧
        d.tb.rootId = i.rootId ∧ d.tb.rootGen = i.rootGen ∧ d.tb.time = s.chip.tb.time
      (s.serving → up = false → Completes (.timeExchangeReceive port item) s still) ∧
      (s.leaves (fun c => c.timeReceive port item) → up = true →
        (state = .root → takes (fun d => stays d ∧ (item.root = true → item.rootId < s.chip.id → d.noted s.chip 0xC0 0x100))) ∧
        (state ≠ .root → item.evalid = false ∨ u.tb.parent ≠ some port ∨ tim = false → u.bestParent = none → takes stays) ∧
        (∀ p i, state ≠ .root → u.bestParent = some (p, i) →
          let moved := i.rootId != s.chip.tb.rootId || i.rootGen != s.chip.tb.rootGen
          let same := decide (s.chip.tb.parent = some p) && !moved
          let quiet := !item.evalid || !tim || p != port
          (tim = false → state ≠ .locked → takes stays) ∧
          (tim = true → quiet = true → state = .free ∨ state = .lost → takes (fun d => follows p i d ∧ d.tb.state = .acquire ∧ d.tb.prev = state ∧ d.tb.measured = [])) ∧
          (tim = true → quiet = true → state = .acquire → same = false → takes (fun d => follows p i d ∧ d.tb.state = .acquire ∧ d.tb.measured = [])) ∧
          (tim = true → quiet = true → state = .acquire → same = true → takes stays) ∧
          (state = .locked → moved = true → takes lost) ∧
          (quiet = true → state = .locked → moved = false → takes (fun d => follows p i d ∧ d.tb.state = .locked)) ∧
          (tim = true → state = .holdover → moved = true → takes lost) ∧
          (tim = true → quiet = true → state = .holdover → moved = false → takes (fun d => follows p i d ∧ d.tb.state = .locked)) ∧
          (tim = true → p = port → item.evalid = true → same = true → state = .acquire ∨ state = .locked →
            (Tab.get? peer.sentAt item.eseq = none → takes (fun d => d.tb.state = state ∧ d.tb.measured = s.chip.tb.measured ∧
              d.tb.lastOffset = s.chip.tb.lastOffset ∧ d.tb.time = s.chip.tb.time)) ∧
            (∀ t1, Tab.get? peer.sentAt item.eseq = some t1 →
              let a := signedDiff s.chip.tb.time item.ttx
              let b := signedDiff item.erx t1
              let theta := (a - b) / 2
              let delay := (a + b) / 2
              (a - b) % 2 = 0 → (a + b) % 2 = 0 →
              (delayOk peer.delays delay = false → takes (fun d => d.tb.state = state ∧ d.tb.measured = s.chip.tb.measured ∧
                d.tb.lastOffset = s.chip.tb.lastOffset ∧ d.tb.time = s.chip.tb.time)) ∧
              (delayOk peer.delays delay = true →
                (state = .acquire → s.chip.tb.measured.length < 3 → takes (fun d => d.tb.state = .acquire ∧ d.tb.measured = theta :: s.chip.tb.measured ∧
                  (d.peer port).delays = (delay :: peer.delays).take 16 ∧ d.tb.lastOffset = theta ∧ d.tb.time = s.chip.tb.time)) ∧
                (state = .acquire → 3 ≤ s.chip.tb.measured.length → takes (fun d => d.tb.state = .locked ∧ d.tb.measured = [] ∧
                  d.tb.lastOffset = theta ∧ d.tb.time = s.chip.tb.time + BitVec.ofInt 64 (-theta) ∧ d.tb.rateCorr.natAbs ≤ 500000)) ∧
                (state = .locked → theta.natAbs ≤ 4000 → takes (fun d => d.tb.state = .locked ∧ d.tb.lastOffset = theta ∧
                  d.tb.time = s.chip.tb.time ∧ d.tb.rateCorr.natAbs ≤ 500000)) ∧
                (state = .locked → 4000 < theta.natAbs → takes (fun d => lost d ∧ d.tb.lastOffset = theta))))))))

/-- R435, R438: without a parent offered, 32 µs after the parent was one no longer Locked ends in Holdover, Acquire in the
state before it, and every other state loses its parent; until then, and with no parent, nothing changes. Where a neighbour
offers one, it is chosen as an arriving item would have it chosen. Holdover that lasts P08.004 ends in Lost with DEPTH 255;
otherwise its limit changes nothing. Stated wherever nothing is left to carry out. When the 32 µs begin is the model's
reading (log entry 111). R28, R437, R439, R502: a root with PPS enabled takes an edge that is not within 500 ms of the last:
by a stamp within 1 ns of its time it steps to the phase, and ROOTGEN advances, where the error is above 4,000 counts, else
it keeps the error as its offset; while TIM is down the edge corrects nothing. An earlier edge is rejected and counted, and
elsewhere an edge changes nothing. Stated wherever nothing is left to carry out. -/
def Obligations.TimeRunsOutAndIsDisciplined : Prop :=
  (∀ s : State,
      let tb := s.chip.tb
      let still (c : Chip) : Prop := c = s.chip
      let lost (d : Chip) : Prop := d.tb.state = .lost ∧ d.tb.depth = 255 ∧ d.tb.parent = none ∧ d.tb.time = tb.time ∧ d.mem = s.chip.mem
      (s.serving → s.chip.bestParent = none → tb.parent.all (fun p => decide (s.chip.now < s.chip.offerEnded p + 32000)) = true → Completes .parentTimeout s still) ∧
      (∀ p, s.serving → s.chip.bestParent = none → tb.parent = some p → s.chip.offerEnded p + 32000 ≤ s.chip.now →
        (tb.state = .locked → Completes .parentTimeout s fun d => d.tb = { tb with state := .holdover, parent := none, holdoverAt := s.chip.now } ∧ d.mem = s.chip.mem) ∧
        (tb.state = .acquire → Completes .parentTimeout s fun d => d.tb = { tb with state := tb.prev, parent := none, depth := 255, measured := [] } ∧ d.mem = s.chip.mem) ∧
        (tb.state ≠ .locked → tb.state ≠ .acquire → Completes .parentTimeout s fun d => d.tb = { tb with parent := none } ∧ d.mem = s.chip.mem)) ∧
      (∀ p i, s.leaves (fun c => c.chooseParent) → s.chip.bestParent = some (p, i) →
        let moved := i.rootId != tb.rootId || i.rootGen != tb.rootGen
        let follows : Timebase := { tb with parent := some p, depth := min 254 (i.depth + 1), rootId := i.rootId, rootGen := i.rootGen }
        let chooses (r : Chip → Prop) : Prop := Completes .parentTimeout s fun d => r d ∧ d.mem = s.chip.mem
        (tb.state = .root ∨ (s.chip.timUp = false ∧ tb.state ≠ .locked) → chooses (fun d => d.tb = tb)) ∧
        (s.chip.timUp = true → tb.state = .free ∨ tb.state = .lost → chooses (fun d => d.tb = { follows with state := .acquire, prev := tb.state, measured := [] })) ∧
        (s.chip.timUp = true → tb.state = .acquire → chooses (fun d => d.tb = if tb.parent = some p ∧ moved = false then tb else { follows with measured := [] })) ∧
        (tb.state = .locked → moved = false → chooses (fun d => d.tb = follows)) ∧
        (s.chip.timUp = true → tb.state = .holdover → moved = false → chooses (fun d => d.tb = { follows with state := .locked })) ∧
        (tb.state = .locked ∨ (s.chip.timUp = true ∧ tb.state = .holdover) → moved = true → chooses lost)) ∧
      (let ends := decide (tb.state = .holdover) && decide (tb.holdoverAt + 1000 * s.chip.param 0x08 0x004 0 ≤ s.chip.now)
       (s.serving → ends = false → Completes .holdoverExpiry s still) ∧
       (s.leaves (fun c => c.holdoverExpiry) → ends = true → Completes .holdoverExpiry s lost)))
  ∧ (∀ s : State, s.serving →
      let tb := s.chip.tb
      let listens := decide (tb.state = .root) && decide (s.chip.param 0x08 0x002 0 = 1)
      let early := tb.lastPps.elim false fun t => decide (s.chip.now < t + 500000000)
      (listens = false → Completes .ppsEdge s fun d => d = s.chip) ∧
      (listens = true → early = true → Completes .ppsEdge s fun d => d = s.chip.bump 0xC0 .ppsRejected) ∧
      (listens = true → early = false → s.chip.timUp = false → Completes .ppsEdge s fun d => d.tb = { tb with lastPps := some s.chip.now } ∧ d.mem = s.chip.mem) ∧
      (listens = true → early = false → s.chip.timUp = true → Completes .ppsEdge s fun d => d.mem = s.chip.mem ∧ d.tb.state = .root ∧
        d.tb.lastPps = some s.chip.now ∧ ∃ k ∈ List.range 9,
          let e := ppsError (tb.time + BitVec.ofNat 64 k - 4).toNat (s.chip.param 0x08 0x003 0)
          if 4000 < e.natAbs then d.tb.time = tb.time + BitVec.ofInt 64 (-e) ∧ d.tb.rootGen = tb.rootGen + 1
          else d.tb.time = tb.time ∧ d.tb.rootGen = tb.rootGen ∧ d.tb.lastOffset = e ∧ d.tb.rateCorr.natAbs ≤ 500000))

/-- R443: each of the 16 monitors reads its raw count plus its trim, and is low while that lies below P08.042; one that
becomes low notes its own fault source. Stated wherever nothing is left to carry out. R446, R509: the 16 sensors read their
raw values plus their trims. One at or above P08.047 makes the warning, each such sensor noting its own source where it was
not there before; once every sensor is 5 degrees below, the warning may come again, and in between it stays as it is. A
sensor at 115 degrees trips the chip, which keeps only the die, the flash, where an update under way is broken off, and its
pins; below that, and once tripped, the command changes nothing. Stated wherever nothing is left to carry out. -/
def Obligations.MonitorsAndSensorsAreRead : Prop :=
  (∀ (s : State) (raw : List Int), s.leaves (fun c => c.paceWindow raw) →
      Completes (.paceWindow raw) s fun d => d.mem = s.chip.mem ∧ d.pace.request = s.chip.pace.request ∧ ∀ i < 16,
        let r := ((raw[i]?).getD 0 + s.chip.trim 0x020 i).toNat
        Tab.get d.pace.pace i 0 = r ∧ (i ∈ d.pace.low ↔ r < s.chip.param 0x08 0x042 0) ∧
        (r < s.chip.param 0x08 0x042 0 → (s.chip.src (0xD0 + i) 0x100).now = false → d.noted s.chip (0xD0 + i) 0x100))
  ∧ (∀ (s : State) (raw : List Int),
      let t (i : Nat) : Int := (raw[i]?).getD 0 + s.chip.trim 0x021 i
      let limit : Int := 10 * s.chip.param 0x08 0x047 0
      let hot := (List.range 16).any fun i => decide (limit ≤ t i)
      let cold := (List.range 16).all fun i => decide (t i < limit - 50)
      let reads (d : Chip) : Prop := d.pace.temps = (List.range 16).map (fun i => (i, t i)) ∧ d.mem = s.chip.mem ∧ d.boot = s.chip.boot
      (s.leaves (fun c => c.thermalWarning raw) →
        (hot = true → Completes (.thermalWarning raw) s fun d => reads d ∧ d.pace.warned = true ∧ ∀ i < 16, limit ≤ t i →
          (s.chip.src (0xD0 + i) 0x101).now = false → d.noted s.chip (0xD0 + i) 0x101) ∧
        (hot = false → cold = true → Completes (.thermalWarning raw) s fun d => reads d ∧ d.pace.warned = false) ∧
        (hot = false → cold = false → Completes (.thermalWarning raw) s fun d => reads d ∧ d.pace.warned = s.chip.pace.warned)) ∧
      (s.leaves (fun c => c.thermalClear raw) →
        (cold = true → Completes (.thermalWarningClear raw) s fun d => reads d ∧ d.pace.warned = false) ∧
        (cold = false → Completes (.thermalWarningClear raw) s fun d => reads d ∧ d.pace.warned = s.chip.pace.warned)) ∧
      (s.chip.calm = true → s.chip.boot.phase = .tripped ∨ raw.any (fun x => decide (1150 ≤ x)) = false → Completes (.thermalTrip raw) s fun d => d = s.chip) ∧
      (raw.any (fun x => decide (1150 ≤ x)) = true → s.chip.boot.phase ≠ .tripped →
        Completes (.thermalTrip raw) s fun d =>
          d.boot.phase = .tripped ∧ d.boot.trippedPin = true ∧ d.queues = [] ∧ d.links = [] ∧ d.dict.active = [] ∧
          d.flash = s.chip.flash.interrupted s.chip.fw.updateState ∧ d.variant = s.chip.variant ∧ d.serial = s.chip.serial))

/-- R24, R444, R484, R500: the AVS loop asks for 20 mV more where the lowest monitor that takes part lies below the low
threshold, for 5 mV more or less outside the band around the target, within P08.043 and P08.044; where that is the request
in force, with FAB down, or with no monitor, it asks for nothing. The request takes effect when the regulator answers; a
failed or unanswered write leaves the one in force and is noted; without a write nothing changes. Stated wherever nothing is
left to carry out. -/
def Obligations.AvsFollowsTheLowestMonitor : Prop :=
  ∀ s : State,
    let pace := s.chip.pace
    let still (c : Chip) : Prop := c = s.chip
    (s.serving → s.chip.clusterUp 1 = false ∨ s.chip.lowestPace = none → Completes .avsLoop s still) ∧
    (∀ p, s.serving → s.chip.clusterUp 1 = true → s.chip.lowestPace = some p →
      let v := max (s.chip.param 0x08 0x043 0) (min (s.chip.param 0x08 0x044 0)
        (if p < s.chip.param 0x08 0x042 0 then pace.request + 20
         else if p + 25 < s.chip.param 0x08 0x041 0 then pace.request + 5
         else if s.chip.param 0x08 0x041 0 + 75 < p then pace.request - 5 else pace.request))
      (v = pace.request → Completes .avsLoop s still) ∧
      (v ≠ pace.request → Completes .avsLoop s fun d => d.pace = { pace with wanted := some v } ∧ d.out = s.chip.out ++ [.avsWrite v] ∧ d.mem = s.chip.mem)) ∧
    (∀ good, s.serving → pace.wanted = none → Completes (.avsResponse good) s still ∧ Completes .avsTimeout s still) ∧
    (∀ v, pace.wanted = some v →
      (s.serving → Completes (.avsResponse true) s fun d => d.pace = { pace with request := v, wanted := none } ∧ d.mem = s.chip.mem) ∧
      (s.leaves (fun c => c.avsFailed) →
        let fails (d : Chip) : Prop := d.pace = { pace with wanted := none } ∧ d.noted s.chip 0x91 0x102 ∧ d.mem = s.chip.mem
        Completes (.avsResponse false) s fails ∧ Completes .avsTimeout s fails))

/-! ### Ticks, setting the time, streams -/

/-- R389, R432, R448: `ticks` sampling ticks pass while the timebase runs: the tick counter advances by them and fabric time
by 4 counts each; on a chip held in reset or tripped, and with no tick, nothing changes. R437, R441: SET_TIME steps a root
to the time written, and ROOTGEN advances; on any other chip it answers 0x07. R450, R451: a sample of a new period puts each
part as a packet into the trace FIFO, or as an entry into the host ring, whose consumer index has been read, as far as there
is room, the rest and every part without a host being dropped and counted; with streaming off it only takes the period;
while TIM restarts, and a second time in a period, nothing is sampled. -/
def Obligations.TicksPassTimeIsSetSamplesStream : Prop :=
  (∀ (s : State) (ticks : Nat), s.chip.calm = true →
      let stopped := s.chip.boot.phase == .held || s.chip.boot.phase == .tripped
      (stopped = true ∨ ticks = 0 → Completes (.samplingTick ticks) s fun d => d = s.chip) ∧
      (stopped = false → ticks ≠ 0 → Completes (.samplingTick ticks) s fun d =>
        d.tb = { s.chip.tb with now := s.chip.tb.now + ticks, time := s.chip.tb.time + BitVec.ofNat 64 (4 * ticks) } ∧
        d.mem = s.chip.mem ∧ d.dict = s.chip.dict ∧
        ∀ r ∈ s.chip.links, ∀ v < 23, r.2.rx.xoff.getLsbD v = true → (s.chip.links.map (·.1)).Nodup →
          getCounter ⟨r.1, .xoffCycles v⟩ d.ctr.events = getCounter ⟨r.1, .xoffCycles v⟩ s.chip.ctr.events + BitVec.ofNat 64 ticks))
  ∧ (∀ s : State, s.serving →
      (∀ (w : Writer) (t : BitVec 64), s.chip.mayWrite w (pnum 0x08 0x010 0) = true →
        (s.chip.tb.state = .root →
          Completes (.setTime w t) s fun d =>
            d.tb.time = t ∧ d.tb.rootGen = s.chip.tb.rootGen + 1 ∧ d.tb.state = .root ∧ d.tb.now = s.chip.tb.now ∧
            d.out = s.chip.out ++ [.dictReply w 0 []] ∧ d.mem = s.chip.mem) ∧
        (s.chip.tb.state ≠ .root → Completes (.setTime w t) s fun d => d = { s.chip with out := s.chip.out ++ [.dictReply w 7 []] })) ∧
      (∀ ci : BitVec 32,
        let period := (s.chip.param 0x31 0xF11 0, s.chip.streamPeriod)
        let fresh := s.chip.clusterUp 5 && s.chip.ctr.sampled != some period
        let mode := s.chip.param 0x31 0xF12 0
        let took (d : Chip) : Prop := d.ctr.sampled = some period ∧ d.mem = s.chip.mem ∧ d.ctr.events = s.chip.ctr.events
        let parts := s.chip.streamParts 6
        (fresh = false → Completes (.streamSample ci) s fun d => d = s.chip) ∧
        (fresh = true → mode ≠ 1 → mode ≠ 2 → Completes (.streamSample ci) s fun d => d = { s.chip with ctr := { s.chip.ctr with sampled := some period } }) ∧
        (fresh = true → mode = 1 → Completes (.streamSample ci) s fun d => took d ∧ d.out = s.chip.out ∧
          d.fifo 9 = (s.chip.streamParts 62).foldl (fun f l => f.packet (fifoCap 9) l) (s.chip.fifo 9)) ∧
        (fresh = true → mode = 2 → s.chip.traceHost = none → Completes (.streamSample ci) s fun d => took d ∧ d.out = s.chip.out ∧
          d.ctr.ringCi = ci ∧ d.ctr.streamDrops = s.chip.ctr.streamDrops + BitVec.ofNat 64 parts.length) ∧
        (∀ h, fresh = true → mode = 2 → s.chip.traceHost = some h →
          let size := 2 ^ s.chip.param 0x31 0xF15 0
          let fits := min parts.length (size - (s.chip.ctr.ringPi - ci).toNat)
          Completes (.streamSample ci) s fun d => took d ∧ d.ctr.ringCi = ci ∧ d.ctr.ringPi = s.chip.ctr.ringPi + BitVec.ofNat 32 fits ∧
            d.ctr.streamDrops = s.chip.ctr.streamDrops + BitVec.ofNat 64 (parts.length - fits) ∧
            (s.chip.hostServed (h * 256) = true → ∀ i < fits,
              .dma h (h * 256) (s.chip.param 0x31 0xF13 0 + 64 * ((s.chip.ctr.ringPi + BitVec.ofNat 32 i).toNat % size))
                ((((parts[i]?).getD []) ++ List.replicate 8 (0 : Word)).take 8 |>.flatMap Word.le) false ∈ d.out))))
end

