-- ==== Sys2Proof/Laws/Tab.lean ====
section
/-! SUPPORT. What the operations on sparse tables do to a row and to every other row. -/

namespace Sys2Proof
set_option Elab.async false

variable {α : Type}

@[simp] theorem Tab.get?_nil (k : Nat) : Tab.get? ([] : Tab α) k = none := rfl

theorem Tab.get?_cons (k' : Nat) (v : α) (r : Tab α) (k : Nat) :
    Tab.get? ((k', v) :: r) k = if k = k' then some v else Tab.get? r k := rfl

@[simp] theorem Tab.get?_put_self (t : Tab α) (k : Nat) (v : α) : Tab.get? (Tab.put t k v) k = some v := by
  induction t with
  | nil => simp [Tab.put, Tab.get?]
  | cons x r ih =>
    obtain ⟨k', v'⟩ := x
    unfold Tab.put
    split
    · simp [Tab.get?]
    · split
      · simp [Tab.get?]
      · rw [Tab.get?_cons, if_neg ‹_›, ih]

theorem Tab.get?_put_ne (t : Tab α) {j k : Nat} (v : α) (h : j ≠ k) : Tab.get? (Tab.put t k v) j = Tab.get? t j := by
  induction t with
  | nil => simp [Tab.put, Tab.get?, h]
  | cons x r ih =>
    obtain ⟨k', v'⟩ := x
    unfold Tab.put
    split
    · rw [Tab.get?_cons, if_neg h]
    · split
      · subst k'; rw [Tab.get?_cons, Tab.get?_cons, if_neg h, if_neg h]
      · rw [Tab.get?_cons, Tab.get?_cons, ih]

@[simp] theorem Tab.get_put_self (t : Tab α) (k : Nat) (v d : α) : Tab.get (Tab.put t k v) k d = v := by simp [Tab.get]

theorem Tab.get_put_ne (t : Tab α) {j k : Nat} (v d : α) (h : j ≠ k) : Tab.get (Tab.put t k v) j d = Tab.get t j d := by
  simp [Tab.get, Tab.get?_put_ne t v h]

@[simp] theorem Tab.get_upd_self (t : Tab α) (k : Nat) (d : α) (f : α → α) : Tab.get (Tab.upd t k d f) k d = f (Tab.get t k d) := by
  simp [Tab.upd]

theorem Tab.get_upd_ne (t : Tab α) {j k : Nat} (d : α) (f : α → α) (h : j ≠ k) :
    Tab.get (Tab.upd t k d f) j d = Tab.get t j d := Tab.get_put_ne t _ d h

theorem Tab.get?_del_ne (t : Tab α) {j k : Nat} (h : j ≠ k) : Tab.get? (Tab.del t k) j = Tab.get? t j := by
  induction t with
  | nil => rfl
  | cons x r ih =>
    obtain ⟨k', v'⟩ := x
    unfold Tab.del
    split
    · subst k'; rw [ih, Tab.get?_cons, if_neg h]
    · rw [Tab.get?_cons, Tab.get?_cons, ih]

theorem Tab.get?_del_self (t : Tab α) (k : Nat) : Tab.get? (Tab.del t k) k = none := by
  induction t with
  | nil => rfl
  | cons x r ih =>
    obtain ⟨k', v'⟩ := x
    unfold Tab.del
    split
    · exact ih
    · rw [Tab.get?_cons, if_neg ‹_›, ih]

@[simp] theorem Tab.get_set_self [DecidableEq α] (t : Tab α) (k : Nat) (v d : α) : Tab.get (Tab.set t d k v) k d = v := by
  unfold Tab.set
  split
  · subst d; simp [Tab.get, Tab.get?_del_self t k]
  · simp

theorem Tab.get_set_ne [DecidableEq α] (t : Tab α) {j k : Nat} (v d : α) (h : j ≠ k) : Tab.get (Tab.set t d k v) j d = Tab.get t j d := by
  unfold Tab.set
  split
  · simp [Tab.get, Tab.get?_del_ne t h]
  · exact Tab.get_put_ne t v d h

theorem Tab.get?_adjust_self (t : Tab α) (k : Nat) (f : α → α) : Tab.get? (Tab.adjust t k f) k = (Tab.get? t k).map f := by
  unfold Tab.adjust
  split
  · rename_i v h; rw [Tab.get?_put_self, h]; rfl
  · rename_i h; rw [h]; rfl

theorem Tab.get?_adjust_ne (t : Tab α) {j k : Nat} (f : α → α) (h : j ≠ k) : Tab.get? (Tab.adjust t k f) j = Tab.get? t j := by
  unfold Tab.adjust
  split
  · exact Tab.get?_put_ne t _ h
  · rfl

theorem Tab.mem_of_get? (t : Tab α) (k : Nat) (w : α) (h : Tab.get? t k = some w) : (k, w) ∈ t := by
  induction t with
  | nil => simp at h
  | cons x r ih =>
    obtain ⟨k', v'⟩ := x
    rw [Tab.get?_cons] at h
    split at h
    · subst k'; simp at h; simp [h]
    · exact List.mem_cons_of_mem _ (ih h)

/-- A row put in the place of one that agrees with it on a test leaves what the rows of the table say of the test. -/
theorem Tab.any_put (t : Tab α) (k : Nat) (v w : α) (p : α → Bool) (h : Tab.get? t k = some w) (e : p v = p w) :
    (Tab.put t k v).any (fun r => p r.2) = t.any (fun r => p r.2) := by
  induction t with
  | nil => simp at h
  | cons x r ih =>
    obtain ⟨k', v'⟩ := x
    have hm := Tab.mem_of_get? _ _ _ h
    rw [Tab.get?_cons] at h
    unfold Tab.put
    split
    · rw [List.any_cons, e]
      cases hp : p w with
      | false => rfl
      | true => rw [Bool.true_or]; exact (List.any_eq_true.mpr ⟨_, hm, hp⟩).symm
    · split at h
      · subst k'; simp at h; subst w; simp [e]
      · rw [if_neg ‹_›, List.any_cons, List.any_cons, ih h]

theorem Tab.any_adjust (t : Tab α) (k : Nat) (f : α → α) (p : α → Bool) (e : ∀ v, p (f v) = p v) :
    (Tab.adjust t k f).any (fun r => p r.2) = t.any (fun r => p r.2) := by
  unfold Tab.adjust
  split
  · exact Tab.any_put t k _ _ p ‹_› (e _)
  · rfl

end Sys2Proof
end

