-- ==== Sys2Proof/Laws/Settle.lean ====
section
/-! SUPPORT. What a step carries out after its own effect: nothing, on a calm chip; and what reporting (records, events,
interrupts, counters) leaves as it was. -/

namespace Sys2Proof.Machine
set_option Elab.async false

theorem Chip.calm_iff (c : Chip) : c.calm = true ↔
    c.flt.resetDue = false ∧ c.flt.due = [] ∧ c.tr.finished = [] ∧ c.tg.due = false ∧ c.br.waiting = [] ∧ c.linksCalm = true ∧
      c.queues.any (fun r => r.2.destroying.isSome) = false := by
  simp only [Chip.calm, Bool.and_eq_true, Bool.not_eq_true', List.isEmpty_iff]
  tauto

/-- A link of a calm chip has nothing left in a block that is being filled. -/
theorem Chip.left_calm (c : Chip) (h : c.linksCalm = true) (p : Nat) : (c.link p).tx.left = [] := by
  unfold Chip.linksCalm at h
  rw [Bool.and_eq_true] at h
  unfold Chip.link Tab.get
  cases e : Tab.get? c.links p with
  | none => rfl
  | some v => exact List.isEmpty_iff.mp (List.all_eq_true.mp h.1 _ (Tab.mem_of_get? _ _ _ e))

/-- A port of a calm chip holds back no width change. -/
theorem Chip.switchDue_calm (c : Chip) (h : c.linksCalm = true) (p : Nat) : (c.tport p).hs.switchDue = none := by
  unfold Chip.linksCalm at h
  rw [Bool.and_eq_true] at h
  unfold Chip.tport Tab.get
  cases e : Tab.get? c.train p with
  | none => rfl
  | some v => exact Option.isNone_iff_eq_none.mp (List.all_eq_true.mp h.2 _ (Tab.mem_of_get? _ _ _ e))

theorem Chip.foldl_id {α : Type} (c : Chip) (g : Chip → α → Chip) (hg : ∀ a, g c a = c) (l : List α) : l.foldl g c = c := by
  induction l with
  | nil => rfl
  | cons a l ih => rw [List.foldl_cons, hg, ih]

/-- On a calm chip no link has anything to finish. -/
theorem Chip.finishLinks_calm (c : Chip) (h : c.linksCalm = true) : c.finishLinks = c := by
  have h1 : (c.train.foldl (fun c r => c.switchWhenIdle r.1) c) = c := c.foldl_id _ (fun r => by
    unfold Chip.switchWhenIdle
    extract_lets t
    rw [show t.hs.switchDue = none from c.switchDue_calm h r.1]) _
  unfold Chip.finishLinks
  rw [h1]
  exact c.foldl_id _ (fun r => by
    unfold Chip.padIdle
    rw [c.left_calm h r.1]
    rfl) _

theorem Chip.finishDestroys_calm (c : Chip) (h : c.queues.any (fun r => r.2.destroying.isSome) = false) : c.finishDestroys = c := by
  have hf : (c.queues.filter fun r => r.2.destroying.isSome) = [] := by
    rw [List.any_eq_false] at h
    exact List.filter_eq_nil_iff.mpr fun r hr => h r hr
  unfold Chip.finishDestroys
  rw [hf]
  rfl

/-- With no host request waiting there is none to take up. -/
theorem Chip.hostCredits_calm (c : Chip) (h : c.br.waiting = []) : c.hostCredits = c := by
  unfold Chip.hostCredits
  rw [h]
  show ({ c with br := { c.br with waiting := [] } } : Chip) = c
  rw [← h]

/-- A calm chip has nothing to carry out. -/
theorem Chip.settle_calm (c : Chip) (h : c.calm = true) : c.settle = c := by
  obtain ⟨h1, h2, h3, h4, h5, h6, h7⟩ := c.calm_iff.mp h
  have h8 : c.carryOn 64 = c := by
    show c.carryOn (63 + 1) = c
    unfold Chip.carryOn
    rw [h1, h2, h3]
    rfl
  have h9 : c.heldPlaces = c := by
    unfold Chip.heldPlaces
    rw [h4]
    rfl
  unfold Chip.settle
  rw [h8, c.hostCredits_calm h5, h8, c.finishDestroys_calm h7, h9, c.finishLinks_calm h6]

theorem State.run_calm (s : State) (f : Chip → Chip) (hu : s.chip.up = true) (h : (f s.chip).calm = true) :
    s.run f = .next { s with chip := f s.chip } := by
  unfold State.run
  rw [if_pos hu, Chip.settle_calm _ h]

theorem State.runAny_calm (s : State) (f : Chip → Chip) (h : (f s.chip).calm = true) :
    s.runAny f = .next { s with chip := f s.chip } := by
  unfold State.runAny
  rw [Chip.settle_calm _ h]

theorem State.run_down (s : State) (f : Chip → Chip) (hu : s.chip.up = false) : s.run f = .next s := by
  unfold State.run
  rw [if_neg (by simp [hu])]

/-- A meaning that acts while a service runs completes with its own effect where that leaves the chip calm. -/
theorem Completes.of_run {i : Instr} {s : State} {f : Chip → Chip} {p : Chip → Prop} (hi : exec i s = s.run f)
    (hu : s.chip.up = true) (hc : (f s.chip).calm = true) (hp : p (f s.chip)) : Completes i s p :=
  ⟨_, hi.trans (s.run_calm f hu hc), rfl, hp⟩

theorem Completes.of_runAny {i : Instr} {s : State} {f : Chip → Chip} {p : Chip → Prop} (hi : exec i s = s.runAny f)
    (hc : (f s.chip).calm = true) (hp : p (f s.chip)) : Completes i s p :=
  ⟨_, hi.trans (s.runAny_calm f hc), rfl, hp⟩

/-! ### Reporting -/

/-- `d` differs from `c` by reports alone: records and source status, function and queue indications, output, counters, and the free
values that reading an index block has drawn. -/
structure Chip.OnlyReports (c d : Chip) : Prop where
  same : d = { c with flt := d.flt, funcs := d.funcs, queues := d.queues, out := d.out, ctr := d.ctr, free := d.free }
  calm : d.calm = c.calm

theorem Chip.OnlyReports.refl (c : Chip) : Chip.OnlyReports c c := ⟨rfl, rfl⟩

theorem Chip.OnlyReports.trans {c d e : Chip} (h : Chip.OnlyReports c d) (k : Chip.OnlyReports d e) : Chip.OnlyReports c e :=
  ⟨by rw [k.same, h.same], k.calm.trans h.calm⟩

theorem Chip.OnlyReports.foldl {α : Type} {g : Chip → α → Chip} (hg : ∀ c a, Chip.OnlyReports c (g c a)) (l : List α) (c : Chip) :
    Chip.OnlyReports c (l.foldl g c) := by
  induction l generalizing c with
  | nil => exact .refl c
  | cons a l ih => exact (hg c a).trans (ih (g c a))

theorem Chip.OnlyReports.ite {c : Chip} {p : Prop} [Decidable p] {a b : Chip} (ha : Chip.OnlyReports c a) (hb : Chip.OnlyReports c b) :
    Chip.OnlyReports c (if p then a else b) := by split <;> assumption

theorem Chip.OnlyReports.variant {c d : Chip} (h : Chip.OnlyReports c d) : d.variant = c.variant := by rw [h.same]
theorem Chip.OnlyReports.serial {c d : Chip} (h : Chip.OnlyReports c d) : d.serial = c.serial := by rw [h.same]
theorem Chip.OnlyReports.boot {c d : Chip} (h : Chip.OnlyReports c d) : d.boot = c.boot := by rw [h.same]
theorem Chip.OnlyReports.flash {c d : Chip} (h : Chip.OnlyReports c d) : d.flash = c.flash := by rw [h.same]
theorem Chip.OnlyReports.fw {c d : Chip} (h : Chip.OnlyReports c d) : d.fw = c.fw := by rw [h.same]
theorem Chip.OnlyReports.dict {c d : Chip} (h : Chip.OnlyReports c d) : d.dict = c.dict := by rw [h.same]
theorem Chip.OnlyReports.ports {c d : Chip} (h : Chip.OnlyReports c d) : d.ports = c.ports := by rw [h.same]
theorem Chip.OnlyReports.tr {c d : Chip} (h : Chip.OnlyReports c d) : d.tr = c.tr := by rw [h.same]
theorem Chip.OnlyReports.mt {c d : Chip} (h : Chip.OnlyReports c d) : d.mt = c.mt := by rw [h.same]
theorem Chip.OnlyReports.tg {c d : Chip} (h : Chip.OnlyReports c d) : d.tg = c.tg := by rw [h.same]
theorem Chip.OnlyReports.co {c d : Chip} (h : Chip.OnlyReports c d) : d.co = c.co := by rw [h.same]
theorem Chip.OnlyReports.mem {c d : Chip} (h : Chip.OnlyReports c d) : d.mem = c.mem := by rw [h.same]
theorem Chip.OnlyReports.br {c d : Chip} (h : Chip.OnlyReports c d) : d.br = c.br := by rw [h.same]
theorem Chip.OnlyReports.rt {c d : Chip} (h : Chip.OnlyReports c d) : d.rt = c.rt := by rw [h.same]
theorem Chip.OnlyReports.links {c d : Chip} (h : Chip.OnlyReports c d) : d.links = c.links := by rw [h.same]
theorem Chip.OnlyReports.train {c d : Chip} (h : Chip.OnlyReports c d) : d.train = c.train := by rw [h.same]
theorem Chip.OnlyReports.lanes {c d : Chip} (h : Chip.OnlyReports c d) : d.lanes = c.lanes := by rw [h.same]
theorem Chip.OnlyReports.tb {c d : Chip} (h : Chip.OnlyReports c d) : d.tb = c.tb := by rw [h.same]
theorem Chip.OnlyReports.pace {c d : Chip} (h : Chip.OnlyReports c d) : d.pace = c.pace := by rw [h.same]

theorem Chip.emit_reports (c : Chip) (o : Output) : Chip.OnlyReports c (c.emit o) := by
  unfold Chip.emit; split <;> exact ⟨rfl, rfl⟩

theorem Chip.sendMsix_reports (c : Chip) (fn v : Nat) : Chip.OnlyReports c (c.sendMsix fn v) := c.emit_reports _

theorem Chip.updFn_reports (c : Chip) (i : Nat) (f : Func → Func) : Chip.OnlyReports c (c.updFn i f) := ⟨rfl, rfl⟩

theorem Chip.signal_reports (c : Chip) (fn v : Nat) : Chip.OnlyReports c (c.signal fn v) := by
  unfold Chip.signal
  exact .ite (.refl c) (.ite (c.updFn_reports _ _) (c.sendMsix_reports _ _))

theorem Chip.urgent_reports (c : Chip) (fn : Nat) : Chip.OnlyReports c (c.urgent fn) := by
  unfold Chip.urgent
  exact .ite ((c.updFn_reports _ _).trans (Chip.sendMsix_reports _ _ _)) (c.updFn_reports _ _)

theorem Chip.bump_reports (c : Chip) (unit : Nat) (k : Ctr) (n : Nat) : Chip.OnlyReports c (c.bump unit k n) := by
  unfold Chip.bump
  exact .ite (.refl c) ⟨rfl, rfl⟩

theorem Chip.bumpFn_reports (c : Chip) (kind fn n : Nat) : Chip.OnlyReports c (c.bumpFn kind fn n) := ⟨rfl, rfl⟩

theorem Chip.eventLost_reports (c : Chip) (fn : Nat) : Chip.OnlyReports c (c.eventLost fn) :=
  (c.bumpFn_reports _ _ _).trans (Chip.updFn_reports _ _ _)

/-- A queue put in its own place, waiting for destruction as before, leaves the chip as calm as it was. -/
theorem Chip.putQueue_reports (c : Chip) (h qn : Nat) (q q' : Queue) (hq : c.queue? h qn = some q)
    (hd : q'.destroying.isSome = q.destroying.isSome) : Chip.OnlyReports c (c.putQueue h qn q') := by
  refine ⟨rfl, ?_⟩
  unfold Chip.calm Chip.putQueue
  dsimp only
  rw [Tab.any_put c.queues (qKey h qn) q' q (fun q => q.destroying.isSome) hq hd]
  rfl

theorem Chip.updQueue_reports (c : Chip) (h qn : Nat) (f : Queue → Queue) (hd : ∀ q, (f q).destroying.isSome = q.destroying.isSome) :
    Chip.OnlyReports c (c.updQueue h qn f) := by
  refine ⟨rfl, ?_⟩
  unfold Chip.calm Chip.updQueue
  dsimp only
  rw [Tab.any_adjust c.queues (qKey h qn) f (fun q => q.destroying.isSome) hd]
  rfl

theorem Chip.emit_queue? (c : Chip) (o : Output) (h qn : Nat) : (c.emit o).queue? h qn = c.queue? h qn := by
  unfold Chip.emit; split <;> rfl

theorem Chip.drawn_reports (c : Chip) : Chip.OnlyReports c c.drawn := ⟨rfl, rfl⟩

theorem Chip.setQState_reports (c : Chip) (h qn : Nat) (st : QState) (cause : Nat) : Chip.OnlyReports c (c.setQState h qn st cause) := by
  unfold Chip.setQState
  split
  · exact .refl c
  · rename_i q hq
    exact (c.putQueue_reports h qn q { q with state := st, cause := cause } hq rfl).trans (Chip.emit_reports _ _)

theorem Chip.writeEvent_reports (c : Chip) (h eqn : Nat) (q q' : Queue) (words : List Word) (hq : c.queue? h eqn = some q)
    (hd : q'.destroying.isSome = q.destroying.isSome) : Chip.OnlyReports c (c.writeEvent h eqn q' words) := by
  unfold Chip.writeEvent
  extract_lets c1 c2 c3
  have h2 : Chip.OnlyReports c c2 := (c.emit_reports _).trans (Chip.emit_reports _ _)
  have hq2 : c2.queue? h eqn = some q := by rw [Chip.emit_queue?, Chip.emit_queue?, hq]
  have h3 : Chip.OnlyReports c c3 := h2.trans (c2.putQueue_reports h eqn q _ hq2 hd)
  exact .ite (h3.trans (Chip.signal_reports _ _ _)) h3

theorem Chip.postEvent_reports (c : Chip) (fn code unit qn detail : Nat) : Chip.OnlyReports c (c.postEvent fn code unit qn detail) := by
  unfold Chip.postEvent
  extract_lets f h words
  split
  · exact .refl c
  · split
    · exact c.eventLost_reports fn
    · rename_i q hq
      have hq : c.queue? h f.eqn = some q := by
        revert hq; split
        · exact fun h => h
        · intro h; contradiction
      split
      · exact c.eventLost_reports fn
      · split
        · exact c.writeEvent_reports h _ q q words hq rfl
        · have h1 : Chip.OnlyReports c c.drawn := c.drawn_reports
          split
          · exact (h1.trans (c.drawn.setQState_reports _ _ _ _)).trans (Chip.eventLost_reports _ _)
          · split
            · exact (h1.trans (c.drawn.putQueue_reports h f.eqn q { q with ci := c.ciNow } hq rfl)).trans (Chip.eventLost_reports _ _)
            · exact h1.trans (c.drawn.writeEvent_reports h _ q _ words hq rfl)

theorem Chip.eventPFs_reports (c : Chip) (code unit qn detail : Nat) : Chip.OnlyReports c (c.eventPFs code unit qn detail) :=
  Chip.OnlyReports.foldl (fun c _ => c.postEvent_reports ..) _ _

theorem Chip.setSrc_reports (c : Chip) (unit cause : Nat) (s : Source) : Chip.OnlyReports c (c.setSrc unit cause s) := ⟨rfl, rfl⟩

theorem Faults.foldl_close (l : List Record) (f : Faults) :
    (l.foldl Faults.close f).resetDue = f.resetDue ∧ (l.foldl Faults.close f).due = f.due := by
  induction l generalizing f with
  | nil => exact ⟨rfl, rfl⟩
  | cons r l ih => exact ih (f.close r)

theorem Chip.kerfClose_reports (c : Chip) : Chip.OnlyReports c c.kerfClose := by
  refine ⟨rfl, ?_⟩
  unfold Chip.calm Chip.kerfClose
  dsimp only
  rw [(Faults.foldl_close _ _).1, (Faults.foldl_close _ _).2]
  rfl

theorem Chip.enterRecord_reports (c : Chip) (unit cause skind subject : Nat) (d0 d1 : Word) :
    Chip.OnlyReports c (c.enterRecord unit cause skind subject d0 d1) := by
  refine c.kerfClose_reports.trans ?_
  unfold Chip.enterRecord
  generalize c.kerfClose = c
  extract_lets src same
  split
  · exact .ite ⟨rfl, rfl⟩ ⟨rfl, rfl⟩
  · exact .ite ⟨rfl, rfl⟩ ⟨rfl, rfl⟩

theorem Chip.urgentAll_reports (c : Chip) : Chip.OnlyReports c c.urgentAll :=
  Chip.OnlyReports.foldl (fun c _ => .ite (c.urgent_reports _) (.refl c)) _ _

theorem Chip.routeFault_reports (c : Chip) : Chip.OnlyReports c c.routeFault :=
  Chip.OnlyReports.foldl (fun c _ => .ite ((c.updFn_reports _ _).trans (Chip.signal_reports _ _ _)) (.refl c)) _ _

/-- A reaction of 0 to 2 reports and does nothing else (R455). -/
theorem Chip.react_reports (c : Chip) (unit cause skind subject : Nat) (d0 d1 : Word) (pended : Bool)
    (h : c.reactionOf unit cause ≤ 2) : Chip.OnlyReports c (c.react unit cause skind subject d0 d1 pended) := by
  unfold Chip.react
  unfold Chip.reactionOf at h
  extract_lets ctl
  split
  · exact .ite (.refl c) c.routeFault_reports
  · exact .ite (.refl c) (c.urgentAll_reports.trans (Chip.eventPFs_reports ..))
  · rename_i e; rw [e] at h; omega
  · rename_i e; rw [e] at h; omega
  · exact .refl c

theorem Chip.OnlyReports.control {c d : Chip} (h : Chip.OnlyReports c d) (unit cause : Nat) : d.control unit cause = c.control unit cause := by
  unfold Chip.control Chip.param
  rw [h.variant, h.serial, h.boot, h.dict]

/-- An occurrence of a source that reports leaves everything but the reports (R455). -/
theorem Chip.occurrence_reports (c : Chip) (unit cause skind subject : Nat) (d0 d1 : Word) (h : c.reactionOf unit cause ≤ 2) :
    Chip.OnlyReports c (c.occurrence unit cause skind subject d0 d1) := by
  unfold Chip.occurrence
  split
  · exact .refl c
  · extract_lets s c1
    have h1 : Chip.OnlyReports c c1 := (c.setSrc_reports ..).trans (Chip.enterRecord_reports ..)
    exact h1.trans (c1.react_reports _ _ _ _ _ _ _ (by unfold Chip.reactionOf; rw [h1.control]; exact h))

theorem Chip.raise_reports (c : Chip) (unit cause skind subject : Nat) (d0 d1 : Word) (h : c.reactionOf unit cause ≤ 2) :
    Chip.OnlyReports c (c.raise unit cause skind subject d0 d1) := c.occurrence_reports _ _ _ _ _ _ h

theorem Chip.setCond_reports (c : Chip) (unit cause : Nat) (on : Bool) (skind subject : Nat) (d0 : Word)
    (h : on = true → c.reactionOf unit cause ≤ 2) : Chip.OnlyReports c (c.setCond unit cause on skind subject d0) := by
  unfold Chip.setCond
  split
  · exact .refl c
  · extract_lets s c1
    have h1 : Chip.OnlyReports c c1 := c.setSrc_reports ..
    split
    · exact .refl c
    · split
      · exact h1.trans (c1.occurrence_reports _ _ _ _ _ _ (by unfold Chip.reactionOf; rw [h1.control]; exact h ‹_›))
      · exact h1

end Sys2Proof.Machine
end

