-- ==== Sys2Proof/Laws/Calm.lean ====
section
/-! SUPPORT. Which operations leave the chip as calm as it was, one lemma for each: what is due, what is finished, what waits for the end
of a packet and which queue is being destroyed stay as they were. -/

set_option linter.all false
namespace Sys2Proof.Machine
set_option Elab.async false
@[simp] theorem foldl_calm {α : Type} {g : Chip → α → Chip} (hg : ∀ c a, (g c a).calm = c.calm) (l : List α) (c : Chip) :
    (l.foldl g c).calm = c.calm := by
  induction l generalizing c with
  | nil => rfl
  | cons a l ih => rw [List.foldl_cons, ih, hg]
theorem pair_calm {α : Type} {p : Chip × α} {c d : Chip} {k : α} (e : p = (d, k)) (h : p.1.calm = c.calm) : d.calm = c.calm := by
  rw [e] at h; exact h
@[simp] theorem calm_mk0 (c : Chip) {variant serial boot flash fw dict ports funcs fifos mt co mem rt lanes tb pace ctr free out} :
    (Chip.mk variant serial boot flash fw dict ports funcs fifos c.queues c.tr mt c.tg co mem c.br rt c.links c.train lanes tb pace ctr c.flt free out).calm = c.calm := rfl
@[simp] theorem calm_mk1 (c : Chip) {variant serial boot flash fw dict ports funcs fifos mt co mem rt lanes tb pace ctr free out tr_chans tr_dests tr_parked tr_hostReads tr_nextRead tr_arrivals tr_resident tr_victims tr_evicting} :
    (Chip.mk variant serial boot flash fw dict ports funcs fifos c.queues (Transport.mk tr_chans tr_dests tr_parked tr_hostReads tr_nextRead c.tr.finished tr_arrivals tr_resident tr_victims tr_evicting) mt c.tg co mem c.br rt c.links c.train lanes tb pace ctr c.flt free out).calm = c.calm := rfl
@[simp] theorem calm_mk2 (c : Chip) {variant serial boot flash fw dict ports funcs fifos mt co mem rt lanes tb pace ctr free out flt_sources flt_openRecs flt_closedRecs flt_nextRseq flt_unrecorded flt_pendingUnrec flt_unrecFirst flt_unrecLast flt_inReset flt_heldUnits flt_resets flt_stalled} :
    (Chip.mk variant serial boot flash fw dict ports funcs fifos c.queues c.tr mt c.tg co mem c.br rt c.links c.train lanes tb pace ctr (Faults.mk flt_sources flt_openRecs flt_closedRecs flt_nextRseq flt_unrecorded flt_pendingUnrec flt_unrecFirst flt_unrecLast flt_inReset flt_heldUnits flt_resets c.flt.due c.flt.resetDue flt_stalled) free out).calm = c.calm := rfl
@[simp] theorem calm_mk3 (c : Chip) {variant serial boot flash fw dict ports funcs fifos mt co mem rt lanes tb pace ctr free out tr_chans tr_dests tr_parked tr_hostReads tr_nextRead tr_arrivals tr_resident tr_victims tr_evicting flt_sources flt_openRecs flt_closedRecs flt_nextRseq flt_unrecorded flt_pendingUnrec flt_unrecFirst flt_unrecLast flt_inReset flt_heldUnits flt_resets flt_stalled} :
    (Chip.mk variant serial boot flash fw dict ports funcs fifos c.queues (Transport.mk tr_chans tr_dests tr_parked tr_hostReads tr_nextRead c.tr.finished tr_arrivals tr_resident tr_victims tr_evicting) mt c.tg co mem c.br rt c.links c.train lanes tb pace ctr (Faults.mk flt_sources flt_openRecs flt_closedRecs flt_nextRseq flt_unrecorded flt_pendingUnrec flt_unrecFirst flt_unrecLast flt_inReset flt_heldUnits flt_resets c.flt.due c.flt.resetDue flt_stalled) free out).calm = c.calm := rfl
@[simp] theorem calm_mk4 (c : Chip) {variant serial boot flash fw dict ports funcs fifos mt co mem rt lanes tb pace ctr free out tg_ctrs tg_held} :
    (Chip.mk variant serial boot flash fw dict ports funcs fifos c.queues c.tr mt (Trigger.mk tg_ctrs tg_held c.tg.due) co mem c.br rt c.links c.train lanes tb pace ctr c.flt free out).calm = c.calm := rfl
@[simp] theorem calm_mk5 (c : Chip) {variant serial boot flash fw dict ports funcs fifos mt co mem rt lanes tb pace ctr free out tr_chans tr_dests tr_parked tr_hostReads tr_nextRead tr_arrivals tr_resident tr_victims tr_evicting tg_ctrs tg_held} :
    (Chip.mk variant serial boot flash fw dict ports funcs fifos c.queues (Transport.mk tr_chans tr_dests tr_parked tr_hostReads tr_nextRead c.tr.finished tr_arrivals tr_resident tr_victims tr_evicting) mt (Trigger.mk tg_ctrs tg_held c.tg.due) co mem c.br rt c.links c.train lanes tb pace ctr c.flt free out).calm = c.calm := rfl
@[simp] theorem calm_mk6 (c : Chip) {variant serial boot flash fw dict ports funcs fifos mt co mem rt lanes tb pace ctr free out flt_sources flt_openRecs flt_closedRecs flt_nextRseq flt_unrecorded flt_pendingUnrec flt_unrecFirst flt_unrecLast flt_inReset flt_heldUnits flt_resets flt_stalled tg_ctrs tg_held} :
    (Chip.mk variant serial boot flash fw dict ports funcs fifos c.queues c.tr mt (Trigger.mk tg_ctrs tg_held c.tg.due) co mem c.br rt c.links c.train lanes tb pace ctr (Faults.mk flt_sources flt_openRecs flt_closedRecs flt_nextRseq flt_unrecorded flt_pendingUnrec flt_unrecFirst flt_unrecLast flt_inReset flt_heldUnits flt_resets c.flt.due c.flt.resetDue flt_stalled) free out).calm = c.calm := rfl
@[simp] theorem calm_mk7 (c : Chip) {variant serial boot flash fw dict ports funcs fifos mt co mem rt lanes tb pace ctr free out tr_chans tr_dests tr_parked tr_hostReads tr_nextRead tr_arrivals tr_resident tr_victims tr_evicting flt_sources flt_openRecs flt_closedRecs flt_nextRseq flt_unrecorded flt_pendingUnrec flt_unrecFirst flt_unrecLast flt_inReset flt_heldUnits flt_resets flt_stalled tg_ctrs tg_held} :
    (Chip.mk variant serial boot flash fw dict ports funcs fifos c.queues (Transport.mk tr_chans tr_dests tr_parked tr_hostReads tr_nextRead c.tr.finished tr_arrivals tr_resident tr_victims tr_evicting) mt (Trigger.mk tg_ctrs tg_held c.tg.due) co mem c.br rt c.links c.train lanes tb pace ctr (Faults.mk flt_sources flt_openRecs flt_closedRecs flt_nextRseq flt_unrecorded flt_pendingUnrec flt_unrecFirst flt_unrecLast flt_inReset flt_heldUnits flt_resets c.flt.due c.flt.resetDue flt_stalled) free out).calm = c.calm := rfl
@[simp] theorem calm_mk8 (c : Chip) {variant serial boot flash fw dict ports funcs fifos mt co mem rt lanes tb pace ctr free out br_ops br_merges br_lines br_status br_nextId} :
    (Chip.mk variant serial boot flash fw dict ports funcs fifos c.queues c.tr mt c.tg co mem (Bridge.mk br_ops br_merges br_lines br_status br_nextId c.br.waiting) rt c.links c.train lanes tb pace ctr c.flt free out).calm = c.calm := rfl
@[simp] theorem calm_mk9 (c : Chip) {variant serial boot flash fw dict ports funcs fifos mt co mem rt lanes tb pace ctr free out tr_chans tr_dests tr_parked tr_hostReads tr_nextRead tr_arrivals tr_resident tr_victims tr_evicting br_ops br_merges br_lines br_status br_nextId} :
    (Chip.mk variant serial boot flash fw dict ports funcs fifos c.queues (Transport.mk tr_chans tr_dests tr_parked tr_hostReads tr_nextRead c.tr.finished tr_arrivals tr_resident tr_victims tr_evicting) mt c.tg co mem (Bridge.mk br_ops br_merges br_lines br_status br_nextId c.br.waiting) rt c.links c.train lanes tb pace ctr c.flt free out).calm = c.calm := rfl
@[simp] theorem calm_mk10 (c : Chip) {variant serial boot flash fw dict ports funcs fifos mt co mem rt lanes tb pace ctr free out flt_sources flt_openRecs flt_closedRecs flt_nextRseq flt_unrecorded flt_pendingUnrec flt_unrecFirst flt_unrecLast flt_inReset flt_heldUnits flt_resets flt_stalled br_ops br_merges br_lines br_status br_nextId} :
    (Chip.mk variant serial boot flash fw dict ports funcs fifos c.queues c.tr mt c.tg co mem (Bridge.mk br_ops br_merges br_lines br_status br_nextId c.br.waiting) rt c.links c.train lanes tb pace ctr (Faults.mk flt_sources flt_openRecs flt_closedRecs flt_nextRseq flt_unrecorded flt_pendingUnrec flt_unrecFirst flt_unrecLast flt_inReset flt_heldUnits flt_resets c.flt.due c.flt.resetDue flt_stalled) free out).calm = c.calm := rfl
@[simp] theorem calm_mk11 (c : Chip) {variant serial boot flash fw dict ports funcs fifos mt co mem rt lanes tb pace ctr free out tr_chans tr_dests tr_parked tr_hostReads tr_nextRead tr_arrivals tr_resident tr_victims tr_evicting flt_sources flt_openRecs flt_closedRecs flt_nextRseq flt_unrecorded flt_pendingUnrec flt_unrecFirst flt_unrecLast flt_inReset flt_heldUnits flt_resets flt_stalled br_ops br_merges br_lines br_status br_nextId} :
    (Chip.mk variant serial boot flash fw dict ports funcs fifos c.queues (Transport.mk tr_chans tr_dests tr_parked tr_hostReads tr_nextRead c.tr.finished tr_arrivals tr_resident tr_victims tr_evicting) mt c.tg co mem (Bridge.mk br_ops br_merges br_lines br_status br_nextId c.br.waiting) rt c.links c.train lanes tb pace ctr (Faults.mk flt_sources flt_openRecs flt_closedRecs flt_nextRseq flt_unrecorded flt_pendingUnrec flt_unrecFirst flt_unrecLast flt_inReset flt_heldUnits flt_resets c.flt.due c.flt.resetDue flt_stalled) free out).calm = c.calm := rfl
@[simp] theorem calm_mk12 (c : Chip) {variant serial boot flash fw dict ports funcs fifos mt co mem rt lanes tb pace ctr free out tg_ctrs tg_held br_ops br_merges br_lines br_status br_nextId} :
    (Chip.mk variant serial boot flash fw dict ports funcs fifos c.queues c.tr mt (Trigger.mk tg_ctrs tg_held c.tg.due) co mem (Bridge.mk br_ops br_merges br_lines br_status br_nextId c.br.waiting) rt c.links c.train lanes tb pace ctr c.flt free out).calm = c.calm := rfl
@[simp] theorem calm_mk13 (c : Chip) {variant serial boot flash fw dict ports funcs fifos mt co mem rt lanes tb pace ctr free out tr_chans tr_dests tr_parked tr_hostReads tr_nextRead tr_arrivals tr_resident tr_victims tr_evicting tg_ctrs tg_held br_ops br_merges br_lines br_status br_nextId} :
    (Chip.mk variant serial boot flash fw dict ports funcs fifos c.queues (Transport.mk tr_chans tr_dests tr_parked tr_hostReads tr_nextRead c.tr.finished tr_arrivals tr_resident tr_victims tr_evicting) mt (Trigger.mk tg_ctrs tg_held c.tg.due) co mem (Bridge.mk br_ops br_merges br_lines br_status br_nextId c.br.waiting) rt c.links c.train lanes tb pace ctr c.flt free out).calm = c.calm := rfl
@[simp] theorem calm_mk14 (c : Chip) {variant serial boot flash fw dict ports funcs fifos mt co mem rt lanes tb pace ctr free out flt_sources flt_openRecs flt_closedRecs flt_nextRseq flt_unrecorded flt_pendingUnrec flt_unrecFirst flt_unrecLast flt_inReset flt_heldUnits flt_resets flt_stalled tg_ctrs tg_held br_ops br_merges br_lines br_status br_nextId} :
    (Chip.mk variant serial boot flash fw dict ports funcs fifos c.queues c.tr mt (Trigger.mk tg_ctrs tg_held c.tg.due) co mem (Bridge.mk br_ops br_merges br_lines br_status br_nextId c.br.waiting) rt c.links c.train lanes tb pace ctr (Faults.mk flt_sources flt_openRecs flt_closedRecs flt_nextRseq flt_unrecorded flt_pendingUnrec flt_unrecFirst flt_unrecLast flt_inReset flt_heldUnits flt_resets c.flt.due c.flt.resetDue flt_stalled) free out).calm = c.calm := rfl
@[simp] theorem calm_mk15 (c : Chip) {variant serial boot flash fw dict ports funcs fifos mt co mem rt lanes tb pace ctr free out tr_chans tr_dests tr_parked tr_hostReads tr_nextRead tr_arrivals tr_resident tr_victims tr_evicting flt_sources flt_openRecs flt_closedRecs flt_nextRseq flt_unrecorded flt_pendingUnrec flt_unrecFirst flt_unrecLast flt_inReset flt_heldUnits flt_resets flt_stalled tg_ctrs tg_held br_ops br_merges br_lines br_status br_nextId} :
    (Chip.mk variant serial boot flash fw dict ports funcs fifos c.queues (Transport.mk tr_chans tr_dests tr_parked tr_hostReads tr_nextRead c.tr.finished tr_arrivals tr_resident tr_victims tr_evicting) mt (Trigger.mk tg_ctrs tg_held c.tg.due) co mem (Bridge.mk br_ops br_merges br_lines br_status br_nextId c.br.waiting) rt c.links c.train lanes tb pace ctr (Faults.mk flt_sources flt_openRecs flt_closedRecs flt_nextRseq flt_unrecorded flt_pendingUnrec flt_unrecFirst flt_unrecLast flt_inReset flt_heldUnits flt_resets c.flt.due c.flt.resetDue flt_stalled) free out).calm = c.calm := rfl
@[simp] theorem Chip.setParam_calm (c : Chip) (area obj e x : Nat) : (c.setParam area obj e x).calm = c.calm := by
  unfold Chip.setParam
  repeat' first | (simp; done) | (dsimp only; split) | split | (rw [foldl_calm] <;> intros) | (have hk := congrArg (fun r => r.1.calm) ‹_ = (_, _)›; simp_all; done) | (simp_all; done)

@[simp] theorem Chip.updFn_calm (c : Chip) (i : Nat) (f : Func → Func) : (c.updFn i f).calm = c.calm := by
  unfold Chip.updFn
  repeat' first | (simp; done) | (dsimp only; split) | split | (rw [foldl_calm] <;> intros) | (have hk := congrArg (fun r => r.1.calm) ‹_ = (_, _)›; simp_all; done) | (simp_all; done)

@[simp] theorem Chip.updPort_calm (c : Chip) (h : Nat) (f : HostPort → HostPort) : (c.updPort h f).calm = c.calm := by
  unfold Chip.updPort
  repeat' first | (simp; done) | (dsimp only; split) | split | (rw [foldl_calm] <;> intros) | (have hk := congrArg (fun r => r.1.calm) ‹_ = (_, _)›; simp_all; done) | (simp_all; done)

@[simp] theorem Chip.emit_calm (c : Chip) (o : Output) : (c.emit o).calm = c.calm := by
  exact (Chip.emit_reports ..).calm

@[simp] theorem Chip.drawn_calm (c : Chip)  : (c.drawn).calm = c.calm := by
  unfold Chip.drawn
  repeat' first | (simp; done) | (dsimp only; split) | split | (rw [foldl_calm] <;> intros) | (have hk := congrArg (fun r => r.1.calm) ‹_ = (_, _)›; simp_all; done) | (simp_all; done)

@[simp] theorem Chip.drawnBy_calm (c : Chip) (n : Nat) : (c.drawnBy n).calm = c.calm := by
  unfold Chip.drawnBy
  repeat' first | (simp; done) | (dsimp only; split) | split | (rw [foldl_calm] <;> intros) | (have hk := congrArg (fun r => r.1.calm) ‹_ = (_, _)›; simp_all; done) | (simp_all; done)

@[simp] theorem Chip.bump_calm (c : Chip) (unit : Nat) (k : Ctr) (n : Nat) : (c.bump unit k n).calm = c.calm := by
  exact (Chip.bump_reports ..).calm

@[simp] theorem Chip.bumpFn_calm (c : Chip) (kind fn : Nat) (n : Nat) : (c.bumpFn kind fn n).calm = c.calm := by
  exact (Chip.bumpFn_reports ..).calm

@[simp] theorem Chip.sendMsix_calm (c : Chip) (fn v : Nat) : (c.sendMsix fn v).calm = c.calm := by
  exact (Chip.sendMsix_reports ..).calm

@[simp] theorem Chip.signal_calm (c : Chip) (fn v : Nat) : (c.signal fn v).calm = c.calm := by
  exact (Chip.signal_reports ..).calm

@[simp] theorem Chip.urgent_calm (c : Chip) (fn : Nat) : (c.urgent fn).calm = c.calm := by
  exact (Chip.urgent_reports ..).calm

@[simp] theorem Chip.eventLost_calm (c : Chip) (fn : Nat) : (c.eventLost fn).calm = c.calm := by
  exact (Chip.eventLost_reports ..).calm

@[simp] theorem Chip.postEvent_calm (c : Chip) (fn code unit qn detail : Nat) : (c.postEvent fn code unit qn detail).calm = c.calm := by
  exact (Chip.postEvent_reports ..).calm

@[simp] theorem Chip.eventPFs_calm (c : Chip) (code unit qn detail : Nat) : (c.eventPFs code unit qn detail).calm = c.calm := by
  exact (Chip.eventPFs_reports ..).calm

@[simp] theorem Chip.setSrc_calm (c : Chip) (unit cause : Nat) (s : Source) : (c.setSrc unit cause s).calm = c.calm := by
  exact (Chip.setSrc_reports ..).calm

@[simp] theorem Chip.kerfClose_calm (c : Chip)  : (c.kerfClose).calm = c.calm := by
  exact (Chip.kerfClose_reports ..).calm

@[simp] theorem Chip.closeUnrecorded_calm (c : Chip)  : (c.closeUnrecorded).calm = c.calm := by
  unfold Chip.closeUnrecorded
  split
  · rfl
  · unfold Chip.calm Faults.close; rfl

@[simp] theorem Chip.enterRecord_calm (c : Chip) (unit cause skind subject : Nat) (d0 d1 : Word) : (c.enterRecord unit cause skind subject d0 d1).calm = c.calm := by
  exact (Chip.enterRecord_reports ..).calm

@[simp] theorem Chip.setHeld_calm (c : Chip) (unit : Nat) (on : Bool) : (c.setHeld unit on).calm = c.calm := by
  unfold Chip.setHeld
  repeat' first | (simp; done) | (dsimp only; split) | split | (rw [foldl_calm] <;> intros) | (have hk := congrArg (fun r => r.1.calm) ‹_ = (_, _)›; simp_all; done) | (simp_all; done)

@[simp] theorem Chip.routeFault_calm (c : Chip)  : (c.routeFault).calm = c.calm := by
  exact (Chip.routeFault_reports ..).calm

@[simp] theorem Chip.urgentAll_calm (c : Chip)  : (c.urgentAll).calm = c.calm := by
  exact (Chip.urgentAll_reports ..).calm

@[simp] theorem Chip.unitHeldOccurs_calm (c : Chip) (unit : Nat) : (c.unitHeldOccurs unit).calm = c.calm := by
  unfold Chip.unitHeldOccurs
  repeat' first | (simp; done) | (dsimp only; split) | split | (rw [foldl_calm] <;> intros) | (have hk := congrArg (fun r => r.1.calm) ‹_ = (_, _)›; simp_all; done) | (simp_all; done)

@[simp] theorem Chip.arrive_calm (c : Chip) (inp : Nat) (p : Packet) (pool : Bool) : (c.arrive inp p pool).calm = c.calm := by
  unfold Chip.arrive
  repeat' first | (simp; done) | (dsimp only; split) | split | (rw [foldl_calm] <;> intros) | (have hk := congrArg (fun r => r.1.calm) ‹_ = (_, _)›; simp_all; done) | (simp_all; done)

@[simp] theorem Chip.inject_calm (c : Chip) (h : Nat) (p : Packet) : (c.inject h p).calm = c.calm := by
  unfold Chip.inject
  repeat' first | (simp; done) | (dsimp only; split) | split | (rw [foldl_calm] <;> intros) | (have hk := congrArg (fun r => r.1.calm) ‹_ = (_, _)›; simp_all; done) | (simp_all; done)

@[simp] theorem Chip.injectShim_calm (c : Chip) (kind dst : Nat) (w0 w1 w2 w3 : Word) : (c.injectShim kind dst w0 w1 w2 w3).calm = c.calm := by
  unfold Chip.injectShim
  repeat' first | (simp; done) | (dsimp only; split) | split | (rw [foldl_calm] <;> intros) | (have hk := congrArg (fun r => r.1.calm) ‹_ = (_, _)›; simp_all; done) | (simp_all; done)

@[simp] theorem Chip.hbmWrite_calm (c : Chip) (a : Nat) (l : List Byte) : (c.hbmWrite a l).calm = c.calm := by
  unfold Chip.hbmWrite
  repeat' first | (simp; done) | (dsimp only; split) | split | (rw [foldl_calm] <;> intros) | (have hk := congrArg (fun r => r.1.calm) ‹_ = (_, _)›; simp_all; done) | (simp_all; done)

@[simp] theorem Chip.dmaSegments_calm (c : Chip) (h fn : Nat) (z0 : List (Nat × Nat)) (z1 : List Byte) : (c.dmaSegments h fn z0 z1).calm = c.calm := by
  induction z0 generalizing c h fn z1 <;> unfold Chip.dmaSegments <;> repeat' first | (simp; done) | (dsimp only; split) | split | (rw [foldl_calm] <;> intros) | (have hk := congrArg (fun r => r.1.calm) ‹_ = (_, _)›; simp_all; done) | (simp_all; done)

@[simp] theorem Chip.freezeRoutes_calm (c : Chip)  : (c.freezeRoutes).calm = c.calm := by
  unfold Chip.freezeRoutes
  repeat' first | (simp; done) | (dsimp only; split) | split | (rw [foldl_calm] <;> intros) | (have hk := congrArg (fun r => r.1.calm) ‹_ = (_, _)›; simp_all; done) | (simp_all; done)

@[simp] theorem Chip.putChan_calm (c : Chip) (k : Nat) (x : Chan) : (c.putChan k x).calm = c.calm := by
  unfold Chip.putChan
  repeat' first | (simp; done) | (dsimp only; split) | split | (rw [foldl_calm] <;> intros) | (have hk := congrArg (fun r => r.1.calm) ‹_ = (_, _)›; simp_all; done) | (simp_all; done)

@[simp] theorem Chip.updChan_calm (c : Chip) (k : Nat) (f : Chan → Chan) : (c.updChan k f).calm = c.calm := by
  unfold Chip.updChan
  repeat' first | (simp; done) | (dsimp only; split) | split | (rw [foldl_calm] <;> intros) | (have hk := congrArg (fun r => r.1.calm) ‹_ = (_, _)›; simp_all; done) | (simp_all; done)

@[simp] theorem Chip.putDest_calm (c : Chip) (chip : Nat) (d : Dest) : (c.putDest chip d).calm = c.calm := by
  unfold Chip.putDest
  repeat' first | (simp; done) | (dsimp only; split) | split | (rw [foldl_calm] <;> intros) | (have hk := congrArg (fun r => r.1.calm) ‹_ = (_, _)›; simp_all; done) | (simp_all; done)

@[simp] theorem Chip.ecnFrom_calm (c : Chip) (chip : Nat) : (c.ecnFrom chip).calm = c.calm := by
  unfold Chip.ecnFrom
  repeat' first | (simp; done) | (dsimp only; split) | split | (rw [foldl_calm] <;> intros) | (have hk := congrArg (fun r => r.1.calm) ‹_ = (_, _)›; simp_all; done) | (simp_all; done)

@[simp] theorem Chip.retiredTo_calm (c : Chip) (chip n : Nat) : (c.retiredTo chip n).calm = c.calm := by
  unfold Chip.retiredTo
  repeat' first | (simp; done) | (dsimp only; split) | split | (rw [foldl_calm] <;> intros) | (have hk := congrArg (fun r => r.1.calm) ‹_ = (_, _)›; simp_all; done) | (simp_all; done)

@[simp] theorem Chip.heardFrom_calm (c : Chip) (chip : Nat) : (c.heardFrom chip).calm = c.calm := by
  unfold Chip.heardFrom
  repeat' first | (simp; done) | (dsimp only; split) | split | (rw [foldl_calm] <;> intros) | (have hk := congrArg (fun r => r.1.calm) ‹_ = (_, _)›; simp_all; done) | (simp_all; done)

@[simp] theorem Chip.policerDebit_calm (c : Chip) (fn cells : Nat) : (c.policerDebit fn cells).calm = c.calm := by
  unfold Chip.policerDebit
  repeat' first | (simp; done) | (dsimp only; split) | split | (rw [foldl_calm] <;> intros) | (have hk := congrArg (fun r => r.1.calm) ‹_ = (_, _)›; simp_all; done) | (simp_all; done)

@[simp] theorem Chip.countInjected_calm (c : Chip) (fn : Option Nat) (p : Packet) : (c.countInjected fn p).calm = c.calm := by
  unfold Chip.countInjected
  repeat' first | (simp; done) | (dsimp only; split) | split | (rw [foldl_calm] <;> intros) | (have hk := congrArg (fun r => r.1.calm) ‹_ = (_, _)›; simp_all; done) | (simp_all; done)

@[simp] theorem Chip.sendRequest_calm (c : Chip) (k : Nat) (fn : Option Nat) (p : Packet) : (c.sendRequest k fn p).calm = c.calm := by
  unfold Chip.sendRequest
  repeat' first | (simp; done) | (dsimp only; split) | split | (rw [foldl_calm] <;> intros) | (have hk := congrArg (fun r => r.1.calm) ‹_ = (_, _)›; simp_all; done) | (simp_all; done)

@[simp] theorem Chip.transmit_calm (c : Chip) (k : Nat) (fn : Option Nat) (p : Packet) : (c.transmit k fn p).calm = c.calm := by
  unfold Chip.transmit
  repeat' first | (simp; done) | (dsimp only; split) | split | (rw [foldl_calm] <;> intros) | (have hk := congrArg (fun r => r.1.calm) ‹_ = (_, _)›; simp_all; done) | (simp_all; done)

@[simp] theorem Chip.pump_calm (c : Chip) (k : Nat) (z0 : Nat) : (c.pump k z0).calm = c.calm := by
  induction z0 generalizing c k <;> unfold Chip.pump <;> repeat' first | (simp; done) | (dsimp only; split) | split | (rw [foldl_calm] <;> intros) | (have hk := congrArg (fun r => r.1.calm) ‹_ = (_, _)›; simp_all; done) | (simp_all; done)

@[simp] theorem Chip.sendSync_calm (c : Chip) (k : Nat) : (c.sendSync k).calm = c.calm := by
  unfold Chip.sendSync
  repeat' first | (simp; done) | (dsimp only; split) | split | (rw [foldl_calm] <;> intros) | (have hk := congrArg (fun r => r.1.calm) ‹_ = (_, _)›; simp_all; done) | (simp_all; done)

@[simp] theorem Chip.startSync_calm (c : Chip) (k : Nat) : (c.startSync k).calm = c.calm := by
  unfold Chip.startSync
  repeat' first | (simp; done) | (dsimp only; split) | split | (rw [foldl_calm] <;> intros) | (have hk := congrArg (fun r => r.1.calm) ‹_ = (_, _)›; simp_all; done) | (simp_all; done)

@[simp] theorem Chip.dropOffer_calm (c : Chip) (index : Nat) : (c.dropOffer index).calm = c.calm := by
  unfold Chip.dropOffer
  repeat' first | (simp; done) | (dsimp only; split) | split | (rw [foldl_calm] <;> intros) | (have hk := congrArg (fun r => r.1.calm) ‹_ = (_, _)›; simp_all; done) | (simp_all; done)

@[simp] theorem Chip.retire_calm (c : Chip) (k : Nat) (p : OutPkt → Bool) (ecne : Bool) : (c.retire k p ecne).calm = c.calm := by
  unfold Chip.retire
  repeat' first | (simp; done) | (dsimp only; split) | split | (rw [foldl_calm] <;> intros) | (have hk := congrArg (fun r => r.1.calm) ‹_ = (_, _)›; simp_all; done) | (simp_all; done)

@[simp] theorem Chip.contextOut_calm (c : Chip) (ctx : CtxKey) : (c.contextOut ctx).calm = c.calm := by
  unfold Chip.contextOut
  repeat' first | (simp; done) | split
  cases c.queue? _ _ <;> simp

@[simp] theorem Chip.evict_calm (c : Chip) (v : CtxKey) : (c.evict v).calm = c.calm := by
  unfold Chip.evict
  repeat' first | (simp; done) | (dsimp only; split) | split | (rw [foldl_calm] <;> intros) | (have hk := congrArg (fun r => r.1.calm) ‹_ = (_, _)›; simp_all; done) | (simp_all; done)

@[simp] theorem Chip.install_calm (c : Chip) (ctx : CtxKey) : (c.install ctx).calm = c.calm := by
  unfold Chip.install
  repeat' first | (simp; done) | (dsimp only; split) | split | (rw [foldl_calm] <;> intros) | (have hk := congrArg (fun r => r.1.calm) ‹_ = (_, _)›; simp_all; done) | (simp_all; done)

@[simp] theorem Chip.touch_calm (c : Chip) (ctx : CtxKey) : (c.touch ctx).calm = c.calm := by
  unfold Chip.touch
  repeat' first | (simp; done) | (dsimp only; split) | split | (rw [foldl_calm] <;> intros) | (have hk := congrArg (fun r => r.1.calm) ‹_ = (_, _)›; simp_all; done) | (simp_all; done)

@[simp] theorem Chip.beginFetch_calm (c : Chip) (ctx : CtxKey) : (c.beginFetch ctx).calm = c.calm := by
  unfold Chip.beginFetch
  split
  · rfl
  · dsimp only
    split
    · exact calm_mk1 c.drawn
    · rfl

@[simp] theorem Chip.endFetch_calm (c : Chip) (ctx : CtxKey) : (c.endFetch ctx).calm = c.calm := by
  unfold Chip.endFetch
  repeat' first | (simp; done) | (dsimp only; split) | split | (rw [foldl_calm] <;> intros) | (have hk := congrArg (fun r => r.1.calm) ‹_ = (_, _)›; simp_all; done) | (simp_all; done)

@[simp] theorem Chip.chanUnfence_calm (c : Chip) (k : Nat) : (c.chanUnfence k).calm = c.calm := by
  unfold Chip.chanUnfence
  repeat' first | (simp; done) | (dsimp only; split) | split | (rw [foldl_calm] <;> intros) | (have hk := congrArg (fun r => r.1.calm) ‹_ = (_, _)›; simp_all; done) | (simp_all; done)

@[simp] theorem Chip.putFifo_calm (c : Chip) (i : Nat) (f : Fifo) : (c.putFifo i f).calm = c.calm := by
  unfold Chip.putFifo
  repeat' first | (simp; done) | (dsimp only; split) | split | (rw [foldl_calm] <;> intros) | (have hk := congrArg (fun r => r.1.calm) ‹_ = (_, _)›; simp_all; done) | (simp_all; done)

@[simp] theorem Chip.onFifo_calm (c : Chip) (h : Nat) (b : FifoBlock) (f : Fifo → Fifo) : (c.onFifo h b f).calm = c.calm := by
  unfold Chip.onFifo
  repeat' first | (simp; done) | (dsimp only; split) | split | (rw [foldl_calm] <;> intros) | (have hk := congrArg (fun r => r.1.calm) ‹_ = (_, _)›; simp_all; done) | (simp_all; done)

@[simp] theorem Chip.reply_calm (c : Chip) (fn : Nat) (w : Word) : (c.reply fn w).calm = c.calm := by
  unfold Chip.reply
  repeat' first | (simp; done) | (dsimp only; split) | split | (rw [foldl_calm] <;> intros) | (have hk := congrArg (fun r => r.1.calm) ‹_ = (_, _)›; simp_all; done) | (simp_all; done)

@[simp] theorem Chip.ffRead_calm (c : Chip) (h : Nat) (b : FifoBlock) (wide : Bool) : (c.ffRead h b wide).calm = c.calm := by
  unfold Chip.ffRead
  repeat' first | (simp; done) | (dsimp only; split) | split | (rw [foldl_calm] <;> intros) | (have hk := congrArg (fun r => r.1.calm) ‹_ = (_, _)›; simp_all; done) | (simp_all; done)

@[simp] theorem Chip.ffReadUpper_calm (c : Chip) (h : Nat) (b : FifoBlock) : (c.ffReadUpper h b).calm = c.calm := by
  unfold Chip.ffReadUpper
  repeat' first | (simp; done) | (dsimp only; split) | split | (rw [foldl_calm] <;> intros) | (have hk := congrArg (fun r => r.1.calm) ‹_ = (_, _)›; simp_all; done) | (simp_all; done)

@[simp] theorem Chip.ffWrite_calm (c : Chip) (h : Nat) (b : FifoBlock) (wide : Bool) (v : Word) : (c.ffWrite h b wide v).calm = c.calm := by
  unfold Chip.ffWrite
  repeat' first | (simp; done) | (dsimp only; split) | split | (rw [foldl_calm] <;> intros) | (have hk := congrArg (fun r => r.1.calm) ‹_ = (_, _)›; simp_all; done) | (simp_all; done)

@[simp] theorem Chip.ffWriteLower_calm (c : Chip) (h : Nat) (b : FifoBlock) (v : BitVec 32) : (c.ffWriteLower h b v).calm = c.calm := by
  unfold Chip.ffWriteLower
  repeat' first | (simp; done) | (dsimp only; split) | split | (rw [foldl_calm] <;> intros) | (have hk := congrArg (fun r => r.1.calm) ‹_ = (_, _)›; simp_all; done) | (simp_all; done)

@[simp] theorem Chip.ffControl_calm (c : Chip) (h : Nat) (b : FifoBlock) (producer : Bool) (f : Fifo → Fifo) : (c.ffControl h b producer f).calm = c.calm := by
  unfold Chip.ffControl
  repeat' first | (simp; done) | (dsimp only; split) | split | (rw [foldl_calm] <;> intros) | (have hk := congrArg (fun r => r.1.calm) ‹_ = (_, _)›; simp_all; done) | (simp_all; done)

@[simp] theorem Chip.ffCommit_calm (c : Chip) (h : Nat) (b : FifoBlock) : (c.ffCommit h b).calm = c.calm := by
  unfold Chip.ffCommit
  repeat' first | (simp; done) | (dsimp only; split) | split | (rw [foldl_calm] <;> intros) | (have hk := congrArg (fun r => r.1.calm) ‹_ = (_, _)›; simp_all; done) | (simp_all; done)

@[simp] theorem Chip.ffAbort_calm (c : Chip) (h : Nat) (b : FifoBlock) : (c.ffAbort h b).calm = c.calm := by
  unfold Chip.ffAbort
  repeat' first | (simp; done) | (dsimp only; split) | split | (rw [foldl_calm] <;> intros) | (have hk := congrArg (fun r => r.1.calm) ‹_ = (_, _)›; simp_all; done) | (simp_all; done)

@[simp] theorem Chip.ffMark_calm (c : Chip) (h : Nat) (b : FifoBlock) : (c.ffMark h b).calm = c.calm := by
  unfold Chip.ffMark
  repeat' first | (simp; done) | (dsimp only; split) | split | (rw [foldl_calm] <;> intros) | (have hk := congrArg (fun r => r.1.calm) ‹_ = (_, _)›; simp_all; done) | (simp_all; done)

@[simp] theorem Chip.ffRewind_calm (c : Chip) (h : Nat) (b : FifoBlock) : (c.ffRewind h b).calm = c.calm := by
  unfold Chip.ffRewind
  repeat' first | (simp; done) | (dsimp only; split) | split | (rw [foldl_calm] <;> intros) | (have hk := congrArg (fun r => r.1.calm) ‹_ = (_, _)›; simp_all; done) | (simp_all; done)

@[simp] theorem Chip.ffRelease_calm (c : Chip) (h : Nat) (b : FifoBlock) (p : BitVec 32) : (c.ffRelease h b p).calm = c.calm := by
  unfold Chip.ffRelease
  repeat' first | (simp; done) | (dsimp only; split) | split | (rw [foldl_calm] <;> intros) | (have hk := congrArg (fun r => r.1.calm) ‹_ = (_, _)›; simp_all; done) | (simp_all; done)

@[simp] theorem Chip.ffCtrlWrite_calm (c : Chip) (h : Nat) (b : FifoBlock) (v : Nat) : (c.ffCtrlWrite h b v).calm = c.calm := by
  unfold Chip.ffCtrlWrite
  repeat' first | (simp; done) | (dsimp only; split) | split | (rw [foldl_calm] <;> intros) | (have hk := congrArg (fun r => r.1.calm) ‹_ = (_, _)›; simp_all; done) | (simp_all; done)

@[simp] theorem Chip.ffStatusWrite_calm (c : Chip) (h : Nat) (b : FifoBlock) (v : Nat) : (c.ffStatusWrite h b v).calm = c.calm := by
  unfold Chip.ffStatusWrite
  repeat' first | (simp; done) | (dsimp only; split) | split | (rw [foldl_calm] <;> intros) | (have hk := congrArg (fun r => r.1.calm) ‹_ = (_, _)›; simp_all; done) | (simp_all; done)

@[simp] theorem Chip.radishMarker_calm (c : Chip) (i : Nat) : (c.radishMarker i).calm = c.calm := by
  unfold Chip.radishMarker
  repeat' first | (simp; done) | (dsimp only; split) | split | (rw [foldl_calm] <;> intros) | (have hk := congrArg (fun r => r.1.calm) ‹_ = (_, _)›; simp_all; done) | (simp_all; done)

@[simp] theorem Chip.mgmtDiscards_calm (c : Chip) (h n : Nat) : (c.mgmtDiscards h n).calm = c.calm := by
  unfold Chip.mgmtDiscards
  repeat' first | (simp; done) | (dsimp only; split) | split | (rw [foldl_calm] <;> intros) | (have hk := congrArg (fun r => r.1.calm) ‹_ = (_, _)›; simp_all; done) | (simp_all; done)

@[simp] theorem Chip.mgmtTransmit_calm (c : Chip) (h : Nat) : (c.mgmtTransmit h).calm = c.calm := by
  unfold Chip.mgmtTransmit
  repeat' first | (simp; done) | (dsimp only; split) | split | (rw [foldl_calm] <;> intros) | (have hk := congrArg (fun r => r.1.calm) ‹_ = (_, _)›; simp_all; done) | (simp_all; done)

@[simp] theorem Chip.shimDelivery_calm (c : Chip) (h : Nat) (p : Packet) : (c.shimDelivery h p).calm = c.calm := by
  unfold Chip.shimDelivery
  repeat' first | (simp; done) | (dsimp only; split) | split | (rw [foldl_calm] <;> intros) | (have hk := congrArg (fun r => r.1.calm) ‹_ = (_, _)›; simp_all; done) | (simp_all; done)

@[simp] theorem Chip.emptyMgmt_calm (c : Chip) (h : Nat) : (c.emptyMgmt h).calm = c.calm := by
  unfold Chip.emptyMgmt
  repeat' first | (simp; done) | (dsimp only; split) | split | (rw [foldl_calm] <;> intros) | (have hk := congrArg (fun r => r.1.calm) ‹_ = (_, _)›; simp_all; done) | (simp_all; done)

@[simp] theorem Chip.updLane_calm (c : Chip) (n : Nat) (f : Lane → Lane) : (c.updLane n f).calm = c.calm := by
  unfold Chip.updLane
  repeat' first | (simp; done) | (dsimp only; split) | split | (rw [foldl_calm] <;> intros) | (have hk := congrArg (fun r => r.1.calm) ‹_ = (_, _)›; simp_all; done) | (simp_all; done)

@[simp] theorem Chip.sendParity_calm (c : Chip) (n : Nat) : (c.sendParity n).calm = c.calm := by
  unfold Chip.sendParity
  repeat' first | (simp; done) | (dsimp only; split) | split | (rw [foldl_calm] <;> intros) | (have hk := congrArg (fun r => r.1.calm) ‹_ = (_, _)›; simp_all; done) | (simp_all; done)

@[simp] theorem Chip.sendSlot_calm (c : Chip) (n : Nat) (b : PortBlock) : (c.sendSlot n b).calm = c.calm := by
  unfold Chip.sendSlot
  repeat' first | (simp; done) | (dsimp only; split) | split | (rw [foldl_calm] <;> intros) | (have hk := congrArg (fun r => r.1.calm) ‹_ = (_, _)›; simp_all; done) | (simp_all; done)

@[simp] theorem Chip.sendLane_calm (c : Chip) (n : Nat) (b : PortBlock) : (c.sendLane n b).calm = c.calm := by
  unfold Chip.sendLane
  repeat' first | (simp; done) | (dsimp only; split) | split | (rw [foldl_calm] <;> intros) | (have hk := congrArg (fun r => r.1.calm) ‹_ = (_, _)›; simp_all; done) | (simp_all; done)

@[simp] theorem Chip.sendPort_calm (c : Chip) (p lanes : Nat) (l : List PortBlock) : (c.sendPort p lanes l).calm = c.calm := by
  unfold Chip.sendPort
  repeat' first | (simp; done) | (dsimp only; split) | split | (rw [foldl_calm] <;> intros) | (have hk := congrArg (fun r => r.1.calm) ‹_ = (_, _)›; simp_all; done) | (simp_all; done)

@[simp] theorem Chip.startLane_calm (c : Chip) (n : Nat) : (c.startLane n).calm = c.calm := by
  unfold Chip.startLane
  repeat' first | (simp; done) | (dsimp only; split) | split | (rw [foldl_calm] <;> intros) | (have hk := congrArg (fun r => r.1.calm) ‹_ = (_, _)›; simp_all; done) | (simp_all; done)

@[simp] theorem Chip.alignLanes_calm (c : Chip) (p lanes : Nat) : (c.alignLanes p lanes).calm = c.calm := by
  unfold Chip.alignLanes
  repeat' first | (simp; done) | (dsimp only; split) | split | (rw [foldl_calm] <;> intros) | (have hk := congrArg (fun r => r.1.calm) ‹_ = (_, _)›; simp_all; done) | (simp_all; done)

@[simp] theorem Chip.handOn_calm (c : Chip) (p : Nat) (l : List PortBlock) : (c.handOn p l).calm = c.calm := by
  unfold Chip.handOn
  repeat' first | (simp; done) | (dsimp only; split) | split | (rw [foldl_calm] <;> intros) | (have hk := congrArg (fun r => r.1.calm) ‹_ = (_, _)›; simp_all; done) | (simp_all; done)

@[simp] theorem Chip.deskew_calm (c : Chip) (p : Nat) (both : Bool) : (c.deskew p both).calm = c.calm := by
  unfold Chip.deskew
  repeat' first | (simp; done) | (dsimp only; split) | split | (rw [foldl_calm] <;> intros) | (have hk := congrArg (fun r => r.1.calm) ‹_ = (_, _)›; simp_all; done) | (simp_all; done)

@[simp] theorem Chip.noteStamp_calm (c : Chip) (port : Nat) (l : Lcb) : (c.noteStamp port l).calm = c.calm := by
  unfold Chip.noteStamp
  repeat' first | (simp; done) | (dsimp only; split) | split | (rw [foldl_calm] <;> intros) | (have hk := congrArg (fun r => r.1.calm) ‹_ = (_, _)›; simp_all; done) | (simp_all; done)

@[simp] theorem Chip.occupancyTick_calm (c : Chip) (id : CounterId) (ticks : Nat) : (c.occupancyTick id ticks).calm = c.calm := by
  unfold Chip.occupancyTick
  repeat' first | (simp; done) | (dsimp only; split) | split | (rw [foldl_calm] <;> intros) | (have hk := congrArg (fun r => r.1.calm) ‹_ = (_, _)›; simp_all; done) | (simp_all; done)

@[simp] theorem Chip.xoffTick_calm (c : Chip) (ticks : Nat) : (c.xoffTick ticks).calm = c.calm := by
  unfold Chip.xoffTick
  repeat' first | (simp; done) | (dsimp only; split) | split | (rw [foldl_calm] <;> intros) | (have hk := congrArg (fun r => r.1.calm) ‹_ = (_, _)›; simp_all; done) | (simp_all; done)

@[simp] theorem Chip.samplingTick_calm (c : Chip) (ticks : Nat) : (c.samplingTick ticks).calm = c.calm := by
  unfold Chip.samplingTick
  split
  · rfl
  · refine Eq.trans (calm_mk0 _) ?_
    rw [foldl_calm (fun c r => by split <;> simp)]; simp

@[simp] theorem Chip.streamDrop_calm (c : Chip) (n : Nat) : (c.streamDrop n).calm = c.calm := by
  unfold Chip.streamDrop
  repeat' first | (simp; done) | (dsimp only; split) | split | (rw [foldl_calm] <;> intros) | (have hk := congrArg (fun r => r.1.calm) ‹_ = (_, _)›; simp_all; done) | (simp_all; done)

@[simp] theorem Chip.ringEntry_calm (c : Chip) (h : Nat) (l : List Word) : (c.ringEntry h l).calm = c.calm := by
  unfold Chip.ringEntry
  repeat' first | (simp; done) | (dsimp only; split) | split | (rw [foldl_calm] <;> intros) | (have hk := congrArg (fun r => r.1.calm) ‹_ = (_, _)›; simp_all; done) | (simp_all; done)

@[simp] theorem Chip.streamSample_calm (c : Chip) (ci : BitVec 32) : (c.streamSample ci).calm = c.calm := by
  unfold Chip.streamSample
  repeat' first | (simp; done) | (dsimp only; split) | split | (rw [foldl_calm] <;> intros) | (have hk := congrArg (fun r => r.1.calm) ‹_ = (_, _)›; simp_all; done) | (simp_all; done)

@[simp] theorem Chip.shaperDebit_calm (c : Chip) (out tc len : Nat) : (c.shaperDebit out tc len).calm = c.calm := by
  unfold Chip.shaperDebit
  repeat' first | (simp; done) | (dsimp only; split) | split | (rw [foldl_calm] <;> intros) | (have hk := congrArg (fun r => r.1.calm) ‹_ = (_, _)›; simp_all; done) | (simp_all; done)

@[simp] theorem Chip.putSched_calm (c : Chip) (out : Nat) (s : OutSched) : (c.putSched out s).calm = c.calm := by
  unfold Chip.putSched
  repeat' first | (simp; done) | (dsimp only; split) | split | (rw [foldl_calm] <;> intros) | (have hk := congrArg (fun r => r.1.calm) ‹_ = (_, _)›; simp_all; done) | (simp_all; done)

@[simp] theorem Chip.refreshOut_calm (c : Chip) (out : Nat) : (c.refreshOut out).calm = c.calm := by
  unfold Chip.refreshOut
  repeat' first | (simp; done) | (dsimp only; split) | split | (rw [foldl_calm] <;> intros) | (have hk := congrArg (fun r => r.1.calm) ‹_ = (_, _)›; simp_all; done) | (simp_all; done)

@[simp] theorem Chip.refreshAll_calm (c : Chip)  : (c.refreshAll).calm = c.calm := by
  unfold Chip.refreshAll
  repeat' first | (simp; done) | (dsimp only; split) | split | (rw [foldl_calm] <;> intros) | (have hk := congrArg (fun r => r.1.calm) ‹_ = (_, _)›; simp_all; done) | (simp_all; done)

@[simp] theorem Chip.draw_calm (c : Chip) (fromLocal : Bool) (dstGroup : Nat) : (c.draw fromLocal dstGroup).1.calm = c.calm := by
  unfold Chip.draw
  repeat' first | (simp; done) | (dsimp only; split) | split | (rw [foldl_calm] <;> intros) | (have hk := congrArg (fun r => r.1.calm) ‹_ = (_, _)›; simp_all; done) | (simp_all; done)

@[simp] theorem Chip.choose_calm (c : Chip) (inp : Nat) (p : Packet) (l : List Cand) (positional : Bool) : (c.choose inp p l positional).1.calm = c.calm := by
  unfold Chip.choose
  repeat' first | (simp; done) | (dsimp only; split) | split | (rw [foldl_calm] <;> intros) | (have hk := congrArg (fun r => r.1.calm) ‹_ = (_, _)›; simp_all; done) | (simp_all; done)

@[simp] theorem Chip.dropArrival_calm (c : Chip) (a : Arrival) : (c.dropArrival a).calm = c.calm := by
  unfold Chip.dropArrival
  repeat' first | (simp; done) | (dsimp only; split) | split | (rw [foldl_calm] <;> intros) | (have hk := congrArg (fun r => r.1.calm) ‹_ = (_, _)›; simp_all; done) | (simp_all; done)

@[simp] theorem Chip.drr_calm (c : Chip) (out : Nat) (z0 : Nat) : (c.drr out z0).1.calm = c.calm := by
  induction z0 generalizing c out <;> unfold Chip.drr <;> repeat' first | (simp; done) | (dsimp only; split) | split | (rw [foldl_calm] <;> intros) | (have hk := congrArg (fun r => r.1.calm) ‹_ = (_, _)›; simp_all; done) | (simp_all; done)

@[simp] theorem Chip.select_calm (c : Chip) (out : Nat) : (c.select out).1.calm = c.calm := by
  unfold Chip.select
  repeat' first | (simp; done) | (dsimp only; split) | split | (rw [foldl_calm] <;> intros) | (have hk := congrArg (fun r => r.1.calm) ‹_ = (_, _)›; simp_all; done) | (simp_all; done)

@[simp] theorem Chip.undebit_calm (c : Chip) (w : Waiting) : (c.undebit w).calm = c.calm := by
  unfold Chip.undebit
  repeat' first | (simp; done) | (dsimp only; split) | split | (rw [foldl_calm] <;> intros) | (have hk := congrArg (fun r => r.1.calm) ‹_ = (_, _)›; simp_all; done) | (simp_all; done)

@[simp] theorem Chip.noteTail_calm (c : Chip) (out tc len : Nat) : (c.noteTail out tc len).calm = c.calm := by
  unfold Chip.noteTail
  repeat' first | (simp; done) | (dsimp only; split) | split | (rw [foldl_calm] <;> intros) | (have hk := congrArg (fun r => r.1.calm) ‹_ = (_, _)›; simp_all; done) | (simp_all; done)

@[simp] theorem Chip.hintReceive_calm (c : Chip) (port : Nat) (item : List Byte) : (c.hintReceive port item).calm = c.calm := by
  unfold Chip.hintReceive
  repeat' first | (simp; done) | (dsimp only; split) | split | (rw [foldl_calm] <;> intros) | (have hk := congrArg (fun r => r.1.calm) ‹_ = (_, _)›; simp_all; done) | (simp_all; done)

@[simp] theorem Chip.hintStale_calm (c : Chip) (port : Nat) : (c.hintStale port).calm = c.calm := by
  unfold Chip.hintStale
  repeat' first | (simp; done) | (dsimp only; split) | split | (rw [foldl_calm] <;> intros) | (have hk := congrArg (fun r => r.1.calm) ‹_ = (_, _)›; simp_all; done) | (simp_all; done)

@[simp] theorem Chip.reclock_calm (c : Chip) (out : Nat) : (c.reclock out).calm = c.calm := by
  unfold Chip.reclock
  repeat' first | (simp; done) | (dsimp only; split) | split | (rw [foldl_calm] <;> intros) | (have hk := congrArg (fun r => r.1.calm) ‹_ = (_, _)›; simp_all; done) | (simp_all; done)

@[simp] theorem Chip.countOverruns_calm (c : Chip) (out : Nat) (g : Gate) : (c.countOverruns out g).calm = c.calm := by
  unfold Chip.countOverruns
  repeat' first | (simp; done) | (dsimp only; split) | split | (rw [foldl_calm] <;> intros) | (have hk := congrArg (fun r => r.1.calm) ‹_ = (_, _)›; simp_all; done) | (simp_all; done)

@[simp] theorem Chip.setGate_calm (c : Chip) (out : Nat) (g : Gate) : (c.setGate out g).calm = c.calm := by
  unfold Chip.setGate
  repeat' first | (simp; done) | (dsimp only; split) | split | (rw [foldl_calm] <;> intros) | (have hk := congrArg (fun r => r.1.calm) ‹_ = (_, _)›; simp_all; done) | (simp_all; done)

@[simp] theorem Chip.gateEntryChange_calm (c : Chip) (out : Nat) : (c.gateEntryChange out).calm = c.calm := by
  unfold Chip.gateEntryChange
  repeat' first | (simp; done) | (dsimp only; split) | split | (rw [foldl_calm] <;> intros) | (have hk := congrArg (fun r => r.1.calm) ‹_ = (_, _)›; simp_all; done) | (simp_all; done)

@[simp] theorem Chip.gateCommitted_calm (c : Chip) (out : Nat) : (c.gateCommitted out).calm = c.calm := by
  unfold Chip.gateCommitted
  repeat' first | (simp; done) | (dsimp only; split) | split | (rw [foldl_calm] <;> intros) | (have hk := congrArg (fun r => r.1.calm) ‹_ = (_, _)›; simp_all; done) | (simp_all; done)

@[simp] theorem Chip.gatesAtReset_calm (c : Chip)  : (c.gatesAtReset).calm = c.calm := by
  unfold Chip.gatesAtReset
  repeat' first | (simp; done) | (dsimp only; split) | split | (rw [foldl_calm] <;> intros) | (have hk := congrArg (fun r => r.1.calm) ‹_ = (_, _)›; simp_all; done) | (simp_all; done)

@[simp] theorem Chip.gatesRetimed_calm (c : Chip)  : (c.gatesRetimed).calm = c.calm := by
  unfold Chip.gatesRetimed
  repeat' first | (simp; done) | (dsimp only; split) | split | (rw [foldl_calm] <;> intros) | (have hk := congrArg (fun r => r.1.calm) ‹_ = (_, _)›; simp_all; done) | (simp_all; done)

@[simp] theorem Chip.clearStatus_calm (c : Chip) (unit cause v : Nat) : (c.clearStatus unit cause v).calm = c.calm := by
  unfold Chip.clearStatus
  repeat' first | (simp; done) | (dsimp only; split) | split | (rw [foldl_calm] <;> intros) | (have hk := congrArg (fun r => r.1.calm) ‹_ = (_, _)›; simp_all; done) | (simp_all; done)

@[simp] theorem Chip.sendRecord_calm (c : Chip) (dst : Nat) (l : List Word) : (c.sendRecord dst l).calm = c.calm := by
  unfold Chip.sendRecord
  repeat' first | (simp; done) | (dsimp only; split) | split | (rw [foldl_calm] <;> intros) | (have hk := congrArg (fun r => r.1.calm) ‹_ = (_, _)›; simp_all; done) | (simp_all; done)

@[simp] theorem Chip.recordOut_calm (c : Chip)  : (c.recordOut).calm = c.calm := by
  unfold Chip.recordOut
  repeat' first | (simp; done) | (dsimp only; split) | split | (rw [foldl_calm] <;> intros) | (have hk := congrArg (fun r => r.1.calm) ‹_ = (_, _)›; simp_all; done) | (simp_all; done)

@[simp] theorem Chip.closeRecords_calm (c : Chip)  : (c.closeRecords).calm = c.calm := by
  unfold Chip.closeRecords
  repeat' first | (simp; done) | (dsimp only; split) | split | (rw [foldl_calm] <;> intros) | (have hk := congrArg (fun r => r.1.calm) ‹_ = (_, _)›; simp_all; done) | (simp_all; done)

@[simp] theorem Chip.restoreUnit_calm (c : Chip) (u : Nat) : (c.restoreUnit u).calm = c.calm := by
  unfold Chip.restoreUnit
  repeat' first | (simp; done) | (dsimp only; split) | split | (rw [foldl_calm] <;> intros) | (have hk := congrArg (fun r => r.1.calm) ‹_ = (_, _)›; simp_all; done) | (simp_all; done)

@[simp] theorem Chip.leaveReset_calm (c : Chip) (u : Nat) : (c.leaveReset u).calm = c.calm := by
  unfold Chip.leaveReset
  repeat' first | (simp; done) | (dsimp only; split) | split | (rw [foldl_calm] <;> intros) | (have hk := congrArg (fun r => r.1.calm) ‹_ = (_, _)›; simp_all; done) | (simp_all; done)

@[simp] theorem Chip.resetComplete_calm (c : Chip) (u : Nat) : (c.resetComplete u).calm = c.calm := by
  unfold Chip.resetComplete
  repeat' first | (simp; done) | (dsimp only; split) | split | (rw [foldl_calm] <;> intros) | (have hk := congrArg (fun r => r.1.calm) ‹_ = (_, _)›; simp_all; done) | (simp_all; done)

@[simp] theorem Chip.releaseUnit_calm (c : Chip) (u : Nat) : (c.releaseUnit u).calm = c.calm := by
  unfold Chip.releaseUnit
  repeat' first | (simp; done) | (dsimp only; split) | split | (rw [foldl_calm] <;> intros) | (have hk := congrArg (fun r => r.1.calm) ‹_ = (_, _)›; simp_all; done) | (simp_all; done)

@[simp] theorem Chip.lanePattern_calm (c : Chip) (n : Nat) : (c.lanePattern n).calm = c.calm := by
  unfold Chip.lanePattern
  repeat' first | (simp; done) | (dsimp only; split) | split | (rw [foldl_calm] <;> intros) | (have hk := congrArg (fun r => r.1.calm) ‹_ = (_, _)›; simp_all; done) | (simp_all; done)

@[simp] theorem Chip.laneEqualise_calm (c : Chip) (n : Nat) : (c.laneEqualise n).calm = c.calm := by
  unfold Chip.laneEqualise
  repeat' first | (simp; done) | (dsimp only; split) | split | (rw [foldl_calm] <;> intros) | (have hk := congrArg (fun r => r.1.calm) ‹_ = (_, _)›; simp_all; done) | (simp_all; done)

@[simp] theorem Chip.testHeaders_calm (c : Chip) (n : Nat) (l : List Bool) : (c.testHeaders n l).calm = c.calm := by
  unfold Chip.testHeaders
  repeat' first | (simp; done) | (dsimp only; split) | split | (rw [foldl_calm] <;> intros) | (have hk := congrArg (fun r => r.1.calm) ‹_ = (_, _)›; simp_all; done) | (simp_all; done)

@[simp] theorem Chip.bitSlip_calm (c : Chip) (n k : Nat) : (c.bitSlip n k).1.calm = c.calm := by
  unfold Chip.bitSlip
  repeat' first | (simp; done) | (dsimp only; split) | split | (rw [foldl_calm] <;> intros) | (have hk := congrArg (fun r => r.1.calm) ‹_ = (_, _)›; simp_all; done) | (simp_all; done)

@[simp] theorem Chip.takeCodeword_calm (c : Chip) (n : Nat) (blocks : List PortBlock) (h : Nat) : (c.takeCodeword n blocks h).calm = c.calm := by
  unfold Chip.takeCodeword
  repeat' first | (simp; done) | (dsimp only; split) | split | (rw [foldl_calm] <;> intros) | (have hk := congrArg (fun r => r.1.calm) ‹_ = (_, _)›; simp_all; done) | (simp_all; done)

@[simp] theorem Chip.lineFollows_calm (c : Chip) (n : Nat) : (c.lineFollows n).calm = c.calm := by
  unfold Chip.lineFollows
  repeat' first | (simp; done) | (dsimp only; split) | split | (rw [foldl_calm] <;> intros) | (have hk := congrArg (fun r => r.1.calm) ‹_ = (_, _)›; simp_all; done) | (simp_all; done)

@[simp] theorem Chip.checkerSync_calm (c : Chip) (n nbits : Nat) : (c.checkerSync n nbits).calm = c.calm := by
  unfold Chip.checkerSync
  repeat' first | (simp; done) | (dsimp only; split) | split | (rw [foldl_calm] <;> intros) | (have hk := congrArg (fun r => r.1.calm) ‹_ = (_, _)›; simp_all; done) | (simp_all; done)

@[simp] theorem Chip.checkerLoss_calm (c : Chip) (n nbits errors : Nat) : (c.checkerLoss n nbits errors).calm = c.calm := by
  unfold Chip.checkerLoss
  repeat' first | (simp; done) | (dsimp only; split) | split | (rw [foldl_calm] <;> intros) | (have hk := congrArg (fun r => r.1.calm) ‹_ = (_, _)›; simp_all; done) | (simp_all; done)

@[simp] theorem Chip.clearTests_calm (c : Chip) (p : Nat) : (c.clearTests p).calm = c.calm := by
  unfold Chip.clearTests
  repeat' first | (simp; done) | (dsimp only; split) | split | (rw [foldl_calm] <;> intros) | (have hk := congrArg (fun r => r.1.calm) ‹_ = (_, _)›; simp_all; done) | (simp_all; done)

@[simp] theorem Chip.sendTrain_calm (c : Chip) (p l : Nat) (b : TrainBlock) : (c.sendTrain p l b).calm = c.calm := by
  unfold Chip.sendTrain
  repeat' first | (simp; done) | (dsimp only; split) | split | (rw [foldl_calm] <;> intros) | (have hk := congrArg (fun r => r.1.calm) ‹_ = (_, _)›; simp_all; done) | (simp_all; done)

@[simp] theorem Chip.sendBlocks_calm (c : Chip) (p mask tbtype : Nat) (body : List Byte) : (c.sendBlocks p mask tbtype body).calm = c.calm := by
  unfold Chip.sendBlocks
  repeat' first | (simp; done) | (dsimp only; split) | split | (rw [foldl_calm] <;> intros) | (have hk := congrArg (fun r => r.1.calm) ‹_ = (_, _)›; simp_all; done) | (simp_all; done)

@[simp] theorem Chip.sendSwitch_calm (c : Chip) (p mask : Nat) : (c.sendSwitch p mask).calm = c.calm := by
  unfold Chip.sendSwitch
  repeat' first | (simp; done) | (dsimp only; split) | split | (rw [foldl_calm] <;> intros) | (have hk := congrArg (fun r => r.1.calm) ‹_ = (_, _)›; simp_all; done) | (simp_all; done)

@[simp] theorem Chip.portEvent_calm (c : Chip) (p code : Nat) : (c.portEvent p code).calm = c.calm := by
  unfold Chip.portEvent
  repeat' first | (simp; done) | (dsimp only; split) | split | (rw [foldl_calm] <;> intros) | (have hk := congrArg (fun r => r.1.calm) ‹_ = (_, _)›; simp_all; done) | (simp_all; done)

@[simp] theorem Chip.huntAll_calm (c : Chip) (p : Nat) : (c.huntAll p).calm = c.calm := by
  unfold Chip.huntAll
  repeat' first | (simp; done) | (dsimp only; split) | split | (rw [foldl_calm] <;> intros) | (have hk := congrArg (fun r => r.1.calm) ‹_ = (_, _)›; simp_all; done) | (simp_all; done)

@[simp] theorem Chip.activeEvent_calm (c : Chip) (p : Nat) (t : Port) : (c.activeEvent p t).calm = c.calm := by
  unfold Chip.activeEvent
  repeat' first | (simp; done) | (dsimp only; split) | split | (rw [foldl_calm] <;> intros) | (have hk := congrArg (fun r => r.1.calm) ‹_ = (_, _)›; simp_all; done) | (simp_all; done)

@[simp] theorem Chip.regDone_calm (c : Chip) (fn addr result key : Nat) : (c.regDone fn addr result key).calm = c.calm := by
  unfold Chip.regDone
  repeat' first | (simp; done) | (dsimp only; split) | split | (rw [foldl_calm] <;> intros) | (have hk := congrArg (fun r => r.1.calm) ‹_ = (_, _)›; simp_all; done) | (simp_all; done)

@[simp] theorem Chip.regFails_calm (c : Chip) (fn addr result : Nat) : (c.regFails fn addr result).calm = c.calm := by
  unfold Chip.regFails
  repeat' first | (simp; done) | (dsimp only; split) | split | (rw [foldl_calm] <;> intros) | (have hk := congrArg (fun r => r.1.calm) ‹_ = (_, _)›; simp_all; done) | (simp_all; done)

@[simp] theorem Chip.popRegion_calm (c : Chip) (fn : Nat) : (c.popRegion fn).calm = c.calm := by
  unfold Chip.popRegion
  repeat' first | (simp; done) | (dsimp only; split) | split | (rw [foldl_calm] <;> intros) | (have hk := congrArg (fun r => r.1.calm) ‹_ = (_, _)›; simp_all; done) | (simp_all; done)

@[simp] theorem Chip.regionCommand_calm (c : Chip) (fn addr : Nat) : (c.regionCommand fn addr).1.calm = c.calm := by
  unfold Chip.regionCommand
  repeat' first | (simp; done) | (dsimp only; split) | split | (rw [foldl_calm] <;> intros) | (have hk := congrArg (fun r => r.1.calm) ‹_ = (_, _)›; simp_all; done) | (simp_all; done)

@[simp] theorem Chip.deregisterComplete_calm (c : Chip) (fn : Nat) : (c.deregisterComplete fn).calm = c.calm := by
  unfold Chip.deregisterComplete
  repeat' first | (simp; done) | (dsimp only; split) | split | (rw [foldl_calm] <;> intros) | (have hk := congrArg (fun r => r.1.calm) ‹_ = (_, _)›; simp_all; done) | (simp_all; done)

@[simp] theorem Chip.atsInvalidate_calm (c : Chip) (fn addr len : Nat) : (c.atsInvalidate fn addr len).calm = c.calm := by
  unfold Chip.atsInvalidate
  repeat' first | (simp; done) | (dsimp only; split) | split | (rw [foldl_calm] <;> intros) | (have hk := congrArg (fun r => r.1.calm) ‹_ = (_, _)›; simp_all; done) | (simp_all; done)

@[simp] theorem Chip.atsComplete_calm (c : Chip) (fn : Nat) : (c.atsComplete fn).calm = c.calm := by
  unfold Chip.atsComplete
  repeat' first | (simp; done) | (dsimp only; split) | split | (rw [foldl_calm] <;> intros) | (have hk := congrArg (fun r => r.1.calm) ‹_ = (_, _)›; simp_all; done) | (simp_all; done)

@[simp] theorem Chip.updGroup_calm (c : Chip) (g : Nat) (f : Group → Group) : (c.updGroup g f).calm = c.calm := by
  unfold Chip.updGroup
  repeat' first | (simp; done) | (dsimp only; split) | split | (rw [foldl_calm] <;> intros) | (have hk := congrArg (fun r => r.1.calm) ‹_ = (_, _)›; simp_all; done) | (simp_all; done)

@[simp] theorem Chip.giveNewPlaces_calm (c : Chip) (z0 : List Nat) (z1 : List Nat) : (c.giveNewPlaces z0 z1).calm = c.calm := by
  induction z0 generalizing c z1 <;> unfold Chip.giveNewPlaces <;> repeat' first | (simp; done) | (dsimp only; split) | split | (rw [foldl_calm] <;> intros) | (have hk := congrArg (fun r => r.1.calm) ‹_ = (_, _)›; simp_all; done) | (simp_all; done)

@[simp] theorem Chip.nextExportGen_calm (c : Chip) (n : Nat) : (c.nextExportGen n).calm = c.calm := by
  unfold Chip.nextExportGen
  repeat' first | (simp; done) | (dsimp only; split) | split | (rw [foldl_calm] <;> intros) | (have hk := congrArg (fun r => r.1.calm) ‹_ = (_, _)›; simp_all; done) | (simp_all; done)

@[simp] theorem Chip.withdrawRanges_calm (c : Chip) (size : Nat) (l : List Nat) : (c.withdrawRanges size l).calm = c.calm := by
  unfold Chip.withdrawRanges
  repeat' first | (simp; done) | (dsimp only; split) | split | (rw [foldl_calm] <;> intros) | (have hk := congrArg (fun r => r.1.calm) ‹_ = (_, _)›; simp_all; done) | (simp_all; done)

@[simp] theorem Chip.resize_calm (c : Chip) (size : Nat) : (c.resize size).calm = c.calm := by
  unfold Chip.resize
  repeat' first | (simp; done) | (dsimp only; split) | split | (rw [foldl_calm] <;> intros) | (have hk := congrArg (fun r => r.1.calm) ‹_ = (_, _)›; simp_all; done) | (simp_all; done)

@[simp] theorem Chip.cxlBytes_calm (c : Chip) (o : Nat) (l : List (Option Byte)) : (c.cxlBytes o l).calm = c.calm := by
  unfold Chip.cxlBytes
  repeat' first | (simp; done) | (dsimp only; split) | split | (rw [foldl_calm] <;> intros) | (have hk := congrArg (fun r => r.1.calm) ‹_ = (_, _)›; simp_all; done) | (simp_all; done)

@[simp] theorem Chip.cxlWrite_calm (c : Chip) (h d : Nat) (l : List (Option Byte)) : (c.cxlWrite h d l).calm = c.calm := by
  unfold Chip.cxlWrite
  repeat' first | (simp; done) | (dsimp only; split) | split | (rw [foldl_calm] <;> intros) | (have hk := congrArg (fun r => r.1.calm) ‹_ = (_, _)›; simp_all; done) | (simp_all; done)

@[simp] theorem Chip.takePosted_calm (c : Chip) (r : Posted) : (c.takePosted r).calm = c.calm := by
  unfold Chip.takePosted
  repeat' first | (simp; done) | (dsimp only; split) | split | (rw [foldl_calm] <;> intros) | (have hk := congrArg (fun r => r.1.calm) ‹_ = (_, _)›; simp_all; done) | (simp_all; done)

@[simp] theorem Chip.takeUnexp_calm (c : Chip) (k : Nat) (m : BitVec 32) : (c.takeUnexp k m).calm = c.calm := by
  unfold Chip.takeUnexp
  repeat' first | (simp; done) | (dsimp only; split) | split | (rw [foldl_calm] <;> intros) | (have hk := congrArg (fun r => r.1.calm) ‹_ = (_, _)›; simp_all; done) | (simp_all; done)

@[simp] theorem Chip.updCopies_calm (c : Chip) (k : Nat) (m : BitVec 32) (f : EagerCopy → EagerCopy) : (c.updCopies k m f).calm = c.calm := by
  unfold Chip.updCopies
  repeat' first | (simp; done) | (dsimp only; split) | split | (rw [foldl_calm] <;> intros) | (have hk := congrArg (fun r => r.1.calm) ‹_ = (_, _)›; simp_all; done) | (simp_all; done)

@[simp] theorem Chip.putMsg_calm (c : Chip) (k : Nat) (r : RxMsg) : (c.putMsg k r).calm = c.calm := by
  unfold Chip.putMsg
  repeat' first | (simp; done) | (dsimp only; split) | split | (rw [foldl_calm] <;> intros) | (have hk := congrArg (fun r => r.1.calm) ‹_ = (_, _)›; simp_all; done) | (simp_all; done)

@[simp] theorem Chip.updMsg_calm (c : Chip) (k : Nat) (m : BitVec 32) (f : RxMsg → RxMsg) : (c.updMsg k m f).calm = c.calm := by
  unfold Chip.updMsg
  repeat' first | (simp; done) | (dsimp only; split) | split | (rw [foldl_calm] <;> intros) | (have hk := congrArg (fun r => r.1.calm) ‹_ = (_, _)›; simp_all; done) | (simp_all; done)

@[simp] theorem Chip.abandonRecord_calm (c : Chip) (k : Nat) (m : BitVec 32) : (c.abandonRecord k m).calm = c.calm := by
  unfold Chip.abandonRecord
  repeat' first | (simp; done) | (dsimp only; split) | split | (rw [foldl_calm] <;> intros) | (have hk := congrArg (fun r => r.1.calm) ‹_ = (_, _)›; simp_all; done) | (simp_all; done)

@[simp] theorem Chip.keepMessages_calm (c : Chip) (k : Nat) : (c.keepMessages k).calm = c.calm := by
  unfold Chip.keepMessages
  repeat' first | (simp; done) | (dsimp only; split) | split | (rw [foldl_calm] <;> intros) | (have hk := congrArg (fun r => r.1.calm) ‹_ = (_, _)›; simp_all; done) | (simp_all; done)

@[simp] theorem Chip.syncMortise_calm (c : Chip) (k : Nat) (m : BitVec 32) : (c.syncMortise k m).calm = c.calm := by
  unfold Chip.syncMortise
  repeat' first | (simp; done) | (dsimp only; split) | split | (rw [foldl_calm] <;> intros) | (have hk := congrArg (fun r => r.1.calm) ‹_ = (_, _)›; simp_all; done) | (simp_all; done)

@[simp] theorem Chip.abandonMsg_calm (c : Chip) (k : Nat) (r : RxMsg) : (c.abandonMsg k r).calm = c.calm := by
  unfold Chip.abandonMsg
  repeat' first | (simp; done) | (dsimp only; split) | split | (rw [foldl_calm] <;> intros) | (have hk := congrArg (fun r => r.1.calm) ‹_ = (_, _)›; simp_all; done) | (simp_all; done)

@[simp] theorem Chip.bindCtx_calm (c : Chip) (fn qn mctx : Nat) : (c.bindCtx fn qn mctx).1.calm = c.calm := by
  unfold Chip.bindCtx
  repeat' first | (simp; done) | (dsimp only; split) | split | (rw [foldl_calm] <;> intros) | (have hk := congrArg (fun r => r.1.calm) ‹_ = (_, _)›; simp_all; done) | (simp_all; done)

@[simp] theorem Chip.answer_calm (c : Chip) (h : Nat) (p : Packet) (opcode status : Nat) (w1 : Word) (payload : List Byte) : (c.answer h p opcode status w1 payload).calm = c.calm := by
  unfold Chip.answer
  repeat' first | (simp; done) | (dsimp only; split) | split | (rw [foldl_calm] <;> intros) | (have hk := congrArg (fun r => r.1.calm) ‹_ = (_, _)›; simp_all; done) | (simp_all; done)

@[simp] theorem Chip.answerError_calm (c : Chip) (h : Nat) (p : Packet) (status : Nat) : (c.answerError h p status).calm = c.calm := by
  unfold Chip.answerError
  repeat' first | (simp; done) | (dsimp only; split) | split | (rw [foldl_calm] <;> intros) | (have hk := congrArg (fun r => r.1.calm) ‹_ = (_, _)›; simp_all; done) | (simp_all; done)

@[simp] theorem Chip.answerBusy_calm (c : Chip) (h : Nat) (p : Packet) : (c.answerBusy h p).calm = c.calm := by
  unfold Chip.answerBusy
  repeat' first | (simp; done) | (dsimp only; split) | split | (rw [foldl_calm] <;> intros) | (have hk := congrArg (fun r => r.1.calm) ‹_ = (_, _)›; simp_all; done) | (simp_all; done)

@[simp] theorem Chip.answerData_calm (c : Chip) (h : Nat) (p : Packet) (l : List Byte) : (c.answerData h p l).calm = c.calm := by
  unfold Chip.answerData
  repeat' first | (simp; done) | (dsimp only; split) | split | (rw [foldl_calm] <;> intros) | (have hk := congrArg (fun r => r.1.calm) ‹_ = (_, _)›; simp_all; done) | (simp_all; done)

@[simp] theorem Chip.answerAtomic_calm (c : Chip) (h : Nat) (p : Packet) (wide : Bool) (v : BitVec 128) : (c.answerAtomic h p wide v).calm = c.calm := by
  unfold Chip.answerAtomic
  repeat' first | (simp; done) | (dsimp only; split) | split | (rw [foldl_calm] <;> intros) | (have hk := congrArg (fun r => r.1.calm) ‹_ = (_, _)›; simp_all; done) | (simp_all; done)

@[simp] theorem Chip.sendAck_calm (c : Chip) (k : Nat) (x : Chan) (j : Nat) : (c.sendAck k x j).calm = c.calm := by
  unfold Chip.sendAck
  repeat' first | (simp; done) | (dsimp only; split) | split | (rw [foldl_calm] <;> intros) | (have hk := congrArg (fun r => r.1.calm) ‹_ = (_, _)›; simp_all; done) | (simp_all; done)

@[simp] theorem Chip.ackNow_calm (c : Chip) (k : Nat) : (c.ackNow k).calm = c.calm := by
  unfold Chip.ackNow
  repeat' first | (simp; done) | (dsimp only; split) | split | (rw [foldl_calm] <;> intros) | (have hk := congrArg (fun r => r.1.calm) ‹_ = (_, _)›; simp_all; done) | (simp_all; done)

@[simp] theorem Chip.refuseLater_calm (c : Chip) (k : Nat) (r : RxMsg) : (c.refuseLater k r).1.calm = c.calm := by
  unfold Chip.refuseLater
  repeat' first | (simp; done) | (dsimp only; split) | split | (rw [foldl_calm] <;> intros) | (have hk := congrArg (fun r => r.1.calm) ‹_ = (_, _)›; simp_all; done) | (simp_all; done)

@[simp] theorem Chip.atomicDone_calm (c : Chip) (h k fn : Nat) (p : Packet) (prior : BitVec 128) : (c.atomicDone h k fn p prior).calm = c.calm := by
  unfold Chip.atomicDone
  repeat' first | (simp; done) | (dsimp only; split) | split | (rw [foldl_calm] <;> intros) | (have hk := congrArg (fun r => r.1.calm) ‹_ = (_, _)›; simp_all; done) | (simp_all; done)

@[simp] theorem Chip.countAccepted_calm (c : Chip) (owners : List Nat) (n : Nat) : (c.countAccepted owners n).calm = c.calm := by
  unfold Chip.countAccepted
  repeat' first | (simp; done) | (dsimp only; split) | split | (rw [foldl_calm] <;> intros) | (have hk := congrArg (fun r => r.1.calm) ‹_ = (_, _)›; simp_all; done) | (simp_all; done)

@[simp] theorem Chip.wholeCopies_calm (c : Chip) (k : Nat) (m : BitVec 32) : (c.wholeCopies k m).calm = c.calm := by
  unfold Chip.wholeCopies
  repeat' first | (simp; done) | (dsimp only; split) | split | (rw [foldl_calm] <;> intros) | (have hk := congrArg (fun r => r.1.calm) ‹_ = (_, _)›; simp_all; done) | (simp_all; done)

@[simp] theorem Chip.park_calm (c : Chip) (h : Nat) (ctx : CtxKey) (p : Packet) : (c.park h ctx p).calm = c.calm := by
  unfold Chip.park
  repeat' first | (simp; done) | (dsimp only; split) | split | (rw [foldl_calm] <;> intros) | (have hk := congrArg (fun r => r.1.calm) ‹_ = (_, _)›; simp_all; done) | (simp_all; done)

@[simp] theorem Chip.useContexts_calm (c : Chip) (h k : Nat) (p : Packet) : (c.useContexts h k p).calm = c.calm := by
  unfold Chip.useContexts
  repeat' first | (simp; done) | (dsimp only; split) | split | (rw [foldl_calm] <;> intros) | (have hk := congrArg (fun r => r.1.calm) ‹_ = (_, _)›; simp_all; done) | (simp_all; done)

@[simp] theorem Chip.taken_calm (c : Chip) (p : Packet) : (c.taken p).calm = c.calm := by
  unfold Chip.taken
  repeat' first | (simp; done) | (dsimp only; split) | split | (rw [foldl_calm] <;> intros) | (have hk := congrArg (fun r => r.1.calm) ‹_ = (_, _)›; simp_all; done) | (simp_all; done)

@[simp] theorem Chip.refuseParked_calm (c : Chip) (ctx : CtxKey) : (c.refuseParked ctx).calm = c.calm := by
  unfold Chip.refuseParked
  repeat' first | (simp; done) | (dsimp only; split) | split | (rw [foldl_calm] <;> intros) | (have hk := congrArg (fun r => r.1.calm) ‹_ = (_, _)›; simp_all; done) | (simp_all; done)

@[simp] theorem Chip.hostReadEnded_calm (c : Chip) (id : Nat) (res : HostResult) : (c.hostReadEnded id res).calm = c.calm := by
  unfold Chip.hostReadEnded
  repeat' first | (simp; done) | (dsimp only; split) | split | (rw [foldl_calm] <;> intros) | (have hk := congrArg (fun r => r.1.calm) ‹_ = (_, _)›; simp_all; done) | (simp_all; done)

@[simp] theorem Chip.badResponse_calm (c : Chip)  : (c.badResponse).calm = c.calm := by
  unfold Chip.badResponse
  repeat' first | (simp; done) | (dsimp only; split) | split | (rw [foldl_calm] <;> intros) | (have hk := congrArg (fun r => r.1.calm) ‹_ = (_, _)›; simp_all; done) | (simp_all; done)

@[simp] theorem Chip.updOut_calm (c : Chip) (k : Nat) (psn : BitVec 24) (f : OutPkt → OutPkt) : (c.updOut k psn f).calm = c.calm := by
  unfold Chip.updOut
  repeat' first | (simp; done) | (dsimp only; split) | split | (rw [foldl_calm] <;> intros) | (have hk := congrArg (fun r => r.1.calm) ‹_ = (_, _)›; simp_all; done) | (simp_all; done)

@[simp] theorem Chip.decideOp_calm (c : Chip) (k : Nat) (m : BitVec 32) (status : Nat) : (c.decideOp k m status).calm = c.calm := by
  unfold Chip.decideOp
  repeat' first | (simp; done) | (dsimp only; split) | split | (rw [foldl_calm] <;> intros) | (have hk := congrArg (fun r => r.1.calm) ‹_ = (_, _)›; simp_all; done) | (simp_all; done)

@[simp] theorem Chip.updOp_calm (c : Chip) (k : Nat) (m : BitVec 32) (f : SendOp → SendOp) : (c.updOp k m f).calm = c.calm := by
  unfold Chip.updOp
  repeat' first | (simp; done) | (dsimp only; split) | split | (rw [foldl_calm] <;> intros) | (have hk := congrArg (fun r => r.1.calm) ‹_ = (_, _)›; simp_all; done) | (simp_all; done)

@[simp] theorem Chip.hearResponse_calm (c : Chip) (p : Packet) : (c.hearResponse p).calm = c.calm := by
  unfold Chip.hearResponse
  repeat' first | (simp; done) | (dsimp only; split) | split | (rw [foldl_calm] <;> intros) | (have hk := congrArg (fun r => r.1.calm) ‹_ = (_, _)›; simp_all; done) | (simp_all; done)

@[simp] theorem Chip.takeResponse_calm (c : Chip) (h : Nat) (p : Packet) (f : Chip → Nat → Chan → Chip) (hf : ∀ c k x, (f c k x).calm = c.calm) : (c.takeResponse h p f).calm = c.calm := by
  unfold Chip.takeResponse
  repeat' first | (simp; done) | (dsimp only; split) | split | (rw [foldl_calm] <;> intros) | (have hk := congrArg (fun r => r.1.calm) ‹_ = (_, _)›; simp_all; done) | (simp_all; done)

@[simp] theorem Chip.ackDelay_calm (c : Chip) (ch : Nat) : (c.ackDelay ch).calm = c.calm := by
  unfold Chip.ackDelay
  repeat' first | (simp; done) | (dsimp only; split) | split | (rw [foldl_calm] <;> intros) | (have hk := congrArg (fun r => r.1.calm) ‹_ = (_, _)›; simp_all; done) | (simp_all; done)

@[simp] theorem Chip.errorExpiry_calm (c : Chip) (ch : Nat) : (c.errorExpiry ch).calm = c.calm := by
  unfold Chip.errorExpiry
  repeat' first | (simp; done) | (dsimp only; split) | split | (rw [foldl_calm] <;> intros) | (have hk := congrArg (fun r => r.1.calm) ‹_ = (_, _)›; simp_all; done) | (simp_all; done)

@[simp] theorem Chip.atomicBlockReturn_calm (c : Chip) (ch : Nat) : (c.atomicBlockReturn ch).calm = c.calm := by
  unfold Chip.atomicBlockReturn
  repeat' first | (simp; done) | (dsimp only; split) | split | (rw [foldl_calm] <;> intros) | (have hk := congrArg (fun r => r.1.calm) ‹_ = (_, _)›; simp_all; done) | (simp_all; done)

@[simp] theorem Chip.ctrAllocate_calm (c : Chip) (fn n : Nat) : (c.ctrAllocate fn n).1.calm = c.calm := by
  unfold Chip.ctrAllocate
  repeat' first | (simp; done) | (dsimp only; split) | split | (rw [foldl_calm] <;> intros) | (have hk := congrArg (fun r => r.1.calm) ‹_ = (_, _)›; simp_all; done) | (simp_all; done)

@[simp] theorem Chip.putCtr_calm (c : Chip) (n : Nat) (t : TCtr) : (c.putCtr n t).calm = c.calm := by
  unfold Chip.putCtr
  repeat' first | (simp; done) | (dsimp only; split) | split | (rw [foldl_calm] <;> intros) | (have hk := congrArg (fun r => r.1.calm) ‹_ = (_, _)›; simp_all; done) | (simp_all; done)

@[simp] theorem Chip.ctrConfigure_calm (c : Chip) (fn n arg : Nat) : (c.ctrConfigure fn n arg).1.calm = c.calm := by
  unfold Chip.ctrConfigure
  repeat' first | (simp; done) | (dsimp only; split) | split | (rw [foldl_calm] <;> intros) | (have hk := congrArg (fun r => r.1.calm) ‹_ = (_, _)›; simp_all; done) | (simp_all; done)

@[simp] theorem Chip.updColl_calm (c : Chip) (m : Nat) (s : BitVec 32) (f : COp → COp) : (c.updColl m s f).calm = c.calm := by
  unfold Chip.updColl
  repeat' first | (simp; done) | (dsimp only; split) | split | (rw [foldl_calm] <;> intros) | (have hk := congrArg (fun r => r.1.calm) ‹_ = (_, _)›; simp_all; done) | (simp_all; done)

@[simp] theorem Chip.openColl_calm (c : Chip) (m : Nat) (s : BitVec 32) (z0 : Nat) : (c.openColl m s z0).calm = c.calm := by
  induction z0 generalizing c m s <;> unfold Chip.openColl <;> repeat' first | (simp; done) | (dsimp only; split) | split | (rw [foldl_calm] <;> intros) | (have hk := congrArg (fun r => r.1.calm) ‹_ = (_, _)›; simp_all; done) | (simp_all; done)

@[simp] theorem Chip.beginColl_calm (c : Chip) (m : Nat) (s : BitVec 32) : (c.beginColl m s).calm = c.calm := by
  unfold Chip.beginColl
  repeat' first | (simp; done) | (dsimp only; split) | split | (rw [foldl_calm] <;> intros) | (have hk := congrArg (fun r => r.1.calm) ‹_ = (_, _)›; simp_all; done) | (simp_all; done)

@[simp] theorem Chip.recordAbort_calm (c : Chip) (o : COp) (status : Nat) : (c.recordAbort o status).calm = c.calm := by
  unfold Chip.recordAbort
  repeat' first | (simp; done) | (dsimp only; split) | split | (rw [foldl_calm] <;> intros) | (have hk := congrArg (fun r => r.1.calm) ‹_ = (_, _)›; simp_all; done) | (simp_all; done)

@[simp] theorem Chip.collContribute_calm (c : Chip) (m : Nat) (s : BitVec 32) : (c.collContribute m s).calm = c.calm := by
  unfold Chip.collContribute
  repeat' first | (simp; done) | (dsimp only; split) | split | (rw [foldl_calm] <;> intros) | (have hk := congrArg (fun r => r.1.calm) ‹_ = (_, _)›; simp_all; done) | (simp_all; done)

@[simp] theorem Chip.collDecide_calm (c : Chip) (m : Nat) (s : BitVec 32) : (c.collDecide m s).calm = c.calm := by
  unfold Chip.collDecide
  repeat' first | (simp; done) | (dsimp only; split) | split | (rw [foldl_calm] <;> intros) | (have hk := congrArg (fun r => r.1.calm) ‹_ = (_, _)›; simp_all; done) | (simp_all; done)

@[simp] theorem Chip.dropAborts_calm (c : Chip) (m : Nat) : (c.dropAborts m).calm = c.calm := by
  unfold Chip.dropAborts
  repeat' first | (simp; done) | (dsimp only; split) | split | (rw [foldl_calm] <;> intros) | (have hk := congrArg (fun r => r.1.calm) ‹_ = (_, _)›; simp_all; done) | (simp_all; done)

@[simp] theorem Chip.dropStale_calm (c : Chip) (m : Nat) (s : BitVec 32) : (c.dropStale m s).calm = c.calm := by
  unfold Chip.dropStale
  repeat' first | (simp; done) | (dsimp only; split) | split | (rw [foldl_calm] <;> intros) | (have hk := congrArg (fun r => r.1.calm) ‹_ = (_, _)›; simp_all; done) | (simp_all; done)

@[simp] theorem Chip.takeTree_calm (c : Chip) (port : Nat) (p : Packet) : (c.takeTree port p).calm = c.calm := by
  unfold Chip.takeTree
  repeat' first | (simp; done) | (dsimp only; split) | split | (rw [foldl_calm] <;> intros) | (have hk := congrArg (fun r => r.1.calm) ‹_ = (_, _)›; simp_all; done) | (simp_all; done)

@[simp] theorem Chip.setWinStatus_calm (c : Chip) (fn slot bit : Nat) : (c.setWinStatus fn slot bit).calm = c.calm := by
  unfold Chip.setWinStatus
  repeat' first | (simp; done) | (dsimp only; split) | split | (rw [foldl_calm] <;> intros) | (have hk := congrArg (fun r => r.1.calm) ‹_ = (_, _)›; simp_all; done) | (simp_all; done)

@[simp] theorem Chip.keepLines_calm (c : Chip) (o : BrOp) : (c.keepLines o).calm = c.calm := by
  unfold Chip.keepLines
  repeat' first | (simp; done) | (dsimp only; split) | split | (rw [foldl_calm] <;> intros) | (have hk := congrArg (fun r => r.1.calm) ‹_ = (_, _)›; simp_all; done) | (simp_all; done)

@[simp] theorem Chip.dropBrOp_calm (c : Chip) (num : Nat) : (c.dropBrOp num).calm = c.calm := by
  unfold Chip.dropBrOp
  repeat' first | (simp; done) | (dsimp only; split) | split | (rw [foldl_calm] <;> intros) | (have hk := congrArg (fun r => r.1.calm) ‹_ = (_, _)›; simp_all; done) | (simp_all; done)

@[simp] theorem Chip.acceptBrOp_calm (c : Chip) (o : BrOp) : (c.acceptBrOp o).calm = c.calm := by
  unfold Chip.acceptBrOp
  repeat' first | (simp; done) | (dsimp only; split) | split | (rw [foldl_calm] <;> intros) | (have hk := congrArg (fun r => r.1.calm) ‹_ = (_, _)›; simp_all; done) | (simp_all; done)

@[simp] theorem Chip.sendMerge_calm (c : Chip) (h : Nat) : (c.sendMerge h).calm = c.calm := by
  unfold Chip.sendMerge
  repeat' first | (simp; done) | (dsimp only; split) | split | (rw [foldl_calm] <;> intros) | (have hk := congrArg (fun r => r.1.calm) ‹_ = (_, _)›; simp_all; done) | (simp_all; done)

@[simp] theorem Chip.mergeRun_calm (c : Chip) (fn : Nat) (w : Win) (r : Nat × List Byte) : (c.mergeRun fn w r).calm = c.calm := by
  unfold Chip.mergeRun
  repeat' first | (simp; done) | (dsimp only; split) | split | (rw [foldl_calm] <;> intros) | (have hk := congrArg (fun r => r.1.calm) ‹_ = (_, _)›; simp_all; done) | (simp_all; done)

@[simp] theorem Chip.dropOverlapped_calm (c : Chip) (h ep : Nat) (key : BitVec 32) (runs : List (Nat × List Byte)) : (c.dropOverlapped h ep key runs).calm = c.calm := by
  unfold Chip.dropOverlapped
  repeat' first | (simp; done) | (dsimp only; split) | split | (rw [foldl_calm] <;> intros) | (have hk := congrArg (fun r => r.1.calm) ‹_ = (_, _)›; simp_all; done) | (simp_all; done)

@[simp] theorem Chip.addPrefetch_calm (c : Chip) (fn : Nat) (w : Win) (last : Nat) : (c.addPrefetch fn w last).calm = c.calm := by
  unfold Chip.addPrefetch
  repeat' first | (simp; done) | (dsimp only; split) | split | (rw [foldl_calm] <;> intros) | (have hk := congrArg (fun r => r.1.calm) ‹_ = (_, _)›; simp_all; done) | (simp_all; done)

@[simp] theorem Chip.prefetchExpiry_calm (c : Chip) (h : Nat) : (c.prefetchExpiry h).calm = c.calm := by
  unfold Chip.prefetchExpiry
  repeat' first | (simp; done) | (dsimp only; split) | split | (rw [foldl_calm] <;> intros) | (have hk := congrArg (fun r => r.1.calm) ‹_ = (_, _)›; simp_all; done) | (simp_all; done)

@[simp] theorem Chip.windowCleared_calm (c : Chip) (fn slot : Nat) : (c.windowCleared fn slot).calm = c.calm := by
  unfold Chip.windowCleared
  repeat' first | (simp; done) | (dsimp only; split) | split | (rw [foldl_calm] <;> intros) | (have hk := congrArg (fun r => r.1.calm) ‹_ = (_, _)›; simp_all; done) | (simp_all; done)

@[simp] theorem Chip.bridgeReset_calm (c : Chip)  : (c.bridgeReset).calm = c.calm := by
  unfold Chip.bridgeReset
  refine Eq.trans (calm_mk8 _) ?_
  rw [foldl_calm (fun c r => by split <;> simp)]

@[simp] theorem Chip.fillPolicer_calm (c : Chip) (fn : Nat) : (c.fillPolicer fn).calm = c.calm := by
  unfold Chip.fillPolicer
  repeat' first | (simp; done) | (dsimp only; split) | split | (rw [foldl_calm] <;> intros) | (have hk := congrArg (fun r => r.1.calm) ‹_ = (_, _)›; simp_all; done) | (simp_all; done)

@[simp] theorem Chip.leaveQuiesce_calm (c : Chip) (fn : Nat) : (c.leaveQuiesce fn).calm = c.calm := by
  unfold Chip.leaveQuiesce
  repeat' first | (simp; done) | (dsimp only; split) | split | (rw [foldl_calm] <;> intros) | (have hk := congrArg (fun r => r.1.calm) ‹_ = (_, _)›; simp_all; done) | (simp_all; done)

@[simp] theorem Chip.enableFn_calm (c : Chip) (fn : Nat) : (c.enableFn fn).calm = c.calm := by
  unfold Chip.enableFn
  repeat' first | (simp; done) | (dsimp only; split) | split | (rw [foldl_calm] <;> intros) | (have hk := congrArg (fun r => r.1.calm) ‹_ = (_, _)›; simp_all; done) | (simp_all; done)

@[simp] theorem Chip.readyFn_calm (c : Chip) (fn : Nat) : (c.readyFn fn).calm = c.calm := by
  unfold Chip.readyFn
  repeat' first | (simp; done) | (dsimp only; split) | split | (rw [foldl_calm] <;> intros) | (have hk := congrArg (fun r => r.1.calm) ‹_ = (_, _)›; simp_all; done) | (simp_all; done)

@[simp] theorem Chip.beginVf_calm (c : Chip) (fn : Nat) : (c.beginVf fn).calm = c.calm := by
  unfold Chip.beginVf
  repeat' first | (simp; done) | (dsimp only; split) | split | (rw [foldl_calm] <;> intros) | (have hk := congrArg (fun r => r.1.calm) ‹_ = (_, _)›; simp_all; done) | (simp_all; done)

@[simp] theorem Chip.vfSet_calm (c : Chip) (h numVfs : Nat) : (c.vfSet h numVfs).calm = c.calm := by
  unfold Chip.vfSet
  repeat' first | (simp; done) | (dsimp only; split) | split | (rw [foldl_calm] <;> intros) | (have hk := congrArg (fun r => r.1.calm) ‹_ = (_, _)›; simp_all; done) | (simp_all; done)

@[simp] theorem Chip.latchPort_calm (c : Chip) (h : Nat) : (c.latchPort h).calm = c.calm := by
  unfold Chip.latchPort
  repeat' first | (simp; done) | (dsimp only; split) | split | (rw [foldl_calm] <;> intros) | (have hk := congrArg (fun r => r.1.calm) ‹_ = (_, _)›; simp_all; done) | (simp_all; done)

@[simp] theorem Chip.clearWindows_calm (c : Chip) (h : Nat) : (c.clearWindows h).calm = c.calm := by
  unfold Chip.clearWindows
  repeat' first | (simp; done) | (dsimp only; split) | split | (rw [foldl_calm] <;> intros) | (have hk := congrArg (fun r => r.1.calm) ‹_ = (_, _)›; simp_all; done) | (simp_all; done)

@[simp] theorem Chip.sendPending_calm (c : Chip) (fn : Nat) : (c.sendPending fn).calm = c.calm := by
  unfold Chip.sendPending
  repeat' first | (simp; done) | (dsimp only; split) | split | (rw [foldl_calm] <;> intros) | (have hk := congrArg (fun r => r.1.calm) ‹_ = (_, _)›; simp_all; done) | (simp_all; done)

@[simp] theorem Chip.unmask_calm (c : Chip) (fn v : Nat) : (c.unmask fn v).calm = c.calm := by
  unfold Chip.unmask
  repeat' first | (simp; done) | (dsimp only; split) | split | (rw [foldl_calm] <;> intros) | (have hk := congrArg (fun r => r.1.calm) ‹_ = (_, _)›; simp_all; done) | (simp_all; done)

@[simp] theorem Chip.mask_calm (c : Chip) (fn v : Nat) : (c.mask fn v).calm = c.calm := by
  unfold Chip.mask
  repeat' first | (simp; done) | (dsimp only; split) | split | (rw [foldl_calm] <;> intros) | (have hk := congrArg (fun r => r.1.calm) ‹_ = (_, _)›; simp_all; done) | (simp_all; done)

@[simp] theorem Chip.updPeer_calm (c : Chip) (p : Nat) (f : Peer → Peer) : (c.updPeer p f).calm = c.calm := by
  unfold Chip.updPeer
  repeat' first | (simp; done) | (dsimp only; split) | split | (rw [foldl_calm] <;> intros) | (have hk := congrArg (fun r => r.1.calm) ‹_ = (_, _)›; simp_all; done) | (simp_all; done)

@[simp] theorem Chip.timeStep_calm (c : Chip) (d : Int) : (c.timeStep d).calm = c.calm := by
  unfold Chip.timeStep
  repeat' first | (simp; done) | (dsimp only; split) | split | (rw [foldl_calm] <;> intros) | (have hk := congrArg (fun r => r.1.calm) ‹_ = (_, _)›; simp_all; done) | (simp_all; done)

@[simp] theorem Chip.setRate_calm (c : Chip)  : (c.setRate).calm = c.calm := by
  unfold Chip.setRate
  repeat' first | (simp; done) | (dsimp only; split) | split | (rw [foldl_calm] <;> intros) | (have hk := congrArg (fun r => r.1.calm) ‹_ = (_, _)›; simp_all; done) | (simp_all; done)

@[simp] theorem Chip.halved_calm (c : Chip) (x : Int) : (c.halved x).1.calm = c.calm := by
  unfold Chip.halved
  repeat' first | (simp; done) | (dsimp only; split) | split | (rw [foldl_calm] <;> intros) | (have hk := congrArg (fun r => r.1.calm) ‹_ = (_, _)›; simp_all; done) | (simp_all; done)

@[simp] theorem Chip.follow_calm (c : Chip) (p : Nat) (i : TimeItem) : (c.follow p i).calm = c.calm := by
  unfold Chip.follow
  repeat' first | (simp; done) | (dsimp only; split) | split | (rw [foldl_calm] <;> intros) | (have hk := congrArg (fun r => r.1.calm) ‹_ = (_, _)›; simp_all; done) | (simp_all; done)

@[simp] theorem Chip.acquire_calm (c : Chip) (p : Nat) (i : TimeItem) : (c.acquire p i).calm = c.calm := by
  unfold Chip.acquire
  repeat' first | (simp; done) | (dsimp only; split) | split | (rw [foldl_calm] <;> intros) | (have hk := congrArg (fun r => r.1.calm) ‹_ = (_, _)›; simp_all; done) | (simp_all; done)

@[simp] theorem Chip.thetaDelay_calm (c : Chip) (t1 t2 t3 t4 : Word) : (c.thetaDelay t1 t2 t3 t4).1.calm = c.calm := by
  unfold Chip.thetaDelay
  repeat' first | (simp; done) | (dsimp only; split) | split | (rw [foldl_calm] <;> intros) | (have hk := congrArg (fun r => r.1.calm) ‹_ = (_, _)›; simp_all; done) | (simp_all; done)

@[simp] theorem Chip.noteDelay_calm (c : Chip) (p : Nat) (d : Int) : (c.noteDelay p d).calm = c.calm := by
  unfold Chip.noteDelay
  repeat' first | (simp; done) | (dsimp only; split) | split | (rw [foldl_calm] <;> intros) | (have hk := congrArg (fun r => r.1.calm) ‹_ = (_, _)›; simp_all; done) | (simp_all; done)

@[simp] theorem Chip.timDown_calm (c : Chip)  : (c.timDown).calm = c.calm := by
  unfold Chip.timDown
  repeat' first | (simp; done) | (dsimp only; split) | split | (rw [foldl_calm] <;> intros) | (have hk := congrArg (fun r => r.1.calm) ‹_ = (_, _)›; simp_all; done) | (simp_all; done)

@[simp] theorem Chip.rootStep_calm (c : Chip) (d : Int) : (c.rootStep d).calm = c.calm := by
  unfold Chip.rootStep
  repeat' first | (simp; done) | (dsimp only; split) | split | (rw [foldl_calm] <;> intros) | (have hk := congrArg (fun r => r.1.calm) ‹_ = (_, _)›; simp_all; done) | (simp_all; done)

@[simp] theorem Chip.setTime_calm (c : Chip) (t : Word) : (c.setTime t).1.calm = c.calm := by
  unfold Chip.setTime
  repeat' first | (simp; done) | (dsimp only; split) | split | (rw [foldl_calm] <;> intros) | (have hk := congrArg (fun r => r.1.calm) ‹_ = (_, _)›; simp_all; done) | (simp_all; done)

@[simp] theorem Chip.ppsEdge_calm (c : Chip)  : (c.ppsEdge).calm = c.calm := by
  unfold Chip.ppsEdge
  repeat' first | (simp; done) | (dsimp only; split) | split | (rw [foldl_calm] <;> intros) | (have hk := congrArg (fun r => r.1.calm) ‹_ = (_, _)›; simp_all; done) | (simp_all; done)

@[simp] theorem Chip.firstRequest_calm (c : Chip)  : (c.firstRequest).calm = c.calm := by
  unfold Chip.firstRequest
  repeat' first | (simp; done) | (dsimp only; split) | split | (rw [foldl_calm] <;> intros) | (have hk := congrArg (fun r => r.1.calm) ‹_ = (_, _)›; simp_all; done) | (simp_all; done)

@[simp] theorem Chip.avsLoop_calm (c : Chip)  : (c.avsLoop).calm = c.calm := by
  unfold Chip.avsLoop
  repeat' first | (simp; done) | (dsimp only; split) | split | (rw [foldl_calm] <;> intros) | (have hk := congrArg (fun r => r.1.calm) ‹_ = (_, _)›; simp_all; done) | (simp_all; done)

@[simp] theorem Chip.senseTemps_calm (c : Chip) (raw : List Int) : (c.senseTemps raw).calm = c.calm := by
  unfold Chip.senseTemps
  repeat' first | (simp; done) | (dsimp only; split) | split | (rw [foldl_calm] <;> intros) | (have hk := congrArg (fun r => r.1.calm) ‹_ = (_, _)›; simp_all; done) | (simp_all; done)

@[simp] theorem Chip.unfenceChans_calm (c : Chip)  : (c.unfenceChans).calm = c.calm := by
  unfold Chip.unfenceChans
  repeat' first | (simp; done) | (dsimp only; split) | split | (rw [foldl_calm] <;> intros) | (have hk := congrArg (fun r => r.1.calm) ‹_ = (_, _)›; simp_all; done) | (simp_all; done)

@[simp] theorem Chip.throttleDest_calm (c : Chip) (row : Nat) (p : Packet) (chip : Nat) : (c.throttleDest row p chip).calm = c.calm := by
  unfold Chip.throttleDest
  repeat' first | (simp; done) | (dsimp only; split) | split | (rw [foldl_calm] <;> intros) | (have hk := congrArg (fun r => r.1.calm) ‹_ = (_, _)›; simp_all; done) | (simp_all; done)

@[simp] theorem Chip.applyThrottle_calm (c : Chip) (row : Nat) (p : Packet) : (c.applyThrottle row p).calm = c.calm := by
  unfold Chip.applyThrottle
  repeat' first | (simp; done) | (dsimp only; split) | split | (rw [foldl_calm] <;> intros) | (have hk := congrArg (fun r => r.1.calm) ‹_ = (_, _)›; simp_all; done) | (simp_all; done)

@[simp] theorem Chip.throttleExpiry_calm (c : Chip) (chip : Nat) : (c.throttleExpiry chip).calm = c.calm := by
  unfold Chip.throttleExpiry
  repeat' first | (simp; done) | (dsimp only; split) | split | (rw [foldl_calm] <;> intros) | (have hk := congrArg (fun r => r.1.calm) ‹_ = (_, _)›; simp_all; done) | (simp_all; done)

@[simp] theorem Chip.resetRelease_calm (c : Chip) (grp : BitVec 10) (pos : BitVec 5) : (c.resetRelease grp pos).calm = c.calm := by
  unfold Chip.resetRelease
  repeat' first | (simp; done) | (dsimp only; split) | split | (rw [foldl_calm] <;> intros) | (have hk := congrArg (fun r => r.1.calm) ‹_ = (_, _)›; simp_all; done) | (simp_all; done)

@[simp] theorem Chip.strapOverride_calm (c : Chip) (v : BitVec 32) : (c.strapOverride v).calm = c.calm := by
  unfold Chip.strapOverride
  repeat' first | (simp; done) | (dsimp only; split) | split | (rw [foldl_calm] <;> intros) | (have hk := congrArg (fun r => r.1.calm) ‹_ = (_, _)›; simp_all; done) | (simp_all; done)

@[simp] theorem Chip.genericCal_calm (c : Chip)  : (c.genericCal).calm = c.calm := by
  unfold Chip.genericCal
  repeat' first | (simp; done) | (dsimp only; split) | split | (rw [foldl_calm] <;> intros) | (have hk := congrArg (fun r => r.1.calm) ‹_ = (_, _)›; simp_all; done) | (simp_all; done)

@[simp] theorem Chip.layOut_calm (c : Chip)  : (c.layOut).calm = c.calm := by
  unfold Chip.layOut
  repeat' first | (simp; done) | (dsimp only; split) | split | (rw [foldl_calm] <;> intros) | (have hk := congrArg (fun r => r.1.calm) ‹_ = (_, _)›; simp_all; done) | (simp_all; done)

@[simp] theorem Chip.unstage_calm (c : Chip) (s : Nat) : (c.unstage s).calm = c.calm := by
  unfold Chip.unstage
  repeat' first | (simp; done) | (dsimp only; split) | split | (rw [foldl_calm] <;> intros) | (have hk := congrArg (fun r => r.1.calm) ‹_ = (_, _)›; simp_all; done) | (simp_all; done)

@[simp] theorem Chip.mgtDown_calm (c : Chip)  : (c.mgtDown).calm = c.calm := by
  unfold Chip.mgtDown
  repeat' first | (simp; done) | (dsimp only; split) | split | (rw [foldl_calm] <;> intros) | (have hk := congrArg (fun r => r.1.calm) ‹_ = (_, _)›; simp_all; done) | (simp_all; done)

@[simp] theorem Chip.clusterDown_calm (c : Chip) (i st : Nat) : (c.clusterDown i st).calm = c.calm := by
  unfold Chip.clusterDown
  repeat' first | (simp; done) | (dsimp only; split) | split | (rw [foldl_calm] <;> intros) | (have hk := congrArg (fun r => r.1.calm) ‹_ = (_, _)›; simp_all; done) | (simp_all; done)

@[simp] theorem Chip.activateNext_calm (c : Chip)  : (c.activateNext).calm = c.calm := by
  unfold Chip.activateNext
  repeat' first | (simp; done) | (dsimp only; split) | split | (rw [foldl_calm] <;> intros) | (have hk := congrArg (fun r => r.1.calm) ‹_ = (_, _)›; simp_all; done) | (simp_all; done)

@[simp] theorem Chip.restartCluster_calm (c : Chip) (unit : Nat) : (c.restartCluster unit).1.calm = c.calm := by
  unfold Chip.restartCluster
  repeat' first | (simp; done) | (dsimp only; split) | split | (rw [foldl_calm] <;> intros) | (have hk := congrArg (fun r => r.1.calm) ‹_ = (_, _)›; simp_all; done) | (simp_all; done)

@[simp] theorem Chip.update_calm (c : Chip) (st result : Nat) : (c.update st result).calm = c.calm := by
  unfold Chip.update
  repeat' first | (simp; done) | (dsimp only; split) | split | (rw [foldl_calm] <;> intros) | (have hk := congrArg (fun r => r.1.calm) ‹_ = (_, _)›; simp_all; done) | (simp_all; done)

@[simp] theorem Chip.beginUpdate_calm (c : Chip)  : (c.beginUpdate).1.calm = c.calm := by
  unfold Chip.beginUpdate
  repeat' first | (simp; done) | (dsimp only; split) | split | (rw [foldl_calm] <;> intros) | (have hk := congrArg (fun r => r.1.calm) ‹_ = (_, _)›; simp_all; done) | (simp_all; done)

@[simp] theorem Chip.beginDone_calm (c : Chip) (ok : Bool) : (c.beginDone ok).calm = c.calm := by
  unfold Chip.beginDone
  repeat' first | (simp; done) | (dsimp only; split) | split | (rw [foldl_calm] <;> intros) | (have hk := congrArg (fun r => r.1.calm) ‹_ = (_, _)›; simp_all; done) | (simp_all; done)

@[simp] theorem Chip.blockWrite_calm (c : Chip) (k : Nat) (l : List Byte) : (c.blockWrite k l).1.calm = c.calm := by
  unfold Chip.blockWrite
  repeat' first | (simp; done) | (dsimp only; split) | split | (rw [foldl_calm] <;> intros) | (have hk := congrArg (fun r => r.1.calm) ‹_ = (_, _)›; simp_all; done) | (simp_all; done)

@[simp] theorem Chip.blockDone_calm (c : Chip) (ok : Bool) : (c.blockDone ok).calm = c.calm := by
  unfold Chip.blockDone
  repeat' first | (simp; done) | (dsimp only; split) | split | (rw [foldl_calm] <;> intros) | (have hk := congrArg (fun r => r.1.calm) ‹_ = (_, _)›; simp_all; done) | (simp_all; done)

@[simp] theorem Chip.verifyUpdate_calm (c : Chip)  : (c.verifyUpdate).1.calm = c.calm := by
  unfold Chip.verifyUpdate
  repeat' first | (simp; done) | (dsimp only; split) | split | (rw [foldl_calm] <;> intros) | (have hk := congrArg (fun r => r.1.calm) ‹_ = (_, _)›; simp_all; done) | (simp_all; done)

@[simp] theorem Chip.verifyDone_calm (c : Chip)  : (c.verifyDone).calm = c.calm := by
  unfold Chip.verifyDone
  repeat' first | (simp; done) | (dsimp only; split) | split | (rw [foldl_calm] <;> intros) | (have hk := congrArg (fun r => r.1.calm) ‹_ = (_, _)›; simp_all; done) | (simp_all; done)

@[simp] theorem Chip.switchSlot_calm (c : Chip)  : (c.switchSlot).1.calm = c.calm := by
  unfold Chip.switchSlot
  repeat' first | (simp; done) | (dsimp only; split) | split | (rw [foldl_calm] <;> intros) | (have hk := congrArg (fun r => r.1.calm) ‹_ = (_, _)›; simp_all; done) | (simp_all; done)

@[simp] theorem Chip.switchDone_calm (c : Chip) (ok : Bool) : (c.switchDone ok).calm = c.calm := by
  unfold Chip.switchDone
  repeat' first | (simp; done) | (dsimp only; split) | split | (rw [foldl_calm] <;> intros) | (have hk := congrArg (fun r => r.1.calm) ‹_ = (_, _)›; simp_all; done) | (simp_all; done)

@[simp] theorem Chip.activate_calm (c : Chip)  : (c.activate).1.calm = c.calm := by
  unfold Chip.activate
  repeat' first | (simp; done) | (dsimp only; split) | split | (rw [foldl_calm] <;> intros) | (have hk := congrArg (fun r => r.1.calm) ‹_ = (_, _)›; simp_all; done) | (simp_all; done)

@[simp] theorem Chip.ctlIndexWrite_calm (c : Chip) (fn : Nat) (cq : Bool) (off : Nat) (v : BitVec 32) : (c.ctlIndexWrite fn cq off v).calm = c.calm := by
  unfold Chip.ctlIndexWrite
  repeat' first | (simp; done) | (dsimp only; split) | split | (rw [foldl_calm] <;> intros) | (have hk := congrArg (fun r => r.1.calm) ‹_ = (_, _)›; simp_all; done) | (simp_all; done)

@[simp] theorem Chip.ctlSqStops_calm (c : Chip) (fn cause : Nat) : (c.ctlSqStops fn cause).calm = c.calm := by
  unfold Chip.ctlSqStops
  repeat' first | (simp; done) | (dsimp only; split) | split | (rw [foldl_calm] <;> intros) | (have hk := congrArg (fun r => r.1.calm) ‹_ = (_, _)›; simp_all; done) | (simp_all; done)

@[simp] theorem Chip.ctlSqFollows_calm (c : Chip) (fn : Nat) : (c.ctlSqFollows fn).calm = c.calm := by
  unfold Chip.ctlSqFollows
  repeat' first | (simp; done) | (dsimp only; split) | split | (rw [foldl_calm] <;> intros) | (have hk := congrArg (fun r => r.1.calm) ‹_ = (_, _)›; simp_all; done) | (simp_all; done)

@[simp] theorem Chip.ctlError_calm (c : Chip) (fn : Nat) (cq : Bool) (cause : Nat) : (c.ctlError fn cq cause).calm = c.calm := by
  unfold Chip.ctlError
  repeat' first | (simp; done) | (dsimp only; split) | split | (rw [foldl_calm] <;> intros) | (have hk := congrArg (fun r => r.1.calm) ‹_ = (_, _)›; simp_all; done) | (simp_all; done)

@[simp] theorem Chip.ctlCqe_calm (c : Chip) (fn : Nat) (p : Completion) : (c.ctlCqe fn p).calm = c.calm := by
  unfold Chip.ctlCqe
  repeat' first | (simp; done) | (dsimp only; split) | split | (rw [foldl_calm] <;> intros) | (have hk := congrArg (fun r => r.1.calm) ‹_ = (_, _)›; simp_all; done) | (simp_all; done)

@[simp] theorem Chip.ctlTakeBacklog_calm (c : Chip) (fn : Nat) (p : Completion) : (c.ctlTakeBacklog fn p).calm = c.calm := by
  unfold Chip.ctlTakeBacklog
  repeat' first | (simp; done) | (dsimp only; split) | split | (rw [foldl_calm] <;> intros) | (have hk := congrArg (fun r => r.1.calm) ‹_ = (_, _)›; simp_all; done) | (simp_all; done)

@[simp] theorem Chip.ctlComplete_calm (c : Chip) (fn : Nat) (p : Completion) : (c.ctlComplete fn p).calm = c.calm := by
  unfold Chip.ctlComplete
  repeat' first | (simp; done) | (dsimp only; split) | split | (rw [foldl_calm] <;> intros) | (have hk := congrArg (fun r => r.1.calm) ‹_ = (_, _)›; simp_all; done) | (simp_all; done)

@[simp] theorem Chip.ctlDone_calm (c : Chip) (fn : Nat) (e : Entry) (qn reason : Nat) : (c.ctlDone fn e qn reason).calm = c.calm := by
  unfold Chip.ctlDone
  repeat' first | (simp; done) | (dsimp only; split) | split | (rw [foldl_calm] <;> intros) | (have hk := congrArg (fun r => r.1.calm) ‹_ = (_, _)›; simp_all; done) | (simp_all; done)

@[simp] theorem Chip.ctlConsume_calm (c : Chip) (fn : Nat) : (c.ctlConsume fn).calm = c.calm := by
  unfold Chip.ctlConsume
  repeat' first | (simp; done) | (dsimp only; split) | split | (rw [foldl_calm] <;> intros) | (have hk := congrArg (fun r => r.1.calm) ‹_ = (_, _)›; simp_all; done) | (simp_all; done)

@[simp] theorem Chip.ctlStart_calm (c : Chip) (fn : Nat) (idx : CtlIndices) : (c.ctlStart fn idx).calm = c.calm := by
  unfold Chip.ctlStart
  repeat' first | (simp; done) | (dsimp only; split) | split | (rw [foldl_calm] <;> intros) | (have hk := congrArg (fun r => r.1.calm) ‹_ = (_, _)›; simp_all; done) | (simp_all; done)

@[simp] theorem Chip.ctlStop_calm (c : Chip) (fn : Nat) : (c.ctlStop fn).calm = c.calm := by
  unfold Chip.ctlStop
  repeat' first | (simp; done) | (dsimp only; split) | split | (rw [foldl_calm] <;> intros) | (have hk := congrArg (fun r => r.1.calm) ‹_ = (_, _)›; simp_all; done) | (simp_all; done)

@[simp] theorem Chip.ctlSetupWrite_calm (c : Chip) (fn v : Nat) (idx : CtlIndices) : (c.ctlSetupWrite fn v idx).1.calm = c.calm := by
  unfold Chip.ctlSetupWrite
  repeat' first | (simp; done) | (dsimp only; split) | split | (rw [foldl_calm] <;> intros) | (have hk := congrArg (fun r => r.1.calm) ‹_ = (_, _)›; simp_all; done) | (simp_all; done)

@[simp] theorem Chip.ctlDrain_calm (c : Chip) (fn : Nat) (z0 : Nat) : (c.ctlDrain fn z0).calm = c.calm := by
  induction z0 generalizing c fn <;> unfold Chip.ctlDrain <;> repeat' first | (simp; done) | (dsimp only; split) | split | (rw [foldl_calm] <;> intros) | (have hk := congrArg (fun r => r.1.calm) ‹_ = (_, _)›; simp_all; done) | (simp_all; done)

@[simp] theorem Chip.ctlBacklogDrain_calm (c : Chip) (fn : Nat) (ci : BitVec 32) (poisoned : Bool) : (c.ctlBacklogDrain fn ci poisoned).calm = c.calm := by
  unfold Chip.ctlBacklogDrain
  repeat' first | (simp; done) | (dsimp only; split) | split | (rw [foldl_calm] <;> intros) | (have hk := congrArg (fun r => r.1.calm) ‹_ = (_, _)›; simp_all; done) | (simp_all; done)

@[simp] theorem Chip.discardDoorbell_calm (c : Chip) (fn : Nat) : (c.discardDoorbell fn).calm = c.calm := by
  unfold Chip.discardDoorbell
  repeat' first | (simp; done) | (dsimp only; split) | split | (rw [foldl_calm] <;> intros) | (have hk := congrArg (fun r => r.1.calm) ‹_ = (_, _)›; simp_all; done) | (simp_all; done)

@[simp] theorem Chip.doorbell_calm (c : Chip) (fn off : Nat) (whole : Bool) (w : Word) (op : Nat) (f : Chip → Chip) (hf : ∀ c, (f c).calm = c.calm) : (c.doorbell fn off whole w op f).calm = c.calm := by
  unfold Chip.doorbell
  repeat' first | (simp; done) | (dsimp only; split) | split | (rw [foldl_calm] <;> intros) | (have hk := congrArg (fun r => r.1.calm) ‹_ = (_, _)›; simp_all; done) | (simp_all; done)

@[simp] theorem Chip.bridgeBlockReset_calm (c : Chip)  : (c.bridgeBlockReset).calm = c.calm := by
  unfold Chip.bridgeBlockReset
  repeat' first | (simp; done) | (dsimp only; split) | split | (rw [foldl_calm] <;> intros) | (have hk := congrArg (fun r => r.1.calm) ‹_ = (_, _)›; simp_all; done) | (simp_all; done)

@[simp] theorem Chip.keepShapers_calm (c : Chip) (old : Chip) : (c.keepShapers old).calm = c.calm := by
  unfold Chip.keepShapers
  repeat' first | (simp; done) | (dsimp only; split) | split | (rw [foldl_calm] <;> intros) | (have hk := congrArg (fun r => r.1.calm) ‹_ = (_, _)›; simp_all; done) | (simp_all; done)

@[simp] theorem Chip.keepPolicers_calm (c : Chip) (old : Chip) : (c.keepPolicers old).calm = c.calm := by
  unfold Chip.keepPolicers
  repeat' first | (simp; done) | (dsimp only; split) | split | (rw [foldl_calm] <;> intros) | (have hk := congrArg (fun r => r.1.calm) ‹_ = (_, _)›; simp_all; done) | (simp_all; done)

@[simp] theorem Chip.gateFollow_calm (c : Chip) (old : Chip) (p : Nat) : (c.gateFollow old p).calm = c.calm := by
  unfold Chip.gateFollow
  repeat' first | (simp; done) | (dsimp only; split) | split | (rw [foldl_calm] <;> intros) | (have hk := congrArg (fun r => r.1.calm) ‹_ = (_, _)›; simp_all; done) | (simp_all; done)

@[simp] theorem Chip.gatesFollow_calm (c : Chip) (old : Chip) (l : List Nat) : (c.gatesFollow old l).calm = c.calm := by
  unfold Chip.gatesFollow
  repeat' first | (simp; done) | (dsimp only; split) | split | (rw [foldl_calm] <;> intros) | (have hk := congrArg (fun r => r.1.calm) ‹_ = (_, _)›; simp_all; done) | (simp_all; done)

@[simp] theorem Chip.effect1A_calm (c : Chip) (old : Chip) : (c.effect1A old).calm = c.calm := by
  unfold Chip.effect1A
  repeat' first | (simp; done) | (dsimp only; split) | split | (rw [foldl_calm] <;> intros) | (have hk := congrArg (fun r => r.1.calm) ‹_ = (_, _)›; simp_all; done) | (simp_all; done)

@[simp] theorem Chip.withStaged_calm (c : Chip) (s : Nat) : (c.withStaged s).calm = c.calm := by
  unfold Chip.withStaged
  repeat' first | (simp; done) | (dsimp only; split) | split | (rw [foldl_calm] <;> intros) | (have hk := congrArg (fun r => r.1.calm) ‹_ = (_, _)›; simp_all; done) | (simp_all; done)

@[simp] theorem Chip.putResult_calm (c : Chip) (s : Nat) (r : Word) : (c.putResult s r).calm = c.calm := by
  unfold Chip.putResult
  repeat' first | (simp; done) | (dsimp only; split) | split | (rw [foldl_calm] <;> intros) | (have hk := congrArg (fun r => r.1.calm) ‹_ = (_, _)›; simp_all; done) | (simp_all; done)

@[simp] theorem Chip.stage_calm (c : Chip) (w : Writer) (s n x : Nat) : (c.stage w s n x).calm = c.calm := by
  unfold Chip.stage
  repeat' first | (simp; done) | (dsimp only; split) | split | (rw [foldl_calm] <;> intros) | (have hk := congrArg (fun r => r.1.calm) ‹_ = (_, _)›; simp_all; done) | (simp_all; done)

@[simp] theorem Chip.holderTimeout_calm (c : Chip) (s : Nat) : (c.holderTimeout s).calm = c.calm := by
  unfold Chip.holderTimeout
  repeat' first | (simp; done) | (dsimp only; split) | split | (rw [foldl_calm] <;> intros) | (have hk := congrArg (fun r => r.1.calm) ‹_ = (_, _)›; simp_all; done) | (simp_all; done)

@[simp] theorem Chip.saveStart_calm (c : Chip)  : (c.saveStart).1.calm = c.calm := by
  unfold Chip.saveStart
  repeat' first | (simp; done) | (dsimp only; split) | split | (rw [foldl_calm] <;> intros) | (have hk := congrArg (fun r => r.1.calm) ‹_ = (_, _)›; simp_all; done) | (simp_all; done)

@[simp] theorem Chip.saveDone_calm (c : Chip) (ok : Bool) : (c.saveDone ok).calm = c.calm := by
  unfold Chip.saveDone
  repeat' first | (simp; done) | (dsimp only; split) | split | (rw [foldl_calm] <;> intros) | (have hk := congrArg (fun r => r.1.calm) ‹_ = (_, _)›; simp_all; done) | (simp_all; done)

@[simp] theorem Chip.calStore_calm (c : Chip)  : (c.calStore).1.calm = c.calm := by
  unfold Chip.calStore
  repeat' first | (simp; done) | (dsimp only; split) | split | (rw [foldl_calm] <;> intros) | (have hk := congrArg (fun r => r.1.calm) ‹_ = (_, _)›; simp_all; done) | (simp_all; done)

@[simp] theorem Chip.calImageWrite_calm (c : Chip) (l : List Byte) : (c.calImageWrite l).1.calm = c.calm := by
  unfold Chip.calImageWrite
  repeat' first | (simp; done) | (dsimp only; split) | split | (rw [foldl_calm] <;> intros) | (have hk := congrArg (fun r => r.1.calm) ‹_ = (_, _)›; simp_all; done) | (simp_all; done)

@[simp] theorem Chip.dropFdpMctp_calm (c : Chip)  : (c.dropFdpMctp).calm = c.calm := by
  unfold Chip.dropFdpMctp
  repeat' first | (simp; done) | (dsimp only; split) | split | (rw [foldl_calm] <;> intros) | (have hk := congrArg (fun r => r.1.calm) ‹_ = (_, _)›; simp_all; done) | (simp_all; done)

@[simp] theorem Chip.freeIndices_calm (c : Chip)  : (c.freeIndices).1.calm = c.calm := by
  unfold Chip.freeIndices
  repeat' first | (simp; done) | (dsimp only; split) | split | (rw [foldl_calm] <;> intros) | (have hk := congrArg (fun r => r.1.calm) ‹_ = (_, _)›; simp_all; done) | (simp_all; done)

@[simp] theorem Chip.updateCommand_calm (c : Chip) (x : Nat) : (c.updateCommand x).1.calm = c.calm := by
  unfold Chip.updateCommand
  repeat' first | (simp; done) | (dsimp only; split) | split | (rw [foldl_calm] <;> intros) | (have hk := congrArg (fun r => r.1.calm) ‹_ = (_, _)›; simp_all; done) | (simp_all; done)

@[simp] theorem Chip.clearBits_calm (c : Chip) (area obj e x : Nat) : (c.clearBits area obj e x).calm = c.calm := by
  unfold Chip.clearBits
  repeat' first | (simp; done) | (dsimp only; split) | split | (rw [foldl_calm] <;> intros) | (have hk := congrArg (fun r => r.1.calm) ‹_ = (_, _)›; simp_all; done) | (simp_all; done)

@[simp] theorem Chip.checkerRestart_calm (c : Chip) (n x : Nat) : (c.checkerRestart n x).calm = c.calm := by
  unfold Chip.checkerRestart
  repeat' first | (simp; done) | (dsimp only; split) | split | (rw [foldl_calm] <;> intros) | (have hk := congrArg (fun r => r.1.calm) ‹_ = (_, _)›; simp_all; done) | (simp_all; done)

@[simp] theorem Chip.dropHeld_calm (c : Chip) (p : Writer) : (c.dropHeld p).calm = c.calm := by
  unfold Chip.dropHeld
  repeat' first | (simp; done) | (dsimp only; split) | split | (rw [foldl_calm] <;> intros) | (have hk := congrArg (fun r => r.1.calm) ‹_ = (_, _)›; simp_all; done) | (simp_all; done)

@[simp] theorem Chip.chunkRules_calm (c : Chip) (p : Writer) (n : BitVec 32) (isWrite : Bool) (tag : Nat) : (c.chunkRules p n isWrite tag).calm = c.calm := by
  unfold Chip.chunkRules
  repeat' first | (simp; done) | (dsimp only; split) | split | (rw [foldl_calm] <;> intros) | (have hk := congrArg (fun r => r.1.calm) ‹_ = (_, _)›; simp_all; done) | (simp_all; done)

@[simp] theorem Chip.holdChunk_calm (c : Chip) (p : Writer) (n : BitVec 32) (off : Nat) (l : List Byte) (tag vlen : Nat) : (c.holdChunk p n off l tag vlen).calm = c.calm := by
  unfold Chip.holdChunk
  repeat' first | (simp; done) | (dsimp only; split) | split | (rw [foldl_calm] <;> intros) | (have hk := congrArg (fun r => r.1.calm) ‹_ = (_, _)›; simp_all; done) | (simp_all; done)

@[simp] theorem Chip.chunkExpiry_calm (c : Chip) (p : Writer) : (c.chunkExpiry p).calm = c.calm := by
  unfold Chip.chunkExpiry
  repeat' first | (simp; done) | (dsimp only; split) | split | (rw [foldl_calm] <;> intros) | (have hk := congrArg (fun r => r.1.calm) ‹_ = (_, _)›; simp_all; done) | (simp_all; done)

@[simp] theorem Chip.updMailbox_calm (c : Chip) (h : Nat) (f : Mailbox → Mailbox) : (c.updMailbox h f).calm = c.calm := by
  unfold Chip.updMailbox
  repeat' first | (simp; done) | (dsimp only; split) | split | (rw [foldl_calm] <;> intros) | (have hk := congrArg (fun r => r.1.calm) ‹_ = (_, _)›; simp_all; done) | (simp_all; done)

@[simp] theorem Chip.mbxDone_calm (c : Chip) (h : Nat) (a : Answer) : (c.mbxDone h a).calm = c.calm := by
  unfold Chip.mbxDone
  repeat' first | (simp; done) | (dsimp only; split) | split | (rw [foldl_calm] <;> intros) | (have hk := congrArg (fun r => r.1.calm) ‹_ = (_, _)›; simp_all; done) | (simp_all; done)

@[simp] theorem Chip.mbxTake_calm (c : Chip) (h op : Nat) (relay : Bool) (vf : Nat) (n : BitVec 32) : (c.mbxTake h op relay vf n).calm = c.calm := by
  unfold Chip.mbxTake
  repeat' first | (simp; done) | (dsimp only; split) | split | (rw [foldl_calm] <;> intros) | (have hk := congrArg (fun r => r.1.calm) ‹_ = (_, _)›; simp_all; done) | (simp_all; done)

@[simp] theorem Chip.mbxCollide_calm (c : Chip) (h : Nat) : (c.mbxCollide h).calm = c.calm := by
  unfold Chip.mbxCollide
  repeat' first | (simp; done) | (dsimp only; split) | split | (rw [foldl_calm] <;> intros) | (have hk := congrArg (fun r => r.1.calm) ‹_ = (_, _)›; simp_all; done) | (simp_all; done)

@[simp] theorem Chip.mctpAnswer_calm (c : Chip) (r : OpRecord) (status : Nat) (data : List Byte) : (c.mctpAnswer r status data).calm = c.calm := by
  unfold Chip.mctpAnswer
  repeat' first | (simp; done) | (dsimp only; split) | split | (rw [foldl_calm] <;> intros) | (have hk := congrArg (fun r => r.1.calm) ‹_ = (_, _)›; simp_all; done) | (simp_all; done)

@[simp] theorem Chip.assignAddress_calm (c : Chip) (addr : Nat) : (c.assignAddress addr).calm = c.calm := by
  unfold Chip.assignAddress
  repeat' first | (simp; done) | (dsimp only; split) | split | (rw [foldl_calm] <;> intros) | (have hk := congrArg (fun r => r.1.calm) ‹_ = (_, _)›; simp_all; done) | (simp_all; done)

@[simp] theorem Chip.shimAnswer_calm (c : Chip) (p : Packet) (l : List Word) : (c.shimAnswer p l).calm = c.calm := by
  unfold Chip.shimAnswer
  repeat' first | (simp; done) | (dsimp only; split) | split | (rw [foldl_calm] <;> intros) | (have hk := congrArg (fun r => r.1.calm) ‹_ = (_, _)›; simp_all; done) | (simp_all; done)

@[simp] theorem Chip.shimKeep_calm (c : Chip) (p : Packet) (l : List Word) : (c.shimKeep p l).calm = c.calm := by
  unfold Chip.shimKeep
  repeat' first | (simp; done) | (dsimp only; split) | split | (rw [foldl_calm] <;> intros) | (have hk := congrArg (fun r => r.1.calm) ‹_ = (_, _)›; simp_all; done) | (simp_all; done)

@[simp] theorem Chip.unserved_calm (c : Chip) (w : Writer) : (c.unserved w).calm = c.calm := by
  unfold Chip.unserved
  repeat' first | (simp; done) | (dsimp only; split) | split | (rw [foldl_calm] <;> intros) | (have hk := congrArg (fun r => r.1.calm) ‹_ = (_, _)›; simp_all; done) | (simp_all; done)

@[simp] theorem Chip.fifoRegWrite_calm (c : Chip) (h : Nat) (b : FifoBlock) (reg off : Nat) (wide : Bool) (v : Word) : (c.fifoRegWrite h b reg off wide v).calm = c.calm := by
  unfold Chip.fifoRegWrite
  repeat' first | (simp; done) | (dsimp only; split) | split | (rw [foldl_calm] <;> intros) | (have hk := congrArg (fun r => r.1.calm) ‹_ = (_, _)›; simp_all; done) | (simp_all; done)

@[simp] theorem Chip.fifoWrite_calm (c : Chip) (h off : Nat) (wide : Bool) (v : Word) : (c.fifoWrite h off wide v).calm = c.calm := by
  unfold Chip.fifoWrite
  repeat' first | (simp; done) | (dsimp only; split) | split | (rw [foldl_calm] <;> intros) | (have hk := congrArg (fun r => r.1.calm) ‹_ = (_, _)›; simp_all; done) | (simp_all; done)

@[simp] theorem Chip.eventWrite_calm (c : Chip) (fn off : Nat) (wide : Bool) (v : Word) : (c.eventWrite fn off wide v).calm = c.calm := by
  unfold Chip.eventWrite
  repeat' first | (simp; done) | (dsimp only; split) | split | (rw [foldl_calm] <;> intros) | (have hk := congrArg (fun r => r.1.calm) ‹_ = (_, _)›; simp_all; done) | (simp_all; done)

@[simp] theorem Chip.msixWrite_calm (c : Chip) (fn off : Nat) (wide : Bool) (v : Word) : (c.msixWrite fn off wide v).calm = c.calm := by
  unfold Chip.msixWrite
  repeat' first | (simp; done) | (dsimp only; split) | split | (rw [foldl_calm] <;> intros) | (have hk := congrArg (fun r => r.1.calm) ‹_ = (_, _)›; simp_all; done) | (simp_all; done)

@[simp] theorem Chip.configWrite_calm (c : Chip) (fn : Nat) (b : CfgBit) (w : Word) : (c.configWrite fn b w).calm = c.calm := by
  unfold Chip.configWrite
  repeat' first | (simp; done) | (dsimp only; split) | split | (rw [foldl_calm] <;> intros) | (have hk := congrArg (fun r => r.1.calm) ‹_ = (_, _)›; simp_all; done) | (simp_all; done)

@[simp] theorem Chip.earlyWrite_calm (c : Chip) (fn : Nat) (reg : HostReg) : (c.earlyWrite fn reg).calm = c.calm := by
  unfold Chip.earlyWrite
  repeat' first | (simp; done) | (dsimp only; split) | split | (rw [foldl_calm] <;> intros) | (have hk := congrArg (fun r => r.1.calm) ‹_ = (_, _)›; simp_all; done) | (simp_all; done)

end Sys2Proof.Machine
end

