-- ==== Sys2Proof/Laws/Counters.lean ====
section
/-! SUPPORT. What counting does to the counter that counts and to every other. -/

namespace Sys2Proof.Machine
set_option Elab.async false

theorem getCounter_add_self (id : CounterId) (n : BitVec 64) (l : List (CounterId × BitVec 64)) :
    getCounter id (addCounter id n l) = getCounter id l + n := by
  induction l with
  | nil => simp [addCounter, getCounter]
  | cons x r ih =>
    obtain ⟨i, v⟩ := x
    unfold addCounter
    by_cases h : i = id
    · simp [h, getCounter]
    · simp [h, getCounter, ih]

theorem getCounter_add_ne {id j : CounterId} (h : j ≠ id) (n : BitVec 64) (l : List (CounterId × BitVec 64)) :
    getCounter j (addCounter id n l) = getCounter j l := by
  induction l with
  | nil => simp [addCounter, getCounter, h.symm]
  | cons x r ih =>
    obtain ⟨i, v⟩ := x
    unfold addCounter
    by_cases h1 : i = id
    · subst i; simp [getCounter, h.symm]
    · simp [h1, getCounter, ih]

/-- A unit's event counter after it has counted `n` (R447). -/
theorem Chip.bump_self (c : Chip) (unit : Nat) (k : Ctr) (n : Nat) :
    getCounter ⟨unit, k⟩ (c.bump unit k n).ctr.events = getCounter ⟨unit, k⟩ c.ctr.events + BitVec.ofNat 64 n := by
  unfold Chip.bump
  split
  · subst n; simp
  · exact getCounter_add_self _ _ _

theorem Chip.bump_ne (c : Chip) (unit : Nat) (k : Ctr) (n : Nat) {j : CounterId} (h : j ≠ ⟨unit, k⟩) :
    getCounter j (c.bump unit k n).ctr.events = getCounter j c.ctr.events := by
  unfold Chip.bump
  split
  · rfl
  · exact getCounter_add_ne h _ _

end Sys2Proof.Machine
end

