-- ==== Sys2Proof/Laws/MemoryFrame.lean ====
section
/-! SUPPORT. Which operations store nothing to fabric memory, one lemma for each. -/

set_option linter.all false
namespace Sys2Proof.Machine
set_option Elab.async false
@[simp] theorem foldl_hbm {α : Type} {g : Chip → α → Chip} (hg : ∀ c a, (g c a).mem.hbm = c.mem.hbm) (l : List α) (c : Chip) :
    (l.foldl g c).mem.hbm = c.mem.hbm := by
  induction l generalizing c with
  | nil => rfl
  | cons a l ih => rw [List.foldl_cons, ih, hg]
theorem pair_hbm {α : Type} {p : Chip × α} {c d : Chip} {k : α} (e : p = (d, k)) (h : p.1.mem.hbm = c.mem.hbm) : d.mem.hbm = c.mem.hbm := by
  rw [e] at h; exact h
@[simp] theorem Chip.setParam_hbm (c : Chip) (area obj e x : Nat) : (c.setParam area obj e x).mem.hbm = c.mem.hbm := by
  unfold Chip.setParam
  repeat' first | (simp; done) | (dsimp only; split) | split | (rw [foldl_hbm] <;> intros) | (have hk := congrArg (fun r => r.1.mem.hbm) ‹_ = (_, _)›; simp_all; done) | (simp_all; done)

@[simp] theorem Chip.updFn_hbm (c : Chip) (i : Nat) (f : Func → Func) : (c.updFn i f).mem.hbm = c.mem.hbm := by
  unfold Chip.updFn
  repeat' first | (simp; done) | (dsimp only; split) | split | (rw [foldl_hbm] <;> intros) | (have hk := congrArg (fun r => r.1.mem.hbm) ‹_ = (_, _)›; simp_all; done) | (simp_all; done)

@[simp] theorem Chip.updPort_hbm (c : Chip) (h : Nat) (f : HostPort → HostPort) : (c.updPort h f).mem.hbm = c.mem.hbm := by
  unfold Chip.updPort
  repeat' first | (simp; done) | (dsimp only; split) | split | (rw [foldl_hbm] <;> intros) | (have hk := congrArg (fun r => r.1.mem.hbm) ‹_ = (_, _)›; simp_all; done) | (simp_all; done)

@[simp] theorem Chip.putQueue_hbm (c : Chip) (h qn : Nat) (q : Queue) : (c.putQueue h qn q).mem.hbm = c.mem.hbm := by
  unfold Chip.putQueue
  repeat' first | (simp; done) | (dsimp only; split) | split | (rw [foldl_hbm] <;> intros) | (have hk := congrArg (fun r => r.1.mem.hbm) ‹_ = (_, _)›; simp_all; done) | (simp_all; done)

@[simp] theorem Chip.updQueue_hbm (c : Chip) (h qn : Nat) (f : Queue → Queue) : (c.updQueue h qn f).mem.hbm = c.mem.hbm := by
  unfold Chip.updQueue
  repeat' first | (simp; done) | (dsimp only; split) | split | (rw [foldl_hbm] <;> intros) | (have hk := congrArg (fun r => r.1.mem.hbm) ‹_ = (_, _)›; simp_all; done) | (simp_all; done)

@[simp] theorem Chip.emit_hbm (c : Chip) (o : Output) : (c.emit o).mem.hbm = c.mem.hbm := by
  unfold Chip.emit
  repeat' first | (simp; done) | (dsimp only; split) | split | (rw [foldl_hbm] <;> intros) | (have hk := congrArg (fun r => r.1.mem.hbm) ‹_ = (_, _)›; simp_all; done) | (simp_all; done)

@[simp] theorem Chip.drawn_hbm (c : Chip)  : (c.drawn).mem.hbm = c.mem.hbm := by
  unfold Chip.drawn
  repeat' first | (simp; done) | (dsimp only; split) | split | (rw [foldl_hbm] <;> intros) | (have hk := congrArg (fun r => r.1.mem.hbm) ‹_ = (_, _)›; simp_all; done) | (simp_all; done)

@[simp] theorem Chip.drawnBy_hbm (c : Chip) (n : Nat) : (c.drawnBy n).mem.hbm = c.mem.hbm := by
  unfold Chip.drawnBy
  repeat' first | (simp; done) | (dsimp only; split) | split | (rw [foldl_hbm] <;> intros) | (have hk := congrArg (fun r => r.1.mem.hbm) ‹_ = (_, _)›; simp_all; done) | (simp_all; done)

@[simp] theorem Chip.bump_hbm (c : Chip) (unit : Nat) (k : Ctr) (n : Nat) : (c.bump unit k n).mem.hbm = c.mem.hbm := by
  unfold Chip.bump
  repeat' first | (simp; done) | (dsimp only; split) | split | (rw [foldl_hbm] <;> intros) | (have hk := congrArg (fun r => r.1.mem.hbm) ‹_ = (_, _)›; simp_all; done) | (simp_all; done)

@[simp] theorem Chip.bumpFn_hbm (c : Chip) (kind fn : Nat) (n : Nat) : (c.bumpFn kind fn n).mem.hbm = c.mem.hbm := by
  unfold Chip.bumpFn
  repeat' first | (simp; done) | (dsimp only; split) | split | (rw [foldl_hbm] <;> intros) | (have hk := congrArg (fun r => r.1.mem.hbm) ‹_ = (_, _)›; simp_all; done) | (simp_all; done)

@[simp] theorem Chip.sendMsix_hbm (c : Chip) (fn v : Nat) : (c.sendMsix fn v).mem.hbm = c.mem.hbm := by
  unfold Chip.sendMsix
  repeat' first | (simp; done) | (dsimp only; split) | split | (rw [foldl_hbm] <;> intros) | (have hk := congrArg (fun r => r.1.mem.hbm) ‹_ = (_, _)›; simp_all; done) | (simp_all; done)

@[simp] theorem Chip.signal_hbm (c : Chip) (fn v : Nat) : (c.signal fn v).mem.hbm = c.mem.hbm := by
  unfold Chip.signal
  repeat' first | (simp; done) | (dsimp only; split) | split | (rw [foldl_hbm] <;> intros) | (have hk := congrArg (fun r => r.1.mem.hbm) ‹_ = (_, _)›; simp_all; done) | (simp_all; done)

@[simp] theorem Chip.urgent_hbm (c : Chip) (fn : Nat) : (c.urgent fn).mem.hbm = c.mem.hbm := by
  unfold Chip.urgent
  repeat' first | (simp; done) | (dsimp only; split) | split | (rw [foldl_hbm] <;> intros) | (have hk := congrArg (fun r => r.1.mem.hbm) ‹_ = (_, _)›; simp_all; done) | (simp_all; done)

@[simp] theorem Chip.eventLost_hbm (c : Chip) (fn : Nat) : (c.eventLost fn).mem.hbm = c.mem.hbm := by
  unfold Chip.eventLost
  repeat' first | (simp; done) | (dsimp only; split) | split | (rw [foldl_hbm] <;> intros) | (have hk := congrArg (fun r => r.1.mem.hbm) ‹_ = (_, _)›; simp_all; done) | (simp_all; done)

@[simp] theorem Chip.setQState_hbm (c : Chip) (h qn : Nat) (s : QState) (cause : Nat) : (c.setQState h qn s cause).mem.hbm = c.mem.hbm := by
  unfold Chip.setQState
  repeat' first | (simp; done) | (dsimp only; split) | split | (rw [foldl_hbm] <;> intros) | (have hk := congrArg (fun r => r.1.mem.hbm) ‹_ = (_, _)›; simp_all; done) | (simp_all; done)

@[simp] theorem Chip.eqError_hbm (c : Chip) (h eqn cause : Nat) : (c.eqError h eqn cause).mem.hbm = c.mem.hbm := by
  unfold Chip.eqError
  repeat' first | (simp; done) | (dsimp only; split) | split | (rw [foldl_hbm] <;> intros) | (have hk := congrArg (fun r => r.1.mem.hbm) ‹_ = (_, _)›; simp_all; done) | (simp_all; done)

@[simp] theorem Chip.writeEvent_hbm (c : Chip) (h eqn : Nat) (q : Queue) (words : List Word) : (c.writeEvent h eqn q words).mem.hbm = c.mem.hbm := by
  unfold Chip.writeEvent
  repeat' first | (simp; done) | (dsimp only; split) | split | (rw [foldl_hbm] <;> intros) | (have hk := congrArg (fun r => r.1.mem.hbm) ‹_ = (_, _)›; simp_all; done) | (simp_all; done)

@[simp] theorem Chip.postEvent_hbm (c : Chip) (fn code unit qn detail : Nat) : (c.postEvent fn code unit qn detail).mem.hbm = c.mem.hbm := by
  unfold Chip.postEvent
  repeat' first | (simp; done) | (dsimp only; split) | split | (rw [foldl_hbm] <;> intros) | (have hk := congrArg (fun r => r.1.mem.hbm) ‹_ = (_, _)›; simp_all; done) | (simp_all; done)

@[simp] theorem Chip.eventPFs_hbm (c : Chip) (code unit qn detail : Nat) : (c.eventPFs code unit qn detail).mem.hbm = c.mem.hbm := by
  unfold Chip.eventPFs
  repeat' first | (simp; done) | (dsimp only; split) | split | (rw [foldl_hbm] <;> intros) | (have hk := congrArg (fun r => r.1.mem.hbm) ‹_ = (_, _)›; simp_all; done) | (simp_all; done)

@[simp] theorem Chip.setSrc_hbm (c : Chip) (unit cause : Nat) (s : Source) : (c.setSrc unit cause s).mem.hbm = c.mem.hbm := by
  unfold Chip.setSrc
  repeat' first | (simp; done) | (dsimp only; split) | split | (rw [foldl_hbm] <;> intros) | (have hk := congrArg (fun r => r.1.mem.hbm) ‹_ = (_, _)›; simp_all; done) | (simp_all; done)

@[simp] theorem Chip.kerfClose_hbm (c : Chip)  : (c.kerfClose).mem.hbm = c.mem.hbm := by
  unfold Chip.kerfClose
  repeat' first | (simp; done) | (dsimp only; split) | split | (rw [foldl_hbm] <;> intros) | (have hk := congrArg (fun r => r.1.mem.hbm) ‹_ = (_, _)›; simp_all; done) | (simp_all; done)

@[simp] theorem Chip.closeUnrecorded_hbm (c : Chip)  : (c.closeUnrecorded).mem.hbm = c.mem.hbm := by
  unfold Chip.closeUnrecorded
  repeat' first | (simp; done) | (dsimp only; split) | split | (rw [foldl_hbm] <;> intros) | (have hk := congrArg (fun r => r.1.mem.hbm) ‹_ = (_, _)›; simp_all; done) | (simp_all; done)

@[simp] theorem Chip.enterRecord_hbm (c : Chip) (unit cause skind subject : Nat) (d0 d1 : Word) : (c.enterRecord unit cause skind subject d0 d1).mem.hbm = c.mem.hbm := by
  unfold Chip.enterRecord
  repeat' first | (simp; done) | (dsimp only; split) | split | (rw [foldl_hbm] <;> intros) | (have hk := congrArg (fun r => r.1.mem.hbm) ‹_ = (_, _)›; simp_all; done) | (simp_all; done)

@[simp] theorem Chip.setHeld_hbm (c : Chip) (unit : Nat) (on : Bool) : (c.setHeld unit on).mem.hbm = c.mem.hbm := by
  unfold Chip.setHeld
  repeat' first | (simp; done) | (dsimp only; split) | split | (rw [foldl_hbm] <;> intros) | (have hk := congrArg (fun r => r.1.mem.hbm) ‹_ = (_, _)›; simp_all; done) | (simp_all; done)

@[simp] theorem Chip.routeFault_hbm (c : Chip)  : (c.routeFault).mem.hbm = c.mem.hbm := by
  unfold Chip.routeFault
  repeat' first | (simp; done) | (dsimp only; split) | split | (rw [foldl_hbm] <;> intros) | (have hk := congrArg (fun r => r.1.mem.hbm) ‹_ = (_, _)›; simp_all; done) | (simp_all; done)

@[simp] theorem Chip.urgentAll_hbm (c : Chip)  : (c.urgentAll).mem.hbm = c.mem.hbm := by
  unfold Chip.urgentAll
  repeat' first | (simp; done) | (dsimp only; split) | split | (rw [foldl_hbm] <;> intros) | (have hk := congrArg (fun r => r.1.mem.hbm) ‹_ = (_, _)›; simp_all; done) | (simp_all; done)

@[simp] theorem Chip.unitHeldOccurs_hbm (c : Chip) (unit : Nat) : (c.unitHeldOccurs unit).mem.hbm = c.mem.hbm := by
  unfold Chip.unitHeldOccurs
  repeat' first | (simp; done) | (dsimp only; split) | split | (rw [foldl_hbm] <;> intros) | (have hk := congrArg (fun r => r.1.mem.hbm) ‹_ = (_, _)›; simp_all; done) | (simp_all; done)

@[simp] theorem Chip.reaction3_hbm (c : Chip) (unit cause : Nat) (pended : Bool) : (c.reaction3 unit cause pended).mem.hbm = c.mem.hbm := by
  unfold Chip.reaction3
  repeat' first | (simp; done) | (dsimp only; split) | split | (rw [foldl_hbm] <;> intros) | (have hk := congrArg (fun r => r.1.mem.hbm) ‹_ = (_, _)›; simp_all; done) | (simp_all; done)

@[simp] theorem Chip.reaction4_hbm (c : Chip) (unit cause skind subject : Nat) (d0 d1 : Word) : (c.reaction4 unit cause skind subject d0 d1).mem.hbm = c.mem.hbm := by
  unfold Chip.reaction4
  repeat' first | (simp; done) | (dsimp only; split) | split | (rw [foldl_hbm] <;> intros) | (have hk := congrArg (fun r => r.1.mem.hbm) ‹_ = (_, _)›; simp_all; done) | (simp_all; done)

@[simp] theorem Chip.react_hbm (c : Chip) (unit cause skind subject : Nat) (d0 d1 : Word) (pended : Bool) : (c.react unit cause skind subject d0 d1 pended).mem.hbm = c.mem.hbm := by
  unfold Chip.react
  repeat' first | (simp; done) | (dsimp only; split) | split | (rw [foldl_hbm] <;> intros) | (have hk := congrArg (fun r => r.1.mem.hbm) ‹_ = (_, _)›; simp_all; done) | (simp_all; done)

@[simp] theorem Chip.occurrence_hbm (c : Chip) (unit cause skind subject : Nat) (d0 d1 : Word) : (c.occurrence unit cause skind subject d0 d1).mem.hbm = c.mem.hbm := by
  unfold Chip.occurrence
  repeat' first | (simp; done) | (dsimp only; split) | split | (rw [foldl_hbm] <;> intros) | (have hk := congrArg (fun r => r.1.mem.hbm) ‹_ = (_, _)›; simp_all; done) | (simp_all; done)

@[simp] theorem Chip.raise_hbm (c : Chip) (unit cause skind subject : Nat) (d0 : Word) (d1 : Word) : (c.raise unit cause skind subject d0 d1).mem.hbm = c.mem.hbm := by
  unfold Chip.raise
  repeat' first | (simp; done) | (dsimp only; split) | split | (rw [foldl_hbm] <;> intros) | (have hk := congrArg (fun r => r.1.mem.hbm) ‹_ = (_, _)›; simp_all; done) | (simp_all; done)

@[simp] theorem Chip.setCond_hbm (c : Chip) (unit cause : Nat) (on : Bool) (skind subject : Nat) (d0 : Word) : (c.setCond unit cause on skind subject d0).mem.hbm = c.mem.hbm := by
  unfold Chip.setCond
  repeat' first | (simp; done) | (dsimp only; split) | split | (rw [foldl_hbm] <;> intros) | (have hk := congrArg (fun r => r.1.mem.hbm) ‹_ = (_, _)›; simp_all; done) | (simp_all; done)

@[simp] theorem Chip.arrive_hbm (c : Chip) (inp : Nat) (p : Packet) (pool : Bool) : (c.arrive inp p pool).mem.hbm = c.mem.hbm := by
  unfold Chip.arrive
  repeat' first | (simp; done) | (dsimp only; split) | split | (rw [foldl_hbm] <;> intros) | (have hk := congrArg (fun r => r.1.mem.hbm) ‹_ = (_, _)›; simp_all; done) | (simp_all; done)

@[simp] theorem Chip.inject_hbm (c : Chip) (h : Nat) (p : Packet) : (c.inject h p).mem.hbm = c.mem.hbm := by
  unfold Chip.inject
  repeat' first | (simp; done) | (dsimp only; split) | split | (rw [foldl_hbm] <;> intros) | (have hk := congrArg (fun r => r.1.mem.hbm) ‹_ = (_, _)›; simp_all; done) | (simp_all; done)

@[simp] theorem Chip.injectShim_hbm (c : Chip) (kind dst : Nat) (w0 w1 w2 w3 : Word) : (c.injectShim kind dst w0 w1 w2 w3).mem.hbm = c.mem.hbm := by
  unfold Chip.injectShim
  repeat' first | (simp; done) | (dsimp only; split) | split | (rw [foldl_hbm] <;> intros) | (have hk := congrArg (fun r => r.1.mem.hbm) ‹_ = (_, _)›; simp_all; done) | (simp_all; done)

@[simp] theorem Chip.openHeld_hbm (c : Chip) (e : HeldEnt) : (c.openHeld e).mem.hbm = c.mem.hbm := by
  unfold Chip.openHeld
  repeat' first | (simp; done) | (dsimp only; split) | split | (rw [foldl_hbm] <;> intros) | (have hk := congrArg (fun r => r.1.mem.hbm) ‹_ = (_, _)›; simp_all; done) | (simp_all; done)

@[simp] theorem Chip.trigRelease_hbm (c : Chip) (n : Nat) : (c.trigRelease n).mem.hbm = c.mem.hbm := by
  unfold Chip.trigRelease
  repeat' first | (simp; done) | (dsimp only; split) | split | (rw [foldl_hbm] <;> intros) | (have hk := congrArg (fun r => r.1.mem.hbm) ‹_ = (_, _)›; simp_all; done) | (simp_all; done)

@[simp] theorem Chip.trigAdd_hbm (c : Chip) (n k : Nat) : (c.trigAdd n k).mem.hbm = c.mem.hbm := by
  unfold Chip.trigAdd
  repeat' first | (simp; done) | (dsimp only; split) | split | (rw [foldl_hbm] <;> intros) | (have hk := congrArg (fun r => r.1.mem.hbm) ‹_ = (_, _)›; simp_all; done) | (simp_all; done)

@[simp] theorem Chip.advance_hbm (c : Chip) (d : Decided) (k : Nat) : (c.advance d k).mem.hbm = c.mem.hbm := by
  unfold Chip.advance
  repeat' first | (simp; done) | (dsimp only; split) | split | (rw [foldl_hbm] <;> intros) | (have hk := congrArg (fun r => r.1.mem.hbm) ‹_ = (_, _)›; simp_all; done) | (simp_all; done)

@[simp] theorem Chip.writeCqe_hbm (c : Chip) (h cqn : Nat) (q : Queue) (p : Completion) : (c.writeCqe h cqn q p).mem.hbm = c.mem.hbm := by
  unfold Chip.writeCqe
  repeat' first | (simp; done) | (dsimp only; split) | split | (rw [foldl_hbm] <;> intros) | (have hk := congrArg (fun r => r.1.mem.hbm) ‹_ = (_, _)›; simp_all; done) | (simp_all; done)

@[simp] theorem Chip.loseCompletions_hbm (c : Chip) (h cqn : Nat) (d : Decided) (k : Nat) : (c.loseCompletions h cqn d k).mem.hbm = c.mem.hbm := by
  unfold Chip.loseCompletions
  repeat' first | (simp; done) | (dsimp only; split) | split | (rw [foldl_hbm] <;> intros) | (have hk := congrArg (fun r => r.1.mem.hbm) ‹_ = (_, _)›; simp_all; done) | (simp_all; done)

@[simp] theorem Chip.dropPosted_hbm (c : Chip) (h qn : Nat) : (c.dropPosted h qn).mem.hbm = c.mem.hbm := by
  unfold Chip.dropPosted
  repeat' first | (simp; done) | (dsimp only; split) | split | (rw [foldl_hbm] <;> intros) | (have hk := congrArg (fun r => r.1.mem.hbm) ‹_ = (_, _)›; simp_all; done) | (simp_all; done)

@[simp] theorem Chip.discardHeld_hbm (c : Chip) (p : HeldEnt → Bool) : (c.discardHeld p).mem.hbm = c.mem.hbm := by
  unfold Chip.discardHeld
  repeat' first | (simp; done) | (dsimp only; split) | split | (rw [foldl_hbm] <;> intros) | (have hk := congrArg (fun r => r.1.mem.hbm) ‹_ = (_, _)›; simp_all; done) | (simp_all; done)

@[simp] theorem Chip.cqErrorBound_hbm (c : Chip) (h cqn qn : Nat) (q : Queue) : (c.cqErrorBound h cqn qn q).mem.hbm = c.mem.hbm := by
  unfold Chip.cqErrorBound
  repeat' first | (simp; done) | (dsimp only; split) | split | (rw [foldl_hbm] <;> intros) | (have hk := congrArg (fun r => r.1.mem.hbm) ‹_ = (_, _)›; simp_all; done) | (simp_all; done)

@[simp] theorem Chip.cqError_hbm (c : Chip) (h cqn cause : Nat) : (c.cqError h cqn cause).mem.hbm = c.mem.hbm := by
  unfold Chip.cqError
  repeat' first | (simp; done) | (dsimp only; split) | split | (rw [foldl_hbm] <;> intros) | (have hk := congrArg (fun r => r.1.mem.hbm) ‹_ = (_, _)›; simp_all; done) | (simp_all; done)

@[simp] theorem Chip.loseOne_hbm (c : Chip) (h cqn fn : Nat) : (c.loseOne h cqn fn).mem.hbm = c.mem.hbm := by
  unfold Chip.loseOne
  repeat' first | (simp; done) | (dsimp only; split) | split | (rw [foldl_hbm] <;> intros) | (have hk := congrArg (fun r => r.1.mem.hbm) ‹_ = (_, _)›; simp_all; done) | (simp_all; done)

@[simp] theorem Chip.takeBacklog_hbm (c : Chip) (h cqn : Nat) (q : Queue) (d : Decided) (p : Completion) : (c.takeBacklog h cqn q d p).mem.hbm = c.mem.hbm := by
  unfold Chip.takeBacklog
  repeat' first | (simp; done) | (dsimp only; split) | split | (rw [foldl_hbm] <;> intros) | (have hk := congrArg (fun r => r.1.mem.hbm) ‹_ = (_, _)›; simp_all; done) | (simp_all; done)

@[simp] theorem Chip.deliver_hbm (c : Chip) (h cqn : Nat) (d : Decided) (p : Completion) : (c.deliver h cqn d p).mem.hbm = c.mem.hbm := by
  unfold Chip.deliver
  repeat' first | (simp; done) | (dsimp only; split) | split | (rw [foldl_hbm] <;> intros) | (have hk := congrArg (fun r => r.1.mem.hbm) ‹_ = (_, _)›; simp_all; done) | (simp_all; done)

@[simp] theorem Chip.complete_hbm (c : Chip) (d : Decided) (p : Completion) : (c.complete d p).mem.hbm = c.mem.hbm := by
  unfold Chip.complete
  repeat' first | (simp; done) | (dsimp only; split) | split | (rw [foldl_hbm] <;> intros) | (have hk := congrArg (fun r => r.1.mem.hbm) ‹_ = (_, _)›; simp_all; done) | (simp_all; done)

@[simp] theorem Chip.flushOne_hbm (c : Chip) (h qn : Nat) (q : Queue) (p : Completion) : (c.flushOne h qn q p).mem.hbm = c.mem.hbm := by
  unfold Chip.flushOne
  repeat' first | (simp; done) | (dsimp only; split) | split | (rw [foldl_hbm] <;> intros) | (have hk := congrArg (fun r => r.1.mem.hbm) ‹_ = (_, _)›; simp_all; done) | (simp_all; done)

@[simp] theorem Chip.flushEntries_hbm (c : Chip) (h qn : Nat) (read : List Entry) (z0 : Nat) : (c.flushEntries h qn read z0).mem.hbm = c.mem.hbm := by
  induction z0 generalizing c h qn read <;> unfold Chip.flushEntries <;> repeat' first | (simp; done) | (dsimp only; split) | split | (rw [foldl_hbm] <;> intros) | (have hk := congrArg (fun r => r.1.mem.hbm) ‹_ = (_, _)›; simp_all; done) | (simp_all; done)

@[simp] theorem Chip.flushQueue_hbm (c : Chip) (h qn : Nat) : (c.flushQueue h qn).mem.hbm = c.mem.hbm := by
  unfold Chip.flushQueue
  repeat' first | (simp; done) | (dsimp only; split) | split | (rw [foldl_hbm] <;> intros) | (have hk := congrArg (fun r => r.1.mem.hbm) ‹_ = (_, _)›; simp_all; done) | (simp_all; done)

@[simp] theorem Chip.flushRead_hbm (c : Chip) (h qn : Nat) (read : List Entry) : (c.flushRead h qn read).mem.hbm = c.mem.hbm := by
  unfold Chip.flushRead
  repeat' first | (simp; done) | (dsimp only; split) | split | (rw [foldl_hbm] <;> intros) | (have hk := congrArg (fun r => r.1.mem.hbm) ‹_ = (_, _)›; simp_all; done) | (simp_all; done)

@[simp] theorem Chip.flushUnread_hbm (c : Chip) (h qn : Nat) (z0 : Nat) : (c.flushUnread h qn z0).mem.hbm = c.mem.hbm := by
  induction z0 generalizing c h qn <;> unfold Chip.flushUnread <;> repeat' first | (simp; done) | (dsimp only; split) | split | (rw [foldl_hbm] <;> intros) | (have hk := congrArg (fun r => r.1.mem.hbm) ‹_ = (_, _)›; simp_all; done) | (simp_all; done)

@[simp] theorem Chip.flushHeld_hbm (c : Chip) (h fn qn : Nat) (cqn : Nat) : (c.flushHeld h fn qn cqn).mem.hbm = c.mem.hbm := by
  unfold Chip.flushHeld
  repeat' first | (simp; done) | (dsimp only; split) | split | (rw [foldl_hbm] <;> intros) | (have hk := congrArg (fun r => r.1.mem.hbm) ‹_ = (_, _)›; simp_all; done) | (simp_all; done)

@[simp] theorem Chip.flushReceives_hbm (c : Chip) (h qn : Nat) : (c.flushReceives h qn).mem.hbm = c.mem.hbm := by
  unfold Chip.flushReceives
  repeat' first | (simp; done) | (dsimp only; split) | split | (rw [foldl_hbm] <;> intros) | (have hk := congrArg (fun r => r.1.mem.hbm) ‹_ = (_, _)›; simp_all; done) | (simp_all; done)

@[simp] theorem Chip.queueError_hbm (c : Chip) (h qn cause status : Nat) : (c.queueError h qn cause status).mem.hbm = c.mem.hbm := by
  unfold Chip.queueError
  repeat' first | (simp; done) | (dsimp only; split) | split | (rw [foldl_hbm] <;> intros) | (have hk := congrArg (fun r => r.1.mem.hbm) ‹_ = (_, _)›; simp_all; done) | (simp_all; done)

@[simp] theorem Chip.drainFailed_hbm (c : Chip) (h qn : Nat) (z0 : Nat) : (c.drainFailed h qn z0).mem.hbm = c.mem.hbm := by
  induction z0 generalizing c h qn <;> unfold Chip.drainFailed <;> repeat' first | (simp; done) | (dsimp only; split) | split | (rw [foldl_hbm] <;> intros) | (have hk := congrArg (fun r => r.1.mem.hbm) ‹_ = (_, _)›; simp_all; done) | (simp_all; done)

@[simp] theorem Chip.closePos_hbm (c : Chip) (h qn pos : Nat) : (c.closePos h qn pos).mem.hbm = c.mem.hbm := by
  unfold Chip.closePos
  repeat' first | (simp; done) | (dsimp only; split) | split | (rw [foldl_hbm] <;> intros) | (have hk := congrArg (fun r => r.1.mem.hbm) ‹_ = (_, _)›; simp_all; done) | (simp_all; done)

@[simp] theorem Chip.failEntry_hbm (c : Chip) (h qn pos : Nat) (e : Entry) (status : Nat) : (c.failEntry h qn pos e status).mem.hbm = c.mem.hbm := by
  unfold Chip.failEntry
  repeat' first | (simp; done) | (dsimp only; split) | split | (rw [foldl_hbm] <;> intros) | (have hk := congrArg (fun r => r.1.mem.hbm) ‹_ = (_, _)›; simp_all; done) | (simp_all; done)

@[simp] theorem Chip.consume_hbm (c : Chip) (h qn : Nat) (q : Queue) : (c.consume h qn q).mem.hbm = c.mem.hbm := by
  unfold Chip.consume
  repeat' first | (simp; done) | (dsimp only; split) | split | (rw [foldl_hbm] <;> intros) | (have hk := congrArg (fun r => r.1.mem.hbm) ‹_ = (_, _)›; simp_all; done) | (simp_all; done)

@[simp] theorem Chip.poisonDevice_hbm (c : Chip) (holder : Nat) : (c.poisonDevice holder).mem.hbm = c.mem.hbm := by
  unfold Chip.poisonDevice
  repeat' first | (simp; done) | (dsimp only; split) | split | (rw [foldl_hbm] <;> intros) | (have hk := congrArg (fun r => r.1.mem.hbm) ‹_ = (_, _)›; simp_all; done) | (simp_all; done)

@[simp] theorem Chip.poisonRead_hbm (c : Chip) (o holder : Nat) : (c.poisonRead o holder).mem.hbm = c.mem.hbm := by
  unfold Chip.poisonRead
  repeat' first | (simp; done) | (dsimp only; split) | split | (rw [foldl_hbm] <;> intros) | (have hk := congrArg (fun r => r.1.mem.hbm) ‹_ = (_, _)›; simp_all; done) | (simp_all; done)

@[simp] theorem Chip.askPage_hbm (c : Chip) (fn page : Nat) : (c.askPage fn page).1.mem.hbm = c.mem.hbm := by
  unfold Chip.askPage
  repeat' first | (simp; done) | (dsimp only; split) | split | (rw [foldl_hbm] <;> intros) | (have hk := congrArg (fun r => r.1.mem.hbm) ‹_ = (_, _)›; simp_all; done) | (simp_all; done)

@[simp] theorem Chip.translateAll_hbm (c : Chip) (fn : Nat) (z0 : List (Nat × Nat)) : (c.translateAll fn z0).1.mem.hbm = c.mem.hbm := by
  induction z0 generalizing c with
  | nil => rfl
  | cons x r ih =>
    unfold Chip.translateAll
    extract_lets asked
    have h0 : asked.1.mem.hbm = c.mem.hbm := by
      show (match c.cachedPage? fn (pageOf x.1) with | some t => (c, some t) | none => c.askPage fn (pageOf x.1)).1.mem.hbm = _
      split <;> simp
    clear_value asked
    split
    · exact h0
    · rename_i e
      split
      · rename_i e2; exact (pair_hbm e2 (ih _)).trans h0
      · rename_i e2; exact (pair_hbm e2 (ih _)).trans h0

@[simp] theorem Chip.translate_hbm (c : Chip) (fn : Nat) (segs : List (Nat × Nat)) : (c.translate fn segs).1.mem.hbm = c.mem.hbm := by
  unfold Chip.translate
  repeat' first | (simp; done) | (dsimp only; split) | split | (rw [foldl_hbm] <;> intros) | (have hk := congrArg (fun r => r.1.mem.hbm) ‹_ = (_, _)›; simp_all; done) | (simp_all; done)

@[simp] theorem Chip.dmaSegments_hbm (c : Chip) (h fn : Nat) (z0 : List (Nat × Nat)) (z1 : List Byte) : (c.dmaSegments h fn z0 z1).mem.hbm = c.mem.hbm := by
  induction z0 generalizing c h fn z1 <;> unfold Chip.dmaSegments <;> repeat' first | (simp; done) | (dsimp only; split) | split | (rw [foldl_hbm] <;> intros) | (have hk := congrArg (fun r => r.1.mem.hbm) ‹_ = (_, _)›; simp_all; done) | (simp_all; done)

@[simp] theorem Chip.bytesAt_hbm (c : Chip) (k : KeyCheck) (n : Nat) (data : SourceData) : (c.bytesAt k n data).1.mem.hbm = c.mem.hbm := by
  unfold Chip.bytesAt
  repeat' first | (simp; done) | (rename_i e; simp [pair_hbm e (Chip.translate_hbm ..)]; done) | (rename_i e _; simp [pair_hbm e (Chip.translate_hbm ..)]; done) | (rename_i e _ _ _; simp [pair_hbm e (Chip.translate_hbm ..)]; done) | split

@[simp] theorem Chip.freezeRoutes_hbm (c : Chip)  : (c.freezeRoutes).mem.hbm = c.mem.hbm := by
  unfold Chip.freezeRoutes
  repeat' first | (simp; done) | (dsimp only; split) | split | (rw [foldl_hbm] <;> intros) | (have hk := congrArg (fun r => r.1.mem.hbm) ‹_ = (_, _)›; simp_all; done) | (simp_all; done)

@[simp] theorem Chip.putChan_hbm (c : Chip) (k : Nat) (x : Chan) : (c.putChan k x).mem.hbm = c.mem.hbm := by
  unfold Chip.putChan
  repeat' first | (simp; done) | (dsimp only; split) | split | (rw [foldl_hbm] <;> intros) | (have hk := congrArg (fun r => r.1.mem.hbm) ‹_ = (_, _)›; simp_all; done) | (simp_all; done)

@[simp] theorem Chip.updChan_hbm (c : Chip) (k : Nat) (f : Chan → Chan) : (c.updChan k f).mem.hbm = c.mem.hbm := by
  unfold Chip.updChan
  repeat' first | (simp; done) | (dsimp only; split) | split | (rw [foldl_hbm] <;> intros) | (have hk := congrArg (fun r => r.1.mem.hbm) ‹_ = (_, _)›; simp_all; done) | (simp_all; done)

@[simp] theorem Chip.putDest_hbm (c : Chip) (chip : Nat) (d : Dest) : (c.putDest chip d).mem.hbm = c.mem.hbm := by
  unfold Chip.putDest
  repeat' first | (simp; done) | (dsimp only; split) | split | (rw [foldl_hbm] <;> intros) | (have hk := congrArg (fun r => r.1.mem.hbm) ‹_ = (_, _)›; simp_all; done) | (simp_all; done)

@[simp] theorem Chip.ecnFrom_hbm (c : Chip) (chip : Nat) : (c.ecnFrom chip).mem.hbm = c.mem.hbm := by
  unfold Chip.ecnFrom
  repeat' first | (simp; done) | (dsimp only; split) | split | (rw [foldl_hbm] <;> intros) | (have hk := congrArg (fun r => r.1.mem.hbm) ‹_ = (_, _)›; simp_all; done) | (simp_all; done)

@[simp] theorem Chip.retiredTo_hbm (c : Chip) (chip n : Nat) : (c.retiredTo chip n).mem.hbm = c.mem.hbm := by
  unfold Chip.retiredTo
  repeat' first | (simp; done) | (dsimp only; split) | split | (rw [foldl_hbm] <;> intros) | (have hk := congrArg (fun r => r.1.mem.hbm) ‹_ = (_, _)›; simp_all; done) | (simp_all; done)

@[simp] theorem Chip.heardFrom_hbm (c : Chip) (chip : Nat) : (c.heardFrom chip).mem.hbm = c.mem.hbm := by
  unfold Chip.heardFrom
  repeat' first | (simp; done) | (dsimp only; split) | split | (rw [foldl_hbm] <;> intros) | (have hk := congrArg (fun r => r.1.mem.hbm) ‹_ = (_, _)›; simp_all; done) | (simp_all; done)

@[simp] theorem Chip.policerDebit_hbm (c : Chip) (fn cells : Nat) : (c.policerDebit fn cells).mem.hbm = c.mem.hbm := by
  unfold Chip.policerDebit
  repeat' first | (simp; done) | (dsimp only; split) | split | (rw [foldl_hbm] <;> intros) | (have hk := congrArg (fun r => r.1.mem.hbm) ‹_ = (_, _)›; simp_all; done) | (simp_all; done)

@[simp] theorem Chip.countInjected_hbm (c : Chip) (fn : Option Nat) (p : Packet) : (c.countInjected fn p).mem.hbm = c.mem.hbm := by
  unfold Chip.countInjected
  repeat' first | (simp; done) | (dsimp only; split) | split | (rw [foldl_hbm] <;> intros) | (have hk := congrArg (fun r => r.1.mem.hbm) ‹_ = (_, _)›; simp_all; done) | (simp_all; done)

@[simp] theorem Chip.sendRequest_hbm (c : Chip) (k : Nat) (fn : Option Nat) (p : Packet) : (c.sendRequest k fn p).mem.hbm = c.mem.hbm := by
  unfold Chip.sendRequest
  repeat' first | (simp; done) | (dsimp only; split) | split | (rw [foldl_hbm] <;> intros) | (have hk := congrArg (fun r => r.1.mem.hbm) ‹_ = (_, _)›; simp_all; done) | (simp_all; done)

@[simp] theorem Chip.transmit_hbm (c : Chip) (k : Nat) (fn : Option Nat) (p : Packet) : (c.transmit k fn p).mem.hbm = c.mem.hbm := by
  unfold Chip.transmit
  repeat' first | (simp; done) | (dsimp only; split) | split | (rw [foldl_hbm] <;> intros) | (have hk := congrArg (fun r => r.1.mem.hbm) ‹_ = (_, _)›; simp_all; done) | (simp_all; done)

@[simp] theorem Chip.pump_hbm (c : Chip) (k : Nat) (z0 : Nat) : (c.pump k z0).mem.hbm = c.mem.hbm := by
  induction z0 generalizing c k <;> unfold Chip.pump <;> repeat' first | (simp; done) | (dsimp only; split) | split | (rw [foldl_hbm] <;> intros) | (have hk := congrArg (fun r => r.1.mem.hbm) ‹_ = (_, _)›; simp_all; done) | (simp_all; done)

@[simp] theorem Chip.sendSync_hbm (c : Chip) (k : Nat) : (c.sendSync k).mem.hbm = c.mem.hbm := by
  unfold Chip.sendSync
  repeat' first | (simp; done) | (dsimp only; split) | split | (rw [foldl_hbm] <;> intros) | (have hk := congrArg (fun r => r.1.mem.hbm) ‹_ = (_, _)›; simp_all; done) | (simp_all; done)

@[simp] theorem Chip.startSync_hbm (c : Chip) (k : Nat) : (c.startSync k).mem.hbm = c.mem.hbm := by
  unfold Chip.startSync
  repeat' first | (simp; done) | (dsimp only; split) | split | (rw [foldl_hbm] <;> intros) | (have hk := congrArg (fun r => r.1.mem.hbm) ‹_ = (_, _)›; simp_all; done) | (simp_all; done)

@[simp] theorem Chip.dropOffer_hbm (c : Chip) (index : Nat) : (c.dropOffer index).mem.hbm = c.mem.hbm := by
  unfold Chip.dropOffer
  repeat' first | (simp; done) | (dsimp only; split) | split | (rw [foldl_hbm] <;> intros) | (have hk := congrArg (fun r => r.1.mem.hbm) ‹_ = (_, _)›; simp_all; done) | (simp_all; done)

@[simp] theorem Chip.endOffer_hbm (c : Chip) (index status length : Nat) : (c.endOffer index status length).mem.hbm = c.mem.hbm := by
  unfold Chip.endOffer
  repeat' first | (simp; done) | (dsimp only; split) | split | (rw [foldl_hbm] <;> intros) | (have hk := congrArg (fun r => r.1.mem.hbm) ‹_ = (_, _)›; simp_all; done) | (simp_all; done)

@[simp] theorem Chip.finishOp_hbm (c : Chip) (k : Nat) (o : SendOp) (status : Nat) : (c.finishOp k o status).mem.hbm = c.mem.hbm := by
  unfold Chip.finishOp
  repeat' first | (simp; done) | (dsimp only; split) | split | (rw [foldl_hbm] <;> intros) | (have hk := congrArg (fun r => r.1.mem.hbm) ‹_ = (_, _)›; simp_all; done) | (simp_all; done)

@[simp] theorem Chip.deliverOps_hbm (c : Chip) (k : Nat) (z0 : Nat) : (c.deliverOps k z0).mem.hbm = c.mem.hbm := by
  induction z0 generalizing c k <;> unfold Chip.deliverOps <;> repeat' first | (simp; done) | (dsimp only; split) | split | (rw [foldl_hbm] <;> intros) | (have hk := congrArg (fun r => r.1.mem.hbm) ‹_ = (_, _)›; simp_all; done) | (simp_all; done)

@[simp] theorem Chip.deliverChan_hbm (c : Chip) (k : Nat) : (c.deliverChan k).mem.hbm = c.mem.hbm := by
  unfold Chip.deliverChan
  repeat' first | (simp; done) | (dsimp only; split) | split | (rw [foldl_hbm] <;> intros) | (have hk := congrArg (fun r => r.1.mem.hbm) ‹_ = (_, _)›; simp_all; done) | (simp_all; done)

@[simp] theorem Chip.failUnsent_hbm (c : Chip) (k status : Nat) (o : SendOp) : (c.failUnsent k status o).mem.hbm = c.mem.hbm := by
  unfold Chip.failUnsent
  repeat' first | (simp; done) | (dsimp only; split) | split | (rw [foldl_hbm] <;> intros) | (have hk := congrArg (fun r => r.1.mem.hbm) ‹_ = (_, _)›; simp_all; done) | (simp_all; done)

@[simp] theorem Chip.failWaiting_hbm (c : Chip) (k status : Nat) : (c.failWaiting k status).mem.hbm = c.mem.hbm := by
  unfold Chip.failWaiting
  repeat' first | (simp; done) | (dsimp only; split) | split | (rw [foldl_hbm] <;> intros) | (have hk := congrArg (fun r => r.1.mem.hbm) ‹_ = (_, _)›; simp_all; done) | (simp_all; done)

@[simp] theorem Chip.noRoute_hbm (c : Chip) (k : Nat) (sending : SendOp → Bool) : (c.noRoute k sending).mem.hbm = c.mem.hbm := by
  unfold Chip.noRoute
  repeat' first | (simp; done) | (dsimp only; split) | split | (rw [foldl_hbm] <;> intros) | (have hk := congrArg (fun r => r.1.mem.hbm) ‹_ = (_, _)›; simp_all; done) | (simp_all; done)

@[simp] theorem Chip.runChan_hbm (c : Chip) (k : Nat) : (c.runChan k).mem.hbm = c.mem.hbm := by
  unfold Chip.runChan
  repeat' first | (simp; done) | (dsimp only; split) | split | (rw [foldl_hbm] <;> intros) | (have hk := congrArg (fun r => r.1.mem.hbm) ‹_ = (_, _)›; simp_all; done) | (simp_all; done)

@[simp] theorem Chip.runChip_hbm (c : Chip) (chip : Nat) : (c.runChip chip).mem.hbm = c.mem.hbm := by
  unfold Chip.runChip
  repeat' first | (simp; done) | (dsimp only; split) | split | (rw [foldl_hbm] <;> intros) | (have hk := congrArg (fun r => r.1.mem.hbm) ‹_ = (_, _)›; simp_all; done) | (simp_all; done)

@[simp] theorem Chip.advanceChan_hbm (c : Chip) (k : Nat) : (c.advanceChan k).mem.hbm = c.mem.hbm := by
  unfold Chip.advanceChan
  repeat' first | (simp; done) | (dsimp only; split) | split | (rw [foldl_hbm] <;> intros) | (have hk := congrArg (fun r => r.1.mem.hbm) ‹_ = (_, _)›; simp_all; done) | (simp_all; done)

@[simp] theorem Chip.retire_hbm (c : Chip) (k : Nat) (p : OutPkt → Bool) (ecne : Bool) : (c.retire k p ecne).mem.hbm = c.mem.hbm := by
  unfold Chip.retire
  repeat' first | (simp; done) | (dsimp only; split) | split | (rw [foldl_hbm] <;> intros) | (have hk := congrArg (fun r => r.1.mem.hbm) ‹_ = (_, _)›; simp_all; done) | (simp_all; done)

@[simp] theorem Chip.contextOut_hbm (c : Chip) (ctx : CtxKey) : (c.contextOut ctx).mem.hbm = c.mem.hbm := by
  unfold Chip.contextOut
  repeat' first | (simp; done) | split
  cases c.queue? _ _ <;> simp

@[simp] theorem Chip.evict_hbm (c : Chip) (v : CtxKey) : (c.evict v).mem.hbm = c.mem.hbm := by
  unfold Chip.evict
  repeat' first | (simp; done) | (dsimp only; split) | split | (rw [foldl_hbm] <;> intros) | (have hk := congrArg (fun r => r.1.mem.hbm) ‹_ = (_, _)›; simp_all; done) | (simp_all; done)

@[simp] theorem Chip.install_hbm (c : Chip) (ctx : CtxKey) : (c.install ctx).mem.hbm = c.mem.hbm := by
  unfold Chip.install
  repeat' first | (simp; done) | (dsimp only; split) | split | (rw [foldl_hbm] <;> intros) | (have hk := congrArg (fun r => r.1.mem.hbm) ‹_ = (_, _)›; simp_all; done) | (simp_all; done)

@[simp] theorem Chip.touch_hbm (c : Chip) (ctx : CtxKey) : (c.touch ctx).mem.hbm = c.mem.hbm := by
  unfold Chip.touch
  repeat' first | (simp; done) | (dsimp only; split) | split | (rw [foldl_hbm] <;> intros) | (have hk := congrArg (fun r => r.1.mem.hbm) ‹_ = (_, _)›; simp_all; done) | (simp_all; done)

@[simp] theorem Chip.beginFetch_hbm (c : Chip) (ctx : CtxKey) : (c.beginFetch ctx).mem.hbm = c.mem.hbm := by
  unfold Chip.beginFetch
  repeat' first | (simp; done) | (dsimp only; split) | split | (rw [foldl_hbm] <;> intros) | (have hk := congrArg (fun r => r.1.mem.hbm) ‹_ = (_, _)›; simp_all; done) | (simp_all; done)

@[simp] theorem Chip.endFetch_hbm (c : Chip) (ctx : CtxKey) : (c.endFetch ctx).mem.hbm = c.mem.hbm := by
  unfold Chip.endFetch
  repeat' first | (simp; done) | (dsimp only; split) | split | (rw [foldl_hbm] <;> intros) | (have hk := congrArg (fun r => r.1.mem.hbm) ‹_ = (_, _)›; simp_all; done) | (simp_all; done)

@[simp] theorem Chip.failOps_hbm (c : Chip) (k status : Nat) : (c.failOps k status).mem.hbm = c.mem.hbm := by
  unfold Chip.failOps
  repeat' first | (simp; done) | (dsimp only; split) | split | (rw [foldl_hbm] <;> intros) | (have hk := congrArg (fun r => r.1.mem.hbm) ‹_ = (_, _)›; simp_all; done) | (simp_all; done)

@[simp] theorem Chip.chanError_hbm (c : Chip) (k : Nat) : (c.chanError k).mem.hbm = c.mem.hbm := by
  unfold Chip.chanError
  split
  · rfl
  · dsimp only
    split
    · simp
    · simp only [Chip.putDest_hbm]
      rw [foldl_hbm] <;> intros
      · simp
      · split <;> simp

@[simp] theorem Chip.chanFence_hbm (c : Chip) (k : Nat) : (c.chanFence k).mem.hbm = c.mem.hbm := by
  unfold Chip.chanFence
  repeat' first | (simp; done) | (dsimp only; split) | split | (rw [foldl_hbm] <;> intros) | (have hk := congrArg (fun r => r.1.mem.hbm) ‹_ = (_, _)›; simp_all; done) | (simp_all; done)

@[simp] theorem Chip.chanUnfence_hbm (c : Chip) (k : Nat) : (c.chanUnfence k).mem.hbm = c.mem.hbm := by
  unfold Chip.chanUnfence
  repeat' first | (simp; done) | (dsimp only; split) | split | (rw [foldl_hbm] <;> intros) | (have hk := congrArg (fun r => r.1.mem.hbm) ‹_ = (_, _)›; simp_all; done) | (simp_all; done)

@[simp] theorem Chip.enqueueOp_hbm (c : Chip) (k : Nat) (o : SendOp) : (c.enqueueOp k o).mem.hbm = c.mem.hbm := by
  unfold Chip.enqueueOp
  repeat' first | (simp; done) | (dsimp only; split) | split | (rw [foldl_hbm] <;> intros) | (have hk := congrArg (fun r => r.1.mem.hbm) ‹_ = (_, _)›; simp_all; done) | (simp_all; done)

@[simp] theorem Chip.placeHeld_hbm (c : Chip) (e : HeldEnt) : (c.placeHeld e).mem.hbm = c.mem.hbm := by
  unfold Chip.placeHeld
  repeat' first | (simp; done) | (dsimp only; split) | split | (rw [foldl_hbm] <;> intros) | (have hk := congrArg (fun r => r.1.mem.hbm) ‹_ = (_, _)›; simp_all; done) | (simp_all; done)

@[simp] theorem Chip.heldPlaces_hbm (c : Chip)  : (c.heldPlaces).mem.hbm = c.mem.hbm := by
  unfold Chip.heldPlaces
  repeat' first | (simp; done) | (dsimp only; split) | split | (rw [foldl_hbm] <;> intros) | (have hk := congrArg (fun r => r.1.mem.hbm) ‹_ = (_, _)›; simp_all; done) | (simp_all; done)

@[simp] theorem Chip.enqueueOps_hbm (c : Chip) (k : Nat) (l : List SendOp) : (c.enqueueOps k l).mem.hbm = c.mem.hbm := by
  unfold Chip.enqueueOps
  repeat' first | (simp; done) | (dsimp only; split) | split | (rw [foldl_hbm] <;> intros) | (have hk := congrArg (fun r => r.1.mem.hbm) ‹_ = (_, _)›; simp_all; done) | (simp_all; done)

@[simp] theorem Chip.putFifo_hbm (c : Chip) (i : Nat) (f : Fifo) : (c.putFifo i f).mem.hbm = c.mem.hbm := by
  unfold Chip.putFifo
  repeat' first | (simp; done) | (dsimp only; split) | split | (rw [foldl_hbm] <;> intros) | (have hk := congrArg (fun r => r.1.mem.hbm) ‹_ = (_, _)›; simp_all; done) | (simp_all; done)

@[simp] theorem Chip.onFifo_hbm (c : Chip) (h : Nat) (b : FifoBlock) (f : Fifo → Fifo) : (c.onFifo h b f).mem.hbm = c.mem.hbm := by
  unfold Chip.onFifo
  repeat' first | (simp; done) | (dsimp only; split) | split | (rw [foldl_hbm] <;> intros) | (have hk := congrArg (fun r => r.1.mem.hbm) ‹_ = (_, _)›; simp_all; done) | (simp_all; done)

@[simp] theorem Chip.reply_hbm (c : Chip) (fn : Nat) (w : Word) : (c.reply fn w).mem.hbm = c.mem.hbm := by
  unfold Chip.reply
  repeat' first | (simp; done) | (dsimp only; split) | split | (rw [foldl_hbm] <;> intros) | (have hk := congrArg (fun r => r.1.mem.hbm) ‹_ = (_, _)›; simp_all; done) | (simp_all; done)

@[simp] theorem Chip.ffRead_hbm (c : Chip) (h : Nat) (b : FifoBlock) (wide : Bool) : (c.ffRead h b wide).mem.hbm = c.mem.hbm := by
  unfold Chip.ffRead
  repeat' first | (simp; done) | (dsimp only; split) | split | (rw [foldl_hbm] <;> intros) | (have hk := congrArg (fun r => r.1.mem.hbm) ‹_ = (_, _)›; simp_all; done) | (simp_all; done)

@[simp] theorem Chip.ffReadUpper_hbm (c : Chip) (h : Nat) (b : FifoBlock) : (c.ffReadUpper h b).mem.hbm = c.mem.hbm := by
  unfold Chip.ffReadUpper
  repeat' first | (simp; done) | (dsimp only; split) | split | (rw [foldl_hbm] <;> intros) | (have hk := congrArg (fun r => r.1.mem.hbm) ‹_ = (_, _)›; simp_all; done) | (simp_all; done)

@[simp] theorem Chip.ffWrite_hbm (c : Chip) (h : Nat) (b : FifoBlock) (wide : Bool) (v : Word) : (c.ffWrite h b wide v).mem.hbm = c.mem.hbm := by
  unfold Chip.ffWrite
  repeat' first | (simp; done) | (dsimp only; split) | split | (rw [foldl_hbm] <;> intros) | (have hk := congrArg (fun r => r.1.mem.hbm) ‹_ = (_, _)›; simp_all; done) | (simp_all; done)

@[simp] theorem Chip.ffWriteLower_hbm (c : Chip) (h : Nat) (b : FifoBlock) (v : BitVec 32) : (c.ffWriteLower h b v).mem.hbm = c.mem.hbm := by
  unfold Chip.ffWriteLower
  repeat' first | (simp; done) | (dsimp only; split) | split | (rw [foldl_hbm] <;> intros) | (have hk := congrArg (fun r => r.1.mem.hbm) ‹_ = (_, _)›; simp_all; done) | (simp_all; done)

@[simp] theorem Chip.ffControl_hbm (c : Chip) (h : Nat) (b : FifoBlock) (producer : Bool) (f : Fifo → Fifo) : (c.ffControl h b producer f).mem.hbm = c.mem.hbm := by
  unfold Chip.ffControl
  repeat' first | (simp; done) | (dsimp only; split) | split | (rw [foldl_hbm] <;> intros) | (have hk := congrArg (fun r => r.1.mem.hbm) ‹_ = (_, _)›; simp_all; done) | (simp_all; done)

@[simp] theorem Chip.ffCommit_hbm (c : Chip) (h : Nat) (b : FifoBlock) : (c.ffCommit h b).mem.hbm = c.mem.hbm := by
  unfold Chip.ffCommit
  repeat' first | (simp; done) | (dsimp only; split) | split | (rw [foldl_hbm] <;> intros) | (have hk := congrArg (fun r => r.1.mem.hbm) ‹_ = (_, _)›; simp_all; done) | (simp_all; done)

@[simp] theorem Chip.ffAbort_hbm (c : Chip) (h : Nat) (b : FifoBlock) : (c.ffAbort h b).mem.hbm = c.mem.hbm := by
  unfold Chip.ffAbort
  repeat' first | (simp; done) | (dsimp only; split) | split | (rw [foldl_hbm] <;> intros) | (have hk := congrArg (fun r => r.1.mem.hbm) ‹_ = (_, _)›; simp_all; done) | (simp_all; done)

@[simp] theorem Chip.ffMark_hbm (c : Chip) (h : Nat) (b : FifoBlock) : (c.ffMark h b).mem.hbm = c.mem.hbm := by
  unfold Chip.ffMark
  repeat' first | (simp; done) | (dsimp only; split) | split | (rw [foldl_hbm] <;> intros) | (have hk := congrArg (fun r => r.1.mem.hbm) ‹_ = (_, _)›; simp_all; done) | (simp_all; done)

@[simp] theorem Chip.ffRewind_hbm (c : Chip) (h : Nat) (b : FifoBlock) : (c.ffRewind h b).mem.hbm = c.mem.hbm := by
  unfold Chip.ffRewind
  repeat' first | (simp; done) | (dsimp only; split) | split | (rw [foldl_hbm] <;> intros) | (have hk := congrArg (fun r => r.1.mem.hbm) ‹_ = (_, _)›; simp_all; done) | (simp_all; done)

@[simp] theorem Chip.ffRelease_hbm (c : Chip) (h : Nat) (b : FifoBlock) (p : BitVec 32) : (c.ffRelease h b p).mem.hbm = c.mem.hbm := by
  unfold Chip.ffRelease
  repeat' first | (simp; done) | (dsimp only; split) | split | (rw [foldl_hbm] <;> intros) | (have hk := congrArg (fun r => r.1.mem.hbm) ‹_ = (_, _)›; simp_all; done) | (simp_all; done)

@[simp] theorem Chip.ffCtrlWrite_hbm (c : Chip) (h : Nat) (b : FifoBlock) (v : Nat) : (c.ffCtrlWrite h b v).mem.hbm = c.mem.hbm := by
  unfold Chip.ffCtrlWrite
  repeat' first | (simp; done) | (dsimp only; split) | split | (rw [foldl_hbm] <;> intros) | (have hk := congrArg (fun r => r.1.mem.hbm) ‹_ = (_, _)›; simp_all; done) | (simp_all; done)

@[simp] theorem Chip.ffStatusWrite_hbm (c : Chip) (h : Nat) (b : FifoBlock) (v : Nat) : (c.ffStatusWrite h b v).mem.hbm = c.mem.hbm := by
  unfold Chip.ffStatusWrite
  repeat' first | (simp; done) | (dsimp only; split) | split | (rw [foldl_hbm] <;> intros) | (have hk := congrArg (fun r => r.1.mem.hbm) ‹_ = (_, _)›; simp_all; done) | (simp_all; done)

@[simp] theorem Chip.radishMarker_hbm (c : Chip) (i : Nat) : (c.radishMarker i).mem.hbm = c.mem.hbm := by
  unfold Chip.radishMarker
  repeat' first | (simp; done) | (dsimp only; split) | split | (rw [foldl_hbm] <;> intros) | (have hk := congrArg (fun r => r.1.mem.hbm) ‹_ = (_, _)›; simp_all; done) | (simp_all; done)

@[simp] theorem Chip.mgmtDiscards_hbm (c : Chip) (h n : Nat) : (c.mgmtDiscards h n).mem.hbm = c.mem.hbm := by
  unfold Chip.mgmtDiscards
  repeat' first | (simp; done) | (dsimp only; split) | split | (rw [foldl_hbm] <;> intros) | (have hk := congrArg (fun r => r.1.mem.hbm) ‹_ = (_, _)›; simp_all; done) | (simp_all; done)

@[simp] theorem Chip.mgmtTransmit_hbm (c : Chip) (h : Nat) : (c.mgmtTransmit h).mem.hbm = c.mem.hbm := by
  unfold Chip.mgmtTransmit
  repeat' first | (simp; done) | (dsimp only; split) | split | (rw [foldl_hbm] <;> intros) | (have hk := congrArg (fun r => r.1.mem.hbm) ‹_ = (_, _)›; simp_all; done) | (simp_all; done)

@[simp] theorem Chip.shimDelivery_hbm (c : Chip) (h : Nat) (p : Packet) : (c.shimDelivery h p).mem.hbm = c.mem.hbm := by
  unfold Chip.shimDelivery
  repeat' first | (simp; done) | (dsimp only; split) | split | (rw [foldl_hbm] <;> intros) | (have hk := congrArg (fun r => r.1.mem.hbm) ‹_ = (_, _)›; simp_all; done) | (simp_all; done)

@[simp] theorem Chip.emptyMgmt_hbm (c : Chip) (h : Nat) : (c.emptyMgmt h).mem.hbm = c.mem.hbm := by
  unfold Chip.emptyMgmt
  repeat' first | (simp; done) | (dsimp only; split) | split | (rw [foldl_hbm] <;> intros) | (have hk := congrArg (fun r => r.1.mem.hbm) ‹_ = (_, _)›; simp_all; done) | (simp_all; done)

@[simp] theorem Chip.updLane_hbm (c : Chip) (n : Nat) (f : Lane → Lane) : (c.updLane n f).mem.hbm = c.mem.hbm := by
  unfold Chip.updLane
  repeat' first | (simp; done) | (dsimp only; split) | split | (rw [foldl_hbm] <;> intros) | (have hk := congrArg (fun r => r.1.mem.hbm) ‹_ = (_, _)›; simp_all; done) | (simp_all; done)

@[simp] theorem Chip.sendParity_hbm (c : Chip) (n : Nat) : (c.sendParity n).mem.hbm = c.mem.hbm := by
  unfold Chip.sendParity
  repeat' first | (simp; done) | (dsimp only; split) | split | (rw [foldl_hbm] <;> intros) | (have hk := congrArg (fun r => r.1.mem.hbm) ‹_ = (_, _)›; simp_all; done) | (simp_all; done)

@[simp] theorem Chip.sendSlot_hbm (c : Chip) (n : Nat) (b : PortBlock) : (c.sendSlot n b).mem.hbm = c.mem.hbm := by
  unfold Chip.sendSlot
  repeat' first | (simp; done) | (dsimp only; split) | split | (rw [foldl_hbm] <;> intros) | (have hk := congrArg (fun r => r.1.mem.hbm) ‹_ = (_, _)›; simp_all; done) | (simp_all; done)

@[simp] theorem Chip.sendLane_hbm (c : Chip) (n : Nat) (b : PortBlock) : (c.sendLane n b).mem.hbm = c.mem.hbm := by
  unfold Chip.sendLane
  repeat' first | (simp; done) | (dsimp only; split) | split | (rw [foldl_hbm] <;> intros) | (have hk := congrArg (fun r => r.1.mem.hbm) ‹_ = (_, _)›; simp_all; done) | (simp_all; done)

@[simp] theorem Chip.sendPort_hbm (c : Chip) (p lanes : Nat) (l : List PortBlock) : (c.sendPort p lanes l).mem.hbm = c.mem.hbm := by
  unfold Chip.sendPort
  repeat' first | (simp; done) | (dsimp only; split) | split | (rw [foldl_hbm] <;> intros) | (have hk := congrArg (fun r => r.1.mem.hbm) ‹_ = (_, _)›; simp_all; done) | (simp_all; done)

@[simp] theorem Chip.startLane_hbm (c : Chip) (n : Nat) : (c.startLane n).mem.hbm = c.mem.hbm := by
  unfold Chip.startLane
  repeat' first | (simp; done) | (dsimp only; split) | split | (rw [foldl_hbm] <;> intros) | (have hk := congrArg (fun r => r.1.mem.hbm) ‹_ = (_, _)›; simp_all; done) | (simp_all; done)

@[simp] theorem Chip.alignLanes_hbm (c : Chip) (p lanes : Nat) : (c.alignLanes p lanes).mem.hbm = c.mem.hbm := by
  unfold Chip.alignLanes
  repeat' first | (simp; done) | (dsimp only; split) | split | (rw [foldl_hbm] <;> intros) | (have hk := congrArg (fun r => r.1.mem.hbm) ‹_ = (_, _)›; simp_all; done) | (simp_all; done)

@[simp] theorem Chip.handOn_hbm (c : Chip) (p : Nat) (l : List PortBlock) : (c.handOn p l).mem.hbm = c.mem.hbm := by
  unfold Chip.handOn
  repeat' first | (simp; done) | (dsimp only; split) | split | (rw [foldl_hbm] <;> intros) | (have hk := congrArg (fun r => r.1.mem.hbm) ‹_ = (_, _)›; simp_all; done) | (simp_all; done)

@[simp] theorem Chip.deskew_hbm (c : Chip) (p : Nat) (both : Bool) : (c.deskew p both).mem.hbm = c.mem.hbm := by
  unfold Chip.deskew
  repeat' first | (simp; done) | (dsimp only; split) | split | (rw [foldl_hbm] <;> intros) | (have hk := congrArg (fun r => r.1.mem.hbm) ‹_ = (_, _)›; simp_all; done) | (simp_all; done)

@[simp] theorem Chip.updLink_hbm (c : Chip) (p : Nat) (f : Link → Link) : (c.updLink p f).mem.hbm = c.mem.hbm := by
  unfold Chip.updLink
  repeat' first | (simp; done) | (dsimp only; split) | split | (rw [foldl_hbm] <;> intros) | (have hk := congrArg (fun r => r.1.mem.hbm) ‹_ = (_, _)›; simp_all; done) | (simp_all; done)

@[simp] theorem Chip.updRx_hbm (c : Chip) (p : Nat) (f : RxSide → RxSide) : (c.updRx p f).mem.hbm = c.mem.hbm := by
  unfold Chip.updRx
  repeat' first | (simp; done) | (dsimp only; split) | split | (rw [foldl_hbm] <;> intros) | (have hk := congrArg (fun r => r.1.mem.hbm) ‹_ = (_, _)›; simp_all; done) | (simp_all; done)

@[simp] theorem Chip.updTx_hbm (c : Chip) (p : Nat) (f : TxSide → TxSide) : (c.updTx p f).mem.hbm = c.mem.hbm := by
  unfold Chip.updTx
  repeat' first | (simp; done) | (dsimp only; split) | split | (rw [foldl_hbm] <;> intros) | (have hk := congrArg (fun r => r.1.mem.hbm) ‹_ = (_, _)›; simp_all; done) | (simp_all; done)

@[simp] theorem Chip.updPortT_hbm (c : Chip) (p : Nat) (f : Port → Port) : (c.updPortT p f).mem.hbm = c.mem.hbm := by
  unfold Chip.updPortT
  repeat' first | (simp; done) | (dsimp only; split) | split | (rw [foldl_hbm] <;> intros) | (have hk := congrArg (fun r => r.1.mem.hbm) ‹_ = (_, _)›; simp_all; done) | (simp_all; done)

@[simp] theorem Chip.streamOut_hbm (c : Chip) (port : Nat) (l : List Byte) : (c.streamOut port l).mem.hbm = c.mem.hbm := by
  unfold Chip.streamOut
  repeat' first | (simp; done) | (dsimp only; split) | split | (rw [foldl_hbm] <;> intros) | (have hk := congrArg (fun r => r.1.mem.hbm) ‹_ = (_, _)›; simp_all; done) | (simp_all; done)

@[simp] theorem Chip.padBlock_hbm (c : Chip) (port : Nat) : (c.padBlock port).mem.hbm = c.mem.hbm := by
  unfold Chip.padBlock
  repeat' first | (simp; done) | (dsimp only; split) | split | (rw [foldl_hbm] <;> intros) | (have hk := congrArg (fun r => r.1.mem.hbm) ‹_ = (_, _)›; simp_all; done) | (simp_all; done)

@[simp] theorem Chip.sendLink_hbm (c : Chip) (port : Nat) (s : Sent) (rpl : Bool) : (c.sendLink port s rpl).mem.hbm = c.mem.hbm := by
  unfold Chip.sendLink
  repeat' first | (simp; done) | (dsimp only; split) | split | (rw [foldl_hbm] <;> intros) | (have hk := congrArg (fun r => r.1.mem.hbm) ‹_ = (_, _)›; simp_all; done) | (simp_all; done)

@[simp] theorem Chip.linkStart_hbm (c : Chip) (port : Nat) (p : Packet) : (c.linkStart port p).mem.hbm = c.mem.hbm := by
  unfold Chip.linkStart
  repeat' first | (simp; done) | (dsimp only; split) | split | (rw [foldl_hbm] <;> intros) | (have hk := congrArg (fun r => r.1.mem.hbm) ‹_ = (_, _)›; simp_all; done) | (simp_all; done)

@[simp] theorem Chip.resend_hbm (c : Chip) (port : Nat) (s : Sent) : (c.resend port s).mem.hbm = c.mem.hbm := by
  unfold Chip.resend
  repeat' first | (simp; done) | (dsimp only; split) | split | (rw [foldl_hbm] <;> intros) | (have hk := congrArg (fun r => r.1.mem.hbm) ‹_ = (_, _)›; simp_all; done) | (simp_all; done)

@[simp] theorem Chip.queueItem_hbm (c : Chip) (port kind : Nat) (item : List Byte) : (c.queueItem port kind item).mem.hbm = c.mem.hbm := by
  unfold Chip.queueItem
  repeat' first | (simp; done) | (dsimp only; split) | split | (rw [foldl_hbm] <;> intros) | (have hk := congrArg (fun r => r.1.mem.hbm) ‹_ = (_, _)›; simp_all; done) | (simp_all; done)

@[simp] theorem Chip.noteStamp_hbm (c : Chip) (port : Nat) (l : Lcb) : (c.noteStamp port l).mem.hbm = c.mem.hbm := by
  unfold Chip.noteStamp
  repeat' first | (simp; done) | (dsimp only; split) | split | (rw [foldl_hbm] <;> intros) | (have hk := congrArg (fun r => r.1.mem.hbm) ‹_ = (_, _)›; simp_all; done) | (simp_all; done)

@[simp] theorem Chip.sendLcb_hbm (c : Chip) (port : Nat) : (c.sendLcb port).mem.hbm = c.mem.hbm := by
  unfold Chip.sendLcb
  repeat' first | (simp; done) | (dsimp only; split) | split | (rw [foldl_hbm] <;> intros) | (have hk := congrArg (fun r => r.1.mem.hbm) ‹_ = (_, _)›; simp_all; done) | (simp_all; done)

@[simp] theorem Chip.lcbNow_hbm (c : Chip) (port : Nat) : (c.lcbNow port).mem.hbm = c.mem.hbm := by
  unfold Chip.lcbNow
  repeat' first | (simp; done) | (dsimp only; split) | split | (rw [foldl_hbm] <;> intros) | (have hk := congrArg (fun r => r.1.mem.hbm) ‹_ = (_, _)›; simp_all; done) | (simp_all; done)

@[simp] theorem Chip.lcbInterval_hbm (c : Chip) (port : Nat) : (c.lcbInterval port).mem.hbm = c.mem.hbm := by
  unfold Chip.lcbInterval
  repeat' first | (simp; done) | (dsimp only; split) | split | (rw [foldl_hbm] <;> intros) | (have hk := congrArg (fun r => r.1.mem.hbm) ‹_ = (_, _)›; simp_all; done) | (simp_all; done)

@[simp] theorem Chip.nakDue_hbm (c : Chip) (port : Nat) : (c.nakDue port).mem.hbm = c.mem.hbm := by
  unfold Chip.nakDue
  repeat' first | (simp; done) | (dsimp only; split) | split | (rw [foldl_hbm] <;> intros) | (have hk := congrArg (fun r => r.1.mem.hbm) ‹_ = (_, _)›; simp_all; done) | (simp_all; done)

@[simp] theorem Chip.decideXoff_hbm (c : Chip) (p : Nat) : (c.decideXoff p).mem.hbm = c.mem.hbm := by
  unfold Chip.decideXoff
  repeat' first | (simp; done) | (dsimp only; split) | split | (rw [foldl_hbm] <;> intros) | (have hk := congrArg (fun r => r.1.mem.hbm) ‹_ = (_, _)›; simp_all; done) | (simp_all; done)

@[simp] theorem Chip.takeCells_hbm (c : Chip) (p vc n : Nat) (pool : Bool) : (c.takeCells p vc n pool).mem.hbm = c.mem.hbm := by
  unfold Chip.takeCells
  repeat' first | (simp; done) | (dsimp only; split) | split | (rw [foldl_hbm] <;> intros) | (have hk := congrArg (fun r => r.1.mem.hbm) ‹_ = (_, _)›; simp_all; done) | (simp_all; done)

@[simp] theorem Chip.freeCells_hbm (c : Chip) (p vc n : Nat) (pool : Bool) : (c.freeCells p vc n pool).mem.hbm = c.mem.hbm := by
  unfold Chip.freeCells
  repeat' first | (simp; done) | (dsimp only; split) | split | (rw [foldl_hbm] <;> intros) | (have hk := congrArg (fun r => r.1.mem.hbm) ‹_ = (_, _)›; simp_all; done) | (simp_all; done)

@[simp] theorem Chip.replayAll_hbm (c : Chip) (port : Nat) : (c.replayAll port).mem.hbm = c.mem.hbm := by
  unfold Chip.replayAll
  repeat' first | (simp; done) | (dsimp only; split) | split | (rw [foldl_hbm] <;> intros) | (have hk := congrArg (fun r => r.1.mem.hbm) ‹_ = (_, _)›; simp_all; done) | (simp_all; done)

@[simp] theorem Chip.startReplay_hbm (c : Chip) (port : Nat) : (c.startReplay port).mem.hbm = c.mem.hbm := by
  unfold Chip.startReplay
  repeat' first | (simp; done) | (dsimp only; split) | split | (rw [foldl_hbm] <;> intros) | (have hk := congrArg (fun r => r.1.mem.hbm) ‹_ = (_, _)›; simp_all; done) | (simp_all; done)

@[simp] theorem Chip.linkEnd_hbm (c : Chip) (port : Nat) (p : Packet) (stomped : Bool) : (c.linkEnd port p stomped).mem.hbm = c.mem.hbm := by
  unfold Chip.linkEnd
  repeat' first | (simp; done) | (dsimp only; split) | split | (rw [foldl_hbm] <;> intros) | (have hk := congrArg (fun r => r.1.mem.hbm) ‹_ = (_, _)›; simp_all; done) | (simp_all; done)

@[simp] theorem Chip.linkSend_hbm (c : Chip) (port : Nat) (p : Packet) : (c.linkSend port p).mem.hbm = c.mem.hbm := by
  unfold Chip.linkSend
  repeat' first | (simp; done) | (dsimp only; split) | split | (rw [foldl_hbm] <;> intros) | (have hk := congrArg (fun r => r.1.mem.hbm) ‹_ = (_, _)›; simp_all; done) | (simp_all; done)

@[simp] theorem Chip.ackOldest_hbm (c : Chip) (port n : Nat) : (c.ackOldest port n).mem.hbm = c.mem.hbm := by
  unfold Chip.ackOldest
  repeat' first | (simp; done) | (dsimp only; split) | split | (rw [foldl_hbm] <;> intros) | (have hk := congrArg (fun r => r.1.mem.hbm) ‹_ = (_, _)›; simp_all; done) | (simp_all; done)

@[simp] theorem Chip.startRetrain_hbm (c : Chip) (port reason : Nat) : (c.startRetrain port reason).mem.hbm = c.mem.hbm := by
  unfold Chip.startRetrain
  repeat' first | (simp; done) | (dsimp only; split) | split | (rw [foldl_hbm] <;> intros) | (have hk := congrArg (fun r => r.1.mem.hbm) ‹_ = (_, _)›; simp_all; done) | (simp_all; done)

@[simp] theorem Chip.checkProgress_hbm (c : Chip) (port : Nat) : (c.checkProgress port).mem.hbm = c.mem.hbm := by
  unfold Chip.checkProgress
  repeat' first | (simp; done) | (dsimp only; split) | split | (rw [foldl_hbm] <;> intros) | (have hk := congrArg (fun r => r.1.mem.hbm) ‹_ = (_, _)›; simp_all; done) | (simp_all; done)

@[simp] theorem Chip.nakReplay_hbm (c : Chip) (port n : Nat) : (c.nakReplay port n).mem.hbm = c.mem.hbm := by
  unfold Chip.nakReplay
  repeat' first | (simp; done) | (dsimp only; split) | split | (rw [foldl_hbm] <;> intros) | (have hk := congrArg (fun r => r.1.mem.hbm) ‹_ = (_, _)›; simp_all; done) | (simp_all; done)

@[simp] theorem Chip.takeNak_hbm (c : Chip) (port : Nat) (lsn : BitVec 12) : (c.takeNak port lsn).mem.hbm = c.mem.hbm := by
  unfold Chip.takeNak
  repeat' first | (simp; done) | (dsimp only; split) | split | (rw [foldl_hbm] <;> intros) | (have hk := congrArg (fun r => r.1.mem.hbm) ‹_ = (_, _)›; simp_all; done) | (simp_all; done)

@[simp] theorem Chip.takeAckLsn_hbm (c : Chip) (port : Nat) (lsn : BitVec 12) : (c.takeAckLsn port lsn).mem.hbm = c.mem.hbm := by
  unfold Chip.takeAckLsn
  repeat' first | (simp; done) | (dsimp only; split) | split | (rw [foldl_hbm] <;> intros) | (have hk := congrArg (fun r => r.1.mem.hbm) ‹_ = (_, _)›; simp_all; done) | (simp_all; done)

@[simp] theorem Chip.lcbReceive_hbm (c : Chip) (port : Nat) (h : LcbHalves) : (c.lcbReceive port h).mem.hbm = c.mem.hbm := by
  unfold Chip.lcbReceive
  repeat' first | (simp; done) | (dsimp only; split) | split | (rw [foldl_hbm] <;> intros) | (have hk := congrArg (fun r => r.1.mem.hbm) ‹_ = (_, _)›; simp_all; done) | (simp_all; done)

@[simp] theorem Chip.replayTimeout_hbm (c : Chip) (port : Nat) : (c.replayTimeout port).mem.hbm = c.mem.hbm := by
  unfold Chip.replayTimeout
  repeat' first | (simp; done) | (dsimp only; split) | split | (rw [foldl_hbm] <;> intros) | (have hk := congrArg (fun r => r.1.mem.hbm) ‹_ = (_, _)›; simp_all; done) | (simp_all; done)

@[simp] theorem Chip.occupancyTick_hbm (c : Chip) (id : CounterId) (ticks : Nat) : (c.occupancyTick id ticks).mem.hbm = c.mem.hbm := by
  unfold Chip.occupancyTick
  repeat' first | (simp; done) | (dsimp only; split) | split | (rw [foldl_hbm] <;> intros) | (have hk := congrArg (fun r => r.1.mem.hbm) ‹_ = (_, _)›; simp_all; done) | (simp_all; done)

@[simp] theorem Chip.xoffTick_hbm (c : Chip) (ticks : Nat) : (c.xoffTick ticks).mem.hbm = c.mem.hbm := by
  unfold Chip.xoffTick
  repeat' first | (simp; done) | (dsimp only; split) | split | (rw [foldl_hbm] <;> intros) | (have hk := congrArg (fun r => r.1.mem.hbm) ‹_ = (_, _)›; simp_all; done) | (simp_all; done)

@[simp] theorem Chip.samplingTick_hbm (c : Chip) (ticks : Nat) : (c.samplingTick ticks).mem.hbm = c.mem.hbm := by
  unfold Chip.samplingTick
  repeat' first | (simp; done) | (dsimp only; split) | split | (rw [foldl_hbm] <;> intros) | (have hk := congrArg (fun r => r.1.mem.hbm) ‹_ = (_, _)›; simp_all; done) | (simp_all; done)

@[simp] theorem Chip.streamDrop_hbm (c : Chip) (n : Nat) : (c.streamDrop n).mem.hbm = c.mem.hbm := by
  unfold Chip.streamDrop
  repeat' first | (simp; done) | (dsimp only; split) | split | (rw [foldl_hbm] <;> intros) | (have hk := congrArg (fun r => r.1.mem.hbm) ‹_ = (_, _)›; simp_all; done) | (simp_all; done)

@[simp] theorem Chip.ringEntry_hbm (c : Chip) (h : Nat) (l : List Word) : (c.ringEntry h l).mem.hbm = c.mem.hbm := by
  unfold Chip.ringEntry
  repeat' first | (simp; done) | (dsimp only; split) | split | (rw [foldl_hbm] <;> intros) | (have hk := congrArg (fun r => r.1.mem.hbm) ‹_ = (_, _)›; simp_all; done) | (simp_all; done)

@[simp] theorem Chip.streamSample_hbm (c : Chip) (ci : BitVec 32) : (c.streamSample ci).mem.hbm = c.mem.hbm := by
  unfold Chip.streamSample
  repeat' first | (simp; done) | (dsimp only; split) | split | (rw [foldl_hbm] <;> intros) | (have hk := congrArg (fun r => r.1.mem.hbm) ‹_ = (_, _)›; simp_all; done) | (simp_all; done)

@[simp] theorem Chip.routerDrop_hbm (c : Chip) (port : Nat) (k : Ctr) (cause : Nat) : (c.routerDrop port k cause).mem.hbm = c.mem.hbm := by
  unfold Chip.routerDrop
  repeat' first | (simp; done) | (dsimp only; split) | split | (rw [foldl_hbm] <;> intros) | (have hk := congrArg (fun r => r.1.mem.hbm) ‹_ = (_, _)›; simp_all; done) | (simp_all; done)

@[simp] theorem Chip.shaperDebit_hbm (c : Chip) (out tc len : Nat) : (c.shaperDebit out tc len).mem.hbm = c.mem.hbm := by
  unfold Chip.shaperDebit
  repeat' first | (simp; done) | (dsimp only; split) | split | (rw [foldl_hbm] <;> intros) | (have hk := congrArg (fun r => r.1.mem.hbm) ‹_ = (_, _)›; simp_all; done) | (simp_all; done)

@[simp] theorem Chip.putSched_hbm (c : Chip) (out : Nat) (s : OutSched) : (c.putSched out s).mem.hbm = c.mem.hbm := by
  unfold Chip.putSched
  repeat' first | (simp; done) | (dsimp only; split) | split | (rw [foldl_hbm] <;> intros) | (have hk := congrArg (fun r => r.1.mem.hbm) ‹_ = (_, _)›; simp_all; done) | (simp_all; done)

@[simp] theorem Chip.refreshOut_hbm (c : Chip) (out : Nat) : (c.refreshOut out).mem.hbm = c.mem.hbm := by
  unfold Chip.refreshOut
  repeat' first | (simp; done) | (dsimp only; split) | split | (rw [foldl_hbm] <;> intros) | (have hk := congrArg (fun r => r.1.mem.hbm) ‹_ = (_, _)›; simp_all; done) | (simp_all; done)

@[simp] theorem Chip.leaveBuffer_hbm (c : Chip) (w : Waiting) : (c.leaveBuffer w).mem.hbm = c.mem.hbm := by
  unfold Chip.leaveBuffer
  repeat' first | (simp; done) | (dsimp only; split) | split | (rw [foldl_hbm] <;> intros) | (have hk := congrArg (fun r => r.1.mem.hbm) ‹_ = (_, _)›; simp_all; done) | (simp_all; done)

@[simp] theorem Chip.refreshAll_hbm (c : Chip)  : (c.refreshAll).mem.hbm = c.mem.hbm := by
  unfold Chip.refreshAll
  repeat' first | (simp; done) | (dsimp only; split) | split | (rw [foldl_hbm] <;> intros) | (have hk := congrArg (fun r => r.1.mem.hbm) ‹_ = (_, _)›; simp_all; done) | (simp_all; done)

@[simp] theorem Chip.enqueue_hbm (c : Chip) (w : Waiting) : (c.enqueue w).mem.hbm = c.mem.hbm := by
  unfold Chip.enqueue
  repeat' first | (simp; done) | (dsimp only; split) | split | (rw [foldl_hbm] <;> intros) | (have hk := congrArg (fun r => r.1.mem.hbm) ‹_ = (_, _)›; simp_all; done) | (simp_all; done)

@[simp] theorem Chip.enqueueTree_hbm (c : Chip) (out : Nat) (p : Packet) : (c.enqueueTree out p).mem.hbm = c.mem.hbm := by
  unfold Chip.enqueueTree
  repeat' first | (simp; done) | (dsimp only; split) | split | (rw [foldl_hbm] <;> intros) | (have hk := congrArg (fun r => r.1.mem.hbm) ‹_ = (_, _)›; simp_all; done) | (simp_all; done)

@[simp] theorem Chip.draw_hbm (c : Chip) (fromLocal : Bool) (dstGroup : Nat) : (c.draw fromLocal dstGroup).1.mem.hbm = c.mem.hbm := by
  unfold Chip.draw
  repeat' first | (simp; done) | (dsimp only; split) | split | (rw [foldl_hbm] <;> intros) | (have hk := congrArg (fun r => r.1.mem.hbm) ‹_ = (_, _)›; simp_all; done) | (simp_all; done)

@[simp] theorem Chip.choose_hbm (c : Chip) (inp : Nat) (p : Packet) (l : List Cand) (positional : Bool) : (c.choose inp p l positional).1.mem.hbm = c.mem.hbm := by
  unfold Chip.choose
  repeat' first | (simp; done) | (dsimp only; split) | split | (rw [foldl_hbm] <;> intros) | (have hk := congrArg (fun r => r.1.mem.hbm) ‹_ = (_, _)›; simp_all; done) | (simp_all; done)

@[simp] theorem Chip.routeByTables_hbm (c : Chip) (inp : Nat) (p : Packet) : (c.routeByTables inp p).1.mem.hbm = c.mem.hbm := by
  unfold Chip.routeByTables
  repeat' first | (simp; done) | (dsimp only; split) | split | (rw [foldl_hbm] <;> intros) | (have hk := congrArg (fun r => r.1.mem.hbm) ‹_ = (_, _)›; simp_all; done) | (simp_all; done)

@[simp] theorem Chip.route_hbm (c : Chip) (inp : Nat) (p : Packet) : (c.route inp p).1.mem.hbm = c.mem.hbm := by
  unfold Chip.route
  repeat' first | (simp; done) | (dsimp only; split) | split | (rw [foldl_hbm] <;> intros) | (have hk := congrArg (fun r => r.1.mem.hbm) ‹_ = (_, _)›; simp_all; done) | (simp_all; done)

@[simp] theorem Chip.dropArrival_hbm (c : Chip) (a : Arrival) : (c.dropArrival a).mem.hbm = c.mem.hbm := by
  unfold Chip.dropArrival
  repeat' first | (simp; done) | (dsimp only; split) | split | (rw [foldl_hbm] <;> intros) | (have hk := congrArg (fun r => r.1.mem.hbm) ‹_ = (_, _)›; simp_all; done) | (simp_all; done)

@[simp] theorem Chip.freeArrival_hbm (c : Chip) (a : Arrival) : (c.freeArrival a).mem.hbm = c.mem.hbm := by
  unfold Chip.freeArrival
  repeat' first | (simp; done) | (dsimp only; split) | split | (rw [foldl_hbm] <;> intros) | (have hk := congrArg (fun r => r.1.mem.hbm) ‹_ = (_, _)›; simp_all; done) | (simp_all; done)

@[simp] theorem Chip.carryOut_hbm (c : Chip) (a : Arrival) (r : Routed) : (c.carryOut a r).mem.hbm = c.mem.hbm := by
  unfold Chip.carryOut
  split
  · split
    · rename_i e
      unfold Chip.ownUnrouted? at e
      repeat' first | contradiction | (injection e with e; rw [← e]; simp; done) | split at e | dsimp only at e
    · simp
  · simp
  · simp
  · simp
  · rfl

@[simp] theorem Chip.routeArrival_hbm (c : Chip) (a : Arrival) : (c.routeArrival a).mem.hbm = c.mem.hbm := by
  unfold Chip.routeArrival
  repeat' first | (simp; done) | (dsimp only; split) | split | (rw [foldl_hbm] <;> intros) | (have hk := congrArg (fun r => r.1.mem.hbm) ‹_ = (_, _)›; simp_all; done) | (simp_all; done)

@[simp] theorem Chip.routeAhead_hbm (c : Chip) (inp : Nat) : (c.routeAhead inp).mem.hbm = c.mem.hbm := by
  unfold Chip.routeAhead
  split
  · rfl
  · split
    · rfl
    · split
      · rename_i e; simp [pair_hbm e (Chip.route_hbm ..)]
      · rfl

@[simp] theorem Chip.packetRoute_hbm (c : Chip) (inp : Nat) (whole : Bool) : (c.packetRoute inp whole).mem.hbm = c.mem.hbm := by
  unfold Chip.packetRoute
  repeat' first | (simp; done) | (dsimp only; split) | split | (rw [foldl_hbm] <;> intros) | (have hk := congrArg (fun r => r.1.mem.hbm) ‹_ = (_, _)›; simp_all; done) | (simp_all; done)

@[simp] theorem Chip.discardWaiting_hbm (c : Chip) (w : Waiting) : (c.discardWaiting w).mem.hbm = c.mem.hbm := by
  unfold Chip.discardWaiting
  repeat' first | (simp; done) | (dsimp only; split) | split | (rw [foldl_hbm] <;> intros) | (have hk := congrArg (fun r => r.1.mem.hbm) ‹_ = (_, _)›; simp_all; done) | (simp_all; done)

@[simp] theorem Chip.reroute_hbm (c : Chip) (w : Waiting) : (c.reroute w).mem.hbm = c.mem.hbm := by
  unfold Chip.reroute
  split
  · simp
  · dsimp only; split <;> rename_i e <;> have := pair_hbm e (Chip.routeByTables_hbm ..) <;> first | (simp [this]; done) | (split <;> simp [this])

@[simp] theorem Chip.dropSending_hbm (c : Chip) (port : Nat) : (c.dropSending port).mem.hbm = c.mem.hbm := by
  unfold Chip.dropSending
  repeat' first | (simp; done) | (dsimp only; split) | split | (rw [foldl_hbm] <;> intros) | (have hk := congrArg (fun r => r.1.mem.hbm) ‹_ = (_, _)›; simp_all; done) | (simp_all; done)

@[simp] theorem Chip.rerouteAll_hbm (c : Chip) (port : Nat) : (c.rerouteAll port).mem.hbm = c.mem.hbm := by
  unfold Chip.rerouteAll
  dsimp only
  rw [Chip.dropSending_hbm, foldl_hbm]
  intros
  split <;> simp

@[simp] theorem Chip.drr_hbm (c : Chip) (out : Nat) (z0 : Nat) : (c.drr out z0).1.mem.hbm = c.mem.hbm := by
  induction z0 generalizing c out <;> unfold Chip.drr <;> repeat' first | (simp; done) | (dsimp only; split) | split | (rw [foldl_hbm] <;> intros) | (have hk := congrArg (fun r => r.1.mem.hbm) ‹_ = (_, _)›; simp_all; done) | (simp_all; done)

@[simp] theorem Chip.select_hbm (c : Chip) (out : Nat) : (c.select out).1.mem.hbm = c.mem.hbm := by
  unfold Chip.select
  repeat' first | (simp; done) | (dsimp only; split) | split | (rw [foldl_hbm] <;> intros) | (have hk := congrArg (fun r => r.1.mem.hbm) ‹_ = (_, _)›; simp_all; done) | (simp_all; done)

@[simp] theorem Chip.undebit_hbm (c : Chip) (w : Waiting) : (c.undebit w).mem.hbm = c.mem.hbm := by
  unfold Chip.undebit
  repeat' first | (simp; done) | (dsimp only; split) | split | (rw [foldl_hbm] <;> intros) | (have hk := congrArg (fun r => r.1.mem.hbm) ‹_ = (_, _)›; simp_all; done) | (simp_all; done)

@[simp] theorem Chip.sendOut_hbm (c : Chip) (out : Nat) (p : Packet) : (c.sendOut out p).mem.hbm = c.mem.hbm := by
  unfold Chip.sendOut
  repeat' first | (simp; done) | (dsimp only; split) | split | (rw [foldl_hbm] <;> intros) | (have hk := congrArg (fun r => r.1.mem.hbm) ‹_ = (_, _)›; simp_all; done) | (simp_all; done)

@[simp] theorem Chip.endOut_hbm (c : Chip) (out : Nat) (p : Packet) (bad : Bool) : (c.endOut out p bad).mem.hbm = c.mem.hbm := by
  unfold Chip.endOut
  repeat' first | (simp; done) | (dsimp only; split) | split | (rw [foldl_hbm] <;> intros) | (have hk := congrArg (fun r => r.1.mem.hbm) ‹_ = (_, _)›; simp_all; done) | (simp_all; done)

@[simp] theorem Chip.noteTail_hbm (c : Chip) (out tc len : Nat) : (c.noteTail out tc len).mem.hbm = c.mem.hbm := by
  unfold Chip.noteTail
  repeat' first | (simp; done) | (dsimp only; split) | split | (rw [foldl_hbm] <;> intros) | (have hk := congrArg (fun r => r.1.mem.hbm) ‹_ = (_, _)›; simp_all; done) | (simp_all; done)

@[simp] theorem Chip.startPacket_hbm (c : Chip) (w : Waiting) (capped : Bool) : (c.startPacket w capped).mem.hbm = c.mem.hbm := by
  unfold Chip.startPacket
  repeat' first | (simp; done) | (dsimp only; split) | split | (rw [foldl_hbm] <;> intros) | (have hk := congrArg (fun r => r.1.mem.hbm) ‹_ = (_, _)›; simp_all; done) | (simp_all; done)

@[simp] theorem Chip.outputStart_hbm (c : Chip) (out : Nat) (z0 : Nat) : (c.outputStart out z0).mem.hbm = c.mem.hbm := by
  induction z0 generalizing c with
  | zero => rfl
  | succ n ih =>
    unfold Chip.outputStart
    split
    · rfl
    · dsimp only; split <;> rename_i e <;> have h := pair_hbm e (Chip.select_hbm ..) <;> simp at h
      · simp [h]
      · split
        · rw [ih]; simp [h]
        · split
          · rw [ih]; simp [h]
          · simp [h]

@[simp] theorem Chip.hintSend_hbm (c : Chip) (port : Nat) : (c.hintSend port).mem.hbm = c.mem.hbm := by
  unfold Chip.hintSend
  repeat' first | (simp; done) | (dsimp only; split) | split | (rw [foldl_hbm] <;> intros) | (have hk := congrArg (fun r => r.1.mem.hbm) ‹_ = (_, _)›; simp_all; done) | (simp_all; done)

@[simp] theorem Chip.hintReceive_hbm (c : Chip) (port : Nat) (item : List Byte) : (c.hintReceive port item).mem.hbm = c.mem.hbm := by
  unfold Chip.hintReceive
  repeat' first | (simp; done) | (dsimp only; split) | split | (rw [foldl_hbm] <;> intros) | (have hk := congrArg (fun r => r.1.mem.hbm) ‹_ = (_, _)›; simp_all; done) | (simp_all; done)

@[simp] theorem Chip.hintStale_hbm (c : Chip) (port : Nat) : (c.hintStale port).mem.hbm = c.mem.hbm := by
  unfold Chip.hintStale
  repeat' first | (simp; done) | (dsimp only; split) | split | (rw [foldl_hbm] <;> intros) | (have hk := congrArg (fun r => r.1.mem.hbm) ‹_ = (_, _)›; simp_all; done) | (simp_all; done)

@[simp] theorem Chip.tokenTick_hbm (c : Chip) (ticks : Nat) : (c.tokenTick ticks).mem.hbm = c.mem.hbm := by
  unfold Chip.tokenTick
  repeat' first | (simp; done) | (dsimp only; split) | split | (rw [foldl_hbm] <;> intros) | (have hk := congrArg (fun r => r.1.mem.hbm) ‹_ = (_, _)›; simp_all; done) | (simp_all; done)

@[simp] theorem Chip.reclock_hbm (c : Chip) (out : Nat) : (c.reclock out).mem.hbm = c.mem.hbm := by
  unfold Chip.reclock
  repeat' first | (simp; done) | (dsimp only; split) | split | (rw [foldl_hbm] <;> intros) | (have hk := congrArg (fun r => r.1.mem.hbm) ‹_ = (_, _)›; simp_all; done) | (simp_all; done)

@[simp] theorem Chip.countOverruns_hbm (c : Chip) (out : Nat) (g : Gate) : (c.countOverruns out g).mem.hbm = c.mem.hbm := by
  unfold Chip.countOverruns
  repeat' first | (simp; done) | (dsimp only; split) | split | (rw [foldl_hbm] <;> intros) | (have hk := congrArg (fun r => r.1.mem.hbm) ‹_ = (_, _)›; simp_all; done) | (simp_all; done)

@[simp] theorem Chip.setGate_hbm (c : Chip) (out : Nat) (g : Gate) : (c.setGate out g).mem.hbm = c.mem.hbm := by
  unfold Chip.setGate
  repeat' first | (simp; done) | (dsimp only; split) | split | (rw [foldl_hbm] <;> intros) | (have hk := congrArg (fun r => r.1.mem.hbm) ‹_ = (_, _)›; simp_all; done) | (simp_all; done)

@[simp] theorem Chip.gateEntryChange_hbm (c : Chip) (out : Nat) : (c.gateEntryChange out).mem.hbm = c.mem.hbm := by
  unfold Chip.gateEntryChange
  repeat' first | (simp; done) | (dsimp only; split) | split | (rw [foldl_hbm] <;> intros) | (have hk := congrArg (fun r => r.1.mem.hbm) ‹_ = (_, _)›; simp_all; done) | (simp_all; done)

@[simp] theorem Chip.gateCommitted_hbm (c : Chip) (out : Nat) : (c.gateCommitted out).mem.hbm = c.mem.hbm := by
  unfold Chip.gateCommitted
  repeat' first | (simp; done) | (dsimp only; split) | split | (rw [foldl_hbm] <;> intros) | (have hk := congrArg (fun r => r.1.mem.hbm) ‹_ = (_, _)›; simp_all; done) | (simp_all; done)

@[simp] theorem Chip.gatesAtReset_hbm (c : Chip)  : (c.gatesAtReset).mem.hbm = c.mem.hbm := by
  unfold Chip.gatesAtReset
  repeat' first | (simp; done) | (dsimp only; split) | split | (rw [foldl_hbm] <;> intros) | (have hk := congrArg (fun r => r.1.mem.hbm) ‹_ = (_, _)›; simp_all; done) | (simp_all; done)

@[simp] theorem Chip.gatesRetimed_hbm (c : Chip)  : (c.gatesRetimed).mem.hbm = c.mem.hbm := by
  unfold Chip.gatesRetimed
  repeat' first | (simp; done) | (dsimp only; split) | split | (rw [foldl_hbm] <;> intros) | (have hk := congrArg (fun r => r.1.mem.hbm) ‹_ = (_, _)›; simp_all; done) | (simp_all; done)

@[simp] theorem Chip.stallPorts_hbm (c : Chip) (unit : Nat) : (c.stallPorts unit).mem.hbm = c.mem.hbm := by
  unfold Chip.stallPorts
  repeat' first | (simp; done) | (dsimp only; split) | split | (rw [foldl_hbm] <;> intros) | (have hk := congrArg (fun r => r.1.mem.hbm) ‹_ = (_, _)›; simp_all; done) | (simp_all; done)

@[simp] theorem Chip.reportFault_hbm (c : Chip) (unit cause skind subject : Nat) : (c.reportFault unit cause skind subject).mem.hbm = c.mem.hbm := by
  unfold Chip.reportFault
  repeat' first | (simp; done) | (dsimp only; split) | split | (rw [foldl_hbm] <;> intros) | (have hk := congrArg (fun r => r.1.mem.hbm) ‹_ = (_, _)›; simp_all; done) | (simp_all; done)

@[simp] theorem Chip.stall_hbm (c : Chip) (unit : Nat) : (c.stall unit).mem.hbm = c.mem.hbm := by
  unfold Chip.stall
  repeat' first | (simp; done) | (dsimp only; split) | split | (rw [foldl_hbm] <;> intros) | (have hk := congrArg (fun r => r.1.mem.hbm) ‹_ = (_, _)›; simp_all; done) | (simp_all; done)

@[simp] theorem Chip.clearStatus_hbm (c : Chip) (unit cause v : Nat) : (c.clearStatus unit cause v).mem.hbm = c.mem.hbm := by
  unfold Chip.clearStatus
  repeat' first | (simp; done) | (dsimp only; split) | split | (rw [foldl_hbm] <;> intros) | (have hk := congrArg (fun r => r.1.mem.hbm) ‹_ = (_, _)›; simp_all; done) | (simp_all; done)

@[simp] theorem Chip.sendRecord_hbm (c : Chip) (dst : Nat) (l : List Word) : (c.sendRecord dst l).mem.hbm = c.mem.hbm := by
  unfold Chip.sendRecord
  repeat' first | (simp; done) | (dsimp only; split) | split | (rw [foldl_hbm] <;> intros) | (have hk := congrArg (fun r => r.1.mem.hbm) ‹_ = (_, _)›; simp_all; done) | (simp_all; done)

@[simp] theorem Chip.recordOut_hbm (c : Chip)  : (c.recordOut).mem.hbm = c.mem.hbm := by
  unfold Chip.recordOut
  repeat' first | (simp; done) | (dsimp only; split) | split | (rw [foldl_hbm] <;> intros) | (have hk := congrArg (fun r => r.1.mem.hbm) ‹_ = (_, _)›; simp_all; done) | (simp_all; done)

@[simp] theorem Chip.closeRecords_hbm (c : Chip)  : (c.closeRecords).mem.hbm = c.mem.hbm := by
  unfold Chip.closeRecords
  repeat' first | (simp; done) | (dsimp only; split) | split | (rw [foldl_hbm] <;> intros) | (have hk := congrArg (fun r => r.1.mem.hbm) ‹_ = (_, _)›; simp_all; done) | (simp_all; done)

@[simp] theorem Chip.restoreUnit_hbm (c : Chip) (u : Nat) : (c.restoreUnit u).mem.hbm = c.mem.hbm := by
  unfold Chip.restoreUnit
  repeat' first | (simp; done) | (dsimp only; split) | split | (rw [foldl_hbm] <;> intros) | (have hk := congrArg (fun r => r.1.mem.hbm) ‹_ = (_, _)›; simp_all; done) | (simp_all; done)

@[simp] theorem Chip.leaveReset_hbm (c : Chip) (u : Nat) : (c.leaveReset u).mem.hbm = c.mem.hbm := by
  unfold Chip.leaveReset
  repeat' first | (simp; done) | (dsimp only; split) | split | (rw [foldl_hbm] <;> intros) | (have hk := congrArg (fun r => r.1.mem.hbm) ‹_ = (_, _)›; simp_all; done) | (simp_all; done)

@[simp] theorem Chip.resetComplete_hbm (c : Chip) (u : Nat) : (c.resetComplete u).mem.hbm = c.mem.hbm := by
  unfold Chip.resetComplete
  repeat' first | (simp; done) | (dsimp only; split) | split | (rw [foldl_hbm] <;> intros) | (have hk := congrArg (fun r => r.1.mem.hbm) ‹_ = (_, _)›; simp_all; done) | (simp_all; done)

@[simp] theorem Chip.releaseUnit_hbm (c : Chip) (u : Nat) : (c.releaseUnit u).mem.hbm = c.mem.hbm := by
  unfold Chip.releaseUnit
  repeat' first | (simp; done) | (dsimp only; split) | split | (rw [foldl_hbm] <;> intros) | (have hk := congrArg (fun r => r.1.mem.hbm) ‹_ = (_, _)›; simp_all; done) | (simp_all; done)

@[simp] theorem Chip.lanePattern_hbm (c : Chip) (n : Nat) : (c.lanePattern n).mem.hbm = c.mem.hbm := by
  unfold Chip.lanePattern
  repeat' first | (simp; done) | (dsimp only; split) | split | (rw [foldl_hbm] <;> intros) | (have hk := congrArg (fun r => r.1.mem.hbm) ‹_ = (_, _)›; simp_all; done) | (simp_all; done)

@[simp] theorem Chip.laneEqualise_hbm (c : Chip) (n : Nat) : (c.laneEqualise n).mem.hbm = c.mem.hbm := by
  unfold Chip.laneEqualise
  repeat' first | (simp; done) | (dsimp only; split) | split | (rw [foldl_hbm] <;> intros) | (have hk := congrArg (fun r => r.1.mem.hbm) ‹_ = (_, _)›; simp_all; done) | (simp_all; done)

@[simp] theorem Chip.testHeaders_hbm (c : Chip) (n : Nat) (l : List Bool) : (c.testHeaders n l).mem.hbm = c.mem.hbm := by
  unfold Chip.testHeaders
  repeat' first | (simp; done) | (dsimp only; split) | split | (rw [foldl_hbm] <;> intros) | (have hk := congrArg (fun r => r.1.mem.hbm) ‹_ = (_, _)›; simp_all; done) | (simp_all; done)

@[simp] theorem Chip.bitSlip_hbm (c : Chip) (n k : Nat) : (c.bitSlip n k).1.mem.hbm = c.mem.hbm := by
  unfold Chip.bitSlip
  repeat' first | (simp; done) | (dsimp only; split) | split | (rw [foldl_hbm] <;> intros) | (have hk := congrArg (fun r => r.1.mem.hbm) ‹_ = (_, _)›; simp_all; done) | (simp_all; done)

@[simp] theorem Chip.countCodeword_hbm (c : Chip) (n errors : Nat) (blocks : List PortBlock) : (c.countCodeword n errors blocks).mem.hbm = c.mem.hbm := by
  unfold Chip.countCodeword
  repeat' first | (simp; done) | (dsimp only; split) | split | (rw [foldl_hbm] <;> intros) | (have hk := congrArg (fun r => r.1.mem.hbm) ‹_ = (_, _)›; simp_all; done) | (simp_all; done)

@[simp] theorem Chip.elasticFill_hbm (c : Chip) (n : Nat) (fill : Int) (filler : Bool) : (c.elasticFill n fill filler).1.mem.hbm = c.mem.hbm := by
  unfold Chip.elasticFill
  repeat' first | (simp; done) | (dsimp only; split) | split | (rw [foldl_hbm] <;> intros) | (have hk := congrArg (fun r => r.1.mem.hbm) ‹_ = (_, _)›; simp_all; done) | (simp_all; done)

@[simp] theorem Chip.takeCodeword_hbm (c : Chip) (n : Nat) (blocks : List PortBlock) (h : Nat) : (c.takeCodeword n blocks h).mem.hbm = c.mem.hbm := by
  unfold Chip.takeCodeword
  repeat' first | (simp; done) | (dsimp only; split) | split | (rw [foldl_hbm] <;> intros) | (have hk := congrArg (fun r => r.1.mem.hbm) ‹_ = (_, _)›; simp_all; done) | (simp_all; done)

@[simp] theorem Chip.codewordDecode_hbm (c : Chip) (n errors : Nat) (blocks : List LaneBlock) (fill : Int) : (c.codewordDecode n errors blocks fill).mem.hbm = c.mem.hbm := by
  unfold Chip.codewordDecode
  repeat' first | (simp; done) | (dsimp only; split) | split | (rw [foldl_hbm] <;> intros) | (have hk := congrArg (fun r => r.1.mem.hbm) ‹_ = (_, _)›; simp_all; done) | (simp_all; done)

@[simp] theorem Chip.lineFollows_hbm (c : Chip) (n : Nat) : (c.lineFollows n).mem.hbm = c.mem.hbm := by
  unfold Chip.lineFollows
  repeat' first | (simp; done) | (dsimp only; split) | split | (rw [foldl_hbm] <;> intros) | (have hk := congrArg (fun r => r.1.mem.hbm) ‹_ = (_, _)›; simp_all; done) | (simp_all; done)

@[simp] theorem Chip.checkerSync_hbm (c : Chip) (n nbits : Nat) : (c.checkerSync n nbits).mem.hbm = c.mem.hbm := by
  unfold Chip.checkerSync
  repeat' first | (simp; done) | (dsimp only; split) | split | (rw [foldl_hbm] <;> intros) | (have hk := congrArg (fun r => r.1.mem.hbm) ‹_ = (_, _)›; simp_all; done) | (simp_all; done)

@[simp] theorem Chip.checkerLoss_hbm (c : Chip) (n nbits errors : Nat) : (c.checkerLoss n nbits errors).mem.hbm = c.mem.hbm := by
  unfold Chip.checkerLoss
  repeat' first | (simp; done) | (dsimp only; split) | split | (rw [foldl_hbm] <;> intros) | (have hk := congrArg (fun r => r.1.mem.hbm) ‹_ = (_, _)›; simp_all; done) | (simp_all; done)

@[simp] theorem Chip.clearTests_hbm (c : Chip) (p : Nat) : (c.clearTests p).mem.hbm = c.mem.hbm := by
  unfold Chip.clearTests
  repeat' first | (simp; done) | (dsimp only; split) | split | (rw [foldl_hbm] <;> intros) | (have hk := congrArg (fun r => r.1.mem.hbm) ‹_ = (_, _)›; simp_all; done) | (simp_all; done)

@[simp] theorem Chip.endSpoiled_hbm (c : Chip) (port : Nat) (w : Waiting) (p : Packet) : (c.endSpoiled port w p).mem.hbm = c.mem.hbm := by
  unfold Chip.endSpoiled
  repeat' first | (simp; done) | (dsimp only; split) | split | (rw [foldl_hbm] <;> intros) | (have hk := congrArg (fun r => r.1.mem.hbm) ‹_ = (_, _)›; simp_all; done) | (simp_all; done)

@[simp] theorem Chip.abandonProgress_hbm (c : Chip) (port : Nat) (p : Packet) : (c.abandonProgress port p).mem.hbm = c.mem.hbm := by
  unfold Chip.abandonProgress
  rw [Chip.updRx_hbm, foldl_hbm]
  intros
  split <;> simp

@[simp] theorem Chip.completeProgress_hbm (c : Chip) (port : Nat) (p : Packet) (pool : Bool) : (c.completeProgress port p pool).mem.hbm = c.mem.hbm := by
  unfold Chip.completeProgress
  repeat' first | (simp; done) | (dsimp only; split) | split | (rw [foldl_hbm] <;> intros) | (have hk := congrArg (fun r => r.1.mem.hbm) ‹_ = (_, _)›; simp_all; done) | (simp_all; done)

@[simp] theorem Chip.framingLoss_hbm (c : Chip) (port : Nat) : (c.framingLoss port).mem.hbm = c.mem.hbm := by
  unfold Chip.framingLoss
  repeat' first | (simp; done) | (dsimp only; split) | split | (rw [foldl_hbm] <;> intros) | (have hk := congrArg (fun r => r.1.mem.hbm) ‹_ = (_, _)›; simp_all; done) | (simp_all; done)

@[simp] theorem Chip.bufferOverrun_hbm (c : Chip) (port : Nat) (p : Packet) (pool : Bool) : (c.bufferOverrun port p pool).mem.hbm = c.mem.hbm := by
  unfold Chip.bufferOverrun
  repeat' first | (simp; done) | (dsimp only; split) | split | (rw [foldl_hbm] <;> intros) | (have hk := congrArg (fun r => r.1.mem.hbm) ‹_ = (_, _)›; simp_all; done) | (simp_all; done)

@[simp] theorem Chip.acceptLsn_hbm (c : Chip) (port : Nat) : (c.acceptLsn port).mem.hbm = c.mem.hbm := by
  unfold Chip.acceptLsn
  repeat' first | (simp; done) | (dsimp only; split) | split | (rw [foldl_hbm] <;> intros) | (have hk := congrArg (fun r => r.1.mem.hbm) ‹_ = (_, _)›; simp_all; done) | (simp_all; done)

@[simp] theorem Chip.passOn_hbm (c : Chip) (port : Nat) (p : Packet) (short pool : Bool) : (c.passOn port p short pool).mem.hbm = c.mem.hbm := by
  unfold Chip.passOn
  repeat' first | (simp; done) | (dsimp only; split) | split | (rw [foldl_hbm] <;> intros) | (have hk := congrArg (fun r => r.1.mem.hbm) ‹_ = (_, _)›; simp_all; done) | (simp_all; done)

@[simp] theorem Chip.expectedPacket_hbm (c : Chip) (port : Nat) (hdr : Word) (p : Packet) (crc right : BitVec 32) (bad : Bool) : (c.expectedPacket port hdr p crc right bad).mem.hbm = c.mem.hbm := by
  unfold Chip.expectedPacket
  repeat' first | (simp; done) | (dsimp only; split) | split | (rw [foldl_hbm] <;> intros) | (have hk := congrArg (fun r => r.1.mem.hbm) ‹_ = (_, _)›; simp_all; done) | (simp_all; done)

@[simp] theorem Chip.linkPacket_hbm (c : Chip) (port : Nat) (raw : List (Byte × Bool)) : (c.linkPacket port raw).mem.hbm = c.mem.hbm := by
  unfold Chip.linkPacket
  repeat' first | (simp; done) | (dsimp only; split) | split | (rw [foldl_hbm] <;> intros) | (have hk := congrArg (fun r => r.1.mem.hbm) ‹_ = (_, _)›; simp_all; done) | (simp_all; done)

@[simp] theorem Chip.setStream_hbm (c : Chip) (port : Nat) (l : List (Byte × Bool)) : (c.setStream port l).mem.hbm = c.mem.hbm := by
  unfold Chip.setStream
  repeat' first | (simp; done) | (dsimp only; split) | split | (rw [foldl_hbm] <;> intros) | (have hk := congrArg (fun r => r.1.mem.hbm) ‹_ = (_, _)›; simp_all; done) | (simp_all; done)

@[simp] theorem Chip.takeStream_hbm (c : Chip) (port : Nat) (z0 : Nat) : (c.takeStream port z0).mem.hbm = c.mem.hbm := by
  induction z0 generalizing c port <;> unfold Chip.takeStream <;> repeat' first | (simp; done) | (dsimp only; split) | split | (rw [foldl_hbm] <;> intros) | (have hk := congrArg (fun r => r.1.mem.hbm) ‹_ = (_, _)›; simp_all; done) | (simp_all; done)

@[simp] theorem Chip.dataBlock_hbm (c : Chip) (port : Nat) (b : PortBlock) : (c.dataBlock port b).mem.hbm = c.mem.hbm := by
  unfold Chip.dataBlock
  repeat' first | (simp; done) | (dsimp only; split) | split | (rw [foldl_hbm] <;> intros) | (have hk := congrArg (fun r => r.1.mem.hbm) ‹_ = (_, _)›; simp_all; done) | (simp_all; done)

@[simp] theorem Chip.linkReceive_hbm (c : Chip) (port : Nat) (l : List PortBlock) : (c.linkReceive port l).mem.hbm = c.mem.hbm := by
  unfold Chip.linkReceive
  repeat' first | (simp; done) | (dsimp only; split) | split | (rw [foldl_hbm] <;> intros) | (have hk := congrArg (fun r => r.1.mem.hbm) ‹_ = (_, _)›; simp_all; done) | (simp_all; done)

@[simp] theorem Chip.linkReset_hbm (c : Chip) (port : Nat) : (c.linkReset port).mem.hbm = c.mem.hbm := by
  unfold Chip.linkReset
  repeat' first | (simp; done) | (dsimp only; split) | split | (rw [foldl_hbm] <;> intros) | (have hk := congrArg (fun r => r.1.mem.hbm) ‹_ = (_, _)›; simp_all; done) | (simp_all; done)

@[simp] theorem Chip.sendTrain_hbm (c : Chip) (p l : Nat) (b : TrainBlock) : (c.sendTrain p l b).mem.hbm = c.mem.hbm := by
  unfold Chip.sendTrain
  repeat' first | (simp; done) | (dsimp only; split) | split | (rw [foldl_hbm] <;> intros) | (have hk := congrArg (fun r => r.1.mem.hbm) ‹_ = (_, _)›; simp_all; done) | (simp_all; done)

@[simp] theorem Chip.sendBlocks_hbm (c : Chip) (p mask tbtype : Nat) (body : List Byte) : (c.sendBlocks p mask tbtype body).mem.hbm = c.mem.hbm := by
  unfold Chip.sendBlocks
  repeat' first | (simp; done) | (dsimp only; split) | split | (rw [foldl_hbm] <;> intros) | (have hk := congrArg (fun r => r.1.mem.hbm) ‹_ = (_, _)›; simp_all; done) | (simp_all; done)

@[simp] theorem Chip.sendSwitch_hbm (c : Chip) (p mask : Nat) : (c.sendSwitch p mask).mem.hbm = c.mem.hbm := by
  unfold Chip.sendSwitch
  repeat' first | (simp; done) | (dsimp only; split) | split | (rw [foldl_hbm] <;> intros) | (have hk := congrArg (fun r => r.1.mem.hbm) ‹_ = (_, _)›; simp_all; done) | (simp_all; done)

@[simp] theorem Chip.portEvent_hbm (c : Chip) (p code : Nat) : (c.portEvent p code).mem.hbm = c.mem.hbm := by
  unfold Chip.portEvent
  repeat' first | (simp; done) | (dsimp only; split) | split | (rw [foldl_hbm] <;> intros) | (have hk := congrArg (fun r => r.1.mem.hbm) ‹_ = (_, _)›; simp_all; done) | (simp_all; done)

@[simp] theorem Chip.retrainEventTimeout_hbm (c : Chip) (p : Nat) : (c.retrainEventTimeout p).mem.hbm = c.mem.hbm := by
  unfold Chip.retrainEventTimeout
  repeat' first | (simp; done) | (dsimp only; split) | split | (rw [foldl_hbm] <;> intros) | (have hk := congrArg (fun r => r.1.mem.hbm) ‹_ = (_, _)›; simp_all; done) | (simp_all; done)

@[simp] theorem Chip.leaveActive_hbm (c : Chip) (p : Nat) : (c.leaveActive p).mem.hbm = c.mem.hbm := by
  unfold Chip.leaveActive
  repeat' first | (simp; done) | (dsimp only; split) | split | (rw [foldl_hbm] <;> intros) | (have hk := congrArg (fun r => r.1.mem.hbm) ‹_ = (_, _)›; simp_all; done) | (simp_all; done)

@[simp] theorem Chip.huntAll_hbm (c : Chip) (p : Nat) : (c.huntAll p).mem.hbm = c.mem.hbm := by
  unfold Chip.huntAll
  repeat' first | (simp; done) | (dsimp only; split) | split | (rw [foldl_hbm] <;> intros) | (have hk := congrArg (fun r => r.1.mem.hbm) ‹_ = (_, _)›; simp_all; done) | (simp_all; done)

@[simp] theorem Chip.toDetect_hbm (c : Chip) (p reason : Nat) : (c.toDetect p reason).mem.hbm = c.mem.hbm := by
  unfold Chip.toDetect
  repeat' first | (simp; done) | (dsimp only; split) | split | (rw [foldl_hbm] <;> intros) | (have hk := congrArg (fun r => r.1.mem.hbm) ‹_ = (_, _)›; simp_all; done) | (simp_all; done)

@[simp] theorem Chip.toDisabled_hbm (c : Chip) (p : Nat) (leavingJig : Bool) : (c.toDisabled p leavingJig).mem.hbm = c.mem.hbm := by
  unfold Chip.toDisabled
  repeat' first | (simp; done) | (dsimp only; split) | split | (rw [foldl_hbm] <;> intros) | (have hk := congrArg (fun r => r.1.mem.hbm) ‹_ = (_, _)›; simp_all; done) | (simp_all; done)

@[simp] theorem Chip.fromDisabled_hbm (c : Chip) (p : Nat) : (c.fromDisabled p).mem.hbm = c.mem.hbm := by
  unfold Chip.fromDisabled
  repeat' first | (simp; done) | (dsimp only; split) | split | (rw [foldl_hbm] <;> intros) | (have hk := congrArg (fun r => r.1.mem.hbm) ‹_ = (_, _)›; simp_all; done) | (simp_all; done)

@[simp] theorem Chip.portsFollow_hbm (c : Chip) (leavingJig : Bool) : (c.portsFollow leavingJig).mem.hbm = c.mem.hbm := by
  unfold Chip.portsFollow
  repeat' first | (simp; done) | (dsimp only; split) | split | (rw [foldl_hbm] <;> intros) | (have hk := congrArg (fun r => r.1.mem.hbm) ‹_ = (_, _)›; simp_all; done) | (simp_all; done)

@[simp] theorem Chip.toPattern_hbm (c : Chip) (p found : Nat) : (c.toPattern p found).mem.hbm = c.mem.hbm := by
  unfold Chip.toPattern
  repeat' first | (simp; done) | (dsimp only; split) | split | (rw [foldl_hbm] <;> intros) | (have hk := congrArg (fun r => r.1.mem.hbm) ‹_ = (_, _)›; simp_all; done) | (simp_all; done)

@[simp] theorem Chip.nextRequest_hbm (c : Chip) (p l : Nat) : (c.nextRequest p l).mem.hbm = c.mem.hbm := by
  unfold Chip.nextRequest
  repeat' first | (simp; done) | (dsimp only; split) | split | (rw [foldl_hbm] <;> intros) | (have hk := congrArg (fun r => r.1.mem.hbm) ‹_ = (_, _)›; simp_all; done) | (simp_all; done)

@[simp] theorem Chip.startEqualise_hbm (c : Chip) (p mask : Nat) : (c.startEqualise p mask).mem.hbm = c.mem.hbm := by
  unfold Chip.startEqualise
  repeat' first | (simp; done) | (dsimp only; split) | split | (rw [foldl_hbm] <;> intros) | (have hk := congrArg (fun r => r.1.mem.hbm) ‹_ = (_, _)›; simp_all; done) | (simp_all; done)

@[simp] theorem Chip.toEqualise_hbm (c : Chip) (p : Nat) : (c.toEqualise p).mem.hbm = c.mem.hbm := by
  unfold Chip.toEqualise
  repeat' first | (simp; done) | (dsimp only; split) | split | (rw [foldl_hbm] <;> intros) | (have hk := congrArg (fun r => r.1.mem.hbm) ‹_ = (_, _)›; simp_all; done) | (simp_all; done)

@[simp] theorem Chip.toCapabilities_hbm (c : Chip) (p : Nat) : (c.toCapabilities p).mem.hbm = c.mem.hbm := by
  unfold Chip.toCapabilities
  repeat' first | (simp; done) | (dsimp only; split) | split | (rw [foldl_hbm] <;> intros) | (have hk := congrArg (fun r => r.1.mem.hbm) ‹_ = (_, _)›; simp_all; done) | (simp_all; done)

@[simp] theorem Chip.activeEvent_hbm (c : Chip) (p : Nat) (t : Port) : (c.activeEvent p t).mem.hbm = c.mem.hbm := by
  unfold Chip.activeEvent
  repeat' first | (simp; done) | (dsimp only; split) | split | (rw [foldl_hbm] <;> intros) | (have hk := congrArg (fun r => r.1.mem.hbm) ‹_ = (_, _)›; simp_all; done) | (simp_all; done)

@[simp] theorem Chip.toActive_hbm (c : Chip) (p : Nat) : (c.toActive p).mem.hbm = c.mem.hbm := by
  unfold Chip.toActive
  repeat' first | (simp; done) | (dsimp only; split) | split | (rw [foldl_hbm] <;> intros) | (have hk := congrArg (fun r => r.1.mem.hbm) ‹_ = (_, _)›; simp_all; done) | (simp_all; done)

@[simp] theorem Chip.withLanes_hbm (c : Chip) (p lanes : Nat) : (c.withLanes p lanes).mem.hbm = c.mem.hbm := by
  unfold Chip.withLanes
  repeat' first | (simp; done) | (dsimp only; split) | split | (rw [foldl_hbm] <;> intros) | (have hk := congrArg (fun r => r.1.mem.hbm) ‹_ = (_, _)›; simp_all; done) | (simp_all; done)

@[simp] theorem Chip.sendMsg_hbm (c : Chip) (p msg : Nat) (m : WidthMsg) : (c.sendMsg p msg m).mem.hbm = c.mem.hbm := by
  unfold Chip.sendMsg
  repeat' first | (simp; done) | (dsimp only; split) | split | (rw [foldl_hbm] <;> intros) | (have hk := congrArg (fun r => r.1.mem.hbm) ‹_ = (_, _)›; simp_all; done) | (simp_all; done)

@[simp] theorem Chip.sendSwitches_hbm (c : Chip) (p : Nat) (m : WidthMsg) : (c.sendSwitches p m).mem.hbm = c.mem.hbm := by
  unfold Chip.sendSwitches
  repeat' first | (simp; done) | (dsimp only; split) | split | (rw [foldl_hbm] <;> intros) | (have hk := congrArg (fun r => r.1.mem.hbm) ‹_ = (_, _)›; simp_all; done) | (simp_all; done)

@[simp] theorem Chip.leaderSwitch_hbm (c : Chip) (p : Nat) : (c.leaderSwitch p).mem.hbm = c.mem.hbm := by
  unfold Chip.leaderSwitch
  repeat' first | (simp; done) | (dsimp only; split) | split | (rw [foldl_hbm] <;> intros) | (have hk := congrArg (fun r => r.1.mem.hbm) ‹_ = (_, _)›; simp_all; done) | (simp_all; done)

@[simp] theorem Chip.idleTo_hbm (c : Chip) (p stage : Nat) : (c.idleTo p stage).mem.hbm = c.mem.hbm := by
  unfold Chip.idleTo
  repeat' first | (simp; done) | (dsimp only; split) | split | (rw [foldl_hbm] <;> intros) | (have hk := congrArg (fun r => r.1.mem.hbm) ‹_ = (_, _)›; simp_all; done) | (simp_all; done)

@[simp] theorem Chip.startIdle_hbm (c : Chip) (p : Nat) : (c.startIdle p).mem.hbm = c.mem.hbm := by
  unfold Chip.startIdle
  repeat' first | (simp; done) | (dsimp only; split) | split | (rw [foldl_hbm] <;> intros) | (have hk := congrArg (fun r => r.1.mem.hbm) ‹_ = (_, _)›; simp_all; done) | (simp_all; done)

@[simp] theorem Chip.idleEval_hbm (c : Chip) (p : Nat) : (c.idleEval p).mem.hbm = c.mem.hbm := by
  unfold Chip.idleEval
  repeat' first | (simp; done) | (dsimp only; split) | split | (rw [foldl_hbm] <;> intros) | (have hk := congrArg (fun r => r.1.mem.hbm) ‹_ = (_, _)›; simp_all; done) | (simp_all; done)

@[simp] theorem Chip.trainEval_hbm (c : Chip) (p : Nat) : (c.trainEval p).mem.hbm = c.mem.hbm := by
  unfold Chip.trainEval
  repeat' first | (simp; done) | (dsimp only; split) | split | (rw [foldl_hbm] <;> intros) | (have hk := congrArg (fun r => r.1.mem.hbm) ‹_ = (_, _)›; simp_all; done) | (simp_all; done)

@[simp] theorem Chip.receiverDetect_hbm (c : Chip) (p found : Nat) : (c.receiverDetect p found).mem.hbm = c.mem.hbm := by
  unfold Chip.receiverDetect
  repeat' first | (simp; done) | (dsimp only; split) | split | (rw [foldl_hbm] <;> intros) | (have hk := congrArg (fun r => r.1.mem.hbm) ‹_ = (_, _)›; simp_all; done) | (simp_all; done)

@[simp] theorem Chip.takeCommon_hbm (c : Chip) (p l : Nat) (b : TrainBlock) : (c.takeCommon p l b).mem.hbm = c.mem.hbm := by
  unfold Chip.takeCommon
  repeat' first | (simp; done) | (dsimp only; split) | split | (rw [foldl_hbm] <;> intros) | (have hk := congrArg (fun r => r.1.mem.hbm) ‹_ = (_, _)›; simp_all; done) | (simp_all; done)

@[simp] theorem Chip.patternReceive_hbm (c : Chip) (p l : Nat) (b : TrainBlock) : (c.patternReceive p l b).mem.hbm = c.mem.hbm := by
  unfold Chip.patternReceive
  repeat' first | (simp; done) | (dsimp only; split) | split | (rw [foldl_hbm] <;> intros) | (have hk := congrArg (fun r => r.1.mem.hbm) ‹_ = (_, _)›; simp_all; done) | (simp_all; done)

@[simp] theorem Chip.otherBlock_hbm (c : Chip) (p l tbtype : Nat) (b : TrainBlock) (f : Chip → Chip) (hf : ∀ c, (f c).mem.hbm = c.mem.hbm) : (c.otherBlock p l tbtype b f).mem.hbm = c.mem.hbm := by
  unfold Chip.otherBlock
  repeat' first | (simp; done) | (dsimp only; split) | split | (rw [foldl_hbm] <;> intros) | (have hk := congrArg (fun r => r.1.mem.hbm) ‹_ = (_, _)›; simp_all; done) | (simp_all; done)

@[simp] theorem Chip.eqResponse_hbm (c : Chip) (p l : Nat) (b : TrainBlock) : (c.eqResponse p l b).mem.hbm = c.mem.hbm := by
  unfold Chip.eqResponse
  apply Chip.otherBlock_hbm
  intro c; dsimp only
  repeat' first | (simp; done) | split

@[simp] theorem Chip.mismatch_hbm (c : Chip) (p : Nat) (cabling role : Bool) : (c.mismatch p cabling role).mem.hbm = c.mem.hbm := by
  unfold Chip.mismatch
  repeat' first | (simp; done) | (dsimp only; split) | split | (rw [foldl_hbm] <;> intros) | (have hk := congrArg (fun r => r.1.mem.hbm) ‹_ = (_, _)›; simp_all; done) | (simp_all; done)

@[simp] theorem Chip.capabilities_hbm (c : Chip) (p : Nat) (b : TrainBlock) (peerPassed : Bool) : (c.capabilities p b peerPassed).mem.hbm = c.mem.hbm := by
  unfold Chip.capabilities
  repeat' first | (simp; done) | (dsimp only; split) | split | (rw [foldl_hbm] <;> intros) | (have hk := congrArg (fun r => r.1.mem.hbm) ‹_ = (_, _)›; simp_all; done) | (simp_all; done)

@[simp] theorem Chip.afterLoss_hbm (c : Chip) (n : Nat) : (c.afterLoss n).mem.hbm = c.mem.hbm := by
  unfold Chip.afterLoss
  repeat' first | (simp; done) | (dsimp only; split) | split | (rw [foldl_hbm] <;> intros) | (have hk := congrArg (fun r => r.1.mem.hbm) ‹_ = (_, _)›; simp_all; done) | (simp_all; done)

@[simp] theorem Chip.blockLock_hbm (c : Chip) (n : Nat) (headers : List Bool) : (c.blockLock n headers).mem.hbm = c.mem.hbm := by
  unfold Chip.blockLock
  repeat' first | (simp; done) | (dsimp only; split) | split | (rw [foldl_hbm] <;> intros) | (have hk := congrArg (fun r => r.1.mem.hbm) ‹_ = (_, _)›; simp_all; done) | (simp_all; done)

@[simp] theorem Chip.markerLock_hbm (c : Chip) (n : Nat) (m : MarkerInfo) : (c.markerLock n m).mem.hbm = c.mem.hbm := by
  unfold Chip.markerLock
  repeat' first | (simp; done) | (dsimp only; split) | split | (rw [foldl_hbm] <;> intros) | (have hk := congrArg (fun r => r.1.mem.hbm) ‹_ = (_, _)›; simp_all; done) | (simp_all; done)

@[simp] theorem Chip.lockLoss_hbm (c : Chip) (n : Nat) (kind : LockKind) : (c.lockLoss n kind).mem.hbm = c.mem.hbm := by
  unfold Chip.lockLoss
  repeat' first | (simp; done) | (dsimp only; split) | split | (rw [foldl_hbm] <;> intros) | (have hk := congrArg (fun r => r.1.mem.hbm) ‹_ = (_, _)›; simp_all; done) | (simp_all; done)

@[simp] theorem Chip.laneCodeword_hbm (c : Chip) (n errors : Nat) (blocks : List LaneBlock) (fill : Int) : (c.laneCodeword n errors blocks fill).mem.hbm = c.mem.hbm := by
  unfold Chip.laneCodeword
  repeat' first | (simp; done) | (dsimp only; split) | split | (rw [foldl_hbm] <;> intros) | (have hk := congrArg (fun r => r.1.mem.hbm) ‹_ = (_, _)›; simp_all; done) | (simp_all; done)

@[simp] theorem Chip.idleFails_hbm (c : Chip) (p : Nat) : (c.idleFails p).mem.hbm = c.mem.hbm := by
  unfold Chip.idleFails
  repeat' first | (simp; done) | (dsimp only; split) | split | (rw [foldl_hbm] <;> intros) | (have hk := congrArg (fun r => r.1.mem.hbm) ‹_ = (_, _)›; simp_all; done) | (simp_all; done)

@[simp] theorem Chip.lockTimeout_hbm (c : Chip) (p : Nat) : (c.lockTimeout p).mem.hbm = c.mem.hbm := by
  unfold Chip.lockTimeout
  repeat' first | (simp; done) | (dsimp only; split) | split | (rw [foldl_hbm] <;> intros) | (have hk := congrArg (fun r => r.1.mem.hbm) ‹_ = (_, _)›; simp_all; done) | (simp_all; done)

@[simp] theorem Chip.trainingTimeout_hbm (c : Chip) (p : Nat) : (c.trainingTimeout p).mem.hbm = c.mem.hbm := by
  unfold Chip.trainingTimeout
  repeat' first | (simp; done) | (dsimp only; split) | split | (rw [foldl_hbm] <;> intros) | (have hk := congrArg (fun r => r.1.mem.hbm) ‹_ = (_, _)›; simp_all; done) | (simp_all; done)

@[simp] theorem Chip.attemptWaitEnd_hbm (c : Chip) (p : Nat) : (c.attemptWaitEnd p).mem.hbm = c.mem.hbm := by
  unfold Chip.attemptWaitEnd
  repeat' first | (simp; done) | (dsimp only; split) | split | (rw [foldl_hbm] <;> intros) | (have hk := congrArg (fun r => r.1.mem.hbm) ‹_ = (_, _)›; simp_all; done) | (simp_all; done)

@[simp] theorem Chip.askWidth_hbm (c : Chip) (p lanes : Nat) (degrade : Bool) : (c.askWidth p lanes degrade).mem.hbm = c.mem.hbm := by
  unfold Chip.askWidth
  repeat' first | (simp; done) | (dsimp only; split) | split | (rw [foldl_hbm] <;> intros) | (have hk := congrArg (fun r => r.1.mem.hbm) ‹_ = (_, _)›; simp_all; done) | (simp_all; done)

@[simp] theorem Chip.portCommand_hbm (c : Chip) (p code : Nat) : (c.portCommand p code).1.mem.hbm = c.mem.hbm := by
  unfold Chip.portCommand
  repeat' first | (simp; done) | (dsimp only; split) | split | (rw [foldl_hbm] <;> intros) | (have hk := congrArg (fun r => r.1.mem.hbm) ‹_ = (_, _)›; simp_all; done) | (simp_all; done)

@[simp] theorem Chip.widthChanged_hbm (c : Chip) (p lanes : Nat) (degrade : Bool) : (c.widthChanged p lanes degrade).mem.hbm = c.mem.hbm := by
  unfold Chip.widthChanged
  repeat' first | (simp; done) | (dsimp only; split) | split | (rw [foldl_hbm] <;> intros) | (have hk := congrArg (fun r => r.1.mem.hbm) ‹_ = (_, _)›; simp_all; done) | (simp_all; done)

@[simp] theorem Chip.takeWreq_hbm (c : Chip) (p : Nat) (m : WidthMsg) : (c.takeWreq p m).mem.hbm = c.mem.hbm := by
  unfold Chip.takeWreq
  repeat' first | (simp; done) | (dsimp only; split) | split | (rw [foldl_hbm] <;> intros) | (have hk := congrArg (fun r => r.1.mem.hbm) ‹_ = (_, _)›; simp_all; done) | (simp_all; done)

@[simp] theorem Chip.takeWgrant_hbm (c : Chip) (p : Nat) (m : WidthMsg) : (c.takeWgrant p m).mem.hbm = c.mem.hbm := by
  unfold Chip.takeWgrant
  repeat' first | (simp; done) | (dsimp only; split) | split | (rw [foldl_hbm] <;> intros) | (have hk := congrArg (fun r => r.1.mem.hbm) ‹_ = (_, _)›; simp_all; done) | (simp_all; done)

@[simp] theorem Chip.takeWrefuse_hbm (c : Chip) (p : Nat) (m : WidthMsg) : (c.takeWrefuse p m).mem.hbm = c.mem.hbm := by
  unfold Chip.takeWrefuse
  repeat' first | (simp; done) | (dsimp only; split) | split | (rw [foldl_hbm] <;> intros) | (have hk := congrArg (fun r => r.1.mem.hbm) ‹_ = (_, _)›; simp_all; done) | (simp_all; done)

@[simp] theorem Chip.takeWswitch_hbm (c : Chip) (p : Nat) (m : WidthMsg) : (c.takeWswitch p m).mem.hbm = c.mem.hbm := by
  unfold Chip.takeWswitch
  repeat' first | (simp; done) | (dsimp only; split) | split | (rw [foldl_hbm] <;> intros) | (have hk := congrArg (fun r => r.1.mem.hbm) ‹_ = (_, _)›; simp_all; done) | (simp_all; done)

@[simp] theorem Chip.switchWhenIdle_hbm (c : Chip) (p : Nat) : (c.switchWhenIdle p).mem.hbm = c.mem.hbm := by
  unfold Chip.switchWhenIdle
  repeat' first | (simp; done) | (dsimp only; split) | split | (rw [foldl_hbm] <;> intros) | (have hk := congrArg (fun r => r.1.mem.hbm) ‹_ = (_, _)›; simp_all; done) | (simp_all; done)

@[simp] theorem Chip.takeRreq_hbm (c : Chip) (p : Nat) (m : WidthMsg) : (c.takeRreq p m).mem.hbm = c.mem.hbm := by
  unfold Chip.takeRreq
  repeat' first | (simp; done) | (dsimp only; split) | split | (rw [foldl_hbm] <;> intros) | (have hk := congrArg (fun r => r.1.mem.hbm) ‹_ = (_, _)›; simp_all; done) | (simp_all; done)

@[simp] theorem Chip.takeRack_hbm (c : Chip) (p : Nat) (m : WidthMsg) : (c.takeRack p m).mem.hbm = c.mem.hbm := by
  unfold Chip.takeRack
  repeat' first | (simp; done) | (dsimp only; split) | split | (rw [foldl_hbm] <;> intros) | (have hk := congrArg (fun r => r.1.mem.hbm) ‹_ = (_, _)›; simp_all; done) | (simp_all; done)

@[simp] theorem Chip.wreqTimeout_hbm (c : Chip) (p : Nat) : (c.wreqTimeout p).mem.hbm = c.mem.hbm := by
  unfold Chip.wreqTimeout
  repeat' first | (simp; done) | (dsimp only; split) | split | (rw [foldl_hbm] <;> intros) | (have hk := congrArg (fun r => r.1.mem.hbm) ‹_ = (_, _)›; simp_all; done) | (simp_all; done)

@[simp] theorem Chip.rackTimeout_hbm (c : Chip) (p : Nat) : (c.rackTimeout p).mem.hbm = c.mem.hbm := by
  unfold Chip.rackTimeout
  repeat' first | (simp; done) | (dsimp only; split) | split | (rw [foldl_hbm] <;> intros) | (have hk := congrArg (fun r => r.1.mem.hbm) ‹_ = (_, _)›; simp_all; done) | (simp_all; done)

@[simp] theorem Chip.wswitchTimeout_hbm (c : Chip) (p : Nat) : (c.wswitchTimeout p).mem.hbm = c.mem.hbm := by
  unfold Chip.wswitchTimeout
  repeat' first | (simp; done) | (dsimp only; split) | split | (rw [foldl_hbm] <;> intros) | (have hk := congrArg (fun r => r.1.mem.hbm) ‹_ = (_, _)›; simp_all; done) | (simp_all; done)

@[simp] theorem Chip.degrade_hbm (c : Chip) (p : Nat) : (c.degrade p).mem.hbm = c.mem.hbm := by
  unfold Chip.degrade
  repeat' first | (simp; done) | (dsimp only; split) | split | (rw [foldl_hbm] <;> intros) | (have hk := congrArg (fun r => r.1.mem.hbm) ‹_ = (_, _)›; simp_all; done) | (simp_all; done)

@[simp] theorem Chip.degradationWindow_hbm (c : Chip) (p : Nat) : (c.degradationWindow p).mem.hbm = c.mem.hbm := by
  unfold Chip.degradationWindow
  repeat' first | (simp; done) | (dsimp only; split) | split | (rw [foldl_hbm] <;> intros) | (have hk := congrArg (fun r => r.1.mem.hbm) ‹_ = (_, _)›; simp_all; done) | (simp_all; done)

@[simp] theorem Chip.restoreInterval_hbm (c : Chip) (p : Nat) : (c.restoreInterval p).mem.hbm = c.mem.hbm := by
  unfold Chip.restoreInterval
  repeat' first | (simp; done) | (dsimp only; split) | split | (rw [foldl_hbm] <;> intros) | (have hk := congrArg (fun r => r.1.mem.hbm) ‹_ = (_, _)›; simp_all; done) | (simp_all; done)

@[simp] theorem Chip.portSettings_hbm (c : Chip)  : (c.portSettings).mem.hbm = c.mem.hbm := by
  unfold Chip.portSettings
  repeat' first | (simp; done) | (dsimp only; split) | split | (rw [foldl_hbm] <;> intros) | (have hk := congrArg (fun r => r.1.mem.hbm) ‹_ = (_, _)›; simp_all; done) | (simp_all; done)

@[simp] theorem Chip.heldAgain_hbm (c : Chip)  : (c.heldAgain).mem.hbm = c.mem.hbm := by
  unfold Chip.heldAgain
  repeat' first | (simp; done) | (dsimp only; split) | split | (rw [foldl_hbm] <;> intros) | (have hk := congrArg (fun r => r.1.mem.hbm) ‹_ = (_, _)›; simp_all; done) | (simp_all; done)

@[simp] theorem Chip.blockRetrain_hbm (c : Chip) (p : Nat) : (c.blockRetrain p).mem.hbm = c.mem.hbm := by
  unfold Chip.blockRetrain
  repeat' first | (simp; done) | (dsimp only; split) | split | (rw [foldl_hbm] <;> intros) | (have hk := congrArg (fun r => r.1.mem.hbm) ‹_ = (_, _)›; simp_all; done) | (simp_all; done)

@[simp] theorem Chip.regDone_hbm (c : Chip) (fn addr result key : Nat) : (c.regDone fn addr result key).mem.hbm = c.mem.hbm := by
  unfold Chip.regDone
  repeat' first | (simp; done) | (dsimp only; split) | split | (rw [foldl_hbm] <;> intros) | (have hk := congrArg (fun r => r.1.mem.hbm) ‹_ = (_, _)›; simp_all; done) | (simp_all; done)

@[simp] theorem Chip.regFails_hbm (c : Chip) (fn addr result : Nat) : (c.regFails fn addr result).mem.hbm = c.mem.hbm := by
  unfold Chip.regFails
  repeat' first | (simp; done) | (dsimp only; split) | split | (rw [foldl_hbm] <;> intros) | (have hk := congrArg (fun r => r.1.mem.hbm) ‹_ = (_, _)›; simp_all; done) | (simp_all; done)

@[simp] theorem Chip.popRegion_hbm (c : Chip) (fn : Nat) : (c.popRegion fn).mem.hbm = c.mem.hbm := by
  unfold Chip.popRegion
  repeat' first | (simp; done) | (dsimp only; split) | split | (rw [foldl_hbm] <;> intros) | (have hk := congrArg (fun r => r.1.mem.hbm) ‹_ = (_, _)›; simp_all; done) | (simp_all; done)

@[simp] theorem Chip.regBlockFails_hbm (c : Chip) (fn : Nat) : (c.regBlockFails fn).mem.hbm = c.mem.hbm := by
  unfold Chip.regBlockFails
  repeat' first | (simp; done) | (dsimp only; split) | split | (rw [foldl_hbm] <;> intros) | (have hk := congrArg (fun r => r.1.mem.hbm) ‹_ = (_, _)›; simp_all; done) | (simp_all; done)

@[simp] theorem Chip.regionCommand_hbm (c : Chip) (fn addr : Nat) : (c.regionCommand fn addr).1.mem.hbm = c.mem.hbm := by
  unfold Chip.regionCommand
  repeat' first | (simp; done) | (dsimp only; split) | split | (rw [foldl_hbm] <;> intros) | (have hk := congrArg (fun r => r.1.mem.hbm) ‹_ = (_, _)›; simp_all; done) | (simp_all; done)

@[simp] theorem Chip.registerComplete_hbm (c : Chip) (fn : Nat) (block : Option RegBlock) (pages : Option (List Nat)) : (c.registerComplete fn block pages).mem.hbm = c.mem.hbm := by
  unfold Chip.registerComplete
  repeat' first | (simp; done) | (dsimp only; split) | split | (rw [foldl_hbm] <;> intros) | (have hk := congrArg (fun r => r.1.mem.hbm) ‹_ = (_, _)›; simp_all; done) | (simp_all; done)

@[simp] theorem Chip.endKeyOffers_hbm (c : Chip) (key : Nat) : (c.endKeyOffers key).mem.hbm = c.mem.hbm := by
  unfold Chip.endKeyOffers
  repeat' first | (simp; done) | (dsimp only; split) | split | (rw [foldl_hbm] <;> intros) | (have hk := congrArg (fun r => r.1.mem.hbm) ‹_ = (_, _)›; simp_all; done) | (simp_all; done)

@[simp] theorem Chip.regionBad_hbm (c : Chip) (i : Nat) : (c.regionBad i).mem.hbm = c.mem.hbm := by
  unfold Chip.regionBad
  repeat' first | (simp; done) | (dsimp only; split) | split | (rw [foldl_hbm] <;> intros) | (have hk := congrArg (fun r => r.1.mem.hbm) ‹_ = (_, _)›; simp_all; done) | (simp_all; done)

@[simp] theorem Chip.deregister_hbm (c : Chip) (fn : Nat) (block : Option RegBlock) : (c.deregister fn block).mem.hbm = c.mem.hbm := by
  unfold Chip.deregister
  repeat' first | (simp; done) | (dsimp only; split) | split | (rw [foldl_hbm] <;> intros) | (have hk := congrArg (fun r => r.1.mem.hbm) ‹_ = (_, _)›; simp_all; done) | (simp_all; done)

@[simp] theorem Chip.deregisterComplete_hbm (c : Chip) (fn : Nat) : (c.deregisterComplete fn).mem.hbm = c.mem.hbm := by
  unfold Chip.deregisterComplete
  repeat' first | (simp; done) | (dsimp only; split) | split | (rw [foldl_hbm] <;> intros) | (have hk := congrArg (fun r => r.1.mem.hbm) ‹_ = (_, _)›; simp_all; done) | (simp_all; done)

@[simp] theorem Chip.atsInvalidate_hbm (c : Chip) (fn addr len : Nat) : (c.atsInvalidate fn addr len).mem.hbm = c.mem.hbm := by
  unfold Chip.atsInvalidate
  repeat' first | (simp; done) | (dsimp only; split) | split | (rw [foldl_hbm] <;> intros) | (have hk := congrArg (fun r => r.1.mem.hbm) ‹_ = (_, _)›; simp_all; done) | (simp_all; done)

@[simp] theorem Chip.atsComplete_hbm (c : Chip) (fn : Nat) : (c.atsComplete fn).mem.hbm = c.mem.hbm := by
  unfold Chip.atsComplete
  repeat' first | (simp; done) | (dsimp only; split) | split | (rw [foldl_hbm] <;> intros) | (have hk := congrArg (fun r => r.1.mem.hbm) ‹_ = (_, _)›; simp_all; done) | (simp_all; done)

@[simp] theorem Chip.updGroup_hbm (c : Chip) (g : Nat) (f : Group → Group) : (c.updGroup g f).mem.hbm = c.mem.hbm := by
  unfold Chip.updGroup
  repeat' first | (simp; done) | (dsimp only; split) | split | (rw [foldl_hbm] <;> intros) | (have hk := congrArg (fun r => r.1.mem.hbm) ‹_ = (_, _)›; simp_all; done) | (simp_all; done)

@[simp] theorem Chip.giveNewPlaces_hbm (c : Chip) (z0 : List Nat) (z1 : List Nat) : (c.giveNewPlaces z0 z1).mem.hbm = c.mem.hbm := by
  induction z0 generalizing c z1 <;> unfold Chip.giveNewPlaces <;> repeat' first | (simp; done) | (dsimp only; split) | split | (rw [foldl_hbm] <;> intros) | (have hk := congrArg (fun r => r.1.mem.hbm) ‹_ = (_, _)›; simp_all; done) | (simp_all; done)

@[simp] theorem Chip.nextExportGen_hbm (c : Chip) (n : Nat) : (c.nextExportGen n).mem.hbm = c.mem.hbm := by
  unfold Chip.nextExportGen
  repeat' first | (simp; done) | (dsimp only; split) | split | (rw [foldl_hbm] <;> intros) | (have hk := congrArg (fun r => r.1.mem.hbm) ‹_ = (_, _)›; simp_all; done) | (simp_all; done)

@[simp] theorem Chip.withdrawExport_hbm (c : Chip) (size n : Nat) : (c.withdrawExport size n).mem.hbm = c.mem.hbm := by
  unfold Chip.withdrawExport
  extract_lets attr
  split
  · rw [Chip.endKeyOffers_hbm, Chip.nextExportGen_hbm, Chip.setParam_hbm]
  · rfl

@[simp] theorem Chip.withdrawExports_hbm (c : Chip) (size : Nat) (l : List Nat) : (c.withdrawExports size l).mem.hbm = c.mem.hbm := by
  unfold Chip.withdrawExports
  repeat' first | (simp; done) | (dsimp only; split) | split | (rw [foldl_hbm] <;> intros) | (have hk := congrArg (fun r => r.1.mem.hbm) ‹_ = (_, _)›; simp_all; done) | (simp_all; done)

@[simp] theorem Chip.withdrawRanges_hbm (c : Chip) (size : Nat) (l : List Nat) : (c.withdrawRanges size l).mem.hbm = c.mem.hbm := by
  unfold Chip.withdrawRanges
  repeat' first | (simp; done) | (dsimp only; split) | split | (rw [foldl_hbm] <;> intros) | (have hk := congrArg (fun r => r.1.mem.hbm) ‹_ = (_, _)›; simp_all; done) | (simp_all; done)

@[simp] theorem Chip.withdraw_hbm (c : Chip)  : (c.withdraw).mem.hbm = c.mem.hbm := by
  unfold Chip.withdraw
  repeat' first | (simp; done) | (dsimp only; split) | split | (rw [foldl_hbm] <;> intros) | (have hk := congrArg (fun r => r.1.mem.hbm) ‹_ = (_, _)›; simp_all; done) | (simp_all; done)

@[simp] theorem Chip.resize_hbm (c : Chip) (size : Nat) : (c.resize size).mem.hbm = c.mem.hbm := by
  unfold Chip.resize
  repeat' first | (simp; done) | (dsimp only; split) | split | (rw [foldl_hbm] <;> intros) | (have hk := congrArg (fun r => r.1.mem.hbm) ‹_ = (_, _)›; simp_all; done) | (simp_all; done)

@[simp] theorem Chip.migrate_hbm (c : Chip) (g : Nat) : (c.migrate g).mem.hbm = c.mem.hbm := by
  unfold Chip.migrate Chip.moveOut Chip.shrink
  rw [Chip.giveNewPlaces_hbm, Chip.resize_hbm, Chip.updGroup_hbm]

@[simp] theorem Chip.beginRetire_hbm (c : Chip) (g : Nat) : (c.beginRetire g).mem.hbm = c.mem.hbm := by
  unfold Chip.beginRetire
  split
  · rfl
  · rw [Chip.setCond_hbm, Chip.withdraw_hbm, Chip.migrate_hbm]

@[simp] theorem Chip.retireGroup_hbm (c : Chip) (g : Nat) : (c.retireGroup g).1.mem.hbm = c.mem.hbm := by
  unfold Chip.retireGroup
  repeat' first | (simp; done) | (dsimp only; split) | split | (rw [foldl_hbm] <;> intros) | (have hk := congrArg (fun r => r.1.mem.hbm) ‹_ = (_, _)›; simp_all; done) | (simp_all; done)

@[simp] theorem Chip.groupFails_hbm (c : Chip) (g : Nat) : (c.groupFails g).mem.hbm = c.mem.hbm := by
  unfold Chip.groupFails
  repeat' first | (simp; done) | (dsimp only; split) | split | (rw [foldl_hbm] <;> intros) | (have hk := congrArg (fun r => r.1.mem.hbm) ‹_ = (_, _)›; simp_all; done) | (simp_all; done)

@[simp] theorem Chip.retirementComplete_hbm (c : Chip) (g : Nat) (poisoned : List Nat) : (c.retirementComplete g poisoned).mem.hbm = c.mem.hbm := by
  unfold Chip.retirementComplete
  repeat' first | (simp; done) | (dsimp only; split) | split | (rw [foldl_hbm] <;> intros) | (have hk := congrArg (fun r => r.1.mem.hbm) ‹_ = (_, _)›; simp_all; done) | (simp_all; done)

@[simp] theorem Chip.autoRetire_hbm (c : Chip) (g : Nat) : (c.autoRetire g).mem.hbm = c.mem.hbm := by
  unfold Chip.autoRetire
  repeat' first | (simp; done) | (dsimp only; split) | split | (rw [foldl_hbm] <;> intros) | (have hk := congrArg (fun r => r.1.mem.hbm) ‹_ = (_, _)›; simp_all; done) | (simp_all; done)

@[simp] theorem Chip.retireRuleChanged_hbm (c : Chip) (old : Chip) : (c.retireRuleChanged old).mem.hbm = c.mem.hbm := by
  unfold Chip.retireRuleChanged
  repeat' first | (simp; done) | (dsimp only; split) | split | (rw [foldl_hbm] <;> intros) | (have hk := congrArg (fun r => r.1.mem.hbm) ‹_ = (_, _)›; simp_all; done) | (simp_all; done)

@[simp] theorem Chip.correctedError_hbm (c : Chip) (g a : Nat) : (c.correctedError g a).mem.hbm = c.mem.hbm := by
  unfold Chip.correctedError
  repeat' first | (simp; done) | (dsimp only; split) | split | (rw [foldl_hbm] <;> intros) | (have hk := congrArg (fun r => r.1.mem.hbm) ‹_ = (_, _)›; simp_all; done) | (simp_all; done)

@[simp] theorem Chip.uncorrectableWord_hbm (c : Chip) (g a : Nat) : (c.uncorrectableWord g a).mem.hbm = c.mem.hbm := by
  unfold Chip.uncorrectableWord
  repeat' first | (simp; done) | (dsimp only; split) | split | (rw [foldl_hbm] <;> intros) | (have hk := congrArg (fun r => r.1.mem.hbm) ‹_ = (_, _)›; simp_all; done) | (simp_all; done)

@[simp] theorem Chip.patrolScrub_hbm (c : Chip) (g a : Nat) (o : ScrubOutcome) : (c.patrolScrub g a o).mem.hbm = c.mem.hbm := by
  unfold Chip.patrolScrub
  repeat' first | (simp; done) | (dsimp only; split) | split | (rw [foldl_hbm] <;> intros) | (have hk := congrArg (fun r => r.1.mem.hbm) ‹_ = (_, _)›; simp_all; done) | (simp_all; done)

@[simp] theorem Chip.exportChanged_hbm (c : Chip) (old : Chip) : (c.exportChanged old).mem.hbm = c.mem.hbm := by
  unfold Chip.exportChanged
  repeat' first | (simp; done) | (dsimp only; split) | split | (rw [foldl_hbm] <;> intros) | (have hk := congrArg (fun r => r.1.mem.hbm) ‹_ = (_, _)›; simp_all; done) | (simp_all; done)

@[simp] theorem Chip.cxlRead_hbm (c : Chip) (h d : Nat) : (c.cxlRead h d).mem.hbm = c.mem.hbm := by
  unfold Chip.cxlRead
  repeat' first | (simp; done) | (dsimp only; split) | split | (rw [foldl_hbm] <;> intros) | (have hk := congrArg (fun r => r.1.mem.hbm) ‹_ = (_, _)›; simp_all; done) | (simp_all; done)

@[simp] theorem Chip.takePosted_hbm (c : Chip) (r : Posted) : (c.takePosted r).mem.hbm = c.mem.hbm := by
  unfold Chip.takePosted
  repeat' first | (simp; done) | (dsimp only; split) | split | (rw [foldl_hbm] <;> intros) | (have hk := congrArg (fun r => r.1.mem.hbm) ‹_ = (_, _)›; simp_all; done) | (simp_all; done)

@[simp] theorem Chip.takeUnexp_hbm (c : Chip) (k : Nat) (m : BitVec 32) : (c.takeUnexp k m).mem.hbm = c.mem.hbm := by
  unfold Chip.takeUnexp
  repeat' first | (simp; done) | (dsimp only; split) | split | (rw [foldl_hbm] <;> intros) | (have hk := congrArg (fun r => r.1.mem.hbm) ‹_ = (_, _)›; simp_all; done) | (simp_all; done)

@[simp] theorem Chip.updCopies_hbm (c : Chip) (k : Nat) (m : BitVec 32) (f : EagerCopy → EagerCopy) : (c.updCopies k m f).mem.hbm = c.mem.hbm := by
  unfold Chip.updCopies
  repeat' first | (simp; done) | (dsimp only; split) | split | (rw [foldl_hbm] <;> intros) | (have hk := congrArg (fun r => r.1.mem.hbm) ‹_ = (_, _)›; simp_all; done) | (simp_all; done)

@[simp] theorem Chip.putMsg_hbm (c : Chip) (k : Nat) (r : RxMsg) : (c.putMsg k r).mem.hbm = c.mem.hbm := by
  unfold Chip.putMsg
  repeat' first | (simp; done) | (dsimp only; split) | split | (rw [foldl_hbm] <;> intros) | (have hk := congrArg (fun r => r.1.mem.hbm) ‹_ = (_, _)›; simp_all; done) | (simp_all; done)

@[simp] theorem Chip.updMsg_hbm (c : Chip) (k : Nat) (m : BitVec 32) (f : RxMsg → RxMsg) : (c.updMsg k m f).mem.hbm = c.mem.hbm := by
  unfold Chip.updMsg
  repeat' first | (simp; done) | (dsimp only; split) | split | (rw [foldl_hbm] <;> intros) | (have hk := congrArg (fun r => r.1.mem.hbm) ‹_ = (_, _)›; simp_all; done) | (simp_all; done)

@[simp] theorem Chip.completeRecv_hbm (c : Chip) (h qn : Nat) (ctx : Option Nat) (status : Nat) (p : Completion) : (c.completeRecv h qn ctx status p).mem.hbm = c.mem.hbm := by
  unfold Chip.completeRecv
  repeat' first | (simp; done) | (dsimp only; split) | split | (rw [foldl_hbm] <;> intros) | (have hk := congrArg (fun r => r.1.mem.hbm) ‹_ = (_, _)›; simp_all; done) | (simp_all; done)

@[simp] theorem Chip.sendClose_hbm (c : Chip) (k fn id offset : Nat) (key : BitVec 32) : (c.sendClose k fn id offset key).mem.hbm = c.mem.hbm := by
  unfold Chip.sendClose
  repeat' first | (simp; done) | (dsimp only; split) | split | (rw [foldl_hbm] <;> intros) | (have hk := congrArg (fun r => r.1.mem.hbm) ‹_ = (_, _)›; simp_all; done) | (simp_all; done)

@[simp] theorem Chip.endTOffer_hbm (c : Chip) (t : TOffer) (status len : Nat) : (c.endTOffer t status len).mem.hbm = c.mem.hbm := by
  unfold Chip.endTOffer
  repeat' first | (simp; done) | (dsimp only; split) | split | (rw [foldl_hbm] <;> intros) | (have hk := congrArg (fun r => r.1.mem.hbm) ‹_ = (_, _)›; simp_all; done) | (simp_all; done)

@[simp] theorem Chip.closeTOffer_hbm (c : Chip) (t : TOffer) : (c.closeTOffer t).mem.hbm = c.mem.hbm := by
  unfold Chip.closeTOffer
  repeat' first | (simp; done) | (dsimp only; split) | split | (rw [foldl_hbm] <;> intros) | (have hk := congrArg (fun r => r.1.mem.hbm) ‹_ = (_, _)›; simp_all; done) | (simp_all; done)

@[simp] theorem Chip.readTOffer_hbm (c : Chip) (t : TOffer) : (c.readTOffer t).mem.hbm = c.mem.hbm := by
  unfold Chip.readTOffer
  repeat' first | (simp; done) | (dsimp only; split) | split | (rw [foldl_hbm] <;> intros) | (have hk := congrArg (fun r => r.1.mem.hbm) ‹_ = (_, _)›; simp_all; done) | (simp_all; done)

@[simp] theorem Chip.beginTOffer_hbm (c : Chip) (t : TOffer) : (c.beginTOffer t).mem.hbm = c.mem.hbm := by
  unfold Chip.beginTOffer
  repeat' first | (simp; done) | (dsimp only; split) | split | (rw [foldl_hbm] <;> intros) | (have hk := congrArg (fun r => r.1.mem.hbm) ‹_ = (_, _)›; simp_all; done) | (simp_all; done)

@[simp] theorem Chip.deliverStored_hbm (c : Chip) (u : Unexp) (qn : Nat) (e : Entry) : (c.deliverStored u qn e).mem.hbm = c.mem.hbm := by
  unfold Chip.deliverStored
  repeat' first | (simp; done) | (dsimp only; split) | split | (rw [foldl_hbm] <;> intros) | (have hk := congrArg (fun r => r.1.mem.hbm) ‹_ = (_, _)›; simp_all; done) | (simp_all; done)

@[simp] theorem Chip.releaseMsg_hbm (c : Chip) (u : Unexp) : (c.releaseMsg u).mem.hbm = c.mem.hbm := by
  unfold Chip.releaseMsg
  repeat' first | (simp; done) | (dsimp only; split) | split | (rw [foldl_hbm] <;> intros) | (have hk := congrArg (fun r => r.1.mem.hbm) ‹_ = (_, _)›; simp_all; done) | (simp_all; done)

@[simp] theorem Chip.advanceQ_hbm (c : Chip) (k : Nat) (z0 : Nat) : (c.advanceQ k z0).mem.hbm = c.mem.hbm := by
  induction z0 generalizing c k <;> unfold Chip.advanceQ <;> repeat' first | (simp; done) | (dsimp only; split) | split | (rw [foldl_hbm] <;> intros) | (have hk := congrArg (fun r => r.1.mem.hbm) ‹_ = (_, _)›; simp_all; done) | (simp_all; done)

@[simp] theorem Chip.resolveMsg_hbm (c : Chip) (k : Nat) (m : BitVec 32) : (c.resolveMsg k m).mem.hbm = c.mem.hbm := by
  unfold Chip.resolveMsg
  repeat' first | (simp; done) | (dsimp only; split) | split | (rw [foldl_hbm] <;> intros) | (have hk := congrArg (fun r => r.1.mem.hbm) ‹_ = (_, _)›; simp_all; done) | (simp_all; done)

@[simp] theorem Chip.postTagged_hbm (c : Chip) (ctx : Nat) (m : MCtx) (e : Entry) : (c.postTagged ctx m e).mem.hbm = c.mem.hbm := by
  unfold Chip.postTagged
  repeat' first | (simp; done) | (dsimp only; split) | split | (rw [foldl_hbm] <;> intros) | (have hk := congrArg (fun r => r.1.mem.hbm) ‹_ = (_, _)›; simp_all; done) | (simp_all; done)

@[simp] theorem Chip.engineRecv_hbm (c : Chip) (h qn : Nat) (e : Entry) : (c.engineRecv h qn e).mem.hbm = c.mem.hbm := by
  unfold Chip.engineRecv
  repeat' first | (simp; done) | (dsimp only; split) | split | (rw [foldl_hbm] <;> intros) | (have hk := congrArg (fun r => r.1.mem.hbm) ‹_ = (_, _)›; simp_all; done) | (simp_all; done)

@[simp] theorem Chip.matchReadDone_hbm (c : Chip) (ctx : Nat) : (c.matchReadDone ctx).mem.hbm = c.mem.hbm := by
  unfold Chip.matchReadDone
  repeat' first | (simp; done) | (dsimp only; split) | split | (rw [foldl_hbm] <;> intros) | (have hk := congrArg (fun r => r.1.mem.hbm) ‹_ = (_, _)›; simp_all; done) | (simp_all; done)

@[simp] theorem Chip.abandonRecord_hbm (c : Chip) (k : Nat) (m : BitVec 32) : (c.abandonRecord k m).mem.hbm = c.mem.hbm := by
  unfold Chip.abandonRecord
  repeat' first | (simp; done) | (dsimp only; split) | split | (rw [foldl_hbm] <;> intros) | (have hk := congrArg (fun r => r.1.mem.hbm) ‹_ = (_, _)›; simp_all; done) | (simp_all; done)

@[simp] theorem Chip.discardUnexp_hbm (c : Chip) (u : Unexp) : (c.discardUnexp u).mem.hbm = c.mem.hbm := by
  unfold Chip.discardUnexp
  repeat' first | (simp; done) | (dsimp only; split) | split | (rw [foldl_hbm] <;> intros) | (have hk := congrArg (fun r => r.1.mem.hbm) ‹_ = (_, _)›; simp_all; done) | (simp_all; done)

@[simp] theorem Chip.unbind_hbm (c : Chip) (ctx : Nat) : (c.unbind ctx).mem.hbm = c.mem.hbm := by
  unfold Chip.unbind
  repeat' first | (simp; done) | (dsimp only; split) | split | (rw [foldl_hbm] <;> intros) | (have hk := congrArg (fun r => r.1.mem.hbm) ‹_ = (_, _)›; simp_all; done) | (simp_all; done)

@[simp] theorem Chip.matchLost_hbm (c : Chip) (ctx : Nat) : (c.matchLost ctx).mem.hbm = c.mem.hbm := by
  unfold Chip.matchLost
  repeat' first | (simp; done) | (dsimp only; split) | split | (rw [foldl_hbm] <;> intros) | (have hk := congrArg (fun r => r.1.mem.hbm) ‹_ = (_, _)›; simp_all; done) | (simp_all; done)

@[simp] theorem Chip.unbindQueue_hbm (c : Chip) (h qn : Nat) : (c.unbindQueue h qn).mem.hbm = c.mem.hbm := by
  unfold Chip.unbindQueue
  repeat' first | (simp; done) | (dsimp only; split) | split | (rw [foldl_hbm] <;> intros) | (have hk := congrArg (fun r => r.1.mem.hbm) ‹_ = (_, _)›; simp_all; done) | (simp_all; done)

@[simp] theorem Chip.keepMessages_hbm (c : Chip) (k : Nat) : (c.keepMessages k).mem.hbm = c.mem.hbm := by
  unfold Chip.keepMessages
  repeat' first | (simp; done) | (dsimp only; split) | split | (rw [foldl_hbm] <;> intros) | (have hk := congrArg (fun r => r.1.mem.hbm) ‹_ = (_, _)›; simp_all; done) | (simp_all; done)

@[simp] theorem Chip.syncMortise_hbm (c : Chip) (k : Nat) (m : BitVec 32) : (c.syncMortise k m).mem.hbm = c.mem.hbm := by
  unfold Chip.syncMortise
  repeat' first | (simp; done) | (dsimp only; split) | split | (rw [foldl_hbm] <;> intros) | (have hk := congrArg (fun r => r.1.mem.hbm) ‹_ = (_, _)›; simp_all; done) | (simp_all; done)

@[simp] theorem Chip.abandonMsg_hbm (c : Chip) (k : Nat) (r : RxMsg) : (c.abandonMsg k r).mem.hbm = c.mem.hbm := by
  unfold Chip.abandonMsg
  repeat' first | (simp; done) | (dsimp only; split) | split | (rw [foldl_hbm] <;> intros) | (have hk := congrArg (fun r => r.1.mem.hbm) ‹_ = (_, _)›; simp_all; done) | (simp_all; done)

@[simp] theorem Chip.bindCtx_hbm (c : Chip) (fn qn mctx : Nat) : (c.bindCtx fn qn mctx).1.mem.hbm = c.mem.hbm := by
  unfold Chip.bindCtx
  repeat' first | (simp; done) | (dsimp only; split) | split | (rw [foldl_hbm] <;> intros) | (have hk := congrArg (fun r => r.1.mem.hbm) ‹_ = (_, _)›; simp_all; done) | (simp_all; done)

@[simp] theorem Chip.unbindCtx_hbm (c : Chip) (fn qn mctx : Nat) : (c.unbindCtx fn qn mctx).1.mem.hbm = c.mem.hbm := by
  unfold Chip.unbindCtx
  repeat' first | (simp; done) | (dsimp only; split) | split | (rw [foldl_hbm] <;> intros) | (have hk := congrArg (fun r => r.1.mem.hbm) ‹_ = (_, _)›; simp_all; done) | (simp_all; done)

@[simp] theorem Chip.contextCommand_hbm (c : Chip) (fn : Nat) (v : Nat) : (c.contextCommand fn v).1.mem.hbm = c.mem.hbm := by
  unfold Chip.contextCommand
  repeat' first | (simp; done) | (dsimp only; split) | split | (rw [foldl_hbm] <;> intros) | (have hk := congrArg (fun r => r.1.mem.hbm) ‹_ = (_, _)›; simp_all; done) | (simp_all; done)

@[simp] theorem Chip.offerRecordFreed_hbm (c : Chip) (id : Nat) : (c.offerRecordFreed id).mem.hbm = c.mem.hbm := by
  unfold Chip.offerRecordFreed
  repeat' first | (simp; done) | (dsimp only; split) | split | (rw [foldl_hbm] <;> intros) | (have hk := congrArg (fun r => r.1.mem.hbm) ‹_ = (_, _)›; simp_all; done) | (simp_all; done)

@[simp] theorem Chip.answer_hbm (c : Chip) (h : Nat) (p : Packet) (opcode status : Nat) (w1 : Word) (payload : List Byte) : (c.answer h p opcode status w1 payload).mem.hbm = c.mem.hbm := by
  unfold Chip.answer
  repeat' first | (simp; done) | (dsimp only; split) | split | (rw [foldl_hbm] <;> intros) | (have hk := congrArg (fun r => r.1.mem.hbm) ‹_ = (_, _)›; simp_all; done) | (simp_all; done)

@[simp] theorem Chip.answerError_hbm (c : Chip) (h : Nat) (p : Packet) (status : Nat) : (c.answerError h p status).mem.hbm = c.mem.hbm := by
  unfold Chip.answerError
  repeat' first | (simp; done) | (dsimp only; split) | split | (rw [foldl_hbm] <;> intros) | (have hk := congrArg (fun r => r.1.mem.hbm) ‹_ = (_, _)›; simp_all; done) | (simp_all; done)

@[simp] theorem Chip.answerBusy_hbm (c : Chip) (h : Nat) (p : Packet) : (c.answerBusy h p).mem.hbm = c.mem.hbm := by
  unfold Chip.answerBusy
  repeat' first | (simp; done) | (dsimp only; split) | split | (rw [foldl_hbm] <;> intros) | (have hk := congrArg (fun r => r.1.mem.hbm) ‹_ = (_, _)›; simp_all; done) | (simp_all; done)

@[simp] theorem Chip.answerData_hbm (c : Chip) (h : Nat) (p : Packet) (l : List Byte) : (c.answerData h p l).mem.hbm = c.mem.hbm := by
  unfold Chip.answerData
  repeat' first | (simp; done) | (dsimp only; split) | split | (rw [foldl_hbm] <;> intros) | (have hk := congrArg (fun r => r.1.mem.hbm) ‹_ = (_, _)›; simp_all; done) | (simp_all; done)

@[simp] theorem Chip.answerAtomic_hbm (c : Chip) (h : Nat) (p : Packet) (wide : Bool) (v : BitVec 128) : (c.answerAtomic h p wide v).mem.hbm = c.mem.hbm := by
  unfold Chip.answerAtomic
  repeat' first | (simp; done) | (dsimp only; split) | split | (rw [foldl_hbm] <;> intros) | (have hk := congrArg (fun r => r.1.mem.hbm) ‹_ = (_, _)›; simp_all; done) | (simp_all; done)

@[simp] theorem Chip.sendAck_hbm (c : Chip) (k : Nat) (x : Chan) (j : Nat) : (c.sendAck k x j).mem.hbm = c.mem.hbm := by
  unfold Chip.sendAck
  repeat' first | (simp; done) | (dsimp only; split) | split | (rw [foldl_hbm] <;> intros) | (have hk := congrArg (fun r => r.1.mem.hbm) ‹_ = (_, _)›; simp_all; done) | (simp_all; done)

@[simp] theorem Chip.ackNow_hbm (c : Chip) (k : Nat) : (c.ackNow k).mem.hbm = c.mem.hbm := by
  unfold Chip.ackNow
  repeat' first | (simp; done) | (dsimp only; split) | split | (rw [foldl_hbm] <;> intros) | (have hk := congrArg (fun r => r.1.mem.hbm) ‹_ = (_, _)›; simp_all; done) | (simp_all; done)

@[simp] theorem Chip.refuseLater_hbm (c : Chip) (k : Nat) (r : RxMsg) : (c.refuseLater k r).1.mem.hbm = c.mem.hbm := by
  unfold Chip.refuseLater
  repeat' first | (simp; done) | (dsimp only; split) | split | (rw [foldl_hbm] <;> intros) | (have hk := congrArg (fun r => r.1.mem.hbm) ‹_ = (_, _)›; simp_all; done) | (simp_all; done)

@[simp] theorem Chip.hostAccess_hbm (c : Chip) (h fn i off n : Nat) (p : Packet) : (c.hostAccess h fn i off n p).1.mem.hbm = c.mem.hbm := by
  unfold Chip.hostAccess
  repeat' first | (simp; done) | (rename_i e; simp [pair_hbm e (Chip.translate_hbm ..)]; done) | (rename_i e _; simp [pair_hbm e (Chip.translate_hbm ..)]; done) | (rename_i e _ _; simp [pair_hbm e (Chip.translate_hbm ..)]; done) | split | dsimp only

@[simp] theorem Chip.execRead_hbm (c : Chip) (h : Nat) (p : Packet) : (c.execRead h p).1.mem.hbm = c.mem.hbm := by
  unfold Chip.execRead
  repeat' first | (simp; done) | (dsimp only; split) | split | (rw [foldl_hbm] <;> intros) | (have hk := congrArg (fun r => r.1.mem.hbm) ‹_ = (_, _)›; simp_all; done) | (simp_all; done)

@[simp] theorem Chip.atomicDone_hbm (c : Chip) (h k fn : Nat) (p : Packet) (prior : BitVec 128) : (c.atomicDone h k fn p prior).mem.hbm = c.mem.hbm := by
  unfold Chip.atomicDone
  repeat' first | (simp; done) | (dsimp only; split) | split | (rw [foldl_hbm] <;> intros) | (have hk := congrArg (fun r => r.1.mem.hbm) ‹_ = (_, _)›; simp_all; done) | (simp_all; done)

@[simp] theorem Chip.plainMsg_hbm (c : Chip) (k : Nat) (p : Packet) (status : Nat) : (c.plainMsg k p status).mem.hbm = c.mem.hbm := by
  unfold Chip.plainMsg
  repeat' first | (simp; done) | (dsimp only; split) | split | (rw [foldl_hbm] <;> intros) | (have hk := congrArg (fun r => r.1.mem.hbm) ‹_ = (_, _)›; simp_all; done) | (simp_all; done)

@[simp] theorem Chip.deliverMsg_hbm (c : Chip) (k : Nat) (r : RxMsg) : (c.deliverMsg k r).mem.hbm = c.mem.hbm := by
  unfold Chip.deliverMsg
  repeat' first | (simp; done) | (dsimp only; split) | split | (rw [foldl_hbm] <;> intros) | (have hk := congrArg (fun r => r.1.mem.hbm) ‹_ = (_, _)›; simp_all; done) | (simp_all; done)

@[simp] theorem Chip.deliverMsgs_hbm (c : Chip) (k : Nat) (z0 : Nat) : (c.deliverMsgs k z0).mem.hbm = c.mem.hbm := by
  induction z0 generalizing c k <;> unfold Chip.deliverMsgs <;> repeat' first | (simp; done) | (dsimp only; split) | split | (rw [foldl_hbm] <;> intros) | (have hk := congrArg (fun r => r.1.mem.hbm) ‹_ = (_, _)›; simp_all; done) | (simp_all; done)

@[simp] theorem Chip.countAccepted_hbm (c : Chip) (owners : List Nat) (n : Nat) : (c.countAccepted owners n).mem.hbm = c.mem.hbm := by
  unfold Chip.countAccepted
  repeat' first | (simp; done) | (dsimp only; split) | split | (rw [foldl_hbm] <;> intros) | (have hk := congrArg (fun r => r.1.mem.hbm) ‹_ = (_, _)›; simp_all; done) | (simp_all; done)

@[simp] theorem Chip.wholeCopies_hbm (c : Chip) (k : Nat) (m : BitVec 32) : (c.wholeCopies k m).mem.hbm = c.mem.hbm := by
  unfold Chip.wholeCopies
  repeat' first | (simp; done) | (dsimp only; split) | split | (rw [foldl_hbm] <;> intros) | (have hk := congrArg (fun r => r.1.mem.hbm) ‹_ = (_, _)›; simp_all; done) | (simp_all; done)

@[simp] theorem Chip.duplicate_hbm (c : Chip) (h k : Nat) (p : Packet) : (c.duplicate h k p).mem.hbm = c.mem.hbm := by
  unfold Chip.duplicate
  dsimp only
  split
  · split
    · simp
    · split <;> rename_i e <;> have h := pair_hbm e (Chip.execRead_hbm ..) <;> simp at h <;> simp [h]
  · repeat' first | (simp; done) | split

@[simp] theorem Chip.takeSync_hbm (c : Chip) (k : Nat) (x : Chan) (p : Packet) : (c.takeSync k x p).mem.hbm = c.mem.hbm := by
  unfold Chip.takeSync
  simp only [Chip.ackNow_hbm, Chip.updChan_hbm, Chip.syncMortise_hbm]
  rw [foldl_hbm]
  intros; split <;> simp

@[simp] theorem Chip.park_hbm (c : Chip) (h : Nat) (ctx : CtxKey) (p : Packet) : (c.park h ctx p).mem.hbm = c.mem.hbm := by
  unfold Chip.park
  repeat' first | (simp; done) | (dsimp only; split) | split | (rw [foldl_hbm] <;> intros) | (have hk := congrArg (fun r => r.1.mem.hbm) ‹_ = (_, _)›; simp_all; done) | (simp_all; done)

@[simp] theorem Chip.useContexts_hbm (c : Chip) (h k : Nat) (p : Packet) : (c.useContexts h k p).mem.hbm = c.mem.hbm := by
  unfold Chip.useContexts
  repeat' first | (simp; done) | (dsimp only; split) | split | (rw [foldl_hbm] <;> intros) | (have hk := congrArg (fun r => r.1.mem.hbm) ‹_ = (_, _)›; simp_all; done) | (simp_all; done)

@[simp] theorem Chip.taken_hbm (c : Chip) (p : Packet) : (c.taken p).mem.hbm = c.mem.hbm := by
  unfold Chip.taken
  repeat' first | (simp; done) | (dsimp only; split) | split | (rw [foldl_hbm] <;> intros) | (have hk := congrArg (fun r => r.1.mem.hbm) ‹_ = (_, _)›; simp_all; done) | (simp_all; done)

@[simp] theorem Chip.refuseParked_hbm (c : Chip) (ctx : CtxKey) : (c.refuseParked ctx).mem.hbm = c.mem.hbm := by
  unfold Chip.refuseParked
  repeat' first | (simp; done) | (dsimp only; split) | split | (rw [foldl_hbm] <;> intros) | (have hk := congrArg (fun r => r.1.mem.hbm) ‹_ = (_, _)›; simp_all; done) | (simp_all; done)

@[simp] theorem Chip.contextLost_hbm (c : Chip) (h qn : Nat) : (c.contextLost h qn).mem.hbm = c.mem.hbm := by
  unfold Chip.contextLost
  repeat' first | (simp; done) | (dsimp only; split) | split | (rw [foldl_hbm] <;> intros) | (have hk := congrArg (fun r => r.1.mem.hbm) ‹_ = (_, _)›; simp_all; done) | (simp_all; done)

@[simp] theorem Chip.contextTimeout_hbm (c : Chip) (h qn : Nat) : (c.contextTimeout h qn).mem.hbm = c.mem.hbm := by
  unfold Chip.contextTimeout
  repeat' first | (simp; done) | (dsimp only; split) | split | (rw [foldl_hbm] <;> intros) | (have hk := congrArg (fun r => r.1.mem.hbm) ‹_ = (_, _)›; simp_all; done) | (simp_all; done)

@[simp] theorem Chip.hostReadEnded_hbm (c : Chip) (id : Nat) (res : HostResult) : (c.hostReadEnded id res).mem.hbm = c.mem.hbm := by
  unfold Chip.hostReadEnded
  repeat' first | (simp; done) | (dsimp only; split) | split | (rw [foldl_hbm] <;> intros) | (have hk := congrArg (fun r => r.1.mem.hbm) ‹_ = (_, _)›; simp_all; done) | (simp_all; done)

@[simp] theorem Chip.badResponse_hbm (c : Chip)  : (c.badResponse).mem.hbm = c.mem.hbm := by
  unfold Chip.badResponse
  repeat' first | (simp; done) | (dsimp only; split) | split | (rw [foldl_hbm] <;> intros) | (have hk := congrArg (fun r => r.1.mem.hbm) ‹_ = (_, _)›; simp_all; done) | (simp_all; done)

@[simp] theorem Chip.updOut_hbm (c : Chip) (k : Nat) (psn : BitVec 24) (f : OutPkt → OutPkt) : (c.updOut k psn f).mem.hbm = c.mem.hbm := by
  unfold Chip.updOut
  repeat' first | (simp; done) | (dsimp only; split) | split | (rw [foldl_hbm] <;> intros) | (have hk := congrArg (fun r => r.1.mem.hbm) ‹_ = (_, _)›; simp_all; done) | (simp_all; done)

@[simp] theorem Chip.decideOp_hbm (c : Chip) (k : Nat) (m : BitVec 32) (status : Nat) : (c.decideOp k m status).mem.hbm = c.mem.hbm := by
  unfold Chip.decideOp
  repeat' first | (simp; done) | (dsimp only; split) | split | (rw [foldl_hbm] <;> intros) | (have hk := congrArg (fun r => r.1.mem.hbm) ‹_ = (_, _)›; simp_all; done) | (simp_all; done)

@[simp] theorem Chip.updOp_hbm (c : Chip) (k : Nat) (m : BitVec 32) (f : SendOp → SendOp) : (c.updOp k m f).mem.hbm = c.mem.hbm := by
  unfold Chip.updOp
  repeat' first | (simp; done) | (dsimp only; split) | split | (rw [foldl_hbm] <;> intros) | (have hk := congrArg (fun r => r.1.mem.hbm) ‹_ = (_, _)›; simp_all; done) | (simp_all; done)

@[simp] theorem Chip.hearResponse_hbm (c : Chip) (p : Packet) : (c.hearResponse p).mem.hbm = c.mem.hbm := by
  unfold Chip.hearResponse
  repeat' first | (simp; done) | (dsimp only; split) | split | (rw [foldl_hbm] <;> intros) | (have hk := congrArg (fun r => r.1.mem.hbm) ‹_ = (_, _)›; simp_all; done) | (simp_all; done)

@[simp] theorem Chip.takeResponse_hbm (c : Chip) (h : Nat) (p : Packet) (f : Chip → Nat → Chan → Chip) (hf : ∀ c k x, (f c k x).mem.hbm = c.mem.hbm) : (c.takeResponse h p f).mem.hbm = c.mem.hbm := by
  unfold Chip.takeResponse
  repeat' first | (simp; done) | (dsimp only; split) | split | (rw [foldl_hbm] <;> intros) | (have hk := congrArg (fun r => r.1.mem.hbm) ‹_ = (_, _)›; simp_all; done) | (simp_all; done)

@[simp] theorem Chip.takeAck_hbm (c : Chip) (h : Nat) (p : Packet) : (c.takeAck h p).mem.hbm = c.mem.hbm := by
  unfold Chip.takeAck
  apply Chip.takeResponse_hbm
  intros; repeat' first | (simp; done) | (dsimp only; split) | split

@[simp] theorem Chip.takeBusy_hbm (c : Chip) (h : Nat) (p : Packet) : (c.takeBusy h p).mem.hbm = c.mem.hbm := by
  unfold Chip.takeBusy
  apply Chip.takeResponse_hbm
  intros; repeat' first | (simp; done) | (dsimp only; split) | split

@[simp] theorem Chip.takeError_hbm (c : Chip) (h : Nat) (p : Packet) : (c.takeError h p).mem.hbm = c.mem.hbm := by
  unfold Chip.takeError
  apply Chip.takeResponse_hbm
  intros; repeat' first | (simp; done) | (dsimp only; split) | split

@[simp] theorem Chip.takeAtomicResult_hbm (c : Chip) (h : Nat) (p : Packet) : (c.takeAtomicResult h p).mem.hbm = c.mem.hbm := by
  unfold Chip.takeAtomicResult
  apply Chip.takeResponse_hbm
  intros; repeat' first | (simp; done) | (dsimp only; split) | split

@[simp] theorem Chip.sendAgain_hbm (c : Chip) (ch : Nat) (x : Chan) (o : OutPkt) (n : Nat) : (c.sendAgain ch x o n).mem.hbm = c.mem.hbm := by
  unfold Chip.sendAgain
  repeat' first | (simp; done) | (dsimp only; split) | split | (rw [foldl_hbm] <;> intros) | (have hk := congrArg (fun r => r.1.mem.hbm) ‹_ = (_, _)›; simp_all; done) | (simp_all; done)

@[simp] theorem Chip.retransmitTimeout_hbm (c : Chip) (ch : Nat) (psn : BitVec 24) : (c.retransmitTimeout ch psn).mem.hbm = c.mem.hbm := by
  unfold Chip.retransmitTimeout
  repeat' first | (simp; done) | (dsimp only; split) | split | (rw [foldl_hbm] <;> intros) | (have hk := congrArg (fun r => r.1.mem.hbm) ‹_ = (_, _)›; simp_all; done) | (simp_all; done)

@[simp] theorem Chip.busyResend_hbm (c : Chip) (ch : Nat) (psn : BitVec 24) : (c.busyResend ch psn).mem.hbm = c.mem.hbm := by
  unfold Chip.busyResend
  repeat' first | (simp; done) | (dsimp only; split) | split | (rw [foldl_hbm] <;> intros) | (have hk := congrArg (fun r => r.1.mem.hbm) ‹_ = (_, _)›; simp_all; done) | (simp_all; done)

@[simp] theorem Chip.ackDelay_hbm (c : Chip) (ch : Nat) : (c.ackDelay ch).mem.hbm = c.mem.hbm := by
  unfold Chip.ackDelay
  repeat' first | (simp; done) | (dsimp only; split) | split | (rw [foldl_hbm] <;> intros) | (have hk := congrArg (fun r => r.1.mem.hbm) ‹_ = (_, _)›; simp_all; done) | (simp_all; done)

@[simp] theorem Chip.errorExpiry_hbm (c : Chip) (ch : Nat) : (c.errorExpiry ch).mem.hbm = c.mem.hbm := by
  unfold Chip.errorExpiry
  repeat' first | (simp; done) | (dsimp only; split) | split | (rw [foldl_hbm] <;> intros) | (have hk := congrArg (fun r => r.1.mem.hbm) ‹_ = (_, _)›; simp_all; done) | (simp_all; done)

@[simp] theorem Chip.atomicBlockReturn_hbm (c : Chip) (ch : Nat) : (c.atomicBlockReturn ch).mem.hbm = c.mem.hbm := by
  unfold Chip.atomicBlockReturn
  repeat' first | (simp; done) | (dsimp only; split) | split | (rw [foldl_hbm] <;> intros) | (have hk := congrArg (fun r => r.1.mem.hbm) ‹_ = (_, _)›; simp_all; done) | (simp_all; done)

@[simp] theorem Chip.conReturns_hbm (c : Chip)  : (c.conReturns).mem.hbm = c.mem.hbm := by
  unfold Chip.conReturns
  repeat' first | (simp; done) | (dsimp only; split) | split | (rw [foldl_hbm] <;> intros) | (have hk := congrArg (fun r => r.1.mem.hbm) ‹_ = (_, _)›; simp_all; done) | (simp_all; done)

@[simp] theorem Chip.sourceOf_hbm (c : Chip) (fn : Nat) (e : Entry) (data : SourceData) : (c.sourceOf fn e data).1.mem.hbm = c.mem.hbm := by
  unfold Chip.sourceOf
  repeat' first | (simp; done) | (dsimp only; split) | split | (rw [foldl_hbm] <;> intros) | (have hk := congrArg (fun r => r.1.mem.hbm) ‹_ = (_, _)›; simp_all; done) | (simp_all; done)

@[simp] theorem Chip.succeed_hbm (c : Chip) (h : Nat) (o : SendOp) : (c.succeed h o).mem.hbm = c.mem.hbm := by
  unfold Chip.succeed
  repeat' first | (simp; done) | (dsimp only; split) | split | (rw [foldl_hbm] <;> intros) | (have hk := congrArg (fun r => r.1.mem.hbm) ‹_ = (_, _)›; simp_all; done) | (simp_all; done)

@[simp] theorem Chip.startOffer_hbm (c : Chip) (h : Nat) (q : Queue) (o : SendOp) (e : Entry) (off : Nat) : (c.startOffer h q o e off).mem.hbm = c.mem.hbm := by
  unfold Chip.startOffer
  repeat' first | (simp; done) | (dsimp only; split) | split | (rw [foldl_hbm] <;> intros) | (have hk := congrArg (fun r => r.1.mem.hbm) ‹_ = (_, _)›; simp_all; done) | (simp_all; done)

@[simp] theorem Chip.startEntry_hbm (c : Chip) (h qn pos : Nat) (q : Queue) (e : Entry) (data : SourceData) : (c.startEntry h qn pos q e data).mem.hbm = c.mem.hbm := by
  unfold Chip.startEntry
  dsimp only
  repeat' first | (simp; done) | (rename_i e; have h := pair_hbm e (Chip.sourceOf_hbm ..); simp [h]; done) | split

@[simp] theorem Chip.takeNative_hbm (c : Chip) (h qn op : Nat) (e : Entry) (data : SourceData) : (c.takeNative h qn op e data).mem.hbm = c.mem.hbm := by
  unfold Chip.takeNative
  repeat' first | (simp; done) | (dsimp only; split) | split | (rw [foldl_hbm] <;> intros) | (have hk := congrArg (fun r => r.1.mem.hbm) ‹_ = (_, _)›; simp_all; done) | (simp_all; done)

@[simp] theorem Chip.consumeVeneer_hbm (c : Chip) (h qn : Nat) (q : Queue) (v : VEntry) : (c.consumeVeneer h qn q v).mem.hbm = c.mem.hbm := by
  unfold Chip.consumeVeneer
  repeat' first | (simp; done) | (dsimp only; split) | split | (rw [foldl_hbm] <;> intros) | (have hk := congrArg (fun r => r.1.mem.hbm) ‹_ = (_, _)›; simp_all; done) | (simp_all; done)

@[simp] theorem Chip.takeVeneer_hbm (c : Chip) (h qn op : Nat) (v : VEntry) (data : SourceData) : (c.takeVeneer h qn op v data).mem.hbm = c.mem.hbm := by
  unfold Chip.takeVeneer
  repeat' first | (simp; done) | (dsimp only; split) | split | (rw [foldl_hbm] <;> intros) | (have hk := congrArg (fun r => r.1.mem.hbm) ‹_ = (_, _)›; simp_all; done) | (simp_all; done)

@[simp] theorem Chip.takeRecvEntry_hbm (c : Chip) (h qn : Nat) (e : Entry) : (c.takeRecvEntry h qn e).mem.hbm = c.mem.hbm := by
  unfold Chip.takeRecvEntry
  repeat' first | (simp; done) | (dsimp only; split) | split | (rw [foldl_hbm] <;> intros) | (have hk := congrArg (fun r => r.1.mem.hbm) ‹_ = (_, _)›; simp_all; done) | (simp_all; done)

@[simp] theorem Chip.takeTaggedRecv_hbm (c : Chip) (h qn : Nat) (e : Entry) (deferred : Bool) : (c.takeTaggedRecv h qn e deferred).mem.hbm = c.mem.hbm := by
  unfold Chip.takeTaggedRecv
  repeat' first | (simp; done) | (dsimp only; split) | split | (rw [foldl_hbm] <;> intros) | (have hk := congrArg (fun r => r.1.mem.hbm) ‹_ = (_, _)›; simp_all; done) | (simp_all; done)

@[simp] theorem Chip.takeMalformedEntry_hbm (c : Chip) (h qn : Nat) (e : Entry) : (c.takeMalformedEntry h qn e).mem.hbm = c.mem.hbm := by
  unfold Chip.takeMalformedEntry
  repeat' first | (simp; done) | (dsimp only; split) | split | (rw [foldl_hbm] <;> intros) | (have hk := congrArg (fun r => r.1.mem.hbm) ‹_ = (_, _)›; simp_all; done) | (simp_all; done)

@[simp] theorem Chip.takeHeld_hbm (c : Chip) (h qn : Nat) (e : Entry) : (c.takeHeld h qn e).mem.hbm = c.mem.hbm := by
  unfold Chip.takeHeld
  repeat' first | (simp; done) | (dsimp only; split) | split | (rw [foldl_hbm] <;> intros) | (have hk := congrArg (fun r => r.1.mem.hbm) ‹_ = (_, _)›; simp_all; done) | (simp_all; done)

@[simp] theorem Chip.unhold_hbm (c : Chip) (r : HeldEnt) : (c.unhold r).mem.hbm = c.mem.hbm := by
  unfold Chip.unhold
  repeat' first | (simp; done) | (dsimp only; split) | split | (rw [foldl_hbm] <;> intros) | (have hk := congrArg (fun r => r.1.mem.hbm) ‹_ = (_, _)›; simp_all; done) | (simp_all; done)

@[simp] theorem Chip.ctrAllocate_hbm (c : Chip) (fn n : Nat) : (c.ctrAllocate fn n).1.mem.hbm = c.mem.hbm := by
  unfold Chip.ctrAllocate
  repeat' first | (simp; done) | (dsimp only; split) | split | (rw [foldl_hbm] <;> intros) | (have hk := congrArg (fun r => r.1.mem.hbm) ‹_ = (_, _)›; simp_all; done) | (simp_all; done)

@[simp] theorem Chip.putCtr_hbm (c : Chip) (n : Nat) (t : TCtr) : (c.putCtr n t).mem.hbm = c.mem.hbm := by
  unfold Chip.putCtr
  repeat' first | (simp; done) | (dsimp only; split) | split | (rw [foldl_hbm] <;> intros) | (have hk := congrArg (fun r => r.1.mem.hbm) ‹_ = (_, _)›; simp_all; done) | (simp_all; done)

@[simp] theorem Chip.ctrFree_hbm (c : Chip) (fn n : Nat) : (c.ctrFree fn n).1.mem.hbm = c.mem.hbm := by
  unfold Chip.ctrFree
  repeat' first | (simp; done) | (dsimp only; split) | split | (rw [foldl_hbm] <;> intros) | (have hk := congrArg (fun r => r.1.mem.hbm) ‹_ = (_, _)›; simp_all; done) | (simp_all; done)

@[simp] theorem Chip.ctrConfigure_hbm (c : Chip) (fn n arg : Nat) : (c.ctrConfigure fn n arg).1.mem.hbm = c.mem.hbm := by
  unfold Chip.ctrConfigure
  repeat' first | (simp; done) | (dsimp only; split) | split | (rw [foldl_hbm] <;> intros) | (have hk := congrArg (fun r => r.1.mem.hbm) ‹_ = (_, _)›; simp_all; done) | (simp_all; done)

@[simp] theorem Chip.ctrSet_hbm (c : Chip) (fn n arg : Nat) : (c.ctrSet fn n arg).1.mem.hbm = c.mem.hbm := by
  unfold Chip.ctrSet
  repeat' first | (simp; done) | (dsimp only; split) | split | (rw [foldl_hbm] <;> intros) | (have hk := congrArg (fun r => r.1.mem.hbm) ‹_ = (_, _)›; simp_all; done) | (simp_all; done)

@[simp] theorem Chip.ctrAdd_hbm (c : Chip) (fn n arg : Nat) : (c.ctrAdd fn n arg).1.mem.hbm = c.mem.hbm := by
  unfold Chip.ctrAdd
  repeat' first | (simp; done) | (dsimp only; split) | split | (rw [foldl_hbm] <;> intros) | (have hk := congrArg (fun r => r.1.mem.hbm) ‹_ = (_, _)›; simp_all; done) | (simp_all; done)

@[simp] theorem Chip.ctrCommand_hbm (c : Chip) (fn v : Nat) : (c.ctrCommand fn v).1.mem.hbm = c.mem.hbm := by
  unfold Chip.ctrCommand
  repeat' first | (simp; done) | (dsimp only; split) | split | (rw [foldl_hbm] <;> intros) | (have hk := congrArg (fun r => r.1.mem.hbm) ‹_ = (_, _)›; simp_all; done) | (simp_all; done)

@[simp] theorem Chip.updColl_hbm (c : Chip) (m : Nat) (s : BitVec 32) (f : COp → COp) : (c.updColl m s f).mem.hbm = c.mem.hbm := by
  unfold Chip.updColl
  repeat' first | (simp; done) | (dsimp only; split) | split | (rw [foldl_hbm] <;> intros) | (have hk := congrArg (fun r => r.1.mem.hbm) ‹_ = (_, _)›; simp_all; done) | (simp_all; done)

@[simp] theorem Chip.openColl_hbm (c : Chip) (m : Nat) (s : BitVec 32) (z0 : Nat) : (c.openColl m s z0).mem.hbm = c.mem.hbm := by
  induction z0 generalizing c m s <;> unfold Chip.openColl <;> repeat' first | (simp; done) | (dsimp only; split) | split | (rw [foldl_hbm] <;> intros) | (have hk := congrArg (fun r => r.1.mem.hbm) ‹_ = (_, _)›; simp_all; done) | (simp_all; done)

@[simp] theorem Chip.beginColl_hbm (c : Chip) (m : Nat) (s : BitVec 32) : (c.beginColl m s).mem.hbm = c.mem.hbm := by
  unfold Chip.beginColl
  repeat' first | (simp; done) | (dsimp only; split) | split | (rw [foldl_hbm] <;> intros) | (have hk := congrArg (fun r => r.1.mem.hbm) ‹_ = (_, _)›; simp_all; done) | (simp_all; done)

@[simp] theorem Chip.sendTree_hbm (c : Chip) (port : Nat) (up : Bool) (o : COp) (opcode flags seg pruned : Nat) (payload : List Byte) : (c.sendTree port up o opcode flags seg pruned payload).mem.hbm = c.mem.hbm := by
  unfold Chip.sendTree
  repeat' first | (simp; done) | (dsimp only; split) | split | (rw [foldl_hbm] <;> intros) | (have hk := congrArg (fun r => r.1.mem.hbm) ‹_ = (_, _)›; simp_all; done) | (simp_all; done)

@[simp] theorem Chip.sendUp_hbm (c : Chip) (o : COp) (opcode flags seg : Nat) (payload : List Byte) : (c.sendUp o opcode flags seg payload).mem.hbm = c.mem.hbm := by
  unfold Chip.sendUp
  repeat' first | (simp; done) | (dsimp only; split) | split | (rw [foldl_hbm] <;> intros) | (have hk := congrArg (fun r => r.1.mem.hbm) ‹_ = (_, _)›; simp_all; done) | (simp_all; done)

@[simp] theorem Chip.sendDown_hbm (c : Chip) (o : COp) (opcode flags seg pruned : Nat) (payload : List Byte) : (c.sendDown o opcode flags seg pruned payload).mem.hbm = c.mem.hbm := by
  unfold Chip.sendDown
  repeat' first | (simp; done) | (dsimp only; split) | split | (rw [foldl_hbm] <;> intros) | (have hk := congrArg (fun r => r.1.mem.hbm) ‹_ = (_, _)›; simp_all; done) | (simp_all; done)

@[simp] theorem Chip.completePost_hbm (c : Chip) (o : COp) (x : CPost) (status : Nat) : (c.completePost o x status).mem.hbm = c.mem.hbm := by
  unfold Chip.completePost
  repeat' first | (simp; done) | (dsimp only; split) | split | (rw [foldl_hbm] <;> intros) | (have hk := congrArg (fun r => r.1.mem.hbm) ‹_ = (_, _)›; simp_all; done) | (simp_all; done)

@[simp] theorem Chip.flushPosts_hbm (c : Chip) (m : Nat) (s : BitVec 32) : (c.flushPosts m s).mem.hbm = c.mem.hbm := by
  unfold Chip.flushPosts
  repeat' first | (simp; done) | (dsimp only; split) | split | (rw [foldl_hbm] <;> intros) | (have hk := congrArg (fun r => r.1.mem.hbm) ‹_ = (_, _)›; simp_all; done) | (simp_all; done)

@[simp] theorem Chip.settleColl_hbm (c : Chip) (m : Nat) : (c.settleColl m).mem.hbm = c.mem.hbm := by
  unfold Chip.settleColl
  repeat' first | (simp; done) | (dsimp only; split) | split | (rw [foldl_hbm] <;> intros) | (have hk := congrArg (fun r => r.1.mem.hbm) ‹_ = (_, _)›; simp_all; done) | (simp_all; done)

@[simp] theorem Chip.recordAbort_hbm (c : Chip) (o : COp) (status : Nat) : (c.recordAbort o status).mem.hbm = c.mem.hbm := by
  unfold Chip.recordAbort
  repeat' first | (simp; done) | (dsimp only; split) | split | (rw [foldl_hbm] <;> intros) | (have hk := congrArg (fun r => r.1.mem.hbm) ‹_ = (_, _)›; simp_all; done) | (simp_all; done)

@[simp] theorem Chip.abortNow_hbm (c : Chip) (m : Nat) (s : BitVec 32) (status : Nat) : (c.abortNow m s status).mem.hbm = c.mem.hbm := by
  unfold Chip.abortNow
  repeat' first | (simp; done) | (dsimp only; split) | split | (rw [foldl_hbm] <;> intros) | (have hk := congrArg (fun r => r.1.mem.hbm) ‹_ = (_, _)›; simp_all; done) | (simp_all; done)

@[simp] theorem Chip.abortSelf_hbm (c : Chip) (m : Nat) (s : BitVec 32) (status : Nat) : (c.abortSelf m s status).mem.hbm = c.mem.hbm := by
  unfold Chip.abortSelf
  repeat' first | (simp; done) | (dsimp only; split) | split | (rw [foldl_hbm] <;> intros) | (have hk := congrArg (fun r => r.1.mem.hbm) ‹_ = (_, _)›; simp_all; done) | (simp_all; done)

@[simp] theorem Chip.abortFromChild_hbm (c : Chip) (m : Nat) (s : BitVec 32) (status : Nat) : (c.abortFromChild m s status).mem.hbm = c.mem.hbm := by
  unfold Chip.abortFromChild
  repeat' first | (simp; done) | (dsimp only; split) | split | (rw [foldl_hbm] <;> intros) | (have hk := congrArg (fun r => r.1.mem.hbm) ‹_ = (_, _)›; simp_all; done) | (simp_all; done)

@[simp] theorem Chip.abortFromParent_hbm (c : Chip) (m : Nat) (s : BitVec 32) (status : Nat) : (c.abortFromParent m s status).mem.hbm = c.mem.hbm := by
  unfold Chip.abortFromParent
  repeat' first | (simp; done) | (dsimp only; split) | split | (rw [foldl_hbm] <;> intros) | (have hk := congrArg (fun r => r.1.mem.hbm) ‹_ = (_, _)›; simp_all; done) | (simp_all; done)

@[simp] theorem Chip.collFences_hbm (c : Chip) (m : Nat) (s : BitVec 32) : (c.collFences m s).mem.hbm = c.mem.hbm := by
  unfold Chip.collFences
  repeat' first | (simp; done) | (dsimp only; split) | split | (rw [foldl_hbm] <;> intros) | (have hk := congrArg (fun r => r.1.mem.hbm) ‹_ = (_, _)›; simp_all; done) | (simp_all; done)

@[simp] theorem Chip.collContribute_hbm (c : Chip) (m : Nat) (s : BitVec 32) : (c.collContribute m s).mem.hbm = c.mem.hbm := by
  unfold Chip.collContribute
  repeat' first | (simp; done) | (dsimp only; split) | split | (rw [foldl_hbm] <;> intros) | (have hk := congrArg (fun r => r.1.mem.hbm) ‹_ = (_, _)›; simp_all; done) | (simp_all; done)

@[simp] theorem Chip.collArrive_hbm (c : Chip) (m : Nat) (s : BitVec 32) : (c.collArrive m s).mem.hbm = c.mem.hbm := by
  unfold Chip.collArrive
  repeat' first | (simp; done) | (dsimp only; split) | split | (rw [foldl_hbm] <;> intros) | (have hk := congrArg (fun r => r.1.mem.hbm) ‹_ = (_, _)›; simp_all; done) | (simp_all; done)

@[simp] theorem Chip.collDone_hbm (c : Chip) (m : Nat) (s : BitVec 32) : (c.collDone m s).mem.hbm = c.mem.hbm := by
  unfold Chip.collDone
  repeat' first | (simp; done) | (dsimp only; split) | split | (rw [foldl_hbm] <;> intros) | (have hk := congrArg (fun r => r.1.mem.hbm) ‹_ = (_, _)›; simp_all; done) | (simp_all; done)

@[simp] theorem Chip.collDecide_hbm (c : Chip) (m : Nat) (s : BitVec 32) : (c.collDecide m s).mem.hbm = c.mem.hbm := by
  unfold Chip.collDecide
  repeat' first | (simp; done) | (dsimp only; split) | split | (rw [foldl_hbm] <;> intros) | (have hk := congrArg (fun r => r.1.mem.hbm) ‹_ = (_, _)›; simp_all; done) | (simp_all; done)

@[simp] theorem Chip.operandOf_hbm (c : Chip) (h fn : Nat) (e : Entry) (data : SourceData) : (c.operandOf h fn e data).1.mem.hbm = c.mem.hbm := by
  unfold Chip.operandOf
  repeat' first | (simp; done) | (dsimp only; split) | split | (rw [foldl_hbm] <;> intros) | (have hk := congrArg (fun r => r.1.mem.hbm) ‹_ = (_, _)›; simp_all; done) | (simp_all; done)

@[simp] theorem Chip.dropAborts_hbm (c : Chip) (m : Nat) : (c.dropAborts m).mem.hbm = c.mem.hbm := by
  unfold Chip.dropAborts
  repeat' first | (simp; done) | (dsimp only; split) | split | (rw [foldl_hbm] <;> intros) | (have hk := congrArg (fun r => r.1.mem.hbm) ‹_ = (_, _)›; simp_all; done) | (simp_all; done)

@[simp] theorem Chip.dropStale_hbm (c : Chip) (m : Nat) (s : BitVec 32) : (c.dropStale m s).mem.hbm = c.mem.hbm := by
  unfold Chip.dropStale
  repeat' first | (simp; done) | (dsimp only; split) | split | (rw [foldl_hbm] <;> intros) | (have hk := congrArg (fun r => r.1.mem.hbm) ‹_ = (_, _)›; simp_all; done) | (simp_all; done)

@[simp] theorem Chip.takeTree_hbm (c : Chip) (port : Nat) (p : Packet) : (c.takeTree port p).mem.hbm = c.mem.hbm := by
  unfold Chip.takeTree
  repeat' first | (simp; done) | (dsimp only; split) | split | (rw [foldl_hbm] <;> intros) | (have hk := congrArg (fun r => r.1.mem.hbm) ‹_ = (_, _)›; simp_all; done) | (simp_all; done)

@[simp] theorem Chip.treeDiscard_hbm (c : Chip) (m : Nat) (p : Packet) (mismatch : Bool) : (c.treeDiscard m p mismatch).mem.hbm = c.mem.hbm := by
  unfold Chip.treeDiscard
  repeat' first | (simp; done) | (dsimp only; split) | split | (rw [foldl_hbm] <;> intros) | (have hk := congrArg (fun r => r.1.mem.hbm) ‹_ = (_, _)›; simp_all; done) | (simp_all; done)

@[simp] theorem Chip.admitTree_hbm (c : Chip) (port : Nat) (p : Packet) : (c.admitTree port p).1.mem.hbm = c.mem.hbm := by
  unfold Chip.admitTree
  repeat' first | (simp; done) | (dsimp only; split) | split | (rw [foldl_hbm] <;> intros) | (have hk := congrArg (fun r => r.1.mem.hbm) ‹_ = (_, _)›; simp_all; done) | (simp_all; done)

@[simp] theorem Chip.collectiveAbort_hbm (c : Chip) (port : Nat) (p : Packet) : (c.collectiveAbort port p).mem.hbm = c.mem.hbm := by
  unfold Chip.collectiveAbort
  split
  · rfl
  · split <;> rename_i e <;> have h := pair_hbm e (Chip.admitTree_hbm ..)
    · exact h
    · dsimp only; split <;> simp [h]

@[simp] theorem Chip.sendSegment_hbm (c : Chip) (o : COp) (seg : Nat) (g : CSeg) : (c.sendSegment o seg g).mem.hbm = c.mem.hbm := by
  unfold Chip.sendSegment
  repeat' first | (simp; done) | (dsimp only; split) | split | (rw [foldl_hbm] <;> intros) | (have hk := congrArg (fun r => r.1.mem.hbm) ‹_ = (_, _)›; simp_all; done) | (simp_all; done)

@[simp] theorem Chip.collectiveTimeout_hbm (c : Chip) (m : Nat) (s : BitVec 32) : (c.collectiveTimeout m s).mem.hbm = c.mem.hbm := by
  unfold Chip.collectiveTimeout
  repeat' first | (simp; done) | (dsimp only; split) | split | (rw [foldl_hbm] <;> intros) | (have hk := congrArg (fun r => r.1.mem.hbm) ‹_ = (_, _)›; simp_all; done) | (simp_all; done)

@[simp] theorem Chip.collRowChanged_hbm (c : Chip) (m : Nat) : (c.collRowChanged m).mem.hbm = c.mem.hbm := by
  unfold Chip.collRowChanged
  repeat' first | (simp; done) | (dsimp only; split) | split | (rw [foldl_hbm] <;> intros) | (have hk := congrArg (fun r => r.1.mem.hbm) ‹_ = (_, _)›; simp_all; done) | (simp_all; done)

@[simp] theorem Chip.setWinStatus_hbm (c : Chip) (fn slot bit : Nat) : (c.setWinStatus fn slot bit).mem.hbm = c.mem.hbm := by
  unfold Chip.setWinStatus
  repeat' first | (simp; done) | (dsimp only; split) | split | (rw [foldl_hbm] <;> intros) | (have hk := congrArg (fun r => r.1.mem.hbm) ‹_ = (_, _)›; simp_all; done) | (simp_all; done)

@[simp] theorem Chip.keepLines_hbm (c : Chip) (o : BrOp) : (c.keepLines o).mem.hbm = c.mem.hbm := by
  unfold Chip.keepLines
  repeat' first | (simp; done) | (dsimp only; split) | split | (rw [foldl_hbm] <;> intros) | (have hk := congrArg (fun r => r.1.mem.hbm) ‹_ = (_, _)›; simp_all; done) | (simp_all; done)

@[simp] theorem Chip.winWriteError_hbm (c : Chip) (o : BrOp) : (c.winWriteError o).mem.hbm = c.mem.hbm := by
  unfold Chip.winWriteError
  repeat' first | (simp; done) | (dsimp only; split) | split | (rw [foldl_hbm] <;> intros) | (have hk := congrArg (fun r => r.1.mem.hbm) ‹_ = (_, _)›; simp_all; done) | (simp_all; done)

@[simp] theorem Chip.winOutcome_hbm (c : Chip) (o : BrOp) (status : Nat) : (c.winOutcome o status).mem.hbm = c.mem.hbm := by
  unfold Chip.winOutcome
  repeat' first | (simp; done) | (dsimp only; split) | split | (rw [foldl_hbm] <;> intros) | (have hk := congrArg (fun r => r.1.mem.hbm) ‹_ = (_, _)›; simp_all; done) | (simp_all; done)

@[simp] theorem Chip.dropBrOp_hbm (c : Chip) (num : Nat) : (c.dropBrOp num).mem.hbm = c.mem.hbm := by
  unfold Chip.dropBrOp
  repeat' first | (simp; done) | (dsimp only; split) | split | (rw [foldl_hbm] <;> intros) | (have hk := congrArg (fun r => r.1.mem.hbm) ‹_ = (_, _)›; simp_all; done) | (simp_all; done)

@[simp] theorem Chip.endBrOp_hbm (c : Chip) (o : BrOp) (status : Nat) : (c.endBrOp o status).mem.hbm = c.mem.hbm := by
  unfold Chip.endBrOp
  repeat' first | (simp; done) | (dsimp only; split) | split | (rw [foldl_hbm] <;> intros) | (have hk := congrArg (fun r => r.1.mem.hbm) ‹_ = (_, _)›; simp_all; done) | (simp_all; done)

@[simp] theorem Chip.startBrOp_hbm (c : Chip) (o : BrOp) : (c.startBrOp o).mem.hbm = c.mem.hbm := by
  unfold Chip.startBrOp
  repeat' first | (simp; done) | (dsimp only; split) | split | (rw [foldl_hbm] <;> intros) | (have hk := congrArg (fun r => r.1.mem.hbm) ‹_ = (_, _)›; simp_all; done) | (simp_all; done)

@[simp] theorem Chip.runBridge_hbm (c : Chip)  : (c.runBridge).mem.hbm = c.mem.hbm := by
  unfold Chip.runBridge
  repeat' first | (simp; done) | (dsimp only; split) | split | (rw [foldl_hbm] <;> intros) | (have hk := congrArg (fun r => r.1.mem.hbm) ‹_ = (_, _)›; simp_all; done) | (simp_all; done)

@[simp] theorem Chip.windowDone_hbm (c : Chip) (num status : Nat) (result : BitVec 128) : (c.windowDone num status result).mem.hbm = c.mem.hbm := by
  unfold Chip.windowDone
  repeat' first | (simp; done) | (dsimp only; split) | split | (rw [foldl_hbm] <;> intros) | (have hk := congrArg (fun r => r.1.mem.hbm) ‹_ = (_, _)›; simp_all; done) | (simp_all; done)

@[simp] theorem Chip.acceptBrOp_hbm (c : Chip) (o : BrOp) : (c.acceptBrOp o).mem.hbm = c.mem.hbm := by
  unfold Chip.acceptBrOp
  repeat' first | (simp; done) | (dsimp only; split) | split | (rw [foldl_hbm] <;> intros) | (have hk := congrArg (fun r => r.1.mem.hbm) ‹_ = (_, _)›; simp_all; done) | (simp_all; done)

@[simp] theorem Chip.sendMerge_hbm (c : Chip) (h : Nat) : (c.sendMerge h).mem.hbm = c.mem.hbm := by
  unfold Chip.sendMerge
  repeat' first | (simp; done) | (dsimp only; split) | split | (rw [foldl_hbm] <;> intros) | (have hk := congrArg (fun r => r.1.mem.hbm) ‹_ = (_, _)›; simp_all; done) | (simp_all; done)

@[simp] theorem Chip.mergeRun_hbm (c : Chip) (fn : Nat) (w : Win) (r : Nat × List Byte) : (c.mergeRun fn w r).mem.hbm = c.mem.hbm := by
  unfold Chip.mergeRun
  repeat' first | (simp; done) | (dsimp only; split) | split | (rw [foldl_hbm] <;> intros) | (have hk := congrArg (fun r => r.1.mem.hbm) ‹_ = (_, _)›; simp_all; done) | (simp_all; done)

@[simp] theorem Chip.dropOverlapped_hbm (c : Chip) (h ep : Nat) (key : BitVec 32) (runs : List (Nat × List Byte)) : (c.dropOverlapped h ep key runs).mem.hbm = c.mem.hbm := by
  unfold Chip.dropOverlapped
  repeat' first | (simp; done) | (dsimp only; split) | split | (rw [foldl_hbm] <;> intros) | (have hk := congrArg (fun r => r.1.mem.hbm) ‹_ = (_, _)›; simp_all; done) | (simp_all; done)

@[simp] theorem Chip.bar4Write_hbm (c : Chip) (fn off : Nat) (l : List Byte) : (c.bar4Write fn off l).mem.hbm = c.mem.hbm := by
  unfold Chip.bar4Write
  repeat' first | (simp; done) | (dsimp only; split) | split | (rw [foldl_hbm] <;> intros) | (have hk := congrArg (fun r => r.1.mem.hbm) ‹_ = (_, _)›; simp_all; done) | (simp_all; done)

@[simp] theorem Chip.addPrefetch_hbm (c : Chip) (fn : Nat) (w : Win) (last : Nat) : (c.addPrefetch fn w last).mem.hbm = c.mem.hbm := by
  unfold Chip.addPrefetch
  repeat' first | (simp; done) | (dsimp only; split) | split | (rw [foldl_hbm] <;> intros) | (have hk := congrArg (fun r => r.1.mem.hbm) ‹_ = (_, _)›; simp_all; done) | (simp_all; done)

@[simp] theorem Chip.readWindow_hbm (c : Chip) (fn id off len : Nat) : (c.readWindow fn id off len).mem.hbm = c.mem.hbm := by
  unfold Chip.readWindow
  repeat' first | (simp; done) | (dsimp only; split) | split | (rw [foldl_hbm] <;> intros) | (have hk := congrArg (fun r => r.1.mem.hbm) ‹_ = (_, _)›; simp_all; done) | (simp_all; done)

@[simp] theorem Chip.atomicWindow_hbm (c : Chip) (fn id off : Nat) (a : PcieAtomic) : (c.atomicWindow fn id off a).mem.hbm = c.mem.hbm := by
  unfold Chip.atomicWindow
  repeat' first | (simp; done) | (dsimp only; split) | split | (rw [foldl_hbm] <;> intros) | (have hk := congrArg (fun r => r.1.mem.hbm) ‹_ = (_, _)›; simp_all; done) | (simp_all; done)

@[simp] theorem Chip.hostRequest_hbm (c : Chip) (r : HostReq) : (c.hostRequest r).mem.hbm = c.mem.hbm := by
  unfold Chip.hostRequest
  repeat' first | (simp; done) | (dsimp only; split) | split | (rw [foldl_hbm] <;> intros) | (have hk := congrArg (fun r => r.1.mem.hbm) ‹_ = (_, _)›; simp_all; done) | (simp_all; done)

@[simp] theorem Chip.takeHostRequest_hbm (c : Chip) (r : HostReq) : (c.takeHostRequest r).mem.hbm = c.mem.hbm := by
  unfold Chip.takeHostRequest
  repeat' first | (simp; done) | (dsimp only; split) | split | (rw [foldl_hbm] <;> intros) | (have hk := congrArg (fun r => r.1.mem.hbm) ‹_ = (_, _)›; simp_all; done) | (simp_all; done)

@[simp] theorem Chip.bar4Read_hbm (c : Chip) (fn id off len : Nat) : (c.bar4Read fn id off len).mem.hbm = c.mem.hbm := by
  unfold Chip.bar4Read
  repeat' first | (simp; done) | (dsimp only; split) | split | (rw [foldl_hbm] <;> intros) | (have hk := congrArg (fun r => r.1.mem.hbm) ‹_ = (_, _)›; simp_all; done) | (simp_all; done)

@[simp] theorem Chip.bar4Atomic_hbm (c : Chip) (fn id off : Nat) (a : PcieAtomic) : (c.bar4Atomic fn id off a).mem.hbm = c.mem.hbm := by
  unfold Chip.bar4Atomic
  repeat' first | (simp; done) | (dsimp only; split) | split | (rw [foldl_hbm] <;> intros) | (have hk := congrArg (fun r => r.1.mem.hbm) ‹_ = (_, _)›; simp_all; done) | (simp_all; done)

@[simp] theorem Chip.hostCredits_hbm (c : Chip)  : (c.hostCredits).mem.hbm = c.mem.hbm := by
  unfold Chip.hostCredits
  repeat' first | (simp; done) | (dsimp only; split) | split | (rw [foldl_hbm] <;> intros) | (have hk := congrArg (fun r => r.1.mem.hbm) ‹_ = (_, _)›; simp_all; done) | (simp_all; done)

@[simp] theorem Chip.gatherExpiry_hbm (c : Chip) (h : Nat) : (c.gatherExpiry h).mem.hbm = c.mem.hbm := by
  unfold Chip.gatherExpiry
  repeat' first | (simp; done) | (dsimp only; split) | split | (rw [foldl_hbm] <;> intros) | (have hk := congrArg (fun r => r.1.mem.hbm) ‹_ = (_, _)›; simp_all; done) | (simp_all; done)

@[simp] theorem Chip.prefetchExpiry_hbm (c : Chip) (h : Nat) : (c.prefetchExpiry h).mem.hbm = c.mem.hbm := by
  unfold Chip.prefetchExpiry
  repeat' first | (simp; done) | (dsimp only; split) | split | (rw [foldl_hbm] <;> intros) | (have hk := congrArg (fun r => r.1.mem.hbm) ‹_ = (_, _)›; simp_all; done) | (simp_all; done)

@[simp] theorem Chip.bridgeTimeout_hbm (c : Chip) (num : Nat) : (c.bridgeTimeout num).mem.hbm = c.mem.hbm := by
  unfold Chip.bridgeTimeout
  repeat' first | (simp; done) | (dsimp only; split) | split | (rw [foldl_hbm] <;> intros) | (have hk := congrArg (fun r => r.1.mem.hbm) ‹_ = (_, _)›; simp_all; done) | (simp_all; done)

@[simp] theorem Chip.windowCleared_hbm (c : Chip) (fn slot : Nat) : (c.windowCleared fn slot).mem.hbm = c.mem.hbm := by
  unfold Chip.windowCleared
  repeat' first | (simp; done) | (dsimp only; split) | split | (rw [foldl_hbm] <;> intros) | (have hk := congrArg (fun r => r.1.mem.hbm) ‹_ = (_, _)›; simp_all; done) | (simp_all; done)

@[simp] theorem Chip.bridgeReset_hbm (c : Chip)  : (c.bridgeReset).mem.hbm = c.mem.hbm := by
  unfold Chip.bridgeReset
  repeat' first | (simp; done) | (dsimp only; split) | split | (rw [foldl_hbm] <;> intros) | (have hk := congrArg (fun r => r.1.mem.hbm) ‹_ = (_, _)›; simp_all; done) | (simp_all; done)

@[simp] theorem Chip.matchDisable_hbm (c : Chip) (fn : Nat) : (c.matchDisable fn).mem.hbm = c.mem.hbm := by
  unfold Chip.matchDisable
  repeat' first | (simp; done) | (dsimp only; split) | split | (rw [foldl_hbm] <;> intros) | (have hk := congrArg (fun r => r.1.mem.hbm) ‹_ = (_, _)›; simp_all; done) | (simp_all; done)

@[simp] theorem Chip.releaseFn_hbm (c : Chip) (fn : Nat) : (c.releaseFn fn).mem.hbm = c.mem.hbm := by
  unfold Chip.releaseFn
  repeat' first | (simp; done) | (dsimp only; split) | split | (rw [foldl_hbm] <;> intros) | (have hk := congrArg (fun r => r.1.mem.hbm) ‹_ = (_, _)›; simp_all; done) | (simp_all; done)

@[simp] theorem Chip.fillPolicer_hbm (c : Chip) (fn : Nat) : (c.fillPolicer fn).mem.hbm = c.mem.hbm := by
  unfold Chip.fillPolicer
  repeat' first | (simp; done) | (dsimp only; split) | split | (rw [foldl_hbm] <;> intros) | (have hk := congrArg (fun r => r.1.mem.hbm) ‹_ = (_, _)›; simp_all; done) | (simp_all; done)

@[simp] theorem Chip.leaveQuiesce_hbm (c : Chip) (fn : Nat) : (c.leaveQuiesce fn).mem.hbm = c.mem.hbm := by
  unfold Chip.leaveQuiesce
  repeat' first | (simp; done) | (dsimp only; split) | split | (rw [foldl_hbm] <;> intros) | (have hk := congrArg (fun r => r.1.mem.hbm) ‹_ = (_, _)›; simp_all; done) | (simp_all; done)

@[simp] theorem Chip.quiesceFn_hbm (c : Chip) (fn : Nat) : (c.quiesceFn fn).mem.hbm = c.mem.hbm := by
  unfold Chip.quiesceFn
  repeat' first | (simp; done) | (dsimp only; split) | split | (rw [foldl_hbm] <;> intros) | (have hk := congrArg (fun r => r.1.mem.hbm) ‹_ = (_, _)›; simp_all; done) | (simp_all; done)

@[simp] theorem Chip.enableFn_hbm (c : Chip) (fn : Nat) : (c.enableFn fn).mem.hbm = c.mem.hbm := by
  unfold Chip.enableFn
  repeat' first | (simp; done) | (dsimp only; split) | split | (rw [foldl_hbm] <;> intros) | (have hk := congrArg (fun r => r.1.mem.hbm) ‹_ = (_, _)›; simp_all; done) | (simp_all; done)

@[simp] theorem Chip.readyFn_hbm (c : Chip) (fn : Nat) : (c.readyFn fn).mem.hbm = c.mem.hbm := by
  unfold Chip.readyFn
  repeat' first | (simp; done) | (dsimp only; split) | split | (rw [foldl_hbm] <;> intros) | (have hk := congrArg (fun r => r.1.mem.hbm) ‹_ = (_, _)›; simp_all; done) | (simp_all; done)

@[simp] theorem Chip.beginVf_hbm (c : Chip) (fn : Nat) : (c.beginVf fn).mem.hbm = c.mem.hbm := by
  unfold Chip.beginVf
  repeat' first | (simp; done) | (dsimp only; split) | split | (rw [foldl_hbm] <;> intros) | (have hk := congrArg (fun r => r.1.mem.hbm) ‹_ = (_, _)›; simp_all; done) | (simp_all; done)

@[simp] theorem Chip.vfSet_hbm (c : Chip) (h numVfs : Nat) : (c.vfSet h numVfs).mem.hbm = c.mem.hbm := by
  unfold Chip.vfSet
  repeat' first | (simp; done) | (dsimp only; split) | split | (rw [foldl_hbm] <;> intros) | (have hk := congrArg (fun r => r.1.mem.hbm) ‹_ = (_, _)›; simp_all; done) | (simp_all; done)

@[simp] theorem Chip.latchPort_hbm (c : Chip) (h : Nat) : (c.latchPort h).mem.hbm = c.mem.hbm := by
  unfold Chip.latchPort
  repeat' first | (simp; done) | (dsimp only; split) | split | (rw [foldl_hbm] <;> intros) | (have hk := congrArg (fun r => r.1.mem.hbm) ‹_ = (_, _)›; simp_all; done) | (simp_all; done)

@[simp] theorem Chip.clearWindows_hbm (c : Chip) (h : Nat) : (c.clearWindows h).mem.hbm = c.mem.hbm := by
  unfold Chip.clearWindows
  repeat' first | (simp; done) | (dsimp only; split) | split | (rw [foldl_hbm] <;> intros) | (have hk := congrArg (fun r => r.1.mem.hbm) ‹_ = (_, _)›; simp_all; done) | (simp_all; done)

@[simp] theorem Chip.checkRange_hbm (c : Chip) (h : Nat) (base size : HostPort → Nat) (drop : HostPort → HostPort) : (c.checkRange h base size drop).mem.hbm = c.mem.hbm := by
  unfold Chip.checkRange
  repeat' first | (simp; done) | (dsimp only; split) | split | (rw [foldl_hbm] <;> intros) | (have hk := congrArg (fun r => r.1.mem.hbm) ‹_ = (_, _)›; simp_all; done) | (simp_all; done)

@[simp] theorem Chip.checkRanges_hbm (c : Chip) (h : Nat) : (c.checkRanges h).mem.hbm = c.mem.hbm := by
  unfold Chip.checkRanges
  repeat' first | (simp; done) | (dsimp only; split) | split | (rw [foldl_hbm] <;> intros) | (have hk := congrArg (fun r => r.1.mem.hbm) ‹_ = (_, _)›; simp_all; done) | (simp_all; done)

@[simp] theorem Chip.hostDetect_hbm (c : Chip) (h : Nat) : (c.hostDetect h).mem.hbm = c.mem.hbm := by
  unfold Chip.hostDetect
  repeat' first | (simp; done) | (dsimp only; split) | split | (rw [foldl_hbm] <;> intros) | (have hk := congrArg (fun r => r.1.mem.hbm) ‹_ = (_, _)›; simp_all; done) | (simp_all; done)

@[simp] theorem Chip.perstDeassert_hbm (c : Chip) (h : Nat) : (c.perstDeassert h).mem.hbm = c.mem.hbm := by
  unfold Chip.perstDeassert
  repeat' first | (simp; done) | (dsimp only; split) | split | (rw [foldl_hbm] <;> intros) | (have hk := congrArg (fun r => r.1.mem.hbm) ‹_ = (_, _)›; simp_all; done) | (simp_all; done)

@[simp] theorem Chip.hostTrained_hbm (c : Chip) (h width rate : Nat) (flit : Bool) : (c.hostTrained h width rate flit).mem.hbm = c.mem.hbm := by
  unfold Chip.hostTrained
  repeat' first | (simp; done) | (dsimp only; split) | split | (rw [foldl_hbm] <;> intros) | (have hk := congrArg (fun r => r.1.mem.hbm) ‹_ = (_, _)›; simp_all; done) | (simp_all; done)

@[simp] theorem Chip.sendPending_hbm (c : Chip) (fn : Nat) : (c.sendPending fn).mem.hbm = c.mem.hbm := by
  unfold Chip.sendPending
  repeat' first | (simp; done) | (dsimp only; split) | split | (rw [foldl_hbm] <;> intros) | (have hk := congrArg (fun r => r.1.mem.hbm) ‹_ = (_, _)›; simp_all; done) | (simp_all; done)

@[simp] theorem Chip.unmask_hbm (c : Chip) (fn v : Nat) : (c.unmask fn v).mem.hbm = c.mem.hbm := by
  unfold Chip.unmask
  repeat' first | (simp; done) | (dsimp only; split) | split | (rw [foldl_hbm] <;> intros) | (have hk := congrArg (fun r => r.1.mem.hbm) ‹_ = (_, _)›; simp_all; done) | (simp_all; done)

@[simp] theorem Chip.mask_hbm (c : Chip) (fn v : Nat) : (c.mask fn v).mem.hbm = c.mem.hbm := by
  unfold Chip.mask
  repeat' first | (simp; done) | (dsimp only; split) | split | (rw [foldl_hbm] <;> intros) | (have hk := congrArg (fun r => r.1.mem.hbm) ‹_ = (_, _)›; simp_all; done) | (simp_all; done)

@[simp] theorem Chip.counterPage_hbm (c : Chip) (fn off : Nat) (wide : Bool) : (c.counterPage fn off wide).mem.hbm = c.mem.hbm := by
  unfold Chip.counterPage
  repeat' first | (simp; done) | (dsimp only; split) | split | (rw [foldl_hbm] <;> intros) | (have hk := congrArg (fun r => r.1.mem.hbm) ‹_ = (_, _)›; simp_all; done) | (simp_all; done)

@[simp] theorem Chip.updPeer_hbm (c : Chip) (p : Nat) (f : Peer → Peer) : (c.updPeer p f).mem.hbm = c.mem.hbm := by
  unfold Chip.updPeer
  repeat' first | (simp; done) | (dsimp only; split) | split | (rw [foldl_hbm] <;> intros) | (have hk := congrArg (fun r => r.1.mem.hbm) ‹_ = (_, _)›; simp_all; done) | (simp_all; done)

@[simp] theorem Chip.timeSend_hbm (c : Chip) (p : Nat) : (c.timeSend p).mem.hbm = c.mem.hbm := by
  unfold Chip.timeSend
  repeat' first | (simp; done) | (dsimp only; split) | split | (rw [foldl_hbm] <;> intros) | (have hk := congrArg (fun r => r.1.mem.hbm) ‹_ = (_, _)›; simp_all; done) | (simp_all; done)

@[simp] theorem Chip.lostCond_hbm (c : Chip) (on : Bool) : (c.lostCond on).mem.hbm = c.mem.hbm := by
  unfold Chip.lostCond
  repeat' first | (simp; done) | (dsimp only; split) | split | (rw [foldl_hbm] <;> intros) | (have hk := congrArg (fun r => r.1.mem.hbm) ‹_ = (_, _)›; simp_all; done) | (simp_all; done)

@[simp] theorem Chip.timeLost_hbm (c : Chip)  : (c.timeLost).mem.hbm = c.mem.hbm := by
  unfold Chip.timeLost
  repeat' first | (simp; done) | (dsimp only; split) | split | (rw [foldl_hbm] <;> intros) | (have hk := congrArg (fun r => r.1.mem.hbm) ‹_ = (_, _)›; simp_all; done) | (simp_all; done)

@[simp] theorem Chip.timeStep_hbm (c : Chip) (d : Int) : (c.timeStep d).mem.hbm = c.mem.hbm := by
  unfold Chip.timeStep
  repeat' first | (simp; done) | (dsimp only; split) | split | (rw [foldl_hbm] <;> intros) | (have hk := congrArg (fun r => r.1.mem.hbm) ‹_ = (_, _)›; simp_all; done) | (simp_all; done)

@[simp] theorem Chip.setRate_hbm (c : Chip)  : (c.setRate).mem.hbm = c.mem.hbm := by
  unfold Chip.setRate
  repeat' first | (simp; done) | (dsimp only; split) | split | (rw [foldl_hbm] <;> intros) | (have hk := congrArg (fun r => r.1.mem.hbm) ‹_ = (_, _)›; simp_all; done) | (simp_all; done)

@[simp] theorem Chip.halved_hbm (c : Chip) (x : Int) : (c.halved x).1.mem.hbm = c.mem.hbm := by
  unfold Chip.halved
  repeat' first | (simp; done) | (dsimp only; split) | split | (rw [foldl_hbm] <;> intros) | (have hk := congrArg (fun r => r.1.mem.hbm) ‹_ = (_, _)›; simp_all; done) | (simp_all; done)

@[simp] theorem Chip.follow_hbm (c : Chip) (p : Nat) (i : TimeItem) : (c.follow p i).mem.hbm = c.mem.hbm := by
  unfold Chip.follow
  repeat' first | (simp; done) | (dsimp only; split) | split | (rw [foldl_hbm] <;> intros) | (have hk := congrArg (fun r => r.1.mem.hbm) ‹_ = (_, _)›; simp_all; done) | (simp_all; done)

@[simp] theorem Chip.acquire_hbm (c : Chip) (p : Nat) (i : TimeItem) : (c.acquire p i).mem.hbm = c.mem.hbm := by
  unfold Chip.acquire
  repeat' first | (simp; done) | (dsimp only; split) | split | (rw [foldl_hbm] <;> intros) | (have hk := congrArg (fun r => r.1.mem.hbm) ‹_ = (_, _)›; simp_all; done) | (simp_all; done)

@[simp] theorem Chip.chooseParent_hbm (c : Chip)  : (c.chooseParent).mem.hbm = c.mem.hbm := by
  unfold Chip.chooseParent
  repeat' first | (simp; done) | (dsimp only; split) | split | (rw [foldl_hbm] <;> intros) | (have hk := congrArg (fun r => r.1.mem.hbm) ‹_ = (_, _)›; simp_all; done) | (simp_all; done)

@[simp] theorem Chip.thetaDelay_hbm (c : Chip) (t1 t2 t3 t4 : Word) : (c.thetaDelay t1 t2 t3 t4).1.mem.hbm = c.mem.hbm := by
  unfold Chip.thetaDelay
  repeat' first | (simp; done) | (dsimp only; split) | split | (rw [foldl_hbm] <;> intros) | (have hk := congrArg (fun r => r.1.mem.hbm) ‹_ = (_, _)›; simp_all; done) | (simp_all; done)

@[simp] theorem Chip.noteDelay_hbm (c : Chip) (p : Nat) (d : Int) : (c.noteDelay p d).mem.hbm = c.mem.hbm := by
  unfold Chip.noteDelay
  repeat' first | (simp; done) | (dsimp only; split) | split | (rw [foldl_hbm] <;> intros) | (have hk := congrArg (fun r => r.1.mem.hbm) ‹_ = (_, _)›; simp_all; done) | (simp_all; done)

@[simp] theorem Chip.takeTheta_hbm (c : Chip) (theta : Int) : (c.takeTheta theta).mem.hbm = c.mem.hbm := by
  unfold Chip.takeTheta
  repeat' first | (simp; done) | (dsimp only; split) | split | (rw [foldl_hbm] <;> intros) | (have hk := congrArg (fun r => r.1.mem.hbm) ‹_ = (_, _)›; simp_all; done) | (simp_all; done)

@[simp] theorem Chip.measure_hbm (c : Chip) (p : Nat) (i : TimeItem) : (c.measure p i).mem.hbm = c.mem.hbm := by
  unfold Chip.measure
  repeat' first | (simp; done) | (dsimp only; split) | split | (rw [foldl_hbm] <;> intros) | (have hk := congrArg (fun r => r.1.mem.hbm) ‹_ = (_, _)›; simp_all; done) | (simp_all; done)

@[simp] theorem Chip.timeReceive_hbm (c : Chip) (p : Nat) (i : TimeItem) : (c.timeReceive p i).mem.hbm = c.mem.hbm := by
  unfold Chip.timeReceive
  repeat' first | (simp; done) | (dsimp only; split) | split | (rw [foldl_hbm] <;> intros) | (have hk := congrArg (fun r => r.1.mem.hbm) ‹_ = (_, _)›; simp_all; done) | (simp_all; done)

@[simp] theorem Chip.parentTimeout_hbm (c : Chip)  : (c.parentTimeout).mem.hbm = c.mem.hbm := by
  unfold Chip.parentTimeout
  repeat' first | (simp; done) | (dsimp only; split) | split | (rw [foldl_hbm] <;> intros) | (have hk := congrArg (fun r => r.1.mem.hbm) ‹_ = (_, _)›; simp_all; done) | (simp_all; done)

@[simp] theorem Chip.timDown_hbm (c : Chip)  : (c.timDown).mem.hbm = c.mem.hbm := by
  unfold Chip.timDown
  repeat' first | (simp; done) | (dsimp only; split) | split | (rw [foldl_hbm] <;> intros) | (have hk := congrArg (fun r => r.1.mem.hbm) ‹_ = (_, _)›; simp_all; done) | (simp_all; done)

@[simp] theorem Chip.timResume_hbm (c : Chip)  : (c.timResume).mem.hbm = c.mem.hbm := by
  unfold Chip.timResume
  repeat' first | (simp; done) | (dsimp only; split) | split | (rw [foldl_hbm] <;> intros) | (have hk := congrArg (fun r => r.1.mem.hbm) ‹_ = (_, _)›; simp_all; done) | (simp_all; done)

@[simp] theorem Chip.holdoverExpiry_hbm (c : Chip)  : (c.holdoverExpiry).mem.hbm = c.mem.hbm := by
  unfold Chip.holdoverExpiry
  repeat' first | (simp; done) | (dsimp only; split) | split | (rw [foldl_hbm] <;> intros) | (have hk := congrArg (fun r => r.1.mem.hbm) ‹_ = (_, _)›; simp_all; done) | (simp_all; done)

@[simp] theorem Chip.rootStep_hbm (c : Chip) (d : Int) : (c.rootStep d).mem.hbm = c.mem.hbm := by
  unfold Chip.rootStep
  repeat' first | (simp; done) | (dsimp only; split) | split | (rw [foldl_hbm] <;> intros) | (have hk := congrArg (fun r => r.1.mem.hbm) ‹_ = (_, _)›; simp_all; done) | (simp_all; done)

@[simp] theorem Chip.setTime_hbm (c : Chip) (t : Word) : (c.setTime t).1.mem.hbm = c.mem.hbm := by
  unfold Chip.setTime
  repeat' first | (simp; done) | (dsimp only; split) | split | (rw [foldl_hbm] <;> intros) | (have hk := congrArg (fun r => r.1.mem.hbm) ‹_ = (_, _)›; simp_all; done) | (simp_all; done)

@[simp] theorem Chip.rootSetting_hbm (c : Chip)  : (c.rootSetting).mem.hbm = c.mem.hbm := by
  unfold Chip.rootSetting
  repeat' first | (simp; done) | (dsimp only; split) | split | (rw [foldl_hbm] <;> intros) | (have hk := congrArg (fun r => r.1.mem.hbm) ‹_ = (_, _)›; simp_all; done) | (simp_all; done)

@[simp] theorem Chip.ppsEdge_hbm (c : Chip)  : (c.ppsEdge).mem.hbm = c.mem.hbm := by
  unfold Chip.ppsEdge
  repeat' first | (simp; done) | (dsimp only; split) | split | (rw [foldl_hbm] <;> intros) | (have hk := congrArg (fun r => r.1.mem.hbm) ‹_ = (_, _)›; simp_all; done) | (simp_all; done)

@[simp] theorem Chip.paceWindow_hbm (c : Chip) (raw : List Int) : (c.paceWindow raw).mem.hbm = c.mem.hbm := by
  unfold Chip.paceWindow
  repeat' first | (simp; done) | (dsimp only; split) | split | (rw [foldl_hbm] <;> intros) | (have hk := congrArg (fun r => r.1.mem.hbm) ‹_ = (_, _)›; simp_all; done) | (simp_all; done)

@[simp] theorem Chip.firstRequest_hbm (c : Chip)  : (c.firstRequest).mem.hbm = c.mem.hbm := by
  unfold Chip.firstRequest
  repeat' first | (simp; done) | (dsimp only; split) | split | (rw [foldl_hbm] <;> intros) | (have hk := congrArg (fun r => r.1.mem.hbm) ‹_ = (_, _)›; simp_all; done) | (simp_all; done)

@[simp] theorem Chip.avsLoop_hbm (c : Chip)  : (c.avsLoop).mem.hbm = c.mem.hbm := by
  unfold Chip.avsLoop
  repeat' first | (simp; done) | (dsimp only; split) | split | (rw [foldl_hbm] <;> intros) | (have hk := congrArg (fun r => r.1.mem.hbm) ‹_ = (_, _)›; simp_all; done) | (simp_all; done)

@[simp] theorem Chip.avsFailed_hbm (c : Chip)  : (c.avsFailed).mem.hbm = c.mem.hbm := by
  unfold Chip.avsFailed
  repeat' first | (simp; done) | (dsimp only; split) | split | (rw [foldl_hbm] <;> intros) | (have hk := congrArg (fun r => r.1.mem.hbm) ‹_ = (_, _)›; simp_all; done) | (simp_all; done)

@[simp] theorem Chip.avsResponse_hbm (c : Chip) (good : Bool) : (c.avsResponse good).mem.hbm = c.mem.hbm := by
  unfold Chip.avsResponse
  repeat' first | (simp; done) | (dsimp only; split) | split | (rw [foldl_hbm] <;> intros) | (have hk := congrArg (fun r => r.1.mem.hbm) ‹_ = (_, _)›; simp_all; done) | (simp_all; done)

@[simp] theorem Chip.senseTemps_hbm (c : Chip) (raw : List Int) : (c.senseTemps raw).mem.hbm = c.mem.hbm := by
  unfold Chip.senseTemps
  repeat' first | (simp; done) | (dsimp only; split) | split | (rw [foldl_hbm] <;> intros) | (have hk := congrArg (fun r => r.1.mem.hbm) ‹_ = (_, _)›; simp_all; done) | (simp_all; done)

@[simp] theorem Chip.thermalRearm_hbm (c : Chip)  : (c.thermalRearm).mem.hbm = c.mem.hbm := by
  unfold Chip.thermalRearm
  repeat' first | (simp; done) | (dsimp only; split) | split | (rw [foldl_hbm] <;> intros) | (have hk := congrArg (fun r => r.1.mem.hbm) ‹_ = (_, _)›; simp_all; done) | (simp_all; done)

@[simp] theorem Chip.thermalWarning_hbm (c : Chip) (raw : List Int) : (c.thermalWarning raw).mem.hbm = c.mem.hbm := by
  unfold Chip.thermalWarning
  repeat' first | (simp; done) | (dsimp only; split) | split | (rw [foldl_hbm] <;> intros) | (have hk := congrArg (fun r => r.1.mem.hbm) ‹_ = (_, _)›; simp_all; done) | (simp_all; done)

@[simp] theorem Chip.thermalClear_hbm (c : Chip) (raw : List Int) : (c.thermalClear raw).mem.hbm = c.mem.hbm := by
  unfold Chip.thermalClear
  repeat' first | (simp; done) | (dsimp only; split) | split | (rw [foldl_hbm] <;> intros) | (have hk := congrArg (fun r => r.1.mem.hbm) ‹_ = (_, _)›; simp_all; done) | (simp_all; done)

@[simp] theorem Chip.copyTo_hbm (c : Chip) (a : Arrival) (out : Nat) : (c.copyTo a out).mem.hbm = c.mem.hbm := by
  unfold Chip.copyTo
  repeat' first | (simp; done) | (dsimp only; split) | split | (rw [foldl_hbm] <;> intros) | (have hk := congrArg (fun r => r.1.mem.hbm) ‹_ = (_, _)›; simp_all; done) | (simp_all; done)

@[simp] theorem Chip.awaitApply_hbm (c : Chip) (row : Nat) (p : Packet) : (c.awaitApply row p).mem.hbm = c.mem.hbm := by
  unfold Chip.awaitApply
  repeat' first | (simp; done) | (dsimp only; split) | split | (rw [foldl_hbm] <;> intros) | (have hk := congrArg (fun r => r.1.mem.hbm) ‹_ = (_, _)›; simp_all; done) | (simp_all; done)

@[simp] theorem Chip.spread_hbm (c : Chip) (a : Arrival) (row : Nat) : (c.spread a row).mem.hbm = c.mem.hbm := by
  unfold Chip.spread
  repeat' first | (simp; done) | (dsimp only; split) | split | (rw [foldl_hbm] <;> intros) | (have hk := congrArg (fun r => r.1.mem.hbm) ‹_ = (_, _)›; simp_all; done) | (simp_all; done)

@[simp] theorem Chip.broadcastArrives_hbm (c : Chip) (inp : Nat) (p : Packet) (kind : Nat) : (c.broadcastArrives inp p kind).mem.hbm = c.mem.hbm := by
  unfold Chip.broadcastArrives
  repeat' first | (simp; done) | (dsimp only; split) | split | (rw [foldl_hbm] <;> intros) | (have hk := congrArg (fun r => r.1.mem.hbm) ‹_ = (_, _)›; simp_all; done) | (simp_all; done)

@[simp] theorem Chip.fenceChans_hbm (c : Chip)  : (c.fenceChans).mem.hbm = c.mem.hbm := by
  unfold Chip.fenceChans
  repeat' first | (simp; done) | (dsimp only; split) | split | (rw [foldl_hbm] <;> intros) | (have hk := congrArg (fun r => r.1.mem.hbm) ‹_ = (_, _)›; simp_all; done) | (simp_all; done)

@[simp] theorem Chip.unfenceChans_hbm (c : Chip)  : (c.unfenceChans).mem.hbm = c.mem.hbm := by
  unfold Chip.unfenceChans
  repeat' first | (simp; done) | (dsimp only; split) | split | (rw [foldl_hbm] <;> intros) | (have hk := congrArg (fun r => r.1.mem.hbm) ‹_ = (_, _)›; simp_all; done) | (simp_all; done)

@[simp] theorem Chip.throttleDest_hbm (c : Chip) (row : Nat) (p : Packet) (chip : Nat) : (c.throttleDest row p chip).mem.hbm = c.mem.hbm := by
  unfold Chip.throttleDest
  repeat' first | (simp; done) | (dsimp only; split) | split | (rw [foldl_hbm] <;> intros) | (have hk := congrArg (fun r => r.1.mem.hbm) ‹_ = (_, _)›; simp_all; done) | (simp_all; done)

@[simp] theorem Chip.applyThrottle_hbm (c : Chip) (row : Nat) (p : Packet) : (c.applyThrottle row p).mem.hbm = c.mem.hbm := by
  unfold Chip.applyThrottle
  repeat' first | (simp; done) | (dsimp only; split) | split | (rw [foldl_hbm] <;> intros) | (have hk := congrArg (fun r => r.1.mem.hbm) ‹_ = (_, _)›; simp_all; done) | (simp_all; done)

@[simp] theorem Chip.throttleExpiry_hbm (c : Chip) (chip : Nat) : (c.throttleExpiry chip).mem.hbm = c.mem.hbm := by
  unfold Chip.throttleExpiry
  repeat' first | (simp; done) | (dsimp only; split) | split | (rw [foldl_hbm] <;> intros) | (have hk := congrArg (fun r => r.1.mem.hbm) ‹_ = (_, _)›; simp_all; done) | (simp_all; done)

@[simp] theorem Chip.resetRelease_hbm (c : Chip) (grp : BitVec 10) (pos : BitVec 5) : (c.resetRelease grp pos).mem.hbm = c.mem.hbm := by
  unfold Chip.resetRelease
  repeat' first | (simp; done) | (dsimp only; split) | split | (rw [foldl_hbm] <;> intros) | (have hk := congrArg (fun r => r.1.mem.hbm) ‹_ = (_, _)›; simp_all; done) | (simp_all; done)

@[simp] theorem Chip.strapOverride_hbm (c : Chip) (v : BitVec 32) : (c.strapOverride v).mem.hbm = c.mem.hbm := by
  unfold Chip.strapOverride
  repeat' first | (simp; done) | (dsimp only; split) | split | (rw [foldl_hbm] <;> intros) | (have hk := congrArg (fun r => r.1.mem.hbm) ‹_ = (_, _)›; simp_all; done) | (simp_all; done)

@[simp] theorem Chip.bootLoad_hbm (c : Chip)  : (c.bootLoad).mem.hbm = c.mem.hbm := by
  unfold Chip.bootLoad
  repeat' first | (simp; done) | (dsimp only; split) | split | (rw [foldl_hbm] <;> intros) | (have hk := congrArg (fun r => r.1.mem.hbm) ‹_ = (_, _)›; simp_all; done) | (simp_all; done)

@[simp] theorem Chip.loadValue_hbm (c : Chip) (n x : Nat) : (c.loadValue n x).mem.hbm = c.mem.hbm := by
  unfold Chip.loadValue
  repeat' first | (simp; done) | (dsimp only; split) | split | (rw [foldl_hbm] <;> intros) | (have hk := congrArg (fun r => r.1.mem.hbm) ‹_ = (_, _)›; simp_all; done) | (simp_all; done)

@[simp] theorem Chip.loadBank_hbm (c : Chip)  : (c.loadBank).mem.hbm = c.mem.hbm := by
  unfold Chip.loadBank
  repeat' first | (simp; done) | (dsimp only; split) | split | (rw [foldl_hbm] <;> intros) | (have hk := congrArg (fun r => r.1.mem.hbm) ‹_ = (_, _)›; simp_all; done) | (simp_all; done)

@[simp] theorem Chip.genericCal_hbm (c : Chip)  : (c.genericCal).mem.hbm = c.mem.hbm := by
  unfold Chip.genericCal
  repeat' first | (simp; done) | (dsimp only; split) | split | (rw [foldl_hbm] <;> intros) | (have hk := congrArg (fun r => r.1.mem.hbm) ‹_ = (_, _)›; simp_all; done) | (simp_all; done)

@[simp] theorem Chip.loadCalibration_hbm (c : Chip)  : (c.loadCalibration).mem.hbm = c.mem.hbm := by
  unfold Chip.loadCalibration
  repeat' first | (simp; done) | (dsimp only; split) | split | (rw [foldl_hbm] <;> intros) | (have hk := congrArg (fun r => r.1.mem.hbm) ‹_ = (_, _)›; simp_all; done) | (simp_all; done)

@[simp] theorem Chip.layOut_hbm (c : Chip)  : (c.layOut).mem.hbm = c.mem.hbm := by
  unfold Chip.layOut
  repeat' first | (simp; done) | (dsimp only; split) | split | (rw [foldl_hbm] <;> intros) | (have hk := congrArg (fun r => r.1.mem.hbm) ‹_ = (_, _)›; simp_all; done) | (simp_all; done)

@[simp] theorem Chip.jigUp_hbm (c : Chip)  : (c.jigUp).mem.hbm = c.mem.hbm := by
  unfold Chip.jigUp
  repeat' first | (simp; done) | (dsimp only; split) | split | (rw [foldl_hbm] <;> intros) | (have hk := congrArg (fun r => r.1.mem.hbm) ‹_ = (_, _)›; simp_all; done) | (simp_all; done)

@[simp] theorem Chip.fullService_hbm (c : Chip)  : (c.fullService).mem.hbm = c.mem.hbm := by
  unfold Chip.fullService
  repeat' first | (simp; done) | (dsimp only; split) | split | (rw [foldl_hbm] <;> intros) | (have hk := congrArg (fun r => r.1.mem.hbm) ‹_ = (_, _)›; simp_all; done) | (simp_all; done)

@[simp] theorem Chip.unstage_hbm (c : Chip) (s : Nat) : (c.unstage s).mem.hbm = c.mem.hbm := by
  unfold Chip.unstage
  repeat' first | (simp; done) | (dsimp only; split) | split | (rw [foldl_hbm] <;> intros) | (have hk := congrArg (fun r => r.1.mem.hbm) ‹_ = (_, _)›; simp_all; done) | (simp_all; done)

@[simp] theorem Chip.mgtDown_hbm (c : Chip)  : (c.mgtDown).mem.hbm = c.mem.hbm := by
  unfold Chip.mgtDown
  repeat' first | (simp; done) | (dsimp only; split) | split | (rw [foldl_hbm] <;> intros) | (have hk := congrArg (fun r => r.1.mem.hbm) ‹_ = (_, _)›; simp_all; done) | (simp_all; done)

@[simp] theorem Chip.clusterDown_hbm (c : Chip) (i st : Nat) : (c.clusterDown i st).mem.hbm = c.mem.hbm := by
  unfold Chip.clusterDown
  repeat' first | (simp; done) | (dsimp only; split) | split | (rw [foldl_hbm] <;> intros) | (have hk := congrArg (fun r => r.1.mem.hbm) ‹_ = (_, _)›; simp_all; done) | (simp_all; done)

@[simp] theorem Chip.activateNext_hbm (c : Chip)  : (c.activateNext).mem.hbm = c.mem.hbm := by
  unfold Chip.activateNext
  repeat' first | (simp; done) | (dsimp only; split) | split | (rw [foldl_hbm] <;> intros) | (have hk := congrArg (fun r => r.1.mem.hbm) ‹_ = (_, _)›; simp_all; done) | (simp_all; done)

@[simp] theorem Chip.restartCluster_hbm (c : Chip) (unit : Nat) : (c.restartCluster unit).1.mem.hbm = c.mem.hbm := by
  unfold Chip.restartCluster
  repeat' first | (simp; done) | (dsimp only; split) | split | (rw [foldl_hbm] <;> intros) | (have hk := congrArg (fun r => r.1.mem.hbm) ‹_ = (_, _)›; simp_all; done) | (simp_all; done)

@[simp] theorem Chip.unitReturns_hbm (c : Chip) (u : Nat) : (c.unitReturns u).mem.hbm = c.mem.hbm := by
  unfold Chip.unitReturns
  repeat' first | (simp; done) | (dsimp only; split) | split | (rw [foldl_hbm] <;> intros) | (have hk := congrArg (fun r => r.1.mem.hbm) ‹_ = (_, _)›; simp_all; done) | (simp_all; done)

@[simp] theorem Chip.unitRelease_hbm (c : Chip) (u : Nat) : (c.unitRelease u).mem.hbm = c.mem.hbm := by
  unfold Chip.unitRelease
  repeat' first | (simp; done) | (dsimp only; split) | split | (rw [foldl_hbm] <;> intros) | (have hk := congrArg (fun r => r.1.mem.hbm) ‹_ = (_, _)›; simp_all; done) | (simp_all; done)

@[simp] theorem Chip.update_hbm (c : Chip) (st result : Nat) : (c.update st result).mem.hbm = c.mem.hbm := by
  unfold Chip.update
  repeat' first | (simp; done) | (dsimp only; split) | split | (rw [foldl_hbm] <;> intros) | (have hk := congrArg (fun r => r.1.mem.hbm) ‹_ = (_, _)›; simp_all; done) | (simp_all; done)

@[simp] theorem Chip.beginUpdate_hbm (c : Chip)  : (c.beginUpdate).1.mem.hbm = c.mem.hbm := by
  unfold Chip.beginUpdate
  repeat' first | (simp; done) | (dsimp only; split) | split | (rw [foldl_hbm] <;> intros) | (have hk := congrArg (fun r => r.1.mem.hbm) ‹_ = (_, _)›; simp_all; done) | (simp_all; done)

@[simp] theorem Chip.beginDone_hbm (c : Chip) (ok : Bool) : (c.beginDone ok).mem.hbm = c.mem.hbm := by
  unfold Chip.beginDone
  repeat' first | (simp; done) | (dsimp only; split) | split | (rw [foldl_hbm] <;> intros) | (have hk := congrArg (fun r => r.1.mem.hbm) ‹_ = (_, _)›; simp_all; done) | (simp_all; done)

@[simp] theorem Chip.blockWrite_hbm (c : Chip) (k : Nat) (l : List Byte) : (c.blockWrite k l).1.mem.hbm = c.mem.hbm := by
  unfold Chip.blockWrite
  repeat' first | (simp; done) | (dsimp only; split) | split | (rw [foldl_hbm] <;> intros) | (have hk := congrArg (fun r => r.1.mem.hbm) ‹_ = (_, _)›; simp_all; done) | (simp_all; done)

@[simp] theorem Chip.blockDone_hbm (c : Chip) (ok : Bool) : (c.blockDone ok).mem.hbm = c.mem.hbm := by
  unfold Chip.blockDone
  repeat' first | (simp; done) | (dsimp only; split) | split | (rw [foldl_hbm] <;> intros) | (have hk := congrArg (fun r => r.1.mem.hbm) ‹_ = (_, _)›; simp_all; done) | (simp_all; done)

@[simp] theorem Chip.verifyUpdate_hbm (c : Chip)  : (c.verifyUpdate).1.mem.hbm = c.mem.hbm := by
  unfold Chip.verifyUpdate
  repeat' first | (simp; done) | (dsimp only; split) | split | (rw [foldl_hbm] <;> intros) | (have hk := congrArg (fun r => r.1.mem.hbm) ‹_ = (_, _)›; simp_all; done) | (simp_all; done)

@[simp] theorem Chip.verifyDone_hbm (c : Chip)  : (c.verifyDone).mem.hbm = c.mem.hbm := by
  unfold Chip.verifyDone
  repeat' first | (simp; done) | (dsimp only; split) | split | (rw [foldl_hbm] <;> intros) | (have hk := congrArg (fun r => r.1.mem.hbm) ‹_ = (_, _)›; simp_all; done) | (simp_all; done)

@[simp] theorem Chip.switchSlot_hbm (c : Chip)  : (c.switchSlot).1.mem.hbm = c.mem.hbm := by
  unfold Chip.switchSlot
  repeat' first | (simp; done) | (dsimp only; split) | split | (rw [foldl_hbm] <;> intros) | (have hk := congrArg (fun r => r.1.mem.hbm) ‹_ = (_, _)›; simp_all; done) | (simp_all; done)

@[simp] theorem Chip.switchDone_hbm (c : Chip) (ok : Bool) : (c.switchDone ok).mem.hbm = c.mem.hbm := by
  unfold Chip.switchDone
  repeat' first | (simp; done) | (dsimp only; split) | split | (rw [foldl_hbm] <;> intros) | (have hk := congrArg (fun r => r.1.mem.hbm) ‹_ = (_, _)›; simp_all; done) | (simp_all; done)

@[simp] theorem Chip.activate_hbm (c : Chip)  : (c.activate).1.mem.hbm = c.mem.hbm := by
  unfold Chip.activate
  repeat' first | (simp; done) | (dsimp only; split) | split | (rw [foldl_hbm] <;> intros) | (have hk := congrArg (fun r => r.1.mem.hbm) ‹_ = (_, _)›; simp_all; done) | (simp_all; done)

@[simp] theorem Chip.ctlIndexWrite_hbm (c : Chip) (fn : Nat) (cq : Bool) (off : Nat) (v : BitVec 32) : (c.ctlIndexWrite fn cq off v).mem.hbm = c.mem.hbm := by
  unfold Chip.ctlIndexWrite
  repeat' first | (simp; done) | (dsimp only; split) | split | (rw [foldl_hbm] <;> intros) | (have hk := congrArg (fun r => r.1.mem.hbm) ‹_ = (_, _)›; simp_all; done) | (simp_all; done)

@[simp] theorem Chip.ctlSqStops_hbm (c : Chip) (fn cause : Nat) : (c.ctlSqStops fn cause).mem.hbm = c.mem.hbm := by
  unfold Chip.ctlSqStops
  repeat' first | (simp; done) | (dsimp only; split) | split | (rw [foldl_hbm] <;> intros) | (have hk := congrArg (fun r => r.1.mem.hbm) ‹_ = (_, _)›; simp_all; done) | (simp_all; done)

@[simp] theorem Chip.ctlSqFollows_hbm (c : Chip) (fn : Nat) : (c.ctlSqFollows fn).mem.hbm = c.mem.hbm := by
  unfold Chip.ctlSqFollows
  repeat' first | (simp; done) | (dsimp only; split) | split | (rw [foldl_hbm] <;> intros) | (have hk := congrArg (fun r => r.1.mem.hbm) ‹_ = (_, _)›; simp_all; done) | (simp_all; done)

@[simp] theorem Chip.ctlError_hbm (c : Chip) (fn : Nat) (cq : Bool) (cause : Nat) : (c.ctlError fn cq cause).mem.hbm = c.mem.hbm := by
  unfold Chip.ctlError
  repeat' first | (simp; done) | (dsimp only; split) | split | (rw [foldl_hbm] <;> intros) | (have hk := congrArg (fun r => r.1.mem.hbm) ‹_ = (_, _)›; simp_all; done) | (simp_all; done)

@[simp] theorem Chip.ctlCqe_hbm (c : Chip) (fn : Nat) (p : Completion) : (c.ctlCqe fn p).mem.hbm = c.mem.hbm := by
  unfold Chip.ctlCqe
  repeat' first | (simp; done) | (dsimp only; split) | split | (rw [foldl_hbm] <;> intros) | (have hk := congrArg (fun r => r.1.mem.hbm) ‹_ = (_, _)›; simp_all; done) | (simp_all; done)

@[simp] theorem Chip.ctlTakeBacklog_hbm (c : Chip) (fn : Nat) (p : Completion) : (c.ctlTakeBacklog fn p).mem.hbm = c.mem.hbm := by
  unfold Chip.ctlTakeBacklog
  repeat' first | (simp; done) | (dsimp only; split) | split | (rw [foldl_hbm] <;> intros) | (have hk := congrArg (fun r => r.1.mem.hbm) ‹_ = (_, _)›; simp_all; done) | (simp_all; done)

@[simp] theorem Chip.ctlComplete_hbm (c : Chip) (fn : Nat) (p : Completion) : (c.ctlComplete fn p).mem.hbm = c.mem.hbm := by
  unfold Chip.ctlComplete
  repeat' first | (simp; done) | (dsimp only; split) | split | (rw [foldl_hbm] <;> intros) | (have hk := congrArg (fun r => r.1.mem.hbm) ‹_ = (_, _)›; simp_all; done) | (simp_all; done)

@[simp] theorem Chip.ctlDone_hbm (c : Chip) (fn : Nat) (e : Entry) (qn reason : Nat) : (c.ctlDone fn e qn reason).mem.hbm = c.mem.hbm := by
  unfold Chip.ctlDone
  repeat' first | (simp; done) | (dsimp only; split) | split | (rw [foldl_hbm] <;> intros) | (have hk := congrArg (fun r => r.1.mem.hbm) ‹_ = (_, _)›; simp_all; done) | (simp_all; done)

@[simp] theorem Chip.ctlConsume_hbm (c : Chip) (fn : Nat) : (c.ctlConsume fn).mem.hbm = c.mem.hbm := by
  unfold Chip.ctlConsume
  repeat' first | (simp; done) | (dsimp only; split) | split | (rw [foldl_hbm] <;> intros) | (have hk := congrArg (fun r => r.1.mem.hbm) ‹_ = (_, _)›; simp_all; done) | (simp_all; done)

@[simp] theorem Chip.ctlStart_hbm (c : Chip) (fn : Nat) (idx : CtlIndices) : (c.ctlStart fn idx).mem.hbm = c.mem.hbm := by
  unfold Chip.ctlStart
  repeat' first | (simp; done) | (dsimp only; split) | split | (rw [foldl_hbm] <;> intros) | (have hk := congrArg (fun r => r.1.mem.hbm) ‹_ = (_, _)›; simp_all; done) | (simp_all; done)

@[simp] theorem Chip.ctlStop_hbm (c : Chip) (fn : Nat) : (c.ctlStop fn).mem.hbm = c.mem.hbm := by
  unfold Chip.ctlStop
  repeat' first | (simp; done) | (dsimp only; split) | split | (rw [foldl_hbm] <;> intros) | (have hk := congrArg (fun r => r.1.mem.hbm) ‹_ = (_, _)›; simp_all; done) | (simp_all; done)

@[simp] theorem Chip.ctlSetupWrite_hbm (c : Chip) (fn v : Nat) (idx : CtlIndices) : (c.ctlSetupWrite fn v idx).1.mem.hbm = c.mem.hbm := by
  unfold Chip.ctlSetupWrite
  repeat' first | (simp; done) | (dsimp only; split) | split | (rw [foldl_hbm] <;> intros) | (have hk := congrArg (fun r => r.1.mem.hbm) ‹_ = (_, _)›; simp_all; done) | (simp_all; done)

@[simp] theorem Chip.drainBacklog_hbm (c : Chip) (h cqn : Nat) (z0 : Nat) : (c.drainBacklog h cqn z0).mem.hbm = c.mem.hbm := by
  induction z0 generalizing c h cqn <;> unfold Chip.drainBacklog <;> repeat' first | (simp; done) | (dsimp only; split) | split | (rw [foldl_hbm] <;> intros) | (have hk := congrArg (fun r => r.1.mem.hbm) ‹_ = (_, _)›; simp_all; done) | (simp_all; done)

@[simp] theorem Chip.takeCi_hbm (c : Chip) (h qn : Nat) (q : Queue) (ci : BitVec 32) : (c.takeCi h qn q ci).mem.hbm = c.mem.hbm := by
  unfold Chip.takeCi
  repeat' first | (simp; done) | (dsimp only; split) | split | (rw [foldl_hbm] <;> intros) | (have hk := congrArg (fun r => r.1.mem.hbm) ‹_ = (_, _)›; simp_all; done) | (simp_all; done)

@[simp] theorem Chip.backlogPoisoned_hbm (c : Chip) (h cqn : Nat) (q : Queue) : (c.backlogPoisoned h cqn q).mem.hbm = c.mem.hbm := by
  unfold Chip.backlogPoisoned
  repeat' first | (simp; done) | (dsimp only; split) | split | (rw [foldl_hbm] <;> intros) | (have hk := congrArg (fun r => r.1.mem.hbm) ‹_ = (_, _)›; simp_all; done) | (simp_all; done)

@[simp] theorem Chip.ctlDrain_hbm (c : Chip) (fn : Nat) (z0 : Nat) : (c.ctlDrain fn z0).mem.hbm = c.mem.hbm := by
  induction z0 generalizing c fn <;> unfold Chip.ctlDrain <;> repeat' first | (simp; done) | (dsimp only; split) | split | (rw [foldl_hbm] <;> intros) | (have hk := congrArg (fun r => r.1.mem.hbm) ‹_ = (_, _)›; simp_all; done) | (simp_all; done)

@[simp] theorem Chip.ctlBacklogDrain_hbm (c : Chip) (fn : Nat) (ci : BitVec 32) (poisoned : Bool) : (c.ctlBacklogDrain fn ci poisoned).mem.hbm = c.mem.hbm := by
  unfold Chip.ctlBacklogDrain
  repeat' first | (simp; done) | (dsimp only; split) | split | (rw [foldl_hbm] <;> intros) | (have hk := congrArg (fun r => r.1.mem.hbm) ‹_ = (_, _)›; simp_all; done) | (simp_all; done)

@[simp] theorem Chip.backlogDrain_hbm (c : Chip) (fn cqn : Nat) (ci : BitVec 32) (poisoned : Bool) : (c.backlogDrain fn cqn ci poisoned).mem.hbm = c.mem.hbm := by
  unfold Chip.backlogDrain
  repeat' first | (simp; done) | (dsimp only; split) | split | (rw [foldl_hbm] <;> intros) | (have hk := congrArg (fun r => r.1.mem.hbm) ‹_ = (_, _)›; simp_all; done) | (simp_all; done)

@[simp] theorem Chip.discardDoorbell_hbm (c : Chip) (fn : Nat) : (c.discardDoorbell fn).mem.hbm = c.mem.hbm := by
  unfold Chip.discardDoorbell
  repeat' first | (simp; done) | (dsimp only; split) | split | (rw [foldl_hbm] <;> intros) | (have hk := congrArg (fun r => r.1.mem.hbm) ‹_ = (_, _)›; simp_all; done) | (simp_all; done)

@[simp] theorem Chip.doorbell_hbm (c : Chip) (fn off : Nat) (whole : Bool) (w : Word) (op : Nat) (f : Chip → Chip) (hf : ∀ c, (f c).mem.hbm = c.mem.hbm) : (c.doorbell fn off whole w op f).mem.hbm = c.mem.hbm := by
  unfold Chip.doorbell
  repeat' first | (simp; done) | (dsimp only; split) | split | (rw [foldl_hbm] <;> intros) | (have hk := congrArg (fun r => r.1.mem.hbm) ‹_ = (_, _)›; simp_all; done) | (simp_all; done)

@[simp] theorem Chip.ringQueue_hbm (c : Chip) (fn : Nat) (w : Word) (hinted : Bool) : (c.ringQueue fn w hinted).mem.hbm = c.mem.hbm := by
  unfold Chip.ringQueue
  repeat' first | (simp; done) | (dsimp only; split) | split | (rw [foldl_hbm] <;> intros) | (have hk := congrArg (fun r => r.1.mem.hbm) ‹_ = (_, _)›; simp_all; done) | (simp_all; done)

@[simp] theorem Chip.invalidateQueue_hbm (c : Chip) (fn : Nat) (w : Word) : (c.invalidateQueue fn w).mem.hbm = c.mem.hbm := by
  unfold Chip.invalidateQueue
  repeat' first | (simp; done) | (dsimp only; split) | split | (rw [foldl_hbm] <;> intros) | (have hk := congrArg (fun r => r.1.mem.hbm) ‹_ = (_, _)›; simp_all; done) | (simp_all; done)

@[simp] theorem Chip.armQueue_hbm (c : Chip) (fn : Nat) (w : Word) (idx : IndexRead) : (c.armQueue fn w idx).mem.hbm = c.mem.hbm := by
  unfold Chip.armQueue
  repeat' first | (simp; done) | (dsimp only; split) | split | (rw [foldl_hbm] <;> intros) | (have hk := congrArg (fun r => r.1.mem.hbm) ‹_ = (_, _)›; simp_all; done) | (simp_all; done)

@[simp] theorem Chip.indexRead_hbm (c : Chip) (fn qn : Nat) (idx : IndexRead) (fetched : List Entry) : (c.indexRead fn qn idx fetched).mem.hbm = c.mem.hbm := by
  unfold Chip.indexRead
  repeat' first | (simp; done) | (dsimp only; split) | split | (rw [foldl_hbm] <;> intros) | (have hk := congrArg (fun r => r.1.mem.hbm) ‹_ = (_, _)›; simp_all; done) | (simp_all; done)

@[simp] theorem Chip.queueReadFails_hbm (c : Chip) (fn qn : Nat) (what : QueueRead) : (c.queueReadFails fn qn what).mem.hbm = c.mem.hbm := by
  unfold Chip.queueReadFails
  repeat' first | (simp; done) | (dsimp only; split) | split | (rw [foldl_hbm] <;> intros) | (have hk := congrArg (fun r => r.1.mem.hbm) ‹_ = (_, _)›; simp_all; done) | (simp_all; done)

@[simp] theorem Chip.checkIndices_hbm (c : Chip) (h qn : Nat) (idx : IndexRead) : (c.checkIndices h qn idx).mem.hbm = c.mem.hbm := by
  unfold Chip.checkIndices
  repeat' first | (simp; done) | (dsimp only; split) | split | (rw [foldl_hbm] <;> intros) | (have hk := congrArg (fun r => r.1.mem.hbm) ‹_ = (_, _)›; simp_all; done) | (simp_all; done)

@[simp] theorem Chip.createQueue_hbm (c : Chip) (fn : Nat) (e : Entry) (qn : Nat) (idx : IndexRead) : (c.createQueue fn e qn idx).mem.hbm = c.mem.hbm := by
  unfold Chip.createQueue
  repeat' first | (simp; done) | (dsimp only; split) | split | (rw [foldl_hbm] <;> intros) | (have hk := congrArg (fun r => r.1.mem.hbm) ‹_ = (_, _)›; simp_all; done) | (simp_all; done)

@[simp] theorem Chip.removeQueue_hbm (c : Chip) (h qn : Nat) : (c.removeQueue h qn).mem.hbm = c.mem.hbm := by
  unfold Chip.removeQueue
  repeat' first | (simp; done) | (dsimp only; split) | split | (rw [foldl_hbm] <;> intros) | (have hk := congrArg (fun r => r.1.mem.hbm) ‹_ = (_, _)›; simp_all; done) | (simp_all; done)

@[simp] theorem Chip.finishDestroy_hbm (c : Chip) (h qn : Nat) : (c.finishDestroy h qn).mem.hbm = c.mem.hbm := by
  unfold Chip.finishDestroy
  repeat' first | (simp; done) | (dsimp only; split) | split | (rw [foldl_hbm] <;> intros) | (have hk := congrArg (fun r => r.1.mem.hbm) ‹_ = (_, _)›; simp_all; done) | (simp_all; done)

@[simp] theorem Chip.finishDestroys_hbm (c : Chip)  : (c.finishDestroys).mem.hbm = c.mem.hbm := by
  unfold Chip.finishDestroys
  repeat' first | (simp; done) | (dsimp only; split) | split | (rw [foldl_hbm] <;> intros) | (have hk := congrArg (fun r => r.1.mem.hbm) ‹_ = (_, _)›; simp_all; done) | (simp_all; done)

@[simp] theorem Chip.destroyQueue_hbm (c : Chip) (fn : Nat) (e : Entry) : (c.destroyQueue fn e).mem.hbm = c.mem.hbm := by
  unfold Chip.destroyQueue
  repeat' first | (simp; done) | (dsimp only; split) | split | (rw [foldl_hbm] <;> intros) | (have hk := congrArg (fun r => r.1.mem.hbm) ‹_ = (_, _)›; simp_all; done) | (simp_all; done)

@[simp] theorem Chip.resetQueue_hbm (c : Chip) (fn : Nat) (e : Entry) (idx : IndexRead) : (c.resetQueue fn e idx).mem.hbm = c.mem.hbm := by
  unfold Chip.resetQueue
  repeat' first | (simp; done) | (dsimp only; split) | split | (rw [foldl_hbm] <;> intros) | (have hk := congrArg (fun r => r.1.mem.hbm) ‹_ = (_, _)›; simp_all; done) | (simp_all; done)

@[simp] theorem Chip.engineReset_hbm (c : Chip) (u : Nat) : (c.engineReset u).mem.hbm = c.mem.hbm := by
  unfold Chip.engineReset
  repeat' first | (simp; done) | (dsimp only; split) | split | (rw [foldl_hbm] <;> intros) | (have hk := congrArg (fun r => r.1.mem.hbm) ‹_ = (_, _)›; simp_all; done) | (simp_all; done)

@[simp] theorem Chip.bridgeBlockReset_hbm (c : Chip)  : (c.bridgeBlockReset).mem.hbm = c.mem.hbm := by
  unfold Chip.bridgeBlockReset
  repeat' first | (simp; done) | (dsimp only; split) | split | (rw [foldl_hbm] <;> intros) | (have hk := congrArg (fun r => r.1.mem.hbm) ‹_ = (_, _)›; simp_all; done) | (simp_all; done)

@[simp] theorem Chip.carriedEnd_hbm (c : Chip) (o : SendOp) : (c.carriedEnd o).mem.hbm = c.mem.hbm := by
  unfold Chip.carriedEnd
  repeat' first | (simp; done) | (dsimp only; split) | split | (rw [foldl_hbm] <;> intros) | (have hk := congrArg (fun r => r.1.mem.hbm) ‹_ = (_, _)›; simp_all; done) | (simp_all; done)

@[simp] theorem Chip.padIdle_hbm (c : Chip) (p : Nat) : (c.padIdle p).mem.hbm = c.mem.hbm := by
  unfold Chip.padIdle
  repeat' first | (simp; done) | (dsimp only; split) | split | (rw [foldl_hbm] <;> intros) | (have hk := congrArg (fun r => r.1.mem.hbm) ‹_ = (_, _)›; simp_all; done) | (simp_all; done)

@[simp] theorem Chip.finishLinks_hbm (c : Chip)  : (c.finishLinks).mem.hbm = c.mem.hbm := by
  unfold Chip.finishLinks
  repeat' first | (simp; done) | (dsimp only; split) | split | (rw [foldl_hbm] <;> intros) | (have hk := congrArg (fun r => r.1.mem.hbm) ‹_ = (_, _)›; simp_all; done) | (simp_all; done)

@[simp] theorem Chip.effect10_hbm (c : Chip) (old : Chip) : (c.effect10 old).mem.hbm = c.mem.hbm := by
  unfold Chip.effect10
  dsimp only
  rw [Chip.heldAgain_hbm, foldl_hbm]
  · split <;> simp
  · intros; repeat' first | (simp; done) | split

@[simp] theorem Chip.keepShapers_hbm (c : Chip) (old : Chip) : (c.keepShapers old).mem.hbm = c.mem.hbm := by
  unfold Chip.keepShapers
  repeat' first | (simp; done) | (dsimp only; split) | split | (rw [foldl_hbm] <;> intros) | (have hk := congrArg (fun r => r.1.mem.hbm) ‹_ = (_, _)›; simp_all; done) | (simp_all; done)

@[simp] theorem Chip.keepPolicers_hbm (c : Chip) (old : Chip) : (c.keepPolicers old).mem.hbm = c.mem.hbm := by
  unfold Chip.keepPolicers
  repeat' first | (simp; done) | (dsimp only; split) | split | (rw [foldl_hbm] <;> intros) | (have hk := congrArg (fun r => r.1.mem.hbm) ‹_ = (_, _)›; simp_all; done) | (simp_all; done)

@[simp] theorem Chip.gateFollow_hbm (c : Chip) (old : Chip) (p : Nat) : (c.gateFollow old p).mem.hbm = c.mem.hbm := by
  unfold Chip.gateFollow
  repeat' first | (simp; done) | (dsimp only; split) | split | (rw [foldl_hbm] <;> intros) | (have hk := congrArg (fun r => r.1.mem.hbm) ‹_ = (_, _)›; simp_all; done) | (simp_all; done)

@[simp] theorem Chip.gatesFollow_hbm (c : Chip) (old : Chip) (l : List Nat) : (c.gatesFollow old l).mem.hbm = c.mem.hbm := by
  unfold Chip.gatesFollow
  repeat' first | (simp; done) | (dsimp only; split) | split | (rw [foldl_hbm] <;> intros) | (have hk := congrArg (fun r => r.1.mem.hbm) ‹_ = (_, _)›; simp_all; done) | (simp_all; done)

@[simp] theorem Chip.effect1A_hbm (c : Chip) (old : Chip) : (c.effect1A old).mem.hbm = c.mem.hbm := by
  unfold Chip.effect1A
  repeat' first | (simp; done) | (dsimp only; split) | split | (rw [foldl_hbm] <;> intros) | (have hk := congrArg (fun r => r.1.mem.hbm) ‹_ = (_, _)›; simp_all; done) | (simp_all; done)

@[simp] theorem Chip.effect24_hbm (c : Chip) (old : Chip) : (c.effect24 old).mem.hbm = c.mem.hbm := by
  unfold Chip.effect24
  repeat' first | (simp; done) | (dsimp only; split) | split | (rw [foldl_hbm] <;> intros) | (have hk := congrArg (fun r => r.1.mem.hbm) ‹_ = (_, _)›; simp_all; done) | (simp_all; done)

@[simp] theorem Chip.setEffect_hbm (c : Chip) (old : Chip) (s : Nat) : (c.setEffect old s).mem.hbm = c.mem.hbm := by
  unfold Chip.setEffect
  repeat' first | (simp; done) | (dsimp only; split) | split | (rw [foldl_hbm] <;> intros) | (have hk := congrArg (fun r => r.1.mem.hbm) ‹_ = (_, _)›; simp_all; done) | (simp_all; done)

@[simp] theorem Chip.withStaged_hbm (c : Chip) (s : Nat) : (c.withStaged s).mem.hbm = c.mem.hbm := by
  unfold Chip.withStaged
  repeat' first | (simp; done) | (dsimp only; split) | split | (rw [foldl_hbm] <;> intros) | (have hk := congrArg (fun r => r.1.mem.hbm) ‹_ = (_, _)›; simp_all; done) | (simp_all; done)

@[simp] theorem Chip.takeEffect_hbm (c : Chip) (s : Nat) : (c.takeEffect s).mem.hbm = c.mem.hbm := by
  unfold Chip.takeEffect
  repeat' first | (simp; done) | (dsimp only; split) | split | (rw [foldl_hbm] <;> intros) | (have hk := congrArg (fun r => r.1.mem.hbm) ‹_ = (_, _)›; simp_all; done) | (simp_all; done)

@[simp] theorem Chip.putResult_hbm (c : Chip) (s : Nat) (r : Word) : (c.putResult s r).mem.hbm = c.mem.hbm := by
  unfold Chip.putResult
  repeat' first | (simp; done) | (dsimp only; split) | split | (rw [foldl_hbm] <;> intros) | (have hk := congrArg (fun r => r.1.mem.hbm) ‹_ = (_, _)›; simp_all; done) | (simp_all; done)

@[simp] theorem Chip.commitSet_hbm (c : Chip) (s : Nat) (t : Word) : (c.commitSet s t).1.mem.hbm = c.mem.hbm := by
  unfold Chip.commitSet
  repeat' first | (simp; done) | (dsimp only; split) | split | (rw [foldl_hbm] <;> intros) | (have hk := congrArg (fun r => r.1.mem.hbm) ‹_ = (_, _)›; simp_all; done) | (simp_all; done)

@[simp] theorem Chip.stage_hbm (c : Chip) (w : Writer) (s n x : Nat) : (c.stage w s n x).mem.hbm = c.mem.hbm := by
  unfold Chip.stage
  repeat' first | (simp; done) | (dsimp only; split) | split | (rw [foldl_hbm] <;> intros) | (have hk := congrArg (fun r => r.1.mem.hbm) ‹_ = (_, _)›; simp_all; done) | (simp_all; done)

@[simp] theorem Chip.setDue_hbm (c : Chip) (s : Nat) : (c.setDue s).mem.hbm = c.mem.hbm := by
  unfold Chip.setDue
  repeat' first | (simp; done) | (dsimp only; split) | split | (rw [foldl_hbm] <;> intros) | (have hk := congrArg (fun r => r.1.mem.hbm) ‹_ = (_, _)›; simp_all; done) | (simp_all; done)

@[simp] theorem Chip.holderTimeout_hbm (c : Chip) (s : Nat) : (c.holderTimeout s).mem.hbm = c.mem.hbm := by
  unfold Chip.holderTimeout
  repeat' first | (simp; done) | (dsimp only; split) | split | (rw [foldl_hbm] <;> intros) | (have hk := congrArg (fun r => r.1.mem.hbm) ‹_ = (_, _)›; simp_all; done) | (simp_all; done)

@[simp] theorem Chip.saveStart_hbm (c : Chip)  : (c.saveStart).1.mem.hbm = c.mem.hbm := by
  unfold Chip.saveStart
  repeat' first | (simp; done) | (dsimp only; split) | split | (rw [foldl_hbm] <;> intros) | (have hk := congrArg (fun r => r.1.mem.hbm) ‹_ = (_, _)›; simp_all; done) | (simp_all; done)

@[simp] theorem Chip.saveDone_hbm (c : Chip) (ok : Bool) : (c.saveDone ok).mem.hbm = c.mem.hbm := by
  unfold Chip.saveDone
  repeat' first | (simp; done) | (dsimp only; split) | split | (rw [foldl_hbm] <;> intros) | (have hk := congrArg (fun r => r.1.mem.hbm) ‹_ = (_, _)›; simp_all; done) | (simp_all; done)

@[simp] theorem Chip.calStore_hbm (c : Chip)  : (c.calStore).1.mem.hbm = c.mem.hbm := by
  unfold Chip.calStore
  repeat' first | (simp; done) | (dsimp only; split) | split | (rw [foldl_hbm] <;> intros) | (have hk := congrArg (fun r => r.1.mem.hbm) ‹_ = (_, _)›; simp_all; done) | (simp_all; done)

@[simp] theorem Chip.calStored_hbm (c : Chip)  : (c.calStored).mem.hbm = c.mem.hbm := by
  unfold Chip.calStored
  repeat' first | (simp; done) | (dsimp only; split) | split | (rw [foldl_hbm] <;> intros) | (have hk := congrArg (fun r => r.1.mem.hbm) ‹_ = (_, _)›; simp_all; done) | (simp_all; done)

@[simp] theorem Chip.calImageWrite_hbm (c : Chip) (l : List Byte) : (c.calImageWrite l).1.mem.hbm = c.mem.hbm := by
  unfold Chip.calImageWrite
  repeat' first | (simp; done) | (dsimp only; split) | split | (rw [foldl_hbm] <;> intros) | (have hk := congrArg (fun r => r.1.mem.hbm) ‹_ = (_, _)›; simp_all; done) | (simp_all; done)

@[simp] theorem Chip.dropFdpMctp_hbm (c : Chip)  : (c.dropFdpMctp).mem.hbm = c.mem.hbm := by
  unfold Chip.dropFdpMctp
  repeat' first | (simp; done) | (dsimp only; split) | split | (rw [foldl_hbm] <;> intros) | (have hk := congrArg (fun r => r.1.mem.hbm) ‹_ = (_, _)›; simp_all; done) | (simp_all; done)

@[simp] theorem Chip.followUps_hbm (c : Chip) (old : Chip) : (c.followUps old).mem.hbm = c.mem.hbm := by
  unfold Chip.followUps
  extract_lets c1 c2 c3 c4
  have h1 : c1.mem.hbm = c.mem.hbm := by
    show (List.foldl _ c _).mem.hbm = _
    rw [foldl_hbm]; intros; split <;> simp
  have h2 : c2.mem.hbm = c.mem.hbm := by
    show (if _ then _ else _ : Chip).mem.hbm = _
    split
    · rw [Chip.dropFdpMctp_hbm, h1]
    · exact h1
  rw [Chip.retireRuleChanged_hbm]
  exact h2

@[simp] theorem Chip.restore_hbm (c : Chip) (bank : Option Bank) : (c.restore bank).1.mem.hbm = c.mem.hbm := by
  unfold Chip.restore
  repeat' first | (simp; done) | (dsimp only; split) | split | (rw [foldl_hbm] <;> intros) | (have hk := congrArg (fun r => r.1.mem.hbm) ‹_ = (_, _)›; simp_all; done) | (simp_all; done)

@[simp] theorem Chip.freeIndices_hbm (c : Chip)  : (c.freeIndices).1.mem.hbm = c.mem.hbm := by
  unfold Chip.freeIndices
  repeat' first | (simp; done) | (dsimp only; split) | split | (rw [foldl_hbm] <;> intros) | (have hk := congrArg (fun r => r.1.mem.hbm) ‹_ = (_, _)›; simp_all; done) | (simp_all; done)

@[simp] theorem Chip.updateCommand_hbm (c : Chip) (x : Nat) : (c.updateCommand x).1.mem.hbm = c.mem.hbm := by
  unfold Chip.updateCommand
  repeat' first | (simp; done) | (dsimp only; split) | split | (rw [foldl_hbm] <;> intros) | (have hk := congrArg (fun r => r.1.mem.hbm) ‹_ = (_, _)›; simp_all; done) | (simp_all; done)

@[simp] theorem Chip.command_hbm (c : Chip) (area obj e x : Nat) (l : List Byte) : (c.command area obj e x l).1.mem.hbm = c.mem.hbm := by
  unfold Chip.command
  repeat' first | (simp; done) | (dsimp only; split) | split | (rw [foldl_hbm] <;> intros) | (have hk := congrArg (fun r => r.1.mem.hbm) ‹_ = (_, _)›; simp_all; done) | (simp_all; done)

@[simp] theorem Chip.clearBits_hbm (c : Chip) (area obj e x : Nat) : (c.clearBits area obj e x).mem.hbm = c.mem.hbm := by
  unfold Chip.clearBits
  repeat' first | (simp; done) | (dsimp only; split) | split | (rw [foldl_hbm] <;> intros) | (have hk := congrArg (fun r => r.1.mem.hbm) ‹_ = (_, _)›; simp_all; done) | (simp_all; done)

@[simp] theorem Chip.checkerRestart_hbm (c : Chip) (n x : Nat) : (c.checkerRestart n x).mem.hbm = c.mem.hbm := by
  unfold Chip.checkerRestart
  repeat' first | (simp; done) | (dsimp only; split) | split | (rw [foldl_hbm] <;> intros) | (have hk := congrArg (fun r => r.1.mem.hbm) ‹_ = (_, _)›; simp_all; done) | (simp_all; done)

@[simp] theorem Chip.writeKey_hbm (c : Chip) (l : List Byte) : (c.writeKey l).mem.hbm = c.mem.hbm := by
  unfold Chip.writeKey
  repeat' first | (simp; done) | (dsimp only; split) | split | (rw [foldl_hbm] <;> intros) | (have hk := congrArg (fun r => r.1.mem.hbm) ‹_ = (_, _)›; simp_all; done) | (simp_all; done)

@[simp] theorem Chip.writeBlob_hbm (c : Chip) (n : Nat) (l : List Byte) : (c.writeBlob n l).1.mem.hbm = c.mem.hbm := by
  unfold Chip.writeBlob
  repeat' first | (simp; done) | (dsimp only; split) | split | (rw [foldl_hbm] <;> intros) | (have hk := congrArg (fun r => r.1.mem.hbm) ‹_ = (_, _)›; simp_all; done) | (simp_all; done)

@[simp] theorem Chip.dropHeld_hbm (c : Chip) (p : Writer) : (c.dropHeld p).mem.hbm = c.mem.hbm := by
  unfold Chip.dropHeld
  repeat' first | (simp; done) | (dsimp only; split) | split | (rw [foldl_hbm] <;> intros) | (have hk := congrArg (fun r => r.1.mem.hbm) ‹_ = (_, _)›; simp_all; done) | (simp_all; done)

@[simp] theorem Chip.chunkRules_hbm (c : Chip) (p : Writer) (n : BitVec 32) (isWrite : Bool) (tag : Nat) : (c.chunkRules p n isWrite tag).mem.hbm = c.mem.hbm := by
  unfold Chip.chunkRules
  repeat' first | (simp; done) | (dsimp only; split) | split | (rw [foldl_hbm] <;> intros) | (have hk := congrArg (fun r => r.1.mem.hbm) ‹_ = (_, _)›; simp_all; done) | (simp_all; done)

@[simp] theorem Chip.holdChunk_hbm (c : Chip) (p : Writer) (n : BitVec 32) (off : Nat) (l : List Byte) (tag vlen : Nat) : (c.holdChunk p n off l tag vlen).mem.hbm = c.mem.hbm := by
  unfold Chip.holdChunk
  repeat' first | (simp; done) | (dsimp only; split) | split | (rw [foldl_hbm] <;> intros) | (have hk := congrArg (fun r => r.1.mem.hbm) ‹_ = (_, _)›; simp_all; done) | (simp_all; done)

@[simp] theorem Chip.chunkExpiry_hbm (c : Chip) (p : Writer) : (c.chunkExpiry p).mem.hbm = c.mem.hbm := by
  unfold Chip.chunkExpiry
  repeat' first | (simp; done) | (dsimp only; split) | split | (rw [foldl_hbm] <;> intros) | (have hk := congrArg (fun r => r.1.mem.hbm) ‹_ = (_, _)›; simp_all; done) | (simp_all; done)

@[simp] theorem Chip.updMailbox_hbm (c : Chip) (h : Nat) (f : Mailbox → Mailbox) : (c.updMailbox h f).mem.hbm = c.mem.hbm := by
  unfold Chip.updMailbox
  repeat' first | (simp; done) | (dsimp only; split) | split | (rw [foldl_hbm] <;> intros) | (have hk := congrArg (fun r => r.1.mem.hbm) ‹_ = (_, _)›; simp_all; done) | (simp_all; done)

@[simp] theorem Chip.mbxDone_hbm (c : Chip) (h : Nat) (a : Answer) : (c.mbxDone h a).mem.hbm = c.mem.hbm := by
  unfold Chip.mbxDone
  repeat' first | (simp; done) | (dsimp only; split) | split | (rw [foldl_hbm] <;> intros) | (have hk := congrArg (fun r => r.1.mem.hbm) ‹_ = (_, _)›; simp_all; done) | (simp_all; done)

@[simp] theorem Chip.mbxTake_hbm (c : Chip) (h op : Nat) (relay : Bool) (vf : Nat) (n : BitVec 32) : (c.mbxTake h op relay vf n).mem.hbm = c.mem.hbm := by
  unfold Chip.mbxTake
  repeat' first | (simp; done) | (dsimp only; split) | split | (rw [foldl_hbm] <;> intros) | (have hk := congrArg (fun r => r.1.mem.hbm) ‹_ = (_, _)›; simp_all; done) | (simp_all; done)

@[simp] theorem Chip.mbxCollide_hbm (c : Chip) (h : Nat) : (c.mbxCollide h).mem.hbm = c.mem.hbm := by
  unfold Chip.mbxCollide
  repeat' first | (simp; done) | (dsimp only; split) | split | (rw [foldl_hbm] <;> intros) | (have hk := congrArg (fun r => r.1.mem.hbm) ‹_ = (_, _)›; simp_all; done) | (simp_all; done)

@[simp] theorem Chip.mctpAnswer_hbm (c : Chip) (r : OpRecord) (status : Nat) (data : List Byte) : (c.mctpAnswer r status data).mem.hbm = c.mem.hbm := by
  unfold Chip.mctpAnswer
  repeat' first | (simp; done) | (dsimp only; split) | split | (rw [foldl_hbm] <;> intros) | (have hk := congrArg (fun r => r.1.mem.hbm) ‹_ = (_, _)›; simp_all; done) | (simp_all; done)

@[simp] theorem Chip.assignAddress_hbm (c : Chip) (addr : Nat) : (c.assignAddress addr).mem.hbm = c.mem.hbm := by
  unfold Chip.assignAddress
  repeat' first | (simp; done) | (dsimp only; split) | split | (rw [foldl_hbm] <;> intros) | (have hk := congrArg (fun r => r.1.mem.hbm) ‹_ = (_, _)›; simp_all; done) | (simp_all; done)

@[simp] theorem Chip.shimAnswer_hbm (c : Chip) (p : Packet) (l : List Word) : (c.shimAnswer p l).mem.hbm = c.mem.hbm := by
  unfold Chip.shimAnswer
  repeat' first | (simp; done) | (dsimp only; split) | split | (rw [foldl_hbm] <;> intros) | (have hk := congrArg (fun r => r.1.mem.hbm) ‹_ = (_, _)›; simp_all; done) | (simp_all; done)

@[simp] theorem Chip.shimKeep_hbm (c : Chip) (p : Packet) (l : List Word) : (c.shimKeep p l).mem.hbm = c.mem.hbm := by
  unfold Chip.shimKeep
  repeat' first | (simp; done) | (dsimp only; split) | split | (rw [foldl_hbm] <;> intros) | (have hk := congrArg (fun r => r.1.mem.hbm) ‹_ = (_, _)›; simp_all; done) | (simp_all; done)

@[simp] theorem Chip.unserved_hbm (c : Chip) (w : Writer) : (c.unserved w).mem.hbm = c.mem.hbm := by
  unfold Chip.unserved
  repeat' first | (simp; done) | (dsimp only; split) | split | (rw [foldl_hbm] <;> intros) | (have hk := congrArg (fun r => r.1.mem.hbm) ‹_ = (_, _)›; simp_all; done) | (simp_all; done)

@[simp] theorem Chip.bar0Read_hbm (c : Chip) (fn off : Nat) (wide : Bool) : (c.bar0Read fn off wide).mem.hbm = c.mem.hbm := by
  unfold Chip.bar0Read
  repeat' first | (simp; done) | (dsimp only; split) | split | (rw [foldl_hbm] <;> intros) | (have hk := congrArg (fun r => r.1.mem.hbm) ‹_ = (_, _)›; simp_all; done) | (simp_all; done)

@[simp] theorem Chip.barRead_hbm (c : Chip) (fn : Nat) (access : BarRead) : (c.barRead fn access).mem.hbm = c.mem.hbm := by
  unfold Chip.barRead
  repeat' first | (simp; done) | (dsimp only; split) | split | (rw [foldl_hbm] <;> intros) | (have hk := congrArg (fun r => r.1.mem.hbm) ‹_ = (_, _)›; simp_all; done) | (simp_all; done)

@[simp] theorem Chip.fifoRegWrite_hbm (c : Chip) (h : Nat) (b : FifoBlock) (reg off : Nat) (wide : Bool) (v : Word) : (c.fifoRegWrite h b reg off wide v).mem.hbm = c.mem.hbm := by
  unfold Chip.fifoRegWrite
  repeat' first | (simp; done) | (dsimp only; split) | split | (rw [foldl_hbm] <;> intros) | (have hk := congrArg (fun r => r.1.mem.hbm) ‹_ = (_, _)›; simp_all; done) | (simp_all; done)

@[simp] theorem Chip.fifoWrite_hbm (c : Chip) (h off : Nat) (wide : Bool) (v : Word) : (c.fifoWrite h off wide v).mem.hbm = c.mem.hbm := by
  unfold Chip.fifoWrite
  repeat' first | (simp; done) | (dsimp only; split) | split | (rw [foldl_hbm] <;> intros) | (have hk := congrArg (fun r => r.1.mem.hbm) ‹_ = (_, _)›; simp_all; done) | (simp_all; done)

@[simp] theorem Chip.eventWrite_hbm (c : Chip) (fn off : Nat) (wide : Bool) (v : Word) : (c.eventWrite fn off wide v).mem.hbm = c.mem.hbm := by
  unfold Chip.eventWrite
  repeat' first | (simp; done) | (dsimp only; split) | split | (rw [foldl_hbm] <;> intros) | (have hk := congrArg (fun r => r.1.mem.hbm) ‹_ = (_, _)›; simp_all; done) | (simp_all; done)

@[simp] theorem Chip.msixWrite_hbm (c : Chip) (fn off : Nat) (wide : Bool) (v : Word) : (c.msixWrite fn off wide v).mem.hbm = c.mem.hbm := by
  unfold Chip.msixWrite
  repeat' first | (simp; done) | (dsimp only; split) | split | (rw [foldl_hbm] <;> intros) | (have hk := congrArg (fun r => r.1.mem.hbm) ‹_ = (_, _)›; simp_all; done) | (simp_all; done)

@[simp] theorem Chip.configWrite_hbm (c : Chip) (fn : Nat) (b : CfgBit) (w : Word) : (c.configWrite fn b w).mem.hbm = c.mem.hbm := by
  unfold Chip.configWrite
  repeat' first | (simp; done) | (dsimp only; split) | split | (rw [foldl_hbm] <;> intros) | (have hk := congrArg (fun r => r.1.mem.hbm) ‹_ = (_, _)›; simp_all; done) | (simp_all; done)

@[simp] theorem Chip.earlyWrite_hbm (c : Chip) (fn : Nat) (reg : HostReg) : (c.earlyWrite fn reg).mem.hbm = c.mem.hbm := by
  unfold Chip.earlyWrite
  repeat' first | (simp; done) | (dsimp only; split) | split | (rw [foldl_hbm] <;> intros) | (have hk := congrArg (fun r => r.1.mem.hbm) ‹_ = (_, _)›; simp_all; done) | (simp_all; done)

@[simp] theorem Chip.heldReadFails_hbm (c : Chip) (fn slot : Nat) : (c.heldReadFails fn slot).mem.hbm = c.mem.hbm := by
  unfold Chip.heldReadFails
  repeat' first | (simp; done) | (dsimp only; split) | split | (rw [foldl_hbm] <;> intros) | (have hk := congrArg (fun r => r.1.mem.hbm) ‹_ = (_, _)›; simp_all; done) | (simp_all; done)

end Sys2Proof.Machine
end

