-- ==== Sys2Proof/Laws/MemoryKept.lean ====
section
/-! SUPPORT. Every operation on fabric memory, and every operation that uses one, keeps the canonical form. -/

set_option linter.all false
namespace Sys2Proof.Machine
set_option Elab.async false
theorem foldl_wf {α : Type} {g : Chip → α → Chip} (hg : ∀ c a, Memory.wf c.mem.hbm = true → Memory.wf (g c a).mem.hbm = true) (l : List α) (c : Chip)
    (hw : Memory.wf c.mem.hbm = true) : Memory.wf (l.foldl g c).mem.hbm = true := by
  induction l generalizing c with
  | nil => exact hw
  | cons a l ih => exact ih _ (hg c a hw)
theorem pair_wf {α : Type} {p : Chip × α} {d : Chip} {k : α} (e : p = (d, k)) (h : Memory.wf p.1.mem.hbm = true) : Memory.wf d.mem.hbm = true := by
  rw [e] at h; exact h
theorem cellPut_cons (a1 : Nat) (b1 : Byte) (r : List Host.Cell) (a : Nat) (b : Byte) :
    cellPut ((a1, b1) :: r) a b = if a < a1 then (a, b) :: (a1, b1) :: r else if a = a1 then (a, b) :: r else (a1, b1) :: cellPut r a b := rfl
theorem cellsRise_cons2 (a1 a2 : Nat) (b1 b2 : Byte) (r : List Host.Cell) :
    cellsRise ((a1, b1) :: (a2, b2) :: r) = (decide (a1 < a2) && cellsRise ((a2, b2) :: r)) := rfl
theorem cellsRise_put (m : List Host.Cell) (a : Nat) (b : Byte) (h : cellsRise m = true) : cellsRise (cellPut m a b) = true := by
  induction m with
  | nil => rfl
  | cons x r ih =>
    obtain ⟨a1, b1⟩ := x
    cases r with
    | nil =>
      rw [cellPut_cons]
      split
      · simpa [cellsRise] using ‹_›
      · split
        · rfl
        · simp [cellPut, cellsRise]; omega
    | cons y r =>
      obtain ⟨a2, b2⟩ := y
      rw [cellsRise_cons2, Bool.and_eq_true, decide_eq_true_eq] at h
      have hr := ih h.2
      rw [cellPut_cons] at hr
      rw [cellPut_cons]
      split
      · rw [cellsRise_cons2, cellsRise_cons2]; simp [h]; assumption
      · split
        · subst a; rw [cellsRise_cons2]; simp [h]
        · rw [cellPut_cons]
          split at hr
          · rw [if_pos ‹_›, cellsRise_cons2, hr]; simp; omega
          · rw [if_neg ‹_›]
            split at hr
            · rw [if_pos ‹_›, cellsRise_cons2, hr]; simp; omega
            · rw [if_neg ‹_›, cellsRise_cons2, hr]; simp; omega
theorem cellWrite_wf (m : List Host.Cell) (a : Nat) (l : List Byte) (h : Memory.wf m = true) : Memory.wf (cellWrite m a l) = true := by
  induction l generalizing m a with
  | nil => exact h
  | cons b l ih => exact ih _ _ (cellsRise_put m a b h)
theorem cellsRise_head (a : Nat) (b : Byte) (r : List Host.Cell) (h : cellsRise ((a, b) :: r) = true) : cellsRise r = true := by
  cases r with
  | nil => rfl
  | cons x r => simp [cellsRise] at h; exact h.2
theorem ite_hbm (p : Prop) [Decidable p] (a b : Chip) : (if p then a else b).mem.hbm = if p then a.mem.hbm else b.mem.hbm := by
  split <;> rfl
theorem ite_wf {p : Prop} [Decidable p] {a b : Chip} (ha : Memory.wf a.mem.hbm = true) (hb : Memory.wf b.mem.hbm = true) :
    Memory.wf (if p then a else b).mem.hbm = true := by split <;> assumption
theorem Chip.takeRecv_hbm {c d : Chip} {h dqn : Nat} {e : Entry} (he : c.takeRecv h dqn = some (d, e)) : d.mem.hbm = c.mem.hbm := by
  unfold Chip.takeRecv at he
  repeat' first | contradiction | (injection he with he; injection he with he1 he2; rw [← he1]; done) | (injection he with he; injection he with he1 he2; rw [← he1]; simp; done) | split at he
theorem Chip.takeResponse_wf (c : Chip) (h : Nat) (p : Packet) (f : Chip → Nat → Chan → Chip)
    (hf : ∀ c k x, Memory.wf c.mem.hbm = true → Memory.wf (f c k x).mem.hbm = true) (hw : Memory.wf c.mem.hbm = true) :
    Memory.wf (c.takeResponse h p f).mem.hbm = true := by
  unfold Chip.takeResponse
  dsimp only
  repeat' first | (simp; assumption; done) | (refine hf _ _ _ ?_; simp; assumption; done) | split
theorem Chip.hbmWrite_wf (c : Chip) (a : Nat) (l : List Byte) (hw : Memory.wf c.mem.hbm = true) : Memory.wf (c.hbmWrite a l).mem.hbm = true := by
  exact cellWrite_wf _ _ _ hw

theorem Chip.place_wf (c : Chip) (k : KeyCheck) (l : List Byte) (bad : Nat) (hw : Memory.wf c.mem.hbm = true) : Memory.wf (c.place k l bad).1.mem.hbm = true := by
  unfold Chip.place
  repeat' first | assumption | (simp; done) | (simp; assumption; done) | (dsimp only; split) | split | apply Chip.hbmWrite_wf | (apply foldl_wf <;> intros) | (refine pair_wf (by assumption) ?_) | (simp; done) | simp

theorem Chip.eqRequest_wf (c : Chip) (p l : Nat) (b : TrainBlock) (hw : Memory.wf c.mem.hbm = true) : Memory.wf (c.eqRequest p l b).mem.hbm = true := by
  have h : (c.eqRequest p l b).mem.hbm = c.mem.hbm := by
    unfold Chip.eqRequest
    apply Chip.otherBlock_hbm
    intro c
    repeat' first | (simp; done) | (dsimp only; split) | split
  rw [h]; exact hw

theorem Chip.cxlBytes_wf (c : Chip) (o : Nat) (l : List (Option Byte)) (hw : Memory.wf c.mem.hbm = true) : Memory.wf (c.cxlBytes o l).mem.hbm = true := by
  unfold Chip.cxlBytes
  repeat' first | assumption | (simp; done) | (simp; assumption; done) | (dsimp only; split) | split | apply Chip.hbmWrite_wf | (apply foldl_wf <;> intros) | (refine pair_wf (by assumption) ?_) | (simp; done) | simp

theorem Chip.cxlWrite_wf (c : Chip) (h d : Nat) (l : List (Option Byte)) (hw : Memory.wf c.mem.hbm = true) : Memory.wf (c.cxlWrite h d l).mem.hbm = true := by
  unfold Chip.cxlWrite
  repeat' first | assumption | (simp; done) | (simp; assumption; done) | (dsimp only; split) | split | apply Chip.cxlBytes_wf | (apply foldl_wf <;> intros) | (refine pair_wf (by assumption) ?_) | (simp; done) | simp

theorem Chip.copyComplete_wf (c : Chip) (id : Nat) (poisoned : Bool) (hw : Memory.wf c.mem.hbm = true) : Memory.wf (c.copyComplete id poisoned).mem.hbm = true := by
  unfold Chip.copyComplete
  split
  · exact hw
  · rename_i y _
    split
    · exact hw
    · extract_lets h fn e s1 c1 len
      have hw1 : Memory.wf c1.mem.hbm = true := hw
      clear_value c1
      have hf : ∀ (l : List (Nat × List Byte)) (r : Chip × Option Nat), Memory.wf r.1.mem.hbm = true →
          Memory.wf (l.foldl (fun (r : Chip × Option Nat) d =>
            let fits := min d.2.length (e.length - 4096 * d.1)
            if fits = 0 ∨ r.2.isSome then r
            else r.1.place (r.1.localCheck fn e.rLkey (e.rLaddr + 4096 * d.1) fits true) (d.2.take fits) 2) r).1.mem.hbm = true := by
        intro l
        induction l with
        | nil => exact fun r h => h
        | cons d l ih =>
          intro r h
          rw [List.foldl_cons]
          refine ih _ ?_
          dsimp only
          split
          · exact h
          · exact Chip.place_wf _ _ _ _ h
      have h2 := hf y.msg.data (c1, none) hw1
      revert h2
      generalize List.foldl _ (c1, none) y.msg.data = r
      intro h2
      obtain ⟨d, bad⟩ := r
      simp only at h2
      dsimp only
      rw [Chip.completeRecv_hbm]
      split
      · rw [Chip.poisonDevice_hbm]; exact h2
      · exact h2

theorem Chip.placeRecv_wf (c : Chip) (fn : Nat) (e : Entry) (i : Nat) (l : List Byte) (hw : Memory.wf c.mem.hbm = true) : Memory.wf (c.placeRecv fn e i l).1.mem.hbm = true := by
  unfold Chip.placeRecv
  repeat' first | assumption | (simp; done) | (simp; assumption; done) | (dsimp only; split) | split | apply Chip.place_wf | (apply foldl_wf <;> intros) | (refine pair_wf (by assumption) ?_) | (simp; done) | simp

theorem Chip.takeIntoBuffer_wf (c : Chip) (h k : Nat) (p : Packet) (r : RxMsg) (e : Entry) (hw : Memory.wf c.mem.hbm = true) : Memory.wf (c.takeIntoBuffer h k p r e).1.mem.hbm = true := by
  unfold Chip.takeIntoBuffer
  repeat' first | assumption | (simp; done) | (simp; assumption; done) | (dsimp only; split) | split | apply Chip.placeRecv_wf | (apply foldl_wf <;> intros) | (refine pair_wf (by assumption) ?_) | (simp; done) | simp

theorem Chip.storePacket_wf (c : Chip) (h k : Nat) (p : Packet) (r : RxMsg) (hw : Memory.wf c.mem.hbm = true) : Memory.wf (c.storePacket h k p r).1.mem.hbm = true := by
  unfold Chip.storePacket
  repeat' first | assumption | (simp; done) | (simp; assumption; done) | (dsimp only; split) | split | apply Chip.store_wf | (apply foldl_wf <;> intros) | (refine pair_wf (by assumption) ?_) | (simp; done) | simp

theorem Chip.firstSend_wf (c : Chip) (h k : Nat) (p : Packet) (hw : Memory.wf c.mem.hbm = true) : Memory.wf (c.firstSend h k p).1.mem.hbm = true := by
  unfold Chip.firstSend
  split
  · exact hw
  · rename_i c2 e2 he
    have h2 := Chip.takeRecv_hbm he
    refine Chip.takeIntoBuffer_wf _ _ _ _ _ _ ?_
    rw [Chip.resolveMsg_hbm, h2]; exact hw

theorem Chip.firstTagged_wf (c : Chip) (h k : Nat) (x : Chan) (p : Packet) (hw : Memory.wf c.mem.hbm = true) : Memory.wf (c.firstTagged h k x p).1.mem.hbm = true := by
  unfold Chip.firstTagged
  repeat' first | assumption | (simp; done) | (simp; assumption; done) | (dsimp only; split) | split | apply Chip.takeIntoBuffer_wf | (apply foldl_wf <;> intros) | (refine pair_wf (by assumption) ?_) | (simp; done) | simp

theorem Chip.takeMessage_wf (c : Chip) (h k : Nat) (x : Chan) (p : Packet) (hw : Memory.wf c.mem.hbm = true) : Memory.wf (c.takeMessage h k x p).1.mem.hbm = true := by
  unfold Chip.takeMessage
  repeat' first | assumption | (simp; done) | (simp; assumption; done) | (dsimp only; split) | split | apply Chip.takeIntoBuffer_wf | apply Chip.storePacket_wf | apply Chip.firstSend_wf | apply Chip.firstTagged_wf | (apply foldl_wf <;> intros) | (refine pair_wf (by assumption) ?_) | (simp; done) | simp

theorem Chip.takeWrite_wf (c : Chip) (h k : Nat) (x : Chan) (p : Packet) (hw : Memory.wf c.mem.hbm = true) : Memory.wf (c.takeWrite h k x p).1.mem.hbm = true := by
  unfold Chip.takeWrite
  repeat' first | with_reducible assumption | with_reducible apply Chip.place_wf | rw [Chip.endOffer_hbm] | rw [Chip.putMsg_hbm] | rw [Chip.resolveMsg_hbm] | (with_reducible refine pair_wf (by with_reducible assumption) ?_) | (with_reducible apply foldl_wf <;> intros) | split | (dsimp only; split) | dsimp only | (rw [Chip.takeRecv_hbm (by assumption)])

theorem Chip.takeAtomic_wf (c : Chip) (h k : Nat) (x : Chan) (p : Packet) (hw : Memory.wf c.mem.hbm = true) : Memory.wf (c.takeAtomic h k x p).1.mem.hbm = true := by
  unfold Chip.takeAtomic
  repeat' first | assumption | (simp; done) | (simp; assumption; done) | (dsimp only; split) | split | apply Chip.hbmWrite_wf | (apply foldl_wf <;> intros) | (refine pair_wf (by assumption) ?_) | (simp; done) | simp

theorem Chip.judge_wf (c : Chip) (h k : Nat) (x : Chan) (p : Packet) (hw : Memory.wf c.mem.hbm = true) : Memory.wf (c.judge h k x p).1.mem.hbm = true := by
  unfold Chip.judge
  repeat' first | assumption | (simp; done) | (simp; assumption; done) | (dsimp only; split) | split | apply Chip.takeMessage_wf | apply Chip.takeWrite_wf | apply Chip.takeAtomic_wf | (apply foldl_wf <;> intros) | (refine pair_wf (by assumption) ?_) | (simp; done) | simp

theorem Chip.acceptPacket_wf (c : Chip) (h k : Nat) (x : Chan) (p : Packet) (hw : Memory.wf c.mem.hbm = true) : Memory.wf (c.acceptPacket h k x p).mem.hbm = true := by
  unfold Chip.acceptPacket
  repeat' first | with_reducible assumption | with_reducible apply Chip.judge_wf | rw [Chip.updChan_hbm] | rw [Chip.updMsg_hbm] | rw [Chip.answerError_hbm] | rw [Chip.answerBusy_hbm] | rw [Chip.ackNow_hbm] | rw [Chip.deliverMsgs_hbm] | rw [Chip.countAccepted_hbm] | rw [Chip.wholeCopies_hbm] | (with_reducible refine pair_wf (by with_reducible assumption) ?_) | (with_reducible apply foldl_wf <;> intros) | split | (dsimp only; split) | dsimp only

theorem Chip.unparkOrd_wf (c : Chip) (h k : Nat) (z0 : Nat) (hw : Memory.wf c.mem.hbm = true) : Memory.wf (c.unparkOrd h k z0).mem.hbm = true := by
  induction z0 generalizing c with
  | zero => exact hw
  | succ n ih =>
    unfold Chip.unparkOrd
    split
    · exact hw
    · split
      · exact hw
      · exact ih _ (Chip.acceptPacket_wf _ _ _ _ _ (by simpa using hw))

theorem Chip.takeMalformed_wf (c : Chip) (h k : Nat) (x : Chan) (p : Packet) (hw : Memory.wf c.mem.hbm = true) : Memory.wf (c.takeMalformed h k x p).mem.hbm = true := by
  unfold Chip.takeMalformed
  repeat' first | with_reducible assumption | with_reducible apply Chip.unparkOrd_wf | rw [Chip.updChan_hbm] | rw [Chip.putMsg_hbm] | rw [Chip.updMsg_hbm] | rw [Chip.resolveMsg_hbm] | rw [Chip.answerError_hbm] | rw [Chip.ackNow_hbm] | rw [Chip.deliverMsgs_hbm] | (with_reducible refine pair_wf (by with_reducible assumption) ?_) | (with_reducible apply foldl_wf <;> intros) | split | (dsimp only; split) | dsimp only

theorem Chip.takeResident_wf (c : Chip) (h k : Nat) (p : Packet) (hw : Memory.wf c.mem.hbm = true) : Memory.wf (c.takeResident h k p).mem.hbm = true := by
  unfold Chip.takeResident
  repeat' first | with_reducible assumption | with_reducible apply Chip.acceptPacket_wf | with_reducible apply Chip.unparkOrd_wf | with_reducible apply Chip.takeMalformed_wf | rw [Chip.bump_hbm] | rw [Chip.putChan_hbm] | rw [Chip.answerBusy_hbm] | rw [Chip.ackNow_hbm] | rw [Chip.duplicate_hbm] | rw [Chip.takeSync_hbm] | (with_reducible refine pair_wf (by with_reducible assumption) ?_) | (with_reducible apply foldl_wf <;> intros) | split | (dsimp only; split) | dsimp only

theorem Chip.handleRequest_wf (c : Chip) (h k : Nat) (p : Packet) (hw : Memory.wf c.mem.hbm = true) : Memory.wf (c.handleRequest h k p).mem.hbm = true := by
  unfold Chip.handleRequest
  repeat' first | assumption | (simp; done) | (simp; assumption; done) | (dsimp only; split) | split | apply Chip.takeResident_wf | (apply foldl_wf <;> intros) | (refine pair_wf (by assumption) ?_) | (simp; done) | simp

theorem Chip.resolveRequest_wf (c : Chip) (h : Nat) (p : Packet) (miss : Option CtxKey) (hw : Memory.wf c.mem.hbm = true) : Memory.wf (c.resolveRequest h p miss).mem.hbm = true := by
  unfold Chip.resolveRequest
  repeat' first | assumption | (simp; done) | (simp; assumption; done) | (dsimp only; split) | split | apply Chip.takeResident_wf | apply Chip.handleRequest_wf | (apply foldl_wf <;> intros) | (refine pair_wf (by assumption) ?_) | (simp; done) | simp

theorem Chip.takeRequest_wf (c : Chip) (h : Nat) (p : Packet) (miss : Option CtxKey) (hw : Memory.wf c.mem.hbm = true) : Memory.wf (c.takeRequest h p miss).mem.hbm = true := by
  unfold Chip.takeRequest
  repeat' first | assumption | (simp; done) | (simp; assumption; done) | (dsimp only; split) | split | apply Chip.resolveRequest_wf | (apply foldl_wf <;> intros) | (refine pair_wf (by assumption) ?_) | (simp; done) | simp

theorem Chip.unpark_wf (c : Chip) (ctx : CtxKey) (hw : Memory.wf c.mem.hbm = true) : Memory.wf (c.unpark ctx).mem.hbm = true := by
  unfold Chip.unpark
  repeat' first | assumption | (simp; done) | (simp; assumption; done) | (dsimp only; split) | split | apply Chip.resolveRequest_wf | (apply foldl_wf <;> intros) | (refine pair_wf (by assumption) ?_) | (simp; done) | simp

theorem Chip.contextFetched_wf (c : Chip) (ctx : CtxKey) (poisoned : Bool) (hw : Memory.wf c.mem.hbm = true) : Memory.wf (c.contextFetched ctx poisoned).mem.hbm = true := by
  unfold Chip.contextFetched
  repeat' first | with_reducible assumption | with_reducible apply Chip.unpark_wf | rw [Chip.poisonDevice_hbm] | rw [Chip.endFetch_hbm] | rw [Chip.chanError_hbm] | rw [Chip.regionBad_hbm] | rw [Chip.matchLost_hbm] | rw [Chip.contextLost_hbm] | (with_reducible refine pair_wf (by with_reducible assumption) ?_) | (with_reducible apply foldl_wf <;> intros) | split | (dsimp only; split) | dsimp only

theorem Chip.placeRead_wf (c : Chip) (k : Nat) (o : SendOp) (p : Packet) (hw : Memory.wf c.mem.hbm = true) : Memory.wf (c.placeRead k o p).mem.hbm = true := by
  unfold Chip.placeRead
  repeat' first | assumption | (simp; done) | (simp; assumption; done) | (dsimp only; split) | split | apply Chip.place_wf | (apply foldl_wf <;> intros) | (refine pair_wf (by assumption) ?_) | (simp; done) | simp

theorem Chip.takeReadData_wf (c : Chip) (h : Nat) (p : Packet) (hw : Memory.wf c.mem.hbm = true) : Memory.wf (c.takeReadData h p).mem.hbm = true := by
  unfold Chip.takeReadData
  refine Chip.takeResponse_wf _ _ _ _ ?_ hw
  intro c k x hw
  split
  · exact hw
  · split
    · exact hw
    · split
      · exact hw
      · split
        · rw [Chip.badResponse_hbm]; exact hw
        · split
          · exact hw
          · extract_lets c1 c2
            have h2 : c2.mem.hbm = c1.mem.hbm := Chip.updOp_hbm ..
            have h1 : Memory.wf c1.mem.hbm = true := Chip.placeRead_wf _ _ _ _ hw
            clear_value c2
            split
            · rw [Chip.advanceChan_hbm, Chip.retire_hbm, Chip.decideOp_hbm, h2]; exact h1
            · rw [h2]; exact h1

theorem Chip.writeMember_wf (c : Chip) (m : Nat) (s : BitVec 32) (o : COp) (x : CPost) (seg : Nat) (data : List Byte) (hw : Memory.wf c.mem.hbm = true) : Memory.wf (c.writeMember m s o x seg data).mem.hbm = true := by
  unfold Chip.writeMember
  repeat' first | assumption | (simp; done) | (simp; assumption; done) | (dsimp only; split) | split | apply Chip.place_wf | (apply foldl_wf <;> intros) | (refine pair_wf (by assumption) ?_) | (simp; done) | simp

theorem Chip.writeTurn_wf (c : Chip) (m : Nat) (s : BitVec 32) (z0 : Nat) (hw : Memory.wf c.mem.hbm = true) : Memory.wf (c.writeTurn m s z0).mem.hbm = true := by
  induction z0 generalizing c m s <;> unfold Chip.writeTurn <;> repeat' first | with_reducible assumption | with_reducible apply Chip.writeMember_wf | rw [Chip.updColl_hbm] | (with_reducible refine pair_wf (by with_reducible assumption) ?_) | (with_reducible apply foldl_wf <;> intros) | split | (dsimp only; split) | dsimp only | apply_assumption

theorem Chip.downSegment_wf (c : Chip) (m : Nat) (s : BitVec 32) (seg : Nat) (data : List Byte) (hw : Memory.wf c.mem.hbm = true) : Memory.wf (c.downSegment m s seg data).mem.hbm = true := by
  unfold Chip.downSegment
  repeat' first | assumption | (simp; done) | (simp; assumption; done) | (dsimp only; split) | split | apply Chip.writeTurn_wf | (apply foldl_wf <;> intros) | (refine pair_wf (by assumption) ?_) | (simp; done) | simp

theorem Chip.collRoot_wf (c : Chip) (m : Nat) (s : BitVec 32) (hw : Memory.wf c.mem.hbm = true) : Memory.wf (c.collRoot m s).mem.hbm = true := by
  unfold Chip.collRoot
  repeat' first | assumption | (simp; done) | (simp; assumption; done) | (dsimp only; split) | split | apply Chip.downSegment_wf | (apply foldl_wf <;> intros) | (refine pair_wf (by assumption) ?_) | (simp; done) | simp

theorem Chip.collRun_wf (c : Chip) (m : Nat) (s : BitVec 32) (hw : Memory.wf c.mem.hbm = true) : Memory.wf (c.collRun m s).mem.hbm = true := by
  unfold Chip.collRun
  rw [Chip.settleColl_hbm, Chip.collDecide_hbm, Chip.collDone_hbm]
  refine Chip.collRoot_wf _ _ _ ?_
  rw [Chip.collArrive_hbm, Chip.collContribute_hbm, Chip.collFences_hbm]
  exact hw

theorem Chip.collRunAll_wf (c : Chip)  (hw : Memory.wf c.mem.hbm = true) : Memory.wf (c.collRunAll).mem.hbm = true := by
  exact foldl_wf (fun c o h => Chip.collRun_wf _ _ _ h) _ _ hw

theorem Chip.startCollective_wf (c : Chip) (h qn pos : Nat) (q : Queue) (e : Entry) (data : SourceData) (hw : Memory.wf c.mem.hbm = true) : Memory.wf (c.startCollective h qn pos q e data).mem.hbm = true := by
  unfold Chip.startCollective
  split
  · simpa using hw
  · extract_lets m s s1 c1 x scnt c2 o
    have h1 : Memory.wf c1.mem.hbm = true := hw
    have h2 : c2.mem.hbm = c1.mem.hbm := Chip.beginColl_hbm ..
    clear_value o c2 c1 x
    split
    · simpa using h1
    · split
      extract_lets same
      clear_value same
      split
      rename_i c3 d hd
      have h3 := pair_hbm hd (Chip.operandOf_hbm ..)
      extract_lets x2 c4 c5
      have h4 : c4.mem.hbm = c1.mem.hbm := by rw [← h2, ← h3]; exact Chip.updColl_hbm ..
      clear_value c4 x2
      have h5 : Memory.wf c5.mem.hbm = true := by
        simp only [c5]; split
        · rw [Chip.abortSelf_hbm, h4]; exact h1
        · rw [h4]; exact h1
      refine Chip.collRun_wf _ _ _ ?_
      rw [Chip.dropStale_hbm]; exact h5

theorem Chip.takeCollective_wf (c : Chip) (h qn op : Nat) (e : Entry) (data : SourceData) (hw : Memory.wf c.mem.hbm = true) : Memory.wf (c.takeCollective h qn op e data).mem.hbm = true := by
  unfold Chip.takeCollective
  repeat' first | assumption | (simp; done) | (simp; assumption; done) | (dsimp only; split) | split | apply Chip.startCollective_wf | (apply foldl_wf <;> intros) | (refine pair_wf (by assumption) ?_) | (simp; done) | simp

theorem Chip.collectiveUp_wf (c : Chip) (port : Nat) (p : Packet) (poisoned : Bool) (hw : Memory.wf c.mem.hbm = true) : Memory.wf (c.collectiveUp port p poisoned).mem.hbm = true := by
  unfold Chip.collectiveUp
  repeat' first | with_reducible assumption | with_reducible apply Chip.collRun_wf | rw [Chip.poisonDevice_hbm] | rw [Chip.updColl_hbm] | rw [Chip.settleColl_hbm] | rw [Chip.abortSelf_hbm] | rw [Chip.admitTree_hbm] | (with_reducible refine pair_wf (by with_reducible assumption) ?_) | (with_reducible apply foldl_wf <;> intros) | split | (dsimp only; split) | dsimp only

theorem Chip.collectiveDown_wf (c : Chip) (port : Nat) (p : Packet) (hw : Memory.wf c.mem.hbm = true) : Memory.wf (c.collectiveDown port p).mem.hbm = true := by
  unfold Chip.collectiveDown
  repeat' first | with_reducible assumption | with_reducible apply Chip.downSegment_wf | with_reducible apply Chip.collRun_wf | rw [Chip.updColl_hbm] | rw [Chip.sendDown_hbm] | rw [Chip.settleColl_hbm] | rw [Chip.abortSelf_hbm] | rw [Chip.admitTree_hbm] | (with_reducible refine pair_wf (by with_reducible assumption) ?_) | (with_reducible apply foldl_wf <;> intros) | split | (dsimp only; split) | dsimp only

theorem Chip.collectiveDone_wf (c : Chip) (port : Nat) (p : Packet) (hw : Memory.wf c.mem.hbm = true) : Memory.wf (c.collectiveDone port p).mem.hbm = true := by
  unfold Chip.collectiveDone
  repeat' first | with_reducible assumption | with_reducible apply Chip.collRun_wf | rw [Chip.updColl_hbm] | rw [Chip.sendDown_hbm] | rw [Chip.settleColl_hbm] | rw [Chip.abortSelf_hbm] | rw [Chip.admitTree_hbm] | (with_reducible refine pair_wf (by with_reducible assumption) ?_) | (with_reducible apply foldl_wf <;> intros) | split | (dsimp only; split) | dsimp only

theorem Chip.segmentUp_wf (c : Chip) (m : Nat) (s : BitVec 32) (seg : Nat) (poisoned : Bool) (hw : Memory.wf c.mem.hbm = true) : Memory.wf (c.segmentUp m s seg poisoned).mem.hbm = true := by
  unfold Chip.segmentUp
  repeat' first | with_reducible assumption | with_reducible apply Chip.downSegment_wf | with_reducible apply Chip.collRun_wf | rw [Chip.poisonDevice_hbm] | rw [Chip.updColl_hbm] | rw [Chip.settleColl_hbm] | rw [Chip.abortSelf_hbm] | rw [Chip.sendSegment_hbm] | (with_reducible refine pair_wf (by with_reducible assumption) ?_) | (with_reducible apply foldl_wf <;> intros) | split | (dsimp only; split) | dsimp only

theorem Chip.collResume_wf (c : Chip)  (hw : Memory.wf c.mem.hbm = true) : Memory.wf (c.collResume).mem.hbm = true := by
  unfold Chip.collResume
  repeat' first | with_reducible assumption | with_reducible apply Chip.collRunAll_wf | rw [Chip.settleColl_hbm] | rw [Chip.abortNow_hbm] | rw [Chip.collectiveTimeout_hbm] | (with_reducible refine pair_wf (by with_reducible assumption) ?_) | (with_reducible apply foldl_wf <;> intros) | split | (dsimp only; split) | dsimp only

theorem Chip.collDisable_wf (c : Chip) (fn : Nat) (hw : Memory.wf c.mem.hbm = true) : Memory.wf (c.collDisable fn).mem.hbm = true := by
  unfold Chip.collDisable
  extract_lets h ms mine s1 c1 c2
  have h1 : c1.mem.hbm = c.mem.hbm := rfl
  have h2 : c2.mem.hbm = c1.mem.hbm := foldl_hbm (fun c o => foldl_hbm (fun c x => by split <;> simp) _ _) _ _
  clear_value c2 c1 ms
  exact foldl_wf (fun c m h => foldl_wf (fun c o h => Chip.collRun_wf _ _ _ h) _ _ h) _ _ (by rw [h2, h1]; exact hw)

theorem Chip.disableFn_wf (c : Chip) (fn : Nat) (hw : Memory.wf c.mem.hbm = true) : Memory.wf (c.disableFn fn).mem.hbm = true := by
  unfold Chip.disableFn
  split
  · exact hw
  · exact hw
  · exact hw
  · apply Chip.collDisable_wf
    rw [Chip.matchDisable_hbm]
    exact hw

theorem Chip.levelReset_wf (c : Chip) (fn : Nat) (hw : Memory.wf c.mem.hbm = true) : Memory.wf (c.levelReset fn).mem.hbm = true := by
  unfold Chip.levelReset
  repeat' first | assumption | (simp; done) | (simp; assumption; done) | (dsimp only; split) | split | apply Chip.disableFn_wf | (apply foldl_wf <;> intros) | (refine pair_wf (by assumption) ?_) | (simp; done) | simp

theorem Chip.endVf_wf (c : Chip) (fn : Nat) (hw : Memory.wf c.mem.hbm = true) : Memory.wf (c.endVf fn).mem.hbm = true := by
  unfold Chip.endVf
  repeat' first | assumption | (simp; done) | (simp; assumption; done) | (dsimp only; split) | split | apply Chip.disableFn_wf | (apply foldl_wf <;> intros) | (refine pair_wf (by assumption) ?_) | (simp; done) | simp

theorem Chip.endVfs_wf (c : Chip) (h : Nat) (hw : Memory.wf c.mem.hbm = true) : Memory.wf (c.endVfs h).mem.hbm = true := by
  unfold Chip.endVfs
  rw [Chip.updPort_hbm]
  exact foldl_wf (fun c i h => Chip.endVf_wf _ _ h) _ _ hw

theorem Chip.vfClear_wf (c : Chip) (h : Nat) (hw : Memory.wf c.mem.hbm = true) : Memory.wf (c.vfClear h).mem.hbm = true := by
  unfold Chip.vfClear
  split
  · exact Chip.endVfs_wf _ _ hw
  · exact hw

theorem Chip.perstPort_wf (c : Chip) (h : Nat) (hw : Memory.wf c.mem.hbm = true) : Memory.wf (c.perstPort h).mem.hbm = true := by
  unfold Chip.perstPort
  extract_lets c1 c2
  have h1 : Memory.wf c1.mem.hbm = true := Chip.endVfs_wf _ _ (by rw [Chip.updFn_hbm]; exact Chip.disableFn_wf _ _ hw)
  have h2 : c2.mem.hbm = c1.mem.hbm := by simp [c2]
  clear_value c2 c1
  rw [Chip.setCond_hbm, Chip.updPort_hbm, h2]
  exact h1

theorem Chip.perstAssert_wf (c : Chip) (h : Nat) (hw : Memory.wf c.mem.hbm = true) : Memory.wf (c.perstAssert h).mem.hbm = true := by
  unfold Chip.perstAssert
  repeat' first | assumption | (simp; done) | (simp; assumption; done) | (dsimp only; split) | split | apply Chip.perstPort_wf | (apply foldl_wf <;> intros) | (refine pair_wf (by assumption) ?_) | (simp; done) | simp

theorem Chip.setFence_wf (c : Chip) (chip : Nat) (on : Bool) (hw : Memory.wf c.mem.hbm = true) : Memory.wf (c.setFence chip on).mem.hbm = true := by
  unfold Chip.setFence
  repeat' first | assumption | (simp; done) | (simp; assumption; done) | (dsimp only; split) | split | apply Chip.collRunAll_wf | (apply foldl_wf <;> intros) | (refine pair_wf (by assumption) ?_) | (simp; done) | simp

theorem Chip.applyFence_wf (c : Chip) (row : Nat) (p : Packet) (hw : Memory.wf c.mem.hbm = true) : Memory.wf (c.applyFence row p).mem.hbm = true := by
  unfold Chip.applyFence
  repeat' first | assumption | (simp; done) | (simp; assumption; done) | (dsimp only; split) | split | apply Chip.setFence_wf | (apply foldl_wf <;> intros) | (refine pair_wf (by assumption) ?_) | (simp; done) | simp

theorem Chip.broadcastApply_wf (c : Chip)  (hw : Memory.wf c.mem.hbm = true) : Memory.wf (c.broadcastApply).mem.hbm = true := by
  unfold Chip.broadcastApply
  repeat' first | assumption | (simp; done) | (simp; assumption; done) | (dsimp only; split) | split | apply Chip.applyFence_wf | (apply foldl_wf <;> intros) | (refine pair_wf (by assumption) ?_) | (simp; done) | simp

theorem Chip.installClamp_wf (c : Chip) (row v : Nat) (hw : Memory.wf c.mem.hbm = true) : Memory.wf (c.installClamp row v).mem.hbm = true := by
  unfold Chip.installClamp
  repeat' first | assumption | (simp; done) | (simp; assumption; done) | (dsimp only; split) | split | apply Chip.setFence_wf | (apply foldl_wf <;> intros) | (refine pair_wf (by assumption) ?_) | (simp; done) | simp

theorem Chip.writeClamp_wf (c : Chip) (row v : Nat) (hw : Memory.wf c.mem.hbm = true) : Memory.wf (c.writeClamp row v).mem.hbm = true := by
  unfold Chip.writeClamp
  repeat' first | assumption | (simp; done) | (simp; assumption; done) | (dsimp only; split) | split | apply Chip.installClamp_wf | (apply foldl_wf <;> intros) | (refine pair_wf (by assumption) ?_) | (simp; done) | simp

theorem Chip.fabResume_wf (c : Chip)  (hw : Memory.wf c.mem.hbm = true) : Memory.wf (c.fabResume).mem.hbm = true := by
  unfold Chip.fabResume
  repeat' first | assumption | (simp; done) | (simp; assumption; done) | (dsimp only; split) | split | apply Chip.installClamp_wf | (apply foldl_wf <;> intros) | (refine pair_wf (by assumption) ?_) | (simp; done) | simp

theorem Chip.reset_wf (c : Chip) (b : Boot) (hw : Memory.wf c.mem.hbm = true) : Memory.wf (c.reset b).mem.hbm = true := by
  rfl

theorem Chip.powerOn_wf (c : Chip)  (hw : Memory.wf c.mem.hbm = true) : Memory.wf (c.powerOn).mem.hbm = true := by
  rfl

theorem Chip.resetAssert_wf (c : Chip)  (hw : Memory.wf c.mem.hbm = true) : Memory.wf (c.resetAssert).mem.hbm = true := by
  unfold Chip.resetAssert
  repeat' first | assumption | (simp; done) | (simp; assumption; done) | (dsimp only; split) | split | apply Chip.reset_wf | (apply foldl_wf <;> intros) | (refine pair_wf (by assumption) ?_) | (simp; done) | simp

theorem Chip.fatalResets_wf (c : Chip)  (hw : Memory.wf c.mem.hbm = true) : Memory.wf (c.fatalResets).mem.hbm = true := by
  unfold Chip.fatalResets
  repeat' first | assumption | (simp; done) | (simp; assumption; done) | (dsimp only; split) | split | apply Chip.reset_wf | (apply foldl_wf <;> intros) | (refine pair_wf (by assumption) ?_) | (simp; done) | simp

theorem Chip.thermalTrip_wf (c : Chip) (raw : List Int) (hw : Memory.wf c.mem.hbm = true) : Memory.wf (c.thermalTrip raw).mem.hbm = true := by
  unfold Chip.thermalTrip
  repeat' first | assumption | (simp; done) | (simp; assumption; done) | (dsimp only; split) | split | apply Chip.reset_wf | (apply foldl_wf <;> intros) | (refine pair_wf (by assumption) ?_) | (simp; done) | simp

theorem Chip.clusterResumes_wf (c : Chip) (i : Nat) (hw : Memory.wf c.mem.hbm = true) : Memory.wf (c.clusterResumes i).mem.hbm = true := by
  unfold Chip.clusterResumes
  repeat' first | with_reducible assumption | with_reducible apply Chip.collResume_wf | with_reducible apply Chip.fabResume_wf | rw [Chip.conReturns_hbm] | rw [Chip.runBridge_hbm] | rw [Chip.timResume_hbm] | (with_reducible refine pair_wf (by with_reducible assumption) ?_) | (with_reducible apply foldl_wf <;> intros) | split | (dsimp only; split) | dsimp only

theorem Chip.clusterBack_wf (c : Chip) (unit : Nat) (hw : Memory.wf c.mem.hbm = true) : Memory.wf (c.clusterBack unit).mem.hbm = true := by
  unfold Chip.clusterBack
  extract_lets i c1 s1 c2 c3 s2
  split
  · exact hw
  · clear_value s2 i
    have h1 : (c.leaveReset unit).mem.hbm = c.mem.hbm := Chip.leaveReset_hbm c unit
    change c1.mem.hbm = c.mem.hbm at h1
    clear_value c1
    have h2 : c2.mem.hbm = c1.mem.hbm := by simp only [c2]
    have h3 : Memory.wf c3.mem.hbm = true := Chip.clusterResumes_wf _ _ (by rw [Chip.eventPFs_hbm, h2, h1]; exact hw)
    clear_value c3
    split
    · exact h3
    · split
      · rw [Chip.activateNext_hbm]; exact h3
      · exact h3

theorem Chip.blockResetDone_wf (c : Chip) (u : Nat) (hw : Memory.wf c.mem.hbm = true) : Memory.wf (c.blockResetDone u).mem.hbm = true := by
  unfold Chip.blockResetDone
  repeat' first | assumption | (simp; done) | (simp; assumption; done) | (dsimp only; split) | split | apply Chip.clusterBack_wf | (apply foldl_wf <;> intros) | (refine pair_wf (by assumption) ?_) | (simp; done) | simp

theorem Chip.blockReset_wf (c : Chip) (u : Nat) (hw : Memory.wf c.mem.hbm = true) : Memory.wf (c.blockReset u).mem.hbm = true := by
  unfold Chip.blockReset
  refine ite_wf ?_ (ite_wf ?_ (ite_wf ?_ (ite_wf ?_ (ite_wf ?_ (ite_wf ?_ (ite_wf ?_ (ite_wf ?_ hw)))))))
  · generalize hc : c.linkReset u = d
    have : d.mem.hbm = c.mem.hbm := by rw [← hc, Chip.linkReset_hbm]
    rw [Chip.blockRetrain_hbm, this]; exact hw
  · exact Chip.perstPort_wf _ _ hw
  · generalize 2 * (u - 0x40) = a
    rw [Chip.blockRetrain_hbm, Chip.blockRetrain_hbm]; exact hw
  · rw [Chip.beginRetire_hbm]; exact hw
  · rw [Chip.engineReset_hbm]; exact hw
  · rw [Chip.clusterDown_hbm]; exact hw
  · rw [Chip.bridgeBlockReset_hbm]; exact hw
  · exact hw

theorem Chip.carryOn_wf (c : Chip) (z0 : Nat) (hw : Memory.wf c.mem.hbm = true) : Memory.wf (c.carryOn z0).mem.hbm = true := by
  induction z0 generalizing c with
  | zero => exact hw
  | succ n ih =>
    unfold Chip.carryOn
    split
    · exact Chip.fatalResets_wf _ hw
    · split
      · exact ih _ (Chip.blockReset_wf _ _ hw)
      · split
        · exact ih _ (by rw [Chip.carriedEnd_hbm]; exact hw)
        · exact hw

theorem Chip.settle_wf (c : Chip)  (hw : Memory.wf c.mem.hbm = true) : Memory.wf (c.settle).mem.hbm = true := by
  unfold Chip.settle
  repeat' first | assumption | (simp; done) | (simp; assumption; done) | (dsimp only; split) | split | apply Chip.carryOn_wf | (apply foldl_wf <;> intros) | (refine pair_wf (by assumption) ?_) | (simp; done) | simp

theorem Chip.writeEnable_wf (c : Chip) (fn x : Nat) (hw : Memory.wf c.mem.hbm = true) : Memory.wf (c.writeEnable fn x).mem.hbm = true := by
  unfold Chip.writeEnable
  repeat' first | assumption | (simp; done) | (simp; assumption; done) | (dsimp only; split) | split | apply Chip.disableFn_wf | (apply foldl_wf <;> intros) | (refine pair_wf (by assumption) ?_) | (simp; done) | simp

theorem Chip.store_wf (c : Chip) (area obj e x : Nat) (idx : Option CtlIndices) (hw : Memory.wf c.mem.hbm = true) : Memory.wf (c.store area obj e x idx).1.mem.hbm = true := by
  unfold Chip.store
  repeat' first | assumption | (simp; done) | (simp; assumption; done) | (dsimp only; split) | split | apply Chip.writeClamp_wf | apply Chip.writeEnable_wf | (apply foldl_wf <;> intros) | (refine pair_wf (by assumption) ?_) | (simp; done) | simp

theorem Chip.writeNumber_wf (c : Chip) (w : Writer) (d : Desc) (n x : Nat) (idx : Option CtlIndices) (hw : Memory.wf c.mem.hbm = true) : Memory.wf (c.writeNumber w d n x idx).1.mem.hbm = true := by
  unfold Chip.writeNumber
  repeat' first | assumption | (simp; done) | (simp; assumption; done) | (dsimp only; split) | split | apply Chip.store_wf | (apply foldl_wf <;> intros) | (refine pair_wf (by assumption) ?_) | (simp; done) | simp

theorem Chip.dictWrite_wf (c : Chip) (w : Writer) (n : Nat) (v : Option (List Byte)) (idx : Option CtlIndices) (hw : Memory.wf c.mem.hbm = true) : Memory.wf (c.dictWrite w n v idx).1.mem.hbm = true := by
  unfold Chip.dictWrite
  repeat' first | assumption | (simp; done) | (simp; assumption; done) | (dsimp only; split) | split | apply Chip.writeNumber_wf | (apply foldl_wf <;> intros) | (refine pair_wf (by assumption) ?_) | (simp; done) | simp

theorem Chip.pathWrite_wf (c : Chip) (w : Writer) (n : BitVec 32) (off : Nat) (l : List Byte) (fits final le : Bool) (tag vlen : Nat) (idx : Option CtlIndices) (hw : Memory.wf c.mem.hbm = true) : Memory.wf (c.pathWrite w n off l fits final le tag vlen idx).1.mem.hbm = true := by
  unfold Chip.pathWrite
  repeat' first | assumption | (simp; done) | (simp; assumption; done) | (dsimp only; split) | split | apply Chip.dictWrite_wf | (apply foldl_wf <;> intros) | (refine pair_wf (by assumption) ?_) | (simp; done) | simp

theorem Chip.mbxRequest_wf (c : Chip) (h op : Nat) (relay : Bool) (vf : Nat) (n : BitVec 32) (hw : Memory.wf c.mem.hbm = true) : Memory.wf (c.mbxRequest h op relay vf n).mem.hbm = true := by
  unfold Chip.mbxRequest
  repeat' first | assumption | (simp; done) | (simp; assumption; done) | (dsimp only; split) | split | apply Chip.pathWrite_wf | (apply foldl_wf <;> intros) | (refine pair_wf (by assumption) ?_) | (simp; done) | simp

theorem Chip.runRecord_wf (c : Chip) (w : Writer) (r : OpRecord) (hw : Memory.wf c.mem.hbm = true) : Memory.wf (c.runRecord w r).1.mem.hbm = true := by
  unfold Chip.runRecord
  repeat' first | assumption | (simp; done) | (simp; assumption; done) | (dsimp only; split) | split | apply Chip.pathWrite_wf | (apply foldl_wf <;> intros) | (refine pair_wf (by assumption) ?_) | (simp; done) | simp

theorem Chip.fdpRun_wf (c : Chip) (w : Writer) (room : Nat) (z0 : List OpRecord) (hw : Memory.wf c.mem.hbm = true) : Memory.wf (c.fdpRun w room z0).1.mem.hbm = true := by
  induction z0 generalizing c room with
  | nil => exact hw
  | cons r l ih =>
    unfold Chip.fdpRun
    have h1 := Chip.runRecord_wf c w r hw
    revert h1
    generalize c.runRecord w r = x
    obtain ⟨c1, k1, d1⟩ := x
    intro h1
    simp only at h1
    dsimp only
    split <;> dsimp only <;> refine ih _ _ ?_
    · rw [Chip.chunkRules_hbm]; exact hw
    · exact h1

theorem Chip.fdpRequest_wf (c : Chip) (d : Datagram) (hw : Memory.wf c.mem.hbm = true) : Memory.wf (c.fdpRequest d).mem.hbm = true := by
  unfold Chip.fdpRequest
  repeat' first | assumption | (simp; done) | (simp; assumption; done) | (dsimp only; split) | split | apply Chip.fdpRun_wf | (apply foldl_wf <;> intros) | (refine pair_wf (by assumption) ?_) | (simp; done) | simp

theorem Chip.mctpTake_wf (c : Chip) (l : List Byte) (hw : Memory.wf c.mem.hbm = true) : Memory.wf (c.mctpTake l).mem.hbm = true := by
  unfold Chip.mctpTake
  repeat' first | assumption | (simp; done) | (simp; assumption; done) | (dsimp only; split) | split | apply Chip.runRecord_wf | (apply foldl_wf <;> intros) | (refine pair_wf (by assumption) ?_) | (simp; done) | simp

theorem Chip.mctpRequest_wf (c : Chip) (l : List MctpPacket) (hw : Memory.wf c.mem.hbm = true) : Memory.wf (c.mctpRequest l).mem.hbm = true := by
  unfold Chip.mctpRequest
  repeat' first | assumption | (simp; done) | (simp; assumption; done) | (dsimp only; split) | split | apply Chip.mctpTake_wf | (apply foldl_wf <;> intros) | (refine pair_wf (by assumption) ?_) | (simp; done) | simp

theorem Chip.shimExecute_wf (c : Chip) (p : Packet) (hw : Memory.wf c.mem.hbm = true) : Memory.wf (c.shimExecute p).1.mem.hbm = true := by
  unfold Chip.shimExecute
  repeat' first | assumption | (simp; done) | (simp; assumption; done) | (dsimp only; split) | split | apply Chip.pathWrite_wf | (apply foldl_wf <;> intros) | (refine pair_wf (by assumption) ?_) | (simp; done) | simp

theorem Chip.shimRequest_wf (c : Chip) (p : Packet) (hw : Memory.wf c.mem.hbm = true) : Memory.wf (c.shimRequest p).mem.hbm = true := by
  unfold Chip.shimRequest
  repeat' first | assumption | (simp; done) | (simp; assumption; done) | (dsimp only; split) | split | apply Chip.shimExecute_wf | (apply foldl_wf <;> intros) | (refine pair_wf (by assumption) ?_) | (simp; done) | simp

theorem Chip.rowWrite_wf (c : Chip) (w : Writer) (n : Nat) (l : List Byte) (idx : Option CtlIndices) (hw : Memory.wf c.mem.hbm = true) : Memory.wf (c.rowWrite w n l idx).mem.hbm = true := by
  unfold Chip.rowWrite
  repeat' first | assumption | (simp; done) | (simp; assumption; done) | (dsimp only; split) | split | apply Chip.dictWrite_wf | (apply foldl_wf <;> intros) | (refine pair_wf (by assumption) ?_) | (simp; done) | simp

theorem Chip.mbxCmdWrite_wf (c : Chip) (h off : Nat) (wide : Bool) (v : Word) (hw : Memory.wf c.mem.hbm = true) : Memory.wf (c.mbxCmdWrite h off wide v).mem.hbm = true := by
  unfold Chip.mbxCmdWrite
  repeat' first | assumption | (simp; done) | (simp; assumption; done) | (dsimp only; split) | split | apply Chip.mbxRequest_wf | (apply foldl_wf <;> intros) | (refine pair_wf (by assumption) ?_) | (simp; done) | simp

theorem Chip.mbxWrite_wf (c : Chip) (h off : Nat) (wide : Bool) (v : Word) (hw : Memory.wf c.mem.hbm = true) : Memory.wf (c.mbxWrite h off wide v).mem.hbm = true := by
  unfold Chip.mbxWrite
  repeat' first | assumption | (simp; done) | (simp; assumption; done) | (dsimp only; split) | split | apply Chip.mbxCmdWrite_wf | (apply foldl_wf <;> intros) | (refine pair_wf (by assumption) ?_) | (simp; done) | simp

theorem Chip.barWrite_wf (c : Chip) (fn off : Nat) (wide : Bool) (v : Word) (hw : Memory.wf c.mem.hbm = true) : Memory.wf (c.barWrite fn off wide v).mem.hbm = true := by
  unfold Chip.barWrite
  repeat' first | assumption | (simp; done) | (simp; assumption; done) | (dsimp only; split) | split | apply Chip.mbxWrite_wf | (apply foldl_wf <;> intros) | (refine pair_wf (by assumption) ?_) | (simp; done) | simp

theorem Chip.registerWrite_wf (c : Chip) (fn : Nat) (reg : HostReg) (v : Word) (hw : Memory.wf c.mem.hbm = true) : Memory.wf (c.registerWrite fn reg v).mem.hbm = true := by
  unfold Chip.registerWrite
  repeat' first | assumption | (simp; done) | (simp; assumption; done) | (dsimp only; split) | split | apply Chip.barWrite_wf | (apply foldl_wf <;> intros) | (refine pair_wf (by assumption) ?_) | (simp; done) | simp

theorem Chip.numWrite_wf (c : Chip) (w : Writer) (area obj e size x : Nat) (idx : Option CtlIndices) (hw : Memory.wf c.mem.hbm = true) : Memory.wf (c.numWrite w area obj e size x idx).mem.hbm = true := by
  unfold Chip.numWrite
  repeat' first | assumption | (simp; done) | (simp; assumption; done) | (dsimp only; split) | split | apply Chip.rowWrite_wf | (apply foldl_wf <;> intros) | (refine pair_wf (by assumption) ?_) | (simp; done) | simp

theorem Chip.ctrWrite_wf (c : Chip) (w : Writer) (fn cmd ctr arg : Nat) (hw : Memory.wf c.mem.hbm = true) : Memory.wf (c.ctrWrite w fn cmd ctr arg).mem.hbm = true := by
  unfold Chip.ctrWrite
  repeat' first | assumption | (simp; done) | (simp; assumption; done) | (dsimp only; split) | split | apply Chip.numWrite_wf | (apply foldl_wf <;> intros) | (refine pair_wf (by assumption) ?_) | (simp; done) | simp

theorem Chip.requestOf_wf (c : Chip) (want : Packet → Bool) (h : Nat) (p : Packet) (miss : Option CtxKey) (hw : Memory.wf c.mem.hbm = true) : Memory.wf (c.requestOf want h p miss).mem.hbm = true := by
  unfold Chip.requestOf
  repeat' first | assumption | (simp; done) | (simp; assumption; done) | (dsimp only; split) | split | apply Chip.takeRequest_wf | (apply foldl_wf <;> intros) | (refine pair_wf (by assumption) ?_) | (simp; done) | simp

theorem Chip.closeRequest_wf (c : Chip) (h : Nat) (p : Packet) (hw : Memory.wf c.mem.hbm = true) : Memory.wf (c.closeRequest h p).mem.hbm = true := by
  unfold Chip.closeRequest
  repeat' first | assumption | (simp; done) | (simp; assumption; done) | (dsimp only; split) | split | apply Chip.takeRequest_wf | (apply foldl_wf <;> intros) | (refine pair_wf (by assumption) ?_) | (simp; done) | simp

theorem Chip.heldReadBack_wf (c : Chip) (fn slot : Nat) (data : SourceData) (hw : Memory.wf c.mem.hbm = true) : Memory.wf (c.heldReadBack fn slot data).mem.hbm = true := by
  unfold Chip.heldReadBack
  repeat' first | assumption | (simp; done) | (simp; assumption; done) | (dsimp only; split) | split | apply Chip.startCollective_wf | (apply foldl_wf <;> intros) | (refine pair_wf (by assumption) ?_) | (simp; done) | simp

end Sys2Proof.Machine
end

