-- ==== Sys2Proof/Laws/State.lean ====
section
/-! SUPPORT. What each named update of the chip leaves alone, one lemma for each field, and what it writes. -/

namespace Sys2Proof.Machine
set_option Elab.async false

/-! `Chip.setParam` -/

@[simp] theorem Chip.setParam_variant (c : Chip) (area obj e x : Nat) : (c.setParam area obj e x).variant = c.variant := rfl
@[simp] theorem Chip.setParam_serial (c : Chip) (area obj e x : Nat) : (c.setParam area obj e x).serial = c.serial := rfl
@[simp] theorem Chip.setParam_boot (c : Chip) (area obj e x : Nat) : (c.setParam area obj e x).boot = c.boot := rfl
@[simp] theorem Chip.setParam_flash (c : Chip) (area obj e x : Nat) : (c.setParam area obj e x).flash = c.flash := rfl
@[simp] theorem Chip.setParam_fw (c : Chip) (area obj e x : Nat) : (c.setParam area obj e x).fw = c.fw := rfl
@[simp] theorem Chip.setParam_ports (c : Chip) (area obj e x : Nat) : (c.setParam area obj e x).ports = c.ports := rfl
@[simp] theorem Chip.setParam_funcs (c : Chip) (area obj e x : Nat) : (c.setParam area obj e x).funcs = c.funcs := rfl
@[simp] theorem Chip.setParam_fifos (c : Chip) (area obj e x : Nat) : (c.setParam area obj e x).fifos = c.fifos := rfl
@[simp] theorem Chip.setParam_queues (c : Chip) (area obj e x : Nat) : (c.setParam area obj e x).queues = c.queues := rfl
@[simp] theorem Chip.setParam_tr (c : Chip) (area obj e x : Nat) : (c.setParam area obj e x).tr = c.tr := rfl
@[simp] theorem Chip.setParam_mt (c : Chip) (area obj e x : Nat) : (c.setParam area obj e x).mt = c.mt := rfl
@[simp] theorem Chip.setParam_tg (c : Chip) (area obj e x : Nat) : (c.setParam area obj e x).tg = c.tg := rfl
@[simp] theorem Chip.setParam_co (c : Chip) (area obj e x : Nat) : (c.setParam area obj e x).co = c.co := rfl
@[simp] theorem Chip.setParam_mem (c : Chip) (area obj e x : Nat) : (c.setParam area obj e x).mem = c.mem := rfl
@[simp] theorem Chip.setParam_br (c : Chip) (area obj e x : Nat) : (c.setParam area obj e x).br = c.br := rfl
@[simp] theorem Chip.setParam_rt (c : Chip) (area obj e x : Nat) : (c.setParam area obj e x).rt = c.rt := rfl
@[simp] theorem Chip.setParam_links (c : Chip) (area obj e x : Nat) : (c.setParam area obj e x).links = c.links := rfl
@[simp] theorem Chip.setParam_train (c : Chip) (area obj e x : Nat) : (c.setParam area obj e x).train = c.train := rfl
@[simp] theorem Chip.setParam_lanes (c : Chip) (area obj e x : Nat) : (c.setParam area obj e x).lanes = c.lanes := rfl
@[simp] theorem Chip.setParam_tb (c : Chip) (area obj e x : Nat) : (c.setParam area obj e x).tb = c.tb := rfl
@[simp] theorem Chip.setParam_pace (c : Chip) (area obj e x : Nat) : (c.setParam area obj e x).pace = c.pace := rfl
@[simp] theorem Chip.setParam_ctr (c : Chip) (area obj e x : Nat) : (c.setParam area obj e x).ctr = c.ctr := rfl
@[simp] theorem Chip.setParam_flt (c : Chip) (area obj e x : Nat) : (c.setParam area obj e x).flt = c.flt := rfl
@[simp] theorem Chip.setParam_free (c : Chip) (area obj e x : Nat) : (c.setParam area obj e x).free = c.free := rfl
@[simp] theorem Chip.setParam_out (c : Chip) (area obj e x : Nat) : (c.setParam area obj e x).out = c.out := rfl

/-! `Chip.updFn` -/

@[simp] theorem Chip.updFn_variant (c : Chip) (i : Nat) (f : Func → Func) : (c.updFn i f).variant = c.variant := rfl
@[simp] theorem Chip.updFn_serial (c : Chip) (i : Nat) (f : Func → Func) : (c.updFn i f).serial = c.serial := rfl
@[simp] theorem Chip.updFn_boot (c : Chip) (i : Nat) (f : Func → Func) : (c.updFn i f).boot = c.boot := rfl
@[simp] theorem Chip.updFn_flash (c : Chip) (i : Nat) (f : Func → Func) : (c.updFn i f).flash = c.flash := rfl
@[simp] theorem Chip.updFn_fw (c : Chip) (i : Nat) (f : Func → Func) : (c.updFn i f).fw = c.fw := rfl
@[simp] theorem Chip.updFn_dict (c : Chip) (i : Nat) (f : Func → Func) : (c.updFn i f).dict = c.dict := rfl
@[simp] theorem Chip.updFn_ports (c : Chip) (i : Nat) (f : Func → Func) : (c.updFn i f).ports = c.ports := rfl
@[simp] theorem Chip.updFn_fifos (c : Chip) (i : Nat) (f : Func → Func) : (c.updFn i f).fifos = c.fifos := rfl
@[simp] theorem Chip.updFn_queues (c : Chip) (i : Nat) (f : Func → Func) : (c.updFn i f).queues = c.queues := rfl
@[simp] theorem Chip.updFn_tr (c : Chip) (i : Nat) (f : Func → Func) : (c.updFn i f).tr = c.tr := rfl
@[simp] theorem Chip.updFn_mt (c : Chip) (i : Nat) (f : Func → Func) : (c.updFn i f).mt = c.mt := rfl
@[simp] theorem Chip.updFn_tg (c : Chip) (i : Nat) (f : Func → Func) : (c.updFn i f).tg = c.tg := rfl
@[simp] theorem Chip.updFn_co (c : Chip) (i : Nat) (f : Func → Func) : (c.updFn i f).co = c.co := rfl
@[simp] theorem Chip.updFn_mem (c : Chip) (i : Nat) (f : Func → Func) : (c.updFn i f).mem = c.mem := rfl
@[simp] theorem Chip.updFn_br (c : Chip) (i : Nat) (f : Func → Func) : (c.updFn i f).br = c.br := rfl
@[simp] theorem Chip.updFn_rt (c : Chip) (i : Nat) (f : Func → Func) : (c.updFn i f).rt = c.rt := rfl
@[simp] theorem Chip.updFn_links (c : Chip) (i : Nat) (f : Func → Func) : (c.updFn i f).links = c.links := rfl
@[simp] theorem Chip.updFn_train (c : Chip) (i : Nat) (f : Func → Func) : (c.updFn i f).train = c.train := rfl
@[simp] theorem Chip.updFn_lanes (c : Chip) (i : Nat) (f : Func → Func) : (c.updFn i f).lanes = c.lanes := rfl
@[simp] theorem Chip.updFn_tb (c : Chip) (i : Nat) (f : Func → Func) : (c.updFn i f).tb = c.tb := rfl
@[simp] theorem Chip.updFn_pace (c : Chip) (i : Nat) (f : Func → Func) : (c.updFn i f).pace = c.pace := rfl
@[simp] theorem Chip.updFn_ctr (c : Chip) (i : Nat) (f : Func → Func) : (c.updFn i f).ctr = c.ctr := rfl
@[simp] theorem Chip.updFn_flt (c : Chip) (i : Nat) (f : Func → Func) : (c.updFn i f).flt = c.flt := rfl
@[simp] theorem Chip.updFn_free (c : Chip) (i : Nat) (f : Func → Func) : (c.updFn i f).free = c.free := rfl
@[simp] theorem Chip.updFn_out (c : Chip) (i : Nat) (f : Func → Func) : (c.updFn i f).out = c.out := rfl

/-! `Chip.updPort` -/

@[simp] theorem Chip.updPort_variant (c : Chip) (h : Nat) (f : HostPort → HostPort) : (c.updPort h f).variant = c.variant := rfl
@[simp] theorem Chip.updPort_serial (c : Chip) (h : Nat) (f : HostPort → HostPort) : (c.updPort h f).serial = c.serial := rfl
@[simp] theorem Chip.updPort_boot (c : Chip) (h : Nat) (f : HostPort → HostPort) : (c.updPort h f).boot = c.boot := rfl
@[simp] theorem Chip.updPort_flash (c : Chip) (h : Nat) (f : HostPort → HostPort) : (c.updPort h f).flash = c.flash := rfl
@[simp] theorem Chip.updPort_fw (c : Chip) (h : Nat) (f : HostPort → HostPort) : (c.updPort h f).fw = c.fw := rfl
@[simp] theorem Chip.updPort_dict (c : Chip) (h : Nat) (f : HostPort → HostPort) : (c.updPort h f).dict = c.dict := rfl
@[simp] theorem Chip.updPort_funcs (c : Chip) (h : Nat) (f : HostPort → HostPort) : (c.updPort h f).funcs = c.funcs := rfl
@[simp] theorem Chip.updPort_fifos (c : Chip) (h : Nat) (f : HostPort → HostPort) : (c.updPort h f).fifos = c.fifos := rfl
@[simp] theorem Chip.updPort_queues (c : Chip) (h : Nat) (f : HostPort → HostPort) : (c.updPort h f).queues = c.queues := rfl
@[simp] theorem Chip.updPort_tr (c : Chip) (h : Nat) (f : HostPort → HostPort) : (c.updPort h f).tr = c.tr := rfl
@[simp] theorem Chip.updPort_mt (c : Chip) (h : Nat) (f : HostPort → HostPort) : (c.updPort h f).mt = c.mt := rfl
@[simp] theorem Chip.updPort_tg (c : Chip) (h : Nat) (f : HostPort → HostPort) : (c.updPort h f).tg = c.tg := rfl
@[simp] theorem Chip.updPort_co (c : Chip) (h : Nat) (f : HostPort → HostPort) : (c.updPort h f).co = c.co := rfl
@[simp] theorem Chip.updPort_mem (c : Chip) (h : Nat) (f : HostPort → HostPort) : (c.updPort h f).mem = c.mem := rfl
@[simp] theorem Chip.updPort_br (c : Chip) (h : Nat) (f : HostPort → HostPort) : (c.updPort h f).br = c.br := rfl
@[simp] theorem Chip.updPort_rt (c : Chip) (h : Nat) (f : HostPort → HostPort) : (c.updPort h f).rt = c.rt := rfl
@[simp] theorem Chip.updPort_links (c : Chip) (h : Nat) (f : HostPort → HostPort) : (c.updPort h f).links = c.links := rfl
@[simp] theorem Chip.updPort_train (c : Chip) (h : Nat) (f : HostPort → HostPort) : (c.updPort h f).train = c.train := rfl
@[simp] theorem Chip.updPort_lanes (c : Chip) (h : Nat) (f : HostPort → HostPort) : (c.updPort h f).lanes = c.lanes := rfl
@[simp] theorem Chip.updPort_tb (c : Chip) (h : Nat) (f : HostPort → HostPort) : (c.updPort h f).tb = c.tb := rfl
@[simp] theorem Chip.updPort_pace (c : Chip) (h : Nat) (f : HostPort → HostPort) : (c.updPort h f).pace = c.pace := rfl
@[simp] theorem Chip.updPort_ctr (c : Chip) (h : Nat) (f : HostPort → HostPort) : (c.updPort h f).ctr = c.ctr := rfl
@[simp] theorem Chip.updPort_flt (c : Chip) (h : Nat) (f : HostPort → HostPort) : (c.updPort h f).flt = c.flt := rfl
@[simp] theorem Chip.updPort_free (c : Chip) (h : Nat) (f : HostPort → HostPort) : (c.updPort h f).free = c.free := rfl
@[simp] theorem Chip.updPort_out (c : Chip) (h : Nat) (f : HostPort → HostPort) : (c.updPort h f).out = c.out := rfl

/-! `Chip.putQueue` -/

@[simp] theorem Chip.putQueue_variant (c : Chip) (h qn : Nat) (q : Queue) : (c.putQueue h qn q).variant = c.variant := rfl
@[simp] theorem Chip.putQueue_serial (c : Chip) (h qn : Nat) (q : Queue) : (c.putQueue h qn q).serial = c.serial := rfl
@[simp] theorem Chip.putQueue_boot (c : Chip) (h qn : Nat) (q : Queue) : (c.putQueue h qn q).boot = c.boot := rfl
@[simp] theorem Chip.putQueue_flash (c : Chip) (h qn : Nat) (q : Queue) : (c.putQueue h qn q).flash = c.flash := rfl
@[simp] theorem Chip.putQueue_fw (c : Chip) (h qn : Nat) (q : Queue) : (c.putQueue h qn q).fw = c.fw := rfl
@[simp] theorem Chip.putQueue_dict (c : Chip) (h qn : Nat) (q : Queue) : (c.putQueue h qn q).dict = c.dict := rfl
@[simp] theorem Chip.putQueue_ports (c : Chip) (h qn : Nat) (q : Queue) : (c.putQueue h qn q).ports = c.ports := rfl
@[simp] theorem Chip.putQueue_funcs (c : Chip) (h qn : Nat) (q : Queue) : (c.putQueue h qn q).funcs = c.funcs := rfl
@[simp] theorem Chip.putQueue_fifos (c : Chip) (h qn : Nat) (q : Queue) : (c.putQueue h qn q).fifos = c.fifos := rfl
@[simp] theorem Chip.putQueue_tr (c : Chip) (h qn : Nat) (q : Queue) : (c.putQueue h qn q).tr = c.tr := rfl
@[simp] theorem Chip.putQueue_mt (c : Chip) (h qn : Nat) (q : Queue) : (c.putQueue h qn q).mt = c.mt := rfl
@[simp] theorem Chip.putQueue_tg (c : Chip) (h qn : Nat) (q : Queue) : (c.putQueue h qn q).tg = c.tg := rfl
@[simp] theorem Chip.putQueue_co (c : Chip) (h qn : Nat) (q : Queue) : (c.putQueue h qn q).co = c.co := rfl
@[simp] theorem Chip.putQueue_mem (c : Chip) (h qn : Nat) (q : Queue) : (c.putQueue h qn q).mem = c.mem := rfl
@[simp] theorem Chip.putQueue_br (c : Chip) (h qn : Nat) (q : Queue) : (c.putQueue h qn q).br = c.br := rfl
@[simp] theorem Chip.putQueue_rt (c : Chip) (h qn : Nat) (q : Queue) : (c.putQueue h qn q).rt = c.rt := rfl
@[simp] theorem Chip.putQueue_links (c : Chip) (h qn : Nat) (q : Queue) : (c.putQueue h qn q).links = c.links := rfl
@[simp] theorem Chip.putQueue_train (c : Chip) (h qn : Nat) (q : Queue) : (c.putQueue h qn q).train = c.train := rfl
@[simp] theorem Chip.putQueue_lanes (c : Chip) (h qn : Nat) (q : Queue) : (c.putQueue h qn q).lanes = c.lanes := rfl
@[simp] theorem Chip.putQueue_tb (c : Chip) (h qn : Nat) (q : Queue) : (c.putQueue h qn q).tb = c.tb := rfl
@[simp] theorem Chip.putQueue_pace (c : Chip) (h qn : Nat) (q : Queue) : (c.putQueue h qn q).pace = c.pace := rfl
@[simp] theorem Chip.putQueue_ctr (c : Chip) (h qn : Nat) (q : Queue) : (c.putQueue h qn q).ctr = c.ctr := rfl
@[simp] theorem Chip.putQueue_flt (c : Chip) (h qn : Nat) (q : Queue) : (c.putQueue h qn q).flt = c.flt := rfl
@[simp] theorem Chip.putQueue_free (c : Chip) (h qn : Nat) (q : Queue) : (c.putQueue h qn q).free = c.free := rfl
@[simp] theorem Chip.putQueue_out (c : Chip) (h qn : Nat) (q : Queue) : (c.putQueue h qn q).out = c.out := rfl

/-! `Chip.updQueue` -/

@[simp] theorem Chip.updQueue_variant (c : Chip) (h qn : Nat) (f : Queue → Queue) : (c.updQueue h qn f).variant = c.variant := rfl
@[simp] theorem Chip.updQueue_serial (c : Chip) (h qn : Nat) (f : Queue → Queue) : (c.updQueue h qn f).serial = c.serial := rfl
@[simp] theorem Chip.updQueue_boot (c : Chip) (h qn : Nat) (f : Queue → Queue) : (c.updQueue h qn f).boot = c.boot := rfl
@[simp] theorem Chip.updQueue_flash (c : Chip) (h qn : Nat) (f : Queue → Queue) : (c.updQueue h qn f).flash = c.flash := rfl
@[simp] theorem Chip.updQueue_fw (c : Chip) (h qn : Nat) (f : Queue → Queue) : (c.updQueue h qn f).fw = c.fw := rfl
@[simp] theorem Chip.updQueue_dict (c : Chip) (h qn : Nat) (f : Queue → Queue) : (c.updQueue h qn f).dict = c.dict := rfl
@[simp] theorem Chip.updQueue_ports (c : Chip) (h qn : Nat) (f : Queue → Queue) : (c.updQueue h qn f).ports = c.ports := rfl
@[simp] theorem Chip.updQueue_funcs (c : Chip) (h qn : Nat) (f : Queue → Queue) : (c.updQueue h qn f).funcs = c.funcs := rfl
@[simp] theorem Chip.updQueue_fifos (c : Chip) (h qn : Nat) (f : Queue → Queue) : (c.updQueue h qn f).fifos = c.fifos := rfl
@[simp] theorem Chip.updQueue_tr (c : Chip) (h qn : Nat) (f : Queue → Queue) : (c.updQueue h qn f).tr = c.tr := rfl
@[simp] theorem Chip.updQueue_mt (c : Chip) (h qn : Nat) (f : Queue → Queue) : (c.updQueue h qn f).mt = c.mt := rfl
@[simp] theorem Chip.updQueue_tg (c : Chip) (h qn : Nat) (f : Queue → Queue) : (c.updQueue h qn f).tg = c.tg := rfl
@[simp] theorem Chip.updQueue_co (c : Chip) (h qn : Nat) (f : Queue → Queue) : (c.updQueue h qn f).co = c.co := rfl
@[simp] theorem Chip.updQueue_mem (c : Chip) (h qn : Nat) (f : Queue → Queue) : (c.updQueue h qn f).mem = c.mem := rfl
@[simp] theorem Chip.updQueue_br (c : Chip) (h qn : Nat) (f : Queue → Queue) : (c.updQueue h qn f).br = c.br := rfl
@[simp] theorem Chip.updQueue_rt (c : Chip) (h qn : Nat) (f : Queue → Queue) : (c.updQueue h qn f).rt = c.rt := rfl
@[simp] theorem Chip.updQueue_links (c : Chip) (h qn : Nat) (f : Queue → Queue) : (c.updQueue h qn f).links = c.links := rfl
@[simp] theorem Chip.updQueue_train (c : Chip) (h qn : Nat) (f : Queue → Queue) : (c.updQueue h qn f).train = c.train := rfl
@[simp] theorem Chip.updQueue_lanes (c : Chip) (h qn : Nat) (f : Queue → Queue) : (c.updQueue h qn f).lanes = c.lanes := rfl
@[simp] theorem Chip.updQueue_tb (c : Chip) (h qn : Nat) (f : Queue → Queue) : (c.updQueue h qn f).tb = c.tb := rfl
@[simp] theorem Chip.updQueue_pace (c : Chip) (h qn : Nat) (f : Queue → Queue) : (c.updQueue h qn f).pace = c.pace := rfl
@[simp] theorem Chip.updQueue_ctr (c : Chip) (h qn : Nat) (f : Queue → Queue) : (c.updQueue h qn f).ctr = c.ctr := rfl
@[simp] theorem Chip.updQueue_flt (c : Chip) (h qn : Nat) (f : Queue → Queue) : (c.updQueue h qn f).flt = c.flt := rfl
@[simp] theorem Chip.updQueue_free (c : Chip) (h qn : Nat) (f : Queue → Queue) : (c.updQueue h qn f).free = c.free := rfl
@[simp] theorem Chip.updQueue_out (c : Chip) (h qn : Nat) (f : Queue → Queue) : (c.updQueue h qn f).out = c.out := rfl

/-! `Chip.setSrc` -/

@[simp] theorem Chip.setSrc_variant (c : Chip) (unit cause : Nat) (s : Source) : (c.setSrc unit cause s).variant = c.variant := rfl
@[simp] theorem Chip.setSrc_serial (c : Chip) (unit cause : Nat) (s : Source) : (c.setSrc unit cause s).serial = c.serial := rfl
@[simp] theorem Chip.setSrc_boot (c : Chip) (unit cause : Nat) (s : Source) : (c.setSrc unit cause s).boot = c.boot := rfl
@[simp] theorem Chip.setSrc_flash (c : Chip) (unit cause : Nat) (s : Source) : (c.setSrc unit cause s).flash = c.flash := rfl
@[simp] theorem Chip.setSrc_fw (c : Chip) (unit cause : Nat) (s : Source) : (c.setSrc unit cause s).fw = c.fw := rfl
@[simp] theorem Chip.setSrc_dict (c : Chip) (unit cause : Nat) (s : Source) : (c.setSrc unit cause s).dict = c.dict := rfl
@[simp] theorem Chip.setSrc_ports (c : Chip) (unit cause : Nat) (s : Source) : (c.setSrc unit cause s).ports = c.ports := rfl
@[simp] theorem Chip.setSrc_funcs (c : Chip) (unit cause : Nat) (s : Source) : (c.setSrc unit cause s).funcs = c.funcs := rfl
@[simp] theorem Chip.setSrc_fifos (c : Chip) (unit cause : Nat) (s : Source) : (c.setSrc unit cause s).fifos = c.fifos := rfl
@[simp] theorem Chip.setSrc_queues (c : Chip) (unit cause : Nat) (s : Source) : (c.setSrc unit cause s).queues = c.queues := rfl
@[simp] theorem Chip.setSrc_tr (c : Chip) (unit cause : Nat) (s : Source) : (c.setSrc unit cause s).tr = c.tr := rfl
@[simp] theorem Chip.setSrc_mt (c : Chip) (unit cause : Nat) (s : Source) : (c.setSrc unit cause s).mt = c.mt := rfl
@[simp] theorem Chip.setSrc_tg (c : Chip) (unit cause : Nat) (s : Source) : (c.setSrc unit cause s).tg = c.tg := rfl
@[simp] theorem Chip.setSrc_co (c : Chip) (unit cause : Nat) (s : Source) : (c.setSrc unit cause s).co = c.co := rfl
@[simp] theorem Chip.setSrc_mem (c : Chip) (unit cause : Nat) (s : Source) : (c.setSrc unit cause s).mem = c.mem := rfl
@[simp] theorem Chip.setSrc_br (c : Chip) (unit cause : Nat) (s : Source) : (c.setSrc unit cause s).br = c.br := rfl
@[simp] theorem Chip.setSrc_rt (c : Chip) (unit cause : Nat) (s : Source) : (c.setSrc unit cause s).rt = c.rt := rfl
@[simp] theorem Chip.setSrc_links (c : Chip) (unit cause : Nat) (s : Source) : (c.setSrc unit cause s).links = c.links := rfl
@[simp] theorem Chip.setSrc_train (c : Chip) (unit cause : Nat) (s : Source) : (c.setSrc unit cause s).train = c.train := rfl
@[simp] theorem Chip.setSrc_lanes (c : Chip) (unit cause : Nat) (s : Source) : (c.setSrc unit cause s).lanes = c.lanes := rfl
@[simp] theorem Chip.setSrc_tb (c : Chip) (unit cause : Nat) (s : Source) : (c.setSrc unit cause s).tb = c.tb := rfl
@[simp] theorem Chip.setSrc_pace (c : Chip) (unit cause : Nat) (s : Source) : (c.setSrc unit cause s).pace = c.pace := rfl
@[simp] theorem Chip.setSrc_ctr (c : Chip) (unit cause : Nat) (s : Source) : (c.setSrc unit cause s).ctr = c.ctr := rfl
@[simp] theorem Chip.setSrc_free (c : Chip) (unit cause : Nat) (s : Source) : (c.setSrc unit cause s).free = c.free := rfl
@[simp] theorem Chip.setSrc_out (c : Chip) (unit cause : Nat) (s : Source) : (c.setSrc unit cause s).out = c.out := rfl

/-! `Chip.drawn` -/

@[simp] theorem Chip.drawn_variant (c : Chip) : c.drawn.variant = c.variant := rfl
@[simp] theorem Chip.drawn_serial (c : Chip) : c.drawn.serial = c.serial := rfl
@[simp] theorem Chip.drawn_boot (c : Chip) : c.drawn.boot = c.boot := rfl
@[simp] theorem Chip.drawn_flash (c : Chip) : c.drawn.flash = c.flash := rfl
@[simp] theorem Chip.drawn_fw (c : Chip) : c.drawn.fw = c.fw := rfl
@[simp] theorem Chip.drawn_dict (c : Chip) : c.drawn.dict = c.dict := rfl
@[simp] theorem Chip.drawn_ports (c : Chip) : c.drawn.ports = c.ports := rfl
@[simp] theorem Chip.drawn_funcs (c : Chip) : c.drawn.funcs = c.funcs := rfl
@[simp] theorem Chip.drawn_fifos (c : Chip) : c.drawn.fifos = c.fifos := rfl
@[simp] theorem Chip.drawn_queues (c : Chip) : c.drawn.queues = c.queues := rfl
@[simp] theorem Chip.drawn_tr (c : Chip) : c.drawn.tr = c.tr := rfl
@[simp] theorem Chip.drawn_mt (c : Chip) : c.drawn.mt = c.mt := rfl
@[simp] theorem Chip.drawn_tg (c : Chip) : c.drawn.tg = c.tg := rfl
@[simp] theorem Chip.drawn_co (c : Chip) : c.drawn.co = c.co := rfl
@[simp] theorem Chip.drawn_mem (c : Chip) : c.drawn.mem = c.mem := rfl
@[simp] theorem Chip.drawn_br (c : Chip) : c.drawn.br = c.br := rfl
@[simp] theorem Chip.drawn_rt (c : Chip) : c.drawn.rt = c.rt := rfl
@[simp] theorem Chip.drawn_links (c : Chip) : c.drawn.links = c.links := rfl
@[simp] theorem Chip.drawn_train (c : Chip) : c.drawn.train = c.train := rfl
@[simp] theorem Chip.drawn_lanes (c : Chip) : c.drawn.lanes = c.lanes := rfl
@[simp] theorem Chip.drawn_tb (c : Chip) : c.drawn.tb = c.tb := rfl
@[simp] theorem Chip.drawn_pace (c : Chip) : c.drawn.pace = c.pace := rfl
@[simp] theorem Chip.drawn_ctr (c : Chip) : c.drawn.ctr = c.ctr := rfl
@[simp] theorem Chip.drawn_flt (c : Chip) : c.drawn.flt = c.flt := rfl
@[simp] theorem Chip.drawn_out (c : Chip) : c.drawn.out = c.out := rfl

/-! `Chip.putChan` -/

@[simp] theorem Chip.putChan_variant (c : Chip) (k : Nat) (x : Chan) : (c.putChan k x).variant = c.variant := rfl
@[simp] theorem Chip.putChan_serial (c : Chip) (k : Nat) (x : Chan) : (c.putChan k x).serial = c.serial := rfl
@[simp] theorem Chip.putChan_boot (c : Chip) (k : Nat) (x : Chan) : (c.putChan k x).boot = c.boot := rfl
@[simp] theorem Chip.putChan_flash (c : Chip) (k : Nat) (x : Chan) : (c.putChan k x).flash = c.flash := rfl
@[simp] theorem Chip.putChan_fw (c : Chip) (k : Nat) (x : Chan) : (c.putChan k x).fw = c.fw := rfl
@[simp] theorem Chip.putChan_dict (c : Chip) (k : Nat) (x : Chan) : (c.putChan k x).dict = c.dict := rfl
@[simp] theorem Chip.putChan_ports (c : Chip) (k : Nat) (x : Chan) : (c.putChan k x).ports = c.ports := rfl
@[simp] theorem Chip.putChan_funcs (c : Chip) (k : Nat) (x : Chan) : (c.putChan k x).funcs = c.funcs := rfl
@[simp] theorem Chip.putChan_fifos (c : Chip) (k : Nat) (x : Chan) : (c.putChan k x).fifos = c.fifos := rfl
@[simp] theorem Chip.putChan_queues (c : Chip) (k : Nat) (x : Chan) : (c.putChan k x).queues = c.queues := rfl
@[simp] theorem Chip.putChan_mt (c : Chip) (k : Nat) (x : Chan) : (c.putChan k x).mt = c.mt := rfl
@[simp] theorem Chip.putChan_tg (c : Chip) (k : Nat) (x : Chan) : (c.putChan k x).tg = c.tg := rfl
@[simp] theorem Chip.putChan_co (c : Chip) (k : Nat) (x : Chan) : (c.putChan k x).co = c.co := rfl
@[simp] theorem Chip.putChan_mem (c : Chip) (k : Nat) (x : Chan) : (c.putChan k x).mem = c.mem := rfl
@[simp] theorem Chip.putChan_br (c : Chip) (k : Nat) (x : Chan) : (c.putChan k x).br = c.br := rfl
@[simp] theorem Chip.putChan_rt (c : Chip) (k : Nat) (x : Chan) : (c.putChan k x).rt = c.rt := rfl
@[simp] theorem Chip.putChan_links (c : Chip) (k : Nat) (x : Chan) : (c.putChan k x).links = c.links := rfl
@[simp] theorem Chip.putChan_train (c : Chip) (k : Nat) (x : Chan) : (c.putChan k x).train = c.train := rfl
@[simp] theorem Chip.putChan_lanes (c : Chip) (k : Nat) (x : Chan) : (c.putChan k x).lanes = c.lanes := rfl
@[simp] theorem Chip.putChan_tb (c : Chip) (k : Nat) (x : Chan) : (c.putChan k x).tb = c.tb := rfl
@[simp] theorem Chip.putChan_pace (c : Chip) (k : Nat) (x : Chan) : (c.putChan k x).pace = c.pace := rfl
@[simp] theorem Chip.putChan_ctr (c : Chip) (k : Nat) (x : Chan) : (c.putChan k x).ctr = c.ctr := rfl
@[simp] theorem Chip.putChan_flt (c : Chip) (k : Nat) (x : Chan) : (c.putChan k x).flt = c.flt := rfl
@[simp] theorem Chip.putChan_free (c : Chip) (k : Nat) (x : Chan) : (c.putChan k x).free = c.free := rfl
@[simp] theorem Chip.putChan_out (c : Chip) (k : Nat) (x : Chan) : (c.putChan k x).out = c.out := rfl

/-! `Chip.updChan` -/

@[simp] theorem Chip.updChan_variant (c : Chip) (k : Nat) (f : Chan → Chan) : (c.updChan k f).variant = c.variant := rfl
@[simp] theorem Chip.updChan_serial (c : Chip) (k : Nat) (f : Chan → Chan) : (c.updChan k f).serial = c.serial := rfl
@[simp] theorem Chip.updChan_boot (c : Chip) (k : Nat) (f : Chan → Chan) : (c.updChan k f).boot = c.boot := rfl
@[simp] theorem Chip.updChan_flash (c : Chip) (k : Nat) (f : Chan → Chan) : (c.updChan k f).flash = c.flash := rfl
@[simp] theorem Chip.updChan_fw (c : Chip) (k : Nat) (f : Chan → Chan) : (c.updChan k f).fw = c.fw := rfl
@[simp] theorem Chip.updChan_dict (c : Chip) (k : Nat) (f : Chan → Chan) : (c.updChan k f).dict = c.dict := rfl
@[simp] theorem Chip.updChan_ports (c : Chip) (k : Nat) (f : Chan → Chan) : (c.updChan k f).ports = c.ports := rfl
@[simp] theorem Chip.updChan_funcs (c : Chip) (k : Nat) (f : Chan → Chan) : (c.updChan k f).funcs = c.funcs := rfl
@[simp] theorem Chip.updChan_fifos (c : Chip) (k : Nat) (f : Chan → Chan) : (c.updChan k f).fifos = c.fifos := rfl
@[simp] theorem Chip.updChan_queues (c : Chip) (k : Nat) (f : Chan → Chan) : (c.updChan k f).queues = c.queues := rfl
@[simp] theorem Chip.updChan_mt (c : Chip) (k : Nat) (f : Chan → Chan) : (c.updChan k f).mt = c.mt := rfl
@[simp] theorem Chip.updChan_tg (c : Chip) (k : Nat) (f : Chan → Chan) : (c.updChan k f).tg = c.tg := rfl
@[simp] theorem Chip.updChan_co (c : Chip) (k : Nat) (f : Chan → Chan) : (c.updChan k f).co = c.co := rfl
@[simp] theorem Chip.updChan_mem (c : Chip) (k : Nat) (f : Chan → Chan) : (c.updChan k f).mem = c.mem := rfl
@[simp] theorem Chip.updChan_br (c : Chip) (k : Nat) (f : Chan → Chan) : (c.updChan k f).br = c.br := rfl
@[simp] theorem Chip.updChan_rt (c : Chip) (k : Nat) (f : Chan → Chan) : (c.updChan k f).rt = c.rt := rfl
@[simp] theorem Chip.updChan_links (c : Chip) (k : Nat) (f : Chan → Chan) : (c.updChan k f).links = c.links := rfl
@[simp] theorem Chip.updChan_train (c : Chip) (k : Nat) (f : Chan → Chan) : (c.updChan k f).train = c.train := rfl
@[simp] theorem Chip.updChan_lanes (c : Chip) (k : Nat) (f : Chan → Chan) : (c.updChan k f).lanes = c.lanes := rfl
@[simp] theorem Chip.updChan_tb (c : Chip) (k : Nat) (f : Chan → Chan) : (c.updChan k f).tb = c.tb := rfl
@[simp] theorem Chip.updChan_pace (c : Chip) (k : Nat) (f : Chan → Chan) : (c.updChan k f).pace = c.pace := rfl
@[simp] theorem Chip.updChan_ctr (c : Chip) (k : Nat) (f : Chan → Chan) : (c.updChan k f).ctr = c.ctr := rfl
@[simp] theorem Chip.updChan_flt (c : Chip) (k : Nat) (f : Chan → Chan) : (c.updChan k f).flt = c.flt := rfl
@[simp] theorem Chip.updChan_free (c : Chip) (k : Nat) (f : Chan → Chan) : (c.updChan k f).free = c.free := rfl
@[simp] theorem Chip.updChan_out (c : Chip) (k : Nat) (f : Chan → Chan) : (c.updChan k f).out = c.out := rfl

/-! `Chip.putDest` -/

@[simp] theorem Chip.putDest_variant (c : Chip) (chip : Nat) (d : Dest) : (c.putDest chip d).variant = c.variant := rfl
@[simp] theorem Chip.putDest_serial (c : Chip) (chip : Nat) (d : Dest) : (c.putDest chip d).serial = c.serial := rfl
@[simp] theorem Chip.putDest_boot (c : Chip) (chip : Nat) (d : Dest) : (c.putDest chip d).boot = c.boot := rfl
@[simp] theorem Chip.putDest_flash (c : Chip) (chip : Nat) (d : Dest) : (c.putDest chip d).flash = c.flash := rfl
@[simp] theorem Chip.putDest_fw (c : Chip) (chip : Nat) (d : Dest) : (c.putDest chip d).fw = c.fw := rfl
@[simp] theorem Chip.putDest_dict (c : Chip) (chip : Nat) (d : Dest) : (c.putDest chip d).dict = c.dict := rfl
@[simp] theorem Chip.putDest_ports (c : Chip) (chip : Nat) (d : Dest) : (c.putDest chip d).ports = c.ports := rfl
@[simp] theorem Chip.putDest_funcs (c : Chip) (chip : Nat) (d : Dest) : (c.putDest chip d).funcs = c.funcs := rfl
@[simp] theorem Chip.putDest_fifos (c : Chip) (chip : Nat) (d : Dest) : (c.putDest chip d).fifos = c.fifos := rfl
@[simp] theorem Chip.putDest_queues (c : Chip) (chip : Nat) (d : Dest) : (c.putDest chip d).queues = c.queues := rfl
@[simp] theorem Chip.putDest_mt (c : Chip) (chip : Nat) (d : Dest) : (c.putDest chip d).mt = c.mt := rfl
@[simp] theorem Chip.putDest_tg (c : Chip) (chip : Nat) (d : Dest) : (c.putDest chip d).tg = c.tg := rfl
@[simp] theorem Chip.putDest_co (c : Chip) (chip : Nat) (d : Dest) : (c.putDest chip d).co = c.co := rfl
@[simp] theorem Chip.putDest_mem (c : Chip) (chip : Nat) (d : Dest) : (c.putDest chip d).mem = c.mem := rfl
@[simp] theorem Chip.putDest_br (c : Chip) (chip : Nat) (d : Dest) : (c.putDest chip d).br = c.br := rfl
@[simp] theorem Chip.putDest_rt (c : Chip) (chip : Nat) (d : Dest) : (c.putDest chip d).rt = c.rt := rfl
@[simp] theorem Chip.putDest_links (c : Chip) (chip : Nat) (d : Dest) : (c.putDest chip d).links = c.links := rfl
@[simp] theorem Chip.putDest_train (c : Chip) (chip : Nat) (d : Dest) : (c.putDest chip d).train = c.train := rfl
@[simp] theorem Chip.putDest_lanes (c : Chip) (chip : Nat) (d : Dest) : (c.putDest chip d).lanes = c.lanes := rfl
@[simp] theorem Chip.putDest_tb (c : Chip) (chip : Nat) (d : Dest) : (c.putDest chip d).tb = c.tb := rfl
@[simp] theorem Chip.putDest_pace (c : Chip) (chip : Nat) (d : Dest) : (c.putDest chip d).pace = c.pace := rfl
@[simp] theorem Chip.putDest_ctr (c : Chip) (chip : Nat) (d : Dest) : (c.putDest chip d).ctr = c.ctr := rfl
@[simp] theorem Chip.putDest_flt (c : Chip) (chip : Nat) (d : Dest) : (c.putDest chip d).flt = c.flt := rfl
@[simp] theorem Chip.putDest_free (c : Chip) (chip : Nat) (d : Dest) : (c.putDest chip d).free = c.free := rfl
@[simp] theorem Chip.putDest_out (c : Chip) (chip : Nat) (d : Dest) : (c.putDest chip d).out = c.out := rfl

/-! `Chip.putCtr` -/

@[simp] theorem Chip.putCtr_variant (c : Chip) (n : Nat) (t : TCtr) : (c.putCtr n t).variant = c.variant := rfl
@[simp] theorem Chip.putCtr_serial (c : Chip) (n : Nat) (t : TCtr) : (c.putCtr n t).serial = c.serial := rfl
@[simp] theorem Chip.putCtr_boot (c : Chip) (n : Nat) (t : TCtr) : (c.putCtr n t).boot = c.boot := rfl
@[simp] theorem Chip.putCtr_flash (c : Chip) (n : Nat) (t : TCtr) : (c.putCtr n t).flash = c.flash := rfl
@[simp] theorem Chip.putCtr_fw (c : Chip) (n : Nat) (t : TCtr) : (c.putCtr n t).fw = c.fw := rfl
@[simp] theorem Chip.putCtr_dict (c : Chip) (n : Nat) (t : TCtr) : (c.putCtr n t).dict = c.dict := rfl
@[simp] theorem Chip.putCtr_ports (c : Chip) (n : Nat) (t : TCtr) : (c.putCtr n t).ports = c.ports := rfl
@[simp] theorem Chip.putCtr_funcs (c : Chip) (n : Nat) (t : TCtr) : (c.putCtr n t).funcs = c.funcs := rfl
@[simp] theorem Chip.putCtr_fifos (c : Chip) (n : Nat) (t : TCtr) : (c.putCtr n t).fifos = c.fifos := rfl
@[simp] theorem Chip.putCtr_queues (c : Chip) (n : Nat) (t : TCtr) : (c.putCtr n t).queues = c.queues := rfl
@[simp] theorem Chip.putCtr_tr (c : Chip) (n : Nat) (t : TCtr) : (c.putCtr n t).tr = c.tr := rfl
@[simp] theorem Chip.putCtr_mt (c : Chip) (n : Nat) (t : TCtr) : (c.putCtr n t).mt = c.mt := rfl
@[simp] theorem Chip.putCtr_co (c : Chip) (n : Nat) (t : TCtr) : (c.putCtr n t).co = c.co := rfl
@[simp] theorem Chip.putCtr_mem (c : Chip) (n : Nat) (t : TCtr) : (c.putCtr n t).mem = c.mem := rfl
@[simp] theorem Chip.putCtr_br (c : Chip) (n : Nat) (t : TCtr) : (c.putCtr n t).br = c.br := rfl
@[simp] theorem Chip.putCtr_rt (c : Chip) (n : Nat) (t : TCtr) : (c.putCtr n t).rt = c.rt := rfl
@[simp] theorem Chip.putCtr_links (c : Chip) (n : Nat) (t : TCtr) : (c.putCtr n t).links = c.links := rfl
@[simp] theorem Chip.putCtr_train (c : Chip) (n : Nat) (t : TCtr) : (c.putCtr n t).train = c.train := rfl
@[simp] theorem Chip.putCtr_lanes (c : Chip) (n : Nat) (t : TCtr) : (c.putCtr n t).lanes = c.lanes := rfl
@[simp] theorem Chip.putCtr_tb (c : Chip) (n : Nat) (t : TCtr) : (c.putCtr n t).tb = c.tb := rfl
@[simp] theorem Chip.putCtr_pace (c : Chip) (n : Nat) (t : TCtr) : (c.putCtr n t).pace = c.pace := rfl
@[simp] theorem Chip.putCtr_ctr (c : Chip) (n : Nat) (t : TCtr) : (c.putCtr n t).ctr = c.ctr := rfl
@[simp] theorem Chip.putCtr_flt (c : Chip) (n : Nat) (t : TCtr) : (c.putCtr n t).flt = c.flt := rfl
@[simp] theorem Chip.putCtr_free (c : Chip) (n : Nat) (t : TCtr) : (c.putCtr n t).free = c.free := rfl
@[simp] theorem Chip.putCtr_out (c : Chip) (n : Nat) (t : TCtr) : (c.putCtr n t).out = c.out := rfl

/-! `Chip.putFifo` -/

@[simp] theorem Chip.putFifo_variant (c : Chip) (i : Nat) (f : Fifo) : (c.putFifo i f).variant = c.variant := rfl
@[simp] theorem Chip.putFifo_serial (c : Chip) (i : Nat) (f : Fifo) : (c.putFifo i f).serial = c.serial := rfl
@[simp] theorem Chip.putFifo_boot (c : Chip) (i : Nat) (f : Fifo) : (c.putFifo i f).boot = c.boot := rfl
@[simp] theorem Chip.putFifo_flash (c : Chip) (i : Nat) (f : Fifo) : (c.putFifo i f).flash = c.flash := rfl
@[simp] theorem Chip.putFifo_fw (c : Chip) (i : Nat) (f : Fifo) : (c.putFifo i f).fw = c.fw := rfl
@[simp] theorem Chip.putFifo_dict (c : Chip) (i : Nat) (f : Fifo) : (c.putFifo i f).dict = c.dict := rfl
@[simp] theorem Chip.putFifo_ports (c : Chip) (i : Nat) (f : Fifo) : (c.putFifo i f).ports = c.ports := rfl
@[simp] theorem Chip.putFifo_funcs (c : Chip) (i : Nat) (f : Fifo) : (c.putFifo i f).funcs = c.funcs := rfl
@[simp] theorem Chip.putFifo_queues (c : Chip) (i : Nat) (f : Fifo) : (c.putFifo i f).queues = c.queues := rfl
@[simp] theorem Chip.putFifo_tr (c : Chip) (i : Nat) (f : Fifo) : (c.putFifo i f).tr = c.tr := rfl
@[simp] theorem Chip.putFifo_mt (c : Chip) (i : Nat) (f : Fifo) : (c.putFifo i f).mt = c.mt := rfl
@[simp] theorem Chip.putFifo_tg (c : Chip) (i : Nat) (f : Fifo) : (c.putFifo i f).tg = c.tg := rfl
@[simp] theorem Chip.putFifo_co (c : Chip) (i : Nat) (f : Fifo) : (c.putFifo i f).co = c.co := rfl
@[simp] theorem Chip.putFifo_mem (c : Chip) (i : Nat) (f : Fifo) : (c.putFifo i f).mem = c.mem := rfl
@[simp] theorem Chip.putFifo_br (c : Chip) (i : Nat) (f : Fifo) : (c.putFifo i f).br = c.br := rfl
@[simp] theorem Chip.putFifo_rt (c : Chip) (i : Nat) (f : Fifo) : (c.putFifo i f).rt = c.rt := rfl
@[simp] theorem Chip.putFifo_links (c : Chip) (i : Nat) (f : Fifo) : (c.putFifo i f).links = c.links := rfl
@[simp] theorem Chip.putFifo_train (c : Chip) (i : Nat) (f : Fifo) : (c.putFifo i f).train = c.train := rfl
@[simp] theorem Chip.putFifo_lanes (c : Chip) (i : Nat) (f : Fifo) : (c.putFifo i f).lanes = c.lanes := rfl
@[simp] theorem Chip.putFifo_tb (c : Chip) (i : Nat) (f : Fifo) : (c.putFifo i f).tb = c.tb := rfl
@[simp] theorem Chip.putFifo_pace (c : Chip) (i : Nat) (f : Fifo) : (c.putFifo i f).pace = c.pace := rfl
@[simp] theorem Chip.putFifo_ctr (c : Chip) (i : Nat) (f : Fifo) : (c.putFifo i f).ctr = c.ctr := rfl
@[simp] theorem Chip.putFifo_flt (c : Chip) (i : Nat) (f : Fifo) : (c.putFifo i f).flt = c.flt := rfl
@[simp] theorem Chip.putFifo_free (c : Chip) (i : Nat) (f : Fifo) : (c.putFifo i f).free = c.free := rfl
@[simp] theorem Chip.putFifo_out (c : Chip) (i : Nat) (f : Fifo) : (c.putFifo i f).out = c.out := rfl

/-! `Chip.updColl` -/

@[simp] theorem Chip.updColl_variant (c : Chip) (m : Nat) (s : BitVec 32) (f : COp → COp) : (c.updColl m s f).variant = c.variant := rfl
@[simp] theorem Chip.updColl_serial (c : Chip) (m : Nat) (s : BitVec 32) (f : COp → COp) : (c.updColl m s f).serial = c.serial := rfl
@[simp] theorem Chip.updColl_boot (c : Chip) (m : Nat) (s : BitVec 32) (f : COp → COp) : (c.updColl m s f).boot = c.boot := rfl
@[simp] theorem Chip.updColl_flash (c : Chip) (m : Nat) (s : BitVec 32) (f : COp → COp) : (c.updColl m s f).flash = c.flash := rfl
@[simp] theorem Chip.updColl_fw (c : Chip) (m : Nat) (s : BitVec 32) (f : COp → COp) : (c.updColl m s f).fw = c.fw := rfl
@[simp] theorem Chip.updColl_dict (c : Chip) (m : Nat) (s : BitVec 32) (f : COp → COp) : (c.updColl m s f).dict = c.dict := rfl
@[simp] theorem Chip.updColl_ports (c : Chip) (m : Nat) (s : BitVec 32) (f : COp → COp) : (c.updColl m s f).ports = c.ports := rfl
@[simp] theorem Chip.updColl_funcs (c : Chip) (m : Nat) (s : BitVec 32) (f : COp → COp) : (c.updColl m s f).funcs = c.funcs := rfl
@[simp] theorem Chip.updColl_fifos (c : Chip) (m : Nat) (s : BitVec 32) (f : COp → COp) : (c.updColl m s f).fifos = c.fifos := rfl
@[simp] theorem Chip.updColl_queues (c : Chip) (m : Nat) (s : BitVec 32) (f : COp → COp) : (c.updColl m s f).queues = c.queues := rfl
@[simp] theorem Chip.updColl_tr (c : Chip) (m : Nat) (s : BitVec 32) (f : COp → COp) : (c.updColl m s f).tr = c.tr := rfl
@[simp] theorem Chip.updColl_mt (c : Chip) (m : Nat) (s : BitVec 32) (f : COp → COp) : (c.updColl m s f).mt = c.mt := rfl
@[simp] theorem Chip.updColl_tg (c : Chip) (m : Nat) (s : BitVec 32) (f : COp → COp) : (c.updColl m s f).tg = c.tg := rfl
@[simp] theorem Chip.updColl_mem (c : Chip) (m : Nat) (s : BitVec 32) (f : COp → COp) : (c.updColl m s f).mem = c.mem := rfl
@[simp] theorem Chip.updColl_br (c : Chip) (m : Nat) (s : BitVec 32) (f : COp → COp) : (c.updColl m s f).br = c.br := rfl
@[simp] theorem Chip.updColl_rt (c : Chip) (m : Nat) (s : BitVec 32) (f : COp → COp) : (c.updColl m s f).rt = c.rt := rfl
@[simp] theorem Chip.updColl_links (c : Chip) (m : Nat) (s : BitVec 32) (f : COp → COp) : (c.updColl m s f).links = c.links := rfl
@[simp] theorem Chip.updColl_train (c : Chip) (m : Nat) (s : BitVec 32) (f : COp → COp) : (c.updColl m s f).train = c.train := rfl
@[simp] theorem Chip.updColl_lanes (c : Chip) (m : Nat) (s : BitVec 32) (f : COp → COp) : (c.updColl m s f).lanes = c.lanes := rfl
@[simp] theorem Chip.updColl_tb (c : Chip) (m : Nat) (s : BitVec 32) (f : COp → COp) : (c.updColl m s f).tb = c.tb := rfl
@[simp] theorem Chip.updColl_pace (c : Chip) (m : Nat) (s : BitVec 32) (f : COp → COp) : (c.updColl m s f).pace = c.pace := rfl
@[simp] theorem Chip.updColl_ctr (c : Chip) (m : Nat) (s : BitVec 32) (f : COp → COp) : (c.updColl m s f).ctr = c.ctr := rfl
@[simp] theorem Chip.updColl_flt (c : Chip) (m : Nat) (s : BitVec 32) (f : COp → COp) : (c.updColl m s f).flt = c.flt := rfl
@[simp] theorem Chip.updColl_free (c : Chip) (m : Nat) (s : BitVec 32) (f : COp → COp) : (c.updColl m s f).free = c.free := rfl
@[simp] theorem Chip.updColl_out (c : Chip) (m : Nat) (s : BitVec 32) (f : COp → COp) : (c.updColl m s f).out = c.out := rfl

/-! `Chip.updGroup` -/

@[simp] theorem Chip.updGroup_variant (c : Chip) (g : Nat) (f : Group → Group) : (c.updGroup g f).variant = c.variant := rfl
@[simp] theorem Chip.updGroup_serial (c : Chip) (g : Nat) (f : Group → Group) : (c.updGroup g f).serial = c.serial := rfl
@[simp] theorem Chip.updGroup_boot (c : Chip) (g : Nat) (f : Group → Group) : (c.updGroup g f).boot = c.boot := rfl
@[simp] theorem Chip.updGroup_flash (c : Chip) (g : Nat) (f : Group → Group) : (c.updGroup g f).flash = c.flash := rfl
@[simp] theorem Chip.updGroup_fw (c : Chip) (g : Nat) (f : Group → Group) : (c.updGroup g f).fw = c.fw := rfl
@[simp] theorem Chip.updGroup_dict (c : Chip) (g : Nat) (f : Group → Group) : (c.updGroup g f).dict = c.dict := rfl
@[simp] theorem Chip.updGroup_ports (c : Chip) (g : Nat) (f : Group → Group) : (c.updGroup g f).ports = c.ports := rfl
@[simp] theorem Chip.updGroup_funcs (c : Chip) (g : Nat) (f : Group → Group) : (c.updGroup g f).funcs = c.funcs := rfl
@[simp] theorem Chip.updGroup_fifos (c : Chip) (g : Nat) (f : Group → Group) : (c.updGroup g f).fifos = c.fifos := rfl
@[simp] theorem Chip.updGroup_queues (c : Chip) (g : Nat) (f : Group → Group) : (c.updGroup g f).queues = c.queues := rfl
@[simp] theorem Chip.updGroup_tr (c : Chip) (g : Nat) (f : Group → Group) : (c.updGroup g f).tr = c.tr := rfl
@[simp] theorem Chip.updGroup_mt (c : Chip) (g : Nat) (f : Group → Group) : (c.updGroup g f).mt = c.mt := rfl
@[simp] theorem Chip.updGroup_tg (c : Chip) (g : Nat) (f : Group → Group) : (c.updGroup g f).tg = c.tg := rfl
@[simp] theorem Chip.updGroup_co (c : Chip) (g : Nat) (f : Group → Group) : (c.updGroup g f).co = c.co := rfl
@[simp] theorem Chip.updGroup_br (c : Chip) (g : Nat) (f : Group → Group) : (c.updGroup g f).br = c.br := rfl
@[simp] theorem Chip.updGroup_rt (c : Chip) (g : Nat) (f : Group → Group) : (c.updGroup g f).rt = c.rt := rfl
@[simp] theorem Chip.updGroup_links (c : Chip) (g : Nat) (f : Group → Group) : (c.updGroup g f).links = c.links := rfl
@[simp] theorem Chip.updGroup_train (c : Chip) (g : Nat) (f : Group → Group) : (c.updGroup g f).train = c.train := rfl
@[simp] theorem Chip.updGroup_lanes (c : Chip) (g : Nat) (f : Group → Group) : (c.updGroup g f).lanes = c.lanes := rfl
@[simp] theorem Chip.updGroup_tb (c : Chip) (g : Nat) (f : Group → Group) : (c.updGroup g f).tb = c.tb := rfl
@[simp] theorem Chip.updGroup_pace (c : Chip) (g : Nat) (f : Group → Group) : (c.updGroup g f).pace = c.pace := rfl
@[simp] theorem Chip.updGroup_ctr (c : Chip) (g : Nat) (f : Group → Group) : (c.updGroup g f).ctr = c.ctr := rfl
@[simp] theorem Chip.updGroup_flt (c : Chip) (g : Nat) (f : Group → Group) : (c.updGroup g f).flt = c.flt := rfl
@[simp] theorem Chip.updGroup_free (c : Chip) (g : Nat) (f : Group → Group) : (c.updGroup g f).free = c.free := rfl
@[simp] theorem Chip.updGroup_out (c : Chip) (g : Nat) (f : Group → Group) : (c.updGroup g f).out = c.out := rfl

/-! `Chip.hbmWrite` -/

@[simp] theorem Chip.hbmWrite_variant (c : Chip) (a : Nat) (l : List Byte) : (c.hbmWrite a l).variant = c.variant := rfl
@[simp] theorem Chip.hbmWrite_serial (c : Chip) (a : Nat) (l : List Byte) : (c.hbmWrite a l).serial = c.serial := rfl
@[simp] theorem Chip.hbmWrite_boot (c : Chip) (a : Nat) (l : List Byte) : (c.hbmWrite a l).boot = c.boot := rfl
@[simp] theorem Chip.hbmWrite_flash (c : Chip) (a : Nat) (l : List Byte) : (c.hbmWrite a l).flash = c.flash := rfl
@[simp] theorem Chip.hbmWrite_fw (c : Chip) (a : Nat) (l : List Byte) : (c.hbmWrite a l).fw = c.fw := rfl
@[simp] theorem Chip.hbmWrite_dict (c : Chip) (a : Nat) (l : List Byte) : (c.hbmWrite a l).dict = c.dict := rfl
@[simp] theorem Chip.hbmWrite_ports (c : Chip) (a : Nat) (l : List Byte) : (c.hbmWrite a l).ports = c.ports := rfl
@[simp] theorem Chip.hbmWrite_funcs (c : Chip) (a : Nat) (l : List Byte) : (c.hbmWrite a l).funcs = c.funcs := rfl
@[simp] theorem Chip.hbmWrite_fifos (c : Chip) (a : Nat) (l : List Byte) : (c.hbmWrite a l).fifos = c.fifos := rfl
@[simp] theorem Chip.hbmWrite_queues (c : Chip) (a : Nat) (l : List Byte) : (c.hbmWrite a l).queues = c.queues := rfl
@[simp] theorem Chip.hbmWrite_tr (c : Chip) (a : Nat) (l : List Byte) : (c.hbmWrite a l).tr = c.tr := rfl
@[simp] theorem Chip.hbmWrite_mt (c : Chip) (a : Nat) (l : List Byte) : (c.hbmWrite a l).mt = c.mt := rfl
@[simp] theorem Chip.hbmWrite_tg (c : Chip) (a : Nat) (l : List Byte) : (c.hbmWrite a l).tg = c.tg := rfl
@[simp] theorem Chip.hbmWrite_co (c : Chip) (a : Nat) (l : List Byte) : (c.hbmWrite a l).co = c.co := rfl
@[simp] theorem Chip.hbmWrite_br (c : Chip) (a : Nat) (l : List Byte) : (c.hbmWrite a l).br = c.br := rfl
@[simp] theorem Chip.hbmWrite_rt (c : Chip) (a : Nat) (l : List Byte) : (c.hbmWrite a l).rt = c.rt := rfl
@[simp] theorem Chip.hbmWrite_links (c : Chip) (a : Nat) (l : List Byte) : (c.hbmWrite a l).links = c.links := rfl
@[simp] theorem Chip.hbmWrite_train (c : Chip) (a : Nat) (l : List Byte) : (c.hbmWrite a l).train = c.train := rfl
@[simp] theorem Chip.hbmWrite_lanes (c : Chip) (a : Nat) (l : List Byte) : (c.hbmWrite a l).lanes = c.lanes := rfl
@[simp] theorem Chip.hbmWrite_tb (c : Chip) (a : Nat) (l : List Byte) : (c.hbmWrite a l).tb = c.tb := rfl
@[simp] theorem Chip.hbmWrite_pace (c : Chip) (a : Nat) (l : List Byte) : (c.hbmWrite a l).pace = c.pace := rfl
@[simp] theorem Chip.hbmWrite_ctr (c : Chip) (a : Nat) (l : List Byte) : (c.hbmWrite a l).ctr = c.ctr := rfl
@[simp] theorem Chip.hbmWrite_flt (c : Chip) (a : Nat) (l : List Byte) : (c.hbmWrite a l).flt = c.flt := rfl
@[simp] theorem Chip.hbmWrite_free (c : Chip) (a : Nat) (l : List Byte) : (c.hbmWrite a l).free = c.free := rfl
@[simp] theorem Chip.hbmWrite_out (c : Chip) (a : Nat) (l : List Byte) : (c.hbmWrite a l).out = c.out := rfl

/-! `Chip.updLane` -/

@[simp] theorem Chip.updLane_variant (c : Chip) (n : Nat) (f : Lane → Lane) : (c.updLane n f).variant = c.variant := rfl
@[simp] theorem Chip.updLane_serial (c : Chip) (n : Nat) (f : Lane → Lane) : (c.updLane n f).serial = c.serial := rfl
@[simp] theorem Chip.updLane_boot (c : Chip) (n : Nat) (f : Lane → Lane) : (c.updLane n f).boot = c.boot := rfl
@[simp] theorem Chip.updLane_flash (c : Chip) (n : Nat) (f : Lane → Lane) : (c.updLane n f).flash = c.flash := rfl
@[simp] theorem Chip.updLane_fw (c : Chip) (n : Nat) (f : Lane → Lane) : (c.updLane n f).fw = c.fw := rfl
@[simp] theorem Chip.updLane_dict (c : Chip) (n : Nat) (f : Lane → Lane) : (c.updLane n f).dict = c.dict := rfl
@[simp] theorem Chip.updLane_ports (c : Chip) (n : Nat) (f : Lane → Lane) : (c.updLane n f).ports = c.ports := rfl
@[simp] theorem Chip.updLane_funcs (c : Chip) (n : Nat) (f : Lane → Lane) : (c.updLane n f).funcs = c.funcs := rfl
@[simp] theorem Chip.updLane_fifos (c : Chip) (n : Nat) (f : Lane → Lane) : (c.updLane n f).fifos = c.fifos := rfl
@[simp] theorem Chip.updLane_queues (c : Chip) (n : Nat) (f : Lane → Lane) : (c.updLane n f).queues = c.queues := rfl
@[simp] theorem Chip.updLane_tr (c : Chip) (n : Nat) (f : Lane → Lane) : (c.updLane n f).tr = c.tr := rfl
@[simp] theorem Chip.updLane_mt (c : Chip) (n : Nat) (f : Lane → Lane) : (c.updLane n f).mt = c.mt := rfl
@[simp] theorem Chip.updLane_tg (c : Chip) (n : Nat) (f : Lane → Lane) : (c.updLane n f).tg = c.tg := rfl
@[simp] theorem Chip.updLane_co (c : Chip) (n : Nat) (f : Lane → Lane) : (c.updLane n f).co = c.co := rfl
@[simp] theorem Chip.updLane_mem (c : Chip) (n : Nat) (f : Lane → Lane) : (c.updLane n f).mem = c.mem := rfl
@[simp] theorem Chip.updLane_br (c : Chip) (n : Nat) (f : Lane → Lane) : (c.updLane n f).br = c.br := rfl
@[simp] theorem Chip.updLane_rt (c : Chip) (n : Nat) (f : Lane → Lane) : (c.updLane n f).rt = c.rt := rfl
@[simp] theorem Chip.updLane_links (c : Chip) (n : Nat) (f : Lane → Lane) : (c.updLane n f).links = c.links := rfl
@[simp] theorem Chip.updLane_train (c : Chip) (n : Nat) (f : Lane → Lane) : (c.updLane n f).train = c.train := rfl
@[simp] theorem Chip.updLane_tb (c : Chip) (n : Nat) (f : Lane → Lane) : (c.updLane n f).tb = c.tb := rfl
@[simp] theorem Chip.updLane_pace (c : Chip) (n : Nat) (f : Lane → Lane) : (c.updLane n f).pace = c.pace := rfl
@[simp] theorem Chip.updLane_ctr (c : Chip) (n : Nat) (f : Lane → Lane) : (c.updLane n f).ctr = c.ctr := rfl
@[simp] theorem Chip.updLane_flt (c : Chip) (n : Nat) (f : Lane → Lane) : (c.updLane n f).flt = c.flt := rfl
@[simp] theorem Chip.updLane_free (c : Chip) (n : Nat) (f : Lane → Lane) : (c.updLane n f).free = c.free := rfl
@[simp] theorem Chip.updLane_out (c : Chip) (n : Nat) (f : Lane → Lane) : (c.updLane n f).out = c.out := rfl

/-! `Chip.updLink` -/

@[simp] theorem Chip.updLink_variant (c : Chip) (p : Nat) (f : Link → Link) : (c.updLink p f).variant = c.variant := rfl
@[simp] theorem Chip.updLink_serial (c : Chip) (p : Nat) (f : Link → Link) : (c.updLink p f).serial = c.serial := rfl
@[simp] theorem Chip.updLink_boot (c : Chip) (p : Nat) (f : Link → Link) : (c.updLink p f).boot = c.boot := rfl
@[simp] theorem Chip.updLink_flash (c : Chip) (p : Nat) (f : Link → Link) : (c.updLink p f).flash = c.flash := rfl
@[simp] theorem Chip.updLink_fw (c : Chip) (p : Nat) (f : Link → Link) : (c.updLink p f).fw = c.fw := rfl
@[simp] theorem Chip.updLink_dict (c : Chip) (p : Nat) (f : Link → Link) : (c.updLink p f).dict = c.dict := rfl
@[simp] theorem Chip.updLink_ports (c : Chip) (p : Nat) (f : Link → Link) : (c.updLink p f).ports = c.ports := rfl
@[simp] theorem Chip.updLink_funcs (c : Chip) (p : Nat) (f : Link → Link) : (c.updLink p f).funcs = c.funcs := rfl
@[simp] theorem Chip.updLink_fifos (c : Chip) (p : Nat) (f : Link → Link) : (c.updLink p f).fifos = c.fifos := rfl
@[simp] theorem Chip.updLink_queues (c : Chip) (p : Nat) (f : Link → Link) : (c.updLink p f).queues = c.queues := rfl
@[simp] theorem Chip.updLink_tr (c : Chip) (p : Nat) (f : Link → Link) : (c.updLink p f).tr = c.tr := rfl
@[simp] theorem Chip.updLink_mt (c : Chip) (p : Nat) (f : Link → Link) : (c.updLink p f).mt = c.mt := rfl
@[simp] theorem Chip.updLink_tg (c : Chip) (p : Nat) (f : Link → Link) : (c.updLink p f).tg = c.tg := rfl
@[simp] theorem Chip.updLink_co (c : Chip) (p : Nat) (f : Link → Link) : (c.updLink p f).co = c.co := rfl
@[simp] theorem Chip.updLink_mem (c : Chip) (p : Nat) (f : Link → Link) : (c.updLink p f).mem = c.mem := rfl
@[simp] theorem Chip.updLink_br (c : Chip) (p : Nat) (f : Link → Link) : (c.updLink p f).br = c.br := rfl
@[simp] theorem Chip.updLink_rt (c : Chip) (p : Nat) (f : Link → Link) : (c.updLink p f).rt = c.rt := rfl
@[simp] theorem Chip.updLink_train (c : Chip) (p : Nat) (f : Link → Link) : (c.updLink p f).train = c.train := rfl
@[simp] theorem Chip.updLink_lanes (c : Chip) (p : Nat) (f : Link → Link) : (c.updLink p f).lanes = c.lanes := rfl
@[simp] theorem Chip.updLink_tb (c : Chip) (p : Nat) (f : Link → Link) : (c.updLink p f).tb = c.tb := rfl
@[simp] theorem Chip.updLink_pace (c : Chip) (p : Nat) (f : Link → Link) : (c.updLink p f).pace = c.pace := rfl
@[simp] theorem Chip.updLink_ctr (c : Chip) (p : Nat) (f : Link → Link) : (c.updLink p f).ctr = c.ctr := rfl
@[simp] theorem Chip.updLink_flt (c : Chip) (p : Nat) (f : Link → Link) : (c.updLink p f).flt = c.flt := rfl
@[simp] theorem Chip.updLink_free (c : Chip) (p : Nat) (f : Link → Link) : (c.updLink p f).free = c.free := rfl
@[simp] theorem Chip.updLink_out (c : Chip) (p : Nat) (f : Link → Link) : (c.updLink p f).out = c.out := rfl

/-! `Chip.updPortT` -/

@[simp] theorem Chip.updPortT_variant (c : Chip) (p : Nat) (f : Port → Port) : (c.updPortT p f).variant = c.variant := rfl
@[simp] theorem Chip.updPortT_serial (c : Chip) (p : Nat) (f : Port → Port) : (c.updPortT p f).serial = c.serial := rfl
@[simp] theorem Chip.updPortT_boot (c : Chip) (p : Nat) (f : Port → Port) : (c.updPortT p f).boot = c.boot := rfl
@[simp] theorem Chip.updPortT_flash (c : Chip) (p : Nat) (f : Port → Port) : (c.updPortT p f).flash = c.flash := rfl
@[simp] theorem Chip.updPortT_fw (c : Chip) (p : Nat) (f : Port → Port) : (c.updPortT p f).fw = c.fw := rfl
@[simp] theorem Chip.updPortT_dict (c : Chip) (p : Nat) (f : Port → Port) : (c.updPortT p f).dict = c.dict := rfl
@[simp] theorem Chip.updPortT_ports (c : Chip) (p : Nat) (f : Port → Port) : (c.updPortT p f).ports = c.ports := rfl
@[simp] theorem Chip.updPortT_funcs (c : Chip) (p : Nat) (f : Port → Port) : (c.updPortT p f).funcs = c.funcs := rfl
@[simp] theorem Chip.updPortT_fifos (c : Chip) (p : Nat) (f : Port → Port) : (c.updPortT p f).fifos = c.fifos := rfl
@[simp] theorem Chip.updPortT_queues (c : Chip) (p : Nat) (f : Port → Port) : (c.updPortT p f).queues = c.queues := rfl
@[simp] theorem Chip.updPortT_tr (c : Chip) (p : Nat) (f : Port → Port) : (c.updPortT p f).tr = c.tr := rfl
@[simp] theorem Chip.updPortT_mt (c : Chip) (p : Nat) (f : Port → Port) : (c.updPortT p f).mt = c.mt := rfl
@[simp] theorem Chip.updPortT_tg (c : Chip) (p : Nat) (f : Port → Port) : (c.updPortT p f).tg = c.tg := rfl
@[simp] theorem Chip.updPortT_co (c : Chip) (p : Nat) (f : Port → Port) : (c.updPortT p f).co = c.co := rfl
@[simp] theorem Chip.updPortT_mem (c : Chip) (p : Nat) (f : Port → Port) : (c.updPortT p f).mem = c.mem := rfl
@[simp] theorem Chip.updPortT_br (c : Chip) (p : Nat) (f : Port → Port) : (c.updPortT p f).br = c.br := rfl
@[simp] theorem Chip.updPortT_rt (c : Chip) (p : Nat) (f : Port → Port) : (c.updPortT p f).rt = c.rt := rfl
@[simp] theorem Chip.updPortT_links (c : Chip) (p : Nat) (f : Port → Port) : (c.updPortT p f).links = c.links := rfl
@[simp] theorem Chip.updPortT_lanes (c : Chip) (p : Nat) (f : Port → Port) : (c.updPortT p f).lanes = c.lanes := rfl
@[simp] theorem Chip.updPortT_tb (c : Chip) (p : Nat) (f : Port → Port) : (c.updPortT p f).tb = c.tb := rfl
@[simp] theorem Chip.updPortT_pace (c : Chip) (p : Nat) (f : Port → Port) : (c.updPortT p f).pace = c.pace := rfl
@[simp] theorem Chip.updPortT_ctr (c : Chip) (p : Nat) (f : Port → Port) : (c.updPortT p f).ctr = c.ctr := rfl
@[simp] theorem Chip.updPortT_flt (c : Chip) (p : Nat) (f : Port → Port) : (c.updPortT p f).flt = c.flt := rfl
@[simp] theorem Chip.updPortT_free (c : Chip) (p : Nat) (f : Port → Port) : (c.updPortT p f).free = c.free := rfl
@[simp] theorem Chip.updPortT_out (c : Chip) (p : Nat) (f : Port → Port) : (c.updPortT p f).out = c.out := rfl

/-! `Chip.updMailbox` -/

@[simp] theorem Chip.updMailbox_variant (c : Chip) (h : Nat) (f : Mailbox → Mailbox) : (c.updMailbox h f).variant = c.variant := rfl
@[simp] theorem Chip.updMailbox_serial (c : Chip) (h : Nat) (f : Mailbox → Mailbox) : (c.updMailbox h f).serial = c.serial := rfl
@[simp] theorem Chip.updMailbox_boot (c : Chip) (h : Nat) (f : Mailbox → Mailbox) : (c.updMailbox h f).boot = c.boot := rfl
@[simp] theorem Chip.updMailbox_flash (c : Chip) (h : Nat) (f : Mailbox → Mailbox) : (c.updMailbox h f).flash = c.flash := rfl
@[simp] theorem Chip.updMailbox_fw (c : Chip) (h : Nat) (f : Mailbox → Mailbox) : (c.updMailbox h f).fw = c.fw := rfl
@[simp] theorem Chip.updMailbox_ports (c : Chip) (h : Nat) (f : Mailbox → Mailbox) : (c.updMailbox h f).ports = c.ports := rfl
@[simp] theorem Chip.updMailbox_funcs (c : Chip) (h : Nat) (f : Mailbox → Mailbox) : (c.updMailbox h f).funcs = c.funcs := rfl
@[simp] theorem Chip.updMailbox_fifos (c : Chip) (h : Nat) (f : Mailbox → Mailbox) : (c.updMailbox h f).fifos = c.fifos := rfl
@[simp] theorem Chip.updMailbox_queues (c : Chip) (h : Nat) (f : Mailbox → Mailbox) : (c.updMailbox h f).queues = c.queues := rfl
@[simp] theorem Chip.updMailbox_tr (c : Chip) (h : Nat) (f : Mailbox → Mailbox) : (c.updMailbox h f).tr = c.tr := rfl
@[simp] theorem Chip.updMailbox_mt (c : Chip) (h : Nat) (f : Mailbox → Mailbox) : (c.updMailbox h f).mt = c.mt := rfl
@[simp] theorem Chip.updMailbox_tg (c : Chip) (h : Nat) (f : Mailbox → Mailbox) : (c.updMailbox h f).tg = c.tg := rfl
@[simp] theorem Chip.updMailbox_co (c : Chip) (h : Nat) (f : Mailbox → Mailbox) : (c.updMailbox h f).co = c.co := rfl
@[simp] theorem Chip.updMailbox_mem (c : Chip) (h : Nat) (f : Mailbox → Mailbox) : (c.updMailbox h f).mem = c.mem := rfl
@[simp] theorem Chip.updMailbox_br (c : Chip) (h : Nat) (f : Mailbox → Mailbox) : (c.updMailbox h f).br = c.br := rfl
@[simp] theorem Chip.updMailbox_rt (c : Chip) (h : Nat) (f : Mailbox → Mailbox) : (c.updMailbox h f).rt = c.rt := rfl
@[simp] theorem Chip.updMailbox_links (c : Chip) (h : Nat) (f : Mailbox → Mailbox) : (c.updMailbox h f).links = c.links := rfl
@[simp] theorem Chip.updMailbox_train (c : Chip) (h : Nat) (f : Mailbox → Mailbox) : (c.updMailbox h f).train = c.train := rfl
@[simp] theorem Chip.updMailbox_lanes (c : Chip) (h : Nat) (f : Mailbox → Mailbox) : (c.updMailbox h f).lanes = c.lanes := rfl
@[simp] theorem Chip.updMailbox_tb (c : Chip) (h : Nat) (f : Mailbox → Mailbox) : (c.updMailbox h f).tb = c.tb := rfl
@[simp] theorem Chip.updMailbox_pace (c : Chip) (h : Nat) (f : Mailbox → Mailbox) : (c.updMailbox h f).pace = c.pace := rfl
@[simp] theorem Chip.updMailbox_ctr (c : Chip) (h : Nat) (f : Mailbox → Mailbox) : (c.updMailbox h f).ctr = c.ctr := rfl
@[simp] theorem Chip.updMailbox_flt (c : Chip) (h : Nat) (f : Mailbox → Mailbox) : (c.updMailbox h f).flt = c.flt := rfl
@[simp] theorem Chip.updMailbox_free (c : Chip) (h : Nat) (f : Mailbox → Mailbox) : (c.updMailbox h f).free = c.free := rfl
@[simp] theorem Chip.updMailbox_out (c : Chip) (h : Nat) (f : Mailbox → Mailbox) : (c.updMailbox h f).out = c.out := rfl

/-! `Chip.putSched` -/

@[simp] theorem Chip.putSched_variant (c : Chip) (out : Nat) (s : OutSched) : (c.putSched out s).variant = c.variant := rfl
@[simp] theorem Chip.putSched_serial (c : Chip) (out : Nat) (s : OutSched) : (c.putSched out s).serial = c.serial := rfl
@[simp] theorem Chip.putSched_boot (c : Chip) (out : Nat) (s : OutSched) : (c.putSched out s).boot = c.boot := rfl
@[simp] theorem Chip.putSched_flash (c : Chip) (out : Nat) (s : OutSched) : (c.putSched out s).flash = c.flash := rfl
@[simp] theorem Chip.putSched_fw (c : Chip) (out : Nat) (s : OutSched) : (c.putSched out s).fw = c.fw := rfl
@[simp] theorem Chip.putSched_dict (c : Chip) (out : Nat) (s : OutSched) : (c.putSched out s).dict = c.dict := rfl
@[simp] theorem Chip.putSched_ports (c : Chip) (out : Nat) (s : OutSched) : (c.putSched out s).ports = c.ports := rfl
@[simp] theorem Chip.putSched_funcs (c : Chip) (out : Nat) (s : OutSched) : (c.putSched out s).funcs = c.funcs := rfl
@[simp] theorem Chip.putSched_fifos (c : Chip) (out : Nat) (s : OutSched) : (c.putSched out s).fifos = c.fifos := rfl
@[simp] theorem Chip.putSched_queues (c : Chip) (out : Nat) (s : OutSched) : (c.putSched out s).queues = c.queues := rfl
@[simp] theorem Chip.putSched_tr (c : Chip) (out : Nat) (s : OutSched) : (c.putSched out s).tr = c.tr := rfl
@[simp] theorem Chip.putSched_mt (c : Chip) (out : Nat) (s : OutSched) : (c.putSched out s).mt = c.mt := rfl
@[simp] theorem Chip.putSched_tg (c : Chip) (out : Nat) (s : OutSched) : (c.putSched out s).tg = c.tg := rfl
@[simp] theorem Chip.putSched_co (c : Chip) (out : Nat) (s : OutSched) : (c.putSched out s).co = c.co := rfl
@[simp] theorem Chip.putSched_mem (c : Chip) (out : Nat) (s : OutSched) : (c.putSched out s).mem = c.mem := rfl
@[simp] theorem Chip.putSched_br (c : Chip) (out : Nat) (s : OutSched) : (c.putSched out s).br = c.br := rfl
@[simp] theorem Chip.putSched_links (c : Chip) (out : Nat) (s : OutSched) : (c.putSched out s).links = c.links := rfl
@[simp] theorem Chip.putSched_train (c : Chip) (out : Nat) (s : OutSched) : (c.putSched out s).train = c.train := rfl
@[simp] theorem Chip.putSched_lanes (c : Chip) (out : Nat) (s : OutSched) : (c.putSched out s).lanes = c.lanes := rfl
@[simp] theorem Chip.putSched_tb (c : Chip) (out : Nat) (s : OutSched) : (c.putSched out s).tb = c.tb := rfl
@[simp] theorem Chip.putSched_pace (c : Chip) (out : Nat) (s : OutSched) : (c.putSched out s).pace = c.pace := rfl
@[simp] theorem Chip.putSched_ctr (c : Chip) (out : Nat) (s : OutSched) : (c.putSched out s).ctr = c.ctr := rfl
@[simp] theorem Chip.putSched_flt (c : Chip) (out : Nat) (s : OutSched) : (c.putSched out s).flt = c.flt := rfl
@[simp] theorem Chip.putSched_free (c : Chip) (out : Nat) (s : OutSched) : (c.putSched out s).free = c.free := rfl
@[simp] theorem Chip.putSched_out (c : Chip) (out : Nat) (s : OutSched) : (c.putSched out s).out = c.out := rfl

/-! `Chip.updPeer` -/

@[simp] theorem Chip.updPeer_variant (c : Chip) (p : Nat) (f : Peer → Peer) : (c.updPeer p f).variant = c.variant := rfl
@[simp] theorem Chip.updPeer_serial (c : Chip) (p : Nat) (f : Peer → Peer) : (c.updPeer p f).serial = c.serial := rfl
@[simp] theorem Chip.updPeer_boot (c : Chip) (p : Nat) (f : Peer → Peer) : (c.updPeer p f).boot = c.boot := rfl
@[simp] theorem Chip.updPeer_flash (c : Chip) (p : Nat) (f : Peer → Peer) : (c.updPeer p f).flash = c.flash := rfl
@[simp] theorem Chip.updPeer_fw (c : Chip) (p : Nat) (f : Peer → Peer) : (c.updPeer p f).fw = c.fw := rfl
@[simp] theorem Chip.updPeer_dict (c : Chip) (p : Nat) (f : Peer → Peer) : (c.updPeer p f).dict = c.dict := rfl
@[simp] theorem Chip.updPeer_ports (c : Chip) (p : Nat) (f : Peer → Peer) : (c.updPeer p f).ports = c.ports := rfl
@[simp] theorem Chip.updPeer_funcs (c : Chip) (p : Nat) (f : Peer → Peer) : (c.updPeer p f).funcs = c.funcs := rfl
@[simp] theorem Chip.updPeer_fifos (c : Chip) (p : Nat) (f : Peer → Peer) : (c.updPeer p f).fifos = c.fifos := rfl
@[simp] theorem Chip.updPeer_queues (c : Chip) (p : Nat) (f : Peer → Peer) : (c.updPeer p f).queues = c.queues := rfl
@[simp] theorem Chip.updPeer_tr (c : Chip) (p : Nat) (f : Peer → Peer) : (c.updPeer p f).tr = c.tr := rfl
@[simp] theorem Chip.updPeer_mt (c : Chip) (p : Nat) (f : Peer → Peer) : (c.updPeer p f).mt = c.mt := rfl
@[simp] theorem Chip.updPeer_tg (c : Chip) (p : Nat) (f : Peer → Peer) : (c.updPeer p f).tg = c.tg := rfl
@[simp] theorem Chip.updPeer_co (c : Chip) (p : Nat) (f : Peer → Peer) : (c.updPeer p f).co = c.co := rfl
@[simp] theorem Chip.updPeer_mem (c : Chip) (p : Nat) (f : Peer → Peer) : (c.updPeer p f).mem = c.mem := rfl
@[simp] theorem Chip.updPeer_br (c : Chip) (p : Nat) (f : Peer → Peer) : (c.updPeer p f).br = c.br := rfl
@[simp] theorem Chip.updPeer_rt (c : Chip) (p : Nat) (f : Peer → Peer) : (c.updPeer p f).rt = c.rt := rfl
@[simp] theorem Chip.updPeer_links (c : Chip) (p : Nat) (f : Peer → Peer) : (c.updPeer p f).links = c.links := rfl
@[simp] theorem Chip.updPeer_train (c : Chip) (p : Nat) (f : Peer → Peer) : (c.updPeer p f).train = c.train := rfl
@[simp] theorem Chip.updPeer_lanes (c : Chip) (p : Nat) (f : Peer → Peer) : (c.updPeer p f).lanes = c.lanes := rfl
@[simp] theorem Chip.updPeer_pace (c : Chip) (p : Nat) (f : Peer → Peer) : (c.updPeer p f).pace = c.pace := rfl
@[simp] theorem Chip.updPeer_ctr (c : Chip) (p : Nat) (f : Peer → Peer) : (c.updPeer p f).ctr = c.ctr := rfl
@[simp] theorem Chip.updPeer_flt (c : Chip) (p : Nat) (f : Peer → Peer) : (c.updPeer p f).flt = c.flt := rfl
@[simp] theorem Chip.updPeer_free (c : Chip) (p : Nat) (f : Peer → Peer) : (c.updPeer p f).free = c.free := rfl
@[simp] theorem Chip.updPeer_out (c : Chip) (p : Nat) (f : Peer → Peer) : (c.updPeer p f).out = c.out := rfl

/-! `Chip.emit`: only what leaves the chip grows. -/

@[simp] theorem Chip.emit_variant (c : Chip) (o : Output) : (c.emit o).variant = c.variant := by
  unfold Chip.emit; split <;> rfl
@[simp] theorem Chip.emit_serial (c : Chip) (o : Output) : (c.emit o).serial = c.serial := by
  unfold Chip.emit; split <;> rfl
@[simp] theorem Chip.emit_boot (c : Chip) (o : Output) : (c.emit o).boot = c.boot := by
  unfold Chip.emit; split <;> rfl
@[simp] theorem Chip.emit_flash (c : Chip) (o : Output) : (c.emit o).flash = c.flash := by
  unfold Chip.emit; split <;> rfl
@[simp] theorem Chip.emit_fw (c : Chip) (o : Output) : (c.emit o).fw = c.fw := by
  unfold Chip.emit; split <;> rfl
@[simp] theorem Chip.emit_dict (c : Chip) (o : Output) : (c.emit o).dict = c.dict := by
  unfold Chip.emit; split <;> rfl
@[simp] theorem Chip.emit_ports (c : Chip) (o : Output) : (c.emit o).ports = c.ports := by
  unfold Chip.emit; split <;> rfl
@[simp] theorem Chip.emit_funcs (c : Chip) (o : Output) : (c.emit o).funcs = c.funcs := by
  unfold Chip.emit; split <;> rfl
@[simp] theorem Chip.emit_fifos (c : Chip) (o : Output) : (c.emit o).fifos = c.fifos := by
  unfold Chip.emit; split <;> rfl
@[simp] theorem Chip.emit_queues (c : Chip) (o : Output) : (c.emit o).queues = c.queues := by
  unfold Chip.emit; split <;> rfl
@[simp] theorem Chip.emit_tr (c : Chip) (o : Output) : (c.emit o).tr = c.tr := by
  unfold Chip.emit; split <;> rfl
@[simp] theorem Chip.emit_mt (c : Chip) (o : Output) : (c.emit o).mt = c.mt := by
  unfold Chip.emit; split <;> rfl
@[simp] theorem Chip.emit_tg (c : Chip) (o : Output) : (c.emit o).tg = c.tg := by
  unfold Chip.emit; split <;> rfl
@[simp] theorem Chip.emit_co (c : Chip) (o : Output) : (c.emit o).co = c.co := by
  unfold Chip.emit; split <;> rfl
@[simp] theorem Chip.emit_mem (c : Chip) (o : Output) : (c.emit o).mem = c.mem := by
  unfold Chip.emit; split <;> rfl
@[simp] theorem Chip.emit_br (c : Chip) (o : Output) : (c.emit o).br = c.br := by
  unfold Chip.emit; split <;> rfl
@[simp] theorem Chip.emit_rt (c : Chip) (o : Output) : (c.emit o).rt = c.rt := by
  unfold Chip.emit; split <;> rfl
@[simp] theorem Chip.emit_links (c : Chip) (o : Output) : (c.emit o).links = c.links := by
  unfold Chip.emit; split <;> rfl
@[simp] theorem Chip.emit_train (c : Chip) (o : Output) : (c.emit o).train = c.train := by
  unfold Chip.emit; split <;> rfl
@[simp] theorem Chip.emit_lanes (c : Chip) (o : Output) : (c.emit o).lanes = c.lanes := by
  unfold Chip.emit; split <;> rfl
@[simp] theorem Chip.emit_tb (c : Chip) (o : Output) : (c.emit o).tb = c.tb := by
  unfold Chip.emit; split <;> rfl
@[simp] theorem Chip.emit_pace (c : Chip) (o : Output) : (c.emit o).pace = c.pace := by
  unfold Chip.emit; split <;> rfl
@[simp] theorem Chip.emit_ctr (c : Chip) (o : Output) : (c.emit o).ctr = c.ctr := by
  unfold Chip.emit; split <;> rfl
@[simp] theorem Chip.emit_flt (c : Chip) (o : Output) : (c.emit o).flt = c.flt := by
  unfold Chip.emit; split <;> rfl
@[simp] theorem Chip.emit_free (c : Chip) (o : Output) : (c.emit o).free = c.free := by
  unfold Chip.emit; split <;> rfl

/-- What an emission adds: nothing where the function or the port takes no part any more, else the item at the end. -/
theorem Chip.emit_out (c : Chip) (o : Output) : (c.emit o).out = if c.dmaStopped o then c.out else c.out ++ [o] := by
  unfold Chip.emit; split <;> rfl

/-! `State.withFront` -/

@[simp] theorem State.withFront_chip (s : State) (i : Instr) : (s.withFront i).chip = s.chip := rfl
@[simp] theorem State.withFront_pending (s : State) (i : Instr) : (s.withFront i).pending = i :: s.pending := rfl

/-! Reading back what an update wrote, and what it leaves at another key. -/

theorem Chip.fn_updFn (c : Chip) (i j : Nat) (f : Func → Func) : (c.updFn i f).fn j = if j = i then f (c.fn i) else c.fn j := by
  unfold Chip.fn Chip.updFn
  split
  · rename_i e; subst e
    simp
  · exact Tab.get_upd_ne _ _ _ ‹_›
theorem Chip.port_updPort (c : Chip) (i j : Nat) (f : HostPort → HostPort) :
    (c.updPort i f).port j = if j = i then f (c.port i) else c.port j := by
  unfold Chip.port Chip.updPort
  split
  · rename_i e; subst e
    simp
  · exact Tab.get_upd_ne _ _ _ ‹_›
theorem Chip.queue?_putQueue (c : Chip) (h qn : Nat) (q : Queue) (g m : Nat) :
    (c.putQueue h qn q).queue? g m = if qKey g m = qKey h qn then some q else c.queue? g m := by
  unfold Chip.queue? Chip.putQueue
  split
  · rename_i e; rw [e]; simp
  · exact Tab.get?_put_ne _ _ ‹_›
theorem Chip.chan?_putChan (c : Chip) (k : Nat) (x : Chan) (j : Nat) :
    (c.putChan k x).chan? j = if j = k then some x else c.chan? j := by
  unfold Chip.chan? Chip.putChan
  split
  · rename_i e; rw [e]; simp
  · exact Tab.get?_put_ne _ _ ‹_›
theorem Chip.fifo_putFifo (c : Chip) (i : Nat) (f : Fifo) (j : Nat) : (c.putFifo i f).fifo j = if j = i then f else c.fifo j := by
  unfold Chip.fifo Chip.putFifo
  split
  · rename_i e; subst e
    simp
  · exact Tab.get_put_ne _ _ _ ‹_›
theorem Chip.lane_updLane (c : Chip) (i j : Nat) (f : Lane → Lane) : (c.updLane i f).lane j = if j = i then f (c.lane i) else c.lane j := by
  unfold Chip.lane Chip.updLane
  split
  · rename_i e; subst e
    simp
  · exact Tab.get_upd_ne _ _ _ ‹_›
theorem Chip.link_updLink (c : Chip) (i j : Nat) (f : Link → Link) : (c.updLink i f).link j = if j = i then f (c.link i) else c.link j := by
  unfold Chip.link Chip.updLink
  split
  · rename_i e; subst e
    simp
  · exact Tab.get_upd_ne _ _ _ ‹_›
theorem Chip.tport_updPortT (c : Chip) (i j : Nat) (f : Port → Port) :
    (c.updPortT i f).tport j = if j = i then f (c.tport i) else c.tport j := by
  unfold Chip.tport Chip.updPortT
  split
  · rename_i e; subst e
    simp
  · exact Tab.get_upd_ne _ _ _ ‹_›
/-- A parameter reads as it was stored. -/
@[simp] theorem Chip.param_setParam_self (c : Chip) (a o e x : Nat) : (c.setParam a o e x).param a o e = x :=
  Tab.get_set_self c.dict.active (pnum a o e) x (pDefault c.variant c.serial c.boot.strapLatch a o e)

/-- Every other parameter reads as before. -/
theorem Chip.param_setParam_ne (c : Chip) {a o e b p f : Nat} (x : Nat) (h : pnum b p f ≠ pnum a o e) :
    (c.setParam a o e x).param b p f = c.param b p f := by
  unfold Chip.param Chip.setParam Tab.set
  dsimp only
  split
  · rw [Tab.get?_del_ne _ h]
  · rw [Tab.get?_put_ne _ _ h]


end Sys2Proof.Machine
end

