-- ==== Sys2Proof/WellFormed.lean ====
section
/-! DEFINITION. Which commands are well formed: every number names something of its kind. -/

namespace Sys2Proof

/-- A writer names an existing kind of path: a host port below 4, a VF below 256, a 16-bit key id, a 17-bit endpoint. -/
def Writer.wf : Writer → Bool
  | .mailbox h => decide (h < 4)
  | .tenant h vf => decide (h < 4) && decide (vf < 256)
  | .mctp => true
  | .fdp key => decide (key < 65536)
  | .shim ep => decide (ep < 2 ^ 17)

/-- Every operand of the command lies within the numbering the spec gives it. -/
def Instr.wf : Instr → Bool
  | .read h _ vf _ => decide (h < 4) && decide (vf < 256)
  | .write h _ vf _ => decide (h < 4) && decide (vf < 256)
  | .describe h _ vf _ => decide (h < 4) && decide (vf < 256)
  | .readStaged h _ vf _ => decide (h < 4) && decide (vf < 256)
  | .mbxUnknownOp h op _ vf _ => decide (h < 4) && decide (op < 256) && decide (vf < 256)
  | .collide h => decide (h < 4)
  | .fdpRequest _ => true
  | .mctpRequest _ => true
  | .chunkExpiry path => path.wf
  | .shimDictionaryRequest _ => true
  | .commit w setNo _ => w.wf && decide (setNo < 256)
  | .setTakesEffect setNo => decide (setNo < 256)
  | .discard w setNo _ => w.wf && decide (setNo < 256)
  | .holderTimeout setNo => decide (setNo < 256)
  | .save w _ => w.wf
  | .saveComplete _ => true
  | .restoreDefaults w _ => w.wf
  | .restoreSaved w _ => w.wf
  | .calibrationStore w _ => w.wf
  | .calibrationStoreComplete => true
  | .calibrationImageWrite w _ => w.wf
  | .registerWrite fn _ _ => decide (fn < 1024)
  | .hostLinkTrained h _ _ _ => decide (h < 4)
  | .perstNAssert h => decide (h < 4)
  | .perstNDeassert h => decide (h < 4)
  | .functionLevelReset fn => decide (fn < 1024)
  | .functionDisable w fn => w.wf && decide (fn < 1024)
  | .functionQuiesced fn => decide (fn < 1024)
  | .functionEnable w fn => w.wf && decide (fn < 1024)
  | .functionReady fn => decide (fn < 1024)
  | .vfEnableClear h => decide (h < 4)
  | .vfEnableSet h numVfs => decide (h < 4) && decide (numVfs < 65536)
  | .vectorUnmask fn vector => decide (fn < 1024) && decide (vector < 2048)
  | .counterPageRead fn access => decide (fn < 1024) && (match access with | .bar0 offset _ => decide (offset < 65536) | .bar2 _ => true)
  | .ffDataRead h _ _ => decide (h < 4)
  | .ffDataUpperRead h _ => decide (h < 4)
  | .ffDataWrite h _ _ _ => decide (h < 4)
  | .ffDataLowerWrite h _ _ => decide (h < 4)
  | .ffCommit h _ => decide (h < 4)
  | .ffAbort h _ => decide (h < 4)
  | .ffMark h _ => decide (h < 4)
  | .ffRewind h _ => decide (h < 4)
  | .ffRelease h _ _ => decide (h < 4)
  | .radishMarker fifo => decide (fifo < 10)
  | .mgmtTransmit h => decide (h < 4)
  | .shimPacketDelivery h _ => decide (h < 4)
  | .controlQpEnable w fn _ _ => w.wf && decide (fn < 1024)
  | .controlQpDisable w fn _ => w.wf && decide (fn < 1024)
  | .ring fn _ _ _ => decide (fn < 1024)
  | .invalidate fn _ _ _ => decide (fn < 1024)
  | .arm fn _ _ _ _ => decide (fn < 1024)
  | .indexBlockReadDone fn qn _ _ => decide (fn < 1024) && decide (qn < 2 ^ 24)
  | .queueReadTimeout fn qn _ => decide (fn < 1024) && decide (qn < 2 ^ 24)
  | .send h qn _ _ => decide (h < 4) && decide (qn < 2 ^ 24)
  | .taggedSend h qn _ _ => decide (h < 4) && decide (qn < 2 ^ 24)
  | .writeEntry h qn _ _ => decide (h < 4) && decide (qn < 2 ^ 24)
  | .writeWithNotify h qn _ _ => decide (h < 4) && decide (qn < 2 ^ 24)
  | .readEntry h qn _ => decide (h < 4) && decide (qn < 2 ^ 24)
  | .fetchAdd h qn _ => decide (h < 4) && decide (qn < 2 ^ 24)
  | .swap h qn _ => decide (h < 4) && decide (qn < 2 ^ 24)
  | .compareSwap8 h qn _ => decide (h < 4) && decide (qn < 2 ^ 24)
  | .compareSwap16 h qn _ => decide (h < 4) && decide (qn < 2 ^ 24)
  | .count h qn _ => decide (h < 4) && decide (qn < 2 ^ 24)
  | .nop h qn _ => decide (h < 4) && decide (qn < 2 ^ 24)
  | .barrier h qn _ => decide (h < 4) && decide (qn < 2 ^ 24)
  | .broadcast h qn _ _ => decide (h < 4) && decide (qn < 2 ^ 24)
  | .reduce h qn _ _ => decide (h < 4) && decide (qn < 2 ^ 24)
  | .allreduce h qn _ _ => decide (h < 4) && decide (qn < 2 ^ 24)
  | .reduceScatter h qn _ _ => decide (h < 4) && decide (qn < 2 ^ 24)
  | .create fn _ qn _ => decide (fn < 1024) && decide (qn < 2 ^ 24)
  | .destroy fn _ => decide (fn < 1024)
  | .reset fn _ _ => decide (fn < 1024)
  | .recv h qn _ => decide (h < 4) && decide (qn < 2 ^ 24)
  | .taggedRecv h qn _ _ => decide (h < 4) && decide (qn < 2 ^ 24)
  | .veneerNop h qn _ => decide (h < 4) && decide (qn < 2 ^ 24)
  | .veneerSend h qn _ _ => decide (h < 4) && decide (qn < 2 ^ 24)
  | .veneerWrite h qn _ _ => decide (h < 4) && decide (qn < 2 ^ 24)
  | .veneerRead h qn _ => decide (h < 4) && decide (qn < 2 ^ 24)
  | .malformedEntry h qn _ => decide (h < 4) && decide (qn < 2 ^ 24)
  | .heldEntry h qn _ => decide (h < 4) && decide (qn < 2 ^ 24)
  | .backlogDrain fn cqn _ _ => decide (fn < 1024) && decide (cqn < 2 ^ 24)
  | .messageRequest h _ _ => decide (h < 4)
  | .writeRequest h _ _ => decide (h < 4)
  | .readRequest h _ _ => decide (h < 4)
  | .atomicRequest h _ _ => decide (h < 4)
  | .countRequest h _ _ => decide (h < 4)
  | .nopRequest h _ _ => decide (h < 4)
  | .sync h _ => decide (h < 4)
  | .offer h _ _ => decide (h < 4)
  | .offerClose h _ => decide (h < 4)
  | .ack h _ => decide (h < 4)
  | .busyNak h _ => decide (h < 4)
  | .error h _ => decide (h < 4)
  | .readData h _ => decide (h < 4)
  | .atomicResult h _ => decide (h < 4)
  | .retransmitTimeout ch _ => decide (ch < 2 ^ 22)
  | .busyResend ch _ => decide (ch < 2 ^ 22)
  | .ackDelay ch => decide (ch < 2 ^ 22)
  | .errorStateExpiry ch => decide (ch < 2 ^ 22)
  | .atomicBlockReturn ch => decide (ch < 2 ^ 22)
  | .contextFetchDone _ _ => true
  | .contextFetchTimeout h qn => decide (h < 4) && decide (qn < 2 ^ 24)
  | .contextBind w fn _ => w.wf && decide (fn < 1024)
  | .contextUnbind w fn _ => w.wf && decide (fn < 1024)
  | .eagerCopyComplete _ _ => true
  | .offerRecordFreed _ => true
  | .allocate w fn ctr => w.wf && decide (fn < 1024) && decide (ctr < 65536)
  | .free w fn ctr => w.wf && decide (fn < 1024) && decide (ctr < 65536)
  | .configure w fn ctr _ => w.wf && decide (fn < 1024) && decide (ctr < 65536)
  | .set w fn ctr _ => w.wf && decide (fn < 1024) && decide (ctr < 65536)
  | .add w fn ctr _ => w.wf && decide (fn < 1024) && decide (ctr < 65536)
  | .heldEntryReadBack fn slot _ => decide (fn < 1024) && decide (slot < 2 ^ 20)
  | .heldAreaReadTimeout fn slot => decide (fn < 1024) && decide (slot < 2 ^ 20)
  | .collectiveUp port _ _ => decide (port < 60)
  | .collectiveDown port _ => decide (port < 60)
  | .collectiveAbort port _ => decide (port < 60)
  | .collectiveDone port _ => decide (port < 60)
  | .segmentUp slot _ seg _ => decide (slot < 4096) && decide (seg < 2 ^ 18)
  | .collectiveTimeout slot _ => decide (slot < 4096)
  | .register w fn _ => w.wf && decide (fn < 1024)
  | .registerComplete _ _ _ => true
  | .deregister fn _ => decide (fn < 1024)
  | .deregisterComplete fn => decide (fn < 1024)
  | .atsInvalidateRequest fn _ _ => decide (fn < 1024)
  | .atsInvalidateCompletion fn => decide (fn < 1024)
  | .retire w group => w.wf && decide (group < 16)
  | .channelGroupFailure group => decide (group < 16)
  | .retirementComplete group _ => decide (group < 16)
  | .bar4Read fn _ _ _ => decide (fn < 1024)
  | .bar4Write fn _ _ => decide (fn < 1024)
  | .bar4Atomicop fn _ _ _ => decide (fn < 1024)
  | .writeGatherExpiry h => decide (h < 4)
  | .prefetchExpiry h => decide (h < 4)
  | .bridgeTimeout _ => true
  | .cxlMemRead h _ => decide (h < 4)
  | .cxlMemWrite h _ _ => decide (h < 4)
  | .packetRoute inp _ => decide (inp < 64)
  | .outputStart out => decide (out < 64)
  | .fenceBroadcast inp _ => decide (inp < 64)
  | .throttleBroadcast inp _ => decide (inp < 64)
  | .broadcastApply => true
  | .clampTableWrite w row _ => w.wf && decide (row < 512)
  | .throttleExpiry chip => decide (chip < 32768)
  | .splineHintSend port => decide (port < 60)
  | .splineHintReceive port _ => decide (port < 60)
  | .hintStale port => decide (port < 60)
  | .tokenTick _ => true
  | .gateEntryChange port => decide (port < 60)
  | .linkPacketReceive port l => decide (port < 60) && l.all fun b => b.bytes.length == 32
  | .lcbSend port => decide (port < 60)
  | .lcbReceive port l => decide (port < 60) && l.first.length == 32 && l.second.length == 32
  | .replayTimeout port => decide (port < 60)
  | .degradationWindow port => decide (port < 60)
  | .restoreInterval port => decide (port < 60)
  | .codewordDecode lane _ l _ => decide (lane < 120) && (l.length == 4 || l.length == 20)
  | .receiverDetect port found => decide (port < 60) && decide (found < 4)
  | .patternBlock port lpos _ => decide (port < 60) && decide (lpos < 2)
  | .equalisationRequest port lpos _ => decide (port < 60) && decide (lpos < 2)
  | .equalisationResponse port lpos _ => decide (port < 60) && decide (lpos < 2)
  | .capabilitiesBlock port _ _ => decide (port < 60)
  | .blockLock lane _ => decide (lane < 120)
  | .markerLock lane _ => decide (lane < 120)
  | .lockLoss lane _ => decide (lane < 120)
  | .trainingTimeout port => decide (port < 60)
  | .attemptWaitEnd port => decide (port < 60)
  | .retrainEventTimeout port => decide (port < 60)
  | .portRetrain w port => w.wf && decide (port < 60)
  | .portNarrowLpos0 w port => w.wf && decide (port < 60)
  | .portNarrowLpos1 w port => w.wf && decide (port < 60)
  | .portWiden w port => w.wf && decide (port < 60)
  | .wreq port _ => decide (port < 60)
  | .wgrant port _ => decide (port < 60)
  | .wrefuse port _ => decide (port < 60)
  | .wswitch port _ => decide (port < 60)
  | .rreq port _ => decide (port < 60)
  | .rack port _ => decide (port < 60)
  | .wreqTimeout port => decide (port < 60)
  | .rackTimeout port => decide (port < 60)
  | .wswitchLockTimeout port => decide (port < 60)
  | .bitSlip w lane _ => w.wf && decide (lane < 120)
  | .checkerSync lane _ => decide (lane < 120)
  | .checkerSyncLoss lane _ _ => decide (lane < 120)
  | .timeExchangeSend port => decide (port < 60)
  | .timeExchangeReceive port _ => decide (port < 60)
  | .parentTimeout => true
  | .holdoverExpiry => true
  | .setTime w _ => w.wf
  | .ppsEdge => true
  | .paceWindow _ => true
  | .avsLoop => true
  | .avsResponse _ => true
  | .avsTimeout => true
  | .thermalWarning _ => true
  | .thermalTrip _ => true
  | .samplingTick _ => true
  | .streamSample _ => true
  | .faultOccurrence unit cause skind subject => decide (unit < 4096) && decide (cause < 4096) && decide (skind < 13) && decide (subject < 2 ^ 60)
  | .handshakeStall unit => decide (unit < 4096)
  | .blockResetComplete unit => decide (unit < 4096)
  | .unitRelease w unit => w.wf && decide (unit < 4096)
  | .sourceStatusClear w unit cause _ => w.wf && decide (unit < 4096) && decide (cause < 4096)
  | .kerfWindowClose => true
  | .recordToFifo => true
  | .clusterRestart w unit => w.wf && decide (unit < 4096)
  | .clusterRestartComplete unit => decide (unit < 4096)
  | .powerOn => true
  | .resetNAssert => true
  | .resetNRelease _ _ => true
  | .strapOverrideWrite _ => true
  | .bootLoadComplete => true
  | .jigServiceUp => true
  | .beginUpdate w => w.wf
  | .beginComplete _ => true
  | .updateBlock w k _ => w.wf && decide (k < 32)
  | .updateBlockComplete _ => true
  | .verify w => w.wf
  | .verifyComplete => true
  | .switch w => w.wf
  | .switchComplete _ => true
  | .activate w => w.wf
  | .hbmPatrolScrub group _ _ => decide (group < 16)
  | .thermalWarningClear _ => true
  | .dynamicAddressAssignment _ => true
  | .hostMemoryReadCompletion _ _ => true
  | .matchEntryReadDone _ _ => true

end Sys2Proof
end

