-- ==== Sys2Proof/Tests/Slice0.lean ====
section
/-! SUPPORT. Tests: well-formedness, the small states that the witnesses stand on, and the worked examples of the spec. -/

/-! ### Well-formedness -/

namespace Sys2Proof.Tests

set_option Elab.async false

open Sys2Proof

/-- Commands with one operand out of its range, one for each check of Instr.wf. -/
def ill1 : List Instr :=
  [.read 4 true 0 0, .read 0 true 256 0, .write 4 true 0 0, .write 0 true 256 0, .describe 4 true 0 0,
    .describe 0 true 256 0, .readStaged 4 true 0 0, .readStaged 0 true 256 0, .mbxUnknownOp 4 0 true 0 0,
    .mbxUnknownOp 0 256 true 0 0, .mbxUnknownOp 0 0 true 256 0, .collide 4, .chunkExpiry (.tenant 0 256),
    .commit (.fdp 65536) 0 0, .commit .mctp 256 0, .setTakesEffect 256, .discard (.tenant 4 0) 0 0,
    .discard .mctp 256 0, .holderTimeout 256, .save (.shim 131072) 0, .restoreDefaults (.mailbox 4) 0,
    .restoreSaved (.tenant 4 0) 0, .calibrationStore (.tenant 0 256) 0, .calibrationImageWrite (.fdp 65536) [],
    .registerWrite 1024 (.bar0 0 true) 0, .hostLinkTrained 4 0 0 true, .perstNAssert 4, .perstNDeassert 4,
    .functionLevelReset 1024, .functionDisable (.shim 131072) 0, .functionDisable .mctp 1024,
    .functionQuiesced 1024, .functionEnable (.tenant 0 256) 0, .functionEnable .mctp 1024, .functionReady 1024,
    .vfEnableClear 4, .vfEnableSet 4 0, .vfEnableSet 0 65536, .vectorUnmask 1024 0, .vectorUnmask 0 2048]

/-- Commands with one operand out of its range, one for each check of Instr.wf. -/
def ill2 : List Instr :=
  [.counterPageRead 1024 (.bar2 0), .counterPageRead 0 (.bar0 65536 true), .ffDataRead 4 .transmit true,
    .ffDataUpperRead 4 .transmit, .ffDataWrite 4 .transmit true 0, .ffDataLowerWrite 4 .transmit 0,
    .ffCommit 4 .transmit, .ffAbort 4 .transmit, .ffMark 4 .transmit, .ffRewind 4 .transmit,
    .ffRelease 4 .transmit 0, .radishMarker 10, .mgmtTransmit 4, .shimPacketDelivery 4 {},
    .controlQpEnable (.shim 131072) 0 0 {}, .controlQpEnable .mctp 1024 0 {},
    .controlQpDisable (.tenant 4 0) 0 0, .controlQpDisable .mctp 1024 0, .ring 1024 0 true 0,
    .invalidate 1024 0 true 0, .arm 1024 0 true 0 .failed, .indexBlockReadDone 1024 0 .failed [],
    .indexBlockReadDone 0 (2 ^ 24) .failed [], .queueReadTimeout 1024 0 .indexBlock,
    .queueReadTimeout 0 (2 ^ 24) .indexBlock, .send 4 0 {} .failed, .send 0 (2 ^ 24) {} .failed,
    .taggedSend 4 0 {} .failed, .taggedSend 0 (2 ^ 24) {} .failed, .writeEntry 4 0 {} .failed,
    .writeEntry 0 (2 ^ 24) {} .failed, .writeWithNotify 4 0 {} .failed, .writeWithNotify 0 (2 ^ 24) {} .failed,
    .readEntry 4 0 {}, .readEntry 0 (2 ^ 24) {}, .fetchAdd 4 0 {}, .fetchAdd 0 (2 ^ 24) {}, .swap 4 0 {},
    .swap 0 (2 ^ 24) {}, .compareSwap8 4 0 {}]

/-- Commands with one operand out of its range, one for each check of Instr.wf. -/
def ill3 : List Instr :=
  [.compareSwap8 0 (2 ^ 24) {}, .compareSwap16 4 0 {}, .compareSwap16 0 (2 ^ 24) {}, .count 4 0 {},
    .count 0 (2 ^ 24) {}, .nop 4 0 {}, .nop 0 (2 ^ 24) {}, .barrier 4 0 {}, .barrier 0 (2 ^ 24) {},
    .broadcast 4 0 {} .failed, .broadcast 0 (2 ^ 24) {} .failed, .reduce 4 0 {} .failed,
    .reduce 0 (2 ^ 24) {} .failed, .allreduce 4 0 {} .failed, .allreduce 0 (2 ^ 24) {} .failed,
    .reduceScatter 4 0 {} .failed, .reduceScatter 0 (2 ^ 24) {} .failed, .create 1024 {} 0 .failed,
    .create 0 {} (2 ^ 24) .failed, .destroy 1024 {}, .reset 1024 {} .failed, .recv 4 0 {}, .recv 0 (2 ^ 24) {},
    .taggedRecv 4 0 {} true, .taggedRecv 0 (2 ^ 24) {} true, .veneerNop 4 0 {}, .veneerNop 0 (2 ^ 24) {},
    .veneerSend 4 0 {} .failed, .veneerSend 0 (2 ^ 24) {} .failed, .veneerWrite 4 0 {} .failed,
    .veneerWrite 0 (2 ^ 24) {} .failed, .veneerRead 4 0 {}, .veneerRead 0 (2 ^ 24) {}, .malformedEntry 4 0 {},
    .malformedEntry 0 (2 ^ 24) {}, .heldEntry 4 0 {}, .heldEntry 0 (2 ^ 24) {}, .backlogDrain 1024 0 0 true,
    .backlogDrain 0 (2 ^ 24) 0 true, .messageRequest 4 {} none]

/-- Commands with one operand out of its range, one for each check of Instr.wf. -/
def ill4 : List Instr :=
  [.writeRequest 4 {} none, .readRequest 4 {} none, .atomicRequest 4 {} none, .countRequest 4 {} none,
    .nopRequest 4 {} none, .sync 4 {}, .offer 4 {} none, .offerClose 4 {}, .ack 4 {}, .busyNak 4 {}, .error 4 {},
    .readData 4 {}, .atomicResult 4 {}, .retransmitTimeout (2 ^ 22) 0, .busyResend (2 ^ 22) 0,
    .ackDelay (2 ^ 22), .errorStateExpiry (2 ^ 22), .atomicBlockReturn (2 ^ 22), .contextFetchTimeout 4 0,
    .contextFetchTimeout 0 (2 ^ 24), .contextBind (.mailbox 4) 0 0, .contextBind .mctp 1024 0,
    .contextUnbind (.tenant 0 256) 0 0, .contextUnbind .mctp 1024 0, .allocate (.shim 131072) 0 0,
    .allocate .mctp 1024 0, .allocate .mctp 0 65536, .free (.tenant 0 256) 0 0, .free .mctp 1024 0,
    .free .mctp 0 65536, .configure (.mailbox 4) 0 0 0, .configure .mctp 1024 0 0, .configure .mctp 0 65536 0,
    .set (.fdp 65536) 0 0 0, .set .mctp 1024 0 0, .set .mctp 0 65536 0, .add (.tenant 4 0) 0 0 0,
    .add .mctp 1024 0 0, .add .mctp 0 65536 0, .heldEntryReadBack 1024 0 .failed]

/-- Commands with one operand out of its range, one for each check of Instr.wf. -/
def ill5 : List Instr :=
  [.heldEntryReadBack 0 (2 ^ 20) .failed, .heldAreaReadTimeout 1024 0, .heldAreaReadTimeout 0 (2 ^ 20),
    .collectiveUp 60 {} true, .collectiveDown 60 {}, .collectiveAbort 60 {}, .collectiveDone 60 {},
    .segmentUp 4096 0 0 true, .segmentUp 0 0 (2 ^ 18) true, .collectiveTimeout 4096 0,
    .register (.mailbox 4) 0 0, .register .mctp 1024 0, .deregister 1024 none, .deregisterComplete 1024,
    .atsInvalidateRequest 1024 0 0, .atsInvalidateCompletion 1024, .retire (.tenant 4 0) 0, .retire .mctp 16,
    .channelGroupFailure 16, .retirementComplete 16 [], .bar4Read 1024 0 0 0, .bar4Write 1024 0 [],
    .bar4Atomicop 1024 0 0 (.swap 64 []), .writeGatherExpiry 4, .prefetchExpiry 4, .cxlMemRead 4 0,
    .cxlMemWrite 4 0 [], .packetRoute 64 true, .outputStart 64, .fenceBroadcast 64 {}, .throttleBroadcast 64 {},
    .clampTableWrite (.tenant 4 0) 0 0, .clampTableWrite .mctp 512 0, .throttleExpiry 32768, .splineHintSend 60,
    .splineHintReceive 60 [], .hintStale 60, .gateEntryChange 60, .linkPacketReceive 60 [],
    .linkPacketReceive 0 [{}]]

/-- Commands with one operand out of its range, one for each check of Instr.wf. -/
def ill6 : List Instr :=
  [.lcbSend 60, .lcbReceive 60 { first := List.replicate 32 0, second := List.replicate 32 0 },
    .lcbReceive 0 { second := List.replicate 32 0 }, .lcbReceive 0 { first := List.replicate 32 0 },
    .replayTimeout 60, .degradationWindow 60, .restoreInterval 60, .codewordDecode 120 0 (List.replicate 4 {}) 0,
    .codewordDecode 0 0 [{}] 0, .receiverDetect 60 0, .receiverDetect 0 4, .patternBlock 60 0 {},
    .patternBlock 0 2 {}, .equalisationRequest 60 0 {}, .equalisationRequest 0 2 {},
    .equalisationResponse 60 0 {}, .equalisationResponse 0 2 {}, .capabilitiesBlock 60 {} true,
    .blockLock 120 [], .markerLock 120 {}, .lockLoss 120 .bit, .trainingTimeout 60, .attemptWaitEnd 60,
    .retrainEventTimeout 60, .portRetrain (.shim 131072) 0, .portRetrain .mctp 60,
    .portNarrowLpos0 (.tenant 4 0) 0, .portNarrowLpos0 .mctp 60, .portNarrowLpos1 (.fdp 65536) 0,
    .portNarrowLpos1 .mctp 60, .portWiden (.mailbox 4) 0, .portWiden .mctp 60, .wreq 60 {}, .wgrant 60 {},
    .wrefuse 60 {}, .wswitch 60 {}, .rreq 60 {}, .rack 60 {}, .wreqTimeout 60, .rackTimeout 60]

/-- Commands with one operand out of its range, one for each check of Instr.wf. -/
def ill7 : List Instr :=
  [.wswitchLockTimeout 60, .bitSlip (.tenant 4 0) 0 0, .bitSlip .mctp 120 0, .checkerSync 120 0,
    .checkerSyncLoss 120 0 0, .timeExchangeSend 60, .timeExchangeReceive 60 {}, .setTime (.tenant 0 256) 0,
    .faultOccurrence 4096 0 0 0, .faultOccurrence 0 4096 0 0, .faultOccurrence 0 0 13 0,
    .faultOccurrence 0 0 0 (2 ^ 60), .handshakeStall 4096, .blockResetComplete 4096,
    .unitRelease (.shim 131072) 0, .unitRelease .mctp 4096, .sourceStatusClear (.tenant 4 0) 0 0 0,
    .sourceStatusClear .mctp 4096 0 0, .sourceStatusClear .mctp 0 4096 0, .clusterRestart (.shim 131072) 0,
    .clusterRestart .mctp 4096, .clusterRestartComplete 4096, .beginUpdate (.tenant 0 256),
    .updateBlock (.fdp 65536) 0 [], .updateBlock .mctp 32 [], .verify (.mailbox 4), .switch (.tenant 4 0),
    .activate (.tenant 0 256), .hbmPatrolScrub 16 0 .clean]

/-- Commands with every operand in range, one for each constructor. -/
def fit1 : List Instr :=
  [.read 0 true 0 0, .write 0 true 0 0, .describe 0 true 0 0, .readStaged 0 true 0 0,
    .mbxUnknownOp 0 0 true 0 0, .collide 0, .fdpRequest {}, .mctpRequest [], .chunkExpiry .mctp,
    .shimDictionaryRequest {}, .commit .mctp 0 0, .setTakesEffect 0, .discard .mctp 0 0, .holderTimeout 0,
    .save .mctp 0, .saveComplete true, .restoreDefaults .mctp 0, .restoreSaved .mctp 0,
    .calibrationStore .mctp 0, .calibrationStoreComplete, .calibrationImageWrite .mctp [],
    .registerWrite 0 (.bar0 0 true) 0, .hostLinkTrained 0 0 0 true, .perstNAssert 0, .perstNDeassert 0,
    .functionLevelReset 0, .functionDisable .mctp 0, .functionQuiesced 0, .functionEnable .mctp 0,
    .functionReady 0, .vfEnableClear 0, .vfEnableSet 0 0, .vectorUnmask 0 0, .counterPageRead 0 (.bar2 0),
    .ffDataRead 0 .transmit true, .ffDataUpperRead 0 .transmit, .ffDataWrite 0 .transmit true 0,
    .ffDataLowerWrite 0 .transmit 0, .ffCommit 0 .transmit, .ffAbort 0 .transmit]

/-- Commands with every operand in range, one for each constructor. -/
def fit2 : List Instr :=
  [.ffMark 0 .transmit, .ffRewind 0 .transmit, .ffRelease 0 .transmit 0, .radishMarker 0, .mgmtTransmit 0,
    .shimPacketDelivery 0 {}, .controlQpEnable .mctp 0 0 {}, .controlQpDisable .mctp 0 0, .ring 0 0 true 0,
    .invalidate 0 0 true 0, .arm 0 0 true 0 .failed, .indexBlockReadDone 0 0 .failed [],
    .queueReadTimeout 0 0 .indexBlock, .send 0 0 {} .failed, .taggedSend 0 0 {} .failed,
    .writeEntry 0 0 {} .failed, .writeWithNotify 0 0 {} .failed, .readEntry 0 0 {}, .fetchAdd 0 0 {},
    .swap 0 0 {}, .compareSwap8 0 0 {}, .compareSwap16 0 0 {}, .count 0 0 {}, .nop 0 0 {}, .barrier 0 0 {},
    .broadcast 0 0 {} .failed, .reduce 0 0 {} .failed, .allreduce 0 0 {} .failed, .reduceScatter 0 0 {} .failed,
    .create 0 {} 0 .failed, .destroy 0 {}, .reset 0 {} .failed, .recv 0 0 {}, .taggedRecv 0 0 {} true,
    .veneerNop 0 0 {}, .veneerSend 0 0 {} .failed, .veneerWrite 0 0 {} .failed, .veneerRead 0 0 {},
    .malformedEntry 0 0 {}, .heldEntry 0 0 {}]

/-- Commands with every operand in range, one for each constructor. -/
def fit3 : List Instr :=
  [.backlogDrain 0 0 0 true, .messageRequest 0 {} none, .writeRequest 0 {} none, .readRequest 0 {} none,
    .atomicRequest 0 {} none, .countRequest 0 {} none, .nopRequest 0 {} none, .sync 0 {}, .offer 0 {} none,
    .offerClose 0 {}, .ack 0 {}, .busyNak 0 {}, .error 0 {}, .readData 0 {}, .atomicResult 0 {},
    .retransmitTimeout 0 0, .busyResend 0 0, .ackDelay 0, .errorStateExpiry 0, .atomicBlockReturn 0,
    .contextFetchDone (.descriptor 0) true, .contextFetchTimeout 0 0, .contextBind .mctp 0 0,
    .contextUnbind .mctp 0 0, .eagerCopyComplete 0 true, .offerRecordFreed 0, .allocate .mctp 0 0,
    .free .mctp 0 0, .configure .mctp 0 0 0, .set .mctp 0 0 0, .add .mctp 0 0 0, .heldEntryReadBack 0 0 .failed,
    .heldAreaReadTimeout 0 0, .collectiveUp 0 {} true, .collectiveDown 0 {}, .collectiveAbort 0 {},
    .collectiveDone 0 {}, .segmentUp 0 0 0 true, .collectiveTimeout 0 0, .register .mctp 0 0]

/-- Commands with every operand in range, one for each constructor. -/
def fit4 : List Instr :=
  [.registerComplete 0 none none, .deregister 0 none, .deregisterComplete 0, .atsInvalidateRequest 0 0 0,
    .atsInvalidateCompletion 0, .retire .mctp 0, .channelGroupFailure 0, .retirementComplete 0 [],
    .bar4Read 0 0 0 0, .bar4Write 0 0 [], .bar4Atomicop 0 0 0 (.swap 64 []), .writeGatherExpiry 0,
    .prefetchExpiry 0, .bridgeTimeout 0, .cxlMemRead 0 0, .cxlMemWrite 0 0 [], .packetRoute 0 true,
    .outputStart 0, .fenceBroadcast 0 {}, .throttleBroadcast 0 {}, .broadcastApply, .clampTableWrite .mctp 0 0,
    .throttleExpiry 0, .splineHintSend 0, .splineHintReceive 0 [], .hintStale 0, .tokenTick 0,
    .gateEntryChange 0, .linkPacketReceive 0 [], .lcbSend 0,
    .lcbReceive 0 { first := List.replicate 32 0, second := List.replicate 32 0 }, .replayTimeout 0,
    .degradationWindow 0, .restoreInterval 0, .codewordDecode 0 0 (List.replicate 4 {}) 0, .receiverDetect 0 0,
    .patternBlock 0 0 {}, .equalisationRequest 0 0 {}, .equalisationResponse 0 0 {},
    .capabilitiesBlock 0 {} true]

/-- Commands with every operand in range, one for each constructor. -/
def fit5 : List Instr :=
  [.blockLock 0 [], .markerLock 0 {}, .lockLoss 0 .bit, .trainingTimeout 0, .attemptWaitEnd 0,
    .retrainEventTimeout 0, .portRetrain .mctp 0, .portNarrowLpos0 .mctp 0, .portNarrowLpos1 .mctp 0,
    .portWiden .mctp 0, .wreq 0 {}, .wgrant 0 {}, .wrefuse 0 {}, .wswitch 0 {}, .rreq 0 {}, .rack 0 {},
    .wreqTimeout 0, .rackTimeout 0, .wswitchLockTimeout 0, .bitSlip .mctp 0 0, .checkerSync 0 0,
    .checkerSyncLoss 0 0 0, .timeExchangeSend 0, .timeExchangeReceive 0 {}, .parentTimeout, .holdoverExpiry,
    .setTime .mctp 0, .ppsEdge, .paceWindow [], .avsLoop, .avsResponse true, .avsTimeout, .thermalWarning [],
    .thermalTrip [], .samplingTick 0, .streamSample 0, .faultOccurrence 0 0 0 0, .handshakeStall 0,
    .blockResetComplete 0, .unitRelease .mctp 0]

/-- Commands with every operand in range, one for each constructor. -/
def fit6 : List Instr :=
  [.sourceStatusClear .mctp 0 0 0, .kerfWindowClose, .recordToFifo, .clusterRestart .mctp 0,
    .clusterRestartComplete 0, .powerOn, .resetNAssert, .resetNRelease 0 0, .strapOverrideWrite 0,
    .bootLoadComplete, .jigServiceUp, .beginUpdate .mctp, .beginComplete true, .updateBlock .mctp 0 [],
    .updateBlockComplete true, .verify .mctp, .verifyComplete, .switch .mctp, .switchComplete true,
    .activate .mctp, .hbmPatrolScrub 0 0 .clean, .thermalWarningClear [], .dynamicAddressAssignment 0,
    .hostMemoryReadCompletion 0 .timeout, .matchEntryReadDone 0 true]

/-- Each check refuses its ill-formed command. -/
theorem test_wf_refuses : (ill1 ++ ill2 ++ ill3 ++ ill4 ++ ill5 ++ ill6 ++ ill7).all (fun i => !i.wf) = true := by decide +kernel

/-- Each constructor has a well-formed command. -/
theorem test_wf_accepts : (fit1 ++ fit2 ++ fit3 ++ fit4 ++ fit5 ++ fit6).all Instr.wf = true := by decide +kernel

/-- Each kind of writer has its own check. -/
theorem test_wf_writers : ([.mailbox 4, .tenant 4 0, .tenant 0 256, .fdp 65536, .shim 131072] : List Writer).all (fun w => !w.wf) = true := by decide

/-- No row of the table has bits: no word spells a command. -/
theorem test_no_word_decodes : decodeTableWord 64 0 = none := by decide

/-- Written bytes of fabric memory read back. -/
theorem test_hbm_reads_back : (({} : Machine.Mem).write 64 [1, 2, 3]).read 64 3 = [1, 2, 3] := by decide +kernel

end Sys2Proof.Tests

/-! ### Small states -/

namespace Sys2Proof.Tests

set_option Elab.async false

open Sys2Proof Sys2Proof.Machine

/-- The chip in the Jig service. -/
def jig : Chip := { boot := { phase := .jig } }

/-- The chip in full service. -/
def full : Chip := { boot := { phase := .full } }

/-- A state with no command waiting. -/
def st (c : Chip) : State := ⟨c, []⟩

/-- A key of FDP. -/
def fdpKey : List Byte := List.replicate 32 7

/-- A chip that takes FDP requests. -/
def fdpChip : Chip := { full with dict := { fdpKey := some fdpKey, active := [(pnum 0x01 0x030 0, 1)] } }

/-- A request of one record, a READ of P00.001, before its tag (R59, R60). -/
def fdpBody : List Byte :=
  [0x46, 0x44, 1, 0, 0, 0, 0, 1, 0, 0, 0, 0, 0, 0, 0, 1] ++ [1, 0, 0, 0, 0, 0, 0, 1, 0, 0, 0, 0, 0, 4, 0, 0]

/-- A request of one record, a WRITE of 200 to P01.020, before its tag. -/
def fdpBodyW : List Byte :=
  [0x46, 0x44, 1, 0, 0, 0, 0, 1, 0, 0, 0, 0, 0, 0, 0, 1] ++ [2, 0, 0, 0, 1, 2, 0, 0, 0, 0, 0, 0, 0, 4, 1, 0, 0, 0, 0, 200, 0, 0, 0, 0]

/-- Its record. -/
def recW : OpRecord := { op := 2, param := 0x01020000, length := 4, final := true, data := [0, 0, 0, 200] }

/-- The packets of an MCTP message with a command and one record (R63). -/
def mctpMsg (cmd : Nat) (record : List Byte) : List MctpPacket := mctpSplit (mctpVendor ++ bytesBE 1 cmd ++ record)

/-- Such a message. -/
def mctpText (cmd : Nat) (record : List Byte) : List Byte := mctpVendor ++ bytesBE 1 cmd ++ record

/-- A record: READ of four bytes of P00.001. -/
def readRec : List Byte := [1, 0, 0, 0, 0, 0, 0x10, 0, 0, 0, 0, 0, 0, 4, 0, 0]

/-- A record: WRITE of 200 to P01.020. -/
def writeRec : List Byte := [2, 0, 0, 0, 1, 2, 0, 0, 0, 0, 0, 0, 0, 4, 1, 0, 0, 0, 0, 200, 0, 0, 0, 0]

/-- The chip in full service with endpoint 5 listed in P01.040. -/
def shimChip : Chip := { full with dict := { active := [(pnum 0x01 0x040 0, 0x80000005)] } }

theorem word_ne_complement (x : Word) : x ≠ ~~~x := by
  intro h
  have := congrArg (fun y : Word => y.getLsbD 0) h
  simp at this

theorem fdp_accepted : fdpChip.fdpAccept (fdpBody ++ fdpTag fdpKey fdpBody) =
    some (fdpKey, 0, 1, [{ op := 1, param := 1, offset := 0, length := 4 }]) := by
  have hp : fdpParse (fdpBody ++ fdpTag fdpKey fdpBody) = some [{ op := 1, param := 1, offset := 0, length := 4 }] := by rfl
  have hk : fdpChip.dict.fdpKey = some fdpKey := rfl
  have hl : (fdpBody ++ fdpTag fdpKey fdpBody).length - 32 = 32 := by rfl
  unfold Chip.fdpAccept
  rw [hp, hk]
  simp only [hl]
  have ht : (fdpBody ++ fdpTag fdpKey fdpBody).take 32 = fdpBody := by rfl
  have hd : (fdpBody ++ fdpTag fdpKey fdpBody).drop 32 = fdpTag fdpKey fdpBody := by rfl
  rw [ht, hd, if_pos]
  · rfl
  · refine ⟨by decide, by decide, by decide, rfl⟩
theorem exportChanged_none (c old : Chip) (h : ∀ n, bitOf (old.param 0x28 0x032 n) 63 = false) : c.exportChanged old = c := by
  unfold Chip.exportChanged
  exact c.foldl_id _ (fun n => by simp [h]) _

/-- The IK-920 in full service. -/
def plain920 : Chip := { full with variant := .ik920 }
theorem get?_bit (t : Tab Nat) (k : Nat) (h : (t.all fun r => !bitOf r.2 63) = true) : bitOf ((Tab.get? t k).getD 0) 63 = false := by
  induction t with
  | nil => simp [Tab.get?, bitOf]
  | cons r t ih =>
    simp only [List.all_cons, Bool.and_eq_true, Bool.not_eq_true'] at h
    unfold Tab.get?
    split
    · exact h.1
    · exact ih h.2
theorem pDefault_export (v : Variant) (serial : Word) (strap e : Nat) : pDefault v serial strap 0x28 0x032 e = 0 := by
  delta pDefault
  rfl
theorem plain_exports (n : Nat) : bitOf (plain920.param 0x28 0x032 n) 63 = false := by
  unfold Chip.param
  rw [pDefault_export]
  exact get?_bit [] _ rfl
theorem setEffect_28 (c old : Chip) : c.setEffect old 0x28 = c.exportChanged old := rfl
set_option maxRecDepth 8000 in
theorem restore_default : (plain920.restore none).1.calm = true ∧ plain920.restoreRefused none = false := by
  have h : ((savedSets.findSome? fun s => (Chip.setCheck { plain920 with dict := { plain920.dict with active := Tab.keep plain920.dict.active fun n _ => !plain920.savedNumber n, fdpKey := none } } plain920 s).map fun n => (s, n))) = none := by decide +kernel
  unfold Chip.restoreRefused
  unfold Chip.restore
  simp only [Option.bind_none]
  rw [h]
  simp only [savedSets, List.foldl, setEffect_28, exportChanged_none _ _ plain_exports]
  exact ⟨by decide +kernel, rfl⟩

/-- A chip whose channel group 2 is in state `k`, without device regions and fabric memory; `d` are its parameters. -/
def gap (k : Nat) (d : Tab Nat) : Chip := { full with
  mem := { groups := [(2, { state := k })], regionMiB := (List.range 7).map fun i => (i, 0), size := 0 }
  dict := { active := d } }
theorem withdrawExports_none (c : Chip) (size : Nat) (l : List Nat) (h : (c.dict.active.all fun r => !bitOf r.2 63) = true) :
    c.withdrawExports size l = c := by
  have h1 : ∀ n, bitOf (c.param 0x28 0x032 n) 63 = false := fun n => by
    have : c.param 0x28 0x032 n = (Tab.get? c.dict.active (pnum 0x28 0x032 n)).getD 0 := by unfold Chip.param; rw [pDefault_export]
    rw [this]
    exact get?_bit _ _ h
  exact c.foldl_id _ (fun n => by simp [Chip.withdrawExport, h1]) _
theorem giveNewPlaces_dict (l : List Nat) : ∀ (c : Chip) (f : List Nat), (c.giveNewPlaces l f).dict = c.dict := by
  induction l with
  | nil => intros; rfl
  | cons a l ih =>
    intro c f
    unfold Chip.giveNewPlaces
    split
    · rfl
    · rw [ih]; rfl
theorem resize_dict (c : Chip) (n : Nat) : (c.resize n).dict = c.dict := rfl
theorem updGroup_dict (c : Chip) (g : Nat) (f : Group → Group) : (c.updGroup g f).dict = c.dict := rfl
theorem shrink_dict (c : Chip) : c.shrink.dict = c.dict := resize_dict c _
theorem moveOut_dict (c : Chip) (g : Nat) : (c.moveOut g).dict = c.dict := giveNewPlaces_dict _ c _
theorem migrate_dict (c : Chip) (g : Nat) : (c.migrate g).dict = c.dict := by
  unfold Chip.migrate
  rw [moveOut_dict, shrink_dict, updGroup_dict]
theorem withdraw_plain (c : Chip) (h : (c.dict.active.all fun r => !bitOf r.2 63) = true) :
    c.withdraw = c.withdrawRanges c.mem.size (List.range c.variant.hostPorts) := by
  unfold Chip.withdraw
  rw [withdrawExports_none _ _ _ h]
theorem beginRetire_plain (c : Chip) (g : Nat) (h : c.groupState g = 1) (hx : (c.dict.active.all fun r => !bitOf r.2 63) = true) :
    c.beginRetire g = ((c.migrate g).withdrawRanges (c.migrate g).mem.size (List.range (c.migrate g).variant.hostPorts)).setCond
      (groupUnit g) 0x102 true 11 (groupUnit g) := by
  unfold Chip.beginRetire
  rw [if_neg (by rw [h]; decide), withdraw_plain]
  rw [migrate_dict]
  exact hx
theorem gap_retires : ((gap 1 []).beginRetire 2).calm = true := by
  rw [beginRetire_plain _ _ (by decide +kernel) (by decide +kernel)]
  decide +kernel
theorem gap_fails : ((gap 1 [(pnum 0x30 0x062 0x103, 0x602)]).groupFails 2).calm = true := by
  unfold Chip.groupFails
  rw [if_neg (by decide +kernel), beginRetire_plain _ _ (by decide +kernel) (by decide +kernel)]
  decide +kernel
theorem gap_corrected : ((gap 1 [(pnum 0x28 0x013 0, 1), (pnum 0x28 0x012 0, 0)]).correctedError 2 64).calm = true := by
  unfold Chip.correctedError Chip.autoRetire
  simp only
  rw [if_pos (by decide +kernel), beginRetire_plain _ _ (by decide +kernel) (by decide +kernel)]
  decide +kernel
theorem fdp_accepted_write : fdpChip.fdpAccept (fdpBodyW ++ fdpTag fdpKey fdpBodyW) = some (fdpKey, 0, 1, [recW]) := by
  have hp : fdpParse (fdpBodyW ++ fdpTag fdpKey fdpBodyW) = some [recW] := by rfl
  have hk : fdpChip.dict.fdpKey = some fdpKey := rfl
  have hl : (fdpBodyW ++ fdpTag fdpKey fdpBodyW).length - 32 = 40 := by rfl
  unfold Chip.fdpAccept
  rw [hp, hk]
  simp only [hl]
  have ht : (fdpBodyW ++ fdpTag fdpKey fdpBodyW).take 40 = fdpBodyW := by rfl
  have hd : (fdpBodyW ++ fdpTag fdpKey fdpBodyW).drop 40 = fdpTag fdpKey fdpBodyW := by rfl
  rw [ht, hd, if_pos]
  · rfl
  · refine ⟨by decide, by decide, by decide, rfl⟩
theorem fdp_write_calm : (st fdpChip).leaves (fun c => c.fdpRequest { bytes := fdpBodyW ++ fdpTag fdpKey fdpBodyW }) := by
  refine ⟨by decide, ?_⟩
  show (fdpChip.fdpRequest _).calm = true
  unfold Chip.fdpRequest
  rw [show fdpChip.fdpAccept (Datagram.mk (fdpBodyW ++ fdpTag fdpKey fdpBodyW) 0).bytes = _ from fdp_accepted_write]
  rfl

/-- A chip whose host port 0 may use the management FIFOs. -/
def fmChip : Chip := { full with dict := { active := [(pnum 0x20 0x004 0, 1)] } }

/-- That chip with one FIFO as given. -/
def fifoChip (i : Nat) (f : Fifo) : Chip := { fmChip with fifos := [(i, f)] }

/-- A chip with a ready PF 0, a CQ 5, an SQ 7, an RQ 8 and an EQ 9. -/
def node : Chip := { full with
  funcs := [(0, { state := .ready, busMaster := true })]
  queues := [(5, { kind := .cq, vecValid := true }), (7, { kind := .sq, cqn := 5, pi := 2 }), (8, { kind := .rq, cqn := 5, pi := 2 }),
    (9, { kind := .eq })]
  mem := { regions := [(1, { flags := 31, va := 0x1000, length := 4096, pages := [0x8000] })] } }

/-- A work entry of SQ 7 of that chip to endpoint 1, which is its own host port 1. -/
def ent (op : Nat) : Entry :=
  { w0 := BitVec.ofNat 64 (op * 2 ^ 56 + 2 ^ 53 + 2 ^ 24 + 8), w1 := 4, w4 := 0x1000, w5 := 0x0000010000000000 }

/-- That chip with the control queue pair of PF 0 enabled and one control entry waiting. -/
def ctlChip : Chip := { node with
  dict := { active := [(pnum 0x21 0x004 0, 0x80000144), (pnum 0x21 0x010 0, 100), (pnum 0x21 0x011 0, 100), (pnum 0x21 0x012 0, 100)] }
  funcs := [(0, { state := .ready, ctlSqPi := 1 })] }

/-- The parameters of export entry 0: 1 MiB from offset 0, every right, every peer; its key is 0xFEF00000. -/
def exported : Tab Nat :=
  [(pnum 0x28 0x030 0, 0), (pnum 0x28 0x031 0, 1048576), (pnum 0x28 0x032 0, 0xF000000000000000 + 0x1FFFF * 2 ^ 17)]

/-- The chip `node` with that export entry. -/
def bank : Chip := { node with dict := { active := exported } }

/-- A response from endpoint 1 to host port 0, in the class of TC2. -/
def resp (kind op rpsn status : Nat) (w1 w2 w3 : Word) (l : List Byte) : Packet :=
  (newPacket 3 kind 0 1 false (BitVec.ofNat 64 (op * 2 ^ 56 + rpsn * 2 ^ 24 + status)) w1 w2 w3 l).sealed

/-- A request packet from endpoint 1 to host port 0, in TC2. -/
def req (op : Nat) (w0 w1 w2 w3 : Word) (l : List Byte) : Packet :=
  (newPacket 2 (kindOf op) 0 1 false (w0 + BitVec.ofNat 64 (op * 2 ^ 56 + 2 ^ 55)) w1 w2 w3 l).sealed

/-- The chip `node` with the peer channel of endpoint 1 in TC2, which is number 4. -/
def peer (x : Chan) : Chip := { node with tr := { chans := [(4, x)] } }

/-- The chip `node` with that channel, its context and those of RQ 8 and CQ 5 in the cache, and export entry 0. -/
def near (x : Chan) : Chip :=
  { node with
    dict := { active := exported }
    tr := { chans := [(4, x)], resident := [.channel 4, .queue 0 8, .queue 0 5] } }

/-- That chip with an RQ 8 of these RECVs, and matching context 3 bound to it with room for messages. -/
def nearRq (x : Chan) (l : List Entry) : Chip :=
  { near x with
    dict := { active := (pnum 0x22 0x012 0, 8) :: (pnum 0x22 0x013 0, 8) :: (pnum 0x22 0x014 0, 65536) :: exported }
    queues := [(5, { kind := .cq, vecValid := true }), (8, { kind := .rq, cqn := 5, recvs := l })]
    mt := { ctxs := [(3, { qn := 8 })] } }

/-- A receive half that expects PSN 100 of message 4. -/
def half : Chan := { recvOpen := true, synced := true, syncAt := some (90, 3), base := 100, nextDone := 4, resolve := 4 }

/-- A RECV entry of 16 bytes in export entry 0. -/
def rbuf : Entry := { w0 := 0xE000000000000000, w1 := 16, w2 := 64, w3 := 0xFEF0000000000000 }

/-- A TAGGED RECV entry of context 3 that takes anything, with the same buffer. -/
def tbuf : Entry := { rbuf with w0 := 0xE100000030000000, w5 := 0xFFFFFFFFFFFFFFFF, w6 := 0xFFFFFFFF00000000 }

/-- Membership 3 of tree 9: two members, PF 0 of host port 0 with rank 0 here, `parent` the parent port. -/
def team (parent : Nat) (children : Tab Nat) : Tab Nat :=
  [(pnum 0x24 0x010 3, 0x80000009), (pnum 0x24 0x011 3, parent), (pnum 0x24 0x012 3, 2), (pnum 0x24 0x013 3, 4),
    (pnum 0x24 0x020 3, 0x80000000)] ++ children ++ exported

/-- A collective entry of 8 inline bytes for that membership, its result going to export entry 0. -/
def cent (op len : Nat) : Entry :=
  { w0 := BitVec.ofNat 64 (op * 2 ^ 56 + 2 ^ 53 + 2 ^ 52), w1 := BitVec.ofNat 64 len, w2 := 0x0000300000000000, w3 := 0x0807060504030201
    w6 := 0xFEF0000000000000 }

/-- A tree packet of CSEQ 0, segment 0 of 1. -/
def treep (kind op flags : Nat) (l : List Byte) : Packet :=
  (newPacket 1 kind 0 8 false (BitVec.ofNat 64 (op * 2 ^ 56 + flags * 2 ^ 48 + 9 * 2 ^ 20)) 0 0x0000400000000000 0 l).sealed

/-- The chip of that membership with one open operation and one tree packet that port 5 has handed over. -/
def busy (parent : Nat) (children : Tab Nat) (o : COp) (p : Packet) : Chip :=
  { node with
    dict := { active := team parent children }
    co := { ops := [o], nextCseq := [(3, 1)], postCount := [(12, 1)], arrivals := [(5, p)] } }

/-- Window slot 0 of PF 0: 4 KiB at BAR4 offset 0, to endpoint 1, with the given mode bits; P29.003 is 20 ns. -/
def winDict (mode : Nat) : Tab Nat :=
  [(pnum 0x29 0x003 0, 20), (pnum 0x29 0x100 0, 0x80000100FEF00000), (pnum 0x29 0x140 0, 12 * 2 ^ 58), (pnum 0x29 0x180 0, mode)]

/-- The window that those rows describe. -/
def win (mode : Nat) : Win :=
  { slot := 0, base := 0, size := 4096, ep := 1, key := 0xFEF00000, confirmed := bitOf mode 63, dinv := bitOf mode 62
    prefetch := bitOf mode 60, cls := 0, toffset := 0 }

/-- The chip of that window with what its bridge holds. -/
def winChip (mode : Nat) (b : Bridge) : Chip := { node with dict := { active := winDict mode }, br := b }

/-- A chip with a region row for indices 1 to 16 and one region command of PF 0 under way. -/
def regChip : Chip := { node with
  dict := { active := [(pnum 0x28 0x020 0, 0x0000000100000010)] }
  funcs := [(0, { state := .ready, regionJobs := [0x2000], busMaster := true })] }

/-- A NOP request to endpoint 1, as a router carries it. -/
def passing : Packet := (newPacket 2 5 1 8 false 0x4180000000000000 1 0 0 []).sealed

/-- A chip whose fabric port 5 has role 1 and is in the given training state. -/
def wire (t : Port) : Chip := { full with dict := { active := [(pnum 0x10 0x010 5, 1)] }, train := [(5, t)] }

/-- A broadcast of the fabric manager at endpoint 8. -/
def bcast (kind : Nat) (w0 w1 : Word) : Packet := (newPacket 0 kind 0 8 false w0 w1 0 0 []).sealed

/-- A packet as it goes on the line with its link header of an LSN; `x` is added to its link CRC modulo 2. -/
def onLine (lsn : BitVec 12) (p : Packet) (x : BitVec 32 := 0) : List Byte :=
  let hdr := linkHeader lsn p.linkBytes true false
  hdr.be ++ p.linkBody ++ bytesBE 4 (linkCrc hdr p ^^^ x).toNat

/-- Data blocks of these bytes, padded. -/
def inBlocks (l : List Byte) : List PortBlock :=
  (List.range ((l.length + 31) / 32)).map fun i => { bytes := ((l.drop (32 * i)) ++ zeros 32).take 32 }

/-- The two halves of an LCB as they arrive. -/
def halves (l : Lcb) : LcbHalves :=
  { first := ((Lcb.sealed l).blocks.map (·.bytes)).headD [], second := (((Lcb.sealed l).blocks.map (·.bytes)).drop 1).headD [] }
end Sys2Proof.Tests

/-! ### Worked examples of the spec -/

namespace Sys2Proof.Tests

open Sys2Proof Sys2Proof.Machine

/-- 03, worked example: packet 0 of the WRITE of 10,000 bytes from endpoint 0x0_028C to endpoint 0x0_02A5. -/
def write0 (len : Nat) : Packet :=
  { newPacket 2 2 0x2A5 0x28C false 0 0 0 0 [] with len := BitVec.ofNat 7 (lenOf false len), injt := 0x123456789ABC }

/-- 03: header word 0 of packets 0 and 2, and header word 1 of packet 0. -/
theorem test_routing_header : (write0 4096).hdr0 = 0x2A840008054A028C ∧ (write0 1808).hdr0 = 0x2A3C0008054A028C ∧
    (write0 4096).hdr1 = 0x0140123456789ABC := by decide

/-- 03: the message is cut into 3 packets, the last of 1,808 bytes; LEN is 66, 66 and 30. -/
theorem test_write_packets : packetsOf 10000 = 3 ∧ payloadLen 10000 0 = 4096 ∧ payloadLen 10000 2 = 1808 ∧
    lenOf false 4096 = 66 ∧ lenOf false 1808 = 30 := by decide

/-- 03: transport header W0 and W1 of packets 0 and 2. -/
theorem test_transport_header :
    (requestWords 0x10 false false 0x100 0 3 0 0x100000 0x1203 0).1 = 0x1000000000100000 ∧
    (requestWords 0x10 false false 0x100 0 3 0 0x100000 0x1203 0).2.1 = 0x0001000000000003 ∧
    (requestWords 0x10 true false 0x102 2 3 0 0x100000 0x1203 0).1 = 0x1080000000100000 ∧
    (requestWords 0x10 true false 0x102 2 3 0 0x100000 0x1203 0).2.1 = 0x0001020000200003 ∧
    (requestWords 0x10 true false 0x102 2 3 0 0x100000 0x1203 0).2.2.1 = 0x0000000000001203 := by decide

/-- 03: word 0 of a shim dictionary request to chip 0x00A9. -/
theorem test_shim_header : (newPacket 0 0x40 0x2A5 0x28C false 0 0 0 0 []).hdr0 = 0x00020100054A028C := by decide

/-- 05: the RING of SQ 0x00_1234 with hint PI 5. -/
theorem test_ring_word : dbOp 0x2000050000001234 = 0 ∧ dbFlag 0x2000050000001234 = true ∧ dbIndex 0x2000050000001234 = 5 ∧
    dbQn 0x2000050000001234 = 0x1234 := by decide

/-- 05, R132: the SQ of 16 entries whose PI has wrapped holds 16 entries; PI 6 after CI 0xFFFF_FFF5 is one too many. -/
theorem test_indices_wrap : Queue.unconsumed { pi := 0, ci := 0xFFFFFFF0 } = 16 ∧ Queue.unconsumed { pi := 5, ci := 0xFFFFFFF5 } = 16 ∧
    Queue.unconsumed { pi := 6, ci := 0xFFFFFFF5 } = 17 := by decide

/-- 02, R48: ports 0 to 31 all with role 1: the first check of R74 fails at port 31, the 32nd. -/
def rolesChip : Chip := { full with dict := { active := (List.range 32).map fun i => (pnum 0x10 0x010 i, 1) } }

/-- 02: what P01.004[0x10] holds of it, beside its status. -/
theorem test_first_failed_check : rolesChip.setCheck full 0x10 = some 0x1001001F := by decide +kernel

/-- 04, R116: 2,044 words stand in the receive FIFO. A further packet is dropped and a marker with COUNT 1 is written: 3 words stay
free. Two more are dropped; the markers add up to the three packets lost. -/
def lossy : Fifo := ((({ words := List.replicate 2044 0 } : Fifo).packet 2048 (List.replicate 6 5)).mark 2048)

/-- The first marker. -/
theorem test_marker : lossy.words.drop 2044 = [markerWord 1] ∧ lossy.dropped = 0 := by decide +kernel

/-- All markers. -/
theorem test_markers_add_up :
    (((((lossy.packet 2048 (List.replicate 6 5)).packet 2048 (List.replicate 6 5)).mark 2048).words.drop 2044).foldl
      (fun n w => n + Word.field w 31 0) 0) = 3 := by decide +kernel

/-- 09: an fp32 sum of 2^24, 1.0 and 1.0 gives 16,777,218 in every order. -/
theorem test_marrow_sum :
    marrowResult 6 ((marrowOf 6 0x4B800000).add ((marrowOf 6 0x3F800000).add (marrowOf 6 0x3F800000))) = 0x4B800001 ∧
    marrowResult 6 (((marrowOf 6 0x4B800000).add (marrowOf 6 0x3F800000)).add (marrowOf 6 0x3F800000)) = 0x4B800001 := by
  decide +kernel

/-- 09: the compressed elements of a, of b, and of a + b + c. -/
theorem test_marrow_elements :
    packElem 6 (marrowOf 6 0x4B800000) = bytesLE 4 0x10000501 ++ bytesLE 4 0x00002000 ∧
    packElem 6 (marrowOf 6 0x3F800000) = bytesLE 4 0x10000401 ++ bytesLE 4 0x00200000 ∧
    packElem 6 ((marrowOf 6 0x4B800000).add ((marrowOf 6 0x3F800000).add (marrowOf 6 0x3F800000))) =
      bytesLE 4 0x10000402 ++ bytesLE 4 0x00400000 ++ bytesLE 4 0x00002000 := by decide +kernel

/-- 10, R297: the window of the example, LOGSIZE 16 and TOFFSET 0x0020_0000, in either invariance. -/
def exampleWindow (dinv : Bool) : Win :=
  { slot := 0, base := 0, size := 65536, ep := 1, key := 0, confirmed := false, dinv := dinv, prefetch := false, cls := 0
    toffset := 0x200000 }

/-- 10: the 4-byte value 0x1122_3344 at offset 0x1004 and the 8-byte value 0x0102_0304_0506_0708 at 0x1008. -/
theorem test_window_writes :
    (exampleWindow false).runs 0x1004 (bytesLE 4 0x11223344) = [(0x201004, [0x44, 0x33, 0x22, 0x11])] ∧
    (exampleWindow true).runs 0x1004 (bytesLE 4 0x11223344) = [(0x201000, [0x11, 0x22, 0x33, 0x44])] ∧
    (exampleWindow false).runs 0x1008 (bytesLE 8 0x0102030405060708) = [(0x201008, [8, 7, 6, 5, 4, 3, 2, 1])] ∧
    (exampleWindow true).runs 0x1008 (bytesLE 8 0x0102030405060708) = [(0x201008, [1, 2, 3, 4, 5, 6, 7, 8])] := by decide

/-- 12: the gate entry words 0x015F_903C and 0x0027_10CC of F30, two entries. -/
def gatedChip : Chip :=
  { full with dict := { active := [(pnum 0x1A 0x030 30, 0x80020000), (pnum 0x1A 0x040 30, 0x015F903C), (pnum 0x1A 0x041 30, 0x002710CC)] } }

/-- 12: entry 0 lasts 90,000 ns and opens TC2 to TC5; entry 1 lasts 10,000 ns and opens TC2, TC3, TC6 and TC7. -/
theorem test_gate_entries : gatedChip.gateEntries 30 = [(4 * 90000, 0x3C), (4 * 10000, 0xCC)] ∧
    [2, 3, 4, 5].all (openIn 0x3C) = true ∧ [2, 3, 6, 7].all (openIn 0xCC) = true ∧ openIn 0x3C 6 = false ∧
    openIn 0xCC 4 = false := by decide +kernel

/-- 16: the four stamps of the exchange give θ = 148 counts and d = 40 counts. -/
theorem test_theta_and_delay : (full.thetaDelay 4000188 4000080 4012000 4012188).2 = (148, 40) := by decide +kernel

/-- 16: 200 valid rows are cut into four parts of 62, 62, 62 and 14 counters. -/
theorem test_stream_parts : (chunksOf 62 200 (List.range 200)).map List.length = [62, 62, 62, 14] := by decide +kernel

/-- 17: words 2 to 4 of record A. -/
theorem test_record_words :
    ((recWords { source := 0x000A30A3, cls := 2, reaction := 0, rseq := 0x1F40, cause := 0x100, skind := 4, subject := 0x123
                 count := 4 }).drop 2).take 3 = [0x014614680F400100, 0x4000000000000123, 0x0000000400001F40] := by decide

/-- 17, R180: with the defaults a packet reaches the retry limit 4,080 µs after its first transmission. -/
theorem test_retry_time : full.retransmitTime = 4080 := by decide +kernel

/-- 18, R482: chip (5, 3) in the Jig service reaches chip (200, 9) through F2. -/
theorem test_jig_route : ({ jig with boot := { phase := .jig, strapLatch := 5 * 32 + 3 } } : Chip).jigRoute 200 9 = some 2 := by
  decide +kernel

/-- 18: the position that F2 leads to, 6, and there F51 leads on to group 200; in group 200, position 25 leads to 9 through F15. -/
theorem test_jig_route_onward :
    ({ jig with boot := { phase := .jig, strapLatch := 5 * 32 + 3 } } : Chip).jigPeer 2 = (5, 6) ∧
    ({ jig with boot := { phase := .jig, strapLatch := 5 * 32 + 6 } } : Chip).jigRoute 200 9 = some 51 ∧
    ({ jig with boot := { phase := .jig, strapLatch := 5 * 32 + 6 } } : Chip).jigPeer 51 = (200, 25) ∧
    ({ jig with boot := { phase := .jig, strapLatch := 200 * 32 + 25 } } : Chip).jigRoute 200 9 = some 15 := by decide +kernel

/-- 15, R423: above 20 slots a filler is deleted, below 12 one is inserted, beyond 32 the lock is lost. -/
theorem test_elastic : elastic 21 true = some 20 ∧ elastic 20 true = some 20 ∧ elastic 11 false = some 12 ∧ elastic 33 true = none := by
  decide

/-- 15, R413: one set bit after 58 clear ones comes out again 39 and 58 bits later, and so on: at 0, 39, 58, 78 and 116 of the first
117 bits (97 is reached in two ways). Descrambling gives the one bit back. -/
theorem test_scrambler : (scrambled 0 1).1 % 2 ^ 117 = 2 ^ 0 + 2 ^ 39 + 2 ^ 58 + 2 ^ 78 + 2 ^ 116 ∧
    (descrambled 0 (scrambled 0 1).1).1 = 1 := by decide +kernel

/-- The ten-bit symbols of a bit string, added in GF(2^10): its value at α^0. -/
def symbolSum (bits n : Nat) : Nat := (List.range n).foldl (fun a i => a ^^^ (bits / 2 ^ (10 * i) % 1024)) 0

/-- 15, R415: α^0 is a root of g, so the symbols of a message and of its parity add up to 0. -/
theorem test_parity_has_the_root_one :
    symbolSum 0x123456789ABCDEF 516 ^^^ symbolSum (fecParity 0x123456789ABCDEF false) 28 = 0 ∧
    fecParity 0x123456789ABCDEF false ≠ 0 := by decide +kernel

/-- 15, R424: each symbol sent is the symbol less the one sent before it, modulo 4. -/
theorem test_precoding : precoded 1 [0, 3, 2, 0] = [3, 0, 2, 2] := by decide

/-- 19, R506: the JTAG port of every variant reads 0xB096_0A53 as IDCODE. -/
theorem test_idcode : jtagIdcode = 0xB0960A53 := by decide

end Sys2Proof.Tests
end

