-- ==== Sys2Proof/Tests/WitnessHost.lean ====
section
/-! SUPPORT. Witnesses: for each statement and each of its clauses, states and operands that meet the hypotheses. -/

namespace Sys2Proof.Tests

set_option Elab.async false

open Sys2Proof Sys2Proof.Machine

/-! QueuedCommandsAllRun, clause by clause. -/

theorem witness_QueuedCommandsAllRun :
    ∃ (s : State), s.pending = [] :=
  ⟨State.reset, by decide +kernel⟩

/-! EveryStepKeepsMemoryCanonical, clause by clause. -/

theorem witness_EveryStepKeepsMemoryCanonical :
    ∃ (s : State) (t : State), s.memoryCanonical ∧ step s = .next t :=
  ⟨State.reset, State.reset, by decide, rfl⟩

/-! EveryStepKeepsTheFusedIdentity, clause by clause. -/

theorem witness_EveryStepKeepsTheFusedIdentity :
    ∃ (s : State) (t : State), step s = .next t :=
  ⟨State.reset, State.reset, rfl⟩

/-! ResetPinsActFirst, clause by clause. -/

theorem witness_ResetPinsActFirst_1 :
    ∃ (s : State), s.chip.boot.phase ≠ .tripped :=
  ⟨st jig, by decide +kernel⟩

theorem witness_ResetPinsActFirst_2 :
    ∃ (s : State), s.chip.calm = true ∧ s.chip.boot.phase = .tripped :=
  ⟨st { boot := { phase := .tripped, resetLow := false } }, by decide +kernel⟩

theorem witness_ResetPinsActFirst_3 :
    ∃ (s : State), s.chip.calm = true ∧ s.chip.boot.phase = .held :=
  ⟨st { boot := { phase := .held, resetLow := true } }, by decide +kernel⟩

theorem witness_ResetPinsActFirst_4 :
    ∃ (s : State), s.chip.calm = true ∧ s.chip.boot.resetLow = true :=
  ⟨st { boot := { phase := .held, resetLow := true } }, by decide +kernel⟩

/-! BootReachesService, clause by clause. -/

theorem witness_BootReachesService_1 :
    ∃ (s : State), let f := s.chip.flash; let b := f.bootSlot; s.chip.calm = true ∧ s.chip.boot.phase = .booting ∧
    (f.slot b).checked.state = 2 :=
  ⟨st { boot := { phase := .booting } }, by decide +kernel⟩

theorem witness_BootReachesService_2 :
    ∃ (s : State), let f := s.chip.flash; let b := f.bootSlot; s.chip.calm = true ∧ s.chip.boot.phase = .booting ∧
    (f.slot b).checked.state ≠ 2 ∧ (f.slot (1 - b)).checked.state = 2 ∧ s.chip.reactionOf 0x90 0x103 ≤ 2 :=
  ⟨st { boot := { phase := .booting }, flash := { slots := [(0, {}), (1, { shipped := true })] } }, by decide +kernel⟩

theorem witness_BootReachesService_3 :
    ∃ (s : State), let f := s.chip.flash; let b := f.bootSlot; s.chip.calm = true ∧ s.chip.boot.phase = .booting ∧
    (f.slot b).checked.state ≠ 2 ∧ (f.slot (1 - b)).checked.state ≠ 2 :=
  ⟨st { boot := { phase := .booting }, flash := { slots := [(0, {}), (1, {})] } }, by decide +kernel⟩

theorem witness_BootReachesService_4 :
    ∃ (s : State), s.chip.calm = true ∧ s.chip.boot.phase = .loaded ∧ s.chip.jigUp.calm = true :=
  ⟨st { boot := { phase := .loaded } }, by decide +kernel⟩

theorem witness_BootReachesService_5 :
    ∃ (s : State) (w : Writer) (t : Word), s.chip.calm = true ∧ s.chip.boot.phase = .jig ∧
    s.chip.mayWrite w (pnum 0x01 0x001 0x38) = true ∧ (s.chip.applySet 0x38).phase = .staging ∧
    ((s.chip.applySet 0x38).holder = some w ∨ w.isF = true) ∧ Tab.get? s.chip.dict.staged (pnum 0x38 0x040 0) = some 1 ∧
    s.chip.dict.committed10 = true ∧ s.chip.areasGiven = true ∧ t.toNat ≤ s.chip.tb.time.toNat ∧
    (s.chip.numWrite w 0x01 0x001 0x38 8 t.toNat).calm = true :=
  ⟨st { jig with dict := { committed10 := true, staged := [(pnum 0x38 0x040 0, 1)], sets := [(0x38, { phase := .staging, holder := some (.mailbox 0) })] }, tb := { time := 7 } },
    .mailbox 0, 7, by decide +kernel⟩

/-! ClustersRestart, clause by clause. -/

theorem witness_ClustersRestart_1 :
    ∃ (s : State) (u : Nat) (w : _), 0x90 ≤ u ∧ u < 0x96 ∧ s.chip.calm = true ∧
    s.chip.mayWrite w (pnum 0x38 0x030 0) = true ∧ s.chip.clusterUp (u - 0x90) = true :=
  ⟨st full, 0x95, .mailbox 0, by decide +kernel⟩

theorem witness_ClustersRestart_2 :
    ∃ (s : State) (u : Nat), 0x90 ≤ u ∧ u < 0x96 ∧ Tab.get s.chip.fw.clusters (u - 0x90) 0 = 1 ∧
    (s.chip.clusterBack u).calm = true ∧ s.chip.fw.activate = [] :=
  ⟨st { full with fw := { clusters := [(2, 1)] } }, 0x92, by decide +kernel⟩

theorem witness_ClustersRestart_3 :
    ∃ (s : State) (u : Nat) (j : _) (l : _), 0x90 ≤ u ∧ u < 0x96 ∧ Tab.get s.chip.fw.clusters (u - 0x90) 0 = 1 ∧
    (s.chip.clusterBack u).calm = true ∧ s.chip.fw.activate = (u - 0x90) :: j :: l ∧ j ≠ u - 0x90 ∧
    s.chip.clusterUp j = true :=
  ⟨st { full with fw := { clusters := [(4, 1)], activate := [4, 5, 3, 2, 1, 0], updateState := 7 } }, 0x94, 5,
    [3, 2, 1, 0], by decide +kernel⟩

/-! UpdatesFillAndNameTheOtherSlot, clause by clause. -/

theorem witness_UpdatesFillAndNameTheOtherSlot_1 :
    ∃ (s : State) (w : Writer), s.chip.calm = true ∧ s.chip.mayWrite w (pnum 0x38 0x021 0) = true ∧
    s.chip.runsOther = false ∧ s.chip.fw.updateState ≠ 3 ∧ s.chip.fw.updateState ≠ 7 ∧ s.chip.flash.op = none :=
  ⟨st full, .mailbox 0, by decide +kernel⟩

theorem witness_UpdatesFillAndNameTheOtherSlot_2 :
    ∃ (s : State), s.chip.calm = true ∧ s.chip.flash.op = some .erase :=
  ⟨st { full with flash := { op := some .erase } }, by decide +kernel⟩

theorem witness_UpdatesFillAndNameTheOtherSlot_3 :
    ∃ (s : State) (w : Writer) (k : Nat) (l : List Byte), s.chip.calm = true ∧
    s.chip.mayWrite w (pnum 0x38 0x020 k) = true ∧ k < 4096 ∧ l.length = 524288 ∧ s.chip.fw.updateState = 2 ∧
    s.chip.flash.op = none :=
  ⟨st { full with fw := { updateState := 2 } }, .mailbox 0, 31, List.replicate 524288 0, by decide, by decide, by decide,
    List.length_replicate, by decide, by decide⟩

theorem witness_UpdatesFillAndNameTheOtherSlot_4 :
    ∃ (s : State) (k : _) (l : _), s.chip.calm = true ∧ s.chip.flash.blockJob = some (k, l) :=
  ⟨st { full with flash := { op := some .block, blockJob := some (31, [7]) }, fw := { updateState := 2 } }, 31, [7],
    by decide +kernel⟩

theorem witness_UpdatesFillAndNameTheOtherSlot_5 :
    ∃ (s : State) (w : Writer), s.chip.calm = true ∧ s.chip.mayWrite w (pnum 0x38 0x021 0) = true ∧
    s.chip.fw.updateState = 2 :=
  ⟨st { full with fw := { updateState := 2 } }, .mailbox 0, by decide +kernel⟩

theorem witness_UpdatesFillAndNameTheOtherSlot_6 :
    ∃ (s : State), s.chip.calm = true ∧ s.chip.fw.verifying = true :=
  ⟨st { full with fw := { updateState := 3, verifying := true } }, by decide +kernel⟩

theorem witness_UpdatesFillAndNameTheOtherSlot_7 :
    ∃ (s : State) (w : Writer), s.chip.calm = true ∧ s.chip.mayWrite w (pnum 0x38 0x021 0) = true ∧
    s.chip.fw.updateState = 4 ∧ (s.chip.flash.slot s.chip.otherSlot).state = 2 ∧ s.chip.flash.op = none ∧
    s.chip.flash.ptrGeneration < 0xFFFFFFFE :=
  ⟨st { full with fw := { updateState := 4 }, flash := { slots := [(0, { state := 2 }), (1, { state := 2 })] } },
    .mailbox 0, by decide +kernel⟩

theorem witness_UpdatesFillAndNameTheOtherSlot_8 :
    ∃ (s : State) (k : _), s.chip.calm = true ∧ s.chip.fw.switchTo = some k ∧ k ≤ 1 ∧
    s.chip.flash.ptrGeneration < 0xFFFFFFFE :=
  ⟨st { full with fw := { updateState := 5, switchTo := some 1 }, flash := { op := some .switch, ptrs := [(0, ptrRecord 7 0 0)] } },
    1, by decide +kernel⟩

theorem witness_UpdatesFillAndNameTheOtherSlot_9 :
    ∃ (s : State) (k : _), s.chip.calm = true ∧ s.chip.fw.switchTo = some k :=
  ⟨st { full with fw := { updateState := 5, switchTo := some 1 }, flash := { op := some .switch } }, 1, by decide +kernel⟩

theorem witness_UpdatesFillAndNameTheOtherSlot_10 :
    ∃ (s : State) (w : Writer), s.chip.calm = true ∧ s.chip.mayWrite w (pnum 0x38 0x021 0) = true ∧
    s.chip.fw.updateState = 6 ∧ s.chip.clusterUp 4 = true :=
  ⟨st { full with fw := { updateState := 6 } }, .mailbox 0, by decide +kernel⟩

/-! OccurrencesAreCountedAndRecorded, clause by clause. -/

theorem witness_OccurrencesAreCountedAndRecorded_1 :
    ∃ (s : State) (u : Nat) (k : Nat) (skind : _) (subject : _), let c := s.chip; s.chip.ticking = true ∧
    unitPresent s.chip.variant u = true ∧ isCause u k = true ∧ s.chip.unitStopped u = false ∧ s.chip.reactionOf u k ≤ 2 ∧
    skind < 13 ∧ (c.reportFault u k skind subject).calm = true ∧ (((sourceInfo u k).cond = true → (c.src u k).now = false)) :=
  ⟨st full, 0x90, 0x103, 8, 5, by decide +kernel⟩

theorem witness_OccurrencesAreCountedAndRecorded_2 :
    ∃ (s : State) (u : Nat) (k : Nat), let c := s.chip; s.chip.ticking = true ∧ unitPresent s.chip.variant u = true ∧
    isCause u k = true ∧ s.chip.unitStopped u = false ∧ s.chip.reactionOf u k ≤ 2 ∧ k = 4 ∧ (c.stall u).calm = true :=
  ⟨st { full with dict := { active := [(pnum 0x30 59 4, 0x602)] } }, 59, 4, by decide +kernel⟩

/-! HeavyFaultsReset, clause by clause. -/

theorem witness_HeavyFaultsReset_1 :
    ∃ (s : State) (u : Nat) (k : Nat) (skind : Nat), s.chip.ticking = true ∧ unitPresent s.chip.variant u = true ∧
    isCause u k = true ∧ s.chip.unitStopped u = false ∧ skind < 13 ∧
    (((sourceInfo u k).cond = true → (s.chip.src u k).now = false)) ∧ s.chip.reactionOf u k = 4 :=
  ⟨st { full with boot := { phase := .full, strapLatch := 5 } }, 0xA0, 3, 11, by decide +kernel⟩

theorem witness_HeavyFaultsReset_2 :
    ∃ (s : State) (u : Nat) (k : Nat) (skind : Nat) (subject : Nat),
    let after := (s.chip.reportFault u k skind subject).afterReset u; s.chip.ticking = true ∧
    unitPresent s.chip.variant u = true ∧ isCause u k = true ∧ s.chip.unitStopped u = false ∧ skind < 13 ∧
    (((sourceInfo u k).cond = true → (s.chip.src u k).now = false)) ∧ s.chip.reactionOf u k = 3 ∧ s.chip.calm = true ∧
    after.calm = true ∧ s.chip.recentResets u < s.chip.param 0x30 0xF03 0 :=
  ⟨st full, 0xDF, 3, 11, 0xDF, by decide +kernel⟩

theorem witness_HeavyFaultsReset_3 :
    ∃ (s : State) (u : Nat) (k : Nat) (skind : Nat) (subject : Nat),
    let after := (s.chip.reportFault u k skind subject).afterReset u; s.chip.ticking = true ∧
    unitPresent s.chip.variant u = true ∧ isCause u k = true ∧ s.chip.unitStopped u = false ∧ skind < 13 ∧
    (((sourceInfo u k).cond = true → (s.chip.src u k).now = false)) ∧ s.chip.reactionOf u k = 3 ∧ s.chip.calm = true ∧
    after.calm = true ∧ s.chip.param 0x30 0xF03 0 ≤ s.chip.recentResets u :=
  ⟨st { full with flt := { resets := [(0xC2, 0), (0xC2, 0), (0xC2, 0)] } }, 0xC2, 4, 11, 0xC2, by decide +kernel⟩

/-! SourcesClearAndRecordsLeave, clause by clause. -/

theorem witness_SourcesClearAndRecordsLeave_1 :
    ∃ (s : State) (w : Writer) (u : Nat) (k : _), s.serving ∧ s.chip.mayWrite w (pnum 0x30 (0x100 + u) k) = true ∧
    u < 0xE00 ∧ k < 4096 :=
  ⟨st { full with flt := { sources := [(srcKey 0x90 0x103, { occur := 3, pend := true })] } }, .mailbox 0, 0x90, 0x103,
    by decide +kernel⟩

theorem witness_SourcesClearAndRecordsLeave_2 :
    ∃ (s : State) (u : Nat), u ∈ s.chip.flt.inReset ∧ (u < 0x90 ∨ 0x96 ≤ u) ∧ (s.chip.blockResetDone u).calm = true :=
  ⟨st { full with flt := { inReset := [0x3C] } }, 0x3C, by decide +kernel⟩

theorem witness_SourcesClearAndRecordsLeave_3 :
    ∃ (s : State) (u : Nat), 0x90 ≤ u ∧ u < 0x96 ∧ Tab.get s.chip.fw.clusters (u - 0x90) 0 = 1 ∧ s.chip.fw.activate = [] ∧
    (s.chip.blockResetDone u).calm = true :=
  ⟨st { full with flt := { inReset := [0x95] }, fw := { clusters := [(5, 1)] } }, 0x95, by decide +kernel⟩

theorem witness_SourcesClearAndRecordsLeave_4 :
    ∃ (s : State) (w : Writer) (u : Nat), s.chip.mayWrite w (pnum 0x30 0xF05 0) = true ∧
    s.chip.flt.heldUnits.contains u = true ∧ u < 65536 ∧ (s.chip.numWrite w 0x30 0xF05 0 2 u).calm = true :=
  ⟨st { full with flt := { heldUnits := [0xC2] } }, .mailbox 0, 0xC2, by decide +kernel⟩

theorem witness_SourcesClearAndRecordsLeave_5 :
    ∃ (s : State) (w : Writer) (u : Nat), s.serving ∧ s.chip.mayWrite w (pnum 0x30 0xF05 0) = true ∧
    s.chip.flt.heldUnits.contains u = false ∧ u < 65536 :=
  ⟨st full, .mailbox 0, 0xC2, by decide +kernel⟩

theorem witness_SourcesClearAndRecordsLeave_6 :
    ∃ (s : State), s.chip.calm = true ∧ s.chip.ticking = true :=
  ⟨st { full with flt := { openRecs := [{ closeAt := 0 }, { closeAt := 9 }] } }, by decide +kernel⟩

theorem witness_SourcesClearAndRecordsLeave_7 :
    ∃ (s : State) (r : _) (rest : _), s.chip.calm = true ∧ s.chip.up = true ∧ s.chip.clusterUp 4 = true ∧
    s.chip.flt.closedRecs = r :: rest ∧ s.chip.flt.used ≤ 2047 :=
  ⟨st { full with flt := { closedRecs := [{ cause := 3, cls := 7 }], pendingUnrec := 4 }, dict := { active := [(pnum 0x30 0xF20 0, 0x80000005)] } },
    { cause := 3, cls := 7 }, [], by decide +kernel⟩

/-! MailboxRequestsComplete, clause by clause. -/

theorem witness_MailboxRequestsComplete_1 :
    ∃ (s : State) (h : Nat), s.serving ∧ s.chip.hasHost h = true ∧ s.chip.mgtUp = true :=
  ⟨st full, 3, by decide +kernel⟩

theorem witness_MailboxRequestsComplete_2 :
    ∃ (s : State) (h : Nat) (op : _), s.serving ∧ s.chip.hasHost h = true ∧ s.chip.mgtUp = true ∧ (op = 0 ∨ 4 < op) :=
  ⟨st full, 0, 5, by decide +kernel⟩

theorem witness_MailboxRequestsComplete_3 :
    ∃ (s : State) (h : Nat), s.serving ∧ s.chip.hasHost h = true ∧ s.chip.mgtUp = false :=
  ⟨st { full with fw := { clusters := [(0, 1)] } }, 0, by decide +kernel⟩

theorem witness_MailboxRequestsComplete_4 :
    ∃ (s : State) (h : Nat) (vf : Nat) (relay : Bool) (param : BitVec 32), s.chip.hasHost h = true ∧
    s.leaves (fun c => c.mbxRequest h 2 relay vf param) :=
  ⟨st { full with dict := { mailboxes := [(0, { final := true, xferLen := 1, data := [(0, 1)] })] } }, 0, 0, false,
    BitVec.ofNat 32 (pnum 0x20 0x010 0), by decide +kernel⟩

theorem witness_MailboxRequestsComplete_5 :
    ∃ (s : State) (h : Nat) (vf : Nat) (relay : Bool) (param : BitVec 32) (d : Desc) (l : List Byte) (a : PAccess),
    let m := s.chip.mailbox h; let w : Writer := if relay then .tenant h vf else .mailbox h; s.chip.hasHost h = true ∧
    s.serving ∧ s.chip.mgtUp = true ∧ s.chip.heldAt (.mailbox h) = none ∧ descOf s.chip.variant param.toNat = some d ∧
    s.chip.passes w param.toNat l = some a ∧ (a = .rwa ∨ (a = .rw ∨ a = .rwn) ∧ storesOnly param.toNat = true) ∧
    m.final = true ∧ m.xferOff = 0 ∧ m.xferLen = l.length ∧ m.bytes l.length = pathOrder true d l :=
  ⟨st { full with dict := { mailboxes := [(0, { final := true, xferLen := 4, data := [(0, 200)] })] } }, 0, 0, false,
    BitVec.ofNat 32 (pnum 0x01 0x020 0), { ty := .u32, access := .rwn, writers := 14, saved := true }, [0, 0, 0, 200], .rwn,
    by decide +kernel⟩

theorem witness_MailboxRequestsComplete_6 :
    ∃ (s : State) (h : Nat) (vf : Nat) (relay : Bool) (param : BitVec 32) (k : _),
    let w : Writer := if relay then .tenant h vf else .mailbox h; s.chip.hasHost h = true ∧ s.serving ∧
    s.chip.mgtUp = true ∧ s.chip.reachWrite w param.toNat = .error k :=
  ⟨st full, 0, 0, false, 0x00001000, 6, by decide +kernel⟩

theorem witness_MailboxRequestsComplete_7 :
    ∃ (s : State) (h : Nat) (vf : Nat) (relay : Bool) (param : BitVec 32) (d : Desc), let m := s.chip.mailbox h;
    let w : Writer := if relay then .tenant h vf else .mailbox h; s.chip.hasHost h = true ∧ s.serving ∧
    s.chip.mgtUp = true ∧ s.chip.heldAt (.mailbox h) = none ∧ s.chip.reachWrite w param.toNat = .ok d ∧ m.final = false ∧
    m.xferLen ≤ 2048 :=
  ⟨st { full with dict := { mailboxes := [(0, { final := false, xferLen := 4, data := [(0, 200)] })] } }, 0, 0, false,
    BitVec.ofNat 32 (pnum 0x01 0x020 0), { ty := .u32, access := .rwn, writers := 14, saved := true }, by decide +kernel⟩

theorem witness_MailboxRequestsComplete_8 :
    ∃ (s : State) (h : Nat), s.chip.hasHost h = true ∧ s.serving :=
  ⟨st full, 3, by decide +kernel⟩

/-! SidebandAndShimAnswer, clause by clause. -/

theorem witness_SidebandAndShimAnswer_1 :
    ∃ (s : State) (d : Datagram), s.serving ∧ s.chip.fdpAccept d.bytes = none :=
  ⟨st full, {}, by decide +kernel⟩

theorem witness_SidebandAndShimAnswer_2 :
    ∃ (s : State) (d : Datagram) (key : _) (keyId : _) (seq : _) (rs : _), s.serving ∧
    s.chip.fdpAccept d.bytes = some (key, keyId, seq, rs) ∧ s.chip.mgtUp = false :=
  ⟨st { fdpChip with fw := { clusters := [(0, 1)] } }, { bytes := fdpBody ++ fdpTag fdpKey fdpBody }, fdpKey, 0, 1,
    [{ op := 1, param := 1, offset := 0, length := 4 }], by decide, fdp_accepted, by decide⟩

theorem witness_SidebandAndShimAnswer_3 :
    ∃ (s : State) (d : Datagram) (key : _) (keyId : _) (seq : _) (r : _), s.serving ∧
    s.chip.fdpAccept d.bytes = some (key, keyId, seq, [r]) ∧ s.chip.mgtUp = true ∧ r.op ≠ 2 :=
  ⟨st fdpChip, { bytes := fdpBody ++ fdpTag fdpKey fdpBody }, fdpKey, 0, 1,
    { op := 1, param := 1, offset := 0, length := 4 }, by decide, fdp_accepted, by decide, by decide⟩

theorem witness_SidebandAndShimAnswer_4 :
    ∃ (s : State) (d : Datagram) (key : _) (keyId : _) (seq : _) (r : _) (a : _), s.serving ∧
    s.chip.fdpAccept d.bytes = some (key, keyId, seq, [r]) ∧ s.chip.mgtUp = true ∧ r.op = 2 ∧ r.final = true ∧
    r.offset = 0 ∧ r.length = r.data.length ∧ s.chip.heldAt (.fdp keyId) = none ∧
    s.chip.passes (.fdp keyId) r.param.toNat r.data = some a ∧
    (a = .rwa ∨ (a = .rw ∨ a = .rwn) ∧ storesOnly r.param.toNat = true) :=
  ⟨st fdpChip, { bytes := fdpBodyW ++ fdpTag fdpKey fdpBodyW }, fdpKey, 0, 1, recW, .rwn, by decide, fdp_accepted_write,
    by decide, by decide, by decide, by decide, by decide, by decide, by decide +kernel, by decide⟩

theorem witness_SidebandAndShimAnswer_5 :
    ∃ (s : State) (d : Datagram) (key : _) (keyId : _) (seq : _) (rs : _), s.leaves (fun c => c.fdpRequest d) ∧
    s.chip.fdpAccept d.bytes = some (key, keyId, seq, rs) ∧ s.chip.mgtUp = true :=
  ⟨st fdpChip, { bytes := fdpBodyW ++ fdpTag fdpKey fdpBodyW }, fdpKey, 0, 1, [recW], fdp_write_calm, fdp_accepted_write,
    by decide⟩

theorem witness_SidebandAndShimAnswer_6 :
    ∃ (s : State) (l : List MctpPacket), let bad := (l.filter fun p => !p.pecOk).length; s.chip.calm = true ∧
    (s.chip.up = true ∨ s.chip.boot.phase = .recovery) ∧ bad ≠ 0 :=
  ⟨st full, [{ pecOk := false }], by decide +kernel⟩

theorem witness_SidebandAndShimAnswer_7 :
    ∃ (s : State) (l : List MctpPacket) (m : _) (cmd : _) (r : _) (fits : _),
    let bad := (l.filter fun p => !p.pecOk).length; s.chip.calm = true ∧
    (s.chip.up = true ∨ s.chip.boot.phase = .recovery) ∧ bad = 0 ∧ mctpMessage true l = some m ∧
    mctpParse m = some (cmd, r, fits) ∧ (s.chip.mgtUp = false ∨ cmd ≠ 1 ∨ fits = false) :=
  ⟨st { jig with fw := { clusters := [(0, 1)] } }, mctpMsg 2 readRec, mctpText 2 readRec, 2,
    { op := 1, param := 0x1000, length := 4, data := [] }, true, by decide +kernel⟩

theorem witness_SidebandAndShimAnswer_8 :
    ∃ (s : State) (l : List MctpPacket) (m : _) (r : _), let bad := (l.filter fun p => !p.pecOk).length;
    s.chip.calm = true ∧ (s.chip.up = true ∨ s.chip.boot.phase = .recovery) ∧ bad = 0 ∧ mctpMessage true l = some m ∧
    mctpParse m = some (1, r, true) ∧ s.chip.mgtUp = true ∧ r.op ≠ 2 :=
  ⟨st full, mctpMsg 1 readRec, mctpText 1 readRec, { op := 1, param := 0x1000, length := 4, data := [] },
    by decide +kernel⟩

theorem witness_SidebandAndShimAnswer_9 :
    ∃ (s : State) (l : List MctpPacket) (m : _) (r : _) (a : _), let bad := (l.filter fun p => !p.pecOk).length;
    s.chip.calm = true ∧ (s.chip.up = true ∨ s.chip.boot.phase = .recovery) ∧ bad = 0 ∧ mctpMessage true l = some m ∧
    mctpParse m = some (1, r, true) ∧ s.chip.mgtUp = true ∧ r.op = 2 ∧ r.final = true ∧ r.offset = 0 ∧
    s.chip.heldAt .mctp = none ∧ s.chip.passes .mctp r.param.toNat r.data = some a ∧
    (a = .rwa ∨ (a = .rw ∨ a = .rwn) ∧ storesOnly r.param.toNat = true) :=
  ⟨st full, mctpMsg 1 writeRec, mctpText 1 writeRec, recW, .rwn, by decide +kernel⟩

theorem witness_SidebandAndShimAnswer_10 :
    ∃ (s : State) (l : List MctpPacket) (m : _) (r : _), let bad := (l.filter fun p => !p.pecOk).length;
    s.chip.calm = true ∧ (s.chip.up = true ∨ s.chip.boot.phase = .recovery) ∧ bad = 0 ∧ mctpMessage true l = some m ∧
    mctpParse m = some (1, r, true) ∧ s.chip.mgtUp = true ∧ (s.chip.mctpRequest l).calm = true :=
  ⟨st full, mctpMsg 1 writeRec, mctpText 1 writeRec, recW, by decide +kernel⟩

theorem witness_SidebandAndShimAnswer_11 :
    ∃ (s : State) (p : Writer) (x : HeldValue), s.serving ∧ s.chip.heldAt p = some x ∧ timedPath x.path = true ∧
    x.last + 1000000 * s.chip.param 0x01 0x020 0 ≤ s.chip.now :=
  ⟨st { full with dict := { held := [{ path := .mctp, param := 3 }] }, tb := { now := 20000000000 } }, .mctp,
    { path := .mctp, param := 3 }, by decide +kernel⟩

theorem witness_SidebandAndShimAnswer_12 :
    ∃ (s : State), s.chip.calm = true ∧ s.chip.boot.phase ≠ .held ∧ s.chip.boot.phase ≠ .tripped :=
  ⟨st { boot := { phase := .recovery } }, by decide +kernel⟩

theorem witness_SidebandAndShimAnswer_13 :
    ∃ (s : State) (p : Packet), let ep := p.src.toNat; s.serving ∧ s.chip.listed ep = false :=
  ⟨st full, { src := 9 }, by decide +kernel⟩

theorem witness_SidebandAndShimAnswer_14 :
    ∃ (s : State) (p : Packet), let ep := p.src.toNat; s.serving ∧ s.chip.listed ep = true ∧ s.chip.mgtUp = false :=
  ⟨st { shimChip with fw := { clusters := [(0, 1)] } }, { src := 5, w0 := 0x0100000000001000 }, by decide +kernel⟩

theorem witness_SidebandAndShimAnswer_15 :
    ∃ (s : State) (p : Packet) (r : ShimReply), let ep := p.src.toNat; s.serving ∧ s.chip.listed ep = true ∧
    s.chip.mgtUp = true ∧ s.chip.shimCached p = some r ∧ r.reply.length = 4 :=
  ⟨st { full with dict := { active := [(pnum 0x01 0x040 0, 0x80000005)], shimCache := [{ ep := 5, reply := [1, 2, 3, 4] }] } },
    { src := 5, w0 := 0x0100000000001000 }, { ep := 5, reply := [1, 2, 3, 4] }, by decide +kernel⟩

theorem witness_SidebandAndShimAnswer_16 :
    ∃ (s : State) (p : Packet) (a : _), let ep := p.src.toNat; let w : Writer := .shim ep; let n := p.shimParam.toNat;
    let l := p.shimData.take p.shimLen; s.serving ∧ s.chip.listed ep = true ∧ s.chip.mgtUp = true ∧
    s.chip.shimCached p = none ∧ s.chip.heldAt w = none ∧ p.shimOp = 2 ∧ p.shimFinal = true ∧ p.shimChunk = 0 ∧
    p.shimLen ≤ 16 ∧ s.chip.passes w n l = some a ∧ (a = .rwa ∨ (a = .rw ∨ a = .rwn) ∧ storesOnly n = true) :=
  ⟨st shimChip, { src := 5, w0 := 0x0200000701020000, w1 := 0x8000000000000004, w2 := 0x000000C800000000 }, .rwn,
    by decide +kernel⟩

theorem witness_SidebandAndShimAnswer_17 :
    ∃ (s : State) (p : Packet), let ep := p.src.toNat; s.leaves (fun c => c.shimRequest p) ∧ s.chip.listed ep = true ∧
    s.chip.mgtUp = true ∧ s.chip.shimCached p = none :=
  ⟨st shimChip, { src := 5, w0 := 0x0100000700001000 }, by decide +kernel⟩

/-! SetsAreCommittedWholeOrDiscarded, clause by clause. -/

theorem witness_SetsAreCommittedWholeOrDiscarded_1 :
    ∃ (s : State) (w : Writer) (k : Nat), s.chip.up = true ∧ s.chip.mayWrite w (pnum 0x01 0x001 k) = true ∧ k < 4096 ∧
    s.chip.calm = true ∧ (s.chip.applySet k).phase = .idle :=
  ⟨st full, .mailbox 0, 0x22, by decide +kernel⟩

theorem witness_SetsAreCommittedWholeOrDiscarded_2 :
    ∃ (s : State) (w : Writer) (k : Nat) (t : Word), s.chip.up = true ∧ s.chip.mayWrite w (pnum 0x01 0x001 k) = true ∧
    k < 4096 ∧ (s.chip.applySet k).phase = .staging ∧ ((s.chip.applySet k).holder = some w ∨ w.isF = true) ∧
    t.toNat ≤ s.chip.tb.time.toNat + tenSeconds ∧ ((k = 0x38 → Tab.get s.chip.dict.staged (pnum 0x38 0x040 0) 0 ≠ 0)) ∧
    s.chip.calm = true ∧ (s.chip.withStaged k).setCheck s.chip k = none ∧ s.chip.tb.time.toNat < t.toNat :=
  ⟨st { full with dict := { sets := [(0x22, { phase := .staging, holder := some (.mailbox 0) })], staged := [(pnum 0x22 0x011 0, 5)] } },
    .mailbox 0, 0x22, 1, by decide +kernel⟩

theorem witness_SetsAreCommittedWholeOrDiscarded_3 :
    ∃ (s : State) (w : Writer) (k : Nat) (t : Word), s.chip.up = true ∧ s.chip.mayWrite w (pnum 0x01 0x001 k) = true ∧
    k < 4096 ∧ (s.chip.applySet k).phase = .staging ∧ ((s.chip.applySet k).holder = some w ∨ w.isF = true) ∧
    t.toNat ≤ s.chip.tb.time.toNat + tenSeconds ∧ ((k = 0x38 → Tab.get s.chip.dict.staged (pnum 0x38 0x040 0) 0 ≠ 0)) ∧
    (s.chip.withStaged k).setCheck s.chip k = none ∧ t.toNat ≤ s.chip.tb.time.toNat ∧
    (s.chip.numWrite w 0x01 0x001 k 8 t.toNat).calm = true :=
  ⟨st { full with dict := { sets := [(0x22, { phase := .staging, holder := some (.mailbox 0) })], staged := [(pnum 0x22 0x011 0, 5)] } },
    .mailbox 0, 0x22, 0, by decide +kernel⟩

theorem witness_SetsAreCommittedWholeOrDiscarded_4 :
    ∃ (s : State) (w : Writer) (k : Nat) (t : Word) (n : _), s.chip.up = true ∧
    s.chip.mayWrite w (pnum 0x01 0x001 k) = true ∧ k < 4096 ∧ (s.chip.applySet k).phase = .staging ∧
    ((s.chip.applySet k).holder = some w ∨ w.isF = true) ∧ t.toNat ≤ s.chip.tb.time.toNat + tenSeconds ∧
    ((k = 0x38 → Tab.get s.chip.dict.staged (pnum 0x38 0x040 0) 0 ≠ 0)) ∧ s.chip.calm = true ∧
    (s.chip.withStaged k).setCheck s.chip k = some n :=
  ⟨st { full with dict := { sets := [(0x21, { phase := .staging, holder := some (.mailbox 0) })], staged := [(pnum 0x21 0x031 0, 1)] } },
    .mailbox 0, 0x21, 0, pnum 0x21 0x031 0, by decide +kernel⟩

theorem witness_SetsAreCommittedWholeOrDiscarded_5 :
    ∃ (s : State) (k : Nat), s.leaves (fun c => c.setDue k) ∧ (s.chip.applySet k).phase = .scheduled ∧
    (s.chip.applySet k).commitAt.toNat ≤ s.chip.tb.time.toNat ∧
    ((∀ r ∈ s.chip.dict.sets, r.2.phase = .scheduled → r.2.commitAt = (s.chip.applySet k).commitAt → k ≤ r.1)) :=
  ⟨st { full with dict := { sets := [(0x22, { phase := .scheduled, commitAt := 3 })], staged := [(pnum 0x22 0x011 0, 5)] }, tb := { time := 3 } },
    0x22, by decide +kernel⟩

theorem witness_SetsAreCommittedWholeOrDiscarded_6 :
    ∃ (s : State) (k : Nat) (w : _), s.serving ∧ s.chip.mayWrite w (pnum 0x01 0x002 k) = true ∧ k < 4096 ∧
    (s.chip.applySet k).phase ≠ .idle ∧ ((s.chip.applySet k).holder = some w ∨ w.isF = true) :=
  ⟨st { full with dict := { sets := [(0x22, { phase := .staging, holder := some (.mailbox 0) })], staged := [(pnum 0x22 0x011 0, 5)] } },
    0x22, .mailbox 0, by decide +kernel⟩

theorem witness_SetsAreCommittedWholeOrDiscarded_7 :
    ∃ (s : State) (k : Nat) (w : _) (v : _), s.serving ∧ s.chip.mayWrite w (pnum 0x01 0x002 k) = true ∧ v ≠ 1 :=
  ⟨st { full with dict := { sets := [(0x22, { phase := .staging, holder := some (.mailbox 0) })], staged := [(pnum 0x22 0x011 0, 5)] } },
    0x22, .mailbox 0, 0, by decide +kernel⟩

theorem witness_SetsAreCommittedWholeOrDiscarded_8 :
    ∃ (s : State) (k : Nat), s.serving ∧ (s.chip.applySet k).phase = .staging ∧
    (s.chip.applySet k).lastStaged + 1000000 * s.chip.param 0x01 0x020 0 ≤ s.chip.now :=
  ⟨st { full with dict := { sets := [(0x22, { phase := .staging, holder := some (.mailbox 0) })] }, tb := { now := 10000000000 } },
    0x22, by decide +kernel⟩

/-! SavesAndCalibrationAreKept, clause by clause. -/

theorem witness_SavesAndCalibrationAreKept_1 :
    ∃ (s : State) (w : Writer), s.serving ∧ s.chip.mayWrite w (pnum 0x01 0x010 0) = true ∧ s.chip.flash.op = none ∧
    ((s.chip.flash.newestBank.map fun r => r.2.generation).getD 0) < 0xFFFFFFFE :=
  ⟨st full, .mailbox 0, by decide +kernel⟩

theorem witness_SavesAndCalibrationAreKept_2 :
    ∃ (s : State) (w : Writer), s.serving ∧ s.chip.mayWrite w (pnum 0x01 0x010 0) = true ∧ s.chip.flash.op ≠ none :=
  ⟨st { full with flash := { op := some .erase } }, .mailbox 0, by decide +kernel⟩

theorem witness_SavesAndCalibrationAreKept_3 :
    ∃ (s : State) (w : Writer) (v : _), s.serving ∧ s.chip.mayWrite w (pnum 0x01 0x010 0) = true ∧ v ≠ 1 :=
  ⟨st full, .mailbox 0, 0, by decide +kernel⟩

theorem witness_SavesAndCalibrationAreKept_4 :
    ∃ (s : State) (b : Nat) (x : Bank), s.serving ∧ s.chip.flash.saveJob = some (b, x) :=
  ⟨st { full with flash := { op := some .save, saveJob := some (1, { generation := 2 }) } }, 1, { generation := 2 },
    by decide +kernel⟩

theorem witness_SavesAndCalibrationAreKept_5 :
    ∃ (s : State) (w : Writer), s.serving ∧ s.chip.mayWrite w (pnum 0x01 0x070 0) = true ∧ s.chip.flash.op = none :=
  ⟨st full, .mailbox 0, by decide +kernel⟩

theorem witness_SavesAndCalibrationAreKept_6 :
    ∃ (s : State) (w : Writer), s.serving ∧ s.chip.mayWrite w (pnum 0x01 0x070 0) = true ∧ s.chip.flash.op ≠ none :=
  ⟨st { full with flash := { op := some .erase } }, .mailbox 0, by decide +kernel⟩

theorem witness_SavesAndCalibrationAreKept_7 :
    ∃ (s : State) (w : Writer) (v : _), s.serving ∧ s.chip.mayWrite w (pnum 0x01 0x070 0) = true ∧ v ≠ 1 :=
  ⟨st full, .mailbox 0, 2, by decide +kernel⟩

theorem witness_SavesAndCalibrationAreKept_8 :
    ∃ (s : State) (t : _), s.serving ∧ s.chip.flash.calJob = some t :=
  ⟨st { full with flash := { op := some .calStore, calJob := some [(5, 6)] } }, [(5, 6)], by decide +kernel⟩

theorem witness_SavesAndCalibrationAreKept_9 :
    ∃ (s : State) (w : Writer) (image : _), s.serving ∧ s.chip.mayWrite w (pnum 0x02 0x001 0) = true ∧ 1 ≤ image.length ∧
    image.length ≤ 524288 ∧ Config.calImageSerial image = s.chip.serial :=
  ⟨st { full with serial := Config.calImageSerial [1] }, .mailbox 0, [1], by decide, by decide, by decide, by decide, rfl⟩

theorem witness_SavesAndCalibrationAreKept_10 :
    ∃ (s : State) (w : Writer) (image : _), s.serving ∧ s.chip.mayWrite w (pnum 0x02 0x001 0) = true ∧ 1 ≤ image.length ∧
    image.length ≤ 524288 ∧ Config.calImageSerial image ≠ s.chip.serial :=
  ⟨st { full with serial := ~~~ Config.calImageSerial [1] }, .mailbox 0, [1], by decide, by decide, by decide, by decide,
    word_ne_complement _⟩

/-! RestoresReplaceSavedValues, clause by clause. -/

theorem witness_RestoresReplaceSavedValues_1 :
    ∃ (s : State) (w : Writer), s.chip.up = true ∧ savedSets.all (fun k => (s.chip.applySet k).phase == .idle) = true ∧
    s.chip.mayWrite w (pnum 0x01 0x015 0) = true ∧ s.chip.restoreRefused none = false ∧ (s.chip.restore none).1.calm = true :=
  ⟨st plain920, .mailbox 0, by decide, by decide +kernel, by decide, restore_default.2, restore_default.1⟩

theorem witness_RestoresReplaceSavedValues_2 :
    ∃ (s : State) (w : Writer), s.chip.up = true ∧ savedSets.all (fun k => (s.chip.applySet k).phase == .idle) = true ∧
    s.chip.mayWrite w (pnum 0x01 0x015 0) = true ∧ s.chip.calm = true ∧ s.chip.restoreRefused none = true :=
  ⟨st { full with variant := .ik920, dict := { active := [(pnum 0x10 0x001 0, 5)] }, tr := { chans := [(4, { recvOpen := true })] } },
    .mailbox 0, by decide +kernel⟩

theorem witness_RestoresReplaceSavedValues_3 :
    ∃ (s : State) (w : Writer) (v : _), s.chip.up = true ∧
    savedSets.all (fun k => (s.chip.applySet k).phase == .idle) = true ∧ s.chip.mayWrite w (pnum 0x01 0x015 0) = true ∧
    s.chip.calm = true ∧ v ≠ 1 :=
  ⟨st full, .mailbox 0, 0, by decide +kernel⟩

theorem witness_RestoresReplaceSavedValues_4 :
    ∃ (s : State) (w : Writer), let bank := s.chip.flash.newestBank.map (·.2); s.chip.up = true ∧
    savedSets.all (fun k => (s.chip.applySet k).phase == .idle) = true ∧ s.chip.mayWrite w (pnum 0x01 0x016 0) = true ∧
    s.chip.restoreRefused bank = false ∧ (s.chip.restore bank).1.calm = true :=
  ⟨st plain920, .mailbox 0, by decide, by decide +kernel, by decide, restore_default.2, restore_default.1⟩

theorem witness_RestoresReplaceSavedValues_5 :
    ∃ (s : State) (w : Writer), let bank := s.chip.flash.newestBank.map (·.2); s.chip.up = true ∧
    savedSets.all (fun k => (s.chip.applySet k).phase == .idle) = true ∧ s.chip.mayWrite w (pnum 0x01 0x016 0) = true ∧
    s.chip.calm = true ∧ s.chip.restoreRefused bank = true :=
  ⟨st { full with variant := .ik920, flash := { banks := [(0, { valid := true, generation := 1, values := [(pnum 0x21 0x030 0, 1024), (pnum 0x21 0x031 0, 1000)] })] } },
    .mailbox 0, by decide +kernel⟩

theorem witness_RestoresReplaceSavedValues_6 :
    ∃ (s : State) (w : Writer) (v : _), s.chip.up = true ∧
    savedSets.all (fun k => (s.chip.applySet k).phase == .idle) = true ∧ s.chip.mayWrite w (pnum 0x01 0x016 0) = true ∧
    s.chip.calm = true ∧ v ≠ 1 :=
  ⟨st full, .mailbox 0, 0, by decide +kernel⟩

/-! RegistersVectorsAndCountersAct, clause by clause. -/

theorem witness_RegistersVectorsAndCountersAct_1 :
    ∃ (s : State) (fn : Nat), s.serving ∧ s.chip.fnExists fn = true :=
  ⟨st full, 0, by decide +kernel⟩

theorem witness_RegistersVectorsAndCountersAct_2 :
    ∃ (s : State) (fn : Nat), s.serving ∧ s.chip.fnExists fn = true ∧ fn % 256 = 0 :=
  ⟨st full, 0, by decide +kernel⟩

theorem witness_RegistersVectorsAndCountersAct_3 :
    ∃ (s : State) (fn : Nat) (t : _), s.serving ∧ s.chip.fnExists fn = true ∧ t < vectorCount fn ∧ t < 2048 :=
  ⟨st full, 0, 2047, by decide +kernel⟩

theorem witness_RegistersVectorsAndCountersAct_4 :
    ∃ (s : State) (fn : Nat) (v : Word), s.serving ∧ s.chip.fnExists fn = true ∧ v.field 2 0 ≤ 2 :=
  ⟨st full, 0, 2, by decide +kernel⟩

theorem witness_RegistersVectorsAndCountersAct_5 :
    ∃ (s : State) (fn : Nat) (v : Word), s.serving ∧ s.chip.fnExists fn = true ∧ v.field 2 0 ≤ 5 :=
  ⟨st full, 0, 5, by decide +kernel⟩

theorem witness_RegistersVectorsAndCountersAct_6 :
    ∃ (s : State) (fn : Nat) (off : _), s.serving ∧ s.chip.fnExists fn = true ∧ off < 0x1000 ∧ off % 8 = 0 :=
  ⟨st full, 0, 0xFF8, by decide +kernel⟩

theorem witness_RegistersVectorsAndCountersAct_7 :
    ∃ (s : State) (fn : Nat), s.chip.calm = true ∧ (s.chip.boot.phase = .booting ∨ s.chip.boot.phase = .loaded) ∧
    s.chip.hasHost (fn / 256) = true ∧ (s.chip.port (fn / 256)).perst = false :=
  ⟨st { jig with boot := { phase := .booting } }, 0, by decide +kernel⟩

theorem witness_RegistersVectorsAndCountersAct_8 :
    ∃ (s : State) (h : Nat) (v : Word), s.chip.up = true ∧ s.chip.fnExists (h * 256) = true ∧ v.getLsbD 63 = true ∧
    v.field 55 48 = 1 :=
  ⟨st full, 0, 0x8001000700000004, by decide +kernel⟩

theorem witness_RegistersVectorsAndCountersAct_9 :
    ∃ (s : State) (h : Nat) (v : Word), s.chip.up = true ∧ s.chip.fnExists (h * 256) = true ∧ v.getLsbD 63 = true ∧
    v.field 55 48 = 2 :=
  ⟨st full, 0, 0x8002000700000004, by decide +kernel⟩

theorem witness_RegistersVectorsAndCountersAct_10 :
    ∃ (s : State) (h : Nat) (v : Word), s.chip.up = true ∧ s.chip.fnExists (h * 256) = true ∧ v.getLsbD 63 = true ∧
    v.field 55 48 = 3 :=
  ⟨st full, 0, 0x8003000700000004, by decide +kernel⟩

theorem witness_RegistersVectorsAndCountersAct_11 :
    ∃ (s : State) (h : Nat) (v : Word), s.chip.up = true ∧ s.chip.fnExists (h * 256) = true ∧ v.getLsbD 63 = true ∧
    v.field 55 48 = 4 :=
  ⟨st full, 0, 0x8004000700000004, by decide +kernel⟩

theorem witness_RegistersVectorsAndCountersAct_12 :
    ∃ (s : State) (h : Nat) (off : _), s.chip.up = true ∧ s.chip.fnExists (h * 256) = true ∧ 0x2000 ≤ off ∧ off < 0x3000 ∧
    off % 0x400 = 0 :=
  ⟨st full, 0, 0x2C00, by decide +kernel⟩

theorem witness_RegistersVectorsAndCountersAct_13 :
    ∃ (s : State) (h : Nat) (v : Word) (off : _), s.chip.up = true ∧ s.chip.fnExists (h * 256) = true ∧ 0x2000 ≤ off ∧
    off < 0x3000 ∧ off % 0x400 = 0 ∧ v.field 3 0 = 1 :=
  ⟨st full, 0, 1, 0x2C00, by decide +kernel⟩

theorem witness_RegistersVectorsAndCountersAct_14 :
    ∃ (s : State) (h : Nat) (v : Word) (off : _), s.chip.up = true ∧ s.chip.fnExists (h * 256) = true ∧ 0x2000 ≤ off ∧
    off < 0x3000 ∧ off % 0x400 = 0 ∧ v.field 3 0 = 2 :=
  ⟨st full, 0, 2, 0x2C00, by decide +kernel⟩

theorem witness_RegistersVectorsAndCountersAct_15 :
    ∃ (s : State) (h : Nat) (v : Word) (off : _), s.chip.up = true ∧ s.chip.fnExists (h * 256) = true ∧ 0x2000 ≤ off ∧
    off < 0x3000 ∧ off % 0x400 = 0 ∧ v.field 3 0 = 4 :=
  ⟨st full, 0, 4, 0x2C00, by decide +kernel⟩

theorem witness_RegistersVectorsAndCountersAct_16 :
    ∃ (s : State) (h : Nat) (v : Word) (off : _), s.chip.up = true ∧ s.chip.fnExists (h * 256) = true ∧ 0x2000 ≤ off ∧
    off < 0x3000 ∧ off % 0x400 = 0 ∧ v.field 3 0 = 8 :=
  ⟨st full, 0, 8, 0x2C00, by decide +kernel⟩

theorem witness_RegistersVectorsAndCountersAct_17 :
    ∃ (s : State) (fn : Nat) (v : _), let f := s.chip.fn fn; s.chip.fnExists fn = true ∧ s.serving ∧ v < vectorCount fn ∧
    f.pba.Nodup ∧ v ∈ f.pba ∧ ((∀ x ∈ f.pba, x ≠ v → x ∉ f.unmasked)) ∧ f.msixEnable = true ∧ f.busMaster = true ∧
    f.functionMask = false ∧ (s.chip.port (fn / 256)).perst = false ∧ s.chip.unitStopped (0x3C + fn / 256) = false :=
  ⟨st { full with funcs := [(0, { state := .ready, pba := [2047], msixEnable := true, busMaster := true })] }, 0, 2047,
    by decide +kernel⟩

theorem witness_RegistersVectorsAndCountersAct_18 :
    ∃ (s : State) (fn : Nat) (v : _), let f := s.chip.fn fn; s.chip.fnExists fn = true ∧ s.serving ∧ v < vectorCount fn ∧
    (f.msixEnable = false ∨ f.busMaster = false ∨ f.functionMask = true) :=
  ⟨st full, 0, 2047, by decide +kernel⟩

theorem witness_RegistersVectorsAndCountersAct_19 :
    ∃ (s : State) (fn : Nat) (k : _), s.chip.fnExists fn = true ∧ s.serving ∧ k < 7 ∧ s.chip.param 0x20 0x012 fn = 1 :=
  ⟨st { full with dict := { active := [(pnum 0x20 0x012 0, 1)] } }, 0, 6, by decide +kernel⟩

theorem witness_RegistersVectorsAndCountersAct_20 :
    ∃ (s : State) (fn : Nat) (off : _) (wide : _), s.chip.fnExists fn = true ∧
    s.leaves (fun c => c.barRead fn (.bar0 off wide)) ∧ 0x4000 ≤ off ∧ off < 0x8000 ∧ off % 8 = 0 ∧
    s.chip.param 0x20 0x012 fn ≠ 1 :=
  ⟨st { full with dict := { active := [(pnum 0x20 0x012 0, 0)] } }, 0, 0x7FF8, true, by decide +kernel⟩

theorem witness_RegistersVectorsAndCountersAct_21 :
    ∃ (s : State) (fn : Nat) (off : _), s.chip.fnExists fn = true ∧ s.serving ∧ (off < 0x4000 ∨ 0x8000 ≤ off) ∧
    (isPf fn = false ∨ ffDataAt off = none) ∧ off % 8 = 0 :=
  ⟨st full, 0, 0x8000, by decide +kernel⟩

theorem witness_RegistersVectorsAndCountersAct_22 :
    ∃ (s : State) (fn : Nat) (off : _), s.chip.fnExists fn = true ∧ s.serving ∧ (off < 0x4000 ∨ 0x8000 ≤ off) ∧
    (isPf fn = false ∨ ffDataAt off = none) ∧ off % 4 = 0 :=
  ⟨st full, 0, 0x3FFC, by decide +kernel⟩

theorem witness_RegistersVectorsAndCountersAct_23 :
    ∃ (s : State) (fn : Nat) (off : _), s.chip.fnExists fn = true ∧ s.serving ∧ off % 4 ≠ 0 :=
  ⟨st full, 0, 0x1002, by decide +kernel⟩

theorem witness_RegistersVectorsAndCountersAct_24 :
    ∃ (s : State) (fn : Nat) (h : _) (off : _), s.chip.fnExists fn = true ∧ s.chip.up = true ∧ fn = h * 256 ∧ 0x2000 ≤ off ∧
    off < 0x3000 ∧ off % 0x400 = 0 :=
  ⟨st full, 0, 0, 0x2C00, by decide +kernel⟩

theorem witness_RegistersVectorsAndCountersAct_25 :
    ∃ (s : State) (fn : Nat), s.chip.fnExists fn = true ∧ s.serving :=
  ⟨st full, 0, by decide +kernel⟩

theorem witness_RegistersVectorsAndCountersAct_26 :
    ∃ (s : State) (fn : Nat) (off : _), s.chip.fnExists fn = true ∧ s.serving ∧ s.chip.doorbellPages fn ≤ off / 4096 :=
  ⟨st full, 0, 0x100000, by decide +kernel⟩

/-! HostLinksAndVfsFollow, clause by clause. -/

theorem witness_HostLinksAndVfsFollow_1 :
    ∃ (s : State) (h : Nat) (width : _) (rate : _) (flit : _), let p := s.chip.port h; s.chip.hasHost h = true ∧
    s.leaves (fun c => c.hostTrained h width rate flit) ∧ p.perst = false ∧ s.chip.unitStopped (0x3C + h) = false ∧
    (p.link = .detect ∨ p.link = .up) ∧ (rate = 16 ∨ rate = 32 ∨ rate = 64) ∧ 8 ≤ min width p.maxWidth :=
  ⟨st { full with ports := [(3, { link := .detect })] }, 3, 8, 64, false, by decide +kernel⟩

theorem witness_HostLinksAndVfsFollow_2 :
    ∃ (s : State) (h : Nat) (width : _) (rate : _) (flit : _), let p := s.chip.port h; s.chip.hasHost h = true ∧
    s.leaves (fun c => c.hostTrained h width rate flit) ∧ p.perst = false ∧ s.chip.unitStopped (0x3C + h) = false ∧
    (p.link = .detect ∨ p.link = .up) ∧ (rate = 16 ∨ rate = 32 ∨ rate = 64) ∧ min width p.maxWidth < 8 :=
  ⟨st { full with ports := [(3, { link := .up })] }, 3, 7, 16, true, by decide +kernel⟩

theorem witness_HostLinksAndVfsFollow_3 :
    ∃ (s : State) (h : Nat), let p := s.chip.port h; s.chip.hasHost h = true ∧ s.leaves (fun c => c.perstAssert h) ∧
    p.perst = false :=
  ⟨st { full with ports := [(3, { link := .up })], funcs := [(768, { state := .ready })] }, 3, by decide +kernel⟩

theorem witness_HostLinksAndVfsFollow_4 :
    ∃ (s : State) (h : Nat), let p := s.chip.port h; s.chip.hasHost h = true ∧ s.chip.calm = true ∧ s.chip.up = false ∧
    p.perst = false :=
  ⟨st { jig with ports := [(3, { link := .up })], boot := { phase := .booting } }, 3, by decide +kernel⟩

theorem witness_HostLinksAndVfsFollow_5 :
    ∃ (s : State) (h : Nat), let p := s.chip.port h; s.chip.hasHost h = true ∧ s.leaves (fun c => c.perstDeassert h) ∧
    p.perst = true ∧ s.chip.unitStopped (0x3C + h) = false :=
  ⟨st { full with ports := [(3, { perst := true })] }, 3, by decide +kernel⟩

theorem witness_HostLinksAndVfsFollow_6 :
    ∃ (s : State) (h : Nat), let p := s.chip.port h; s.chip.hasHost h = true ∧ s.chip.calm = true ∧ s.chip.up = false ∧
    p.perst = true :=
  ⟨st { jig with ports := [(3, { perst := true })], boot := { phase := .booting } }, 3, by decide +kernel⟩

theorem witness_HostLinksAndVfsFollow_7 :
    ∃ (s : State) (h : Nat), s.chip.hasHost h = true ∧ s.leaves (fun c => c.vfClear h) ∧ (s.chip.port h).vfEnable = true :=
  ⟨st { full with ports := [(3, { vfEnable := true, numVfs := 1 })], funcs := [(769, { state := .ready })] }, 3,
    by decide +kernel⟩

theorem witness_HostLinksAndVfsFollow_8 :
    ∃ (s : State) (h : Nat), s.chip.hasHost h = true ∧ s.serving ∧ (s.chip.port h).vfEnable = false ∧
    (s.chip.port h).perst = false :=
  ⟨st { full with ports := [(0, { totalVfs := 2 })] }, 0, by decide +kernel⟩

/-! FunctionsDrainQuiesceAndReturn, clause by clause. -/

theorem witness_FunctionsDrainQuiesceAndReturn_1 :
    ∃ (s : State) (fn : Nat), let active := s.chip.fnState fn = .ready ∨ s.chip.fnState fn = .notReady;
    s.leaves (fun c => c.levelReset fn) ∧ s.chip.fnExists fn = true ∧ active :=
  ⟨st { full with funcs := [(1, { state := .ready })], ports := [(0, { vfEnable := true, numVfs := 1 })] }, 1,
    by decide +kernel⟩

theorem witness_FunctionsDrainQuiesceAndReturn_2 :
    ∃ (s : State) (fn : Nat) (w : Writer), let active := s.chip.fnState fn = .ready ∨ s.chip.fnState fn = .notReady;
    s.chip.mayWrite w (pnum 0x20 0x010 fn) = true ∧ fn < 1024 ∧ active ∧ (s.chip.numWrite w 0x20 0x010 fn 1 0).calm = true :=
  ⟨st { full with funcs := [(1, { state := .ready })], ports := [(0, { vfEnable := true, numVfs := 1 })] }, 1, .mailbox 0,
    by decide +kernel⟩

theorem witness_FunctionsDrainQuiesceAndReturn_3 :
    ∃ (s : State) (fn : Nat), s.serving ∧ s.chip.fnState fn = .draining ∧ s.chip.fnIdle fn = true ∧
    (s.chip.fn fn).disabledAt + 1000000 ≤ s.chip.now ∧ (((s.chip.fn fn).vfGone = true → fn % 256 ≠ 0)) :=
  ⟨st { full with funcs := [(1, { state := .draining, disabledAt := 5 })], tb := { now := 1000005 } }, 1,
    by decide +kernel⟩

theorem witness_FunctionsDrainQuiesceAndReturn_4 :
    ∃ (s : State) (fn : Nat) (w : Writer), s.serving ∧ s.chip.mayWrite w (pnum 0x20 0x010 fn) = true ∧ fn < 1024 ∧
    (s.chip.fn fn).state = .quiesced :=
  ⟨st { full with funcs := [(1, { state := .quiesced })] }, 1, .mailbox 0, by decide +kernel⟩

theorem witness_FunctionsDrainQuiesceAndReturn_5 :
    ∃ (s : State) (fn : Nat), s.serving ∧ s.chip.fnState fn = .notReady ∧ s.chip.full = true ∧ s.chip.areasGiven = true :=
  ⟨st full, 0, by decide +kernel⟩

/-! FifoWritesAreFramed, clause by clause. -/

theorem witness_FifoWritesAreFramed_1 :
    ∃ (s : State) (h : Nat), let f := s.chip.fifo h; let g := f.mark 2048; s.serving ∧ s.chip.fifoAt h .transmit = some h ∧
    f.dropping = false ∧ g.words.length + g.pushed.length + 2 ≤ 2048 ∧ g.pushed.length < 64 :=
  ⟨st (fifoChip 0 { pushed := List.replicate 63 1 }), 0, by decide +kernel⟩

theorem witness_FifoWritesAreFramed_2 :
    ∃ (s : State) (h : Nat), let f := s.chip.fifo h; let g := f.mark 2048; s.serving ∧ s.chip.fifoAt h .transmit = some h ∧
    f.dropping = false ∧ (2048 < g.words.length + g.pushed.length + 2 ∨ 64 ≤ g.pushed.length) :=
  ⟨st (fifoChip 0 { words := List.replicate 2047 0 }), 0, by decide +kernel⟩

theorem witness_FifoWritesAreFramed_3 :
    ∃ (s : State) (h : Nat), let f := s.chip.fifo h; s.serving ∧ s.chip.fifoAt h .transmit = some h ∧ f.dropping = true :=
  ⟨st (fifoChip 0 { dropping := true }), 0, by decide +kernel⟩

theorem witness_FifoWritesAreFramed_4 :
    ∃ (s : State) (h : Nat), s.serving ∧ s.chip.fifoAt h .transmit = some h :=
  ⟨st (fifoChip 0 {}), 0, by decide +kernel⟩

theorem witness_FifoWritesAreFramed_5 :
    ∃ (s : State) (h : Nat) (b : _), s.serving ∧ (s.chip.fifoAt h b = none ∨ hostProduces b = false) :=
  ⟨st full, 0, .transmit, by decide +kernel⟩

theorem witness_FifoWritesAreFramed_6 :
    ∃ (s : State) (h : Nat), let f := s.chip.fifo h; s.serving ∧ s.chip.fifoAt h .transmit = some h ∧ f.dropping = false ∧
    f.pushed ≠ [] :=
  ⟨st (fifoChip 0 { pushed := [1, 2] }), 0, by decide +kernel⟩

theorem witness_FifoWritesAreFramed_7 :
    ∃ (s : State) (h : Nat), let f := s.chip.fifo h; s.serving ∧ s.chip.fifoAt h .transmit = some h ∧ f.dropping = false ∧
    f.pushed = [] :=
  ⟨st (fifoChip 0 { heldLower := some 7 }), 0, by decide +kernel⟩

theorem witness_FifoWritesAreFramed_8 :
    ∃ (s : State) (h : Nat), let f := s.chip.fifo h; s.serving ∧ s.chip.fifoAt h .transmit = some h ∧ f.dropping = true :=
  ⟨st (fifoChip 0 { dropping := true, dropped := 0xFFFFFFFE }), 0, by decide +kernel⟩

theorem witness_FifoWritesAreFramed_9 :
    ∃ (s : State) (h : Nat), s.serving ∧ s.chip.fifoAt h .transmit = some h :=
  ⟨st (fifoChip 0 { dropping := true }), 0, by decide +kernel⟩

theorem witness_FifoWritesAreFramed_10 :
    ∃ (s : State) (h : Nat) (b : _) (i : _), s.serving ∧ s.chip.fifoAt h b = some i ∧ hostProduces b = false :=
  ⟨st (fifoChip 9 {}), 0, .trace, 9, by decide +kernel⟩

theorem witness_FifoWritesAreFramed_11 :
    ∃ (s : State) (i : _), s.serving ∧ (s.chip.fifo i).dropped ≠ 0 ∧ (s.chip.fifo i).quiet = true ∧
    (s.chip.fifo i).words.length < fifoCap i + 1 :=
  ⟨st (fifoChip 9 { dropped := 3, words := List.replicate 8192 0 }), 9, by decide +kernel⟩

theorem witness_FifoWritesAreFramed_12 :
    ∃ (s : State) (i : _), s.serving ∧ (s.chip.fifo i).dropped = 0 :=
  ⟨st (fifoChip 9 { words := [1] }), 9, by decide +kernel⟩

/-! FifoReadsMoveAndPacketsPass, clause by clause. -/

theorem witness_FifoReadsMoveAndPacketsPass_1 :
    ∃ (s : State) (h : Nat) (b : FifoBlock) (i : _) (w : _), let f := s.chip.fifo i; s.serving ∧
    s.chip.fifoAt h b = some i ∧ hostProduces b = false ∧ f.words[f.readOff]? = some w :=
  ⟨st (fifoChip 9 { words := [1, 2], readOff := 1 }), 0, .trace, 9, 2, by decide +kernel⟩

theorem witness_FifoReadsMoveAndPacketsPass_2 :
    ∃ (s : State) (h : Nat) (b : FifoBlock) (i : _), let f := s.chip.fifo i; s.serving ∧ s.chip.fifoAt h b = some i ∧
    hostProduces b = false ∧ f.count true = 0 :=
  ⟨st (fifoChip 9 { words := [1, 2], readOff := 2 }), 0, .trace, 9, by decide +kernel⟩

theorem witness_FifoReadsMoveAndPacketsPass_3 :
    ∃ (s : State) (h : Nat) (b : FifoBlock) (i : _), s.serving ∧ s.chip.fifoAt h b = some i ∧ hostProduces b = false :=
  ⟨st (fifoChip 9 { words := [1, 2], readOff := 2, markOff := 1 }), 0, .trace, 9, by decide +kernel⟩

theorem witness_FifoReadsMoveAndPacketsPass_4 :
    ∃ (s : State) (h : Nat) (b : FifoBlock) (i : _) (p : BitVec 32), let f := s.chip.fifo i; s.serving ∧
    s.chip.fifoAt h b = some i ∧ hostProduces b = false ∧ (p - f.release).toNat ≤ f.readOff :=
  ⟨st (fifoChip 9 { words := [1, 2], readOff := 2, release := 0xFFFFFFFF }), 0, .trace, 9, 1, by decide +kernel⟩

theorem witness_FifoReadsMoveAndPacketsPass_5 :
    ∃ (s : State) (h : Nat) (b : FifoBlock) (i : _) (p : BitVec 32), let f := s.chip.fifo i; s.serving ∧
    s.chip.fifoAt h b = some i ∧ hostProduces b = false ∧ f.readOff < (p - f.release).toNat :=
  ⟨st (fifoChip 9 { words := [1, 2], readOff := 2, release := 0xFFFFFFFF }), 0, .trace, 9, 2, by decide +kernel⟩

theorem witness_FifoReadsMoveAndPacketsPass_6 :
    ∃ (s : State) (h : Nat) (b : FifoBlock), s.serving ∧ (s.chip.fifoAt h b = none ∨ hostProduces b = true) :=
  ⟨st full, 0, .trace, by decide +kernel⟩

theorem witness_FifoReadsMoveAndPacketsPass_7 :
    ∃ (s : State) (h : Nat) (b : FifoBlock) (i : _), s.serving ∧ s.chip.fifoAt h b = some i ∧ hostProduces b = true :=
  ⟨st (fifoChip 0 {}), 0, .transmit, 0, by decide +kernel⟩

theorem witness_FifoReadsMoveAndPacketsPass_8 :
    ∃ (s : State) (h : Nat) (b : FifoBlock) (i : _), s.serving ∧ s.chip.fifoAt h b = some i ∧ hostProduces b = true :=
  ⟨st (fifoChip 0 {}), 0, .transmit, 0, by decide +kernel⟩

theorem witness_FifoReadsMoveAndPacketsPass_9 :
    ∃ (s : State) (h : Nat) (w : Word) (r : List Word), let f := s.chip.fifo h; let l := r.take (w.field 47 32); s.serving ∧
    s.chip.hasHost h = true ∧ f.words = w :: r ∧ w.field 63 56 ≠ 0xD7 ∧ s.chip.mgmtMalformed l = true :=
  ⟨st (fifoChip 0 { words := [0xF100000100000000, 7] }), 0, 0xF100000100000000, [7], by decide +kernel⟩

theorem witness_FifoReadsMoveAndPacketsPass_10 :
    ∃ (s : State) (h : Nat) (w : Word) (r : List Word), let f := s.chip.fifo h; let l := r.take (w.field 47 32); s.serving ∧
    s.chip.hasHost h = true ∧ f.words = w :: r ∧ w.field 63 56 ≠ 0xD7 ∧ s.chip.mgmtMalformed l = false :=
  ⟨st (fifoChip 0 { words := [0xF100000600000000, 0x0000010800000000, 0, 0, 0, 0, 0] }), 0, 0xF100000600000000,
    [0x0000010800000000, 0, 0, 0, 0, 0], by decide +kernel⟩

theorem witness_FifoReadsMoveAndPacketsPass_11 :
    ∃ (s : State) (h : Nat) (w : Word) (r : List Word), let f := s.chip.fifo h; s.serving ∧ s.chip.hasHost h = true ∧
    f.words = w :: r ∧ w.field 63 56 = 0xD7 :=
  ⟨st (fifoChip 0 { words := [0xD700000000000003, 9] }), 0, 0xD700000000000003, [9], by decide +kernel⟩

theorem witness_FifoReadsMoveAndPacketsPass_12 :
    ∃ (s : State) (h : Nat) (p : Packet), s.serving ∧ s.chip.hasHost h = true ∧ 0x41 ≤ p.kind.toNat ∧ p.kind.toNat ≤ 0x44 ∧
    p.dst.toNat = s.chip.endpoint h ∧ s.chip.hostEnabled h = true ∧ s.chip.fmRight h = true :=
  ⟨st { fifoChip 4 { words := List.replicate 2041 0 } with funcs := [(0, { state := .ready })], dict := { active := [(pnum 0x20 0x004 0, 1), (pnum 0x20 0x010 0, 1)] } },
    0, { kind := 0x44 }, by decide +kernel⟩

theorem witness_FifoReadsMoveAndPacketsPass_13 :
    ∃ (s : State) (h : Nat) (p : Packet), s.serving ∧ s.chip.hasHost h = true ∧ 0x41 ≤ p.kind.toNat ∧ p.kind.toNat ≤ 0x44 ∧
    p.dst.toNat = s.chip.endpoint h ∧ s.chip.fmRight h = false :=
  ⟨st full, 0, { kind := 0x44 }, by decide +kernel⟩

/-! ControlQueuePairsStartAndStop, clause by clause. -/

theorem witness_ControlQueuePairsStartAndStop_1 :
    ∃ (s : State) (w : Writer) (fn : Nat) (v : BitVec 32) (idx : CtlIndices),
    let sizes := 4 ≤ bits v.toNat 0 5 ∧ bits v.toNat 0 5 ≤ 10 ∧ 4 ≤ bits v.toNat 5 5 ∧ bits v.toNat 5 5 ≤ 10;
    s.chip.mayWrite w (pnum 0x21 0x004 fn) = true ∧ fn < 1024 ∧ s.serving ∧ s.chip.ctlEnabled fn = false ∧ sizes ∧
    (idx.sqPi - idx.sqCi).toNat ≤ 2 ^ bits v.toNat 0 5 ∧ (idx.cqPi - idx.cqCi).toNat ≤ 2 ^ bits v.toNat 5 5 :=
  ⟨st full, .mailbox 0, 0, 0x80000144, { sqPi := 16, cqPi := 0, cqCi := 0xFFFFFC00 }, by decide +kernel⟩

theorem witness_ControlQueuePairsStartAndStop_2 :
    ∃ (s : State) (w : Writer) (fn : Nat) (v : BitVec 32) (idx : CtlIndices),
    let sizes := 4 ≤ bits v.toNat 0 5 ∧ bits v.toNat 0 5 ≤ 10 ∧ 4 ≤ bits v.toNat 5 5 ∧ bits v.toNat 5 5 ≤ 10;
    s.chip.mayWrite w (pnum 0x21 0x004 fn) = true ∧ fn < 1024 ∧
    s.leaves (fun c => c.numWrite w 0x21 0x004 fn 4 (v.toNat % 2 ^ 31 + 2 ^ 31) (some idx)) ∧ s.chip.ctlEnabled fn = false ∧
    sizes ∧ 2 ^ bits v.toNat 0 5 < (idx.sqPi - idx.sqCi).toNat :=
  ⟨st full, .mailbox 0, 0, 0x80000144, { sqPi := 17 }, by decide +kernel⟩

theorem witness_ControlQueuePairsStartAndStop_3 :
    ∃ (s : State) (w : Writer) (fn : Nat) (v : BitVec 32) (idx : CtlIndices),
    let sizes := 4 ≤ bits v.toNat 0 5 ∧ bits v.toNat 0 5 ≤ 10 ∧ 4 ≤ bits v.toNat 5 5 ∧ bits v.toNat 5 5 ≤ 10;
    s.chip.mayWrite w (pnum 0x21 0x004 fn) = true ∧ fn < 1024 ∧
    s.leaves (fun c => c.numWrite w 0x21 0x004 fn 4 (v.toNat % 2 ^ 31 + 2 ^ 31) (some idx)) ∧ s.chip.ctlEnabled fn = false ∧
    sizes ∧ (idx.sqPi - idx.sqCi).toNat ≤ 2 ^ bits v.toNat 0 5 ∧ 2 ^ bits v.toNat 5 5 < (idx.cqPi - idx.cqCi).toNat :=
  ⟨st full, .mailbox 0, 0, 0x80000144, { sqPi := 16, cqPi := 1025 }, by decide +kernel⟩

theorem witness_ControlQueuePairsStartAndStop_4 :
    ∃ (s : State) (w : Writer) (fn : Nat) (v : BitVec 32),
    let sizes := 4 ≤ bits v.toNat 0 5 ∧ bits v.toNat 0 5 ≤ 10 ∧ 4 ≤ bits v.toNat 5 5 ∧ bits v.toNat 5 5 ≤ 10;
    s.chip.mayWrite w (pnum 0x21 0x004 fn) = true ∧ fn < 1024 ∧ s.serving ∧
    (if s.chip.ctlEnabled fn = true then s.chip.ctlSetup fn ≠ keepBits 0x21 0x004 (v.toNat % 2 ^ 31 + 2 ^ 31) else ¬sizes) :=
  ⟨st { full with dict := { active := [(pnum 0x21 0x004 0, 0x80000144)] } }, .mailbox 0, 0, 0x80000145, by decide +kernel⟩

theorem witness_ControlQueuePairsStartAndStop_5 :
    ∃ (s : State) (w : Writer) (fn : Nat), s.chip.mayWrite w (pnum 0x21 0x004 fn) = true ∧ fn < 1024 ∧ s.serving :=
  ⟨st { full with dict := { active := [(pnum 0x21 0x004 0, 0x80000144)] }, funcs := [(0, { state := .ready, ctlSqPi := 3, ctlArmed := true })] },
    .mailbox 0, 0, by decide +kernel⟩

/-! DoorbellsAct, clause by clause. -/

theorem witness_DoorbellsAct_1 :
    ∃ (s : State) (fn : Nat) (off : Nat) (word : Word) (whole : _), s.chip.fnExists fn = true ∧
    off / 4096 < s.chip.doorbellPages fn ∧ s.serving ∧
    (whole = false ∨ off % 8 ≠ 0 ∨ dbOp word = 3 ∨ s.chip.fnReady fn = false) :=
  ⟨st node, 0, 0xFF8, 0, false, by decide +kernel⟩

theorem witness_DoorbellsAct_2 :
    ∃ (s : State) (fn : Nat) (off : Nat) (word : Word) (q : Queue), let qn := dbQn word;
    let proper := off % 8 = 0 ∧ s.chip.fnReady fn = true; s.chip.fnExists fn = true ∧ off / 4096 < s.chip.doorbellPages fn ∧
    s.serving ∧ proper ∧ dbOp word = 0 ∧ s.chip.named fn qn false = .queue q ∧ q.isWork = true :=
  ⟨st node, 0, 0x1000, 0x2000050000000007, { kind := .sq, cqn := 5, pi := 2 }, by decide +kernel⟩

theorem witness_DoorbellsAct_3 :
    ∃ (s : State) (fn : Nat) (off : Nat) (word : Word) (q : Queue), let qn := dbQn word;
    let proper := off % 8 = 0 ∧ s.chip.fnReady fn = true; s.chip.fnExists fn = true ∧ off / 4096 < s.chip.doorbellPages fn ∧
    s.serving ∧ proper ∧ dbOp word = 0 ∧ s.chip.named fn qn false = .queue q ∧ q.isWork = false :=
  ⟨st node, 0, 0x1000, 0x2000050000000005, { kind := .cq, vecValid := true }, by decide +kernel⟩

theorem witness_DoorbellsAct_4 :
    ∃ (s : State) (fn : Nat) (off : Nat) (word : Word), let qn := dbQn word;
    let proper := off % 8 = 0 ∧ s.chip.fnReady fn = true; s.chip.fnExists fn = true ∧ off / 4096 < s.chip.doorbellPages fn ∧
    s.serving ∧ proper ∧ dbOp word = 0 ∧ s.chip.named fn qn false = .nothing :=
  ⟨st node, 0, 0x1000, 6, by decide +kernel⟩

theorem witness_DoorbellsAct_5 :
    ∃ (s : State) (fn : Nat) (off : Nat) (word : Word), let qn := dbQn word;
    let proper := off % 8 = 0 ∧ s.chip.fnReady fn = true; s.chip.fnExists fn = true ∧ off / 4096 < s.chip.doorbellPages fn ∧
    s.serving ∧ proper ∧ dbOp word = 0 ∧ s.chip.named fn qn false = .control :=
  ⟨st ctlChip, 0, 0x1000, 0, by decide +kernel⟩

theorem witness_DoorbellsAct_6 :
    ∃ (s : State) (fn : Nat) (off : Nat) (word : Word), let proper := off % 8 = 0 ∧ s.chip.fnReady fn = true;
    s.chip.fnExists fn = true ∧ off / 4096 < s.chip.doorbellPages fn ∧ s.serving ∧ proper ∧ dbOp word = 1 ∧
    (dbCount word = 0 ∨ 16 < dbCount word) :=
  ⟨st node, 0, 0, 0x5100050000000007, by decide +kernel⟩

theorem witness_DoorbellsAct_7 :
    ∃ (s : State) (fn : Nat) (off : Nat) (word : Word) (q : Queue), let qn := dbQn word;
    let proper := off % 8 = 0 ∧ s.chip.fnReady fn = true; s.chip.fnExists fn = true ∧ off / 4096 < s.chip.doorbellPages fn ∧
    s.serving ∧ proper ∧ dbOp word = 1 ∧ 1 ≤ dbCount word ∧ dbCount word ≤ 16 ∧ s.chip.named fn qn false = .queue q ∧
    q.isWork = true :=
  ⟨st { node with queues := [(7, { kind := .sq, cached := [(15, {}), (16, {})] })] }, 0, 0, 0x5000000000000007,
    { kind := .sq, cached := [(15, {}), (16, {})] }, by decide +kernel⟩

theorem witness_DoorbellsAct_8 :
    ∃ (s : State) (fn : Nat) (off : Nat) (word : Word) (q : Queue), let qn := dbQn word;
    let proper := off % 8 = 0 ∧ s.chip.fnReady fn = true; s.chip.fnExists fn = true ∧ off / 4096 < s.chip.doorbellPages fn ∧
    s.serving ∧ proper ∧ dbOp word = 1 ∧ 1 ≤ dbCount word ∧ dbCount word ≤ 16 ∧ s.chip.named fn qn false = .queue q ∧
    q.isWork = false :=
  ⟨st node, 0, 0, 0x4100050000000009, { kind := .eq }, by decide +kernel⟩

theorem witness_DoorbellsAct_9 :
    ∃ (s : State) (fn : Nat) (off : Nat) (word : Word), let qn := dbQn word;
    let proper := off % 8 = 0 ∧ s.chip.fnReady fn = true; s.chip.fnExists fn = true ∧ off / 4096 < s.chip.doorbellPages fn ∧
    s.serving ∧ proper ∧ dbOp word = 1 ∧ 1 ≤ dbCount word ∧ dbCount word ≤ 16 ∧ s.chip.named fn qn false = .nothing :=
  ⟨st node, 0, 0, 0x4100050000000006, by decide +kernel⟩

theorem witness_DoorbellsAct_10 :
    ∃ (s : State) (fn : Nat) (off : Nat) (word : Word), let qn := dbQn word;
    let proper := off % 8 = 0 ∧ s.chip.fnReady fn = true; s.chip.fnExists fn = true ∧ off / 4096 < s.chip.doorbellPages fn ∧
    s.serving ∧ proper ∧ dbOp word = 1 ∧ 1 ≤ dbCount word ∧ dbCount word ≤ 16 ∧ s.chip.named fn qn false = .control :=
  ⟨st ctlChip, 0, 0, 0x4100050000000000, by decide +kernel⟩

theorem witness_DoorbellsAct_11 :
    ∃ (s : State) (fn : Nat) (off : Nat) (word : Word), let qn := dbQn word;
    let proper := off % 8 = 0 ∧ s.chip.fnReady fn = true; s.chip.fnExists fn = true ∧ off / 4096 < s.chip.doorbellPages fn ∧
    proper ∧ dbOp word = 2 ∧ s.serving ∧ s.chip.named fn qn true = .nothing :=
  ⟨st node, 0, 0, 0x8000000000000006, by decide +kernel⟩

theorem witness_DoorbellsAct_12 :
    ∃ (s : State) (fn : Nat) (off : Nat) (word : Word) (q : Queue), let qn := dbQn word;
    let proper := off % 8 = 0 ∧ s.chip.fnReady fn = true; s.chip.fnExists fn = true ∧ off / 4096 < s.chip.doorbellPages fn ∧
    proper ∧ dbOp word = 2 ∧ s.serving ∧ s.chip.named fn qn true = .queue q ∧ (q.isWork = true ∨ q.vecValid = false) :=
  ⟨st node, 0, 0, 0x8000000000000009, { kind := .eq }, by decide +kernel⟩

theorem witness_DoorbellsAct_13 :
    ∃ (s : State) (fn : Nat) (off : Nat) (word : Word) (q : Queue) (ci : _), let qn := dbQn word;
    let proper := off % 8 = 0 ∧ s.chip.fnReady fn = true; s.chip.fnExists fn = true ∧ off / 4096 < s.chip.doorbellPages fn ∧
    proper ∧ dbOp word = 2 ∧ s.serving ∧ s.chip.named fn qn true = .queue q ∧ q.isWork = false ∧ q.vecValid = true ∧
    (q.pi - ci).toNat ≤ 2 ^ q.logSize ∧ q.pi = ci :=
  ⟨st node, 0, 0, 0xA000000000000005, { kind := .cq, vecValid := true }, 0, by decide +kernel⟩

theorem witness_DoorbellsAct_14 :
    ∃ (s : State) (fn : Nat) (off : Nat) (word : Word) (q : Queue) (ci : _), let qn := dbQn word;
    let proper := off % 8 = 0 ∧ s.chip.fnReady fn = true; s.chip.fnExists fn = true ∧ off / 4096 < s.chip.doorbellPages fn ∧
    proper ∧ dbOp word = 2 ∧ s.serving ∧ s.chip.named fn qn true = .queue q ∧ q.isWork = false ∧ q.vecValid = true ∧
    (q.pi - ci).toNat ≤ 2 ^ q.logSize ∧ q.pi ≠ ci :=
  ⟨st { node with queues := [(5, { kind := .cq, vecValid := true, pi := 16 })] }, 0, 0, 0xA000000000000005,
    { kind := .cq, vecValid := true, pi := 16 }, 0, by decide +kernel⟩

theorem witness_DoorbellsAct_15 :
    ∃ (s : State) (fn : Nat) (off : Nat) (word : Word) (q : Queue) (idx : _), let qn := dbQn word;
    let proper := off % 8 = 0 ∧ s.chip.fnReady fn = true; s.chip.fnExists fn = true ∧ off / 4096 < s.chip.doorbellPages fn ∧
    proper ∧ dbOp word = 2 ∧ s.leaves (fun c => c.armQueue fn word idx) ∧ s.chip.named fn qn true = .queue q ∧
    q.isWork = false ∧ q.vecValid = true ∧ idxSpoils idx q.logSize q.pi = true :=
  ⟨st node, 0, 0, 0x8000000000000005, { kind := .cq, vecValid := true }, (.ok 0 1 : IndexRead), by decide +kernel⟩

theorem witness_DoorbellsAct_16 :
    ∃ (s : State) (fn : Nat) (off : Nat) (word : Word), let qn := dbQn word;
    let proper := off % 8 = 0 ∧ s.chip.fnReady fn = true; s.chip.fnExists fn = true ∧ off / 4096 < s.chip.doorbellPages fn ∧
    proper ∧ dbOp word = 2 ∧ s.serving ∧ s.chip.named fn qn true = .control ∧ s.chip.ctlVec? fn = none :=
  ⟨st ctlChip, 0, 0, 0x8000000000000000, by decide +kernel⟩

theorem witness_DoorbellsAct_17 :
    ∃ (s : State) (fn : Nat) (off : Nat) (word : Word) (v : _) (ci : _), let qn := dbQn word;
    let proper := off % 8 = 0 ∧ s.chip.fnReady fn = true; s.chip.fnExists fn = true ∧ off / 4096 < s.chip.doorbellPages fn ∧
    proper ∧ dbOp word = 2 ∧ s.serving ∧ s.chip.named fn qn true = .control ∧ s.chip.ctlVec? fn = some v ∧
    ((s.chip.fn fn).ctlCqPi - ci).toNat ≤ 2 ^ s.chip.ctlCqLog fn ∧ (s.chip.fn fn).ctlCqPi = ci :=
  ⟨st { ctlChip with funcs := [(0, { state := .ready, ctlSqPi := 1, ctlCqPi := 3 })], dict := { active := [(pnum 0x21 0x004 0, 0xC0050144)] } },
    0, 0, 0xA000000000000000, 5, 3, by decide +kernel⟩

theorem witness_DoorbellsAct_18 :
    ∃ (s : State) (fn : Nat) (off : Nat) (word : Word) (v : _) (ci : _), let qn := dbQn word;
    let proper := off % 8 = 0 ∧ s.chip.fnReady fn = true; s.chip.fnExists fn = true ∧ off / 4096 < s.chip.doorbellPages fn ∧
    proper ∧ dbOp word = 2 ∧ s.serving ∧ s.chip.named fn qn true = .control ∧ s.chip.ctlVec? fn = some v ∧
    ((s.chip.fn fn).ctlCqPi - ci).toNat ≤ 2 ^ s.chip.ctlCqLog fn ∧ (s.chip.fn fn).ctlCqPi ≠ ci :=
  ⟨st { ctlChip with funcs := [(0, { state := .ready, ctlSqPi := 1, ctlCqPi := 3 })], dict := { active := [(pnum 0x21 0x004 0, 0xC0050144)] } },
    0, 0, 0x8000000000000000, 5, 0, by decide +kernel⟩

theorem witness_DoorbellsAct_19 :
    ∃ (s : State) (fn : Nat) (off : Nat) (word : Word) (v : _) (idx : _), let qn := dbQn word;
    let proper := off % 8 = 0 ∧ s.chip.fnReady fn = true; s.chip.fnExists fn = true ∧ off / 4096 < s.chip.doorbellPages fn ∧
    proper ∧ dbOp word = 2 ∧ s.leaves (fun c => c.armQueue fn word idx) ∧ s.chip.named fn qn true = .control ∧
    s.chip.ctlVec? fn = some v ∧ idxSpoils idx (s.chip.ctlCqLog fn) (s.chip.fn fn).ctlCqPi = true :=
  ⟨st { ctlChip with funcs := [(0, { state := .ready, ctlSqPi := 1, ctlCqPi := 3 })], dict := { active := [(pnum 0x21 0x004 0, 0xC0050144)] } },
    0, 0, 0x8000000000000000, 5, (.failed : IndexRead), by decide +kernel⟩

/-! IndicesAreReadAndBacklogsDrain, clause by clause. -/

theorem witness_IndicesAreReadAndBacklogsDrain_1 :
    ∃ (s : State) (fn : Nat) (qn : Nat), s.serving ∧ s.chip.flushing fn qn = false ∧ s.chip.named fn qn false = .nothing :=
  ⟨st node, 0, 6, by decide +kernel⟩

theorem witness_IndicesAreReadAndBacklogsDrain_2 :
    ∃ (s : State) (fn : Nat) (qn : Nat) (q : Queue) (pi : _), s.chip.flushing fn qn = false ∧
    s.chip.named fn qn false = .queue q ∧ s.serving ∧ q.isWork = true ∧ (pi - q.ci).toNat ≤ 2 ^ q.logSize :=
  ⟨st node, 0, 7, { kind := .sq, cqn := 5, pi := 2 }, 16, by decide +kernel⟩

theorem witness_IndicesAreReadAndBacklogsDrain_3 :
    ∃ (s : State) (fn : Nat) (qn : Nat) (q : Queue) (ci : _), s.chip.flushing fn qn = false ∧
    s.chip.named fn qn false = .queue q ∧ s.serving ∧ q.isWork = false ∧ (q.pi - ci).toNat ≤ 2 ^ q.logSize :=
  ⟨st node, 0, 9, { kind := .eq }, (BitVec.ofNat 32 (2 ^ 32 - 16)), by decide +kernel⟩

theorem witness_IndicesAreReadAndBacklogsDrain_4 :
    ∃ (s : State) (fn : Nat) (qn : Nat) (q : Queue) (pi : _) (ci : _) (fetched : _), s.chip.flushing fn qn = false ∧
    s.chip.named fn qn false = .queue q ∧ s.leaves (fun c => c.indexRead fn qn (.ok pi ci) fetched) ∧
    (if q.isWork then 2 ^ q.logSize < (pi - q.ci).toNat else 2 ^ q.logSize < (q.pi - ci).toNat) :=
  ⟨st node, 0, 7, { kind := .sq, cqn := 5, pi := 2 }, 17, 0, [], by decide +kernel⟩

theorem witness_IndicesAreReadAndBacklogsDrain_5 :
    ∃ (s : State) (fn : Nat) (qn : Nat) (q : Queue) (fetched : _), s.chip.flushing fn qn = false ∧
    s.chip.named fn qn false = .queue q ∧ s.leaves (fun c => c.indexRead fn qn .failed fetched) :=
  ⟨st node, 0, 9, { kind := .eq }, [], by decide +kernel⟩

theorem witness_IndicesAreReadAndBacklogsDrain_6 :
    ∃ (s : State) (fn : Nat) (qn : Nat) (q : Queue) (what : _), s.chip.flushing fn qn = false ∧
    s.chip.named fn qn false = .queue q ∧ s.leaves (fun c => c.queueReadFails fn qn what) ∧
    (q.isWork = true ∨ what ≠ .ringEntry) :=
  ⟨st node, 0, 7, { kind := .sq, cqn := 5, pi := 2 }, .contextArea, by decide +kernel⟩

theorem witness_IndicesAreReadAndBacklogsDrain_7 :
    ∃ (s : State) (fn : Nat) (qn : Nat) (q : Queue) (what : _), s.chip.flushing fn qn = false ∧
    s.chip.named fn qn false = .queue q ∧ s.leaves (fun c => c.queueReadFails fn qn what) ∧ q.isWork = false ∧
    what = .ringEntry :=
  ⟨st node, 0, 9, { kind := .eq }, .ringEntry, by decide +kernel⟩

theorem witness_IndicesAreReadAndBacklogsDrain_8 :
    ∃ (s : State) (fn : Nat) (qn : Nat) (pi : _), s.chip.named fn qn false = .control ∧ s.serving ∧
    (pi - (s.chip.fn fn).ctlSqCi).toNat ≤ 2 ^ s.chip.ctlSqLog fn :=
  ⟨st ctlChip, 0, 0, 16, by decide +kernel⟩

theorem witness_IndicesAreReadAndBacklogsDrain_9 :
    ∃ (s : State) (fn : Nat) (qn : Nat) (pi : _) (ci : _) (fetched : _), s.chip.named fn qn false = .control ∧
    s.leaves (fun c => c.indexRead fn qn (.ok pi ci) fetched) ∧ 2 ^ s.chip.ctlSqLog fn < (pi - (s.chip.fn fn).ctlSqCi).toNat :=
  ⟨st ctlChip, 0, 0, 17, 0, [], by decide +kernel⟩

theorem witness_IndicesAreReadAndBacklogsDrain_10 :
    ∃ (s : State) (fn : Nat) (qn : Nat) (fetched : _), s.chip.named fn qn false = .control ∧
    s.leaves (fun c => c.indexRead fn qn .failed fetched) :=
  ⟨st ctlChip, 0, 0, [], by decide +kernel⟩

theorem witness_IndicesAreReadAndBacklogsDrain_11 :
    ∃ (s : State) (fn : Nat) (qn : Nat) (what : _), s.chip.named fn qn false = .control ∧
    s.leaves (fun c => c.queueReadFails fn qn what) :=
  ⟨st ctlChip, 0, 0, .ringEntry, by decide +kernel⟩

theorem witness_IndicesAreReadAndBacklogsDrain_12 :
    ∃ (s : State) (fn : Nat) (qn : Nat) (q : Queue) (idx : _) (fetched : _), let h := fn / 256;
    s.chip.queue? h qn = some q ∧ q.fn = fn ∧ q.flushing = true ∧ s.leaves (fun c => c.indexRead fn qn idx fetched) ∧
    q.unconsumed ≤ fetched.length :=
  ⟨st { node with queues := [(8, { kind := .rq, cqn := 5, pi := 2, state := .error, flushing := true })] }, 0, 8,
    { kind := .rq, cqn := 5, pi := 2, state := .error, flushing := true }, (.failed : IndexRead), [{}, {}],
    by decide +kernel⟩

theorem witness_IndicesAreReadAndBacklogsDrain_13 :
    ∃ (s : State) (fn : Nat) (qn : Nat) (q : Queue) (what : _), let h := fn / 256; s.chip.queue? h qn = some q ∧ q.fn = fn ∧
    q.flushing = true ∧ s.leaves (fun c => c.queueReadFails fn qn what) ∧ what = .ringEntry :=
  ⟨st { node with queues := [(8, { kind := .rq, cqn := 5, pi := 2, state := .error, flushing := true })] }, 0, 8,
    { kind := .rq, cqn := 5, pi := 2, state := .error, flushing := true }, .ringEntry, by decide +kernel⟩

theorem witness_IndicesAreReadAndBacklogsDrain_14 :
    ∃ (s : State) (fn : Nat) (qn : Nat) (q : Queue) (what : _), let h := fn / 256; s.chip.queue? h qn = some q ∧ q.fn = fn ∧
    q.flushing = true ∧ s.leaves (fun c => c.queueReadFails fn qn what) ∧ what ≠ .ringEntry :=
  ⟨st { node with queues := [(8, { kind := .rq, cqn := 5, pi := 2, state := .error, flushing := true })] }, 0, 8,
    { kind := .rq, cqn := 5, pi := 2, state := .error, flushing := true }, .indexBlock, by decide +kernel⟩

theorem witness_IndicesAreReadAndBacklogsDrain_15 :
    ∃ (s : State) (fn : Nat), s.serving ∧ s.chip.silentFn fn = true :=
  ⟨st { node with funcs := [(0, { state := .draining })] }, 0, by decide +kernel⟩

theorem witness_IndicesAreReadAndBacklogsDrain_16 :
    ∃ (s : State) (fn : Nat) (cqn : Nat) (ci : BitVec 32) (q : Queue), let h := fn / 256; s.chip.silentFn fn = false ∧
    cqn ≠ 0 ∧ s.chip.queue? h cqn = some q ∧ q.fn = fn ∧ q.kind = .cq ∧ q.state = .active ∧ q.backlogged = true ∧
    s.serving ∧ (q.pi - ci).toNat ≤ 2 ^ q.logSize :=
  ⟨st { node with queues := [(5, { kind := .cq, backlogged := true, pi := 16, backlog := [{ wrid := 3 }, { wrid := 4 }] })] },
    0, 5, 1, { kind := .cq, backlogged := true, pi := 16, backlog := [{ wrid := 3 }, { wrid := 4 }] }, by decide +kernel⟩

theorem witness_IndicesAreReadAndBacklogsDrain_17 :
    ∃ (s : State) (fn : Nat) (cqn : Nat) (ci : BitVec 32) (q : Queue), let h := fn / 256; s.chip.silentFn fn = false ∧
    cqn ≠ 0 ∧ s.chip.queue? h cqn = some q ∧ q.fn = fn ∧ q.kind = .cq ∧ q.state = .active ∧ q.backlogged = true ∧
    s.leaves (fun c => c.backlogDrain fn cqn ci false) ∧ 2 ^ q.logSize < (q.pi - ci).toNat :=
  ⟨st { node with queues := [(5, { kind := .cq, backlogged := true, pi := 16, backlog := [{ wrid := 3 }, { wrid := 4 }] })] },
    0, 5, 17, { kind := .cq, backlogged := true, pi := 16, backlog := [{ wrid := 3 }, { wrid := 4 }] }, by decide +kernel⟩

theorem witness_IndicesAreReadAndBacklogsDrain_18 :
    ∃ (s : State) (fn : Nat) (cqn : Nat) (ci : BitVec 32) (q : Queue), let h := fn / 256; s.chip.silentFn fn = false ∧
    cqn ≠ 0 ∧ s.chip.queue? h cqn = some q ∧ q.fn = fn ∧ q.kind = .cq ∧ q.state = .active ∧ q.backlogged = true ∧
    s.leaves (fun c => c.backlogDrain fn cqn ci true) :=
  ⟨st { node with variant := .ik920, queues := [(5, { kind := .cq, backlogged := true, pi := 16, backlog := [{ wrid := 3 }, { wrid := 4 }] })] },
    0, 5, 1, { kind := .cq, backlogged := true, pi := 16, backlog := [{ wrid := 3 }, { wrid := 4 }] }, by decide +kernel⟩

theorem witness_IndicesAreReadAndBacklogsDrain_19 :
    ∃ (s : State) (fn : Nat) (cqn : Nat) (ci : BitVec 32), let f := s.chip.fn fn; s.chip.silentFn fn = false ∧ cqn = 0 ∧
    f.ctlBacklogged = true ∧ f.ctlCqCause = 0 ∧ s.serving ∧ (f.ctlCqPi - ci).toNat ≤ 2 ^ s.chip.ctlCqLog fn :=
  ⟨st { ctlChip with funcs := [(0, { state := .ready, ctlCqPi := 1024, ctlBacklogged := true, ctlBacklog := [{ wrid := 3 }, { wrid := 4 }] })] },
    0, 0, 1, by decide +kernel⟩

theorem witness_IndicesAreReadAndBacklogsDrain_20 :
    ∃ (s : State) (fn : Nat) (cqn : Nat) (ci : BitVec 32), let f := s.chip.fn fn; s.chip.silentFn fn = false ∧ cqn = 0 ∧
    f.ctlBacklogged = true ∧ f.ctlCqCause = 0 ∧ s.leaves (fun c => c.backlogDrain fn cqn ci false) ∧
    2 ^ s.chip.ctlCqLog fn < (f.ctlCqPi - ci).toNat :=
  ⟨st { ctlChip with funcs := [(0, { state := .ready, ctlCqPi := 1024, ctlBacklogged := true, ctlBacklog := [{ wrid := 3 }, { wrid := 4 }] })] },
    0, 0, 1025, by decide +kernel⟩

theorem witness_IndicesAreReadAndBacklogsDrain_21 :
    ∃ (s : State) (fn : Nat) (cqn : Nat) (ci : BitVec 32), let f := s.chip.fn fn; s.chip.silentFn fn = false ∧ cqn = 0 ∧
    f.ctlBacklogged = true ∧ f.ctlCqCause = 0 ∧ s.leaves (fun c => c.backlogDrain fn cqn ci true) :=
  ⟨st { ctlChip with funcs := [(0, { state := .ready, ctlCqPi := 1024, ctlBacklogged := true, ctlBacklog := [{ wrid := 3 }, { wrid := 4 }] })] },
    0, 0, 1, by decide +kernel⟩


end Sys2Proof.Tests
end

