-- ==== Sys2Proof/Tests/WitnessLinks.lean ====
section
/-! SUPPORT. Witnesses: for each statement and each of its clauses, states and operands that meet the hypotheses. -/

namespace Sys2Proof.Tests

set_option Elab.async false

open Sys2Proof Sys2Proof.Machine

/-! PacketsAreRoutedAndSent, clause by clause. -/

theorem witness_PacketsAreRoutedAndSent_1 :
    ∃ (s : State) (inp : _), s.serving ∧ s.chip.firstArrival? inp = none :=
  ⟨st full, 5, by decide +kernel⟩

theorem witness_PacketsAreRoutedAndSent_2 :
    ∃ (s : State) (inp : _) (a : _), s.leaves (fun c => c.packetRoute inp true) ∧ s.chip.firstArrival? inp = some a ∧
    a.pkt.headerFails = true :=
  ⟨st { full with rt := { arrivals := [({ inp := 5, pkt := { passing with len := 3 } } : Arrival)] } }, 5,
    ({ inp := 5, pkt := { passing with len := 3 } } : Arrival), by decide +kernel⟩

theorem witness_PacketsAreRoutedAndSent_3 :
    ∃ (s : State) (inp : _) (a : _) (out : _) (p : _), let routed := (s.chip.route inp a.pkt).2;
    s.leaves (fun c => c.packetRoute inp true) ∧ s.chip.firstArrival? inp = some a ∧ a.pkt.headerFails = false ∧
    routed = .to out p :=
  ⟨st { full with rt := { arrivals := [({ inp := 5, pkt := passing } : Arrival)] } }, 5,
    ({ inp := 5, pkt := passing } : Arrival), 61, passing, by decide +kernel⟩

theorem witness_PacketsAreRoutedAndSent_4 :
    ∃ (s : State) (inp : _) (a : _), s.leaves (fun c => c.packetRoute inp true) ∧ s.chip.firstArrival? inp = some a ∧
    a.pkt.headerFails = false ∧ s.chip.full = true ∧ a.pkt.dstChip = s.chip.id ∧
    ((a.pkt.level ≠ 0 ∨ a.pkt.igrp.toNat = s.chip.id / 32)) ∧ a.pkt.tc.toNat ≠ 1 ∧ s.chip.tooOld a.pkt = false ∧
    a.pkt.isBroadcast = false ∧ a.pkt.isTree = false :=
  ⟨st { full with rt := { arrivals := [({ inp := 5, pkt := passing } : Arrival)] } }, 5,
    ({ inp := 5, pkt := passing } : Arrival), by decide +kernel⟩

theorem witness_PacketsAreRoutedAndSent_5a :
    ∃ (s : State) (inp : _) (a : _) (k : _) (cause : _), let routed := (s.chip.route inp a.pkt).2;
    s.leaves (fun c => c.packetRoute inp true) ∧ s.chip.firstArrival? inp = some a ∧ a.pkt.headerFails = false ∧
    routed = .drop k cause ∧ (k ≠ .noRoute ∨ (s.chip.ownUnrouted? a).isNone = true) :=
  ⟨st { full with rt := { arrivals := [({ inp := 5, pkt := { passing with dst := 400 } } : Arrival)] } }, 5,
    ({ inp := 5, pkt := { passing with dst := 400 } } : Arrival), .noRoute, 0x103, by decide +kernel⟩

theorem witness_PacketsAreRoutedAndSent_5b :
    ∃ (s : State) (inp : _) (a : _) (k : _) (cause : _), let routed := (s.chip.route inp a.pkt).2;
    s.leaves (fun c => c.packetRoute inp true) ∧ s.chip.firstArrival? inp = some a ∧ a.pkt.headerFails = false ∧
    routed = .drop k cause ∧ (k ≠ .noRoute ∨ (s.chip.ownUnrouted? a).isNone = true) :=
  ⟨st { { full with tb := { time := 8000000000000 } } with rt := { arrivals := [({ inp := 5, pkt := passing } : Arrival)] } },
    5, ({ inp := 5, pkt := passing } : Arrival), .ageLimit, 0x105, by decide +kernel⟩

theorem witness_PacketsAreRoutedAndSent_6 :
    ∃ (s : State) (inp : _) (a : _) (cause : Nat) (k : Nat) (x : Chan) (o : OutPkt) (b : SendOp) (q : Queue) (cq : Queue),
    let routed := (s.chip.route inp a.pkt).2; s.leaves (fun c => c.packetRoute inp true) ∧
    s.chip.firstArrival? inp = some a ∧ a.pkt.headerFails = false ∧ routed = .drop .noRoute cause ∧ 60 ≤ inp ∧
    k = chKey (inp - 60) a.pkt.dst.toNat ((a.pkt.tc.toNat - 2) / 2) ∧ s.chip.chan? k = some x ∧
    x.outstanding.find? (fun o => o.psn == a.pkt.psn && o.pkt.kind == a.pkt.kind && o.pkt.tc == a.pkt.tc) = some o ∧
    s.chip.opAnswers k x b q cq = true ∧ b.msgid = o.msgid ∧ o.fn.isSome = true ∧ x.sendState = .active :=
  ⟨st { node with tr := { chans := [(chKey 0 400 0, ({ sendState := .active, nextPsn := 101, outstanding := [{ psn := 100, msgid := 4, pkt := { req 1 0 0x0000640000000000 0 0 [] with dst := 400 }, fn := some 0 }], ops := [{ started := true, msgid := 4, opcode := 1, report := 1, qn := 7, pos := 0, signal := true, dest := 400 }] } : Chan))] }, rt := { arrivals := [({ inp := 60, pkt := { req 1 0 0x0000640000000000 0 0 [] with dst := 400, src := 0 } } : Arrival)] } },
    60, ({ inp := 60, pkt := { req 1 0 0x0000640000000000 0 0 [] with dst := 400, src := 0 } } : Arrival), 0x103,
    chKey 0 400 0,
    ({ sendState := .active, nextPsn := 101, outstanding := [{ psn := 100, msgid := 4, pkt := { req 1 0 0x0000640000000000 0 0 [] with dst := 400 }, fn := some 0 }], ops := [{ started := true, msgid := 4, opcode := 1, report := 1, qn := 7, pos := 0, signal := true, dest := 400 }] } : Chan),
    ({ psn := 100, msgid := 4, pkt := { req 1 0 0x0000640000000000 0 0 [] with dst := 400 }, fn := some 0 } : OutPkt),
    ({ started := true, msgid := 4, opcode := 1, report := 1, qn := 7, pos := 0, signal := true, dest := 400 } : SendOp),
    ({ kind := .sq, cqn := 5, pi := 2 } : Queue), ({ kind := .cq, vecValid := true } : Queue), by decide +kernel⟩

theorem witness_PacketsAreRoutedAndSent_7 :
    ∃ (s : State) (inp : _) (a : _), let routed := (s.chip.route inp a.pkt).2; s.leaves (fun c => c.packetRoute inp true) ∧
    s.chip.firstArrival? inp = some a ∧ a.pkt.headerFails = false ∧ routed = .tree :=
  ⟨st { full with rt := { arrivals := [({ inp := 5, pkt := { treep 0x10 0x60 0 [] with dst := 0 } } : Arrival)] } }, 5,
    ({ inp := 5, pkt := { treep 0x10 0x60 0 [] with dst := 0 } } : Arrival), by decide +kernel⟩

theorem witness_PacketsAreRoutedAndSent_8 :
    ∃ (s : State) (inp : _) (a : _), let routed := (s.chip.route inp a.pkt).2; s.leaves (fun c => c.packetRoute inp true) ∧
    s.chip.firstArrival? inp = some a ∧ a.pkt.headerFails = false ∧ routed = .broadcast :=
  ⟨st { full with rt := { arrivals := [({ inp := 5, pkt := (bcast 0x50 0x0100FFFF00000007 0) } : Arrival)] } }, 5,
    ({ inp := 5, pkt := (bcast 0x50 0x0100FFFF00000007 0) } : Arrival), by decide +kernel⟩

theorem witness_PacketsAreRoutedAndSent_9 :
    ∃ (s : State) (inp : _) (p : _) (out : _) (q : Packet),
    let ahead := if s.chip.rt.waiting.any (fun w => w.inp == inp && !w.whole) || (s.chip.firstArrival? inp).isSome then none else (s.chip.ahead? inp).filter fun p => !p.startFails;
    s.serving ∧ ahead = some p ∧ (s.chip.route inp p).2 = .to out q :=
  ⟨st { wire { state := .active, lanes := 3 } with links := [(5, { rx := { stream := ((linkHeader 0 72 true false).be ++ (passing.linkBody)).map fun b => (b, false) } })] },
    5, (Packet.ofBytes (((passing.linkBody) ++ zeros 72).take 60) false), 61,
    (Packet.ofBytes (((passing.linkBody) ++ zeros 72).take 60) false), by decide +kernel⟩

theorem witness_PacketsAreRoutedAndSent_10a :
    ∃ (s : State) (inp : _),
    let ahead := if s.chip.rt.waiting.any (fun w => w.inp == inp && !w.whole) || (s.chip.firstArrival? inp).isSome then none else (s.chip.ahead? inp).filter fun p => !p.startFails;
    s.serving ∧ ahead.all (fun p => match (s.chip.route inp p).2 with | .to _ _ => false | _ => true) = true :=
  ⟨st full, 5, by decide +kernel⟩

theorem witness_PacketsAreRoutedAndSent_10b :
    ∃ (s : State) (inp : _),
    let ahead := if s.chip.rt.waiting.any (fun w => w.inp == inp && !w.whole) || (s.chip.firstArrival? inp).isSome then none else (s.chip.ahead? inp).filter fun p => !p.startFails;
    s.serving ∧ ahead.all (fun p => match (s.chip.route inp p).2 with | .to _ _ => false | _ => true) = true :=
  ⟨st { { wire { state := .active, lanes := 3 } with links := [(5, { rx := { stream := ((linkHeader 0 72 true false).be ++ (passing.linkBody)).map fun b => (b, false) } })] } with rt := { arrivals := [({ inp := 5, pkt := passing } : Arrival)] } },
    5, by decide +kernel⟩

theorem witness_PacketsAreRoutedAndSent_11a :
    ∃ (s : State) (out : _), s.serving ∧ s.chip.outFree out = false :=
  ⟨st { { full with dict := { active := [(pnum 0x10 0x010 7, 1)] } } with train := [(7, { state := .active, lanes := 1 })], rt := { waiting := [({ inp := 5, vc := passing.vc.toNat, out := 7, pkt := passing, whole := false, started := true } : Waiting)] } },
    7, by decide +kernel⟩

theorem witness_PacketsAreRoutedAndSent_12a :
    ∃ (s : State) (out : _), let choice := ((s.chip.refreshOut out).select out).2; s.serving ∧ s.chip.outFree out = true ∧
    choice = none :=
  ⟨st full, 61, by decide +kernel⟩

theorem witness_PacketsAreRoutedAndSent_12b :
    ∃ (s : State) (out : _), let choice := ((s.chip.refreshOut out).select out).2; s.serving ∧ s.chip.outFree out = true ∧
    choice = none :=
  ⟨st { full with dict := { active := [(pnum 0x10 0x010 7, 1)] }, train := [(7, { state := .active, lanes := 1 })] }, 7,
    by decide +kernel⟩

theorem witness_PacketsAreRoutedAndSent_13a :
    ∃ (s : State) (out : _) (w : Waiting) (capped : _), let choice := ((s.chip.refreshOut out).select out).2;
    s.leavesPadding (fun c => c.outputStart out (c.rt.waiting.length + 1)) ∧ s.chip.outFree out = true ∧
    choice = some (w, capped) ∧ s.chip.rt.waiting.filter (fun x => x.out == out) = [w] ∧ s.chip.tooOld w.pkt = true :=
  ⟨st { { full with tb := { time := 8000000000000 } } with rt := { waiting := [({ inp := 5, vc := passing.vc.toNat, out := 61, pkt := passing } : Waiting)] } },
    61, ({ inp := 5, vc := passing.vc.toNat, out := 61, pkt := passing } : Waiting), false, by decide +kernel⟩

theorem witness_PacketsAreRoutedAndSent_14a :
    ∃ (s : State) (out : _) (w : Waiting) (capped : _), let choice := ((s.chip.refreshOut out).select out).2;
    s.leavesPadding (fun c => c.outputStart out (c.rt.waiting.length + 1)) ∧ s.chip.outFree out = true ∧
    choice = some (w, capped) ∧ s.chip.rt.waiting.filter (fun x => x.out == out) = [w] ∧ s.chip.tooOld w.pkt = false ∧
    s.chip.fenceStops w = true :=
  ⟨st { { full with dict := { active := [(pnum 0x10 0x010 7, 1), (pnum 0x10 0x011 7, 0x80000000)] }, train := [(7, { state := .active, lanes := 1 })] } with rt := { waiting := [({ inp := 5, vc := passing.vc.toNat, out := 7, pkt := passing } : Waiting)], fenced := [0] } },
    7, ({ inp := 5, vc := passing.vc.toNat, out := 7, pkt := passing } : Waiting), false, by decide +kernel⟩

theorem witness_PacketsAreRoutedAndSent_15a :
    ∃ (s : State) (out : _) (w : Waiting) (capped : _), let choice := ((s.chip.refreshOut out).select out).2;
    s.leavesPadding (fun c => c.outputStart out (c.rt.waiting.length + 1)) ∧ s.chip.outFree out = true ∧
    choice = some (w, capped) ∧ s.chip.tooOld w.pkt = false ∧ s.chip.fenceStops w = false ∧ w.whole = true :=
  ⟨st { full with rt := { waiting := [({ inp := 5, vc := passing.vc.toNat, out := 61, pkt := passing } : Waiting)] } },
    61, ({ inp := 5, vc := passing.vc.toNat, out := 61, pkt := passing } : Waiting), false, by decide +kernel⟩

theorem witness_PacketsAreRoutedAndSent_15b :
    ∃ (s : State) (out : _) (w : Waiting) (capped : _), let choice := ((s.chip.refreshOut out).select out).2;
    s.leavesPadding (fun c => c.outputStart out (c.rt.waiting.length + 1)) ∧ s.chip.outFree out = true ∧
    choice = some (w, capped) ∧ s.chip.tooOld w.pkt = false ∧ s.chip.fenceStops w = false ∧ w.whole = true :=
  ⟨st { { full with dict := { active := [(pnum 0x10 0x010 7, 1)] }, train := [(7, { state := .active, lanes := 1 })] } with rt := { waiting := [({ inp := 5, vc := passing.vc.toNat, out := 7, pkt := passing } : Waiting)] } },
    7, ({ inp := 5, vc := passing.vc.toNat, out := 7, pkt := passing } : Waiting), false, by decide +kernel⟩

theorem witness_PacketsAreRoutedAndSent_16 :
    ∃ (s : State) (out : _) (w : Waiting) (capped : _), let choice := ((s.chip.refreshOut out).select out).2;
    s.leavesPadding (fun c => c.outputStart out (c.rt.waiting.length + 1)) ∧ s.chip.outFree out = true ∧
    choice = some (w, capped) ∧ s.chip.tooOld w.pkt = false ∧ s.chip.fenceStops w = false ∧ w.whole = true ∧ 60 ≤ out :=
  ⟨st { full with rt := { waiting := [({ inp := 5, vc := passing.vc.toNat, out := 61, pkt := passing } : Waiting)] } },
    61, ({ inp := 5, vc := passing.vc.toNat, out := 61, pkt := passing } : Waiting), false, by decide +kernel⟩

theorem witness_PacketsAreRoutedAndSent_17a :
    ∃ (s : State) (out : _) (w : Waiting) (capped : _), let choice := ((s.chip.refreshOut out).select out).2;
    s.leavesPadding (fun c => c.outputStart out (c.rt.waiting.length + 1)) ∧ s.chip.outFree out = true ∧
    choice = some (w, capped) ∧ s.chip.tooOld w.pkt = false ∧ s.chip.fenceStops w = false ∧ w.whole = false :=
  ⟨st { { full with dict := { active := [(pnum 0x10 0x010 7, 1), (pnum 0x10 0x010 5, 1)] }, train := [(7, { state := .active, lanes := 1 }), (5, { state := .active, lanes := 1 })] } with rt := { waiting := [({ inp := 5, vc := passing.vc.toNat, out := 7, pkt := passing, whole := false } : Waiting)] } },
    7, ({ inp := 5, vc := passing.vc.toNat, out := 7, pkt := passing, whole := false } : Waiting), false, by decide +kernel⟩

theorem witness_PacketsAreRoutedAndSent_18a :
    ∃ (s : State) (out : _) (w : Waiting) (capped : _), let choice := ((s.chip.refreshOut out).select out).2;
    let tx := (s.chip.link out).tx; s.leavesPadding (fun c => c.outputStart out (c.rt.waiting.length + 1)) ∧
    s.chip.outFree out = true ∧ choice = some (w, capped) ∧ s.chip.tooOld w.pkt = false ∧ s.chip.fenceStops w = false ∧
    out < 60 ∧ tx.replay.all (fun x => !x.sending) = true :=
  ⟨st { { full with dict := { active := [(pnum 0x10 0x010 7, 1)] }, train := [(7, { state := .active, lanes := 1 })] } with rt := { waiting := [({ inp := 5, vc := passing.vc.toNat, out := 7, pkt := passing } : Waiting)] } },
    7, ({ inp := 5, vc := passing.vc.toNat, out := 7, pkt := passing } : Waiting), false, by decide +kernel⟩

theorem witness_PacketsAreRoutedAndSent_18b :
    ∃ (s : State) (out : _) (w : Waiting) (capped : _), let choice := ((s.chip.refreshOut out).select out).2;
    let tx := (s.chip.link out).tx; s.leavesPadding (fun c => c.outputStart out (c.rt.waiting.length + 1)) ∧
    s.chip.outFree out = true ∧ choice = some (w, capped) ∧ s.chip.tooOld w.pkt = false ∧ s.chip.fenceStops w = false ∧
    out < 60 ∧ tx.replay.all (fun x => !x.sending) = true :=
  ⟨st { { full with dict := { active := [(pnum 0x10 0x010 7, 1), (pnum 0x10 0x010 5, 1)] }, train := [(7, { state := .active, lanes := 1 }), (5, { state := .active, lanes := 1 })] } with rt := { waiting := [({ inp := 5, vc := passing.vc.toNat, out := 7, pkt := passing, whole := false } : Waiting)] } },
    7, ({ inp := 5, vc := passing.vc.toNat, out := 7, pkt := passing, whole := false } : Waiting), false, by decide +kernel⟩

/-! HintsTokensAndGatesMove, clause by clause. -/

theorem witness_HintsTokensAndGatesMove_1 :
    ∃ (s : State) (port : Nat), let localUp := s.chip.portActive port && s.chip.role port == 1; s.serving ∧ localUp = false :=
  ⟨st full, 5, by decide +kernel⟩

theorem witness_HintsTokensAndGatesMove_2 :
    ∃ (s : State) (port : Nat), let localUp := s.chip.portActive port && s.chip.role port == 1; s.serving ∧ localUp = true :=
  ⟨st (wire { state := .active }), 5, by decide +kernel⟩

theorem witness_HintsTokensAndGatesMove_3 :
    ∃ (s : State) (port : Nat) (item : List Byte), let localUp := s.chip.portActive port && s.chip.role port == 1;
    let hseq := ((item[1]?).getD 0).toNat;
    let taken := localUp && bits (s.chip.tport port).learnt 6 5 == (item.headD 0).toNat % 32 && (Tab.get? s.chip.rt.hints port).all fun h => h.hseq != hseq;
    s.serving ∧ taken = true :=
  ⟨st (wire { state := .active, learnt := 3 * 64 }), 5, 3 :: 9 :: List.replicate 30 0x21, by decide +kernel⟩

theorem witness_HintsTokensAndGatesMove_4a :
    ∃ (s : State) (port : Nat) (item : List Byte), let localUp := s.chip.portActive port && s.chip.role port == 1;
    let hseq := ((item[1]?).getD 0).toNat;
    let taken := localUp && bits (s.chip.tport port).learnt 6 5 == (item.headD 0).toNat % 32 && (Tab.get? s.chip.rt.hints port).all fun h => h.hseq != hseq;
    s.serving ∧ taken = false :=
  ⟨st (wire { state := .active, learnt := 3 * 64 }), 5, 4 :: 9 :: List.replicate 30 0x21, by decide +kernel⟩

theorem witness_HintsTokensAndGatesMove_4b :
    ∃ (s : State) (port : Nat) (item : List Byte), let localUp := s.chip.portActive port && s.chip.role port == 1;
    let hseq := ((item[1]?).getD 0).toNat;
    let taken := localUp && bits (s.chip.tport port).learnt 6 5 == (item.headD 0).toNat % 32 && (Tab.get? s.chip.rt.hints port).all fun h => h.hseq != hseq;
    s.serving ∧ taken = false :=
  ⟨st full, 5, [], by decide +kernel⟩

theorem witness_HintsTokensAndGatesMove_5a :
    ∃ (s : State) (port : Nat), let hint := Tab.get? s.chip.rt.hints port; s.serving ∧
    hint.all (fun h => h.staleCounted || decide (s.chip.now ≤ h.seenAt + 4000)) = true :=
  ⟨st full, 5, by decide +kernel⟩

theorem witness_HintsTokensAndGatesMove_5b :
    ∃ (s : State) (port : Nat), let hint := Tab.get? s.chip.rt.hints port; s.serving ∧
    hint.all (fun h => h.staleCounted || decide (s.chip.now ≤ h.seenAt + 4000)) = true :=
  ⟨st { full with rt := { hints := [(5, { hseq := 9, seenAt := 0 })] }, tb := { now := 4000 } }, 5, by decide +kernel⟩

theorem witness_HintsTokensAndGatesMove_6 :
    ∃ (s : State) (port : Nat) (h : Hint), let hint := Tab.get? s.chip.rt.hints port; s.serving ∧ hint = some h ∧
    h.seenAt + 4000 < s.chip.now ∧ h.staleCounted = false :=
  ⟨st { full with rt := { hints := [(5, { hseq := 9, seenAt := 0 })] }, tb := { now := 4001 } }, 5,
    { hseq := 9, seenAt := 0 }, by decide +kernel⟩

theorem witness_HintsTokensAndGatesMove_7a :
    ∃ (s : State) (port : Nat), let g := s.chip.gate port; let due := (g.next.map s.chip.reached).getD false; s.serving ∧
    due = false ∧ (g.enabled && s.chip.reached g.endsAt) = false :=
  ⟨st full, 5, by decide +kernel⟩

theorem witness_HintsTokensAndGatesMove_7b :
    ∃ (s : State) (port : Nat), let g := s.chip.gate port; let due := (g.next.map s.chip.reached).getD false; s.serving ∧
    due = false ∧ (g.enabled && s.chip.reached g.endsAt) = false :=
  ⟨st { full with rt := { gates := [(5, { enabled := true, entry := 1, durations := [100, 200], opens := [1, 2], endsAt := 7 })] }, tb := { time := 6 } },
    5, by decide +kernel⟩

theorem witness_HintsTokensAndGatesMove_8 :
    ∃ (s : State) (port : Nat), let g := s.chip.gate port; let due := (g.next.map s.chip.reached).getD false; s.serving ∧
    due = true :=
  ⟨st { full with dict := { active := [(pnum 0x1A 0x030 5, 0x80010000)] }, rt := { gates := [(5, { next := some 7 })] }, tb := { time := 7 } },
    5, by decide +kernel⟩

theorem witness_HintsTokensAndGatesMove_9 :
    ∃ (s : State) (port : Nat), let g := s.chip.gate port; let due := (g.next.map s.chip.reached).getD false; s.serving ∧
    due = false ∧ g.enabled = true ∧ s.chip.reached g.endsAt = true :=
  ⟨st { full with rt := { gates := [(5, { enabled := true, entry := 1, durations := [100, 200], opens := [1, 2], endsAt := 7 })] }, tb := { time := 7 } },
    5, by decide +kernel⟩

theorem witness_HintsTokensAndGatesMove_10 :
    ∃ (s : State) (ticks : _), s.leaves (fun c => c.tokenTick ticks) :=
  ⟨st { wire { state := .active } with rt := { tc1Tokens := [(5, 0)], shapers := [(5, 3)], policers := [(5, 4)] } }, 25,
    by decide +kernel⟩

/-! BroadcastsAndFencesAct, clause by clause. -/

theorem witness_BroadcastsAndFencesAct_1a :
    ∃ (s : State), s.serving :=
  ⟨st { full with dict := { active := [(pnum 0x01 0x040 2, 0x80000008)] }, rt := { arrivals := [({ inp := 5, pkt := (bcast 0x50 0x0100FFFF00000007 0) } : Arrival)] } },
    by decide +kernel⟩

theorem witness_BroadcastsAndFencesAct_1b :
    ∃ (s : State), s.serving :=
  ⟨st { full with dict := { active := [(pnum 0x01 0x040 2, 0x80000008)] }, rt := { arrivals := [({ inp := 5, pkt := (bcast 0x50 0x0100FFFF00000007 0) } : Arrival)] } },
    by decide +kernel⟩

theorem witness_BroadcastsAndFencesAct_1c :
    ∃ (s : State), s.serving :=
  ⟨st { full with dict := { active := [(pnum 0x01 0x040 2, 0x80000008)] }, rt := { arrivals := [({ inp := 5, pkt := passing } : Arrival)] } },
    by decide +kernel⟩

theorem witness_BroadcastsAndFencesAct_2a :
    ∃ (s : State) (inp : _) (p : Packet) (a : _),
    let here := (s.chip.firstArrival? inp).filter fun a => a.pkt == p && !p.headerFails; here = some a ∧
    s.leaves (fun c => c.broadcastArrives inp p p.kind.toNat) ∧ s.chip.tooOld p = true :=
  ⟨st { full with dict := { active := [(pnum 0x01 0x040 2, 0x80000008)] }, rt := { arrivals := [({ inp := 5, pkt := (bcast 0x50 0x0100FFFF00000007 0) } : Arrival)] }, tb := { time := 8000000000000 } },
    5, (bcast 0x50 0x0100FFFF00000007 0), ({ inp := 5, pkt := (bcast 0x50 0x0100FFFF00000007 0) } : Arrival),
    by decide +kernel⟩

theorem witness_BroadcastsAndFencesAct_2b :
    ∃ (s : State) (inp : _) (p : Packet) (a : _),
    let here := (s.chip.firstArrival? inp).filter fun a => a.pkt == p && !p.headerFails; here = some a ∧
    s.leaves (fun c => c.broadcastArrives inp p p.kind.toNat) ∧ s.chip.tooOld p = true :=
  ⟨st { full with dict := { active := [(pnum 0x01 0x040 2, 0x80000008)] }, rt := { arrivals := [({ inp := 5, pkt := (bcast 0x51 0x0100FFFF000A0064 0x0000100000000000) } : Arrival)] }, tb := { time := 8000000000000 } },
    5, (bcast 0x51 0x0100FFFF000A0064 0x0000100000000000),
    ({ inp := 5, pkt := (bcast 0x51 0x0100FFFF000A0064 0x0000100000000000) } : Arrival), by decide +kernel⟩

theorem witness_BroadcastsAndFencesAct_3a :
    ∃ (s : State) (inp : _) (p : Packet) (a : _),
    let here := (s.chip.firstArrival? inp).filter fun a => a.pkt == p && !p.headerFails; here = some a ∧
    s.leaves (fun c => c.broadcastArrives inp p p.kind.toNat) ∧ s.chip.tooOld p = false ∧
    s.chip.managerRow? p.src.toNat = none :=
  ⟨st { full with dict := { active := [(pnum 0x01 0x040 2, 0x80000009)] }, rt := { arrivals := [({ inp := 5, pkt := (bcast 0x50 0x0100FFFF00000007 0) } : Arrival)] } },
    5, (bcast 0x50 0x0100FFFF00000007 0), ({ inp := 5, pkt := (bcast 0x50 0x0100FFFF00000007 0) } : Arrival),
    by decide +kernel⟩

theorem witness_BroadcastsAndFencesAct_3b :
    ∃ (s : State) (inp : _) (p : Packet) (a : _),
    let here := (s.chip.firstArrival? inp).filter fun a => a.pkt == p && !p.headerFails; here = some a ∧
    s.leaves (fun c => c.broadcastArrives inp p p.kind.toNat) ∧ s.chip.tooOld p = false ∧
    s.chip.managerRow? p.src.toNat = none :=
  ⟨st { full with dict := { active := [(pnum 0x01 0x040 2, 0x80000009)] }, rt := { arrivals := [({ inp := 5, pkt := (bcast 0x51 0x0100FFFF000A0064 0x0000100000000000) } : Arrival)] } },
    5, (bcast 0x51 0x0100FFFF000A0064 0x0000100000000000),
    ({ inp := 5, pkt := (bcast 0x51 0x0100FFFF000A0064 0x0000100000000000) } : Arrival), by decide +kernel⟩

theorem witness_BroadcastsAndFencesAct_4 :
    ∃ (s : State) (inp : _) (p : Packet) (a : _) (row : _),
    let here := (s.chip.firstArrival? inp).filter fun a => a.pkt == p && !p.headerFails; here = some a ∧
    s.leaves (fun c => c.broadcastArrives inp p p.kind.toNat) ∧ s.chip.tooOld p = false ∧
    s.chip.managerRow? p.src.toNat = some row ∧ p.bcastOk = false :=
  ⟨st { full with dict := { active := [(pnum 0x01 0x040 2, 0x80000008)] }, rt := { arrivals := [({ inp := 5, pkt := (bcast 0x50 0x0300FFFF00000007 0) } : Arrival)] } },
    5, (bcast 0x50 0x0300FFFF00000007 0), ({ inp := 5, pkt := (bcast 0x50 0x0300FFFF00000007 0) } : Arrival), 2,
    by decide +kernel⟩

theorem witness_BroadcastsAndFencesAct_5 :
    ∃ (s : State) (inp : _) (p : Packet) (a : _) (row : _),
    let here := (s.chip.firstArrival? inp).filter fun a => a.pkt == p && !p.headerFails;
    let rec' := Tab.get s.chip.rt.bcasts row BcastRec.init; here = some a ∧
    s.leaves (fun c => c.broadcastArrives inp p p.kind.toNat) ∧ s.chip.tooOld p = false ∧
    s.chip.managerRow? p.src.toNat = some row ∧ p.bcastOk = true ∧ rec'.isNew p.bseq = false :=
  ⟨st { full with dict := { active := [(pnum 0x01 0x040 2, 0x80000008)] }, rt := { arrivals := [({ inp := 5, pkt := (bcast 0x50 0x0100FFFF00000007 0) } : Arrival)], bcasts := [(2, { highest := some 0xFFFF })] } },
    5, (bcast 0x50 0x0100FFFF00000007 0), ({ inp := 5, pkt := (bcast 0x50 0x0100FFFF00000007 0) } : Arrival), 2,
    by decide +kernel⟩

theorem witness_BroadcastsAndFencesAct_6a :
    ∃ (s : State) (inp : _) (p : Packet) (a : _) (row : _),
    let here := (s.chip.firstArrival? inp).filter fun a => a.pkt == p && !p.headerFails;
    let rec' := Tab.get s.chip.rt.bcasts row BcastRec.init; here = some a ∧
    s.leaves (fun c => c.broadcastArrives inp p p.kind.toNat) ∧ s.chip.tooOld p = false ∧
    s.chip.managerRow? p.src.toNat = some row ∧ p.bcastOk = true ∧ rec'.isNew p.bseq = true :=
  ⟨st { full with dict := { active := [(pnum 0x01 0x040 2, 0x80000008)] }, rt := { arrivals := [({ inp := 5, pkt := (bcast 0x50 0x0100FFFF00000007 0) } : Arrival)] } },
    5, (bcast 0x50 0x0100FFFF00000007 0), ({ inp := 5, pkt := (bcast 0x50 0x0100FFFF00000007 0) } : Arrival), 2,
    by decide +kernel⟩

theorem witness_BroadcastsAndFencesAct_6b :
    ∃ (s : State) (inp : _) (p : Packet) (a : _) (row : _),
    let here := (s.chip.firstArrival? inp).filter fun a => a.pkt == p && !p.headerFails;
    let rec' := Tab.get s.chip.rt.bcasts row BcastRec.init; here = some a ∧
    s.leaves (fun c => c.broadcastArrives inp p p.kind.toNat) ∧ s.chip.tooOld p = false ∧
    s.chip.managerRow? p.src.toNat = some row ∧ p.bcastOk = true ∧ rec'.isNew p.bseq = true :=
  ⟨st { full with dict := { active := [(pnum 0x01 0x040 2, 0x80000008)] }, rt := { arrivals := [({ inp := 5, pkt := (bcast 0x51 0x0100FFFF000A0064 0x0000100000000000) } : Arrival)] } },
    5, (bcast 0x51 0x0100FFFF000A0064 0x0000100000000000),
    ({ inp := 5, pkt := (bcast 0x51 0x0100FFFF000A0064 0x0000100000000000) } : Arrival), 2, by decide +kernel⟩

theorem witness_BroadcastsAndFencesAct_6c :
    ∃ (s : State) (inp : _) (p : Packet) (a : _) (row : _),
    let here := (s.chip.firstArrival? inp).filter fun a => a.pkt == p && !p.headerFails;
    let rec' := Tab.get s.chip.rt.bcasts row BcastRec.init; here = some a ∧
    s.leaves (fun c => c.broadcastArrives inp p p.kind.toNat) ∧ s.chip.tooOld p = false ∧
    s.chip.managerRow? p.src.toNat = some row ∧ p.bcastOk = true ∧ rec'.isNew p.bseq = true :=
  ⟨st { full with dict := { active := [(pnum 0x01 0x040 2, 0x80000008)] }, rt := { arrivals := [({ inp := 5, pkt := (bcast 0x50 0x0100FFFF00000007 0) } : Arrival)], pending := List.replicate 256 (2, Packet.init) }, fw := { clusters := [(1, 1)] } },
    5, (bcast 0x50 0x0100FFFF00000007 0), ({ inp := 5, pkt := (bcast 0x50 0x0100FFFF00000007 0) } : Arrival), 2,
    by decide +kernel⟩

theorem witness_BroadcastsAndFencesAct_6d :
    ∃ (s : State) (inp : _) (p : Packet) (a : _) (row : _),
    let here := (s.chip.firstArrival? inp).filter fun a => a.pkt == p && !p.headerFails;
    let rec' := Tab.get s.chip.rt.bcasts row BcastRec.init; here = some a ∧
    s.leaves (fun c => c.broadcastArrives inp p p.kind.toNat) ∧ s.chip.tooOld p = false ∧
    s.chip.managerRow? p.src.toNat = some row ∧ p.bcastOk = true ∧ rec'.isNew p.bseq = true :=
  ⟨st { wire { state := .active } with dict := { active := [(pnum 0x10 0x010 5, 1), (pnum 0x10 0x010 7, 1), (pnum 0x01 0x040 2, 0x80000008)] }, train := [(5, { state := .active }), (7, { state := .active })], rt := { arrivals := [({ inp := 5, pkt := (bcast 0x50 0x0100FFFF00000007 0) } : Arrival)] } },
    5, (bcast 0x50 0x0100FFFF00000007 0), ({ inp := 5, pkt := (bcast 0x50 0x0100FFFF00000007 0) } : Arrival), 2,
    by decide +kernel⟩

theorem witness_BroadcastsAndFencesAct_7a :
    ∃ (s : State), s.serving ∧ (s.chip.rt.pending = [] ∨ s.chip.clusterUp 1 = false) :=
  ⟨st full, by decide +kernel⟩

theorem witness_BroadcastsAndFencesAct_7b :
    ∃ (s : State), s.serving ∧ (s.chip.rt.pending = [] ∨ s.chip.clusterUp 1 = false) :=
  ⟨st { full with dict := { active := [(pnum 0x01 0x040 2, 0x80000008)] }, rt := { pending := [(2, (bcast 0x50 0x0100FFFF00000007 0))] }, fw := { clusters := [(1, 1)] } },
    by decide +kernel⟩

theorem witness_BroadcastsAndFencesAct_8a :
    ∃ (s : State) (row : _) (p : _) (r : _), s.leaves (fun c => c.broadcastApply) ∧ s.chip.rt.pending = (row, p) :: r ∧
    s.chip.clusterUp 1 = true ∧ p.kind = 0x50 :=
  ⟨st { full with dict := { active := [(pnum 0x01 0x040 2, 0x80000008)] }, rt := { pending := [(2, (bcast 0x50 0x0100FFFF00000007 0))] } },
    2, (bcast 0x50 0x0100FFFF00000007 0), [], by decide +kernel⟩

theorem witness_BroadcastsAndFencesAct_8b :
    ∃ (s : State) (row : _) (p : _) (r : _), s.leaves (fun c => c.broadcastApply) ∧ s.chip.rt.pending = (row, p) :: r ∧
    s.chip.clusterUp 1 = true ∧ p.kind = 0x50 :=
  ⟨st { full with dict := { active := [(pnum 0x01 0x040 2, 0x80000008)] }, rt := { pending := [(2, (bcast 0x50 0x0100FFFF00000007 0))], remembered := [(7, (2, 7))] } },
    2, (bcast 0x50 0x0100FFFF00000007 0), [], by decide +kernel⟩

theorem witness_BroadcastsAndFencesAct_9a :
    ∃ (s : State) (row : _) (p : _) (r : _), s.leaves (fun c => c.broadcastApply) ∧ s.chip.rt.pending = (row, p) :: r ∧
    s.chip.clusterUp 1 = true ∧ p.kind = 0x51 :=
  ⟨st { full with dict := { active := [(pnum 0x01 0x040 2, 0x80000008)] }, rt := { pending := [(2, (bcast 0x51 0x0100FFFF000A0064 0x0000100000000000))] } },
    2, (bcast 0x51 0x0100FFFF000A0064 0x0000100000000000), [], by decide +kernel⟩

theorem witness_BroadcastsAndFencesAct_9b :
    ∃ (s : State) (row : _) (p : _) (r : _), s.leaves (fun c => c.broadcastApply) ∧ s.chip.rt.pending = (row, p) :: r ∧
    s.chip.clusterUp 1 = true ∧ p.kind = 0x51 :=
  ⟨st { full with dict := { active := [(pnum 0x01 0x040 2, 0x80000008)] }, rt := { pending := [(2, (bcast 0x51 0x0100FFFF000A0064 0x0000100000000000))] }, tr := { dests := [(0, { window := 900, capFrom := some (2, 7) }), (1, { window := 900 })] } },
    2, (bcast 0x51 0x0100FFFF000A0064 0x0000100000000000), [], by decide +kernel⟩

theorem witness_BroadcastsAndFencesAct_9c :
    ∃ (s : State) (row : _) (p : _) (r : _), s.leaves (fun c => c.broadcastApply) ∧ s.chip.rt.pending = (row, p) :: r ∧
    s.chip.clusterUp 1 = true ∧ p.kind = 0x51 :=
  ⟨st { full with dict := { active := [(pnum 0x01 0x040 2, 0x80000008)] }, rt := { pending := [(2, (bcast 0x51 0x0200FFFF000A0064 0x0000100000000000))] }, tr := { dests := [(1, { window := 900, cap := some 4, capExpiry := some 8 })] } },
    2, (bcast 0x51 0x0200FFFF000A0064 0x0000100000000000), [], by decide +kernel⟩

theorem witness_BroadcastsAndFencesAct_10 :
    ∃ (s : State) (w : _) (row : _) (v : Word), s.chip.mayWrite w (pnum 0x13 0x001 row) = true ∧ row < 512 ∧
    s.leaves (fun c => c.writeClamp row v.toNat) ∧ s.chip.clusterUp 1 = true :=
  ⟨st full, .mctp, 511, 0x8000000000000001, by decide +kernel⟩

theorem witness_BroadcastsAndFencesAct_11 :
    ∃ (s : State) (w : _) (row : _), s.chip.mayWrite w (pnum 0x13 0x001 row) = true ∧ row < 512 ∧ s.serving ∧
    s.chip.clusterUp 1 = false :=
  ⟨st { full with dict := { active := [(pnum 0x01 0x040 2, 0x80000008)] }, rt := {  }, fw := { clusters := [(1, 1)] } },
    .mctp, 3, by decide +kernel⟩

theorem witness_BroadcastsAndFencesAct_12 :
    ∃ (s : State) (chip : Nat), let d? := Tab.get? s.chip.tr.dests chip;
    let due := (d?.bind (·.capExpiry)).elim false fun t => decide (t ≤ s.chip.now); s.serving ∧ due = false :=
  ⟨st full, 1, by decide +kernel⟩

theorem witness_BroadcastsAndFencesAct_13 :
    ∃ (s : State) (chip : Nat) (d : _), let d? := Tab.get? s.chip.tr.dests chip;
    let due := (d?.bind (·.capExpiry)).elim false fun t => decide (t ≤ s.chip.now); s.serving ∧ due = true ∧ d? = some d :=
  ⟨st { full with tr := { dests := [(1, { cap := some 3, capExpiry := some 5 })] }, tb := { now := 5 } }, 1,
    ({ cap := some 3, capExpiry := some 5 } : Dest), by decide +kernel⟩

/-! LinksCarryAndReplay, clause by clause. -/

theorem witness_LinksCarryAndReplay_1a :
    ∃ (s : State) (port : Nat) (blocks : List PortBlock), let up := s.chip.portActive port; let link := s.chip.link port;
    s.serving ∧ (up = false ∨ link.rx.lost = true ∨ blocks.all (·.ctl) = true) :=
  ⟨st full, 5, [{ bytes := zeros 32 }], by decide +kernel⟩

theorem witness_LinksCarryAndReplay_1b :
    ∃ (s : State) (port : Nat) (blocks : List PortBlock), let up := s.chip.portActive port; let link := s.chip.link port;
    s.serving ∧ (up = false ∨ link.rx.lost = true ∨ blocks.all (·.ctl) = true) :=
  ⟨st { full with dict := { active := (pnum 0x10 0x010 5, 1) :: (pnum 0x10 0x010 7, 1) :: [] }, train := [(5, { state := .active, lanes := 3 }), (7, { state := .active, lanes := 3 })], links := [(5, { rx := { lost := true } }), (7, { tx := { replay := [{ pkt := passing, sending := true, units := 3 }] } })] },
    5, inBlocks (onLine 0 passing 0), by decide +kernel⟩

theorem witness_LinksCarryAndReplay_1c :
    ∃ (s : State) (port : Nat) (blocks : List PortBlock), let up := s.chip.portActive port; let link := s.chip.link port;
    s.serving ∧ (up = false ∨ link.rx.lost = true ∨ blocks.all (·.ctl) = true) :=
  ⟨st { full with dict := { active := (pnum 0x10 0x010 5, 1) :: (pnum 0x10 0x010 7, 1) :: [] }, train := [(5, { state := .active, lanes := 3 }), (7, { state := .active, lanes := 3 })], links := [(5, {  }), (7, { tx := { replay := [{ pkt := passing, sending := true, units := 3 }] } })] },
    5, [{ ctl := true, bytes := zeros 32 }], by decide +kernel⟩

theorem witness_LinksCarryAndReplay_2a :
    ∃ (s : State) (port : Nat) (blocks : List PortBlock), let up := s.chip.portActive port; let link := s.chip.link port;
    let raw := link.rx.stream ++ blocks.flatMap fun b => b.bytes.map fun x => (x, b.bad); let bytes := raw.map (·.1);
    let hdr := wordAt bytes 0; let sound := !headerBad hdr && !(raw.take 8).any (·.2);
    let data := blocks.all fun b => !b.ctl && b.bytes.length == 32; s.leavesPadding (fun c => c.linkReceive port blocks) ∧
    up = true ∧ link.rx.lost = false ∧ data = true ∧ blocks.length = 1 ∧ link.rx.stream.length < 8 ∧ sound = false ∧
    bytes.headD 0 ≠ 0 :=
  ⟨st { full with dict := { active := (pnum 0x10 0x010 5, 1) :: (pnum 0x10 0x010 7, 1) :: [] }, train := [(5, { state := .active, lanes := 3 }), (7, { state := .active, lanes := 3 })], links := [(5, {  }), (7, { tx := { replay := [{ pkt := passing, sending := true, units := 3 }] } })] },
    5, [{ bytes := [0x50] ++ zeros 31, bad := false }], by decide +kernel⟩

theorem witness_LinksCarryAndReplay_2b :
    ∃ (s : State) (port : Nat) (blocks : List PortBlock), let up := s.chip.portActive port; let link := s.chip.link port;
    let raw := link.rx.stream ++ blocks.flatMap fun b => b.bytes.map fun x => (x, b.bad); let bytes := raw.map (·.1);
    let hdr := wordAt bytes 0; let sound := !headerBad hdr && !(raw.take 8).any (·.2);
    let data := blocks.all fun b => !b.ctl && b.bytes.length == 32; s.leavesPadding (fun c => c.linkReceive port blocks) ∧
    up = true ∧ link.rx.lost = false ∧ data = true ∧ blocks.length = 1 ∧ link.rx.stream.length < 8 ∧ sound = false ∧
    bytes.headD 0 ≠ 0 :=
  ⟨st { full with dict := { active := (pnum 0x10 0x010 5, 1) :: (pnum 0x10 0x010 7, 1) :: [] }, train := [(5, { state := .active, lanes := 3 }), (7, { state := .active, lanes := 3 })], links := [(5, { rx := { nakSent := true } }), (7, { tx := { replay := [{ pkt := passing, sending := true, units := 3 }] } })] },
    5, [{ bytes := [0x50] ++ zeros 31, bad := false }], by decide +kernel⟩

theorem witness_LinksCarryAndReplay_2c :
    ∃ (s : State) (port : Nat) (blocks : List PortBlock), let up := s.chip.portActive port; let link := s.chip.link port;
    let raw := link.rx.stream ++ blocks.flatMap fun b => b.bytes.map fun x => (x, b.bad); let bytes := raw.map (·.1);
    let hdr := wordAt bytes 0; let sound := !headerBad hdr && !(raw.take 8).any (·.2);
    let data := blocks.all fun b => !b.ctl && b.bytes.length == 32; s.leavesPadding (fun c => c.linkReceive port blocks) ∧
    up = true ∧ link.rx.lost = false ∧ data = true ∧ blocks.length = 1 ∧ link.rx.stream.length < 8 ∧ sound = false ∧
    bytes.headD 0 ≠ 0 :=
  ⟨st { full with dict := { active := (pnum 0x10 0x010 5, 1) :: (pnum 0x10 0x010 7, 1) :: [] }, train := [(5, { state := .active, lanes := 3 }), (7, { state := .active, lanes := 3 })], links := [(5, {  }), (7, { tx := { replay := [{ pkt := passing, sending := true, units := 3 }] } })] },
    5, [{ bytes := (onLine 0 passing).take 32, bad := true }], by decide +kernel⟩

theorem witness_LinksCarryAndReplay_3 :
    ∃ (s : State) (port : Nat) (blocks : List PortBlock), let up := s.chip.portActive port; let link := s.chip.link port;
    let raw := link.rx.stream ++ blocks.flatMap fun b => b.bytes.map fun x => (x, b.bad); let bytes := raw.map (·.1);
    let data := blocks.all fun b => !b.ctl && b.bytes.length == 32; s.leavesPadding (fun c => c.linkReceive port blocks) ∧
    up = true ∧ link.rx.lost = false ∧ data = true ∧ blocks.length = 1 ∧ link.rx.stream = [] ∧ bytes.headD 0 = 0 :=
  ⟨st { full with dict := { active := (pnum 0x10 0x010 5, 1) :: (pnum 0x10 0x010 7, 1) :: [] }, train := [(5, { state := .active, lanes := 3 }), (7, { state := .active, lanes := 3 })], links := [(5, {  }), (7, { tx := { replay := [{ pkt := passing, sending := true, units := 3 }] } })] },
    5, [{ bytes := zeros 32, bad := false }], by decide +kernel⟩

theorem witness_LinksCarryAndReplay_4 :
    ∃ (s : State) (port : Nat) (blocks : List PortBlock), let up := s.chip.portActive port; let link := s.chip.link port;
    let raw := link.rx.stream ++ blocks.flatMap fun b => b.bytes.map fun x => (x, b.bad); let bytes := raw.map (·.1);
    let hdr := wordAt bytes 0; let n := hdr.field 47 35; let sound := !headerBad hdr && !(raw.take 8).any (·.2);
    let data := blocks.all fun b => !b.ctl && b.bytes.length == 32; s.leavesPadding (fun c => c.linkReceive port blocks) ∧
    up = true ∧ link.rx.lost = false ∧ data = true ∧ sound = true ∧ raw.length < n :=
  ⟨st { full with dict := { active := (pnum 0x10 0x010 5, 1) :: (pnum 0x10 0x010 7, 1) :: [] }, train := [(5, { state := .active, lanes := 3 }), (7, { state := .active, lanes := 3 })], links := [(5, {  }), (7, { tx := { replay := [{ pkt := passing, sending := true, units := 3 }] } })] },
    5, (inBlocks (onLine 0 passing 0)).take 2, by decide +kernel⟩

theorem witness_LinksCarryAndReplay_5 :
    ∃ (s : State) (port : Nat) (blocks : List PortBlock), let up := s.chip.portActive port; let link := s.chip.link port;
    let raw := link.rx.stream ++ blocks.flatMap fun b => b.bytes.map fun x => (x, b.bad); let bytes := raw.map (·.1);
    let hdr := wordAt bytes 0; let n := hdr.field 47 35; let sound := !headerBad hdr && !(raw.take 8).any (·.2);
    let data := blocks.all fun b => !b.ctl && b.bytes.length == 32; let d := (headerLsn hdr - link.rx.expect).toNat;
    s.leavesPadding (fun c => c.linkReceive port blocks) ∧ up = true ∧ link.rx.lost = false ∧ data = true ∧ sound = true ∧
    link.rx.stream.length < n ∧ n ≤ raw.length ∧ raw.length < n + 32 ∧ (bytes.drop n).headD 0 = 0 ∧ 2048 ≤ d :=
  ⟨st { full with dict := { active := (pnum 0x10 0x010 5, 1) :: (pnum 0x10 0x010 7, 1) :: [] }, train := [(5, { state := .active, lanes := 3 }), (7, { state := .active, lanes := 3 })], links := [(5, {  }), (7, { tx := { replay := [{ pkt := passing, sending := true, units := 3 }] } })] },
    5, inBlocks (onLine 0xFFF passing 0), by decide +kernel⟩

theorem witness_LinksCarryAndReplay_6a :
    ∃ (s : State) (port : Nat) (blocks : List PortBlock), let up := s.chip.portActive port; let link := s.chip.link port;
    let raw := link.rx.stream ++ blocks.flatMap fun b => b.bytes.map fun x => (x, b.bad); let bytes := raw.map (·.1);
    let hdr := wordAt bytes 0; let n := hdr.field 47 35; let sound := !headerBad hdr && !(raw.take 8).any (·.2);
    let data := blocks.all fun b => !b.ctl && b.bytes.length == 32; let d := (headerLsn hdr - link.rx.expect).toNat;
    s.leavesPadding (fun c => c.linkReceive port blocks) ∧ up = true ∧ link.rx.lost = false ∧ data = true ∧ sound = true ∧
    link.rx.stream.length < n ∧ n ≤ raw.length ∧ raw.length < n + 32 ∧ (bytes.drop n).headD 0 = 0 ∧ d ≠ 0 ∧ d < 2048 :=
  ⟨st { full with dict := { active := (pnum 0x10 0x010 5, 1) :: (pnum 0x10 0x010 7, 1) :: [] }, train := [(5, { state := .active, lanes := 3 }), (7, { state := .active, lanes := 3 })], links := [(5, {  }), (7, { tx := { replay := [{ pkt := passing, sending := true, units := 3 }] } })] },
    5, inBlocks (onLine 3 passing 0), by decide +kernel⟩

theorem witness_LinksCarryAndReplay_6b :
    ∃ (s : State) (port : Nat) (blocks : List PortBlock), let up := s.chip.portActive port; let link := s.chip.link port;
    let raw := link.rx.stream ++ blocks.flatMap fun b => b.bytes.map fun x => (x, b.bad); let bytes := raw.map (·.1);
    let hdr := wordAt bytes 0; let n := hdr.field 47 35; let sound := !headerBad hdr && !(raw.take 8).any (·.2);
    let data := blocks.all fun b => !b.ctl && b.bytes.length == 32; let d := (headerLsn hdr - link.rx.expect).toNat;
    s.leavesPadding (fun c => c.linkReceive port blocks) ∧ up = true ∧ link.rx.lost = false ∧ data = true ∧ sound = true ∧
    link.rx.stream.length < n ∧ n ≤ raw.length ∧ raw.length < n + 32 ∧ (bytes.drop n).headD 0 = 0 ∧ d ≠ 0 ∧ d < 2048 :=
  ⟨st { full with dict := { active := (pnum 0x10 0x010 5, 1) :: (pnum 0x10 0x010 7, 1) :: [] }, train := [(5, { state := .active, lanes := 3 }), (7, { state := .active, lanes := 3 })], links := [(5, { rx := { nakSent := true } }), (7, { tx := { replay := [{ pkt := passing, sending := true, units := 3 }] } })] },
    5, inBlocks (onLine 3 passing 0), by decide +kernel⟩

theorem witness_LinksCarryAndReplay_7 :
    ∃ (s : State) (port : Nat) (blocks : List PortBlock), let up := s.chip.portActive port; let link := s.chip.link port;
    let raw := link.rx.stream ++ blocks.flatMap fun b => b.bytes.map fun x => (x, b.bad); let bytes := raw.map (·.1);
    let hdr := wordAt bytes 0; let n := hdr.field 47 35; let sound := !headerBad hdr && !(raw.take 8).any (·.2);
    let data := blocks.all fun b => !b.ctl && b.bytes.length == 32;
    let p := Packet.ofBytes ((bytes.take (n - 4)).drop 8) (n == 64); let pool := hdr.getLsbD 34;
    let d := (headerLsn hdr - link.rx.expect).toNat; let room := link.rx.room p.vc.toNat p.len.toNat pool;
    s.leavesPadding (fun c => c.linkReceive port blocks) ∧ up = true ∧ link.rx.lost = false ∧ data = true ∧ sound = true ∧
    link.rx.stream.length < n ∧ n ≤ raw.length ∧ raw.length < n + 32 ∧ (bytes.drop n).headD 0 = 0 ∧ d = 0 ∧ room = false :=
  ⟨st { full with dict := { active := (pnum 0x10 0x010 5, 1) :: (pnum 0x10 0x010 7, 1) :: [] }, train := [(5, { state := .active, lanes := 3 }), (7, { state := .active, lanes := 3 })], links := [(5, { rx := { poolUsed := [(0, 14866)] } }), (7, { tx := { replay := [{ pkt := passing, sending := true, units := 3 }] } })] },
    5, inBlocks (onLine 0 passing 0), by decide +kernel⟩

theorem witness_LinksCarryAndReplay_8a :
    ∃ (s : State) (port : Nat) (blocks : List PortBlock), let up := s.chip.portActive port; let link := s.chip.link port;
    let raw := link.rx.stream ++ blocks.flatMap fun b => b.bytes.map fun x => (x, b.bad); let bytes := raw.map (·.1);
    let hdr := wordAt bytes 0; let n := hdr.field 47 35; let sound := !headerBad hdr && !(raw.take 8).any (·.2);
    let data := blocks.all fun b => !b.ctl && b.bytes.length == 32;
    let p := Packet.ofBytes ((bytes.take (n - 4)).drop 8) (n == 64);
    let crc := BitVec.ofNat 32 (natBE ((bytes.take n).drop (n - 4))); let right := crc32c (bytes.take (n - 4));
    let marred := (raw.take n).any (·.2); let pool := hdr.getLsbD 34; let d := (headerLsn hdr - link.rx.expect).toNat;
    let room := link.rx.room p.vc.toNat p.len.toNat pool; s.leavesPadding (fun c => c.linkReceive port blocks) ∧ up = true ∧
    link.rx.lost = false ∧ data = true ∧ sound = true ∧ link.rx.stream.length < n ∧ n ≤ raw.length ∧ raw.length < n + 32 ∧
    (bytes.drop n).headD 0 = 0 ∧ d = 0 ∧ room = true ∧ (marred = true ∨ (crc ≠ right ∧ crc ≠ ~~~right)) :=
  ⟨st { full with dict := { active := (pnum 0x10 0x010 5, 1) :: (pnum 0x10 0x010 7, 1) :: [] }, train := [(5, { state := .active, lanes := 3 }), (7, { state := .active, lanes := 3 })], links := [(5, {  }), (7, { tx := { replay := [{ pkt := passing, sending := true, units := 3 }] } })] },
    5, inBlocks (onLine 0 passing 5), by decide +kernel⟩

theorem witness_LinksCarryAndReplay_8b :
    ∃ (s : State) (port : Nat) (blocks : List PortBlock), let up := s.chip.portActive port; let link := s.chip.link port;
    let raw := link.rx.stream ++ blocks.flatMap fun b => b.bytes.map fun x => (x, b.bad); let bytes := raw.map (·.1);
    let hdr := wordAt bytes 0; let n := hdr.field 47 35; let sound := !headerBad hdr && !(raw.take 8).any (·.2);
    let data := blocks.all fun b => !b.ctl && b.bytes.length == 32;
    let p := Packet.ofBytes ((bytes.take (n - 4)).drop 8) (n == 64);
    let crc := BitVec.ofNat 32 (natBE ((bytes.take n).drop (n - 4))); let right := crc32c (bytes.take (n - 4));
    let marred := (raw.take n).any (·.2); let pool := hdr.getLsbD 34; let d := (headerLsn hdr - link.rx.expect).toNat;
    let room := link.rx.room p.vc.toNat p.len.toNat pool; s.leavesPadding (fun c => c.linkReceive port blocks) ∧ up = true ∧
    link.rx.lost = false ∧ data = true ∧ sound = true ∧ link.rx.stream.length < n ∧ n ≤ raw.length ∧ raw.length < n + 32 ∧
    (bytes.drop n).headD 0 = 0 ∧ d = 0 ∧ room = true ∧ (marred = true ∨ (crc ≠ right ∧ crc ≠ ~~~right)) :=
  ⟨st { full with dict := { active := (pnum 0x10 0x010 5, 1) :: (pnum 0x10 0x010 7, 1) :: [] }, train := [(5, { state := .active, lanes := 3 }), (7, { state := .active, lanes := 3 })], links := [(5, {  }), (7, { tx := { replay := [{ pkt := passing, sending := true, units := 3 }] } })] },
    5, (inBlocks (onLine 0 passing 0)).map fun b => { b with bad := b.bytes.headD 0 != 0xA0 }, by decide +kernel⟩

theorem witness_LinksCarryAndReplay_9 :
    ∃ (s : State) (port : Nat) (blocks : List PortBlock), let up := s.chip.portActive port; let link := s.chip.link port;
    let raw := link.rx.stream ++ blocks.flatMap fun b => b.bytes.map fun x => (x, b.bad); let bytes := raw.map (·.1);
    let hdr := wordAt bytes 0; let n := hdr.field 47 35; let sound := !headerBad hdr && !(raw.take 8).any (·.2);
    let data := blocks.all fun b => !b.ctl && b.bytes.length == 32;
    let p := Packet.ofBytes ((bytes.take (n - 4)).drop 8) (n == 64);
    let crc := BitVec.ofNat 32 (natBE ((bytes.take n).drop (n - 4))); let right := crc32c (bytes.take (n - 4));
    let marred := (raw.take n).any (·.2); let pool := hdr.getLsbD 34; let d := (headerLsn hdr - link.rx.expect).toNat;
    let room := link.rx.room p.vc.toNat p.len.toNat pool; s.leavesPadding (fun c => c.linkReceive port blocks) ∧ up = true ∧
    link.rx.lost = false ∧ data = true ∧ sound = true ∧ link.rx.stream.length < n ∧ n ≤ raw.length ∧ raw.length < n + 32 ∧
    (bytes.drop n).headD 0 = 0 ∧ d = 0 ∧ room = true ∧ marred = false ∧ crc = ~~~right :=
  ⟨st { full with dict := { active := (pnum 0x10 0x010 5, 1) :: (pnum 0x10 0x010 7, 1) :: [] }, train := [(5, { state := .active, lanes := 3 }), (7, { state := .active, lanes := 3 })], links := [(5, {  }), (7, { tx := { replay := [{ pkt := passing, sending := true, units := 3 }] } })] },
    5, inBlocks (onLine 0 passing 0xFFFFFFFF), by decide +kernel⟩

theorem witness_LinksCarryAndReplay_10 :
    ∃ (s : State) (port : Nat) (blocks : List PortBlock), let up := s.chip.portActive port; let link := s.chip.link port;
    let raw := link.rx.stream ++ blocks.flatMap fun b => b.bytes.map fun x => (x, b.bad); let bytes := raw.map (·.1);
    let hdr := wordAt bytes 0; let n := hdr.field 47 35; let sound := !headerBad hdr && !(raw.take 8).any (·.2);
    let data := blocks.all fun b => !b.ctl && b.bytes.length == 32;
    let p := Packet.ofBytes ((bytes.take (n - 4)).drop 8) (n == 64);
    let crc := BitVec.ofNat 32 (natBE ((bytes.take n).drop (n - 4))); let right := crc32c (bytes.take (n - 4));
    let marred := (raw.take n).any (·.2); let pool := hdr.getLsbD 34; let d := (headerLsn hdr - link.rx.expect).toNat;
    let room := link.rx.room p.vc.toNat p.len.toNat pool; s.leavesPadding (fun c => c.linkReceive port blocks) ∧ up = true ∧
    link.rx.lost = false ∧ data = true ∧ sound = true ∧ link.rx.stream.length < n ∧ n ≤ raw.length ∧ raw.length < n + 32 ∧
    (bytes.drop n).headD 0 = 0 ∧ d = 0 ∧ room = true ∧ marred = false ∧ crc = right ∧ link.rx.dropped = true :=
  ⟨st { full with dict := { active := (pnum 0x10 0x010 5, 1) :: (pnum 0x10 0x010 7, 1) :: [] }, train := [(5, { state := .active, lanes := 3 }), (7, { state := .active, lanes := 3 })], links := [(5, { rx := { dropped := true } }), (7, { tx := { replay := [{ pkt := passing, sending := true, units := 3 }] } })] },
    5, inBlocks (onLine 0 passing 0), by decide +kernel⟩

theorem witness_LinksCarryAndReplay_11 :
    ∃ (s : State) (port : Nat) (blocks : List PortBlock), let up := s.chip.portActive port; let link := s.chip.link port;
    let raw := link.rx.stream ++ blocks.flatMap fun b => b.bytes.map fun x => (x, b.bad); let bytes := raw.map (·.1);
    let hdr := wordAt bytes 0; let n := hdr.field 47 35; let sound := !headerBad hdr && !(raw.take 8).any (·.2);
    let data := blocks.all fun b => !b.ctl && b.bytes.length == 32;
    let p := Packet.ofBytes ((bytes.take (n - 4)).drop 8) (n == 64);
    let crc := BitVec.ofNat 32 (natBE ((bytes.take n).drop (n - 4))); let right := crc32c (bytes.take (n - 4));
    let marred := (raw.take n).any (·.2); let pool := hdr.getLsbD 34; let d := (headerLsn hdr - link.rx.expect).toNat;
    let room := link.rx.room p.vc.toNat p.len.toNat pool; s.leavesPadding (fun c => c.linkReceive port blocks) ∧ up = true ∧
    link.rx.lost = false ∧ data = true ∧ sound = true ∧ link.rx.stream.length < n ∧ n ≤ raw.length ∧ raw.length < n + 32 ∧
    (bytes.drop n).headD 0 = 0 ∧ d = 0 ∧ room = true ∧ marred = false ∧ crc = right ∧ link.rx.dropped = false ∧
    p.isShim ≠ (n == 64) :=
  ⟨st { full with dict := { active := (pnum 0x10 0x010 5, 1) :: (pnum 0x10 0x010 7, 1) :: [] }, train := [(5, { state := .active, lanes := 3 }), (7, { state := .active, lanes := 3 })], links := [(5, {  }), (7, { tx := { replay := [{ pkt := passing, sending := true, units := 3 }] } })] },
    5,
    inBlocks ((let b := (linkHeader 0 72 true false).be ++ (({ passing with kind := 0x40 } : Packet).linkBody ++ zeros 60).take 60; b ++ bytesBE 4 (crc32c b).toNat)),
    by decide +kernel⟩

theorem witness_LinksCarryAndReplay_12 :
    ∃ (s : State) (port : Nat) (blocks : List PortBlock), let up := s.chip.portActive port; let link := s.chip.link port;
    let raw := link.rx.stream ++ blocks.flatMap fun b => b.bytes.map fun x => (x, b.bad); let bytes := raw.map (·.1);
    let hdr := wordAt bytes 0; let n := hdr.field 47 35; let sound := !headerBad hdr && !(raw.take 8).any (·.2);
    let data := blocks.all fun b => !b.ctl && b.bytes.length == 32;
    let p := Packet.ofBytes ((bytes.take (n - 4)).drop 8) (n == 64);
    let crc := BitVec.ofNat 32 (natBE ((bytes.take n).drop (n - 4))); let right := crc32c (bytes.take (n - 4));
    let marred := (raw.take n).any (·.2); let pool := hdr.getLsbD 34; let d := (headerLsn hdr - link.rx.expect).toNat;
    let room := link.rx.room p.vc.toNat p.len.toNat pool; s.leavesPadding (fun c => c.linkReceive port blocks) ∧ up = true ∧
    link.rx.lost = false ∧ data = true ∧ sound = true ∧ link.rx.stream.length < n ∧ n ≤ raw.length ∧ raw.length < n + 32 ∧
    (bytes.drop n).headD 0 = 0 ∧ d = 0 ∧ room = true ∧ marred = false ∧ crc = right ∧ link.rx.dropped = false ∧
    p.isShim = (n == 64) ∧ s.chip.inProgress port = [] :=
  ⟨st { full with dict := { active := (pnum 0x10 0x010 5, 1) :: (pnum 0x10 0x010 7, 1) :: [] }, train := [(5, { state := .active, lanes := 3 }), (7, { state := .active, lanes := 3 })], links := [(5, {  }), (7, { tx := { replay := [{ pkt := passing, sending := true, units := 3 }] } })] },
    5, inBlocks (onLine 0 passing 0), by decide +kernel⟩

theorem witness_LinksCarryAndReplay_13 :
    ∃ (s : State) (port : Nat) (blocks : List PortBlock) (w : Waiting), let up := s.chip.portActive port;
    let link := s.chip.link port; let raw := link.rx.stream ++ blocks.flatMap fun b => b.bytes.map fun x => (x, b.bad);
    let bytes := raw.map (·.1); let hdr := wordAt bytes 0; let n := hdr.field 47 35;
    let sound := !headerBad hdr && !(raw.take 8).any (·.2); let data := blocks.all fun b => !b.ctl && b.bytes.length == 32;
    let p := Packet.ofBytes ((bytes.take (n - 4)).drop 8) (n == 64);
    let crc := BitVec.ofNat 32 (natBE ((bytes.take n).drop (n - 4))); let right := crc32c (bytes.take (n - 4));
    let marred := (raw.take n).any (·.2); let pool := hdr.getLsbD 34; let d := (headerLsn hdr - link.rx.expect).toNat;
    let room := link.rx.room p.vc.toNat p.len.toNat pool; s.leavesPadding (fun c => c.linkReceive port blocks) ∧ up = true ∧
    link.rx.lost = false ∧ data = true ∧ sound = true ∧ link.rx.stream.length < n ∧ n ≤ raw.length ∧ raw.length < n + 32 ∧
    (bytes.drop n).headD 0 = 0 ∧ d = 0 ∧ room = true ∧ marred = false ∧ crc = right ∧ link.rx.dropped = false ∧
    p.isShim = (n == 64) ∧ s.chip.inProgress port = [w] ∧ p.cells = w.pkt.len.toNat ∧ w.started = false :=
  ⟨st { full with dict := { active := (pnum 0x10 0x010 5, 1) :: (pnum 0x10 0x010 7, 1) :: [] }, train := [(5, { state := .active, lanes := 3 }), (7, { state := .active, lanes := 3 })], links := [(5, {  }), (7, { tx := { replay := [{ pkt := passing, sending := true, units := 3 }] } })], rt := { waiting := [({ inp := 5, vc := passing.vc.toNat, out := 61, pkt := passing, whole := false } : Waiting)] } },
    5, inBlocks (onLine 0 passing 0),
    ({ inp := 5, vc := passing.vc.toNat, out := 61, pkt := passing, whole := false } : Waiting), by decide +kernel⟩

theorem witness_LinksCarryAndReplay_14 :
    ∃ (s : State) (port : Nat) (blocks : List PortBlock) (w : Waiting), let up := s.chip.portActive port;
    let link := s.chip.link port; let raw := link.rx.stream ++ blocks.flatMap fun b => b.bytes.map fun x => (x, b.bad);
    let bytes := raw.map (·.1); let hdr := wordAt bytes 0; let n := hdr.field 47 35;
    let sound := !headerBad hdr && !(raw.take 8).any (·.2); let data := blocks.all fun b => !b.ctl && b.bytes.length == 32;
    let p := Packet.ofBytes ((bytes.take (n - 4)).drop 8) (n == 64);
    let crc := BitVec.ofNat 32 (natBE ((bytes.take n).drop (n - 4))); let right := crc32c (bytes.take (n - 4));
    let marred := (raw.take n).any (·.2); let pool := hdr.getLsbD 34; let d := (headerLsn hdr - link.rx.expect).toNat;
    let room := link.rx.room p.vc.toNat p.len.toNat pool; s.leavesPadding (fun c => c.linkReceive port blocks) ∧ up = true ∧
    link.rx.lost = false ∧ data = true ∧ sound = true ∧ link.rx.stream.length < n ∧ n ≤ raw.length ∧ raw.length < n + 32 ∧
    (bytes.drop n).headD 0 = 0 ∧ d = 0 ∧ room = true ∧ marred = false ∧ crc = right ∧ link.rx.dropped = false ∧
    p.isShim = (n == 64) ∧ s.chip.inProgress port = [w] ∧ p.cells = w.pkt.len.toNat ∧ w.started = true ∧ 60 ≤ w.out :=
  ⟨st { full with dict := { active := (pnum 0x10 0x010 5, 1) :: (pnum 0x10 0x010 7, 1) :: [] }, train := [(5, { state := .active, lanes := 3 }), (7, { state := .active, lanes := 3 })], links := [(5, {  }), (7, { tx := { replay := [{ pkt := passing, sending := true, units := 3 }] } })], rt := { waiting := [({ inp := 5, vc := passing.vc.toNat, out := 61, pkt := passing, whole := false, started := true } : Waiting)] } },
    5, inBlocks (onLine 0 passing 0),
    ({ inp := 5, vc := passing.vc.toNat, out := 61, pkt := passing, whole := false, started := true } : Waiting),
    by decide +kernel⟩

theorem witness_LinksCarryAndReplay_15 :
    ∃ (s : State) (port : Nat) (blocks : List PortBlock) (w : Waiting), let up := s.chip.portActive port;
    let link := s.chip.link port; let raw := link.rx.stream ++ blocks.flatMap fun b => b.bytes.map fun x => (x, b.bad);
    let bytes := raw.map (·.1); let hdr := wordAt bytes 0; let n := hdr.field 47 35;
    let sound := !headerBad hdr && !(raw.take 8).any (·.2); let data := blocks.all fun b => !b.ctl && b.bytes.length == 32;
    let p := Packet.ofBytes ((bytes.take (n - 4)).drop 8) (n == 64);
    let crc := BitVec.ofNat 32 (natBE ((bytes.take n).drop (n - 4))); let right := crc32c (bytes.take (n - 4));
    let marred := (raw.take n).any (·.2); let pool := hdr.getLsbD 34; let d := (headerLsn hdr - link.rx.expect).toNat;
    let room := link.rx.room p.vc.toNat p.len.toNat pool; s.leavesPadding (fun c => c.linkReceive port blocks) ∧ up = true ∧
    link.rx.lost = false ∧ data = true ∧ sound = true ∧ link.rx.stream.length < n ∧ n ≤ raw.length ∧ raw.length < n + 32 ∧
    (bytes.drop n).headD 0 = 0 ∧ d = 0 ∧ room = true ∧ marred = false ∧ crc = right ∧ link.rx.dropped = false ∧
    p.isShim = (n == 64) ∧ s.chip.inProgress port = [w] ∧ p.cells = w.pkt.len.toNat ∧ w.started = true ∧ w.out < 60 ∧
    (s.chip.link w.out).tx.inPacket = true :=
  ⟨st { full with dict := { active := (pnum 0x10 0x010 5, 1) :: (pnum 0x10 0x010 7, 1) :: [] }, train := [(5, { state := .active, lanes := 3 }), (7, { state := .active, lanes := 3 })], links := [(5, {  }), (7, { tx := { replay := [{ pkt := passing, sending := true, units := 3 }] } })], rt := { waiting := [({ inp := 5, vc := passing.vc.toNat, out := 7, pkt := passing, whole := false, started := true } : Waiting)] } },
    5, inBlocks (onLine 0 passing 0),
    ({ inp := 5, vc := passing.vc.toNat, out := 7, pkt := passing, whole := false, started := true } : Waiting),
    by decide +kernel⟩

theorem witness_LinksCarryAndReplay_16a :
    ∃ (s : State) (port : Nat), let up := s.chip.portActive port; let link := s.chip.link port; s.serving ∧
    (up = false ∨ s.chip.now < link.tx.lcbNext) :=
  ⟨st full, 5, by decide +kernel⟩

theorem witness_LinksCarryAndReplay_16b :
    ∃ (s : State) (port : Nat), let up := s.chip.portActive port; let link := s.chip.link port; s.serving ∧
    (up = false ∨ s.chip.now < link.tx.lcbNext) :=
  ⟨st { full with dict := { active := (pnum 0x10 0x010 5, 1) :: (pnum 0x10 0x010 7, 1) :: [] }, train := [(5, { state := .active, lanes := 3 }), (7, { state := .active, lanes := 3 })], links := [(5, { tx := { lcbNext := 9 } }), (7, { tx := { replay := [{ pkt := passing, sending := true, units := 3 }] } })] },
    5, by decide +kernel⟩

theorem witness_LinksCarryAndReplay_17 :
    ∃ (s : State) (port : Nat), let up := s.chip.portActive port; let link := s.chip.link port; s.serving ∧ up = true ∧
    link.tx.lcbNext ≤ s.chip.now :=
  ⟨st { full with dict := { active := (pnum 0x10 0x010 5, 1) :: (pnum 0x10 0x010 7, 1) :: [] }, train := [(5, { state := .active, lanes := 3 }), (7, { state := .active, lanes := 3 })], links := [(5, { rx := { nakDue := true } }), (7, { tx := { replay := [{ pkt := passing, sending := true, units := 3 }] } })] },
    5, by decide +kernel⟩

theorem witness_LinksCarryAndReplay_18 :
    ∃ (s : State) (port : Nat), let up := s.chip.portActive port; s.serving ∧ up = false :=
  ⟨st full, 5, by decide +kernel⟩

theorem witness_LinksCarryAndReplay_19 :
    ∃ (s : State) (port : Nat) (h : LcbHalves), let up := s.chip.portActive port; s.serving ∧ up = true ∧ h.discarded = true :=
  ⟨st { full with dict := { active := (pnum 0x10 0x010 5, 1) :: (pnum 0x10 0x010 7, 1) :: [] }, train := [(5, { state := .active, lanes := 3 }), (7, { state := .active, lanes := 3 })], links := [(5, {  }), (7, { tx := { replay := [{ pkt := passing, sending := true, units := 3 }] } })] },
    5, { halves {} with adjacent := false }, by decide +kernel⟩

theorem witness_LinksCarryAndReplay_20a :
    ∃ (s : State) (port : Nat) (h : LcbHalves), let up := s.chip.portActive port; let l := h.lcb; up = true ∧
    h.discarded = false ∧ s.serving ∧ l.nakv = false :=
  ⟨st { full with dict := { active := (pnum 0x10 0x010 5, 1) :: (pnum 0x10 0x010 7, 1) :: [] }, train := [(5, { state := .active, lanes := 3 }), (7, { state := .active, lanes := 3 })], links := [(5, { tx := { replay := [{ lsn := 0xFFF, pkt := passing, units := 3 }, { lsn := 0, pkt := passing, units := 3 }], nextLsn := 1 } }), (7, { tx := { replay := [{ pkt := passing, sending := true, units := 3 }] } })] },
    5, halves { ackv := true, ackLsn := 0xFFF, xoff := 9, sop := true, cgrp := 1, freed := [5] }, by decide +kernel⟩

theorem witness_LinksCarryAndReplay_20b :
    ∃ (s : State) (port : Nat) (h : LcbHalves), let up := s.chip.portActive port; let l := h.lcb; up = true ∧
    h.discarded = false ∧ s.serving ∧ l.nakv = false :=
  ⟨st { full with dict := { active := (pnum 0x10 0x010 5, 1) :: (pnum 0x10 0x010 7, 1) :: [] }, train := [(5, { state := .active, lanes := 3 }), (7, { state := .active, lanes := 3 })], links := [(5, { rx := { lost := true }, tx := { replay := [{ lsn := 0xFFF, pkt := passing, units := 3 }, { lsn := 0, pkt := passing, units := 3 }], nextLsn := 1 } }), (7, { tx := { replay := [{ pkt := passing, sending := true, units := 3 }] } })] },
    5, halves { kind := 9, sop := true, cgrp := 3 }, by decide +kernel⟩

theorem witness_LinksCarryAndReplay_21a :
    ∃ (s : State) (port : Nat) (h : LcbHalves), let up := s.chip.portActive port; let link := s.chip.link port;
    let l := h.lcb; let d := link.tx.distance l.ackLsn;
    let left := if l.ackv && decide (d < link.tx.replay.length) then link.tx.replay.drop (d + 1) else link.tx.replay;
    let n := TxSide.distance { link.tx with replay := left } l.nakLsn; up = true ∧ h.discarded = false ∧ s.serving ∧
    l.nakv = true ∧ left.length ≤ n :=
  ⟨st { full with dict := { active := (pnum 0x10 0x010 5, 1) :: (pnum 0x10 0x010 7, 1) :: [] }, train := [(5, { state := .active, lanes := 3 }), (7, { state := .active, lanes := 3 })], links := [(5, { tx := { replay := [{ lsn := 0xFFF, pkt := passing, units := 3 }, { lsn := 0, pkt := passing, units := 3 }], nextLsn := 1 } }), (7, { tx := { replay := [{ pkt := passing, sending := true, units := 3 }] } })] },
    5, halves { nakv := true, nakLsn := 1 }, by decide +kernel⟩

theorem witness_LinksCarryAndReplay_21b :
    ∃ (s : State) (port : Nat) (h : LcbHalves), let up := s.chip.portActive port; let link := s.chip.link port;
    let l := h.lcb; let d := link.tx.distance l.ackLsn;
    let left := if l.ackv && decide (d < link.tx.replay.length) then link.tx.replay.drop (d + 1) else link.tx.replay;
    let n := TxSide.distance { link.tx with replay := left } l.nakLsn; up = true ∧ h.discarded = false ∧ s.serving ∧
    l.nakv = true ∧ left.length ≤ n :=
  ⟨st { full with dict := { active := (pnum 0x10 0x010 5, 1) :: (pnum 0x10 0x010 7, 1) :: [] }, train := [(5, { state := .active, lanes := 3 }), (7, { state := .active, lanes := 3 })], links := [(5, { tx := { replay := [{ lsn := 0xFFF, pkt := passing, units := 3 }, { lsn := 0, pkt := passing, units := 3 }], nextLsn := 1 } }), (7, { tx := { replay := [{ pkt := passing, sending := true, units := 3 }] } })] },
    5, halves { nakv := true, nakLsn := 9 }, by decide +kernel⟩

theorem witness_LinksCarryAndReplay_22a :
    ∃ (s : State) (port : Nat) (h : LcbHalves), let up := s.chip.portActive port; let link := s.chip.link port;
    let l := h.lcb; let d := link.tx.distance l.ackLsn;
    let left := if l.ackv && decide (d < link.tx.replay.length) then link.tx.replay.drop (d + 1) else link.tx.replay;
    let n := TxSide.distance { link.tx with replay := left } l.nakLsn; up = true ∧ h.discarded = false ∧
    s.leavesPadding (fun c => c.lcbReceive port h) ∧ l.nakv = true ∧ n < left.length :=
  ⟨st { full with dict := { active := (pnum 0x10 0x010 5, 1) :: (pnum 0x10 0x010 7, 1) :: [] }, train := [(5, { state := .active, lanes := 3 }), (7, { state := .active, lanes := 3 })], links := [(5, { tx := { replay := [{ lsn := 0xFFF, pkt := passing, units := 3 }, { lsn := 0, pkt := passing, units := 3 }], nextLsn := 1 } }), (7, { tx := { replay := [{ pkt := passing, sending := true, units := 3 }] } })] },
    5, halves { nakv := true, nakLsn := 0 }, by decide +kernel⟩

theorem witness_LinksCarryAndReplay_22b :
    ∃ (s : State) (port : Nat) (h : LcbHalves), let up := s.chip.portActive port; let link := s.chip.link port;
    let l := h.lcb; let d := link.tx.distance l.ackLsn;
    let left := if l.ackv && decide (d < link.tx.replay.length) then link.tx.replay.drop (d + 1) else link.tx.replay;
    let n := TxSide.distance { link.tx with replay := left } l.nakLsn; up = true ∧ h.discarded = false ∧
    s.leavesPadding (fun c => c.lcbReceive port h) ∧ l.nakv = true ∧ n < left.length :=
  ⟨st { full with dict := { active := (pnum 0x10 0x010 5, 1) :: (pnum 0x10 0x010 7, 1) :: [] }, train := [(5, { state := .active, lanes := 3 }), (7, { state := .active, lanes := 3 })], links := [(5, { tx := { replay := [{ lsn := 0xFFF, pkt := passing, units := 3 }, { lsn := 0, pkt := passing, units := 3, sending := true }], nextLsn := 1 } }), (7, { tx := { replay := [{ pkt := passing, sending := true, units := 3 }] } })] },
    5, halves { nakv := true, nakLsn := 0xFFF }, by decide +kernel⟩

theorem witness_LinksCarryAndReplay_23 :
    ∃ (s : State) (port : Nat), let up := s.chip.portActive port; let link := s.chip.link port;
    let late := up && !link.tx.replay.isEmpty && decide (link.tx.lastAdvance + s.chip.param 0x19 0x005 0 ≤ s.chip.now);
    s.serving ∧ late = false :=
  ⟨st full, 5, by decide +kernel⟩

theorem witness_LinksCarryAndReplay_24a :
    ∃ (s : State) (port : Nat), let up := s.chip.portActive port; let link := s.chip.link port;
    let late := up && !link.tx.replay.isEmpty && decide (link.tx.lastAdvance + s.chip.param 0x19 0x005 0 ≤ s.chip.now);
    s.leavesPadding (fun c => c.replayTimeout port) ∧ late = true :=
  ⟨st { full with dict := { active := (pnum 0x10 0x010 5, 1) :: (pnum 0x10 0x010 7, 1) :: [] }, train := [(5, { state := .active, lanes := 3 }), (7, { state := .active, lanes := 3 })], links := [(5, { tx := { replay := [{ lsn := 0xFFF, pkt := passing, units := 3 }, { lsn := 0, pkt := passing, units := 3 }], nextLsn := 1 } }), (7, { tx := { replay := [{ pkt := passing, sending := true, units := 3 }] } })], tb := { now := 1000000 } },
    5, by decide +kernel⟩

theorem witness_LinksCarryAndReplay_24b :
    ∃ (s : State) (port : Nat), let up := s.chip.portActive port; let link := s.chip.link port;
    let late := up && !link.tx.replay.isEmpty && decide (link.tx.lastAdvance + s.chip.param 0x19 0x005 0 ≤ s.chip.now);
    s.leavesPadding (fun c => c.replayTimeout port) ∧ late = true :=
  ⟨st { full with dict := { active := (pnum 0x10 0x010 5, 1) :: (pnum 0x10 0x010 7, 1) :: [] }, train := [(5, { state := .active, lanes := 3 }), (7, { state := .active, lanes := 3 })], links := [(5, { tx := { replay := [{ lsn := 0xFFF, pkt := passing, units := 3 }, { lsn := 0, pkt := passing, units := 3, sending := true }], nextLsn := 1 } }), (7, { tx := { replay := [{ pkt := passing, sending := true, units := 3 }] } })], tb := { now := 1000000 } },
    5, by decide +kernel⟩

theorem witness_LinksCarryAndReplay_25 :
    ∃ (s : State) (port : Nat), let up := s.chip.portActive port; let link := s.chip.link port;
    let shut := up && decide (link.windowAt + 1000 * s.chip.param 0x19 0x011 0 ≤ s.chip.now); s.serving ∧ shut = false :=
  ⟨st full, 5, by decide +kernel⟩

theorem witness_LinksCarryAndReplay_26a :
    ∃ (s : State) (port : Nat), let up := s.chip.portActive port; let link := s.chip.link port;
    let shut := up && decide (link.windowAt + 1000 * s.chip.param 0x19 0x011 0 ≤ s.chip.now);
    let passed := decide (s.chip.param 0x19 0x010 0 < link.windowNaks);
    let run := if passed then link.badWindows + 1 else 0;
    let limit := decide (s.chip.param 0x19 0x012 0 ≤ run) && s.chip.fabUp;
    let quick := passed && link.watching && s.chip.fabUp; s.leaves (fun c => c.degradationWindow port) ∧ shut = true ∧
    (limit = false ∨ s.chip.param 0x19 0x013 port = 0) ∧ quick = false :=
  ⟨st { full with dict := { active := (pnum 0x10 0x010 5, 1) :: (pnum 0x10 0x010 7, 1) :: [] }, train := [(5, { state := .active, lanes := 3 }), (7, { state := .active, lanes := 3 })], links := [(5, { windowNaks := 0 }), (7, { tx := { replay := [{ pkt := passing, sending := true, units := 3 }] } })], tb := { now := 1000000000 } },
    5, by decide +kernel⟩

theorem witness_LinksCarryAndReplay_26b :
    ∃ (s : State) (port : Nat), let up := s.chip.portActive port; let link := s.chip.link port;
    let shut := up && decide (link.windowAt + 1000 * s.chip.param 0x19 0x011 0 ≤ s.chip.now);
    let passed := decide (s.chip.param 0x19 0x010 0 < link.windowNaks);
    let run := if passed then link.badWindows + 1 else 0;
    let limit := decide (s.chip.param 0x19 0x012 0 ≤ run) && s.chip.fabUp;
    let quick := passed && link.watching && s.chip.fabUp; s.leaves (fun c => c.degradationWindow port) ∧ shut = true ∧
    (limit = false ∨ s.chip.param 0x19 0x013 port = 0) ∧ quick = false :=
  ⟨st { full with dict := { active := (pnum 0x10 0x010 5, 1) :: (pnum 0x10 0x010 7, 1) :: [(pnum 0x19 0x013 5, 0), (pnum 0x19 0x012 0, 1), (pnum 0x19 0x010 0, 1)] }, train := [(5, { state := .active, lanes := 3 }), (7, { state := .active, lanes := 3 })], links := [(5, { windowNaks := 9 }), (7, { tx := { replay := [{ pkt := passing, sending := true, units := 3 }] } })], tb := { now := 1000000000 } },
    5, by decide +kernel⟩

theorem witness_LinksCarryAndReplay_26c :
    ∃ (s : State) (port : Nat), let up := s.chip.portActive port; let link := s.chip.link port;
    let shut := up && decide (link.windowAt + 1000 * s.chip.param 0x19 0x011 0 ≤ s.chip.now);
    let passed := decide (s.chip.param 0x19 0x010 0 < link.windowNaks);
    let run := if passed then link.badWindows + 1 else 0;
    let limit := decide (s.chip.param 0x19 0x012 0 ≤ run) && s.chip.fabUp;
    let quick := passed && link.watching && s.chip.fabUp; s.leaves (fun c => c.degradationWindow port) ∧ shut = true ∧
    (limit = false ∨ s.chip.param 0x19 0x013 port = 0) ∧ quick = false :=
  ⟨st { full with dict := { active := (pnum 0x10 0x010 5, 1) :: (pnum 0x10 0x010 7, 1) :: [(pnum 0x19 0x013 5, 1), (pnum 0x19 0x012 0, 5), (pnum 0x19 0x010 0, 1)] }, train := [(5, { state := .active, lanes := 3 }), (7, { state := .active, lanes := 3 })], links := [(5, { windowNaks := 9 }), (7, { tx := { replay := [{ pkt := passing, sending := true, units := 3 }] } })], tb := { now := 1000000000 } },
    5, by decide +kernel⟩

theorem witness_LinksCarryAndReplay_27 :
    ∃ (s : State) (port : Nat), let up := s.chip.portActive port; let link := s.chip.link port;
    let shut := up && decide (link.windowAt + 1000 * s.chip.param 0x19 0x011 0 ≤ s.chip.now);
    let passed := decide (s.chip.param 0x19 0x010 0 < link.windowNaks);
    let quick := passed && link.watching && s.chip.fabUp; let t := s.chip.tport port;
    s.leaves (fun c => c.degradationWindow port) ∧ shut = true ∧ quick = true ∧ t.hs = Handshake.init ∧
    t.lanes ≠ 3 - 2 ^ link.badLane :=
  ⟨st { full with dict := { active := (pnum 0x10 0x010 5, 1) :: (pnum 0x10 0x010 7, 1) :: [(pnum 0x19 0x010 0, 1)] }, train := [(5, { state := .active, lanes := 3 }), (7, { state := .active, lanes := 3 })], links := [(5, { windowNaks := 9, watching := true }), (7, { tx := { replay := [{ pkt := passing, sending := true, units := 3 }] } })], tb := { now := 1000000000 } },
    5, by decide +kernel⟩

theorem witness_LinksCarryAndReplay_28a :
    ∃ (s : State) (port : Nat), let up := s.chip.portActive port; let link := s.chip.link port;
    let shut := up && decide (link.windowAt + 1000 * s.chip.param 0x19 0x011 0 ≤ s.chip.now);
    let passed := decide (s.chip.param 0x19 0x010 0 < link.windowNaks);
    let run := if passed then link.badWindows + 1 else 0;
    let limit := decide (s.chip.param 0x19 0x012 0 ≤ run) && s.chip.fabUp;
    let quick := passed && link.watching && s.chip.fabUp; let t := s.chip.tport port;
    s.leaves (fun c => c.degradationWindow port) ∧ shut = true ∧ limit = true ∧ quick = false ∧ t.hs.own ≠ some 5 ∧
    (2 ≤ s.chip.param 0x19 0x013 port ∨ (s.chip.param 0x19 0x013 port = 1 ∧ (t.lanes ≠ 3 ∨ worstLane link.badWords = none))) :=
  ⟨st { full with dict := { active := (pnum 0x10 0x010 5, 1) :: (pnum 0x10 0x010 7, 1) :: [(pnum 0x19 0x013 5, 2), (pnum 0x19 0x012 0, 1), (pnum 0x19 0x010 0, 1)] }, train := [(5, { state := .active, lanes := 3 }), (7, { state := .active, lanes := 3 })], links := [(5, { windowNaks := 9 }), (7, { tx := { replay := [{ pkt := passing, sending := true, units := 3 }] } })], tb := { now := 1000000000 } },
    5, by decide +kernel⟩

theorem witness_LinksCarryAndReplay_28b :
    ∃ (s : State) (port : Nat), let up := s.chip.portActive port; let link := s.chip.link port;
    let shut := up && decide (link.windowAt + 1000 * s.chip.param 0x19 0x011 0 ≤ s.chip.now);
    let passed := decide (s.chip.param 0x19 0x010 0 < link.windowNaks);
    let run := if passed then link.badWindows + 1 else 0;
    let limit := decide (s.chip.param 0x19 0x012 0 ≤ run) && s.chip.fabUp;
    let quick := passed && link.watching && s.chip.fabUp; let t := s.chip.tport port;
    s.leaves (fun c => c.degradationWindow port) ∧ shut = true ∧ limit = true ∧ quick = false ∧ t.hs.own ≠ some 5 ∧
    (2 ≤ s.chip.param 0x19 0x013 port ∨ (s.chip.param 0x19 0x013 port = 1 ∧ (t.lanes ≠ 3 ∨ worstLane link.badWords = none))) :=
  ⟨st { full with dict := { active := (pnum 0x10 0x010 5, 1) :: (pnum 0x10 0x010 7, 1) :: [(pnum 0x19 0x013 5, 1), (pnum 0x19 0x012 0, 1), (pnum 0x19 0x010 0, 1)] }, train := [(5, { state := .active, lanes := 1 }), (7, { state := .active, lanes := 3 })], links := [(5, { windowNaks := 9 }), (7, { tx := { replay := [{ pkt := passing, sending := true, units := 3 }] } })], tb := { now := 1000000000 } },
    5, by decide +kernel⟩

theorem witness_LinksCarryAndReplay_29 :
    ∃ (s : State) (port : Nat) (l : _), let up := s.chip.portActive port; let link := s.chip.link port;
    let shut := up && decide (link.windowAt + 1000 * s.chip.param 0x19 0x011 0 ≤ s.chip.now);
    let passed := decide (s.chip.param 0x19 0x010 0 < link.windowNaks);
    let run := if passed then link.badWindows + 1 else 0;
    let limit := decide (s.chip.param 0x19 0x012 0 ≤ run) && s.chip.fabUp;
    let quick := passed && link.watching && s.chip.fabUp; let t := s.chip.tport port;
    s.leaves (fun c => c.degradationWindow port) ∧ shut = true ∧ limit = true ∧ quick = false ∧ t.hs = Handshake.init ∧
    s.chip.param 0x19 0x013 port = 1 ∧ t.lanes = 3 ∧ worstLane link.badWords = some l :=
  ⟨st { full with dict := { active := (pnum 0x10 0x010 5, 1) :: (pnum 0x10 0x010 7, 1) :: [(pnum 0x19 0x013 5, 1), (pnum 0x19 0x012 0, 1), (pnum 0x19 0x010 0, 1)] }, train := [(5, { state := .active, lanes := 3 }), (7, { state := .active, lanes := 3 })], links := [(5, { windowNaks := 9, badWords := [(0, 9)] }), (7, { tx := { replay := [{ pkt := passing, sending := true, units := 3 }] } })], tb := { now := 1000000000 } },
    5, 0, by decide +kernel⟩

theorem witness_LinksCarryAndReplay_30a :
    ∃ (s : State) (port : Nat), let up := s.chip.portActive port; let link := s.chip.link port;
    let limit := s.chip.param 0x19 0x015 0; let h := (s.chip.tport port).hs;
    let ready := link.narrowedAt.elim false (fun a => decide (limit ≠ 0) && decide (a + 1000000000 * limit ≤ s.chip.now)) && s.chip.fabUp && up && h.own.isNone && h.switchAt.isNone && h.idleStage == 0 && (s.chip.tport port).lanes != 3;
    s.serving ∧ ready = false :=
  ⟨st full, 5, by decide +kernel⟩

theorem witness_LinksCarryAndReplay_30b :
    ∃ (s : State) (port : Nat), let up := s.chip.portActive port; let link := s.chip.link port;
    let limit := s.chip.param 0x19 0x015 0; let h := (s.chip.tport port).hs;
    let ready := link.narrowedAt.elim false (fun a => decide (limit ≠ 0) && decide (a + 1000000000 * limit ≤ s.chip.now)) && s.chip.fabUp && up && h.own.isNone && h.switchAt.isNone && h.idleStage == 0 && (s.chip.tport port).lanes != 3;
    s.serving ∧ ready = false :=
  ⟨st { full with dict := { active := (pnum 0x10 0x010 5, 1) :: (pnum 0x10 0x010 7, 1) :: [(pnum 0x19 0x015 0, 3)] }, train := [(5, { state := .active, lanes := 1 }), (7, { state := .active, lanes := 3 })], links := [(5, { narrowedAt := some 0 }), (7, { tx := { replay := [{ pkt := passing, sending := true, units := 3 }] } })], tb := { now := 1000000000 } },
    5, by decide +kernel⟩

theorem witness_LinksCarryAndReplay_31 :
    ∃ (s : State) (port : Nat), let up := s.chip.portActive port; let link := s.chip.link port;
    let limit := s.chip.param 0x19 0x015 0; let h := (s.chip.tport port).hs;
    let ready := link.narrowedAt.elim false (fun a => decide (limit ≠ 0) && decide (a + 1000000000 * limit ≤ s.chip.now)) && s.chip.fabUp && up && h.own.isNone && h.switchAt.isNone && h.idleStage == 0 && (s.chip.tport port).lanes != 3;
    s.serving ∧ ready = true :=
  ⟨st { full with dict := { active := (pnum 0x10 0x010 5, 1) :: (pnum 0x10 0x010 7, 1) :: [(pnum 0x19 0x015 0, 1)] }, train := [(5, { state := .active, lanes := 1 }), (7, { state := .active, lanes := 3 })], links := [(5, { narrowedAt := some 0 }), (7, { tx := { replay := [{ pkt := passing, sending := true, units := 3 }] } })], tb := { now := 1000000000 } },
    5, by decide +kernel⟩


end Sys2Proof.Tests
end

