-- ==== Sys2Proof/Tests/WitnessMemory.lean ====
section
/-! SUPPORT. Witnesses: for each statement and each of its clauses, states and operands that meet the hypotheses. -/

namespace Sys2Proof.Tests

set_option Elab.async false

open Sys2Proof Sys2Proof.Machine

/-! MessagesAreTaken, clause by clause. -/

theorem witness_MessagesAreTaken_1a :
    ∃ (s : State) (h : Nat) (p : Packet) (miss : Option CtxKey) (x : Chan), s.leaves (fun c => c.takeRequest h p miss) ∧
    s.chip.expects h p miss x = true ∧ p.kind = 1 ∧ s.chip.messageRefused h p = true :=
  ⟨st (near half), 0, req 1 0 0x0000640000000001 0x0000000400000063 0 [1, 2, 3], none, half, by decide +kernel⟩

theorem witness_MessagesAreTaken_1b :
    ∃ (s : State) (h : Nat) (p : Packet) (miss : Option CtxKey) (x : Chan), s.leaves (fun c => c.takeRequest h p miss) ∧
    s.chip.expects h p miss x = true ∧ p.kind = 1 ∧ s.chip.messageRefused h p = true :=
  ⟨st (near half), 0,
    req 3 0x0000000030000000 0x0000640000000001 0x0000000400000008 5 (bytesBE 4 0xFF000000 ++ bytesBE 2 0 ++ bytesBE 6 64 ++ bytesBE 4 9),
    none, half, by decide +kernel⟩

theorem witness_MessagesAreTaken_2 :
    ∃ (s : State) (h : Nat) (p : Packet) (miss : Option CtxKey) (x : Chan) (q : Queue),
    s.leaves (fun c => c.takeRequest h p miss) ∧ s.chip.expects h p miss x = true ∧ p.kind = 1 ∧
    s.chip.messageRefused h p = false ∧ s.chip.queue? h p.dqn = some q ∧ (x.msg? p.msgid).isNone = true ∧ p.opcode = 1 ∧
    q.recvs = [] :=
  ⟨st (nearRq half []), 0, req 1 0 0x0000640000000001 0x0000000400000008 0 [1, 2, 3], none, half,
    ({ kind := .rq, cqn := 5 } : Queue), by decide +kernel⟩

theorem witness_MessagesAreTaken_3a :
    ∃ (s : State) (h : Nat) (p : Packet) (miss : Option CtxKey) (x : Chan) (q : Queue) (e : _) (r : _),
    let ends := p.pcnt = 1 ∧ p.msgid = x.nextDone; s.leaves (fun c => c.takeRequest h p miss) ∧
    s.chip.expects h p miss x = true ∧ p.kind = 1 ∧ s.chip.messageRefused h p = false ∧ s.chip.queue? h p.dqn = some q ∧
    (x.msg? p.msgid).isNone = true ∧ p.opcode = 1 ∧ q.recvs = e :: r ∧ ¬ends :=
  ⟨st (nearRq half [rbuf]), 0, req 1 0 0x0000640000000001 0x0000000500000008 0 [1, 2, 3], none, half,
    ({ kind := .rq, cqn := 5, recvs := [rbuf] } : Queue), rbuf, [], by decide +kernel⟩

theorem witness_MessagesAreTaken_4 :
    ∃ (s : State) (h : Nat) (p : Packet) (miss : Option CtxKey) (x : Chan) (q : Queue) (e : _) (r : _) (cq : Queue),
    let ends := p.pcnt = 1 ∧ p.msgid = x.nextDone; s.leaves (fun c => c.takeRequest h p miss) ∧
    s.chip.expects h p miss x = true ∧ p.kind = 1 ∧ s.chip.messageRefused h p = false ∧ s.chip.queue? h p.dqn = some q ∧
    (x.msg? p.msgid).isNone = true ∧ p.opcode = 1 ∧ q.recvs = e :: r ∧ ends ∧ x.msgs = [] ∧
    s.chip.cqRoom h q.cqn cq = true ∧ s.chip.hostServed cq.fn = true ∧ s.chip.silentFn q.fn = false :=
  ⟨st (nearRq half [rbuf]), 0, req 1 0 0x0000640000000001 0x0000000400000008 0 [1, 2, 3], none, half,
    ({ kind := .rq, cqn := 5, recvs := [rbuf] } : Queue), rbuf, [], ({ kind := .cq, vecValid := true } : Queue),
    by decide +kernel⟩

theorem witness_MessagesAreTaken_5 :
    ∃ (s : State) (h : Nat) (p : Packet) (miss : Option CtxKey) (x : Chan) (q : Queue) (r : RxMsg) (e : _),
    s.leaves (fun c => c.takeRequest h p miss) ∧ s.chip.expects h p miss x = true ∧ p.kind = 1 ∧
    s.chip.messageRefused h p = false ∧ s.chip.queue? h p.dqn = some q ∧ x.msg? p.msgid = some r ∧ r.buffer = some e ∧
    r.dqn = p.dqn ∧ r.stored = false :=
  ⟨st ({ nearRq ({ half with msgs := [({ msgid := 4, opcode := 1, pcnt := 2, dqn := 8, mctx := 3, got := [0], buffer := some rbuf } : RxMsg)], resolve := 5 } : Chan) [] with mt := { ctxs := [(3, { qn := 8 })] } }),
    0, req 1 0 0x0000650000100002 0x0000000400000008 0 [1, 2, 3], none,
    ({ half with msgs := [({ msgid := 4, opcode := 1, pcnt := 2, dqn := 8, mctx := 3, got := [0], buffer := some rbuf } : RxMsg)], resolve := 5 } : Chan),
    ({ kind := .rq, cqn := 5 } : Queue),
    ({ msgid := 4, opcode := 1, pcnt := 2, dqn := 8, mctx := 3, got := [0], buffer := some rbuf } : RxMsg), rbuf,
    by decide +kernel⟩

theorem witness_MessagesAreTaken_6 :
    ∃ (s : State) (h : Nat) (p : Packet) (miss : Option CtxKey) (x : Chan) (q : Queue) (r : RxMsg) (u : _),
    let k := reqKey h p; let ctx := ctxKey h p.mctx; let fn := s.chip.ctxFn ctx;
    s.leaves (fun c => c.takeRequest h p miss) ∧ s.chip.expects h p miss x = true ∧ p.kind = 1 ∧
    s.chip.messageRefused h p = false ∧ s.chip.queue? h p.dqn = some q ∧ x.msg? p.msgid = some r ∧ r.buffer = none ∧
    r.stored = true ∧ r.mctx = p.mctx ∧ p.opcode = 2 ∧ s.chip.unexp? k p.msgid = some u ∧
    s.chip.storeRoom fn p.payload.length = false :=
  ⟨st { { nearRq ({ half with msgs := [({ msgid := 4, opcode := 2, pcnt := 2, dqn := 8, mctx := 3, got := [0], buffer := none, stored := true } : RxMsg)], resolve := 5 } : Chan) [] with mt := { ctxs := [(3, { qn := 8 })], unexp := [({ ctx := 3, chan := 4, msgid := 4, pcnt := 2 } : Unexp)] } } with dict := { active := (pnum 0x22 0x012 0, 8) :: (pnum 0x22 0x013 0, 8) :: (pnum 0x22 0x014 0, 0) :: exported } },
    0, req 2 0x0000000030000000 0x0000650000100002 0x0000000400000008 5 [1, 2, 3], none,
    ({ half with msgs := [({ msgid := 4, opcode := 2, pcnt := 2, dqn := 8, mctx := 3, got := [0], buffer := none, stored := true } : RxMsg)], resolve := 5 } : Chan),
    ({ kind := .rq, cqn := 5 } : Queue),
    ({ msgid := 4, opcode := 2, pcnt := 2, dqn := 8, mctx := 3, got := [0], buffer := none, stored := true } : RxMsg),
    ({ ctx := 3, chan := 4, msgid := 4, pcnt := 2 } : Unexp), by decide +kernel⟩

theorem witness_MessagesAreTaken_7 :
    ∃ (s : State) (h : Nat) (p : Packet) (miss : Option CtxKey) (x : Chan) (q : Queue) (r : RxMsg) (u : _),
    let k := reqKey h p; let ctx := ctxKey h p.mctx; let fn := s.chip.ctxFn ctx;
    s.leaves (fun c => c.takeRequest h p miss) ∧ s.chip.expects h p miss x = true ∧ p.kind = 1 ∧
    s.chip.messageRefused h p = false ∧ s.chip.queue? h p.dqn = some q ∧ x.msg? p.msgid = some r ∧ r.buffer = none ∧
    r.stored = true ∧ r.mctx = p.mctx ∧ p.opcode = 2 ∧ s.chip.unexp? k p.msgid = some u ∧
    s.chip.storeRoom fn p.payload.length = true :=
  ⟨st ({ nearRq ({ half with msgs := [({ msgid := 4, opcode := 2, pcnt := 2, dqn := 8, mctx := 3, got := [0], buffer := none, stored := true } : RxMsg)], resolve := 5 } : Chan) [] with mt := { ctxs := [(3, { qn := 8 })], unexp := [({ ctx := 3, chan := 4, msgid := 4, pcnt := 2 } : Unexp)] } }),
    0, req 2 0x0000000030000000 0x0000650000100002 0x0000000400000008 5 [1, 2, 3], none,
    ({ half with msgs := [({ msgid := 4, opcode := 2, pcnt := 2, dqn := 8, mctx := 3, got := [0], buffer := none, stored := true } : RxMsg)], resolve := 5 } : Chan),
    ({ kind := .rq, cqn := 5 } : Queue),
    ({ msgid := 4, opcode := 2, pcnt := 2, dqn := 8, mctx := 3, got := [0], buffer := none, stored := true } : RxMsg),
    ({ ctx := 3, chan := 4, msgid := 4, pcnt := 2 } : Unexp), by decide +kernel⟩

theorem witness_MessagesAreTaken_8 :
    ∃ (s : State) (h : Nat) (p : Packet) (miss : Option CtxKey) (x : Chan) (q : Queue) (t : Posted),
    let ctx := ctxKey h p.mctx; let ends := p.pcnt = 1 ∧ p.msgid = x.nextDone;
    let match? := if p.msgid = x.resolve then s.chip.findPosted ctx p.matchBits p.identity else none;
    s.leaves (fun c => c.takeRequest h p miss) ∧ s.chip.expects h p miss x = true ∧ p.kind = 1 ∧
    s.chip.messageRefused h p = false ∧ s.chip.queue? h p.dqn = some q ∧ (x.msg? p.msgid).isNone = true ∧ p.opcode ≠ 1 ∧
    match? = some t ∧ p.opcode = 2 ∧ ¬ends :=
  ⟨st { { nearRq half [] with mt := { ctxs := [(3, { qn := 8 })], posted := [({ ctx := 3, qn := 8, entry := tbuf } : Posted)] } } with tr := { chans := [(4, { half with nextDone := 3 })], resident := [.channel 4, .queue 0 8, .queue 0 5] } },
    0, req 2 0x0000000030000000 0x0000640000000001 0x0000000400000008 5 [1, 2, 3], none, { half with nextDone := 3 },
    ({ kind := .rq, cqn := 5 } : Queue), ({ ctx := 3, qn := 8, entry := tbuf } : Posted), by decide +kernel⟩

theorem witness_MessagesAreTaken_9 :
    ∃ (s : State) (h : Nat) (p : Packet) (miss : Option CtxKey) (x : Chan) (q : Queue) (t : Posted) (cq : Queue),
    let ctx := ctxKey h p.mctx; let ends := p.pcnt = 1 ∧ p.msgid = x.nextDone;
    let match? := if p.msgid = x.resolve then s.chip.findPosted ctx p.matchBits p.identity else none;
    s.leaves (fun c => c.takeRequest h p miss) ∧ s.chip.expects h p miss x = true ∧ p.kind = 1 ∧
    s.chip.messageRefused h p = false ∧ s.chip.queue? h p.dqn = some q ∧ (x.msg? p.msgid).isNone = true ∧ p.opcode ≠ 1 ∧
    match? = some t ∧ p.opcode = 2 ∧ ends ∧ x.msgs = [] ∧ s.chip.cqRoom h q.cqn cq = true ∧ s.chip.hostServed cq.fn = true ∧
    s.chip.silentFn q.fn = false :=
  ⟨st ({ nearRq half [] with mt := { ctxs := [(3, { qn := 8 })], posted := [({ ctx := 3, qn := 8, entry := tbuf } : Posted)] } }),
    0, req 2 0x0000000030000000 0x0000640000000001 0x0000000400000008 5 [1, 2, 3], none, half,
    ({ kind := .rq, cqn := 5 } : Queue), ({ ctx := 3, qn := 8, entry := tbuf } : Posted),
    ({ kind := .cq, vecValid := true } : Queue), by decide +kernel⟩

theorem witness_MessagesAreTaken_10 :
    ∃ (s : State) (h : Nat) (p : Packet) (miss : Option CtxKey) (x : Chan) (q : Queue) (t : Posted), let k := reqKey h p;
    let ctx := ctxKey h p.mctx;
    let match? := if p.msgid = x.resolve then s.chip.findPosted ctx p.matchBits p.identity else none;
    let u := newUnexp h k p false; let take := min u.length t.entry.length; s.leaves (fun c => c.takeRequest h p miss) ∧
    s.chip.expects h p miss x = true ∧ p.kind = 1 ∧ s.chip.messageRefused h p = false ∧ s.chip.queue? h p.dqn = some q ∧
    (x.msg? p.msgid).isNone = true ∧ p.opcode ≠ 1 ∧ match? = some t ∧ p.opcode = 3 ∧ t.qn = p.dqn ∧ take ≠ 0 ∧
    0 < s.chip.param 0x21 0x035 0 ∧ s.chip.offerRecords < 65536 ∧
    (s.chip.localCheck q.fn t.entry.rLkey t.entry.rLaddr take true).allowed = true ∧ s.chip.preFail (chRemote k) = none :=
  ⟨st ({ nearRq half [] with mt := { ctxs := [(3, { qn := 8 })], posted := [({ ctx := 3, qn := 8, entry := tbuf } : Posted)] } }),
    0,
    req 3 0x0000000030000000 0x0000640000000001 0x0000000400000008 5 (bytesBE 4 0xFF000000 ++ bytesBE 2 0 ++ bytesBE 6 64 ++ bytesBE 4 9),
    none, half, ({ kind := .rq, cqn := 5 } : Queue), ({ ctx := 3, qn := 8, entry := tbuf } : Posted), by decide +kernel⟩

theorem witness_MessagesAreTaken_11 :
    ∃ (s : State) (h : Nat) (p : Packet) (miss : Option CtxKey) (x : Chan) (q : Queue), let ctx := ctxKey h p.mctx;
    let match? := if p.msgid = x.resolve then s.chip.findPosted ctx p.matchBits p.identity else none;
    s.leaves (fun c => c.takeRequest h p miss) ∧ s.chip.expects h p miss x = true ∧ p.kind = 1 ∧
    s.chip.messageRefused h p = false ∧ s.chip.queue? h p.dqn = some q ∧ (x.msg? p.msgid).isNone = true ∧ p.opcode ≠ 1 ∧
    match? = none ∧ p.opcode = 2 ∧ 4 < p.pcnt :=
  ⟨st (nearRq half []), 0, req 2 0x0000000030000000 0x0000640000400005 0x0000000400000008 5 [1, 2, 3], none, half,
    ({ kind := .rq, cqn := 5 } : Queue), by decide +kernel⟩

theorem witness_MessagesAreTaken_12a :
    ∃ (s : State) (h : Nat) (p : Packet) (miss : Option CtxKey) (x : Chan) (q : Queue), let ctx := ctxKey h p.mctx;
    let fn := s.chip.ctxFn ctx;
    let match? := if p.msgid = x.resolve then s.chip.findPosted ctx p.matchBits p.identity else none;
    s.leaves (fun c => c.takeRequest h p miss) ∧ s.chip.expects h p miss x = true ∧ p.kind = 1 ∧
    s.chip.messageRefused h p = false ∧ s.chip.queue? h p.dqn = some q ∧ (x.msg? p.msgid).isNone = true ∧ p.opcode ≠ 1 ∧
    match? = none ∧ ((p.opcode = 2 → p.pcnt ≤ 4)) ∧
    (s.chip.unexpRoom fn = false ∨ (p.opcode = 2 ∧ s.chip.storeRoom fn p.payload.length = false)) :=
  ⟨st { nearRq half [] with dict := { active := (pnum 0x22 0x012 0, 8) :: (pnum 0x22 0x013 0, 0) :: exported } }, 0,
    req 2 0x0000000030000000 0x0000640000000001 0x0000000400000008 5 [1, 2, 3], none, half,
    ({ kind := .rq, cqn := 5 } : Queue), by decide +kernel⟩

theorem witness_MessagesAreTaken_12b :
    ∃ (s : State) (h : Nat) (p : Packet) (miss : Option CtxKey) (x : Chan) (q : Queue), let ctx := ctxKey h p.mctx;
    let fn := s.chip.ctxFn ctx;
    let match? := if p.msgid = x.resolve then s.chip.findPosted ctx p.matchBits p.identity else none;
    s.leaves (fun c => c.takeRequest h p miss) ∧ s.chip.expects h p miss x = true ∧ p.kind = 1 ∧
    s.chip.messageRefused h p = false ∧ s.chip.queue? h p.dqn = some q ∧ (x.msg? p.msgid).isNone = true ∧ p.opcode ≠ 1 ∧
    match? = none ∧ ((p.opcode = 2 → p.pcnt ≤ 4)) ∧
    (s.chip.unexpRoom fn = false ∨ (p.opcode = 2 ∧ s.chip.storeRoom fn p.payload.length = false)) :=
  ⟨st { nearRq half [] with dict := { active := (pnum 0x22 0x012 0, 8) :: (pnum 0x22 0x013 0, 8) :: (pnum 0x22 0x014 0, 0) :: exported } },
    0, req 2 0x0000000030000000 0x0000640000000001 0x0000000400000008 5 [1, 2, 3], none, half,
    ({ kind := .rq, cqn := 5 } : Queue), by decide +kernel⟩

theorem witness_MessagesAreTaken_13a :
    ∃ (s : State) (h : Nat) (p : Packet) (miss : Option CtxKey) (x : Chan) (q : Queue), let ctx := ctxKey h p.mctx;
    let fn := s.chip.ctxFn ctx;
    let match? := if p.msgid = x.resolve then s.chip.findPosted ctx p.matchBits p.identity else none;
    s.leaves (fun c => c.takeRequest h p miss) ∧ s.chip.expects h p miss x = true ∧ p.kind = 1 ∧
    s.chip.messageRefused h p = false ∧ s.chip.queue? h p.dqn = some q ∧ (x.msg? p.msgid).isNone = true ∧ p.opcode ≠ 1 ∧
    match? = none ∧ ((p.opcode = 2 → p.pcnt ≤ 4 ∧ s.chip.storeRoom fn p.payload.length = true)) ∧ s.chip.unexpRoom fn = true :=
  ⟨st (nearRq half []), 0, req 2 0x0000000030000000 0x0000640000000001 0x0000000400000008 5 [1, 2, 3], none, half,
    ({ kind := .rq, cqn := 5 } : Queue), by decide +kernel⟩

theorem witness_MessagesAreTaken_13b :
    ∃ (s : State) (h : Nat) (p : Packet) (miss : Option CtxKey) (x : Chan) (q : Queue), let ctx := ctxKey h p.mctx;
    let fn := s.chip.ctxFn ctx;
    let match? := if p.msgid = x.resolve then s.chip.findPosted ctx p.matchBits p.identity else none;
    s.leaves (fun c => c.takeRequest h p miss) ∧ s.chip.expects h p miss x = true ∧ p.kind = 1 ∧
    s.chip.messageRefused h p = false ∧ s.chip.queue? h p.dqn = some q ∧ (x.msg? p.msgid).isNone = true ∧ p.opcode ≠ 1 ∧
    match? = none ∧ ((p.opcode = 2 → p.pcnt ≤ 4 ∧ s.chip.storeRoom fn p.payload.length = true)) ∧ s.chip.unexpRoom fn = true :=
  ⟨st (nearRq half []), 0, req 2 0x0000000030000000 0x0000640000000001 0x0000000600000008 5 [1, 2, 3], none, half,
    ({ kind := .rq, cqn := 5 } : Queue), by decide +kernel⟩

theorem witness_MessagesAreTaken_13c :
    ∃ (s : State) (h : Nat) (p : Packet) (miss : Option CtxKey) (x : Chan) (q : Queue), let ctx := ctxKey h p.mctx;
    let fn := s.chip.ctxFn ctx;
    let match? := if p.msgid = x.resolve then s.chip.findPosted ctx p.matchBits p.identity else none;
    s.leaves (fun c => c.takeRequest h p miss) ∧ s.chip.expects h p miss x = true ∧ p.kind = 1 ∧
    s.chip.messageRefused h p = false ∧ s.chip.queue? h p.dqn = some q ∧ (x.msg? p.msgid).isNone = true ∧ p.opcode ≠ 1 ∧
    match? = none ∧ ((p.opcode = 2 → p.pcnt ≤ 4 ∧ s.chip.storeRoom fn p.payload.length = true)) ∧ s.chip.unexpRoom fn = true :=
  ⟨st (nearRq half []), 0,
    req 3 0x0000000030000000 0x0000640000000001 0x0000000400000008 5 (bytesBE 4 0xFF000000 ++ bytesBE 2 0 ++ bytesBE 6 64 ++ bytesBE 4 9),
    none, half, ({ kind := .rq, cqn := 5 } : Queue), by decide +kernel⟩

/-! CountsNopsSyncsAndClosesAct, clause by clause. -/

theorem witness_CountsNopsSyncsAndClosesAct_1 :
    ∃ (s : State) (h : Nat) (p : Packet) (miss : Option CtxKey) (x : Chan) (t : TCtr), s.chip.expects h p miss x = true ∧
    p.kind = 5 ∧ p.opcode = 0x40 ∧ (x.msg? p.msgid).isNone = true ∧ s.chip.tctr? p.counter = some t ∧ t.owner / 256 = h ∧
    t.remote = true ∧ p.msgid ≠ x.nextDone ∧ s.leaves (fun c => c.takeRequest h p miss) :=
  ⟨st ({ near half with tg := { ctrs := [(7, ({ owner := 0, remote := true, value := 0xFFFFFFFFFFFE } : TCtr))], held := [] } }),
    0, req 64 0 0x0000640000000001 0x0000000500000007 1 [], none, half,
    ({ owner := 0, remote := true, value := 0xFFFFFFFFFFFE } : TCtr), by decide +kernel⟩

theorem witness_CountsNopsSyncsAndClosesAct_2a :
    ∃ (s : State) (h : Nat) (p : Packet) (miss : Option CtxKey) (x : Chan) (t : TCtr), s.chip.expects h p miss x = true ∧
    p.kind = 5 ∧ p.opcode = 0x40 ∧ (x.msg? p.msgid).isNone = true ∧ s.chip.tctr? p.counter = some t ∧ t.owner / 256 = h ∧
    t.remote = true ∧ p.msgid = x.nextDone ∧ x.msgs = [] ∧ s.leavesPlaces (fun c => c.takeRequest h p miss) :=
  ⟨st ({ near half with tg := { ctrs := [(7, ({ owner := 0, remote := true, value := 0xFFFFFFFFFFFE } : TCtr))], held := [] } }),
    0, req 64 0 0x0000640000000001 0x0000000400000007 1 [], none, half,
    ({ owner := 0, remote := true, value := 0xFFFFFFFFFFFE } : TCtr), by decide +kernel⟩

theorem witness_CountsNopsSyncsAndClosesAct_2b :
    ∃ (s : State) (h : Nat) (p : Packet) (miss : Option CtxKey) (x : Chan) (t : TCtr), s.chip.expects h p miss x = true ∧
    p.kind = 5 ∧ p.opcode = 0x40 ∧ (x.msg? p.msgid).isNone = true ∧ s.chip.tctr? p.counter = some t ∧ t.owner / 256 = h ∧
    t.remote = true ∧ p.msgid = x.nextDone ∧ x.msgs = [] ∧ s.leavesPlaces (fun c => c.takeRequest h p miss) :=
  ⟨st ({ near half with tg := { ctrs := [(7, ({ owner := 0, remote := true, value := 0xFFFFFFFFFFFE } : TCtr))], held := [] } }),
    0, req 64 0 0x0000640000000001 0x0000000400000007 9 [], none, half,
    ({ owner := 0, remote := true, value := 0xFFFFFFFFFFFE } : TCtr), by decide +kernel⟩

theorem witness_CountsNopsSyncsAndClosesAct_2c :
    ∃ (s : State) (h : Nat) (p : Packet) (miss : Option CtxKey) (x : Chan) (t : TCtr), s.chip.expects h p miss x = true ∧
    p.kind = 5 ∧ p.opcode = 0x40 ∧ (x.msg? p.msgid).isNone = true ∧ s.chip.tctr? p.counter = some t ∧ t.owner / 256 = h ∧
    t.remote = true ∧ p.msgid = x.nextDone ∧ x.msgs = [] ∧ s.leavesPlaces (fun c => c.takeRequest h p miss) :=
  ⟨st ({ near half with tg := { ctrs := [(7, ({ owner := 0, remote := true, value := 5 } : TCtr))], held := [{ qn := 7, ctr := 7, thresh := 7, entry := ent 0x41 }, { qn := 7, slot := 1, ctr := 7, thresh := 70, entry := ent 0x41 }] } }),
    0, req 64 0 0x0000640000000001 0x0000000400000007 3 [], none, half, ({ owner := 0, remote := true, value := 5 } : TCtr),
    by decide +kernel⟩

theorem witness_CountsNopsSyncsAndClosesAct_3a :
    ∃ (s : State) (h : Nat) (p : Packet) (miss : Option CtxKey) (x : Chan), s.chip.expects h p miss x = true ∧ p.kind = 5 ∧
    p.opcode = 0x40 ∧ (x.msg? p.msgid).isNone = true ∧
    (s.chip.tctr? p.counter).elim true (fun t => t.owner / 256 != h || !t.remote) = true ∧ x.msgs = [] ∧
    s.leaves (fun c => c.takeRequest h p miss) :=
  ⟨st (near half), 0, req 64 0 0x0000640000000001 0x0000000400000007 1 [], none, half, by decide +kernel⟩

theorem witness_CountsNopsSyncsAndClosesAct_3b :
    ∃ (s : State) (h : Nat) (p : Packet) (miss : Option CtxKey) (x : Chan), s.chip.expects h p miss x = true ∧ p.kind = 5 ∧
    p.opcode = 0x40 ∧ (x.msg? p.msgid).isNone = true ∧
    (s.chip.tctr? p.counter).elim true (fun t => t.owner / 256 != h || !t.remote) = true ∧ x.msgs = [] ∧
    s.leaves (fun c => c.takeRequest h p miss) :=
  ⟨st ({ near half with tg := { ctrs := [(7, { owner := 0 })], held := [] } }), 0,
    req 64 0 0x0000640000000001 0x0000000400000007 1 [], none, half, by decide +kernel⟩

theorem witness_CountsNopsSyncsAndClosesAct_4 :
    ∃ (s : State) (h : Nat) (p : Packet) (miss : Option CtxKey) (x : Chan), s.chip.expects h p miss x = true ∧ p.kind = 5 ∧
    p.opcode = 0x41 ∧ s.leaves (fun c => c.takeRequest h p miss) ∧ x.msgs = [] ∧ p.msgid = x.nextDone ∧ p.msgid = x.resolve :=
  ⟨st (near half), 0, req 65 0 0x0000640000000001 0x0000000400000000 0 [], none, half, by decide +kernel⟩

theorem witness_CountsNopsSyncsAndClosesAct_5 :
    ∃ (s : State) (h : Nat) (p : Packet) (miss : Option CtxKey) (x : Chan) (r : RxMsg) (e : Entry) (q : Queue) (cq : Queue),
    s.chip.expects h p miss x = true ∧ p.kind = 5 ∧ p.opcode = 0x41 ∧ s.leaves (fun c => c.takeRequest h p miss) ∧
    x.msgs = [r] ∧ r.msgid = p.msgid ∧ p.msgid = x.nextDone ∧ r.opcode = 1 ∧ r.buffer = some e ∧
    s.chip.queue? h r.dqn = some q ∧ s.chip.silentFn q.fn = false ∧ s.chip.cqRoom h q.cqn cq = true ∧
    s.chip.hostServed cq.fn = true :=
  ⟨st ({ nearRq ({ half with msgs := [({ msgid := 4, opcode := 1, pcnt := 3, dqn := 8, mctx := 3, got := [], buffer := some rbuf } : RxMsg)], resolve := 5 } : Chan) [] with mt := { ctxs := [(3, { qn := 8 })] } }),
    0, req 65 0 0x0000650000000001 0x0000000400000000 0 [], none,
    ({ half with msgs := [({ msgid := 4, opcode := 1, pcnt := 3, dqn := 8, mctx := 3, got := [], buffer := some rbuf } : RxMsg)], resolve := 5 } : Chan),
    ({ msgid := 4, opcode := 1, pcnt := 3, dqn := 8, mctx := 3, got := [], buffer := some rbuf } : RxMsg), rbuf,
    ({ kind := .rq, cqn := 5 } : Queue), ({ kind := .cq, vecValid := true } : Queue), by decide +kernel⟩

theorem witness_CountsNopsSyncsAndClosesAct_6 :
    ∃ (s : State) (h : Nat) (p : Packet) (miss : Option CtxKey) (x : Chan), s.chip.expects h p miss x = true ∧ p.kind = 2 ∧
    miss = none ∧ s.serving ∧ s.chip.closeOf h p = none :=
  ⟨st (near half), 0, req 16 0 0x0000640000000001 0x00000004ff000200 0 [], none, half, by decide +kernel⟩

theorem witness_CountsNopsSyncsAndClosesAct_7a :
    ∃ (s : State) (h : Nat) (p : Packet) (miss : Option CtxKey) (x : Chan) (o : SOffer) (q : Queue) (cq : Queue),
    s.chip.expects h p miss x = true ∧ p.kind = 2 ∧ miss = none ∧ s.chip.closeOf h p = some o ∧
    isOfferIndex (keyIndex p.key) = true ∧ s.chip.mt.sOffers.find? (fun a => a.index == o.index) = some o ∧
    s.leaves (fun c => c.takeRequest h p none) ∧ s.chip.queue? h o.qn = some q ∧ q.kind = .sq ∧ q.failed = [] ∧
    s.chip.silentFn o.fn = false ∧ s.chip.cqRoom h q.cqn cq = true ∧ s.chip.hostServed cq.fn = true ∧ x.msgs = [] :=
  ⟨st { near half with mt := { sOffers := [({ index := 2, chan := 4, dest := 1, qn := 7, length := 8 } : SOffer)] } }, 0,
    req 16 0 0x0000640000000001 0x00000004ff000200 0 [], none, half,
    ({ index := 2, chan := 4, dest := 1, qn := 7, length := 8 } : SOffer), ({ kind := .sq, cqn := 5, pi := 2 } : Queue),
    ({ kind := .cq, vecValid := true } : Queue), by decide +kernel⟩

theorem witness_CountsNopsSyncsAndClosesAct_7b :
    ∃ (s : State) (h : Nat) (p : Packet) (miss : Option CtxKey) (x : Chan) (o : SOffer) (q : Queue) (cq : Queue),
    s.chip.expects h p miss x = true ∧ p.kind = 2 ∧ miss = none ∧ s.chip.closeOf h p = some o ∧
    isOfferIndex (keyIndex p.key) = true ∧ s.chip.mt.sOffers.find? (fun a => a.index == o.index) = some o ∧
    s.leaves (fun c => c.takeRequest h p none) ∧ s.chip.queue? h o.qn = some q ∧ q.kind = .sq ∧ q.failed = [] ∧
    s.chip.silentFn o.fn = false ∧ s.chip.cqRoom h q.cqn cq = true ∧ s.chip.hostServed cq.fn = true ∧ x.msgs = [] :=
  ⟨st { near half with mt := { sOffers := [({ index := 2, chan := 4, dest := 1, qn := 7, length := 8 } : SOffer)] } }, 0,
    req 16 8 0x0000640000000001 0x00000004ff000200 0 [], none, half,
    ({ index := 2, chan := 4, dest := 1, qn := 7, length := 8 } : SOffer), ({ kind := .sq, cqn := 5, pi := 2 } : Queue),
    ({ kind := .cq, vecValid := true } : Queue), by decide +kernel⟩

theorem witness_CountsNopsSyncsAndClosesAct_8a :
    ∃ (s : State) (h : Nat) (p : Packet), let k := reqKey h p; s.leaves (fun c => c.takeRequest h p none) ∧
    p.checkOk = true ∧ s.chip.hostEnabled h = true ∧ isSync p = true ∧
    (match s.chip.chan? k with | none => s.chip.clusterUp 2 && s.chip.hasWay (.channel k) | some x => (s.chip.missed? h k p none).isNone && !(x.synced && x.syncAt == some (p.psn, p.msgid))) = true :=
  ⟨st node, 0, req 0x41 0x0040000000000000 0x0000640000000001 0x0000000400000000 0 [], by decide +kernel⟩

theorem witness_CountsNopsSyncsAndClosesAct_8b :
    ∃ (s : State) (h : Nat) (p : Packet), let k := reqKey h p; s.leaves (fun c => c.takeRequest h p none) ∧
    p.checkOk = true ∧ s.chip.hostEnabled h = true ∧ isSync p = true ∧
    (match s.chip.chan? k with | none => s.chip.clusterUp 2 && s.chip.hasWay (.channel k) | some x => (s.chip.missed? h k p none).isNone && !(x.synced && x.syncAt == some (p.psn, p.msgid))) = true :=
  ⟨st (near half), 0, req 0x41 0x0040000000000000 0x0000640000000001 0x0000000400000000 0 [], by decide +kernel⟩

theorem witness_CountsNopsSyncsAndClosesAct_9 :
    ∃ (s : State) (h : Nat) (p : Packet) (x : Chan), s.leaves (fun c => c.takeRequest h p none) ∧ p.checkOk = true ∧
    s.chip.hostEnabled h = true ∧ isSync p = true ∧ s.chip.reaches h p none x = true ∧ x.synced = true ∧
    x.syncAt = some (p.psn, p.msgid) :=
  ⟨st (near half), 0, req 0x41 0x0040000000000000 0x00005a0000000001 0x0000000300000000 0 [], half, by decide +kernel⟩

/-! FetchesAndHostReadsEnd, clause by clause. -/

theorem witness_FetchesAndHostReadsEnd_1 :
    ∃ (s : State) (ctx : _), s.leaves (fun c => c.contextFetched ctx false) ∧ ((∀ r ∈ s.chip.tr.parked, r.1 ≠ ctx)) :=
  ⟨st node, .queue 0 8, by decide +kernel⟩

theorem witness_FetchesAndHostReadsEnd_2 :
    ∃ (s : State) (ctx : CtxKey) (h : Nat) (p : Packet) (x : Chan),
    let d := { s.chip with tr := { s.chip.tr with parked := s.chip.tr.parked.filter fun r => r.1 != ctx } }.endFetch ctx;
    s.leaves (fun c => c.contextFetched ctx false) ∧ s.chip.tr.parked.filter (fun r => r.1 == ctx) = [(ctx, h, p)] ∧
    d.expects h p none x = true ∧ p.kind = 2 ∧ p.opcode = 0x10 ∧ isOfferIndex (keyIndex p.key) = false ∧
    (d.place (d.writeCheck h p) p.payload 3).2 = none :=
  ⟨st { near half with tr := { chans := [(4, half)], resident := [], parked := [(.channel 4, 0, req 16 64 0x0000640000000001 0x00000004fef00000 0 [1, 2, 3])] } },
    .channel 4, 0, req 16 64 0x0000640000000001 0x00000004fef00000 0 [1, 2, 3], half, by decide +kernel⟩

theorem witness_FetchesAndHostReadsEnd_3 :
    ∃ (s : State) (k : Nat) (x : Chan), s.leaves (fun c => c.contextFetched (.channel k) true) ∧ s.chip.chan? k = some x ∧
    s.chip.chansQuiet = true ∧ ((∀ r ∈ s.chip.tr.parked, r.1 ≠ .channel k)) :=
  ⟨st { peer { sendState := .active } with variant := .ik920 }, 4, { sendState := .active }, by decide +kernel⟩

theorem witness_FetchesAndHostReadsEnd_4a :
    ∃ (s : State) (h : Nat) (qn : Nat) (q : Queue), s.leaves (fun c => c.contextFetched (.queue h qn) true) ∧
    s.chip.queue? h qn = some q ∧ q.state = .active ∧ ((∀ r ∈ s.chip.tr.parked, r.1 ≠ .queue h qn)) :=
  ⟨st { node with variant := .ik920 }, 0, 7, ({ kind := .sq, cqn := 5, pi := 2 } : Queue), by decide +kernel⟩

theorem witness_FetchesAndHostReadsEnd_4b :
    ∃ (s : State) (h : Nat) (qn : Nat) (q : Queue), s.leaves (fun c => c.contextFetched (.queue h qn) true) ∧
    s.chip.queue? h qn = some q ∧ q.state = .active ∧ ((∀ r ∈ s.chip.tr.parked, r.1 ≠ .queue h qn)) :=
  ⟨st { node with variant := .ik920 }, 0, 5, ({ kind := .cq, vecValid := true } : Queue), by decide +kernel⟩

theorem witness_FetchesAndHostReadsEnd_4c :
    ∃ (s : State) (h : Nat) (qn : Nat) (q : Queue), s.leaves (fun c => c.contextFetched (.queue h qn) true) ∧
    s.chip.queue? h qn = some q ∧ q.state = .active ∧ ((∀ r ∈ s.chip.tr.parked, r.1 ≠ .queue h qn)) :=
  ⟨st { node with variant := .ik920 }, 0, 9, ({ kind := .eq } : Queue), by decide +kernel⟩

theorem witness_FetchesAndHostReadsEnd_5 :
    ∃ (s : State) (n : _), s.leaves (fun c => c.contextFetched (.descriptor n) true) ∧
    ((∀ r ∈ s.chip.tr.parked, r.1 ≠ .descriptor n)) :=
  ⟨st { near half with mt := { ctxs := [(3, { qn := 8 })] }, variant := .ik920 }, 3, by decide +kernel⟩

theorem witness_FetchesAndHostReadsEnd_6 :
    ∃ (s : State) (i : Nat) (g : Region), s.leaves (fun c => c.contextFetched (.translation i) true) ∧
    Tab.get? s.chip.mem.regions i = some g ∧ ((∀ r ∈ s.chip.tr.parked, r.1 ≠ .translation i)) :=
  ⟨st { node with variant := .ik920 }, 1, ({ flags := 31, va := 0x1000, length := 4096, pages := [0x8000] } : Region),
    by decide +kernel⟩

theorem witness_FetchesAndHostReadsEnd_7 :
    ∃ (s : State) (h : _) (qn : _), s.serving ∧
    (s.chip.tr.resident.contains (.queue h qn) || s.chip.tr.victims.contains (.queue h qn)) = true :=
  ⟨st (near half), 0, 8, by decide +kernel⟩

theorem witness_FetchesAndHostReadsEnd_8a :
    ∃ (s : State) (h : Nat) (qn : Nat) (q : Queue), s.leaves (fun c => c.contextTimeout h qn) ∧
    s.chip.queue? h qn = some q ∧ q.state = .active ∧
    (s.chip.tr.resident.contains (.queue h qn) || s.chip.tr.victims.contains (.queue h qn)) = false :=
  ⟨st node, 0, 7, ({ kind := .sq, cqn := 5, pi := 2 } : Queue), by decide +kernel⟩

theorem witness_FetchesAndHostReadsEnd_8b :
    ∃ (s : State) (h : Nat) (qn : Nat) (q : Queue), s.leaves (fun c => c.contextTimeout h qn) ∧
    s.chip.queue? h qn = some q ∧ q.state = .active ∧
    (s.chip.tr.resident.contains (.queue h qn) || s.chip.tr.victims.contains (.queue h qn)) = false :=
  ⟨st { node with tr := { parked := [(.queue 0 5, 0, req 1 0 0x0000640000000001 0x0000000400000008 0 [1, 2, 3])] } }, 0,
    5, ({ kind := .cq, vecValid := true } : Queue), by decide +kernel⟩

theorem witness_FetchesAndHostReadsEnd_9 :
    ∃ (s : State) (id : Nat), s.serving ∧ s.chip.tr.hostReads.find? (fun r => r.id == id) = none :=
  ⟨st node, 6, by decide +kernel⟩

theorem witness_FetchesAndHostReadsEnd_10 :
    ∃ (s : State) (id : Nat) (r : HostRead), s.serving ∧ s.chip.tr.hostReads.find? (fun r => r.id == id) = some r ∧
    r.pkt.opcode = 0x20 :=
  ⟨st { node with tr := { chans := [(4, half)], hostReads := [({ id := 6, pkt := req 0x20 64 0x0000640000000001 0x0000000400000100 0x0000000400000000 [] } : HostRead)] } },
    6, ({ id := 6, pkt := req 0x20 64 0x0000640000000001 0x0000000400000100 0x0000000400000000 [] } : HostRead),
    by decide +kernel⟩

theorem witness_FetchesAndHostReadsEnd_11 :
    ∃ (s : State) (id : Nat) (r : HostRead), s.serving ∧ s.chip.tr.hostReads.find? (fun r => r.id == id) = some r ∧
    r.pkt.opcode ≠ 0x20 :=
  ⟨st { node with tr := { chans := [(4, half)], hostReads := [({ id := 6, pkt := req 0x30 64 0x0000640000000001 0x0000000400000100 0x0000000400000000 [] } : HostRead)] } },
    6, ({ id := 6, pkt := req 0x30 64 0x0000640000000001 0x0000000400000100 0x0000000400000000 [] } : HostRead),
    by decide +kernel⟩

theorem witness_FetchesAndHostReadsEnd_12 :
    ∃ (s : State) (id : Nat) (r : HostRead), s.serving ∧ s.chip.tr.hostReads.find? (fun r => r.id == id) = some r :=
  ⟨st { node with tr := { chans := [(4, half)], hostReads := [({ id := 6, pkt := req 0x30 64 0x0000640000000001 0x0000000400000100 0x0000000400000000 [] } : HostRead)] } },
    6, ({ id := 6, pkt := req 0x30 64 0x0000640000000001 0x0000000400000100 0x0000000400000000 [] } : HostRead),
    by decide +kernel⟩

theorem witness_FetchesAndHostReadsEnd_13 :
    ∃ (s : State) (id : Nat) (r : HostRead) (res : HostResult), s.serving ∧
    s.chip.tr.hostReads.find? (fun r => r.id == id) = some r ∧
    (match res with | .data _ => false | .poisoned => false | _ => true) = true :=
  ⟨st { node with tr := { chans := [(4, half)], hostReads := [({ id := 6, pkt := req 0x30 64 0x0000640000000001 0x0000000400000100 0x0000000400000000 [] } : HostRead)] } },
    6, ({ id := 6, pkt := req 0x30 64 0x0000640000000001 0x0000000400000100 0x0000000400000000 [] } : HostRead), .timeout,
    by decide +kernel⟩

/-! CollectiveEntriesJoin, clause by clause. -/

theorem witness_CollectiveEntriesJoin_1 :
    ∃ (s : State) (h : Nat) (qn : Nat) (e : Entry), s.serving ∧ s.chip.takeable h qn e = none :=
  ⟨st node, 0, 77, cent 0x60 0, by decide +kernel⟩

theorem witness_CollectiveEntriesJoin_2 :
    ∃ (s : State) (h : Nat) (qn : Nat) (e : Entry) (data : SourceData) (e' : Entry) (q : Queue),
    let fate := (s.chip.operandOf h q.fn e' data).2;
    let may := !e'.held && !s.chip.sqBad h q.fn e' && s.chip.canPost h e' && (s.chip.variant.collEngines == 0 || fate.isSome);
    s.chip.takeable h qn e = some (q, e') ∧ s.serving ∧ may = false :=
  ⟨st { node with dict := { active := team 2 [] }, co := { nextCseq := [(3, 5)], ops := [{ slot := 3, cseq := 1 }], postCount := [(12, 5)] } },
    0, 7, cent 0x63 8, .bytes [], cent 0x63 8, ({ kind := .sq, cqn := 5, pi := 2 } : Queue), by decide +kernel⟩

theorem witness_CollectiveEntriesJoin_3a :
    ∃ (s : State) (h : Nat) (qn : Nat) (e : Entry) (data : SourceData) (e' : Entry) (q : Queue),
    let fate := (s.chip.operandOf h q.fn e' data).2;
    let may := !e'.held && !s.chip.sqBad h q.fn e' && s.chip.canPost h e' && (s.chip.variant.collEngines == 0 || fate.isSome);
    s.chip.takeable h qn e = some (q, e') ∧ s.leaves (fun c => c.takeCollective h qn e'.opcode e data) ∧ may = true ∧
    s.chip.variant.collEngines = 0 :=
  ⟨st { node with dict := { active := team 2 [] }, variant := .ik920 }, 0, 7, cent 96 0, .bytes [], cent 96 0,
    ({ kind := .sq, cqn := 5, pi := 2 } : Queue), by decide +kernel⟩

theorem witness_CollectiveEntriesJoin_3b :
    ∃ (s : State) (h : Nat) (qn : Nat) (e : Entry) (data : SourceData) (e' : Entry) (q : Queue),
    let fate := (s.chip.operandOf h q.fn e' data).2;
    let may := !e'.held && !s.chip.sqBad h q.fn e' && s.chip.canPost h e' && (s.chip.variant.collEngines == 0 || fate.isSome);
    s.chip.takeable h qn e = some (q, e') ∧ s.leaves (fun c => c.takeCollective h qn e'.opcode e data) ∧ may = true ∧
    s.chip.variant.collEngines = 0 :=
  ⟨st { node with dict := { active := team 2 [] }, variant := .ik920 }, 0, 7, cent 99 8, .bytes [], cent 99 8,
    ({ kind := .sq, cqn := 5, pi := 2 } : Queue), by decide +kernel⟩

theorem witness_CollectiveEntriesJoin_4a :
    ∃ (s : State) (h : Nat) (qn : Nat) (e : Entry) (data : SourceData) (e' : Entry) (q : Queue) (cq : Queue) (a : _),
    let m := e'.mslot; let cseq := s.chip.postSeq m h;
    let recorded := s.chip.co.aborts.find? fun a => a.1 == m && a.2.1 == cseq;
    let fate := (s.chip.operandOf h q.fn e' data).2;
    let x : CPost := { host := h, fn := q.fn, qn := qn, entry := e', rank := (s.chip.mMember m h).elim 0 (·.2), pos := q.nextPos };
    let may := !e'.held && !s.chip.sqBad h q.fn e' && s.chip.canPost h e' && (s.chip.variant.collEngines == 0 || fate.isSome);
    s.chip.takeable h qn e = some (q, e') ∧ s.leaves (fun c => c.takeCollective h qn e'.opcode e data) ∧ may = true ∧
    s.chip.variant.collEngines ≠ 0 ∧ recorded = some a ∧ a.2.2 ≠ 0 ∧
    s.chip.collPost { COp.init with posts := [x] } x q cq = true :=
  ⟨st { node with dict := { active := team 2 [] }, co := { aborts := [(3, 0, 13)], nextCseq := [(3, 1)] } }, 0, 7,
    cent 96 0, .bytes [], cent 96 0, ({ kind := .sq, cqn := 5, pi := 2 } : Queue),
    ({ kind := .cq, vecValid := true } : Queue), (3, 0, 13), by decide +kernel⟩

theorem witness_CollectiveEntriesJoin_4b :
    ∃ (s : State) (h : Nat) (qn : Nat) (e : Entry) (data : SourceData) (e' : Entry) (q : Queue) (cq : Queue) (a : _),
    let m := e'.mslot; let cseq := s.chip.postSeq m h;
    let recorded := s.chip.co.aborts.find? fun a => a.1 == m && a.2.1 == cseq;
    let fate := (s.chip.operandOf h q.fn e' data).2;
    let x : CPost := { host := h, fn := q.fn, qn := qn, entry := e', rank := (s.chip.mMember m h).elim 0 (·.2), pos := q.nextPos };
    let may := !e'.held && !s.chip.sqBad h q.fn e' && s.chip.canPost h e' && (s.chip.variant.collEngines == 0 || fate.isSome);
    s.chip.takeable h qn e = some (q, e') ∧ s.leaves (fun c => c.takeCollective h qn e'.opcode e data) ∧ may = true ∧
    s.chip.variant.collEngines ≠ 0 ∧ recorded = some a ∧ a.2.2 ≠ 0 ∧
    s.chip.collPost { COp.init with posts := [x] } x q cq = true :=
  ⟨st { node with dict := { active := team 2 [] }, co := { aborts := [(3, 0, 13)], nextCseq := [(3, 1)] } }, 0, 7,
    cent 97 8, .bytes [], cent 97 8, ({ kind := .sq, cqn := 5, pi := 2 } : Queue),
    ({ kind := .cq, vecValid := true } : Queue), (3, 0, 13), by decide +kernel⟩

theorem witness_CollectiveEntriesJoin_4c :
    ∃ (s : State) (h : Nat) (qn : Nat) (e : Entry) (data : SourceData) (e' : Entry) (q : Queue) (cq : Queue) (a : _),
    let m := e'.mslot; let cseq := s.chip.postSeq m h;
    let recorded := s.chip.co.aborts.find? fun a => a.1 == m && a.2.1 == cseq;
    let fate := (s.chip.operandOf h q.fn e' data).2;
    let x : CPost := { host := h, fn := q.fn, qn := qn, entry := e', rank := (s.chip.mMember m h).elim 0 (·.2), pos := q.nextPos };
    let may := !e'.held && !s.chip.sqBad h q.fn e' && s.chip.canPost h e' && (s.chip.variant.collEngines == 0 || fate.isSome);
    s.chip.takeable h qn e = some (q, e') ∧ s.leaves (fun c => c.takeCollective h qn e'.opcode e data) ∧ may = true ∧
    s.chip.variant.collEngines ≠ 0 ∧ recorded = some a ∧ a.2.2 ≠ 0 ∧
    s.chip.collPost { COp.init with posts := [x] } x q cq = true :=
  ⟨st { node with dict := { active := team 2 [] }, co := { aborts := [(3, 0, 13)], nextCseq := [(3, 1)] } }, 0, 7,
    cent 100 0, .bytes [], cent 100 0, ({ kind := .sq, cqn := 5, pi := 2 } : Queue),
    ({ kind := .cq, vecValid := true } : Queue), (3, 0, 13), by decide +kernel⟩

theorem witness_CollectiveEntriesJoin_5a :
    ∃ (s : State) (h : Nat) (qn : Nat) (e : Entry) (data : SourceData) (e' : Entry) (q : Queue) (l : _), let m := e'.mslot;
    let cseq := s.chip.postSeq m h; let recorded := s.chip.co.aborts.find? fun a => a.1 == m && a.2.1 == cseq;
    let fate := (s.chip.operandOf h q.fn e' data).2; let scnt := max 1 (divUp e'.collLength 4096);
    let agrees (o : COp) : Bool := o.agrees e'.opcode (collTypes e').1 (collTypes e').2 scnt && o.posts.all fun y => y.entry.collLength == e'.collLength && (isReduction e'.opcode && e'.opcode != 0x62 || e'.opcode == 0x60 || y.entry.rootRank == e'.rootRank);
    let may := !e'.held && !s.chip.sqBad h q.fn e' && s.chip.canPost h e' && (s.chip.variant.collEngines == 0 || fate.isSome);
    s.chip.takeable h qn e = some (q, e') ∧ s.leaves (fun c => c.takeCollective h qn e'.opcode e data) ∧ may = true ∧
    s.chip.variant.collEngines ≠ 0 ∧ recorded = none ∧ s.chip.collEnded m cseq = false ∧ s.chip.collQuiet m = true ∧
    s.chip.collTidy m = true ∧ (s.chip.mParent m).isSome = true ∧ fate = some (.inr l) ∧
    (s.chip.collOp? m cseq).all (fun o => agrees o && o.rising) = true :=
  ⟨st { node with dict := { active := team 2 [] }, co := {} }, 0, 7, cent 96 0, .bytes [], cent 96 0,
    ({ kind := .sq, cqn := 5, pi := 2 } : Queue), [], by decide +kernel⟩

theorem witness_CollectiveEntriesJoin_5b :
    ∃ (s : State) (h : Nat) (qn : Nat) (e : Entry) (data : SourceData) (e' : Entry) (q : Queue) (l : _), let m := e'.mslot;
    let cseq := s.chip.postSeq m h; let recorded := s.chip.co.aborts.find? fun a => a.1 == m && a.2.1 == cseq;
    let fate := (s.chip.operandOf h q.fn e' data).2; let scnt := max 1 (divUp e'.collLength 4096);
    let agrees (o : COp) : Bool := o.agrees e'.opcode (collTypes e').1 (collTypes e').2 scnt && o.posts.all fun y => y.entry.collLength == e'.collLength && (isReduction e'.opcode && e'.opcode != 0x62 || e'.opcode == 0x60 || y.entry.rootRank == e'.rootRank);
    let may := !e'.held && !s.chip.sqBad h q.fn e' && s.chip.canPost h e' && (s.chip.variant.collEngines == 0 || fate.isSome);
    s.chip.takeable h qn e = some (q, e') ∧ s.leaves (fun c => c.takeCollective h qn e'.opcode e data) ∧ may = true ∧
    s.chip.variant.collEngines ≠ 0 ∧ recorded = none ∧ s.chip.collEnded m cseq = false ∧ s.chip.collQuiet m = true ∧
    s.chip.collTidy m = true ∧ (s.chip.mParent m).isSome = true ∧ fate = some (.inr l) ∧
    (s.chip.collOp? m cseq).all (fun o => agrees o && o.rising) = true :=
  ⟨st { node with dict := { active := team 2 [] }, co := {} }, 0, 7, cent 97 8, .bytes [], cent 97 8,
    ({ kind := .sq, cqn := 5, pi := 2 } : Queue), [1, 2, 3, 4, 5, 6, 7, 8], by decide +kernel⟩

theorem witness_CollectiveEntriesJoin_5c :
    ∃ (s : State) (h : Nat) (qn : Nat) (e : Entry) (data : SourceData) (e' : Entry) (q : Queue) (l : _), let m := e'.mslot;
    let cseq := s.chip.postSeq m h; let recorded := s.chip.co.aborts.find? fun a => a.1 == m && a.2.1 == cseq;
    let fate := (s.chip.operandOf h q.fn e' data).2; let scnt := max 1 (divUp e'.collLength 4096);
    let agrees (o : COp) : Bool := o.agrees e'.opcode (collTypes e').1 (collTypes e').2 scnt && o.posts.all fun y => y.entry.collLength == e'.collLength && (isReduction e'.opcode && e'.opcode != 0x62 || e'.opcode == 0x60 || y.entry.rootRank == e'.rootRank);
    let may := !e'.held && !s.chip.sqBad h q.fn e' && s.chip.canPost h e' && (s.chip.variant.collEngines == 0 || fate.isSome);
    s.chip.takeable h qn e = some (q, e') ∧ s.leaves (fun c => c.takeCollective h qn e'.opcode e data) ∧ may = true ∧
    s.chip.variant.collEngines ≠ 0 ∧ recorded = none ∧ s.chip.collEnded m cseq = false ∧ s.chip.collQuiet m = true ∧
    s.chip.collTidy m = true ∧ (s.chip.mParent m).isSome = true ∧ fate = some (.inr l) ∧
    (s.chip.collOp? m cseq).all (fun o => agrees o && o.rising) = true :=
  ⟨st { node with dict := { active := team 2 [] }, co := {} }, 0, 7, cent 98 8, .bytes [], cent 98 8,
    ({ kind := .sq, cqn := 5, pi := 2 } : Queue), [1, 2, 3, 4, 5, 6, 7, 8], by decide +kernel⟩

theorem witness_CollectiveEntriesJoin_5d :
    ∃ (s : State) (h : Nat) (qn : Nat) (e : Entry) (data : SourceData) (e' : Entry) (q : Queue) (l : _), let m := e'.mslot;
    let cseq := s.chip.postSeq m h; let recorded := s.chip.co.aborts.find? fun a => a.1 == m && a.2.1 == cseq;
    let fate := (s.chip.operandOf h q.fn e' data).2; let scnt := max 1 (divUp e'.collLength 4096);
    let agrees (o : COp) : Bool := o.agrees e'.opcode (collTypes e').1 (collTypes e').2 scnt && o.posts.all fun y => y.entry.collLength == e'.collLength && (isReduction e'.opcode && e'.opcode != 0x62 || e'.opcode == 0x60 || y.entry.rootRank == e'.rootRank);
    let may := !e'.held && !s.chip.sqBad h q.fn e' && s.chip.canPost h e' && (s.chip.variant.collEngines == 0 || fate.isSome);
    s.chip.takeable h qn e = some (q, e') ∧ s.leaves (fun c => c.takeCollective h qn e'.opcode e data) ∧ may = true ∧
    s.chip.variant.collEngines ≠ 0 ∧ recorded = none ∧ s.chip.collEnded m cseq = false ∧ s.chip.collQuiet m = true ∧
    s.chip.collTidy m = true ∧ (s.chip.mParent m).isSome = true ∧ fate = some (.inr l) ∧
    (s.chip.collOp? m cseq).all (fun o => agrees o && o.rising) = true :=
  ⟨st { node with dict := { active := team 2 [] }, co := {} }, 0, 7, cent 99 8, .bytes [], cent 99 8,
    ({ kind := .sq, cqn := 5, pi := 2 } : Queue), [1, 2, 3, 4, 5, 6, 7, 8], by decide +kernel⟩

theorem witness_CollectiveEntriesJoin_5e :
    ∃ (s : State) (h : Nat) (qn : Nat) (e : Entry) (data : SourceData) (e' : Entry) (q : Queue) (l : _), let m := e'.mslot;
    let cseq := s.chip.postSeq m h; let recorded := s.chip.co.aborts.find? fun a => a.1 == m && a.2.1 == cseq;
    let fate := (s.chip.operandOf h q.fn e' data).2; let scnt := max 1 (divUp e'.collLength 4096);
    let agrees (o : COp) : Bool := o.agrees e'.opcode (collTypes e').1 (collTypes e').2 scnt && o.posts.all fun y => y.entry.collLength == e'.collLength && (isReduction e'.opcode && e'.opcode != 0x62 || e'.opcode == 0x60 || y.entry.rootRank == e'.rootRank);
    let may := !e'.held && !s.chip.sqBad h q.fn e' && s.chip.canPost h e' && (s.chip.variant.collEngines == 0 || fate.isSome);
    s.chip.takeable h qn e = some (q, e') ∧ s.leaves (fun c => c.takeCollective h qn e'.opcode e data) ∧ may = true ∧
    s.chip.variant.collEngines ≠ 0 ∧ recorded = none ∧ s.chip.collEnded m cseq = false ∧ s.chip.collQuiet m = true ∧
    s.chip.collTidy m = true ∧ (s.chip.mParent m).isSome = true ∧ fate = some (.inr l) ∧
    (s.chip.collOp? m cseq).all (fun o => agrees o && o.rising) = true :=
  ⟨st { node with dict := { active := team 2 [] }, co := {} }, 0, 7, cent 100 0, .bytes [], cent 100 0,
    ({ kind := .sq, cqn := 5, pi := 2 } : Queue), [], by decide +kernel⟩

theorem witness_CollectiveEntriesJoin_5f :
    ∃ (s : State) (h : Nat) (qn : Nat) (e : Entry) (data : SourceData) (e' : Entry) (q : Queue) (l : _), let m := e'.mslot;
    let cseq := s.chip.postSeq m h; let recorded := s.chip.co.aborts.find? fun a => a.1 == m && a.2.1 == cseq;
    let fate := (s.chip.operandOf h q.fn e' data).2; let scnt := max 1 (divUp e'.collLength 4096);
    let agrees (o : COp) : Bool := o.agrees e'.opcode (collTypes e').1 (collTypes e').2 scnt && o.posts.all fun y => y.entry.collLength == e'.collLength && (isReduction e'.opcode && e'.opcode != 0x62 || e'.opcode == 0x60 || y.entry.rootRank == e'.rootRank);
    let may := !e'.held && !s.chip.sqBad h q.fn e' && s.chip.canPost h e' && (s.chip.variant.collEngines == 0 || fate.isSome);
    s.chip.takeable h qn e = some (q, e') ∧ s.leaves (fun c => c.takeCollective h qn e'.opcode e data) ∧ may = true ∧
    s.chip.variant.collEngines ≠ 0 ∧ recorded = none ∧ s.chip.collEnded m cseq = false ∧ s.chip.collQuiet m = true ∧
    s.chip.collTidy m = true ∧ (s.chip.mParent m).isSome = true ∧ fate = some (.inr l) ∧
    (s.chip.collOp? m cseq).all (fun o => agrees o && o.rising) = true :=
  ⟨st { node with dict := { active := team 2 [] }, co := { ops := [{ slot := 3, cseq := 0, known := true, opcode := 0x63, scnt := 1, startedAt := some 0 }], nextCseq := [(3, 1)] } },
    0, 7, cent 99 8, .bytes [], cent 99 8, ({ kind := .sq, cqn := 5, pi := 2 } : Queue), [1, 2, 3, 4, 5, 6, 7, 8],
    by decide +kernel⟩

theorem witness_CollectiveEntriesJoin_6a :
    ∃ (s : State) (h : Nat) (qn : Nat) (e : Entry) (data : SourceData) (e' : Entry) (q : Queue) (cq : Queue),
    let m := e'.mslot; let cseq := s.chip.postSeq m h;
    let recorded := s.chip.co.aborts.find? fun a => a.1 == m && a.2.1 == cseq;
    let fate := (s.chip.operandOf h q.fn e' data).2; let scnt := max 1 (divUp e'.collLength 4096);
    let agrees (o : COp) : Bool := o.agrees e'.opcode (collTypes e').1 (collTypes e').2 scnt && o.posts.all fun y => y.entry.collLength == e'.collLength && (isReduction e'.opcode && e'.opcode != 0x62 || e'.opcode == 0x60 || y.entry.rootRank == e'.rootRank);
    let x : CPost := { host := h, fn := q.fn, qn := qn, entry := e', rank := (s.chip.mMember m h).elim 0 (·.2), pos := q.nextPos };
    let may := !e'.held && !s.chip.sqBad h q.fn e' && s.chip.canPost h e' && (s.chip.variant.collEngines == 0 || fate.isSome);
    let fail := match fate with | some (.inl st) => st | _ => 4; s.chip.takeable h qn e = some (q, e') ∧
    s.leaves (fun c => c.takeCollective h qn e'.opcode e data) ∧ may = true ∧ s.chip.variant.collEngines ≠ 0 ∧
    recorded = none ∧ s.chip.collEnded m cseq = false ∧ s.chip.clusterUp 3 = true ∧ s.chip.fenced 0 = false ∧
    s.chip.rt.fenced = [] ∧ s.chip.collPost { COp.init with posts := [x] } x q cq = true ∧
    s.chip.collOps m = (s.chip.collOp? m cseq).toList ∧
    (s.chip.collOp? m cseq).all (fun o => o.posts.isEmpty && o.rising) = true ∧
    (fate = some (.inl fail) ∨ (s.chip.collOp? m cseq).all agrees = false) :=
  ⟨st { node with dict := { active := team 2 [] }, co := {} }, 0, 7, { cent 0x63 8 with w6 := 0xFF00000000000000 },
    .bytes [], { cent 0x63 8 with w6 := 0xFF00000000000000 }, ({ kind := .sq, cqn := 5, pi := 2 } : Queue),
    ({ kind := .cq, vecValid := true } : Queue), by decide +kernel⟩

theorem witness_CollectiveEntriesJoin_6b :
    ∃ (s : State) (h : Nat) (qn : Nat) (e : Entry) (data : SourceData) (e' : Entry) (q : Queue) (cq : Queue),
    let m := e'.mslot; let cseq := s.chip.postSeq m h;
    let recorded := s.chip.co.aborts.find? fun a => a.1 == m && a.2.1 == cseq;
    let fate := (s.chip.operandOf h q.fn e' data).2; let scnt := max 1 (divUp e'.collLength 4096);
    let agrees (o : COp) : Bool := o.agrees e'.opcode (collTypes e').1 (collTypes e').2 scnt && o.posts.all fun y => y.entry.collLength == e'.collLength && (isReduction e'.opcode && e'.opcode != 0x62 || e'.opcode == 0x60 || y.entry.rootRank == e'.rootRank);
    let x : CPost := { host := h, fn := q.fn, qn := qn, entry := e', rank := (s.chip.mMember m h).elim 0 (·.2), pos := q.nextPos };
    let may := !e'.held && !s.chip.sqBad h q.fn e' && s.chip.canPost h e' && (s.chip.variant.collEngines == 0 || fate.isSome);
    let fail := match fate with | some (.inl st) => st | _ => 4; s.chip.takeable h qn e = some (q, e') ∧
    s.leaves (fun c => c.takeCollective h qn e'.opcode e data) ∧ may = true ∧ s.chip.variant.collEngines ≠ 0 ∧
    recorded = none ∧ s.chip.collEnded m cseq = false ∧ s.chip.clusterUp 3 = true ∧ s.chip.fenced 0 = false ∧
    s.chip.rt.fenced = [] ∧ s.chip.collPost { COp.init with posts := [x] } x q cq = true ∧
    s.chip.collOps m = (s.chip.collOp? m cseq).toList ∧
    (s.chip.collOp? m cseq).all (fun o => o.posts.isEmpty && o.rising) = true ∧
    (fate = some (.inl fail) ∨ (s.chip.collOp? m cseq).all agrees = false) :=
  ⟨st { node with dict := { active := team 2 [] }, co := { ops := [{ slot := 3, cseq := 0, known := true, opcode := 0x62, scnt := 1, startedAt := some 0 }], nextCseq := [(3, 1)] } },
    0, 7, cent 99 8, .bytes [], cent 99 8, ({ kind := .sq, cqn := 5, pi := 2 } : Queue),
    ({ kind := .cq, vecValid := true } : Queue), by decide +kernel⟩

theorem witness_CollectiveEntriesJoin_6c :
    ∃ (s : State) (h : Nat) (qn : Nat) (e : Entry) (data : SourceData) (e' : Entry) (q : Queue) (cq : Queue),
    let m := e'.mslot; let cseq := s.chip.postSeq m h;
    let recorded := s.chip.co.aborts.find? fun a => a.1 == m && a.2.1 == cseq;
    let fate := (s.chip.operandOf h q.fn e' data).2; let scnt := max 1 (divUp e'.collLength 4096);
    let agrees (o : COp) : Bool := o.agrees e'.opcode (collTypes e').1 (collTypes e').2 scnt && o.posts.all fun y => y.entry.collLength == e'.collLength && (isReduction e'.opcode && e'.opcode != 0x62 || e'.opcode == 0x60 || y.entry.rootRank == e'.rootRank);
    let x : CPost := { host := h, fn := q.fn, qn := qn, entry := e', rank := (s.chip.mMember m h).elim 0 (·.2), pos := q.nextPos };
    let may := !e'.held && !s.chip.sqBad h q.fn e' && s.chip.canPost h e' && (s.chip.variant.collEngines == 0 || fate.isSome);
    let fail := match fate with | some (.inl st) => st | _ => 4; s.chip.takeable h qn e = some (q, e') ∧
    s.leaves (fun c => c.takeCollective h qn e'.opcode e data) ∧ may = true ∧ s.chip.variant.collEngines ≠ 0 ∧
    recorded = none ∧ s.chip.collEnded m cseq = false ∧ s.chip.clusterUp 3 = true ∧ s.chip.fenced 0 = false ∧
    s.chip.rt.fenced = [] ∧ s.chip.collPost { COp.init with posts := [x] } x q cq = true ∧
    s.chip.collOps m = (s.chip.collOp? m cseq).toList ∧
    (s.chip.collOp? m cseq).all (fun o => o.posts.isEmpty && o.rising) = true ∧
    (fate = some (.inl fail) ∨ (s.chip.collOp? m cseq).all agrees = false) :=
  ⟨st { node with dict := { active := team 2 [] }, co := { ops := [{ slot := 3, cseq := 0, known := true, opcode := 0x62, scnt := 1, startedAt := some 0 }], nextCseq := [(3, 1)] } },
    0, 7, cent 96 0, .bytes [], cent 96 0, ({ kind := .sq, cqn := 5, pi := 2 } : Queue),
    ({ kind := .cq, vecValid := true } : Queue), by decide +kernel⟩

theorem witness_CollectiveEntriesJoin_7 :
    ∃ (s : State) (h : Nat) (qn : Nat) (e : Entry) (data : SourceData) (e' : Entry) (q : Queue) (cq : Queue),
    let m := e'.mslot; let cseq := s.chip.postSeq m h;
    let recorded := s.chip.co.aborts.find? fun a => a.1 == m && a.2.1 == cseq;
    let fate := (s.chip.operandOf h q.fn e' data).2;
    let x : CPost := { host := h, fn := q.fn, qn := qn, entry := e', rank := (s.chip.mMember m h).elim 0 (·.2), pos := q.nextPos };
    let may := !e'.held && !s.chip.sqBad h q.fn e' && s.chip.canPost h e' && (s.chip.variant.collEngines == 0 || fate.isSome);
    s.chip.takeable h qn e = some (q, e') ∧ s.leaves (fun c => c.takeCollective h qn e'.opcode e data) ∧ may = true ∧
    s.chip.variant.collEngines ≠ 0 ∧ recorded = none ∧ s.chip.collQuiet m = true ∧ s.chip.mParent m = none ∧
    s.chip.mChildren m = [] ∧ (s.chip.mLocals m).length = 1 ∧ s.chip.clusterUp 3 = true ∧ s.chip.collOps m = [] ∧
    s.chip.nextCseq m = cseq ∧ s.chip.collPost { COp.init with posts := [x] } x q cq = true ∧ e'.opcode = 0x60 ∧
    data = .bytes [] :=
  ⟨st { node with dict := { active := team 255 [] }, co := {} }, 0, 7, cent 0x60 0, .bytes [], cent 0x60 0,
    ({ kind := .sq, cqn := 5, pi := 2 } : Queue), ({ kind := .cq, vecValid := true } : Queue), by decide +kernel⟩


end Sys2Proof.Tests
end

