-- ==== Sys2Proof/Tests/WitnessQueues.lean ====
section
/-! SUPPORT. Witnesses: for each statement and each of its clauses, states and operands that meet the hypotheses. -/

namespace Sys2Proof.Tests

set_option Elab.async false

open Sys2Proof Sys2Proof.Machine

/-! QueuesComeAndGo, clause by clause. -/

theorem witness_QueuesComeAndGo_1 :
    ∃ (s : State) (fn : Nat) (e : Entry) (qn : _) (pi : BitVec 32) (ci : BitVec 32) (k : _), let h := fn / 256;
    s.chip.ctlRoom fn = true ∧ s.chip.createReason fn e = 0 ∧ kindOfQtype e.qtype = some k ∧ qn ≠ 0 ∧ qn < 2 ^ 24 ∧
    s.chip.queue? h qn = none ∧ s.serving ∧ (pi - ci).toNat ≤ 2 ^ e.logsize :=
  ⟨st ctlChip, 0, { w0 := 0xC000022000000000, w1 := 5 }, 16777215, (0x0000000F : BitVec 32), (0xFFFFFFFF : BitVec 32),
    .rq, by decide +kernel⟩

theorem witness_QueuesComeAndGo_2 :
    ∃ (s : State) (fn : Nat) (e : Entry) (qn : _) (pi : BitVec 32) (ci : BitVec 32) (k : _), let h := fn / 256;
    s.chip.ctlRoom fn = true ∧ s.chip.createReason fn e = 0 ∧ kindOfQtype e.qtype = some k ∧ qn ≠ 0 ∧ qn < 2 ^ 24 ∧
    s.chip.queue? h qn = none ∧ s.leaves (fun c => c.createQueue fn e qn (.ok pi ci)) ∧ 2 ^ e.logsize < (pi - ci).toNat :=
  ⟨st ctlChip, 0, { w0 := 0xC000022000000000, w1 := 5 }, 16777215, (17 : BitVec 32), (0 : BitVec 32), .rq,
    by decide +kernel⟩

theorem witness_QueuesComeAndGo_3 :
    ∃ (s : State) (fn : Nat) (e : Entry) (qn : _) (k : _), let h := fn / 256; s.chip.ctlRoom fn = true ∧
    s.leaves (fun c => c.createQueue fn e qn .failed) ∧ s.chip.createReason fn e = 0 ∧ kindOfQtype e.qtype = some k ∧
    qn ≠ 0 ∧ qn < 2 ^ 24 ∧ s.chip.queue? h qn = none :=
  ⟨st ctlChip, 0, { w0 := 0xC000022000000000, w1 := 5 }, 16777215, .rq, by decide +kernel⟩

theorem witness_QueuesComeAndGo_4 :
    ∃ (s : State) (fn : Nat) (e : Entry), s.chip.ctlRoom fn = true ∧ s.serving ∧ s.chip.createReason fn e ≠ 0 :=
  ⟨st ctlChip, 0, { w0 := 0xC000061000000000 }, by decide +kernel⟩

theorem witness_QueuesComeAndGo_5 :
    ∃ (s : State) (fn : Nat) (e : Entry), s.chip.ctlRoom fn = true ∧ s.chip.flushing fn e.dqn = false ∧ s.serving ∧
    e.opcode ≠ 0xC2 :=
  ⟨st ctlChip, 0, { w0 := 0xC300000000000007 }, by decide +kernel⟩

theorem witness_QueuesComeAndGo_6 :
    ∃ (s : State) (fn : Nat) (e : Entry), let h := fn / 256; s.chip.ctlRoom fn = true ∧ s.chip.flushing fn e.dqn = false ∧
    s.serving ∧ e.opcode = 0xC2 ∧ ((∀ q, s.chip.queue? h e.dqn = some q → q.fn ≠ fn)) :=
  ⟨st ctlChip, 0, { w0 := 0xC200000000000006 }, by decide +kernel⟩

theorem witness_QueuesComeAndGo_7 :
    ∃ (s : State) (fn : Nat) (e : Entry) (q : Queue) (idx : IndexRead), let h := fn / 256; s.chip.ctlRoom fn = true ∧
    s.chip.flushing fn e.dqn = false ∧ e.opcode = 0xC2 ∧ s.chip.queue? h e.dqn = some q ∧ q.fn = fn ∧ s.serving ∧
    (q.state ≠ .error ∨ idx = .failed ∨ (q.isWork = true ∧ ∀ x, s.chip.queue? h q.cqn = some x → x.state ≠ .active)) :=
  ⟨st ctlChip, 0, { w0 := 0xC200000000000007 }, { kind := .sq, cqn := 5, pi := 2 }, (.ok 0 0 : IndexRead),
    by decide +kernel⟩

theorem witness_QueuesComeAndGo_8 :
    ∃ (s : State) (fn : Nat) (e : Entry) (q : Queue) (cq : Queue) (pi : BitVec 32) (ci : BitVec 32), let h := fn / 256;
    s.chip.ctlRoom fn = true ∧ s.chip.flushing fn e.dqn = false ∧ e.opcode = 0xC2 ∧ s.chip.queue? h e.dqn = some q ∧
    q.fn = fn ∧ s.serving ∧ q.isWork = true ∧ q.state = .error ∧ q.backlog = [] ∧ q.backlogged = false ∧
    s.chip.queue? h q.cqn = some cq ∧ cq.state = .active ∧ (pi - ci).toNat ≤ 2 ^ q.logSize :=
  ⟨st { ctlChip with queues := [(5, { kind := .cq }), (7, { kind := .sq, cqn := 5, state := .error })] }, 0,
    { w0 := 0xC200000000000007 }, ({ kind := .sq, cqn := 5, state := .error } : Queue), ({ kind := .cq } : Queue),
    (1 : BitVec 32), (1 : BitVec 32), by decide +kernel⟩

theorem witness_QueuesComeAndGo_9 :
    ∃ (s : State) (fn : Nat) (e : Entry) (q : Queue) (pi : BitVec 32) (ci : BitVec 32), let h := fn / 256;
    s.chip.ctlRoom fn = true ∧ s.chip.flushing fn e.dqn = false ∧ e.opcode = 0xC2 ∧ s.chip.queue? h e.dqn = some q ∧
    q.fn = fn ∧ s.serving ∧ q.kind = .eq ∧ q.state = .error ∧ q.backlog = [] ∧ q.backlogged = false ∧
    (pi - ci).toNat ≤ 2 ^ q.logSize :=
  ⟨st { ctlChip with queues := [(9, { kind := .eq, state := .error })] }, 0, { w0 := 0xC200000000000009 },
    { kind := .eq, state := .error }, (16 : BitVec 32), (0 : BitVec 32), by decide +kernel⟩

theorem witness_QueuesComeAndGo_10 :
    ∃ (s : State) (fn : Nat) (e : Entry) (q : Queue) (pi : BitVec 32) (ci : BitVec 32), let h := fn / 256;
    s.chip.ctlRoom fn = true ∧ s.chip.flushing fn e.dqn = false ∧ e.opcode = 0xC2 ∧ s.chip.queue? h e.dqn = some q ∧
    q.fn = fn ∧ s.serving ∧ q.kind = .cq ∧ q.state = .error ∧ (pi - ci).toNat + q.backlog.length + 1 ≤ 2 ^ q.logSize :=
  ⟨st { ctlChip with queues := [(5, { kind := .cq, state := .error, lost := 3, backlog := [{ wrid := 9 }], backlogged := true })] },
    0, { w0 := 0xC200000000000005 },
    { kind := .cq, state := .error, lost := 3, backlog := [{ wrid := 9 }], backlogged := true }, (14 : BitVec 32),
    (0 : BitVec 32), by decide +kernel⟩

theorem witness_QueuesComeAndGo_11 :
    ∃ (s : State) (fn : Nat), s.serving ∧ s.chip.ctlReady fn = false :=
  ⟨st node, 0, by decide +kernel⟩

theorem witness_QueuesComeAndGo_12 :
    ∃ (s : State) (fn : Nat) (e : Entry), s.chip.ctlRoom fn = true ∧ s.serving ∧ e.opcode ≠ 0xC1 :=
  ⟨st ctlChip, 0, { w0 := 0xC300000000000007 }, by decide +kernel⟩

theorem witness_QueuesComeAndGo_13 :
    ∃ (s : State) (fn : Nat) (e : Entry), let h := fn / 256; s.chip.ctlRoom fn = true ∧ s.serving ∧ e.opcode = 0xC1 ∧
    ((∀ q, s.chip.queue? h e.dqn = some q → q.fn ≠ fn)) :=
  ⟨st ctlChip, 0, { w0 := 0xC100000000000006 }, by decide +kernel⟩

theorem witness_QueuesComeAndGo_14 :
    ∃ (s : State) (fn : Nat) (e : Entry) (q : Queue), let h := fn / 256; s.chip.ctlRoom fn = true ∧ e.opcode = 0xC1 ∧
    s.chip.queue? h e.dqn = some q ∧ q.fn = fn ∧ s.serving ∧ q.kind = .cq ∧ s.chip.boundTo h e.dqn ≠ [] :=
  ⟨st ctlChip, 0, { w0 := 0xC100000000000005 }, { kind := .cq, vecValid := true }, by decide +kernel⟩

theorem witness_QueuesComeAndGo_15 :
    ∃ (s : State) (fn : Nat) (e : Entry) (q : Queue), let h := fn / 256; s.chip.ctlRoom fn = true ∧ e.opcode = 0xC1 ∧
    s.chip.queue? h e.dqn = some q ∧ q.fn = fn ∧ s.serving ∧ q.isWork = false ∧ s.chip.queueIdle h e.dqn q = true ∧
    (q.kind = .eq ∨ s.chip.boundTo h e.dqn = []) :=
  ⟨st ctlChip, 0, { w0 := 0xC100000000000009 }, { kind := .eq }, by decide +kernel⟩

theorem witness_QueuesComeAndGo_16 :
    ∃ (s : State) (fn : Nat) (e : Entry) (q : Queue), let h := fn / 256; s.chip.ctlRoom fn = true ∧ e.opcode = 0xC1 ∧
    s.chip.queue? h e.dqn = some q ∧ q.fn = fn ∧ s.leaves (fun c => c.destroyQueue fn e) ∧ q.isWork = true ∧
    s.chip.queueIdle h e.dqn q = true ∧ q.unconsumed = 0 :=
  ⟨st { ctlChip with queues := [(5, { kind := .cq }), (8, { kind := .rq, cqn := 5 })] }, 0, { w0 := 0xC100000000000008 },
    { kind := .rq, cqn := 5 }, by decide +kernel⟩

theorem witness_QueuesComeAndGo_17 :
    ∃ (s : State) (fn : Nat) (e : Entry) (q : Queue), let h := fn / 256; s.chip.ctlRoom fn = true ∧ e.opcode = 0xC1 ∧
    s.chip.queue? h e.dqn = some q ∧ q.fn = fn ∧ s.leaves (fun c => { c.destroyQueue fn e with queues := c.queues }) ∧
    q.isWork = true ∧ q.openPos ≠ [] :=
  ⟨st { ctlChip with queues := [(5, { kind := .cq }), (7, { kind := .sq, cqn := 5, pi := 2, openPos := [0] })] }, 0,
    { w0 := 0xC100000000000007 }, { kind := .sq, cqn := 5, pi := 2, openPos := [0] }, by decide +kernel⟩

theorem witness_QueuesComeAndGo_18 :
    ∃ (s : State) (fn : Nat), s.serving ∧ s.chip.ctlReady fn = false :=
  ⟨st node, 0, by decide +kernel⟩

/-! DataAndVeneerEntriesStart, clause by clause. -/

theorem witness_DataAndVeneerEntriesStart_1a :
    ∃ (s : State) (h : Nat) (qn : Nat) (e : Entry) (data : SourceData) (e' : Entry) (q : Queue),
    s.leaves (fun c => c.takeNative h qn e'.opcode e data) ∧ s.chip.takeable h qn e = some (q, e') ∧ e'.held = false ∧
    sqMalformed e' = false ∧ s.chip.canStart h qn e' = true ∧ s.chip.sourceGiven q.fn e' data = true ∧
    s.chip.offered e' = false ∧ s.chip.chanOpen (entryChan h e') = true ∧ e'.opcode = 0x01 :=
  ⟨st node, 0, 7, ent 1, .bytes [1, 2, 3, 4], ent 1, ({ kind := .sq, cqn := 5, pi := 2 } : Queue), by decide +kernel⟩

theorem witness_DataAndVeneerEntriesStart_1b :
    ∃ (s : State) (h : Nat) (qn : Nat) (e : Entry) (data : SourceData) (e' : Entry) (q : Queue),
    s.leaves (fun c => c.takeNative h qn e'.opcode e data) ∧ s.chip.takeable h qn e = some (q, e') ∧ e'.held = false ∧
    sqMalformed e' = false ∧ s.chip.canStart h qn e' = true ∧ s.chip.sourceGiven q.fn e' data = true ∧
    s.chip.offered e' = false ∧ s.chip.chanOpen (entryChan h e') = true ∧ e'.opcode = 0x01 :=
  ⟨st node, 0, 7, { ent 1 with w0 := (ent 1).w0 ||| 0x64000000 }, .bytes [1, 2, 3, 4],
    { ent 1 with w0 := (ent 1).w0 ||| 0x64000000 }, ({ kind := .sq, cqn := 5, pi := 2 } : Queue), by decide +kernel⟩

theorem witness_DataAndVeneerEntriesStart_1c :
    ∃ (s : State) (h : Nat) (qn : Nat) (e : Entry) (data : SourceData) (e' : Entry) (q : Queue),
    s.leaves (fun c => c.takeNative h qn e'.opcode e data) ∧ s.chip.takeable h qn e = some (q, e') ∧ e'.held = false ∧
    sqMalformed e' = false ∧ s.chip.canStart h qn e' = true ∧ s.chip.sourceGiven q.fn e' data = true ∧
    s.chip.offered e' = false ∧ s.chip.chanOpen (entryChan h e') = true ∧ e'.opcode = 0x01 :=
  ⟨st { node with queues := [(5, { kind := .cq }), (7, { kind := .sq, cqn := 5, pi := 2, openPos := [0], nextPos := 1 })] },
    0, 7, { ent 1 with w0 := (ent 1).w0 ||| 0x64000000 }, .bytes [1, 2, 3, 4],
    { ent 1 with w0 := (ent 1).w0 ||| 0x64000000 },
    ({ kind := .sq, cqn := 5, pi := 2, openPos := [0], nextPos := 1 } : Queue), by decide +kernel⟩

theorem witness_DataAndVeneerEntriesStart_2a :
    ∃ (s : State) (h : Nat) (qn : Nat) (e : Entry) (data : SourceData) (e' : Entry) (q : Queue),
    s.leaves (fun c => c.takeNative h qn e'.opcode e data) ∧ s.chip.takeable h qn e = some (q, e') ∧ e'.held = false ∧
    sqMalformed e' = false ∧ s.chip.canStart h qn e' = true ∧ s.chip.sourceGiven q.fn e' data = true ∧
    s.chip.offered e' = false ∧ s.chip.chanOpen (entryChan h e') = true ∧ e'.opcode = 0x02 :=
  ⟨st node, 0, 7, ent 2, .bytes [1, 2, 3, 4], ent 2, ({ kind := .sq, cqn := 5, pi := 2 } : Queue), by decide +kernel⟩

theorem witness_DataAndVeneerEntriesStart_2b :
    ∃ (s : State) (h : Nat) (qn : Nat) (e : Entry) (data : SourceData) (e' : Entry) (q : Queue),
    s.leaves (fun c => c.takeNative h qn e'.opcode e data) ∧ s.chip.takeable h qn e = some (q, e') ∧ e'.held = false ∧
    sqMalformed e' = false ∧ s.chip.canStart h qn e' = true ∧ s.chip.sourceGiven q.fn e' data = true ∧
    s.chip.offered e' = false ∧ s.chip.chanOpen (entryChan h e') = true ∧ e'.opcode = 0x02 :=
  ⟨st node, 0, 7, { ent 2 with w0 := (ent 2).w0 ||| 0x64000000 }, .bytes [1, 2, 3, 4],
    { ent 2 with w0 := (ent 2).w0 ||| 0x64000000 }, ({ kind := .sq, cqn := 5, pi := 2 } : Queue), by decide +kernel⟩

theorem witness_DataAndVeneerEntriesStart_3a :
    ∃ (s : State) (h : Nat) (qn : Nat) (e : Entry) (data : SourceData) (e' : Entry) (q : Queue),
    s.leaves (fun c => c.takeNative h qn e'.opcode e data) ∧ s.chip.takeable h qn e = some (q, e') ∧ e'.held = false ∧
    sqMalformed e' = false ∧ s.chip.canStart h qn e' = true ∧ s.chip.sourceGiven q.fn e' data = true ∧
    s.chip.offered e' = false ∧ s.chip.chanOpen (entryChan h e') = true ∧ e'.opcode = 0x10 :=
  ⟨st node, 0, 7, ent 16, .bytes [1, 2, 3, 4], ent 16, ({ kind := .sq, cqn := 5, pi := 2 } : Queue), by decide +kernel⟩

theorem witness_DataAndVeneerEntriesStart_3b :
    ∃ (s : State) (h : Nat) (qn : Nat) (e : Entry) (data : SourceData) (e' : Entry) (q : Queue),
    s.leaves (fun c => c.takeNative h qn e'.opcode e data) ∧ s.chip.takeable h qn e = some (q, e') ∧ e'.held = false ∧
    sqMalformed e' = false ∧ s.chip.canStart h qn e' = true ∧ s.chip.sourceGiven q.fn e' data = true ∧
    s.chip.offered e' = false ∧ s.chip.chanOpen (entryChan h e') = true ∧ e'.opcode = 0x10 :=
  ⟨st node, 0, 7, ent 16, .failed, ent 16, ({ kind := .sq, cqn := 5, pi := 2 } : Queue), by decide +kernel⟩

theorem witness_DataAndVeneerEntriesStart_4a :
    ∃ (s : State) (h : Nat) (qn : Nat) (e : Entry) (data : SourceData) (e' : Entry) (q : Queue),
    s.leaves (fun c => c.takeNative h qn e'.opcode e data) ∧ s.chip.takeable h qn e = some (q, e') ∧ e'.held = false ∧
    sqMalformed e' = false ∧ s.chip.canStart h qn e' = true ∧ s.chip.sourceGiven q.fn e' data = true ∧
    s.chip.offered e' = false ∧ s.chip.chanOpen (entryChan h e') = true ∧ e'.opcode = 0x11 :=
  ⟨st node, 0, 7, ent 17, .bytes [1, 2, 3, 4], ent 17, ({ kind := .sq, cqn := 5, pi := 2 } : Queue), by decide +kernel⟩

theorem witness_DataAndVeneerEntriesStart_4b :
    ∃ (s : State) (h : Nat) (qn : Nat) (e : Entry) (data : SourceData) (e' : Entry) (q : Queue),
    s.leaves (fun c => c.takeNative h qn e'.opcode e data) ∧ s.chip.takeable h qn e = some (q, e') ∧ e'.held = false ∧
    sqMalformed e' = false ∧ s.chip.canStart h qn e' = true ∧ s.chip.sourceGiven q.fn e' data = true ∧
    s.chip.offered e' = false ∧ s.chip.chanOpen (entryChan h e') = true ∧ e'.opcode = 0x11 :=
  ⟨st node, 0, 7, { ent 17 with w0 := (ent 17).w0 ||| 0x64000000 }, .bytes [1, 2, 3, 4],
    { ent 17 with w0 := (ent 17).w0 ||| 0x64000000 }, ({ kind := .sq, cqn := 5, pi := 2 } : Queue), by decide +kernel⟩

theorem witness_DataAndVeneerEntriesStart_5 :
    ∃ (s : State) (h : Nat) (qn : Nat) (e : Entry), s.serving ∧ s.chip.takeable h qn e = none :=
  ⟨st full, 0, 7, ent 1, by decide +kernel⟩

theorem witness_DataAndVeneerEntriesStart_6 :
    ∃ (s : State) (h : Nat) (qn : Nat) (v : VEntry) (v' : VEntry) (q : Queue) (data : SourceData),
    let e := v'.native q.vclass q.vlkey (s.chip.veneerAddr q v'.loffset);
    s.leaves (fun c => c.takeVeneer h qn (veneerOpcode v'.vop) v data) ∧ s.chip.veneerReady h qn v = some (q, v') ∧
    veneerMalformed q v' = false ∧ s.chip.canStart h qn e = true ∧ s.chip.sourceGiven q.fn e data = true ∧
    s.chip.chanOpen (entryChan h e) = true ∧ v'.vop = 0x00 ∧ data = .bytes [] :=
  ⟨st { node with queues := [(5, { kind := .cq }), (10, { kind := .sq, cqn := 5, veneer := true, vlkey := 0x100, pi := 1 })] },
    0, 10, { vw0 := 0x8000000001000008 }, { vw0 := 0x8000000001000008 },
    { kind := .sq, cqn := 5, veneer := true, vlkey := 0x100, pi := 1 }, .bytes [], by decide +kernel⟩

theorem witness_DataAndVeneerEntriesStart_7 :
    ∃ (s : State) (h : Nat) (qn : Nat) (v : VEntry) (v' : VEntry) (q : Queue) (data : SourceData),
    let e := v'.native q.vclass q.vlkey (s.chip.veneerAddr q v'.loffset);
    s.leaves (fun c => c.takeVeneer h qn (veneerOpcode v'.vop) v data) ∧ s.chip.veneerReady h qn v = some (q, v') ∧
    veneerMalformed q v' = false ∧ s.chip.canStart h qn e = true ∧ s.chip.sourceGiven q.fn e data = true ∧
    s.chip.chanOpen (entryChan h e) = true ∧ v'.vop = 0x01 :=
  ⟨st { node with queues := [(5, { kind := .cq }), (10, { kind := .sq, cqn := 5, veneer := true, vlkey := 0x100, pi := 1 })] },
    0, 10, { vw0 := 0x8100000001000008, vw1 := 4 }, { vw0 := 0x8100000001000008, vw1 := 4 },
    { kind := .sq, cqn := 5, veneer := true, vlkey := 0x100, pi := 1 }, .bytes [1, 2, 3, 4], by decide +kernel⟩

theorem witness_DataAndVeneerEntriesStart_8a :
    ∃ (s : State) (h : Nat) (qn : Nat) (v : VEntry) (v' : VEntry) (q : Queue) (data : SourceData),
    let e := v'.native q.vclass q.vlkey (s.chip.veneerAddr q v'.loffset);
    s.leaves (fun c => c.takeVeneer h qn (veneerOpcode v'.vop) v data) ∧ s.chip.veneerReady h qn v = some (q, v') ∧
    veneerMalformed q v' = false ∧ s.chip.canStart h qn e = true ∧ s.chip.sourceGiven q.fn e data = true ∧
    s.chip.chanOpen (entryChan h e) = true ∧ v'.vop = 0x08 :=
  ⟨st { node with queues := [(5, { kind := .cq }), (10, { kind := .sq, cqn := 5, veneer := true, vlkey := 0x100, pi := 1 })] },
    0, 10, { vw0 := 0x8800000001000008, vw1 := 4 }, { vw0 := 0x8800000001000008, vw1 := 4 },
    { kind := .sq, cqn := 5, veneer := true, vlkey := 0x100, pi := 1 }, .bytes [1, 2, 3, 4], by decide +kernel⟩

theorem witness_DataAndVeneerEntriesStart_8b :
    ∃ (s : State) (h : Nat) (qn : Nat) (v : VEntry) (v' : VEntry) (q : Queue) (data : SourceData),
    let e := v'.native q.vclass q.vlkey (s.chip.veneerAddr q v'.loffset);
    s.leaves (fun c => c.takeVeneer h qn (veneerOpcode v'.vop) v data) ∧ s.chip.veneerReady h qn v = some (q, v') ∧
    veneerMalformed q v' = false ∧ s.chip.canStart h qn e = true ∧ s.chip.sourceGiven q.fn e data = true ∧
    s.chip.chanOpen (entryChan h e) = true ∧ v'.vop = 0x08 :=
  ⟨st { node with queues := [(5, { kind := .cq }), (10, { kind := .sq, cqn := 5, veneer := true, vlkey := 0x100, pi := 1 })] },
    0, 10, { vw0 := 0x8800000001000008, vw1 := 4 }, { vw0 := 0x8800000001000008, vw1 := 4 },
    { kind := .sq, cqn := 5, veneer := true, vlkey := 0x100, pi := 1 }, .failed, by decide +kernel⟩

theorem witness_DataAndVeneerEntriesStart_9 :
    ∃ (s : State) (h : Nat) (qn : Nat) (v : VEntry) (v' : VEntry) (q : Queue) (data : SourceData),
    let e := v'.native q.vclass q.vlkey (s.chip.veneerAddr q v'.loffset);
    s.leaves (fun c => c.takeVeneer h qn (veneerOpcode v'.vop) v data) ∧ s.chip.veneerReady h qn v = some (q, v') ∧
    veneerMalformed q v' = false ∧ s.chip.canStart h qn e = true ∧ s.chip.sourceGiven q.fn e data = true ∧
    s.chip.chanOpen (entryChan h e) = true ∧ v'.vop = 0x10 ∧ data = .bytes [] ∧ e.length ≠ 0 :=
  ⟨st { node with queues := [(5, { kind := .cq }), (10, { kind := .sq, cqn := 5, veneer := true, vlkey := 0x100, pi := 1 })] },
    0, 10, { vw0 := 0x9000000001000008, vw1 := 4096 }, { vw0 := 0x9000000001000008, vw1 := 4096 },
    { kind := .sq, cqn := 5, veneer := true, vlkey := 0x100, pi := 1 }, .bytes [], by decide +kernel⟩

/-! OffersAndReadsStart, clause by clause. -/

theorem witness_OffersAndReadsStart_1a :
    ∃ (s : State) (h : Nat) (qn : Nat) (e : Entry) (e' : Entry) (q : Queue) (data : SourceData),
    s.leaves (fun c => c.takeNative h qn e'.opcode e data) ∧ s.chip.takeable h qn e = some (q, e') ∧ e'.held = false ∧
    sqMalformed e' = false ∧ s.chip.canStart h qn e' = true ∧ s.chip.chanOpen (entryChan h e') = true ∧ e'.opcode = 0x02 ∧
    s.chip.offered e' = true :=
  ⟨st { node with dict := { active := [(pnum 0x22 0x001 0, 3)] } }, 0, 7, ent 2, ent 2,
    ({ kind := .sq, cqn := 5, pi := 2 } : Queue), .failed, by decide +kernel⟩

theorem witness_OffersAndReadsStart_1b :
    ∃ (s : State) (h : Nat) (qn : Nat) (e : Entry) (e' : Entry) (q : Queue) (data : SourceData),
    s.leaves (fun c => c.takeNative h qn e'.opcode e data) ∧ s.chip.takeable h qn e = some (q, e') ∧ e'.held = false ∧
    sqMalformed e' = false ∧ s.chip.canStart h qn e' = true ∧ s.chip.chanOpen (entryChan h e') = true ∧ e'.opcode = 0x02 ∧
    s.chip.offered e' = true :=
  ⟨st { node with mem := {}, dict := { active := [(pnum 0x22 0x001 0, 3)] } }, 0, 7, ent 2, ent 2,
    ({ kind := .sq, cqn := 5, pi := 2 } : Queue), .failed, by decide +kernel⟩

theorem witness_OffersAndReadsStart_2a :
    ∃ (s : State) (h : Nat) (qn : Nat) (e : Entry) (e' : Entry) (q : Queue) (data : SourceData),
    s.leaves (fun c => c.takeNative h qn e'.opcode e data) ∧ s.chip.takeable h qn e = some (q, e') ∧ e'.held = false ∧
    sqMalformed e' = false ∧ s.chip.canStart h qn e' = true ∧ s.chip.chanOpen (entryChan h e') = true ∧ e'.opcode = 0x20 ∧
    data = .bytes [] :=
  ⟨st node, 0, 7, ent 0x20, ent 0x20, ({ kind := .sq, cqn := 5, pi := 2 } : Queue), .bytes [], by decide +kernel⟩

theorem witness_OffersAndReadsStart_2b :
    ∃ (s : State) (h : Nat) (qn : Nat) (e : Entry) (e' : Entry) (q : Queue) (data : SourceData),
    s.leaves (fun c => c.takeNative h qn e'.opcode e data) ∧ s.chip.takeable h qn e = some (q, e') ∧ e'.held = false ∧
    sqMalformed e' = false ∧ s.chip.canStart h qn e' = true ∧ s.chip.chanOpen (entryChan h e') = true ∧ e'.opcode = 0x20 ∧
    data = .bytes [] :=
  ⟨st node, 0, 7, { ent 0x20 with w1 := 0 }, { ent 0x20 with w1 := 0 }, ({ kind := .sq, cqn := 5, pi := 2 } : Queue),
    .bytes [], by decide +kernel⟩

theorem witness_OffersAndReadsStart_2c :
    ∃ (s : State) (h : Nat) (qn : Nat) (e : Entry) (e' : Entry) (q : Queue) (data : SourceData),
    s.leaves (fun c => c.takeNative h qn e'.opcode e data) ∧ s.chip.takeable h qn e = some (q, e') ∧ e'.held = false ∧
    sqMalformed e' = false ∧ s.chip.canStart h qn e' = true ∧ s.chip.chanOpen (entryChan h e') = true ∧ e'.opcode = 0x20 ∧
    data = .bytes [] :=
  ⟨st { node with mem := {} }, 0, 7, ent 0x20, ent 0x20, ({ kind := .sq, cqn := 5, pi := 2 } : Queue), .bytes [],
    by decide +kernel⟩

/-! ControlEntriesStartReceivesWait, clause by clause. -/

theorem witness_ControlEntriesStartReceivesWait_1a :
    ∃ (s : State) (h : Nat) (qn : Nat) (e : Entry) (e' : Entry) (q : Queue),
    s.leaves (fun c => c.takeNative h qn e'.opcode e (.bytes [])) ∧ s.chip.takeable h qn e = some (q, e') ∧
    e'.held = false ∧ sqMalformed e' = false ∧ s.chip.canStart h qn e' = true ∧ s.chip.chanOpen (entryChan h e') = true ∧
    e'.opcode = 0x30 :=
  ⟨st node, 0, 7, ent 48, ent 48, ({ kind := .sq, cqn := 5, pi := 2 } : Queue), by decide +kernel⟩

theorem witness_ControlEntriesStartReceivesWait_1b :
    ∃ (s : State) (h : Nat) (qn : Nat) (e : Entry) (e' : Entry) (q : Queue),
    s.leaves (fun c => c.takeNative h qn e'.opcode e (.bytes [])) ∧ s.chip.takeable h qn e = some (q, e') ∧
    e'.held = false ∧ sqMalformed e' = false ∧ s.chip.canStart h qn e' = true ∧ s.chip.chanOpen (entryChan h e') = true ∧
    e'.opcode = 0x30 :=
  ⟨st node, 0, 7, { ent 48 with w0 := (ent 48).w0 ||| 0x64000000 }, { ent 48 with w0 := (ent 48).w0 ||| 0x64000000 },
    ({ kind := .sq, cqn := 5, pi := 2 } : Queue), by decide +kernel⟩

theorem witness_ControlEntriesStartReceivesWait_2a :
    ∃ (s : State) (h : Nat) (qn : Nat) (e : Entry) (e' : Entry) (q : Queue),
    s.leaves (fun c => c.takeNative h qn e'.opcode e (.bytes [])) ∧ s.chip.takeable h qn e = some (q, e') ∧
    e'.held = false ∧ sqMalformed e' = false ∧ s.chip.canStart h qn e' = true ∧ s.chip.chanOpen (entryChan h e') = true ∧
    e'.opcode = 0x31 :=
  ⟨st node, 0, 7, ent 49, ent 49, ({ kind := .sq, cqn := 5, pi := 2 } : Queue), by decide +kernel⟩

theorem witness_ControlEntriesStartReceivesWait_2b :
    ∃ (s : State) (h : Nat) (qn : Nat) (e : Entry) (e' : Entry) (q : Queue),
    s.leaves (fun c => c.takeNative h qn e'.opcode e (.bytes [])) ∧ s.chip.takeable h qn e = some (q, e') ∧
    e'.held = false ∧ sqMalformed e' = false ∧ s.chip.canStart h qn e' = true ∧ s.chip.chanOpen (entryChan h e') = true ∧
    e'.opcode = 0x31 :=
  ⟨st node, 0, 7, { ent 49 with w0 := (ent 49).w0 ||| 0x64000000 }, { ent 49 with w0 := (ent 49).w0 ||| 0x64000000 },
    ({ kind := .sq, cqn := 5, pi := 2 } : Queue), by decide +kernel⟩

theorem witness_ControlEntriesStartReceivesWait_3a :
    ∃ (s : State) (h : Nat) (qn : Nat) (e : Entry) (e' : Entry) (q : Queue),
    s.leaves (fun c => c.takeNative h qn e'.opcode e (.bytes [])) ∧ s.chip.takeable h qn e = some (q, e') ∧
    e'.held = false ∧ sqMalformed e' = false ∧ s.chip.canStart h qn e' = true ∧ s.chip.chanOpen (entryChan h e') = true ∧
    e'.opcode = 0x32 :=
  ⟨st node, 0, 7, ent 50, ent 50, ({ kind := .sq, cqn := 5, pi := 2 } : Queue), by decide +kernel⟩

theorem witness_ControlEntriesStartReceivesWait_3b :
    ∃ (s : State) (h : Nat) (qn : Nat) (e : Entry) (e' : Entry) (q : Queue),
    s.leaves (fun c => c.takeNative h qn e'.opcode e (.bytes [])) ∧ s.chip.takeable h qn e = some (q, e') ∧
    e'.held = false ∧ sqMalformed e' = false ∧ s.chip.canStart h qn e' = true ∧ s.chip.chanOpen (entryChan h e') = true ∧
    e'.opcode = 0x32 :=
  ⟨st node, 0, 7, { ent 50 with w0 := (ent 50).w0 ||| 0x64000000 }, { ent 50 with w0 := (ent 50).w0 ||| 0x64000000 },
    ({ kind := .sq, cqn := 5, pi := 2 } : Queue), by decide +kernel⟩

theorem witness_ControlEntriesStartReceivesWait_4a :
    ∃ (s : State) (h : Nat) (qn : Nat) (e : Entry) (e' : Entry) (q : Queue),
    s.leaves (fun c => c.takeNative h qn e'.opcode e (.bytes [])) ∧ s.chip.takeable h qn e = some (q, e') ∧
    e'.held = false ∧ sqMalformed e' = false ∧ s.chip.canStart h qn e' = true ∧ s.chip.chanOpen (entryChan h e') = true ∧
    e'.opcode = 0x33 :=
  ⟨st node, 0, 7, ent 51, ent 51, ({ kind := .sq, cqn := 5, pi := 2 } : Queue), by decide +kernel⟩

theorem witness_ControlEntriesStartReceivesWait_4b :
    ∃ (s : State) (h : Nat) (qn : Nat) (e : Entry) (e' : Entry) (q : Queue),
    s.leaves (fun c => c.takeNative h qn e'.opcode e (.bytes [])) ∧ s.chip.takeable h qn e = some (q, e') ∧
    e'.held = false ∧ sqMalformed e' = false ∧ s.chip.canStart h qn e' = true ∧ s.chip.chanOpen (entryChan h e') = true ∧
    e'.opcode = 0x33 :=
  ⟨st node, 0, 7, { ent 51 with w0 := (ent 51).w0 ||| 0x64000000 }, { ent 51 with w0 := (ent 51).w0 ||| 0x64000000 },
    ({ kind := .sq, cqn := 5, pi := 2 } : Queue), by decide +kernel⟩

theorem witness_ControlEntriesStartReceivesWait_5a :
    ∃ (s : State) (h : Nat) (qn : Nat) (e : Entry) (e' : Entry) (q : Queue),
    s.leaves (fun c => c.takeNative h qn e'.opcode e (.bytes [])) ∧ s.chip.takeable h qn e = some (q, e') ∧
    e'.held = false ∧ sqMalformed e' = false ∧ s.chip.canStart h qn e' = true ∧ s.chip.chanOpen (entryChan h e') = true ∧
    e'.opcode = 0x40 :=
  ⟨st node, 0, 7, ent 64, ent 64, ({ kind := .sq, cqn := 5, pi := 2 } : Queue), by decide +kernel⟩

theorem witness_ControlEntriesStartReceivesWait_5b :
    ∃ (s : State) (h : Nat) (qn : Nat) (e : Entry) (e' : Entry) (q : Queue),
    s.leaves (fun c => c.takeNative h qn e'.opcode e (.bytes [])) ∧ s.chip.takeable h qn e = some (q, e') ∧
    e'.held = false ∧ sqMalformed e' = false ∧ s.chip.canStart h qn e' = true ∧ s.chip.chanOpen (entryChan h e') = true ∧
    e'.opcode = 0x40 :=
  ⟨st node, 0, 7, { ent 64 with w0 := (ent 64).w0 ||| 0x64000000 }, { ent 64 with w0 := (ent 64).w0 ||| 0x64000000 },
    ({ kind := .sq, cqn := 5, pi := 2 } : Queue), by decide +kernel⟩

theorem witness_ControlEntriesStartReceivesWait_6a :
    ∃ (s : State) (h : Nat) (qn : Nat) (e : Entry) (e' : Entry) (q : Queue),
    s.leaves (fun c => c.takeNative h qn e'.opcode e (.bytes [])) ∧ s.chip.takeable h qn e = some (q, e') ∧
    e'.held = false ∧ sqMalformed e' = false ∧ s.chip.canStart h qn e' = true ∧ s.chip.chanOpen (entryChan h e') = true ∧
    e'.opcode = 0x41 :=
  ⟨st node, 0, 7, ent 65, ent 65, ({ kind := .sq, cqn := 5, pi := 2 } : Queue), by decide +kernel⟩

theorem witness_ControlEntriesStartReceivesWait_6b :
    ∃ (s : State) (h : Nat) (qn : Nat) (e : Entry) (e' : Entry) (q : Queue),
    s.leaves (fun c => c.takeNative h qn e'.opcode e (.bytes [])) ∧ s.chip.takeable h qn e = some (q, e') ∧
    e'.held = false ∧ sqMalformed e' = false ∧ s.chip.canStart h qn e' = true ∧ s.chip.chanOpen (entryChan h e') = true ∧
    e'.opcode = 0x41 :=
  ⟨st node, 0, 7, { ent 65 with w0 := (ent 65).w0 ||| 0x64000000 }, { ent 65 with w0 := (ent 65).w0 ||| 0x64000000 },
    ({ kind := .sq, cqn := 5, pi := 2 } : Queue), by decide +kernel⟩

theorem witness_ControlEntriesStartReceivesWait_7 :
    ∃ (s : State) (h : Nat) (qn : Nat) (e : Entry), s.serving ∧ s.chip.takeable h qn e = none :=
  ⟨st full, 0, 7, ent 1, by decide +kernel⟩

theorem witness_ControlEntriesStartReceivesWait_8 :
    ∃ (s : State) (h : Nat) (qn : Nat) (e : Entry) (e' : Entry) (q : Queue), s.chip.recvReady h qn e = some (q, e') ∧
    recvMalformed e' = false ∧ s.serving ∧ e'.opcode = 0xE0 :=
  ⟨st node, 0, 8, { w0 := 0xE000000000000000, w1 := 64 }, { w0 := 0xE000000000000000, w1 := 64 },
    ({ kind := .rq, cqn := 5, pi := 2 } : Queue), by decide +kernel⟩

theorem witness_ControlEntriesStartReceivesWait_9 :
    ∃ (s : State) (h : Nat) (qn : Nat) (e : Entry) (e' : Entry) (q : Queue) (deferred : _), let ctx := ctxKey h e'.rMctx;
    let bound := (s.chip.mctx? ctx).elim false fun m => m.qn == qn;
    let detained := s.chip.mt.waiting.any fun r => waitCtx r == ctx; s.chip.recvReady h qn e = some (q, e') ∧
    recvMalformed e' = false ∧ e'.opcode = 0xE1 ∧ s.serving ∧ ((bound = true → s.chip.postedRoom q.fn = true)) ∧
    (deferred = true ∨ detained = true) ∧
    (s.chip.mt.waiting.filter fun r => s.chip.engineUnit (waitCtx r) == s.chip.engineUnit ctx).length < 64 :=
  ⟨st { node with dict := { active := [(pnum 0x22 0x012 0, 10)] } }, 0, 8, { w0 := 0xE100000000000000, w1 := 64 },
    { w0 := 0xE100000000000000, w1 := 64 }, ({ kind := .rq, cqn := 5, pi := 2 } : Queue), true, by decide +kernel⟩

theorem witness_ControlEntriesStartReceivesWait_10 :
    ∃ (s : State) (h : Nat) (qn : Nat) (e : Entry) (e' : Entry) (q : Queue) (m : MCtx), let ctx := ctxKey h e'.rMctx;
    let detained := s.chip.mt.waiting.any fun r => waitCtx r == ctx; s.chip.recvReady h qn e = some (q, e') ∧
    recvMalformed e' = false ∧ e'.opcode = 0xE1 ∧ s.serving ∧ s.chip.mctx? ctx = some m ∧ m.qn = qn ∧
    s.chip.postedRoom q.fn = true ∧ detained = false ∧ s.chip.findUnexp ctx e' = none :=
  ⟨st { node with dict := { active := [(pnum 0x22 0x012 0, 10)] }, mt := { ctxs := [(0, { qn := 8 })] } }, 0, 8,
    { w0 := 0xE100000000000000, w1 := 64 }, { w0 := 0xE100000000000000, w1 := 64 },
    ({ kind := .rq, cqn := 5, pi := 2 } : Queue), { qn := 8 }, by decide +kernel⟩

theorem witness_ControlEntriesStartReceivesWait_11 :
    ∃ (s : State) (h : Nat) (qn : Nat) (e : Entry) (e' : Entry) (q : Queue) (m : MCtx) (u : Unexp),
    let ctx := ctxKey h e'.rMctx; let detained := s.chip.mt.waiting.any fun r => waitCtx r == ctx;
    s.chip.recvReady h qn e = some (q, e') ∧ recvMalformed e' = false ∧ e'.opcode = 0xE1 ∧ s.serving ∧
    s.chip.mctx? ctx = some m ∧ m.qn = qn ∧ s.chip.postedRoom q.fn = true ∧ detained = false ∧
    s.chip.findUnexp ctx e' = some u ∧ u.isOffer = false :=
  ⟨st { node with dict := { active := [(pnum 0x22 0x012 0, 10)] }, mt := { ctxs := [(0, { qn := 8 })], unexp := [{ msgid := 3 }] } },
    0, 8, { w0 := 0xE100000000000000, w1 := 64 }, { w0 := 0xE100000000000000, w1 := 64 },
    ({ kind := .rq, cqn := 5, pi := 2 } : Queue), { qn := 8 }, { msgid := 3 }, by decide +kernel⟩

theorem witness_ControlEntriesStartReceivesWait_12 :
    ∃ (s : State) (h : Nat) (qn : Nat) (e : Entry) (e' : Entry) (q : Queue) (cq : Queue), let ctx := ctxKey h e'.rMctx;
    let bound := (s.chip.mctx? ctx).elim false fun m => m.qn == qn;
    let detained := s.chip.mt.waiting.any fun r => waitCtx r == ctx; s.chip.recvReady h qn e = some (q, e') ∧
    recvMalformed e' = false ∧ e'.opcode = 0xE1 ∧ s.leaves (fun c => c.takeTaggedRecv h qn e false) ∧ bound = false ∧
    detained = false ∧ s.chip.cqRoom h q.cqn cq = true ∧ s.chip.hostServed cq.fn = true :=
  ⟨st node, 0, 8, { w0 := 0xE100000000000000, w1 := 64 }, { w0 := 0xE100000000000000, w1 := 64 },
    ({ kind := .rq, cqn := 5, pi := 2 } : Queue), { kind := .cq, vecValid := true }, by decide +kernel⟩

theorem witness_ControlEntriesStartReceivesWait_13 :
    ∃ (s : State) (h : Nat) (qn : Nat) (e : Entry) (e' : Entry) (q : Queue),
    s.leaves (fun c => c.takeMalformedEntry h qn e) ∧ s.chip.takeable h qn e = some (q, e') ∧ s.chip.sqBad h q.fn e' = true :=
  ⟨st node, 0, 7, { w0 := 0x7700000000000000 }, { w0 := 0x7700000000000000 },
    ({ kind := .sq, cqn := 5, pi := 2 } : Queue), by decide +kernel⟩

theorem witness_ControlEntriesStartReceivesWait_14 :
    ∃ (s : State) (h : Nat) (qn : Nat) (e : Entry) (q : Queue) (v : VEntry),
    s.leaves (fun c => c.takeMalformedEntry h qn e) ∧ s.chip.veneerReady h qn (asVeneer e) = some (q, v) ∧
    veneerMalformed q v = true :=
  ⟨st { node with queues := [(5, { kind := .cq }), (10, { kind := .sq, cqn := 5, veneer := true, vlkey := 0x100, pi := 1 })] },
    0, 10, {}, { kind := .sq, cqn := 5, veneer := true, vlkey := 0x100, pi := 1 }, {}, by decide +kernel⟩

theorem witness_ControlEntriesStartReceivesWait_15 :
    ∃ (s : State) (h : Nat) (qn : Nat) (e : Entry) (e' : Entry) (q : Queue) (cq : Queue),
    s.leaves (fun c => c.takeMalformedEntry h qn e) ∧ s.chip.recvReady h qn e = some (q, e') ∧ recvMalformed e' = true ∧
    s.chip.cqRoom h q.cqn cq = true ∧ s.chip.hostServed cq.fn = true :=
  ⟨st node, 0, 8, {}, {}, ({ kind := .rq, cqn := 5, pi := 2 } : Queue), { kind := .cq, vecValid := true },
    by decide +kernel⟩

/-! CounterCommandsAct, clause by clause. -/

theorem witness_CounterCommandsAct_1 :
    ∃ (s : State) (w : Writer) (fn : Nat) (n : Nat),
    let full := s.chip.param 0x23 0x003 fn ≤ (s.chip.tg.ctrs.filter fun r => r.2.owner == fn).length;
    s.chip.mayWrite w (pnum 0x23 0x010 fn) = true ∧ fn < 1024 ∧ n < 65536 ∧ s.serving ∧ s.chip.tctr? n = none ∧ ¬full :=
  ⟨st { full with dict := { active := [(pnum 0x23 0x003 3, 2)] } }, .mailbox 0, 3, 65535, by decide +kernel⟩

theorem witness_CounterCommandsAct_2a :
    ∃ (s : State) (w : Writer) (fn : Nat) (n : Nat),
    let full := s.chip.param 0x23 0x003 fn ≤ (s.chip.tg.ctrs.filter fun r => r.2.owner == fn).length;
    s.chip.mayWrite w (pnum 0x23 0x010 fn) = true ∧ fn < 1024 ∧ n < 65536 ∧ s.serving ∧
    ((s.chip.tctr? n).isSome = true ∨ full) :=
  ⟨st { full with tg := { ctrs := [(65535, { owner := 3, value := 0xFFFFFFFFFFFE })] } }, .mailbox 0, 3, 65535,
    by decide +kernel⟩

theorem witness_CounterCommandsAct_2b :
    ∃ (s : State) (w : Writer) (fn : Nat) (n : Nat),
    let full := s.chip.param 0x23 0x003 fn ≤ (s.chip.tg.ctrs.filter fun r => r.2.owner == fn).length;
    s.chip.mayWrite w (pnum 0x23 0x010 fn) = true ∧ fn < 1024 ∧ n < 65536 ∧ s.serving ∧
    ((s.chip.tctr? n).isSome = true ∨ full) :=
  ⟨st { full with dict := { active := [(pnum 0x23 0x003 3, 0)] } }, .mailbox 0, 3, 65535, by decide +kernel⟩

theorem witness_CounterCommandsAct_3 :
    ∃ (s : State) (w : Writer) (fn : Nat) (n : Nat), s.chip.mayWrite w (pnum 0x23 0x010 fn) = true ∧ fn < 1024 ∧ n < 65536 ∧
    s.serving ∧ s.chip.ownCtr? fn n = none :=
  ⟨st { full with tg := { ctrs := [(65535, { owner := 3, value := 0xFFFFFFFFFFFE })] } }, .mailbox 0, 2, 65535,
    by decide +kernel⟩

theorem witness_CounterCommandsAct_4 :
    ∃ (s : State) (w : Writer) (fn : Nat) (n : Nat) (arg : BitVec 44) (t : TCtr),
    s.chip.mayWrite w (pnum 0x23 0x010 fn) = true ∧ fn < 1024 ∧ n < 65536 ∧ s.chip.tctr? n = some t ∧ t.owner = fn ∧
    s.serving ∧ arg.extractLsb' 40 4 < 4 :=
  ⟨st { full with tg := { ctrs := [(65535, { owner := 3, value := 0xFFFFFFFFFFFE })] } }, .mailbox 0, 3, 65535,
    0x3C000000007, { owner := 3, value := 0xFFFFFFFFFFFE }, by decide +kernel⟩

theorem witness_CounterCommandsAct_5 :
    ∃ (s : State) (w : Writer) (fn : Nat) (n : Nat) (arg : BitVec 44) (t : TCtr),
    s.chip.mayWrite w (pnum 0x23 0x010 fn) = true ∧ fn < 1024 ∧ n < 65536 ∧ s.chip.tctr? n = some t ∧ t.owner = fn ∧
    s.serving ∧ 4 ≤ arg.extractLsb' 40 4 :=
  ⟨st { full with tg := { ctrs := [(65535, { owner := 3, value := 0xFFFFFFFFFFFE })] } }, .mailbox 0, 3, 65535,
    0x4C000000007, { owner := 3, value := 0xFFFFFFFFFFFE }, by decide +kernel⟩

theorem witness_CounterCommandsAct_6 :
    ∃ (s : State) (w : Writer) (fn : Nat) (n : Nat) (arg : BitVec 44) (t : TCtr),
    let reached (v : Nat) : Bool := s.chip.tg.held.any fun e => e.ctr == n && !e.released && decide (e.thresh.toNat ≤ v);
    s.chip.mayWrite w (pnum 0x23 0x010 fn) = true ∧ fn < 1024 ∧ n < 65536 ∧ s.chip.tctr? n = some t ∧ t.owner = fn ∧
    s.serving ∧ reached arg.toNat = false :=
  ⟨st { full with tg := { ctrs := [(65535, { owner := 3, value := 0xFFFFFFFFFFFE })] } }, .mailbox 0, 3, 65535,
    0xFFFFFFFFFFF, { owner := 3, value := 0xFFFFFFFFFFFE }, by decide +kernel⟩

theorem witness_CounterCommandsAct_7 :
    ∃ (s : State) (w : Writer) (fn : Nat) (n : Nat) (arg : BitVec 44) (t : TCtr),
    s.chip.mayWrite w (pnum 0x23 0x010 fn) = true ∧ fn < 1024 ∧ n < 65536 ∧ s.chip.tctr? n = some t ∧ t.owner = fn ∧
    s.leavesPlaces (fun c => c.ctrWrite w fn 4 n arg.toNat) ∧ s.chip.slotsApart :=
  ⟨st { full with queues := [(qKey 0 7, { fn := 3, cqn := 5 })], tg := { ctrs := [(65535, { owner := 3, value := 0xFFFFFFFFFFFE })], held := [{ fn := 3, qn := 7, ctr := 65535, thresh := 2, slot := 1 }, { fn := 3, qn := 7, ctr := 65535, thresh := 0xFFFFFFFFFFFF, slot := 2 }] } },
    .mailbox 0, 3, 65535, 2, { owner := 3, value := 0xFFFFFFFFFFFE }, by decide +kernel⟩

theorem witness_CounterCommandsAct_8 :
    ∃ (s : State) (w : Writer) (fn : Nat) (n : Nat) (arg : BitVec 44) (t : TCtr),
    let reached (v : Nat) : Bool := s.chip.tg.held.any fun e => e.ctr == n && !e.released && decide (e.thresh.toNat ≤ v);
    let sum := t.value.toNat + arg.toNat; s.chip.mayWrite w (pnum 0x23 0x010 fn) = true ∧ fn < 1024 ∧ n < 65536 ∧
    s.chip.tctr? n = some t ∧ t.owner = fn ∧ s.serving ∧ sum < 2 ^ 48 ∧ reached sum = false :=
  ⟨st { full with tg := { ctrs := [(65535, { owner := 3, value := 0xFFFFFFFFFFFE })] } }, .mailbox 0, 3, 65535, 1,
    { owner := 3, value := 0xFFFFFFFFFFFE }, by decide +kernel⟩

theorem witness_CounterCommandsAct_9a :
    ∃ (s : State) (w : Writer) (fn : Nat) (n : Nat) (arg : BitVec 44) (t : TCtr),
    s.chip.mayWrite w (pnum 0x23 0x010 fn) = true ∧ fn < 1024 ∧ n < 65536 ∧ s.chip.tctr? n = some t ∧ t.owner = fn ∧
    s.leavesPlaces (fun c => c.ctrWrite w fn 5 n arg.toNat) ∧ s.chip.slotsApart :=
  ⟨st { full with queues := [(qKey 0 7, { fn := 3, cqn := 5 })], tg := { ctrs := [(65535, { owner := 3, value := 0xFFFFFFFFFFFE })], held := [{ fn := 3, qn := 7, ctr := 65535, thresh := 2, slot := 1 }, { fn := 3, qn := 7, ctr := 65535, thresh := 0xFFFFFFFFFFFF, slot := 2 }] } },
    .mailbox 0, 3, 65535, 2, { owner := 3, value := 0xFFFFFFFFFFFE }, by decide +kernel⟩

theorem witness_CounterCommandsAct_9b :
    ∃ (s : State) (w : Writer) (fn : Nat) (n : Nat) (arg : BitVec 44) (t : TCtr),
    s.chip.mayWrite w (pnum 0x23 0x010 fn) = true ∧ fn < 1024 ∧ n < 65536 ∧ s.chip.tctr? n = some t ∧ t.owner = fn ∧
    s.leavesPlaces (fun c => c.ctrWrite w fn 5 n arg.toNat) ∧ s.chip.slotsApart :=
  ⟨st { full with queues := [(qKey 0 7, { fn := 3, cqn := 5 })], tg := { ctrs := [(65535, { owner := 3, value := 0xFFFFFFFFFFFE })], held := [{ fn := 3, qn := 7, ctr := 65535, thresh := 2, slot := 1 }, { fn := 3, qn := 7, ctr := 65535, thresh := 0xFFFFFFFFFFFF, slot := 2 }] } },
    .mailbox 0, 3, 65535, 0, { owner := 3, value := 0xFFFFFFFFFFFE }, by decide +kernel⟩

theorem witness_CounterCommandsAct_10 :
    ∃ (s : State) (w : Writer) (fn : Nat) (n : Nat) (t : TCtr), s.chip.mayWrite w (pnum 0x23 0x010 fn) = true ∧ fn < 1024 ∧
    n < 65536 ∧ s.chip.tctr? n = some t ∧ t.owner = fn ∧ s.serving ∧
    (s.chip.tg.held.any fun e => e.ctr == n && !e.released) = false :=
  ⟨st { full with tg := { ctrs := [(65535, { owner := 3, value := 0xFFFFFFFFFFFE })] } }, .mailbox 0, 3, 65535,
    { owner := 3, value := 0xFFFFFFFFFFFE }, by decide +kernel⟩

theorem witness_CounterCommandsAct_11 :
    ∃ (s : State) (w : Writer) (fn : Nat) (n : Nat) (t : TCtr), s.chip.mayWrite w (pnum 0x23 0x010 fn) = true ∧ fn < 1024 ∧
    n < 65536 ∧ s.chip.tctr? n = some t ∧ t.owner = fn ∧ s.leaves (fun c => c.ctrWrite w fn 2 n 0) :=
  ⟨st { full with queues := [(qKey 0 7, { fn := 3, cqn := 5 })], tg := { ctrs := [(65535, { owner := 3, value := 0xFFFFFFFFFFFE })], held := [{ fn := 3, qn := 7, ctr := 65535, thresh := 2, slot := 1 }, { fn := 3, qn := 7, ctr := 65535, thresh := 0xFFFFFFFFFFFF, slot := 2 }] } },
    .mailbox 0, 3, 65535, { owner := 3, value := 0xFFFFFFFFFFFE }, by decide +kernel⟩

/-! HeldEntriesWaitAndStart, clause by clause. -/

theorem witness_HeldEntriesWaitAndStart_1 :
    ∃ (s : State) (h : Nat) (qn : Nat) (e : Entry), s.serving ∧ s.chip.takeable h qn e = none :=
  ⟨st full, 0, 7, ent 1, by decide +kernel⟩

theorem witness_HeldEntriesWaitAndStart_2 :
    ∃ (s : State) (h : Nat) (qn : Nat) (e : Entry) (e' : Entry) (q : Queue) (t : TCtr),
    s.chip.takeable h qn e = some (q, e') ∧ e'.held = true ∧ s.chip.sqBad h q.fn e' = false ∧
    s.chip.tctr? e'.tctr = some t ∧ t.owner = q.fn ∧ s.chip.heldRoom q.fn = true ∧ q.failsWait = true ∧ s.serving ∧
    (s.chip.tg.held.any fun x => x.ctr == e'.tctr && !x.released && decide (x.thresh.toNat ≤ t.value.toNat)) = false ∧
    t.value.toNat < e'.thresh.toNat :=
  ⟨st ({ node with dict := { active := [(pnum 0x23 0x002 0, 6)] }, tg := { ctrs := [(7, { owner := 0, value := 5 })] } } : Chip),
    0, 7, { ent 1 with w0 := (ent 1).w0 + 0x8000000000000, w7 := 0x0007000000000006 },
    { ent 1 with w0 := (ent 1).w0 + 0x8000000000000, w7 := 0x0007000000000006 },
    ({ kind := .sq, cqn := 5, pi := 2 } : Queue), ({ owner := 0, value := 5 } : TCtr), by decide +kernel⟩

theorem witness_HeldEntriesWaitAndStart_3 :
    ∃ (s : State) (h : Nat) (qn : Nat) (e : Entry) (e' : Entry) (q : Queue) (t : TCtr),
    s.chip.takeable h qn e = some (q, e') ∧ e'.held = true ∧ s.chip.sqBad h q.fn e' = false ∧
    s.chip.tctr? e'.tctr = some t ∧ t.owner = q.fn ∧ s.chip.heldRoom q.fn = true ∧ q.failsWait = true ∧
    s.leavesPlaces (fun c => c.takeHeld h qn e) ∧ s.chip.slotsApart :=
  ⟨st ({ node with dict := { active := [(pnum 0x23 0x002 0, 6)] }, tg := { ctrs := [(7, { owner := 0, value := 5 })] } } : Chip),
    0, 7, { ent 1 with w0 := (ent 1).w0 + 0x8000000000000, w7 := 0x0007000000000005 },
    { ent 1 with w0 := (ent 1).w0 + 0x8000000000000, w7 := 0x0007000000000005 },
    ({ kind := .sq, cqn := 5, pi := 2 } : Queue), ({ owner := 0, value := 5 } : TCtr), by decide +kernel⟩

theorem witness_HeldEntriesWaitAndStart_4 :
    ∃ (s : State) (h : Nat) (qn : Nat) (e : Entry) (e' : Entry) (q : Queue) (t : TCtr),
    s.chip.takeable h qn e = some (q, e') ∧ e'.held = true ∧ s.chip.sqBad h q.fn e' = false ∧
    s.chip.tctr? e'.tctr = some t ∧ t.owner = q.fn ∧ s.serving ∧ s.chip.heldRoom q.fn = false :=
  ⟨st ({ node with tg := { ctrs := [(7, { owner := 0, value := 5 })] } } : Chip), 0, 7,
    { ent 1 with w0 := (ent 1).w0 + 0x8000000000000, w7 := 0x0007000000000005 },
    { ent 1 with w0 := (ent 1).w0 + 0x8000000000000, w7 := 0x0007000000000005 },
    ({ kind := .sq, cqn := 5, pi := 2 } : Queue), ({ owner := 0, value := 5 } : TCtr), by decide +kernel⟩

theorem witness_HeldEntriesWaitAndStart_5 :
    ∃ (s : State) (h : Nat) (qn : Nat) (e : Entry) (e' : Entry) (q : Queue) (cq : Queue),
    s.chip.takeable h qn e = some (q, e') ∧ e'.held = true ∧ s.chip.sqBad h q.fn e' = false ∧
    s.leaves (fun c => c.takeHeld h qn e) ∧ s.chip.ownCtr? q.fn e'.tctr = none ∧ q.failsWait = true ∧
    s.chip.cqRoom h q.cqn cq = true ∧ s.chip.hostServed cq.fn = true :=
  ⟨st ({ node with dict := { active := [(pnum 0x23 0x002 0, 6)] } } : Chip), 0, 7,
    { ent 1 with w0 := (ent 1).w0 + 0x8000000000000, w7 := 0x0007000000000005 },
    { ent 1 with w0 := (ent 1).w0 + 0x8000000000000, w7 := 0x0007000000000005 },
    ({ kind := .sq, cqn := 5, pi := 2 } : Queue), { kind := .cq, vecValid := true }, by decide +kernel⟩

theorem witness_HeldEntriesWaitAndStart_6 :
    ∃ (s : State) (fn : Nat) (slot : Nat) (r : HeldEnt) (q : Queue) (data : SourceData),
    s.chip.readable fn slot = some (r, q) ∧ s.leavesPlaces (fun c => c.heldReadBack fn slot data) ∧ r.entry.opcode < 0x60 ∧
    s.chip.canStart (fn / 256) r.qn r.entry = true ∧ s.chip.sourceGiven q.fn r.entry data = true ∧
    s.chip.entryFails q.fn r.entry data = none ∧ 0x30 ≤ r.entry.opcode :=
  ⟨st ({ node with tg := { ctrs := [(7, { owner := 0, value := 5 })], held := [({ fn := 0, qn := 7, ctr := 7, entry := { ent 64 with w0 := (ent 64).w0 + 0x8000000000000, w7 := 0x0007000000000005 }, released := true, placed := true, slot := 3 } : HeldEnt)] } } : Chip),
    0, 3,
    ({ fn := 0, qn := 7, ctr := 7, entry := { ent 64 with w0 := (ent 64).w0 + 0x8000000000000, w7 := 0x0007000000000005 }, released := true, placed := true, slot := 3 } : HeldEnt),
    ({ kind := .sq, cqn := 5, pi := 2 } : Queue), SourceData.failed, by decide +kernel⟩

theorem witness_HeldEntriesWaitAndStart_7 :
    ∃ (s : State) (fn : Nat) (slot : Nat) (r : HeldEnt) (q : Queue) (data : SourceData),
    s.chip.readable fn slot = some (r, q) ∧ s.leavesPlaces (fun c => c.heldReadBack fn slot data) ∧ r.entry.opcode < 0x60 ∧
    s.chip.canStart (fn / 256) r.qn r.entry = true ∧ s.chip.sourceGiven q.fn r.entry data = true ∧
    s.chip.entryFails q.fn r.entry data = none ∧ r.entry.opcode = 0x20 ∧ r.entry.length ≠ 0 :=
  ⟨st ({ node with tg := { ctrs := [(7, { owner := 0, value := 5 })], held := [({ fn := 0, qn := 7, ctr := 7, entry := { ent 32 with w0 := (ent 32).w0 + 0x8000000000000, w7 := 0x0007000000000005 }, released := true, placed := true, slot := 3 } : HeldEnt)] } } : Chip),
    0, 3,
    ({ fn := 0, qn := 7, ctr := 7, entry := { ent 32 with w0 := (ent 32).w0 + 0x8000000000000, w7 := 0x0007000000000005 }, released := true, placed := true, slot := 3 } : HeldEnt),
    ({ kind := .sq, cqn := 5, pi := 2 } : Queue), .bytes [], by decide +kernel⟩

theorem witness_HeldEntriesWaitAndStart_8 :
    ∃ (s : State) (fn : Nat) (slot : Nat) (r : HeldEnt) (q : Queue) (data : SourceData),
    s.chip.readable fn slot = some (r, q) ∧ s.leavesPlaces (fun c => c.heldReadBack fn slot data) ∧ r.entry.opcode < 0x60 ∧
    s.chip.canStart (fn / 256) r.qn r.entry = true ∧ s.chip.sourceGiven q.fn r.entry data = true ∧
    s.chip.entryFails q.fn r.entry data = none ∧ r.entry.opcode < 0x20 ∧ s.chip.offered r.entry = false :=
  ⟨st ({ node with tg := { ctrs := [(7, { owner := 0, value := 5 })], held := [({ fn := 0, qn := 7, ctr := 7, entry := { ent 16 with w0 := (ent 16).w0 + 0x8000000000000, w7 := 0x0007000000000005 }, released := true, placed := true, slot := 3 } : HeldEnt)] } } : Chip),
    0, 3,
    ({ fn := 0, qn := 7, ctr := 7, entry := { ent 16 with w0 := (ent 16).w0 + 0x8000000000000, w7 := 0x0007000000000005 }, released := true, placed := true, slot := 3 } : HeldEnt),
    ({ kind := .sq, cqn := 5, pi := 2 } : Queue), .bytes [1, 2, 3, 4], by decide +kernel⟩

theorem witness_HeldEntriesWaitAndStart_9 :
    ∃ (s : State) (fn : Nat) (slot : Nat) (r : HeldEnt) (q : Queue) (data : SourceData),
    s.chip.readable fn slot = some (r, q) ∧ s.leavesPlaces (fun c => c.heldReadBack fn slot data) ∧ r.entry.opcode < 0x60 ∧
    s.chip.canStart (fn / 256) r.qn r.entry = true ∧ s.chip.sourceGiven q.fn r.entry data = true ∧
    s.chip.entryFails q.fn r.entry data = none ∧ s.chip.offered r.entry = true :=
  ⟨st ({ node with tg := { ctrs := [(7, { owner := 0, value := 5 })], held := [({ fn := 0, qn := 7, ctr := 7, entry := { ent 2 with w0 := (ent 2).w0 + 0x8000000000000, w7 := 0x0007000000000005 }, released := true, placed := true, slot := 3 } : HeldEnt)] }, dict := { active := [(pnum 0x22 0x001 0, 3)] } } : Chip),
    0, 3,
    ({ fn := 0, qn := 7, ctr := 7, entry := { ent 2 with w0 := (ent 2).w0 + 0x8000000000000, w7 := 0x0007000000000005 }, released := true, placed := true, slot := 3 } : HeldEnt),
    ({ kind := .sq, cqn := 5, pi := 2 } : Queue), .bytes [], by decide +kernel⟩

theorem witness_HeldEntriesWaitAndStart_10 :
    ∃ (s : State) (fn : Nat) (slot : Nat) (r : HeldEnt) (q : Queue) (data : SourceData) (st : _) (cq : Queue),
    let h := fn / 256; s.chip.readable fn slot = some (r, q) ∧ s.leavesPlaces (fun c => c.heldReadBack fn slot data) ∧
    r.entry.opcode < 0x60 ∧ s.chip.canStart (fn / 256) r.qn r.entry = true ∧ s.chip.sourceGiven q.fn r.entry data = true ∧
    s.chip.entryFails q.fn r.entry data = some st ∧ q.failed = [] ∧ q.openPos.all (r.pos ≤ ·) = true ∧
    s.chip.cqRoom h q.cqn cq = true ∧ s.chip.hostServed cq.fn = true :=
  ⟨st ({ node with queues := [(5, { kind := .cq }), (7, ({ kind := .sq, cqn := 5, pi := 2, openPos := [0] } : Queue))], tg := { ctrs := [(7, { owner := 0, value := 5 })], held := [({ fn := 0, qn := 7, ctr := 7, entry := { { ent 64 with w0 := (ent 64).w0 + 0x8000000000000, w7 := 0x0007000000000005 } with w0 := (ent 64).w0 + 0x8000064000000 }, released := true, placed := true, slot := 3 } : HeldEnt)] } } : Chip),
    0, 3,
    ({ fn := 0, qn := 7, ctr := 7, entry := { { ent 64 with w0 := (ent 64).w0 + 0x8000000000000, w7 := 0x0007000000000005 } with w0 := (ent 64).w0 + 0x8000064000000 }, released := true, placed := true, slot := 3 } : HeldEnt),
    ({ kind := .sq, cqn := 5, pi := 2, openPos := [0] } : Queue), .failed, 8, { kind := .cq }, by decide +kernel⟩

theorem witness_HeldEntriesWaitAndStart_11 :
    ∃ (s : State) (fn : Nat) (slot : Nat) (r : HeldEnt) (q : Queue) (data : SourceData),
    s.chip.readable fn slot = some (r, q) ∧ s.leavesPlaces (fun c => c.heldReadBack fn slot data) ∧ 0x60 ≤ r.entry.opcode ∧
    s.chip.canPost (fn / 256) r.entry = true ∧
    (s.chip.variant.collEngines = 0 ∨ (s.chip.operandOf (fn / 256) q.fn r.entry data).2.isSome = true) :=
  ⟨st ({ node with dict := { active := team 2 [] }, tg := { ctrs := [(7, { owner := 0, value := 5 })], held := [({ fn := 0, qn := 7, ctr := 7, entry := { cent 0x60 0 with w0 := (cent 0x60 0).w0 + 0x8000000000000, w7 := 0x0007000000000005 }, released := true, placed := true, slot := 3 } : HeldEnt)] } } : Chip),
    0, 3,
    ({ fn := 0, qn := 7, ctr := 7, entry := { cent 0x60 0 with w0 := (cent 0x60 0).w0 + 0x8000000000000, w7 := 0x0007000000000005 }, released := true, placed := true, slot := 3 } : HeldEnt),
    ({ kind := .sq, cqn := 5, pi := 2 } : Queue), .bytes [], by decide +kernel⟩

theorem witness_HeldEntriesWaitAndStart_12 :
    ∃ (s : State) (fn : Nat) (slot : Nat) (r : HeldEnt) (q : Queue), s.chip.readable fn slot = some (r, q) ∧
    s.leavesPlaces (fun c => c.heldReadFails fn slot) :=
  ⟨st ({ node with tg := { ctrs := [(7, { owner := 0, value := 5 })], held := [({ fn := 0, qn := 7, ctr := 7, entry := { ent 16 with w0 := (ent 16).w0 + 0x8000000000000, w7 := 0x0007000000000005 }, released := true, placed := true, slot := 3 } : HeldEnt)] } } : Chip),
    0, 3,
    ({ fn := 0, qn := 7, ctr := 7, entry := { ent 16 with w0 := (ent 16).w0 + 0x8000000000000, w7 := 0x0007000000000005 }, released := true, placed := true, slot := 3 } : HeldEnt),
    ({ kind := .sq, cqn := 5, pi := 2 } : Queue), by decide +kernel⟩

theorem witness_HeldEntriesWaitAndStart_13 :
    ∃ (s : State) (fn : Nat) (slot : Nat), s.serving ∧ s.chip.readable fn slot = none :=
  ⟨st node, 0, 3, by decide +kernel⟩

/-! ContextsBindAndUnbind, clause by clause. -/

theorem witness_ContextsBindAndUnbind_1 :
    ∃ (s : State) (w : Writer) (fn : Nat) (v : BitVec 64) (q : Queue), let h := fn / 256;
    let qn := (v.extractLsb' 20 24).toNat; let ctx := ctxKey h (v.extractLsb' 0 20).toNat;
    let fits (q : Queue) : Bool := (q.kind == .rq || q.kind == .srq) && q.fn == fn && q.state == .active && q.destroying.isNone && (s.chip.mctx? ctx).isNone && decide (s.chip.mt.ctxs.length < 2 ^ 20) && decide ((s.chip.mt.ctxs.filter fun r => s.chip.ctxFn r.1 == fn).length < s.chip.param 0x22 0x011 fn);
    s.chip.mayWrite w (pnum 0x22 0x010 fn) = true ∧ fn < 1024 ∧ s.serving ∧ s.chip.queue? h qn = some q ∧ fits q = true :=
  ⟨st { node with dict := { active := [(pnum 0x22 0x011 0, 1)] } }, .mailbox 0, 0, 0x40F0000000800003,
    ({ kind := .rq, cqn := 5, pi := 2 } : Queue), by decide +kernel⟩

theorem witness_ContextsBindAndUnbind_2a :
    ∃ (s : State) (w : Writer) (fn : Nat) (v : BitVec 64), let h := fn / 256; let qn := (v.extractLsb' 20 24).toNat;
    let ctx := ctxKey h (v.extractLsb' 0 20).toNat;
    let fits (q : Queue) : Bool := (q.kind == .rq || q.kind == .srq) && q.fn == fn && q.state == .active && q.destroying.isNone && (s.chip.mctx? ctx).isNone && decide (s.chip.mt.ctxs.length < 2 ^ 20) && decide ((s.chip.mt.ctxs.filter fun r => s.chip.ctxFn r.1 == fn).length < s.chip.param 0x22 0x011 fn);
    s.chip.mayWrite w (pnum 0x22 0x010 fn) = true ∧ fn < 1024 ∧ s.serving ∧ (s.chip.queue? h qn).elim false fits = false :=
  ⟨st { node with dict := { active := [(pnum 0x22 0x011 0, 1)] } }, .mailbox 0, 0, 0x8000000000700003, by decide +kernel⟩

theorem witness_ContextsBindAndUnbind_2b :
    ∃ (s : State) (w : Writer) (fn : Nat) (v : BitVec 64), let h := fn / 256; let qn := (v.extractLsb' 20 24).toNat;
    let ctx := ctxKey h (v.extractLsb' 0 20).toNat;
    let fits (q : Queue) : Bool := (q.kind == .rq || q.kind == .srq) && q.fn == fn && q.state == .active && q.destroying.isNone && (s.chip.mctx? ctx).isNone && decide (s.chip.mt.ctxs.length < 2 ^ 20) && decide ((s.chip.mt.ctxs.filter fun r => s.chip.ctxFn r.1 == fn).length < s.chip.param 0x22 0x011 fn);
    s.chip.mayWrite w (pnum 0x22 0x010 fn) = true ∧ fn < 1024 ∧ s.serving ∧ (s.chip.queue? h qn).elim false fits = false :=
  ⟨st { node with mt := { ctxs := [(3, ({ qn := 8 } : MCtx))] }, dict := { active := [(pnum 0x22 0x011 0, 9)] } },
    .mailbox 0, 0, 0x8000000000800003, by decide +kernel⟩

theorem witness_ContextsBindAndUnbind_3 :
    ∃ (s : State) (w : Writer) (fn : Nat) (v : BitVec 64) (m : MCtx), let h := fn / 256;
    let qn := (v.extractLsb' 20 24).toNat; let ctx := ctxKey h (v.extractLsb' 0 20).toNat;
    s.chip.mayWrite w (pnum 0x22 0x010 fn) = true ∧ fn < 1024 ∧
    s.leaves (fun c => c.numWrite w 0x22 0x010 fn 8 (v.toNat % 2 ^ 63)) ∧ s.chip.mctx? ctx = some m ∧ m.qn = qn ∧
    s.chip.ctxFn ctx = fn :=
  ⟨st { node with mt := { ctxs := [(3, ({ qn := 8 } : MCtx))], waiting := [(8, { w0 := 0xE100000030000000 })], unexp := [{ ctx := 3 }] } },
    .mailbox 0, 0, 0x0000000000800003, ({ qn := 8 } : MCtx), by decide +kernel⟩

theorem witness_ContextsBindAndUnbind_4 :
    ∃ (s : State) (w : Writer) (fn : Nat) (v : BitVec 64), let h := fn / 256; let qn := (v.extractLsb' 20 24).toNat;
    let ctx := ctxKey h (v.extractLsb' 0 20).toNat; s.chip.mayWrite w (pnum 0x22 0x010 fn) = true ∧ fn < 1024 ∧ s.serving ∧
    (s.chip.mctx? ctx).elim true (fun m => m.qn != qn || s.chip.ctxFn ctx != fn) = true :=
  ⟨st { node with mt := { ctxs := [(3, ({ qn := 8 } : MCtx))] } }, .mailbox 0, 0, 0x0000000000900003, by decide +kernel⟩

/-! MatchedMessagesGoOn, clause by clause. -/

theorem witness_MatchedMessagesGoOn_1 :
    ∃ (s : State) (id : _), s.serving ∧ (s.chip.mt.copies.find? (fun y => y.id == id)).elim false (·.whole) = false :=
  ⟨st node, 2, by decide +kernel⟩

theorem witness_MatchedMessagesGoOn_2 :
    ∃ (s : State) (id : Nat) (y : EagerCopy) (q : Queue) (cq : Queue), let h := chHost y.chan;
    s.chip.mt.copies.find? (fun y => y.id == id) = some y ∧ y.whole = true ∧ s.chip.queue? h y.qn = some q ∧
    s.chip.silentFn q.fn = false ∧ s.chip.cqRoom h q.cqn cq = true ∧ s.chip.hostServed cq.fn = true ∧
    s.leaves (fun c => c.copyComplete id true) :=
  ⟨st { node with variant := .ik920, mt := { copies := [({ id := 2, chan := 4, whole := true, qn := 8, msg := { ctx := 3, src := 0x8000 }, entry := { w0 := 0xE100000030000000, w1 := 64 } } : EagerCopy)] } },
    2,
    ({ id := 2, chan := 4, whole := true, qn := 8, msg := { ctx := 3, src := 0x8000 }, entry := { w0 := 0xE100000030000000, w1 := 64 } } : EagerCopy),
    ({ kind := .rq, cqn := 5, pi := 2 } : Queue), ({ kind := .cq, vecValid := true } : Queue), by decide +kernel⟩

theorem witness_MatchedMessagesGoOn_3 :
    ∃ (s : State) (id : Nat) (y : EagerCopy) (q : Queue) (cq : Queue), let h := chHost y.chan;
    s.chip.mt.copies.find? (fun y => y.id == id) = some y ∧ y.whole = true ∧ s.chip.queue? h y.qn = some q ∧
    s.chip.silentFn q.fn = false ∧ s.chip.cqRoom h q.cqn cq = true ∧ s.chip.hostServed cq.fn = true ∧
    s.leaves (fun c => c.copyComplete id false) ∧ y.msg.data = [] :=
  ⟨st { node with mt := { copies := [({ id := 2, chan := 4, whole := true, qn := 8, msg := { ctx := 3, src := 0x8000 }, entry := { w0 := 0xE100000030000000, w1 := 64 } } : EagerCopy)] } },
    2,
    ({ id := 2, chan := 4, whole := true, qn := 8, msg := { ctx := 3, src := 0x8000 }, entry := { w0 := 0xE100000030000000, w1 := 64 } } : EagerCopy),
    ({ kind := .rq, cqn := 5, pi := 2 } : Queue), ({ kind := .cq, vecValid := true } : Queue), by decide +kernel⟩

theorem witness_MatchedMessagesGoOn_4 :
    ∃ (s : State) (id : Nat) (y : EagerCopy) (q : Queue) (cq : Queue) (l : _) (a : _), let h := chHost y.chan;
    let e := y.entry; let n := min l.length e.length; s.chip.mt.copies.find? (fun y => y.id == id) = some y ∧
    y.whole = true ∧ s.chip.queue? h y.qn = some q ∧ s.chip.silentFn q.fn = false ∧ s.chip.cqRoom h q.cqn cq = true ∧
    s.chip.hostServed cq.fn = true ∧ s.leaves (fun c => c.copyComplete id false) ∧ y.msg.data = [(0, l)] ∧ 0 < n ∧
    s.chip.localCheck q.fn e.rLkey e.rLaddr n true = .fabric a :=
  ⟨st { bank with mt := { copies := [({ id := 2, chan := 4, whole := true, qn := 8, msg := { ctx := 3, src := 0x8000, length := 4, data := [(0, [1, 2, 3, 4])] }, entry := { w0 := 0xE100000030000000, w1 := 3, w3 := 0xFEF0000000000000 } } : EagerCopy)] } },
    2,
    ({ id := 2, chan := 4, whole := true, qn := 8, msg := { ctx := 3, src := 0x8000, length := 4, data := [(0, [1, 2, 3, 4])] }, entry := { w0 := 0xE100000030000000, w1 := 3, w3 := 0xFEF0000000000000 } } : EagerCopy),
    ({ kind := .rq, cqn := 5, pi := 2 } : Queue), ({ kind := .cq, vecValid := true } : Queue), [1, 2, 3, 4], 0,
    by decide +kernel⟩

theorem witness_MatchedMessagesGoOn_5 :
    ∃ (s : State) (id : _), s.serving ∧
    ((s.chip.mt.tOffers.find? (fun t => t.id == id)).elim true (fun t => t.reading) = true ∨ 65536 ≤ s.chip.offerRecords) :=
  ⟨st { bank with mt := { tOffers := [({ id := 2, reading := true } : TOffer)] } }, 2, by decide +kernel⟩

theorem witness_MatchedMessagesGoOn_6 :
    ∃ (s : State) (id : Nat) (t : TOffer) (q : Queue), let h := chHost t.chan;
    let check := s.chip.localCheck q.fn t.entry.rLkey t.entry.rLaddr t.take true;
    let far := s.chip.preFail (chRemote t.chan); s.leaves (fun c => c.offerRecordFreed id) ∧
    s.chip.mt.tOffers.find? (fun t => t.id == id) = some t ∧ t.reading = false ∧ s.chip.offerRecords < 65536 ∧
    s.chip.queue? h t.qn = some q ∧ t.take ≠ 0 ∧ 0 < s.chip.param 0x21 0x035 0 ∧ check.refusal = none ∧ far = none :=
  ⟨st { bank with mt := { tOffers := [({ id := 2, chan := 4, qn := 8, take := 4, length := 4, key := 0xFF000000, entry := { w0 := 0xE100000030000000, w1 := 4, w3 := 0xFEF0000000000000 } } : TOffer)] } },
    2,
    ({ id := 2, chan := 4, qn := 8, take := 4, length := 4, key := 0xFF000000, entry := { w0 := 0xE100000030000000, w1 := 4, w3 := 0xFEF0000000000000 } } : TOffer),
    ({ kind := .rq, cqn := 5, pi := 2 } : Queue), by decide +kernel⟩

theorem witness_MatchedMessagesGoOn_7 :
    ∃ (s : State) (id : Nat) (t : TOffer) (q : Queue) (cq : Queue) (st : _), let h := chHost t.chan;
    let check := s.chip.localCheck q.fn t.entry.rLkey t.entry.rLaddr t.take true;
    let far := s.chip.preFail (chRemote t.chan); s.leaves (fun c => c.offerRecordFreed id) ∧
    s.chip.mt.tOffers.find? (fun t => t.id == id) = some t ∧ t.reading = false ∧ s.chip.offerRecords < 65536 ∧
    s.chip.queue? h t.qn = some q ∧ t.take ≠ 0 ∧ check.refusal.or far = some st ∧ s.chip.silentFn q.fn = false ∧
    s.chip.cqRoom h q.cqn cq = true ∧ s.chip.hostServed cq.fn = true :=
  ⟨st { node with mt := { tOffers := [({ id := 2, chan := 4, qn := 8, take := 4, length := 4, key := 0xFF000000, entry := { w0 := 0xE100000030000000, w1 := 4, w3 := 0xFEF0000000000000 } } : TOffer)] } },
    2,
    ({ id := 2, chan := 4, qn := 8, take := 4, length := 4, key := 0xFF000000, entry := { w0 := 0xE100000030000000, w1 := 4, w3 := 0xFEF0000000000000 } } : TOffer),
    ({ kind := .rq, cqn := 5, pi := 2 } : Queue), ({ kind := .cq, vecValid := true } : Queue), 2, by decide +kernel⟩

theorem witness_MatchedMessagesGoOn_8 :
    ∃ (s : State) (id : Nat) (t : TOffer) (q : Queue) (cq : Queue), let h := chHost t.chan;
    s.leaves (fun c => c.offerRecordFreed id) ∧ s.chip.mt.tOffers.find? (fun t => t.id == id) = some t ∧ t.reading = false ∧
    s.chip.offerRecords < 65536 ∧ s.chip.queue? h t.qn = some q ∧ t.take = 0 ∧ s.chip.chanOpen t.chan = true ∧
    s.chip.silentFn q.fn = false ∧ s.chip.cqRoom h q.cqn cq = true ∧ s.chip.hostServed cq.fn = true :=
  ⟨st { node with mt := { tOffers := [({ id := 2, chan := 4, qn := 8, take := 0, length := 4, key := 0xFF000000, entry := { w0 := 0xE100000030000000 } } : TOffer)] } },
    2,
    ({ id := 2, chan := 4, qn := 8, take := 0, length := 4, key := 0xFF000000, entry := { w0 := 0xE100000030000000 } } : TOffer),
    ({ kind := .rq, cqn := 5, pi := 2 } : Queue), ({ kind := .cq, vecValid := true } : Queue), by decide +kernel⟩

theorem witness_MatchedMessagesGoOn_9 :
    ∃ (s : State) (ctx : _), s.serving ∧ ((∀ r ∈ s.chip.mt.waiting, waitCtx r ≠ ctx)) :=
  ⟨st node, 3, by decide +kernel⟩

theorem witness_MatchedMessagesGoOn_10 :
    ∃ (s : State) (ctx : _), s.leaves (fun c => c.matchReadDone ctx) :=
  ⟨st { node with mt := { ctxs := [(3, ({ qn := 8, nextSeq := 9 } : MCtx))], waiting := [((8, { w0 := 0xE100000030000000 }) : Nat × Entry), ((8, { w0 := 0xE100000030000000 }) : Nat × Entry)] } },
    3, by decide +kernel⟩

theorem witness_MatchedMessagesGoOn_11 :
    ∃ (s : State) (ctx : Nat) (r : Nat × Entry) (m : MCtx), s.chip.mt.waiting.filter (fun r => waitCtx r == ctx) = [r] ∧
    s.serving ∧ s.chip.mctx? ctx = some m ∧ m.qn = r.1 % 2 ^ 24 ∧ s.chip.findUnexp ctx r.2 = none :=
  ⟨st { node with mt := { ctxs := [(3, ({ qn := 8, nextSeq := 9 } : MCtx))], waiting := [((8, { w0 := 0xE100000030000000 }) : Nat × Entry)] } },
    3, ((8, { w0 := 0xE100000030000000 }) : Nat × Entry), ({ qn := 8, nextSeq := 9 } : MCtx), by decide +kernel⟩

theorem witness_MatchedMessagesGoOn_12 :
    ∃ (s : State) (ctx : Nat) (r : Nat × Entry) (q : Queue) (cq : Queue),
    s.chip.mt.waiting.filter (fun r => waitCtx r == ctx) = [r] ∧ s.leaves (fun c => c.matchReadDone ctx) ∧
    (s.chip.mctx? ctx).elim true (fun m => m.qn != r.1 % 2 ^ 24) = true ∧
    s.chip.queue? (r.1 / 2 ^ 24) (r.1 % 2 ^ 24) = some q ∧ s.chip.silentFn q.fn = false ∧
    s.chip.cqRoom (r.1 / 2 ^ 24) q.cqn cq = true ∧ s.chip.hostServed cq.fn = true :=
  ⟨st { node with mt := { waiting := [((8, { w0 := 0xE100000030000000 }) : Nat × Entry)] } }, 3,
    ((8, { w0 := 0xE100000030000000 }) : Nat × Entry), ({ kind := .rq, cqn := 5, pi := 2 } : Queue),
    ({ kind := .cq, vecValid := true } : Queue), by decide +kernel⟩

theorem witness_MatchedMessagesGoOn_13 :
    ∃ (s : State) (ctx : Nat) (m : MCtx) (q : Queue), s.leaves (fun c => c.matchLost ctx) ∧ s.chip.mctx? ctx = some m ∧
    s.chip.queue? (ctx / 2 ^ 20) m.qn = some q ∧ q.state = .active :=
  ⟨st { node with variant := .ik920, mt := { ctxs := [(3, ({ qn := 8, nextSeq := 9 } : MCtx))] } }, 3,
    ({ qn := 8, nextSeq := 9 } : MCtx), ({ kind := .rq, cqn := 5, pi := 2 } : Queue), by decide +kernel⟩

/-! AcksRetireAndComplete, clause by clause. -/

theorem witness_AcksRetireAndComplete_1 :
    ∃ (s : State) (p : Packet), s.serving ∧ p.checkOk = false :=
  ⟨st node, Packet.init, by decide +kernel⟩

theorem witness_AcksRetireAndComplete_2a :
    ∃ (s : State) (h : Nat) (p : Packet), s.serving ∧ p.checkOk = true ∧
    (s.chip.hostEnabled h = false ∨ responseBad p = true) :=
  ⟨st full, 0, resp 8 0x80 101 0 0 0 0 [], by decide +kernel⟩

theorem witness_AcksRetireAndComplete_2b :
    ∃ (s : State) (h : Nat) (p : Packet), s.serving ∧ p.checkOk = true ∧
    (s.chip.hostEnabled h = false ∨ responseBad p = true) :=
  ⟨st { node with boot := { phase := .jig } }, 9, resp 8 0x80 101 0 0 0 0 [0, 0, 0, 0], by decide +kernel⟩

theorem witness_AcksRetireAndComplete_3a :
    ∃ (s : State) (h : Nat) (p : Packet), let k := respKey h p; s.serving ∧ p.checkOk = true ∧ s.chip.hostEnabled h = true ∧
    responseBad p = false ∧ (s.chip.chan? k).elim true (fun x => x.sendState != .syncing && x.sendState != .active) = true :=
  ⟨st { node with tr := { dests := [(0, { suspect := true })] } }, 0, resp 8 0x80 101 0 0 0 0 [0, 0, 0, 0],
    by decide +kernel⟩

theorem witness_AcksRetireAndComplete_3b :
    ∃ (s : State) (h : Nat) (p : Packet), let k := respKey h p; s.serving ∧ p.checkOk = true ∧ s.chip.hostEnabled h = true ∧
    responseBad p = false ∧ (s.chip.chan? k).elim true (fun x => x.sendState != .syncing && x.sendState != .active) = true :=
  ⟨st node, 0, (newPacket 3 8 0 1 false 0x8000000065010000 0 0 0 [0, 0, 0, 0]).sealed, by decide +kernel⟩

theorem witness_AcksRetireAndComplete_4a :
    ∃ (s : State) (h : Nat) (p : Packet) (x : Chan), let k := respKey h p; s.chip.hears h p x = true ∧
    x.sendState = .syncing ∧ x.syncDue = false ∧ p.rpsn = x.syncPsn + 1 ∧ s.leaves (fun c => c.takeAck h p) ∧
    x.ops.all (fun a => !a.started && a.status.isNone && !a.sourced) = true ∧ s.chip.hasRoute (chRemote k) = true :=
  ⟨st (peer ({ sendState := .syncing, syncPsn := 100, nextPsn := 101, una := 100, outstanding := [{ psn := 100 }], ops := [] } : Chan)),
    0, resp 8 0x80 101 0 0 0 0 [0, 0, 0, 0],
    ({ sendState := .syncing, syncPsn := 100, nextPsn := 101, una := 100, outstanding := [{ psn := 100 }], ops := [] } : Chan),
    by decide +kernel⟩

theorem witness_AcksRetireAndComplete_4b :
    ∃ (s : State) (h : Nat) (p : Packet) (x : Chan), let k := respKey h p; s.chip.hears h p x = true ∧
    x.sendState = .syncing ∧ x.syncDue = false ∧ p.rpsn = x.syncPsn + 1 ∧ s.leaves (fun c => c.takeAck h p) ∧
    x.ops.all (fun a => !a.started && a.status.isNone && !a.sourced) = true ∧ s.chip.hasRoute (chRemote k) = true :=
  ⟨st (peer ({ sendState := .syncing, syncPsn := 100, nextPsn := 101, una := 100, outstanding := [{ psn := 100 }], ops := [{ opcode := 0x41, qn := 7, silent := true }] } : Chan)),
    0, resp 8 0x80 101 0 0 0 0 [0, 0, 0, 0],
    ({ sendState := .syncing, syncPsn := 100, nextPsn := 101, una := 100, outstanding := [{ psn := 100 }], ops := [{ opcode := 0x41, qn := 7, silent := true }] } : Chan),
    by decide +kernel⟩

theorem witness_AcksRetireAndComplete_5a :
    ∃ (s : State) (h : Nat) (p : Packet) (x : Chan), s.chip.hears h p x = true ∧ s.serving ∧
    ((x.sendState = .syncing ∧ (x.syncDue = true ∨ p.rpsn ≠ x.syncPsn + 1)) ∨ (x.sendState = .active ∧ (x.nextPsn - x.lowest).toNat < (p.rpsn - x.lowest).toNat)) :=
  ⟨st (peer ({ sendState := .syncing, syncPsn := 7 } : Chan)), 0, resp 8 0x80 101 0 0 0 0 [0, 0, 0, 0],
    ({ sendState := .syncing, syncPsn := 7 } : Chan), by decide +kernel⟩

theorem witness_AcksRetireAndComplete_5b :
    ∃ (s : State) (h : Nat) (p : Packet) (x : Chan), s.chip.hears h p x = true ∧ s.serving ∧
    ((x.sendState = .syncing ∧ (x.syncDue = true ∨ p.rpsn ≠ x.syncPsn + 1)) ∨ (x.sendState = .active ∧ (x.nextPsn - x.lowest).toNat < (p.rpsn - x.lowest).toNat)) :=
  ⟨st (peer ({ sendState := .active, nextPsn := 100, una := 100, outstanding := [({ psn := 100, msgid := 4, pkt := req 1 0 0x0000640000000000 0x0000000400000000 0 [], deadline := some 5 } : OutPkt)], ops := [({ started := true, msgid := 4, opcode := 1, report := 1, qn := 7, pos := 0, signal := true, dest := 1 } : SendOp)] } : Chan)),
    0, resp 8 0x80 101 0 0 0 0 [0, 0, 0, 0],
    ({ sendState := .active, nextPsn := 100, una := 100, outstanding := [({ psn := 100, msgid := 4, pkt := req 1 0 0x0000640000000000 0x0000000400000000 0 [], deadline := some 5 } : OutPkt)], ops := [({ started := true, msgid := 4, opcode := 1, report := 1, qn := 7, pos := 0, signal := true, dest := 1 } : SendOp)] } : Chan),
    by decide +kernel⟩

theorem witness_AcksRetireAndComplete_6 :
    ∃ (s : State) (h : Nat) (p : Packet) (x : Chan), s.chip.hears h p x = true ∧ x.sendState = .active ∧
    (p.rpsn - x.lowest).toNat ≤ (x.nextPsn - x.lowest).toNat ∧ s.leaves (fun c => c.takeAck h p) ∧ s.chip.chansQuiet = true :=
  ⟨st (peer ({ sendState := .active, nextPsn := 101, una := 100, outstanding := [({ psn := 100, msgid := 4, pkt := req 1 0 0x0000640000000000 0x0000000400000000 0 [], deadline := some 5 } : OutPkt)], ops := [({ started := true, msgid := 4, opcode := 1, report := 1, qn := 7, pos := 0, signal := true, dest := 1 } : SendOp)] } : Chan)),
    0, resp 8 0x80 101 0 0 0 0 [0, 0, 0, 0],
    ({ sendState := .active, nextPsn := 101, una := 100, outstanding := [({ psn := 100, msgid := 4, pkt := req 1 0 0x0000640000000000 0x0000000400000000 0 [], deadline := some 5 } : OutPkt)], ops := [({ started := true, msgid := 4, opcode := 1, report := 1, qn := 7, pos := 0, signal := true, dest := 1 } : SendOp)] } : Chan),
    by decide +kernel⟩

theorem witness_AcksRetireAndComplete_7 :
    ∃ (s : State) (h : Nat) (p : Packet) (x : Chan) (a : SendOp) (q : Queue) (cq : Queue), let k := respKey h p;
    s.chip.hears h p x = true ∧ x.sendState = .active ∧ (p.rpsn - x.lowest).toNat ≤ (x.nextPsn - x.lowest).toNat ∧
    s.leaves (fun c => c.takeAck h p) ∧ s.chip.chansQuiet = true ∧ s.chip.opAnswers k x a q cq = true ∧ a.opcode ≠ 0x20 ∧
    ((a.opcode < 0x30 ∨ 0x33 < a.opcode)) ∧ x.outstanding.all (ackNames x p) = true :=
  ⟨st (peer ({ sendState := .active, nextPsn := 101, una := 100, outstanding := [({ psn := 100, msgid := 4, pkt := req 1 0 0x0000640000000000 0x0000000400000000 0 [], deadline := some 5 } : OutPkt)], ops := [({ started := true, msgid := 4, opcode := 1, report := 1, qn := 7, pos := 0, signal := true, dest := 1 } : SendOp)] } : Chan)),
    0, resp 8 0x80 101 0 0 0 0 [0, 0, 0, 0],
    ({ sendState := .active, nextPsn := 101, una := 100, outstanding := [({ psn := 100, msgid := 4, pkt := req 1 0 0x0000640000000000 0x0000000400000000 0 [], deadline := some 5 } : OutPkt)], ops := [({ started := true, msgid := 4, opcode := 1, report := 1, qn := 7, pos := 0, signal := true, dest := 1 } : SendOp)] } : Chan),
    ({ started := true, msgid := 4, opcode := 1, report := 1, qn := 7, pos := 0, signal := true, dest := 1 } : SendOp),
    ({ kind := .sq, cqn := 5, pi := 2 } : Queue), ({ kind := .cq, vecValid := true } : Queue), by decide +kernel⟩


end Sys2Proof.Tests
end

