-- ==== Sys2Proof/Tests/WitnessRouting.lean ====
section
/-! SUPPORT. Witnesses: for each statement and each of its clauses, states and operands that meet the hypotheses. -/

namespace Sys2Proof.Tests

set_option Elab.async false

open Sys2Proof Sys2Proof.Machine

/-! TreePacketsPassUpAndDown, clause by clause. -/

theorem witness_TreePacketsPassUpAndDown_1a :
    ∃ (s : State) (port : Nat) (p : Packet), let up := p.kind == 0x10 && p.opcode != 0x68 && p.opcode != 0x69; s.serving ∧
    (s.chip.oldestTree port p && up) = false :=
  ⟨st node, 5, treep 0x10 0x60 0 [], by decide +kernel⟩

theorem witness_TreePacketsPassUpAndDown_1b :
    ∃ (s : State) (port : Nat) (p : Packet), let up := p.kind == 0x10 && p.opcode != 0x68 && p.opcode != 0x69; s.serving ∧
    (s.chip.oldestTree port p && up) = false :=
  ⟨st (busy 2 [(pnum 0x24 0x105 3, 1)] ({ slot := 3, startedAt := some 0 } : COp) (treep 0x11 0x63 64 [1, 2, 3, 4, 5, 6, 7, 8])),
    5, treep 0x11 0x63 64 [1, 2, 3, 4, 5, 6, 7, 8], by decide +kernel⟩

theorem witness_TreePacketsPassUpAndDown_2 :
    ∃ (s : State) (port : Nat) (p : Packet), s.serving ∧ (s.chip.oldestTree port p && p.isTree && p.opcode == 0x69) = false :=
  ⟨st node, 5, treep 0x10 0x69 0 [], by decide +kernel⟩

theorem witness_TreePacketsPassUpAndDown_3a :
    ∃ (s : State) (port : Nat) (p : Packet), let up := p.kind == 0x10 && p.opcode != 0x68 && p.opcode != 0x69;
    s.leaves (fun c => (c.admitTree port p).1) ∧ s.chip.oldestTree port p = true ∧ (s.chip.admitTree port p).2 = none ∧
    up = true :=
  ⟨st (busy 2 [] ({ slot := 3, startedAt := some 0 } : COp) (treep 0x10 0x60 0 [])), 5, treep 0x10 0x60 0 [],
    by decide +kernel⟩

theorem witness_TreePacketsPassUpAndDown_3b :
    ∃ (s : State) (port : Nat) (p : Packet), let up := p.kind == 0x10 && p.opcode != 0x68 && p.opcode != 0x69;
    s.leaves (fun c => (c.admitTree port p).1) ∧ s.chip.oldestTree port p = true ∧ (s.chip.admitTree port p).2 = none ∧
    up = true :=
  ⟨st (busy 2 [(pnum 0x24 0x105 3, 1)] ({ slot := 3, startedAt := some 0, known := true, opcode := 99, scnt := 1, length := 8, posts := [({ host := 0, qn := 7, entry := cent 99 8, rank := 0, pos := 0 } : CPost)] } : COp) (({ treep 0x10 0x67 64 [1, 2, 3, 4, 5, 6, 7, 8] with w1 := 0, w2 := 70368744177664 } : Packet).sealed)),
    5, ({ treep 0x10 0x67 64 [1, 2, 3, 4, 5, 6, 7, 8] with w1 := 0, w2 := 70368744177664 } : Packet).sealed,
    by decide +kernel⟩

theorem witness_TreePacketsPassUpAndDown_4 :
    ∃ (s : State) (port : Nat) (p : Packet), s.leaves (fun c => (c.admitTree port p).1) ∧ s.chip.oldestTree port p = true ∧
    (s.chip.admitTree port p).2 = none ∧ p.isTree = true ∧ p.opcode = 0x69 :=
  ⟨st (busy 2 [] ({ slot := 3, startedAt := some 0 } : COp) (treep 0x10 0x69 0 [])), 5, treep 0x10 0x69 0 [],
    by decide +kernel⟩

theorem witness_TreePacketsPassUpAndDown_5a :
    ∃ (s : State) (port : Nat) (m : Nat) (p : Packet) (o : COp), let waits := !s.chip.allPosted o;
    let up := p.kind == 0x10 && p.opcode != 0x68 && p.opcode != 0x69;
    let agreed := o.agrees p.opcode p.dtype p.redop p.scnt; s.chip.collTakes port p m o = true ∧ o.rising = true ∧
    s.leaves (fun c => c.collectiveUp port p false) ∧ up = true ∧ agreed = true ∧ p.scnt ≠ 0 ∧ waits = true :=
  ⟨st (busy 2 [(pnum 0x24 0x105 3, 1)] ({ slot := 3, startedAt := some 0 } : COp) (treep 0x10 0x60 0 [])), 5, 3,
    treep 0x10 0x60 0 [], ({ slot := 3, startedAt := some 0 } : COp), by decide +kernel⟩

theorem witness_TreePacketsPassUpAndDown_5b :
    ∃ (s : State) (port : Nat) (m : Nat) (p : Packet) (o : COp), let waits := !s.chip.allPosted o;
    let up := p.kind == 0x10 && p.opcode != 0x68 && p.opcode != 0x69;
    let agreed := o.agrees p.opcode p.dtype p.redop p.scnt; s.chip.collTakes port p m o = true ∧ o.rising = true ∧
    s.leaves (fun c => c.collectiveUp port p false) ∧ up = true ∧ agreed = true ∧ p.scnt ≠ 0 ∧ waits = true :=
  ⟨st (busy 2 [(pnum 0x24 0x105 3, 1)] ({ slot := 3, startedAt := some 0 } : COp) (treep 0x10 0x63 64 [1, 2, 3, 4, 5, 6, 7, 8])),
    5, 3, treep 0x10 0x63 64 [1, 2, 3, 4, 5, 6, 7, 8], ({ slot := 3, startedAt := some 0 } : COp), by decide +kernel⟩

theorem witness_TreePacketsPassUpAndDown_5c :
    ∃ (s : State) (port : Nat) (m : Nat) (p : Packet) (o : COp), let waits := !s.chip.allPosted o;
    let up := p.kind == 0x10 && p.opcode != 0x68 && p.opcode != 0x69;
    let agreed := o.agrees p.opcode p.dtype p.redop p.scnt; s.chip.collTakes port p m o = true ∧ o.rising = true ∧
    s.leaves (fun c => c.collectiveUp port p false) ∧ up = true ∧ agreed = true ∧ p.scnt ≠ 0 ∧ waits = true :=
  ⟨st (busy 2 [(pnum 0x24 0x105 3, 1)] ({ slot := 3, startedAt := some 0 } : COp) (treep 0x10 0x61 64 [1, 2, 3, 4, 5, 6, 7, 8])),
    5, 3, treep 0x10 0x61 64 [1, 2, 3, 4, 5, 6, 7, 8], ({ slot := 3, startedAt := some 0 } : COp), by decide +kernel⟩

theorem witness_TreePacketsPassUpAndDown_6a :
    ∃ (s : State) (port : Nat) (m : Nat) (p : Packet) (o : COp),
    let relays := s.chip.allPosted o && (s.chip.mParent m).isSome && (o.posts.isEmpty || s.chip.clusterUp 3) && ((Tab.get o.segs 0 CSeg.init).contrib.contains 60 || o.posts.all fun x => p.opcode == 0x60 || (!isReduction p.opcode && x.rank != o.rootRank));
    let up := p.kind == 0x10 && p.opcode != 0x68 && p.opcode != 0x69;
    let agreed := o.agrees p.opcode p.dtype p.redop p.scnt; s.chip.collTakes port p m o = true ∧ o.rising = true ∧
    s.leaves (fun c => c.collectiveUp port p false) ∧ up = true ∧ agreed = true ∧ p.scnt ≠ 0 ∧ relays = true :=
  ⟨st { busy 2 [(pnum 0x24 0x105 3, 1)] ({ slot := 3, startedAt := some 0, known := true, opcode := 96, scnt := 1 } : COp) (treep 0x10 0x60 0 []) with dict := { active := (pnum 0x24 0x020 3, 0) :: team 2 [(pnum 0x24 0x105 3, 1)] } },
    5, 3, treep 0x10 0x60 0 [], ({ slot := 3, startedAt := some 0, known := true, opcode := 96, scnt := 1 } : COp),
    by decide +kernel⟩

theorem witness_TreePacketsPassUpAndDown_6b :
    ∃ (s : State) (port : Nat) (m : Nat) (p : Packet) (o : COp),
    let relays := s.chip.allPosted o && (s.chip.mParent m).isSome && (o.posts.isEmpty || s.chip.clusterUp 3) && ((Tab.get o.segs 0 CSeg.init).contrib.contains 60 || o.posts.all fun x => p.opcode == 0x60 || (!isReduction p.opcode && x.rank != o.rootRank));
    let up := p.kind == 0x10 && p.opcode != 0x68 && p.opcode != 0x69;
    let agreed := o.agrees p.opcode p.dtype p.redop p.scnt; s.chip.collTakes port p m o = true ∧ o.rising = true ∧
    s.leaves (fun c => c.collectiveUp port p false) ∧ up = true ∧ agreed = true ∧ p.scnt ≠ 0 ∧ relays = true :=
  ⟨st { busy 2 [(pnum 0x24 0x105 3, 1)] ({ slot := 3, startedAt := some 0, known := true, opcode := 99, scnt := 1 } : COp) (treep 0x10 0x63 64 [1, 2, 3, 4, 5, 6, 7, 8]) with dict := { active := (pnum 0x24 0x020 3, 0) :: team 2 [(pnum 0x24 0x105 3, 1)] } },
    5, 3, treep 0x10 0x63 64 [1, 2, 3, 4, 5, 6, 7, 8],
    ({ slot := 3, startedAt := some 0, known := true, opcode := 99, scnt := 1 } : COp), by decide +kernel⟩

theorem witness_TreePacketsPassUpAndDown_6c :
    ∃ (s : State) (port : Nat) (m : Nat) (p : Packet) (o : COp),
    let relays := s.chip.allPosted o && (s.chip.mParent m).isSome && (o.posts.isEmpty || s.chip.clusterUp 3) && ((Tab.get o.segs 0 CSeg.init).contrib.contains 60 || o.posts.all fun x => p.opcode == 0x60 || (!isReduction p.opcode && x.rank != o.rootRank));
    let up := p.kind == 0x10 && p.opcode != 0x68 && p.opcode != 0x69;
    let agreed := o.agrees p.opcode p.dtype p.redop p.scnt; s.chip.collTakes port p m o = true ∧ o.rising = true ∧
    s.leaves (fun c => c.collectiveUp port p false) ∧ up = true ∧ agreed = true ∧ p.scnt ≠ 0 ∧ relays = true :=
  ⟨st { busy 2 [(pnum 0x24 0x105 3, 1)] ({ slot := 3, startedAt := some 0 } : COp) (treep 0x10 0x61 0 []) with dict := { active := (pnum 0x24 0x020 3, 0) :: team 2 [(pnum 0x24 0x105 3, 1)] } },
    5, 3, treep 0x10 0x61 0 [], ({ slot := 3, startedAt := some 0 } : COp), by decide +kernel⟩

theorem witness_TreePacketsPassUpAndDown_6d :
    ∃ (s : State) (port : Nat) (m : Nat) (p : Packet) (o : COp),
    let relays := s.chip.allPosted o && (s.chip.mParent m).isSome && (o.posts.isEmpty || s.chip.clusterUp 3) && ((Tab.get o.segs 0 CSeg.init).contrib.contains 60 || o.posts.all fun x => p.opcode == 0x60 || (!isReduction p.opcode && x.rank != o.rootRank));
    let up := p.kind == 0x10 && p.opcode != 0x68 && p.opcode != 0x69;
    let agreed := o.agrees p.opcode p.dtype p.redop p.scnt; s.chip.collTakes port p m o = true ∧ o.rising = true ∧
    s.leaves (fun c => c.collectiveUp port p false) ∧ up = true ∧ agreed = true ∧ p.scnt ≠ 0 ∧ relays = true :=
  ⟨st (busy 2 [(pnum 0x24 0x105 3, 1)] ({ slot := 3, startedAt := some 0, known := true, opcode := 96, scnt := 1, length := 8, posts := [({ host := 0, qn := 7, entry := cent 96 8, rank := 0, pos := 0 } : CPost)] } : COp) (treep 0x10 0x60 0 [])),
    5, 3, treep 0x10 0x60 0 [],
    ({ slot := 3, startedAt := some 0, known := true, opcode := 96, scnt := 1, length := 8, posts := [({ host := 0, qn := 7, entry := cent 96 8, rank := 0, pos := 0 } : CPost)] } : COp),
    by decide +kernel⟩

theorem witness_TreePacketsPassUpAndDown_6e :
    ∃ (s : State) (port : Nat) (m : Nat) (p : Packet) (o : COp),
    let relays := s.chip.allPosted o && (s.chip.mParent m).isSome && (o.posts.isEmpty || s.chip.clusterUp 3) && ((Tab.get o.segs 0 CSeg.init).contrib.contains 60 || o.posts.all fun x => p.opcode == 0x60 || (!isReduction p.opcode && x.rank != o.rootRank));
    let up := p.kind == 0x10 && p.opcode != 0x68 && p.opcode != 0x69;
    let agreed := o.agrees p.opcode p.dtype p.redop p.scnt; s.chip.collTakes port p m o = true ∧ o.rising = true ∧
    s.leaves (fun c => c.collectiveUp port p false) ∧ up = true ∧ agreed = true ∧ p.scnt ≠ 0 ∧ relays = true :=
  ⟨st (busy 2 [(pnum 0x24 0x105 3, 1)] ({ slot := 3, startedAt := some 0, known := true, opcode := 99, scnt := 1, length := 8, posts := [({ host := 0, qn := 7, entry := cent 99 8, rank := 0, pos := 0 } : CPost)], segs := [(0, ({ contrib := [60], raw := [1, 2, 3, 4] } : CSeg))] } : COp) (treep 0x10 0x63 64 [1, 2, 3, 4, 5, 6, 7, 8])),
    5, 3, treep 0x10 0x63 64 [1, 2, 3, 4, 5, 6, 7, 8],
    ({ slot := 3, startedAt := some 0, known := true, opcode := 99, scnt := 1, length := 8, posts := [({ host := 0, qn := 7, entry := cent 99 8, rank := 0, pos := 0 } : CPost)], segs := [(0, ({ contrib := [60], raw := [1, 2, 3, 4] } : CSeg))] } : COp),
    by decide +kernel⟩

theorem witness_TreePacketsPassUpAndDown_6f :
    ∃ (s : State) (port : Nat) (m : Nat) (p : Packet) (o : COp),
    let relays := s.chip.allPosted o && (s.chip.mParent m).isSome && (o.posts.isEmpty || s.chip.clusterUp 3) && ((Tab.get o.segs 0 CSeg.init).contrib.contains 60 || o.posts.all fun x => p.opcode == 0x60 || (!isReduction p.opcode && x.rank != o.rootRank));
    let up := p.kind == 0x10 && p.opcode != 0x68 && p.opcode != 0x69;
    let agreed := o.agrees p.opcode p.dtype p.redop p.scnt; s.chip.collTakes port p m o = true ∧ o.rising = true ∧
    s.leaves (fun c => c.collectiveUp port p false) ∧ up = true ∧ agreed = true ∧ p.scnt ≠ 0 ∧ relays = true :=
  ⟨st (busy 2 [(pnum 0x24 0x105 3, 1)] ({ slot := 3, startedAt := some 0, known := true, opcode := 97, scnt := 1, length := 8, posts := [({ host := 0, qn := 7, entry := cent 97 8, rank := 0, pos := 0 } : CPost)], rootRank := 1 } : COp) (treep 0x10 0x61 64 [1, 2, 3, 4, 5, 6, 7, 8])),
    5, 3, treep 0x10 0x61 64 [1, 2, 3, 4, 5, 6, 7, 8],
    ({ slot := 3, startedAt := some 0, known := true, opcode := 97, scnt := 1, length := 8, posts := [({ host := 0, qn := 7, entry := cent 97 8, rank := 0, pos := 0 } : CPost)], rootRank := 1 } : COp),
    by decide +kernel⟩

theorem witness_TreePacketsPassUpAndDown_7 :
    ∃ (s : State) (port : Nat) (m : Nat) (p : Packet) (o : COp) (x : CPost) (q : Queue) (cq : Queue),
    let up := p.kind == 0x10 && p.opcode != 0x68 && p.opcode != 0x69;
    let agreed := o.agrees p.opcode p.dtype p.redop p.scnt; let o1 := o.takeUp port p; s.chip.collTakes port p m o = true ∧
    o.rising = true ∧ s.leaves (fun c => c.collectiveUp port p false) ∧ up = true ∧ agreed = true ∧ p.scnt ≠ 0 ∧
    p.opcode = 0x60 ∧ s.chip.mParent m = none ∧ s.chip.allPosted o = true ∧ s.chip.clusterUp 3 = true ∧
    s.chip.collOps m = [o] ∧ s.chip.collPost o x q cq = true ∧ o.upSent = false ∧
    ((s.chip.liveChildren o1).all fun r => o1.upFrom.contains r.1) = true :=
  ⟨st (busy 255 [(pnum 0x24 0x105 3, 1)] ({ slot := 3, startedAt := some 0, known := true, opcode := 96, scnt := 1, length := 8, posts := [({ host := 0, qn := 7, entry := cent 96 8, rank := 0, pos := 0 } : CPost)] } : COp) (treep 0x10 0x60 0 [])),
    5, 3, treep 0x10 0x60 0 [],
    ({ slot := 3, startedAt := some 0, known := true, opcode := 96, scnt := 1, length := 8, posts := [({ host := 0, qn := 7, entry := cent 96 8, rank := 0, pos := 0 } : CPost)] } : COp),
    ({ host := 0, qn := 7, entry := cent 96 8, rank := 0, pos := 0 } : CPost), ({ kind := .sq, cqn := 5, pi := 2 } : Queue),
    ({ kind := .cq, vecValid := true } : Queue), by decide +kernel⟩

theorem witness_TreePacketsPassUpAndDown_8a :
    ∃ (s : State) (port : Nat) (m : Nat) (p : Packet) (o : COp) (poisoned : _),
    let up := p.kind == 0x10 && p.opcode != 0x68 && p.opcode != 0x69;
    let agreed := o.agrees p.opcode p.dtype p.redop p.scnt; s.chip.collTakes port p m o = true ∧ o.rising = true ∧
    s.leaves (fun c => c.collectiveUp port p poisoned) ∧ up = true ∧ (agreed = false ∨ (poisoned = true ∧ o.segs ≠ [])) ∧
    o.posts = [] ∧ s.chip.clusterUp 3 = true :=
  ⟨st (busy 2 [(pnum 0x24 0x105 3, 1)] ({ slot := 3, startedAt := some 0, known := true, opcode := 98, scnt := 1 } : COp) (treep 0x10 0x63 64 [1, 2, 3, 4, 5, 6, 7, 8])),
    5, 3, treep 0x10 0x63 64 [1, 2, 3, 4, 5, 6, 7, 8],
    ({ slot := 3, startedAt := some 0, known := true, opcode := 98, scnt := 1 } : COp), false, by decide +kernel⟩

theorem witness_TreePacketsPassUpAndDown_8b :
    ∃ (s : State) (port : Nat) (m : Nat) (p : Packet) (o : COp) (poisoned : _),
    let up := p.kind == 0x10 && p.opcode != 0x68 && p.opcode != 0x69;
    let agreed := o.agrees p.opcode p.dtype p.redop p.scnt; s.chip.collTakes port p m o = true ∧ o.rising = true ∧
    s.leaves (fun c => c.collectiveUp port p poisoned) ∧ up = true ∧ (agreed = false ∨ (poisoned = true ∧ o.segs ≠ [])) ∧
    o.posts = [] ∧ s.chip.clusterUp 3 = true :=
  ⟨st { busy 2 [(pnum 0x24 0x105 3, 1)] ({ slot := 3, startedAt := some 0, known := true, opcode := 99, scnt := 1, segs := [(0, ({ contrib := [5], raw := [1, 2, 3, 4] } : CSeg))] } : COp) (treep 0x10 0x63 64 [1, 2, 3, 4, 5, 6, 7, 8]) with mem := { groups := (List.range 16).map fun i => (i, { absentAtLayout := true }) } },
    5, 3, treep 0x10 0x63 64 [1, 2, 3, 4, 5, 6, 7, 8],
    ({ slot := 3, startedAt := some 0, known := true, opcode := 99, scnt := 1, segs := [(0, ({ contrib := [5], raw := [1, 2, 3, 4] } : CSeg))] } : COp),
    true, by decide +kernel⟩

theorem witness_TreePacketsPassUpAndDown_9a :
    ∃ (s : State) (port : Nat) (m : Nat) (p : Packet) (o : COp), let waits := !s.chip.allPosted o;
    let relays := s.chip.allPosted o && (s.chip.mParent m).isSome && (o.posts.isEmpty || s.chip.clusterUp 3) && ((Tab.get o.segs 0 CSeg.init).contrib.contains 60 || o.posts.all fun x => p.opcode == 0x60 || (!isReduction p.opcode && x.rank != o.rootRank));
    s.chip.collTakes port p m o = true ∧ o.rising = true ∧ s.leaves (fun c => c.collectiveDone port p) ∧ p.kind = 0x10 ∧
    p.opcode = 0x69 ∧ o.agrees 0x61 0 0 p.scnt = true ∧ (waits || relays) = true ∧ p.scnt ≠ 0 :=
  ⟨st (busy 2 [(pnum 0x24 0x105 3, 1)] ({ slot := 3, startedAt := some 0, known := true, opcode := 97, scnt := 1 } : COp) (treep 0x10 0x69 0 [])),
    5, 3, treep 0x10 0x69 0 [], ({ slot := 3, startedAt := some 0, known := true, opcode := 97, scnt := 1 } : COp),
    by decide +kernel⟩

theorem witness_TreePacketsPassUpAndDown_9b :
    ∃ (s : State) (port : Nat) (m : Nat) (p : Packet) (o : COp), let waits := !s.chip.allPosted o;
    let relays := s.chip.allPosted o && (s.chip.mParent m).isSome && (o.posts.isEmpty || s.chip.clusterUp 3) && ((Tab.get o.segs 0 CSeg.init).contrib.contains 60 || o.posts.all fun x => p.opcode == 0x60 || (!isReduction p.opcode && x.rank != o.rootRank));
    s.chip.collTakes port p m o = true ∧ o.rising = true ∧ s.leaves (fun c => c.collectiveDone port p) ∧ p.kind = 0x10 ∧
    p.opcode = 0x69 ∧ o.agrees 0x61 0 0 p.scnt = true ∧ (waits || relays) = true ∧ p.scnt ≠ 0 :=
  ⟨st (busy 2 [(pnum 0x24 0x105 3, 1)] ({ slot := 3, startedAt := some 0, known := true, opcode := 97, scnt := 1, length := 8, posts := [({ host := 0, qn := 7, entry := cent 97 8, rank := 0, pos := 0 } : CPost)], rootRank := 1 } : COp) (treep 0x10 0x69 0 [])),
    5, 3, treep 0x10 0x69 0 [],
    ({ slot := 3, startedAt := some 0, known := true, opcode := 97, scnt := 1, length := 8, posts := [({ host := 0, qn := 7, entry := cent 97 8, rank := 0, pos := 0 } : CPost)], rootRank := 1 } : COp),
    by decide +kernel⟩

theorem witness_TreePacketsPassUpAndDown_9c :
    ∃ (s : State) (port : Nat) (m : Nat) (p : Packet) (o : COp), let waits := !s.chip.allPosted o;
    let relays := s.chip.allPosted o && (s.chip.mParent m).isSome && (o.posts.isEmpty || s.chip.clusterUp 3) && ((Tab.get o.segs 0 CSeg.init).contrib.contains 60 || o.posts.all fun x => p.opcode == 0x60 || (!isReduction p.opcode && x.rank != o.rootRank));
    s.chip.collTakes port p m o = true ∧ o.rising = true ∧ s.leaves (fun c => c.collectiveDone port p) ∧ p.kind = 0x10 ∧
    p.opcode = 0x69 ∧ o.agrees 0x61 0 0 p.scnt = true ∧ (waits || relays) = true ∧ p.scnt ≠ 0 :=
  ⟨st { busy 2 [(pnum 0x24 0x105 3, 1)] ({ slot := 3, startedAt := some 0, known := true, opcode := 97, scnt := 1, upFrom := [5] } : COp) (treep 0x10 0x69 0 []) with dict := { active := (pnum 0x24 0x020 3, 0) :: team 2 [(pnum 0x24 0x105 3, 1)] } },
    5, 3, treep 0x10 0x69 0 [],
    ({ slot := 3, startedAt := some 0, known := true, opcode := 97, scnt := 1, upFrom := [5] } : COp), by decide +kernel⟩

theorem witness_TreePacketsPassUpAndDown_10a :
    ∃ (s : State) (port : Nat) (m : Nat) (p : Packet) (o : COp), s.chip.collTakes port p m o = true ∧ o.rising = true ∧
    s.leaves (fun c => c.collectiveDone port p) ∧ p.isTree = true ∧ p.opcode = 0x69 ∧ o.agrees 0x61 0 0 p.scnt = false ∧
    o.posts = [] ∧ s.chip.clusterUp 3 = true :=
  ⟨st (busy 2 [(pnum 0x24 0x105 3, 1)] ({ slot := 3, startedAt := some 0, known := true, opcode := 98, scnt := 1 } : COp) (treep 0x10 0x69 0 [])),
    5, 3, treep 0x10 0x69 0 [], ({ slot := 3, startedAt := some 0, known := true, opcode := 98, scnt := 1 } : COp),
    by decide +kernel⟩

theorem witness_TreePacketsPassUpAndDown_10b :
    ∃ (s : State) (port : Nat) (m : Nat) (p : Packet) (o : COp), s.chip.collTakes port p m o = true ∧ o.rising = true ∧
    s.leaves (fun c => c.collectiveDone port p) ∧ p.isTree = true ∧ p.opcode = 0x69 ∧ o.agrees 0x61 0 0 p.scnt = false ∧
    o.posts = [] ∧ s.chip.clusterUp 3 = true :=
  ⟨st (busy 5 [] ({ slot := 3, startedAt := some 0, known := true, opcode := 98, scnt := 1 } : COp) (treep 0x11 0x69 0 [])),
    5, 3, treep 0x11 0x69 0 [], ({ slot := 3, startedAt := some 0, known := true, opcode := 98, scnt := 1 } : COp),
    by decide +kernel⟩

theorem witness_TreePacketsPassUpAndDown_11 :
    ∃ (s : State) (m : Nat) (cseq : _), s.serving ∧ s.chip.collOp? m cseq = none :=
  ⟨st node, 3, 0, by decide +kernel⟩

theorem witness_TreePacketsPassUpAndDown_12 :
    ∃ (s : State) (m : Nat) (o : COp) (cseq : _) (seg : _), s.chip.collOp? m cseq = some o ∧ s.serving ∧
    Tab.get? o.segs seg = none :=
  ⟨st (busy 2 [(pnum 0x24 0x105 3, 1)] ({ slot := 3, startedAt := some 0, known := true, opcode := 99, scnt := 1, length := 8, posts := [({ host := 0, qn := 7, entry := cent 99 8, rank := 0, pos := 0 } : CPost)], segs := [(0, ({ contrib := [60, 5], raw := [1, 2, 3, 4] } : CSeg))] } : COp) Packet.init),
    3,
    ({ slot := 3, startedAt := some 0, known := true, opcode := 99, scnt := 1, length := 8, posts := [({ host := 0, qn := 7, entry := cent 99 8, rank := 0, pos := 0 } : CPost)], segs := [(0, ({ contrib := [60, 5], raw := [1, 2, 3, 4] } : CSeg))] } : COp),
    0, 3, by decide +kernel⟩

theorem witness_TreePacketsPassUpAndDown_13a :
    ∃ (s : State) (m : Nat) (o : COp) (cseq : _) (seg : _) (poisoned : _) (g : CSeg),
    let ready (g : CSeg) : Bool := o.abort.isNone && !g.sentUp && (s.chip.segComplete o seg g || s.chip.segMayEnd o g) && (!isReduction o.opcode || s.chip.allPosted o);
    let room := decide (s.chip.stageUsed m + stageCost o.opcode o.dtype o.redop ≤ s.chip.mReserve m);
    let root := (s.chip.mParent m).isNone; s.chip.collOp? m cseq = some o ∧ Tab.get? o.segs seg = some g ∧ s.serving ∧
    (ready g = false ∨ (poisoned = false ∧ root = false ∧ room = false) ∨ (poisoned = false ∧ root = true ∧ isReduction o.opcode = false)) :=
  ⟨st (busy 2 [(pnum 0x24 0x105 3, 1)] ({ slot := 3, startedAt := some 0, known := true, opcode := 99, scnt := 1, length := 8, posts := [({ host := 0, qn := 7, entry := cent 99 8, rank := 0, pos := 0 } : CPost)], segs := [(0, ({ contrib := [60], raw := [1, 2, 3, 4] } : CSeg))] } : COp) Packet.init),
    3,
    ({ slot := 3, startedAt := some 0, known := true, opcode := 99, scnt := 1, length := 8, posts := [({ host := 0, qn := 7, entry := cent 99 8, rank := 0, pos := 0 } : CPost)], segs := [(0, ({ contrib := [60], raw := [1, 2, 3, 4] } : CSeg))] } : COp),
    0, 0, false, ({ contrib := [60], raw := [1, 2, 3, 4] } : CSeg), by decide +kernel⟩

theorem witness_TreePacketsPassUpAndDown_13b :
    ∃ (s : State) (m : Nat) (o : COp) (cseq : _) (seg : _) (poisoned : _) (g : CSeg),
    let ready (g : CSeg) : Bool := o.abort.isNone && !g.sentUp && (s.chip.segComplete o seg g || s.chip.segMayEnd o g) && (!isReduction o.opcode || s.chip.allPosted o);
    let room := decide (s.chip.stageUsed m + stageCost o.opcode o.dtype o.redop ≤ s.chip.mReserve m);
    let root := (s.chip.mParent m).isNone; s.chip.collOp? m cseq = some o ∧ Tab.get? o.segs seg = some g ∧ s.serving ∧
    (ready g = false ∨ (poisoned = false ∧ root = false ∧ room = false) ∨ (poisoned = false ∧ root = true ∧ isReduction o.opcode = false)) :=
  ⟨st { busy 2 [(pnum 0x24 0x105 3, 1)] ({ slot := 3, startedAt := some 0, known := true, opcode := 99, scnt := 1, length := 8, posts := [({ host := 0, qn := 7, entry := cent 99 8, rank := 0, pos := 0 } : CPost)], segs := [(0, ({ contrib := [60, 5], raw := [1, 2, 3, 4] } : CSeg))] } : COp) Packet.init with dict := { active := (pnum 0x24 0x013 3, 0) :: team 2 [(pnum 0x24 0x105 3, 1)] } },
    3,
    ({ slot := 3, startedAt := some 0, known := true, opcode := 99, scnt := 1, length := 8, posts := [({ host := 0, qn := 7, entry := cent 99 8, rank := 0, pos := 0 } : CPost)], segs := [(0, ({ contrib := [60, 5], raw := [1, 2, 3, 4] } : CSeg))] } : COp),
    0, 0, false, ({ contrib := [60, 5], raw := [1, 2, 3, 4] } : CSeg), by decide +kernel⟩

theorem witness_TreePacketsPassUpAndDown_13c :
    ∃ (s : State) (m : Nat) (o : COp) (cseq : _) (seg : _) (poisoned : _) (g : CSeg),
    let ready (g : CSeg) : Bool := o.abort.isNone && !g.sentUp && (s.chip.segComplete o seg g || s.chip.segMayEnd o g) && (!isReduction o.opcode || s.chip.allPosted o);
    let room := decide (s.chip.stageUsed m + stageCost o.opcode o.dtype o.redop ≤ s.chip.mReserve m);
    let root := (s.chip.mParent m).isNone; s.chip.collOp? m cseq = some o ∧ Tab.get? o.segs seg = some g ∧ s.serving ∧
    (ready g = false ∨ (poisoned = false ∧ root = false ∧ room = false) ∨ (poisoned = false ∧ root = true ∧ isReduction o.opcode = false)) :=
  ⟨st (busy 255 [(pnum 0x24 0x105 3, 1)] ({ slot := 3, startedAt := some 0, known := true, opcode := 97, scnt := 1, length := 8, posts := [({ host := 0, qn := 7, entry := cent 97 8, rank := 0, pos := 0 } : CPost)], rootRank := 1, segs := [(0, { contrib := [5], raw := [1, 2, 3, 4] })] } : COp) Packet.init),
    3,
    ({ slot := 3, startedAt := some 0, known := true, opcode := 97, scnt := 1, length := 8, posts := [({ host := 0, qn := 7, entry := cent 97 8, rank := 0, pos := 0 } : CPost)], rootRank := 1, segs := [(0, { contrib := [5], raw := [1, 2, 3, 4] })] } : COp),
    0, 0, false, ({ contrib := [5], raw := [1, 2, 3, 4] } : CSeg), by decide +kernel⟩

theorem witness_TreePacketsPassUpAndDown_14 :
    ∃ (s : State) (m : Nat) (o : COp) (cseq : _) (seg : _) (g : CSeg),
    let ready (g : CSeg) : Bool := o.abort.isNone && !g.sentUp && (s.chip.segComplete o seg g || s.chip.segMayEnd o g) && (!isReduction o.opcode || s.chip.allPosted o);
    let room := decide (s.chip.stageUsed m + stageCost o.opcode o.dtype o.redop ≤ s.chip.mReserve m);
    let root := (s.chip.mParent m).isNone; s.chip.collOp? m cseq = some o ∧ Tab.get? o.segs seg = some g ∧
    s.leaves (fun c => c.segmentUp m cseq seg false) ∧ ready g = true ∧ root = false ∧ room = true :=
  ⟨st (busy 2 [(pnum 0x24 0x105 3, 1)] ({ slot := 3, startedAt := some 0, known := true, opcode := 99, scnt := 1, length := 8, posts := [({ host := 0, qn := 7, entry := cent 99 8, rank := 0, pos := 0 } : CPost)], segs := [(0, ({ contrib := [60, 5], raw := [1, 2, 3, 4] } : CSeg))] } : COp) Packet.init),
    3,
    ({ slot := 3, startedAt := some 0, known := true, opcode := 99, scnt := 1, length := 8, posts := [({ host := 0, qn := 7, entry := cent 99 8, rank := 0, pos := 0 } : CPost)], segs := [(0, ({ contrib := [60, 5], raw := [1, 2, 3, 4] } : CSeg))] } : COp),
    0, 0, ({ contrib := [60, 5], raw := [1, 2, 3, 4] } : CSeg), by decide +kernel⟩

theorem witness_TreePacketsPassUpAndDown_15 :
    ∃ (s : State) (m : Nat) (o : COp) (cseq : _) (seg : _) (g : CSeg),
    let ready (g : CSeg) : Bool := o.abort.isNone && !g.sentUp && (s.chip.segComplete o seg g || s.chip.segMayEnd o g) && (!isReduction o.opcode || s.chip.allPosted o);
    s.chip.collOp? m cseq = some o ∧ Tab.get? o.segs seg = some g ∧ s.leaves (fun c => c.segmentUp m cseq seg true) ∧
    ready g = true ∧ o.posts = [] ∧ o.abortDue = none ∧ s.chip.collTidy m = true ∧ s.chip.clusterUp 3 = true :=
  ⟨st { busy 2 [(pnum 0x24 0x105 3, 1)] ({ slot := 3, startedAt := some 0, known := true, opcode := 99, scnt := 1, segs := [(0, ({ contrib := [5], raw := [1, 2, 3, 4] } : CSeg))] } : COp) Packet.init with mem := { groups := (List.range 16).map fun i => (i, { absentAtLayout := true }) }, dict := { active := (pnum 0x24 0x020 3, 0) :: team 2 [(pnum 0x24 0x105 3, 1)] } },
    3,
    ({ slot := 3, startedAt := some 0, known := true, opcode := 99, scnt := 1, segs := [(0, ({ contrib := [5], raw := [1, 2, 3, 4] } : CSeg))] } : COp),
    0, 0, ({ contrib := [5], raw := [1, 2, 3, 4] } : CSeg), by decide +kernel⟩

theorem witness_TreePacketsPassUpAndDown_16 :
    ∃ (s : State) (m : Nat) (o : COp) (cseq : _) (seg : _) (g : CSeg),
    let ready (g : CSeg) : Bool := o.abort.isNone && !g.sentUp && (s.chip.segComplete o seg g || s.chip.segMayEnd o g) && (!isReduction o.opcode || s.chip.allPosted o);
    let root := (s.chip.mParent m).isNone; s.chip.collOp? m cseq = some o ∧ Tab.get? o.segs seg = some g ∧
    s.leaves (fun c => c.segmentUp m cseq seg false) ∧ ready g = true ∧ root = true ∧ isReduction o.opcode = true ∧
    s.chip.mLocals m = [] ∧ o.posts = [] ∧ s.chip.collQuiet m = true ∧ s.chip.collTidy m = true ∧ o.abortDue = none ∧
    o.segs.length < o.scnt :=
  ⟨st { busy 255 [(pnum 0x24 0x105 3, 1)] ({ slot := 3, startedAt := some 0, known := true, opcode := 0x63, scnt := 2, segs := [(0, ({ contrib := [5], raw := [1, 2, 3, 4] } : CSeg))] } : COp) Packet.init with dict := { active := (pnum 0x24 0x020 3, 0) :: team 255 [(pnum 0x24 0x105 3, 1)] } },
    3,
    ({ slot := 3, startedAt := some 0, known := true, opcode := 0x63, scnt := 2, segs := [(0, ({ contrib := [5], raw := [1, 2, 3, 4] } : CSeg))] } : COp),
    0, 0, ({ contrib := [5], raw := [1, 2, 3, 4] } : CSeg), by decide +kernel⟩

theorem witness_TreePacketsPassUpAndDown_17 :
    ∃ (s : State) (port : Nat) (p : Packet), let down := p.kind == 0x11 && p.opcode != 0x68 && p.opcode != 0x69; s.serving ∧
    (s.chip.oldestTree port p && down) = false :=
  ⟨st node, 5, treep 0x10 0x60 0 [], by decide +kernel⟩

theorem witness_TreePacketsPassUpAndDown_18 :
    ∃ (s : State) (port : Nat) (p : Packet), s.serving ∧
    (s.chip.co.arrivals.contains (port, p) && p.isTree && p.opcode == 0x68 && s.chip.clusterUp 3) = false :=
  ⟨st node, 5, treep 0x10 0x60 0 [], by decide +kernel⟩

theorem witness_TreePacketsPassUpAndDown_19a :
    ∃ (s : State) (m : Nat) (cseq : _), s.serving ∧
    ((s.chip.collOp? m cseq).elim true fun o => !s.chip.clusterUp 3 || !(o.startedAt.elim false fun t => decide (t + 1000000 * s.chip.param 0x24 0x001 0 ≤ s.chip.now)) || (!(s.chip.mLocals m).isEmpty && s.chip.allPosted o && o.posts.all (·.done) && o.abort.isNone)) = true :=
  ⟨st node, 3, 0, by decide +kernel⟩

theorem witness_TreePacketsPassUpAndDown_19b :
    ∃ (s : State) (m : Nat) (cseq : _), s.serving ∧
    ((s.chip.collOp? m cseq).elim true fun o => !s.chip.clusterUp 3 || !(o.startedAt.elim false fun t => decide (t + 1000000 * s.chip.param 0x24 0x001 0 ≤ s.chip.now)) || (!(s.chip.mLocals m).isEmpty && s.chip.allPosted o && o.posts.all (·.done) && o.abort.isNone)) = true :=
  ⟨st (busy 2 [(pnum 0x24 0x105 3, 1)] ({ slot := 3, startedAt := some 0 } : COp) (treep 0x10 0x60 0 [])), 3, 0,
    by decide +kernel⟩

theorem witness_TreePacketsPassUpAndDown_20 :
    ∃ (s : State) (m : Nat) (o : COp) (x : CPost) (q : Queue) (cq : Queue) (t : Nat), s.chip.clusterUp 3 = true ∧
    s.chip.allPosted o = true ∧ o.known = true ∧ s.chip.collOps m = [o] ∧ s.chip.collPost o x q cq = true ∧
    s.chip.rt.fenced = [] ∧ o.rising = true ∧ s.leaves (fun c => c.collectiveTimeout m o.cseq) ∧ o.startedAt = some t ∧
    t + 1000000 * s.chip.param 0x24 0x001 0 ≤ s.chip.now :=
  ⟨st { busy 5 [] ({ slot := 3, startedAt := some 0, known := true, opcode := 99, scnt := 1, length := 8, posts := [({ host := 0, qn := 7, entry := cent 99 8, rank := 0, pos := 0 } : CPost)] } : COp) Packet.init with tb := { now := 100000000000 } },
    3,
    ({ slot := 3, startedAt := some 0, known := true, opcode := 99, scnt := 1, length := 8, posts := [({ host := 0, qn := 7, entry := cent 99 8, rank := 0, pos := 0 } : CPost)] } : COp),
    ({ host := 0, qn := 7, entry := cent 99 8, rank := 0, pos := 0 } : CPost), ({ kind := .sq, cqn := 5, pi := 2 } : Queue),
    ({ kind := .cq, vecValid := true } : Queue), 0, by decide +kernel⟩

theorem witness_TreePacketsPassUpAndDown_21a :
    ∃ (s : State) (port : Nat) (m : Nat) (p : Packet) (o : COp) (x : CPost) (q : Queue) (cq : Queue),
    let down := p.kind == 0x11 && p.opcode != 0x68 && p.opcode != 0x69; s.chip.clusterUp 3 = true ∧
    s.chip.allPosted o = true ∧ o.known = true ∧ s.chip.collOps m = [o] ∧ s.chip.collPost o x q cq = true ∧
    s.chip.rt.fenced = [] ∧ o.rising = true ∧ s.chip.collTakes port p m o = true ∧
    s.leaves (fun c => c.collectiveDown port p) ∧ down = true ∧ o.agrees p.opcode p.dtype p.redop p.scnt = true ∧
    p.opcode = 0x60 :=
  ⟨st (busy 5 [] ({ slot := 3, startedAt := some 0, known := true, opcode := 96, scnt := 1, length := 8, posts := [({ host := 0, qn := 7, entry := cent 96 8, rank := 0, pos := 0 } : CPost)] } : COp) (treep 0x11 0x60 0 [])),
    5, 3, treep 0x11 0x60 0 [],
    ({ slot := 3, startedAt := some 0, known := true, opcode := 96, scnt := 1, length := 8, posts := [({ host := 0, qn := 7, entry := cent 96 8, rank := 0, pos := 0 } : CPost)] } : COp),
    ({ host := 0, qn := 7, entry := cent 96 8, rank := 0, pos := 0 } : CPost), ({ kind := .sq, cqn := 5, pi := 2 } : Queue),
    ({ kind := .cq, vecValid := true } : Queue), by decide +kernel⟩

theorem witness_TreePacketsPassUpAndDown_21b :
    ∃ (s : State) (port : Nat) (m : Nat) (p : Packet) (o : COp) (x : CPost) (q : Queue) (cq : Queue),
    let down := p.kind == 0x11 && p.opcode != 0x68 && p.opcode != 0x69; s.chip.clusterUp 3 = true ∧
    s.chip.allPosted o = true ∧ o.known = true ∧ s.chip.collOps m = [o] ∧ s.chip.collPost o x q cq = true ∧
    s.chip.rt.fenced = [] ∧ o.rising = true ∧ s.chip.collTakes port p m o = true ∧
    s.leaves (fun c => c.collectiveDown port p) ∧ down = true ∧ o.agrees p.opcode p.dtype p.redop p.scnt = true ∧
    p.opcode = 0x60 :=
  ⟨st (busy 5 [] ({ slot := 3, startedAt := some 0, known := true, opcode := 96, scnt := 1, length := 8, posts := [({ host := 0, qn := 7, entry := cent 96 8, rank := 0, pos := 0 } : CPost)] } : COp) (({ treep 0x11 0x60 0 [] with w2 := 0x0000400060000000 } : Packet).sealed)),
    5, 3, ({ treep 0x11 0x60 0 [] with w2 := 0x0000400060000000 } : Packet).sealed,
    ({ slot := 3, startedAt := some 0, known := true, opcode := 96, scnt := 1, length := 8, posts := [({ host := 0, qn := 7, entry := cent 96 8, rank := 0, pos := 0 } : CPost)] } : COp),
    ({ host := 0, qn := 7, entry := cent 96 8, rank := 0, pos := 0 } : CPost), ({ kind := .sq, cqn := 5, pi := 2 } : Queue),
    ({ kind := .cq, vecValid := true } : Queue), by decide +kernel⟩

theorem witness_TreePacketsPassUpAndDown_22 :
    ∃ (s : State) (port : Nat) (m : Nat) (p : Packet) (o : COp) (x : CPost) (q : Queue) (cq : Queue),
    let down := p.kind == 0x11 && p.opcode != 0x68 && p.opcode != 0x69; s.chip.clusterUp 3 = true ∧
    s.chip.allPosted o = true ∧ o.known = true ∧ s.chip.collOps m = [o] ∧ s.chip.collPost o x q cq = true ∧
    s.chip.rt.fenced = [] ∧ o.rising = true ∧ s.chip.collTakes port p m o = true ∧
    s.leaves (fun c => c.collectiveDown port p) ∧ down = true ∧ o.agrees p.opcode p.dtype p.redop p.scnt = true ∧
    p.opcode ≠ 0x60 ∧ p.scnt ≤ p.seg :=
  ⟨st (busy 5 [] ({ slot := 3, startedAt := some 0, known := true, opcode := 99, scnt := 1, length := 8, posts := [({ host := 0, qn := 7, entry := cent 99 8, rank := 0, pos := 0 } : CPost)] } : COp) (({ treep 0x11 0x63 64 [1, 2, 3, 4, 5, 6, 7, 8] with w1 := 16384, w2 := 70368744177664 } : Packet).sealed)),
    5, 3, ({ treep 0x11 0x63 64 [1, 2, 3, 4, 5, 6, 7, 8] with w1 := 16384, w2 := 70368744177664 } : Packet).sealed,
    ({ slot := 3, startedAt := some 0, known := true, opcode := 99, scnt := 1, length := 8, posts := [({ host := 0, qn := 7, entry := cent 99 8, rank := 0, pos := 0 } : CPost)] } : COp),
    ({ host := 0, qn := 7, entry := cent 99 8, rank := 0, pos := 0 } : CPost), ({ kind := .sq, cqn := 5, pi := 2 } : Queue),
    ({ kind := .cq, vecValid := true } : Queue), by decide +kernel⟩

theorem witness_TreePacketsPassUpAndDown_23a :
    ∃ (s : State) (port : Nat) (m : Nat) (p : Packet) (o : COp) (x : CPost) (q : Queue) (cq : Queue),
    let down := p.kind == 0x11 && p.opcode != 0x68 && p.opcode != 0x69;
    let k := s.chip.localCheck x.fn x.entry.dkey (x.entry.daddr + (o.placeOf (s.chip.mSize m) x p.seg).getD 0) p.payload.length true;
    let d := s.chip.drawnBy p.payload.length; let bytes := s.chip.overlapped x k p.payload; s.chip.clusterUp 3 = true ∧
    s.chip.allPosted o = true ∧ o.known = true ∧ s.chip.collOps m = [o] ∧ s.chip.collPost o x q cq = true ∧
    s.chip.rt.fenced = [] ∧ o.rising = true ∧ s.chip.collTakes port p m o = true ∧
    s.leaves (fun c => c.collectiveDown port p) ∧ down = true ∧ o.agrees p.opcode p.dtype p.redop p.scnt = true ∧
    p.opcode ≠ 0x60 ∧ p.seg < p.scnt ∧ (s.chip.mParent m).isSome = true ∧ o.nextWrite = p.seg ∧
    (o.placeOf (s.chip.mSize m) x p.seg).isSome = true ∧ p.payload ≠ [] ∧ (d.place k bytes 2).2 = none :=
  ⟨st (busy 5 [] ({ slot := 3, startedAt := some 0, known := true, opcode := 99, scnt := 1, length := 8, posts := [({ host := 0, qn := 7, entry := cent 99 8, rank := 0, pos := 0 } : CPost)] } : COp) (treep 0x11 0x63 64 [1, 2, 3, 4, 5, 6, 7, 8])),
    5, 3, treep 0x11 0x63 64 [1, 2, 3, 4, 5, 6, 7, 8],
    ({ slot := 3, startedAt := some 0, known := true, opcode := 99, scnt := 1, length := 8, posts := [({ host := 0, qn := 7, entry := cent 99 8, rank := 0, pos := 0 } : CPost)] } : COp),
    ({ host := 0, qn := 7, entry := cent 99 8, rank := 0, pos := 0 } : CPost), ({ kind := .sq, cqn := 5, pi := 2 } : Queue),
    ({ kind := .cq, vecValid := true } : Queue), by decide +kernel⟩

theorem witness_TreePacketsPassUpAndDown_23b :
    ∃ (s : State) (port : Nat) (m : Nat) (p : Packet) (o : COp) (x : CPost) (q : Queue) (cq : Queue),
    let down := p.kind == 0x11 && p.opcode != 0x68 && p.opcode != 0x69;
    let k := s.chip.localCheck x.fn x.entry.dkey (x.entry.daddr + (o.placeOf (s.chip.mSize m) x p.seg).getD 0) p.payload.length true;
    let d := s.chip.drawnBy p.payload.length; let bytes := s.chip.overlapped x k p.payload; s.chip.clusterUp 3 = true ∧
    s.chip.allPosted o = true ∧ o.known = true ∧ s.chip.collOps m = [o] ∧ s.chip.collPost o x q cq = true ∧
    s.chip.rt.fenced = [] ∧ o.rising = true ∧ s.chip.collTakes port p m o = true ∧
    s.leaves (fun c => c.collectiveDown port p) ∧ down = true ∧ o.agrees p.opcode p.dtype p.redop p.scnt = true ∧
    p.opcode ≠ 0x60 ∧ p.seg < p.scnt ∧ (s.chip.mParent m).isSome = true ∧ o.nextWrite = p.seg ∧
    (o.placeOf (s.chip.mSize m) x p.seg).isSome = true ∧ p.payload ≠ [] ∧ (d.place k bytes 2).2 = none :=
  ⟨st (busy 5 [] ({ slot := 3, startedAt := some 0, known := true, opcode := 97, scnt := 1, length := 8, posts := [({ host := 0, qn := 7, entry := cent 97 8, rank := 0, pos := 0 } : CPost)], rootRank := 1 } : COp) (treep 0x11 0x61 64 [1, 2, 3, 4, 5, 6, 7, 8])),
    5, 3, treep 0x11 0x61 64 [1, 2, 3, 4, 5, 6, 7, 8],
    ({ slot := 3, startedAt := some 0, known := true, opcode := 97, scnt := 1, length := 8, posts := [({ host := 0, qn := 7, entry := cent 97 8, rank := 0, pos := 0 } : CPost)], rootRank := 1 } : COp),
    ({ host := 0, qn := 7, entry := cent 97 8, rank := 0, pos := 0 } : CPost), ({ kind := .sq, cqn := 5, pi := 2 } : Queue),
    ({ kind := .cq, vecValid := true } : Queue), by decide +kernel⟩

theorem witness_TreePacketsPassUpAndDown_24a :
    ∃ (s : State) (port : Nat) (m : Nat) (p : Packet) (o : COp) (x : CPost) (q : Queue) (cq : Queue),
    let down := p.kind == 0x11 && p.opcode != 0x68 && p.opcode != 0x69;
    let k := s.chip.localCheck x.fn x.entry.dkey (x.entry.daddr + (o.placeOf (s.chip.mSize m) x p.seg).getD 0) p.payload.length true;
    let d := s.chip.drawnBy p.payload.length; let bytes := s.chip.overlapped x k p.payload; s.chip.clusterUp 3 = true ∧
    s.chip.allPosted o = true ∧ o.known = true ∧ s.chip.collOps m = [o] ∧ s.chip.collPost o x q cq = true ∧
    s.chip.rt.fenced = [] ∧ o.rising = true ∧ s.chip.collTakes port p m o = true ∧
    s.leaves (fun c => c.collectiveDown port p) ∧ down = true ∧ o.agrees p.opcode p.dtype p.redop p.scnt = true ∧
    p.opcode ≠ 0x60 ∧ p.seg < p.scnt ∧ (s.chip.mParent m).isSome = true ∧ o.nextWrite = p.seg ∧
    (o.placeOf (s.chip.mSize m) x p.seg).isSome = true ∧ p.payload ≠ [] ∧ (d.place k bytes 2).2 = none ∧ p.scnt = 1 ∧
    o.segs.length ≤ 1 ∧ (o.segs.all fun r => r.1 == 0) = true :=
  ⟨st (busy 5 [] ({ slot := 3, startedAt := some 0, known := true, opcode := 99, scnt := 1, length := 8, posts := [({ host := 0, qn := 7, entry := cent 99 8, rank := 0, pos := 0 } : CPost)] } : COp) (treep 0x11 0x63 64 [1, 2, 3, 4, 5, 6, 7, 8])),
    5, 3, treep 0x11 0x63 64 [1, 2, 3, 4, 5, 6, 7, 8],
    ({ slot := 3, startedAt := some 0, known := true, opcode := 99, scnt := 1, length := 8, posts := [({ host := 0, qn := 7, entry := cent 99 8, rank := 0, pos := 0 } : CPost)] } : COp),
    ({ host := 0, qn := 7, entry := cent 99 8, rank := 0, pos := 0 } : CPost), ({ kind := .sq, cqn := 5, pi := 2 } : Queue),
    ({ kind := .cq, vecValid := true } : Queue), by decide +kernel⟩

theorem witness_TreePacketsPassUpAndDown_24b :
    ∃ (s : State) (port : Nat) (m : Nat) (p : Packet) (o : COp) (x : CPost) (q : Queue) (cq : Queue),
    let down := p.kind == 0x11 && p.opcode != 0x68 && p.opcode != 0x69;
    let k := s.chip.localCheck x.fn x.entry.dkey (x.entry.daddr + (o.placeOf (s.chip.mSize m) x p.seg).getD 0) p.payload.length true;
    let d := s.chip.drawnBy p.payload.length; let bytes := s.chip.overlapped x k p.payload; s.chip.clusterUp 3 = true ∧
    s.chip.allPosted o = true ∧ o.known = true ∧ s.chip.collOps m = [o] ∧ s.chip.collPost o x q cq = true ∧
    s.chip.rt.fenced = [] ∧ o.rising = true ∧ s.chip.collTakes port p m o = true ∧
    s.leaves (fun c => c.collectiveDown port p) ∧ down = true ∧ o.agrees p.opcode p.dtype p.redop p.scnt = true ∧
    p.opcode ≠ 0x60 ∧ p.seg < p.scnt ∧ (s.chip.mParent m).isSome = true ∧ o.nextWrite = p.seg ∧
    (o.placeOf (s.chip.mSize m) x p.seg).isSome = true ∧ p.payload ≠ [] ∧ (d.place k bytes 2).2 = none ∧ p.scnt = 1 ∧
    o.segs.length ≤ 1 ∧ (o.segs.all fun r => r.1 == 0) = true :=
  ⟨st (busy 5 [] ({ slot := 3, startedAt := some 0, known := true, opcode := 97, scnt := 1, length := 8, posts := [({ host := 0, qn := 7, entry := cent 97 8, rank := 0, pos := 0 } : CPost)], rootRank := 1 } : COp) (treep 0x11 0x61 64 [1, 2, 3, 4, 5, 6, 7, 8])),
    5, 3, treep 0x11 0x61 64 [1, 2, 3, 4, 5, 6, 7, 8],
    ({ slot := 3, startedAt := some 0, known := true, opcode := 97, scnt := 1, length := 8, posts := [({ host := 0, qn := 7, entry := cent 97 8, rank := 0, pos := 0 } : CPost)], rootRank := 1 } : COp),
    ({ host := 0, qn := 7, entry := cent 97 8, rank := 0, pos := 0 } : CPost), ({ kind := .sq, cqn := 5, pi := 2 } : Queue),
    ({ kind := .cq, vecValid := true } : Queue), by decide +kernel⟩

theorem witness_TreePacketsPassUpAndDown_25 :
    ∃ (s : State) (port : Nat) (m : Nat) (p : Packet) (o : COp) (x : CPost) (q : Queue) (cq : Queue),
    let down := p.kind == 0x11 && p.opcode != 0x68 && p.opcode != 0x69;
    let k := s.chip.localCheck x.fn x.entry.dkey (x.entry.daddr + (o.placeOf (s.chip.mSize m) x p.seg).getD 0) p.payload.length true;
    let d := s.chip.drawnBy p.payload.length; let bytes := s.chip.overlapped x k p.payload; s.chip.clusterUp 3 = true ∧
    s.chip.allPosted o = true ∧ o.known = true ∧ s.chip.collOps m = [o] ∧ s.chip.collPost o x q cq = true ∧
    s.chip.rt.fenced = [] ∧ o.rising = true ∧ s.chip.collTakes port p m o = true ∧
    s.leaves (fun c => c.collectiveDown port p) ∧ down = true ∧ o.agrees p.opcode p.dtype p.redop p.scnt = true ∧
    p.opcode ≠ 0x60 ∧ p.seg < p.scnt ∧ (s.chip.mParent m).isSome = true ∧ o.nextWrite = p.seg ∧
    (o.placeOf (s.chip.mSize m) x p.seg).isSome = true ∧ p.payload ≠ [] ∧ (d.place k bytes 2).2 ≠ none :=
  ⟨st { busy 5 [] ({ slot := 3, startedAt := some 0, known := true, opcode := 99, scnt := 1, length := 8, posts := [({ host := 0, qn := 7, entry := cent 99 8, rank := 0, pos := 0 } : CPost)] } : COp) (treep 0x11 0x63 64 [1, 2, 3, 4, 5, 6, 7, 8]) with dict := { active := (pnum 0x28 0x031 0, 4) :: team 5 [] } },
    5, 3, treep 0x11 0x63 64 [1, 2, 3, 4, 5, 6, 7, 8],
    ({ slot := 3, startedAt := some 0, known := true, opcode := 99, scnt := 1, length := 8, posts := [({ host := 0, qn := 7, entry := cent 99 8, rank := 0, pos := 0 } : CPost)] } : COp),
    ({ host := 0, qn := 7, entry := cent 99 8, rank := 0, pos := 0 } : CPost), ({ kind := .sq, cqn := 5, pi := 2 } : Queue),
    ({ kind := .cq, vecValid := true } : Queue), by decide +kernel⟩

theorem witness_TreePacketsPassUpAndDown_26 :
    ∃ (s : State) (port : Nat) (m : Nat) (p : Packet) (o : COp) (x : CPost) (q : Queue) (cq : Queue),
    let down := p.kind == 0x11 && p.opcode != 0x68 && p.opcode != 0x69; s.chip.clusterUp 3 = true ∧
    s.chip.allPosted o = true ∧ o.known = true ∧ s.chip.collOps m = [o] ∧ s.chip.collPost o x q cq = true ∧
    s.chip.rt.fenced = [] ∧ o.rising = true ∧ s.chip.collTakes port p m o = true ∧
    s.leaves (fun c => c.collectiveDown port p) ∧ down = true ∧ o.agrees p.opcode p.dtype p.redop p.scnt = true ∧
    p.opcode ≠ 0x60 ∧ p.seg < p.scnt ∧ (s.chip.mParent m).isSome = true ∧ o.nextWrite = p.seg ∧
    (o.placeOf (s.chip.mSize m) x p.seg).isNone = true :=
  ⟨st (busy 5 [] ({ slot := 3, startedAt := some 0, known := true, opcode := 98, scnt := 1, length := 8, posts := [({ host := 0, qn := 7, entry := cent 98 8, rank := 0, pos := 0 } : CPost)], rootRank := 1 } : COp) (treep 0x11 0x62 64 [1, 2, 3, 4, 5, 6, 7, 8])),
    5, 3, treep 0x11 0x62 64 [1, 2, 3, 4, 5, 6, 7, 8],
    ({ slot := 3, startedAt := some 0, known := true, opcode := 98, scnt := 1, length := 8, posts := [({ host := 0, qn := 7, entry := cent 98 8, rank := 0, pos := 0 } : CPost)], rootRank := 1 } : COp),
    ({ host := 0, qn := 7, entry := cent 98 8, rank := 0, pos := 0 } : CPost), ({ kind := .sq, cqn := 5, pi := 2 } : Queue),
    ({ kind := .cq, vecValid := true } : Queue), by decide +kernel⟩

theorem witness_TreePacketsPassUpAndDown_27 :
    ∃ (s : State) (port : Nat) (m : Nat) (p : Packet) (o : COp) (x : CPost) (q : Queue) (cq : Queue),
    let down := p.kind == 0x11 && p.opcode != 0x68 && p.opcode != 0x69; s.chip.clusterUp 3 = true ∧
    s.chip.allPosted o = true ∧ o.known = true ∧ s.chip.collOps m = [o] ∧ s.chip.collPost o x q cq = true ∧
    s.chip.rt.fenced = [] ∧ o.rising = true ∧ s.chip.collTakes port p m o = true ∧
    s.leaves (fun c => c.collectiveDown port p) ∧ down = true ∧ o.agrees p.opcode p.dtype p.redop p.scnt = true ∧
    p.opcode ≠ 0x60 ∧ p.seg < p.scnt ∧ (s.chip.mParent m).isSome = true ∧ o.nextWrite < p.seg ∧
    (o.placeOf (s.chip.mSize m) x o.nextWrite).isSome = true ∧
    (!isReduction p.opcode || (Tab.get o.segs 0 CSeg.init).contrib.contains 60) = true :=
  ⟨st (busy 5 [] ({ slot := 3, startedAt := some 0, known := true, opcode := 99, scnt := 2, length := 8, posts := [({ host := 0, qn := 7, entry := cent 99 8, rank := 0, pos := 0 } : CPost)], segs := [(0, { contrib := [60] })] } : COp) (({ treep 0x11 0x63 64 [1, 2, 3, 4, 5, 6, 7, 8] with w1 := 16384, w2 := 140737488355328 } : Packet).sealed)),
    5, 3, ({ treep 0x11 0x63 64 [1, 2, 3, 4, 5, 6, 7, 8] with w1 := 16384, w2 := 140737488355328 } : Packet).sealed,
    ({ slot := 3, startedAt := some 0, known := true, opcode := 99, scnt := 2, length := 8, posts := [({ host := 0, qn := 7, entry := cent 99 8, rank := 0, pos := 0 } : CPost)], segs := [(0, { contrib := [60] })] } : COp),
    ({ host := 0, qn := 7, entry := cent 99 8, rank := 0, pos := 0 } : CPost), ({ kind := .sq, cqn := 5, pi := 2 } : Queue),
    ({ kind := .cq, vecValid := true } : Queue), by decide +kernel⟩

theorem witness_TreePacketsPassUpAndDown_28 :
    ∃ (s : State) (port : Nat) (m : Nat) (p : Packet) (o : COp) (x : CPost) (q : Queue) (cq : Queue),
    let down := p.kind == 0x11 && p.opcode != 0x68 && p.opcode != 0x69; s.chip.clusterUp 3 = true ∧
    s.chip.allPosted o = true ∧ o.known = true ∧ s.chip.collOps m = [o] ∧ s.chip.collPost o x q cq = true ∧
    s.chip.rt.fenced = [] ∧ o.rising = true ∧ s.chip.collTakes port p m o = true ∧
    s.leaves (fun c => c.collectiveDown port p) ∧ down = true ∧ o.agrees p.opcode p.dtype p.redop p.scnt = false :=
  ⟨st (busy 5 [] ({ slot := 3, startedAt := some 0, known := true, opcode := 98, scnt := 1, length := 8, posts := [({ host := 0, qn := 7, entry := cent 98 8, rank := 0, pos := 0 } : CPost)] } : COp) (treep 0x11 0x63 64 [1, 2, 3, 4, 5, 6, 7, 8])),
    5, 3, treep 0x11 0x63 64 [1, 2, 3, 4, 5, 6, 7, 8],
    ({ slot := 3, startedAt := some 0, known := true, opcode := 98, scnt := 1, length := 8, posts := [({ host := 0, qn := 7, entry := cent 98 8, rank := 0, pos := 0 } : CPost)] } : COp),
    ({ host := 0, qn := 7, entry := cent 98 8, rank := 0, pos := 0 } : CPost), ({ kind := .sq, cqn := 5, pi := 2 } : Queue),
    ({ kind := .cq, vecValid := true } : Queue), by decide +kernel⟩

theorem witness_TreePacketsPassUpAndDown_29 :
    ∃ (s : State) (port : Nat) (m : Nat) (p : Packet) (o : COp) (x : CPost) (q : Queue) (cq : Queue),
    s.chip.clusterUp 3 = true ∧ s.chip.allPosted o = true ∧ o.known = true ∧ s.chip.collOps m = [o] ∧
    s.chip.collPost o x q cq = true ∧ s.chip.rt.fenced = [] ∧ o.rising = true ∧ s.chip.collTakes port p m o = true ∧
    s.leaves (fun c => c.collectiveDone port p) ∧ p.kind = 0x11 ∧ p.opcode = 0x69 ∧ o.agrees 0x61 0 0 p.scnt = true ∧
    x.rank = o.rootRank :=
  ⟨st (busy 5 [] ({ slot := 3, startedAt := some 0, known := true, opcode := 97, scnt := 1, length := 8, posts := [({ host := 0, qn := 7, entry := cent 97 8, rank := 0, pos := 0 } : CPost)] } : COp) (treep 0x11 0x69 0 [])),
    5, 3, treep 0x11 0x69 0 [],
    ({ slot := 3, startedAt := some 0, known := true, opcode := 97, scnt := 1, length := 8, posts := [({ host := 0, qn := 7, entry := cent 97 8, rank := 0, pos := 0 } : CPost)] } : COp),
    ({ host := 0, qn := 7, entry := cent 97 8, rank := 0, pos := 0 } : CPost), ({ kind := .sq, cqn := 5, pi := 2 } : Queue),
    ({ kind := .cq, vecValid := true } : Queue), by decide +kernel⟩

theorem witness_TreePacketsPassUpAndDown_30a :
    ∃ (s : State) (port : Nat) (m : Nat) (p : Packet) (o : COp) (x : CPost) (q : Queue) (cq : Queue),
    s.chip.clusterUp 3 = true ∧ s.chip.allPosted o = true ∧ o.known = true ∧ s.chip.collOps m = [o] ∧
    s.chip.collPost o x q cq = true ∧ s.chip.rt.fenced = [] ∧ o.rising = true ∧ s.chip.collTakes port p m o = true ∧
    s.leaves (fun c => c.collectiveAbort port p) ∧ p.opcode = 0x68 ∧ p.kind = 0x11 :=
  ⟨st (busy 5 [] ({ slot := 3, startedAt := some 0, known := true, opcode := 99, scnt := 1, length := 8, posts := [({ host := 0, qn := 7, entry := cent 99 8, rank := 0, pos := 0 } : CPost)] } : COp) (treep 0x11 0x68 0 [13, 0, 0, 0, 0, 0, 0, 0])),
    5, 3, treep 0x11 0x68 0 [13, 0, 0, 0, 0, 0, 0, 0],
    ({ slot := 3, startedAt := some 0, known := true, opcode := 99, scnt := 1, length := 8, posts := [({ host := 0, qn := 7, entry := cent 99 8, rank := 0, pos := 0 } : CPost)] } : COp),
    ({ host := 0, qn := 7, entry := cent 99 8, rank := 0, pos := 0 } : CPost), ({ kind := .sq, cqn := 5, pi := 2 } : Queue),
    ({ kind := .cq, vecValid := true } : Queue), by decide +kernel⟩

theorem witness_TreePacketsPassUpAndDown_30b :
    ∃ (s : State) (port : Nat) (m : Nat) (p : Packet) (o : COp) (x : CPost) (q : Queue) (cq : Queue),
    s.chip.clusterUp 3 = true ∧ s.chip.allPosted o = true ∧ o.known = true ∧ s.chip.collOps m = [o] ∧
    s.chip.collPost o x q cq = true ∧ s.chip.rt.fenced = [] ∧ o.rising = true ∧ s.chip.collTakes port p m o = true ∧
    s.leaves (fun c => c.collectiveAbort port p) ∧ p.opcode = 0x68 ∧ p.kind = 0x11 :=
  ⟨st (busy 5 [] ({ slot := 3, startedAt := some 0, known := true, opcode := 99, scnt := 1, length := 8, posts := [({ host := 0, qn := 7, entry := cent 99 8, rank := 0, pos := 0 } : CPost)], downTotal := 5 } : COp) (treep 0x11 0x68 0 [15, 0, 0, 0, 0, 0, 0, 0])),
    5, 3, treep 0x11 0x68 0 [15, 0, 0, 0, 0, 0, 0, 0],
    ({ slot := 3, startedAt := some 0, known := true, opcode := 99, scnt := 1, length := 8, posts := [({ host := 0, qn := 7, entry := cent 99 8, rank := 0, pos := 0 } : CPost)], downTotal := 5 } : COp),
    ({ host := 0, qn := 7, entry := cent 99 8, rank := 0, pos := 0 } : CPost), ({ kind := .sq, cqn := 5, pi := 2 } : Queue),
    ({ kind := .cq, vecValid := true } : Queue), by decide +kernel⟩

theorem witness_TreePacketsPassUpAndDown_31a :
    ∃ (s : State) (port : Nat) (m : Nat) (p : Packet) (o : COp) (x : CPost) (q : Queue) (cq : Queue),
    s.chip.clusterUp 3 = true ∧ s.chip.allPosted o = true ∧ o.known = true ∧ s.chip.collOps m = [o] ∧
    s.chip.collPost o x q cq = true ∧ s.chip.rt.fenced = [] ∧ o.rising = true ∧ s.chip.collTakes port p m o = true ∧
    s.leaves (fun c => c.collectiveAbort port p) ∧ p.opcode = 0x68 ∧ p.kind = 0x10 :=
  ⟨st (busy 2 [(pnum 0x24 0x105 3, 1)] ({ slot := 3, startedAt := some 0, known := true, opcode := 99, scnt := 1, length := 8, posts := [({ host := 0, qn := 7, entry := cent 99 8, rank := 0, pos := 0 } : CPost)] } : COp) (treep 0x10 0x68 0 [13, 0, 0, 0, 0, 0, 0, 0])),
    5, 3, treep 0x10 0x68 0 [13, 0, 0, 0, 0, 0, 0, 0],
    ({ slot := 3, startedAt := some 0, known := true, opcode := 99, scnt := 1, length := 8, posts := [({ host := 0, qn := 7, entry := cent 99 8, rank := 0, pos := 0 } : CPost)] } : COp),
    ({ host := 0, qn := 7, entry := cent 99 8, rank := 0, pos := 0 } : CPost), ({ kind := .sq, cqn := 5, pi := 2 } : Queue),
    ({ kind := .cq, vecValid := true } : Queue), by decide +kernel⟩

theorem witness_TreePacketsPassUpAndDown_31b :
    ∃ (s : State) (port : Nat) (m : Nat) (p : Packet) (o : COp) (x : CPost) (q : Queue) (cq : Queue),
    s.chip.clusterUp 3 = true ∧ s.chip.allPosted o = true ∧ o.known = true ∧ s.chip.collOps m = [o] ∧
    s.chip.collPost o x q cq = true ∧ s.chip.rt.fenced = [] ∧ o.rising = true ∧ s.chip.collTakes port p m o = true ∧
    s.leaves (fun c => c.collectiveAbort port p) ∧ p.opcode = 0x68 ∧ p.kind = 0x10 :=
  ⟨st (busy 255 [(pnum 0x24 0x105 3, 1)] ({ slot := 3, startedAt := some 0, known := true, opcode := 99, scnt := 1, length := 8, posts := [({ host := 0, qn := 7, entry := cent 99 8, rank := 0, pos := 0 } : CPost)] } : COp) (treep 0x10 0x68 0 [13, 0, 0, 0, 0, 0, 0, 0])),
    5, 3, treep 0x10 0x68 0 [13, 0, 0, 0, 0, 0, 0, 0],
    ({ slot := 3, startedAt := some 0, known := true, opcode := 99, scnt := 1, length := 8, posts := [({ host := 0, qn := 7, entry := cent 99 8, rank := 0, pos := 0 } : CPost)] } : COp),
    ({ host := 0, qn := 7, entry := cent 99 8, rank := 0, pos := 0 } : CPost), ({ kind := .sq, cqn := 5, pi := 2 } : Queue),
    ({ kind := .cq, vecValid := true } : Queue), by decide +kernel⟩

/-! RegionsComeAndGo, clause by clause. -/

theorem witness_RegionsComeAndGo_1 :
    ∃ (s : State) (fn : Nat) (w : _) (addr : Word), s.serving ∧ s.chip.mayWrite w (pnum 0x28 0x021 fn) = true ∧ fn < 4096 ∧
    addr.toNat % 64 = 0 :=
  ⟨st node, 0, .mailbox 0, 0x40, by decide +kernel⟩

theorem witness_RegionsComeAndGo_2 :
    ∃ (s : State) (fn : Nat) (w : _) (addr : Word), s.serving ∧ s.chip.mayWrite w (pnum 0x28 0x021 fn) = true ∧ fn < 4096 ∧
    addr.toNat % 64 ≠ 0 :=
  ⟨st node, 0, .mailbox 0, 0x48, by decide +kernel⟩

theorem witness_RegionsComeAndGo_3a :
    ∃ (s : State) (fn : Nat) (b : Option RegBlock), let head := s.chip.regionHead? fn; s.serving ∧
    (head = none ∨ b.any (·.cmd == 2) = true) :=
  ⟨st node, 0, none, by decide +kernel⟩

theorem witness_RegionsComeAndGo_3b :
    ∃ (s : State) (fn : Nat) (b : Option RegBlock), let head := s.chip.regionHead? fn; s.serving ∧
    (head = none ∨ b.any (·.cmd == 2) = true) :=
  ⟨st regChip, 0, some ({ rb0 := 0x2000000000000001 } : RegBlock), by decide +kernel⟩

theorem witness_RegionsComeAndGo_4a :
    ∃ (s : State) (fn : Nat) (b : Option RegBlock), let head := s.chip.regionHead? fn; s.serving ∧
    (head = none ∨ b.any (·.cmd != 2) = true) :=
  ⟨st node, 0, none, by decide +kernel⟩

theorem witness_RegionsComeAndGo_4b :
    ∃ (s : State) (fn : Nat) (b : Option RegBlock), let head := s.chip.regionHead? fn; s.serving ∧
    (head = none ∨ b.any (·.cmd != 2) = true) :=
  ⟨st regChip, 0, some { rb0 := 0x13E0000000000005, rb1 := 0x1000, rb2 := 4096, rb4 := 0x00007FFFC0000000 },
    by decide +kernel⟩

theorem witness_RegionsComeAndGo_5 :
    ∃ (s : State) (fn : Nat), let head := s.chip.regionHead? fn; s.leaves (fun c => c.regBlockFails fn) ∧ head.isSome = true :=
  ⟨st regChip, 0, by decide +kernel⟩

theorem witness_RegionsComeAndGo_6 :
    ∃ (s : State) (fn : Nat), let head := s.chip.regionHead? fn; s.leaves (fun c => c.regBlockFails fn) ∧ head.isSome = true :=
  ⟨st regChip, 0, by decide +kernel⟩

theorem witness_RegionsComeAndGo_7 :
    ∃ (s : State) (fn : Nat) (addr : _) (b : RegBlock) (pages : _) (l : _), let head := s.chip.regionHead? fn;
    head = some addr ∧ s.serving ∧ b.cmd ≠ 2 ∧ pages = some l ∧ s.chip.registerResult fn b pages = 0 :=
  ⟨st regChip, 0, 0x2000, { rb0 := 0x13E0000000000005, rb1 := 0x1000, rb2 := 4096, rb4 := 0x00007FFFC0000000 },
    some [0x9000], [0x9000], by decide +kernel⟩

theorem witness_RegionsComeAndGo_8a :
    ∃ (s : State) (fn : Nat) (addr : _) (b : RegBlock) (pages : _), let head := s.chip.regionHead? fn; head = some addr ∧
    s.serving ∧ b.cmd ≠ 2 ∧ s.chip.registerResult fn b pages ≠ 0 :=
  ⟨st regChip, 0, 0x2000, { rb0 := 0x13E0000000000005, rb1 := 0x1000, rb2 := 4096, rb4 := 0x00007FFFC0000000 }, none,
    by decide +kernel⟩

theorem witness_RegionsComeAndGo_8b :
    ∃ (s : State) (fn : Nat) (addr : _) (b : RegBlock) (pages : _), let head := s.chip.regionHead? fn; head = some addr ∧
    s.serving ∧ b.cmd ≠ 2 ∧ s.chip.registerResult fn b pages ≠ 0 :=
  ⟨st regChip, 0, 0x2000, { rb0 := 0x1000000000000011, rb2 := 1 }, none, by decide +kernel⟩

theorem witness_RegionsComeAndGo_9a :
    ∃ (s : State) (fn : Nat) (addr : _) (b : RegBlock), let head := s.chip.regionHead? fn; head = some addr ∧ b.cmd = 2 ∧
    s.serving ∧ (s.chip.indexOk fn b.index = false ∨ Tab.get? s.chip.mem.regions b.index = none) :=
  ⟨st regChip, 0, 0x2000, { ({ rb0 := 0x2000000000000001 } : RegBlock) with rb0 := 0x2000000000000007 },
    by decide +kernel⟩

theorem witness_RegionsComeAndGo_9b :
    ∃ (s : State) (fn : Nat) (addr : _) (b : RegBlock), let head := s.chip.regionHead? fn; head = some addr ∧ b.cmd = 2 ∧
    s.serving ∧ (s.chip.indexOk fn b.index = false ∨ Tab.get? s.chip.mem.regions b.index = none) :=
  ⟨st regChip, 0, 0x2000, { ({ rb0 := 0x2000000000000001 } : RegBlock) with rb0 := 0x2000000000FFFFFF },
    by decide +kernel⟩

theorem witness_RegionsComeAndGo_10a :
    ∃ (s : State) (fn : Nat) (addr : _) (b : RegBlock), let head := s.chip.regionHead? fn; head = some addr ∧ b.cmd = 2 ∧
    s.leaves (fun c => c.deregister fn (some b)) ∧ s.chip.indexOk fn b.index = true ∧
    (Tab.get? s.chip.mem.regions b.index).isSome = true :=
  ⟨st regChip, 0, 0x2000, ({ rb0 := 0x2000000000000001 } : RegBlock), by decide +kernel⟩

theorem witness_RegionsComeAndGo_10b :
    ∃ (s : State) (fn : Nat) (addr : _) (b : RegBlock), let head := s.chip.regionHead? fn; head = some addr ∧ b.cmd = 2 ∧
    s.leaves (fun c => c.deregister fn (some b)) ∧ s.chip.indexOk fn b.index = true ∧
    (Tab.get? s.chip.mem.regions b.index).isSome = true :=
  ⟨st { regChip with mt := { sOffers := [{ index := 4, lkey := 0x100, chan := 4, qn := 7 }] } }, 0, 0x2000,
    ({ rb0 := 0x2000000000000001 } : RegBlock), by decide +kernel⟩

theorem witness_RegionsComeAndGo_11 :
    ∃ (s : State) (fn : Nat), s.serving ∧ (s.chip.fn fn).deregJob = none :=
  ⟨st node, 0, by decide +kernel⟩

theorem witness_RegionsComeAndGo_12 :
    ∃ (s : State) (fn : Nat) (addr : _) (key : _), let busy := s.chip.tr.hostReads.any fun r => r.region == key / 256;
    s.serving ∧ (s.chip.fn fn).deregJob = some (addr, key) ∧ busy = true :=
  ⟨st { node with funcs := [(0, { state := .ready, deregJob := some (0x2000, 256) })], tr := { hostReads := [{ id := 6, pkt := Packet.init, region := 1 }] } },
    0, 0x2000, 256, by decide +kernel⟩

theorem witness_RegionsComeAndGo_13 :
    ∃ (s : State) (fn : Nat) (addr : _) (key : _), let busy := s.chip.tr.hostReads.any fun r => r.region == key / 256;
    s.serving ∧ (s.chip.fn fn).deregJob = some (addr, key) ∧ busy = false :=
  ⟨st { node with funcs := [(0, { state := .ready, deregJob := some (0x2000, 256) })] }, 0, 0x2000, 256,
    by decide +kernel⟩

theorem witness_RegionsComeAndGo_14 :
    ∃ (s : State), s.serving :=
  ⟨st { node with mem := { atsCache := [(0, 0x1000, 0x5000), (0, 0x9000, 0x5000)] } }, by decide +kernel⟩

theorem witness_RegionsComeAndGo_15a :
    ∃ (s : State) (fn : Nat), let next := s.chip.mem.atsPending.find? (fun r => r.1 == fn); s.serving ∧
    next.all (fun r => s.chip.atsInUse fn r.2.1 r.2.2) = true :=
  ⟨st node, 0, by decide +kernel⟩

theorem witness_RegionsComeAndGo_15b :
    ∃ (s : State) (fn : Nat), let next := s.chip.mem.atsPending.find? (fun r => r.1 == fn); s.serving ∧
    next.all (fun r => s.chip.atsInUse fn r.2.1 r.2.2) = true :=
  ⟨st { node with mem := { atsPending := [(0, 0x1000, 4096)] }, tr := { hostReads := [{ id := 6, pkt := Packet.init, pages := [0x1000] }] } },
    0, by decide +kernel⟩

theorem witness_RegionsComeAndGo_16 :
    ∃ (s : State) (fn : Nat) (r : _), let next := s.chip.mem.atsPending.find? (fun r => r.1 == fn); s.serving ∧
    next = some r ∧ s.chip.atsInUse fn r.2.1 r.2.2 = false :=
  ⟨st { node with mem := { atsPending := [(0, 0x1000, 4096)] } }, 0, (0, 0x1000, 4096), by decide +kernel⟩

/-! ChannelGroupsRetire, clause by clause. -/

theorem witness_ChannelGroupsRetire_1 :
    ∃ (s : State) (g : Nat) (w : _), let state := s.chip.groupState g; g < 256 ∧
    s.chip.mayWrite w (pnum 0x28 0x011 0) = true ∧ s.leaves (fun c => c.beginRetire g) ∧ state = 1 :=
  ⟨st (gap 1 []), 2, .mailbox 0, by decide, by decide +kernel, ⟨by decide +kernel, gap_retires⟩, by decide +kernel⟩

theorem witness_ChannelGroupsRetire_2 :
    ∃ (s : State) (g : Nat) (w : _), let state := s.chip.groupState g; g < 256 ∧
    s.chip.mayWrite w (pnum 0x28 0x011 0) = true ∧ s.serving ∧ state = 2 :=
  ⟨st { full with mem := { groups := [(2, { state := 2 })], regionMiB := (List.range 7).map fun i => (i, 0), size := 0 }, dict := { active := [] } },
    2, .mailbox 0, by decide +kernel⟩

theorem witness_ChannelGroupsRetire_3a :
    ∃ (s : State) (g : Nat) (w : _), let state := s.chip.groupState g; let gone := state = 0 ∨ state = 3; g < 256 ∧
    s.chip.mayWrite w (pnum 0x28 0x011 0) = true ∧ s.serving ∧ gone :=
  ⟨st { full with mem := { groups := [(2, { state := 3 })], regionMiB := (List.range 7).map fun i => (i, 0), size := 0 }, dict := { active := [] } },
    2, .mailbox 0, by decide +kernel⟩

theorem witness_ChannelGroupsRetire_3b :
    ∃ (s : State) (g : Nat) (w : _), let state := s.chip.groupState g; let gone := state = 0 ∨ state = 3; g < 256 ∧
    s.chip.mayWrite w (pnum 0x28 0x011 0) = true ∧ s.serving ∧ gone :=
  ⟨st full, 99, .mailbox 0, by decide +kernel⟩

theorem witness_ChannelGroupsRetire_4 :
    ∃ (s : State) (g : Nat), let state := s.chip.groupState g; let gone := state = 0 ∨ state = 3; s.serving ∧ gone :=
  ⟨st { full with mem := { groups := [(2, { state := 3 })], regionMiB := (List.range 7).map fun i => (i, 0), size := 0 }, dict := { active := [] } },
    2, by decide +kernel⟩

theorem witness_ChannelGroupsRetire_5 :
    ∃ (s : State) (g : Nat), let state := s.chip.groupState g; s.leaves (fun c => c.groupFails g) ∧ state = 1 :=
  ⟨st (gap 1 [(pnum 0x30 0x062 0x103, 0x602)]), 2, ⟨by decide +kernel, gap_fails⟩, by decide +kernel⟩

theorem witness_ChannelGroupsRetire_6 :
    ∃ (s : State) (g : Nat), let state := s.chip.groupState g; s.leaves (fun c => c.groupFails g) ∧ state = 2 :=
  ⟨st { full with mem := { groups := [(2, { state := 2 })], regionMiB := (List.range 7).map fun i => (i, 0), size := 0 }, dict := { active := [(pnum 0x30 0x062 0x103, 0x602)] } },
    2, by decide +kernel⟩

theorem witness_ChannelGroupsRetire_7 :
    ∃ (s : State) (g : Nat), let state := s.chip.groupState g; s.serving ∧ state ≠ 2 :=
  ⟨st full, 2, by decide +kernel⟩

theorem witness_ChannelGroupsRetire_8a :
    ∃ (s : State) (g : Nat) (l : _), let state := s.chip.groupState g; s.leaves (fun c => c.retirementComplete g l) ∧
    state = 2 ∧ (s.chip.mem.moving.map (·.1)).Nodup :=
  ⟨st { full with mem := { groups := [(2, { state := 2 })] } }, 2, [1, 0, 5], by decide +kernel⟩

theorem witness_ChannelGroupsRetire_8b :
    ∃ (s : State) (g : Nat) (l : _), let state := s.chip.groupState g; s.leaves (fun c => c.retirementComplete g l) ∧
    state = 2 ∧ (s.chip.mem.moving.map (·.1)).Nodup :=
  ⟨st { full with mem := { groups := [(2, { state := 2, dead := true })], regionMiB := (List.range 7).map fun i => (i, 0), moving := [(2, 30)], size := 671088640 } },
    2, [1048576, 7], by decide +kernel⟩

theorem witness_ChannelGroupsRetire_9a :
    ∃ (s : State) (g : Nat) (o : ScrubOutcome), let state := s.chip.groupState g; s.serving ∧
    ((state ≠ 1 ∧ state ≠ 2) ∨ o = .clean) :=
  ⟨st full, 0, .clean, by decide +kernel⟩

theorem witness_ChannelGroupsRetire_9b :
    ∃ (s : State) (g : Nat) (o : ScrubOutcome), let state := s.chip.groupState g; s.serving ∧
    ((state ≠ 1 ∧ state ≠ 2) ∨ o = .clean) :=
  ⟨st { full with mem := { groups := [(2, { state := 3 })], regionMiB := (List.range 7).map fun i => (i, 0), size := 0 }, dict := { active := [] } },
    2, .corrected, by decide +kernel⟩

theorem witness_ChannelGroupsRetire_10a :
    ∃ (s : State) (g : Nat) (a : _), let state := s.chip.groupState g;
    let recent := ((s.chip.group g).corrected.filter fun t => decide (s.chip.now < t + hour)).length;
    let retires := decide (s.chip.param 0x28 0x013 0 = 1 ∧ s.chip.param 0x28 0x012 0 < recent + 1);
    (state = 1 ∨ state = 2) ∧ s.leaves (fun c => c.correctedError g a) ∧ (retires = false ∨ state = 2) :=
  ⟨st { full with dict := { active := [(pnum 0x28 0x013 0, 0)] } }, 0, 64, by decide +kernel⟩

theorem witness_ChannelGroupsRetire_10b :
    ∃ (s : State) (g : Nat) (a : _), let state := s.chip.groupState g;
    let recent := ((s.chip.group g).corrected.filter fun t => decide (s.chip.now < t + hour)).length;
    let retires := decide (s.chip.param 0x28 0x013 0 = 1 ∧ s.chip.param 0x28 0x012 0 < recent + 1);
    (state = 1 ∨ state = 2) ∧ s.leaves (fun c => c.correctedError g a) ∧ (retires = false ∨ state = 2) :=
  ⟨st { full with mem := { groups := [(2, { state := 2 })], regionMiB := (List.range 7).map fun i => (i, 0), size := 0 }, dict := { active := [(pnum 0x28 0x013 0, 1), (pnum 0x28 0x012 0, 0)] } },
    2, 64, by decide +kernel⟩

theorem witness_ChannelGroupsRetire_11 :
    ∃ (s : State) (g : Nat) (a : _), let state := s.chip.groupState g;
    let recent := ((s.chip.group g).corrected.filter fun t => decide (s.chip.now < t + hour)).length;
    let retires := decide (s.chip.param 0x28 0x013 0 = 1 ∧ s.chip.param 0x28 0x012 0 < recent + 1);
    (state = 1 ∨ state = 2) ∧ s.leaves (fun c => c.correctedError g a) ∧ retires = true ∧ state = 1 :=
  ⟨st (gap 1 [(pnum 0x28 0x013 0, 1), (pnum 0x28 0x012 0, 0)]), 2, 64, by decide +kernel,
    ⟨by decide +kernel, gap_corrected⟩, by decide +kernel, by decide +kernel⟩

theorem witness_ChannelGroupsRetire_12a :
    ∃ (s : State) (g : Nat) (a : _), let state := s.chip.groupState g; (state = 1 ∨ state = 2) ∧
    s.leaves (fun c => c.uncorrectableWord g a) :=
  ⟨st full, 0, 64, by decide +kernel⟩

theorem witness_ChannelGroupsRetire_12b :
    ∃ (s : State) (g : Nat) (a : _), let state := s.chip.groupState g; (state = 1 ∨ state = 2) ∧
    s.leaves (fun c => c.uncorrectableWord g a) :=
  ⟨st full, 6, 1174405120, by decide +kernel⟩

theorem witness_ChannelGroupsRetire_12c :
    ∃ (s : State) (g : Nat) (a : _), let state := s.chip.groupState g; (state = 1 ∨ state = 2) ∧
    s.leaves (fun c => c.uncorrectableWord g a) :=
  ⟨st { full with mem := { groups := [(0, { state := 2 })], regionMiB := (List.range 7).map fun i => (i, 0), moving := [(0, 30)], size := 671088640 } },
    0, 64, by decide +kernel⟩

/-! CxlLinesAreReadAndWritten, clause by clause. -/

theorem witness_CxlLinesAreReadAndWritten_1a :
    ∃ (s : State) (h : Nat) (d : Nat),
    let place := if s.chip.cxlServes h ∧ d % 64 = 0 then (s.chip.port h).cxlPlace d else none; s.serving ∧ place = none :=
  ⟨st { full with ports := [(0, { mode := 2, link := .up, cxlBase0 := 64, cxlSize0 := 4096 })] }, 0, 4033,
    by decide +kernel⟩

theorem witness_CxlLinesAreReadAndWritten_1b :
    ∃ (s : State) (h : Nat) (d : Nat),
    let place := if s.chip.cxlServes h ∧ d % 64 = 0 then (s.chip.port h).cxlPlace d else none; s.serving ∧ place = none :=
  ⟨st node, 0, 64, by decide +kernel⟩

theorem witness_CxlLinesAreReadAndWritten_1c :
    ∃ (s : State) (h : Nat) (d : Nat),
    let place := if s.chip.cxlServes h ∧ d % 64 = 0 then (s.chip.port h).cxlPlace d else none; s.serving ∧ place = none :=
  ⟨st { full with ports := [(0, { mode := 2, link := .up, cxlBase0 := 64, cxlSize0 := 4096 })] }, 0, 4096,
    by decide +kernel⟩

theorem witness_CxlLinesAreReadAndWritten_2 :
    ∃ (s : State) (h : Nat) (d : Nat) (l : List (Option Byte)),
    let place := if s.chip.cxlServes h ∧ d % 64 = 0 then (s.chip.port h).cxlPlace d else none; s.serving ∧
    (place = none ∨ l.length ≠ 64) :=
  ⟨st { full with ports := [(0, { mode := 2, link := .up, cxlBase0 := 64, cxlSize0 := 4096 })] }, 0, 4032, [],
    by decide +kernel⟩

theorem witness_CxlLinesAreReadAndWritten_3 :
    ∃ (s : State) (h : Nat) (d : Nat) (i : _) (o : _),
    let place := if s.chip.cxlServes h ∧ d % 64 = 0 then (s.chip.port h).cxlPlace d else none; place = some (i, o) ∧
    s.serving ∧ i ∈ (s.chip.port h).cxlWithdrawn :=
  ⟨st { full with ports := [(0, { mode := 2, link := .up, cxlBase0 := 64, cxlSize0 := 4096, cxlWithdrawn := [0] })] }, 0,
    4032, 0, 4096, by decide +kernel⟩

theorem witness_CxlLinesAreReadAndWritten_4 :
    ∃ (s : State) (h : Nat) (d : Nat) (l : List (Option Byte)) (i : _) (o : _),
    let place := if s.chip.cxlServes h ∧ d % 64 = 0 then (s.chip.port h).cxlPlace d else none; place = some (i, o) ∧
    s.serving ∧ i ∈ (s.chip.port h).cxlWithdrawn ∧ l.length = 64 :=
  ⟨st { full with ports := [(0, { mode := 2, link := .up, cxlBase0 := 64, cxlSize0 := 4096, cxlWithdrawn := [0] })] }, 0,
    4032, List.replicate 63 (some 7) ++ [none], 0, 4096, by decide +kernel⟩

theorem witness_CxlLinesAreReadAndWritten_5a :
    ∃ (s : State) (h : Nat) (d : Nat) (i : _) (o : _),
    let place := if s.chip.cxlServes h ∧ d % 64 = 0 then (s.chip.port h).cxlPlace d else none; place = some (i, o) ∧
    i ∉ (s.chip.port h).cxlWithdrawn ∧ s.leaves (fun c => c.cxlRead h d) :=
  ⟨st { full with ports := [(0, { mode := 2, link := .up, cxlBase0 := 64, cxlSize0 := 4096 })] }, 0, 4032, 0, 4096,
    by decide +kernel⟩

theorem witness_CxlLinesAreReadAndWritten_5b :
    ∃ (s : State) (h : Nat) (d : Nat) (i : _) (o : _),
    let place := if s.chip.cxlServes h ∧ d % 64 = 0 then (s.chip.port h).cxlPlace d else none; place = some (i, o) ∧
    i ∉ (s.chip.port h).cxlWithdrawn ∧ s.leaves (fun c => c.cxlRead h d) :=
  ⟨st { { full with ports := [(0, { mode := 2, link := .up, cxlBase0 := 64, cxlSize0 := 4096 })] } with mem := { poison := [64] } },
    0, 4032, 0, 4096, by decide +kernel⟩

theorem witness_CxlLinesAreReadAndWritten_6a :
    ∃ (s : State) (h : Nat) (d : Nat) (l : List (Option Byte)) (i : _) (o : _),
    let place := if s.chip.cxlServes h ∧ d % 64 = 0 then (s.chip.port h).cxlPlace d else none; place = some (i, o) ∧
    i ∉ (s.chip.port h).cxlWithdrawn ∧ s.serving ∧ l.length = 64 :=
  ⟨st { full with ports := [(0, { mode := 2, link := .up, cxlBase0 := 64, cxlSize0 := 4096 })] }, 0, 4032,
    List.replicate 63 (some 7) ++ [none], 0, 4096, by decide +kernel⟩

theorem witness_CxlLinesAreReadAndWritten_6b :
    ∃ (s : State) (h : Nat) (d : Nat) (l : List (Option Byte)) (i : _) (o : _),
    let place := if s.chip.cxlServes h ∧ d % 64 = 0 then (s.chip.port h).cxlPlace d else none; place = some (i, o) ∧
    i ∉ (s.chip.port h).cxlWithdrawn ∧ s.serving ∧ l.length = 64 :=
  ⟨st { { full with ports := [(0, { mode := 2, link := .up, cxlBase0 := 64, cxlSize0 := 4096 })] } with mem := { poison := [64] } },
    0, 4032, List.replicate 64 (some 7), 0, 4096, by decide +kernel⟩

/-! WindowAccessesBecomeOperations, clause by clause. -/

theorem witness_WindowAccessesBecomeOperations_1 :
    ∃ (s : State) (fn : Nat), let h := fn / 256; let room := s.chip.hasCredit h; s.serving ∧ room = false :=
  ⟨st (winChip 0 { ops := List.replicate 1024 { num := 9, fn := 1 } }), 0, by decide +kernel⟩

theorem witness_WindowAccessesBecomeOperations_2a :
    ∃ (s : State) (fn : Nat) (id : _) (off : _) (len : _), let h := fn / 256; let room := s.chip.hasCredit h;
    let win (off len : Nat) : Option Win := if s.chip.bar4Served fn then s.chip.winAt fn off len else none;
    s.leaves (fun c => c.bar4Read fn id off len) ∧ room = true ∧ win off len = none :=
  ⟨st (winChip 0 { merges := [(0, ({ ep := 1, key := 0xFEF00000, target := 64, bytes := [1, 2] } : Merge))] }), 0, 7,
    4092, 8, by decide +kernel⟩

theorem witness_WindowAccessesBecomeOperations_2b :
    ∃ (s : State) (fn : Nat) (id : _) (off : _) (len : _), let h := fn / 256; let room := s.chip.hasCredit h;
    let win (off len : Nat) : Option Win := if s.chip.bar4Served fn then s.chip.winAt fn off len else none;
    s.leaves (fun c => c.bar4Read fn id off len) ∧ room = true ∧ win off len = none :=
  ⟨st node, 0, 7, 64, 8, by decide +kernel⟩

theorem witness_WindowAccessesBecomeOperations_3 :
    ∃ (s : State) (fn : Nat) (id : _) (off : _) (len : _) (w : _), let h := fn / 256; let room := s.chip.hasCredit h;
    let win (off len : Nat) : Option Win := if s.chip.bar4Served fn then s.chip.winAt fn off len else none;
    s.leaves (fun c => c.bar4Read fn id off len) ∧ room = true ∧ win off len = some w ∧ s.chip.winBlocked fn w.slot = true :=
  ⟨st (winChip 0x8000000000000000 { status := [(0, 1)] }), 0, 7, 120, 8, win 0x8000000000000000, by decide +kernel⟩

theorem witness_WindowAccessesBecomeOperations_4 :
    ∃ (s : State) (fn : Nat) (id : _) (off : _) (len : _) (w : _) (l : _), let h := fn / 256;
    let room := s.chip.hasCredit h;
    let win (off len : Nat) : Option Win := if s.chip.bar4Served fn then s.chip.winAt fn off len else none;
    s.leaves (fun c => c.bar4Read fn id off len) ∧ room = true ∧ win off len = some w ∧
    s.chip.winBlocked fn w.slot = false ∧ s.chip.fromLines fn w off len = some l :=
  ⟨st (winChip 0 { lines := [{ ep := 1, key := 0xFEF00000, target := 64, bytes := List.replicate 64 3 }] }), 0, 7, 120, 8,
    win 0, List.replicate 8 3, by decide +kernel⟩

theorem witness_WindowAccessesBecomeOperations_5 :
    ∃ (s : State) (fn : Nat) (id : _) (off : _) (len : _) (w : _), let h := fn / 256; let room := s.chip.hasCredit h;
    let win (off len : Nat) : Option Win := if s.chip.bar4Served fn then s.chip.winAt fn off len else none;
    let idle (w : Win) : Bool := s.chip.br.ops.isEmpty && (Tab.get? s.chip.br.merges h).isNone && s.chip.chanReady (chKey h w.ep w.cls);
    s.leaves (fun c => c.bar4Read fn id off len) ∧ room = true ∧ win off len = some w ∧
    s.chip.winBlocked fn w.slot = false ∧ s.chip.fromLines fn w off len = none ∧ idle w = true ∧
    (s.chip.preFail w.ep).isSome = true :=
  ⟨st { winChip 0 {} with dict := { active := [(pnum 0x29 0x003 0, 20), (pnum 0x29 0x100 0, 0x80004000FEF00000), (pnum 0x29 0x140 0, 12 * 2 ^ 58), (pnum 0x29 0x180 0, 0)] } },
    0, 7, 120, 8, { win 0 with ep := 64 }, by decide +kernel⟩

theorem witness_WindowAccessesBecomeOperations_6a :
    ∃ (s : State) (fn : Nat) (id : _) (off : _) (len : _) (w : _), let h := fn / 256; let room := s.chip.hasCredit h;
    let clear := s.chip.bridgeClear h;
    let win (off len : Nat) : Option Win := if s.chip.bar4Served fn then s.chip.winAt fn off len else none;
    s.leaves (fun c => c.bar4Read fn id off len) ∧ room = true ∧ win off len = some w ∧
    s.chip.winBlocked fn w.slot = false ∧ s.chip.fromLines fn w off len = none ∧ clear = true ∧ s.chip.preFail w.ep = none :=
  ⟨st (winChip 0 { merges := [(0, ({ ep := 1, key := 0xFEF00000, target := 64, bytes := [1, 2] } : Merge))] }), 0, 7,
    4088, 8, win 0, by decide +kernel⟩

theorem witness_WindowAccessesBecomeOperations_6b :
    ∃ (s : State) (fn : Nat) (id : _) (off : _) (len : _) (w : _), let h := fn / 256; let room := s.chip.hasCredit h;
    let clear := s.chip.bridgeClear h;
    let win (off len : Nat) : Option Win := if s.chip.bar4Served fn then s.chip.winAt fn off len else none;
    s.leaves (fun c => c.bar4Read fn id off len) ∧ room = true ∧ win off len = some w ∧
    s.chip.winBlocked fn w.slot = false ∧ s.chip.fromLines fn w off len = none ∧ clear = true ∧ s.chip.preFail w.ep = none :=
  ⟨st (winChip 0x4000000000000000 {}), 0, 7, 66, 3, win 0x4000000000000000, by decide +kernel⟩

theorem witness_WindowAccessesBecomeOperations_7 :
    ∃ (s : State) (fn : Nat), let h := fn / 256; let room := s.chip.hasCredit h; s.serving ∧ room = false :=
  ⟨st (winChip 0 { ops := List.replicate 1024 { num := 9, fn := 1 } }), 0, by decide +kernel⟩

theorem witness_WindowAccessesBecomeOperations_8 :
    ∃ (s : State) (fn : Nat) (id : _) (off : _) (a : PcieAtomic), let h := fn / 256; let room := s.chip.hasCredit h;
    s.leaves (fun c => c.bar4Atomic fn id off a) ∧ room = true ∧ a.native? = none :=
  ⟨st (winChip 0 {}), 0, 7, 64, PcieAtomic.swap 32 [1, 2, 3, 4], by decide +kernel⟩

theorem witness_WindowAccessesBecomeOperations_9a :
    ∃ (s : State) (fn : Nat) (id : _) (off : _) (a : PcieAtomic) (op : _) (n : _) (l : _), let h := fn / 256;
    let room := s.chip.hasCredit h;
    let win (off len : Nat) : Option Win := if s.chip.bar4Served fn then s.chip.winAt fn off len else none;
    s.leaves (fun c => c.bar4Atomic fn id off a) ∧ room = true ∧ a.native? = some (op, n, l) ∧
    (win off n).all (fun w => w.dinv) = true :=
  ⟨st (winChip 0x4000000000000000 {}), 0, 7, 64, PcieAtomic.swap 64 [1, 2, 3, 4, 5, 6, 7, 8], 0x31, 8,
    [1, 2, 3, 4, 5, 6, 7, 8], by decide +kernel⟩

theorem witness_WindowAccessesBecomeOperations_9b :
    ∃ (s : State) (fn : Nat) (id : _) (off : _) (a : PcieAtomic) (op : _) (n : _) (l : _), let h := fn / 256;
    let room := s.chip.hasCredit h;
    let win (off len : Nat) : Option Win := if s.chip.bar4Served fn then s.chip.winAt fn off len else none;
    s.leaves (fun c => c.bar4Atomic fn id off a) ∧ room = true ∧ a.native? = some (op, n, l) ∧
    (win off n).all (fun w => w.dinv) = true :=
  ⟨st (winChip 0 {}), 0, 7, 8192, PcieAtomic.swap 64 [1, 2, 3, 4, 5, 6, 7, 8], 0x31, 8, [1, 2, 3, 4, 5, 6, 7, 8],
    by decide +kernel⟩

theorem witness_WindowAccessesBecomeOperations_10 :
    ∃ (s : State) (fn : Nat) (id : _) (off : _) (a : PcieAtomic) (op : _) (n : _) (l : _) (w : _), let h := fn / 256;
    let room := s.chip.hasCredit h;
    let win (off len : Nat) : Option Win := if s.chip.bar4Served fn then s.chip.winAt fn off len else none;
    s.leaves (fun c => c.bar4Atomic fn id off a) ∧ room = true ∧ a.native? = some (op, n, l) ∧ win off n = some w ∧
    w.dinv = false ∧ s.chip.winBlocked fn w.slot = true :=
  ⟨st (winChip 0x8000000000000000 { status := [(0, 1)] }), 0, 7, 64, PcieAtomic.swap 64 [1, 2, 3, 4, 5, 6, 7, 8], 0x31, 8,
    [1, 2, 3, 4, 5, 6, 7, 8], win 0x8000000000000000, by decide +kernel⟩

theorem witness_WindowAccessesBecomeOperations_11 :
    ∃ (s : State) (fn : Nat) (id : _) (off : _) (a : PcieAtomic) (op : _) (n : _) (l : _) (w : _), let h := fn / 256;
    let room := s.chip.hasCredit h;
    let win (off len : Nat) : Option Win := if s.chip.bar4Served fn then s.chip.winAt fn off len else none;
    let idle (w : Win) : Bool := s.chip.br.ops.isEmpty && (Tab.get? s.chip.br.merges h).isNone && s.chip.chanReady (chKey h w.ep w.cls);
    s.leaves (fun c => c.bar4Atomic fn id off a) ∧ room = true ∧ a.native? = some (op, n, l) ∧ win off n = some w ∧
    w.dinv = false ∧ s.chip.winBlocked fn w.slot = false ∧ idle w = true ∧ (s.chip.preFail w.ep).isSome = true :=
  ⟨st { winChip 0 {} with dict := { active := [(pnum 0x29 0x003 0, 20), (pnum 0x29 0x100 0, 0x80004000FEF00000), (pnum 0x29 0x140 0, 12 * 2 ^ 58), (pnum 0x29 0x180 0, 0)] } },
    0, 7, 64, PcieAtomic.swap 64 [1, 2, 3, 4, 5, 6, 7, 8], 0x31, 8, [1, 2, 3, 4, 5, 6, 7, 8], { win 0 with ep := 64 },
    by decide +kernel⟩

theorem witness_WindowAccessesBecomeOperations_12 :
    ∃ (s : State) (fn : Nat) (id : _) (off : _) (a : PcieAtomic) (op : _) (n : _) (l : _) (w : _), let h := fn / 256;
    let room := s.chip.hasCredit h; let clear := s.chip.bridgeClear h;
    let win (off len : Nat) : Option Win := if s.chip.bar4Served fn then s.chip.winAt fn off len else none;
    s.leaves (fun c => c.bar4Atomic fn id off a) ∧ room = true ∧ a.native? = some (op, n, l) ∧ win off n = some w ∧
    w.dinv = false ∧ s.chip.winBlocked fn w.slot = false ∧ clear = true ∧ s.chip.preFail w.ep = none :=
  ⟨st (winChip 0 {}), 0, 7, 64, PcieAtomic.swap 64 [1, 2, 3, 4, 5, 6, 7, 8], 0x31, 8, [1, 2, 3, 4, 5, 6, 7, 8], win 0,
    by decide +kernel⟩

theorem witness_WindowAccessesBecomeOperations_13a :
    ∃ (s : State) (fn : Nat) (off : _) (l : List Byte),
    let win (off len : Nat) : Option Win := if s.chip.bar4Served fn then s.chip.winAt fn off len else none; s.serving ∧
    win off l.length = none :=
  ⟨st (winChip 0 {}), 0, 4092, [1, 2, 3, 4, 5], by decide +kernel⟩

theorem witness_WindowAccessesBecomeOperations_13b :
    ∃ (s : State) (fn : Nat) (off : _) (l : List Byte),
    let win (off len : Nat) : Option Win := if s.chip.bar4Served fn then s.chip.winAt fn off len else none; s.serving ∧
    win off l.length = none :=
  ⟨st node, 9, 0, [1], by decide +kernel⟩

theorem witness_WindowAccessesBecomeOperations_14a :
    ∃ (s : State) (fn : Nat) (off : _) (l : List Byte) (w : _), let h := fn / 256; let clear := s.chip.bridgeClear h;
    let win (off len : Nat) : Option Win := if s.chip.bar4Served fn then s.chip.winAt fn off len else none;
    s.leaves (fun c => c.bar4Write fn off l) ∧ win off l.length = some w ∧ w.confirmed = true ∧ clear = true ∧
    s.chip.preFail w.ep = none :=
  ⟨st (winChip 0x8000000000000000 { merges := [(0, ({ ep := 1, key := 0xFEF00000, target := 64, bytes := [1, 2] } : Merge))] }),
    0, 4092, [1, 2, 3, 4], win 0x8000000000000000, by decide +kernel⟩

theorem witness_WindowAccessesBecomeOperations_14b :
    ∃ (s : State) (fn : Nat) (off : _) (l : List Byte) (w : _), let h := fn / 256; let clear := s.chip.bridgeClear h;
    let win (off len : Nat) : Option Win := if s.chip.bar4Served fn then s.chip.winAt fn off len else none;
    s.leaves (fun c => c.bar4Write fn off l) ∧ win off l.length = some w ∧ w.confirmed = true ∧ clear = true ∧
    s.chip.preFail w.ep = none :=
  ⟨st (winChip 0xC000000000000000 {}), 0, 62, [1, 2, 3, 4], win 0xC000000000000000, by decide +kernel⟩

theorem witness_WindowAccessesBecomeOperations_15 :
    ∃ (s : State) (fn : Nat) (off : _) (l : List Byte) (w : _), let h := fn / 256;
    let win (off len : Nat) : Option Win := if s.chip.bar4Served fn then s.chip.winAt fn off len else none;
    let idle (w : Win) : Bool := s.chip.br.ops.isEmpty && (Tab.get? s.chip.br.merges h).isNone && s.chip.chanReady (chKey h w.ep w.cls);
    let runs := w.runs off l; s.leaves (fun c => c.bar4Write fn off l) ∧ win off l.length = some w ∧ w.confirmed = true ∧
    idle w = true ∧ (s.chip.preFail w.ep).isSome = true ∧ runs ≠ [] :=
  ⟨st { winChip 0x8000000000000000 {} with dict := { active := [(pnum 0x29 0x003 0, 20), (pnum 0x29 0x100 0, 0x80004000FEF00000), (pnum 0x29 0x140 0, 12 * 2 ^ 58), (pnum 0x29 0x180 0, 0x8000000000000000)] } },
    0, 62, [1, 2, 3, 4], { win 0x8000000000000000 with ep := 64 }, by decide +kernel⟩

theorem witness_WindowAccessesBecomeOperations_16a :
    ∃ (s : State) (fn : Nat) (off : _) (l : List Byte) (w : _), let h := fn / 256; let clear := s.chip.bridgeClear h;
    let win (off len : Nat) : Option Win := if s.chip.bar4Served fn then s.chip.winAt fn off len else none;
    s.leaves (fun c => c.bar4Write fn off l) ∧ win off l.length = some w ∧ w.confirmed = false ∧ clear = true ∧
    s.chip.preFail w.ep = none :=
  ⟨st (winChip 0x4000000000000000 { lines := [{ ep := 1, key := 0xFEF00000, target := 64, bytes := List.replicate 64 3 }] }),
    0, 62, [1, 2, 3, 4], win 0x4000000000000000, by decide +kernel⟩

theorem witness_WindowAccessesBecomeOperations_16b :
    ∃ (s : State) (fn : Nat) (off : _) (l : List Byte) (w : _), let h := fn / 256; let clear := s.chip.bridgeClear h;
    let win (off len : Nat) : Option Win := if s.chip.bar4Served fn then s.chip.winAt fn off len else none;
    s.leaves (fun c => c.bar4Write fn off l) ∧ win off l.length = some w ∧ w.confirmed = false ∧ clear = true ∧
    s.chip.preFail w.ep = none :=
  ⟨st (winChip 0 { merges := [(0, ({ ep := 1, key := 0xFEF00000, target := 64, bytes := [1, 2] } : Merge))] }), 0, 4094,
    [1, 2], win 0, by decide +kernel⟩

theorem witness_WindowAccessesBecomeOperations_16c :
    ∃ (s : State) (fn : Nat) (off : _) (l : List Byte) (w : _), let h := fn / 256; let clear := s.chip.bridgeClear h;
    let win (off len : Nat) : Option Win := if s.chip.bar4Served fn then s.chip.winAt fn off len else none;
    s.leaves (fun c => c.bar4Write fn off l) ∧ win off l.length = some w ∧ w.confirmed = false ∧ clear = true ∧
    s.chip.preFail w.ep = none :=
  ⟨st (winChip 0 { merges := [(0, ({ ep := 1, key := 0xFEF00000, target := 64, bytes := [1, 2] } : Merge))] }), 0, 66,
    [1, 2], win 0, by decide +kernel⟩

theorem witness_WindowAccessesBecomeOperations_17a :
    ∃ (s : State) (fn : Nat) (off : _) (l : List Byte) (w : _) (r : _), let h := fn / 256;
    let clear := s.chip.bridgeClear h;
    let win (off len : Nat) : Option Win := if s.chip.bar4Served fn then s.chip.winAt fn off len else none;
    let runs := w.runs off l; s.leaves (fun c => c.bar4Write fn off l) ∧ win off l.length = some w ∧ w.confirmed = false ∧
    clear = true ∧ s.chip.preFail w.ep = none ∧ runs = [r] ∧ s.chip.param 0x29 0x003 0 ≠ 0 ∧ (r.1 + r.2.length) % 4096 ≠ 0 :=
  ⟨st (winChip 0 {}), 0, 64, [1, 2], win 0, (64, [1, 2]), by decide +kernel⟩

theorem witness_WindowAccessesBecomeOperations_17b :
    ∃ (s : State) (fn : Nat) (off : _) (l : List Byte) (w : _) (r : _), let h := fn / 256;
    let clear := s.chip.bridgeClear h;
    let win (off len : Nat) : Option Win := if s.chip.bar4Served fn then s.chip.winAt fn off len else none;
    let runs := w.runs off l; s.leaves (fun c => c.bar4Write fn off l) ∧ win off l.length = some w ∧ w.confirmed = false ∧
    clear = true ∧ s.chip.preFail w.ep = none ∧ runs = [r] ∧ s.chip.param 0x29 0x003 0 ≠ 0 ∧ (r.1 + r.2.length) % 4096 ≠ 0 :=
  ⟨st (winChip 0 { merges := [(0, ({ ep := 1, key := 0xFEF00000, target := 64, bytes := [1, 2] } : Merge))] }), 0, 66,
    [1, 2], win 0, (66, [1, 2]), by decide +kernel⟩

theorem witness_WindowAccessesBecomeOperations_17c :
    ∃ (s : State) (fn : Nat) (off : _) (l : List Byte) (w : _) (r : _), let h := fn / 256;
    let clear := s.chip.bridgeClear h;
    let win (off len : Nat) : Option Win := if s.chip.bar4Served fn then s.chip.winAt fn off len else none;
    let runs := w.runs off l; s.leaves (fun c => c.bar4Write fn off l) ∧ win off l.length = some w ∧ w.confirmed = false ∧
    clear = true ∧ s.chip.preFail w.ep = none ∧ runs = [r] ∧ s.chip.param 0x29 0x003 0 ≠ 0 ∧ (r.1 + r.2.length) % 4096 ≠ 0 :=
  ⟨st (winChip 0 { merges := [(0, ({ ep := 1, key := 0xFEF00000, target := 64, bytes := [1, 2] } : Merge))] }), 0, 96,
    [1, 2], win 0, (96, [1, 2]), by decide +kernel⟩

theorem witness_WindowAccessesBecomeOperations_18a :
    ∃ (s : State) (g : Nat), let m? := Tab.get? s.chip.br.merges g; s.serving ∧
    m?.all (fun m => decide (s.chip.now < m.since + s.chip.param 0x29 0x003 0)) = true :=
  ⟨st (winChip 0 { merges := [(0, { ({ ep := 1, key := 0xFEF00000, target := 64, bytes := [1, 2] } : Merge) with since := 5 })] }),
    0, by decide +kernel⟩

theorem witness_WindowAccessesBecomeOperations_18b :
    ∃ (s : State) (g : Nat), let m? := Tab.get? s.chip.br.merges g; s.serving ∧
    m?.all (fun m => decide (s.chip.now < m.since + s.chip.param 0x29 0x003 0)) = true :=
  ⟨st node, 2, by decide +kernel⟩

theorem witness_WindowAccessesBecomeOperations_19 :
    ∃ (s : State) (g : Nat) (m : _), let m? := Tab.get? s.chip.br.merges g; s.leaves (fun c => c.gatherExpiry g) ∧
    s.chip.bridgeClear g = true ∧ m? = some m ∧ m.since + s.chip.param 0x29 0x003 0 ≤ s.chip.now :=
  ⟨st { winChip 0 { merges := [(0, ({ ep := 1, key := 0xFEF00000, target := 64, bytes := [1, 2] } : Merge))] } with tb := { now := 1000000 } },
    0, ({ ep := 1, key := 0xFEF00000, target := 64, bytes := [1, 2] } : Merge), by decide +kernel⟩

theorem witness_WindowAccessesBecomeOperations_20 :
    ∃ (s : State), s.serving :=
  ⟨st { winChip 0 { lines := [{ ep := 1, key := 0xFEF00000, target := 64, bytes := List.replicate 64 3 }] } with tb := { now := 1000000 } },
    by decide +kernel⟩

theorem witness_WindowAccessesBecomeOperations_21a :
    ∃ (s : State) (num : _), let o? := s.chip.br.ops.find? fun o => o.num == num; s.serving ∧
    o?.all (fun o => o.expired || decide (s.chip.now < o.deadline)) = true :=
  ⟨st (winChip 0 { ops := [({ num := 2, id := 7, target := 8, length := 8, ep := 1, deadline := 5 } : BrOp)] }), 2,
    by decide +kernel⟩

theorem witness_WindowAccessesBecomeOperations_21b :
    ∃ (s : State) (num : _), let o? := s.chip.br.ops.find? fun o => o.num == num; s.serving ∧
    o?.all (fun o => o.expired || decide (s.chip.now < o.deadline)) = true :=
  ⟨st node, 7, by decide +kernel⟩

theorem witness_WindowAccessesBecomeOperations_22 :
    ∃ (s : State) (fn : Nat) (num : _) (o : _), let h := fn / 256; let clear := s.chip.bridgeClear h;
    let o? := s.chip.br.ops.find? fun o => o.num == num; s.leaves (fun c => c.bridgeTimeout num) ∧ clear = true ∧
    o? = some o ∧ o.expired = false ∧ o.deadline ≤ s.chip.now ∧ o.kind = .speculative :=
  ⟨st { winChip 0 { ops := [({ num := 2, kind := .speculative, id := 7, target := 8, length := 8, ep := 1, deadline := 5 } : BrOp)] } with tb := { now := 5 } },
    0, 2, ({ num := 2, kind := .speculative, id := 7, target := 8, length := 8, ep := 1, deadline := 5 } : BrOp),
    by decide +kernel⟩

theorem witness_WindowAccessesBecomeOperations_23a :
    ∃ (s : State) (fn : Nat) (num : _) (o : _), let h := fn / 256; let clear := s.chip.bridgeClear h;
    let o? := s.chip.br.ops.find? fun o => o.num == num; s.leaves (fun c => c.bridgeTimeout num) ∧ clear = true ∧
    o? = some o ∧ o.expired = false ∧ o.deadline ≤ s.chip.now ∧ o.kind ≠ .speculative :=
  ⟨st { winChip 0 { ops := [({ num := 2, kind := .read, id := 7, target := 8, length := 8, ep := 1, deadline := 5 } : BrOp)] } with tb := { now := 5 } },
    0, 2, ({ num := 2, kind := .read, id := 7, target := 8, length := 8, ep := 1, deadline := 5 } : BrOp),
    by decide +kernel⟩

theorem witness_WindowAccessesBecomeOperations_23b :
    ∃ (s : State) (fn : Nat) (num : _) (o : _), let h := fn / 256; let clear := s.chip.bridgeClear h;
    let o? := s.chip.br.ops.find? fun o => o.num == num; s.leaves (fun c => c.bridgeTimeout num) ∧ clear = true ∧
    o? = some o ∧ o.expired = false ∧ o.deadline ≤ s.chip.now ∧ o.kind ≠ .speculative :=
  ⟨st { winChip 0 { ops := [({ num := 2, kind := .atomic, id := 7, target := 8, length := 8, ep := 1, deadline := 5 } : BrOp)] } with tb := { now := 5 } },
    0, 2, ({ num := 2, kind := .atomic, id := 7, target := 8, length := 8, ep := 1, deadline := 5 } : BrOp),
    by decide +kernel⟩

theorem witness_WindowAccessesBecomeOperations_23c :
    ∃ (s : State) (fn : Nat) (num : _) (o : _), let h := fn / 256; let clear := s.chip.bridgeClear h;
    let o? := s.chip.br.ops.find? fun o => o.num == num; s.leaves (fun c => c.bridgeTimeout num) ∧ clear = true ∧
    o? = some o ∧ o.expired = false ∧ o.deadline ≤ s.chip.now ∧ o.kind ≠ .speculative :=
  ⟨st { winChip 0 { ops := [({ num := 2, kind := .posted, id := 7, target := 8, length := 8, ep := 1, deadline := 5 } : BrOp)] } with tb := { now := 5 } },
    0, 2, ({ num := 2, kind := .posted, id := 7, target := 8, length := 8, ep := 1, deadline := 5 } : BrOp),
    by decide +kernel⟩

theorem witness_WindowAccessesBecomeOperations_23d :
    ∃ (s : State) (fn : Nat) (num : _) (o : _), let h := fn / 256; let clear := s.chip.bridgeClear h;
    let o? := s.chip.br.ops.find? fun o => o.num == num; s.leaves (fun c => c.bridgeTimeout num) ∧ clear = true ∧
    o? = some o ∧ o.expired = false ∧ o.deadline ≤ s.chip.now ∧ o.kind ≠ .speculative :=
  ⟨st { winChip 0 { ops := [({ num := 2, kind := .confirmed, id := 7, target := 8, length := 8, ep := 1, deadline := 5 } : BrOp)] } with tb := { now := 5 } },
    0, 2, ({ num := 2, kind := .confirmed, id := 7, target := 8, length := 8, ep := 1, deadline := 5 } : BrOp),
    by decide +kernel⟩


end Sys2Proof.Tests
end

