-- ==== Sys2Proof/Tests/WitnessTime.lean ====
section
/-! SUPPORT. Witnesses: for each statement and each of its clauses, states and operands that meet the hypotheses. -/

namespace Sys2Proof.Tests

set_option Elab.async false

open Sys2Proof Sys2Proof.Machine

/-! WidthChangesAndRetrains, clause by clause. -/

theorem witness_WidthChangesAndRetrains_1 :
    ∃ (s : State) (port : Nat) (w : _), let up := s.chip.portActive port; s.serving ∧
    s.chip.mayWrite w (pnum 0x18 0x004 port) = true ∧ up = false :=
  ⟨st full, 5, .mctp, by decide +kernel⟩

theorem witness_WidthChangesAndRetrains_2a :
    ∃ (s : State) (port : Nat) (w : _), let t := s.chip.tport port; let up := s.chip.portActive port; s.serving ∧
    s.chip.mayWrite w (pnum 0x18 0x004 port) = true ∧ up = true ∧ t.hs.own ≠ some 5 :=
  ⟨st (wire { state := .active, lanes := 3, hs := { tseq := 255 } }), 5, .mctp, by decide +kernel⟩

theorem witness_WidthChangesAndRetrains_2b :
    ∃ (s : State) (port : Nat) (w : _), let t := s.chip.tport port; let up := s.chip.portActive port; s.serving ∧
    s.chip.mayWrite w (pnum 0x18 0x004 port) = true ∧ up = true ∧ t.hs.own ≠ some 5 :=
  ⟨st (wire { state := .active, lanes := 3, hs := { own := some 1, tseq := 7, lanes := 2 } }), 5, .mctp,
    by decide +kernel⟩

theorem witness_WidthChangesAndRetrains_3 :
    ∃ (s : State) (port : Nat) (w : _), let t := s.chip.tport port; let up := s.chip.portActive port; s.serving ∧
    s.chip.mayWrite w (pnum 0x18 0x004 port) = true ∧ up = true ∧ t.hs.own = some 5 :=
  ⟨st (wire { state := .active, lanes := 3, hs := { own := some 5, tseq := 7, reason := 8 } }), 5, .mctp,
    by decide +kernel⟩

theorem witness_WidthChangesAndRetrains_4 :
    ∃ (s : State) (port : Nat) (w : _), let t := s.chip.tport port; let up := s.chip.portActive port;
    let free := t.hs.own.isNone && t.hs.switchAt.isNone && t.hs.idleStage == 0; s.serving ∧
    s.chip.mayWrite w (pnum 0x18 0x004 port) = true ∧ up = true ∧ free = true ∧ t.lanes = 3 :=
  ⟨st (wire { state := .active, lanes := 3, hs := {} }), 5, .mctp, by decide +kernel⟩

theorem witness_WidthChangesAndRetrains_5 :
    ∃ (s : State) (port : Nat) (w : _), let t := s.chip.tport port; let up := s.chip.portActive port;
    let free := t.hs.own.isNone && t.hs.switchAt.isNone && t.hs.idleStage == 0; s.serving ∧
    s.chip.mayWrite w (pnum 0x18 0x004 port) = true ∧ up = true ∧ free = true ∧ t.lanes ≠ 3 :=
  ⟨st (wire { state := .active, lanes := 2, hs := {} }), 5, .mctp, by decide +kernel⟩

theorem witness_WidthChangesAndRetrains_6a :
    ∃ (s : State) (port : Nat) (w : _), let t := s.chip.tport port; let up := s.chip.portActive port;
    let free := t.hs.own.isNone && t.hs.switchAt.isNone && t.hs.idleStage == 0; s.serving ∧
    s.chip.mayWrite w (pnum 0x18 0x004 port) = true ∧ up = true ∧ free = false :=
  ⟨st (wire { state := .active, lanes := 3, hs := { idleStage := 1 } }), 5, .mctp, by decide +kernel⟩

theorem witness_WidthChangesAndRetrains_6b :
    ∃ (s : State) (port : Nat) (w : _), let t := s.chip.tport port; let up := s.chip.portActive port;
    let free := t.hs.own.isNone && t.hs.switchAt.isNone && t.hs.idleStage == 0; s.serving ∧
    s.chip.mayWrite w (pnum 0x18 0x004 port) = true ∧ up = true ∧ free = false :=
  ⟨st (wire { state := .active, lanes := 1, hs := { switchAt := some 3 } }), 5, .mctp, by decide +kernel⟩

theorem witness_WidthChangesAndRetrains_7 :
    ∃ (s : State) (port : Nat), let up := s.chip.portActive port; s.serving ∧ up = false :=
  ⟨st full, 5, by decide +kernel⟩

theorem witness_WidthChangesAndRetrains_8 :
    ∃ (s : State) (port : Nat) (m : WidthMsg), s.serving ∧ s.chip.leads port 1 m = true :=
  ⟨st (wire { state := .active, lanes := 3, hs := { own := some 1, lanes := 2 } }), 5,
    ({ tseq := 7, chip := 3, port := 1, lanes := 1 } : WidthMsg), by decide +kernel⟩

theorem witness_WidthChangesAndRetrains_9a :
    ∃ (s : State) (port : Nat) (m : WidthMsg), let t := s.chip.tport port; let up := s.chip.portActive port;
    let lanes := swapLanes t.rev m.lanes;
    let allowed := decide (lanes ≠ 0) && (if lanes = 3 then bitOf t.widths 1 else bitOf t.widths 0); s.serving ∧ up = true ∧
    s.chip.leads port 1 m = false ∧ allowed = false :=
  ⟨st (wire { state := .active, lanes := 3, hs := {}, widths := 2 }), 5,
    ({ tseq := 7, chip := 3, port := 1, lanes := 1 } : WidthMsg), by decide +kernel⟩

theorem witness_WidthChangesAndRetrains_9b :
    ∃ (s : State) (port : Nat) (m : WidthMsg), let t := s.chip.tport port; let up := s.chip.portActive port;
    let lanes := swapLanes t.rev m.lanes;
    let allowed := decide (lanes ≠ 0) && (if lanes = 3 then bitOf t.widths 1 else bitOf t.widths 0); s.serving ∧ up = true ∧
    s.chip.leads port 1 m = false ∧ allowed = false :=
  ⟨st (wire { state := .active, lanes := 1, hs := {}, widths := 1 }), 5,
    ({ tseq := 7, chip := 3, port := 1, lanes := 3 } : WidthMsg), by decide +kernel⟩

theorem witness_WidthChangesAndRetrains_9c :
    ∃ (s : State) (port : Nat) (m : WidthMsg), let t := s.chip.tport port; let up := s.chip.portActive port;
    let lanes := swapLanes t.rev m.lanes;
    let allowed := decide (lanes ≠ 0) && (if lanes = 3 then bitOf t.widths 1 else bitOf t.widths 0); s.serving ∧ up = true ∧
    s.chip.leads port 1 m = false ∧ allowed = false :=
  ⟨st (wire { state := .active, lanes := 3, hs := {} }), 5, ({ lanes := 4 } : WidthMsg), by decide +kernel⟩

theorem witness_WidthChangesAndRetrains_10a :
    ∃ (s : State) (port : Nat) (m : WidthMsg), let t := s.chip.tport port; let up := s.chip.portActive port;
    let lanes := swapLanes t.rev m.lanes;
    let allowed := decide (lanes ≠ 0) && (if lanes = 3 then bitOf t.widths 1 else bitOf t.widths 0); s.serving ∧ up = true ∧
    s.chip.leads port 1 m = false ∧ allowed = true ∧ (lanes = t.lanes ∨ t.hs.granted = true) :=
  ⟨st (wire { state := .active, lanes := 1, hs := {}, widths := 3 }), 5,
    ({ tseq := 7, chip := 3, port := 1, lanes := 1 } : WidthMsg), by decide +kernel⟩

theorem witness_WidthChangesAndRetrains_10b :
    ∃ (s : State) (port : Nat) (m : WidthMsg), let t := s.chip.tport port; let up := s.chip.portActive port;
    let lanes := swapLanes t.rev m.lanes;
    let allowed := decide (lanes ≠ 0) && (if lanes = 3 then bitOf t.widths 1 else bitOf t.widths 0); s.serving ∧ up = true ∧
    s.chip.leads port 1 m = false ∧ allowed = true ∧ (lanes = t.lanes ∨ t.hs.granted = true) :=
  ⟨st (wire { state := .active, lanes := 1, hs := { granted := true, target := 3 }, widths := 3 }), 5,
    ({ tseq := 7, chip := 3, port := 1, lanes := 3 } : WidthMsg), by decide +kernel⟩

theorem witness_WidthChangesAndRetrains_11a :
    ∃ (s : State) (port : Nat) (m : WidthMsg), let t := s.chip.tport port; let up := s.chip.portActive port;
    let lanes := swapLanes t.rev m.lanes;
    let allowed := decide (lanes ≠ 0) && (if lanes = 3 then bitOf t.widths 1 else bitOf t.widths 0); s.serving ∧ up = true ∧
    s.chip.leads port 1 m = false ∧ allowed = true ∧ lanes ≠ t.lanes ∧ t.hs.granted = false :=
  ⟨st (wire { state := .active, lanes := 3, hs := {}, widths := 3 }), 5,
    ({ tseq := 7, chip := 3, port := 1, lanes := 1 } : WidthMsg), by decide +kernel⟩

theorem witness_WidthChangesAndRetrains_11b :
    ∃ (s : State) (port : Nat) (m : WidthMsg), let t := s.chip.tport port; let up := s.chip.portActive port;
    let lanes := swapLanes t.rev m.lanes;
    let allowed := decide (lanes ≠ 0) && (if lanes = 3 then bitOf t.widths 1 else bitOf t.widths 0); s.serving ∧ up = true ∧
    s.chip.leads port 1 m = false ∧ allowed = true ∧ lanes ≠ t.lanes ∧ t.hs.granted = false :=
  ⟨st (wire { state := .active, lanes := 2, hs := {}, widths := 3, rev := true }), 5,
    ({ tseq := 7, chip := 3, port := 1, lanes := 3 } : WidthMsg), by decide +kernel⟩

theorem witness_WidthChangesAndRetrains_12a :
    ∃ (s : State) (port : Nat) (m : WidthMsg), let t := s.chip.tport port;
    let mine := t.hs.own == some 1 && t.hs.tseq == m.tseq; s.serving ∧ mine = false :=
  ⟨st (wire { state := .active, lanes := 3, hs := {} }), 5, ({ tseq := 7, chip := 3, port := 1, lanes := 1 } : WidthMsg),
    by decide +kernel⟩

theorem witness_WidthChangesAndRetrains_12b :
    ∃ (s : State) (port : Nat) (m : WidthMsg), let t := s.chip.tport port;
    let mine := t.hs.own == some 1 && t.hs.tseq == m.tseq; s.serving ∧ mine = false :=
  ⟨st (wire { state := .active, lanes := 3, hs := { own := some 1, tseq := 8, lanes := 2 } }), 5,
    ({ tseq := 7, chip := 3, port := 1, lanes := 1 } : WidthMsg), by decide +kernel⟩

theorem witness_WidthChangesAndRetrains_13 :
    ∃ (s : State) (port : Nat) (m : WidthMsg), let t := s.chip.tport port; let up := s.chip.portActive port;
    let mine := t.hs.own == some 1 && t.hs.tseq == m.tseq; s.serving ∧ up = true ∧ mine = true :=
  ⟨st (wire { state := .active, lanes := 3, hs := { own := some 1, tseq := 7, lanes := 2 } }), 5,
    ({ tseq := 7, chip := 3, port := 1, lanes := 1 } : WidthMsg), by decide +kernel⟩

theorem witness_WidthChangesAndRetrains_14 :
    ∃ (s : State) (port : Nat) (m : WidthMsg), let t := s.chip.tport port; let up := s.chip.portActive port;
    let mine := t.hs.own == some 1 && t.hs.tseq == m.tseq; s.serving ∧ up = true ∧ mine = true ∧ t.hs.lanes = 3 :=
  ⟨st (wire { state := .active, lanes := 1, hs := { own := some 1, tseq := 7, lanes := 3 } }), 5,
    ({ tseq := 7, chip := 3, port := 1, lanes := 1 } : WidthMsg), by decide +kernel⟩

theorem witness_WidthChangesAndRetrains_15 :
    ∃ (s : State) (port : Nat) (m : WidthMsg), let t := s.chip.tport port; let up := s.chip.portActive port;
    let link := s.chip.link port; let mine := t.hs.own == some 1 && t.hs.tseq == m.tseq; s.serving ∧ up = true ∧
    mine = true ∧ t.hs.lanes ≠ 3 ∧ t.hs.granted = false ∧ link.tx.inPacket = false :=
  ⟨st (wire { state := .active, lanes := 3, hs := { own := some 1, tseq := 7, lanes := 2 } }), 5,
    ({ tseq := 7, chip := 3, port := 1, lanes := 1 } : WidthMsg), by decide +kernel⟩

theorem witness_WidthChangesAndRetrains_16 :
    ∃ (s : State) (port : Nat) (m : WidthMsg), let t := s.chip.tport port; let up := s.chip.portActive port;
    let link := s.chip.link port; let mine := t.hs.own == some 1 && t.hs.tseq == m.tseq; s.serving ∧ up = true ∧
    mine = true ∧ t.hs.lanes ≠ 3 ∧ link.tx.inPacket = true :=
  ⟨st { wire { state := .active, lanes := 3, hs := { own := some 1, tseq := 7, lanes := 2 } } with links := [(5, { tx := { replay := [{ pkt := passing, sending := true, units := 3 }] } })] },
    5, ({ tseq := 7, chip := 3, port := 1, lanes := 1 } : WidthMsg), by decide +kernel⟩

theorem witness_WidthChangesAndRetrains_17a :
    ∃ (s : State) (port : Nat) (m : WidthMsg), let t := s.chip.tport port;
    let follows := !t.hs.granted && t.hs.leading && t.hs.switchAt.isSome && t.hs.tseq == m.tseq; s.serving ∧
    t.hs.granted = false ∧ follows = false :=
  ⟨st (wire { state := .active, lanes := 3, hs := {} }), 5, ({ tseq := 7, chip := 3, port := 1, lanes := 1 } : WidthMsg),
    by decide +kernel⟩

theorem witness_WidthChangesAndRetrains_17b :
    ∃ (s : State) (port : Nat) (m : WidthMsg), let t := s.chip.tport port;
    let follows := !t.hs.granted && t.hs.leading && t.hs.switchAt.isSome && t.hs.tseq == m.tseq; s.serving ∧
    t.hs.granted = false ∧ follows = false :=
  ⟨st (wire { state := .active, lanes := 3, hs := { leading := true, switchAt := some 0, target := 2, tseq := 8 } }), 5,
    ({ tseq := 7, chip := 3, port := 1, lanes := 1 } : WidthMsg), by decide +kernel⟩

theorem witness_WidthChangesAndRetrains_18a :
    ∃ (s : State) (port : Nat) (m : WidthMsg), let t := s.chip.tport port; let up := s.chip.portActive port;
    let follows := !t.hs.granted && t.hs.leading && t.hs.switchAt.isSome && t.hs.tseq == m.tseq;
    s.leaves (fun c => c.takeWswitch port m) ∧ up = true ∧ follows = true :=
  ⟨st (wire { state := .active, lanes := 3, hs := { leading := true, switchAt := some 0, target := 2, tseq := 7 } }), 5,
    ({ tseq := 7, chip := 3, port := 1, lanes := 1 } : WidthMsg), by decide +kernel⟩

theorem witness_WidthChangesAndRetrains_18b :
    ∃ (s : State) (port : Nat) (m : WidthMsg), let t := s.chip.tport port; let up := s.chip.portActive port;
    let follows := !t.hs.granted && t.hs.leading && t.hs.switchAt.isSome && t.hs.tseq == m.tseq;
    s.leaves (fun c => c.takeWswitch port m) ∧ up = true ∧ follows = true :=
  ⟨st (wire { state := .active, lanes := 3, hs := { leading := true, switchAt := some 0, target := 2, tseq := 7, degrade := true } }),
    5, ({ tseq := 7, chip := 3, port := 1, lanes := 1 } : WidthMsg), by decide +kernel⟩

theorem witness_WidthChangesAndRetrains_19 :
    ∃ (s : State) (port : Nat), let t := s.chip.tport port; let up := s.chip.portActive port; let link := s.chip.link port;
    s.serving ∧ up = true ∧ t.hs.granted = true ∧ link.tx.inPacket = false :=
  ⟨st (wire { state := .active, lanes := 3, hs := { granted := true, target := 1 } }), 5, by decide +kernel⟩

theorem witness_WidthChangesAndRetrains_20 :
    ∃ (s : State) (port : Nat), let t := s.chip.tport port; let up := s.chip.portActive port; let link := s.chip.link port;
    s.serving ∧ up = true ∧ t.hs.granted = true ∧ link.tx.inPacket = true :=
  ⟨st { wire { state := .active, lanes := 3, hs := { granted := true, target := 1 } } with links := [(5, { tx := { replay := [{ pkt := passing, sending := true, units := 3 }] } })] },
    5, by decide +kernel⟩

theorem witness_WidthChangesAndRetrains_21 :
    ∃ (s : State) (port : Nat) (m : WidthMsg), s.serving ∧ s.chip.leads port 5 m = true :=
  ⟨st (wire { state := .active, lanes := 3, hs := { own := some 5 } }), 5,
    ({ tseq := 7, chip := 3, port := 1, lanes := 1 } : WidthMsg), by decide +kernel⟩

theorem witness_WidthChangesAndRetrains_22a :
    ∃ (s : State) (port : Nat) (m : WidthMsg), let up := s.chip.portActive port; s.leaves (fun c => c.takeRreq port m) ∧
    up = true ∧ s.chip.leads port 5 m = false :=
  ⟨st (wire { state := .active, lanes := 3, hs := {} }), 5, ({ tseq := 7, chip := 3, port := 1, lanes := 1 } : WidthMsg),
    by decide +kernel⟩

theorem witness_WidthChangesAndRetrains_22b :
    ∃ (s : State) (port : Nat) (m : WidthMsg), let up := s.chip.portActive port; s.leaves (fun c => c.takeRreq port m) ∧
    up = true ∧ s.chip.leads port 5 m = false :=
  ⟨st (wire { state := .active, lanes := 3, hs := { own := some 1, tseq := 7, lanes := 2 } }), 5,
    ({ tseq := 7, chip := 3, port := 1, lanes := 1 } : WidthMsg), by decide +kernel⟩

theorem witness_WidthChangesAndRetrains_23a :
    ∃ (s : State) (port : Nat) (m : WidthMsg), let t := s.chip.tport port; s.serving ∧
    (t.hs.own ≠ some 5 ∨ t.hs.tseq ≠ m.tseq) :=
  ⟨st (wire { state := .active, lanes := 3, hs := {} }), 5, ({ tseq := 7, chip := 3, port := 1, lanes := 1 } : WidthMsg),
    by decide +kernel⟩

theorem witness_WidthChangesAndRetrains_23b :
    ∃ (s : State) (port : Nat) (m : WidthMsg), let t := s.chip.tport port; s.serving ∧
    (t.hs.own ≠ some 5 ∨ t.hs.tseq ≠ m.tseq) :=
  ⟨st (wire { state := .active, lanes := 3, hs := { own := some 5, tseq := 8, reason := 8 } }), 5,
    ({ tseq := 7, chip := 3, port := 1, lanes := 1 } : WidthMsg), by decide +kernel⟩

theorem witness_WidthChangesAndRetrains_24 :
    ∃ (s : State) (port : Nat) (m : WidthMsg), let t := s.chip.tport port; let up := s.chip.portActive port;
    s.leaves (fun c => c.takeRack port m) ∧ up = true ∧ t.hs.own = some 5 ∧ t.hs.tseq = m.tseq :=
  ⟨st (wire { state := .active, lanes := 3, hs := { own := some 5, tseq := 7, reason := 8 } }), 5,
    ({ tseq := 7, chip := 3, port := 1, lanes := 1 } : WidthMsg), by decide +kernel⟩

theorem witness_WidthChangesAndRetrains_25 :
    ∃ (s : State) (port : Nat), let t := s.chip.tport port; let up := s.chip.portActive port;
    let late := up && decide (t.hs.since + 100000 ≤ s.chip.now); s.serving ∧ late = false :=
  ⟨st { wire { state := .active, lanes := 3, hs := { own := some 1, tseq := 7, lanes := 2 } } with tb := { now := 99999 } },
    5, by decide +kernel⟩

theorem witness_WidthChangesAndRetrains_26 :
    ∃ (s : State) (port : Nat), let t := s.chip.tport port; s.serving ∧ t.hs.own ≠ some 1 :=
  ⟨st { wire { state := .active, lanes := 3, hs := { own := some 5, tseq := 7, reason := 8 } } with tb := { now := 100000 } },
    5, by decide +kernel⟩

theorem witness_WidthChangesAndRetrains_27 :
    ∃ (s : State) (port : Nat), let t := s.chip.tport port; s.serving ∧ t.hs.own ≠ some 5 :=
  ⟨st { wire { state := .active, lanes := 3, hs := { own := some 1, tseq := 7, lanes := 2 } } with tb := { now := 100000 } },
    5, by decide +kernel⟩

theorem witness_WidthChangesAndRetrains_28 :
    ∃ (s : State) (port : Nat), let t := s.chip.tport port; let up := s.chip.portActive port;
    let late := up && decide (t.hs.since + 100000 ≤ s.chip.now); s.serving ∧ late = true ∧ t.hs.own = some 1 ∧
    t.hs.tries < 10 :=
  ⟨st { wire { state := .active, lanes := 3, hs := { own := some 1, tseq := 255, lanes := 2, tries := 9 } } with tb := { now := 100000 } },
    5, by decide +kernel⟩

theorem witness_WidthChangesAndRetrains_29 :
    ∃ (s : State) (port : Nat), let t := s.chip.tport port; let up := s.chip.portActive port;
    let late := up && decide (t.hs.since + 100000 ≤ s.chip.now); s.serving ∧ late = true ∧ t.hs.own = some 1 ∧
    10 ≤ t.hs.tries :=
  ⟨st { wire { state := .active, lanes := 3, hs := { own := some 1, tseq := 7, lanes := 2, tries := 10 } } with tb := { now := 100000 } },
    5, by decide +kernel⟩

theorem witness_WidthChangesAndRetrains_30 :
    ∃ (s : State) (port : Nat), let t := s.chip.tport port; let up := s.chip.portActive port;
    let late := up && decide (t.hs.since + 100000 ≤ s.chip.now); s.leaves (fun c => c.rackTimeout port) ∧ late = true ∧
    t.hs.own = some 5 :=
  ⟨st { wire { state := .active, lanes := 3, hs := { own := some 5, tseq := 7, reason := 8 } } with tb := { now := 100000 } },
    5, by decide +kernel⟩

theorem witness_WidthChangesAndRetrains_31a :
    ∃ (s : State) (port : Nat), let t := s.chip.tport port; let up := s.chip.portActive port;
    let due := up && t.hs.switchAt.elim false fun a => decide (a + 1000000 ≤ s.chip.now);
    let locked := !t.hs.leading && t.lanes &&& s.chip.lockedLanes port == t.lanes; s.serving ∧
    (due = false ∨ (locked = false ∧ t.hs.own = some 5)) :=
  ⟨st { wire { state := .active, lanes := 3, hs := { leading := true, switchAt := some 1 } } with tb := { now := 1000000 } },
    5, by decide +kernel⟩

theorem witness_WidthChangesAndRetrains_31b :
    ∃ (s : State) (port : Nat), let t := s.chip.tport port; let up := s.chip.portActive port;
    let due := up && t.hs.switchAt.elim false fun a => decide (a + 1000000 ≤ s.chip.now);
    let locked := !t.hs.leading && t.lanes &&& s.chip.lockedLanes port == t.lanes; s.serving ∧
    (due = false ∨ (locked = false ∧ t.hs.own = some 5)) :=
  ⟨st { wire { state := .active, lanes := 3, hs := { leading := true, switchAt := some 0, own := some 5 } } with tb := { now := 1000000 } },
    5, by decide +kernel⟩

theorem witness_WidthChangesAndRetrains_32 :
    ∃ (s : State) (port : Nat), let t := s.chip.tport port; let up := s.chip.portActive port;
    let due := up && t.hs.switchAt.elim false fun a => decide (a + 1000000 ≤ s.chip.now);
    let locked := !t.hs.leading && t.lanes &&& s.chip.lockedLanes port == t.lanes; s.serving ∧ due = true ∧ locked = true :=
  ⟨st { wire { state := .active, lanes := 3, hs := { switchAt := some 0 } } with tb := { now := 1000000 }, lanes := [(10, { blockLock := true, markerLock := true }), (11, { blockLock := true, markerLock := true })] },
    5, by decide +kernel⟩

theorem witness_WidthChangesAndRetrains_33a :
    ∃ (s : State) (port : Nat), let t := s.chip.tport port; let up := s.chip.portActive port;
    let due := up && t.hs.switchAt.elim false fun a => decide (a + 1000000 ≤ s.chip.now);
    let locked := !t.hs.leading && t.lanes &&& s.chip.lockedLanes port == t.lanes; s.serving ∧ due = true ∧ locked = false ∧
    t.hs.own ≠ some 5 :=
  ⟨st { wire { state := .active, lanes := 3, hs := { leading := true, switchAt := some 0 } } with tb := { now := 1000000 } },
    5, by decide +kernel⟩

theorem witness_WidthChangesAndRetrains_33b :
    ∃ (s : State) (port : Nat), let t := s.chip.tport port; let up := s.chip.portActive port;
    let due := up && t.hs.switchAt.elim false fun a => decide (a + 1000000 ≤ s.chip.now);
    let locked := !t.hs.leading && t.lanes &&& s.chip.lockedLanes port == t.lanes; s.serving ∧ due = true ∧ locked = false ∧
    t.hs.own ≠ some 5 :=
  ⟨st { wire { state := .active, lanes := 3, hs := { switchAt := some 0 } } with tb := { now := 1000000 } }, 5,
    by decide +kernel⟩

/-! TimeItemsAreSentAndTaken, clause by clause. -/

theorem witness_TimeItemsAreSentAndTaken_1a :
    ∃ (s : State) (port : Nat), let up := s.chip.portActive port; let tim := s.chip.timUp; s.serving ∧
    (up = false ∨ tim = false) :=
  ⟨st full, 5, by decide +kernel⟩

theorem witness_TimeItemsAreSentAndTaken_1b :
    ∃ (s : State) (port : Nat), let up := s.chip.portActive port; let tim := s.chip.timUp; s.serving ∧
    (up = false ∨ tim = false) :=
  ⟨st { wire { state := .active } with tb := {  }, fw := { clusters := [(5, 1)] } }, 5, by decide +kernel⟩

theorem witness_TimeItemsAreSentAndTaken_2 :
    ∃ (s : State) (port : Nat), let up := s.chip.portActive port; let tim := s.chip.timUp; s.serving ∧ up = true ∧
    tim = true :=
  ⟨st { wire { state := .active } with tb := { time := 77, peers := [(5, { txSeq := 255 })] } }, 5, by decide +kernel⟩

theorem witness_TimeItemsAreSentAndTaken_3 :
    ∃ (s : State) (port : Nat), let up := s.chip.portActive port; s.serving ∧ up = false :=
  ⟨st full, 5, by decide +kernel⟩

theorem witness_TimeItemsAreSentAndTaken_4a :
    ∃ (s : State) (port : Nat) (item : TimeItem), let up := s.chip.portActive port; let state := s.chip.tb.state;
    s.leaves (fun c => c.timeReceive port item) ∧ up = true ∧ state = .root :=
  ⟨st { wire { state := .active } with tb := { state := .root } }, 5,
    ({ valid := true, rootId := 3, root := true } : TimeItem), by decide +kernel⟩

theorem witness_TimeItemsAreSentAndTaken_4b :
    ∃ (s : State) (port : Nat) (item : TimeItem), let up := s.chip.portActive port; let state := s.chip.tb.state;
    s.leaves (fun c => c.timeReceive port item) ∧ up = true ∧ state = .root :=
  ⟨st { wire { state := .active } with dict := { active := [(pnum 0x10 0x010 5, 1), (pnum 0x10 0x001 0, 9)] }, tb := { state := .root } },
    5, ({ valid := true, rootId := 3, root := true } : TimeItem), by decide +kernel⟩

theorem witness_TimeItemsAreSentAndTaken_5a :
    ∃ (s : State) (port : Nat) (item : TimeItem), let up := s.chip.portActive port; let tim := s.chip.timUp;
    let u := s.chip.updPeer port fun x => { x with item := some item, arrived := s.chip.tb.time, atTick := s.chip.now };
    let state := s.chip.tb.state; s.leaves (fun c => c.timeReceive port item) ∧ up = true ∧ state ≠ .root ∧
    (item.evalid = false ∨ u.tb.parent ≠ some port ∨ tim = false) ∧ u.bestParent = none :=
  ⟨st { wire { state := .active } with tb := { state := .locked } }, 5, { evalid := true }, by decide +kernel⟩

theorem witness_TimeItemsAreSentAndTaken_5b :
    ∃ (s : State) (port : Nat) (item : TimeItem), let up := s.chip.portActive port; let tim := s.chip.timUp;
    let u := s.chip.updPeer port fun x => { x with item := some item, arrived := s.chip.tb.time, atTick := s.chip.now };
    let state := s.chip.tb.state; s.leaves (fun c => c.timeReceive port item) ∧ up = true ∧ state ≠ .root ∧
    (item.evalid = false ∨ u.tb.parent ≠ some port ∨ tim = false) ∧ u.bestParent = none :=
  ⟨st { wire { state := .active } with tb := { state := .free } }, 5, ({} : TimeItem), by decide +kernel⟩

theorem witness_TimeItemsAreSentAndTaken_6 :
    ∃ (s : State) (port : Nat) (item : TimeItem) (p : _) (i : _), let up := s.chip.portActive port; let tim := s.chip.timUp;
    let u := s.chip.updPeer port fun x => { x with item := some item, arrived := s.chip.tb.time, atTick := s.chip.now };
    let state := s.chip.tb.state; s.leaves (fun c => c.timeReceive port item) ∧ up = true ∧ state ≠ .root ∧
    u.bestParent = some (p, i) ∧ tim = false ∧ state ≠ .locked :=
  ⟨st { wire { state := .active } with tb := { state := .holdover, rootId := 3, parent := some 5 }, fw := { clusters := [(5, 1)] } },
    5, ({ valid := true, rootId := 3 } : TimeItem), 5, ({ valid := true, rootId := 3 } : TimeItem), by decide +kernel⟩

theorem witness_TimeItemsAreSentAndTaken_7a :
    ∃ (s : State) (port : Nat) (item : TimeItem) (p : _) (i : _), let up := s.chip.portActive port; let tim := s.chip.timUp;
    let u := s.chip.updPeer port fun x => { x with item := some item, arrived := s.chip.tb.time, atTick := s.chip.now };
    let state := s.chip.tb.state; let quiet := !item.evalid || !tim || p != port;
    s.leaves (fun c => c.timeReceive port item) ∧ up = true ∧ state ≠ .root ∧ u.bestParent = some (p, i) ∧ tim = true ∧
    quiet = true ∧ (state = .free ∨ state = .lost) :=
  ⟨st { wire { state := .active } with tb := { state := .free } }, 5,
    ({ valid := true, rootId := 3, depth := 254 } : TimeItem), 5, ({ valid := true, rootId := 3, depth := 254 } : TimeItem),
    by decide +kernel⟩

theorem witness_TimeItemsAreSentAndTaken_7b :
    ∃ (s : State) (port : Nat) (item : TimeItem) (p : _) (i : _), let up := s.chip.portActive port; let tim := s.chip.timUp;
    let u := s.chip.updPeer port fun x => { x with item := some item, arrived := s.chip.tb.time, atTick := s.chip.now };
    let state := s.chip.tb.state; let quiet := !item.evalid || !tim || p != port;
    s.leaves (fun c => c.timeReceive port item) ∧ up = true ∧ state ≠ .root ∧ u.bestParent = some (p, i) ∧ tim = true ∧
    quiet = true ∧ (state = .free ∨ state = .lost) :=
  ⟨st { wire { state := .active } with tb := { state := .lost } }, 5,
    ({ valid := true, rootId := 3, depth := 254 } : TimeItem), 5, ({ valid := true, rootId := 3, depth := 254 } : TimeItem),
    by decide +kernel⟩

theorem witness_TimeItemsAreSentAndTaken_8 :
    ∃ (s : State) (port : Nat) (item : TimeItem) (p : _) (i : _), let up := s.chip.portActive port; let tim := s.chip.timUp;
    let u := s.chip.updPeer port fun x => { x with item := some item, arrived := s.chip.tb.time, atTick := s.chip.now };
    let state := s.chip.tb.state; let moved := i.rootId != s.chip.tb.rootId || i.rootGen != s.chip.tb.rootGen;
    let same := decide (s.chip.tb.parent = some p) && !moved; let quiet := !item.evalid || !tim || p != port;
    s.leaves (fun c => c.timeReceive port item) ∧ up = true ∧ state ≠ .root ∧ u.bestParent = some (p, i) ∧ tim = true ∧
    quiet = true ∧ state = .acquire ∧ same = false :=
  ⟨st { wire { state := .active } with tb := { state := .acquire, measured := [1] } }, 5,
    ({ valid := true, rootId := 3 } : TimeItem), 5, ({ valid := true, rootId := 3 } : TimeItem), by decide +kernel⟩

theorem witness_TimeItemsAreSentAndTaken_9 :
    ∃ (s : State) (port : Nat) (item : TimeItem) (p : _) (i : _), let up := s.chip.portActive port; let tim := s.chip.timUp;
    let u := s.chip.updPeer port fun x => { x with item := some item, arrived := s.chip.tb.time, atTick := s.chip.now };
    let state := s.chip.tb.state; let moved := i.rootId != s.chip.tb.rootId || i.rootGen != s.chip.tb.rootGen;
    let same := decide (s.chip.tb.parent = some p) && !moved; let quiet := !item.evalid || !tim || p != port;
    s.leaves (fun c => c.timeReceive port item) ∧ up = true ∧ state ≠ .root ∧ u.bestParent = some (p, i) ∧ tim = true ∧
    quiet = true ∧ state = .acquire ∧ same = true :=
  ⟨st { wire { state := .active } with tb := { state := .acquire, measured := [1], rootId := 3, parent := some 5 } }, 5,
    ({ valid := true, rootId := 3 } : TimeItem), 5, ({ valid := true, rootId := 3 } : TimeItem), by decide +kernel⟩

theorem witness_TimeItemsAreSentAndTaken_10 :
    ∃ (s : State) (port : Nat) (item : TimeItem) (p : _) (i : _), let up := s.chip.portActive port;
    let u := s.chip.updPeer port fun x => { x with item := some item, arrived := s.chip.tb.time, atTick := s.chip.now };
    let state := s.chip.tb.state; let moved := i.rootId != s.chip.tb.rootId || i.rootGen != s.chip.tb.rootGen;
    s.leaves (fun c => c.timeReceive port item) ∧ up = true ∧ state ≠ .root ∧ u.bestParent = some (p, i) ∧ state = .locked ∧
    moved = true :=
  ⟨st { wire { state := .active } with tb := { state := .locked, parent := some 5, rootId := 2 } }, 5,
    ({ valid := true, rootId := 3 } : TimeItem), 5, ({ valid := true, rootId := 3 } : TimeItem), by decide +kernel⟩

theorem witness_TimeItemsAreSentAndTaken_11 :
    ∃ (s : State) (port : Nat) (item : TimeItem) (p : _) (i : _), let up := s.chip.portActive port; let tim := s.chip.timUp;
    let u := s.chip.updPeer port fun x => { x with item := some item, arrived := s.chip.tb.time, atTick := s.chip.now };
    let state := s.chip.tb.state; let moved := i.rootId != s.chip.tb.rootId || i.rootGen != s.chip.tb.rootGen;
    let quiet := !item.evalid || !tim || p != port; s.leaves (fun c => c.timeReceive port item) ∧ up = true ∧
    state ≠ .root ∧ u.bestParent = some (p, i) ∧ quiet = true ∧ state = .locked ∧ moved = false :=
  ⟨st { wire { state := .active } with tb := { state := .locked, parent := some 6, rootId := 3 } }, 5,
    ({ valid := true, rootId := 3, depth := 3 } : TimeItem), 5, ({ valid := true, rootId := 3, depth := 3 } : TimeItem),
    by decide +kernel⟩

theorem witness_TimeItemsAreSentAndTaken_12 :
    ∃ (s : State) (port : Nat) (item : TimeItem) (p : _) (i : _), let up := s.chip.portActive port; let tim := s.chip.timUp;
    let u := s.chip.updPeer port fun x => { x with item := some item, arrived := s.chip.tb.time, atTick := s.chip.now };
    let state := s.chip.tb.state; let moved := i.rootId != s.chip.tb.rootId || i.rootGen != s.chip.tb.rootGen;
    s.leaves (fun c => c.timeReceive port item) ∧ up = true ∧ state ≠ .root ∧ u.bestParent = some (p, i) ∧ tim = true ∧
    state = .holdover ∧ moved = true :=
  ⟨st { wire { state := .active } with tb := { state := .holdover, rootId := 3, rootGen := 1 } }, 5,
    ({ valid := true, rootId := 3 } : TimeItem), 5, ({ valid := true, rootId := 3 } : TimeItem), by decide +kernel⟩

theorem witness_TimeItemsAreSentAndTaken_13 :
    ∃ (s : State) (port : Nat) (item : TimeItem) (p : _) (i : _), let up := s.chip.portActive port; let tim := s.chip.timUp;
    let u := s.chip.updPeer port fun x => { x with item := some item, arrived := s.chip.tb.time, atTick := s.chip.now };
    let state := s.chip.tb.state; let moved := i.rootId != s.chip.tb.rootId || i.rootGen != s.chip.tb.rootGen;
    let quiet := !item.evalid || !tim || p != port; s.leaves (fun c => c.timeReceive port item) ∧ up = true ∧
    state ≠ .root ∧ u.bestParent = some (p, i) ∧ tim = true ∧ quiet = true ∧ state = .holdover ∧ moved = false :=
  ⟨st { wire { state := .active } with tb := { state := .holdover, rootId := 3 } }, 5,
    ({ valid := true, rootId := 3 } : TimeItem), 5, ({ valid := true, rootId := 3 } : TimeItem), by decide +kernel⟩

theorem witness_TimeItemsAreSentAndTaken_14 :
    ∃ (s : State) (port : Nat) (item : TimeItem) (p : _) (i : _), let up := s.chip.portActive port; let tim := s.chip.timUp;
    let peer := s.chip.peer port;
    let u := s.chip.updPeer port fun x => { x with item := some item, arrived := s.chip.tb.time, atTick := s.chip.now };
    let state := s.chip.tb.state; let moved := i.rootId != s.chip.tb.rootId || i.rootGen != s.chip.tb.rootGen;
    let same := decide (s.chip.tb.parent = some p) && !moved; s.leaves (fun c => c.timeReceive port item) ∧ up = true ∧
    state ≠ .root ∧ u.bestParent = some (p, i) ∧ tim = true ∧ p = port ∧ item.evalid = true ∧ same = true ∧
    (state = .acquire ∨ state = .locked) ∧ Tab.get? peer.sentAt item.eseq = none :=
  ⟨st { wire { state := .active } with tb := { state := .acquire, rootId := 3, parent := some 5 } }, 5,
    ({ valid := true, rootId := 3, evalid := true, eseq := 7, ttx := 4012000, erx := 4000080 } : TimeItem), 5,
    ({ valid := true, rootId := 3, evalid := true, eseq := 7, ttx := 4012000, erx := 4000080 } : TimeItem),
    by decide +kernel⟩

theorem witness_TimeItemsAreSentAndTaken_15 :
    ∃ (s : State) (port : Nat) (item : TimeItem) (p : _) (i : _) (t1 : _), let up := s.chip.portActive port;
    let tim := s.chip.timUp; let peer := s.chip.peer port;
    let u := s.chip.updPeer port fun x => { x with item := some item, arrived := s.chip.tb.time, atTick := s.chip.now };
    let state := s.chip.tb.state; let moved := i.rootId != s.chip.tb.rootId || i.rootGen != s.chip.tb.rootGen;
    let same := decide (s.chip.tb.parent = some p) && !moved; let a := signedDiff s.chip.tb.time item.ttx;
    let b := signedDiff item.erx t1; let delay := (a + b) / 2; s.leaves (fun c => c.timeReceive port item) ∧ up = true ∧
    state ≠ .root ∧ u.bestParent = some (p, i) ∧ tim = true ∧ p = port ∧ item.evalid = true ∧ same = true ∧
    (state = .acquire ∨ state = .locked) ∧ Tab.get? peer.sentAt item.eseq = some t1 ∧ (a - b) % 2 = 0 ∧ (a + b) % 2 = 0 ∧
    delayOk peer.delays delay = false :=
  ⟨st { wire { state := .active } with tb := { state := .locked, rootId := 3, parent := some 5, time := 4012188, peers := [(5, { sentAt := [(7, 4000188)], delays := [7, 7] })] } },
    5, ({ valid := true, rootId := 3, evalid := true, eseq := 7, ttx := 4012000, erx := 4000080 } : TimeItem), 5,
    ({ valid := true, rootId := 3, evalid := true, eseq := 7, ttx := 4012000, erx := 4000080 } : TimeItem), 4000188,
    by decide +kernel⟩

theorem witness_TimeItemsAreSentAndTaken_16 :
    ∃ (s : State) (port : Nat) (item : TimeItem) (p : _) (i : _) (t1 : _), let up := s.chip.portActive port;
    let tim := s.chip.timUp; let peer := s.chip.peer port;
    let u := s.chip.updPeer port fun x => { x with item := some item, arrived := s.chip.tb.time, atTick := s.chip.now };
    let state := s.chip.tb.state; let moved := i.rootId != s.chip.tb.rootId || i.rootGen != s.chip.tb.rootGen;
    let same := decide (s.chip.tb.parent = some p) && !moved; let a := signedDiff s.chip.tb.time item.ttx;
    let b := signedDiff item.erx t1; let delay := (a + b) / 2; s.leaves (fun c => c.timeReceive port item) ∧ up = true ∧
    state ≠ .root ∧ u.bestParent = some (p, i) ∧ tim = true ∧ p = port ∧ item.evalid = true ∧ same = true ∧
    (state = .acquire ∨ state = .locked) ∧ Tab.get? peer.sentAt item.eseq = some t1 ∧ (a - b) % 2 = 0 ∧ (a + b) % 2 = 0 ∧
    delayOk peer.delays delay = true ∧ state = .acquire ∧ s.chip.tb.measured.length < 3 :=
  ⟨st { wire { state := .active } with tb := { state := .acquire, rootId := 3, parent := some 5, time := 4012188, peers := [(5, { sentAt := [(7, 4000188)] })], measured := [1, 2] } },
    5, ({ valid := true, rootId := 3, evalid := true, eseq := 7, ttx := 4012000, erx := 4000080 } : TimeItem), 5,
    ({ valid := true, rootId := 3, evalid := true, eseq := 7, ttx := 4012000, erx := 4000080 } : TimeItem), 4000188,
    by decide +kernel⟩

theorem witness_TimeItemsAreSentAndTaken_17 :
    ∃ (s : State) (port : Nat) (item : TimeItem) (p : _) (i : _) (t1 : _), let up := s.chip.portActive port;
    let tim := s.chip.timUp; let peer := s.chip.peer port;
    let u := s.chip.updPeer port fun x => { x with item := some item, arrived := s.chip.tb.time, atTick := s.chip.now };
    let state := s.chip.tb.state; let moved := i.rootId != s.chip.tb.rootId || i.rootGen != s.chip.tb.rootGen;
    let same := decide (s.chip.tb.parent = some p) && !moved; let a := signedDiff s.chip.tb.time item.ttx;
    let b := signedDiff item.erx t1; let delay := (a + b) / 2; s.leaves (fun c => c.timeReceive port item) ∧ up = true ∧
    state ≠ .root ∧ u.bestParent = some (p, i) ∧ tim = true ∧ p = port ∧ item.evalid = true ∧ same = true ∧
    (state = .acquire ∨ state = .locked) ∧ Tab.get? peer.sentAt item.eseq = some t1 ∧ (a - b) % 2 = 0 ∧ (a + b) % 2 = 0 ∧
    delayOk peer.delays delay = true ∧ state = .acquire ∧ 3 ≤ s.chip.tb.measured.length :=
  ⟨st { wire { state := .active } with tb := { state := .acquire, rootId := 3, parent := some 5, time := 4012188, peers := [(5, { sentAt := [(7, 4000188)], delays := [40, 72] })], measured := [1, 2, 3] } },
    5, ({ valid := true, rootId := 3, evalid := true, eseq := 7, ttx := 4012000, erx := 4000080 } : TimeItem), 5,
    ({ valid := true, rootId := 3, evalid := true, eseq := 7, ttx := 4012000, erx := 4000080 } : TimeItem), 4000188,
    by decide +kernel⟩

theorem witness_TimeItemsAreSentAndTaken_18 :
    ∃ (s : State) (port : Nat) (item : TimeItem) (p : _) (i : _) (t1 : _), let up := s.chip.portActive port;
    let tim := s.chip.timUp; let peer := s.chip.peer port;
    let u := s.chip.updPeer port fun x => { x with item := some item, arrived := s.chip.tb.time, atTick := s.chip.now };
    let state := s.chip.tb.state; let moved := i.rootId != s.chip.tb.rootId || i.rootGen != s.chip.tb.rootGen;
    let same := decide (s.chip.tb.parent = some p) && !moved; let a := signedDiff s.chip.tb.time item.ttx;
    let b := signedDiff item.erx t1; let theta := (a - b) / 2; let delay := (a + b) / 2;
    s.leaves (fun c => c.timeReceive port item) ∧ up = true ∧ state ≠ .root ∧ u.bestParent = some (p, i) ∧ tim = true ∧
    p = port ∧ item.evalid = true ∧ same = true ∧ (state = .acquire ∨ state = .locked) ∧
    Tab.get? peer.sentAt item.eseq = some t1 ∧ (a - b) % 2 = 0 ∧ (a + b) % 2 = 0 ∧ delayOk peer.delays delay = true ∧
    state = .locked ∧ theta.natAbs ≤ 4000 :=
  ⟨st { wire { state := .active } with tb := { state := .locked, rootId := 3, parent := some 5, time := 4012188, peers := [(5, { sentAt := [(7, 4000188)] })] } },
    5, ({ valid := true, rootId := 3, evalid := true, eseq := 7, ttx := 4012000, erx := 4000080 } : TimeItem), 5,
    ({ valid := true, rootId := 3, evalid := true, eseq := 7, ttx := 4012000, erx := 4000080 } : TimeItem), 4000188,
    by decide +kernel⟩

theorem witness_TimeItemsAreSentAndTaken_19 :
    ∃ (s : State) (port : Nat) (item : TimeItem) (p : _) (i : _) (t1 : _), let up := s.chip.portActive port;
    let tim := s.chip.timUp; let peer := s.chip.peer port;
    let u := s.chip.updPeer port fun x => { x with item := some item, arrived := s.chip.tb.time, atTick := s.chip.now };
    let state := s.chip.tb.state; let moved := i.rootId != s.chip.tb.rootId || i.rootGen != s.chip.tb.rootGen;
    let same := decide (s.chip.tb.parent = some p) && !moved; let a := signedDiff s.chip.tb.time item.ttx;
    let b := signedDiff item.erx t1; let theta := (a - b) / 2; let delay := (a + b) / 2;
    s.leaves (fun c => c.timeReceive port item) ∧ up = true ∧ state ≠ .root ∧ u.bestParent = some (p, i) ∧ tim = true ∧
    p = port ∧ item.evalid = true ∧ same = true ∧ (state = .acquire ∨ state = .locked) ∧
    Tab.get? peer.sentAt item.eseq = some t1 ∧ (a - b) % 2 = 0 ∧ (a + b) % 2 = 0 ∧ delayOk peer.delays delay = true ∧
    state = .locked ∧ 4000 < theta.natAbs :=
  ⟨st { wire { state := .active } with tb := { state := .locked, rootId := 3, parent := some 5, time := 4022188, peers := [(5, { sentAt := [(7, 4000188)] })] } },
    5, ({ valid := true, rootId := 3, evalid := true, eseq := 7, ttx := 4012000, erx := 4000080 } : TimeItem), 5,
    ({ valid := true, rootId := 3, evalid := true, eseq := 7, ttx := 4012000, erx := 4000080 } : TimeItem), 4000188,
    by decide +kernel⟩

/-! TimeRunsOutAndIsDisciplined, clause by clause. -/

theorem witness_TimeRunsOutAndIsDisciplined_1a :
    ∃ (s : State), let tb := s.chip.tb; s.serving ∧ s.chip.bestParent = none ∧
    tb.parent.all (fun p => decide (s.chip.now < s.chip.offerEnded p + 32000)) = true :=
  ⟨st full, by decide +kernel⟩

theorem witness_TimeRunsOutAndIsDisciplined_1b :
    ∃ (s : State), let tb := s.chip.tb; s.serving ∧ s.chip.bestParent = none ∧
    tb.parent.all (fun p => decide (s.chip.now < s.chip.offerEnded p + 32000)) = true :=
  ⟨st { full with tb := { state := .locked, parent := some 5, now := 31999 } }, by decide +kernel⟩

theorem witness_TimeRunsOutAndIsDisciplined_2 :
    ∃ (s : State) (p : _), let tb := s.chip.tb; s.serving ∧ s.chip.bestParent = none ∧ tb.parent = some p ∧
    s.chip.offerEnded p + 32000 ≤ s.chip.now ∧ tb.state = .locked :=
  ⟨st { wire { state := .active } with tb := { state := .locked, parent := some 5, peers := [(5, { item := some {}, atTick := 0 })], now := 64000 } },
    5, by decide +kernel⟩

theorem witness_TimeRunsOutAndIsDisciplined_3 :
    ∃ (s : State) (p : _), let tb := s.chip.tb; s.serving ∧ s.chip.bestParent = none ∧ tb.parent = some p ∧
    s.chip.offerEnded p + 32000 ≤ s.chip.now ∧ tb.state = .acquire :=
  ⟨st { wire { state := .active } with tb := { state := .acquire, prev := .lost, depth := 3, parent := some 5, now := 64000 } },
    5, by decide +kernel⟩

theorem witness_TimeRunsOutAndIsDisciplined_4 :
    ∃ (s : State) (p : _), let tb := s.chip.tb; s.serving ∧ s.chip.bestParent = none ∧ tb.parent = some p ∧
    s.chip.offerEnded p + 32000 ≤ s.chip.now ∧ tb.state ≠ .locked ∧ tb.state ≠ .acquire :=
  ⟨st { wire { state := .active } with tb := { state := .holdover, parent := some 5, now := 64000 } }, 5,
    by decide +kernel⟩

theorem witness_TimeRunsOutAndIsDisciplined_5a :
    ∃ (s : State) (p : _) (i : _), let tb := s.chip.tb; s.leaves (fun c => c.chooseParent) ∧
    s.chip.bestParent = some (p, i) ∧ (tb.state = .root ∨ (s.chip.timUp = false ∧ tb.state ≠ .locked)) :=
  ⟨st { wire { state := .active } with tb := { state := .root, peers := [(5, { item := some ({ valid := true, rootId := 3 } : TimeItem) })] } },
    5, ({ valid := true, rootId := 3 } : TimeItem), by decide +kernel⟩

theorem witness_TimeRunsOutAndIsDisciplined_5b :
    ∃ (s : State) (p : _) (i : _), let tb := s.chip.tb; s.leaves (fun c => c.chooseParent) ∧
    s.chip.bestParent = some (p, i) ∧ (tb.state = .root ∨ (s.chip.timUp = false ∧ tb.state ≠ .locked)) :=
  ⟨st { wire { state := .active } with tb := { state := .acquire, peers := [(5, { item := some ({ valid := true, rootId := 3 } : TimeItem) })] }, fw := { clusters := [(5, 1)] } },
    5, ({ valid := true, rootId := 3 } : TimeItem), by decide +kernel⟩

theorem witness_TimeRunsOutAndIsDisciplined_6 :
    ∃ (s : State) (p : _) (i : _), let tb := s.chip.tb; s.leaves (fun c => c.chooseParent) ∧
    s.chip.bestParent = some (p, i) ∧ s.chip.timUp = true ∧ (tb.state = .free ∨ tb.state = .lost) :=
  ⟨st { wire { state := .active } with tb := { state := .lost, peers := [(5, { item := some ({ valid := true, rootId := 3 } : TimeItem) })] } },
    5, ({ valid := true, rootId := 3 } : TimeItem), by decide +kernel⟩

theorem witness_TimeRunsOutAndIsDisciplined_7a :
    ∃ (s : State) (p : _) (i : _), let tb := s.chip.tb; s.leaves (fun c => c.chooseParent) ∧
    s.chip.bestParent = some (p, i) ∧ s.chip.timUp = true ∧ tb.state = .acquire :=
  ⟨st { wire { state := .active } with tb := { state := .acquire, measured := [1], peers := [(5, { item := some ({ valid := true, rootId := 3 } : TimeItem) })] } },
    5, ({ valid := true, rootId := 3 } : TimeItem), by decide +kernel⟩

theorem witness_TimeRunsOutAndIsDisciplined_7b :
    ∃ (s : State) (p : _) (i : _), let tb := s.chip.tb; s.leaves (fun c => c.chooseParent) ∧
    s.chip.bestParent = some (p, i) ∧ s.chip.timUp = true ∧ tb.state = .acquire :=
  ⟨st { wire { state := .active } with tb := { state := .acquire, measured := [1], rootId := 3, parent := some 5, peers := [(5, { item := some ({ valid := true, rootId := 3 } : TimeItem) })] } },
    5, ({ valid := true, rootId := 3 } : TimeItem), by decide +kernel⟩

theorem witness_TimeRunsOutAndIsDisciplined_8 :
    ∃ (s : State) (p : _) (i : _), let tb := s.chip.tb; let moved := i.rootId != tb.rootId || i.rootGen != tb.rootGen;
    s.leaves (fun c => c.chooseParent) ∧ s.chip.bestParent = some (p, i) ∧ tb.state = .locked ∧ moved = false :=
  ⟨st { wire { state := .active } with tb := { state := .locked, parent := some 9, rootId := 3, peers := [(5, { item := some ({ valid := true, rootId := 3 } : TimeItem) })] } },
    5, ({ valid := true, rootId := 3 } : TimeItem), by decide +kernel⟩

theorem witness_TimeRunsOutAndIsDisciplined_9 :
    ∃ (s : State) (p : _) (i : _), let tb := s.chip.tb; let moved := i.rootId != tb.rootId || i.rootGen != tb.rootGen;
    s.leaves (fun c => c.chooseParent) ∧ s.chip.bestParent = some (p, i) ∧ s.chip.timUp = true ∧ tb.state = .holdover ∧
    moved = false :=
  ⟨st { wire { state := .active } with tb := { state := .holdover, rootId := 3, peers := [(5, { item := some ({ valid := true, rootId := 3 } : TimeItem) })] } },
    5, ({ valid := true, rootId := 3 } : TimeItem), by decide +kernel⟩

theorem witness_TimeRunsOutAndIsDisciplined_10a :
    ∃ (s : State) (p : _) (i : _), let tb := s.chip.tb; let moved := i.rootId != tb.rootId || i.rootGen != tb.rootGen;
    s.leaves (fun c => c.chooseParent) ∧ s.chip.bestParent = some (p, i) ∧
    (tb.state = .locked ∨ (s.chip.timUp = true ∧ tb.state = .holdover)) ∧ moved = true :=
  ⟨st { wire { state := .active } with tb := { state := .locked, peers := [(5, { item := some ({ valid := true, rootId := 3 } : TimeItem) })] } },
    5, ({ valid := true, rootId := 3 } : TimeItem), by decide +kernel⟩

theorem witness_TimeRunsOutAndIsDisciplined_10b :
    ∃ (s : State) (p : _) (i : _), let tb := s.chip.tb; let moved := i.rootId != tb.rootId || i.rootGen != tb.rootGen;
    s.leaves (fun c => c.chooseParent) ∧ s.chip.bestParent = some (p, i) ∧
    (tb.state = .locked ∨ (s.chip.timUp = true ∧ tb.state = .holdover)) ∧ moved = true :=
  ⟨st { wire { state := .active } with tb := { state := .holdover, peers := [(5, { item := some ({ valid := true, rootId := 3 } : TimeItem) })] } },
    5, ({ valid := true, rootId := 3 } : TimeItem), by decide +kernel⟩

theorem witness_TimeRunsOutAndIsDisciplined_11a :
    ∃ (s : State), let tb := s.chip.tb;
    let ends := decide (tb.state = .holdover) && decide (tb.holdoverAt + 1000 * s.chip.param 0x08 0x004 0 ≤ s.chip.now);
    s.serving ∧ ends = false :=
  ⟨st full, by decide +kernel⟩

theorem witness_TimeRunsOutAndIsDisciplined_11b :
    ∃ (s : State), let tb := s.chip.tb;
    let ends := decide (tb.state = .holdover) && decide (tb.holdoverAt + 1000 * s.chip.param 0x08 0x004 0 ≤ s.chip.now);
    s.serving ∧ ends = false :=
  ⟨st { full with tb := { state := .holdover, now := 399999999 } }, by decide +kernel⟩

theorem witness_TimeRunsOutAndIsDisciplined_12 :
    ∃ (s : State), let tb := s.chip.tb;
    let ends := decide (tb.state = .holdover) && decide (tb.holdoverAt + 1000 * s.chip.param 0x08 0x004 0 ≤ s.chip.now);
    s.leaves (fun c => c.holdoverExpiry) ∧ ends = true :=
  ⟨st { full with tb := { state := .holdover, now := 400000000 } }, by decide +kernel⟩

theorem witness_TimeRunsOutAndIsDisciplined_13a :
    ∃ (s : State), let tb := s.chip.tb; let listens := decide (tb.state = .root) && decide (s.chip.param 0x08 0x002 0 = 1);
    s.serving ∧ listens = false :=
  ⟨st full, by decide +kernel⟩

theorem witness_TimeRunsOutAndIsDisciplined_13b :
    ∃ (s : State), let tb := s.chip.tb; let listens := decide (tb.state = .root) && decide (s.chip.param 0x08 0x002 0 = 1);
    s.serving ∧ listens = false :=
  ⟨st { full with tb := { state := .root } }, by decide +kernel⟩

theorem witness_TimeRunsOutAndIsDisciplined_14 :
    ∃ (s : State), let tb := s.chip.tb; let listens := decide (tb.state = .root) && decide (s.chip.param 0x08 0x002 0 = 1);
    let early := tb.lastPps.elim false fun t => decide (s.chip.now < t + 500000000); s.serving ∧ listens = true ∧
    early = true :=
  ⟨st { full with tb := { state := .root, lastPps := some 1, now := 500000000 }, dict := { active := [(pnum 0x08 0x002 0, 1)] } },
    by decide +kernel⟩

theorem witness_TimeRunsOutAndIsDisciplined_15 :
    ∃ (s : State), let tb := s.chip.tb; let listens := decide (tb.state = .root) && decide (s.chip.param 0x08 0x002 0 = 1);
    let early := tb.lastPps.elim false fun t => decide (s.chip.now < t + 500000000); s.serving ∧ listens = true ∧
    early = false ∧ s.chip.timUp = false :=
  ⟨st { full with tb := { state := .root, lastPps := some 0, now := 500000000 }, dict := { active := [(pnum 0x08 0x002 0, 1)] }, fw := { clusters := [(5, 1)] } },
    by decide +kernel⟩

theorem witness_TimeRunsOutAndIsDisciplined_16a :
    ∃ (s : State), let tb := s.chip.tb; let listens := decide (tb.state = .root) && decide (s.chip.param 0x08 0x002 0 = 1);
    let early := tb.lastPps.elim false fun t => decide (s.chip.now < t + 500000000); s.serving ∧ listens = true ∧
    early = false ∧ s.chip.timUp = true :=
  ⟨st { full with tb := { state := .root, lastPps := some 0, now := 500000000, time := 9000 }, dict := { active := [(pnum 0x08 0x002 0, 1)] } },
    by decide +kernel⟩

theorem witness_TimeRunsOutAndIsDisciplined_16b :
    ∃ (s : State), let tb := s.chip.tb; let listens := decide (tb.state = .root) && decide (s.chip.param 0x08 0x002 0 = 1);
    let early := tb.lastPps.elim false fun t => decide (s.chip.now < t + 500000000); s.serving ∧ listens = true ∧
    early = false ∧ s.chip.timUp = true :=
  ⟨st { full with tb := { state := .root, time := 4000 }, dict := { active := [(pnum 0x08 0x002 0, 1)] } },
    by decide +kernel⟩

/-! MonitorsAndSensorsAreRead, clause by clause. -/

theorem witness_MonitorsAndSensorsAreRead_1a :
    ∃ (s : State) (raw : List Int), s.leaves (fun c => c.paceWindow raw) :=
  ⟨st { full with flash := { calState := 2 } }, List.replicate 16 2000, by decide +kernel⟩

theorem witness_MonitorsAndSensorsAreRead_1b :
    ∃ (s : State) (raw : List Int), s.leaves (fun c => c.paceWindow raw) :=
  ⟨st { { full with flash := { calState := 2 } } with pace := { low := [1] } }, [1800, 1799, 1800], by decide +kernel⟩

theorem witness_MonitorsAndSensorsAreRead_2 :
    ∃ (s : State) (raw : List Int), let t (i : Nat) : Int := (raw[i]?).getD 0 + s.chip.trim 0x021 i;
    let limit : Int := 10 * s.chip.param 0x08 0x047 0; let hot := (List.range 16).any fun i => decide (limit ≤ t i);
    s.leaves (fun c => c.thermalWarning raw) ∧ hot = true :=
  ⟨st { full with flash := { calState := 2 } }, [949, 950], by decide +kernel⟩

theorem witness_MonitorsAndSensorsAreRead_3 :
    ∃ (s : State) (raw : List Int), let t (i : Nat) : Int := (raw[i]?).getD 0 + s.chip.trim 0x021 i;
    let limit : Int := 10 * s.chip.param 0x08 0x047 0; let hot := (List.range 16).any fun i => decide (limit ≤ t i);
    let cold := (List.range 16).all fun i => decide (t i < limit - 50); s.leaves (fun c => c.thermalWarning raw) ∧
    hot = false ∧ cold = true :=
  ⟨st { { full with flash := { calState := 2 } } with pace := { warned := true } }, [0, 899], by decide +kernel⟩

theorem witness_MonitorsAndSensorsAreRead_4a :
    ∃ (s : State) (raw : List Int), let t (i : Nat) : Int := (raw[i]?).getD 0 + s.chip.trim 0x021 i;
    let limit : Int := 10 * s.chip.param 0x08 0x047 0; let hot := (List.range 16).any fun i => decide (limit ≤ t i);
    let cold := (List.range 16).all fun i => decide (t i < limit - 50); s.leaves (fun c => c.thermalWarning raw) ∧
    hot = false ∧ cold = false :=
  ⟨st { { full with flash := { calState := 2 } } with pace := { warned := true } }, [900, 949], by decide +kernel⟩

theorem witness_MonitorsAndSensorsAreRead_4b :
    ∃ (s : State) (raw : List Int), let t (i : Nat) : Int := (raw[i]?).getD 0 + s.chip.trim 0x021 i;
    let limit : Int := 10 * s.chip.param 0x08 0x047 0; let hot := (List.range 16).any fun i => decide (limit ≤ t i);
    let cold := (List.range 16).all fun i => decide (t i < limit - 50); s.leaves (fun c => c.thermalWarning raw) ∧
    hot = false ∧ cold = false :=
  ⟨st { full with flash := { calState := 2 } }, [900, 949], by decide +kernel⟩

theorem witness_MonitorsAndSensorsAreRead_5 :
    ∃ (s : State) (raw : List Int), let t (i : Nat) : Int := (raw[i]?).getD 0 + s.chip.trim 0x021 i;
    let limit : Int := 10 * s.chip.param 0x08 0x047 0; let cold := (List.range 16).all fun i => decide (t i < limit - 50);
    s.leaves (fun c => c.thermalClear raw) ∧ cold = true :=
  ⟨st { { full with flash := { calState := 2 } } with pace := { warned := true } }, [899], by decide +kernel⟩

theorem witness_MonitorsAndSensorsAreRead_6 :
    ∃ (s : State) (raw : List Int), let t (i : Nat) : Int := (raw[i]?).getD 0 + s.chip.trim 0x021 i;
    let limit : Int := 10 * s.chip.param 0x08 0x047 0; let cold := (List.range 16).all fun i => decide (t i < limit - 50);
    s.leaves (fun c => c.thermalClear raw) ∧ cold = false :=
  ⟨st { { full with flash := { calState := 2 } } with pace := { warned := true } }, [950, 900], by decide +kernel⟩

theorem witness_MonitorsAndSensorsAreRead_7a :
    ∃ (s : State) (raw : List Int), s.chip.calm = true ∧
    (s.chip.boot.phase = .tripped ∨ raw.any (fun x => decide (1150 ≤ x)) = false) :=
  ⟨st full, [1149], by decide +kernel⟩

theorem witness_MonitorsAndSensorsAreRead_7b :
    ∃ (s : State) (raw : List Int), s.chip.calm = true ∧
    (s.chip.boot.phase = .tripped ∨ raw.any (fun x => decide (1150 ≤ x)) = false) :=
  ⟨st { boot := { phase := .tripped } }, [1150], by decide +kernel⟩

theorem witness_MonitorsAndSensorsAreRead_8 :
    ∃ (s : State) (raw : List Int), raw.any (fun x => decide (1150 ≤ x)) = true ∧ s.chip.boot.phase ≠ .tripped :=
  ⟨st { full with flash := { calState := 2 } }, [1150], by decide +kernel⟩

/-! AvsFollowsTheLowestMonitor, clause by clause. -/

theorem witness_AvsFollowsTheLowestMonitor_1a :
    ∃ (s : State), s.serving ∧ (s.chip.clusterUp 1 = false ∨ s.chip.lowestPace = none) :=
  ⟨st { full with fw := { clusters := [(1, 1)] } }, by decide +kernel⟩

theorem witness_AvsFollowsTheLowestMonitor_1b :
    ∃ (s : State), s.serving ∧ (s.chip.clusterUp 1 = false ∨ s.chip.lowestPace = none) :=
  ⟨st { full with pace := { excluded := List.range 16 } }, by decide +kernel⟩

theorem witness_AvsFollowsTheLowestMonitor_2 :
    ∃ (s : State) (p : _), let pace := s.chip.pace;
    let v := max (s.chip.param 0x08 0x043 0) (min (s.chip.param 0x08 0x044 0) (if p < s.chip.param 0x08 0x042 0 then pace.request + 20 else if p + 25 < s.chip.param 0x08 0x041 0 then pace.request + 5 else if s.chip.param 0x08 0x041 0 + 75 < p then pace.request - 5 else pace.request));
    s.serving ∧ s.chip.clusterUp 1 = true ∧ s.chip.lowestPace = some p ∧ v = pace.request :=
  ⟨st { full with pace := { request := 800, pace := (List.range 16).map fun i => (i, 2150) } }, 2150, by decide +kernel⟩

theorem witness_AvsFollowsTheLowestMonitor_3a :
    ∃ (s : State) (p : _), let pace := s.chip.pace;
    let v := max (s.chip.param 0x08 0x043 0) (min (s.chip.param 0x08 0x044 0) (if p < s.chip.param 0x08 0x042 0 then pace.request + 20 else if p + 25 < s.chip.param 0x08 0x041 0 then pace.request + 5 else if s.chip.param 0x08 0x041 0 + 75 < p then pace.request - 5 else pace.request));
    s.serving ∧ s.chip.clusterUp 1 = true ∧ s.chip.lowestPace = some p ∧ v ≠ pace.request :=
  ⟨st { full with pace := { request := 800, pace := (List.range 16).map fun i => (i, 1799) } }, 1799, by decide +kernel⟩

theorem witness_AvsFollowsTheLowestMonitor_3b :
    ∃ (s : State) (p : _), let pace := s.chip.pace;
    let v := max (s.chip.param 0x08 0x043 0) (min (s.chip.param 0x08 0x044 0) (if p < s.chip.param 0x08 0x042 0 then pace.request + 20 else if p + 25 < s.chip.param 0x08 0x041 0 then pace.request + 5 else if s.chip.param 0x08 0x041 0 + 75 < p then pace.request - 5 else pace.request));
    s.serving ∧ s.chip.clusterUp 1 = true ∧ s.chip.lowestPace = some p ∧ v ≠ pace.request :=
  ⟨st { full with pace := { request := 840, pace := (List.range 16).map fun i => (i, 1900) } }, 1900, by decide +kernel⟩

theorem witness_AvsFollowsTheLowestMonitor_3c :
    ∃ (s : State) (p : _), let pace := s.chip.pace;
    let v := max (s.chip.param 0x08 0x043 0) (min (s.chip.param 0x08 0x044 0) (if p < s.chip.param 0x08 0x042 0 then pace.request + 20 else if p + 25 < s.chip.param 0x08 0x041 0 then pace.request + 5 else if s.chip.param 0x08 0x041 0 + 75 < p then pace.request - 5 else pace.request));
    s.serving ∧ s.chip.clusterUp 1 = true ∧ s.chip.lowestPace = some p ∧ v ≠ pace.request :=
  ⟨st { full with pace := { request := 800, pace := (List.range 16).map fun i => (i, 2500) } }, 2500, by decide +kernel⟩

theorem witness_AvsFollowsTheLowestMonitor_4 :
    ∃ (s : State), let pace := s.chip.pace; s.serving ∧ pace.wanted = none :=
  ⟨st full, by decide +kernel⟩

theorem witness_AvsFollowsTheLowestMonitor_5 :
    ∃ (s : State) (v : _), let pace := s.chip.pace; pace.wanted = some v ∧ s.serving :=
  ⟨st { full with pace := { wanted := some 820 } }, 820, by decide +kernel⟩

theorem witness_AvsFollowsTheLowestMonitor_6 :
    ∃ (s : State) (v : _), let pace := s.chip.pace; pace.wanted = some v ∧ s.leaves (fun c => c.avsFailed) :=
  ⟨st { full with pace := { wanted := some 820 } }, 820, by decide +kernel⟩

/-! TicksPassTimeIsSetSamplesStream, clause by clause. -/

theorem witness_TicksPassTimeIsSetSamplesStream_1a :
    ∃ (s : State) (ticks : Nat), let stopped := s.chip.boot.phase == .held || s.chip.boot.phase == .tripped;
    s.chip.calm = true ∧ (stopped = true ∨ ticks = 0) :=
  ⟨st full, 0, by decide +kernel⟩

theorem witness_TicksPassTimeIsSetSamplesStream_1b :
    ∃ (s : State) (ticks : Nat), let stopped := s.chip.boot.phase == .held || s.chip.boot.phase == .tripped;
    s.chip.calm = true ∧ (stopped = true ∨ ticks = 0) :=
  ⟨st { full with boot := { phase := .held } }, 9, by decide +kernel⟩

theorem witness_TicksPassTimeIsSetSamplesStream_1c :
    ∃ (s : State) (ticks : Nat), let stopped := s.chip.boot.phase == .held || s.chip.boot.phase == .tripped;
    s.chip.calm = true ∧ (stopped = true ∨ ticks = 0) :=
  ⟨st { full with boot := { phase := .tripped } }, 9, by decide +kernel⟩

theorem witness_TicksPassTimeIsSetSamplesStream_2 :
    ∃ (s : State) (ticks : Nat), let stopped := s.chip.boot.phase == .held || s.chip.boot.phase == .tripped;
    s.chip.calm = true ∧ stopped = false ∧ ticks ≠ 0 :=
  ⟨st { full with links := [(5, { rx := { xoff := 0x400001 } })] }, 5, by decide +kernel⟩

theorem witness_TicksPassTimeIsSetSamplesStream_3 :
    ∃ (s : State) (w : Writer), s.serving ∧ s.chip.mayWrite w (pnum 0x08 0x010 0) = true ∧ s.chip.tb.state = .root :=
  ⟨st { fdpChip with tb := { state := .root } }, .fdp 0, by decide +kernel⟩

theorem witness_TicksPassTimeIsSetSamplesStream_4 :
    ∃ (s : State) (w : Writer), s.serving ∧ s.chip.mayWrite w (pnum 0x08 0x010 0) = true ∧ s.chip.tb.state ≠ .root :=
  ⟨st fdpChip, .fdp 0, by decide +kernel⟩

theorem witness_TicksPassTimeIsSetSamplesStream_5a :
    ∃ (s : State), let period := (s.chip.param 0x31 0xF11 0, s.chip.streamPeriod);
    let fresh := s.chip.clusterUp 5 && s.chip.ctr.sampled != some period; s.serving ∧ fresh = false :=
  ⟨st { full with fw := { clusters := [(5, 1)] } }, by decide +kernel⟩

theorem witness_TicksPassTimeIsSetSamplesStream_5b :
    ∃ (s : State), let period := (s.chip.param 0x31 0xF11 0, s.chip.streamPeriod);
    let fresh := s.chip.clusterUp 5 && s.chip.ctr.sampled != some period; s.serving ∧ fresh = false :=
  ⟨st { full with dict := { active := [(pnum 0x31 0xF12 0, 1), (pnum 0x31 0xF11 0, 1000), (pnum 0x31 0xF10 0, 9223372037680005120)] }, ctr := { sampled := some (1000, 0) } },
    by decide +kernel⟩

theorem witness_TicksPassTimeIsSetSamplesStream_6 :
    ∃ (s : State), let period := (s.chip.param 0x31 0xF11 0, s.chip.streamPeriod);
    let fresh := s.chip.clusterUp 5 && s.chip.ctr.sampled != some period; let mode := s.chip.param 0x31 0xF12 0; s.serving ∧
    fresh = true ∧ mode ≠ 1 ∧ mode ≠ 2 :=
  ⟨st { full with dict := { active := [(pnum 0x31 0xF12 0, 0), (pnum 0x31 0xF11 0, 1000), (pnum 0x31 0xF10 0, 9223372037680005120)] } },
    by decide +kernel⟩

theorem witness_TicksPassTimeIsSetSamplesStream_7 :
    ∃ (s : State), let period := (s.chip.param 0x31 0xF11 0, s.chip.streamPeriod);
    let fresh := s.chip.clusterUp 5 && s.chip.ctr.sampled != some period; let mode := s.chip.param 0x31 0xF12 0; s.serving ∧
    fresh = true ∧ mode = 1 :=
  ⟨st { full with dict := { active := [(pnum 0x31 0xF12 0, 1), (pnum 0x31 0xF11 0, 1000), (pnum 0x31 0xF10 0, 9223372037680005120), (pnum 0x31 0xF10 3, 9223372037680005120)] }, fifos := [(9, { words := List.replicate 4 0 })] },
    by decide +kernel⟩

theorem witness_TicksPassTimeIsSetSamplesStream_8 :
    ∃ (s : State), let period := (s.chip.param 0x31 0xF11 0, s.chip.streamPeriod);
    let fresh := s.chip.clusterUp 5 && s.chip.ctr.sampled != some period; let mode := s.chip.param 0x31 0xF12 0; s.serving ∧
    fresh = true ∧ mode = 2 ∧ s.chip.traceHost = none :=
  ⟨st { full with dict := { active := [(pnum 0x31 0xF12 0, 2), (pnum 0x31 0xF11 0, 1000), (pnum 0x31 0xF10 0, 9223372037680005120)] } },
    by decide +kernel⟩

theorem witness_TicksPassTimeIsSetSamplesStream_9a :
    ∃ (s : State) (h : _), let period := (s.chip.param 0x31 0xF11 0, s.chip.streamPeriod);
    let fresh := s.chip.clusterUp 5 && s.chip.ctr.sampled != some period; let mode := s.chip.param 0x31 0xF12 0; s.serving ∧
    fresh = true ∧ mode = 2 ∧ s.chip.traceHost = some h :=
  ⟨st { full with dict := { active := [(pnum 0x31 0xF12 0, 2), (pnum 0x31 0xF11 0, 1000), (pnum 0x31 0xF10 0, 9223372037680005120), (pnum 0x20 0x004 0, 1)] } },
    0, by decide +kernel⟩

theorem witness_TicksPassTimeIsSetSamplesStream_9b :
    ∃ (s : State) (h : _), let period := (s.chip.param 0x31 0xF11 0, s.chip.streamPeriod);
    let fresh := s.chip.clusterUp 5 && s.chip.ctr.sampled != some period; let mode := s.chip.param 0x31 0xF12 0; s.serving ∧
    fresh = true ∧ mode = 2 ∧ s.chip.traceHost = some h :=
  ⟨st { full with dict := { active := [(pnum 0x31 0xF12 0, 2), (pnum 0x31 0xF11 0, 1000), (pnum 0x20 0x004 0, 1), (pnum 0x31 0xF15 0, 4), (pnum 0x31 0xF10 0, 9223372037680005120), (pnum 0x31 0xF10 1, 9223372037680005120), (pnum 0x31 0xF10 2, 9223372037680005120), (pnum 0x31 0xF10 3, 9223372037680005120), (pnum 0x31 0xF10 4, 9223372037680005120), (pnum 0x31 0xF10 5, 9223372037680005120), (pnum 0x31 0xF10 6, 9223372037680005120)] }, ctr := { ringPi := 15 } },
    0, by decide +kernel⟩


end Sys2Proof.Tests
end

