-- ==== Sys2Proof/Tests/WitnessTraining.lean ====
section
/-! SUPPORT. Witnesses: for each statement and each of its clauses, states and operands that meet the hypotheses. -/

namespace Sys2Proof.Tests

set_option Elab.async false

open Sys2Proof Sys2Proof.Machine

/-! LanesLockAndCount, clause by clause. -/

theorem witness_LanesLockAndCount_1a :
    ∃ (s : State) (n : Nat), let here := s.chip.hasLane n; let lane := s.chip.lane n; s.serving ∧
    (here = false ∨ lane.markerLock = false) :=
  ⟨st full, 130, by decide +kernel⟩

theorem witness_LanesLockAndCount_1b :
    ∃ (s : State) (n : Nat), let here := s.chip.hasLane n; let lane := s.chip.lane n; s.serving ∧
    (here = false ∨ lane.markerLock = false) :=
  ⟨st full, 10, by decide +kernel⟩

theorem witness_LanesLockAndCount_2a :
    ∃ (s : State) (n : Nat) (errors : _) (blocks : List LaneBlock) (fill : Int), let here := s.chip.hasLane n;
    let lane := s.chip.lane n; s.leaves (fun c => c.laneCodeword n errors blocks fill) ∧ here = true ∧
    lane.markerLock = true :=
  ⟨st { full with lanes := [(10, { markerLock := true }), (11, {  })], train := [(5, {  })] }, 10, 14, [{}], 21,
    by decide +kernel⟩

theorem witness_LanesLockAndCount_2b :
    ∃ (s : State) (n : Nat) (errors : _) (blocks : List LaneBlock) (fill : Int), let here := s.chip.hasLane n;
    let lane := s.chip.lane n; s.leaves (fun c => c.laneCodeword n errors blocks fill) ∧ here = true ∧
    lane.markerLock = true :=
  ⟨st { full with lanes := [(10, { markerLock := true }), (11, {  })], train := [(5, {  })] }, 10, 15, [{}], 16,
    by decide +kernel⟩

theorem witness_LanesLockAndCount_2c :
    ∃ (s : State) (n : Nat) (errors : _) (blocks : List LaneBlock) (fill : Int), let here := s.chip.hasLane n;
    let lane := s.chip.lane n; s.leaves (fun c => c.laneCodeword n errors blocks fill) ∧ here = true ∧
    lane.markerLock = true :=
  ⟨st { full with lanes := [(10, { markerLock := true }), (11, {  })], train := [(5, {  })] }, 10, 0, [{}], 33,
    by decide +kernel⟩

theorem witness_LanesLockAndCount_3a :
    ∃ (s : State) (n : Nat) (errors : _) (blocks : List LaneBlock) (fill : Int), let here := s.chip.hasLane n;
    let port := n / 2; let lane := s.chip.lane n; let t := s.chip.tport port;
    let read := readBlocks (!bitOf t.pmark (n % 2)) (decide (14 < errors)) lane.rxScramble blocks;
    let fits := elastic fill (read.1.any fun b => b.isType 0x2D);
    let taken := if fits.isNone then read.1.map fun b => { b with bad := true } else read.1; let miss := lane.misses taken;
    s.leaves (fun c => c.laneCodeword n errors blocks fill) ∧ here = true ∧ lane.markerLock = true ∧ miss < 3 :=
  ⟨st { full with lanes := [(10, { markerLock := true }), (11, {  })], train := [(5, {  })] }, 10, 14, [{}], 21,
    by decide +kernel⟩

theorem witness_LanesLockAndCount_3b :
    ∃ (s : State) (n : Nat) (errors : _) (blocks : List LaneBlock) (fill : Int), let here := s.chip.hasLane n;
    let port := n / 2; let lane := s.chip.lane n; let t := s.chip.tport port;
    let read := readBlocks (!bitOf t.pmark (n % 2)) (decide (14 < errors)) lane.rxScramble blocks;
    let fits := elastic fill (read.1.any fun b => b.isType 0x2D);
    let taken := if fits.isNone then read.1.map fun b => { b with bad := true } else read.1; let miss := lane.misses taken;
    s.leaves (fun c => c.laneCodeword n errors blocks fill) ∧ here = true ∧ lane.markerLock = true ∧ miss < 3 :=
  ⟨st { full with lanes := [(10, { markerLock := true }), (11, {  })], train := [(5, {  })] }, 10, 15, [{}], 11,
    by decide +kernel⟩

theorem witness_LanesLockAndCount_3c :
    ∃ (s : State) (n : Nat) (errors : _) (blocks : List LaneBlock) (fill : Int), let here := s.chip.hasLane n;
    let port := n / 2; let lane := s.chip.lane n; let t := s.chip.tport port;
    let read := readBlocks (!bitOf t.pmark (n % 2)) (decide (14 < errors)) lane.rxScramble blocks;
    let fits := elastic fill (read.1.any fun b => b.isType 0x2D);
    let taken := if fits.isNone then read.1.map fun b => { b with bad := true } else read.1; let miss := lane.misses taken;
    s.leaves (fun c => c.laneCodeword n errors blocks fill) ∧ here = true ∧ lane.markerLock = true ∧ miss < 3 :=
  ⟨st { full with lanes := [(10, { markerLock := true }), (11, {  })], train := [(5, {  })] }, 10, 0, [{}], 33,
    by decide +kernel⟩

theorem witness_LanesLockAndCount_4 :
    ∃ (s : State) (n : Nat) (errors : _) (blocks : List LaneBlock) (fill : Int), let here := s.chip.hasLane n;
    let port := n / 2; let lane := s.chip.lane n; let t := s.chip.tport port;
    let read := readBlocks (!bitOf t.pmark (n % 2)) (decide (14 < errors)) lane.rxScramble blocks;
    let fits := elastic fill (read.1.any fun b => b.isType 0x2D);
    let taken := if fits.isNone then read.1.map fun b => { b with bad := true } else read.1; let miss := lane.misses taken;
    let both := t.state == .active && t.lanes == 3; s.leaves (fun c => c.laneCodeword n errors blocks fill) ∧ here = true ∧
    lane.markerLock = true ∧ miss < 3 ∧ both = false ∧ lane.rxQueue = [] ∧ taken.filter PortBlock.goesOn ≠ [] :=
  ⟨st { full with lanes := [(10, { markerLock := true, rxSlot := 9 }), (11, {  })], train := [(5, {  })] }, 10, 0, [{}],
    16, by decide +kernel⟩

theorem witness_LanesLockAndCount_5 :
    ∃ (s : State) (n : Nat) (errors : _) (blocks : List LaneBlock) (fill : Int), let here := s.chip.hasLane n;
    let port := n / 2; let lane := s.chip.lane n; let t := s.chip.tport port;
    let read := readBlocks (!bitOf t.pmark (n % 2)) (decide (14 < errors)) lane.rxScramble blocks;
    let fits := elastic fill (read.1.any fun b => b.isType 0x2D);
    let taken := if fits.isNone then read.1.map fun b => { b with bad := true } else read.1; let miss := lane.misses taken;
    let both := t.state == .active && t.lanes == 3; s.leaves (fun c => c.laneCodeword n errors blocks fill) ∧ here = true ∧
    lane.markerLock = true ∧ miss < 3 ∧ both = true :=
  ⟨st { full with lanes := [(10, { blockLock := true, markerLock := true }), (11, { rxQueue := [(0, 0, {})] })], train := [(5, { state := .active, lanes := 3 })] },
    10, 0, [{}, {}], 16, by decide +kernel⟩

theorem witness_LanesLockAndCount_6a :
    ∃ (s : State) (n : Nat) (errors : _) (blocks : List LaneBlock) (fill : Int), let here := s.chip.hasLane n;
    let port := n / 2; let lane := s.chip.lane n; let t := s.chip.tport port;
    let read := readBlocks (!bitOf t.pmark (n % 2)) (decide (14 < errors)) lane.rxScramble blocks;
    let fits := elastic fill (read.1.any fun b => b.isType 0x2D);
    let taken := if fits.isNone then read.1.map fun b => { b with bad := true } else read.1; let miss := lane.misses taken;
    s.leaves (fun c => c.laneCodeword n errors blocks fill) ∧ here = true ∧ lane.markerLock = true ∧ 3 ≤ miss :=
  ⟨st { full with lanes := [(10, { markerMiss := 2, blockLock := true, markerLock := true }), (11, {  })], train := [(5, { state := .active, lanes := 1 })] },
    10, 0, [{}], 16, by decide +kernel⟩

theorem witness_LanesLockAndCount_6b :
    ∃ (s : State) (n : Nat) (errors : _) (blocks : List LaneBlock) (fill : Int), let here := s.chip.hasLane n;
    let port := n / 2; let lane := s.chip.lane n; let t := s.chip.tport port;
    let read := readBlocks (!bitOf t.pmark (n % 2)) (decide (14 < errors)) lane.rxScramble blocks;
    let fits := elastic fill (read.1.any fun b => b.isType 0x2D);
    let taken := if fits.isNone then read.1.map fun b => { b with bad := true } else read.1; let miss := lane.misses taken;
    s.leaves (fun c => c.laneCodeword n errors blocks fill) ∧ here = true ∧ lane.markerLock = true ∧ 3 ≤ miss :=
  ⟨st { full with lanes := [(10, { markerMiss := 2, blockLock := true, markerLock := true }), (11, {  })], train := [(5, {  })] },
    10, 0, [{}], 16, by decide +kernel⟩

theorem witness_LanesLockAndCount_7 :
    ∃ (s : State) (n : Nat), let here := s.chip.hasLane n; s.serving ∧ here = false :=
  ⟨st full, 130, by decide +kernel⟩

theorem witness_LanesLockAndCount_8 :
    ∃ (s : State) (n : Nat) (headers : List Bool), let here := s.chip.hasLane n; let port := n / 2;
    let lane := s.chip.lane n; let t := s.chip.tport port;
    let next := headers.foldl (Lane.testHeader (s.chip.param 0x18 0x025 n == 1)) lane;
    let enters := !lane.blockLock && next.blockLock && t.state == .detect && t.waiting && s.chip.fabUp;
    s.leaves (fun c => c.blockLock n headers) ∧ here = true ∧ enters = true :=
  ⟨st { full with lanes := [(10, { runHeaders := 63 }), (11, {  })], train := [(5, { state := .detect, waiting := true })] },
    10, [true], by decide +kernel⟩

theorem witness_LanesLockAndCount_9 :
    ∃ (s : State) (n : Nat) (headers : List Bool), let here := s.chip.hasLane n; let port := n / 2;
    let lane := s.chip.lane n; let t := s.chip.tport port;
    let uses := bitOf t.lanes (n % 2) && (t.state == .equalise || t.state == .capabilities || t.state == .held || t.state == .active);
    let next := headers.foldl (Lane.testHeader (s.chip.param 0x18 0x025 n == 1)) lane;
    let enters := !lane.blockLock && next.blockLock && t.state == .detect && t.waiting && s.chip.fabUp;
    let loses := lane.locked && !next.locked; s.leaves (fun c => c.blockLock n headers) ∧ here = true ∧ enters = false ∧
    loses = true ∧ uses = true :=
  ⟨st { full with lanes := [(10, { blockLock := true, markerLock := true, headers := List.replicate 15 false }), (11, {  })], train := [(5, { state := .active, lanes := 1 })] },
    10, [false], by decide +kernel⟩

theorem witness_LanesLockAndCount_10 :
    ∃ (s : State) (n : Nat) (headers : List Bool), let here := s.chip.hasLane n; let port := n / 2;
    let lane := s.chip.lane n; let t := s.chip.tport port;
    let uses := bitOf t.lanes (n % 2) && (t.state == .equalise || t.state == .capabilities || t.state == .held || t.state == .active);
    let next := headers.foldl (Lane.testHeader (s.chip.param 0x18 0x025 n == 1)) lane;
    let enters := !lane.blockLock && next.blockLock && t.state == .detect && t.waiting && s.chip.fabUp;
    let loses := lane.locked && !next.locked; s.leaves (fun c => c.blockLock n headers) ∧ here = true ∧ enters = false ∧
    loses = true ∧ uses = false :=
  ⟨st { full with lanes := [(10, { blockLock := true, markerLock := true, headers := List.replicate 15 false }), (11, {  })], train := [(5, {  })] },
    10, [false], by decide +kernel⟩

theorem witness_LanesLockAndCount_11a :
    ∃ (s : State) (n : Nat) (headers : List Bool), let here := s.chip.hasLane n; let port := n / 2;
    let lane := s.chip.lane n; let t := s.chip.tport port;
    let sits := !s.chip.fabUp || t.state == .disabled || t.state == .detect || t.state == .capabilities || t.state == .held;
    let next := headers.foldl (Lane.testHeader (s.chip.param 0x18 0x025 n == 1)) lane;
    let enters := !lane.blockLock && next.blockLock && t.state == .detect && t.waiting && s.chip.fabUp;
    let loses := lane.locked && !next.locked; s.leaves (fun c => c.blockLock n headers) ∧ here = true ∧ enters = false ∧
    loses = false ∧ sits = true :=
  ⟨st { full with lanes := [(10, { runHeaders := 62 }), (11, {  })], train := [(5, {  })] }, 10, [true, true],
    by decide +kernel⟩

theorem witness_LanesLockAndCount_11b :
    ∃ (s : State) (n : Nat) (headers : List Bool), let here := s.chip.hasLane n; let port := n / 2;
    let lane := s.chip.lane n; let t := s.chip.tport port;
    let sits := !s.chip.fabUp || t.state == .disabled || t.state == .detect || t.state == .capabilities || t.state == .held;
    let next := headers.foldl (Lane.testHeader (s.chip.param 0x18 0x025 n == 1)) lane;
    let enters := !lane.blockLock && next.blockLock && t.state == .detect && t.waiting && s.chip.fabUp;
    let loses := lane.locked && !next.locked; s.leaves (fun c => c.blockLock n headers) ∧ here = true ∧ enters = false ∧
    loses = false ∧ sits = true :=
  ⟨st { full with lanes := [(10, { phase := 5439 }), (11, {  })], train := [(5, {  })] }, 10, [false], by decide +kernel⟩

theorem witness_LanesLockAndCount_11c :
    ∃ (s : State) (n : Nat) (headers : List Bool), let here := s.chip.hasLane n; let port := n / 2;
    let lane := s.chip.lane n; let t := s.chip.tport port;
    let sits := !s.chip.fabUp || t.state == .disabled || t.state == .detect || t.state == .capabilities || t.state == .held;
    let next := headers.foldl (Lane.testHeader (s.chip.param 0x18 0x025 n == 1)) lane;
    let enters := !lane.blockLock && next.blockLock && t.state == .detect && t.waiting && s.chip.fabUp;
    let loses := lane.locked && !next.locked; s.leaves (fun c => c.blockLock n headers) ∧ here = true ∧ enters = false ∧
    loses = false ∧ sits = true :=
  ⟨st { full with lanes := [(10, { phase := 5439 }), (11, {  })], train := [(5, {  })], dict := { active := [(pnum 0x18 0x025 10, 1)] } },
    10, [false], by decide +kernel⟩

theorem witness_LanesLockAndCount_12a :
    ∃ (s : State) (n : Nat) (headers : List Bool), let here := s.chip.hasLane n; let port := n / 2;
    let lane := s.chip.lane n; let t := s.chip.tport port;
    let sits := !s.chip.fabUp || t.state == .disabled || t.state == .detect || t.state == .capabilities || t.state == .held;
    let next := headers.foldl (Lane.testHeader (s.chip.param 0x18 0x025 n == 1)) lane;
    let enters := !lane.blockLock && next.blockLock && t.state == .detect && t.waiting && s.chip.fabUp;
    let loses := lane.locked && !next.locked; s.leaves (fun c => c.blockLock n headers) ∧ here = true ∧ enters = false ∧
    loses = false ∧ sits = false ∧ t.state = .pattern :=
  ⟨st { full with lanes := [(10, { runHeaders := 63 }), (11, {  })], train := [(5, { state := .pattern, found := 1, pmark := 1 })] },
    10, [true], by decide +kernel⟩

theorem witness_LanesLockAndCount_12b :
    ∃ (s : State) (n : Nat) (headers : List Bool), let here := s.chip.hasLane n; let port := n / 2;
    let lane := s.chip.lane n; let t := s.chip.tport port;
    let sits := !s.chip.fabUp || t.state == .disabled || t.state == .detect || t.state == .capabilities || t.state == .held;
    let next := headers.foldl (Lane.testHeader (s.chip.param 0x18 0x025 n == 1)) lane;
    let enters := !lane.blockLock && next.blockLock && t.state == .detect && t.waiting && s.chip.fabUp;
    let loses := lane.locked && !next.locked; s.leaves (fun c => c.blockLock n headers) ∧ here = true ∧ enters = false ∧
    loses = false ∧ sits = false ∧ t.state = .pattern :=
  ⟨st { full with lanes := [(10, { runHeaders := 63 }), (11, {  })], train := [(5, { state := .pattern, found := 3, pmark := 3 })] },
    10, [true], by decide +kernel⟩

theorem witness_LanesLockAndCount_13 :
    ∃ (s : State) (n : Nat) (headers : List Bool), let here := s.chip.hasLane n; let port := n / 2;
    let lane := s.chip.lane n; let t := s.chip.tport port;
    let sits := !s.chip.fabUp || t.state == .disabled || t.state == .detect || t.state == .capabilities || t.state == .held;
    let next := headers.foldl (Lane.testHeader (s.chip.param 0x18 0x025 n == 1)) lane;
    let enters := !lane.blockLock && next.blockLock && t.state == .detect && t.waiting && s.chip.fabUp;
    let loses := lane.locked && !next.locked; s.leaves (fun c => c.blockLock n headers) ∧ here = true ∧ enters = false ∧
    loses = false ∧ sits = false ∧ t.state ≠ .pattern :=
  ⟨st { full with lanes := [(10, { runHeaders := 3 }), (11, {  })], train := [(5, { state := .lock, found := 3, lockedRx := 3, widths := 3, peerWidths := 3 })] },
    10, [true], by decide +kernel⟩

theorem witness_LanesLockAndCount_14a :
    ∃ (s : State) (n : Nat) (m : MarkerInfo), let here := s.chip.hasLane n; let lane := s.chip.lane n;
    let other := otherLane n;
    let may := here && lane.blockLock && !((s.chip.lane other).markerLock && decide (80000 < m.skew)) && (lane.rate != 2 || lane.precode == m.precoded);
    s.serving ∧ may = false :=
  ⟨st full, 130, ({} : MarkerInfo), by decide +kernel⟩

theorem witness_LanesLockAndCount_14b :
    ∃ (s : State) (n : Nat) (m : MarkerInfo), let here := s.chip.hasLane n; let lane := s.chip.lane n;
    let other := otherLane n;
    let may := here && lane.blockLock && !((s.chip.lane other).markerLock && decide (80000 < m.skew)) && (lane.rate != 2 || lane.precode == m.precoded);
    s.serving ∧ may = false :=
  ⟨st full, 10, ({} : MarkerInfo), by decide +kernel⟩

theorem witness_LanesLockAndCount_14c :
    ∃ (s : State) (n : Nat) (m : MarkerInfo), let here := s.chip.hasLane n; let lane := s.chip.lane n;
    let other := otherLane n;
    let may := here && lane.blockLock && !((s.chip.lane other).markerLock && decide (80000 < m.skew)) && (lane.rate != 2 || lane.precode == m.precoded);
    s.serving ∧ may = false :=
  ⟨st { full with lanes := [(10, { blockLock := true }), (11, { blockLock := true, markerLock := true })], train := [(5, {  })] },
    10, { skew := 80001 }, by decide +kernel⟩

theorem witness_LanesLockAndCount_14d :
    ∃ (s : State) (n : Nat) (m : MarkerInfo), let here := s.chip.hasLane n; let lane := s.chip.lane n;
    let other := otherLane n;
    let may := here && lane.blockLock && !((s.chip.lane other).markerLock && decide (80000 < m.skew)) && (lane.rate != 2 || lane.precode == m.precoded);
    s.serving ∧ may = false :=
  ⟨st { full with lanes := [(10, { blockLock := true, rate := 2 }), (11, {  })], train := [(5, {  })] }, 10,
    { precoded := true }, by decide +kernel⟩

theorem witness_LanesLockAndCount_15a :
    ∃ (s : State) (n : Nat) (m : MarkerInfo), let here := s.chip.hasLane n; let port := n / 2; let lane := s.chip.lane n;
    let t := s.chip.tport port;
    let sits := !s.chip.fabUp || t.state == .disabled || t.state == .detect || t.state == .capabilities || t.state == .held;
    let other := otherLane n;
    let may := here && lane.blockLock && !((s.chip.lane other).markerLock && decide (80000 < m.skew)) && (lane.rate != 2 || lane.precode == m.precoded);
    s.serving ∧ may = true ∧ sits = true :=
  ⟨st { full with lanes := [(10, { blockLock := true }), (11, { blockLock := true, markerLock := true })], train := [(5, {  })] },
    10, { skew := 80000, pcount := 5, lpos := 1, tail := 9 }, by decide +kernel⟩

theorem witness_LanesLockAndCount_15b :
    ∃ (s : State) (n : Nat) (m : MarkerInfo), let here := s.chip.hasLane n; let port := n / 2; let lane := s.chip.lane n;
    let t := s.chip.tport port;
    let sits := !s.chip.fabUp || t.state == .disabled || t.state == .detect || t.state == .capabilities || t.state == .held;
    let other := otherLane n;
    let may := here && lane.blockLock && !((s.chip.lane other).markerLock && decide (80000 < m.skew)) && (lane.rate != 2 || lane.precode == m.precoded);
    s.serving ∧ may = true ∧ sits = true :=
  ⟨st { full with lanes := [(10, { blockLock := true }), (11, {  })], train := [(5, { state := .detect })] }, 10,
    ({} : MarkerInfo), by decide +kernel⟩

theorem witness_LanesLockAndCount_16a :
    ∃ (s : State) (n : Nat) (m : MarkerInfo), let here := s.chip.hasLane n; let port := n / 2; let lane := s.chip.lane n;
    let t := s.chip.tport port;
    let sits := !s.chip.fabUp || t.state == .disabled || t.state == .detect || t.state == .capabilities || t.state == .held;
    let other := otherLane n;
    let may := here && lane.blockLock && !((s.chip.lane other).markerLock && decide (80000 < m.skew)) && (lane.rate != 2 || lane.precode == m.precoded);
    s.serving ∧ may = true ∧ sits = false ∧ t.state = .pattern :=
  ⟨st { full with lanes := [(10, { blockLock := true }), (11, {  })], train := [(5, { state := .pattern, found := 1, pmark := 1 })] },
    10, ({} : MarkerInfo), by decide +kernel⟩

theorem witness_LanesLockAndCount_16b :
    ∃ (s : State) (n : Nat) (m : MarkerInfo), let here := s.chip.hasLane n; let port := n / 2; let lane := s.chip.lane n;
    let t := s.chip.tport port;
    let sits := !s.chip.fabUp || t.state == .disabled || t.state == .detect || t.state == .capabilities || t.state == .held;
    let other := otherLane n;
    let may := here && lane.blockLock && !((s.chip.lane other).markerLock && decide (80000 < m.skew)) && (lane.rate != 2 || lane.precode == m.precoded);
    s.serving ∧ may = true ∧ sits = false ∧ t.state = .pattern :=
  ⟨st { full with lanes := [(10, { blockLock := true }), (11, {  })], train := [(5, { state := .pattern, found := 1 })] },
    10, ({} : MarkerInfo), by decide +kernel⟩

theorem witness_LanesLockAndCount_17 :
    ∃ (s : State) (n : Nat) (m : MarkerInfo), let here := s.chip.hasLane n; let port := n / 2; let lane := s.chip.lane n;
    let t := s.chip.tport port;
    let sits := !s.chip.fabUp || t.state == .disabled || t.state == .detect || t.state == .capabilities || t.state == .held;
    let gains : Lane := { lane with markerLock := true, markerMiss := 0, rxSlot := 4, rxPcount := m.pcount, rxLpos := m.lpos % 2, rxScramble := m.tail.toNat, rxQueue := [] };
    let other := otherLane n;
    let may := here && lane.blockLock && !((s.chip.lane other).markerLock && decide (80000 < m.skew)) && (lane.rate != 2 || lane.precode == m.precoded);
    let u := (s.chip.updLane n fun _ => gains).updLane other fun x => { x with rxQueue := [] }; s.serving ∧ may = true ∧
    sits = false ∧ t.state = .lock ∧ t.switched = false ∧ u.chosenLanes port = none :=
  ⟨st { full with lanes := [(10, { blockLock := true }), (11, {  })], train := [(5, { state := .lock, found := 3, lockedRx := 3, widths := 3, peerWidths := 3 })] },
    10, ({} : MarkerInfo), by decide +kernel⟩

theorem witness_LanesLockAndCount_18 :
    ∃ (s : State) (n : Nat) (m : MarkerInfo) (l : _), let here := s.chip.hasLane n; let port := n / 2;
    let lane := s.chip.lane n; let t := s.chip.tport port;
    let sits := !s.chip.fabUp || t.state == .disabled || t.state == .detect || t.state == .capabilities || t.state == .held;
    let gains : Lane := { lane with markerLock := true, markerMiss := 0, rxSlot := 4, rxPcount := m.pcount, rxLpos := m.lpos % 2, rxScramble := m.tail.toNat, rxQueue := [] };
    let other := otherLane n;
    let may := here && lane.blockLock && !((s.chip.lane other).markerLock && decide (80000 < m.skew)) && (lane.rate != 2 || lane.precode == m.precoded);
    let u := (s.chip.updLane n fun _ => gains).updLane other fun x => { x with rxQueue := [] }; s.serving ∧ may = true ∧
    sits = false ∧ t.state = .lock ∧ t.switched = false ∧ u.chosenLanes port = some l ∧ u.agreedRate port = 0 :=
  ⟨st { full with lanes := [(10, { blockLock := true }), (11, { blockLock := true, markerLock := true })], train := [(5, { state := .lock, found := 3, lockedRx := 3, widths := 3, peerWidths := 3 })] },
    10, ({} : MarkerInfo), 3, by decide +kernel⟩

theorem witness_LanesLockAndCount_19 :
    ∃ (s : State) (n : Nat) (m : MarkerInfo) (l : _), let here := s.chip.hasLane n; let port := n / 2;
    let lane := s.chip.lane n; let t := s.chip.tport port;
    let sits := !s.chip.fabUp || t.state == .disabled || t.state == .detect || t.state == .capabilities || t.state == .held;
    let gains : Lane := { lane with markerLock := true, markerMiss := 0, rxSlot := 4, rxPcount := m.pcount, rxLpos := m.lpos % 2, rxScramble := m.tail.toNat, rxQueue := [] };
    let other := otherLane n;
    let may := here && lane.blockLock && !((s.chip.lane other).markerLock && decide (80000 < m.skew)) && (lane.rate != 2 || lane.precode == m.precoded);
    let u := (s.chip.updLane n fun _ => gains).updLane other fun x => { x with rxQueue := [] }; s.serving ∧ may = true ∧
    sits = false ∧ t.state = .lock ∧ t.switched = false ∧ u.chosenLanes port = some l ∧ u.agreedRate port ≠ 0 :=
  ⟨st { full with lanes := [(10, { blockLock := true }), (11, { blockLock := true, markerLock := true })], train := [(5, { state := .lock, found := 3, lockedRx := 3, widths := 3, peerWidths := 3, rates := 7, peerRates := 3, target := 2, peerTarget := 2 })] },
    10, ({} : MarkerInfo), 3, by decide +kernel⟩

theorem witness_LanesLockAndCount_20a :
    ∃ (s : State) (n : Nat) (m : MarkerInfo), let here := s.chip.hasLane n; let port := n / 2; let lane := s.chip.lane n;
    let t := s.chip.tport port;
    let sits := !s.chip.fabUp || t.state == .disabled || t.state == .detect || t.state == .capabilities || t.state == .held;
    let other := otherLane n;
    let may := here && lane.blockLock && !((s.chip.lane other).markerLock && decide (80000 < m.skew)) && (lane.rate != 2 || lane.precode == m.precoded);
    s.serving ∧ may = true ∧ sits = false ∧ t.state = .lock ∧ t.switched = true :=
  ⟨st { full with lanes := [(10, { blockLock := true }), (11, {  })], train := [(5, { state := .lock, found := 3, lockedRx := 3, widths := 3, peerWidths := 3, switched := true, lanes := 1 })] },
    10, ({} : MarkerInfo), by decide +kernel⟩

theorem witness_LanesLockAndCount_20b :
    ∃ (s : State) (n : Nat) (m : MarkerInfo), let here := s.chip.hasLane n; let port := n / 2; let lane := s.chip.lane n;
    let t := s.chip.tport port;
    let sits := !s.chip.fabUp || t.state == .disabled || t.state == .detect || t.state == .capabilities || t.state == .held;
    let other := otherLane n;
    let may := here && lane.blockLock && !((s.chip.lane other).markerLock && decide (80000 < m.skew)) && (lane.rate != 2 || lane.precode == m.precoded);
    s.serving ∧ may = true ∧ sits = false ∧ t.state = .lock ∧ t.switched = true :=
  ⟨st { full with lanes := [(10, { blockLock := true }), (11, {  })], train := [(5, { state := .lock, found := 3, lockedRx := 3, widths := 3, peerWidths := 3, switched := true, lanes := 3 })] },
    10, ({} : MarkerInfo), by decide +kernel⟩

theorem witness_LanesLockAndCount_21a :
    ∃ (s : State) (n : Nat) (m : MarkerInfo), let here := s.chip.hasLane n; let port := n / 2; let lane := s.chip.lane n;
    let t := s.chip.tport port;
    let sits := !s.chip.fabUp || t.state == .disabled || t.state == .detect || t.state == .capabilities || t.state == .held;
    let other := otherLane n;
    let may := here && lane.blockLock && !((s.chip.lane other).markerLock && decide (80000 < m.skew)) && (lane.rate != 2 || lane.precode == m.precoded);
    s.serving ∧ may = true ∧ sits = false ∧ (t.state = .equalise ∨ t.state = .active) :=
  ⟨st { full with lanes := [(10, { blockLock := true }), (11, {  })], train := [(5, { state := .equalise, lanes := 3 })] },
    10, ({} : MarkerInfo), by decide +kernel⟩

theorem witness_LanesLockAndCount_21b :
    ∃ (s : State) (n : Nat) (m : MarkerInfo), let here := s.chip.hasLane n; let port := n / 2; let lane := s.chip.lane n;
    let t := s.chip.tport port;
    let sits := !s.chip.fabUp || t.state == .disabled || t.state == .detect || t.state == .capabilities || t.state == .held;
    let other := otherLane n;
    let may := here && lane.blockLock && !((s.chip.lane other).markerLock && decide (80000 < m.skew)) && (lane.rate != 2 || lane.precode == m.precoded);
    s.serving ∧ may = true ∧ sits = false ∧ (t.state = .equalise ∨ t.state = .active) :=
  ⟨st { full with lanes := [(10, { blockLock := true }), (11, {  })], train := [(5, { state := .active, lanes := 1 })] },
    10, ({} : MarkerInfo), by decide +kernel⟩

theorem witness_LanesLockAndCount_22 :
    ∃ (s : State) (n : Nat), let here := s.chip.hasLane n; s.serving ∧ here = false :=
  ⟨st full, 130, by decide +kernel⟩

theorem witness_LanesLockAndCount_23a :
    ∃ (s : State) (n : Nat), let here := s.chip.hasLane n; let port := n / 2; let lane := s.chip.lane n;
    let t := s.chip.tport port;
    let uses := bitOf t.lanes (n % 2) && (t.state == .equalise || t.state == .capabilities || t.state == .held || t.state == .active);
    s.serving ∧ here = true ∧ (lane.locked && uses) = false :=
  ⟨st { full with lanes := [(10, { blockLock := true, markerLock := true }), (11, {  })], train := [(5, {  })] }, 10,
    by decide +kernel⟩

theorem witness_LanesLockAndCount_23b :
    ∃ (s : State) (n : Nat), let here := s.chip.hasLane n; let port := n / 2; let lane := s.chip.lane n;
    let t := s.chip.tport port;
    let uses := bitOf t.lanes (n % 2) && (t.state == .equalise || t.state == .capabilities || t.state == .held || t.state == .active);
    s.serving ∧ here = true ∧ (lane.locked && uses) = false :=
  ⟨st { full with lanes := [(10, { blockLock := true, markerLock := true }), (11, {  })], train := [(5, {  })] }, 10,
    by decide +kernel⟩

theorem witness_LanesLockAndCount_23c :
    ∃ (s : State) (n : Nat), let here := s.chip.hasLane n; let port := n / 2; let lane := s.chip.lane n;
    let t := s.chip.tport port;
    let uses := bitOf t.lanes (n % 2) && (t.state == .equalise || t.state == .capabilities || t.state == .held || t.state == .active);
    s.serving ∧ here = true ∧ (lane.locked && uses) = false :=
  ⟨st { full with lanes := [(10, { blockLock := true, markerLock := true }), (11, {  })], train := [(5, {  })] }, 10,
    by decide +kernel⟩

theorem witness_LanesLockAndCount_24a :
    ∃ (s : State) (n : Nat) (k : LockKind), let here := s.chip.hasLane n; let port := n / 2; let lane := s.chip.lane n;
    let t := s.chip.tport port;
    let uses := bitOf t.lanes (n % 2) && (t.state == .equalise || t.state == .capabilities || t.state == .held || t.state == .active);
    s.leaves (fun c => c.lockLoss n k) ∧ here = true ∧ (lane.locked && uses) = true :=
  ⟨st { full with lanes := [(10, { blockLock := true, markerLock := true }), (11, {  })], train := [(5, { state := .active, lanes := 1 })] },
    10, .block, by decide +kernel⟩

theorem witness_LanesLockAndCount_24b :
    ∃ (s : State) (n : Nat) (k : LockKind), let here := s.chip.hasLane n; let port := n / 2; let lane := s.chip.lane n;
    let t := s.chip.tport port;
    let uses := bitOf t.lanes (n % 2) && (t.state == .equalise || t.state == .capabilities || t.state == .held || t.state == .active);
    s.leaves (fun c => c.lockLoss n k) ∧ here = true ∧ (lane.locked && uses) = true :=
  ⟨st { full with lanes := [(10, { blockLock := true, markerLock := true }), (11, {  })], train := [(5, { state := .equalise, lanes := 3, attempts := 255 })] },
    10, .marker, by decide +kernel⟩

theorem witness_LanesLockAndCount_25 :
    ∃ (s : State) (n : Nat) (w : _) (k : _), let manual := s.chip.param 0x18 0x025 n == 1;
    s.chip.mayWrite w (pnum 0x18 0x026 n) = true ∧ n < 120 ∧ s.serving ∧ 1 ≤ k ∧ k < 5440 ∧ manual = true :=
  ⟨st { full with lanes := [(10, { phase := 5439, runHeaders := 7 }), (11, {  })], train := [(5, {  })], dict := { active := [(pnum 0x18 0x025 10, 1)] } },
    10, .mctp, 5439, by decide +kernel⟩

theorem witness_LanesLockAndCount_26a :
    ∃ (s : State) (n : Nat) (w : _) (k : _), let manual := s.chip.param 0x18 0x025 n == 1;
    s.chip.mayWrite w (pnum 0x18 0x026 n) = true ∧ n < 120 ∧ s.serving ∧ k < 65536 ∧ (k = 0 ∨ 5440 ≤ k ∨ manual = false) :=
  ⟨st { full with lanes := [(10, { phase := 5439 }), (11, {  })], train := [(5, {  })], dict := { active := [(pnum 0x18 0x025 10, 1)] } },
    10, .mctp, 5440, by decide +kernel⟩

theorem witness_LanesLockAndCount_26b :
    ∃ (s : State) (n : Nat) (w : _) (k : _), let manual := s.chip.param 0x18 0x025 n == 1;
    s.chip.mayWrite w (pnum 0x18 0x026 n) = true ∧ n < 120 ∧ s.serving ∧ k < 65536 ∧ (k = 0 ∨ 5440 ≤ k ∨ manual = false) :=
  ⟨st { full with lanes := [(10, { phase := 5439 }), (11, {  })], train := [(5, {  })], dict := { active := [(pnum 0x18 0x025 10, 1)] } },
    10, .mctp, 0, by decide +kernel⟩

theorem witness_LanesLockAndCount_26c :
    ∃ (s : State) (n : Nat) (w : _) (k : _), let manual := s.chip.param 0x18 0x025 n == 1;
    s.chip.mayWrite w (pnum 0x18 0x026 n) = true ∧ n < 120 ∧ s.serving ∧ k < 65536 ∧ (k = 0 ∨ 5440 ≤ k ∨ manual = false) :=
  ⟨st full, 10, .mctp, 5, by decide +kernel⟩

theorem witness_LanesLockAndCount_27 :
    ∃ (s : State) (n : Nat), let checks := s.chip.checking n; s.serving ∧ checks = false :=
  ⟨st full, 10, by decide +kernel⟩

theorem witness_LanesLockAndCount_28 :
    ∃ (s : State) (n : Nat), let lane := s.chip.lane n; let checks := s.chip.checking n; s.serving ∧ checks = true ∧
    lane.chkSync = true :=
  ⟨st { full with lanes := [(10, { chkSync := true }), (11, {  })], train := [(5, {  })], dict := { active := [(pnum 0x18 0x022 10, 0x80000000)] } },
    10, by decide +kernel⟩

theorem witness_LanesLockAndCount_29 :
    ∃ (s : State) (n : Nat) (bits : _), let lane := s.chip.lane n; let checks := s.chip.checking n; s.serving ∧
    checks = true ∧ lane.chkSync = false ∧ lane.chkRun + bits < 1024 :=
  ⟨st { full with lanes := [(10, { chkRun := 1000 }), (11, {  })], train := [(5, {  })], dict := { active := [(pnum 0x18 0x022 10, 0x80000000)] } },
    10, 23, by decide +kernel⟩

theorem witness_LanesLockAndCount_30 :
    ∃ (s : State) (n : Nat) (bits : _), let lane := s.chip.lane n; let checks := s.chip.checking n; s.serving ∧
    checks = true ∧ lane.chkSync = false ∧ 1024 ≤ lane.chkRun + bits :=
  ⟨st { full with lanes := [(10, { chkRun := 1023 }), (11, {  })], train := [(5, {  })], dict := { active := [(pnum 0x18 0x022 10, 0x80000000)] } },
    10, 1, by decide +kernel⟩

theorem witness_LanesLockAndCount_31 :
    ∃ (s : State) (n : Nat), let checks := s.chip.checking n; s.serving ∧ checks = false :=
  ⟨st full, 10, by decide +kernel⟩

theorem witness_LanesLockAndCount_32a :
    ∃ (s : State) (errors : _), s.serving ∧ errors = 0 :=
  ⟨st { full with lanes := [(10, { chkRun := 1023 }), (11, {  })], train := [(5, {  })], dict := { active := [(pnum 0x18 0x022 10, 0x80000000)] } },
    0, by decide +kernel⟩

theorem witness_LanesLockAndCount_32b :
    ∃ (s : State) (errors : _), s.serving ∧ errors = 0 :=
  ⟨st full, 0, by decide +kernel⟩

theorem witness_LanesLockAndCount_33 :
    ∃ (s : State) (n : Nat) (errors : _), let lane := s.chip.lane n; let checks := s.chip.checking n; s.serving ∧
    checks = true ∧ errors ≠ 0 ∧ lane.chkSync = false :=
  ⟨st { full with lanes := [(10, { chkRun := 1023 }), (11, {  })], train := [(5, {  })], dict := { active := [(pnum 0x18 0x022 10, 0x80000000)] } },
    10, 1, by decide +kernel⟩

theorem witness_LanesLockAndCount_34a :
    ∃ (s : State) (n : Nat) (bits : _) (errors : _), let lane := s.chip.lane n; let checks := s.chip.checking n;
    let sure := decide (256 < recentErrors 4096 ((bits, errors) :: lane.chkRecent)) || (decide (4096 < bits) && decide (256 * divUp bits 4096 < errors));
    s.serving ∧ checks = true ∧ errors ≠ 0 ∧ lane.chkSync = true ∧ sure = true :=
  ⟨st { full with lanes := [(10, { chkSync := true }), (11, {  })], train := [(5, {  })], dict := { active := [(pnum 0x18 0x022 10, 0x80000000)] } },
    10, 4096, 257, by decide +kernel⟩

theorem witness_LanesLockAndCount_34b :
    ∃ (s : State) (n : Nat) (bits : _) (errors : _), let lane := s.chip.lane n; let checks := s.chip.checking n;
    let sure := decide (256 < recentErrors 4096 ((bits, errors) :: lane.chkRecent)) || (decide (4096 < bits) && decide (256 * divUp bits 4096 < errors));
    s.serving ∧ checks = true ∧ errors ≠ 0 ∧ lane.chkSync = true ∧ sure = true :=
  ⟨st { full with lanes := [(10, { chkSync := true, chkRecent := [(4000, 256)] }), (11, {  })], train := [(5, {  })], dict := { active := [(pnum 0x18 0x022 10, 0x80000000)] } },
    10, 96, 1, by decide +kernel⟩

theorem witness_LanesLockAndCount_34c :
    ∃ (s : State) (n : Nat) (bits : _) (errors : _), let lane := s.chip.lane n; let checks := s.chip.checking n;
    let sure := decide (256 < recentErrors 4096 ((bits, errors) :: lane.chkRecent)) || (decide (4096 < bits) && decide (256 * divUp bits 4096 < errors));
    s.serving ∧ checks = true ∧ errors ≠ 0 ∧ lane.chkSync = true ∧ sure = true :=
  ⟨st { full with lanes := [(10, { chkSync := true }), (11, {  })], train := [(5, {  })], dict := { active := [(pnum 0x18 0x022 10, 0x80000000)] } },
    10, 8192, 513, by decide +kernel⟩

theorem witness_LanesLockAndCount_35a :
    ∃ (s : State) (n : Nat) (bits : _) (errors : _), let lane := s.chip.lane n; let checks := s.chip.checking n;
    let sure := decide (256 < recentErrors 4096 ((bits, errors) :: lane.chkRecent)) || (decide (4096 < bits) && decide (256 * divUp bits 4096 < errors));
    let free := decide (4096 < bits) && decide (256 < errors) && !sure; s.serving ∧ checks = true ∧ errors ≠ 0 ∧
    lane.chkSync = true ∧ sure = false ∧ free = false :=
  ⟨st { full with lanes := [(10, { chkSync := true }), (11, {  })], train := [(5, {  })], dict := { active := [(pnum 0x18 0x022 10, 0x80000000)] } },
    10, 4096, 256, by decide +kernel⟩

theorem witness_LanesLockAndCount_35b :
    ∃ (s : State) (n : Nat) (bits : _) (errors : _), let lane := s.chip.lane n; let checks := s.chip.checking n;
    let sure := decide (256 < recentErrors 4096 ((bits, errors) :: lane.chkRecent)) || (decide (4096 < bits) && decide (256 * divUp bits 4096 < errors));
    let free := decide (4096 < bits) && decide (256 < errors) && !sure; s.serving ∧ checks = true ∧ errors ≠ 0 ∧
    lane.chkSync = true ∧ sure = false ∧ free = false :=
  ⟨st { full with lanes := [(10, { chkSync := true, chkRecent := [(4000, 256)] }), (11, {  })], train := [(5, {  })], dict := { active := [(pnum 0x18 0x022 10, 0x80000000)] } },
    10, 97, 1, by decide +kernel⟩

theorem witness_LanesLockAndCount_36 :
    ∃ (s : State) (n : Nat) (bits : _) (errors : _), let lane := s.chip.lane n; let checks := s.chip.checking n;
    let sure := decide (256 < recentErrors 4096 ((bits, errors) :: lane.chkRecent)) || (decide (4096 < bits) && decide (256 * divUp bits 4096 < errors));
    let free := decide (4096 < bits) && decide (256 < errors) && !sure; s.serving ∧ checks = true ∧ errors ≠ 0 ∧
    lane.chkSync = true ∧ free = true :=
  ⟨st { full with lanes := [(10, { chkSync := true }), (11, {  })], train := [(5, {  })], dict := { active := [(pnum 0x18 0x022 10, 0x80000000)] } },
    10, 8192, 512, by decide +kernel⟩

/-! PortsTrainByStates, clause by clause. -/

theorem witness_PortsTrainByStates_1a :
    ∃ (s : State) (port : Nat), let t := s.chip.tport port;
    let open' := s.chip.hasPort port && t.state == .detect && !t.waiting && s.chip.fabUp && !s.chip.portStopped port;
    s.serving ∧ open' = false :=
  ⟨st full, 5, by decide +kernel⟩

theorem witness_PortsTrainByStates_1b :
    ∃ (s : State) (port : Nat), let t := s.chip.tport port;
    let open' := s.chip.hasPort port && t.state == .detect && !t.waiting && s.chip.fabUp && !s.chip.portStopped port;
    s.serving ∧ open' = false :=
  ⟨st { wire { state := .detect, waiting := true } with lanes := [(10, {  }), (11, {  })] }, 5, by decide +kernel⟩

theorem witness_PortsTrainByStates_2a :
    ∃ (s : State) (port : Nat) (found : _), let t := s.chip.tport port; let f := found % 4;
    let open' := s.chip.hasPort port && t.state == .detect && !t.waiting && s.chip.fabUp && !s.chip.portStopped port;
    let goes := f == 3 || (f != 0 && bitOf (s.chip.widthsOf port) 0); s.serving ∧ open' = true ∧ goes = true :=
  ⟨st { wire { state := .detect, lowered := 1 } with lanes := [(10, {  }), (11, {  })] }, 5, 3, by decide +kernel⟩

theorem witness_PortsTrainByStates_2b :
    ∃ (s : State) (port : Nat) (found : _), let t := s.chip.tport port; let f := found % 4;
    let open' := s.chip.hasPort port && t.state == .detect && !t.waiting && s.chip.fabUp && !s.chip.portStopped port;
    let goes := f == 3 || (f != 0 && bitOf (s.chip.widthsOf port) 0); s.serving ∧ open' = true ∧ goes = true :=
  ⟨st { { wire { state := .detect } with lanes := [(10, {  }), (11, {  })] } with dict := { active := [(pnum 0x10 0x010 5, 1), (pnum 0x18 0x003 5, 3)] } },
    5, 6, by decide +kernel⟩

theorem witness_PortsTrainByStates_3a :
    ∃ (s : State) (port : Nat) (found : _), let t := s.chip.tport port; let f := found % 4;
    let open' := s.chip.hasPort port && t.state == .detect && !t.waiting && s.chip.fabUp && !s.chip.portStopped port;
    let goes := f == 3 || (f != 0 && bitOf (s.chip.widthsOf port) 0); s.serving ∧ open' = true ∧ goes = false :=
  ⟨st { wire { state := .detect } with lanes := [(10, {  }), (11, {  })] }, 5, 0, by decide +kernel⟩

theorem witness_PortsTrainByStates_3b :
    ∃ (s : State) (port : Nat) (found : _), let t := s.chip.tport port; let f := found % 4;
    let open' := s.chip.hasPort port && t.state == .detect && !t.waiting && s.chip.fabUp && !s.chip.portStopped port;
    let goes := f == 3 || (f != 0 && bitOf (s.chip.widthsOf port) 0); s.serving ∧ open' = true ∧ goes = false :=
  ⟨st { { wire { state := .detect } with lanes := [(10, {  }), (11, {  })] } with dict := { active := [(pnum 0x10 0x010 5, 1), (pnum 0x18 0x003 5, 2)] } },
    5, 1, by decide +kernel⟩

theorem witness_PortsTrainByStates_4a :
    ∃ (s : State) (port : Nat) (l : _), let t := s.chip.tport port; let trains := t.trains l; s.serving ∧ trains = false :=
  ⟨st { wire {  } with lanes := [(10, {  }), (11, {  })] }, 5, 0, by decide +kernel⟩

theorem witness_PortsTrainByStates_4b :
    ∃ (s : State) (port : Nat) (l : _), let t := s.chip.tport port; let trains := t.trains l; s.serving ∧ trains = false :=
  ⟨st { wire { state := .pattern, found := 3 } with lanes := [(10, {  }), (11, {  })] }, 5, 2, by decide +kernel⟩

theorem witness_PortsTrainByStates_5 :
    ∃ (s : State) (port : Nat) (l : _) (b : TrainBlock), let t := s.chip.tport port;
    let lane := s.chip.lane (laneOf port l); let known (x : TrainBlock) := decide (1 ≤ x.tbtype) && decide (x.tbtype ≤ 4);
    let trains := t.trains l;
    let inverted := (t.state == .pattern || t.hs.idleStage == 1) && b.pmark == 0x5A3C && !lane.polInv;
    let d := if inverted then b.flip else b; s.serving ∧ trains = true ∧ known d = false :=
  ⟨st { wire { state := .pattern, found := 3 } with lanes := [(10, {  }), (11, {  })] }, 5, 1,
    ({ tbtype := 9 } : TrainBlock), by decide +kernel⟩

theorem witness_PortsTrainByStates_6a :
    ∃ (s : State) (port : Nat) (l : _) (b : TrainBlock), let t := s.chip.tport port;
    let lane := s.chip.lane (laneOf port l); let known (x : TrainBlock) := decide (1 ≤ x.tbtype) && decide (x.tbtype ≤ 4);
    let trains := t.trains l;
    let inverted := (t.state == .pattern || t.hs.idleStage == 1) && b.pmark == 0x5A3C && !lane.polInv;
    let d := if inverted then b.flip else b; let fits := d.pmark == 0xA5C3 && d.tbtype == 1; s.serving ∧ trains = true ∧
    known d = true ∧ fits = false :=
  ⟨st { wire { state := .pattern, found := 3 } with lanes := [(10, {  }), (11, {  })] }, 5, 1,
    ({ tbtype := 2, rates := 1, body := [1, 1, 5] } : TrainBlock), by decide +kernel⟩

theorem witness_PortsTrainByStates_6b :
    ∃ (s : State) (port : Nat) (l : _) (b : TrainBlock), let t := s.chip.tport port;
    let lane := s.chip.lane (laneOf port l); let known (x : TrainBlock) := decide (1 ≤ x.tbtype) && decide (x.tbtype ≤ 4);
    let trains := t.trains l;
    let inverted := (t.state == .pattern || t.hs.idleStage == 1) && b.pmark == 0x5A3C && !lane.polInv;
    let d := if inverted then b.flip else b; let fits := d.pmark == 0xA5C3 && d.tbtype == 1; s.serving ∧ trains = true ∧
    known d = true ∧ fits = false :=
  ⟨st { wire { state := .lock, found := 3 } with lanes := [(10, {  }), (11, {  })] }, 5, 0,
    ({ tbtype := 1, pmark := 0x5A3C } : TrainBlock), by decide +kernel⟩

theorem witness_PortsTrainByStates_7a :
    ∃ (s : State) (port : Nat) (l : _) (b : TrainBlock), let t := s.chip.tport port;
    let lane := s.chip.lane (laneOf port l); let trains := t.trains l;
    let inverted := (t.state == .pattern || t.hs.idleStage == 1) && b.pmark == 0x5A3C && !lane.polInv;
    let d := if inverted then b.flip else b; let fits := d.pmark == 0xA5C3 && d.tbtype == 1; s.serving ∧ trains = true ∧
    fits = true :=
  ⟨st { wire { state := .pattern, found := 3 } with lanes := [(10, {  }), (11, {  })] }, 5, 1,
    ({ tbtype := 1, pmark := 0xA5C3, lpos := 128, rates := 3, widths := 3, locked := true, target := 1, body := [1, 2, 3, 4, 5, 6, 7, 8, 9] } : TrainBlock),
    by decide +kernel⟩

theorem witness_PortsTrainByStates_7b :
    ∃ (s : State) (port : Nat) (l : _) (b : TrainBlock), let t := s.chip.tport port;
    let lane := s.chip.lane (laneOf port l); let trains := t.trains l;
    let inverted := (t.state == .pattern || t.hs.idleStage == 1) && b.pmark == 0x5A3C && !lane.polInv;
    let d := if inverted then b.flip else b; let fits := d.pmark == 0xA5C3 && d.tbtype == 1; s.serving ∧ trains = true ∧
    fits = true :=
  ⟨st { wire { state := .pattern, found := 3, pmark := 2 } with lanes := [(10, { blockLock := true }), (11, { blockLock := true })] },
    5, 0,
    (TrainBlock.flip { tbtype := 1, pmark := 0xA5C3, lpos := 128, rates := 3, widths := 3, locked := true, target := 1, body := [1, 2, 3, 4, 5, 6, 7, 8, 9] } : TrainBlock),
    by decide +kernel⟩

theorem witness_PortsTrainByStates_7c :
    ∃ (s : State) (port : Nat) (l : _) (b : TrainBlock), let t := s.chip.tport port;
    let lane := s.chip.lane (laneOf port l); let trains := t.trains l;
    let inverted := (t.state == .pattern || t.hs.idleStage == 1) && b.pmark == 0x5A3C && !lane.polInv;
    let d := if inverted then b.flip else b; let fits := d.pmark == 0xA5C3 && d.tbtype == 1; s.serving ∧ trains = true ∧
    fits = true :=
  ⟨st { wire { state := .lock, found := 3, lockedRx := 1, widths := 3, rates := 3, target := 2 } with lanes := [(10, { blockLock := true, markerLock := true }), (11, { blockLock := true, markerLock := true })] },
    5, 1,
    ({ tbtype := 1, pmark := 0xA5C3, lpos := 128, rates := 3, widths := 3, locked := true, target := 1, body := [1, 2, 3, 4, 5, 6, 7, 8, 9] } : TrainBlock),
    by decide +kernel⟩

theorem witness_PortsTrainByStates_7d :
    ∃ (s : State) (port : Nat) (l : _) (b : TrainBlock), let t := s.chip.tport port;
    let lane := s.chip.lane (laneOf port l); let trains := t.trains l;
    let inverted := (t.state == .pattern || t.hs.idleStage == 1) && b.pmark == 0x5A3C && !lane.polInv;
    let d := if inverted then b.flip else b; let fits := d.pmark == 0xA5C3 && d.tbtype == 1; s.serving ∧ trains = true ∧
    fits = true :=
  ⟨st { wire { state := .lock, found := 3, lockedRx := 1, widths := 3 } with lanes := [(10, { blockLock := true, markerLock := true }), (11, { blockLock := true, markerLock := true })] },
    5, 1,
    ({ tbtype := 1, pmark := 0xA5C3, lpos := 128, rates := 3, widths := 3, locked := true, target := 1, body := [1, 2, 3, 4, 5, 6, 7, 8, 9] } : TrainBlock),
    by decide +kernel⟩

theorem witness_PortsTrainByStates_7e :
    ∃ (s : State) (port : Nat) (l : _) (b : TrainBlock), let t := s.chip.tport port;
    let lane := s.chip.lane (laneOf port l); let trains := t.trains l;
    let inverted := (t.state == .pattern || t.hs.idleStage == 1) && b.pmark == 0x5A3C && !lane.polInv;
    let d := if inverted then b.flip else b; let fits := d.pmark == 0xA5C3 && d.tbtype == 1; s.serving ∧ trains = true ∧
    fits = true :=
  ⟨st { wire { state := .lock, found := 3, switched := true, lanes := 1 } with lanes := [(10, { blockLock := true, markerLock := true }), (11, {  })] },
    5, 0,
    ({ tbtype := 1, pmark := 0xA5C3, lpos := 128, rates := 3, widths := 3, locked := true, target := 1, body := [1, 2, 3, 4, 5, 6, 7, 8, 9] } : TrainBlock),
    by decide +kernel⟩

theorem witness_PortsTrainByStates_7f :
    ∃ (s : State) (port : Nat) (l : _) (b : TrainBlock), let t := s.chip.tport port;
    let lane := s.chip.lane (laneOf port l); let trains := t.trains l;
    let inverted := (t.state == .pattern || t.hs.idleStage == 1) && b.pmark == 0x5A3C && !lane.polInv;
    let d := if inverted then b.flip else b; let fits := d.pmark == 0xA5C3 && d.tbtype == 1; s.serving ∧ trains = true ∧
    fits = true :=
  ⟨st { wire { state := .lock, found := 3 } with lanes := [(10, {  }), (11, {  })] }, 5, 0,
    ({ tbtype := 1, pmark := 0xA5C3, lpos := 128, rates := 3, widths := 3, locked := true, target := 1, body := [1, 2, 3, 4, 5, 6, 7, 8, 9] } : TrainBlock),
    by decide +kernel⟩

theorem witness_PortsTrainByStates_7g :
    ∃ (s : State) (port : Nat) (l : _) (b : TrainBlock), let t := s.chip.tport port;
    let lane := s.chip.lane (laneOf port l); let trains := t.trains l;
    let inverted := (t.state == .pattern || t.hs.idleStage == 1) && b.pmark == 0x5A3C && !lane.polInv;
    let d := if inverted then b.flip else b; let fits := d.pmark == 0xA5C3 && d.tbtype == 1; s.serving ∧ trains = true ∧
    fits = true :=
  ⟨st { wire { state := .active, lanes := 1, hs := { idleStage := 1 } } with lanes := [(10, { blockLock := true, markerLock := true }), (11, { blockLock := true })] },
    5, 1,
    ({ tbtype := 1, pmark := 0xA5C3, lpos := 128, rates := 3, widths := 3, locked := true, target := 1, body := [1, 2, 3, 4, 5, 6, 7, 8, 9] } : TrainBlock),
    by decide +kernel⟩

theorem witness_PortsTrainByStates_7h :
    ∃ (s : State) (port : Nat) (l : _) (b : TrainBlock), let t := s.chip.tport port;
    let lane := s.chip.lane (laneOf port l); let trains := t.trains l;
    let inverted := (t.state == .pattern || t.hs.idleStage == 1) && b.pmark == 0x5A3C && !lane.polInv;
    let d := if inverted then b.flip else b; let fits := d.pmark == 0xA5C3 && d.tbtype == 1; s.serving ∧ trains = true ∧
    fits = true :=
  ⟨st { wire { state := .active, lanes := 1, hs := { idleStage := 1 } } with lanes := [(10, {  }), (11, {  })] }, 5, 1,
    ({ tbtype := 1, pmark := 0xA5C3, lpos := 128, rates := 3, widths := 3, locked := true, target := 1, body := [1, 2, 3, 4, 5, 6, 7, 8, 9] } : TrainBlock),
    by decide +kernel⟩

theorem witness_PortsTrainByStates_7i :
    ∃ (s : State) (port : Nat) (l : _) (b : TrainBlock), let t := s.chip.tport port;
    let lane := s.chip.lane (laneOf port l); let trains := t.trains l;
    let inverted := (t.state == .pattern || t.hs.idleStage == 1) && b.pmark == 0x5A3C && !lane.polInv;
    let d := if inverted then b.flip else b; let fits := d.pmark == 0xA5C3 && d.tbtype == 1; s.serving ∧ trains = true ∧
    fits = true :=
  ⟨st { wire { state := .active, lanes := 1, hs := { idleStage := 2 } } with lanes := [(10, { blockLock := true, markerLock := true }), (11, { blockLock := true, markerLock := true })] },
    5, 1,
    ({ tbtype := 1, pmark := 0xA5C3, lpos := 128, rates := 3, widths := 3, locked := true, target := 1, body := [1, 2, 3, 4, 5, 6, 7, 8, 9] } : TrainBlock),
    by decide +kernel⟩

theorem witness_PortsTrainByStates_8 :
    ∃ (s : State) (port : Nat) (l : _) (b : TrainBlock), let t := s.chip.tport port;
    let known (x : TrainBlock) := decide (1 ≤ x.tbtype) && decide (x.tbtype ≤ 4); let trains := t.trains l; s.serving ∧
    trains = true ∧ known b = false :=
  ⟨st { wire { state := .equalise, lanes := 3 } with lanes := [(10, {  }), (11, {  })] }, 5, 1,
    ({ tbtype := 9 } : TrainBlock), by decide +kernel⟩

theorem witness_PortsTrainByStates_9 :
    ∃ (s : State) (port : Nat) (l : _) (b : TrainBlock), let t := s.chip.tport port;
    let known (x : TrainBlock) := decide (1 ≤ x.tbtype) && decide (x.tbtype ≤ 4); let trains := t.trains l; s.serving ∧
    trains = true ∧ known b = true ∧ b.tbtype ≠ 2 :=
  ⟨st { wire { state := .equalise, lanes := 3 } with lanes := [(10, {  }), (11, {  })] }, 5, 1,
    ({ tbtype := 3, body := [4, 0, 0] } : TrainBlock), by decide +kernel⟩

theorem witness_PortsTrainByStates_10 :
    ∃ (s : State) (port : Nat) (l : _) (b : TrainBlock), let t := s.chip.tport port;
    let known (x : TrainBlock) := decide (1 ≤ x.tbtype) && decide (x.tbtype ≤ 4); let trains := t.trains l; s.serving ∧
    trains = true ∧ known b = true ∧ b.tbtype ≠ 3 :=
  ⟨st { wire { state := .equalise, lanes := 3 } with lanes := [(10, {  }), (11, {  })] }, 5, 1,
    ({ tbtype := 2, rates := 1, body := [1, 1, 5] } : TrainBlock), by decide +kernel⟩

theorem witness_PortsTrainByStates_11 :
    ∃ (s : State) (port : Nat) (l : _) (b : TrainBlock), let t := s.chip.tport port; let trains := t.trains l;
    let asks := s.chip.equalising port; s.serving ∧ trains = true ∧ b.tbtype = 2 ∧ asks = false :=
  ⟨st { wire { state := .lock, found := 3 } with lanes := [(10, {  }), (11, {  })] }, 5, 1,
    ({ tbtype := 2, rates := 1, body := [1, 1, 5] } : TrainBlock), by decide +kernel⟩

theorem witness_PortsTrainByStates_12a :
    ∃ (s : State) (port : Nat) (l : _) (b : TrainBlock), let t := s.chip.tport port; let trains := t.trains l;
    let asks := s.chip.equalising port; s.serving ∧ trains = true ∧ b.tbtype = 2 ∧ asks = true :=
  ⟨st { wire { state := .equalise, lanes := 3 } with lanes := [(10, {  }), (11, {  })] }, 5, 1,
    ({ tbtype := 2, rates := 1, body := [1, 1, 5] } : TrainBlock), by decide +kernel⟩

theorem witness_PortsTrainByStates_12b :
    ∃ (s : State) (port : Nat) (l : _) (b : TrainBlock), let t := s.chip.tport port; let trains := t.trains l;
    let asks := s.chip.equalising port; s.serving ∧ trains = true ∧ b.tbtype = 2 ∧ asks = true :=
  ⟨st { wire { state := .equalise, lanes := 3, eqOwn := 3, eqPeer := 1 } with lanes := [(10, {  }), (11, {  })] }, 5, 1,
    ({ tbtype := 2, body := [1, 2, 0, 127, 127, 127, 127], eqdone := true } : TrainBlock), by decide +kernel⟩

theorem witness_PortsTrainByStates_12c :
    ∃ (s : State) (port : Nat) (l : _) (b : TrainBlock), let t := s.chip.tport port; let trains := t.trains l;
    let asks := s.chip.equalising port; s.serving ∧ trains = true ∧ b.tbtype = 2 ∧ asks = true :=
  ⟨st { wire { state := .active, lanes := 1, hs := { idleStage := 3, leading := true } } with lanes := [(10, {  }), (11, {  })] },
    5, 1, ({ tbtype := 2, rates := 1, body := [1, 1, 5] } : TrainBlock), by decide +kernel⟩

theorem witness_PortsTrainByStates_13a :
    ∃ (s : State) (port : Nat) (l : _) (b : TrainBlock), let t := s.chip.tport port;
    let lane := s.chip.lane (laneOf port l); let trains := t.trains l; let asks := s.chip.equalising port;
    let wanted := asks && !bitOf t.eqOwn l && b.byte 9 == lane.ownRseq; s.serving ∧ trains = true ∧ b.tbtype = 3 ∧
    wanted = false :=
  ⟨st { wire { state := .equalise, lanes := 3 } with lanes := [(10, {  }), (11, { ownRseq := 3 })] }, 5, 1,
    ({ tbtype := 3, body := [4, 0, 0] } : TrainBlock), by decide +kernel⟩

theorem witness_PortsTrainByStates_13b :
    ∃ (s : State) (port : Nat) (l : _) (b : TrainBlock), let t := s.chip.tport port;
    let lane := s.chip.lane (laneOf port l); let trains := t.trains l; let asks := s.chip.equalising port;
    let wanted := asks && !bitOf t.eqOwn l && b.byte 9 == lane.ownRseq; s.serving ∧ trains = true ∧ b.tbtype = 3 ∧
    wanted = false :=
  ⟨st { wire { state := .equalise, lanes := 3, eqOwn := 3, eqPeer := 1 } with lanes := [(10, {  }), (11, { ownRseq := 3 })] },
    5, 1, ({ tbtype := 3, body := [3, 0, 0], eqdone := true } : TrainBlock), by decide +kernel⟩

theorem witness_PortsTrainByStates_13c :
    ∃ (s : State) (port : Nat) (l : _) (b : TrainBlock), let t := s.chip.tport port;
    let lane := s.chip.lane (laneOf port l); let trains := t.trains l; let asks := s.chip.equalising port;
    let wanted := asks && !bitOf t.eqOwn l && b.byte 9 == lane.ownRseq; s.serving ∧ trains = true ∧ b.tbtype = 3 ∧
    wanted = false :=
  ⟨st { wire { state := .active, lanes := 1, hs := { idleStage := 3, leading := true }, eqOwn := 3 } with lanes := [(10, {  }), (11, { ownRseq := 3 })] },
    5, 1, ({ tbtype := 3, body := [3, 0, 0], eqdone := true } : TrainBlock), by decide +kernel⟩

theorem witness_PortsTrainByStates_14a :
    ∃ (s : State) (port : Nat) (l : _) (b : TrainBlock), let t := s.chip.tport port;
    let lane := s.chip.lane (laneOf port l); let trains := t.trains l; let asks := s.chip.equalising port;
    let wanted := asks && !bitOf t.eqOwn l && b.byte 9 == lane.ownRseq; s.serving ∧ trains = true ∧ b.tbtype = 3 ∧
    wanted = true :=
  ⟨st { wire { state := .equalise, lanes := 3 } with lanes := [(10, {  }), (11, { ownRseq := 3 })] }, 5, 1,
    ({ tbtype := 3, body := [3, 0, 0] } : TrainBlock), by decide +kernel⟩

theorem witness_PortsTrainByStates_14b :
    ∃ (s : State) (port : Nat) (l : _) (b : TrainBlock), let t := s.chip.tport port;
    let lane := s.chip.lane (laneOf port l); let trains := t.trains l; let asks := s.chip.equalising port;
    let wanted := asks && !bitOf t.eqOwn l && b.byte 9 == lane.ownRseq; s.serving ∧ trains = true ∧ b.tbtype = 3 ∧
    wanted = true :=
  ⟨st { wire { state := .equalise, lanes := 3, eqOwn := 1, eqPeer := 3 } with lanes := [(10, {  }), (11, { ownRseq := 255 })] },
    5, 1, ({ tbtype := 3, body := [255, 0, 0], eqdone := true } : TrainBlock), by decide +kernel⟩

theorem witness_PortsTrainByStates_15a :
    ∃ (s : State) (port : Nat) (b : TrainBlock), let t := s.chip.tport port;
    let waits := t.state == .capabilities || t.state == .held; let known := decide (1 ≤ b.tbtype) && decide (b.tbtype ≤ 4);
    s.serving ∧ (waits = false ∨ (known = true ∧ (b.tbtype ≠ 4 ∨ s.chip.fabUp = false))) :=
  ⟨st { wire { state := .lock } with lanes := [(10, {  }), (11, {  })], dict := { active := [(pnum 0x10 0x010 5, 1)] } },
    5, ({ tbtype := 4, body := [0, 3, 7, 1, 0, 0, 0, 0, 0, 0, 0, 0, 0, 0, 9] } : TrainBlock), by decide +kernel⟩

theorem witness_PortsTrainByStates_15b :
    ∃ (s : State) (port : Nat) (b : TrainBlock), let t := s.chip.tport port;
    let waits := t.state == .capabilities || t.state == .held; let known := decide (1 ≤ b.tbtype) && decide (b.tbtype ≤ 4);
    s.serving ∧ (waits = false ∨ (known = true ∧ (b.tbtype ≠ 4 ∨ s.chip.fabUp = false))) :=
  ⟨st { wire { state := .capabilities, lanes := 3 } with lanes := [(10, {  }), (11, {  })], dict := { active := [(pnum 0x10 0x010 5, 1)] } },
    5, ({ tbtype := 2, rates := 1, body := [1, 1, 5] } : TrainBlock), by decide +kernel⟩

theorem witness_PortsTrainByStates_16 :
    ∃ (s : State) (port : Nat) (b : TrainBlock), let t := s.chip.tport port;
    let waits := t.state == .capabilities || t.state == .held; let known := decide (1 ≤ b.tbtype) && decide (b.tbtype ≤ 4);
    s.serving ∧ waits = true ∧ known = false :=
  ⟨st { wire { state := .held, lanes := 3 } with lanes := [(10, {  }), (11, {  })], dict := { active := [(pnum 0x10 0x010 5, 1)] } },
    5, ({ tbtype := 9 } : TrainBlock), by decide +kernel⟩

theorem witness_PortsTrainByStates_17a :
    ∃ (s : State) (port : Nat) (b : TrainBlock) (passed : _), let t := s.chip.tport port;
    let waits := t.state == .capabilities || t.state == .held; let takes := s.chip.cablingOk port b;
    s.leaves (fun c => c.capabilities port b passed) ∧ waits = true ∧ b.tbtype = 4 ∧ s.chip.fabUp = true ∧ takes = false :=
  ⟨st { wire { state := .capabilities, lanes := 3 } with lanes := [(10, {  }), (11, {  })], dict := { active := [(pnum 0x10 0x010 5, 1), (pnum 0x10 0x011 5, 0x80000001)] } },
    5, ({ tbtype := 4, body := [0, 3, 7, 1, 0, 0, 0, 0, 0, 0, 0, 0, 0, 0, 9] } : TrainBlock), true, by decide +kernel⟩

theorem witness_PortsTrainByStates_17b :
    ∃ (s : State) (port : Nat) (b : TrainBlock) (passed : _), let t := s.chip.tport port;
    let waits := t.state == .capabilities || t.state == .held; let takes := s.chip.cablingOk port b;
    s.leaves (fun c => c.capabilities port b passed) ∧ waits = true ∧ b.tbtype = 4 ∧ s.chip.fabUp = true ∧ takes = false :=
  ⟨st { wire { state := .held, lanes := 3 } with lanes := [(10, {  }), (11, {  })], dict := { active := [(pnum 0x10 0x010 5, 1), (pnum 0x10 0x011 5, 0x80000001)] } },
    5, ({ tbtype := 4, body := [0, 3, 7, 1, 0, 0, 0, 0, 0, 0, 0, 0, 0, 0, 9] } : TrainBlock), true, by decide +kernel⟩

theorem witness_PortsTrainByStates_18 :
    ∃ (s : State) (port : Nat) (b : TrainBlock) (passed : _), let t := s.chip.tport port;
    let waits := t.state == .capabilities || t.state == .held; let takes := s.chip.cablingOk port b;
    let agrees := s.chip.roleOk port b; s.leaves (fun c => c.capabilities port b passed) ∧ waits = true ∧ b.tbtype = 4 ∧
    s.chip.fabUp = true ∧ takes = true ∧ agrees = false :=
  ⟨st { wire { state := .capabilities, lanes := 3 } with lanes := [(10, {  }), (11, {  })], dict := { active := [(pnum 0x10 0x010 5, 1)] } },
    5, ({ tbtype := 4, body := [0, 3, 7, 2, 0, 0, 0, 0, 0, 0, 0, 0, 0, 0, 9] } : TrainBlock), true, by decide +kernel⟩

theorem witness_PortsTrainByStates_19 :
    ∃ (s : State) (port : Nat) (b : TrainBlock) (passed : _), let t := s.chip.tport port;
    let waits := t.state == .capabilities || t.state == .held; let takes := s.chip.cablingOk port b;
    let agrees := s.chip.roleOk port b; s.leaves (fun c => c.capabilities port b passed) ∧ waits = true ∧ b.tbtype = 4 ∧
    s.chip.fabUp = true ∧ takes = true ∧ agrees = true ∧ t.state = .held :=
  ⟨st { wire { state := .held, lanes := 3 } with lanes := [(10, {  }), (11, {  })], dict := { active := [(pnum 0x10 0x010 5, 1)] } },
    5, ({ tbtype := 4, body := [0, 3, 7, 1, 0, 0, 0, 0, 0, 0, 0, 0, 0, 0, 9] } : TrainBlock), true, by decide +kernel⟩

theorem witness_PortsTrainByStates_20 :
    ∃ (s : State) (port : Nat) (b : TrainBlock) (passed : _), let t := s.chip.tport port;
    let waits := t.state == .capabilities || t.state == .held; let takes := s.chip.cablingOk port b;
    let agrees := s.chip.roleOk port b; s.leaves (fun c => c.capabilities port b passed) ∧ waits = true ∧ b.tbtype = 4 ∧
    s.chip.fabUp = true ∧ takes = true ∧ agrees = true ∧ t.state = .capabilities ∧ passed = false :=
  ⟨st { wire { state := .capabilities, lanes := 3 } with lanes := [(10, {  }), (11, {  })], dict := { active := [(pnum 0x10 0x010 5, 1)] } },
    5, ({ tbtype := 4, body := [0, 3, 7, 1, 0, 0, 0, 0, 0, 0, 0, 0, 0, 0, 9] } : TrainBlock), false, by decide +kernel⟩

theorem witness_PortsTrainByStates_21a :
    ∃ (s : State) (port : Nat) (b : TrainBlock) (passed : _), let t := s.chip.tport port;
    let waits := t.state == .capabilities || t.state == .held; let takes := s.chip.cablingOk port b;
    let agrees := s.chip.roleOk port b; s.leaves (fun c => c.capabilities port b passed) ∧ waits = true ∧ b.tbtype = 4 ∧
    s.chip.fabUp = true ∧ takes = true ∧ agrees = true ∧ t.state = .capabilities ∧ passed = true :=
  ⟨st { wire { state := .capabilities, lanes := 3 } with lanes := [(10, {  }), (11, {  })], dict := { active := [(pnum 0x10 0x010 5, 1)] } },
    5, ({ tbtype := 4, body := [0, 3, 7, 1, 0, 0, 0, 0, 0, 0, 0, 0, 0, 0, 9] } : TrainBlock), true, by decide +kernel⟩

theorem witness_PortsTrainByStates_21b :
    ∃ (s : State) (port : Nat) (b : TrainBlock) (passed : _), let t := s.chip.tport port;
    let waits := t.state == .capabilities || t.state == .held; let takes := s.chip.cablingOk port b;
    let agrees := s.chip.roleOk port b; s.leaves (fun c => c.capabilities port b passed) ∧ waits = true ∧ b.tbtype = 4 ∧
    s.chip.fabUp = true ∧ takes = true ∧ agrees = true ∧ t.state = .capabilities ∧ passed = true :=
  ⟨st { wire { state := .capabilities, lanes := 3, everActive := true, leftAt := some 0 } with lanes := [(10, {  }), (11, {  })], dict := { active := [(pnum 0x10 0x010 5, 1)] } },
    5, ({ tbtype := 4, body := [0, 3, 7, 1, 0, 0, 0, 0, 0, 0, 0, 0, 0, 0, 9] } : TrainBlock), true, by decide +kernel⟩

theorem witness_PortsTrainByStates_22a :
    ∃ (s : State) (port : Nat), let t := s.chip.tport port; let late := decide (t.since + t.state.limit ≤ s.chip.now);
    let idle := t.hs.idleStage != 0 && decide (t.hs.idleSince + idleLimit t.hs.idleStage ≤ s.chip.now); s.serving ∧
    ((t.state = .active ∧ idle = false) ∨ (t.state ≠ .active ∧ late = false) ∨ t.state = .disabled ∨ t.state = .detect ∨ t.state = .held) :=
  ⟨st full, 5, by decide +kernel⟩

theorem witness_PortsTrainByStates_22b :
    ∃ (s : State) (port : Nat), let t := s.chip.tport port; let late := decide (t.since + t.state.limit ≤ s.chip.now);
    let idle := t.hs.idleStage != 0 && decide (t.hs.idleSince + idleLimit t.hs.idleStage ≤ s.chip.now); s.serving ∧
    ((t.state = .active ∧ idle = false) ∨ (t.state ≠ .active ∧ late = false) ∨ t.state = .disabled ∨ t.state = .detect ∨ t.state = .held) :=
  ⟨st { { wire { state := .capabilities, lanes := 3 } with lanes := [(10, {  }), (11, {  })] } with tb := { now := 1999999 } },
    5, by decide +kernel⟩

theorem witness_PortsTrainByStates_22c :
    ∃ (s : State) (port : Nat), let t := s.chip.tport port; let late := decide (t.since + t.state.limit ≤ s.chip.now);
    let idle := t.hs.idleStage != 0 && decide (t.hs.idleSince + idleLimit t.hs.idleStage ≤ s.chip.now); s.serving ∧
    ((t.state = .active ∧ idle = false) ∨ (t.state ≠ .active ∧ late = false) ∨ t.state = .disabled ∨ t.state = .detect ∨ t.state = .held) :=
  ⟨st { { wire { state := .active, lanes := 1, hs := { idleStage := 1 } } with lanes := [(10, {  }), (11, {  })] } with tb := { now := 9999999 } },
    5, by decide +kernel⟩

theorem witness_PortsTrainByStates_23 :
    ∃ (s : State) (port : Nat), let t := s.chip.tport port; let late := decide (t.since + t.state.limit ≤ s.chip.now);
    s.serving ∧ late = true ∧ t.state = .pattern :=
  ⟨st { { wire { state := .pattern, attempts := 7 } with lanes := [(10, {  }), (11, {  })] } with tb := { now := 10000000 } },
    5, by decide +kernel⟩

theorem witness_PortsTrainByStates_24a :
    ∃ (s : State) (port : Nat), let t := s.chip.tport port; let late := decide (t.since + t.state.limit ≤ s.chip.now);
    let one := s.chip.bothWays port; let alone := (one == 1 || one == 2) && s.chip.bothAllow port 0 && s.chip.fabUp;
    s.serving ∧ late = true ∧ t.state = .lock ∧ alone = false :=
  ⟨st { { wire { state := .lock } with lanes := [(10, {  }), (11, {  })] } with tb := { now := 20000000 } }, 5,
    by decide +kernel⟩

theorem witness_PortsTrainByStates_24b :
    ∃ (s : State) (port : Nat), let t := s.chip.tport port; let late := decide (t.since + t.state.limit ≤ s.chip.now);
    let one := s.chip.bothWays port; let alone := (one == 1 || one == 2) && s.chip.bothAllow port 0 && s.chip.fabUp;
    s.serving ∧ late = true ∧ t.state = .lock ∧ alone = false :=
  ⟨st { { wire { state := .lock, lockedRx := 1, widths := 2, peerWidths := 3 } with lanes := [(10, { blockLock := true, markerLock := true }), (11, {  })] } with tb := { now := 20000000 } },
    5, by decide +kernel⟩

theorem witness_PortsTrainByStates_25a :
    ∃ (s : State) (port : Nat), let t := s.chip.tport port; let late := decide (t.since + t.state.limit ≤ s.chip.now);
    let one := s.chip.bothWays port; let alone := (one == 1 || one == 2) && s.chip.bothAllow port 0 && s.chip.fabUp;
    s.serving ∧ late = true ∧ t.state = .lock ∧ alone = true :=
  ⟨st { { wire { state := .lock, lockedRx := 1, widths := 3, peerWidths := 3 } with lanes := [(10, { blockLock := true, markerLock := true }), (11, {  })] } with tb := { now := 20000000 } },
    5, by decide +kernel⟩

theorem witness_PortsTrainByStates_25b :
    ∃ (s : State) (port : Nat), let t := s.chip.tport port; let late := decide (t.since + t.state.limit ≤ s.chip.now);
    let one := s.chip.bothWays port; let alone := (one == 1 || one == 2) && s.chip.bothAllow port 0 && s.chip.fabUp;
    s.serving ∧ late = true ∧ t.state = .lock ∧ alone = true :=
  ⟨st { { wire { state := .lock, lockedRx := 1, widths := 3, peerWidths := 3, switched := true, lanes := 3 } with lanes := [(10, { blockLock := true, markerLock := true }), (11, {  })] } with tb := { now := 20000000 } },
    5, by decide +kernel⟩

theorem witness_PortsTrainByStates_25c :
    ∃ (s : State) (port : Nat), let t := s.chip.tport port; let late := decide (t.since + t.state.limit ≤ s.chip.now);
    let one := s.chip.bothWays port; let alone := (one == 1 || one == 2) && s.chip.bothAllow port 0 && s.chip.fabUp;
    s.serving ∧ late = true ∧ t.state = .lock ∧ alone = true :=
  ⟨st { { wire { state := .lock, lockedRx := 1, widths := 3, peerWidths := 3, rates := 3, peerRates := 3, target := 1, peerTarget := 1 } with lanes := [(10, { blockLock := true, markerLock := true }), (11, {  })] } with tb := { now := 20000000 } },
    5, by decide +kernel⟩

theorem witness_PortsTrainByStates_26 :
    ∃ (s : State) (port : Nat), let t := s.chip.tport port; let late := decide (t.since + t.state.limit ≤ s.chip.now);
    s.serving ∧ late = true ∧ t.state = .equalise :=
  ⟨st { { wire { state := .equalise, lanes := 3 } with lanes := [(10, {  }), (11, {  })] } with tb := { now := 50000000 } },
    5, by decide +kernel⟩

theorem witness_PortsTrainByStates_27 :
    ∃ (s : State) (port : Nat), let t := s.chip.tport port; let late := decide (t.since + t.state.limit ≤ s.chip.now);
    s.serving ∧ late = true ∧ t.state = .capabilities :=
  ⟨st { { wire { state := .capabilities, lanes := 3, attempts := 255 } with lanes := [(10, {  }), (11, {  })] } with tb := { now := 2000000 } },
    5, by decide +kernel⟩

theorem witness_PortsTrainByStates_28 :
    ∃ (s : State) (port : Nat), let t := s.chip.tport port;
    let idle := t.hs.idleStage != 0 && decide (t.hs.idleSince + idleLimit t.hs.idleStage ≤ s.chip.now); s.serving ∧
    t.state = .active ∧ idle = true :=
  ⟨st { { wire { state := .active, lanes := 1, hs := { idleStage := 1 } } with lanes := [(10, {  }), (11, {  })] } with tb := { now := 10000000 }, links := [(5, { narrowedAt := some 3 })] },
    5, by decide +kernel⟩

theorem witness_PortsTrainByStates_29a :
    ∃ (s : State) (port : Nat), let t := s.chip.tport port;
    let ends := t.state == .detect && t.waiting && decide (t.since + 1000000000 ≤ s.chip.now); s.serving ∧ ends = false :=
  ⟨st full, 5, by decide +kernel⟩

theorem witness_PortsTrainByStates_29b :
    ∃ (s : State) (port : Nat), let t := s.chip.tport port;
    let ends := t.state == .detect && t.waiting && decide (t.since + 1000000000 ≤ s.chip.now); s.serving ∧ ends = false :=
  ⟨st { { wire { state := .detect, waiting := true } with lanes := [(10, {  }), (11, {  })] } with tb := { now := 999999999 } },
    5, by decide +kernel⟩

theorem witness_PortsTrainByStates_30 :
    ∃ (s : State) (port : Nat), let t := s.chip.tport port;
    let ends := t.state == .detect && t.waiting && decide (t.since + 1000000000 ≤ s.chip.now); s.serving ∧ ends = true :=
  ⟨st { { wire { state := .detect, waiting := true } with lanes := [(10, {  }), (11, {  })] } with tb := { now := 1000000000 } },
    5, by decide +kernel⟩

theorem witness_PortsTrainByStates_31a :
    ∃ (s : State) (port : Nat), let t := s.chip.tport port;
    let gone := t.leftAt.elim false (fun a => decide (a + 500000000 ≤ s.chip.now)) && t.everActive && !t.downSent && t.state != .active;
    s.serving ∧ gone = false :=
  ⟨st full, 5, by decide +kernel⟩

theorem witness_PortsTrainByStates_31b :
    ∃ (s : State) (port : Nat), let t := s.chip.tport port;
    let gone := t.leftAt.elim false (fun a => decide (a + 500000000 ≤ s.chip.now)) && t.everActive && !t.downSent && t.state != .active;
    s.serving ∧ gone = false :=
  ⟨st { { wire { state := .detect, leftAt := some 1, everActive := true } with lanes := [(10, {  }), (11, {  })] } with tb := { now := 500000000 } },
    5, by decide +kernel⟩

theorem witness_PortsTrainByStates_32 :
    ∃ (s : State) (port : Nat), let t := s.chip.tport port;
    let gone := t.leftAt.elim false (fun a => decide (a + 500000000 ≤ s.chip.now)) && t.everActive && !t.downSent && t.state != .active;
    s.leaves (fun c => c.retrainEventTimeout port) ∧ gone = true :=
  ⟨st { { wire { state := .detect, leftAt := some 0, everActive := true } with lanes := [(10, {  }), (11, {  })] } with tb := { now := 500000000 } },
    5, by decide +kernel⟩


end Sys2Proof.Tests
end

