-- ==== Sys2Proof/Tests/WitnessTransport.lean ====
section
/-! SUPPORT. Witnesses: for each statement and each of its clauses, states and operands that meet the hypotheses. -/

namespace Sys2Proof.Tests

set_option Elab.async false

open Sys2Proof Sys2Proof.Machine

/-! RefusalsAndDeadlinesSendAgain, clause by clause. -/

theorem witness_RefusalsAndDeadlinesSendAgain_1 :
    ∃ (s : State) (h : Nat) (p : Packet) (x : Chan), s.chip.hears h p x = true ∧ s.serving ∧
    (x.out? p.rpsn).elim true OutPkt.dead = true :=
  ⟨st (peer ({ sendState := .active, nextPsn := 101, una := 100, outstanding := [({ psn := 100, msgid := 4, pkt := req 1 0 0x0000640000000000 0x0000000400000000 0 [], deadline := none } : OutPkt)], ops := [({ started := true, msgid := 4, opcode := 1, report := 1, qn := 7, pos := 0, signal := true, dest := 1, firstPsn := 100 } : SendOp)] } : Chan)),
    0, resp 8 0x81 100 0 0 0 0 [],
    ({ sendState := .active, nextPsn := 101, una := 100, outstanding := [({ psn := 100, msgid := 4, pkt := req 1 0 0x0000640000000000 0x0000000400000000 0 [], deadline := none } : OutPkt)], ops := [({ started := true, msgid := 4, opcode := 1, report := 1, qn := 7, pos := 0, signal := true, dest := 1, firstPsn := 100 } : SendOp)] } : Chan),
    by decide +kernel⟩

theorem witness_RefusalsAndDeadlinesSendAgain_2 :
    ∃ (s : State) (h : Nat) (p : Packet) (x : Chan) (o : OutPkt), let limit := s.chip.param 0x21 0x033 0;
    s.chip.hears h p x = true ∧ s.serving ∧ x.out? p.rpsn = some o ∧ o.dead = false ∧
    (o.busy + 1 ≤ limit ∨ x.sendState = .syncing) :=
  ⟨st (peer ({ sendState := .active, nextPsn := 101, una := 100, outstanding := [({ psn := 100, msgid := 4, pkt := req 1 0 0x0000640000000000 0x0000000400000000 0 [], deadline := some 5 } : OutPkt)], ops := [({ started := true, msgid := 4, opcode := 1, report := 1, qn := 7, pos := 0, signal := true, dest := 1, firstPsn := 100 } : SendOp)] } : Chan)),
    0, resp 8 0x81 100 0 0 0 0 [],
    ({ sendState := .active, nextPsn := 101, una := 100, outstanding := [({ psn := 100, msgid := 4, pkt := req 1 0 0x0000640000000000 0x0000000400000000 0 [], deadline := some 5 } : OutPkt)], ops := [({ started := true, msgid := 4, opcode := 1, report := 1, qn := 7, pos := 0, signal := true, dest := 1, firstPsn := 100 } : SendOp)] } : Chan),
    ({ psn := 100, msgid := 4, pkt := req 1 0 0x0000640000000000 0x0000000400000000 0 [], deadline := some 5 } : OutPkt),
    by decide +kernel⟩

theorem witness_RefusalsAndDeadlinesSendAgain_3 :
    ∃ (s : State) (h : Nat) (p : Packet) (x : Chan) (o : OutPkt) (a : SendOp) (q : Queue) (cq : Queue),
    let k := respKey h p; let limit := s.chip.param 0x21 0x033 0; s.chip.hears h p x = true ∧
    s.leaves (fun c => c.takeBusy h p) ∧ s.chip.chansQuiet = true ∧ x.sendState = .active ∧ x.outstanding = [o] ∧
    o.psn = p.rpsn ∧ o.dead = false ∧ limit < o.busy + 1 ∧ s.chip.opAnswers k x a q cq = true ∧ a.msgid = o.msgid ∧
    a.count ≤ (x.nextPsn - a.firstPsn).toNat ∧ (x.nextPsn - x.lowest).toNat < 1024 ∧ s.chip.hasRoute (chRemote k) = true ∧
    s.chip.policerOk a.fn = true ∧ s.chip.slotsUsed < transactionSlots ∧
    s.chip.outstandingTo (chRemote k / 4) < ((s.chip.heard p).dest (chRemote k / 4)).window :=
  ⟨st (peer ({ sendState := .active, nextPsn := 101, una := 100, outstanding := [({ psn := 100, msgid := 4, pkt := req 1 0 0x0000640000000000 0x0000000400000000 0 [], deadline := some 5, busy := 100000 } : OutPkt)], ops := [({ started := true, msgid := 4, opcode := 1, report := 1, qn := 7, pos := 0, signal := true, dest := 1, firstPsn := 100 } : SendOp)] } : Chan)),
    0, resp 8 0x81 100 0 0 0 0 [],
    ({ sendState := .active, nextPsn := 101, una := 100, outstanding := [({ psn := 100, msgid := 4, pkt := req 1 0 0x0000640000000000 0x0000000400000000 0 [], deadline := some 5, busy := 100000 } : OutPkt)], ops := [({ started := true, msgid := 4, opcode := 1, report := 1, qn := 7, pos := 0, signal := true, dest := 1, firstPsn := 100 } : SendOp)] } : Chan),
    ({ psn := 100, msgid := 4, pkt := req 1 0 0x0000640000000000 0x0000000400000000 0 [], deadline := some 5, busy := 100000 } : OutPkt),
    ({ started := true, msgid := 4, opcode := 1, report := 1, qn := 7, pos := 0, signal := true, dest := 1, firstPsn := 100 } : SendOp),
    ({ kind := .sq, cqn := 5, pi := 2 } : Queue), ({ kind := .cq, vecValid := true } : Queue), by decide +kernel⟩

theorem witness_RefusalsAndDeadlinesSendAgain_4 :
    ∃ (s : State) (h : Nat) (p : Packet) (x : Chan), s.chip.hears h p x = true ∧ s.serving ∧ x.sendState = .syncing :=
  ⟨st (peer ({ sendState := .syncing, nextPsn := 101, una := 100, outstanding := [({ psn := 100, msgid := 4, pkt := req 1 0 0x0000640000000000 0x0000000400000000 0 [], deadline := some 5 } : OutPkt)], ops := [({ started := true, msgid := 4, opcode := 1, report := 1, qn := 7, pos := 0, signal := true, dest := 1, firstPsn := 100 } : SendOp)] } : Chan)),
    0, resp 9 0x82 100 0x03 0 0x0000000400000000 0 [],
    ({ sendState := .syncing, nextPsn := 101, una := 100, outstanding := [({ psn := 100, msgid := 4, pkt := req 1 0 0x0000640000000000 0x0000000400000000 0 [], deadline := some 5 } : OutPkt)], ops := [({ started := true, msgid := 4, opcode := 1, report := 1, qn := 7, pos := 0, signal := true, dest := 1, firstPsn := 100 } : SendOp)] } : Chan),
    by decide +kernel⟩

theorem witness_RefusalsAndDeadlinesSendAgain_5 :
    ∃ (s : State) (h : Nat) (p : Packet) (x : Chan), s.chip.hears h p x = true ∧ s.leaves (fun c => c.takeError h p) ∧
    s.chip.chansQuiet = true ∧ x.sendState = .active :=
  ⟨st (peer ({ sendState := .active, nextPsn := 101, una := 100, outstanding := [({ psn := 100, msgid := 4, pkt := req 1 0 0x0000640000000000 0x0000000400000000 0 [], deadline := some 5 } : OutPkt)], ops := [({ started := true, msgid := 4, opcode := 1, report := 1, qn := 7, pos := 0, signal := true, dest := 1, firstPsn := 100 } : SendOp)] } : Chan)),
    0, resp 9 0x82 100 0x03 0 0x0000000400000000 0 [],
    ({ sendState := .active, nextPsn := 101, una := 100, outstanding := [({ psn := 100, msgid := 4, pkt := req 1 0 0x0000640000000000 0x0000000400000000 0 [], deadline := some 5 } : OutPkt)], ops := [({ started := true, msgid := 4, opcode := 1, report := 1, qn := 7, pos := 0, signal := true, dest := 1, firstPsn := 100 } : SendOp)] } : Chan),
    by decide +kernel⟩

theorem witness_RefusalsAndDeadlinesSendAgain_6a :
    ∃ (s : State) (h : Nat) (p : Packet) (x : Chan) (a : SendOp) (q : Queue) (cq : Queue), let k := respKey h p;
    s.chip.hears h p x = true ∧ s.leaves (fun c => c.takeError h p) ∧ s.chip.chansQuiet = true ∧ x.sendState = .active ∧
    s.chip.opAnswers k x a q cq = true ∧ a.msgid = p.msgid ∧ x.outstanding.all (fun o => o.psn == p.rpsn) = true ∧
    p.opcode = 0x82 :=
  ⟨st (peer ({ sendState := .active, nextPsn := 101, una := 100, outstanding := [({ psn := 100, msgid := 4, pkt := req 1 0 0x0000640000000000 0x0000000400000000 0 [], deadline := some 5 } : OutPkt)], ops := [({ started := true, msgid := 4, opcode := 1, report := 1, qn := 7, pos := 0, signal := true, dest := 1, firstPsn := 100 } : SendOp)] } : Chan)),
    0, resp 9 0x82 100 0x03 0 0x0000000400000000 0 [],
    ({ sendState := .active, nextPsn := 101, una := 100, outstanding := [({ psn := 100, msgid := 4, pkt := req 1 0 0x0000640000000000 0x0000000400000000 0 [], deadline := some 5 } : OutPkt)], ops := [({ started := true, msgid := 4, opcode := 1, report := 1, qn := 7, pos := 0, signal := true, dest := 1, firstPsn := 100 } : SendOp)] } : Chan),
    ({ started := true, msgid := 4, opcode := 1, report := 1, qn := 7, pos := 0, signal := true, dest := 1, firstPsn := 100 } : SendOp),
    ({ kind := .sq, cqn := 5, pi := 2 } : Queue), ({ kind := .cq, vecValid := true } : Queue), by decide +kernel⟩

theorem witness_RefusalsAndDeadlinesSendAgain_6b :
    ∃ (s : State) (h : Nat) (p : Packet) (x : Chan) (a : SendOp) (q : Queue) (cq : Queue), let k := respKey h p;
    s.chip.hears h p x = true ∧ s.leaves (fun c => c.takeError h p) ∧ s.chip.chansQuiet = true ∧ x.sendState = .active ∧
    s.chip.opAnswers k x a q cq = true ∧ a.msgid = p.msgid ∧ x.outstanding.all (fun o => o.psn == p.rpsn) = true ∧
    p.opcode = 0x82 :=
  ⟨st (peer ({ sendState := .active, nextPsn := 101, una := 100, outstanding := [({ psn := 100, msgid := 4, pkt := req 1 0 0x0000640000000000 0x0000000400000000 0 [], deadline := some 5 } : OutPkt)], ops := [({ started := true, msgid := 4, opcode := 1, report := 1, qn := 7, pos := 0, signal := true, dest := 1, firstPsn := 100 } : SendOp)] } : Chan)),
    0, resp 9 0x82 100 0x11 0 0x0000000400000000 0 [],
    ({ sendState := .active, nextPsn := 101, una := 100, outstanding := [({ psn := 100, msgid := 4, pkt := req 1 0 0x0000640000000000 0x0000000400000000 0 [], deadline := some 5 } : OutPkt)], ops := [({ started := true, msgid := 4, opcode := 1, report := 1, qn := 7, pos := 0, signal := true, dest := 1, firstPsn := 100 } : SendOp)] } : Chan),
    ({ started := true, msgid := 4, opcode := 1, report := 1, qn := 7, pos := 0, signal := true, dest := 1, firstPsn := 100 } : SendOp),
    ({ kind := .sq, cqn := 5, pi := 2 } : Queue), ({ kind := .cq, vecValid := true } : Queue), by decide +kernel⟩

theorem witness_RefusalsAndDeadlinesSendAgain_7 :
    ∃ (s : State) (ch : Nat) (psn : BitVec 24),
    let due (f : OutPkt → Option Nat) : Bool := (((s.chip.chan? ch).bind fun x => x.out? psn).bind f).elim false fun t => decide (t ≤ s.chip.now);
    s.serving ∧ due OutPkt.deadline = false :=
  ⟨st (peer ({ sendState := .active, nextPsn := 101, una := 100, outstanding := [({ psn := 100, msgid := 4, pkt := req 1 0 0x0000640000000000 0x0000000400000000 0 [], deadline := some 5 } : OutPkt)], ops := [({ started := true, msgid := 4, opcode := 1, report := 1, qn := 7, pos := 0, signal := true, dest := 1, firstPsn := 100 } : SendOp)] } : Chan)),
    4, 100, by decide +kernel⟩

theorem witness_RefusalsAndDeadlinesSendAgain_8 :
    ∃ (s : State) (ch : Nat) (psn : BitVec 24),
    let due (f : OutPkt → Option Nat) : Bool := (((s.chip.chan? ch).bind fun x => x.out? psn).bind f).elim false fun t => decide (t ≤ s.chip.now);
    s.serving ∧ due OutPkt.resendAt = false :=
  ⟨st (peer ({ sendState := .active, nextPsn := 101, una := 100, outstanding := [({ psn := 100, msgid := 4, pkt := req 1 0 0x0000640000000000 0x0000000400000000 0 [], deadline := some 5 } : OutPkt)], ops := [({ started := true, msgid := 4, opcode := 1, report := 1, qn := 7, pos := 0, signal := true, dest := 1, firstPsn := 100 } : SendOp)] } : Chan)),
    4, 100, by decide +kernel⟩

theorem witness_RefusalsAndDeadlinesSendAgain_9 :
    ∃ (s : State) (ch : Nat), s.serving ∧
    (s.chip.chan? ch).elim true (fun x => x.sendState != .error || x.ops.isEmpty || decide (s.chip.now < x.errorAt + s.chip.ageLimit)) = true :=
  ⟨st (peer ({ sendState := .active, nextPsn := 101, una := 100, outstanding := [({ psn := 100, msgid := 4, pkt := req 1 0 0x0000640000000000 0x0000000400000000 0 [], deadline := some 5 } : OutPkt)], ops := [({ started := true, msgid := 4, opcode := 1, report := 1, qn := 7, pos := 0, signal := true, dest := 1, firstPsn := 100 } : SendOp)] } : Chan)),
    4, by decide +kernel⟩

theorem witness_RefusalsAndDeadlinesSendAgain_10 :
    ∃ (s : State) (ch : Nat) (psn : BitVec 24) (x : Chan) (o : OutPkt),
    let due (f : OutPkt → Option Nat) : Bool := (((s.chip.chan? ch).bind fun x => x.out? psn).bind f).elim false fun t => decide (t ≤ s.chip.now);
    s.chip.chan? ch = some x ∧ x.out? psn = some o ∧ due OutPkt.deadline = true ∧ o.k + 1 ≤ s.chip.param 0x21 0x032 0 ∧
    s.serving ∧ (x.sendState ≠ .active ∨ s.chip.hasRoute (chRemote ch) = true) :=
  ⟨st { peer ({ sendState := .active, nextPsn := 101, una := 100, outstanding := [({ psn := 100, msgid := 4, pkt := req 1 0 0x0000640000000000 0x0000000400000000 0 [], deadline := some 5 } : OutPkt)], ops := [({ started := true, msgid := 4, opcode := 1, report := 1, qn := 7, pos := 0, signal := true, dest := 1, firstPsn := 100 } : SendOp)] } : Chan) with tb := { now := 5 } },
    4, 100,
    ({ sendState := .active, nextPsn := 101, una := 100, outstanding := [({ psn := 100, msgid := 4, pkt := req 1 0 0x0000640000000000 0x0000000400000000 0 [], deadline := some 5 } : OutPkt)], ops := [({ started := true, msgid := 4, opcode := 1, report := 1, qn := 7, pos := 0, signal := true, dest := 1, firstPsn := 100 } : SendOp)] } : Chan),
    ({ psn := 100, msgid := 4, pkt := req 1 0 0x0000640000000000 0x0000000400000000 0 [], deadline := some 5 } : OutPkt),
    by decide +kernel⟩

theorem witness_RefusalsAndDeadlinesSendAgain_11 :
    ∃ (s : State) (ch : Nat) (psn : BitVec 24) (x : Chan) (o : OutPkt),
    let due (f : OutPkt → Option Nat) : Bool := (((s.chip.chan? ch).bind fun x => x.out? psn).bind f).elim false fun t => decide (t ≤ s.chip.now);
    s.chip.chan? ch = some x ∧ x.out? psn = some o ∧ due OutPkt.resendAt = true ∧ s.serving ∧
    (x.sendState ≠ .active ∨ s.chip.hasRoute (chRemote ch) = true) :=
  ⟨st { peer ({ sendState := .active, nextPsn := 101, una := 100, outstanding := [({ psn := 100, msgid := 4, pkt := req 1 0 0x0000640000000000 0x0000000400000000 0 [], deadline := none, resendAt := some 5 } : OutPkt)], ops := [({ started := true, msgid := 4, opcode := 1, report := 1, qn := 7, pos := 0, signal := true, dest := 1, firstPsn := 100 } : SendOp)] } : Chan) with tb := { now := 5 } },
    4, 100,
    ({ sendState := .active, nextPsn := 101, una := 100, outstanding := [({ psn := 100, msgid := 4, pkt := req 1 0 0x0000640000000000 0x0000000400000000 0 [], deadline := none, resendAt := some 5 } : OutPkt)], ops := [({ started := true, msgid := 4, opcode := 1, report := 1, qn := 7, pos := 0, signal := true, dest := 1, firstPsn := 100 } : SendOp)] } : Chan),
    ({ psn := 100, msgid := 4, pkt := req 1 0 0x0000640000000000 0x0000000400000000 0 [], deadline := none, resendAt := some 5 } : OutPkt),
    by decide +kernel⟩

theorem witness_RefusalsAndDeadlinesSendAgain_12 :
    ∃ (s : State) (ch : Nat) (psn : BitVec 24) (x : Chan) (o : OutPkt) (a : SendOp) (q : Queue) (cq : Queue),
    let due (f : OutPkt → Option Nat) : Bool := (((s.chip.chan? ch).bind fun x => x.out? psn).bind f).elim false fun t => decide (t ≤ s.chip.now);
    s.chip.chan? ch = some x ∧ x.out? psn = some o ∧ s.chip.chansQuiet = true ∧ x.sendState = .active ∧
    s.chip.hasRoute (chRemote ch) = false ∧ s.chip.opAnswers ch x a q cq = true ∧ a.msgid = o.msgid ∧
    due OutPkt.deadline = true ∧ o.k + 1 ≤ s.chip.param 0x21 0x032 0 ∧ s.leaves (fun c => c.retransmitTimeout ch psn) :=
  ⟨st { node with tr := { chans := [(32, ({ sendState := .active, nextPsn := 101, una := 100, outstanding := [({ psn := 100, msgid := 4, pkt := req 1 0 0x0000640000000000 0x0000000400000000 0 [], deadline := some 5 } : OutPkt)], ops := [({ started := true, msgid := 4, opcode := 1, report := 1, qn := 7, pos := 0, signal := true, dest := 1, firstPsn := 100 } : SendOp)] } : Chan))] }, tb := { now := 5 } },
    32, 100,
    ({ sendState := .active, nextPsn := 101, una := 100, outstanding := [({ psn := 100, msgid := 4, pkt := req 1 0 0x0000640000000000 0x0000000400000000 0 [], deadline := some 5 } : OutPkt)], ops := [({ started := true, msgid := 4, opcode := 1, report := 1, qn := 7, pos := 0, signal := true, dest := 1, firstPsn := 100 } : SendOp)] } : Chan),
    ({ psn := 100, msgid := 4, pkt := req 1 0 0x0000640000000000 0x0000000400000000 0 [], deadline := some 5 } : OutPkt),
    ({ started := true, msgid := 4, opcode := 1, report := 1, qn := 7, pos := 0, signal := true, dest := 1, firstPsn := 100 } : SendOp),
    ({ kind := .sq, cqn := 5, pi := 2 } : Queue), ({ kind := .cq, vecValid := true } : Queue), by decide +kernel⟩

theorem witness_RefusalsAndDeadlinesSendAgain_13 :
    ∃ (s : State) (ch : Nat) (psn : BitVec 24) (x : Chan) (o : OutPkt) (a : SendOp) (q : Queue) (cq : Queue),
    let due (f : OutPkt → Option Nat) : Bool := (((s.chip.chan? ch).bind fun x => x.out? psn).bind f).elim false fun t => decide (t ≤ s.chip.now);
    s.chip.chan? ch = some x ∧ x.out? psn = some o ∧ s.chip.chansQuiet = true ∧ x.sendState = .active ∧
    s.chip.hasRoute (chRemote ch) = false ∧ s.chip.opAnswers ch x a q cq = true ∧ a.msgid = o.msgid ∧
    due OutPkt.resendAt = true ∧ s.leaves (fun c => c.busyResend ch psn) :=
  ⟨st { node with tr := { chans := [(32, ({ sendState := .active, nextPsn := 101, una := 100, outstanding := [({ psn := 100, msgid := 4, pkt := req 1 0 0x0000640000000000 0x0000000400000000 0 [], deadline := none, resendAt := some 5 } : OutPkt)], ops := [({ started := true, msgid := 4, opcode := 1, report := 1, qn := 7, pos := 0, signal := true, dest := 1, firstPsn := 100 } : SendOp)] } : Chan))] }, tb := { now := 5 } },
    32, 100,
    ({ sendState := .active, nextPsn := 101, una := 100, outstanding := [({ psn := 100, msgid := 4, pkt := req 1 0 0x0000640000000000 0x0000000400000000 0 [], deadline := none, resendAt := some 5 } : OutPkt)], ops := [({ started := true, msgid := 4, opcode := 1, report := 1, qn := 7, pos := 0, signal := true, dest := 1, firstPsn := 100 } : SendOp)] } : Chan),
    ({ psn := 100, msgid := 4, pkt := req 1 0 0x0000640000000000 0x0000000400000000 0 [], deadline := none, resendAt := some 5 } : OutPkt),
    ({ started := true, msgid := 4, opcode := 1, report := 1, qn := 7, pos := 0, signal := true, dest := 1, firstPsn := 100 } : SendOp),
    ({ kind := .sq, cqn := 5, pi := 2 } : Queue), ({ kind := .cq, vecValid := true } : Queue), by decide +kernel⟩

theorem witness_RefusalsAndDeadlinesSendAgain_14 :
    ∃ (s : State) (ch : Nat) (psn : BitVec 24) (x : Chan) (o : OutPkt),
    let due (f : OutPkt → Option Nat) : Bool := (((s.chip.chan? ch).bind fun x => x.out? psn).bind f).elim false fun t => decide (t ≤ s.chip.now);
    s.chip.chan? ch = some x ∧ x.out? psn = some o ∧ due OutPkt.deadline = true ∧ s.chip.param 0x21 0x032 0 < o.k + 1 ∧
    s.leaves (fun c => c.chanError ch) ∧ s.chip.clusterUp 2 = true ∧ s.chip.chansQuiet = true :=
  ⟨st { peer ({ sendState := .active, nextPsn := 101, una := 100, outstanding := [({ psn := 100, msgid := 4, pkt := req 1 0 0x0000640000000000 0x0000000400000000 0 [], deadline := some 5, k := 1000 } : OutPkt)], ops := [({ started := true, msgid := 4, opcode := 1, report := 1, qn := 7, pos := 0, signal := true, dest := 1, firstPsn := 100 } : SendOp)] } : Chan) with tb := { now := 5 } },
    4, 100,
    ({ sendState := .active, nextPsn := 101, una := 100, outstanding := [({ psn := 100, msgid := 4, pkt := req 1 0 0x0000640000000000 0x0000000400000000 0 [], deadline := some 5, k := 1000 } : OutPkt)], ops := [({ started := true, msgid := 4, opcode := 1, report := 1, qn := 7, pos := 0, signal := true, dest := 1, firstPsn := 100 } : SendOp)] } : Chan),
    ({ psn := 100, msgid := 4, pkt := req 1 0 0x0000640000000000 0x0000000400000000 0 [], deadline := some 5, k := 1000 } : OutPkt),
    by decide +kernel⟩

theorem witness_RefusalsAndDeadlinesSendAgain_15 :
    ∃ (s : State) (ch : Nat) (psn : BitVec 24) (x : Chan) (o : OutPkt) (a : SendOp) (q : Queue) (cq : Queue),
    let due (f : OutPkt → Option Nat) : Bool := (((s.chip.chan? ch).bind fun x => x.out? psn).bind f).elim false fun t => decide (t ≤ s.chip.now);
    s.chip.chan? ch = some x ∧ x.out? psn = some o ∧ due OutPkt.deadline = true ∧ s.chip.param 0x21 0x032 0 < o.k + 1 ∧
    s.leaves (fun c => c.chanError ch) ∧ s.chip.clusterUp 2 = true ∧ s.chip.chansQuiet = true ∧
    s.chip.opAnswers ch x a q cq = true ∧ s.chip.openOffers ch x = [] :=
  ⟨st { peer ({ sendState := .active, nextPsn := 101, una := 100, outstanding := [({ psn := 100, msgid := 4, pkt := req 1 0 0x0000640000000000 0x0000000400000000 0 [], deadline := some 5, k := 1000 } : OutPkt)], ops := [({ started := true, msgid := 4, opcode := 1, report := 1, qn := 7, pos := 0, signal := true, dest := 1, firstPsn := 100 } : SendOp)] } : Chan) with tb := { now := 5 } },
    4, 100,
    ({ sendState := .active, nextPsn := 101, una := 100, outstanding := [({ psn := 100, msgid := 4, pkt := req 1 0 0x0000640000000000 0x0000000400000000 0 [], deadline := some 5, k := 1000 } : OutPkt)], ops := [({ started := true, msgid := 4, opcode := 1, report := 1, qn := 7, pos := 0, signal := true, dest := 1, firstPsn := 100 } : SendOp)] } : Chan),
    ({ psn := 100, msgid := 4, pkt := req 1 0 0x0000640000000000 0x0000000400000000 0 [], deadline := some 5, k := 1000 } : OutPkt),
    ({ started := true, msgid := 4, opcode := 1, report := 1, qn := 7, pos := 0, signal := true, dest := 1, firstPsn := 100 } : SendOp),
    ({ kind := .sq, cqn := 5, pi := 2 } : Queue), ({ kind := .cq, vecValid := true } : Queue), by decide +kernel⟩

theorem witness_RefusalsAndDeadlinesSendAgain_16 :
    ∃ (s : State) (ch : Nat) (psn : BitVec 24) (x : Chan) (o : OutPkt),
    let due (f : OutPkt → Option Nat) : Bool := (((s.chip.chan? ch).bind fun x => x.out? psn).bind f).elim false fun t => decide (t ≤ s.chip.now);
    s.chip.chan? ch = some x ∧ x.out? psn = some o ∧ due OutPkt.deadline = true ∧ s.chip.param 0x21 0x032 0 < o.k + 1 ∧
    s.serving ∧ s.chip.clusterUp 2 = false :=
  ⟨st { peer ({ sendState := .active, nextPsn := 101, una := 100, outstanding := [({ psn := 100, msgid := 4, pkt := req 1 0 0x0000640000000000 0x0000000400000000 0 [], deadline := some 5, k := 1000 } : OutPkt)], ops := [({ started := true, msgid := 4, opcode := 1, report := 1, qn := 7, pos := 0, signal := true, dest := 1, firstPsn := 100 } : SendOp)] } : Chan) with tb := { now := 5 }, fw := { clusters := [(2, 1)] } },
    4, 100,
    ({ sendState := .active, nextPsn := 101, una := 100, outstanding := [({ psn := 100, msgid := 4, pkt := req 1 0 0x0000640000000000 0x0000000400000000 0 [], deadline := some 5, k := 1000 } : OutPkt)], ops := [({ started := true, msgid := 4, opcode := 1, report := 1, qn := 7, pos := 0, signal := true, dest := 1, firstPsn := 100 } : SendOp)] } : Chan),
    ({ psn := 100, msgid := 4, pkt := req 1 0 0x0000640000000000 0x0000000400000000 0 [], deadline := some 5, k := 1000 } : OutPkt),
    by decide +kernel⟩

theorem witness_RefusalsAndDeadlinesSendAgain_17 :
    ∃ (s : State) (ch : Nat) (x : Chan), s.serving ∧ s.chip.chan? ch = some x ∧ x.sendState = .error ∧
    x.errorAt + s.chip.ageLimit ≤ s.chip.now ∧ x.ops ≠ [] :=
  ⟨st { peer ({ sendState := .error, nextPsn := 101, una := 100, outstanding := [], ops := [({ started := true, msgid := 4, opcode := 1, report := 1, qn := 7, pos := 0, signal := true, dest := 1 } : SendOp)] } : Chan) with tb := { now := 100000000000 } },
    4,
    ({ sendState := .error, nextPsn := 101, una := 100, outstanding := [], ops := [({ started := true, msgid := 4, opcode := 1, report := 1, qn := 7, pos := 0, signal := true, dest := 1 } : SendOp)] } : Chan),
    by decide +kernel⟩

/-! ResponsesArePlacedDelaysPass, clause by clause. -/

theorem witness_ResponsesArePlacedDelaysPass_1 :
    ∃ (s : State) (h : Nat) (p : Packet) (x : Chan), s.chip.hears h p x = true ∧ s.serving ∧
    (x.out? p.rpsn).elim true (fun o => o.pkt.opcode != 0x20 || (x.op? o.msgid).isNone) = true :=
  ⟨st (peer ({ sendState := .active, nextPsn := 101, una := 100, outstanding := [({ psn := 100, msgid := 4, pkt := req 1 0 0x0000640000000000 0x0000000400000000 0 [], deadline := some 5 } : OutPkt)], ops := [({ started := true, msgid := 4, opcode := 1, report := 1, qn := 7, pos := 0, signal := true, dest := 1 } : SendOp)] } : Chan)),
    0, resp 10 0x83 100 0 0x0000000000100002 0x0000000400000000 0 [9],
    ({ sendState := .active, nextPsn := 101, una := 100, outstanding := [({ psn := 100, msgid := 4, pkt := req 1 0 0x0000640000000000 0x0000000400000000 0 [], deadline := some 5 } : OutPkt)], ops := [({ started := true, msgid := 4, opcode := 1, report := 1, qn := 7, pos := 0, signal := true, dest := 1 } : SendOp)] } : Chan),
    by decide +kernel⟩

theorem witness_ResponsesArePlacedDelaysPass_2 :
    ∃ (s : State) (h : Nat) (p : Packet) (x : Chan), s.chip.hears h p x = true ∧ s.serving ∧
    ((x.out? p.rpsn).elim true (fun o => decide (o.pkt.opcode < 0x30 ∨ 0x33 < o.pkt.opcode)) = true) :=
  ⟨st (peer ({ sendState := .active, nextPsn := 101, una := 100, outstanding := [({ psn := 100, msgid := 4, pkt := req 1 0 0x0000640000000000 0x0000000400000000 0 [], deadline := some 5 } : OutPkt)], ops := [({ started := true, msgid := 4, opcode := 1, report := 1, qn := 7, pos := 0, signal := true, dest := 1 } : SendOp)] } : Chan)),
    0, resp 11 0x84 100 0 0 0 0 [0, 0, 0, 0, 0, 0, 0, 1],
    ({ sendState := .active, nextPsn := 101, una := 100, outstanding := [({ psn := 100, msgid := 4, pkt := req 1 0 0x0000640000000000 0x0000000400000000 0 [], deadline := some 5 } : OutPkt)], ops := [({ started := true, msgid := 4, opcode := 1, report := 1, qn := 7, pos := 0, signal := true, dest := 1 } : SendOp)] } : Chan),
    by decide +kernel⟩

theorem witness_ResponsesArePlacedDelaysPass_3 :
    ∃ (s : State) (h : Nat) (p : Packet) (x : Chan) (out : OutPkt) (o : SendOp),
    let wrong : Bool := p.pcnt != packetsOf o.length || decide (p.pcnt ≤ p.pidx) || p.payload.length != payloadLen o.length p.pidx;
    s.chip.hears h p x = true ∧ x.out? p.rpsn = some out ∧ x.op? out.msgid = some o ∧ out.pkt.opcode = 0x20 ∧ s.serving ∧
    wrong = true :=
  ⟨st { peer ({ sendState := .active, nextPsn := 101, una := 100, outstanding := [({ psn := 100, msgid := 4, needsResp := true, pkt := req 0x20 0 0x0000640000000000 0x0000000400000000 0 [] } : OutPkt)], ops := [({ started := true, msgid := 4, opcode := 0x20, report := 0x20, qn := 7, signal := true, dest := 1, length := 4097, lkey := 0xFEF00000, laddr := 64 } : SendOp)] } : Chan) with dict := { active := exported } },
    0, resp 10 0x83 100 0 0x0000000000100003 0x0000000400000000 0 [9],
    ({ sendState := .active, nextPsn := 101, una := 100, outstanding := [({ psn := 100, msgid := 4, needsResp := true, pkt := req 0x20 0 0x0000640000000000 0x0000000400000000 0 [] } : OutPkt)], ops := [({ started := true, msgid := 4, opcode := 0x20, report := 0x20, qn := 7, signal := true, dest := 1, length := 4097, lkey := 0xFEF00000, laddr := 64 } : SendOp)] } : Chan),
    ({ psn := 100, msgid := 4, needsResp := true, pkt := req 0x20 0 0x0000640000000000 0x0000000400000000 0 [] } : OutPkt),
    ({ started := true, msgid := 4, opcode := 0x20, report := 0x20, qn := 7, signal := true, dest := 1, length := 4097, lkey := 0xFEF00000, laddr := 64 } : SendOp),
    by decide +kernel⟩

theorem witness_ResponsesArePlacedDelaysPass_4 :
    ∃ (s : State) (h : Nat) (p : Packet) (x : Chan) (out : OutPkt) (o : SendOp),
    let wrong : Bool := p.pcnt != packetsOf o.length || decide (p.pcnt ≤ p.pidx) || p.payload.length != payloadLen o.length p.pidx;
    s.chip.hears h p x = true ∧ x.out? p.rpsn = some out ∧ x.op? out.msgid = some o ∧ out.pkt.opcode = 0x20 ∧ s.serving ∧
    wrong = false ∧ p.pidx ∈ o.got :=
  ⟨st { peer ({ sendState := .active, nextPsn := 101, una := 100, outstanding := [({ psn := 100, msgid := 4, needsResp := true, pkt := req 0x20 0 0x0000640000000000 0x0000000400000000 0 [] } : OutPkt)], ops := [({ started := true, msgid := 4, opcode := 0x20, report := 0x20, qn := 7, signal := true, dest := 1, length := 4097, lkey := 0xFEF00000, laddr := 64, got := [1] } : SendOp)] } : Chan) with dict := { active := exported } },
    0, resp 10 0x83 100 0 0x0000000000100002 0x0000000400000000 0 [9],
    ({ sendState := .active, nextPsn := 101, una := 100, outstanding := [({ psn := 100, msgid := 4, needsResp := true, pkt := req 0x20 0 0x0000640000000000 0x0000000400000000 0 [] } : OutPkt)], ops := [({ started := true, msgid := 4, opcode := 0x20, report := 0x20, qn := 7, signal := true, dest := 1, length := 4097, lkey := 0xFEF00000, laddr := 64, got := [1] } : SendOp)] } : Chan),
    ({ psn := 100, msgid := 4, needsResp := true, pkt := req 0x20 0 0x0000640000000000 0x0000000400000000 0 [] } : OutPkt),
    ({ started := true, msgid := 4, opcode := 0x20, report := 0x20, qn := 7, signal := true, dest := 1, length := 4097, lkey := 0xFEF00000, laddr := 64, got := [1] } : SendOp),
    by decide +kernel⟩

theorem witness_ResponsesArePlacedDelaysPass_5a :
    ∃ (s : State) (h : Nat) (p : Packet) (x : Chan) (out : OutPkt) (o : SendOp),
    let wrong : Bool := p.pcnt != packetsOf o.length || decide (p.pcnt ≤ p.pidx) || p.payload.length != payloadLen o.length p.pidx;
    s.chip.hears h p x = true ∧ x.out? p.rpsn = some out ∧ x.op? out.msgid = some o ∧ out.pkt.opcode = 0x20 ∧
    s.leaves (fun c => c.takeReadData h p) ∧ wrong = false ∧ p.pidx ∉ o.got ∧ o.got.length + 1 ≠ p.pcnt :=
  ⟨st { peer ({ sendState := .active, nextPsn := 101, una := 100, outstanding := [({ psn := 100, msgid := 4, needsResp := true, pkt := req 0x20 0 0x0000640000000000 0x0000000400000000 0 [] } : OutPkt)], ops := [({ started := true, msgid := 4, opcode := 0x20, report := 0x20, qn := 7, signal := true, dest := 1, length := 4097, lkey := 0xFEF00000, laddr := 64 } : SendOp)] } : Chan) with dict := { active := exported } },
    0, resp 10 0x83 100 0 0x0000000000100002 0x0000000400000000 0 [9],
    ({ sendState := .active, nextPsn := 101, una := 100, outstanding := [({ psn := 100, msgid := 4, needsResp := true, pkt := req 0x20 0 0x0000640000000000 0x0000000400000000 0 [] } : OutPkt)], ops := [({ started := true, msgid := 4, opcode := 0x20, report := 0x20, qn := 7, signal := true, dest := 1, length := 4097, lkey := 0xFEF00000, laddr := 64 } : SendOp)] } : Chan),
    ({ psn := 100, msgid := 4, needsResp := true, pkt := req 0x20 0 0x0000640000000000 0x0000000400000000 0 [] } : OutPkt),
    ({ started := true, msgid := 4, opcode := 0x20, report := 0x20, qn := 7, signal := true, dest := 1, length := 4097, lkey := 0xFEF00000, laddr := 64 } : SendOp),
    by decide +kernel⟩

theorem witness_ResponsesArePlacedDelaysPass_5b :
    ∃ (s : State) (h : Nat) (p : Packet) (x : Chan) (out : OutPkt) (o : SendOp),
    let wrong : Bool := p.pcnt != packetsOf o.length || decide (p.pcnt ≤ p.pidx) || p.payload.length != payloadLen o.length p.pidx;
    s.chip.hears h p x = true ∧ x.out? p.rpsn = some out ∧ x.op? out.msgid = some o ∧ out.pkt.opcode = 0x20 ∧
    s.leaves (fun c => c.takeReadData h p) ∧ wrong = false ∧ p.pidx ∉ o.got ∧ o.got.length + 1 ≠ p.pcnt :=
  ⟨st { peer ({ sendState := .active, nextPsn := 101, una := 100, outstanding := [({ psn := 100, msgid := 4, needsResp := true, pkt := req 0x20 0 0x0000640000000000 0x0000000400000000 0 [] } : OutPkt)], ops := [({ started := true, msgid := 4, opcode := 0x20, report := 0x20, qn := 7, signal := true, dest := 1, length := 4097, lkey := 0x100, laddr := 64 } : SendOp)] } : Chan) with dict := { active := exported } },
    0, resp 10 0x83 100 0 0x0000000000100002 0x0000000400000000 0 [9],
    ({ sendState := .active, nextPsn := 101, una := 100, outstanding := [({ psn := 100, msgid := 4, needsResp := true, pkt := req 0x20 0 0x0000640000000000 0x0000000400000000 0 [] } : OutPkt)], ops := [({ started := true, msgid := 4, opcode := 0x20, report := 0x20, qn := 7, signal := true, dest := 1, length := 4097, lkey := 0x100, laddr := 64 } : SendOp)] } : Chan),
    ({ psn := 100, msgid := 4, needsResp := true, pkt := req 0x20 0 0x0000640000000000 0x0000000400000000 0 [] } : OutPkt),
    ({ started := true, msgid := 4, opcode := 0x20, report := 0x20, qn := 7, signal := true, dest := 1, length := 4097, lkey := 0x100, laddr := 64 } : SendOp),
    by decide +kernel⟩

theorem witness_ResponsesArePlacedDelaysPass_5c :
    ∃ (s : State) (h : Nat) (p : Packet) (x : Chan) (out : OutPkt) (o : SendOp),
    let wrong : Bool := p.pcnt != packetsOf o.length || decide (p.pcnt ≤ p.pidx) || p.payload.length != payloadLen o.length p.pidx;
    s.chip.hears h p x = true ∧ x.out? p.rpsn = some out ∧ x.op? out.msgid = some o ∧ out.pkt.opcode = 0x20 ∧
    s.leaves (fun c => c.takeReadData h p) ∧ wrong = false ∧ p.pidx ∉ o.got ∧ o.got.length + 1 ≠ p.pcnt :=
  ⟨st { peer ({ sendState := .active, nextPsn := 101, una := 100, outstanding := [({ psn := 100, msgid := 4, needsResp := true, pkt := req 0x20 0 0x0000640000000000 0x0000000400000000 0 [] } : OutPkt)], ops := [({ started := true, msgid := 4, opcode := 0x20, report := 0x20, qn := 7, signal := true, dest := 1, length := 4097, lkey := 0x100, laddr := 0x1000 } : SendOp)] } : Chan) with dict := { active := exported } },
    0, resp 10 0x83 100 0 0x0000000000100002 0x0000000400000000 0 [9],
    ({ sendState := .active, nextPsn := 101, una := 100, outstanding := [({ psn := 100, msgid := 4, needsResp := true, pkt := req 0x20 0 0x0000640000000000 0x0000000400000000 0 [] } : OutPkt)], ops := [({ started := true, msgid := 4, opcode := 0x20, report := 0x20, qn := 7, signal := true, dest := 1, length := 4097, lkey := 0x100, laddr := 0x1000 } : SendOp)] } : Chan),
    ({ psn := 100, msgid := 4, needsResp := true, pkt := req 0x20 0 0x0000640000000000 0x0000000400000000 0 [] } : OutPkt),
    ({ started := true, msgid := 4, opcode := 0x20, report := 0x20, qn := 7, signal := true, dest := 1, length := 4097, lkey := 0x100, laddr := 0x1000 } : SendOp),
    by decide +kernel⟩

theorem witness_ResponsesArePlacedDelaysPass_5d :
    ∃ (s : State) (h : Nat) (p : Packet) (x : Chan) (out : OutPkt) (o : SendOp),
    let wrong : Bool := p.pcnt != packetsOf o.length || decide (p.pcnt ≤ p.pidx) || p.payload.length != payloadLen o.length p.pidx;
    s.chip.hears h p x = true ∧ x.out? p.rpsn = some out ∧ x.op? out.msgid = some o ∧ out.pkt.opcode = 0x20 ∧
    s.leaves (fun c => c.takeReadData h p) ∧ wrong = false ∧ p.pidx ∉ o.got ∧ o.got.length + 1 ≠ p.pcnt :=
  ⟨st { peer ({ sendState := .active, nextPsn := 101, una := 100, outstanding := [({ psn := 100, msgid := 4, needsResp := true, pkt := req 0x20 0 0x0000640000000000 0x0000000400000000 0 [] } : OutPkt)], ops := [({ started := true, msgid := 4, opcode := 0x20, report := 0x20, qn := 7, signal := true, dest := 1, length := 4097, lkey := 0xFEF00000, laddr := 64, fn := 77 } : SendOp)] } : Chan) with dict := { active := exported } },
    0, resp 10 0x83 100 0 0x0000000000100002 0x0000000400000000 0 [9],
    ({ sendState := .active, nextPsn := 101, una := 100, outstanding := [({ psn := 100, msgid := 4, needsResp := true, pkt := req 0x20 0 0x0000640000000000 0x0000000400000000 0 [] } : OutPkt)], ops := [({ started := true, msgid := 4, opcode := 0x20, report := 0x20, qn := 7, signal := true, dest := 1, length := 4097, lkey := 0xFEF00000, laddr := 64, fn := 77 } : SendOp)] } : Chan),
    ({ psn := 100, msgid := 4, needsResp := true, pkt := req 0x20 0 0x0000640000000000 0x0000000400000000 0 [] } : OutPkt),
    ({ started := true, msgid := 4, opcode := 0x20, report := 0x20, qn := 7, signal := true, dest := 1, length := 4097, lkey := 0xFEF00000, laddr := 64, fn := 77 } : SendOp),
    by decide +kernel⟩

theorem witness_ResponsesArePlacedDelaysPass_5e :
    ∃ (s : State) (h : Nat) (p : Packet) (x : Chan) (out : OutPkt) (o : SendOp),
    let wrong : Bool := p.pcnt != packetsOf o.length || decide (p.pcnt ≤ p.pidx) || p.payload.length != payloadLen o.length p.pidx;
    s.chip.hears h p x = true ∧ x.out? p.rpsn = some out ∧ x.op? out.msgid = some o ∧ out.pkt.opcode = 0x20 ∧
    s.leaves (fun c => c.takeReadData h p) ∧ wrong = false ∧ p.pidx ∉ o.got ∧ o.got.length + 1 ≠ p.pcnt :=
  ⟨st { peer ({ sendState := .active, nextPsn := 101, una := 100, outstanding := [({ psn := 100, msgid := 4, needsResp := true, pkt := req 0x20 0 0x0000640000000000 0x0000000400000000 0 [] } : OutPkt)], ops := [({ started := true, msgid := 4, opcode := 0x20, report := 0x20, qn := 7, signal := true, dest := 1, length := 4097, lkey := 0xFEF00000, laddr := 64, window := some 3 } : SendOp)] } : Chan) with dict := { active := exported } },
    0, resp 10 0x83 100 0 0x0000000000100002 0x0000000400000000 0 [9],
    ({ sendState := .active, nextPsn := 101, una := 100, outstanding := [({ psn := 100, msgid := 4, needsResp := true, pkt := req 0x20 0 0x0000640000000000 0x0000000400000000 0 [] } : OutPkt)], ops := [({ started := true, msgid := 4, opcode := 0x20, report := 0x20, qn := 7, signal := true, dest := 1, length := 4097, lkey := 0xFEF00000, laddr := 64, window := some 3 } : SendOp)] } : Chan),
    ({ psn := 100, msgid := 4, needsResp := true, pkt := req 0x20 0 0x0000640000000000 0x0000000400000000 0 [] } : OutPkt),
    ({ started := true, msgid := 4, opcode := 0x20, report := 0x20, qn := 7, signal := true, dest := 1, length := 4097, lkey := 0xFEF00000, laddr := 64, window := some 3 } : SendOp),
    by decide +kernel⟩

theorem witness_ResponsesArePlacedDelaysPass_6a :
    ∃ (s : State) (h : Nat) (p : Packet) (x : Chan) (out : OutPkt) (o : SendOp),
    let wrong : Bool := p.pcnt != packetsOf o.length || decide (p.pcnt ≤ p.pidx) || p.payload.length != payloadLen o.length p.pidx;
    s.chip.hears h p x = true ∧ x.out? p.rpsn = some out ∧ x.op? out.msgid = some o ∧ out.pkt.opcode = 0x20 ∧
    s.leaves (fun c => c.takeReadData h p) ∧ wrong = false ∧ p.pidx ∉ o.got ∧ o.got.length + 1 = p.pcnt ∧
    s.chip.chansQuiet = true ∧ o.window = none :=
  ⟨st { peer ({ sendState := .active, nextPsn := 101, una := 100, outstanding := [({ psn := 100, msgid := 4, needsResp := true, pkt := req 0x20 0 0x0000640000000000 0x0000000400000000 0 [] } : OutPkt)], ops := [({ started := true, msgid := 4, opcode := 0x20, report := 0x20, qn := 7, signal := true, dest := 1, length := 4097, lkey := 0xFEF00000, laddr := 64, got := [0] } : SendOp)] } : Chan) with dict := { active := exported } },
    0, resp 10 0x83 100 0 0x0000000000100002 0x0000000400000000 0 [9],
    ({ sendState := .active, nextPsn := 101, una := 100, outstanding := [({ psn := 100, msgid := 4, needsResp := true, pkt := req 0x20 0 0x0000640000000000 0x0000000400000000 0 [] } : OutPkt)], ops := [({ started := true, msgid := 4, opcode := 0x20, report := 0x20, qn := 7, signal := true, dest := 1, length := 4097, lkey := 0xFEF00000, laddr := 64, got := [0] } : SendOp)] } : Chan),
    ({ psn := 100, msgid := 4, needsResp := true, pkt := req 0x20 0 0x0000640000000000 0x0000000400000000 0 [] } : OutPkt),
    ({ started := true, msgid := 4, opcode := 0x20, report := 0x20, qn := 7, signal := true, dest := 1, length := 4097, lkey := 0xFEF00000, laddr := 64, got := [0] } : SendOp),
    by decide +kernel⟩

theorem witness_ResponsesArePlacedDelaysPass_6b :
    ∃ (s : State) (h : Nat) (p : Packet) (x : Chan) (out : OutPkt) (o : SendOp),
    let wrong : Bool := p.pcnt != packetsOf o.length || decide (p.pcnt ≤ p.pidx) || p.payload.length != payloadLen o.length p.pidx;
    s.chip.hears h p x = true ∧ x.out? p.rpsn = some out ∧ x.op? out.msgid = some o ∧ out.pkt.opcode = 0x20 ∧
    s.leaves (fun c => c.takeReadData h p) ∧ wrong = false ∧ p.pidx ∉ o.got ∧ o.got.length + 1 = p.pcnt ∧
    s.chip.chansQuiet = true ∧ o.window = none :=
  ⟨st { peer ({ sendState := .active, nextPsn := 101, una := 100, outstanding := [({ psn := 100, msgid := 4, needsResp := true, pkt := req 0x20 0 0x0000640000000000 0x0000000400000000 0 [] } : OutPkt)], ops := [({ started := true, msgid := 4, opcode := 0x20, report := 0x20, qn := 7, signal := true, dest := 1, length := 4097, lkey := 0x100, laddr := 64, got := [0] } : SendOp)] } : Chan) with dict := { active := exported } },
    0, resp 10 0x83 100 0 0x0000000000100002 0x0000000400000000 0 [9],
    ({ sendState := .active, nextPsn := 101, una := 100, outstanding := [({ psn := 100, msgid := 4, needsResp := true, pkt := req 0x20 0 0x0000640000000000 0x0000000400000000 0 [] } : OutPkt)], ops := [({ started := true, msgid := 4, opcode := 0x20, report := 0x20, qn := 7, signal := true, dest := 1, length := 4097, lkey := 0x100, laddr := 64, got := [0] } : SendOp)] } : Chan),
    ({ psn := 100, msgid := 4, needsResp := true, pkt := req 0x20 0 0x0000640000000000 0x0000000400000000 0 [] } : OutPkt),
    ({ started := true, msgid := 4, opcode := 0x20, report := 0x20, qn := 7, signal := true, dest := 1, length := 4097, lkey := 0x100, laddr := 64, got := [0] } : SendOp),
    by decide +kernel⟩

theorem witness_ResponsesArePlacedDelaysPass_7 :
    ∃ (s : State) (h : Nat) (p : Packet) (x : Chan) (out : OutPkt) (o : SendOp) (q : Queue) (cq : Queue),
    let k := respKey h p;
    let wrong : Bool := p.pcnt != packetsOf o.length || decide (p.pcnt ≤ p.pidx) || p.payload.length != payloadLen o.length p.pidx;
    let check := s.chip.localCheck o.fn o.lkey (o.laddr + 4096 * p.pidx) p.payload.length true;
    let bad := (s.chip.place check p.payload 2).2; s.chip.hears h p x = true ∧ x.out? p.rpsn = some out ∧
    x.op? out.msgid = some o ∧ out.pkt.opcode = 0x20 ∧ s.leaves (fun c => c.takeReadData h p) ∧ wrong = false ∧
    p.pidx ∉ o.got ∧ o.got.length + 1 = p.pcnt ∧ s.chip.chansQuiet = true ∧ s.chip.goneFn o.fn = false ∧ bad = none ∧
    s.chip.opAnswers k x o q cq = true ∧ x.outstanding = [out] :=
  ⟨st { peer ({ sendState := .active, nextPsn := 101, una := 100, outstanding := [({ psn := 100, msgid := 4, needsResp := true, pkt := req 0x20 0 0x0000640000000000 0x0000000400000000 0 [] } : OutPkt)], ops := [({ started := true, msgid := 4, opcode := 0x20, report := 0x20, qn := 7, signal := true, dest := 1, length := 4097, lkey := 0xFEF00000, laddr := 64, got := [0] } : SendOp)] } : Chan) with dict := { active := exported } },
    0, resp 10 0x83 100 0 0x0000000000100002 0x0000000400000000 0 [9],
    ({ sendState := .active, nextPsn := 101, una := 100, outstanding := [({ psn := 100, msgid := 4, needsResp := true, pkt := req 0x20 0 0x0000640000000000 0x0000000400000000 0 [] } : OutPkt)], ops := [({ started := true, msgid := 4, opcode := 0x20, report := 0x20, qn := 7, signal := true, dest := 1, length := 4097, lkey := 0xFEF00000, laddr := 64, got := [0] } : SendOp)] } : Chan),
    ({ psn := 100, msgid := 4, needsResp := true, pkt := req 0x20 0 0x0000640000000000 0x0000000400000000 0 [] } : OutPkt),
    ({ started := true, msgid := 4, opcode := 0x20, report := 0x20, qn := 7, signal := true, dest := 1, length := 4097, lkey := 0xFEF00000, laddr := 64, got := [0] } : SendOp),
    ({ kind := .sq, cqn := 5, pi := 2 } : Queue), ({ kind := .cq, vecValid := true } : Queue), by decide +kernel⟩

theorem witness_ResponsesArePlacedDelaysPass_8 :
    ∃ (s : State) (h : Nat) (p : Packet) (x : Chan) (out : OutPkt) (o : SendOp), s.chip.hears h p x = true ∧
    x.out? p.rpsn = some out ∧ x.op? out.msgid = some o ∧ 0x30 ≤ out.pkt.opcode ∧ out.pkt.opcode ≤ 0x33 ∧ s.serving ∧
    p.payload.length ≠ atomicBytes out.pkt.opcode :=
  ⟨st (peer ({ sendState := .active, nextPsn := 101, una := 100, outstanding := [({ psn := 100, msgid := 4, needsResp := true, pkt := req 0x30 0 0x0000640000000000 0x0000000400000000 0 [0, 0, 0, 0, 0, 0, 0, 1] } : OutPkt)], ops := [({ started := true, msgid := 4, opcode := 0x30, report := 0x30, qn := 7, signal := true, dest := 1, length := 8 } : SendOp)] } : Chan)),
    0, resp 11 0x84 100 0 0 0 0 [0, 0, 0, 0, 0, 0, 0, 0, 0, 0, 0, 0, 0, 0, 0, 0],
    ({ sendState := .active, nextPsn := 101, una := 100, outstanding := [({ psn := 100, msgid := 4, needsResp := true, pkt := req 0x30 0 0x0000640000000000 0x0000000400000000 0 [0, 0, 0, 0, 0, 0, 0, 1] } : OutPkt)], ops := [({ started := true, msgid := 4, opcode := 0x30, report := 0x30, qn := 7, signal := true, dest := 1, length := 8 } : SendOp)] } : Chan),
    ({ psn := 100, msgid := 4, needsResp := true, pkt := req 0x30 0 0x0000640000000000 0x0000000400000000 0 [0, 0, 0, 0, 0, 0, 0, 1] } : OutPkt),
    ({ started := true, msgid := 4, opcode := 0x30, report := 0x30, qn := 7, signal := true, dest := 1, length := 8 } : SendOp),
    by decide +kernel⟩

theorem witness_ResponsesArePlacedDelaysPass_9 :
    ∃ (s : State) (h : Nat) (p : Packet) (x : Chan) (out : OutPkt) (o : SendOp), s.chip.hears h p x = true ∧
    x.out? p.rpsn = some out ∧ x.op? out.msgid = some o ∧ 0x30 ≤ out.pkt.opcode ∧ out.pkt.opcode ≤ 0x33 ∧
    s.leaves (fun c => c.takeAtomicResult h p) ∧ p.payload.length = atomicBytes out.pkt.opcode ∧ s.chip.chansQuiet = true :=
  ⟨st (peer ({ sendState := .active, nextPsn := 101, una := 100, outstanding := [({ psn := 100, msgid := 4, needsResp := true, pkt := req 0x30 0 0x0000640000000000 0x0000000400000000 0 [0, 0, 0, 0, 0, 0, 0, 1] } : OutPkt)], ops := [({ started := true, msgid := 4, opcode := 0x30, report := 0x30, qn := 7, signal := true, dest := 1, length := 8 } : SendOp)] } : Chan)),
    0, resp 11 0x84 100 0 0 0 0 [0, 0, 0, 0, 0, 0, 0, 0],
    ({ sendState := .active, nextPsn := 101, una := 100, outstanding := [({ psn := 100, msgid := 4, needsResp := true, pkt := req 0x30 0 0x0000640000000000 0x0000000400000000 0 [0, 0, 0, 0, 0, 0, 0, 1] } : OutPkt)], ops := [({ started := true, msgid := 4, opcode := 0x30, report := 0x30, qn := 7, signal := true, dest := 1, length := 8 } : SendOp)] } : Chan),
    ({ psn := 100, msgid := 4, needsResp := true, pkt := req 0x30 0 0x0000640000000000 0x0000000400000000 0 [0, 0, 0, 0, 0, 0, 0, 1] } : OutPkt),
    ({ started := true, msgid := 4, opcode := 0x30, report := 0x30, qn := 7, signal := true, dest := 1, length := 8 } : SendOp),
    by decide +kernel⟩

theorem witness_ResponsesArePlacedDelaysPass_10 :
    ∃ (s : State) (h : Nat) (p : Packet) (x : Chan) (out : OutPkt) (o : SendOp) (q : Queue) (cq : Queue),
    let k := respKey h p; s.chip.hears h p x = true ∧ x.out? p.rpsn = some out ∧ x.op? out.msgid = some o ∧
    0x30 ≤ out.pkt.opcode ∧ out.pkt.opcode ≤ 0x33 ∧ s.leaves (fun c => c.takeAtomicResult h p) ∧
    p.payload.length = atomicBytes out.pkt.opcode ∧ s.chip.chansQuiet = true ∧ s.chip.opAnswers k x o q cq = true ∧
    x.outstanding = [out] :=
  ⟨st (peer ({ sendState := .active, nextPsn := 101, una := 100, outstanding := [({ psn := 100, msgid := 4, needsResp := true, pkt := req 0x30 0 0x0000640000000000 0x0000000400000000 0 [0, 0, 0, 0, 0, 0, 0, 1] } : OutPkt)], ops := [({ started := true, msgid := 4, opcode := 0x30, report := 0x30, qn := 7, signal := true, dest := 1, length := 8 } : SendOp)] } : Chan)),
    0, resp 11 0x84 100 0 0 0 0 [9, 9, 9, 9, 9, 9, 9, 9],
    ({ sendState := .active, nextPsn := 101, una := 100, outstanding := [({ psn := 100, msgid := 4, needsResp := true, pkt := req 0x30 0 0x0000640000000000 0x0000000400000000 0 [0, 0, 0, 0, 0, 0, 0, 1] } : OutPkt)], ops := [({ started := true, msgid := 4, opcode := 0x30, report := 0x30, qn := 7, signal := true, dest := 1, length := 8 } : SendOp)] } : Chan),
    ({ psn := 100, msgid := 4, needsResp := true, pkt := req 0x30 0 0x0000640000000000 0x0000000400000000 0 [0, 0, 0, 0, 0, 0, 0, 1] } : OutPkt),
    ({ started := true, msgid := 4, opcode := 0x30, report := 0x30, qn := 7, signal := true, dest := 1, length := 8 } : SendOp),
    ({ kind := .sq, cqn := 5, pi := 2 } : Queue), ({ kind := .cq, vecValid := true } : Queue), by decide +kernel⟩

theorem witness_ResponsesArePlacedDelaysPass_11 :
    ∃ (s : State) (ch : Nat) (x : Chan),
    let waits (x : Chan) : Bool := !x.unacked.isEmpty && decide (x.ackSince + s.chip.param 0x21 0x037 0 ≤ s.chip.now);
    s.serving ∧ s.chip.chan? ch = some x ∧ waits x = true :=
  ⟨st { peer { unacked := [1], base := 5 } with tb := { now := 100000 } }, 4, { unacked := [1], base := 5 },
    by decide +kernel⟩

theorem witness_ResponsesArePlacedDelaysPass_12 :
    ∃ (s : State) (ch : Nat),
    let waits (x : Chan) : Bool := !x.unacked.isEmpty && decide (x.ackSince + s.chip.param 0x21 0x037 0 ≤ s.chip.now);
    s.serving ∧ (s.chip.chan? ch).elim false waits = false :=
  ⟨st (peer {}), 4, by decide +kernel⟩

theorem witness_ResponsesArePlacedDelaysPass_13 :
    ∃ (s : State) (ch : Nat) (x : Chan),
    let idle (x : Chan) : Bool := x.atomicBlock && x.atomics.head?.elim true (fun a => decide (a.since + 1000 * s.chip.retransmitTime + s.chip.ageLimit < s.chip.now)) && s.chip.tr.hostReads.all (fun r => r.pkt.kind != 4 || reqKey r.host r.pkt != ch);
    s.serving ∧ s.chip.chan? ch = some x ∧ idle x = true :=
  ⟨st { peer { atomicBlock := true, atomics := [{}] } with tb := { now := 1000000000000 } }, 4,
    { atomicBlock := true, atomics := [{}] }, by decide +kernel⟩

theorem witness_ResponsesArePlacedDelaysPass_14 :
    ∃ (s : State) (ch : Nat),
    let idle (x : Chan) : Bool := x.atomicBlock && x.atomics.head?.elim true (fun a => decide (a.since + 1000 * s.chip.retransmitTime + s.chip.ageLimit < s.chip.now)) && s.chip.tr.hostReads.all (fun r => r.pkt.kind != 4 || reqKey r.host r.pkt != ch);
    s.serving ∧ (s.chip.chan? ch).elim false idle = false :=
  ⟨st (peer {}), 4, by decide +kernel⟩

/-! RequestsAreAdmitted, clause by clause. -/

theorem witness_RequestsAreAdmitted_1 :
    ∃ (s : State), s.serving :=
  ⟨st node, by decide +kernel⟩

theorem witness_RequestsAreAdmitted_2 :
    ∃ (s : State) (p : Packet), s.serving ∧ p.checkOk = false :=
  ⟨st node, newPacket 2 5 0 1 false 0x4080000000000000 0 0 0 [], by decide +kernel⟩

theorem witness_RequestsAreAdmitted_3 :
    ∃ (s : State) (h : Nat) (p : Packet), s.serving ∧ p.checkOk = true ∧ s.chip.hostEnabled h = false :=
  ⟨st { node with boot := { phase := .jig } }, 9, req 64 0 0x0000640000000001 0x0000000400000007 0 [], by decide +kernel⟩

theorem witness_RequestsAreAdmitted_4 :
    ∃ (s : State) (h : Nat) (p : Packet), let k := reqKey h p; s.serving ∧ p.checkOk = true ∧ s.chip.hostEnabled h = true ∧
    s.chip.chan? k = none ∧ s.chip.clusterUp 2 = false :=
  ⟨st { node with fw := { clusters := [(2, 1)] } }, 0, req 64 0 0x0000640000000001 0x0000000400000007 0 [],
    by decide +kernel⟩

theorem witness_RequestsAreAdmitted_5a :
    ∃ (s : State) (h : Nat) (p : Packet) (miss : Option CtxKey) (x : Chan) (ctx : CtxKey), let k := reqKey h p;
    s.leaves (fun c => c.takeRequest h p miss) ∧ p.checkOk = true ∧ s.chip.hostEnabled h = true ∧ s.chip.chan? k = some x ∧
    s.chip.missed? h k p miss = some ctx :=
  ⟨st (peer half), 0, req 64 0 0x0000640000000001 0x0000000400000007 0 [], none, half, .channel 4, by decide +kernel⟩

theorem witness_RequestsAreAdmitted_5b :
    ∃ (s : State) (h : Nat) (p : Packet) (miss : Option CtxKey) (x : Chan) (ctx : CtxKey), let k := reqKey h p;
    s.leaves (fun c => c.takeRequest h p miss) ∧ p.checkOk = true ∧ s.chip.hostEnabled h = true ∧ s.chip.chan? k = some x ∧
    s.chip.missed? h k p miss = some ctx :=
  ⟨st { near half with tr := { chans := [(4, half)], parked := List.replicate 64 (.channel 4, 0, req 64 0 0x0000640000000001 0x0000000400000007 0 []) } },
    0, req 64 0 0x0000640000000001 0x0000000400000007 0 [], none, half, .channel 4, by decide +kernel⟩

theorem witness_RequestsAreAdmitted_5c :
    ∃ (s : State) (h : Nat) (p : Packet) (miss : Option CtxKey) (x : Chan) (ctx : CtxKey), let k := reqKey h p;
    s.leaves (fun c => c.takeRequest h p miss) ∧ p.checkOk = true ∧ s.chip.hostEnabled h = true ∧ s.chip.chan? k = some x ∧
    s.chip.missed? h k p miss = some ctx :=
  ⟨st (near half), 0, req 32 0 0x0000640000000001 0x0000000400000100 0 [], some (.translation 1), half, .translation 1,
    by decide +kernel⟩

theorem witness_RequestsAreAdmitted_6 :
    ∃ (s : State) (h : Nat) (p : Packet) (miss : Option CtxKey) (x : Chan), s.leaves (fun c => c.takeRequest h p miss) ∧
    s.chip.reaches h p miss x = true ∧ x.synced = false ∧ isSync p = false ∧
    (p.kind != 1 || p.opcode == 1 || s.chip.mt.waiting.all fun r => waitCtx r != ctxKey h p.mctx) = true :=
  ⟨st (near { recvOpen := true }), 0, req 64 0 0x0000640000000001 0x0000000400000007 0 [], none, { recvOpen := true },
    by decide +kernel⟩

theorem witness_RequestsAreAdmitted_7a :
    ∃ (s : State) (h : Nat) (p : Packet) (miss : Option CtxKey) (x : Chan), s.leaves (fun c => c.takeRequest h p miss) ∧
    s.chip.reaches h p miss x = true ∧ x.synced = true ∧ isSync p = false ∧ p.malformed = true ∧ x.ordWaiting = [] :=
  ⟨st (near half), 0, req 64 0 0x0000640000000000 0x0000000400000000 0 [], none, half, by decide +kernel⟩

theorem witness_RequestsAreAdmitted_7b :
    ∃ (s : State) (h : Nat) (p : Packet) (miss : Option CtxKey) (x : Chan), s.leaves (fun c => c.takeRequest h p miss) ∧
    s.chip.reaches h p miss x = true ∧ x.synced = true ∧ isSync p = false ∧ p.malformed = true ∧ x.ordWaiting = [] :=
  ⟨st (near half), 0, req 64 0 0x0000630000000000 0x0000000400000000 0 [], none, half, by decide +kernel⟩

theorem witness_RequestsAreAdmitted_8 :
    ∃ (s : State) (h : Nat) (p : Packet) (miss : Option CtxKey) (x : Chan), s.leaves (fun c => c.takeRequest h p miss) ∧
    s.chip.reachesOpen h p miss x = true ∧ 1024 ≤ (p.psn - x.base).toNat ∧ (p.psn - x.base).toNat < 2 ^ 23 :=
  ⟨st (near half), 0, req 64 0 0x0008340000000001 0x0000000400000007 0 [], none, half, by decide +kernel⟩

theorem witness_RequestsAreAdmitted_9 :
    ∃ (s : State) (h : Nat) (p : Packet) (miss : Option CtxKey) (x : Chan), s.leaves (fun c => c.takeRequest h p miss) ∧
    s.chip.reachesOpen h p miss x = true ∧ x.fresh p = true ∧ p.ord = true ∧ p.psn ≠ x.base :=
  ⟨st (near half), 0, (newPacket 2 5 0 1 true 0x4080000000000000 0x0000690000000001 0x0000000400000007 0 []).sealed, none,
    half, by decide +kernel⟩

theorem witness_RequestsAreAdmitted_10 :
    ∃ (s : State) (h : Nat) (p : Packet) (miss : Option CtxKey) (x : Chan), let new := (x.msg? p.msgid).isNone;
    let past := 2 ^ 31 ≤ (p.msgid - x.nextDone).toNat; s.leaves (fun c => c.takeRequest h p miss) ∧
    s.chip.reachesOpen h p miss x = true ∧ x.fresh p = true ∧ (!p.ord || p.psn == x.base) = true ∧ x.ordWaiting = [] ∧
    new = true ∧ past :=
  ⟨st (near half), 0, req 64 0 0x0000640000000001 0x0000000300000007 0 [], none, half, by decide +kernel⟩

theorem witness_RequestsAreAdmitted_11 :
    ∃ (s : State) (h : Nat) (p : Packet) (miss : Option CtxKey) (x : Chan), let new := (x.msg? p.msgid).isNone;
    let past := 2 ^ 31 ≤ (p.msgid - x.nextDone).toNat; s.leaves (fun c => c.takeRequest h p miss) ∧
    s.chip.reachesOpen h p miss x = true ∧ x.fresh p = true ∧ (!p.ord || p.psn == x.base) = true ∧ x.ordWaiting = [] ∧
    ((new = true → ¬past)) ∧ (s.chip.ownersOf h p).any s.chip.goneFn = true :=
  ⟨st { near half with tg := { ctrs := [(7, { owner := 77 })] } }, 0, req 64 0 0x0000640000000001 0x0000000400000007 0 [],
    none, half, by decide +kernel⟩

theorem witness_RequestsAreAdmitted_12 :
    ∃ (s : State) (h : Nat) (p : Packet) (miss : Option CtxKey) (x : Chan), let new := (x.msg? p.msgid).isNone;
    let past := 2 ^ 31 ≤ (p.msgid - x.nextDone).toNat; s.leaves (fun c => c.takeRequest h p miss) ∧
    s.chip.reachesOpen h p miss x = true ∧ x.fresh p = true ∧ (!p.ord || p.psn == x.base) = true ∧ x.ordWaiting = [] ∧
    new = true ∧ ¬past ∧ (s.chip.ownersOf h p).any s.chip.goneFn = false ∧ s.chip.orderFull x p.msgid = true :=
  ⟨st { near half with tr := { chans := (4, half) :: List.replicate 64 (8, { recorded := List.replicate 2048 0 }), resident := [.channel 4] } },
    0, req 64 0 0x0000640000000001 0x0000000500000007 0 [], none, half, by decide +kernel⟩

theorem witness_RequestsAreAdmitted_13 :
    ∃ (s : State) (h : Nat) (p : Packet) (miss : Option CtxKey) (x : Chan), s.leaves (fun c => c.takeRequest h p miss) ∧
    s.chip.reachesOpen h p miss x = true ∧
    ((2 ^ 23 ≤ (p.psn - x.base).toNat ∨ x.fresh p = false ∧ (p.psn - x.base).toNat < 1024)) :=
  ⟨st (near half), 0, req 64 0 0x0000630000000001 0x0000000400000007 0 [], none, half, by decide +kernel⟩

theorem witness_RequestsAreAdmitted_14 :
    ∃ (s : State) (h : Nat) (p : Packet) (miss : Option CtxKey) (x : Chan) (o : _),
    s.leaves (fun c => c.takeRequest h p miss) ∧ s.chip.reachesOpen h p miss x = true ∧
    ((2 ^ 23 ≤ (p.psn - x.base).toNat ∨ x.fresh p = false ∧ (p.psn - x.base).toNat < 1024)) ∧ p.kind = 3 ∧
    (s.chip.ownersOf h p).any s.chip.goneFn = false ∧ s.chip.readCheck h p = .fabric o ∧
    s.chip.mem.poisoned o p.readLen = false :=
  ⟨st (near half), 0, req 32 64 0x0000630000000001 0x00000004fef00000 0x0000000400000000 [], none, half, 64,
    by decide +kernel⟩

theorem witness_RequestsAreAdmitted_15 :
    ∃ (s : State) (h : Nat) (p : Packet) (miss : Option CtxKey) (x : Chan) (a : AtomicRec),
    s.leaves (fun c => c.takeRequest h p miss) ∧ s.chip.reachesOpen h p miss x = true ∧
    ((2 ^ 23 ≤ (p.psn - x.base).toNat ∨ x.fresh p = false ∧ (p.psn - x.base).toNat < 1024)) ∧ p.kind = 4 ∧
    s.chip.tr.hostReads = [] ∧ x.atomics.find? (fun a => a.psn == p.psn) = some a :=
  ⟨st (near ({ half with atomics := [{ psn := 99, prior := 5 }] } : Chan)), 0,
    req 48 64 0x0000630000000001 0x00000004fef00000 0 [1, 0, 0, 0, 0, 0, 0, 0], none,
    ({ half with atomics := [{ psn := 99, prior := 5 }] } : Chan), { psn := 99, prior := 5 }, by decide +kernel⟩

/-! MemoryRequestsAct, clause by clause. -/

theorem witness_MemoryRequestsAct_1 :
    ∃ (s : State) (h : Nat) (p : Packet) (miss : Option CtxKey) (x : Chan), s.leaves (fun c => c.takeRequest h p miss) ∧
    s.chip.expects h p miss x = true ∧ p.kind = 2 ∧ isOfferIndex (keyIndex p.key) = true ∧ s.chip.closeOf h p = none :=
  ⟨st (near half), 0, req 16 0 0x0000640000000001 0x00000004ff000000 0 [], none, half, by decide +kernel⟩

theorem witness_MemoryRequestsAct_2 :
    ∃ (s : State) (h : Nat) (p : Packet) (miss : Option CtxKey) (x : Chan) (st : _), let key := s.chip.writeCheck h p;
    let bad := (s.chip.place key p.payload 3).2; s.leaves (fun c => c.takeRequest h p miss) ∧
    s.chip.expects h p miss x = true ∧ p.kind = 2 ∧ isOfferIndex (keyIndex p.key) = false ∧ bad = some st :=
  ⟨st (near half), 0, req 16 64 0x0000640000000001 0x0000000400000500 0 [1, 2, 3], none, half, 3, by decide +kernel⟩

theorem witness_MemoryRequestsAct_3a :
    ∃ (s : State) (h : Nat) (p : Packet) (miss : Option CtxKey) (x : Chan), let key := s.chip.writeCheck h p;
    let bad := (s.chip.place key p.payload 3).2; s.leaves (fun c => c.takeRequest h p miss) ∧
    s.chip.expects h p miss x = true ∧ p.kind = 2 ∧ isOfferIndex (keyIndex p.key) = false ∧ bad = none ∧ p.opcode = 0x10 :=
  ⟨st (near half), 0, req 16 64 0x0000640000000001 0x00000004fef00000 0 [1, 2, 3], none, half, by decide +kernel⟩

theorem witness_MemoryRequestsAct_3b :
    ∃ (s : State) (h : Nat) (p : Packet) (miss : Option CtxKey) (x : Chan), let key := s.chip.writeCheck h p;
    let bad := (s.chip.place key p.payload 3).2; s.leaves (fun c => c.takeRequest h p miss) ∧
    s.chip.expects h p miss x = true ∧ p.kind = 2 ∧ isOfferIndex (keyIndex p.key) = false ∧ bad = none ∧ p.opcode = 0x10 :=
  ⟨st ({ near half with mem := { regions := [(1, { flags := 31, va := 0x1000, length := 4096, pmask := 0x1FFFF, pages := [0x8000] })] }, funcs := [(0, { state := .ready, busMaster := true, atomicRequester := false })] }),
    0, req 16 64 0x0000640000000001 0x0000000400000100 0 [1, 2, 3], none, half, by decide +kernel⟩

theorem witness_MemoryRequestsAct_4 :
    ∃ (s : State) (h : Nat) (p : Packet) (miss : Option CtxKey) (x : Chan) (q : Queue), let key := s.chip.writeCheck h p;
    let bad := (s.chip.place key p.payload 3).2; s.leaves (fun c => c.takeRequest h p miss) ∧
    s.chip.expects h p miss x = true ∧ p.kind = 2 ∧ isOfferIndex (keyIndex p.key) = false ∧ bad = none ∧ p.opcode = 0x11 ∧
    ((x.msg? p.msgid).bind (·.buffer)).isNone = true ∧ s.chip.queue? h p.notifyQn = some q ∧
    (q.kind == .rq || q.kind == .srq) = true ∧ q.state = .active ∧ q.destroying = none ∧ q.recvs = [] :=
  ⟨st (nearRq half []), 0, req 17 64 0x0000640000000001 0x00000004fef00000 0x0000000500000008 [1, 2, 3], none, half,
    ({ kind := .rq, cqn := 5 } : Queue), by decide +kernel⟩

theorem witness_MemoryRequestsAct_5 :
    ∃ (s : State) (h : Nat) (p : Packet) (miss : Option CtxKey) (x : Chan) (q : Queue) (e : _) (r : _),
    let key := s.chip.writeCheck h p; let bad := (s.chip.place key p.payload 3).2;
    s.leaves (fun c => c.takeRequest h p miss) ∧ s.chip.expects h p miss x = true ∧ p.kind = 2 ∧
    isOfferIndex (keyIndex p.key) = false ∧ bad = none ∧ p.opcode = 0x11 ∧
    ((x.msg? p.msgid).bind (·.buffer)).isNone = true ∧ s.chip.queue? h p.notifyQn = some q ∧
    (q.kind == .rq || q.kind == .srq) = true ∧ q.state = .active ∧ q.destroying = none ∧ q.recvs = e :: r ∧
    ((p.pcnt ≠ 1 ∨ p.msgid ≠ x.nextDone)) :=
  ⟨st (nearRq half [rbuf]), 0, req 17 64 0x0000640000000001 0x00000005fef00000 0x0000000500000008 [1, 2, 3], none, half,
    ({ kind := .rq, cqn := 5, recvs := [rbuf] } : Queue), rbuf, [], by decide +kernel⟩

theorem witness_MemoryRequestsAct_6 :
    ∃ (s : State) (h : Nat) (p : Packet) (miss : Option CtxKey) (x : Chan) (q : Queue) (e : _) (r : _) (cq : Queue),
    let key := s.chip.writeCheck h p; let bad := (s.chip.place key p.payload 3).2;
    s.leaves (fun c => c.takeRequest h p miss) ∧ s.chip.expects h p miss x = true ∧ p.kind = 2 ∧
    isOfferIndex (keyIndex p.key) = false ∧ bad = none ∧ p.opcode = 0x11 ∧
    ((x.msg? p.msgid).bind (·.buffer)).isNone = true ∧ s.chip.queue? h p.notifyQn = some q ∧
    (q.kind == .rq || q.kind == .srq) = true ∧ q.state = .active ∧ q.destroying = none ∧ q.recvs = e :: r ∧ p.pcnt = 1 ∧
    p.msgid = x.nextDone ∧ x.msgs = [] ∧ s.chip.cqRoom h q.cqn cq = true ∧ s.chip.hostServed cq.fn = true ∧
    s.chip.silentFn q.fn = false :=
  ⟨st (nearRq half [rbuf]), 0, req 17 64 0x0000640000000001 0x00000004fef00000 0x0000000500000008 [1, 2, 3], none, half,
    ({ kind := .rq, cqn := 5, recvs := [rbuf] } : Queue), rbuf, [], ({ kind := .cq, vecValid := true } : Queue),
    by decide +kernel⟩

theorem witness_MemoryRequestsAct_7 :
    ∃ (s : State) (h : Nat) (p : Packet) (miss : Option CtxKey) (x : Chan) (st : _),
    s.leaves (fun c => c.takeRequest h p miss) ∧ s.chip.expects h p miss x = true ∧ p.kind = 3 ∧
    s.chip.readCheck h p = .refused st :=
  ⟨st (near half), 0, req 32 0 0x0000640000000001 0x0000000400000500 0x0000000400000000 [], none, half, 3,
    by decide +kernel⟩

theorem witness_MemoryRequestsAct_8 :
    ∃ (s : State) (h : Nat) (p : Packet) (miss : Option CtxKey) (x : Chan) (o : _),
    s.leaves (fun c => c.takeRequest h p miss) ∧ s.chip.expects h p miss x = true ∧ p.kind = 3 ∧
    s.chip.readCheck h p = .fabric o ∧ s.chip.mem.poisoned o p.readLen = true :=
  ⟨st ({ near half with mem := { poison := [1] } }), 0,
    req 32 64 0x0000640000000001 0x00000004fef00000 0x0000000400000000 [], none, half, 64, by decide +kernel⟩

theorem witness_MemoryRequestsAct_9 :
    ∃ (s : State) (h : Nat) (p : Packet) (miss : Option CtxKey) (x : Chan) (o : _),
    s.leaves (fun c => c.takeRequest h p miss) ∧ s.chip.expects h p miss x = true ∧ p.kind = 3 ∧
    s.chip.readCheck h p = .fabric o ∧ s.chip.mem.poisoned o p.readLen = false :=
  ⟨st (near half), 0, req 32 64 0x0000640000000001 0x00000004fef00000 0x0000000400000000 [], none, half, 64,
    by decide +kernel⟩

theorem witness_MemoryRequestsAct_10 :
    ∃ (s : State) (h : Nat) (p : Packet) (miss : Option CtxKey) (x : Chan) (fn : _) (i : _) (off : _),
    s.leaves (fun c => c.takeRequest h p miss) ∧ s.chip.expects h p miss x = true ∧ p.kind = 3 ∧
    s.chip.readCheck h p = .host fn i off :=
  ⟨st ({ near half with mem := { regions := [(1, { flags := 31, va := 0x1000, length := 4096, pmask := 0x1FFFF, pages := [0x8000] })] }, funcs := [(0, { state := .ready, busMaster := true, atomicRequester := false })] }),
    0, req 32 64 0x0000640000000001 0x0000000400000100 0x0000000400000000 [], none, half, 0, 1, 64, by decide +kernel⟩

theorem witness_MemoryRequestsAct_11 :
    ∃ (s : State) (h : Nat) (p : Packet) (miss : Option CtxKey) (x : Chan), let n := atomicBytes p.opcode;
    s.leaves (fun c => c.takeRequest h p miss) ∧ s.chip.expects h p miss x = true ∧ p.kind = 4 ∧ p.offset % n ≠ 0 :=
  ⟨st (near half), 0, req 48 65 0x0000640000000001 0x00000004fef00000 0 [1, 0, 0, 0, 0, 0, 0, 0], none, half,
    by decide +kernel⟩

theorem witness_MemoryRequestsAct_12 :
    ∃ (s : State) (h : Nat) (p : Packet) (miss : Option CtxKey) (x : Chan), let n := atomicBytes p.opcode;
    s.leaves (fun c => c.takeRequest h p miss) ∧ s.chip.expects h p miss x = true ∧ p.kind = 4 ∧ p.offset % n = 0 ∧
    isOfferIndex (keyIndex p.key) = true :=
  ⟨st (near half), 0, req 48 64 0x0000640000000001 0x00000004ff000000 0 [1, 0, 0, 0, 0, 0, 0, 0], none, half,
    by decide +kernel⟩

theorem witness_MemoryRequestsAct_13 :
    ∃ (s : State) (h : Nat) (p : Packet) (miss : Option CtxKey) (x : Chan) (st : _), let n := atomicBytes p.opcode;
    let key := s.chip.remoteCheck h p.src.toNat p.key .atomic p.offset n; s.leaves (fun c => c.takeRequest h p miss) ∧
    s.chip.expects h p miss x = true ∧ p.kind = 4 ∧ p.offset % n = 0 ∧ isOfferIndex (keyIndex p.key) = false ∧
    key = .refused st :=
  ⟨st (near half), 0, req 48 64 0x0000640000000001 0x0000000400000500 0 [1, 0, 0, 0, 0, 0, 0, 0], none, half, 3,
    by decide +kernel⟩

theorem witness_MemoryRequestsAct_14 :
    ∃ (s : State) (h : Nat) (p : Packet) (miss : Option CtxKey) (x : Chan), let n := atomicBytes p.opcode;
    let key := s.chip.remoteCheck h p.src.toNat p.key .atomic p.offset n;
    let full := !x.atomicBlock && decide (4096 ≤ s.chip.atomicBlocks); s.leaves (fun c => c.takeRequest h p miss) ∧
    s.chip.expects h p miss x = true ∧ p.kind = 4 ∧ p.offset % n = 0 ∧ isOfferIndex (keyIndex p.key) = false ∧
    key.allowed = true ∧ full = true :=
  ⟨st { near half with tr := { chans := (4, half) :: List.replicate 4096 (8, { atomicBlock := true }), resident := [.channel 4] } },
    0, req 48 64 0x0000640000000001 0x00000004fef00000 0 [1, 0, 0, 0, 0, 0, 0, 0], none, half, by decide +kernel⟩

theorem witness_MemoryRequestsAct_15 :
    ∃ (s : State) (h : Nat) (p : Packet) (miss : Option CtxKey) (x : Chan) (o : _), let n := atomicBytes p.opcode;
    let key := s.chip.remoteCheck h p.src.toNat p.key .atomic p.offset n;
    let full := !x.atomicBlock && decide (4096 ≤ s.chip.atomicBlocks); s.leaves (fun c => c.takeRequest h p miss) ∧
    s.chip.expects h p miss x = true ∧ p.kind = 4 ∧ p.offset % n = 0 ∧ isOfferIndex (keyIndex p.key) = false ∧
    key = .fabric o ∧ full = false ∧ s.chip.mem.poisoned o n = true :=
  ⟨st ({ near half with mem := { poison := [1] } }), 0,
    req 48 64 0x0000640000000001 0x00000004fef00000 0 [1, 0, 0, 0, 0, 0, 0, 0], none, half, 64, by decide +kernel⟩

theorem witness_MemoryRequestsAct_16 :
    ∃ (s : State) (h : Nat) (p : Packet) (miss : Option CtxKey) (x : Chan) (o : _), let n := atomicBytes p.opcode;
    let key := s.chip.remoteCheck h p.src.toNat p.key .atomic p.offset n;
    let full := !x.atomicBlock && decide (4096 ≤ s.chip.atomicBlocks); s.leaves (fun c => c.takeRequest h p miss) ∧
    s.chip.expects h p miss x = true ∧ p.kind = 4 ∧ p.offset % n = 0 ∧ isOfferIndex (keyIndex p.key) = false ∧
    key = .fabric o ∧ full = false ∧ s.chip.mem.poisoned o n = false :=
  ⟨st (near half), 0, req 48 64 0x0000640000000001 0x00000004fef00000 0 [1, 0, 0, 0, 0, 0, 0, 0], none, half, 64,
    by decide +kernel⟩

theorem witness_MemoryRequestsAct_17 :
    ∃ (s : State) (h : Nat) (p : Packet) (miss : Option CtxKey) (x : Chan) (fn : _) (i : _) (off : _),
    let n := atomicBytes p.opcode; let key := s.chip.remoteCheck h p.src.toNat p.key .atomic p.offset n;
    let full := !x.atomicBlock && decide (4096 ≤ s.chip.atomicBlocks); s.leaves (fun c => c.takeRequest h p miss) ∧
    s.chip.expects h p miss x = true ∧ p.kind = 4 ∧ p.offset % n = 0 ∧ isOfferIndex (keyIndex p.key) = false ∧
    key = .host fn i off ∧ full = false ∧ (s.chip.fn fn).atomicRequester = false :=
  ⟨st ({ near half with mem := { regions := [(1, { flags := 31, va := 0x1000, length := 4096, pmask := 0x1FFFF, pages := [0x8000] })] }, funcs := [(0, { state := .ready, busMaster := true, atomicRequester := false })] }),
    0, req 48 64 0x0000640000000001 0x0000000400000100 0 [1, 0, 0, 0, 0, 0, 0, 0], none, half, 0, 1, 64, by decide +kernel⟩

theorem witness_MemoryRequestsAct_18 :
    ∃ (s : State) (h : Nat) (p : Packet) (miss : Option CtxKey) (x : Chan) (fn : _) (i : _) (off : _),
    let n := atomicBytes p.opcode; let key := s.chip.remoteCheck h p.src.toNat p.key .atomic p.offset n;
    let full := !x.atomicBlock && decide (4096 ≤ s.chip.atomicBlocks); s.leaves (fun c => c.takeRequest h p miss) ∧
    s.chip.expects h p miss x = true ∧ p.kind = 4 ∧ p.offset % n = 0 ∧ isOfferIndex (keyIndex p.key) = false ∧
    key = .host fn i off ∧ full = false ∧ (s.chip.fn fn).atomicRequester = true :=
  ⟨st ({ near half with mem := { regions := [(1, { flags := 31, va := 0x1000, length := 4096, pmask := 0x1FFFF, pages := [0x8000] })] }, funcs := [(0, { state := .ready, busMaster := true, atomicRequester := true })] }),
    0, req 48 64 0x0000640000000001 0x0000000400000100 0 [1, 0, 0, 0, 0, 0, 0, 0], none, half, 0, 1, 64, by decide +kernel⟩


end Sys2Proof.Tests
end

section
/-! The framed FIFOs as a host sees them: what the commands on a block do to its FIFO (R106, R111 to R119). -/

namespace Sys2Proof.Machine

/-! ### One FIFO -/

/-- With a marker due, a free word and no packet in progress, the marker is written (R116). -/
theorem Fifo.mark_due (f : Fifo) (cap : Nat) (hd : f.dropped ≠ 0) (hq : f.quiet = true) (hl : f.words.length < cap + 1) :
    f.mark cap = { f with words := f.words ++ [markerWord f.dropped], dropped := 0 } :=
  if_pos ⟨hd, hq, hl⟩

/-- With nothing dropped no marker is due. -/
theorem Fifo.mark_none (f : Fifo) (cap : Nat) (hd : f.dropped = 0) : f.mark cap = f :=
  if_neg fun h => h.1 hd

theorem Fifo.push_dropping (f : Fifo) (cap : Nat) (w : Word) (hd : f.dropping = true) : f.push cap w = f :=
  if_pos hd

/-- A word joins the packet in progress where it fits, behind the marker that is due (R115, R116). -/
theorem Fifo.push_fits (f : Fifo) (cap : Nat) (w : Word) (hd : f.dropping = false)
    (hl : (f.mark cap).words.length + (f.mark cap).pushed.length + 2 ≤ cap) (h64 : (f.mark cap).pushed.length < 64) :
    f.push cap w = { f.mark cap with pushed := (f.mark cap).pushed ++ [w] } := by
  unfold Fifo.push
  rw [if_neg (by simp [hd])]
  exact if_pos ⟨hl, h64⟩

/-- A word that does not fit drops the packet in progress (R115). -/
theorem Fifo.push_over (f : Fifo) (cap : Nat) (w : Word) (hd : f.dropping = false)
    (h : cap < (f.mark cap).words.length + (f.mark cap).pushed.length + 2 ∨ 64 ≤ (f.mark cap).pushed.length) :
    f.push cap w = { f.mark cap with pushed := [], dropping := true } := by
  unfold Fifo.push
  rw [if_neg (by simp [hd])]
  exact if_neg (by omega)

theorem Fifo.commit_empty (f : Fifo) (hd : f.dropping = false) (hp : f.pushed = []) : f.commit = f := by
  simp [Fifo.commit, hd, hp]

/-- COMMIT puts the frame word and the packet behind the committed words (R114). -/
theorem Fifo.commit_packet (f : Fifo) (hd : f.dropping = false) (hp : f.pushed ≠ []) :
    f.commit = { f with
      words := f.words ++ frameWord f.pushed.length f.frames :: f.pushed, pushed := [], frames := f.frames + 1, lastDrop := false } := by
  simp [Fifo.commit, hd, hp]

theorem Fifo.commit_dropped (f : Fifo) (hd : f.dropping = true) :
    f.commit = { f with
      dropping := false, lastDrop := true, dropped := if f.dropped < 0xFFFFFFFF then f.dropped + 1 else f.dropped } :=
  if_pos hd

/-- ABORT of nothing leaves the FIFO as it is. -/
theorem Fifo.abort_empty (f : Fifo) (hd : f.dropping = false) (hp : f.pushed = []) : f.abort = f := by
  cases f; simp_all [Fifo.abort]

/-! ### The FIFO of a block -/

@[simp] theorem Chip.fifo_putFifo_self (c : Chip) (i : Nat) (f : Fifo) : (c.putFifo i f).fifo i = f := by
  rw [Chip.fifo_putFifo, if_pos rfl]

theorem Chip.onFifo_shown {c : Chip} {h i : Nat} {b : FifoBlock} (hi : c.fifoAt h b = some i) (f : Fifo → Fifo) :
    c.onFifo h b f = c.putFifo i (f (c.fifo i)) := by
  simp [Chip.onFifo, hi]

theorem Chip.onFifo_hidden {c : Chip} {h : Nat} {b : FifoBlock} (hi : c.fifoAt h b = none) (f : Fifo → Fifo) :
    c.onFifo h b f = c := by
  simp [Chip.onFifo, hi]

/-- A word written to the transmit block that is shown: joined with the held half, pushed, and the held half is used up. -/
theorem Chip.ffWrite_transmit {c : Chip} {h i : Nat} (hi : c.fifoAt h .transmit = some i) (wide : Bool) (v : Word) :
    c.ffWrite h .transmit wide v = c.putFifo i { (c.fifo i).push 2048
      (if wide then v else BitVec.ofNat 64 (v.field 31 0 * 2 ^ 32 + ((c.fifo i).heldLower.getD 0).toNat)) with heldLower := none } := by
  simp [Chip.ffWrite, hostProduces, Chip.onFifo_shown hi]

theorem Chip.ffWriteLower_transmit {c : Chip} {h i : Nat} (hi : c.fifoAt h .transmit = some i) (v : BitVec 32) :
    c.ffWriteLower h .transmit v = c.putFifo i { c.fifo i with heldLower := some v } := by
  simp [Chip.ffWriteLower, hostProduces, Chip.onFifo_shown hi]

/-- In a block that is not shown, or that the host only consumes, a write of FF_DATA changes nothing. -/
theorem Chip.ffWrite_ignored {c : Chip} {h : Nat} {b : FifoBlock} (hb : c.fifoAt h b = none ∨ hostProduces b = false)
    (wide : Bool) (v : Word) : c.ffWrite h b wide v = c := by
  unfold Chip.ffWrite
  rcases hb with hb | hb
  · rw [Chip.onFifo_hidden hb, ite_self]
  · simp [hb]

theorem Chip.ffWriteLower_ignored {c : Chip} {h : Nat} {b : FifoBlock} (hb : c.fifoAt h b = none ∨ hostProduces b = false)
    (v : BitVec 32) : c.ffWriteLower h b v = c := by
  unfold Chip.ffWriteLower
  rcases hb with hb | hb
  · rw [Chip.onFifo_hidden hb, ite_self]
  · simp [hb]

/-- A command of the side of the host acts on the FIFO of the block. -/
theorem Chip.ffControl_own {c : Chip} {h i : Nat} {b : FifoBlock} {producer : Bool} (hi : c.fifoAt h b = some i)
    (hb : hostProduces b = producer) (f : Fifo → Fifo) : c.ffControl h b producer f = c.putFifo i (f (c.fifo i)) := by
  simp [Chip.ffControl, Chip.onFifo_shown hi, hb]

/-- A command of the other side sets BADCMD (R116, R118). -/
theorem Chip.ffControl_bad {c : Chip} {h i : Nat} {b : FifoBlock} {producer : Bool} (hi : c.fifoAt h b = some i)
    (hb : hostProduces b ≠ producer) (f : Fifo → Fifo) :
    c.ffControl h b producer f = c.putFifo i { c.fifo i with badCmd := true } := by
  simp [Chip.ffControl, Chip.onFifo_shown hi, hb]

/-! ### Completion in a service -/

section
variable (h : Nat) (b : FifoBlock) (s : State)

theorem exec_ffDataWrite (wide : Bool) (v : Word) : exec (.ffDataWrite h b wide v) s = s.run fun c => c.ffWrite h b wide v := rfl
theorem exec_ffDataLowerWrite (v : BitVec 32) : exec (.ffDataLowerWrite h b v) s = s.run fun c => c.ffWriteLower h b v := rfl
theorem exec_ffCommit : exec (.ffCommit h b) s = s.run fun c => c.ffCommit h b := rfl
theorem exec_ffAbort : exec (.ffAbort h b) s = s.run fun c => c.ffAbort h b := rfl
theorem exec_radishMarker (i : Nat) : exec (.radishMarker i) s = s.run fun c => c.radishMarker i := rfl

end

/-- In a service, a command whose effect leaves the chip as calm as it was completes with that effect. -/
theorem Completes.of_serving {i : Instr} {s : State} {f : Chip → Chip} {p : Chip → Prop} (hs : s.serving)
    (hi : exec i s = s.run f) (hc : (f s.chip).calm = s.chip.calm) (hp : p (f s.chip)) : Completes i s p :=
  .of_run hi hs.1 (hc.trans hs.2) hp

/-- In a service, a command without effect completes with the chip as it was. -/
theorem Completes.of_idle {i : Instr} {s : State} {f : Chip → Chip} (hs : s.serving)
    (hi : exec i s = s.run f) (hf : f s.chip = s.chip) : Completes i s fun c => c = s.chip :=
  .of_serving hs hi (congrArg Chip.calm hf) hf

/-- In a service, a command whose effect is to put one FIFO completes with that FIFO and no output. -/
theorem Completes.of_putFifo {ins : Instr} {s : State} {f : Chip → Chip} {i : Nat} {x y : Fifo} (hs : s.serving)
    (hi : exec ins s = s.run f) (hf : f s.chip = s.chip.putFifo i x) (hx : x = y) :
    Completes ins s fun c => c.out = s.chip.out ∧ c.fifo i = y := by
  subst hx
  refine .of_serving hs hi (hf ▸ s.chip.putFifo_calm i x) ?_
  rw [hf]
  exact ⟨s.chip.putFifo_out i x, s.chip.fifo_putFifo_self i x⟩

/-! ### Writes of FF_DATA -/

section
variable {s : State} {h : Nat} (hs : s.serving) (hi : s.chip.fifoAt h .transmit = some h)
include hs hi

/-- A pushed word leaves the FIFO that `Fifo.push` gives, with no half held. -/
theorem ffDataWrite_completes (wide : Bool) (v : Word) {y : Fifo}
    (hy : (s.chip.fifo h).push 2048
      (if wide then v else BitVec.ofNat 64 (v.field 31 0 * 2 ^ 32 + ((s.chip.fifo h).heldLower.getD 0).toNat)) = y) :
    Completes (.ffDataWrite h .transmit wide v) s fun c => c.out = s.chip.out ∧ c.fifo h = { y with heldLower := none } :=
  .of_putFifo hs (exec_ffDataWrite ..) (Chip.ffWrite_transmit hi wide v) (by rw [hy])

theorem ffCommit_completes {y : Fifo} (hy : (s.chip.fifo h).commit = y) :
    Completes (.ffCommit h .transmit) s fun c => c.out = s.chip.out ∧ c.fifo h = { y with heldLower := none } :=
  .of_putFifo hs (exec_ffCommit ..) (Chip.ffControl_own hi rfl _) (by rw [hy])

theorem ffAbort_completes {y : Fifo} (hy : (s.chip.fifo h).abort = y) :
    Completes (.ffAbort h .transmit) s fun c => c.out = s.chip.out ∧ c.fifo h = { y with heldLower := none } :=
  .of_putFifo hs (exec_ffAbort ..) (Chip.ffControl_own hi rfl _) (by rw [hy])

end

/-- Settles O22: the shown transmit block by the cases of `Fifo.push`, `Fifo.commit` and `Fifo.abort`; every other block has
no effect of the producer's side but BADCMD. -/
theorem fifoWritesAreFramed : Obligations.FifoWritesAreFramed := by
  refine ⟨fun s h hs => ⟨fun hi => ⟨?_, ?_, ?_, ?_⟩, ?_⟩, fun s h hs => ⟨fun hi => ⟨?_, ?_, ?_, ?_⟩, ?_, ?_, ?_⟩⟩
  · exact fun wide v hd hl h64 => ffDataWrite_completes hs hi wide v (Fifo.push_fits _ _ _ hd hl h64)
  · exact fun wide v hd ho => ffDataWrite_completes hs hi wide v (Fifo.push_over _ _ _ hd ho)
  · exact fun wide v hd => ffDataWrite_completes hs hi wide v (Fifo.push_dropping _ _ _ hd)
  · exact fun low => .of_putFifo hs (exec_ffDataLowerWrite ..) (Chip.ffWriteLower_transmit hi low) rfl
  · exact fun b wide v low hb =>
      ⟨.of_idle hs (exec_ffDataWrite ..) (Chip.ffWrite_ignored hb wide v),
        .of_idle hs (exec_ffDataLowerWrite ..) (Chip.ffWriteLower_ignored hb low)⟩
  · exact fun hd hp => ffCommit_completes hs hi (Fifo.commit_packet _ hd hp)
  · exact fun hd hp =>
      ⟨ffCommit_completes hs hi (Fifo.commit_empty _ hd hp), ffAbort_completes hs hi (Fifo.abort_empty _ hd hp)⟩
  · exact fun hd => ffCommit_completes hs hi (Fifo.commit_dropped _ hd)
  · exact ffAbort_completes hs hi rfl
  · exact fun b i hi hb =>
      ⟨.of_putFifo hs (exec_ffCommit ..) (Chip.ffControl_bad hi (by simp [hb]) _) rfl,
        .of_putFifo hs (exec_ffAbort ..) (Chip.ffControl_bad hi (by simp [hb]) _) rfl⟩
  · exact fun i hd hq hl => .of_putFifo hs (exec_radishMarker ..) rfl (Fifo.mark_due _ _ hd hq hl)
  · exact fun i hd => .of_putFifo hs (exec_radishMarker ..) rfl (Fifo.mark_none _ _ hd)

end Sys2Proof.Machine
end


section
/-! The consumer's side of the framed FIFOs, and the packets that the host ports take from them and put into them (R106, R112,
R117 to R119, R122, R123). -/

namespace Sys2Proof.Machine

/-! ### One FIFO -/

/-- A read at a word that is there pops it (R117). -/
theorem Fifo.readData_word (f : Fifo) (w : Word) (hw : f.words[f.readOff]? = some w) :
    f.readData = ({ f with readOff := f.readOff + 1, lastRead := w, lastPopped := w }, w) := by
  simp only [Fifo.readData, hw]

/-- A read while FF_COUNT is 0 returns the last value (R117). -/
theorem Fifo.readData_empty (f : Fifo) (h : f.count true = 0) : f.readData = ({ f with underrun := true }, f.lastRead) := by
  have hw : f.words[f.readOff]? = none := List.getElem?_eq_none (Nat.le_of_sub_eq_zero h)
  simp only [Fifo.readData, hw]

/-- A release up to the read position frees the words before it (R119). -/
theorem Fifo.free_within (f : Fifo) (p : BitVec 32) (h : (p - f.release).toNat ≤ f.readOff) :
    f.free p = { f with
      words := f.words.drop (p - f.release).toNat, release := p, readOff := f.readOff - (p - f.release).toNat
      markOff := f.markOff - (p - f.release).toNat, lead := leadAfter f.lead (p - f.release).toNat f.words } :=
  if_pos h

theorem Fifo.free_beyond (f : Fifo) (p : BitVec 32) (h : f.readOff < (p - f.release).toNat) :
    f.free p = { f with badRel := true } :=
  if_neg (Nat.not_le.mpr h)

/-- The position that lies `n` words behind `r` is that of `n - (p - r)` words behind `p`. -/
theorem position_from_release (p r : BitVec 32) (n : Nat) (h : (p - r).toNat ≤ n) :
    p + BitVec.ofNat 32 (n - (p - r).toNat) = r + BitVec.ofNat 32 n := by
  obtain ⟨k, rfl⟩ := Nat.exists_eq_add_of_le h
  rw [Nat.add_sub_cancel_left, BitVec.ofNat_add, BitVec.ofNat_toNat, BitVec.setWidth_eq, ← BitVec.add_assoc, BitVec.add_comm r,
    BitVec.sub_add_cancel]

/-- Words that fit are all pushed, one behind the other, where no marker is due. -/
theorem Fifo.foldl_push_fits (cap : Nat) (l : List Word) (f : Fifo) (hd : f.dropping = false) (h0 : f.dropped = 0)
    (hl : f.words.length + f.pushed.length + l.length + 1 ≤ cap) (h64 : f.pushed.length + l.length ≤ 64) :
    l.foldl (fun f w => f.push cap w) f = { f with pushed := f.pushed ++ l } := by
  induction l generalizing f with
  | nil => rw [List.append_nil]; rfl
  | cons w l ih =>
    rw [List.length_cons] at hl h64
    have hm : f.mark cap = f := f.mark_none cap h0
    have hp : f.push cap w = { f with pushed := f.pushed ++ [w] } := by
      rw [f.push_fits cap w hd (by rw [hm]; omega) (by rw [hm]; omega), hm]
    rw [List.foldl_cons, hp, ih { f with pushed := f.pushed ++ [w] } hd h0 (by simp; omega) (by simp; omega), List.append_assoc]
    rfl

/-- A packet of the chip itself that fits stands behind the committed words with its frame word (R114). -/
theorem Fifo.packet_words (f : Fifo) (cap : Nat) (l : List Word) (hq : f.quiet = true) (h0 : f.dropped = 0) (hne : l ≠ [])
    (hl : f.words.length + l.length + 1 ≤ cap) (h64 : l.length ≤ 64) :
    (f.packet cap l).words = f.words ++ frameWord l.length f.frames :: l := by
  obtain ⟨hp, hd⟩ : f.pushed = [] ∧ f.dropping = false := by simpa [Fifo.quiet] using hq
  rw [Fifo.packet, f.foldl_push_fits cap l hd h0 (by simp [hp]; omega) (by simpa [hp] using h64),
    Fifo.commit_packet { f with pushed := f.pushed ++ l } hd (by simpa [hp] using hne)]
  simp [hp]

/-! ### The FIFO of a block -/

/-- A register read leaves the chip with the value alone: no DMA is in it. -/
theorem Chip.reply_eq (c : Chip) (fn : Nat) (w : Word) : c.reply fn w = { c with out := c.out ++ [.regRead fn w] } := rfl

theorem Chip.ffRead_consumed {c : Chip} {h i : Nat} {b : FifoBlock} (hi : c.fifoAt h b = some i) (hb : hostProduces b = false)
    (wide : Bool) : c.ffRead h b wide = (c.putFifo i (c.fifo i).readData.1).reply (h * 256)
      (if wide then (c.fifo i).readData.2 else BitVec.ofNat 64 ((c.fifo i).readData.2.field 31 0)) := by
  simp [Chip.ffRead, hi, hb]

/-- In a block that is not shown, or that the host produces, FF_DATA reads zero (R106, R111). -/
theorem Chip.ffRead_zero {c : Chip} {h : Nat} {b : FifoBlock} (hb : c.fifoAt h b = none ∨ hostProduces b = true) (wide : Bool) :
    c.ffRead h b wide = c.reply (h * 256) 0 := by
  unfold Chip.ffRead
  rcases hb with hb | hb
  · rw [hb]
  · split
    · rfl
    · rw [if_pos hb]

theorem Chip.ffReadUpper_consumed {c : Chip} {h i : Nat} {b : FifoBlock} (hi : c.fifoAt h b = some i) (hb : hostProduces b = false) :
    c.ffReadUpper h b = c.reply (h * 256) (BitVec.ofNat 64 (Word.field (c.fifo i).lastPopped 63 32)) := by
  simp [Chip.ffReadUpper, hi, hb]

theorem Chip.ffReadUpper_zero {c : Chip} {h : Nat} {b : FifoBlock} (hb : c.fifoAt h b = none ∨ hostProduces b = true) :
    c.ffReadUpper h b = c.reply (h * 256) 0 := by
  unfold Chip.ffReadUpper
  rcases hb with hb | hb
  · rw [hb]
  · split
    · rfl
    · rw [if_pos hb]

theorem Chip.ffRelease_consumed {c : Chip} {h i : Nat} {b : FifoBlock} (hi : c.fifoAt h b = some i) (hb : hostProduces b = false)
    (p : BitVec 32) : c.ffRelease h b p = c.putFifo i ((c.fifo i).free p) := by
  simp [Chip.ffRelease, hb, Chip.onFifo_shown hi]

theorem Chip.ffRelease_ignored (c : Chip) (h : Nat) {b : FifoBlock} (hb : hostProduces b = true) (p : BitVec 32) :
    c.ffRelease h b p = c :=
  if_pos hb

/-! ### The commands of the consumer complete -/

section
variable (h : Nat) (b : FifoBlock) (s : State)

theorem exec_ffDataRead (wide : Bool) : exec (.ffDataRead h b wide) s = s.run fun c => c.ffRead h b wide := rfl
theorem exec_ffDataUpperRead : exec (.ffDataUpperRead h b) s = s.run fun c => c.ffReadUpper h b := rfl
theorem exec_ffMark : exec (.ffMark h b) s = s.run fun c => c.ffMark h b := rfl
theorem exec_ffRewind : exec (.ffRewind h b) s = s.run fun c => c.ffRewind h b := rfl
theorem exec_ffRelease (p : BitVec 32) : exec (.ffRelease h b p) s = s.run fun c => c.ffRelease h b p := rfl
theorem exec_mgmtTransmit : exec (.mgmtTransmit h) s = s.run fun c => if c.hasHost h then c.mgmtTransmit h else c := rfl
theorem exec_shimPacketDelivery (p : Packet) : exec (.shimPacketDelivery h p) s = s.run fun c => c.shimDelivery h p := rfl

end

/-- A read of FF_DATA in a block that the host consumes returns what `Fifo.readData` gives, and leaves its FIFO. -/
theorem ffDataRead_completes {s : State} {h i : Nat} {b : FifoBlock} (hs : s.serving) (hi : s.chip.fifoAt h b = some i)
    (hb : hostProduces b = false) (wide : Bool) {g : Fifo} {w : Word} (hr : (s.chip.fifo i).readData = (g, w)) :
    Completes (.ffDataRead h b wide) s fun c =>
      c.out = s.chip.out ++ [.regRead (h * 256) (if wide then w else BitVec.ofNat 64 (w.field 31 0))] ∧ c.fifo i = g := by
  refine .of_serving hs (exec_ffDataRead ..) (s.chip.ffRead_calm h b wide) ?_
  rw [Chip.ffRead_consumed hi hb, hr]
  exact ⟨rfl, s.chip.fifo_putFifo_self i g⟩

/-- In a service, a command that only replies completes with its reply and changes nothing else. -/
theorem Completes.of_reply {ins : Instr} {s : State} {f : Chip → Chip} {fn : Nat} {w : Word} {p : Chip → Prop} (hs : s.serving)
    (hi : exec ins s = s.run f) (hf : f s.chip = s.chip.reply fn w) (hp : p { s.chip with out := s.chip.out ++ [.regRead fn w] }) :
    Completes ins s p :=
  .of_serving hs hi (hf ▸ s.chip.reply_calm fn w) (hf ▸ hp)

/-- A release within the words read completes as R119 says. -/
theorem ffRelease_within_completes {s : State} {h i : Nat} {b : FifoBlock} (hs : s.serving) (hi : s.chip.fifoAt h b = some i)
    (hb : hostProduces b = false) (p : BitVec 32) (hp : (p - (s.chip.fifo i).release).toNat ≤ (s.chip.fifo i).readOff) :
    let f := s.chip.fifo i
    Completes (.ffRelease h b p) s fun c =>
      c.out = s.chip.out ∧ (c.fifo i).release = p ∧ (c.fifo i).words = f.words.drop (p - f.release).toNat ∧
      (c.fifo i).release + BitVec.ofNat 32 (c.fifo i).readOff = f.release + BitVec.ofNat 32 f.readOff ∧
      (c.fifo i).markOff = f.markOff - (p - f.release).toNat ∧ (c.fifo i).badRel = f.badRel := by
  intro f
  refine .of_serving hs (exec_ffRelease ..) (s.chip.ffRelease_calm h b p) ?_
  rw [Chip.ffRelease_consumed hi hb, f.free_within p hp, Chip.fifo_putFifo_self]
  exact ⟨rfl, rfl, rfl, position_from_release p f.release f.readOff hp, rfl, rfl⟩

/-! ### Management packets (R122) -/

/-- Whether a transmit packet is malformed does not depend on the FIFOs. -/
theorem Chip.mgmtMalformed_putFifo (c : Chip) (i : Nat) (f : Fifo) (l : List Word) :
    (c.putFifo i f).mgmtMalformed l = c.mgmtMalformed l := rfl

theorem Chip.endpoint_putFifo (c : Chip) (i : Nat) (f : Fifo) (h : Nat) : (c.putFifo i f).endpoint h = c.endpoint h := rfl

/-- A packet injected is the one that has entered the router core since. -/
theorem Chip.entered_inject {c old : Chip} (h : Nat) (p : Packet) (hr : c.rt = old.rt) :
    (c.inject h p).entered old = [c.stamped p] := by
  simp [Chip.entered, Chip.inject, Chip.arrive, hr]

theorem bits_lt (x lo width : Nat) : bits x lo width < 2 ^ width := Nat.mod_lt _ (Nat.two_pow_pos width)

/-- The packet of the words that a host wrote has their KIND (R122). -/
theorem mgmtPacket_kind (src : Nat) (l : List Word) : (mgmtPacket src l).kind.toNat = Word.field (l.getD 0 0) 40 34 :=
  (BitVec.toNat_ofNat ..).trans (Nat.mod_eq_of_lt (bits_lt _ 34 7))

theorem mgmtPacket_src (src : Nat) (l : List Word) : (mgmtPacket src l).src.toNat = src % 2 ^ 17 := BitVec.toNat_ofNat ..

/-- A packet of kind 0x40 or 0x42 goes to the DST of word 0. -/
theorem mgmtPacket_dst (src : Nat) (l : List Word)
    (hk : Word.field (l.getD 0 0) 40 34 = 0x40 ∨ Word.field (l.getD 0 0) 40 34 = 0x42) :
    (mgmtPacket src l).dst.toNat = Word.field (l.getD 0 0) 33 17 := by
  have hd : (mgmtPacket src l).dst = BitVec.ofNat 17 (Word.field (l.getD 0 0) 33 17) := by
    simp only [mgmtPacket, newPacket]
    rw [if_neg (by omega)]
  rw [hd, BitVec.toNat_ofNat]
  exact Nat.mod_eq_of_lt (bits_lt _ 17 17)

/-- Words 2 to 5 of a packet of six words are its payload words. -/
theorem mgmtPacket_words (src : Nat) (l : List Word) (hl : l.length = 6) :
    [(mgmtPacket src l).w0, (mgmtPacket src l).w1, (mgmtPacket src l).w2, (mgmtPacket src l).w3] = l.drop 2 :=
  match l, hl with
  | [_, _, _, _, _, _], _ => rfl

theorem Chip.mgmtMalformed_false_length {c : Chip} {l : List Word} (h : c.mgmtMalformed l = false) : l.length = 6 := by
  simp only [Chip.mgmtMalformed, Bool.or_eq_false_iff, bne_eq_false_iff_eq] at h
  obtain ⟨⟨hl, -⟩, -⟩ := h
  exact hl

/-- A marker at the read end of a transmit FIFO: its COUNT is counted. -/
theorem Chip.mgmtTransmit_marker {c : Chip} {h : Nat} {w : Word} {r : List Word} (hw : (c.fifo h).words = w :: r)
    (hk : w.field 63 56 = 0xD7) :
    c.mgmtTransmit h = (c.putFifo h ((c.fifo h).take 1)).mgmtDiscards h (w.field 31 0) := by
  simp [Chip.mgmtTransmit, hw, hk]

/-- A malformed packet leaves the transmit FIFO, sets TXBAD and counts 1. -/
theorem Chip.mgmtTransmit_malformed {c : Chip} {h : Nat} {w : Word} {r : List Word} (hw : (c.fifo h).words = w :: r)
    (hk : w.field 63 56 ≠ 0xD7) (hm : c.mgmtMalformed (r.take (w.field 47 32)) = true) :
    c.mgmtTransmit h = ((c.putFifo h ((c.fifo h).take (w.field 47 32 + 1))).putFifo h
      { (c.fifo h).take (w.field 47 32 + 1) with txBad := true }).mgmtDiscards h 1 := by
  simp [Chip.mgmtTransmit, hw, hk, Chip.mgmtMalformed_putFifo, hm]

/-- A packet that is not malformed leaves the transmit FIFO and enters the router core. -/
theorem Chip.mgmtTransmit_packet {c : Chip} {h : Nat} {w : Word} {r : List Word} (hw : (c.fifo h).words = w :: r)
    (hk : w.field 63 56 ≠ 0xD7) (hm : c.mgmtMalformed (r.take (w.field 47 32)) = false) :
    c.mgmtTransmit h = (c.putFifo h ((c.fifo h).take (w.field 47 32 + 1))).inject h
      (mgmtPacket (c.endpoint h) (r.take (w.field 47 32))) := by
  simp [Chip.mgmtTransmit, hw, hk, Chip.mgmtMalformed_putFifo, hm, Chip.endpoint_putFifo]

theorem Chip.mgmtDiscards_reports (c : Chip) (h n : Nat) : Chip.OnlyReports c (c.mgmtDiscards h n) := c.bump_reports ..

theorem Chip.bump_fifos (c : Chip) (u : Nat) (k : Ctr) (n : Nat) : (c.bump u k n).fifos = c.fifos := by
  rw [(c.bump_reports u k n).same]

theorem Chip.mgmtDiscards_fifo (c : Chip) (h n i : Nat) : (c.mgmtDiscards h n).fifo i = c.fifo i :=
  congrArg (Tab.get · i Fifo.init) (c.bump_fifos ..)

section
variable {s : State} {h : Nat} (hs : s.serving) (hh : s.chip.hasHost h = true) {w : Word} {r : List Word}
  (hw : (s.chip.fifo h).words = w :: r)
include hs hh

/-- A host port that the chip has takes the next frame. -/
theorem mgmtTransmit_completes {p : Chip → Prop} (hp : p (s.chip.mgmtTransmit h)) : Completes (.mgmtTransmit h) s p :=
  .of_serving hs (exec_mgmtTransmit ..) (by rw [if_pos hh, Chip.mgmtTransmit_calm]) (by rwa [if_pos hh])

include hw

theorem mgmtTransmit_marker_completes (hk : w.field 63 56 = 0xD7) :
    Completes (.mgmtTransmit h) s fun c =>
      c.rt = s.chip.rt ∧ c.mem = s.chip.mem ∧ (c.fifo h).words = r ∧
      getCounter ⟨60 + h, .mgmtDiscard⟩ c.ctr.events =
        getCounter ⟨60 + h, .mgmtDiscard⟩ s.chip.ctr.events + BitVec.ofNat 64 (w.field 31 0) := by
  refine mgmtTransmit_completes hs hh ?_
  rw [Chip.mgmtTransmit_marker hw hk]
  have hr := Chip.mgmtDiscards_reports (s.chip.putFifo h ((s.chip.fifo h).take 1)) h (w.field 31 0)
  refine ⟨hr.rt, hr.mem, ?_, Chip.bump_self ..⟩
  rw [Chip.mgmtDiscards_fifo, Chip.fifo_putFifo_self]
  simp [Fifo.take, hw]

theorem mgmtTransmit_malformed_completes (hk : w.field 63 56 ≠ 0xD7)
    (hm : s.chip.mgmtMalformed (r.take (w.field 47 32)) = true) :
    Completes (.mgmtTransmit h) s fun c =>
      c.rt = s.chip.rt ∧ c.mem = s.chip.mem ∧ (c.fifo h).words = r.drop (w.field 47 32) ∧ (c.fifo h).txBad = true ∧
      getCounter ⟨60 + h, .mgmtDiscard⟩ c.ctr.events = getCounter ⟨60 + h, .mgmtDiscard⟩ s.chip.ctr.events + 1 := by
  refine mgmtTransmit_completes hs hh ?_
  rw [Chip.mgmtTransmit_malformed hw hk hm]
  have hr := Chip.mgmtDiscards_reports ((s.chip.putFifo h ((s.chip.fifo h).take (w.field 47 32 + 1))).putFifo h
    { (s.chip.fifo h).take (w.field 47 32 + 1) with txBad := true }) h 1
  refine ⟨hr.rt, hr.mem, ?_, ?_, Chip.bump_self ..⟩
  · rw [Chip.mgmtDiscards_fifo, Chip.fifo_putFifo_self]
    simp [Fifo.take, hw]
  · rw [Chip.mgmtDiscards_fifo, Chip.fifo_putFifo_self]

theorem mgmtTransmit_packet_completes (hk : w.field 63 56 ≠ 0xD7)
    (hm : s.chip.mgmtMalformed (r.take (w.field 47 32)) = false) :
    let l := r.take (w.field 47 32)
    Completes (.mgmtTransmit h) s fun c =>
      c.mem = s.chip.mem ∧ c.ctr = s.chip.ctr ∧ (c.fifo h).words = r.drop (w.field 47 32) ∧
      (c.fifo h).txBad = (s.chip.fifo h).txBad ∧
      ∃ p, c.entered s.chip = [p] ∧ p.kind.toNat = Word.field (l.getD 0 0) 40 34 ∧
        (p.kind.toNat = 0x40 ∨ p.kind.toNat = 0x42 → p.dst.toNat = Word.field (l.getD 0 0) 33 17) ∧
        p.src.toNat = s.chip.endpoint h % 2 ^ 17 ∧ [p.w0, p.w1, p.w2, p.w3] = l.drop 2 := by
  intro l
  refine mgmtTransmit_completes hs hh ?_
  rw [Chip.mgmtTransmit_packet hw hk hm]
  let src := s.chip.endpoint h
  have hf : ((s.chip.putFifo h ((s.chip.fifo h).take (w.field 47 32 + 1))).inject h (mgmtPacket src l)).fifo h =
      (s.chip.fifo h).take (w.field 47 32 + 1) := s.chip.fifo_putFifo_self ..
  refine ⟨rfl, rfl, ?_, ?_, _, Chip.entered_inject h (mgmtPacket src l) rfl, mgmtPacket_kind src l, fun hkind => ?_,
    mgmtPacket_src src l, mgmtPacket_words src l (Chip.mgmtMalformed_false_length hm)⟩
  · rw [hf]
    simp [Fifo.take, hw]
  · rw [hf]
    rfl
  · exact mgmtPacket_dst src l (mgmtPacket_kind src l ▸ hkind)

end

/-! ### Shim packets for a host port (R123) -/

theorem Chip.shimDelivery_taken {c : Chip} {h : Nat} {p : Packet} (h1 : 0x41 ≤ p.kind.toNat) (h2 : p.kind.toNat ≤ 0x44)
    (hd : p.dst.toNat = c.endpoint h) (he : c.hostEnabled h = true) (hf : c.fmRight h = true) :
    c.shimDelivery h p = ({ c with tr := { c.tr with arrivals := c.tr.arrivals.erase p } } : Chip).putFifo (4 + h)
      ((c.fifo (4 + h)).packet 2048 [p.hdr0, p.hdr1, p.w0, p.w1, p.w2, p.w3]) :=
  if_pos (show (decide (0x41 ≤ p.kind.toNat) && decide (p.kind.toNat ≤ 0x44) && c.hostEnabled h && c.fmRight h &&
    p.dst.toNat == c.endpoint h) = true by simp [h1, h2, hd, he, hf])

theorem Chip.shimDelivery_discarded {c : Chip} {h : Nat} (p : Packet) (hf : c.fmRight h = false) :
    c.shimDelivery h p = ({ c with tr := { c.tr with arrivals := c.tr.arrivals.erase p } } : Chip).bump (60 + h) .shimDiscard :=
  if_neg (show ¬(decide (0x41 ≤ p.kind.toNat) && decide (p.kind.toNat ≤ 0x44) && c.hostEnabled h && c.fmRight h &&
    p.dst.toNat == c.endpoint h) = true by simp [hf])

/-- A port without the right to management packets discards and counts them. -/
theorem shimDelivery_discarded_completes {s : State} {h : Nat} (hs : s.serving) (p : Packet) (hf : s.chip.fmRight h = false) :
    Completes (.shimPacketDelivery h p) s fun c =>
      c.mem = s.chip.mem ∧ c.out = s.chip.out ∧ c.fifos = s.chip.fifos ∧
      getCounter ⟨60 + h, .shimDiscard⟩ c.ctr.events = getCounter ⟨60 + h, .shimDiscard⟩ s.chip.ctr.events + 1 := by
  refine .of_serving hs (exec_shimPacketDelivery ..) (s.chip.shimDelivery_calm h p) ?_
  rw [Chip.shimDelivery_discarded p hf]
  exact ⟨(Chip.bump_reports ..).mem, rfl, Chip.bump_fifos .., Chip.bump_self ..⟩

/-- A shim packet for a port with the right goes to its receive FIFO as one packet. -/
theorem shimDelivery_taken_completes {s : State} {h : Nat} {p : Packet} (hs : s.serving) (h1 : 0x41 ≤ p.kind.toNat)
    (h2 : p.kind.toNat ≤ 0x44) (hd : p.dst.toNat = s.chip.endpoint h) (he : s.chip.hostEnabled h = true)
    (hf : s.chip.fmRight h = true) :
    let l := [p.hdr0, p.hdr1, p.w0, p.w1, p.w2, p.w3]
    let g := s.chip.fifo (4 + h)
    Completes (.shimPacketDelivery h p) s fun c =>
      c.mem = s.chip.mem ∧ c.out = s.chip.out ∧ c.ctr = s.chip.ctr ∧ c.fifo (4 + h) = g.packet 2048 l ∧
      (g.quiet = true → g.dropped = 0 → g.words.length + 7 ≤ 2048 → (c.fifo (4 + h)).words = g.words ++ frameWord 6 g.frames :: l) := by
  intro l g
  refine .of_serving hs (exec_shimPacketDelivery ..) (s.chip.shimDelivery_calm h p) ?_
  rw [Chip.shimDelivery_taken h1 h2 hd he hf, Chip.fifo_putFifo_self]
  exact ⟨rfl, rfl, rfl, rfl, fun hq h0 hl => g.packet_words 2048 l hq h0 (List.cons_ne_nil _ _) hl (by simp [l])⟩

/-- Settles O23: reads by `Fifo.readData`, releases by `Fifo.free`, the transmit FIFO by what stands at its read end, the
receive FIFO by the right of the host. -/
theorem fifoReadsMoveAndPacketsPass : Obligations.FifoReadsMoveAndPacketsPass := by
  refine ⟨fun s h b hs => ⟨fun i hi hb => ⟨?_, ?_, ?_, ?_, ?_, ?_, ?_⟩, fun wide hb => ⟨?_, ?_⟩, fun i hi hb => ⟨?_, ?_, ?_⟩⟩,
    fun s h hs hh => ⟨fun w r hw hk => ⟨?_, ?_⟩, ?_, fun p h1 h2 hd => ⟨?_, ?_⟩⟩⟩
  · exact fun wide w hw => ffDataRead_completes hs hi hb wide (Fifo.readData_word _ w hw)
  · exact fun wide h0 => ffDataRead_completes hs hi hb wide (Fifo.readData_empty _ h0)
  · exact .of_reply hs (exec_ffDataUpperRead ..) (Chip.ffReadUpper_consumed hi hb) ⟨rfl, rfl⟩
  · exact .of_putFifo hs (exec_ffMark ..) (Chip.ffControl_own hi hb _) rfl
  · exact .of_putFifo hs (exec_ffRewind ..) (Chip.ffControl_own hi hb _) rfl
  · exact fun p hp => ffRelease_within_completes hs hi hb p hp
  · exact fun p hp => .of_putFifo hs (exec_ffRelease ..) (Chip.ffRelease_consumed hi hb p) (Fifo.free_beyond _ p hp)
  · exact .of_reply hs (exec_ffDataRead ..) (Chip.ffRead_zero hb wide) ⟨rfl, rfl⟩
  · exact .of_reply hs (exec_ffDataUpperRead ..) (Chip.ffReadUpper_zero hb) ⟨rfl, rfl⟩
  · exact .of_putFifo hs (exec_ffMark ..) (Chip.ffControl_bad hi (by simp [hb]) _) rfl
  · exact .of_putFifo hs (exec_ffRewind ..) (Chip.ffControl_bad hi (by simp [hb]) _) rfl
  · exact fun p => .of_idle hs (exec_ffRelease ..) (Chip.ffRelease_ignored _ h hb p)
  · exact fun hm => mgmtTransmit_malformed_completes hs hh hw hk hm
  · exact fun hm => mgmtTransmit_packet_completes hs hh hw hk hm
  · exact fun w r hw hk => mgmtTransmit_marker_completes hs hh hw hk
  · exact fun he hf => shimDelivery_taken_completes hs h1 h2 hd he hf
  · exact fun hf => shimDelivery_discarded_completes hs p hf

end Sys2Proof.Machine
end


section
/-! What reporting adds, and which vectors are sent: the effects that reads and writes of registers may have beside the
register (R104, R109, R455). -/

namespace Sys2Proof.Machine

/-! ### Messages of unmasked vectors (R109) -/

theorem mem_insertNat {x k : Nat} {l : List Nat} : x ∈ insertNat k l ↔ x = k ∨ x ∈ l := by
  induction l with
  | nil => simp [insertNat]
  | cons y r ih =>
    unfold insertNat
    split
    · simp
    · split
      · subst k; simp
      · simp only [List.mem_cons, ih]; tauto

@[simp] theorem Chip.fn_updFn_self (c : Chip) (i : Nat) (f : Func → Func) : (c.updFn i f).fn i = f (c.fn i) := by
  rw [Chip.fn_updFn, if_pos rfl]

@[simp] theorem Chip.fn_sendMsix (c : Chip) (fn v i : Nat) : (c.sendMsix fn v).fn i = c.fn i :=
  congrArg (Tab.get · i Func.init) (c.emit_funcs _)

/-- With an enable 0 or the function masked nothing is sent. -/
theorem Chip.sendPending_held (c : Chip) (fn : Nat)
    (h : (c.fn fn).msixEnable = false ∨ (c.fn fn).busMaster = false ∨ (c.fn fn).functionMask = true) : c.sendPending fn = c := by
  unfold Chip.sendPending
  exact if_pos (by rcases h with h | h | h <;> simp [h])

/-- Sending the messages of vectors changes nothing of the function but the PBA. -/
theorem Chip.fn_sendVectors (fn : Nat) (vs : List Nat) (c : Chip) :
    ∃ l, (vs.foldl (fun c v => (c.updFn fn fun g => { g with pba := g.pba.erase v }).sendMsix fn v) c).fn fn =
      { c.fn fn with pba := l } := by
  induction vs generalizing c with
  | nil => exact ⟨(c.fn fn).pba, rfl⟩
  | cons v vs ih =>
    obtain ⟨l, hl⟩ := ih ((c.updFn fn fun g => { g with pba := g.pba.erase v }).sendMsix fn v)
    exact ⟨l, by rw [List.foldl_cons, hl, Chip.fn_sendMsix, Chip.fn_updFn_self]⟩

theorem Chip.fn_sendPending (c : Chip) (fn : Nat) : ∃ l, (c.sendPending fn).fn fn = { c.fn fn with pba := l } := by
  unfold Chip.sendPending
  dsimp only
  split
  · exact ⟨(c.fn fn).pba, rfl⟩
  · exact Chip.fn_sendVectors fn _ c

/-- A field of the function that is not the PBA reads after `sendPending` as before. -/
theorem Chip.sendPending_field (c : Chip) (fn : Nat) {α : Type} (g : Func → α) (hg : ∀ f l, g { f with pba := l } = g f) :
    g ((c.sendPending fn).fn fn) = g (c.fn fn) := by
  obtain ⟨l, hl⟩ := c.fn_sendPending fn
  rw [hl, hg]

/-- With one pending vector unmasked, its message alone is sent. -/
theorem Chip.sendPending_one (c : Chip) (fn v : Nat) (he : (c.fn fn).msixEnable = true) (hb : (c.fn fn).busMaster = true)
    (hm : (c.fn fn).functionMask = false) (hn : (c.fn fn).pba.Nodup) (hv : v ∈ (c.fn fn).pba) (hu : v ∈ (c.fn fn).unmasked)
    (ho : ∀ x ∈ (c.fn fn).pba, x ≠ v → x ∉ (c.fn fn).unmasked) :
    c.sendPending fn = (c.updFn fn fun g => { g with pba := g.pba.erase v }).sendMsix fn v := by
  have one : ((c.fn fn).pba.filter fun x => (c.fn fn).unmasked.contains x) = [v] := by
    have only : ∀ x ∈ (c.fn fn).pba, (c.fn fn).unmasked.contains x = (x == v) := by
      intro x hx
      by_cases e : x = v
      · simp [e, hu]
      · rw [beq_false_of_ne e]
        simpa using ho x hx e
    rw [List.filter_congr only, List.filter_beq, List.count_eq_one_of_mem hn hv]
    rfl
  unfold Chip.sendPending
  dsimp only
  rw [one, if_neg (by simp [he, hb, hm])]
  rfl

/-- A message reaches a port that is in service with PERST_N high. -/
theorem Chip.sendMsix_out (c : Chip) (fn v : Nat) (hp : (c.port (fn / 256)).perst = false)
    (hu : c.unitStopped (0x3C + fn / 256) = false) :
    (c.sendMsix fn v).out =
      c.out ++ [.msix (fn / 256) fn v (Tab.get (c.fn fn).msixAddr v 0) (Tab.get (c.fn fn).msixData v 0)] := by
  unfold Chip.sendMsix
  rw [Chip.emit_out, if_neg (by simp [Chip.dmaStopped, Output.dmaOf, hp, hu])]

theorem Chip.unmask_eq {c : Chip} {fn v : Nat} (hx : c.fnExists fn = true) (hv : v < vectorCount fn) :
    c.unmask fn v = (c.updFn fn fun f => { f with unmasked := insertNat v f.unmasked }).sendPending fn :=
  if_neg (by simp [hx, hv])

theorem Chip.mask_eq {c : Chip} {fn v : Nat} (hx : c.fnExists fn = true) (hv : v < vectorCount fn) :
    c.mask fn v = c.updFn fn fun f => { f with unmasked := f.unmasked.erase v } :=
  if_neg (by simp [hx, hv])

theorem exec_vectorUnmask (fn v : Nat) (s : State) : exec (.vectorUnmask fn v) s = s.run fun c => c.unmask fn v := rfl

section
variable {s : State} {fn v : Nat} (hs : s.serving) (hx : s.chip.fnExists fn = true) (hv : v < vectorCount fn)
include hs hx hv

theorem vectorUnmask_completes {p : Chip → Prop}
    (hp : p ((s.chip.updFn fn fun f => { f with unmasked := insertNat v f.unmasked }).sendPending fn)) :
    Completes (.vectorUnmask fn v) s p :=
  .of_serving hs (exec_vectorUnmask ..) (s.chip.unmask_calm fn v) (by rwa [Chip.unmask_eq hx hv])

/-- Unmasking the one pending vector sends its message and clears its PBA bit. -/
theorem vectorUnmask_sends (hn : (s.chip.fn fn).pba.Nodup) (hm : v ∈ (s.chip.fn fn).pba)
    (ho : ∀ x ∈ (s.chip.fn fn).pba, x ≠ v → x ∉ (s.chip.fn fn).unmasked) (he : (s.chip.fn fn).msixEnable = true)
    (hb : (s.chip.fn fn).busMaster = true) (hf : (s.chip.fn fn).functionMask = false)
    (hp : (s.chip.port (fn / 256)).perst = false) (hu : s.chip.unitStopped (0x3C + fn / 256) = false) :
    Completes (.vectorUnmask fn v) s fun c =>
      (c.fn fn).pba = (s.chip.fn fn).pba.erase v ∧ v ∈ (c.fn fn).unmasked ∧
      c.out = s.chip.out ++
        [.msix (fn / 256) fn v (Tab.get (s.chip.fn fn).msixAddr v 0) (Tab.get (s.chip.fn fn).msixData v 0)] := by
  refine vectorUnmask_completes hs hx hv ?_
  have hin : v ∈ insertNat v (s.chip.fn fn).unmasked := mem_insertNat.mpr (.inl rfl)
  have hout : ∀ x ∈ (s.chip.fn fn).pba, x ≠ v → x ∉ insertNat v (s.chip.fn fn).unmasked := fun x hx hne hc =>
    (mem_insertNat.mp hc).elim hne (ho x hx hne)
  have one := Chip.sendPending_one (s.chip.updFn fn fun f => { f with unmasked := insertNat v f.unmasked }) fn v
  rw [Chip.fn_updFn_self] at one
  rw [one he hb hf hn hm hin hout]
  refine ⟨?_, ?_, ?_⟩
  · simp
  · simpa using hin
  · rw [Chip.sendMsix_out]
    · simp
    · exact hp
    · exact hu

/-- While an enable is 0 or the function is masked, unmasking sends nothing. -/
theorem vectorUnmask_held
    (h : (s.chip.fn fn).msixEnable = false ∨ (s.chip.fn fn).busMaster = false ∨ (s.chip.fn fn).functionMask = true) :
    Completes (.vectorUnmask fn v) s fun c =>
      v ∈ (c.fn fn).unmasked ∧ (c.fn fn).pba = (s.chip.fn fn).pba ∧ c.out = s.chip.out := by
  refine vectorUnmask_completes hs hx hv ?_
  rw [Chip.sendPending_held _ fn (by simpa using h), Chip.fn_updFn_self]
  exact ⟨mem_insertNat.mpr (.inl rfl), rfl, rfl⟩

end

/-! ### What an occurrence adds (R454, R455) -/

/-- `d` differs from `c` by announcements: outputs behind those of `c`; fault collector and fabric memory are those of `c`. -/
structure Chip.Announces (c d : Chip) : Prop where
  flt : d.flt = c.flt
  mem : d.mem = c.mem
  out : c.out <+: d.out

theorem Chip.Announces.refl (c : Chip) : c.Announces c := ⟨rfl, rfl, List.prefix_rfl⟩

theorem Chip.Announces.trans {c d e : Chip} (h : c.Announces d) (k : d.Announces e) : c.Announces e :=
  ⟨k.flt.trans h.flt, k.mem.trans h.mem, h.out.trans k.out⟩

theorem Chip.Announces.foldl {α : Type} {g : Chip → α → Chip} (hg : ∀ (c : Chip) a, c.Announces (g c a)) (l : List α) (c : Chip) :
    c.Announces (l.foldl g c) := by
  induction l generalizing c with
  | nil => exact .refl c
  | cons a l ih => exact (hg c a).trans (ih (g c a))

theorem Chip.Announces.ite {c a b : Chip} {p : Prop} [Decidable p] (ha : c.Announces a) (hb : c.Announces b) :
    c.Announces (if p then a else b) := by split <;> assumption

theorem Chip.emit_announces (c : Chip) (o : Output) : c.Announces (c.emit o) :=
  .ite (.refl c) ⟨rfl, rfl, List.prefix_append ..⟩

theorem Chip.updFn_announces (c : Chip) (i : Nat) (f : Func → Func) : c.Announces (c.updFn i f) := ⟨rfl, rfl, List.prefix_rfl⟩

theorem Chip.putQueue_announces (c : Chip) (h qn : Nat) (q : Queue) : c.Announces (c.putQueue h qn q) :=
  ⟨rfl, rfl, List.prefix_rfl⟩

theorem Chip.drawn_announces (c : Chip) : c.Announces c.drawn := ⟨rfl, rfl, List.prefix_rfl⟩

theorem Chip.signal_announces (c : Chip) (fn v : Nat) : c.Announces (c.signal fn v) :=
  .ite (.refl c) (.ite (c.updFn_announces ..) (c.emit_announces _))

theorem Chip.urgent_announces (c : Chip) (fn : Nat) : c.Announces (c.urgent fn) :=
  .ite ((c.updFn_announces ..).trans (Chip.emit_announces ..)) (c.updFn_announces ..)

theorem Chip.eventLost_announces (c : Chip) (fn : Nat) : c.Announces (c.eventLost fn) := ⟨rfl, rfl, List.prefix_rfl⟩

theorem Chip.setQState_announces (c : Chip) (h qn : Nat) (st : QState) (cause : Nat) :
    c.Announces (c.setQState h qn st cause) := by
  unfold Chip.setQState
  split
  · exact .refl c
  · exact (c.putQueue_announces ..).trans (Chip.emit_announces ..)

theorem Chip.writeEvent_announces (c : Chip) (h eqn : Nat) (q : Queue) (words : List Word) :
    c.Announces (c.writeEvent h eqn q words) := by
  unfold Chip.writeEvent
  extract_lets c1 c2 c3
  have h3 : c.Announces c3 := ((c.emit_announces _).trans (c1.emit_announces _)).trans (c2.putQueue_announces ..)
  exact .ite (h3.trans (c3.signal_announces ..)) h3

theorem Chip.postEvent_announces (c : Chip) (fn code unit qn detail : Nat) :
    c.Announces (c.postEvent fn code unit qn detail) := by
  unfold Chip.postEvent
  extract_lets f h words
  refine .ite (.refl c) ?_
  split
  · exact c.eventLost_announces fn
  · exact .ite (c.eventLost_announces fn) (.ite (c.writeEvent_announces ..) (c.drawn_announces.trans
      (.ite ((Chip.setQState_announces ..).trans (Chip.eventLost_announces ..))
        (.ite ((Chip.putQueue_announces ..).trans (Chip.eventLost_announces ..)) (Chip.writeEvent_announces ..)))))

theorem Chip.eventPFs_announces (c : Chip) (code unit qn detail : Nat) : c.Announces (c.eventPFs code unit qn detail) :=
  .foldl (fun c _ => c.postEvent_announces ..) _ c

theorem Chip.urgentAll_announces (c : Chip) : c.Announces c.urgentAll :=
  .foldl (fun c _ => .ite (c.urgent_announces _) (.refl c)) _ c

theorem Chip.routeFault_announces (c : Chip) : c.Announces c.routeFault :=
  .foldl (fun c _ => .ite ((c.updFn_announces ..).trans (Chip.signal_announces ..)) (.refl c)) _ c

/-- Where reaction 3 leaves nothing to carry out, the unit was in reset or held already, and it only announces (R458, R459). -/
theorem Chip.reaction3_announces (c : Chip) (unit cause : Nat) (pended : Bool) (h : (c.reaction3 unit cause pended).calm = true) :
    c.Announces (c.reaction3 unit cause pended) := by
  have due := ((Chip.calm_iff _).mp h).2.1
  revert due
  unfold Chip.reaction3
  extract_lets c1 c2 c3 c4 c5
  have h1 : c.Announces c1 := .ite (.refl c) (c.eventPFs_announces ..)
  split
  · exact fun _ => h1
  · split
    · exact fun due => absurd due (List.append_ne_nil_of_right_ne_nil _ (List.cons_ne_nil _ _))
    · exact fun due => absurd due (List.append_ne_nil_of_right_ne_nil _ (List.cons_ne_nil _ _))

/-- A reaction that leaves nothing to carry out only announces: reactions 3 and 4 decide a reset. -/
theorem Chip.react_announces (c : Chip) (unit cause skind subject : Nat) (d0 d1 : Word) (pended : Bool)
    (h : (c.react unit cause skind subject d0 d1 pended).calm = true) :
    c.Announces (c.react unit cause skind subject d0 d1 pended) := by
  revert h
  unfold Chip.react
  extract_lets ctl
  split
  case h_1 => exact fun _ => .ite (.refl c) c.routeFault_announces
  case h_2 => exact fun _ => .ite (.refl c) (c.urgentAll_announces.trans (Chip.eventPFs_announces ..))
  case h_3 => exact c.reaction3_announces unit cause pended
  case h_4 => exact fun h => absurd ((Chip.calm_iff _).mp h).1 (by simp [Chip.reaction4])
  case h_5 => exact fun _ => .refl c

theorem Faults.foldl_close_sources (l : List Record) (f : Faults) : (l.foldl Faults.close f).sources = f.sources := by
  induction l generalizing f with
  | nil => rfl
  | cons r l ih => exact ih (f.close r)

/-- Entering a record changes neither the status of a source nor memory nor what has left the chip. -/
theorem Chip.enterRecord_frame (c : Chip) (unit cause skind subject : Nat) (d0 d1 : Word) :
    let d := c.enterRecord unit cause skind subject d0 d1
    d.flt.sources = c.flt.sources ∧ d.mem = c.mem ∧ d.out = c.out := by
  have hk : c.kerfClose.flt.sources = c.flt.sources := Faults.foldl_close_sources ..
  refine ⟨?_, (c.enterRecord_reports ..).mem, ?_⟩
  · rw [← hk]
    unfold Chip.enterRecord
    dsimp only
    split <;> split <;> rfl
  · unfold Chip.enterRecord
    dsimp only
    split <;> split <;> rfl

/-- An occurrence that leaves nothing to carry out leaves memory, and outputs only behind those before it. -/
theorem Chip.occurrence_announced {c : Chip} {unit cause skind subject : Nat} {d0 d1 : Word}
    (h : (c.occurrence unit cause skind subject d0 d1).calm = true) :
    (c.occurrence unit cause skind subject d0 d1).mem = c.mem ∧ c.out <+: (c.occurrence unit cause skind subject d0 d1).out := by
  revert h
  unfold Chip.occurrence
  split
  · exact fun _ => ⟨rfl, List.prefix_rfl⟩
  · extract_lets s c1
    obtain ⟨-, hm, ho⟩ := (c.setSrc unit cause s.occurs).enterRecord_frame unit cause skind subject d0 d1
    intro h
    have ha := c1.react_announces unit cause skind subject d0 d1 s.pend h
    exact ⟨ha.mem.trans hm, ho ▸ ha.out⟩

/-- An occurrence of a cause that a unit in service has sets PEND (R462). -/
theorem Chip.occurrence_pend {c : Chip} {unit cause skind subject : Nat} {d0 d1 : Word}
    (h : (c.occurrence unit cause skind subject d0 d1).calm = true) (hp : unitPresent c.variant unit = true)
    (hc : isCause unit cause = true) (hu : c.unitStopped unit = false) :
    ((c.occurrence unit cause skind subject d0 d1).src unit cause).pend = true := by
  obtain ⟨hr, hd⟩ : c.flt.inReset.contains unit = false ∧ c.flt.heldUnits.contains unit = false := by
    simpa only [Chip.unitStopped, Bool.or_eq_false_iff] using hu
  revert h
  unfold Chip.occurrence
  rw [if_neg (by rw [hp, hc, hr, hd]; decide)]
  extract_lets s c1
  obtain ⟨hsrc, -, -⟩ := (c.setSrc unit cause s.occurs).enterRecord_frame unit cause skind subject d0 d1
  intro h
  have ha := c1.react_announces unit cause skind subject d0 d1 s.pend h
  unfold Chip.src
  rw [ha.flt, hsrc]
  exact congrArg Source.pend (Tab.get_set_self c.flt.sources (srcKey unit cause) s.occurs Source.init)

theorem unitPresent_lt {v : Variant} {u : Nat} (h : unitPresent v u = true) : u < 0xE0 := by
  by_contra hu
  have hn : unitPresent v u = unitNumber u := by
    unfold unitPresent
    simp [show ¬u < 0x3C by omega, show ¬u < 0x40 by omega, show ¬u < 0x5E by omega, show ¬u < 0x70 by omega,
      show ¬u < 0x80 by omega, show ¬u < 0x88 by omega]
  rw [hn] at h
  simp [unitNumber] at h
  omega

/-- Every unit that a variant has has the cause 0x101 (R452). -/
theorem isCause_counterPage {v : Variant} {u : Nat} (h : unitPresent v u = true) : isCause u 0x101 = true := by
  have table : ∀ u < 0xE0, unitPresent v u = true → isCause u 0x101 = true := by cases v <;> decide +kernel
  exact table u (unitPresent_lt h) h

end Sys2Proof.Machine
end


section
/-! Registers of a function as a host writes and reads them (R56, R104, R106 to R111, R481). -/

namespace Sys2Proof.Machine

/-! ### Writes reach the register of their offset -/

theorem exec_registerWrite (s : State) (fn : Nat) (reg : HostReg) (v : Word) :
    exec (.registerWrite fn reg v) s = s.runAny fun c => if c.up then c.registerWrite fn reg v else c.earlyWrite fn reg := rfl

/-- While a service runs, a register write acts on the function it names. -/
theorem exec_registerWrite_up {s : State} (hu : s.chip.up = true) (fn : Nat) (reg : HostReg) (v : Word) :
    exec (.registerWrite fn reg v) s = s.run fun c => c.registerWrite fn reg v := by
  rw [exec_registerWrite]
  simp only [State.runAny, State.run, hu, if_true]

section
variable {c : Chip} {fn : Nat}

theorem Chip.registerWrite_config (hx : c.fnExists fn = true) (b : CfgBit) (v : Word) :
    c.registerWrite fn (.config b) v = c.configWrite fn b v :=
  if_neg (by simp [hx])

theorem Chip.registerWrite_bar0 (hx : c.fnExists fn = true) (off : Nat) (wide : Bool) (v : Word) :
    c.registerWrite fn (.bar0 off wide) v = c.barWrite fn off wide v :=
  if_neg (by simp [hx])

/-- The identity registers ignore writes (R106). -/
theorem Chip.barWrite_identity {off : Nat} (hl : off < 0x1000) (wide : Bool) (v : Word) : c.barWrite fn off wide v = c := by
  simp [Chip.barWrite, Nat.div_eq_of_lt hl]

theorem Chip.barWrite_mailbox {off : Nat} (hf : isPf fn = true) (ha : off % 8 = 0) (hr : off / 0x1000 = 1) (v : Word) :
    c.barWrite fn off true v = c.mbxWrite (fn / 256) off true v := by
  simp [Chip.barWrite, ha, hr, hf]

theorem Chip.barWrite_fifo {off : Nat} (hf : isPf fn = true) (ha : off % 8 = 0) (hr : off / 0x1000 = 2) (v : Word) :
    c.barWrite fn off true v = c.fifoWrite (fn / 256) off true v := by
  simp [Chip.barWrite, ha, hr, hf]

theorem Chip.barWrite_event {off : Nat} (ha : off % 8 = 0) (hr : off / 0x1000 = 3) (v : Word) :
    c.barWrite fn off true v = c.eventWrite fn off true v := by
  simp [Chip.barWrite, ha, hr]

theorem Chip.barWrite_msix {off : Nat} (ha : off % 8 = 0) (hl : 8 ≤ off / 0x1000) (hh : off / 0x1000 < 16) (v : Word) :
    c.barWrite fn off true v = c.msixWrite fn off true v := by
  unfold Chip.barWrite
  rw [if_neg (by simp [ha])]
  split
  case h_1 | h_2 | h_3 => omega
  case h_4 => exact if_pos ⟨hl, hh⟩

/-- An address of the MSI-X table is stored (R109). -/
theorem Chip.msixWrite_addr {t : Nat} (ht : t < vectorCount fn) (v : Word) :
    c.msixWrite fn (0x8000 + 16 * t) true v = c.updFn fn fun f => { f with msixAddr := Tab.set f.msixAddr 0 t v.toNat } := by
  have h8 : (0x8000 + 16 * t) / 8 % 2 = 0 := by omega
  simp [Chip.msixWrite, h8, ht, mergedWrite]

/-- The data of an MSI-X table entry is stored, and its vector masked or unmasked (R109). -/
theorem Chip.msixWrite_data {t : Nat} (ht : t < vectorCount fn) (v : Word) :
    let d := c.updFn fn fun f => { f with msixData := Tab.set f.msixData 0 t (v.field 31 0) }
    c.msixWrite fn (0x8008 + 16 * t) true v = if v.getLsbD 32 then d.mask fn t else d.unmask fn t := by
  have h16 : (0x8008 + 16 * t - 0x8000) / 16 = t := by omega
  have h8 : (0x8008 + 16 * t) / 8 % 2 = 1 := by omega
  simp [Chip.msixWrite, h16, h8, ht, mergedWrite]

end

theorem bitOf_toNat (v : Word) (i : Nat) : bitOf v.toNat i = v.getLsbD i := BitVec.testBit_toNat v

/-- An update that keeps a function's state keeps whether it exists. -/
theorem Chip.fnExists_updFn (c : Chip) (fn : Nat) (f : Func → Func) (hs : (f (c.fn fn)).state = (c.fn fn).state)
    (hv : (f (c.fn fn)).vfGone = (c.fn fn).vfGone) : (c.updFn fn f).fnExists fn = c.fnExists fn := by
  unfold Chip.fnExists Chip.fnState
  rw [Chip.fn_updFn_self, hs, hv]
  rfl

/-- In a service, a register write that leaves the chip as calm as it was completes with its effect. -/
theorem Completes.of_registerWrite {s : State} {fn : Nat} {reg : HostReg} {v : Word} {d : Chip} {p : Chip → Prop} (hs : s.serving)
    (hd : s.chip.registerWrite fn reg v = d) (hc : d.calm = s.chip.calm) (hp : p d) : Completes (.registerWrite fn reg v) s p :=
  .of_serving hs (exec_registerWrite_up hs.1 ..) (hd ▸ hc) (hd ▸ hp)

/-! ### Writes of the registers of a function complete -/

section
variable {s : State} {fn : Nat} (hs : s.serving) (hx : s.chip.fnExists fn = true) (v : Word)
include hs hx

/-- A write of an event register completes with what `Chip.eventWrite` does. -/
theorem eventRegister_completes {off : Nat} {p : Chip → Prop} (ha : off % 8 = 0) (hr : off / 0x1000 = 3)
    (hp : p (s.chip.eventWrite fn off true v)) : Completes (.registerWrite fn (.bar0 off true) v) s p :=
  .of_registerWrite hs ((Chip.registerWrite_bar0 hx ..).trans (Chip.barWrite_event ha hr v)) (Chip.eventWrite_calm ..) hp

theorem asyncEq_written : Completes (.registerWrite fn (.bar0 0x3000 true) v) s fun c =>
    (c.fn fn).eqValid = v.getLsbD 31 ∧ (c.fn fn).eqn = v.field 23 0 ∧ c.dict = s.chip.dict ∧ c.out = s.chip.out := by
  refine eventRegister_completes hs hx v rfl rfl ?_
  simp [Chip.eventWrite, mergedWrite]

theorem urgent_written (hf : fn % 256 = 0) : Completes (.registerWrite fn (.bar0 0x3008 true) v) s fun c =>
    (c.fn fn).urgentEnable = v.getLsbD 11 ∧ (c.fn fn).urgentVector = v.field 10 0 ∧ c.out = s.chip.out := by
  refine eventRegister_completes hs hx v rfl rfl ?_
  simp [Chip.eventWrite, mergedWrite, isPf, hf]

theorem fault_written (hf : fn % 256 = 0) : Completes (.registerWrite fn (.bar0 0x3010 true) v) s fun c =>
    (c.fn fn).faultEnable = v.getLsbD 11 ∧ (c.fn fn).faultVector = v.field 10 0 ∧ c.out = s.chip.out := by
  refine eventRegister_completes hs hx v rfl rfl ?_
  simp [Chip.eventWrite, mergedWrite, isPf, hf]

/-- The bits of EV_SUMMARY clear where a 1 is written (R107). -/
theorem summary_cleared : Completes (.registerWrite fn (.bar0 0x3018 true) v) s fun c =>
    c.out = s.chip.out ∧ (c.fn fn).evLost = ((s.chip.fn fn).evLost && !v.getLsbD 2) ∧
    (c.fn fn).evFault = ((s.chip.fn fn).evFault && !v.getLsbD 1) ∧
    (c.fn fn).evUrgent = ((s.chip.fn fn).evUrgent && !v.getLsbD 0) := by
  refine eventRegister_completes hs hx v rfl rfl ?_
  simp [Chip.eventWrite, clearedBy, mergedWrite, bitOf_toNat]

theorem msixAddr_written {t : Nat} (ht : t < vectorCount fn) (hl : t < 2048) :
    Completes (.registerWrite fn (.bar0 (0x8000 + 16 * t) true) v) s fun c =>
      Tab.get (c.fn fn).msixAddr t 0 = v.toNat ∧ c.out = s.chip.out := by
  refine .of_registerWrite hs (((Chip.registerWrite_bar0 hx ..).trans
    (Chip.barWrite_msix (by omega) (by omega) (by omega) v)).trans (Chip.msixWrite_addr ht v)) (Chip.updFn_calm ..) ?_
  simp

/-- A write of the data of an entry stores it and leaves the Mask bit that is written. -/
theorem msixData_written {t : Nat} (ht : t < vectorCount fn) (hl : t < 2048) :
    Completes (.registerWrite fn (.bar0 (0x8008 + 16 * t) true) v) s fun c =>
      Tab.get (c.fn fn).msixData t 0 = v.field 31 0 ∧
      ((s.chip.fn fn).unmasked.Nodup → (c.fn fn).unmasked.contains t = !v.getLsbD 32) := by
  refine .of_registerWrite hs ((Chip.registerWrite_bar0 hx ..).trans
    (Chip.barWrite_msix (by omega) (by omega) (by omega) v)) (Chip.msixWrite_calm ..) ?_
  rw [Chip.msixWrite_data ht v]
  have hx' : (s.chip.updFn fn fun f => { f with msixData := Tab.set f.msixData 0 t (v.field 31 0) }).fnExists fn = true :=
    (s.chip.fnExists_updFn fn _ rfl rfl).trans hx
  cases hm : v.getLsbD 32 with
  | true =>
    rw [if_pos rfl, Chip.mask_eq hx' ht]
    simp only [Chip.fn_updFn_self]
    exact ⟨Tab.get_set_self .., fun hn => by simpa using hn.not_mem_erase⟩
  | false =>
    rw [if_neg Bool.false_ne_true, Chip.unmask_eq hx' ht]
    refine ⟨?_, fun _ => ?_⟩
    · rw [Chip.sendPending_field _ fn Func.msixData fun _ _ => rfl]
      simp
    · rw [Chip.sendPending_field _ fn Func.unmasked fun _ _ => rfl]
      simp [mem_insertNat]

/-- A write of a field of configuration space completes with what `Chip.configWrite` does. -/
theorem config_completes (b : CfgBit) {p : Chip → Prop} (hp : p (s.chip.configWrite fn b v)) :
    Completes (.registerWrite fn (.config b) v) s p :=
  .of_registerWrite hs (Chip.registerWrite_config hx b v) (Chip.configWrite_calm ..) hp

end

/-- Before a service runs, a configuration write gets Request Retry Status while the chip boots (R481). -/
theorem config_retried {s : State} {fn : Nat} (b : CfgBit) (v : Word) (hc : s.chip.calm = true)
    (hb : s.chip.boot.phase = .booting ∨ s.chip.boot.phase = .loaded) (hh : s.chip.hasHost (fn / 256) = true)
    (hp : (s.chip.port (fn / 256)).perst = false) :
    Completes (.registerWrite fn (.config b) v) s fun c => c = { s.chip with out := s.chip.out ++ [.configRetry fn] } := by
  have hu : s.chip.up = false := by rcases hb with hb | hb <;> simp [Chip.up, hb]
  have he : s.chip.earlyWrite fn (.config b) = s.chip.emit (.configRetry fn) :=
    if_pos (by rcases hb with hb | hb <;> simp [hb, hh, hp])
  refine .of_runAny (exec_registerWrite ..) ?_ ?_
  · simp [hu, hc]
  · simp only [hu, Bool.false_eq_true, if_false, he]
    rfl

end Sys2Proof.Machine
end


section
/-! The mailbox and FIFO registers as commands, reads of BAR0 and BAR2, and the obligation on registers, vectors and counters
(R56, R104, R106, R110, R117). -/

namespace Sys2Proof.Machine

/-! ### Registers that are commands (R56, R106) -/

/-- Two meanings that act alike on the chip answer alike. -/
theorem State.run_congr {s : State} {f g : Chip → Chip} (h : f s.chip = g s.chip) : s.run f = s.run g := by
  simp only [State.run, h]

theorem isPf_mul (h : Nat) : isPf (h * 256) = true := by simp [isPf]

/-- A write of MBX_CMD that sets GO is the mailbox request of its OP (R56). -/
theorem Chip.registerWrite_mbxCmd {c : Chip} {h : Nat} {v : Word} (hx : c.fnExists (h * 256) = true) (hg : v.getLsbD 63 = true) :
    c.registerWrite (h * 256) (.bar0 0x1000 true) v =
      c.mbxRequest h (v.field 55 48) (v.getLsbD 47) (v.field 39 32) (BitVec.ofNat 32 (v.field 31 0)) := by
  rw [Chip.registerWrite_bar0 hx, Chip.barWrite_mailbox (isPf_mul h) rfl rfl, Nat.mul_div_cancel h (by decide)]
  simp [Chip.mbxWrite, Chip.mbxCmdWrite, upperOnly, hg]

section
variable {off : Nat} (h0 : 0x2000 ≤ off) (h1 : off < 0x3000) (h4 : off % 0x400 = 0)
include h0 h1 h4

/-- The registers of a block name the block of its first offset (R111). -/
theorem fifoBlockAt_register {reg : Nat} (hr : reg < 0x400) : fifoBlockAt (off + reg) = fifoBlockAt off := by
  unfold fifoBlockAt
  rw [show (off + reg - 0x2000) / 0x400 = (off - 0x2000) / 0x400 by omega]

/-- A whole write of a register of a block, by the register's offset in the block. -/
theorem Chip.registerWrite_fifo {c : Chip} {h : Nat} (hx : c.fnExists (h * 256) = true) {reg : Nat} (hr : reg < 0x400)
    (ha : reg % 8 = 0) (v : Word) :
    c.registerWrite (h * 256) (.bar0 (off + reg) true) v = c.fifoRegWrite h (fifoBlockAt off) reg (off + reg) true v := by
  rw [Chip.registerWrite_bar0 hx, Chip.barWrite_fifo (isPf_mul h) (by omega) (by omega), Nat.mul_div_cancel h (by decide),
    Chip.fifoWrite, fifoBlockAt_register h0 h1 h4 hr, show (off + reg - 0x2000) % 0x400 / 8 * 8 = reg by omega]

/-- FF_DATA is at the first offset of a block. -/
theorem ffDataAt_block {reg : Nat} (hr : reg < 8) : ffDataAt (off + reg) = some (fifoBlockAt off) := by
  rw [ffDataAt, if_pos ⟨by omega, by omega⟩, fifoBlockAt_register h0 h1 h4 (by omega)]

end

/-- The command bits of FF_CTRL. -/
theorem ctrlBits (v : Word) : v.field 31 0 % 16 = v.field 3 0 := by
  simp only [Word.field, bits]
  omega

/-- What a whole write does at each register of a block that is a command (R111). -/
theorem Chip.fifoRegWrite_data (c : Chip) (h : Nat) (b : FifoBlock) (off : Nat) (v : Word) :
    c.fifoRegWrite h b 0 off true v = c.ffWrite h b true v := rfl

theorem Chip.fifoRegWrite_release (c : Chip) (h : Nat) (b : FifoBlock) (off : Nat) (v : Word) :
    c.fifoRegWrite h b 0x28 off true v = c.ffRelease h b (BitVec.ofNat 32 (v.field 31 0)) := rfl

theorem Chip.fifoRegWrite_ctrl (c : Chip) (h : Nat) (b : FifoBlock) (off : Nat) (v : Word) :
    c.fifoRegWrite h b 0x10 off true v = c.ffCtrlWrite h b (v.field 31 0) := rfl

section
variable (c : Chip) (h : Nat) (b : FifoBlock) (off : Nat) {v : Word}

theorem Chip.fifoRegWrite_commit (hv : v.field 3 0 = 1) : c.fifoRegWrite h b 0x10 off true v = c.ffCommit h b := by
  simp only [Chip.fifoRegWrite_ctrl, Chip.ffCtrlWrite, ctrlBits, hv]

theorem Chip.fifoRegWrite_abort (hv : v.field 3 0 = 2) : c.fifoRegWrite h b 0x10 off true v = c.ffAbort h b := by
  simp only [Chip.fifoRegWrite_ctrl, Chip.ffCtrlWrite, ctrlBits, hv]

theorem Chip.fifoRegWrite_mark (hv : v.field 3 0 = 4) : c.fifoRegWrite h b 0x10 off true v = c.ffMark h b := by
  simp only [Chip.fifoRegWrite_ctrl, Chip.ffCtrlWrite, ctrlBits, hv]

theorem Chip.fifoRegWrite_rewind (hv : v.field 3 0 = 8) : c.fifoRegWrite h b 0x10 off true v = c.ffRewind h b := by
  simp only [Chip.fifoRegWrite_ctrl, Chip.ffCtrlWrite, ctrlBits, hv]

end

section
variable (h : Nat) (relay : Bool) (vf : Nat) (n : BitVec 32) (s : State)

theorem exec_read : exec (.read h relay vf n) s = s.run fun c => c.mbxRequest h 1 relay vf n := rfl
theorem exec_write : exec (.write h relay vf n) s = s.run fun c => c.mbxRequest h 2 relay vf n := rfl
theorem exec_describe : exec (.describe h relay vf n) s = s.run fun c => c.mbxRequest h 3 relay vf n := rfl
theorem exec_readStaged : exec (.readStaged h relay vf n) s = s.run fun c => c.mbxRequest h 4 relay vf n := rfl

end

section
variable {s : State} {h : Nat} (hu : s.chip.up = true) (hx : s.chip.fnExists (h * 256) = true) {v : Word}
include hu hx

/-- A write with GO is the mailbox command of its OP. -/
theorem exec_mbxCmd (hg : v.getLsbD 63 = true) {op : Nat} (ho : v.field 55 48 = op) {ins : Instr}
    (hi : exec ins s = s.run fun c => c.mbxRequest h op (v.getLsbD 47) (v.field 39 32) (BitVec.ofNat 32 (v.field 31 0))) :
    exec (.registerWrite (h * 256) (.bar0 0x1000 true) v) s = exec ins s := by
  rw [exec_registerWrite_up hu, hi, ← ho]
  exact State.run_congr (Chip.registerWrite_mbxCmd hx hg)

/-- A whole write of a register of a block is the command of that register. -/
theorem exec_fifoRegister {off : Nat} (h0 : 0x2000 ≤ off) (h1 : off < 0x3000) (h4 : off % 0x400 = 0) {reg : Nat}
    (hr : reg < 0x400) (ha : reg % 8 = 0) {ins : Instr} {f : Chip → Chip} (hi : exec ins s = s.run f)
    (hf : s.chip.fifoRegWrite h (fifoBlockAt off) reg (off + reg) true v = f s.chip) :
    exec (.registerWrite (h * 256) (.bar0 (off + reg) true) v) s = exec ins s := by
  rw [exec_registerWrite_up hu, hi]
  exact State.run_congr ((Chip.registerWrite_fifo h0 h1 h4 hx hr ha v).trans hf)

end

/-! ### Reads of BAR0 and BAR2 (R104, R106, R110) -/

theorem exec_counterPageRead (s : State) (fn : Nat) (a : BarRead) :
    exec (.counterPageRead fn a) s = s.run fun c => c.barRead fn a := rfl

section
variable {c : Chip} {fn : Nat} (hx : c.fnExists fn = true)
include hx

theorem Chip.barRead_bar0 (off : Nat) (wide : Bool) : c.barRead fn (.bar0 off wide) = c.bar0Read fn off wide :=
  if_neg (by simp [hx])

theorem Chip.barRead_bar2 (off : Nat) : c.barRead fn (.bar2 off) = c.reply fn 0 :=
  if_neg (by simp [hx])

/-- A misaligned access reads zero (R106). -/
theorem Chip.barRead_misaligned {off : Nat} (ha : off % 4 ≠ 0) (wide : Bool) : c.barRead fn (.bar0 off wide) = c.reply fn 0 :=
  (Chip.barRead_bar0 hx ..).trans (if_pos (by cases wide <;> simp <;> omega))

/-- An aligned access to the counter page. -/
theorem Chip.barRead_counterPage {off : Nat} {wide : Bool} (ha : off % (if wide then 8 else 4) = 0) (h0 : 0x4000 ≤ off)
    (h1 : off < 0x8000) : c.barRead fn (.bar0 off wide) = c.counterPage fn off wide :=
  (Chip.barRead_bar0 hx ..).trans ((if_neg (not_not.mpr ha)).trans (if_pos ⟨h0, h1⟩))

/-- An aligned access to a register that is neither a counter nor FF_DATA reads its value. -/
theorem Chip.barRead_register {off : Nat} {wide : Bool} (ha : off % (if wide then 8 else 4) = 0) (h0 : off < 0x4000 ∨ 0x8000 ≤ off)
    (hd : isPf fn = false ∨ ffDataAt off = none) :
    c.barRead fn (.bar0 off wide) = c.reply fn (halfOf off wide (c.barWord fn (off / 8 * 8))) := by
  rw [Chip.barRead_bar0 hx, Chip.bar0Read, if_neg (not_not.mpr ha), if_neg (by omega)]
  have hn : (if isPf fn = true then ffDataAt off else none) = none := by rcases hd with hd | hd <;> simp [hd]
  rw [hn]

/-- Where P20.012 shows the page, a read gives the counter of its slot, whole or the addressed half (R110). -/
theorem Chip.counterPage_shown {k : Nat} (hk : k < 7) (hp : c.param 0x20 0x012 fn = 1) {off : Nat} (h0 : 0x4000 + 8 * k ≤ off)
    (h1 : off < 0x4000 + 8 * k + 8) (wide : Bool) :
    c.counterPage fn off wide = c.reply fn (halfOf off wide (c.fnCounter k fn)) := by
  have hs : c.counterSlot fn off = c.fnCounter k fn := by
    have hk' : (off - 0x4000) / 8 = k := by omega
    unfold Chip.counterSlot
    rw [hk']
    exact if_pos ⟨by omega, hk⟩
  unfold Chip.counterPage
  rw [if_neg (by simp [hx]; omega), if_neg (not_not.mpr hp), hs]

/-- Where it does not show the page, a read gives 0 and raises the port's fault 0x101. -/
theorem Chip.counterPage_closed (hp : c.param 0x20 0x012 fn ≠ 1) {off : Nat} (h0 : 0x4000 ≤ off) (h1 : off < 0x8000) (wide : Bool) :
    c.counterPage fn off wide = (c.reply fn 0).raise (0x3C + fn / 256) 0x101 12 fn :=
  (if_neg (by simp [hx]; omega)).trans (if_pos hp)

end

theorem Chip.bar0Read_ffData (c : Chip) (h : Nat) {off : Nat} (h0 : 0x2000 ≤ off) (h1 : off < 0x3000) (h4 : off % 0x400 = 0)
    (wide : Bool) : c.bar0Read (h * 256) off wide = c.ffRead h (fifoBlockAt off) wide := by
  have hd : ffDataAt off = some (fifoBlockAt off) := ffDataAt_block h0 h1 h4 (reg := 0) (by decide)
  unfold Chip.bar0Read
  rw [if_neg (by cases wide <;> simp <;> omega), if_neg (by omega), if_pos (isPf_mul h), hd, Nat.mul_div_cancel h (by decide)]
  exact if_neg (by simp; omega)

theorem Chip.bar0Read_ffDataUpper (c : Chip) (h : Nat) {off : Nat} (h0 : 0x2000 ≤ off) (h1 : off < 0x3000) (h4 : off % 0x400 = 0) :
    c.bar0Read (h * 256) (off + 4) false = c.ffReadUpper h (fifoBlockAt off) := by
  unfold Chip.bar0Read
  rw [if_neg (by simp; omega), if_neg (by omega), if_pos (isPf_mul h), ffDataAt_block h0 h1 h4 (by decide),
    Nat.mul_div_cancel h (by decide)]
  exact if_pos (by simp; omega)

/-- A 32-bit access reads the addressed half: the lower one at a multiple of 8. -/
theorem halfOf_narrow {off x : Nat} (ha : off % 4 = 0) (hx : x % 8 = off % 8) (w : Word) :
    halfOf off false w = if x % 8 = 0 then BitVec.ofNat 64 (w.field 31 0) else BitVec.ofNat 64 (w.field 63 32) := by
  have hp : off / 4 % 2 = 0 ↔ x % 8 = 0 := by omega
  simp only [halfOf, Bool.false_eq_true, if_false, hp]

/-! ### Reads complete -/

section
variable {s : State} {fn : Nat}

/-- In a service, a read that only replies completes with its reply. -/
theorem barRead_completes {a : BarRead} {w : Word} (hs : s.serving) (hr : s.chip.barRead fn a = s.chip.reply fn w) :
    Completes (.counterPageRead fn a) s fun c => c = { s.chip with out := s.chip.out ++ [.regRead fn w] } :=
  .of_reply hs (exec_counterPageRead ..) hr rfl

/-- A read of a slot of a counter page that is shown replies with the counter, or with its addressed half. -/
theorem counterRead_completes (hs : s.serving) (hx : s.chip.fnExists fn = true) {k : Nat} (hk : k < 7)
    (hp : s.chip.param 0x20 0x012 fn = 1) {off : Nat} {wide : Bool} (ha : off % (if wide then 8 else 4) = 0)
    (h0 : 0x4000 + 8 * k ≤ off) (h1 : off < 0x4000 + 8 * k + 8) {w : Word} (hw : halfOf off wide (s.chip.fnCounter k fn) = w) :
    Completes (.counterPageRead fn (.bar0 off wide)) s fun c => c = { s.chip with out := s.chip.out ++ [.regRead fn w] } :=
  hw ▸ barRead_completes hs
    ((Chip.barRead_counterPage hx ha (by omega) (by omega)).trans (Chip.counterPage_shown hx hk hp h0 h1 wide))

/-- A read of a counter page that is not shown replies 0 and sets PEND of the port's source 0x101. -/
theorem closedPageRead_completes (hx : s.chip.fnExists fn = true) {off : Nat} {wide : Bool}
    (hl : s.leaves fun c => c.barRead fn (.bar0 off wide)) (h0 : 0x4000 ≤ off) (h1 : off < 0x8000) (ha : off % 8 = 0)
    (hp : s.chip.param 0x20 0x012 fn ≠ 1) :
    Completes (.counterPageRead fn (.bar0 off wide)) s fun c =>
      c.mem = s.chip.mem ∧ (∃ l, c.out = s.chip.out ++ .regRead fn 0 :: l) ∧
      (unitPresent s.chip.variant (0x3C + fn / 256) = true → s.chip.unitStopped (0x3C + fn / 256) = false →
        (c.src (0x3C + fn / 256) 0x101).pend = true) := by
  have hr : s.chip.barRead fn (.bar0 off wide) = (s.chip.reply fn 0).raise (0x3C + fn / 256) 0x101 12 fn :=
    (Chip.barRead_counterPage hx (by cases wide <;> simp <;> omega) h0 h1).trans (Chip.counterPage_closed hx hp h0 h1 wide)
  have hc : ((s.chip.reply fn 0).raise (0x3C + fn / 256) 0x101 12 fn).calm = true := hr ▸ hl.2
  refine .of_run (exec_counterPageRead ..) hl.1 hl.2 ?_
  rw [hr]
  obtain ⟨hm, l, ho⟩ := Chip.occurrence_announced hc
  refine ⟨hm, ⟨l, ?_⟩, fun hv hs => Chip.occurrence_pend hc hv (isCause_counterPage hv) hs⟩
  rw [List.append_cons]
  exact ho.symm

/-- A read of FF_DATA runs the FIFO command of the same read (R117). -/
theorem exec_ffDataRegister (hx : s.chip.fnExists fn = true) {off : Nat} {wide : Bool} {ins : Instr} {f : Chip → Chip}
    (hi : exec ins s = s.run f) (hf : s.chip.bar0Read fn off wide = f s.chip) :
    exec (.counterPageRead fn (.bar0 off wide)) s = exec ins s := by
  rw [exec_counterPageRead, hi]
  exact State.run_congr ((Chip.barRead_bar0 hx off wide).trans hf)

end

/-- Doorbell writes beyond the configured pages are ignored (R104). -/
theorem Chip.doorbell_beyond {c : Chip} {fn off : Nat} (h : c.doorbellPages fn ≤ off / 4096) (whole : Bool) (w : Word) (op : Nat)
    (f : Chip → Chip) : c.doorbell fn off whole w op f = c :=
  if_pos (by simp [h])

section
variable (fn off : Nat) (whole : Bool) (w : Word) (s : State)

theorem exec_ring :
    exec (.ring fn off whole w) s = s.run fun c => c.doorbell fn off whole w 0 fun c => c.ringQueue fn w (dbFlag w) := rfl
theorem exec_invalidate :
    exec (.invalidate fn off whole w) s = s.run fun c => c.doorbell fn off whole w 1 fun c => c.invalidateQueue fn w := rfl
theorem exec_arm (idx : IndexRead) :
    exec (.arm fn off whole w idx) s = s.run fun c => c.doorbell fn off whole w 2 fun c => c.armQueue fn w idx := rfl

end

/-- Settles O19: writes go to the register of their offset and reads come from it, each by the equation of its region; a
counter page that is not shown raises its fault, which announces and sets PEND. -/
theorem registersVectorsAndCountersAct : Obligations.RegistersVectorsAndCountersAct := by
  refine ⟨⟨fun s fn v hs hx => ⟨?_, ?_, ?_, ?_, ?_, ?_, ?_, ?_, ?_, ?_, ?_, ?_, ?_⟩, ?_, fun s h v hu hx => ⟨fun hg => ⟨?_, ?_, ?_, ?_⟩,
    fun off h0 h1 h4 => ⟨?_, ?_, ?_, ?_, ?_, ?_⟩⟩⟩, fun s fn hx => ⟨?_, ?_, ?_, ?_, ?_, ?_, ?_, ?_, ?_⟩⟩
  -- Writes to the registers of a function.
  · exact asyncEq_written hs hx v
  · exact fun hf => ⟨urgent_written hs hx v hf, fault_written hs hx v hf⟩
  · exact summary_cleared hs hx v
  · exact fun t ht hl => ⟨msixAddr_written hs hx v ht hl, msixData_written hs hx v ht hl⟩
  · exact config_completes hs hx v .busMaster
      ((Chip.sendPending_field _ fn Func.busMaster fun _ _ => rfl).trans (by simp))
  · exact config_completes hs hx v .msixEnable
      ((Chip.sendPending_field _ fn Func.msixEnable fun _ _ => rfl).trans (by simp))
  · exact config_completes hs hx v .functionMask
      ((Chip.sendPending_field _ fn Func.functionMask fun _ _ => rfl).trans (by simp))
  · exact config_completes hs hx v .atomicRequester (by simp [Chip.configWrite])
  · exact config_completes hs hx v .atsEnable (by simp [Chip.configWrite])
  · exact config_completes hs hx v .relaxedOrdering (by simp [Chip.configWrite])
  · exact fun h2 => config_completes hs hx v .maxPayload (by simp [Chip.configWrite, supported, h2])
  · exact fun h5 => config_completes hs hx v .maxReadRequest (by simp [Chip.configWrite, supported, h5])
  · exact fun off hl _ =>
      .of_registerWrite hs ((Chip.registerWrite_bar0 hx ..).trans (Chip.barWrite_identity hl ..)) rfl rfl
  · exact fun s fn b v hc hb hh hp => config_retried b v hc hb hh hp
  -- Writes that are commands.
  · exact fun ho => exec_mbxCmd hu hx hg ho (exec_read ..)
  · exact fun ho => exec_mbxCmd hu hx hg ho (exec_write ..)
  · exact fun ho => exec_mbxCmd hu hx hg ho (exec_describe ..)
  · exact fun ho => exec_mbxCmd hu hx hg ho (exec_readStaged ..)
  · exact exec_fifoRegister hu hx h0 h1 h4 (reg := 0) (by decide) rfl (exec_ffDataWrite ..) (Chip.fifoRegWrite_data ..)
  · exact exec_fifoRegister hu hx h0 h1 h4 (by decide) rfl (exec_ffRelease ..) (Chip.fifoRegWrite_release ..)
  · exact fun hv => exec_fifoRegister hu hx h0 h1 h4 (by decide) rfl (exec_ffCommit ..) (Chip.fifoRegWrite_commit _ h _ _ hv)
  · exact fun hv => exec_fifoRegister hu hx h0 h1 h4 (by decide) rfl (exec_ffAbort ..) (Chip.fifoRegWrite_abort _ h _ _ hv)
  · exact fun hv => exec_fifoRegister hu hx h0 h1 h4 (by decide) rfl (exec_ffMark ..) (Chip.fifoRegWrite_mark _ h _ _ hv)
  · exact fun hv => exec_fifoRegister hu hx h0 h1 h4 (by decide) rfl (exec_ffRewind ..) (Chip.fifoRegWrite_rewind _ h _ _ hv)
  -- Vectors.
  · exact fun v hs hv hn hm ho he hb hf hp hu => vectorUnmask_sends hs hx hv hn hm ho he hb hf hp hu
  · exact fun v hs hv h => vectorUnmask_held hs hx hv h
  -- Reads, and doorbells that nothing takes.
  · exact fun k hs hk hp =>
      ⟨counterRead_completes hs hx hk hp (Nat.add_mul_mod_self_left 0x4000 8 k) (by omega) (by omega) rfl,
        counterRead_completes hs hx hk hp (by simp; omega) (by omega) (by omega) (halfOf_narrow (by omega) (by omega) _),
        counterRead_completes hs hx hk hp (by simp; omega) (by omega) (by omega) (halfOf_narrow (by omega) (by omega) _)⟩
  · exact fun off wide hl h0 h1 ha hp => closedPageRead_completes hx hl h0 h1 ha hp
  · refine fun off hs h0 hd => ⟨fun ha => ?_, fun ha => ?_⟩
    · have hr := Chip.barRead_register hx (wide := true) ha h0 hd
      rw [show off / 8 * 8 = off by omega] at hr
      exact barRead_completes hs hr
    · have hr := Chip.barRead_register hx (wide := false) ha h0 hd
      rw [halfOf_narrow ha rfl] at hr
      exact barRead_completes hs hr
  · exact fun off hs ha => ⟨barRead_completes hs (Chip.barRead_misaligned hx ha true),
      barRead_completes hs (Chip.barRead_misaligned hx ha false)⟩
  · rintro h off hu rfl h0 h1 h4
    exact ⟨exec_ffDataRegister hx (exec_ffDataRead ..) (Chip.bar0Read_ffData _ h h0 h1 h4 true),
      exec_ffDataRegister hx (exec_ffDataRead ..) (Chip.bar0Read_ffData _ h h0 h1 h4 false),
      exec_ffDataRegister hx (exec_ffDataUpperRead ..) (Chip.bar0Read_ffDataUpper _ h h0 h1 h4)⟩
  · exact fun off hs => barRead_completes hs (Chip.barRead_bar2 hx off)
  · exact fun off whole w idx hs hb =>
      ⟨.of_idle hs (exec_ring ..) (Chip.doorbell_beyond hb ..), .of_idle hs (exec_invalidate ..) (Chip.doorbell_beyond hb ..),
        .of_idle hs (exec_arm ..) (Chip.doorbell_beyond hb ..)⟩

end Sys2Proof.Machine
end


section
/-! What each command runs over the chip: one equation for each command, beside those that stand above. -/

set_option Elab.async false

namespace Sys2Proof.Machine

theorem exec_clusterRestart (w : Writer) (unit : Nat) (s : State) :
    exec (.clusterRestart w unit) s = s.runAny fun c => c.numWrite w 0x38 0x030 0 2 unit := rfl
theorem exec_clusterRestartComplete (unit : Nat) (s : State) :
    exec (.clusterRestartComplete unit) s = s.runAny fun c => c.clusterBack unit := rfl
theorem exec_powerOn (s : State) : exec .powerOn s = s.runAny fun c => c.powerOn := rfl
theorem exec_resetNAssert (s : State) : exec .resetNAssert s = s.runAny fun c => c.resetAssert := rfl
theorem exec_resetNRelease (grp : BitVec 10) (pos : BitVec 5) (s : State) :
    exec (.resetNRelease grp pos) s = s.runAny fun c => c.resetRelease grp pos := rfl
theorem exec_strapOverrideWrite (value : BitVec 32) (s : State) :
    exec (.strapOverrideWrite value) s = s.runAny fun c => c.strapOverride value := rfl
theorem exec_bootLoadComplete (s : State) : exec .bootLoadComplete s = s.runAny fun c => c.bootLoad := rfl
theorem exec_jigServiceUp (s : State) : exec .jigServiceUp s = s.runAny fun c => c.jigUp := rfl
theorem exec_beginUpdate (w : Writer) (s : State) :
    exec (.beginUpdate w) s = s.runAny fun c => c.numWrite w 0x38 0x021 0 1 1 := rfl
theorem exec_beginComplete (ok : Bool) (s : State) : exec (.beginComplete ok) s = s.runAny fun c => c.beginDone ok := rfl
theorem exec_updateBlock (w : Writer) (k : Nat) (bytes : List Byte) (s : State) :
    exec (.updateBlock w k bytes) s = s.runAny fun c => if k < 4096 then c.rowWrite w (pnum 0x38 0x020 k) bytes else c := rfl
theorem exec_updateBlockComplete (ok : Bool) (s : State) :
    exec (.updateBlockComplete ok) s = s.runAny fun c => c.blockDone ok := rfl
theorem exec_verify (w : Writer) (s : State) : exec (.verify w) s = s.runAny fun c => c.numWrite w 0x38 0x021 0 1 2 := rfl
theorem exec_verifyComplete (s : State) : exec .verifyComplete s = s.runAny fun c => c.verifyDone := rfl
theorem exec_switch (w : Writer) (s : State) : exec (.switch w) s = s.runAny fun c => c.numWrite w 0x38 0x021 0 1 3 := rfl
theorem exec_switchComplete (ok : Bool) (s : State) : exec (.switchComplete ok) s = s.runAny fun c => c.switchDone ok := rfl
theorem exec_activate (w : Writer) (s : State) : exec (.activate w) s = s.runAny fun c => c.numWrite w 0x38 0x021 0 1 4 := rfl
theorem exec_barrier (h qn : Nat) (e : Entry) (s : State) :
    exec (.barrier h qn e) s = s.run fun c => c.takeCollective h qn 0x60 e (.bytes []) := rfl
theorem exec_broadcast (h qn : Nat) (e : Entry) (data : SourceData) (s : State) :
    exec (.broadcast h qn e data) s = s.run fun c => c.takeCollective h qn 0x61 e data := rfl
theorem exec_reduce (h qn : Nat) (e : Entry) (data : SourceData) (s : State) :
    exec (.reduce h qn e data) s = s.run fun c => c.takeCollective h qn 0x62 e data := rfl
theorem exec_allreduce (h qn : Nat) (e : Entry) (data : SourceData) (s : State) :
    exec (.allreduce h qn e data) s = s.run fun c => c.takeCollective h qn 0x63 e data := rfl
theorem exec_reduceScatter (h qn : Nat) (e : Entry) (data : SourceData) (s : State) :
    exec (.reduceScatter h qn e data) s = s.run fun c => c.takeCollective h qn 0x64 e data := rfl
theorem exec_collectiveUp (port : Nat) (p : Packet) (poisoned : Bool) (s : State) :
    exec (.collectiveUp port p poisoned) s = s.run fun c => c.collectiveUp port p poisoned := rfl
theorem exec_collectiveDown (port : Nat) (p : Packet) (s : State) :
    exec (.collectiveDown port p) s = s.run fun c => c.collectiveDown port p := rfl
theorem exec_collectiveAbort (port : Nat) (p : Packet) (s : State) :
    exec (.collectiveAbort port p) s = s.run fun c => c.collectiveAbort port p := rfl
theorem exec_collectiveDone (port : Nat) (p : Packet) (s : State) :
    exec (.collectiveDone port p) s = s.run fun c => c.collectiveDone port p := rfl
theorem exec_segmentUp (slot : Nat) (cseq : BitVec 32) (seg : Nat) (poisoned : Bool) (s : State) :
    exec (.segmentUp slot cseq seg poisoned) s = s.run fun c => c.segmentUp slot cseq seg poisoned := rfl
theorem exec_collectiveTimeout (slot : Nat) (cseq : BitVec 32) (s : State) :
    exec (.collectiveTimeout slot cseq) s = s.run fun c => c.collectiveTimeout slot cseq := rfl
theorem exec_mbxUnknownOp (h op : Nat) (relay : Bool) (vf : Nat) (param : BitVec 32) (s : State) :
    exec (.mbxUnknownOp h op relay vf param) s = s.run fun c => if 1 ≤ op ∧ op ≤ 4 then c else c.mbxRequest h op relay vf param := rfl
theorem exec_collide (h : Nat) (s : State) : exec (.collide h) s = s.run fun c => c.mbxCollide h := rfl
theorem exec_fdpRequest (d : Datagram) (s : State) : exec (.fdpRequest d) s = s.run fun c => c.fdpRequest d := rfl
theorem exec_mctpRequest (packets : List MctpPacket) (s : State) :
    exec (.mctpRequest packets) s = s.runAny fun c => c.mctpRequest packets := rfl
theorem exec_chunkExpiry (path : Writer) (s : State) : exec (.chunkExpiry path) s = s.run fun c => c.chunkExpiry path := rfl
theorem exec_shimDictionaryRequest (p : Packet) (s : State) :
    exec (.shimDictionaryRequest p) s = s.run fun c => c.shimRequest p := rfl
theorem exec_commit (w : Writer) (setNo : Nat) (t : BitVec 64) (s : State) :
    exec (.commit w setNo t) s = s.runAny fun c => c.numWrite w 0x01 0x001 setNo 8 t.toNat := rfl
theorem exec_setTakesEffect (setNo : Nat) (s : State) : exec (.setTakesEffect setNo) s = s.run fun c => c.setDue setNo := rfl
theorem exec_discard (w : Writer) (setNo value : Nat) (s : State) :
    exec (.discard w setNo value) s = s.runAny fun c => c.numWrite w 0x01 0x002 setNo 1 value := rfl
theorem exec_holderTimeout (setNo : Nat) (s : State) :
    exec (.holderTimeout setNo) s = s.run fun c => c.holderTimeout setNo := rfl
theorem exec_save (w : Writer) (value : Nat) (s : State) :
    exec (.save w value) s = s.runAny fun c => c.numWrite w 0x01 0x010 0 1 value := rfl
theorem exec_saveComplete (ok : Bool) (s : State) : exec (.saveComplete ok) s = s.runAny fun c => c.saveDone ok := rfl
theorem exec_restoreDefaults (w : Writer) (value : Nat) (s : State) :
    exec (.restoreDefaults w value) s = s.runAny fun c => c.numWrite w 0x01 0x015 0 1 value := rfl
theorem exec_restoreSaved (w : Writer) (value : Nat) (s : State) :
    exec (.restoreSaved w value) s = s.runAny fun c => c.numWrite w 0x01 0x016 0 1 value := rfl
theorem exec_calibrationStore (w : Writer) (value : Nat) (s : State) :
    exec (.calibrationStore w value) s = s.runAny fun c => c.numWrite w 0x01 0x070 0 1 value := rfl
theorem exec_calibrationStoreComplete (s : State) : exec .calibrationStoreComplete s = s.runAny fun c => c.calStored := rfl
theorem exec_calibrationImageWrite (w : Writer) (image : List Byte) (s : State) :
    exec (.calibrationImageWrite w image) s = s.runAny fun c => c.rowWrite w (pnum 0x02 0x001 0) image := rfl
theorem exec_dynamicAddressAssignment (addr : Nat) (s : State) :
    exec (.dynamicAddressAssignment addr) s = s.runAny fun c => c.assignAddress addr := rfl
theorem exec_faultOccurrence (unit cause skind subject : Nat) (s : State) :
    exec (.faultOccurrence unit cause skind subject) s = s.runAny fun c => c.reportFault unit cause skind subject := rfl
theorem exec_handshakeStall (unit : Nat) (s : State) : exec (.handshakeStall unit) s = s.runAny fun c => c.stall unit := rfl
theorem exec_blockResetComplete (unit : Nat) (s : State) :
    exec (.blockResetComplete unit) s = s.runAny fun c => c.blockResetDone unit := rfl
theorem exec_unitRelease (w : Writer) (unit : Nat) (s : State) :
    exec (.unitRelease w unit) s = s.runAny fun c => c.numWrite w 0x30 0xF05 0 2 unit := rfl
theorem exec_sourceStatusClear (w : Writer) (unit cause : Nat) (value : BitVec 64) (s : State) :
    exec (.sourceStatusClear w unit cause value) s = s.runAny fun c => if unit < 0xE00 then c.numWrite w 0x30 (0x100 + unit) cause 8 value.toNat else c := rfl
theorem exec_kerfWindowClose (s : State) : exec .kerfWindowClose s = s.runAny fun c => c.closeRecords := rfl
theorem exec_recordToFifo (s : State) : exec .recordToFifo s = s.runAny fun c => c.recordOut := rfl
theorem exec_hostLinkTrained (h width rate : Nat) (flit : Bool) (s : State) :
    exec (.hostLinkTrained h width rate flit) s = s.run fun c => c.hostTrained h width rate flit := rfl
theorem exec_perstNAssert (h : Nat) (s : State) : exec (.perstNAssert h) s = s.runAny fun c => c.perstAssert h := rfl
theorem exec_perstNDeassert (h : Nat) (s : State) : exec (.perstNDeassert h) s = s.runAny fun c => c.perstDeassert h := rfl
theorem exec_functionLevelReset (fn : Nat) (s : State) :
    exec (.functionLevelReset fn) s = s.run fun c => c.levelReset fn := rfl
theorem exec_functionDisable (w : Writer) (fn : Nat) (s : State) :
    exec (.functionDisable w fn) s = s.runAny fun c => c.numWrite w 0x20 0x010 fn 1 0 := rfl
theorem exec_functionQuiesced (fn : Nat) (s : State) : exec (.functionQuiesced fn) s = s.run fun c => c.quiesceFn fn := rfl
theorem exec_functionEnable (w : Writer) (fn : Nat) (s : State) :
    exec (.functionEnable w fn) s = s.runAny fun c => c.numWrite w 0x20 0x010 fn 1 1 := rfl
theorem exec_functionReady (fn : Nat) (s : State) : exec (.functionReady fn) s = s.run fun c => c.readyFn fn := rfl
theorem exec_vfEnableClear (h : Nat) (s : State) : exec (.vfEnableClear h) s = s.run fun c => c.vfClear h := rfl
theorem exec_vfEnableSet (h numVfs : Nat) (s : State) : exec (.vfEnableSet h numVfs) s = s.run fun c => c.vfSet h numVfs := rfl
theorem exec_codewordDecode (lane errors : Nat) (blocks : List LaneBlock) (fill : Int) (s : State) :
    exec (.codewordDecode lane errors blocks fill) s = s.run fun c => c.laneCodeword lane errors blocks fill := rfl
theorem exec_blockLock (lane : Nat) (headers : List Bool) (s : State) :
    exec (.blockLock lane headers) s = s.run fun c => c.blockLock lane headers := rfl
theorem exec_markerLock (lane : Nat) (m : MarkerInfo) (s : State) :
    exec (.markerLock lane m) s = s.run fun c => c.markerLock lane m := rfl
theorem exec_lockLoss (lane : Nat) (kind : LockKind) (s : State) :
    exec (.lockLoss lane kind) s = s.run fun c => c.lockLoss lane kind := rfl
theorem exec_bitSlip (w : Writer) (lane n : Nat) (s : State) :
    exec (.bitSlip w lane n) s = s.runAny fun c => c.numWrite w 0x18 0x026 lane 2 n := rfl
theorem exec_checkerSync (lane bits : Nat) (s : State) :
    exec (.checkerSync lane bits) s = s.run fun c => c.checkerSync lane bits := rfl
theorem exec_checkerSyncLoss (lane bits errors : Nat) (s : State) :
    exec (.checkerSyncLoss lane bits errors) s = s.run fun c => c.checkerLoss lane bits errors := rfl
theorem exec_linkPacketReceive (port : Nat) (blocks : List PortBlock) (s : State) :
    exec (.linkPacketReceive port blocks) s = s.run fun c => c.linkReceive port blocks := rfl
theorem exec_lcbSend (port : Nat) (s : State) : exec (.lcbSend port) s = s.run fun c => c.lcbInterval port := rfl
theorem exec_lcbReceive (port : Nat) (l : LcbHalves) (s : State) :
    exec (.lcbReceive port l) s = s.run fun c => c.lcbReceive port l := rfl
theorem exec_replayTimeout (port : Nat) (s : State) : exec (.replayTimeout port) s = s.run fun c => c.replayTimeout port := rfl
theorem exec_degradationWindow (port : Nat) (s : State) :
    exec (.degradationWindow port) s = s.run fun c => c.degradationWindow port := rfl
theorem exec_restoreInterval (port : Nat) (s : State) :
    exec (.restoreInterval port) s = s.run fun c => c.restoreInterval port := rfl
theorem exec_contextBind (w : Writer) (fn : Nat) (value : BitVec 64) (s : State) :
    exec (.contextBind w fn value) s = s.runAny fun c => c.numWrite w 0x22 0x010 fn 8 (value.toNat % 2 ^ 63 + 2 ^ 63) := rfl
theorem exec_contextUnbind (w : Writer) (fn : Nat) (value : BitVec 64) (s : State) :
    exec (.contextUnbind w fn value) s = s.runAny fun c => c.numWrite w 0x22 0x010 fn 8 (value.toNat % 2 ^ 63) := rfl
theorem exec_eagerCopyComplete (id : Nat) (poisoned : Bool) (s : State) :
    exec (.eagerCopyComplete id poisoned) s = s.run fun c => c.copyComplete id poisoned := rfl
theorem exec_offerRecordFreed (id : Nat) (s : State) :
    exec (.offerRecordFreed id) s = s.run fun c => c.offerRecordFreed id := rfl
theorem exec_matchEntryReadDone (ctx : Nat) (poisoned : Bool) (s : State) :
    exec (.matchEntryReadDone ctx poisoned) s = s.run fun c => if poisoned then c.matchLost ctx else c.matchReadDone ctx := rfl
theorem exec_register (w : Writer) (fn : Nat) (addr : BitVec 64) (s : State) :
    exec (.register w fn addr) s = s.runAny fun c => c.numWrite w 0x28 0x021 fn 8 addr.toNat := rfl
theorem exec_registerComplete (fn : Nat) (block : Option RegBlock) (pages : Option (List Nat)) (s : State) :
    exec (.registerComplete fn block pages) s = s.run fun c => c.registerComplete fn block pages := rfl
theorem exec_deregister (fn : Nat) (block : Option RegBlock) (s : State) :
    exec (.deregister fn block) s = s.run fun c => c.deregister fn block := rfl
theorem exec_deregisterComplete (fn : Nat) (s : State) :
    exec (.deregisterComplete fn) s = s.run fun c => c.deregisterComplete fn := rfl
theorem exec_atsInvalidateRequest (fn addr length : Nat) (s : State) :
    exec (.atsInvalidateRequest fn addr length) s = s.run fun c => c.atsInvalidate fn addr length := rfl
theorem exec_atsInvalidateCompletion (fn : Nat) (s : State) :
    exec (.atsInvalidateCompletion fn) s = s.run fun c => c.atsComplete fn := rfl
theorem exec_retire (w : Writer) (group : Nat) (s : State) :
    exec (.retire w group) s = s.runAny fun c => c.numWrite w 0x28 0x011 0 1 group := rfl
theorem exec_channelGroupFailure (group : Nat) (s : State) :
    exec (.channelGroupFailure group) s = s.run fun c => c.groupFails group := rfl
theorem exec_retirementComplete (group : Nat) (poisoned : List Nat) (s : State) :
    exec (.retirementComplete group poisoned) s = s.run fun c => c.retirementComplete group poisoned := rfl
theorem exec_cxlMemRead (h addr : Nat) (s : State) : exec (.cxlMemRead h addr) s = s.run fun c => c.cxlRead h addr := rfl
theorem exec_cxlMemWrite (h addr : Nat) (bytes : List (Option Byte)) (s : State) :
    exec (.cxlMemWrite h addr bytes) s = s.run fun c => c.cxlWrite h addr bytes := rfl
theorem exec_hbmPatrolScrub (group addr : Nat) (outcome : ScrubOutcome) (s : State) :
    exec (.hbmPatrolScrub group addr outcome) s = s.run fun c => c.patrolScrub group addr outcome := rfl
theorem exec_controlQpEnable (w : Writer) (fn : Nat) (value : BitVec 32) (idx : CtlIndices) (s : State) :
    exec (.controlQpEnable w fn value idx) s = s.runAny fun c => c.numWrite w 0x21 0x004 fn 4 (value.toNat % 2 ^ 31 + 2 ^ 31) (some idx) := rfl
theorem exec_controlQpDisable (w : Writer) (fn : Nat) (value : BitVec 32) (s : State) :
    exec (.controlQpDisable w fn value) s = s.runAny fun c => c.numWrite w 0x21 0x004 fn 4 (value.toNat % 2 ^ 31) := rfl
theorem exec_indexBlockReadDone (fn qn : Nat) (idx : IndexRead) (fetched : List Entry) (s : State) :
    exec (.indexBlockReadDone fn qn idx fetched) s = s.run fun c => c.indexRead fn qn idx fetched := rfl
theorem exec_queueReadTimeout (fn qn : Nat) (what : QueueRead) (s : State) :
    exec (.queueReadTimeout fn qn what) s = s.run fun c => c.queueReadFails fn qn what := rfl
theorem exec_create (fn : Nat) (e : Entry) (qn : Nat) (idx : IndexRead) (s : State) :
    exec (.create fn e qn idx) s = s.run fun c => c.createQueue fn e qn idx := rfl
theorem exec_destroy (fn : Nat) (e : Entry) (s : State) : exec (.destroy fn e) s = s.run fun c => c.destroyQueue fn e := rfl
theorem exec_reset (fn : Nat) (e : Entry) (idx : IndexRead) (s : State) :
    exec (.reset fn e idx) s = s.run fun c => c.resetQueue fn e idx := rfl
theorem exec_backlogDrain (fn cqn : Nat) (ci : BitVec 32) (poisoned : Bool) (s : State) :
    exec (.backlogDrain fn cqn ci poisoned) s = s.run fun c => c.backlogDrain fn cqn ci poisoned := rfl
theorem exec_ack (h : Nat) (p : Packet) (s : State) : exec (.ack h p) s = s.run fun c => c.takeAck h p := rfl
theorem exec_busyNak (h : Nat) (p : Packet) (s : State) : exec (.busyNak h p) s = s.run fun c => c.takeBusy h p := rfl
theorem exec_error (h : Nat) (p : Packet) (s : State) : exec (.error h p) s = s.run fun c => c.takeError h p := rfl
theorem exec_readData (h : Nat) (p : Packet) (s : State) : exec (.readData h p) s = s.run fun c => c.takeReadData h p := rfl
theorem exec_atomicResult (h : Nat) (p : Packet) (s : State) :
    exec (.atomicResult h p) s = s.run fun c => c.takeAtomicResult h p := rfl
theorem exec_retransmitTimeout (ch : Nat) (psn : BitVec 24) (s : State) :
    exec (.retransmitTimeout ch psn) s = s.run fun c => c.retransmitTimeout ch psn := rfl
theorem exec_busyResend (ch : Nat) (psn : BitVec 24) (s : State) :
    exec (.busyResend ch psn) s = s.run fun c => c.busyResend ch psn := rfl
theorem exec_ackDelay (ch : Nat) (s : State) : exec (.ackDelay ch) s = s.run fun c => c.ackDelay ch := rfl
theorem exec_errorStateExpiry (ch : Nat) (s : State) : exec (.errorStateExpiry ch) s = s.run fun c => c.errorExpiry ch := rfl
theorem exec_atomicBlockReturn (ch : Nat) (s : State) :
    exec (.atomicBlockReturn ch) s = s.run fun c => c.atomicBlockReturn ch := rfl
theorem exec_messageRequest (h : Nat) (p : Packet) (miss : Option CtxKey) (s : State) :
    exec (.messageRequest h p miss) s = s.run fun c => c.requestOf isMessage h p miss := rfl
theorem exec_writeRequest (h : Nat) (p : Packet) (miss : Option CtxKey) (s : State) :
    exec (.writeRequest h p miss) s = s.run fun c => c.requestOf isWriteReq h p miss := rfl
theorem exec_readRequest (h : Nat) (p : Packet) (miss : Option CtxKey) (s : State) :
    exec (.readRequest h p miss) s = s.run fun c => c.requestOf isReadReq h p miss := rfl
theorem exec_atomicRequest (h : Nat) (p : Packet) (miss : Option CtxKey) (s : State) :
    exec (.atomicRequest h p miss) s = s.run fun c => c.requestOf isAtomicReq h p miss := rfl
theorem exec_countRequest (h : Nat) (p : Packet) (miss : Option CtxKey) (s : State) :
    exec (.countRequest h p miss) s = s.run fun c => c.requestOf isCountReq h p miss := rfl
theorem exec_nopRequest (h : Nat) (p : Packet) (miss : Option CtxKey) (s : State) :
    exec (.nopRequest h p miss) s = s.run fun c => c.requestOf isNopReq h p miss := rfl
theorem exec_sync (h : Nat) (p : Packet) (s : State) : exec (.sync h p) s = s.run fun c => c.requestOf isSync h p none := rfl
theorem exec_offer (h : Nat) (p : Packet) (miss : Option CtxKey) (s : State) :
    exec (.offer h p miss) s = s.run fun c => c.requestOf isOffer h p miss := rfl
theorem exec_offerClose (h : Nat) (p : Packet) (s : State) :
    exec (.offerClose h p) s = s.run fun c => c.closeRequest h p := rfl
theorem exec_contextFetchDone (ctx : CtxKey) (poisoned : Bool) (s : State) :
    exec (.contextFetchDone ctx poisoned) s = s.run fun c => c.contextFetched ctx poisoned := rfl
theorem exec_contextFetchTimeout (h qn : Nat) (s : State) :
    exec (.contextFetchTimeout h qn) s = s.run fun c => c.contextTimeout h qn := rfl
theorem exec_hostMemoryReadCompletion (id : Nat) (result : HostResult) (s : State) :
    exec (.hostMemoryReadCompletion id result) s = s.run fun c => c.hostReadEnded id result := rfl
theorem exec_packetRoute (inp : Nat) (whole : Bool) (s : State) :
    exec (.packetRoute inp whole) s = s.run fun c => c.packetRoute inp whole := rfl
theorem exec_outputStart (out : Nat) (s : State) :
    exec (.outputStart out) s = s.run fun c => c.outputStart out (c.rt.waiting.length + 1) := rfl
theorem exec_fenceBroadcast (inp : Nat) (p : Packet) (s : State) :
    exec (.fenceBroadcast inp p) s = s.run fun c => c.broadcastArrives inp p 0x50 := rfl
theorem exec_throttleBroadcast (inp : Nat) (p : Packet) (s : State) :
    exec (.throttleBroadcast inp p) s = s.run fun c => c.broadcastArrives inp p 0x51 := rfl
theorem exec_broadcastApply (s : State) : exec .broadcastApply s = s.run fun c => c.broadcastApply := rfl
theorem exec_clampTableWrite (w : Writer) (row : Nat) (value : BitVec 64) (s : State) :
    exec (.clampTableWrite w row value) s = s.runAny fun c => c.numWrite w 0x13 0x001 row 8 value.toNat := rfl
theorem exec_throttleExpiry (chip : Nat) (s : State) :
    exec (.throttleExpiry chip) s = s.run fun c => c.throttleExpiry chip := rfl
theorem exec_splineHintSend (port : Nat) (s : State) : exec (.splineHintSend port) s = s.run fun c => c.hintSend port := rfl
theorem exec_splineHintReceive (port : Nat) (item : List Byte) (s : State) :
    exec (.splineHintReceive port item) s = s.run fun c => c.hintReceive port item := rfl
theorem exec_hintStale (port : Nat) (s : State) : exec (.hintStale port) s = s.run fun c => c.hintStale port := rfl
theorem exec_tokenTick (ticks : Nat) (s : State) : exec (.tokenTick ticks) s = s.run fun c => c.tokenTick ticks := rfl
theorem exec_gateEntryChange (port : Nat) (s : State) :
    exec (.gateEntryChange port) s = s.run fun c => c.gateEntryChange port := rfl
theorem exec_timeExchangeSend (port : Nat) (s : State) :
    exec (.timeExchangeSend port) s = s.run fun c => c.timeSend port := rfl
theorem exec_timeExchangeReceive (port : Nat) (item : TimeItem) (s : State) :
    exec (.timeExchangeReceive port item) s = s.run fun c => c.timeReceive port item := rfl
theorem exec_parentTimeout (s : State) : exec .parentTimeout s = s.run fun c => c.parentTimeout := rfl
theorem exec_holdoverExpiry (s : State) : exec .holdoverExpiry s = s.run fun c => c.holdoverExpiry := rfl
theorem exec_setTime (w : Writer) (t : BitVec 64) (s : State) :
    exec (.setTime w t) s = s.runAny fun c => c.numWrite w 0x08 0x010 0 8 t.toNat := rfl
theorem exec_ppsEdge (s : State) : exec .ppsEdge s = s.run fun c => c.ppsEdge := rfl
theorem exec_paceWindow (raw : List Int) (s : State) : exec (.paceWindow raw) s = s.run fun c => c.paceWindow raw := rfl
theorem exec_avsLoop (s : State) : exec .avsLoop s = s.run fun c => c.avsLoop := rfl
theorem exec_avsResponse (good : Bool) (s : State) : exec (.avsResponse good) s = s.run fun c => c.avsResponse good := rfl
theorem exec_avsTimeout (s : State) : exec .avsTimeout s = s.run fun c => c.avsFailed := rfl
theorem exec_thermalWarning (raw : List Int) (s : State) :
    exec (.thermalWarning raw) s = s.run fun c => c.thermalWarning raw := rfl
theorem exec_thermalTrip (raw : List Int) (s : State) : exec (.thermalTrip raw) s = s.runAny fun c => c.thermalTrip raw := rfl
theorem exec_samplingTick (ticks : Nat) (s : State) :
    exec (.samplingTick ticks) s = s.runAny fun c => c.samplingTick ticks := rfl
theorem exec_streamSample (ci : BitVec 32) (s : State) : exec (.streamSample ci) s = s.run fun c => c.streamSample ci := rfl
theorem exec_thermalWarningClear (raw : List Int) (s : State) :
    exec (.thermalWarningClear raw) s = s.run fun c => c.thermalClear raw := rfl
theorem exec_receiverDetect (port found : Nat) (s : State) :
    exec (.receiverDetect port found) s = s.run fun c => c.receiverDetect port found := rfl
theorem exec_patternBlock (port lpos : Nat) (b : TrainBlock) (s : State) :
    exec (.patternBlock port lpos b) s = s.run fun c => c.patternReceive port lpos b := rfl
theorem exec_equalisationRequest (port lpos : Nat) (b : TrainBlock) (s : State) :
    exec (.equalisationRequest port lpos b) s = s.run fun c => c.eqRequest port lpos b := rfl
theorem exec_equalisationResponse (port lpos : Nat) (b : TrainBlock) (s : State) :
    exec (.equalisationResponse port lpos b) s = s.run fun c => c.eqResponse port lpos b := rfl
theorem exec_capabilitiesBlock (port : Nat) (b : TrainBlock) (peerPassed : Bool) (s : State) :
    exec (.capabilitiesBlock port b peerPassed) s = s.run fun c => c.capabilities port b peerPassed := rfl
theorem exec_trainingTimeout (port : Nat) (s : State) :
    exec (.trainingTimeout port) s = s.run fun c => c.trainingTimeout port := rfl
theorem exec_attemptWaitEnd (port : Nat) (s : State) :
    exec (.attemptWaitEnd port) s = s.run fun c => c.attemptWaitEnd port := rfl
theorem exec_retrainEventTimeout (port : Nat) (s : State) :
    exec (.retrainEventTimeout port) s = s.run fun c => c.retrainEventTimeout port := rfl
theorem exec_portRetrain (w : Writer) (port : Nat) (s : State) :
    exec (.portRetrain w port) s = s.runAny fun c => c.numWrite w 0x18 0x004 port 1 1 := rfl
theorem exec_portNarrowLpos0 (w : Writer) (port : Nat) (s : State) :
    exec (.portNarrowLpos0 w port) s = s.runAny fun c => c.numWrite w 0x18 0x004 port 1 2 := rfl
theorem exec_portNarrowLpos1 (w : Writer) (port : Nat) (s : State) :
    exec (.portNarrowLpos1 w port) s = s.runAny fun c => c.numWrite w 0x18 0x004 port 1 3 := rfl
theorem exec_portWiden (w : Writer) (port : Nat) (s : State) :
    exec (.portWiden w port) s = s.runAny fun c => c.numWrite w 0x18 0x004 port 1 4 := rfl
theorem exec_wreq (port : Nat) (m : WidthMsg) (s : State) : exec (.wreq port m) s = s.run fun c => c.takeWreq port m := rfl
theorem exec_wgrant (port : Nat) (m : WidthMsg) (s : State) :
    exec (.wgrant port m) s = s.run fun c => c.takeWgrant port m := rfl
theorem exec_wrefuse (port : Nat) (m : WidthMsg) (s : State) :
    exec (.wrefuse port m) s = s.run fun c => c.takeWrefuse port m := rfl
theorem exec_wswitch (port : Nat) (m : WidthMsg) (s : State) :
    exec (.wswitch port m) s = s.run fun c => c.takeWswitch port m := rfl
theorem exec_rreq (port : Nat) (m : WidthMsg) (s : State) : exec (.rreq port m) s = s.run fun c => c.takeRreq port m := rfl
theorem exec_rack (port : Nat) (m : WidthMsg) (s : State) : exec (.rack port m) s = s.run fun c => c.takeRack port m := rfl
theorem exec_wreqTimeout (port : Nat) (s : State) : exec (.wreqTimeout port) s = s.run fun c => c.wreqTimeout port := rfl
theorem exec_rackTimeout (port : Nat) (s : State) : exec (.rackTimeout port) s = s.run fun c => c.rackTimeout port := rfl
theorem exec_wswitchLockTimeout (port : Nat) (s : State) :
    exec (.wswitchLockTimeout port) s = s.run fun c => c.wswitchTimeout port := rfl
theorem exec_heldEntry (h qn : Nat) (e : Entry) (s : State) :
    exec (.heldEntry h qn e) s = s.run fun c => c.takeHeld h qn e := rfl
theorem exec_allocate (w : Writer) (fn ctr : Nat) (s : State) :
    exec (.allocate w fn ctr) s = s.runAny fun c => c.ctrWrite w fn 1 ctr 0 := rfl
theorem exec_free (w : Writer) (fn ctr : Nat) (s : State) :
    exec (.free w fn ctr) s = s.runAny fun c => c.ctrWrite w fn 2 ctr 0 := rfl
theorem exec_configure (w : Writer) (fn ctr : Nat) (arg : BitVec 44) (s : State) :
    exec (.configure w fn ctr arg) s = s.runAny fun c => c.ctrWrite w fn 3 ctr arg.toNat := rfl
theorem exec_set (w : Writer) (fn ctr : Nat) (arg : BitVec 44) (s : State) :
    exec (.set w fn ctr arg) s = s.runAny fun c => c.ctrWrite w fn 4 ctr arg.toNat := rfl
theorem exec_add (w : Writer) (fn ctr : Nat) (arg : BitVec 44) (s : State) :
    exec (.add w fn ctr arg) s = s.runAny fun c => c.ctrWrite w fn 5 ctr arg.toNat := rfl
theorem exec_heldEntryReadBack (fn slot : Nat) (data : SourceData) (s : State) :
    exec (.heldEntryReadBack fn slot data) s = s.run fun c => c.heldReadBack fn slot data := rfl
theorem exec_heldAreaReadTimeout (fn slot : Nat) (s : State) :
    exec (.heldAreaReadTimeout fn slot) s = s.run fun c => c.heldReadFails fn slot := rfl
theorem exec_bar4Read (fn id off len : Nat) (s : State) :
    exec (.bar4Read fn id off len) s = s.run fun c => c.bar4Read fn id off len := rfl
theorem exec_bar4Write (fn off : Nat) (bytes : List Byte) (s : State) :
    exec (.bar4Write fn off bytes) s = s.run fun c => c.bar4Write fn off bytes := rfl
theorem exec_bar4Atomicop (fn id off : Nat) (op : PcieAtomic) (s : State) :
    exec (.bar4Atomicop fn id off op) s = s.run fun c => c.bar4Atomic fn id off op := rfl
theorem exec_writeGatherExpiry (h : Nat) (s : State) : exec (.writeGatherExpiry h) s = s.run fun c => c.gatherExpiry h := rfl
theorem exec_prefetchExpiry (h : Nat) (s : State) : exec (.prefetchExpiry h) s = s.run fun c => c.prefetchExpiry h := rfl
theorem exec_bridgeTimeout (id : Nat) (s : State) : exec (.bridgeTimeout id) s = s.run fun c => c.bridgeTimeout id := rfl
theorem exec_send (h qn : Nat) (e : Entry) (data : SourceData) (s : State) :
    exec (.send h qn e data) s = s.run fun c => c.takeNative h qn 0x01 e data := rfl
theorem exec_taggedSend (h qn : Nat) (e : Entry) (data : SourceData) (s : State) :
    exec (.taggedSend h qn e data) s = s.run fun c => c.takeNative h qn 0x02 e data := rfl
theorem exec_writeEntry (h qn : Nat) (e : Entry) (data : SourceData) (s : State) :
    exec (.writeEntry h qn e data) s = s.run fun c => c.takeNative h qn 0x10 e data := rfl
theorem exec_writeWithNotify (h qn : Nat) (e : Entry) (data : SourceData) (s : State) :
    exec (.writeWithNotify h qn e data) s = s.run fun c => c.takeNative h qn 0x11 e data := rfl
theorem exec_readEntry (h qn : Nat) (e : Entry) (s : State) :
    exec (.readEntry h qn e) s = s.run fun c => c.takeNative h qn 0x20 e (.bytes []) := rfl
theorem exec_fetchAdd (h qn : Nat) (e : Entry) (s : State) :
    exec (.fetchAdd h qn e) s = s.run fun c => c.takeNative h qn 0x30 e (.bytes []) := rfl
theorem exec_swap (h qn : Nat) (e : Entry) (s : State) :
    exec (.swap h qn e) s = s.run fun c => c.takeNative h qn 0x31 e (.bytes []) := rfl
theorem exec_compareSwap8 (h qn : Nat) (e : Entry) (s : State) :
    exec (.compareSwap8 h qn e) s = s.run fun c => c.takeNative h qn 0x32 e (.bytes []) := rfl
theorem exec_compareSwap16 (h qn : Nat) (e : Entry) (s : State) :
    exec (.compareSwap16 h qn e) s = s.run fun c => c.takeNative h qn 0x33 e (.bytes []) := rfl
theorem exec_count (h qn : Nat) (e : Entry) (s : State) :
    exec (.count h qn e) s = s.run fun c => c.takeNative h qn 0x40 e (.bytes []) := rfl
theorem exec_nop (h qn : Nat) (e : Entry) (s : State) :
    exec (.nop h qn e) s = s.run fun c => c.takeNative h qn 0x41 e (.bytes []) := rfl
theorem exec_recv (h qn : Nat) (e : Entry) (s : State) : exec (.recv h qn e) s = s.run fun c => c.takeRecvEntry h qn e := rfl
theorem exec_taggedRecv (h qn : Nat) (e : Entry) (deferred : Bool) (s : State) :
    exec (.taggedRecv h qn e deferred) s = s.run fun c => c.takeTaggedRecv h qn e deferred := rfl
theorem exec_veneerNop (h qn : Nat) (v : VEntry) (s : State) :
    exec (.veneerNop h qn v) s = s.run fun c => c.takeVeneer h qn 0x41 v (.bytes []) := rfl
theorem exec_veneerSend (h qn : Nat) (v : VEntry) (data : SourceData) (s : State) :
    exec (.veneerSend h qn v data) s = s.run fun c => c.takeVeneer h qn 0x01 v data := rfl
theorem exec_veneerWrite (h qn : Nat) (v : VEntry) (data : SourceData) (s : State) :
    exec (.veneerWrite h qn v data) s = s.run fun c => c.takeVeneer h qn 0x10 v data := rfl
theorem exec_veneerRead (h qn : Nat) (v : VEntry) (s : State) :
    exec (.veneerRead h qn v) s = s.run fun c => c.takeVeneer h qn 0x20 v (.bytes []) := rfl
theorem exec_malformedEntry (h qn : Nat) (e : Entry) (s : State) :
    exec (.malformedEntry h qn e) s = s.run fun c => c.takeMalformedEntry h qn e := rfl

end Sys2Proof.Machine
end


section
/-! Steps: every command runs one effect over the chip and carries out what it decided, so every step answers a next state,
keeps the waiting commands, and keeps what effects and `Chip.settle` keep. -/

set_option Elab.async false

namespace Sys2Proof.Machine

/-! ### What a command runs -/

/-- No command stops the block or changes the waiting commands. -/
theorem exec_next (i : Instr) (s : State) : ∃ c : Chip, exec i s = .next ⟨c, s.pending⟩ := by
  cases i <;> exact ⟨_, rfl⟩

theorem step_empty (s : State) (h : s.pending = []) : step s = .next s := by
  unfold step; rw [h]

theorem step_front (c : Chip) (i : Instr) (l : List Instr) : step ⟨c, i :: l⟩ = exec i ⟨c, l⟩ := rfl

/-- As many steps as commands wait take them all. -/
theorem run_pending (l : List Instr) (c : Chip) : ∃ d : Chip, core.run l.length (⟨c, l⟩ : State) = .next (⟨d, []⟩ : State) := by
  induction l generalizing c with
  | nil => exact ⟨c, rfl⟩
  | cons i l ih =>
    obtain ⟨d, hd⟩ := exec_next i ⟨c, l⟩
    obtain ⟨e, he⟩ := ih d
    refine ⟨e, ?_⟩
    have hs : core.step (⟨c, i :: l⟩ : State) = .next (⟨d, l⟩ : State) := hd
    simp only [List.length_cons, Host.Core.run, hs]
    exact he

/-- Settles O1. -/
theorem aStepRunsTheFrontCommand : Obligations.AStepRunsTheFrontCommand := fun s i => step_front s.chip i s.pending

/-- Settles O2, by induction on the waiting commands. -/
theorem queuedCommandsAllRun : Obligations.QueuedCommandsAllRun := ⟨step_empty, fun s i => exec_next i s, run_pending⟩

/-! ### Reset -/

/-- Settles O3. -/
theorem resetMemoryIsCanonical : Obligations.ResetMemoryIsCanonical := ⟨rfl, rfl⟩

/-- Settles O6. -/
theorem resetLeavesDefaults : Obligations.ResetLeavesDefaults :=
  ⟨rfl, rfl, rfl, rfl, rfl, rfl, rfl, rfl, fun _ _ _ => rfl⟩

end Sys2Proof.Machine
end


section
/-! What every command keeps: fabric memory in its canonical form. -/

set_option Elab.async false

namespace Sys2Proof.Machine

/-- The command keeps the property of the chip. -/
def Instr.keeps (i : Instr) (s : State) (P : Chip → Prop) : Prop := ∀ t, exec i s = .next t → P s.chip → P t.chip

/-- A command that acts in a service keeps what its effect and the end of the step keep. -/
theorem Instr.keeps.of_run {i : Instr} {s : State} {P : Chip → Prop} {f : Chip → Chip} (hp : ∀ c, P c → P c.settle)
    (hi : exec i s = s.run f) (hf : P s.chip → P (f s.chip)) : Instr.keeps i s P := by
  intro t ht h
  rw [hi, State.run, Host.Outcome.next.injEq] at ht
  subst ht
  dsimp only
  split
  · exact hp _ (hf h)
  · exact h

theorem Instr.keeps.of_runAny {i : Instr} {s : State} {P : Chip → Prop} {f : Chip → Chip} (hp : ∀ c, P c → P c.settle)
    (hi : exec i s = s.runAny f) (hf : P s.chip → P (f s.chip)) : Instr.keeps i s P := by
  intro t ht h
  rw [hi, State.runAny, Host.Outcome.next.injEq] at ht
  subst ht
  exact hp _ (hf h)

/-- What every command keeps, every step keeps. -/
theorem step_keeps {P : Chip → Prop} (h : ∀ i s, Instr.keeps i s P) {s t : State} (hs : step s = .next t) (hp : P s.chip) : P t.chip := by
  obtain ⟨c, l⟩ := s
  cases l with
  | nil =>
    rw [step_empty _ rfl, Host.Outcome.next.injEq] at hs
    exact hs ▸ hp
  | cons i l => exact h i ⟨c, l⟩ t hs hp

/-- Fabric memory of the chip is in its canonical form. -/
abbrev Chip.memoryCanonical (c : Chip) : Prop := Memory.wf c.mem.hbm = true

theorem wf_of_run {i : Instr} {s : State} {f : Chip → Chip} (hi : exec i s = s.run f)
    (hf : Memory.wf s.chip.mem.hbm = true → Memory.wf (f s.chip).mem.hbm = true) : Instr.keeps i s Chip.memoryCanonical :=
  .of_run (fun _ h => Chip.settle_wf _ h) hi hf

theorem wf_of_runAny {i : Instr} {s : State} {f : Chip → Chip} (hi : exec i s = s.runAny f)
    (hf : Memory.wf s.chip.mem.hbm = true → Memory.wf (f s.chip).mem.hbm = true) : Instr.keeps i s Chip.memoryCanonical :=
  .of_runAny (fun _ h => Chip.settle_wf _ h) hi hf

/-- Every command keeps the canonical form: those whose effect can write fabric memory by the lemma of that effect, every other one
because its effect leaves the bytes as they are. -/
theorem exec_wf (i : Instr) (s : State) : Instr.keeps i s Chip.memoryCanonical := by
  cases i
  case clusterRestart => exact wf_of_runAny (exec_clusterRestart ..) fun hw => Chip.numWrite_wf (hw := hw) ..
  case clusterRestartComplete => exact wf_of_runAny (exec_clusterRestartComplete ..) fun hw => Chip.clusterBack_wf (hw := hw) ..
  case powerOn => exact wf_of_runAny (exec_powerOn ..) fun hw => Chip.powerOn_wf (hw := hw) ..
  case resetNAssert => exact wf_of_runAny (exec_resetNAssert ..) fun hw => Chip.resetAssert_wf (hw := hw) ..
  case resetNRelease => exact wf_of_runAny (exec_resetNRelease ..) fun hw => by simpa using hw
  case strapOverrideWrite => exact wf_of_runAny (exec_strapOverrideWrite ..) fun hw => by simpa using hw
  case bootLoadComplete => exact wf_of_runAny (exec_bootLoadComplete ..) fun hw => by simpa using hw
  case jigServiceUp => exact wf_of_runAny (exec_jigServiceUp ..) fun hw => by simpa using hw
  case beginUpdate => exact wf_of_runAny (exec_beginUpdate ..) fun hw => Chip.numWrite_wf (hw := hw) ..
  case beginComplete => exact wf_of_runAny (exec_beginComplete ..) fun hw => by simpa using hw
  case updateBlock => exact wf_of_runAny (exec_updateBlock ..) fun hw => ite_wf (Chip.rowWrite_wf (hw := hw) ..) hw
  case updateBlockComplete => exact wf_of_runAny (exec_updateBlockComplete ..) fun hw => by simpa using hw
  case verify => exact wf_of_runAny (exec_verify ..) fun hw => Chip.numWrite_wf (hw := hw) ..
  case verifyComplete => exact wf_of_runAny (exec_verifyComplete ..) fun hw => by simpa using hw
  case switch => exact wf_of_runAny (exec_switch ..) fun hw => Chip.numWrite_wf (hw := hw) ..
  case switchComplete => exact wf_of_runAny (exec_switchComplete ..) fun hw => by simpa using hw
  case activate => exact wf_of_runAny (exec_activate ..) fun hw => Chip.numWrite_wf (hw := hw) ..
  case barrier => exact wf_of_run (exec_barrier ..) fun hw => Chip.takeCollective_wf (hw := hw) ..
  case broadcast => exact wf_of_run (exec_broadcast ..) fun hw => Chip.takeCollective_wf (hw := hw) ..
  case reduce => exact wf_of_run (exec_reduce ..) fun hw => Chip.takeCollective_wf (hw := hw) ..
  case allreduce => exact wf_of_run (exec_allreduce ..) fun hw => Chip.takeCollective_wf (hw := hw) ..
  case reduceScatter => exact wf_of_run (exec_reduceScatter ..) fun hw => Chip.takeCollective_wf (hw := hw) ..
  case collectiveUp => exact wf_of_run (exec_collectiveUp ..) fun hw => Chip.collectiveUp_wf (hw := hw) ..
  case collectiveDown => exact wf_of_run (exec_collectiveDown ..) fun hw => Chip.collectiveDown_wf (hw := hw) ..
  case collectiveAbort => exact wf_of_run (exec_collectiveAbort ..) fun hw => by simpa using hw
  case collectiveDone => exact wf_of_run (exec_collectiveDone ..) fun hw => Chip.collectiveDone_wf (hw := hw) ..
  case segmentUp => exact wf_of_run (exec_segmentUp ..) fun hw => Chip.segmentUp_wf (hw := hw) ..
  case collectiveTimeout => exact wf_of_run (exec_collectiveTimeout ..) fun hw => by simpa using hw
  case read => exact wf_of_run (exec_read ..) fun hw => Chip.mbxRequest_wf (hw := hw) ..
  case write => exact wf_of_run (exec_write ..) fun hw => Chip.mbxRequest_wf (hw := hw) ..
  case describe => exact wf_of_run (exec_describe ..) fun hw => Chip.mbxRequest_wf (hw := hw) ..
  case readStaged => exact wf_of_run (exec_readStaged ..) fun hw => Chip.mbxRequest_wf (hw := hw) ..
  case mbxUnknownOp => exact wf_of_run (exec_mbxUnknownOp ..) fun hw => ite_wf hw (Chip.mbxRequest_wf (hw := hw) ..)
  case collide => exact wf_of_run (exec_collide ..) fun hw => by simpa using hw
  case fdpRequest => exact wf_of_run (exec_fdpRequest ..) fun hw => Chip.fdpRequest_wf (hw := hw) ..
  case mctpRequest => exact wf_of_runAny (exec_mctpRequest ..) fun hw => Chip.mctpRequest_wf (hw := hw) ..
  case chunkExpiry => exact wf_of_run (exec_chunkExpiry ..) fun hw => by simpa using hw
  case shimDictionaryRequest => exact wf_of_run (exec_shimDictionaryRequest ..) fun hw => Chip.shimRequest_wf (hw := hw) ..
  case commit => exact wf_of_runAny (exec_commit ..) fun hw => Chip.numWrite_wf (hw := hw) ..
  case setTakesEffect => exact wf_of_run (exec_setTakesEffect ..) fun hw => by simpa using hw
  case discard => exact wf_of_runAny (exec_discard ..) fun hw => Chip.numWrite_wf (hw := hw) ..
  case holderTimeout => exact wf_of_run (exec_holderTimeout ..) fun hw => by simpa using hw
  case save => exact wf_of_runAny (exec_save ..) fun hw => Chip.numWrite_wf (hw := hw) ..
  case saveComplete => exact wf_of_runAny (exec_saveComplete ..) fun hw => by simpa using hw
  case restoreDefaults => exact wf_of_runAny (exec_restoreDefaults ..) fun hw => Chip.numWrite_wf (hw := hw) ..
  case restoreSaved => exact wf_of_runAny (exec_restoreSaved ..) fun hw => Chip.numWrite_wf (hw := hw) ..
  case calibrationStore => exact wf_of_runAny (exec_calibrationStore ..) fun hw => Chip.numWrite_wf (hw := hw) ..
  case calibrationStoreComplete => exact wf_of_runAny (exec_calibrationStoreComplete ..) fun hw => by simpa using hw
  case calibrationImageWrite => exact wf_of_runAny (exec_calibrationImageWrite ..) fun hw => Chip.rowWrite_wf (hw := hw) ..
  case dynamicAddressAssignment => exact wf_of_runAny (exec_dynamicAddressAssignment ..) fun hw => by simpa using hw
  case faultOccurrence => exact wf_of_runAny (exec_faultOccurrence ..) fun hw => by simpa using hw
  case handshakeStall => exact wf_of_runAny (exec_handshakeStall ..) fun hw => by simpa using hw
  case blockResetComplete => exact wf_of_runAny (exec_blockResetComplete ..) fun hw => Chip.blockResetDone_wf (hw := hw) ..
  case unitRelease => exact wf_of_runAny (exec_unitRelease ..) fun hw => Chip.numWrite_wf (hw := hw) ..
  case sourceStatusClear => exact wf_of_runAny (exec_sourceStatusClear ..) fun hw => ite_wf (Chip.numWrite_wf (hw := hw) ..) hw
  case kerfWindowClose => exact wf_of_runAny (exec_kerfWindowClose ..) fun hw => by simpa using hw
  case recordToFifo => exact wf_of_runAny (exec_recordToFifo ..) fun hw => by simpa using hw
  case ffDataRead => exact wf_of_run (exec_ffDataRead ..) fun hw => by simpa using hw
  case ffDataUpperRead => exact wf_of_run (exec_ffDataUpperRead ..) fun hw => by simpa using hw
  case ffDataWrite => exact wf_of_run (exec_ffDataWrite ..) fun hw => by simpa using hw
  case ffDataLowerWrite => exact wf_of_run (exec_ffDataLowerWrite ..) fun hw => by simpa using hw
  case ffCommit => exact wf_of_run (exec_ffCommit ..) fun hw => by simpa using hw
  case ffAbort => exact wf_of_run (exec_ffAbort ..) fun hw => by simpa using hw
  case ffMark => exact wf_of_run (exec_ffMark ..) fun hw => by simpa using hw
  case ffRewind => exact wf_of_run (exec_ffRewind ..) fun hw => by simpa using hw
  case ffRelease => exact wf_of_run (exec_ffRelease ..) fun hw => by simpa using hw
  case radishMarker => exact wf_of_run (exec_radishMarker ..) fun hw => by simpa using hw
  case mgmtTransmit => exact wf_of_run (exec_mgmtTransmit ..) fun hw => ite_wf (by simpa using hw) (by simpa using hw)
  case shimPacketDelivery => exact wf_of_run (exec_shimPacketDelivery ..) fun hw => by simpa using hw
  case registerWrite => exact wf_of_runAny (exec_registerWrite ..) fun hw => ite_wf (Chip.registerWrite_wf (hw := hw) ..) (by simpa using hw)
  case hostLinkTrained => exact wf_of_run (exec_hostLinkTrained ..) fun hw => by simpa using hw
  case perstNAssert => exact wf_of_runAny (exec_perstNAssert ..) fun hw => Chip.perstAssert_wf (hw := hw) ..
  case perstNDeassert => exact wf_of_runAny (exec_perstNDeassert ..) fun hw => by simpa using hw
  case functionLevelReset => exact wf_of_run (exec_functionLevelReset ..) fun hw => Chip.levelReset_wf (hw := hw) ..
  case functionDisable => exact wf_of_runAny (exec_functionDisable ..) fun hw => Chip.numWrite_wf (hw := hw) ..
  case functionQuiesced => exact wf_of_run (exec_functionQuiesced ..) fun hw => by simpa using hw
  case functionEnable => exact wf_of_runAny (exec_functionEnable ..) fun hw => Chip.numWrite_wf (hw := hw) ..
  case functionReady => exact wf_of_run (exec_functionReady ..) fun hw => by simpa using hw
  case vfEnableClear => exact wf_of_run (exec_vfEnableClear ..) fun hw => Chip.vfClear_wf (hw := hw) ..
  case vfEnableSet => exact wf_of_run (exec_vfEnableSet ..) fun hw => by simpa using hw
  case vectorUnmask => exact wf_of_run (exec_vectorUnmask ..) fun hw => by simpa using hw
  case counterPageRead => exact wf_of_run (exec_counterPageRead ..) fun hw => by simpa using hw
  case codewordDecode => exact wf_of_run (exec_codewordDecode ..) fun hw => by simpa using hw
  case blockLock => exact wf_of_run (exec_blockLock ..) fun hw => by simpa using hw
  case markerLock => exact wf_of_run (exec_markerLock ..) fun hw => by simpa using hw
  case lockLoss => exact wf_of_run (exec_lockLoss ..) fun hw => by simpa using hw
  case bitSlip => exact wf_of_runAny (exec_bitSlip ..) fun hw => Chip.numWrite_wf (hw := hw) ..
  case checkerSync => exact wf_of_run (exec_checkerSync ..) fun hw => by simpa using hw
  case checkerSyncLoss => exact wf_of_run (exec_checkerSyncLoss ..) fun hw => by simpa using hw
  case linkPacketReceive => exact wf_of_run (exec_linkPacketReceive ..) fun hw => by simpa using hw
  case lcbSend => exact wf_of_run (exec_lcbSend ..) fun hw => by simpa using hw
  case lcbReceive => exact wf_of_run (exec_lcbReceive ..) fun hw => by simpa using hw
  case replayTimeout => exact wf_of_run (exec_replayTimeout ..) fun hw => by simpa using hw
  case degradationWindow => exact wf_of_run (exec_degradationWindow ..) fun hw => by simpa using hw
  case restoreInterval => exact wf_of_run (exec_restoreInterval ..) fun hw => by simpa using hw
  case contextBind => exact wf_of_runAny (exec_contextBind ..) fun hw => Chip.numWrite_wf (hw := hw) ..
  case contextUnbind => exact wf_of_runAny (exec_contextUnbind ..) fun hw => Chip.numWrite_wf (hw := hw) ..
  case eagerCopyComplete => exact wf_of_run (exec_eagerCopyComplete ..) fun hw => Chip.copyComplete_wf (hw := hw) ..
  case offerRecordFreed => exact wf_of_run (exec_offerRecordFreed ..) fun hw => by simpa using hw
  case matchEntryReadDone => exact wf_of_run (exec_matchEntryReadDone ..) fun hw => ite_wf (by simpa using hw) (by simpa using hw)
  case register => exact wf_of_runAny (exec_register ..) fun hw => Chip.numWrite_wf (hw := hw) ..
  case registerComplete => exact wf_of_run (exec_registerComplete ..) fun hw => by simpa using hw
  case deregister => exact wf_of_run (exec_deregister ..) fun hw => by simpa using hw
  case deregisterComplete => exact wf_of_run (exec_deregisterComplete ..) fun hw => by simpa using hw
  case atsInvalidateRequest => exact wf_of_run (exec_atsInvalidateRequest ..) fun hw => by simpa using hw
  case atsInvalidateCompletion => exact wf_of_run (exec_atsInvalidateCompletion ..) fun hw => by simpa using hw
  case retire => exact wf_of_runAny (exec_retire ..) fun hw => Chip.numWrite_wf (hw := hw) ..
  case channelGroupFailure => exact wf_of_run (exec_channelGroupFailure ..) fun hw => by simpa using hw
  case retirementComplete => exact wf_of_run (exec_retirementComplete ..) fun hw => by simpa using hw
  case cxlMemRead => exact wf_of_run (exec_cxlMemRead ..) fun hw => by simpa using hw
  case cxlMemWrite => exact wf_of_run (exec_cxlMemWrite ..) fun hw => Chip.cxlWrite_wf (hw := hw) ..
  case hbmPatrolScrub => exact wf_of_run (exec_hbmPatrolScrub ..) fun hw => by simpa using hw
  case controlQpEnable => exact wf_of_runAny (exec_controlQpEnable ..) fun hw => Chip.numWrite_wf (hw := hw) ..
  case controlQpDisable => exact wf_of_runAny (exec_controlQpDisable ..) fun hw => Chip.numWrite_wf (hw := hw) ..
  case ring => exact wf_of_run (exec_ring ..) fun hw => by simpa using hw
  case invalidate => exact wf_of_run (exec_invalidate ..) fun hw => by simpa using hw
  case arm => exact wf_of_run (exec_arm ..) fun hw => by simpa using hw
  case indexBlockReadDone => exact wf_of_run (exec_indexBlockReadDone ..) fun hw => by simpa using hw
  case queueReadTimeout => exact wf_of_run (exec_queueReadTimeout ..) fun hw => by simpa using hw
  case create => exact wf_of_run (exec_create ..) fun hw => by simpa using hw
  case destroy => exact wf_of_run (exec_destroy ..) fun hw => by simpa using hw
  case reset => exact wf_of_run (exec_reset ..) fun hw => by simpa using hw
  case backlogDrain => exact wf_of_run (exec_backlogDrain ..) fun hw => by simpa using hw
  case ack => exact wf_of_run (exec_ack ..) fun hw => by simpa using hw
  case busyNak => exact wf_of_run (exec_busyNak ..) fun hw => by simpa using hw
  case error => exact wf_of_run (exec_error ..) fun hw => by simpa using hw
  case readData => exact wf_of_run (exec_readData ..) fun hw => Chip.takeReadData_wf (hw := hw) ..
  case atomicResult => exact wf_of_run (exec_atomicResult ..) fun hw => by simpa using hw
  case retransmitTimeout => exact wf_of_run (exec_retransmitTimeout ..) fun hw => by simpa using hw
  case busyResend => exact wf_of_run (exec_busyResend ..) fun hw => by simpa using hw
  case ackDelay => exact wf_of_run (exec_ackDelay ..) fun hw => by simpa using hw
  case errorStateExpiry => exact wf_of_run (exec_errorStateExpiry ..) fun hw => by simpa using hw
  case atomicBlockReturn => exact wf_of_run (exec_atomicBlockReturn ..) fun hw => by simpa using hw
  case messageRequest => exact wf_of_run (exec_messageRequest ..) fun hw => Chip.requestOf_wf (hw := hw) ..
  case writeRequest => exact wf_of_run (exec_writeRequest ..) fun hw => Chip.requestOf_wf (hw := hw) ..
  case readRequest => exact wf_of_run (exec_readRequest ..) fun hw => Chip.requestOf_wf (hw := hw) ..
  case atomicRequest => exact wf_of_run (exec_atomicRequest ..) fun hw => Chip.requestOf_wf (hw := hw) ..
  case countRequest => exact wf_of_run (exec_countRequest ..) fun hw => Chip.requestOf_wf (hw := hw) ..
  case nopRequest => exact wf_of_run (exec_nopRequest ..) fun hw => Chip.requestOf_wf (hw := hw) ..
  case sync => exact wf_of_run (exec_sync ..) fun hw => Chip.requestOf_wf (hw := hw) ..
  case offer => exact wf_of_run (exec_offer ..) fun hw => Chip.requestOf_wf (hw := hw) ..
  case offerClose => exact wf_of_run (exec_offerClose ..) fun hw => Chip.closeRequest_wf (hw := hw) ..
  case contextFetchDone => exact wf_of_run (exec_contextFetchDone ..) fun hw => Chip.contextFetched_wf (hw := hw) ..
  case contextFetchTimeout => exact wf_of_run (exec_contextFetchTimeout ..) fun hw => by simpa using hw
  case hostMemoryReadCompletion => exact wf_of_run (exec_hostMemoryReadCompletion ..) fun hw => by simpa using hw
  case packetRoute => exact wf_of_run (exec_packetRoute ..) fun hw => by simpa using hw
  case outputStart => exact wf_of_run (exec_outputStart ..) fun hw => by simpa using hw
  case fenceBroadcast => exact wf_of_run (exec_fenceBroadcast ..) fun hw => by simpa using hw
  case throttleBroadcast => exact wf_of_run (exec_throttleBroadcast ..) fun hw => by simpa using hw
  case broadcastApply => exact wf_of_run (exec_broadcastApply ..) fun hw => Chip.broadcastApply_wf (hw := hw) ..
  case clampTableWrite => exact wf_of_runAny (exec_clampTableWrite ..) fun hw => Chip.numWrite_wf (hw := hw) ..
  case throttleExpiry => exact wf_of_run (exec_throttleExpiry ..) fun hw => by simpa using hw
  case splineHintSend => exact wf_of_run (exec_splineHintSend ..) fun hw => by simpa using hw
  case splineHintReceive => exact wf_of_run (exec_splineHintReceive ..) fun hw => by simpa using hw
  case hintStale => exact wf_of_run (exec_hintStale ..) fun hw => by simpa using hw
  case tokenTick => exact wf_of_run (exec_tokenTick ..) fun hw => by simpa using hw
  case gateEntryChange => exact wf_of_run (exec_gateEntryChange ..) fun hw => by simpa using hw
  case timeExchangeSend => exact wf_of_run (exec_timeExchangeSend ..) fun hw => by simpa using hw
  case timeExchangeReceive => exact wf_of_run (exec_timeExchangeReceive ..) fun hw => by simpa using hw
  case parentTimeout => exact wf_of_run (exec_parentTimeout ..) fun hw => by simpa using hw
  case holdoverExpiry => exact wf_of_run (exec_holdoverExpiry ..) fun hw => by simpa using hw
  case setTime => exact wf_of_runAny (exec_setTime ..) fun hw => Chip.numWrite_wf (hw := hw) ..
  case ppsEdge => exact wf_of_run (exec_ppsEdge ..) fun hw => by simpa using hw
  case paceWindow => exact wf_of_run (exec_paceWindow ..) fun hw => by simpa using hw
  case avsLoop => exact wf_of_run (exec_avsLoop ..) fun hw => by simpa using hw
  case avsResponse => exact wf_of_run (exec_avsResponse ..) fun hw => by simpa using hw
  case avsTimeout => exact wf_of_run (exec_avsTimeout ..) fun hw => by simpa using hw
  case thermalWarning => exact wf_of_run (exec_thermalWarning ..) fun hw => by simpa using hw
  case thermalTrip => exact wf_of_runAny (exec_thermalTrip ..) fun hw => Chip.thermalTrip_wf (hw := hw) ..
  case samplingTick => exact wf_of_runAny (exec_samplingTick ..) fun hw => by simpa using hw
  case streamSample => exact wf_of_run (exec_streamSample ..) fun hw => by simpa using hw
  case thermalWarningClear => exact wf_of_run (exec_thermalWarningClear ..) fun hw => by simpa using hw
  case receiverDetect => exact wf_of_run (exec_receiverDetect ..) fun hw => by simpa using hw
  case patternBlock => exact wf_of_run (exec_patternBlock ..) fun hw => by simpa using hw
  case equalisationRequest => exact wf_of_run (exec_equalisationRequest ..) fun hw => Chip.eqRequest_wf (hw := hw) ..
  case equalisationResponse => exact wf_of_run (exec_equalisationResponse ..) fun hw => by simpa using hw
  case capabilitiesBlock => exact wf_of_run (exec_capabilitiesBlock ..) fun hw => by simpa using hw
  case trainingTimeout => exact wf_of_run (exec_trainingTimeout ..) fun hw => by simpa using hw
  case attemptWaitEnd => exact wf_of_run (exec_attemptWaitEnd ..) fun hw => by simpa using hw
  case retrainEventTimeout => exact wf_of_run (exec_retrainEventTimeout ..) fun hw => by simpa using hw
  case portRetrain => exact wf_of_runAny (exec_portRetrain ..) fun hw => Chip.numWrite_wf (hw := hw) ..
  case portNarrowLpos0 => exact wf_of_runAny (exec_portNarrowLpos0 ..) fun hw => Chip.numWrite_wf (hw := hw) ..
  case portNarrowLpos1 => exact wf_of_runAny (exec_portNarrowLpos1 ..) fun hw => Chip.numWrite_wf (hw := hw) ..
  case portWiden => exact wf_of_runAny (exec_portWiden ..) fun hw => Chip.numWrite_wf (hw := hw) ..
  case wreq => exact wf_of_run (exec_wreq ..) fun hw => by simpa using hw
  case wgrant => exact wf_of_run (exec_wgrant ..) fun hw => by simpa using hw
  case wrefuse => exact wf_of_run (exec_wrefuse ..) fun hw => by simpa using hw
  case wswitch => exact wf_of_run (exec_wswitch ..) fun hw => by simpa using hw
  case rreq => exact wf_of_run (exec_rreq ..) fun hw => by simpa using hw
  case rack => exact wf_of_run (exec_rack ..) fun hw => by simpa using hw
  case wreqTimeout => exact wf_of_run (exec_wreqTimeout ..) fun hw => by simpa using hw
  case rackTimeout => exact wf_of_run (exec_rackTimeout ..) fun hw => by simpa using hw
  case wswitchLockTimeout => exact wf_of_run (exec_wswitchLockTimeout ..) fun hw => by simpa using hw
  case heldEntry => exact wf_of_run (exec_heldEntry ..) fun hw => by simpa using hw
  case allocate => exact wf_of_runAny (exec_allocate ..) fun hw => Chip.ctrWrite_wf (hw := hw) ..
  case free => exact wf_of_runAny (exec_free ..) fun hw => Chip.ctrWrite_wf (hw := hw) ..
  case configure => exact wf_of_runAny (exec_configure ..) fun hw => Chip.ctrWrite_wf (hw := hw) ..
  case set => exact wf_of_runAny (exec_set ..) fun hw => Chip.ctrWrite_wf (hw := hw) ..
  case add => exact wf_of_runAny (exec_add ..) fun hw => Chip.ctrWrite_wf (hw := hw) ..
  case heldEntryReadBack => exact wf_of_run (exec_heldEntryReadBack ..) fun hw => Chip.heldReadBack_wf (hw := hw) ..
  case heldAreaReadTimeout => exact wf_of_run (exec_heldAreaReadTimeout ..) fun hw => by simpa using hw
  case bar4Read => exact wf_of_run (exec_bar4Read ..) fun hw => by simpa using hw
  case bar4Write => exact wf_of_run (exec_bar4Write ..) fun hw => by simpa using hw
  case bar4Atomicop => exact wf_of_run (exec_bar4Atomicop ..) fun hw => by simpa using hw
  case writeGatherExpiry => exact wf_of_run (exec_writeGatherExpiry ..) fun hw => by simpa using hw
  case prefetchExpiry => exact wf_of_run (exec_prefetchExpiry ..) fun hw => by simpa using hw
  case bridgeTimeout => exact wf_of_run (exec_bridgeTimeout ..) fun hw => by simpa using hw
  case send => exact wf_of_run (exec_send ..) fun hw => by simpa using hw
  case taggedSend => exact wf_of_run (exec_taggedSend ..) fun hw => by simpa using hw
  case writeEntry => exact wf_of_run (exec_writeEntry ..) fun hw => by simpa using hw
  case writeWithNotify => exact wf_of_run (exec_writeWithNotify ..) fun hw => by simpa using hw
  case readEntry => exact wf_of_run (exec_readEntry ..) fun hw => by simpa using hw
  case fetchAdd => exact wf_of_run (exec_fetchAdd ..) fun hw => by simpa using hw
  case swap => exact wf_of_run (exec_swap ..) fun hw => by simpa using hw
  case compareSwap8 => exact wf_of_run (exec_compareSwap8 ..) fun hw => by simpa using hw
  case compareSwap16 => exact wf_of_run (exec_compareSwap16 ..) fun hw => by simpa using hw
  case count => exact wf_of_run (exec_count ..) fun hw => by simpa using hw
  case nop => exact wf_of_run (exec_nop ..) fun hw => by simpa using hw
  case recv => exact wf_of_run (exec_recv ..) fun hw => by simpa using hw
  case taggedRecv => exact wf_of_run (exec_taggedRecv ..) fun hw => by simpa using hw
  case veneerNop => exact wf_of_run (exec_veneerNop ..) fun hw => by simpa using hw
  case veneerSend => exact wf_of_run (exec_veneerSend ..) fun hw => by simpa using hw
  case veneerWrite => exact wf_of_run (exec_veneerWrite ..) fun hw => by simpa using hw
  case veneerRead => exact wf_of_run (exec_veneerRead ..) fun hw => by simpa using hw
  case malformedEntry => exact wf_of_run (exec_malformedEntry ..) fun hw => by simpa using hw

/-- Settles O4. -/
theorem everyStepKeepsMemoryCanonical : Obligations.EveryStepKeepsMemoryCanonical :=
  fun _ _ hw hs => step_keeps exec_wf hs hw

end Sys2Proof.Machine
end


section
/-! What the operations of the units leave as it was: which chip it is (R1, R3), how it has booted, its firmware and its flash, the sizes
of the regions of HBM and the dictionary; of the operations that change some of these, the fused identity alone. One lemma for each
operation. -/

set_option linter.all false
set_option Elab.async false
namespace Sys2Proof.Machine

/-- The boot state without what a fatal fault writes into it. -/
def Boot.fixed (b : Boot) : Boot := { b with lastFatal := [], fatalReset := false }

@[simp] theorem Boot.fixed_mk (b : Boot) (l : List Word) (f : Bool) :
    (Boot.mk b.phase b.resetLow b.strapLatch b.overrideValid b.overrideId b.trippedPin l f b.faultInRecovery).fixed = b.fixed := rfl

/-- What the operations of the units leave as it was: which chip it is, how it has booted, its firmware and flash, the sizes of the
regions of HBM, and the dictionary. -/
structure Kern where
  variant : Variant
  serial : Word
  boot : Boot
  fw : Firmware
  flash : Flash
  regions : Tab Nat
  size : Nat
  groups : Tab Group
  fenced : List Nat
  remembered : Tab (Nat × BitVec 16)
  pending : List (Nat × Packet)
  clampWrites : List (Nat × Nat)
  dict : Dict

/-- Which chip it is, and the mailboxes: what the operations on the dictionary leave as well. -/
structure Wide where
  variant : Variant
  serial : Word
  mailboxes : Tab Mailbox

/-- What the operations on channel groups and fences leave as well: all but the size of fabric memory, the groups and the fences. -/
structure Base where
  variant : Variant
  serial : Word
  boot : Boot
  fw : Firmware
  flash : Flash
  regions : Tab Nat
  dict : Dict

/-- The part that the operations on channel groups and fences leave. -/
def Kern.base (k : Kern) : Base := ⟨k.variant, k.serial, k.boot, k.fw, k.flash, k.regions, k.dict⟩

/-- The part that the operations on the dictionary leave. -/
def Kern.wide (k : Kern) : Wide := ⟨k.variant, k.serial, k.dict.mailboxes⟩

/-- What is fused into the die: the variant and the serial number. -/
def Wide.die (w : Wide) : Variant × Word := (w.variant, w.serial)

/-- What the operations of the units leave of a chip. -/
def Chip.kern (c : Chip) : Kern := ⟨c.variant, c.serial, c.boot.fixed, c.fw, c.flash, c.mem.regionMiB, c.mem.size, c.mem.groups, c.rt.fenced, c.rt.remembered,
  c.rt.pending, c.rt.clampWrites, c.dict⟩

@[simp] theorem Chip.kern_mk (v : Variant) (s : Word) {boot flash fw dict ports funcs fifos queues tr mt tg co mem br rt links train lanes tb pace ctr flt free out} :
    (Chip.mk v s boot flash fw dict ports funcs fifos queues tr mt tg co mem br rt links train lanes tb pace ctr flt free out).kern =
      ⟨v, s, boot.fixed, fw, flash, mem.regionMiB, mem.size, mem.groups, rt.fenced, rt.remembered, rt.pending, rt.clampWrites, dict⟩ := rfl

@[simp] theorem Chip.kern_eta (c : Chip) : Kern.mk c.variant c.serial c.boot.fixed c.fw c.flash c.mem.regionMiB c.mem.size c.mem.groups c.rt.fenced
    c.rt.remembered c.rt.pending c.rt.clampWrites c.dict = c.kern := rfl

@[simp] theorem Kern.wide_mk (v : Variant) (s : Word) {boot fw flash regions size groups fenced remembered pending clampWrites dict} :
    (Kern.mk v s boot fw flash regions size groups fenced remembered pending clampWrites dict).wide = ⟨v, s, dict.mailboxes⟩ := rfl

@[simp] theorem Kern.base_mk (v : Variant) (s : Word) {boot fw flash regions size groups fenced remembered pending clampWrites dict} :
    (Kern.mk v s boot fw flash regions size groups fenced remembered pending clampWrites dict).base =
      ⟨v, s, boot, fw, flash, regions, dict⟩ := rfl

@[simp] theorem Chip.base_eta (c : Chip) : Base.mk c.variant c.serial c.boot.fixed c.fw c.flash c.mem.regionMiB c.dict = c.kern.base := rfl

theorem Kern.wide_of_base {k l : Kern} (h : k.base = l.base) : k.wide = l.wide := by
  obtain ⟨h1, h2, h3⟩ : k.variant = l.variant ∧ k.serial = l.serial ∧ k.dict = l.dict := by
    cases k; cases l; simp_all [Kern.base]
  rw [Kern.wide, Kern.wide, h1, h2, h3]

@[simp] theorem Chip.wide_eta (c : Chip) : Wide.mk c.variant c.serial c.dict.mailboxes = c.kern.wide := rfl

@[simp] theorem Wide.die_mk (v : Variant) (s : Word) (m : Tab Mailbox) : (Wide.mk v s m).die = (v, s) := rfl

@[simp] theorem Chip.die_eta (c : Chip) : (c.variant, c.serial) = c.kern.wide.die := rfl

@[simp] theorem foldl_kern {α : Type} {g : Chip → α → Chip} (hg : ∀ c a, (g c a).kern = c.kern) (l : List α) (c : Chip) :
    (l.foldl g c).kern = c.kern := by
  induction l generalizing c with
  | nil => rfl
  | cons a l ih => rw [List.foldl_cons, ih, hg]

@[simp] theorem foldl_wide {α : Type} {g : Chip → α → Chip} (hg : ∀ c a, (g c a).kern.wide = c.kern.wide) (l : List α) (c : Chip) :
    (l.foldl g c).kern.wide = c.kern.wide := by
  induction l generalizing c with
  | nil => rfl
  | cons a l ih => rw [List.foldl_cons, ih, hg]

@[simp] theorem foldl_die {α : Type} {g : Chip → α → Chip} (hg : ∀ c a, (g c a).kern.wide.die = c.kern.wide.die) (l : List α) (c : Chip) :
    (l.foldl g c).kern.wide.die = c.kern.wide.die := by
  induction l generalizing c with
  | nil => rfl
  | cons a l ih => rw [List.foldl_cons, ih, hg]

@[simp] theorem foldl_base {α : Type} {g : Chip → α → Chip} (hg : ∀ c a, (g c a).kern.base = c.kern.base) (l : List α) (c : Chip) :
    (l.foldl g c).kern.base = c.kern.base := by
  induction l generalizing c with
  | nil => rfl
  | cons a l ih => rw [List.foldl_cons, ih, hg]

theorem pair_kern {α : Type} {p : Chip × α} {c d : Chip} {k : α} (e : p = (d, k)) (h : p.1.kern = c.kern) : d.kern = c.kern := by
  rw [e] at h; exact h

theorem pair_wide {α : Type} {p : Chip × α} {c d : Chip} {k : α} (e : p = (d, k)) (h : p.1.kern.wide = c.kern.wide) :
    d.kern.wide = c.kern.wide := by
  rw [e] at h; exact h

theorem pair_die {α : Type} {p : Chip × α} {c d : Chip} {k : α} (e : p = (d, k)) (h : p.1.kern.wide.die = c.kern.wide.die) :
    d.kern.wide.die = c.kern.wide.die := by
  rw [e] at h; exact h

@[simp] theorem Chip.setParam_wide (c : Chip) (area obj e x : Nat) : (c.setParam area obj e x).kern.wide = c.kern.wide := by
  simp [Chip.setParam]
@[simp] theorem Chip.setParam_mailboxes (c : Chip) (area obj e x : Nat) :
    (c.setParam area obj e x).dict.mailboxes = c.dict.mailboxes := rfl

@[simp] theorem Chip.updFn_kern (c : Chip) (i : Nat) (f : Func → Func) : (c.updFn i f).kern = c.kern := by simp [Chip.updFn]
@[simp] theorem Chip.updPort_kern (c : Chip) (h : Nat) (f : HostPort → HostPort) : (c.updPort h f).kern = c.kern := by
  simp [Chip.updPort]
@[simp] theorem Chip.putQueue_kern (c : Chip) (h qn : Nat) (q : Queue) : (c.putQueue h qn q).kern = c.kern := by simp [Chip.putQueue]
@[simp] theorem Chip.updQueue_kern (c : Chip) (h qn : Nat) (f : Queue → Queue) : (c.updQueue h qn f).kern = c.kern := by
  simp [Chip.updQueue]
@[simp] theorem Chip.emit_kern (c : Chip) (o : Output) : (c.emit o).kern = c.kern := by unfold Chip.emit; split <;> simp
@[simp] theorem Chip.drawn_kern (c : Chip) : (c.drawn).kern = c.kern := by simp [Chip.drawn]
@[simp] theorem Chip.drawnBy_kern (c : Chip) (n : Nat) : (c.drawnBy n).kern = c.kern := by simp [Chip.drawnBy]
@[simp] theorem Chip.bump_kern (c : Chip) (unit : Nat) (k : Ctr) (n : Nat) : (c.bump unit k n).kern = c.kern := by
  unfold Chip.bump; split <;> simp
@[simp] theorem Chip.bumpFn_kern (c : Chip) (kind fn : Nat) (n : Nat) : (c.bumpFn kind fn n).kern = c.kern := by simp [Chip.bumpFn]
@[simp] theorem Chip.sendMsix_kern (c : Chip) (fn v : Nat) : (c.sendMsix fn v).kern = c.kern := by simp [Chip.sendMsix]
@[simp] theorem Chip.signal_kern (c : Chip) (fn v : Nat) : (c.signal fn v).kern = c.kern := by simp [Chip.signal, apply_ite Chip.kern]
@[simp] theorem Chip.urgent_kern (c : Chip) (fn : Nat) : (c.urgent fn).kern = c.kern := by simp [Chip.urgent, apply_ite Chip.kern]
@[simp] theorem Chip.eventLost_kern (c : Chip) (fn : Nat) : (c.eventLost fn).kern = c.kern := by simp [Chip.eventLost]
@[simp] theorem Chip.setQState_kern (c : Chip) (h qn : Nat) (s : QState) (cause : Nat) : (c.setQState h qn s cause).kern = c.kern := by
  unfold Chip.setQState; split <;> simp
@[simp] theorem Chip.eqError_kern (c : Chip) (h eqn cause : Nat) : (c.eqError h eqn cause).kern = c.kern := by simp [Chip.eqError]
@[simp] theorem Chip.writeEvent_kern (c : Chip) (h eqn : Nat) (q : Queue) (words : List Word) :
    (c.writeEvent h eqn q words).kern = c.kern := by unfold Chip.writeEvent; split <;> simp
@[simp] theorem Chip.postEvent_kern (c : Chip) (fn code unit qn detail : Nat) : (c.postEvent fn code unit qn detail).kern = c.kern := by
  unfold Chip.postEvent
  repeat' first | (simp; done) | (dsimp only; split) | split | (rw [foldl_kern] <;> intros) | (have hk := congrArg (fun r => r.1.kern) ‹_ = (_, _)›; simp_all; done) | (simp_all; done)
@[simp] theorem Chip.eventPFs_kern (c : Chip) (code unit qn detail : Nat) : (c.eventPFs code unit qn detail).kern = c.kern := by
  simp [Chip.eventPFs]
@[simp] theorem Chip.setSrc_kern (c : Chip) (unit cause : Nat) (s : Source) : (c.setSrc unit cause s).kern = c.kern := by
  simp [Chip.setSrc]
@[simp] theorem Chip.kerfClose_kern (c : Chip) : (c.kerfClose).kern = c.kern := by simp [Chip.kerfClose]
@[simp] theorem Chip.closeUnrecorded_kern (c : Chip) : (c.closeUnrecorded).kern = c.kern := by
  unfold Chip.closeUnrecorded; split <;> simp
@[simp] theorem Chip.enterRecord_kern (c : Chip) (unit cause skind subject : Nat) (d0 d1 : Word) : (c.enterRecord unit cause skind subject d0 d1).kern = c.kern := by
  unfold Chip.enterRecord
  repeat' first | (simp; done) | (dsimp only; split) | split | (rw [foldl_kern] <;> intros) | (have hk := congrArg (fun r => r.1.kern) ‹_ = (_, _)›; simp_all; done) | (simp_all; done)
@[simp] theorem Chip.setHeld_kern (c : Chip) (unit : Nat) (on : Bool) : (c.setHeld unit on).kern = c.kern := by simp [Chip.setHeld]
@[simp] theorem Chip.routeFault_kern (c : Chip) : (c.routeFault).kern = c.kern := by simp [Chip.routeFault, apply_ite Chip.kern]
@[simp] theorem Chip.urgentAll_kern (c : Chip) : (c.urgentAll).kern = c.kern := by simp [Chip.urgentAll, apply_ite Chip.kern]
@[simp] theorem Chip.unitHeldOccurs_kern (c : Chip) (unit : Nat) : (c.unitHeldOccurs unit).kern = c.kern := by
  simp [Chip.unitHeldOccurs, apply_ite Chip.kern]
@[simp] theorem Chip.reaction3_kern (c : Chip) (unit cause : Nat) (pended : Bool) : (c.reaction3 unit cause pended).kern = c.kern := by
  simp [Chip.reaction3, apply_ite Chip.kern]
@[simp] theorem Chip.reaction4_kern (c : Chip) (unit cause skind subject : Nat) (d0 d1 : Word) : (c.reaction4 unit cause skind subject d0 d1).kern = c.kern := by
  unfold Chip.reaction4
  repeat' first | (simp; done) | (dsimp only; split) | split | (rw [foldl_kern] <;> intros) | (have hk := congrArg (fun r => r.1.kern) ‹_ = (_, _)›; simp_all; done) | (simp_all; done)
@[simp] theorem Chip.react_kern (c : Chip) (unit cause skind subject : Nat) (d0 d1 : Word) (pended : Bool) : (c.react unit cause skind subject d0 d1 pended).kern = c.kern := by
  unfold Chip.react
  repeat' first | (simp; done) | (dsimp only; split) | split | (rw [foldl_kern] <;> intros) | (have hk := congrArg (fun r => r.1.kern) ‹_ = (_, _)›; simp_all; done) | (simp_all; done)
@[simp] theorem Chip.occurrence_kern (c : Chip) (unit cause skind subject : Nat) (d0 d1 : Word) :
    (c.occurrence unit cause skind subject d0 d1).kern = c.kern := by unfold Chip.occurrence; split <;> simp
@[simp] theorem Chip.raise_kern (c : Chip) (unit cause skind subject : Nat) (d0 : Word) (d1 : Word) :
    (c.raise unit cause skind subject d0 d1).kern = c.kern := by simp [Chip.raise]
@[simp] theorem Chip.setCond_kern (c : Chip) (unit cause : Nat) (on : Bool) (skind subject : Nat) (d0 : Word) :
    (c.setCond unit cause on skind subject d0).kern = c.kern := by simp [Chip.setCond, apply_ite Chip.kern]
@[simp] theorem Chip.arrive_kern (c : Chip) (inp : Nat) (p : Packet) (pool : Bool) : (c.arrive inp p pool).kern = c.kern := by
  simp [Chip.arrive]
@[simp] theorem Chip.inject_kern (c : Chip) (h : Nat) (p : Packet) : (c.inject h p).kern = c.kern := by simp [Chip.inject]
@[simp] theorem Chip.injectShim_kern (c : Chip) (kind dst : Nat) (w0 w1 w2 w3 : Word) :
    (c.injectShim kind dst w0 w1 w2 w3).kern = c.kern := by simp [Chip.injectShim]
@[simp] theorem Chip.openHeld_kern (c : Chip) (e : HeldEnt) : (c.openHeld e).kern = c.kern := by unfold Chip.openHeld; split <;> simp
@[simp] theorem Chip.trigRelease_kern (c : Chip) (n : Nat) : (c.trigRelease n).kern = c.kern := by
  unfold Chip.trigRelease; split <;> simp
@[simp] theorem Chip.trigAdd_kern (c : Chip) (n k : Nat) : (c.trigAdd n k).kern = c.kern := by
  unfold Chip.trigAdd
  repeat' first | (simp; done) | (dsimp only; split) | split | (rw [foldl_kern] <;> intros) | (have hk := congrArg (fun r => r.1.kern) ‹_ = (_, _)›; simp_all; done) | (simp_all; done)
@[simp] theorem Chip.advance_kern (c : Chip) (d : Decided) (k : Nat) : (c.advance d k).kern = c.kern := by simp [Chip.advance]
@[simp] theorem Chip.writeCqe_kern (c : Chip) (h cqn : Nat) (q : Queue) (p : Completion) : (c.writeCqe h cqn q p).kern = c.kern := by
  simp [Chip.writeCqe, apply_ite Chip.kern]
@[simp] theorem Chip.loseCompletions_kern (c : Chip) (h cqn : Nat) (d : Decided) (k : Nat) :
    (c.loseCompletions h cqn d k).kern = c.kern := by unfold Chip.loseCompletions; split <;> simp
@[simp] theorem Chip.dropPosted_kern (c : Chip) (h qn : Nat) : (c.dropPosted h qn).kern = c.kern := by simp [Chip.dropPosted]
@[simp] theorem Chip.discardHeld_kern (c : Chip) (p : HeldEnt → Bool) : (c.discardHeld p).kern = c.kern := by simp [Chip.discardHeld]
@[simp] theorem Chip.cqErrorBound_kern (c : Chip) (h cqn qn : Nat) (q : Queue) : (c.cqErrorBound h cqn qn q).kern = c.kern := by
  simp [Chip.cqErrorBound, apply_ite Chip.kern]
@[simp] theorem Chip.cqError_kern (c : Chip) (h cqn cause : Nat) : (c.cqError h cqn cause).kern = c.kern := by
  unfold Chip.cqError; (repeat' split) <;> simp
@[simp] theorem Chip.loseOne_kern (c : Chip) (h cqn fn : Nat) : (c.loseOne h cqn fn).kern = c.kern := by simp [Chip.loseOne]
@[simp] theorem Chip.takeBacklog_kern (c : Chip) (h cqn : Nat) (q : Queue) (d : Decided) (p : Completion) :
    (c.takeBacklog h cqn q d p).kern = c.kern := by unfold Chip.takeBacklog; split <;> simp
@[simp] theorem Chip.deliver_kern (c : Chip) (h cqn : Nat) (d : Decided) (p : Completion) : (c.deliver h cqn d p).kern = c.kern := by
  unfold Chip.deliver
  repeat' first | (simp; done) | (dsimp only; split) | split | (rw [foldl_kern] <;> intros) | (have hk := congrArg (fun r => r.1.kern) ‹_ = (_, _)›; simp_all; done) | (simp_all; done)
@[simp] theorem Chip.complete_kern (c : Chip) (d : Decided) (p : Completion) : (c.complete d p).kern = c.kern := by
  unfold Chip.complete; split <;> simp
@[simp] theorem Chip.flushOne_kern (c : Chip) (h qn : Nat) (q : Queue) (p : Completion) : (c.flushOne h qn q p).kern = c.kern := by
  simp [Chip.flushOne]
@[simp] theorem Chip.flushEntries_kern (c : Chip) (h qn : Nat) (read : List Entry) (z0 : Nat) : (c.flushEntries h qn read z0).kern = c.kern := by
  induction z0 generalizing c h qn read <;> unfold Chip.flushEntries <;> repeat' first | (simp; done) | (dsimp only; split) | split | (rw [foldl_kern] <;> intros) | (have hk := congrArg (fun r => r.1.kern) ‹_ = (_, _)›; simp_all; done) | (simp_all; done)
@[simp] theorem Chip.flushQueue_kern (c : Chip) (h qn : Nat) : (c.flushQueue h qn).kern = c.kern := by simp [Chip.flushQueue]
@[simp] theorem Chip.flushRead_kern (c : Chip) (h qn : Nat) (read : List Entry) : (c.flushRead h qn read).kern = c.kern := by
  simp [Chip.flushRead]
@[simp] theorem Chip.flushUnread_kern (c : Chip) (h qn : Nat) (z0 : Nat) : (c.flushUnread h qn z0).kern = c.kern := by
  induction z0 generalizing c h qn <;> unfold Chip.flushUnread <;> repeat' first | (simp; done) | (dsimp only; split) | split | (rw [foldl_kern] <;> intros) | (have hk := congrArg (fun r => r.1.kern) ‹_ = (_, _)›; simp_all; done) | (simp_all; done)
@[simp] theorem Chip.flushHeld_kern (c : Chip) (h fn qn : Nat) (cqn : Nat) : (c.flushHeld h fn qn cqn).kern = c.kern := by
  simp [Chip.flushHeld]
@[simp] theorem Chip.flushReceives_kern (c : Chip) (h qn : Nat) : (c.flushReceives h qn).kern = c.kern := by
  unfold Chip.flushReceives; split <;> simp
@[simp] theorem Chip.queueError_kern (c : Chip) (h qn cause status : Nat) : (c.queueError h qn cause status).kern = c.kern := by
  unfold Chip.queueError
  repeat' first | (simp; done) | (dsimp only; split) | split | (rw [foldl_kern] <;> intros) | (have hk := congrArg (fun r => r.1.kern) ‹_ = (_, _)›; simp_all; done) | (simp_all; done)
@[simp] theorem Chip.drainFailed_kern (c : Chip) (h qn : Nat) (z0 : Nat) : (c.drainFailed h qn z0).kern = c.kern := by
  induction z0 generalizing c h qn <;> unfold Chip.drainFailed <;> repeat' first | (simp; done) | (dsimp only; split) | split | (rw [foldl_kern] <;> intros) | (have hk := congrArg (fun r => r.1.kern) ‹_ = (_, _)›; simp_all; done) | (simp_all; done)
@[simp] theorem Chip.closePos_kern (c : Chip) (h qn pos : Nat) : (c.closePos h qn pos).kern = c.kern := by simp [Chip.closePos]
@[simp] theorem Chip.failEntry_kern (c : Chip) (h qn pos : Nat) (e : Entry) (status : Nat) :
    (c.failEntry h qn pos e status).kern = c.kern := by simp [Chip.failEntry]
@[simp] theorem Chip.consume_kern (c : Chip) (h qn : Nat) (q : Queue) : (c.consume h qn q).kern = c.kern := by simp [Chip.consume]
@[simp] theorem Chip.poisonDevice_kern (c : Chip) (holder : Nat) : (c.poisonDevice holder).kern = c.kern := by
  simp [Chip.poisonDevice]
@[simp] theorem Chip.poisonRead_kern (c : Chip) (o holder : Nat) : (c.poisonRead o holder).kern = c.kern := by
  unfold Chip.poisonRead; split <;> simp
@[simp] theorem Chip.askPage_kern (c : Chip) (fn page : Nat) : (c.askPage fn page).1.kern = c.kern := by
  unfold Chip.askPage
  repeat' first | (simp; done) | (dsimp only; split) | split | (rw [foldl_kern] <;> intros) | (have hk := congrArg (fun r => r.1.kern) ‹_ = (_, _)›; simp_all; done) | (simp_all; done)
@[simp] theorem Chip.translateAll_kern (c : Chip) (fn : Nat) (z0 : List (Nat × Nat)) : (c.translateAll fn z0).1.kern = c.kern := by
  induction z0 generalizing c with
  | nil => rfl
  | cons x r ih =>
    unfold Chip.translateAll
    extract_lets asked
    have h0 : asked.1.kern = c.kern := by
      show (match c.cachedPage? fn (pageOf x.1) with | some t => (c, some t) | none => c.askPage fn (pageOf x.1)).1.kern = _
      split <;> simp
    clear_value asked
    split
    · exact h0
    · rename_i e
      split
      · rename_i e2; exact (pair_kern e2 (ih _)).trans h0
      · rename_i e2; exact (pair_kern e2 (ih _)).trans h0
@[simp] theorem Chip.translate_kern (c : Chip) (fn : Nat) (segs : List (Nat × Nat)) : (c.translate fn segs).1.kern = c.kern := by
  unfold Chip.translate; split <;> simp
@[simp] theorem Chip.dmaSegments_kern (c : Chip) (h fn : Nat) (z0 : List (Nat × Nat)) (z1 : List Byte) : (c.dmaSegments h fn z0 z1).kern = c.kern := by
  induction z0 generalizing c h fn z1 <;> unfold Chip.dmaSegments <;> repeat' first | (simp; done) | (dsimp only; split) | split | (rw [foldl_kern] <;> intros) | (have hk := congrArg (fun r => r.1.kern) ‹_ = (_, _)›; simp_all; done) | (simp_all; done)
@[simp] theorem Chip.bytesAt_kern (c : Chip) (k : KeyCheck) (n : Nat) (data : SourceData) : (c.bytesAt k n data).1.kern = c.kern := by
  unfold Chip.bytesAt
  repeat' first | (simp; done) | (rename_i e; simp [pair_kern e (Chip.translate_kern ..)]; done) | (rename_i e _; simp [pair_kern e (Chip.translate_kern ..)]; done) | (rename_i e _ _ _; simp [pair_kern e (Chip.translate_kern ..)]; done) | split
@[simp] theorem Chip.freezeRoutes_kern (c : Chip) : (c.freezeRoutes).kern = c.kern := by simp [Chip.freezeRoutes]
@[simp] theorem Chip.putChan_kern (c : Chip) (k : Nat) (x : Chan) : (c.putChan k x).kern = c.kern := by simp [Chip.putChan]
@[simp] theorem Chip.updChan_kern (c : Chip) (k : Nat) (f : Chan → Chan) : (c.updChan k f).kern = c.kern := by simp [Chip.updChan]
@[simp] theorem Chip.putDest_kern (c : Chip) (chip : Nat) (d : Dest) : (c.putDest chip d).kern = c.kern := by simp [Chip.putDest]
@[simp] theorem Chip.ecnFrom_kern (c : Chip) (chip : Nat) : (c.ecnFrom chip).kern = c.kern := by
  simp [Chip.ecnFrom, apply_ite Chip.kern]
@[simp] theorem Chip.retiredTo_kern (c : Chip) (chip n : Nat) : (c.retiredTo chip n).kern = c.kern := by simp [Chip.retiredTo]
@[simp] theorem Chip.heardFrom_kern (c : Chip) (chip : Nat) : (c.heardFrom chip).kern = c.kern := by
  unfold Chip.heardFrom; split <;> simp
@[simp] theorem Chip.policerDebit_kern (c : Chip) (fn cells : Nat) : (c.policerDebit fn cells).kern = c.kern := by
  unfold Chip.policerDebit; split <;> simp
@[simp] theorem Chip.countInjected_kern (c : Chip) (fn : Option Nat) (p : Packet) : (c.countInjected fn p).kern = c.kern := by
  unfold Chip.countInjected
  repeat' first | (simp; done) | (dsimp only; split) | split | (rw [foldl_kern] <;> intros) | (have hk := congrArg (fun r => r.1.kern) ‹_ = (_, _)›; simp_all; done) | (simp_all; done)
@[simp] theorem Chip.sendRequest_kern (c : Chip) (k : Nat) (fn : Option Nat) (p : Packet) : (c.sendRequest k fn p).kern = c.kern := by
  unfold Chip.sendRequest
  repeat' first | (simp; done) | (dsimp only; split) | split | (rw [foldl_kern] <;> intros) | (have hk := congrArg (fun r => r.1.kern) ‹_ = (_, _)›; simp_all; done) | (simp_all; done)
@[simp] theorem Chip.transmit_kern (c : Chip) (k : Nat) (fn : Option Nat) (p : Packet) : (c.transmit k fn p).kern = c.kern := by
  unfold Chip.transmit
  repeat' first | (simp; done) | (dsimp only; split) | split | (rw [foldl_kern] <;> intros) | (have hk := congrArg (fun r => r.1.kern) ‹_ = (_, _)›; simp_all; done) | (simp_all; done)
@[simp] theorem Chip.pump_kern (c : Chip) (k : Nat) (z0 : Nat) : (c.pump k z0).kern = c.kern := by
  induction z0 generalizing c k <;> unfold Chip.pump <;> repeat' first | (simp; done) | (dsimp only; split) | split | (rw [foldl_kern] <;> intros) | (have hk := congrArg (fun r => r.1.kern) ‹_ = (_, _)›; simp_all; done) | (simp_all; done)
@[simp] theorem Chip.sendSync_kern (c : Chip) (k : Nat) : (c.sendSync k).kern = c.kern := by
  unfold Chip.sendSync; (repeat' split) <;> simp
@[simp] theorem Chip.startSync_kern (c : Chip) (k : Nat) : (c.startSync k).kern = c.kern := by simp [Chip.startSync]
@[simp] theorem Chip.dropOffer_kern (c : Chip) (index : Nat) : (c.dropOffer index).kern = c.kern := by simp [Chip.dropOffer]
@[simp] theorem Chip.endOffer_kern (c : Chip) (index status length : Nat) : (c.endOffer index status length).kern = c.kern := by
  unfold Chip.endOffer; (repeat' split) <;> simp
@[simp] theorem Chip.finishOp_kern (c : Chip) (k : Nat) (o : SendOp) (status : Nat) : (c.finishOp k o status).kern = c.kern := by
  unfold Chip.finishOp; (repeat' split) <;> simp
@[simp] theorem Chip.deliverOps_kern (c : Chip) (k : Nat) (z0 : Nat) : (c.deliverOps k z0).kern = c.kern := by
  induction z0 generalizing c k <;> unfold Chip.deliverOps <;> repeat' first | (simp; done) | (dsimp only; split) | split | (rw [foldl_kern] <;> intros) | (have hk := congrArg (fun r => r.1.kern) ‹_ = (_, _)›; simp_all; done) | (simp_all; done)
@[simp] theorem Chip.deliverChan_kern (c : Chip) (k : Nat) : (c.deliverChan k).kern = c.kern := by simp [Chip.deliverChan]
@[simp] theorem Chip.failUnsent_kern (c : Chip) (k status : Nat) (o : SendOp) : (c.failUnsent k status o).kern = c.kern := by
  unfold Chip.failUnsent; (repeat' split) <;> simp
@[simp] theorem Chip.failWaiting_kern (c : Chip) (k status : Nat) : (c.failWaiting k status).kern = c.kern := by
  unfold Chip.failWaiting; split <;> simp
@[simp] theorem Chip.noRoute_kern (c : Chip) (k : Nat) (sending : SendOp → Bool) : (c.noRoute k sending).kern = c.kern := by
  simp [Chip.noRoute]
@[simp] theorem Chip.runChan_kern (c : Chip) (k : Nat) : (c.runChan k).kern = c.kern := by
  unfold Chip.runChan; (repeat' split) <;> simp
@[simp] theorem Chip.runChip_kern (c : Chip) (chip : Nat) : (c.runChip chip).kern = c.kern := by simp [Chip.runChip]
@[simp] theorem Chip.advanceChan_kern (c : Chip) (k : Nat) : (c.advanceChan k).kern = c.kern := by simp [Chip.advanceChan]
@[simp] theorem Chip.retire_kern (c : Chip) (k : Nat) (p : OutPkt → Bool) (ecne : Bool) : (c.retire k p ecne).kern = c.kern := by
  unfold Chip.retire
  repeat' first | (simp; done) | (dsimp only; split) | split | (rw [foldl_kern] <;> intros) | (have hk := congrArg (fun r => r.1.kern) ‹_ = (_, _)›; simp_all; done) | (simp_all; done)
@[simp] theorem Chip.contextOut_kern (c : Chip) (ctx : CtxKey) : (c.contextOut ctx).kern = c.kern := by
  unfold Chip.contextOut
  repeat' first | (simp; done) | split
  cases c.queue? _ _ <;> simp
@[simp] theorem Chip.evict_kern (c : Chip) (v : CtxKey) : (c.evict v).kern = c.kern := by
  unfold Chip.evict
  repeat' first | (simp; done) | (dsimp only; split) | split | (rw [foldl_kern] <;> intros) | (have hk := congrArg (fun r => r.1.kern) ‹_ = (_, _)›; simp_all; done) | (simp_all; done)
@[simp] theorem Chip.install_kern (c : Chip) (ctx : CtxKey) : (c.install ctx).kern = c.kern := by simp [Chip.install]
@[simp] theorem Chip.touch_kern (c : Chip) (ctx : CtxKey) : (c.touch ctx).kern = c.kern := by
  unfold Chip.touch; (repeat' split) <;> simp
@[simp] theorem Chip.beginFetch_kern (c : Chip) (ctx : CtxKey) : (c.beginFetch ctx).kern = c.kern := by
  unfold Chip.beginFetch; (repeat' split) <;> simp
@[simp] theorem Chip.endFetch_kern (c : Chip) (ctx : CtxKey) : (c.endFetch ctx).kern = c.kern := by
  unfold Chip.endFetch; (repeat' split) <;> simp
@[simp] theorem Chip.failOps_kern (c : Chip) (k status : Nat) : (c.failOps k status).kern = c.kern := by
  unfold Chip.failOps; split <;> simp
@[simp] theorem Chip.chanError_kern (c : Chip) (k : Nat) : (c.chanError k).kern = c.kern := by
  unfold Chip.chanError
  split
  · rfl
  · dsimp only
    split
    · simp
    · simp only [Chip.putDest_kern]
      rw [foldl_kern] <;> intros
      · simp
      · split <;> simp
@[simp] theorem Chip.chanFence_kern (c : Chip) (k : Nat) : (c.chanFence k).kern = c.kern := by
  unfold Chip.chanFence; (repeat' split) <;> simp
@[simp] theorem Chip.chanUnfence_kern (c : Chip) (k : Nat) : (c.chanUnfence k).kern = c.kern := by simp [Chip.chanUnfence]
@[simp] theorem Chip.enqueueOp_kern (c : Chip) (k : Nat) (o : SendOp) : (c.enqueueOp k o).kern = c.kern := by
  unfold Chip.enqueueOp
  repeat' first | (simp; done) | (dsimp only; split) | split | (rw [foldl_kern] <;> intros) | (have hk := congrArg (fun r => r.1.kern) ‹_ = (_, _)›; simp_all; done) | (simp_all; done)
@[simp] theorem Chip.placeHeld_kern (c : Chip) (e : HeldEnt) : (c.placeHeld e).kern = c.kern := by
  unfold Chip.placeHeld
  repeat' first | (simp; done) | (dsimp only; split) | split | (rw [foldl_kern] <;> intros) | (have hk := congrArg (fun r => r.1.kern) ‹_ = (_, _)›; simp_all; done) | (simp_all; done)
@[simp] theorem Chip.heldPlaces_kern (c : Chip) : (c.heldPlaces).kern = c.kern := by unfold Chip.heldPlaces; split <;> simp
@[simp] theorem Chip.enqueueOps_kern (c : Chip) (k : Nat) (l : List SendOp) : (c.enqueueOps k l).kern = c.kern := by
  simp [Chip.enqueueOps]
@[simp] theorem Chip.putFifo_kern (c : Chip) (i : Nat) (f : Fifo) : (c.putFifo i f).kern = c.kern := by simp [Chip.putFifo]
@[simp] theorem Chip.onFifo_kern (c : Chip) (h : Nat) (b : FifoBlock) (f : Fifo → Fifo) : (c.onFifo h b f).kern = c.kern := by
  unfold Chip.onFifo; split <;> simp
@[simp] theorem Chip.reply_kern (c : Chip) (fn : Nat) (w : Word) : (c.reply fn w).kern = c.kern := by simp [Chip.reply]
@[simp] theorem Chip.ffRead_kern (c : Chip) (h : Nat) (b : FifoBlock) (wide : Bool) : (c.ffRead h b wide).kern = c.kern := by
  unfold Chip.ffRead; (repeat' split) <;> simp
@[simp] theorem Chip.ffReadUpper_kern (c : Chip) (h : Nat) (b : FifoBlock) : (c.ffReadUpper h b).kern = c.kern := by
  unfold Chip.ffReadUpper; split <;> simp
@[simp] theorem Chip.ffWrite_kern (c : Chip) (h : Nat) (b : FifoBlock) (wide : Bool) (v : Word) :
    (c.ffWrite h b wide v).kern = c.kern := by unfold Chip.ffWrite; split <;> simp
@[simp] theorem Chip.ffWriteLower_kern (c : Chip) (h : Nat) (b : FifoBlock) (v : BitVec 32) : (c.ffWriteLower h b v).kern = c.kern := by
  unfold Chip.ffWriteLower; split <;> simp
@[simp] theorem Chip.ffControl_kern (c : Chip) (h : Nat) (b : FifoBlock) (producer : Bool) (f : Fifo → Fifo) :
    (c.ffControl h b producer f).kern = c.kern := by simp [Chip.ffControl]
@[simp] theorem Chip.ffCommit_kern (c : Chip) (h : Nat) (b : FifoBlock) : (c.ffCommit h b).kern = c.kern := by simp [Chip.ffCommit]
@[simp] theorem Chip.ffAbort_kern (c : Chip) (h : Nat) (b : FifoBlock) : (c.ffAbort h b).kern = c.kern := by simp [Chip.ffAbort]
@[simp] theorem Chip.ffMark_kern (c : Chip) (h : Nat) (b : FifoBlock) : (c.ffMark h b).kern = c.kern := by simp [Chip.ffMark]
@[simp] theorem Chip.ffRewind_kern (c : Chip) (h : Nat) (b : FifoBlock) : (c.ffRewind h b).kern = c.kern := by simp [Chip.ffRewind]
@[simp] theorem Chip.ffRelease_kern (c : Chip) (h : Nat) (b : FifoBlock) (p : BitVec 32) : (c.ffRelease h b p).kern = c.kern := by
  unfold Chip.ffRelease; split <;> simp
@[simp] theorem Chip.ffCtrlWrite_kern (c : Chip) (h : Nat) (b : FifoBlock) (v : Nat) : (c.ffCtrlWrite h b v).kern = c.kern := by
  unfold Chip.ffCtrlWrite; split <;> simp
@[simp] theorem Chip.ffStatusWrite_kern (c : Chip) (h : Nat) (b : FifoBlock) (v : Nat) : (c.ffStatusWrite h b v).kern = c.kern := by
  simp [Chip.ffStatusWrite]
@[simp] theorem Chip.radishMarker_kern (c : Chip) (i : Nat) : (c.radishMarker i).kern = c.kern := by simp [Chip.radishMarker]
@[simp] theorem Chip.mgmtDiscards_kern (c : Chip) (h n : Nat) : (c.mgmtDiscards h n).kern = c.kern := by simp [Chip.mgmtDiscards]
@[simp] theorem Chip.mgmtTransmit_kern (c : Chip) (h : Nat) : (c.mgmtTransmit h).kern = c.kern := by
  unfold Chip.mgmtTransmit
  repeat' first | (simp; done) | (dsimp only; split) | split | (rw [foldl_kern] <;> intros) | (have hk := congrArg (fun r => r.1.kern) ‹_ = (_, _)›; simp_all; done) | (simp_all; done)
@[simp] theorem Chip.shimDelivery_kern (c : Chip) (h : Nat) (p : Packet) : (c.shimDelivery h p).kern = c.kern := by
  simp [Chip.shimDelivery, apply_ite Chip.kern]
@[simp] theorem Chip.emptyMgmt_kern (c : Chip) (h : Nat) : (c.emptyMgmt h).kern = c.kern := by simp [Chip.emptyMgmt]
@[simp] theorem Chip.updLane_kern (c : Chip) (n : Nat) (f : Lane → Lane) : (c.updLane n f).kern = c.kern := by simp [Chip.updLane]
@[simp] theorem Chip.sendParity_kern (c : Chip) (n : Nat) : (c.sendParity n).kern = c.kern := by
  simp [Chip.sendParity, apply_ite Chip.kern]
@[simp] theorem Chip.sendSlot_kern (c : Chip) (n : Nat) (b : PortBlock) : (c.sendSlot n b).kern = c.kern := by simp [Chip.sendSlot]
@[simp] theorem Chip.sendLane_kern (c : Chip) (n : Nat) (b : PortBlock) : (c.sendLane n b).kern = c.kern := by
  simp [Chip.sendLane, apply_ite Chip.kern]
@[simp] theorem Chip.sendPort_kern (c : Chip) (p lanes : Nat) (l : List PortBlock) : (c.sendPort p lanes l).kern = c.kern := by
  simp [Chip.sendPort]
@[simp] theorem Chip.startLane_kern (c : Chip) (n : Nat) : (c.startLane n).kern = c.kern := by simp [Chip.startLane]
@[simp] theorem Chip.alignLanes_kern (c : Chip) (p lanes : Nat) : (c.alignLanes p lanes).kern = c.kern := by simp [Chip.alignLanes]
@[simp] theorem Chip.handOn_kern (c : Chip) (p : Nat) (l : List PortBlock) : (c.handOn p l).kern = c.kern := by
  simp [Chip.handOn, apply_ite Chip.kern]
@[simp] theorem Chip.deskew_kern (c : Chip) (p : Nat) (both : Bool) : (c.deskew p both).kern = c.kern := by
  unfold Chip.deskew; split <;> simp
@[simp] theorem Chip.updLink_kern (c : Chip) (p : Nat) (f : Link → Link) : (c.updLink p f).kern = c.kern := by simp [Chip.updLink]
@[simp] theorem Chip.updRx_kern (c : Chip) (p : Nat) (f : RxSide → RxSide) : (c.updRx p f).kern = c.kern := by simp [Chip.updRx]
@[simp] theorem Chip.updTx_kern (c : Chip) (p : Nat) (f : TxSide → TxSide) : (c.updTx p f).kern = c.kern := by simp [Chip.updTx]
@[simp] theorem Chip.updPortT_kern (c : Chip) (p : Nat) (f : Port → Port) : (c.updPortT p f).kern = c.kern := by simp [Chip.updPortT]
@[simp] theorem Chip.streamOut_kern (c : Chip) (port : Nat) (l : List Byte) : (c.streamOut port l).kern = c.kern := by
  simp [Chip.streamOut]
@[simp] theorem Chip.padBlock_kern (c : Chip) (port : Nat) : (c.padBlock port).kern = c.kern := by
  simp [Chip.padBlock, apply_ite Chip.kern]
@[simp] theorem Chip.sendLink_kern (c : Chip) (port : Nat) (s : Sent) (rpl : Bool) : (c.sendLink port s rpl).kern = c.kern := by
  simp [Chip.sendLink]
@[simp] theorem Chip.linkStart_kern (c : Chip) (port : Nat) (p : Packet) : (c.linkStart port p).kern = c.kern := by
  simp [Chip.linkStart]
@[simp] theorem Chip.resend_kern (c : Chip) (port : Nat) (s : Sent) : (c.resend port s).kern = c.kern := by simp [Chip.resend]
@[simp] theorem Chip.queueItem_kern (c : Chip) (port kind : Nat) (item : List Byte) : (c.queueItem port kind item).kern = c.kern := by
  simp [Chip.queueItem]
@[simp] theorem Chip.noteStamp_kern (c : Chip) (port : Nat) (l : Lcb) : (c.noteStamp port l).kern = c.kern := by
  unfold Chip.noteStamp; split <;> simp
@[simp] theorem Chip.sendLcb_kern (c : Chip) (port : Nat) : (c.sendLcb port).kern = c.kern := by simp [Chip.sendLcb]
@[simp] theorem Chip.lcbNow_kern (c : Chip) (port : Nat) : (c.lcbNow port).kern = c.kern := by unfold Chip.lcbNow; split <;> simp
@[simp] theorem Chip.lcbInterval_kern (c : Chip) (port : Nat) : (c.lcbInterval port).kern = c.kern := by
  unfold Chip.lcbInterval; split <;> simp
@[simp] theorem Chip.nakDue_kern (c : Chip) (port : Nat) : (c.nakDue port).kern = c.kern := by simp [Chip.nakDue]
@[simp] theorem Chip.decideXoff_kern (c : Chip) (p : Nat) : (c.decideXoff p).kern = c.kern := by
  simp [Chip.decideXoff, apply_ite Chip.kern]
@[simp] theorem Chip.takeCells_kern (c : Chip) (p vc n : Nat) (pool : Bool) : (c.takeCells p vc n pool).kern = c.kern := by
  simp [Chip.takeCells]
@[simp] theorem Chip.freeCells_kern (c : Chip) (p vc n : Nat) (pool : Bool) : (c.freeCells p vc n pool).kern = c.kern := by
  unfold Chip.freeCells; split <;> simp
@[simp] theorem Chip.replayAll_kern (c : Chip) (port : Nat) : (c.replayAll port).kern = c.kern := by simp [Chip.replayAll]
@[simp] theorem Chip.startReplay_kern (c : Chip) (port : Nat) : (c.startReplay port).kern = c.kern := by
  unfold Chip.startReplay; split <;> simp
@[simp] theorem Chip.linkEnd_kern (c : Chip) (port : Nat) (p : Packet) (stomped : Bool) : (c.linkEnd port p stomped).kern = c.kern := by
  unfold Chip.linkEnd
  repeat' first | (simp; done) | (dsimp only; split) | split | (rw [foldl_kern] <;> intros) | (have hk := congrArg (fun r => r.1.kern) ‹_ = (_, _)›; simp_all; done) | (simp_all; done)
@[simp] theorem Chip.linkSend_kern (c : Chip) (port : Nat) (p : Packet) : (c.linkSend port p).kern = c.kern := by
  simp [Chip.linkSend]
@[simp] theorem Chip.ackOldest_kern (c : Chip) (port n : Nat) : (c.ackOldest port n).kern = c.kern := by
  unfold Chip.ackOldest; split <;> simp
@[simp] theorem Chip.startRetrain_kern (c : Chip) (port reason : Nat) : (c.startRetrain port reason).kern = c.kern := by
  unfold Chip.startRetrain; split <;> simp
@[simp] theorem Chip.checkProgress_kern (c : Chip) (port : Nat) : (c.checkProgress port).kern = c.kern := by
  unfold Chip.checkProgress; split <;> simp
@[simp] theorem Chip.nakReplay_kern (c : Chip) (port n : Nat) : (c.nakReplay port n).kern = c.kern := by simp [Chip.nakReplay]
@[simp] theorem Chip.takeNak_kern (c : Chip) (port : Nat) (lsn : BitVec 12) : (c.takeNak port lsn).kern = c.kern := by
  simp [Chip.takeNak, apply_ite Chip.kern]
@[simp] theorem Chip.takeAckLsn_kern (c : Chip) (port : Nat) (lsn : BitVec 12) : (c.takeAckLsn port lsn).kern = c.kern := by
  simp [Chip.takeAckLsn, apply_ite Chip.kern]
@[simp] theorem Chip.lcbReceive_kern (c : Chip) (port : Nat) (h : LcbHalves) : (c.lcbReceive port h).kern = c.kern := by
  simp [Chip.lcbReceive, apply_ite Chip.kern]
@[simp] theorem Chip.replayTimeout_kern (c : Chip) (port : Nat) : (c.replayTimeout port).kern = c.kern := by
  simp [Chip.replayTimeout, apply_ite Chip.kern]
@[simp] theorem Chip.occupancyTick_kern (c : Chip) (id : CounterId) (ticks : Nat) : (c.occupancyTick id ticks).kern = c.kern := by
  simp [Chip.occupancyTick]
@[simp] theorem Chip.xoffTick_kern (c : Chip) (ticks : Nat) : (c.xoffTick ticks).kern = c.kern := by simp [Chip.xoffTick]
@[simp] theorem Chip.samplingTick_kern (c : Chip) (ticks : Nat) : (c.samplingTick ticks).kern = c.kern := by
  simp [Chip.samplingTick, apply_ite Chip.kern]
@[simp] theorem Chip.streamDrop_kern (c : Chip) (n : Nat) : (c.streamDrop n).kern = c.kern := by simp [Chip.streamDrop]
@[simp] theorem Chip.ringEntry_kern (c : Chip) (h : Nat) (l : List Word) : (c.ringEntry h l).kern = c.kern := by
  simp [Chip.ringEntry, apply_ite Chip.kern]
@[simp] theorem Chip.streamSample_kern (c : Chip) (ci : BitVec 32) : (c.streamSample ci).kern = c.kern := by
  unfold Chip.streamSample
  repeat' first | (simp; done) | (dsimp only; split) | split | (rw [foldl_kern] <;> intros) | (have hk := congrArg (fun r => r.1.kern) ‹_ = (_, _)›; simp_all; done) | (simp_all; done)
@[simp] theorem Chip.routerDrop_kern (c : Chip) (port : Nat) (k : Ctr) (cause : Nat) : (c.routerDrop port k cause).kern = c.kern := by
  simp [Chip.routerDrop]
@[simp] theorem Chip.shaperDebit_kern (c : Chip) (out tc len : Nat) : (c.shaperDebit out tc len).kern = c.kern := by
  unfold Chip.shaperDebit; split <;> simp
@[simp] theorem Chip.putSched_kern (c : Chip) (out : Nat) (s : OutSched) : (c.putSched out s).kern = c.kern := by
  simp [Chip.putSched]
@[simp] theorem Chip.refreshOut_kern (c : Chip) (out : Nat) : (c.refreshOut out).kern = c.kern := by
  simp [Chip.refreshOut, apply_ite Chip.kern]
@[simp] theorem Chip.leaveBuffer_kern (c : Chip) (w : Waiting) : (c.leaveBuffer w).kern = c.kern := by
  simp [Chip.leaveBuffer, apply_ite Chip.kern]
@[simp] theorem Chip.refreshAll_kern (c : Chip)  : (c.refreshAll).kern = c.kern := by
  unfold Chip.refreshAll
  repeat' first | (simp; done) | (dsimp only; split) | split | (rw [foldl_kern] <;> intros) | (have hk := congrArg (fun r => r.1.kern) ‹_ = (_, _)›; simp_all; done) | (simp_all; done)
@[simp] theorem Chip.enqueue_kern (c : Chip) (w : Waiting) : (c.enqueue w).kern = c.kern := by simp [Chip.enqueue]
@[simp] theorem Chip.enqueueTree_kern (c : Chip) (out : Nat) (p : Packet) : (c.enqueueTree out p).kern = c.kern := by
  simp [Chip.enqueueTree]
@[simp] theorem Chip.draw_kern (c : Chip) (fromLocal : Bool) (dstGroup : Nat) : (c.draw fromLocal dstGroup).1.kern = c.kern := by
  unfold Chip.draw
  repeat' first | (simp; done) | (dsimp only; split) | split | (rw [foldl_kern] <;> intros) | (have hk := congrArg (fun r => r.1.kern) ‹_ = (_, _)›; simp_all; done) | (simp_all; done)
@[simp] theorem Chip.choose_kern (c : Chip) (inp : Nat) (p : Packet) (l : List Cand) (positional : Bool) : (c.choose inp p l positional).1.kern = c.kern := by
  unfold Chip.choose
  repeat' first | (simp; done) | (dsimp only; split) | split | (rw [foldl_kern] <;> intros) | (have hk := congrArg (fun r => r.1.kern) ‹_ = (_, _)›; simp_all; done) | (simp_all; done)
@[simp] theorem Chip.routeByTables_kern (c : Chip) (inp : Nat) (p : Packet) : (c.routeByTables inp p).1.kern = c.kern := by
  unfold Chip.routeByTables
  repeat' first | (simp; done) | (dsimp only; split) | split | (rw [foldl_kern] <;> intros) | (have hk := congrArg (fun r => r.1.kern) ‹_ = (_, _)›; simp_all; done) | (simp_all; done)
@[simp] theorem Chip.route_kern (c : Chip) (inp : Nat) (p : Packet) : (c.route inp p).1.kern = c.kern := by
  unfold Chip.route; (repeat' split) <;> simp
@[simp] theorem Chip.dropArrival_kern (c : Chip) (a : Arrival) : (c.dropArrival a).kern = c.kern := by simp [Chip.dropArrival]
@[simp] theorem Chip.freeArrival_kern (c : Chip) (a : Arrival) : (c.freeArrival a).kern = c.kern := by simp [Chip.freeArrival]
@[simp] theorem Chip.carryOut_kern (c : Chip) (a : Arrival) (r : Routed) : (c.carryOut a r).kern = c.kern := by
  unfold Chip.carryOut
  split
  · split
    · rename_i e
      unfold Chip.ownUnrouted? at e
      repeat' first | contradiction | (injection e with e; rw [← e]; simp; done) | split at e | dsimp only at e
    · simp
  · simp
  · simp
  · simp
  · rfl
@[simp] theorem Chip.routeArrival_kern (c : Chip) (a : Arrival) : (c.routeArrival a).kern = c.kern := by
  unfold Chip.routeArrival; split <;> simp
@[simp] theorem Chip.routeAhead_kern (c : Chip) (inp : Nat) : (c.routeAhead inp).kern = c.kern := by
  unfold Chip.routeAhead
  split
  · rfl
  · split
    · rfl
    · split
      · rename_i e; simp [pair_kern e (Chip.route_kern ..)]
      · rfl
@[simp] theorem Chip.packetRoute_kern (c : Chip) (inp : Nat) (whole : Bool) : (c.packetRoute inp whole).kern = c.kern := by
  unfold Chip.packetRoute; (repeat' split) <;> simp
@[simp] theorem Chip.discardWaiting_kern (c : Chip) (w : Waiting) : (c.discardWaiting w).kern = c.kern := by
  unfold Chip.discardWaiting; split <;> simp
@[simp] theorem Chip.reroute_kern (c : Chip) (w : Waiting) : (c.reroute w).kern = c.kern := by
  unfold Chip.reroute
  split
  · simp
  · dsimp only; split <;> rename_i e <;> have := pair_kern e (Chip.routeByTables_kern ..) <;> first | (simp [this]; done) | (split <;> simp [this])
@[simp] theorem Chip.dropSending_kern (c : Chip) (port : Nat) : (c.dropSending port).kern = c.kern := by simp [Chip.dropSending]
@[simp] theorem Chip.rerouteAll_kern (c : Chip) (port : Nat) : (c.rerouteAll port).kern = c.kern := by
  unfold Chip.rerouteAll
  dsimp only
  rw [Chip.dropSending_kern, foldl_kern]
  intros
  split <;> simp
@[simp] theorem Chip.drr_kern (c : Chip) (out : Nat) (z0 : Nat) : (c.drr out z0).1.kern = c.kern := by
  induction z0 generalizing c out <;> unfold Chip.drr <;> repeat' first | (simp; done) | (dsimp only; split) | split | (rw [foldl_kern] <;> intros) | (have hk := congrArg (fun r => r.1.kern) ‹_ = (_, _)›; simp_all; done) | (simp_all; done)
@[simp] theorem Chip.select_kern (c : Chip) (out : Nat) : (c.select out).1.kern = c.kern := by
  unfold Chip.select
  repeat' first | (simp; done) | (dsimp only; split) | split | (rw [foldl_kern] <;> intros) | (have hk := congrArg (fun r => r.1.kern) ‹_ = (_, _)›; simp_all; done) | (simp_all; done)
@[simp] theorem Chip.undebit_kern (c : Chip) (w : Waiting) : (c.undebit w).kern = c.kern := by
  simp [Chip.undebit, apply_ite Chip.kern]
@[simp] theorem Chip.sendOut_kern (c : Chip) (out : Nat) (p : Packet) : (c.sendOut out p).kern = c.kern := by
  unfold Chip.sendOut; split <;> simp
@[simp] theorem Chip.endOut_kern (c : Chip) (out : Nat) (p : Packet) (bad : Bool) : (c.endOut out p bad).kern = c.kern := by
  unfold Chip.endOut; split <;> simp
@[simp] theorem Chip.noteTail_kern (c : Chip) (out tc len : Nat) : (c.noteTail out tc len).kern = c.kern := by
  unfold Chip.noteTail; split <;> simp
@[simp] theorem Chip.startPacket_kern (c : Chip) (w : Waiting) (capped : Bool) : (c.startPacket w capped).kern = c.kern := by
  unfold Chip.startPacket
  extract_lets tc len mark p w' c1 r1 c2 c3 sched c4 r4 c5
  have h1 : c1.kern = c.kern := by simp only [c1]; split <;> simp
  have h2 : c2.kern = c.kern := by simp only [c2]; split <;> exact h1
  have h4 : c4.kern = c.kern := by simpa [c4, c3] using h2
  have h5 : c5.kern = c.kern := (Chip.refreshOut_kern ..).trans h4
  split
  · simpa using h4
  · split <;> simpa using h5
@[simp] theorem Chip.outputStart_kern (c : Chip) (out : Nat) (z0 : Nat) : (c.outputStart out z0).kern = c.kern := by
  induction z0 generalizing c with
  | zero => rfl
  | succ n ih =>
    unfold Chip.outputStart
    split
    · rfl
    · dsimp only; split <;> rename_i e <;> have h := pair_kern e (Chip.select_kern ..) <;> simp at h
      · simp [h]
      · split
        · rw [ih]; simp [h]
        · split
          · rw [ih]; simp [h]
          · simp [h]
@[simp] theorem Chip.hintSend_kern (c : Chip) (port : Nat) : (c.hintSend port).kern = c.kern := by
  unfold Chip.hintSend; split <;> simp
@[simp] theorem Chip.hintReceive_kern (c : Chip) (port : Nat) (item : List Byte) : (c.hintReceive port item).kern = c.kern := by
  simp [Chip.hintReceive, apply_ite Chip.kern]
@[simp] theorem Chip.hintStale_kern (c : Chip) (port : Nat) : (c.hintStale port).kern = c.kern := by
  unfold Chip.hintStale; (repeat' split) <;> simp
@[simp] theorem Chip.tokenTick_kern (c : Chip) (ticks : Nat) : (c.tokenTick ticks).kern = c.kern := by
  unfold Chip.tokenTick
  repeat' first | (simp; done) | (dsimp only; split) | split | (rw [foldl_kern] <;> intros) | (have hk := congrArg (fun r => r.1.kern) ‹_ = (_, _)›; simp_all; done) | (simp_all; done)
@[simp] theorem Chip.reclock_kern (c : Chip) (out : Nat) : (c.reclock out).kern = c.kern := by unfold Chip.reclock; split <;> simp
@[simp] theorem Chip.countOverruns_kern (c : Chip) (out : Nat) (g : Gate) : (c.countOverruns out g).kern = c.kern := by
  simp [Chip.countOverruns]
@[simp] theorem Chip.setGate_kern (c : Chip) (out : Nat) (g : Gate) : (c.setGate out g).kern = c.kern := by simp [Chip.setGate]
@[simp] theorem Chip.gateEntryChange_kern (c : Chip) (out : Nat) : (c.gateEntryChange out).kern = c.kern := by
  simp [Chip.gateEntryChange, apply_ite Chip.kern]
@[simp] theorem Chip.gateCommitted_kern (c : Chip) (out : Nat) : (c.gateCommitted out).kern = c.kern := by
  unfold Chip.gateCommitted; split <;> simp
@[simp] theorem Chip.gatesAtReset_kern (c : Chip) : (c.gatesAtReset).kern = c.kern := by simp [Chip.gatesAtReset, apply_ite Chip.kern]
@[simp] theorem Chip.gatesRetimed_kern (c : Chip) : (c.gatesRetimed).kern = c.kern := by simp [Chip.gatesRetimed, apply_ite Chip.kern]
@[simp] theorem Chip.stallPorts_kern (c : Chip) (unit : Nat) : (c.stallPorts unit).kern = c.kern := by
  unfold Chip.stallPorts; split <;> simp
@[simp] theorem Chip.reportFault_kern (c : Chip) (unit cause skind subject : Nat) :
    (c.reportFault unit cause skind subject).kern = c.kern := by simp [Chip.reportFault, apply_ite Chip.kern]
@[simp] theorem Chip.stall_kern (c : Chip) (unit : Nat) : (c.stall unit).kern = c.kern := by unfold Chip.stall; split <;> simp
@[simp] theorem Chip.clearStatus_kern (c : Chip) (unit cause v : Nat) : (c.clearStatus unit cause v).kern = c.kern := by
  simp [Chip.clearStatus]
@[simp] theorem Chip.sendRecord_kern (c : Chip) (dst : Nat) (l : List Word) : (c.sendRecord dst l).kern = c.kern := by
  simp [Chip.sendRecord]
@[simp] theorem Chip.recordOut_kern (c : Chip)  : (c.recordOut).kern = c.kern := by
  unfold Chip.recordOut
  repeat' first | (simp; done) | (dsimp only; split) | split | (rw [foldl_kern] <;> intros) | (have hk := congrArg (fun r => r.1.kern) ‹_ = (_, _)›; simp_all; done) | (simp_all; done)
@[simp] theorem Chip.closeRecords_kern (c : Chip) : (c.closeRecords).kern = c.kern := by unfold Chip.closeRecords; split <;> simp
@[simp] theorem Chip.restoreUnit_kern (c : Chip) (u : Nat) : (c.restoreUnit u).kern = c.kern := by simp [Chip.restoreUnit]
@[simp] theorem Chip.leaveReset_kern (c : Chip) (u : Nat) : (c.leaveReset u).kern = c.kern := by simp [Chip.leaveReset]
@[simp] theorem Chip.resetComplete_kern (c : Chip) (u : Nat) : (c.resetComplete u).kern = c.kern := by
  simp [Chip.resetComplete, apply_ite Chip.kern]
@[simp] theorem Chip.releaseUnit_wide (c : Chip) (u : Nat) : (c.releaseUnit u).kern.wide = c.kern.wide := by
  simp [Chip.releaseUnit, apply_ite (fun c : Chip => c.kern.wide)]
@[simp] theorem Chip.lanePattern_kern (c : Chip) (n : Nat) : (c.lanePattern n).kern = c.kern := by simp [Chip.lanePattern]
@[simp] theorem Chip.laneEqualise_kern (c : Chip) (n : Nat) : (c.laneEqualise n).kern = c.kern := by simp [Chip.laneEqualise]
@[simp] theorem Chip.testHeaders_kern (c : Chip) (n : Nat) (l : List Bool) : (c.testHeaders n l).kern = c.kern := by
  simp [Chip.testHeaders]
@[simp] theorem Chip.bitSlip_kern (c : Chip) (n k : Nat) : (c.bitSlip n k).1.kern = c.kern := by unfold Chip.bitSlip; split <;> simp
@[simp] theorem Chip.countCodeword_kern (c : Chip) (n errors : Nat) (blocks : List PortBlock) :
    (c.countCodeword n errors blocks).kern = c.kern := by unfold Chip.countCodeword; split <;> simp
@[simp] theorem Chip.elasticFill_kern (c : Chip) (n : Nat) (fill : Int) (filler : Bool) :
    (c.elasticFill n fill filler).1.kern = c.kern := by unfold Chip.elasticFill; split <;> simp
@[simp] theorem Chip.takeCodeword_kern (c : Chip) (n : Nat) (blocks : List PortBlock) (h : Nat) :
    (c.takeCodeword n blocks h).kern = c.kern := by simp [Chip.takeCodeword]
@[simp] theorem Chip.codewordDecode_kern (c : Chip) (n errors : Nat) (blocks : List LaneBlock) (fill : Int) :
    (c.codewordDecode n errors blocks fill).kern = c.kern := by unfold Chip.codewordDecode; split <;> simp
@[simp] theorem Chip.lineFollows_kern (c : Chip) (n : Nat) : (c.lineFollows n).kern = c.kern := by
  unfold Chip.lineFollows; split <;> simp
@[simp] theorem Chip.checkerSync_kern (c : Chip) (n nbits : Nat) : (c.checkerSync n nbits).kern = c.kern := by
  unfold Chip.checkerSync; split <;> simp
@[simp] theorem Chip.checkerLoss_kern (c : Chip) (n nbits errors : Nat) : (c.checkerLoss n nbits errors).kern = c.kern := by
  simp [Chip.checkerLoss, apply_ite Chip.kern]
@[simp] theorem Chip.clearTests_wide (c : Chip) (p : Nat) : (c.clearTests p).kern.wide = c.kern.wide := by
  simp [Chip.clearTests, apply_ite (fun c : Chip => c.kern.wide)]
@[simp] theorem Chip.endSpoiled_kern (c : Chip) (port : Nat) (w : Waiting) (p : Packet) : (c.endSpoiled port w p).kern = c.kern := by
  simp [Chip.endSpoiled]
@[simp] theorem Chip.abandonProgress_kern (c : Chip) (port : Nat) (p : Packet) : (c.abandonProgress port p).kern = c.kern := by
  unfold Chip.abandonProgress
  rw [Chip.updRx_kern, foldl_kern]
  intros
  split <;> simp
@[simp] theorem Chip.completeProgress_kern (c : Chip) (port : Nat) (p : Packet) (pool : Bool) :
    (c.completeProgress port p pool).kern = c.kern := by simp [Chip.completeProgress, apply_ite Chip.kern]
@[simp] theorem Chip.framingLoss_kern (c : Chip) (port : Nat) : (c.framingLoss port).kern = c.kern := by
  simp [Chip.framingLoss, apply_ite Chip.kern]
@[simp] theorem Chip.bufferOverrun_kern (c : Chip) (port : Nat) (p : Packet) (pool : Bool) :
    (c.bufferOverrun port p pool).kern = c.kern := by simp [Chip.bufferOverrun]
@[simp] theorem Chip.acceptLsn_kern (c : Chip) (port : Nat) : (c.acceptLsn port).kern = c.kern := by simp [Chip.acceptLsn]
@[simp] theorem Chip.passOn_kern (c : Chip) (port : Nat) (p : Packet) (short pool : Bool) :
    (c.passOn port p short pool).kern = c.kern := by simp [Chip.passOn, apply_ite Chip.kern]
@[simp] theorem Chip.expectedPacket_kern (c : Chip) (port : Nat) (hdr : Word) (p : Packet) (crc right : BitVec 32) (bad : Bool) :
    (c.expectedPacket port hdr p crc right bad).kern = c.kern := by simp [Chip.expectedPacket, apply_ite Chip.kern]
@[simp] theorem Chip.linkPacket_kern (c : Chip) (port : Nat) (raw : List (Byte × Bool)) : (c.linkPacket port raw).kern = c.kern := by
  simp [Chip.linkPacket, apply_ite Chip.kern]
@[simp] theorem Chip.setStream_kern (c : Chip) (port : Nat) (l : List (Byte × Bool)) : (c.setStream port l).kern = c.kern := by
  simp [Chip.setStream]
@[simp] theorem Chip.takeStream_kern (c : Chip) (port : Nat) (z0 : Nat) : (c.takeStream port z0).kern = c.kern := by
  induction z0 generalizing c port <;> unfold Chip.takeStream <;> repeat' first | (simp; done) | (dsimp only; split) | split | (rw [foldl_kern] <;> intros) | (have hk := congrArg (fun r => r.1.kern) ‹_ = (_, _)›; simp_all; done) | (simp_all; done)
@[simp] theorem Chip.dataBlock_kern (c : Chip) (port : Nat) (b : PortBlock) : (c.dataBlock port b).kern = c.kern := by
  simp [Chip.dataBlock, apply_ite Chip.kern]
@[simp] theorem Chip.linkReceive_kern (c : Chip) (port : Nat) (l : List PortBlock) : (c.linkReceive port l).kern = c.kern := by
  simp [Chip.linkReceive]
@[simp] theorem Chip.linkReset_kern (c : Chip) (port : Nat) : (c.linkReset port).kern = c.kern := by
  simp [Chip.linkReset, apply_ite Chip.kern]
@[simp] theorem Chip.sendTrain_kern (c : Chip) (p l : Nat) (b : TrainBlock) : (c.sendTrain p l b).kern = c.kern := by
  simp [Chip.sendTrain]
@[simp] theorem Chip.sendBlocks_kern (c : Chip) (p mask tbtype : Nat) (body : List Byte) :
    (c.sendBlocks p mask tbtype body).kern = c.kern := by simp [Chip.sendBlocks]
@[simp] theorem Chip.sendSwitch_kern (c : Chip) (p mask : Nat) : (c.sendSwitch p mask).kern = c.kern := by simp [Chip.sendSwitch]
@[simp] theorem Chip.portEvent_kern (c : Chip) (p code : Nat) : (c.portEvent p code).kern = c.kern := by simp [Chip.portEvent]
@[simp] theorem Chip.retrainEventTimeout_kern (c : Chip) (p : Nat) : (c.retrainEventTimeout p).kern = c.kern := by
  unfold Chip.retrainEventTimeout
  repeat' first | (simp; done) | (dsimp only; split) | split | (rw [foldl_kern] <;> intros) | (have hk := congrArg (fun r => r.1.kern) ‹_ = (_, _)›; simp_all; done) | (simp_all; done)
@[simp] theorem Chip.leaveActive_kern (c : Chip) (p : Nat) : (c.leaveActive p).kern = c.kern := by simp [Chip.leaveActive]
@[simp] theorem Chip.huntAll_kern (c : Chip) (p : Nat) : (c.huntAll p).kern = c.kern := by simp [Chip.huntAll]
@[simp] theorem Chip.toDetect_kern (c : Chip) (p reason : Nat) : (c.toDetect p reason).kern = c.kern := by
  simp [Chip.toDetect, apply_ite Chip.kern]
@[simp] theorem Chip.toDisabled_kern (c : Chip) (p : Nat) (leavingJig : Bool) : (c.toDisabled p leavingJig).kern = c.kern := by
  simp [Chip.toDisabled, apply_ite Chip.kern]
@[simp] theorem Chip.fromDisabled_wide (c : Chip) (p : Nat) : (c.fromDisabled p).kern.wide = c.kern.wide := by simp [Chip.fromDisabled]
@[simp] theorem Chip.portsFollow_wide (c : Chip) (leavingJig : Bool) : (c.portsFollow leavingJig).kern.wide = c.kern.wide := by
  unfold Chip.portsFollow
  repeat' first | (simp; done) | (dsimp only; split) | split | (rw [foldl_wide] <;> intros) | (have hk := congrArg (fun r => r.1.kern.wide) ‹_ = (_, _)›; simp_all; done) | (simp_all; done)
@[simp] theorem Chip.toPattern_kern (c : Chip) (p found : Nat) : (c.toPattern p found).kern = c.kern := by simp [Chip.toPattern]
@[simp] theorem Chip.nextRequest_kern (c : Chip) (p l : Nat) : (c.nextRequest p l).kern = c.kern := by
  simp [Chip.nextRequest, apply_ite Chip.kern]
@[simp] theorem Chip.startEqualise_kern (c : Chip) (p mask : Nat) : (c.startEqualise p mask).kern = c.kern := by
  simp [Chip.startEqualise]
@[simp] theorem Chip.toEqualise_kern (c : Chip) (p : Nat) : (c.toEqualise p).kern = c.kern := by simp [Chip.toEqualise]
@[simp] theorem Chip.toCapabilities_kern (c : Chip) (p : Nat) : (c.toCapabilities p).kern = c.kern := by simp [Chip.toCapabilities]
@[simp] theorem Chip.activeEvent_kern (c : Chip) (p : Nat) (t : Port) : (c.activeEvent p t).kern = c.kern := by
  simp [Chip.activeEvent, apply_ite Chip.kern]
@[simp] theorem Chip.toActive_kern (c : Chip) (p : Nat) : (c.toActive p).kern = c.kern := by simp [Chip.toActive]
@[simp] theorem Chip.withLanes_kern (c : Chip) (p lanes : Nat) : (c.withLanes p lanes).kern = c.kern := by
  simp [Chip.withLanes, apply_ite Chip.kern]
@[simp] theorem Chip.sendMsg_kern (c : Chip) (p msg : Nat) (m : WidthMsg) : (c.sendMsg p msg m).kern = c.kern := by
  simp [Chip.sendMsg]
@[simp] theorem Chip.sendSwitches_kern (c : Chip) (p : Nat) (m : WidthMsg) : (c.sendSwitches p m).kern = c.kern := by
  simp [Chip.sendSwitches]
@[simp] theorem Chip.leaderSwitch_kern (c : Chip) (p : Nat) : (c.leaderSwitch p).kern = c.kern := by simp [Chip.leaderSwitch]
@[simp] theorem Chip.idleTo_kern (c : Chip) (p stage : Nat) : (c.idleTo p stage).kern = c.kern := by simp [Chip.idleTo]
@[simp] theorem Chip.startIdle_kern (c : Chip) (p : Nat) : (c.startIdle p).kern = c.kern := by simp [Chip.startIdle]
@[simp] theorem Chip.idleEval_kern (c : Chip) (p : Nat) : (c.idleEval p).kern = c.kern := by
  unfold Chip.idleEval
  repeat' first | (simp; done) | (dsimp only; split) | split | (rw [foldl_kern] <;> intros) | (have hk := congrArg (fun r => r.1.kern) ‹_ = (_, _)›; simp_all; done) | (simp_all; done)
@[simp] theorem Chip.trainEval_kern (c : Chip) (p : Nat) : (c.trainEval p).kern = c.kern := by
  unfold Chip.trainEval
  repeat' first | (simp; done) | (dsimp only; split) | split | (rw [foldl_kern] <;> intros) | (have hk := congrArg (fun r => r.1.kern) ‹_ = (_, _)›; simp_all; done) | (simp_all; done)
@[simp] theorem Chip.receiverDetect_kern (c : Chip) (p found : Nat) : (c.receiverDetect p found).kern = c.kern := by
  simp [Chip.receiverDetect, apply_ite Chip.kern]
@[simp] theorem Chip.takeCommon_kern (c : Chip) (p l : Nat) (b : TrainBlock) : (c.takeCommon p l b).kern = c.kern := by
  simp [Chip.takeCommon]
@[simp] theorem Chip.patternReceive_kern (c : Chip) (p l : Nat) (b : TrainBlock) : (c.patternReceive p l b).kern = c.kern := by
  simp [Chip.patternReceive, apply_ite Chip.kern]
@[simp] theorem Chip.otherBlock_kern (c : Chip) (p l tbtype : Nat) (b : TrainBlock) (f : Chip → Chip) (hf : ∀ c, (f c).kern = c.kern) :
    (c.otherBlock p l tbtype b f).kern = c.kern := by unfold Chip.otherBlock; (repeat' split) <;> simp_all
@[simp] theorem Chip.eqResponse_kern (c : Chip) (p l : Nat) (b : TrainBlock) : (c.eqResponse p l b).kern = c.kern := by
  unfold Chip.eqResponse
  apply Chip.otherBlock_kern
  intro c; dsimp only
  repeat' first | (simp; done) | split
@[simp] theorem Chip.mismatch_kern (c : Chip) (p : Nat) (cabling role : Bool) : (c.mismatch p cabling role).kern = c.kern := by
  simp [Chip.mismatch]
@[simp] theorem Chip.capabilities_kern (c : Chip) (p : Nat) (b : TrainBlock) (peerPassed : Bool) :
    (c.capabilities p b peerPassed).kern = c.kern := by simp [Chip.capabilities, apply_ite Chip.kern]
@[simp] theorem Chip.afterLoss_kern (c : Chip) (n : Nat) : (c.afterLoss n).kern = c.kern := by
  simp [Chip.afterLoss, apply_ite Chip.kern]
@[simp] theorem Chip.blockLock_kern (c : Chip) (n : Nat) (headers : List Bool) : (c.blockLock n headers).kern = c.kern := by
  simp [Chip.blockLock, apply_ite Chip.kern]
@[simp] theorem Chip.markerLock_kern (c : Chip) (n : Nat) (m : MarkerInfo) : (c.markerLock n m).kern = c.kern := by
  unfold Chip.markerLock; split <;> simp
@[simp] theorem Chip.lockLoss_kern (c : Chip) (n : Nat) (kind : LockKind) : (c.lockLoss n kind).kern = c.kern := by
  simp [Chip.lockLoss, apply_ite Chip.kern]
@[simp] theorem Chip.laneCodeword_kern (c : Chip) (n errors : Nat) (blocks : List LaneBlock) (fill : Int) :
    (c.laneCodeword n errors blocks fill).kern = c.kern := by simp [Chip.laneCodeword, apply_ite Chip.kern]
@[simp] theorem Chip.idleFails_kern (c : Chip) (p : Nat) : (c.idleFails p).kern = c.kern := by simp [Chip.idleFails]
@[simp] theorem Chip.lockTimeout_kern (c : Chip) (p : Nat) : (c.lockTimeout p).kern = c.kern := by
  simp [Chip.lockTimeout, apply_ite Chip.kern]
@[simp] theorem Chip.trainingTimeout_kern (c : Chip) (p : Nat) : (c.trainingTimeout p).kern = c.kern := by
  unfold Chip.trainingTimeout
  repeat' first | (simp; done) | (dsimp only; split) | split | (rw [foldl_kern] <;> intros) | (have hk := congrArg (fun r => r.1.kern) ‹_ = (_, _)›; simp_all; done) | (simp_all; done)
@[simp] theorem Chip.attemptWaitEnd_kern (c : Chip) (p : Nat) : (c.attemptWaitEnd p).kern = c.kern := by
  simp [Chip.attemptWaitEnd, apply_ite Chip.kern]
@[simp] theorem Chip.askWidth_kern (c : Chip) (p lanes : Nat) (degrade : Bool) : (c.askWidth p lanes degrade).kern = c.kern := by
  simp [Chip.askWidth, apply_ite Chip.kern]
@[simp] theorem Chip.portCommand_kern (c : Chip) (p code : Nat) : (c.portCommand p code).1.kern = c.kern := by
  unfold Chip.portCommand; (repeat' split) <;> simp
@[simp] theorem Chip.widthChanged_kern (c : Chip) (p lanes : Nat) (degrade : Bool) :
    (c.widthChanged p lanes degrade).kern = c.kern := by simp [Chip.widthChanged, apply_ite Chip.kern]
@[simp] theorem Chip.takeWreq_kern (c : Chip) (p : Nat) (m : WidthMsg) : (c.takeWreq p m).kern = c.kern := by
  simp [Chip.takeWreq, apply_ite Chip.kern]
@[simp] theorem Chip.takeWgrant_kern (c : Chip) (p : Nat) (m : WidthMsg) : (c.takeWgrant p m).kern = c.kern := by
  simp [Chip.takeWgrant, apply_ite Chip.kern]
@[simp] theorem Chip.takeWrefuse_kern (c : Chip) (p : Nat) (m : WidthMsg) : (c.takeWrefuse p m).kern = c.kern := by
  simp [Chip.takeWrefuse, apply_ite Chip.kern]
@[simp] theorem Chip.takeWswitch_kern (c : Chip) (p : Nat) (m : WidthMsg) : (c.takeWswitch p m).kern = c.kern := by
  simp [Chip.takeWswitch, apply_ite Chip.kern]
@[simp] theorem Chip.switchWhenIdle_kern (c : Chip) (p : Nat) : (c.switchWhenIdle p).kern = c.kern := by
  unfold Chip.switchWhenIdle
  repeat' first | (simp; done) | (dsimp only; split) | split | (rw [foldl_kern] <;> intros) | (have hk := congrArg (fun r => r.1.kern) ‹_ = (_, _)›; simp_all; done) | (simp_all; done)
@[simp] theorem Chip.takeRreq_kern (c : Chip) (p : Nat) (m : WidthMsg) : (c.takeRreq p m).kern = c.kern := by
  unfold Chip.takeRreq; split <;> simp
@[simp] theorem Chip.takeRack_kern (c : Chip) (p : Nat) (m : WidthMsg) : (c.takeRack p m).kern = c.kern := by
  simp [Chip.takeRack, apply_ite Chip.kern]
@[simp] theorem Chip.wreqTimeout_kern (c : Chip) (p : Nat) : (c.wreqTimeout p).kern = c.kern := by
  simp [Chip.wreqTimeout, apply_ite Chip.kern]
@[simp] theorem Chip.rackTimeout_kern (c : Chip) (p : Nat) : (c.rackTimeout p).kern = c.kern := by
  simp [Chip.rackTimeout, apply_ite Chip.kern]
@[simp] theorem Chip.wswitchTimeout_kern (c : Chip) (p : Nat) : (c.wswitchTimeout p).kern = c.kern := by
  unfold Chip.wswitchTimeout
  repeat' first | (simp; done) | (dsimp only; split) | split | (rw [foldl_kern] <;> intros) | (have hk := congrArg (fun r => r.1.kern) ‹_ = (_, _)›; simp_all; done) | (simp_all; done)
@[simp] theorem Chip.degrade_kern (c : Chip) (p : Nat) : (c.degrade p).kern = c.kern := by
  unfold Chip.degrade; (repeat' split) <;> simp
@[simp] theorem Chip.degradationWindow_kern (c : Chip) (p : Nat) : (c.degradationWindow p).kern = c.kern := by
  simp [Chip.degradationWindow, apply_ite Chip.kern]
@[simp] theorem Chip.restoreInterval_kern (c : Chip) (p : Nat) : (c.restoreInterval p).kern = c.kern := by
  unfold Chip.restoreInterval
  repeat' first | (simp; done) | (dsimp only; split) | split | (rw [foldl_kern] <;> intros) | (have hk := congrArg (fun r => r.1.kern) ‹_ = (_, _)›; simp_all; done) | (simp_all; done)
@[simp] theorem Chip.portSettings_wide (c : Chip)  : (c.portSettings).kern.wide = c.kern.wide := by
  unfold Chip.portSettings
  repeat' first | (simp; done) | (dsimp only; split) | split | (rw [foldl_wide] <;> intros) | (have hk := congrArg (fun r => r.1.kern.wide) ‹_ = (_, _)›; simp_all; done) | (simp_all; done)
@[simp] theorem Chip.heldAgain_kern (c : Chip)  : (c.heldAgain).kern = c.kern := by
  unfold Chip.heldAgain
  repeat' first | (simp; done) | (dsimp only; split) | split | (rw [foldl_kern] <;> intros) | (have hk := congrArg (fun r => r.1.kern) ‹_ = (_, _)›; simp_all; done) | (simp_all; done)
@[simp] theorem Chip.blockRetrain_kern (c : Chip) (p : Nat) : (c.blockRetrain p).kern = c.kern := by
  unfold Chip.blockRetrain; split <;> simp
@[simp] theorem Chip.regDone_kern (c : Chip) (fn addr result key : Nat) : (c.regDone fn addr result key).kern = c.kern := by
  simp [Chip.regDone]
@[simp] theorem Chip.regFails_kern (c : Chip) (fn addr result : Nat) : (c.regFails fn addr result).kern = c.kern := by
  simp [Chip.regFails]
@[simp] theorem Chip.popRegion_kern (c : Chip) (fn : Nat) : (c.popRegion fn).kern = c.kern := by simp [Chip.popRegion]
@[simp] theorem Chip.regBlockFails_kern (c : Chip) (fn : Nat) : (c.regBlockFails fn).kern = c.kern := by simp [Chip.regBlockFails]
@[simp] theorem Chip.regionCommand_kern (c : Chip) (fn addr : Nat) : (c.regionCommand fn addr).1.kern = c.kern := by
  unfold Chip.regionCommand; split <;> simp
@[simp] theorem Chip.registerComplete_kern (c : Chip) (fn : Nat) (block : Option RegBlock) (pages : Option (List Nat)) : (c.registerComplete fn block pages).kern = c.kern := by
  unfold Chip.registerComplete
  repeat' first | (simp; done) | (dsimp only; split) | split | (rw [foldl_kern] <;> intros) | (have hk := congrArg (fun r => r.1.kern) ‹_ = (_, _)›; simp_all; done) | (simp_all; done)
@[simp] theorem Chip.endKeyOffers_kern (c : Chip) (key : Nat) : (c.endKeyOffers key).kern = c.kern := by simp [Chip.endKeyOffers]
@[simp] theorem Chip.regionBad_kern (c : Chip) (i : Nat) : (c.regionBad i).kern = c.kern := by simp [Chip.regionBad]
@[simp] theorem Chip.deregister_kern (c : Chip) (fn : Nat) (block : Option RegBlock) : (c.deregister fn block).kern = c.kern := by
  unfold Chip.deregister
  repeat' first | (simp; done) | (dsimp only; split) | split | (rw [foldl_kern] <;> intros) | (have hk := congrArg (fun r => r.1.kern) ‹_ = (_, _)›; simp_all; done) | (simp_all; done)
@[simp] theorem Chip.deregisterComplete_kern (c : Chip) (fn : Nat) : (c.deregisterComplete fn).kern = c.kern := by
  unfold Chip.deregisterComplete; (repeat' split) <;> simp
@[simp] theorem Chip.atsInvalidate_kern (c : Chip) (fn addr len : Nat) : (c.atsInvalidate fn addr len).kern = c.kern := by
  simp [Chip.atsInvalidate]
@[simp] theorem Chip.atsComplete_kern (c : Chip) (fn : Nat) : (c.atsComplete fn).kern = c.kern := by
  unfold Chip.atsComplete; (repeat' split) <;> simp
@[simp] theorem Chip.updGroup_base (c : Chip) (g : Nat) (f : Group → Group) : (c.updGroup g f).kern.base = c.kern.base := by
  simp [Chip.updGroup]
@[simp] theorem Chip.updGroup_wide (c : Chip) (g : Nat) (f : Group → Group) : (c.updGroup g f).kern.wide = c.kern.wide :=
  Kern.wide_of_base (c.updGroup_base ..)
@[simp] theorem Chip.giveNewPlaces_kern (c : Chip) (z0 : List Nat) (z1 : List Nat) : (c.giveNewPlaces z0 z1).kern = c.kern := by
  induction z0 generalizing c z1 <;> unfold Chip.giveNewPlaces <;> repeat' first | (simp; done) | (dsimp only; split) | split | (rw [foldl_kern] <;> intros) | (have hk := congrArg (fun r => r.1.kern) ‹_ = (_, _)›; simp_all; done) | (simp_all; done)
@[simp] theorem Chip.nextExportGen_kern (c : Chip) (n : Nat) : (c.nextExportGen n).kern = c.kern := by simp [Chip.nextExportGen]
@[simp] theorem Chip.withdrawExport_wide (c : Chip) (size n : Nat) : (c.withdrawExport size n).kern.wide = c.kern.wide := by
  unfold Chip.withdrawExport
  extract_lets attr
  split
  · rw [Chip.endKeyOffers_kern, Chip.nextExportGen_kern, Chip.setParam_wide]
  · rfl
@[simp] theorem Chip.withdrawExports_wide (c : Chip) (size : Nat) (l : List Nat) : (c.withdrawExports size l).kern.wide = c.kern.wide := by
  simp [Chip.withdrawExports]
@[simp] theorem Chip.withdrawRanges_kern (c : Chip) (size : Nat) (l : List Nat) : (c.withdrawRanges size l).kern = c.kern := by
  simp [Chip.withdrawRanges]
@[simp] theorem Chip.withdraw_wide (c : Chip) : (c.withdraw).kern.wide = c.kern.wide := by simp [Chip.withdraw]
@[simp] theorem Chip.resize_base (c : Chip) (size : Nat) : (c.resize size).kern.base = c.kern.base := by
  simp [Chip.resize]
@[simp] theorem Chip.resize_wide (c : Chip) (size : Nat) : (c.resize size).kern.wide = c.kern.wide :=
  Kern.wide_of_base (c.resize_base ..)
@[simp] theorem Chip.migrate_base (c : Chip) (g : Nat) : (c.migrate g).kern.base = c.kern.base := by
  unfold Chip.migrate Chip.moveOut Chip.shrink
  rw [Chip.giveNewPlaces_kern, Chip.resize_base, Chip.updGroup_base]
@[simp] theorem Chip.migrate_wide (c : Chip) (g : Nat) : (c.migrate g).kern.wide = c.kern.wide :=
  Kern.wide_of_base (c.migrate_base ..)
@[simp] theorem Chip.beginRetire_wide (c : Chip) (g : Nat) : (c.beginRetire g).kern.wide = c.kern.wide := by
  unfold Chip.beginRetire
  split
  · rfl
  · rw [Chip.setCond_kern, Chip.withdraw_wide, Chip.migrate_wide]
@[simp] theorem Chip.retireGroup_wide (c : Chip) (g : Nat) : (c.retireGroup g).1.kern.wide = c.kern.wide := by
  unfold Chip.retireGroup; split <;> simp
@[simp] theorem Chip.groupFails_wide (c : Chip) (g : Nat) : (c.groupFails g).kern.wide = c.kern.wide := by
  unfold Chip.groupFails; split <;> simp
@[simp] theorem Chip.retirementComplete_base (c : Chip) (g : Nat) (poisoned : List Nat) : (c.retirementComplete g poisoned).kern.base = c.kern.base := by
  unfold Chip.retirementComplete; split <;> simp
@[simp] theorem Chip.retirementComplete_wide (c : Chip) (g : Nat) (poisoned : List Nat) : (c.retirementComplete g poisoned).kern.wide = c.kern.wide :=
  Kern.wide_of_base (c.retirementComplete_base ..)
@[simp] theorem Chip.autoRetire_wide (c : Chip) (g : Nat) : (c.autoRetire g).kern.wide = c.kern.wide := by
  simp [Chip.autoRetire, apply_ite (fun c : Chip => c.kern.wide)]
@[simp] theorem Chip.retireRuleChanged_wide (c : Chip) (old : Chip) : (c.retireRuleChanged old).kern.wide = c.kern.wide := by
  unfold Chip.retireRuleChanged; split <;> simp
@[simp] theorem Chip.correctedError_wide (c : Chip) (g a : Nat) : (c.correctedError g a).kern.wide = c.kern.wide := by
  simp [Chip.correctedError]
@[simp] theorem Chip.uncorrectableWord_kern (c : Chip) (g a : Nat) : (c.uncorrectableWord g a).kern = c.kern := by
  unfold Chip.uncorrectableWord; split <;> simp
@[simp] theorem Chip.patrolScrub_wide (c : Chip) (g a : Nat) (o : ScrubOutcome) : (c.patrolScrub g a o).kern.wide = c.kern.wide := by
  unfold Chip.patrolScrub; (repeat' split) <;> simp
@[simp] theorem Chip.exportChanged_kern (c : Chip) (old : Chip) : (c.exportChanged old).kern = c.kern := by
  unfold Chip.exportChanged
  repeat' first | (simp; done) | (dsimp only; split) | split | (rw [foldl_kern] <;> intros) | (have hk := congrArg (fun r => r.1.kern) ‹_ = (_, _)›; simp_all; done) | (simp_all; done)
@[simp] theorem Chip.cxlRead_kern (c : Chip) (h d : Nat) : (c.cxlRead h d).kern = c.kern := by
  unfold Chip.cxlRead; (repeat' split) <;> simp
@[simp] theorem Chip.takePosted_kern (c : Chip) (r : Posted) : (c.takePosted r).kern = c.kern := by simp [Chip.takePosted]
@[simp] theorem Chip.takeUnexp_kern (c : Chip) (k : Nat) (m : BitVec 32) : (c.takeUnexp k m).kern = c.kern := by
  simp [Chip.takeUnexp]
@[simp] theorem Chip.updCopies_kern (c : Chip) (k : Nat) (m : BitVec 32) (f : EagerCopy → EagerCopy) :
    (c.updCopies k m f).kern = c.kern := by simp [Chip.updCopies]
@[simp] theorem Chip.putMsg_kern (c : Chip) (k : Nat) (r : RxMsg) : (c.putMsg k r).kern = c.kern := by simp [Chip.putMsg]
@[simp] theorem Chip.updMsg_kern (c : Chip) (k : Nat) (m : BitVec 32) (f : RxMsg → RxMsg) : (c.updMsg k m f).kern = c.kern := by
  simp [Chip.updMsg]
@[simp] theorem Chip.completeRecv_kern (c : Chip) (h qn : Nat) (ctx : Option Nat) (status : Nat) (p : Completion) : (c.completeRecv h qn ctx status p).kern = c.kern := by
  unfold Chip.completeRecv
  repeat' first | (simp; done) | (dsimp only; split) | split | (rw [foldl_kern] <;> intros) | (have hk := congrArg (fun r => r.1.kern) ‹_ = (_, _)›; simp_all; done) | (simp_all; done)
@[simp] theorem Chip.sendClose_kern (c : Chip) (k fn id offset : Nat) (key : BitVec 32) :
    (c.sendClose k fn id offset key).kern = c.kern := by unfold Chip.sendClose; split <;> simp
@[simp] theorem Chip.endTOffer_kern (c : Chip) (t : TOffer) (status len : Nat) : (c.endTOffer t status len).kern = c.kern := by
  simp [Chip.endTOffer]
@[simp] theorem Chip.closeTOffer_kern (c : Chip) (t : TOffer) : (c.closeTOffer t).kern = c.kern := by simp [Chip.closeTOffer]
@[simp] theorem Chip.readTOffer_kern (c : Chip) (t : TOffer) : (c.readTOffer t).kern = c.kern := by
  unfold Chip.readTOffer
  repeat' first | (simp; done) | (dsimp only; split) | split | (rw [foldl_kern] <;> intros) | (have hk := congrArg (fun r => r.1.kern) ‹_ = (_, _)›; simp_all; done) | (simp_all; done)
@[simp] theorem Chip.beginTOffer_kern (c : Chip) (t : TOffer) : (c.beginTOffer t).kern = c.kern := by
  unfold Chip.beginTOffer; split <;> simp
@[simp] theorem Chip.deliverStored_kern (c : Chip) (u : Unexp) (qn : Nat) (e : Entry) : (c.deliverStored u qn e).kern = c.kern := by
  unfold Chip.deliverStored; split <;> simp
@[simp] theorem Chip.releaseMsg_kern (c : Chip) (u : Unexp) : (c.releaseMsg u).kern = c.kern := by
  unfold Chip.releaseMsg
  repeat' first | (simp; done) | (dsimp only; split) | split | (rw [foldl_kern] <;> intros) | (have hk := congrArg (fun r => r.1.kern) ‹_ = (_, _)›; simp_all; done) | (simp_all; done)
@[simp] theorem Chip.advanceQ_kern (c : Chip) (k : Nat) (z0 : Nat) : (c.advanceQ k z0).kern = c.kern := by
  induction z0 generalizing c k <;> unfold Chip.advanceQ <;> repeat' first | (simp; done) | (dsimp only; split) | split | (rw [foldl_kern] <;> intros) | (have hk := congrArg (fun r => r.1.kern) ‹_ = (_, _)›; simp_all; done) | (simp_all; done)
@[simp] theorem Chip.resolveMsg_kern (c : Chip) (k : Nat) (m : BitVec 32) : (c.resolveMsg k m).kern = c.kern := by
  unfold Chip.resolveMsg; (repeat' split) <;> simp
@[simp] theorem Chip.postTagged_kern (c : Chip) (ctx : Nat) (m : MCtx) (e : Entry) : (c.postTagged ctx m e).kern = c.kern := by
  unfold Chip.postTagged
  repeat' first | (simp; done) | (dsimp only; split) | split | (rw [foldl_kern] <;> intros) | (have hk := congrArg (fun r => r.1.kern) ‹_ = (_, _)›; simp_all; done) | (simp_all; done)
@[simp] theorem Chip.engineRecv_kern (c : Chip) (h qn : Nat) (e : Entry) : (c.engineRecv h qn e).kern = c.kern := by
  unfold Chip.engineRecv
  repeat' first | (simp; done) | (dsimp only; split) | split | (rw [foldl_kern] <;> intros) | (have hk := congrArg (fun r => r.1.kern) ‹_ = (_, _)›; simp_all; done) | (simp_all; done)
@[simp] theorem Chip.matchReadDone_kern (c : Chip) (ctx : Nat) : (c.matchReadDone ctx).kern = c.kern := by simp [Chip.matchReadDone]
@[simp] theorem Chip.abandonRecord_kern (c : Chip) (k : Nat) (m : BitVec 32) : (c.abandonRecord k m).kern = c.kern := by
  simp [Chip.abandonRecord]
@[simp] theorem Chip.discardUnexp_kern (c : Chip) (u : Unexp) : (c.discardUnexp u).kern = c.kern := by
  unfold Chip.discardUnexp; split <;> simp
@[simp] theorem Chip.unbind_kern (c : Chip) (ctx : Nat) : (c.unbind ctx).kern = c.kern := by unfold Chip.unbind; split <;> simp
@[simp] theorem Chip.matchLost_kern (c : Chip) (ctx : Nat) : (c.matchLost ctx).kern = c.kern := by
  unfold Chip.matchLost
  repeat' first | (simp; done) | (dsimp only; split) | split | (rw [foldl_kern] <;> intros) | (have hk := congrArg (fun r => r.1.kern) ‹_ = (_, _)›; simp_all; done) | (simp_all; done)
@[simp] theorem Chip.unbindQueue_kern (c : Chip) (h qn : Nat) : (c.unbindQueue h qn).kern = c.kern := by simp [Chip.unbindQueue]
@[simp] theorem Chip.keepMessages_kern (c : Chip) (k : Nat) : (c.keepMessages k).kern = c.kern := by simp [Chip.keepMessages]
@[simp] theorem Chip.syncMortise_kern (c : Chip) (k : Nat) (m : BitVec 32) : (c.syncMortise k m).kern = c.kern := by
  simp [Chip.syncMortise]
@[simp] theorem Chip.abandonMsg_kern (c : Chip) (k : Nat) (r : RxMsg) : (c.abandonMsg k r).kern = c.kern := by
  unfold Chip.abandonMsg; (repeat' split) <;> simp
@[simp] theorem Chip.bindCtx_kern (c : Chip) (fn qn mctx : Nat) : (c.bindCtx fn qn mctx).1.kern = c.kern := by
  unfold Chip.bindCtx
  repeat' first | (simp; done) | (dsimp only; split) | split | (rw [foldl_kern] <;> intros) | (have hk := congrArg (fun r => r.1.kern) ‹_ = (_, _)›; simp_all; done) | (simp_all; done)
@[simp] theorem Chip.unbindCtx_kern (c : Chip) (fn qn mctx : Nat) : (c.unbindCtx fn qn mctx).1.kern = c.kern := by
  unfold Chip.unbindCtx
  repeat' first | (simp; done) | (dsimp only; split) | split | (rw [foldl_kern] <;> intros) | (have hk := congrArg (fun r => r.1.kern) ‹_ = (_, _)›; simp_all; done) | (simp_all; done)
@[simp] theorem Chip.contextCommand_kern (c : Chip) (fn : Nat) (v : Nat) : (c.contextCommand fn v).1.kern = c.kern := by
  unfold Chip.contextCommand; split <;> simp
@[simp] theorem Chip.offerRecordFreed_kern (c : Chip) (id : Nat) : (c.offerRecordFreed id).kern = c.kern := by
  unfold Chip.offerRecordFreed; split <;> simp
@[simp] theorem Chip.answer_kern (c : Chip) (h : Nat) (p : Packet) (opcode status : Nat) (w1 : Word) (payload : List Byte) :
    (c.answer h p opcode status w1 payload).kern = c.kern := by simp [Chip.answer]
@[simp] theorem Chip.answerError_kern (c : Chip) (h : Nat) (p : Packet) (status : Nat) : (c.answerError h p status).kern = c.kern := by
  simp [Chip.answerError]
@[simp] theorem Chip.answerBusy_kern (c : Chip) (h : Nat) (p : Packet) : (c.answerBusy h p).kern = c.kern := by
  simp [Chip.answerBusy]
@[simp] theorem Chip.answerData_kern (c : Chip) (h : Nat) (p : Packet) (l : List Byte) : (c.answerData h p l).kern = c.kern := by
  simp [Chip.answerData]
@[simp] theorem Chip.answerAtomic_kern (c : Chip) (h : Nat) (p : Packet) (wide : Bool) (v : BitVec 128) :
    (c.answerAtomic h p wide v).kern = c.kern := by simp [Chip.answerAtomic]
@[simp] theorem Chip.sendAck_kern (c : Chip) (k : Nat) (x : Chan) (j : Nat) : (c.sendAck k x j).kern = c.kern := by
  simp [Chip.sendAck]
@[simp] theorem Chip.ackNow_kern (c : Chip) (k : Nat) : (c.ackNow k).kern = c.kern := by unfold Chip.ackNow; split <;> simp
@[simp] theorem Chip.refuseLater_kern (c : Chip) (k : Nat) (r : RxMsg) : (c.refuseLater k r).1.kern = c.kern := by
  unfold Chip.refuseLater; split <;> simp
@[simp] theorem Chip.hostAccess_kern (c : Chip) (h fn i off n : Nat) (p : Packet) : (c.hostAccess h fn i off n p).1.kern = c.kern := by
  unfold Chip.hostAccess
  repeat' first | (simp; done) | (rename_i e; simp [pair_kern e (Chip.translate_kern ..)]; done) | (rename_i e _; simp [pair_kern e (Chip.translate_kern ..)]; done) | (rename_i e _ _; simp [pair_kern e (Chip.translate_kern ..)]; done) | split | dsimp only
@[simp] theorem Chip.execRead_kern (c : Chip) (h : Nat) (p : Packet) : (c.execRead h p).1.kern = c.kern := by
  unfold Chip.execRead; (repeat' split) <;> simp
@[simp] theorem Chip.atomicDone_kern (c : Chip) (h k fn : Nat) (p : Packet) (prior : BitVec 128) :
    (c.atomicDone h k fn p prior).kern = c.kern := by simp [Chip.atomicDone]
@[simp] theorem Chip.plainMsg_kern (c : Chip) (k : Nat) (p : Packet) (status : Nat) : (c.plainMsg k p status).kern = c.kern := by
  simp [Chip.plainMsg]
@[simp] theorem Chip.deliverMsg_kern (c : Chip) (k : Nat) (r : RxMsg) : (c.deliverMsg k r).kern = c.kern := by
  unfold Chip.deliverMsg
  repeat' first | (simp; done) | (dsimp only; split) | split | (rw [foldl_kern] <;> intros) | (have hk := congrArg (fun r => r.1.kern) ‹_ = (_, _)›; simp_all; done) | (simp_all; done)
@[simp] theorem Chip.deliverMsgs_kern (c : Chip) (k : Nat) (z0 : Nat) : (c.deliverMsgs k z0).kern = c.kern := by
  induction z0 generalizing c k <;> unfold Chip.deliverMsgs <;> repeat' first | (simp; done) | (dsimp only; split) | split | (rw [foldl_kern] <;> intros) | (have hk := congrArg (fun r => r.1.kern) ‹_ = (_, _)›; simp_all; done) | (simp_all; done)
@[simp] theorem Chip.countAccepted_kern (c : Chip) (owners : List Nat) (n : Nat) : (c.countAccepted owners n).kern = c.kern := by
  unfold Chip.countAccepted; split <;> simp
@[simp] theorem Chip.wholeCopies_kern (c : Chip) (k : Nat) (m : BitVec 32) : (c.wholeCopies k m).kern = c.kern := by
  simp [Chip.wholeCopies]
@[simp] theorem Chip.duplicate_kern (c : Chip) (h k : Nat) (p : Packet) : (c.duplicate h k p).kern = c.kern := by
  unfold Chip.duplicate
  dsimp only
  split
  · split
    · simp
    · split <;> rename_i e <;> have h := pair_kern e (Chip.execRead_kern ..) <;> simp at h <;> simp [h]
  · repeat' first | (simp; done) | split
@[simp] theorem Chip.takeSync_kern (c : Chip) (k : Nat) (x : Chan) (p : Packet) : (c.takeSync k x p).kern = c.kern := by
  unfold Chip.takeSync
  simp only [Chip.ackNow_kern, Chip.updChan_kern, Chip.syncMortise_kern]
  rw [foldl_kern]
  intros; split <;> simp
@[simp] theorem Chip.park_kern (c : Chip) (h : Nat) (ctx : CtxKey) (p : Packet) : (c.park h ctx p).kern = c.kern := by
  unfold Chip.park; split <;> simp
@[simp] theorem Chip.useContexts_kern (c : Chip) (h k : Nat) (p : Packet) : (c.useContexts h k p).kern = c.kern := by
  simp [Chip.useContexts]
@[simp] theorem Chip.taken_kern (c : Chip) (p : Packet) : (c.taken p).kern = c.kern := by simp [Chip.taken]
@[simp] theorem Chip.refuseParked_kern (c : Chip) (ctx : CtxKey) : (c.refuseParked ctx).kern = c.kern := by simp [Chip.refuseParked]
@[simp] theorem Chip.contextLost_kern (c : Chip) (h qn : Nat) : (c.contextLost h qn).kern = c.kern := by
  unfold Chip.contextLost; (repeat' split) <;> simp
@[simp] theorem Chip.contextTimeout_kern (c : Chip) (h qn : Nat) : (c.contextTimeout h qn).kern = c.kern := by
  simp [Chip.contextTimeout, apply_ite Chip.kern]
@[simp] theorem Chip.hostReadEnded_kern (c : Chip) (id : Nat) (res : HostResult) : (c.hostReadEnded id res).kern = c.kern := by
  unfold Chip.hostReadEnded
  repeat' first | (simp; done) | (dsimp only; split) | split | (rw [foldl_kern] <;> intros) | (have hk := congrArg (fun r => r.1.kern) ‹_ = (_, _)›; simp_all; done) | (simp_all; done)
@[simp] theorem Chip.badResponse_kern (c : Chip) : (c.badResponse).kern = c.kern := by simp [Chip.badResponse]
@[simp] theorem Chip.updOut_kern (c : Chip) (k : Nat) (psn : BitVec 24) (f : OutPkt → OutPkt) : (c.updOut k psn f).kern = c.kern := by
  simp [Chip.updOut]
@[simp] theorem Chip.decideOp_kern (c : Chip) (k : Nat) (m : BitVec 32) (status : Nat) : (c.decideOp k m status).kern = c.kern := by
  simp [Chip.decideOp]
@[simp] theorem Chip.updOp_kern (c : Chip) (k : Nat) (m : BitVec 32) (f : SendOp → SendOp) : (c.updOp k m f).kern = c.kern := by
  simp [Chip.updOp]
@[simp] theorem Chip.hearResponse_kern (c : Chip) (p : Packet) : (c.hearResponse p).kern = c.kern := by
  unfold Chip.hearResponse; split <;> simp
@[simp] theorem Chip.takeResponse_kern (c : Chip) (h : Nat) (p : Packet) (f : Chip → Nat → Chan → Chip) (hf : ∀ c k x, (f c k x).kern = c.kern) : (c.takeResponse h p f).kern = c.kern := by
  unfold Chip.takeResponse
  repeat' first | (simp; done) | (dsimp only; split) | split | (rw [foldl_kern] <;> intros) | (have hk := congrArg (fun r => r.1.kern) ‹_ = (_, _)›; simp_all; done) | (simp_all; done)
@[simp] theorem Chip.takeAck_kern (c : Chip) (h : Nat) (p : Packet) : (c.takeAck h p).kern = c.kern := by
  simp [Chip.takeAck, apply_ite Chip.kern]
@[simp] theorem Chip.takeBusy_kern (c : Chip) (h : Nat) (p : Packet) : (c.takeBusy h p).kern = c.kern := by
  unfold Chip.takeBusy
  apply Chip.takeResponse_kern
  intros; repeat' first | (simp; done) | (dsimp only; split) | split
@[simp] theorem Chip.takeError_kern (c : Chip) (h : Nat) (p : Packet) : (c.takeError h p).kern = c.kern := by
  simp [Chip.takeError, apply_ite Chip.kern]
@[simp] theorem Chip.takeAtomicResult_kern (c : Chip) (h : Nat) (p : Packet) : (c.takeAtomicResult h p).kern = c.kern := by
  unfold Chip.takeAtomicResult
  apply Chip.takeResponse_kern
  intros; repeat' first | (simp; done) | (dsimp only; split) | split
@[simp] theorem Chip.sendAgain_kern (c : Chip) (ch : Nat) (x : Chan) (o : OutPkt) (n : Nat) : (c.sendAgain ch x o n).kern = c.kern := by
  simp [Chip.sendAgain, apply_ite Chip.kern]
@[simp] theorem Chip.retransmitTimeout_kern (c : Chip) (ch : Nat) (psn : BitVec 24) : (c.retransmitTimeout ch psn).kern = c.kern := by
  unfold Chip.retransmitTimeout; (repeat' split) <;> simp
@[simp] theorem Chip.busyResend_kern (c : Chip) (ch : Nat) (psn : BitVec 24) : (c.busyResend ch psn).kern = c.kern := by
  unfold Chip.busyResend; (repeat' split) <;> simp
@[simp] theorem Chip.ackDelay_kern (c : Chip) (ch : Nat) : (c.ackDelay ch).kern = c.kern := by
  unfold Chip.ackDelay; (repeat' split) <;> simp
@[simp] theorem Chip.errorExpiry_kern (c : Chip) (ch : Nat) : (c.errorExpiry ch).kern = c.kern := by
  unfold Chip.errorExpiry; (repeat' split) <;> simp
@[simp] theorem Chip.atomicBlockReturn_kern (c : Chip) (ch : Nat) : (c.atomicBlockReturn ch).kern = c.kern := by
  unfold Chip.atomicBlockReturn
  repeat' first | (simp; done) | (dsimp only; split) | split | (rw [foldl_kern] <;> intros) | (have hk := congrArg (fun r => r.1.kern) ‹_ = (_, _)›; simp_all; done) | (simp_all; done)
@[simp] theorem Chip.conReturns_kern (c : Chip) : (c.conReturns).kern = c.kern := by simp [Chip.conReturns]
@[simp] theorem Chip.sourceOf_kern (c : Chip) (fn : Nat) (e : Entry) (data : SourceData) : (c.sourceOf fn e data).1.kern = c.kern := by
  unfold Chip.sourceOf; (repeat' split) <;> simp
@[simp] theorem Chip.succeed_kern (c : Chip) (h : Nat) (o : SendOp) : (c.succeed h o).kern = c.kern := by simp [Chip.succeed]
@[simp] theorem Chip.startOffer_kern (c : Chip) (h : Nat) (q : Queue) (o : SendOp) (e : Entry) (off : Nat) :
    (c.startOffer h q o e off).kern = c.kern := by simp [Chip.startOffer]
@[simp] theorem Chip.startEntry_kern (c : Chip) (h qn pos : Nat) (q : Queue) (e : Entry) (data : SourceData) : (c.startEntry h qn pos q e data).kern = c.kern := by
  unfold Chip.startEntry
  dsimp only
  repeat' first | (simp; done) | (rename_i e; have h := pair_kern e (Chip.sourceOf_kern ..); simp [h]; done) | split
@[simp] theorem Chip.takeNative_kern (c : Chip) (h qn op : Nat) (e : Entry) (data : SourceData) :
    (c.takeNative h qn op e data).kern = c.kern := by unfold Chip.takeNative; (repeat' split) <;> simp
@[simp] theorem Chip.consumeVeneer_kern (c : Chip) (h qn : Nat) (q : Queue) (v : VEntry) :
    (c.consumeVeneer h qn q v).kern = c.kern := by simp [Chip.consumeVeneer]
@[simp] theorem Chip.takeVeneer_kern (c : Chip) (h qn op : Nat) (v : VEntry) (data : SourceData) : (c.takeVeneer h qn op v data).kern = c.kern := by
  unfold Chip.takeVeneer
  repeat' first | (simp; done) | (dsimp only; split) | split | (rw [foldl_kern] <;> intros) | (have hk := congrArg (fun r => r.1.kern) ‹_ = (_, _)›; simp_all; done) | (simp_all; done)
@[simp] theorem Chip.takeRecvEntry_kern (c : Chip) (h qn : Nat) (e : Entry) : (c.takeRecvEntry h qn e).kern = c.kern := by
  unfold Chip.takeRecvEntry; (repeat' split) <;> simp
@[simp] theorem Chip.takeTaggedRecv_kern (c : Chip) (h qn : Nat) (e : Entry) (deferred : Bool) : (c.takeTaggedRecv h qn e deferred).kern = c.kern := by
  unfold Chip.takeTaggedRecv
  repeat' first | (simp; done) | (dsimp only; split) | split | (rw [foldl_kern] <;> intros) | (have hk := congrArg (fun r => r.1.kern) ‹_ = (_, _)›; simp_all; done) | (simp_all; done)
@[simp] theorem Chip.takeMalformedEntry_kern (c : Chip) (h qn : Nat) (e : Entry) : (c.takeMalformedEntry h qn e).kern = c.kern := by
  unfold Chip.takeMalformedEntry; (repeat' split) <;> simp
@[simp] theorem Chip.takeHeld_kern (c : Chip) (h qn : Nat) (e : Entry) : (c.takeHeld h qn e).kern = c.kern := by
  unfold Chip.takeHeld; (repeat' split) <;> simp
@[simp] theorem Chip.unhold_kern (c : Chip) (r : HeldEnt) : (c.unhold r).kern = c.kern := by simp [Chip.unhold]
@[simp] theorem Chip.ctrAllocate_kern (c : Chip) (fn n : Nat) : (c.ctrAllocate fn n).1.kern = c.kern := by
  unfold Chip.ctrAllocate; split <;> simp
@[simp] theorem Chip.putCtr_kern (c : Chip) (n : Nat) (t : TCtr) : (c.putCtr n t).kern = c.kern := by simp [Chip.putCtr]
@[simp] theorem Chip.ctrFree_kern (c : Chip) (fn n : Nat) : (c.ctrFree fn n).1.kern = c.kern := by
  unfold Chip.ctrFree; split <;> simp
@[simp] theorem Chip.ctrConfigure_kern (c : Chip) (fn n arg : Nat) : (c.ctrConfigure fn n arg).1.kern = c.kern := by
  unfold Chip.ctrConfigure; (repeat' split) <;> simp
@[simp] theorem Chip.ctrSet_kern (c : Chip) (fn n arg : Nat) : (c.ctrSet fn n arg).1.kern = c.kern := by
  unfold Chip.ctrSet; split <;> simp
@[simp] theorem Chip.ctrAdd_kern (c : Chip) (fn n arg : Nat) : (c.ctrAdd fn n arg).1.kern = c.kern := by
  unfold Chip.ctrAdd; split <;> simp
@[simp] theorem Chip.ctrCommand_kern (c : Chip) (fn v : Nat) : (c.ctrCommand fn v).1.kern = c.kern := by
  unfold Chip.ctrCommand; split <;> simp
@[simp] theorem Chip.updColl_kern (c : Chip) (m : Nat) (s : BitVec 32) (f : COp → COp) : (c.updColl m s f).kern = c.kern := by
  simp [Chip.updColl]
@[simp] theorem Chip.openColl_kern (c : Chip) (m : Nat) (s : BitVec 32) (z0 : Nat) : (c.openColl m s z0).kern = c.kern := by
  induction z0 generalizing c m s <;> unfold Chip.openColl <;> repeat' first | (simp; done) | (dsimp only; split) | split | (rw [foldl_kern] <;> intros) | (have hk := congrArg (fun r => r.1.kern) ‹_ = (_, _)›; simp_all; done) | (simp_all; done)
@[simp] theorem Chip.beginColl_kern (c : Chip) (m : Nat) (s : BitVec 32) : (c.beginColl m s).kern = c.kern := by
  simp [Chip.beginColl]
@[simp] theorem Chip.sendTree_kern (c : Chip) (port : Nat) (up : Bool) (o : COp) (opcode flags seg pruned : Nat) (payload : List Byte) :
    (c.sendTree port up o opcode flags seg pruned payload).kern = c.kern := by simp [Chip.sendTree, apply_ite Chip.kern]
@[simp] theorem Chip.sendUp_kern (c : Chip) (o : COp) (opcode flags seg : Nat) (payload : List Byte) :
    (c.sendUp o opcode flags seg payload).kern = c.kern := by unfold Chip.sendUp; split <;> simp
@[simp] theorem Chip.sendDown_kern (c : Chip) (o : COp) (opcode flags seg pruned : Nat) (payload : List Byte) :
    (c.sendDown o opcode flags seg pruned payload).kern = c.kern := by simp [Chip.sendDown]
@[simp] theorem Chip.completePost_kern (c : Chip) (o : COp) (x : CPost) (status : Nat) : (c.completePost o x status).kern = c.kern := by
  simp [Chip.completePost, apply_ite Chip.kern]
@[simp] theorem Chip.flushPosts_kern (c : Chip) (m : Nat) (s : BitVec 32) : (c.flushPosts m s).kern = c.kern := by
  unfold Chip.flushPosts
  repeat' first | (simp; done) | (dsimp only; split) | split | (rw [foldl_kern] <;> intros) | (have hk := congrArg (fun r => r.1.kern) ‹_ = (_, _)›; simp_all; done) | (simp_all; done)
@[simp] theorem Chip.settleColl_kern (c : Chip) (m : Nat) : (c.settleColl m).kern = c.kern := by simp [Chip.settleColl]
@[simp] theorem Chip.recordAbort_kern (c : Chip) (o : COp) (status : Nat) : (c.recordAbort o status).kern = c.kern := by
  unfold Chip.recordAbort; split <;> simp
@[simp] theorem Chip.abortNow_kern (c : Chip) (m : Nat) (s : BitVec 32) (status : Nat) : (c.abortNow m s status).kern = c.kern := by
  unfold Chip.abortNow; (repeat' split) <;> simp
@[simp] theorem Chip.abortSelf_kern (c : Chip) (m : Nat) (s : BitVec 32) (status : Nat) : (c.abortSelf m s status).kern = c.kern := by
  unfold Chip.abortSelf; split <;> simp
@[simp] theorem Chip.abortFromChild_kern (c : Chip) (m : Nat) (s : BitVec 32) (status : Nat) : (c.abortFromChild m s status).kern = c.kern := by
  unfold Chip.abortFromChild
  repeat' first | (simp; done) | (dsimp only; split) | split | (rw [foldl_kern] <;> intros) | (have hk := congrArg (fun r => r.1.kern) ‹_ = (_, _)›; simp_all; done) | (simp_all; done)
@[simp] theorem Chip.abortFromParent_kern (c : Chip) (m : Nat) (s : BitVec 32) (status : Nat) :
    (c.abortFromParent m s status).kern = c.kern := by unfold Chip.abortFromParent; (repeat' split) <;> simp
@[simp] theorem Chip.collFences_kern (c : Chip) (m : Nat) (s : BitVec 32) : (c.collFences m s).kern = c.kern := by
  unfold Chip.collFences
  repeat' first | (simp; done) | (dsimp only; split) | split | (rw [foldl_kern] <;> intros) | (have hk := congrArg (fun r => r.1.kern) ‹_ = (_, _)›; simp_all; done) | (simp_all; done)
@[simp] theorem Chip.collContribute_kern (c : Chip) (m : Nat) (s : BitVec 32) : (c.collContribute m s).kern = c.kern := by
  unfold Chip.collContribute
  repeat' first | (simp; done) | (dsimp only; split) | split | (rw [foldl_kern] <;> intros) | (have hk := congrArg (fun r => r.1.kern) ‹_ = (_, _)›; simp_all; done) | (simp_all; done)
@[simp] theorem Chip.collArrive_kern (c : Chip) (m : Nat) (s : BitVec 32) : (c.collArrive m s).kern = c.kern := by
  unfold Chip.collArrive
  repeat' first | (simp; done) | (dsimp only; split) | split | (rw [foldl_kern] <;> intros) | (have hk := congrArg (fun r => r.1.kern) ‹_ = (_, _)›; simp_all; done) | (simp_all; done)
@[simp] theorem Chip.collDone_kern (c : Chip) (m : Nat) (s : BitVec 32) : (c.collDone m s).kern = c.kern := by
  unfold Chip.collDone
  repeat' first | (simp; done) | (dsimp only; split) | split | (rw [foldl_kern] <;> intros) | (have hk := congrArg (fun r => r.1.kern) ‹_ = (_, _)›; simp_all; done) | (simp_all; done)
@[simp] theorem Chip.collDecide_kern (c : Chip) (m : Nat) (s : BitVec 32) : (c.collDecide m s).kern = c.kern := by
  unfold Chip.collDecide
  repeat' first | (simp; done) | (dsimp only; split) | split | (rw [foldl_kern] <;> intros) | (have hk := congrArg (fun r => r.1.kern) ‹_ = (_, _)›; simp_all; done) | (simp_all; done)
@[simp] theorem Chip.operandOf_kern (c : Chip) (h fn : Nat) (e : Entry) (data : SourceData) : (c.operandOf h fn e data).1.kern = c.kern := by
  unfold Chip.operandOf
  repeat' first | (simp; done) | (dsimp only; split) | split | (rw [foldl_kern] <;> intros) | (have hk := congrArg (fun r => r.1.kern) ‹_ = (_, _)›; simp_all; done) | (simp_all; done)
@[simp] theorem Chip.dropAborts_kern (c : Chip) (m : Nat) : (c.dropAborts m).kern = c.kern := by simp [Chip.dropAborts]
@[simp] theorem Chip.dropStale_kern (c : Chip) (m : Nat) (s : BitVec 32) : (c.dropStale m s).kern = c.kern := by
  simp [Chip.dropStale]
@[simp] theorem Chip.takeTree_kern (c : Chip) (port : Nat) (p : Packet) : (c.takeTree port p).kern = c.kern := by
  simp [Chip.takeTree]
@[simp] theorem Chip.treeDiscard_kern (c : Chip) (m : Nat) (p : Packet) (mismatch : Bool) :
    (c.treeDiscard m p mismatch).kern = c.kern := by unfold Chip.treeDiscard; split <;> simp
@[simp] theorem Chip.admitTree_kern (c : Chip) (port : Nat) (p : Packet) : (c.admitTree port p).1.kern = c.kern := by
  unfold Chip.admitTree
  repeat' first | (simp; done) | (dsimp only; split) | split | (rw [foldl_kern] <;> intros) | (have hk := congrArg (fun r => r.1.kern) ‹_ = (_, _)›; simp_all; done) | (simp_all; done)
@[simp] theorem Chip.collectiveAbort_kern (c : Chip) (port : Nat) (p : Packet) : (c.collectiveAbort port p).kern = c.kern := by
  unfold Chip.collectiveAbort
  split
  · rfl
  · split <;> rename_i e <;> have h := pair_kern e (Chip.admitTree_kern ..)
    · exact h
    · dsimp only; split <;> simp [h]
@[simp] theorem Chip.sendSegment_kern (c : Chip) (o : COp) (seg : Nat) (g : CSeg) : (c.sendSegment o seg g).kern = c.kern := by
  unfold Chip.sendSegment; split <;> simp
@[simp] theorem Chip.collectiveTimeout_kern (c : Chip) (m : Nat) (s : BitVec 32) : (c.collectiveTimeout m s).kern = c.kern := by
  unfold Chip.collectiveTimeout
  repeat' first | (simp; done) | (dsimp only; split) | split | (rw [foldl_kern] <;> intros) | (have hk := congrArg (fun r => r.1.kern) ‹_ = (_, _)›; simp_all; done) | (simp_all; done)
@[simp] theorem Chip.collRowChanged_kern (c : Chip) (m : Nat) : (c.collRowChanged m).kern = c.kern := by
  simp [Chip.collRowChanged, apply_ite Chip.kern]
@[simp] theorem Chip.setWinStatus_kern (c : Chip) (fn slot bit : Nat) : (c.setWinStatus fn slot bit).kern = c.kern := by
  simp [Chip.setWinStatus]
@[simp] theorem Chip.keepLines_kern (c : Chip) (o : BrOp) : (c.keepLines o).kern = c.kern := by simp [Chip.keepLines]
@[simp] theorem Chip.winWriteError_kern (c : Chip) (o : BrOp) : (c.winWriteError o).kern = c.kern := by simp [Chip.winWriteError]
@[simp] theorem Chip.winOutcome_kern (c : Chip) (o : BrOp) (status : Nat) : (c.winOutcome o status).kern = c.kern := by
  unfold Chip.winOutcome; (repeat' split) <;> simp
@[simp] theorem Chip.dropBrOp_kern (c : Chip) (num : Nat) : (c.dropBrOp num).kern = c.kern := by simp [Chip.dropBrOp]
@[simp] theorem Chip.endBrOp_kern (c : Chip) (o : BrOp) (status : Nat) : (c.endBrOp o status).kern = c.kern := by
  simp [Chip.endBrOp, apply_ite Chip.kern]
@[simp] theorem Chip.startBrOp_kern (c : Chip) (o : BrOp) : (c.startBrOp o).kern = c.kern := by
  unfold Chip.startBrOp; (repeat' split) <;> simp
@[simp] theorem Chip.runBridge_kern (c : Chip)  : (c.runBridge).kern = c.kern := by
  unfold Chip.runBridge
  repeat' first | (simp; done) | (dsimp only; split) | split | (rw [foldl_kern] <;> intros) | (have hk := congrArg (fun r => r.1.kern) ‹_ = (_, _)›; simp_all; done) | (simp_all; done)
@[simp] theorem Chip.windowDone_kern (c : Chip) (num status : Nat) (result : BitVec 128) :
    (c.windowDone num status result).kern = c.kern := by unfold Chip.windowDone; split <;> simp
@[simp] theorem Chip.acceptBrOp_kern (c : Chip) (o : BrOp) : (c.acceptBrOp o).kern = c.kern := by simp [Chip.acceptBrOp]
@[simp] theorem Chip.sendMerge_kern (c : Chip) (h : Nat) : (c.sendMerge h).kern = c.kern := by unfold Chip.sendMerge; split <;> simp
@[simp] theorem Chip.mergeRun_kern (c : Chip) (fn : Nat) (w : Win) (r : Nat × List Byte) : (c.mergeRun fn w r).kern = c.kern := by
  unfold Chip.mergeRun
  repeat' first | (simp; done) | (dsimp only; split) | split | (rw [foldl_kern] <;> intros) | (have hk := congrArg (fun r => r.1.kern) ‹_ = (_, _)›; simp_all; done) | (simp_all; done)
@[simp] theorem Chip.dropOverlapped_kern (c : Chip) (h ep : Nat) (key : BitVec 32) (runs : List (Nat × List Byte)) :
    (c.dropOverlapped h ep key runs).kern = c.kern := by simp [Chip.dropOverlapped]
@[simp] theorem Chip.bar4Write_kern (c : Chip) (fn off : Nat) (l : List Byte) : (c.bar4Write fn off l).kern = c.kern := by
  unfold Chip.bar4Write
  repeat' first | (simp; done) | (dsimp only; split) | split | (rw [foldl_kern] <;> intros) | (have hk := congrArg (fun r => r.1.kern) ‹_ = (_, _)›; simp_all; done) | (simp_all; done)
@[simp] theorem Chip.addPrefetch_kern (c : Chip) (fn : Nat) (w : Win) (last : Nat) : (c.addPrefetch fn w last).kern = c.kern := by
  simp [Chip.addPrefetch, apply_ite Chip.kern]
@[simp] theorem Chip.readWindow_kern (c : Chip) (fn id off len : Nat) : (c.readWindow fn id off len).kern = c.kern := by
  unfold Chip.readWindow
  repeat' first | (simp; done) | (dsimp only; split) | split | (rw [foldl_kern] <;> intros) | (have hk := congrArg (fun r => r.1.kern) ‹_ = (_, _)›; simp_all; done) | (simp_all; done)
@[simp] theorem Chip.atomicWindow_kern (c : Chip) (fn id off : Nat) (a : PcieAtomic) : (c.atomicWindow fn id off a).kern = c.kern := by
  unfold Chip.atomicWindow
  repeat' first | (simp; done) | (dsimp only; split) | split | (rw [foldl_kern] <;> intros) | (have hk := congrArg (fun r => r.1.kern) ‹_ = (_, _)›; simp_all; done) | (simp_all; done)
@[simp] theorem Chip.hostRequest_kern (c : Chip) (r : HostReq) : (c.hostRequest r).kern = c.kern := by
  unfold Chip.hostRequest; split <;> simp
@[simp] theorem Chip.takeHostRequest_kern (c : Chip) (r : HostReq) : (c.takeHostRequest r).kern = c.kern := by
  unfold Chip.takeHostRequest; split <;> simp
@[simp] theorem Chip.bar4Read_kern (c : Chip) (fn id off len : Nat) : (c.bar4Read fn id off len).kern = c.kern := by
  simp [Chip.bar4Read]
@[simp] theorem Chip.bar4Atomic_kern (c : Chip) (fn id off : Nat) (a : PcieAtomic) : (c.bar4Atomic fn id off a).kern = c.kern := by
  simp [Chip.bar4Atomic]
@[simp] theorem Chip.hostCredits_kern (c : Chip) : (c.hostCredits).kern = c.kern := by simp [Chip.hostCredits]
@[simp] theorem Chip.gatherExpiry_kern (c : Chip) (h : Nat) : (c.gatherExpiry h).kern = c.kern := by
  unfold Chip.gatherExpiry; (repeat' split) <;> simp
@[simp] theorem Chip.prefetchExpiry_kern (c : Chip) (h : Nat) : (c.prefetchExpiry h).kern = c.kern := by simp [Chip.prefetchExpiry]
@[simp] theorem Chip.bridgeTimeout_kern (c : Chip) (num : Nat) : (c.bridgeTimeout num).kern = c.kern := by
  unfold Chip.bridgeTimeout; (repeat' split) <;> simp
@[simp] theorem Chip.windowCleared_kern (c : Chip) (fn slot : Nat) : (c.windowCleared fn slot).kern = c.kern := by
  simp [Chip.windowCleared]
@[simp] theorem Chip.bridgeReset_kern (c : Chip) : (c.bridgeReset).kern = c.kern := by simp [Chip.bridgeReset, apply_ite Chip.kern]
@[simp] theorem Chip.matchDisable_kern (c : Chip) (fn : Nat) : (c.matchDisable fn).kern = c.kern := by simp [Chip.matchDisable]
@[simp] theorem Chip.releaseFn_wide (c : Chip) (fn : Nat) : (c.releaseFn fn).kern.wide = c.kern.wide := by simp [Chip.releaseFn]
@[simp] theorem Chip.fillPolicer_kern (c : Chip) (fn : Nat) : (c.fillPolicer fn).kern = c.kern := by simp [Chip.fillPolicer]
@[simp] theorem Chip.leaveQuiesce_kern (c : Chip) (fn : Nat) : (c.leaveQuiesce fn).kern = c.kern := by
  unfold Chip.leaveQuiesce; split <;> simp
@[simp] theorem Chip.quiesceFn_wide (c : Chip) (fn : Nat) : (c.quiesceFn fn).kern.wide = c.kern.wide := by
  unfold Chip.quiesceFn; split <;> simp
@[simp] theorem Chip.enableFn_kern (c : Chip) (fn : Nat) : (c.enableFn fn).kern = c.kern := by unfold Chip.enableFn; split <;> simp
@[simp] theorem Chip.readyFn_kern (c : Chip) (fn : Nat) : (c.readyFn fn).kern = c.kern := by unfold Chip.readyFn; split <;> simp
@[simp] theorem Chip.beginVf_kern (c : Chip) (fn : Nat) : (c.beginVf fn).kern = c.kern := by unfold Chip.beginVf; split <;> simp
@[simp] theorem Chip.vfSet_kern (c : Chip) (h numVfs : Nat) : (c.vfSet h numVfs).kern = c.kern := by
  simp [Chip.vfSet, apply_ite Chip.kern]
@[simp] theorem Chip.latchPort_kern (c : Chip) (h : Nat) : (c.latchPort h).kern = c.kern := by simp [Chip.latchPort]
@[simp] theorem Chip.clearWindows_wide (c : Chip) (h : Nat) : (c.clearWindows h).kern.wide = c.kern.wide := by simp [Chip.clearWindows]
@[simp] theorem Chip.checkRange_kern (c : Chip) (h : Nat) (base size : HostPort → Nat) (drop : HostPort → HostPort) :
    (c.checkRange h base size drop).kern = c.kern := by simp [Chip.checkRange, apply_ite Chip.kern]
@[simp] theorem Chip.checkRanges_kern (c : Chip) (h : Nat) : (c.checkRanges h).kern = c.kern := by simp [Chip.checkRanges]
@[simp] theorem Chip.hostDetect_kern (c : Chip) (h : Nat) : (c.hostDetect h).kern = c.kern := by simp [Chip.hostDetect]
@[simp] theorem Chip.perstDeassert_kern (c : Chip) (h : Nat) : (c.perstDeassert h).kern = c.kern := by
  simp [Chip.perstDeassert, apply_ite Chip.kern]
@[simp] theorem Chip.hostTrained_kern (c : Chip) (h width rate : Nat) (flit : Bool) :
    (c.hostTrained h width rate flit).kern = c.kern := by simp [Chip.hostTrained, apply_ite Chip.kern]
@[simp] theorem Chip.sendPending_kern (c : Chip) (fn : Nat) : (c.sendPending fn).kern = c.kern := by
  simp [Chip.sendPending, apply_ite Chip.kern]
@[simp] theorem Chip.unmask_kern (c : Chip) (fn v : Nat) : (c.unmask fn v).kern = c.kern := by unfold Chip.unmask; split <;> simp
@[simp] theorem Chip.mask_kern (c : Chip) (fn v : Nat) : (c.mask fn v).kern = c.kern := by unfold Chip.mask; split <;> simp
@[simp] theorem Chip.counterPage_kern (c : Chip) (fn off : Nat) (wide : Bool) : (c.counterPage fn off wide).kern = c.kern := by
  simp [Chip.counterPage, apply_ite Chip.kern]
@[simp] theorem Chip.updPeer_kern (c : Chip) (p : Nat) (f : Peer → Peer) : (c.updPeer p f).kern = c.kern := by simp [Chip.updPeer]
@[simp] theorem Chip.timeSend_kern (c : Chip) (p : Nat) : (c.timeSend p).kern = c.kern := by unfold Chip.timeSend; split <;> simp
@[simp] theorem Chip.lostCond_kern (c : Chip) (on : Bool) : (c.lostCond on).kern = c.kern := by simp [Chip.lostCond]
@[simp] theorem Chip.timeLost_kern (c : Chip) : (c.timeLost).kern = c.kern := by simp [Chip.timeLost]
@[simp] theorem Chip.timeStep_kern (c : Chip) (d : Int) : (c.timeStep d).kern = c.kern := by simp [Chip.timeStep]
@[simp] theorem Chip.setRate_kern (c : Chip) : (c.setRate).kern = c.kern := by simp [Chip.setRate]
@[simp] theorem Chip.halved_kern (c : Chip) (x : Int) : (c.halved x).1.kern = c.kern := by unfold Chip.halved; split <;> simp
@[simp] theorem Chip.follow_kern (c : Chip) (p : Nat) (i : TimeItem) : (c.follow p i).kern = c.kern := by simp [Chip.follow]
@[simp] theorem Chip.acquire_kern (c : Chip) (p : Nat) (i : TimeItem) : (c.acquire p i).kern = c.kern := by simp [Chip.acquire]
@[simp] theorem Chip.chooseParent_kern (c : Chip)  : (c.chooseParent).kern = c.kern := by
  unfold Chip.chooseParent
  repeat' first | (simp; done) | (dsimp only; split) | split | (rw [foldl_kern] <;> intros) | (have hk := congrArg (fun r => r.1.kern) ‹_ = (_, _)›; simp_all; done) | (simp_all; done)
@[simp] theorem Chip.thetaDelay_kern (c : Chip) (t1 t2 t3 t4 : Word) : (c.thetaDelay t1 t2 t3 t4).1.kern = c.kern := by
  simp [Chip.thetaDelay]
@[simp] theorem Chip.noteDelay_kern (c : Chip) (p : Nat) (d : Int) : (c.noteDelay p d).kern = c.kern := by simp [Chip.noteDelay]
@[simp] theorem Chip.takeTheta_kern (c : Chip) (theta : Int) : (c.takeTheta theta).kern = c.kern := by
  unfold Chip.takeTheta
  repeat' first | (simp; done) | (dsimp only; split) | split | (rw [foldl_kern] <;> intros) | (have hk := congrArg (fun r => r.1.kern) ‹_ = (_, _)›; simp_all; done) | (simp_all; done)
@[simp] theorem Chip.measure_kern (c : Chip) (p : Nat) (i : TimeItem) : (c.measure p i).kern = c.kern := by
  unfold Chip.measure
  repeat' first | (simp; done) | (dsimp only; split) | split | (rw [foldl_kern] <;> intros) | (have hk := congrArg (fun r => r.1.kern) ‹_ = (_, _)›; simp_all; done) | (simp_all; done)
@[simp] theorem Chip.timeReceive_kern (c : Chip) (p : Nat) (i : TimeItem) : (c.timeReceive p i).kern = c.kern := by
  simp [Chip.timeReceive, apply_ite Chip.kern]
@[simp] theorem Chip.parentTimeout_kern (c : Chip)  : (c.parentTimeout).kern = c.kern := by
  unfold Chip.parentTimeout
  repeat' first | (simp; done) | (dsimp only; split) | split | (rw [foldl_kern] <;> intros) | (have hk := congrArg (fun r => r.1.kern) ‹_ = (_, _)›; simp_all; done) | (simp_all; done)
@[simp] theorem Chip.timDown_kern (c : Chip) : (c.timDown).kern = c.kern := by unfold Chip.timDown; split <;> simp
@[simp] theorem Chip.timResume_kern (c : Chip) : (c.timResume).kern = c.kern := by simp [Chip.timResume]
@[simp] theorem Chip.holdoverExpiry_kern (c : Chip) : (c.holdoverExpiry).kern = c.kern := by
  unfold Chip.holdoverExpiry; split <;> simp
@[simp] theorem Chip.rootStep_kern (c : Chip) (d : Int) : (c.rootStep d).kern = c.kern := by simp [Chip.rootStep]
@[simp] theorem Chip.setTime_kern (c : Chip) (t : Word) : (c.setTime t).1.kern = c.kern := by unfold Chip.setTime; split <;> simp
@[simp] theorem Chip.rootSetting_kern (c : Chip) : (c.rootSetting).kern = c.kern := by simp [Chip.rootSetting, apply_ite Chip.kern]
@[simp] theorem Chip.ppsEdge_kern (c : Chip) : (c.ppsEdge).kern = c.kern := by simp [Chip.ppsEdge, apply_ite Chip.kern]
@[simp] theorem Chip.paceWindow_kern (c : Chip) (raw : List Int) : (c.paceWindow raw).kern = c.kern := by
  unfold Chip.paceWindow
  repeat' first | (simp; done) | (dsimp only; split) | split | (rw [foldl_kern] <;> intros) | (have hk := congrArg (fun r => r.1.kern) ‹_ = (_, _)›; simp_all; done) | (simp_all; done)
@[simp] theorem Chip.firstRequest_kern (c : Chip) : (c.firstRequest).kern = c.kern := by simp [Chip.firstRequest]
@[simp] theorem Chip.avsLoop_kern (c : Chip) : (c.avsLoop).kern = c.kern := by unfold Chip.avsLoop; (repeat' split) <;> simp
@[simp] theorem Chip.avsFailed_kern (c : Chip) : (c.avsFailed).kern = c.kern := by unfold Chip.avsFailed; split <;> simp
@[simp] theorem Chip.avsResponse_kern (c : Chip) (good : Bool) : (c.avsResponse good).kern = c.kern := by
  unfold Chip.avsResponse; (repeat' split) <;> simp
@[simp] theorem Chip.senseTemps_kern (c : Chip) (raw : List Int) : (c.senseTemps raw).kern = c.kern := by simp [Chip.senseTemps]
@[simp] theorem Chip.thermalRearm_kern (c : Chip) : (c.thermalRearm).kern = c.kern := by simp [Chip.thermalRearm, apply_ite Chip.kern]
@[simp] theorem Chip.thermalWarning_kern (c : Chip) (raw : List Int) : (c.thermalWarning raw).kern = c.kern := by
  unfold Chip.thermalWarning
  repeat' first | (simp; done) | (dsimp only; split) | split | (rw [foldl_kern] <;> intros) | (have hk := congrArg (fun r => r.1.kern) ‹_ = (_, _)›; simp_all; done) | (simp_all; done)
@[simp] theorem Chip.thermalClear_kern (c : Chip) (raw : List Int) : (c.thermalClear raw).kern = c.kern := by
  simp [Chip.thermalClear]
@[simp] theorem Chip.copyTo_kern (c : Chip) (a : Arrival) (out : Nat) : (c.copyTo a out).kern = c.kern := by
  unfold Chip.copyTo; split <;> simp
@[simp] theorem Chip.awaitApply_base (c : Chip) (row : Nat) (p : Packet) : (c.awaitApply row p).kern.base = c.kern.base := by
  unfold Chip.awaitApply; split <;> simp
@[simp] theorem Chip.awaitApply_wide (c : Chip) (row : Nat) (p : Packet) : (c.awaitApply row p).kern.wide = c.kern.wide :=
  Kern.wide_of_base (c.awaitApply_base ..)
@[simp] theorem Chip.spread_base (c : Chip) (a : Arrival) (row : Nat) : (c.spread a row).kern.base = c.kern.base := by
  simp [Chip.spread, apply_ite (fun c : Chip => c.kern.base)]
@[simp] theorem Chip.spread_wide (c : Chip) (a : Arrival) (row : Nat) : (c.spread a row).kern.wide = c.kern.wide :=
  Kern.wide_of_base (c.spread_base ..)
@[simp] theorem Chip.broadcastArrives_wide (c : Chip) (inp : Nat) (p : Packet) (kind : Nat) : (c.broadcastArrives inp p kind).kern.wide = c.kern.wide := by
  unfold Chip.broadcastArrives
  repeat' first | (simp; done) | (dsimp only; split) | split | (rw [foldl_wide] <;> intros) | (have hk := congrArg (fun r => r.1.kern.wide) ‹_ = (_, _)›; simp_all; done) | (simp_all; done)
@[simp] theorem Chip.fenceChans_kern (c : Chip) : (c.fenceChans).kern = c.kern := by simp [Chip.fenceChans, apply_ite Chip.kern]
@[simp] theorem Chip.unfenceChans_kern (c : Chip) : (c.unfenceChans).kern = c.kern := by simp [Chip.unfenceChans, apply_ite Chip.kern]
@[simp] theorem Chip.throttleDest_kern (c : Chip) (row : Nat) (p : Packet) (chip : Nat) :
    (c.throttleDest row p chip).kern = c.kern := by simp [Chip.throttleDest, apply_ite Chip.kern]
@[simp] theorem Chip.applyThrottle_kern (c : Chip) (row : Nat) (p : Packet) : (c.applyThrottle row p).kern = c.kern := by
  simp [Chip.applyThrottle]
@[simp] theorem Chip.throttleExpiry_kern (c : Chip) (chip : Nat) : (c.throttleExpiry chip).kern = c.kern := by
  unfold Chip.throttleExpiry; (repeat' split) <;> simp
@[simp] theorem Chip.resetRelease_wide (c : Chip) (grp : BitVec 10) (pos : BitVec 5) : (c.resetRelease grp pos).kern.wide = c.kern.wide := by
  simp [Chip.resetRelease, apply_ite (fun c : Chip => c.kern.wide)]
@[simp] theorem Chip.strapOverride_wide (c : Chip) (v : BitVec 32) : (c.strapOverride v).kern.wide = c.kern.wide := by
  unfold Chip.strapOverride; split <;> simp
@[simp] theorem Chip.bootLoad_wide (c : Chip) : (c.bootLoad).kern.wide = c.kern.wide := by simp [Chip.bootLoad, apply_ite (fun c : Chip => c.kern.wide)]
@[simp] theorem Chip.loadValue_wide (c : Chip) (n x : Nat) : (c.loadValue n x).kern.wide = c.kern.wide := by
  unfold Chip.loadValue; (repeat' split) <;> simp
@[simp] theorem Chip.loadBank_wide (c : Chip) : (c.loadBank).kern.wide = c.kern.wide := by unfold Chip.loadBank; split <;> simp
@[simp] theorem Chip.genericCal_wide (c : Chip)  : (c.genericCal).kern.wide = c.kern.wide := by
  unfold Chip.genericCal
  repeat' first | (simp; done) | (dsimp only; split) | split | (rw [foldl_wide] <;> intros) | (have hk := congrArg (fun r => r.1.kern.wide) ‹_ = (_, _)›; simp_all; done) | (simp_all; done)
@[simp] theorem Chip.loadCalibration_wide (c : Chip) : (c.loadCalibration).kern.wide = c.kern.wide := by
  unfold Chip.loadCalibration; split <;> simp
@[simp] theorem Chip.layOut_wide (c : Chip) : (c.layOut).kern.wide = c.kern.wide := by simp [Chip.layOut]
@[simp] theorem Chip.jigUp_wide (c : Chip) : (c.jigUp).kern.wide = c.kern.wide := by simp [Chip.jigUp, apply_ite (fun c : Chip => c.kern.wide)]
@[simp] theorem Chip.fullService_wide (c : Chip) : (c.fullService).kern.wide = c.kern.wide := by simp [Chip.fullService, apply_ite (fun c : Chip => c.kern.wide)]
@[simp] theorem Chip.unstage_wide (c : Chip) (s : Nat) : (c.unstage s).kern.wide = c.kern.wide := by simp [Chip.unstage]
@[simp] theorem Chip.mgtDown_wide (c : Chip) : (c.mgtDown).kern.wide = c.kern.wide := by simp [Chip.mgtDown]
@[simp] theorem Chip.clusterDown_wide (c : Chip) (i st : Nat) : (c.clusterDown i st).kern.wide = c.kern.wide := by
  simp [Chip.clusterDown, apply_ite (fun c : Chip => c.kern.wide)]
@[simp] theorem Chip.activateNext_wide (c : Chip) : (c.activateNext).kern.wide = c.kern.wide := by
  unfold Chip.activateNext; (repeat' split) <;> simp
@[simp] theorem Chip.restartCluster_wide (c : Chip) (unit : Nat) : (c.restartCluster unit).1.kern.wide = c.kern.wide := by
  unfold Chip.restartCluster; split <;> simp
@[simp] theorem Chip.unitReturns_kern (c : Chip) (u : Nat) : (c.unitReturns u).kern = c.kern := by
  unfold Chip.unitReturns; split <;> simp
@[simp] theorem Chip.unitRelease_wide (c : Chip) (u : Nat) : (c.unitRelease u).kern.wide = c.kern.wide := by simp [Chip.unitRelease]
@[simp] theorem Chip.update_wide (c : Chip) (st result : Nat) : (c.update st result).kern.wide = c.kern.wide := by simp [Chip.update]
@[simp] theorem Chip.beginUpdate_wide (c : Chip)  : (c.beginUpdate).1.kern.wide = c.kern.wide := by
  unfold Chip.beginUpdate
  repeat' first | (simp; done) | (dsimp only; split) | split | (rw [foldl_wide] <;> intros) | (have hk := congrArg (fun r => r.1.kern.wide) ‹_ = (_, _)›; simp_all; done) | (simp_all; done)
@[simp] theorem Chip.beginDone_wide (c : Chip) (ok : Bool) : (c.beginDone ok).kern.wide = c.kern.wide := by
  simp [Chip.beginDone, apply_ite (fun c : Chip => c.kern.wide)]
@[simp] theorem Chip.blockWrite_wide (c : Chip) (k : Nat) (l : List Byte) : (c.blockWrite k l).1.kern.wide = c.kern.wide := by
  unfold Chip.blockWrite; (repeat' split) <;> simp
@[simp] theorem Chip.blockDone_wide (c : Chip) (ok : Bool) : (c.blockDone ok).kern.wide = c.kern.wide := by
  unfold Chip.blockDone; (repeat' split) <;> simp
@[simp] theorem Chip.verifyUpdate_wide (c : Chip) : (c.verifyUpdate).1.kern.wide = c.kern.wide := by unfold Chip.verifyUpdate; split <;> simp
@[simp] theorem Chip.verifyDone_wide (c : Chip) : (c.verifyDone).kern.wide = c.kern.wide := by simp [Chip.verifyDone, apply_ite (fun c : Chip => c.kern.wide)]
@[simp] theorem Chip.switchSlot_wide (c : Chip) : (c.switchSlot).1.kern.wide = c.kern.wide := by
  unfold Chip.switchSlot; (repeat' split) <;> simp
@[simp] theorem Chip.switchDone_wide (c : Chip) (ok : Bool) : (c.switchDone ok).kern.wide = c.kern.wide := by
  unfold Chip.switchDone; (repeat' split) <;> simp
@[simp] theorem Chip.activate_wide (c : Chip) : (c.activate).1.kern.wide = c.kern.wide := by unfold Chip.activate; split <;> simp
@[simp] theorem Chip.ctlIndexWrite_kern (c : Chip) (fn : Nat) (cq : Bool) (off : Nat) (v : BitVec 32) :
    (c.ctlIndexWrite fn cq off v).kern = c.kern := by simp [Chip.ctlIndexWrite]
@[simp] theorem Chip.ctlSqStops_kern (c : Chip) (fn cause : Nat) : (c.ctlSqStops fn cause).kern = c.kern := by simp [Chip.ctlSqStops]
@[simp] theorem Chip.ctlSqFollows_kern (c : Chip) (fn : Nat) : (c.ctlSqFollows fn).kern = c.kern := by
  simp [Chip.ctlSqFollows, apply_ite Chip.kern]
@[simp] theorem Chip.ctlError_kern (c : Chip) (fn : Nat) (cq : Bool) (cause : Nat) : (c.ctlError fn cq cause).kern = c.kern := by
  simp [Chip.ctlError, apply_ite Chip.kern]
@[simp] theorem Chip.ctlCqe_kern (c : Chip) (fn : Nat) (p : Completion) : (c.ctlCqe fn p).kern = c.kern := by
  unfold Chip.ctlCqe
  repeat' first | (simp; done) | (dsimp only; split) | split | (rw [foldl_kern] <;> intros) | (have hk := congrArg (fun r => r.1.kern) ‹_ = (_, _)›; simp_all; done) | (simp_all; done)
@[simp] theorem Chip.ctlTakeBacklog_kern (c : Chip) (fn : Nat) (p : Completion) : (c.ctlTakeBacklog fn p).kern = c.kern := by
  unfold Chip.ctlTakeBacklog; split <;> simp
@[simp] theorem Chip.ctlComplete_kern (c : Chip) (fn : Nat) (p : Completion) : (c.ctlComplete fn p).kern = c.kern := by
  simp [Chip.ctlComplete, apply_ite Chip.kern]
@[simp] theorem Chip.ctlDone_kern (c : Chip) (fn : Nat) (e : Entry) (qn reason : Nat) : (c.ctlDone fn e qn reason).kern = c.kern := by
  simp [Chip.ctlDone]
@[simp] theorem Chip.ctlConsume_kern (c : Chip) (fn : Nat) : (c.ctlConsume fn).kern = c.kern := by simp [Chip.ctlConsume]
@[simp] theorem Chip.ctlStart_kern (c : Chip) (fn : Nat) (idx : CtlIndices) : (c.ctlStart fn idx).kern = c.kern := by
  simp [Chip.ctlStart, apply_ite Chip.kern]
@[simp] theorem Chip.ctlStop_kern (c : Chip) (fn : Nat) : (c.ctlStop fn).kern = c.kern := by simp [Chip.ctlStop]
@[simp] theorem Chip.ctlSetupWrite_wide (c : Chip) (fn v : Nat) (idx : CtlIndices) : (c.ctlSetupWrite fn v idx).1.kern.wide = c.kern.wide := by
  unfold Chip.ctlSetupWrite
  repeat' first | (simp; done) | (dsimp only; split) | split | (rw [foldl_wide] <;> intros) | (have hk := congrArg (fun r => r.1.kern.wide) ‹_ = (_, _)›; simp_all; done) | (simp_all; done)
@[simp] theorem Chip.drainBacklog_kern (c : Chip) (h cqn : Nat) (z0 : Nat) : (c.drainBacklog h cqn z0).kern = c.kern := by
  induction z0 generalizing c h cqn <;> unfold Chip.drainBacklog <;> repeat' first | (simp; done) | (dsimp only; split) | split | (rw [foldl_kern] <;> intros) | (have hk := congrArg (fun r => r.1.kern) ‹_ = (_, _)›; simp_all; done) | (simp_all; done)
@[simp] theorem Chip.takeCi_kern (c : Chip) (h qn : Nat) (q : Queue) (ci : BitVec 32) : (c.takeCi h qn q ci).kern = c.kern := by
  simp [Chip.takeCi, apply_ite Chip.kern]
@[simp] theorem Chip.backlogPoisoned_kern (c : Chip) (h cqn : Nat) (q : Queue) : (c.backlogPoisoned h cqn q).kern = c.kern := by
  simp [Chip.backlogPoisoned]
@[simp] theorem Chip.ctlDrain_kern (c : Chip) (fn : Nat) (z0 : Nat) : (c.ctlDrain fn z0).kern = c.kern := by
  induction z0 generalizing c fn <;> unfold Chip.ctlDrain <;> repeat' first | (simp; done) | (dsimp only; split) | split | (rw [foldl_kern] <;> intros) | (have hk := congrArg (fun r => r.1.kern) ‹_ = (_, _)›; simp_all; done) | (simp_all; done)
@[simp] theorem Chip.ctlBacklogDrain_kern (c : Chip) (fn : Nat) (ci : BitVec 32) (poisoned : Bool) :
    (c.ctlBacklogDrain fn ci poisoned).kern = c.kern := by simp [Chip.ctlBacklogDrain, apply_ite Chip.kern]
@[simp] theorem Chip.backlogDrain_kern (c : Chip) (fn cqn : Nat) (ci : BitVec 32) (poisoned : Bool) : (c.backlogDrain fn cqn ci poisoned).kern = c.kern := by
  unfold Chip.backlogDrain
  repeat' first | (simp; done) | (dsimp only; split) | split | (rw [foldl_kern] <;> intros) | (have hk := congrArg (fun r => r.1.kern) ‹_ = (_, _)›; simp_all; done) | (simp_all; done)
@[simp] theorem Chip.discardDoorbell_kern (c : Chip) (fn : Nat) : (c.discardDoorbell fn).kern = c.kern := by
  simp [Chip.discardDoorbell]
@[simp] theorem Chip.doorbell_kern (c : Chip) (fn off : Nat) (whole : Bool) (w : Word) (op : Nat) (f : Chip → Chip) (hf : ∀ c, (f c).kern = c.kern) :
    (c.doorbell fn off whole w op f).kern = c.kern := by unfold Chip.doorbell; (repeat' split) <;> simp_all
@[simp] theorem Chip.ringQueue_kern (c : Chip) (fn : Nat) (w : Word) (hinted : Bool) : (c.ringQueue fn w hinted).kern = c.kern := by
  unfold Chip.ringQueue; (repeat' split) <;> simp
@[simp] theorem Chip.invalidateQueue_kern (c : Chip) (fn : Nat) (w : Word) : (c.invalidateQueue fn w).kern = c.kern := by
  unfold Chip.invalidateQueue; (repeat' split) <;> simp
@[simp] theorem Chip.armQueue_kern (c : Chip) (fn : Nat) (w : Word) (idx : IndexRead) : (c.armQueue fn w idx).kern = c.kern := by
  unfold Chip.armQueue
  repeat' first | (simp; done) | (dsimp only; split) | split | (rw [foldl_kern] <;> intros) | (have hk := congrArg (fun r => r.1.kern) ‹_ = (_, _)›; simp_all; done) | (simp_all; done)
@[simp] theorem Chip.indexRead_kern (c : Chip) (fn qn : Nat) (idx : IndexRead) (fetched : List Entry) :
    (c.indexRead fn qn idx fetched).kern = c.kern := by unfold Chip.indexRead; (repeat' split) <;> simp
@[simp] theorem Chip.queueReadFails_kern (c : Chip) (fn qn : Nat) (what : QueueRead) : (c.queueReadFails fn qn what).kern = c.kern := by
  unfold Chip.queueReadFails; (repeat' split) <;> simp
@[simp] theorem Chip.checkIndices_kern (c : Chip) (h qn : Nat) (idx : IndexRead) : (c.checkIndices h qn idx).kern = c.kern := by
  unfold Chip.checkIndices
  repeat' first | (simp; done) | (dsimp only; split) | split | (rw [foldl_kern] <;> intros) | (have hk := congrArg (fun r => r.1.kern) ‹_ = (_, _)›; simp_all; done) | (simp_all; done)
@[simp] theorem Chip.createQueue_kern (c : Chip) (fn : Nat) (e : Entry) (qn : Nat) (idx : IndexRead) : (c.createQueue fn e qn idx).kern = c.kern := by
  unfold Chip.createQueue
  repeat' first | (simp; done) | (dsimp only; split) | split | (rw [foldl_kern] <;> intros) | (have hk := congrArg (fun r => r.1.kern) ‹_ = (_, _)›; simp_all; done) | (simp_all; done)
@[simp] theorem Chip.removeQueue_kern (c : Chip) (h qn : Nat) : (c.removeQueue h qn).kern = c.kern := by simp [Chip.removeQueue]
@[simp] theorem Chip.finishDestroy_kern (c : Chip) (h qn : Nat) : (c.finishDestroy h qn).kern = c.kern := by
  unfold Chip.finishDestroy; (repeat' split) <;> simp
@[simp] theorem Chip.finishDestroys_kern (c : Chip) : (c.finishDestroys).kern = c.kern := by simp [Chip.finishDestroys]
@[simp] theorem Chip.destroyQueue_kern (c : Chip) (fn : Nat) (e : Entry) : (c.destroyQueue fn e).kern = c.kern := by
  unfold Chip.destroyQueue
  repeat' first | (simp; done) | (dsimp only; split) | split | (rw [foldl_kern] <;> intros) | (have hk := congrArg (fun r => r.1.kern) ‹_ = (_, _)›; simp_all; done) | (simp_all; done)
@[simp] theorem Chip.resetQueue_kern (c : Chip) (fn : Nat) (e : Entry) (idx : IndexRead) : (c.resetQueue fn e idx).kern = c.kern := by
  unfold Chip.resetQueue
  repeat' first | (simp; done) | (dsimp only; split) | split | (rw [foldl_kern] <;> intros) | (have hk := congrArg (fun r => r.1.kern) ‹_ = (_, _)›; simp_all; done) | (simp_all; done)
@[simp] theorem Chip.engineReset_kern (c : Chip) (u : Nat) : (c.engineReset u).kern = c.kern := by simp [Chip.engineReset]
@[simp] theorem Chip.bridgeBlockReset_kern (c : Chip) : (c.bridgeBlockReset).kern = c.kern := by simp [Chip.bridgeBlockReset]
@[simp] theorem Chip.carriedEnd_kern (c : Chip) (o : SendOp) : (c.carriedEnd o).kern = c.kern := by
  unfold Chip.carriedEnd
  repeat' first | (simp; done) | (dsimp only; split) | split | (rw [foldl_kern] <;> intros) | (have hk := congrArg (fun r => r.1.kern) ‹_ = (_, _)›; simp_all; done) | (simp_all; done)
@[simp] theorem Chip.padIdle_kern (c : Chip) (p : Nat) : (c.padIdle p).kern = c.kern := by unfold Chip.padIdle; split <;> simp
@[simp] theorem Chip.finishLinks_kern (c : Chip) : (c.finishLinks).kern = c.kern := by simp [Chip.finishLinks]
@[simp] theorem Chip.effect10_wide (c : Chip) (old : Chip) : (c.effect10 old).kern.wide = c.kern.wide := by
  unfold Chip.effect10
  dsimp only
  rw [Chip.heldAgain_kern, foldl_wide]
  · split <;> simp
  · intros; repeat' first | (simp; done) | split
@[simp] theorem Chip.keepShapers_kern (c : Chip) (old : Chip) : (c.keepShapers old).kern = c.kern := by
  unfold Chip.keepShapers
  repeat' first | (simp; done) | (dsimp only; split) | split | (rw [foldl_kern] <;> intros) | (have hk := congrArg (fun r => r.1.kern) ‹_ = (_, _)›; simp_all; done) | (simp_all; done)
@[simp] theorem Chip.keepPolicers_kern (c : Chip) (old : Chip) : (c.keepPolicers old).kern = c.kern := by
  unfold Chip.keepPolicers
  repeat' first | (simp; done) | (dsimp only; split) | split | (rw [foldl_kern] <;> intros) | (have hk := congrArg (fun r => r.1.kern) ‹_ = (_, _)›; simp_all; done) | (simp_all; done)
@[simp] theorem Chip.gateFollow_kern (c : Chip) (old : Chip) (p : Nat) : (c.gateFollow old p).kern = c.kern := by
  unfold Chip.gateFollow; split <;> simp
@[simp] theorem Chip.gatesFollow_kern (c : Chip) (old : Chip) (l : List Nat) : (c.gatesFollow old l).kern = c.kern := by
  simp [Chip.gatesFollow]
@[simp] theorem Chip.effect1A_kern (c : Chip) (old : Chip) : (c.effect1A old).kern = c.kern := by
  unfold Chip.effect1A
  repeat' first | (simp; done) | (dsimp only; split) | split | (rw [foldl_kern] <;> intros) | (have hk := congrArg (fun r => r.1.kern) ‹_ = (_, _)›; simp_all; done) | (simp_all; done)
@[simp] theorem Chip.effect24_kern (c : Chip) (old : Chip) : (c.effect24 old).kern = c.kern := by
  unfold Chip.effect24
  repeat' first | (simp; done) | (dsimp only; split) | split | (rw [foldl_kern] <;> intros) | (have hk := congrArg (fun r => r.1.kern) ‹_ = (_, _)›; simp_all; done) | (simp_all; done)
@[simp] theorem Chip.setEffect_wide (c : Chip) (old : Chip) (s : Nat) : (c.setEffect old s).kern.wide = c.kern.wide := by
  unfold Chip.setEffect; (repeat' split) <;> simp
@[simp] theorem Chip.withStaged_wide (c : Chip) (s : Nat) : (c.withStaged s).kern.wide = c.kern.wide := by simp [Chip.withStaged]
@[simp] theorem Chip.takeEffect_wide (c : Chip) (s : Nat) : (c.takeEffect s).kern.wide = c.kern.wide := by simp [Chip.takeEffect]
@[simp] theorem Chip.putResult_wide (c : Chip) (s : Nat) (r : Word) : (c.putResult s r).kern.wide = c.kern.wide := by simp [Chip.putResult]
@[simp] theorem Chip.commitSet_wide (c : Chip) (s : Nat) (t : Word) : (c.commitSet s t).1.kern.wide = c.kern.wide := by
  unfold Chip.commitSet
  repeat' first | (simp; done) | (dsimp only; split) | split | (rw [foldl_wide] <;> intros) | (have hk := congrArg (fun r => r.1.kern.wide) ‹_ = (_, _)›; simp_all; done) | (simp_all; done)
@[simp] theorem Chip.stage_wide (c : Chip) (w : Writer) (s n x : Nat) : (c.stage w s n x).kern.wide = c.kern.wide := by simp [Chip.stage]
@[simp] theorem Chip.setDue_wide (c : Chip) (s : Nat) : (c.setDue s).kern.wide = c.kern.wide := by simp [Chip.setDue, apply_ite (fun c : Chip => c.kern.wide)]
@[simp] theorem Chip.holderTimeout_wide (c : Chip) (s : Nat) : (c.holderTimeout s).kern.wide = c.kern.wide := by
  simp [Chip.holderTimeout, apply_ite (fun c : Chip => c.kern.wide)]
@[simp] theorem Chip.saveStart_wide (c : Chip)  : (c.saveStart).1.kern.wide = c.kern.wide := by
  unfold Chip.saveStart
  repeat' first | (simp; done) | (dsimp only; split) | split | (rw [foldl_wide] <;> intros) | (have hk := congrArg (fun r => r.1.kern.wide) ‹_ = (_, _)›; simp_all; done) | (simp_all; done)
@[simp] theorem Chip.saveDone_wide (c : Chip) (ok : Bool) : (c.saveDone ok).kern.wide = c.kern.wide := by unfold Chip.saveDone; split <;> simp
@[simp] theorem Chip.calStore_wide (c : Chip)  : (c.calStore).1.kern.wide = c.kern.wide := by
  unfold Chip.calStore
  repeat' first | (simp; done) | (dsimp only; split) | split | (rw [foldl_wide] <;> intros) | (have hk := congrArg (fun r => r.1.kern.wide) ‹_ = (_, _)›; simp_all; done) | (simp_all; done)
@[simp] theorem Chip.calStored_wide (c : Chip) : (c.calStored).kern.wide = c.kern.wide := by unfold Chip.calStored; split <;> simp
@[simp] theorem Chip.calImageWrite_wide (c : Chip) (l : List Byte) : (c.calImageWrite l).1.kern.wide = c.kern.wide := by
  unfold Chip.calImageWrite; (repeat' split) <;> simp
@[simp] theorem Chip.dropFdpMctp_wide (c : Chip) : (c.dropFdpMctp).kern.wide = c.kern.wide := by simp [Chip.dropFdpMctp]
@[simp] theorem Chip.followUps_wide (c : Chip) (old : Chip) : (c.followUps old).kern.wide = c.kern.wide := by
  unfold Chip.followUps
  extract_lets c1 c2 c3 c4
  have h1 : c1.kern.wide = c.kern.wide := by
    show (List.foldl _ c _).kern.wide = _
    rw [foldl_wide]; intros; split <;> simp
  have h2 : c2.kern.wide = c.kern.wide := by
    show (if _ then _ else _ : Chip).kern.wide = _
    split
    · rw [Chip.dropFdpMctp_wide, h1]
    · exact h1
  rw [Chip.retireRuleChanged_wide]
  exact h2
@[simp] theorem Chip.restore_wide (c : Chip) (bank : Option Bank) : (c.restore bank).1.kern.wide = c.kern.wide := by
  unfold Chip.restore
  repeat' first | (simp; done) | (dsimp only; split) | split | (rw [foldl_wide] <;> intros) | (have hk := congrArg (fun r => r.1.kern.wide) ‹_ = (_, _)›; simp_all; done) | (simp_all; done)
@[simp] theorem Chip.freeIndices_kern (c : Chip) : (c.freeIndices).1.kern = c.kern := by simp [Chip.freeIndices]
@[simp] theorem Chip.updateCommand_wide (c : Chip) (x : Nat) : (c.updateCommand x).1.kern.wide = c.kern.wide := by
  unfold Chip.updateCommand; split <;> simp
@[simp] theorem Chip.command_wide (c : Chip) (area obj e x : Nat) (l : List Byte) : (c.command area obj e x l).1.kern.wide = c.kern.wide := by
  unfold Chip.command; (repeat' split) <;> simp
@[simp] theorem Chip.clearBits_kern (c : Chip) (area obj e x : Nat) : (c.clearBits area obj e x).kern = c.kern := by
  simp [Chip.clearBits, apply_ite Chip.kern]
@[simp] theorem Chip.checkerRestart_wide (c : Chip) (n x : Nat) : (c.checkerRestart n x).kern.wide = c.kern.wide := by
  unfold Chip.checkerRestart; split <;> simp
@[simp] theorem Chip.writeKey_wide (c : Chip) (l : List Byte) : (c.writeKey l).kern.wide = c.kern.wide := by simp [Chip.writeKey]
@[simp] theorem Chip.writeBlob_wide (c : Chip) (n : Nat) (l : List Byte) : (c.writeBlob n l).1.kern.wide = c.kern.wide := by
  unfold Chip.writeBlob; (repeat' split) <;> simp
@[simp] theorem Chip.dropHeld_wide (c : Chip) (p : Writer) : (c.dropHeld p).kern.wide = c.kern.wide := by simp [Chip.dropHeld]
@[simp] theorem Chip.chunkRules_wide (c : Chip) (p : Writer) (n : BitVec 32) (isWrite : Bool) (tag : Nat) :
    (c.chunkRules p n isWrite tag).kern.wide = c.kern.wide := by unfold Chip.chunkRules; (repeat' split) <;> simp
@[simp] theorem Chip.holdChunk_wide (c : Chip) (p : Writer) (n : BitVec 32) (off : Nat) (l : List Byte) (tag vlen : Nat) :
    (c.holdChunk p n off l tag vlen).kern.wide = c.kern.wide := by simp [Chip.holdChunk]
@[simp] theorem Chip.chunkExpiry_wide (c : Chip) (p : Writer) : (c.chunkExpiry p).kern.wide = c.kern.wide := by
  unfold Chip.chunkExpiry; (repeat' split) <;> simp
@[simp] theorem Chip.updMailbox_die (c : Chip) (h : Nat) (f : Mailbox → Mailbox) : (c.updMailbox h f).kern.wide.die = c.kern.wide.die := by
  simp [Chip.updMailbox]
@[simp] theorem Chip.mbxDone_die (c : Chip) (h : Nat) (a : Answer) : (c.mbxDone h a).kern.wide.die = c.kern.wide.die := by
  simp [Chip.mbxDone, apply_ite (fun c : Chip => c.kern.wide.die)]
@[simp] theorem Chip.mbxTake_die (c : Chip) (h op : Nat) (relay : Bool) (vf : Nat) (n : BitVec 32) :
    (c.mbxTake h op relay vf n).kern.wide.die = c.kern.wide.die := by simp [Chip.mbxTake]
@[simp] theorem Chip.mbxCollide_die (c : Chip) (h : Nat) : (c.mbxCollide h).kern.wide.die = c.kern.wide.die := by
  unfold Chip.mbxCollide; split <;> simp
@[simp] theorem Chip.mctpAnswer_kern (c : Chip) (r : OpRecord) (status : Nat) (data : List Byte) :
    (c.mctpAnswer r status data).kern = c.kern := by simp [Chip.mctpAnswer]
@[simp] theorem Chip.assignAddress_wide (c : Chip) (addr : Nat) : (c.assignAddress addr).kern.wide = c.kern.wide := by
  unfold Chip.assignAddress; split <;> simp
@[simp] theorem Chip.shimAnswer_kern (c : Chip) (p : Packet) (l : List Word) : (c.shimAnswer p l).kern = c.kern := by
  simp [Chip.shimAnswer]
@[simp] theorem Chip.shimKeep_wide (c : Chip) (p : Packet) (l : List Word) : (c.shimKeep p l).kern.wide = c.kern.wide := by
  simp [Chip.shimKeep]
@[simp] theorem Chip.unserved_wide (c : Chip) (w : Writer) : (c.unserved w).kern.wide = c.kern.wide := by
  unfold Chip.unserved; (repeat' split) <;> simp
@[simp] theorem Chip.bar0Read_kern (c : Chip) (fn off : Nat) (wide : Bool) : (c.bar0Read fn off wide).kern = c.kern := by
  unfold Chip.bar0Read; (repeat' split) <;> simp
@[simp] theorem Chip.barRead_kern (c : Chip) (fn : Nat) (access : BarRead) : (c.barRead fn access).kern = c.kern := by
  unfold Chip.barRead; (repeat' split) <;> simp
@[simp] theorem Chip.fifoRegWrite_kern (c : Chip) (h : Nat) (b : FifoBlock) (reg off : Nat) (wide : Bool) (v : Word) :
    (c.fifoRegWrite h b reg off wide v).kern = c.kern := by unfold Chip.fifoRegWrite; (repeat' split) <;> simp
@[simp] theorem Chip.fifoWrite_kern (c : Chip) (h off : Nat) (wide : Bool) (v : Word) : (c.fifoWrite h off wide v).kern = c.kern := by
  simp [Chip.fifoWrite]
@[simp] theorem Chip.eventWrite_kern (c : Chip) (fn off : Nat) (wide : Bool) (v : Word) : (c.eventWrite fn off wide v).kern = c.kern := by
  unfold Chip.eventWrite
  repeat' first | (simp; done) | (dsimp only; split) | split | (rw [foldl_kern] <;> intros) | (have hk := congrArg (fun r => r.1.kern) ‹_ = (_, _)›; simp_all; done) | (simp_all; done)
@[simp] theorem Chip.msixWrite_kern (c : Chip) (fn off : Nat) (wide : Bool) (v : Word) : (c.msixWrite fn off wide v).kern = c.kern := by
  simp [Chip.msixWrite, apply_ite Chip.kern]
@[simp] theorem Chip.configWrite_kern (c : Chip) (fn : Nat) (b : CfgBit) (w : Word) : (c.configWrite fn b w).kern = c.kern := by
  unfold Chip.configWrite; split <;> simp
@[simp] theorem Chip.earlyWrite_kern (c : Chip) (fn : Nat) (reg : HostReg) : (c.earlyWrite fn reg).kern = c.kern := by
  unfold Chip.earlyWrite; (repeat' split) <;> simp
@[simp] theorem Chip.heldReadFails_kern (c : Chip) (fn slot : Nat) : (c.heldReadFails fn slot).kern = c.kern := by
  unfold Chip.heldReadFails; split <;> simp
theorem ite_kern (p : Prop) [Decidable p] (a b : Chip) : (if p then a else b).kern = if p then a.kern else b.kern := by
  split <;> rfl


theorem foldl_fst_kern {α β : Type} {g : Chip × β → α → Chip × β} (hg : ∀ r a, (g r a).1.kern = r.1.kern) (l : List α) (r : Chip × β) :
    (l.foldl g r).1.kern = r.1.kern := by
  induction l generalizing r with
  | nil => rfl
  | cons a l ih => rw [List.foldl_cons, ih, hg]

theorem Chip.takeRecv_kern {c d : Chip} {h dqn : Nat} {e : Entry} (he : c.takeRecv h dqn = some (d, e)) : d.kern = c.kern := by
  unfold Chip.takeRecv at he
  repeat' first | contradiction | (injection he with he; injection he with he1 he2; rw [← he1]; done) | (injection he with he; injection he with he1 he2; rw [← he1]; simp; done) | split at he
@[simp] theorem Chip.hbmWrite_kern (c : Chip) (a : Nat) (l : List Byte) : (c.hbmWrite a l).kern = c.kern := by
  simp [Chip.hbmWrite, Mem.write]
@[simp] theorem Chip.place_kern (c : Chip) (k : KeyCheck) (l : List Byte) (bad : Nat) : (c.place k l bad).1.kern = c.kern := by
  unfold Chip.place
  split
  · rfl
  · split
    · rfl
    · split <;> rename_i e <;> simp [pair_kern e (Chip.translate_kern ..)]
  · exact Chip.hbmWrite_kern ..
@[simp] theorem Chip.eqRequest_kern (c : Chip) (p l : Nat) (b : TrainBlock) : (c.eqRequest p l b).kern = c.kern := by
  simp [Chip.eqRequest, apply_ite Chip.kern]
@[simp] theorem Chip.cxlBytes_kern (c : Chip) (o : Nat) (l : List (Option Byte)) : (c.cxlBytes o l).kern = c.kern := by
  unfold Chip.cxlBytes
  repeat' first | (simp; done) | (dsimp only; split) | split | (rw [foldl_kern] <;> intros) | (have hk := congrArg (fun r => r.1.kern) ‹_ = (_, _)›; simp_all; done) | (simp_all; done)
@[simp] theorem Chip.cxlWrite_kern (c : Chip) (h d : Nat) (l : List (Option Byte)) : (c.cxlWrite h d l).kern = c.kern := by
  unfold Chip.cxlWrite
  repeat' first | (simp; done) | (dsimp only; split) | split | (rw [foldl_kern] <;> intros) | (have hk := congrArg (fun r => r.1.kern) ‹_ = (_, _)›; simp_all; done) | (simp_all; done)
@[simp] theorem Chip.copyComplete_kern (c : Chip) (id : Nat) (poisoned : Bool) : (c.copyComplete id poisoned).kern = c.kern := by
  unfold Chip.copyComplete
  split
  · rfl
  · split
    · rfl
    · dsimp only
      simp only [Chip.completeRecv_kern, apply_ite Chip.kern, Chip.poisonDevice_kern, ite_self]
      refine (foldl_fst_kern (fun r a => ?_) ..).trans rfl
      split <;> simp
@[simp] theorem Chip.placeRecv_kern (c : Chip) (fn : Nat) (e : Entry) (i : Nat) (l : List Byte) : (c.placeRecv fn e i l).1.kern = c.kern := by
  unfold Chip.placeRecv
  repeat' first | (simp; done) | (dsimp only; split) | split | (rw [foldl_kern] <;> intros) | (have hk := congrArg (fun r => r.1.kern) ‹_ = (_, _)›; simp_all; done) | (simp_all; done)
@[simp] theorem Chip.takeIntoBuffer_kern (c : Chip) (h k : Nat) (p : Packet) (r : RxMsg) (e : Entry) :
    (c.takeIntoBuffer h k p r e).1.kern = c.kern := by unfold Chip.takeIntoBuffer; split <;> simp
@[simp] theorem Chip.storePacket_kern (c : Chip) (h k : Nat) (p : Packet) (r : RxMsg) : (c.storePacket h k p r).1.kern = c.kern := by
  unfold Chip.storePacket; (repeat' split) <;> simp
@[simp] theorem Chip.firstSend_kern (c : Chip) (h k : Nat) (p : Packet) : (c.firstSend h k p).1.kern = c.kern := by
  unfold Chip.firstSend
  split
  · rfl
  · simp [Chip.takeRecv_kern ‹_›]
@[simp] theorem Chip.firstTagged_kern (c : Chip) (h k : Nat) (x : Chan) (p : Packet) : (c.firstTagged h k x p).1.kern = c.kern := by
  unfold Chip.firstTagged
  repeat' first | (simp; done) | (dsimp only; split) | split | (rw [foldl_kern] <;> intros) | (have hk := congrArg (fun r => r.1.kern) ‹_ = (_, _)›; simp_all; done) | (simp_all; done)
@[simp] theorem Chip.takeMessage_kern (c : Chip) (h k : Nat) (x : Chan) (p : Packet) : (c.takeMessage h k x p).1.kern = c.kern := by
  unfold Chip.takeMessage; (repeat' split) <;> simp
@[simp] theorem Chip.takeWrite_kern (c : Chip) (h k : Nat) (x : Chan) (p : Packet) : (c.takeWrite h k x p).1.kern = c.kern := by
  unfold Chip.takeWrite
  dsimp only
  split
  · rfl
  · split
    · split <;> simp
    · split <;> rename_i e <;> have h := pair_kern e (Chip.place_kern ..)
      · simp [h]
      · split
        · split
          · rfl
          · simp [Chip.takeRecv_kern ‹_›, h]
        · split
          · exact h
          · simp [h]
@[simp] theorem Chip.takeAtomic_kern (c : Chip) (h k : Nat) (x : Chan) (p : Packet) : (c.takeAtomic h k x p).1.kern = c.kern := by
  unfold Chip.takeAtomic
  dsimp only
  split
  · rfl
  · split
    · rfl
    · split
      · rfl
      · (repeat' split) <;> simp
      · split
        · rfl
        · split
          · rfl
          · split
            · rename_i e; simp [pair_kern e (Chip.hostAccess_kern ..)]
            · simp
@[simp] theorem Chip.judge_kern (c : Chip) (h k : Nat) (x : Chan) (p : Packet) : (c.judge h k x p).1.kern = c.kern := by
  unfold Chip.judge
  repeat' first | (simp; done) | (dsimp only; split) | split | (rw [foldl_kern] <;> intros) | (have hk := congrArg (fun r => r.1.kern) ‹_ = (_, _)›; simp_all; done) | (simp_all; done)
@[simp] theorem Chip.acceptPacket_kern (c : Chip) (h k : Nat) (x : Chan) (p : Packet) : (c.acceptPacket h k x p).kern = c.kern := by
  unfold Chip.acceptPacket
  extract_lets owners busy fresh
  have hj : (c.judge h k x p).1.kern = c.kern := Chip.judge_kern ..
  split
  rename_i c' v e
  replace hj : c'.kern = c.kern := pair_kern e hj
  split
  · split <;> simp [busy]
  · extract_lets good was c1 c2 c3 c4 done c5 c6 due
    have h1 : c1.kern = c'.kern := Chip.updChan_kern ..
    have h2 : c2.kern = c1.kern := by dsimp only [c2]; split <;> simp
    have h3 : c3.kern = c2.kern := by dsimp only [c3]; split <;> simp
    have h4 : c4.kern = c3.kern := Chip.updMsg_kern ..
    have h5 : c5.kern = c4.kern := by dsimp only [c5]; split <;> simp
    have h6 : c6.kern = c5.kern := Chip.deliverMsgs_kern ..
    have h7 : c6.kern = c.kern := by rw [h6, h5, h4, h3, h2, h1, hj]
    clear_value c6
    split <;> simp [h7]
@[simp] theorem Chip.unparkOrd_kern (c : Chip) (h k : Nat) (z0 : Nat) : (c.unparkOrd h k z0).kern = c.kern := by
  induction z0 generalizing c with
  | zero => rfl
  | succ n ih =>
    unfold Chip.unparkOrd
    split
    · rfl
    · split
      · rfl
      · simp [ih]
@[simp] theorem Chip.takeMalformed_kern (c : Chip) (h k : Nat) (x : Chan) (p : Packet) : (c.takeMalformed h k x p).kern = c.kern := by
  simp [Chip.takeMalformed, apply_ite Chip.kern]
@[simp] theorem Chip.takeResident_kern (c : Chip) (h k : Nat) (p : Packet) : (c.takeResident h k p).kern = c.kern := by
  unfold Chip.takeResident
  (repeat' split) <;> simp [apply_ite Chip.kern]
@[simp] theorem Chip.handleRequest_kern (c : Chip) (h k : Nat) (p : Packet) : (c.handleRequest h k p).kern = c.kern := by
  unfold Chip.handleRequest; split <;> simp
@[simp] theorem Chip.resolveRequest_kern (c : Chip) (h : Nat) (p : Packet) (miss : Option CtxKey) : (c.resolveRequest h p miss).kern = c.kern := by
  unfold Chip.resolveRequest
  repeat' first | (simp; done) | (dsimp only; split) | split | (rw [foldl_kern] <;> intros) | (have hk := congrArg (fun r => r.1.kern) ‹_ = (_, _)›; simp_all; done) | (simp_all; done)
@[simp] theorem Chip.takeRequest_kern (c : Chip) (h : Nat) (p : Packet) (miss : Option CtxKey) : (c.takeRequest h p miss).kern = c.kern := by
  unfold Chip.takeRequest
  repeat' first | (simp; done) | (dsimp only; split) | split | (rw [foldl_kern] <;> intros) | (have hk := congrArg (fun r => r.1.kern) ‹_ = (_, _)›; simp_all; done) | (simp_all; done)
@[simp] theorem Chip.unpark_kern (c : Chip) (ctx : CtxKey) : (c.unpark ctx).kern = c.kern := by simp [Chip.unpark]
@[simp] theorem Chip.contextFetched_kern (c : Chip) (ctx : CtxKey) (poisoned : Bool) :
    (c.contextFetched ctx poisoned).kern = c.kern := by unfold Chip.contextFetched; (repeat' split) <;> simp
@[simp] theorem Chip.placeRead_kern (c : Chip) (k : Nat) (o : SendOp) (p : Packet) : (c.placeRead k o p).kern = c.kern := by
  unfold Chip.placeRead
  split
  · rfl
  · split
    · simp
    · split <;> rename_i e <;> simp [pair_kern e (Chip.place_kern ..)]
@[simp] theorem Chip.takeReadData_kern (c : Chip) (h : Nat) (p : Packet) : (c.takeReadData h p).kern = c.kern := by
  unfold Chip.takeReadData
  refine Chip.takeResponse_kern _ _ _ _ fun c k x => ?_
  (repeat' split) <;> simp [apply_ite Chip.kern]
@[simp] theorem Chip.writeMember_kern (c : Chip) (m : Nat) (s : BitVec 32) (o : COp) (x : CPost) (seg : Nat) (data : List Byte) : (c.writeMember m s o x seg data).kern = c.kern := by
  unfold Chip.writeMember
  split
  · rfl
  · split
    · rfl
    · dsimp only
      split <;> rename_i e <;> simp [(pair_kern e (Chip.place_kern ..)).trans (Chip.drawnBy_kern ..)]
@[simp] theorem Chip.writeTurn_kern (c : Chip) (m : Nat) (s : BitVec 32) (z0 : Nat) : (c.writeTurn m s z0).kern = c.kern := by
  induction z0 generalizing c with
  | zero => rfl
  | succ n ih =>
    unfold Chip.writeTurn
    split
    · rfl
    · dsimp only
      split
      · rfl
      · simp [ih]
@[simp] theorem Chip.downSegment_kern (c : Chip) (m : Nat) (s : BitVec 32) (seg : Nat) (data : List Byte) :
    (c.downSegment m s seg data).kern = c.kern := by unfold Chip.downSegment; split <;> simp
@[simp] theorem Chip.collRoot_kern (c : Chip) (m : Nat) (s : BitVec 32) : (c.collRoot m s).kern = c.kern := by
  unfold Chip.collRoot
  repeat' first | (simp; done) | (dsimp only; split) | split | (rw [foldl_kern] <;> intros) | (have hk := congrArg (fun r => r.1.kern) ‹_ = (_, _)›; simp_all; done) | (simp_all; done)
@[simp] theorem Chip.collRun_kern (c : Chip) (m : Nat) (s : BitVec 32) : (c.collRun m s).kern = c.kern := by simp [Chip.collRun]
@[simp] theorem Chip.collRunAll_kern (c : Chip) : (c.collRunAll).kern = c.kern := by simp [Chip.collRunAll]
@[simp] theorem Chip.startCollective_kern (c : Chip) (h qn pos : Nat) (q : Queue) (e : Entry) (data : SourceData) : (c.startCollective h qn pos q e data).kern = c.kern := by
  unfold Chip.startCollective
  split
  · simp
  · extract_lets m s s1 c1
    have h1 : c1.kern = c.kern := rfl
    clear_value c1
    split
    · simp [h1]
    · dsimp only
      simp only [Chip.collRun_kern, Chip.dropStale_kern, apply_ite Chip.kern, Chip.abortSelf_kern, ite_self, Chip.updColl_kern,
        Chip.operandOf_kern]
      exact (Chip.beginColl_kern ..).trans h1
@[simp] theorem Chip.takeCollective_kern (c : Chip) (h qn op : Nat) (e : Entry) (data : SourceData) :
    (c.takeCollective h qn op e data).kern = c.kern := by unfold Chip.takeCollective; (repeat' split) <;> simp
@[simp] theorem Chip.collectiveUp_kern (c : Chip) (port : Nat) (p : Packet) (poisoned : Bool) : (c.collectiveUp port p poisoned).kern = c.kern := by
  unfold Chip.collectiveUp
  split
  · rfl
  · split <;> rename_i e <;> have h := pair_kern e (Chip.admitTree_kern ..)
    · exact h
    · dsimp only
      (repeat' split) <;> simp [h]
@[simp] theorem Chip.collectiveDown_kern (c : Chip) (port : Nat) (p : Packet) : (c.collectiveDown port p).kern = c.kern := by
  unfold Chip.collectiveDown
  split
  · rfl
  · split <;> rename_i e <;> have h := pair_kern e (Chip.admitTree_kern ..)
    · exact h
    · dsimp only
      (repeat' split) <;> simp [h]
@[simp] theorem Chip.collectiveDone_kern (c : Chip) (port : Nat) (p : Packet) : (c.collectiveDone port p).kern = c.kern := by
  unfold Chip.collectiveDone
  split
  · rfl
  · split <;> rename_i e <;> have h := pair_kern e (Chip.admitTree_kern ..)
    · exact h
    · dsimp only
      (repeat' split) <;> simp [h]
@[simp] theorem Chip.segmentUp_kern (c : Chip) (m : Nat) (s : BitVec 32) (seg : Nat) (poisoned : Bool) : (c.segmentUp m s seg poisoned).kern = c.kern := by
  unfold Chip.segmentUp
  repeat' first | (simp; done) | (dsimp only; split) | split | (rw [foldl_kern] <;> intros) | (have hk := congrArg (fun r => r.1.kern) ‹_ = (_, _)›; simp_all; done) | (simp_all; done)
@[simp] theorem Chip.collResume_kern (c : Chip)  : (c.collResume).kern = c.kern := by
  have h1 (c : Chip) (l : List COp) : (l.foldl (fun c o => c.collectiveTimeout o.slot o.cseq) c).kern = c.kern := by simp
  have h2 (c : Chip) (l : List COp) : (l.foldl (fun c o => match o.abortDue with
      | some s => (c.abortNow o.slot o.cseq s).settleColl o.slot
      | none => c) c).kern = c.kern := foldl_kern (fun c o => by split <;> simp) _ _
  exact (Chip.collRunAll_kern _).trans ((h2 _ _).trans (h1 _ _))
@[simp] theorem Chip.collDisable_kern (c : Chip) (fn : Nat) : (c.collDisable fn).kern = c.kern := by
  unfold Chip.collDisable
  repeat' first | (simp; done) | (dsimp only; split) | split | (rw [foldl_kern] <;> intros) | (have hk := congrArg (fun r => r.1.kern) ‹_ = (_, _)›; simp_all; done) | (simp_all; done)
@[simp] theorem Chip.disableFn_kern (c : Chip) (fn : Nat) : (c.disableFn fn).kern = c.kern := by
  unfold Chip.disableFn; split <;> simp
@[simp] theorem Chip.levelReset_kern (c : Chip) (fn : Nat) : (c.levelReset fn).kern = c.kern := by
  unfold Chip.levelReset; split <;> simp
@[simp] theorem Chip.endVf_kern (c : Chip) (fn : Nat) : (c.endVf fn).kern = c.kern := by unfold Chip.endVf; split <;> simp
@[simp] theorem Chip.endVfs_kern (c : Chip) (h : Nat) : (c.endVfs h).kern = c.kern := by
  unfold Chip.endVfs
  repeat' first | (simp; done) | (dsimp only; split) | split | (rw [foldl_kern] <;> intros) | (have hk := congrArg (fun r => r.1.kern) ‹_ = (_, _)›; simp_all; done) | (simp_all; done)
@[simp] theorem Chip.vfClear_kern (c : Chip) (h : Nat) : (c.vfClear h).kern = c.kern := by unfold Chip.vfClear; split <;> simp
@[simp] theorem Chip.perstPort_wide (c : Chip) (h : Nat) : (c.perstPort h).kern.wide = c.kern.wide := by simp [Chip.perstPort]
@[simp] theorem Chip.perstAssert_wide (c : Chip) (h : Nat) : (c.perstAssert h).kern.wide = c.kern.wide := by
  simp [Chip.perstAssert, apply_ite (fun c : Chip => c.kern.wide)]
@[simp] theorem Chip.setFence_base (c : Chip) (chip : Nat) (on : Bool) : (c.setFence chip on).kern.base = c.kern.base := by
  simp [Chip.setFence, apply_ite (fun c : Chip => c.kern.base)]
@[simp] theorem Chip.setFence_wide (c : Chip) (chip : Nat) (on : Bool) : (c.setFence chip on).kern.wide = c.kern.wide :=
  Kern.wide_of_base (c.setFence_base ..)
@[simp] theorem Chip.applyFence_base (c : Chip) (row : Nat) (p : Packet) : (c.applyFence row p).kern.base = c.kern.base := by
  simp [Chip.applyFence, apply_ite (fun c : Chip => c.kern.base)]
@[simp] theorem Chip.applyFence_wide (c : Chip) (row : Nat) (p : Packet) : (c.applyFence row p).kern.wide = c.kern.wide :=
  Kern.wide_of_base (c.applyFence_base ..)
@[simp] theorem Chip.broadcastApply_base (c : Chip) : (c.broadcastApply).kern.base = c.kern.base := by
  unfold Chip.broadcastApply; (repeat' split) <;> simp
@[simp] theorem Chip.broadcastApply_wide (c : Chip) : (c.broadcastApply).kern.wide = c.kern.wide :=
  Kern.wide_of_base (c.broadcastApply_base ..)
@[simp] theorem Chip.installClamp_base (c : Chip) (row v : Nat) : (c.installClamp row v).kern.base = c.kern.base := by
  simp [Chip.installClamp]
@[simp] theorem Chip.installClamp_wide (c : Chip) (row v : Nat) : (c.installClamp row v).kern.wide = c.kern.wide :=
  Kern.wide_of_base (c.installClamp_base ..)
@[simp] theorem Chip.writeClamp_base (c : Chip) (row v : Nat) : (c.writeClamp row v).kern.base = c.kern.base := by
  unfold Chip.writeClamp; split <;> simp
@[simp] theorem Chip.writeClamp_wide (c : Chip) (row v : Nat) : (c.writeClamp row v).kern.wide = c.kern.wide :=
  Kern.wide_of_base (c.writeClamp_base ..)
@[simp] theorem Chip.fabResume_base (c : Chip) : (c.fabResume).kern.base = c.kern.base := by
  simp [Chip.fabResume]
@[simp] theorem Chip.fabResume_wide (c : Chip) : (c.fabResume).kern.wide = c.kern.wide :=
  Kern.wide_of_base (c.fabResume_base ..)
@[simp] theorem Chip.reset_die (c : Chip) (b : Boot) : (c.reset b).kern.wide.die = c.kern.wide.die := by simp [Chip.reset]
@[simp] theorem Chip.powerOn_die (c : Chip) : (c.powerOn).kern.wide.die = c.kern.wide.die := by simp [Chip.powerOn]
@[simp] theorem Chip.resetAssert_die (c : Chip) : (c.resetAssert).kern.wide.die = c.kern.wide.die := by unfold Chip.resetAssert; split <;> simp
@[simp] theorem Chip.fatalResets_die (c : Chip) : (c.fatalResets).kern.wide.die = c.kern.wide.die := by simp [Chip.fatalResets]
@[simp] theorem Chip.thermalTrip_die (c : Chip) (raw : List Int) : (c.thermalTrip raw).kern.wide.die = c.kern.wide.die := by
  simp [Chip.thermalTrip, apply_ite (fun c : Chip => c.kern.wide.die)]
@[simp] theorem Chip.clusterResumes_base (c : Chip) (i : Nat) : (c.clusterResumes i).kern.base = c.kern.base := by
  simp [Chip.clusterResumes, apply_ite (fun c : Chip => c.kern.base)]
@[simp] theorem Chip.clusterResumes_wide (c : Chip) (i : Nat) : (c.clusterResumes i).kern.wide = c.kern.wide :=
  Kern.wide_of_base (c.clusterResumes_base ..)
@[simp] theorem Chip.clusterBack_wide (c : Chip) (unit : Nat) : (c.clusterBack unit).kern.wide = c.kern.wide := by
  unfold Chip.clusterBack
  repeat' first | (simp; done) | (dsimp only; split) | split | (rw [foldl_wide] <;> intros) | (have hk := congrArg (fun r => r.1.kern.wide) ‹_ = (_, _)›; simp_all; done) | (simp_all; done)
@[simp] theorem Chip.blockResetDone_wide (c : Chip) (u : Nat) : (c.blockResetDone u).kern.wide = c.kern.wide := by
  simp [Chip.blockResetDone, apply_ite (fun c : Chip => c.kern.wide)]
@[simp] theorem Chip.blockReset_wide (c : Chip) (u : Nat) : (c.blockReset u).kern.wide = c.kern.wide := by
  simp [Chip.blockReset, apply_ite (fun c : Chip => c.kern.wide)]
@[simp] theorem Chip.carryOn_die (c : Chip) (z0 : Nat) : (c.carryOn z0).kern.wide.die = c.kern.wide.die := by
  induction z0 generalizing c with
  | zero => rfl
  | succ n ih =>
    unfold Chip.carryOn
    split
    · simp
    · split
      · rw [ih, Chip.blockReset_wide]; simp
      · split
        · rw [ih, Chip.carriedEnd_kern]; simp
        · rfl
@[simp] theorem Chip.settle_die (c : Chip) : (c.settle).kern.wide.die = c.kern.wide.die := by simp [Chip.settle]
@[simp] theorem Chip.writeEnable_wide (c : Chip) (fn x : Nat) : (c.writeEnable fn x).kern.wide = c.kern.wide := by
  unfold Chip.writeEnable; split <;> simp
@[simp] theorem Chip.store_wide (c : Chip) (area obj e x : Nat) (idx : Option CtlIndices) : (c.store area obj e x idx).1.kern.wide = c.kern.wide := by
  unfold Chip.store
  repeat' first | (simp; done) | (dsimp only; split) | split | (rw [foldl_wide] <;> intros) | (have hk := congrArg (fun r => r.1.kern.wide) ‹_ = (_, _)›; simp_all; done) | (simp_all; done)
@[simp] theorem Chip.writeNumber_wide (c : Chip) (w : Writer) (d : Desc) (n x : Nat) (idx : Option CtlIndices) : (c.writeNumber w d n x idx).1.kern.wide = c.kern.wide := by
  unfold Chip.writeNumber
  repeat' first | (simp; done) | (dsimp only; split) | split | (rw [foldl_wide] <;> intros) | (have hk := congrArg (fun r => r.1.kern.wide) ‹_ = (_, _)›; simp_all; done) | (simp_all; done)
@[simp] theorem Chip.dictWrite_wide (c : Chip) (w : Writer) (n : Nat) (v : Option (List Byte)) (idx : Option CtlIndices) : (c.dictWrite w n v idx).1.kern.wide = c.kern.wide := by
  unfold Chip.dictWrite
  repeat' first | (simp; done) | (dsimp only; split) | split | (rw [foldl_wide] <;> intros) | (have hk := congrArg (fun r => r.1.kern.wide) ‹_ = (_, _)›; simp_all; done) | (simp_all; done)
@[simp] theorem Chip.pathWrite_wide (c : Chip) (w : Writer) (n : BitVec 32) (off : Nat) (l : List Byte) (fits final le : Bool) (tag vlen : Nat) (idx : Option CtlIndices) : (c.pathWrite w n off l fits final le tag vlen idx).1.kern.wide = c.kern.wide := by
  unfold Chip.pathWrite
  repeat' first | (simp; done) | (dsimp only; split) | split | (rw [foldl_wide] <;> intros) | (have hk := congrArg (fun r => r.1.kern.wide) ‹_ = (_, _)›; simp_all; done) | (simp_all; done)
@[simp] theorem Chip.mbxRequest_die (c : Chip) (h op : Nat) (relay : Bool) (vf : Nat) (n : BitVec 32) :
    (c.mbxRequest h op relay vf n).kern.wide.die = c.kern.wide.die := by simp [Chip.mbxRequest, apply_ite (fun c : Chip => c.kern.wide.die)]
@[simp] theorem Chip.runRecord_wide (c : Chip) (w : Writer) (r : OpRecord) : (c.runRecord w r).1.kern.wide = c.kern.wide := by
  unfold Chip.runRecord; split <;> simp
@[simp] theorem Chip.fdpRun_wide (c : Chip) (w : Writer) (room : Nat) (z0 : List OpRecord) : (c.fdpRun w room z0).1.kern.wide = c.kern.wide := by
  induction z0 generalizing c room with
  | nil => rfl
  | cons r l ih =>
    unfold Chip.fdpRun
    have h : (c.runRecord w r).1.kern.wide = c.kern.wide := Chip.runRecord_wide ..
    dsimp only
    rw [ih]
    split <;> simp [h]
@[simp] theorem Chip.fdpRequest_wide (c : Chip) (d : Datagram) : (c.fdpRequest d).kern.wide = c.kern.wide := by
  unfold Chip.fdpRequest; (repeat' split) <;> simp
@[simp] theorem Chip.mctpTake_wide (c : Chip) (l : List Byte) : (c.mctpTake l).kern.wide = c.kern.wide := by
  unfold Chip.mctpTake
  repeat' first | (simp; done) | (dsimp only; split) | split | (rw [foldl_wide] <;> intros) | (have hk := congrArg (fun r => r.1.kern.wide) ‹_ = (_, _)›; simp_all; done) | (simp_all; done)
@[simp] theorem Chip.mctpRequest_wide (c : Chip) (l : List MctpPacket) : (c.mctpRequest l).kern.wide = c.kern.wide := by
  unfold Chip.mctpRequest
  repeat' first | (simp; done) | (dsimp only; split) | split | (rw [foldl_wide] <;> intros) | (have hk := congrArg (fun r => r.1.kern.wide) ‹_ = (_, _)›; simp_all; done) | (simp_all; done)
@[simp] theorem Chip.shimExecute_wide (c : Chip) (p : Packet) : (c.shimExecute p).1.kern.wide = c.kern.wide := by
  unfold Chip.shimExecute
  repeat' first | (simp; done) | (dsimp only; split) | split | (rw [foldl_wide] <;> intros) | (have hk := congrArg (fun r => r.1.kern.wide) ‹_ = (_, _)›; simp_all; done) | (simp_all; done)
@[simp] theorem Chip.shimRequest_wide (c : Chip) (p : Packet) : (c.shimRequest p).kern.wide = c.kern.wide := by
  unfold Chip.shimRequest
  repeat' first | (simp; done) | (dsimp only; split) | split | (rw [foldl_wide] <;> intros) | (have hk := congrArg (fun r => r.1.kern.wide) ‹_ = (_, _)›; simp_all; done) | (simp_all; done)
@[simp] theorem Chip.rowWrite_wide (c : Chip) (w : Writer) (n : Nat) (l : List Byte) (idx : Option CtlIndices) : (c.rowWrite w n l idx).kern.wide = c.kern.wide := by
  unfold Chip.rowWrite
  repeat' first | (simp; done) | (dsimp only; split) | split | (rw [foldl_wide] <;> intros) | (have hk := congrArg (fun r => r.1.kern.wide) ‹_ = (_, _)›; simp_all; done) | (simp_all; done)
@[simp] theorem Chip.mbxCmdWrite_die (c : Chip) (h off : Nat) (wide : Bool) (v : Word) :
    (c.mbxCmdWrite h off wide v).kern.wide.die = c.kern.wide.die := by simp [Chip.mbxCmdWrite, apply_ite (fun c : Chip => c.kern.wide.die)]
@[simp] theorem Chip.mbxWrite_die (c : Chip) (h off : Nat) (wide : Bool) (v : Word) : (c.mbxWrite h off wide v).kern.wide.die = c.kern.wide.die := by
  unfold Chip.mbxWrite
  repeat' first | (simp; done) | (dsimp only; split) | split | (rw [foldl_die] <;> intros) | (have hk := congrArg (fun r => r.1.kern.wide.die) ‹_ = (_, _)›; simp_all; done) | (simp_all; done)
@[simp] theorem Chip.barWrite_die (c : Chip) (fn off : Nat) (wide : Bool) (v : Word) : (c.barWrite fn off wide v).kern.wide.die = c.kern.wide.die := by
  unfold Chip.barWrite; (repeat' split) <;> simp
@[simp] theorem Chip.registerWrite_die (c : Chip) (fn : Nat) (reg : HostReg) (v : Word) :
    (c.registerWrite fn reg v).kern.wide.die = c.kern.wide.die := by unfold Chip.registerWrite; (repeat' split) <;> simp
@[simp] theorem Chip.numWrite_wide (c : Chip) (w : Writer) (area obj e size x : Nat) (idx : Option CtlIndices) : (c.numWrite w area obj e size x idx).kern.wide = c.kern.wide := by
  unfold Chip.numWrite
  repeat' first | (simp; done) | (dsimp only; split) | split | (rw [foldl_wide] <;> intros) | (have hk := congrArg (fun r => r.1.kern.wide) ‹_ = (_, _)›; simp_all; done) | (simp_all; done)
@[simp] theorem Chip.ctrWrite_wide (c : Chip) (w : Writer) (fn cmd ctr arg : Nat) : (c.ctrWrite w fn cmd ctr arg).kern.wide = c.kern.wide := by
  unfold Chip.ctrWrite; split <;> simp
@[simp] theorem Chip.requestOf_kern (c : Chip) (want : Packet → Bool) (h : Nat) (p : Packet) (miss : Option CtxKey) : (c.requestOf want h p miss).kern = c.kern := by
  unfold Chip.requestOf
  repeat' first | (simp; done) | (dsimp only; split) | split | (rw [foldl_kern] <;> intros) | (have hk := congrArg (fun r => r.1.kern) ‹_ = (_, _)›; simp_all; done) | (simp_all; done)
@[simp] theorem Chip.closeRequest_kern (c : Chip) (h : Nat) (p : Packet) : (c.closeRequest h p).kern = c.kern := by
  unfold Chip.closeRequest; split <;> simp
@[simp] theorem Chip.heldReadBack_kern (c : Chip) (fn slot : Nat) (data : SourceData) : (c.heldReadBack fn slot data).kern = c.kern := by
  unfold Chip.heldReadBack
  repeat' first | (simp; done) | (dsimp only; split) | split | (rw [foldl_kern] <;> intros) | (have hk := congrArg (fun r => r.1.kern) ‹_ = (_, _)›; simp_all; done) | (simp_all; done)

end Sys2Proof.Machine
end


section
/-! Every command, and so every step, keeps the fused identity of the chip (R1, R3). -/

set_option Elab.async false

namespace Sys2Proof.Machine

theorem die_of_run {i : Instr} {s : State} {v : Variant × Word} {f : Chip → Chip} (hi : exec i s = s.run f)
    (hf : (f s.chip).kern.wide.die = s.chip.kern.wide.die) : Instr.keeps i s fun c => c.kern.wide.die = v :=
  .of_run (fun c h => (Chip.settle_die c).trans h) hi fun h => hf.trans h

theorem die_of_runAny {i : Instr} {s : State} {v : Variant × Word} {f : Chip → Chip} (hi : exec i s = s.runAny f)
    (hf : (f s.chip).kern.wide.die = s.chip.kern.wide.die) : Instr.keeps i s fun c => c.kern.wide.die = v :=
  .of_runAny (fun c h => (Chip.settle_die c).trans h) hi fun h => hf.trans h

/-- Every command keeps it: each effect does, by its own lemma. -/
theorem exec_die (i : Instr) (s : State) (v : Variant × Word) : Instr.keeps i s fun c => c.kern.wide.die = v := by
  cases i
  case clusterRestart => exact die_of_runAny (exec_clusterRestart ..) (by simp)
  case clusterRestartComplete => exact die_of_runAny (exec_clusterRestartComplete ..) (by simp)
  case powerOn => exact die_of_runAny (exec_powerOn ..) (by simp)
  case resetNAssert => exact die_of_runAny (exec_resetNAssert ..) (by simp)
  case resetNRelease => exact die_of_runAny (exec_resetNRelease ..) (by simp)
  case strapOverrideWrite => exact die_of_runAny (exec_strapOverrideWrite ..) (by simp)
  case bootLoadComplete => exact die_of_runAny (exec_bootLoadComplete ..) (by simp)
  case jigServiceUp => exact die_of_runAny (exec_jigServiceUp ..) (by simp)
  case beginUpdate => exact die_of_runAny (exec_beginUpdate ..) (by simp)
  case beginComplete => exact die_of_runAny (exec_beginComplete ..) (by simp)
  case updateBlock => exact die_of_runAny (exec_updateBlock ..) (by simp [apply_ite (fun c : Chip => c.kern.wide.die)])
  case updateBlockComplete => exact die_of_runAny (exec_updateBlockComplete ..) (by simp)
  case verify => exact die_of_runAny (exec_verify ..) (by simp)
  case verifyComplete => exact die_of_runAny (exec_verifyComplete ..) (by simp)
  case switch => exact die_of_runAny (exec_switch ..) (by simp)
  case switchComplete => exact die_of_runAny (exec_switchComplete ..) (by simp)
  case activate => exact die_of_runAny (exec_activate ..) (by simp)
  case barrier => exact die_of_run (exec_barrier ..) (by simp)
  case broadcast => exact die_of_run (exec_broadcast ..) (by simp)
  case reduce => exact die_of_run (exec_reduce ..) (by simp)
  case allreduce => exact die_of_run (exec_allreduce ..) (by simp)
  case reduceScatter => exact die_of_run (exec_reduceScatter ..) (by simp)
  case collectiveUp => exact die_of_run (exec_collectiveUp ..) (by simp)
  case collectiveDown => exact die_of_run (exec_collectiveDown ..) (by simp)
  case collectiveAbort => exact die_of_run (exec_collectiveAbort ..) (by simp)
  case collectiveDone => exact die_of_run (exec_collectiveDone ..) (by simp)
  case segmentUp => exact die_of_run (exec_segmentUp ..) (by simp)
  case collectiveTimeout => exact die_of_run (exec_collectiveTimeout ..) (by simp)
  case read => exact die_of_run (exec_read ..) (by simp)
  case write => exact die_of_run (exec_write ..) (by simp)
  case describe => exact die_of_run (exec_describe ..) (by simp)
  case readStaged => exact die_of_run (exec_readStaged ..) (by simp)
  case mbxUnknownOp => exact die_of_run (exec_mbxUnknownOp ..) (by simp [apply_ite (fun c : Chip => c.kern.wide.die)])
  case collide => exact die_of_run (exec_collide ..) (by simp)
  case fdpRequest => exact die_of_run (exec_fdpRequest ..) (by simp)
  case mctpRequest => exact die_of_runAny (exec_mctpRequest ..) (by simp)
  case chunkExpiry => exact die_of_run (exec_chunkExpiry ..) (by simp)
  case shimDictionaryRequest => exact die_of_run (exec_shimDictionaryRequest ..) (by simp)
  case commit => exact die_of_runAny (exec_commit ..) (by simp)
  case setTakesEffect => exact die_of_run (exec_setTakesEffect ..) (by simp)
  case discard => exact die_of_runAny (exec_discard ..) (by simp)
  case holderTimeout => exact die_of_run (exec_holderTimeout ..) (by simp)
  case save => exact die_of_runAny (exec_save ..) (by simp)
  case saveComplete => exact die_of_runAny (exec_saveComplete ..) (by simp)
  case restoreDefaults => exact die_of_runAny (exec_restoreDefaults ..) (by simp)
  case restoreSaved => exact die_of_runAny (exec_restoreSaved ..) (by simp)
  case calibrationStore => exact die_of_runAny (exec_calibrationStore ..) (by simp)
  case calibrationStoreComplete => exact die_of_runAny (exec_calibrationStoreComplete ..) (by simp)
  case calibrationImageWrite => exact die_of_runAny (exec_calibrationImageWrite ..) (by simp)
  case dynamicAddressAssignment => exact die_of_runAny (exec_dynamicAddressAssignment ..) (by simp)
  case faultOccurrence => exact die_of_runAny (exec_faultOccurrence ..) (by simp)
  case handshakeStall => exact die_of_runAny (exec_handshakeStall ..) (by simp)
  case blockResetComplete => exact die_of_runAny (exec_blockResetComplete ..) (by simp)
  case unitRelease => exact die_of_runAny (exec_unitRelease ..) (by simp)
  case sourceStatusClear => exact die_of_runAny (exec_sourceStatusClear ..) (by simp [apply_ite (fun c : Chip => c.kern.wide.die)])
  case kerfWindowClose => exact die_of_runAny (exec_kerfWindowClose ..) (by simp)
  case recordToFifo => exact die_of_runAny (exec_recordToFifo ..) (by simp)
  case ffDataRead => exact die_of_run (exec_ffDataRead ..) (by simp)
  case ffDataUpperRead => exact die_of_run (exec_ffDataUpperRead ..) (by simp)
  case ffDataWrite => exact die_of_run (exec_ffDataWrite ..) (by simp)
  case ffDataLowerWrite => exact die_of_run (exec_ffDataLowerWrite ..) (by simp)
  case ffCommit => exact die_of_run (exec_ffCommit ..) (by simp)
  case ffAbort => exact die_of_run (exec_ffAbort ..) (by simp)
  case ffMark => exact die_of_run (exec_ffMark ..) (by simp)
  case ffRewind => exact die_of_run (exec_ffRewind ..) (by simp)
  case ffRelease => exact die_of_run (exec_ffRelease ..) (by simp)
  case radishMarker => exact die_of_run (exec_radishMarker ..) (by simp)
  case mgmtTransmit => exact die_of_run (exec_mgmtTransmit ..) (by simp [apply_ite (fun c : Chip => c.kern.wide.die)])
  case shimPacketDelivery => exact die_of_run (exec_shimPacketDelivery ..) (by simp)
  case registerWrite => exact die_of_runAny (exec_registerWrite ..) (by simp [apply_ite (fun c : Chip => c.kern.wide.die)])
  case hostLinkTrained => exact die_of_run (exec_hostLinkTrained ..) (by simp)
  case perstNAssert => exact die_of_runAny (exec_perstNAssert ..) (by simp)
  case perstNDeassert => exact die_of_runAny (exec_perstNDeassert ..) (by simp)
  case functionLevelReset => exact die_of_run (exec_functionLevelReset ..) (by simp)
  case functionDisable => exact die_of_runAny (exec_functionDisable ..) (by simp)
  case functionQuiesced => exact die_of_run (exec_functionQuiesced ..) (by simp)
  case functionEnable => exact die_of_runAny (exec_functionEnable ..) (by simp)
  case functionReady => exact die_of_run (exec_functionReady ..) (by simp)
  case vfEnableClear => exact die_of_run (exec_vfEnableClear ..) (by simp)
  case vfEnableSet => exact die_of_run (exec_vfEnableSet ..) (by simp)
  case vectorUnmask => exact die_of_run (exec_vectorUnmask ..) (by simp)
  case counterPageRead => exact die_of_run (exec_counterPageRead ..) (by simp)
  case codewordDecode => exact die_of_run (exec_codewordDecode ..) (by simp)
  case blockLock => exact die_of_run (exec_blockLock ..) (by simp)
  case markerLock => exact die_of_run (exec_markerLock ..) (by simp)
  case lockLoss => exact die_of_run (exec_lockLoss ..) (by simp)
  case bitSlip => exact die_of_runAny (exec_bitSlip ..) (by simp)
  case checkerSync => exact die_of_run (exec_checkerSync ..) (by simp)
  case checkerSyncLoss => exact die_of_run (exec_checkerSyncLoss ..) (by simp)
  case linkPacketReceive => exact die_of_run (exec_linkPacketReceive ..) (by simp)
  case lcbSend => exact die_of_run (exec_lcbSend ..) (by simp)
  case lcbReceive => exact die_of_run (exec_lcbReceive ..) (by simp)
  case replayTimeout => exact die_of_run (exec_replayTimeout ..) (by simp)
  case degradationWindow => exact die_of_run (exec_degradationWindow ..) (by simp)
  case restoreInterval => exact die_of_run (exec_restoreInterval ..) (by simp)
  case contextBind => exact die_of_runAny (exec_contextBind ..) (by simp)
  case contextUnbind => exact die_of_runAny (exec_contextUnbind ..) (by simp)
  case eagerCopyComplete => exact die_of_run (exec_eagerCopyComplete ..) (by simp)
  case offerRecordFreed => exact die_of_run (exec_offerRecordFreed ..) (by simp)
  case matchEntryReadDone => exact die_of_run (exec_matchEntryReadDone ..) (by simp [apply_ite (fun c : Chip => c.kern.wide.die)])
  case register => exact die_of_runAny (exec_register ..) (by simp)
  case registerComplete => exact die_of_run (exec_registerComplete ..) (by simp)
  case deregister => exact die_of_run (exec_deregister ..) (by simp)
  case deregisterComplete => exact die_of_run (exec_deregisterComplete ..) (by simp)
  case atsInvalidateRequest => exact die_of_run (exec_atsInvalidateRequest ..) (by simp)
  case atsInvalidateCompletion => exact die_of_run (exec_atsInvalidateCompletion ..) (by simp)
  case retire => exact die_of_runAny (exec_retire ..) (by simp)
  case channelGroupFailure => exact die_of_run (exec_channelGroupFailure ..) (by simp)
  case retirementComplete => exact die_of_run (exec_retirementComplete ..) (by simp)
  case cxlMemRead => exact die_of_run (exec_cxlMemRead ..) (by simp)
  case cxlMemWrite => exact die_of_run (exec_cxlMemWrite ..) (by simp)
  case hbmPatrolScrub => exact die_of_run (exec_hbmPatrolScrub ..) (by simp)
  case controlQpEnable => exact die_of_runAny (exec_controlQpEnable ..) (by simp)
  case controlQpDisable => exact die_of_runAny (exec_controlQpDisable ..) (by simp)
  case ring => exact die_of_run (exec_ring ..) (by simp)
  case invalidate => exact die_of_run (exec_invalidate ..) (by simp)
  case arm => exact die_of_run (exec_arm ..) (by simp)
  case indexBlockReadDone => exact die_of_run (exec_indexBlockReadDone ..) (by simp)
  case queueReadTimeout => exact die_of_run (exec_queueReadTimeout ..) (by simp)
  case create => exact die_of_run (exec_create ..) (by simp)
  case destroy => exact die_of_run (exec_destroy ..) (by simp)
  case reset => exact die_of_run (exec_reset ..) (by simp)
  case backlogDrain => exact die_of_run (exec_backlogDrain ..) (by simp)
  case ack => exact die_of_run (exec_ack ..) (by simp)
  case busyNak => exact die_of_run (exec_busyNak ..) (by simp)
  case error => exact die_of_run (exec_error ..) (by simp)
  case readData => exact die_of_run (exec_readData ..) (by simp)
  case atomicResult => exact die_of_run (exec_atomicResult ..) (by simp)
  case retransmitTimeout => exact die_of_run (exec_retransmitTimeout ..) (by simp)
  case busyResend => exact die_of_run (exec_busyResend ..) (by simp)
  case ackDelay => exact die_of_run (exec_ackDelay ..) (by simp)
  case errorStateExpiry => exact die_of_run (exec_errorStateExpiry ..) (by simp)
  case atomicBlockReturn => exact die_of_run (exec_atomicBlockReturn ..) (by simp)
  case messageRequest => exact die_of_run (exec_messageRequest ..) (by simp)
  case writeRequest => exact die_of_run (exec_writeRequest ..) (by simp)
  case readRequest => exact die_of_run (exec_readRequest ..) (by simp)
  case atomicRequest => exact die_of_run (exec_atomicRequest ..) (by simp)
  case countRequest => exact die_of_run (exec_countRequest ..) (by simp)
  case nopRequest => exact die_of_run (exec_nopRequest ..) (by simp)
  case sync => exact die_of_run (exec_sync ..) (by simp)
  case offer => exact die_of_run (exec_offer ..) (by simp)
  case offerClose => exact die_of_run (exec_offerClose ..) (by simp)
  case contextFetchDone => exact die_of_run (exec_contextFetchDone ..) (by simp)
  case contextFetchTimeout => exact die_of_run (exec_contextFetchTimeout ..) (by simp)
  case hostMemoryReadCompletion => exact die_of_run (exec_hostMemoryReadCompletion ..) (by simp)
  case packetRoute => exact die_of_run (exec_packetRoute ..) (by simp)
  case outputStart => exact die_of_run (exec_outputStart ..) (by simp)
  case fenceBroadcast => exact die_of_run (exec_fenceBroadcast ..) (by simp)
  case throttleBroadcast => exact die_of_run (exec_throttleBroadcast ..) (by simp)
  case broadcastApply => exact die_of_run (exec_broadcastApply ..) (by simp)
  case clampTableWrite => exact die_of_runAny (exec_clampTableWrite ..) (by simp)
  case throttleExpiry => exact die_of_run (exec_throttleExpiry ..) (by simp)
  case splineHintSend => exact die_of_run (exec_splineHintSend ..) (by simp)
  case splineHintReceive => exact die_of_run (exec_splineHintReceive ..) (by simp)
  case hintStale => exact die_of_run (exec_hintStale ..) (by simp)
  case tokenTick => exact die_of_run (exec_tokenTick ..) (by simp)
  case gateEntryChange => exact die_of_run (exec_gateEntryChange ..) (by simp)
  case timeExchangeSend => exact die_of_run (exec_timeExchangeSend ..) (by simp)
  case timeExchangeReceive => exact die_of_run (exec_timeExchangeReceive ..) (by simp)
  case parentTimeout => exact die_of_run (exec_parentTimeout ..) (by simp)
  case holdoverExpiry => exact die_of_run (exec_holdoverExpiry ..) (by simp)
  case setTime => exact die_of_runAny (exec_setTime ..) (by simp)
  case ppsEdge => exact die_of_run (exec_ppsEdge ..) (by simp)
  case paceWindow => exact die_of_run (exec_paceWindow ..) (by simp)
  case avsLoop => exact die_of_run (exec_avsLoop ..) (by simp)
  case avsResponse => exact die_of_run (exec_avsResponse ..) (by simp)
  case avsTimeout => exact die_of_run (exec_avsTimeout ..) (by simp)
  case thermalWarning => exact die_of_run (exec_thermalWarning ..) (by simp)
  case thermalTrip => exact die_of_runAny (exec_thermalTrip ..) (by simp)
  case samplingTick => exact die_of_runAny (exec_samplingTick ..) (by simp)
  case streamSample => exact die_of_run (exec_streamSample ..) (by simp)
  case thermalWarningClear => exact die_of_run (exec_thermalWarningClear ..) (by simp)
  case receiverDetect => exact die_of_run (exec_receiverDetect ..) (by simp)
  case patternBlock => exact die_of_run (exec_patternBlock ..) (by simp)
  case equalisationRequest => exact die_of_run (exec_equalisationRequest ..) (by simp)
  case equalisationResponse => exact die_of_run (exec_equalisationResponse ..) (by simp)
  case capabilitiesBlock => exact die_of_run (exec_capabilitiesBlock ..) (by simp)
  case trainingTimeout => exact die_of_run (exec_trainingTimeout ..) (by simp)
  case attemptWaitEnd => exact die_of_run (exec_attemptWaitEnd ..) (by simp)
  case retrainEventTimeout => exact die_of_run (exec_retrainEventTimeout ..) (by simp)
  case portRetrain => exact die_of_runAny (exec_portRetrain ..) (by simp)
  case portNarrowLpos0 => exact die_of_runAny (exec_portNarrowLpos0 ..) (by simp)
  case portNarrowLpos1 => exact die_of_runAny (exec_portNarrowLpos1 ..) (by simp)
  case portWiden => exact die_of_runAny (exec_portWiden ..) (by simp)
  case wreq => exact die_of_run (exec_wreq ..) (by simp)
  case wgrant => exact die_of_run (exec_wgrant ..) (by simp)
  case wrefuse => exact die_of_run (exec_wrefuse ..) (by simp)
  case wswitch => exact die_of_run (exec_wswitch ..) (by simp)
  case rreq => exact die_of_run (exec_rreq ..) (by simp)
  case rack => exact die_of_run (exec_rack ..) (by simp)
  case wreqTimeout => exact die_of_run (exec_wreqTimeout ..) (by simp)
  case rackTimeout => exact die_of_run (exec_rackTimeout ..) (by simp)
  case wswitchLockTimeout => exact die_of_run (exec_wswitchLockTimeout ..) (by simp)
  case heldEntry => exact die_of_run (exec_heldEntry ..) (by simp)
  case allocate => exact die_of_runAny (exec_allocate ..) (by simp)
  case free => exact die_of_runAny (exec_free ..) (by simp)
  case configure => exact die_of_runAny (exec_configure ..) (by simp)
  case set => exact die_of_runAny (exec_set ..) (by simp)
  case add => exact die_of_runAny (exec_add ..) (by simp)
  case heldEntryReadBack => exact die_of_run (exec_heldEntryReadBack ..) (by simp)
  case heldAreaReadTimeout => exact die_of_run (exec_heldAreaReadTimeout ..) (by simp)
  case bar4Read => exact die_of_run (exec_bar4Read ..) (by simp)
  case bar4Write => exact die_of_run (exec_bar4Write ..) (by simp)
  case bar4Atomicop => exact die_of_run (exec_bar4Atomicop ..) (by simp)
  case writeGatherExpiry => exact die_of_run (exec_writeGatherExpiry ..) (by simp)
  case prefetchExpiry => exact die_of_run (exec_prefetchExpiry ..) (by simp)
  case bridgeTimeout => exact die_of_run (exec_bridgeTimeout ..) (by simp)
  case send => exact die_of_run (exec_send ..) (by simp)
  case taggedSend => exact die_of_run (exec_taggedSend ..) (by simp)
  case writeEntry => exact die_of_run (exec_writeEntry ..) (by simp)
  case writeWithNotify => exact die_of_run (exec_writeWithNotify ..) (by simp)
  case readEntry => exact die_of_run (exec_readEntry ..) (by simp)
  case fetchAdd => exact die_of_run (exec_fetchAdd ..) (by simp)
  case swap => exact die_of_run (exec_swap ..) (by simp)
  case compareSwap8 => exact die_of_run (exec_compareSwap8 ..) (by simp)
  case compareSwap16 => exact die_of_run (exec_compareSwap16 ..) (by simp)
  case count => exact die_of_run (exec_count ..) (by simp)
  case nop => exact die_of_run (exec_nop ..) (by simp)
  case recv => exact die_of_run (exec_recv ..) (by simp)
  case taggedRecv => exact die_of_run (exec_taggedRecv ..) (by simp)
  case veneerNop => exact die_of_run (exec_veneerNop ..) (by simp)
  case veneerSend => exact die_of_run (exec_veneerSend ..) (by simp)
  case veneerWrite => exact die_of_run (exec_veneerWrite ..) (by simp)
  case veneerRead => exact die_of_run (exec_veneerRead ..) (by simp)
  case malformedEntry => exact die_of_run (exec_malformedEntry ..) (by simp)

/-- Settles O5. -/
theorem everyStepKeepsTheFusedIdentity : Obligations.EveryStepKeepsTheFusedIdentity := fun s _ hs =>
  Prod.ext_iff.mp (step_keeps (fun i s => exec_die i s _) hs rfl : _ = s.chip.kern.wide.die)

end Sys2Proof.Machine
end


section
/-! Power, reset pins and straps (R479, R480, R484, R509). -/

set_option Elab.async false

namespace Sys2Proof.Machine

/-- A chip reset leaves nothing to carry out. -/
@[simp] theorem Chip.reset_calm (c : Chip) (b : Boot) : (c.reset b).calm = true := rfl

@[simp] theorem Chip.reset_boot (c : Chip) (b : Boot) : (c.reset b).boot = b := rfl

/-- A chip reset keeps the banks where no save is in progress (R52). -/
theorem Flash.interrupted_banks (f : Flash) (st : Nat) (h : f.saveJob = none) : (f.interrupted st).banks = f.banks := by
  cases e : f.calJob <;> simp [Flash.interrupted, Flash.updSlot, h, e, apply_ite Flash.banks]

theorem Chip.powerOn_eq (c : Chip) : c.powerOn = { c.reset { phase := .held, resetLow := true } with dict := Dict.init } := rfl

theorem Chip.resetAssert_tripped {c : Chip} (h : c.boot.phase = .tripped) :
    c.resetAssert = { c with boot := { c.boot with resetLow := true } } := if_pos h

theorem Chip.resetAssert_resets {c : Chip} (h : c.boot.phase ≠ .tripped) :
    c.resetAssert = c.reset { c.boot with phase := .held, resetLow := true, fatalReset := false, faultInRecovery := false } := if_neg h

theorem Chip.resetRelease_held {c : Chip} (h : c.boot.phase = .held) (grp : BitVec 10) (pos : BitVec 5) :
    c.resetRelease grp pos = { c with boot := { c.boot with
      phase := .booting, resetLow := false
      strapLatch := if c.boot.overrideValid then c.boot.overrideId else grp.toNat * 32 + pos.toNat } } := if_pos h

theorem Chip.strapOverride_low {c : Chip} (h : c.boot.resetLow = true) (v : BitVec 32) :
    c.strapOverride v = { c with boot := { c.boot with overrideValid := bitOf v.toNat 31, overrideId := bits v.toNat 0 15 } } := if_pos h

/-- Settles O7: the pins' commands reset the chip or change nothing but what the boot state holds. -/
theorem resetPinsActFirst : Obligations.ResetPinsActFirst := by
  refine fun s => ⟨?_, fun ht => ?_, fun hc ht => ?_, fun grp pos hc hh => ?_, fun v hc hl => ?_⟩
  · exact .of_runAny (exec_powerOn s) rfl ⟨rfl, rfl, rfl, rfl, rfl, rfl, rfl, rfl, rfl, rfl⟩
  · refine .of_runAny (exec_resetNAssert s) ?_ ?_ <;> rw [Chip.resetAssert_resets ht]
    · rfl
    · exact ⟨rfl, rfl, rfl, rfl, rfl, rfl, rfl, rfl, Flash.interrupted_banks _ _⟩
  · refine .of_runAny (exec_resetNAssert s) ?_ ?_ <;> rw [Chip.resetAssert_tripped ht]
    · exact hc
    · exact ⟨ht, rfl⟩
  · refine .of_runAny (exec_resetNRelease ..) ?_ ?_ <;> rw [Chip.resetRelease_held hh]
    · exact hc
    · exact ⟨rfl, rfl, rfl, rfl⟩
  · refine .of_runAny (exec_strapOverrideWrite ..) ?_ ?_ <;> rw [Chip.strapOverride_low hl]
    · exact hc
    · exact ⟨by simp [bitOf, BitVec.getLsbD], by simp [bits], rfl, rfl⟩

end Sys2Proof.Machine
end


section
/-! A row that writes one parameter element by a writer that may write it (R511): the checks pass, the command or the store of the
parameter runs, and the reply leaves with its status. -/

set_option Elab.async false

namespace Sys2Proof.Machine

/-! ### Numbers -/

@[simp] theorem pElem_pnum (a o e : Nat) (h : e < 4096) : pElem (pnum a o e) = e := by unfold pElem pnum; omega

theorem pObj_pnum (a o e : Nat) (h : e < 4096) (ho : o < 4096) : pObj (pnum a o e) = o := by unfold pObj pnum; omega

theorem pArea_pnum (a o e : Nat) (h : e < 4096) (ho : o < 4096) (ha : a < 256) : pArea (pnum a o e) = a := by
  unfold pArea pnum; omega

@[simp] theorem bytesLE_length (n x : Nat) : (bytesLE n x).length = n := by
  induction n generalizing x with
  | zero => rfl
  | succ n ih => rw [bytesLE, List.length_cons, ih]

theorem natLE_bytesLE (n x : Nat) : natLE (bytesLE n x) = x % 256 ^ n := by
  induction n generalizing x with
  | zero => simp [bytesLE, natLE, Nat.mod_one]
  | succ n ih =>
    rw [bytesLE, natLE, ih, BitVec.toNat_ofNat]
    exact (Nat.mod_mul (a := 256)).symm.trans (by rw [Nat.pow_succ' (m := 256)])

@[simp] theorem bytesBE_length (n x : Nat) : (bytesBE n x).length = n := by simp [bytesBE]

theorem natBE_bytesBE {n x : Nat} (h : x < 256 ^ n) : natBE (bytesBE n x) = x := by
  rw [natBE, bytesBE, List.reverse_reverse, natLE_bytesLE, Nat.mod_eq_of_lt h]

/-! ### The checks -/

theorem Chip.reach_descOf {c : Chip} {w : Writer} {n : Nat} {d : Desc} (h : c.reach w n = .ok d) : descOf c.variant n = some d := by
  unfold Chip.reach at h
  split at h
  · contradiction
  · rename_i e
    unfold Chip.findDesc at e
    repeat' split at h
    all_goals simp_all

/-- Where the checks of access and class pass, the descriptor is that of the number. -/
theorem Chip.reachWrite_descOf {c : Chip} {w : Writer} {n : Nat} {d : Desc} (h : c.reachWrite w n = .ok d) : descOf c.variant n = some d := by
  unfold Chip.reachWrite at h
  split at h
  · contradiction
  · rename_i e
    repeat' split at h
    all_goals first | contradiction | exact Except.ok.inj h ▸ Chip.reach_descOf e

/-- Only parameters of staging sets and the set commands of area 01 can be locked (R511). -/
theorem Chip.locked_plain (c : Chip) (w : Writer) {d : Desc} {n : Nat} (x : Option Nat) (hd : d.access ≠ .rwa) (ha : pArea n ≠ 0x01) :
    c.locked w d n x = false := by
  unfold Chip.locked
  rw [if_neg hd, if_pos ha]

theorem Chip.mayWrite_iff {c : Chip} {w : Writer} {n : Nat} :
    c.mayWrite w n = true ↔ c.serves w = true ∧ c.mgtUp = true ∧ c.heldAt w.path = none ∧ ∃ d, c.reachWrite w n = .ok d := by
  unfold Chip.mayWrite
  cases h : c.reachWrite w n <;> simp [and_assoc]

/-! ### The reply -/

/-- A write has been answered: a status that ends a held value drops it, and the reply leaves. -/
def Chip.replied (c : Chip) (w : Writer) (k : Nat) : Chip :=
  (if k = 0 ∨ k = 1 ∨ k = 8 then c.dropHeld w.path else c).emit (.dictReply w k [])

section
variable (c : Chip) (w : Writer) (k : Nat)

/-- A reply changes the held chunks and the output alone. -/
theorem Chip.replied_same : ∃ l, c.replied w k =
    { c with dict := { c.dict with held := l }, out := c.out ++ [.dictReply w k []] } := by
  unfold Chip.replied
  split
  · exact ⟨_, rfl⟩
  · exact ⟨c.dict.held, rfl⟩

@[simp] theorem Chip.replied_calm : (c.replied w k).calm = c.calm := by
  obtain ⟨l, h⟩ := c.replied_same w k; rw [h]; rfl
@[simp] theorem Chip.replied_out : (c.replied w k).out = c.out ++ [.dictReply w k []] := by
  obtain ⟨l, h⟩ := c.replied_same w k; rw [h]
@[simp] theorem Chip.replied_variant : (c.replied w k).variant = c.variant := by
  obtain ⟨l, h⟩ := c.replied_same w k; rw [h]
@[simp] theorem Chip.replied_serial : (c.replied w k).serial = c.serial := by
  obtain ⟨l, h⟩ := c.replied_same w k; rw [h]
@[simp] theorem Chip.replied_boot : (c.replied w k).boot = c.boot := by
  obtain ⟨l, h⟩ := c.replied_same w k; rw [h]
@[simp] theorem Chip.replied_flash : (c.replied w k).flash = c.flash := by
  obtain ⟨l, h⟩ := c.replied_same w k; rw [h]
@[simp] theorem Chip.replied_fw : (c.replied w k).fw = c.fw := by
  obtain ⟨l, h⟩ := c.replied_same w k; rw [h]
@[simp] theorem Chip.replied_ports : (c.replied w k).ports = c.ports := by
  obtain ⟨l, h⟩ := c.replied_same w k; rw [h]
@[simp] theorem Chip.replied_funcs : (c.replied w k).funcs = c.funcs := by
  obtain ⟨l, h⟩ := c.replied_same w k; rw [h]
@[simp] theorem Chip.replied_fifos : (c.replied w k).fifos = c.fifos := by
  obtain ⟨l, h⟩ := c.replied_same w k; rw [h]
@[simp] theorem Chip.replied_queues : (c.replied w k).queues = c.queues := by
  obtain ⟨l, h⟩ := c.replied_same w k; rw [h]
@[simp] theorem Chip.replied_tr : (c.replied w k).tr = c.tr := by
  obtain ⟨l, h⟩ := c.replied_same w k; rw [h]
@[simp] theorem Chip.replied_mt : (c.replied w k).mt = c.mt := by
  obtain ⟨l, h⟩ := c.replied_same w k; rw [h]
@[simp] theorem Chip.replied_tg : (c.replied w k).tg = c.tg := by
  obtain ⟨l, h⟩ := c.replied_same w k; rw [h]
@[simp] theorem Chip.replied_co : (c.replied w k).co = c.co := by
  obtain ⟨l, h⟩ := c.replied_same w k; rw [h]
@[simp] theorem Chip.replied_mem : (c.replied w k).mem = c.mem := by
  obtain ⟨l, h⟩ := c.replied_same w k; rw [h]
@[simp] theorem Chip.replied_br : (c.replied w k).br = c.br := by
  obtain ⟨l, h⟩ := c.replied_same w k; rw [h]
@[simp] theorem Chip.replied_rt : (c.replied w k).rt = c.rt := by
  obtain ⟨l, h⟩ := c.replied_same w k; rw [h]
@[simp] theorem Chip.replied_links : (c.replied w k).links = c.links := by
  obtain ⟨l, h⟩ := c.replied_same w k; rw [h]
@[simp] theorem Chip.replied_train : (c.replied w k).train = c.train := by
  obtain ⟨l, h⟩ := c.replied_same w k; rw [h]
@[simp] theorem Chip.replied_lanes : (c.replied w k).lanes = c.lanes := by
  obtain ⟨l, h⟩ := c.replied_same w k; rw [h]
@[simp] theorem Chip.replied_tb : (c.replied w k).tb = c.tb := by
  obtain ⟨l, h⟩ := c.replied_same w k; rw [h]
@[simp] theorem Chip.replied_pace : (c.replied w k).pace = c.pace := by
  obtain ⟨l, h⟩ := c.replied_same w k; rw [h]
@[simp] theorem Chip.replied_ctr : (c.replied w k).ctr = c.ctr := by
  obtain ⟨l, h⟩ := c.replied_same w k; rw [h]
@[simp] theorem Chip.replied_flt : (c.replied w k).flt = c.flt := by
  obtain ⟨l, h⟩ := c.replied_same w k; rw [h]
@[simp] theorem Chip.replied_free : (c.replied w k).free = c.free := by
  obtain ⟨l, h⟩ := c.replied_same w k; rw [h]
@[simp] theorem Chip.replied_dict_active : (c.replied w k).dict.active = c.dict.active := by
  obtain ⟨l, h⟩ := c.replied_same w k; rw [h]
@[simp] theorem Chip.replied_dict_staged : (c.replied w k).dict.staged = c.dict.staged := by
  obtain ⟨l, h⟩ := c.replied_same w k; rw [h]
@[simp] theorem Chip.replied_dict_sets : (c.replied w k).dict.sets = c.dict.sets := by
  obtain ⟨l, h⟩ := c.replied_same w k; rw [h]
@[simp] theorem Chip.replied_dict_committed10 : (c.replied w k).dict.committed10 = c.dict.committed10 := by
  obtain ⟨l, h⟩ := c.replied_same w k; rw [h]
@[simp] theorem Chip.replied_dict_fdpKey : (c.replied w k).dict.fdpKey = c.dict.fdpKey := by
  obtain ⟨l, h⟩ := c.replied_same w k; rw [h]
@[simp] theorem Chip.replied_param (a o e : Nat) : (c.replied w k).param a o e = c.param a o e := by
  unfold Chip.param; simp

end

/-! ### A write that passes -/

section
variable {c : Chip} {w : Writer} {n : Nat} (hm : c.mayWrite w n = true)
include hm

/-- A writer that may write the parameter has its value written and answered. -/
theorem Chip.rowWrite_served (l : List Byte) (idx : Option CtlIndices) :
    c.rowWrite w n l idx = (c.dictWrite w n (some l) idx).1.replied w (c.dictWrite w n (some l) idx).2 := by
  obtain ⟨hs, hu, hh, -⟩ := Chip.mayWrite_iff.mp hm
  unfold Chip.rowWrite
  rw [if_neg (by simp [hs]), if_neg (by simp [hu])]
  have hc : ∀ p t, c.chunkRules w.path p true t = c := fun p t => by unfold Chip.chunkRules; rw [hh]
  simp only [hc]
  rfl

/-- The parameter exists: its descriptor is that of the object, and the element is one of it. -/
theorem Chip.mayWrite_desc {d : Desc} (hd : desc c.variant (pArea n) (pObj n) = some d) :
    c.reachWrite w n = .ok d ∧ elementExists d (pArea n) (pObj n) (pElem n) = true := by
  obtain ⟨-, -, -, d', hr⟩ := Chip.mayWrite_iff.mp hm
  have he := Chip.reachWrite_descOf hr
  rw [descOf, hd] at he
  dsimp only at he
  split at he
  · exact ⟨Option.some.inj he ▸ hr, ‹_›⟩
  · contradiction

/-- A whole value of the parameter's length is written, where no lock stands against it. -/
theorem Chip.dictWrite_whole {d : Desc} (hd : desc c.variant (pArea n) (pObj n) = some d) {l : List Byte}
    (hf : lengthOk d n l.length = true) (hl : c.locked w d n (some (natBE l)) = false) (idx : Option CtlIndices) :
    c.dictWrite w n (some l) idx = if d.ty = .blob then c.writeBlob n l else c.writeNumber w d n (natBE l) idx := by
  unfold Chip.dictWrite
  simp [(Chip.mayWrite_desc hm hd).1, hf, hl]

end

section
variable {c : Chip} {w : Writer} {a o e : Nat} (hm : c.mayWrite w (pnum a o e) = true) (he : e < 4096)
include hm he

/-- A row of a number of the right size that no lock stands against is written and answered. -/
theorem Chip.numWrite_served (ho : o < 4096 := by decide) (ha : a < 256 := by decide) {d : Desc} (hd : desc c.variant a o = some d)
    (ht : d.ty ≠ .blob) {x : Nat} (hx : x < 256 ^ d.ty.size) (hl : c.locked w d (pnum a o e) (some x) = false)
    (idx : Option CtlIndices) :
    c.numWrite w a o e d.ty.size x idx =
      (c.writeNumber w d (pnum a o e) x idx).1.replied w (c.writeNumber w d (pnum a o e) x idx).2 := by
  have hd' : desc c.variant (pArea (pnum a o e)) (pObj (pnum a o e)) = some d := by
    rw [pArea_pnum a o e he ho ha, pObj_pnum a o e he ho]; exact hd
  have hw := Chip.dictWrite_whole hm hd' (l := bytesBE d.ty.size x) (by simp [lengthOk, ht]) (by rw [natBE_bytesBE hx]; exact hl) idx
  rw [if_neg ht, natBE_bytesBE hx] at hw
  rw [Chip.numWrite, if_pos ⟨he, hx⟩, Chip.rowWrite_served hm _ idx, hw]

/-- A row of a command parameter, unlocked, whose value is in range: the command runs and is answered. -/
theorem Chip.numWrite_command (ho : o < 4096 := by decide) (ha : a < 256 := by decide) {d : Desc} (hd : desc c.variant a o = some d)
    (hw : d.access = .wo) (ht : d.ty ≠ .blob) {x : Nat} (hx : x < 256 ^ d.ty.size) (hl : c.locked w d (pnum a o e) (some x) = false)
    (hk : keepBits a o x = x) (hv : valueOk d a o e x = true) (hr : c.valueRefused a o e x = false) (idx : Option CtlIndices) :
    c.numWrite w a o e d.ty.size x idx = (c.command a o e x []).1.replied w (c.command a o e x []).2 := by
  have h : c.writeNumber w d (pnum a o e) x idx = c.command a o e x [] := by
    simp only [Chip.writeNumber, pElem_pnum a o e he, pObj_pnum a o e he ho, pArea_pnum a o e he ho ha, hk, hv, hr, hw]
    rfl
  rw [Chip.numWrite_served hm he ho ha hd ht hx hl idx, h]

end

end Sys2Proof.Machine
end


section
/-! The firmware update: what each of its commands and its ends leaves (R476, R485 to R487). -/

set_option Elab.async false

namespace Sys2Proof.Machine

/-! ### A command of P38.021, P38.030 and P38.020 -/

section
variable {c : Chip} {w : Writer}

/-- A write of P38.021 runs the update command that it names. -/
theorem Chip.numWrite_update (hm : c.mayWrite w (pnum 0x38 0x021 0) = true) {x : Nat} (h1 : 1 ≤ x) (h4 : x ≤ 4) :
    c.numWrite w 0x38 0x021 0 1 x = (c.updateCommand x).1.replied w (c.updateCommand x).2 :=
  Chip.numWrite_command hm (d := { ty := .enum, access := .wo, writers := wFBH }) (by omega) (hd := rfl) (hw := rfl) (ht := by decide)
    (hx := by show x < 256; omega) (hl := Chip.locked_plain _ _ _ (by decide) (by decide)) (hk := rfl) (hv := by change (decide (1 ≤ x) && decide (x ≤ 4)) = true; simp [h1, h4]) (hr := rfl) (idx := none)

/-- A write of P38.030 restarts the cluster that it names. -/
theorem Chip.numWrite_restart (hm : c.mayWrite w (pnum 0x38 0x030 0) = true) {x : Nat} (h1 : 0x90 ≤ x) (h4 : x < 0x96) :
    c.numWrite w 0x38 0x030 0 2 x = (c.restartCluster x).1.replied w (c.restartCluster x).2 :=
  Chip.numWrite_command hm (d := { ty := .u16, access := .wo, writers := wFBH }) (by omega) (hd := rfl) (hw := rfl) (ht := by decide)
    (hx := by show x < 65536; omega) (hl := Chip.locked_plain _ _ _ (by decide) (by decide)) (hk := rfl) (hv := by change (decide (0x90 ≤ x) && decide (x ≤ 0x95)) = true; simp; omega) (hr := rfl) (idx := none)

/-- A block of an update is written. -/
theorem Chip.rowWrite_block {k : Nat} (hm : c.mayWrite w (pnum 0x38 0x020 k) = true) (hk : k < 4096) {l : List Byte} (hl : l.length = 524288) :
    c.rowWrite w (pnum 0x38 0x020 k) l = (c.blockWrite k l).1.replied w (c.blockWrite k l).2 := by
  have ha := pArea_pnum 0x38 0x020 k hk (by decide) (by decide)
  have ho := pObj_pnum 0x38 0x020 k hk (by decide)
  have h := Chip.dictWrite_whole hm (d := { ty := .blob, access := .wo, writers := wFBH, elements := 32 }) (by rw [ha, ho]; rfl)
    (l := l) (by simp [lengthOk, hl, pnum]; omega) (by simp [Chip.locked, ha]) none
  rw [Chip.rowWrite_served hm _ none, h, if_pos rfl, Chip.writeBlob, ha, ho, pElem_pnum _ _ _ hk, if_neg (by simp [pnum]; omega),
    if_neg (by simp [pnum]; omega)]
  rfl

end

/-! ### Slots and pointer records -/

@[simp] theorem Flash.slot_updSlot_self (f : Flash) (i : Nat) (g : FwSlot → FwSlot) : (f.updSlot i g).slot i = g (f.slot i) :=
  Tab.get_upd_self ..

theorem Flash.slot_updSlot_ne (f : Flash) {i j : Nat} (g : FwSlot → FwSlot) (h : j ≠ i) : (f.updSlot i g).slot j = f.slot j :=
  Tab.get_upd_ne _ _ _ h

@[simp] theorem ptrBody_length (g s : Nat) (v : Word) : (ptrBody g s v).length = 60 := by
  simp [ptrBody, Word.le, zeros]

theorem ptrField_magic (g s : Nat) (v : Word) : ptrField (ptrRecord g s v) 0 4 = 0x50544B49 := by
  simp [ptrField, ptrRecord, ptrBody, natLE_bytesLE]

theorem ptrGen_ptrRecord {g : Nat} (s : Nat) (v : Word) (hg : g < 2 ^ 32) : ptrGen (ptrRecord g s v) = g := by
  simp [ptrGen, ptrField, ptrRecord, ptrBody, natLE_bytesLE]
  omega

theorem ptrSlot_ptrRecord (g : Nat) {s : Nat} (v : Word) (hs : s ≤ 1) : ptrField (ptrRecord g s v) 8 1 = s := by
  have h : ((bytesLE 4 0x50544B49).drop 8 : List Byte) = [] := List.drop_eq_nil_of_le (by simp)
  simp [ptrField, ptrRecord, ptrBody, List.drop_append, h, natLE_bytesLE]
  omega

theorem ptrField_crc (g s : Nat) (v : Word) : ptrField (ptrRecord g s v) 60 4 = (crc32c (ptrBody g s v)).toNat := by
  have h : (crc32c (ptrBody g s v)).toNat < 2 ^ 32 := (crc32c _).isLt
  rw [ptrField, ptrRecord, List.drop_left' (ptrBody_length g s v), List.take_of_length_le (by simp), natLE_bytesLE]
  omega

/-- A pointer record that the firmware writes is valid (R476). -/
theorem ptrRecord_valid (g : Nat) {s : Nat} (v : Word) (hs : s ≤ 1) : ptrValid (ptrRecord g s v) = true := by
  have hl : (ptrRecord g s v).length = 64 := by simp [ptrRecord]
  have ht : (ptrRecord g s v).take 60 = ptrBody g s v := List.take_left' (ptrBody_length g s v)
  simp [ptrValid, hl, ht, ptrField_magic, ptrSlot_ptrRecord g v hs, ptrField_crc, hs]

theorem ptrValid_nil : ptrValid [] = false := rfl

theorem Tab.get_del_self {α : Type} (t : Tab α) (k : Nat) (d : α) : Tab.get (Tab.del t k) k d = d := by
  simp [Tab.get, Tab.get?_del_self]

theorem Tab.get_del_ne {α : Type} (t : Tab α) {j k : Nat} (d : α) (h : j ≠ k) : Tab.get (Tab.del t k) j d = Tab.get t j d := by
  simp [Tab.get, Tab.get?_del_ne t h]

/-- The location that a switch writes is the other one of the newest valid record's (R476). -/
theorem Flash.switchLocation_cases (f : Flash) :
    (f.switchLocation = 1 ∧ ptrValid (Tab.get f.ptrs 0 []) = true ∧ f.newestPtr = some (0, Tab.get f.ptrs 0 [])) ∨
    (f.switchLocation = 0 ∧ ptrValid (Tab.get f.ptrs 1 []) = true ∧ f.newestPtr = some (1, Tab.get f.ptrs 1 [])) ∨
    (f.switchLocation = 0 ∧ ptrValid (Tab.get f.ptrs 1 []) = false ∧ f.newestPtr = none) := by
  unfold Flash.switchLocation Flash.newestPtr
  dsimp only
  by_cases hg : ptrGen (Tab.get f.ptrs 1 []) ≤ ptrGen (Tab.get f.ptrs 0 []) <;>
    cases ha : ptrValid (Tab.get f.ptrs 0 []) <;> cases hb : ptrValid (Tab.get f.ptrs 1 []) <;> simp [hg]

theorem Flash.bootSlot_newest {f : Flash} {i : Nat} {r : List Byte} (h : f.newestPtr = some (i, r)) : f.bootSlot = ptrField r 8 1 := by
  rw [Flash.bootSlot, h]; rfl

theorem Flash.ptrGeneration_newest {f : Flash} {i : Nat} {r : List Byte} (h : f.newestPtr = some (i, r)) : f.ptrGeneration = ptrGen r := by
  rw [Flash.ptrGeneration, h]; rfl

/-- Erasing that location leaves the newest record as it is. -/
theorem Flash.newestPtr_erased {f g : Flash} (hg : g.ptrs = Tab.del f.ptrs f.switchLocation) : g.newestPtr = f.newestPtr := by
  obtain ⟨hl, hv, hn⟩ | ⟨hl, hv, hn⟩ | ⟨hl, hv, hn⟩ := f.switchLocation_cases <;>
    rw [hn, Flash.newestPtr, hg, hl] <;>
    simp [Tab.get_del_self, Tab.get_del_ne, ptrValid_nil, hv]

/-- A valid record of the next generation written there is the newest one. -/
theorem Flash.newestPtr_written {f g : Flash} {r : List Byte} (hg : g.ptrs = Tab.put f.ptrs f.switchLocation r)
    (hr : ptrValid r = true) (hn : ptrGen r = f.ptrGeneration + 1) : g.newestPtr = some (f.switchLocation, r) := by
  unfold Flash.ptrGeneration at hn
  obtain ⟨hl, hv, he⟩ | ⟨hl, hv, he⟩ | ⟨hl, hv, he⟩ := f.switchLocation_cases <;>
    rw [he] at hn <;> rw [Flash.newestPtr, hg, hl] <;> simp [Tab.get_put_ne, hv, hr]
  · simp at hn; omega
  · simp at hn; omega

/-! ### The commands and their ends -/

section
variable {s : State} {w : Writer} {k : Nat} (hc : s.chip.calm = true) (hm : s.chip.mayWrite w (pnum 0x38 0x021 0) = true)
include hc hm

/-- A command of P38.021 that leaves the chip `d` with status 0 completes with it and the reply. -/
theorem updateCommand_completes {i : Instr} {x : Nat} {d : Chip} {p : Chip → Prop} (h1 : 1 ≤ x) (h4 : x ≤ 4)
    (hi : exec i s = s.runAny fun c => c.numWrite w 0x38 0x021 0 1 x) (hx : s.chip.updateCommand x = (d, 0))
    (hd : d.calm = s.chip.calm) (hp : p (d.replied w 0)) : Completes i s p := by
  have hn := Chip.numWrite_update hm h1 h4
  rw [hx] at hn
  refine .of_runAny hi ?_ ?_ <;> rw [hn]
  · rw [Chip.replied_calm, hd, hc]
  · exact hp

end

theorem Chip.beginUpdate_starts {c : Chip} (hr : c.runsOther = false) (h3 : c.fw.updateState ≠ 3) (h7 : c.fw.updateState ≠ 7)
    (ho : c.flash.op = none) : c.beginUpdate =
      (({ c with flash := { (c.flash.updSlot c.otherSlot fun _ => { state := 1 }) with op := some .erase } } : Chip).update 1
        c.fw.updateResult, 0) := by
  simp [Chip.beginUpdate, hr, h3, h7, ho]

theorem Chip.verifyUpdate_starts {c : Chip} (h2 : c.fw.updateState = 2) : c.verifyUpdate =
    (({ c with fw := { c.fw with verifying := true } } : Chip).update 3 c.fw.updateResult, 0) := by
  simp [Chip.verifyUpdate, h2]

theorem Chip.blockWrite_starts {c : Chip} (h2 : c.fw.updateState = 2) (ho : c.flash.op = none) (k : Nat) (l : List Byte) :
    c.blockWrite k l = ({ c with flash := { c.flash with op := some .block, blockJob := some (k, l) } }, 0) := by
  simp [Chip.blockWrite, h2, ho]

theorem Chip.switchSlot_starts {c : Chip} (h4 : c.fw.updateState = 4) (hs : (c.flash.slot c.otherSlot).state = 2)
    (ho : c.flash.op = none) (hg : c.flash.ptrGeneration < 0xFFFFFFFE) : c.switchSlot =
      (({ c with
        flash := { c.flash with ptrs := Tab.del c.flash.ptrs c.flash.switchLocation, op := some .switch }
        fw := { c.fw with switchTo := some c.otherSlot } } : Chip).update 5 c.fw.updateResult, 0) := by
  simp [Chip.switchSlot, h4, hs, ho, Nat.not_le.mpr hg]

theorem Chip.activate_starts {c : Chip} (h6 : c.fw.updateState = 6) (hu : c.clusterUp 4 = true) : c.activate =
    (Chip.clusterDown (({ c with fw := { c.fw with activate := [4, 5, 3, 2, 1, 0] } } : Chip).update 7 0) 4 1, 0) := by
  have hu' : Chip.clusterUp (({ c with fw := { c.fw with activate := [4, 5, 3, 2, 1, 0] } } : Chip).update 7 0) 4 = true := hu
  rw [Chip.activate, if_neg (by simp [h6]), Chip.activateNext]
  exact congrArg (·, 0) (if_pos hu')

theorem Chip.beginDone_ends {c : Chip} (ho : c.flash.op = some .erase) (ok : Bool) : c.beginDone ok =
    ({ c with flash := { c.flash with op := none } } : Chip).update (if ok then 2 else 8) (if ok then 0 else 0x0C) := by
  cases ok <;> simp [Chip.beginDone, ho]

theorem Chip.blockDone_ends {c : Chip} {k : Nat} {l : List Byte} (hj : c.flash.blockJob = some (k, l)) :
    c.blockDone true = ({ c with
      flash := ({ c.flash with op := none, blockJob := none } : Flash).updSlot c.otherSlot fun s =>
        { s with blocks := Tab.put s.blocks k l } } : Chip).update c.fw.updateState 0 ∧
    c.blockDone false = ({ c with flash := { c.flash with op := none, blockJob := none } } : Chip).update 8 0x0C := by
  simp only [Chip.blockDone, hj]
  exact ⟨rfl, rfl⟩

theorem Chip.verifyDone_ends {c : Chip} (hv : c.fw.verifying = true) : c.verifyDone =
    ({ c with fw := { c.fw with verifying := false }, flash := c.flash.updSlot c.otherSlot FwSlot.checked } : Chip).update
      (if (c.flash.slot c.otherSlot).checked.state = 2 then 4 else 8) (if (c.flash.slot c.otherSlot).checked.state = 2 then 0 else 0x0D) := by
  rw [Chip.verifyDone, if_neg (by simp [hv])]
  dsimp only
  rw [show Chip.otherSlot { c with fw := { c.fw with verifying := false }, flash := c.flash.updSlot c.otherSlot FwSlot.checked } =
    c.otherSlot from rfl, Flash.slot_updSlot_self]
  split <;> rfl

theorem Chip.switchDone_ends {c : Chip} {k : Nat} (hs : c.fw.switchTo = some k) :
    c.switchDone true = ({ c with
      flash := { c.flash with op := none, ptrs := Tab.put c.flash.ptrs c.flash.switchLocation (ptrRecord (c.flash.ptrGeneration + 1) k (c.flash.slot k).version) }
      fw := { c.fw with switchTo := none, bootSlot := k } } : Chip).update 6 0 ∧
    c.switchDone false = ({ c with flash := { c.flash with op := none }, fw := { c.fw with switchTo := none } } : Chip).update 8 0x0C := by
  simp only [Chip.switchDone, hs]
  exact ⟨rfl, rfl⟩

/-- Settles O10: each command and each end by the equation of its operation; the records by `Flash.newestPtr_erased` and
`Flash.newestPtr_written`. -/
theorem updatesFillAndNameTheOtherSlot : Obligations.UpdatesFillAndNameTheOtherSlot := by
  refine ⟨fun s w hc => ⟨fun hm hr h3 h7 ho => ?_, fun ok ho => ?_, fun k l hm hk hl h2 ho => ?_, fun k l hj => ⟨?_, ?_⟩, fun hm h2 => ?_,
    fun hv => ?_⟩, fun s w hc => ⟨fun hm h4 hs ho hg => ?_, fun k hs hk hg => ?_, fun k hs => ?_, fun hm h6 hu => ?_⟩⟩
  · refine updateCommand_completes hc hm (by omega) (by omega) (exec_beginUpdate ..) (Chip.beginUpdate_starts hr h3 h7 ho) rfl ?_
    simp [Chip.update, Flash.slot, Flash.updSlot]
  · refine .of_runAny (exec_beginComplete ..) ?_ ?_ <;> rw [Chip.beginDone_ends ho]
    · exact hc
    · exact ⟨rfl, rfl, rfl⟩
  · have hn := Chip.rowWrite_block hm hk hl
    rw [Chip.blockWrite_starts h2 ho] at hn
    refine .of_runAny (exec_updateBlock ..) ?_ ?_ <;> rw [if_pos hk, hn]
    · exact (Chip.replied_calm ..).trans hc
    · simp
  · refine .of_runAny (exec_updateBlockComplete ..) ?_ ?_ <;> rw [(Chip.blockDone_ends hj).1]
    · exact hc
    · exact ⟨by simp [Chip.update, Flash.slot, Flash.updSlot], rfl, rfl⟩
  · refine .of_runAny (exec_updateBlockComplete ..) ?_ ?_ <;> rw [(Chip.blockDone_ends hj).2]
    · exact hc
    · exact ⟨rfl, rfl, rfl, rfl⟩
  · refine updateCommand_completes hc hm (by omega) (by omega) (exec_verify ..) (Chip.verifyUpdate_starts h2) rfl ?_
    simp [Chip.update]
  · refine .of_runAny (exec_verifyComplete ..) ?_ ?_ <;> rw [Chip.verifyDone_ends hv]
    · exact hc
    · exact ⟨Flash.slot_updSlot_self .., rfl, rfl⟩
  · refine updateCommand_completes hc hm (by omega) (by omega) (exec_switch ..) (Chip.switchSlot_starts h4 hs ho hg) rfl ?_
    simp [Chip.update, Tab.get?_del_self, Flash.bootSlot, Flash.newestPtr_erased (f := s.chip.flash)]
  · have hv := ptrRecord_valid (s.chip.flash.ptrGeneration + 1) (s.chip.flash.slot k).version hk
    have hn : ptrGen (ptrRecord (s.chip.flash.ptrGeneration + 1) k (s.chip.flash.slot k).version) = s.chip.flash.ptrGeneration + 1 :=
      ptrGen_ptrRecord k _ (by omega)
    refine .of_runAny (exec_switchComplete ..) ?_ ?_ <;> rw [(Chip.switchDone_ends hs).1]
    · exact hc
    · have hw := Flash.newestPtr_written (f := s.chip.flash) (g := { s.chip.flash with
        op := none, ptrs := Tab.put s.chip.flash.ptrs s.chip.flash.switchLocation _ }) rfl hv hn
      exact ⟨by rw [← hv]; exact congrArg ptrValid (Tab.get_put_self ..), (Flash.bootSlot_newest hw).trans (ptrSlot_ptrRecord _ _ hk), rfl,
        (Flash.ptrGeneration_newest hw).trans hn, rfl, rfl, rfl⟩
  · refine .of_runAny (exec_switchComplete ..) ?_ ?_ <;> rw [(Chip.switchDone_ends hs).2]
    · exact hc
    · exact ⟨rfl, rfl, rfl, rfl⟩
  · refine updateCommand_completes hc hm (by omega) (by omega) (exec_activate ..) (Chip.activate_starts h6 hu) ?_ ?_
    · simp
    · simp [Chip.clusterDown, Chip.update]

end Sys2Proof.Machine
end


section
/-! Saves and calibration (R51, R70, R71). -/

set_option Elab.async false

namespace Sys2Proof.Machine

/-! ### A command of any value -/

section
variable {c : Chip} {w : Writer} {a o e : Nat} (hm : c.mayWrite w (pnum a o e) = true) (he : e < 4096)
include hm he

/-- A row of an unlocked command parameter: it is no value of the type, or is refused, or the command runs and is answered. -/
theorem Chip.numWrite_command_cases (ho : o < 4096 := by decide) (ha : a < 256 := by decide) {d : Desc} (hd : desc c.variant a o = some d)
    (hw : d.access = .wo) (ht : d.ty ≠ .blob) {x : Nat} (hl : c.locked w d (pnum a o e) (some x) = false)
    (hk : keepBits a o x = x) (idx : Option CtlIndices) :
    c.numWrite w a o e d.ty.size x idx = c ∨ c.numWrite w a o e d.ty.size x idx = c.replied w 7 ∨
    c.numWrite w a o e d.ty.size x idx = (c.command a o e x []).1.replied w (c.command a o e x []).2 := by
  by_cases hx : x < 256 ^ d.ty.size
  · rw [Chip.numWrite_served hm he ho ha hd ht hx hl idx]
    simp only [Chip.writeNumber, pElem_pnum a o e he, pObj_pnum a o e he ho, pArea_pnum a o e he ho ha, hk, hw]
    split
    · exact .inr (.inl rfl)
    · exact .inr (.inr rfl)
  · exact .inl (if_neg fun h => hx h.2)

/-- So a command that does nothing leaves what a reply leaves. -/
theorem Chip.numWrite_idle (ho : o < 4096 := by decide) (ha : a < 256 := by decide) {d : Desc} (hd : desc c.variant a o = some d)
    (hw : d.access = .wo) (ht : d.ty ≠ .blob) {x : Nat} (hl : c.locked w d (pnum a o e) (some x) = false)
    (hk : keepBits a o x = x) (idx : Option CtlIndices) (hx : (c.command a o e x []).1 = c) :
    c.numWrite w a o e d.ty.size x idx = c ∨ ∃ k, c.numWrite w a o e d.ty.size x idx = c.replied w k := by
  obtain h | h | h := Chip.numWrite_command_cases hm he ho ha hd hw ht hl hk idx
  · exact .inl h
  · exact .inr ⟨_, h⟩
  · exact .inr ⟨_, by rw [h, hx]⟩

end

/-! ### The two commands -/

section
variable {s : State} {w : Writer} (hc : s.chip.calm = true)
include hc

/-- A flash command of area 01 that is no 1 leaves the flash as it is. -/
theorem flashCommand_other {i : Instr} {o v : Nat} (ho : o = 0x010 ∨ o = 0x070) (hm : s.chip.mayWrite w (pnum 0x01 o 0) = true)
    (hi : exec i s = s.runAny fun c => c.numWrite w 0x01 o 0 1 v) (hv : v ≠ 1) : Completes i s fun c => c.flash = s.chip.flash := by
  have h : s.chip.numWrite w 0x01 o 0 1 v = s.chip ∨ ∃ k, s.chip.numWrite w 0x01 o 0 1 v = s.chip.replied w k := by
    obtain rfl | rfl := ho
    · exact Chip.numWrite_idle hm (by omega) (d := { ty := .bool, access := .wo, writers := wFBH, elements := 1 }) (hd := rfl) (hw := rfl) (ht := by decide) (hl := rfl) (hk := rfl)
        (idx := none) (hx := by rw [Chip.command, if_neg hv])
    · exact Chip.numWrite_idle hm (by omega) (d := { ty := .bool, access := .wo, writers := wFBH, elements := 1 }) (hd := rfl) (hw := rfl) (ht := by decide) (hl := rfl) (hk := rfl)
        (idx := none) (hx := by rw [Chip.command, if_neg hv])
  obtain h | ⟨k, h⟩ := h <;> refine .of_runAny hi ?_ ?_ <;> rw [h] <;> simp [hc]

/-- SAVE of a 1 is executed and answered. -/
theorem save_completes (hm : s.chip.mayWrite w (pnum 0x01 0x010 0) = true) {d : Chip} {k : Nat} {p : Chip → Prop}
    (hx : s.chip.saveStart = (d, k)) (hd : d.calm = s.chip.calm) (hp : p (d.replied w k)) : Completes (.save w 1) s p := by
  have h := Chip.numWrite_command hm (by omega) (d := { ty := .bool, access := .wo, writers := wFBH, elements := 1 }) (hd := rfl) (hw := rfl) (ht := by decide) (x := 1) (hx := by decide)
    (hl := rfl) (hk := rfl) (hv := rfl) (hr := rfl) (idx := none)
  rw [Chip.command, if_pos rfl, hx] at h
  refine .of_runAny (exec_save ..) ?_ ?_
  · exact (congrArg Chip.calm h).trans ((Chip.replied_calm ..).trans (hd.trans hc))
  · exact h ▸ hp

/-- CALIBRATION_STORE of a 1 is executed and answered. -/
theorem calibrationStore_completes (hm : s.chip.mayWrite w (pnum 0x01 0x070 0) = true) {d : Chip} {k : Nat} {p : Chip → Prop}
    (hx : s.chip.calStore = (d, k)) (hd : d.calm = s.chip.calm) (hp : p (d.replied w k)) : Completes (.calibrationStore w 1) s p := by
  have h := Chip.numWrite_command hm (by omega) (d := { ty := .bool, access := .wo, writers := wFBH, elements := 1 }) (hd := rfl) (hw := rfl) (ht := by decide) (x := 1) (hx := by decide)
    (hl := rfl) (hk := rfl) (hv := rfl) (hr := rfl) (idx := none)
  rw [Chip.command, if_pos rfl, hx] at h
  refine .of_runAny (exec_calibrationStore ..) ?_ ?_
  · exact (congrArg Chip.calm h).trans ((Chip.replied_calm ..).trans (hd.trans hc))
  · exact h ▸ hp

end

/-! ### Starts and ends -/

theorem Chip.saveStart_starts {c : Chip} (ho : c.flash.op = none)
    (hg : ((c.flash.newestBank.map fun r => r.2.generation).getD 0) < 0xFFFFFFFE) : c.saveStart =
      ({ c with flash := { c.flash with
        op := some .save, saveState := 1
        saveJob := some (c.flash.saveBank, c.snapshot (((c.flash.newestBank.map fun r => r.2.generation).getD 0) + 1))
        banks := Tab.put c.flash.banks c.flash.saveBank Bank.init } }, 0) := by
  simp [Chip.saveStart, ho, Nat.not_le.mpr hg]

theorem Chip.saveStart_busy {c : Chip} (ho : c.flash.op ≠ none) : c.saveStart = (c, 3) :=
  if_pos (Option.isSome_iff_ne_none.mpr ho)

theorem Chip.calStore_starts {c : Chip} (ho : c.flash.op = none) : c.calStore =
    ({ c with flash := { c.flash with
      op := some .calStore, calState := if c.flash.calState = 2 then 2 else 1
      calJob := some (Tab.keep c.dict.active fun n _ => pArea n == 0x02) } }, 0) := by
  simp [Chip.calStore, ho]

theorem Chip.calStore_busy {c : Chip} (ho : c.flash.op ≠ none) : c.calStore = (c, 3) :=
  if_pos (Option.isSome_iff_ne_none.mpr ho)

/-- A condition that goes changes the fault state alone, and nothing waits for that. -/
theorem Chip.setCond_off (c : Chip) (u k sk sub : Nat) :
    ∃ t, c.setCond u k false sk sub = { c with flt := { c.flt with sources := t } } := by
  unfold Chip.setCond Chip.setSrc
  dsimp only
  repeat' split
  all_goals first | exact ⟨_, rfl⟩ | contradiction

theorem Chip.calStored_ends {c : Chip} {t : Tab Nat} (hj : c.flash.calJob = some t) :
    ∃ x, c.calStored = { c with
      flash := { c.flash with op := none, calJob := none, calArea := some t, calState := 0 }, flt := { c.flt with sources := x } } := by
  unfold Chip.calStored
  rw [hj]
  exact Chip.setCond_off ..

/-! ### The image -/

/-- The number is of the form of a dictionary number. -/
abbrev plainNumber (n : Nat) : Prop := pnum (pArea n) (pObj n) (pElem n) = n

theorem plainNumber_pnum (a o e : Nat) (h : e < 4096) (ho : o < 4096) (ha : a < 256) : plainNumber (pnum a o e) := by
  rw [plainNumber, pArea_pnum a o e h ho ha, pObj_pnum a o e h ho, pElem_pnum a o e h]

/-- Storing values that are a function of the number leaves that value in each number of the list. -/
theorem Chip.param_foldl_setParam (g : Nat → Nat) {n : Nat} (hn : plainNumber n) (l : List Nat) (hl : ∀ m ∈ l, plainNumber m) (c : Chip)
    (h : n ∈ l ∨ c.param (pArea n) (pObj n) (pElem n) = g n) :
    (l.foldl (fun c n => c.setParam (pArea n) (pObj n) (pElem n) (g n)) c).param (pArea n) (pObj n) (pElem n) = g n := by
  induction l generalizing c with
  | nil => simpa using h
  | cons m l ih =>
    refine ih (fun k hk => hl k (List.mem_cons_of_mem _ hk)) _ ?_
    by_cases e : m = n
    · subst e
      exact .inr (Chip.param_setParam_self ..)
    · have hne : pnum (pArea n) (pObj n) (pElem n) ≠ pnum (pArea m) (pObj m) (pElem m) := by
        rw [hn, hl m List.mem_cons_self]; exact Ne.symm e
      refine h.imp (fun h => (List.mem_cons.mp h).resolve_left (Ne.symm e)) fun h => ?_
      rw [Chip.param_setParam_ne _ _ hne, h]

theorem Chip.setParam_foldl_out (g : Nat → Nat) (l : List Nat) (c : Chip) :
    (l.foldl (fun c n => c.setParam (pArea n) (pObj n) (pElem n) (g n)) c).out = c.out := by
  induction l generalizing c with
  | nil => rfl
  | cons m l ih => exact ih _

theorem mem_calNumbers {n : Nat} : n ∈ calNumbers ↔
    (∃ i < 120, pnum 0x02 0x010 i = n ∨ pnum 0x02 0x011 i = n) ∨ ∃ i < 16, pnum 0x02 0x020 i = n ∨ pnum 0x02 0x021 i = n := by
  simp only [calNumbers, List.mem_append, List.mem_map, List.mem_range]
  grind

/-- The descriptor of an element of area 02. -/
theorem descOf_cal {v : Variant} {o e : Nat} {d : Desc} (he : e < 4096) (ho : o < 4096) (hd : desc v 0x02 o = some d)
    (hx : e < d.elements) : descOf v (pnum 0x02 o e) = some d := by
  rw [descOf, pArea_pnum _ o e he ho (by decide), pObj_pnum _ o e he ho, pElem_pnum _ o e he, hd]
  exact if_pos (by simp [elementExists, hx])

theorem calNumbers_plain : ∀ m ∈ calNumbers, plainNumber m := by
  intro m hm
  obtain ⟨i, hi, rfl | rfl⟩ | ⟨i, hi, rfl | rfl⟩ := mem_calNumbers.mp hm <;>
    exact plainNumber_pnum _ _ _ (by omega) (by decide) (by decide)

section
variable {c : Chip} {l : List Byte} (hs : Config.calImageSerial l = c.serial)
include hs

/-- An image made for this die that fails its form or check answers 0x0D. -/
theorem Chip.calImageWrite_bad (hf : (Config.calImageFormat l && Config.calImageCheck l) = false) : c.calImageWrite l = (c, 0x0D) := by
  rw [Chip.calImageWrite, if_neg (by simp [hs]), if_pos (by rw [← Bool.not_and, hf]; rfl)]

/-- An image of the right form and check made for this die replaces the working copy. -/
theorem Chip.calImageWrite_good (hf : (Config.calImageFormat l && Config.calImageCheck l) = true) {a o e : Nat}
    (hn : pnum a o e ∈ calNumbers) (he : e < 4096) (ho : o < 4096) (ha : a < 256) {d : Desc} (hd : descOf c.variant (pnum a o e) = some d) :
    (c.calImageWrite l).1.param a o e = Config.calImageValue l (pnum a o e) % 2 ^ (8 * d.ty.size) := by
  rw [Chip.calImageWrite, if_neg (by simp [hs]), if_neg (by rw [← Bool.not_and, hf]; decide)]
  have h := Chip.param_foldl_setParam (fun n => Config.calImageValue l n % 2 ^ ((descOf c.variant n).map fun d => 8 * d.ty.size).getD 0)
    (calNumbers_plain _ hn) calNumbers calNumbers_plain c (.inl hn)
  rw [pArea_pnum a o e he ho ha, pObj_pnum a o e he ho, pElem_pnum a o e he] at h
  dsimp only
  rw [h, hd, Option.map_some, Option.getD_some]

theorem Chip.calImageWrite_out (hf : (Config.calImageFormat l && Config.calImageCheck l) = true) :
    (c.calImageWrite l).1.out = c.out ∧ (c.calImageWrite l).2 = 0 := by
  rw [Chip.calImageWrite, if_neg (by simp [hs]), if_neg (by rw [← Bool.not_and, hf]; decide)]
  exact ⟨Chip.setParam_foldl_out .., rfl⟩

end

theorem Chip.calImageWrite_other {c : Chip} {l : List Byte} (hs : Config.calImageSerial l ≠ c.serial) : c.calImageWrite l = (c, 0x0B) :=
  if_pos hs

/-- An image of 1 to 524,288 octets is written and answered. -/
theorem Chip.rowWrite_calImage {c : Chip} {w : Writer} (hm : c.mayWrite w (pnum 0x02 0x001 0) = true) {l : List Byte} (h1 : 1 ≤ l.length)
    (h5 : l.length ≤ 524288) : c.rowWrite w (pnum 0x02 0x001 0) l = (c.calImageWrite l).1.replied w (c.calImageWrite l).2 := by
  have h := Chip.dictWrite_whole hm (d := { ty := .blob, access := .rw, writers := wFBH, elements := 1 }) rfl (l := l)
    (by simp [lengthOk, pnum, pArea]; omega) rfl none
  rw [Chip.rowWrite_served hm _ none, h]
  rfl

theorem calibrationImageWrite_completes {s : State} {w : Writer} (hs : s.serving) {l : List Byte}
    (hm : s.chip.mayWrite w (pnum 0x02 0x001 0) = true) (h1 : 1 ≤ l.length) (h5 : l.length ≤ 524288) {p : Chip → Prop}
    (hp : p ((s.chip.calImageWrite l).1.replied w (s.chip.calImageWrite l).2)) : Completes (.calibrationImageWrite w l) s p := by
  refine .of_runAny (exec_calibrationImageWrite ..) ?_ ?_ <;> rw [Chip.rowWrite_calImage hm h1 h5]
  · rw [Chip.replied_calm, Chip.calImageWrite_calm, hs.2]
  · exact hp

/-- Settles O17: each command by the equation of its start or end; the image by `Chip.param_foldl_setParam`. -/
theorem savesAndCalibrationAreKept : Obligations.SavesAndCalibrationAreKept := by
  refine ⟨fun s w hs => ⟨fun hm ho hg => ?_, fun hm ho => ?_, fun v hm hv => ?_, fun b x hj => ?_, fun b x hj => ?_⟩,
    fun s w hs => ⟨fun hm ho => ?_, fun hm ho => ?_, fun v hm hv => ?_, fun t hj => ?_, fun l hm h1 h5 hd => ?_,
      fun l hm h1 h5 hd => ?_⟩⟩
  · exact save_completes hs.2 hm (Chip.saveStart_starts ho hg) rfl
      (by simpa [Bank.init] using fun b hb => Tab.get?_put_ne s.chip.flash.banks Bank.init hb)
  · exact save_completes hs.2 hm (Chip.saveStart_busy ho) rfl (by simp)
  · exact flashCommand_other hs.2 (.inl rfl) hm (exec_save ..) hv
  · refine .of_runAny (exec_saveComplete ..) ?_ ?_ <;> simp only [Chip.saveDone, hj]
    · exact hs.2
    · simp
  · refine .of_runAny (exec_saveComplete ..) ?_ ?_ <;> simp only [Chip.saveDone, hj]
    · exact hs.2
    · simp
  · exact calibrationStore_completes hs.2 hm (Chip.calStore_starts ho) rfl (by simp)
  · exact calibrationStore_completes hs.2 hm (Chip.calStore_busy ho) rfl (by simp)
  · exact flashCommand_other hs.2 (.inr rfl) hm (exec_calibrationStore ..) hv
  · obtain ⟨x, h⟩ := Chip.calStored_ends hj
    refine .of_runAny (exec_calibrationStoreComplete ..) ?_ ?_ <;> rw [h]
    · exact hs.2
    · exact ⟨rfl, rfl, rfl, rfl⟩
  · refine calibrationImageWrite_completes hs hm h1 h5 ?_
    split
    case isTrue hf =>
      obtain ⟨ho, hk⟩ := Chip.calImageWrite_out hd hf
      refine ⟨fun i hi => ⟨?_, ?_⟩, fun i hi => ⟨?_, ?_⟩, by simp [ho, hk]⟩ <;> rw [Chip.replied_param]
      · exact Chip.calImageWrite_good hd hf (mem_calNumbers.mpr (.inl ⟨i, hi, .inl rfl⟩)) (by omega) (by omega) (by omega)
          (d := { ty := .u32, access := .rw, writers := wFBH, elements := 120, table := true }) (descOf_cal (by omega) (by omega) rfl (by simpa))
      · exact Chip.calImageWrite_good hd hf (mem_calNumbers.mpr (.inl ⟨i, hi, .inr rfl⟩)) (by omega) (by omega) (by omega)
          (d := { ty := .u8, access := .rw, writers := wFBH, elements := 120, table := true }) (descOf_cal (by omega) (by omega) rfl (by simpa))
      · exact Chip.calImageWrite_good hd hf (mem_calNumbers.mpr (.inr ⟨i, hi, .inl rfl⟩)) (by omega) (by omega) (by omega)
          (d := { ty := .s16, access := .rw, writers := wFBH, elements := 16, table := true }) (descOf_cal (by omega) (by omega) rfl (by simpa))
      · exact Chip.calImageWrite_good hd hf (mem_calNumbers.mpr (.inr ⟨i, hi, .inr rfl⟩)) (by omega) (by omega) (by omega)
          (d := { ty := .s16, access := .rw, writers := wFBH, elements := 16, table := true }) (descOf_cal (by omega) (by omega) rfl (by simpa))
    case isFalse hf =>
      rw [Chip.calImageWrite_bad hd (by simpa using hf)]
      simp
  · refine calibrationImageWrite_completes hs hm h1 h5 ?_
    rw [Chip.calImageWrite_other hd]
    simp

end Sys2Proof.Machine
end


section
/-! Occurrences that leave nothing to carry out (R454, R455): what they leave as it was, and what they note. -/

set_option Elab.async false

namespace Sys2Proof.Machine

/-! ### Reports that note -/

/-- `d` differs from `c` by reports: which units are in reset or held stays, no PEND is lost, and outputs stand behind those of `c`. -/
structure Chip.Reported (c d : Chip) : Prop where
  only : Chip.OnlyReports c d
  inReset : d.flt.inReset = c.flt.inReset
  heldUnits : d.flt.heldUnits = c.flt.heldUnits
  pend : ∀ u k, (c.src u k).pend = true → (d.src u k).pend = true
  out : c.out <+: d.out

theorem Chip.Reported.refl (c : Chip) : c.Reported c := ⟨.refl c, rfl, rfl, fun _ _ h => h, List.prefix_rfl⟩

theorem Chip.Reported.trans {c d e : Chip} (h : c.Reported d) (k : d.Reported e) : c.Reported e :=
  ⟨h.only.trans k.only, k.inReset.trans h.inReset, k.heldUnits.trans h.heldUnits, fun u n p => k.pend u n (h.pend u n p), h.out.trans k.out⟩

/-- What reports without touching the fault collector. -/
theorem Chip.Reported.of_announces {c d : Chip} (ho : Chip.OnlyReports c d) (ha : c.Announces d) : c.Reported d :=
  ⟨ho, by rw [ha.flt], by rw [ha.flt], fun u k h => by rw [Chip.src, ha.flt]; exact h, ha.out⟩

/-- Where `d` leaves nothing to carry out, it differs from `c` by reports. -/
def Chip.Notes (c d : Chip) : Prop := d.calm = true → c.Reported d

theorem Chip.Notes.refl (c : Chip) : c.Notes c := fun _ => .refl c

theorem Chip.Notes.of_reported {c d : Chip} (h : c.Reported d) : c.Notes d := fun _ => h

theorem Chip.Notes.trans {c d e : Chip} (h : c.Notes d) (k : d.Notes e) : c.Notes e := fun he =>
  have hk := k he
  (h (hk.only.calm ▸ he)).trans hk

theorem Chip.Notes.foldl {α : Type} {g : Chip → α → Chip} (hg : ∀ (c : Chip) a, c.Notes (g c a)) (l : List α) (c : Chip) :
    c.Notes (l.foldl g c) := by
  induction l generalizing c with
  | nil => exact .refl c
  | cons a l ih => exact (hg c a).trans (ih (g c a))

theorem Chip.Notes.ite {c a b : Chip} {p : Prop} [Decidable p] (ha : c.Notes a) (hb : c.Notes b) : c.Notes (if p then a else b) := by
  split <;> assumption

/-! ### Occurrences -/

/-- Setting a source's row keeps every other one. -/
theorem Chip.src_setSrc_self (c : Chip) (u k : Nat) (s : Source) : (c.setSrc u k s).src u k = s :=
  Tab.get_set_self c.flt.sources (srcKey u k) s Source.init

theorem Chip.src_setSrc_ne (c : Chip) {u k v j : Nat} (s : Source) (h : srcKey v j ≠ srcKey u k) : (c.setSrc u k s).src v j = c.src v j :=
  Tab.get_set_ne c.flt.sources s Source.init h

theorem Chip.src_setSrc (c : Chip) (u k v j : Nat) (s : Source) :
    (c.setSrc u k s).src v j = if srcKey v j = srcKey u k then s else c.src v j := by
  split
  · rename_i h
    unfold Chip.src
    rw [h]
    exact Chip.src_setSrc_self c u k s
  · exact c.src_setSrc_ne s ‹_›

/-- A source's row set with PEND not lost only reports. -/
theorem Chip.setSrc_reported (c : Chip) (u k : Nat) (s : Source) (h : (c.src u k).pend = true → s.pend = true) :
    c.Reported (c.setSrc u k s) := by
  refine ⟨c.setSrc_reports .., rfl, rfl, fun v j hp => ?_, List.prefix_rfl⟩
  rw [Chip.src_setSrc]
  split
  · rename_i e
    refine h ?_
    unfold Chip.src at hp ⊢
    rwa [← e]
  · exact hp

theorem Faults.foldl_close_held (l : List Record) (f : Faults) :
    (l.foldl Faults.close f).inReset = f.inReset ∧ (l.foldl Faults.close f).heldUnits = f.heldUnits := by
  induction l generalizing f with
  | nil => exact ⟨rfl, rfl⟩
  | cons r l ih => exact ih (f.close r)

theorem Chip.enterRecord_reported (c : Chip) (unit cause skind subject : Nat) (d0 d1 : Word) :
    c.Reported (c.enterRecord unit cause skind subject d0 d1) := by
  obtain ⟨hs, -, ho⟩ := c.enterRecord_frame unit cause skind subject d0 d1
  have hk : c.kerfClose.flt.inReset = c.flt.inReset ∧ c.kerfClose.flt.heldUnits = c.flt.heldUnits := Faults.foldl_close_held ..
  refine ⟨c.enterRecord_reports .., ?_, ?_, fun u k h => by rw [Chip.src, hs]; exact h, ho ▸ List.prefix_rfl⟩
  · rw [← hk.1]
    unfold Chip.enterRecord
    dsimp only
    split <;> split <;> rfl
  · rw [← hk.2]
    unfold Chip.enterRecord
    dsimp only
    split <;> split <;> rfl

theorem Chip.eventPFs_reported (c : Chip) (code unit qn detail : Nat) : c.Reported (c.eventPFs code unit qn detail) :=
  .of_announces (c.eventPFs_reports ..) (c.eventPFs_announces ..)

theorem Chip.routeFault_reported (c : Chip) : c.Reported c.routeFault := .of_announces c.routeFault_reports c.routeFault_announces

theorem Chip.urgentAll_reported (c : Chip) : c.Reported c.urgentAll := .of_announces c.urgentAll_reports c.urgentAll_announces

theorem Chip.emit_reported (c : Chip) (o : Output) : c.Reported (c.emit o) := .of_announces (c.emit_reports o) (c.emit_announces o)

theorem Chip.postEvent_reported (c : Chip) (fn code unit qn detail : Nat) : c.Reported (c.postEvent fn code unit qn detail) :=
  .of_announces (c.postEvent_reports ..) (c.postEvent_announces ..)

theorem Chip.bump_announces (c : Chip) (u : Nat) (k : Ctr) (n : Nat) : c.Announces (c.bump u k n) :=
  .ite (.refl c) ⟨rfl, rfl, List.prefix_rfl⟩

theorem Chip.bump_reported (c : Chip) (u : Nat) (k : Ctr) (n : Nat) : c.Reported (c.bump u k n) :=
  .of_announces (c.bump_reports u k n) (c.bump_announces u k n)

/-- Reaction 3 in a unit that is neither in reset nor held leaves something to carry out. -/
theorem Chip.reaction3_due (c : Chip) {unit : Nat} (cause : Nat) (pended : Bool) (h : c.unitStopped unit = false) :
    (c.reaction3 unit cause pended).flt.due ≠ [] := by
  unfold Chip.reaction3
  extract_lets c1 c2 c3 c4 c5
  have h1 : c1.flt = c.flt := by
    simp only [c1]
    split
    · rfl
    · exact (c.eventPFs_announces ..).flt
  rw [if_neg (by rw [h1]; exact Bool.eq_false_iff.mp h)]
  split <;> exact List.append_ne_nil_of_right_ne_nil _ (List.cons_ne_nil _ _)

/-- A reaction in a unit that is neither in reset nor held notes. -/
theorem Chip.react_notes (c : Chip) (unit cause skind subject : Nat) (d0 d1 : Word) (pended : Bool) (hu : c.unitStopped unit = false) :
    c.Notes (c.react unit cause skind subject d0 d1 pended) := by
  unfold Chip.react
  extract_lets ctl
  split
  case h_1 => exact .ite (.refl c) (.of_reported c.routeFault_reported)
  case h_2 => exact .ite (.refl c) (.of_reported (c.urgentAll_reported.trans (Chip.eventPFs_reported ..)))
  case h_3 => exact fun h => absurd ((Chip.calm_iff _).mp h).2.1 (c.reaction3_due cause pended hu)
  case h_4 => exact fun h => absurd ((Chip.calm_iff _).mp h).1 (by simp [Chip.reaction4])
  case h_5 => exact .refl c

theorem Chip.occurrence_notes (c : Chip) (unit cause skind subject : Nat) (d0 d1 : Word) :
    c.Notes (c.occurrence unit cause skind subject d0 d1) := by
  unfold Chip.occurrence
  split
  · exact .refl c
  · rename_i hn
    extract_lets s c1
    have h1 : c.Reported c1 := (c.setSrc_reported unit cause s.occurs fun _ => rfl).trans (Chip.enterRecord_reported ..)
    refine (Chip.Notes.of_reported h1).trans (c1.react_notes _ _ _ _ _ _ _ ?_)
    rw [Chip.unitStopped, h1.inReset, h1.heldUnits]
    simp only [Bool.or_eq_true, not_or, Bool.not_eq_true] at hn
    rw [hn.1.2, hn.2]
    rfl

theorem Chip.raise_notes (c : Chip) (unit cause skind subject : Nat) (d0 d1 : Word) : c.Notes (c.raise unit cause skind subject d0 d1) :=
  c.occurrence_notes _ _ _ _ _ _

theorem Chip.setCond_notes (c : Chip) (unit cause : Nat) (on : Bool) (skind subject : Nat) (d0 : Word) :
    c.Notes (c.setCond unit cause on skind subject d0) := by
  unfold Chip.setCond
  refine .ite (.refl c) ?_
  extract_lets s c1
  have h1 : c.Notes c1 := .of_reported (c.setSrc_reported _ _ _ fun h => h)
  exact .ite (.refl c) (.ite (h1.trans (c1.occurrence_notes _ _ _ _ _ _)) h1)

/-! ### What any occurrence leaves -/

/-- `d` differs from `c` by what an occurrence changes, whatever its reaction: reports, and the fatal record in the boot state. -/
structure Chip.Reacts (c d : Chip) : Prop where
  same : d = { c with
    flt := d.flt, funcs := d.funcs, queues := d.queues, out := d.out, ctr := d.ctr, free := d.free
    boot := { c.boot with lastFatal := d.boot.lastFatal, fatalReset := d.boot.fatalReset } }

theorem Chip.Reacts.refl (c : Chip) : c.Reacts c := ⟨rfl⟩

theorem Chip.Reacts.trans {c d e : Chip} (h : c.Reacts d) (k : d.Reacts e) : c.Reacts e := ⟨by rw [k.same, h.same]⟩

theorem Chip.Reacts.ite {c a b : Chip} {p : Prop} [Decidable p] (ha : c.Reacts a) (hb : c.Reacts b) : c.Reacts (if p then a else b) := by
  split <;> assumption

theorem Chip.OnlyReports.reacts {c d : Chip} (h : Chip.OnlyReports c d) : c.Reacts d := ⟨by rw [h.boot]; exact h.same⟩

theorem Chip.setHeld_reacts (c : Chip) (unit : Nat) (on : Bool) : c.Reacts (c.setHeld unit on) :=
  (Chip.OnlyReports.foldl (fun c _ => c.setSrc_reports ..) _ c).reacts

theorem Chip.unitHeldOccurs_reacts (c : Chip) (unit : Nat) : c.Reacts (c.unitHeldOccurs unit) := by
  unfold Chip.unitHeldOccurs
  extract_lets s c1 ctl
  have h1 : c.Reacts c1 := ((c.setSrc_reports ..).trans (Chip.enterRecord_reports ..)).reacts
  exact .ite h1 (.ite (.ite (h1.trans c1.routeFault_reports.reacts) h1)
    (.ite (h1.trans (c1.urgentAll_reports.trans (Chip.eventPFs_reports ..)).reacts) h1))

theorem Chip.reaction3_reacts (c : Chip) (unit cause : Nat) (pended : Bool) : c.Reacts (c.reaction3 unit cause pended) := by
  unfold Chip.reaction3
  extract_lets c1 c2 f3 c3 c4 c5
  have h1 : c.Reacts c1 := .ite (.refl c) (c.eventPFs_reports ..).reacts
  have h2 : c.Reacts c2 := h1.trans (c1.setHeld_reacts unit true)
  have h3 : c.Reacts c3 := h2.trans ⟨rfl⟩
  have h4 : c.Reacts c4 := .ite (h3.trans (c3.eventPFs_reports ..).reacts) h3
  have h5 : c.Reacts c5 := h4.trans (c4.unitHeldOccurs_reacts unit)
  exact .ite h1 (.ite (h5.trans ⟨rfl⟩) (h1.trans ⟨rfl⟩))

theorem Chip.reaction4_reacts (c : Chip) (unit cause skind subject : Nat) (d0 d1 : Word) :
    c.Reacts (c.reaction4 unit cause skind subject d0 d1) := by
  unfold Chip.reaction4
  dsimp only
  split <;> exact ⟨rfl⟩

theorem Chip.occurrence_reacts (c : Chip) (unit cause skind subject : Nat) (d0 d1 : Word) :
    c.Reacts (c.occurrence unit cause skind subject d0 d1) := by
  unfold Chip.occurrence
  refine .ite (.refl c) ?_
  extract_lets s c1
  have h1 : c.Reacts c1 := ((c.setSrc_reports ..).trans (Chip.enterRecord_reports ..)).reacts
  refine h1.trans ?_
  unfold Chip.react
  extract_lets ctl
  split
  case h_1 => exact .ite (.refl _) c1.routeFault_reports.reacts
  case h_2 => exact .ite (.refl _) (c1.urgentAll_reports.trans (Chip.eventPFs_reports ..)).reacts
  case h_3 => exact c1.reaction3_reacts ..
  case h_4 => exact c1.reaction4_reacts ..
  case h_5 => exact .refl _

theorem Chip.setCond_reacts (c : Chip) (unit cause : Nat) (on : Bool) (skind subject : Nat) (d0 : Word) :
    c.Reacts (c.setCond unit cause on skind subject d0) := by
  unfold Chip.setCond
  extract_lets s c1
  have h1 : c.Reacts c1 := (c.setSrc_reports ..).reacts
  exact .ite (.refl c) (.ite (.refl c) (.ite (h1.trans (c1.occurrence_reacts ..)) h1))

section
variable {c d : Chip} (h : c.Reacts d)
include h

theorem Chip.Reacts.param (a o e : Nat) : d.param a o e = c.param a o e := by rw [h.same]; rfl
theorem Chip.Reacts.variant : d.variant = c.variant := (congrArg Chip.variant h.same :)
theorem Chip.Reacts.serial : d.serial = c.serial := (congrArg Chip.serial h.same :)
theorem Chip.Reacts.flash : d.flash = c.flash := (congrArg Chip.flash h.same :)
theorem Chip.Reacts.fw : d.fw = c.fw := (congrArg Chip.fw h.same :)
theorem Chip.Reacts.dict : d.dict = c.dict := (congrArg Chip.dict h.same :)
theorem Chip.Reacts.ports : d.ports = c.ports := (congrArg Chip.ports h.same :)
theorem Chip.Reacts.fifos : d.fifos = c.fifos := (congrArg Chip.fifos h.same :)
theorem Chip.Reacts.tr : d.tr = c.tr := (congrArg Chip.tr h.same :)
theorem Chip.Reacts.mt : d.mt = c.mt := (congrArg Chip.mt h.same :)
theorem Chip.Reacts.tg : d.tg = c.tg := (congrArg Chip.tg h.same :)
theorem Chip.Reacts.co : d.co = c.co := (congrArg Chip.co h.same :)
theorem Chip.Reacts.mem : d.mem = c.mem := (congrArg Chip.mem h.same :)
theorem Chip.Reacts.br : d.br = c.br := (congrArg Chip.br h.same :)
theorem Chip.Reacts.rt : d.rt = c.rt := (congrArg Chip.rt h.same :)
theorem Chip.Reacts.links : d.links = c.links := (congrArg Chip.links h.same :)
theorem Chip.Reacts.train : d.train = c.train := (congrArg Chip.train h.same :)
theorem Chip.Reacts.lanes : d.lanes = c.lanes := (congrArg Chip.lanes h.same :)
theorem Chip.Reacts.tb : d.tb = c.tb := (congrArg Chip.tb h.same :)
theorem Chip.Reacts.pace : d.pace = c.pace := (congrArg Chip.pace h.same :)

end

/-! ### What is noted -/

/-- An occurrence that leaves nothing to carry out says of no source whether its condition is there. -/
theorem Chip.occurrence_now {c : Chip} {unit cause skind subject : Nat} {d0 d1 : Word}
    (h : (c.occurrence unit cause skind subject d0 d1).calm = true) (u k : Nat) :
    ((c.occurrence unit cause skind subject d0 d1).src u k).now = (c.src u k).now := by
  revert h
  unfold Chip.occurrence
  split
  · exact fun _ => rfl
  · extract_lets s c1
    obtain ⟨hs, -, -⟩ := (c.setSrc unit cause s.occurs).enterRecord_frame unit cause skind subject d0 d1
    intro h
    have ha := c1.react_announces unit cause skind subject d0 d1 s.pend h
    have e : (c1.react unit cause skind subject d0 d1 s.pend).src u k = (c.setSrc unit cause s.occurs).src u k := by
      unfold Chip.src
      rw [ha.flt, hs]
    rw [e, Chip.src_setSrc]
    split
    · rename_i e
      have hk : c.src u k = c.src unit cause := by unfold Chip.src; rw [e]
      rw [hk]
      rfl
    · rfl

/-- The change of a condition that leaves nothing to carry out changes no other condition. -/
theorem Chip.setCond_now_ne {c : Chip} {unit cause skind subject : Nat} {d0 : Word} {on : Bool}
    (h : (c.setCond unit cause on skind subject d0).calm = true) {u k : Nat} (hk : srcKey u k ≠ srcKey unit cause) :
    ((c.setCond unit cause on skind subject d0).src u k).now = (c.src u k).now := by
  revert h
  unfold Chip.setCond
  split
  · exact fun _ => rfl
  · extract_lets s c1
    have h1 : (c1.src u k).now = (c.src u k).now := by rw [Chip.src_setSrc_ne _ _ hk]
    split
    · exact fun _ => rfl
    · split
      · exact fun h => (Chip.occurrence_now h u k).trans h1
      · exact fun _ => h1

/-- Nothing that reports and is calm takes a note away. -/
theorem Chip.noted.of_reported {c d e : Chip} {u k : Nat} (h : d.noted c u k) (hr : d.Reported e) : e.noted c u k :=
  fun hi hh => hr.pend u k (h hi hh)

theorem Chip.noted.before {b c d : Chip} {u k : Nat} (h : d.noted c u k) (hi : c.flt.inReset = b.flt.inReset)
    (hh : c.flt.heldUnits = b.flt.heldUnits) : d.noted b u k := by
  unfold Chip.noted at *
  rwa [hi, hh] at h

theorem Chip.raise_noted {c : Chip} {unit cause skind subject : Nat} {d0 d1 : Word}
    (h : (c.raise unit cause skind subject d0 d1).calm = true) (hp : unitPresent c.variant unit = true) (hc : isCause unit cause = true) :
    (c.raise unit cause skind subject d0 d1).noted c unit cause := fun hi hh =>
  Chip.occurrence_pend h hp hc (by rw [Chip.unitStopped, hi, hh]; rfl)

/-- A condition that becomes present is noted. -/
theorem Chip.setCond_noted {c : Chip} {unit cause skind subject : Nat} {d0 : Word}
    (h : (c.setCond unit cause true skind subject d0).calm = true) (hp : unitPresent c.variant unit = true) (hc : isCause unit cause = true)
    (hn : (c.src unit cause).now = false) : (c.setCond unit cause true skind subject d0).noted c unit cause := by
  have e : c.setCond unit cause true skind subject d0 =
      (c.setSrc unit cause { c.src unit cause with now := true }).occurrence unit cause skind subject d0 0 := by
    simp [Chip.setCond, hp, hn]
  rw [e] at h ⊢
  exact fun hi hh => Chip.occurrence_pend h hp hc (by
    rw [Chip.unitStopped, show (c.setSrc unit cause _).flt.inReset = c.flt.inReset from rfl,
      show (c.setSrc unit cause _).flt.heldUnits = c.flt.heldUnits from rfl, hi, hh]
    rfl)

end Sys2Proof.Machine
end


section
/-! The AVS loop (R444, R500). -/

set_option Elab.async false

namespace Sys2Proof.Machine

theorem Chip.avsFailed_none {c : Chip} (h : c.pace.wanted = none) : c.avsFailed = c := by
  rw [Chip.avsFailed, h]

theorem Chip.avsFailed_some {c : Chip} {v : Nat} (h : c.pace.wanted = some v) :
    c.avsFailed = ({ c with pace := { c.pace with wanted := none } } : Chip).raise 0x91 0x102 0 0 := by
  rw [Chip.avsFailed, h]

/-- What the loop asks for, given the lowest reading (R444). -/
theorem Chip.avsLoop_asks {c : Chip} {p : Nat} (hu : c.clusterUp 1 = true) (hp : c.lowestPace = some p) {v : Nat}
    (hv : v = max (c.param 0x08 0x043 0) (min (c.param 0x08 0x044 0)
        (if p < c.param 0x08 0x042 0 then c.pace.request + 20
         else if p + 25 < c.param 0x08 0x041 0 then c.pace.request + 5
         else if c.param 0x08 0x041 0 + 75 < p then c.pace.request - 5 else c.pace.request))) :
    c.avsLoop = if v = c.pace.request then c else ({ c with pace := { c.pace with wanted := some v } } : Chip).emit (.avsWrite v) := by
  subst hv
  simp [Chip.avsLoop, hu, Chip.nextRequest?, hp]

theorem Chip.avsLoop_idle {c : Chip} (h : c.clusterUp 1 = false ∨ c.lowestPace = none) : c.avsLoop = c := by
  unfold Chip.avsLoop
  obtain h | h := h
  · rw [if_pos (by simp [h])]
  · split
    · rfl
    · simp [Chip.nextRequest?, h]

/-- The regulator's unit is on every variant. -/
theorem unitPresent_avs (v : Variant) : unitPresent v 0x91 = true := by cases v <;> rfl

/-- A failed write that leaves nothing to carry out leaves the request in force, and is noted. -/
theorem Chip.avsFailed_fails {c : Chip} {v : Nat} (h : c.pace.wanted = some v) (hc : c.avsFailed.calm = true) :
    c.avsFailed.pace = { c.pace with wanted := none } ∧ c.avsFailed.noted c 0x91 0x102 ∧ c.avsFailed.mem = c.mem := by
  rw [Chip.avsFailed_some h] at hc ⊢
  have hr := Chip.raise_notes _ _ _ _ _ _ _ hc
  exact ⟨hr.only.pace, (Chip.raise_noted hc (unitPresent_avs _) rfl).before rfl rfl, hr.only.mem⟩

/-- Settles O59: the loop by the equation of its request, the answers by their cases. -/
theorem avsFollowsTheLowestMonitor : Obligations.AvsFollowsTheLowestMonitor := by
  refine fun s => ⟨fun hs h => .of_idle hs (exec_avsLoop s) (Chip.avsLoop_idle h), fun p hs hu hp => ⟨fun hv => ?_, fun hv => ?_⟩,
    fun good hs hn => ⟨?_, ?_⟩, fun v hw => ⟨fun hs => ?_, fun hl => ⟨?_, ?_⟩⟩⟩
  · exact .of_idle hs (exec_avsLoop s) ((Chip.avsLoop_asks hu hp rfl).trans (if_pos hv))
  · have h := (Chip.avsLoop_asks hu hp rfl).trans (if_neg hv)
    refine .of_serving hs (exec_avsLoop s) ?_ ?_ <;> rw [h]
    · rfl
    · exact ⟨rfl, rfl, rfl⟩
  · refine .of_idle hs (exec_avsResponse ..) ?_
    simp only [Chip.avsResponse, hn]
  · exact .of_idle hs (exec_avsTimeout s) (Chip.avsFailed_none hn)
  · have h : s.chip.avsResponse true = { s.chip with pace := { s.chip.pace with request := v, wanted := none } } := by
      simp [Chip.avsResponse, hw]
    refine .of_serving hs (exec_avsResponse ..) ?_ ?_ <;> rw [h]
    · rfl
    · exact ⟨rfl, rfl⟩
  · have h : s.chip.avsResponse false = s.chip.avsFailed := by simp [Chip.avsResponse, hw]
    refine .of_run (exec_avsResponse ..) hl.1 ?_ ?_ <;> rw [h]
    · exact hl.2
    · exact Chip.avsFailed_fails hw hl.2
  · exact .of_run (exec_avsTimeout s) hl.1 hl.2 (Chip.avsFailed_fails hw hl.2)

end Sys2Proof.Machine
end


section
/-! Monitors and sensors (R443, R446, R509). -/

set_option Elab.async false

namespace Sys2Proof.Machine

/-! ### A run of conditions -/

/-- What stays of the fault collector and of what is to be carried out, whatever else changes. -/
structure Chip.HoldsNotes (c d : Chip) : Prop where
  calm : d.calm = c.calm
  inReset : d.flt.inReset = c.flt.inReset
  heldUnits : d.flt.heldUnits = c.flt.heldUnits
  pend : ∀ u k, (c.src u k).pend = true → (d.src u k).pend = true

theorem Chip.HoldsNotes.refl (c : Chip) : c.HoldsNotes c := ⟨rfl, rfl, rfl, fun _ _ h => h⟩

theorem Chip.HoldsNotes.trans {c d e : Chip} (h : c.HoldsNotes d) (k : d.HoldsNotes e) : c.HoldsNotes e :=
  ⟨k.calm.trans h.calm, k.inReset.trans h.inReset, k.heldUnits.trans h.heldUnits, fun u n p => k.pend u n (h.pend u n p)⟩

theorem Chip.Reported.holds {c d : Chip} (h : c.Reported d) : c.HoldsNotes d := ⟨h.only.calm, h.inReset, h.heldUnits, h.pend⟩

theorem Chip.noted.of_holds {c d e : Chip} {u k : Nat} (h : d.noted c u k) (hr : d.HoldsNotes e) : e.noted c u k :=
  fun hi hh => hr.pend u k (h hi hh)

section
variable {α : Type} {g : Chip → α → Chip} {u : α → Nat} {k : Nat}
  (hg : ∀ c a, (g c a).calm = true → c.HoldsNotes (g c a))
include hg

theorem Chip.HoldsNotes.foldl (l : List α) (c : Chip) (h : (l.foldl g c).calm = true) : c.HoldsNotes (l.foldl g c) := by
  induction l generalizing c with
  | nil => exact .refl c
  | cons a l ih =>
    have h1 := ih (g c a) h
    exact (hg c a (h1.calm ▸ h)).trans h1

/-- In a run over distinct units, each member's condition that was absent is noted where its own step notes it. -/
theorem foldl_noted (hn : ∀ c a b, srcKey (u b) k ≠ srcKey (u a) k → (g c a).calm = true → ((g c a).src (u b) k).now = (c.src (u b) k).now)
    (P : Chip → Prop) (hP : ∀ c a, P c → P (g c a)) (a : α)
    (hs : ∀ c, P c → (g c a).calm = true → (c.src (u a) k).now = false → (g c a).noted c (u a) k) (l : List α)
    (hl : l.Pairwise fun a b => srcKey (u a) k ≠ srcKey (u b) k) (c : Chip) (hc : P c) (h : (l.foldl g c).calm = true) (ha : a ∈ l)
    (hz : (c.src (u a) k).now = false) : (l.foldl g c).noted c (u a) k := by
  induction l generalizing c with
  | nil => contradiction
  | cons b l ih =>
    obtain ⟨hb, hl⟩ := List.pairwise_cons.mp hl
    have h1 := Chip.HoldsNotes.foldl hg l (g c b) h
    have h0 := hg c b (h1.calm ▸ h)
    obtain rfl | ha := List.mem_cons.mp ha
    · exact (hs c hc (h1.calm ▸ h) hz).of_holds h1
    · exact (ih hl (g c b) (hP c b hc) h ha ((hn c b a (hb a ha).symm (h1.calm ▸ h)).trans hz)).before h0.inReset h0.heldUnits

end

theorem srcKey_unit {u v k : Nat} (h : u ≠ v) : srcKey u k ≠ srcKey v k := by
  unfold srcKey; omega

/-! ### Monitors -/

/-- The reading of a monitor. -/
def Chip.paceReading (c : Chip) (raw : List Int) (i : Nat) : Nat := ((raw[i]?).getD 0 + c.trim 0x020 i).toNat

/-- The monitors' state after one reading. -/
def Pace.read (p : Pace) (floor i r : Nat) : Pace :=
  { p with pace := Tab.set p.pace 0 i r, low := if decide (r < floor) then insertNat i p.low else p.low.filter (· != i) }

/-- One monitor is read as `r`, the floor being `floor`. -/
def Chip.paceTake (c : Chip) (floor i r : Nat) : Chip :=
  ({ c with pace := c.pace.read floor i r } : Chip).setCond (0xD0 + i) 0x100 (decide (r < floor)) 11 (0xD0 + i)

/-- One monitor is read, with the readings and the floor of the beginning of the window. -/
def Chip.paceStep (b : Chip) (raw : List Int) (c : Chip) (i : Nat) : Chip :=
  c.paceTake (b.param 0x08 0x042 0) i (b.paceReading raw i)

section
variable (b : Chip) (raw : List Int) (c : Chip) (i : Nat)

theorem Chip.paceStep_reacts :
    Chip.Reacts { c with pace := c.pace.read (b.param 0x08 0x042 0) i (b.paceReading raw i) } (b.paceStep raw c i) :=
  Chip.setCond_reacts ..

theorem Chip.paceStep_pace : (b.paceStep raw c i).pace = c.pace.read (b.param 0x08 0x042 0) i (b.paceReading raw i) :=
  (b.paceStep_reacts raw c i).pace

theorem Chip.paceStep_trims : (b.paceStep raw c i).variant = c.variant ∧ (b.paceStep raw c i).mem = c.mem ∧
    (∀ j, (b.paceStep raw c i).trim 0x020 j = c.trim 0x020 j) ∧
    (b.paceStep raw c i).param 0x08 0x042 0 = c.param 0x08 0x042 0 := by
  have h := b.paceStep_reacts raw c i
  refine ⟨h.variant, h.mem, fun j => ?_, h.param ..⟩
  rw [Chip.trim, Chip.calInvalid, h.flash, h.param]
  rfl

theorem Chip.paceStep_holds (h : (b.paceStep raw c i).calm = true) : c.HoldsNotes (b.paceStep raw c i) := by
  have hr := (Chip.setCond_notes _ _ _ _ _ _ _ h).holds
  exact ⟨hr.calm, hr.inReset, hr.heldUnits, hr.pend⟩

end

theorem Chip.paceFold_eq (b : Chip) (raw : List Int) (l : List Nat) (c : Chip) (ht : ∀ j, c.trim 0x020 j = b.trim 0x020 j)
    (hp : c.param 0x08 0x042 0 = b.param 0x08 0x042 0) :
    l.foldl (fun c i => c.paceTake (c.param 0x08 0x042 0) i (c.paceReading raw i)) c = l.foldl (b.paceStep raw) c := by
  induction l generalizing c with
  | nil => rw [List.foldl_nil, List.foldl_nil]
  | cons i l ih =>
    obtain ⟨-, -, hs, hq⟩ := b.paceStep_trims raw c i
    have hr : c.paceTake (c.param 0x08 0x042 0) i (c.paceReading raw i) = b.paceStep raw c i := by
      unfold Chip.paceStep Chip.paceReading
      rw [ht, hp]
    rw [List.foldl_cons, List.foldl_cons, hr]
    exact ih _ (fun j => (hs j).trans (ht j)) (hq.trans hp)

theorem Chip.paceWindow_takes (b : Chip) (raw : List Int) : b.paceWindow raw =
    (List.range 16).foldl (fun c i => c.paceTake (c.param 0x08 0x042 0) i (c.paceReading raw i)) b := by
  unfold Chip.paceWindow
  congr

/-- A window reads the monitors one after the other, with the trims and the floor of its beginning. -/
theorem Chip.paceWindow_eq (b : Chip) (raw : List Int) : b.paceWindow raw = (List.range 16).foldl (b.paceStep raw) b :=
  (b.paceWindow_takes raw).trans (b.paceFold_eq raw _ b (fun _ => rfl) rfl)

theorem Chip.paceFold_frame (b : Chip) (raw : List Int) (l : List Nat) (c : Chip) :
    (l.foldl (b.paceStep raw) c).mem = c.mem ∧
    (l.foldl (b.paceStep raw) c).pace =
      l.foldl (fun p i => p.read (b.param 0x08 0x042 0) i (b.paceReading raw i)) c.pace := by
  induction l generalizing c with
  | nil => exact ⟨rfl, rfl⟩
  | cons i l ih =>
    obtain ⟨hm, hp⟩ := ih (b.paceStep raw c i)
    exact ⟨hm.trans (b.paceStep_trims raw c i).2.1, hp.trans (by rw [List.foldl_cons, b.paceStep_pace])⟩

theorem Pace.read_self (p : Pace) (floor i r : Nat) :
    Tab.get (p.read floor i r).pace i 0 = r ∧ (i ∈ (p.read floor i r).low ↔ r < floor) := by
  refine ⟨Tab.get_set_self .., ?_⟩
  unfold Pace.read
  split <;> simp_all [mem_insertNat]

theorem Pace.read_ne (p : Pace) (floor : Nat) {i j : Nat} (r : Nat) (h : j ≠ i) :
    Tab.get (p.read floor i r).pace j 0 = Tab.get p.pace j 0 ∧ (j ∈ (p.read floor i r).low ↔ j ∈ p.low) := by
  refine ⟨Tab.get_set_ne _ _ _ h, ?_⟩
  unfold Pace.read
  split <;> simp [mem_insertNat, h]

/-- After the readings of the first monitors each of them reads its own. -/
theorem Pace.reads (floor : Nat) (r : Nat → Nat) (p : Pace) (n : Nat) :
    let q := (List.range n).foldl (fun p i => p.read floor i (r i)) p
    q.request = p.request ∧ ∀ i < n, Tab.get q.pace i 0 = r i ∧ (i ∈ q.low ↔ r i < floor) := by
  induction n with
  | zero => exact ⟨rfl, fun i h => absurd h (Nat.not_lt_zero i)⟩
  | succ n ih =>
    obtain ⟨hq, ih⟩ := ih
    simp only [List.range_succ, List.foldl_append, List.foldl_cons, List.foldl_nil]
    refine ⟨hq, fun i hi => ?_⟩
    obtain rfl | h := Nat.eq_or_lt_of_le (Nat.lt_succ_iff.mp hi)
    · exact Pace.read_self ..
    · obtain ⟨h1, h2⟩ := Pace.read_ne ((List.range n).foldl (fun p i => p.read floor i (r i)) p) floor (r n) (Nat.ne_of_lt h)
      exact ⟨h1.trans (ih i h).1, h2.trans (ih i h).2⟩

/-- The units of the monitors and sensors are on every variant, with their two causes. -/
theorem sensorUnit (v : Variant) : ∀ i < 16, unitPresent v (0xD0 + i) = true ∧ isCause (0xD0 + i) 0x100 = true ∧ isCause (0xD0 + i) 0x101 = true := by
  cases v <;> decide

/-- Different monitors have different sources. -/
theorem sensorKeys {l : List Nat} (h : l.Nodup) (k : Nat) : l.Pairwise fun a b => srcKey (0xD0 + a) k ≠ srcKey (0xD0 + b) k :=
  h.imp fun h => srcKey_unit (by omega)

/-- A monitor that becomes low is noted. -/
theorem Chip.paceWindow_noted {b : Chip} {raw : List Int} (h : ((List.range 16).foldl (b.paceStep raw) b).calm = true) {i : Nat} (hi : i < 16)
    (hl : b.paceReading raw i < b.param 0x08 0x042 0) (hz : (b.src (0xD0 + i) 0x100).now = false) :
    ((List.range 16).foldl (b.paceStep raw) b).noted b (0xD0 + i) 0x100 :=
  foldl_noted (g := b.paceStep raw) (u := fun i => 0xD0 + i) (fun c a => b.paceStep_holds raw c a)
    (fun _ _ _ hk hc => Chip.setCond_now_ne hc hk) (fun c => c.variant = b.variant)
    (fun c a hc => (b.paceStep_trims raw c a).1.trans hc) i
    (fun c hv hc hn => by
      unfold Chip.paceStep Chip.paceTake at hc ⊢
      rw [decide_eq_true hl] at hc ⊢
      obtain ⟨hp, hk, -⟩ := sensorUnit c.variant i hi
      exact (Chip.setCond_noted hc hp hk hn).before rfl rfl)
    _ (sensorKeys List.nodup_range 0x100) b rfl h (List.mem_range.mpr hi) hz

/-! ### Sensors -/

/-- Conditions that go change the sources alone. -/
theorem Chip.foldl_setCond_off (l : List Nat) (u : Nat → Nat) (k : Nat) (c : Chip) :
    ∃ t, l.foldl (fun c i => c.setCond (u i) k false 11 (u i)) c = { c with flt := { c.flt with sources := t } } := by
  induction l generalizing c with
  | nil => exact ⟨_, rfl⟩
  | cons i l ih =>
    obtain ⟨t, h⟩ := c.setCond_off (u i) k 11 (u i)
    rw [List.foldl_cons, h]
    obtain ⟨t', h'⟩ := ih { c with flt := { c.flt with sources := t } }
    exact ⟨t', h'⟩

/-- The trimmed reading of a sensor. -/
def Chip.temp (c : Chip) (raw : List Int) (i : Nat) : Int := (raw[i]?).getD 0 + c.trim 0x021 i

section
variable (c : Chip) (raw : List Int)

theorem Chip.thermalRearm_warm (h : (c.pace.temps.all fun r => decide (r.2 < 10 * ((c.param 0x08 0x047 0 : Nat) - 5))) = false) :
    c.thermalRearm = c := by
  rw [Chip.thermalRearm, h]
  exact if_neg Bool.false_ne_true

theorem Chip.thermalRearm_cold (h : (c.pace.temps.all fun r => decide (r.2 < 10 * ((c.param 0x08 0x047 0 : Nat) - 5))) = true) :
    ∃ t, c.thermalRearm = { c with pace := { c.pace with warned := false }, flt := { c.flt with sources := t } } := by
  rw [Chip.thermalRearm, h]
  exact Chip.foldl_setCond_off ..

end

/-- The hottest of a list of readings, beginning with the best so far. -/
theorem hottest_max (l : List (Nat × Int)) (b : Option (Nat × Int)) (h : l ≠ [] ∨ b ≠ none) :
    ∃ r, l.foldl (fun b r => match b with
      | none => some r
      | some x => if x.2 < r.2 then some r else b) b = some r ∧ (r ∈ l ∨ b = some r) ∧ (∀ x ∈ l, x.2 ≤ r.2) ∧ ∀ x, b = some x → x.2 ≤ r.2 := by
  induction l generalizing b with
  | nil =>
    obtain ⟨r, rfl⟩ := Option.ne_none_iff_exists'.mp (h.resolve_left fun h => h rfl)
    exact ⟨r, rfl, .inr rfl, fun _ h => absurd h List.not_mem_nil, fun x e => Option.some.inj e ▸ le_rfl⟩
  | cons a l ih =>
    cases b with
    | none =>
      obtain ⟨r, hr, hm, hl, hb⟩ := ih (some a) (.inr (by simp))
      exact ⟨r, hr, by grind, by grind, by simp⟩
    | some y =>
      obtain ⟨r, hr, hm, hl, hb⟩ := ih (if y.2 < a.2 then some a else some y) (.inr (by split <;> simp))
      exact ⟨r, hr, by grind, by grind, by grind⟩

section
variable {c : Chip} {raw : List Int}

theorem Chip.senseTemps_temps : (c.senseTemps raw).pace.temps = (List.range 16).map fun i => (i, c.temp raw i) := rfl

/-- The hottest sensor reads at least what each of the 16 reads. -/
theorem Chip.hottest_sensed {d : Chip} (ht : d.pace.temps = (List.range 16).map fun i => (i, c.temp raw i)) :
    ∃ j < 16, d.hottest = some (j, c.temp raw j) ∧ ∀ i < 16, c.temp raw i ≤ c.temp raw j := by
  obtain ⟨r, hr, hm, hl, -⟩ := hottest_max d.pace.temps none (.inl (by simp [ht]))
  obtain hm | hm := hm
  · rw [ht] at hm hl
    obtain ⟨j, hj, rfl⟩ := List.mem_map.mp hm
    exact ⟨j, List.mem_range.mp hj, hr, fun i hi => hl _ (List.mem_map.mpr ⟨i, List.mem_range.mpr hi, rfl⟩)⟩
  · contradiction

/-- The sensors at or above the limit. -/
def Chip.hotSensors (c : Chip) (raw : List Int) : List (Nat × Int) :=
  ((List.range 16).map fun i => (i, c.temp raw i)).filter fun r => decide (10 * (c.param 0x08 0x047 0 : Int) ≤ r.2)

/-- A warning's conditions, one sensor after the other. -/
def Chip.warn (c : Chip) (l : List (Nat × Int)) : Chip := l.foldl (fun c r => c.setCond (0xD0 + r.1) 0x101 true 11 (0xD0 + r.1)) c

theorem Chip.warn_reacts (l : List (Nat × Int)) (c : Chip) : c.Reacts (c.warn l) := by
  induction l generalizing c with
  | nil => exact .refl c
  | cons r l ih => exact (c.setCond_reacts ..).trans (ih _)

theorem Chip.warn_notes (l : List (Nat × Int)) (c : Chip) : c.Notes (c.warn l) :=
  .foldl (fun c _ => c.setCond_notes _ _ _ _ _ _) l c

theorem Chip.warn_noted (h : (c.warn (c.hotSensors raw)).calm = true) {i : Nat} (hi : i < 16)
    (hl : 10 * (c.param 0x08 0x047 0 : Int) ≤ c.temp raw i) (hz : (c.src (0xD0 + i) 0x101).now = false) :
    (c.warn (c.hotSensors raw)).noted c (0xD0 + i) 0x101 := by
  refine foldl_noted (g := fun c (r : Nat × Int) => c.setCond (0xD0 + r.1) 0x101 true 11 (0xD0 + r.1)) (u := fun r => 0xD0 + r.1)
    (fun c r h => (c.setCond_notes _ _ _ _ _ _ h).holds) (fun _ _ _ hk hc => Chip.setCond_now_ne hc hk) (fun _ => True)
    (fun _ _ _ => trivial) (i, c.temp raw i) (fun c _ hc hn => ?_) _ ?_ c trivial h
    (List.mem_filter.mpr ⟨List.mem_map.mpr ⟨i, List.mem_range.mpr hi, rfl⟩, decide_eq_true hl⟩) hz
  · obtain ⟨hp, -, hk⟩ := sensorUnit c.variant i hi
    exact Chip.setCond_noted hc hp hk hn
  · exact List.Pairwise.filter _ (List.pairwise_map.mpr (sensorKeys List.nodup_range 0x101))

/-- The event of a warning, where the hottest sensor is at the limit and the last event has been re-armed. -/
def Chip.warnEvent (e : Chip) (limit : Int) : Chip :=
  match e.hottest with
  | some (i, t) =>
    if limit ≤ t ∧ !e.pace.warned then
      ({ e with pace := { e.pace with warned := true } }).eventPFs 0x0A (0xD0 + i) 0 (twos 8 (t / 10))
    else e
  | none => e

theorem Chip.thermalWarning_eq (c : Chip) (raw : List Int) : c.thermalWarning raw =
    ((c.thermalClear raw).warn ((c.thermalClear raw).pace.temps.filter fun r =>
      decide (10 * ((c.thermalClear raw).param 0x08 0x047 0 : Int) ≤ r.2))).warnEvent (10 * ((c.thermalClear raw).param 0x08 0x047 0 : Int)) :=
  rfl

/-- What the sensors read stands, and memory and boot state are as before. -/
def Chip.Sensed (c : Chip) (raw : List Int) (d : Chip) : Prop :=
  d.pace.temps = (List.range 16).map (fun i => (i, c.temp raw i)) ∧ d.mem = c.mem ∧ d.boot = c.boot

/-- With a sensor at the limit, the warning is there and each sensor at the limit has noted its source. -/
theorem Chip.thermalWarning_hot (hot : ((List.range 16).any fun i => decide (10 * (c.param 0x08 0x047 0 : Int) ≤ c.temp raw i)) = true)
    (h : (c.thermalWarning raw).calm = true) :
    c.Sensed raw (c.thermalWarning raw) ∧ (c.thermalWarning raw).pace.warned = true ∧ ∀ i < 16,
      10 * (c.param 0x08 0x047 0 : Int) ≤ c.temp raw i → (c.src (0xD0 + i) 0x101).now = false →
      (c.thermalWarning raw).noted c (0xD0 + i) 0x101 := by
  obtain ⟨m, hm, hl⟩ := List.any_eq_true.mp hot
  rw [decide_eq_true_eq] at hl
  have hw : c.thermalClear raw = c.senseTemps raw := by
    refine Chip.thermalRearm_warm _ (List.all_eq_false.mpr ⟨(m, c.temp raw m), List.mem_map.mpr ⟨m, hm, rfl⟩, ?_⟩)
    have hp : (c.senseTemps raw).param 0x08 0x047 0 = c.param 0x08 0x047 0 := rfl
    rw [hp, decide_eq_true_eq]
    dsimp only
    omega
  let e := (c.senseTemps raw).warn ((c.senseTemps raw).hotSensors raw)
  have he : (c.senseTemps raw).Reacts e := Chip.warn_reacts ..
  have ht : e.pace.temps = (List.range 16).map fun i => (i, c.temp raw i) := by rw [he.pace]; rfl
  obtain ⟨j, hj, hh, hmax⟩ := Chip.hottest_sensed (d := e) ht
  have hlj : 10 * (c.param 0x08 0x047 0 : Int) ≤ c.temp raw j := hl.trans (hmax m (List.mem_range.mp hm))
  have hd : c.thermalWarning raw = if e.pace.warned = false then
      ({ e with pace := { e.pace with warned := true } } : Chip).eventPFs 0x0A (0xD0 + j) 0 (twos 8 (c.temp raw j / 10)) else e := by
    rw [Chip.thermalWarning_eq, hw]
    change e.warnEvent (10 * (c.param 0x08 0x047 0 : Int)) = _
    unfold Chip.warnEvent
    rw [hh]
    simp [hlj]
  have hr : ∃ d, d = ({ e with pace := { e.pace with warned := true } } : Chip) ∧ d.Reported (c.thermalWarning raw) := by
    rw [hd]
    split
    · exact ⟨_, rfl, Chip.eventPFs_reported ..⟩
    · rename_i hwarn
      exact ⟨_, rfl, by rw [Bool.not_eq_false] at hwarn; rw [← hwarn]; exact .refl _⟩
  obtain ⟨d, rfl, hr⟩ := hr
  have hc : e.calm = true := hr.only.calm.symm.trans h
  have hn := Chip.warn_notes _ _ hc
  refine ⟨⟨?_, ?_, ?_⟩, ?_, fun i hi hli hz => ?_⟩
  · rw [hr.only.pace]; exact ht
  · rw [hr.only.mem]; exact hn.only.mem
  · rw [hr.only.boot]; exact hn.only.boot
  · rw [hr.only.pace]
  · have h1 := Chip.warn_noted (c := c.senseTemps raw) (raw := raw) hc hi hli hz
    exact ((h1.before rfl rfl).of_holds (e := ({ e with pace := { e.pace with warned := true } } : Chip))
      ⟨rfl, rfl, rfl, fun _ _ h => h⟩).of_holds hr.holds

/-- With none at the limit, reading the sensors may end the warning and does nothing else. -/
theorem Chip.thermalWarning_not (hot : ((List.range 16).any fun i => decide (10 * (c.param 0x08 0x047 0 : Int) ≤ c.temp raw i)) = false) :
    c.thermalWarning raw = c.thermalClear raw := by
  have hd : (c.thermalClear raw).pace.temps = (List.range 16).map (fun i => (i, c.temp raw i)) ∧
      (c.thermalClear raw).param 0x08 0x047 0 = c.param 0x08 0x047 0 := by
    unfold Chip.thermalClear
    cases hc : (c.senseTemps raw).pace.temps.all fun r => decide (r.2 < 10 * (((c.senseTemps raw).param 0x08 0x047 0 : Nat) - 5))
    · rw [Chip.thermalRearm_warm _ hc]
      exact ⟨rfl, rfl⟩
    · obtain ⟨t, e⟩ := Chip.thermalRearm_cold _ hc
      rw [e]
      exact ⟨rfl, rfl⟩
  obtain ⟨ht, hp⟩ := hd
  have hlt : ∀ i < 16, ¬10 * (c.param 0x08 0x047 0 : Int) ≤ c.temp raw i := fun i hi =>
    of_decide_eq_false (Bool.eq_false_iff.mpr (List.any_eq_false.mp hot i (List.mem_range.mpr hi)))
  have hf : (c.thermalClear raw).pace.temps.filter (fun r => decide (10 * ((c.thermalClear raw).param 0x08 0x047 0 : Int) ≤ r.2)) = [] := by
    rw [ht, hp, List.filter_eq_nil_iff]
    intro r hr
    obtain ⟨i, hi, rfl⟩ := List.mem_map.mp hr
    simpa using hlt i (List.mem_range.mp hi)
  obtain ⟨j, hj, hh, -⟩ := Chip.hottest_sensed ht
  rw [Chip.thermalWarning_eq, hf, hp]
  change (c.thermalClear raw).warnEvent _ = _
  unfold Chip.warnEvent
  rw [hh]
  exact if_neg fun h => hlt j hj h.1

/-- Once every sensor is 5 degrees below the limit, the warning may come again; in between it stays. -/
theorem Chip.thermalClear_sensed (raw : List Int) : c.Sensed raw (c.thermalClear raw) ∧
    (c.thermalClear raw).pace.warned =
      if ((List.range 16).all fun i => decide (c.temp raw i < 10 * (c.param 0x08 0x047 0 : Int) - 50)) = true then false else c.pace.warned := by
  have hp : ((c.senseTemps raw).pace.temps.all fun r => decide (r.2 < 10 * (((c.senseTemps raw).param 0x08 0x047 0 : Nat) - 5))) =
      (List.range 16).all fun i => decide (c.temp raw i < 10 * (c.param 0x08 0x047 0 : Int) - 50) := by
    rw [Chip.senseTemps_temps, List.all_map]
    congr 1
    funext i
    have h5 : (c.senseTemps raw).param 0x08 0x047 0 = c.param 0x08 0x047 0 := rfl
    rw [Function.comp_apply, h5]
    exact decide_eq_decide.mpr (by dsimp only; omega)
  unfold Chip.thermalClear
  rw [← hp]
  split
  case isTrue hc =>
    obtain ⟨t, e⟩ := Chip.thermalRearm_cold _ hc
    rw [e]
    exact ⟨⟨rfl, rfl, rfl⟩, rfl⟩
  case isFalse hc =>
    rw [Chip.thermalRearm_warm _ (Bool.eq_false_iff.mpr hc)]
    exact ⟨⟨rfl, rfl, rfl⟩, rfl⟩

end

/-- Settles O58: the monitors by induction on their number, the sensors by the cases of the warning, the trip by its reset. -/
theorem monitorsAndSensorsAreRead : Obligations.MonitorsAndSensorsAreRead := by
  refine ⟨fun s raw hl => ?_, fun s raw => ⟨fun hl => ⟨fun hot => ?_, fun hot cold => ?_, fun hot cold => ?_⟩, fun hl => ⟨fun cold => ?_, fun cold => ?_⟩,
    fun hc ht => ?_, fun hr ht => ?_⟩⟩
  · have h : (s.chip.paceWindow raw).calm = true := hl.2
    rw [Chip.paceWindow_eq] at h
    refine .of_run (exec_paceWindow ..) hl.1 hl.2 ?_
    rw [Chip.paceWindow_eq]
    obtain ⟨hm, hp⟩ := s.chip.paceFold_frame raw (List.range 16) s.chip
    obtain ⟨hq, hi⟩ := Pace.reads (s.chip.param 0x08 0x042 0) (s.chip.paceReading raw) s.chip.pace 16
    refine ⟨hm, by rw [hp, hq], fun i h16 => ⟨?_, ?_, fun hlow hz => Chip.paceWindow_noted h h16 hlow hz⟩⟩
    · rw [hp]; exact (hi i h16).1
    · rw [hp]; exact (hi i h16).2
  · exact .of_run (exec_thermalWarning ..) hl.1 hl.2 (Chip.thermalWarning_hot hot hl.2)
  · refine .of_run (exec_thermalWarning ..) hl.1 hl.2 ?_
    rw [Chip.thermalWarning_not hot]
    exact ⟨(Chip.thermalClear_sensed raw).1, (Chip.thermalClear_sensed raw).2.trans (if_pos cold)⟩
  · refine .of_run (exec_thermalWarning ..) hl.1 hl.2 ?_
    rw [Chip.thermalWarning_not hot]
    exact ⟨(Chip.thermalClear_sensed raw).1, (Chip.thermalClear_sensed raw).2.trans (if_neg (Bool.eq_false_iff.mp cold))⟩
  · exact .of_run (exec_thermalWarningClear ..) hl.1 hl.2 ⟨(Chip.thermalClear_sensed raw).1, (Chip.thermalClear_sensed raw).2.trans (if_pos cold)⟩
  · exact .of_run (exec_thermalWarningClear ..) hl.1 hl.2
      ⟨(Chip.thermalClear_sensed raw).1, (Chip.thermalClear_sensed raw).2.trans (if_neg (Bool.eq_false_iff.mp cold))⟩
  · have e : s.chip.thermalTrip raw = s.chip := by
      unfold Chip.thermalTrip
      obtain ht | ht := ht <;> simp [ht]
    refine .of_runAny (exec_thermalTrip ..) ?_ ?_ <;> rw [e]
    · exact hc
  · have e : s.chip.thermalTrip raw =
        s.chip.reset { s.chip.boot with phase := .tripped, trippedPin := true, fatalReset := false, faultInRecovery := false } := by
      unfold Chip.thermalTrip
      rw [if_pos hr]
      exact if_neg ht
    refine .of_runAny (exec_thermalTrip ..) ?_ ?_ <;> rw [e]
    · rfl
    · exact ⟨rfl, rfl, rfl, rfl, rfl, rfl, rfl, rfl⟩

end Sys2Proof.Machine
end


section
/-! Ticks, setting the time, streams (R432, R437, R450): the statement of the host ring fails at a ring of 2^32 entries. -/

set_option Elab.async false

namespace Sys2Proof.Machine

/-- A chip in full service that streams two parts (seven rows) to a host ring of 2^32 entries, a size that P31.F15 refuses when it is
written but that a state may hold. -/
def wideRing : Chip :=
  { boot := { phase := .full }
    dict := { active := (List.range 7).map (fun i => (pnum 0x31 0xF10 i, 2 ^ 63)) ++
      [(pnum 0x31 0xF12 0, 2), (pnum 0x31 0xF15 0, 32), (pnum 0x20 0x004 0, 1)] } }

theorem wideRing_serving : wideRing.up = true ∧ wideRing.calm = true := by decide +kernel

theorem wideRing_streams : wideRing.clusterUp 5 = true ∧ wideRing.ctr.sampled = none ∧ wideRing.param 0x31 0xF12 0 = 2 ∧
    wideRing.param 0x31 0xF15 0 = 32 ∧ wideRing.traceHost = some 0 ∧ (wideRing.streamParts 6).length = 2 := by decide +kernel

/-- With CI 1 read and PI 0, both parts enter the ring: its PI passes CI. -/
theorem wideRing_sampled : (wideRing.streamSample 1).ctr.ringPi = 2 := by decide +kernel

/-- Refutes O60: with a ring of 2^32 entries, PI 0 and CI 1 the ring holds 2^32 - 1 entries, so that one more fits as the statement
counts; the model's test, whose difference of indices wraps at 2^32, takes two. -/
theorem not_ticksPassTimeIsSetSamplesStream : ¬ Obligations.TicksPassTimeIsSetSamplesStream := by
  intro h
  obtain ⟨hc, hn, hm, hs, ht, hl⟩ := wideRing_streams
  obtain ⟨-, -, -, -, hr⟩ := (h.2 { chip := wideRing } wideRing_serving).2 1
  obtain ⟨t, hx, -, -, -, hpi, -⟩ := hr 0 (by simp [hc, hn]) hm ht
  rw [exec_streamSample, State.run_calm _ _ wideRing_serving.1
    ((wideRing.streamSample_calm 1).trans wideRing_serving.2)] at hx
  obtain rfl := Host.Outcome.next.inj hx
  simp only [wideRing_sampled, hs, hl] at hpi
  exact absurd hpi (by decide)

end Sys2Proof.Machine
end


section
/-! Doorbells (R138, R159): the cause that an ARM with a bad CI leaves. -/

set_option Elab.async false

namespace Sys2Proof.Machine

/-- What a command that completes says of the chip that its effect leaves, settled. -/
theorem Completes.settled {i : Instr} {s : State} {f : Chip → Chip} {p : Chip → Prop} (h : Completes i s p)
    (hi : exec i s = s.run f) (hu : s.chip.up = true) : p (f s.chip).settle := by
  obtain ⟨t, ht, -, hp⟩ := h
  rw [hi, State.run, if_pos hu] at ht
  obtain rfl := Host.Outcome.next.inj ht
  exact hp

/-- The same of a command that acts whether a service runs or not. -/
theorem Completes.settledAny {i : Instr} {s : State} {f : Chip → Chip} {p : Chip → Prop} (h : Completes i s p)
    (hi : exec i s = s.runAny f) : p (f s.chip).settle := by
  obtain ⟨t, ht, -, hp⟩ := h
  rw [hi, State.runAny] at ht
  obtain rfl := Host.Outcome.next.inj ht
  exact hp

/-- A ready function 0 whose table of queues lists number 1 twice, which nothing forbids a state: the CQ that number 1 names, and behind
it an SQ that is bound to CQ 1. -/
def twiceListed : Chip :=
  { boot := { phase := .full }
    funcs := [(0, { Func.init with state := .ready })]
    queues := [(1, { kind := .cq, vecValid := true }), (1, { kind := .sq, cqn := 1 })] }

/-- The doorbell word of an ARM of CQ 1. -/
def armWord : Word := BitVec.ofNat 64 (2 ^ 63 + 1)

theorem twiceListed_serving : twiceListed.up = true ∧ twiceListed.calm = true := by decide +kernel

theorem twiceListed_function : twiceListed.fnExists 0 = true ∧ 0 / 4096 < twiceListed.doorbellPages 0 ∧ twiceListed.fnReady 0 = true := by
  decide +kernel

theorem twiceListed_names : dbQn armWord = 1 ∧ dbOp armWord = 2 ∧
    twiceListed.named 0 (dbQn armWord) true = .queue { kind := .cq, vecValid := true } := by decide +kernel

/-- The CQ goes to error with cause 3, and then, as the SQ of the same number, with cause 4. -/
theorem twiceListed_armed : (twiceListed.armQueue 0 armWord (.ok 0 1)).calm = true ∧
    ((twiceListed.doorbell 0 0 true armWord 2 fun c => c.armQueue 0 armWord (.ok 0 1)).settle.queue? 0 1).map (·.cause) = some 4 := by
  decide +kernel

/-- Refutes O25: where a second row with the CQ's own number stands for an SQ bound to it, the SQ's error (cause 4) falls on the CQ that
the bad CI has put in error with cause 3. -/
theorem not_doorbellsAct : ¬ Obligations.DoorbellsAct := by
  intro h
  obtain ⟨hex, hpages, hready⟩ := twiceListed_function
  obtain ⟨hqn, hop, hnamed⟩ := twiceListed_names
  obtain ⟨hcalm, hcause⟩ := twiceListed_armed
  obtain ⟨-, -, -, harm⟩ := h { chip := twiceListed } 0 0 armWord hex hpages
  obtain ⟨-, -, -, hbad, -⟩ := harm ⟨rfl, hready⟩ hop
  obtain ⟨q', hq, -, hc⟩ := (hbad _ (.ok 0 1) ⟨twiceListed_serving.1, hcalm⟩ hnamed rfl rfl (by decide)).settled
    (exec_arm ..) twiceListed_serving.1
  rw [hqn] at hq
  rw [hq, Option.map_some, Option.some.injEq, hc] at hcause
  exact absurd hcause (by decide)

end Sys2Proof.Machine
end


section
/-! Index reads (R133, R159): the cause that a bad CI leaves. -/

set_option Elab.async false

namespace Sys2Proof.Machine

theorem twiceListed_reads : twiceListed.flushing 0 1 = false ∧
    twiceListed.named 0 1 false = .queue { kind := .cq, vecValid := true } := by decide +kernel

/-- The CQ goes to error with cause 3, and then, as the SQ of the same number, with cause 4. -/
theorem twiceListed_indexRead : (twiceListed.indexRead 0 1 (.ok 0 1) []).calm = true ∧
    ((twiceListed.indexRead 0 1 (.ok 0 1) []).settle.queue? 0 1).map (·.cause) = some 4 := by decide +kernel

/-- Refutes O26: where a second row with the CQ's own number stands for an SQ bound to it, the SQ's error (cause 4) falls on the CQ that
the bad CI has put in error with cause 3. -/
theorem not_indicesAreReadAndBacklogsDrain : ¬ Obligations.IndicesAreReadAndBacklogsDrain := by
  intro h
  obtain ⟨hflush, hnamed⟩ := twiceListed_reads
  obtain ⟨hcalm, hcause⟩ := twiceListed_indexRead
  obtain ⟨-, hread, -, -⟩ := h.1 { chip := twiceListed } 0 1
  obtain ⟨-, -, hbad, -⟩ := hread _ hflush hnamed
  obtain ⟨q', hq, -, hc, -⟩ := (hbad 0 1 [] ⟨twiceListed_serving.1, hcalm⟩ (by decide)).settled
    (exec_indexBlockReadDone ..) twiceListed_serving.1
  rw [show 0 / 256 = 0 from rfl] at hq
  rw [hq, Option.map_some, Option.some.injEq, hc] at hcause
  exact absurd hcause (by decide)

end Sys2Proof.Machine
end


section
/-! Data, READ and control entries (R139, R171, R188): an operation that ends by itself although nothing of its channel is decided. -/

set_option Elab.async false

namespace Sys2Proof.Machine

/-- An operation of SQ 2 that waits on its channel, its source key void, and marked as one that had no route. -/
def lateOp : SendOp := { qn := 2, opcode := 1, length := 1, data := [0], unrouted := true, sourced := true }

/-- SQ 1 with one posted entry. -/
def onePosted : Queue := { kind := .sq, pi := 1 }

/-- A ready function 0 with SQ 1, and SQ 2 whose CQ number names SQ 1, which nothing forbids a state; a region that READs may write; and
on the channel to the own endpoint only the operation of SQ 2. -/
def opWaits : Chip :=
  { boot := { phase := .full }
    funcs := [(0, { Func.init with state := .ready })]
    queues := [(1, onePosted), (2, { kind := .sq, cqn := 1 })]
    mem := { regions := [(1, { Region.init with flags := 16, length := 4096 })] }
    tr := { chans := [(0, { Chan.init with sendState := .active, ops := [lateOp] })] } }

/-- A SEND of no bytes to the own endpoint. -/
def emptySend : Entry := { w0 := BitVec.ofNat 64 (1 * 2 ^ 56) }

/-- A READ of one byte from the own endpoint into region 1. -/
def byteRead : Entry := { w0 := BitVec.ofNat 64 (0x20 * 2 ^ 56), w1 := 1, w5 := BitVec.ofNat 64 (256 * 2 ^ 32) }

/-- A NOP to the own endpoint. -/
def plainNop : Entry := { w0 := BitVec.ofNat 64 (0x41 * 2 ^ 56) }

/-- SQ 1 takes the entry, whose operation may start on a channel on which nothing can end by itself, and which would not fail. -/
abbrev Starts (e : Entry) : Prop :=
  opWaits.takeable 0 1 e = some (onePosted, e) ∧ e.held = false ∧ sqMalformed e = false ∧ opWaits.canStart 0 1 e = true ∧
  opWaits.chanOpen (entryChan 0 e) = true ∧ opWaits.entryFails 0 e (.bytes []) = none ∧ opWaits.preFail e.dest = none ∧
  opWaits.offered e = false

/-- The entry leaves nothing to carry out, and PI of SQ 1 one further. -/
abbrev Spoils (e : Entry) : Prop :=
  (opWaits.takeNative 0 1 e.opcode e (.bytes [])).calm = true ∧
  ((opWaits.takeNative 0 1 e.opcode e (.bytes [])).settle.queue? 0 1).map (·.pi) = some 2

theorem opWaits_up : opWaits.up = true := by decide +kernel

/-- An SQ that takes an entry keeps its PI. -/
theorem Chip.not_took_of_pi {d : Chip} (h : (d.queue? 0 1).map (·.pi) = some 2) : ¬ d.took 0 1 onePosted := by
  rintro ⟨q, hq, -, hpi, -⟩
  rw [hq, Option.map_some, Option.some.injEq, hpi] at h
  exact absurd h (by decide)

theorem emptySend_starts : Starts emptySend ∧ opWaits.sourceGiven 0 emptySend (.bytes []) = true := by decide +kernel

theorem emptySend_spoils : Spoils emptySend := by decide +kernel

/-- Refutes O28: when the SEND lets the channel run, the waiting operation of SQ 2 fails its key check, and, marked as one without a
route, ends at once; its completion goes to the queue that its CQ number names, which is the SEND's SQ, and moves PI of that. -/
theorem not_dataAndVeneerEntriesStart : ¬ Obligations.DataAndVeneerEntriesStart := by
  intro h
  obtain ⟨⟨htake, hheld, hwell, hstart, hopen, hfate, -, hoff⟩, hgiven⟩ := emptySend_starts
  obtain ⟨hcalm, hpi⟩ := emptySend_spoils
  obtain ⟨hsend, -⟩ := (h.1 { chip := opWaits } 0 1 emptySend (.bytes [])).1 emptySend _ ⟨opWaits_up, hcalm⟩ htake hheld hwell hstart
    hgiven hoff hopen
  obtain ⟨-, -, hgo⟩ := (hsend (by decide)).settled (exec_send ..) opWaits_up
  exact Chip.not_took_of_pi hpi (hgo hfate).1

theorem byteRead_starts : Starts byteRead := by decide +kernel

theorem byteRead_spoils : Spoils byteRead := by decide +kernel

/-- Refutes O29: as for the SEND of O28, the end of a waiting operation moves PI of the SQ from which the READ is taken. -/
theorem not_offersAndReadsStart : ¬ Obligations.OffersAndReadsStart := by
  intro h
  obtain ⟨htake, hheld, hwell, hstart, hopen, hfate, -, -⟩ := byteRead_starts
  obtain ⟨hcalm, hpi⟩ := byteRead_spoils
  obtain ⟨-, hread⟩ := h { chip := opWaits } 0 1 byteRead byteRead _ (.bytes []) ⟨opWaits_up, hcalm⟩ htake hheld hwell hstart hopen
  obtain ⟨-, -, hgo⟩ := (hread (by decide) rfl).settled (exec_readEntry ..) opWaits_up
  exact Chip.not_took_of_pi hpi ((hgo hfate).1 (by decide)).1

theorem plainNop_starts : Starts plainNop := by decide +kernel

theorem plainNop_spoils : Spoils plainNop := by decide +kernel

/-- Refutes O30: as for the SEND of O28, the end of a waiting operation moves PI of the SQ from which the NOP is taken. -/
theorem not_controlEntriesStartReceivesWait : ¬ Obligations.ControlEntriesStartReceivesWait := by
  intro h
  obtain ⟨htake, hheld, hwell, hstart, hopen, -, hway, -⟩ := plainNop_starts
  obtain ⟨hcalm, hpi⟩ := plainNop_spoils
  obtain ⟨-, -, -, -, -, hnop⟩ := (h.1 { chip := opWaits } 0 1 plainNop).1 plainNop _ ⟨opWaits_up, hcalm⟩ htake hheld hwell hstart hopen
  obtain ⟨-, -, hgo⟩ := (hnop (by decide)).settled (exec_nop ..) opWaits_up
  exact Chip.not_took_of_pi hpi (hgo hway).1

end Sys2Proof.Machine
end


section
/-! Admission of requests (R183): a READ that is executed again may change a queue. -/

set_option Elab.async false

namespace Sys2Proof.Machine

/-- A READ of 64 bytes through the key of export entry 0, with a PSN far behind the receive base 0. -/
def oldRead : Packet :=
  (newPacket 2 3 0 0 false (BitVec.ofNat 64 (0x20 * 2 ^ 56 + 2 ^ 55)) (BitVec.ofNat 64 (2 ^ 63 + 1)) (BitVec.ofNat 64 0xFEF00000)
    (BitVec.ofNat 64 (64 * 2 ^ 32)) []).sealed

/-- The receive half of channel 0, synchronised. -/
def openHalf : Chan := { Chan.init with recvOpen := true, synced := true }

/-- A chip whose fabric memory has a poisoned block under export entry 0, whose source of poisoned reads has reaction 2, and whose PF
takes events in EQ 1. -/
def poisonedExport : Chip :=
  { boot := { phase := .full }
    funcs := [(0, { Func.init with state := .ready, eqValid := true, eqn := 1 })]
    queues := [(1, { kind := .eq })]
    mem := { poison := [0] }
    tr := { chans := [(0, openHalf)], resident := [.channel 0] }
    dict := { active := [(pnum 0x11 0x003 0, 128), (pnum 0x20 0x010 0, 1), (pnum 0x28 0x031 0, 4096), (pnum 0x28 0x032 0, 2 ^ 63 + 2 ^ 62),
      (pnum 0x30 0x60 0x101, 2)] } }

theorem poisonedExport_up : poisonedExport.up = true := by decide +kernel

theorem oldRead_reaches : poisonedExport.reachesOpen 0 oldRead none openHalf = true ∧ isReadReq oldRead = true ∧
    2 ^ 23 ≤ (oldRead.psn - openHalf.base).toNat := by decide +kernel

/-- The duplicate is executed again and reads the poisoned block, which tells the PF. -/
theorem oldRead_tells : (poisonedExport.takeRequest 0 oldRead none).calm = true ∧
    ((poisonedExport.requestOf isReadReq 0 oldRead none).settle.queue? 0 1).map (·.pi) = some 1 := by decide +kernel

/-- Refutes O38: a duplicate READ of poisoned fabric memory raises the source of poisoned reads; with reaction 2 that writes the device
fault event into the EQ of the PF, so that the queues are not as they were. -/
theorem not_requestsAreAdmitted : ¬ Obligations.RequestsAreAdmitted := by
  intro h
  obtain ⟨hreach, hread, hbehind⟩ := oldRead_reaches
  obtain ⟨hcalm, hpi⟩ := oldRead_tells
  obtain ⟨-, -, -, -, -, hopen⟩ := h { chip := poisonedExport } 0 oldRead none
  obtain ⟨-, -, -, -, -, hagain⟩ := hopen openHalf ⟨poisonedExport_up, hcalm⟩
  obtain ⟨⟨-, -, hgo, -⟩, -⟩ := hagain hreach (Or.inl hbehind)
  obtain ⟨-, hqueues, -⟩ := (hgo hread).settled (exec_readRequest ..) poisonedExport_up
  rw [Chip.queue?, hqueues] at hpi
  exact absurd hpi (by decide)

end Sys2Proof.Machine
end


section
/-! Messages (R229): the READ of a matched offer lets its channel run, on which an operation may already have ended. -/

set_option Elab.async false

namespace Sys2Proof.Machine

/-- An OFFER of 64 bytes for matching context 0 of RQ 1. -/
def offer64 : Packet :=
  (newPacket 2 1 0 0 false (BitVec.ofNat 64 (3 * 2 ^ 56 + 2 ^ 55)) 1 1 0 [0, 0, 0, 0, 0, 0, 0, 0, 0, 0, 0, 0, 0, 0, 0, 64]).sealed

/-- A TAGGED RECV of 64 bytes into region 1 that matches everything. -/
def anyRecv : Entry :=
  { w0 := BitVec.ofNat 64 (0xE1 * 2 ^ 56), w1 := 64, w3 := BitVec.ofNat 64 (256 * 2 ^ 32), w5 := BitVec.allOnes 64, w6 := BitVec.allOnes 64 }

/-- Channel 0 with its receive half open, and on its send half an operation of queue 1 that is decided with 0x05 and not yet delivered. -/
def endedOp : Chan :=
  { Chan.init with sendState := .active, recvOpen := true, synced := true, ops := [{ started := true, firstPsn := 1, qn := 1, status := some 5 }] }

/-- RQ 1 with two posted receives of context 0, and `endedOp`. -/
def twoReceives : Chip :=
  { boot := { phase := .full }
    funcs := [(0, { Func.init with state := .ready })]
    queues := [(1, { kind := .rq })]
    mem := { regions := [(1, { Region.init with flags := 16, length := 4096 })] }
    mt := { ctxs := [(0, { qn := 1, nextSeq := 2 })], posted := [{ ctx := 0, seq := 0, qn := 1, entry := anyRecv }, { ctx := 0, seq := 1, qn := 1, entry := anyRecv }] }
    tr := { chans := [(0, endedOp)], resident := [.channel 0, .queue 0 1] }
    dict := { active := [(pnum 0x11 0x003 0, 128)] } }

theorem twoReceives_up : twoReceives.up = true := by decide +kernel

theorem offer64_comes : twoReceives.expects 0 offer64 none endedOp = true ∧ twoReceives.messageRefused 0 offer64 = false ∧
    twoReceives.queue? 0 offer64.dqn = some { kind := .rq } ∧ (endedOp.msg? offer64.msgid).isNone = true := by decide +kernel

theorem offer64_matches : (if offer64.msgid = endedOp.resolve then
      twoReceives.findPosted (ctxKey 0 offer64.mctx) offer64.matchBits offer64.identity else none) =
    some { ctx := 0, seq := 0, qn := 1, entry := anyRecv } := by decide +kernel

/-- The bytes that the receive takes of the offer. -/
def offer64Take : Nat := min (newUnexp 0 (reqKey 0 offer64) offer64 false).length anyRecv.length

theorem offer64_reads : offer64Take ≠ 0 ∧ 0 < twoReceives.param 0x21 0x035 0 ∧ twoReceives.offerRecords < 65536 ∧
    (twoReceives.localCheck 0 anyRecv.rLkey anyRecv.rLaddr offer64Take true).allowed = true ∧
    twoReceives.preFail (chRemote (reqKey 0 offer64)) = none := by decide +kernel

/-- The channel delivers the operation, whose status puts RQ 1 in error: its other posted receive is flushed. -/
theorem offer64_flushes : (twoReceives.takeRequest 0 offer64 none).calm = true ∧
    (twoReceives.requestOf isOffer 0 offer64 none).settle.mt.posted = [] := by decide +kernel

/-- Refutes O40: the READ that a matched OFFER starts lets its channel deliver an operation that is decided with 0x05, which puts the queue
that this operation names, the RQ, in error; with it a posted receive goes that the message has not taken. -/
theorem not_messagesAreTaken : ¬ Obligations.MessagesAreTaken := by
  intro h
  obtain ⟨hexpects, htaken, hqueue, hnew⟩ := offer64_comes
  obtain ⟨htake, hchunk, hrecords, hkey, hway⟩ := offer64_reads
  obtain ⟨hcalm, hposted⟩ := offer64_flushes
  obtain ⟨-, hmessage⟩ := h { chip := twoReceives } 0 offer64 none endedOp ⟨twoReceives_up, hcalm⟩ hexpects (by decide)
  obtain ⟨-, -, htagged⟩ := hmessage _ htaken hqueue
  obtain ⟨-, hoffer, -⟩ := htagged hnew (by decide)
  have hopcode : offer64.opcode = 3 := by decide +kernel
  have hqn : 1 = offer64.dqn := by decide +kernel
  obtain ⟨-, -, hleft, -⟩ := (hoffer _ offer64_matches hopcode hqn htake hchunk hrecords hkey hway).settled (exec_offer ..) twoReceives_up
  dsimp only at hleft
  generalize (twoReceives.requestOf isOffer 0 offer64 none).settle = d at hposted hleft
  exact absurd (hposted.symm.trans hleft).symm (List.cons_ne_nil _ _)

end Sys2Proof.Machine
end


section
/-! COUNTs (R240, R243): the release of held entries where two stand in one slot. -/

set_option Elab.async false

namespace Sys2Proof.Machine

/-- A COUNT of 1 for trigger counter 3. -/
def countOne : Packet :=
  (newPacket 2 5 0 0 false (BitVec.ofNat 64 (0x40 * 2 ^ 56 + 2 ^ 55)) 1 3 1 []).sealed

/-- Counter 3 of function 0, which takes COUNTs. -/
def remoteCounter : TCtr := { TCtr.init with remote := true }

/-- Function 0 holds two entries of SQ 1 in one slot of its held area: one on counter 3, one on counter 4. -/
def sharedSlot : Chip :=
  { boot := { phase := .full }
    funcs := [(0, { Func.init with state := .ready })]
    queues := [(1, { kind := .sq })]
    tg := { ctrs := [(3, remoteCounter)], held := [{ qn := 1, ctr := 3, thresh := 1 }, { qn := 1, ctr := 4, thresh := 1 }] }
    tr := { chans := [(0, openHalf)], resident := [.channel 0] }
    dict := { active := [(pnum 0x11 0x003 0, 128)] } }

theorem sharedSlot_up : sharedSlot.up = true := by decide +kernel

theorem countOne_comes : sharedSlot.expects 0 countOne none openHalf = true ∧ 
    sharedSlot.tctr? countOne.counter = some remoteCounter ∧ countOne.kind = 5 ∧ countOne.opcode = 0x40 ∧
    countOne.msgid = openHalf.nextDone := by decide +kernel

/-- The release of the entry on counter 3 marks both entries of its slot. -/
theorem countOne_releases :
    State.leavesPlaces { chip := sharedSlot } (fun c => c.takeRequest 0 countOne none) ∧
    (sharedSlot.requestOf isCountReq 0 countOne none).settle.heldView.map (·.2.2.2) = [true, true] ∧
    (sharedSlot.heldReached countOne.counter (min (remoteCounter.value.toNat + countOne.inc) (2 ^ 48 - 1))).map (·.2.2.2) = [true, false] := by
  decide +kernel

/-- Refutes O41: of two held entries in one slot of a held area, on different counters, a COUNT for one of these counters releases both. -/
theorem not_countsNopsSyncsAndClosesAct : ¬ Obligations.CountsNopsSyncsAndClosesAct := by
  intro h
  obtain ⟨hexpects, hctr, hkind, hopcode, hturn⟩ := countOne_comes
  obtain ⟨hleaves, hview, hreached⟩ := countOne_releases
  obtain ⟨hcount, -⟩ := h.1 { chip := sharedSlot } 0 countOne none openHalf hexpects
  obtain ⟨hremote, -⟩ := hcount hkind hopcode rfl
  obtain ⟨-, hgo⟩ := hremote remoteCounter hctr rfl rfl
  obtain ⟨-, -, -, hheld⟩ := (hgo hturn rfl hleaves).settled (exec_countRequest ..) sharedSlot_up
  have hsame := congrArg (List.map (·.2.2.2)) hheld
  dsimp only at hsame
  generalize (sharedSlot.requestOf isCountReq 0 countOne none).settle = d at hview hsame
  exact absurd (hview.symm.trans (hsame.trans hreached)) (by decide)

end Sys2Proof.Machine
end


section
/-! READ DATA (R93, R184): an answer of 2^20 packets, whose count does not fit its field of 20 bits. -/

set_option Elab.async false

namespace Sys2Proof.Machine

/-- W1 of packet `i` of an answer of 2^20 packets has a packet index that is not 0: bit 20 of the count lies in that field. -/
theorem mkWord_million_pidx (i : Nat) : (mkWord [(i, 20), (2 ^ 20, 0)]).field 39 20 ≠ 0 := by
  intro h
  have hbit : (mkWord [(i, 20), (2 ^ 20, 0)]).toNat.testBit 20 = true := by
    simpa [mkWord] using Or.inr (by decide : Nat.testBit 1048576 20 = true)
  have hodd : (mkWord [(i, 20), (2 ^ 20, 0)]).toNat / 2 ^ 20 % 2 = 1 := by
    simpa [Nat.testBit, Nat.shiftRight_eq_div_pow, Nat.one_and_eq_mod_two] using hbit
  simp only [Word.field, bits] at h
  omega

/-- An answer of one packet enters the router core behind what waits there. -/
theorem Chip.answer_arrivals (c : Chip) (h : Nat) (p : Packet) (op st : Nat) (w1 : Word) (l : List Byte) :
    ∃ a : Arrival, a.pkt.w1 = w1 ∧ (c.answer h p op st w1 l).rt.arrivals = c.rt.arrivals ++ [a] :=
  ⟨_, rfl, rfl⟩

/-- What a fold of answers adds to the packets that wait to be routed: packets with the W1 that each is given. -/
theorem Chip.foldl_answer_arrivals (w : Nat → Word) (g : Nat → List Byte) (h : Nat) (p : Packet) (is : List Nat) (c : Chip) :
    ∃ l : List Arrival, (∀ a ∈ l, ∃ i ∈ is, a.pkt.w1 = w i) ∧
      (is.foldl (fun c i => c.answer h p 0x83 0 (w i) (g i)) c).rt.arrivals = c.rt.arrivals ++ l := by
  induction is generalizing c with
  | nil => exact ⟨[], by simp, by simp⟩
  | cons i is ih =>
    obtain ⟨a, ha, harr⟩ := c.answer_arrivals h p 0x83 0 (w i) (g i)
    obtain ⟨l, hl, hrest⟩ := ih (c.answer h p 0x83 0 (w i) (g i))
    refine ⟨a :: l, ?_, ?_⟩
    · rintro b (_ | ⟨_, hb⟩)
      · exact ⟨i, List.mem_cons_self, ha⟩
      · obtain ⟨j, hj, hw⟩ := hl b hb
        exact ⟨j, List.mem_cons_of_mem _ hj, hw⟩
    · rw [List.foldl_cons, hrest, harr, List.append_assoc, List.singleton_append]

/-- No packet of an answer of 2^20 packets has the index 0. -/
theorem Chip.answerData_million {c : Chip} {l : List Byte} (hl : packetsOf l.length = 2 ^ 20) (h : Nat) (p : Packet) :
    ∃ new : List Arrival, (∀ a ∈ new, a.pkt.pidx ≠ 0) ∧ (c.answerData h p l).rt.arrivals = c.rt.arrivals ++ new := by
  obtain ⟨new, hnew, harr⟩ := Chip.foldl_answer_arrivals (fun i => mkWord [(i, 20), (packetsOf l.length, 0)])
    (fun i => (l.drop (4096 * i)).take 4096) h p (List.range (packetsOf l.length)) c
  refine ⟨new, fun a ha => ?_, harr⟩
  obtain ⟨i, -, hw⟩ := hnew a ha
  rw [Packet.pidx, hw, hl]
  exact mkWord_million_pidx i

/-- The packets of READ DATA that have entered the router core do not give 4 GiB. -/
theorem Chip.not_answeredData_million {d c : Chip} {l : List Byte} (hl : packetsOf l.length = 2 ^ 20) (p : Packet)
    {new : List Arrival} (harr : d.rt.arrivals = c.rt.arrivals ++ new) (hnew : ∀ a ∈ new, a.pkt.pidx ≠ 0) : ¬ d.answeredData c p l := by
  intro h
  obtain ⟨a, ha, -, -, -, hidx, -⟩ := h 0 (by rw [hl]; decide)
  rw [Chip.entered, harr, List.drop_left, List.mem_map] at ha
  obtain ⟨b, hb, rfl⟩ := ha
  exact hnew b hb hidx

/-- A READ. -/
def plainRead : Packet := newPacket 2 3 0 0 false (BitVec.ofNat 64 (0x20 * 2 ^ 56 + 2 ^ 55)) 1 0 0 []

/-- A chip with a host read under way for that READ. -/
def readsHost : Chip := { boot := { phase := .full }, tr := { hostReads := [{ pkt := plainRead }] } }

/-- 4 GiB. -/
def hugeData : List Byte := List.replicate (2 ^ 32) 0

theorem hugeData_packets : packetsOf hugeData.length = 2 ^ 20 := by
  rw [hugeData, List.length_replicate]
  decide

theorem readsHost_serving : readsHost.up = true ∧ readsHost.calm = true := by decide +kernel

/-- Refutes O42: host memory gives 4 GiB for a READ; the 2^20 packets of the answer carry a count that does not fit its field, and with it
wrong packet indices. -/
theorem not_fetchesAndHostReadsEnd : ¬ Obligations.FetchesAndHostReadsEnd := by
  intro h
  obtain ⟨-, -, -, -, -, -, -, -, -, hread⟩ := h { chip := readsHost }
  obtain ⟨hdata, -⟩ := hread 0 { pkt := plainRead } readsHost_serving (by decide +kernel)
  have hdone := (hdata hugeData (by decide +kernel)).settled (exec_hostMemoryReadCompletion ..) readsHost_serving.1
  have hend : readsHost.hostReadEnded 0 (.data hugeData) =
      ({ readsHost with tr := { readsHost.tr with hostReads := [] } } : Chip).answerData 0 plainRead hugeData := rfl
  dsimp only at hdone
  rw [hend, Chip.settle_calm _ ((Chip.answerData_calm ..).trans (by decide +kernel))] at hdone
  obtain ⟨new, hnew, harr⟩ := Chip.answerData_million (c := { readsHost with tr := { readsHost.tr with hostReads := [] } })
    hugeData_packets 0 plainRead
  exact Chip.not_answeredData_million hugeData_packets plainRead harr hnew hdone.2

end Sys2Proof.Machine
end


section
/-! An operation of a membership that nothing has fixed yet, with a decided entry (R255, R269). -/

set_option Elab.async false

namespace Sys2Proof.Machine

/-- A ready function 0 with one SQ, local member of membership 0 below the root, COL being down, and an operation that no entry has
fixed although it holds a decided one, which COL would have completed were it up. -/
def unfixedOp : Chip :=
  { boot := { phase := .full }
    fw := { clusters := [(3, 1)] }
    funcs := [(0, { Func.init with state := .ready })]
    queues := [(1, { kind := .sq, pi := 1 })]
    dict := { active := [(0x24010000, 2 ^ 31), (0x24011000, 0), (0x24013000, 1), (0x24020000, 2 ^ 31)] }
    co := { ops := [{ posts := [{ status := some 0, qn := 2 }] }], nextCseq := [(0, 1)] } }

/-- An ALLREDUCE of no bytes. -/
def emptyAllreduce : Entry := { w0 := BitVec.ofNat 64 (0x63 * 2 ^ 56) }

/-- The chip that the ALLREDUCE leaves. -/
abbrev unfixedAfter : Chip := (unfixedOp.takeCollective 0 1 0x63 emptyAllreduce (.bytes [])).settle

/-- SQ 1 may take the ALLREDUCE, and the membership takes it as O43 asks: quiet, tidy, its operation in agreement and rising. -/
theorem emptyAllreduce_joins :
    unfixedOp.takeable 0 1 emptyAllreduce = some ({ kind := .sq, pi := 1 }, emptyAllreduce) ∧
    (unfixedOp.operandOf 0 0 emptyAllreduce (.bytes [])).2 = some (.inr []) ∧ unfixedOp.collQuiet 0 = true ∧
    unfixedOp.collTidy 0 = true ∧ (unfixedOp.mParent 0).isSome = true := by decide +kernel

/-- It leaves nothing to carry out, and every entry of the operation done, its own with them. -/
theorem emptyAllreduce_done :
    (unfixedOp.takeCollective 0 1 0x63 emptyAllreduce (.bytes [])).calm = true ∧
    (unfixedAfter.collOp? 0 0).all (fun o => o.posts.all (·.done)) = true := by decide +kernel

/-- Refutes O43: the decided entry of the same host port waits only for COL, which the ALLREDUCE, fixing the operation's opcode, no longer
needs; its completion marks every entry of that host port as done, the new one too, which so does not join undecided. -/
theorem not_collectiveEntriesJoin : ¬ Obligations.CollectiveEntriesJoin := by
  intro h
  obtain ⟨htake, hfate, hquiet, htidy, hparent⟩ := emptyAllreduce_joins
  obtain ⟨hcalm, hdone⟩ := emptyAllreduce_done
  obtain ⟨-, hrest⟩ := h { chip := unfixedOp } 0 1 emptyAllreduce (.bytes [])
  obtain ⟨-, hgo⟩ := hrest _ _ htake
  obtain ⟨-, hengines⟩ := hgo ⟨by decide +kernel, hcalm⟩ (by decide +kernel)
  obtain ⟨-, hjoins, -⟩ := hengines (by decide)
  obtain ⟨-, -, -, hall, -⟩ := hjoins [] (by decide +kernel) (by decide +kernel) hquiet htidy hparent hfate (by decide +kernel)
  obtain ⟨-, -, -, o, y, ho, -, -, hy, hyx⟩ := (hall (by decide)).settled (exec_allreduce ..) (by decide +kernel)
  rw [show unfixedAfter.collOp? 0 0 = some o from ho, Option.all_some] at hdone
  have hydone : y.done = true := List.all_eq_true.1 hdone y hy
  rw [hyx] at hydone
  exact absurd hydone Bool.false_ne_true
end Sys2Proof.Machine
end


section
/-! A discarded tree packet (R249, R260) may change more counters than the one that counts it. -/

set_option Elab.async false

namespace Sys2Proof.Machine

/-- An up packet of a tree that the chip has no part in. -/
def strayUp : Packet := newPacket 1 0x10 0 0 false (BitVec.ofNat 64 (0x60 * 2 ^ 56)) 0 0 0 []

/-- The stray packet has arrived at a chip whose mismatch source of engine 0 has reaction 2, and whose enabled PF has no EQ. -/
def strayArrived : Chip :=
  { boot := { phase := .full }
    funcs := [(0, { Func.init with state := .ready })]
    co := { arrivals := [(0, strayUp)] }
    dict := { active := [(pnum 0x20 0x010 0, 1), (pnum 0x30 0x80 0x100, 2)] } }

/-- The chip that the packet leaves. -/
abbrev strayAfter : Chip := (strayArrived.collectiveUp 0 strayUp false).settle

theorem strayUp_discarded : strayArrived.oldestTree 0 strayUp = true ∧ (strayArrived.admitTree 0 strayUp).2 = none ∧
    (strayArrived.admitTree 0 strayUp).1.calm = true := by decide +kernel

/-- Function 0 counts the event that it has lost. -/
theorem strayUp_counts : Tab.get strayAfter.ctr.functions 1024 0 = 1 := by decide +kernel

/-- Refutes O44: an up packet that comes from no child is discarded and raises the engine's source; with reaction 2 that is an event for
the PF, which has no EQ for it and counts it as lost, beside the count of the discarded packet. -/
theorem not_treePacketsPassUpAndDown : ¬ Obligations.TreePacketsPassUpAndDown := by
  intro h
  obtain ⟨hold, hnone, hcalm⟩ := strayUp_discarded
  obtain ⟨-, -, hdrop, -⟩ := h.1 { chip := strayArrived } 0 0 strayUp COp.init
  obtain ⟨hup, -⟩ := hdrop ⟨by decide, hcalm⟩ hold hnone
  obtain ⟨-, -, hctr⟩ := (hup (by decide +kernel)).settled (exec_collectiveUp ..) (by decide)
  have hlost := strayUp_counts
  rw [show strayAfter.ctr = _ from hctr] at hlost
  exact absurd hlost (by decide +kernel)

end Sys2Proof.Machine
end


section
/-! DEREGISTER of a region (R288, R231) where two open offers share an index. -/

set_option Elab.async false

namespace Sys2Proof.Machine

/-- A DEREGISTER block of region 1. -/
def deregisterOne : RegBlock := { rb0 := BitVec.ofNat 64 (2 * 2 ^ 60 + 1) }

/-- Function 0 with a command that waits at bus address 64, its region 1, and two open offers of the same index, the second one on that
region. -/
def sharedIndex : Chip :=
  { boot := { phase := .full }
    funcs := [(0, { Func.init with state := .ready, regionJobs := [64] })]
    mem := { regions := [(1, { Region.init with length := 4096 })] }
    mt := { sOffers := [{ index := 5 }, { index := 5, lkey := 256 }] }
    dict := { active := [(pnum 0x28 0x020 0, 16)] } }

theorem sharedIndex_serves : sharedIndex.regionHead? 0 = some 64 ∧ sharedIndex.indexOk 0 deregisterOne.index = true ∧
    (Tab.get? sharedIndex.mem.regions deregisterOne.index).isSome = true := by decide +kernel

/-- Without anything left to carry out, the offer on the region is still open. -/
theorem deregisterOne_leavesOffer : (sharedIndex.deregister 0 (some deregisterOne)).calm = true ∧
    ((sharedIndex.deregister 0 (some deregisterOne)).settle.mt.sOffers.any fun o => o.lkey.toNat == 256) = true := by decide +kernel

/-- Refutes O45: the DEREGISTER ends the offers on its region by their indices; where another offer has the same index and comes first,
that one ends in the place of the offer on the region. -/
theorem not_regionsComeAndGo : ¬ Obligations.RegionsComeAndGo := by
  intro h
  obtain ⟨hhead, hindex, hregion⟩ := sharedIndex_serves
  obtain ⟨hcalm, hopen⟩ := deregisterOne_leavesOffer
  obtain ⟨-, -, -, hblock, -⟩ := h { chip := sharedIndex } 0
  obtain ⟨-, hderegister⟩ := hblock 64 deregisterOne hhead
  obtain ⟨-, hgo⟩ := hderegister (by decide)
  obtain ⟨-, -, -, -, -, hoffers, -⟩ := (hgo ⟨by decide, hcalm⟩ hindex hregion).settled (exec_deregister ..) (by decide)
  obtain ⟨o, ho, hkey⟩ := List.any_eq_true.1 hopen
  exact hoffers o ho (beq_iff_eq.1 hkey)

end Sys2Proof.Machine
end


section
/-! The bridge's timeout of a write (R303): its fault record may tell the host. -/

set_option Elab.async false

namespace Sys2Proof.Machine

/-- A posted write of a window is under way, its deadline passed; the bridge's source for it has reaction 2, and the enabled PF takes events
in EQ 1. -/
def lateWrite : Chip :=
  { boot := { phase := .full }
    funcs := [(0, { Func.init with state := .ready, eqValid := true, eqn := 1 })]
    queues := [(1, { kind := .eq })]
    br := { ops := [{ kind := .posted, sent := true }] }
    dict := { active := [(pnum 0x20 0x010 0, 1), (pnum 0x30 0xB1 0x101, 2)] } }

/-- The timeout leaves nothing to carry out, the bridge clear, and an event in the EQ. -/
theorem lateWrite_tells : (lateWrite.bridgeTimeout 0).calm = true ∧ lateWrite.bridgeClear 0 = true ∧
    ((lateWrite.bridgeTimeout 0).settle.queue? 0 1).map (·.pi) = some 1 := by decide +kernel

/-- Refutes O48: the timeout of a posted write raises the bridge's source; with reaction 2 that writes the device fault event into the EQ of
the PF, so that the queues are not as they were. -/
theorem not_windowAccessesBecomeOperations : ¬ Obligations.WindowAccessesBecomeOperations := by
  intro h
  obtain ⟨hcalm, hclear, hpi⟩ := lateWrite_tells
  obtain ⟨-, -, -, -, htimeout⟩ := h { chip := lateWrite } 0
  obtain ⟨-, hgo⟩ := htimeout 0
  obtain ⟨-, hwrite⟩ := hgo ⟨by decide, hcalm⟩ hclear _ rfl rfl (by decide)
  obtain ⟨⟨-, hqueues⟩, -⟩ := (hwrite (by decide)).settled (exec_bridgeTimeout ..) (by decide)
  rw [Chip.queue?, hqueues] at hpi
  exact absurd hpi (by decide)

end Sys2Proof.Machine
end


section
/-! The degradation window (R386) with a limit of no bad windows at all. -/

set_option Elab.async false

namespace Sys2Proof.Machine

/-- Port 0 is Active at x2 with bad codewords on lane 0 only; a window has ended without a NAK, and P19.012 is 0, so that the limit is
reached by no bad window, with the action of giving up the worst lane. -/
def limitOfNone : Chip :=
  { boot := { phase := .full }
    train := [(0, { Port.init with state := .active, lanes := 3 })]
    links := [(0, { Link.init with badWords := [(0, 1)] })]
    dict := { active := [(pnum 0x19 0x011 0, 0), (pnum 0x19 0x012 0, 0), (pnum 0x19 0x013 0, 1)] } }

theorem limitOfNone_windowEnds : limitOfNone.portActive 0 = true ∧ (limitOfNone.degradationWindow 0).calm = true ∧
    worstLane (limitOfNone.link 0).badWords = some 0 := by decide +kernel

/-- The port asks for a retrain. -/
theorem limitOfNone_retrains : ((limitOfNone.degradationWindow 0).settle.tport 0).hs.own = some 5 := by decide +kernel

/-- Refutes O52: a window that is not bad forgets the bad codewords before the action is chosen; with P19.012 at 0 the limit is reached all
the same, and, no lane being the worst any more, the port retrains instead of asking for the other lane. -/
theorem not_linksCarryAndReplay : ¬ Obligations.LinksCarryAndReplay := by
  intro h
  obtain ⟨hactive, hcalm, hworst⟩ := limitOfNone_windowEnds
  obtain ⟨-, -, -, -, hwindow, -⟩ := h { chip := limitOfNone } 0
  obtain ⟨-, hends⟩ := hwindow
  obtain ⟨-, -, -, hasks⟩ := hends ⟨by decide, hcalm⟩ (by decide +kernel)
  obtain ⟨-, -, -, -, -, -, hown, -⟩ :=
    (hasks 0 (by decide +kernel) (by decide) (by decide) (by decide) (by decide) hworst).settled (exec_degradationWindow ..) (by decide)
  exact absurd (hown.symm.trans limitOfNone_retrains) (by decide)

end Sys2Proof.Machine
end


section
/-! An equalisation request (R397) at a port whose state and handshake disagree. -/

set_option Elab.async false

namespace Sys2Proof.Machine

/-- Port 0 waits in Lock, behind the rate switch, for its one lane, which is locked; its handshake is in the last stage of an idle lane, as
that of an Active port may be. -/
def lockedEarly : Chip :=
  { boot := { phase := .full }
    train := [(0, { Port.init with state := .lock, found := 1, lanes := 1, switched := true, hs := { Handshake.init with idleStage := 3 } })]
    lanes := [(0, { Lane.init with blockLock := true, markerLock := true })] }

/-- A request to keep the coefficients, from a lane that is locked. -/
def keepRequest : TrainBlock := { tbtype := 2, locked := true }

/-! Sending on a lane leaves the RSEQ of its transmitter. -/

theorem Chip.lane_emit (c : Chip) (o : Output) (j : Nat) : (c.emit o).lane j = c.lane j := by
  rw [Chip.lane, Chip.emit_lanes, Chip.lane]

theorem Chip.rseq_updLane (c : Chip) (i j : Nat) (f : Lane → Lane) (hf : ∀ x, (f x).rseq = x.rseq) :
    ((c.updLane i f).lane j).rseq = (c.lane j).rseq := by
  rw [Chip.lane_updLane]
  split
  · next h => rw [hf, h]
  · rfl

theorem Chip.rseq_sendParity (c : Chip) (n j : Nat) : ((c.sendParity n).lane j).rseq = (c.lane j).rseq := by
  rw [Chip.sendParity]
  split
  · rfl
  · rw [Chip.lane_emit]
    exact Chip.rseq_updLane _ _ _ _ fun _ => rfl

theorem Chip.rseq_sendSlot (c : Chip) (n : Nat) (b : PortBlock) (j : Nat) : ((c.sendSlot n b).lane j).rseq = (c.lane j).rseq := by
  refine (Chip.rseq_updLane _ _ _ _ fun x => ?_).trans ((Chip.rseq_sendParity ..).trans ?_)
  · split <;> rfl
  · rw [Chip.lane_emit]
    exact Chip.rseq_updLane _ _ _ _ fun _ => rfl

theorem Chip.rseq_sendLane (c : Chip) (n : Nat) (b : PortBlock) (j : Nat) : ((c.sendLane n b).lane j).rseq = (c.lane j).rseq := by
  refine (Chip.rseq_sendSlot ..).trans ?_
  split
  · exact Chip.rseq_sendSlot ..
  · split
    · exact Chip.rseq_sendSlot ..
    · rfl

theorem Chip.rseq_sendBlocks (c : Chip) (p mask k : Nat) (body : List Byte) (j : Nat) :
    ((c.sendBlocks p mask k body).lane j).rseq = (c.lane j).rseq := by
  rw [Chip.sendBlocks]
  induction lposOf mask generalizing c with
  | nil => rfl
  | cons l r ih => exact (ih _).trans ((Chip.rseq_sendLane ..).trans (by rw [Chip.lane_emit]))

theorem Chip.rseq_nextRequest (c : Chip) (p l j : Nat) : ((c.nextRequest p l).lane j).rseq = (c.lane j).rseq := by
  rw [Chip.nextRequest]
  split
  · exact Chip.rseq_sendBlocks ..
  · exact (Chip.rseq_sendBlocks ..).trans (Chip.rseq_updLane _ _ _ _ fun _ => rfl)

/-- An entry to Equalise on lane 0 alone forgets the RSEQ of its transmitter. -/
theorem Chip.rseq_toEqualise_one (c : Chip) (p : Nat) (h : (c.tport p).lanes = 1) : ((c.toEqualise p).lane (laneOf p 0)).rseq = none := by
  rw [Chip.toEqualise, h]
  refine (Chip.rseq_nextRequest ..).trans ?_
  change ((Chip.laneEqualise _ (laneOf p 0)).lane (laneOf p 0)).rseq = none
  rw [Chip.laneEqualise, Chip.lane_updLane, if_pos rfl]

/-- The port once the request has been taken and answered, before it goes on in training. -/
def lockedMet : Chip :=
  ((lockedEarly.takeCommon 0 0 keepRequest).updLane 0 fun x => x.takeRequest keepRequest.body).sendBlocks 0 1 3
    (((lockedEarly.takeCommon 0 0 keepRequest).updLane 0 fun x => x.takeRequest keepRequest.body).lane 0).response

theorem lockedEarly_serves : lockedEarly.up = true ∧ lockedEarly.calm = true ∧ (lockedEarly.tport 0).trains 0 = true ∧
    lockedEarly.equalising 0 = true := by decide +kernel

theorem lockedMet_goesOn : lockedMet.fabUp = true ∧ (lockedMet.tport 0).state = .lock ∧ (lockedMet.tport 0).switched = true ∧
    (lockedMet.tport 0).lanes = 1 ∧ 1 &&& lockedMet.bothWays 0 = 1 := by decide +kernel

/-- The request is taken, and the port goes on to Equalise. -/
theorem lockedEarly_equalises : lockedEarly.eqRequest 0 0 keepRequest = lockedMet.toEqualise 0 := by
  obtain ⟨-, -, htrains, -⟩ := lockedEarly_serves
  obtain ⟨hfab, hstate, hswitched, hlanes, hboth⟩ := lockedMet_goesOn
  have hgoes : lockedMet.trainEval 0 = lockedMet.toEqualise 0 := by
    simp [Chip.trainEval, hfab, hstate, hswitched, hlanes, hboth]
  rw [← hgoes, Chip.eqRequest, Chip.otherBlock, htrains]
  rfl

/-- The port in Equalise, its receiver about to make its next request. -/
def lockedEqualising : Chip :=
  ((lockedMet.updPortT 0 fun t => { t with state := .equalise, since := lockedMet.now }).laneEqualise 0).updPortT 0 fun t =>
    { t with eqOwn := t.eqOwn &&& (3 - 1), eqPeer := t.eqPeer &&& (3 - 1) }

theorem lockedMet_asks : lockedMet.toEqualise 0 = lockedEqualising.nextRequest 0 0 := by
  obtain ⟨-, -, -, hlanes, -⟩ := lockedMet_goesOn
  rw [Chip.toEqualise, hlanes]
  rfl

/-- Whatever the receiver asks for leaves nothing to carry out. -/
theorem lockedEqualising_calm : (lockedEqualising.nextRequest 0 0).calm = true := by
  rw [Chip.nextRequest]
  split
  · rw [Chip.sendBlocks_calm]
    decide +kernel
  · rw [Chip.sendBlocks_calm, Chip.updLane_calm]
    decide +kernel

/-- Refutes O54: the request is answered because the handshake stands in the last stage of an idle lane; the port, in Lock, then goes on to
Equalise, where the transmitter begins anew and forgets the RSEQ of the request. -/
theorem not_portsTrainByStates : ¬ Obligations.PortsTrainByStates := by
  intro h
  obtain ⟨hup, hcalm, htrains, hasks⟩ := lockedEarly_serves
  obtain ⟨-, hblocks, -⟩ := h { chip := lockedEarly } 0
  obtain ⟨-, -, -, -, hrequest, -⟩ := hblocks 0 keepRequest
  obtain ⟨-, htaken⟩ := hrequest ⟨hup, hcalm⟩ htrains rfl
  obtain ⟨-, hrseq, -⟩ := (htaken hasks).settled (exec_equalisationRequest ..) hup
  rw [lockedEarly_equalises, Chip.settle_calm _ (by rw [lockedMet_asks]; exact lockedEqualising_calm)] at hrseq
  obtain ⟨-, -, -, hlanes, -⟩ := lockedMet_goesOn
  rw [Chip.rseq_toEqualise_one _ _ hlanes] at hrseq
  exact absurd hrseq (by decide +kernel)

end Sys2Proof.Machine
end


section
/-! A WGRANT (R403) at a port whose earlier messages have not left yet. -/

set_option Elab.async false

namespace Sys2Proof.Machine

/-- An item of a width-change message with a number that the rule does not use. -/
def oldItem : Nat × List Byte := (3, widthItem 0 0 0 0 0)

/-- Port 0 is Active at x2 and has asked for lane 0 alone, while two earlier messages still wait for an LCB. -/
def messagesWait : Chip :=
  { boot := { phase := .full }
    train := [(0, { Port.init with state := .active, lanes := 3, hs := { Handshake.init with own := some 1, lanes := 1 } })]
    links := [(0, { Link.init with tx := { TxSide.init with items := [oldItem, oldItem] } })] }

/-- The LCB of a port carries a message. -/
def showsMessage (port msg : Nat) : Output → Bool
  | .lcb p l => p == port && l.kind == 3 && l.item.headD 0 == BitVec.ofNat 8 msg
  | _ => false

theorem messagesWait_serves : messagesWait.up = true ∧ messagesWait.calm = true ∧ messagesWait.portActive 0 = true := by decide +kernel

/-- No WSWITCH has left. -/
theorem messagesWait_silent : ((messagesWait.takeWgrant 0 {}).settle.out).any (showsMessage 0 4) = false := by decide +kernel

/-- Refutes O55: the WSWITCH that the grant brings about joins the queue behind the earlier messages, and these leave in the two LCBs. -/
theorem not_widthChangesAndRetrains : ¬ Obligations.WidthChangesAndRetrains := by
  intro h
  obtain ⟨hup, hcalm, hactive⟩ := messagesWait_serves
  obtain ⟨-, hmessages, -⟩ := h { chip := messagesWait } 0
  obtain ⟨-, -, -, -, hmine, -⟩ := hmessages {}
  obtain ⟨-, -, hgrant, -⟩ := hmine ⟨hup, hcalm⟩ hactive rfl
  obtain ⟨-, hsent, -⟩ := (hgrant (by decide) rfl rfl).settled (exec_wgrant ..) hup
  exact absurd (messagesWait_silent.symm.trans hsent) (by decide)

end Sys2Proof.Machine
end


section
/-! Commit, discard and expiry of apply sets (R47 to R50). A set that takes effect leaves the sets, their results, and every parameter
but the lane tests, which return to 0 where a port leaves Disabled (R430). -/

set_option Elab.async false

namespace Sys2Proof.Machine

/-! ### What the effect of a set leaves -/

/-- The number of a test setting of a lane, P18.020 to P18.022. -/
def laneTest (n : Nat) : Bool := pArea n == 0x18 && decide (0x020 ≤ pObj n) && decide (pObj n ≤ 0x022)

/-- The sets, their results, and every active value outside the free numbers have stayed, and with them the defaults. -/
structure Chip.SetsStay (free : Nat → Bool) (c d : Chip) : Prop where
  variant : d.variant = c.variant
  serial : d.serial = c.serial
  strap : d.boot.strapLatch = c.boot.strapLatch
  sets : d.dict.sets = c.dict.sets
  lastResult : d.dict.lastResult = c.dict.lastResult
  active : ∀ n, free n = false → Tab.get? d.dict.active n = Tab.get? c.dict.active n

namespace Chip.SetsStay

variable {free : Nat → Bool}

theorem rfl {c : Chip} : c.SetsStay free c := ⟨.refl _, .refl _, .refl _, .refl _, .refl _, fun _ _ => .refl _⟩

theorem trans {a b c : Chip} (h : a.SetsStay free b) (g : b.SetsStay free c) : a.SetsStay free c where
  variant := g.variant.trans h.variant
  serial := g.serial.trans h.serial
  strap := g.strap.trans h.strap
  sets := g.sets.trans h.sets
  lastResult := g.lastResult.trans h.lastResult
  active := fun n hn => (g.active n hn).trans (h.active n hn)

/-- More numbers may be free. -/
theorem mono {c d : Chip} {more : Nat → Bool} (h : c.SetsStay free d) (hf : ∀ n, more n = false → free n = false) :
    c.SetsStay more d :=
  ⟨h.variant, h.serial, h.strap, h.sets, h.lastResult, fun n hn => h.active n (hf n hn)⟩

/-- What a unit does leaves all of it, be it to channel groups or fences. -/
theorem of_base {c d : Chip} (h : d.kern.base = c.kern.base) : c.SetsStay free d where
  variant := congrArg (·.variant) h
  serial := congrArg (·.serial) h
  strap := congrArg (·.boot.strapLatch) h
  sets := congrArg (·.dict.sets) h
  lastResult := congrArg (·.dict.lastResult) h
  active := fun n _ => congrArg (fun k => Tab.get? k.dict.active n) h

theorem of_kern {c d : Chip} (h : d.kern = c.kern) : c.SetsStay free d := of_base (congrArg Kern.base h)

theorem foldl {α : Type} {g : Chip → α → Chip} {l : List α} (hg : ∀ c, ∀ a ∈ l, Chip.SetsStay free c (g c a)) (c : Chip) :
    c.SetsStay free (l.foldl g c) := by
  induction l generalizing c with
  | nil => exact rfl
  | cons a l ih => exact (hg c a List.mem_cons_self).trans (ih (fun c b hb => hg c b (List.mem_cons_of_mem _ hb)) _)

theorem param {c d : Chip} (h : c.SetsStay free d) {a o e : Nat} (hn : free (pnum a o e) = false) : d.param a o e = c.param a o e := by
  rw [Chip.param, Chip.param, h.active _ hn, h.variant, h.serial, h.strap]

end Chip.SetsStay

theorem Tab.get?_set_ne {α : Type} [DecidableEq α] (t : Tab α) {j k : Nat} (v d : α) (h : j ≠ k) :
    Tab.get? (Tab.set t d k v) j = Tab.get? t j := by
  unfold Tab.set
  split
  · exact Tab.get?_del_ne t h
  · exact Tab.get?_put_ne t v h

/-- A test setting of a lane is none of what stays. -/
theorem Chip.setParam_laneTest (c : Chip) {o e : Nat} (x : Nat) (he : e < 4096) (ho : 0x020 ≤ o ∧ o ≤ 0x022) :
    c.SetsStay laneTest (c.setParam 0x18 o e x) where
  variant := rfl
  serial := rfl
  strap := rfl
  sets := rfl
  lastResult := rfl
  active := fun n hn => Tab.get?_set_ne _ _ _ fun h => by
    have ho' : o < 4096 := by omega
    rw [h, laneTest, pArea_pnum 0x18 o e he ho' (by decide), pObj_pnum 0x18 o e he ho'] at hn
    simp [ho] at hn

theorem laneOf_lt {p l : Nat} (hp : p < 60) (hl : l ∈ lposOf 3) : laneOf p l < 4096 := by
  have : l = 0 ∨ l = 1 := by revert hl; revert l; decide
  unfold laneOf; omega

theorem Chip.clearTests_stay (c : Chip) {p : Nat} (hp : p < 60) : c.SetsStay laneTest (c.clearTests p) := by
  refine .foldl (fun c l hl => ?_) c
  have he := laneOf_lt hp hl
  have h := (c.setParam_laneTest 0 he (o := 0x020) (by decide)).trans
    ((Chip.setParam_laneTest _ 0 he (o := 0x021) (by decide)).trans (Chip.setParam_laneTest _ 0 he (o := 0x022) (by decide)))
  dsimp only
  split
  · exact h.trans (.of_kern (by simp))
  · exact h

theorem Chip.fromDisabled_stay (c : Chip) {p : Nat} (hp : p < 60) : c.SetsStay laneTest (c.fromDisabled p) :=
  (c.clearTests_stay hp).trans (.of_kern (by simp [Chip.fromDisabled]))

theorem Chip.portsFollow_stay (c : Chip) (b : Bool) : c.SetsStay laneTest (c.portsFollow b) := by
  refine .foldl (fun c p hp => ?_) c
  repeat' split
  · exact .rfl
  · exact c.fromDisabled_stay (List.mem_range.mp hp)
  · exact .rfl
  · exact .rfl
  · exact .of_kern (by simp)

theorem Chip.effect10_stay (c old : Chip) : c.SetsStay laneTest (c.effect10 old) := by
  have h : ∀ t, c.SetsStay laneTest { c with dict := { c.dict with committed10 := true, chipIdApplied := true }, tb := t } :=
    fun _ => ⟨rfl, rfl, rfl, rfl, rfl, fun _ _ => rfl⟩
  have hr (x : Chip) (f : Nat → Bool) (l : List Nat) :
      (l.foldl (fun (c : Chip) p => if c.full && f p then c.startRetrain p 12 else c) x).heldAgain.kern = x.kern :=
    (Chip.heldAgain_kern _).trans (foldl_kern (fun d p => by split <;> simp) ..)
  exact (h _).trans ((Chip.portsFollow_stay _ false).trans (.of_kern (hr _ _ _)))

theorem Chip.portSettings_stay (c : Chip) : c.SetsStay laneTest c.portSettings := by
  refine (c.portsFollow_stay false).trans (.of_kern (foldl_kern (fun d p => ?_) ..))
  dsimp only
  (repeat' split) <;> simp

theorem Chip.fullService_stay (c : Chip) : c.SetsStay laneTest c.fullService := by
  have h : c.SetsStay laneTest { c with boot := { c.boot with phase := .full } } := ⟨rfl, rfl, rfl, rfl, rfl, fun _ _ => rfl⟩
  unfold Chip.fullService
  dsimp only
  refine h.trans ((Chip.portsFollow_stay _ true).trans (.of_kern ?_))
  exact (foldl_kern (by simp) ..).trans ((foldl_kern (by simp) ..).trans (foldl_kern (fun d p => by split <;> simp) ..))

theorem Chip.setEffect_stay (c old : Chip) (k : Nat) : c.SetsStay laneTest (c.setEffect old k) := by
  unfold Chip.setEffect
  split
  · exact .of_kern (by simp)
  · exact c.effect10_stay old
  · exact c.portSettings_stay
  · exact .of_kern (by simp)
  · exact .of_kern (by simp)
  · exact .of_kern (by simp)
  · split
    · exact .rfl
    · exact c.fullService_stay
  · exact .rfl

/-! ### Staged values become active -/

theorem pnum_parts (n : Nat) : pnum (pArea n) (pObj n) (pElem n) = n % 2 ^ 32 := by unfold pnum pArea pObj pElem; omega

theorem laneTest_parts (n : Nat) : laneTest (pnum (pArea n) (pObj n) (pElem n)) = laneTest n := by
  have ha : pArea (pnum (pArea n) (pObj n) (pElem n)) = pArea n := by unfold pnum pArea pObj pElem; omega
  have ho : pObj (pnum (pArea n) (pObj n) (pElem n)) = pObj n := by unfold pnum pArea pObj pElem; omega
  rw [laneTest, ha, ho, laneTest]

/-- The test settings are RW, neither of a set nor saved. -/
theorem laneTest_desc {v : Variant} {n : Nat} {d : Desc} (h : laneTest n = true) (hd : descOf v n = some d) :
    d.access = .rw ∧ d.saved = false := by
  simp only [laneTest, Bool.and_eq_true, beq_iff_eq, decide_eq_true_eq] at h
  obtain ⟨⟨ha, h₁⟩, h₂⟩ := h
  have ho : pObj n = 0x020 ∨ pObj n = 0x021 ∨ pObj n = 0x022 := by omega
  unfold descOf at hd
  split at hd
  · contradiction
  · rename_i e he
    have hacc : e.access = .rw ∧ e.saved = false := by
      rw [ha] at he
      rcases ho with ho | ho | ho <;> rw [ho] at he <;> exact Option.some.inj he ▸ ⟨rfl, rfl⟩
    split at hd
    · exact Option.some.inj hd ▸ hacc
    · contradiction

/-- Values stored one after the other, no two in the same element, all stand. -/
theorem Chip.param_foldl_pairs (l : List (Nat × Nat)) (hl : (l.map fun r => r.1 % 2 ^ 32).Nodup) {n x : Nat} (c : Chip)
    (h : (n, x) ∈ l ∨ (∀ r ∈ l, r.1 % 2 ^ 32 ≠ n % 2 ^ 32) ∧ c.param (pArea n) (pObj n) (pElem n) = x) :
    (l.foldl (fun (c : Chip) r => c.setParam (pArea r.1) (pObj r.1) (pElem r.1) r.2) c).param (pArea n) (pObj n) (pElem n) = x := by
  induction l generalizing c with
  | nil => exact (h.resolve_left (by simp)).2
  | cons r l ih =>
    rw [List.map_cons, List.nodup_cons] at hl
    refine ih hl.2 _ ?_
    rcases h with h | ⟨hne, hx⟩
    · obtain rfl | h := List.mem_cons.mp h
      · exact .inr ⟨fun r hr e => hl.1 (List.mem_map.mpr ⟨r, hr, e⟩), Chip.param_setParam_self ..⟩
      · exact .inl h
    · refine .inr ⟨fun r hr => hne r (List.mem_cons_of_mem _ hr), ?_⟩
      rw [Chip.param_setParam_ne, hx]
      rw [pnum_parts, pnum_parts]
      exact Ne.symm (hne r List.mem_cons_self)

/-- The set takes effect: it is idle, and each of its staged values, staged once, is active. -/
theorem Chip.takeEffect_active (c : Chip) (k : Nat) :
    ((c.takeEffect k).applySet k).phase = .idle ∧ (c.takeEffect k).dict.lastResult = c.dict.lastResult ∧
    ((c.dict.staged.map fun r => r.1 % 2 ^ 32).Nodup →
      ∀ n x d, (n, x) ∈ c.dict.staged → descOf c.variant n = some d → d.set = k → d.access = .rwa →
        (c.takeEffect k).param (pArea n) (pObj n) (pElem n) = x) := by
  have h := ((c.withStaged k).unstage k).setEffect_stay c k
  have hw : (c.withStaged k).dict.lastResult = c.dict.lastResult := by
    unfold Chip.withStaged
    generalize c.dict.staged.filter _ = l
    induction l generalizing c with
    | nil => rfl
    | cons r l ih => exact ih _ (Chip.setEffect_stay ..)
  refine ⟨?_, h.lastResult.trans hw, fun hl n x d hn hd hs ha => ?_⟩
  · rw [Chip.applySet, Chip.takeEffect, h.sets]
    exact congrArg (fun o => (o.getD ApplySet.init).phase) (Tab.get?_del_self ..)
  · have ht : laneTest (pnum (pArea n) (pObj n) (pElem n)) = false := by
      rw [laneTest_parts, ← Bool.not_eq_true]
      exact fun ht => absurd (ha.symm.trans (laneTest_desc ht hd).1) (by decide)
    rw [Chip.takeEffect, h.param ht]
    refine Chip.param_foldl_pairs _ (hl.sublist ((List.filter_sublist ..).map _)) c (.inl ?_)
    exact List.mem_filter.mpr ⟨hn, by simp [Chip.setOf, hd, hs]⟩

/-! ### The commands -/

section
variable {s : State} {w : Writer} {k : Nat}

/-- A commit that no lock stands against is executed and answered. -/
theorem commit_completes (hm : s.chip.mayWrite w (pnum 0x01 0x001 k) = true) (hk : k < 4096) {t : Word}
    (hp : (s.chip.applySet k).phase ≠ .scheduled)
    (hh : (s.chip.applySet k).phase = .staging → (s.chip.applySet k).holder = some w ∨ w.isF = true) :
    s.chip.numWrite w 0x01 0x001 k 8 t.toNat = (s.chip.commitSet k t).1.replied w (s.chip.commitSet k t).2 := by
  have h := Chip.numWrite_command hm hk (d := { ty := .time64, access := .wo, writers := wFBH, elements := 256 }) (hd := rfl)
    (hw := rfl) (ht := by decide) (x := t.toNat) (hx := t.isLt) (hk := rfl) (hv := rfl) (hr := rfl) (idx := none) (hl := by
      rw [Chip.locked, if_neg (by decide), if_neg (by rw [pArea_pnum _ _ _ hk (by decide) (by decide)]; decide),
        pObj_pnum _ _ _ hk (by decide)]
      simp only [pElem_pnum _ _ _ hk, Chip.notHolder]
      cases hx : (s.chip.applySet k).phase
      case idle => simp
      case staging => simpa using or_iff_not_imp_left.mp (hh hx)
      case scheduled => exact absurd hx hp)
  rw [Chip.command, BitVec.ofNat_toNat, BitVec.setWidth_eq] at h
  exact h

end

theorem Chip.replied_lastResult (c : Chip) (w : Writer) (k : Nat) : (c.replied w k).dict.lastResult = c.dict.lastResult := by
  obtain ⟨l, h⟩ := c.replied_same w k; rw [h]

theorem Chip.putResult_result (c : Chip) (k : Nat) (r : Word) : Tab.get (c.putResult k r).dict.lastResult k 0 = r :=
  Tab.get_set_self c.dict.lastResult k r 0

/-- A set that is unstaged is idle, none of its values is staged any more, and the active ones stay. -/
theorem Chip.unstage_gone (c : Chip) (k : Nat) :
    ((c.unstage k).applySet k).phase = .idle ∧ (∀ r ∈ (c.unstage k).dict.staged, c.setOf r.1 ≠ k) ∧
    (c.unstage k).dict.active = c.dict.active := by
  refine ⟨congrArg (fun o => (o.getD ApplySet.init).phase) (Tab.get?_del_self ..), fun r hr => ?_, rfl⟩
  simpa [Chip.setOf] using (List.mem_filter.mp hr).2

/-- A refused commit discards the set and keeps what refused it. -/
theorem Chip.refused_gone (c : Chip) (k : Nat) (r : Word) (w : Writer) :
    let d := ((c.unstage k).putResult k r).replied w 0x0A
    (d.applySet k).phase = .idle ∧ Tab.get d.dict.lastResult k 0 = r ∧ d.dict.active = c.dict.active ∧
      (∀ x ∈ d.dict.staged, c.setOf x.1 ≠ k) ∧ d.out = c.out ++ [.dictReply w 0x0A []] := by
  obtain ⟨hp, hs, ha⟩ := c.unstage_gone k
  obtain ⟨l, hr⟩ := ((c.unstage k).putResult k r).replied_same w 0x0A
  dsimp only
  rw [hr]
  exact ⟨hp, Chip.putResult_result .., ha, hs, rfl⟩

section
variable {s : State} {w : Writer} {k : Nat}

theorem commit_idle (hc : s.chip.calm = true) (hm : s.chip.mayWrite w (pnum 0x01 0x001 k) = true) (hk : k < 4096) (t : Word)
    (hi : (s.chip.applySet k).phase = .idle) :
    Completes (.commit w k t) s fun c =>
      c.dict.sets = s.chip.dict.sets ∧ c.dict.staged = s.chip.dict.staged ∧ c.dict.active = s.chip.dict.active ∧
      c.out = s.chip.out ++ [.dictReply w 0 []] := by
  have h := commit_completes hm hk (t := t) (by rw [hi]; decide) (by rw [hi]; exact fun h => absurd h (by decide))
  rw [Chip.commitSet, if_pos (by rw [hi]; decide)] at h
  refine .of_runAny (exec_commit ..) ?_ ?_ <;> rw [h]
  · simpa using hc
  · simp

section
variable (hm : s.chip.mayWrite w (pnum 0x01 0x001 k) = true) (hk : k < 4096) {t : Word} (hi : (s.chip.applySet k).phase = .staging)
  (hh : (s.chip.applySet k).holder = some w ∨ w.isF = true) (ht : t.toNat ≤ s.chip.tb.time.toNat + tenSeconds)
  (h38 : k = 0x38 → Tab.get s.chip.dict.staged (pnum 0x38 0x040 0) 0 ≠ 0)
include hm hk hi hh ht h38

/-- The commit of a staging set is the outcome of the set's checks. -/
theorem commit_staging : s.chip.numWrite w 0x01 0x001 k 8 t.toNat =
    match (s.chip.withStaged k).setCheck s.chip k with
    | some n => ((s.chip.unstage k).putResult k (refusal n)).replied w 0x0A
    | none =>
      if t.toNat ≤ s.chip.tb.time.toNat then ((s.chip.putResult k 0).takeEffect k).replied w 0
      else (Chip.replied { s.chip with dict := { s.chip.dict with
        sets := Tab.upd s.chip.dict.sets k ApplySet.init fun x => { x with phase := .scheduled, commitAt := t }
        lastResult := Tab.set s.chip.dict.lastResult 0 k 0 } } w 0) := by
  rw [commit_completes hm hk (by rw [hi]; decide) fun _ => hh]
  unfold Chip.commitSet
  dsimp only
  rw [if_neg (by simp [hi]), if_neg (by omega), if_neg (by tauto)]
  cases (s.chip.withStaged k).setCheck s.chip k with
  | some n => rfl
  | none => dsimp only; split <;> rfl

theorem commit_scheduled (hc : s.chip.calm = true) (hn : (s.chip.withStaged k).setCheck s.chip k = none)
    (hf : s.chip.tb.time.toNat < t.toNat) :
    Completes (.commit w k t) s fun c =>
      (c.applySet k).phase = .scheduled ∧ (c.applySet k).commitAt = t ∧ c.dict.active = s.chip.dict.active ∧
      c.out = s.chip.out ++ [.dictReply w 0 []] := by
  have h := commit_staging hm hk hi hh ht h38
  rw [hn, if_neg (Nat.not_le.mpr hf)] at h
  refine .of_runAny (exec_commit ..) ?_ ?_ <;> rw [h]
  · simpa using hc
  · simp [Chip.applySet]

theorem commit_now (hn : (s.chip.withStaged k).setCheck s.chip k = none) (hp : t.toNat ≤ s.chip.tb.time.toNat)
    (hc : (s.chip.numWrite w 0x01 0x001 k 8 t.toNat).calm = true) :
    Completes (.commit w k t) s fun c =>
      (c.applySet k).phase = .idle ∧ Tab.get c.dict.lastResult k 0 = 0 ∧
      ((s.chip.dict.staged.map fun r => r.1 % 2 ^ 32).Nodup →
        ∀ n x d, (n, x) ∈ s.chip.dict.staged → descOf s.chip.variant n = some d → d.set = k → d.access = .rwa →
          c.param (pArea n) (pObj n) (pElem n) = x) := by
  have h := commit_staging hm hk hi hh ht h38
  rw [hn, if_pos hp] at h
  obtain ⟨hs, hl, ha⟩ := (s.chip.putResult k 0).takeEffect_active k
  refine .of_runAny (exec_commit ..) hc ?_
  simp only [h]
  refine ⟨?_, ?_, fun hd n x d hx hv hk hw => (Chip.replied_param ..).trans (ha hd n x d hx hv hk hw)⟩
  · rwa [Chip.applySet, Chip.replied_dict_sets]
  · rw [Chip.replied_lastResult, hl, Chip.putResult_result]

theorem commit_refused {n : Nat} (hc : s.chip.calm = true) (hn : (s.chip.withStaged k).setCheck s.chip k = some n) :
    Completes (.commit w k t) s fun c =>
      (c.applySet k).phase = .idle ∧ Tab.get c.dict.lastResult k 0 = refusal n ∧ c.dict.active = s.chip.dict.active ∧
      (∀ r ∈ c.dict.staged, s.chip.setOf r.1 ≠ k) ∧ c.out = s.chip.out ++ [.dictReply w 0x0A []] := by
  have h := commit_staging hm hk hi hh ht h38
  rw [hn] at h
  dsimp only at h
  refine .of_runAny (exec_commit ..) ?_ ?_ <;> rw [h]
  · simpa using hc
  · exact s.chip.refused_gone k _ w

end

theorem setTakesEffect_active (hs : s.leaves fun c => c.setDue k) (hp : (s.chip.applySet k).phase = .scheduled)
    (ht : (s.chip.applySet k).commitAt.toNat ≤ s.chip.tb.time.toNat)
    (hf : ∀ r ∈ s.chip.dict.sets, r.2.phase = .scheduled → r.2.commitAt = (s.chip.applySet k).commitAt → k ≤ r.1) :
    Completes (.setTakesEffect k) s fun c =>
      (c.applySet k).phase = .idle ∧
      ((s.chip.dict.staged.map fun r => r.1 % 2 ^ 32).Nodup →
        ∀ n x d, (n, x) ∈ s.chip.dict.staged → descOf s.chip.variant n = some d → d.set = k → d.access = .rwa →
          c.param (pArea n) (pObj n) (pElem n) = x) := by
  have h : s.chip.setDue k = s.chip.takeEffect k := by
    unfold Chip.setDue
    refine if_pos ⟨hp, ht, ?_⟩
    simp only [Bool.not_eq_true', List.any_eq_false, Bool.and_eq_true, beq_iff_eq, decide_eq_true_eq, not_and, Nat.not_lt, and_imp]
    exact fun r hr h₁ h₂ => hf r hr h₁ h₂
  obtain ⟨hi, -, ha⟩ := s.chip.takeEffect_active k
  refine .of_run (exec_setTakesEffect ..) hs.1 hs.2 ?_
  simp only [h]
  exact ⟨hi, ha⟩

theorem discard_gone (hs : s.serving) (hm : s.chip.mayWrite w (pnum 0x01 0x002 k) = true) (hk : k < 4096)
    (hp : (s.chip.applySet k).phase ≠ .idle) (hh : (s.chip.applySet k).holder = some w ∨ w.isF = true) :
    Completes (.discard w k 1) s fun c =>
      ((c.applySet k).phase = .idle ∧ (∀ r ∈ c.dict.staged, s.chip.setOf r.1 ≠ k) ∧ c.dict.active = s.chip.dict.active) ∧
      c.out = s.chip.out ++ [.dictReply w 0 []] := by
  have h := Chip.numWrite_command hm hk (d := { ty := .bool, access := .wo, writers := wFBH, elements := 256 }) (hd := rfl)
    (hw := rfl) (ht := by decide) (x := 1) (hx := by decide) (hk := rfl) (hv := rfl) (hr := rfl) (idx := none) (hl := by
      rw [Chip.locked, if_neg (by decide), if_neg (by rw [pArea_pnum _ _ _ hk (by decide) (by decide)]; decide),
        pObj_pnum _ _ _ hk (by decide)]
      simp only [pElem_pnum _ _ _ hk, Chip.notHolder]
      simpa [hp] using fun hx => (or_iff_not_imp_left.mp hh) hx)
  rw [Chip.command, if_pos ⟨rfl, hp⟩] at h
  obtain ⟨hi, hs', ha⟩ := s.chip.unstage_gone k
  refine .of_runAny (exec_discard ..) ?_ ?_
  · exact (congrArg Chip.calm h).trans (by simpa using hs.2)
  · have h' : s.chip.numWrite w 0x01 0x002 k 1 1 = (s.chip.unstage k).replied w 0 := h
    rw [h']
    obtain ⟨l, hr⟩ := (s.chip.unstage k).replied_same w 0
    exact hr ▸ ⟨⟨hi, hs', ha⟩, rfl⟩

theorem discard_other (hs : s.serving) (hm : s.chip.mayWrite w (pnum 0x01 0x002 k) = true) {v : Nat} (hv : v ≠ 1) :
    Completes (.discard w k v) s fun c => c.dict.sets = s.chip.dict.sets ∧ c.dict.staged = s.chip.dict.staged := by
  have h : s.chip.numWrite w 0x01 0x002 k 1 v = s.chip ∨ ∃ a, s.chip.numWrite w 0x01 0x002 k 1 v = s.chip.replied w a := by
    by_cases hk : k < 4096
    · exact Chip.numWrite_idle hm hk (d := { ty := .bool, access := .wo, writers := wFBH, elements := 256 }) (hd := rfl) (hw := rfl)
        (ht := by decide) (hk := rfl) (idx := none) (hx := by rw [Chip.command, if_neg fun h => hv h.1]) (hl := by
          rw [Chip.locked, if_neg (by decide), if_neg (by rw [pArea_pnum _ _ _ hk (by decide) (by decide)]; decide),
            pObj_pnum _ _ _ hk (by decide)]
          simp [hv])
    · exact .inl (if_neg fun h => hk h.1)
  obtain h | ⟨a, h⟩ := h <;> refine .of_runAny (exec_discard ..) ?_ ?_ <;> rw [h] <;> simp [hs.2]

theorem holderTimeout_gone (hs : s.serving) (hp : (s.chip.applySet k).phase = .staging)
    (ht : (s.chip.applySet k).lastStaged + 1000000 * s.chip.param 0x01 0x020 0 ≤ s.chip.now) :
    Completes (.holderTimeout k) s fun c =>
      (c.applySet k).phase = .idle ∧ (∀ r ∈ c.dict.staged, s.chip.setOf r.1 ≠ k) ∧ c.dict.active = s.chip.dict.active := by
  have h : s.chip.holderTimeout k = s.chip.unstage k := if_pos ⟨hp, ht⟩
  refine .of_run (exec_holderTimeout ..) hs.1 ?_ ?_ <;> simp only [h]
  · simpa using hs.2
  · exact s.chip.unstage_gone k

end

/-- Settles O16. -/
theorem setsAreCommittedWholeOrDiscarded : Obligations.SetsAreCommittedWholeOrDiscarded := by
  refine ⟨fun s w k t _ hm hk => ⟨fun hc hi => commit_idle hc hm hk t hi, fun hi hh ht h38 =>
    ⟨fun hc hn hf => commit_scheduled hm hk hi hh ht h38 hc hn hf, fun hn hp hc => commit_now hm hk hi hh ht h38 hn hp hc,
      fun n hc hn => commit_refused hm hk hi hh ht h38 hc hn⟩⟩, fun s k => ⟨?_, ?_, ?_, ?_⟩⟩
  · exact fun hs hp ht hf => setTakesEffect_active hs hp ht hf
  · exact fun w hs hm hk hp hh => discard_gone hs hm hk hp hh
  · exact fun w v hs hm hv => discard_other hs hm hv
  · exact fun hs hp ht => holderTimeout_gone hs hp ht

end Sys2Proof.Machine
end


section
/-! RESTORE_DEFAULTS and RESTORE_SAVED (R53). -/

set_option Elab.async false

namespace Sys2Proof.Machine

/-! ### What follows a change of stored values -/

/-- The number of the attributes of an export entry, P28.032. -/
def exportAttr (n : Nat) : Bool := pArea n == 0x28 && pObj n == 0x032

/-- Nothing but attributes of export entries has changed, and of these none that had its default. -/
structure Chip.ExportsGo (c d : Chip) : Prop where
  stay : c.SetsStay exportAttr d
  default : ∀ n, Tab.get? c.dict.active n = none → Tab.get? d.dict.active n = none

namespace Chip.ExportsGo

theorem rfl {c : Chip} : c.ExportsGo c := ⟨.rfl, fun _ h => h⟩

theorem trans {a b c : Chip} (h : a.ExportsGo b) (g : b.ExportsGo c) : a.ExportsGo c :=
  ⟨h.stay.trans g.stay, fun n hn => g.default n (h.default n hn)⟩

theorem of_base {c d : Chip} (h : d.kern.base = c.kern.base) : c.ExportsGo d :=
  ⟨.of_base h, fun n hn => (congrArg (fun k : Base => Tab.get? k.dict.active n) h).trans hn⟩

theorem of_kern {c d : Chip} (h : d.kern = c.kern) : c.ExportsGo d := of_base (congrArg Kern.base h)

theorem foldl {α : Type} {g : Chip → α → Chip} {l : List α} (hg : ∀ c, ∀ a ∈ l, Chip.ExportsGo c (g c a)) (c : Chip) :
    c.ExportsGo (l.foldl g c) := by
  induction l generalizing c with
  | nil => exact rfl
  | cons a l ih => exact (hg c a List.mem_cons_self).trans (ih (fun c b hb => hg c b (List.mem_cons_of_mem _ hb)) _)

end Chip.ExportsGo

theorem Chip.setParam_exportAttr (c : Chip) {n : Nat} (x : Nat) (hn : n < 4096)
    (h : Tab.get? c.dict.active (pnum 0x28 0x032 n) ≠ none) : c.ExportsGo (c.setParam 0x28 0x032 n x) where
  stay := ⟨rfl, rfl, rfl, rfl, rfl, fun m hm => Tab.get?_set_ne _ _ _ fun e => by
    rw [e, exportAttr, pArea_pnum 0x28 0x032 n hn (by decide) (by decide), pObj_pnum 0x28 0x032 n hn (by decide)] at hm
    exact absurd hm (by decide)⟩
  default := fun m hm => (Tab.get?_set_ne c.dict.active (j := m) (k := pnum 0x28 0x032 n) _ _ fun e => h (e ▸ hm)).trans hm

/-- An entry with its default is not valid: it is not withdrawn. -/
theorem Chip.withdrawExport_go (c : Chip) (size : Nat) {n : Nat} (hn : n < 4096) : c.ExportsGo (c.withdrawExport size n) := by
  unfold Chip.withdrawExport
  dsimp only
  split
  · rename_i h
    refine (c.setParam_exportAttr _ hn fun h0 => ?_).trans
      (.of_kern ((Chip.endKeyOffers_kern ..).trans (Chip.nextExportGen_kern ..)))
    have hx : c.param 0x28 0x032 n = 0 := by rw [Chip.param, h0]; rfl
    rw [hx] at h
    exact absurd (Bool.and_eq_true_iff.mp h).1 (by decide)
  · exact .rfl

theorem Chip.withdrawExports_go (c : Chip) (size : Nat) {l : List Nat} (hl : ∀ n ∈ l, n < 4096) :
    c.ExportsGo (c.withdrawExports size l) := .foldl (fun c n hn => c.withdrawExport_go size (hl n hn)) c

theorem Chip.withdraw_go (c : Chip) : c.ExportsGo c.withdraw :=
  (c.withdrawExports_go c.mem.size fun _ hn => List.mem_range.mp hn).trans (.of_kern (Chip.withdrawRanges_kern ..))

theorem Chip.beginRetire_go (c : Chip) (g : Nat) : c.ExportsGo (c.beginRetire g) := by
  unfold Chip.beginRetire
  split
  · exact .rfl
  · exact (Chip.ExportsGo.of_base (c.migrate_base g)).trans ((Chip.withdraw_go _).trans (.of_kern (Chip.setCond_kern ..)))

theorem Chip.retireRuleChanged_go (c old : Chip) : c.ExportsGo (c.retireRuleChanged old) := by
  unfold Chip.retireRuleChanged
  split
  · exact .rfl
  · refine .foldl (fun c g _ => ?_) c
    unfold Chip.autoRetire
    dsimp only
    split
    · exact c.beginRetire_go g
    · exact .rfl

theorem Chip.followUps_go (c old : Chip) : c.ExportsGo (c.followUps old) := by
  have held (c : Chip) (l : List HeldValue) : c.ExportsGo { c with dict := { c.dict with held := l } } :=
    ⟨⟨rfl, rfl, rfl, rfl, rfl, fun _ _ => rfl⟩, fun _ h => h⟩
  have cache (c : Chip) (b : Tab BcastRec) (l : List ShimReply) :
      c.ExportsGo { c with rt := { c.rt with bcasts := b }, dict := { c.dict with shimCache := l } } :=
    ⟨⟨rfl, rfl, rfl, rfl, rfl, fun _ _ => rfl⟩, fun _ h => h⟩
  unfold Chip.followUps
  dsimp only
  refine .trans ?_ (Chip.retireRuleChanged_go _ old)
  refine .trans ?_ (cache _ _ _)
  have rights : c.ExportsGo ((List.range 4).foldl (fun c h => if old.fmRight h && !c.fmRight h then c.emptyMgmt h else c) c) :=
    .of_kern (foldl_kern (fun c h => by split <;> simp) ..)
  split
  · exact rights.trans (held _ _)
  · exact rights

/-! ### The values of a bank -/

/-- A value that a bank may hold for a saved number that is present. -/
structure Chip.Loads (c : Chip) (n v : Nat) (d : Desc) : Prop where
  desc : descOf c.variant n = some d
  saved : d.saved = true
  present : elementPresent c.variant d (pArea n) (pObj n) (pElem n) = true
  inRange : valueOk d (pArea n) (pObj n) (pElem n) (keepBits (pArea n) (pObj n) v) = true

/-- What loading one value does: nothing of what stays outside its element. -/
theorem Chip.loadValue_stay (c : Chip) (n v : Nat) : c.SetsStay (fun m => m == n % 2 ^ 32) (c.loadValue n v) := by
  unfold Chip.loadValue
  repeat' split
  · exact .rfl
  · exact .rfl
  · exact ⟨rfl, rfl, rfl, rfl, rfl, fun m hm => Tab.get?_set_ne _ _ _ (by rw [pnum_parts]; simpa using hm)⟩
  · exact .of_kern (Chip.raise_kern ..)

theorem Chip.loadValue_loads {c : Chip} {n v : Nat} {d : Desc} (h : c.Loads n v d) : c.loadValue n v =
    c.setParam (pArea n) (pObj n) (pElem n) (storedForm (pArea n) (pObj n) (pElem n) (keepBits (pArea n) (pObj n) v)) := by
  unfold Chip.loadValue
  rw [h.desc]
  simp [h.saved, h.present, h.inRange]

/-- The values of a bank, no two for the same element, all stand. -/
theorem Chip.loadValues_param {l : List (Nat × Nat)} (hl : (l.map fun r => r.1 % 2 ^ 32).Nodup) {n v : Nat} {d : Desc} {c : Chip}
    (h : c.Loads n v d) (hm : (n, v) ∈ l) :
    (l.foldl (fun (c : Chip) (r : Nat × Nat) => c.loadValue r.1 r.2) c).param (pArea n) (pObj n) (pElem n) =
      storedForm (pArea n) (pObj n) (pElem n) (keepBits (pArea n) (pObj n) v) := by
  induction l generalizing c with
  | nil => simp at hm
  | cons r l ih =>
    rw [List.map_cons, List.nodup_cons] at hl
    obtain rfl | hm := List.mem_cons.mp hm
    · have hs : (c.loadValue n v).SetsStay (fun m => l.any fun r => m == r.1 % 2 ^ 32)
          (l.foldl (fun (c : Chip) (r : Nat × Nat) => c.loadValue r.1 r.2) (c.loadValue n v)) :=
        .foldl (fun c r hr => (c.loadValue_stay r.1 r.2).mono fun m hm => by simpa using List.any_eq_false.mp hm r hr) _
      rw [List.foldl_cons, hs.param, Chip.loadValue_loads h, Chip.param_setParam_self]
      rw [pnum_parts, List.any_eq_false]
      exact fun r hr e => hl.1 (List.mem_map.mpr ⟨r, hr, (beq_iff_eq.mp e).symm⟩)
    · refine ih hl.2 ?_ hm
      have hv : (c.loadValue r.1 r.2).variant = c.variant := (c.loadValue_stay r.1 r.2).variant
      exact ⟨hv ▸ h.desc, h.saved, hv ▸ h.present, h.inRange⟩

/-! ### A restore -/

/-- The chip with the values of a bank over the defaults. -/
def Chip.restored (c : Chip) (bank : Option Bank) : Chip :=
  let base : Chip := { c with dict := { c.dict with
    active := Tab.keep c.dict.active fun n _ => !c.savedNumber n
    fdpKey := bank.bind (·.key) } }
  match bank with
  | none => base
  | some b => b.values.foldl (fun (c : Chip) (r : Nat × Nat) => c.loadValue r.1 r.2) base

/-- The sets of saved parameters take effect. -/
def Chip.restoredSets (c old : Chip) : Chip := savedSets.foldl (fun (x : Chip) s => (x.putResult s 0).setEffect old s) c

/-- A restore is refused by the first check that fails, or all of it takes effect. -/
theorem Chip.restore_eq (c : Chip) (bank : Option Bank) : c.restore bank =
    match savedSets.findSome? fun s => ((c.restored bank).setCheck c s).map fun n => (s, n) with
    | some (s, n) => (c.putResult s (refusal n), 0x0A)
    | none => (((c.restored bank).restoredSets c).followUps c, 0) := rfl

/-- The identity, the strap and the active values outside the free numbers have stayed. -/
structure Chip.ValuesStay (free : Nat → Bool) (c d : Chip) : Prop where
  variant : d.variant = c.variant
  serial : d.serial = c.serial
  strap : d.boot.strapLatch = c.boot.strapLatch
  active : ∀ n, free n = false → Tab.get? d.dict.active n = Tab.get? c.dict.active n

namespace Chip.ValuesStay

variable {free : Nat → Bool}

theorem of_sets {c d : Chip} (h : c.SetsStay free d) : c.ValuesStay free d := ⟨h.variant, h.serial, h.strap, h.active⟩

theorem trans {a b c : Chip} (h : a.ValuesStay free b) (g : b.ValuesStay free c) : a.ValuesStay free c where
  variant := g.variant.trans h.variant
  serial := g.serial.trans h.serial
  strap := g.strap.trans h.strap
  active := fun n hn => (g.active n hn).trans (h.active n hn)

theorem param {c d : Chip} (h : c.ValuesStay free d) {n : Nat} (hn : free (pnum (pArea n) (pObj n) (pElem n)) = false) :
    d.param (pArea n) (pObj n) (pElem n) = c.param (pArea n) (pObj n) (pElem n) := by
  rw [Chip.param, Chip.param, h.active _ hn, h.variant, h.serial, h.strap]

end Chip.ValuesStay

theorem Chip.restoredSets_stay (c old : Chip) : c.ValuesStay laneTest (c.restoredSets old) := by
  unfold Chip.restoredSets
  generalize savedSets = l
  induction l generalizing c with
  | nil => exact ⟨rfl, rfl, rfl, fun _ _ => rfl⟩
  | cons k l ih =>
    have h : c.ValuesStay laneTest (c.putResult k 0) := ⟨rfl, rfl, rfl, fun _ _ => rfl⟩
    exact (h.trans (.of_sets (Chip.setEffect_stay ..))).trans (ih _)

/-- Result 0 is recorded for every set. -/
theorem Chip.restoredSets_result (c old : Chip) {k : Nat} (hk : k ∈ savedSets) : Tab.get (c.restoredSets old).dict.lastResult k 0 = 0 := by
  have h (l : List Nat) (c : Chip) (hk : k ∈ l ∨ Tab.get c.dict.lastResult k 0 = 0) :
      Tab.get (l.foldl (fun (x : Chip) s => (x.putResult s 0).setEffect old s) c).dict.lastResult k 0 = 0 := by
    induction l generalizing c with
    | nil => exact hk.resolve_left (by simp)
    | cons j l ih =>
      refine ih _ ?_
      rw [((c.putResult j 0).setEffect_stay old j).lastResult]
      by_cases hj : k = j
      · exact .inr (hj ▸ Chip.putResult_result ..)
      · refine hk.imp (fun h => (List.mem_cons.mp h).resolve_left hj) fun h => ?_
        exact (Tab.get_set_ne c.dict.lastResult 0 0 hj).trans h
  exact h savedSets c (.inl hk)

theorem savedNumber_not_laneTest {c : Chip} {n : Nat} (h : c.savedNumber n = true) : laneTest n = false := by
  unfold Chip.savedNumber at h
  cases hd : descOf c.variant n with
  | none => simp [hd] at h
  | some d =>
    rw [← Bool.not_eq_true]
    intro ht
    have hs : d.saved = true := by simpa [hd] using h
    exact absurd (hs.symm.trans (laneTest_desc ht hd).2) (by decide)

theorem Tab.get?_keep_none {α : Type} (t : Tab α) {p : Nat → α → Bool} {k : Nat} (h : ∀ v, p k v = false) :
    Tab.get? (Tab.keep t p) k = none := by
  cases e : Tab.get? (Tab.keep t p) k with
  | none => rfl
  | some v =>
    have hp := (List.mem_filter.mp (Tab.mem_of_get? _ _ _ e)).2
    exact absurd (hp.symm.trans (h v)) (by decide)

/-- Loading values leaves every number that none of them has. -/
theorem Chip.loadValues_stay (c : Chip) (l : List (Nat × Nat)) : c.SetsStay (fun m => l.any fun r => m == r.1 % 2 ^ 32)
    (l.foldl (fun (c : Chip) (r : Nat × Nat) => c.loadValue r.1 r.2) c) :=
  .foldl (fun c r hr => (c.loadValue_stay r.1 r.2).mono fun m hm => by simpa using List.any_eq_false.mp hm r hr) _

section
variable {c : Chip} {bank : Option Bank}

/-- A saved number that the bank does not name has no written value. -/
theorem Chip.restored_unnamed {n : Nat} (hs : c.savedNumber n = true)
    (hn : ∀ x, bank = some x → ∀ r ∈ x.values, r.1 % 2 ^ 32 ≠ n % 2 ^ 32) : Tab.get? (c.restored bank).dict.active n = none := by
  have base : Tab.get? (Tab.keep c.dict.active fun n _ => !c.savedNumber n) n = none := Tab.get?_keep_none _ fun _ => by simp [hs]
  cases bank with
  | none => exact base
  | some b =>
    refine ((Chip.loadValues_stay _ b.values).active n ?_).trans base
    refine List.any_eq_false.mpr fun r hr e => hn b rfl r hr ?_
    have e : n = r.1 % 2 ^ 32 := by simpa using e
    omega

/-- A saved number that the bank names once has its value. -/
theorem Chip.restored_named {b : Bank} (hb : (b.values.map fun r => r.1 % 2 ^ 32).Nodup) {n v : Nat} (hm : (n, v) ∈ b.values)
    {d : Desc} (h : c.Loads n v d) : (c.restored (some b)).param (pArea n) (pObj n) (pElem n) =
      storedForm (pArea n) (pObj n) (pElem n) (keepBits (pArea n) (pObj n) v) :=
  Chip.loadValues_param hb ⟨h.desc, h.saved, h.present, h.inRange⟩ hm

/-- A restore that no check refuses. -/
theorem Chip.restore_passes (h : c.restoreRefused bank = false) :
    c.restore bank = (((c.restored bank).restoredSets c).followUps c, 0) := by
  rw [Chip.restoreRefused, Chip.restore_eq] at h
  rw [Chip.restore_eq]
  split at h
  · simp at h
  · rfl

/-- A restore that a check refuses records that alone. -/
theorem Chip.restore_refused (h : c.restoreRefused bank = true) : ∃ s r, c.restore bank = (c.putResult s r, 0x0A) := by
  rw [Chip.restoreRefused, Chip.restore_eq] at h
  rw [Chip.restore_eq]
  split at h
  · exact ⟨_, _, rfl⟩
  · simp at h

/-- Everything that a restore leaves, where no check refuses it. -/
theorem Chip.restore_done (h : c.restoreRefused bank = false) :
    (∀ k ∈ savedSets, Tab.get (c.restore bank).1.dict.lastResult k 0 = 0) ∧
    (∀ n, c.savedNumber n = true → (∀ x, bank = some x → ∀ r ∈ x.values, r.1 % 2 ^ 32 ≠ n % 2 ^ 32) →
      Tab.get? (c.restore bank).1.dict.active n = none) ∧
    (∀ x n v d, bank = some x → (x.values.map fun r => r.1 % 2 ^ 32).Nodup → (n, v) ∈ x.values → c.Loads n v d →
      pArea n ≠ 0x28 ∨ pObj n ≠ 0x032 →
      (c.restore bank).1.param (pArea n) (pObj n) (pElem n) =
        storedForm (pArea n) (pObj n) (pElem n) (keepBits (pArea n) (pObj n) v)) := by
  rw [Chip.restore_passes h]
  have hf := ((c.restored bank).restoredSets c).followUps_go c
  have hs := (c.restored bank).restoredSets_stay c
  refine ⟨fun k hk => ?_, fun n hn hb => ?_, fun x n v d hb hd hm hl hx => ?_⟩
  · rw [hf.stay.lastResult]
    exact Chip.restoredSets_result _ c hk
  · exact hf.default n ((hs.active n (savedNumber_not_laneTest hn)).trans (Chip.restored_unnamed hn hb))
  · subst hb
    have ht : laneTest n = false := savedNumber_not_laneTest (c := c) (by simp [Chip.savedNumber, hl.desc, hl.saved])
    have he : exportAttr (pnum (pArea n) (pObj n) (pElem n)) = false := by
      have ha : pArea (pnum (pArea n) (pObj n) (pElem n)) = pArea n := by unfold pnum pArea pObj pElem; omega
      have ho : pObj (pnum (pArea n) (pObj n) (pElem n)) = pObj n := by unfold pnum pArea pObj pElem; omega
      rw [exportAttr, ha, ho]
      rcases hx with hx | hx <;> simp [hx]
    rw [hf.stay.param he, hs.param (by rw [laneTest_parts, ht]), Chip.restored_named hd hm hl]

end

/-! ### The commands -/

section
variable {s : State} {w : Writer} {i : Instr} {o v : Nat} {bank : Option Bank} (ho : o = 0x015 ∨ o = 0x016)
  (hm : s.chip.mayWrite w (pnum 0x01 o 0) = true) (hi : exec i s = s.runAny fun c => c.numWrite w 0x01 o 0 1 v)
  (hx : ∀ x, s.chip.command 0x01 o 0 x [] = if x = 1 then s.chip.restore bank else (s.chip, 0))
  (hl : savedSets.all (fun k => (s.chip.applySet k).phase == .idle) = true)
include ho hm hx hl

/-- While every set of saved parameters is idle, neither command is locked. -/
theorem restore_unlocked (x : Nat) :
    s.chip.locked w { ty := .bool, access := .wo, writers := wFBH, elements := 1 } (pnum 0x01 o 0) (some x) = false := by
  have h : (savedSets.any fun k => (s.chip.applySet k).phase != .idle) = false := by
    rw [← Bool.not_eq_true, List.any_eq_true]
    rintro ⟨k, hk, e⟩
    exact absurd (List.all_eq_true.mp hl k hk) (by simpa using e)
  rw [Chip.locked, if_neg (by decide)]
  obtain rfl | rfl := ho <;> simp [pnum, pArea, pObj, h]

theorem restore_numWrite : s.chip.numWrite w 0x01 o 0 1 1 = (s.chip.restore bank).1.replied w (s.chip.restore bank).2 := by
  have h : s.chip.command 0x01 o 0 1 [] = s.chip.restore bank := hx 1
  rw [← h]
  obtain rfl | rfl := ho
  · exact Chip.numWrite_command hm (by omega) (d := { ty := .bool, access := .wo, writers := wFBH, elements := 1 }) (hd := rfl)
      (hw := rfl) (ht := by decide) (x := 1) (hx := by decide) (hk := rfl) (hv := rfl) (hr := rfl) (idx := none)
      (hl := restore_unlocked (.inl rfl) hm hx hl 1)
  · exact Chip.numWrite_command hm (by omega) (d := { ty := .bool, access := .wo, writers := wFBH, elements := 1 }) (hd := rfl)
      (hw := rfl) (ht := by decide) (x := 1) (hx := by decide) (hk := rfl) (hv := rfl) (hr := rfl) (idx := none)
      (hl := restore_unlocked (.inr rfl) hm hx hl 1)

/-- A restore that no check refuses leaves what it leaves. -/
theorem restore_completes (hi : exec i s = s.runAny fun c => c.numWrite w 0x01 o 0 1 1) (hr : s.chip.restoreRefused bank = false)
    (hc : (s.chip.restore bank).1.calm = true) : Completes i s fun c =>
      (∀ k ∈ savedSets, Tab.get c.dict.lastResult k 0 = 0) ∧
      (∀ n, s.chip.savedNumber n = true → (∀ x, bank = some x → ∀ r ∈ x.values, r.1 % 2 ^ 32 ≠ n % 2 ^ 32) →
        Tab.get? c.dict.active n = none) ∧
      (∀ x n v d, bank = some x → (x.values.map fun r => r.1 % 2 ^ 32).Nodup → (n, v) ∈ x.values →
        descOf s.chip.variant n = some d → d.saved = true → elementPresent s.chip.variant d (pArea n) (pObj n) (pElem n) = true →
        valueOk d (pArea n) (pObj n) (pElem n) (keepBits (pArea n) (pObj n) v) = true → pArea n ≠ 0x28 ∨ pObj n ≠ 0x032 →
        c.param (pArea n) (pObj n) (pElem n) = storedForm (pArea n) (pObj n) (pElem n) (keepBits (pArea n) (pObj n) v)) := by
  have h := restore_numWrite ho hm hx hl
  obtain ⟨hk, hn, hv⟩ := Chip.restore_done hr
  refine .of_runAny hi ?_ ?_ <;> simp only [h]
  · rwa [Chip.replied_calm]
  · simp only [Chip.replied_lastResult, Chip.replied_dict_active, Chip.replied_param]
    exact ⟨hk, hn, fun x n v d hb hd hm h₁ h₂ h₃ h₄ => hv x n v d hb hd hm ⟨h₁, h₂, h₃, h₄⟩⟩

/-- A restore that a check refuses changes no parameter and no set. -/
theorem restore_refuses (hi : exec i s = s.runAny fun c => c.numWrite w 0x01 o 0 1 1) (hc : s.chip.calm = true)
    (hr : s.chip.restoreRefused bank = true) : Completes i s fun c =>
      (c.dict.active = s.chip.dict.active ∧ c.dict.sets = s.chip.dict.sets ∧ c.dict.staged = s.chip.dict.staged) ∧
      c.out = s.chip.out ++ [.dictReply w 0x0A []] := by
  have h := restore_numWrite ho hm hx hl
  obtain ⟨k, r, e⟩ := Chip.restore_refused hr
  rw [e] at h
  refine .of_runAny hi ?_ ?_ <;> simp only [h]
  · simpa using hc
  · simp [Chip.putResult]

/-- No value but 1 does anything. -/
theorem restore_other (hi : exec i s = s.runAny fun c => c.numWrite w 0x01 o 0 1 v) (hc : s.chip.calm = true) (hv : v ≠ 1) :
    Completes i s fun c =>
      c.dict.active = s.chip.dict.active ∧ c.dict.sets = s.chip.dict.sets ∧ c.dict.staged = s.chip.dict.staged := by
  have hu := restore_unlocked ho hm hx hl v
  have hd : (s.chip.command 0x01 o 0 v []).1 = s.chip := by rw [hx, if_neg hv]
  have h : s.chip.numWrite w 0x01 o 0 1 v = s.chip ∨ ∃ k, s.chip.numWrite w 0x01 o 0 1 v = s.chip.replied w k := by
    obtain rfl | rfl := ho
    · exact Chip.numWrite_idle hm (by omega) (d := { ty := .bool, access := .wo, writers := wFBH, elements := 1 }) (hd := rfl)
        (hw := rfl) (ht := by decide) (hl := hu) (hk := rfl) (idx := none) (hx := hd)
    · exact Chip.numWrite_idle hm (by omega) (d := { ty := .bool, access := .wo, writers := wFBH, elements := 1 }) (hd := rfl)
        (hw := rfl) (ht := by decide) (hl := hu) (hk := rfl) (idx := none) (hx := hd)
  obtain h | ⟨k, h⟩ := h <;> refine .of_runAny hi ?_ ?_ <;> simp [h, hc]

end

theorem command_restoreSaved (c : Chip) (x : Nat) : c.command 0x01 0x016 0 x [] =
    if x = 1 then c.restore (c.flash.newestBank.map (·.2)) else (c, 0) := rfl

/-- Settles O18. -/
theorem restoresReplaceSavedValues : Obligations.RestoresReplaceSavedValues := by
  intro s w hu hl
  have hx := command_restoreSaved s.chip
  dsimp only
  generalize s.chip.flash.newestBank.map (·.2) = bank at hx ⊢
  refine ⟨fun hm => ⟨?_, ?_, ?_⟩, fun hm => ⟨?_, ?_, ?_⟩⟩
  · exact fun hr hc => restore_completes (.inl rfl) hm (fun _ => rfl) hl (exec_restoreDefaults ..) hr hc
  · exact fun hc hr => restore_refuses (.inl rfl) hm (fun _ => rfl) hl (exec_restoreDefaults ..) hc hr
  · exact fun v hc hv => restore_other (bank := none) (.inl rfl) hm (fun _ => rfl) hl (exec_restoreDefaults ..) hc hv
  · exact fun hr hc => restore_completes (.inr rfl) hm hx hl (exec_restoreSaved ..) hr hc
  · exact fun hc hr => restore_refuses (.inr rfl) hm hx hl (exec_restoreSaved ..) hc hr
  · exact fun v hc hv => restore_other (.inr rfl) hm hx hl (exec_restoreSaved ..) hc hv

end Sys2Proof.Machine
end


section
/-! The boot, the Jig service and full service (R478, R479, R483). -/

set_option Elab.async false

namespace Sys2Proof.Machine

/-! ### The boot ROM's choice -/

/-- A slot that the boot ROM has tried verifies exactly where its check says so. -/
theorem FwSlot.tried_state (x : FwSlot) : x.tried.state = 2 ↔ x.checked.state = 2 := by
  unfold FwSlot.tried FwSlot.checked
  cases hv : x.verifies
  · by_cases h : 2 ≤ x.state <;> simp [h]
    omega
  · simp

section
variable {s : State} (hc : s.chip.calm = true) (hb : s.chip.boot.phase = .booting)
include hc hb

theorem bootLoad_slot (hs : (s.chip.flash.slot s.chip.flash.bootSlot).checked.state = 2) :
    Completes .bootLoadComplete s fun d =>
      d.boot.phase = .loaded ∧ d.fw.bootSlot = s.chip.flash.bootSlot ∧
      d.fw.running = (List.range 6).map (fun i => (i, s.chip.flash.bootSlot)) ∧
      d.flash.slot s.chip.flash.bootSlot = (s.chip.flash.slot s.chip.flash.bootSlot).checked ∧ d.mem = s.chip.mem := by
  have h := s.chip.flash.slot_updSlot_self s.chip.flash.bootSlot FwSlot.checked
  refine .of_runAny (exec_bootLoadComplete ..) ?_ ?_ <;> unfold Chip.bootLoad <;> rw [if_neg (not_not.mpr hb)] <;> dsimp only <;>
    rw [if_pos (by rw [h, hs])]
  · exact hc
  · exact ⟨rfl, rfl, rfl, h, rfl⟩

theorem bootLoad_other (hs : (s.chip.flash.slot s.chip.flash.bootSlot).checked.state ≠ 2)
    (ho : (s.chip.flash.slot (1 - s.chip.flash.bootSlot)).checked.state = 2) (hr : s.chip.reactionOf 0x90 0x103 ≤ 2) :
    Completes .bootLoadComplete s fun d =>
      d.boot.phase = .loaded ∧ d.fw.bootSlot = s.chip.flash.bootSlot ∧
      d.fw.running = (List.range 6).map (fun i => (i, 1 - s.chip.flash.bootSlot)) ∧ d.mem = s.chip.mem := by
  have h := s.chip.flash.slot_updSlot_self s.chip.flash.bootSlot FwSlot.checked
  have hne : 1 - s.chip.flash.bootSlot ≠ s.chip.flash.bootSlot := by omega
  have h' : (((s.chip.flash.updSlot s.chip.flash.bootSlot FwSlot.checked).updSlot (1 - s.chip.flash.bootSlot) FwSlot.tried).slot
      (1 - s.chip.flash.bootSlot)).state = 2 := by
    rw [Flash.slot_updSlot_self, Flash.slot_updSlot_ne _ _ hne, FwSlot.tried_state, ho]
  have e : ∃ d : Chip, s.chip.bootLoad = d.raise 0x90 0x103 8 (pnum 0x38 0x002 0) ∧ d.calm = true ∧ d.boot.phase = .loaded ∧ d.fw.bootSlot = s.chip.flash.bootSlot ∧
      d.fw.running = (List.range 6).map (fun i => (i, 1 - s.chip.flash.bootSlot)) ∧ d.mem = s.chip.mem ∧
      d.reactionOf 0x90 0x103 ≤ 2 := by
    unfold Chip.bootLoad
    rw [if_neg (not_not.mpr hb)]
    dsimp only
    rw [if_neg (by rw [h]; exact hs), if_pos h']
    exact ⟨_, rfl, hc, rfl, rfl, rfl, rfl, hr⟩
  obtain ⟨d, e, hd, h₁, h₂, h₃, h₄, hr⟩ := e
  have ho := d.raise_reports 0x90 0x103 8 (pnum 0x38 0x002 0) 0 0 hr
  have hk := d.occurrence_reacts 0x90 0x103 8 (pnum 0x38 0x002 0) 0 0
  refine .of_runAny (exec_bootLoadComplete ..) ?_ ?_ <;> rw [e]
  · rw [ho.calm, hd]
  · rw [ho.boot]
    exact ⟨h₁, hk.fw ▸ h₂, hk.fw ▸ h₃, hk.mem.trans h₄⟩

theorem bootLoad_recovery (hs : (s.chip.flash.slot s.chip.flash.bootSlot).checked.state ≠ 2)
    (ho : (s.chip.flash.slot (1 - s.chip.flash.bootSlot)).checked.state ≠ 2) :
    Completes .bootLoadComplete s fun d =>
      d.boot.phase = .recovery ∧ d.boot.faultInRecovery = true ∧ d.fw.bootSlot = s.chip.flash.bootSlot ∧ d.mem = s.chip.mem := by
  have h := s.chip.flash.slot_updSlot_self s.chip.flash.bootSlot FwSlot.checked
  have hne : 1 - s.chip.flash.bootSlot ≠ s.chip.flash.bootSlot := by omega
  have h' : (((s.chip.flash.updSlot s.chip.flash.bootSlot FwSlot.checked).updSlot (1 - s.chip.flash.bootSlot) FwSlot.tried).slot
      (1 - s.chip.flash.bootSlot)).state ≠ 2 := by
    rw [Flash.slot_updSlot_self, Flash.slot_updSlot_ne _ _ hne, Ne, FwSlot.tried_state]
    exact ho
  refine .of_runAny (exec_bootLoadComplete ..) ?_ ?_ <;> unfold Chip.bootLoad <;> rw [if_neg (not_not.mpr hb)] <;> dsimp only <;>
    rw [if_neg (by rw [h]; exact hs), if_neg h']
  · exact hc
  · exact ⟨rfl, rfl, rfl, rfl⟩

end

/-! ### The Jig service -/

/-- What the operations of the units leave beside the dictionary. -/
def Kern.hard (k : Kern) : (Boot × Firmware) × Flash × Tab Nat := ((k.boot, k.fw), k.flash, k.regions)

theorem Chip.portsFollow_hard (c : Chip) (b : Bool) : (c.portsFollow b).kern.hard = c.kern.hard := by
  have hp (c : Chip) (p : Nat) : (c.fromDisabled p).kern.hard = c.kern.hard := by
    have h (l : List Nat) (c : Chip) : (l.foldl (fun (c : Chip) l =>
        let n := laneOf p l
        let tested := c.lineSignal n != .idle
        let c := ((c.setParam 0x18 0x020 n 0).setParam 0x18 0x021 n 0).setParam 0x18 0x022 n 0
        if tested then c.emit (.lineTest n .idle) else c) c).kern.hard = c.kern.hard := by
      induction l generalizing c with
      | nil => rfl
      | cons a l ih =>
        refine (ih _).trans ?_
        dsimp only
        split
        · rw [Chip.emit_kern]; rfl
        · rfl
    unfold Chip.fromDisabled
    rw [Chip.updPortT_kern]
    exact h _ c
  unfold Chip.portsFollow
  generalize List.range 60 = l
  induction l generalizing c with
  | nil => rfl
  | cons p l ih =>
    refine (ih _).trans ?_
    dsimp only
    repeat' split
    · rfl
    · exact hp c p
    · rfl
    · rfl
    · rw [Chip.toDisabled_kern]

/-- The regions of HBM stand at the sizes of P28.001. -/
def Chip.LaidOut (c : Chip) : Prop := ∀ i, i < 7 → Tab.get c.mem.regionMiB i 0 = c.param 0x28 0x001 i

theorem Chip.layOut_laidOut (c : Chip) : c.layOut.LaidOut := by
  intro i hi
  have h : c.layOut.mem.regionMiB = (List.range 7).map fun i => (i, c.param 0x28 0x001 i) := rfl
  have hp : c.layOut.param 0x28 0x001 i = c.param 0x28 0x001 i := rfl
  rw [h, hp]
  interval_cases i <;> rfl

/-- What moves neither the regions nor their parameter leaves them laid out. -/
theorem Chip.LaidOut.of_stay {c d : Chip} (h : c.LaidOut) (hs : c.SetsStay laneTest d) (hr : d.mem.regionMiB = c.mem.regionMiB) :
    d.LaidOut := by
  intro i hi
  rw [hr, h i hi, hs.param]
  rw [laneTest, pArea_pnum 0x28 0x001 i (by omega) (by decide) (by decide)]
  rfl

/-- The ports begin to train and take their settings: none of this touches the phase, the regions or their parameter. -/
theorem Chip.jigUp_laidOut {c : Chip} (hp : c.boot.phase = .loaded) : c.jigUp.boot.phase = .jig ∧ c.jigUp.LaidOut := by
  unfold Chip.jigUp
  rw [if_neg (not_not.mpr hp)]
  dsimp only
  have h₁ := c.loadBank.loadCalibration.layOut_laidOut
  generalize c.loadBank.loadCalibration.layOut = x at h₁ ⊢
  have h₂ : Chip.LaidOut { x with boot := { x.boot with phase := .jig } } := h₁
  have hj : ({ x with boot := { x.boot with phase := .jig } } : Chip).boot.phase = .jig := rfl
  generalize ({ x with boot := { x.boot with phase := .jig } } : Chip) = y at h₂ hj ⊢
  have hk : ∀ (l : List Nat) (z : Chip), (l.foldl (fun (c : Chip) h =>
      if ((c.latchPort h).port h).perst then c.latchPort h else (c.latchPort h).hostDetect h) z).kern = z.kern :=
    fun l z => foldl_kern (fun d h => by split <;> simp) l z
  have hs : y.SetsStay laneTest ((y.firstRequest.portsFollow false).gatesAtReset) :=
    .trans (b := y.firstRequest) (.of_kern (Chip.firstRequest_kern _))
      ((Chip.portsFollow_stay _ false).trans (.of_kern (Chip.gatesAtReset_kern _)))
  have hh : ((y.firstRequest.portsFollow false).gatesAtReset).kern.hard = y.kern.hard := by
    rw [Chip.gatesAtReset_kern, Chip.portsFollow_hard, Chip.firstRequest_kern]
  have hall (n : Nat) := (congrArg Kern.hard (hk (List.range n) _)).trans hh
  exact ⟨(congrArg (·.1.1.phase) (hall _)).trans hj, h₂.of_stay (hs.trans (.of_kern (hk _ _))) (congrArg (·.2.2) (hall _))⟩

theorem jigUp_completes {s : State} (hp : s.chip.boot.phase = .loaded) (hc : s.chip.jigUp.calm = true) :
    Completes .jigServiceUp s fun d =>
      d.boot.phase = .jig ∧ (∀ i, i < 7 → Tab.get d.mem.regionMiB i 0 = d.param 0x28 0x001 i) ∧ d.mem.hbm = s.chip.mem.hbm :=
  have h := Chip.jigUp_laidOut hp
  .of_runAny (exec_jigServiceUp ..) hc ⟨h.1, h.2, Chip.jigUp_hbm _⟩

/-! ### Full service -/

/-- The staged values of set 0x38 are none of the host areas. -/
theorem Chip.withStaged_areas (c : Chip) {i : Nat} (hi : i < 6) : (c.withStaged 0x38).param 0x28 0x002 i = c.param 0x28 0x002 i ∧
    (c.withStaged 0x38).dict.committed10 = c.dict.committed10 ∧ (c.withStaged 0x38).variant = c.variant := by
  have h (l : List (Nat × Nat)) (x : Chip) (hl : ∀ r ∈ l, r.1 % 2 ^ 32 ≠ pnum 0x28 0x002 i) :
      let y := l.foldl (fun (c : Chip) r => c.setParam (pArea r.1) (pObj r.1) (pElem r.1) r.2) x
      y.param 0x28 0x002 i = x.param 0x28 0x002 i ∧ y.dict.committed10 = x.dict.committed10 ∧ y.variant = x.variant := by
    induction l generalizing x with
    | nil => exact ⟨rfl, rfl, rfl⟩
    | cons r l ih =>
      obtain ⟨h₁, h₂, h₃⟩ := ih (x.setParam (pArea r.1) (pObj r.1) (pElem r.1) r.2) fun r hr => hl r (List.mem_cons_of_mem _ hr)
      refine ⟨h₁.trans (Chip.param_setParam_ne _ _ ?_), h₂, h₃⟩
      rw [pnum_parts]
      exact (hl r List.mem_cons_self).symm
  refine h _ c fun r hr e => ?_
  have hs := (List.mem_filter.mp hr).2
  have hd : descOf c.variant r.1 = descOf c.variant (pnum 0x28 0x002 i) := by
    rw [← e]
    unfold descOf
    have h₁ : pArea (r.1 % 2 ^ 32) = pArea r.1 := by unfold pArea; omega
    have h₂ : pObj (r.1 % 2 ^ 32) = pObj r.1 := by unfold pObj; omega
    have h₃ : pElem (r.1 % 2 ^ 32) = pElem r.1 := by unfold pElem; omega
    rw [h₁, h₂, h₃]
  have ha : (descOf c.variant (pnum 0x28 0x002 i)).map (·.set) = none ∨ (descOf c.variant (pnum 0x28 0x002 i)).map (·.set) = some 0 := by
    unfold descOf
    rw [pArea_pnum 0x28 0x002 i (by omega) (by decide) (by decide), pObj_pnum 0x28 0x002 i (by omega) (by decide)]
    split
    · exact .inl rfl
    · rename_i d h
      have h : (if c.variant = .ik920 then dRWT .u64 2 7 else none) = some d := h
      split at h
      · have h0 : d.set = 0 := Option.some.inj h ▸ rfl
        split
        · exact .inr (congrArg some h0)
        · exact .inl rfl
      · contradiction
  rw [Chip.setOf, hd] at hs
  rcases ha with ha | ha <;> rw [ha] at hs <;> exact absurd hs (by decide)

theorem Chip.fullService_phase (c : Chip) : c.fullService.boot.phase = .full := by
  have h : c.fullService.kern.hard = ({ c with boot := { c.boot with phase := .full } } : Chip).kern.hard := by
    unfold Chip.fullService
    dsimp only
    refine Eq.trans ?_ (Chip.portsFollow_hard _ true)
    exact congrArg Kern.hard ((foldl_kern (by simp) ..).trans ((foldl_kern (by simp) ..).trans
      (foldl_kern (fun d p => by split <;> simp) ..)))
  exact congrArg (·.1.1.phase) h

theorem Chip.takeEffect_full {c : Chip} (h : c.boot.phase = .jig) : (c.takeEffect 0x38).boot.phase = .full := by
  have hb : ((c.withStaged 0x38).unstage 0x38).boot = c.boot := by
    unfold Chip.withStaged
    generalize c.dict.staged.filter _ = l
    induction l generalizing c with
    | nil => rfl
    | cons r l ih => exact ih (c := c.setParam ..) h
  have hf : ((c.withStaged 0x38).unstage 0x38).full = false := by rw [Chip.full, hb, h]; rfl
  have he : c.takeEffect 0x38 = ((c.withStaged 0x38).unstage 0x38).fullService := by
    change (if ((c.withStaged 0x38).unstage 0x38).full then _ else _) = _
    rw [hf]
    rfl
  rw [he]
  exact Chip.fullService_phase _

theorem Chip.check38_passes {c : Chip} (hd : c.dict.committed10 = true) (ha : c.areasGiven = true) :
    (c.withStaged 0x38).setCheck c 0x38 = none := by
  have h := fun i (hi : i < 6) => c.withStaged_areas hi
  have hw : (c.withStaged 0x38).areasGiven = true := by
    unfold Chip.areasGiven at ha ⊢
    rw [(h 0 (by decide)).2.2]
    rw [Bool.or_eq_true, List.all_eq_true] at ha ⊢
    exact ha.imp_right fun ha i hi => by rw [(h i (List.mem_range.mp hi)).1]; exact ha i hi
  change failsIf (!(c.withStaged 0x38).dict.committed10 || !(c.withStaged 0x38).areasGiven) 0x38 0x040 = none
  rw [hw, (h 0 (by decide)).2.1, hd]
  rfl

/-- Settles O8. -/
theorem bootReachesService : Obligations.BootReachesService := by
  intro s hc
  refine ⟨fun hb hs => bootLoad_slot hc hb hs, fun hb hs ho hr => bootLoad_other hc hb hs ho hr,
    fun hb hs ho => bootLoad_recovery hc hb hs ho, fun hp hj => jigUp_completes hp hj, ?_⟩
  intro w t hp hm hs hh h1 hd ha ht hn
  have h := commit_staging hm (by decide) hs hh (ht.trans (Nat.le_add_right _ _)) fun _ => by rw [Tab.get, h1]; decide
  rw [Chip.check38_passes hd ha] at h
  dsimp only at h
  rw [if_pos ht] at h
  refine .of_runAny (exec_commit ..) hn ?_
  rw [h, Chip.replied_boot, Chip.replied_mem]
  exact ⟨Chip.takeEffect_full (c := s.chip.putResult 0x38 0) hp, Chip.takeEffect_hbm ..⟩

end Sys2Proof.Machine
end


section
/-! The Shim channel (R65, R67): an in-band request that commits the set of the chip id. -/

set_option Elab.async false

namespace Sys2Proof.Machine

/-- A chip in full service whose row 0 of P01.040 lists endpoint 17, and whose set 0x10 has chip id 5 staged. -/
def renumbered : Chip :=
  { variant := .ik920
    boot := { phase := .full }
    dict := { active := [(pnum 0x01 0x040 0, 2 ^ 31 + 17)]
              staged := [(pnum 0x10 0x001 0, 5)]
              sets := [(0x10, { ApplySet.init with phase := .staging })] } }

/-- Endpoint 17 asks in band to commit set 0x10 at once: a WRITE of P01.001[0x10] in one final chunk of eight bytes, T = 0. -/
def commitAsked : Packet :=
  newPacket 0 0x40 0 17 false (BitVec.ofNat 64 (2 * 2 ^ 56 + pnum 0x01 0x001 0x10)) (BitVec.ofNat 64 (2 ^ 63 + 8)) 0 0 []

theorem renumbered_leaves : renumbered.up = true ∧ (renumbered.shimRequest commitAsked).calm = true := by decide +kernel

theorem renumbered_asked : renumbered.listed commitAsked.src.toNat = true ∧ renumbered.mgtUp = true ∧
    renumbered.shimCached commitAsked = none := by decide +kernel

/-- The answer leaves from the endpoint of the new chip id. -/
theorem renumbered_answers :
    ∀ q ∈ (renumbered.shimRequest commitAsked).settle.entered ((renumbered.taken commitAsked).shimExecute commitAsked).1,
      q.src.toNat ≠ renumbered.endpoint 0 % 2 ^ 17 := by decide +kernel

/-- Refutes O15: a request that commits a new chip id is answered from the endpoint address that the chip has by then, not from the one
that it had before. -/
theorem not_sidebandAndShimAnswer : ¬ Obligations.SidebandAndShimAnswer := by
  rintro ⟨-, h⟩
  obtain ⟨-, -, hshim⟩ := h { chip := renumbered }
  obtain ⟨-, -, -, -, hany⟩ := hshim commitAsked
  obtain ⟨hlisted, hmgt, hnew⟩ := renumbered_asked
  obtain ⟨-, -, ⟨q, hq, -, -, hsrc, -⟩, -⟩ := (hany renumbered_leaves hlisted hmgt hnew).settled (exec_shimDictionaryRequest ..) renumbered_leaves.1
  exact renumbered_answers q hq hsrc

end Sys2Proof.Machine
end


section
/-! Function disable and the collectives (R199, R276): the disable of a member lets COL carry its operations on, which may write. -/

set_option Elab.async false

namespace Sys2Proof.Machine

/-- Function 0 is the one member of membership 0, at its root, and writes its result to export entry 0 of fabric memory. The one
segment of its ALLREDUCE is whole, and nothing has taken it up yet. -/
def wholeSegment : Chip :=
  { boot := { phase := .full }
    dict := { active := [(0x24010000, 2 ^ 31), (0x24011000, 255), (0x24020000, 2 ^ 31), (0x28031000, 1),
      (0x28032000, 2 ^ 63 + 2 ^ 61 + 0x1FFFF * 2 ^ 17)] }
    co := { ops := [{
      opcode := 0x63, known := true, segs := [(0, { contrib := [60], raw := [1] })]
      posts := [{ entry := { w6 := BitVec.ofNat 64 (0xFEF00000 * 2 ^ 32) } }] }] } }

theorem wholeSegment_up : wholeSegment.up = true := by decide +kernel

theorem wholeSegment_resets : wholeSegment.fnExists 0 = true ∧ wholeSegment.fnState 0 = .notReady ∧
    (wholeSegment.levelReset 0).calm = true ∧ (wholeSegment.perstAssert 0).calm = true := by decide +kernel

/-- The disable of the function writes the segment into fabric memory. -/
theorem wholeSegment_written : (wholeSegment.levelReset 0).settle.mem.hbm = [(0, 1)] ∧
    (wholeSegment.perstAssert 0).settle.mem.hbm = [(0, 1)] := by decide +kernel

/-- Refutes O20: PERST_N disables the PF, whose collective operation then goes on and writes its result into fabric memory. -/
theorem not_hostLinksAndVfsFollow : ¬ Obligations.HostLinksAndVfsFollow := by
  intro h
  obtain ⟨-, -, -, hcalm⟩ := wholeSegment_resets
  obtain ⟨-, hperst, -⟩ := h.1 { chip := wholeSegment } 0 (by decide +kernel)
  obtain ⟨-, -, -, -, -, -, -, hmem⟩ := (hperst ⟨wholeSegment_up, hcalm⟩ rfl).settledAny (exec_perstNAssert ..)
  simp only [wholeSegment_written.2] at hmem
  exact absurd hmem (List.cons_ne_nil _ _)

/-- Refutes O21: a function level reset disables the function, whose collective operation then goes on and writes its result into fabric
memory. -/
theorem not_functionsDrainQuiesceAndReturn : ¬ Obligations.FunctionsDrainQuiesceAndReturn := by
  intro h
  obtain ⟨hex, hstate, hcalm, -⟩ := wholeSegment_resets
  obtain ⟨hreset, -⟩ := h { chip := wholeSegment } 0 .mctp
  obtain ⟨⟨-, -, -, -, hmem⟩, -⟩ := (hreset ⟨wholeSegment_up, hcalm⟩ hex (.inr hstate)).settled (exec_functionLevelReset ..) wholeSegment_up
  simp only [wholeSegment_written.1] at hmem
  exact absurd hmem (List.cons_ne_nil _ _)

end Sys2Proof.Machine
end


section
/-! The control queue pair (R128, R129, R131, R133): its start, with the indices that its blocks hold, and its stop. -/

set_option Elab.async false

namespace Sys2Proof.Machine

/-! ### A stored value of any writer -/

section
variable {c : Chip} {w : Writer} {a o e : Nat} (hm : c.mayWrite w (pnum a o e) = true) (he : e < 4096)
include hm he

/-- A row of an RW or RWN parameter: a value out of its range is refused, another is stored with its effect and answered. -/
theorem Chip.numWrite_store (ho : o < 4096 := by decide) (ha : a < 256 := by decide) {d : Desc} (hd : desc c.variant a o = some d)
    (hw : d.access = .rw ∨ d.access = .rwn) (ht : d.ty ≠ .blob) {x : Nat} (hx : x < 256 ^ d.ty.size)
    (hl : c.locked w d (pnum a o e) (some x) = false) (idx : Option CtlIndices) :
    c.numWrite w a o e d.ty.size x idx =
      if valueOk d a o e (keepBits a o x) = true ∧ c.valueRefused a o e (keepBits a o x) = false
      then (c.store a o e (keepBits a o x) idx).1.replied w (c.store a o e (keepBits a o x) idx).2
      else c.replied w 7 := by
  rw [Chip.numWrite_served hm he ho ha hd ht hx hl idx]
  simp only [Chip.writeNumber, pElem_pnum a o e he, pObj_pnum a o e he ho, pArea_pnum a o e he ho ha]
  by_cases h1 : valueOk d a o e (keepBits a o x) = true <;> by_cases h2 : c.valueRefused a o e (keepBits a o x) = true <;>
    obtain hw | hw := hw <;> simp [h1, h2, hw]

end

/-! ### What an event leaves of the control queue pair -/

/-- The control queue pair of a function. -/
structure CtlPair where
  sqPi : BitVec 32
  sqCi : BitVec 32
  cqPi : BitVec 32
  cqCi : BitVec 32
  sqCause : Nat
  cqCause : Nat

/-- The control queue pair as the function holds it. -/
def Func.ctlPair (f : Func) : CtlPair :=
  { sqPi := f.ctlSqPi, sqCi := f.ctlSqCi, cqPi := f.ctlCqPi, cqCi := f.ctlCqCi, sqCause := f.ctlSqCause, cqCause := f.ctlCqCause }

/-- The control queue pair of a function by index. -/
def Chip.ctlPair (c : Chip) (fn : Nat) : CtlPair := (c.fn fn).ctlPair

theorem Chip.ctlPair_updFn (c : Chip) (i fn : Nat) {f : Func → Func} (hf : ∀ g, (f g).ctlPair = g.ctlPair) :
    (c.updFn i f).ctlPair fn = c.ctlPair fn := by
  unfold Chip.ctlPair
  by_cases h : fn = i
  · subst h; rw [Chip.fn_updFn_self, hf]
  · rw [Chip.fn_updFn, if_neg h]

@[simp] theorem Chip.ctlPair_emit (c : Chip) (o : Output) (fn : Nat) : (c.emit o).ctlPair fn = c.ctlPair fn := by
  unfold Chip.emit; split <;> rfl

@[simp] theorem Chip.ctlPair_signal (c : Chip) (i v fn : Nat) : (c.signal i v).ctlPair fn = c.ctlPair fn := by
  unfold Chip.signal
  dsimp only
  split
  · rfl
  · split
    · exact c.ctlPair_updFn i fn fun _ => rfl
    · exact c.ctlPair_emit _ fn

@[simp] theorem Chip.ctlPair_eventLost (c : Chip) (i fn : Nat) : (c.eventLost i).ctlPair fn = c.ctlPair fn :=
  (c.bumpFn 1 i).ctlPair_updFn i fn fun _ => rfl

@[simp] theorem Chip.ctlPair_writeEvent (c : Chip) (h eqn : Nat) (q : Queue) (l : List Word) (fn : Nat) :
    (c.writeEvent h eqn q l).ctlPair fn = c.ctlPair fn := by
  have hk : ∀ (d : Chip) r, (d.putQueue h eqn r).ctlPair fn = d.ctlPair fn := fun _ _ => rfl
  unfold Chip.writeEvent
  dsimp only
  split <;> simp [hk]

@[simp] theorem Chip.ctlPair_eqError (c : Chip) (h eqn cause fn : Nat) : (c.eqError h eqn cause).ctlPair fn = c.ctlPair fn := by
  have hk : ∀ r, (c.putQueue h eqn r).ctlPair fn = c.ctlPair fn := fun _ => rfl
  unfold Chip.eqError Chip.setQState
  split <;> simp [hk]

/-- An event leaves every control queue pair as it is. -/
@[simp] theorem Chip.ctlPair_postEvent (c : Chip) (i code unit qn detail fn : Nat) :
    (c.postEvent i code unit qn detail).ctlPair fn = c.ctlPair fn := by
  have hk : ∀ h n r, (c.drawn.putQueue h n r).ctlPair fn = c.ctlPair fn := fun _ _ _ => rfl
  have hd : c.drawn.ctlPair fn = c.ctlPair fn := rfl
  unfold Chip.postEvent
  dsimp only
  repeat' split
  all_goals simp [hk, hd]

/-! ### Errors of the pair -/

@[simp] theorem Chip.ctlPair_ctlIndexWrite (c : Chip) (i : Nat) (cq : Bool) (off : Nat) (v : BitVec 32) (fn : Nat) :
    (c.ctlIndexWrite i cq off v).ctlPair fn = c.ctlPair fn := c.ctlPair_emit _ fn

theorem Chip.ctlPair_ctlSqStops (c : Chip) (fn cause : Nat) :
    (c.ctlSqStops fn cause).ctlPair fn = { c.ctlPair fn with sqCause := cause } := by
  rw [Chip.ctlSqStops, Chip.ctlPair_ctlIndexWrite, Chip.ctlPair, Chip.fn_updFn_self]
  rfl

/-- The control SQ goes to error where it has none. -/
theorem Chip.ctlPair_sqError {c : Chip} {fn : Nat} (h : (c.ctlPair fn).sqCause = 0) (cause : Nat) :
    (c.ctlError fn false cause).ctlPair fn = { c.ctlPair fn with sqCause := cause } := by
  unfold Chip.ctlError
  rw [if_neg (by decide), if_neg (show ¬ (c.fn fn).ctlSqCause ≠ 0 from not_not.mpr h), Chip.ctlPair_postEvent, Chip.ctlPair_ctlSqStops]

/-- The control SQ follows its CQ, its entries flushed, where it has no error of its own. -/
theorem Chip.ctlPair_ctlSqFollows (c : Chip) (fn : Nat) :
    (c.ctlSqFollows fn).ctlPair fn =
      if (c.ctlPair fn).sqCause ≠ 0 then c.ctlPair fn else { c.ctlPair fn with sqCause := 4, sqCi := (c.ctlPair fn).sqPi } := by
  have hb : ∀ (d : Chip) n, (d.bumpFn 2 fn n).ctlPair fn = d.ctlPair fn := fun _ _ => rfl
  have hs : ((c.ctlSqStops fn 4).updFn fn fun f => { f with ctlSqCi := f.ctlSqPi }).ctlPair fn =
      { c.ctlPair fn with sqCause := 4, sqCi := (c.ctlPair fn).sqPi } := by
    rw [Chip.ctlPair, Chip.fn_updFn_self]
    show { (c.ctlSqStops fn 4).ctlPair fn with sqCi := ((c.ctlSqStops fn 4).ctlPair fn).sqPi } = _
    rw [Chip.ctlPair_ctlSqStops]
  unfold Chip.ctlSqFollows
  dsimp only
  by_cases h : (c.fn fn).ctlSqCause = 0
  · rw [if_neg (not_not.mpr h), if_neg (show ¬ (c.ctlPair fn).sqCause ≠ 0 from not_not.mpr h), hb]
    split
    · exact hs
    · rw [Chip.ctlPair_ctlIndexWrite]
      exact hs
  · rw [if_pos h, if_pos (show (c.ctlPair fn).sqCause ≠ 0 from h)]

/-- The control CQ goes to error where it has none, and the control SQ behind it. -/
theorem Chip.ctlPair_cqError {c : Chip} {fn : Nat} (h : (c.ctlPair fn).cqCause = 0) (cause : Nat) :
    (c.ctlError fn true cause).ctlPair fn =
      if (c.ctlPair fn).sqCause ≠ 0 then { c.ctlPair fn with cqCause := cause }
      else { c.ctlPair fn with cqCause := cause, sqCause := 4, sqCi := (c.ctlPair fn).sqPi } := by
  have hu : ((c.updFn fn fun f => { f with ctlCqCause := cause }).ctlIndexWrite fn true 0x10 (stateWord .error cause)).ctlPair fn =
      { c.ctlPair fn with cqCause := cause } := by
    rw [Chip.ctlPair_ctlIndexWrite, Chip.ctlPair, Chip.fn_updFn_self]
    rfl
  unfold Chip.ctlError
  dsimp only
  rw [if_pos rfl, if_neg (show ¬ (c.fn fn).ctlCqCause ≠ 0 from not_not.mpr h), Chip.ctlPair_ctlSqFollows, Chip.ctlPair_postEvent, hu]

theorem Chip.ctlIndexWrite_reports (c : Chip) (i : Nat) (cq : Bool) (off : Nat) (v : BitVec 32) :
    Chip.OnlyReports c (c.ctlIndexWrite i cq off v) := c.emit_reports _

theorem Chip.ctlError_reports (c : Chip) (fn : Nat) (cq : Bool) (cause : Nat) : Chip.OnlyReports c (c.ctlError fn cq cause) := by
  have hstops : ∀ (d : Chip) k, Chip.OnlyReports d (d.ctlSqStops fn k) := fun d k =>
    (d.updFn_reports fn _).trans (Chip.ctlIndexWrite_reports ..)
  have hfollows : ∀ d : Chip, Chip.OnlyReports d (d.ctlSqFollows fn) := fun d => by
    unfold Chip.ctlSqFollows
    dsimp only
    have hu : Chip.OnlyReports d ((d.ctlSqStops fn 4).updFn fn fun f => { f with ctlSqCi := f.ctlSqPi }) :=
      (hstops d 4).trans (Chip.updFn_reports ..)
    exact .ite (.refl d) (.trans (.ite hu (hu.trans (Chip.ctlIndexWrite_reports ..))) (Chip.bumpFn_reports ..))
  unfold Chip.ctlError
  dsimp only
  refine .ite (.ite (.refl c) ?_) (.ite (.refl c) ((hstops c cause).trans (Chip.postEvent_reports ..)))
  exact ((c.updFn_reports fn _).trans (Chip.ctlIndexWrite_reports ..)).trans ((Chip.postEvent_reports ..).trans (hfollows _))

/-! ### The start -/

/-- The pair with the indices that its blocks hold, and no error. -/
def ctlPairOf (idx : CtlIndices) : CtlPair :=
  { sqPi := idx.sqPi, sqCi := idx.sqCi, cqPi := idx.cqPi, cqCi := idx.cqCi, sqCause := 0, cqCause := 0 }

/-- The pair begun, before its indices have been tested (R129). -/
def Chip.ctlBegun (c : Chip) (fn : Nat) (idx : CtlIndices) : Chip :=
  ((c.updFn fn fun f =>
    { f with
      ctlSqPi := idx.sqPi, ctlSqCi := idx.sqCi, ctlCqPi := idx.cqPi, ctlCqCi := idx.cqCi, ctlArmed := false
      ctlSqCause := 0, ctlCqCause := 0, ctlBacklog := [], ctlBacklogged := false }).ctlIndexWrite fn false 0x10
    (stateWord .active 0)).ctlIndexWrite fn true 0x10 (stateWord .active 0)

theorem Chip.ctlPair_ctlBegun (c : Chip) (fn : Nat) (idx : CtlIndices) : (c.ctlBegun fn idx).ctlPair fn = ctlPairOf idx := by
  rw [Chip.ctlBegun, Chip.ctlPair_ctlIndexWrite, Chip.ctlPair_ctlIndexWrite, Chip.ctlPair, Chip.fn_updFn_self]
  rfl

theorem Chip.ctlBegun_reports (c : Chip) (fn : Nat) (idx : CtlIndices) : Chip.OnlyReports c (c.ctlBegun fn idx) :=
  ((c.updFn_reports fn _).trans (Chip.ctlIndexWrite_reports ..)).trans (Chip.ctlIndexWrite_reports ..)

theorem Chip.ctlBegun_queues (c : Chip) (fn : Nat) (idx : CtlIndices) : (c.ctlBegun fn idx).queues = c.queues := by
  have he : ∀ (d : Chip) o, (d.emit o).queues = d.queues := fun d o => by unfold Chip.emit; split <;> rfl
  rw [Chip.ctlBegun, Chip.ctlIndexWrite, he, Chip.ctlIndexWrite, he]
  rfl

/-- What only reports leaves the setup of the pair. -/
theorem Chip.OnlyReports.ctlSetup {c d : Chip} (h : Chip.OnlyReports c d) (fn : Nat) : d.ctlSetup fn = c.ctlSetup fn := by
  rw [Chip.ctlSetup, Chip.ctlSetup, Chip.param, Chip.param, h.dict, h.variant, h.serial, h.boot]

theorem Chip.ctlStop_reports (c : Chip) (fn : Nat) : Chip.OnlyReports c (c.ctlStop fn) := c.updFn_reports ..

/-- The start is the beginning and the tests of R133. -/
theorem Chip.ctlStart_eq (c : Chip) (fn : Nat) (idx : CtlIndices) :
    c.ctlStart fn idx =
      let b := c.ctlBegun fn idx
      let d := if tooMany (c.ctlSqLog fn) idx.sqPi idx.sqCi then b.ctlError fn false 1 else b
      if tooMany (c.ctlCqLog fn) idx.cqPi idx.cqCi then d.ctlError fn true 3 else d := by
  have hb := c.ctlBegun_reports fn idx
  have hd : ∀ p : Prop, [Decidable p] →
      Chip.OnlyReports c (if p then (c.ctlBegun fn idx).ctlError fn false 1 else c.ctlBegun fn idx) := fun p _ =>
    .ite (hb.trans (Chip.ctlError_reports ..)) hb
  have hsq : (c.ctlBegun fn idx).ctlSqLog fn = c.ctlSqLog fn := by rw [Chip.ctlSqLog, hb.ctlSetup]; rfl
  have hcq : ∀ p : Prop, [Decidable p] →
      (if p then (c.ctlBegun fn idx).ctlError fn false 1 else c.ctlBegun fn idx).ctlCqLog fn = c.ctlCqLog fn := fun p _ => by
    rw [Chip.ctlCqLog, (hd p).ctlSetup]; rfl
  show (let b := c.ctlBegun fn idx
        let d := if tooMany (b.ctlSqLog fn) idx.sqPi idx.sqCi then b.ctlError fn false 1 else b
        if tooMany (d.ctlCqLog fn) idx.cqPi idx.cqCi then d.ctlError fn true 3 else d) = _
  dsimp only
  rw [hsq, hcq]

theorem Chip.ctlStart_reports (c : Chip) (fn : Nat) (idx : CtlIndices) : Chip.OnlyReports c (c.ctlStart fn idx) := by
  rw [Chip.ctlStart_eq]
  dsimp only
  have hd : Chip.OnlyReports c (if tooMany (c.ctlSqLog fn) idx.sqPi idx.sqCi then (c.ctlBegun fn idx).ctlError fn false 1
      else c.ctlBegun fn idx) := .ite ((c.ctlBegun_reports fn idx).trans (Chip.ctlError_reports ..)) (c.ctlBegun_reports fn idx)
  exact .ite (hd.trans (Chip.ctlError_reports ..)) hd

/-! ### The obligation -/

/-- The setup as it is stored keeps the sizes of both rings. -/
theorem bits_setup {v lo w : Nat} (h : lo + w ≤ 10) : bits (keepBits 0x21 0x004 (v % 2 ^ 31 + 2 ^ 31)) lo w = bits v lo w := by
  have hk : keepBits 0x21 0x004 (v % 2 ^ 31 + 2 ^ 31) = (v % 2 ^ 31 + 2 ^ 31) &&& 0xC7FF03FF := rfl
  rw [hk, bits, bits]
  refine Nat.eq_of_testBit_eq fun i => ?_
  rw [Nat.testBit_mod_two_pow, Nat.testBit_mod_two_pow]
  by_cases hi : i < w
  · have hm : Nat.testBit 0xC7FF03FF (i + lo) = true := by
      have : i + lo < 10 := by omega
      generalize i + lo = j at this
      interval_cases j <;> rfl
    rw [Nat.testBit_div_two_pow, Nat.testBit_div_two_pow, Nat.testBit_and, hm, Nat.add_comm (v % 2 ^ 31),
      Nat.testBit_two_pow_add_gt (by omega), Nat.testBit_mod_two_pow]
    simp [hi, show i + lo < 31 by omega]
  · simp [hi]

/-- It keeps ENABLE. -/
theorem bitOf_setup (v : Nat) : bitOf (keepBits 0x21 0x004 (v % 2 ^ 31 + 2 ^ 31)) 31 = true ∧ bitOf (keepBits 0x21 0x004 (v % 2 ^ 31)) 31 = false := by
  have hk : ∀ x, bitOf (keepBits 0x21 0x004 x) 31 = x.testBit 31 := fun x => by
    show (x &&& 0xC7FF03FF).testBit 31 = _
    rw [Nat.testBit_and, show Nat.testBit 0xC7FF03FF 31 = true from rfl, Bool.and_true]
  rw [hk, hk, Nat.add_comm, Nat.testBit_two_pow_add_eq, Nat.testBit_mod_two_pow]
  simp
/-- Both sizes of a setup are 4 to 10. -/
def ringSizesOk (x : Nat) : Prop := 4 ≤ bits x 0 5 ∧ bits x 0 5 ≤ 10 ∧ 4 ≤ bits x 5 5 ∧ bits x 5 5 ≤ 10

theorem valueOk_setup (d : Desc) (e x : Nat) : valueOk d 0x21 0x004 e x = true ↔ (bitOf x 31 = true → ringSizesOk x) := by
  show (!bitOf x 31 || _) = true ↔ _
  cases bitOf x 31
  · simp
  · simp [ringSizesOk]; omega

section
variable {s : State} {w : Writer} {fn : Nat} (hm : s.chip.mayWrite w (pnum 0x21 0x004 fn) = true) (hf : fn < 1024)
include hm hf

/-- A write of the setup: refused where ENABLE comes with a bad size, else carried out and answered. -/
theorem setup_written {x : Nat} (hx : x < 2 ^ 32) (idx : Option CtlIndices) :
    s.chip.numWrite w 0x21 0x004 fn 4 x idx =
      if valueOk { ty := .u32, access := .rw, writers := wFHT, elements := 1024, table := true, fscope := true } 0x21 0x004 fn
        (keepBits 0x21 0x004 x) = true
      then (s.chip.store 0x21 0x004 fn (keepBits 0x21 0x004 x) idx).1.replied w (s.chip.store 0x21 0x004 fn (keepBits 0x21 0x004 x) idx).2
      else s.chip.replied w 7 := by
  have h := Chip.numWrite_store hm (by omega) (d := { ty := .u32, access := .rw, writers := wFHT, elements := 1024, table := true, fscope := true })
    (hd := rfl) (hw := .inl rfl) (ht := by decide) (x := x) (hx := hx) (hl := Chip.locked_plain _ _ _ (by decide) (by rw [pArea_pnum _ _ _ (by omega) (by omega) (by omega)]; decide)) (idx := idx)
  simp only [show s.chip.valueRefused 0x21 0x004 fn (keepBits 0x21 0x004 x) = false from rfl, and_true] at h
  exact h

end

/-- A pair that is not enabled starts with a setup that enables it. -/
theorem Chip.ctlSetupWrite_start {c : Chip} {fn x : Nat} (he : c.ctlEnabled fn = false) (hb : bitOf x 31 = true) (hs : ringSizesOk x)
    (idx : CtlIndices) : c.ctlSetupWrite fn x idx = ((c.setParam 0x21 0x004 fn x).ctlStart fn idx, 0) := by
  obtain ⟨h1, h2, h3, h4⟩ := hs
  unfold Chip.ctlSetupWrite
  dsimp only
  rw [if_neg (by simp [hb]), if_neg (by rw [Chip.ctlEnabled] at he; simp [he]), if_pos (by simp [*])]

/-- An enabled pair keeps its fields: any other setup that enables it is refused. -/
theorem Chip.ctlSetupWrite_enabled {c : Chip} {fn x : Nat} (he : c.ctlEnabled fn = true) (hb : bitOf x 31 = true) (hx : c.ctlSetup fn ≠ x)
    (idx : CtlIndices) : c.ctlSetupWrite fn x idx = (c, 7) := by
  unfold Chip.ctlSetupWrite
  dsimp only
  rw [if_neg (by simp [hb]), if_pos (by rw [Chip.ctlEnabled] at he; exact he), if_neg (Ne.symm hx)]

theorem Chip.ctlSetupWrite_stop {c : Chip} {fn x : Nat} (hb : bitOf x 31 = false) (idx : CtlIndices) :
    c.ctlSetupWrite fn x idx =
      (if c.ctlEnabled fn then (c.setParam 0x21 0x004 fn x).ctlStop fn else c.setParam 0x21 0x004 fn x, 0) := by
  unfold Chip.ctlSetupWrite
  dsimp only
  rw [if_pos (by simp [hb])]
  rfl

theorem Chip.store_setup (c : Chip) (fn x : Nat) (idx : CtlIndices) : c.store 0x21 0x004 fn x (some idx) = c.ctlSetupWrite fn x idx := rfl

theorem Chip.store_setup_free (c : Chip) (fn x : Nat) :
    c.store 0x21 0x004 fn x none = c.freeIndices.1.ctlSetupWrite fn x c.freeIndices.2 := rfl

theorem tooMany_eq_true {n : Nat} {p q : BitVec 32} (h : 2 ^ n < (p - q).toNat) : tooMany n p q = true := decide_eq_true h

theorem tooMany_ne_true {n : Nat} {p q : BitVec 32} (h : (p - q).toNat ≤ 2 ^ n) : ¬ tooMany n p q = true :=
  fun k => absurd (of_decide_eq_true k) (by omega)

/-! ### The obligation -/

section
variable {s : State} {w : Writer} {fn : Nat} {v : BitVec 32} (hm : s.chip.mayWrite w (pnum 0x21 0x004 fn) = true) (hf : fn < 1024)
include hm hf

/-- A setup with ENABLE and good sizes starts a pair that is not enabled, and the write is answered. -/
theorem setup_starts (idx : CtlIndices) (he : s.chip.ctlEnabled fn = false) (hs : ringSizesOk v.toNat) :
    ∃ x, bitOf x 31 = true ∧ bits x 0 5 = bits v.toNat 0 5 ∧ bits x 5 5 = bits v.toNat 5 5 ∧
      s.chip.numWrite w 0x21 0x004 fn 4 (v.toNat % 2 ^ 31 + 2 ^ 31) (some idx) =
        ((s.chip.setParam 0x21 0x004 fn x).ctlStart fn idx).replied w 0 := by
  have hb := (bitOf_setup v.toNat).1
  have h0 : bits (keepBits 0x21 0x004 (v.toNat % 2 ^ 31 + 2 ^ 31)) 0 5 = bits v.toNat 0 5 := bits_setup (by omega)
  have h5 : bits (keepBits 0x21 0x004 (v.toNat % 2 ^ 31 + 2 ^ 31)) 5 5 = bits v.toNat 5 5 := bits_setup (by omega)
  have hk : ringSizesOk (keepBits 0x21 0x004 (v.toNat % 2 ^ 31 + 2 ^ 31)) := by rw [ringSizesOk, h0, h5]; exact hs
  have hw := setup_written hm hf (x := v.toNat % 2 ^ 31 + 2 ^ 31) (by omega) (some idx)
  rw [if_pos ((valueOk_setup ..).mpr fun _ => hk), Chip.store_setup, Chip.ctlSetupWrite_start he hb hk] at hw
  exact ⟨_, hb, h0, h5, hw⟩

/-- A started pair, in the words of the pair and its setup. -/
theorem controlQpEnable_starts {idx : CtlIndices} (hc : s.chip.calm = true) (he : s.chip.ctlEnabled fn = false) (hs : ringSizesOk v.toNat)
    {p : Chip → Prop} (hp : ∀ b : Chip, b.ctlEnabled fn = true → b.ctlSqLog fn = bits v.toNat 0 5 → b.ctlCqLog fn = bits v.toNat 5 5 →
      b.queues = s.chip.queues → b.mem = s.chip.mem → p ((b.ctlStart fn idx).replied w 0)) :
    Completes (.controlQpEnable w fn v idx) s p := by
  obtain ⟨x, hb, h0, h5, hx⟩ := setup_starts hm hf idx he hs
  have hset : (s.chip.setParam 0x21 0x004 fn x).ctlSetup fn = x := Chip.param_setParam_self ..
  refine .of_runAny (exec_controlQpEnable ..) ?_ ?_
  · show (s.chip.numWrite w 0x21 0x004 fn 4 _ (some idx)).calm = true
    rw [hx, Chip.replied_calm, (Chip.ctlStart_reports ..).calm, Chip.setParam_calm, hc]
  · show p (s.chip.numWrite w 0x21 0x004 fn 4 _ (some idx))
    rw [hx]
    refine hp _ ?_ ?_ ?_ rfl rfl
    · rw [Chip.ctlEnabled, hset, hb]
    · rw [Chip.ctlSqLog, hset, h0]
    · rw [Chip.ctlCqLog, hset, h5]

end

/-- Where the write of a good setup leaves nothing to carry out, nothing was left before. -/
theorem setup_leaves {s : State} {w : Writer} {fn : Nat} {v : BitVec 32} (hm : s.chip.mayWrite w (pnum 0x21 0x004 fn) = true) (hf : fn < 1024)
    {idx : CtlIndices} (he : s.chip.ctlEnabled fn = false) (hs : ringSizesOk v.toNat)
    (hc : (s.chip.numWrite w 0x21 0x004 fn 4 (v.toNat % 2 ^ 31 + 2 ^ 31) (some idx)).calm = true) : s.chip.calm = true := by
  obtain ⟨x, -, -, -, hx⟩ := setup_starts hm hf idx he hs
  rwa [hx, Chip.replied_calm, (Chip.ctlStart_reports ..).calm, Chip.setParam_calm] at hc

/-- A bad size, and other fields of an enabled pair, are refused. -/
theorem setup_refused {s : State} {w : Writer} {fn : Nat} {v : BitVec 32} (hm : s.chip.mayWrite w (pnum 0x21 0x004 fn) = true) (hf : fn < 1024)
    (idx : CtlIndices) (h : if s.chip.ctlEnabled fn = true then s.chip.ctlSetup fn ≠ keepBits 0x21 0x004 (v.toNat % 2 ^ 31 + 2 ^ 31)
      else ¬ ringSizesOk v.toNat) :
    s.chip.numWrite w 0x21 0x004 fn 4 (v.toNat % 2 ^ 31 + 2 ^ 31) (some idx) = s.chip.replied w 7 := by
  have hb := (bitOf_setup v.toNat).1
  have h0 : bits (keepBits 0x21 0x004 (v.toNat % 2 ^ 31 + 2 ^ 31)) 0 5 = bits v.toNat 0 5 := bits_setup (by omega)
  have h5 : bits (keepBits 0x21 0x004 (v.toNat % 2 ^ 31 + 2 ^ 31)) 5 5 = bits v.toNat 5 5 := bits_setup (by omega)
  have hw := setup_written hm hf (x := v.toNat % 2 ^ 31 + 2 ^ 31) (by omega) (some idx)
  split at hw
  · rename_i hok
    have hgood := (valueOk_setup ..).mp hok hb
    rw [ringSizesOk, h0, h5] at hgood
    split at h
    · rwa [Chip.store_setup, Chip.ctlSetupWrite_enabled ‹_› hb h] at hw
    · exact absurd hgood h
  · exact hw

/-- The chip with a setup stored that stops the pair, where it was enabled. -/
def Chip.ctlStopped (c : Chip) (fn k : Nat) : Chip :=
  if c.ctlEnabled fn then (c.freeIndices.1.setParam 0x21 0x004 fn k).ctlStop fn else c.freeIndices.1.setParam 0x21 0x004 fn k

theorem Chip.ctlStopped_calm (c : Chip) (fn k : Nat) : (c.ctlStopped fn k).calm = c.calm := by
  unfold Chip.ctlStopped
  split
  · exact (Chip.ctlStop_reports ..).calm.trans (Chip.setParam_calm ..)
  · exact Chip.setParam_calm ..

theorem Chip.ctlStopped_setup (c : Chip) (fn k : Nat) : (c.ctlStopped fn k).ctlSetup fn = k := by
  unfold Chip.ctlStopped
  split
  · exact ((Chip.ctlStop_reports ..).ctlSetup fn).trans (Chip.param_setParam_self ..)
  · exact Chip.param_setParam_self ..

/-- Its entries up to PI of the control SQ are not consumed any more, and nothing else of the function changes. -/
theorem Chip.ctlStopped_fn (c : Chip) (fn k : Nat) :
    (c.ctlEnabled fn = true → ((c.ctlStopped fn k).fn fn).ctlSqCi = (c.fn fn).ctlSqPi ∧ ((c.ctlStopped fn k).fn fn).ctlArmed = false) ∧
    (c.ctlEnabled fn = false → (c.ctlStopped fn k).fn fn = c.fn fn) := by
  unfold Chip.ctlStopped
  refine ⟨fun h => ?_, fun h => ?_⟩
  · rw [if_pos h, Chip.ctlStop, Chip.fn_updFn_self]
    exact ⟨rfl, rfl⟩
  · rw [if_neg (by simp [h])]
    rfl

theorem Chip.ctlStopped_rest (c : Chip) (fn k : Nat) : (c.ctlStopped fn k).queues = c.queues ∧ (c.ctlStopped fn k).mem = c.mem := by
  have hstop : ∀ d : Chip, (d.ctlStop fn).queues = d.queues ∧ (d.ctlStop fn).mem = d.mem := fun _ => ⟨rfl, rfl⟩
  have hset : ∀ d : Chip, (d.setParam 0x21 0x004 fn k).queues = d.queues ∧ (d.setParam 0x21 0x004 fn k).mem = d.mem := fun _ => ⟨rfl, rfl⟩
  have hfree : c.freeIndices.1.queues = c.queues ∧ c.freeIndices.1.mem = c.mem := ⟨rfl, rfl⟩
  unfold Chip.ctlStopped
  split
  · rw [(hstop _).1, (hstop _).2, (hset _).1, (hset _).2]
    exact hfree
  · rw [(hset _).1, (hset _).2]
    exact hfree

/-- A setup without ENABLE is stored; a pair that was enabled stops. -/
theorem setup_stops {s : State} {w : Writer} {fn : Nat} {v : BitVec 32} (hm : s.chip.mayWrite w (pnum 0x21 0x004 fn) = true) (hf : fn < 1024) :
    s.chip.numWrite w 0x21 0x004 fn 4 (v.toNat % 2 ^ 31) =
      (s.chip.ctlStopped fn (keepBits 0x21 0x004 (v.toNat % 2 ^ 31))).replied w 0 := by
  have hb := (bitOf_setup v.toNat).2
  have hw := setup_written hm hf (x := v.toNat % 2 ^ 31) (by omega) none
  rw [if_pos ((valueOk_setup ..).mpr fun h => absurd (h.symm.trans hb) (by decide)), Chip.store_setup_free, Chip.ctlSetupWrite_stop hb] at hw
  exact hw

theorem Chip.replied_ctlPair (c : Chip) (w : Writer) (k fn : Nat) : (c.replied w k).ctlPair fn = c.ctlPair fn := by
  rw [Chip.ctlPair, Chip.ctlPair, Chip.fn, Chip.fn, Chip.replied_funcs]

theorem Chip.replied_ctlEnabled (c : Chip) (w : Writer) (k fn : Nat) : (c.replied w k).ctlEnabled fn = c.ctlEnabled fn := by
  rw [Chip.ctlEnabled, Chip.ctlEnabled, Chip.ctlSetup, Chip.ctlSetup, Chip.replied_param]

/-- What the answered write that stops a pair leaves. -/
theorem Chip.ctlStopped_facts (c : Chip) (fn : Nat) (w : Writer) {k : Nat} (hk : bitOf k 31 = false) :
    let d := (c.ctlStopped fn k).replied w 0
    d.ctlEnabled fn = false ∧ d.ctlSetup fn = k ∧
    (c.ctlEnabled fn = true → (d.fn fn).ctlSqCi = (c.fn fn).ctlSqPi ∧ (d.fn fn).ctlArmed = false) ∧
    (c.ctlEnabled fn = false → d.fn fn = c.fn fn) ∧ d.queues = c.queues ∧ d.mem = c.mem := by
  have hset := c.ctlStopped_setup fn k
  have hfn := c.ctlStopped_fn fn k
  have hrest := c.ctlStopped_rest fn k
  generalize c.ctlStopped fn k = b at hset hfn hrest ⊢
  dsimp only
  rw [Chip.replied_ctlEnabled, Chip.replied_queues, Chip.replied_mem, show (b.replied w 0).ctlSetup fn = b.ctlSetup fn from
    Chip.replied_param .., show (b.replied w 0).fn fn = b.fn fn by rw [Chip.fn, Chip.replied_funcs, Chip.fn]]
  exact ⟨by rw [Chip.ctlEnabled, hset, hk], hset, hfn.1, hfn.2, hrest⟩

theorem Chip.ctlStart_enabled (c : Chip) (fn : Nat) (idx : CtlIndices) : (c.ctlStart fn idx).ctlEnabled fn = c.ctlEnabled fn := by
  rw [Chip.ctlEnabled, Chip.ctlEnabled, (c.ctlStart_reports fn idx).ctlSetup]

/-- The pair after its start: errors where its indices hold more than a ring. -/
theorem Chip.ctlPair_ctlStart_good {c : Chip} {fn : Nat} {idx : CtlIndices} (hsq : (idx.sqPi - idx.sqCi).toNat ≤ 2 ^ c.ctlSqLog fn)
    (hcq : (idx.cqPi - idx.cqCi).toNat ≤ 2 ^ c.ctlCqLog fn) : c.ctlStart fn idx = c.ctlBegun fn idx := by
  rw [Chip.ctlStart_eq]
  dsimp only
  rw [if_neg (tooMany_ne_true hsq), if_neg (tooMany_ne_true hcq)]

theorem Chip.ctlStart_sqBad {c : Chip} {fn : Nat} {idx : CtlIndices} (h : 2 ^ c.ctlSqLog fn < (idx.sqPi - idx.sqCi).toNat) :
    ((c.ctlStart fn idx).ctlPair fn).sqCause = 1 := by
  have hb := c.ctlPair_ctlBegun fn idx
  have h1 : (((c.ctlBegun fn idx).ctlError fn false 1).ctlPair fn) = { ctlPairOf idx with sqCause := 1 } := by
    rw [Chip.ctlPair_sqError (by rw [hb]; rfl), hb]
  rw [Chip.ctlStart_eq]
  dsimp only
  rw [if_pos (tooMany_eq_true h)]
  split
  · rw [Chip.ctlPair_cqError (by rw [h1]; rfl), h1, if_pos (show 1 ≠ 0 by decide)]
  · rw [h1]

theorem Chip.ctlStart_cqBad {c : Chip} {fn : Nat} {idx : CtlIndices} (hsq : (idx.sqPi - idx.sqCi).toNat ≤ 2 ^ c.ctlSqLog fn)
    (h : 2 ^ c.ctlCqLog fn < (idx.cqPi - idx.cqCi).toNat) :
    (c.ctlStart fn idx).ctlPair fn = { ctlPairOf idx with cqCause := 3, sqCause := 4, sqCi := idx.sqPi } := by
  have hb := c.ctlPair_ctlBegun fn idx
  rw [Chip.ctlStart_eq]
  dsimp only
  rw [if_neg (tooMany_ne_true hsq), if_pos (tooMany_eq_true h), Chip.ctlPair_cqError (by rw [hb]; rfl), hb,
    if_neg (show ¬ (ctlPairOf idx).sqCause ≠ 0 from fun h => h rfl)]
  rfl

/-- Settles O24, by what the start of a pair and its errors leave of it. -/
theorem controlQueuePairsStartAndStop : Obligations.ControlQueuePairsStartAndStop := by
  intro s w fn v hm hf
  refine ⟨fun idx hs he hz hsq hcq => ?_, fun idx hl he hz => ⟨fun hbad => ?_, fun hsq hbad => ?_⟩, fun idx hs hbad => ?_, fun hs => ?_⟩
  · refine controlQpEnable_starts hm hf hs.2 he hz fun b hen h0 h5 hq hmem => ?_
    have hpair := b.ctlPair_ctlBegun fn idx
    rw [Chip.ctlPair_ctlStart_good (by rwa [h0]) (by rwa [h5])]
    rw [← Chip.replied_ctlPair _ w 0] at hpair
    refine ⟨?_, congrArg CtlPair.sqPi hpair, congrArg CtlPair.sqCi hpair, congrArg CtlPair.cqPi hpair, congrArg CtlPair.cqCi hpair,
      congrArg CtlPair.sqCause hpair, congrArg CtlPair.cqCause hpair, ?_, ?_⟩
    · rw [Chip.replied_ctlEnabled, Chip.ctlEnabled, (b.ctlBegun_reports fn idx).ctlSetup]
      exact hen
    · rw [Chip.replied_queues, Chip.ctlBegun_queues, hq]
    · rw [Chip.replied_mem, (b.ctlBegun_reports fn idx).mem, hmem]
  · refine controlQpEnable_starts hm hf (setup_leaves hm hf he hz hl.2) he hz fun b hen h0 _ _ _ => ?_
    rw [Chip.replied_ctlEnabled, Chip.ctlStart_enabled]
    have hpair := Chip.ctlStart_sqBad (idx := idx) (h0 ▸ hbad)
    rw [← Chip.replied_ctlPair _ w 0] at hpair
    exact ⟨hen, hpair⟩
  · refine controlQpEnable_starts hm hf (setup_leaves hm hf he hz hl.2) he hz fun b hen h0 h5 _ _ => ?_
    rw [Chip.replied_ctlEnabled, Chip.ctlStart_enabled]
    have hpair := Chip.ctlStart_cqBad (idx := idx) (h0 ▸ hsq) (h5 ▸ hbad)
    rw [← Chip.replied_ctlPair _ w 0] at hpair
    exact ⟨hen, congrArg CtlPair.cqCause hpair, congrArg CtlPair.sqCause hpair, congrArg CtlPair.sqCi hpair⟩
  · have hx : s.chip.numWrite w 0x21 0x004 fn 4 (v.toNat % 2 ^ 31 + 2 ^ 31) (some idx) = s.chip.replied w 7 :=
      setup_refused hm hf idx hbad
    refine .of_runAny (exec_controlQpEnable ..) ?_ ?_
    · rw [hx, Chip.replied_calm, hs.2]
    · rw [hx]
      refine ⟨by simp, ?_, by simp, by simp⟩
      rw [Chip.fn, Chip.fn, Chip.replied_funcs]
  · obtain ⟨hk, hoff⟩ := And.intro (setup_stops hm hf (v := v)) (bitOf_setup v.toNat).2
    generalize keepBits 0x21 0x004 (v.toNat % 2 ^ 31) = k at hk hoff ⊢
    refine .of_runAny (exec_controlQpDisable ..) ?_ ?_
    · rw [hk, Chip.replied_calm, Chip.ctlStopped_calm, hs.2]
    · rw [hk]
      exact s.chip.ctlStopped_facts fn w hoff

end Sys2Proof.Machine
end


section
/-! Mailbox requests (R54 to R58, R510 to R512): what a request leaves in its mailbox, and a whole value written through it. -/

set_option Elab.async false

namespace Sys2Proof.Machine

/-! ### Mailboxes and held chunks decide no answer -/

/-- The chip with other mailboxes and held chunks. -/
def Chip.withPath (c : Chip) (b : Tab Mailbox) (l : List HeldValue) : Chip := { c with dict := { c.dict with mailboxes := b, held := l } }

theorem Chip.withPath_reachWrite (c : Chip) (b : Tab Mailbox) (l : List HeldValue) (w : Writer) (n : Nat) :
    (c.withPath b l).reachWrite w n = c.reachWrite w n := rfl

theorem Chip.withPath_pathAsk (c : Chip) (b : Tab Mailbox) (l : List HeldValue) (w : Writer) (op : Nat) (n : BitVec 32) (le : Bool)
    (off len limit : Nat) : (c.withPath b l).pathAsk w op n le off len limit = c.pathAsk w op n le off len limit := rfl

theorem Chip.withPath_passes (c : Chip) (b : Tab Mailbox) (l : List HeldValue) (w : Writer) (n : Nat) (x : List Byte) :
    (c.withPath b l).passes w n x = c.passes w n x := rfl

theorem Chip.withPath_calm (c : Chip) (b : Tab Mailbox) (l : List HeldValue) : (c.withPath b l).calm = c.calm := rfl

/-- The rules for held chunks change these alone. -/
theorem Chip.chunkRules_withPath (c : Chip) (p : Writer) (n : BitVec 32) (iw : Bool) (tag : Nat) :
    ∃ l, c.chunkRules p n iw tag = c.withPath c.dict.mailboxes l := by
  unfold Chip.chunkRules
  split
  · exact ⟨c.dict.held, rfl⟩
  · split
    · exact ⟨_, rfl⟩
    · exact ⟨c.dict.held, rfl⟩

theorem Chip.chunkRules_none {c : Chip} {p : Writer} (h : c.heldAt p = none) (n : BitVec 32) (iw : Bool) (tag : Nat) :
    c.chunkRules p n iw tag = c := by
  unfold Chip.chunkRules
  rw [h]

/-! ### The end of a request -/

/-- A mailbox with its request completed. -/
def Mailbox.completed (m : Mailbox) (a : Answer) : Mailbox :=
  { m with go := false, done := true, dstatus := a.1, valueLen := a.2.2, seq := m.seq + 1
           data := if a.1 = 0 then mbxStore m.data 0 a.2.1 else m.data }

/-- A mailbox with its request taken. -/
def Mailbox.taken (m : Mailbox) (op : Nat) (relay : Bool) (vf : Nat) (n : BitVec 32) : Mailbox :=
  { m with cmdOp := op, cmdRelay := relay, cmdVf := vf, cmdParam := n, go := true, done := false }

theorem Chip.mailbox_updMailbox (c : Chip) (h : Nat) (f : Mailbox → Mailbox) : (c.updMailbox h f).mailbox h = f (c.mailbox h) :=
  Tab.get_upd_self ..

theorem Chip.mbxTake_mailbox (c : Chip) (h op : Nat) (relay : Bool) (vf : Nat) (n : BitVec 32) :
    (c.mbxTake h op relay vf n).mailbox h = (c.mailbox h).taken op relay vf n := c.mailbox_updMailbox ..

theorem Chip.mbxTake_withPath (c : Chip) (h op : Nat) (relay : Bool) (vf : Nat) (n : BitVec 32) :
    ∃ b, c.mbxTake h op relay vf n = c.withPath b c.dict.held := ⟨_, rfl⟩

/-- The completion only reports beside the mailbox. -/
theorem Chip.mbxDone_reports (c : Chip) (h : Nat) (a : Answer) :
    Chip.OnlyReports (c.updMailbox h fun m => m.completed a) (c.mbxDone h a) := .ite (Chip.signal_reports ..) (.refl _)

theorem Chip.mbxDone_mailbox (c : Chip) (h : Nat) (a : Answer) : (c.mbxDone h a).mailbox h = (c.mailbox h).completed a := by
  rw [Chip.mailbox, (c.mbxDone_reports h a).dict]
  exact c.mailbox_updMailbox ..

theorem Chip.mbxDone_active (c : Chip) (h : Nat) (a : Answer) : (c.mbxDone h a).dict.active = c.dict.active := by
  rw [(c.mbxDone_reports h a).dict]
  rfl

theorem Chip.mbxDone_staged (c : Chip) (h : Nat) (a : Answer) : (c.mbxDone h a).dict.staged = c.dict.staged := by
  rw [(c.mbxDone_reports h a).dict]
  rfl

theorem Chip.mbxDone_sets (c : Chip) (h : Nat) (a : Answer) : (c.mbxDone h a).dict.sets = c.dict.sets := by
  rw [(c.mbxDone_reports h a).dict]
  rfl

theorem Chip.mbxDone_held (c : Chip) (h : Nat) (a : Answer) : (c.mbxDone h a).dict.held = c.dict.held := by
  rw [(c.mbxDone_reports h a).dict]
  rfl

theorem Chip.mbxDone_mem (c : Chip) (h : Nat) (a : Answer) : (c.mbxDone h a).mem = c.mem := (c.mbxDone_reports h a).mem

theorem Chip.mbxDone_variant (c : Chip) (h : Nat) (a : Answer) : (c.mbxDone h a).variant = c.variant := (c.mbxDone_reports h a).variant

theorem Chip.mbxDone_param (c : Chip) (h : Nat) (a : Answer) (x o e : Nat) : (c.mbxDone h a).param x o e = c.param x o e := by
  have hr := c.mbxDone_reports h a
  rw [Chip.param, hr.dict, hr.variant, hr.serial, hr.boot]
  rfl

/-! ### MBX_DATA -/

/-- A byte of MBX_DATA after others have been stored from an offset on. -/
theorem get_mbxStore (l : List Byte) (t : Tab Byte) (off i : Nat) :
    Tab.get (mbxStore t off l) i 0 = if off ≤ i ∧ i < off + l.length then l.getD (i - off) 0 else Tab.get t i 0 := by
  induction l generalizing t off with
  | nil => rw [mbxStore, if_neg (by simp)]
  | cons b l ih =>
    rw [mbxStore, ih]
    by_cases h : i = off
    · subst h
      simp
    · rw [Tab.get_set_ne _ _ _ h]
      by_cases h1 : off + 1 ≤ i ∧ i < off + 1 + l.length
      · rw [if_pos h1, if_pos (by simp; omega), show i - off = (i - (off + 1)) + 1 by omega]
        rfl
      · rw [if_neg h1, if_neg (by simp; omega)]

/-- The answer stands in MBX_DATA. -/
theorem Mailbox.bytes_completed (m : Mailbox) {a : Answer} (h : a.1 = 0) : (m.completed a).bytes a.2.1.length = a.2.1 := by
  refine List.ext_getElem (by simp [Mailbox.bytes]) fun i h1 h2 => ?_
  simp only [Mailbox.bytes, List.getElem_map, List.getElem_range, Mailbox.completed, if_pos h]
  rw [get_mbxStore, if_pos (by omega), Nat.sub_zero, List.getD_eq_getElem _ _ h2]

/-! ### Requests that ask -/

/-- Who a mailbox request speaks for: the PF, or the VF that it relays for. -/
def mbxWriter (h : Nat) (relay : Bool) (vf : Nat) : Writer := if relay then .tenant h vf else .mailbox h

theorem mbxWriter_path (h : Nat) (relay : Bool) (vf : Nat) : (mbxWriter h relay vf).path = .mailbox h := by
  cases relay <;> rfl

section
variable {c : Chip} {h : Nat} (hh : c.hasHost h = true)
include hh

/-- While the MGT cluster is down a request completes with 0x03. -/
theorem Chip.mbxRequest_down (hm : c.mgtUp = false) (op : Nat) (relay : Bool) (vf : Nat) (n : BitVec 32) :
    c.mbxRequest h op relay vf n = (c.mbxTake h op relay vf n).mbxDone h (3, [], 0) := by
  unfold Chip.mbxRequest
  rw [if_neg (by simp [hh])]
  dsimp only
  rw [if_pos (by rw [show (c.mbxTake h op relay vf n).mgtUp = c.mgtUp from rfl, hm]; rfl)]

/-- A request that asks completes with the answer of its path, and changes nothing else but the mailbox and what is held. -/
theorem Chip.mbxRequest_asks (hm : c.mgtUp = true) {op : Nat} (ho : op ≠ 2) (relay : Bool) (vf : Nat) (n : BitVec 32) :
    ∃ b l, (c.withPath b l).mailbox h = (c.mailbox h).taken op relay vf n ∧
      c.mbxRequest h op relay vf n = (c.withPath b l).mbxDone h
        (c.pathAsk (mbxWriter h relay vf) op n true (c.mailbox h).xferOff (c.mailbox h).xferLen 2048) := by
  obtain ⟨b, hb⟩ := c.mbxTake_withPath h op relay vf n
  have hbox := c.mbxTake_mailbox h op relay vf n
  obtain ⟨l, hl⟩ := (c.mbxTake h op relay vf n).chunkRules_withPath (.mailbox h) n (op == 2) 0
  have hl' : (c.mbxTake h op relay vf n).chunkRules (.mailbox h) n (op == 2) 0 = c.withPath b l := by rw [hl, hb]; rfl
  rw [hb] at hbox
  refine ⟨b, l, hbox, ?_⟩
  unfold Chip.mbxRequest
  rw [if_neg (by simp [hh])]
  dsimp only
  rw [if_neg (by rw [show (c.mbxTake h op relay vf n).mgtUp = c.mgtUp from rfl, hm]; decide), if_neg ho, hl', Chip.withPath_pathAsk,
    c.mbxTake_mailbox h op relay vf n]
  rfl

end

/-- The mailbox shows the request's end: its status and length, and SEQ counted on; no parameter and no memory has changed. -/
def Chip.mbxEnds (d c : Chip) (h k n : Nat) : Prop :=
  (d.mailbox h).go = false ∧ (d.mailbox h).done = true ∧ (d.mailbox h).dstatus = k ∧ (d.mailbox h).valueLen = n ∧
  (d.mailbox h).seq = (c.mailbox h).seq + 1 ∧ d.dict.active = c.dict.active ∧ d.mem = c.mem

theorem Chip.mbxDone_ends {c b : Chip} {h op : Nat} {relay : Bool} {vf : Nat} {n : BitVec 32}
    (hb : b.mailbox h = (c.mailbox h).taken op relay vf n) (ha : b.dict.active = c.dict.active) (hm : b.mem = c.mem) (a : Answer) :
    (b.mbxDone h a).mbxEnds c h a.1 a.2.2 := by
  unfold Chip.mbxEnds
  rw [Chip.mbxDone_mailbox, Chip.mbxDone_active, Chip.mbxDone_mem, hb]
  exact ⟨rfl, rfl, rfl, rfl, rfl, ha, hm⟩

section
variable {s : State} {h : Nat} (hs : s.serving) (hh : s.chip.hasHost h = true) {i : Instr} {op : Nat} {relay : Bool} {vf : Nat} {n : BitVec 32}
include hs hh

/-- A request that asks completes with the answer of its path. -/
theorem asks_completes (hi : exec i s = s.run fun c => c.mbxRequest h op relay vf n) (hm : s.chip.mgtUp = true) (ho : op ≠ 2)
    {a : Answer} (ha : a = s.chip.pathAsk (mbxWriter h relay vf) op n true (s.chip.mailbox h).xferOff (s.chip.mailbox h).xferLen 2048) :
    Completes i s fun d => d.mbxEnds s.chip h a.1 a.2.2 ∧ (a.1 = 0 → (d.mailbox h).bytes a.2.1.length = a.2.1) := by
  obtain ⟨b, l, hbox, hr⟩ := Chip.mbxRequest_asks hh hm ho relay vf n
  rw [← ha] at hr
  refine .of_run hi hs.1 ?_ ?_
  · rw [hr, Chip.mbxDone_calm, Chip.withPath_calm, hs.2]
  · rw [hr]
    refine ⟨Chip.mbxDone_ends hbox rfl rfl a, fun h0 => ?_⟩
    rw [Chip.mbxDone_mailbox, Mailbox.bytes_completed _ h0]

/-- While the MGT cluster is down it completes with 0x03. -/
theorem down_completes (hi : exec i s = s.run fun c => c.mbxRequest h op relay vf n) (hm : s.chip.mgtUp = false) :
    Completes i s fun d => d.mbxEnds s.chip h 3 0 := by
  have hr := Chip.mbxRequest_down hh hm op relay vf n
  refine .of_run hi hs.1 ?_ ?_
  · rw [hr, Chip.mbxDone_calm, Chip.mbxTake_calm, hs.2]
  · rw [hr]
    exact Chip.mbxDone_ends (Chip.mbxTake_mailbox ..) rfl rfl (3, [], 0)

end

/-! ### Requests that write -/

/-- A WRITE completes with the status of its path. -/
theorem Chip.mbxRequest_writes {c : Chip} {h : Nat} (hh : c.hasHost h = true) (hm : c.mgtUp = true) (relay : Bool) (vf : Nat) (n : BitVec 32) :
    ∃ b l, (c.withPath b l).mailbox h = (c.mailbox h).taken 2 relay vf n ∧
      (c.heldAt (.mailbox h) = none → l = c.dict.held) ∧
      c.mbxRequest h 2 relay vf n =
        let m := c.mailbox h
        let r := (c.withPath b l).pathWrite (mbxWriter h relay vf) n m.xferOff (m.bytes (min m.xferLen 2048)) (decide (m.xferLen ≤ 2048))
          m.final true 0 0
        r.1.mbxDone h (r.2, [], 0) := by
  obtain ⟨b, hb⟩ := c.mbxTake_withPath h 2 relay vf n
  have hbox := c.mbxTake_mailbox h 2 relay vf n
  obtain ⟨l, hl⟩ := (c.mbxTake h 2 relay vf n).chunkRules_withPath (.mailbox h) n true 0
  have hl' : (c.mbxTake h 2 relay vf n).chunkRules (.mailbox h) n true 0 = c.withPath b l := by rw [hl, hb]; rfl
  refine ⟨b, l, ?_, fun hn => ?_, ?_⟩
  · rw [hb] at hbox
    exact hbox
  · have hk : (c.mbxTake h 2 relay vf n).chunkRules (.mailbox h) n true 0 = c.mbxTake h 2 relay vf n := Chip.chunkRules_none (c := c.mbxTake h 2 relay vf n) hn n true 0
    exact (congrArg (fun d : Chip => d.dict.held) (hl'.symm.trans hk)).trans rfl
  · unfold Chip.mbxRequest
    rw [if_neg (by simp [hh])]
    dsimp only
    rw [if_neg (by rw [show (c.mbxTake h 2 relay vf n).mgtUp = c.mgtUp from rfl, hm]; decide), if_pos rfl, show (2 == 2) = true from rfl, hl',
      c.mbxTake_mailbox h 2 relay vf n]
    rfl

/-- The writes of a path keep every mailbox. -/
theorem Chip.pathWrite_mailbox (c : Chip) (w : Writer) (n : BitVec 32) (off : Nat) (l : List Byte) (fits final le : Bool) (tag vlen h : Nat)
    (idx : Option CtlIndices) : (c.pathWrite w n off l fits final le tag vlen idx).1.mailbox h = c.mailbox h :=
  congrArg (fun k : Wide => Tab.get k.mailboxes h Mailbox.init) (c.pathWrite_wide w n off l fits final le tag vlen idx)

/-- The request's end, with whatever status. -/
def Chip.mbxOver (d c : Chip) (h : Nat) : Prop :=
  (d.mailbox h).go = false ∧ (d.mailbox h).done = true ∧ (d.mailbox h).seq = (c.mailbox h).seq + 1

/-- Every WRITE completes its request. -/
theorem Chip.mbxRequest_over {c : Chip} {h : Nat} (hh : c.hasHost h = true) (relay : Bool) (vf : Nat) (n : BitVec 32) :
    (c.mbxRequest h 2 relay vf n).mbxOver c h := by
  cases hm : c.mgtUp
  · rw [Chip.mbxRequest_down hh hm, Chip.mbxOver, Chip.mbxDone_mailbox, Chip.mbxTake_mailbox]
    exact ⟨rfl, rfl, rfl⟩
  · obtain ⟨b, l, hbox, -, hr⟩ := Chip.mbxRequest_writes hh hm relay vf n
    rw [hr, Chip.mbxOver, Chip.mbxDone_mailbox, Chip.pathWrite_mailbox, hbox]
    exact ⟨rfl, rfl, rfl⟩

/-! ### Whole values (R512) -/

/-- A row behind every key of a table is put at its end. -/
theorem Tab.put_last {α : Type} {t : Tab α} {k : Nat} (v : α) (h : ∀ r ∈ t, r.1 < k) : Tab.put t k v = t ++ [(k, v)] := by
  induction t with
  | nil => rfl
  | cons r t ih =>
    have hr := h r (by simp)
    rw [Tab.put, if_neg (by omega), if_neg (by omega), ih fun x hx => h x (by simp [hx])]
    rfl

/-- Bytes from an offset on, as rows. -/
def rowsFrom (off : Nat) (l : List Byte) : Tab Byte := (l.zipIdx off).map fun r => (r.2, r.1)

theorem layBytes_behind (l : List Byte) {t : Tab Byte} {off : Nat} (h : ∀ r ∈ t, r.1 < off) : layBytes t off l = t ++ rowsFrom off l := by
  induction l generalizing t off with
  | nil => simp [layBytes, rowsFrom]
  | cons b l ih =>
    have hlt : ∀ r ∈ t ++ [(off, b)], r.1 < off + 1 := fun r hr => by
      obtain hr | hr := List.mem_append.mp hr
      · exact Nat.lt_succ_of_lt (h r hr)
      · rw [List.mem_singleton.mp hr]
        exact Nat.lt_succ_self off
    rw [layBytes, Tab.put_last b h, ih hlt]
    simp [rowsFrom]

theorem wholeValue_alone (l : List Byte) : wholeValue [] 0 l = some l := by
  have hb : layBytes [] 0 l = rowsFrom 0 l := layBytes_behind l (by simp)
  have hall : ((rowsFrom 0 l).all fun r => decide (r.1 < 0 + l.length)) = true := by
    rw [List.all_eq_true]
    intro r hr
    obtain ⟨⟨x, i⟩, hx, rfl⟩ := List.mem_map.mp hr
    have := List.snd_lt_of_mem_zipIdx hx
    simpa using this
  unfold wholeValue
  dsimp only
  rw [hb, hall, show (rowsFrom 0 l).length = l.length by simp [rowsFrom], show (rowsFrom 0 l).map (·.2) = l by simp [rowsFrom, Function.comp_def]]
  simp

theorem pathOrder_pathOrder (le : Bool) (d : Desc) (l : List Byte) : pathOrder le d (pathOrder le d l) = l := by
  unfold pathOrder
  split
  · exact l.reverse_reverse
  · rfl

section
variable {c : Chip} {w : Writer} {n : BitVec 32}

theorem Chip.pathWrite_error {k : Nat} (h : c.reachWrite w n.toNat = .error k) (off : Nat) (l : List Byte) (fits final le : Bool)
    (tag vlen : Nat) (idx : Option CtlIndices) : c.pathWrite w n off l fits final le tag vlen idx = (c, k) := by
  unfold Chip.pathWrite
  rw [h]

theorem Chip.pathWrite_chunk {d : Desc} (h : c.reachWrite w n.toNat = .ok d) (off : Nat) (l : List Byte) (le : Bool)
    (tag vlen : Nat) (idx : Option CtlIndices) :
    c.pathWrite w n off l true false le tag vlen idx = (c.holdChunk w.path n off l tag vlen, 0) := by
  unfold Chip.pathWrite
  rw [h]
  rfl

/-- A whole value in one final chunk is written. -/
theorem Chip.pathWrite_whole {d : Desc} (h : c.reachWrite w n.toNat = .ok d) (hn : c.heldAt w.path = none) (hw : ∀ ep, w ≠ .shim ep)
    (l : List Byte) (le : Bool) (idx : Option CtlIndices) :
    c.pathWrite w n 0 (pathOrder le d l) true true le 0 0 idx =
      let r := c.dictWrite w n.toNat (some l) idx
      if r.2 = 0 ∨ r.2 = 1 ∨ r.2 = 8 then (r.1.dropHeld w.path, r.2) else r := by
  have hv : ∀ x, vlenFits w x 0 = true := fun x => by
    cases w with
    | shim ep => exact absurd rfl (hw ep)
    | _ => rfl
  unfold Chip.pathWrite
  rw [h]
  dsimp only
  rw [if_neg (by decide), hn]
  simp only [Option.getD_none, hv, Bool.and_true, beq_self_eq_true, if_true]
  rw [show wholeValue HeldValue.init.bytes 0 (pathOrder le d l) = some (pathOrder le d l) from wholeValue_alone _, Option.map_some,
    pathOrder_pathOrder]

end

/-! ### A value that is stored with no effect beside it -/

/-- `d` holds the values, staged values, sets and memory of `c`, and has as little to carry out. -/
structure Chip.SameValues (c d : Chip) : Prop where
  active : d.dict.active = c.dict.active
  staged : d.dict.staged = c.dict.staged
  mem : d.mem = c.mem
  calm : d.calm = c.calm
  variant : d.variant = c.variant
  serial : d.serial = c.serial
  boot : d.boot = c.boot

theorem Chip.SameValues.rfl {c : Chip} : c.SameValues c := ⟨.refl _, .refl _, .refl _, .refl _, .refl _, .refl _, .refl _⟩

theorem Chip.SameValues.trans {c d e : Chip} (h : c.SameValues d) (k : d.SameValues e) : c.SameValues e :=
  ⟨k.active.trans h.active, k.staged.trans h.staged, k.mem.trans h.mem, k.calm.trans h.calm, k.variant.trans h.variant,
    k.serial.trans h.serial, k.boot.trans h.boot⟩

theorem Chip.SameValues.foldl {α : Type} {g : Chip → α → Chip} (hg : ∀ (c : Chip) a, c.SameValues (g c a)) (l : List α) (c : Chip) :
    c.SameValues (l.foldl g c) := by
  induction l generalizing c with
  | nil => exact .rfl
  | cons a l ih => exact (hg c a).trans (ih (g c a))

theorem Chip.SameValues.param {c d : Chip} (h : c.SameValues d) (a o e : Nat) : d.param a o e = c.param a o e := by
  rw [Chip.param, Chip.param, h.active, h.variant, h.serial, h.boot]

theorem Chip.emptyMgmt_same (c : Chip) (h : Nat) : c.SameValues (c.emptyMgmt h) := by
  have hm : ∀ (d : Chip) n, d.SameValues (d.mgmtDiscards h n) := fun d n => by
    have hr := d.bump_reports (60 + h) .mgmtDiscard n
    unfold Chip.mgmtDiscards
    exact ⟨by rw [hr.dict], by rw [hr.dict], hr.mem, hr.calm, hr.variant, hr.serial, hr.boot⟩
  have hp : ∀ (d : Chip) i f, d.SameValues (d.putFifo i f) := fun d i f => ⟨.refl _, .refl _, .refl _, .refl _, .refl _, .refl _, .refl _⟩
  exact ((hp _ _ _).trans (hp _ _ _)).trans (hm _ _)

/-- What follows a change of values elsewhere than in the retirement rule changes no value. -/
theorem Chip.followUps_same {c old : Chip} (h2 : c.param 0x28 0x012 0 = old.param 0x28 0x012 0)
    (h3 : c.param 0x28 0x013 0 = old.param 0x28 0x013 0) : c.SameValues (c.followUps old) := by
  have hheld : ∀ (d : Chip) l, d.SameValues { d with dict := { d.dict with held := l } } := fun d l =>
    ⟨.refl _, .refl _, .refl _, .refl _, .refl _, .refl _, .refl _⟩
  have hcache : ∀ (d : Chip) b l, d.SameValues { d with rt := { d.rt with bcasts := b }, dict := { d.dict with shimCache := l } } :=
    fun d b l => ⟨.refl _, .refl _, .refl _, .refl _, .refl _, .refl _, .refl _⟩
  have hrights : c.SameValues ((List.range 4).foldl (fun c h => if old.fmRight h && !c.fmRight h then c.emptyMgmt h else c) c) :=
    .foldl (fun d h => by
      split
      · exact d.emptyMgmt_same h
      · exact .rfl) _ c
  have hrule : ∀ d : Chip, c.SameValues d → d.retireRuleChanged old = d := fun d hd => by
    unfold Chip.retireRuleChanged
    rw [if_pos ⟨(hd.param ..).trans h2, (hd.param ..).trans h3⟩]
  unfold Chip.followUps
  dsimp only
  rw [hrule _ (.trans ?_ (hcache _ _ _))]
  · refine .trans ?_ (hcache _ _ _)
    split
    · exact hrights.trans (hheld _ _)
    · exact hrights
  · split
    · exact hrights.trans (hheld _ _)
    · exact hrights

theorem storesOnly_area {n : Nat} (h : storesOnly n = true) :
    pArea n ≠ 0x13 ∧ pArea n ≠ 0x18 ∧ pArea n ≠ 0x20 ∧ pArea n ≠ 0x21 ∧ pArea n ≠ 0x28 ∧ pArea n ≠ 0x29 := by
  simpa [storesOnly, List.contains_eq_mem] using h

/-- Outside the areas with effects of their own a value is stored, and what follows is due. -/
theorem Chip.store_plain {c : Chip} {n : Nat} (h : storesOnly n = true) (x : Nat) (idx : Option CtlIndices) :
    c.store (pArea n) (pObj n) (pElem n) x idx =
      ((c.setParam (pArea n) (pObj n) (pElem n) (storedForm (pArea n) (pObj n) (pElem n) x)).followUps c, 0) := by
  obtain ⟨h13, h18, h20, h21, -, h29⟩ := storesOnly_area h
  unfold Chip.store
  split
  case h_7 => rw [if_neg fun hn => h29 hn.1]
  all_goals omega

/-- The chip with a value stored and what follows done. -/
def Chip.storedAt (c : Chip) (n x : Nat) : Chip :=
  (c.setParam (pArea n) (pObj n) (pElem n) (storedForm (pArea n) (pObj n) (pElem n) x)).followUps c

theorem Chip.storedAt_facts (c : Chip) {n : Nat} (h : storesOnly n = true) (x : Nat) :
    (c.storedAt n x).param (pArea n) (pObj n) (pElem n) = storedForm (pArea n) (pObj n) (pElem n) x ∧
    (c.storedAt n x).dict.staged = c.dict.staged ∧ (c.storedAt n x).mem = c.mem ∧ (c.storedAt n x).calm = c.calm := by
  obtain ⟨-, -, -, -, h28, -⟩ := storesOnly_area h
  have hne : ∀ o < 4096, pnum 0x28 o 0 ≠ pnum (pArea n) (pObj n) (pElem n) := fun o ho he => by
    have h1 : pArea (pnum 0x28 o 0) = 0x28 := pArea_pnum _ _ _ (by decide) ho (by decide)
    have h2 : pArea (pnum (pArea n) (pObj n) (pElem n)) = pArea n := by unfold pnum pArea pObj pElem; omega
    exact h28 (h2.symm.trans (he ▸ h1))
  have hf := Chip.followUps_same (c := c.setParam (pArea n) (pObj n) (pElem n) (storedForm (pArea n) (pObj n) (pElem n) x)) (old := c)
    (Chip.param_setParam_ne _ _ (hne _ (by decide))) (Chip.param_setParam_ne _ _ (hne _ (by decide)))
  exact ⟨(hf.param ..).trans (Chip.param_setParam_self ..), hf.staged, hf.mem, hf.calm.trans (Chip.setParam_calm ..)⟩

/-- What a value that passes every check meets. -/
theorem Chip.passes_iff {c : Chip} {w : Writer} {n : Nat} {l : List Byte} {a : PAccess} (h : c.passes w n l = some a) :
    ∃ d, c.reachWrite w n = .ok d ∧ d.access = a ∧ d.ty ≠ .blob ∧ lengthOk d n l.length = true ∧ c.locked w d n (some (natBE l)) = false ∧
      valueOk d (pArea n) (pObj n) (pElem n) (keepBits (pArea n) (pObj n) (natBE l)) = true ∧
      c.valueRefused (pArea n) (pObj n) (pElem n) (keepBits (pArea n) (pObj n) (natBE l)) = false := by
  unfold Chip.passes at h
  cases hr : c.reachWrite w n with
  | error k => rw [hr] at h; exact absurd h (by simp)
  | ok d =>
    rw [hr] at h
    dsimp only at h
    split at h
    · rename_i hk
      obtain ⟨hb, hl, hlock, hv, href⟩ := hk
      exact ⟨d, rfl, Option.some.inj h, hb, hl, hlock, hv, href⟩
    · contradiction

/-- What such a value's write does: it is staged, or stored with what follows. -/
theorem Chip.dictWrite_passes {c : Chip} {w : Writer} {n : Nat} {l : List Byte} {a : PAccess} (h : c.passes w n l = some a)
    (ha : a = .rwa ∨ (a = .rw ∨ a = .rwn) ∧ storesOnly n = true) (idx : Option CtlIndices) :
    c.dictWrite w n (some l) idx =
      if a = .rwa then (c.stage w (c.setOf n) n (keepBits (pArea n) (pObj n) (natBE l)), 1)
      else (c.storedAt n (keepBits (pArea n) (pObj n) (natBE l)), 0) := by
  obtain ⟨d, hr, hda, hb, hl, hlock, hv, href⟩ := Chip.passes_iff h
  have hset : d.set = c.setOf n := by rw [Chip.setOf, Chip.reachWrite_descOf hr]; rfl
  have hnum : c.dictWrite w n (some l) idx = c.writeNumber w d n (natBE l) idx := by
    unfold Chip.dictWrite
    rw [hr]
    simp [hl, hlock, hb]
  rw [hnum]
  unfold Chip.writeNumber
  simp only [hv, href, hda, hset]
  obtain rfl | ⟨rfl | rfl, hn⟩ := ha
  · rfl
  · exact Chip.store_plain hn ..
  · exact Chip.store_plain hn ..

/-! ### The writes of a mailbox -/

theorem PType.size_le (t : PType) : t.size ≤ 2048 := by cases t <;> decide

/-- The written chip with its held chunks gone, as the final chunk leaves it. -/
def Chip.writtenAt (c : Chip) (w : Writer) (n : Nat) (l : List Byte) (a : PAccess) : Chip :=
  (if a = .rwa then c.stage w (c.setOf n) n (keepBits (pArea n) (pObj n) (natBE l))
    else c.storedAt n (keepBits (pArea n) (pObj n) (natBE l))).dropHeld w.path

/-- A staged value stands, in a set that is being staged by its writer. -/
theorem Chip.stage_facts (c : Chip) (w : Writer) (k n x : Nat) :
    Tab.get? (c.stage w k n x).dict.staged n = some x ∧ ((c.stage w k n x).applySet k).phase = .staging ∧
      ((c.stage w k n x).applySet k).holder = some w := by
  have hset : (c.stage w k n x).applySet k = { c.applySet k with phase := .staging, holder := some w, lastStaged := c.now } :=
    Tab.get_upd_self c.dict.sets k ApplySet.init fun a => { a with phase := .staging, holder := some w, lastStaged := c.now }
  exact ⟨Tab.get?_put_self .., by rw [hset], by rw [hset]⟩

theorem Chip.writtenAt_facts (c : Chip) (w : Writer) (n : Nat) (l : List Byte) {a : PAccess}
    (ha : a = .rwa ∨ (a = .rw ∨ a = .rwn) ∧ storesOnly n = true) :
    (c.writtenAt w n l a).calm = c.calm ∧ (c.writtenAt w n l a).mem = c.mem ∧ (c.writtenAt w n l a).hasWritten c w n l a := by
  unfold Chip.writtenAt Chip.hasWritten
  obtain rfl | ⟨hrw, hn⟩ := ha
  · simp only [if_pos]
    obtain ⟨hst, hph, hho⟩ := c.stage_facts w (c.setOf n) n (keepBits (pArea n) (pObj n) (natBE l))
    exact ⟨rfl, rfl, hst, hph, hho, rfl⟩
  · have hne : a ≠ .rwa := by obtain rfl | rfl := hrw <;> decide
    obtain ⟨hp, hst, hm, hc⟩ := c.storedAt_facts hn (keepBits (pArea n) (pObj n) (natBE l))
    simp only [if_neg hne]
    generalize c.storedAt n (keepBits (pArea n) (pObj n) (natBE l)) = b at hp hst hm hc ⊢
    exact ⟨hc, hm, hp, hst⟩

/-- What has been written stands after a request's end. -/
theorem Chip.mbxDone_hasWritten {d c : Chip} {w : Writer} {n : Nat} {l : List Byte} {a : PAccess} (h : d.hasWritten c w n l a)
    (k : Nat) (x : Answer) : (d.mbxDone k x).hasWritten c w n l a := by
  unfold Chip.hasWritten at h ⊢
  dsimp only at h ⊢
  simp only [Chip.applySet, Chip.setOf, Chip.mbxDone_staged, Chip.mbxDone_sets, Chip.mbxDone_active, Chip.mbxDone_param,
    Chip.mbxDone_variant] at h ⊢
  exact h

section
variable {s : State} {h vf : Nat} {relay : Bool} {n : BitVec 32} (hs : s.serving) (hm : s.chip.mgtUp = true) (hh : s.chip.hasHost h = true)
include hs hm hh

/-- A WRITE completes with what its path gives. -/
theorem write_completes {p : Chip → Prop}
    (hp : ∀ b l, (s.chip.heldAt (.mailbox h) = none → l = s.chip.dict.held) →
      let m := s.chip.mailbox h
      let r := (s.chip.withPath b l).pathWrite (mbxWriter h relay vf) n m.xferOff (m.bytes (min m.xferLen 2048)) (decide (m.xferLen ≤ 2048))
        m.final true 0 0
      r.1.calm = true ∧ ((r.1.mbxDone h (r.2, [], 0)).mbxOver s.chip h → p (r.1.mbxDone h (r.2, [], 0)))) :
    Completes (.write h relay vf n) s p := by
  have hover := Chip.mbxRequest_over hh relay vf n
  obtain ⟨b, l, -, hl, hr⟩ := Chip.mbxRequest_writes hh hm relay vf n
  obtain ⟨hc, hd⟩ := hp b l hl
  rw [hr] at hover
  refine .of_run (exec_write ..) hs.1 ?_ ?_
  · rw [hr]
    exact (Chip.mbxDone_calm ..).trans hc
  · rw [hr]
    exact hd hover

/-- A refused parameter or writer is answered with its status. -/
theorem write_refused {k : Nat} (hk : s.chip.reachWrite (mbxWriter h relay vf) n.toNat = .error k) :
    Completes (.write h relay vf n) s fun c =>
      c.mbxOver s.chip h ∧ (c.mailbox h).dstatus = k ∧ c.dict.active = s.chip.dict.active ∧ c.dict.staged = s.chip.dict.staged ∧
        c.mem = s.chip.mem := by
  refine write_completes hs hm hh fun b l _ => ?_
  have hw : (s.chip.withPath b l).reachWrite (mbxWriter h relay vf) n.toNat = .error k := hk
  dsimp only
  rw [Chip.pathWrite_error hw]
  refine ⟨hs.2, fun ho => ⟨ho, ?_, ?_, ?_, ?_⟩⟩
  · rw [Chip.mbxDone_mailbox]; rfl
  · rw [Chip.mbxDone_active]; rfl
  · rw [Chip.mbxDone_staged]; rfl
  · rw [Chip.mbxDone_mem]; rfl

/-- A chunk that is not final is held. -/
theorem write_held {d : Desc} (hn : s.chip.heldAt (.mailbox h) = none) (hk : s.chip.reachWrite (mbxWriter h relay vf) n.toNat = .ok d)
    (hf : (s.chip.mailbox h).final = false) (hx : (s.chip.mailbox h).xferLen ≤ 2048) :
    Completes (.write h relay vf n) s fun c =>
      c.mbxOver s.chip h ∧ (c.mailbox h).dstatus = 0 ∧
        (∃ x, c.heldAt (.mailbox h) = some x ∧ x.param = n ∧
          x.bytes = layBytes [] (s.chip.mailbox h).xferOff ((s.chip.mailbox h).bytes (s.chip.mailbox h).xferLen)) ∧
        c.dict.active = s.chip.dict.active ∧ c.dict.staged = s.chip.dict.staged ∧ c.mem = s.chip.mem := by
  refine write_completes hs hm hh fun b l hl => ?_
  have hw : (s.chip.withPath b l).reachWrite (mbxWriter h relay vf) n.toNat = .ok d := hk
  have hheld : (s.chip.withPath b l).heldAt (.mailbox h) = none := by rw [hl hn]; exact hn
  dsimp only
  rw [hf, decide_eq_true hx, Nat.min_eq_left hx, Chip.pathWrite_chunk hw, mbxWriter_path]
  refine ⟨hs.2, fun ho => ⟨ho, ?_, ?_, ?_, ?_, ?_⟩⟩
  · rw [Chip.mbxDone_mailbox]; rfl
  · simp only [Chip.heldAt, Chip.mbxDone_held]
    refine ⟨_, List.find?_cons_of_pos ?_, ?_, ?_⟩
    · rw [hheld]; exact decide_eq_true rfl
    · rw [hheld]; rfl
    · rw [hheld]; rfl
  · rw [Chip.mbxDone_active]; rfl
  · rw [Chip.mbxDone_staged]; rfl
  · rw [Chip.mbxDone_mem]; rfl

/-- A whole value that passes every check is stored or staged. -/
theorem write_whole {d : Desc} {x : List Byte} {a : PAccess} (hn : s.chip.heldAt (.mailbox h) = none)
    (hd : descOf s.chip.variant n.toNat = some d) (hp : s.chip.passes (mbxWriter h relay vf) n.toNat x = some a)
    (ha : a = .rwa ∨ (a = .rw ∨ a = .rwn) ∧ storesOnly n.toNat = true) (hf : (s.chip.mailbox h).final = true)
    (hoff : (s.chip.mailbox h).xferOff = 0) (hlen : (s.chip.mailbox h).xferLen = x.length)
    (hb : (s.chip.mailbox h).bytes x.length = pathOrder true d x) :
    Completes (.write h relay vf n) s fun c =>
      c.mbxOver s.chip h ∧ (c.mailbox h).dstatus = writeStatus a ∧ c.hasWritten s.chip (mbxWriter h relay vf) n.toNat x a ∧
        c.mem = s.chip.mem := by
  refine write_completes hs hm hh fun b l hl => ?_
  obtain ⟨d', hr, -, hty, hlok, -⟩ := Chip.passes_iff hp
  obtain rfl : d' = d := Option.some.inj ((Chip.reachWrite_descOf hr).symm.trans hd)
  have hsize : x.length ≤ 2048 := by
    rw [lengthOk, if_pos hty, beq_iff_eq] at hlok
    rw [hlok]
    exact d'.ty.size_le
  have hw : (s.chip.withPath b l).reachWrite (mbxWriter h relay vf) n.toNat = .ok d' := hr
  have hheld : (s.chip.withPath b l).heldAt (mbxWriter h relay vf).path = none := by rw [mbxWriter_path, hl hn]; exact hn
  have hshim : ∀ ep, mbxWriter h relay vf ≠ .shim ep := by cases relay <;> simp [mbxWriter]
  obtain ⟨hcalm, hmem, hwr⟩ := (s.chip.withPath b l).writtenAt_facts (mbxWriter h relay vf) n.toNat x ha
  have hpath : (s.chip.withPath b l).pathWrite (mbxWriter h relay vf) n 0 (pathOrder true d' x) true true true 0 0 =
      ((s.chip.withPath b l).writtenAt (mbxWriter h relay vf) n.toNat x a, writeStatus a) := by
    have hpb : (s.chip.withPath b l).passes (mbxWriter h relay vf) n.toNat x = some a := hp
    rw [Chip.pathWrite_whole hw hheld hshim, Chip.dictWrite_passes hpb ha]
    unfold Chip.writtenAt writeStatus
    split <;> rfl
  dsimp only
  rw [hf, hoff, hlen, decide_eq_true hsize, Nat.min_eq_left hsize, hb, hpath]
  refine ⟨hcalm.trans hs.2, fun ho => ⟨ho, ?_, Chip.mbxDone_hasWritten hwr _ _, ?_⟩⟩
  · rw [Chip.mbxDone_mailbox]; rfl
  · rw [Chip.mbxDone_mem]
    exact hmem

end

/-- Settles O14, by what each request leaves in its mailbox. -/
theorem mailboxRequestsComplete : Obligations.MailboxRequestsComplete := by
  refine ⟨fun s h vf relay n hs hh => ⟨fun hm => ⟨?_, ?_, ?_⟩, fun op hm ho => ?_, fun hm => ⟨?_, ?_, ?_⟩⟩, fun s h vf relay n hh =>
    ⟨fun hl => ?_, fun d x a hs hm hn hd hp ha hf hoff hlen hb => ?_, fun k hs hm hk => ?_, fun d hs hm hn hk hf hx => ?_, fun hs => ?_⟩⟩
  · exact asks_completes hs hh (exec_read ..) hm (by decide) rfl
  · exact asks_completes hs hh (exec_describe ..) hm (by decide) rfl
  · exact asks_completes hs hh (exec_readStaged ..) hm (by decide) rfl
  · have hi : exec (.mbxUnknownOp h op relay vf n) s = s.run fun c => c.mbxRequest h op relay vf n := by
      rw [exec_mbxUnknownOp]
      simp only [if_neg (show ¬(1 ≤ op ∧ op ≤ 4) by omega)]
    have ha : ((4, [], 0) : Answer) = s.chip.pathAsk (mbxWriter h relay vf) op n true (s.chip.mailbox h).xferOff (s.chip.mailbox h).xferLen 2048 := by
      unfold Chip.pathAsk
      split
      case h_4 => rfl
      all_goals omega
    obtain ⟨t, ht, hq, he, -⟩ := asks_completes hs hh hi hm (by omega) ha
    exact ⟨t, ht, hq, he⟩
  · exact down_completes hs hh (exec_read ..) hm
  · exact down_completes hs hh (exec_describe ..) hm
  · exact down_completes hs hh (exec_readStaged ..) hm
  · exact .of_run (exec_write ..) hl.1 hl.2 (Chip.mbxRequest_over hh relay vf n)
  · exact write_whole hs hm hh hn hd hp ha hf hoff hlen hb
  · exact write_refused hs hm hh hk
  · exact write_held hs hm hh hn hk hf hx
  · refine .of_run (exec_collide ..) hs.1 ?_ ?_
    · rw [Chip.mbxCollide, if_pos hh]; exact hs.2
    · rw [Chip.mbxCollide, if_pos hh]
      exact ⟨Chip.mailbox_updMailbox .., rfl, rfl⟩

end Sys2Proof.Machine
end


section
/-! Time that runs out and is disciplined (R435 to R439, R502). -/

set_option Elab.async false

namespace Sys2Proof.Machine

/-! ### Losing the time and choosing a parent -/

/-- The timebase of a chip that has lost its time. -/
def Timebase.losing (t : Timebase) : Timebase :=
  { t with state := .lost, depth := 255, parent := none, measured := [], lostRaised := true }

theorem Chip.lostCond_reacts (c : Chip) (on : Bool) :
    Chip.Reacts { c with tb := { c.tb with lostRaised := on } } (c.lostCond on) := Chip.setCond_reacts ..

theorem Chip.timeLost_reacts (c : Chip) : Chip.Reacts { c with tb := c.tb.losing } c.timeLost := by
  have h := Chip.lostCond_reacts { c with tb := { c.tb with state := .lost, depth := 255, parent := none, measured := [] } } true
  exact h.trans (Chip.eventPFs_reports ..).reacts

theorem Chip.timeLost_tb (c : Chip) : c.timeLost.tb = c.tb.losing := c.timeLost_reacts.tb

theorem Chip.timeLost_mem (c : Chip) : c.timeLost.mem = c.mem := c.timeLost_reacts.mem

/-- The timebase that follows a parent. -/
def Timebase.following (t : Timebase) (p : Nat) (i : TimeItem) : Timebase :=
  { t with parent := some p, rootId := i.rootId, rootGen := i.rootGen, depth := min 254 (i.depth + 1) }

/-- The timebase after a choice of the parent, as its state says. -/
def Timebase.choosing (t : Timebase) (up : Bool) (p : Nat) (i : TimeItem) : Timebase :=
  let moved := i.rootId != t.rootId || i.rootGen != t.rootGen
  match t.state with
  | .root => t
  | .free | .lost => if up then { t.following p i with state := .acquire, prev := t.state, measured := [] } else t
  | .acquire => if !up ∨ (t.parent = some p ∧ !moved) then t else { t.following p i with measured := [] }
  | .locked => if moved then t.losing else t.following p i
  | .holdover => if !up then t else if moved then t.losing else { t.following p i with state := .locked }

section
variable {c : Chip} {p : Nat} {i : TimeItem} (h : c.bestParent = some (p, i))
include h

/-- A choice changes the timebase alone, but for what the loss of the time reports. -/
theorem Chip.chooseParent_reacts : Chip.Reacts { c with tb := c.tb.choosing c.timUp p i } c.chooseParent := by
  have hl := c.timeLost_reacts
  unfold Chip.chooseParent Timebase.choosing
  rw [h]
  dsimp only
  cases hs : c.tb.state <;> dsimp only
  case root => exact .refl _
  case free | lost =>
    rw [← hs]
    split <;> exact .refl _
  case acquire => split <;> exact .refl _
  case locked => split; exacts [hl, .refl _]
  case holdover =>
    split
    · exact .refl _
    · split; exacts [hl, .refl _]

theorem Chip.chooseParent_tb : c.chooseParent.tb = c.tb.choosing c.timUp p i := (Chip.chooseParent_reacts h).tb

theorem Chip.chooseParent_mem : c.chooseParent.mem = c.mem := (Chip.chooseParent_reacts h).mem

/-- While a neighbour offers a parent, the timeout chooses it. -/
theorem Chip.parentTimeout_offered : c.parentTimeout = c.chooseParent := by
  unfold Chip.parentTimeout
  rw [h]

end

section
variable {t : Timebase} {up : Bool} {p : Nat} {i : TimeItem}

theorem Timebase.choosing_stays (h : t.state = .root ∨ up = false ∧ t.state ≠ .locked) : t.choosing up p i = t := by
  unfold Timebase.choosing
  cases hs : t.state <;> simp_all

theorem Timebase.choosing_acquires (hu : up = true) (h : t.state = .free ∨ t.state = .lost) :
    t.choosing up p i = { t.following p i with state := .acquire, prev := t.state, measured := [] } := by
  unfold Timebase.choosing
  obtain h | h := h <;> rw [h, hu] <;> rfl

theorem Timebase.choosing_again (hu : up = true) (h : t.state = .acquire) :
    t.choosing up p i = if t.parent = some p ∧ (i.rootId != t.rootId || i.rootGen != t.rootGen) = false then t
      else { t.following p i with measured := [] } := by
  unfold Timebase.choosing
  rw [h, hu]
  simp

theorem Timebase.choosing_locked (h : t.state = .locked) (hm : (i.rootId != t.rootId || i.rootGen != t.rootGen) = false) :
    t.choosing up p i = t.following p i := by
  unfold Timebase.choosing
  rw [h, hm]
  rfl

theorem Timebase.choosing_relocks (hu : up = true) (h : t.state = .holdover)
    (hm : (i.rootId != t.rootId || i.rootGen != t.rootGen) = false) :
    t.choosing up p i = { t.following p i with state := .locked } := by
  unfold Timebase.choosing
  rw [h, hm, hu]
  rfl

theorem Timebase.choosing_loses (h : t.state = .locked ∨ up = true ∧ t.state = .holdover)
    (hm : (i.rootId != t.rootId || i.rootGen != t.rootGen) = true) : t.choosing up p i = t.losing := by
  unfold Timebase.choosing
  obtain h | ⟨hu, h⟩ := h
  · rw [h, hm]; rfl
  · rw [h, hm, hu]; rfl

end

/-! ### Timeouts -/

section
variable {c : Chip} (hb : c.bestParent = none)
include hb

theorem Chip.parentTimeout_early (h : (c.tb.parent.all fun p => decide (c.now < c.offerEnded p + 32000)) = true) :
    c.parentTimeout = c := by
  unfold Chip.parentTimeout
  rw [hb]
  dsimp only
  cases hp : c.tb.parent with
  | none => rfl
  | some p =>
    rw [hp] at h
    exact if_pos (of_decide_eq_true h)

/-- Without a parent for 32 µs, the timebase alone changes, as its state says. -/
theorem Chip.parentTimeout_ends {p : Nat} (hp : c.tb.parent = some p) (h : c.offerEnded p + 32000 ≤ c.now) :
    c.parentTimeout = { c with tb := match c.tb.state with
      | .acquire => { c.tb with state := c.tb.prev, parent := none, depth := 255, measured := [] }
      | .locked => { c.tb with state := .holdover, parent := none, holdoverAt := c.now }
      | _ => { c.tb with parent := none } } := by
  unfold Chip.parentTimeout
  rw [hb]
  simp only [hp, if_neg (Nat.not_lt.mpr h)]
  cases c.tb.state <;> rfl

end

/-! ### The root's steps -/

theorem Chip.bump_tb (c : Chip) (u : Nat) (k : Ctr) (n : Nat) : (c.bump u k n).tb = c.tb := (c.bump_reports u k n).tb

theorem Chip.countOverruns_reports (c : Chip) (out : Nat) (g : Gate) : Chip.OnlyReports c (c.countOverruns out g) := by
  unfold Chip.countOverruns
  exact .foldl (fun c _ => c.bump_reports ..) _ c

/-- Gates leave the timebase and the memory. -/
theorem Chip.setGate_frame (c : Chip) (out : Nat) (g : Gate) : (c.setGate out g).tb = c.tb ∧ (c.setGate out g).mem = c.mem := by
  have h := c.countOverruns_reports out g
  unfold Chip.setGate Chip.refreshOut
  dsimp only
  split <;> exact ⟨h.tb, h.mem⟩

theorem Chip.gatesRetimed_frame (c : Chip) : c.gatesRetimed.tb = c.tb ∧ c.gatesRetimed.mem = c.mem := by
  unfold Chip.gatesRetimed
  generalize c.rt.gates = l
  induction l generalizing c with
  | nil => exact ⟨rfl, rfl⟩
  | cons r l ih =>
    rw [List.foldl_cons]
    dsimp only
    split
    · obtain ⟨h1, h2⟩ := c.setGate_frame r.1 (gateAt r.2.durations r.2.opens r.2.base c.tb.time (r.2.next.map fun _ => c.nextCycle r.1))
      exact ⟨(ih _).1.trans h1, (ih _).2.trans h2⟩
    · split
      · obtain ⟨h1, h2⟩ := c.setGate_frame r.1 { r.2 with next := r.2.next.map fun _ => c.nextCycle r.1 }
        exact ⟨(ih _).1.trans h1, (ih _).2.trans h2⟩
      · exact ih c

/-- The timebase after a step of the time. -/
def Timebase.stepped (t : Timebase) (d : Int) : Timebase :=
  { t with time := t.time + BitVec.ofInt 64 d, peers := Tab.mapVals t.peers fun _ x => { x with sentAt := [] } }

theorem Chip.timeStep_frame (c : Chip) (d : Int) : (c.timeStep d).tb = c.tb.stepped d ∧ (c.timeStep d).mem = c.mem :=
  Chip.gatesRetimed_frame _

/-- The servo's correction stays within the bound of R436. -/
theorem Chip.setRate_bound (c : Chip) : c.setRate.tb.rateCorr.natAbs ≤ 500000 := by
  have h : c.setRate.tb.rateCorr = (c.freeNow % 1000001 : Nat) - 500000 := rfl
  have := Nat.mod_lt c.freeNow (show 1000001 > 0 by decide)
  omega

theorem elim_eq_map_getD {α : Type} (o : Option α) (f : α → Bool) : o.elim false f = (o.map f).getD false := by cases o <;> rfl

/-- The error that an edge measures, with the free value of its stamp. -/
def Chip.ppsSeen (c : Chip) : Int :=
  ppsError (c.tb.time + BitVec.ofNat 64 (c.freeNow % 9) - 4).toNat (c.param 0x08 0x003 0)

/-- The chip that has noted an edge. -/
def Chip.ppsNoted (c : Chip) : Chip := ({ c with tb := { c.tb with lastPps := some c.now } }).drawn

section
variable {c : Chip}

theorem Chip.ppsEdge_deaf (h : (decide (c.tb.state = .root) && decide (c.param 0x08 0x002 0 = 1)) = false) : c.ppsEdge = c := by
  refine if_pos ?_
  rw [Bool.and_eq_false_iff, decide_eq_false_iff_not, decide_eq_false_iff_not] at h
  exact h

variable (hl : (decide (c.tb.state = .root) && decide (c.param 0x08 0x002 0 = 1)) = true)
include hl

theorem Chip.ppsEdge_listens : ¬(c.tb.state ≠ .root ∨ c.param 0x08 0x002 0 ≠ 1) := by
  obtain ⟨h1, h2⟩ := (Bool.and_eq_true _ _).mp hl
  exact fun h => h.elim (· (of_decide_eq_true h1)) (· (of_decide_eq_true h2))

theorem Chip.ppsEdge_early (h : (c.tb.lastPps.elim false fun t => decide (c.now < t + 500000000)) = true) :
    c.ppsEdge = c.bump 0xC0 .ppsRejected := by
  unfold Chip.ppsEdge
  rw [elim_eq_map_getD] at h
  rw [if_neg (Chip.ppsEdge_listens hl), h]
  rfl

theorem Chip.ppsEdge_takes (h : (c.tb.lastPps.elim false fun t => decide (c.now < t + 500000000)) = false) :
    c.ppsEdge = if !c.timUp then c.ppsNoted else if 4000 < c.ppsSeen.natAbs then c.ppsNoted.rootStep (-c.ppsSeen)
      else ({ c.ppsNoted with tb := { c.ppsNoted.tb with lastOffset := c.ppsSeen } }).setRate := by
  unfold Chip.ppsEdge
  rw [elim_eq_map_getD] at h
  rw [if_neg (Chip.ppsEdge_listens hl), h]
  rfl

end

theorem mem_range_mod (n : Nat) : n % 9 ∈ List.range 9 := List.mem_range.mpr (Nat.mod_lt n (by decide))

/-- Settles O57: a choice and a timeout by the state of the timebase, an edge by the size of its error. -/
theorem timeRunsOutAndIsDisciplined : Obligations.TimeRunsOutAndIsDisciplined := by
  refine ⟨fun s => ⟨fun hs hb h => ?_, fun p hs hb hp h => ?_, fun p i hl hb => ?_, fun hs h => ?_, fun hl h => ?_⟩,
    fun s hs => ⟨fun hd => ?_, fun hl he => ?_, fun hl he hu => ?_, fun hl he hu => ?_⟩⟩
  · have e := Chip.parentTimeout_early hb h
    exact .of_run (exec_parentTimeout ..) hs.1 (by rw [e]; exact hs.2) e
  · have e := Chip.parentTimeout_ends hb hp h
    have hc : s.chip.parentTimeout.calm = true := by rw [e]; exact hs.2
    refine ⟨fun hst => ?_, fun hst => ?_, fun h1 h2 => ?_⟩
    · exact .of_run (exec_parentTimeout ..) hs.1 hc (by rw [e, hst]; exact ⟨rfl, rfl⟩)
    · exact .of_run (exec_parentTimeout ..) hs.1 hc (by rw [e, hst]; exact ⟨rfl, rfl⟩)
    · refine .of_run (exec_parentTimeout ..) hs.1 hc ?_
      rw [e]
      refine ⟨?_, rfl⟩
      dsimp only
      split
      · contradiction
      · contradiction
      · rfl
  · have e := Chip.parentTimeout_offered hb
    have ht := Chip.chooseParent_tb hb
    have hm := Chip.chooseParent_mem hb
    have hrun : ∀ r : Chip → Prop, r s.chip.chooseParent → Completes .parentTimeout s fun d => r d ∧ d.mem = s.chip.mem :=
      fun r hr => .of_run (exec_parentTimeout ..) hl.1 (by rw [e]; exact hl.2) (by rw [e]; exact ⟨hr, hm⟩)
    refine ⟨fun h => hrun _ ?_, fun hu h => hrun _ ?_, fun hu h => hrun _ ?_, fun h hmv => hrun _ ?_, fun hu h hmv => hrun _ ?_,
      fun h hmv => ?_⟩
    · exact ht.trans (Timebase.choosing_stays h)
    · exact ht.trans (Timebase.choosing_acquires hu h)
    · exact ht.trans (Timebase.choosing_again hu h)
    · exact ht.trans (Timebase.choosing_locked h hmv)
    · exact ht.trans (Timebase.choosing_relocks hu h hmv)
    · have hlose := ht.trans (Timebase.choosing_loses h hmv)
      exact .of_run (exec_parentTimeout ..) hl.1 (by rw [e]; exact hl.2) (by rw [e]; dsimp only; rw [hlose]; exact ⟨⟨rfl, rfl, rfl, rfl, hm⟩, hm⟩)
  · have e : s.chip.holdoverExpiry = s.chip := if_neg (by simpa using h)
    exact .of_run (exec_holdoverExpiry ..) hs.1 (by rw [e]; exact hs.2) e
  · have e : s.chip.holdoverExpiry = s.chip.timeLost := if_pos (by simpa using h)
    refine .of_run (exec_holdoverExpiry ..) hl.1 hl.2 ?_
    rw [e, Chip.timeLost_tb, Chip.timeLost_mem]
    exact ⟨rfl, rfl, rfl, rfl, rfl⟩
  · have e := Chip.ppsEdge_deaf hd
    exact .of_run (exec_ppsEdge ..) hs.1 (by rw [e]; exact hs.2) e
  · have e := Chip.ppsEdge_early hl he
    exact .of_run (exec_ppsEdge ..) hs.1 ((Chip.ppsEdge_calm _).trans hs.2) e
  · have e := Chip.ppsEdge_takes hl he
    refine .of_run (exec_ppsEdge ..) hs.1 ((Chip.ppsEdge_calm _).trans hs.2) ?_
    rw [e, hu]
    exact ⟨rfl, rfl⟩
  · have e := Chip.ppsEdge_takes hl he
    have hroot : s.chip.tb.state = .root := of_decide_eq_true ((Bool.and_eq_true _ _).mp hl).1
    refine .of_run (exec_ppsEdge ..) hs.1 ((Chip.ppsEdge_calm _).trans hs.2) ?_
    rw [e, hu]
    simp only [Bool.not_true, Bool.false_eq_true, if_false]
    split
    case isTrue hbig =>
      obtain ⟨h1, h2⟩ := s.chip.ppsNoted.timeStep_frame (-s.chip.ppsSeen)
      unfold Chip.rootStep
      dsimp only
      rw [h1]
      exact ⟨h2, hroot, rfl, _, mem_range_mod s.chip.freeNow, (if_pos hbig).mpr ⟨rfl, rfl⟩⟩
    case isFalse hsmall =>
      exact ⟨rfl, hroot, rfl, _, mem_range_mod s.chip.freeNow, (if_neg hsmall).mpr ⟨rfl, rfl, rfl, Chip.setRate_bound _⟩⟩

end Sys2Proof.Machine
end


section
/-! Time items on their way out and in (R434 to R438). -/

set_option Elab.async false

namespace Sys2Proof.Machine

/-! ### Blocks on a line -/

/-- `d` differs from `c` by what goes out on lanes. -/
structure Chip.Lines (c d : Chip) : Prop where
  same : d = { c with lanes := d.lanes, out := d.out }
  out : c.out <+: d.out

theorem Chip.Lines.refl (c : Chip) : c.Lines c := ⟨rfl, List.prefix_rfl⟩

theorem Chip.Lines.trans {c d e : Chip} (h : c.Lines d) (k : d.Lines e) : c.Lines e :=
  ⟨by rw [k.same, h.same], h.out.trans k.out⟩

theorem Chip.Lines.ite {c a b : Chip} {p : Prop} [Decidable p] (ha : c.Lines a) (hb : c.Lines b) : c.Lines (if p then a else b) := by
  split <;> assumption

theorem Chip.Lines.foldl {α : Type} {g : Chip → α → Chip} (hg : ∀ (c : Chip) a, c.Lines (g c a)) (l : List α) (c : Chip) :
    c.Lines (l.foldl g c) := by
  induction l generalizing c with
  | nil => exact .refl c
  | cons a l ih => exact (hg c a).trans (ih (g c a))

section
variable {c d : Chip} (h : c.Lines d)
include h

theorem Chip.Lines.links : d.links = c.links := (congrArg Chip.links h.same :)
theorem Chip.Lines.train : d.train = c.train := (congrArg Chip.train h.same :)
theorem Chip.Lines.mem : d.mem = c.mem := (congrArg Chip.mem h.same :)
theorem Chip.Lines.tb : d.tb = c.tb := (congrArg Chip.tb h.same :)

end

theorem Chip.emit_lines (c : Chip) (o : Output) : c.Lines (c.emit o) := by
  unfold Chip.emit
  exact .ite (.refl c) ⟨rfl, List.prefix_append ..⟩

theorem Chip.updLane_lines (c : Chip) (n : Nat) (f : Lane → Lane) : c.Lines (c.updLane n f) := ⟨rfl, List.prefix_rfl⟩

theorem Chip.sendParity_lines (c : Chip) (n : Nat) : c.Lines (c.sendParity n) := by
  unfold Chip.sendParity
  extract_lets x l
  exact .ite (.refl c) ((c.updLane_lines n _).trans (Chip.emit_lines ..))

theorem Chip.sendSlot_lines (c : Chip) (n : Nat) (b : PortBlock) : c.Lines (c.sendSlot n b) := by
  unfold Chip.sendSlot
  extract_lets x s bits l c1
  have h1 : c.Lines c1 := (c.updLane_lines n _).trans (Chip.emit_lines ..)
  exact (h1.trans (c1.sendParity_lines n)).trans (Chip.updLane_lines ..)

theorem Chip.sendLane_lines (c : Chip) (n : Nat) (b : PortBlock) : c.Lines (c.sendLane n b) := by
  unfold Chip.sendLane
  extract_lets x c1
  have h1 : c.Lines c1 := .ite (c.sendSlot_lines ..) (.ite (c.sendSlot_lines ..) (.refl c))
  exact h1.trans (c1.sendSlot_lines ..)

theorem Chip.sendPort_lines (c : Chip) (p lanes : Nat) (l : List PortBlock) : c.Lines (c.sendPort p lanes l) :=
  .foldl (fun c _ => c.sendLane_lines ..) l c

/-! ### An LCB -/

theorem Chip.bump_links (c : Chip) (u : Nat) (k : Ctr) (n : Nat) : (c.bump u k n).links = c.links := (c.bump_reports u k n).links

theorem Chip.link_updTx (c : Chip) (p : Nat) (f : TxSide → TxSide) : ((c.updTx p f).link p) = { c.link p with tx := f (c.link p).tx } :=
  Tab.get_upd_self c.links p Link.init fun l => { l with tx := f l.tx }

theorem Chip.link_updRx (c : Chip) (p : Nat) (f : RxSide → RxSide) : ((c.updRx p f).link p) = { c.link p with rx := f (c.link p).rx } :=
  Tab.get_upd_self c.links p Link.init fun l => { l with rx := f l.rx }

theorem Chip.peer_updPeer (c : Chip) (p : Nat) (f : Peer → Peer) : (c.updPeer p f).peer p = f (c.peer p) := Tab.get_upd_self ..

/-- The LCB that a port sends now. -/
def Chip.lcbOut (c : Chip) (p : Nat) : Lcb := c.stampLcb (c.buildLcb p)

/-- The chip once the LCB is out. -/
def Chip.lcbSent (c : Chip) (p : Nat) : Chip :=
  (((c.noteStamp p (c.lcbOut p)).emit (.lcb p (c.lcbOut p))).sendPort p (c.tport p).lanes (c.lcbOut p).blocks).bump p .nakSent
    (natOfBool (c.link p).rx.nakDue)

theorem Chip.noteStamp_links (c : Chip) (p : Nat) (l : Lcb) :
    (c.noteStamp p l).links = c.links ∧ (c.noteStamp p l).train = c.train ∧ (c.noteStamp p l).mem = c.mem ∧
      (c.noteStamp p l).out = c.out ∧ (c.noteStamp p l).ports = c.ports ∧ (c.noteStamp p l).variant = c.variant := by
  unfold Chip.noteStamp
  split <;> exact ⟨rfl, rfl, rfl, rfl, rfl, rfl⟩

/-- The link once an LCB is out, the own request standing in it or not. -/
def Chip.lcbNoted (c : Chip) (p : Nat) (own : Bool) : Chip :=
  let c := c.updRx p fun r => { r with nakDue := false }
  c.updTx p fun t => { (t.itemSent own) with cgrp := (t.cgrp + 1) % 3, lcbNext := c.now + c.param 0x19 0x004 0 }

theorem Chip.sendLcb_eq (c : Chip) (p : Nat) :
    c.sendLcb p = (c.lcbSent p).lcbNoted p ((c.noteStamp p (c.lcbOut p)).ownRequest p).isSome := by
  obtain ⟨h1, h2, -⟩ := c.noteStamp_links p (c.lcbOut p)
  have e1 : (c.noteStamp p (c.lcbOut p)).link p = c.link p := by unfold Chip.link; rw [h1]
  have e2 : (c.noteStamp p (c.lcbOut p)).tport p = c.tport p := by unfold Chip.tport; rw [h2]
  unfold Chip.lcbSent
  rw [← e1, ← e2]
  rfl

theorem Chip.lcbNoted_link (c : Chip) (p : Nat) (own : Bool) : ((c.lcbNoted p own).link p).tx.items = ((c.link p).tx.itemSent own).items := by
  unfold Chip.lcbNoted
  dsimp only
  rw [Chip.link_updTx, Chip.link_updRx]

theorem Chip.lcbSent_frame (c : Chip) (p : Nat) :
    (c.lcbSent p).links = c.links ∧ (c.lcbSent p).mem = c.mem ∧ (c.lcbSent p).tb = (c.noteStamp p (c.lcbOut p)).tb ∧
      (c.out ++ [.lcb p (c.lcbOut p)]) <+: (c.lcbSent p).out := by
  obtain ⟨hl, -, hm, ho, -⟩ := c.noteStamp_links p (c.lcbOut p)
  have h1 := (c.noteStamp p (c.lcbOut p)).emit_lines (.lcb p (c.lcbOut p))
  have h2 := h1.trans (Chip.sendPort_lines _ p (c.tport p).lanes (c.lcbOut p).blocks)
  have h3 := Chip.bump_reported (((c.noteStamp p (c.lcbOut p)).emit (.lcb p (c.lcbOut p))).sendPort p (c.tport p).lanes (c.lcbOut p).blocks)
    p .nakSent (natOfBool (c.link p).rx.nakDue)
  refine ⟨(h3.only.links.trans h2.links).trans hl, (h3.only.mem.trans h2.mem).trans hm, h3.only.tb.trans h2.tb, ?_⟩
  refine .trans ?_ ((Chip.sendPort_lines _ p (c.tport p).lanes (c.lcbOut p).blocks).out.trans h3.out)
  rw [← ho]
  exact List.prefix_rfl

/-- What an LCB leaves, and that it goes out. -/
theorem Chip.sendLcb_frame (c : Chip) (p : Nat) :
    (c.sendLcb p).mem = c.mem ∧ (c.sendLcb p).tb = (c.noteStamp p (c.lcbOut p)).tb ∧
      (c.out ++ [.lcb p (c.lcbOut p)]) <+: (c.sendLcb p).out ∧
      ((c.sendLcb p).link p).tx.items = ((c.link p).tx.itemSent ((c.noteStamp p (c.lcbOut p)).ownRequest p).isSome).items := by
  obtain ⟨hl, hm, ht, ho⟩ := c.lcbSent_frame p
  have hk : (c.lcbSent p).link p = c.link p := by unfold Chip.link; rw [hl]
  rw [c.sendLcb_eq p]
  exact ⟨hm, ht, ho, by rw [Chip.lcbNoted_link, hk]⟩

theorem Tab.all_put {α : Type} (t : Tab α) (k : Nat) (v : α) (f : α → Bool) (ht : (t.all fun r => f r.2) = true) (hv : f v = true) :
    ((Tab.put t k v).all fun r => f r.2) = true := by
  induction t with
  | nil => simp [Tab.put, hv]
  | cons r t ih =>
    obtain ⟨h1, h2⟩ := (Bool.and_eq_true _ _).mp (List.all_cons ▸ ht)
    unfold Tab.put
    split
    · rw [List.all_cons, hv]; exact ht
    · split
      · rw [List.all_cons, hv]; exact h2
      · rw [List.all_cons, ih h2, h1]; rfl

/-- A change of a link that leaves no bytes behind leaves nothing to carry out. -/
theorem Chip.updLink_calm {c : Chip} (hc : c.calm = true) (p : Nat) {f : Link → Link} (hf : (f (c.link p)).tx.left = []) :
    (c.updLink p f).calm = true := by
  obtain ⟨h1, h2, h3, h4, h5, h6, h7⟩ := c.calm_iff.mp hc
  obtain ⟨ha, hb⟩ := (Bool.and_eq_true _ _).mp h6
  refine (Chip.calm_iff _).mpr ⟨h1, h2, h3, h4, h5, (Bool.and_eq_true _ _).mpr ⟨?_, hb⟩, h7⟩
  exact Tab.all_put c.links p (f (c.link p)) (fun l => l.tx.left.isEmpty) ha (by rw [hf]; rfl)

theorem Chip.link_left {c : Chip} (hc : c.calm = true) (p : Nat) : (c.link p).tx.left = [] := c.left_calm (c.calm_iff.mp hc).2.2.2.2.2.1 p

theorem Chip.updTx_calm {c : Chip} (hc : c.calm = true) (p : Nat) {f : TxSide → TxSide} (hf : ∀ t, (f t).left = t.left) :
    (c.updTx p f).calm = true := Chip.updLink_calm hc p ((hf _).trans (Chip.link_left hc p))

theorem Chip.updRx_calm {c : Chip} (hc : c.calm = true) (p : Nat) (f : RxSide → RxSide) : (c.updRx p f).calm = true :=
  Chip.updLink_calm hc p (Chip.link_left hc p)

theorem TxSide.itemSent_left (t : TxSide) (own : Bool) : (t.itemSent own).left = t.left := by
  unfold TxSide.itemSent
  split
  · rfl
  · split
    · rfl
    · split <;> rfl

theorem Chip.lcbSent_calm (c : Chip) (p : Nat) : (c.lcbSent p).calm = c.calm := by
  unfold Chip.lcbSent
  rw [Chip.bump_calm, Chip.sendPort_calm, Chip.emit_calm]
  unfold Chip.noteStamp
  split <;> rfl

theorem Chip.sendLcb_calm {c : Chip} (hc : c.calm = true) (p : Nat) : (c.sendLcb p).calm = true := by
  rw [c.sendLcb_eq p]
  refine Chip.updTx_calm (Chip.updRx_calm ?_ p _) p fun t => TxSide.itemSent_left t _
  rw [Chip.lcbSent_calm]
  exact hc

theorem any_lcb_of_prefix {l m : List Output} {p : Nat} {x : Lcb} (h : (l ++ [.lcb p x]) <+: m) :
    ((m.drop l.length).any fun o => match o with
      | .lcb q _ => q == p
      | _ => false) = true := by
  obtain ⟨t, rfl⟩ := h
  rw [List.append_assoc, List.drop_left]
  simp

/-! ### An item goes out -/

/-- The chip with its item queued and its sequence number counted on. -/
def Chip.itemQueued (c : Chip) (p : Nat) : Chip :=
  (c.queueItem p 2 (c.ownItem p).bytes).updPeer p fun x => { x with txSeq := (x.txSeq + 1) % 256 }

theorem Chip.timeSend_eq {c : Chip} {p : Nat} (ha : c.portActive p = true) (ht : c.timUp = true) :
    c.timeSend p = (c.itemQueued p).sendLcb p := by
  unfold Chip.timeSend
  rw [ha, ht]
  rfl

theorem Chip.timeSend_idle {c : Chip} {p : Nat} (h : c.portActive p = false ∨ c.timUp = false) : c.timeSend p = c := by
  unfold Chip.timeSend
  exact if_pos (by simpa using h)

theorem Chip.noteStamp_frame (c : Chip) (p : Nat) (l : Lcb) :
    (c.noteStamp p l).tb.time = c.tb.time ∧ ((c.noteStamp p l).peer p).txSeq = (c.peer p).txSeq ∧ (c.noteStamp p l).tb.state = c.tb.state := by
  unfold Chip.noteStamp
  split
  · have e := Chip.peer_updPeer c p fun x => { x with sentAt := Tab.put x.sentAt (l.item.headD 0).toNat c.tb.time }
    refine ⟨rfl, ?_, rfl⟩
    change Peer.txSeq ((c.updPeer p fun x => { x with sentAt := Tab.put x.sentAt (l.item.headD 0).toNat c.tb.time }).peer p) = _
    rw [e]
  · exact ⟨rfl, rfl, rfl⟩

theorem Chip.noteStamp_sentAt {c : Chip} (p : Nat) {l : Lcb} (h : l.kind = 2) :
    Tab.get? ((c.noteStamp p l).peer p).sentAt (l.item.headD 0).toNat = some c.tb.time := by
  unfold Chip.noteStamp
  rw [if_pos h]
  have e := Chip.peer_updPeer c p fun x => { x with sentAt := Tab.put x.sentAt (l.item.headD 0).toNat c.tb.time }
  exact (congrArg (fun x : Peer => Tab.get? x.sentAt (l.item.headD 0).toNat) e).trans (Tab.get?_put_self ..)

theorem Chip.itemQueued_calm {c : Chip} (hc : c.calm = true) (p : Nat) : (c.itemQueued p).calm = true := by
  have h : (c.queueItem p 2 (c.ownItem p).bytes).calm = true := Chip.updTx_calm hc p fun _ => rfl
  exact h

theorem Chip.itemQueued_link (c : Chip) (p : Nat) :
    ((c.itemQueued p).link p).tx = { (c.link p).tx with items := (c.link p).tx.items ++ [(2, (c.ownItem p).bytes)] } :=
  congrArg Link.tx (c.link_updTx p fun t => { t with items := t.items ++ [(2, (c.ownItem p).bytes)] })

theorem Chip.itemQueued_txSeq (c : Chip) (p : Nat) : ((c.itemQueued p).peer p).txSeq = ((c.peer p).txSeq + 1) % 256 :=
  congrArg Peer.txSeq ((c.queueItem p 2 (c.ownItem p).bytes).peer_updPeer p fun x => { x with txSeq := (x.txSeq + 1) % 256 })

section
variable {c : Chip} {p : Nat} (hi : (c.link p).tx.items = []) (ho : (c.tport p).hs.own = none)
include hi ho

theorem Chip.itemQueued_lcb : ((c.itemQueued p).lcbOut p).kind = 2 ∧
    (((c.itemQueued p).lcbOut p).item.headD 0).toNat = (c.peer p).txSeq % 256 := by
  have hx : ((c.itemQueued p).link p).tx.items = [(2, (c.ownItem p).bytes)] := by rw [Chip.itemQueued_link, hi]; rfl
  have hown : (c.itemQueued p).ownRequest p = none := by
    have e : (c.itemQueued p).tport p = c.tport p := rfl
    unfold Chip.ownRequest
    rw [e]
    dsimp only
    rw [ho]
    rfl
  have hb : ((c.itemQueued p).buildLcb p).kind = 2 ∧ ((c.itemQueued p).buildLcb p).item = (c.ownItem p).bytes := by
    unfold Chip.buildLcb
    simp only [hx, hown, TxSide.nextItem]
    exact ⟨rfl, rfl⟩
  obtain ⟨hk, hit⟩ := hb
  have hout : (c.itemQueued p).lcbOut p = Lcb.sealed { (c.itemQueued p).buildLcb p with
      item := ((c.itemQueued p).buildLcb p).item.take 8 ++ Word.be (c.itemQueued p).tb.time ++ ((c.itemQueued p).buildLcb p).item.drop 16 } :=
    if_pos hk
  refine ⟨?_, ?_⟩
  · rw [hout]; exact hk
  · rw [hout]
    unfold Lcb.sealed
    dsimp only
    rw [hit]
    exact BitVec.toNat_ofNat ..

/-- The item of a free port goes out in the LCB, and its stamp is kept. -/
theorem Chip.itemQueued_sent : Tab.get? (((c.itemQueued p).sendLcb p).peer p).sentAt ((c.peer p).txSeq % 256) = some c.tb.time ∧
    (((c.itemQueued p).sendLcb p).link p).tx.items = [] := by
  obtain ⟨-, ht, -, hit⟩ := (c.itemQueued p).sendLcb_frame p
  obtain ⟨hk, hq⟩ := Chip.itemQueued_lcb hi ho
  constructor
  · have h := Chip.noteStamp_sentAt (c := c.itemQueued p) p hk
    rw [hq] at h
    unfold Chip.peer at h ⊢
    rw [ht]
    exact h
  · have hx : ((c.itemQueued p).link p).tx.items = [(2, (c.ownItem p).bytes)] := by rw [Chip.itemQueued_link, hi]; rfl
    have hn : ((c.itemQueued p).noteStamp p ((c.itemQueued p).lcbOut p)).ownRequest p = none := by
      obtain ⟨-, h2, -⟩ := (c.itemQueued p).noteStamp_links p ((c.itemQueued p).lcbOut p)
      have e : ((c.itemQueued p).noteStamp p ((c.itemQueued p).lcbOut p)).tport p = c.tport p := by
        unfold Chip.tport; rw [h2]; rfl
      unfold Chip.ownRequest
      rw [e]
      dsimp only
      rw [ho]
      rfl
    rw [hit, hn]
    unfold TxSide.itemSent
    simp [hx, TxSide.nextItem, itemRank]

end

/-- Sending an item counts its number on, leaves the time, and puts an LCB on the line. -/
theorem Chip.itemQueued_leaves (c : Chip) (p : Nat) :
    (((c.itemQueued p).sendLcb p).peer p).txSeq = ((c.peer p).txSeq + 1) % 256 ∧ ((c.itemQueued p).sendLcb p).tb.time = c.tb.time ∧
      ((c.itemQueued p).sendLcb p).mem = c.mem ∧ (c.out ++ [.lcb p ((c.itemQueued p).lcbOut p)]) <+: ((c.itemQueued p).sendLcb p).out := by
  obtain ⟨hm, ht, ho, -⟩ := (c.itemQueued p).sendLcb_frame p
  obtain ⟨h1, h2, -⟩ := (c.itemQueued p).noteStamp_frame p ((c.itemQueued p).lcbOut p)
  refine ⟨?_, by rw [ht]; exact h1, hm, ho⟩
  unfold Chip.peer at h2 ⊢
  rw [ht]
  exact h2.trans (Chip.itemQueued_txSeq c p)

/-! ### An item arrives -/

/-- The chip that has an item of a port and its arrival stamps. -/
def Chip.itemHeard (c : Chip) (p : Nat) (i : TimeItem) : Chip :=
  c.updPeer p fun x => { x with item := some i, arrived := c.tb.time, atTick := c.now }

/-- A timebase has an item of a port with its arrival stamps. -/
def Timebase.hasHeard (t : Timebase) (p : Nat) (i : TimeItem) (at_ : Word) (tick : Nat) : Prop :=
  (Tab.get t.peers p Peer.init).item = some i ∧ (Tab.get t.peers p Peer.init).arrived = at_ ∧ (Tab.get t.peers p Peer.init).atTick = tick

theorem Chip.itemHeard_peer (c : Chip) (p : Nat) (i : TimeItem) :
    (c.itemHeard p i).peer p = { c.peer p with item := some i, arrived := c.tb.time, atTick := c.now } :=
  c.peer_updPeer p fun x => { x with item := some i, arrived := c.tb.time, atTick := c.now }

theorem Chip.itemHeard_has (c : Chip) (p : Nat) (i : TimeItem) : (c.itemHeard p i).tb.hasHeard p i c.tb.time c.now := by
  have h := c.itemHeard_peer p i
  unfold Chip.peer at h
  unfold Timebase.hasHeard
  rw [h]
  exact ⟨rfl, rfl, rfl⟩

theorem Timebase.following_peers (t : Timebase) (p : Nat) (i : TimeItem) : (t.following p i).peers = t.peers := rfl

theorem Timebase.choosing_peers (t : Timebase) (up : Bool) (p : Nat) (i : TimeItem) : (t.choosing up p i).peers = t.peers := by
  unfold Timebase.choosing
  dsimp only
  split
  case h_1 => rfl
  case h_2 | h_3 | h_4 | h_5 => split <;> rfl
  case h_6 => split; exacts [rfl, by split <;> rfl]

theorem Chip.Reacts.timUp {c d : Chip} (h : c.Reacts d) : d.timUp = c.timUp := by
  unfold Chip.timUp Chip.clusterUp
  rw [h.fw]

/-- The item is measured: it comes from the parent, answers a stamp, and the servo is at work. -/
def Chip.measures (c : Chip) (p : Nat) (i : TimeItem) : Bool :=
  c.timUp && c.tb.parent == some p && i.evalid && (c.tb.state == .acquire || c.tb.state == .locked)

section
variable {c : Chip} {p : Nat} {i : TimeItem} (ha : c.portActive p = true)
include ha

theorem Chip.timeReceive_root (hs : c.tb.state = .root) : c.timeReceive p i =
    if i.root && decide (i.rootId < c.id) then (c.itemHeard p i).raise tbUnit 0x100 11 tbUnit else c.itemHeard p i := by
  have hr : (c.itemHeard p i).tb.state = .root := hs
  unfold Chip.timeReceive
  rw [ha]
  exact if_pos hr

theorem Chip.timeReceive_chooses (hs : c.tb.state ≠ .root) : c.timeReceive p i =
    if (c.itemHeard p i).chooseParent.measures p i then (c.itemHeard p i).chooseParent.measure p i else (c.itemHeard p i).chooseParent := by
  have hr : (c.itemHeard p i).tb.state ≠ .root := hs
  unfold Chip.timeReceive
  rw [ha]
  exact if_neg hr

end

/-! ### What a measurement does -/

theorem Tab.get?_mapVals {α : Type} (t : Tab α) (f : Nat → α → α) (k : Nat) : Tab.get? (Tab.mapVals t f) k = (Tab.get? t k).map (f k) := by
  induction t with
  | nil => rfl
  | cons r t ih =>
    obtain ⟨j, v⟩ := r
    rw [show Tab.mapVals ((j, v) :: t) f = (j, f j v) :: Tab.mapVals t f from rfl, Tab.get?_cons, Tab.get?_cons, ih]
    split
    · next h => rw [h]; rfl
    · rfl

theorem Tab.get_mapVals {α : Type} (t : Tab α) (f : Nat → α → α) (k : Nat) {d : α} (hd : f k d = d) :
    Tab.get (Tab.mapVals t f) k d = f k (Tab.get t k d) := by
  rw [Tab.get, Tab.get, Tab.get?_mapVals]
  cases Tab.get? t k with
  | none => exact hd.symm
  | some v => rfl

section
variable {t u : Timebase} {p : Nat} {i : TimeItem} {w : Word} {n : Nat} (h : t.hasHeard p i w n)
include h

theorem Timebase.hasHeard.of_peers (e : u.peers = t.peers) : u.hasHeard p i w n := by
  unfold Timebase.hasHeard at h ⊢
  rwa [e]

theorem Timebase.hasHeard.stepped (d : Int) : (t.stepped d).hasHeard p i w n := by
  have e : Tab.get (t.stepped d).peers p Peer.init = { Tab.get t.peers p Peer.init with sentAt := [] } :=
    Tab.get_mapVals t.peers (fun _ (x : Peer) => { x with sentAt := [] }) p rfl
  unfold Timebase.hasHeard at h ⊢
  rw [e]
  exact h

end

/-- The offset and the delay that an item measures against the stamp that it answers. -/
def Chip.offsetOf (c : Chip) (t1 : Word) (i : TimeItem) : Int := (signedDiff c.tb.time i.ttx - signedDiff i.erx t1) / 2

/-- The delay. -/
def Chip.delayOf (c : Chip) (t1 : Word) (i : TimeItem) : Int := (signedDiff c.tb.time i.ttx + signedDiff i.erx t1) / 2

section
variable {c : Chip} {p : Nat} {i : TimeItem} {t1 : Word}

theorem Chip.measure_none (h : Tab.get? (c.peer p).sentAt i.eseq = none) : c.measure p i = c := by
  unfold Chip.measure
  rw [h]

/-- With whole halves, a measurement is taken where its delay is near the average. -/
theorem Chip.measure_some (h : Tab.get? (c.peer p).sentAt i.eseq = some t1)
    (ho : (signedDiff c.tb.time i.ttx - signedDiff i.erx t1) % 2 = 0) (hd : (signedDiff c.tb.time i.ttx + signedDiff i.erx t1) % 2 = 0) :
    c.measure p i = if delayOk (c.peer p).delays (c.delayOf t1 i) then (c.noteDelay p (c.delayOf t1 i)).takeTheta (c.offsetOf t1 i) else c := by
  unfold Chip.measure
  rw [h]
  have e : c.thetaDelay t1 i.erx i.ttx c.tb.time = (c, c.offsetOf t1 i, c.delayOf t1 i) := by
    unfold Chip.thetaDelay Chip.halved
    simp only [if_pos ho, if_pos hd]
    rfl
  dsimp only
  rw [e]

end

section
variable (c : Chip) (p : Nat) (d : Int)

theorem Chip.noteDelay_peer : (c.noteDelay p d).peer p = { c.peer p with delays := (d :: (c.peer p).delays).take 16 } :=
  c.drawn.peer_updPeer p fun x => { x with delays := (d :: (c.peer p).delays).take 16 }

theorem Chip.noteDelay_heard {i : TimeItem} {w : Word} {n : Nat} (h : c.tb.hasHeard p i w n) : (c.noteDelay p d).tb.hasHeard p i w n := by
  have e := c.noteDelay_peer p d
  unfold Chip.peer at e
  unfold Timebase.hasHeard at h ⊢
  rw [e]
  exact h

end

/-- The timebase that has locked, by a step of the measured offset. -/
def Timebase.locking (t : Timebase) (theta : Int) (v : Int) : Timebase :=
  { ({ t with lastOffset := theta }).stepped (-theta) with rateCorr := v, state := .locked, measured := [], everLocked := true, lostRaised := false }

section
variable (c : Chip) (theta : Int)

/-- An offset in Acquire is kept, until the fourth. -/
theorem Chip.takeTheta_acquire (hs : c.tb.state = .acquire) (hl : c.tb.measured.length < 3) :
    c.takeTheta theta = { c with tb := { c.tb with lastOffset := theta, measured := theta :: c.tb.measured } } := by
  unfold Chip.takeTheta
  dsimp only
  rw [hs]
  exact if_pos (by rw [List.length_cons]; omega)

/-- The fourth steps by it into Locked. -/
theorem Chip.takeTheta_locks (hs : c.tb.state = .acquire) (hl : 3 ≤ c.tb.measured.length) :
    ∃ v : Int, v.natAbs ≤ 500000 ∧ (c.takeTheta theta).tb = c.tb.locking theta v ∧ (c.takeTheta theta).mem = c.mem := by
  let b : Chip := { c with tb := { c.tb with lastOffset := theta } }
  obtain ⟨ht, hm⟩ := b.timeStep_frame (-theta)
  let e : Chip := (b.timeStep (-theta)).setRate
  have he : c.takeTheta theta = ({ e with tb := { e.tb with state := .locked, measured := [], everLocked := true } } : Chip).lostCond false := by
    unfold Chip.takeTheta
    dsimp only
    split
    case h_1 => exact if_neg (show ¬(theta :: c.tb.measured).length < 4 by rw [List.length_cons]; omega)
    case h_2 h => exact absurd (hs.symm.trans h) (by decide)
    case h_3 h _ => exact absurd hs h
  have hr := Chip.lostCond_reacts { e with tb := { e.tb with state := .locked, measured := [], everLocked := true } } false
  refine ⟨e.tb.rateCorr, Chip.setRate_bound _, ?_, ?_⟩
  · rw [he, hr.tb]
    have h1 : e.tb = { (b.timeStep (-theta)).tb with rateCorr := e.tb.rateCorr } := rfl
    rw [h1, ht]
    rfl
  · rw [he, hr.mem]
    exact hm

/-- In Locked it becomes the last offset. -/
theorem Chip.takeTheta_locked (hs : c.tb.state = .locked) (ht : theta.natAbs ≤ 4000) :
    ∃ v : Int, v.natAbs ≤ 500000 ∧ (c.takeTheta theta).tb = { c.tb with lastOffset := theta, rateCorr := v } ∧ (c.takeTheta theta).mem = c.mem := by
  refine ⟨(c.takeTheta theta).tb.rateCorr, ?_⟩
  have he : c.takeTheta theta = ({ c with tb := { c.tb with lastOffset := theta } } : Chip).setRate := by
    unfold Chip.takeTheta
    dsimp only
    rw [hs]
    exact if_neg (Nat.not_lt.mpr ht)
  rw [he]
  exact ⟨Chip.setRate_bound _, rfl, rfl⟩

/-- Above 1 µs the time is lost. -/
theorem Chip.takeTheta_loses (hs : c.tb.state = .locked) (ht : 4000 < theta.natAbs) :
    (c.takeTheta theta).tb = { c.tb.losing with lastOffset := theta } ∧ (c.takeTheta theta).mem = c.mem := by
  have he : c.takeTheta theta = ({ c with tb := { c.tb with lastOffset := theta } } : Chip).timeLost := by
    unfold Chip.takeTheta
    dsimp only
    rw [hs]
    exact if_pos ht
  rw [he, Chip.timeLost_tb, Chip.timeLost_mem]
  exact ⟨rfl, rfl⟩

end

/-! ### The obligation's cases -/

/-- What an item that arrives leaves in every case: memory, and itself with its stamps. -/
def Chip.itemTaken (d c : Chip) (p : Nat) (i : TimeItem) : Prop :=
  d.mem = c.mem ∧ (d.peer p).item = some i ∧ (d.peer p).arrived = c.tb.time ∧ (d.peer p).atTick = c.now

theorem Chip.itemTaken_of {c d : Chip} {p : Nat} {i : TimeItem} (hm : d.mem = c.mem) (h : d.tb.hasHeard p i c.tb.time c.now) : d.itemTaken c p i :=
  ⟨hm, h⟩

section
variable {s : State} {port : Nat} {item : TimeItem} (hl : s.leaves fun c => c.timeReceive port item)
  (ha : s.chip.portActive port = true) {r : Chip → Prop}
include hl

/-- What is received completes with what the chip that takes it shows. -/
theorem receive_takes {d : Chip} (e : s.chip.timeReceive port item = d) (hr : r d) (hm : d.mem = s.chip.mem)
    (hp : d.tb.hasHeard port item s.chip.tb.time s.chip.now) :
    Completes (.timeExchangeReceive port item) s fun d => r d ∧ d.itemTaken s.chip port item :=
  .of_run (exec_timeExchangeReceive ..) hl.1 hl.2 (by rw [e]; exact ⟨hr, Chip.itemTaken_of hm hp⟩)

include ha

/-- The root stays root. -/
theorem receive_root (hs : s.chip.tb.state = .root) :
    Completes (.timeExchangeReceive port item) s fun d => (d.tb = (s.chip.itemHeard port item).tb ∧
      (item.root = true → item.rootId < s.chip.id → d.noted s.chip 0xC0 0x100)) ∧ d.itemTaken s.chip port item := by
  have e := Chip.timeReceive_root (i := item) ha hs
  by_cases hc : (item.root && decide (item.rootId < s.chip.id)) = true
  · rw [if_pos hc] at e
    have hr := Chip.occurrence_reacts (s.chip.itemHeard port item) tbUnit 0x100 11 tbUnit 0 0
    have hcalm : ((s.chip.itemHeard port item).raise tbUnit 0x100 11 tbUnit).calm = true := e ▸ hl.2
    have hu : unitPresent (s.chip.itemHeard port item).variant tbUnit = true := by
      generalize (s.chip.itemHeard port item).variant = v
      cases v <;> decide
    refine receive_takes hl e ⟨hr.tb, fun _ _ => (Chip.raise_noted hcalm hu (by decide)).before rfl rfl⟩ hr.mem ?_
    exact (Chip.itemHeard_has ..).of_peers (congrArg Timebase.peers hr.tb)
  · rw [if_neg hc] at e
    exact receive_takes hl e ⟨rfl, fun h1 h2 => absurd (by rw [h1, decide_eq_true h2]; rfl) hc⟩ rfl (Chip.itemHeard_has ..)

variable (hne : s.chip.tb.state ≠ .root)
include hne

/-- With no parent offered and nothing to measure, the item is kept. -/
theorem receive_alone (hn : item.evalid = false ∨ (s.chip.itemHeard port item).tb.parent ≠ some port ∨ s.chip.timUp = false)
    (hb : (s.chip.itemHeard port item).bestParent = none) :
    Completes (.timeExchangeReceive port item) s fun d => d.tb = (s.chip.itemHeard port item).tb ∧ d.itemTaken s.chip port item := by
  have e := Chip.timeReceive_chooses (i := item) ha hne
  have hc : (s.chip.itemHeard port item).chooseParent = s.chip.itemHeard port item := by unfold Chip.chooseParent; rw [hb]
  have hm : (s.chip.itemHeard port item).measures port item = false := by
    have ht : (s.chip.itemHeard port item).timUp = s.chip.timUp := rfl
    unfold Chip.measures
    rw [ht]
    obtain h | h | h := hn <;> simp [h]
  rw [hc, hm, if_neg Bool.false_ne_true] at e
  exact receive_takes hl e rfl rfl (Chip.itemHeard_has ..)

variable {p : Nat} {i : TimeItem} (hb : (s.chip.itemHeard port item).bestParent = some (p, i)) {t : Timebase}
  (ht : (s.chip.itemHeard port item).tb.choosing s.chip.timUp p i = t)
include hb ht

/-- With nothing to measure, the choice of a parent decides. -/
theorem receive_chooses (hm : (s.chip.timUp && t.parent == some port && item.evalid && (t.state == .acquire || t.state == .locked)) = false)
    (hr : ∀ d : Chip, d.tb = t → r d) :
    Completes (.timeExchangeReceive port item) s fun d => r d ∧ d.itemTaken s.chip port item := by
  have e := Chip.timeReceive_chooses (i := item) ha hne
  have hre := Chip.chooseParent_reacts hb
  have htb : (s.chip.itemHeard port item).chooseParent.tb = t := hre.tb.trans ht
  have hup : (s.chip.itemHeard port item).chooseParent.timUp = s.chip.timUp := hre.timUp
  have hmf : (s.chip.itemHeard port item).chooseParent.measures port item = false := by
    unfold Chip.measures
    rw [htb, hup, hm]
  rw [hmf, if_neg Bool.false_ne_true] at e
  exact receive_takes hl e (hr _ htb) hre.mem ((Chip.itemHeard_has ..).of_peers (by rw [hre.tb]; exact Timebase.choosing_peers ..))

/-- With an item to measure, the chip that has chosen measures it. -/
theorem receive_measures (hm : (s.chip.timUp && t.parent == some port && item.evalid && (t.state == .acquire || t.state == .locked)) = true)
    (hr : ∀ d : Chip, d.tb = t → d.mem = s.chip.mem → d.tb.hasHeard port item s.chip.tb.time s.chip.now →
      d.peer port = (s.chip.itemHeard port item).peer port →
      r (d.measure port item) ∧ (d.measure port item).mem = s.chip.mem ∧
        (d.measure port item).tb.hasHeard port item s.chip.tb.time s.chip.now) :
    Completes (.timeExchangeReceive port item) s fun d => r d ∧ d.itemTaken s.chip port item := by
  have e := Chip.timeReceive_chooses (i := item) ha hne
  have hre := Chip.chooseParent_reacts hb
  have htb : (s.chip.itemHeard port item).chooseParent.tb = t := hre.tb.trans ht
  have hup : (s.chip.itemHeard port item).chooseParent.timUp = s.chip.timUp := hre.timUp
  have hpe : (s.chip.itemHeard port item).chooseParent.tb.peers = (s.chip.itemHeard port item).tb.peers := by
    rw [hre.tb]; exact Timebase.choosing_peers ..
  have hmt : (s.chip.itemHeard port item).chooseParent.measures port item = true := by
    unfold Chip.measures
    rw [htb, hup, hm]
  rw [hmt, if_pos rfl] at e
  obtain ⟨h1, h2, h3⟩ := hr _ htb hre.mem ((Chip.itemHeard_has ..).of_peers hpe) (by unfold Chip.peer; rw [hpe])
  exact receive_takes hl e h1 h2 h3

end

theorem quiet_measures {tim ev : Bool} {p port : Nat} {t : Timebase} (hq : (!ev || !tim || p != port) = true) (hp : t.parent = some p) (b : Bool) :
    (tim && t.parent == some port && ev && b) = false := by
  rw [hp]
  cases tim <;> cases ev <;> simp_all

/-- A choice that keeps the parent and the root, in Acquire or Locked, leaves what the servo has. -/
theorem Timebase.choosing_servo {t : Timebase} {up : Bool} {p : Nat} {i : TimeItem} (hu : up = true)
    (hsame : (decide (t.parent = some p) && !(i.rootId != t.rootId || i.rootGen != t.rootGen)) = true)
    (hs : t.state = .acquire ∨ t.state = .locked) :
    (t.choosing up p i).parent = some p ∧ (t.choosing up p i).state = t.state ∧ (t.choosing up p i).measured = t.measured ∧
      (t.choosing up p i).lastOffset = t.lastOffset ∧ (t.choosing up p i).time = t.time := by
  obtain ⟨h1, h2⟩ := (Bool.and_eq_true _ _).mp hsame
  have hpar : t.parent = some p := of_decide_eq_true h1
  have hmv : (i.rootId != t.rootId || i.rootGen != t.rootGen) = false := Bool.not_eq_true' _ ▸ h2
  obtain hs | hs := hs
  · rw [Timebase.choosing_again hu hs, if_pos ⟨hpar, hmv⟩]
    exact ⟨hpar, rfl, rfl, rfl, rfl⟩
  · rw [Timebase.choosing_locked hs hmv]
    exact ⟨rfl, rfl, rfl, rfl, rfl⟩

section
variable {s : State} {port : Nat} {item i : TimeItem} (hl : s.leaves fun c => c.timeReceive port item) (ha : s.chip.portActive port = true)
  (hb : (s.chip.itemHeard port item).bestParent = some (port, i)) (hu : s.chip.timUp = true) (hev : item.evalid = true)
  (hsame : (decide (s.chip.tb.parent = some port) && !(i.rootId != s.chip.tb.rootId || i.rootGen != s.chip.tb.rootGen)) = true)
  (hs : s.chip.tb.state = .acquire ∨ s.chip.tb.state = .locked) {r : Chip → Prop}
include hl ha hb hu hev hsame hs

/-- An item of the unchanged parent comes to what its measurement does. -/
theorem receive_servo
    (hr : ∀ d : Chip, d.tb.state = s.chip.tb.state → d.tb.measured = s.chip.tb.measured → d.tb.lastOffset = s.chip.tb.lastOffset →
      d.tb.time = s.chip.tb.time → d.mem = s.chip.mem → d.tb.hasHeard port item s.chip.tb.time s.chip.now →
      (d.peer port).sentAt = (s.chip.peer port).sentAt → (d.peer port).delays = (s.chip.peer port).delays →
      r (d.measure port item) ∧ (d.measure port item).mem = s.chip.mem ∧
        (d.measure port item).tb.hasHeard port item s.chip.tb.time s.chip.now) :
    Completes (.timeExchangeReceive port item) s fun d => r d ∧ d.itemTaken s.chip port item := by
  have hne : s.chip.tb.state ≠ .root := fun h => by rw [h] at hs; exact hs.elim (by decide) (by decide)
  obtain ⟨hp, hst, hme, hlo, hti⟩ := Timebase.choosing_servo (t := (s.chip.itemHeard port item).tb) hu hsame hs
  refine receive_measures hl ha hne hb rfl ?_ fun d hd hm hh hpe => ?_
  · rw [hp, hst, hu, hev]
    have hs' : (s.chip.itemHeard port item).tb.state = s.chip.tb.state := rfl
    rw [hs']
    obtain hs | hs := hs <;> rw [hs] <;> simp
  · rw [Chip.itemHeard_peer] at hpe
    exact hr d (by rw [hd]; exact hst) (by rw [hd]; exact hme) (by rw [hd]; exact hlo) (by rw [hd]; exact hti) hm hh
      (by rw [hpe]) (by rw [hpe])

/-- Without a stamp nothing is measured. -/
theorem receive_unstamped (hn : Tab.get? (s.chip.peer port).sentAt item.eseq = none) :
    Completes (.timeExchangeReceive port item) s fun d => (d.tb.state = s.chip.tb.state ∧ d.tb.measured = s.chip.tb.measured ∧
      d.tb.lastOffset = s.chip.tb.lastOffset ∧ d.tb.time = s.chip.tb.time) ∧ d.itemTaken s.chip port item := by
  refine receive_servo hl ha hb hu hev hsame hs fun d hst hme hlo hti hm hh hse _ => ?_
  rw [Chip.measure_none (by rw [hse]; exact hn)]
  exact ⟨⟨hst, hme, hlo, hti⟩, hm, hh⟩

variable {t1 : Word} (hn : Tab.get? (s.chip.peer port).sentAt item.eseq = some t1)
  (h1 : (signedDiff s.chip.tb.time item.ttx - signedDiff item.erx t1) % 2 = 0)
  (h2 : (signedDiff s.chip.tb.time item.ttx + signedDiff item.erx t1) % 2 = 0)
include hn h1 h2

/-- A delay that is not near the average measures nothing. -/
theorem receive_refused (hd : delayOk (s.chip.peer port).delays (s.chip.delayOf t1 item) = false) :
    Completes (.timeExchangeReceive port item) s fun d => (d.tb.state = s.chip.tb.state ∧ d.tb.measured = s.chip.tb.measured ∧
      d.tb.lastOffset = s.chip.tb.lastOffset ∧ d.tb.time = s.chip.tb.time) ∧ d.itemTaken s.chip port item := by
  refine receive_servo hl ha hb hu hev hsame hs fun d hst hme hlo hti hm hh hse hde => ?_
  have e : d.delayOf t1 item = s.chip.delayOf t1 item := by unfold Chip.delayOf; rw [hti]
  rw [Chip.measure_some (t1 := t1) (by rw [hse]; exact hn) (by rw [hti]; exact h1) (by rw [hti]; exact h2), hde, e, hd,
    if_neg Bool.false_ne_true]
  exact ⟨⟨hst, hme, hlo, hti⟩, hm, hh⟩

/-- A delay near the average enters the average, and the offset is taken. -/
theorem receive_measured (hd : delayOk (s.chip.peer port).delays (s.chip.delayOf t1 item) = true)
    (hr : ∀ d : Chip, d.tb.state = s.chip.tb.state → d.tb.measured = s.chip.tb.measured → d.tb.time = s.chip.tb.time → d.mem = s.chip.mem →
      d.tb.hasHeard port item s.chip.tb.time s.chip.now →
      (d.peer port).delays = (s.chip.delayOf t1 item :: (s.chip.peer port).delays).take 16 →
      r (d.takeTheta (s.chip.offsetOf t1 item)) ∧ (d.takeTheta (s.chip.offsetOf t1 item)).mem = s.chip.mem ∧
        (d.takeTheta (s.chip.offsetOf t1 item)).tb.hasHeard port item s.chip.tb.time s.chip.now) :
    Completes (.timeExchangeReceive port item) s fun d => r d ∧ d.itemTaken s.chip port item := by
  refine receive_servo hl ha hb hu hev hsame hs fun d hst hme hlo hti hm hh hse hde => ?_
  have e : d.delayOf t1 item = s.chip.delayOf t1 item := by unfold Chip.delayOf; rw [hti]
  have e' : d.offsetOf t1 item = s.chip.offsetOf t1 item := by unfold Chip.offsetOf; rw [hti]
  rw [Chip.measure_some (t1 := t1) (by rw [hse]; exact hn) (by rw [hti]; exact h1) (by rw [hti]; exact h2), hde, e, e', hd, if_pos rfl]
  exact hr _ hst hme hti hm (d.noteDelay_heard port _ hh) (by rw [Chip.noteDelay_peer, hde])

end

/-- Settles O56: an item out by its LCB, an item in by the state of the timebase. -/
theorem timeItemsAreSentAndTaken : Obligations.TimeItemsAreSentAndTaken := by
  intro s port
  refine ⟨fun hs h => ?_, fun hs ha ht => ?_, fun item => ⟨fun hs ha => ?_, fun hl ha => ⟨fun hr => ?_, fun hne hn hb => ?_, fun p i hne hb => ?_⟩⟩⟩
  · have e := Chip.timeSend_idle h
    exact .of_run (exec_timeExchangeSend ..) hs.1 (by rw [e]; exact hs.2) e
  · have e := Chip.timeSend_eq ha ht
    obtain ⟨hq, htm, hm, ho⟩ := s.chip.itemQueued_leaves port
    refine .of_run (exec_timeExchangeSend ..) hs.1 (by rw [e]; exact Chip.sendLcb_calm (Chip.itemQueued_calm hs.2 port) port) ?_
    rw [e]
    exact ⟨hq, htm, hm, any_lcb_of_prefix ho, fun hi how => Chip.itemQueued_sent hi how⟩
  · have e : s.chip.timeReceive port item = s.chip := if_pos (by rw [ha]; rfl)
    exact .of_run (exec_timeExchangeReceive ..) hs.1 (by rw [e]; exact hs.2) e
  · exact receive_root hl ha hr
  · exact receive_alone hl ha hne hn hb
  · refine ⟨fun hu hs => ?_, fun hu hq hs => ?_, fun hu hq hs hsame => ?_, fun hu hq hs hsame => ?_, fun hs hmv => ?_, fun hq hs hmv => ?_,
      fun hu hs hmv => ?_, fun hu hq hs hmv => ?_, fun hu hpp hev hsame hs => ?_⟩
    · exact receive_chooses hl ha hne hb (Timebase.choosing_stays (t := (s.chip.itemHeard port item).tb) (.inr ⟨hu, hs⟩)) (by rw [hu]; rfl) fun d hd => hd
    · refine receive_chooses hl ha hne hb (Timebase.choosing_acquires (t := (s.chip.itemHeard port item).tb) hu hs) (quiet_measures hq rfl _) fun d hd => ?_
      dsimp only
      rw [hd]
      exact ⟨⟨rfl, rfl, rfl, rfl, rfl⟩, rfl, rfl, rfl⟩
    · refine receive_chooses hl ha hne hb ((Timebase.choosing_again (t := (s.chip.itemHeard port item).tb) hu hs).trans (if_neg fun h => ?_)) (quiet_measures hq rfl _) fun d hd => ?_
      · rw [Bool.and_eq_false_iff, decide_eq_false_iff_not] at hsame
        exact hsame.elim (fun hx => hx h.1) fun hx => absurd (hx.symm.trans (congrArg Bool.not h.2)) (by decide)
      · dsimp only
        rw [hd]
        exact ⟨⟨rfl, rfl, rfl, rfl, rfl⟩, hs, rfl⟩
    · obtain ⟨h1, h2⟩ := (Bool.and_eq_true _ _).mp hsame
      have hpar : s.chip.tb.parent = some p := of_decide_eq_true h1
      exact receive_chooses hl ha hne hb ((Timebase.choosing_again (t := (s.chip.itemHeard port item).tb) hu hs).trans (if_pos ⟨hpar, Bool.not_eq_true' _ ▸ h2⟩))
        (quiet_measures hq hpar _) fun d hd => hd
    · refine receive_chooses hl ha hne hb (Timebase.choosing_loses (t := (s.chip.itemHeard port item).tb) (.inl hs) hmv) (Bool.and_false _) fun d hd => ?_
      rw [hd]
      exact ⟨rfl, rfl, rfl, rfl⟩
    · refine receive_chooses hl ha hne hb (Timebase.choosing_locked (t := (s.chip.itemHeard port item).tb) hs hmv) (quiet_measures hq rfl _) fun d hd => ?_
      dsimp only
      rw [hd]
      exact ⟨⟨rfl, rfl, rfl, rfl, rfl⟩, hs⟩
    · refine receive_chooses hl ha hne hb (Timebase.choosing_loses (t := (s.chip.itemHeard port item).tb) (.inr ⟨hu, hs⟩) hmv) (Bool.and_false _) fun d hd => ?_
      rw [hd]
      exact ⟨rfl, rfl, rfl, rfl⟩
    · refine receive_chooses hl ha hne hb (Timebase.choosing_relocks (t := (s.chip.itemHeard port item).tb) hu hs hmv) (quiet_measures hq rfl _) fun d hd => ?_
      dsimp only
      rw [hd]
      exact ⟨⟨rfl, rfl, rfl, rfl, rfl⟩, rfl⟩
    · obtain rfl := hpp
      refine ⟨fun hn => receive_unstamped hl ha hb hu hev hsame hs hn, fun t1 hn h1 h2 =>
        ⟨fun hd => receive_refused hl ha hb hu hev hsame hs hn h1 h2 hd, fun hd => ⟨fun hq hlen => ?_, fun hq hlen => ?_, fun hq hth => ?_,
          fun hq hth => ?_⟩⟩⟩
      · refine receive_measured hl ha hb hu hev hsame hs hn h1 h2 hd fun d hst hme hti hm hh hde => ?_
        rw [Chip.takeTheta_acquire d _ (hst.trans hq) (by rw [hme]; exact hlen)]
        exact ⟨⟨hst.trans hq, congrArg _ hme, hde, rfl, hti⟩, hm, hh.of_peers rfl⟩
      · refine receive_measured hl ha hb hu hev hsame hs hn h1 h2 hd fun d hst hme hti hm hh hde => ?_
        obtain ⟨v, hv, ht, hmem⟩ := Chip.takeTheta_locks d (s.chip.offsetOf t1 item) (hst.trans hq) (by rw [hme]; exact hlen)
        refine ⟨?_, hmem.trans hm, ?_⟩
        · rw [ht]
          exact ⟨rfl, rfl, rfl, congrArg (· + _) hti, hv⟩
        · rw [ht]
          exact ((hh.of_peers (u := { d.tb with lastOffset := s.chip.offsetOf t1 item }) rfl).stepped (-(s.chip.offsetOf t1 item))).of_peers rfl
      · refine receive_measured hl ha hb hu hev hsame hs hn h1 h2 hd fun d hst hme hti hm hh hde => ?_
        obtain ⟨v, hv, ht, hmem⟩ := Chip.takeTheta_locked d (s.chip.offsetOf t1 item) (hst.trans hq) hth
        rw [ht]
        exact ⟨⟨hst.trans hq, rfl, hti, hv⟩, hmem.trans hm, hh.of_peers rfl⟩
      · refine receive_measured hl ha hb hu hev hsame hs hn h1 h2 hd fun d hst hme hti hm hh hde => ?_
        obtain ⟨ht, hmem⟩ := Chip.takeTheta_loses d (s.chip.offsetOf t1 item) (hst.trans hq) hth
        dsimp only
        rw [ht]
        exact ⟨⟨⟨rfl, rfl, rfl, hti⟩, rfl⟩, hmem.trans hm, hh.of_peers rfl⟩

end Sys2Proof.Machine
end


section
/-! What the operations of the units leave of the fault collector while no reaction is due (R455, R458, R459): which units are in block
reset or held, the block resets noted, PEND and HELD of the sources, and the boot state. One lemma for each operation. -/

set_option Elab.async false

namespace Sys2Proof.Machine

/-- The fault collector and the boot state. -/
def Chip.watch (c : Chip) : Faults × Boot := (c.flt, c.boot)

@[simp] theorem Chip.watch_mk (v : Variant) (s : Word) {boot flash fw dict ports funcs fifos queues tr mt tg co mem br rt links train lanes tb pace ctr flt free out} :
    (Chip.mk v s boot flash fw dict ports funcs fifos queues tr mt tg co mem br rt links train lanes tb pace ctr flt free out).watch =
      (flt, boot) := rfl

@[simp] theorem Chip.watch_eta (c : Chip) : (c.flt, c.boot) = c.watch := rfl

/-- What stays of the fault collector and the boot state `v` in `w`. -/
structure Holding (v w : Faults × Boot) : Prop where
  inReset : w.1.inReset = v.1.inReset
  heldUnits : w.1.heldUnits = v.1.heldUnits
  resets : w.1.resets = v.1.resets
  boot : w.2 = v.2
  pend : ∀ k, (Tab.get v.1.sources k Source.init).pend = true → (Tab.get w.1.sources k Source.init).pend = true
  held : ∀ k, (Tab.get w.1.sources k Source.init).held = (Tab.get v.1.sources k Source.init).held

theorem Holding.refl (v : Faults × Boot) : Holding v v := ⟨rfl, rfl, rfl, rfl, fun _ h => h, fun _ => rfl⟩

theorem Holding.trans {v w x : Faults × Boot} (h : Holding v w) (k : Holding w x) : Holding v x :=
  ⟨k.inReset.trans h.inReset, k.heldUnits.trans h.heldUnits, k.resets.trans h.resets, k.boot.trans h.boot,
    fun n p => k.pend n (h.pend n p), fun n => (k.held n).trans (h.held n)⟩

/-- What only grows from `v` to `w`: the resets that are due; of the boot state at most the fatal record changes. -/
structure Growing (v w : Faults × Boot) : Prop where
  due : v.1.due <+: w.1.due
  resetDue : v.1.resetDue = true → w.1.resetDue = true
  boot : w.2 = { v.2 with lastFatal := w.2.lastFatal, fatalReset := w.2.fatalReset }
  fatal : v.2.lastFatal.length = 8 → w.2.lastFatal.length = 8

theorem Growing.trans {v w x : Faults × Boot} (h : Growing v w) (k : Growing w x) : Growing v x :=
  ⟨h.due.trans k.due, fun p => k.resetDue (h.resetDue p), by rw [k.boot, h.boot], fun p => k.fatal (h.fatal p)⟩

/-- `w` grows out of `v`, and where it decides no reset more it keeps what `v` has. -/
structure Holds (v w : Faults × Boot) : Prop where
  grows : Growing v w
  holds : w.1.due = v.1.due → w.1.resetDue = false → Holding v w

@[simp] theorem Holds.refl (v : Faults × Boot) : Holds v v := ⟨⟨List.prefix_rfl, id, rfl, id⟩, fun _ _ => .refl v⟩

/-- A step that decides no reset. -/
theorem Holds.step {v w x : Faults × Boot} (h : Holds v w) (hd : x.1.due = w.1.due) (hr : x.1.resetDue = w.1.resetDue) (k : Holding w x) :
    Holds v x :=
  ⟨h.grows.trans ⟨hd ▸ List.prefix_rfl, fun p => hr.trans p, by rw [k.boot], fun p => by rw [k.boot]; exact p⟩,
    fun h1 h2 => (h.holds (hd ▸ h1) (hr ▸ h2)).trans k⟩

/-- A step that decides a unit's reset. -/
theorem Holds.decide {v w x : Faults × Boot} (h : Holds v w) {u : Nat} (hd : x.1.due = w.1.due ++ [u]) (hr : x.1.resetDue = w.1.resetDue)
    (hb : x.2 = w.2) : Holds v x := by
  refine ⟨h.grows.trans ⟨hd ▸ List.prefix_append .., fun p => hr.trans p, by rw [hb], fun p => by rw [hb]; exact p⟩, fun h1 _ => ?_⟩
  have hl := h.grows.due.length_le
  have := congrArg List.length (hd.symm.trans h1)
  rw [List.length_append, List.length_singleton] at this
  omega

/-- Where nothing is due at the end, nothing was due before. -/
theorem Holds.calm {v w : Faults × Boot} (h : Holds v w) (hd : w.1.due = []) (hr : w.1.resetDue = false) : Holding v w :=
  h.holds (hd.trans (List.prefix_nil.mp (hd ▸ h.grows.due)).symm) hr

@[simp] theorem foldl_watch {α : Type} {g : Chip → α → Chip} (hg : ∀ c a, (g c a).watch = c.watch) (l : List α) (c : Chip) :
    (l.foldl g c).watch = c.watch := by
  induction l generalizing c with
  | nil => rfl
  | cons a l ih => rw [List.foldl_cons, ih, hg]

theorem foldl_holds {α : Type} {g : Chip → α → Chip} {v : Faults × Boot} (hg : ∀ c a, Holds v c.watch → Holds v (g c a).watch) (l : List α)
    {c : Chip} (h : Holds v c.watch) : Holds v (l.foldl g c).watch := by
  induction l generalizing c with
  | nil => exact h
  | cons a l ih => exact ih (hg c a h)

theorem pair_watch {α : Type} {p : Chip × α} {c d : Chip} {k : α} (e : p = (d, k)) (h : p.1.watch = c.watch) : d.watch = c.watch := by
  rw [e] at h; exact h

theorem pair_holds {α : Type} {p : Chip × α} {v : Faults × Boot} {d : Chip} {k : α} (e : p = (d, k)) (h : Holds v p.1.watch) :
    Holds v d.watch := by
  rw [e] at h; exact h

@[simp] theorem Chip.setParam_watch (c : Chip) (area obj e x : Nat) : (c.setParam area obj e x).watch = c.watch := by
  simp [Chip.setParam]
@[simp] theorem Chip.updFn_watch (c : Chip) (i : Nat) (f : Func → Func) : (c.updFn i f).watch = c.watch := by simp [Chip.updFn]
@[simp] theorem Chip.updPort_watch (c : Chip) (h : Nat) (f : HostPort → HostPort) : (c.updPort h f).watch = c.watch := by
  simp [Chip.updPort]
@[simp] theorem Chip.putQueue_watch (c : Chip) (h qn : Nat) (q : Queue) : (c.putQueue h qn q).watch = c.watch := by simp [Chip.putQueue]
@[simp] theorem Chip.updQueue_watch (c : Chip) (h qn : Nat) (f : Queue → Queue) : (c.updQueue h qn f).watch = c.watch := by
  simp [Chip.updQueue]
@[simp] theorem Chip.emit_watch (c : Chip) (o : Output) : (c.emit o).watch = c.watch := by unfold Chip.emit; split <;> simp
@[simp] theorem Chip.drawn_watch (c : Chip) : (c.drawn).watch = c.watch := by simp [Chip.drawn]
@[simp] theorem Chip.drawnBy_watch (c : Chip) (n : Nat) : (c.drawnBy n).watch = c.watch := by simp [Chip.drawnBy]
@[simp] theorem Chip.bump_watch (c : Chip) (unit : Nat) (k : Ctr) (n : Nat) : (c.bump unit k n).watch = c.watch := by
  unfold Chip.bump; split <;> simp
@[simp] theorem Chip.bumpFn_watch (c : Chip) (kind fn : Nat) (n : Nat) : (c.bumpFn kind fn n).watch = c.watch := by simp [Chip.bumpFn]
@[simp] theorem Chip.sendMsix_watch (c : Chip) (fn v : Nat) : (c.sendMsix fn v).watch = c.watch := by simp [Chip.sendMsix]
@[simp] theorem Chip.signal_watch (c : Chip) (fn v : Nat) : (c.signal fn v).watch = c.watch := by simp [Chip.signal, apply_ite Chip.watch]
@[simp] theorem Chip.urgent_watch (c : Chip) (fn : Nat) : (c.urgent fn).watch = c.watch := by simp [Chip.urgent, apply_ite Chip.watch]
@[simp] theorem Chip.eventLost_watch (c : Chip) (fn : Nat) : (c.eventLost fn).watch = c.watch := by simp [Chip.eventLost]
@[simp] theorem Chip.setQState_watch (c : Chip) (h qn : Nat) (s : QState) (cause : Nat) : (c.setQState h qn s cause).watch = c.watch := by
  unfold Chip.setQState; split <;> simp
@[simp] theorem Chip.eqError_watch (c : Chip) (h eqn cause : Nat) : (c.eqError h eqn cause).watch = c.watch := by simp [Chip.eqError]
@[simp] theorem Chip.writeEvent_watch (c : Chip) (h eqn : Nat) (q : Queue) (words : List Word) :
    (c.writeEvent h eqn q words).watch = c.watch := by unfold Chip.writeEvent; split <;> simp
@[simp] theorem Chip.postEvent_watch (c : Chip) (fn code unit qn detail : Nat) : (c.postEvent fn code unit qn detail).watch = c.watch := by
  unfold Chip.postEvent
  repeat' first | (simp; done) | (dsimp only; split) | split
@[simp] theorem Chip.eventPFs_watch (c : Chip) (code unit qn detail : Nat) : (c.eventPFs code unit qn detail).watch = c.watch := by
  simp [Chip.eventPFs]
@[simp] theorem Chip.routeFault_watch (c : Chip) : (c.routeFault).watch = c.watch := by simp [Chip.routeFault, apply_ite Chip.watch]
@[simp] theorem Chip.urgentAll_watch (c : Chip) : (c.urgentAll).watch = c.watch := by simp [Chip.urgentAll, apply_ite Chip.watch]

/-! ### Occurrences -/

/-- What records leave of the fault collector. -/
def Faults.rest (f : Faults) : List Nat × Bool × List Nat × List Nat × List (Nat × Nat) × Tab Source :=
  (f.due, f.resetDue, f.inReset, f.heldUnits, f.resets, f.sources)

theorem Faults.foldl_close_rest (l : List Record) (f : Faults) : (l.foldl Faults.close f).rest = f.rest := by
  induction l generalizing f with
  | nil => rfl
  | cons r l ih => exact ih (f.close r)

theorem Chip.kerfClose_rest (c : Chip) : c.kerfClose.flt.rest = c.flt.rest := Faults.foldl_close_rest ..

theorem Chip.enterRecord_rest (c : Chip) (unit cause skind subject : Nat) (d0 d1 : Word) :
    (c.enterRecord unit cause skind subject d0 d1).flt.rest = c.flt.rest := by
  rw [← c.kerfClose_rest]
  unfold Chip.enterRecord
  dsimp only
  split <;> split <;> rfl

theorem Holds.of_rest {v : Faults × Boot} {c d : Chip} (h : Holds v c.watch) (hr : d.flt.rest = c.flt.rest) (hb : d.boot = c.boot) :
    Holds v d.watch := by
  simp only [Faults.rest, Prod.mk.injEq] at hr
  obtain ⟨h1, h2, h3, h4, h5, h6⟩ := hr
  refine h.step h1 h2 ⟨h3, h4, h5, hb, fun k hk => ?_, fun k => ?_⟩
  · rw [show d.watch.1.sources = c.watch.1.sources from h6]; exact hk
  · rw [show d.watch.1.sources = c.watch.1.sources from h6]

theorem Chip.setSrc_holds (c : Chip) (u k : Nat) (s : Source) {v : Faults × Boot} (h : Holds v c.watch)
    (hp : (c.src u k).pend = true → s.pend = true) (hh : s.held = (c.src u k).held) : Holds v (c.setSrc u k s).watch := by
  have hs : ∀ n, Tab.get (c.setSrc u k s).flt.sources n Source.init = if n = srcKey u k then s else Tab.get c.flt.sources n Source.init := by
    intro n
    split
    · next e => rw [e]; exact Tab.get_set_self ..
    · next e => exact Tab.get_set_ne _ _ _ e
  refine h.step rfl rfl ⟨rfl, rfl, rfl, rfl, fun n hn => ?_, fun n => ?_⟩
  · change (Tab.get (c.setSrc u k s).flt.sources n Source.init).pend = true
    rw [hs]
    split
    · next e => exact hp (by rw [e] at hn; exact hn)
    · exact hn
  · change (Tab.get (c.setSrc u k s).flt.sources n Source.init).held = _
    rw [hs]
    split
    · next e => rw [e]; exact hh
    · rfl

theorem Chip.setHeld_rest (c : Chip) (unit : Nat) (on : Bool) : ∃ t, (c.setHeld unit on).watch = ({ c.flt with sources := t }, c.boot) := by
  have : ∀ (l : List Nat) (c : Chip), ∃ t, (l.foldl (fun c k => c.setSrc unit k { c.src unit k with held := on }) c).watch =
      ({ c.flt with sources := t }, c.boot) := by
    intro l
    induction l with
    | nil => exact fun c => ⟨c.flt.sources, rfl⟩
    | cons k l ih =>
      intro c
      obtain ⟨t, ht⟩ := ih (c.setSrc unit k { c.src unit k with held := on })
      exact ⟨t, ht⟩
  exact this _ c

/-- What the record that a unit is held leaves. -/
theorem Chip.unitHeldOccurs_rest (c : Chip) (unit : Nat) : ∃ t, (c.unitHeldOccurs unit).flt.rest = ({ c.flt with sources := t } : Faults).rest ∧
    (c.unitHeldOccurs unit).boot = c.boot := by
  unfold Chip.unitHeldOccurs
  extract_lets s c1 ctl
  have h1 : c1.flt.rest = (c.setSrc 0xC1 0x101 s.occurs).flt.rest ∧ c1.boot = c.boot :=
    ⟨Chip.enterRecord_rest .., (Chip.enterRecord_reports ..).boot⟩
  refine ⟨(c.setSrc 0xC1 0x101 s.occurs).flt.sources, ?_⟩
  have hw : ∀ d : Chip, d.watch = c1.watch → d.flt.rest = (c.setSrc 0xC1 0x101 s.occurs).flt.rest ∧ d.boot = c.boot := fun d hd => by
    obtain ⟨e1, e2⟩ := Prod.mk.inj hd
    rw [e1, e2]
    exact h1
  split
  · exact h1
  · split
    · split
      · exact hw _ (by simp)
      · exact h1
    · split
      · exact hw _ (by simp)
      · exact h1

theorem Chip.reaction3_holds (c : Chip) (unit cause : Nat) (pended : Bool) {v : Faults × Boot} (h : Holds v c.watch) :
    Holds v (c.reaction3 unit cause pended).watch := by
  unfold Chip.reaction3
  extract_lets c1 c2 f3 c3 c4 c5
  have h1 : c1.watch = c.watch := by simp only [c1]; split <;> simp
  have hv : Holds v c1.watch := by rw [h1]; exact h
  split
  · exact hv
  · split
    · obtain ⟨t, ht⟩ := c1.setHeld_rest unit true
      have h4 : c4.watch = c3.watch := by simp only [c4]; split <;> simp
      obtain ⟨t', hr, hb⟩ := c4.unitHeldOccurs_rest unit
      obtain ⟨e1, e2⟩ := Prod.mk.inj h4
      obtain ⟨g1, g2⟩ := Prod.mk.inj ht
      simp only [Faults.rest, Prod.mk.injEq] at hr
      obtain ⟨hd, hrd, -⟩ := hr
      refine hv.decide (u := unit) ?_ ?_ ?_
      · show c5.flt.due ++ [unit] = c1.flt.due ++ [unit]
        rw [show c5.flt.due = c4.flt.due from hd, e1]
        show c2.flt.due ++ _ = _
        rw [g1]
      · show c5.flt.resetDue = c1.flt.resetDue
        rw [show c5.flt.resetDue = c4.flt.resetDue from hrd, e1]
        show c2.flt.resetDue = _
        rw [g1]
      · show c5.boot = c1.boot
        rw [hb, e2]
        exact g2
    · exact hv.decide (u := unit) rfl rfl rfl

theorem recWords_length (r : Record) : (recWords r).length = 8 := rfl

theorem Chip.reaction4_watch (c : Chip) (unit cause skind subject : Nat) (d0 d1 : Word) :
    ∃ r : Record, (c.reaction4 unit cause skind subject d0 d1).boot = { c.boot with lastFatal := recWords r, fatalReset := true } ∧
      r.source = c.source unit ∧ r.cause = cause ∧ (c.reaction4 unit cause skind subject d0 d1).flt.due = c.flt.due ∧
      (c.reaction4 unit cause skind subject d0 d1).flt.resetDue = true := by
  cases hf : c.flt.openRecs.find? (fun r => r.source == c.source unit && r.cause == cause && r.skind == skind && r.subject == subject) with
  | some r =>
    have hs := List.find?_some hf
    simp only [Bool.and_eq_true, beq_iff_eq] at hs
    refine ⟨{ r with rseq := c.flt.nextRseq }, ?_, hs.1.1.1, hs.1.1.2, ?_, ?_⟩ <;> simp only [Chip.reaction4, hf]
    rfl
  | none =>
    refine ⟨{ first := c.tb.time, last := c.tb.time, source := c.source unit, cls := bits (c.control unit cause) 9 3
              reaction := bits (c.control unit cause) 0 3, pin := bitOf (c.control unit cause) 4, cause := cause, skind := skind
              subject := subject, detail0 := d0, detail1 := d1, rseq := c.flt.nextRseq }, ?_, rfl, rfl, ?_, ?_⟩ <;>
      simp only [Chip.reaction4, hf]

theorem Chip.react_holds (c : Chip) (unit cause skind subject : Nat) (d0 d1 : Word) (pended : Bool) {v : Faults × Boot} (h : Holds v c.watch) :
    Holds v (c.react unit cause skind subject d0 d1 pended).watch := by
  unfold Chip.react
  extract_lets ctl
  split
  case h_1 => split <;> simpa using h
  case h_2 => split <;> simpa using h
  case h_3 => exact c.reaction3_holds unit cause pended h
  case h_4 =>
    obtain ⟨r, hb, -, -, hd, hr⟩ := c.reaction4_watch unit cause skind subject d0 d1
    refine ⟨h.grows.trans ⟨?_, fun _ => hr, ?_, fun _ => ?_⟩, fun _ h2 => ?_⟩
    · show c.flt.due <+: _
      rw [← hd]
      exact List.prefix_rfl
    · rw [show (c.reaction4 unit cause skind subject d0 d1).watch.2 = (c.reaction4 unit cause skind subject d0 d1).boot from rfl, hb]
      rfl
    · rw [show (c.reaction4 unit cause skind subject d0 d1).watch.2 = (c.reaction4 unit cause skind subject d0 d1).boot from rfl, hb]
      rfl
    · exact absurd (hr.symm.trans h2) (by decide)
  case h_5 => exact h

@[simp] theorem Chip.occurrence_holds (c : Chip) (unit cause skind subject : Nat) (d0 d1 : Word) {v : Faults × Boot} (h : Holds v c.watch) :
    Holds v (c.occurrence unit cause skind subject d0 d1).watch := by
  unfold Chip.occurrence
  split
  · exact h
  · extract_lets s c1
    exact c1.react_holds _ _ _ _ _ _ _ ((c.setSrc_holds unit cause s.occurs h (fun _ => rfl) rfl).of_rest
      (Chip.enterRecord_rest ..) (Chip.enterRecord_reports ..).boot)

@[simp] theorem Chip.raise_holds (c : Chip) (unit cause skind subject : Nat) (d0 d1 : Word) {v : Faults × Boot} (h : Holds v c.watch) :
    Holds v (c.raise unit cause skind subject d0 d1).watch := c.occurrence_holds _ _ _ _ _ _ h

@[simp] theorem Chip.setCond_holds (c : Chip) (unit cause : Nat) (on : Bool) (skind subject : Nat) (d0 : Word) {v : Faults × Boot}
    (h : Holds v c.watch) : Holds v (c.setCond unit cause on skind subject d0).watch := by
  unfold Chip.setCond
  extract_lets s c1
  have h1 : Holds v c1.watch := c.setSrc_holds _ _ _ h (fun hp => hp) rfl
  split
  · exact h
  · split
    · exact h
    · split
      · exact c1.occurrence_holds _ _ _ _ _ _ h1
      · exact h1

@[simp] theorem Chip.arrive_watch (c : Chip) (inp : Nat) (p : Packet) (pool : Bool) : (c.arrive inp p pool).watch = c.watch := by
  simp [Chip.arrive]
@[simp] theorem Chip.inject_watch (c : Chip) (h : Nat) (p : Packet) : (c.inject h p).watch = c.watch := by simp [Chip.inject]
@[simp] theorem Chip.openHeld_watch (c : Chip) (e : HeldEnt) : (c.openHeld e).watch = c.watch := by unfold Chip.openHeld; split <;> simp
@[simp] theorem Chip.trigRelease_watch (c : Chip) (n : Nat) : (c.trigRelease n).watch = c.watch := by
  unfold Chip.trigRelease; split <;> simp
@[simp] theorem Chip.trigAdd_holds (c : Chip) (n k : Nat) {v : Faults × Boot} (hw : Holds v c.watch) :
    Holds v (c.trigAdd n k).watch := by
  unfold Chip.trigAdd
  split
  · exact hw
  · dsimp only
    rw [Chip.trigRelease_watch]
    split
    · exact hw
    · exact Chip.raise_holds _ _ _ _ _ _ _ hw
@[simp] theorem Chip.advance_holds (c : Chip) (d : Decided) (k : Nat) {v : Faults × Boot} (hw : Holds v c.watch) :
    Holds v (c.advance d k).watch := by
  unfold Chip.advance
  repeat' first | simp [hw] | assumption | split | refine foldl_holds (fun _ _ hw => ?_) _ ?_
@[simp] theorem Chip.writeCqe_watch (c : Chip) (h cqn : Nat) (q : Queue) (p : Completion) : (c.writeCqe h cqn q p).watch = c.watch := by
  simp [Chip.writeCqe, apply_ite Chip.watch]
@[simp] theorem Chip.loseCompletions_holds (c : Chip) (h cqn : Nat) (d : Decided) (k : Nat) {v : Faults × Boot} (hw : Holds v c.watch) :
    Holds v (c.loseCompletions h cqn d k).watch := by
  unfold Chip.loseCompletions
  repeat' first | (simp [hw]; done) | assumption | (dsimp only; split)
@[simp] theorem Chip.dropPosted_watch (c : Chip) (h qn : Nat) : (c.dropPosted h qn).watch = c.watch := by simp [Chip.dropPosted]
@[simp] theorem Chip.discardHeld_watch (c : Chip) (p : HeldEnt → Bool) : (c.discardHeld p).watch = c.watch := by simp [Chip.discardHeld]
@[simp] theorem Chip.cqErrorBound_holds (c : Chip) (h cqn qn : Nat) (q : Queue) {v : Faults × Boot} (hw : Holds v c.watch) :
    Holds v (c.cqErrorBound h cqn qn q).watch := by
  unfold Chip.cqErrorBound
  repeat' first | (simp [hw]; done) | assumption | (dsimp only; split) | split
@[simp] theorem Chip.cqError_holds (c : Chip) (h cqn cause : Nat) {v : Faults × Boot} (hw : Holds v c.watch) :
    Holds v (c.cqError h cqn cause).watch := by
  unfold Chip.cqError
  repeat' first | (simp [hw]; done) | assumption | (dsimp only; split) | split | refine foldl_holds (fun _ _ hw => ?_) _ ?_
@[simp] theorem Chip.loseOne_watch (c : Chip) (h cqn fn : Nat) : (c.loseOne h cqn fn).watch = c.watch := by simp [Chip.loseOne]
@[simp] theorem Chip.takeBacklog_holds (c : Chip) (h cqn : Nat) (q : Queue) (d : Decided) (p : Completion) {v : Faults × Boot} (hw : Holds v c.watch) :
    Holds v (c.takeBacklog h cqn q d p).watch := by
  unfold Chip.takeBacklog
  repeat' first | (simp [hw]; done) | assumption | split
@[simp] theorem Chip.deliver_holds (c : Chip) (h cqn : Nat) (d : Decided) (p : Completion) {v : Faults × Boot} (hw : Holds v c.watch) :
    Holds v (c.deliver h cqn d p).watch := by
  unfold Chip.deliver
  repeat' first | (simp [hw]; done) | assumption | (dsimp only; split) | split
@[simp] theorem Chip.complete_holds (c : Chip) (d : Decided) (p : Completion) {v : Faults × Boot} (hw : Holds v c.watch) :
    Holds v (c.complete d p).watch := by
  unfold Chip.complete
  repeat' first | (simp [hw]; done) | assumption | (dsimp only; split)
@[simp] theorem Chip.flushOne_holds (c : Chip) (h qn : Nat) (q : Queue) (p : Completion) {v : Faults × Boot} (hw : Holds v c.watch) :
    Holds v (c.flushOne h qn q p).watch := by
  unfold Chip.flushOne
  repeat' simp [hw]
@[simp] theorem Chip.flushEntries_holds (c : Chip) (h qn : Nat) (read : List Entry) (z0 : Nat) {v : Faults × Boot} (hw : Holds v c.watch) :
    Holds v (c.flushEntries h qn read z0).watch := by
  induction z0 generalizing c h qn read with
  | zero => exact hw
  | succ n ih =>
    unfold Chip.flushEntries
    repeat' first | simp [hw] | split
    exact ih _ _ _ _ (by simp [hw])
@[simp] theorem Chip.flushQueue_holds (c : Chip) (h qn : Nat) {v : Faults × Boot} (hw : Holds v c.watch) :
    Holds v (c.flushQueue h qn).watch := by
  unfold Chip.flushQueue
  repeat' simp [hw]
@[simp] theorem Chip.flushHeld_holds (c : Chip) (h fn qn : Nat) (cqn : Nat) {v : Faults × Boot} (hw : Holds v c.watch) :
    Holds v (c.flushHeld h fn qn cqn).watch := by
  unfold Chip.flushHeld
  repeat' first | (simp [hw]; done) | assumption | split | refine foldl_holds (fun _ _ hw => ?_) _ ?_
@[simp] theorem Chip.flushReceives_holds (c : Chip) (h qn : Nat) {v : Faults × Boot} (hw : Holds v c.watch) :
    Holds v (c.flushReceives h qn).watch := by
  unfold Chip.flushReceives
  repeat' first | (simp [hw]; done) | assumption | (dsimp only; split) | split | refine foldl_holds (fun _ _ hw => ?_) _ ?_
@[simp] theorem Chip.queueError_holds (c : Chip) (h qn cause status : Nat) {v : Faults × Boot} (hw : Holds v c.watch) :
    Holds v (c.queueError h qn cause status).watch := by
  unfold Chip.queueError
  split
  · exact hw
  · split
    · exact hw
    · extract_lets c1 c2
      have h1 : Holds v c1.watch := by simp only [c1, Chip.setQState_watch]; exact hw
      have h2 : Holds v c2.watch := by simp only [c2]; split <;> simp [h1]
      exact Chip.flushQueue_holds _ _ _ (Chip.flushReceives_holds _ _ _ (Chip.flushHeld_holds _ _ _ _ _ h2))
@[simp] theorem Chip.drainFailed_holds (c : Chip) (h qn : Nat) (z0 : Nat) {v : Faults × Boot} (hw : Holds v c.watch) :
    Holds v (c.drainFailed h qn z0).watch := by
  induction z0 generalizing c h qn with
  | zero => exact hw
  | succ n ih =>
    unfold Chip.drainFailed
    repeat' first | exact hw | split
    exact ih _ _ _ (by simp [hw])
@[simp] theorem Chip.closePos_holds (c : Chip) (h qn pos : Nat) {v : Faults × Boot} (hw : Holds v c.watch) :
    Holds v (c.closePos h qn pos).watch := by
  unfold Chip.closePos
  repeat' simp [hw]
@[simp] theorem Chip.askPage_holds (c : Chip) (fn page : Nat) {v : Faults × Boot} (hw : Holds v c.watch) :
    Holds v (c.askPage fn page).1.watch := by
  unfold Chip.askPage
  repeat' first | (simp [hw]; done) | assumption | (dsimp only; split)
@[simp] theorem Chip.translateAll_holds (c : Chip) (fn : Nat) (z0 : List (Nat × Nat)) {v : Faults × Boot} (hw : Holds v c.watch) :
    Holds v (c.translateAll fn z0).1.watch := by
  induction z0 generalizing c with
  | nil => exact hw
  | cons x r ih =>
    unfold Chip.translateAll
    extract_lets asked
    have h0 : Holds v asked.1.watch := by
      show Holds v (match c.cachedPage? fn (pageOf x.1) with | some t => (c, some t) | none => c.askPage fn (pageOf x.1)).1.watch
      split <;> simp [hw]
    clear_value asked
    split
    · exact h0
    · split
      · rename_i e2; exact pair_holds e2 (ih _ h0)
      · rename_i e2; exact pair_holds e2 (ih _ h0)
@[simp] theorem Chip.translate_holds (c : Chip) (fn : Nat) (segs : List (Nat × Nat)) {v : Faults × Boot} (hw : Holds v c.watch) :
    Holds v (c.translate fn segs).1.watch := by
  unfold Chip.translate
  repeat' first | simp [hw] | assumption | split
@[simp] theorem Chip.dmaSegments_watch (c : Chip) (h fn : Nat) (z0 : List (Nat × Nat)) (z1 : List Byte) : (c.dmaSegments h fn z0 z1).watch = c.watch := by
  induction z0 generalizing c h fn z1 <;> unfold Chip.dmaSegments <;> repeat' first | simp | split | simp_all
@[simp] theorem Chip.freezeRoutes_watch (c : Chip) : (c.freezeRoutes).watch = c.watch := by simp [Chip.freezeRoutes]
@[simp] theorem Chip.putChan_watch (c : Chip) (k : Nat) (x : Chan) : (c.putChan k x).watch = c.watch := by simp [Chip.putChan]
@[simp] theorem Chip.updChan_watch (c : Chip) (k : Nat) (f : Chan → Chan) : (c.updChan k f).watch = c.watch := by simp [Chip.updChan]
@[simp] theorem Chip.putDest_watch (c : Chip) (chip : Nat) (d : Dest) : (c.putDest chip d).watch = c.watch := by simp [Chip.putDest]
@[simp] theorem Chip.policerDebit_watch (c : Chip) (fn cells : Nat) : (c.policerDebit fn cells).watch = c.watch := by
  unfold Chip.policerDebit; split <;> simp
@[simp] theorem Chip.countInjected_watch (c : Chip) (fn : Option Nat) (p : Packet) : (c.countInjected fn p).watch = c.watch := by
  unfold Chip.countInjected
  repeat' first | simp | split
@[simp] theorem Chip.sendRequest_watch (c : Chip) (k : Nat) (fn : Option Nat) (p : Packet) : (c.sendRequest k fn p).watch = c.watch := by
  unfold Chip.sendRequest
  repeat' first | simp | split
@[simp] theorem Chip.transmit_watch (c : Chip) (k : Nat) (fn : Option Nat) (p : Packet) : (c.transmit k fn p).watch = c.watch := by
  unfold Chip.transmit
  repeat' simp
@[simp] theorem Chip.pump_watch (c : Chip) (k : Nat) (z0 : Nat) : (c.pump k z0).watch = c.watch := by
  induction z0 generalizing c k <;> unfold Chip.pump <;> repeat' first | (simp; done) | (dsimp only; split) | split | simp_all
@[simp] theorem Chip.sendSync_watch (c : Chip) (k : Nat) : (c.sendSync k).watch = c.watch := by
  unfold Chip.sendSync; (repeat' split) <;> simp
@[simp] theorem Chip.startSync_watch (c : Chip) (k : Nat) : (c.startSync k).watch = c.watch := by simp [Chip.startSync]
@[simp] theorem Chip.dropOffer_watch (c : Chip) (index : Nat) : (c.dropOffer index).watch = c.watch := by simp [Chip.dropOffer]
@[simp] theorem Chip.endOffer_holds (c : Chip) (index status length : Nat) {v : Faults × Boot} (hw : Holds v c.watch) :
    Holds v (c.endOffer index status length).watch := by
  unfold Chip.endOffer
  split
  · exact hw
  · next o _ =>
    extract_lets h c1 cqn p c2 c3
    have h1 : Holds v c1.watch := by simpa [c1] using hw
    have h2 : Holds v c2.watch := by simp only [c2]; split <;> simp [h1]
    have h3 : Holds v c3.watch := by simp [c3, h2]
    split
    · exact Chip.queueError_holds _ _ _ _ _ h3
    · exact h3
@[simp] theorem Chip.finishOp_holds (c : Chip) (k : Nat) (o : SendOp) (status : Nat) {v : Faults × Boot} (hw : Holds v c.watch) :
    Holds v (c.finishOp k o status).watch := by
  unfold Chip.finishOp
  extract_lets h tr free c1 cqn c2 c3
  have h1 : Holds v c1.watch := by simp only [c1]; split <;> simpa using hw
  have h2 : Holds v c2.watch := by simp only [c2]; split <;> simp [h1]
  have h3 : Holds v c3.watch := by simp [c3, h2]
  clear_value c3
  repeat' first | exact hw | exact h3 | exact Chip.queueError_holds _ _ _ _ _ h3 | exact Chip.closePos_holds _ _ _ _ hw | split
  all_goals simp [hw]
@[simp] theorem Chip.deliverOps_holds (c : Chip) (k : Nat) (z0 : Nat) {v : Faults × Boot} (hw : Holds v c.watch) :
    Holds v (c.deliverOps k z0).watch := by
  induction z0 generalizing c k with
  | zero => exact hw
  | succ n ih =>
    unfold Chip.deliverOps
    repeat' first | exact hw | split
    exact ih _ _ (by simp [hw])
@[simp] theorem Chip.deliverChan_holds (c : Chip) (k : Nat) {v : Faults × Boot} (hw : Holds v c.watch) :
    Holds v (c.deliverChan k).watch := by
  unfold Chip.deliverChan
  repeat' simp [hw]
@[simp] theorem Chip.failUnsent_holds (c : Chip) (k status : Nat) (o : SendOp) {v : Faults × Boot} (hw : Holds v c.watch) :
    Holds v (c.failUnsent k status o).watch := by
  unfold Chip.failUnsent
  repeat' first | (simp [hw]; done) | assumption | (dsimp only; split) | split
@[simp] theorem Chip.failWaiting_holds (c : Chip) (k status : Nat) {v : Faults × Boot} (hw : Holds v c.watch) :
    Holds v (c.failWaiting k status).watch := by
  unfold Chip.failWaiting
  split
  · exact hw
  · exact Chip.deliverChan_holds _ _ (foldl_holds (fun _ _ h => Chip.failUnsent_holds _ _ _ _ h) _ (by simpa using hw))
@[simp] theorem Chip.noRoute_holds (c : Chip) (k : Nat) (sending : SendOp → Bool) {v : Faults × Boot} (hw : Holds v c.watch) :
    Holds v (c.noRoute k sending).watch := by
  unfold Chip.noRoute
  repeat' simp [hw]
@[simp] theorem Chip.runChan_holds (c : Chip) (k : Nat) {v : Faults × Boot} (hw : Holds v c.watch) :
    Holds v (c.runChan k).watch := by
  unfold Chip.runChan
  repeat' first | (simp [hw]; done) | assumption | (dsimp only; split) | split
@[simp] theorem Chip.contextOut_watch (c : Chip) (ctx : CtxKey) : (c.contextOut ctx).watch = c.watch := by
  unfold Chip.contextOut
  repeat' first | (simp; done) | split
  cases c.queue? _ _ <;> simp
@[simp] theorem Chip.evict_watch (c : Chip) (v : CtxKey) : (c.evict v).watch = c.watch := by
  unfold Chip.evict
  repeat' first | (simp; done) | (dsimp only; split)
@[simp] theorem Chip.install_watch (c : Chip) (ctx : CtxKey) : (c.install ctx).watch = c.watch := by simp [Chip.install]
@[simp] theorem Chip.touch_watch (c : Chip) (ctx : CtxKey) : (c.touch ctx).watch = c.watch := by
  unfold Chip.touch; (repeat' split) <;> simp
@[simp] theorem Chip.failOps_holds (c : Chip) (k status : Nat) {v : Faults × Boot} (hw : Holds v c.watch) :
    Holds v (c.failOps k status).watch := by
  unfold Chip.failOps
  split
  · exact hw
  · refine Chip.deliverChan_holds _ _ (foldl_holds (fun _ _ h => Chip.finishOp_holds _ _ _ _ h) _ ?_)
    rw [Chip.updChan_watch]
    exact foldl_holds (fun _ _ h => by simpa using Chip.endOffer_holds _ _ _ _ h) _ hw
@[simp] theorem Chip.chanError_holds (c : Chip) (k : Nat) {v : Faults × Boot} (hw : Holds v c.watch) :
    Holds v (c.chanError k).watch := by
  unfold Chip.chanError
  repeat' first | (simp [hw]; done) | assumption | (dsimp only; split) | split | refine foldl_holds (fun _ _ hw => ?_) _ ?_
@[simp] theorem Chip.chanFence_holds (c : Chip) (k : Nat) {v : Faults × Boot} (hw : Holds v c.watch) :
    Holds v (c.chanFence k).watch := by
  unfold Chip.chanFence
  repeat' first | (simp [hw]; done) | assumption | split
@[simp] theorem Chip.chanUnfence_watch (c : Chip) (k : Nat) : (c.chanUnfence k).watch = c.watch := by simp [Chip.chanUnfence]
@[simp] theorem Chip.enqueueOp_holds (c : Chip) (k : Nat) (o : SendOp) {v : Faults × Boot} (hw : Holds v c.watch) :
    Holds v (c.enqueueOp k o).watch := by
  unfold Chip.enqueueOp
  repeat' first | (simp [hw]; done) | assumption | (dsimp only; split) | split
@[simp] theorem Chip.putFifo_watch (c : Chip) (i : Nat) (f : Fifo) : (c.putFifo i f).watch = c.watch := by simp [Chip.putFifo]
@[simp] theorem Chip.mgmtDiscards_watch (c : Chip) (h n : Nat) : (c.mgmtDiscards h n).watch = c.watch := by simp [Chip.mgmtDiscards]
@[simp] theorem Chip.emptyMgmt_watch (c : Chip) (h : Nat) : (c.emptyMgmt h).watch = c.watch := by simp [Chip.emptyMgmt]
@[simp] theorem Chip.updLane_watch (c : Chip) (n : Nat) (f : Lane → Lane) : (c.updLane n f).watch = c.watch := by simp [Chip.updLane]
@[simp] theorem Chip.sendParity_watch (c : Chip) (n : Nat) : (c.sendParity n).watch = c.watch := by
  simp [Chip.sendParity, apply_ite Chip.watch]
@[simp] theorem Chip.sendSlot_watch (c : Chip) (n : Nat) (b : PortBlock) : (c.sendSlot n b).watch = c.watch := by simp [Chip.sendSlot]
@[simp] theorem Chip.sendLane_watch (c : Chip) (n : Nat) (b : PortBlock) : (c.sendLane n b).watch = c.watch := by
  simp [Chip.sendLane, apply_ite Chip.watch]
@[simp] theorem Chip.sendPort_watch (c : Chip) (p lanes : Nat) (l : List PortBlock) : (c.sendPort p lanes l).watch = c.watch := by
  simp [Chip.sendPort]
@[simp] theorem Chip.updLink_watch (c : Chip) (p : Nat) (f : Link → Link) : (c.updLink p f).watch = c.watch := by simp [Chip.updLink]
@[simp] theorem Chip.updRx_watch (c : Chip) (p : Nat) (f : RxSide → RxSide) : (c.updRx p f).watch = c.watch := by simp [Chip.updRx]
@[simp] theorem Chip.updTx_watch (c : Chip) (p : Nat) (f : TxSide → TxSide) : (c.updTx p f).watch = c.watch := by simp [Chip.updTx]
@[simp] theorem Chip.updPortT_watch (c : Chip) (p : Nat) (f : Port → Port) : (c.updPortT p f).watch = c.watch := by simp [Chip.updPortT]
@[simp] theorem Chip.streamOut_watch (c : Chip) (port : Nat) (l : List Byte) : (c.streamOut port l).watch = c.watch := by
  simp [Chip.streamOut]
@[simp] theorem Chip.padBlock_watch (c : Chip) (port : Nat) : (c.padBlock port).watch = c.watch := by
  simp [Chip.padBlock, apply_ite Chip.watch]
@[simp] theorem Chip.sendLink_watch (c : Chip) (port : Nat) (s : Sent) (rpl : Bool) : (c.sendLink port s rpl).watch = c.watch := by
  simp [Chip.sendLink]
@[simp] theorem Chip.resend_watch (c : Chip) (port : Nat) (s : Sent) : (c.resend port s).watch = c.watch := by simp [Chip.resend]
@[simp] theorem Chip.noteStamp_watch (c : Chip) (port : Nat) (l : Lcb) : (c.noteStamp port l).watch = c.watch := by
  unfold Chip.noteStamp; split <;> simp
@[simp] theorem Chip.sendLcb_watch (c : Chip) (port : Nat) : (c.sendLcb port).watch = c.watch := by simp [Chip.sendLcb]
@[simp] theorem Chip.lcbNow_watch (c : Chip) (port : Nat) : (c.lcbNow port).watch = c.watch := by unfold Chip.lcbNow; split <;> simp
@[simp] theorem Chip.decideXoff_watch (c : Chip) (p : Nat) : (c.decideXoff p).watch = c.watch := by
  simp [Chip.decideXoff, apply_ite Chip.watch]
@[simp] theorem Chip.freeCells_watch (c : Chip) (p vc n : Nat) (pool : Bool) : (c.freeCells p vc n pool).watch = c.watch := by
  unfold Chip.freeCells; split <;> simp
@[simp] theorem Chip.replayAll_watch (c : Chip) (port : Nat) : (c.replayAll port).watch = c.watch := by simp [Chip.replayAll]
@[simp] theorem Chip.linkEnd_watch (c : Chip) (port : Nat) (p : Packet) (stomped : Bool) : (c.linkEnd port p stomped).watch = c.watch := by
  unfold Chip.linkEnd
  repeat' first | (simp; done) | (dsimp only; split) | split
@[simp] theorem Chip.routerDrop_holds (c : Chip) (port : Nat) (k : Ctr) (cause : Nat) {v : Faults × Boot} (hw : Holds v c.watch) :
    Holds v (c.routerDrop port k cause).watch := by
  unfold Chip.routerDrop
  repeat' simp [hw]
@[simp] theorem Chip.putSched_watch (c : Chip) (out : Nat) (s : OutSched) : (c.putSched out s).watch = c.watch := by
  simp [Chip.putSched]
@[simp] theorem Chip.refreshOut_watch (c : Chip) (out : Nat) : (c.refreshOut out).watch = c.watch := by
  simp [Chip.refreshOut, apply_ite Chip.watch]
@[simp] theorem Chip.leaveBuffer_watch (c : Chip) (w : Waiting) : (c.leaveBuffer w).watch = c.watch := by
  simp [Chip.leaveBuffer, apply_ite Chip.watch]
@[simp] theorem Chip.enqueue_watch (c : Chip) (w : Waiting) : (c.enqueue w).watch = c.watch := by simp [Chip.enqueue]
@[simp] theorem Chip.enqueueTree_watch (c : Chip) (out : Nat) (p : Packet) : (c.enqueueTree out p).watch = c.watch := by
  simp [Chip.enqueueTree]
@[simp] theorem Chip.draw_watch (c : Chip) (fromLocal : Bool) (dstGroup : Nat) : (c.draw fromLocal dstGroup).1.watch = c.watch := by
  unfold Chip.draw
  repeat' first | (simp; done) | (dsimp only; split)
@[simp] theorem Chip.choose_watch (c : Chip) (inp : Nat) (p : Packet) (l : List Cand) (positional : Bool) : (c.choose inp p l positional).1.watch = c.watch := by
  unfold Chip.choose
  repeat' first | (simp; done) | (dsimp only; split) | split
@[simp] theorem Chip.routeByTables_watch (c : Chip) (inp : Nat) (p : Packet) : (c.routeByTables inp p).1.watch = c.watch := by
  unfold Chip.routeByTables
  repeat' first | (simp; done) | (dsimp only; split) | split
@[simp] theorem Chip.discardWaiting_watch (c : Chip) (w : Waiting) : (c.discardWaiting w).watch = c.watch := by
  unfold Chip.discardWaiting; split <;> simp
@[simp] theorem Chip.reroute_holds (c : Chip) (w : Waiting) {v : Faults × Boot} (hw : Holds v c.watch) :
    Holds v (c.reroute w).watch := by
  unfold Chip.reroute
  split
  · simp [hw]
  · dsimp only
    split <;> rename_i e <;> have h1 := pair_watch e (Chip.routeByTables_watch ..)
    · simp [h1, hw]
    · simp [h1, hw]
    · rw [h1]; exact hw
@[simp] theorem Chip.dropSending_watch (c : Chip) (port : Nat) : (c.dropSending port).watch = c.watch := by simp [Chip.dropSending]
@[simp] theorem Chip.rerouteAll_holds (c : Chip) (port : Nat) {v : Faults × Boot} (hw : Holds v c.watch) :
    Holds v (c.rerouteAll port).watch := by
  unfold Chip.rerouteAll
  dsimp only
  rw [Chip.dropSending_watch]
  refine foldl_holds (fun d w hd => ?_) _ hw
  split
  · simp [hd]
  · exact Chip.reroute_holds _ _ hd
@[simp] theorem Chip.endOut_watch (c : Chip) (out : Nat) (p : Packet) (bad : Bool) : (c.endOut out p bad).watch = c.watch := by
  unfold Chip.endOut; split <;> simp
@[simp] theorem Chip.reclock_watch (c : Chip) (out : Nat) : (c.reclock out).watch = c.watch := by unfold Chip.reclock; split <;> simp
@[simp] theorem Chip.endSpoiled_holds (c : Chip) (port : Nat) (w : Waiting) (p : Packet) {v : Faults × Boot} (hw : Holds v c.watch) :
    Holds v (c.endSpoiled port w p).watch := by
  unfold Chip.endSpoiled
  repeat' simp [hw]
@[simp] theorem Chip.abandonProgress_holds (c : Chip) (port : Nat) (p : Packet) {v : Faults × Boot} (hw : Holds v c.watch) :
    Holds v (c.abandonProgress port p).watch := by
  unfold Chip.abandonProgress
  repeat' first | (simp [hw]; done) | assumption | split | refine foldl_holds (fun _ _ hw => ?_) _ ?_
@[simp] theorem Chip.linkReset_holds (c : Chip) (port : Nat) {v : Faults × Boot} (hw : Holds v c.watch) :
    Holds v (c.linkReset port).watch := by
  unfold Chip.linkReset
  repeat' first | (simp [hw]; done) | assumption | (dsimp only; split) | split
@[simp] theorem Chip.leaveActive_holds (c : Chip) (p : Nat) {v : Faults × Boot} (hw : Holds v c.watch) :
    Holds v (c.leaveActive p).watch := by
  exact Chip.setCond_holds _ _ _ _ _ _ _ (Chip.rerouteAll_holds _ _ (by simp [hw]))
@[simp] theorem Chip.huntAll_watch (c : Chip) (p : Nat) : (c.huntAll p).watch = c.watch := by simp [Chip.huntAll]
@[simp] theorem Chip.toDetect_holds (c : Chip) (p reason : Nat) {v : Faults × Boot} (hw : Holds v c.watch) :
    Holds v (c.toDetect p reason).watch := by
  unfold Chip.toDetect
  repeat' first | (simp [hw]; done) | assumption | (dsimp only; split)
@[simp] theorem Chip.blockRetrain_holds (c : Chip) (p : Nat) {v : Faults × Boot} (hw : Holds v c.watch) :
    Holds v (c.blockRetrain p).watch := by
  unfold Chip.blockRetrain
  repeat' first | simp [hw] | assumption | split
@[simp] theorem Chip.endKeyOffers_holds (c : Chip) (key : Nat) {v : Faults × Boot} (hw : Holds v c.watch) :
    Holds v (c.endKeyOffers key).watch := by
  unfold Chip.endKeyOffers
  repeat' first | simp [hw] | assumption | split | refine foldl_holds (fun _ _ hw => ?_) _ ?_
@[simp] theorem Chip.updGroup_watch (c : Chip) (g : Nat) (f : Group → Group) : (c.updGroup g f).watch = c.watch := by
  simp [Chip.updGroup]
@[simp] theorem Chip.giveNewPlaces_watch (c : Chip) (z0 : List Nat) (z1 : List Nat) : (c.giveNewPlaces z0 z1).watch = c.watch := by
  induction z0 generalizing c z1 <;> unfold Chip.giveNewPlaces <;> repeat' first | (simp; done) | (dsimp only; split) | split | simp_all
@[simp] theorem Chip.nextExportGen_watch (c : Chip) (n : Nat) : (c.nextExportGen n).watch = c.watch := by simp [Chip.nextExportGen]
@[simp] theorem Chip.withdrawExport_holds (c : Chip) (size n : Nat) {v : Faults × Boot} (hw : Holds v c.watch) :
    Holds v (c.withdrawExport size n).watch := by
  unfold Chip.withdrawExport
  repeat' first | (simp [hw]; done) | assumption | (dsimp only; split)
@[simp] theorem Chip.withdrawExports_holds (c : Chip) (size : Nat) (l : List Nat) {v : Faults × Boot} (hw : Holds v c.watch) :
    Holds v (c.withdrawExports size l).watch := by
  unfold Chip.withdrawExports
  repeat' first | simp [hw] | assumption | split | refine foldl_holds (fun _ _ hw => ?_) _ ?_
@[simp] theorem Chip.withdrawRanges_watch (c : Chip) (size : Nat) (l : List Nat) : (c.withdrawRanges size l).watch = c.watch := by
  simp [Chip.withdrawRanges]
@[simp] theorem Chip.withdraw_holds (c : Chip) {v : Faults × Boot} (hw : Holds v c.watch) :
    Holds v (c.withdraw).watch := by
  unfold Chip.withdraw
  repeat' simp [hw]
@[simp] theorem Chip.resize_watch (c : Chip) (size : Nat) : (c.resize size).watch = c.watch := by
  simp [Chip.resize]
@[simp] theorem Chip.migrate_watch (c : Chip) (g : Nat) : (c.migrate g).watch = c.watch := by
  unfold Chip.migrate Chip.moveOut Chip.shrink
  rw [Chip.giveNewPlaces_watch, Chip.resize_watch, Chip.updGroup_watch]
@[simp] theorem Chip.beginRetire_holds (c : Chip) (g : Nat) {v : Faults × Boot} (hw : Holds v c.watch) :
    Holds v (c.beginRetire g).watch := by
  unfold Chip.beginRetire
  repeat' first | (simp [hw]; done) | assumption | split
@[simp] theorem Chip.takeUnexp_watch (c : Chip) (k : Nat) (m : BitVec 32) : (c.takeUnexp k m).watch = c.watch := by
  simp [Chip.takeUnexp]
@[simp] theorem Chip.updMsg_watch (c : Chip) (k : Nat) (m : BitVec 32) (f : RxMsg → RxMsg) : (c.updMsg k m f).watch = c.watch := by
  simp [Chip.updMsg]
@[simp] theorem Chip.sendClose_holds (c : Chip) (k fn id offset : Nat) (key : BitVec 32) {v : Faults × Boot} (hw : Holds v c.watch) :
    Holds v (c.sendClose k fn id offset key).watch := by
  unfold Chip.sendClose
  repeat' first | (simp [hw]; done) | assumption | split
@[simp] theorem Chip.abandonRecord_watch (c : Chip) (k : Nat) (m : BitVec 32) : (c.abandonRecord k m).watch = c.watch := by
  simp [Chip.abandonRecord]
@[simp] theorem Chip.discardUnexp_holds (c : Chip) (u : Unexp) {v : Faults × Boot} (hw : Holds v c.watch) :
    Holds v (c.discardUnexp u).watch := by
  unfold Chip.discardUnexp
  repeat' first | (simp [hw]; done) | assumption | (dsimp only; split)
@[simp] theorem Chip.conReturns_holds (c : Chip) {v : Faults × Boot} (hw : Holds v c.watch) :
    Holds v (c.conReturns).watch := by
  unfold Chip.conReturns
  repeat' first | simp [hw] | assumption | split | refine foldl_holds (fun _ _ hw => ?_) _ ?_
@[simp] theorem Chip.updColl_watch (c : Chip) (m : Nat) (s : BitVec 32) (f : COp → COp) : (c.updColl m s f).watch = c.watch := by
  simp [Chip.updColl]
@[simp] theorem Chip.sendTree_watch (c : Chip) (port : Nat) (up : Bool) (o : COp) (opcode flags seg pruned : Nat) (payload : List Byte) :
    (c.sendTree port up o opcode flags seg pruned payload).watch = c.watch := by simp [Chip.sendTree, apply_ite Chip.watch]
@[simp] theorem Chip.sendUp_watch (c : Chip) (o : COp) (opcode flags seg : Nat) (payload : List Byte) :
    (c.sendUp o opcode flags seg payload).watch = c.watch := by unfold Chip.sendUp; split <;> simp
@[simp] theorem Chip.sendDown_watch (c : Chip) (o : COp) (opcode flags seg pruned : Nat) (payload : List Byte) :
    (c.sendDown o opcode flags seg pruned payload).watch = c.watch := by simp [Chip.sendDown]
@[simp] theorem Chip.completePost_holds (c : Chip) (o : COp) (x : CPost) (status : Nat) {v : Faults × Boot} (hw : Holds v c.watch) :
    Holds v (c.completePost o x status).watch := by
  unfold Chip.completePost
  repeat' first | (simp [hw]; done) | assumption | (dsimp only; split)
@[simp] theorem Chip.flushPosts_holds (c : Chip) (m : Nat) (s : BitVec 32) {v : Faults × Boot} (hw : Holds v c.watch) :
    Holds v (c.flushPosts m s).watch := by
  unfold Chip.flushPosts
  repeat' first | (simp [hw]; done) | assumption | split | refine foldl_holds (fun _ _ hw => ?_) _ ?_
@[simp] theorem Chip.settleColl_holds (c : Chip) (m : Nat) {v : Faults × Boot} (hw : Holds v c.watch) :
    Holds v (c.settleColl m).watch := by
  unfold Chip.settleColl
  repeat' first | (simp [hw]; done) | assumption | split | refine foldl_holds (fun _ _ hw => ?_) _ ?_
@[simp] theorem Chip.recordAbort_watch (c : Chip) (o : COp) (status : Nat) : (c.recordAbort o status).watch = c.watch := by
  unfold Chip.recordAbort; split <;> simp
@[simp] theorem Chip.abortNow_watch (c : Chip) (m : Nat) (s : BitVec 32) (status : Nat) : (c.abortNow m s status).watch = c.watch := by
  unfold Chip.abortNow; (repeat' split) <;> simp
@[simp] theorem Chip.abortSelf_watch (c : Chip) (m : Nat) (s : BitVec 32) (status : Nat) : (c.abortSelf m s status).watch = c.watch := by
  unfold Chip.abortSelf; split <;> simp
@[simp] theorem Chip.collFences_watch (c : Chip) (m : Nat) (s : BitVec 32) : (c.collFences m s).watch = c.watch := by
  unfold Chip.collFences
  repeat' first | (simp; done) | (dsimp only; split) | split
@[simp] theorem Chip.collContribute_watch (c : Chip) (m : Nat) (s : BitVec 32) : (c.collContribute m s).watch = c.watch := by
  unfold Chip.collContribute
  repeat' first | (simp; done) | (dsimp only; split) | split
@[simp] theorem Chip.collArrive_watch (c : Chip) (m : Nat) (s : BitVec 32) : (c.collArrive m s).watch = c.watch := by
  unfold Chip.collArrive
  repeat' first | (simp; done) | (dsimp only; split) | split
@[simp] theorem Chip.collDone_watch (c : Chip) (m : Nat) (s : BitVec 32) : (c.collDone m s).watch = c.watch := by
  unfold Chip.collDone
  repeat' first | (simp; done) | (dsimp only; split) | split
@[simp] theorem Chip.collDecide_watch (c : Chip) (m : Nat) (s : BitVec 32) : (c.collDecide m s).watch = c.watch := by
  unfold Chip.collDecide
  repeat' first | (simp; done) | (dsimp only; split) | split
@[simp] theorem Chip.collectiveTimeout_holds (c : Chip) (m : Nat) (s : BitVec 32) {v : Faults × Boot} (hw : Holds v c.watch) :
    Holds v (c.collectiveTimeout m s).watch := by
  unfold Chip.collectiveTimeout
  repeat' first | (simp [hw]; done) | assumption | (dsimp only; split) | split
@[simp] theorem Chip.setWinStatus_watch (c : Chip) (fn slot bit : Nat) : (c.setWinStatus fn slot bit).watch = c.watch := by
  simp [Chip.setWinStatus]
@[simp] theorem Chip.keepLines_watch (c : Chip) (o : BrOp) : (c.keepLines o).watch = c.watch := by simp [Chip.keepLines]
@[simp] theorem Chip.winWriteError_holds (c : Chip) (o : BrOp) {v : Faults × Boot} (hw : Holds v c.watch) :
    Holds v (c.winWriteError o).watch := by
  unfold Chip.winWriteError
  repeat' simp [hw]
@[simp] theorem Chip.winOutcome_holds (c : Chip) (o : BrOp) (status : Nat) {v : Faults × Boot} (hw : Holds v c.watch) :
    Holds v (c.winOutcome o status).watch := by
  unfold Chip.winOutcome
  repeat' first | (simp [hw]; done) | assumption | split
@[simp] theorem Chip.dropBrOp_watch (c : Chip) (num : Nat) : (c.dropBrOp num).watch = c.watch := by simp [Chip.dropBrOp]
@[simp] theorem Chip.endBrOp_holds (c : Chip) (o : BrOp) (status : Nat) {v : Faults × Boot} (hw : Holds v c.watch) :
    Holds v (c.endBrOp o status).watch := by
  unfold Chip.endBrOp
  repeat' first | (simp [hw]; done) | assumption | (dsimp only; split) | split
@[simp] theorem Chip.startBrOp_holds (c : Chip) (o : BrOp) {v : Faults × Boot} (hw : Holds v c.watch) :
    Holds v (c.startBrOp o).watch := by
  unfold Chip.startBrOp
  split
  · simp [hw]
  · split
    · simp [hw]
    · exact Chip.enqueueOp_holds _ _ _ (by simpa using hw)
@[simp] theorem Chip.runBridge_holds (c : Chip)  {v : Faults × Boot} (hw : Holds v c.watch) :
    Holds v (c.runBridge).watch := by
  unfold Chip.runBridge
  repeat' first | (simp [hw]; done) | assumption | split | refine foldl_holds (fun _ _ hw => ?_) _ ?_
@[simp] theorem Chip.bridgeReset_watch (c : Chip) : (c.bridgeReset).watch = c.watch := by simp [Chip.bridgeReset, apply_ite Chip.watch]
@[simp] theorem Chip.matchDisable_holds (c : Chip) (fn : Nat) {v : Faults × Boot} (hw : Holds v c.watch) :
    Holds v (c.matchDisable fn).watch := by
  unfold Chip.matchDisable
  repeat' first | (simp [hw]; done) | assumption | split | refine foldl_holds (fun _ _ hw => ?_) _ ?_
@[simp] theorem Chip.latchPort_watch (c : Chip) (h : Nat) : (c.latchPort h).watch = c.watch := by simp [Chip.latchPort]
@[simp] theorem Chip.clearWindows_watch (c : Chip) (h : Nat) : (c.clearWindows h).watch = c.watch := by simp [Chip.clearWindows]
@[simp] theorem Chip.checkRange_holds (c : Chip) (h : Nat) (base size : HostPort → Nat) (drop : HostPort → HostPort) {v : Faults × Boot} (hw : Holds v c.watch) :
    Holds v (c.checkRange h base size drop).watch := by
  unfold Chip.checkRange
  repeat' first | (simp [hw]; done) | assumption | (dsimp only; split)
@[simp] theorem Chip.checkRanges_holds (c : Chip) (h : Nat) {v : Faults × Boot} (hw : Holds v c.watch) :
    Holds v (c.checkRanges h).watch := by
  unfold Chip.checkRanges
  repeat' simp [hw]
@[simp] theorem Chip.hostDetect_holds (c : Chip) (h : Nat) {v : Faults × Boot} (hw : Holds v c.watch) :
    Holds v (c.hostDetect h).watch := by
  unfold Chip.hostDetect
  repeat' simp [hw]
@[simp] theorem Chip.lostCond_holds (c : Chip) (on : Bool) {v : Faults × Boot} (hw : Holds v c.watch) :
    Holds v (c.lostCond on).watch := by
  exact Chip.setCond_holds _ _ _ _ _ _ _ hw
@[simp] theorem Chip.timeLost_holds (c : Chip) {v : Faults × Boot} (hw : Holds v c.watch) :
    Holds v (c.timeLost).watch := by
  unfold Chip.timeLost
  rw [Chip.eventPFs_watch]
  exact Chip.lostCond_holds _ _ hw
@[simp] theorem Chip.follow_watch (c : Chip) (p : Nat) (i : TimeItem) : (c.follow p i).watch = c.watch := by simp [Chip.follow]
@[simp] theorem Chip.acquire_watch (c : Chip) (p : Nat) (i : TimeItem) : (c.acquire p i).watch = c.watch := by simp [Chip.acquire]
@[simp] theorem Chip.chooseParent_holds (c : Chip)  {v : Faults × Boot} (hw : Holds v c.watch) :
    Holds v (c.chooseParent).watch := by
  unfold Chip.chooseParent
  repeat' first | (simp [hw]; done) | assumption | (dsimp only; split) | split
@[simp] theorem Chip.timDown_watch (c : Chip) : (c.timDown).watch = c.watch := by unfold Chip.timDown; split <;> simp
@[simp] theorem Chip.timResume_holds (c : Chip) {v : Faults × Boot} (hw : Holds v c.watch) :
    Holds v (c.timResume).watch := by
  unfold Chip.timResume
  repeat' simp [hw]
@[simp] theorem Chip.fenceChans_holds (c : Chip) {v : Faults × Boot} (hw : Holds v c.watch) :
    Holds v (c.fenceChans).watch := by
  unfold Chip.fenceChans
  repeat' first | simp [hw] | assumption | split | refine foldl_holds (fun _ _ hw => ?_) _ ?_
@[simp] theorem Chip.unfenceChans_watch (c : Chip) : (c.unfenceChans).watch = c.watch := by simp [Chip.unfenceChans, apply_ite Chip.watch]
@[simp] theorem Chip.unstage_watch (c : Chip) (s : Nat) : (c.unstage s).watch = c.watch := by simp [Chip.unstage]
@[simp] theorem Chip.mgtDown_watch (c : Chip) : (c.mgtDown).watch = c.watch := by simp [Chip.mgtDown]
@[simp] theorem Chip.clusterDown_watch (c : Chip) (i st : Nat) : (c.clusterDown i st).watch = c.watch := by
  simp [Chip.clusterDown, apply_ite (fun c : Chip => c.watch)]
@[simp] theorem Chip.activateNext_watch (c : Chip) : (c.activateNext).watch = c.watch := by
  unfold Chip.activateNext; (repeat' split) <;> simp
@[simp] theorem Chip.unitReturns_holds (c : Chip) (u : Nat) {v : Faults × Boot} (hw : Holds v c.watch) :
    Holds v (c.unitReturns u).watch := by
  unfold Chip.unitReturns
  repeat' first | (simp [hw]; done) | assumption | split
@[simp] theorem Chip.engineReset_holds (c : Chip) (u : Nat) {v : Faults × Boot} (hw : Holds v c.watch) :
    Holds v (c.engineReset u).watch := by
  unfold Chip.engineReset
  repeat' first | (simp [hw]; done) | assumption | split | refine foldl_holds (fun _ _ hw => ?_) _ ?_
@[simp] theorem Chip.bridgeBlockReset_holds (c : Chip) {v : Faults × Boot} (hw : Holds v c.watch) : Holds v c.bridgeBlockReset.watch := by
  refine foldl_holds (fun d s hd => ?_) _ (by simpa using hw)
  have h1 : Holds v (d.setSrc 0xB1 0x100 (d.src 0xB1 0x100).occurs).watch := d.setSrc_holds _ _ _ hd (fun _ => rfl) rfl
  exact h1.of_rest (Chip.enterRecord_rest ..) (Chip.enterRecord_reports ..).boot
@[simp] theorem Chip.hbmWrite_watch (c : Chip) (a : Nat) (l : List Byte) : (c.hbmWrite a l).watch = c.watch := by
  simp [Chip.hbmWrite, Mem.write]
@[simp] theorem Chip.place_holds (c : Chip) (k : KeyCheck) (l : List Byte) (bad : Nat) {v : Faults × Boot} (hw : Holds v c.watch) :
    Holds v (c.place k l bad).1.watch := by
  unfold Chip.place
  split
  · exact hw
  · split
    · exact hw
    · split
      · next e => exact pair_holds e (Chip.translate_holds _ _ _ hw)
      · next e =>
        have h1 := pair_holds e (Chip.translate_holds _ _ _ hw)
        simp [h1]
  · simp [hw]
@[simp] theorem Chip.writeMember_holds (c : Chip) (m : Nat) (s : BitVec 32) (o : COp) (x : CPost) (seg : Nat) (data : List Byte) {v : Faults × Boot} (hw : Holds v c.watch) :
    Holds v (c.writeMember m s o x seg data).watch := by
  unfold Chip.writeMember
  split
  · exact hw
  · split
    · exact hw
    · dsimp only
      split <;> rename_i e <;>
        have h1 := pair_holds e (Chip.place_holds _ _ _ _ (by simpa using hw)) <;> simp [h1]
@[simp] theorem Chip.writeTurn_holds (c : Chip) (m : Nat) (s : BitVec 32) (z0 : Nat) {v : Faults × Boot} (hw : Holds v c.watch) :
    Holds v (c.writeTurn m s z0).watch := by
  induction z0 generalizing c with
  | zero => exact hw
  | succ n ih =>
    unfold Chip.writeTurn
    split
    · exact hw
    · dsimp only
      split
      · exact hw
      · exact ih _ (foldl_holds (fun _ _ h => Chip.writeMember_holds _ _ _ _ _ _ _ h) _ (by simpa using hw))
@[simp] theorem Chip.downSegment_holds (c : Chip) (m : Nat) (s : BitVec 32) (seg : Nat) (data : List Byte) {v : Faults × Boot} (hw : Holds v c.watch) :
    Holds v (c.downSegment m s seg data).watch := by
  unfold Chip.downSegment
  repeat' first | (simp [hw]; done) | assumption | (dsimp only; split)
@[simp] theorem Chip.collRoot_holds (c : Chip) (m : Nat) (s : BitVec 32) {v : Faults × Boot} (hw : Holds v c.watch) :
    Holds v (c.collRoot m s).watch := by
  unfold Chip.collRoot
  repeat' first | (simp [hw]; done) | assumption | split | refine foldl_holds (fun _ _ hw => ?_) _ ?_
@[simp] theorem Chip.collRun_holds (c : Chip) (m : Nat) (s : BitVec 32) {v : Faults × Boot} (hw : Holds v c.watch) :
    Holds v (c.collRun m s).watch := by
  unfold Chip.collRun
  repeat' simp [hw]
@[simp] theorem Chip.collRunAll_holds (c : Chip) {v : Faults × Boot} (hw : Holds v c.watch) :
    Holds v (c.collRunAll).watch := by
  unfold Chip.collRunAll
  repeat' first | simp [hw] | assumption | split | refine foldl_holds (fun _ _ hw => ?_) _ ?_
@[simp] theorem Chip.collResume_holds (c : Chip)  {v : Faults × Boot} (hw : Holds v c.watch) :
    Holds v (c.collResume).watch := by
  unfold Chip.collResume
  repeat' first | (simp [hw]; done) | assumption | split | refine foldl_holds (fun _ _ hw => ?_) _ ?_
@[simp] theorem Chip.collDisable_holds (c : Chip) (fn : Nat) {v : Faults × Boot} (hw : Holds v c.watch) :
    Holds v (c.collDisable fn).watch := by
  unfold Chip.collDisable
  extract_lets h ms mine co c1 c2
  have h1 : Holds v c1.watch := hw
  have h2 : Holds v c2.watch := by
    refine foldl_holds (fun _ _ h => foldl_holds (fun d x h => ?_) _ h) mine h1
    show Holds v (if _ then d.closePos _ _ _ else d).watch
    split
    · exact Chip.closePos_holds _ _ _ _ h
    · exact h
  clear_value ms
  clear_value c2
  refine foldl_holds (c := c2) (fun d m hd => ?_) ms h2
  exact foldl_holds (fun _ _ h => Chip.collRun_holds _ _ _ h) (d.collOps m) hd
@[simp] theorem Chip.disableFn_holds (c : Chip) (fn : Nat) {v : Faults × Boot} (hw : Holds v c.watch) :
    Holds v (c.disableFn fn).watch := by
  unfold Chip.disableFn
  extract_lets c1 c2
  have h1 : Holds v c1.watch := by simpa only [c1, Chip.updFn_watch] using hw
  have h3 := Chip.collDisable_holds _ fn (Chip.matchDisable_holds c2 fn h1)
  clear_value c2
  split
  · exact hw
  · exact hw
  · exact hw
  · exact h3
@[simp] theorem Chip.endVf_holds (c : Chip) (fn : Nat) {v : Faults × Boot} (hw : Holds v c.watch) :
    Holds v (c.endVf fn).watch := by
  unfold Chip.endVf
  repeat' first | (simp [hw]; done) | assumption | (dsimp only; split)
@[simp] theorem Chip.endVfs_holds (c : Chip) (h : Nat) {v : Faults × Boot} (hw : Holds v c.watch) :
    Holds v (c.endVfs h).watch := by
  unfold Chip.endVfs
  rw [Chip.updPort_watch]
  exact foldl_holds (fun _ _ h => Chip.endVf_holds _ _ h) (List.range 255) hw
@[simp] theorem Chip.perstPort_holds (c : Chip) (h : Nat) {v : Faults × Boot} (hw : Holds v c.watch) :
    Holds v (c.perstPort h).watch := by
  unfold Chip.perstPort
  extract_lets c1 c2
  have h1 : Holds v c1.watch :=
    Chip.endVfs_holds _ _ (by rw [Chip.updFn_watch]; exact Chip.disableFn_holds _ _ hw)
  have h2 : Holds v c2.watch := by simpa [c2] using h1
  exact Chip.setCond_holds _ _ _ _ _ _ _ (by rw [Chip.updPort_watch]; exact h2)
@[simp] theorem Chip.setFence_holds (c : Chip) (chip : Nat) (on : Bool) {v : Faults × Boot} (hw : Holds v c.watch) :
    Holds v (c.setFence chip on).watch := by
  unfold Chip.setFence
  repeat' first | (simp [hw]; done) | assumption | (dsimp only; split) | split | refine foldl_holds (fun _ _ hw => ?_) _ ?_
@[simp] theorem Chip.installClamp_holds (c : Chip) (row k : Nat) {v : Faults × Boot} (hw : Holds v c.watch) :
    Holds v (c.installClamp row k).watch := by
  exact foldl_holds (fun _ _ h => Chip.setFence_holds _ _ _ h) _ hw
@[simp] theorem Chip.fabResume_holds (c : Chip) {v : Faults × Boot} (hw : Holds v c.watch) :
    Holds v (c.fabResume).watch := by
  unfold Chip.fabResume
  repeat' first | (simp [hw]; done) | assumption | split | refine foldl_holds (fun _ _ hw => ?_) _ ?_
@[simp] theorem Chip.clusterResumes_holds (c : Chip) (i : Nat) {v : Faults × Boot} (hw : Holds v c.watch) :
    Holds v (c.clusterResumes i).watch := by
  unfold Chip.clusterResumes
  repeat' first | simp [hw] | assumption | split
@[simp] theorem Chip.blockReset_holds (c : Chip) (u : Nat) {v : Faults × Boot} (hw : Holds v c.watch) :
    Holds v (c.blockReset u).watch := by
  unfold Chip.blockReset
  repeat' first | (simp [hw]; done) | assumption | (dsimp only; split) | split

end Sys2Proof.Machine
end


section
/-! Channel groups that retire (R280, R282, R283). -/

set_option Elab.async false

namespace Sys2Proof.Machine

/-! ### The layout of HBM -/

/-- `d` lays HBM out as `c` does: slabs lie at the same places, and the same groups are in service. -/
structure Chip.LaysAs (c d : Chip) : Prop where
  size : d.mem.size = c.mem.size
  placed : d.mem.placed = c.mem.placed
  moving : d.mem.moving = c.mem.moving
  regions : d.mem.regionMiB = c.mem.regionMiB
  variant : d.variant = c.variant
  serial : d.serial = c.serial
  absent : ∀ x, (d.group x).absentAtLayout = (c.group x).absentAtLayout

theorem Chip.LaysAs.of_same {c d : Chip} (hm : d.mem = c.mem) (hv : d.variant = c.variant) (hs : d.serial = c.serial) : c.LaysAs d :=
  ⟨by rw [hm], by rw [hm], by rw [hm], by rw [hm], hv, hs, fun x => by rw [Chip.group, hm]; rfl⟩

theorem Chip.LaysAs.trans {c d e : Chip} (h : c.LaysAs d) (k : d.LaysAs e) : c.LaysAs e :=
  ⟨k.size.trans h.size, k.placed.trans h.placed, k.moving.trans h.moving, k.regions.trans h.regions, k.variant.trans h.variant,
    k.serial.trans h.serial, fun x => (k.absent x).trans (h.absent x)⟩

theorem Chip.group_updGroup (c : Chip) (g x : Nat) (f : Group → Group) :
    (c.updGroup g f).group x = if x = g then f (c.group g) else c.group x := by
  split
  · next h => rw [h]; exact Tab.get_upd_self c.mem.groups g Group.init f
  · next h => exact Tab.get_upd_ne c.mem.groups Group.init f h

theorem Chip.updGroup_lays (c : Chip) (g : Nat) {f : Group → Group} (hf : ∀ a, (f a).absentAtLayout = a.absentAtLayout) :
    c.LaysAs (c.updGroup g f) :=
  ⟨rfl, rfl, rfl, rfl, rfl, rfl, fun x => by
    rw [Chip.group_updGroup]
    split
    · next h => rw [h]; exact hf _
    · rfl⟩

section
variable {c d : Chip} (h : c.LaysAs d)
include h

theorem Chip.LaysAs.deviceSlabs : d.deviceSlabs = c.deviceSlabs := by
  unfold Chip.deviceSlabs Chip.regionSize
  rw [h.regions, h.variant, h.serial]

theorem Chip.LaysAs.slabPlace (n : Nat) : d.slabPlace n = c.slabPlace n := by
  have hl : d.layoutGroups = c.layoutGroups := by
    unfold Chip.layoutGroups
    simp only [h.absent, h.variant]
  unfold Chip.slabPlace
  rw [h.placed, hl]

theorem Chip.LaysAs.freeIn (x : Nat) : d.freeIn x = c.freeIn x := by
  unfold Chip.freeIn Chip.slabsIn Chip.slabsUsed Chip.fabricSlabs
  simp only [h.slabPlace, h.deviceSlabs, h.size, h.moving]

end

/-- The free slabs of the groups in service but one. -/
def Chip.freeBeside (c : Chip) (g : Nat) : Nat := (c.inService.filter (· != g)).foldl (fun n x => n + c.freeIn x) 0

theorem Chip.LaysAs.freeBeside {c d : Chip} (h : c.LaysAs d) {g : Nat} (hs : ∀ x ≠ g, (d.group x).state = (c.group x).state) :
    d.freeBeside g = c.freeBeside g := by
  have hi : d.inService.filter (· != g) = c.inService.filter (· != g) := by
    unfold Chip.inService
    rw [h.variant, List.filter_filter, List.filter_filter]
    refine List.filter_congr fun x _ => ?_
    by_cases hx : x = g
    · simp [hx]
    · rw [hs x hx]
  unfold Chip.freeBeside
  rw [hi]
  simp only [h.freeIn]

/-- Without the group in service, the free slabs are those beside it. -/
theorem Chip.freeSlabs_eq {c : Chip} {g : Nat} (h : (c.group g).state ≠ 1) : c.freeSlabs = c.freeBeside g := by
  have hi : c.inService.filter (· != g) = c.inService := by
    refine List.filter_eq_self.mpr fun x hx => ?_
    have hx1 : (c.group x).state = 1 := by simpa using (List.mem_filter.mp hx).2
    simpa using fun e : x = g => h (e ▸ hx1)
  unfold Chip.freeSlabs Chip.freeBeside
  rw [hi]

/-! ### Retirement begins -/

/-- A group that retires is migrating, and fabric memory has shrunk to `size`. -/
structure Chip.Shrunk (c d : Chip) (g : Nat) : Prop where
  state : d.groupState g = 2
  size : d.mem.size = c.mem.size - (384 - c.freeBeside g) * slabBytes
  groups : ∀ x, x ≠ g → d.group x = c.group x
  own : d.group g = { c.group g with state := 2 }

theorem Chip.nextExportGen_groups (c : Chip) (n : Nat) :
    (c.nextExportGen n).mem.size = c.mem.size ∧ (c.nextExportGen n).mem.groups = c.mem.groups := ⟨rfl, rfl⟩

theorem Chip.withdrawExport_groups (c : Chip) (size n : Nat) :
    (c.withdrawExport size n).mem.size = c.mem.size ∧ (c.withdrawExport size n).mem.groups = c.mem.groups := by
  unfold Chip.withdrawExport
  extract_lets attr key
  split
  · generalize exportOff attr = a
    have hk := Chip.endKeyOffers_kern ((c.setParam 0x28 0x032 n a).nextExportGen n) key
    obtain ⟨h1, h2⟩ := (c.setParam 0x28 0x032 n a).nextExportGen_groups n
    rw [Chip.setParam_mem] at h1 h2
    exact ⟨(congrArg Kern.size hk).trans h1, (congrArg Kern.groups hk).trans h2⟩
  · exact ⟨rfl, rfl⟩

theorem Chip.withdrawExports_groups (size : Nat) (l : List Nat) (c : Chip) :
    (c.withdrawExports size l).mem.size = c.mem.size ∧ (c.withdrawExports size l).mem.groups = c.mem.groups := by
  induction l generalizing c with
  | nil => exact ⟨rfl, rfl⟩
  | cons n l ih =>
    obtain ⟨h1, h2⟩ := c.withdrawExport_groups size n
    exact ⟨(ih _).1.trans h1, (ih _).2.trans h2⟩

theorem Chip.groups_of_kern {c d : Chip} (h : d.kern = c.kern) :
    d.mem.size = c.mem.size ∧ d.mem.groups = c.mem.groups ∧ d.variant = c.variant :=
  ⟨congrArg Kern.size h, congrArg Kern.groups h, congrArg Kern.variant h⟩

theorem Chip.variant_of_wide {c d : Chip} (h : d.kern.wide = c.kern.wide) : d.variant = c.variant := congrArg Wide.variant h

theorem Chip.withdraw_groups (c : Chip) : c.withdraw.mem.size = c.mem.size ∧ c.withdraw.mem.groups = c.mem.groups ∧
    c.withdraw.variant = c.variant := by
  have hv := Chip.variant_of_wide c.withdraw_wide
  unfold Chip.withdraw at *
  generalize List.range 4096 = l at *
  obtain ⟨h1, h2, -⟩ := Chip.groups_of_kern
    (Chip.withdrawRanges_kern (c.withdrawExports c.mem.size l) c.mem.size (List.range c.variant.hostPorts))
  obtain ⟨e1, e2⟩ := Chip.withdrawExports_groups c.mem.size l c
  exact ⟨h1.trans e1, h2.trans e2, hv⟩

theorem Chip.giveNewPlaces_groups (c : Chip) (l k : List Nat) : (c.giveNewPlaces l k).mem.size = c.mem.size ∧
    (c.giveNewPlaces l k).mem.groups = c.mem.groups ∧ (c.giveNewPlaces l k).variant = c.variant :=
  Chip.groups_of_kern (c.giveNewPlaces_kern l k)

theorem Chip.resize_groups (c : Chip) (n : Nat) :
    (c.resize n).mem.size = n ∧ (c.resize n).mem.groups = c.mem.groups ∧ (c.resize n).variant = c.variant := by
  unfold Chip.resize
  exact ⟨rfl, rfl, rfl⟩

theorem Chip.migrate_groups (c : Chip) (g : Nat) : (c.migrate g).mem.size = c.mem.size - (384 - c.freeBeside g) * slabBytes ∧
    (c.migrate g).mem.groups = (c.updGroup g fun x => { x with state := 2 }).mem.groups ∧ (c.migrate g).variant = c.variant := by
  have hl : c.LaysAs (c.updGroup g fun x => { x with state := 2 }) := c.updGroup_lays g fun _ => rfl
  have hg : ((c.updGroup g fun x => { x with state := 2 }).group g).state = 2 :=
    congrArg Group.state ((c.group_updGroup g g fun x => { x with state := 2 }).trans (if_pos rfl))
  have hf : (c.updGroup g fun x => { x with state := 2 }).freeSlabs = c.freeBeside g :=
    (Chip.freeSlabs_eq (by rw [hg]; decide)).trans (hl.freeBeside fun x hx => by rw [c.group_updGroup g x, if_neg hx])
  have hsz := hl.size
  have hv := hl.variant
  unfold Chip.migrate Chip.moveOut Chip.shrink
  generalize (c.updGroup g fun x => { x with state := 2 }) = u at *
  rw [hf, hsz]
  generalize c.mem.size - (384 - c.freeBeside g) * slabBytes = n
  obtain ⟨h1, h2, h3⟩ := (u.resize n).giveNewPlaces_groups ((u.resize n).slabsIn g) (u.resize n).freePlaces
  obtain ⟨r1, r2, r3⟩ := u.resize_groups n
  exact ⟨h1.trans r1, h2.trans r2, h3.trans (r3.trans hv)⟩

theorem Chip.beginRetire_shrinks {c : Chip} {g : Nat} (h : c.groupState g = 1) : c.Shrunk (c.beginRetire g) g := by
  have he : c.beginRetire g = (c.migrate g).withdraw.setCond (groupUnit g) 0x102 true 11 (groupUnit g) := if_neg (fun hn => hn h)
  have hr := (c.migrate g).withdraw.setCond_reacts (groupUnit g) 0x102 true 11 (groupUnit g) 0
  obtain ⟨h1, h2, h3⟩ := c.migrate_groups g
  obtain ⟨w1, w2, w3⟩ := (c.migrate g).withdraw_groups
  have hgr : ∀ x, (c.beginRetire g).group x = (c.updGroup g fun x => { x with state := 2 }).group x := fun x => by
    rw [he, Chip.group, hr.mem, w2, h2]; rfl
  have hown : (c.beginRetire g).group g = { c.group g with state := 2 } := (hgr g).trans ((c.group_updGroup g g _).trans (if_pos rfl))
  refine ⟨?_, ?_, fun x hx => (hgr x).trans ((c.group_updGroup g x _).trans (if_neg hx)), hown⟩
  · have hv : (c.beginRetire g).variant = c.variant := by rw [he, hr.variant, w3, h3]
    unfold Chip.groupState at h ⊢
    rw [hown, hv]
    split
    · rfl
    · next hn => rw [if_neg hn] at h; exact absurd h (by decide)
  · rw [he, hr.mem, w1, h1]

theorem Chip.beginRetire_other {c : Chip} {g : Nat} (h : c.groupState g ≠ 1) : c.beginRetire g = c := if_pos h

/-- A group that has a state is on the chip, and so is its unit. -/
theorem Chip.groupState_present {c : Chip} {g : Nat} (h : c.groupState g ≠ 0) : unitPresent c.variant (0x60 + g) = true := by
  have hg : g < 4 * c.variant.stacks := by
    by_contra hn
    exact h (if_neg hn)
  have h16 : c.variant.stacks ≤ 4 := by cases c.variant <;> decide
  unfold unitPresent
  rw [if_neg (by omega), if_neg (by omega), if_neg (by omega), if_pos (by simp; omega)]
  simpa using hg

theorem Chip.groupState_lt {c : Chip} {g : Nat} (h : c.groupState g ≠ 0) : g < 16 := by
  have hg : g < 4 * c.variant.stacks := by
    by_contra hn
    exact h (if_neg hn)
  have h16 : c.variant.stacks ≤ 4 := by cases c.variant <;> decide
  omega

theorem isCause_group {g : Nat} (h : g < 16) : isCause (0x60 + g) 0x100 = true ∧ isCause (0x60 + g) 0x101 = true ∧
    isCause (0x60 + g) 0x102 = true ∧ isCause (0x60 + g) 0x103 = true := by
  have : ∀ g < 16, isCause (0x60 + g) 0x100 = true ∧ isCause (0x60 + g) 0x101 = true ∧ isCause (0x60 + g) 0x102 = true ∧
    isCause (0x60 + g) 0x103 = true := by decide
  exact this g h

theorem Chip.groupState_of {c d : Chip} (hv : d.variant = c.variant) {g : Nat} (hg : d.group g = c.group g) : d.groupState g = c.groupState g := by
  rw [Chip.groupState, Chip.groupState, hv, hg]

/-! ### The command -/

section
variable {s : State} {w : Writer} {g : Nat} (hm : s.chip.mayWrite w (pnum 0x28 0x011 0) = true) (hg : g < 256)
include hm hg

/-- RETIRE is answered: with 0x07 outside the range, else with what the group's state gives. -/
theorem Chip.retire_answers :
    s.chip.numWrite w 0x28 0x011 0 1 g = if g < 16 then (s.chip.retireGroup g).1.replied w (s.chip.retireGroup g).2 else s.chip.replied w 7 := by
  have hd : desc s.chip.variant 0x28 0x011 = some { ty := .u8, access := .wo, writers := wFBH, elements := 1 } := rfl
  split
  · next h =>
    exact Chip.numWrite_command hm (by decide) (hd := hd) (hw := rfl) (ht := by decide) (hx := hg) (hl := rfl) (hk := rfl)
      (hv := decide_eq_true h) (hr := rfl) (idx := none)
  · next h =>
    have hs := Chip.numWrite_served hm (by decide) (hd := hd) (ht := by decide) (x := g) (hx := hg) (hl := rfl) (idx := none)
    have hw : s.chip.writeNumber w { ty := .u8, access := .wo, writers := wFBH, elements := 1 } (pnum 0x28 0x011 0) g none = (s.chip, 7) := by
      have hv : valueOk { ty := .u8, access := .wo, writers := wFBH, elements := 1 } 0x28 0x011 0 g = false := decide_eq_false h
      have hk : keepBits 0x28 0x011 g = g := rfl
      unfold Chip.writeNumber
      simp only [pElem_pnum 0x28 0x011 0 (by decide), pObj_pnum 0x28 0x011 0 (by decide) (by decide),
        pArea_pnum 0x28 0x011 0 (by decide) (by decide) (by decide), hk, hv]
      rfl
    rw [hw] at hs
    exact hs

end

theorem Chip.replied_group (c : Chip) (w : Writer) (k g : Nat) : (c.replied w k).group g = c.group g := by
  obtain ⟨l, h⟩ := c.replied_same w k
  rw [h]
  rfl

/-! ### The end of a retirement -/

theorem Tab.get?_foldl_put {α : Type} (l : List (Nat × α)) (t : Tab α) (hl : (l.map (·.1)).Nodup) {r : Nat × α} (hr : r ∈ l) :
    Tab.get? (l.foldl (fun (t : Tab α) r => Tab.put t r.1 r.2) t) r.1 = some r.2 := by
  have keep : ∀ (l : List (Nat × α)) (t : Tab α) (k : Nat), k ∉ l.map (·.1) →
      Tab.get? (l.foldl (fun (t : Tab α) r => Tab.put t r.1 r.2) t) k = Tab.get? t k := by
    intro l
    induction l with
    | nil => exact fun _ _ _ => rfl
    | cons x l ih =>
      intro t k hk
      rw [List.map_cons, List.mem_cons, not_or] at hk
      exact (ih _ k hk.2).trans (Tab.get?_put_ne t _ hk.1)
  induction l generalizing t with
  | nil => contradiction
  | cons x l ih =>
    rw [List.map_cons, List.nodup_cons] at hl
    obtain rfl | hr := List.mem_cons.mp hr
    · exact (keep l _ _ hl.1).trans (Tab.get?_put_self ..)
    · exact ih _ hl.2 hr

theorem mem_foldl_insertNat (l k : List Nat) (n : Nat) : n ∈ l.foldl (fun k b => insertNat b k) k ↔ n ∈ l ∨ n ∈ k := by
  induction l generalizing k with
  | nil => simp
  | cons b l ih => rw [List.foldl_cons, ih, mem_insertNat, List.mem_cons]; tauto

/-- The slabs that the copies of a group's retirement stand for. -/
def Chip.movedSlabs (c : Chip) (g : Nat) : Tab Nat := c.mem.moving.filter fun r => c.slabPlace r.1 / 384 == g

/-- Those of fabric memory. -/
def Chip.movedFabric (c : Chip) (g : Nat) : List Nat := c.fabricOf ((c.movedSlabs g).map (·.1))

/-- The chip with the copies in place of a group's slabs and the group retired, before that is reported. -/
def Chip.retired (c : Chip) (g : Nat) (l : List Nat) : Chip :=
  ({ c with mem := { c.mem with
    placed := (c.movedSlabs g).foldl (fun (t : Tab Nat) (r : Nat × Nat) => Tab.put t r.1 r.2) c.mem.placed
    moving := (c.movedSlabs g).foldl (fun (t : Tab Nat) (r : Nat × Nat) => Tab.del t r.1) c.mem.moving
    poison := (l.filter fun b => (c.movedFabric g).contains (b / 524288)).foldl (fun l b => insertNat b l) c.mem.poison
    lostSlabs := (if (c.group g).dead then c.movedFabric g else []).foldl (fun l k => insertNat k l) c.mem.lostSlabs
    healed := c.mem.healed.filter fun b => !(if (c.group g).dead then c.movedFabric g else []).contains (b / 524288) } } : Chip).updGroup g
      fun x => { x with state := 3 }

theorem Chip.retirementComplete_eq {c : Chip} {g : Nat} (h : c.groupState g = 2) (l : List Nat) : c.retirementComplete g l =
    ((c.retired g l).eventPFs 0x0B (groupUnit g) 0 g).raise (groupUnit g) 0x102 11 (groupUnit g) := by
  unfold Chip.retirementComplete
  rw [if_neg (fun hn => hn h)]
  rfl

theorem Chip.mem_movedFabric {c : Chip} {g : Nat} {r : Nat × Nat} (hr : r ∈ c.mem.moving) (hp : c.slabPlace r.1 / 384 = g)
    (hd : c.deviceSlabs ≤ r.1) : r.1 - c.deviceSlabs ∈ c.movedFabric g := by
  refine List.mem_map.mpr ⟨r.1, List.mem_filter.mpr ⟨List.mem_map.mpr ⟨r, List.mem_filter.mpr ⟨hr, ?_⟩, rfl⟩, decide_eq_true hd⟩, rfl⟩
  rw [hp]
  exact beq_self_eq_true g

section
variable {c : Chip} {g : Nat} (h : c.groupState g = 2) (l : List Nat)
include h

theorem Chip.retired_state : (c.retired g l).groupState g = 3 := by
  have hg : (c.retired g l).group g = { c.group g with state := 3 } := Chip.group_updGroup _ g g _ |>.trans (if_pos rfl)
  have hv : (c.retired g l).variant = c.variant := rfl
  unfold Chip.groupState at h ⊢
  rw [hg, hv]
  split
  · rfl
  · next hn => rw [if_neg hn] at h; exact absurd h (by decide)

theorem Chip.retirementComplete_reacts : (c.retired g l).Reacts (c.retirementComplete g l) := by
  rw [Chip.retirementComplete_eq h]
  exact (Chip.eventPFs_reports ..).reacts.trans (Chip.occurrence_reacts ..)

theorem Chip.retirementComplete_noted (hc : (c.retirementComplete g l).calm = true) :
    (c.retirementComplete g l).noted c (0x60 + g) 0x102 := by
  have h0 : c.groupState g ≠ 0 := by rw [h]; decide
  have hr := (c.retired g l).eventPFs_reported 0x0B (groupUnit g) 0 g
  rw [Chip.retirementComplete_eq h] at hc ⊢
  refine (Chip.raise_noted hc ?_ (isCause_group (Chip.groupState_lt h0)).2.2.1).before hr.inReset hr.heldUnits
  have hp := Chip.groupState_present h0
  rwa [show c.variant = ((c.retired g l).eventPFs 0x0B (groupUnit g) 0 g).variant from hr.only.variant.symm] at hp

end

/-- Every slab that moved lies at its new place. -/
theorem Chip.retired_placed {c : Chip} {g : Nat} (l : List Nat) (hn : (c.mem.moving.map (·.1)).Nodup) {r : Nat × Nat} (hr : r ∈ c.mem.moving)
    (hp : c.slabPlace r.1 / 384 = g) : (c.retired g l).slabPlace r.1 = r.2 := by
  have hm : r ∈ c.movedSlabs g := List.mem_filter.mpr ⟨hr, by rw [hp]; exact beq_self_eq_true g⟩
  have hs : ((c.movedSlabs g).map (·.1)).Nodup := hn.sublist (List.filter_sublist.map _)
  have hq : Tab.get? (c.retired g l).mem.placed r.1 = some r.2 := Tab.get?_foldl_put _ _ hs hm
  unfold Chip.slabPlace
  rw [hq]

/-! ### The patrol scrub -/

theorem Chip.raise_reacts (c : Chip) (unit cause skind subject : Nat) (d0 d1 : Word) : c.Reacts (c.raise unit cause skind subject d0 d1) :=
  c.occurrence_reacts ..

section
variable (c : Chip) (g a : Nat)

/-- The times of a group's corrected errors within the last hour. -/
def Chip.recentErrors : List Nat := (c.group g).corrected.filter fun t => decide (c.now < t + hour)

/-- The chip with a corrected error reported and counted. -/
def Chip.errorCounted : Chip :=
  (c.raise (groupUnit g) 0x100 6 (hbmSubject g a)).updGroup g fun x => { x with corrected := c.now :: c.recentErrors g }

theorem Chip.raise_group (u k sk sb : Nat) (d0 d1 : Word) : (c.raise u k sk sb d0 d1).group g = c.group g := by
  unfold Chip.group
  rw [(c.raise_reacts u k sk sb d0 d1).mem]

theorem Chip.errorCounted_group : (c.errorCounted g a).group g = { c.group g with corrected := c.now :: c.recentErrors g } :=
  (Chip.group_updGroup _ g g _).trans ((if_pos rfl).trans (by rw [Chip.raise_group]))

theorem Chip.errorCounted_state : (c.errorCounted g a).groupState g = c.groupState g := by
  have hv : (c.errorCounted g a).variant = c.variant := (c.raise_reacts (groupUnit g) 0x100 6 (hbmSubject g a) 0 0).variant
  rw [Chip.groupState, Chip.groupState, c.errorCounted_group, hv]

theorem Chip.errorCounted_size : (c.errorCounted g a).mem.size = c.mem.size :=
  congrArg (·.size) (c.raise_reacts (groupUnit g) 0x100 6 (hbmSubject g a) 0 0).mem

theorem Chip.errorCounted_hbm : (c.errorCounted g a).mem.hbm = c.mem.hbm :=
  congrArg (·.hbm) (c.raise_reacts (groupUnit g) 0x100 6 (hbmSubject g a) 0 0).mem

theorem Chip.errorCounted_lays : c.LaysAs (c.errorCounted g a) := by
  have hr := c.raise_reacts (groupUnit g) 0x100 6 (hbmSubject g a) 0 0
  exact (Chip.LaysAs.of_same hr.mem hr.variant hr.serial).trans (Chip.updGroup_lays _ g fun _ => rfl)

theorem Chip.errorCounted_beside : (c.errorCounted g a).freeBeside g = c.freeBeside g := by
  refine (c.errorCounted_lays g a).freeBeside fun x hx => ?_
  refine (congrArg Group.state (Chip.group_updGroup _ g x _)).trans ?_
  rw [if_neg hx, Chip.raise_group]

/-- A group retires by itself where its errors of the last hour, the new one among them, exceed P28.012. -/
def Chip.selfRetires : Bool := decide (c.param 0x28 0x013 0 = 1 ∧ c.param 0x28 0x012 0 < (c.recentErrors g).length + 1)

theorem Chip.correctedError_eq :
    c.correctedError g a = if c.selfRetires g then (c.errorCounted g a).beginRetire g else c.errorCounted g a := by
  have hr := c.raise_reacts (groupUnit g) 0x100 6 (hbmSubject g a) 0 0
  have hn : (c.raise (groupUnit g) 0x100 6 (hbmSubject g a)).now = c.now := by unfold Chip.now; rw [hr.tb]
  have hm : (c.errorCounted g a).now = c.now := hn
  have he : c.correctedError g a = (c.errorCounted g a).autoRetire g := by
    have hg : ((c.raise (groupUnit g) 0x100 6 (hbmSubject g a)).updGroup g fun x => { x with
        corrected := (c.raise (groupUnit g) 0x100 6 (hbmSubject g a)).now :: x.corrected.filter fun t =>
          decide ((c.raise (groupUnit g) 0x100 6 (hbmSubject g a)).now < t + hour) }) = c.errorCounted g a := by
      unfold Chip.errorCounted Chip.updGroup Tab.upd Chip.recentErrors
      rw [hn]
      have := c.raise_group g (groupUnit g) 0x100 6 (hbmSubject g a) 0 0
      unfold Chip.group at this
      rw [this]
      rfl
    exact congrArg (fun d => Chip.autoRetire d g) hg
  have hl : ((c.errorCounted g a).group g).corrected.filter (fun t => decide (c.now < t + hour)) = c.now :: c.recentErrors g := by
    rw [c.errorCounted_group, List.filter_cons_of_pos (by simp [hour]), Chip.recentErrors, List.filter_filter]
    simp
  have hp : ∀ o, (c.errorCounted g a).param 0x28 o 0 = c.param 0x28 o 0 := fun o => hr.param 0x28 o 0
  rw [he]
  unfold Chip.autoRetire
  simp only [hm, hl, hp, List.length_cons, Chip.selfRetires, decide_eq_true_eq]

end

section
variable {c : Chip} {g a : Nat} (h0 : c.groupState g ≠ 0)
include h0

theorem Chip.group_noted {d : Chip} {k sb sk : Nat} {d0 d1 : Word} (hv : d.variant = c.variant)
    (hc : (d.raise (groupUnit g) k sk sb d0 d1).calm = true) (hk : k = 0x100 ∨ k = 0x101 ∨ k = 0x102 ∨ k = 0x103) :
    (d.raise (groupUnit g) k sk sb d0 d1).noted d (0x60 + g) k := by
  obtain ⟨c0, c1, c2, c3⟩ := isCause_group (Chip.groupState_lt h0)
  refine Chip.raise_noted hc (by rw [hv]; exact Chip.groupState_present h0) ?_
  obtain rfl | rfl | rfl | rfl := hk <;> assumption

theorem Chip.errorCounted_noted (hc : (c.errorCounted g a).calm = true) : (c.errorCounted g a).noted c (0x60 + g) 0x100 :=
  Chip.group_noted h0 rfl hc (.inl rfl)

/-! ### A group fails -/

theorem Chip.groupFails_eq (h3 : c.groupState g ≠ 3) : c.groupFails g =
    ((c.updGroup g fun x => { x with dead := true }).beginRetire g).raise (groupUnit g) 0x103 11 (groupUnit g) :=
  if_neg (by simp [h0, h3])

end

/-- An uncorrectable word is reported of a chip that differs by a drawn value and by the poison of its block. -/
theorem Chip.uncorrectableWord_eq (c : Chip) (g a : Nat) : ∃ (d : Chip) (d0 d1 : Word),
    c.uncorrectableWord g a = d.raise (groupUnit g) 0x101 6 (hbmSubject g a) d0 d1 ∧ d.variant = c.variant ∧ d.flt = c.flt ∧
    d.group g = c.group g ∧ ∀ o, c.hbmOffset? g a = some o →
      o / 64 ∈ d.mem.poison ∨ c.copying (c.deviceSlabs + o / slabBytes) = true ∧ d.mem.poison = c.mem.poison := by
  unfold Chip.uncorrectableWord
  split
  · next h => exact ⟨c.drawn, _, _, rfl, rfl, rfl, rfl, fun o ho => by rw [h] at ho; contradiction⟩
  · next o h =>
    extract_lets idle poison
    refine ⟨{ c.drawn with mem := { c.mem with poison := poison } }, _, _, rfl, rfl, rfl, rfl, fun x hx => ?_⟩
    obtain rfl := Option.some.inj (h.symm.trans hx)
    by_cases hi : idle = true
    · exact .inr ⟨(Bool.and_eq_true ..).mp hi |>.1, if_pos hi⟩
    · refine .inl ?_
      show o / 64 ∈ poison
      simp only [poison]
      rw [if_neg hi]
      exact mem_insertNat.mpr (.inl rfl)

theorem Chip.dead_state (c : Chip) (g : Nat) : (c.updGroup g fun x => { x with dead := true }).groupState g = c.groupState g := by
  have hv : (c.updGroup g fun x => { x with dead := true }).variant = c.variant := rfl
  rw [Chip.groupState, Chip.groupState, Chip.group_updGroup, if_pos rfl, hv]

theorem Chip.groupFails_noted {c : Chip} {g : Nat} (h0 : c.groupState g ≠ 0) (h3 : c.groupState g ≠ 3) (hc : (c.groupFails g).calm = true) :
    (c.groupFails g).noted c (0x60 + g) 0x103 := by
  rw [Chip.groupFails_eq h0 h3] at hc ⊢
  have hcalm := (Chip.raise_notes _ _ _ _ _ _ _ hc).only.calm ▸ hc
  obtain ⟨hr, hd, -⟩ := (Chip.calm_iff _).mp hcalm
  obtain ⟨h1, h2, -⟩ := (Chip.beginRetire_holds (c.updGroup g fun x => { x with dead := true }) g (.refl _)).calm hd hr
  have hv := Chip.variant_of_wide (Chip.beginRetire_wide (c.updGroup g fun x => { x with dead := true }) g)
  exact (Chip.group_noted h0 hv hc (.inr (.inr (.inr rfl)))).before h1 h2

/-! ### The obligation -/

/-- A group that retires and is reported is begun as `beginRetire` leaves it. -/
theorem Chip.Shrunk.raise {c d : Chip} {g : Nat} (h : c.Shrunk d g) (u k sk sb : Nat) (d0 d1 : Word) :
    c.Shrunk (d.raise u k sk sb d0 d1) g := by
  have hr := d.raise_reacts u k sk sb d0 d1
  have hg : ∀ x, (d.raise u k sk sb d0 d1).group x = d.group x := fun x => d.raise_group x u k sk sb d0 d1
  exact ⟨(Chip.groupState_of hr.variant (hg g)).trans h.state, by rw [hr.mem, h.size], fun x hx => (hg x).trans (h.groups x hx),
    (hg g).trans h.own⟩

section
variable {s : State} {g : Nat}

theorem Chip.retire_completes {w : Writer} (hg : g < 256) (hm : s.chip.mayWrite w (pnum 0x28 0x011 0) = true)
    (hc : (s.chip.retireGroup g).1.calm = true) (h16 : g < 16) :
    Completes (.retire w g) s fun c => c = (s.chip.retireGroup g).1.replied w (s.chip.retireGroup g).2 := by
  have he := Chip.retire_answers hm hg
  rw [if_pos h16] at he
  exact Completes.of_runAny (exec_retire w g s) (by rw [he, Chip.replied_calm]; exact hc) he

theorem Chip.still_completes {i : Instr} {f : Chip → Chip} (hi : exec i s = s.run f) (hs : s.serving) (hf : f s.chip = s.chip) :
    Completes i s fun c => c = s.chip := .of_run hi hs.1 (by rw [hf]; exact hs.2) hf

end

theorem Completes.mono {i : Instr} {s : State} {p q : Chip → Prop} (h : Completes i s p) (k : ∀ c, p c → q c) : Completes i s q := by
  obtain ⟨t, ht, hp, hc⟩ := h
  exact ⟨t, ht, hp, k _ hc⟩

/-- Retirement has begun, and fabric memory has lost what the other groups cannot take. -/
def Chip.Begun (c d : Chip) (g : Nat) : Prop :=
  d.groupState g = 2 ∧ d.mem.size = c.mem.size - (384 - c.freeBeside g) * slabBytes ∧ d.mem.hbm = c.mem.hbm

theorem Chip.retireGroup_of {c : Chip} {g : Nat} (h0 : c.groupState g ≠ 0) (h3 : c.groupState g ≠ 3) :
    c.retireGroup g = (c.beginRetire g, 0) := if_neg (by simp [h0, h3])

/-- RETIRE, in each state of the group. -/
theorem retire_states (s : State) (g : Nat) (w : Writer) (hg : g < 256) (hm : s.chip.mayWrite w (pnum 0x28 0x011 0) = true) :
    (s.leaves (fun c => c.beginRetire g) → s.chip.groupState g = 1 → Completes (.retire w g) s fun c =>
      s.chip.Begun c g ∧ .dictReply w 0 [] ∈ c.out) ∧
    (s.serving → s.chip.groupState g = 2 → Completes (.retire w g) s fun c =>
      c.mem = s.chip.mem ∧ c.out = s.chip.out ++ [.dictReply w 0 []]) ∧
    (s.serving → s.chip.groupState g = 0 ∨ s.chip.groupState g = 3 → Completes (.retire w g) s fun c =>
      c = { s.chip with out := s.chip.out ++ [.dictReply w 7 []] }) := by
  refine ⟨fun hs h1 => ?_, fun hs h2 => ?_, fun hs h => ?_⟩
  · have he := Chip.retireGroup_of (c := s.chip) (g := g) (by rw [h1]; decide) (by rw [h1]; decide)
    refine Completes.mono (Chip.retire_completes hg hm (by rw [he]; exact hs.2) (Chip.groupState_lt (by rw [h1]; decide))) fun c hc => ?_
    rw [he] at hc
    obtain ⟨a, b, -, -⟩ := Chip.beginRetire_shrinks h1
    have hv : c.variant = (s.chip.beginRetire g).variant := by rw [hc, Chip.replied_variant]
    have hgr : c.group g = (s.chip.beginRetire g).group g := by rw [hc, Chip.replied_group]
    refine ⟨⟨(Chip.groupState_of hv hgr).trans a, ?_, ?_⟩, ?_⟩
    · rw [hc, Chip.replied_mem, b]
    · rw [hc, Chip.replied_mem, Chip.beginRetire_hbm]
    · rw [hc, Chip.replied_out]; exact List.mem_append_right _ (List.mem_singleton.mpr rfl)
  · have he := Chip.retireGroup_of (c := s.chip) (g := g) (by rw [h2]; decide) (by rw [h2]; decide)
    rw [Chip.beginRetire_other (by rw [h2]; decide)] at he
    refine Completes.mono (Chip.retire_completes hg hm (by rw [he]; exact hs.2) (Chip.groupState_lt (by rw [h2]; decide))) fun c hc => ?_
    rw [hc, he, Chip.replied_mem, Chip.replied_out]
    exact ⟨rfl, rfl⟩
  · have he : s.chip.retireGroup g = (s.chip, 7) := if_pos h
    have ha : s.chip.numWrite w 0x28 0x011 0 1 g = s.chip.replied w 7 := by
      rw [Chip.retire_answers hm hg, he]
      split <;> rfl
    exact Completes.of_runAny (exec_retire w g s) (by rw [ha, Chip.replied_calm]; exact hs.2) ha

/-- A group fails while it is in service or migrating. -/
theorem groupFails_states (s : State) (g : Nat) (hs : s.leaves (fun c => c.groupFails g)) :
    (s.chip.groupState g = 1 → Completes (.channelGroupFailure g) s fun c => s.chip.Begun c g ∧
      (c.group g).dead = true ∧ c.noted s.chip (0x60 + g) 0x103) ∧
    (s.chip.groupState g = 2 → Completes (.channelGroupFailure g) s fun c => c.groupState g = 2 ∧ c.mem.size = s.chip.mem.size ∧
      c.mem.hbm = s.chip.mem.hbm ∧ (c.group g).dead = true ∧ c.noted s.chip (0x60 + g) 0x103) := by
  have hd := s.chip.dead_state g
  have hown := (s.chip.group_updGroup g g fun x => { x with dead := true }).trans (if_pos rfl)
  have hl : s.chip.LaysAs (s.chip.updGroup g fun x => { x with dead := true }) := s.chip.updGroup_lays g fun _ => rfl
  refine ⟨fun h1 => ?_, fun h2 => ?_⟩
  · have h0 : s.chip.groupState g ≠ 0 := by rw [h1]; decide
    have h3 : s.chip.groupState g ≠ 3 := by rw [h1]; decide
    obtain ⟨a, b, -, y⟩ := (Chip.beginRetire_shrinks (hd.trans h1)).raise (groupUnit g) 0x103 11 (groupUnit g) 0 0
    have he := Chip.groupFails_eq h0 h3
    refine Completes.of_run (exec_channelGroupFailure g s) hs.1 hs.2 ⟨⟨?_, ?_, s.chip.groupFails_hbm g⟩, ?_, Chip.groupFails_noted h0 h3 hs.2⟩
    · rw [he]; exact a
    · rw [he, b, hl.freeBeside fun x hx => congrArg Group.state ((s.chip.group_updGroup g x _).trans (if_neg hx))]
      rfl
    · rw [he, y, hown]
  · have h0 : s.chip.groupState g ≠ 0 := by rw [h2]; decide
    have h3 : s.chip.groupState g ≠ 3 := by rw [h2]; decide
    have he := Chip.groupFails_eq h0 h3
    rw [Chip.beginRetire_other (by rw [hd, h2]; decide)] at he
    have hr := (s.chip.updGroup g fun x => { x with dead := true }).raise_reacts (groupUnit g) 0x103 11 (groupUnit g) 0 0
    refine Completes.of_run (exec_channelGroupFailure g s) hs.1 hs.2
      ⟨?_, ?_, s.chip.groupFails_hbm g, ?_, Chip.groupFails_noted h0 h3 hs.2⟩
    · rw [he, Chip.groupState_of hr.variant (Chip.raise_group ..), hd, h2]
    · rw [he, hr.mem]; exact hl.size
    · rw [he, Chip.raise_group, hown]

/-- The patrol scrub of a group in service or migrating reads a bad word. -/
theorem scrub_states (s : State) (g a : Nat) (h : s.chip.groupState g = 1 ∨ s.chip.groupState g = 2) :
    (s.leaves (fun c => c.correctedError g a) → s.chip.selfRetires g = false ∨ s.chip.groupState g = 2 →
      Completes (.hbmPatrolScrub g a .corrected) s fun c => c.groupState g = s.chip.groupState g ∧ s.chip.now ∈ (c.group g).corrected ∧
        c.mem.hbm = s.chip.mem.hbm ∧ c.mem.size = s.chip.mem.size ∧ c.noted s.chip (0x60 + g) 0x100) ∧
    (s.leaves (fun c => c.correctedError g a) → s.chip.selfRetires g = true → s.chip.groupState g = 1 →
      Completes (.hbmPatrolScrub g a .corrected) s fun c => s.chip.Begun c g) ∧
    (s.leaves (fun c => c.uncorrectableWord g a) → Completes (.hbmPatrolScrub g a .uncorrectable) s fun c =>
      c.groupState g = s.chip.groupState g ∧ c.mem.hbm = s.chip.mem.hbm ∧ c.noted s.chip (0x60 + g) 0x101 ∧
      ∀ o, s.chip.hbmOffset? g a = some o → o / 64 ∈ c.mem.poison ∨
        s.chip.copying (s.chip.deviceSlabs + o / slabBytes) = true ∧ c.mem.poison = s.chip.mem.poison) := by
  have h0 : s.chip.groupState g ≠ 0 := by omega
  have hp : s.chip.patrolScrub g a .corrected = s.chip.correctedError g a := if_neg (by omega)
  have hw : s.chip.patrolScrub g a .uncorrectable = s.chip.uncorrectableWord g a := if_neg (by omega)
  have he := s.chip.correctedError_eq g a
  refine ⟨fun ⟨hu, hc⟩ hr => ?_, fun ⟨hu, hc⟩ hr h1 => ?_, fun ⟨hu, hc⟩ => ?_⟩
  · have hk : s.chip.correctedError g a = s.chip.errorCounted g a := by
      rw [he]
      split
      · next ht =>
        exact Chip.beginRetire_other (by rw [Chip.errorCounted_state]; obtain hr | hr := hr <;> simp_all)
      · rfl
    refine Completes.of_run (exec_hbmPatrolScrub g a .corrected s) hu (by rw [hp]; exact hc) ?_
    rw [hp, hk]
    refine ⟨s.chip.errorCounted_state g a, ?_, s.chip.errorCounted_hbm g a, s.chip.errorCounted_size g a,
      Chip.errorCounted_noted h0 (hk ▸ hc)⟩
    rw [Chip.errorCounted_group]
    exact List.mem_cons_self
  · rw [if_pos hr] at he
    obtain ⟨x, y, -, -⟩ := Chip.beginRetire_shrinks ((s.chip.errorCounted_state g a).trans h1)
    refine Completes.of_run (exec_hbmPatrolScrub g a .corrected s) hu (by rw [hp]; exact hc) ?_
    rw [hp]
    refine ⟨by rw [he]; exact x, ?_, s.chip.correctedError_hbm g a⟩
    rw [he, y, Chip.errorCounted_size, Chip.errorCounted_beside]
  · refine Completes.of_run (exec_hbmPatrolScrub g a .uncorrectable s) hu (by rw [hw]; exact hc) ?_
    rw [hw]
    obtain ⟨d, d0, d1, hd, hv, hf, hg, hq⟩ := s.chip.uncorrectableWord_eq g a
    have hc : (s.chip.uncorrectableWord g a).calm = true := hc
    rw [hd] at hc ⊢
    have hr := d.raise_reacts (groupUnit g) 0x101 6 (hbmSubject g a) d0 d1
    refine ⟨Chip.groupState_of (hr.variant.trans hv) ((Chip.raise_group ..).trans hg), ?_, ?_, ?_⟩
    · rw [← hd, Chip.uncorrectableWord_hbm]
    · exact (Chip.group_noted h0 hv hc (.inr (.inl rfl))).before (by rw [hf]) (by rw [hf])
    · rw [hr.mem]; exact hq

/-- Settles O46: retirement begins with the layout of fabric memory as it was, and what is withdrawn then touches neither the groups
nor the fault collector. -/
theorem channelGroupsRetire : Obligations.ChannelGroupsRetire := by
  intro s g
  refine ⟨fun w hg hm => ?_, fun hs h => ?_, fun hs => ?_, fun l => ⟨fun hs h => ?_, fun hs h hn => ?_⟩, fun a => ⟨fun o hs h => ?_, fun h => ?_⟩⟩
  · obtain ⟨h1, h2, h3⟩ := retire_states s g w hg hm
    exact ⟨fun hs h => Completes.mono (h1 hs h) fun c hc => hc, h2, h3⟩
  · exact Chip.still_completes (exec_channelGroupFailure g s) hs (if_pos h)
  · obtain ⟨h1, h2⟩ := groupFails_states s g hs
    exact ⟨fun h => Completes.mono (h1 h) fun c hc => hc, h2⟩
  · exact Chip.still_completes (exec_retirementComplete g l s) hs (if_pos h)
  · have hr := Chip.retirementComplete_reacts h l
    refine Completes.of_run (exec_retirementComplete g l s) hs.1 hs.2 ⟨?_, s.chip.retirementComplete_hbm g l, ?_,
      Chip.retirementComplete_noted h l hs.2, fun r hm hp => ⟨?_, fun hd => ⟨fun b hb hbr => ?_, fun hdead => ?_⟩⟩⟩
    · rw [Chip.groupState_of hr.variant (by rw [Chip.group, hr.mem]; rfl)]
      exact Chip.retired_state h l
    · rw [hr.mem]; rfl
    · rw [(Chip.LaysAs.of_same hr.mem hr.variant hr.serial).slabPlace]
      exact Chip.retired_placed l hn hm hp
    · rw [hr.mem]
      refine (mem_foldl_insertNat ..).mpr (.inl (List.mem_filter.mpr ⟨hb, ?_⟩))
      rw [hbr]
      exact List.contains_iff_mem.mpr (Chip.mem_movedFabric hm hp hd)
    · rw [hr.mem]
      refine (mem_foldl_insertNat ..).mpr (.inl ?_)
      rw [if_pos hdead]
      exact Chip.mem_movedFabric hm hp hd
  · refine Chip.still_completes (exec_hbmPatrolScrub g a o s) hs ?_
    obtain h | rfl := h
    · exact if_pos h
    · exact ite_self _
  · exact scrub_states s g a h

end Sys2Proof.Machine
end


section
/-! CXL.mem lines (R306 to R308). -/

set_option Elab.async false

namespace Sys2Proof.Machine

/-! ### Bytes of fabric memory -/

theorem cellGet?_put (m : List Host.Cell) (a : Nat) (b : Byte) (k : Nat) :
    cellGet? (cellPut m a b) k = if k = a then some b else cellGet? m k := by
  induction m with
  | nil => rfl
  | cons x r ih =>
    obtain ⟨a1, b1⟩ := x
    unfold cellPut
    split
    · rfl
    · split
      · next h => subst h; unfold cellGet?; split <;> simp_all
      · unfold cellGet?
        rw [ih]
        split
        · next h => subst h; rw [if_neg (by omega)]
        · rfl

theorem cellGet?_write (l : List Byte) (m : List Host.Cell) (a k : Nat) :
    cellGet? (cellWrite m a l) k = if a ≤ k then (l[k - a]?).or (cellGet? m k) else cellGet? m k := by
  induction l generalizing m a with
  | nil => simp [cellWrite]
  | cons b r ih =>
    unfold cellWrite
    rw [ih, cellGet?_put]
    by_cases h : k = a
    · simp [h]
    · by_cases h1 : a < k
      · rw [if_pos (show a + 1 ≤ k by omega), if_pos (show a ≤ k by omega), if_neg h, show k - a = (k - (a + 1)) + 1 by omega, List.getElem?_cons_succ]
      · rw [if_neg (show ¬a + 1 ≤ k by omega), if_neg (show ¬a ≤ k by omega), if_neg h]

/-- A byte after a write: the one written there, or the one that was there. -/
theorem Mem.byte_write (m : Mem) (a : Nat) (l : List Byte) (k : Nat) :
    (m.write a l).byte k = if a ≤ k then (l[k - a]?).getD (m.byte k) else m.byte k := by
  unfold Mem.byte
  rw [show (m.write a l).hbm = cellWrite m.hbm a l from rfl, cellGet?_write]
  split
  · cases l[k - a]? <;> rfl
  · rfl

/-- Blocks written whole are healed where their slab is lost. -/
theorem mem_foldl_heal {p : Nat → Bool} {b : Nat} (hp : p b = true) (l h : List Nat) (hm : b ∈ l ∨ b ∈ h) :
    b ∈ l.foldl (fun h b => if p b then insertNat b h else h) h := by
  induction l generalizing h with
  | nil => simpa using hm
  | cons a l ih =>
    refine ih _ ?_
    rw [List.mem_cons] at hm
    obtain (rfl | hm) | hm := hm
    · right; simp only [hp, if_true]; exact mem_insertNat.mpr (.inl rfl)
    · exact .inl hm
    · right
      dsimp only
      split
      · exact mem_insertNat.mpr (.inr hm)
      · exact hm

theorem mem_coveredBlocks {o : Nat} (ho : o % 64 = 0) : o / 64 ∈ coveredBlocks o 64 := by
  refine List.mem_filter.mpr ⟨List.mem_map.mpr ⟨0, by simp, ?_⟩, by simp; omega⟩
  unfold divUp
  omega

/-- A write of an aligned line clears its poison. -/
theorem Mem.poisoned_write (m : Mem) {o : Nat} {l : List Byte} (hl : l.length = 64) (ho : o % 64 = 0) : (m.write o l).poisoned o 64 = false := by
  have he : (o + 64 - 1) / 64 = o / 64 := by omega
  have hp : (m.write o l).poison.any (fun b => decide (o / 64 ≤ b) && decide (b ≤ o / 64)) = false := by
    rw [List.any_eq_false]
    intro b hb
    have hf := (List.mem_filter.mp hb).2
    rw [hl] at hf
    simp at hf ⊢
    omega
  have hh : (m.lostSlabs.contains (o / 64 / 524288) && !(m.write o l).healed.contains (o / 64)) = false := by
    by_cases hs : m.lostSlabs.contains (o / 64 / 524288) = true
    · have hm : o / 64 ∈ (m.write o l).healed :=
        mem_foldl_heal (p := fun b => m.lostSlabs.contains (b / 524288)) hs _ _ (.inl (by rw [hl]; exact mem_coveredBlocks ho))
      rw [List.contains_iff_mem.mpr hm, Bool.not_true, Bool.and_false]
    · rw [Bool.eq_false_iff.mpr hs, Bool.false_and]
  unfold Mem.poisoned
  rw [he, hp, show (m.write o l).lostSlabs = m.lostSlabs from rfl, show o / 64 + 1 - o / 64 = 1 by omega]
  simp only [List.range_one, List.any_cons, List.any_nil, Nat.add_zero, hh, Bool.or_false, Bool.and_false]

/-! ### The bytes of a write -/

theorem Chip.hbmWrite_byte (c : Chip) (a : Nat) (l : List Byte) (k : Nat) :
    (c.hbmWrite a l).mem.byte k = if a ≤ k then (l[k - a]?).getD (c.mem.byte k) else c.mem.byte k := c.mem.byte_write a l k

/-- The bytes that a partial write enables, one after the other. -/
theorem Chip.maskedWrite_byte (l : List (Option Byte)) (c : Chip) (o i k : Nat) :
    ((l.zipIdx i).foldl (fun c r => match r.1 with
      | some b => Chip.hbmWrite c (o + r.2) [b]
      | none => c) c).mem.byte k =
    if o + i ≤ k then ((l[k - (o + i)]?).join).getD (c.mem.byte k) else c.mem.byte k := by
  induction l generalizing c i with
  | nil => simp
  | cons x l ih =>
    rw [List.zipIdx_cons, List.foldl_cons, ih]
    by_cases h : o + i ≤ k
    · by_cases he : k = o + i
      · subst he
        rw [if_neg (by omega), if_pos (by omega)]
        cases x with
        | none => simp
        | some b => rw [Chip.hbmWrite_byte]; simp
      · rw [if_pos (by omega), if_pos h, show k - (o + i) = k - (o + (i + 1)) + 1 by omega, List.getElem?_cons_succ]
        cases x with
        | none => rfl
        | some b =>
          dsimp only
          rw [Chip.hbmWrite_byte, if_pos h, show k - (o + i) = k - (o + (i + 1)) + 1 by omega]
          rfl
    · rw [if_neg (by omega), if_neg h]
      cases x with
      | none => rfl
      | some b => exact (Chip.hbmWrite_byte ..).trans (if_neg h)

theorem filterMap_all_some {l : List (Option Byte)} (h : l.all (·.isSome) = true) : (l.filterMap fun b => b).map some = l := by
  induction l with
  | nil => rfl
  | cons x l ih =>
    rw [List.all_cons, Bool.and_eq_true] at h
    obtain ⟨b, rfl⟩ := Option.isSome_iff_exists.mp h.1
    simpa using ih h.2

/-- A line write stores exactly the bytes that it enables. -/
theorem Chip.cxlBytes_byte (c : Chip) (o : Nat) (l : List (Option Byte)) (k : Nat) :
    (c.cxlBytes o l).mem.byte k = if o ≤ k then ((l[k - o]?).join).getD (c.mem.byte k) else c.mem.byte k := by
  unfold Chip.cxlBytes
  split
  · next h =>
    rw [Chip.hbmWrite_byte]
    have hj : l[k - o]?.join = (l.filterMap fun b => b)[k - o]? := by
      conv_lhs => rw [← filterMap_all_some h, List.getElem?_map]
      cases (l.filterMap fun b => b)[k - o]? <;> rfl
    rw [hj]
  · exact Chip.maskedWrite_byte l c o 0 k

/-- A line write changes fabric memory alone. -/
theorem Chip.cxlBytes_same (c : Chip) (o : Nat) (l : List (Option Byte)) : ∃ m, c.cxlBytes o l = { c with mem := m } := by
  unfold Chip.cxlBytes
  split
  · exact ⟨_, rfl⟩
  · have : ∀ (l : List (Option Byte × Nat)) (m : Mem), ∃ m', l.foldl (fun c r => match r.1 with
        | some b => Chip.hbmWrite c (o + r.2) [b]
        | none => c) { c with mem := m } = { c with mem := m' } := by
      intro l
      induction l with
      | nil => exact fun m => ⟨m, rfl⟩
      | cons x l ih =>
        intro m
        obtain ⟨_ | b, i⟩ := x
        · exact ih m
        · exact ih (m.write (o + i) [b])
    exact this l.zipIdx c.mem

/-! ### The commands -/

/-- Where a line lies: the decoder and the fabric offset, if the port serves it. -/
def Chip.cxlLine (c : Chip) (h d : Nat) : Option (Nat × Nat) := if c.cxlServes h ∧ d % 64 = 0 then (c.port h).cxlPlace d else none

theorem Chip.cxlLine_some {c : Chip} {h d i o : Nat} (hp : c.cxlLine h d = some (i, o)) :
    ¬((!c.cxlServes h) = true ∨ d % 64 ≠ 0) ∧ (c.port h).cxlPlace d = some (i, o) := by
  unfold Chip.cxlLine at hp
  split at hp
  · next hs => exact ⟨by simp [hs], hp⟩
  · contradiction

theorem Chip.cxlRead_none {c : Chip} {h d : Nat} (hp : c.cxlLine h d = none) : c.cxlRead h d = c := by
  unfold Chip.cxlRead
  split
  · rfl
  · next hs =>
    have hp' : (c.port h).cxlPlace d = none := by rwa [Chip.cxlLine, if_pos (by simpa using hs)] at hp
    rw [hp']

theorem Chip.cxlWrite_none {c : Chip} {h d : Nat} {l : List (Option Byte)} (hp : c.cxlLine h d = none ∨ l.length ≠ 64) :
    c.cxlWrite h d l = c := by
  unfold Chip.cxlWrite
  split
  · rfl
  · next hs =>
    simp only [not_or, Bool.not_eq_true, Bool.not_eq_false', ne_eq, not_not] at hs
    obtain ⟨h1, h2, h3⟩ := hs
    have hp' : (c.port h).cxlPlace d = none := by
      have := hp.resolve_right (· h3)
      rwa [Chip.cxlLine, if_pos ⟨h1, h2⟩] at this
    rw [hp']

theorem Chip.poisonRead_reacts (c : Chip) (o k : Nat) : c.Reacts (c.poisonRead o k) := by
  unfold Chip.poisonRead
  extract_lets raised
  split
  · exact c.raise_reacts ..
  · exact .trans ⟨rfl⟩ (Chip.raise_reacts c.drawn ..)

section
variable {c : Chip} {h d i o : Nat} (hp : c.cxlLine h d = some (i, o))
include hp

theorem Chip.cxlRead_withdrawn (hw : i ∈ (c.port h).cxlWithdrawn) :
    c.cxlRead h d = (c.emit (.cxlData h (freeBytes c.freeNow 64) true)).drawn := by
  obtain ⟨h1, h2⟩ := Chip.cxlLine_some hp
  unfold Chip.cxlRead
  rw [if_neg h1, h2]
  exact if_pos (List.contains_iff_mem.mpr hw)

theorem Chip.cxlRead_reads (hw : i ∉ (c.port h).cxlWithdrawn) : c.cxlRead h d =
    (if c.mem.poisoned o 64 then c.poisonRead o 7 else c).emit (.cxlData h (c.mem.read o 64) (c.mem.poisoned o 64)) := by
  obtain ⟨h1, h2⟩ := Chip.cxlLine_some hp
  unfold Chip.cxlRead
  rw [if_neg h1, h2]
  refine (if_neg fun hc => hw (List.contains_iff_mem.mp hc)).trans ?_
  split
  · next hx => rw [hx]
  · next hx => rw [Bool.eq_false_iff.mpr hx]

theorem Chip.cxlWrite_line {l : List (Option Byte)} (hl : l.length = 64) :
    c.cxlWrite h d l = if (c.port h).cxlWithdrawn.contains i then c.bump (60 + h) .cxlDiscard else c.cxlBytes o l := by
  obtain ⟨h1, h2⟩ := Chip.cxlLine_some hp
  unfold Chip.cxlWrite
  rw [if_neg (by rw [← or_assoc]; exact fun hn => hn.elim h1 (· hl)), h2]

end

/-- Settles O47: a line write is a write of its enabled bytes, and the poison of an aligned block goes with all 64. -/
theorem cxlLinesAreReadAndWritten : Obligations.CxlLinesAreReadAndWritten := by
  intro s h d l
  refine ⟨fun hs => ⟨fun hp => ?_, fun hp => ?_⟩, fun i o hp => ⟨fun hs hw => ⟨?_, fun hl => ?_⟩, fun hw => ⟨fun hs => ?_, fun hs hl => ?_⟩⟩⟩
  · exact Chip.still_completes (exec_cxlMemRead h d s) hs (Chip.cxlRead_none hp)
  · exact Chip.still_completes (exec_cxlMemWrite h d l s) hs (Chip.cxlWrite_none hp)
  · have he := Chip.cxlRead_withdrawn hp hw
    refine Completes.of_run (exec_cxlMemRead h d s) hs.1 (by rw [he]; exact hs.2) ?_
    rw [he]
    exact ⟨rfl, rfl, freeBytes s.chip.freeNow 64, by simp [freeBytes], rfl⟩
  · have he := (Chip.cxlWrite_line hp hl).trans (if_pos (List.contains_iff_mem.mpr hw))
    refine Completes.of_run (exec_cxlMemWrite h d l s) hs.1 (by rw [he, (s.chip.bump_reports ..).calm]; exact hs.2) ?_
    rw [he]
    exact ⟨rfl, rfl, rfl⟩
  · have he := Chip.cxlRead_reads hp hw
    refine Completes.of_run (exec_cxlMemRead h d s) hs.1 hs.2 ?_
    rw [he]
    refine ⟨List.mem_append_right _ (List.mem_singleton.mpr rfl), ?_⟩
    show (if _ then _ else _ : Chip).mem = _
    split
    · exact (s.chip.poisonRead_reacts o 7).mem
    · rfl
  · have he := (Chip.cxlWrite_line hp hl).trans (if_neg fun hc => hw (List.contains_iff_mem.mp hc))
    obtain ⟨m, hm⟩ := s.chip.cxlBytes_same o l
    refine Completes.of_run (exec_cxlMemWrite h d l s) hs.1 (by rw [he, hm]; exact hs.2) ?_
    rw [he]
    refine ⟨by rw [hm], fun j hj => ?_, fun b hb => ?_, fun ha ho => ?_⟩
    · rw [Chip.cxlBytes_byte, if_pos (by omega), show o + j - o = j by omega]
    · rw [Chip.cxlBytes_byte]
      split
      · rw [List.getElem?_eq_none (by omega)]; rfl
      · rfl
    · have hk : (l.filterMap fun b => b).length = 64 := by
        rw [← hl, ← congrArg List.length (filterMap_all_some ha), List.length_map]
      unfold Chip.cxlBytes
      rw [if_pos ha]
      exact s.chip.mem.poisoned_write hk ho

end Sys2Proof.Machine
end


section
/-! Occurrences whose reaction resets (R455, R457, R459, R473, R484). -/

set_option Elab.async false

namespace Sys2Proof.Machine

/-! ### What is decided is carried out -/

theorem Chip.carryOn_calm {c : Chip} (h : c.calm = true) (n : Nat) : c.carryOn n = c := by
  obtain ⟨h1, h2, h3, -⟩ := c.calm_iff.mp h
  cases n with
  | zero => rfl
  | succ n =>
    unfold Chip.carryOn
    rw [h1, h2, h3]
    rfl

/-- What has been carried out and leaves nothing more is what the step leaves. -/
theorem Chip.settle_of_carryOn {c d : Chip} (h : c.carryOn 64 = d) (hd : d.calm = true) : c.settle = d := by
  refine Eq.trans ?_ (d.settle_calm hd)
  unfold Chip.settle
  rw [h, Chip.carryOn_calm hd 64]

/-- A chip reset that is due comes before everything else (R458). -/
theorem Chip.settle_reset {c : Chip} (h : c.flt.resetDue = true) : c.settle = c.fatalResets := by
  refine Chip.settle_of_carryOn ?_ rfl
  show c.carryOn (63 + 1) = _
  unfold Chip.carryOn
  exact if_pos h

/-- One unit's block reset that is due, and leaves nothing more. -/
theorem Chip.settle_due {c : Chip} {u : Nat} (h : c.flt.resetDue = false) (hd : c.flt.due = [u]) (ha : (c.afterReset u).calm = true) :
    c.settle = c.afterReset u := by
  refine Chip.settle_of_carryOn ?_ ha
  show c.carryOn (63 + 1) = _
  unfold Chip.carryOn
  rw [h, hd]
  refine (if_neg (by decide)).trans ?_
  have he : Chip.blockReset { c with flt := { c.flt with due := [] } } u = c.afterReset u := by
    unfold Chip.afterReset
    rw [hd]
    rfl
  exact (congrArg (fun d => Chip.carryOn d 63) he).trans (Chip.carryOn_calm ha 63)

/-! ### A reported occurrence -/

/-- The chip on which a reported occurrence is counted: a condition is present. -/
def Chip.present (c : Chip) (u k : Nat) : Chip :=
  if (sourceInfo u k).cond then c.drawn.setSrc u k { c.src u k with now := true } else c.drawn

/-- An occurrence counted and entered in the collector, before its reaction. -/
def Chip.counted (c : Chip) (u k skind subject : Nat) (d0 : Word) : Chip :=
  (c.setSrc u k (c.src u k).occurs).enterRecord u k skind subject d0 0

/-- `d` is `c` but for rows of sources, records and drawn values. -/
structure Chip.Counts (c d : Chip) : Prop where
  boot : d.boot = c.boot
  dict : d.dict = c.dict
  tb : d.tb = c.tb
  variant : d.variant = c.variant
  serial : d.serial = c.serial
  inReset : d.flt.inReset = c.flt.inReset
  heldUnits : d.flt.heldUnits = c.flt.heldUnits
  resets : d.flt.resets = c.flt.resets
  due : d.flt.due = c.flt.due
  resetDue : d.flt.resetDue = c.flt.resetDue
  held : ∀ k, (Tab.get d.flt.sources k Source.init).held = (Tab.get c.flt.sources k Source.init).held

theorem Chip.Counts.trans {c d e : Chip} (h : c.Counts d) (k : d.Counts e) : c.Counts e :=
  ⟨k.boot.trans h.boot, k.dict.trans h.dict, k.tb.trans h.tb, k.variant.trans h.variant, k.serial.trans h.serial, k.inReset.trans h.inReset,
    k.heldUnits.trans h.heldUnits, k.resets.trans h.resets, k.due.trans h.due, k.resetDue.trans h.resetDue,
    fun n => (k.held n).trans (h.held n)⟩

theorem Chip.setSrc_counts (c : Chip) (u k : Nat) (s : Source) (hs : s.held = (c.src u k).held) : c.Counts (c.setSrc u k s) := by
  refine ⟨rfl, rfl, rfl, rfl, rfl, rfl, rfl, rfl, rfl, rfl, fun n => ?_⟩
  show (Tab.get (Tab.set c.flt.sources Source.init (srcKey u k) s) n Source.init).held = _
  by_cases hn : n = srcKey u k
  · rw [hn, Tab.get_set_self]; exact hs
  · rw [Tab.get_set_ne _ _ _ hn]

theorem Chip.present_counts (c : Chip) (u k : Nat) : c.Counts (c.present u k) := by
  unfold Chip.present
  split
  · exact .trans (d := c.drawn) ⟨rfl, rfl, rfl, rfl, rfl, rfl, rfl, rfl, rfl, rfl, fun _ => rfl⟩ (c.drawn.setSrc_counts u k { c.src u k with now := true } rfl)
  · exact ⟨rfl, rfl, rfl, rfl, rfl, rfl, rfl, rfl, rfl, rfl, fun _ => rfl⟩

theorem Chip.enterRecord_counts (c : Chip) (u k skind subject : Nat) (d0 d1 : Word) : c.Counts (c.enterRecord u k skind subject d0 d1) := by
  have hr := c.enterRecord_rest u k skind subject d0 d1
  have ho := c.enterRecord_reports u k skind subject d0 d1
  simp only [Faults.rest, Prod.mk.injEq] at hr
  obtain ⟨h1, h2, h3, h4, h5, h6⟩ := hr
  exact ⟨ho.boot, ho.dict, ho.tb, ho.variant, ho.serial, h3, h4, h5, h1, h2, fun n => by rw [h6]⟩

theorem Chip.counted_counts (c : Chip) (u k skind subject : Nat) (d0 : Word) : c.Counts (c.counted u k skind subject d0) :=
  (c.setSrc_counts u k (c.src u k).occurs rfl).trans (Chip.enterRecord_counts ..)

theorem Chip.counted_pend (c : Chip) (u k skind subject : Nat) (d0 : Word) : ((c.counted u k skind subject d0).src u k).pend = true := by
  have hr := (c.setSrc u k (c.src u k).occurs).enterRecord_rest u k skind subject d0 0
  simp only [Faults.rest, Prod.mk.injEq] at hr
  obtain ⟨-, -, -, -, -, h6⟩ := hr
  have he : (c.counted u k skind subject d0).src u k = (c.setSrc u k (c.src u k).occurs).src u k := by
    show Tab.get (c.counted u k skind subject d0).flt.sources (srcKey u k) Source.init = _
    rw [Chip.counted, h6]
    rfl
  rw [he, Chip.src_setSrc_self]
  rfl

section
variable {c : Chip} {u k : Nat} (hp : unitPresent c.variant u = true) (hi : isCause u k = true) (hs : c.unitStopped u = false)
include hp hi hs

theorem Chip.occurrence_counted (skind subject : Nat) (d0 : Word) : c.occurrence u k skind subject d0 0 =
    (c.counted u k skind subject d0).react u k skind subject d0 0 (c.src u k).pend := by
  unfold Chip.unitStopped at hs
  rw [Bool.or_eq_false_iff] at hs
  obtain ⟨h1, h2⟩ := hs
  unfold Chip.occurrence
  rw [hp, hi, h1, h2]
  rfl

end

/-- The occurrence that a report is. -/
def Chip.reported (c : Chip) (u k skind subject : Nat) : Chip :=
  (c.present u k).occurrence u k (if namedCause u k then skind else 11) (if namedCause u k then subject else u) (c.reportDetail k) 0

section
variable {c : Chip} {u k skind subject : Nat} (hp : unitPresent c.variant u = true) (hi : isCause u k = true) (ht : c.ticking = true)
  (hk : skind < 13) (hn : (sourceInfo u k).cond = true → (c.src u k).now = false)
include hp hi ht hk hn

/-- A report is the occurrence, then what the ports of a stalled macro do. -/
theorem Chip.reportFault_eq : c.reportFault u k skind subject =
    if (sourceInfo u k).cond then (c.reported u k skind subject).stallPorts u else c.reported u k skind subject := by
  unfold Chip.reportFault Chip.reported Chip.present
  rw [if_neg (by simp [ht]; omega)]
  dsimp only
  by_cases hc : (sourceInfo u k).cond = true
  · rw [if_pos (by rw [hc, hi]; rfl), if_pos hc, if_pos hc]
    unfold Chip.setCond
    rw [if_neg (by rw [show c.drawn.variant = c.variant from rfl, hp]; decide)]
    dsimp only
    rw [if_neg (by rw [show c.drawn.src u k = c.src u k from rfl, hn hc]; decide)]
    rfl
  · rw [if_neg (by simp [hc]), if_neg hc, if_neg hc]
    rfl

theorem Chip.reportFault_holds : Holds (c.reported u k skind subject).watch (c.reportFault u k skind subject).watch := by
  rw [Chip.reportFault_eq hp hi ht hk hn]
  split
  · unfold Chip.stallPorts
    split
    · exact Chip.rerouteAll_holds _ _ (Chip.rerouteAll_holds _ _ (.refl _))
    · exact .refl _
  · exact .refl _

end

theorem Chip.reported_react {c : Chip} {u k skind subject : Nat} (hp : unitPresent c.variant u = true) (hi : isCause u k = true)
    (hs : c.unitStopped u = false) : ∃ (e : Chip) (sk sb : Nat) (d0 : Word) (b : Bool), c.Counts e ∧ (e.src u k).pend = true ∧
      c.reported u k skind subject = e.react u k sk sb d0 0 b := by
  have hC := c.present_counts u k
  have hs' : (c.present u k).unitStopped u = false := by
    unfold Chip.unitStopped at hs ⊢
    rwa [hC.inReset, hC.heldUnits]
  exact ⟨_, _, _, _, _, hC.trans (Chip.counted_counts ..), Chip.counted_pend ..,
    Chip.occurrence_counted (hC.variant.symm ▸ hp) hi hs' _ _ _⟩

theorem Chip.Counts.of_reports {c d : Chip} (h : Chip.OnlyReports c d) (hw : d.watch = c.watch) : c.Counts d := by
  have hf : d.flt = c.flt := (Prod.mk.inj hw).1
  exact ⟨h.boot, h.dict, h.tb, h.variant, h.serial, by rw [hf], by rw [hf], by rw [hf], by rw [hf], by rw [hf], fun k => by rw [hf]⟩

section
variable {c d : Chip} (h : c.Counts d)
include h

theorem Chip.Counts.param (a o e : Nat) : d.param a o e = c.param a o e := by
  unfold Chip.param
  rw [h.dict, h.variant, h.serial, h.boot]

theorem Chip.Counts.now : d.now = c.now := by unfold Chip.now; rw [h.tb]

theorem Chip.Counts.reactionOf (u k : Nat) : d.reactionOf u k = c.reactionOf u k := by
  unfold Chip.reactionOf Chip.control
  rw [h.param]

theorem Chip.Counts.recentResets (u : Nat) : d.recentResets u = c.recentResets u := by
  unfold Chip.recentResets
  rw [h.resets, h.now, h.param]

theorem Chip.Counts.unitStopped (u : Nat) : d.unitStopped u = c.unitStopped u := by
  unfold Chip.unitStopped
  rw [h.inReset, h.heldUnits]

end

/-! ### Reaction 3 -/

theorem Chip.setHeld_held (c : Chip) {u k : Nat} (hi : isCause u k = true) : ((c.setHeld u true).src u k).held = true := by
  have hk : k ∈ [1, 2, 3, 4] ++ (List.range (causesOf u - 4)).map (0x100 + ·) := by
    unfold isCause at hi
    simp only [Bool.or_eq_true, Bool.and_eq_true, decide_eq_true_eq] at hi
    rw [List.mem_append, List.mem_map]
    obtain ⟨h1, h2⟩ | ⟨h1, h2⟩ := hi
    · left; simp; omega
    · exact .inr ⟨k - 0x100, List.mem_range.mpr (by omega), by omega⟩
  have : ∀ (l : List Nat) (c : Chip), k ∈ l ∨ (c.src u k).held = true →
      ((l.foldl (fun c k => c.setSrc u k { c.src u k with held := true }) c).src u k).held = true := by
    intro l
    induction l with
    | nil => simp
    | cons a l ih =>
      intro c hm
      refine ih _ ?_
      by_cases ha : srcKey u k = srcKey u a
      · right; rw [Chip.src_setSrc, if_pos ha]
      · obtain hm | hm := hm
        · obtain rfl | hm := List.mem_cons.mp hm
          · exact absurd rfl ha
          · exact .inl hm
        · right; rwa [Chip.src_setSrc, if_neg ha]
  exact this _ c (.inl hk)

theorem Chip.unitHeldOccurs_counts (c : Chip) (unit : Nat) : c.Counts (c.unitHeldOccurs unit) := by
  unfold Chip.unitHeldOccurs
  extract_lets s c1 ctl
  have h1 : c.Counts c1 := (c.setSrc_counts 0xC1 0x101 s.occurs rfl).trans (Chip.enterRecord_counts ..)
  have h2 : ∀ d : Chip, Chip.OnlyReports c1 d → d.watch = c1.watch → c.Counts d := fun d ho hw => h1.trans (.of_reports ho hw)
  split
  · exact h1
  · split
    · split
      · exact h2 _ c1.routeFault_reports (by simp)
      · exact h1
    · split
      · exact h2 _ (c1.urgentAll_reports.trans (Chip.eventPFs_reports ..)) (by simp)
      · exact h1

section
variable {c : Chip} {u k : Nat} {b : Bool} (hs : c.unitStopped u = false)
include hs

/-- Reaction 3 decides a block reset. -/
theorem Chip.reaction3_resets (hr : c.recentResets u < c.param 0x30 0xF03 0) :
    let d := c.reaction3 u k b
    d.flt = { c.flt with inReset := insertNat u c.flt.inReset, due := c.flt.due ++ [u], resets := (u, c.now) :: c.flt.resets } := by
  dsimp only
  unfold Chip.reaction3
  extract_lets c1 c2 f2 c3 c4 c5 f5 f1
  have h1 : c.Counts c1 ∧ c1.flt = c.flt := by
    simp only [c1]
    split
    · exact ⟨.of_reports (.refl c) rfl, rfl⟩
    · exact ⟨.of_reports (c.eventPFs_reports ..) (by simp), (c.eventPFs_announces ..).flt⟩
  obtain ⟨hc, hf⟩ := h1
  rw [if_neg (by rw [← Chip.unitStopped, hc.unitStopped, hs]; decide), if_neg (by rw [hc.recentResets, hc.param]; omega)]
  simp only [f1, hf, hc.now]

/-- Reaction 3 after too many block resets holds the unit. -/
theorem Chip.reaction3_stops (hi : isCause u k = true) (hr : c.param 0x30 0xF03 0 ≤ c.recentResets u) :
    let d := c.reaction3 u k b
    u ∈ d.flt.heldUnits ∧ d.flt.inReset = c.flt.inReset ∧ (d.src u k).held = true ∧ d.flt.due = c.flt.due ++ [u] := by
  dsimp only
  unfold Chip.reaction3
  extract_lets c1 c2 f2 c3 c4 c5 f5 f1
  have h1 : c.Counts c1 := by
    simp only [c1]
    split
    · exact .of_reports (.refl c) rfl
    · exact .of_reports (c.eventPFs_reports ..) (by simp)
  rw [if_neg (by rw [← Chip.unitStopped, h1.unitStopped, hs]; decide), if_pos (by rw [h1.recentResets, h1.param]; omega)]
  clear_value f1 c1
  obtain ⟨t, ht⟩ := c1.setHeld_rest u true
  have h2 : c2.flt = { c1.flt with sources := t } := (Prod.mk.inj ht).1
  have h3 : c3.flt.inReset = c1.flt.inReset ∧ c3.flt.due = c1.flt.due := by
    simp only [c3, f2]
    rw [h2]
    exact ⟨rfl, rfl⟩
  have hh : (Tab.get c3.flt.sources (srcKey u k) Source.init).held = true := by
    rw [show c3.flt.sources = c2.flt.sources from rfl]
    exact c1.setHeld_held hi
  have hu : u ∈ c3.flt.heldUnits := mem_insertNat.mpr (.inl rfl)
  clear_value c3
  have h4 : c3.Counts c4 := by
    simp only [c4]
    split
    · exact .of_reports (c3.eventPFs_reports ..) (by simp)
    · exact .of_reports (.refl c3) rfl
  have h5 : c3.Counts c5 := h4.trans (c4.unitHeldOccurs_counts u)
  have e5 : f5 = c5.flt := rfl
  clear_value f5 c5
  subst e5
  refine ⟨?_, ?_, ?_, ?_⟩
  · show u ∈ c5.flt.heldUnits
    rw [h5.heldUnits]
    exact hu
  · exact (h5.inReset.trans h3.1).trans h1.inReset
  · exact (h5.held (srcKey u k)).trans hh
  · exact congrArg (· ++ [u]) ((h5.due.trans h3.2).trans h1.due)

end

/-! ### The obligation -/

section
variable {s : State} {u k skind subject : Nat} (hp : unitPresent s.chip.variant u = true) (hi : isCause u k = true)
  (hs : s.chip.unitStopped u = false) (ht : s.chip.ticking = true) (hk : skind < 13)
  (hn : (sourceInfo u k).cond = true → (s.chip.src u k).now = false)
include hp hi hs ht hk hn

/-- Reaction 4 resets the chip. -/
theorem Chip.fatal_report (h4 : s.chip.reactionOf u k = 4) : ∃ r : Record,
    (s.chip.reportFault u k skind subject).flt.resetDue = true ∧
    (s.chip.reportFault u k skind subject).boot.lastFatal.length = 8 ∧
    (s.chip.reportFault u k skind subject).boot.strapLatch = s.chip.boot.strapLatch ∧
    r.source = s.chip.source u ∧ r.cause = k ∧
    ((sourceInfo u k).cond = false → (s.chip.reportFault u k skind subject).boot.lastFatal = recWords r) := by
  obtain ⟨e, sk, sb, d0, b, hC, -, he⟩ := Chip.reported_react (skind := skind) (subject := subject) hp hi hs
  have hre : e.react u k sk sb d0 0 b = e.reaction4 u k sk sb d0 0 := by
    have h := (hC.reactionOf u k).trans h4
    unfold Chip.reactionOf at h
    unfold Chip.react
    simp only [h]
  obtain ⟨r, hb, hr1, hr2, -, hrd⟩ := e.reaction4_watch u k sk sb d0 0
  rw [hre] at he
  rw [← he] at hb hrd
  have hg := (Chip.reportFault_holds (subject := subject) hp hi ht hk hn).grows
  have hsrc : e.source u = s.chip.source u := by unfold Chip.source Chip.id; rw [hC.param]
  refine ⟨r, hg.resetDue hrd, hg.fatal (by rw [show (s.chip.reported u k skind subject).watch.2 = _ from hb]; rfl), ?_,
    hr1.trans hsrc, hr2, fun hc => ?_⟩
  · refine (congrArg Boot.strapLatch hg.boot).trans ((congrArg Boot.strapLatch hb).trans ?_)
    rw [← hC.boot]
  · rw [Chip.reportFault_eq hp hi ht hk hn, if_neg (by simp [hc]), hb]

/-- Reaction 3 leaves one block reset to carry out, on a chip whose collector is as the reaction has left it. -/
theorem Chip.reset_report (h3 : s.chip.reactionOf u k = 3) (hc : s.chip.calm = true)
    (ha : ((s.chip.reportFault u k skind subject).afterReset u).calm = true) : ∃ (e : Chip) (b : Bool),
      s.chip.Counts e ∧ (e.src u k).pend = true ∧
      (s.chip.reportFault u k skind subject).settle = (s.chip.reportFault u k skind subject).afterReset u ∧
      Holding (e.reaction3 u k b).watch ((s.chip.reportFault u k skind subject).afterReset u).watch := by
  obtain ⟨e, sk, sb, d0, b, hC, hpd, he⟩ := Chip.reported_react (skind := skind) (subject := subject) hp hi hs
  have hre : e.react u k sk sb d0 0 b = e.reaction3 u k b := by
    have h := (hC.reactionOf u k).trans h3
    unfold Chip.reactionOf at h
    unfold Chip.react
    simp only [h]
  rw [hre] at he
  have hdue : (e.reaction3 u k b).flt.due = [u] := by
    have hs' := (hC.unitStopped u).trans hs
    have hd := hC.due.trans (Chip.calm_iff _ |>.mp hc).2.1
    by_cases hr : e.recentResets u < e.param 0x30 0xF03 0
    · rw [Chip.reaction3_resets hs' hr, hd]; rfl
    · obtain ⟨-, -, -, h⟩ := Chip.reaction3_stops (b := b) hs' hi (Nat.le_of_not_lt hr)
      rw [h, hd]; rfl
  have hh := Chip.reportFault_holds (subject := subject) hp hi ht hk hn
  rw [he] at hh
  generalize s.chip.reportFault u k skind subject = c1 at *
  have hb : Holds ({ c1 with flt := { c1.flt with due := c1.flt.due.tail } } : Chip).watch (c1.afterReset u).watch :=
    Chip.blockReset_holds _ u (.refl _)
  obtain ⟨hrd, hd, -⟩ := (Chip.calm_iff _).mp ha
  have ht0 : c1.flt.due.tail = [] := List.prefix_nil.mp (hd ▸ hb.grows.due)
  have hr0 : c1.flt.resetDue = false := by
    by_contra hx
    exact absurd (hb.grows.resetDue (Bool.not_eq_false _ ▸ hx)) (by rw [show (c1.afterReset u).watch.1.resetDue = _ from hrd]; decide)
  have h1 : c1.flt.due = [u] := by
    have hpre : [u] <+: c1.flt.due := by
      have := hh.grows.due
      rwa [show (e.reaction3 u k b).watch.1.due = [u] from hdue] at this
    obtain ⟨l, hl⟩ := hpre
    rw [← hl] at ht0 ⊢
    simpa using ht0
  refine ⟨e, b, hC, hpd, Chip.settle_due hr0 h1 ha, (hh.holds (h1.trans hdue.symm) hr0).trans ?_⟩
  obtain ⟨k1, k2, k3, k4, k5, k6⟩ := hb.calm hd hrd
  exact ⟨k1, k2, k3, k4, k5, k6⟩

end

/-- Settles O12: a chip reset that is due ends everything else, and a block reset leaves what the reaction has noted. -/
theorem heavyFaultsReset : Obligations.HeavyFaultsReset := by
  intro s u k skind subject ht hp hi hs hk hn
  refine ⟨fun h4 => ?_, fun h3 hc ha hr => ?_, fun h3 hc ha hr => ?_⟩
  · obtain ⟨r, hd, hl, hst, hr1, hr2, hw⟩ := Chip.fatal_report (subject := subject) hp hi hs ht hk hn h4
    refine ⟨_, exec_faultOccurrence u k skind subject s, rfl, ?_⟩
    show _ ∧ _
    rw [Chip.settle_reset hd]
    exact ⟨rfl, hl, hst, rfl, rfl, rfl, rfl, fun hc => ⟨r, hw hc, hr1, hr2⟩⟩
  · obtain ⟨e, b, hC, hpd, hst, h⟩ := Chip.reset_report (subject := subject) hp hi hs ht hk hn h3 hc ha
    refine ⟨_, exec_faultOccurrence u k skind subject s, rfl, ?_⟩
    rw [hst]
    have he := Chip.reaction3_resets (b := b) (k := k) ((hC.unitStopped u).trans hs) (by rwa [hC.recentResets, hC.param])
    have hw : (e.reaction3 u k b).watch.1 = _ := he
    obtain ⟨g1, g2, g3, -, g5, -⟩ := h
    rw [hw] at g1 g2 g3 g5
    refine ⟨?_, ?_, ?_, g5 _ hpd⟩
    · exact g1.symm ▸ mem_insertNat.mpr (.inl rfl)
    · exact g3.trans (by rw [hC.now, ← hC.resets])
    · exact g2.trans hC.heldUnits
  · obtain ⟨e, b, hC, hpd, hst, h⟩ := Chip.reset_report (subject := subject) hp hi hs ht hk hn h3 hc ha
    refine ⟨_, exec_faultOccurrence u k skind subject s, rfl, ?_⟩
    rw [hst]
    obtain ⟨h1, h2, h4, -⟩ := Chip.reaction3_stops (b := b) ((hC.unitStopped u).trans hs) hi (by rwa [hC.recentResets, hC.param])
    exact ⟨h.heldUnits.symm ▸ h1, (h.inReset.trans h2).trans hC.inReset, (h.held _).trans h4⟩

end Sys2Proof.Machine
end


section
/-! Processor clusters that restart (R22, R485, R487). -/

set_option Elab.async false

namespace Sys2Proof.Machine

theorem Chip.fw_of_base {c d : Chip} (h : d.kern.base = c.kern.base) : d.fw = c.fw := congrArg Base.fw h

/-! ### A cluster stops -/

/-- A cluster that stops leaves the firmware state but for its row, and outputs and memory. -/
theorem Chip.clusterDown_leaves (c : Chip) (i st : Nat) : let d := c.clusterDown i st
    d.fw = { c.fw with clusters := Tab.set c.fw.clusters 0 i st } ∧ d.out = c.out ∧ d.mem = c.mem := by
  have hu : ∀ (l : List (Nat × ApplySet)) (c : Chip), (l.foldl (fun c r => c.unstage r.1) c).fw = c.fw ∧
      (l.foldl (fun c r => c.unstage r.1) c).out = c.out ∧ (l.foldl (fun c r => c.unstage r.1) c).mem = c.mem := by
    intro l
    induction l with
    | nil => exact fun _ => ⟨rfl, rfl, rfl⟩
    | cons r l ih => exact fun c => ih (c.unstage r.1)
  dsimp only
  unfold Chip.clusterDown
  extract_lets c1
  split
  · exact hu _ _
  · split
    · split <;> exact ⟨rfl, rfl, rfl⟩
    · split
      · unfold Chip.timDown
        split <;> exact ⟨rfl, rfl, rfl⟩
      · exact ⟨rfl, rfl, rfl⟩

/-! ### A cluster is back -/

/-- The chip whose cluster `i`, unit `u`, has been loaded again. -/
def Chip.reloaded (c : Chip) (u i : Nat) : Chip :=
  { c.leaveReset u with fw := { c.fw with
      clusters := Tab.set c.fw.clusters 0 i 0
      running := Tab.put c.fw.running i (c.flash.loadSlot c.fw.bootSlot) } }

/-- The chip on which what waited for the cluster has gone on. -/
def Chip.resumed (c : Chip) (u i : Nat) : Chip := ((c.reloaded u i).eventPFs 0x0D u 0 u).clusterResumes i

theorem Chip.resumed_fw (c : Chip) (u i : Nat) : (c.resumed u i).fw = { c.fw with
    clusters := Tab.set c.fw.clusters 0 i 0, running := Tab.put c.fw.running i (c.flash.loadSlot c.fw.bootSlot) } :=
  (Chip.fw_of_base (Chip.clusterResumes_base ..)).trans (Chip.fw_of_base (congrArg Kern.base (Chip.eventPFs_kern ..)))

theorem Chip.resumed_holds (c : Chip) (u i : Nat) : Holds (c.reloaded u i).watch (c.resumed u i).watch :=
  Chip.clusterResumes_holds _ _ (by rw [Chip.eventPFs_watch]; exact .refl _)

/-- The next cluster of ACTIVATE restarts after one that is back. -/
def Chip.nextActive (c : Chip) (u i : Nat) (l : List Nat) : Chip :=
  Chip.activateNext { c.resumed u i with fw := { (c.resumed u i).fw with activate := l } }

theorem Chip.clusterBack_eq {c : Chip} {u i : Nat} (h1 : 0x90 ≤ u) (h2 : u < 0x96) (hi : u - 0x90 = i) (hc : Tab.get c.fw.clusters i 0 = 1) :
    c.clusterBack u = match c.fw.activate with
      | [] => c.resumed u i
      | j :: l => if j = i then c.nextActive u i l else c.resumed u i := by
  have hf : (c.resumed u i).fw.activate = c.fw.activate := by rw [c.resumed_fw u i]
  unfold Chip.clusterBack
  rw [hi]
  refine (if_neg (by rw [hc]; omega)).trans ?_
  rw [← hf]
  rfl

theorem Chip.resumed_up (c : Chip) (u i : Nat) : Tab.get (c.resumed u i).fw.clusters i 0 = 0 ∧
    Tab.get? (c.resumed u i).fw.running i = some (c.flash.loadSlot c.fw.bootSlot) := by
  rw [c.resumed_fw u i]
  exact ⟨Tab.get_set_self c.fw.clusters i 0 0, Tab.get?_put_self ..⟩

/-- Where nothing is left to carry out, the boot state and the fault collector are as the cluster's return has left them. -/
theorem Chip.resumed_holding {c : Chip} {u i : Nat} (h : (c.resumed u i).calm = true) :
    Holding (c.reloaded u i).watch (c.resumed u i).watch := by
  obtain ⟨hr, hd, -⟩ := (Chip.calm_iff _).mp h
  exact (c.resumed_holds u i).calm hd hr

/-- ACTIVATE goes on with a cluster that runs. -/
theorem Chip.nextActive_restarts {c : Chip} {u i j : Nat} (hj : j ≠ i) (hu : Tab.get c.fw.clusters j 0 = 0) (l : List Nat) :
    let d := c.nextActive u i (j :: l)
    Tab.get d.fw.clusters i 0 = 0 ∧ Tab.get d.fw.clusters j 0 = 1 ∧ d.fw.activate = j :: l ∧
    Tab.get? d.fw.running i = some (c.flash.loadSlot c.fw.bootSlot) := by
  obtain ⟨a, b⟩ := c.resumed_up u i
  have hup : Tab.get (c.resumed u i).fw.clusters j 0 = 0 := by
    rw [c.resumed_fw u i]
    exact (Tab.get_set_ne c.fw.clusters 0 0 hj).trans hu
  unfold Chip.nextActive
  generalize c.resumed u i = d at *
  have hn : Chip.activateNext { d with fw := { d.fw with activate := j :: l } } =
      Chip.clusterDown { d with fw := { d.fw with activate := j :: l } } j 1 := if_pos (beq_iff_eq.mpr hup)
  dsimp only
  obtain ⟨hf, -, -⟩ := Chip.clusterDown_leaves { d with fw := { d.fw with activate := j :: l } } j 1
  rw [hn, hf]
  exact ⟨(Tab.get_set_ne d.fw.clusters 1 0 hj.symm).trans a, Tab.get_set_self d.fw.clusters j 1 0, rfl, b⟩

/-! ### The obligation -/

/-- A write of P38.030 restarts the cluster that it names. -/
theorem clusterRestart_restarts {s : State} {u i : Nat} (h1 : 0x90 ≤ u) (h2 : u < 0x96) (hi : u - 0x90 = i) {w : Writer}
    (hc : s.chip.calm = true) (hm : s.chip.mayWrite w (pnum 0x38 0x030 0) = true) (hu : s.chip.clusterUp i = true) :
    Completes (.clusterRestart w u) s fun d => d = (s.chip.clusterDown i 1).replied w 0 := by
  have hr : s.chip.restartCluster u = (s.chip.clusterDown i 1, 0) := by
    unfold Chip.restartCluster
    rw [hi, if_pos hu]
  have ha := Chip.numWrite_restart hm h1 h2
  rw [hr] at ha
  exact Completes.of_runAny (exec_clusterRestart w u s) (by rw [ha, Chip.replied_calm, Chip.clusterDown_calm]; exact hc) ha

/-- Settles O9: what goes on with a cluster's return leaves the firmware state, and calm the boot state. -/
theorem clustersRestart : Obligations.ClustersRestart := by
  intro s u h1 h2
  generalize hk : u - 0x90 = i
  refine ⟨fun w hc hm hu => ?_, fun hc hd ha => ?_, fun j l hc hd ha hj hu => ?_⟩
  · refine Completes.mono (clusterRestart_restarts h1 h2 hk hc hm hu) fun d hd => ?_
    obtain ⟨hf, ho, hmem⟩ := s.chip.clusterDown_leaves i 1
    rw [hd, Chip.replied_fw, Chip.replied_out, Chip.replied_mem, hf, ho, hmem]
    exact ⟨Tab.get_set_self s.chip.fw.clusters i 1 0, rfl, rfl, fun n hn => Tab.get_set_ne s.chip.fw.clusters 1 0 hn⟩
  · have he := Chip.clusterBack_eq h1 h2 hk hc
    rw [ha] at he
    refine Completes.of_runAny (exec_clusterRestartComplete u s) hd ?_
    rw [he] at hd ⊢
    obtain ⟨a, b⟩ := s.chip.resumed_up u i
    exact ⟨beq_iff_eq.mpr a, b, (Chip.resumed_holding hd).boot⟩
  · have he := Chip.clusterBack_eq h1 h2 hk hc
    rw [ha] at he
    have he' := he.trans (if_pos rfl)
    refine Completes.of_runAny (exec_clusterRestartComplete u s) hd ?_
    rw [he']
    obtain ⟨a, b, x, y⟩ := Chip.nextActive_restarts (u := u) hj (beq_iff_eq.mp hu) l
    exact ⟨beq_iff_eq.mpr a, b, x, y⟩

end Sys2Proof.Machine
end


section
/-! Sources that clear, units that return and records that leave (R459, R462, R463, R465, R468 to R471, R484). -/

set_option Elab.async false

namespace Sys2Proof.Machine

/-! ### Status rows -/

theorem descRest_statusRow (v : Variant) {o : Nat} (h1 : 0x100 ≤ o) (h2 : o < 0xF00) : descRest v 0x30 o =
    if o < 0x1E0 ∧ unitNumber (o - 0x100) then
      some { ty := .u64, access := .w1c, writers := wFBH, elements := 0x100 + (causesOf (o - 0x100) - 4), table := true } else none := by
  simp (disch := omega) only [descRest]
  rw [if_neg (by omega)]

theorem keepBits_statusRow {o : Nat} (h1 : 0x100 ≤ o) (h2 : o < 0xF00) (x : Nat) : keepBits 0x30 o x = x := by
  simp (disch := omega) only [keepBits]
  rw [if_neg (by omega)]

theorem valueOk_statusRow (d : Desc) (e x : Nat) : ∀ u < 0xE0, valueOk d 0x30 (0x100 + u) e x = true := by
  intro u hu
  interval_cases u <;> rfl

theorem Chip.valueRefused_statusRow (c : Chip) {o : Nat} (h1 : 0x100 ≤ o) (h2 : o < 0xF00) (e x : Nat) : c.valueRefused 0x30 o e x = false := by
  simp (disch := omega) only [Chip.valueRefused]

/-- A write of a status row clears it and is answered. -/
theorem Chip.numWrite_status {c : Chip} {w : Writer} {u k : Nat} (hu : u < 0xE00) (hk : k < 4096)
    (hm : c.mayWrite w (pnum 0x30 (0x100 + u) k) = true) (v : Word) :
    c.numWrite w 0x30 (0x100 + u) k 8 v.toNat = (c.clearStatus u k v.toNat).replied w 0 := by
  have ha := pArea_pnum 0x30 (0x100 + u) k hk (by omega) (by decide)
  have ho := pObj_pnum 0x30 (0x100 + u) k hk (by omega)
  obtain ⟨-, -, -, d, hr⟩ := Chip.mayWrite_iff.mp hm
  have he := Chip.reachWrite_descOf hr
  have hdesc : desc c.variant 0x30 (0x100 + u) = descRest c.variant 0x30 (0x100 + u) := rfl
  rw [descOf, ha, ho, hdesc, descRest_statusRow _ (by omega) (by omega)] at he
  by_cases hn : 0x100 + u < 0x1E0 ∧ unitNumber (0x100 + u - 0x100) = true
  · have hd : desc c.variant 0x30 (0x100 + u) = some
        { ty := .u64, access := .w1c, writers := wFBH, elements := 0x100 + (causesOf (0x100 + u - 0x100) - 4), table := true } := by
      rw [hdesc, descRest_statusRow _ (by omega) (by omega), if_pos hn]
    have hx : v.toNat < 256 ^ 8 := v.isLt
    refine (Chip.numWrite_served hm hk (by omega) (by decide) (hd := hd) (ht := by simp) (x := v.toNat) (hx := hx)
      (hl := Chip.locked_plain _ _ _ (by simp) (by rw [ha]; decide)) (idx := none)).trans ?_
    unfold Chip.writeNumber
    simp only [pElem_pnum _ _ _ hk, ha, ho, keepBits_statusRow (show 0x100 ≤ 0x100 + u by omega) (show 0x100 + u < 0xF00 by omega)]
    rw [valueOk_statusRow _ _ _ u (by omega), Chip.valueRefused_statusRow _ (by omega) (by omega)]
    have hc : c.clearBits 0x30 (0x100 + u) k v.toNat = c.clearStatus u k v.toNat := by
      unfold Chip.clearBits
      rw [if_pos rfl, Nat.add_sub_cancel_left]
    exact congrArg (fun d : Chip => d.replied w 0) hc
  · rw [if_neg hn] at he
    exact absurd he (by simp)

theorem Chip.clearStatus_src (c : Chip) (u k v : Nat) : (c.clearStatus u k v).src u k = (c.src u k).cleared v := Chip.src_setSrc_self ..

/-! ### Units that return -/

theorem Chip.checkRange_mem (c : Chip) (h : Nat) (base size : HostPort → Nat) (drop : HostPort → HostPort) :
    (c.checkRange h base size drop).mem = c.mem := by
  unfold Chip.checkRange
  dsimp only
  split
  · exact (Chip.raise_reacts ..).mem
  · rfl

theorem Chip.unitReturns_mem (c : Chip) (u : Nat) : (c.unitReturns u).mem = c.mem := by
  unfold Chip.unitReturns
  split
  · exact (Chip.checkRange_mem ..).trans (Chip.checkRange_mem ..)
  · rfl

/-- A unit's return leaves the fault collector, where it leaves nothing to carry out. -/
theorem Chip.unitReturns_holding {c : Chip} {u : Nat} (h : (c.unitReturns u).calm = true) :
    (c.unitReturns u).flt.inReset = c.flt.inReset ∧ (c.unitReturns u).flt.heldUnits = c.flt.heldUnits := by
  obtain ⟨hr, hd, -⟩ := (Chip.calm_iff _).mp h
  have hh := (Chip.unitReturns_holds c u (.refl _)).calm hd hr
  exact ⟨hh.inReset, hh.heldUnits⟩

theorem Chip.resetComplete_leaves {c : Chip} {u : Nat} (h : u ∈ c.flt.inReset) :
    (c.resetComplete u).flt.inReset = c.flt.inReset.erase u ∧ (c.resetComplete u).flt.heldUnits = c.flt.heldUnits ∧
    (c.resetComplete u).mem = c.mem := by
  unfold Chip.resetComplete
  rw [if_pos (List.contains_iff_mem.mpr h)]
  dsimp only
  split <;> exact ⟨rfl, rfl, rfl⟩

/-- The release of a held unit: it is held no more, and a cluster restarts instead. -/
theorem Chip.releaseUnit_leaves (c : Chip) (u : Nat) :
    let d := c.releaseUnit u
    d.flt.heldUnits = c.flt.heldUnits.erase u ∧ d.mem = c.mem ∧
    (0x90 ≤ u → u < 0x96 → Tab.get d.fw.clusters (u - 0x90) 0 = 1 ∧ u ∈ d.flt.inReset) ∧
    (u < 0x90 ∨ 0x96 ≤ u → d.flt.inReset = c.flt.inReset) := by
  obtain ⟨t, ht⟩ := c.setHeld_rest u false
  obtain ⟨hf, -⟩ := Prod.mk.inj ht
  have hm : (c.setHeld u false).mem = c.mem ∧ (c.setHeld u false).fw = c.fw := by
    have hr := Chip.OnlyReports.foldl (fun (c : Chip) k => c.setSrc_reports u k { c.src u k with held := false })
      ([1, 2, 3, 4] ++ (List.range (causesOf u - 4)).map (0x100 + ·)) c
    exact ⟨hr.mem, hr.fw⟩
  unfold Chip.releaseUnit
  generalize c.setHeld u false = d at *
  dsimp only
  generalize hi : u - 0x90 = i
  have h1 : d.flt.heldUnits = c.flt.heldUnits ∧ d.flt.inReset = c.flt.inReset := by rw [hf]; exact ⟨rfl, rfl⟩
  split
  · next hu =>
    refine ⟨congrArg (·.erase u) h1.1, hm.1, fun _ _ => ⟨?_, mem_insertNat.mpr (.inl rfl)⟩, fun hn => by omega⟩
    exact Tab.get_set_self d.fw.clusters i 1 0
  · next hu =>
    split
    · exact ⟨congrArg (·.erase u) h1.1, hm.1, fun a b => absurd ⟨a, b⟩ hu, fun _ => h1.2⟩
    · exact ⟨congrArg (·.erase u) h1.1, hm.1, fun a b => absurd ⟨a, b⟩ hu, fun _ => h1.2⟩

/-! ### A write of P30.F05 -/

section
variable {c : Chip} {w : Writer} (hm : c.mayWrite w (pnum 0x30 0xF05 0) = true) {u : Nat} (hu : u < 65536)
include hm hu

theorem Chip.numWrite_release (hh : c.flt.heldUnits.contains u = true) : c.numWrite w 0x30 0xF05 0 2 u = (c.unitRelease u).replied w 0 := by
  have hr : c.valueRefused 0x30 0xF05 0 u = false := congrArg (!·) hh
  exact Chip.numWrite_command hm (d := { ty := .u16, access := .wo, writers := wFBH }) (by omega) (hd := rfl) (hw := rfl) (ht := by decide)
    (hx := by show u < 65536; omega) (hl := Chip.locked_plain _ _ _ (by decide) (by decide)) (hk := rfl) (hv := rfl) (hr := hr) (idx := none)

theorem Chip.numWrite_release_refused (hh : c.flt.heldUnits.contains u = false) : c.numWrite w 0x30 0xF05 0 2 u = c.replied w 7 := by
  have hr : c.valueRefused 0x30 0xF05 0 u = true := congrArg (!·) hh
  have h := Chip.numWrite_served hm (by omega) (d := { ty := .u16, access := .wo, writers := wFBH }) (hd := rfl) (ht := by decide)
    (x := u) (hx := by show u < 65536; omega) (hl := Chip.locked_plain _ _ _ (by decide) (by decide)) (idx := none)
  refine h.trans ?_
  have hw : c.writeNumber w { ty := .u16, access := .wo, writers := wFBH } (pnum 0x30 0xF05 0) u none = (c, 7) := by
    have hk : keepBits 0x30 0xF05 u = u := rfl
    unfold Chip.writeNumber
    simp only [pElem_pnum 0x30 0xF05 0 (by decide), pObj_pnum 0x30 0xF05 0 (by decide) (by decide),
      pArea_pnum 0x30 0xF05 0 (by decide) (by decide) (by decide), hk, hr, Bool.or_true, if_true]
  rw [hw]

end

/-! ### Records that close -/

theorem perm_insertRec (r : Record) (l : List Record) : (insertRec r l).Perm (r :: l) := by
  induction l with
  | nil => exact .refl _
  | cons x l ih =>
    unfold insertRec
    split
    · exact .refl _
    · exact (ih.cons x).trans (.swap r x l)

theorem perm_foldr_insertRec (l : List Record) : (l.foldr insertRec []).Perm l := by
  induction l with
  | nil => exact .refl _
  | cons r l ih => exact (perm_insertRec r _).trans (ih.cons r)

/-- Records that close one after the other: each takes the next RSEQ. -/
theorem Faults.foldl_close_closes (l : List Record) (f : Faults) : let g := l.foldl Faults.close f
    g.openRecs = f.openRecs ∧ g.sources = f.sources ∧ g.nextRseq = f.nextRseq + BitVec.ofNat 32 l.length ∧
    ∃ m : List Record, g.closedRecs = f.closedRecs ++ m ∧ m.length = l.length ∧
      (∀ r ∈ l, ∃ x ∈ m, ({ x with rseq := r.rseq } : Record) = r) ∧ (∀ r, l = [r] → m = [{ r with rseq := f.nextRseq }]) := by
  induction l generalizing f with
  | nil => exact ⟨rfl, rfl, by simp, [], by simp, rfl, by simp, by simp⟩
  | cons a l ih =>
    obtain ⟨h1, h2, h3, m, h4, h5, h6, h7⟩ := ih (f.close a)
    refine ⟨h1, h2, ?_, { a with rseq := f.nextRseq } :: m, ?_, by simp [h5], ?_, ?_⟩
    · rw [List.foldl_cons, h3, List.length_cons]
      show f.nextRseq + 1 + _ = _
      rw [BitVec.add_assoc, show (1 : BitVec 32) = BitVec.ofNat 32 1 from rfl, ← BitVec.ofNat_add, Nat.add_comm]
    · rw [List.foldl_cons, h4]
      exact List.append_assoc ..
    · intro r hr
      obtain rfl | hr := List.mem_cons.mp hr
      · exact ⟨_, List.mem_cons_self, rfl⟩
      · obtain ⟨x, hx, he⟩ := h6 r hr
        exact ⟨x, List.mem_cons_of_mem _ hx, he⟩
    · intro r hr
      obtain ⟨rfl, rfl⟩ := List.cons.inj hr
      rw [List.length_nil, List.length_eq_zero_iff] at h5
      rw [h5]

/-! ### Records that leave -/

/-- A shim packet that the chip originates enters the router core. -/
theorem Chip.injectShim_arrives (c : Chip) (kind e : Nat) (w0 w1 w2 w3 : Word) (hk : kind < 128) (he : e < 2 ^ 17) : ∃ a : Arrival,
    (c.injectShim kind e w0 w1 w2 w3).rt.arrivals = c.rt.arrivals ++ [a] ∧ (a.pkt.kind.toNat, a.pkt.dst.toNat) = (kind, e) := by
  refine ⟨_, rfl, Prod.ext ?_ ?_⟩
  · show (BitVec.ofNat 7 kind).toNat = kind
    rw [BitVec.toNat_ofNat, Nat.mod_eq_of_lt hk]
  · show (BitVec.ofNat 17 e).toNat = e
    rw [BitVec.toNat_ofNat, Nat.mod_eq_of_lt he]

/-- What sending a record to endpoints leaves and adds. -/
theorem Chip.sendRecords (l : List Nat) (w : List Word) (c : Chip) (hl : ∀ e ∈ l, e < 2 ^ 17) : let d := l.foldl (fun c e => c.sendRecord e w) c
    d.flt = c.flt ∧ d.fifos = c.fifos ∧ d.mem = c.mem ∧ d.calm = c.calm ∧
    ∃ m, d.rt.arrivals = c.rt.arrivals ++ m ∧
      m.map (fun a => (a.pkt.kind.toNat, a.pkt.dst.toNat)) = l.flatMap fun e => [(0x43, e), (0x44, e)] := by
  induction l generalizing c with
  | nil => exact ⟨rfl, rfl, rfl, rfl, [], by simp, rfl⟩
  | cons e l ih =>
    obtain ⟨h1, h2, h3, h4, m, h5, h6⟩ := ih (c.sendRecord e w) fun x hx => hl x (List.mem_cons_of_mem _ hx)
    have he := hl e List.mem_cons_self
    obtain ⟨a, ha, hka⟩ := c.injectShim_arrives 0x43 e ((w[0]?).getD 0) ((w[1]?).getD 0) ((w[2]?).getD 0) ((w[3]?).getD 0) (by decide) he
    obtain ⟨b, hb, hkb⟩ := (c.injectShim 0x43 e ((w[0]?).getD 0) ((w[1]?).getD 0) ((w[2]?).getD 0) ((w[3]?).getD 0)).injectShim_arrives
      0x44 e ((w[4]?).getD 0) ((w[5]?).getD 0) ((w[6]?).getD 0) ((w[7]?).getD 0) (by decide) he
    have hab : (c.sendRecord e w).rt.arrivals = c.rt.arrivals ++ [a, b] := hb.trans (by rw [ha, List.append_assoc]; rfl)
    refine ⟨h1, h2, h3, h4, a :: b :: m, h5.trans (by rw [hab, List.append_assoc]; rfl), ?_⟩
    rw [List.map_cons, List.map_cons, h6, hka, hkb]
    rfl

theorem Chip.recordTargets_lt (c : Chip) : ∀ e ∈ c.recordTargets, e < 2 ^ 17 := by
  intro e he
  obtain ⟨i, -, hi⟩ := List.mem_filterMap.mp he
  dsimp only at hi
  split at hi
  · rw [← Option.some.inj hi]
    exact Nat.mod_lt _ (by decide)
  · contradiction

/-- The oldest record leaves as a packet in the fault FIFO and as packets to the endpoints, before a place for the unrecorded is used. -/
def Chip.recordSent (c : Chip) (r : Record) (rest : List Record) : Chip :=
  let d := Chip.putFifo { c with flt := { c.flt with closedRecs := rest } } 8 ((c.fifo 8).packet (fifoCap 8) (recWords r))
  if c.param 0x30 0xF21 0 ≤ r.cls then c.recordTargets.foldl (fun d e => d.sendRecord e (recWords r)) d else d

theorem Chip.recordOut_eq {c : Chip} {r : Record} {rest : List Record} (hu : c.up = true) (hf : c.clusterUp 4 = true)
    (h : c.flt.closedRecs = r :: rest) : c.recordOut = (c.recordSent r rest).closeUnrecorded := by
  unfold Chip.recordOut
  rw [hu, hf, h]
  rfl

theorem Chip.recordSent_leaves (c : Chip) (r : Record) (rest : List Record) : let d := c.recordSent r rest
    d.flt = { c.flt with closedRecs := rest } ∧ d.fifo 8 = (c.fifo 8).packet (fifoCap 8) (recWords r) ∧ d.mem = c.mem ∧ d.calm = c.calm ∧
    ∃ m, d.rt.arrivals = c.rt.arrivals ++ m ∧ m.map (fun a => (a.pkt.kind.toNat, a.pkt.dst.toNat)) =
      if c.param 0x30 0xF21 0 ≤ r.cls then c.recordTargets.flatMap fun e => [(0x43, e), (0x44, e)] else [] := by
  dsimp only
  unfold Chip.recordSent
  extract_lets f d
  have hd : d.fifo 8 = (c.fifo 8).packet (fifoCap 8) (recWords r) := Tab.get_put_self ..
  split
  · obtain ⟨h1, h2, h3, h4, m, h5, h6⟩ := Chip.sendRecords c.recordTargets (recWords r) d c.recordTargets_lt
    refine ⟨h1, ?_, h3, h4, m, h5, h6⟩
    rw [← hd]
    exact congrArg (fun t => Tab.get t 8 Fifo.init) h2
  · exact ⟨rfl, hd, rfl, rfl, [], (List.append_nil _).symm, rfl⟩

/-- The record of the unrecorded occurrences closes into a free place. -/
theorem Chip.closeUnrecorded_leaves (c : Chip) (h : c.flt.used < 2047) : let d := c.closeUnrecorded
    d.mem = c.mem ∧ d.calm = c.calm ∧ d.rt = c.rt ∧ d.fifos = c.fifos ∧ d.flt.openRecs = c.flt.openRecs ∧
    (c.flt.pendingUnrec = 0 → d.flt.closedRecs = c.flt.closedRecs) ∧
    (c.flt.pendingUnrec ≠ 0 → ∃ x : Record, d.flt.closedRecs = c.flt.closedRecs ++ [x] ∧ x.cause = 0x100 ∧
      x.count = c.flt.pendingUnrec ∧ d.flt.pendingUnrec = 0) := by
  dsimp only
  unfold Chip.closeUnrecorded
  split
  · next hp => exact ⟨rfl, rfl, rfl, rfl, rfl, fun _ => rfl, fun hn => by omega⟩
  · next hp => exact ⟨rfl, rfl, rfl, rfl, rfl, fun hz => absurd (.inl hz) hp, fun _ => ⟨_, rfl, rfl, rfl, rfl⟩⟩

/-! ### The obligation -/

theorem bitOf_zero_toNat (v : Word) : bitOf v.toNat 0 = v.getLsbD 0 := by
  unfold bitOf
  rfl

theorem Source.cleared_eq (x : Source) (v : Word) : (x.cleared v.toNat).pend = (x.pend && !(v.getLsbD 0 && !x.now)) ∧
    (x.cleared v.toNat).occur = x.occur ∧ (x.cleared v.toNat).now = x.now := by
  unfold Source.cleared
  rw [bitOf_zero_toNat]
  cases v.getLsbD 0 <;> cases hn : x.now <;> simp [hn]

/-- Settles O13: a unit's return leaves the fault collector where it leaves nothing to carry out, and records close and leave in their
order. -/
theorem sourcesClearAndRecordsLeave : Obligations.SourcesClearAndRecordsLeave := by
  refine ⟨fun s w u => ⟨fun k v hs hm hu hk => ?_, fun hi hu hc => ?_, fun h1 h2 h3 h4 hc => ?_, fun hm hh hu hc => ?_,
    fun hs hm hh hu => ?_⟩, fun s hc => ⟨fun ht => ?_, fun r rest hup hf hr hused => ?_⟩⟩
  · have he : (if u < 0xE00 then s.chip.numWrite w 0x30 (0x100 + u) k 8 v.toNat else s.chip) = (s.chip.clearStatus u k v.toNat).replied w 0 := by
      rw [if_pos hu, Chip.numWrite_status hu hk hm]
    refine Completes.of_runAny (exec_sourceStatusClear w u k v s) (by rw [he, Chip.replied_calm]; exact hs.2) ?_
    have hsrc : ((s.chip.clearStatus u k v.toNat).replied w 0).src u k = (s.chip.src u k).cleared v.toNat := by
      unfold Chip.src
      rw [Chip.replied_flt]
      exact s.chip.clearStatus_src u k v.toNat
    rw [he, Chip.replied_mem, Chip.replied_out, hsrc]
    obtain ⟨h1, h2, h3⟩ := (s.chip.src u k).cleared_eq v
    exact ⟨rfl, h1, h2, h3, rfl⟩
  · have he : s.chip.blockResetDone u = (s.chip.resetComplete u).unitReturns u := by
      unfold Chip.blockResetDone
      rw [if_neg (by omega), if_pos (List.contains_iff_mem.mpr hi)]
    refine Completes.of_runAny (exec_blockResetComplete u s) hc ?_
    rw [he] at hc ⊢
    obtain ⟨a, b⟩ := Chip.unitReturns_holding hc
    obtain ⟨x, y, z⟩ := Chip.resetComplete_leaves hi
    exact ⟨a.trans x, b.trans y, (Chip.unitReturns_mem ..).trans z⟩
  · generalize hk : u - 0x90 = i at *
    have he : s.chip.blockResetDone u = s.chip.resumed u i := by
      have hb := Chip.clusterBack_eq h1 h2 hk h3
      rw [h4] at hb
      exact (if_pos ⟨h1, h2⟩).trans hb
    refine Completes.of_runAny (exec_blockResetComplete u s) hc ?_
    rw [he] at hc ⊢
    have hh := Chip.resumed_holding hc
    exact ⟨beq_iff_eq.mpr (s.chip.resumed_up u i).1, hh.inReset, hh.heldUnits⟩
  · have he := Chip.numWrite_release hm hu hh
    refine Completes.of_runAny (exec_unitRelease w u s) hc ?_
    rw [he] at hc ⊢
    rw [Chip.replied_calm] at hc
    obtain ⟨a, b⟩ := Chip.unitReturns_holding hc
    obtain ⟨x, y, z, t⟩ := s.chip.releaseUnit_leaves u
    rw [Chip.replied_flt, Chip.replied_mem, Chip.replied_fw]
    have hfw : (s.chip.unitRelease u).fw = (s.chip.releaseUnit u).fw := congrArg Kern.fw (Chip.unitReturns_kern ..)
    rw [hfw]
    exact ⟨b.trans x, fun g1 g2 => ⟨(z g1 g2).1, a.symm ▸ (z g1 g2).2⟩, fun g => a.trans (t g), (Chip.unitReturns_mem ..).trans y⟩
  · have he := Chip.numWrite_release_refused hm hu hh
    refine Completes.of_runAny (exec_unitRelease w u s) (by rw [he, Chip.replied_calm]; exact hs.2) ?_
    rw [he, Chip.replied_flt, Chip.replied_out]
    exact ⟨rfl, rfl⟩
  · have he : s.chip.closeRecords = s.chip.kerfClose := if_pos ht
    refine Completes.of_runAny (exec_kerfWindowClose s) (by rw [he, Chip.kerfClose_calm]; exact hc) ?_
    rw [he]
    have hp := perm_foldr_insertRec (s.chip.flt.openRecs.filter fun r => decide (r.closeAt ≤ s.chip.now))
    obtain ⟨h1, h2, h3, m, h4, h5, h6, h7⟩ := Faults.foldl_close_closes
      ((s.chip.flt.openRecs.filter fun r => decide (r.closeAt ≤ s.chip.now)).foldr insertRec [])
      { s.chip.flt with openRecs := s.chip.flt.openRecs.filter fun r => decide (s.chip.now < r.closeAt) }
    refine ⟨rfl, h1, ?_, ?_, fun r hr => ?_, fun r hr => ?_, h2⟩
    · refine (congrArg List.length h4).trans ?_
      rw [List.length_append, h5, hp.length_eq]
    · refine h3.trans ?_
      rw [hp.length_eq]
    · obtain ⟨x, hx, he⟩ := h6 r (hp.mem_iff.mpr hr)
      exact ⟨x, h4 ▸ List.mem_append_right _ hx, he⟩
    · refine h4.trans (congrArg (_ ++ ·) (h7 r ?_))
      rw [hr]
      rfl
  · have he := Chip.recordOut_eq hup hf hr
    obtain ⟨a1, a2, a3, a4, m, a5, a6⟩ := s.chip.recordSent_leaves r rest
    have hlt : (s.chip.recordSent r rest).flt.used < 2047 := by
      unfold Faults.used at hused ⊢
      rw [hr, List.length_cons] at hused
      rw [a1]
      show s.chip.flt.openRecs.length + rest.length < 2047
      omega
    obtain ⟨b1, b2, b3, b4, b5, b6, b7⟩ := (s.chip.recordSent r rest).closeUnrecorded_leaves hlt
    rw [a1] at b5 b6 b7
    refine Completes.of_runAny (exec_recordToFifo s) (by rw [he, b2, a4]; exact hc) ?_
    rw [he]
    refine ⟨b5, (congrArg (fun t => Tab.get t 8 Fifo.init) b4).trans a2, b6, b7, ?_, b1.trans a3⟩
    unfold Chip.entered
    rw [b3, a5, List.drop_left, List.map_map]
    exact a6

end Sys2Proof.Machine
end


section
/-! What reports, LCBs and freed cells leave: the event counters of units, and everything beside links, lanes, outputs and counters. -/

set_option Elab.async false

namespace Sys2Proof.Machine

/-! ### Event counters -/

/-- The event counters of the units (R447). -/
def Chip.events (c : Chip) : List (CounterId × BitVec 64) := c.ctr.events

@[simp] theorem Chip.events_mk (v : Variant) (s : Word) {boot flash fw dict ports funcs fifos queues tr mt tg co mem br rt links train lanes tb pace ctr flt free out} :
    (Chip.mk v s boot flash fw dict ports funcs fifos queues tr mt tg co mem br rt links train lanes tb pace ctr flt free out).events =
      ctr.events := rfl

@[simp] theorem Chip.events_eta (c : Chip) : c.ctr.events = c.events := rfl

@[simp] theorem foldl_events {α : Type} {g : Chip → α → Chip} (hg : ∀ c a, (g c a).events = c.events) (l : List α) (c : Chip) :
    (l.foldl g c).events = c.events := by
  induction l generalizing c with
  | nil => rfl
  | cons a l ih => rw [List.foldl_cons, ih, hg]

@[simp] theorem Chip.updFn_events (c : Chip) (i : Nat) (f : Func → Func) : (c.updFn i f).events = c.events := rfl
@[simp] theorem Chip.putQueue_events (c : Chip) (h qn : Nat) (q : Queue) : (c.putQueue h qn q).events = c.events := rfl
@[simp] theorem Chip.emit_events (c : Chip) (o : Output) : (c.emit o).events = c.events := by unfold Chip.emit; split <;> rfl
@[simp] theorem Chip.drawn_events (c : Chip) : c.drawn.events = c.events := rfl
@[simp] theorem Chip.bumpFn_events (c : Chip) (kind fn n : Nat) : (c.bumpFn kind fn n).events = c.events := rfl
@[simp] theorem Chip.setSrc_events (c : Chip) (u k : Nat) (s : Source) : (c.setSrc u k s).events = c.events := rfl

@[simp] theorem Chip.signal_events (c : Chip) (fn v : Nat) : (c.signal fn v).events = c.events := by
  simp [Chip.signal, Chip.sendMsix, apply_ite Chip.events]

@[simp] theorem Chip.urgent_events (c : Chip) (fn : Nat) : (c.urgent fn).events = c.events := by
  simp [Chip.urgent, Chip.sendMsix, apply_ite Chip.events]

@[simp] theorem Chip.setQState_events (c : Chip) (h qn : Nat) (s : QState) (cause : Nat) : (c.setQState h qn s cause).events = c.events := by
  unfold Chip.setQState; split <;> simp

@[simp] theorem Chip.writeEvent_events (c : Chip) (h eqn : Nat) (q : Queue) (words : List Word) :
    (c.writeEvent h eqn q words).events = c.events := by
  unfold Chip.writeEvent; split <;> simp

@[simp] theorem Chip.eventLost_events (c : Chip) (fn : Nat) : (c.eventLost fn).events = c.events := rfl

@[simp] theorem Chip.postEvent_events (c : Chip) (fn code unit qn detail : Nat) : (c.postEvent fn code unit qn detail).events = c.events := by
  unfold Chip.postEvent
  extract_lets f h words ci d
  split
  · rfl
  · split
    · rfl
    · simp [apply_ite Chip.events, Chip.eqError, d]

@[simp] theorem Chip.eventPFs_events (c : Chip) (code unit qn detail : Nat) : (c.eventPFs code unit qn detail).events = c.events := by
  simp [Chip.eventPFs]

@[simp] theorem Chip.routeFault_events (c : Chip) : c.routeFault.events = c.events := by
  simp [Chip.routeFault, apply_ite Chip.events]

@[simp] theorem Chip.urgentAll_events (c : Chip) : c.urgentAll.events = c.events := by
  simp [Chip.urgentAll, apply_ite Chip.events]

@[simp] theorem Chip.enterRecord_events (c : Chip) (unit cause skind subject : Nat) (d0 d1 : Word) :
    (c.enterRecord unit cause skind subject d0 d1).events = c.events := by
  unfold Chip.enterRecord
  dsimp only
  split <;> split <;> rfl

@[simp] theorem Chip.setHeld_events (c : Chip) (unit : Nat) (on : Bool) : (c.setHeld unit on).events = c.events := by
  unfold Chip.setHeld
  exact foldl_events (fun c k => c.setSrc_events unit k { c.src unit k with held := on }) _ c

@[simp] theorem Chip.unitHeldOccurs_events (c : Chip) (unit : Nat) : (c.unitHeldOccurs unit).events = c.events := by
  simp [Chip.unitHeldOccurs, apply_ite Chip.events]

@[simp] theorem Chip.reaction3_events (c : Chip) (unit cause : Nat) (pended : Bool) : (c.reaction3 unit cause pended).events = c.events := by
  simp [Chip.reaction3, apply_ite Chip.events]

@[simp] theorem Chip.reaction4_events (c : Chip) (unit cause skind subject : Nat) (d0 d1 : Word) :
    (c.reaction4 unit cause skind subject d0 d1).events = c.events := by
  unfold Chip.reaction4
  dsimp only
  split <;> rfl

@[simp] theorem Chip.react_events (c : Chip) (unit cause skind subject : Nat) (d0 d1 : Word) (pended : Bool) :
    (c.react unit cause skind subject d0 d1 pended).events = c.events := by
  unfold Chip.react
  dsimp only
  split <;> simp [apply_ite Chip.events]

/-- No reaction to an occurrence counts an event of a unit. -/
@[simp] theorem Chip.occurrence_events (c : Chip) (unit cause skind subject : Nat) (d0 d1 : Word) :
    (c.occurrence unit cause skind subject d0 d1).events = c.events := by
  simp [Chip.occurrence, apply_ite Chip.events]

@[simp] theorem Chip.raise_events (c : Chip) (unit cause skind subject : Nat) (d0 d1 : Word) :
    (c.raise unit cause skind subject d0 d1).events = c.events := c.occurrence_events ..

/-! ### Signals to a peer -/

/-- `d` differs from `c` by what LCBs change: links, lanes, outputs, the stamps of time items, and the count of NAKs. -/
structure Chip.Signals (c d : Chip) : Prop where
  same : d = { c with links := d.links, lanes := d.lanes, out := d.out, tb := { c.tb with peers := d.tb.peers }, ctr := d.ctr }
  events : ∀ u k, k ≠ .nakSent → getCounter ⟨u, k⟩ d.events = getCounter ⟨u, k⟩ c.events

theorem Chip.Signals.refl (c : Chip) : c.Signals c := ⟨rfl, fun _ _ _ => rfl⟩

theorem Chip.Signals.trans {c d e : Chip} (h : c.Signals d) (k : d.Signals e) : c.Signals e :=
  ⟨by rw [k.same, h.same], fun u n hn => (k.events u n hn).trans (h.events u n hn)⟩

theorem Chip.Signals.ite {c a b : Chip} {p : Prop} [Decidable p] (ha : c.Signals a) (hb : c.Signals b) : c.Signals (if p then a else b) := by
  split <;> assumption

section
variable {c d : Chip} (h : c.Signals d)
include h

theorem Chip.Signals.variant : d.variant = c.variant := (congrArg Chip.variant h.same :)
theorem Chip.Signals.dict : d.dict = c.dict := (congrArg Chip.dict h.same :)
theorem Chip.Signals.mem : d.mem = c.mem := (congrArg Chip.mem h.same :)
theorem Chip.Signals.rt : d.rt = c.rt := (congrArg Chip.rt h.same :)
theorem Chip.Signals.tr : d.tr = c.tr := (congrArg Chip.tr h.same :)
theorem Chip.Signals.train : d.train = c.train := (congrArg Chip.train h.same :)
theorem Chip.Signals.flt : d.flt = c.flt := (congrArg Chip.flt h.same :)
theorem Chip.Signals.watch : d.watch = c.watch := (congrArg Chip.watch h.same :)
theorem Chip.Signals.param (a o e : Nat) : d.param a o e = c.param a o e := by rw [h.same]; rfl

end

theorem Chip.Lines.signals {c d : Chip} (h : c.Lines d) : c.Signals d := by
  refine ⟨?_, fun u k _ => ?_⟩ <;> rw [h.same]
  rfl

theorem Chip.updLink_signals (c : Chip) (p : Nat) (f : Link → Link) : c.Signals (c.updLink p f) := ⟨rfl, fun _ _ _ => rfl⟩

theorem Chip.noteStamp_signals (c : Chip) (p : Nat) (l : Lcb) : c.Signals (c.noteStamp p l) := by
  unfold Chip.noteStamp
  exact .ite ⟨rfl, fun _ _ _ => rfl⟩ (.refl c)

theorem Chip.bump_nakSent_signals (c : Chip) (p n : Nat) : c.Signals (c.bump p .nakSent n) := by
  refine ⟨?_, fun u k hk => c.bump_ne p .nakSent n fun e => hk (congrArg CounterId.ctr e)⟩
  unfold Chip.bump
  split <;> rfl

theorem Chip.sendLcb_signals (c : Chip) (p : Nat) : c.Signals (c.sendLcb p) := by
  rw [c.sendLcb_eq p]
  have h1 := (c.noteStamp_signals p (c.lcbOut p)).trans (((Chip.emit_lines _ (.lcb p (c.lcbOut p))).trans
    (Chip.sendPort_lines _ p (c.tport p).lanes (c.lcbOut p).blocks)).signals)
  exact ((h1.trans (Chip.bump_nakSent_signals ..)).trans (Chip.updLink_signals ..)).trans (Chip.updLink_signals ..)

theorem Chip.lcbNow_signals (c : Chip) (p : Nat) : c.Signals (c.lcbNow p) := .ite (c.sendLcb_signals p) (.refl c)

theorem Chip.decideXoff_signals (c : Chip) (p : Nat) : c.Signals (c.decideXoff p) :=
  .ite (.refl c) (((c.updLink_signals ..).trans (Chip.lcbNow_signals ..)).trans (Chip.lcbNow_signals ..))

/-- Freed cells change only what the next LCBs say. -/
theorem Chip.freeCells_signals (c : Chip) (p vc n : Nat) (pool : Bool) : c.Signals (c.freeCells p vc n pool) :=
  .ite (.refl c) ((c.updLink_signals ..).trans (Chip.decideXoff_signals ..))

theorem Chip.takeCells_signals (c : Chip) (p vc n : Nat) (pool : Bool) : c.Signals (c.takeCells p vc n pool) :=
  (c.updLink_signals ..).trans (Chip.decideXoff_signals ..)

theorem Chip.lcbNow_calm {c : Chip} (h : c.calm = true) (p : Nat) : (c.lcbNow p).calm = true := by
  unfold Chip.lcbNow
  split
  · exact Chip.sendLcb_calm h p
  · exact h

theorem Chip.freeCells_calm {c : Chip} (h : c.calm = true) (p vc n : Nat) (pool : Bool) : (c.freeCells p vc n pool).calm = true := by
  unfold Chip.freeCells Chip.decideXoff
  split
  · exact h
  · extract_lets r m
    have h1 := Chip.updRx_calm h p fun r : RxSide =>
      if pool then { r with poolUsed := Tab.set r.poolUsed 0 vc (Tab.get r.poolUsed vc 0 - n) }
      else { r with
          reserveUsed := Tab.set r.reserveUsed 0 vc (Tab.get r.reserveUsed vc 0 - n)
          freed := Tab.set r.freed 0 vc (Tab.get r.freed vc 0 + BitVec.ofNat 16 n) }
    split
    · exact h1
    · exact Chip.lcbNow_calm (Chip.lcbNow_calm (Chip.updRx_calm h1 ..) p) p

/-! ### The routers' queues -/

/-- `d` differs from `c` by packets that joined the queues of outputs, and by occurrences. -/
structure Chip.Queues (c d : Chip) : Prop where
  mem : d.mem = c.mem
  dict : d.dict = c.dict
  variant : d.variant = c.variant
  tr : d.tr = c.tr
  train : d.train = c.train
  role : ∀ q, d.role q = c.role q
  rt : d.rt = { c.rt with waiting := d.rt.waiting, scheds := d.rt.scheds }
  waiting : c.rt.waiting <+: d.rt.waiting

theorem Chip.Queues.refl (c : Chip) : c.Queues c := ⟨rfl, rfl, rfl, rfl, rfl, fun _ => rfl, rfl, List.prefix_rfl⟩

theorem Chip.Queues.trans {c d e : Chip} (h : c.Queues d) (k : d.Queues e) : c.Queues e :=
  ⟨k.mem.trans h.mem, k.dict.trans h.dict, k.variant.trans h.variant, k.tr.trans h.tr, k.train.trans h.train, fun q => (k.role q).trans (h.role q),
    by rw [k.rt, h.rt],
    h.waiting.trans k.waiting⟩

theorem Chip.Reacts.queues {c d : Chip} (h : c.Reacts d) : c.Queues d :=
  ⟨h.mem, h.dict, h.variant, h.tr, h.train, fun q => by rw [h.same]; rfl, by rw [h.rt], h.rt ▸ List.prefix_rfl⟩

theorem Chip.bump_reacts (c : Chip) (u : Nat) (k : Ctr) (n : Nat) : c.Reacts (c.bump u k n) := (c.bump_reports u k n).reacts

/-- A discard is counted and reported. -/
theorem Chip.routerDrop_reacts (c : Chip) (p : Nat) (k : Ctr) (cause : Nat) : c.Reacts (c.routerDrop p k cause) :=
  (c.bump_reacts p k 1).trans (Chip.raise_reacts ..)

theorem Chip.refreshOut_queues (c : Chip) (out : Nat) : c.Queues (c.refreshOut out) := by
  unfold Chip.refreshOut
  extract_lets s now kept list
  split
  · exact .refl c
  · exact ⟨rfl, rfl, rfl, rfl, rfl, fun _ => rfl, rfl, List.prefix_rfl⟩

theorem Chip.enqueue_queues (c : Chip) (w : Waiting) : c.Queues (c.enqueue w) :=
  .trans (d := { c with rt := { c.rt with waiting := c.rt.waiting ++ [w] } }) ⟨rfl, rfl, rfl, rfl, rfl, fun _ => rfl, rfl, List.prefix_append ..⟩
    (Chip.refreshOut_queues ..)

theorem Chip.refreshOut_waiting (c : Chip) (out : Nat) : (c.refreshOut out).rt.waiting = c.rt.waiting := by
  unfold Chip.refreshOut
  dsimp only
  split <;> rfl

/-- A packet stands last in what waits when it has joined its queue. -/
theorem Chip.enqueue_waiting (c : Chip) (w : Waiting) : (c.enqueue w).rt.waiting = c.rt.waiting ++ [w] := by
  unfold Chip.enqueue
  rw [Chip.refreshOut_waiting]

end Sys2Proof.Machine
end


section
/-! Broadcasts and fences (R335 to R345). -/

set_option Elab.async false

namespace Sys2Proof.Machine

/-! ### Fences -/

/-- A fence set or cleared: the chips that are fenced, and the rest of the Clamp table. -/
theorem Chip.setFence_table (c : Chip) (x : Nat) (on : Bool) :
    (∀ y, (c.setFence x on).fenced y = if y = x then on else c.fenced y) ∧ (c.setFence x on).rt.remembered = c.rt.remembered ∧
      (c.setFence x on).rt.pending = c.rt.pending ∧ (c.setFence x on).rt.clampWrites = c.rt.clampWrites := by
  unfold Chip.setFence
  split
  · next h =>
    refine ⟨fun y => ?_, rfl, rfl, rfl⟩
    split
    · next e => rw [e, ← beq_iff_eq.mp h]
    · rfl
  · split
    · next h =>
      generalize hd : ({ c with rt := { c.rt with fenced := insertNat x c.rt.fenced } } : Chip) = d
      have hk : (d.fenceChans.collRunAll).kern = d.kern := by simp
      have hf : d.rt.fenced = insertNat x c.rt.fenced := by rw [← hd]
      refine ⟨fun y => ?_, ?_, ?_, ?_⟩
      · unfold Chip.fenced
        rw [show (d.fenceChans.collRunAll).rt.fenced = d.rt.fenced from congrArg Kern.fenced hk, hf, Bool.eq_iff_iff,
          List.contains_iff_mem, mem_insertNat]
        split
        · next e => simp [e, h]
        · next e => simp [e]
      · exact (congrArg Kern.remembered hk).trans (by rw [← hd]; rfl)
      · exact (congrArg Kern.pending hk).trans (by rw [← hd]; rfl)
      · exact (congrArg Kern.clampWrites hk).trans (by rw [← hd]; rfl)
    · next h =>
      generalize hd : ({ c with rt := { c.rt with fenced := c.rt.fenced.filter (· != x) } } : Chip) = d
      have hk : d.unfenceChans.kern = d.kern := by simp
      have hf : d.rt.fenced = c.rt.fenced.filter (· != x) := by rw [← hd]
      refine ⟨fun y => ?_, ?_, ?_, ?_⟩
      · unfold Chip.fenced
        rw [show d.unfenceChans.rt.fenced = d.rt.fenced from congrArg Kern.fenced hk, hf, Bool.eq_iff_iff, List.contains_iff_mem,
          List.mem_filter]
        split
        · next e => simp [e, h]
        · next e => simp [e]
      · exact (congrArg Kern.remembered hk).trans (by rw [← hd]; rfl)
      · exact (congrArg Kern.pending hk).trans (by rw [← hd]; rfl)
      · exact (congrArg Kern.clampWrites hk).trans (by rw [← hd]; rfl)

/-- Fences set one after the other by the bits of a row. -/
theorem Chip.foldl_setFence (row v : Nat) (l : List Nat) (c : Chip) :
    let d := l.foldl (fun c i => c.setFence (row * 64 + i) (v.testBit i)) c
    (∀ i ∈ l, d.fenced (row * 64 + i) = v.testBit i) ∧ (∀ y, (∀ i ∈ l, y ≠ row * 64 + i) → d.fenced y = c.fenced y) ∧
      d.rt.remembered = c.rt.remembered := by
  induction l generalizing c with
  | nil => exact ⟨fun i hi => absurd hi List.not_mem_nil, fun _ _ => rfl, rfl⟩
  | cons j l ih =>
    obtain ⟨h1, h2, h3⟩ := ih (c.setFence (row * 64 + j) (v.testBit j))
    obtain ⟨g1, g2, -⟩ := c.setFence_table (row * 64 + j) (v.testBit j)
    refine ⟨fun i hi => ?_, fun y hy => ?_, h3.trans g2⟩
    · by_cases hm : i ∈ l
      · exact h1 i hm
      · have e : i = j := (List.mem_cons.mp hi).resolve_right hm
        subst e
        refine (h2 _ fun k hk e => hm ?_).trans ((g1 _).trans (if_pos rfl))
        rwa [show i = k by omega]
    · refine (h2 y fun i hi => hy i (List.mem_cons_of_mem _ hi)).trans ((g1 y).trans (if_neg (hy j List.mem_cons_self)))

/-- A row of the Clamp table installed (R338, R340). -/
theorem Chip.installClamp_table (c : Chip) (row v : Nat) :
    (∀ i < 64, (c.installClamp row v).fenced (row * 64 + i) = v.testBit i) ∧
      (∀ x, x / 64 ≠ row → (c.installClamp row v).fenced x = c.fenced x) ∧
      ∀ i < 64, Tab.get? (c.installClamp row v).rt.remembered (row * 64 + i) = none := by
  obtain ⟨h1, h2, h3⟩ := Chip.foldl_setFence row v (List.range 64)
    ({ c with rt := { c.rt with remembered := Tab.keep c.rt.remembered fun k _ => k / 64 != row } } : Chip)
  refine ⟨fun i hi => h1 i (List.mem_range.mpr hi), fun x hx => h2 x fun i hi => ?_, fun i hi => ?_⟩
  · have := List.mem_range.mp hi
    omega
  · refine (congrArg (fun t => Tab.get? t (row * 64 + i)) h3).trans ?_
    refine Tab.get?_keep_none c.rt.remembered (p := fun k _ => k / 64 != row) fun _ => ?_
    rw [show (row * 64 + i) / 64 = row by omega]
    exact bne_self_eq_false row

/-! ### A row of P13.001 -/

theorem keepBits_clamp (x : Nat) : keepBits 0x13 0x001 x = x := rfl

/-- A write of a row is installed, or waits for FAB, and is answered. -/
theorem Chip.clampTableWrite_eq {c : Chip} {w : Writer} {row x : Nat} (hm : c.mayWrite w (pnum 0x13 0x001 row) = true) (hr : row < 512)
    (hx : x < 2 ^ 64) : c.numWrite w 0x13 0x001 row 8 x = (c.writeClamp row x).replied w 0 := by
  have h := Chip.numWrite_store hm (by omega) (d := { ty := .bits64, access := .rw, writers := wFB, elements := 512, table := true })
    (hd := rfl) (hw := .inl rfl) (ht := by decide) (x := x) (hx := hx)
    (hl := Chip.locked_plain _ _ _ (by decide) (by rw [pArea_pnum _ _ _ (by omega) (by omega) (by omega)]; decide)) (idx := none)
  rw [keepBits_clamp] at h
  exact h.trans (if_pos ⟨rfl, rfl⟩)

/-! ### Throttles -/

theorem Chip.dest_putDest (c : Chip) (x y : Nat) (d : Dest) : (c.putDest x d).dest y = if y = x then d else c.dest y := by
  unfold Chip.putDest Chip.dest
  split
  · next e => rw [e, Tab.get?_put_self]; rfl
  · next e => rw [Tab.get?_put_ne _ _ e]; rfl

/-- The entry of a destination after a throttle (R344). -/
def Dest.throttled (d : Dest) (now row : Nat) (p : Packet) : Dest :=
  if bseqOlder d.capFrom row p.bseq then d
  else if p.bcastOp = 1 then
    { d with window := min d.window p.wcap, cap := some p.wcap, capFrom := some (row, p.bseq)
             capExpiry := if p.dur = 0 then none else some (now + 1000 * p.dur) }
  else { d with cap := none, capExpiry := none, capFrom := some (row, p.bseq) }

theorem bseqOlder_self (row : Nat) (s : BitVec 16) : bseqOlder (some (row, s)) row s = false := by
  unfold bseqOlder
  rw [Option.elim_some, BitVec.sub_self]
  simp

/-- A throttle that acts twice acts once. -/
theorem Dest.throttled_twice (d : Dest) (now row : Nat) (p : Packet) :
    (d.throttled now row p).throttled now row p = d.throttled now row p := by
  unfold Dest.throttled
  by_cases h1 : bseqOlder d.capFrom row p.bseq = true
  · simp [h1]
  · by_cases h2 : p.bcastOp = 1 <;> simp [h1, h2, bseqOlder_self]

theorem Chip.throttleDest_table (c : Chip) (row : Nat) (p : Packet) (x : Nat) :
    (∀ y, (c.throttleDest row p x).dest y = if y = x then (c.dest x).throttled c.now row p else c.dest y) ∧
      (c.throttleDest row p x).rt = c.rt ∧ (c.throttleDest row p x).now = c.now := by
  unfold Chip.throttleDest Dest.throttled
  dsimp only
  split
  · exact ⟨fun y => by split <;> simp_all, rfl, rfl⟩
  · split <;> exact ⟨fun y => Chip.dest_putDest .., rfl, rfl⟩

/-- A throttle acts on each destination that it covers, and on no other. -/
theorem Chip.foldl_throttleDest (row : Nat) (p : Packet) (l : List Nat) (c : Chip) :
    let d := l.foldl (fun c x => c.throttleDest row p x) c
    (∀ x ∈ l, d.dest x = (c.dest x).throttled c.now row p) ∧ (∀ x, x ∉ l → d.dest x = c.dest x) ∧ d.rt = c.rt := by
  induction l generalizing c with
  | nil => exact ⟨fun x hx => absurd hx List.not_mem_nil, fun _ _ => rfl, rfl⟩
  | cons j l ih =>
    obtain ⟨h1, h2, h3⟩ := ih (c.throttleDest row p j)
    obtain ⟨g1, g2, g3⟩ := c.throttleDest_table row p j
    refine ⟨fun x hx => ?_, fun x hx => ?_, h3.trans g2⟩
    · by_cases hm : x ∈ l
      · rw [List.foldl_cons, h1 x hm, g3, g1]
        split
        · next e => rw [e, Dest.throttled_twice]
        · rfl
      · have e : x = j := (List.mem_cons.mp hx).resolve_right hm
        rw [List.foldl_cons, h2 x hm, g1, if_pos e, e]
    · rw [List.mem_cons, not_or] at hx
      rw [List.foldl_cons, h2 x hx.2, g1, if_neg hx.1]

/-! ### A broadcast is applied -/

theorem Chip.broadcastApply_idle {c : Chip} (h : c.rt.pending = [] ∨ c.clusterUp 1 = false) : c.broadcastApply = c := by
  unfold Chip.broadcastApply
  split
  · rfl
  · next e =>
    obtain h | h := h
    · rw [e] at h; contradiction
    · rw [h]; rfl

/-- The oldest waiting broadcast is taken. -/
theorem Chip.broadcastApply_eq {c : Chip} {row : Nat} {p : Packet} {r : List (Nat × Packet)} (hp : c.rt.pending = (row, p) :: r)
    (hu : c.clusterUp 1 = true) : c.broadcastApply =
      if p.kind = 0x50 then Chip.applyFence { c with rt := { c.rt with pending := r } } row p
      else Chip.applyThrottle { c with rt := { c.rt with pending := r } } row p := by
  unfold Chip.broadcastApply
  rw [hp]
  dsimp only
  rw [hu]
  rfl

/-- A fence broadcast applied: older than the last of its row, or not (R340). -/
theorem Chip.applyFence_table (c : Chip) (row : Nat) (p : Packet) :
    let older := bseqOlder (Tab.get? c.rt.remembered p.fenceChip) row p.bseq
    (c.applyFence row p).rt.pending = c.rt.pending ∧ (∀ y, y ≠ p.fenceChip → (c.applyFence row p).fenced y = c.fenced y) ∧
      (c.applyFence row p).fenced p.fenceChip = (if older then c.fenced p.fenceChip else p.bcastOp == 1) ∧
      (older = false → Tab.get? (c.applyFence row p).rt.remembered p.fenceChip = some (row, p.bseq)) ∧
      (older = true → (c.applyFence row p).rt.remembered = c.rt.remembered) := by
  unfold Chip.applyFence
  dsimp only
  split
  · next h => simp [h]
  · next h =>
    obtain ⟨h1, h2, h3, -⟩ := Chip.setFence_table
      { c with rt := { c.rt with remembered := Tab.put c.rt.remembered p.fenceChip (row, p.bseq) } } p.fenceChip (p.bcastOp == 1)
    rw [h1, h2, if_pos rfl]
    exact ⟨h3, fun y hy => (h1 y).trans (if_neg hy), rfl, fun _ => Tab.get?_put_self .., fun k => absurd k h⟩

theorem broadcastApply_states (s : State) {row : Nat} {p : Packet} {r : List (Nat × Packet)} (hs : s.leaves fun c => c.broadcastApply)
    (hp : s.chip.rt.pending = (row, p) :: r) (hu : s.chip.clusterUp 1 = true) :
    (p.kind = 0x50 →
      let older := bseqOlder (Tab.get? s.chip.rt.remembered p.fenceChip) row p.bseq
      Completes .broadcastApply s fun c => c.rt.pending = r ∧ (∀ y, y ≠ p.fenceChip → c.fenced y = s.chip.fenced y) ∧
        c.fenced p.fenceChip = (if older then s.chip.fenced p.fenceChip else p.bcastOp == 1) ∧
        (older = false → Tab.get? c.rt.remembered p.fenceChip = some (row, p.bseq)) ∧
        (older = true → c.rt.remembered = s.chip.rt.remembered)) ∧
    (p.kind = 0x51 → Completes .broadcastApply s fun c => c.rt.pending = r ∧ c.rt.fenced = s.chip.rt.fenced ∧
      (∀ x, x ∉ throttled p → c.dest x = s.chip.dest x) ∧
      ∀ x ∈ throttled p, c.dest x = (s.chip.dest x).throttled s.chip.now row p) := by
  have he := Chip.broadcastApply_eq hp hu
  refine ⟨fun hk => .of_run (exec_broadcastApply s) hs.1 hs.2 ?_, fun hk => .of_run (exec_broadcastApply s) hs.1 hs.2 ?_⟩
  · rw [he, if_pos hk]
    exact Chip.applyFence_table { s.chip with rt := { s.chip.rt with pending := r } } row p
  · rw [he, if_neg (by rw [hk]; decide)]
    obtain ⟨h1, h2, h3⟩ := Chip.foldl_throttleDest row p (throttled p) { s.chip with rt := { s.chip.rt with pending := r } }
    exact ⟨(congrArg Router.pending h3 :), (congrArg Router.fenced h3 :), h2, h1⟩

/-! ### A throttle ends -/

theorem Chip.throttleExpiry_idle {c : Chip} {x : Nat}
    (h : ((Tab.get? c.tr.dests x).bind (·.capExpiry)).elim false (fun t => decide (t ≤ c.now)) = false) : c.throttleExpiry x = c := by
  unfold Chip.throttleExpiry
  cases hd : Tab.get? c.tr.dests x with
  | none => rfl
  | some d =>
    rw [hd] at h
    dsimp only
    cases ht : d.capExpiry with
    | none => rfl
    | some t =>
      simp only [Option.bind_some, ht, Option.elim_some, decide_eq_false_iff_not] at h
      exact if_neg h

theorem Chip.throttleExpiry_due {c : Chip} {x : Nat} {d : Dest} (hd : Tab.get? c.tr.dests x = some d)
    (h : ((Tab.get? c.tr.dests x).bind (·.capExpiry)).elim false (fun t => decide (t ≤ c.now)) = true) :
    c.throttleExpiry x = c.putDest x { d with cap := none, capExpiry := none } := by
  unfold Chip.throttleExpiry
  rw [hd] at h ⊢
  dsimp only
  cases ht : d.capExpiry with
  | none => simp [ht] at h
  | some t =>
    simp only [Option.bind_some, ht, Option.elim_some, decide_eq_true_eq] at h
    exact if_pos h

/-! ### A broadcast arrives -/

/-- An arrival leaves its buffer. -/
def Chip.received (c : Chip) (a : Arrival) : Chip := (c.dropArrival a).freeArrival a

theorem Chip.received_signals (c : Chip) (a : Arrival) : (c.dropArrival a).Signals (c.received a) := Chip.freeCells_signals ..

/-- What stays of the routers' queues when a packet goes no further; the arrival is gone, and the input has counted it. -/
structure Chip.Loses (c d : Chip) (a : Arrival) (k : Ctr) : Prop where
  arrivals : d.rt.arrivals = eraseFirst (fun x => x.id == a.id) c.rt.arrivals
  mem : d.mem = c.mem
  waiting : d.rt.waiting = c.rt.waiting
  pending : d.rt.pending = c.rt.pending
  bcasts : d.rt.bcasts = c.rt.bcasts
  counted : getCounter ⟨a.inp, k⟩ d.events = getCounter ⟨a.inp, k⟩ (c.bump a.inp k).events

theorem Chip.received_counts (c : Chip) (a : Arrival) {k : Ctr} (hk : k ≠ .nakSent) :
    getCounter ⟨a.inp, k⟩ ((c.received a).bump a.inp k).events = getCounter ⟨a.inp, k⟩ (c.bump a.inp k).events := by
  have h1 := (c.received a).bump_self a.inp k 1
  have h2 := c.bump_self a.inp k 1
  rw [show (c.received a).ctr.events = (c.received a).events from rfl, (c.received_signals a).events _ _ hk] at h1
  exact h1.trans h2.symm

theorem Chip.received_loses (c : Chip) (a : Arrival) {k : Ctr} (hk : k ≠ .nakSent) : c.Loses ((c.received a).bump a.inp k) a k := by
  have hr : ((c.received a).bump a.inp k).rt = (c.dropArrival a).rt := (Chip.bump_reacts ..).rt.trans (c.received_signals a).rt
  exact ⟨by rw [hr]; rfl, (Chip.bump_reacts ..).mem.trans (c.received_signals a).mem, by rw [hr]; rfl, by rw [hr]; rfl, by rw [hr]; rfl,
    c.received_counts a hk⟩

theorem Chip.routerDrop_loses (c : Chip) (a : Arrival) {k : Ctr} (hk : k ≠ .nakSent) (cause : Nat) :
    c.Loses ((c.received a).routerDrop a.inp k cause) a k := by
  obtain ⟨h1, h2, h3, h4, h5, h6⟩ := c.received_loses a hk
  have hr := ((c.received a).bump a.inp k).raise_reacts routerUnit cause 1 a.inp 0 0
  refine ⟨?_, hr.mem.trans h2, ?_, ?_, ?_, ?_⟩
  · exact (congrArg Router.arrivals hr.rt).trans h1
  · exact (congrArg Router.waiting hr.rt).trans h3
  · exact (congrArg Router.pending hr.rt).trans h4
  · exact (congrArg Router.bcasts hr.rt).trans h5
  · exact (congrArg (getCounter _) (Chip.raise_events ..)).trans h6

/-- The unit of the router core is there in every variant. -/
theorem routerUnit_present (v : Variant) : unitPresent v routerUnit = true := by cases v <;> rfl

/-- A discard of the router core that leaves nothing to carry out is noted. -/
theorem Chip.routerDrop_noted {c : Chip} {p cause : Nat} {k : Ctr} (h : (c.routerDrop p k cause).calm = true)
    (hc : isCause routerUnit cause = true) : (c.routerDrop p k cause).noted c routerUnit cause :=
  (Chip.raise_noted h (routerUnit_present _) hc).before (by rw [(c.bump_announces p k 1).flt]) (by rw [(c.bump_announces p k 1).flt])

/-! ### Copies -/

/-- A broadcast that no hop or level limit stops joins the queue of a port. -/
theorem Chip.copyTo_queues (c : Chip) (a : Arrival) (q : Nat) : c.Queues (c.copyTo a q) := by
  unfold Chip.copyTo
  split
  · exact Chip.enqueue_queues ..
  · exact (Chip.routerDrop_reacts ..).queues
  · exact .refl c

theorem Chip.copyTo_waits {c : Chip} {a : Arrival} {q : Nat} (hh : a.pkt.hops ≠ 8)
    (hl : c.role q ≠ 2 ∨ a.pkt.level ≠ 2 ∨ a.pkt.tc = 1) :
    ∃ w ∈ (c.copyTo a q).rt.waiting, w.out = q ∧ w.id = a.id ∧ w.pkt = a.pkt ∧ w.copy = true := by
  have h : c.checkOut q a.pkt = .to q a.pkt := by
    unfold Chip.checkOut
    rw [if_neg (by simpa using hh), if_neg ?_]
    simp only [Bool.and_eq_true, beq_iff_eq, bne_iff_ne, not_and]
    intro h1 h2
    exact h2 ((hl.resolve_left (not_not_intro h1.1)).resolve_left (not_not_intro h1.2))
  unfold Chip.copyTo
  rw [h]
  dsimp only
  rw [Chip.enqueue_waiting]
  exact ⟨_, List.mem_append_right _ List.mem_cons_self, rfl, rfl, rfl, rfl⟩

theorem Chip.foldl_copyTo (a : Arrival) (l : List Nat) (c : Chip) :
    c.Queues (l.foldl (fun c q => c.copyTo a q) c) ∧
      (a.pkt.hops ≠ 8 → ∀ q ∈ l, (c.role q ≠ 2 ∨ a.pkt.level ≠ 2 ∨ a.pkt.tc = 1) →
        ∃ w ∈ (l.foldl (fun c q => c.copyTo a q) c).rt.waiting, w.out = q ∧ w.id = a.id ∧ w.pkt = a.pkt ∧ w.copy = true) := by
  induction l generalizing c with
  | nil => exact ⟨.refl c, fun _ q hq => absurd hq List.not_mem_nil⟩
  | cons j l ih =>
    have hj := c.copyTo_queues a j
    obtain ⟨h1, h2⟩ := ih (c.copyTo a j)
    refine ⟨hj.trans h1, fun hh q hq hl => ?_⟩
    obtain rfl | hm := List.mem_cons.mp hq
    · obtain ⟨w, hw, e⟩ := Chip.copyTo_waits (c := c) hh hl
      exact ⟨w, h1.waiting.subset hw, e⟩
    · exact h2 hh q hm (by rw [hj.role]; exact hl)

/-- The chip on which the BSEQ of a new broadcast is entered. -/
def Chip.bseqEntered (c : Chip) (a : Arrival) (row : Nat) : Chip :=
  { c with rt := { c.rt with bcasts := Tab.put c.rt.bcasts row ((Tab.get c.rt.bcasts row BcastRec.init).enter a.pkt.bseq) } }

/-- The chip on which a new broadcast has been copied. -/
def Chip.fannedOut (c : Chip) (a : Arrival) : Chip := (c.copyPorts a.inp a.pkt).foldl (fun c q => c.copyTo a q) c

/-- The chip on which a new broadcast is entered and copied, before it waits for FAB. -/
def Chip.copied (c : Chip) (a : Arrival) (row : Nat) : Chip :=
  if ((c.bseqEntered a row).fannedOut a).rt.waiting.any (fun w => w.id == a.id) then (c.bseqEntered a row).fannedOut a
  else ((c.bseqEntered a row).fannedOut a).freeArrival a

theorem Chip.spread_eq (c : Chip) (a : Arrival) (row : Nat) : c.spread a row = (c.copied a row).awaitApply row a.pkt := rfl

theorem Chip.copyTo_holds (c : Chip) (a : Arrival) (q : Nat) {v : Faults × Boot} (h : Holds v c.watch) : Holds v (c.copyTo a q).watch := by
  unfold Chip.copyTo
  split
  · simpa using h
  · exact Chip.routerDrop_holds _ _ _ _ h
  · exact h

theorem Chip.copied_holds (c : Chip) (a : Arrival) (row : Nat) : Holds c.watch (c.copied a row).watch := by
  have h1 : Holds c.watch ((c.bseqEntered a row).fannedOut a).watch :=
    foldl_holds (fun c q h => c.copyTo_holds a q h) _ (Holds.refl c.watch : Holds c.watch (c.bseqEntered a row).watch)
  unfold Chip.copied
  split
  · exact h1
  · have hs := ((c.bseqEntered a row).fannedOut a).freeCells_signals a.inp a.pkt.vc.toNat a.pkt.len.toNat a.pool
    exact hs.watch.symm ▸ h1

/-- What a new broadcast leaves once copied: its BSEQ is entered, and its copies wait. -/
theorem Chip.copied_table (c : Chip) (a : Arrival) (row : Nat) :
    (c.copied a row).mem = c.mem ∧ (c.copied a row).rt.arrivals = c.rt.arrivals ∧ (c.copied a row).rt.pending = c.rt.pending ∧
      Tab.get (c.copied a row).rt.bcasts row BcastRec.init = (Tab.get c.rt.bcasts row BcastRec.init).enter a.pkt.bseq ∧
      (c.copied a row).variant = c.variant ∧
      (a.pkt.hops ≠ 8 → ∀ q ∈ c.copyPorts a.inp a.pkt, (c.role q ≠ 2 ∨ a.pkt.level ≠ 2 ∨ a.pkt.tc = 1) →
        ∃ w ∈ (c.copied a row).rt.waiting, w.out = q ∧ w.id = a.id ∧ w.pkt = a.pkt ∧ w.copy = true) := by
  have hf := Chip.foldl_copyTo a ((c.bseqEntered a row).copyPorts a.inp a.pkt) (c.bseqEntered a row)
  rw [show ((c.bseqEntered a row).copyPorts a.inp a.pkt).foldl (fun c q => c.copyTo a q) (c.bseqEntered a row) =
    (c.bseqEntered a row).fannedOut a from rfl] at hf
  obtain ⟨hq, hw⟩ := hf
  unfold Chip.copied
  generalize (c.bseqEntered a row).fannedOut a = e at hq hw
  have hs : ∀ f : Chip, f.mem = e.mem → f.rt = e.rt → f.variant = e.variant → f.mem = c.mem ∧ f.rt.arrivals = c.rt.arrivals ∧ f.rt.pending = c.rt.pending ∧
      Tab.get f.rt.bcasts row BcastRec.init = (Tab.get c.rt.bcasts row BcastRec.init).enter a.pkt.bseq ∧ f.variant = c.variant ∧
      (a.pkt.hops ≠ 8 → ∀ q ∈ c.copyPorts a.inp a.pkt, (c.role q ≠ 2 ∨ a.pkt.level ≠ 2 ∨ a.pkt.tc = 1) →
        ∃ w ∈ f.rt.waiting, w.out = q ∧ w.id = a.id ∧ w.pkt = a.pkt ∧ w.copy = true) := by
    intro f hm hr hv
    rw [hm, hr, hv]
    refine ⟨hq.mem, (congrArg Router.arrivals hq.rt :), (congrArg Router.pending hq.rt :), ?_, hq.variant, hw⟩
    rw [show e.rt.bcasts = (c.bseqEntered a row).rt.bcasts from (congrArg Router.bcasts hq.rt :)]
    exact Tab.get_put_self ..
  split
  · exact hs e rfl rfl rfl
  · have h := e.freeCells_signals a.inp a.pkt.vc.toNat a.pkt.len.toNat a.pool
    exact hs _ h.mem h.rt h.variant

/-- A new broadcast waits for FAB, or raises the overflow source (R342). -/
theorem Chip.awaitApply_table (c : Chip) (row : Nat) (p : Packet) :
    (c.awaitApply row p).mem = c.mem ∧ (c.awaitApply row p).rt = { c.rt with pending := (c.awaitApply row p).rt.pending } ∧
      (c.rt.pending.length < 256 → (c.awaitApply row p).rt.pending = c.rt.pending ++ [(row, p)]) ∧
      (256 ≤ c.rt.pending.length → (c.awaitApply row p).rt.pending = c.rt.pending ∧ c.awaitApply row p = c.raise routerUnit 0x106 11 routerUnit) := by
  unfold Chip.awaitApply
  split
  · next h =>
    have hr := c.raise_reacts routerUnit 0x106 11 routerUnit 0 0
    exact ⟨hr.mem, by rw [hr.rt], fun k => absurd h (by omega), fun _ => ⟨by rw [hr.rt], rfl⟩⟩
  · next h => exact ⟨rfl, rfl, fun _ => rfl, fun k => absurd k h⟩

/-! ### The cases of an arrival -/

section
variable {c : Chip} {a : Arrival} (ha : c.firstArrival? a.inp = some a) (hh : a.pkt.headerFails = false)
include ha hh

/-- The first arrival of an input is a broadcast of the kind. -/
theorem Chip.broadcastArrives_eq : c.broadcastArrives a.inp a.pkt a.pkt.kind.toNat =
    if c.tooOld a.pkt then (c.received a).routerDrop a.inp .ageLimit 0x105
    else match c.managerRow? a.pkt.src.toNat with
      | none => { c.received a with dict := { (c.received a).dict with shimRejected := (c.received a).dict.shimRejected + 1 } }
      | some row =>
        if !a.pkt.bcastOk then (c.received a).bump a.inp .bcastBad
        else if !(Tab.get c.rt.bcasts row BcastRec.init).isNew a.pkt.bseq then (c.received a).bump a.inp .bcastDuplicate
        else (c.dropArrival a).spread a row := by
  unfold Chip.broadcastArrives
  rw [ha]
  dsimp only
  rw [if_neg (by simp [hh])]
  rfl

/-- A broadcast of no manager. -/
theorem Chip.broadcastArrives_unlisted (ho : c.tooOld a.pkt = false) (hm : c.managerRow? a.pkt.src.toNat = none) :
    let d := c.broadcastArrives a.inp a.pkt a.pkt.kind.toNat
    d.rt = (c.dropArrival a).rt ∧ d.mem = c.mem ∧ d.dict.shimRejected = c.dict.shimRejected + 1 := by
  dsimp only
  rw [Chip.broadcastArrives_eq ha hh, if_neg (by rw [ho]; decide), hm]
  exact ⟨(c.received_signals a).rt, (c.received_signals a).mem, congrArg (fun d : Dict => d.shimRejected + 1) (c.received_signals a).dict⟩

/-- A new broadcast is entered, copied, and waits for FAB. -/
theorem Chip.broadcastArrives_new (ho : c.tooOld a.pkt = false) {row : Nat} (hm : c.managerRow? a.pkt.src.toNat = some row)
    (hb : a.pkt.bcastOk = true) (hn : (Tab.get c.rt.bcasts row BcastRec.init).isNew a.pkt.bseq = true)
    (hc : (c.broadcastArrives a.inp a.pkt a.pkt.kind.toNat).calm = true) :
    let d := c.broadcastArrives a.inp a.pkt a.pkt.kind.toNat
    d.rt.arrivals = eraseFirst (fun x => x.id == a.id) c.rt.arrivals ∧ d.mem = c.mem ∧
      Tab.get d.rt.bcasts row BcastRec.init = (Tab.get c.rt.bcasts row BcastRec.init).enter a.pkt.bseq ∧
      (c.rt.pending.length < 256 → d.rt.pending = c.rt.pending ++ [(row, a.pkt)]) ∧
      (256 ≤ c.rt.pending.length → d.rt.pending = c.rt.pending ∧ d.noted c routerUnit 0x106) ∧
      (a.pkt.hops ≠ 8 → ∀ q ∈ c.copyPorts a.inp a.pkt, (c.role q ≠ 2 ∨ a.pkt.level ≠ 2 ∨ a.pkt.tc = 1) →
        ∃ w ∈ d.rt.waiting, w.out = q ∧ w.id = a.id ∧ w.pkt = a.pkt ∧ w.copy = true) := by
  have he : c.broadcastArrives a.inp a.pkt a.pkt.kind.toNat = ((c.dropArrival a).copied a row).awaitApply row a.pkt := by
    rw [Chip.broadcastArrives_eq ha hh, if_neg (by rw [ho]; decide), hm]
    dsimp only
    rw [hb, hn]
    exact (c.dropArrival a).spread_eq a row
  rw [he] at hc ⊢
  obtain ⟨h1, h2, h3, h4, h5, h6⟩ := (c.dropArrival a).copied_table a row
  obtain ⟨g1, g2, g3, g4⟩ := ((c.dropArrival a).copied a row).awaitApply_table row a.pkt
  rw [h3] at g3 g4
  refine ⟨(congrArg Router.arrivals g2).trans h2, g1.trans h1, (congrArg (fun r : Router => Tab.get r.bcasts row BcastRec.init) g2).trans h4,
    g3, fun hl => ⟨(g4 hl).1, ?_⟩, fun hp q hq hr => ?_⟩
  · rw [(g4 hl).2] at hc ⊢
    have hk : ((c.dropArrival a).copied a row).calm = true := (Chip.raise_notes _ _ _ _ _ _ _ hc).only.calm ▸ hc
    obtain ⟨k1, k2, -⟩ := Chip.calm_iff _ |>.mp hk
    have hw := ((c.dropArrival a).copied_holds a row).calm k2 k1
    exact (Chip.raise_noted hc (routerUnit_present _) (by decide)).before hw.inReset hw.heldUnits
  · rw [show (((c.dropArrival a).copied a row).awaitApply row a.pkt).rt.waiting = ((c.dropArrival a).copied a row).rt.waiting from
      (congrArg Router.waiting g2 :)]
    exact h6 hp q hq hr

end

/-- Both forms of the command take the broadcast alike. -/
theorem broadcast_completes {s : State} {inp : Nat} {p : Packet} {r : Chip → Prop}
    (hs : s.leaves fun c => c.broadcastArrives inp p p.kind.toNat) (hr : r (s.chip.broadcastArrives inp p p.kind.toNat)) :
    (p.kind.toNat = 0x50 → Completes (.fenceBroadcast inp p) s r) ∧ (p.kind.toNat = 0x51 → Completes (.throttleBroadcast inp p) s r) :=
  ⟨fun hk => .of_run (exec_fenceBroadcast inp p s) hs.1 (hk ▸ hs.2) (hk ▸ hr),
    fun hk => .of_run (exec_throttleBroadcast inp p s) hs.1 (hk ▸ hs.2) (hk ▸ hr)⟩

/-- No such broadcast stands first at the input. -/
theorem Chip.broadcastArrives_absent {c : Chip} {inp k : Nat} {p : Packet}
    (h : ((c.firstArrival? inp).filter fun a => a.pkt == p && !p.headerFails) = none ∨ p.kind.toNat ≠ k) :
    c.broadcastArrives inp p k = c := by
  unfold Chip.broadcastArrives
  split
  · rfl
  · next a ha =>
    refine if_pos ?_
    rw [ha] at h
    obtain h | h := h
    · rw [Option.filter_eq_none_iff] at h
      have := h a rfl
      simp only [Bool.and_eq_true, beq_iff_eq, Bool.not_eq_true', not_and, Bool.not_eq_false] at this
      by_cases he : a.pkt = p
      · exact .inr (.inl (this he))
      · exact .inl he
    · exact .inr (.inr h)

theorem Chip.firstArrival_found {c : Chip} {inp : Nat} {p : Packet} {a : Arrival}
    (h : ((c.firstArrival? inp).filter fun a => a.pkt == p && !p.headerFails) = some a) :
    a.inp = inp ∧ a.pkt = p ∧ p.headerFails = false ∧ c.firstArrival? inp = some a := by
  rw [Option.filter_eq_some_iff] at h
  obtain ⟨h1, h2⟩ := h
  have h3 := List.find?_some h1
  simp only [Bool.and_eq_true, beq_iff_eq, Bool.not_eq_true'] at h2 h3
  exact ⟨h3, h2.1, h2.2, h1⟩

/-- Settles O51: a broadcast changes the queues of the router core alone, and the Clamp table changes chip by chip. -/
theorem broadcastsAndFencesAct : Obligations.BroadcastsAndFencesAct := by
  intro s
  refine ⟨fun inp p => ⟨fun hs => ⟨fun h => ?_, fun h => ?_⟩, fun a ha hs => ?_⟩, fun hs h => ?_, fun row p r hs hp hu => ?_,
    fun w row v hm hr => ⟨fun hs hu => ?_, fun hs hd => ?_⟩, fun x => ⟨fun hs h => ?_, fun hs h d hd => ?_⟩⟩
  · exact Chip.still_completes (exec_fenceBroadcast inp p s) hs (Chip.broadcastArrives_absent h)
  · exact Chip.still_completes (exec_throttleBroadcast inp p s) hs (Chip.broadcastArrives_absent h)
  · obtain ⟨rfl, rfl, hh, hf⟩ := Chip.firstArrival_found ha
    have he := Chip.broadcastArrives_eq hf hh
    refine ⟨fun ho => ?_, fun ho => ⟨fun hm => ?_, fun row hm => ⟨fun hb => ?_, fun hb hn => ?_, fun hb hn => ?_⟩⟩⟩
    · rw [if_pos ho] at he
      obtain ⟨h1, h2, h3, h4, h5, h6⟩ := s.chip.routerDrop_loses a (k := .ageLimit) (by decide) 0x105
      have hc : ((s.chip.received a).routerDrop a.inp .ageLimit 0x105).calm = true := he ▸ hs.2
      exact broadcast_completes hs (by
        rw [he]
        exact ⟨h1, h2, ⟨h3, h4, h5, h6⟩, (Chip.routerDrop_noted hc (by decide)).before (by rw [(s.chip.received_signals a).flt]; rfl)
          (by rw [(s.chip.received_signals a).flt]; rfl)⟩)
    · obtain ⟨h1, h2, h3⟩ := Chip.broadcastArrives_unlisted hf hh ho hm
      exact broadcast_completes hs ⟨by rw [h1]; rfl, h2, by rw [h1]; rfl, by rw [h1]; rfl, h3⟩
    · rw [if_neg (by rw [ho]; decide), hm] at he
      dsimp only at he
      rw [hb] at he
      obtain ⟨h1, h2, h3, h4, h5, h6⟩ := s.chip.received_loses a (k := .bcastBad) (by decide)
      exact broadcast_completes hs (by rw [he]; exact ⟨h1, h2, h3, h4, h5, h6⟩)
    · rw [if_neg (by rw [ho]; decide), hm] at he
      dsimp only at he
      rw [hb, hn] at he
      obtain ⟨h1, h2, h3, h4, h5, h6⟩ := s.chip.received_loses a (k := .bcastDuplicate) (by decide)
      exact broadcast_completes hs (by rw [he]; exact ⟨h1, h2, h3, h4, h5, h6⟩)
    · exact broadcast_completes hs (Chip.broadcastArrives_new hf hh ho hm hb hn hs.2)
  · exact Chip.still_completes (exec_broadcastApply s) hs (Chip.broadcastApply_idle h)
  · exact broadcastApply_states s hs hp hu
  · have he := Chip.clampTableWrite_eq hm hr v.isLt
    have hw : s.chip.writeClamp row v.toNat = s.chip.installClamp row v.toNat := if_pos hu
    obtain ⟨h1, h2, h3⟩ := s.chip.installClamp_table row v.toNat
    refine Completes.of_runAny (exec_clampTableWrite w row v s) (by rw [he, Chip.replied_calm]; exact hs.2) ?_
    rw [he, hw]
    unfold Chip.fenced at *
    rw [Chip.replied_out, Chip.replied_rt]
    exact ⟨List.mem_append_right _ List.mem_cons_self, h1, h2, h3⟩
  · have he := Chip.clampTableWrite_eq hm hr v.isLt
    have hw : s.chip.writeClamp row v.toNat = { s.chip with rt := { s.chip.rt with clampWrites := s.chip.rt.clampWrites ++ [(row, v.toNat)] } } :=
      if_neg (by rw [hd]; decide)
    refine Completes.of_runAny (exec_clampTableWrite w row v s) (by rw [he, Chip.replied_calm, hw]; exact hs.2) ?_
    rw [he, hw, Chip.replied_out, Chip.replied_rt]
    exact ⟨rfl, rfl, rfl⟩
  · exact Chip.still_completes (exec_throttleExpiry x s) hs (Chip.throttleExpiry_idle h)
  · have he := Chip.throttleExpiry_due hd h
    refine Completes.of_run (exec_throttleExpiry x s) hs.1 (by rw [he]; exact hs.2) ?_
    rw [he]
    exact ⟨(Chip.dest_putDest ..).trans (if_pos rfl), fun y hy => (Chip.dest_putDest ..).trans (if_neg hy), rfl, rfl⟩

end Sys2Proof.Machine
end


section
/-! Occurrences whose reaction reports (R454, R455, R462, R464, R468, R469). -/

set_option Elab.async false

namespace Sys2Proof.Machine

/-! ### Rows of sources that an occurrence elsewhere leaves -/

/-- `g` has of `f` the rows of the sources of all units before the router core, and the stalled units. -/
structure Spares (f g : Faults) : Prop where
  rows : ∀ n < 0xA0 * 4096, Tab.get g.sources n Source.init = Tab.get f.sources n Source.init
  stalled : g.stalled = f.stalled

theorem Spares.refl (f : Faults) : Spares f f := ⟨fun _ _ => rfl, rfl⟩

theorem Spares.trans {f g h : Faults} (a : Spares f g) (b : Spares g h) : Spares f h :=
  ⟨fun n hn => (b.rows n hn).trans (a.rows n hn), b.stalled.trans a.stalled⟩

theorem Spares.of_watch {c d : Chip} (h : d.watch = c.watch) : Spares c.flt d.flt := by
  rw [show d.flt = c.flt from (Prod.mk.inj h).1]
  exact .refl _

theorem Chip.setSrc_spares (c : Chip) {u : Nat} (k : Nat) (s : Source) (hu : 0xA0 ≤ u) : Spares c.flt (c.setSrc u k s).flt :=
  ⟨fun n hn => Tab.get_set_ne _ _ _ (by unfold srcKey; omega), rfl⟩

theorem Faults.foldl_close_kept (l : List Record) (f : Faults) :
    (l.foldl Faults.close f).stalled = f.stalled ∧ (l.foldl Faults.close f).unrecorded = f.unrecorded := by
  induction l generalizing f with
  | nil => exact ⟨rfl, rfl⟩
  | cons r l ih => exact ih (f.close r)

theorem Chip.enterRecord_stalled (c : Chip) (unit cause skind subject : Nat) (d0 d1 : Word) :
    (c.enterRecord unit cause skind subject d0 d1).flt.stalled = c.flt.stalled := by
  have h : c.kerfClose.flt.stalled = c.flt.stalled := (Faults.foldl_close_kept ..).1
  rw [← h]
  unfold Chip.enterRecord
  dsimp only
  split <;> split <;> rfl

theorem Chip.enterRecord_spares (c : Chip) (unit cause skind subject : Nat) (d0 d1 : Word) :
    Spares c.flt (c.enterRecord unit cause skind subject d0 d1).flt := by
  have hr := c.enterRecord_rest unit cause skind subject d0 d1
  simp only [Faults.rest, Prod.mk.injEq] at hr
  obtain ⟨-, -, -, -, -, h⟩ := hr
  exact ⟨fun n _ => by rw [h], c.enterRecord_stalled ..⟩

theorem Chip.setHeld_spares (c : Chip) {u : Nat} (on : Bool) (hu : 0xA0 ≤ u) : Spares c.flt (c.setHeld u on).flt := by
  have : ∀ (l : List Nat) (c : Chip), Spares c.flt (l.foldl (fun c k => c.setSrc u k { c.src u k with held := on }) c).flt := by
    intro l
    induction l with
    | nil => exact fun c => .refl c.flt
    | cons k l ih => exact fun c => (c.setSrc_spares k { c.src u k with held := on } hu).trans (ih _)
  exact this _ c

theorem Chip.unitHeldOccurs_spares (c : Chip) (unit : Nat) : Spares c.flt (c.unitHeldOccurs unit).flt := by
  unfold Chip.unitHeldOccurs
  extract_lets s c1 ctl
  have h1 : Spares c.flt c1.flt := (c.setSrc_spares 0x101 s.occurs (by decide)).trans (Chip.enterRecord_spares ..)
  have h2 : ∀ d : Chip, d.watch = c1.watch → Spares c.flt d.flt := fun d hd => h1.trans (.of_watch hd)
  split
  · exact h1
  · split
    · split
      · exact h2 _ (by simp)
      · exact h1
    · split
      · exact h2 _ (by simp)
      · exact h1

theorem Chip.reaction3_spares (c : Chip) {u : Nat} (cause : Nat) (b : Bool) (hu : 0xA0 ≤ u) : Spares c.flt (c.reaction3 u cause b).flt := by
  unfold Chip.reaction3
  extract_lets c1 c2 f2 c3 c4 c5 f5 f1
  have h1 : Spares c.flt c1.flt := .of_watch (by simp only [c1]; split <;> simp)
  have h2 : Spares c.flt c2.flt := h1.trans (c1.setHeld_spares true hu)
  have h3 : Spares c.flt c3.flt := ⟨h2.rows, h2.stalled⟩
  have h4 : Spares c.flt c4.flt := h3.trans (.of_watch (by simp only [c4]; split <;> simp))
  have h5 : Spares c.flt c5.flt := h4.trans (c4.unitHeldOccurs_spares u)
  split
  · exact h1
  · split
    · exact ⟨h5.rows, h5.stalled⟩
    · exact ⟨h1.rows, h1.stalled⟩

theorem Chip.reaction4_spares (c : Chip) (u cause skind subject : Nat) (d0 d1 : Word) :
    Spares c.flt (c.reaction4 u cause skind subject d0 d1).flt := by
  unfold Chip.reaction4
  dsimp only
  split <;> exact ⟨fun _ _ => rfl, rfl⟩

/-- An occurrence in the router core, or in a unit of a higher number, spares the rows of the units before it. -/
theorem Chip.occurrence_spares (c : Chip) {u : Nat} (cause skind subject : Nat) (d0 d1 : Word) (hu : 0xA0 ≤ u) :
    Spares c.flt (c.occurrence u cause skind subject d0 d1).flt := by
  unfold Chip.occurrence
  split
  · exact .refl _
  · extract_lets s c1
    have h1 : Spares c.flt c1.flt := (c.setSrc_spares cause s.occurs hu).trans (Chip.enterRecord_spares ..)
    refine h1.trans ?_
    unfold Chip.react
    extract_lets ctl
    split
    case h_1 => exact .of_watch (by split <;> simp)
    case h_2 => exact .of_watch (by split <;> simp)
    case h_3 => exact c1.reaction3_spares _ _ hu
    case h_4 => exact c1.reaction4_spares ..
    case h_5 => exact .refl _

theorem Chip.routerDrop_spares (c : Chip) (p : Nat) (k : Ctr) (cause : Nat) : Spares c.flt (c.routerDrop p k cause).flt :=
  (Spares.of_watch (c.bump_watch p k 1)).trans (Chip.occurrence_spares _ _ _ _ _ _ (by decide))

theorem Chip.reroute_spares (c : Chip) (w : Waiting) : Spares c.flt (c.reroute w).flt := by
  unfold Chip.reroute
  split
  · exact .of_watch (by simp)
  · split <;> rename_i e <;> have h1 := Spares.of_watch (pair_watch e (Chip.routeByTables_watch ..))
    · exact h1.trans (.of_watch (by simp))
    · exact h1.trans ((Spares.of_watch (Chip.discardWaiting_watch ..)).trans (Chip.routerDrop_spares ..))
    · exact h1

theorem Chip.rerouteAll_spares (c : Chip) (port : Nat) : Spares c.flt (c.rerouteAll port).flt := by
  have : ∀ (l : List Waiting) (c : Chip), Spares c.flt (l.foldl (fun c w => if w.started then c.discardWaiting w else c.reroute w) c).flt := by
    intro l
    induction l with
    | nil => exact fun c => .refl c.flt
    | cons w l ih =>
      intro c
      refine Spares.trans ?_ (ih _)
      dsimp only
      split
      · exact .of_watch (c.discardWaiting_watch w)
      · exact c.reroute_spares w
  exact (this _ c).trans (.of_watch (Chip.dropSending_watch ..))

/-- Ports that reroute what waits for them change no row of a lane macro. -/
theorem Chip.stallPorts_spares (c : Chip) (u : Nat) : Spares c.flt (c.stallPorts u).flt := by
  unfold Chip.stallPorts
  split
  · exact (c.rerouteAll_spares _).trans (Chip.rerouteAll_spares ..)
  · exact .refl _

/-- A unit that is no lane macro has no ports that stall. -/
theorem Chip.stallPorts_other {c : Chip} {u : Nat} (h : u < 0x40 ∨ 0x5E ≤ u) : c.stallPorts u = c := if_neg (by omega)

theorem ite_le_of_le {p : Prop} [Decidable p] {a b n : Nat} (ha : a ≤ n) (hb : b ≤ n) : (if p then a else b) ≤ n := by
  split <;> assumption

theorem isCause_lt {u k : Nat} (h : isCause u k = true) : k < 4096 := by
  have hc : causesOf u ≤ 96 := by
    unfold causesOf
    repeat' refine ite_le_of_le (by decide) ?_
    decide
  unfold isCause at h
  simp only [Bool.or_eq_true, Bool.and_eq_true, decide_eq_true_eq] at h
  omega

/-- The row of a source once its unit's ports have stalled. -/
theorem Chip.stallPorts_src (c : Chip) {u k : Nat} (hi : isCause u k = true) : (c.stallPorts u).src u k = c.src u k := by
  by_cases hu : u < 0x5E
  · exact (c.stallPorts_spares u).rows _ (by have := isCause_lt hi; unfold srcKey; omega)
  · rw [Chip.stallPorts_other (.inr (by omega))]

/-! ### Records -/

/-- The open records whose time has not come. -/
def Chip.standing (c : Chip) : List Record := c.flt.openRecs.filter fun r => decide (c.now < r.closeAt)

/-- A record of the same source, cause and subject. -/
def Chip.sameRecord (c : Chip) (u k skind subject : Nat) (r : Record) : Bool :=
  r.source == c.source u && r.cause == k && r.skind == skind && r.subject == subject

/-- `d` has the records of `c` with one more occurrence: in a record of its own, unrecorded, or in one that merges it (R468, R469). -/
structure Chip.Enters (c d : Chip) (u k skind subject : Nat) : Prop where
  opens : c.standing.find? (c.sameRecord u k skind subject) = none → c.flt.used < 2047 →
    ∃ r, d.flt.openRecs = c.standing ++ [r] ∧ r.source = c.source u ∧ r.cause = k ∧ r.count = 1 ∧ r.skind = skind ∧
      r.subject = subject ∧ r.first = c.tb.time ∧ r.last = c.tb.time ∧ r.closeAt = c.now + 1000 * c.param 0x30 0xF00 0
  full : c.standing.find? (c.sameRecord u k skind subject) = none → 2047 ≤ c.flt.used →
    d.flt.openRecs = c.standing ∧ d.flt.unrecorded = c.flt.unrecorded + 1
  merges : ∀ r, c.standing.find? (c.sameRecord u k skind subject) = some r → r.count + 1 ≠ 0xFFFFFFFF →
    d.flt.openRecs = mapIf (c.sameRecord u k skind subject) (fun _ => { r with last := c.tb.time, count := r.count + 1, sat := false }) c.standing

/-- Closing what is due leaves the standing records open, and as many slots in use. -/
theorem Chip.kerfClose_records (c : Chip) : c.kerfClose.flt.openRecs = c.standing ∧ c.kerfClose.flt.used = c.flt.used ∧
    c.kerfClose.flt.unrecorded = c.flt.unrecorded := by
  have hp := perm_foldr_insertRec (c.flt.openRecs.filter fun r => decide (r.closeAt ≤ c.now))
  obtain ⟨h1, -, -, m, h4, h5, -⟩ := Faults.foldl_close_closes
    ((c.flt.openRecs.filter fun r => decide (r.closeAt ≤ c.now)).foldr insertRec []) { c.flt with openRecs := c.standing }
  refine ⟨h1, ?_, (Faults.foldl_close_kept ..).2⟩
  have hl : c.kerfClose.flt.used = c.standing.length + (c.flt.closedRecs ++ m).length :=
    congrArg₂ (fun a b : List Record => a.length + b.length) h1 h4
  rw [hl, List.length_append, h5, hp.length_eq]
  have h := List.length_eq_length_filter_add (l := c.flt.openRecs) fun r => decide (c.now < r.closeAt)
  have hq : (c.flt.openRecs.filter fun r => !decide (c.now < r.closeAt)) = c.flt.openRecs.filter fun r => decide (r.closeAt ≤ c.now) :=
    List.filter_congr fun r _ => by rw [← decide_not]; exact decide_eq_decide.mpr Nat.not_lt
  rw [hq] at h
  unfold Faults.used Chip.standing
  omega

theorem Chip.enterRecord_enters (c : Chip) (u k skind subject : Nat) (d0 d1 : Word) :
    c.Enters (c.enterRecord u k skind subject d0 d1) u k skind subject := by
  obtain ⟨h1, h2, h3⟩ := c.kerfClose_records
  refine ⟨fun hf hu => ?_, fun hf hu => ?_, fun r hf hr => ?_⟩ <;> unfold Chip.enterRecord <;> extract_lets c1 src same
  · have hs : c1.flt.openRecs.find? same = none := (congrArg (fun l => l.find? same) h1).trans hf
    rw [hs]
    dsimp only
    rw [if_neg (by rw [h2]; omega)]
    exact ⟨_, congrArg (· ++ _) h1, rfl, rfl, rfl, rfl, rfl, rfl, rfl, rfl⟩
  · have hs : c1.flt.openRecs.find? same = none := (congrArg (fun l => l.find? same) h1).trans hf
    rw [hs]
    dsimp only
    rw [if_pos (by rw [h2]; omega)]
    exact ⟨h1, congrArg (· + 1) h3⟩
  · have hs : c1.flt.openRecs.find? same = some r := (congrArg (fun l => l.find? same) h1).trans hf
    have hb : (r.count + 1 == 0xFFFFFFFF) = false := beq_eq_false_iff_ne.mpr hr
    rw [hs]
    dsimp only
    rw [hb, if_neg (by decide)]
    exact congrArg (mapIf same _) h1

/-! ### A reaction that reports -/

/-- A reaction below a block reset leaves the fault collector. -/
theorem Chip.react_light {c : Chip} {u k : Nat} (h : c.reactionOf u k ≤ 2) (skind subject : Nat) (d0 d1 : Word) (b : Bool) :
    (c.react u k skind subject d0 d1 b).watch = c.watch ∧ Chip.OnlyReports c (c.react u k skind subject d0 d1 b) := by
  unfold Chip.reactionOf at h
  unfold Chip.react
  dsimp only
  split
  case h_1 => split <;> simp [Chip.OnlyReports.refl, Chip.routeFault_reports]
  case h_2 =>
    split
    · exact ⟨rfl, .refl c⟩
    · exact ⟨by simp, c.urgentAll_reports.trans (Chip.eventPFs_reports ..)⟩
  case h_3 e => omega
  case h_4 e => omega
  case h_5 => exact ⟨rfl, .refl c⟩

section
variable {c : Chip} {u k : Nat} (hp : unitPresent c.variant u = true) (hi : isCause u k = true) (hs : c.unitStopped u = false)
  (hr : c.reactionOf u k ≤ 2)
include hp hi hs hr

/-- An occurrence of a light reaction: what its record and its row become, and what stays. -/
theorem Chip.occurrence_light (skind subject : Nat) (d0 : Word) :
    let d := c.occurrence u k skind subject d0 0
    d.src u k = (c.src u k).occurs ∧ c.Enters d u k skind subject ∧ d.flt.stalled = c.flt.stalled ∧ Chip.OnlyReports c d := by
  dsimp only
  rw [Chip.occurrence_counted hp hi hs]
  have hC := c.counted_counts u k skind subject d0
  obtain ⟨hw, ho⟩ := Chip.react_light (by rw [hC.reactionOf]; exact hr) skind subject d0 0 (c.src u k).pend
  have hf : ((c.counted u k skind subject d0).react u k skind subject d0 0 (c.src u k).pend).flt = (c.counted u k skind subject d0).flt :=
    (Prod.mk.inj hw).1
  have hrest := (c.setSrc u k (c.src u k).occurs).enterRecord_rest u k skind subject d0 0
  simp only [Faults.rest, Prod.mk.injEq] at hrest
  obtain ⟨-, -, -, -, -, h6⟩ := hrest
  refine ⟨?_, ?_, ?_, ((c.setSrc_reports ..).trans (Chip.enterRecord_reports ..)).trans ho⟩
  · exact (congrArg (fun f : Faults => Tab.get f.sources (srcKey u k) Source.init) hf).trans
      ((congrArg (fun t => Tab.get t (srcKey u k) Source.init) h6).trans (Chip.src_setSrc_self ..))
  · obtain ⟨e1, e2, e3⟩ := (c.setSrc u k (c.src u k).occurs).enterRecord_enters u k skind subject d0 0
    refine ⟨fun a b => ?_, fun a b => ?_, fun r a b => ?_⟩ <;> rw [hf]
    · exact e1 a b
    · exact e2 a b
    · exact e3 r a b
  · rw [hf]
    exact Chip.enterRecord_stalled ..

end

theorem Source.occurs_occur (x : Source) : x.occurs.occur = if x.occur < 0xFFFFFFFF then x.occur + 1 else x.occur := rfl

/-! ### The obligation -/

section
variable {s : State} {u k : Nat} (ht : s.chip.ticking = true) (hp : unitPresent s.chip.variant u = true)
  (hi : isCause u k = true) (hs : s.chip.unitStopped u = false) (hr : s.chip.reactionOf u k ≤ 2)
include ht hp hi hs hr

/-- A reported occurrence of a light reaction. -/
theorem reported_states {skind subject : Nat} (hk : skind < 13) (hn : (sourceInfo u k).cond = true → (s.chip.src u k).now = false) :
    let d := s.chip.reportFault u k skind subject
    let e := s.chip.reported u k skind subject
    d.src u k = e.src u k ∧ (u < 0x40 ∨ 0x5E ≤ u → d = e) ∧
    (e.src u k).pend = true ∧ (e.src u k).occur = (s.chip.src u k).occurs.occur ∧
    (e.src u k).now = ((s.chip.src u k).now || (sourceInfo u k).cond) ∧
    s.chip.Enters e u k (if namedCause u k then skind else 11) (if namedCause u k then subject else u) ∧
    e.dict = s.chip.dict ∧ e.mem = s.chip.mem ∧ e.tb = s.chip.tb := by
  dsimp only
  have he := Chip.reportFault_eq (c := s.chip) (subject := subject) hp hi ht hk hn
  have hC := s.chip.present_counts u k
  obtain ⟨h1, h2, -, h4⟩ := Chip.occurrence_light (c := s.chip.present u k) (hC.variant.symm ▸ hp) hi (by rw [hC.unitStopped]; exact hs)
    (by rw [hC.reactionOf]; exact hr) (if namedCause u k then skind else 11) (if namedCause u k then subject else u)
    (s.chip.reportDetail k)
  have hx : ((s.chip.present u k).src u k).occurs.occur = (s.chip.src u k).occurs.occur ∧
      ((s.chip.present u k).src u k).now = ((s.chip.src u k).now || (sourceInfo u k).cond) := by
    unfold Chip.present
    split
    · next hc => rw [Chip.src_setSrc_self, hc, Bool.or_true]; exact ⟨rfl, rfl⟩
    · next hc => rw [Bool.not_eq_true] at hc; rw [hc, Bool.or_false]; exact ⟨rfl, rfl⟩
  refine ⟨?_, fun hu => ?_, ?_, ?_, ?_, ?_, ?_, ?_, ?_⟩
  · rw [he]
    split
    · exact Chip.stallPorts_src _ hi
    · rfl
  · rw [he]
    split
    · exact Chip.stallPorts_other hu
    · rfl
  · exact (congrArg Source.pend h1).trans rfl
  · exact (congrArg Source.occur h1).trans hx.1
  · exact (congrArg Source.now h1).trans hx.2
  · have hst : (s.chip.present u k).standing = s.chip.standing ∧ (s.chip.present u k).flt.used = s.chip.flt.used ∧
        (s.chip.present u k).flt.unrecorded = s.chip.flt.unrecorded := by
      unfold Chip.present
      split <;> exact ⟨rfl, rfl, rfl⟩
    have hsm : (s.chip.present u k).sameRecord = s.chip.sameRecord := by
      funext u k a b r
      unfold Chip.sameRecord Chip.source Chip.id
      rw [hC.param]
    have hso : (s.chip.present u k).source u = s.chip.source u := by
      unfold Chip.source Chip.id
      rw [hC.param]
    obtain ⟨o1, o2, o3⟩ := h2
    rw [hst.1, hsm] at o1 o2 o3
    rw [hst.2.1] at o1 o2
    rw [hso, hC.tb, hC.now, hC.param] at o1
    rw [hst.2.2] at o2
    rw [hC.tb] at o3
    exact ⟨o1, o2, o3⟩
  · exact h4.dict.trans hC.dict
  · refine h4.mem.trans ?_
    unfold Chip.present
    split <;> rfl
  · exact h4.tb.trans hC.tb

/-- A stalled handshake of a light reaction. -/
theorem stalled_states (hk : k = 4) :
    let d := s.chip.stall u
    (d.src u k).pend = true ∧ (d.src u k).occur = (s.chip.src u k).occurs.occur ∧ u ∈ d.flt.stalled ∧
    (u < 0x40 ∨ 0x5E ≤ u → s.chip.Enters d u k 11 u ∧ d.dict = s.chip.dict ∧ d.mem = s.chip.mem) := by
  subst hk
  dsimp only
  let c0 : Chip := { s.chip with flt := { s.chip.flt with stalled := insertNat u s.chip.flt.stalled } }
  obtain ⟨h1, h2, h3, h4⟩ := Chip.occurrence_light (c := c0) hp hi hs hr 11 u 0
  have he : s.chip.stall u = (c0.occurrence u 4 11 u 0 0).stallPorts u := if_pos ht
  rw [he, Chip.stallPorts_src _ hi, h1]
  refine ⟨rfl, rfl, ?_, fun hu => ?_⟩
  · rw [(Chip.stallPorts_spares ..).stalled, h3]
    exact mem_insertNat.mpr (.inl rfl)
  · rw [Chip.stallPorts_other hu]
    exact ⟨⟨h2.opens, h2.full, h2.merges⟩, h4.dict, h4.mem⟩

end

/-- Settles O11: below a block reset an occurrence changes its own row and the records, and then only reports; a lane macro's ports
discard and reroute what waits, which raises sources of the router core alone. -/
theorem occurrencesAreCountedAndRecorded : Obligations.OccurrencesAreCountedAndRecorded := by
  intro s u k ht hp hi hs hr
  refine ⟨fun skind subject hk hc hn => ?_, fun hk hc => ?_⟩
  · obtain ⟨h1, h2, h3, h4, h5, h6, h7, h8, h9⟩ := reported_states (subject := subject) ht hp hi hs hr hk hn
    refine Completes.of_runAny (exec_faultOccurrence u k skind subject s) hc ?_
    exact ⟨⟨(congrArg Source.pend h1).trans h3, (congrArg Source.occur h1).trans h4⟩, (congrArg Source.now h1).trans h5,
      fun hu => by rw [h2 hu]; exact ⟨⟨h6.opens, h6.full, h6.merges⟩, h7, h8, h9⟩⟩
  · obtain ⟨h1, h2, h3, h4⟩ := stalled_states ht hp hi hs hr hk
    refine Completes.of_runAny (exec_handshakeStall u s) hc ⟨⟨h1, h2⟩, h3, fun hu => ?_⟩
    obtain ⟨h5, h6, h7⟩ := h4 hu
    exact ⟨⟨h5.opens, h5.full, h5.merges⟩, h6, h7⟩

end Sys2Proof.Machine
end


section
/-! What the channels leave of the rest of the chip while they run: fabric memory, links and the router core's queues. -/

set_option Elab.async false

namespace Sys2Proof.Machine

/-- The parts of the chip that running channels leave as they are. -/
structure Plant where
  mem : Mem
  br : Bridge
  co : Collective
  links : Tab Link
  train : Tab Port
  lanes : Tab Lane
  tb : Timebase
  dict : Dict
  waiting : List Waiting
  tc1Tokens : Tab Int
  shapers : Tab Int
  gates : Tab Gate
  hints : Tab Hint
  hintSeq : Tab Nat
  bcasts : Tab BcastRec
  fenced : List Nat

/-- The parts of a chip that running channels leave as they are. -/
def Chip.plant (c : Chip) : Plant :=
  ⟨c.mem, c.br, c.co, c.links, c.train, c.lanes, c.tb, c.dict, c.rt.waiting, c.rt.tc1Tokens, c.rt.shapers, c.rt.gates, c.rt.hints, c.rt.hintSeq,
    c.rt.bcasts, c.rt.fenced⟩

@[simp] theorem Chip.plant_mk (v : Variant) (s : Word) {boot flash fw dict ports funcs fifos queues tr mt tg co mem br rt links train lanes tb pace ctr flt free out} :
    (Chip.mk v s boot flash fw dict ports funcs fifos queues tr mt tg co mem br rt links train lanes tb pace ctr flt free out).plant =
      ⟨mem, br, co, links, train, lanes, tb, dict, rt.waiting, rt.tc1Tokens, rt.shapers, rt.gates, rt.hints, rt.hintSeq, rt.bcasts, rt.fenced⟩ := rfl

@[simp] theorem Chip.plant_eta (c : Chip) : Plant.mk c.mem c.br c.co c.links c.train c.lanes c.tb c.dict c.rt.waiting c.rt.tc1Tokens c.rt.shapers
    c.rt.gates c.rt.hints c.rt.hintSeq c.rt.bcasts c.rt.fenced = c.plant := rfl

@[simp] theorem foldl_plant {α : Type} {g : Chip → α → Chip} (hg : ∀ c a, (g c a).plant = c.plant) (l : List α) (c : Chip) :
    (l.foldl g c).plant = c.plant := by
  induction l generalizing c with
  | nil => rfl
  | cons a l ih => rw [List.foldl_cons, ih, hg]

@[simp] theorem Chip.updFn_plant (c : Chip) (i : Nat) (f : Func → Func) : (c.updFn i f).plant = c.plant := by simp [Chip.updFn]
@[simp] theorem Chip.putQueue_plant (c : Chip) (h qn : Nat) (q : Queue) : (c.putQueue h qn q).plant = c.plant := by simp [Chip.putQueue]
@[simp] theorem Chip.updQueue_plant (c : Chip) (h qn : Nat) (f : Queue → Queue) : (c.updQueue h qn f).plant = c.plant := by
  simp [Chip.updQueue]
@[simp] theorem Chip.emit_plant (c : Chip) (o : Output) : (c.emit o).plant = c.plant := by unfold Chip.emit; split <;> simp
@[simp] theorem Chip.drawn_plant (c : Chip) : (c.drawn).plant = c.plant := by simp [Chip.drawn]
@[simp] theorem Chip.bumpFn_plant (c : Chip) (kind fn : Nat) (n : Nat) : (c.bumpFn kind fn n).plant = c.plant := by simp [Chip.bumpFn]
@[simp] theorem Chip.sendMsix_plant (c : Chip) (fn v : Nat) : (c.sendMsix fn v).plant = c.plant := by simp [Chip.sendMsix]
@[simp] theorem Chip.signal_plant (c : Chip) (fn v : Nat) : (c.signal fn v).plant = c.plant := by simp [Chip.signal, apply_ite Chip.plant]
@[simp] theorem Chip.urgent_plant (c : Chip) (fn : Nat) : (c.urgent fn).plant = c.plant := by simp [Chip.urgent, apply_ite Chip.plant]
@[simp] theorem Chip.eventLost_plant (c : Chip) (fn : Nat) : (c.eventLost fn).plant = c.plant := by simp [Chip.eventLost]
@[simp] theorem Chip.setQState_plant (c : Chip) (h qn : Nat) (s : QState) (cause : Nat) : (c.setQState h qn s cause).plant = c.plant := by
  unfold Chip.setQState; split <;> simp
@[simp] theorem Chip.eqError_plant (c : Chip) (h eqn cause : Nat) : (c.eqError h eqn cause).plant = c.plant := by simp [Chip.eqError]
@[simp] theorem Chip.writeEvent_plant (c : Chip) (h eqn : Nat) (q : Queue) (words : List Word) :
    (c.writeEvent h eqn q words).plant = c.plant := by unfold Chip.writeEvent; split <;> simp
@[simp] theorem Chip.postEvent_plant (c : Chip) (fn code unit qn detail : Nat) : (c.postEvent fn code unit qn detail).plant = c.plant := by
  unfold Chip.postEvent
  repeat' first | (simp; done) | (dsimp only; split) | split
@[simp] theorem Chip.eventPFs_plant (c : Chip) (code unit qn detail : Nat) : (c.eventPFs code unit qn detail).plant = c.plant := by
  simp [Chip.eventPFs]
@[simp] theorem Chip.setSrc_plant (c : Chip) (unit cause : Nat) (s : Source) : (c.setSrc unit cause s).plant = c.plant := by
  simp [Chip.setSrc]
@[simp] theorem Chip.kerfClose_plant (c : Chip) : (c.kerfClose).plant = c.plant := by simp [Chip.kerfClose]
@[simp] theorem Chip.enterRecord_plant (c : Chip) (unit cause skind subject : Nat) (d0 d1 : Word) : (c.enterRecord unit cause skind subject d0 d1).plant = c.plant := by
  unfold Chip.enterRecord
  repeat' first | (simp; done) | (dsimp only; split) | split
@[simp] theorem Chip.setHeld_plant (c : Chip) (unit : Nat) (on : Bool) : (c.setHeld unit on).plant = c.plant := by simp [Chip.setHeld]
@[simp] theorem Chip.routeFault_plant (c : Chip) : (c.routeFault).plant = c.plant := by simp [Chip.routeFault, apply_ite Chip.plant]
@[simp] theorem Chip.urgentAll_plant (c : Chip) : (c.urgentAll).plant = c.plant := by simp [Chip.urgentAll, apply_ite Chip.plant]
@[simp] theorem Chip.unitHeldOccurs_plant (c : Chip) (unit : Nat) : (c.unitHeldOccurs unit).plant = c.plant := by
  simp [Chip.unitHeldOccurs, apply_ite Chip.plant]
@[simp] theorem Chip.reaction3_plant (c : Chip) (unit cause : Nat) (pended : Bool) : (c.reaction3 unit cause pended).plant = c.plant := by
  simp [Chip.reaction3, apply_ite Chip.plant]
@[simp] theorem Chip.reaction4_plant (c : Chip) (unit cause skind subject : Nat) (d0 d1 : Word) : (c.reaction4 unit cause skind subject d0 d1).plant = c.plant := by
  unfold Chip.reaction4
  repeat' first | (simp; done) | (dsimp only; split)
@[simp] theorem Chip.react_plant (c : Chip) (unit cause skind subject : Nat) (d0 d1 : Word) (pended : Bool) : (c.react unit cause skind subject d0 d1 pended).plant = c.plant := by
  unfold Chip.react
  repeat' first | (simp; done) | (dsimp only; split) | split
@[simp] theorem Chip.occurrence_plant (c : Chip) (unit cause skind subject : Nat) (d0 d1 : Word) :
    (c.occurrence unit cause skind subject d0 d1).plant = c.plant := by unfold Chip.occurrence; split <;> simp
@[simp] theorem Chip.raise_plant (c : Chip) (unit cause skind subject : Nat) (d0 : Word) (d1 : Word) :
    (c.raise unit cause skind subject d0 d1).plant = c.plant := by simp [Chip.raise]
@[simp] theorem Chip.arrive_plant (c : Chip) (inp : Nat) (p : Packet) (pool : Bool) : (c.arrive inp p pool).plant = c.plant := by
  simp [Chip.arrive]
@[simp] theorem Chip.inject_plant (c : Chip) (h : Nat) (p : Packet) : (c.inject h p).plant = c.plant := by simp [Chip.inject]
@[simp] theorem Chip.openHeld_plant (c : Chip) (e : HeldEnt) : (c.openHeld e).plant = c.plant := by unfold Chip.openHeld; split <;> simp
@[simp] theorem Chip.trigRelease_plant (c : Chip) (n : Nat) : (c.trigRelease n).plant = c.plant := by
  unfold Chip.trigRelease; split <;> simp
@[simp] theorem Chip.trigAdd_plant (c : Chip) (n k : Nat) : (c.trigAdd n k).plant = c.plant := by
  unfold Chip.trigAdd
  repeat' first | (simp; done) | (dsimp only; split) | split
@[simp] theorem Chip.advance_plant (c : Chip) (d : Decided) (k : Nat) : (c.advance d k).plant = c.plant := by simp [Chip.advance]
@[simp] theorem Chip.writeCqe_plant (c : Chip) (h cqn : Nat) (q : Queue) (p : Completion) : (c.writeCqe h cqn q p).plant = c.plant := by
  simp [Chip.writeCqe, apply_ite Chip.plant]
@[simp] theorem Chip.loseCompletions_plant (c : Chip) (h cqn : Nat) (d : Decided) (k : Nat) :
    (c.loseCompletions h cqn d k).plant = c.plant := by unfold Chip.loseCompletions; split <;> simp
@[simp] theorem Chip.dropPosted_plant (c : Chip) (h qn : Nat) : (c.dropPosted h qn).plant = c.plant := by simp [Chip.dropPosted]
@[simp] theorem Chip.discardHeld_plant (c : Chip) (p : HeldEnt → Bool) : (c.discardHeld p).plant = c.plant := by simp [Chip.discardHeld]
@[simp] theorem Chip.cqErrorBound_plant (c : Chip) (h cqn qn : Nat) (q : Queue) : (c.cqErrorBound h cqn qn q).plant = c.plant := by
  simp [Chip.cqErrorBound, apply_ite Chip.plant]
@[simp] theorem Chip.cqError_plant (c : Chip) (h cqn cause : Nat) : (c.cqError h cqn cause).plant = c.plant := by
  unfold Chip.cqError; (repeat' split) <;> simp
@[simp] theorem Chip.loseOne_plant (c : Chip) (h cqn fn : Nat) : (c.loseOne h cqn fn).plant = c.plant := by simp [Chip.loseOne]
@[simp] theorem Chip.takeBacklog_plant (c : Chip) (h cqn : Nat) (q : Queue) (d : Decided) (p : Completion) :
    (c.takeBacklog h cqn q d p).plant = c.plant := by unfold Chip.takeBacklog; split <;> simp
@[simp] theorem Chip.deliver_plant (c : Chip) (h cqn : Nat) (d : Decided) (p : Completion) : (c.deliver h cqn d p).plant = c.plant := by
  unfold Chip.deliver
  repeat' first | (simp; done) | (dsimp only; split) | split
@[simp] theorem Chip.complete_plant (c : Chip) (d : Decided) (p : Completion) : (c.complete d p).plant = c.plant := by
  unfold Chip.complete; split <;> simp
@[simp] theorem Chip.flushOne_plant (c : Chip) (h qn : Nat) (q : Queue) (p : Completion) : (c.flushOne h qn q p).plant = c.plant := by
  simp [Chip.flushOne]
@[simp] theorem Chip.flushEntries_plant (c : Chip) (h qn : Nat) (read : List Entry) (z0 : Nat) : (c.flushEntries h qn read z0).plant = c.plant := by
  induction z0 generalizing c h qn read with
  | zero => rfl
  | succ n ih =>
    unfold Chip.flushEntries
    (repeat' split) <;> simp [ih]
@[simp] theorem Chip.flushQueue_plant (c : Chip) (h qn : Nat) : (c.flushQueue h qn).plant = c.plant := by simp [Chip.flushQueue]
@[simp] theorem Chip.flushHeld_plant (c : Chip) (h fn qn : Nat) (cqn : Nat) : (c.flushHeld h fn qn cqn).plant = c.plant := by
  simp [Chip.flushHeld]
@[simp] theorem Chip.flushReceives_plant (c : Chip) (h qn : Nat) : (c.flushReceives h qn).plant = c.plant := by
  unfold Chip.flushReceives; split <;> simp
@[simp] theorem Chip.queueError_plant (c : Chip) (h qn cause status : Nat) : (c.queueError h qn cause status).plant = c.plant := by
  unfold Chip.queueError
  repeat' first | (simp; done) | (dsimp only; split) | split
@[simp] theorem Chip.drainFailed_plant (c : Chip) (h qn : Nat) (z0 : Nat) : (c.drainFailed h qn z0).plant = c.plant := by
  induction z0 generalizing c h qn with
  | zero => rfl
  | succ n ih =>
    unfold Chip.drainFailed
    (repeat' split) <;> simp [ih]
@[simp] theorem Chip.closePos_plant (c : Chip) (h qn pos : Nat) : (c.closePos h qn pos).plant = c.plant := by simp [Chip.closePos]
@[simp] theorem Chip.putChan_plant (c : Chip) (k : Nat) (x : Chan) : (c.putChan k x).plant = c.plant := by simp [Chip.putChan]
@[simp] theorem Chip.updChan_plant (c : Chip) (k : Nat) (f : Chan → Chan) : (c.updChan k f).plant = c.plant := by simp [Chip.updChan]
@[simp] theorem Chip.policerDebit_plant (c : Chip) (fn cells : Nat) : (c.policerDebit fn cells).plant = c.plant := by
  unfold Chip.policerDebit; split <;> simp
@[simp] theorem Chip.countInjected_plant (c : Chip) (fn : Option Nat) (p : Packet) : (c.countInjected fn p).plant = c.plant := by
  unfold Chip.countInjected
  split <;> simp
@[simp] theorem Chip.sendRequest_plant (c : Chip) (k : Nat) (fn : Option Nat) (p : Packet) : (c.sendRequest k fn p).plant = c.plant := by
  unfold Chip.sendRequest
  split <;> simp
@[simp] theorem Chip.transmit_plant (c : Chip) (k : Nat) (fn : Option Nat) (p : Packet) : (c.transmit k fn p).plant = c.plant := by
  unfold Chip.transmit
  simp
@[simp] theorem Chip.pump_plant (c : Chip) (k : Nat) (z0 : Nat) : (c.pump k z0).plant = c.plant := by
  induction z0 generalizing c k with
  | zero => rfl
  | succ n ih =>
    unfold Chip.pump
    repeat' first | (simp [ih]; done) | (dsimp only; split) | split
@[simp] theorem Chip.sendSync_plant (c : Chip) (k : Nat) : (c.sendSync k).plant = c.plant := by
  unfold Chip.sendSync; (repeat' split) <;> simp
@[simp] theorem Chip.dropOffer_plant (c : Chip) (index : Nat) : (c.dropOffer index).plant = c.plant := by simp [Chip.dropOffer]
@[simp] theorem Chip.endOffer_plant (c : Chip) (index status length : Nat) : (c.endOffer index status length).plant = c.plant := by
  unfold Chip.endOffer; (repeat' split) <;> simp
@[simp] theorem Chip.finishOp_plant (c : Chip) (k : Nat) (o : SendOp) (status : Nat) : (c.finishOp k o status).plant = c.plant := by
  unfold Chip.finishOp; (repeat' split) <;> simp
@[simp] theorem Chip.deliverOps_plant (c : Chip) (k : Nat) (z0 : Nat) : (c.deliverOps k z0).plant = c.plant := by
  induction z0 generalizing c k with
  | zero => rfl
  | succ n ih =>
    unfold Chip.deliverOps
    (repeat' split) <;> simp [ih]
@[simp] theorem Chip.deliverChan_plant (c : Chip) (k : Nat) : (c.deliverChan k).plant = c.plant := by simp [Chip.deliverChan]
@[simp] theorem Chip.failUnsent_plant (c : Chip) (k status : Nat) (o : SendOp) : (c.failUnsent k status o).plant = c.plant := by
  unfold Chip.failUnsent; (repeat' split) <;> simp
@[simp] theorem Chip.failWaiting_plant (c : Chip) (k status : Nat) : (c.failWaiting k status).plant = c.plant := by
  unfold Chip.failWaiting; split <;> simp
@[simp] theorem Chip.noRoute_plant (c : Chip) (k : Nat) (sending : SendOp → Bool) : (c.noRoute k sending).plant = c.plant := by
  simp [Chip.noRoute]
@[simp] theorem Chip.runChan_plant (c : Chip) (k : Nat) : (c.runChan k).plant = c.plant := by
  unfold Chip.runChan; (repeat' split) <;> simp
@[simp] theorem Chip.putSched_plant (c : Chip) (out : Nat) (s : OutSched) : (c.putSched out s).plant = c.plant := by
  simp [Chip.putSched]
@[simp] theorem Chip.refreshOut_plant (c : Chip) (out : Nat) : (c.refreshOut out).plant = c.plant := by
  simp [Chip.refreshOut, apply_ite Chip.plant]
@[simp] theorem Chip.refreshAll_plant (c : Chip)  : (c.refreshAll).plant = c.plant := by
  unfold Chip.refreshAll
  simp


end Sys2Proof.Machine
end


section
/-! Hints, token buckets and gates (R324, R325, R351, R356, R357, R360, R364). -/

set_option Elab.async false

namespace Sys2Proof.Machine

/-! ### Hints -/

theorem Chip.hintSend_idle {c : Chip} {p : Nat} (h : (c.portActive p && c.role p == 1) = false) : c.hintSend p = c := by
  unfold Chip.hintSend
  refine if_pos ?_
  cases ha : c.portActive p
  · rfl
  · rw [ha, Bool.true_and] at h
    simp [bne, h]

/-- The chip with the next HSEQ counted. -/
def Chip.hintCounted (c : Chip) (p : Nat) : Chip :=
  { c with rt := { c.rt with hintSeq := Tab.put c.rt.hintSeq p ((Tab.get c.rt.hintSeq p 0 + 1) % 256) } }

theorem Chip.hintSend_eq {c : Chip} {p : Nat} (h : (c.portActive p && c.role p == 1) = true) :
    c.hintSend p = (c.hintCounted p).queueItem p 1 (c.hintItem (Tab.get c.rt.hintSeq p 0)) := by
  obtain ⟨h1, h2⟩ := (Bool.and_eq_true _ _).mp h
  unfold Chip.hintSend
  rw [if_neg (by rw [h1]; simp [bne, h2])]
  rfl

/-- A hint is kept. -/
def Chip.hintKept (c : Chip) (p : Nat) (x : Hint) : Chip := { c with rt := { c.rt with hints := Tab.put c.rt.hints p x } }

/-- The hint that an item brings. -/
def Chip.hintOf (c : Chip) (item : List Byte) : Hint :=
  { levels := hintLevels item, hseq := ((item[1]?).getD 0).toNat, seenAt := c.now, staleCounted := false }

/-- A hint of the port's peer that is fresh is kept; another is discarded and counted (R325). -/
theorem Chip.hintReceive_eq (c : Chip) (p : Nat) (item : List Byte) :
    c.hintReceive p item =
      if (c.portActive p && c.role p == 1 && bits (c.tport p).learnt 6 5 == (item.headD 0).toNat % 32 &&
          (Tab.get? c.rt.hints p).all fun h => h.hseq != ((item[1]?).getD 0).toNat) = true
      then c.hintKept p (c.hintOf item)
      else c.bump p .hintDiscard := by
  unfold Chip.hintReceive
  dsimp only
  cases Tab.get? c.rt.hints p <;> rfl

theorem Chip.hintStale_idle {c : Chip} {p : Nat}
    (h : (Tab.get? c.rt.hints p).all (fun h => h.staleCounted || decide (c.now ≤ h.seenAt + 4000)) = true) : c.hintStale p = c := by
  unfold Chip.hintStale
  split
  · next x hx =>
    rw [hx, Option.all_some, Bool.or_eq_true, decide_eq_true_eq] at h
    refine if_neg ?_
    rw [Bool.and_eq_true, decide_eq_true_eq, Bool.not_eq_true']
    rintro ⟨h1, h2⟩
    obtain h | h := h
    · rw [h] at h2; contradiction
    · omega
  · rfl

theorem Chip.hintStale_due {c : Chip} {p : Nat} {x : Hint} (hx : Tab.get? c.rt.hints p = some x) (hl : x.seenAt + 4000 < c.now)
    (hs : x.staleCounted = false) :
    c.hintStale p = (c.hintKept p { x with staleCounted := true }).bump p .staleHint := by
  unfold Chip.hintStale
  rw [hx]
  exact if_pos (by rw [hs]; simp [hl])

/-! ### Gates -/

theorem Chip.setGate_table (c : Chip) (p : Nat) (g : Gate) :
    (c.setGate p g).gate p = g ∧ (c.setGate p g).rt.waiting = c.rt.waiting ∧ (c.setGate p g).mem = c.mem ∧ (c.setGate p g).calm = c.calm := by
  have h := c.countOverruns_reports p g
  unfold Chip.setGate
  generalize c.countOverruns p g = d at h
  refine ⟨?_, ?_, ?_, ?_⟩
  · show Tab.get (Chip.refreshOut _ p).rt.gates p Gate.init = g
    rw [show (Chip.refreshOut { d with rt := { d.rt with gates := Tab.put d.rt.gates p g } } p).rt.gates = Tab.put d.rt.gates p g from
      congrArg Router.gates (Chip.refreshOut_queues _ p).rt]
    exact Tab.get_put_self ..
  · rw [Chip.refreshOut_waiting]; exact (congrArg Router.waiting h.rt :)
  · exact (Chip.refreshOut_queues _ p).mem.trans h.mem
  · rw [Chip.refreshOut_calm]; exact h.calm

/-! ### Token buckets -/

/-- The buckets of the TC1 caps, the shapers and the policers changed, row by row. -/
def Chip.filled (c : Chip) (f g h : Nat → Int → Int) : Chip :=
  { c with rt := { c.rt with
      tc1Tokens := Tab.mapVals c.rt.tc1Tokens f
      shapers := Tab.mapVals c.rt.shapers g
      policers := Tab.mapVals c.rt.policers h } }

/-- The channels that a chip has go on once every list of an output is up to date. -/
def Chip.goOn (c : Chip) : Chip := c.refreshAll.tr.chans.foldl (fun c r => c.runChan r.1) c.refreshAll

/-- The TC1 cap of a port after some ticks (R351). -/
def Chip.capFilled (c : Chip) (ticks k : Nat) (x : Int) : Int :=
  fill x (ticks * (c.rateOf k * 10 * c.param 0x1A 0x002 k) : Nat) (264 * cellTokens : Nat)

/-- A shaper, or a policer, after some ticks (R356): its rate and its depth stand in a pair of parameters. -/
def Chip.rateFilled (c : Chip) (rate depth ticks k : Nat) (x : Int) : Int :=
  fill x (ticks * c.param 0x1A rate k : Nat) (c.param 0x1A depth k * cellTokens : Nat)

theorem Chip.tokenTick_eq (c : Chip) (ticks : Nat) :
    c.tokenTick ticks = (c.filled (c.capFilled ticks) (c.rateFilled 0x010 0x011 ticks) (c.rateFilled 0x020 0x021 ticks)).goOn := by
  unfold Chip.tokenTick Chip.filled Chip.goOn Tab.mapVals Chip.capFilled Chip.rateFilled
  rfl

theorem Chip.refreshAll_queues (c : Chip) : c.Queues c.refreshAll := by
  have : ∀ (l : List Nat) (c : Chip), c.Queues (l.foldl Chip.refreshOut c) := by
    intro l
    induction l with
    | nil => exact .refl
    | cons a l ih => exact fun c => (c.refreshOut_queues a).trans (ih _)
  exact this _ c

theorem Chip.goOn_plant (c : Chip) : c.goOn.plant = c.plant := by
  unfold Chip.goOn
  rw [foldl_plant fun _ _ => Chip.runChan_plant .., Chip.refreshAll_plant]

/-- Without channels the policers stay as well. -/
theorem Chip.goOn_policers {c : Chip} (h : c.tr.chans = []) : c.goOn.rt.policers = c.rt.policers := by
  have hq := c.refreshAll_queues
  unfold Chip.goOn
  generalize c.refreshAll = d at hq ⊢
  rw [show d.tr.chans = [] from (congrArg Transport.chans hq.tr).trans h]
  exact (congrArg Router.policers hq.rt :)

/-- What the buckets hold when they have been filled and the channels have gone on. -/
theorem Chip.filled_goOn (c : Chip) (f g h : Nat → Int → Int) (k : Nat) :
    let d := (c.filled f g h).goOn
    d.mem = c.mem ∧ Tab.get? d.rt.tc1Tokens k = (Tab.get? c.rt.tc1Tokens k).map (f k) ∧
      Tab.get? d.rt.shapers k = (Tab.get? c.rt.shapers k).map (g k) ∧
      (c.tr.chans = [] → Tab.get? d.rt.policers k = (Tab.get? c.rt.policers k).map (h k)) := by
  have hp := (c.filled f g h).goOn_plant
  have hq := (c.filled f g h).goOn_policers
  generalize (c.filled f g h).goOn = d at hp hq ⊢
  refine ⟨(congrArg Plant.mem hp :), ?_, ?_, fun hc => ?_⟩
  · exact (congrArg (fun p : Plant => Tab.get? p.tc1Tokens k) hp).trans (Tab.get?_mapVals ..)
  · exact (congrArg (fun p : Plant => Tab.get? p.shapers k) hp).trans (Tab.get?_mapVals ..)
  · exact (congrArg (fun t => Tab.get? t k) (hq hc)).trans (Tab.get?_mapVals ..)

theorem tokenTick_states {s : State} {ticks : Nat} (hs : s.leaves fun c => c.tokenTick ticks) (port : Nat) :
    Completes (.tokenTick ticks) s fun c => c.mem = s.chip.mem ∧
      (∀ x, Tab.get? s.chip.rt.tc1Tokens port = some x → Tab.get? c.rt.tc1Tokens port = some (s.chip.capFilled ticks port x)) ∧
      (∀ x, Tab.get? s.chip.rt.shapers port = some x → Tab.get? c.rt.shapers port = some (s.chip.rateFilled 0x010 0x011 ticks port x)) ∧
      (s.chip.tr.chans = [] → ∀ x, Tab.get? s.chip.rt.policers port = some x → Tab.get? c.rt.policers port =
        some (s.chip.rateFilled 0x020 0x021 ticks port x)) := by
  obtain ⟨h1, h2, h3, h4⟩ := s.chip.filled_goOn (s.chip.capFilled ticks) (s.chip.rateFilled 0x010 0x011 ticks)
    (s.chip.rateFilled 0x020 0x021 ticks) port
  rw [← Chip.tokenTick_eq] at h1 h2 h3 h4
  exact Completes.of_run (exec_tokenTick ticks s) hs.1 hs.2 ⟨h1, fun x hx => by rw [h2, hx]; rfl, fun x hx => by rw [h3, hx]; rfl,
    fun hc x hx => by rw [h4 hc, hx]; rfl⟩

/-! ### The obligation -/

section
variable {s : State} (hs : s.serving) (port : Nat)
include hs

theorem hintSend_states (h : (s.chip.portActive port && s.chip.role port == 1) = true) :
    Completes (.splineHintSend port) s fun c =>
      Tab.get c.rt.hintSeq port 0 = (Tab.get s.chip.rt.hintSeq port 0 + 1) % 256 ∧ c.rt.waiting = s.chip.rt.waiting ∧ c.mem = s.chip.mem ∧
      (c.link port).tx.items = (s.chip.link port).tx.items ++ [(1, s.chip.hintItem (Tab.get s.chip.rt.hintSeq port 0))] := by
  have he := Chip.hintSend_eq h
  have hc : (s.chip.hintCounted port).calm = true := hs.2
  refine Completes.of_run (exec_splineHintSend port s) hs.1 (by rw [he]; exact Chip.updTx_calm hc port fun _ => rfl) ?_
  rw [he]
  exact ⟨Tab.get_put_self .., rfl, rfl, congrArg (fun l : Link => l.tx.items) (Chip.link_updTx ..)⟩

theorem hintReceive_states (item : List Byte) :
    let taken := s.chip.portActive port && s.chip.role port == 1 && bits (s.chip.tport port).learnt 6 5 == (item.headD 0).toNat % 32 &&
      (Tab.get? s.chip.rt.hints port).all fun h => h.hseq != ((item[1]?).getD 0).toNat
    (taken = true → Completes (.splineHintReceive port item) s fun c => c.rt.waiting = s.chip.rt.waiting ∧ c.mem = s.chip.mem ∧
      Tab.get? c.rt.hints port =
        some { levels := hintLevels item, hseq := ((item[1]?).getD 0).toNat, seenAt := s.chip.now, staleCounted := false }) ∧
    (taken = false → Completes (.splineHintReceive port item) s fun c => c = s.chip.bump port .hintDiscard) := by
  have he := s.chip.hintReceive_eq port item
  refine ⟨fun h => ?_, fun h => ?_⟩
  · rw [if_pos h] at he
    refine Completes.of_run (exec_splineHintReceive port item s) hs.1 (by rw [he]; exact hs.2) ?_
    rw [he]
    exact ⟨rfl, rfl, Tab.get?_put_self ..⟩
  · rw [if_neg (by rw [h]; decide)] at he
    exact Completes.of_run (exec_splineHintReceive port item s) hs.1 (by rw [he, Chip.bump_calm]; exact hs.2) he

theorem hintStale_states {x : Hint} (hx : Tab.get? s.chip.rt.hints port = some x) (hl : x.seenAt + 4000 < s.chip.now)
    (hf : x.staleCounted = false) : Completes (.hintStale port) s fun c =>
      Tab.get? c.rt.hints port = some { x with staleCounted := true } ∧ c.ctr = (s.chip.bump port .staleHint).ctr ∧ c.mem = s.chip.mem := by
  have he := Chip.hintStale_due hx hl hf
  refine Completes.of_run (exec_hintStale port s) hs.1 (by rw [he, Chip.bump_calm]; exact hs.2) ?_
  rw [he]
  exact ⟨Tab.get?_put_self .., rfl, rfl⟩

/-- A gate moves to another entry or schedule. -/
theorem gate_moves {g : Gate} (he : s.chip.gateEntryChange port = s.chip.setGate port g) :
    Completes (.gateEntryChange port) s fun c => c.gate port = g ∧ c.rt.waiting = s.chip.rt.waiting ∧ c.mem = s.chip.mem := by
  obtain ⟨h1, h2, h3, h4⟩ := s.chip.setGate_table port g
  refine Completes.of_run (exec_gateEntryChange port s) hs.1 (by rw [he, h4]; exact hs.2) ?_
  rw [he]
  exact ⟨h1, h2, h3⟩

end

/-- Settles O50: running channels leave every bucket that a tick fills but the policers. -/
theorem hintsTokensAndGatesMove : Obligations.HintsTokensAndGatesMove := by
  intro s port
  refine ⟨fun hs => ⟨fun h => ?_, hintSend_states hs port, hintReceive_states hs port, ⟨fun h => ?_, fun x hx hl hf => hintStale_states hs port hx hl hf⟩,
    ⟨fun hd he => ?_, fun hd => ?_, fun hd he hr => ?_⟩⟩, fun ticks hs => tokenTick_states hs port⟩
  · exact Chip.still_completes (exec_splineHintSend port s) hs (Chip.hintSend_idle h)
  · exact Chip.still_completes (exec_hintStale port s) hs (Chip.hintStale_idle h)
  · refine Chip.still_completes (exec_gateEntryChange port s) hs ?_
    unfold Chip.gateEntryChange
    dsimp only
    rw [hd, he]
    rfl
  · refine gate_moves hs port ?_
    unfold Chip.gateEntryChange
    dsimp only
    rw [hd]
    rfl
  · refine gate_moves hs port ?_
    unfold Chip.gateEntryChange
    dsimp only
    rw [hd, he, hr]
    rfl

end Sys2Proof.Machine
end


section
/-! Operations that end (R151, R169, R187): their completion goes out at the host port of their channel, which may be in reset while the
port of the function that owns the CQ is not. -/

set_option Elab.async false

namespace Sys2Proof.Machine

/-- An operation of SQ 1 that has been sent and reports its end. -/
def sentOp : SendOp := { started := true, qn := 1, signal := true }

/-- SQ 1 of the PF of host port 0, bound to CQ 2. -/
def boundSq : Queue := { kind := .sq, cqn := 2 }

/-- CQ 2 of host port 0, whose owner is the PF of host port 1. -/
def strangeCq : Queue := { kind := .cq, fn := 256 }

/-- The Active channel of class 0 from host port 0 to endpoint 160, with that operation and the packets given. -/
def farChan (l : List OutPkt) : Chan := { Chan.init with sendState := .active, ops := [sentOp], outstanding := l }

/-- A chip in service whose host port 0 has PERST_N low; no route reaches endpoint 160. -/
def darkPort (l : List OutPkt) (r : List Arrival) : Chip :=
  { boot := { phase := .full }
    ports := [(0, { perst := true })]
    queues := [(1, boundSq), (2, strangeCq)]
    tr := { chans := [(640, farChan l)] }
    rt := { arrivals := r }
    dict := { active := [(pnum 0x11 0x003 0, 128)] } }

theorem darkPort_up (l : List OutPkt) (r : List Arrival) : (darkPort l r).up = true := rfl

/-- No completion has been written where nothing has gone out. -/
theorem not_opEnded {c d : Chip} {k : Nat} {a : SendOp} {q cq : Queue} {status : Nat} (hs : a.signal = true) (ho : d.out = []) :
    ¬ d.opEnded c k a q cq status := by
  rintro ⟨-, hend, -⟩
  obtain ⟨n, hmem⟩ := hend (.inr hs)
  unfold Chip.tells at hmem
  rw [ho] at hmem
  exact List.not_mem_nil hmem

/-! ### An ACK -/

/-- An ACK from endpoint 160 up to PSN 0. -/
def farAck : Packet := (newPacket 3 8 0 160 false (BitVec.ofNat 64 (0x80 * 2 ^ 56)) 0 0 0 (zeros 4)).sealed

theorem farAck_heard : (darkPort [] []).hears 0 farAck (farChan []) = true ∧ respKey 0 farAck = 640 ∧
    (farAck.rpsn - (farChan []).lowest).toNat ≤ ((farChan []).nextPsn - (farChan []).lowest).toNat := by decide +kernel

theorem darkPort_answers : (darkPort [] []).opAnswers 640 (farChan []) sentOp boundSq strangeCq = true ∧
    (darkPort [] []).chansQuiet = true := by decide +kernel

/-- The operation has ended, and its completion has gone nowhere. -/
theorem farAck_silent : ((darkPort [] []).takeAck 0 farAck).calm = true ∧ ((darkPort [] []).takeAck 0 farAck).settle.out = [] := by
  decide +kernel

/-- Refutes O35: the ACK ends the only operation, which signals; its completion is lost at its host port, whose PERST_N is low, while the
CQ belongs to a function of another port, which carries DMA. -/
theorem not_acksRetireAndComplete : ¬ Obligations.AcksRetireAndComplete := by
  intro h
  obtain ⟨hhear, hkey, hpsn⟩ := farAck_heard
  obtain ⟨hans, hquiet⟩ := darkPort_answers
  obtain ⟨hcalm, hout⟩ := farAck_silent
  obtain ⟨-, -, -, hheard⟩ := h { chip := darkPort [] [] } 0 farAck
  obtain ⟨-, -, -, hends⟩ := hheard (farChan []) hhear
  have hc := hends sentOp boundSq strangeCq rfl hpsn ⟨darkPort_up [] [], hcalm⟩ hquiet (hkey.symm ▸ hans) (by decide) (by decide) rfl
  exact not_opEnded rfl hout (hc.settled (exec_ack ..) (darkPort_up [] [])).2

/-! ### A deadline -/

/-- A packet of the operation whose deadline has come. -/
def lateOut : OutPkt := { deadline := some 0 }

theorem lateOut_answers : (darkPort [lateOut] []).opAnswers 640 (farChan [lateOut]) sentOp boundSq strangeCq = true ∧
    (darkPort [lateOut] []).chansQuiet = true ∧ (darkPort [lateOut] []).hasRoute (chRemote 640) = false ∧
    0 + 1 ≤ (darkPort [lateOut] []).param 0x21 0x032 0 := by decide +kernel

theorem lateOut_silent : ((darkPort [lateOut] []).retransmitTimeout 640 0).calm = true ∧
    ((darkPort [lateOut] []).retransmitTimeout 640 0).settle.out = [] := by decide +kernel

/-- Refutes O36: no route reaches the destination when the deadline passes, and the only operation ends with 0x08; its completion is lost
at its host port, whose PERST_N is low, while the CQ belongs to a function of another port. -/
theorem not_refusalsAndDeadlinesSendAgain : ¬ Obligations.RefusalsAndDeadlinesSendAgain := by
  rintro ⟨-, h⟩
  obtain ⟨hans, hquiet, hroute, hlimit⟩ := lateOut_answers
  obtain ⟨hcalm, hout⟩ := lateOut_silent
  obtain ⟨-, -, -, hlate, -⟩ := h { chip := darkPort [lateOut] [] } 640 0
  obtain ⟨-, -, hends, -⟩ := hlate (farChan [lateOut]) lateOut rfl rfl
  obtain ⟨hdue, -⟩ := hends sentOp boundSq strangeCq hquiet rfl hroute hans rfl
  have hc := hdue rfl hlimit ⟨darkPort_up [lateOut] [], hcalm⟩
  obtain ⟨-, -, hend⟩ := hc.settled (exec_retransmitTimeout ..) (darkPort_up [lateOut] [])
  exact not_opEnded rfl hout hend

/-! ### An atomic's result -/

/-- A fetch-and-add of the operation, not answered yet. -/
def atomicOut : OutPkt := { pkt := newPacket 2 4 160 0 false (BitVec.ofNat 64 (0x30 * 2 ^ 56)) 0 0 0 [], needsResp := true }

/-- Its result from endpoint 160. -/
def farResult : Packet := (newPacket 3 11 0 160 false (BitVec.ofNat 64 (0x84 * 2 ^ 56)) 0 0 0 (zeros 8)).sealed

theorem farResult_heard : (darkPort [atomicOut] []).hears 0 farResult (farChan [atomicOut]) = true ∧ respKey 0 farResult = 640 ∧
    (farChan [atomicOut]).out? farResult.rpsn = some atomicOut ∧ (farChan [atomicOut]).op? atomicOut.msgid = some sentOp ∧
    atomicOut.pkt.opcode = 0x30 ∧ farResult.payload.length = atomicBytes atomicOut.pkt.opcode := by decide +kernel

theorem atomicOut_answers : (darkPort [atomicOut] []).opAnswers 640 (farChan [atomicOut]) sentOp boundSq strangeCq = true ∧
    (darkPort [atomicOut] []).chansQuiet = true := by decide +kernel

theorem farResult_silent : ((darkPort [atomicOut] []).takeAtomicResult 0 farResult).calm = true ∧
    ((darkPort [atomicOut] []).takeAtomicResult 0 farResult).settle.out = [] := by decide +kernel

/-- Refutes O37: the result ends the only operation, which signals; its completion is lost at its host port, whose PERST_N is low, while
the CQ belongs to a function of another port. -/
theorem not_responsesArePlacedDelaysPass : ¬ Obligations.ResponsesArePlacedDelaysPass := by
  rintro ⟨h, -⟩
  obtain ⟨hhear, hkey, hout, hop, hcode, hlen⟩ := farResult_heard
  obtain ⟨hans, hquiet⟩ := atomicOut_answers
  obtain ⟨hcalm, hnone⟩ := farResult_silent
  obtain ⟨-, -, -, hresult⟩ := h { chip := darkPort [atomicOut] [] } 0 farResult (farChan [atomicOut]) hhear
  obtain ⟨-, -, hends⟩ := hresult atomicOut sentOp hout hop (by omega) (by omega)
  have hc := hends boundSq strangeCq ⟨darkPort_up [atomicOut] [], hcalm⟩ hlen hquiet (hkey.symm ▸ hans) rfl
  exact not_opEnded rfl hnone (hc.settled (exec_atomicResult ..) (darkPort_up [atomicOut] [])).2

/-! ### A packet without a route -/

/-- A packet of the operation on its way to endpoint 160. -/
def lostPkt : Packet := (newPacket 2 1 160 0 false (BitVec.ofNat 64 (2 ^ 56)) 0 0 0 []).sealed

/-- The channel's record of it. -/
def lostOut : OutPkt := { pkt := lostPkt, fn := some 0 }

/-- It has arrived at the router core from host port 0. -/
def lostArrival : Arrival := { inp := 60, pkt := lostPkt }

theorem lostPkt_routes : (darkPort [lostOut] [lostArrival]).firstArrival? 60 = some lostArrival ∧ lostArrival.pkt.headerFails = false ∧
    ((darkPort [lostOut] [lostArrival]).route 60 lostArrival.pkt).2 = .drop .noRoute 0x103 ∧
    640 = chKey (60 - 60) lostArrival.pkt.dst.toNat ((lostArrival.pkt.tc.toNat - 2) / 2) := by decide +kernel

theorem lostOut_found : (farChan [lostOut]).outstanding.find? (fun o => o.psn == lostArrival.pkt.psn && o.pkt.kind == lostArrival.pkt.kind &&
    o.pkt.tc == lostArrival.pkt.tc) = some lostOut := by decide +kernel

theorem lostOut_answers : (darkPort [lostOut] [lostArrival]).opAnswers 640 (farChan [lostOut]) sentOp boundSq strangeCq = true := by
  decide +kernel

theorem lostPkt_silent : ((darkPort [lostOut] [lostArrival]).packetRoute 60 true).calm = true ∧
    ((darkPort [lostOut] [lostArrival]).packetRoute 60 true).settle.out = [] := by decide +kernel

/-- Refutes O49: a packet of the own transport engines finds no route and ends its operation, the only one, with 0x08; the completion is
lost at its host port, whose PERST_N is low, while the CQ belongs to a function of another port. -/
theorem not_packetsAreRoutedAndSent : ¬ Obligations.PacketsAreRoutedAndSent := by
  intro h
  obtain ⟨hfirst, hhead, hroute, hkey⟩ := lostPkt_routes
  obtain ⟨hcalm, hout⟩ := lostPkt_silent
  obtain ⟨hinp, -⟩ := h { chip := darkPort [lostOut] [lostArrival] }
  obtain ⟨-, htaken, -⟩ := hinp 60
  obtain ⟨-, hrouted⟩ := htaken ⟨darkPort_up [lostOut] [lostArrival], hcalm⟩ lostArrival hfirst
  obtain ⟨-, -, -, hown, -⟩ := hrouted hhead
  have hc := hown 0x103 640 (farChan [lostOut]) lostOut sentOp boundSq strangeCq hroute (by decide) hkey rfl lostOut_found lostOut_answers
    rfl rfl rfl
  exact not_opEnded rfl hout (hc.settled (exec_packetRoute ..) (darkPort_up [lostOut] [lostArrival])).2

end Sys2Proof.Machine
end
